-- ==== Sys2Proof/Word.lean ====
section
/-! DEFINITION. The words of the machine: a register word, a byte, the 64- and 128-bit words, and the type of
sparse tables (canonical lists of key and value). -/
namespace Sys2Proof

/-- A register word (R7: registers are 32 bits wide). -/
abbrev Word := BitVec 32

/-- A byte, the smallest addressable unit of every memory. -/
abbrev Byte := BitVec 8

/-- A 64-bit quantity or a word of a log entry (R12, R532). -/
abbrev DWord := BitVec 64

/-- A block register or a round-unit block (R98). -/
abbrev Block := BitVec 128

/-- A sparse table: pairs of key and value, keys strictly rising, no pair whose value the table's default has. -/
abbrev Tbl (β : Type) := List (Nat × β)

end Sys2Proof
end

