-- ==== Sys2Proof/Syntax.lean ====
section
/-! DEFINITION. Syntax: the registers' names, the operand types, and `Instr`, the commands the block takes:
one constructor per row of opcode_table.json.  The table gives the rows no bits; the operands come from the rules. -/
namespace Sys2Proof

/-- The registers of the device, by the manual's names.  A 64-bit quantity is two registers (`X`, `X_HI`), as R12 says.
`DICE_CMD_*` and `STO_CMD_*` are the manual's `CMD_*` of the Dice and of the storage command block (both have the name `CMD_GO`). -/
inductive Reg where
  | BNK_STEER_TBL | POL_CTL | POL_MAN | POL_CUR | TIME_NOW_NS | TIME_NOW_SLO | TIME_NOW_SHI | TIME_CTL
  | TIME_STATUS | TIME_SET_NS | TIME_SET_SLO | TIME_SET_SHI | TIME_STEP_THR | TIME_FREQ_ADJ | TIME_OFFSET
  | TIME_STEPS | TIME_HOLD_SEC | TTB_CTL | TTB_CYCLE | TTB_STATUS | TTB_SKIP | TTB_OVERRUN | TTB_FORD_DENY
  | TTB_ARG_IGN | TTB_SLOT_W0 | TTB_SLOT_W1 | BRD_STATUS | BRD_INT_EN | BRD_SSC_CTL | CLU_CTL | CLU_ENTRY
  | CLU_START | CLU_THREAD_CMD | CLU_THREAD_PC | CLU_FAULT_W0 | CLU_FAULT_W1 | CLU_FAULT_POP | CLU_FAULT_LOST
  | CLU_CREDIT_CTL | CLU_CREDIT_STAT | CLU_BUF_CTL | CLU_BUF_ALLOC | CLU_BUF_FREE | CLU_BUF_STAT
  | CLU_BUF_ERR | CLU_RUNNING | CLU_FAULTED | HBM_HOME_STATUS | HBM_HOME_TIES | HBM_HOME_POISONED
  | MCODE_VERSION | MCODE_VERSION_HI | MCODE_STATUS | MCODE_FIX | MCODE_BACKOUT | HDW_MC_CMD | HDW_MC_STATUS
  | HDW_MC_LEN | HDW_MC_FAIL | HDW_MC_FAIL_HI | BRD_DICE_TDEF_W0 | BRD_DICE_TDEF_W1 | BRD_DICE_TDEF_W2
  | BRD_DICE_TDEF_W3 | BNK_HASH_SEED | BNK_PARSE_UDP | BNK_PARSE_APP | BNK_LEARN_CTL | BNK_INTAKE_DROP
  | BNK_INTAKE_SIDE | BNK_INTAKE_DEPTH | BRD_DICE_STAT | BRD_DICE_FULL | BRD_DICE_MAXHITS | BRD_DICE_AGED
  | BRD_DICE_LEARN_FAIL | BRD_DICE_LEARN_MOVE | BRD_DICE_CURSOR | BRD_FLOW_CTL | BRD_FLOW_TMO | BRD_FLOW_HOME
  | BRD_FLOW_FULL | BRD_FLOW_EXPIRED | DICE_CMD_KEY | DICE_CMD_VAL | DICE_CMD_ARG | DICE_CMD_GO
  | DICE_CMD_STAT | BNK_SND_CTL | BNK_SND_STAT | BNK_SND_MISSING | BNK_SND_DIFFERENT | BNK_SND_EXTRA
  | BNK_SND_REPAIRED | BNK_SND_REPAIR_FAIL | BNK_SND_DISCARDED | BNK_SND_LAST | BNK_SND_BASE
  | BNK_SND_BASE_HI | DLT_CMD_ADDR | DLT_CMD_RES | DLT_CMD | DLT_CMD_STAT | DLT_V4_COUNT | DLT_V6_COUNT
  | DLT_VRF_EN | CFL_BOOK_SNAP | CFL_BOOK_FREE | CFL_BOOK_QUEUED | CFL_BOOK_PIPE | CFL_BOOK_RECLAIM
  | CFL_BOOK_SPILLING | CFL_CELL_FLOOR | CFL_HEADROOM | CFL_SEQ_TMO | CFL_SEQ_SKIP | CFL_SEQ_LATE
  | CFL_ALLOC_FAIL | CFL_FENCE_RECLAIM | CFL_SPILL_CTL | CFL_SPILL_FRAMES | CFL_SPILL_CELLS | CFL_SPILL_FAIL
  | CFL_SPILL_UNLISTED | CFL_MC_SYNC | CFL_MC_EMPTY | CFL_MC_REJ | CFL_PROF_W0 | CFL_PROF_W1 | CFL_PROF_W2
  | CFL_PROF_W3 | CFL_QADM | CFL_QDEPTH | CFL_MC_GRP_W0 | CFL_MC_GRP_W1 | CFL_MC_LIST_W0 | CFL_MC_LIST_W1
  | CFL_PREP | EDY_SES_CTL | EDY_SES_QUEUE | EDY_SES_SAMPLE | EDY_SES_COPIES | EDY_SES_DROPS | EDY_SRC
  | SCH_ECN_MARKS | SCH_CFG_REJ | SCH_Q_W0 | SCH_Q_W1 | SCH_N_CFG | SCH_N_CIR | SCH_N_PIR | SCH_N_CBS
  | SCH_N_PBS | SCH_N_TC | SCH_N_TP | SCH_N_STAT | SCH_P_CFG | SCH_P_STAT | SCH_POL_CIR | SCH_POL_PIR
  | SCH_POL_CBS | SCH_POL_PBS | SCH_POL_TC | SCH_POL_TP | SCH_POL_YELLOW | SCH_POL_RED | GATE_CTL
  | GATE_BASE_NS | GATE_BASE_SLO | GATE_BASE_SHI | GATE_CYCLE | GATE_EXT | GATE_LEN | GATE_POS | GATE_CHANGES
  | GATE_REJ | GATE_ENTRY | GAU_CTL | GAU_FIRST | GAU_COUNT | GAU_PERIOD | GAU_PROD | GAU_CONS | GAU_LOST
  | GAU_SKIPPED | GAU_BASE | GAU_BASE_HI | KEY_TBL_IN | KEY_TBL_IDX | KEY_TBL_ATTR | KEY_TBL_CMD
  | KEY_TBL_STAT | KEY_TBL_COUNT | HDW_DIE_STATUS | HDW_DIE_CTL | HDW_DIE_RESEEDS | BRD_KEY_MISS
  | BRD_KEY_BADCHK | BRD_GATE_TMO | BRD_GATE_FAIL | BRD_GATE_TIMEOUT | BRD_GATE_DROP | BRD_GATE_ZERO_ERR
  | CFL_SQ_NEXT | CFL_SQ_CTL | CFL_SQ_SOFT | CFL_SQ_KEY | CFL_SQ_VAL | CFL_SQ_VAL_HI | CFL_SQ_LIMIT
  | CFL_SQ_LIMIT_HI | CFL_SQ_HI | CFL_SQ_EVQ | CFL_SQ_EVQ_LOST | CFL_SQ_REJ | BNK_STO_CTL | BNK_STO_CPL
  | BNK_STO_SLOTS | BNK_STO_SYNC | BNK_STO_HOLD_TMO | BNK_STO_EVQ | BNK_STO_STG_ALLOC | BNK_STO_STG_FREE
  | BNK_STO_LATE | BNK_STO_ERRS | BNK_STO_EVQ_LOST | BNK_STO_STG_ERR | BNK_STO_PERS | STO_CMD_DATA
  | STO_CMD_IDX | STO_CMD_GO | STO_CMD_STAT | FRY_UP_MSG | FRY_UP_CTL | FRY_DN_MSG | FRY_DN_STAT
  | FRY_DN_TAKE | FRY_IRQ | PCI_FRY_UP_MSG | PCI_FRY_UP_STAT | PCI_FRY_UP_TAKE | PCI_FRY_DN_MSG
  | PCI_FRY_DN_CTL | PCI_FRY_REJ | PCI_EP_CFG | PCI_EP_STAT | PCI_FRY_NOTE | PCI_FRY_PEND | RING_TXDB
  | RING_RXDB | RING_SIZE | RING_IRQ | RING_WRR | RING_ARM | RING_TXBASE | RING_TXBASE_HI | RING_RXBASE
  | RING_RXBASE_HI | DMA_ACT | DMA_SHD | DMA_STAT | DMA_CTL | DMA_ERRS | DMA_DESCS | DMA_BYTES | DMA_BYTES_HI
  | RNG_CTL | RNG_XLATE_FAIL | RNG_FN_CTL | RNG_FN_DBREJ | RNG_FN_MALF | RNG_FN_BUSERR | RNG_FN_QSEL
  | RNG_FN_QVIEW0 | RNG_FN_QVIEW1 | RNG_FN_BW | RNG_FN_PPS | RNG_FN_BURST | RNG_FN_DBRATE | RNG_FN_WEIGHT
  | RNG_FN_FRZ | RNG_FN_IMGLEN | RNG_FN_IMG | RNG_FN_IMG_HI | INS_STAT | INS_ID | INS_DB_MERGE
  | INS_ADM_DROPS | INS_ADM_DROPS_HI | BRD_INS_W0 | BRD_INS_W1 | MAC_PORT_CFG | MAC_PORT_STAT | MAC_FC_CTL
  | MAC_PCP_MAP | MAC_FC_THR | MAC_FC_HELD | MAC_EEE_CTL | MAC_PTP_CTL | ATL_PTP_CTL | MAC_TXTS_ID
  | ATL_TXTS_ID | MAC_TXTS_NS | ATL_TXTS_NS | MAC_TXTS_SEC | ATL_TXTS_SEC | MAC_TXTS_LOST | ATL_TXTS_LOST
  | MAC_SLACK_CTL | ATL_SLACK_CTL | MAC_SLACK_STAT | ATL_SLACK_STAT | MAC_SLACK_MISS | ATL_SLACK_MISS
  | MAC_SLACK_WAKE | ATL_SLACK_WAKE | MAC_SLACK_SLEPT | ATL_SLACK_SLEPT | ATL_CFG | ATL_STAT | ATL_CRED
  | ATL_REQ | ATL_HDR_BAD | ATL_CRED_VIOL | MAC_STAT | MAC_STAT_HI | ATL_STATS | ATL_STATS_HI | HDW_DISC_CMD
  | HDW_DISC_STAT | HDW_DISC_REJ | HDW_DISC_W0 | HDW_DISC_W1 | HDW_LC_STAT | HDW_LC_CHAL | HDW_LC_CMD
  | HDW_DBG_LEFT | HDW_LC_NONCE | HDW_LC_TOKEN | HDW_VAULT_CMD | HDW_VAULT_STAT | HDW_VAULT_LEN
  | HDW_VAULT_SEQ | HDW_VAULT_WEAR | HDW_VAULT_COMMITS | HDW_VAULT_BADCOPY | HDW_PWR_CMD | HDW_PWR_STAT
  | HDW_PWR_TEMP | HDW_PWR_PFAIL | HDW_PWR_TRIMS | HDW_VAULT_BUF | TRB_STAT | TRB_IEN | TRB_HIST | TRB_INJ
  | TRB_HENT | LOG_CTL | LOG_WIDX | LOG_SEQ | LOG_LAP | LOG_DROP | HDW_COMPAT | CNT_CTL | CNT_VAL
  | CNT_VAL_HI | CNT_SNAP | CNT_SNAP_HI | CNT_SNAP_CYC | HDW_BOOT_STAT | HDW_BOOT_MS | HDW_BOOT_WHY
  | HDW_BOOT_WHY_HI | HDW_FLASH_ADDR | HDW_FLASH_CMD | HDW_FLASH_STAT | HDW_FLASH_WIN | HDW_MC_WIN | AP_BASE
  | AP_BASE_HI | LOG_ENT | PCIE_CMD | PCIE_PMCSR | PCIE_MSIX_CTL | PCIE_MSIX_ADDR | PCIE_MSIX_ADDR_HI
  | PCIE_MSIX_DATA | PCIE_MSIX_VCTL | PCIE_MSIX_PBA | PCIE_SRIOV | PCIE_DEVCTL | PCIE_ATS | PCIE_BAR
  | PCI_CFG | PCIE_PBA_DW | FN_BAR0 | PF1_BAR2 | PF1_ROM | PCIE_RDY | PCIE_AER | PCIE_AER_MASK | PCIE_AER_SEV
  | NVME_CAP | NVME_CAP_HI | NVME_VS | NVME_SQTDBL | NVME_CQHDBL | NVME_CC | NVME_CSTS | NVME_AQA | NVME_ASQ
  | NVME_ASQ_HI | NVME_ACQ | NVME_ACQ_HI
deriving DecidableEq, Repr

/-- Who sends a register access or a bus access (R25, R26, R28, R399): the manager through PF1 BAR0 of an
endpoint, an engine thread, a DMA channel, firmware on the management engines, the tenant driver through the
instance's BAR0, or the debug access port. -/
inductive Requester where
  | pf1 (ep : BitVec 5)
  | thread (th : Nat)
  | dma (ch : Nat)
  | firmware
  | host (inst : Nat)
  | debug
deriving DecidableEq, Repr

/-- The units that work Tide Table firings (R72, R75, R82). -/
inductive Unit_ where
  | dice (board : BitVec 3)
  | auditor (bank : BitVec 2)
  | hbm (bank : BitVec 2)
  | clusterMem (cl : BitVec 6)
  | cells
  | microcode (cl : BitVec 6)
  | counters (chiplet : BitVec 4)
  | vault
  | keyCache (board : BitVec 3)
  | netMac (port : BitVec 8)
  | attachMac (link : BitVec 5)
  | gates
deriving DecidableEq, Repr

/-- What a firing carries over the mesh (R73, R82, R86): its cycle, ARG, LEN, FORD and DEFERRED. -/
structure Firing where
  cycle    : Nat
  arg      : BitVec 10
  len      : BitVec 6
  ford     : Bool
  deferred : Bool
deriving DecidableEq, Repr

/-- A MAC: network port p of the module, 0 to 255, or attach link a, 0 to 31 (R17, R468). -/
inductive MacPort where
  | net (port : BitVec 8)
  | attach (link : BitVec 5)
deriving DecidableEq, Repr

/-- The sources of phase and of the time of day (R62). -/
inductive TimeSource where
  | pps | ptp
deriving DecidableEq, Repr

/-- The states of a PTP port (R59, R65), as IEEE 1588-2019 names them; the spec itself names DISABLED, MASTER and SLAVE. -/
inductive PtpState where
  | disabled | initializing | faulty | listening | preMaster | master | passive | uncalibrated | slave
deriving DecidableEq, Repr

/-- The cluster configuration registers of R179 that only load a setting. -/
inductive CluCfg where
  | ctl | entry | credit | buf
deriving DecidableEq, Repr

/-- The inputs of R33, and `none` for a handle that HNEW made (R257, R263). -/
inductive Input where
  | port (p : BitVec 8)
  | attach (a : BitVec 5)
  | ring (inst : Nat) (q : BitVec 6)
  | sq (inst : Nat) (q : BitVec 7)
  | none
deriving DecidableEq, Repr

/-- A token bucket pair (R297, R301): of a subscriber node (0 to 65,535) or service node (65,536 on), or of a policer. -/
inductive BucketId where
  | node (n : Nat)
  | policer (n : BitVec 18)
deriving DecidableEq, Repr

/-- A child of the scheduling hierarchy whose PARENT or BAND may be pending (R290). -/
inductive SchedChild where
  | queue (q : BitVec 20)
  | node (n : Nat)
deriving DecidableEq, Repr

/-- A request through PF1 BAR0 (R397 to R399): a read or a write of `len` bytes. -/
inductive BarReq where
  | read (len : Nat)
  | write (bytes : List Byte)
deriving DecidableEq, Repr

/-- How the accesses of a DMA descriptor, or of one of its bursts, end (R436): the bytes that a host source gave; or an
access of the source or destination side fails at an offset, as a bus error or as uncorrectable data. -/
inductive DmaResult where
  | ok (data : List Byte)
  | fail (dst dataErr : Bool) (offset : Nat) (data : List Byte)
deriving DecidableEq, Repr

/-- An event as a unit reports it (R531 to R533). -/
structure TroubleEv where
  grp  : Nat
  code : BitVec 16
  sev  : BitVec 2
  data : BitVec 64
deriving DecidableEq, Repr

/-- A host request that may time out (R456). -/
inductive TimedReq where
  | descFetch (q : BitVec 6) (rx : Bool)
  | txData (q : BitVec 6)
  | subFetch (q : BitVec 7)
  | dma (ch : Nat)
deriving DecidableEq, Repr

/-- An MCTP message over SMBus, as far as firmware acts on it (R560). -/
inductive MctpMsg where
  | bootStat
  | flashWrite (page : BitVec 18) (data : List Byte)
  | provision
deriving DecidableEq, Repr

/-- The Slack water organizational TLV of R480: the flags OFFER, ACCEPT, WITHDRAW and CAPABLE, P, O, D and G in ns, START,
SKIP and PLACE. -/
structure SlackTlv where
  offer    : Bool
  accept   : Bool
  withdraw : Bool
  capable  : Bool
  p        : Nat
  o        : Nat
  d        : Nat
  g        : Nat
  start    : Nat
  skip     : Nat
  place    : Nat
deriving DecidableEq, Repr

/-- What the tests of start-up steps 2 and 5 find (R336, R553, R558): failing Die tests (RCT, APT), chiplets whose mesh link,
self-test or regulator fails, healthy clusters, and failed endpoints, network ports and attach links. -/
structure BootTests where
  die       : BitVec 2
  link      : BitVec 16
  selfTest  : BitVec 16
  regulator : BitVec 16
  clusters  : BitVec 64
  endpoints : BitVec 32
  ports     : BitVec 256
  links     : BitVec 32
deriving DecidableEq, Repr
/-- The commands: every row of opcode_table.json, in its order.  The docstrings are the rows' summaries. -/
inductive Instr where
  /-- R14: VIN rising, or leaving Hold, resets the whole module including vault session state and starts the start-up sequence. -/
  | moduleColdReset (place : BitVec 20) (fuses : BitVec 3) (tests : BootTests)
  /-- R14: The module reset pin or the manager resets the whole module except the fields declared to survive and the MRAM. -/
  | moduleWarmReset (tests : BootTests)
  /-- R14: A boot test failure or the manager fences one chiplet until the next module reset. -/
  | chipletFence (chiplet : BitVec 4) (cause : BitVec 4)
  /-- R14: PERST# or a PCIe hot reset resets one endpoint and all its functions. -/
  | endpointReset (ep : BitVec 5)
  /-- R456: A function-wide reset ends once 10 µs have passed, the instance's queues are empty and no request is outstanding, and STATE becomes IDLE. -/
  | functionResetEnd (inst : Nat)
  /-- R453: 50 ms after a reset starts, the Bank drops stamped stale-generation vectors still in intake and retires their sequence numbers. -/
  | staleVectorDrop (inst : Nat)
  /-- R380: After 50 ms in quarantine, the busy command slots of a reset storage instance become free. -/
  | slotQuarantineEnd (inst : Nat)
  /-- R196: At 100 µs of quiesce, the cluster backs out every thread still waiting in a side-effect-free long stall. -/
  | reloadQuiesceLimit (cl : BitVec 6) (mismatch : BitVec 2)
  /-- R12: A read of the low word of a 64-bit quantity captures the high word into the holding latch, and for an RC quantity clears both words. -/
  | quantityLowRead (r : Reg) (i : Nat)
  /-- R12: A write of the low word of a 64-bit quantity goes to the staging latch and changes nothing else. -/
  | quantityLowWrite (r : Reg) (i : Nat) (v : BitVec 32)
  /-- R12: A write of the high word commits the staged low word and the written high word in one clock. -/
  | quantityHighWrite (r : Reg) (i : Nat) (v : BitVec 32)
  /-- R11: A read of an RC field returns its value and sets it to zero, with an event of the same clock counting in the new period. -/
  | rcFieldRead (r : Reg) (i : Nat) (events : BitVec 32)
  /-- R7: A write to a register with no behaviour of its own acts by the field types, locks and reserved-bit rules. -/
  | registerWrite (who : Requester) (r : Reg) (i : Nat) (v : BitVec 32)
  /-- R26: An access to an unassigned address, a fenced chiplet or an unreachable chiplet completes with a bus error and no side effect. -/
  | unassignedAccess (who : Requester) (addr : BitVec 48) (write : Bool)
  /-- R22: A mesh flit that fails its CRC check is retried and counted in the link's retry counter. -/
  | meshFlitRetry (chiplet : BitVec 4)
  /-- R22: After 1 µs of retries without delivery, the link fails, outstanding transactions end with bus errors and a fatal fault is logged. -/
  | meshLinkFail (chiplet : BitVec 4)
  /-- R553: HBM training completes in step 7 and the device initialises and maps HBM, or declares it absent. -/
  | hbmTrainingDone (trained : BitVec 4)
  /-- R553: Start-up reaches step 9 and STAGE becomes SERVICE. -/
  | serviceEntry (ms : BitVec 32)
  /-- R557: VIN below 4.0 V ends operation, and the module is Off until the next cold reset. -/
  | supplyLoss
  /-- R35: A write of BNK_STEER_TBL.BOARD records a pending steering change, with no effect when it names a fenced Board. -/
  | steerEntryWrite (bank : BitVec 2) (entry : BitVec 12) (board : BitVec 3)
  /-- R34: A pending steering entry moves to its new Board once its in-flight count is zero. -/
  | steerEntryMove (bank : BitVec 2) (entry : BitVec 12)
  /-- R577: At the end of each 4.096 µs interval in ADAPT, a Bank moves at most one steering entry from its deepest to its shallowest Board. -/
  | steerBalanceInterval (bank : BitVec 2)
  /-- R48: A write of POL_CTL.MODE sets ADAPT, HOLD or MANUAL, freezing or resuming the policy value. -/
  | polCtlWrite (p : Nat) (v : BitVec 32)
  /-- R49: In MANUAL the clamped POL_MAN value takes effect within 2 µs and POL_CUR shows it. -/
  | policyManualApply (p : Nat)
  /-- R268: At the end of each 4.096 µs interval in ADAPT, the device adjusts the admission factor s by refusals and free cells. -/
  | admissionAdapt
  /-- R312: At the end of each 4.096 µs interval in ADAPT, the device adjusts the sojourn threshold by the free book and marks. -/
  | ecnAdapt
  /-- R225: In ADAPT the device raises or lowers the Dice hit limit by 4 according to relocation depth and parked entries. -/
  | diceHitLimitAdapt (board : BitVec 3)
  /-- R232: In ADAPT the device doubles or halves the Dredge block count by partition fullness. -/
  | dredgeSpeedAdapt (board : BitVec 3)
  /-- R486: At the end of each second of network time in ADAPT, the device doubles or halves the offered SKIP by link utilisation. -/
  | slackSkipAdapt (link : MacPort) (permille : Nat)
  /-- R525: At the end of each 1 ms in ADAPT, the device lowers or raises the power cap by 50 W by junction and case temperature. -/
  | powerCapAdapt (tj tc : BitVec 8)
  /-- R54: Each Headwater clock the network-time unit adds 1 ns plus the frequency correction and any slew to the master time. -/
  | timeAdvance
  /-- R60: A rising edge on PPS_IN is judged valid or invalid and updates the PPS validity. -/
  | ppsEdge
  /-- R60: An expected PPS edge that does not arrive counts toward PPS_IN being lost. -/
  | ppsEdgeMissing
  /-- R61: A frequency measurement of TREF10_IN against OSC25_IN makes it valid or lost. -/
  | tref10Measure (ppb : Int)
  /-- R61: 1 µs without an edge on TREF10_IN makes it lost. -/
  | tref10EdgeTimeout
  /-- R63: PPS_OUT rises at each network-time second boundary when enabled. -/
  | ppsOutRise
  /-- R63: PPS_OUT falls 1 ms after it rose. -/
  | ppsOutFall
  /-- R58: Firmware takes a received PTP message for its domain into the protocol engine, or drops and counts one for another domain. -/
  | ptpMessageReceive (port : MacPort) (domain : BitVec 8) (outcome : PtpState)
  /-- R65: Expiry of announceReceiptTimeout invalidates a PTP slave port. -/
  | announceReceiptTimeout (port : MacPort)
  /-- R65: A measured offset from the phase source advances LOCKING toward LOCKED after 16 measurements within ±100 ns. -/
  | phaseMeasurement (src : TimeSource) (offset : Int) (freq : BitVec 32)
  /-- R67: Each whole second of HOLDOVER on the Headwater clock increments TIME_HOLD_SEC. -/
  | holdoverSecond
  /-- R68: A write of TIME_CTL.SET applies TIME_SET_* in FREE or HOLDOVER, or sets SET_REJ otherwise. -/
  | timeSet
  /-- R69: A correction of network time falls due and is slewed, or scheduled as a step, replacing any earlier correction. -/
  | timeCorrectionDue (src : TimeSource) (wanted : Nat)
  /-- R85: At each tide-cycle boundary the master evaluates the next cycle, marks skipped entries deferred and sends firings, or waits after a backward step. -/
  | tideBoundary
  /-- R79: A write of TTB_CTL.LOG2_LEN sets, replaces or cancels a pending calendar length, or applies it at once before SERVICE. -/
  | ttbCtlWrite (v : BitVec 32)
  /-- R77: A write of TTB_SLOT_W1 goes to the slot's own staging latch. -/
  | ttbSlotW1Write (slot : BitVec 16) (v : BitVec 32)
  /-- R77: A write of TTB_SLOT_W0 commits word 0 and the slot's latch in one clock, refused through PF1 for classes 0x4 and 0x6. -/
  | ttbSlotW0Write (who : Requester) (slot : BitVec 16) (v : BitVec 32)
  /-- R75: A unit starts its pending firing of a class when the previous firing of that class ends. -/
  | pendingFiringStart (u : Unit_) (cls : BitVec 4)
  /-- R83: A ford window closes when its length elapses, its work ends or network time steps. -/
  | fordWindowClose (u : Unit_)
  /-- R81: A background request that has waited 1,023 unit clocks takes the next clock over foreground. -/
  | backgroundStarvationGrant (u : Unit_)
  /-- R230: A class 0x1 firing makes each Dice partition visit N buckets from its cursor, or 2N when deferred. -/
  | dredgeFiring (board : BitVec 3) (f : Firing)
  /-- R231: One Dredge bucket visit passes the pipe, clearing HIT, setting STALE or removing idle entries. -/
  | dredgeBucketVisit (board : BitVec 3)
  /-- R233: A class 0x2 firing starts the audit of the auditor's next audited table. -/
  | soundingFiring (bank : BitVec 2) (f : Firing)
  /-- R235: A background pipe operation flips the audit epoch of a table in one partition. -/
  | auditEpochFlip (table : BitVec 12) (board : BitVec 3) (head : Option (List (BitVec 8)))
  /-- R236: A conditional repair insert, update or delete passes the pipe only if the table's CHANGES still equals c0. -/
  | soundingRepair (bank : BitVec 2) (gen : Option (BitVec 32)) (rec : Option (List (BitVec 8)))
  /-- R238: At the end of an audit the auditor adds or discards its counts and logs a reported mismatch. -/
  | soundingAuditEnd (bank : BitVec 2) (head : Option (List (BitVec 8)))
  /-- R545: A class 0x3 firing makes each targeted unit check the next words from its scrub cursor. -/
  | memoryScrubFiring (u : Unit_) (f : Firing)
  /-- R201: A class 0x4 firing rewrites each selected cluster's microstore, nanostore and match table from the master copy. -/
  | microcodeRefresh (board : BitVec 3) (f : Firing)
  /-- R549: A class 0x5 firing copies every counter of a targeted chiplet into SNAP, and zeroes VAL with ARG[0]. -/
  | counterSnapshot (chiplet : BitVec 4) (f : Firing)
  /-- R506: A class 0x6 firing sends an epoch mark to every key cache and makes the Die reseed. -/
  | keyEpoch (f : Firing)
  /-- R482: A non-deferred class 0x7 firing lets each link of the group take window m and stop sending until W(m) + D. -/
  | slackWaterFiring (link : MacPort) (f : Firing)
  /-- R306: A class 0x8 firing takes each armed port it names and computes its change instant. -/
  | gateListChangeFiring (f : Firing)
  /-- R183: An engine executes one microword for the thread it issues from. -/
  | cycle (eng : Nat)
  /-- R106: The condition of a long stall is met and the thread becomes ready again. -/
  | longStallEnd (th : Nat)
  /-- R111: ADD writes the sum of two registers. -/
  | add (th : Nat) (rd rs1 rs2 : BitVec 5)
  /-- R111: SUB writes the difference of two registers. -/
  | sub (th : Nat) (rd rs1 rs2 : BitVec 5)
  /-- R111: AND writes the bitwise and of two registers. -/
  | and (th : Nat) (rd rs1 rs2 : BitVec 5)
  /-- R111: OR writes the bitwise or of two registers. -/
  | or (th : Nat) (rd rs1 rs2 : BitVec 5)
  /-- R111: XOR writes the bitwise exclusive or of two registers. -/
  | xor (th : Nat) (rd rs1 rs2 : BitVec 5)
  /-- R111: SLL shifts left by a register amount. -/
  | sll (th : Nat) (rd rs1 rs2 : BitVec 5)
  /-- R111: SRL shifts right with zero fill by a register amount. -/
  | srl (th : Nat) (rd rs1 rs2 : BitVec 5)
  /-- R111: SRA shifts right with sign fill by a register amount. -/
  | sra (th : Nat) (rd rs1 rs2 : BitVec 5)
  /-- R111: SLT writes 1 if the first register is signed-less than the second. -/
  | slt (th : Nat) (rd rs1 rs2 : BitVec 5)
  /-- R111: SLTU writes 1 if the first register is unsigned-less than the second. -/
  | sltu (th : Nat) (rd rs1 rs2 : BitVec 5)
  /-- R111: MIN writes the signed minimum. -/
  | min (th : Nat) (rd rs1 rs2 : BitVec 5)
  /-- R111: MAX writes the signed maximum. -/
  | max (th : Nat) (rd rs1 rs2 : BitVec 5)
  /-- R111: MINU writes the unsigned minimum. -/
  | minu (th : Nat) (rd rs1 rs2 : BitVec 5)
  /-- R111: MAXU writes the unsigned maximum. -/
  | maxu (th : Nat) (rd rs1 rs2 : BitVec 5)
  /-- R111: MUL writes the low 32 bits of the product. -/
  | mul (th : Nat) (rd rs1 rs2 : BitVec 5)
  /-- R111: MULHU writes the high word of the unsigned product. -/
  | mulhu (th : Nat) (rd rs1 rs2 : BitVec 5)
  /-- R111: MULH writes the high word of the signed product. -/
  | mulh (th : Nat) (rd rs1 rs2 : BitVec 5)
  /-- R111: CLZ writes the count of leading zero bits. -/
  | clz (th : Nat) (rd rs1 : BitVec 5)
  /-- R111: POPC writes the count of one bits. -/
  | popc (th : Nat) (rd rs1 : BitVec 5)
  /-- R111: REV8 reverses the byte order of a register. -/
  | rev8 (th : Nat) (rd rs1 : BitVec 5)
  /-- R111: SEXTB sign-extends the low byte. -/
  | sextb (th : Nat) (rd rs1 : BitVec 5)
  /-- R111: SEXTH sign-extends the low halfword. -/
  | sexth (th : Nat) (rd rs1 : BitVec 5)
  /-- R111: ADD1C writes the one's-complement sum of the halfwords of two registers. -/
  | add1c (th : Nat) (rd rs1 rs2 : BitVec 5)
  /-- R111: CRCW updates a CRC-32C state with four bytes. -/
  | crcw (th : Nat) (rd rs1 rs2 : BitVec 5)
  /-- R112: ADDI adds a sign-extended immediate. -/
  | addi (th : Nat) (rd rs1 : BitVec 5) (imm : BitVec 16)
  /-- R112: ANDI ands a zero-extended immediate. -/
  | andi (th : Nat) (rd rs1 : BitVec 5) (imm : BitVec 16)
  /-- R112: ORI ors a zero-extended immediate. -/
  | ori (th : Nat) (rd rs1 : BitVec 5) (imm : BitVec 16)
  /-- R112: XORI exclusive-ors a zero-extended immediate. -/
  | xori (th : Nat) (rd rs1 : BitVec 5) (imm : BitVec 16)
  /-- R112: SLTI compares signed against an immediate. -/
  | slti (th : Nat) (rd rs1 : BitVec 5) (imm : BitVec 16)
  /-- R112: SLTIU compares unsigned against a sign-extended immediate. -/
  | sltiu (th : Nat) (rd rs1 : BitVec 5) (imm : BitVec 16)
  /-- R112: LUI loads an immediate into the upper halfword. -/
  | lui (th : Nat) (rd : BitVec 5) (imm : BitVec 16)
  /-- R112: SLLI shifts left by an immediate. -/
  | slli (th : Nat) (rd rs1 sh : BitVec 5)
  /-- R112: SRLI shifts right with zero fill by an immediate. -/
  | srli (th : Nat) (rd rs1 sh : BitVec 5)
  /-- R112: SRAI shifts right with sign fill by an immediate. -/
  | srai (th : Nat) (rd rs1 sh : BitVec 5)
  /-- R112: EXT extracts a zero-extended bit field. -/
  | ext (th : Nat) (rd rs1 pos len1 : BitVec 5)
  /-- R112: INS inserts a bit field into the destination. -/
  | ins (th : Nat) (rd rs1 pos len1 : BitVec 5)
  /-- R113: BEQ branches when two registers are equal. -/
  | beq (th : Nat) (rs1 rs2 : BitVec 5) (off : BitVec 16)
  /-- R113: BNE branches when two registers differ. -/
  | bne (th : Nat) (rs1 rs2 : BitVec 5) (off : BitVec 16)
  /-- R113: BLT branches on signed less than. -/
  | blt (th : Nat) (rs1 rs2 : BitVec 5) (off : BitVec 16)
  /-- R113: BGE branches on signed greater or equal. -/
  | bge (th : Nat) (rs1 rs2 : BitVec 5) (off : BitVec 16)
  /-- R113: BLTU branches on unsigned less than. -/
  | bltu (th : Nat) (rs1 rs2 : BitVec 5) (off : BitVec 16)
  /-- R113: BGEU branches on unsigned greater or equal. -/
  | bgeu (th : Nat) (rs1 rs2 : BitVec 5) (off : BitVec 16)
  /-- R113: JAL jumps relative and links in g31. -/
  | jal (th : Nat) (off : BitVec 26)
  /-- R113: JALR jumps to a register plus offset and links. -/
  | jalr (th : Nat) (rd rs1 : BitVec 5) (imm : BitVec 16)
  /-- R115: LDB loads a zero-extended byte from a space. -/
  | ldb (th : Nat) (sp : BitVec 2) (rt rs1 : BitVec 5) (off : BitVec 14)
  /-- R115: LDH loads a zero-extended halfword from a space. -/
  | ldh (th : Nat) (sp : BitVec 2) (rt rs1 : BitVec 5) (off : BitVec 14)
  /-- R115: LDW loads a word from a space. -/
  | ldw (th : Nat) (sp : BitVec 2) (rt rs1 : BitVec 5) (off : BitVec 14)
  /-- R115: LDQ loads 16 bytes into a block register. -/
  | ldq (th : Nat) (sp : BitVec 2) (bt : BitVec 3) (rs1 : BitVec 5) (off : BitVec 14)
  /-- R115: STB stores a byte to a space. -/
  | stb (th : Nat) (sp : BitVec 2) (rt rs1 : BitVec 5) (off : BitVec 14)
  /-- R115: STH stores a halfword to a space. -/
  | sth (th : Nat) (sp : BitVec 2) (rt rs1 : BitVec 5) (off : BitVec 14)
  /-- R115: STW stores a word to a space. -/
  | stw (th : Nat) (sp : BitVec 2) (rt rs1 : BitVec 5) (off : BitVec 14)
  /-- R115: STQ stores a block register to a space. -/
  | stq (th : Nat) (sp : BitVec 2) (bt : BitVec 3) (rs1 : BitVec 5) (off : BitVec 14)
  /-- R104: A posted store takes effect in its space and frees its posted-store entry. -/
  | postedStoreComplete (th : Nat)
  /-- R117: AADD atomically adds and returns the old word. -/
  | aadd (th : Nat) (sp : BitVec 2) (rd rs1 rs2 : BitVec 5)
  /-- R117: AAND atomically ands and returns the old word. -/
  | aand (th : Nat) (sp : BitVec 2) (rd rs1 rs2 : BitVec 5)
  /-- R117: AOR atomically ors and returns the old word. -/
  | aor (th : Nat) (sp : BitVec 2) (rd rs1 rs2 : BitVec 5)
  /-- R117: AXOR atomically exclusive-ors and returns the old word. -/
  | axor (th : Nat) (sp : BitVec 2) (rd rs1 rs2 : BitVec 5)
  /-- R117: ASWP atomically swaps and returns the old word. -/
  | aswp (th : Nat) (sp : BitVec 2) (rd rs1 rs2 : BitVec 5)
  /-- R117: ACAS atomically compares and swaps and returns the old word. -/
  | acas (th : Nat) (sp : BitVec 2) (rd rs1 rs2 : BitVec 5)
  /-- R117: AMAXU atomically stores the unsigned maximum and returns the old word. -/
  | amaxu (th : Nat) (sp : BitVec 2) (rd rs1 rs2 : BitVec 5)
  /-- R117: AMINU atomically stores the unsigned minimum and returns the old word. -/
  | aminu (th : Nat) (sp : BitVec 2) (rd rs1 rs2 : BitVec 5)
  /-- R120: BXOR exclusive-ors two block registers. -/
  | bxor (th : Nat) (bd ba bb : BitVec 3)
  /-- R120: BAND ands two block registers. -/
  | band (th : Nat) (bd ba bb : BitVec 3)
  /-- R120: BOR ors two block registers. -/
  | bor (th : Nat) (bd ba bb : BitVec 3)
  /-- R120: BMOV copies a block register. -/
  | bmov (th : Nat) (bd ba : BitVec 3)
  /-- R120: BZERO clears a block register. -/
  | bzero (th : Nat) (bd : BitVec 3)
  /-- R120: BREV reverses the bytes of a block register. -/
  | brev (th : Nat) (bd ba : BitVec 3)
  /-- R120: BINC increments the last word of a block register. -/
  | binc (th : Nat) (bd ba : BitVec 3)
  /-- R120: BMASK keeps the first n bytes of a block register and zeroes the rest. -/
  | bmask (th : Nat) (bd ba : BitVec 3) (rs1 : BitVec 5)
  /-- R120: BPUT writes a general register into a lane of a block register. -/
  | bput (th : Nat) (bd ba : BitVec 3) (lane : BitVec 2) (rs1 : BitVec 5)
  /-- R120: BGET reads a lane of a block register into a general register. -/
  | bget (th : Nat) (rd : BitVec 5) (ba : BitVec 3) (lane : BitVec 2)
  /-- R120: XTSA multiplies a block by alpha under IEEE 1619. -/
  | xtsa (th : Nat) (bd ba : BitVec 3)
  /-- R120: GMUL multiplies two blocks in GF(2^128). -/
  | gmul (th : Nat) (bd ba bb : BitVec 3)
  /-- R125: TAGCMP compares two tags in constant time and releases or fails the thread's gate. -/
  | tagcmp (th : Nat) (rd : BitVec 5) (ba bb : BitVec 3) (rs1 : BitVec 5)
  /-- R343: Within 1 µs of a gate failure, every gated cluster buffer of the thread is overwritten with zeros. -/
  | gatedBufferZero (th : Nat)
  /-- R343: A channel zeroes every byte its failed gated transfers wrote and ends them with GATEFAIL. -/
  | gatedTransferZeroOverwrite (ch : Nat) (errors : BitVec 32)
  /-- R344: A gate open for BRD_GATE_TMO fails and counts in BRD_GATE_TIMEOUT. -/
  | gateTimeout (th : Nat)
  /-- R121: AESE resolves the key handle, sets GATED for a gate key and encrypts a block on a round unit. -/
  | aese (th : Nat) (bd ba : BitVec 3) (rs1 : BitVec 5)
  /-- R121: AESD resolves the key handle and decrypts a block on a round unit. -/
  | aesd (th : Nat) (bd ba : BitVec 3) (rs1 : BitVec 5)
  /-- R122: A round unit finishes its Nr clocks, writes the result and frees. -/
  | roundUnitDone (eng : Nat) (u : Bool)
  /-- R333: The key fetcher completes a miss fetch, checks CHECK, expands the key and fills the cache, or faults on a bad entry. -/
  | keyFetchDone (board : BitVec 3) (index : BitVec 20) (readOk : Bool)
  /-- R127: PFETCH discards the previous stream and streams blocks of a handle into the read FIFO. -/
  | pfetch (th : Nat) (rd rs1 : BitVec 5)
  /-- R127: A streamed payload block arrives in the thread's read FIFO. -/
  | payloadBlockArrive (th : Nat)
  /-- R127: PLDB takes the next streamed block into a block register. -/
  | pldb (th : Nat) (bd : BitVec 3)
  /-- R127: PSTB posts a block write into a handle, gated while GATED is 1. -/
  | pstb (th : Nat) (ba : BitVec 3) (rs1 rd : BitVec 5)
  /-- R127: A posted PSTB is written into cells and leaves the write FIFO. -/
  | payloadWriteDone (th : Nat)
  /-- R127: PWAIT waits until every PSTB of the thread is written into cells. -/
  | pwait (th : Nat)
  /-- R129: DLK looks a key up in a Dice table and sets HIT on a hit. -/
  | dlk (th : Nat) (rd rs1 : BitVec 5) (bd ba : BitVec 3)
  /-- R222: DINS inserts a key and value into Dice through the partition pipe, relocating by hits. -/
  | dins (th : Nat) (rd rs1 : BitVec 5) (ba bb : BitVec 3)
  /-- R224: DDEL deletes a key from Dice and fills the slot from the bar. -/
  | ddel (th : Nat) (rd rs1 : BitVec 5) (ba : BitVec 3)
  /-- R241: FLK looks a 32-byte key up in the flow table, freeing expired entries. -/
  | flk (th : Nat) (rd : BitVec 5) (bd ba bb : BitVec 3)
  /-- R241: FINS inserts a flow entry into the lowest empty or expired slot of its buckets. -/
  | fins (th : Nat) (rd : BitVec 5) (bd ba bb : BitVec 3)
  /-- R241: FDEL clears a flow entry. -/
  | fdel (th : Nat) (rd : BitVec 5) (ba bb : BitVec 3)
  /-- R245: TLK returns the longest-prefix result in a VRF from Delta. -/
  | tlk (th : Nat) (rd rs1 : BitVec 5) (ba : BitVec 3)
  /-- R129: The result of a lookup, insert or delete returns to the waiting thread with its status. -/
  | lookupResult (th : Nat)
  /-- R132: ENQ takes an enqueue credit, sends the enqueue to Confluence and retires the handle. -/
  | enq (th : Nat) (rd rs1 rs2 : BitVec 5)
  /-- R132: ENQM enqueues a handle to a multicast group. -/
  | enqm (th : Nat) (rd rs1 rs2 : BitVec 5)
  /-- R132: DROP frees a handle, counts the reason and retires it. -/
  | drop (th : Nat) (rs1 rs2 : BitVec 5)
  /-- R301: POLC applies the RFC 2698 policer to a byte count and returns a colour. -/
  | polc (th : Nat) (rd rs1 rs2 : BitVec 5)
  /-- R132: HNEW allocates a new handle with cells for a byte count, or returns 0. -/
  | hnew (th : Nat) (rd rs2 : BitVec 5)
  /-- R135: DMAS loads a descriptor into a channel's active or shadow set. -/
  | dmas (th : Nat) (rd rs1 rs2 : BitVec 5)
  /-- R135: DMAW waits until a channel has no set occupied and returns and clears its status. -/
  | dmaw (th : Nat) (rd rs1 : BitVec 5)
  /-- R135: DMAP returns a channel status word without waiting. -/
  | dmap (th : Nat) (rd rs1 : BitVec 5)
  /-- R137: TSTART starts a stopped thread of the engine at an address. -/
  | tstart (th : Nat) (rs1 rs2 : BitVec 5)
  /-- R138: TSTOP stops a thread, abandoning its long stall and failing an open gate. -/
  | tstop (th : Nat) (rs1 : BitVec 5)
  /-- R137: TSET writes a register of a stopped thread. -/
  | tset (th : Nat) (rd rs1 rs2 : BitVec 5)
  /-- R137: TGET reads a register of a stopped thread. -/
  | tget (th : Nat) (rd rs1 rs2 : BitVec 5)
  /-- R137: RECV resolves any open gate and waits for the next header vector, copying it to local memory. -/
  | recv (th : Nat) (rd rs1 : BitVec 5)
  /-- R137: YIELD suspends the thread and lets the engine switch. -/
  | yield (th : Nat)
  /-- R137: EVWAIT waits for selected events and clears them. -/
  | evwait (th : Nat) (rd rs1 : BitVec 5)
  /-- R137: SIG sets a software event bit in a thread of the cluster. -/
  | sig (th : Nat) (rs1 rs2 : BitVec 5)
  /-- R137: HALT stops the thread and drops its held handles. -/
  | halt (th : Nat)
  /-- R140: MFSR reads a special register, capturing high words for CYCLO and NTNS. -/
  | mfsr (th : Nat) (rd n : BitVec 5)
  /-- R140: MTSR writes the RW fields of a special register. -/
  | mtsr (th : Nat) (rs1 n : BitVec 5)
  /-- R140: MFSH reads a shared register. -/
  | mfsh (th : Nat) (rd : BitVec 5) (n : BitVec 3)
  /-- R140: MTSH writes a shared register. -/
  | mtsh (th : Nat) (rs1 : BitVec 5) (n : BitVec 3)
  /-- R140: SHADD returns a shared register and adds to it. -/
  | shadd (th : Nat) (rd rs1 : BitVec 5) (n : BitVec 3)
  /-- R141: FENCE waits until the selected classes of earlier operations are complete. -/
  | fence (th : Nat) (mask : BitVec 5)
  /-- R335: RND takes 32 random bits from its chiplet's buffer of the Die. -/
  | rnd (th : Nat) (rd : BitVec 5)
  /-- R140: TRAP raises a trap fault with a code. -/
  | trap (th : Nat) (rs1 : BitVec 5)
  /-- R155: A write of CLU_START starts thread 0 of the named engines at CLU_ENTRY.PC and gives slots their credit shares. -/
  | cluStartWrite (cl : BitVec 6) (v : BitVec 32)
  /-- R178: CLU_THREAD_CMD with CMD 0b01 resets a thread. -/
  | threadCmdReset (cl : BitVec 6) (eng : BitVec 6) (t : BitVec 3)
  /-- R159: CLU_THREAD_CMD with CMD 0b10 resets a thread and starts it at CLU_THREAD_PC. -/
  | threadCmdResetStart (cl : BitVec 6) (eng : BitVec 6) (t : BitVec 3)
  /-- R178: CLU_THREAD_CMD with CMD 0b11 stops a thread with the effects of TSTOP. -/
  | threadCmdStop (cl : BitVec 6) (eng : BitVec 6) (t : BitVec 3)
  /-- R178: A write of CLU_FAULT_POP removes the oldest fault-queue entry. -/
  | cluFaultPop (cl : BitVec 6) (v : BitVec 32)
  /-- R164: A read of CLU_BUF_ALLOC allocates a cluster buffer from the thread's share or the pool, or returns 0. -/
  | cluBufAlloc (cl : BitVec 6) (th : Option (BitVec 9))
  /-- R164: A write of CLU_BUF_FREE returns a buffer to its share or the pool, deferred while the buffer is gated. -/
  | cluBufFree (cl : BitVec 6) (v : BitVec 32)
  /-- R165: A write of CLU_CTL, CLU_CREDIT_CTL or CLU_BUF_CTL takes effect only with every thread stopped and shares in range. -/
  | cluConfigWrite (cl : BitVec 6) (which : CluCfg) (v : BitVec 32)
  /-- R165: A pending CLU_CREDIT_CTL write takes effect once the in-flight book is zero. -/
  | creditCtlApply (cl : BitVec 6)
  /-- R152: A write to a program store takes effect for later fetches and invalidates the word in every instruction cache of the cluster. -/
  | programStoreWrite (cl : BitVec 6) (index : BitVec 18) (v : BitVec 32)
  /-- R168: A Board asks the home to read a line for sharing. -/
  | rds (boards rdo upg : BitVec 8) (line : BitVec 31)
  /-- R168: A Board asks the home to read a line for ownership. -/
  | rdo (boards upg : BitVec 8) (line : BitVec 31)
  /-- R168: A Board asks the home for ownership of a line held in S. -/
  | upg (boards : BitVec 8) (line : BitVec 31)
  /-- R172: A Board writes back a line in M, which the home absorbs on arrival. -/
  | wb (board : BitVec 3) (line : BitVec 31)
  /-- R167: A Board reports dropping a clean line. -/
  | evc (board : BitVec 3) (line : BitVec 31)
  /-- R168: The home sends line data and the line goes to S. -/
  | dataS (board : BitVec 3) (line : BitVec 31)
  /-- R168: The home sends line data and the line goes to E. -/
  | dataE (board : BitVec 3) (line : BitVec 31)
  /-- R168: The home grants ownership for an UPG. -/
  | grant (board : BitVec 3) (line : BitVec 31)
  /-- R170: The home tells a Board to drop a line, answered after any access the data was for. -/
  | inv (board : BitVec 3) (line : BitVec 31)
  /-- R168: The home asks the owner for the line and moves it to S or I. -/
  | fetch (board : BitVec 3) (line : BitVec 31)
  /-- R168: A Board reports that it dropped a line. -/
  | ackInv (board : BitVec 3) (line : BitVec 31)
  /-- R168: A Board answers FETCH with the line data. -/
  | dataF (board : BitVec 3) (line : BitVec 31)
  /-- R172: A Board answers FETCH when it no longer holds the line. -/
  | noneF (board : BitVec 3) (line : BitVec 31)
  /-- R168: The home acknowledges an absorbed writeback. -/
  | ackWb (board : BitVec 3) (line : BitVec 31)
  /-- R169: The home takes the next queued request for a line when the line's transaction ends. -/
  | homeQueueServe (line : BitVec 31)
  /-- R173: A non-cache agent's HBM access goes to the home, fetching from an owner or invalidating copies. -/
  | uncachedCoherentAccess (addr : BitVec 48) (len : Nat) (wr : Option (List (BitVec 8))) (who : Requester)
  /-- R174: The home writes an affected M line to HBM with a poison mark and counts it. -/
  | linePoison (board : BitVec 3) (line : BitVec 31)
  /-- R177: Setting BRD_SSC_CTL.FLUSH writes back every M line and invalidates the cache. -/
  | sscFlush (board : BitVec 3)
  /-- R177: The shared-state cache flush ends and FLUSH clears. -/
  | sscFlushDone (board : BitVec 3)
  /-- R193: HDW_MC_CMD 0b01 verifies the staged microcode image. -/
  | verify
  /-- R193: Verification ends with VERIFIED and OK, or IDLE with the failing RESULT. -/
  | verifyDone
  /-- R195: HDW_MC_CMD 0b10 builds the new master copy and reloads every unfenced cluster. -/
  | apply
  /-- R195: When every cluster has been tried, the old master copy is discarded and STATE becomes DONE with OK or PARTIAL. -/
  | applyDone
  /-- R199: HDW_MC_CMD 0b11 discards a staged or verified image and returns to IDLE. -/
  | discard
  /-- R470: A MAC receives a frame into cells, checks FCS, length and attach header, and timestamps it. -/
  | macFrameReceive (p : MacPort) (frame : List (BitVec 8)) (fcsOk symErr : Bool)
  /-- R213: A host or storage vector held in the side buffer enters its intake queue when room frees. -/
  | sideBufferRelease (bank : BitVec 2)
  /-- R31: A waiting vector is sent to its Board when the Bank holds a credit for that Board. -/
  | vectorSteerSend (bank : BitVec 2) (board : BitVec 3)
  /-- R30: A freed intake slot returns its credit to the Bank. -/
  | intakeCreditReturn (bank : BitVec 2) (board : BitVec 3)
  /-- R228: The learn unit learns the inner source MAC of a learn candidate into the learn table before the vector is handed on. -/
  | learn (board : BitVec 3)
  /-- R151: The Board hands an arrived header vector to a thread waiting in RECV. -/
  | vectorDispatch (board : BitVec 3)
  /-- R215: A write of BRD_DICE_TDEF_W0 defines a table, or has no effect and sets TDEF_REJ. -/
  | diceTdefWrite (board : BitVec 3) (table : BitVec 12) (v : BitVec 32)
  /-- R229: The Dice command LOOKUP loads the value, owner and static bit of an entry. -/
  | lookup (board : BitVec 3) (blk : Bool)
  /-- R229: The Dice command INSERT inserts an entry with STATIC and OWNER from CMD_ARG. -/
  | insert (board : BitVec 3) (blk : Bool)
  /-- R229: The Dice command DELETE removes a static or non-static entry. -/
  | delete (board : BitVec 3) (blk : Bool)
  /-- R229: The Dice command UPDATE inserts or replaces the value, STATIC and OWNER of an entry. -/
  | update (board : BitVec 3) (blk : Bool)
  /-- R229: The Dice command PURGE removes every non-static entry of an owner by bucket visits through each pipe. -/
  | purge (board : BitVec 3) (blk : Bool)
  /-- R221: One bucket visit of a PURGE or SAVE walk passes the partition pipe. -/
  | purgeBucketVisit (board : BitVec 3) (blk : Bool) (part : BitVec 3)
  /-- R243: A write of BRD_FLOW_CTL.EN enables or disables flow service across Boards. -/
  | flowCtlWrite (board : BitVec 3) (v : BitVec 32)
  /-- R243: The clearing of all flow entries ends and READY becomes 1 on every Board. -/
  | flowTableClearDone
  /-- R242: LAST and PKTS of a flow line are written back on eviction or within 1 s of a change. -/
  | flowCacheWriteback (index : BitVec 28)
  /-- R249: A write of BRD_FLOW_HOME remaps bucket shares, with no effect when it names a fenced Board. -/
  | flowHomeWrite (board : BitVec 3) (v : BitVec 32)
  /-- R247: DLT_CMD ADD inserts or replaces a prefix by one pointer write. -/
  | deltaAdd (v : BitVec 32)
  /-- R247: DLT_CMD DEL removes a prefix. -/
  | deltaDel (v : BitVec 32)
  /-- R247: A Delta update ends and BUSY clears with its status. -/
  | deltaUpdateDone
  /-- R266: Confluence commits an enqueue in sequence order: it trims, admits and appends the frame or refuses it. -/
  | enqueueCommit (inp : Input)
  /-- R260: Within 12 clocks of an unlink, the old queue's depth and the queued book drop by the spilled cells. -/
  | spillDepthLand
  /-- R265: A missing sequence number unretired for CFL_SEQ_TMO is retired as dropped and counted. -/
  | seqSkipTimeout (inp : Input)
  /-- R259: The free-cell manager moves up to 64 cells per clock from reclaim to free. -/
  | reclaimToFree (n : Nat)
  /-- R261: A write of CFL_BOOK_SNAP captures the five book registers in one clock. -/
  | bookSnap (v : BitVec 32)
  /-- R274: The replication engine copies a committed ENQM frame to each unpruned admitted destination of its group. -/
  | replication
  /-- R276: A write of CFL_MC_GRP_W1 stages a group count. -/
  | mcGroupW1Write (grp : BitVec 16) (v : BitVec 32)
  /-- R276: A write of CFL_MC_GRP_W0 commits both group words, or has no effect and counts CFL_MC_REJ. -/
  | mcGroupCommit (grp : BitVec 16) (v : BitVec 32)
  /-- R292: The scheduler walks from an eligible port node to a queue and releases its head frame. -/
  | schedulerRelease (port : BitVec 10)
  /-- R299: A pending bucket debit lands within 4 Confluence clocks. -/
  | debitLand (node : Nat)
  /-- R297: A shaper or policer bucket refills by elapsed network time, at least once per 4.096 µs. -/
  | bucketRefill (b : BucketId)
  /-- R290: A pending PARENT or BAND change takes effect when the child holds no frames. -/
  | parentBandApply (child : SchedChild)
  /-- R300: A write to CIR, PIR, CBS, PBS or ADJ of a node sets both buckets full. -/
  | shaperConfigWrite (r : Reg) (node : Nat) (v : BitVec 32)
  /-- R302: A write to a policer's configuration words sets both buckets full. -/
  | policerConfigWrite (r : Reg) (n : Nat) (v : BitVec 32)
  /-- R306: A write of GATE_CTL.ARM sets PEND, or counts GATE_REJ for LEN 0 or a short cycle. -/
  | gateArm (port : BitVec 8) (v : BitVec 32)
  /-- R306: At the change instant the gate buffers swap and PEND clears, extending the old cycle under GATE_EXT. -/
  | gateListSwap (port : BitVec 8)
  /-- R304: A gate-list entry's interval ends and the next entry's gate states take effect. -/
  | gateIntervalEnd (port : BitVec 8)
  /-- R313: A Gauge ring starts a pass at a multiple of PERIOD, or counts it skipped. -/
  | gaugePass (ring : BitVec 4)
  /-- R315: Gauge writes one header or sample record into a ring, or counts it lost. -/
  | gaugeRecordWrite (ring : BitVec 4)
  /-- R323: A write to GAU_CTL or GAU_BASE resets PROD and CONS to zero. -/
  | gauCtlWrite (ring : BitVec 4) (v : BitVec 32)
  /-- R330: The key-table command INSTALL writes an entry with VALID 1 and the next VER. -/
  | install
  /-- R330: The key-table command REVOKE invalidates an entry, advances VER and invalidates cached copies. -/
  | revoke
  /-- R330: The key-table command READ loads an entry's attributes and VER. -/
  | keyRead
  /-- R330: A key-table command completes, clears KEY_TBL_IN0–7 and clears BUSY. -/
  | keyCommandDone
  /-- R336: A failed health test puts the Die in FAILED, uninstantiates the DRBG and clears the buffers. -/
  | dieHealthFail (rct apt : Bool)
  /-- R336: A write of HDW_DIE_CTL.RESTART runs the start-up tests and reinstantiates the DRBG if they pass. -/
  | dieRestart
  /-- R336: The Die restart ends and RESTART clears. -/
  | dieRestartDone (rct apt : Bool)
  /-- R334: The DRBG reseeds after 2^20 generate requests or 10^9 Headwater clocks. -/
  | drbgReseed
  /-- R347: A read of CFL_SQ_NEXT allocates a sequence number or refuses at the limit, posting soft and exhausted events. -/
  | sqNextRead (n : BitVec 18) (who : Requester)
  /-- R348: A write to a sequence counter's registers is refused while EN is 1, and enabling clears EXHAUSTED and SOFT_HIT. -/
  | sqConfigWrite (r : Reg) (n : BitVec 18) (v : BitVec 32)
  /-- R349: 1 ms after exhaustion, the bound key is revoked if its VER still matches. -/
  | scheduledRevoke (n : BitVec 18)
  /-- R350: A read of CFL_SQ_EVQ removes and returns the oldest sequence event. -/
  | sqEvqRead
  /-- R361: CC.EN going to 1 readies the controller, or sets CSTS.CFS when storage is not ready. -/
  | ccEnSet (inst : Nat) (v : BitVec 32)
  /-- R361: CSTS.RDY becomes 1 within 2 ms of CC.EN. -/
  | controllerReady (inst : Nat)
  /-- R361: A write that clears CC.EN starts a function-wide reset that keeps configuration and MSI-X. -/
  | ccEnClear (inst : Nat) (v : BitVec 32)
  /-- R361: A shutdown notification requests shutdown of the controller. -/
  | ccShnWrite (inst : Nat) (v : BitVec 32)
  /-- R361: CSTS.SHST becomes complete once the instance holds no command slot or held command. -/
  | shutdownComplete (inst : Nat)
  /-- R365: A write of an SQ tail doorbell sets the limit of submission fetches. -/
  | sqTailDoorbell (inst : Nat) (q : BitVec 7) (v : BitVec 16)
  /-- R380: A write of a CQ head doorbell frees completion entries. -/
  | cqHeadDoorbell (inst : Nat) (q : BitVec 7) (v : BitVec 16)
  /-- R366: The front end fetches a submission entry when it holds a free slot and a cell. -/
  | submissionFetch (inst : Nat) (q : BitVec 7) (entry : Option (List (BitVec 32)))
  /-- R369: A command held past BNK_STO_HOLD_TMO completes with Capacity Exceeded or Namespace Not Ready. -/
  | holdTimeout (bank : BitVec 2) (slot : BitVec 14)
  /-- R362: The admin command Identify returns controller or namespace data built by firmware. -/
  | identify (bank : BitVec 2) (slot : BitVec 14)
  /-- R362: The admin command Get Log Page returns SMART or Changed Namespace List data. -/
  | getLogPage (bank : BitVec 2) (slot : BitVec 14)
  /-- R362: The admin command Set Features sets Number of Queues or Asynchronous Event Configuration. -/
  | setFeatures (bank : BitVec 2) (slot : BitVec 14)
  /-- R362: The admin command Get Features returns Number of Queues or Asynchronous Event Configuration. -/
  | getFeatures (bank : BitVec 2) (slot : BitVec 14)
  /-- R364: The admin command binds an I/O submission queue's host memory to the instance. -/
  | createIoSubmissionQueue (bank : BitVec 2) (slot : BitVec 14)
  /-- R364: The admin command binds an I/O completion queue's host memory to the instance. -/
  | createIoCompletionQueue (bank : BitVec 2) (slot : BitVec 14)
  /-- R364: The admin command completes with success and changes nothing. -/
  | deleteIoSubmissionQueue (bank : BitVec 2) (slot : BitVec 14)
  /-- R364: The admin command completes with success and changes nothing. -/
  | deleteIoCompletionQueue (bank : BitVec 2) (slot : BitVec 14)
  /-- R362: The admin command Abort completes reporting that nothing was aborted. -/
  | nvmeAbort (bank : BitVec 2) (slot : BitVec 14)
  /-- R362: The admin command waits and completes with a Namespace Attribute Notice after a namespace map change. -/
  | asynchronousEventRequest (bank : BitVec 2) (slot : BitVec 14)
  /-- R367: The I/O command Read is checked, translated and handed to a Board thread. -/
  | nvmeRead (bank : BitVec 2) (slot : BitVec 14) (list : Option (List (BitVec 64)))
  /-- R367: The I/O command Write is checked, translated or held, and handed to a Board thread. -/
  | nvmeWrite (bank : BitVec 2) (slot : BitVec 14) (list : Option (List (BitVec 64)))
  /-- R367: The I/O command Write Zeroes is checked, translated or held, and handed to a thread. -/
  | writeZeroes (bank : BitVec 2) (slot : BitVec 14)
  /-- R373: The I/O command Flush waits for the earlier writes of its instance and namespace. -/
  | flush (bank : BitVec 2) (slot : BitVec 14)
  /-- R373: A Flush completes with success once every earlier write has completed. -/
  | flushComplete (bank : BitVec 2) (slot : BitVec 14)
  /-- R362: The I/O command Dataset Management copies its range list and hands it to the program. -/
  | datasetManagement (bank : BitVec 2) (slot : BitVec 14) (ranges : Option (List (BitVec 8)))
  /-- R378: A write of BNK_STO_CPL accepts a completion for a busy slot of matching SGEN, or discards it. -/
  | stoCplWrite (bank : BitVec 2) (v : BitVec 32)
  /-- R380: When the completion queue has room, the ring unit writes the entry, signals MSI-X and frees the slot. -/
  | completionEntryWrite (bank : BitVec 2) (slot : BitVec 14)
  /-- R377: A read of BNK_STO_STG_ALLOC returns a free staging buffer of the Bank's part, or 0. -/
  | stgAlloc (bank : BitVec 2)
  /-- R377: A write of BNK_STO_STG_FREE frees a staging buffer, or counts an error. -/
  | stgFree (bank : BitVec 2) (v : BitVec 32)
  /-- R382: A read of BNK_STO_EVQ removes the oldest allocation event. -/
  | stoEvqRead (bank : BitVec 2)
  /-- R374: The storage command EXT_WRITE writes one extent entry indivisibly. -/
  | extWrite (bank : BitVec 2)
  /-- R383: The storage command EXT_READ reads one extent entry. -/
  | extRead (bank : BitVec 2)
  /-- R374: The storage command NS_WRITE writes a namespace record and invalidates Bank copies. -/
  | nsWrite (bank : BitVec 2)
  /-- R383: The storage command NS_READ reads a namespace record. -/
  | nsRead (bank : BitVec 2)
  /-- R374: The storage command MAP_WRITE writes an instance's NSID map and queues a notice. -/
  | mapWrite (bank : BitVec 2)
  /-- R383: The storage command MAP_READ reads an instance's NSID map. -/
  | mapRead (bank : BitVec 2)
  /-- R387: A PCIe link of an endpoint trains and comes up. -/
  | pcieLinkUp (ep : BitVec 5) (linkB : Bool)
  /-- R387: A link-down or hot reset on one link resets only that link's functions. -/
  | pcieLinkDown (ep : BitVec 5) (linkB : Bool)
  /-- R396: A function becomes configuration-ready and stops answering with Retry Status. -/
  | configReady (ep : BitVec 5) (fn : BitVec 11)
  /-- R455: A Function Level Reset starts a function-wide reset, of PF0's VFs too for a PF0. -/
  | flr (ep : BitVec 5) (fn : BitVec 11)
  /-- R455: A VF reset starts a function-wide reset of that VF. -/
  | vfReset (ep : BitVec 5) (vf : BitVec 10)
  /-- R391: Setting VF Enable creates NumVFs instances. -/
  | vfEnableSet (ep : BitVec 5) (numVFs : Nat)
  /-- R391: Clearing VF Enable performs a function-wide reset of every VF. -/
  | vfEnableClear (ep : BitVec 5)
  /-- R392: An ATS invalidation request is completed after every request under the translation is sent. -/
  | atsInvalidate (ep : BitVec 5) (fn : BitVec 11) (page : Nat)
  /-- R393: A DOE data object is taken for Discovery or CMA/SPDM. -/
  | doeObject (ep : BitVec 5) (fn : BitVec 11) (obj : List (BitVec 32))
  /-- R393: A DOE Abort discards the object in progress within 1 ms. -/
  | doeAbort (ep : BitVec 5) (fn : BitVec 11)
  /-- R394: A change of power state, Bus Master Enable or Memory Space Enable stops or resumes the function's requests. -/
  | pmStateWrite (ep : BitVec 5) (fn : BitVec 11) (d3hot bme mse : Bool)
  /-- R399: A request through a PF1 aperture is checked whole and split into device accesses in ascending order. -/
  | pf1Bar0Request (ep : BitVec 5) (offset : BitVec 28) (req : BarReq)
  /-- R398: A write of AP_BASE retargets a PF1 aperture. -/
  | apBaseWrite (ep : BitVec 5) (a : BitVec 4) (hi : Bool) (v : BitVec 32)
  /-- R404: An interrupt event sends a message, sets the pending bit, or is discarded. -/
  | msixEvent (ep : BitVec 5) (fn : BitVec 11) (vec : BitVec 11)
  /-- R404: A vector with its pending bit set becoming deliverable sends one message and clears the bit. -/
  | msixUnmask (ep : BitVec 5) (fn : BitVec 11) (vec : BitVec 11)
  /-- R408: A write of FRY_UP_CTL.GO sends an upstream message, sets PCI_FRY_PEND and signals the manager. -/
  | ferryUpGo (inst : Nat) (v : BitVec 32)
  /-- R408: A write of PCI_FRY_DN_CTL.GO sends a downstream message and signals the tenant driver. -/
  | ferryDnGo (who : Requester) (inst : Nat) (v : BitVec 32)
  /-- R409: A read of FRY_DN_TAKE takes the downstream message and clears FULL. -/
  | ferryDnTake (inst : Nat)
  /-- R409: A read of PCI_FRY_UP_TAKE takes the upstream message, clears FULL and signals the tenant driver. -/
  | ferryUpTake (inst : Nat)
  /-- R410: A sender's write to a full Ferry is rejected, counted and reported as an error. -/
  | ferryMsgWrite (who : Requester) (inst : Nat) (up : Bool) (word : BitVec 4) (v : BitVec 32)
  /-- R419: A transmit doorbell write is accepted and sets T, latched as pending under a rate limit, or rejected and counted. -/
  | ringTxdb (inst : Nat) (q : BitVec 6) (v : BitVec 32)
  /-- R419: A receive doorbell write is accepted and sets T, latched as pending under a rate limit, or rejected and counted. -/
  | ringRxdb (inst : Nat) (q : BitVec 6) (v : BitVec 32)
  /-- R450: When a doorbell token is available, the ring unit applies the ring's pending doorbell. -/
  | pendingDoorbellApply (inst : Nat) (q : BitVec 7) (rx : Bool)
  /-- R418: A write of RING_ARM arms both rings of a queue with indices zero, or sets REJ. -/
  | ringArm (inst : Nat) (q : BitVec 6) (v : BitVec 32)
  /-- R421: The ring unit fetches up to 8 descriptors of a ring between F and T under the arbitration rules. -/
  | descriptorFetch (inst : Nat) (q : BitVec 6) (rx : Bool)
  /-- R448: The ring unit starts a transmit data read when both instance buckets hold at least zero and debits them. -/
  | txDataReadStart (inst : Nat) (q : BitVec 6)
  /-- R36: The frame data arrives in cells and goes to the parser, or a failed read reclaims the cells. -/
  | txDataReadDone (inst : Nat) (q : BitVec 6) (data : Option (List (BitVec 8)))
  /-- R37: The ring unit takes the next receive descriptor and DMAs a released frame's cells into the host buffer. -/
  | rxFrameWrite (inst : Nat) (q : BitVec 6)
  /-- R427: The ring unit hands back a done descriptor in index order with a status write, an ownership write and MSI-X. -/
  | descriptorComplete (inst : Nat) (q : BitVec 6) (rx : Bool)
  /-- R437: A channel starts a descriptor, checking it, translating pages and choosing the copy direction. -/
  | dmaDescriptorStart (ch : Nat) (xlate : List (Nat × Nat)) (xfail : Bool)
  /-- R430: A DMA descriptor ends, sets EVT.DMA if asked and the shadow descriptor starts. -/
  | dmaDescriptorEnd (ch : Nat) (res : DmaResult)
  /-- R438: A paced channel starts its next burst when its request line is asserted. -/
  | pacedBurstStart (ch : Nat) (res : DmaResult)
  /-- R441: A write of DMA_CTL.ABORT ends the active descriptor with ABORTED. -/
  | dmaAbort (ch : Nat)
  /-- R441: A write of DMA_CTL.ABORT_ALL also ends the shadow descriptor. -/
  | dmaAbortAll (ch : Nat)
  /-- R443: A read of RNG_FN_QVIEW0 captures F, ARMED and LOG into RNG_FN_QVIEW1. -/
  | qviewRead (inst : Nat)
  /-- R458: RNG_FN_FRZ FREEZE brings an ACTIVE instance toward a quiescent point. -/
  | freeze (inst : Nat)
  /-- R458: With H = F on every ring and no request outstanding, the instance becomes FROZEN. -/
  | quiescentPoint (inst : Nat)
  /-- R457: After 100 ms without a quiescent point the instance returns to ACTIVE with TIMEOUT. -/
  | freezeTimeout (inst : Nat)
  /-- R459: RNG_FN_FRZ SAVE walks the Dice partitions and writes the instance image to HBM. -/
  | save (inst : Nat)
  /-- R459: The save writes MAGIC last, sets IMGLEN and clears BUSY. -/
  | saveDone (inst : Nat)
  /-- R462: RNG_FN_FRZ RESTORE checks an image and applies it to an IDLE target. -/
  | restore (inst : Nat)
  /-- R462: The restore ends FROZEN with GEN advanced, or IDLE with a refusal RESULT. -/
  | restoreDone (inst : Nat)
  /-- R463: RNG_FN_FRZ THAW makes the instance ACTIVE, applying pending doorbells and sending pending messages. -/
  | thaw (inst : Nat)
  /-- R466: A write of BRD_INS_W0 sets the insert bucket full. -/
  | insRateWrite (board : BitVec 3) (inst : Nat) (v : BitVec 32)
  /-- R469: A write of MAC_PORT_CFG or ATL_CFG enables a link and starts training, or clears EN and takes it down. -/
  | portCfgWrite (p : MacPort) (v : BitVec 32)
  /-- R469: The PCS reports a network or attach link up and LINK_UP is set, starting new credit counts. -/
  | linkUp (p : MacPort)
  /-- R471: A link goes down, ending the frame in transmission and dropping waiting frames. -/
  | linkDown (p : MacPort)
  /-- R471: The MAC starts the oldest frame of the highest unheld class and transmits it. -/
  | macFrameTransmit (p : MacPort)
  /-- R472: A received PAUSE or PFC frame holds or releases classes for its quanta. -/
  | pauseFrameReceive (port : BitVec 8) (pfc : Bool) (classes : BitVec 8) (quanta : List (BitVec 16))
  /-- R472: A class's pause timer runs out and the class is released. -/
  | pauseTimerExpire (port : BitVec 8) (cls : BitVec 3)
  /-- R473: Ingress cells of a class rising above XOFF make the MAC send a PFC or PAUSE frame. -/
  | pfcXoffSend (port : BitVec 8) (cls : BitVec 3)
  /-- R473: While above XON, the MAC repeats the frame every QUANTA/2 quanta. -/
  | pfcRefreshSend (port : BitVec 8) (cls : BitVec 3)
  /-- R473: Ingress cells falling to XON make the MAC send quanta 0. -/
  | pfcXonSend (port : BitVec 8) (cls : BitVec 3)
  /-- R477: A read of MAC_TXTS_ID removes the oldest transmit stamp and captures it. -/
  | txtsRead (p : MacPort)
  /-- R478: After IDLE µs without a frame to send, the MAC asserts low-power idle. -/
  | lpiEnter (port : BitVec 8)
  /-- R480: Firmware sends LLDP with the Slack water TLV every second or at a state change. -/
  | lldpTransmit (link : MacPort)
  /-- R481: Expiry of the partner's LLDP information ends the Slack water agreement. -/
  | lldpInfoExpire (link : MacPort)
  /-- R481: A received OFFER TLV is accepted with an ACCEPT or answered with CAPABLE only. -/
  | slackOffer (link : MacPort) (tlv : SlackTlv)
  /-- R481: A received ACCEPT puts the proposer in SCHEDULED or makes it offer again. -/
  | slackAccept (link : MacPort) (tlv : SlackTlv)
  /-- R481: A received or sent WITHDRAW ends the agreement. -/
  | slackWithdraw (link : MacPort)
  /-- R481: The responder enters SCHEDULED at W(START). -/
  | slackScheduleStart (link : MacPort)
  /-- R483: At W(m) + D − 2 µs the side restarts its transmitter with the idle pattern. -/
  | slackWakeStart (link : MacPort)
  /-- R483: The first decoded PCS block arrives and the rendezvous is judged by its deviation. -/
  | slackFirstSymbol (link : MacPort) (deviation : Int)
  /-- R484: No first symbol by W(m) + D + G is a missed rendezvous and moves the side to ON_DEMAND. -/
  | slackRendezvousMiss (link : MacPort)
  /-- R484: A receiver not aligned 1 ms after W(m) + D takes the link down and retrains it. -/
  | slackAlignTimeout (link : MacPort)
  /-- R492: The MAC sends a control frame when credits are due by threshold or 1 µs and no data frame carries them. -/
  | attachControlFrameSend (link : BitVec 5)
  /-- R488: The MAC consumes a received control frame, taking its CREDIT and REQ. -/
  | attachControlFrameReceive (link : BitVec 5) (frame : List (BitVec 8))
  /-- R496: A write of HDW_DISC_CMD.GO starts a discovery walk, or counts HDW_DISC_REJ. -/
  | discGo
  /-- R496: Firmware probes A00 to A31 in order and records each answer. -/
  | discoveryWalk
  /-- R495: A shell's answer to a probe is recorded for the link. -/
  | probeAnswer (link : BitVec 5) (body : List (BitVec 8))
  /-- R496: 100 µs without an answer makes firmware probe once more or record ANSWERED 0. -/
  | probeTimeout
  /-- R497: A walk ends, raising DONE, and reruns once if it saw a change. -/
  | discoveryWalkEnd
  /-- R516: A write of HDW_LC_CHAL.NEW draws a new nonce from the Die and voids the old one. -/
  | lcChalNew
  /-- R503: HDW_LC_CMD PROVISION stores the operator root key and burns the Provisioned fuse. -/
  | provision
  /-- R503: An accepted DEPLOY token burns the Deployed fuse, clears FORCE_EN and sets debug Off. -/
  | deploy
  /-- R503: An accepted RETURN token burns the Returned fuse, revokes all keys and zeroes records 16–31. -/
  | lcReturn (tests : BootTests)
  /-- R518: An accepted Observe token sets the debug level to Observe. -/
  | observe (tests : BootTests)
  /-- R520: An accepted Intrude token sets Intrude, in Deployed after freezing instances and revoking keys. -/
  | intrude
  /-- R517: An accepted vault-write token allows one WRITE of its record within 1 s. -/
  | vaultWriteToken
  /-- R518: HDW_LC_CMD DEBUG_OFF returns debug to Off. -/
  | debugOff (tests : BootTests)
  /-- R518: Network time passing NOT_AFTER or 86,400 s on the Headwater clock returns debug to Off. -/
  | debugExpiry (tests : BootTests)
  /-- R512: HDW_VAULT_CMD WRITE commits a record, or makes it pending without a token. -/
  | vaultWrite (rid : BitVec 7)
  /-- R530: HDW_VAULT_CMD READ loads a record into HDW_VAULT_BUF. -/
  | vaultRead (rid : BitVec 7)
  /-- R512: Every 4 s on the Headwater clock the vault gains one commit token and starts the next pending commit. -/
  | commitTokenRefill
  /-- R511: A copy write ends and the new copy is in use. -/
  | vaultCopyWriteDone
  /-- R513: VIN below the threshold or PFAIL_IN# finishes the copy write, discards pending records and drives PFAIL_OUT#. -/
  | powerFailWarning (pin : Bool)
  /-- R523: HDW_PWR_CMD ACTIVE returns the module to Active within 50 µs. -/
  | active
  /-- R523: HDW_PWR_CMD DROWSE lowers the engine clock to 0.55 GHz within 50 µs. -/
  | drowse
  /-- R526: HDW_PWR_CMD HOLD or the SMBus hold message powers down all but Headwater's supervisor. -/
  | hold
  /-- R526: The module reset pin or the SMBus wake message leaves Hold as a module cold reset. -/
  | holdWake (place : BitVec 20) (fuses : BitVec 3) (tests : BootTests)
  /-- R524: Every 4.096 µs the governor lowers or raises the engine clock step against the cap. -/
  | powerGovernorInterval (watts : BitVec 16) (low1ms : Bool)
  /-- R525: A junction reaching 110 °C makes Headwater enter Hold and log the trip. -/
  | thermalTrip (tj tc : BitVec 8)
  /-- R523: In Drowse, HBM enters self-refresh after 10 µs without access. -/
  | hbmSelfRefresh (stack : BitVec 2)
  /-- R531: A unit records an event in its history, sets its severity bit, signals and sends an append. -/
  | troubleEvent (e : TroubleEv)
  /-- R539: Headwater writes an append at LOG_WIDX with the next SEQ, or drops it when full or frozen. -/
  | logAppend
  /-- R537: A read of word 0 of a history entry captures the entry's other words. -/
  | historyEntryRead (grp : Nat) (entry : BitVec 3)
  /-- R543: A write of a TRB_STAT.FORCE bit raises a forced event while FORCE_EN is 1. -/
  | trbForce (grp : Nat) (v : BitVec 32)
  /-- R544: A write of TRB_INJ.ARM arms a fault injection in factory test mode. -/
  | trbInjArm (grp : Nat) (v : BitVec 32)
  /-- R544: An armed injection acts at its next opportunity and ARMED clears. -/
  | injectedFaultApply (grp : Nat) (addr : BitVec 48)
  /-- R541: A write of LOG_CTL.CLEAR zeroes the log and its indices within 1 ms. -/
  | logClear
  /-- R547: Each chiplet clock an enabled counter adds the number of selected events. -/
  | eventCount (ctr : Nat) (n : BitVec 10)
  /-- R548: A write of CNT_CTL.CLEAR zeroes VAL and SAT. -/
  | cntClear (ctr : Nat) (events : BitVec 10)
  /-- R563: HDW_FLASH_CMD ERASE erases a 64 KiB sector of the slot not in use. -/
  | erase
  /-- R563: HDW_FLASH_CMD PROGRAM programs the window into a page of the slot not in use. -/
  | program
  /-- R563: HDW_FLASH_CMD READ reads a flash page into the window. -/
  | flashRead
  /-- R563: A flash command ends with its RESULT and BUSY clears. -/
  | flashCommandDone (devErr : Bool)
  /-- R482: At W(m) + D the Slack water window ends, the port node regains room and held attach control frames may go, so a SCHEDULED side sends from that instant. -/
  | slackWindowEnd (link : MacPort)
  /-- R456: A PCIe request of a function that has no completion within the Completion Timeout Range A times out and stops being outstanding, failing its access. -/
  | completionTimeout (inst : Nat) (req : TimedReq)
  /-- R516: HDW_LC_CMD SUBMIT checks the token in HDW_LC_TOKEN, sets RESULT, voids the nonce and clears the token registers, whether or not the token passes. -/
  | submit
  /-- R560: An MCTP message over SMBus reaches firmware, which answers with HDW_BOOT_STAT or carries out a flash write or a PROVISION given through SMBus. -/
  | mctpRequest (m : MctpMsg)
  /-- R421: The host read for a batch of ring descriptors completes, making the descriptors available, or fails so that they complete with BUSERR in their turn. -/
  | descriptorFetchDone (inst : Nat) (q : BitVec 6) (rx : Bool) (words : Option (List (BitVec 32)))
  /-- R229: A Dice command-block LOOKUP, INSERT, DELETE or UPDATE leaves the partition pipe, writes STATUS, CMD_VAL and OWNER, and clears CMD_STAT.BUSY. -/
  | diceCommandDone (board : BitVec 3) (blk : Bool)
deriving DecidableEq, Repr

end Sys2Proof
end

