-- ==== Sys2Proof/Decode.lean ====
section
/-! DEFINITION. Decode: the commands that the opcode table gives bits.  The table gives none of its rows any bits (a row is
a mnemonic and the rule that describes it), so no word spells a command. -/
namespace Sys2Proof

/-- The command a word spells by the opcode table's bits: none, for no row of the table has bits. -/
def decodeTableWord (_nbits _w : Nat) : Option Instr := none

end Sys2Proof
end

