-- ==== Sys2Proof/Config.lean ====
section
/-! DEFINITION. Config: the values the spec leaves open.  Each is an opaque constant without a body: a claim that
holds, holds for every value of it.  Most are applied to a plain counter of the state (`State.free`). -/
namespace Sys2Proof

/-- The offset of a chiplet's replica of network time from the master at a Headwater clock, as 0 to 8 for −4 ns to
+4 ns (R55: only the bound is given). -/
opaque Config.replicaSkew : Nat → Nat → Nat

/-- The CAP bits of a unit's trouble group, by group index (R535: per unit, not stated). -/
opaque Config.injCap : Nat → BitVec 8

/-- domainNumber as the persistent configuration gives it (R58: set there; R509 places it in no record): by the pairs of records 1
to 15. -/
opaque Config.ptpDomain : List (Nat × Nat) → BitVec 8

/-- The correction in DATA of the event that ends free-run when a phase source becomes valid (R533: the correction is
measured later), by free-value number. -/
opaque Config.freeRunCorrection : Nat → BitVec 64

/-- A peak bucket that a debit takes below its 48-bit format (R297, R298). -/
opaque Config.peakTokens : Nat → Nat

/-- Which free cell an allocation takes first (R254, R257), by free-value number: the search for a first cell starts
there. -/
opaque Config.firstCell : Nat → Nat

/-- Which free cluster buffer an allocation takes (R164): the search starts there. -/
opaque Config.firstBuffer : Nat → Nat

/-- The unspecified bytes of the cells of HNEW and of a late allocation (R257), by free-value number and offset. -/
opaque Config.cellByte : Nat → Nat → BitVec 8

/-- A mirror session in random mode takes a candidate (R279: probability 1 / SAMPLE), by free-value number and
SAMPLE. -/
opaque Config.eddyTakes : Nat → Nat → Bool

/-- The Die's 32-bit words, by free-value number (R334, R335). -/
opaque Config.dieWord : Nat → BitVec 32

/-- The PHY type of a network port's width code defines low-power idle (R478: left to the PHY type). -/
opaque Config.lpiCap : Nat → Bool

/-- The Wenfali public keys, whose digests the fuses hold and whose values the spec does not give (R193, R504, R517, R554): 0 for
microcode, 1 for firmware, 2 for debug tokens; an affine point of P-384. -/
opaque Config.wenfaliKey : Nat → Nat × Nat

/-- Which free command slot a fetch takes (R366), by free-value number: the search starts there. -/
opaque Config.firstSlot : Nat → Nat

/-- Which free staging buffer BNK_STO_STG_ALLOC returns (R377): the search starts there. -/
opaque Config.firstStage : Nat → Nat

/-- The bytes of Identify and log-page data for which the spec states no value (R362), by CNS or 256 + log identifier, and
offset. -/
opaque Config.nvmeByte : Nat → Nat → BitVec 8

/-- The bytes of the device unique secret DUS (R504: in fuses, with no readable value). -/
opaque Config.dusByte : Nat → BitVec 8

/-- What follows the stated part of a CHALLENGE_AUTH or a MEASUREMENTS answer: nonce, summary and signature (R521, R522: SPDM's, made
with keys and nonces that have no readable value), by free-value number and message. -/
opaque Config.spdmAnswer : Nat → List (BitVec 8) → List (BitVec 8)

/-- The boot ROM version and the stepping as measurement 6 holds them (R522: no encoding is given). -/
opaque Config.romIdent : BitVec 64

/-- Subsystem ID as the persistent configuration gives it (R389: set there; R509 places it in no record), by the pairs of records 1
to 15. -/
opaque Config.subsystemId : List (Nat × Nat) → BitVec 16

/-- The bytes of a copy or flash page whose write failed (R511, R563: unspecified), by free-value number and offset. -/
opaque Config.tornByte : Nat → Nat → BitVec 8

/-- LOG2SZ of the units of a kind in the unit description table, but for trouble groups (R401: not stated). -/
opaque Config.udtLog2 : Nat → Nat

/-- BASE of an HBM controller in the unit description table (R401, R402: the spec places no register of its own there), by Bank. -/
opaque Config.udtHbmBase : Nat → Nat

/-- Which healthy Board firmware names in place of a fenced one, by steering entry or flow share (R35, R243). -/
opaque Config.healthyPick : Nat → Nat

/-- A word of the firmware that the management engines run (R553: its content is not part of the spec), by engine and address. -/
opaque Config.firmwareWord : Nat → Nat → BitVec 32

/-- An ALU-derived condition of the menu (R188: the ALU operation's encoding is internal, R189), by condition and
free-value number. -/
opaque Config.aluCondition : Nat → Nat → Bool

/-- The line that a full shared-state cache evicts (R145, R167), by Board and free-value number. -/
opaque Config.sscVictim : Nat → Nat → Nat

end Sys2Proof
end

