-- ==== Sys2Proof/Machine/Registers.lean ====
section
/-! DEFINITION. The register tables of the spec: reset value, field types and device address of every register
(the "Registers" sections of 01 to 17), and the named fields the meanings use.  Read R7, R9, R13, R25 beside it. -/
namespace Sys2Proof.Machine

/-- The field types of R7 that the register tables use. -/
inductive FTy where
  | rw | ro | rc | w1c | w1s | wo
deriving DecidableEq, Repr

/-- One row of a register table: bits [hi:lo] and the type.  Bits in no row are reserved (R9). -/
structure FSpec where
  hi : Nat
  lo : Nat
  ty : FTy
deriving DecidableEq, Repr

/-- A named field of a register. -/
structure Fld where
  reg : Reg
  hi  : Nat
  lo  : Nat
deriving DecidableEq, Repr

/-- The number of a register in the table `State.regs`: register r of unit index i has key `r.ctorIdx + 1024 * i`. -/
def regKey (r : Reg) (i : Nat) : Nat := r.ctorIdx + 1024 * i

/-- The reset word of a register that the tables give one constant (R13). -/
def resetConst : Reg → Nat
  | .TIME_CTL => 0x1
  | .TIME_STATUS => 0x20
  | .TIME_STEP_THR => 0x2710
  | .TTB_CTL => 0x30c0
  | .TTB_CYCLE => 0xffffffff
  | .BRD_STATUS => 0xff00
  | .BRD_INT_EN => 0xff0002
  | .CLU_CTL => 0x8
  | .CLU_CREDIT_CTL => 0x400021
  | .CLU_CREDIT_STAT => 0x400
  | .CLU_BUF_CTL => 0x810000
  | .BNK_HASH_SEED => 0xffffffff
  | .BNK_PARSE_UDP => 0x17c112b5
  | .BNK_PARSE_APP => 0x114412b7
  | .BRD_FLOW_HOME => 0xfac688
  | .CFL_BOOK_FREE => 0x100000
  | .CFL_CELL_FLOOR => 0x1000
  | .CFL_HEADROOM => 0x80
  | .CFL_SEQ_TMO => 0x3e8
  | .CFL_SPILL_CTL => 0x100008
  | .CFL_MC_SYNC => 0x1
  | .CFL_PROF_W0 => 0x1020
  | .CFL_PROF_W2 => 0x100000
  | .CFL_QADM => 0xffff0080
  | .SCH_Q_W1 => 0x1
  | .SCH_N_CFG => 0x10000
  | .SCH_P_STAT => 0xff00
  | .GATE_ENTRY => 0xff
  | .GAU_CTL => 0x10
  | .GAU_COUNT => 0x1
  | .GAU_PERIOD => 0xf4240
  | .BRD_GATE_TMO => 0x3e8
  | .CFL_SQ_VAL => 0x1
  | .CFL_SQ_LIMIT => 0xffffffff
  | .BNK_STO_SLOTS => 0x4000
  | .BNK_STO_SYNC => 0x1
  | .BNK_STO_HOLD_TMO => 0x1388
  | .PCI_EP_CFG => 0x4040000
  | .RING_SIZE => 0xa0a
  | .RING_WRR => 0x801
  | .RNG_CTL => 0x20
  | .RNG_FN_BURST => 0x400040
  | .RNG_FN_WEIGHT => 0x1
  | .BRD_INS_W0 => 0x100000
  | .MAC_PORT_CFG => 0x2400e
  | .MAC_FC_CTL => 0xffff03fc
  | .MAC_PCP_MAP => 0xfac688
  | .MAC_FC_THR => 0x4000800
  | .MAC_EEE_CTL => 0xa00
  | .MAC_SLACK_CTL => 0x7d000
  | .ATL_SLACK_CTL => 0x7d000
  | .ATL_CFG => 0x100200
  | .HDW_PWR_PFAIL => 0x2c
  | .TRB_IEN => 0x1c
  | .CNT_CTL => 0x3ff0000
  | .PCIE_MSIX_VCTL => 0x1
  | .PCIE_DEVCTL => 0x2010
  | .NVME_CAP => 0x2801ffff
  | .NVME_CAP_HI => 0x20
  | .NVME_VS => 0x20000
  | _ => 0

/-- The typed fields of each register (the Type column of its table). -/
def fieldSpecs : Reg → List FSpec
  | .BNK_STEER_TBL => [⟨2, 0, .rw⟩, ⟨6, 4, .ro⟩, ⟨16, 16, .ro⟩, ⟨31, 20, .ro⟩]
  | .POL_CTL => [⟨1, 0, .rw⟩, ⟨15, 8, .rc⟩]
  | .POL_MAN | .TIME_SET_NS | .TIME_SET_SLO | .TIME_STEP_THR | .BNK_HASH_SEED | .BRD_FLOW_TMO | .DICE_CMD_KEY
  | .DICE_CMD_VAL | .BNK_SND_BASE_HI | .DLT_CMD_ADDR | .DLT_VRF_EN | .CFL_PREP | .SCH_N_CIR | .SCH_N_PIR
  | .SCH_POL_CIR | .SCH_POL_PIR | .GATE_BASE_NS | .GATE_BASE_SLO | .GAU_PERIOD | .GAU_BASE_HI | .CFL_SQ_SOFT
  | .CFL_SQ_VAL | .CFL_SQ_VAL_HI | .CFL_SQ_LIMIT | .CFL_SQ_LIMIT_HI | .STO_CMD_DATA | .FRY_UP_MSG | .PCI_FRY_DN_MSG
  | .RING_TXBASE_HI | .RING_RXBASE_HI | .RNG_FN_BW | .RNG_FN_PPS | .RNG_FN_IMG_HI | .HDW_VAULT_BUF | .HDW_FLASH_WIN
  | .HDW_MC_WIN | .PCIE_MSIX_ADDR | .PCIE_MSIX_ADDR_HI | .PCIE_MSIX_DATA | .PCIE_BAR | .PCI_CFG | .FN_BAR0
  | .PF1_BAR2 | .NVME_ASQ_HI | .NVME_ACQ_HI => [⟨31, 0, .rw⟩]
  | .TIME_NOW_SHI | .INS_ID | .LOG_WIDX => [⟨15, 0, .ro⟩]
  | .TIME_CTL => [⟨0, 0, .rw⟩, ⟨1, 1, .rw⟩, ⟨2, 2, .rw⟩, ⟨3, 3, .rw⟩, ⟨4, 4, .wo⟩]
  | .TIME_STATUS => [⟨1, 0, .ro⟩, ⟨2, 2, .ro⟩, ⟨3, 3, .ro⟩, ⟨4, 4, .ro⟩, ⟨5, 5, .ro⟩, ⟨6, 6, .w1c⟩, ⟨7, 7, .w1c⟩]
  | .TIME_SET_SHI | .CFL_CELL_FLOOR | .EDY_SES_SAMPLE | .SCH_Q_W1 | .GATE_BASE_SHI | .BNK_STO_HOLD_TMO | .AP_BASE_HI => [⟨15, 0, .rw⟩]
  | .TIME_STEPS | .PCI_FRY_REJ => [⟨15, 0, .rc⟩, ⟨31, 16, .rc⟩]
  | .TTB_CTL => [⟨8, 4, .rw⟩, ⟨9, 9, .ro⟩, ⟨14, 10, .ro⟩]
  | .TTB_STATUS | .CFL_MC_SYNC | .BNK_STO_SYNC | .PCIE_MSIX_PBA | .PCIE_RDY => [⟨0, 0, .ro⟩]
  | .TTB_SKIP | .TTB_OVERRUN | .TTB_FORD_DENY | .TTB_ARG_IGN | .CLU_FAULT_LOST | .CLU_BUF_ERR | .HBM_HOME_TIES
  | .HBM_HOME_POISONED | .MCODE_FIX | .MCODE_BACKOUT | .BNK_INTAKE_DROP | .BRD_DICE_FULL | .BRD_DICE_AGED
  | .BRD_DICE_LEARN_FAIL | .BRD_DICE_LEARN_MOVE | .BRD_FLOW_FULL | .BRD_FLOW_EXPIRED | .BNK_SND_MISSING
  | .BNK_SND_DIFFERENT | .BNK_SND_EXTRA | .BNK_SND_REPAIRED | .BNK_SND_REPAIR_FAIL | .BNK_SND_DISCARDED
  | .CFL_SEQ_SKIP | .CFL_SEQ_LATE | .CFL_ALLOC_FAIL | .CFL_FENCE_RECLAIM | .CFL_SPILL_FRAMES | .CFL_SPILL_CELLS
  | .CFL_SPILL_FAIL | .CFL_SPILL_UNLISTED | .CFL_MC_EMPTY | .CFL_MC_REJ | .CFL_PROF_W3 | .EDY_SES_COPIES
  | .EDY_SES_DROPS | .SCH_ECN_MARKS | .SCH_CFG_REJ | .SCH_POL_YELLOW | .SCH_POL_RED | .GATE_CHANGES | .GATE_REJ
  | .GAU_LOST | .GAU_SKIPPED | .HDW_DIE_RESEEDS | .BRD_KEY_MISS | .BRD_KEY_BADCHK | .BRD_GATE_FAIL
  | .BRD_GATE_TIMEOUT | .BRD_GATE_DROP | .BRD_GATE_ZERO_ERR | .CFL_SQ_EVQ_LOST | .CFL_SQ_REJ | .BNK_STO_LATE
  | .BNK_STO_ERRS | .BNK_STO_EVQ_LOST | .BNK_STO_STG_ERR | .DMA_ERRS | .DMA_DESCS | .DMA_BYTES | .DMA_BYTES_HI
  | .RNG_XLATE_FAIL | .RNG_FN_DBREJ | .RNG_FN_MALF | .RNG_FN_BUSERR | .BRD_INS_W1 | .MAC_TXTS_LOST | .ATL_TXTS_LOST
  | .MAC_SLACK_MISS | .ATL_SLACK_MISS | .MAC_SLACK_SLEPT | .ATL_SLACK_SLEPT | .ATL_HDR_BAD | .ATL_CRED_VIOL
  | .MAC_STAT | .MAC_STAT_HI | .ATL_STATS | .ATL_STATS_HI | .HDW_DISC_REJ | .HDW_VAULT_COMMITS | .HDW_PWR_TRIMS
  | .LOG_DROP => [⟨31, 0, .rc⟩]
  | .TTB_SLOT_W0 => [⟨0, 0, .rw⟩, ⟨1, 1, .rw⟩, ⟨2, 2, .rw⟩, ⟨3, 3, .ro⟩, ⟨7, 4, .rw⟩, ⟨11, 8, .rw⟩, ⟨30, 16, .rw⟩]
  | .TTB_SLOT_W1 => [⟨15, 0, .rw⟩, ⟨21, 16, .rw⟩, ⟨31, 22, .rw⟩]
  | .BRD_STATUS => [⟨0, 0, .ro⟩, ⟨1, 1, .w1c⟩, ⟨15, 8, .ro⟩, ⟨23, 16, .w1c⟩]
  | .BRD_INT_EN => [⟨1, 1, .rw⟩, ⟨23, 16, .rw⟩]
  | .BRD_SSC_CTL | .HDW_DIE_CTL | .HDW_DISC_CMD | .HDW_LC_CHAL => [⟨0, 0, .w1s⟩]
  | .CLU_CTL => [⟨3, 0, .rw⟩]
  | .CLU_ENTRY | .CLU_THREAD_PC => [⟨19, 2, .rw⟩]
  | .CLU_START => [⟨5, 0, .wo⟩, ⟨6, 6, .wo⟩]
  | .CLU_THREAD_CMD => [⟨2, 0, .wo⟩, ⟨8, 3, .wo⟩, ⟨10, 9, .wo⟩]
  | .CLU_FAULT_W0 => [⟨0, 0, .ro⟩, ⟨3, 1, .ro⟩, ⟨9, 4, .ro⟩, ⟨23, 16, .ro⟩, ⟨31, 24, .ro⟩]
  | .CLU_FAULT_W1 => [⟨19, 0, .ro⟩]
  | .CLU_FAULT_POP | .CFL_BOOK_SNAP => [⟨0, 0, .wo⟩]
  | .CLU_CREDIT_CTL => [⟨4, 0, .rw⟩, ⟨5, 5, .rw⟩, ⟨26, 16, .rw⟩]
  | .CLU_CREDIT_STAT | .CLU_BUF_STAT => [⟨10, 0, .ro⟩, ⟨26, 16, .ro⟩]
  | .CLU_BUF_CTL => [⟨10, 0, .rw⟩, ⟨15, 11, .rw⟩, ⟨16, 16, .rw⟩, ⟨27, 17, .rw⟩]
  | .CLU_BUF_FREE | .KEY_TBL_IN | .BNK_STO_CPL | .BNK_STO_STG_FREE | .HDW_LC_TOKEN => [⟨31, 0, .wo⟩]
  | .HBM_HOME_STATUS => [⟨10, 0, .ro⟩, ⟨14, 12, .ro⟩, ⟨16, 16, .w1c⟩]
  | .MCODE_VERSION_HI => [⟨15, 0, .ro⟩, ⟨23, 16, .ro⟩, ⟨31, 24, .ro⟩]
  | .MCODE_STATUS => [⟨1, 0, .ro⟩, ⟨2, 2, .ro⟩]
  | .HDW_MC_CMD | .KEY_TBL_CMD | .HDW_LC_CMD | .HDW_PWR_CMD | .HDW_FLASH_CMD => [⟨1, 0, .wo⟩]
  | .HDW_MC_STATUS => [⟨2, 0, .ro⟩, ⟨7, 4, .ro⟩, ⟨14, 8, .ro⟩, ⟨15, 15, .w1c⟩]
  | .HDW_MC_LEN => [⟨14, 0, .rw⟩]
  | .BRD_DICE_TDEF_W0 => [⟨0, 0, .rw⟩, ⟨1, 1, .rw⟩, ⟨2, 2, .rw⟩, ⟨3, 3, .ro⟩, ⟨8, 4, .rw⟩, ⟨13, 9, .rw⟩, ⟨23, 16, .rw⟩]
  | .BRD_DICE_TDEF_W1 => [⟨22, 0, .rw⟩]
  | .BRD_DICE_TDEF_W2 | .RNG_FN_IMGLEN => [⟨22, 0, .ro⟩]
  | .BNK_PARSE_UDP | .BNK_PARSE_APP | .CFL_PROF_W1 | .RNG_FN_BURST | .MAC_FC_THR => [⟨15, 0, .rw⟩, ⟨31, 16, .rw⟩]
  | .BNK_LEARN_CTL => [⟨0, 0, .rw⟩, ⟨15, 4, .rw⟩]
  | .BNK_INTAKE_SIDE => [⟨6, 0, .ro⟩]
  | .BNK_INTAKE_DEPTH => [⟨12, 0, .ro⟩]
  | .BRD_DICE_STAT => [⟨19, 0, .ro⟩, ⟨22, 20, .ro⟩, ⟨23, 23, .ro⟩, ⟨24, 24, .w1c⟩]
  | .BRD_DICE_MAXHITS => [⟨6, 0, .rc⟩]
  | .BRD_DICE_CURSOR => [⟨16, 0, .ro⟩]
  | .BRD_FLOW_CTL => [⟨0, 0, .rw⟩, ⟨1, 1, .ro⟩, ⟨2, 2, .ro⟩]
  | .BRD_FLOW_HOME | .SCH_POL_CBS | .SCH_POL_PBS | .GAU_CONS | .MAC_PCP_MAP => [⟨23, 0, .rw⟩]
  | .DICE_CMD_ARG => [⟨11, 0, .rw⟩, ⟨12, 12, .rw⟩, ⟨13, 13, .rw⟩, ⟨31, 16, .rw⟩]
  | .DICE_CMD_GO | .STO_CMD_GO => [⟨2, 0, .wo⟩]
  | .DICE_CMD_STAT => [⟨0, 0, .ro⟩, ⟨1, 1, .w1c⟩, ⟨2, 2, .ro⟩, ⟨7, 4, .ro⟩, ⟨31, 16, .ro⟩]
  | .BNK_SND_CTL => [⟨0, 0, .rw⟩, ⟨1, 1, .rw⟩, ⟨12, 8, .rw⟩]
  | .BNK_SND_STAT => [⟨0, 0, .ro⟩, ⟨1, 1, .w1c⟩, ⟨27, 16, .ro⟩]
  | .BNK_SND_LAST => [⟨11, 0, .ro⟩]
  | .BNK_SND_BASE | .RING_TXBASE | .RING_RXBASE => [⟨31, 6, .rw⟩]
  | .DLT_CMD_RES => [⟨27, 0, .rw⟩]
  | .DLT_CMD => [⟨1, 0, .wo⟩, ⟨2, 2, .wo⟩, ⟨10, 3, .wo⟩, ⟨27, 16, .wo⟩]
  | .DLT_CMD_STAT => [⟨0, 0, .ro⟩, ⟨1, 1, .w1c⟩, ⟨7, 4, .ro⟩]
  | .DLT_V4_COUNT | .DLT_V6_COUNT => [⟨21, 0, .ro⟩]
  | .CFL_BOOK_FREE | .CFL_BOOK_QUEUED | .CFL_BOOK_PIPE | .CFL_BOOK_RECLAIM | .CFL_BOOK_SPILLING | .CFL_QDEPTH
  | .KEY_TBL_COUNT => [⟨20, 0, .ro⟩]
  | .CFL_HEADROOM | .CFL_MC_GRP_W1 | .GATE_LEN => [⟨10, 0, .rw⟩]
  | .CFL_SEQ_TMO | .BRD_GATE_TMO => [⟨16, 0, .rw⟩]
  | .CFL_SPILL_CTL => [⟨0, 0, .rw⟩, ⟨3, 1, .rw⟩, ⟨31, 4, .rw⟩]
  | .CFL_PROF_W0 => [⟨7, 0, .rw⟩, ⟨15, 8, .rw⟩, ⟨23, 16, .rw⟩]
  | .CFL_PROF_W2 | .GAU_COUNT => [⟨20, 0, .rw⟩]
  | .CFL_QADM => [⟨3, 0, .rw⟩, ⟨6, 4, .rw⟩, ⟨7, 7, .rw⟩, ⟨31, 16, .rw⟩]
  | .CFL_MC_GRP_W0 => [⟨19, 0, .rw⟩, ⟨31, 31, .rw⟩]
  | .CFL_MC_LIST_W0 | .EDY_SES_QUEUE => [⟨19, 0, .rw⟩, ⟨31, 20, .rw⟩]
  | .CFL_MC_LIST_W1 => [⟨15, 0, .rw⟩, ⟨17, 16, .rw⟩, ⟨18, 18, .rw⟩]
  | .EDY_SES_CTL => [⟨0, 0, .rw⟩, ⟨1, 1, .rw⟩, ⟨2, 2, .rw⟩, ⟨23, 16, .rw⟩]
  | .EDY_SRC => [⟨0, 0, .rw⟩, ⟨6, 1, .rw⟩, ⟨7, 7, .rw⟩, ⟨13, 8, .rw⟩]
  | .SCH_Q_W0 => [⟨15, 0, .rw⟩, ⟨18, 16, .rw⟩, ⟨19, 19, .rw⟩, ⟨20, 20, .rw⟩, ⟨21, 21, .ro⟩]
  | .SCH_N_CFG => [⟨11, 0, .rw⟩, ⟨14, 12, .rw⟩, ⟨15, 15, .rw⟩, ⟨31, 16, .rw⟩]
  | .SCH_N_CBS => [⟨23, 0, .rw⟩, ⟨31, 31, .rw⟩]
  | .SCH_N_PBS => [⟨23, 0, .rw⟩, ⟨31, 24, .rw⟩]
  | .SCH_N_STAT => [⟨0, 0, .ro⟩, ⟨1, 1, .ro⟩, ⟨2, 2, .ro⟩, ⟨3, 3, .ro⟩]
  | .SCH_P_CFG | .HDW_COMPAT | .PCIE_MSIX_VCTL => [⟨0, 0, .rw⟩]
  | .SCH_P_STAT | .HDW_PWR_TEMP => [⟨7, 0, .ro⟩, ⟨15, 8, .ro⟩]
  | .GATE_CTL => [⟨0, 0, .rw⟩, ⟨1, 1, .w1s⟩, ⟨2, 2, .ro⟩, ⟨3, 3, .ro⟩]
  | .GATE_CYCLE | .GATE_EXT | .STO_CMD_IDX => [⟨29, 0, .rw⟩]
  | .GATE_POS => [⟨9, 0, .ro⟩]
  | .GATE_ENTRY => [⟨7, 0, .rw⟩, ⟨31, 8, .rw⟩]
  | .GAU_CTL => [⟨0, 0, .rw⟩, ⟨5, 1, .rw⟩]
  | .GAU_FIRST | .KEY_TBL_IDX | .RNG_FN_DBRATE => [⟨19, 0, .rw⟩]
  | .GAU_PROD => [⟨23, 0, .ro⟩]
  | .GAU_BASE | .RNG_FN_IMG | .NVME_ASQ | .NVME_ACQ => [⟨31, 12, .rw⟩]
  | .KEY_TBL_ATTR => [⟨15, 0, .rw⟩, ⟨16, 16, .rw⟩, ⟨17, 17, .rw⟩, ⟨18, 18, .rw⟩, ⟨19, 19, .rw⟩]
  | .KEY_TBL_STAT => [⟨0, 0, .ro⟩, ⟨1, 1, .w1c⟩, ⟨10, 8, .ro⟩, ⟨23, 16, .ro⟩]
  | .HDW_DIE_STATUS => [⟨1, 0, .ro⟩, ⟨2, 2, .w1c⟩, ⟨3, 3, .w1c⟩]
  | .CFL_SQ_CTL => [⟨0, 0, .rw⟩, ⟨1, 1, .rw⟩, ⟨2, 2, .ro⟩, ⟨3, 3, .ro⟩]
  | .CFL_SQ_KEY => [⟨19, 0, .rw⟩, ⟨27, 20, .rw⟩, ⟨31, 31, .rw⟩]
  | .CFL_SQ_EVQ => [⟨17, 0, .ro⟩, ⟨30, 30, .ro⟩, ⟨31, 31, .ro⟩]
  | .BNK_STO_CTL | .BNK_STO_PERS | .RNG_FN_CTL => [⟨0, 0, .rw⟩, ⟨1, 1, .ro⟩]
  | .BNK_STO_SLOTS => [⟨14, 0, .ro⟩, ⟨30, 16, .ro⟩]
  | .BNK_STO_EVQ => [⟨29, 0, .ro⟩, ⟨31, 31, .ro⟩]
  | .STO_CMD_STAT => [⟨0, 0, .ro⟩, ⟨1, 1, .w1c⟩, ⟨2, 2, .ro⟩]
  | .FRY_UP_CTL | .PCI_FRY_DN_CTL => [⟨4, 0, .wo⟩, ⟨5, 5, .wo⟩, ⟨6, 6, .ro⟩]
  | .FRY_DN_STAT | .PCI_FRY_UP_STAT => [⟨4, 0, .ro⟩, ⟨6, 6, .ro⟩]
  | .FRY_DN_TAKE | .PCI_FRY_UP_TAKE => [⟨4, 0, .ro⟩, ⟨5, 5, .ro⟩]
  | .FRY_IRQ => [⟨10, 0, .rw⟩, ⟨16, 16, .rw⟩, ⟨17, 17, .rw⟩]
  | .PCI_EP_CFG => [⟨0, 0, .rw⟩, ⟨1, 1, .rw⟩, ⟨2, 2, .rw⟩, ⟨4, 4, .ro⟩, ⟨5, 5, .ro⟩, ⟨6, 6, .ro⟩, ⟨18, 8, .rw⟩, ⟨26, 20, .rw⟩]
  | .PCI_EP_STAT => [⟨0, 0, .ro⟩, ⟨1, 1, .ro⟩, ⟨2, 2, .ro⟩]
  | .PCI_FRY_NOTE => [⟨4, 0, .rw⟩, ⟨5, 5, .rw⟩, ⟨15, 8, .rw⟩]
  | .PCI_FRY_PEND => [⟨31, 0, .w1c⟩]
  | .RING_TXDB | .RING_RXDB | .NVME_SQTDBL | .NVME_CQHDBL => [⟨15, 0, .wo⟩]
  | .RING_SIZE => [⟨4, 0, .rw⟩, ⟨12, 8, .rw⟩]
  | .RING_IRQ => [⟨10, 0, .rw⟩, ⟨26, 16, .rw⟩]
  | .RING_WRR => [⟨7, 0, .rw⟩, ⟨14, 8, .rw⟩]
  | .RING_ARM => [⟨0, 0, .w1s⟩, ⟨1, 1, .ro⟩, ⟨2, 2, .w1c⟩]
  | .DMA_CTL => [⟨0, 0, .w1s⟩, ⟨1, 1, .w1s⟩]
  | .RNG_CTL => [⟨6, 0, .rw⟩]
  | .RNG_FN_QSEL => [⟨5, 0, .rw⟩, ⟨8, 8, .rw⟩]
  | .RNG_FN_QVIEW0 | .ATL_CRED => [⟨15, 0, .ro⟩, ⟨31, 16, .ro⟩]
  | .RNG_FN_QVIEW1 => [⟨15, 0, .ro⟩, ⟨16, 16, .ro⟩, ⟨28, 24, .ro⟩]
  | .RNG_FN_WEIGHT => [⟨7, 0, .rw⟩]
  | .RNG_FN_FRZ => [⟨2, 0, .wo⟩, ⟨6, 4, .ro⟩, ⟨7, 7, .ro⟩, ⟨11, 8, .ro⟩, ⟨12, 12, .w1c⟩, ⟨31, 16, .ro⟩]
  | .INS_STAT => [⟨15, 0, .ro⟩, ⟨18, 16, .ro⟩, ⟨31, 24, .ro⟩]
  | .BRD_INS_W0 => [⟨19, 0, .rw⟩, ⟨30, 20, .rw⟩, ⟨31, 31, .rw⟩]
  | .MAC_PORT_CFG => [⟨0, 0, .rw⟩, ⟨2, 1, .rw⟩, ⟨3, 3, .rw⟩, ⟨17, 4, .rw⟩]
  | .MAC_PORT_STAT => [⟨0, 0, .ro⟩, ⟨1, 1, .ro⟩, ⟨2, 2, .ro⟩, ⟨3, 3, .w1c⟩]
  | .MAC_FC_CTL => [⟨1, 0, .rw⟩, ⟨9, 2, .rw⟩, ⟨12, 10, .rw⟩, ⟨31, 16, .rw⟩]
  | .MAC_FC_HELD | .ATL_REQ | .HDW_VAULT_BADCOPY => [⟨7, 0, .ro⟩]
  | .MAC_EEE_CTL => [⟨0, 0, .rw⟩, ⟨23, 8, .rw⟩]
  | .MAC_PTP_CTL | .ATL_PTP_CTL => [⟨0, 0, .rw⟩, ⟨23, 16, .rw⟩, ⟨31, 24, .rw⟩]
  | .MAC_TXTS_ID | .ATL_TXTS_ID => [⟨7, 0, .ro⟩, ⟨31, 31, .ro⟩]
  | .MAC_SLACK_CTL | .ATL_SLACK_CTL => [⟨0, 0, .rw⟩, ⟨8, 1, .rw⟩, ⟨25, 9, .rw⟩]
  | .MAC_SLACK_STAT | .ATL_SLACK_STAT => [⟨1, 0, .ro⟩, ⟨2, 2, .ro⟩, ⟨7, 4, .ro⟩, ⟨15, 8, .ro⟩]
  | .ATL_CFG => [⟨0, 0, .rw⟩, ⟨13, 1, .rw⟩, ⟨23, 16, .rw⟩]
  | .ATL_STAT => [⟨0, 0, .ro⟩, ⟨1, 1, .w1c⟩]
  | .HDW_DISC_STAT => [⟨0, 0, .ro⟩, ⟨1, 1, .w1c⟩, ⟨2, 2, .ro⟩, ⟨3, 3, .ro⟩]
  | .HDW_DISC_W0 => [⟨0, 0, .ro⟩, ⟨1, 1, .ro⟩, ⟨2, 2, .ro⟩, ⟨3, 3, .ro⟩, ⟨15, 8, .ro⟩, ⟨31, 16, .ro⟩]
  | .HDW_LC_STAT => [⟨1, 0, .ro⟩, ⟨2, 2, .ro⟩, ⟨4, 3, .ro⟩, ⟨5, 5, .ro⟩, ⟨9, 6, .ro⟩, ⟨10, 10, .ro⟩]
  | .HDW_VAULT_CMD => [⟨6, 0, .wo⟩, ⟨9, 8, .wo⟩]
  | .HDW_VAULT_STAT => [⟨10, 0, .ro⟩, ⟨11, 11, .ro⟩, ⟨18, 12, .ro⟩, ⟨22, 19, .ro⟩, ⟨23, 23, .ro⟩]
  | .HDW_VAULT_LEN => [⟨11, 0, .rw⟩]
  | .HDW_PWR_STAT => [⟨1, 0, .ro⟩, ⟨3, 2, .ro⟩, ⟨31, 16, .ro⟩]
  | .HDW_PWR_PFAIL => [⟨5, 0, .rw⟩]
  | .TRB_STAT => [⟨3, 0, .w1c⟩, ⟨11, 8, .wo⟩]
  | .TRB_IEN => [⟨3, 0, .rw⟩, ⟨4, 4, .rw⟩, ⟨5, 5, .rw⟩, ⟨12, 8, .rw⟩, ⟨23, 16, .rw⟩]
  | .TRB_HIST => [⟨2, 0, .ro⟩, ⟨31, 4, .ro⟩]
  | .TRB_INJ => [⟨3, 0, .rw⟩, ⟨4, 4, .w1s⟩, ⟨5, 5, .ro⟩, ⟨15, 8, .ro⟩]
  | .LOG_CTL => [⟨0, 0, .rw⟩, ⟨1, 1, .wo⟩]
  | .CNT_CTL => [⟨0, 0, .rw⟩, ⟨1, 1, .w1c⟩, ⟨2, 2, .ro⟩, ⟨3, 3, .rw⟩, ⟨4, 4, .wo⟩, ⟨15, 8, .rw⟩, ⟨25, 16, .rw⟩]
  | .HDW_BOOT_STAT => [⟨2, 0, .ro⟩, ⟨3, 3, .ro⟩, ⟨4, 4, .ro⟩, ⟨5, 5, .ro⟩, ⟨6, 6, .ro⟩, ⟨23, 8, .ro⟩, ⟨27, 24, .ro⟩]
  | .HDW_FLASH_ADDR => [⟨25, 0, .rw⟩]
  | .HDW_FLASH_STAT => [⟨0, 0, .ro⟩, ⟨1, 1, .w1c⟩, ⟨3, 2, .ro⟩]
  | .AP_BASE => [⟨31, 24, .rw⟩]
  | .PCIE_CMD => [⟨1, 1, .rw⟩, ⟨2, 2, .rw⟩, ⟨8, 8, .rw⟩]
  | .PCIE_PMCSR => [⟨1, 0, .rw⟩]
  | .PCIE_MSIX_CTL => [⟨31, 31, .rw⟩, ⟨30, 30, .rw⟩]
  | .PCIE_SRIOV => [⟨0, 0, .rw⟩, ⟨31, 16, .rw⟩]
  | .PCIE_DEVCTL => [⟨1, 1, .rw⟩, ⟨3, 3, .rw⟩, ⟨4, 4, .rw⟩, ⟨7, 5, .rw⟩, ⟨14, 12, .rw⟩]
  | .PCIE_ATS => [⟨20, 16, .rw⟩, ⟨31, 31, .rw⟩]
  | .PCIE_AER => [⟨20, 20, .w1c⟩]
  | .PCIE_AER_MASK | .PCIE_AER_SEV => [⟨20, 20, .rw⟩]
  | .NVME_CAP => [⟨15, 0, .ro⟩, ⟨16, 16, .ro⟩, ⟨18, 17, .ro⟩, ⟨31, 24, .ro⟩]
  | .NVME_CAP_HI => [⟨3, 0, .ro⟩, ⟨4, 4, .ro⟩, ⟨12, 5, .ro⟩, ⟨19, 16, .ro⟩, ⟨23, 20, .ro⟩]
  | .NVME_CC => [⟨0, 0, .rw⟩, ⟨15, 14, .rw⟩, ⟨31, 16, .rw⟩, ⟨13, 1, .rw⟩]
  | .NVME_CSTS => [⟨0, 0, .ro⟩, ⟨1, 1, .ro⟩, ⟨3, 2, .ro⟩]
  | .NVME_AQA => [⟨11, 0, .rw⟩, ⟨27, 16, .rw⟩]
  | _ => [⟨31, 0, .ro⟩]

/-- Where instances of a register lie in device space: `base`, the nested (count, stride) dimensions, outermost
first, and the index of the first instance (R25 and the chapters' address formulas). -/
structure Place where
  reg  : Reg
  base : Nat
  dims : List (Nat × Nat)
  off  : Nat
deriving DecidableEq, Repr

/-- Part 0 of the address table. -/
def places0 : List Place :=
  [⟨.BNK_STEER_TBL, 0x300010000, [(4, 0x1000000), (4096, 0x4)], 0⟩,
   ⟨.POL_CTL, 0x200000400, [], 0⟩,
   ⟨.POL_CTL, 0x200000410, [], 1⟩,
   ⟨.POL_CTL, 0x100000400, [(8, 0x1000000)], 2⟩,
   ⟨.POL_CTL, 0x100000410, [(8, 0x1000000)], 10⟩,
   ⟨.POL_CTL, 0x300000400, [(4, 0x1000000)], 18⟩,
   ⟨.POL_CTL, 0x300000500, [(4, 0x1000000), (8, 0x10)], 22⟩,
   ⟨.POL_CTL, 0x300000600, [(4, 0x1000000), (64, 0x10)], 54⟩,
   ⟨.POL_CTL, 0x400, [], 310⟩,
   ⟨.POL_MAN, 0x200000404, [], 0⟩,
   ⟨.POL_MAN, 0x200000414, [], 1⟩,
   ⟨.POL_MAN, 0x100000404, [(8, 0x1000000)], 2⟩,
   ⟨.POL_MAN, 0x100000414, [(8, 0x1000000)], 10⟩,
   ⟨.POL_MAN, 0x300000404, [(4, 0x1000000)], 18⟩,
   ⟨.POL_MAN, 0x300000504, [(4, 0x1000000), (8, 0x10)], 22⟩,
   ⟨.POL_MAN, 0x300000604, [(4, 0x1000000), (64, 0x10)], 54⟩,
   ⟨.POL_MAN, 0x404, [], 310⟩,
   ⟨.POL_CUR, 0x200000408, [], 0⟩,
   ⟨.POL_CUR, 0x200000418, [], 1⟩,
   ⟨.POL_CUR, 0x100000408, [(8, 0x1000000)], 2⟩,
   ⟨.POL_CUR, 0x100000418, [(8, 0x1000000)], 10⟩,
   ⟨.POL_CUR, 0x300000408, [(4, 0x1000000)], 18⟩,
   ⟨.POL_CUR, 0x300000508, [(4, 0x1000000), (8, 0x10)], 22⟩,
   ⟨.POL_CUR, 0x300000608, [(4, 0x1000000), (64, 0x10)], 54⟩,
   ⟨.POL_CUR, 0x408, [], 310⟩,
   ⟨.TIME_NOW_NS, 0x10000, [], 0⟩,
   ⟨.TIME_NOW_SLO, 0x10004, [], 0⟩,
   ⟨.TIME_NOW_SHI, 0x10008, [], 0⟩,
   ⟨.TIME_CTL, 0x1000c, [], 0⟩,
   ⟨.TIME_STATUS, 0x10010, [], 0⟩,
   ⟨.TIME_SET_NS, 0x10014, [], 0⟩,
   ⟨.TIME_SET_SLO, 0x10018, [], 0⟩,
   ⟨.TIME_SET_SHI, 0x1001c, [], 0⟩,
   ⟨.TIME_STEP_THR, 0x10020, [], 0⟩,
   ⟨.TIME_FREQ_ADJ, 0x10024, [], 0⟩,
   ⟨.TIME_OFFSET, 0x10028, [], 0⟩,
   ⟨.TIME_STEPS, 0x1002c, [], 0⟩,
   ⟨.TIME_HOLD_SEC, 0x10030, [], 0⟩,
   ⟨.TTB_CTL, 0x20000, [], 0⟩,
   ⟨.TTB_CYCLE, 0x20004, [], 0⟩]

/-- Part 1 of the address table. -/
def places1 : List Place :=
  [⟨.TTB_STATUS, 0x20008, [], 0⟩,
   ⟨.TTB_SKIP, 0x2000c, [], 0⟩,
   ⟨.TTB_OVERRUN, 0x20010, [], 0⟩,
   ⟨.TTB_FORD_DENY, 0x20014, [], 0⟩,
   ⟨.TTB_ARG_IGN, 0x20018, [], 0⟩,
   ⟨.TTB_SLOT_W0, 0x100000, [(65536, 0x8)], 0⟩,
   ⟨.TTB_SLOT_W1, 0x100004, [(65536, 0x8)], 0⟩,
   ⟨.BRD_STATUS, 0x100000000, [(8, 0x1000000)], 0⟩,
   ⟨.BRD_INT_EN, 0x100000004, [(8, 0x1000000)], 0⟩,
   ⟨.BRD_SSC_CTL, 0x100000010, [(8, 0x1000000)], 0⟩,
   ⟨.CLU_CTL, 0x100100000, [(8, 0x1000000), (8, 0x10000)], 0⟩,
   ⟨.CLU_ENTRY, 0x100100004, [(8, 0x1000000), (8, 0x10000)], 0⟩,
   ⟨.CLU_START, 0x100100008, [(8, 0x1000000), (8, 0x10000)], 0⟩,
   ⟨.CLU_THREAD_CMD, 0x10010000c, [(8, 0x1000000), (8, 0x10000)], 0⟩,
   ⟨.CLU_THREAD_PC, 0x100100010, [(8, 0x1000000), (8, 0x10000)], 0⟩,
   ⟨.CLU_FAULT_W0, 0x100100020, [(8, 0x1000000), (8, 0x10000)], 0⟩,
   ⟨.CLU_FAULT_W1, 0x100100024, [(8, 0x1000000), (8, 0x10000)], 0⟩,
   ⟨.CLU_FAULT_POP, 0x100100028, [(8, 0x1000000), (8, 0x10000)], 0⟩,
   ⟨.CLU_FAULT_LOST, 0x10010002c, [(8, 0x1000000), (8, 0x10000)], 0⟩,
   ⟨.CLU_CREDIT_CTL, 0x100100040, [(8, 0x1000000), (8, 0x10000)], 0⟩,
   ⟨.CLU_CREDIT_STAT, 0x100100044, [(8, 0x1000000), (8, 0x10000)], 0⟩,
   ⟨.CLU_BUF_CTL, 0x100100048, [(8, 0x1000000), (8, 0x10000)], 0⟩,
   ⟨.CLU_BUF_ALLOC, 0x10010004c, [(8, 0x1000000), (8, 0x10000)], 0⟩,
   ⟨.CLU_BUF_FREE, 0x100100050, [(8, 0x1000000), (8, 0x10000)], 0⟩,
   ⟨.CLU_BUF_STAT, 0x100100054, [(8, 0x1000000), (8, 0x10000)], 0⟩,
   ⟨.CLU_BUF_ERR, 0x100100058, [(8, 0x1000000), (8, 0x10000)], 0⟩,
   ⟨.CLU_RUNNING, 0x100100100, [(8, 0x1000000), (8, 0x10000), (16, 0x4)], 0⟩,
   ⟨.CLU_FAULTED, 0x100100140, [(8, 0x1000000), (8, 0x10000), (16, 0x4)], 0⟩,
   ⟨.HBM_HOME_STATUS, 0x300030000, [(4, 0x1000000)], 0⟩,
   ⟨.HBM_HOME_TIES, 0x300030004, [(4, 0x1000000)], 0⟩,
   ⟨.HBM_HOME_POISONED, 0x300030008, [(4, 0x1000000)], 0⟩,
   ⟨.MCODE_VERSION, 0x100300000, [(8, 0x1000000), (8, 0x1000)], 0⟩,
   ⟨.MCODE_VERSION_HI, 0x100300004, [(8, 0x1000000), (8, 0x1000)], 0⟩,
   ⟨.MCODE_STATUS, 0x100300008, [(8, 0x1000000), (8, 0x1000)], 0⟩,
   ⟨.MCODE_FIX, 0x10030000c, [(8, 0x1000000), (8, 0x1000)], 0⟩,
   ⟨.MCODE_BACKOUT, 0x100300010, [(8, 0x1000000), (8, 0x1000)], 0⟩,
   ⟨.HDW_MC_CMD, 0x30000, [], 0⟩,
   ⟨.HDW_MC_STATUS, 0x30004, [], 0⟩,
   ⟨.HDW_MC_LEN, 0x30008, [], 0⟩,
   ⟨.HDW_MC_FAIL, 0x30010, [], 0⟩]

/-- Part 2 of the address table. -/
def places2 : List Place :=
  [⟨.HDW_MC_FAIL_HI, 0x30014, [], 0⟩,
   ⟨.BRD_DICE_TDEF_W0, 0x100500000, [(8, 0x1000000), (4096, 0x10)], 0⟩,
   ⟨.BRD_DICE_TDEF_W1, 0x100500004, [(8, 0x1000000), (4096, 0x10)], 0⟩,
   ⟨.BRD_DICE_TDEF_W2, 0x100500008, [(8, 0x1000000), (4096, 0x10)], 0⟩,
   ⟨.BRD_DICE_TDEF_W3, 0x10050000c, [(8, 0x1000000), (4096, 0x10)], 0⟩,
   ⟨.BNK_HASH_SEED, 0x300020000, [(4, 0x1000000)], 0⟩,
   ⟨.BNK_PARSE_UDP, 0x300020004, [(4, 0x1000000)], 0⟩,
   ⟨.BNK_PARSE_APP, 0x300020008, [(4, 0x1000000)], 0⟩,
   ⟨.BNK_LEARN_CTL, 0x30002000c, [(4, 0x1000000)], 0⟩,
   ⟨.BNK_INTAKE_DROP, 0x300020010, [(4, 0x1000000)], 0⟩,
   ⟨.BNK_INTAKE_SIDE, 0x300020040, [(4, 0x1000000)], 0⟩,
   ⟨.BNK_INTAKE_DEPTH, 0x300020020, [(4, 0x1000000), (8, 0x4)], 0⟩,
   ⟨.BRD_DICE_STAT, 0x100400000, [(8, 0x1000000)], 0⟩,
   ⟨.BRD_DICE_FULL, 0x100400004, [(8, 0x1000000)], 0⟩,
   ⟨.BRD_DICE_MAXHITS, 0x100400008, [(8, 0x1000000)], 0⟩,
   ⟨.BRD_DICE_AGED, 0x10040000c, [(8, 0x1000000)], 0⟩,
   ⟨.BRD_DICE_LEARN_FAIL, 0x100400010, [(8, 0x1000000)], 0⟩,
   ⟨.BRD_DICE_LEARN_MOVE, 0x100400014, [(8, 0x1000000)], 0⟩,
   ⟨.BRD_DICE_CURSOR, 0x100400018, [(8, 0x1000000)], 0⟩,
   ⟨.BRD_FLOW_CTL, 0x100400200, [(8, 0x1000000)], 0⟩,
   ⟨.BRD_FLOW_TMO, 0x100400204, [(8, 0x1000000)], 0⟩,
   ⟨.BRD_FLOW_HOME, 0x100400208, [(8, 0x1000000)], 0⟩,
   ⟨.BRD_FLOW_FULL, 0x10040020c, [(8, 0x1000000)], 0⟩,
   ⟨.BRD_FLOW_EXPIRED, 0x100400210, [(8, 0x1000000)], 0⟩,
   ⟨.DICE_CMD_KEY, 0x100400100, [(8, 0x1000000), (2, 0x40), (4, 0x4)], 0⟩,
   ⟨.DICE_CMD_VAL, 0x100400110, [(8, 0x1000000), (2, 0x40), (4, 0x4)], 0⟩,
   ⟨.DICE_CMD_ARG, 0x100400120, [(8, 0x1000000), (2, 0x40)], 0⟩,
   ⟨.DICE_CMD_GO, 0x100400124, [(8, 0x1000000), (2, 0x40)], 0⟩,
   ⟨.DICE_CMD_STAT, 0x100400128, [(8, 0x1000000), (2, 0x40)], 0⟩,
   ⟨.BNK_SND_CTL, 0x300021000, [(4, 0x1000000)], 0⟩,
   ⟨.BNK_SND_STAT, 0x30002100c, [(4, 0x1000000)], 0⟩,
   ⟨.BNK_SND_MISSING, 0x300021010, [(4, 0x1000000)], 0⟩,
   ⟨.BNK_SND_DIFFERENT, 0x300021014, [(4, 0x1000000)], 0⟩,
   ⟨.BNK_SND_EXTRA, 0x300021018, [(4, 0x1000000)], 0⟩,
   ⟨.BNK_SND_REPAIRED, 0x30002101c, [(4, 0x1000000)], 0⟩,
   ⟨.BNK_SND_REPAIR_FAIL, 0x300021020, [(4, 0x1000000)], 0⟩,
   ⟨.BNK_SND_DISCARDED, 0x300021024, [(4, 0x1000000)], 0⟩,
   ⟨.BNK_SND_LAST, 0x300021028, [(4, 0x1000000)], 0⟩,
   ⟨.BNK_SND_BASE, 0x300021004, [(4, 0x1000000)], 0⟩,
   ⟨.BNK_SND_BASE_HI, 0x300021008, [(4, 0x1000000)], 0⟩]

/-- Part 3 of the address table. -/
def places3 : List Place :=
  [⟨.DLT_CMD_ADDR, 0x200100000, [(4, 0x4)], 0⟩,
   ⟨.DLT_CMD_RES, 0x200100010, [], 0⟩,
   ⟨.DLT_CMD, 0x200100014, [], 0⟩,
   ⟨.DLT_CMD_STAT, 0x200100018, [], 0⟩,
   ⟨.DLT_V4_COUNT, 0x20010001c, [], 0⟩,
   ⟨.DLT_V6_COUNT, 0x200100020, [], 0⟩,
   ⟨.DLT_VRF_EN, 0x200100100, [(128, 0x4)], 0⟩,
   ⟨.CFL_BOOK_SNAP, 0x200001000, [], 0⟩,
   ⟨.CFL_BOOK_FREE, 0x200001004, [], 0⟩,
   ⟨.CFL_BOOK_QUEUED, 0x200001008, [], 0⟩,
   ⟨.CFL_BOOK_PIPE, 0x20000100c, [], 0⟩,
   ⟨.CFL_BOOK_RECLAIM, 0x200001010, [], 0⟩,
   ⟨.CFL_BOOK_SPILLING, 0x200001014, [], 0⟩,
   ⟨.CFL_CELL_FLOOR, 0x200001018, [], 0⟩,
   ⟨.CFL_HEADROOM, 0x20000101c, [], 0⟩,
   ⟨.CFL_SEQ_TMO, 0x200001020, [], 0⟩,
   ⟨.CFL_SEQ_SKIP, 0x200001024, [], 0⟩,
   ⟨.CFL_SEQ_LATE, 0x200001028, [], 0⟩,
   ⟨.CFL_ALLOC_FAIL, 0x20000102c, [], 0⟩,
   ⟨.CFL_FENCE_RECLAIM, 0x200001030, [], 0⟩,
   ⟨.CFL_SPILL_CTL, 0x200001040, [], 0⟩,
   ⟨.CFL_SPILL_FRAMES, 0x200001044, [], 0⟩,
   ⟨.CFL_SPILL_CELLS, 0x200001048, [], 0⟩,
   ⟨.CFL_SPILL_FAIL, 0x20000104c, [], 0⟩,
   ⟨.CFL_SPILL_UNLISTED, 0x200001050, [], 0⟩,
   ⟨.CFL_MC_SYNC, 0x200001060, [], 0⟩,
   ⟨.CFL_MC_EMPTY, 0x200001064, [], 0⟩,
   ⟨.CFL_MC_REJ, 0x200001068, [], 0⟩,
   ⟨.CFL_PROF_W0, 0x200001100, [(16, 0x10)], 0⟩,
   ⟨.CFL_PROF_W1, 0x200001104, [(16, 0x10)], 0⟩,
   ⟨.CFL_PROF_W2, 0x200001108, [(16, 0x10)], 0⟩,
   ⟨.CFL_PROF_W3, 0x20000110c, [(16, 0x10)], 0⟩,
   ⟨.CFL_QADM, 0x240000000, [(1048576, 0x4)], 0⟩,
   ⟨.CFL_QDEPTH, 0x280000000, [(1048576, 0x4)], 0⟩,
   ⟨.CFL_MC_GRP_W0, 0x201000000, [(65536, 0x8)], 0⟩,
   ⟨.CFL_MC_GRP_W1, 0x201000004, [(65536, 0x8)], 0⟩,
   ⟨.CFL_MC_LIST_W0, 0x201800000, [(1048576, 0x8)], 0⟩,
   ⟨.CFL_MC_LIST_W1, 0x201800004, [(1048576, 0x8)], 0⟩,
   ⟨.CFL_PREP, 0x202000080, [(4095, 0x80), (32, 0x4)], 0⟩,
   ⟨.EDY_SES_CTL, 0x200200000, [(64, 0x20)], 0⟩]

/-- Part 4 of the address table. -/
def places4 : List Place :=
  [⟨.EDY_SES_QUEUE, 0x200200004, [(64, 0x20)], 0⟩,
   ⟨.EDY_SES_SAMPLE, 0x200200008, [(64, 0x20)], 0⟩,
   ⟨.EDY_SES_COPIES, 0x20020000c, [(64, 0x20)], 0⟩,
   ⟨.EDY_SES_DROPS, 0x200200010, [(64, 0x20)], 0⟩,
   ⟨.EDY_SRC, 0x200201000, [(288, 0x4)], 0⟩,
   ⟨.SCH_ECN_MARKS, 0x200300000, [], 0⟩,
   ⟨.SCH_CFG_REJ, 0x200300004, [], 0⟩,
   ⟨.SCH_Q_W0, 0x2c0000000, [(1048576, 0x8)], 0⟩,
   ⟨.SCH_Q_W1, 0x2c0000004, [(1048576, 0x8)], 0⟩,
   ⟨.SCH_N_CFG, 0x208000000, [(65536, 0x20)], 0⟩,
   ⟨.SCH_N_CFG, 0x209000000, [(4096, 0x20)], 65536⟩,
   ⟨.SCH_N_CIR, 0x208000004, [(65536, 0x20)], 0⟩,
   ⟨.SCH_N_CIR, 0x209000004, [(4096, 0x20)], 65536⟩,
   ⟨.SCH_N_PIR, 0x208000008, [(65536, 0x20)], 0⟩,
   ⟨.SCH_N_PIR, 0x209000008, [(4096, 0x20)], 65536⟩,
   ⟨.SCH_N_CBS, 0x20800000c, [(65536, 0x20)], 0⟩,
   ⟨.SCH_N_CBS, 0x20900000c, [(4096, 0x20)], 65536⟩,
   ⟨.SCH_N_PBS, 0x208000010, [(65536, 0x20)], 0⟩,
   ⟨.SCH_N_PBS, 0x209000010, [(4096, 0x20)], 65536⟩,
   ⟨.SCH_N_TC, 0x208000014, [(65536, 0x20)], 0⟩,
   ⟨.SCH_N_TC, 0x209000014, [(4096, 0x20)], 65536⟩,
   ⟨.SCH_N_TP, 0x208000018, [(65536, 0x20)], 0⟩,
   ⟨.SCH_N_TP, 0x209000018, [(4096, 0x20)], 65536⟩,
   ⟨.SCH_N_STAT, 0x20800001c, [(65536, 0x20)], 0⟩,
   ⟨.SCH_N_STAT, 0x20900001c, [(4096, 0x20)], 65536⟩,
   ⟨.SCH_P_CFG, 0x209020000, [(1024, 0x20)], 0⟩,
   ⟨.SCH_P_STAT, 0x20902001c, [(1024, 0x20)], 0⟩,
   ⟨.SCH_POL_CIR, 0x20a000000, [(262144, 0x20)], 0⟩,
   ⟨.SCH_POL_PIR, 0x20a000004, [(262144, 0x20)], 0⟩,
   ⟨.SCH_POL_CBS, 0x20a000008, [(262144, 0x20)], 0⟩,
   ⟨.SCH_POL_PBS, 0x20a00000c, [(262144, 0x20)], 0⟩,
   ⟨.SCH_POL_TC, 0x20a000010, [(262144, 0x20)], 0⟩,
   ⟨.SCH_POL_TP, 0x20a000014, [(262144, 0x20)], 0⟩,
   ⟨.SCH_POL_YELLOW, 0x20a000018, [(262144, 0x20)], 0⟩,
   ⟨.SCH_POL_RED, 0x20a00001c, [(262144, 0x20)], 0⟩,
   ⟨.GATE_CTL, 0x204000000, [(256, 0x4000)], 0⟩,
   ⟨.GATE_BASE_NS, 0x204000004, [(256, 0x4000)], 0⟩,
   ⟨.GATE_BASE_SLO, 0x204000008, [(256, 0x4000)], 0⟩,
   ⟨.GATE_BASE_SHI, 0x20400000c, [(256, 0x4000)], 0⟩,
   ⟨.GATE_CYCLE, 0x204000010, [(256, 0x4000)], 0⟩]

/-- Part 5 of the address table. -/
def places5 : List Place :=
  [⟨.GATE_EXT, 0x204000014, [(256, 0x4000)], 0⟩,
   ⟨.GATE_LEN, 0x204000018, [(256, 0x4000)], 0⟩,
   ⟨.GATE_POS, 0x20400001c, [(256, 0x4000)], 0⟩,
   ⟨.GATE_CHANGES, 0x204000020, [(256, 0x4000)], 0⟩,
   ⟨.GATE_REJ, 0x204000024, [(256, 0x4000)], 0⟩,
   ⟨.GATE_ENTRY, 0x204001000, [(256, 0x4000), (2, 0x1000), (1024, 0x4)], 0⟩,
   ⟨.GAU_CTL, 0x200500000, [(16, 0x40)], 0⟩,
   ⟨.GAU_FIRST, 0x200500004, [(16, 0x40)], 0⟩,
   ⟨.GAU_COUNT, 0x200500008, [(16, 0x40)], 0⟩,
   ⟨.GAU_PERIOD, 0x20050000c, [(16, 0x40)], 0⟩,
   ⟨.GAU_PROD, 0x200500018, [(16, 0x40)], 0⟩,
   ⟨.GAU_CONS, 0x20050001c, [(16, 0x40)], 0⟩,
   ⟨.GAU_LOST, 0x200500020, [(16, 0x40)], 0⟩,
   ⟨.GAU_SKIPPED, 0x200500024, [(16, 0x40)], 0⟩,
   ⟨.GAU_BASE, 0x200500010, [(16, 0x40)], 0⟩,
   ⟨.GAU_BASE_HI, 0x200500014, [(16, 0x40)], 0⟩,
   ⟨.KEY_TBL_IN, 0x50000, [(8, 0x4)], 0⟩,
   ⟨.KEY_TBL_IDX, 0x50020, [], 0⟩,
   ⟨.KEY_TBL_ATTR, 0x50024, [], 0⟩,
   ⟨.KEY_TBL_CMD, 0x50028, [], 0⟩,
   ⟨.KEY_TBL_STAT, 0x5002c, [], 0⟩,
   ⟨.KEY_TBL_COUNT, 0x50030, [], 0⟩,
   ⟨.HDW_DIE_STATUS, 0x60000, [], 0⟩,
   ⟨.HDW_DIE_CTL, 0x60004, [], 0⟩,
   ⟨.HDW_DIE_RESEEDS, 0x60008, [], 0⟩,
   ⟨.BRD_KEY_MISS, 0x100400400, [(8, 0x1000000)], 0⟩,
   ⟨.BRD_KEY_BADCHK, 0x100400404, [(8, 0x1000000)], 0⟩,
   ⟨.BRD_GATE_TMO, 0x100400408, [(8, 0x1000000)], 0⟩,
   ⟨.BRD_GATE_FAIL, 0x10040040c, [(8, 0x1000000)], 0⟩,
   ⟨.BRD_GATE_TIMEOUT, 0x100400410, [(8, 0x1000000)], 0⟩,
   ⟨.BRD_GATE_DROP, 0x100400414, [(8, 0x1000000)], 0⟩,
   ⟨.BRD_GATE_ZERO_ERR, 0x100400418, [(8, 0x1000000)], 0⟩,
   ⟨.CFL_SQ_NEXT, 0x210000000, [(262144, 0x20)], 0⟩,
   ⟨.CFL_SQ_CTL, 0x210000004, [(262144, 0x20)], 0⟩,
   ⟨.CFL_SQ_SOFT, 0x210000018, [(262144, 0x20)], 0⟩,
   ⟨.CFL_SQ_KEY, 0x21000001c, [(262144, 0x20)], 0⟩,
   ⟨.CFL_SQ_VAL, 0x210000008, [(262144, 0x20)], 0⟩,
   ⟨.CFL_SQ_VAL_HI, 0x21000000c, [(262144, 0x20)], 0⟩,
   ⟨.CFL_SQ_LIMIT, 0x210000010, [(262144, 0x20)], 0⟩,
   ⟨.CFL_SQ_LIMIT_HI, 0x210000014, [(262144, 0x20)], 0⟩]

/-- Part 6 of the address table. -/
def places6 : List Place :=
  [⟨.CFL_SQ_HI, 0x200600000, [], 0⟩,
   ⟨.CFL_SQ_EVQ, 0x200600004, [], 0⟩,
   ⟨.CFL_SQ_EVQ_LOST, 0x200600008, [], 0⟩,
   ⟨.CFL_SQ_REJ, 0x20060000c, [], 0⟩,
   ⟨.BNK_STO_CTL, 0x300040000, [(4, 0x1000000)], 0⟩,
   ⟨.BNK_STO_CPL, 0x300040004, [(4, 0x1000000)], 0⟩,
   ⟨.BNK_STO_SLOTS, 0x300040008, [(4, 0x1000000)], 0⟩,
   ⟨.BNK_STO_SYNC, 0x30004000c, [(4, 0x1000000)], 0⟩,
   ⟨.BNK_STO_HOLD_TMO, 0x300040010, [(4, 0x1000000)], 0⟩,
   ⟨.BNK_STO_EVQ, 0x300040014, [(4, 0x1000000)], 0⟩,
   ⟨.BNK_STO_STG_ALLOC, 0x300040018, [(4, 0x1000000)], 0⟩,
   ⟨.BNK_STO_STG_FREE, 0x30004001c, [(4, 0x1000000)], 0⟩,
   ⟨.BNK_STO_LATE, 0x300040020, [(4, 0x1000000)], 0⟩,
   ⟨.BNK_STO_ERRS, 0x300040024, [(4, 0x1000000)], 0⟩,
   ⟨.BNK_STO_EVQ_LOST, 0x300040028, [(4, 0x1000000)], 0⟩,
   ⟨.BNK_STO_STG_ERR, 0x30004002c, [(4, 0x1000000)], 0⟩,
   ⟨.BNK_STO_PERS, 0x300050000, [(4, 0x1000000), (8, 0x2000), (1025, 0x4)], 0⟩,
   ⟨.STO_CMD_DATA, 0x300040100, [(4, 0x1000000), (16, 0x4)], 0⟩,
   ⟨.STO_CMD_IDX, 0x300040140, [(4, 0x1000000)], 0⟩,
   ⟨.STO_CMD_GO, 0x300040144, [(4, 0x1000000)], 0⟩,
   ⟨.STO_CMD_STAT, 0x300040148, [(4, 0x1000000)], 0⟩,
   ⟨.PCI_FRY_UP_MSG, 0x300800000, [(4, 0x1000000), (8, 0x80000), (1025, 0x100), (16, 0x4)], 0⟩,
   ⟨.PCI_FRY_UP_STAT, 0x300800040, [(4, 0x1000000), (8, 0x80000), (1025, 0x100)], 0⟩,
   ⟨.PCI_FRY_UP_TAKE, 0x300800044, [(4, 0x1000000), (8, 0x80000), (1025, 0x100)], 0⟩,
   ⟨.PCI_FRY_DN_MSG, 0x300800080, [(4, 0x1000000), (8, 0x80000), (1025, 0x100), (16, 0x4)], 0⟩,
   ⟨.PCI_FRY_DN_CTL, 0x3008000c0, [(4, 0x1000000), (8, 0x80000), (1025, 0x100)], 0⟩,
   ⟨.PCI_FRY_REJ, 0x3008000c4, [(4, 0x1000000), (8, 0x80000), (1025, 0x100)], 0⟩,
   ⟨.PCI_EP_CFG, 0x300700000, [(4, 0x1000000), (8, 0x1000)], 0⟩,
   ⟨.PCI_EP_STAT, 0x300700004, [(4, 0x1000000), (8, 0x1000)], 0⟩,
   ⟨.PCI_FRY_NOTE, 0x300700008, [(4, 0x1000000), (8, 0x1000)], 0⟩,
   ⟨.PCI_FRY_PEND, 0x300700100, [(4, 0x1000000), (8, 0x1000), (33, 0x4)], 0⟩,
   ⟨.DMA_ACT, 0x100200000, [(8, 0x1000000), (8, 0x1000), (16, 0x80), (8, 0x4)], 0⟩,
   ⟨.DMA_SHD, 0x100200020, [(8, 0x1000000), (8, 0x1000), (16, 0x80), (8, 0x4)], 0⟩,
   ⟨.DMA_STAT, 0x100200040, [(8, 0x1000000), (8, 0x1000), (16, 0x80)], 0⟩,
   ⟨.DMA_CTL, 0x100200044, [(8, 0x1000000), (8, 0x1000), (16, 0x80)], 0⟩,
   ⟨.DMA_ERRS, 0x100200050, [(8, 0x1000000), (8, 0x1000), (16, 0x80)], 0⟩,
   ⟨.DMA_DESCS, 0x100200054, [(8, 0x1000000), (8, 0x1000), (16, 0x80)], 0⟩,
   ⟨.DMA_BYTES, 0x100200048, [(8, 0x1000000), (8, 0x1000), (16, 0x80)], 0⟩,
   ⟨.DMA_BYTES_HI, 0x10020004c, [(8, 0x1000000), (8, 0x1000), (16, 0x80)], 0⟩,
   ⟨.RNG_CTL, 0x300d00000, [(4, 0x1000000)], 0⟩]

/-- Part 7 of the address table. -/
def places7 : List Place :=
  [⟨.RNG_XLATE_FAIL, 0x300d00004, [(4, 0x1000000)], 0⟩,
   ⟨.RNG_FN_CTL, 0x300c00000, [(4, 0x1000000), (8, 0x20000), (1025, 0x40)], 0⟩,
   ⟨.RNG_FN_DBREJ, 0x300c00004, [(4, 0x1000000), (8, 0x20000), (1025, 0x40)], 0⟩,
   ⟨.RNG_FN_MALF, 0x300c00008, [(4, 0x1000000), (8, 0x20000), (1025, 0x40)], 0⟩,
   ⟨.RNG_FN_BUSERR, 0x300c0000c, [(4, 0x1000000), (8, 0x20000), (1025, 0x40)], 0⟩,
   ⟨.RNG_FN_QSEL, 0x300c00010, [(4, 0x1000000), (8, 0x20000), (1025, 0x40)], 0⟩,
   ⟨.RNG_FN_QVIEW0, 0x300c00014, [(4, 0x1000000), (8, 0x20000), (1025, 0x40)], 0⟩,
   ⟨.RNG_FN_QVIEW1, 0x300c00018, [(4, 0x1000000), (8, 0x20000), (1025, 0x40)], 0⟩,
   ⟨.RNG_FN_BW, 0x300c0001c, [(4, 0x1000000), (8, 0x20000), (1025, 0x40)], 0⟩,
   ⟨.RNG_FN_PPS, 0x300c00020, [(4, 0x1000000), (8, 0x20000), (1025, 0x40)], 0⟩,
   ⟨.RNG_FN_BURST, 0x300c00024, [(4, 0x1000000), (8, 0x20000), (1025, 0x40)], 0⟩,
   ⟨.RNG_FN_DBRATE, 0x300c00028, [(4, 0x1000000), (8, 0x20000), (1025, 0x40)], 0⟩,
   ⟨.RNG_FN_WEIGHT, 0x300c0002c, [(4, 0x1000000), (8, 0x20000), (1025, 0x40)], 0⟩,
   ⟨.RNG_FN_FRZ, 0x300c00030, [(4, 0x1000000), (8, 0x20000), (1025, 0x40)], 0⟩,
   ⟨.RNG_FN_IMGLEN, 0x300c00034, [(4, 0x1000000), (8, 0x20000), (1025, 0x40)], 0⟩,
   ⟨.RNG_FN_IMG, 0x300c00038, [(4, 0x1000000), (8, 0x20000), (1025, 0x40)], 0⟩,
   ⟨.RNG_FN_IMG_HI, 0x300c0003c, [(4, 0x1000000), (8, 0x20000), (1025, 0x40)], 0⟩,
   ⟨.INS_STAT, 0x300e00000, [(4, 0x1000000), (8, 0x20000), (1025, 0x40)], 0⟩,
   ⟨.INS_ID, 0x300e00004, [(4, 0x1000000), (8, 0x20000), (1025, 0x40)], 0⟩,
   ⟨.INS_DB_MERGE, 0x300e00010, [(4, 0x1000000), (8, 0x20000), (1025, 0x40)], 0⟩,
   ⟨.INS_ADM_DROPS, 0x300e00008, [(4, 0x1000000), (8, 0x20000), (1025, 0x40)], 0⟩,
   ⟨.INS_ADM_DROPS_HI, 0x300e0000c, [(4, 0x1000000), (8, 0x20000), (1025, 0x40)], 0⟩,
   ⟨.BRD_INS_W0, 0x100600000, [(8, 0x1000000), (32800, 0x8)], 0⟩,
   ⟨.BRD_INS_W1, 0x100600004, [(8, 0x1000000), (32800, 0x8)], 0⟩,
   ⟨.MAC_PORT_CFG, 0x300100000, [(4, 0x1000000), (64, 0x400)], 0⟩,
   ⟨.MAC_PORT_STAT, 0x300100004, [(4, 0x1000000), (64, 0x400)], 0⟩,
   ⟨.MAC_FC_CTL, 0x300100008, [(4, 0x1000000), (64, 0x400)], 0⟩,
   ⟨.MAC_PCP_MAP, 0x30010000c, [(4, 0x1000000), (64, 0x400)], 0⟩,
   ⟨.MAC_FC_THR, 0x300100010, [(4, 0x1000000), (64, 0x400)], 0⟩,
   ⟨.MAC_FC_HELD, 0x300100014, [(4, 0x1000000), (64, 0x400)], 0⟩,
   ⟨.MAC_EEE_CTL, 0x300100018, [(4, 0x1000000), (64, 0x400)], 0⟩,
   ⟨.MAC_PTP_CTL, 0x30010001c, [(4, 0x1000000), (64, 0x400)], 0⟩,
   ⟨.ATL_PTP_CTL, 0x30018001c, [(4, 0x1000000), (8, 0x400)], 0⟩,
   ⟨.MAC_TXTS_ID, 0x300100020, [(4, 0x1000000), (64, 0x400)], 0⟩,
   ⟨.ATL_TXTS_ID, 0x300180020, [(4, 0x1000000), (8, 0x400)], 0⟩,
   ⟨.MAC_TXTS_NS, 0x300100024, [(4, 0x1000000), (64, 0x400)], 0⟩,
   ⟨.ATL_TXTS_NS, 0x300180024, [(4, 0x1000000), (8, 0x400)], 0⟩,
   ⟨.MAC_TXTS_SEC, 0x300100028, [(4, 0x1000000), (64, 0x400)], 0⟩,
   ⟨.ATL_TXTS_SEC, 0x300180028, [(4, 0x1000000), (8, 0x400)], 0⟩,
   ⟨.MAC_TXTS_LOST, 0x30010002c, [(4, 0x1000000), (64, 0x400)], 0⟩]

/-- Part 8 of the address table. -/
def places8 : List Place :=
  [⟨.ATL_TXTS_LOST, 0x30018002c, [(4, 0x1000000), (8, 0x400)], 0⟩,
   ⟨.MAC_SLACK_CTL, 0x300100040, [(4, 0x1000000), (64, 0x400)], 0⟩,
   ⟨.ATL_SLACK_CTL, 0x300180040, [(4, 0x1000000), (8, 0x400)], 0⟩,
   ⟨.MAC_SLACK_STAT, 0x300100044, [(4, 0x1000000), (64, 0x400)], 0⟩,
   ⟨.ATL_SLACK_STAT, 0x300180044, [(4, 0x1000000), (8, 0x400)], 0⟩,
   ⟨.MAC_SLACK_MISS, 0x300100048, [(4, 0x1000000), (64, 0x400)], 0⟩,
   ⟨.ATL_SLACK_MISS, 0x300180048, [(4, 0x1000000), (8, 0x400)], 0⟩,
   ⟨.MAC_SLACK_WAKE, 0x30010004c, [(4, 0x1000000), (64, 0x400)], 0⟩,
   ⟨.ATL_SLACK_WAKE, 0x30018004c, [(4, 0x1000000), (8, 0x400)], 0⟩,
   ⟨.MAC_SLACK_SLEPT, 0x300100050, [(4, 0x1000000), (64, 0x400)], 0⟩,
   ⟨.ATL_SLACK_SLEPT, 0x300180050, [(4, 0x1000000), (8, 0x400)], 0⟩,
   ⟨.ATL_CFG, 0x300180000, [(4, 0x1000000), (8, 0x400)], 0⟩,
   ⟨.ATL_STAT, 0x300180004, [(4, 0x1000000), (8, 0x400)], 0⟩,
   ⟨.ATL_CRED, 0x300180008, [(4, 0x1000000), (8, 0x400)], 0⟩,
   ⟨.ATL_REQ, 0x30018000c, [(4, 0x1000000), (8, 0x400)], 0⟩,
   ⟨.ATL_HDR_BAD, 0x300180010, [(4, 0x1000000), (8, 0x400)], 0⟩,
   ⟨.ATL_CRED_VIOL, 0x300180014, [(4, 0x1000000), (8, 0x400)], 0⟩,
   ⟨.MAC_STAT, 0x300100100, [(4, 0x1000000), (64, 0x400), (17, 0x8)], 0⟩,
   ⟨.MAC_STAT_HI, 0x300100104, [(4, 0x1000000), (64, 0x400), (17, 0x8)], 0⟩,
   ⟨.ATL_STATS, 0x300180100, [(4, 0x1000000), (8, 0x400), (17, 0x8)], 0⟩,
   ⟨.ATL_STATS_HI, 0x300180104, [(4, 0x1000000), (8, 0x400), (17, 0x8)], 0⟩,
   ⟨.HDW_DISC_CMD, 0x70000, [], 0⟩,
   ⟨.HDW_DISC_STAT, 0x70004, [], 0⟩,
   ⟨.HDW_DISC_REJ, 0x70008, [], 0⟩,
   ⟨.HDW_DISC_W0, 0x70100, [(32, 0x8)], 0⟩,
   ⟨.HDW_DISC_W1, 0x70104, [(32, 0x8)], 0⟩,
   ⟨.HDW_LC_STAT, 0x80000, [], 0⟩,
   ⟨.HDW_LC_CHAL, 0x80004, [], 0⟩,
   ⟨.HDW_LC_CMD, 0x80040, [], 0⟩,
   ⟨.HDW_DBG_LEFT, 0x80044, [], 0⟩,
   ⟨.HDW_LC_NONCE, 0x80010, [(8, 0x4)], 0⟩,
   ⟨.HDW_LC_TOKEN, 0x80100, [(50, 0x4)], 0⟩,
   ⟨.HDW_VAULT_CMD, 0x81000, [], 0⟩,
   ⟨.HDW_VAULT_STAT, 0x81004, [], 0⟩,
   ⟨.HDW_VAULT_LEN, 0x81008, [], 0⟩,
   ⟨.HDW_VAULT_SEQ, 0x8100c, [], 0⟩,
   ⟨.HDW_VAULT_WEAR, 0x81010, [], 0⟩,
   ⟨.HDW_VAULT_COMMITS, 0x81014, [], 0⟩,
   ⟨.HDW_VAULT_BADCOPY, 0x81018, [], 0⟩,
   ⟨.HDW_PWR_CMD, 0x83000, [], 0⟩]

/-- Part 9 of the address table. -/
def places9 : List Place :=
  [⟨.HDW_PWR_STAT, 0x83004, [], 0⟩,
   ⟨.HDW_PWR_TEMP, 0x83008, [], 0⟩,
   ⟨.HDW_PWR_PFAIL, 0x8300c, [], 0⟩,
   ⟨.HDW_PWR_TRIMS, 0x83010, [], 0⟩,
   ⟨.HDW_VAULT_BUF, 0x82000, [(1008, 0x4)], 0⟩,
   ⟨.TRB_STAT, 0x90000, [(256, 0x200)], 0⟩,
   ⟨.TRB_STAT, 0x200700000, [(256, 0x200)], 256⟩,
   ⟨.TRB_STAT, 0x300f00000, [(4, 0x1000000), (256, 0x200)], 512⟩,
   ⟨.TRB_STAT, 0x100700000, [(8, 0x1000000), (256, 0x200)], 2048⟩,
   ⟨.TRB_IEN, 0x90004, [(256, 0x200)], 0⟩,
   ⟨.TRB_IEN, 0x200700004, [(256, 0x200)], 256⟩,
   ⟨.TRB_IEN, 0x300f00004, [(4, 0x1000000), (256, 0x200)], 512⟩,
   ⟨.TRB_IEN, 0x100700004, [(8, 0x1000000), (256, 0x200)], 2048⟩,
   ⟨.TRB_HIST, 0x90008, [(256, 0x200)], 0⟩,
   ⟨.TRB_HIST, 0x200700008, [(256, 0x200)], 256⟩,
   ⟨.TRB_HIST, 0x300f00008, [(4, 0x1000000), (256, 0x200)], 512⟩,
   ⟨.TRB_HIST, 0x100700008, [(8, 0x1000000), (256, 0x200)], 2048⟩,
   ⟨.TRB_INJ, 0x9000c, [(256, 0x200)], 0⟩,
   ⟨.TRB_INJ, 0x20070000c, [(256, 0x200)], 256⟩,
   ⟨.TRB_INJ, 0x300f0000c, [(4, 0x1000000), (256, 0x200)], 512⟩,
   ⟨.TRB_INJ, 0x10070000c, [(8, 0x1000000), (256, 0x200)], 2048⟩,
   ⟨.TRB_HENT, 0x90100, [(256, 0x200), (8, 0x20), (8, 0x4)], 0⟩,
   ⟨.TRB_HENT, 0x200700100, [(256, 0x200), (8, 0x20), (8, 0x4)], 16384⟩,
   ⟨.TRB_HENT, 0x300f00100, [(4, 0x1000000), (256, 0x200), (8, 0x20), (8, 0x4)], 32768⟩,
   ⟨.TRB_HENT, 0x100700100, [(8, 0x1000000), (256, 0x200), (8, 0x20), (8, 0x4)], 131072⟩,
   ⟨.LOG_CTL, 0xe0000, [], 0⟩,
   ⟨.LOG_WIDX, 0xe0004, [], 0⟩,
   ⟨.LOG_SEQ, 0xe0008, [], 0⟩,
   ⟨.LOG_LAP, 0xe000c, [], 0⟩,
   ⟨.LOG_DROP, 0xe0010, [], 0⟩,
   ⟨.HDW_COMPAT, 0xe0040, [], 0⟩,
   ⟨.CNT_CTL, 0xb0000, [(32, 0x20)], 0⟩,
   ⟨.CNT_CTL, 0x200720000, [(128, 0x20)], 128⟩,
   ⟨.CNT_CTL, 0x300f20000, [(64, 0x20)], 256⟩,
   ⟨.CNT_CTL, 0x301f20000, [(64, 0x20)], 384⟩,
   ⟨.CNT_CTL, 0x302f20000, [(64, 0x20)], 512⟩,
   ⟨.CNT_CTL, 0x303f20000, [(64, 0x20)], 640⟩,
   ⟨.CNT_CTL, 0x100720000, [(64, 0x20)], 1024⟩,
   ⟨.CNT_CTL, 0x101720000, [(64, 0x20)], 1152⟩,
   ⟨.CNT_CTL, 0x102720000, [(64, 0x20)], 1280⟩]

/-- Part 10 of the address table. -/
def places10 : List Place :=
  [⟨.CNT_CTL, 0x103720000, [(64, 0x20)], 1408⟩,
   ⟨.CNT_CTL, 0x104720000, [(64, 0x20)], 1536⟩,
   ⟨.CNT_CTL, 0x105720000, [(64, 0x20)], 1664⟩,
   ⟨.CNT_CTL, 0x106720000, [(64, 0x20)], 1792⟩,
   ⟨.CNT_CTL, 0x107720000, [(64, 0x20)], 1920⟩,
   ⟨.CNT_VAL, 0xb0008, [(32, 0x20)], 0⟩,
   ⟨.CNT_VAL, 0x200720008, [(128, 0x20)], 128⟩,
   ⟨.CNT_VAL, 0x300f20008, [(64, 0x20)], 256⟩,
   ⟨.CNT_VAL, 0x301f20008, [(64, 0x20)], 384⟩,
   ⟨.CNT_VAL, 0x302f20008, [(64, 0x20)], 512⟩,
   ⟨.CNT_VAL, 0x303f20008, [(64, 0x20)], 640⟩,
   ⟨.CNT_VAL, 0x100720008, [(64, 0x20)], 1024⟩,
   ⟨.CNT_VAL, 0x101720008, [(64, 0x20)], 1152⟩,
   ⟨.CNT_VAL, 0x102720008, [(64, 0x20)], 1280⟩,
   ⟨.CNT_VAL, 0x103720008, [(64, 0x20)], 1408⟩,
   ⟨.CNT_VAL, 0x104720008, [(64, 0x20)], 1536⟩,
   ⟨.CNT_VAL, 0x105720008, [(64, 0x20)], 1664⟩,
   ⟨.CNT_VAL, 0x106720008, [(64, 0x20)], 1792⟩,
   ⟨.CNT_VAL, 0x107720008, [(64, 0x20)], 1920⟩,
   ⟨.CNT_VAL_HI, 0xb000c, [(32, 0x20)], 0⟩,
   ⟨.CNT_VAL_HI, 0x20072000c, [(128, 0x20)], 128⟩,
   ⟨.CNT_VAL_HI, 0x300f2000c, [(64, 0x20)], 256⟩,
   ⟨.CNT_VAL_HI, 0x301f2000c, [(64, 0x20)], 384⟩,
   ⟨.CNT_VAL_HI, 0x302f2000c, [(64, 0x20)], 512⟩,
   ⟨.CNT_VAL_HI, 0x303f2000c, [(64, 0x20)], 640⟩,
   ⟨.CNT_VAL_HI, 0x10072000c, [(64, 0x20)], 1024⟩,
   ⟨.CNT_VAL_HI, 0x10172000c, [(64, 0x20)], 1152⟩,
   ⟨.CNT_VAL_HI, 0x10272000c, [(64, 0x20)], 1280⟩,
   ⟨.CNT_VAL_HI, 0x10372000c, [(64, 0x20)], 1408⟩,
   ⟨.CNT_VAL_HI, 0x10472000c, [(64, 0x20)], 1536⟩,
   ⟨.CNT_VAL_HI, 0x10572000c, [(64, 0x20)], 1664⟩,
   ⟨.CNT_VAL_HI, 0x10672000c, [(64, 0x20)], 1792⟩,
   ⟨.CNT_VAL_HI, 0x10772000c, [(64, 0x20)], 1920⟩,
   ⟨.CNT_SNAP, 0xb0010, [(32, 0x20)], 0⟩,
   ⟨.CNT_SNAP, 0x200720010, [(128, 0x20)], 128⟩,
   ⟨.CNT_SNAP, 0x300f20010, [(64, 0x20)], 256⟩,
   ⟨.CNT_SNAP, 0x301f20010, [(64, 0x20)], 384⟩,
   ⟨.CNT_SNAP, 0x302f20010, [(64, 0x20)], 512⟩,
   ⟨.CNT_SNAP, 0x303f20010, [(64, 0x20)], 640⟩,
   ⟨.CNT_SNAP, 0x100720010, [(64, 0x20)], 1024⟩]

/-- Part 11 of the address table. -/
def places11 : List Place :=
  [⟨.CNT_SNAP, 0x101720010, [(64, 0x20)], 1152⟩,
   ⟨.CNT_SNAP, 0x102720010, [(64, 0x20)], 1280⟩,
   ⟨.CNT_SNAP, 0x103720010, [(64, 0x20)], 1408⟩,
   ⟨.CNT_SNAP, 0x104720010, [(64, 0x20)], 1536⟩,
   ⟨.CNT_SNAP, 0x105720010, [(64, 0x20)], 1664⟩,
   ⟨.CNT_SNAP, 0x106720010, [(64, 0x20)], 1792⟩,
   ⟨.CNT_SNAP, 0x107720010, [(64, 0x20)], 1920⟩,
   ⟨.CNT_SNAP_HI, 0xb0014, [(32, 0x20)], 0⟩,
   ⟨.CNT_SNAP_HI, 0x200720014, [(128, 0x20)], 128⟩,
   ⟨.CNT_SNAP_HI, 0x300f20014, [(64, 0x20)], 256⟩,
   ⟨.CNT_SNAP_HI, 0x301f20014, [(64, 0x20)], 384⟩,
   ⟨.CNT_SNAP_HI, 0x302f20014, [(64, 0x20)], 512⟩,
   ⟨.CNT_SNAP_HI, 0x303f20014, [(64, 0x20)], 640⟩,
   ⟨.CNT_SNAP_HI, 0x100720014, [(64, 0x20)], 1024⟩,
   ⟨.CNT_SNAP_HI, 0x101720014, [(64, 0x20)], 1152⟩,
   ⟨.CNT_SNAP_HI, 0x102720014, [(64, 0x20)], 1280⟩,
   ⟨.CNT_SNAP_HI, 0x103720014, [(64, 0x20)], 1408⟩,
   ⟨.CNT_SNAP_HI, 0x104720014, [(64, 0x20)], 1536⟩,
   ⟨.CNT_SNAP_HI, 0x105720014, [(64, 0x20)], 1664⟩,
   ⟨.CNT_SNAP_HI, 0x106720014, [(64, 0x20)], 1792⟩,
   ⟨.CNT_SNAP_HI, 0x107720014, [(64, 0x20)], 1920⟩,
   ⟨.CNT_SNAP_CYC, 0xb1000, [], 0⟩,
   ⟨.CNT_SNAP_CYC, 0x200721000, [], 1⟩,
   ⟨.CNT_SNAP_CYC, 0x300f21000, [(4, 0x1000000)], 2⟩,
   ⟨.CNT_SNAP_CYC, 0x100721000, [(8, 0x1000000)], 8⟩,
   ⟨.HDW_BOOT_STAT, 0xc0000, [], 0⟩,
   ⟨.HDW_BOOT_MS, 0xc000c, [], 0⟩,
   ⟨.HDW_BOOT_WHY, 0xc0004, [], 0⟩,
   ⟨.HDW_BOOT_WHY_HI, 0xc0008, [], 0⟩,
   ⟨.HDW_FLASH_ADDR, 0xc1000, [], 0⟩,
   ⟨.HDW_FLASH_CMD, 0xc1004, [], 0⟩,
   ⟨.HDW_FLASH_STAT, 0xc1008, [], 0⟩,
   ⟨.HDW_FLASH_WIN, 0xc2000, [(64, 0x4)], 0⟩,
   ⟨.HDW_MC_WIN, 0x40000, [(4096, 0x4)], 0⟩,
   ⟨.LOG_ENT, 0x200000, [(65536, 0x20), (8, 0x4)], 0⟩]

/-- The address table (R25). -/
def places : List Place :=
  places0 ++ places1 ++ places2 ++ places3 ++ places4 ++ places5 ++ places6 ++ places7 ++ places8 ++ places9 ++ places10 ++ places11

/-- The index of the instance at offset `rem` inside the nested dimensions, if one starts there. -/
def dimIndex : List (Nat × Nat) → Nat → Nat → Option Nat
  | [], rem, acc => if rem = 0 then some acc else none
  | (c, st) :: ds, rem, acc =>
    if rem / st < c then dimIndex ds (rem % st) (acc * c + rem / st) else none

/-- The first register of a list of places that lies at an address. -/
def placeFind (addr : Nat) : List Place → Option (Reg × Nat)
  | [] => none
  | p :: ps =>
    if p.base ≤ addr then
      match dimIndex p.dims (addr - p.base) 0 with
      | some i => some (p.reg, p.off + i)
      | none => placeFind addr ps
    else placeFind addr ps

/-- The register word at a device address, with its index (R25); none where no chapter places a register. -/
def decodeAddr (addr : Nat) : Option (Reg × Nat) := placeFind addr places

/-- The default value of adaptive policy p (R46, R225, R232, R268, R312, R486, R525). -/
def polDefault (p : Nat) : Nat :=
  if p = 0 then 16 else if p = 1 then 20000 else if p < 10 then 24 else if p < 18 then 4
  else if p < 22 then 0 else if p < 310 then 8 else 1800

/-- The reset device address of PF1 aperture a (R398). -/
def apReset (a : Nat) : Nat :=
  if a = 0 then 0 else if a ≤ 8 then 0x0100000000 + (a - 1) * 0x01000000
  else if a ≤ 12 then 0x0300000000 + (a - 9) * 0x01000000
  else 0x0200000000 + (a - 13) * 0x01000000

/-- The word register r of unit index i holds after module cold reset (R13). -/
def resetAt (r : Reg) (i : Nat) : Word :=
  match r with
  | .BNK_STEER_TBL => BitVec.ofNat 32 (i % 8 + (i % 8) * 16)
  | .POL_MAN => BitVec.ofNat 32 (polDefault i)
  | .POL_CUR => BitVec.ofNat 32 (polDefault i)
  | .INS_ID => BitVec.ofNat 32 i
  | .TRB_INJ => (Config.injCap i).zeroExtend 32 <<< 8
  | .AP_BASE => BitVec.ofNat 32 (apReset (i % 16))
  | .AP_BASE_HI => BitVec.ofNat 32 (apReset (i % 16) / 0x100000000)
  | r => BitVec.ofNat 32 (resetConst r)

/-- The register of each number: the inverse of `Reg.ctorIdx`. -/
def regOfKey (k : Nat) : Reg := Reg.ofNat (k % 1024)

/-- The reset value by key: what `State.regs` holds for a register it does not list. -/
def regReset (k : Nat) : Word := resetAt (regOfKey k) (k / 1024)

/-- BNK_STEER_TBL.BOARD (R35). -/
def F.BNK_STEER_TBL.BOARD : Fld := ⟨.BNK_STEER_TBL, 2, 0⟩
/-- BNK_STEER_TBL.CUR_BOARD (R35). -/
def F.BNK_STEER_TBL.CUR_BOARD : Fld := ⟨.BNK_STEER_TBL, 6, 4⟩
/-- BNK_STEER_TBL.PENDING (R35). -/
def F.BNK_STEER_TBL.PENDING : Fld := ⟨.BNK_STEER_TBL, 16, 16⟩
/-- BNK_STEER_TBL.INFLIGHT (R35). -/
def F.BNK_STEER_TBL.INFLIGHT : Fld := ⟨.BNK_STEER_TBL, 31, 20⟩
/-- POL_CTL.MODE (R43). -/
def F.POL_CTL.MODE : Fld := ⟨.POL_CTL, 1, 0⟩
/-- POL_CTL.CHANGES (R43). -/
def F.POL_CTL.CHANGES : Fld := ⟨.POL_CTL, 15, 8⟩
/-- POL_CUR.VALUE (R45). -/
def F.POL_CUR.VALUE : Fld := ⟨.POL_CUR, 31, 0⟩
/-- TIME_CTL.PTP_EN (R90). -/
def F.TIME_CTL.PTP_EN : Fld := ⟨.TIME_CTL, 0, 0⟩
/-- TIME_CTL.PPS_EN (R90). -/
def F.TIME_CTL.PPS_EN : Fld := ⟨.TIME_CTL, 1, 1⟩
/-- TIME_CTL.REF10_EN (R90). -/
def F.TIME_CTL.REF10_EN : Fld := ⟨.TIME_CTL, 2, 2⟩
/-- TIME_CTL.PPS_OUT_EN (R90). -/
def F.TIME_CTL.PPS_OUT_EN : Fld := ⟨.TIME_CTL, 3, 3⟩
/-- TIME_STATUS.STATE (R91). -/
def F.TIME_STATUS.STATE : Fld := ⟨.TIME_STATUS, 1, 0⟩
/-- TIME_STATUS.PTP_OK (R91). -/
def F.TIME_STATUS.PTP_OK : Fld := ⟨.TIME_STATUS, 2, 2⟩
/-- TIME_STATUS.PPS_OK (R91). -/
def F.TIME_STATUS.PPS_OK : Fld := ⟨.TIME_STATUS, 3, 3⟩
/-- TIME_STATUS.REF10_OK (R91). -/
def F.TIME_STATUS.REF10_OK : Fld := ⟨.TIME_STATUS, 4, 4⟩
/-- TIME_STATUS.FREERUN (R91). -/
def F.TIME_STATUS.FREERUN : Fld := ⟨.TIME_STATUS, 5, 5⟩
/-- TIME_STATUS.STEPPED (R91). -/
def F.TIME_STATUS.STEPPED : Fld := ⟨.TIME_STATUS, 6, 6⟩
/-- TIME_STATUS.SET_REJ (R91). -/
def F.TIME_STATUS.SET_REJ : Fld := ⟨.TIME_STATUS, 7, 7⟩
/-- TIME_SET_SHI.SEC (R92). -/
def F.TIME_SET_SHI.SEC : Fld := ⟨.TIME_SET_SHI, 15, 0⟩
/-- TIME_STEPS.FWD (R92). -/
def F.TIME_STEPS.FWD : Fld := ⟨.TIME_STEPS, 15, 0⟩
/-- TIME_STEPS.BACK (R92). -/
def F.TIME_STEPS.BACK : Fld := ⟨.TIME_STEPS, 31, 16⟩
/-- TIME_HOLD_SEC.SEC (R92). -/
def F.TIME_HOLD_SEC.SEC : Fld := ⟨.TIME_HOLD_SEC, 31, 0⟩
/-- TTB_CTL.LOG2_LEN (R93). -/
def F.TTB_CTL.LOG2_LEN : Fld := ⟨.TTB_CTL, 8, 4⟩
/-- TTB_CTL.LEN_PEND (R93). -/
def F.TTB_CTL.LEN_PEND : Fld := ⟨.TTB_CTL, 9, 9⟩
/-- TTB_CTL.NEXT (R93). -/
def F.TTB_CTL.NEXT : Fld := ⟨.TTB_CTL, 14, 10⟩
/-- TTB_STATUS.WAITING (R93). -/
def F.TTB_STATUS.WAITING : Fld := ⟨.TTB_STATUS, 0, 0⟩
/-- TTB_SKIP.COUNT (R93). -/
def F.TTB_SKIP.COUNT : Fld := ⟨.TTB_SKIP, 31, 0⟩
/-- TTB_OVERRUN.COUNT (R93). -/
def F.TTB_OVERRUN.COUNT : Fld := ⟨.TTB_OVERRUN, 31, 0⟩
/-- TTB_FORD_DENY.COUNT (R93). -/
def F.TTB_FORD_DENY.COUNT : Fld := ⟨.TTB_FORD_DENY, 31, 0⟩
/-- TTB_ARG_IGN.COUNT (R93). -/
def F.TTB_ARG_IGN.COUNT : Fld := ⟨.TTB_ARG_IGN, 31, 0⟩
/-- TTB_SLOT_W0.VALID (R94). -/
def F.TTB_SLOT_W0.VALID : Fld := ⟨.TTB_SLOT_W0, 0, 0⟩
/-- TTB_SLOT_W0.ONCE (R94). -/
def F.TTB_SLOT_W0.ONCE : Fld := ⟨.TTB_SLOT_W0, 1, 1⟩
/-- TTB_SLOT_W0.FORD (R94). -/
def F.TTB_SLOT_W0.FORD : Fld := ⟨.TTB_SLOT_W0, 2, 2⟩
/-- TTB_SLOT_W0.DEFERRED (R94). -/
def F.TTB_SLOT_W0.DEFERRED : Fld := ⟨.TTB_SLOT_W0, 3, 3⟩
/-- TTB_SLOT_W0.CLASS (R94). -/
def F.TTB_SLOT_W0.CLASS : Fld := ⟨.TTB_SLOT_W0, 7, 4⟩
/-- TTB_SLOT_W0.DIV (R94). -/
def F.TTB_SLOT_W0.DIV : Fld := ⟨.TTB_SLOT_W0, 11, 8⟩
/-- TTB_SLOT_W0.PHASE (R94). -/
def F.TTB_SLOT_W0.PHASE : Fld := ⟨.TTB_SLOT_W0, 30, 16⟩
/-- TTB_SLOT_W1.TARGET (R94). -/
def F.TTB_SLOT_W1.TARGET : Fld := ⟨.TTB_SLOT_W1, 15, 0⟩
/-- TTB_SLOT_W1.LEN (R94). -/
def F.TTB_SLOT_W1.LEN : Fld := ⟨.TTB_SLOT_W1, 21, 16⟩
/-- TTB_SLOT_W1.ARG (R94). -/
def F.TTB_SLOT_W1.ARG : Fld := ⟨.TTB_SLOT_W1, 31, 22⟩
/-- BRD_STATUS.SSC_UE (R176). -/
def F.BRD_STATUS.SSC_UE : Fld := ⟨.BRD_STATUS, 1, 1⟩
/-- BRD_STATUS.CLU_OK (R176). -/
def F.BRD_STATUS.CLU_OK : Fld := ⟨.BRD_STATUS, 15, 8⟩
/-- BRD_STATUS.SUP_FAULT (R176). -/
def F.BRD_STATUS.SUP_FAULT : Fld := ⟨.BRD_STATUS, 23, 16⟩
/-- BRD_INT_EN.SSC_UE_EN (R177). -/
def F.BRD_INT_EN.SSC_UE_EN : Fld := ⟨.BRD_INT_EN, 1, 1⟩
/-- BRD_INT_EN.SUP_FAULT_EN (R177). -/
def F.BRD_INT_EN.SUP_FAULT_EN : Fld := ⟨.BRD_INT_EN, 23, 16⟩
/-- BRD_SSC_CTL.FLUSH (R177). -/
def F.BRD_SSC_CTL.FLUSH : Fld := ⟨.BRD_SSC_CTL, 0, 0⟩
/-- CLU_CTL.SLOTS (R178). -/
def F.CLU_CTL.SLOTS : Fld := ⟨.CLU_CTL, 3, 0⟩
/-- CLU_ENTRY.PC (R178). -/
def F.CLU_ENTRY.PC : Fld := ⟨.CLU_ENTRY, 19, 0⟩
/-- CLU_THREAD_PC.PC (R178). -/
def F.CLU_THREAD_PC.PC : Fld := ⟨.CLU_THREAD_PC, 19, 0⟩
/-- CLU_FAULT_LOST.COUNT (R178). -/
def F.CLU_FAULT_LOST.COUNT : Fld := ⟨.CLU_FAULT_LOST, 31, 0⟩
/-- CLU_CREDIT_CTL.SHARE (R178). -/
def F.CLU_CREDIT_CTL.SHARE : Fld := ⟨.CLU_CREDIT_CTL, 4, 0⟩
/-- CLU_CREDIT_CTL.POOL_EN (R178). -/
def F.CLU_CREDIT_CTL.POOL_EN : Fld := ⟨.CLU_CREDIT_CTL, 5, 5⟩
/-- CLU_CREDIT_CTL.CAP (R178). -/
def F.CLU_CREDIT_CTL.CAP : Fld := ⟨.CLU_CREDIT_CTL, 26, 16⟩
/-- CLU_CREDIT_STAT.POOL (R178). -/
def F.CLU_CREDIT_STAT.POOL : Fld := ⟨.CLU_CREDIT_STAT, 10, 0⟩
/-- CLU_CREDIT_STAT.INFLIGHT (R178). -/
def F.CLU_CREDIT_STAT.INFLIGHT : Fld := ⟨.CLU_CREDIT_STAT, 26, 16⟩
/-- CLU_BUF_CTL.COUNT (R178). -/
def F.CLU_BUF_CTL.COUNT : Fld := ⟨.CLU_BUF_CTL, 10, 0⟩
/-- CLU_BUF_CTL.SHARE (R178). -/
def F.CLU_BUF_CTL.SHARE : Fld := ⟨.CLU_BUF_CTL, 15, 11⟩
/-- CLU_BUF_CTL.POOL_EN (R178). -/
def F.CLU_BUF_CTL.POOL_EN : Fld := ⟨.CLU_BUF_CTL, 16, 16⟩
/-- CLU_BUF_CTL.CAP (R178). -/
def F.CLU_BUF_CTL.CAP : Fld := ⟨.CLU_BUF_CTL, 27, 17⟩
/-- CLU_BUF_STAT.POOL (R178). -/
def F.CLU_BUF_STAT.POOL : Fld := ⟨.CLU_BUF_STAT, 10, 0⟩
/-- CLU_BUF_STAT.ALLOCATED (R178). -/
def F.CLU_BUF_STAT.ALLOCATED : Fld := ⟨.CLU_BUF_STAT, 26, 16⟩
/-- CLU_BUF_ERR.COUNT (R178). -/
def F.CLU_BUF_ERR.COUNT : Fld := ⟨.CLU_BUF_ERR, 31, 0⟩
/-- HBM_HOME_STATUS.PRIO (R180). -/
def F.HBM_HOME_STATUS.PRIO : Fld := ⟨.HBM_HOME_STATUS, 14, 12⟩
/-- HBM_HOME_STATUS.POISON (R180). -/
def F.HBM_HOME_STATUS.POISON : Fld := ⟨.HBM_HOME_STATUS, 16, 16⟩
/-- HBM_HOME_TIES.COUNT (R180). -/
def F.HBM_HOME_TIES.COUNT : Fld := ⟨.HBM_HOME_TIES, 31, 0⟩
/-- HBM_HOME_POISONED.COUNT (R180). -/
def F.HBM_HOME_POISONED.COUNT : Fld := ⟨.HBM_HOME_POISONED, 31, 0⟩
/-- MCODE_VERSION.PATCH_ID (R204). -/
def F.MCODE_VERSION.PATCH_ID : Fld := ⟨.MCODE_VERSION, 31, 0⟩
/-- MCODE_VERSION_HI.PATCH (R204). -/
def F.MCODE_VERSION_HI.PATCH : Fld := ⟨.MCODE_VERSION_HI, 15, 0⟩
/-- MCODE_VERSION_HI.MINOR (R204). -/
def F.MCODE_VERSION_HI.MINOR : Fld := ⟨.MCODE_VERSION_HI, 23, 16⟩
/-- MCODE_VERSION_HI.MAJOR (R204). -/
def F.MCODE_VERSION_HI.MAJOR : Fld := ⟨.MCODE_VERSION_HI, 31, 24⟩
/-- MCODE_STATUS.STATE (R205). -/
def F.MCODE_STATUS.STATE : Fld := ⟨.MCODE_STATUS, 1, 0⟩
/-- MCODE_FIX.COUNT (R205). -/
def F.MCODE_FIX.COUNT : Fld := ⟨.MCODE_FIX, 31, 0⟩
/-- MCODE_BACKOUT.COUNT (R205). -/
def F.MCODE_BACKOUT.COUNT : Fld := ⟨.MCODE_BACKOUT, 31, 0⟩
/-- HDW_MC_STATUS.STATE (R206). -/
def F.HDW_MC_STATUS.STATE : Fld := ⟨.HDW_MC_STATUS, 2, 0⟩
/-- HDW_MC_STATUS.RESULT (R206). -/
def F.HDW_MC_STATUS.RESULT : Fld := ⟨.HDW_MC_STATUS, 7, 4⟩
/-- HDW_MC_STATUS.TRIED (R206). -/
def F.HDW_MC_STATUS.TRIED : Fld := ⟨.HDW_MC_STATUS, 14, 8⟩
/-- HDW_MC_STATUS.BUSY_REJ (R206). -/
def F.HDW_MC_STATUS.BUSY_REJ : Fld := ⟨.HDW_MC_STATUS, 15, 15⟩
/-- HDW_MC_LEN.BYTES (R206). -/
def F.HDW_MC_LEN.BYTES : Fld := ⟨.HDW_MC_LEN, 14, 0⟩
/-- BRD_DICE_TDEF_W0.VALID (R214). -/
def F.BRD_DICE_TDEF_W0.VALID : Fld := ⟨.BRD_DICE_TDEF_W0, 0, 0⟩
/-- BRD_DICE_TDEF_W0.LEARN (R214). -/
def F.BRD_DICE_TDEF_W0.LEARN : Fld := ⟨.BRD_DICE_TDEF_W0, 1, 1⟩
/-- BRD_DICE_TDEF_W0.AUDIT (R214). -/
def F.BRD_DICE_TDEF_W0.AUDIT : Fld := ⟨.BRD_DICE_TDEF_W0, 2, 2⟩
/-- BRD_DICE_TDEF_W0.AEPOCH (R214). -/
def F.BRD_DICE_TDEF_W0.AEPOCH : Fld := ⟨.BRD_DICE_TDEF_W0, 3, 3⟩
/-- BRD_DICE_TDEF_W0.KLEN (R214). -/
def F.BRD_DICE_TDEF_W0.KLEN : Fld := ⟨.BRD_DICE_TDEF_W0, 8, 4⟩
/-- BRD_DICE_TDEF_W0.VLEN (R214). -/
def F.BRD_DICE_TDEF_W0.VLEN : Fld := ⟨.BRD_DICE_TDEF_W0, 13, 9⟩
/-- BRD_DICE_TDEF_W0.PARTS (R214). -/
def F.BRD_DICE_TDEF_W0.PARTS : Fld := ⟨.BRD_DICE_TDEF_W0, 23, 16⟩
/-- BRD_DICE_TDEF_W1.LIMIT (R214). -/
def F.BRD_DICE_TDEF_W1.LIMIT : Fld := ⟨.BRD_DICE_TDEF_W1, 22, 0⟩
/-- BRD_DICE_TDEF_W2.COUNT (R214). -/
def F.BRD_DICE_TDEF_W2.COUNT : Fld := ⟨.BRD_DICE_TDEF_W2, 22, 0⟩
/-- BRD_DICE_TDEF_W3.CHANGES (R214). -/
def F.BRD_DICE_TDEF_W3.CHANGES : Fld := ⟨.BRD_DICE_TDEF_W3, 31, 0⟩
/-- BNK_PARSE_UDP.VXLAN (R248). -/
def F.BNK_PARSE_UDP.VXLAN : Fld := ⟨.BNK_PARSE_UDP, 15, 0⟩
/-- BNK_PARSE_UDP.GENEVE (R248). -/
def F.BNK_PARSE_UDP.GENEVE : Fld := ⟨.BNK_PARSE_UDP, 31, 16⟩
/-- BNK_PARSE_APP.ROCE (R248). -/
def F.BNK_PARSE_APP.ROCE : Fld := ⟨.BNK_PARSE_APP, 15, 0⟩
/-- BNK_PARSE_APP.NVME (R248). -/
def F.BNK_PARSE_APP.NVME : Fld := ⟨.BNK_PARSE_APP, 31, 16⟩
/-- BNK_LEARN_CTL.EN (R248). -/
def F.BNK_LEARN_CTL.EN : Fld := ⟨.BNK_LEARN_CTL, 0, 0⟩
/-- BNK_LEARN_CTL.TABLE (R248). -/
def F.BNK_LEARN_CTL.TABLE : Fld := ⟨.BNK_LEARN_CTL, 15, 4⟩
/-- BNK_INTAKE_DROP.COUNT (R248). -/
def F.BNK_INTAKE_DROP.COUNT : Fld := ⟨.BNK_INTAKE_DROP, 31, 0⟩
/-- BNK_INTAKE_SIDE.HELD (R248). -/
def F.BNK_INTAKE_SIDE.HELD : Fld := ⟨.BNK_INTAKE_SIDE, 6, 0⟩
/-- BRD_DICE_STAT.USED (R249). -/
def F.BRD_DICE_STAT.USED : Fld := ⟨.BRD_DICE_STAT, 19, 0⟩
/-- BRD_DICE_STAT.PARKED (R249). -/
def F.BRD_DICE_STAT.PARKED : Fld := ⟨.BRD_DICE_STAT, 22, 20⟩
/-- BRD_DICE_STAT.TDEF_REJ (R249). -/
def F.BRD_DICE_STAT.TDEF_REJ : Fld := ⟨.BRD_DICE_STAT, 24, 24⟩
/-- BRD_DICE_FULL.COUNT (R249). -/
def F.BRD_DICE_FULL.COUNT : Fld := ⟨.BRD_DICE_FULL, 31, 0⟩
/-- BRD_DICE_MAXHITS.HITS (R249). -/
def F.BRD_DICE_MAXHITS.HITS : Fld := ⟨.BRD_DICE_MAXHITS, 6, 0⟩
/-- BRD_DICE_AGED.COUNT (R249). -/
def F.BRD_DICE_AGED.COUNT : Fld := ⟨.BRD_DICE_AGED, 31, 0⟩
/-- BRD_DICE_LEARN_FAIL.COUNT (R249). -/
def F.BRD_DICE_LEARN_FAIL.COUNT : Fld := ⟨.BRD_DICE_LEARN_FAIL, 31, 0⟩
/-- BRD_DICE_LEARN_MOVE.COUNT (R249). -/
def F.BRD_DICE_LEARN_MOVE.COUNT : Fld := ⟨.BRD_DICE_LEARN_MOVE, 31, 0⟩
/-- BRD_DICE_CURSOR.BUCKET (R249). -/
def F.BRD_DICE_CURSOR.BUCKET : Fld := ⟨.BRD_DICE_CURSOR, 16, 0⟩
/-- BRD_FLOW_CTL.EN (R249). -/
def F.BRD_FLOW_CTL.EN : Fld := ⟨.BRD_FLOW_CTL, 0, 0⟩
/-- BRD_FLOW_CTL.READY (R249). -/
def F.BRD_FLOW_CTL.READY : Fld := ⟨.BRD_FLOW_CTL, 1, 1⟩
/-- BRD_FLOW_CTL.ANY_EN (R249). -/
def F.BRD_FLOW_CTL.ANY_EN : Fld := ⟨.BRD_FLOW_CTL, 2, 2⟩
/-- BRD_FLOW_FULL.COUNT (R249). -/
def F.BRD_FLOW_FULL.COUNT : Fld := ⟨.BRD_FLOW_FULL, 31, 0⟩
/-- BRD_FLOW_EXPIRED.COUNT (R249). -/
def F.BRD_FLOW_EXPIRED.COUNT : Fld := ⟨.BRD_FLOW_EXPIRED, 31, 0⟩
/-- DICE_CMD_STAT.BUSY (R250). -/
def F.DICE_CMD_STAT.BUSY : Fld := ⟨.DICE_CMD_STAT, 0, 0⟩
/-- DICE_CMD_STAT.REJ (R250). -/
def F.DICE_CMD_STAT.REJ : Fld := ⟨.DICE_CMD_STAT, 1, 1⟩
/-- DICE_CMD_STAT.ISSTATIC (R250). -/
def F.DICE_CMD_STAT.ISSTATIC : Fld := ⟨.DICE_CMD_STAT, 2, 2⟩
/-- DICE_CMD_STAT.STATUS (R250). -/
def F.DICE_CMD_STAT.STATUS : Fld := ⟨.DICE_CMD_STAT, 7, 4⟩
/-- DICE_CMD_STAT.OWNER (R250). -/
def F.DICE_CMD_STAT.OWNER : Fld := ⟨.DICE_CMD_STAT, 31, 16⟩
/-- BNK_SND_CTL.EN (R251). -/
def F.BNK_SND_CTL.EN : Fld := ⟨.BNK_SND_CTL, 0, 0⟩
/-- BNK_SND_CTL.REPAIR (R251). -/
def F.BNK_SND_CTL.REPAIR : Fld := ⟨.BNK_SND_CTL, 1, 1⟩
/-- BNK_SND_CTL.ENDPOINT (R251). -/
def F.BNK_SND_CTL.ENDPOINT : Fld := ⟨.BNK_SND_CTL, 12, 8⟩
/-- BNK_SND_STAT.BUSY (R251). -/
def F.BNK_SND_STAT.BUSY : Fld := ⟨.BNK_SND_STAT, 0, 0⟩
/-- BNK_SND_STAT.BADSHADOW (R251). -/
def F.BNK_SND_STAT.BADSHADOW : Fld := ⟨.BNK_SND_STAT, 1, 1⟩
/-- BNK_SND_STAT.TABLE (R251). -/
def F.BNK_SND_STAT.TABLE : Fld := ⟨.BNK_SND_STAT, 27, 16⟩
/-- BNK_SND_MISSING.COUNT (R251). -/
def F.BNK_SND_MISSING.COUNT : Fld := ⟨.BNK_SND_MISSING, 31, 0⟩
/-- BNK_SND_DIFFERENT.COUNT (R251). -/
def F.BNK_SND_DIFFERENT.COUNT : Fld := ⟨.BNK_SND_DIFFERENT, 31, 0⟩
/-- BNK_SND_EXTRA.COUNT (R251). -/
def F.BNK_SND_EXTRA.COUNT : Fld := ⟨.BNK_SND_EXTRA, 31, 0⟩
/-- BNK_SND_REPAIRED.COUNT (R251). -/
def F.BNK_SND_REPAIRED.COUNT : Fld := ⟨.BNK_SND_REPAIRED, 31, 0⟩
/-- BNK_SND_REPAIR_FAIL.COUNT (R251). -/
def F.BNK_SND_REPAIR_FAIL.COUNT : Fld := ⟨.BNK_SND_REPAIR_FAIL, 31, 0⟩
/-- BNK_SND_DISCARDED.COUNT (R251). -/
def F.BNK_SND_DISCARDED.COUNT : Fld := ⟨.BNK_SND_DISCARDED, 31, 0⟩
/-- BNK_SND_LAST.TABLE (R251). -/
def F.BNK_SND_LAST.TABLE : Fld := ⟨.BNK_SND_LAST, 11, 0⟩
/-- DLT_CMD_RES.RESULT (R252). -/
def F.DLT_CMD_RES.RESULT : Fld := ⟨.DLT_CMD_RES, 27, 0⟩
/-- DLT_CMD_STAT.BUSY (R252). -/
def F.DLT_CMD_STAT.BUSY : Fld := ⟨.DLT_CMD_STAT, 0, 0⟩
/-- DLT_CMD_STAT.REJ (R252). -/
def F.DLT_CMD_STAT.REJ : Fld := ⟨.DLT_CMD_STAT, 1, 1⟩
/-- DLT_CMD_STAT.STATUS (R252). -/
def F.DLT_CMD_STAT.STATUS : Fld := ⟨.DLT_CMD_STAT, 7, 4⟩
/-- DLT_V4_COUNT.COUNT (R252). -/
def F.DLT_V4_COUNT.COUNT : Fld := ⟨.DLT_V4_COUNT, 21, 0⟩
/-- DLT_V6_COUNT.COUNT (R252). -/
def F.DLT_V6_COUNT.COUNT : Fld := ⟨.DLT_V6_COUNT, 21, 0⟩
/-- CFL_BOOK_FREE.CELLS (R281). -/
def F.CFL_BOOK_FREE.CELLS : Fld := ⟨.CFL_BOOK_FREE, 20, 0⟩
/-- CFL_BOOK_QUEUED.CELLS (R281). -/
def F.CFL_BOOK_QUEUED.CELLS : Fld := ⟨.CFL_BOOK_QUEUED, 20, 0⟩
/-- CFL_BOOK_PIPE.CELLS (R281). -/
def F.CFL_BOOK_PIPE.CELLS : Fld := ⟨.CFL_BOOK_PIPE, 20, 0⟩
/-- CFL_BOOK_RECLAIM.CELLS (R281). -/
def F.CFL_BOOK_RECLAIM.CELLS : Fld := ⟨.CFL_BOOK_RECLAIM, 20, 0⟩
/-- CFL_BOOK_SPILLING.CELLS (R281). -/
def F.CFL_BOOK_SPILLING.CELLS : Fld := ⟨.CFL_BOOK_SPILLING, 20, 0⟩
/-- CFL_CELL_FLOOR.CELLS (R281). -/
def F.CFL_CELL_FLOOR.CELLS : Fld := ⟨.CFL_CELL_FLOOR, 15, 0⟩
/-- CFL_HEADROOM.BYTES (R281). -/
def F.CFL_HEADROOM.BYTES : Fld := ⟨.CFL_HEADROOM, 10, 0⟩
/-- CFL_SEQ_TMO.US (R281). -/
def F.CFL_SEQ_TMO.US : Fld := ⟨.CFL_SEQ_TMO, 16, 0⟩
/-- CFL_SEQ_SKIP.COUNT (R281). -/
def F.CFL_SEQ_SKIP.COUNT : Fld := ⟨.CFL_SEQ_SKIP, 31, 0⟩
/-- CFL_SEQ_LATE.COUNT (R281). -/
def F.CFL_SEQ_LATE.COUNT : Fld := ⟨.CFL_SEQ_LATE, 31, 0⟩
/-- CFL_ALLOC_FAIL.COUNT (R281). -/
def F.CFL_ALLOC_FAIL.COUNT : Fld := ⟨.CFL_ALLOC_FAIL, 31, 0⟩
/-- CFL_FENCE_RECLAIM.COUNT (R281). -/
def F.CFL_FENCE_RECLAIM.COUNT : Fld := ⟨.CFL_FENCE_RECLAIM, 31, 0⟩
/-- CFL_SPILL_CTL.EN (R281). -/
def F.CFL_SPILL_CTL.EN : Fld := ⟨.CFL_SPILL_CTL, 0, 0⟩
/-- CFL_SPILL_CTL.MINCLASS (R281). -/
def F.CFL_SPILL_CTL.MINCLASS : Fld := ⟨.CFL_SPILL_CTL, 3, 1⟩
/-- CFL_SPILL_CTL.LOW (R281). -/
def F.CFL_SPILL_CTL.LOW : Fld := ⟨.CFL_SPILL_CTL, 31, 4⟩
/-- CFL_SPILL_FRAMES.COUNT (R281). -/
def F.CFL_SPILL_FRAMES.COUNT : Fld := ⟨.CFL_SPILL_FRAMES, 31, 0⟩
/-- CFL_SPILL_CELLS.COUNT (R281). -/
def F.CFL_SPILL_CELLS.COUNT : Fld := ⟨.CFL_SPILL_CELLS, 31, 0⟩
/-- CFL_SPILL_FAIL.COUNT (R281). -/
def F.CFL_SPILL_FAIL.COUNT : Fld := ⟨.CFL_SPILL_FAIL, 31, 0⟩
/-- CFL_SPILL_UNLISTED.COUNT (R281). -/
def F.CFL_SPILL_UNLISTED.COUNT : Fld := ⟨.CFL_SPILL_UNLISTED, 31, 0⟩
/-- CFL_MC_SYNC.DONE (R281). -/
def F.CFL_MC_SYNC.DONE : Fld := ⟨.CFL_MC_SYNC, 0, 0⟩
/-- CFL_MC_EMPTY.COUNT (R281). -/
def F.CFL_MC_EMPTY.COUNT : Fld := ⟨.CFL_MC_EMPTY, 31, 0⟩
/-- CFL_MC_REJ.COUNT (R281). -/
def F.CFL_MC_REJ.COUNT : Fld := ⟨.CFL_MC_REJ, 31, 0⟩
/-- CFL_PROF_W0.ALPHA_G (R282). -/
def F.CFL_PROF_W0.ALPHA_G : Fld := ⟨.CFL_PROF_W0, 7, 0⟩
/-- CFL_PROF_W0.ALPHA_Y (R282). -/
def F.CFL_PROF_W0.ALPHA_Y : Fld := ⟨.CFL_PROF_W0, 15, 8⟩
/-- CFL_PROF_W0.ALPHA_R (R282). -/
def F.CFL_PROF_W0.ALPHA_R : Fld := ⟨.CFL_PROF_W0, 23, 16⟩
/-- CFL_PROF_W1.MIN (R282). -/
def F.CFL_PROF_W1.MIN : Fld := ⟨.CFL_PROF_W1, 15, 0⟩
/-- CFL_PROF_W1.SPILL_MIN (R282). -/
def F.CFL_PROF_W1.SPILL_MIN : Fld := ⟨.CFL_PROF_W1, 31, 16⟩
/-- CFL_PROF_W2.MAXDEPTH (R282). -/
def F.CFL_PROF_W2.MAXDEPTH : Fld := ⟨.CFL_PROF_W2, 20, 0⟩
/-- CFL_PROF_W3.DROPS (R282). -/
def F.CFL_PROF_W3.DROPS : Fld := ⟨.CFL_PROF_W3, 31, 0⟩
/-- CFL_QADM.PROFILE (R283). -/
def F.CFL_QADM.PROFILE : Fld := ⟨.CFL_QADM, 3, 0⟩
/-- CFL_QADM.CLASS (R283). -/
def F.CFL_QADM.CLASS : Fld := ⟨.CFL_QADM, 6, 4⟩
/-- CFL_QADM.SPILL_OK (R283). -/
def F.CFL_QADM.SPILL_OK : Fld := ⟨.CFL_QADM, 7, 7⟩
/-- CFL_QADM.INSTANCE (R283). -/
def F.CFL_QADM.INSTANCE : Fld := ⟨.CFL_QADM, 31, 16⟩
/-- CFL_QDEPTH.CELLS (R283). -/
def F.CFL_QDEPTH.CELLS : Fld := ⟨.CFL_QDEPTH, 20, 0⟩
/-- CFL_MC_GRP_W0.BASE (R284). -/
def F.CFL_MC_GRP_W0.BASE : Fld := ⟨.CFL_MC_GRP_W0, 19, 0⟩
/-- CFL_MC_GRP_W0.VALID (R284). -/
def F.CFL_MC_GRP_W0.VALID : Fld := ⟨.CFL_MC_GRP_W0, 31, 31⟩
/-- CFL_MC_GRP_W1.COUNT (R284). -/
def F.CFL_MC_GRP_W1.COUNT : Fld := ⟨.CFL_MC_GRP_W1, 10, 0⟩
/-- CFL_MC_LIST_W0.QUEUE (R273). -/
def F.CFL_MC_LIST_W0.QUEUE : Fld := ⟨.CFL_MC_LIST_W0, 19, 0⟩
/-- CFL_MC_LIST_W0.PREP (R273). -/
def F.CFL_MC_LIST_W0.PREP : Fld := ⟨.CFL_MC_LIST_W0, 31, 20⟩
/-- CFL_MC_LIST_W1.INPUT (R273). -/
def F.CFL_MC_LIST_W1.INPUT : Fld := ⟨.CFL_MC_LIST_W1, 15, 0⟩
/-- CFL_MC_LIST_W1.KIND (R273). -/
def F.CFL_MC_LIST_W1.KIND : Fld := ⟨.CFL_MC_LIST_W1, 17, 16⟩
/-- CFL_MC_LIST_W1.PRUNE (R273). -/
def F.CFL_MC_LIST_W1.PRUNE : Fld := ⟨.CFL_MC_LIST_W1, 18, 18⟩
/-- EDY_SES_CTL.EN (R285). -/
def F.EDY_SES_CTL.EN : Fld := ⟨.EDY_SES_CTL, 0, 0⟩
/-- EDY_SES_CTL.MODE (R285). -/
def F.EDY_SES_CTL.MODE : Fld := ⟨.EDY_SES_CTL, 1, 1⟩
/-- EDY_SES_CTL.DROPS (R285). -/
def F.EDY_SES_CTL.DROPS : Fld := ⟨.EDY_SES_CTL, 2, 2⟩
/-- EDY_SES_CTL.TRUNC (R285). -/
def F.EDY_SES_CTL.TRUNC : Fld := ⟨.EDY_SES_CTL, 23, 16⟩
/-- EDY_SES_QUEUE.QUEUE (R285). -/
def F.EDY_SES_QUEUE.QUEUE : Fld := ⟨.EDY_SES_QUEUE, 19, 0⟩
/-- EDY_SES_QUEUE.PREP (R285). -/
def F.EDY_SES_QUEUE.PREP : Fld := ⟨.EDY_SES_QUEUE, 31, 20⟩
/-- EDY_SES_SAMPLE.SAMPLE (R285). -/
def F.EDY_SES_SAMPLE.SAMPLE : Fld := ⟨.EDY_SES_SAMPLE, 15, 0⟩
/-- EDY_SES_COPIES.COUNT (R285). -/
def F.EDY_SES_COPIES.COUNT : Fld := ⟨.EDY_SES_COPIES, 31, 0⟩
/-- EDY_SES_DROPS.COUNT (R285). -/
def F.EDY_SES_DROPS.COUNT : Fld := ⟨.EDY_SES_DROPS, 31, 0⟩
/-- EDY_SRC.ING_EN (R285). -/
def F.EDY_SRC.ING_EN : Fld := ⟨.EDY_SRC, 0, 0⟩
/-- EDY_SRC.ING_SESSION (R285). -/
def F.EDY_SRC.ING_SESSION : Fld := ⟨.EDY_SRC, 6, 1⟩
/-- EDY_SRC.EGR_EN (R285). -/
def F.EDY_SRC.EGR_EN : Fld := ⟨.EDY_SRC, 7, 7⟩
/-- EDY_SRC.EGR_SESSION (R285). -/
def F.EDY_SRC.EGR_SESSION : Fld := ⟨.EDY_SRC, 13, 8⟩
/-- SCH_ECN_MARKS.COUNT (R316). -/
def F.SCH_ECN_MARKS.COUNT : Fld := ⟨.SCH_ECN_MARKS, 31, 0⟩
/-- SCH_CFG_REJ.COUNT (R316). -/
def F.SCH_CFG_REJ.COUNT : Fld := ⟨.SCH_CFG_REJ, 31, 0⟩
/-- SCH_Q_W0.PARENT (R317). -/
def F.SCH_Q_W0.PARENT : Fld := ⟨.SCH_Q_W0, 15, 0⟩
/-- SCH_Q_W0.BAND (R317). -/
def F.SCH_Q_W0.BAND : Fld := ⟨.SCH_Q_W0, 18, 16⟩
/-- SCH_Q_W0.EN (R317). -/
def F.SCH_Q_W0.EN : Fld := ⟨.SCH_Q_W0, 19, 19⟩
/-- SCH_Q_W0.ECN_EN (R317). -/
def F.SCH_Q_W0.ECN_EN : Fld := ⟨.SCH_Q_W0, 20, 20⟩
/-- SCH_Q_W0.PEND (R317). -/
def F.SCH_Q_W0.PEND : Fld := ⟨.SCH_Q_W0, 21, 21⟩
/-- SCH_Q_W1.WEIGHT (R317). -/
def F.SCH_Q_W1.WEIGHT : Fld := ⟨.SCH_Q_W1, 15, 0⟩
/-- SCH_N_CFG.PARENT (R318). -/
def F.SCH_N_CFG.PARENT : Fld := ⟨.SCH_N_CFG, 11, 0⟩
/-- SCH_N_CFG.BAND (R318). -/
def F.SCH_N_CFG.BAND : Fld := ⟨.SCH_N_CFG, 14, 12⟩
/-- SCH_N_CFG.EN (R318). -/
def F.SCH_N_CFG.EN : Fld := ⟨.SCH_N_CFG, 15, 15⟩
/-- SCH_N_CFG.WEIGHT (R318). -/
def F.SCH_N_CFG.WEIGHT : Fld := ⟨.SCH_N_CFG, 31, 16⟩
/-- SCH_N_CBS.BYTES (R318). -/
def F.SCH_N_CBS.BYTES : Fld := ⟨.SCH_N_CBS, 23, 0⟩
/-- SCH_N_CBS.SHAPE (R318). -/
def F.SCH_N_CBS.SHAPE : Fld := ⟨.SCH_N_CBS, 31, 31⟩
/-- SCH_N_PBS.BYTES (R318). -/
def F.SCH_N_PBS.BYTES : Fld := ⟨.SCH_N_PBS, 23, 0⟩
/-- SCH_N_PBS.ADJ (R318). -/
def F.SCH_N_PBS.ADJ : Fld := ⟨.SCH_N_PBS, 31, 24⟩
/-- SCH_N_STAT.PEND (R318). -/
def F.SCH_N_STAT.PEND : Fld := ⟨.SCH_N_STAT, 3, 3⟩
/-- SCH_P_CFG.EN (R319). -/
def F.SCH_P_CFG.EN : Fld := ⟨.SCH_P_CFG, 0, 0⟩
/-- SCH_P_STAT.GATES (R319). -/
def F.SCH_P_STAT.GATES : Fld := ⟨.SCH_P_STAT, 15, 8⟩
/-- SCH_POL_CBS.BYTES (R320). -/
def F.SCH_POL_CBS.BYTES : Fld := ⟨.SCH_POL_CBS, 23, 0⟩
/-- SCH_POL_PBS.BYTES (R320). -/
def F.SCH_POL_PBS.BYTES : Fld := ⟨.SCH_POL_PBS, 23, 0⟩
/-- SCH_POL_YELLOW.COUNT (R320). -/
def F.SCH_POL_YELLOW.COUNT : Fld := ⟨.SCH_POL_YELLOW, 31, 0⟩
/-- SCH_POL_RED.COUNT (R320). -/
def F.SCH_POL_RED.COUNT : Fld := ⟨.SCH_POL_RED, 31, 0⟩
/-- GATE_CTL.EN (R321). -/
def F.GATE_CTL.EN : Fld := ⟨.GATE_CTL, 0, 0⟩
/-- GATE_CTL.PEND (R321). -/
def F.GATE_CTL.PEND : Fld := ⟨.GATE_CTL, 2, 2⟩
/-- GATE_CTL.OPER (R321). -/
def F.GATE_CTL.OPER : Fld := ⟨.GATE_CTL, 3, 3⟩
/-- GATE_BASE_SHI.SEC (R321). -/
def F.GATE_BASE_SHI.SEC : Fld := ⟨.GATE_BASE_SHI, 15, 0⟩
/-- GATE_CYCLE.NS (R321). -/
def F.GATE_CYCLE.NS : Fld := ⟨.GATE_CYCLE, 29, 0⟩
/-- GATE_EXT.NS (R321). -/
def F.GATE_EXT.NS : Fld := ⟨.GATE_EXT, 29, 0⟩
/-- GATE_LEN.COUNT (R321). -/
def F.GATE_LEN.COUNT : Fld := ⟨.GATE_LEN, 10, 0⟩
/-- GATE_POS.ENTRY (R321). -/
def F.GATE_POS.ENTRY : Fld := ⟨.GATE_POS, 9, 0⟩
/-- GATE_CHANGES.COUNT (R321). -/
def F.GATE_CHANGES.COUNT : Fld := ⟨.GATE_CHANGES, 31, 0⟩
/-- GATE_REJ.COUNT (R321). -/
def F.GATE_REJ.COUNT : Fld := ⟨.GATE_REJ, 31, 0⟩
/-- GAU_CTL.EN (R323). -/
def F.GAU_CTL.EN : Fld := ⟨.GAU_CTL, 0, 0⟩
/-- GAU_CTL.LOG2_SIZE (R323). -/
def F.GAU_CTL.LOG2_SIZE : Fld := ⟨.GAU_CTL, 5, 1⟩
/-- GAU_FIRST.QUEUE (R323). -/
def F.GAU_FIRST.QUEUE : Fld := ⟨.GAU_FIRST, 19, 0⟩
/-- GAU_COUNT.QUEUES (R323). -/
def F.GAU_COUNT.QUEUES : Fld := ⟨.GAU_COUNT, 20, 0⟩
/-- GAU_PERIOD.NS (R323). -/
def F.GAU_PERIOD.NS : Fld := ⟨.GAU_PERIOD, 31, 0⟩
/-- GAU_PROD.INDEX (R323). -/
def F.GAU_PROD.INDEX : Fld := ⟨.GAU_PROD, 23, 0⟩
/-- GAU_CONS.INDEX (R323). -/
def F.GAU_CONS.INDEX : Fld := ⟨.GAU_CONS, 23, 0⟩
/-- GAU_LOST.COUNT (R323). -/
def F.GAU_LOST.COUNT : Fld := ⟨.GAU_LOST, 31, 0⟩
/-- GAU_SKIPPED.COUNT (R323). -/
def F.GAU_SKIPPED.COUNT : Fld := ⟨.GAU_SKIPPED, 31, 0⟩
/-- KEY_TBL_IDX.INDEX (R352). -/
def F.KEY_TBL_IDX.INDEX : Fld := ⟨.KEY_TBL_IDX, 19, 0⟩
/-- KEY_TBL_STAT.BUSY (R352). -/
def F.KEY_TBL_STAT.BUSY : Fld := ⟨.KEY_TBL_STAT, 0, 0⟩
/-- KEY_TBL_STAT.REJ (R352). -/
def F.KEY_TBL_STAT.REJ : Fld := ⟨.KEY_TBL_STAT, 1, 1⟩
/-- KEY_TBL_STAT.STATUS (R352). -/
def F.KEY_TBL_STAT.STATUS : Fld := ⟨.KEY_TBL_STAT, 10, 8⟩
/-- KEY_TBL_STAT.VER (R352). -/
def F.KEY_TBL_STAT.VER : Fld := ⟨.KEY_TBL_STAT, 23, 16⟩
/-- KEY_TBL_COUNT.COUNT (R352). -/
def F.KEY_TBL_COUNT.COUNT : Fld := ⟨.KEY_TBL_COUNT, 20, 0⟩
/-- HDW_DIE_STATUS.STATE (R353). -/
def F.HDW_DIE_STATUS.STATE : Fld := ⟨.HDW_DIE_STATUS, 1, 0⟩
/-- HDW_DIE_STATUS.RCT_FAIL (R353). -/
def F.HDW_DIE_STATUS.RCT_FAIL : Fld := ⟨.HDW_DIE_STATUS, 2, 2⟩
/-- HDW_DIE_STATUS.APT_FAIL (R353). -/
def F.HDW_DIE_STATUS.APT_FAIL : Fld := ⟨.HDW_DIE_STATUS, 3, 3⟩
/-- HDW_DIE_CTL.RESTART (R353). -/
def F.HDW_DIE_CTL.RESTART : Fld := ⟨.HDW_DIE_CTL, 0, 0⟩
/-- HDW_DIE_RESEEDS.COUNT (R353). -/
def F.HDW_DIE_RESEEDS.COUNT : Fld := ⟨.HDW_DIE_RESEEDS, 31, 0⟩
/-- BRD_KEY_MISS.COUNT (R354). -/
def F.BRD_KEY_MISS.COUNT : Fld := ⟨.BRD_KEY_MISS, 31, 0⟩
/-- BRD_KEY_BADCHK.COUNT (R354). -/
def F.BRD_KEY_BADCHK.COUNT : Fld := ⟨.BRD_KEY_BADCHK, 31, 0⟩
/-- BRD_GATE_TMO.US (R354). -/
def F.BRD_GATE_TMO.US : Fld := ⟨.BRD_GATE_TMO, 16, 0⟩
/-- BRD_GATE_FAIL.COUNT (R354). -/
def F.BRD_GATE_FAIL.COUNT : Fld := ⟨.BRD_GATE_FAIL, 31, 0⟩
/-- BRD_GATE_TIMEOUT.COUNT (R354). -/
def F.BRD_GATE_TIMEOUT.COUNT : Fld := ⟨.BRD_GATE_TIMEOUT, 31, 0⟩
/-- BRD_GATE_DROP.COUNT (R354). -/
def F.BRD_GATE_DROP.COUNT : Fld := ⟨.BRD_GATE_DROP, 31, 0⟩
/-- BRD_GATE_ZERO_ERR.COUNT (R354). -/
def F.BRD_GATE_ZERO_ERR.COUNT : Fld := ⟨.BRD_GATE_ZERO_ERR, 31, 0⟩
/-- CFL_SQ_CTL.EN (R355). -/
def F.CFL_SQ_CTL.EN : Fld := ⟨.CFL_SQ_CTL, 0, 0⟩
/-- CFL_SQ_CTL.MODE64 (R355). -/
def F.CFL_SQ_CTL.MODE64 : Fld := ⟨.CFL_SQ_CTL, 1, 1⟩
/-- CFL_SQ_CTL.EXHAUSTED (R355). -/
def F.CFL_SQ_CTL.EXHAUSTED : Fld := ⟨.CFL_SQ_CTL, 2, 2⟩
/-- CFL_SQ_CTL.SOFT_HIT (R355). -/
def F.CFL_SQ_CTL.SOFT_HIT : Fld := ⟨.CFL_SQ_CTL, 3, 3⟩
/-- CFL_SQ_KEY.INDEX (R355). -/
def F.CFL_SQ_KEY.INDEX : Fld := ⟨.CFL_SQ_KEY, 19, 0⟩
/-- CFL_SQ_KEY.VER (R355). -/
def F.CFL_SQ_KEY.VER : Fld := ⟨.CFL_SQ_KEY, 27, 20⟩
/-- CFL_SQ_KEY.REVOKE_EN (R355). -/
def F.CFL_SQ_KEY.REVOKE_EN : Fld := ⟨.CFL_SQ_KEY, 31, 31⟩
/-- CFL_SQ_EVQ_LOST.COUNT (R356). -/
def F.CFL_SQ_EVQ_LOST.COUNT : Fld := ⟨.CFL_SQ_EVQ_LOST, 31, 0⟩
/-- CFL_SQ_REJ.COUNT (R356). -/
def F.CFL_SQ_REJ.COUNT : Fld := ⟨.CFL_SQ_REJ, 31, 0⟩
/-- BNK_STO_CTL.EN (R382). -/
def F.BNK_STO_CTL.EN : Fld := ⟨.BNK_STO_CTL, 0, 0⟩
/-- BNK_STO_SLOTS.FREE (R382). -/
def F.BNK_STO_SLOTS.FREE : Fld := ⟨.BNK_STO_SLOTS, 14, 0⟩
/-- BNK_STO_SLOTS.QUAR (R382). -/
def F.BNK_STO_SLOTS.QUAR : Fld := ⟨.BNK_STO_SLOTS, 30, 16⟩
/-- BNK_STO_HOLD_TMO.MS (R382). -/
def F.BNK_STO_HOLD_TMO.MS : Fld := ⟨.BNK_STO_HOLD_TMO, 15, 0⟩
/-- BNK_STO_LATE.COUNT (R382). -/
def F.BNK_STO_LATE.COUNT : Fld := ⟨.BNK_STO_LATE, 31, 0⟩
/-- BNK_STO_ERRS.COUNT (R382). -/
def F.BNK_STO_ERRS.COUNT : Fld := ⟨.BNK_STO_ERRS, 31, 0⟩
/-- BNK_STO_EVQ_LOST.COUNT (R382). -/
def F.BNK_STO_EVQ_LOST.COUNT : Fld := ⟨.BNK_STO_EVQ_LOST, 31, 0⟩
/-- BNK_STO_STG_ERR.COUNT (R382). -/
def F.BNK_STO_STG_ERR.COUNT : Fld := ⟨.BNK_STO_STG_ERR, 31, 0⟩
/-- BNK_STO_PERS.STORAGE (R382). -/
def F.BNK_STO_PERS.STORAGE : Fld := ⟨.BNK_STO_PERS, 0, 0⟩
/-- BNK_STO_PERS.EFFECT (R382). -/
def F.BNK_STO_PERS.EFFECT : Fld := ⟨.BNK_STO_PERS, 1, 1⟩
/-- STO_CMD_IDX.INDEX (R383). -/
def F.STO_CMD_IDX.INDEX : Fld := ⟨.STO_CMD_IDX, 29, 0⟩
/-- STO_CMD_STAT.BUSY (R383). -/
def F.STO_CMD_STAT.BUSY : Fld := ⟨.STO_CMD_STAT, 0, 0⟩
/-- STO_CMD_STAT.REJ (R383). -/
def F.STO_CMD_STAT.REJ : Fld := ⟨.STO_CMD_STAT, 1, 1⟩
/-- STO_CMD_STAT.NOHBM (R383). -/
def F.STO_CMD_STAT.NOHBM : Fld := ⟨.STO_CMD_STAT, 2, 2⟩
/-- FRY_DN_STAT.LEN (R406). -/
def F.FRY_DN_STAT.LEN : Fld := ⟨.FRY_DN_STAT, 4, 0⟩
/-- FRY_DN_STAT.FULL (R406). -/
def F.FRY_DN_STAT.FULL : Fld := ⟨.FRY_DN_STAT, 6, 6⟩
/-- FRY_IRQ.VEC (R406). -/
def F.FRY_IRQ.VEC : Fld := ⟨.FRY_IRQ, 10, 0⟩
/-- FRY_IRQ.DN_IEN (R406). -/
def F.FRY_IRQ.DN_IEN : Fld := ⟨.FRY_IRQ, 16, 16⟩
/-- FRY_IRQ.UP_IEN (R406). -/
def F.FRY_IRQ.UP_IEN : Fld := ⟨.FRY_IRQ, 17, 17⟩
/-- PCI_FRY_UP_STAT.LEN (R407). -/
def F.PCI_FRY_UP_STAT.LEN : Fld := ⟨.PCI_FRY_UP_STAT, 4, 0⟩
/-- PCI_FRY_UP_STAT.FULL (R407). -/
def F.PCI_FRY_UP_STAT.FULL : Fld := ⟨.PCI_FRY_UP_STAT, 6, 6⟩
/-- PCI_FRY_REJ.UP (R407). -/
def F.PCI_FRY_REJ.UP : Fld := ⟨.PCI_FRY_REJ, 15, 0⟩
/-- PCI_FRY_REJ.DN (R407). -/
def F.PCI_FRY_REJ.DN : Fld := ⟨.PCI_FRY_REJ, 31, 16⟩
/-- PCI_EP_CFG.SPLIT (R413). -/
def F.PCI_EP_CFG.SPLIT : Fld := ⟨.PCI_EP_CFG, 0, 0⟩
/-- PCI_EP_CFG.PF1_EN (R413). -/
def F.PCI_EP_CFG.PF1_EN : Fld := ⟨.PCI_EP_CFG, 1, 1⟩
/-- PCI_EP_CFG.SRIS (R413). -/
def F.PCI_EP_CFG.SRIS : Fld := ⟨.PCI_EP_CFG, 2, 2⟩
/-- PCI_EP_CFG.SPLIT_EFF (R413). -/
def F.PCI_EP_CFG.SPLIT_EFF : Fld := ⟨.PCI_EP_CFG, 4, 4⟩
/-- PCI_EP_CFG.PF1_EFF (R413). -/
def F.PCI_EP_CFG.PF1_EFF : Fld := ⟨.PCI_EP_CFG, 5, 5⟩
/-- PCI_EP_CFG.SRIS_EFF (R413). -/
def F.PCI_EP_CFG.SRIS_EFF : Fld := ⟨.PCI_EP_CFG, 6, 6⟩
/-- PCI_EP_CFG.TOTALVFS (R413). -/
def F.PCI_EP_CFG.TOTALVFS : Fld := ⟨.PCI_EP_CFG, 18, 8⟩
/-- PCI_EP_CFG.VFVEC (R413). -/
def F.PCI_EP_CFG.VFVEC : Fld := ⟨.PCI_EP_CFG, 26, 20⟩
/-- PCI_EP_STAT.READY (R413). -/
def F.PCI_EP_STAT.READY : Fld := ⟨.PCI_EP_STAT, 0, 0⟩
/-- PCI_EP_STAT.LINKA_UP (R413). -/
def F.PCI_EP_STAT.LINKA_UP : Fld := ⟨.PCI_EP_STAT, 1, 1⟩
/-- PCI_EP_STAT.LINKB_UP (R413). -/
def F.PCI_EP_STAT.LINKB_UP : Fld := ⟨.PCI_EP_STAT, 2, 2⟩
/-- PCI_FRY_NOTE.ENDPOINT (R413). -/
def F.PCI_FRY_NOTE.ENDPOINT : Fld := ⟨.PCI_FRY_NOTE, 4, 0⟩
/-- PCI_FRY_NOTE.EN (R413). -/
def F.PCI_FRY_NOTE.EN : Fld := ⟨.PCI_FRY_NOTE, 5, 5⟩
/-- PCI_FRY_NOTE.VEC (R413). -/
def F.PCI_FRY_NOTE.VEC : Fld := ⟨.PCI_FRY_NOTE, 15, 8⟩
/-- RING_SIZE.TXLOG (R417). -/
def F.RING_SIZE.TXLOG : Fld := ⟨.RING_SIZE, 4, 0⟩
/-- RING_SIZE.RXLOG (R417). -/
def F.RING_SIZE.RXLOG : Fld := ⟨.RING_SIZE, 12, 8⟩
/-- RING_IRQ.TXVEC (R417). -/
def F.RING_IRQ.TXVEC : Fld := ⟨.RING_IRQ, 10, 0⟩
/-- RING_IRQ.RXVEC (R417). -/
def F.RING_IRQ.RXVEC : Fld := ⟨.RING_IRQ, 26, 16⟩
/-- RING_WRR.WEIGHT (R417). -/
def F.RING_WRR.WEIGHT : Fld := ⟨.RING_WRR, 7, 0⟩
/-- RING_WRR.BURST (R417). -/
def F.RING_WRR.BURST : Fld := ⟨.RING_WRR, 14, 8⟩
/-- RING_ARM.ARMED (R417). -/
def F.RING_ARM.ARMED : Fld := ⟨.RING_ARM, 1, 1⟩
/-- RING_ARM.REJ (R417). -/
def F.RING_ARM.REJ : Fld := ⟨.RING_ARM, 2, 2⟩
/-- DMA_ERRS.COUNT (R442). -/
def F.DMA_ERRS.COUNT : Fld := ⟨.DMA_ERRS, 31, 0⟩
/-- DMA_DESCS.COUNT (R442). -/
def F.DMA_DESCS.COUNT : Fld := ⟨.DMA_DESCS, 31, 0⟩
/-- RNG_CTL.PREFETCH (R443). -/
def F.RNG_CTL.PREFETCH : Fld := ⟨.RNG_CTL, 6, 0⟩
/-- RNG_XLATE_FAIL.COUNT (R443). -/
def F.RNG_XLATE_FAIL.COUNT : Fld := ⟨.RNG_XLATE_FAIL, 31, 0⟩
/-- RNG_FN_CTL.SVC (R443). -/
def F.RNG_FN_CTL.SVC : Fld := ⟨.RNG_FN_CTL, 0, 0⟩
/-- RNG_FN_CTL.SVC_EFF (R443). -/
def F.RNG_FN_CTL.SVC_EFF : Fld := ⟨.RNG_FN_CTL, 1, 1⟩
/-- RNG_FN_DBREJ.COUNT (R443). -/
def F.RNG_FN_DBREJ.COUNT : Fld := ⟨.RNG_FN_DBREJ, 31, 0⟩
/-- RNG_FN_MALF.COUNT (R443). -/
def F.RNG_FN_MALF.COUNT : Fld := ⟨.RNG_FN_MALF, 31, 0⟩
/-- RNG_FN_BUSERR.COUNT (R443). -/
def F.RNG_FN_BUSERR.COUNT : Fld := ⟨.RNG_FN_BUSERR, 31, 0⟩
/-- RNG_FN_QSEL.QUEUE (R443). -/
def F.RNG_FN_QSEL.QUEUE : Fld := ⟨.RNG_FN_QSEL, 5, 0⟩
/-- RNG_FN_QSEL.RX (R443). -/
def F.RNG_FN_QSEL.RX : Fld := ⟨.RNG_FN_QSEL, 8, 8⟩
/-- RNG_FN_BURST.KIB (R464). -/
def F.RNG_FN_BURST.KIB : Fld := ⟨.RNG_FN_BURST, 15, 0⟩
/-- RNG_FN_BURST.FRAMES (R464). -/
def F.RNG_FN_BURST.FRAMES : Fld := ⟨.RNG_FN_BURST, 31, 16⟩
/-- RNG_FN_DBRATE.KDBS (R464). -/
def F.RNG_FN_DBRATE.KDBS : Fld := ⟨.RNG_FN_DBRATE, 19, 0⟩
/-- RNG_FN_WEIGHT.WEIGHT (R464). -/
def F.RNG_FN_WEIGHT.WEIGHT : Fld := ⟨.RNG_FN_WEIGHT, 7, 0⟩
/-- RNG_FN_FRZ.STATE (R464). -/
def F.RNG_FN_FRZ.STATE : Fld := ⟨.RNG_FN_FRZ, 6, 4⟩
/-- RNG_FN_FRZ.BUSY (R464). -/
def F.RNG_FN_FRZ.BUSY : Fld := ⟨.RNG_FN_FRZ, 7, 7⟩
/-- RNG_FN_FRZ.RESULT (R464). -/
def F.RNG_FN_FRZ.RESULT : Fld := ⟨.RNG_FN_FRZ, 11, 8⟩
/-- RNG_FN_FRZ.REJ (R464). -/
def F.RNG_FN_FRZ.REJ : Fld := ⟨.RNG_FN_FRZ, 12, 12⟩
/-- RNG_FN_FRZ.GEN (R464). -/
def F.RNG_FN_FRZ.GEN : Fld := ⟨.RNG_FN_FRZ, 31, 16⟩
/-- RNG_FN_IMGLEN.BYTES (R464). -/
def F.RNG_FN_IMGLEN.BYTES : Fld := ⟨.RNG_FN_IMGLEN, 22, 0⟩
/-- INS_STAT.RESETS (R465). -/
def F.INS_STAT.RESETS : Fld := ⟨.INS_STAT, 31, 24⟩
/-- INS_DB_MERGE.COUNT (R465). -/
def F.INS_DB_MERGE.COUNT : Fld := ⟨.INS_DB_MERGE, 31, 0⟩
/-- BRD_INS_W0.RATE (R466). -/
def F.BRD_INS_W0.RATE : Fld := ⟨.BRD_INS_W0, 19, 0⟩
/-- BRD_INS_W0.BURST (R466). -/
def F.BRD_INS_W0.BURST : Fld := ⟨.BRD_INS_W0, 30, 20⟩
/-- BRD_INS_W0.EN (R466). -/
def F.BRD_INS_W0.EN : Fld := ⟨.BRD_INS_W0, 31, 31⟩
/-- BRD_INS_W1.REFUSED (R466). -/
def F.BRD_INS_W1.REFUSED : Fld := ⟨.BRD_INS_W1, 31, 0⟩
/-- MAC_PORT_CFG.EN (R498). -/
def F.MAC_PORT_CFG.EN : Fld := ⟨.MAC_PORT_CFG, 0, 0⟩
/-- MAC_PORT_CFG.WIDTH (R498). -/
def F.MAC_PORT_CFG.WIDTH : Fld := ⟨.MAC_PORT_CFG, 2, 1⟩
/-- MAC_PORT_CFG.AN (R498). -/
def F.MAC_PORT_CFG.AN : Fld := ⟨.MAC_PORT_CFG, 3, 3⟩
/-- MAC_PORT_CFG.MAXLEN (R498). -/
def F.MAC_PORT_CFG.MAXLEN : Fld := ⟨.MAC_PORT_CFG, 17, 4⟩
/-- MAC_PORT_STAT.LINK_UP (R498). -/
def F.MAC_PORT_STAT.LINK_UP : Fld := ⟨.MAC_PORT_STAT, 0, 0⟩
/-- MAC_PORT_STAT.COVERED (R498). -/
def F.MAC_PORT_STAT.COVERED : Fld := ⟨.MAC_PORT_STAT, 1, 1⟩
/-- MAC_PORT_STAT.LPI_CAP (R498). -/
def F.MAC_PORT_STAT.LPI_CAP : Fld := ⟨.MAC_PORT_STAT, 2, 2⟩
/-- MAC_PORT_STAT.LINK_CHG (R498). -/
def F.MAC_PORT_STAT.LINK_CHG : Fld := ⟨.MAC_PORT_STAT, 3, 3⟩
/-- MAC_FC_CTL.MODE (R498). -/
def F.MAC_FC_CTL.MODE : Fld := ⟨.MAC_FC_CTL, 1, 0⟩
/-- MAC_FC_CTL.PFC_EN (R498). -/
def F.MAC_FC_CTL.PFC_EN : Fld := ⟨.MAC_FC_CTL, 9, 2⟩
/-- MAC_FC_CTL.DEFCLASS (R498). -/
def F.MAC_FC_CTL.DEFCLASS : Fld := ⟨.MAC_FC_CTL, 12, 10⟩
/-- MAC_FC_CTL.QUANTA (R498). -/
def F.MAC_FC_CTL.QUANTA : Fld := ⟨.MAC_FC_CTL, 31, 16⟩
/-- MAC_PCP_MAP.MAP (R498). -/
def F.MAC_PCP_MAP.MAP : Fld := ⟨.MAC_PCP_MAP, 23, 0⟩
/-- MAC_FC_THR.XOFF (R498). -/
def F.MAC_FC_THR.XOFF : Fld := ⟨.MAC_FC_THR, 15, 0⟩
/-- MAC_FC_THR.XON (R498). -/
def F.MAC_FC_THR.XON : Fld := ⟨.MAC_FC_THR, 31, 16⟩
/-- MAC_FC_HELD.HELD (R498). -/
def F.MAC_FC_HELD.HELD : Fld := ⟨.MAC_FC_HELD, 7, 0⟩
/-- MAC_EEE_CTL.EN (R498). -/
def F.MAC_EEE_CTL.EN : Fld := ⟨.MAC_EEE_CTL, 0, 0⟩
/-- MAC_EEE_CTL.IDLE (R498). -/
def F.MAC_EEE_CTL.IDLE : Fld := ⟨.MAC_EEE_CTL, 23, 8⟩
/-- MAC_PTP_CTL.TXC_EN (R498). -/
def F.MAC_PTP_CTL.TXC_EN : Fld := ⟨.MAC_PTP_CTL, 0, 0⟩
/-- MAC_PTP_CTL.RX_ADJ (R498). -/
def F.MAC_PTP_CTL.RX_ADJ : Fld := ⟨.MAC_PTP_CTL, 23, 16⟩
/-- MAC_PTP_CTL.TX_ADJ (R498). -/
def F.MAC_PTP_CTL.TX_ADJ : Fld := ⟨.MAC_PTP_CTL, 31, 24⟩
/-- ATL_PTP_CTL.TXC_EN (R499). -/
def F.ATL_PTP_CTL.TXC_EN : Fld := ⟨.ATL_PTP_CTL, 0, 0⟩
/-- ATL_PTP_CTL.RX_ADJ (R499). -/
def F.ATL_PTP_CTL.RX_ADJ : Fld := ⟨.ATL_PTP_CTL, 23, 16⟩
/-- ATL_PTP_CTL.TX_ADJ (R499). -/
def F.ATL_PTP_CTL.TX_ADJ : Fld := ⟨.ATL_PTP_CTL, 31, 24⟩
/-- MAC_TXTS_ID.TSID (R498). -/
def F.MAC_TXTS_ID.TSID : Fld := ⟨.MAC_TXTS_ID, 7, 0⟩
/-- MAC_TXTS_ID.VALID (R498). -/
def F.MAC_TXTS_ID.VALID : Fld := ⟨.MAC_TXTS_ID, 31, 31⟩
/-- ATL_TXTS_ID.TSID (R499). -/
def F.ATL_TXTS_ID.TSID : Fld := ⟨.ATL_TXTS_ID, 7, 0⟩
/-- ATL_TXTS_ID.VALID (R499). -/
def F.ATL_TXTS_ID.VALID : Fld := ⟨.ATL_TXTS_ID, 31, 31⟩
/-- MAC_TXTS_NS.NS (R498). -/
def F.MAC_TXTS_NS.NS : Fld := ⟨.MAC_TXTS_NS, 31, 0⟩
/-- ATL_TXTS_NS.NS (R499). -/
def F.ATL_TXTS_NS.NS : Fld := ⟨.ATL_TXTS_NS, 31, 0⟩
/-- MAC_TXTS_SEC.SEC (R498). -/
def F.MAC_TXTS_SEC.SEC : Fld := ⟨.MAC_TXTS_SEC, 31, 0⟩
/-- ATL_TXTS_SEC.SEC (R499). -/
def F.ATL_TXTS_SEC.SEC : Fld := ⟨.ATL_TXTS_SEC, 31, 0⟩
/-- MAC_TXTS_LOST.COUNT (R498). -/
def F.MAC_TXTS_LOST.COUNT : Fld := ⟨.MAC_TXTS_LOST, 31, 0⟩
/-- ATL_TXTS_LOST.COUNT (R499). -/
def F.ATL_TXTS_LOST.COUNT : Fld := ⟨.ATL_TXTS_LOST, 31, 0⟩
/-- MAC_SLACK_CTL.EN (R498). -/
def F.MAC_SLACK_CTL.EN : Fld := ⟨.MAC_SLACK_CTL, 0, 0⟩
/-- MAC_SLACK_CTL.GROUP (R498). -/
def F.MAC_SLACK_CTL.GROUP : Fld := ⟨.MAC_SLACK_CTL, 8, 1⟩
/-- MAC_SLACK_CTL.GUARD (R498). -/
def F.MAC_SLACK_CTL.GUARD : Fld := ⟨.MAC_SLACK_CTL, 25, 9⟩
/-- ATL_SLACK_CTL.EN (R499). -/
def F.ATL_SLACK_CTL.EN : Fld := ⟨.ATL_SLACK_CTL, 0, 0⟩
/-- ATL_SLACK_CTL.GROUP (R499). -/
def F.ATL_SLACK_CTL.GROUP : Fld := ⟨.ATL_SLACK_CTL, 8, 1⟩
/-- ATL_SLACK_CTL.GUARD (R499). -/
def F.ATL_SLACK_CTL.GUARD : Fld := ⟨.ATL_SLACK_CTL, 25, 9⟩
/-- MAC_SLACK_STAT.MODE (R498). -/
def F.MAC_SLACK_STAT.MODE : Fld := ⟨.MAC_SLACK_STAT, 1, 0⟩
/-- MAC_SLACK_STAT.PROPOSER (R498). -/
def F.MAC_SLACK_STAT.PROPOSER : Fld := ⟨.MAC_SLACK_STAT, 2, 2⟩
/-- MAC_SLACK_STAT.RUN (R498). -/
def F.MAC_SLACK_STAT.RUN : Fld := ⟨.MAC_SLACK_STAT, 7, 4⟩
/-- MAC_SLACK_STAT.SKIP (R498). -/
def F.MAC_SLACK_STAT.SKIP : Fld := ⟨.MAC_SLACK_STAT, 15, 8⟩
/-- ATL_SLACK_STAT.MODE (R499). -/
def F.ATL_SLACK_STAT.MODE : Fld := ⟨.ATL_SLACK_STAT, 1, 0⟩
/-- ATL_SLACK_STAT.PROPOSER (R499). -/
def F.ATL_SLACK_STAT.PROPOSER : Fld := ⟨.ATL_SLACK_STAT, 2, 2⟩
/-- ATL_SLACK_STAT.RUN (R499). -/
def F.ATL_SLACK_STAT.RUN : Fld := ⟨.ATL_SLACK_STAT, 7, 4⟩
/-- ATL_SLACK_STAT.SKIP (R499). -/
def F.ATL_SLACK_STAT.SKIP : Fld := ⟨.ATL_SLACK_STAT, 15, 8⟩
/-- MAC_SLACK_MISS.COUNT (R498). -/
def F.MAC_SLACK_MISS.COUNT : Fld := ⟨.MAC_SLACK_MISS, 31, 0⟩
/-- ATL_SLACK_MISS.COUNT (R499). -/
def F.ATL_SLACK_MISS.COUNT : Fld := ⟨.ATL_SLACK_MISS, 31, 0⟩
/-- MAC_SLACK_SLEPT.COUNT (R498). -/
def F.MAC_SLACK_SLEPT.COUNT : Fld := ⟨.MAC_SLACK_SLEPT, 31, 0⟩
/-- ATL_SLACK_SLEPT.COUNT (R499). -/
def F.ATL_SLACK_SLEPT.COUNT : Fld := ⟨.ATL_SLACK_SLEPT, 31, 0⟩
/-- ATL_CFG.EN (R499). -/
def F.ATL_CFG.EN : Fld := ⟨.ATL_CFG, 0, 0⟩
/-- ATL_CFG.RXCRED (R499). -/
def F.ATL_CFG.RXCRED : Fld := ⟨.ATL_CFG, 13, 1⟩
/-- ATL_CFG.CRET (R499). -/
def F.ATL_CFG.CRET : Fld := ⟨.ATL_CFG, 23, 16⟩
/-- ATL_STAT.LINK_UP (R499). -/
def F.ATL_STAT.LINK_UP : Fld := ⟨.ATL_STAT, 0, 0⟩
/-- ATL_STAT.LINK_CHG (R499). -/
def F.ATL_STAT.LINK_CHG : Fld := ⟨.ATL_STAT, 1, 1⟩
/-- ATL_CRED.TXAVAIL (R499). -/
def F.ATL_CRED.TXAVAIL : Fld := ⟨.ATL_CRED, 15, 0⟩
/-- ATL_CRED.RXHELD (R499). -/
def F.ATL_CRED.RXHELD : Fld := ⟨.ATL_CRED, 31, 16⟩
/-- ATL_REQ.LINES (R499). -/
def F.ATL_REQ.LINES : Fld := ⟨.ATL_REQ, 7, 0⟩
/-- ATL_HDR_BAD.COUNT (R499). -/
def F.ATL_HDR_BAD.COUNT : Fld := ⟨.ATL_HDR_BAD, 31, 0⟩
/-- ATL_CRED_VIOL.COUNT (R499). -/
def F.ATL_CRED_VIOL.COUNT : Fld := ⟨.ATL_CRED_VIOL, 31, 0⟩
/-- HDW_DISC_STAT.BUSY (R500). -/
def F.HDW_DISC_STAT.BUSY : Fld := ⟨.HDW_DISC_STAT, 0, 0⟩
/-- HDW_DISC_STAT.DONE (R500). -/
def F.HDW_DISC_STAT.DONE : Fld := ⟨.HDW_DISC_STAT, 1, 1⟩
/-- HDW_DISC_STAT.CHANGED (R500). -/
def F.HDW_DISC_STAT.CHANGED : Fld := ⟨.HDW_DISC_STAT, 2, 2⟩
/-- HDW_DISC_STAT.RERUN (R500). -/
def F.HDW_DISC_STAT.RERUN : Fld := ⟨.HDW_DISC_STAT, 3, 3⟩
/-- HDW_DISC_REJ.COUNT (R500). -/
def F.HDW_DISC_REJ.COUNT : Fld := ⟨.HDW_DISC_REJ, 31, 0⟩
/-- HDW_LC_STAT.LC (R529). -/
def F.HDW_LC_STAT.LC : Fld := ⟨.HDW_LC_STAT, 1, 0⟩
/-- HDW_LC_STAT.LC_PEND (R529). -/
def F.HDW_LC_STAT.LC_PEND : Fld := ⟨.HDW_LC_STAT, 2, 2⟩
/-- HDW_LC_STAT.DEBUG (R529). -/
def F.HDW_LC_STAT.DEBUG : Fld := ⟨.HDW_LC_STAT, 4, 3⟩
/-- HDW_LC_STAT.INTRUDED (R529). -/
def F.HDW_LC_STAT.INTRUDED : Fld := ⟨.HDW_LC_STAT, 5, 5⟩
/-- HDW_LC_STAT.RESULT (R529). -/
def F.HDW_LC_STAT.RESULT : Fld := ⟨.HDW_LC_STAT, 9, 6⟩
/-- HDW_LC_STAT.BUSY (R529). -/
def F.HDW_LC_STAT.BUSY : Fld := ⟨.HDW_LC_STAT, 10, 10⟩
/-- HDW_LC_CHAL.NEW (R529). -/
def F.HDW_LC_CHAL.NEW : Fld := ⟨.HDW_LC_CHAL, 0, 0⟩
/-- HDW_VAULT_STAT.TOKENS (R530). -/
def F.HDW_VAULT_STAT.TOKENS : Fld := ⟨.HDW_VAULT_STAT, 10, 0⟩
/-- HDW_VAULT_STAT.BUSY (R530). -/
def F.HDW_VAULT_STAT.BUSY : Fld := ⟨.HDW_VAULT_STAT, 11, 11⟩
/-- HDW_VAULT_STAT.PEND (R530). -/
def F.HDW_VAULT_STAT.PEND : Fld := ⟨.HDW_VAULT_STAT, 18, 12⟩
/-- HDW_VAULT_STAT.RESULT (R530). -/
def F.HDW_VAULT_STAT.RESULT : Fld := ⟨.HDW_VAULT_STAT, 22, 19⟩
/-- HDW_VAULT_STAT.PFAIL (R530). -/
def F.HDW_VAULT_STAT.PFAIL : Fld := ⟨.HDW_VAULT_STAT, 23, 23⟩
/-- HDW_VAULT_LEN.BYTES (R530). -/
def F.HDW_VAULT_LEN.BYTES : Fld := ⟨.HDW_VAULT_LEN, 11, 0⟩
/-- HDW_VAULT_COMMITS.COUNT (R530). -/
def F.HDW_VAULT_COMMITS.COUNT : Fld := ⟨.HDW_VAULT_COMMITS, 31, 0⟩
/-- HDW_VAULT_BADCOPY.COUNT (R530). -/
def F.HDW_VAULT_BADCOPY.COUNT : Fld := ⟨.HDW_VAULT_BADCOPY, 7, 0⟩
/-- HDW_PWR_STAT.STATE (R530). -/
def F.HDW_PWR_STAT.STATE : Fld := ⟨.HDW_PWR_STAT, 1, 0⟩
/-- HDW_PWR_STAT.STEP (R530). -/
def F.HDW_PWR_STAT.STEP : Fld := ⟨.HDW_PWR_STAT, 3, 2⟩
/-- HDW_PWR_STAT.POWER (R530). -/
def F.HDW_PWR_STAT.POWER : Fld := ⟨.HDW_PWR_STAT, 31, 16⟩
/-- HDW_PWR_TEMP.TJ (R530). -/
def F.HDW_PWR_TEMP.TJ : Fld := ⟨.HDW_PWR_TEMP, 7, 0⟩
/-- HDW_PWR_TEMP.TC (R530). -/
def F.HDW_PWR_TEMP.TC : Fld := ⟨.HDW_PWR_TEMP, 15, 8⟩
/-- HDW_PWR_PFAIL.THR (R530). -/
def F.HDW_PWR_PFAIL.THR : Fld := ⟨.HDW_PWR_PFAIL, 5, 0⟩
/-- HDW_PWR_TRIMS.COUNT (R530). -/
def F.HDW_PWR_TRIMS.COUNT : Fld := ⟨.HDW_PWR_TRIMS, 31, 0⟩
/-- TRB_STAT.SEV (R535). -/
def F.TRB_STAT.SEV : Fld := ⟨.TRB_STAT, 3, 0⟩
/-- TRB_IEN.SEV_EN (R535). -/
def F.TRB_IEN.SEV_EN : Fld := ⟨.TRB_IEN, 3, 0⟩
/-- TRB_IEN.TO_HDW (R535). -/
def F.TRB_IEN.TO_HDW : Fld := ⟨.TRB_IEN, 4, 4⟩
/-- TRB_IEN.TO_PF1 (R535). -/
def F.TRB_IEN.TO_PF1 : Fld := ⟨.TRB_IEN, 5, 5⟩
/-- TRB_IEN.ENDPOINT (R535). -/
def F.TRB_IEN.ENDPOINT : Fld := ⟨.TRB_IEN, 12, 8⟩
/-- TRB_IEN.VEC (R535). -/
def F.TRB_IEN.VEC : Fld := ⟨.TRB_IEN, 23, 16⟩
/-- TRB_HIST.NEWEST (R535). -/
def F.TRB_HIST.NEWEST : Fld := ⟨.TRB_HIST, 2, 0⟩
/-- TRB_HIST.COUNT (R535). -/
def F.TRB_HIST.COUNT : Fld := ⟨.TRB_HIST, 31, 4⟩
/-- TRB_INJ.KIND (R535). -/
def F.TRB_INJ.KIND : Fld := ⟨.TRB_INJ, 3, 0⟩
/-- TRB_INJ.ARMED (R535). -/
def F.TRB_INJ.ARMED : Fld := ⟨.TRB_INJ, 5, 5⟩
/-- TRB_INJ.CAP (R535). -/
def F.TRB_INJ.CAP : Fld := ⟨.TRB_INJ, 15, 8⟩
/-- LOG_CTL.FREEZE (R541). -/
def F.LOG_CTL.FREEZE : Fld := ⟨.LOG_CTL, 0, 0⟩
/-- LOG_WIDX.INDEX (R541). -/
def F.LOG_WIDX.INDEX : Fld := ⟨.LOG_WIDX, 15, 0⟩
/-- LOG_SEQ.SEQ (R541). -/
def F.LOG_SEQ.SEQ : Fld := ⟨.LOG_SEQ, 31, 0⟩
/-- LOG_LAP.COUNT (R541). -/
def F.LOG_LAP.COUNT : Fld := ⟨.LOG_LAP, 31, 0⟩
/-- LOG_DROP.COUNT (R541). -/
def F.LOG_DROP.COUNT : Fld := ⟨.LOG_DROP, 31, 0⟩
/-- HDW_COMPAT.FORCE_EN (R541). -/
def F.HDW_COMPAT.FORCE_EN : Fld := ⟨.HDW_COMPAT, 0, 0⟩
/-- CNT_CTL.EN (R548). -/
def F.CNT_CTL.EN : Fld := ⟨.CNT_CTL, 0, 0⟩
/-- CNT_CTL.OVF (R548). -/
def F.CNT_CTL.OVF : Fld := ⟨.CNT_CTL, 1, 1⟩
/-- CNT_CTL.SAT (R548). -/
def F.CNT_CTL.SAT : Fld := ⟨.CNT_CTL, 2, 2⟩
/-- CNT_CTL.IEN (R548). -/
def F.CNT_CTL.IEN : Fld := ⟨.CNT_CTL, 3, 3⟩
/-- CNT_CTL.SEL (R548). -/
def F.CNT_CTL.SEL : Fld := ⟨.CNT_CTL, 15, 8⟩
/-- HDW_BOOT_STAT.STAGE (R562). -/
def F.HDW_BOOT_STAT.STAGE : Fld := ⟨.HDW_BOOT_STAT, 2, 0⟩
/-- HDW_BOOT_STAT.SLOT (R562). -/
def F.HDW_BOOT_STAT.SLOT : Fld := ⟨.HDW_BOOT_STAT, 3, 3⟩
/-- HDW_BOOT_STAT.FALLBACK (R562). -/
def F.HDW_BOOT_STAT.FALLBACK : Fld := ⟨.HDW_BOOT_STAT, 4, 4⟩
/-- HDW_BOOT_STAT.PATCH (R562). -/
def F.HDW_BOOT_STAT.PATCH : Fld := ⟨.HDW_BOOT_STAT, 5, 5⟩
/-- HDW_BOOT_STAT.HBM (R562). -/
def F.HDW_BOOT_STAT.HBM : Fld := ⟨.HDW_BOOT_STAT, 6, 6⟩
/-- HDW_BOOT_STAT.FENCED (R562). -/
def F.HDW_BOOT_STAT.FENCED : Fld := ⟨.HDW_BOOT_STAT, 23, 8⟩
/-- HDW_BOOT_STAT.TRAINED (R562). -/
def F.HDW_BOOT_STAT.TRAINED : Fld := ⟨.HDW_BOOT_STAT, 27, 24⟩
/-- HDW_FLASH_ADDR.ADDR (R563). -/
def F.HDW_FLASH_ADDR.ADDR : Fld := ⟨.HDW_FLASH_ADDR, 25, 0⟩
/-- HDW_FLASH_STAT.BUSY (R563). -/
def F.HDW_FLASH_STAT.BUSY : Fld := ⟨.HDW_FLASH_STAT, 0, 0⟩
/-- HDW_FLASH_STAT.REJ (R563). -/
def F.HDW_FLASH_STAT.REJ : Fld := ⟨.HDW_FLASH_STAT, 1, 1⟩
/-- HDW_FLASH_STAT.RESULT (R563). -/
def F.HDW_FLASH_STAT.RESULT : Fld := ⟨.HDW_FLASH_STAT, 3, 2⟩
/-- PCIE_CMD.MSE (R394). -/
def F.PCIE_CMD.MSE : Fld := ⟨.PCIE_CMD, 1, 1⟩
/-- PCIE_CMD.BME (R394). -/
def F.PCIE_CMD.BME : Fld := ⟨.PCIE_CMD, 2, 2⟩
/-- PCIE_CMD.SERR (R394). -/
def F.PCIE_CMD.SERR : Fld := ⟨.PCIE_CMD, 8, 8⟩
/-- PCIE_PMCSR.STATE (R394). -/
def F.PCIE_PMCSR.STATE : Fld := ⟨.PCIE_PMCSR, 1, 0⟩
/-- PCIE_MSIX_CTL.EN (R403). -/
def F.PCIE_MSIX_CTL.EN : Fld := ⟨.PCIE_MSIX_CTL, 31, 31⟩
/-- PCIE_MSIX_CTL.FMASK (R403). -/
def F.PCIE_MSIX_CTL.FMASK : Fld := ⟨.PCIE_MSIX_CTL, 30, 30⟩
/-- PCIE_MSIX_VCTL.MASK (R403). -/
def F.PCIE_MSIX_VCTL.MASK : Fld := ⟨.PCIE_MSIX_VCTL, 0, 0⟩
/-- PCIE_MSIX_PBA.PEND (R403). -/
def F.PCIE_MSIX_PBA.PEND : Fld := ⟨.PCIE_MSIX_PBA, 0, 0⟩
/-- PCIE_SRIOV.VFE (R391). -/
def F.PCIE_SRIOV.VFE : Fld := ⟨.PCIE_SRIOV, 0, 0⟩
/-- PCIE_SRIOV.NUMVFS (R391). -/
def F.PCIE_SRIOV.NUMVFS : Fld := ⟨.PCIE_SRIOV, 31, 16⟩
/-- PCIE_DEVCTL.NFERE (R395). -/
def F.PCIE_DEVCTL.NFERE : Fld := ⟨.PCIE_DEVCTL, 1, 1⟩
/-- PCIE_DEVCTL.URRE (R395). -/
def F.PCIE_DEVCTL.URRE : Fld := ⟨.PCIE_DEVCTL, 3, 3⟩
/-- PCIE_DEVCTL.ERO (R395). -/
def F.PCIE_DEVCTL.ERO : Fld := ⟨.PCIE_DEVCTL, 4, 4⟩
/-- PCIE_DEVCTL.MPS (R395). -/
def F.PCIE_DEVCTL.MPS : Fld := ⟨.PCIE_DEVCTL, 7, 5⟩
/-- PCIE_DEVCTL.MRRS (R395). -/
def F.PCIE_DEVCTL.MRRS : Fld := ⟨.PCIE_DEVCTL, 14, 12⟩
/-- PCIE_ATS.EN (R392). -/
def F.PCIE_ATS.EN : Fld := ⟨.PCIE_ATS, 31, 31⟩
/-- PCIE_RDY.RDY (R396). -/
def F.PCIE_RDY.RDY : Fld := ⟨.PCIE_RDY, 0, 0⟩
/-- PCIE_AER.UR (R410). -/
def F.PCIE_AER.UR : Fld := ⟨.PCIE_AER, 20, 20⟩
/-- PCIE_AER_MASK.UR (R410). -/
def F.PCIE_AER_MASK.UR : Fld := ⟨.PCIE_AER_MASK, 20, 20⟩
/-- PCIE_AER_SEV.UR (R410). -/
def F.PCIE_AER_SEV.UR : Fld := ⟨.PCIE_AER_SEV, 20, 20⟩
/-- NVME_CC.EN (R360). -/
def F.NVME_CC.EN : Fld := ⟨.NVME_CC, 0, 0⟩
/-- NVME_CC.SHN (R360). -/
def F.NVME_CC.SHN : Fld := ⟨.NVME_CC, 15, 14⟩
/-- NVME_CSTS.RDY (R360). -/
def F.NVME_CSTS.RDY : Fld := ⟨.NVME_CSTS, 0, 0⟩
/-- NVME_CSTS.CFS (R360). -/
def F.NVME_CSTS.CFS : Fld := ⟨.NVME_CSTS, 1, 1⟩
/-- NVME_CSTS.SHST (R360). -/
def F.NVME_CSTS.SHST : Fld := ⟨.NVME_CSTS, 3, 2⟩
/-- NVME_AQA.ASQS (R360). -/
def F.NVME_AQA.ASQS : Fld := ⟨.NVME_AQA, 11, 0⟩
/-- NVME_AQA.ACQS (R360). -/
def F.NVME_AQA.ACQS : Fld := ⟨.NVME_AQA, 27, 16⟩

end Sys2Proof.Machine
end

