-- ==== Sys2Proof/Machine/State.lean ====
section
/-! DEFINITION. The state of the block as plain data, its two stop types, and the state after module cold reset.
Every register of the manual lives in `regs` under its own name and index; the rest of the state the rules give the
device stands in one structure per unit. -/
namespace Sys2Proof.Machine

/-! ## What leaves the module -/

/-- What the block sends outside, or from unit to unit over the mesh, in the order sent. -/
inductive Msg where
  /-- A posted write to host memory: endpoint, function, address, bytes, and whether it carries the Relaxed Ordering attribute (R395). -/
  | hostWrite (ep fn addr : Nat) (bytes : List Byte) (relaxed : Bool)
  /-- A read request to host memory: endpoint, function, address, length. -/
  | hostRead (ep fn addr len : Nat) (relaxed : Bool)
  /-- An MSI-X message of a function: endpoint, function, vector, and the address and data of its table entry, written without the
  Relaxed Ordering attribute (R404, R405). -/
  | msix (ep fn vec addr : Nat) (data : Word)
  /-- An interrupt to the management engines from a trouble group (R536). -/
  | hdwInterrupt (grp : Nat)
  /-- A frame sent by a MAC, without its FCS; `good`: the FCS is right (R258, R471). -/
  | frame (p : MacPort) (bytes : List Byte) (good : Bool)
  /-- A pause or PFC frame: port, classes, quanta (R473). -/
  | pause (port : Nat) (classes quanta : Nat)
  /-- An LLDP message on a link, with its Slack TLV if it carries one (R480). -/
  | lldp (p : MacPort) (tlv : Option SlackTlv)
  /-- A Tide Table firing sent to the chiplets of a mask (R73). -/
  | firing (cls target : Nat) (f : Firing)
  /-- A coherence message (R167). -/
  | coh (kind board line : Nat)
  /-- An answer of firmware: SPDM, MCTP or a DOE object (R400, R519, R560). -/
  | answer (words : List Word)
  /-- An epoch mark to the key caches (R506). -/
  | epochMark
  /-- An ATS Invalidation Completion: endpoint, function, page (R392). -/
  | atsCompletion (ep fn page : Nat)
  /-- An error completion to a PCIe requester, by endpoint and function (R26, R399, R410). -/
  | unsupported (ep fn : Nat)
  /-- An ERR_NONFATAL message of a function (R410). -/
  | errNonFatal (ep fn : Nat)
deriving DecidableEq, Repr

/-- What the last bus access answered (R26, R28). -/
inductive Reply where
  | none
  | ok
  | data (w : Word)
  | bytes (b : List Byte)
  | busError
  | unsupportedRequest
  | configRetry
deriving DecidableEq, Repr

/-! ## Network time and the Tide Table (02) -/

/-- The network-time unit (R53 to R69). -/
structure TimeUnit where
  /-- Network time of the master in whole nanoseconds: seconds × 10⁹ + nanoseconds (48 + 32 bits, R53). -/
  now : Nat
  /-- The 32-bit sub-nanosecond remainder, in units of 2⁻³² ns (R54). -/
  sub : Nat
  /-- Headwater clocks since module cold reset (R67, R540 measure durations on it). -/
  tick : Nat
  /-- Nanoseconds still to slew (R54, R69). -/
  slew : Int
  /-- Network time from which the next nanosecond may be slewed (R54). -/
  slewNext : Nat
  /-- The sum of all steps applied, so that `now` less it counts slews but no steps (R297). -/
  stepSum : Int
  /-- The Headwater clock of the last step, plus one (R485). -/
  stepTick : Nat
  /-- A step that waits for its tide-cycle boundary (R69). -/
  step : Option Int
  /-- A tide-cycle boundary has been reached and is not processed yet (R85). -/
  boundary : Bool
  /-- The time of day is known (R62). -/
  todKnown : Bool
  /-- Network time of the previous valid PPS edge (R60). -/
  ppsLast : Option Nat
  /-- Consecutive valid PPS edges (R60). -/
  ppsGood : Nat
  /-- Consecutive missing or invalid PPS edges (R60). -/
  ppsBad : Nat
  /-- Consecutive phase measurements within ±100 ns, and the source they came from (R65). -/
  within : Nat
  withinSrc : TimeSource
  /-- The frequency correction that HOLDOVER uses without TREF10_IN: the mean before it was entered, or the correction in effect
  at the TIME_SET that ended FREE (R65, R67). -/
  holdFreq : Int
  /-- Frequency correction history, newest first: the Headwater clock it began and its value (R67). -/
  freqLog : List (Nat × Int)
  /-- The level of PPS_OUT (R63). -/
  ppsOut : Bool
  /-- The Headwater clock at which PPS_OUT rose (R63). -/
  ppsOutAt : Nat
  /-- domainNumber of the persistent configuration (R58). -/
  ptpDomain : BitVec 8
  /-- The state of each PTP port, by `macKey` (R59, R65). -/
  ptpPorts : Tbl PtpState
  /-- PTP messages dropped for another domain (R58). -/
  ptpDropped : Nat
deriving DecidableEq, Repr

/-- The firings a unit works in one class (R75). -/
structure UnitWork where
  /-- The firing being worked. -/
  work : Option Firing
  /-- The pending firing. -/
  pend : Option Firing
deriving DecidableEq, Repr

/-- An open ford window (R82): its class and the network time at which its length elapses. -/
structure FordWin where
  cls : Nat
  ends : Nat
deriving DecidableEq, Repr

/-- A firing on the mesh (R73): its class, the mask of chiplets it is sent to, what it carries, the units that have taken it, and
whether a step was applied at its boundary, before which it acts (R85). -/
structure SentFiring where
  cls    : Nat
  target : Nat
  f      : Firing
  took   : List Nat
  due    : Bool
deriving DecidableEq, Repr

/-- The Tide Table master and the units' firings (R70 to R87). -/
structure TideUnit where
  /-- c_last, −1 after module cold reset (R85). -/
  cLast : Int
  /-- The last two firings sent, newest first (R73). -/
  sent : List SentFiring
  /-- Work and pending firing by unit and class (R75); key `unitClassKey`. -/
  work : Tbl UnitWork
  /-- The open ford window of each unit (R84); key `unitCode`. -/
  ford : Tbl (Option FordWin)
  /-- The class that took the last background grant of each unit (R81). -/
  bgLast : Tbl Nat
  /-- Background grants given over foreground, by unit (R81). -/
  bgGrants : Tbl Nat
deriving DecidableEq, Repr

/-! ## Engines and threads (03, 04, 05) -/

/-- What a long stall waits for (R105, R106). -/
inductive Wait where
  /-- A vector (RECV, R137); the register that takes the handle and the local address are the operands. -/
  | recv (rd : BitVec 5) (addr : Nat)
  /-- Bits of EVT (EVWAIT, R137). -/
  | event (mask : Word)
  /-- A lookup result (R129). -/
  | lookup
  /-- The end of the thread's insert or delete, by its number in the queue of a modify pipe, or room in that queue (R221). -/
  | pipe (part num : Nat)
  | pipeRoom (part : Nat)
  /-- A round unit or its result (R122). -/
  | round
  /-- A key fetch of an index (R121). -/
  | key (index : BitVec 20)
  /-- A payload block (R127). -/
  | payload
  /-- Room in the payload write FIFO, or its emptiness (R127); `alone`: a PWAIT, which waits for nothing else (R196). -/
  | writes (alone : Bool)
  /-- The end of posted stores (R141, R166), or, `entry`, a posted-store entry (R104, R196). -/
  | stores (entry : Bool)
  /-- An enqueue credit (R163). -/
  | credit
  /-- A DMA channel (R135). -/
  | dma (ch : Nat)
  /-- A device or shared-state access or a policer: the answer is there (R116, R132). -/
  | unit
  /-- HNEW (R132): the register that takes the handle, the bytes, and whether the operand was tainted. -/
  | hnew (rd : BitVec 5) (n : Nat) (taint : Bool)
  /-- The Die's random buffer (R335). -/
  | die
  /-- Condition 0 of the WAIT microword at upc (R187). -/
  | micro
deriving DecidableEq, Repr

/-- The run state of a thread (R97, R105, R148). -/
inductive Run where
  | stopped
  | ready
  | stalled (w : Wait)
deriving DecidableEq, Repr

/-- A posted shared-state or device store that is not visible yet (R104), and the pc of its instruction (R143). -/
structure Posted where
  device : Bool
  addr   : Nat
  bytes  : List Byte
  pc     : BitVec 20
deriving DecidableEq, Repr

/-- A payload stream (R127): handle, next byte offset, blocks left to request from the cells. -/
structure Stream where
  handle : Word
  off    : Nat
  left   : Nat
deriving DecidableEq, Repr

/-- A posted payload write (R127): handle, offset, block, gated. -/
structure PayWrite where
  handle : Word
  off    : Nat
  block  : Block
  gated  : Bool
deriving DecidableEq, Repr

/-- The answer of a unit that is under way: its value for g[rd], the block for a block register, whether the instruction
read a tainted register (R129, R338), and the chiplet it comes from (R22). -/
structure LookAnswer where
  rd    : BitVec 5
  value : Word
  blk   : Option (BitVec 3 × Block)
  taint : Bool
  chip  : Nat
deriving DecidableEq, Repr

/-- The architectural state of one thread (R95 to R98), and what it has under way. -/
structure Thread where
  /-- g0 to g31, by number; g0 is never listed (R96). -/
  g : Tbl Word
  /-- b0 to b7. -/
  b : Tbl Block
  /-- pc, 20 bits. -/
  pc : BitVec 20
  /-- Sequential execution has passed the last word of the program store (R114). -/
  past : Bool
  run : Run
  /-- FAULTED of R158. -/
  faulted : Bool
  /-- INST (R98). -/
  inst : Word
  /-- SSEG.SEG (R98); reset 0x0010. -/
  sseg : BitVec 16
  /-- DSEG.SEG (R98). -/
  dseg : BitVec 16
  /-- CYCHI (R98). -/
  cychi : Word
  /-- NTSLO (R98). -/
  ntslo : Word
  /-- GATE.GATED (R98, R123). -/
  gated : Bool
  /-- GATE.FAILED (R98, R125). -/
  failed : Bool
  /-- EVT (R139). -/
  evt : Word
  /-- The handles the thread holds, at most four (R134). -/
  handles : List Word
  /-- Enqueue credits the thread's slot holds (R162). -/
  credHeld : Nat
  /-- The thread's enqueues in flight (R163). -/
  credFlight : Nat
  /-- Buffers of the thread's share (R164). -/
  bufHeld : Nat
  /-- Posted shared-state and device stores, oldest first, at most eight (R104). -/
  posted : List Posted
  stream : Option Stream
  /-- The payload read FIFO, at most 16 blocks (R127); none for a block of an uncorrectable cell (R258). -/
  fifo : List (Option Block)
  /-- The payload write FIFO, at most 16 blocks, oldest first (R127). -/
  wfifo : List PayWrite
  /-- Mask of block registers whose round-unit result is not there yet (R122). -/
  bBusy : BitVec 8
  look : Option LookAnswer
  /-- Mask of tainted general registers (R338). -/
  taint : BitVec 32
  /-- Gated cluster buffers charged to the thread, by address (R340), and those of them whose free waits (R340). -/
  gbufs : List Nat
  gfree : List Nat
  /-- The micro program counter and the micro return stack, newest first, at most four entries (R182). -/
  upc : BitVec 13
  mstack : List (BitVec 13)
  /-- The instruction whose microwords run: its pc and its word as fetched (R183); none before the next DISPATCH. -/
  instr : Option (BitVec 20 × Word)
  /-- The instruction at pc has been dispatched and has stalled long since (R105, R196). -/
  begun : Bool
  /-- STALL of the microword that began the thread's last long stall: the class reported to the thread switch (R186). -/
  stallCls : BitVec 4
deriving DecidableEq, Repr

/-- A round unit at work (R122): its thread, unless a thread reset discarded the result (R97), destination, result. -/
structure RoundWork where
  th  : Option Nat
  bd  : BitVec 3
  res : Block
deriving DecidableEq, Repr

/-- An entry of a cluster's fault queue (R157, R178). -/
structure FaultEntry where
  th    : Nat
  cause : BitVec 8
  trap  : BitVec 8
  pc    : BitVec 20
deriving DecidableEq, Repr

/-- A request in a home queue (R168, R169). -/
inductive CohReq where
  | rds | rdo | upg
deriving DecidableEq, Repr

/-- The state of a line in a shared-state cache (R167); I is not listed. -/
inductive LineState where
  | i | s | e | m
deriving DecidableEq, Repr

/-- The home's record of a line (R167). -/
inductive DirEntry where
  | uncached
  | shared (mask : BitVec 8)
  | owned (board : BitVec 3)
deriving DecidableEq, Repr

/-- The transaction the home serves for a line (R169): requester, request, whether it asks by FETCH (else by INV), the
Boards to which that is not sent yet, the Boards whose answer is still awaited. -/
structure HomeTxn where
  board : BitVec 3
  req   : CohReq
  fetch : Bool
  send  : BitVec 8
  await : BitVec 8
deriving DecidableEq, Repr

/-- A home's queue for one line: the open transaction and the requests that wait (R169). -/
structure HomeLine where
  txn  : Option HomeTxn
  wait : List (BitVec 3 × CohReq)
deriving DecidableEq, Repr

/-- Engines, threads, their memories, and the coherence of the shared-state space. -/
structure EngineUnit where
  /-- Threads by number: ((board × 8 + cluster) × 64 + engine) × 8 + t; 32,768 + 8m + t on management engine m. -/
  thr : Tbl Thread
  /-- Shared registers sh0 to sh7, key engine × 8 + n (R95). -/
  sh : Tbl Word
  /-- Round units, key engine × 2 + unit (R122). -/
  round : Tbl (Option RoundWork)
  /-- The thread each engine issues from (R148). -/
  cur : Tbl Nat
  /-- Local memory, key engine × 32768 + offset (R100). -/
  localMem : Tbl Byte
  /-- Cluster memory, key cluster × 4 MiB + offset (R100). -/
  clusterMem : Tbl Byte
  /-- Program store words, key cluster × 262144 + index (R152). -/
  pstore : Tbl Word
  /-- Fault queues, by cluster, oldest first, at most 16 (R157). -/
  faults : Tbl (List FaultEntry)
  /-- Cluster buffers charged: by cluster, (address, thread) of each allocated buffer; thread none for another agent (R164). -/
  bufs : Tbl (List (Nat × Option Nat))
  /-- A CLU_CREDIT_CTL write that waits for the in-flight book, by cluster (R165). -/
  creditPend : Tbl (Option Word)
  /-- The cluster that took a Board's last vector (R151). -/
  recvTurn : Tbl Nat
  /-- CLU_THREAD_CMD writes that wait for the end of a patch reload, by cluster: thread and CMD, oldest first (R199). -/
  cmdPend : Tbl (List (Nat × Nat))
  /-- Engine clocks since module reset, in twentieths of one (R98, R524). -/
  clk : Nat
deriving DecidableEq, Repr

/-- A set of microcode words (R181, R190): microstore, nanostore and match table; unlisted words are zero. -/
structure MicroStore where
  micro : Tbl (BitVec 24)
  nano  : Tbl (BitVec 128)
  mtch  : Tbl Word
deriving DecidableEq, Repr

/-- A microcode version (R204): the image's MAJOR, MINOR, PATCH and PATCH_ID, its stores, and the SHA-384 digests of its base image and
its patch (R522). -/
structure MicroCode where
  major   : BitVec 8
  minor   : BitVec 8
  patch   : BitVec 16
  patchId : Word
  words   : MicroStore
  sums    : List Byte × List Byte
deriving DecidableEq, Repr

/-- Microcode (R181 to R206): the master copy, the copy that an apply replaces while it runs (R195), the image that verify
accepted, and each cluster's stores. -/
structure MicroUnit where
  master : MicroCode
  old    : Option MicroCode
  image  : Option MicroCode
  store  : Tbl MicroStore
  /-- Clusters that the apply at work has tried (R195). -/
  tried  : List Nat
  /-- Clusters whose refresh waits for the end of a reload (R203). -/
  later  : List Nat
deriving DecidableEq, Repr

/-- HBM and the homes of its lines (R18, R19, R167 to R174). -/
structure HbmUnit where
  /-- HBM bytes by offset from 0x10_0000_0000; unlisted bytes are zero (R19). -/
  mem : Tbl Byte
  /-- Poisoned lines by line number (R174). -/
  poison : Tbl Bool
  /-- Shared-state cache lines, key line × 8 + board (R167). -/
  cache : Tbl LineState
  /-- Directory entries by line number (R167). -/
  dir : Tbl DirEntry
  /-- Home queues by line number (R169). -/
  home : Tbl HomeLine
  /-- Absorbed writebacks whose ACK_WB is not sent yet: board and line, oldest first (R169). -/
  acks : List (Nat × Nat)
  /-- Lines that a Board has received and whose requesting access it has still to complete (R170), key line × 8 + board: 1 for a
  read, 2 for a write. -/
  due : Tbl Nat
deriving DecidableEq, Repr

/-! ## Confluence (07) and the scheduler (08) -/

/-- The transmit descriptor a frame came from: instance, queue, index, and GEN at its fetch (R427, R453). -/
structure DescRef where
  inst : Nat
  q    : Nat
  idx  : Nat
  gen  : Nat
deriving DecidableEq, Repr

/-- A handle's frame record and bytes (R254). -/
structure FrameRec where
  tag   : BitVec 8
  /-- The handle's cells in order, FIRST at the head: what the cells' link entries say. -/
  chain : List Nat
  /-- The cells that trimming took off the front (R266): byte o of the handle lies in cell o / 256 − base of the chain. -/
  base  : Nat
  /-- Reference count, 0 while not committed (R275). -/
  refs  : Nat
  /-- The Board that holds the handle, until its enqueue or drop reaches Confluence (R254, R262). -/
  board : Option Nat
  /-- The thread that holds the handle, if one does. -/
  owner : Option Nat
  input : Input
  seq   : Nat
  /-- Bank and steering entry of the vector that brought the handle (R30, R35). -/
  slot  : Option (Nat × Nat)
  /-- Offset and length of the frame as its writer placed it (R256). -/
  head  : Nat
  len   : Nat
  /-- The bytes of the cells from offset 0. -/
  bytes : List Byte
  /-- The gated cells, numbered from the handle's first (R339). -/
  gated : List Nat
  /-- Commit instant, bits [35:4] of network time (R310). -/
  stamp : Nat
  /-- Committed to a queue or to replication. -/
  committed : Bool
  /-- The class of a frame that a network port received (R473). -/
  cls   : Nat
  /-- The transmit descriptor of the frame, if it came from a ring. -/
  desc  : Option DescRef
  /-- TS_SEC and TS_NS of the header vector, if its TS is 1 (R427). -/
  ts    : Option (Nat × Nat)
deriving DecidableEq, Repr

/-- The cell count of a frame record (R254). -/
def FrameRec.cells (f : FrameRec) : Nat := f.chain.length

/-- A frame or copy in a queue or an output (R266, R277, R279): FIRST of the frame, head offset, copy length, prepend. -/
structure QEntry where
  first : Nat
  head  : Nat
  len   : Nat
  prep  : Nat
  eddy  : Bool
deriving DecidableEq, Repr

/-- A frame that the scheduler released to an output (R292): its entry, class, egress queue, marked to be CE (R311). -/
structure OutItem where
  e     : QEntry
  cls   : Nat
  queue : Nat
  ecn   : Bool
deriving DecidableEq, Repr

/-- What waits in a commit slot (R263). -/
inductive CommitKind where
  | enq (qword : Word)
  | enqm (group : BitVec 16)
  | drop (reason : BitVec 8)
  /-- A number retired without a frame (R262, R453). -/
  | retired
deriving DecidableEq, Repr

/-- An enqueue, drop or retired number that waits for its turn (R263). -/
structure CommitSlot where
  seq    : Nat
  kind   : CommitKind
  handle : Word
  fword  : Word
  /-- The thread whose credit the enqueue used. -/
  th     : Option Nat
deriving DecidableEq, Repr

/-- The numbers of one input (R33, R263 to R265). -/
structure InputSt where
  /-- Next number the Bank stamps. -/
  stamp : Nat
  /-- Next number to retire. -/
  next  : Nat
  wait  : List CommitSlot
deriving DecidableEq, Repr

/-- A committed ENQM frame that waits for replication (R274). -/
structure ReplJob where
  first : Nat
  group : BitVec 16
  head  : Nat
  len   : Nat
  input : Input
deriving DecidableEq, Repr

/-- A depth change of a spill that has not landed (R260): queue, cells of the depth, the cells that left their frame. -/
structure SpillLand where
  queue : Nat
  depth : Nat
  chain : List Nat
deriving DecidableEq, Repr

/-- Cells that the queued book still counts. -/
def SpillLand.cells (l : SpillLand) : Nat := l.chain.length

/-- The cell books (R259, R260). -/
structure Books where
  free     : Nat
  pipe     : Nat
  queued   : Nat
  reclaim  : Nat
  spilling : Nat
deriving DecidableEq, Repr

/-- Confluence (R254 to R285). -/
structure ConfluenceUnit where
  books : Books
  /-- The cells that are not free, and among them those in reclaim whose queued book has dropped, oldest first (R259, R260). -/
  taken : List Nat
  rcl   : List Nat
  /-- Frame records by FIRST (R254). -/
  frames : Tbl (Option FrameRec)
  /-- TAG of each first cell (R255). -/
  tags : Tbl (BitVec 8)
  /-- Inputs by `inputKey`. -/
  inputs : Tbl InputSt
  /-- Egress queues, head first. -/
  queues : Tbl (List QEntry)
  /-- Lists of spill-eligible queues by class (R270). -/
  spillLists : Tbl (List Nat)
  lands : List SpillLand
  repl : List ReplJob
  /-- Drops by reason (R132). -/
  reasons : Tbl Nat
  /-- Drops of each attach link's frames by reason (R41); key link × 256 + reason. -/
  linkDrops : Tbl Nat
  /-- Candidates counted by each Eddy session (R279). -/
  eddy : Tbl Nat
  /-- The interval's watch for the admission policy (R268): a refusal above 524,288; below 131,072. -/
  admRefused : Bool
  admLow : Bool
  /-- The interval's watch for the congestion policy (R312): below 131,072; not always above 524,288; a mark. -/
  ecnLow : Bool
  ecnDip : Bool
  ecnMark : Bool
deriving DecidableEq, Repr

/-- The buckets of a scheduler node or policer (R297 to R302), in millibytes. -/
structure Buckets where
  tc   : Int
  tp   : Int
  remC : Nat
  remP : Nat
  last : Nat
  /-- Debits that have not landed, oldest first, in bytes (R299). -/
  debits : List Nat
deriving DecidableEq, Repr

/-- An operational gate list's timing (R304, R306). -/
structure GateList where
  base  : Nat
  cycle : Nat
  len   : Nat
deriving DecidableEq, Repr

/-- The gate lists of a port (R306): the operational timing, and the change instant with the boundary of the firing that
took the port. -/
structure GatePort where
  oper   : GateList
  change : Option (Nat × Nat)
deriving DecidableEq, Repr

/-- A pass of a Gauge ring (R313): its start, and the samples still to write. -/
structure GaugePass where
  start : Nat
  index : Nat
  left  : Nat
  header : Bool
deriving DecidableEq, Repr

/-- The scheduler, shapers, policers, gates and Gauge (R287 to R323). -/
structure SchedUnit where
  /-- Virtual times, key node × 8 + band; nodes as `nodeKey`, ports from 2²⁰ (R293). -/
  vtime : Tbl Nat
  /-- Start tags: queues by number, nodes from 2²⁰ (R293). -/
  tag : Tbl Nat
  /-- Children that were eligible when last examined (R295). -/
  awake : Tbl Bool
  /-- Buckets of subscriber (n) and service (65,536 + n) nodes. -/
  node : Tbl Buckets
  /-- Buckets of policers. -/
  pol : Tbl Buckets
  /-- A PARENT and BAND that wait: queues by number, nodes from 2²⁰ (R290). -/
  parentPend : Tbl (Option (Nat × Nat))
  /-- Frames released to each output, by port node, oldest first (R292). -/
  outq : Tbl (List OutItem)
  gate : Tbl GatePort
  gauge : Tbl (Option GaugePass)
  /-- Passes started, by Gauge ring (R314). -/
  passes : Tbl Nat
  /-- The instant of network time up to which the passes of each Gauge ring are started or skipped (R313). -/
  gaugeAt : Tbl Nat
  /-- The Gauge ring that wrote the last record (R313). -/
  gaugeTurn : Nat
deriving DecidableEq, Repr

/-! ## Lookup (06) -/

/-- A vector in intake (R209): its bytes, handle, input, steering entry. -/
structure Vector_ where
  bytes  : List Byte
  handle : Word
  input  : Input
  gen    : Nat
  entry  : Nat
  /-- A learn is still to be done (R227). -/
  learn  : Bool
  /-- The sequence number has been stamped (R264). -/
  stamped : Bool
deriving DecidableEq, Repr

/-- Bank intake (R29 to R31, R212, R213). -/
structure IntakeUnit where
  /-- Intake queues, key bank × 8 + board. -/
  queue : Tbl (List Vector_)
  /-- Side buffers by bank: (board, vector) (R213). -/
  side : Tbl (List (Nat × Vector_))
  /-- Credits each Bank has given away, key bank × 8 + board (R30): in flight to the Board, held there, in return. -/
  flight : Tbl Nat
  held : Tbl Nat
  returning : Tbl Nat
  /-- Vectors on the mesh to a Board, oldest first. -/
  mesh : Tbl (List Vector_)
  /-- Vectors at a Board that wait for a thread, oldest first. -/
  board : Tbl (List Vector_)
deriving DecidableEq, Repr

/-- A Dice entry (R216). -/
structure DiceEntry where
  static : Bool
  hit    : Bool
  stale  : Bool
  mark   : Bool
  table  : BitVec 12
  owner  : BitVec 16
  key    : List Byte
  value  : List Byte
deriving DecidableEq, Repr

/-- A Dice command that has been started (R229), by command block: its operation, key, value and CMD_ARG as they stood, and
for a PURGE the buckets visited in each partition. -/
structure DiceCmd where
  op      : Nat
  key     : List Byte
  val     : List Byte
  arg     : Word
  visited : Tbl Nat
deriving DecidableEq, Repr

/-- An operation in a modify pipe's foreground queue (R221): an insert or a delete of a thread, with the number by which the thread
waits, g[rd], whether the instruction read a tainted register, table, instance, key and value; or the command of a block. -/
inductive PipeOp where
  | ins (th num : Nat) (rd : BitVec 5) (taint : Bool) (t inst : Nat) (key val : List Byte)
  | del (th num : Nat) (rd : BitVec 5) (taint : Bool) (t : Nat) (key : List Byte)
  | cmd (i : Nat)
deriving DecidableEq, Repr

/-- An audit of a Sounding auditor (R234, R235): the table; once the shadow's head is read, GEN, the byte offset and the count of
the table's records; the record that comes next; the partitions whose epoch is flipped; CHANGES of each partition at c0; what it
counted; and whether a change voids it. -/
structure Audit where
  table     : Nat
  started   : Bool
  gen       : Word
  off       : Nat
  count     : Nat
  next      : Nat
  flips     : BitVec 8
  changes   : List Nat
  missing   : Nat
  different : Nat
  matched   : Nat
  inserted  : Nat
  discard   : Bool
deriving DecidableEq, Repr

/-- The insert tokens of an instance on a Board (R451): tokens, remainder in units of 10⁻⁹ of one, last refill. -/
structure InsTokens where
  tokens : Nat
  rem    : Nat
  last   : Nat
deriving DecidableEq, Repr

/-- A prefix of Delta (R245): family (IPv6), VRF, length, address, result. -/
structure Prefix where
  v6     : Bool
  vrf    : Nat
  len    : Nat
  addr   : Nat
  result : Nat
deriving DecidableEq, Repr

/-- Dice, flow table and Delta (R214 to R252). -/
structure LookupUnit where
  /-- Slots, key (board × 131,072 + bucket) × 4 + slot. -/
  slots : Tbl (Option DiceEntry)
  /-- Bar entries (parked), key board × 8 + x (R222). -/
  bar : Tbl (Option DiceEntry)
  /-- Commands at work, key board × 2 + block. -/
  cmd : Tbl (Option DiceCmd)
  /-- Buckets a Dredge firing has still to visit, by board (R230). -/
  dredge : Tbl Nat
  /-- In this interval a relocation reached the limit with PARKED ≥ 4, by board (R225). -/
  limitHit : Tbl Bool
  /-- In this interval a relocation needed more than half the limit, by board (R225). -/
  overHalf : Tbl Bool
  /-- Consecutive quiet intervals, by board (R225). -/
  quiet : Tbl Nat
  /-- Audits by bank (R235). -/
  audit : Tbl (Option Audit)
  /-- The last table each auditor audited (R233). -/
  auditLast : Tbl Nat
  /-- Flow LAST and PKTS not yet written back, by entry (R242). -/
  flowDirty : Tbl (Option (Word × Word))
  /-- Delta prefixes, newest first (R245). -/
  delta : List Prefix
  /-- The update that runs: DLT_CMD word, address, result (R247). -/
  deltaCmd : Option (Word × Nat × Nat)
  /-- Insert tokens, key board × 32,800 + instance (R451). -/
  insTok : Tbl InsTokens
  /-- The foreground queue of each modify pipe, oldest first, at most 256 (R221), and the number of the next thread's operation. -/
  pipe : Tbl (List PipeOp)
  pipeNext : Nat
deriving DecidableEq, Repr

/-! ## Rings (12) -/

/-- How far a fetched descriptor is (R421 to R427): fetched, its data read under way, its frame under way, or done. -/
inductive DescSt where
  | ready
  | reading
  | busy
  | done (code flen reason : Nat)
deriving DecidableEq, Repr

/-- A fetched descriptor: its index, DW0 to DW3 (none for a failed fetch), its state, and its timestamp (R427). -/
structure RingDesc where
  idx   : Nat
  words : Option (List Word)
  st    : DescSt
  ts    : Option (Nat × Nat)
  /-- The cells and the headroom of a transmit data read under way (R257). -/
  cells : List Nat
  head  : Nat
deriving DecidableEq, Repr

/-- A ring: T, F and H (R418), its fetched descriptors in index order, the descriptors of the outstanding fetch, the
credit of the service-mode round (R429), the pending doorbell (R450). -/
structure Ring where
  t      : Nat
  f      : Nat
  h      : Nat
  desc   : List RingDesc
  fetch  : Option Nat
  credit : Nat
  pend   : Option Nat
deriving DecidableEq, Repr

/-- A token bucket of an instance: tokens in thousandths, remainder, last refill (R448, R450). -/
structure TokBucket where
  tok  : Int
  rem  : Nat
  last : Nat
deriving DecidableEq, Repr

/-- The rings (R415 to R429): key (instance × 64 + queue) × 2, plus 1 for a receive ring. -/
structure RingUnit where
  ring : Tbl Ring
  /-- The ring last served in the service-mode round, by instance (R429). -/
  last : Tbl Nat
  /-- The transmit byte, transmit frame and doorbell buckets, by instance (R448, R450). -/
  bytes  : Tbl TokBucket
  frames : Tbl TokBucket
  bells  : Tbl TokBucket
  /-- Deficits, by instance, and the instance whose turn it is, by endpoint (R449). -/
  deficit : Tbl Nat
  turn    : Tbl Nat
  /-- The instance that took the last receive fetch, by endpoint (R449). -/
  rxTurn  : Tbl Nat
  /-- Requests of a ring that are outstanding and whose descriptor was forgotten by a reset or a freeze (R456, R458), by ring key; of
  descriptors twice the key, of transmit data one above. -/
  orphan  : Tbl Nat
deriving DecidableEq, Repr

/-! ## Storage (10) -/

/-- Where a busy command slot stands (R366 to R380): its entry fetched, held, with a thread, a Flush that waits, an event
request that waits, or completed and waiting for its completion entry: DW0, SCT, SC, DNR. -/
inductive SlotSt where
  | fetched
  | held
  | sent
  | flush
  | event
  | ended (dw0 sct sc dnr : Nat)
deriving DecidableEq, Repr

/-- A busy command slot (R366): instance, submission queue, command identifier, submission-queue head, the entry's 16
words, the order of its fetch on the Bank, the namespace once it is checked (R367, R373), the extent writes made before its
translation (R374), the extents it names. -/
structure StoSlot where
  inst  : Nat
  q     : Nat
  cid   : Nat
  sqhd  : Nat
  entry : List Word
  order : Nat
  ns    : Option Nat
  epoch : Option Nat
  /-- The cells of the entry, and the headroom when they were taken (R257, R366). -/
  cells : List Nat
  head  : Nat
  exts  : List Nat
  st    : SlotSt
deriving DecidableEq, Repr

/-- A command slot: SGEN, the command if it is busy, the instance whose reset quarantined it (R366, R380). -/
structure StoCell where
  sgen : BitVec 4
  cmd  : Option StoSlot
  quar : Option Nat
deriving DecidableEq, Repr

/-- A bound NVMe queue pair of an instance (R363, R364): parameters of both queues (base, size), the completion queue's
vector and interrupt enable, the submission queue's completion queue, indices, phase tag, pending tail, credit. -/
structure NvmeQueue where
  sq     : Option (Nat × Nat)
  cq     : Option (Nat × Nat)
  vec    : Nat
  ien    : Bool
  cqid   : Nat
  tail   : Nat
  head   : Nat
  cqTail : Nat
  cqHead : Nat
  phase  : Bool
  pend   : Option Nat
  credit : Nat
deriving DecidableEq, Repr

/-- What an NVMe controller holds beside its registers (R362): the Number of Queues and Asynchronous Event Configuration
values, notices not yet sent, NSIDs for the Changed Namespace List, the queue last served and the rest of its burst. -/
structure NvmeCtl where
  nq      : Word
  aec     : Word
  notices : Nat
  changed : List Nat
  last    : Nat
  run     : Nat
deriving DecidableEq, Repr

/-- The storage front ends (R357 to R383). -/
structure StorageUnit where
  /-- Command slots, key bank × 16,384 + slot. -/
  slots : Tbl StoCell
  /-- Fetches made, by bank. -/
  order : Tbl Nat
  /-- Extent writes made by any Bank. -/
  epoch : Nat
  /-- Hold queues, by bank, oldest first (R369). -/
  hold  : Tbl (List Nat)
  /-- Allocation events, by bank, oldest first (R369). -/
  evq   : Tbl (List Nat)
  /-- Allocated staging buffers, key bank × 65,536 + buffer (R377). -/
  stage : Tbl Bool
  /-- Queues, key instance × 128 + queue. -/
  queue : Tbl NvmeQueue
  /-- Controllers by instance. -/
  ctl   : Tbl NvmeCtl
deriving DecidableEq, Repr

/-! ## Keys, the Die and the sequence unit (09) -/

/-- A key-table entry (R328): attributes and 32 key bytes. -/
structure KeyEntry where
  valid : Bool
  long  : Bool
  enc   : Bool
  dec   : Bool
  gate  : Bool
  ver   : BitVec 8
  owner : BitVec 16
  key   : List Byte
deriving DecidableEq, Repr

/-- A way of a key cache's set (R333, R506): `used`, used since the previous epoch mark. -/
structure KeyWay where
  index : Nat
  entry : KeyEntry
  used  : Bool
deriving DecidableEq, Repr

/-- A key-table command as its KEY_TBL_CMD write found the registers (R330). -/
structure KeyCmd where
  op   : Nat
  idx  : Nat
  attr : Word
  key  : List Byte
deriving DecidableEq, Repr

/-- Keys and the sequence unit. -/
structure KeyUnit where
  /-- KTK (R328), 32 bytes, if it has been drawn. -/
  ktk : Option (List Byte)
  /-- Pinned entries 1 to 4,095, as every Board's key cache holds them (R329). -/
  pinned : Tbl (Option KeyEntry)
  /-- Sets of the key caches, key board × 1,024 + set, most recently used way first (R333). -/
  cache : Tbl (List KeyWay)
  /-- Key fetches under way: board and index (R333). -/
  fetch : List (Nat × Nat)
  /-- The command at work (R330). -/
  cmd : Option KeyCmd
  /-- The latches hi(x) of CFL_SQ_HI, by requester (R347). -/
  sqHi : Tbl Word
  /-- The sequence event queue, oldest first: counter, exhausted (R350). -/
  sqEvq : List (Nat × Bool)
  /-- Scheduled revokes: counter, index, version (R349). -/
  sqRevoke : List (Nat × Nat × Nat)
  /-- Bits in the random buffers, at most 8,192: of each Board, then of Confluence and of Headwater (R334). -/
  rnd : Tbl Nat
  /-- Values the DRBG has given since it was seeded, and the Headwater clock of that (R334). -/
  gens : Nat
  seeded : Nat
deriving DecidableEq, Repr

/-! ## DMA channels (12) -/

/-- A descriptor in a channel's active or shadow set (R430 to R441): its words, the thread that loaded it and its INST, whether
it is a gated transfer (R341) and whether its gate has failed (R343), whether its translation is done and the copy goes downward
(R437), the bytes written, and its end if that is held. -/
structure DmaDesc where
  words   : List Word
  th      : Nat
  inst    : Word
  gated   : Bool
  failed  : Bool
  started : Bool
  down    : Bool
  moved   : Nat
  held    : Option (Nat × Nat)
deriving DecidableEq, Repr

/-- A DMA channel (R430, R439): both sets, and CODE, SIDE, MORE. -/
structure DmaCh where
  act  : Option DmaDesc
  shd  : Option DmaDesc
  code : Nat
  side : Nat
  more : Bool
  wait : Bool
deriving DecidableEq, Repr

/-! ## Links (14) -/

/-- A Slack water schedule (R479 to R481), in ns; `start` is a window index. -/
structure SlackSched where
  p     : Nat
  o     : Nat
  d     : Nat
  g     : Nat
  start : Nat
  skip  : Nat
deriving DecidableEq, Repr

/-- A window of a link (R482 to R485): its index, when it began with steps of network time excluded, its end in network
time, whether the transmitter has restarted and the window has ended, what the receiver has judged and seen, and whether
network time stepped meanwhile. -/
structure SlackWin where
  m       : Nat
  began   : Nat
  ends    : Nat
  woken   : Bool
  ended   : Bool
  judged  : Bool
  aligned : Bool
  stepped : Bool
deriving DecidableEq, Repr

/-- The Slack water state of a link. -/
structure SlackSt where
  /-- The offer that awaits its ACCEPT (proposer). -/
  offer  : Option SlackSched
  /-- The accepted schedule, which this side keeps from window START on. -/
  agreed : Option SlackSched
  win    : Option SlackWin
  /-- PLACE that the partner's last TLV gave (R481). -/
  place  : Option Nat
deriving DecidableEq, Repr

/-- The credit books of an attach link (R490 to R493): cumulative return sent or due, credits due and unsent, the last
CREDIT received since link-up, data frames sent since link-up. -/
structure CredBook where
  ret  : Nat
  due  : Nat
  last : Option Nat
  sent : Nat
deriving DecidableEq, Repr

/-- One link in a discovery walk (R496). -/
structure DiscRec where
  up       : Bool
  answered : Bool
  fenced   : Bool
  slack    : Bool
  roles    : Nat
  boardId  : Nat
  ver      : Nat
deriving DecidableEq, Repr

/-- A discovery walk at work (R496, R497): the link it probes, probes sent there, the records so far. -/
structure DiscWalk where
  next    : Nat
  probes  : Nat
  recs    : List DiscRec
  changed : Bool
  rerun   : Bool
deriving DecidableEq, Repr

/-- The MACs' own state; key 0 to 255 network ports, 256 + a attach links. -/
structure LinkUnit where
  /-- Transmit stamps: TSID, nanoseconds, seconds; oldest first, at most 64 (R477). -/
  txts  : Tbl (List (Nat × Nat × Nat))
  /-- Classes of a port for which XOFF was sent last (R473). -/
  xoff  : Tbl (BitVec 8)
  /-- A port is in low-power idle (R478). -/
  lpi   : Tbl Bool
  cred  : Tbl CredBook
  slack : Tbl SlackSt
  walk  : Option DiscWalk
  /-- BOARD_ID that the last answer of each attach link gave, plus one (R497). -/
  known : Tbl Nat
deriving DecidableEq, Repr

/-! ## Trouble reporting (16) -/

/-- An entry of a history or of the trouble log: four 64-bit words (R532). -/
structure LogEntry where
  w0 : DWord
  w1 : DWord
  w2 : DWord
  w3 : DWord
deriving DecidableEq, Repr

/-- The trouble-log unit and the units' append limits (R538 to R540). -/
structure TroubleUnit where
  /-- The append queue, oldest first; at most 256 entries (R538). -/
  queue : List LogEntry
  /-- Headwater clock of the last append of each unit and code, plus one (R540); key unit × 65536 + code. -/
  lastAppend : Tbl Nat
  /-- Events of each unit and code since then (R540). -/
  repeats : Tbl Nat
deriving DecidableEq, Repr

/-! ## The module as a whole (00, 01, 17) -/

/-- An entry of the unit description table (R401): the unit's kind, chiplet and index, FENCED at start-up, and its base. -/
structure UdtEntry where
  kind   : Nat
  chip   : Nat
  index  : Nat
  fenced : Bool
  base   : Nat
deriving DecidableEq, Repr

/-- What a policy's last adaptive change found (R47, R50): the Headwater clock of the change, plus one, the words of POL_CUR and
POL_CTL before it, and the clock of the last software write of POL_CTL or POL_MAN, plus one. -/
structure PolTurn where
  changed : Nat
  cur     : Word
  ctl     : Word
  written : Nat
deriving DecidableEq, Repr

/-- A policy that has neither changed nor been written. -/
def noTurn : PolTurn := { changed := 0, cur := 0, ctl := 0, written := 0 }

/-- Place, fences and links of the module (R2 to R6, R14, R22). -/
structure Platform where
  /-- DOMAIN, SLED and MODULE: bits [35:16] of the place code (R2, R5). -/
  place : BitVec 20
  /-- The same bits as the strap pins gave them at module cold reset (R5). -/
  straps : BitVec 20
  /-- Mask of chiplets unreachable through a failed mesh link (R22). -/
  linkFailed : BitVec 16
  /-- Retries of each mesh link (R22), by chiplet. -/
  retries : Tbl Nat
  /-- Start-up after a module cold reset has not reached SERVICE yet (R79). -/
  coldBoot : Bool
  /-- The steering move pointer of each Bank (R577). -/
  movePtr : Tbl Nat
  /-- Words that hold an ECC error, key trouble group × 2⁴⁸ + address: 1 correctable, 2 uncorrectable, plus 2 if it was
  injected (R544 to R546). -/
  ecc : Tbl Nat
  /-- Endpoints, network ports and attach links that failed the start-up tests and stay disabled (R558). -/
  epBad : BitVec 32
  portBad : BitVec 256
  linkBad : BitVec 32
  /-- Subsystem ID (R389). -/
  subsystem : BitVec 16
  /-- The DOE answer that a function holds, by function (R393). -/
  doe : Tbl (List Word)
  /-- The ATS translations an endpoint holds, oldest first, at most 4,096 (R392): function, page, physical page. -/
  ats : Tbl (List (Nat × Nat × Nat))
  /-- Invalidations whose completion waits for requests under the translation (R392), oldest first: endpoint, function, page. -/
  atsWait : List (Nat × Nat × Nat)
  /-- Scrub cursors in bytes, by unit (R545); key `unitCode`. -/
  scrub : Tbl Nat
  /-- The unit description table (R401). -/
  udt : List UdtEntry
  /-- The last change of each policy (R47, R50). -/
  polTurn : Tbl PolTurn
deriving DecidableEq, Repr

/-- Whether the module runs, is in Hold, or is Off (R523); Active, Trim and Drowse are HDW_PWR_STAT.STATE. -/
inductive Power where
  | on
  | hold
  | off
deriving DecidableEq, Repr

/-- A copy write of the vault that runs (R511): record, copy, the copy's bytes. -/
structure CopyWrite where
  rid   : Nat
  copy  : Nat
  bytes : List Byte
deriving DecidableEq, Repr

/-- Persistent memories, lifecycle, debug and power (R501 to R530, R552 to R563). -/
structure TrustUnit where
  /-- The MRAM by offset (R507); unlisted bytes are zero. -/
  mram : Tbl Byte
  /-- The SPI flash by byte address (R555); unlisted bytes are 0xFF. -/
  flash : Tbl Byte
  /-- LC[2:0] as burned (R502). -/
  fuses : BitVec 3
  /-- A flash slot is in use; HDW_BOOT_STAT.SLOT names it (R554, R560). -/
  slot : Bool
  /-- The copy of each record in use (R510). -/
  inUse : Tbl (Option Nat)
  /-- Pending commits: payload by record (R512). -/
  pend : Tbl (Option (List Byte))
  /-- The copy write that runs (R511). -/
  copy : Option CopyWrite
  /-- The nonce of HDW_LC_NONCE is current (R516). -/
  nonce : Bool
  /-- KIND of the accepted token whose effect is still to come (R516). -/
  accepted : Option Nat
  /-- RID, NOT_AFTER and DIGEST of the last accepted token (R515). -/
  tokRid : Nat
  notAfter : Nat
  digest : List Byte
  /-- Headwater clock at which the debug level was set (R518). -/
  since : Nat
  /-- The vault write a token allows: record, digest, Headwater clock of the acceptance (R517). -/
  write : Option (Nat × List Byte × Nat)
  /-- Intrude in Deployed has frozen the instances and waits (R520). -/
  intruding : Bool
  power : Power
  /-- Drowse is commanded (R523). -/
  drowse : Bool
  /-- A power command that waits for the end of a lifecycle command (R527). -/
  pwrCmd : Option Nat
  /-- HBM stacks in self-refresh (R523). -/
  selfRef : BitVec 4
  /-- PFAIL_OUT# is driven low (R513). -/
  pfailOut : Bool
  /-- The flash command that runs: address × 4 + CMD (R563). -/
  flashCmd : Option Nat
deriving DecidableEq, Repr

structure State where
  /-- The commands that wait, first in, first out. -/
  pending : List Instr
  /-- Every register word, by `regKey`. -/
  regs : Tbl Word
  /-- Holding latches (R12, R89, R537), by `regKey` of the captured word. -/
  latch : Tbl Word
  /-- Staging latches that hold an uncommitted write (R12, R77), by `regKey` of the staged word. -/
  stage : Tbl (Option Word)
  /-- What the block has sent, oldest first. -/
  out : List Msg
  /-- The answer of the last bus access. -/
  reply : Reply
  /-- The number of free values drawn so far (the model's own). -/
  free : Nat
  plat : Platform
  time : TimeUnit
  tide : TideUnit
  trb : TroubleUnit
  eng : EngineUnit
  micro : MicroUnit
  hbm : HbmUnit
  cfl : ConfluenceUnit
  sch : SchedUnit
  intake : IntakeUnit
  look : LookupUnit
  ring : RingUnit
  sto : StorageUnit
  link : LinkUnit
  keys : KeyUnit
  trust : TrustUnit
  /-- DMA channels, by (Board × 8 + cluster) × 16 + channel (R442). -/
  dma : Tbl DmaCh
deriving DecidableEq, Repr

/-- The faults of the model: none.  Every behaviour of the spec that stops something (a thread fault, a bus error, a
tripped module) is a next state of the block. -/
inductive Fault where
  /-- Never raised: kept so that the type has a name for a stop (safe: nothing ends in it). -/
  | unreachable
deriving DecidableEq, Repr

/-- The refusals of the model. -/
inductive Refusal where
  /-- A command whose meaning is not modelled yet, by its mnemonic (safe: the run ends). -/
  | notModelled (mnemonic : String)
deriving DecidableEq, Repr

/-- The answer of a meaning. -/
abbrev Res := Host.Outcome State Fault Refusal

/-- The blank microcode version: what stands before start-up loads one (R204). -/
def blankCode : MicroCode :=
  { major := 0, minor := 0, patch := 0, patchId := 0, words := { micro := [], nano := [], mtch := [] }
    sums := (List.replicate 48 0, List.replicate 48 0) }

/-- The device right after module cold reset (R14): no command waits, every register holds its reset value (an unlisted
register reads as `regReset`), every memory, queue and table is empty, and start-up has not begun. -/
def State.reset : State where
  pending := []
  regs := []
  latch := []
  stage := []
  out := []
  reply := .none
  free := 0
  plat := { place := 0, straps := 0, linkFailed := 0, retries := [], coldBoot := true, movePtr := [], ecc := [],
            epBad := 0, portBad := 0, linkBad := 0, subsystem := 0, doe := [], ats := [], atsWait := [], scrub := [], udt := [], polTurn := [] }
  time := { now := 0, sub := 0, tick := 0, slew := 0, slewNext := 0, stepSum := 0, stepTick := 0, step := none,
            boundary := false, todKnown := false, ppsLast := none, ppsGood := 0, ppsBad := 0, within := 0, withinSrc := .ptp, holdFreq := 0,
            freqLog := [], ppsOut := false, ppsOutAt := 0, ptpDomain := 0, ptpPorts := [], ptpDropped := 0 }
  tide := { cLast := -1, sent := [], work := [], ford := [], bgLast := [], bgGrants := [] }
  trb := { queue := [], lastAppend := [], repeats := [] }
  eng := { thr := [], sh := [], round := [], cur := [], localMem := [], clusterMem := [], pstore := [], faults := [],
           bufs := [], creditPend := [], recvTurn := [], cmdPend := [], clk := 0 }
  micro := { master := blankCode, old := none, image := none, store := [], tried := [], later := [] }
  hbm := { mem := [], poison := [], cache := [], dir := [], home := [], acks := [], due := [] }
  cfl := { books := { free := 1048576, pipe := 0, queued := 0, reclaim := 0, spilling := 0 }, frames := [], tags := [],
           inputs := [], queues := [], spillLists := [], lands := [], repl := [], reasons := [], linkDrops := [], taken := [], rcl := [], eddy := [],
           admRefused := false, admLow := false, ecnLow := false, ecnDip := false, ecnMark := false }
  sch := { vtime := [], tag := [], awake := [], node := [], pol := [], parentPend := [], outq := [], gate := [],
           gauge := [], passes := [], gaugeAt := [], gaugeTurn := 15 }
  intake := { queue := [], side := [], flight := [], held := [], returning := [], mesh := [], board := [] }
  look := { slots := [], bar := [], cmd := [], dredge := [], limitHit := [], overHalf := [], quiet := [], audit := [],
            auditLast := [], flowDirty := [], delta := [], deltaCmd := none, insTok := [], pipe := [], pipeNext := 0 }
  ring := { ring := [], last := [], bytes := [], frames := [], bells := [], deficit := [], turn := [], rxTurn := [], orphan := [] }
  sto := { slots := [], order := [], epoch := 0, hold := [], evq := [], stage := [], queue := [], ctl := [] }
  link := { txts := [], xoff := [], lpi := [], cred := [], slack := [], walk := none, known := [] }
  keys := { ktk := none, pinned := [], cache := [], fetch := [], cmd := none, sqHi := [], sqEvq := [], sqRevoke := []
            rnd := [], gens := 0, seeded := 0 }
  trust := { mram := [], flash := [], fuses := 0, slot := false, inUse := [], pend := [], copy := none, nonce := false,
             accepted := none, tokRid := 0, notAfter := 0, digest := [], since := 0, write := none, intruding := false,
             power := .on, drowse := false, pwrCmd := none, selfRef := 0, pfailOut := false, flashCmd := none }
  dma := []

end Sys2Proof.Machine
end

