-- ==== Sys2Proof/Machine/Ops.lean ====
section
/-! DEFINITION. The named operations: sparse tables, bit fields, registers and their typed access (R7 to R12), places
and fences, time of a chiplet, MSI-X (R404), and the recording of an event (R531 to R540), which every unit shares. -/
namespace Sys2Proof.Machine

/-! ## The parts of the state -/

/-- The state with `regs` replaced. -/
def State.putRegs (s : State) (x : Tbl Word) : State := { s with regs := x }

/-- The state with `latch` replaced. -/
def State.putLatch (s : State) (x : Tbl Word) : State := { s with latch := x }

/-- The state with `stage` replaced. -/
def State.putStage (s : State) (x : Tbl (Option Word)) : State := { s with stage := x }

/-- The state with `out` replaced. -/
def State.putOut (s : State) (x : List Msg) : State := { s with out := x }

/-- The state with `reply` replaced. -/
def State.putReply (s : State) (x : Reply) : State := { s with reply := x }

/-- The state with `free` replaced. -/
def State.putFree (s : State) (x : Nat) : State := { s with free := x }

/-- The state with `plat` replaced. -/
def State.putPlat (s : State) (x : Platform) : State := { s with plat := x }

/-- The state with `time` replaced. -/
def State.putTime (s : State) (x : TimeUnit) : State := { s with time := x }

/-- The state with `tide` replaced. -/
def State.putTide (s : State) (x : TideUnit) : State := { s with tide := x }

/-- The state with `trb` replaced. -/
def State.putTrb (s : State) (x : TroubleUnit) : State := { s with trb := x }

/-- The state with `eng` replaced. -/
def State.putEng (s : State) (x : EngineUnit) : State := { s with eng := x }

/-- The state with `micro` replaced. -/
def State.putMicro (s : State) (x : MicroUnit) : State := { s with micro := x }

/-- The state with `hbm` replaced. -/
def State.putHbm (s : State) (x : HbmUnit) : State := { s with hbm := x }

/-- The state with `cfl` replaced. -/
def State.putCfl (s : State) (x : ConfluenceUnit) : State := { s with cfl := x }

/-- The state with `sch` replaced. -/
def State.putSch (s : State) (x : SchedUnit) : State := { s with sch := x }

/-- The state with `intake` replaced. -/
def State.putIntake (s : State) (x : IntakeUnit) : State := { s with intake := x }

/-- The state with `look` replaced. -/
def State.putLook (s : State) (x : LookupUnit) : State := { s with look := x }

/-- The state with `ring` replaced. -/
def State.putRing (s : State) (x : RingUnit) : State := { s with ring := x }

/-- The state with `sto` replaced. -/
def State.putSto (s : State) (x : StorageUnit) : State := { s with sto := x }

/-- The state with `link` replaced. -/
def State.putLink (s : State) (x : LinkUnit) : State := { s with link := x }

/-- The state with `keys` replaced. -/
def State.putKeys (s : State) (x : KeyUnit) : State := { s with keys := x }

/-- The state with `trust` replaced. -/
def State.putTrust (s : State) (x : TrustUnit) : State := { s with trust := x }

/-- The state with `dma` replaced. -/
def State.putDma (s : State) (x : Tbl DmaCh) : State := { s with dma := x }

/-! ## Sparse tables -/

/-- The value of key `k`: the listed one, else the table's default. -/
def Tbl.get {β : Type} (d : Nat → β) : Tbl β → Nat → β
  | [], k => d k
  | (j, v) :: t, k => if j = k then v else Tbl.get d t k

/-- The table with key `k` listed with value `v`, in order. -/
def Tbl.ins {β : Type} (k : Nat) (v : β) : Tbl β → Tbl β
  | [] => [(k, v)]
  | (j, w) :: t => if k < j then (k, v) :: (j, w) :: t else if k = j then (k, v) :: t else (j, w) :: Tbl.ins k v t

/-- The table without key `k`. -/
def Tbl.del {β : Type} (k : Nat) : Tbl β → Tbl β
  | [] => []
  | (j, w) :: t => if j = k then Tbl.del k t else (j, w) :: Tbl.del k t

/-- The table after a write of `v` to key `k`; a write of the default removes the entry. -/
def Tbl.set {β : Type} [DecidableEq β] (d : Nat → β) (t : Tbl β) (k : Nat) (v : β) : Tbl β :=
  if v = d k then Tbl.del k t else Tbl.ins k v t

/-- The canonical form: keys strictly rising from `lo`, and no entry equal to the default. -/
def Tbl.wfFrom {β : Type} [DecidableEq β] (d : Nat → β) : Nat → Tbl β → Bool
  | _, [] => true
  | lo, (k, v) :: t => decide (lo ≤ k) && decide (v ≠ d k) && Tbl.wfFrom d (k + 1) t

/-- The canonical form of a sparse table. -/
def Tbl.wf {β : Type} [DecidableEq β] (d : Nat → β) (t : Tbl β) : Bool := Tbl.wfFrom d 0 t

/-! ## Bit fields -/

/-- Bits [hi:lo] of a number. -/
def bits (n hi lo : Nat) : Nat := (n >>> lo) % 2 ^ (hi + 1 - lo)

/-- Bit k of a number. -/
def bit (n k : Nat) : Bool := n.testBit k

/-- The value of a truth value as a one-bit number. -/
def b2n (b : Bool) : Nat := if b then 1 else 0

/-- Bits [hi:lo] of a register word. -/
def fieldOf (w : Word) (hi lo : Nat) : Nat := bits w.toNat hi lo

/-- The word with bits [hi:lo] replaced by the low bits of `v`. -/
def withField (w : Word) (hi lo v : Nat) : Word :=
  BitVec.ofNat 32 (w.toNat - (bits w.toNat hi lo) <<< lo + (v % 2 ^ (hi + 1 - lo)) <<< lo)

/-- The word whose bits [hi:lo] are all ones. -/
def maskOf (hi lo : Nat) : Word := BitVec.ofNat 32 ((2 ^ (hi + 1 - lo) - 1) <<< lo)

/-- Two's complement of width `w` as an integer. -/
def signed (w n : Nat) : Int := if n % 2 ^ w < 2 ^ (w - 1) then (n % 2 ^ w : Nat) else (n % 2 ^ w : Nat) - (2 ^ w : Nat)

/-- An integer as two's complement of width `w`. -/
def unsigned (w : Nat) (i : Int) : Nat := (i % (2 ^ w : Nat)).toNat

/-- A sum that stays at `max`. -/
def satAdd (max a b : Nat) : Nat := if a + b ≤ max then a + b else max

/-- Clamp to a range. -/
def clamp (lo hi v : Nat) : Nat := if v < lo then lo else if hi < v then hi else v

/-- The bytes of a number, big-endian, `n` of them (R103). -/
def beBytes : Nat → Nat → List Byte
  | 0, _ => []
  | n + 1, v => BitVec.ofNat 8 (v >>> (8 * n)) :: beBytes n v

/-- The number big-endian bytes spell (R103). -/
def beNat (l : List Byte) : Nat := l.foldl (fun a b => a * 256 + b.toNat) 0

/-- The bytes of a number, little-endian, `n` of them. -/
def leBytes : Nat → Nat → List Byte
  | 0, _ => []
  | n + 1, v => BitVec.ofNat 8 v :: leBytes n (v / 256)

/-- The number little-endian bytes spell. -/
def leNat : List Byte → Nat
  | [] => 0
  | b :: t => b.toNat + 256 * leNat t

/-- The list padded with zero bytes to `n`, or cut to it. -/
def fitBytes (n : Nat) (l : List Byte) : List Byte := (l ++ List.replicate (n - l.length) 0).take n

/-! ## Where a register lies (R25) -/

/-- The number of registers in nested dimensions. -/
def dimCount : List (Nat × Nat) → Nat
  | [] => 1
  | (c, _) :: ds => c * dimCount ds

/-- The offset of instance i inside nested dimensions. -/
def dimOffset : List (Nat × Nat) → Nat → Nat
  | [], _ => 0
  | (_, st) :: ds, i => i / dimCount ds * st + dimOffset ds (i % dimCount ds)

/-- The device address of register r of index i; none for a register of a BAR or of configuration space. -/
def regAddr (r : Reg) (i : Nat) : Option Nat :=
  match places.find? (fun p => p.reg == r && decide (p.off ≤ i ∧ i < p.off + dimCount p.dims)) with
  | some p => some (p.base + dimOffset p.dims (i - p.off))
  | none => none

/-- The chiplet whose register range holds an address (R25); none outside the register ranges. -/
def addrChip (a : Nat) : Option Nat :=
  if a < 0x10000000 then some 0
  else if 0x100000000 ≤ a ∧ a < 0x108000000 then some (8 + (a - 0x100000000) / 0x1000000)
  else if 0x200000000 ≤ a ∧ a < 0x300000000 then some 1
  else if 0x300000000 ≤ a ∧ a < 0x304000000 then some (2 + (a - 0x300000000) / 0x1000000)
  else none

/-! ## Registers -/

/-- The word of register r, unit index i. -/
def State.rd (s : State) (r : Reg) (i : Nat) : Word := Tbl.get regReset s.regs (regKey r i)

/-- The state with the word of register r, unit index i, replaced. -/
def State.wr (s : State) (r : Reg) (i : Nat) (v : Word) : State :=
  s.putRegs (Tbl.set regReset s.regs (regKey r i) v)

/-- The value of a named field. -/
def State.fld (s : State) (f : Fld) (i : Nat) : Nat := fieldOf (s.rd f.reg i) f.hi f.lo

/-- The state with a named field replaced by the low bits of `v`. -/
def State.setFld (s : State) (f : Fld) (i v : Nat) : State := s.wr f.reg i (withField (s.rd f.reg i) f.hi f.lo v)

/-- A named one-bit field as a truth value. -/
def State.flag (s : State) (f : Fld) (i : Nat) : Bool := s.fld f i != 0

/-- The largest value of a field. -/
def Fld.max (f : Fld) : Nat := 2 ^ (f.hi + 1 - f.lo) - 1

/-- A counter field raised by n, saturating (the counters whose tables say "saturates"). -/
def State.satInc (s : State) (f : Fld) (i n : Nat) : State := s.setFld f i (satAdd f.max (s.fld f i) n)

/-- A counter field raised by n, modular. -/
def State.modInc (s : State) (f : Fld) (i n : Nat) : State := s.setFld f i (s.fld f i + n)

/-- The value of a 64-bit quantity held in registers `lo` and `hi` (R12). -/
def State.rd64 (s : State) (lo hi : Reg) (i : Nat) : Nat := (s.rd lo i).toNat + (s.rd hi i).toNat * 2 ^ 32

/-- The state with a 64-bit quantity replaced. -/
def State.wr64 (s : State) (lo hi : Reg) (i v : Nat) : State :=
  (s.wr lo i (BitVec.ofNat 32 v)).wr hi i (BitVec.ofNat 32 (v / 2 ^ 32))

/-- What a typed write of `v` leaves in one field of the old word `w` (R7, R9). -/
def writeSpec (v w : Word) (f : FSpec) : Word :=
  match f.ty with
  | .rw => withField w f.hi f.lo (fieldOf v f.hi f.lo)
  | .w1c => w &&& ~~~(v &&& maskOf f.hi f.lo)
  | .w1s => w ||| (v &&& maskOf f.hi f.lo)
  | .ro => w
  | .rc => w
  | .wo => w

/-- What a typed write of `v` leaves of the old word: every field by its type, reserved bits ignored (R7, R9). -/
def typedWrite (r : Reg) (v w : Word) : Word := (fieldSpecs r).foldl (writeSpec v) w

/-- What a read returns of the stored word: WO fields read zero (R7); reserved bits are stored as zero (R9). -/
def typedRead (r : Reg) (w : Word) : Word :=
  (fieldSpecs r).foldl (fun w f => match f.ty with | .wo => withField w f.hi f.lo 0 | _ => w) w

/-- What a read leaves of the stored word: RC fields become zero (R7). -/
def afterRead (r : Reg) (w : Word) : Word :=
  (fieldSpecs r).foldl (fun w f => match f.ty with | .rc => withField w f.hi f.lo 0 | _ => w) w

/-- A register write by the field types alone (R7). -/
def State.writeTyped (s : State) (r : Reg) (i : Nat) (v : Word) : State := s.wr r i (typedWrite r v (s.rd r i))

/-- Registers back at their reset values (R13): those for which `p` holds. -/
def State.resetRegs (s : State) (p : Reg → Nat → Bool) : State :=
  s.putRegs (s.regs.filter (fun e => !p (regOfKey e.1) (e.1 / 1024)))

/-- The content of a holding latch (R12). -/
def State.latched (s : State) (r : Reg) (i : Nat) : Word := Tbl.get (fun _ => 0) s.latch (regKey r i)

/-- The state with a holding latch loaded. -/
def State.setLatch (s : State) (r : Reg) (i : Nat) (v : Word) : State :=
  s.putLatch (Tbl.set (fun _ => 0) s.latch (regKey r i) v)

/-- The content of a staging latch, if it holds an uncommitted write (R12, R77). -/
def State.staged (s : State) (r : Reg) (i : Nat) : Option Word := Tbl.get (fun _ => none) s.stage (regKey r i)

/-- The state with a staging latch loaded, or emptied. -/
def State.setStage (s : State) (r : Reg) (i : Nat) (v : Option Word) : State :=
  s.putStage (Tbl.set (fun _ => none) s.stage (regKey r i) v)

/-! ## Answers and messages -/

/-- The state after a message has been sent. -/
def State.emit (s : State) (m : Msg) : State := s.putOut (s.out ++ [m])

/-- The state with the answer of a bus access. -/
def State.answer (s : State) (r : Reply) : State := s.putReply r

/-- The next free value's number is used up. -/
def State.draw (s : State) : State := s.putFree (s.free + 1)

/-! ## Chiplets and time -/

/-- The chiplet of Bank k (R4). -/
def bankChip (k : Nat) : Nat := 2 + k

/-- The chiplet of Board b (R4). -/
def boardChip (b : Nat) : Nat := 8 + b

/-- The chiplet is fenced (R14). -/
def State.isFenced (s : State) (chip : Nat) : Bool := bit (s.fld F.HDW_BOOT_STAT.FENCED 0) chip

/-- The chiplet answers: it is neither fenced nor behind a failed link (R22, R26). -/
def State.reachable (s : State) (chip : Nat) : Bool :=
  !s.isFenced chip && !s.plat.linkFailed.getLsbD chip

/-- A register write to a chiplet: a bus error and no effect where it is fenced or unreachable (R22, R26). -/
def State.atChip (s : State) (chip : Nat) (f : State → State) : State :=
  if s.reachable chip then (f s).answer .ok else s.answer .busError

/-- A register read at a chiplet: the word, or a bus error and no effect where it is fenced or unreachable (R22, R26). -/
def State.readAt (s : State) (chip : Nat) (f : State → Word × State) : State :=
  if s.reachable chip then (f s).2.answer (.data (f s).1) else s.answer .busError

/-- What a unit of a chiplet does of itself: nothing once the chiplet is fenced (R14). -/
def State.onChip (s : State) (chip : Nat) (f : State → State) : State := if s.isFenced chip then s else f s

/-- A chiplet's replica of network time (R55): the master on Headwater, within ±4 ns of it elsewhere. -/
def State.replica (s : State) (chip : Nat) : Nat :=
  if chip = 0 then s.time.now else s.time.now + Config.replicaSkew chip s.time.tick % 9 - 4

/-- A reading of a chiplet's replica with slewing counted and steps excluded (R297). -/
def State.mono (s : State) (chip : Nat) : Nat :=
  ((s.time.now : Int) - s.time.stepSum).toNat + Config.replicaSkew chip s.time.tick % 9 - 4

/-- HBM is mapped (R19, R562). -/
def State.hbmMapped (s : State) : Bool := s.flag F.HDW_BOOT_STAT.HBM 0

/-- Full service: STAGE is SERVICE (R553). -/
def State.serving (s : State) : Bool := s.fld F.HDW_BOOT_STAT.STAGE 0 == 5

/-- A thread number of a management engine. -/
def isMgmt (th : Nat) : Bool := decide (32768 ≤ th)

/-- The requester is firmware on a management engine (R78, R507). -/
def isFirmware : Requester → Bool
  | .firmware => true
  | .thread th => isMgmt th
  | _ => false

/-- The MAC key of a MAC: network port p, attach link 256 + a. -/
def macKey : MacPort → Nat
  | .net p => p.toNat
  | .attach a => 256 + a.toNat

/-! ## MSI-X (R403, R404) -/

/-- The index of function fn (0 PF0, 1 to 1,024 VF fn − 1, 0x7FF PF1) of endpoint ep. -/
def fnKey (ep fn : Nat) : Nat := ep * 2048 + fn

/-- The index of one vector of a function. -/
def vecKey (ep fn vec : Nat) : Nat := fnKey ep fn * 2048 + vec

/-- The function number of PF1 in the model's indices. -/
def pf1Fn : Nat := 0x7FF

/-- PF1 of an endpoint is present (R386, R413). -/
def State.pf1Present (s : State) (ep : Nat) : Bool := s.flag F.PCI_EP_CFG.PF1_EFF ep

/-- The number of MSI-X vectors of a function (R388, R403). -/
def State.vecCount (s : State) (ep fn : Nat) : Nat :=
  if fn = pf1Fn then 256
  else if fn = 0 then (if s.flag F.BNK_STO_PERS.EFFECT (ep * 1025) then 256 else 2048)
  else s.fld F.PCI_EP_CFG.VFVEC ep

/-- The function may issue requests: D0, Bus Master Enable 1, not in reset (R394). -/
def State.mayIssue (s : State) (ep fn : Nat) : Bool :=
  s.fld F.PCIE_PMCSR.STATE (fnKey ep fn) != 3 && s.flag F.PCIE_CMD.BME (fnKey ep fn)
    && (fn == pf1Fn || s.fld F.RNG_FN_FRZ.STATE (ep * 1025 + fn) != 2)

/-- An interrupt event of a function's vector: discarded, pended or sent (R404; pended while the instance is
FREEZING or FROZEN, R458); none beyond the table (R403). -/
def State.msix (s : State) (ep fn vec : Nat) : State :=
  if s.vecCount ep fn ≤ vec then s
  else if s.flag F.PCIE_MSIX_CTL.EN (fnKey ep fn) = false then s
  else if s.flag F.PCIE_MSIX_VCTL.MASK (vecKey ep fn vec) || s.flag F.PCIE_MSIX_CTL.FMASK (fnKey ep fn)
      || !s.mayIssue ep fn || (fn != pf1Fn && [3, 4].contains (s.fld F.RNG_FN_FRZ.STATE (ep * 1025 + fn))) then
    s.setFld F.PCIE_MSIX_PBA.PEND (vecKey ep fn vec) 1
  else s.emit (.msix ep fn vec (s.rd64 .PCIE_MSIX_ADDR .PCIE_MSIX_ADDR_HI (vecKey ep fn vec)) (s.rd .PCIE_MSIX_DATA (vecKey ep fn vec)))

/-- Enable Relaxed Ordering of a function (R395). -/
def State.relaxed (s : State) (ep fn : Nat) : Bool := s.flag F.PCIE_DEVCTL.ERO (fnKey ep fn)

/-- The largest payload, or read request, of a function in bytes (R434): a VF takes PF0's setting, as PCI Express has it (PRESUMED, log
entry 40); 512 bytes is the largest payload supported (R389). -/
def State.reqMax (s : State) (ep fn : Nat) (rd : Bool) : Nat :=
  let k := fnKey ep (if fn = pf1Fn then fn else 0)
  if rd then 128 * 2 ^ min 5 (s.fld F.PCIE_DEVCTL.MRRS k) else 128 * 2 ^ min 2 (s.fld F.PCIE_DEVCTL.MPS k)

/-- The requests of a range of n bytes: each of at most `m` bytes, none across 4 KiB (R434), in ascending order; `fuel` bounds their
number. -/
def hostPieces (m : Nat) : Nat → Nat → Nat → List (Nat × Nat)
  | 0, _, _ => []
  | fuel + 1, a, n =>
    if n = 0 then []
    else
      let c := max 1 (min n (min m (4096 - a % 4096)))
      (a, c) :: hostPieces m fuel (a + c) (n - c)

/-- Read requests for n bytes of host memory (R434); `down`: in descending order. -/
def State.hostAsk (s : State) (ep fn a n : Nat) (ro down : Bool) : State :=
  let l := hostPieces (s.reqMax ep fn true) n a n
  (if down then l.reverse else l).foldl (fun s x => s.emit (.hostRead ep fn x.1 x.2 ro)) s

/-- Posted writes of bytes to host memory (R434); `down`: in descending order. -/
def State.hostPut (s : State) (ep fn a : Nat) (l : List Byte) (ro down : Bool) : State :=
  let p := hostPieces (s.reqMax ep fn false) l.length a l.length
  (if down then p.reverse else p).foldl (fun s x => s.emit (.hostWrite ep fn x.1 ((l.drop (x.1 - a)).take x.2) ro)) s

/-- Signal a vector of an endpoint's PF1; nothing if that PF1 is absent (R408, R536). -/
def State.msixPf1 (s : State) (ep vec : Nat) : State :=
  if s.pf1Present ep then s.msix ep pf1Fn vec else s

/-! ## Recording an event (R531 to R540) -/

/-- The trouble group of block index x on a chiplet (R534). -/
def grpOf (chip blk : Nat) : Nat := chip * 256 + blk

/-- The place code of a source: DOMAIN, SLED, MODULE, chiplet, and the low 12 bits (R2, R3). -/
def State.placeCode (s : State) (chip low : Nat) : Nat := s.plat.place.toNat * 65536 + chip % 16 * 4096 + low % 4096

/-- The entry an event makes (R532): word 0 and 1 as the unit writes them into its history, SEQ and REPEAT zero. -/
def State.logEntry (s : State) (chip skind low code sev data : Nat) (inj : Bool) : LogEntry :=
  { w0 := BitVec.ofNat 64 (2 ^ 60 + skind * 2 ^ 58 + sev % 4 * 2 ^ 56 + b2n inj * 2 ^ 52 + code % 65536 * 2 ^ 36
            + s.placeCode chip low)
    w1 := BitVec.ofNat 64 (s.replica chip % 1000000000)
    w2 := BitVec.ofNat 64 (s.replica chip / 1000000000 * 2 ^ 16)
    w3 := BitVec.ofNat 64 data }

/-- Store one 64-bit word, big-endian, as two registers of an entry. -/
def State.wrEntryWord (s : State) (r : Reg) (i : Nat) (w : DWord) : State :=
  (s.wr r i (BitVec.ofNat 32 (w.toNat / 2 ^ 32))).wr r (i + 1) (BitVec.ofNat 32 w.toNat)

/-- Store an entry's four words at word index i of an entry register. -/
def State.wrEntry (s : State) (r : Reg) (i : Nat) (e : LogEntry) : State :=
  (((s.wrEntryWord r i e.w0).wrEntryWord r (i + 2) e.w1).wrEntryWord r (i + 4) e.w2).wrEntryWord r (i + 6) e.w3

/-- Write an entry into a group's history: the oldest of the eight is overwritten and becomes NEWEST (R537). -/
def State.histAdd (s : State) (g : Nat) (e : LogEntry) : State :=
  let n := s.fld F.TRB_HIST.COUNT g % 8
  let s := s.wrEntry .TRB_HENT (g * 64 + n * 8) e
  (s.setFld F.TRB_HIST.NEWEST g n).modInc F.TRB_HIST.COUNT g 1

/-- The unit signals a severity bit that went from 0 to 1 (R536). -/
def State.troubleSignal (s : State) (g : Nat) : State :=
  let s := if s.flag F.TRB_IEN.TO_HDW g then s.emit (.hdwInterrupt g) else s
  if s.flag F.TRB_IEN.TO_PF1 g then s.msixPf1 (s.fld F.TRB_IEN.ENDPOINT g) (s.fld F.TRB_IEN.VEC g) else s

/-- Set the severity bit of an event and signal if it was 0 and is enabled (R531, R536). -/
def State.troubleStat (s : State) (g sev : Nat) : State :=
  let st := s.fld F.TRB_STAT.SEV g
  if bit st (sev % 4) then s
  else
    let s := s.setFld F.TRB_STAT.SEV g (st + 2 ^ (sev % 4))
    if bit (s.fld F.TRB_IEN.SEV_EN g) (sev % 4) then s.troubleSignal g else s

/-- Headwater clocks in 1 ms (R540). -/
def msTicks : Nat := 1000000

/-- An append travels to the log's queue, unless the unit appended the same CODE within the last 1 ms (R538, R540). -/
def State.logSend (s : State) (g code : Nat) (e : LogEntry) : State :=
  let k := g * 65536 + code % 65536
  let last := Tbl.get (fun _ => 0) s.trb.lastAppend k
  if last ≠ 0 ∧ s.time.tick < last - 1 + msTicks then
    s.putTrb { s.trb with
        repeats := Tbl.set (fun _ => 0) s.trb.repeats k (satAdd 0xFFFF (Tbl.get (fun _ => 0) s.trb.repeats k) 1) }
  else
    let e := { e with w2 := BitVec.ofNat 64 (e.w2.toNat + Tbl.get (fun _ => 0) s.trb.repeats k) }
    let s := s.putTrb { s.trb with
        lastAppend := Tbl.set (fun _ => 0) s.trb.lastAppend k (s.time.tick + 1)
        repeats := Tbl.set (fun _ => 0) s.trb.repeats k 0 }
    if s.flag F.LOG_CTL.FREEZE 0 || decide (256 ≤ s.trb.queue.length) then s.satInc F.LOG_DROP.COUNT 0 1
    else s.putTrb { s.trb with queue := s.trb.queue ++ [e] }

/-- A unit records an event: history, severity bit and signal, append (R531).  `low` is PLACE[11:0]. -/
def State.eventAt (s : State) (chip blk skind low code sev data : Nat) (inj : Bool) : State :=
  let e := s.logEntry chip skind low code sev data inj
  ((s.histAdd (grpOf chip blk) e).troubleStat (grpOf chip blk) sev).logSend (grpOf chip blk) code e

/-- An event of a block (SKIND 1, PLACE[11:0] is the block index: R3, R532). -/
def State.event (s : State) (chip blk code sev data : Nat) : State :=
  s.eventAt chip blk 1 blk code sev data false

/-- Severities of R532. -/
def sevNote : Nat := 0
/-- Severity CORRECTED (R532). -/
def sevCorrected : Nat := 1
/-- Severity ERROR (R532). -/
def sevError : Nat := 2
/-- Severity FATAL (R532). -/
def sevFatal : Nat := 3

/-! ## Words with ECC errors (R153, R254, R544 to R546) -/

/-- The key of a word of a unit's ECC-protected memory. -/
def eccKey (g addr : Nat) : Nat := g * 2 ^ 48 + addr

/-- Bytes of a word that ECC protects: 4 in a program store and in cluster memory, 16 in HBM and in cells (R153, R254). -/
def eccGran (g : Nat) : Nat := if 2048 ≤ g then 4 else 16

/-- The state with the ECC state of a word replaced: 0 good, 1 correctable, 2 uncorrectable, plus 2 if injected. -/
def State.setEcc (s : State) (k v : Nat) : State :=
  s.putPlat { s.plat with ecc := Tbl.set (fun _ => 0) s.plat.ecc k v }

/-- The erroneous words that an access of [a, a + n) in some groups reaches. -/
def State.eccIn (s : State) (gs : List Nat) (a n : Nat) : List (Nat × Nat) :=
  s.plat.ecc.filter (fun e => gs.contains (e.1 / 2 ^ 48)
    && decide (e.1 % 2 ^ 48 < a + n ∧ a < e.1 % 2 ^ 48 + eccGran (e.1 / 2 ^ 48)))

/-- One erroneous word is read: a correctable error is corrected, and either is reported (R533, R546). -/
def State.eccFound (scrub : Bool) (s : State) (e : Nat × Nat) : State :=
  let g := e.1 / 2 ^ 48
  let data := e.1 % 2 ^ 48 + b2n scrub * 2 ^ 63
  let inj := decide (2 < e.2)
  if e.2 % 2 = 1 then (s.setEcc e.1 0).eventAt (g / 256) (g % 256) 1 (g % 256) 0x0201 sevCorrected data inj
  else s.eventAt (g / 256) (g % 256) 1 (g % 256) 0x0202 sevError data inj

/-- A read of [a, a + n): whether a word of it is uncorrectable. -/
def State.eccRead (s : State) (gs : List Nat) (a n : Nat) (scrub : Bool) : Bool × State :=
  let l := s.eccIn gs a n
  (l.any (fun e => e.2 % 2 == 0), l.foldl (State.eccFound scrub) s)

/-- A write of [a, a + n): the words it covers are good. -/
def State.eccWipe (s : State) (gs : List Nat) (a n : Nat) : State :=
  s.putPlat { s.plat with ecc := s.plat.ecc.filter (fun e => !(gs.contains (e.1 / 2 ^ 48)
    && decide (a ≤ e.1 % 2 ^ 48 ∧ e.1 % 2 ^ 48 + eccGran (e.1 / 2 ^ 48) ≤ a + n))) }

/-- Every word of some groups is good. -/
def State.eccClear (s : State) (gs : List Nat) : State :=
  s.putPlat { s.plat with ecc := s.plat.ecc.filter (fun e => !gs.contains (e.1 / 2 ^ 48)) }

/-- The groups of the home agents, whose words are HBM words by device address. -/
def hbmGroups : List Nat := [grpOf 2 0x030, grpOf 3 0x030, grpOf 4 0x030, grpOf 5 0x030]

/-- The group of the free-cell manager, whose words are the cells' words by the byte of the cell buffer: cell × 256 plus the offset. -/
def cellGroups : List Nat := [grpOf 1 0x041]

/-- The group of a cluster's control unit: cluster memory by offset, program store by device address. -/
def clusterGroups (cl : Nat) : List Nat := [grpOf (boardChip (cl / 8)) (cl % 8)]

/-- Take the command's effect only where its condition holds; elsewhere nothing happens. -/
def State.when (s : State) (c : Bool) (f : State → State) : State := if c then f s else s

/-- A meaning's answer: the next state. -/
def done (s : State) : Res := .next s

end Sys2Proof.Machine
end

