-- ==== Sys2Proof/Machine/Cipher.lean ====
section
/-! DEFINITION. The ciphers and checks the spec names by their standards: AES (R119, FIPS 197), AES-CMAC (R328, NIST SP
800-38B), GMUL and XTSA (R119), CRC-32C (R113, R211, R218) and CRC-16 (R487). -/
namespace Sys2Proof.Machine

/-! ## AES -/

/-- The S-box of FIPS 197 as one number, entry 0 first. -/
def sboxTable : Nat := 0x637C777BF26B6FC53001672BFED7AB76CA82C97DFA5947F0ADD4A2AF9CA472C0B7FD9326363FF7CC34A5E5F171D8311504C723C31896059A071280E2EB27B27509832C1A1B6E5AA0523BD6B329E32F8453D100ED20FCB15B6ACBBE394A4C58CFD0EFAAFB434D338545F9027F503C9FA851A3408F929D38F5BCB6DA2110FFF3D2CD0C13EC5F974417C4A77E3D645D197360814FDC222A908846EEB814DE5E0BDBE0323A0A4906245CC2D3AC629195E479E7C8376D8DD54EA96C56F4EA657AAE08BA78252E1CA6B4C6E8DD741F4BBD8B8A703EB5664803F60E613557B986C11D9EE1F8981169D98E949B1E87E9CE5528DF8CA1890DBFE6426841992D0FB054BB16

/-- The inverse S-box of FIPS 197, likewise. -/
def invSboxTable : Nat := 0x52096AD53036A538BF40A39E81F3D7FB7CE339829B2FFF87348E4344C4DEE9CB547B9432A6C2233DEE4C950B42FAC34E082EA16628D924B2765BA2496D8BD12572F8F66486689816D4A45CCC5D65B6926C704850FDEDB9DA5E154657A78D9D8490D8AB008CBCD30AF7E45805B8B34506D02C1E8FCA3F0F02C1AFBD0301138A6B3A9111414F67DCEA97F2CFCEF0B4E67396AC7422E7AD3585E2F937E81C75DF6E47F11A711D29C5896FB7620EAA18BE1BFC563E4BC6D279209ADBC0FE78CD5AF41FDDA8338807C731B11210592780EC5F60517FA919B54A0D2DE57A9F93C99CEFA0E03B4DAE2AF5B0C8EBBB3C83539961172B047EBA77D626E169146355210C7D

/-- An entry of a 256-byte table written as one number. -/
def tableByte (t : Nat) (b : Byte) : Byte := BitVec.ofNat 8 (t >>> (8 * (255 - b.toNat)))

/-- SubBytes for one byte. -/
def sbox (b : Byte) : Byte := tableByte sboxTable b

/-- The inverse of `sbox`. -/
def invSbox (b : Byte) : Byte := tableByte invSboxTable b

/-- Multiplication by x in GF(2⁸) with 0x11B. -/
def xtime (b : Byte) : Byte := (b <<< 1) ^^^ (if b.getLsbD 7 then 0x1B else 0)

/-- Multiplication in GF(2⁸) by a four-bit constant. -/
def gfMul (c : Nat) (b : Byte) : Byte :=
  (if bit c 0 then b else 0) ^^^ (if bit c 1 then xtime b else 0) ^^^ (if bit c 2 then xtime (xtime b) else 0)
    ^^^ (if bit c 3 then xtime (xtime (xtime b)) else 0)

/-- Bytes taken from a list by positions. -/
def permBytes (ix : List Nat) (l : List Byte) : List Byte := ix.map (fun i => l.getD i 0)

/-- ShiftRows as positions: byte r + 4c comes from column c + r. -/
def shiftRowsIx : List Nat := [0, 5, 10, 15, 4, 9, 14, 3, 8, 13, 2, 7, 12, 1, 6, 11]

/-- InvShiftRows as positions. -/
def invShiftRowsIx : List Nat := [0, 13, 10, 7, 4, 1, 14, 11, 8, 5, 2, 15, 12, 9, 6, 3]

/-- One column times a circulant matrix given by its first row. -/
def mixColumn (a b c d : Nat) (s0 s1 s2 s3 : Byte) : List Byte :=
  [gfMul a s0 ^^^ gfMul b s1 ^^^ gfMul c s2 ^^^ gfMul d s3, gfMul d s0 ^^^ gfMul a s1 ^^^ gfMul b s2 ^^^ gfMul c s3,
   gfMul c s0 ^^^ gfMul d s1 ^^^ gfMul a s2 ^^^ gfMul b s3, gfMul b s0 ^^^ gfMul c s1 ^^^ gfMul d s2 ^^^ gfMul a s3]

/-- MixColumns or its inverse, column by column. -/
def mixColumns (a b c d : Nat) : List Byte → List Byte
  | s0 :: s1 :: s2 :: s3 :: t => mixColumn a b c d s0 s1 s2 s3 ++ mixColumns a b c d t
  | _ => []

/-- XOR of two byte lists. -/
def xorBytes (a b : List Byte) : List Byte := List.zipWith (· ^^^ ·) a b

/-- Word i − 1 as KeyExpansion transforms it for word i. -/
def keyTemp (nk i : Nat) (w : List Byte) (rcon : Byte) : List Byte :=
  if i % nk = 0 then xorBytes (permBytes [1, 2, 3, 0] (w.map sbox)) [rcon, 0, 0, 0]
  else if 6 < nk ∧ i % nk = 4 then w.map sbox
  else w

/-- KeyExpansion: n further words after the words so far (newest first). -/
def expandWords (nk : Nat) : Nat → Nat → Byte → List (List Byte) → List (List Byte)
  | 0, _, _, ws => ws
  | n + 1, i, rcon, ws =>
    let w := xorBytes (ws.getD (nk - 1) []) (keyTemp nk i (ws.getD 0 []) rcon)
    expandWords nk n (i + 1) (if i % nk = 0 then xtime rcon else rcon) (w :: ws)

/-- A byte list in words of four. -/
def words4 : List Byte → List (List Byte)
  | a :: b :: c :: d :: t => [a, b, c, d] :: words4 t
  | _ => []

/-- Round keys of 16 bytes from the words in order. -/
def roundKeys : List (List Byte) → List (List Byte)
  | a :: b :: c :: d :: t => (a ++ b ++ c ++ d) :: roundKeys t
  | _ => []

/-- The round keys of a 16- or 32-byte key. -/
def aesKeys (key : List Byte) : List (List Byte) :=
  let nk := key.length / 4
  roundKeys (expandWords nk (4 * (nk + 7) - nk) nk 1 (words4 key).reverse).reverse

/-- The rounds of the cipher after the first AddRoundKey. -/
def encRounds : List (List Byte) → List Byte → List Byte
  | [], s => s
  | [k], s => xorBytes (permBytes shiftRowsIx (s.map sbox)) k
  | k :: ks, s => encRounds ks (xorBytes (mixColumns 2 3 1 1 (permBytes shiftRowsIx (s.map sbox))) k)

/-- The rounds of the inverse cipher, given the round keys last first. -/
def decRounds : List (List Byte) → List Byte → List Byte
  | [], s => s
  | [k], s => xorBytes (permBytes invShiftRowsIx s |>.map invSbox) k
  | k :: ks, s => decRounds ks (mixColumns 14 11 13 9 (xorBytes (permBytes invShiftRowsIx s |>.map invSbox) k))

/-- AES encryption of 16 bytes (FIPS 197). -/
def aesEnc (key s : List Byte) : List Byte :=
  match aesKeys key with
  | [] => s
  | k :: ks => encRounds ks (xorBytes s k)

/-- AES decryption of 16 bytes (FIPS 197). -/
def aesDec (key s : List Byte) : List Byte :=
  match (aesKeys key).reverse with
  | [] => s
  | k :: ks => decRounds ks (xorBytes s k)

/-! ## CMAC -/

/-- Doubling in GF(2¹²⁸) of a big-endian block (NIST SP 800-38B). -/
def cmacDouble (n : Nat) : Nat := (n * 2 % 2 ^ 128) ^^^ (if bit n 127 then 0x87 else 0)

/-- The chaining of CMAC over the blocks of a message, the last one XORed with its subkey. -/
def cmacChain (key : List Byte) (k1 k2 : Nat) : Nat → List Byte → List Byte → List Byte
  | 0, x, _ => x
  | fuel + 1, x, m =>
    if m.length ≤ 16 then
      aesEnc key (xorBytes x (if m.length = 16 then xorBytes m (beBytes 16 k1)
        else xorBytes (fitBytes 16 (m ++ [0x80])) (beBytes 16 k2)))
    else cmacChain key k1 k2 fuel (aesEnc key (xorBytes x (m.take 16))) (m.drop 16)

/-- AES-CMAC. -/
def cmac (key m : List Byte) : List Byte :=
  let l := beNat (aesEnc key (List.replicate 16 0))
  cmacChain key (cmacDouble l) (cmacDouble (cmacDouble l)) (m.length + 1) (List.replicate 16 0) m

/-! ## GF(2¹²⁸) -/

/-- The multiplication loop of NIST SP 800-38D: the product so far and the shifted factor. -/
def gmulLoop (x : Nat) : Nat → Nat → Nat → Nat
  | 0, z, _ => z
  | n + 1, z, v => gmulLoop x n (if bit x n then z ^^^ v else z) (if bit v 0 then (v / 2) ^^^ (0xE1 <<< 120) else v / 2)

/-- GMUL: the product of two blocks (R119). -/
def gmul (a b : Block) : Block := BitVec.ofNat 128 (gmulLoop a.toNat 128 0 b.toNat)

/-- XTSA: multiplication by α (R119): little-endian, shifted left by one, 0x87 into B0 on a carry. -/
def xtsa (a : Block) : Block :=
  let n := leNat (beBytes 16 a.toNat)
  let m := (n * 2 % 2 ^ 128) ^^^ (if bit n 127 then 0x87 else 0)
  BitVec.ofNat 128 (beNat (leBytes 16 m))

/-! ## CRC -/

/-- Eight steps of a reflected CRC. -/
def crcBits (poly : Nat) : Nat → Nat → Nat
  | 0, c => c
  | n + 1, c => crcBits poly n (if bit c 0 then (c / 2) ^^^ poly else c / 2)

/-- CRC-32C, reflected, byte by byte, from an initial value, with no final XOR. -/
def crc32c (init : Nat) (l : List Byte) : Nat := l.foldl (fun c b => crcBits 0x82F63B78 8 (c ^^^ b.toNat)) init

/-- CRC-32 of IEEE 802.3, reflected, with initial value and final XOR all ones. -/
def crc32 (l : List Byte) : Nat := l.foldl (fun c b => crcBits 0xEDB88320 8 (c ^^^ b.toNat)) 0xFFFFFFFF ^^^ 0xFFFFFFFF

/-- Eight steps of CRC-16 with polynomial 0x1021, not reflected. -/
def crc16Bits : Nat → Nat → Nat
  | 0, c => c
  | n + 1, c => crc16Bits n (if bit c 15 then ((c * 2) ^^^ 0x1021) % 65536 else c * 2)

/-- HCHK of the attach header (R487). -/
def crc16 (l : List Byte) : Nat := l.foldl (fun c b => crc16Bits 8 (c ^^^ b.toNat * 256)) 0xFFFF

/-- The bits of a 32-bit number in reverse order. -/
def rev32 (n : Nat) : Nat := (List.range 32).foldl (fun a i => a * 2 + b2n (bit n i)) 0

end Sys2Proof.Machine
end

