-- ==== Sys2Proof/Machine/Time.lean ====
section
/-! DEFINITION. Network time (02, R53 to R69): the advance of the master, the sources, the clock states, corrections. -/
namespace Sys2Proof.Machine

/-- TIME_STATUS.STATE values (R91). -/
def tsFree : Nat := 0
/-- LOCKING (R91). -/
def tsLocking : Nat := 1
/-- LOCKED (R91). -/
def tsLocked : Nat := 2
/-- HOLDOVER (R91). -/
def tsHoldover : Nat := 3

/-- The chiplet and block index of the network-time unit (R57). -/
def blkTime : Nat := 0x010

/-- The clock state (R65). -/
def State.clockState (s : State) : Nat := s.fld F.TIME_STATUS.STATE 0

/-- The phase source in use (R62): PPS_IN, enabled and valid, once the time of day is known; else a PTP slave port. -/
def State.phaseSource (s : State) : Option TimeSource :=
  if s.flag F.TIME_CTL.PPS_EN 0 && s.flag F.TIME_STATUS.PPS_OK 0 && s.time.todKnown then some .pps
  else if s.flag F.TIME_CTL.PTP_EN 0 && s.flag F.TIME_STATUS.PTP_OK 0 then some .ptp
  else none

/-- Some phase source is enabled and valid (R62). -/
def State.phaseValid (s : State) : Bool := s.phaseSource.isSome

/-- TREF10_IN is enabled and valid (R61, R62). -/
def State.refValid (s : State) : Bool := s.flag F.TIME_CTL.REF10_EN 0 && s.flag F.TIME_STATUS.REF10_OK 0

/-- The frequency correction in effect, in units of 2⁻¹⁵ ppb (R92). -/
def State.freqAdj (s : State) : Int := signed 32 (s.rd .TIME_FREQ_ADJ 0).toNat

/-- Set the frequency correction and remember when it began (R67 needs the last 64 s). -/
def State.setFreq (s : State) (f : Int) : State :=
  let s := s.wr .TIME_FREQ_ADJ 0 (BitVec.ofInt 32 f)
  (s.putTime { s.time with freqLog := (s.time.tick, signed 32 (unsigned 32 f)) :: s.time.freqLog })

/-- The sum of correction × clocks over the clocks from `from_` to `upto`, newest entry first. -/
def freqArea (from_ upto : Nat) : List (Nat × Int) → Int
  | [] => 0
  | (t, f) :: l =>
    if t ≤ from_ then f * ((upto - from_ : Nat) : Int)
    else f * ((upto - t : Nat) : Int) + freqArea from_ (min upto t) l

/-- Headwater clocks in 64 s (R67). -/
def holdSpan : Nat := 64000000000

/-- The mean frequency correction of the last 64 s (R67), rounded down.  DESIGN CHOICE: the span is 64 s also when less has passed
since module cold reset, with correction 0 before it (log entry 71). -/
def State.meanFreq (s : State) : Int := freqArea (s.time.tick - holdSpan) s.time.tick s.time.freqLog / (holdSpan : Int)

/-- Enter HOLDOVER (R65, R67).  Without TREF10_IN the mean correction of the last 64 s holds, or from FREE the correction in effect. -/
def State.enterHoldover (s : State) : State :=
  let f := if s.clockState == tsFree then s.freqAdj else s.meanFreq
  let s := (s.setFld F.TIME_STATUS.STATE 0 tsHoldover).setFld F.TIME_HOLD_SEC.SEC 0 0
  let s := s.putTime { s.time with holdFreq := f }
  if s.refValid then s else s.setFreq f

/-- TREF10_IN may have ceased to give the frequency: in HOLDOVER the correction kept at its start takes its place (R67). -/
def State.refLost (s : State) (was : Bool) : State :=
  if was && !s.refValid && s.clockState == tsHoldover then s.setFreq s.time.holdFreq else s

/-- Free-run ends (R66): FREERUN clears and one log entry is written, the first time only. -/
def State.endFreeRun (s : State) (data : Nat) : State :=
  if s.flag F.TIME_STATUS.FREERUN 0 then
    (s.setFld F.TIME_STATUS.FREERUN 0 0).event 0 blkTime 0x0402 sevNote data
  else s

/-- Enter LOCKING: a phase source has become valid (R65, R66). -/
def State.enterLocking (s : State) : State :=
  let s := (s.setFld F.TIME_STATUS.STATE 0 tsLocking).setFld F.TIME_HOLD_SEC.SEC 0 0
  let s := s.putTime { s.time with within := 0 }
  if s.flag F.TIME_STATUS.FREERUN 0 then (s.endFreeRun (Config.freeRunCorrection s.free).toNat).draw else s

/-- The clock state after the sources' validity has changed (R65). -/
def State.reclock (s : State) : State :=
  if s.phaseValid then
    (if s.clockState == tsFree || s.clockState == tsHoldover then s.enterLocking else s)
  else
    (if s.clockState == tsLocking || s.clockState == tsLocked then s.enterHoldover else s)

/-- The increment of one Headwater clock beyond 1 ns, in 2⁻³² ns (R54): f × 2⁻¹⁵ ppb of 1 ns, rounded down. -/
def freqStep (f : Int) : Int := f * 131072 / 1000000000

/-- One nanosecond of slew, at most one per 4,096 ns of network time (R54, R69). -/
def TimeUnit.slewOne (t : TimeUnit) : TimeUnit :=
  if t.slew = 0 ∨ t.now < t.slewNext then t
  else if 0 < t.slew then { t with now := t.now + 1, slew := t.slew - 1, slewNext := t.now + 4096 }
  else { t with now := t.now - 1, slew := t.slew + 1, slewNext := t.now + 4096 }

/-- One advance of the master copy (R54); a boundary of a tide cycle that it reaches is noted (R85). -/
def TimeUnit.advance (t : TimeUnit) (f : Int) : TimeUnit :=
  let total : Nat := (2 ^ 32 + (t.sub : Int) + freqStep f).toNat
  let u := TimeUnit.slewOne { t with now := t.now + total / 2 ^ 32, sub := total % 2 ^ 32 }
  { u with tick := u.tick + 1, boundary := t.boundary || u.now / 4096 != t.now / 4096 }

/-- Engine clocks of one Headwater clock, in twentieths: 2.2, 1.65, 1.1 or 0.55 to one (R98, R524). -/
def engineTwentieths (step : Nat) : Nat := (4 - step % 4) * 11

/-- The Die fills each random buffer that is not full, while it is OK (R334).  DESIGN CHOICE (log entry 63): 4 bits in a Headwater
clock, the least rate that the rule gives. -/
def rndFill (t : Tbl Nat) : Tbl Nat :=
  (List.range 10).foldl (fun t k => Tbl.set (fun _ => 0) t k (min 8192 (Tbl.get (fun _ => 0) t k + 4))) t

/-- TIME_ADVANCE (R54, R98, R334). -/
def execTimeAdvance (s : State) : Res :=
  let s := s.putTime (s.time.advance s.freqAdj)
  let s := s.when (s.fld F.HDW_DIE_STATUS.STATE 0 == 1) (fun s => s.putKeys { s.keys with rnd := rndFill s.keys.rnd })
  done (s.putEng { s.eng with clk := s.eng.clk + engineTwentieths (s.fld F.HDW_PWR_STAT.STEP 0) })

/-- Count a valid PPS edge; three in a row make PPS_IN valid (R60). -/
def State.ppsValidEdge (s : State) : State :=
  let s := s.putTime { s.time with ppsLast := some s.time.now, ppsGood := s.time.ppsGood + 1, ppsBad := 0 }
  if 3 ≤ s.time.ppsGood then (s.setFld F.TIME_STATUS.PPS_OK 0 1).reclock else s

/-- Count a missing or invalid PPS edge; three in a row make PPS_IN lost (R60). -/
def State.ppsBadEdge (s : State) : State :=
  let s := s.putTime { s.time with ppsGood := 0, ppsBad := s.time.ppsBad + 1 }
  if 3 ≤ s.time.ppsBad then (s.setFld F.TIME_STATUS.PPS_OK 0 0).reclock else s

/-- An edge now is valid: 1 s ± 10 µs after the previous valid edge on network time (R60). -/
def State.ppsEdgeValid (s : State) : Bool :=
  match s.time.ppsLast with
  | some t => decide (t + 999990000 ≤ s.time.now ∧ s.time.now ≤ t + 1000010000)
  | none => false

/-- PPS_EDGE (R60).  An edge that is not valid becomes the reference of the next while PPS_IN is not valid. -/
def execPpsEdge (s : State) : Res :=
  if s.ppsEdgeValid then done s.ppsValidEdge
  else
    let s := s.ppsBadEdge
    done (if s.flag F.TIME_STATUS.PPS_OK 0 then s
      else (s.putTime { s.time with ppsLast := some s.time.now }))

/-- PPS_EDGE_MISSING (R60). -/
def execPpsEdgeMissing (s : State) : Res := done s.ppsBadEdge

/-- TREF10_MEASURE (R61, R62): within ±50 ppm it is valid and, if enabled, gives the frequency. -/
def execTref10Measure (ppb : Int) (s : State) : Res :=
  if -50000 ≤ ppb ∧ ppb ≤ 50000 then
    let s := s.setFld F.TIME_STATUS.REF10_OK 0 1
    done (if s.flag F.TIME_CTL.REF10_EN 0 then s.setFreq (ppb * 32768) else s)
  else done ((s.setFld F.TIME_STATUS.REF10_OK 0 0).refLost s.refValid)

/-- TREF10_EDGE_TIMEOUT (R61). -/
def execTref10EdgeTimeout (s : State) : Res := done ((s.setFld F.TIME_STATUS.REF10_OK 0 0).refLost s.refValid)

/-- Network time lies within ±8 ns of a second boundary (R63). -/
def State.nearSecond (s : State) : Bool :=
  decide (s.time.now % 1000000000 ≤ 8 ∨ 1000000000 - 8 ≤ s.time.now % 1000000000)

/-- PPS_OUT_RISE (R63): within ±8 ns of a second boundary of network time. -/
def execPpsOutRise (s : State) : Res :=
  done (if s.flag F.TIME_CTL.PPS_OUT_EN 0 && s.nearSecond && !s.time.ppsOut then
    s.putTime { s.time with ppsOut := true, ppsOutAt := s.time.tick } else s)

/-- PPS_OUT_FALL (R63): PPS_OUT has been high for 1 ms.  DESIGN CHOICE: the 1 ms is counted in Headwater clocks (log entry 71). -/
def execPpsOutFall (s : State) : Res :=
  done (if s.time.ppsOut && decide (s.time.ppsOutAt + msTicks ≤ s.time.tick) then s.putTime { s.time with ppsOut := false } else s)

/-- A port may be in a PTP state: an attach link only in MASTER or DISABLED (R59). -/
def ptpAllowed : MacPort → PtpState → Bool
  | .net _, _ => true
  | .attach _, .master => true
  | .attach _, .disabled => true
  | .attach _, _ => false

/-- The state of a PTP port (R59). -/
def State.ptpPort (s : State) (p : MacPort) : PtpState := Tbl.get (fun _ => .disabled) s.time.ptpPorts (macKey p)

/-- A PTP port takes a state, and PTP_OK shows whether some port is in SLAVE (R65, R91). -/
def State.setPtpPort (s : State) (p : MacPort) (x : PtpState) : State :=
  let t := Tbl.set (fun _ => PtpState.disabled) s.time.ptpPorts (macKey p) x
  ((s.putTime { s.time with ptpPorts := t }).setFld F.TIME_STATUS.PTP_OK 0 (b2n (t.any (fun e => e.2 == .slave)))).reclock

/-- PTP_MESSAGE_RECEIVE (R58, R59): a message for another domain is dropped and counted; else the port takes the state that the
best master clock algorithm leaves it in, if it may have it. -/
def execPtpMessageReceive (port : MacPort) (domain : BitVec 8) (outcome : PtpState) (s : State) : Res :=
  if domain ≠ s.time.ptpDomain then
    done (s.putTime { s.time with ptpDropped := s.time.ptpDropped + 1 })
  else done (if ptpAllowed port outcome then s.setPtpPort port outcome else s)

/-- ANNOUNCE_RECEIPT_TIMEOUT (R65): a slave port ceases to be valid.
PRESUMED (IEEE 1588-2019): it becomes MASTER (log entry 72). -/
def execAnnounceReceiptTimeout (port : MacPort) (s : State) : Res :=
  done (if s.ptpPort port = .slave then s.setPtpPort port .master else s)

/-- A 32-bit two's complement value that saturates (R92). -/
def sat32 (i : Int) : Word :=
  if i < -2147483648 then 0x80000000 else if 2147483647 < i then 0x7FFFFFFF else BitVec.ofInt 32 i

/-- Sixteen consecutive measurements of one source within ±100 ns lock the unit (R65); PTP in LOCKED makes the time of day known. -/
def State.countWithin (s : State) (src : TimeSource) (offset : Int) : State :=
  let old := if s.time.withinSrc = src then s.time.within else 0
  let n := if -100 ≤ offset ∧ offset ≤ 100 then old + 1 else 0
  let s := s.putTime { s.time with within := n, withinSrc := src }
  if s.clockState == tsLocking && decide (16 ≤ n) then
    let s := s.setFld F.TIME_STATUS.STATE 0 tsLocked
    if src = .ptp then State.reclock (s.putTime { s.time with todKnown := true }) else s
  else s

/-- PHASE_MEASUREMENT (R62, R65, R92): of the phase source in use; the offset is shown, and the servo gives the frequency unless
TREF10_IN does. -/
def execPhaseMeasurement (src : TimeSource) (offset : Int) (freq : BitVec 32) (s : State) : Res :=
  if s.phaseSource ≠ some src then done s
  else
    let s := s.wr .TIME_OFFSET 0 (sat32 offset)
    let s := if s.refValid then s else s.setFreq freq.toInt
    done (s.countWithin src offset)

/-- HOLDOVER_SECOND (R67). -/
def execHoldoverSecond (s : State) : Res :=
  done (if s.clockState == tsHoldover then s.satInc F.TIME_HOLD_SEC.SEC 0 1 else s)

/-- A correction by `d` falls due: slewed up to TIME_STEP_THR, else a step that waits for its boundary; either replaces what remains
of an earlier one (R69).  DESIGN CHOICE: the first nanosecond of a new slew may move at once, whenever the last one of an abandoned
slew moved (log entry 71). -/
def State.correctBy (s : State) (d : Int) : State :=
  if d.natAbs ≤ (s.rd .TIME_STEP_THR 0).toNat then
    s.putTime { s.time with slew := d, slewNext := s.time.now, step := none }
  else s.putTime { s.time with slew := 0, step := some d }

/-- A correction to a wanted network time falls due (R69). -/
def State.correct (s : State) (wanted : Nat) : State := s.correctBy ((wanted : Int) - (s.time.now : Int))

/-- The whole seconds nearest to a difference in ns. -/
def nearestSecond (d : Int) : Int := (d + 500000000) / 1000000000 * 1000000000

/-- What a source may correct of a difference (R62): the phase within the second is the phase source's, the seconds a PTP slave
port's; a source that is neither corrects nothing.  DEDUCED: PPS_IN moves to the nearest second (log entry 71). -/
def State.sourceDiff (s : State) (src : TimeSource) (d : Int) : Option Int :=
  match src, s.phaseSource with
  | .pps, some .pps => some (d - nearestSecond d)
  | .ptp, some .ptp => some d
  | .ptp, some .pps => if s.flag F.TIME_CTL.PTP_EN 0 && s.flag F.TIME_STATUS.PTP_OK 0 then some (nearestSecond d) else none
  | _, _ => none

/-- The network time in the TIME_SET registers (R68). -/
def State.setWanted (s : State) : Nat :=
  (s.fld F.TIME_SET_SHI.SEC 0 * 2 ^ 32 + (s.rd .TIME_SET_SLO 0).toNat) * 1000000000 + (s.rd .TIME_SET_NS 0).toNat

/-- A write of 1 to TIME_CTL.SET (R68): effective in FREE and HOLDOVER with a legal nanoseconds value. -/
def State.timeSet (s : State) : State :=
  if (s.clockState == tsFree || s.clockState == tsHoldover)
      && decide ((s.rd .TIME_SET_NS 0).toNat ≤ 999999999) then
    let d : Int := (s.setWanted : Int) - (s.time.now : Int)
    let s := s.putTime { s.time with todKnown := true }
    let s := s.endFreeRun (unsigned 64 d)
    let s := if s.clockState == tsFree then s.enterHoldover else s
    (s.correct s.setWanted).reclock
  else s.setFld F.TIME_STATUS.SET_REJ 0 1

/-- TIME_SET (R68). -/
def execTimeSet (s : State) : Res :=
  done (s.atChip 0 (fun s => s.timeSet))

/-- TIME_CORRECTION_DUE (R62, R69). -/
def execTimeCorrectionDue (src : TimeSource) (wanted : Nat) (s : State) : Res :=
  done (match s.sourceDiff src ((wanted : Int) - (s.time.now : Int)) with
    | some d => s.correctBy d
    | none => s)

/-- Apply a step that was waiting (R69): counted, noted, and written to the log with the time before it. -/
def State.applyStep (s : State) : State :=
  match s.time.step with
  | none => s
  | some d =>
    let s := s.event 0 blkTime 0x0403 sevNote (unsigned 64 d)
    let s := s.setFld F.TIME_STATUS.STEPPED 0 1
    let s := if 0 ≤ d then s.satInc F.TIME_STEPS.FWD 0 1 else s.satInc F.TIME_STEPS.BACK 0 1
    (s.putTime { s.time with now := ((s.time.now : Int) + d).toNat, step := none, stepSum := s.time.stepSum + d, stepTick := s.time.tick + 1 })

/-- A write of TIME_CTL by software: the enables, and SET (R68, R90); enables change the sources (R62). -/
def State.timeCtlWrite (s : State) (v : Word) : State :=
  let s := ((s.writeTyped .TIME_CTL 0 v).refLost s.refValid).reclock
  if bit v.toNat 4 then s.timeSet else s

/-- A write of TIME_STEP_THR: clamped (R92). -/
def State.stepThrWrite (s : State) (v : Word) : State :=
  s.wr .TIME_STEP_THR 0 (BitVec.ofNat 32 (clamp 256 1000000000 v.toNat))

end Sys2Proof.Machine
end

