-- ==== Sys2Proof/Machine/Tide.lean ====
section
/-! DEFINITION. The Tide Table (02, R70 to R94): the calendar, its evaluation at each boundary, the staging of slots, and
the units' firings, pending firings, ford windows and background grants. -/
namespace Sys2Proof.Machine

/-- The number of a unit in the tables of firings and ford windows. -/
def unitCode : Unit_ → Nat
  | .dice b => b.toNat
  | .auditor k => 16 + k.toNat
  | .hbm k => 32 + k.toNat
  | .clusterMem cl => 64 + cl.toNat
  | .cells => 48
  | .microcode cl => 128 + cl.toNat
  | .counters c => 192 + c.toNat
  | .vault => 49
  | .keyCache b => 56 + b.toNat
  | .netMac p => 256 + p.toNat
  | .attachMac a => 512 + a.toNat
  | .gates => 50

/-- The chiplet a unit stands on (R16). -/
def unitChip : Unit_ → Nat
  | .dice b => 8 + b.toNat
  | .auditor k => 2 + k.toNat
  | .hbm k => 2 + k.toNat
  | .clusterMem cl => 8 + cl.toNat / 8
  | .cells => 1
  | .microcode cl => 8 + cl.toNat / 8
  | .counters c => c.toNat
  | .vault => 0
  | .keyCache b => 8 + b.toNat
  | .netMac p => 2 + p.toNat / 64
  | .attachMac a => 2 + a.toNat / 8
  | .gates => 1

/-- The key of a unit and class. -/
def unitClassKey (u : Unit_) (cls : Nat) : Nat := (unitCode u) * 16 + cls

/-- No work and nothing pending. -/
def noWork : UnitWork := { work := none, pend := none }

/-- The work of a unit in a class. -/
def State.unitWork (s : State) (u : Unit_) (cls : Nat) : UnitWork :=
  Tbl.get (fun _ => noWork) s.tide.work (unitClassKey u cls)

/-- The state with the work of a unit in a class replaced. -/
def State.setUnitWork (s : State) (u : Unit_) (cls : Nat) (w : UnitWork) : State :=
  s.putTide { s.tide with work := Tbl.set (fun _ => noWork) s.tide.work (unitClassKey u cls) w }

/-- The open ford window of a unit. -/
def State.fordWin (s : State) (u : Unit_) : Option FordWin := Tbl.get (fun _ => none) s.tide.ford (unitCode u)

/-- The state with the ford window of a unit replaced. -/
def State.setFordWin (s : State) (u : Unit_) (w : Option FordWin) : State :=
  s.putTide { s.tide with ford := Tbl.set (fun _ => none) s.tide.ford (unitCode u) w }

/-- A class has ford windows: every one but Sounding's (R82, R233). -/
def fordClass (cls : Nat) : Bool := cls != 2

/-- The unit starts to work a firing at `start`: its ford window opens, or is refused while another class has one (R82, R84). -/
def State.openFord (s : State) (u : Unit_) (cls : Nat) (f : Firing) (start : Nat) : State :=
  if f.ford = false ∨ fordClass cls = false then s
  else match s.fordWin u with
    | some w => if w.cls = cls then s else s.satInc F.TTB_FORD_DENY.COUNT 0 1
    | none => s.setFordWin u (some { cls := cls, ends := start + (f.len.toNat + 1) * 4096 })

/-- A firing reaches a unit (R73, R75): it starts at its boundary, becomes pending, or merges into the pending one; a fenced unit
takes none. -/
def State.fireArrive (s : State) (u : Unit_) (cls : Nat) (f : Firing) : State :=
  if s.isFenced (unitChip u) then s
  else
  let w := s.unitWork u cls
  match w.work, w.pend with
  | none, none => (s.setUnitWork u cls { w with work := some f }).openFord u cls f (f.cycle * 4096)
  | some _, none => s.setUnitWork u cls { w with pend := some f }
  | _, some p =>
    (s.setUnitWork u cls { w with pend := some { p with deferred := p.deferred || f.deferred } }).satInc
      F.TTB_OVERRUN.COUNT 0 1

/-- A firing that arrives starts at once: the unit has none of the class at work or pending, and its chiplet is not fenced. -/
def State.fireStarts (s : State) (u : Unit_) (cls : Nat) : Bool :=
  (s.unitWork u cls).work.isNone && (s.unitWork u cls).pend.isNone && !s.isFenced (unitChip u)

/-- The firing was sent to the unit, which has not taken it, and the unit's replica has reached the boundary of its cycle, or a step
was applied at that boundary (R73, R85). -/
def State.fireHits (s : State) (u : Unit_) (cls : Nat) (f : Firing) (e : SentFiring) : Bool :=
  e.cls == cls && e.f == f && bit e.target (unitChip u) && !e.took.contains (unitCode u)
    && (e.due || decide (f.cycle * 4096 ≤ s.replica (unitChip u)))

/-- A firing may reach a unit now (R73). -/
def State.fireDue (s : State) (u : Unit_) (cls : Nat) (f : Firing) : Bool := s.tide.sent.any (s.fireHits u cls f)

/-- The unit takes a firing that was sent to it. -/
def State.fireTake (s : State) (u : Unit_) (cls : Nat) (f : Firing) : State :=
  s.putTide { s.tide with
    sent := s.tide.sent.map (fun e => if s.fireHits u cls f e then { e with took := unitCode u :: e.took } else e) }

/-- The work of a class on a unit ends; a ford window of the class closes (R83). -/
def State.workEnd (s : State) (u : Unit_) (cls : Nat) : State :=
  let s := s.setUnitWork u cls { s.unitWork u cls with work := none }
  match s.fordWin u with
  | some w => if w.cls = cls then s.setFordWin u none else s
  | none => s

/-- The pending firing of a class becomes the one being worked (R75, R82). -/
def State.startPending (s : State) (u : Unit_) (cls : Nat) : State :=
  match (s.unitWork u cls).pend with
  | none => s
  | some f => (s.setUnitWork u cls { work := some f, pend := none }).openFord u cls f (s.replica (unitChip u))

/-- FORD_WINDOW_CLOSE (R83): the window's length has elapsed on the unit's replica; remaining work goes on under R81. -/
def execFordWindowClose (u : Unit_) (s : State) : Res :=
  done (match s.fordWin u with
    | some w => if w.ends ≤ s.replica (unitChip u) then s.setFordWin u none else s
    | none => s)

/-! ## The calendar -/

/-- LOG2_LEN in effect (R70, R79). -/
def State.log2Len (s : State) : Nat := s.fld F.TTB_CTL.LOG2_LEN 0

/-- The slots that hold a nonzero word 0. -/
def State.usedSlots (s : State) : List Nat :=
  (s.regs.filter (fun e => e.1 % 1024 == Reg.ctorIdx .TTB_SLOT_W0)).map (fun e => e.1 / 1024)

/-- Entry i may fire for some cycle: VALID, in the calendar, and not of a reserved class (R71, R72). -/
def State.slotLive (s : State) (i : Nat) : Bool :=
  s.flag F.TTB_SLOT_W0.VALID i && decide (i < 2 ^ s.log2Len) && decide (s.fld F.TTB_SLOT_W0.CLASS i ≤ 8)

/-- The period of entry i in cycles: a calendar pass times 2^DIV (R71). -/
def State.slotPeriod (s : State) (i : Nat) : Nat := 2 ^ (s.log2Len + s.fld F.TTB_SLOT_W0.DIV i)

/-- The cycle of entry i within its period (R71): the slot, and the PHASE bits below DIV. -/
def State.slotOffset (s : State) (i : Nat) : Nat :=
  i + 2 ^ s.log2Len * (s.fld F.TTB_SLOT_W0.PHASE i % 2 ^ s.fld F.TTB_SLOT_W0.DIV i)

/-- Entry i fires for cycle c (R71). -/
def State.fires (s : State) (i c : Nat) : Bool := s.slotLive i && c % s.slotPeriod i == s.slotOffset i

/-- How many cycles from `a` to `b` entry i fires for (R85). -/
def State.fireCount (s : State) (i : Nat) (a b : Int) : Nat :=
  if s.slotLive i then
    (((b - s.slotOffset i) / (s.slotPeriod i : Int)) - ((a - 1 - s.slotOffset i) / (s.slotPeriod i : Int))).toNat
  else 0

/-- Entry i was skipped in cycles `a` to `b`: DEFERRED is set and TTB_SKIP counts each (R85). -/
def State.skipSlot (a b : Int) (s : State) (i : Nat) : State :=
  let n := s.fireCount i a b
  if n = 0 then s else (s.setFld F.TTB_SLOT_W0.DEFERRED i 1).satInc F.TTB_SKIP.COUNT 0 n

/-- The ARG bits that must be zero in a class (R74). -/
def argMask (cls : Nat) : Nat :=
  match cls with
  | 1 => 0x3FF | 2 => 0x3FF | 3 => 0x3F0 | 4 => 0x300 | 5 => 0x3FE | 6 => 0x3FE | 7 => 0x300 | 8 => 0x200
  | _ => 0

/-- The chiplets of a TARGET field: bits 6 and 7 are ignored (R94). -/
def targetMask (t : Nat) : Nat := t &&& 0xFF3F

/-- A firing as a unit acts on it: the ARG bits that must be zero count as zero (R74). -/
def firingActs (cls : Nat) (f : Firing) : Firing := { f with arg := f.arg &&& ~~~BitVec.ofNat 10 (argMask cls) }

/-- The firing of entry i for cycle c (R73). -/
def State.slotFiring (s : State) (i c : Nat) : Firing :=
  { cycle := c, arg := BitVec.ofNat 10 (s.fld F.TTB_SLOT_W1.ARG i), len := BitVec.ofNat 6 (s.fld F.TTB_SLOT_W1.LEN i)
    ford := s.flag F.TTB_SLOT_W0.FORD i, deferred := s.flag F.TTB_SLOT_W0.DEFERRED i }

/-- Entry i is sent for cycle c (R73, R74, R76, R85): its DEFERRED clears, and VALID with ONCE. -/
def State.sendSlot (s : State) (c i : Nat) : State :=
  if s.fires i c then
    let cls := s.fld F.TTB_SLOT_W0.CLASS i
    let to_ := targetMask (s.fld F.TTB_SLOT_W1.TARGET i)
    let e : SentFiring := { cls := cls, target := to_, f := s.slotFiring i c, took := [], due := false }
    let s' := s.emit (.firing cls to_ e.f)
    let s' := s'.putTide { s'.tide with sent := (e :: s'.tide.sent).take 2 }
    let s' := if s.fld F.TTB_SLOT_W1.ARG i &&& argMask cls = 0 then s' else s'.satInc F.TTB_ARG_IGN.COUNT 0 1
    let s' := s'.setFld F.TTB_SLOT_W0.DEFERRED i 0
    if s.flag F.TTB_SLOT_W0.ONCE i then s'.setFld F.TTB_SLOT_W0.VALID i 0 else s'
  else s

/-- The first cycle at or after `a` whose low 16 bits are zero (R79). -/
def nextLenCycle (a : Int) : Int := -((-a) / 65536) * 65536

/-- A pending LOG2_LEN takes effect (R79). -/
def State.takeLen (s : State) : State :=
  let n := s.fld F.TTB_CTL.NEXT 0
  (s.setFld F.TTB_CTL.LOG2_LEN 0 n).setFld F.TTB_CTL.LEN_PEND 0 0

/-- Mark the entries of skipped cycles `a` to `b` (R85). -/
def State.skipRange (s : State) (a b : Int) : State :=
  if a ≤ b then s.usedSlots.foldl (State.skipSlot a b) s else s

/-- Skipped cycles c_last + 1 to c − 1, with a pending length taking effect from its cycle (R79, R85). -/
def State.skipTo (s : State) (c : Int) : State :=
  let a := s.tide.cLast + 1
  let m := nextLenCycle a
  if s.flag F.TTB_CTL.LEN_PEND 0 && decide (m ≤ c) then ((s.skipRange a (m - 1)).takeLen).skipRange m (c - 1)
  else s.skipRange a (c - 1)

/-- The evaluation of cycle c = k + 1 at a boundary of cycle k (R85). -/
def State.evaluate (s : State) : State :=
  let c := s.time.now / 4096 + 1
  if (c : Int) ≤ s.tide.cLast then s.setFld F.TTB_STATUS.WAITING 0 1
  else
    let s := s.skipTo c
    let s := s.sendSlot c (c % 2 ^ s.log2Len)
    let s := s.putTide { s.tide with cLast := c }
    (s.wr .TTB_CYCLE 0 (BitVec.ofNat 32 c)).setFld F.TTB_STATUS.WAITING 0 0

/-- The firings whose boundary has come act before the step that is applied there (R85). -/
def State.fireBeforeStep (s : State) : State :=
  s.putTide { s.tide with
    sent := s.tide.sent.map (fun e => if e.f.cycle * 4096 ≤ s.time.now then { e with due := true } else e) }

/-- Every ford window closes when network time steps (R83). -/
def State.closeFords (s : State) : State := s.putTide { s.tide with ford := [] }

/-- A boundary on the master: a due step is applied, then the next cycle is evaluated (R69, R85). -/
def State.tideBoundary (s : State) : State :=
  let s := s.putTime { s.time with boundary := false }
  let s := if s.time.step.isSome then s.fireBeforeStep.applyStep.closeFords else s
  s.evaluate

/-- A write of TTB_CTL.LOG2_LEN (R79). -/
def State.ttbCtlWrite (s : State) (v : Word) : State :=
  let n := fieldOf v 8 4
  if n < 8 ∨ 16 < n then s
  else if s.plat.coldBoot then
    ((s.setFld F.TTB_CTL.LOG2_LEN 0 n).setFld F.TTB_CTL.NEXT 0 n).setFld F.TTB_CTL.LEN_PEND 0 0
  else if n = s.log2Len then (s.setFld F.TTB_CTL.NEXT 0 n).setFld F.TTB_CTL.LEN_PEND 0 0
  else (s.setFld F.TTB_CTL.NEXT 0 n).setFld F.TTB_CTL.LEN_PEND 0 1

/-- A write of TTB_SLOT_W1 goes to the slot's latch (R77). -/
def State.slotW1Write (s : State) (slot : Nat) (v : Word) : State := s.setStage .TTB_SLOT_W1 slot (some v)

/-- TTB_SLOT_W1_WRITE (R77). -/
def execTtbSlotW1Write (slot : BitVec 16) (v : BitVec 32) (s : State) : Res :=
  done (s.atChip 0 (fun s => s.slotW1Write slot.toNat v))

/-- A class only firmware may touch (R78). -/
def firmwareClass (cls : Nat) : Bool := cls == 4 || cls == 6

/-- A write of TTB_SLOT_W0 commits both words; without effect from any requester but firmware where it makes, changes or removes an
entry of class 0x4 or 0x6 (R77, R78).  DESIGN CHOICE: a slot with VALID 0 whose CLASS is 0x4 or 0x6 counts as such an entry (log
entry 73). -/
def State.slotW0Write (s : State) (who : Requester) (slot : Nat) (v : Word) : State :=
  if !isFirmware who && (firmwareClass (fieldOf v 7 4) || firmwareClass (s.fld F.TTB_SLOT_W0.CLASS slot)) then s
  else
    let s := match s.staged .TTB_SLOT_W1 slot with
      | some w => (s.wr .TTB_SLOT_W1 slot w).setStage .TTB_SLOT_W1 slot none
      | none => s
    s.writeTyped .TTB_SLOT_W0 slot v

end Sys2Proof.Machine
end

