-- ==== Sys2Proof/Machine/Threads.lean ====
section
/-! DEFINITION. Threads as data (R95 to R98, R145, R146): numbering, registers, run state, enqueue credits and cluster
buffers (R161 to R165). -/
namespace Sys2Proof.Machine

/-- Thread reset (R97, R98): stopped, registers and pc zero, RW special registers at their reset values. -/
def threadReset : Thread :=
  { g := [], b := [], pc := 0, past := false, run := .stopped, faulted := false, inst := 0, sseg := 0x0010, dseg := 0,
    cychi := 0, ntslo := 0, gated := false, failed := false, evt := 0, handles := [], credHeld := 0, credFlight := 0,
    bufHeld := 0, posted := [], stream := none, fifo := [], wfifo := [], bBusy := 0, look := none, taint := 0,
    gbufs := [], gfree := [], upc := 0, mstack := [], instr := none,
    begun := false, stallCls := 0 }

/-- The record of a thread. -/
def State.thread (s : State) (th : Nat) : Thread := Tbl.get (fun _ => threadReset) s.eng.thr th

/-- The state with a thread's record replaced. -/
def State.setThread (s : State) (th : Nat) (t : Thread) : State :=
  s.putEng { s.eng with thr := Tbl.set (fun _ => threadReset) s.eng.thr th t }

/-- The Board of a thread of a Board engine. -/
def thBoard (th : Nat) : Nat := th / 4096 % 8

/-- The cluster of a thread, 8 × Board + cluster. -/
def thCluster (th : Nat) : Nat := th / 512

/-- The engine of a thread. -/
def thEngine (th : Nat) : Nat := th / 8

/-- The chiplet of a thread. -/
def thChip (th : Nat) : Nat := if isMgmt th then 0 else boardChip (thBoard th)

/-- Place-code bits [15:0] of a thread (R2, R98). -/
def thPlace (th : Nat) : Nat :=
  if isMgmt th then (th - 32768) % 512 else thChip th * 4096 + th % 4096

/-- The supervisor thread of a thread's cluster (R146). -/
def supervisorOf (th : Nat) : Nat := thCluster th * 512

/-- General register n: g0 reads zero (R96). -/
def Thread.gr (t : Thread) (n : BitVec 5) : Word := if n = 0 then 0 else Tbl.get (fun _ => 0) t.g n.toNat

/-- The thread after a write of general register n: a write of g0 is discarded (R96). -/
def Thread.setGr (t : Thread) (n : BitVec 5) (v : Word) : Thread :=
  if n = 0 then t else { t with g := Tbl.set (fun _ => 0) t.g n.toNat v }

/-- Block register n. -/
def Thread.br (t : Thread) (n : BitVec 3) : Block := Tbl.get (fun _ => 0) t.b n.toNat

/-- The thread after a write of block register n. -/
def Thread.setBr (t : Thread) (n : BitVec 3) (v : Block) : Thread :=
  { t with b := Tbl.set (fun _ => 0) t.b n.toNat v }

/-- The thread after its instruction: pc moves to the next word, or past the end of the program store (R114). -/
def Thread.advance (t : Thread) : Thread :=
  { t with pc := t.pc + 4, past := t.past || t.pc == 0xFFFFC, instr := none, begun := false }

/-- The thread with a new run state. -/
def Thread.setRun (t : Thread) (r : Run) : Thread := { t with run := r }

/-- The thread is ready (R148). -/
def Thread.isReady (t : Thread) : Bool := t.run == .ready

/-- The thread waits for its posted stores. -/
def Thread.waitsStores (t : Thread) : Bool := match t.run with | .stalled (.stores _) => true | _ => false

/-- The thread waits for its payload writes. -/
def Thread.waitsWrites (t : Thread) : Bool := match t.run with | .stalled (.writes _) => true | _ => false

/-- The thread is started. -/
def Thread.isStarted (t : Thread) : Bool := t.run != .stopped

/-- Clear the record for a thread reset (R97), keeping what belongs to its slot or completes by itself. -/
def Thread.reset (t : Thread) : Thread :=
  { threadReset with credHeld := t.credHeld, credFlight := t.credFlight, bufHeld := t.bufHeld, posted := t.posted,
                     wfifo := t.wfifo, evt := t.evt, cychi := t.cychi, ntslo := t.ntslo }

/-- A thread is a slot of its cluster: t < CLU_CTL.SLOTS. -/
def State.isSlot (s : State) (th : Nat) : Bool := decide (th % 8 < s.fld F.CLU_CTL.SLOTS (thCluster th))

/-- Every thread of a cluster is stopped (R165). -/
def State.clusterStopped (s : State) (cl : Nat) : Bool :=
  s.eng.thr.all (fun e => e.1 / 512 != cl || e.2.run == .stopped)

/-! ## Enqueue credits (R162, R163) -/

/-- Take one enqueue credit for a thread; none when it must wait. -/
def State.takeCredit (s : State) (th : Nat) : Option State :=
  let cl := thCluster th
  let t := s.thread th
  if 0 < t.credHeld then
    some ((s.setThread th { t with credHeld := t.credHeld - 1, credFlight := t.credFlight + 1 }).modInc
      F.CLU_CREDIT_STAT.INFLIGHT cl 1)
  else if s.flag F.CLU_CREDIT_CTL.POOL_EN cl && decide (0 < s.fld F.CLU_CREDIT_STAT.POOL cl)
      && decide (t.credFlight < s.fld F.CLU_CREDIT_CTL.CAP cl) then
    some (((s.setThread th { t with credFlight := t.credFlight + 1 }).modInc F.CLU_CREDIT_STAT.INFLIGHT cl 1).setFld
      F.CLU_CREDIT_STAT.POOL cl (s.fld F.CLU_CREDIT_STAT.POOL cl - 1))
  else none

/-- An enqueue of a thread has been committed or dropped: its credit returns (R163). -/
def State.returnCredit (s : State) (th : Nat) : State :=
  let cl := thCluster th
  let t := s.thread th
  let s := s.setFld F.CLU_CREDIT_STAT.INFLIGHT cl (s.fld F.CLU_CREDIT_STAT.INFLIGHT cl - 1)
  let t := { t with credFlight := t.credFlight - 1 }
  if s.isSlot th && decide (t.credHeld < s.fld F.CLU_CREDIT_CTL.SHARE cl) then
    s.setThread th { t with credHeld := t.credHeld + 1 }
  else (s.setThread th t).modInc F.CLU_CREDIT_STAT.POOL cl 1

/-- Move credits from the pool so that a slot holds its share (R163). -/
def State.fillShare (cl : Nat) (s : State) (th : Nat) : State :=
  if s.isSlot th then
    let t := s.thread th
    let need := min (s.fld F.CLU_CREDIT_CTL.SHARE cl - t.credHeld) (s.fld F.CLU_CREDIT_STAT.POOL cl)
    let bneed := min (s.fld F.CLU_BUF_CTL.SHARE cl - t.bufHeld) (s.fld F.CLU_BUF_STAT.POOL cl)
    let s := s.setThread th { t with credHeld := t.credHeld + need, bufHeld := t.bufHeld + bneed }
    (s.setFld F.CLU_CREDIT_STAT.POOL cl (s.fld F.CLU_CREDIT_STAT.POOL cl - need)).setFld
      F.CLU_BUF_STAT.POOL cl (s.fld F.CLU_BUF_STAT.POOL cl - bneed)
  else s

/-- The threads of a cluster. -/
def clusterThreads (cl : Nat) : List Nat := (List.range 512).map (fun k => cl * 512 + k)

/-- New SLOTS and SHARE take effect (R163, R165): a slot keeps what it holds up to its share, and the rest goes to the pool (DESIGN
CHOICE, log entry 24: what a slot holds above its new share). -/
def State.trimCredits (cl slots share : Nat) (s : State) : State :=
  (clusterThreads cl).foldl (fun s th =>
    let t := s.thread th
    let keep := if th % 8 < slots then min t.credHeld share else 0
    (s.setThread th { t with credHeld := keep }).modInc F.CLU_CREDIT_STAT.POOL cl (t.credHeld - keep)) s

/-! ## Cluster buffers (R164) -/

/-- The cluster address of buffer k of `count`. -/
def bufAddr (count k : Nat) : Nat := 0x400000 - count * 0x800 + k * 0x800

/-- The first number from `start`, cyclic below n, that `p` accepts. -/
def pickFrom (p : Nat → Bool) (start n : Nat) : Option Nat := ((List.range n).map (fun k => (start + k) % n)).find? p

/-- The buffers of a cluster that are charged. -/
def State.bufList (s : State) (cl : Nat) : List (Nat × Option Nat) := Tbl.get (fun _ => []) s.eng.bufs cl

/-- The state with the charged buffers of a cluster replaced. -/
def State.setBufList (s : State) (cl : Nat) (l : List (Nat × Option Nat)) : State :=
  s.putEng { s.eng with bufs := Tbl.set (fun _ => []) s.eng.bufs cl l }

/-- A read of CLU_BUF_ALLOC: the buffer's cluster address, or 0 (R164). -/
def State.bufAlloc (s : State) (cl : Nat) (th : Option Nat) : Nat × State :=
  let l := s.bufList cl
  let n := s.fld F.CLU_BUF_CTL.COUNT cl
  let mine := (l.filter (fun e => e.2 == th)).length
  let held := match th with | some t => (s.thread t).bufHeld | none => 0
  let fromPool := s.flag F.CLU_BUF_CTL.POOL_EN cl && decide (0 < s.fld F.CLU_BUF_STAT.POOL cl)
    && (th == none || decide (mine < s.fld F.CLU_BUF_CTL.CAP cl))
  if held = 0 ∧ fromPool = false then (0, s)
  else
    match pickFrom (fun k => !l.any (fun e => e.1 == bufAddr n k)) (Config.firstBuffer s.free) n with
    | none => (0, s)
    | some k =>
      let s := (s.draw.setBufList cl (l ++ [(bufAddr n k, th)])).modInc F.CLU_BUF_STAT.ALLOCATED cl 1
      match th with
      | some t =>
        if 0 < held then (bufAddr n k, s.setThread t { s.thread t with bufHeld := held - 1 })
        else (bufAddr n k, s.setFld F.CLU_BUF_STAT.POOL cl (s.fld F.CLU_BUF_STAT.POOL cl - 1))
      | none => (bufAddr n k, s.setFld F.CLU_BUF_STAT.POOL cl (s.fld F.CLU_BUF_STAT.POOL cl - 1))

/-- A buffer charged to `th` comes back: to a share that is short, else to the pool (R164). -/
def State.bufReturn (s : State) (cl : Nat) (th : Option Nat) : State :=
  let s := s.setFld F.CLU_BUF_STAT.ALLOCATED cl (s.fld F.CLU_BUF_STAT.ALLOCATED cl - 1)
  match th with
  | some t =>
    if s.isSlot t && decide ((s.thread t).bufHeld < s.fld F.CLU_BUF_CTL.SHARE cl) then
      s.setThread t { s.thread t with bufHeld := (s.thread t).bufHeld + 1 }
    else s.modInc F.CLU_BUF_STAT.POOL cl 1
  | none => s.modInc F.CLU_BUF_STAT.POOL cl 1

/-- A write of CLU_BUF_FREE (R164). -/
def State.bufFree (s : State) (cl addr : Nat) : State :=
  match (s.bufList cl).find? (fun e => e.1 == addr) with
  | none => s.satInc F.CLU_BUF_ERR.COUNT cl 1
  | some e => (s.setBufList cl ((s.bufList cl).filter (fun x => x.1 != addr))).bufReturn cl e.2

/-- A thread reset returns every buffer charged to the thread (R161). -/
def State.bufFreeAll (s : State) (th : Nat) : State :=
  let cl := thCluster th
  let mine := (s.bufList cl).filter (fun e => e.2 == some th)
  let s := s.setBufList cl ((s.bufList cl).filter (fun e => e.2 != some th))
  mine.foldl (fun s e => s.bufReturn cl e.2) s

/-! ## Run states -/

/-- A ready thread begins a long stall; the engine selects the next ready thread (R105, R148). -/
def State.switchFrom (s : State) (th : Nat) : State :=
  let e := thEngine th
  let t0 := th % 8
  match ((List.range 8).map (fun k => (t0 + 1 + k) % 8)).find? (fun t => (s.thread (e * 8 + t)).isReady) with
  | some t => s.putEng { s.eng with cur := Tbl.set (fun _ => 0) s.eng.cur e t }
  | none => s

/-- The thread stalls long (R105). -/
def State.stall (s : State) (th : Nat) (w : Wait) : State :=
  (s.setThread th { s.thread th with run := .stalled w, begun := true }).switchFrom th

/-- The thread becomes ready; an engine whose current thread is not ready takes it (R148). -/
def State.makeReady (s : State) (th : Nat) : State :=
  let s := s.setThread th ((s.thread th).setRun .ready)
  let e := thEngine th
  if (s.thread (e * 8 + Tbl.get (fun _ => 0) s.eng.cur e)).isReady then s
  else s.putEng { s.eng with cur := Tbl.set (fun _ => 0) s.eng.cur e (th % 8) }

/-- The engine's selected thread, or the one that gave it up last (R148). -/
def State.selected (s : State) (eng : Nat) : Nat := eng * 8 + Tbl.get (fun _ => 0) s.eng.cur eng

/-- Several threads become ready in one clock: an engine that issued nothing takes the first in the order t + 1, …, t (R148). -/
def State.makeReadyAll (s : State) (l : List Nat) : State :=
  let idle := ((l.map thEngine).eraseDups).filter (fun e => !(s.thread (s.selected e)).isReady)
  let s := l.foldl (fun s th => s.setThread th ((s.thread th).setRun .ready)) s
  idle.foldl (fun s e => s.switchFrom (s.selected e)) s

/-- Set bits of a thread's EVT (R133, R139); a thread that waits for one of them becomes ready to read it. -/
def State.setEvt (s : State) (th : Nat) (m : Word) : State :=
  let t := s.thread th
  let s := s.setThread th { t with evt := t.evt ||| m }
  match t.run with
  | .stalled (.event w) => if w &&& m = 0 then s else s.makeReady th
  | _ => s

end Sys2Proof.Machine
end

