-- ==== Sys2Proof/Machine/Memory.lean ====
section
/-! DEFINITION. The memories: HBM with its interleave, poison and coherence (R18, R19, R167 to R174), local and cluster
memory (R100, R103), the program store (R152). -/
namespace Sys2Proof.Machine

/-! ## Byte tables -/

/-- n bytes of a byte table from key k, lowest first. -/
def Tbl.readBytes (t : Tbl Byte) (k : Nat) : Nat → List Byte
  | 0 => []
  | n + 1 => Tbl.get (fun _ => 0) t k :: Tbl.readBytes t (k + 1) n

/-- The byte table after a write of bytes from key k on. -/
def Tbl.writeBytes (t : Tbl Byte) (k : Nat) : List Byte → Tbl Byte
  | [] => t
  | b :: l => Tbl.writeBytes (Tbl.set (fun _ => 0) t k b) (k + 1) l

/-! ## HBM -/

/-- The first device address of HBM (R25). -/
def hbmBase : Nat := 0x1000000000

/-- The size of HBM in bytes: 96 GiB (R25). -/
def hbmSize : Nat := 0x1800000000

/-- The address range [a, a + n) lies in HBM. -/
def inHbm (a n : Nat) : Bool := decide (hbmBase ≤ a ∧ a + n ≤ hbmBase + hbmSize)

/-- The stack of an HBM offset (R18): a[13:12] xor a[21:20]. -/
def hbmStack (off : Nat) : Nat := (bits off 13 12) ^^^ (bits off 21 20)

/-- The address within its stack (R18): a[36:14] above a[11:0]. -/
def hbmWithin (off : Nat) : Nat := bits off 36 14 * 4096 + bits off 11 0

/-- The 64-byte line of an HBM offset. -/
def lineOf (off : Nat) : Nat := off / 64

/-- The lines that [off, off + n) touches. -/
def linesOf (off n : Nat) : List Nat := (List.range ((off + n - 1) / 64 + 1 - off / 64)).map (fun k => off / 64 + k)

/-- The Bank whose home agent serves a line (R167). -/
def homeBank (line : Nat) : Nat := hbmStack (line * 64)

/-- The directory entry of a line. -/
def State.dirOf (s : State) (line : Nat) : DirEntry := Tbl.get (fun _ => .uncached) s.hbm.dir line

/-- The state with a directory entry replaced. -/
def State.setDir (s : State) (line : Nat) (d : DirEntry) : State :=
  s.putHbm { s.hbm with dir := Tbl.set (fun _ => .uncached) s.hbm.dir line d }

/-- The state of a line in a Board's shared-state cache. -/
def State.lineSt (s : State) (board line : Nat) : LineState := Tbl.get (fun _ => .i) s.hbm.cache (line * 8 + board)

/-- The state with a cache line's state replaced. -/
def State.setLine (s : State) (board line : Nat) (l : LineState) : State :=
  s.putHbm { s.hbm with cache := Tbl.set (fun _ => .i) s.hbm.cache (line * 8 + board) l }

/-- A line is poisoned (R174). -/
def State.isPoisoned (s : State) (line : Nat) : Bool := Tbl.get (fun _ => false) s.hbm.poison line

/-- The state with a line's poison mark replaced. -/
def State.setPoison (s : State) (line : Nat) (b : Bool) : State :=
  s.putHbm { s.hbm with poison := Tbl.set (fun _ => false) s.hbm.poison line b }

/-- Poison a line (R174): recorded Uncached and counted, with event 0x0203. -/
def State.poisonLine (s : State) (line : Nat) : State :=
  let k := homeBank line
  let s := ((s.setPoison line true).setDir line .uncached).satInc F.HBM_HOME_POISONED.COUNT k 1
  (s.setFld F.HBM_HOME_STATUS.POISON k 1).event (bankChip k) 0x030 0x0203 sevError (hbmBase + line * 64)

/-- Every cached copy of a line is dropped (R173). -/
def State.dropCopies (s : State) (line : Nat) : State :=
  ((List.range 8).foldl (fun s b => s.setLine b line .i) s).setDir line .uncached

/-- Message kinds as `Msg.coh` carries them, in the order of the table of R168. -/
def cohRds : Nat := 0
/-- RDO (R168). -/
def cohRdo : Nat := 1
/-- UPG (R168). -/
def cohUpg : Nat := 2
/-- WB (R168). -/
def cohWb : Nat := 3
/-- EVC (R168). -/
def cohEvc : Nat := 4
/-- DATA_S (R168). -/
def cohDataS : Nat := 5
/-- DATA_E (R168). -/
def cohDataE : Nat := 6
/-- GRANT (R168). -/
def cohGrant : Nat := 7
/-- INV (R168). -/
def cohInv : Nat := 8
/-- FETCH (R168). -/
def cohFetch : Nat := 9
/-- ACK_INV (R168). -/
def cohAckInv : Nat := 10
/-- DATA_F (R168). -/
def cohDataF : Nat := 11
/-- NONE_F (R168). -/
def cohNoneF : Nat := 12
/-- ACK_WB (R168). -/
def cohAckWb : Nat := 13

/-- The access that a Board has still to complete on a line (R170). -/
def State.dueOf (s : State) (board line : Nat) : Nat := Tbl.get (fun _ => 0) s.hbm.due (line * 8 + board)

/-- The state with the access that a Board owes on a line replaced. -/
def State.setDue (s : State) (board line n : Nat) : State :=
  s.putHbm { s.hbm with due := Tbl.set (fun _ => 0) s.hbm.due (line * 8 + board) n }

/-- A Board's access of a line it holds completes the one that requested it (R170): a read, or a write where ownership was. -/
def State.payDue (s : State) (board line : Nat) (wr : Bool) : State :=
  if s.dueOf board line = 0 ∨ (s.dueOf board line = 2 ∧ wr = false) then s else s.setDue board line 0

/-- The home's queue for a line. -/
def State.homeLine (s : State) (line : Nat) : HomeLine := Tbl.get (fun _ => { txn := none, wait := [] }) s.hbm.home line

/-- The state with the home's queue for a line replaced. -/
def State.setHomeLine (s : State) (line : Nat) (h : HomeLine) : State :=
  s.putHbm { s.hbm with home := Tbl.set (fun _ => { txn := none, wait := [] }) s.hbm.home line h }

/-- A request as the home treats it: an UPG whose Board no longer holds the line in S is a read for ownership. -/
def State.effReq (s : State) (line board : Nat) (r : CohReq) : CohReq :=
  match r with
  | .upg => if s.lineSt board line == .s then .upg else .rdo
  | r => r

/-- The Boards that must answer before a request is served (R168): the owner by FETCH, or every other sharer by INV. -/
def State.mustAnswer (s : State) (line board : Nat) (r : CohReq) : BitVec 8 :=
  match s.dirOf line with
  | .uncached => 0
  | .owned b => if b.toNat = board then 0 else 1 <<< b.toNat
  | .shared m => if r == .rds then 0 else m &&& ~~~((1 : BitVec 8) <<< board)

/-- The home takes up a request (R169). -/
def State.cohOpen (s : State) (line board : Nat) (r : CohReq) (wait : List (BitVec 3 × CohReq)) : State :=
  let r := s.effReq line board r
  let m := s.mustAnswer line board r
  let owned := match s.dirOf line with | .owned _ => true | _ => false
  s.setHomeLine line { txn := some { board := BitVec.ofNat 3 board, req := r, fetch := owned, send := m, await := m }, wait := wait }

/-- Take up the oldest waiting request if the line has no transaction (R169). -/
def State.cohServe (s : State) (line : Nat) : State :=
  let h := s.homeLine line
  match h.txn, h.wait with
  | none, (b, r) :: t => s.cohOpen line b.toNat r t
  | _, _ => s

/-- A Board leaves the directory's record of a line (R167). -/
def State.dirDrop (s : State) (board line : Nat) : State :=
  match s.dirOf line with
  | .owned b => if b.toNat = board then s.setDir line .uncached else s
  | .shared m =>
    let m := m &&& ~~~((1 : BitVec 8) <<< board)
    s.setDir line (if m = 0 then .uncached else .shared m)
  | .uncached => s

/-- A line in M is written back (R167, R168): the line goes to I, the home absorbs the data and owes an ACK_WB. -/
def State.writeBack (s : State) (b n : Nat) : State :=
  let s := (((s.setLine b n .i).setDue b n 0).dirDrop b n).emit (.coh cohWb b n)
  s.putHbm { s.hbm with acks := s.hbm.acks ++ [(b, n)] }

/-- A clean line is dropped (R167, R168). -/
def State.evictClean (s : State) (b n : Nat) : State :=
  (((s.setLine b n .i).setDue b n 0).dirDrop b n).emit (.coh cohEvc b n)

/-- The lines that a Board's cache holds. -/
def State.boardLines (s : State) (board : Nat) : List Nat := (s.hbm.cache.filter (fun e => e.1 % 8 == board)).map (fun e => e.1 / 8)

/-- Lines of a shared-state cache: 16 MiB (R145). -/
def sscLines : Nat := 262144

/-- A full cache evicts a line for a new one (R145, R167): which one is a free value (log entry 25). -/
def State.sscRoom (s : State) (b : Nat) : State :=
  let l := s.boardLines b
  if l.length < sscLines then s
  else
    let n := l.getD (Config.sscVictim b s.free % l.length) 0
    if s.lineSt b n == .m then s.draw.writeBack b n else s.draw.evictClean b n

/-- The owner of a line, or a sharer, drops it or hands it on as the open transaction asks (R168, R172). -/
def State.homeAnswer (line : Nat) (t : HomeTxn) (s : State) (b : Nat) : State :=
  let s := if t.send.getLsbD b then s.emit (.coh (if t.fetch then cohFetch else cohInv) b line) else s
  let held := s.lineSt b line != .i
  let s := s.setDue b line 0
  if t.fetch = false then ((s.setLine b line .i).dirDrop b line).emit (.coh cohAckInv b line)
  else if held = false then s.emit (.coh cohNoneF b line)
  else if t.req = .rds then ((s.setLine b line .s).setDir line (.shared (1 <<< b))).emit (.coh cohDataF b line)
  else ((s.setLine b line .i).setDir line .uncached).emit (.coh cohDataF b line)

/-- The transaction ends; the next request waits for HOME_QUEUE_SERVE (R169). -/
def State.cohEnd (s : State) (line : Nat) : State := s.setHomeLine line { s.homeLine line with txn := none }

/-- The requester of an RDS holds the line in S, and completes the load that asked (R168, R170). -/
def State.cohShare (s : State) (b n : Nat) : State :=
  let s := if s.lineSt b n == .i then s.sscRoom b else s
  let s := match s.dirOf n with
    | .shared m => s.setDir n (.shared (m ||| (1 <<< b)))
    | _ => s.setDir n (.shared (1 <<< b))
  ((((s.setLine b n .s).setDue b n 1).cohEnd n).emit (.coh cohDataS b n))

/-- Ownership reaches a Board: the line is in E there and nowhere else, and the store that asked is to complete (R168, R170). -/
def State.cohOwn (s : State) (board line kind : Nat) : State :=
  let s := if s.lineSt board line == .i then s.sscRoom board else s
  (((((s.dropCopies line).setLine board line .e).setDir line (.owned (BitVec.ofNat 3 board))).setDue board line 2).cohEnd line).emit
    (.coh kind board line)

/-- The open transaction of a line runs to its end (R168 to R170). -/
def State.homeFinish (s : State) (line : Nat) : State :=
  match (s.homeLine line).txn with
  | none => s
  | some t =>
    let s := ((List.range 8).filter (fun b => t.await.getLsbD b)).foldl (State.homeAnswer line t) s
    match t.req with
    | .rds => s.cohShare t.board.toNat line
    | .rdo => s.cohOwn t.board.toNat line cohDataE
    | .upg => s.cohOwn t.board.toNat line cohGrant

/-- An access that finds a line busy waits in the home queue behind the requests there (R169): they are served first, in their
order. -/
def State.homeSettle (s : State) (line : Nat) : State :=
  (List.range ((s.homeLine line).wait.length + 1)).foldl (fun s _ => (s.homeFinish line).cohServe line) s

/-- The homes of the lines of a range answer, and no unreachable Board owns one of them (R22, R26). -/
def State.homesUp (s : State) (off n : Nat) : Bool :=
  (linesOf off n).all (fun l => s.reachable (bankChip (homeBank l)) && (match s.dirOf l with
    | .owned b => s.reachable (boardChip b.toNat)
    | _ => true))

/-- Some line of [off, off + n) is poisoned. -/
def State.poisonedIn (s : State) (off n : Nat) : Bool := (linesOf off n).any s.isPoisoned

/-- HBM bytes as every agent reads them (R173): the caches are coherent, so there is one value per byte. -/
def State.hbmRead (s : State) (off n : Nat) : List Byte := Tbl.readBytes s.hbm.mem off n

/-- The bytes of HBM replaced, and the poison of fully written lines cleared (R174). -/
def State.hbmPut (s : State) (off : Nat) (l : List Byte) : State :=
  let s := s.eccWipe hbmGroups (hbmBase + off) l.length
  let s := s.putHbm { s.hbm with mem := Tbl.writeBytes s.hbm.mem off l }
  (linesOf off l.length).foldl (fun s n =>
    if off ≤ n * 64 ∧ n * 64 + 64 ≤ off + l.length then s.setPoison n false else s) s

/-- An uncached coherent write: every cached copy is invalidated (R173). -/
def State.hbmWrite (s : State) (off : Nat) (l : List Byte) : State :=
  if l.isEmpty then s else (linesOf off l.length).foldl (fun s n => (s.homeSettle n).dropCopies n) (s.hbmPut off l)

/-- An owner in M that an uncached read fetches from keeps the line shared (R168, R169, R173). -/
def State.fetchForRead (s : State) (line : Nat) : State :=
  let s := s.homeSettle line
  match s.dirOf line with
  | .owned b => (s.setLine b.toNat line .s).setDir line (.shared (1 <<< b.toNat))
  | _ => s

/-- A Board's cache obtains a line for a load (R167 to R170): a line it holds is there; else its request takes its turn. -/
def State.acquireShared (s : State) (board line : Nat) : State :=
  let s := if s.lineSt board line == .i then s.homeSettle line else s
  if s.lineSt board line != .i then s.payDue board line false
  else
    let s := ((s.fetchForRead line).sscRoom board).setLine board line .s
    match s.dirOf line with
    | .shared m => s.setDir line (.shared (m ||| (1 <<< board)))
    | _ => s.setDir line (.shared (1 <<< board))

/-- A Board's cache owns a line (R167). -/
def State.ownsLine (s : State) (board line : Nat) : Bool := s.lineSt board line == .e || s.lineSt board line == .m

/-- A Board's cache obtains a line for a store (R167 to R170): every other copy is dropped; `wr`: the line is modified. -/
def State.acquireOwned (s : State) (board line : Nat) (wr : Bool) : State :=
  let s := if s.ownsLine board line then s else s.homeSettle line
  if s.ownsLine board line then
    let s := s.payDue board line true
    if wr then s.setLine board line .m else s
  else
    let s := if s.lineSt board line == .i then s.sscRoom board else s
    ((s.dropCopies line).setLine board line (if wr then .m else .e)).setDir line (.owned (BitVec.ofNat 3 board))

/-- A store of an engine to HBM through its Board's cache (R167). -/
def State.hbmStore (s : State) (board off : Nat) (l : List Byte) : State :=
  (linesOf off l.length).foldl (fun s n => s.acquireOwned board n true) (s.hbmPut off l)

/-- The HBM address range of the key table (R329). -/
def keyTableRange (off n : Nat) : Bool := decide (off < 0x404000000 ∧ 0x400000000 < off + n)

/-- An HBM access is answered by a bus error: HBM is not mapped (R19), the access leaves its range, or a home does not answer (R22). -/
def State.hbmRefuses (s : State) (addr n : Nat) : Bool := !s.hbmMapped || !inHbm addr n || !s.homesUp (addr - hbmBase) n

/-- A coherent read by an agent other than a cache (R173): none is a bus error (R19, R174). -/
def State.hbmGet (s : State) (addr n : Nat) : Option (List Byte) × State :=
  if s.hbmRefuses addr n || s.poisonedIn (addr - hbmBase) n then (none, s)
  else
    let off := addr - hbmBase
    let e := s.eccRead hbmGroups addr n false
    (if e.1 then none else some (s.hbmRead off n), (linesOf off n).foldl State.fetchForRead e.2)

/-- A coherent write by such an agent (R173): whether it was made. -/
def State.hbmSet (s : State) (addr : Nat) (l : List Byte) : Bool × State :=
  if s.hbmRefuses addr l.length then (false, s) else (true, s.hbmWrite (addr - hbmBase) l)

/-- Reads of HBM by a unit of the device, each a coherent access (R173): whether all of them gave data. -/
def State.hbmTouch (s : State) : List (Nat × Nat) → Bool × State
  | [] => (true, s)
  | (off, n) :: l =>
    let r := s.hbmGet (hbmBase + off) n
    let q := State.hbmTouch r.2 l
    (r.1.isSome && q.1, q.2)

/-- A read of [off, off + n) gives no data: a bus error, poison or an uncorrectable error (R22, R174). -/
def State.hbmBad (s : State) (off n : Nat) : Bool :=
  s.hbmRefuses (hbmBase + off) n || s.poisonedIn off n || (s.eccRead hbmGroups (hbmBase + off) n false).1

/-- A write of HBM by a unit of the device (R173); nothing is stored where it ends with a bus error. -/
def State.hbmPutBy (s : State) (off : Nat) (l : List Byte) : State := (s.hbmSet (hbmBase + off) l).2

/-- The first n bytes of HBM are written with zeros by the device: no copy, no poison and no error of them is left (R173, R174). -/
def State.hbmClear (s : State) (n : Nat) : State :=
  let s := ((s.hbm.home.map (fun e => e.1)).filter (fun l => decide (l * 64 < n))).foldl State.homeSettle s
  let s := (((s.hbm.cache.map (fun (e : Nat × LineState) => e.1 / 8)) ++ s.hbm.dir.map (fun (e : Nat × DirEntry) => e.1)).filter (fun l => decide (l * 64 < n))).foldl
    State.dropCopies s
  (s.putHbm { s.hbm with mem := s.hbm.mem.filter (fun e => decide (n ≤ e.1))
                         poison := s.hbm.poison.filter (fun e => decide (n ≤ e.1 * 64)) }).eccWipe hbmGroups hbmBase n

/-- [off, off + n) touches one of the first four storage regions (R371). -/
def stoRegion (off n : Nat) : Bool :=
  decide (off < 0xA00200000 ∧ 0x800000000 < off + n) || decide (off < 0xA00800000 ∧ 0xA00400000 < off + n)
    || decide (off < 0xB10000000 ∧ 0xB00000000 < off + n)

/-- BNK_STO_CTL.READY (R382). -/
def State.stoReady (s : State) : Bool := s.serving && s.hbmMapped && (List.range 4).all (fun k => s.flag F.BNK_STO_CTL.EN k)

/-! ## Local, cluster and program memory -/

/-- Bytes of an engine's local memory (R100). -/
def State.localRead (s : State) (eng off n : Nat) : List Byte := Tbl.readBytes s.eng.localMem (eng * 32768 + off) n

/-- The state after a write to local memory. -/
def State.localWrite (s : State) (eng off : Nat) (l : List Byte) : State :=
  s.putEng { s.eng with localMem := Tbl.writeBytes s.eng.localMem (eng * 32768 + off) l }

/-- Bytes of a cluster's memory (R100). -/
def State.clusterRead (s : State) (cl off n : Nat) : List Byte := Tbl.readBytes s.eng.clusterMem (cl * 0x400000 + off) n

/-- The state after a write to cluster memory. -/
def State.clusterWrite (s : State) (cl off : Nat) (l : List Byte) : State :=
  let s := s.eccWipe (clusterGroups cl) off l.length
  (s.putEng { s.eng with clusterMem := Tbl.writeBytes s.eng.clusterMem (cl * 0x400000 + off) l })

/-- A word of a cluster's program store (R152). -/
def State.progWord (s : State) (cl idx : Nat) : Word := Tbl.get (fun _ => 0) s.eng.pstore (cl * 262144 + idx)

/-- The device address of a program-store word (R152). -/
def progAddr (cl idx : Nat) : Nat := 0x100800000 + cl / 8 * 0x1000000 + cl % 8 * 0x100000 + idx * 4

/-- A write of a program-store word (R152). -/
def State.progWrite (s : State) (cl idx : Nat) (v : Word) : State :=
  let s := s.eccWipe (clusterGroups cl) (progAddr cl idx) 4
  (s.putEng { s.eng with pstore := Tbl.set (fun _ => 0) s.eng.pstore (cl * 262144 + idx) v })

/-- PROGRAM_STORE_WRITE (R152). -/
def execProgramStoreWrite (cl : BitVec 6) (index : BitVec 18) (v : BitVec 32) (s : State) : Res :=
  done (s.atChip (boardChip (cl.toNat / 8)) (fun s => s.progWrite cl.toNat index.toNat v))

/-- A block register's value as bytes B0 to B15, B0 first (R103). -/
def blockBytes (b : Block) : List Byte := beBytes 16 b.toNat

/-- The block register that bytes B0 to B15 make (R103). -/
def bytesBlock (l : List Byte) : Block := BitVec.ofNat 128 (beNat l)

/-- A word from four big-endian bytes (R103). -/
def bytesWord (l : List Byte) : Word := BitVec.ofNat 32 (beNat l)

end Sys2Proof.Machine
end

