-- ==== Sys2Proof/Machine/Ledgers.lean ====
section
/-! DEFINITION. The ledgers that outlive a unit's own file: the descriptors of the rings (R418 to R427) and the credit
books of the attach links (R490 to R493), which Confluence settles at a frame's commit, drop or release. -/
namespace Sys2Proof.Machine

/-! ## Ring descriptors -/

/-- A ring's key: instance, queue, receive ring or transmit ring. -/
def ringKey (inst q : Nat) (rx : Bool) : Nat := (inst * 64 + q) * 2 + b2n rx

/-- A ring with zero indices (R418). -/
def ringReset : Ring := { t := 0, f := 0, h := 0, desc := [], fetch := none, credit := 0, pend := none }

/-- A ring. -/
def State.ringOf (s : State) (k : Nat) : Ring := Tbl.get (fun _ => ringReset) s.ring.ring k

/-- The state with a ring replaced. -/
def State.setRing (s : State) (k : Nat) (r : Ring) : State :=
  s.putRing { s.ring with ring := Tbl.set (fun _ => ringReset) s.ring.ring k r }

/-- The list with the descriptor of an index changed. -/
def updDesc (idx : Nat) (f : RingDesc → RingDesc) (l : List RingDesc) : List RingDesc :=
  l.map (fun d => if d.idx = idx then f d else d)

/-- The DW0 to DW3 words of a descriptor. -/
def RingDesc.dw (d : RingDesc) (n : Nat) : Word := match d.words with | some l => l.getD n 0 | none => 0

/-- A busy descriptor is done (R427); one that is done already stays as it is. -/
def RingDesc.finish (code flen reason : Nat) (d : RingDesc) : RingDesc :=
  if d.st = .busy then { d with st := .done code flen reason } else d

/-- Codes of R424. -/
def dcOk : Nat := 0
/-- MALFORMED (R424). -/
def dcMalformed : Nat := 1
/-- BUSERR (R424). -/
def dcBusErr : Nat := 2
/-- DATAERR (R424). -/
def dcDataErr : Nat := 3
/-- DROPPED (R424). -/
def dcDropped : Nat := 4
/-- TRUNC (R424). -/
def dcTrunc : Nat := 5

/-- Change the descriptor a frame came from, unless its GEN is stale (R453). -/
def State.updRef (s : State) (desc : Option DescRef) (f : RingDesc → RingDesc) : State :=
  match desc with
  | none => s
  | some d =>
    if d.gen = s.fld F.RNG_FN_FRZ.GEN d.inst then
      let k := ringKey d.inst d.q false
      let r := s.ringOf k
      s.setRing k { r with desc := updDesc d.idx f r.desc }
    else s

/-- A transmit frame is done (R427): its descriptor takes its status; bytes read are DW2.LEN. -/
def State.descDone (s : State) (desc : Option DescRef) (code reason : Nat) : State :=
  s.updRef desc (fun d => d.finish code (fieldOf (d.dw 2) 13 0) reason)

/-- The MAC returned a transmit stamp to the descriptor of a frame (R477). -/
def State.descStamp (s : State) (desc : Option DescRef) (ns sec : Nat) : State :=
  s.updRef desc (fun d => { d with ts := some (ns, sec) })

/-! ## Attach credits -/

/-- The books of a link that has never been up. -/
def credReset : CredBook := { ret := 0, due := 0, last := none, sent := 0 }

/-- The credit books of an attach link. -/
def State.credBook (s : State) (a : Nat) : CredBook := Tbl.get (fun _ => credReset) s.link.cred a

/-- The state with the credit books of an attach link replaced. -/
def State.setCred (s : State) (a : Nat) (c : CredBook) : State :=
  s.putLink { s.link with cred := Tbl.set (fun _ => credReset) s.link.cred a c }

/-- A data frame of an attach link retires: its credit becomes due (R491).  RXHELD counts it until it is sent (R490). -/
def State.retireCredit (s : State) (i : Input) : State :=
  match i with
  | .attach a => s.setCred a.toNat { s.credBook a.toNat with due := (s.credBook a.toNat).due + 1 }
  | _ => s

/-- TXAVAIL of a link (R490, R493): zero until the first valid header since link-up. -/
def CredBook.txAvail (c : CredBook) : Nat :=
  match c.last with
  | none => 0
  | some l => (l + 65536 - c.sent % 65536) % 65536

/-- ATL_CRED.TXAVAIL follows the books (R490). -/
def State.showTxAvail (s : State) (a : Nat) : State := s.setFld F.ATL_CRED.TXAVAIL a (s.credBook a).txAvail

/-- The cumulative return is sent in a frame's CREDIT field (R492): what was due leaves RXHELD. -/
def State.sendReturn (s : State) (a : Nat) : State :=
  let c := s.credBook a
  (s.setCred a { c with ret := (c.ret + c.due) % 65536, due := 0 }).setFld F.ATL_CRED.RXHELD a
    (s.fld F.ATL_CRED.RXHELD a - c.due)

end Sys2Proof.Machine
end

