-- ==== Sys2Proof/Machine/Confluence.lean ====
section
/-! DEFINITION. Confluence (07): cells, handles and books, the commit stage, admission, spill, replication, Eddy. -/
namespace Sys2Proof.Machine

/-- The key of an input (R33). -/
def inputKey : Input → Nat
  | .port p => p.toNat
  | .attach a => 256 + a.toNat
  | .none => 512
  | .ring n q => 1024 + n * 64 + q.toNat
  | .sq n q => 4194304 + n * 128 + q.toNat

/-- KIND of an input, as in R209. -/
def inputKind : Input → Nat
  | .port _ => 0
  | .attach _ => 1
  | .ring _ _ => 2
  | .sq _ _ => 3
  | .none => 2

/-- INPUT of an input, as in R209. -/
def inputNum : Input → Nat
  | .port p => p.toNat
  | .attach a => a.toNat
  | .ring n _ => n
  | .sq n _ => n
  | .none => 0xFFFF

/-- Cells of 256 B in all (R254). -/
def cellTotal : Nat := 1048576

/-- Cells that hold n bytes. -/
def cellsFor (n : Nat) : Nat := (n + 255) / 256

/-! ## Books (R259 to R261) -/

/-- The free book below 131,072, or not above 524,288, is noted for the policies' interval (R268, R312). -/
def State.watchFree (s : State) : State :=
  s.putCfl { s.cfl with
      admLow := s.cfl.admLow || decide (s.cfl.books.free < 131072)
      ecnLow := s.cfl.ecnLow || decide (s.cfl.books.free < 131072)
      ecnDip := s.cfl.ecnDip || decide (s.cfl.books.free ≤ 524288) }

/-- The state with the books replaced. -/
def State.setBooks (s : State) (b : Books) : State := s.putCfl { s.cfl with books := b }

/-- Allocation moves cells from free to the write pipeline (R259). -/
def Books.alloc (b : Books) (n : Nat) : Books :=
  let m := min n b.free
  { b with free := b.free - m, pipe := b.pipe + m }

/-- Cells of an uncommitted handle go to reclaim (R259). -/
def Books.pipeToReclaim (b : Books) (n : Nat) : Books :=
  let m := min n b.pipe
  { b with pipe := b.pipe - m, reclaim := b.reclaim + m }

/-- Commit moves cells from the write pipeline to queued (R259). -/
def Books.commit (b : Books) (n : Nat) : Books :=
  let m := min n b.pipe
  { b with pipe := b.pipe - m, queued := b.queued + m }

/-- A frame's final read moves its cells to reclaim (R259, R275). -/
def Books.queuedToReclaim (b : Books) (n : Nat) : Books :=
  let m := min n (b.queued - b.spilling)
  { b with queued := b.queued - m, reclaim := b.reclaim + m }

/-- Spill unlinks a frame: its cells enter reclaim while the queued book still counts them (R260). -/
def Books.spill (b : Books) (n : Nat) : Books :=
  let m := min n (b.queued - b.spilling)
  { b with reclaim := b.reclaim + m, spilling := b.spilling + m }

/-- A spill's cells leave the queued book (R260). -/
def Books.land (b : Books) (n : Nat) : Books :=
  let m := min n (min b.queued b.spilling)
  { b with queued := b.queued - m, spilling := b.spilling - m }

/-- Up to n cells return to free, never those whose queued book has not dropped (R259, R260). -/
def Books.toFree (b : Books) (n : Nat) : Books :=
  let m := min n (b.reclaim - b.spilling)
  { b with free := b.free + m, reclaim := b.reclaim - m }

/-- The oldest cells in reclaim return to the free list. -/
def State.freeCells (s : State) (n : Nat) : State :=
  let m := min n (s.cfl.books.reclaim - s.cfl.books.spilling)
  let l := s.cfl.rcl.take m
  State.watchFree (s.putCfl { s.cfl with
    books := s.cfl.books.toFree n, rcl := s.cfl.rcl.drop m, taken := s.cfl.taken.filter (fun c => !l.contains c) })

/-- RECLAIM_TO_FREE (R259): up to 64 cells in one clock. -/
def execReclaimToFree (n : Nat) (s : State) : Res := done (s.freeCells (min n 64))

/-- Cells enter reclaim, out of the queued book or out of the write pipeline (R259). -/
def State.reclaimCells (s : State) (l : List Nat) (queued : Bool) : State :=
  s.putCfl { s.cfl with
    rcl := s.cfl.rcl ++ l
    books := if queued then s.cfl.books.queuedToReclaim l.length else s.cfl.books.pipeToReclaim l.length }

/-- The numbers of the n cells that the free-cell manager gives next: free ones, found from a number that the spec leaves open. -/
def State.pickCells (s : State) (n : Nat) : List Nat :=
  let start := Config.firstCell s.free
  (((List.range (s.cfl.taken.length + n)).map (fun k => (start + k) % cellTotal)).filter
    (fun c => !s.cfl.taken.contains c)).take n

/-- n cells move from the free list to the write pipeline (R259). -/
def State.takeCells (s : State) (n : Nat) : List Nat × State :=
  let l := s.pickCells n
  (l, State.watchFree (s.draw.putCfl { s.cfl with taken := s.cfl.taken ++ l, books := s.cfl.books.alloc n }))

/-- A write of CFL_BOOK_SNAP captures the five books (R261). -/
def State.bookSnap (s : State) (v : Word) : State :=
  if bit v.toNat 0 then
    ((((s.setFld F.CFL_BOOK_FREE.CELLS 0 s.cfl.books.free).setFld F.CFL_BOOK_QUEUED.CELLS 0 s.cfl.books.queued).setFld
      F.CFL_BOOK_PIPE.CELLS 0 s.cfl.books.pipe).setFld F.CFL_BOOK_RECLAIM.CELLS 0 s.cfl.books.reclaim).setFld
      F.CFL_BOOK_SPILLING.CELLS 0 s.cfl.books.spilling
  else s

/-- BOOK_SNAP (R261). -/
def execBookSnap (v : BitVec 32) (s : State) : Res :=
  done (s.atChip 1 (fun s => s.bookSnap v))

/-! ## Handles (R254 to R257) -/

/-- The frame record at a first cell. -/
def State.frame (s : State) (first : Nat) : Option FrameRec := Tbl.get (fun _ => none) s.cfl.frames first

/-- The state with a frame record replaced. -/
def State.setFrame (s : State) (first : Nat) (f : Option FrameRec) : State :=
  s.putCfl { s.cfl with frames := Tbl.set (fun _ => none) s.cfl.frames first f }

/-- FIRST of a handle (R255). -/
def handleFirst (h : Word) : Nat := fieldOf h 19 0

/-- The live frame a handle names: KIND 1 and the current TAG (R255). -/
def State.handleFrame (s : State) (h : Word) : Option FrameRec :=
  if fieldOf h 31 28 = 1 then
    match s.frame (handleFirst h) with
    | some f => if f.tag.toNat = fieldOf h 27 20 then some f else none
    | none => none
  else none

/-- Change the frame record of a handle. -/
def State.updFrame (s : State) (h : Word) (g : FrameRec → FrameRec) : State :=
  match s.handleFrame h with
  | some f => s.setFrame (handleFirst h) (some (g f))
  | none => s

/-- Allocate n cells at once under the floor (R257); a failure is counted. -/
def State.allocCells (s : State) (n : Nat) : Option (List Nat) × State :=
  if n + s.fld F.CFL_CELL_FLOOR.CELLS 0 ≤ s.cfl.books.free then
    let r := s.takeCells n
    (some r.1, r.2)
  else (none, s.satInc F.CFL_ALLOC_FAIL.COUNT 0 1)


/-- The TAG that the free-cell manager last gave a first cell (R255). -/
def State.cellTag (s : State) (c : Nat) : BitVec 8 := Tbl.get (fun _ => 0) s.cfl.tags c

/-- A frame record stands at the first cell of its chain, whose TAG advances (R255). -/
def State.placeFrame (s : State) (f : FrameRec) : Nat × State :=
  let first := f.chain.headD 0
  let tag := s.cellTag first + 1
  let s := s.setFrame first (some { f with tag := tag })
  (first, s.putCfl { s.cfl with tags := Tbl.set (fun _ => 0) s.cfl.tags first tag })

/-- A new handle over cells already allocated (R255). -/
def State.newHandle (s : State) (f : FrameRec) : Word × State :=
  let r := s.placeFrame f
  (BitVec.ofNat 32 (r.1 + (r.2.cellTag r.1).toNat * 2 ^ 20 + 2 ^ 28), r.2)

/-- A frame record of a new handle over cells with the given bytes, the frame at `head` with length `len`. -/
def newFrame (chain : List Nat) (input : Input) (seq head len : Nat) (bytes : List Byte) : FrameRec :=
  { head := head, len := len, tag := 0, chain := chain, base := 0, refs := 0, board := none, owner := none, input := input
    seq := seq, slot := none, bytes := bytes, gated := [], stamp := 0, committed := false, cls := 0, desc := none, ts := none }

/-- The cells of a frame go to reclaim and its record ends. -/
def State.reclaimFrame (s : State) (first : Nat) : State :=
  match s.frame first with
  | none => s
  | some f => ((s.setFrame first none).descDone f.desc dcDropped 0).reclaimCells f.chain f.committed

/-! ## ECC words of a handle's cells (R254, R258) -/

/-- The parts of [off, off + n) of a handle in its cells: offset in the handle, byte of the cell buffer, length. -/
def FrameRec.parts (f : FrameRec) (off n : Nat) : List (Nat × Nat × Nat) :=
  (List.range ((off + n + 255) / 256 - off / 256)).filterMap (fun i =>
    let k := off / 256 + i
    let lo := max off (k * 256)
    let hi := min (off + n) (k * 256 + 256)
    if k < f.base then none else (f.chain[k - f.base]?).map (fun c => (lo, c * 256 + lo % 256, hi - lo)))

/-- The erroneous words that a read of [off, off + n) of a handle reaches, with the offset of each in the handle. -/
def State.cellEcc (s : State) (f : FrameRec) (off n : Nat) : List (Nat × Nat × Nat) :=
  (f.parts off n).flatMap (fun p => (s.eccIn cellGroups p.2.1 p.2.2).map (fun e => (p.1 + (e.1 % 2 ^ 48 - p.2.1), e)))

/-- A write of [off, off + n) of a handle: the words it covers are good. -/
def State.cellWipe (s : State) (f : FrameRec) (off n : Nat) : State :=
  (f.parts off n).foldl (fun s p => s.eccWipe cellGroups p.2.1 p.2.2) s

/-- A frame is done for its transmit descriptor, if it came from a ring (R427). -/
def State.frameDone (s : State) (first code reason : Nat) : State :=
  match s.frame first with
  | none => s
  | some f => s.descDone f.desc code reason

/-- A frame's cells enter the queued book, once (R259). -/
def State.commitFrame (s : State) (first : Nat) : State :=
  match s.frame first with
  | none => s
  | some f =>
    if f.committed then s
    else (s.setFrame first (some { f with committed := true })).setBooks (s.cfl.books.commit f.cells)

/-- One reference more (R275). -/
def State.addRef (s : State) (first : Nat) : State :=
  match s.frame first with
  | none => s
  | some f => s.setFrame first (some { f with refs := f.refs + 1 })

/-- One reference less: at zero the cells go to reclaim (R275). -/
def State.dropRef (s : State) (first : Nat) : State :=
  match s.frame first with
  | none => s
  | some f => if f.refs ≤ 1 then s.reclaimFrame first else s.setFrame first (some { f with refs := f.refs - 1 })

/-! ## Intake slots (R30, R32, R35) -/

/-- The thread's slot frees: the credit starts back to the Bank, and the steering entry's INFLIGHT drops (R30, R35). -/
def State.freeSlot (s : State) (board : Nat) (slot : Option (Nat × Nat)) : State :=
  match slot with
  | none => s
  | some (bank, entry) =>
    let k := bank * 8 + board
    let n := bank * 4096 + entry
    let s := s.setFld F.BNK_STEER_TBL.INFLIGHT n (s.fld F.BNK_STEER_TBL.INFLIGHT n - 1)
    (s.putIntake { s.intake with
        held := Tbl.set (fun _ => 0) s.intake.held k (Tbl.get (fun _ => 0) s.intake.held k - 1)
        returning := Tbl.set (fun _ => 0) s.intake.returning k (Tbl.get (fun _ => 0) s.intake.returning k + 1) })

/-! ## The commit stage (R263 to R265) -/

/-- No number stamped, none waiting. -/
def inputReset : InputSt := { stamp := 0, next := 0, wait := [] }

/-- The numbers of an input. -/
def State.inputSt (s : State) (i : Input) : InputSt := Tbl.get (fun _ => inputReset) s.cfl.inputs (inputKey i)

/-- The state with the numbers of an input replaced. -/
def State.setInput (s : State) (i : Input) (x : InputSt) : State :=
  s.putCfl { s.cfl with inputs := Tbl.set (fun _ => inputReset) s.cfl.inputs (inputKey i) x }

/-- Unretired numbers of an input (R264). -/
def InputSt.unretired (x : InputSt) : Nat := (x.stamp + 65536 - x.next) % 65536

/-- The Bank may stamp a number for the input (R264). -/
def State.mayStamp (s : State) (i : Input) : Bool := decide ((s.inputSt i).unretired < 16384)

/-- Stamp the next number of an input (R33). -/
def State.stampSeq (s : State) (i : Input) : Nat × State :=
  let x := s.inputSt i
  (x.stamp, s.setInput i { x with stamp := (x.stamp + 1) % 65536 })

/-- A number the input has already retired: it lies behind `next` in the 16-bit order (R264, R265). -/
def InputSt.isLate (x : InputSt) (seq : Nat) : Bool :=
  decide (0 < (x.next + 65536 - seq) % 65536 ∧ (x.next + 65536 - seq) % 65536 ≤ 32768)

/-- The credit of a commit slot returns, if it used one. -/
def State.slotCredit (s : State) (c : CommitSlot) : State :=
  match c.th with | some th => s.returnCredit th | none => s

/-- A late enqueue or drop (R265): its cells are freed if its handle is current; counted; the credit returns. -/
def State.lateSlot (s : State) (c : CommitSlot) : State :=
  let s := match s.handleFrame c.handle with
    | some f => (s.reclaimFrame (handleFirst c.handle)).retireCredit f.input
    | none => s
  (s.satInc F.CFL_SEQ_LATE.COUNT 0 1).slotCredit c

/-- An enqueue, drop or retired number reaches the commit stage (R263, R265). -/
def State.sendCommit (s : State) (i : Input) (c : CommitSlot) : State :=
  let x := s.inputSt i
  if i != .none && x.isLate c.seq then s.lateSlot c
  else s.setInput i { x with wait := x.wait ++ [c] }

/-- The device retires a handle of a thread or Board with a drop (R32, R134): it is sent like a DROP.  A stale
handle only counts (R265). -/
def State.dropHandle (s : State) (h : Word) (reason : BitVec 8) : State :=
  match s.handleFrame h with
  | none => s.satInc F.CFL_SEQ_LATE.COUNT 0 1
  | some f =>
    let s := s.setFrame (handleFirst h) (some { f with board := none, owner := none, slot := none })
    let s := match f.board with | some b => s.freeSlot b f.slot | none => s
    s.sendCommit f.input { seq := f.seq, kind := .drop reason, handle := h, fword := 0, th := none }

/-! ## Admission (R267) -/

/-- The depth of a queue in cells. -/
def State.depth (s : State) (q : Nat) : Nat := s.fld F.CFL_QDEPTH.CELLS q

/-- The admission profile of a queue. -/
def State.profile (s : State) (q : Nat) : Nat := s.fld F.CFL_QADM.PROFILE q

/-- Alpha of a profile for a colour (R282). -/
def State.alpha (s : State) (p colour : Nat) : Nat :=
  if colour = 0 then s.fld F.CFL_PROF_W0.ALPHA_G p
  else if colour = 1 then s.fld F.CFL_PROF_W0.ALPHA_Y p
  else s.fld F.CFL_PROF_W0.ALPHA_R p

/-- The dynamic threshold of R267. -/
def State.admThreshold (s : State) (q colour : Nat) : Nat :=
  min ((s.alpha (s.profile q) colour * s.fld F.POL_CUR.VALUE 0 * s.cfl.books.free) >>> 8)
    (s.fld F.CFL_PROF_W2.MAXDEPTH (s.profile q))

/-- The queue's instance runs a function-wide reset, which refuses every copy to it (R455). -/
def State.instResets (s : State) (q : Nat) : Bool :=
  decide (s.fld F.CFL_QADM.INSTANCE q < 32800) && s.fld F.RNG_FN_FRZ.STATE (s.fld F.CFL_QADM.INSTANCE q) == 2

/-- Admission of n cells by the guaranteed share or the threshold (R267). -/
def State.admits (s : State) (q n colour : Nat) : Bool :=
  !s.instResets q && (decide (s.depth q + n ≤ s.fld F.CFL_PROF_W1.MIN (s.profile q))
    || decide (s.depth q + n ≤ s.admThreshold q colour))

/-- A refusal is counted against the profile and the instance, and noted for the policy (R267, R268). -/
def State.refuse (s : State) (q : Nat) : State :=
  let n := s.fld F.CFL_QADM.INSTANCE q
  let s := s.satInc F.CFL_PROF_W3.DROPS (s.profile q) 1
  let s := if n = 0xFFFF then s
    else s.wr64 .INS_ADM_DROPS .INS_ADM_DROPS_HI n ((s.rd64 .INS_ADM_DROPS .INS_ADM_DROPS_HI n + 1) % 2 ^ 64)
  (s.putCfl { s.cfl with admRefused := s.cfl.admRefused || decide (524288 < s.cfl.books.free) })

/-! ## Queues and spill lists (R270) -/

/-- The entries of a queue, head first. -/
def State.queue (s : State) (q : Nat) : List QEntry := Tbl.get (fun _ => []) s.cfl.queues q

/-- The state with a queue's entries replaced. -/
def State.setQueue (s : State) (q : Nat) (l : List QEntry) : State :=
  s.putCfl { s.cfl with queues := Tbl.set (fun _ => []) s.cfl.queues q l }

/-- The list of spill-eligible queues of a class. -/
def State.spillList (s : State) (c : Nat) : List Nat := Tbl.get (fun _ => []) s.cfl.spillLists c

/-- The state with a spill list replaced. -/
def State.setSpillList (s : State) (c : Nat) (l : List Nat) : State :=
  s.putCfl { s.cfl with spillLists := Tbl.set (fun _ => []) s.cfl.spillLists c l }

/-- SPILL_MIN of a queue's profile. -/
def State.spillMin (s : State) (q : Nat) : Nat := s.fld F.CFL_PROF_W1.SPILL_MIN (s.profile q)

/-- A queue leaves every spill list. -/
def State.unlist (s : State) (q : Nat) : State :=
  s.putCfl { s.cfl with spillLists := s.cfl.spillLists.map (fun e => (e.1, e.2.filter (· != q))) }

/-- A queue joins the tail of its class's spill list, if it has room (R270). -/
def State.list (s : State) (q : Nat) : State :=
  let c := s.fld F.CFL_QADM.CLASS q
  let l := s.spillList c
  if l.contains q then s
  else if l.length < 4096 then s.setSpillList c (l ++ [q])
  else s.satInc F.CFL_SPILL_UNLISTED.COUNT 0 1

/-- A queue's depth changes; it joins the spill list of its class or leaves its list (R270). -/
def State.setDepth (s : State) (q d : Nat) : State :=
  let old := s.depth q
  let s := s.setFld F.CFL_QDEPTH.CELLS q d
  if d ≤ s.spillMin q then s.unlist q
  else if s.flag F.CFL_QADM.SPILL_OK q && decide (old ≤ s.spillMin q) then s.list q
  else s

/-- A write of CFL_QADM (R281).  A queue's list is that of its class and of SPILL_OK 1 (R270).  DESIGN CHOICE (log entry 32): a listed
queue whose CLASS changes moves to the tail of its new class's list, and one whose SPILL_OK clears leaves its list, with the write. -/
def State.qadmWrite (s : State) (q : Nat) (v : Word) : State :=
  let c := s.fld F.CFL_QADM.CLASS q
  let on := (s.spillList c).contains q
  let s := s.writeTyped .CFL_QADM q v
  if on = false then s
  else if s.flag F.CFL_QADM.SPILL_OK q = false then s.unlist q
  else if s.fld F.CFL_QADM.CLASS q = c then s
  else (s.unlist q).list q

/-- A frame or copy of n cells joins the tail of a queue (R266). -/
def State.enqueue (s : State) (q : Nat) (e : QEntry) (n : Nat) : State :=
  (s.setQueue q (s.queue q ++ [e])).setDepth q (s.depth q + n)

/-- Depth of a queue without the cells of frames already unlinked (R271). -/
def State.spillDepth (s : State) (q : Nat) : Nat :=
  s.depth q - (s.cfl.lands.filter (fun l => l.queue == q)).foldl (fun a l => a + l.depth) 0

/-- Cells of a queue entry's frame. -/
def State.entryCells (s : State) (e : QEntry) : Nat := match s.frame e.first with | some f => f.cells | none => 0

/-- Unlink the tail frame of a victim (R260, R271): the cells freed, and the state. -/
def State.unlinkTail (s : State) (q : Nat) (e : QEntry) : Nat × State :=
  let n := s.entryCells e
  let s := s.setQueue q (s.queue q).dropLast
  let last := match s.frame e.first with | some f => decide (f.refs ≤ 1) | none => false
  let gone := match last, s.frame e.first with | true, some f => f.chain | _, _ => []
  let s := if last then (s.frameDone e.first dcDropped 0 |>.setFrame e.first none).setBooks (s.cfl.books.spill n)
    else match s.frame e.first with
      | some f => s.setFrame e.first (some { f with refs := f.refs - 1 })
      | none => s
  let s := (s.satInc F.CFL_SPILL_FRAMES.COUNT 0 1).satInc F.CFL_SPILL_CELLS.COUNT 0 n
  (gone.length, (s.putCfl { s.cfl with lands := s.cfl.lands ++ [{ queue := q, depth := n, chain := gone }] }))

/-- Work one victim: at most `fuel` more frames, until `need` cells are freed (R271). -/
def State.workVictim (q need : Nat) : Nat → Nat → State → Nat × State
  | 0, freed, s => (freed, s)
  | fuel + 1, freed, s =>
    match (s.queue q).getLast? with
    | none => (freed, s)
    | some e =>
      if freed < need ∧ s.spillMin q < s.spillDepth q then
        let r := s.unlinkTail q e
        State.workVictim q need fuel (freed + r.1) r.2
      else (freed, s)

/-- The head of the lowest non-empty spill list below a class, with its class (R271). -/
def State.spillHead (s : State) (cls : Nat) : Option (Nat × Nat) :=
  (List.range cls).findSome? (fun c => (s.spillList c).head?.map (fun q => (c, q)))

/-- Take up to two victims (R271): the cells freed, and the state. -/
def State.spillFor (cls need : Nat) : Nat → Nat → State → Nat × State
  | 0, freed, s => (freed, s)
  | fuel + 1, freed, s =>
    if need ≤ freed then (freed, s)
    else match s.spillHead cls with
      | none => (freed, s)
      | some (c, q) =>
        let r := State.workVictim q need 8 freed s
        let s := r.2.setSpillList c ((r.2.spillList c).filter (· != q) ++ [q])
        State.spillFor cls need fuel r.1 s

/-- Spill may act for a frame of queue q (R269). -/
def State.spillMay (s : State) (q : Nat) : Bool :=
  s.flag F.CFL_SPILL_CTL.EN 0 && decide (s.fld F.CFL_SPILL_CTL.MINCLASS 0 ≤ s.fld F.CFL_QADM.CLASS q)
    && decide (s.cfl.books.free < s.fld F.CFL_SPILL_CTL.LOW 0) && (s.spillHead (s.fld F.CFL_QADM.CLASS q)).isSome

/-- Admission of a unicast frame, with spill (R267, R271). -/
def State.admitOrSpill (s : State) (q n colour : Nat) : Bool × State :=
  if s.instResets q then (false, s.refuse q)
  else if s.admits q n colour then (true, s)
  else if s.spillMay q then
    let r := State.spillFor (s.fld F.CFL_QADM.CLASS q) n 2 0 s
    if n ≤ r.1 then (true, r.2) else (false, (r.2.satInc F.CFL_SPILL_FAIL.COUNT 0 1).refuse q)
  else (false, s.refuse q)

/-- SPILL_DEPTH_LAND (R260): the oldest unlinked frame leaves its queue's depth and the queued book. -/
def execSpillDepthLand (s : State) : Res :=
  match s.cfl.lands with
  | [] => done s
  | l :: rest =>
    let s := s.putCfl { s.cfl with lands := rest, rcl := s.cfl.rcl ++ l.chain }
    done ((s.setDepth l.queue (s.depth l.queue - l.depth)).setBooks (s.cfl.books.land l.cells))

/-! ## Eddy (R278 to R280) -/

/-- The session samples a candidate (R279): the answer, and the state after it is counted.  MODE 1 takes bits of Confluence's random
buffer, and no candidate while the Die has failed (R334, R336). -/
def State.eddySample (s : State) (ses : Nat) : Bool × State :=
  let n := s.fld F.EDY_SES_SAMPLE.SAMPLE ses
  let random := s.flag F.EDY_SES_CTL.MODE ses
  if random ∧ s.fld F.HDW_DIE_STATUS.STATE 0 = 2 then (false, s)
  else if n ≤ 1 then (true, s)
  else if random then
    (Config.eddyTakes s.free n, (s.putKeys { s.keys with
      rnd := Tbl.set (fun _ => 0) s.keys.rnd 8 (Tbl.get (fun _ => 0) s.keys.rnd 8 - 32), gens := s.keys.gens + 1 }).draw)
  else
    let c := Tbl.get (fun _ => 0) s.cfl.eddy ses + 1
    (decide (n ≤ c), (s.putCfl { s.cfl with eddy := Tbl.set (fun _ => 0) s.cfl.eddy ses (if n ≤ c then 0 else c) }))

/-- A mirror candidate of a session (R279): a copy of the frame at `first`, if sampled and admitted. -/
def State.eddyCandidate (s : State) (ses first head len : Nat) : State :=
  if s.flag F.EDY_SES_CTL.EN ses = false then s
  else
    let r := s.eddySample ses
    if r.1 = false then r.2
    else
      let s := r.2
      let q := s.fld F.EDY_SES_QUEUE.QUEUE ses
      let tr := s.fld F.EDY_SES_CTL.TRUNC ses * 64
      let e : QEntry := { first := first, head := head, len := if tr = 0 then len else min len tr
                          prep := s.fld F.EDY_SES_QUEUE.PREP ses, eddy := true }
      let n := s.entryCells e
      if s.admits q n 0 then
        (((s.commitFrame first).addRef first).enqueue q e n).satInc F.EDY_SES_COPIES.COUNT ses 1
      else (s.refuse q).satInc F.EDY_SES_DROPS.COUNT ses 1

/-- The EDY_SRC index of an input that is a network port or attach link (R285). -/
def eddySource : Input → Option Nat
  | .port p => some p.toNat
  | .attach a => some (256 + a.toNat)
  | _ => none

/-- A frame holds gated cells, which the outputs, replication and Eddy never read (R339). -/
def State.frameGated (s : State) (first : Nat) : Bool :=
  match s.frame first with | some f => !f.gated.isEmpty | none => false

/-- The ingress candidate of a committed frame, or with `dropped` of a refused frame or DROP (R278, R339). -/
def State.eddyIngress (s : State) (i : Input) (first head len : Nat) (dropped : Bool) : State :=
  match eddySource i with
  | none => s
  | some k =>
    if s.frameGated first then s else
    let ses := s.fld F.EDY_SRC.ING_SESSION k
    if s.flag F.EDY_SRC.ING_EN k && (!dropped || s.flag F.EDY_SES_CTL.DROPS ses) then s.eddyCandidate ses first head len
    else s

/-! ## Commit (R266) -/

/-- The cells that hold a byte from HEAD to HEAD + LENGTH − 1. -/
def trimCells (head len : Nat) : Nat := if len = 0 then 0 else (head + len - 1) / 256 + 1 - head / 256

/-- The commit instant is recorded (R310). -/
def State.stampFrame (s : State) (first : Nat) : State :=
  match s.frame first with
  | some f => s.setFrame first (some { f with stamp := s.replica 1 / 16 % 2 ^ 32 })
  | none => s

/-- Step 1 of a commit: trimming sends unused cells to reclaim (R266): FIRST of the frame from then on, and the state.  DEDUCED (log
entry 32): where the first cell is trimmed, the frame record stands at the first cell that is kept, whose TAG advances. -/
def State.trim (s : State) (first head len : Nat) : Nat × State :=
  match s.frame first with
  | none => (first, s)
  | some f =>
    let kept := (f.chain.drop (head / 256)).take (trimCells head len)
    let s := (s.setFrame first none).reclaimCells (f.chain.filter (fun c => !kept.contains c)) false
    let g := { f with chain := kept, base := head / 256, stamp := s.replica 1 / 16 % 2 ^ 32 }
    if kept.headD first = first then (first, s.setFrame first (some g)) else s.placeFrame g

/-- A refused or dropped frame (R266, R278): a mirror copy may take it first; else its cells go to reclaim. -/
def State.discardFrame (s : State) (i : Input) (first head len : Nat) : State :=
  let s := s.eddyIngress i first head len true
  match s.frame first with
  | some f => if f.refs = 0 then s.reclaimFrame first else s
  | none => s

/-- Commit of an ENQ (R266, R278). -/
def State.commitEnq (s : State) (i : Input) (first : Nat) (qword fword : Word) : State :=
  let head := fieldOf fword 31 16
  let len := fieldOf fword 15 0
  let q := fieldOf qword 19 0
  let x := s.trim first head len
  let e : QEntry := { first := x.1, head := head, len := len, prep := 0, eddy := false }
  let n := x.2.entryCells e
  let r := x.2.admitOrSpill q n (fieldOf qword 21 20)
  if r.1 then
    let s := ((r.2.commitFrame x.1).addRef x.1).enqueue q e n
    let s := if bit qword.toNat 22 then s.eddyCandidate (fieldOf qword 28 23) x.1 head len else s
    s.eddyIngress i x.1 head len false
  else (r.2.frameDone x.1 dcDropped 0xFF).discardFrame i x.1 head len

/-- Commit of an ENQM (R266, R274): the frame goes to the replication engine with the hold. -/
def State.commitEnqm (s : State) (i : Input) (first : Nat) (group : BitVec 16) (fword : Word) : State :=
  let head := fieldOf fword 31 16
  let len := fieldOf fword 15 0
  let x := s.trim first head len
  let s := (x.2.commitFrame x.1).addRef x.1
  let j : ReplJob := { first := x.1, group := group, head := head, len := len, input := i }
  let s := s.putCfl { s.cfl with repl := s.cfl.repl ++ [j] }
  s.eddyIngress i x.1 head len false

/-- A drop is counted by its reason (R132), and one of an attach link's frame against the link too (R41). -/
def State.dropCount (s : State) (i : Input) (reason : Nat) : State :=
  let s := s.putCfl { s.cfl with
    reasons := Tbl.set (fun _ => 0) s.cfl.reasons reason (Tbl.get (fun _ => 0) s.cfl.reasons reason + 1) }
  match i with
  | .attach a =>
    let k := a.toNat * 256 + reason
    s.putCfl { s.cfl with linkDrops := Tbl.set (fun _ => 0) s.cfl.linkDrops k (Tbl.get (fun _ => 0) s.cfl.linkDrops k + 1) }
  | _ => s

/-- Commit one slot of an input (R263, R265, R266). -/
def State.commitSlot (s : State) (i : Input) (c : CommitSlot) : State :=
  match c.kind with
  | .retired => s
  | .drop reason =>
    let s := s.dropCount i reason.toNat
    (match s.handleFrame c.handle with
    | some f => ((((s.stampFrame (handleFirst c.handle)).frameDone (handleFirst c.handle) dcDropped reason.toNat).discardFrame i
        (handleFirst c.handle) f.head f.len).retireCredit i)
    | none => s.satInc F.CFL_SEQ_LATE.COUNT 0 1).slotCredit c
  | .enq qword =>
    (match s.handleFrame c.handle with
    | some _ => (s.commitEnq i (handleFirst c.handle) qword c.fword).retireCredit i
    | none => s.satInc F.CFL_SEQ_LATE.COUNT 0 1).slotCredit c
  | .enqm g =>
    (match s.handleFrame c.handle with
    | some _ => (s.commitEnqm i (handleFirst c.handle) g c.fword).retireCredit i
    | none => s.satInc F.CFL_SEQ_LATE.COUNT 0 1).slotCredit c

/-- The slot an input may commit now: the one with its next number; for HNEW handles the oldest (R263). -/
def State.nextSlot (s : State) (i : Input) : Option CommitSlot :=
  let x := s.inputSt i
  if i == .none then x.wait.head? else x.wait.find? (fun c => c.seq == x.next)

/-- Commit the next enqueue or drop of an input, if it is there (R263). -/
def State.commitNext (s : State) (i : Input) : State :=
  match s.nextSlot i with
  | none => s
  | some c =>
    let x := s.inputSt i
    let s := s.setInput i { x with next := if i == .none then x.next else (x.next + 1) % 65536, wait := x.wait.erase c }
    s.commitSlot i c

/-- SEQ_SKIP_TIMEOUT (R265): the missing number is retired as dropped while a later one waits. -/
def execSeqSkipTimeout (i : Input) (s : State) : Res :=
  let x := s.inputSt i
  if i != .none && !x.wait.isEmpty && (s.nextSlot i).isNone then
    done ((s.setInput i { x with next := (x.next + 1) % 65536 }).satInc F.CFL_SEQ_SKIP.COUNT 0 1)
  else done s

/-! ## Multicast (R273 to R276) -/

/-- Destination entry i of list memory makes no copy for an input (R273). -/
def State.pruned (s : State) (i : Nat) (inp : Input) : Bool :=
  s.flag F.CFL_MC_LIST_W1.PRUNE i && s.fld F.CFL_MC_LIST_W1.INPUT i == inputNum inp
    && s.fld F.CFL_MC_LIST_W1.KIND i == inputKind inp

/-- One destination of a replication (R274). -/
def State.replicateTo (j : ReplJob) (s : State) (i : Nat) : State :=
  if s.pruned i j.input then s
  else
    let q := s.fld F.CFL_MC_LIST_W0.QUEUE i
    let e : QEntry := { first := j.first, head := j.head, len := j.len, prep := s.fld F.CFL_MC_LIST_W0.PREP i, eddy := false }
    let n := s.entryCells e
    if s.admits q n 0 then (s.addRef j.first).enqueue q e n else s.refuse q

/-- Replicate the oldest committed ENQM frame (R274, R275). -/
def State.replicate (s : State) : State :=
  match s.cfl.repl with
  | [] => s
  | j :: rest =>
    let s := s.putCfl { s.cfl with repl := rest }
    let g := j.group.toNat
    let n := if s.flag F.CFL_MC_GRP_W0.VALID g then s.fld F.CFL_MC_GRP_W1.COUNT g else 0
    let base := s.fld F.CFL_MC_GRP_W0.BASE g
    let s := ((List.range n).map (fun k => base + k)).foldl (State.replicateTo j) s
    let empty := match s.frame j.first with | some f => decide (f.refs ≤ 1) | none => false
    (if empty then (s.satInc F.CFL_MC_EMPTY.COUNT 0 1).frameDone j.first dcDropped 0xFF else s).dropRef j.first

/-- A write of CFL_MC_GRP_W1 stages a value (R276). -/
def execMcGroupW1Write (grp : BitVec 16) (v : BitVec 32) (s : State) : Res :=
  done (s.atChip 1 (fun s => s.setStage .CFL_MC_GRP_W1 grp.toNat (some v)))

/-- A write of CFL_MC_GRP_W0 commits both words, or counts in CFL_MC_REJ (R276). -/
def State.groupCommit (s : State) (g : Nat) (v : Word) : State :=
  let w1 := match s.staged .CFL_MC_GRP_W1 g with | some w => w | none => s.rd .CFL_MC_GRP_W1 g
  let n := fieldOf w1 10 0
  if 1024 < n ∨ 1048576 < fieldOf v 19 0 + n then s.satInc F.CFL_MC_REJ.COUNT 0 1
  else
    let s := ((s.writeTyped .CFL_MC_GRP_W1 g w1).setStage .CFL_MC_GRP_W1 g none).writeTyped .CFL_MC_GRP_W0 g v
    s.setFld F.CFL_MC_SYNC.DONE 0 1

/-- MC_GROUP_COMMIT (R276). -/
def execMcGroupCommit (grp : BitVec 16) (v : BitVec 32) (s : State) : Res :=
  done (s.atChip 1 (fun s => s.groupCommit grp.toNat v))

/-! ## Fences (R262) -/

/-- Reclaim one handle that a fenced Board still holds; its number is retired as a drop (R262). -/
def State.fenceFrame (board : Nat) (s : State) (first : Nat) : State :=
  match s.frame first with
  | none => s
  | some f =>
    if f.board = some board then
      let s := ((s.reclaimFrame first).freeSlot board f.slot).satInc F.CFL_FENCE_RECLAIM.COUNT 0 1 |>.retireCredit f.input
      if f.input == .none then s
      else s.sendCommit f.input { seq := f.seq, kind := .retired, handle := 0, fword := 0, th := none }
    else s

/-- Reclaim the cells of every handle a fenced Board holds (R262). -/
def State.fenceReclaim (s : State) (board : Nat) : State :=
  (s.cfl.frames.map (fun e => e.1)).foldl (State.fenceFrame board) s

/-! ## Register writes with rules of their own (R281) -/

/-- A write of CFL_HEADROOM: a multiple of 64 from 0 to 1,024, else no effect. -/
def State.headroomWrite (s : State) (v : Word) : State :=
  let n := fieldOf v 10 0
  if n % 64 = 0 ∧ n ≤ 1024 then s.setFld F.CFL_HEADROOM.BYTES 0 n else s

/-- A write of a word of a prepend entry (R277): the control word's bits [31:28] are reserved, and the entry ends after it. -/
def State.prepWrite (s : State) (i : Nat) (v : Word) : State :=
  if i % 32 < 16 then s.wr .CFL_PREP i v
  else if i % 32 = 16 then s.wr .CFL_PREP i (BitVec.ofNat 32 (fieldOf v 27 0))
  else s

/-- A write of CFL_SEQ_TMO: clamped to 100 to 100,000 µs. -/
def State.seqTmoWrite (s : State) (v : Word) : State := s.setFld F.CFL_SEQ_TMO.US 0 (clamp 100 100000 (fieldOf v 16 0))

end Sys2Proof.Machine
end

