-- ==== Sys2Proof/Machine/Sched.lean ====
section
/-! DEFINITION. The scheduler, shapers, policers, time gates, congestion marking and Gauge (08, R286 to R323). -/
namespace Sys2Proof.Machine

/-! ## Buckets (R297 to R302) -/

/-- Buckets after reset: sizes are zero. -/
def bucketReset : Buckets := { tc := 0, tp := 0, remC := 0, remP := 0, last := 0, debits := [] }

/-- One refill (R297): tokens and remainder of a bucket of rate R and the given limit in bytes, after Δ ns. -/
def refill (tokens : Int) (rem rate delta limit : Nat) : Int × Nat :=
  (min (tokens + (((rem + rate * delta) / 8000 : Nat) : Int)) (((limit * 1000 : Nat)) : Int), (rem + rate * delta) % 8000)

/-- Pending debits in bytes (R299). -/
def Buckets.pending (b : Buckets) : Nat := b.debits.foldl (· + ·) 0

/-- Both buckets refilled at a reading of the replica (R297, R299). -/
def Buckets.refillAt (b : Buckets) (now cir cbs pir pbs : Nat) : Buckets :=
  let d := now - b.last
  let c := refill b.tc b.remC cir d (cbs + b.pending)
  let p := refill b.tp b.remP pir d (pbs + b.pending)
  { b with tc := c.1, remC := c.2, tp := p.1, remP := p.2, last := max now b.last }

/-- The stored buckets of a node: subscriber n, or service 65,536 + n. -/
def State.nodeBuckets (s : State) (n : Nat) : Buckets := Tbl.get (fun _ => bucketReset) s.sch.node n

/-- The state with a node's buckets replaced. -/
def State.setNodeBuckets (s : State) (n : Nat) (b : Buckets) : State :=
  s.putSch { s.sch with node := Tbl.set (fun _ => bucketReset) s.sch.node n b }

/-- A node's buckets as an examination now finds them. -/
def State.nodeNow (s : State) (n : Nat) : Buckets :=
  (s.nodeBuckets n).refillAt (s.mono 1) (s.rd .SCH_N_CIR n).toNat (s.fld F.SCH_N_CBS.BYTES n) (s.rd .SCH_N_PIR n).toNat
    (s.fld F.SCH_N_PBS.BYTES n)

/-- The committed tokens less pending debits are at least zero and CIR is nonzero (R291, R292). -/
def State.nodeCommitted (s : State) (n : Nat) : Bool :=
  (s.rd .SCH_N_CIR n).toNat != 0 && decide ((0 : Int) ≤ (s.nodeNow n).tc - ((s.nodeNow n).pending * 1000 : Nat))

/-- The peak bucket permits a release (R291). -/
def State.nodePeakOk (s : State) (n : Nat) : Bool :=
  !s.flag F.SCH_N_CBS.SHAPE n || decide ((0 : Int) ≤ (s.nodeNow n).tp - ((s.nodeNow n).pending * 1000 : Nat))

/-- The debit of a release of L bytes at a node (R298). -/
def State.debitOf (s : State) (n len : Nat) : Nat :=
  ((len : Int) + signed 8 (s.fld F.SCH_N_PBS.ADJ n)).toNat

/-- A debit becomes pending at a node (R299). -/
def State.addDebit (s : State) (n len : Nat) : State :=
  s.setNodeBuckets n { s.nodeNow n with debits := (s.nodeNow n).debits ++ [s.debitOf n len] }

/-- The lowest committed token count (R298). -/
def tcFloor : Int := -16777216000

/-- A peak bucket after a debit (R298): a signed 48-bit count of millibytes (R297).  DESIGN CHOICE (log entry 33): the spec states no
count for a sum below the format, which only a node with SHAPE 0 reaches, so that one is any count of the format. -/
def peakLess (free : Nat) (tp : Int) (d : Nat) : Int :=
  let x := tp - ((d * 1000 : Nat) : Int)
  if x < -(2 ^ 47) then ((Config.peakTokens free % 2 ^ 48 : Nat) : Int) - 2 ^ 47 else x

/-- The oldest pending debit of a node lands (R298, R299). -/
def State.landDebit (s : State) (n : Nat) : State :=
  let b := s.nodeNow n
  match b.debits with
  | [] => s
  | d :: rest =>
    s.draw.setNodeBuckets n { b with tc := max (b.tc - ((d * 1000 : Nat) : Int)) tcFloor, tp := peakLess s.free b.tp d, debits := rest }

/-- The buckets of a policer. -/
def State.polBuckets (s : State) (n : Nat) : Buckets := Tbl.get (fun _ => bucketReset) s.sch.pol n

/-- The state with a policer's buckets replaced. -/
def State.setPolBuckets (s : State) (n : Nat) (b : Buckets) : State :=
  s.putSch { s.sch with pol := Tbl.set (fun _ => bucketReset) s.sch.pol n b }

/-- A policer's buckets as an operation now finds them; Tc refills at PIR while CIR exceeds it (R302). -/
def State.polNow (s : State) (n : Nat) : Buckets :=
  let pir := (s.rd .SCH_POL_PIR n).toNat
  (s.polBuckets n).refillAt (s.mono 1) (min (s.rd .SCH_POL_CIR n).toNat pir) (s.fld F.SCH_POL_CBS.BYTES n) pir
    (s.fld F.SCH_POL_PBS.BYTES n)

/-- POLC at a policer (R301): input colour (3 colour-blind) and byte count; the colour, and the state after it. -/
def State.police (s : State) (n incolour b : Nat) : Nat × State :=
  if b = 0 then
    (if incolour = 3 then 0 else incolour,
      if incolour = 1 then s.satInc F.SCH_POL_YELLOW.COUNT n 1
      else if incolour = 2 then s.satInc F.SCH_POL_RED.COUNT n 1 else s)
  else
    let k := s.polNow n
    let d : Int := ((b * 1000 : Nat) : Int)
    if incolour = 2 ∨ k.tp < d then (2, (s.setPolBuckets n k).satInc F.SCH_POL_RED.COUNT n 1)
    else if incolour = 1 ∨ k.tc < d then
      (1, (s.setPolBuckets n { k with tp := k.tp - d }).satInc F.SCH_POL_YELLOW.COUNT n 1)
    else (0, s.setPolBuckets n { k with tp := k.tp - d, tc := k.tc - d })

/-- Whole bytes of a millibyte count, rounded toward minus infinity, saturating to 32 bits signed (R318). -/
def tokenBytes (t : Int) : Word := sat32 (t / 1000)

/-! ## The tree (R287 to R290) -/

/-- The node number of service node n. -/
def svcNode (n : Nat) : Nat := 65536 + n

/-- The number of port node n in the tables of virtual times. -/
def portNode (n : Nat) : Nat := 131072 + n

/-- The tag key of a child that is a node; a queue's key is its number. -/
def nodeTag (n : Nat) : Nat := 1048576 + n

/-- The subscriber of a queue. -/
def State.qSub (s : State) (q : Nat) : Nat := s.fld F.SCH_Q_W0.PARENT q

/-- The service node of a subscriber. -/
def State.subSvc (s : State) (n : Nat) : Nat := svcNode (s.fld F.SCH_N_CFG.PARENT n)

/-- The port node of a service node. -/
def State.svcPort (s : State) (n : Nat) : Nat := s.fld F.SCH_N_CFG.PARENT n % 1024

/-- The port node of a queue. -/
def State.qPort (s : State) (q : Nat) : Nat := s.svcPort (s.subSvc (s.qSub q))

/-- The traffic class of a queue (R289). -/
def State.qClass (s : State) (q : Nat) : Nat := s.fld F.SCH_Q_W0.BAND q

/-- Queues with a frame in them. -/
def State.busyQueues (s : State) : List Nat := (s.cfl.queues.filter (fun e => !e.2.isEmpty)).map (fun e => e.1)

/-- Queues whose depth is nonzero (R290). -/
def State.deepQueues (s : State) : List Nat :=
  (s.regs.filter (fun e => e.1 % 1024 == Reg.ctorIdx .CFL_QDEPTH && (s.depth (e.1 / 1024) != 0))).map (fun e => e.1 / 1024)

/-- A node holds frames: some queue below it does (R290). -/
def State.nodeHolds (s : State) (n : Nat) : Bool :=
  s.deepQueues.any (fun q => s.qSub q == n || s.subSvc (s.qSub q) == n)

/-- The length the output sends without FCS (R277, R293). -/
def State.sendLen (s : State) (e : QEntry) : Nat :=
  e.len + (if e.prep = 0 then 0 else fieldOf (s.rd .CFL_PREP ((e.prep - 1) * 32 + 16)) 6 0)

/-! ## Time gates (R303 to R309) -/

/-- A port without gate lists in force. -/
def gateReset : GatePort := { oper := { base := 0, cycle := 0, len := 0 }, change := none }

/-- The gate lists of a port. -/
def State.gatePort (s : State) (p : Nat) : GatePort := Tbl.get (fun _ => gateReset) s.sch.gate p

/-- The state with the gate lists of a port replaced. -/
def State.setGatePort (s : State) (p : Nat) (g : GatePort) : State :=
  s.putSch { s.sch with gate := Tbl.set (fun _ => gateReset) s.sch.gate p g }

/-- The pending list's timing, from its registers (R306). -/
def State.pendList (s : State) (p : Nat) : GateList :=
  { base := (s.fld F.GATE_BASE_SHI.SEC p * 2 ^ 32 + (s.rd .GATE_BASE_SLO p).toNat) * 1000000000 + (s.rd .GATE_BASE_NS p).toNat
    cycle := s.fld F.GATE_CYCLE.NS p, len := min (s.fld F.GATE_LEN.COUNT p) 1024 }

/-- The word of entry i of buffer `buf` of a port. -/
def State.gateWord (s : State) (p buf i : Nat) : Word := s.rd .GATE_ENTRY ((p * 2 + buf) * 1024 + i)

/-- What a list does at an offset within its cycle (R304): entry, gates, and the offset at which that ends.  Entries
with interval 0 are skipped; the last entry's gates hold to the cycle's end. -/
def State.gateAtOffset (s : State) (p buf cycle x : Nat) : Nat → Nat → Nat → Nat × Nat × Nat → Nat × Nat × Nat
  | 0, _, _, last => (last.1, last.2.1, cycle)
  | fuel + 1, i, start, last =>
    let w := s.gateWord p buf i
    let n := fieldOf w 31 8
    if n = 0 then State.gateAtOffset s p buf cycle x fuel (i + 1) start last
    else if x < start + n then (i, fieldOf w 7 0, if fuel = 0 then cycle else min (start + n) cycle)
    else State.gateAtOffset s p buf cycle x fuel (i + 1) (start + n) (i, fieldOf w 7 0, cycle)

/-- The start of the cycle of a list that contains instant t (R304). -/
def GateList.cycleStart (g : GateList) (t : Nat) : Int :=
  (g.base : Int) + ((t : Int) - (g.base : Int)) / (g.cycle : Int) * (g.cycle : Int)

/-- The entry, the gates and the end of them for a list that has a cycle starting at `start`, at instant t, no later
than `limit`; past the cycle's end the last gates hold (R304, R307). -/
def State.gateInCycle (s : State) (p buf : Nat) (g : GateList) (start : Int) (t : Nat) (limit : Option Nat) : Nat × Nat × Nat :=
  let x := ((t : Int) - start).toNat
  let r := s.gateAtOffset p buf g.cycle (min x (g.cycle - 1)) g.len 0 0 (0, 0xFF, g.cycle)
  let e := if g.cycle ≤ x then t + 4294967296 else (start + (r.2.2 : Int)).toNat
  (r.1, r.2.1, match limit with | some l => min e l | none => e)

/-- Entry, gates and their end at a port at instant t (R304 to R309). -/
def State.gateAt (s : State) (p t : Nat) : Nat × Nat × Nat :=
  let g := s.gatePort p
  let buf := s.fld F.GATE_CTL.OPER p
  let next := s.pendList p
  let openAll := (0, 0xFF, t + 4294967296)
  match g.change with
  | some (ch, took) =>
    if ch ≤ t then (if next.cycle = 0 then openAll else s.gateInCycle p (1 - buf) next (next.cycleStart t) t none)
    else if g.oper.len = 0 ∨ g.oper.cycle = 0 then (0, 0xFF, ch)
    else
      let ext := s.fld F.GATE_EXT.NS p
      let st := g.oper.cycleStart t
      let lastStart := max (g.oper.cycleStart (ch - ext)) (g.oper.cycleStart took)
      s.gateInCycle p buf g.oper (min st lastStart) t (some ch)
  | none =>
    if g.oper.len = 0 ∨ g.oper.cycle = 0 then openAll
    else s.gateInCycle p buf g.oper (g.oper.cycleStart t) t none

/-- The gates of a port in effect at an instant (R309). -/
def State.gatesOf (s : State) (p t : Nat) : Nat := if s.flag F.GATE_CTL.EN p then (s.gateAt p t).2.1 else 0xFF

/-- Class b stays open at a port from t until `stop` (R305). -/
def State.openUntil (s : State) (p b stop : Nat) : Nat → Nat → Bool
  | 0, _ => false
  | fuel + 1, t =>
    let g := s.gateAt p t
    bit g.2.1 b && (decide (stop ≤ g.2.2) || (decide (t < g.2.2) && State.openUntil s p b stop fuel g.2.2))

/-- Lanes of a network port (R468). -/
def State.portLanes (s : State) (p : Nat) : Nat := 2 ^ s.fld F.MAC_PORT_CFG.WIDTH p

/-- The transmission time in ns of L bytes without FCS at w × 200 Gb/s (R305). -/
def txTime (len w : Nat) : Nat := (len + 24 + 25 * w - 1) / (25 * w)

/-- The gate of a class is open for a frame of L bytes (R305, R309). -/
def State.gateFits (s : State) (p b len : Nat) : Bool :=
  !s.flag F.GATE_CTL.EN p || s.openUntil p b (s.replica 1 + txTime len (s.portLanes p)) 4096 (s.replica 1)

/-- Show the gate position and states of a port (R319, R321). -/
def State.showGates (s : State) (p : Nat) : State :=
  let t := s.replica 1
  (s.setFld F.GATE_POS.ENTRY p (s.gateAt p t).1).setFld F.SCH_P_STAT.GATES p (s.gatesOf p t)

/-! ## What the outputs admit (R291, R292) -/

/-- A link that has no Slack water state. -/
def slackReset : SlackSt := { offer := none, agreed := none, win := none, place := none }

/-- The Slack water state of a link. -/
def State.slackSt (s : State) (k : Nat) : SlackSt := Tbl.get (fun _ => slackReset) s.link.slack k

/-- The start of window m (R479). -/
def SlackSched.w (c : SlackSched) (m : Nat) : Nat := m * c.p + c.o

/-- The first window index at or after instant t that the schedule sleeps in (R479 to R481). -/
def SlackSched.nextWin (c : SlackSched) (t : Nat) : Nat :=
  let m := if c.p = 0 then 0 else (t - c.o + c.p - 1) / c.p
  let m := max m c.start
  if c.skip = 0 then m else (m + c.skip - 1) / c.skip * c.skip

/-- The Slack water mode of a link: 0 OFF, 1 NEGOTIATING, 2 SCHEDULED, 3 ON_DEMAND (R498). -/
def State.slackMode (s : State) (k : Nat) : Nat :=
  if k < 256 then s.fld F.MAC_SLACK_STAT.MODE k else s.fld F.ATL_SLACK_STAT.MODE (k - 256)

/-- A window keeps the transmitter silent (R482, R484): until it has ended, and in ON_DEMAND until the receiver has
aligned. -/
def SlackWin.holds (w : SlackWin) (mode : Nat) : Bool := !w.ended || (mode == 3 && !w.aligned)

/-- Slack water lets a frame of L bytes go (R482, R484): no window holds it, and it ends before the next one. -/
def State.slackFits (s : State) (k len w : Nat) : Bool :=
  let t := s.replica 1
  !(match (s.slackSt k).win with | some x => x.holds (s.slackMode k) | none => false)
    && (decide (s.slackMode k < 2) || (match (s.slackSt k).agreed with
      | some c => c.skip == 0 || decide (t + txTime len w ≤ c.w (c.nextWin (t + 1)))
      | none => true))

/-- A network port's or attach link's link is up. -/
def State.macUp (s : State) (k : Nat) : Bool :=
  if k < 256 then s.flag F.MAC_PORT_STAT.LINK_UP k else s.flag F.ATL_STAT.LINK_UP (k - 256)

/-- The frames released to an output and not taken yet. -/
def State.outQueue (s : State) (n : Nat) : List OutItem := Tbl.get (fun _ => []) s.sch.outq n

/-- The state with the frames released to an output replaced. -/
def State.setOutQueue (s : State) (n : Nat) (l : List OutItem) : State :=
  s.putSch { s.sch with outq := Tbl.set (fun _ => []) s.sch.outq n l }

/-- The endpoint of an endpoint port node (R288). -/
def portEp (n : Nat) : Nat := (n - 288) % 32

/-- The receive ring of an instance that a frame of egress queue Q goes to (R416). -/
def State.rxRingOf (s : State) (inst q : Nat) : Nat := if s.flag F.RNG_FN_CTL.SVC_EFF inst then q % 64 else 0

/-- Fetched receive descriptors of a ring that no frame has taken. -/
def Ring.freeDescs (r : Ring) : Nat := (r.desc.filter (fun d => d.st == .ready)).length

/-- A receive descriptor is available for a frame of a queue (R39, R291, R394, R458): fetched, and not wanted by a frame that
was released before. -/
def State.rxAvail (s : State) (n q : Nat) : Bool :=
  let inst := s.fld F.CFL_QADM.INSTANCE q
  let r := s.rxRingOf inst q
  let may := s.mayIssue (inst / 1025) (inst % 1025) && s.fld F.RNG_FN_FRZ.STATE inst == 1
  let waiting := ((s.outQueue n).filter (fun o => s.fld F.CFL_QADM.INSTANCE o.queue == inst && s.rxRingOf inst o.queue == r)).length
  may && decide (waiting < (s.ringOf (ringKey inst r true)).freeDescs)

/-- The link of an endpoint that a port node serves is up (R288, R385). -/
def State.epUp (s : State) (n : Nat) : Bool := s.flag F.PCI_EP_STAT.LINKA_UP (portEp n)

/-- The output of port node n admits the class and head frame of queue q (R291).  Port nodes 320 to 351 have no queue (R385). -/
def State.portAdmits (s : State) (n q len : Nat) : Bool :=
  let b := s.qClass q
  if n < 256 then !bit (s.fld F.MAC_FC_HELD.HELD n) b && s.gateFits n b len
  else if n < 288 then decide ((s.outQueue n).length < s.fld F.ATL_CRED.TXAVAIL (n - 256))
  else s.rxAvail n q

/-- The output of a port node has room for a frame of L bytes of a class (R291, R292): fewer than two frames of the class wait, its link
is up (R471), and Slack water lets the frame go (R482, R484). -/
def State.portRoom (s : State) (n b len : Nat) : Bool :=
  decide (((s.outQueue n).filter (fun o => o.cls == b)).length < 2)
    && (if n < 288 then s.macUp n && s.slackFits n len (if n < 256 then s.portLanes n else 4) else s.epUp n)

/-- A queue is eligible (R291). -/
def State.queueEligible (s : State) (q : Nat) : Bool :=
  let sub := s.qSub q
  let svc := s.subSvc sub
  let n := s.svcPort svc
  match (s.queue q).head? with
  | none => false
  | some e =>
    s.flag F.SCH_Q_W0.EN q && s.flag F.SCH_N_CFG.EN sub && s.flag F.SCH_N_CFG.EN svc && decide (n < 320)
      && s.flag F.SCH_P_CFG.EN n && s.portAdmits n q (s.sendLen e)

/-- The output of a queue's port has room for its head frame.  DEDUCED (log entry 33): R292's two frames of a class at an output are that
class's room, so a walk passes over the queues of a class without room, which stay eligible. -/
def State.queueRoom (s : State) (q : Nat) : Bool :=
  match (s.queue q).head? with
  | none => false
  | some e => s.portRoom (s.qPort q) (s.qClass q) (s.sendLen e)

/-! ## Wakes and selection (R292 to R296) -/

/-- Each value once. -/
def dedup (l : List Nat) : List Nat := l.foldl (fun a x => if a.contains x then a else a ++ [x]) []

/-- The eligible queues. -/
def State.eligQueues (s : State) : List Nat := s.busyQueues.filter s.queueEligible

/-- The eligible subscriber nodes, given the eligible queues. -/
def State.eligSubs (s : State) (qs : List Nat) : List Nat := (dedup (qs.map s.qSub)).filter s.nodePeakOk

/-- The eligible service nodes, given the eligible subscribers. -/
def State.eligSvcs (s : State) (subs : List Nat) : List Nat := (dedup (subs.map s.subSvc)).filter s.nodePeakOk

/-- The start tag of a child. -/
def State.tagOf (s : State) (k : Nat) : Nat := Tbl.get (fun _ => 0) s.sch.tag k

/-- The virtual time of a node's band. -/
def State.vtime (s : State) (n b : Nat) : Nat := Tbl.get (fun _ => 0) s.sch.vtime (n * 8 + b)

/-- The state with a start tag replaced, modulo 2⁴⁸. -/
def State.setTag (s : State) (k v : Nat) : State :=
  s.putSch { s.sch with tag := Tbl.set (fun _ => 0) s.sch.tag k (v % 2 ^ 48) }

/-- The state with a virtual time replaced. -/
def State.setVtime (s : State) (n b v : Nat) : State :=
  s.putSch { s.sch with vtime := Tbl.set (fun _ => 0) s.sch.vtime (n * 8 + b) v }

/-- A child as a selection sees it: tag key, parent, band, weight, committed, number. -/
structure SchChild where
  key    : Nat
  parent : Nat
  band   : Nat
  weight : Nat
  comm   : Bool
  num    : Nat
deriving DecidableEq, Repr

/-- Queue q as a child. -/
def State.queueChild (s : State) (q : Nat) : SchChild :=
  { key := q, parent := s.qSub q, band := s.qClass q, weight := s.fld F.SCH_Q_W1.WEIGHT q, comm := true, num := q }

/-- Subscriber n as a child. -/
def State.subChild (s : State) (n : Nat) : SchChild :=
  { key := nodeTag n, parent := s.subSvc n, band := s.fld F.SCH_N_CFG.BAND n, weight := s.fld F.SCH_N_CFG.WEIGHT n
    comm := s.nodeCommitted n, num := n }

/-- Service node n as a child. -/
def State.svcChild (s : State) (n : Nat) : SchChild :=
  { key := nodeTag n, parent := portNode (s.svcPort n), band := s.fld F.SCH_N_CFG.BAND n
    weight := s.fld F.SCH_N_CFG.WEIGHT n, comm := s.nodeCommitted n, num := n }

/-- Every eligible child of the tree. -/
def State.eligChildren (s : State) : List SchChild :=
  let qs := s.eligQueues
  let subs := s.eligSubs qs
  qs.map s.queueChild ++ subs.map s.subChild ++ (s.eligSvcs subs).map s.svcChild

/-- A child wakes (R295). -/
def State.wake (s : State) (c : SchChild) : State :=
  let v := s.vtime c.parent c.band
  let d := (s.tagOf c.key + 2 ^ 48 - v % 2 ^ 48) % 2 ^ 48
  if 1 ≤ d ∧ d ≤ 2 ^ 32 then s else s.setTag c.key v

/-- The scheduler brings its conditions up to date: children that became eligible wake (R291, R295). -/
def State.settle (s : State) : State :=
  let cs := s.eligChildren
  let s' := (cs.filter (fun c => !Tbl.get (fun _ => false) s.sch.awake c.key)).foldl State.wake s
  (s'.putSch { s'.sch with awake := cs.foldl (fun t c => Tbl.set (fun _ => false) t c.key true) [] })

/-- Tag a precedes tag b (R294). -/
def precedes (a b : Nat) : Bool :=
  decide (1 ≤ (b + 2 ^ 48 - a % 2 ^ 48) % 2 ^ 48 ∧ (b + 2 ^ 48 - a % 2 ^ 48) % 2 ^ 48 ≤ 2 ^ 47 - 1)

/-- Child x is chosen before child y (R292). -/
def State.before (s : State) (x y : SchChild) : Bool :=
  if x.band ≠ y.band then decide (y.band < x.band)
  else if x.comm ≠ y.comm then x.comm
  else if s.tagOf x.key ≠ s.tagOf y.key then precedes (s.tagOf x.key) (s.tagOf y.key)
  else decide (x.num < y.num)

/-- The child the walk takes among eligible children of one node (R292). -/
def State.choose (s : State) : List SchChild → Option SchChild
  | [] => none
  | c :: l => match State.choose s l with
    | none => some c
    | some d => if s.before c d then some c else some d

/-- The walk from a port node, where its output has room: service, subscriber, queue (R291, R292). -/
def State.walk (s : State) (port : Nat) : Option (SchChild × SchChild × SchChild) :=
  let qs := s.eligQueues.filter s.queueRoom
  let subs := s.eligSubs qs
  let svcs := s.eligSvcs subs
  (s.choose ((svcs.map s.svcChild).filter (fun c => c.parent == portNode port))).bind (fun v =>
    (s.choose ((subs.map s.subChild).filter (fun c => c.parent == v.num))).bind (fun u =>
      (s.choose ((qs.map s.queueChild).filter (fun c => c.parent == u.num))).map (fun q => (v, u, q))))

/-- The tags of a release of L bytes through a child (R293). -/
def State.advanceTag (s : State) (c : SchChild) (len : Nat) : State :=
  let t := s.tagOf c.key
  (s.setVtime c.parent c.band t).setTag c.key (t + (len * 65536 + c.weight - 1) / c.weight)

/-- The sojourn of a frame in 16 ns (R310). -/
def State.sojourn (s : State) (first : Nat) : Nat :=
  match s.frame first with
  | some f => (s.replica 1 / 16 + 2 ^ 32 - f.stamp) % 2 ^ 32
  | none => 0

/-- The released frame is to be marked (R311). -/
def State.marks (s : State) (q first : Nat) : Bool :=
  s.flag F.SCH_Q_W0.ECN_EN q && decide (s.fld F.POL_CUR.VALUE 1 < s.sojourn first * 16)

/-- Release the head frame of a queue to its output (R292 to R298, R278, R427). -/
def State.releaseHead (s : State) (port : Nat) (v u c : SchChild) : State :=
  match s.queue c.num with
  | [] => s
  | e :: rest =>
    let len := s.sendLen e
    let o : OutItem := { e := e, cls := s.qClass c.num, queue := c.num, ecn := s.marks c.num e.first }
    let s := (s.setQueue c.num rest).setDepth c.num (s.depth c.num - s.entryCells e)
    let s := ((s.advanceTag c len).advanceTag u len).advanceTag v len
    let s := (s.addDebit u.num len).addDebit v.num len
    let s := s.setOutQueue port (s.outQueue port ++ [o])
    let s := s.frameDone e.first dcOk 0
    if decide (port < 288) && s.flag F.EDY_SRC.EGR_EN port && !e.eddy then
      s.eddyCandidate (s.fld F.EDY_SRC.EGR_SESSION port) e.first e.head e.len
    else s

/-- SCHEDULER_RELEASE (R292): one release through a port node, if it is eligible. -/
def State.release (s : State) (port : Nat) : State :=
  let s := s.settle
  match s.walk port with
  | some (v, u, c) => (s.releaseHead port v u c).settle
  | none => s

/-- SCHEDULER_RELEASE (R292). -/
def execSchedulerRelease (port : BitVec 10) (s : State) : Res := done (s.release port.toNat)

/-- DEBIT_LAND (R299). -/
def execDebitLand (node : Nat) (s : State) : Res := done (s.landDebit node).settle

/-- BUCKET_REFILL (R297, R302). -/
def execBucketRefill (b : BucketId) (s : State) : Res :=
  match b with
  | .node n => done (s.setNodeBuckets n (s.nodeNow n)).settle
  | .policer n => done (s.setPolBuckets n.toNat (s.polNow n.toNat))

/-! ## Configuration (R290, R300, R302, R317, R318) -/

/-- The pending PARENT and BAND of a child. -/
def State.parentPend (s : State) (k : Nat) : Option (Nat × Nat) := Tbl.get (fun _ => none) s.sch.parentPend k

/-- The state with the pending PARENT and BAND of a child replaced. -/
def State.setParentPend (s : State) (k : Nat) (v : Option (Nat × Nat)) : State :=
  s.putSch { s.sch with parentPend := Tbl.set (fun _ => none) s.sch.parentPend k v }

/-- A write of SCH_Q_W0 (R290, R317). -/
def State.queueW0Write (s : State) (q : Nat) (v : Word) : State :=
  let p := fieldOf v 15 0
  let b := fieldOf v 18 16
  let s := (s.setFld F.SCH_Q_W0.EN q (fieldOf v 19 19)).setFld F.SCH_Q_W0.ECN_EN q (fieldOf v 20 20)
  if p = s.qSub q ∧ b = s.qClass q then ((s.setParentPend q none).setFld F.SCH_Q_W0.PEND q 0).settle
  else if s.depth q = 0 then
    ((((s.setFld F.SCH_Q_W0.PARENT q p).setFld F.SCH_Q_W0.BAND q b).setParentPend q none).setFld F.SCH_Q_W0.PEND q 0).settle
  else ((s.setParentPend q (some (p, b))).setFld F.SCH_Q_W0.PEND q 1).settle

/-- A write of SCH_Q_W1 (R317). -/
def State.queueW1Write (s : State) (q : Nat) (v : Word) : State :=
  if fieldOf v 15 0 = 0 then s.satInc F.SCH_CFG_REJ.COUNT 0 1 else s.setFld F.SCH_Q_W1.WEIGHT q (fieldOf v 15 0)

/-- A write of SCH_N_CFG of subscriber n or service node 65,536 + n (R290, R318). -/
def State.nodeCfgWrite (s : State) (n : Nat) (v : Word) : State :=
  let p := fieldOf v 11 0
  let b := fieldOf v 14 12
  if fieldOf v 31 16 = 0 ∨ (65536 ≤ n ∧ fieldOf v 11 10 ≠ 0) then s.satInc F.SCH_CFG_REJ.COUNT 0 1
  else
    let s := (s.setFld F.SCH_N_CFG.EN n (fieldOf v 15 15)).setFld F.SCH_N_CFG.WEIGHT n (fieldOf v 31 16)
    if p = s.fld F.SCH_N_CFG.PARENT n ∧ b = s.fld F.SCH_N_CFG.BAND n then
      ((s.setParentPend (nodeTag n) none).setFld F.SCH_N_STAT.PEND n 0).settle
    else if s.nodeHolds n = false then
      ((((s.setFld F.SCH_N_CFG.PARENT n p).setFld F.SCH_N_CFG.BAND n b).setParentPend (nodeTag n) none).setFld
        F.SCH_N_STAT.PEND n 0).settle
    else ((s.setParentPend (nodeTag n) (some (p, b))).setFld F.SCH_N_STAT.PEND n 1).settle

/-- PARENT_BAND_APPLY (R290): a pending PARENT and BAND take effect once the child holds no frames. -/
def execParentBandApply (child : SchedChild) (s : State) : Res :=
  match child with
  | .queue q =>
    match s.parentPend q.toNat with
    | some (p, b) =>
      if s.depth q.toNat = 0 then
        done ((((s.setFld F.SCH_Q_W0.PARENT q.toNat p).setFld F.SCH_Q_W0.BAND q.toNat b).setFld F.SCH_Q_W0.PEND q.toNat
          0).setParentPend q.toNat none).settle
      else done s
    | none => done s
  | .node n =>
    match s.parentPend (nodeTag n) with
    | some (p, b) =>
      if s.nodeHolds n = false then
        done ((((s.setFld F.SCH_N_CFG.PARENT n p).setFld F.SCH_N_CFG.BAND n b).setFld F.SCH_N_STAT.PEND n 0).setParentPend
          (nodeTag n) none).settle
      else done s
    | none => done s

/-- A write of SCH_N_CIR, SCH_N_PIR, SCH_N_CBS or SCH_N_PBS (R300): both buckets become full. -/
def State.shaperWrite (s : State) (r : Reg) (n : Nat) (v : Word) : State :=
  let s := s.writeTyped r n v
  State.settle (s.setNodeBuckets n { s.nodeNow n with
    tc := ((s.fld F.SCH_N_CBS.BYTES n * 1000 : Nat) : Int), tp := ((s.fld F.SCH_N_PBS.BYTES n * 1000 : Nat) : Int) })

/-- Whether a register configures a shaper (R300). -/
def isShaperReg : Reg → Bool
  | .SCH_N_CIR | .SCH_N_PIR | .SCH_N_CBS | .SCH_N_PBS => true
  | _ => false

/-- Whether a register configures a policer (R302, R320). -/
def isPolicerReg : Reg → Bool
  | .SCH_POL_CIR | .SCH_POL_PIR | .SCH_POL_CBS | .SCH_POL_PBS => true
  | _ => false

/-- SHAPER_CONFIG_WRITE (R300). -/
def execShaperConfigWrite (r : Reg) (node : Nat) (v : BitVec 32) (s : State) : Res :=
  done (s.atChip 1 (fun s => s.when (isShaperReg r) (fun s => s.shaperWrite r node v)))

/-- A write of a policer's configuration words (R302): both buckets become full. -/
def State.policerWrite (s : State) (r : Reg) (n : Nat) (v : Word) : State :=
  let s := s.writeTyped r n v
  s.setPolBuckets n { s.polNow n with
    tc := ((s.fld F.SCH_POL_CBS.BYTES n * 1000 : Nat) : Int), tp := ((s.fld F.SCH_POL_PBS.BYTES n * 1000 : Nat) : Int) }

/-- POLICER_CONFIG_WRITE (R302). -/
def execPolicerConfigWrite (r : Reg) (n : Nat) (v : BitVec 32) (s : State) : Res :=
  done (s.atChip 1 (fun s => s.when (isPolicerReg r) (fun s => s.policerWrite r n v)))

/-! ## Gate lists (R306 to R308) -/

/-- A write of GATE_CTL: EN, and ARM (R306, R309). -/
def State.gateCtlWrite (s : State) (p : Nat) (v : Word) : State :=
  let s := s.setFld F.GATE_CTL.EN p (fieldOf v 0 0)
  if bit v.toNat 1 && !s.flag F.GATE_CTL.PEND p then
    if s.fld F.GATE_LEN.COUNT p = 0 ∨ s.fld F.GATE_CYCLE.NS p < 1000 then (s.satInc F.GATE_REJ.COUNT p 1).settle
    else (s.setFld F.GATE_CTL.PEND p 1).settle
  else s.settle

/-- GATE_ARM (R306). -/
def execGateArm (port : BitVec 8) (v : BitVec 32) (s : State) : Res :=
  done (s.atChip 1 (fun s => s.gateCtlWrite port.toNat v))

/-- A write of a pending register of a port: none while PEND is 1 (R306, R321). -/
def State.gatePendWrite (s : State) (r : Reg) (p : Nat) (v : Word) : State :=
  if s.flag F.GATE_CTL.PEND p then s else s.writeTyped r p v

/-- A write of a gate-list entry (R306, R322): only the buffer that is not operational, and only while PEND is 0. -/
def State.gateEntryWrite (s : State) (i : Nat) (v : Word) : State :=
  let p := i / 2048
  if s.flag F.GATE_CTL.PEND p || i / 1024 % 2 == s.fld F.GATE_CTL.OPER p then s else s.writeTyped .GATE_ENTRY i v

/-- A class 0x8 firing takes a port with PEND = 1: the first B + k × C at or after its boundary (R306).  A port that a firing has taken
keeps its change instant (R307). -/
def State.gateTake (boundary : Nat) (s : State) (p : Nat) : State :=
  if s.flag F.GATE_CTL.PEND p && (s.gatePort p).change.isNone then
    let g := s.pendList p
    let k := if g.cycle = 0 then 0 else (boundary - g.base + g.cycle - 1) / g.cycle
    s.setGatePort p { s.gatePort p with change := some (g.base + k * g.cycle, boundary) }
  else s

/-- A class 0x8 firing at Confluence (R306). -/
def State.gateFiring (s : State) (f : Firing) : State :=
  if bit f.arg.toNat 8 then (List.range 256).foldl (State.gateTake (f.cycle * 4096)) s
  else s.gateTake (f.cycle * 4096) (bits f.arg.toNat 7 0)

/-- The buffers of a port swap and PEND clears (R306). -/
def State.gateSwap (s : State) (p : Nat) : State :=
  let g := s.pendList p
  let s := s.setGatePort p { oper := g, change := none }
  let s := (s.setFld F.GATE_CTL.OPER p (1 - s.fld F.GATE_CTL.OPER p)).setFld F.GATE_CTL.PEND p 0
  (s.satInc F.GATE_CHANGES.COUNT p 1).showGates p

/-- The change instant of a port has come. -/
def State.gateDue (s : State) (p : Nat) : Bool :=
  match (s.gatePort p).change with | some (ch, _) => decide (ch ≤ s.replica 1) | none => false

/-- GATE_LIST_SWAP (R306, R307). -/
def execGateListSwap (port : BitVec 8) (s : State) : Res :=
  done (s.when (s.gateDue port.toNat) (fun s => (s.gateSwap port.toNat).settle))

/-- GATE_INTERVAL_END (R304): the next entry's gate states take effect. -/
def execGateIntervalEnd (port : BitVec 8) (s : State) : Res := done (s.showGates port.toNat).settle

/-- A step of network time: change instants it passed take effect (R308). -/
def State.gateStep (s : State) : State :=
  ((s.sch.gate.map (fun e => e.1)).filter s.gateDue).foldl State.gateSwap s

/-- ENQUEUE_COMMIT (R263, R266). -/
def execEnqueueCommit (inp : Input) (s : State) : Res := done (s.commitNext inp).settle

/-- REPLICATION (R274). -/
def execReplication (s : State) : Res := done s.replicate.settle

/-! ## Gauge (R313 to R315, R323) -/

/-- The base address of a Gauge ring. -/
def State.gauBase (s : State) (r : Nat) : Nat := s.rd64 .GAU_BASE .GAU_BASE_HI r

/-- Records of a ring. -/
def State.gauSize (s : State) (r : Nat) : Nat := 2 ^ s.fld F.GAU_CTL.LOG2_SIZE r

/-- The pass of a ring that is under way. -/
def State.gaugePass (s : State) (r : Nat) : Option GaugePass := Tbl.get (fun _ => none) s.sch.gauge r

/-- The state with the pass of a ring replaced. -/
def State.setGauge (s : State) (r : Nat) (g : Option GaugePass) : State :=
  s.putSch { s.sch with gauge := Tbl.set (fun _ => none) s.sch.gauge r g }

/-- The instant up to which a ring's passes are started or skipped. -/
def State.gaugeAt (s : State) (r : Nat) : Nat := Tbl.get (fun _ => 0) s.sch.gaugeAt r

/-- The state with that instant replaced. -/
def State.setGaugeAt (s : State) (r t : Nat) : State := s.putSch { s.sch with gaugeAt := Tbl.set (fun _ => 0) s.sch.gaugeAt r t }

/-- The next instant at which a ring starts a pass: a multiple of PERIOD (R313). -/
def State.gaugeNext (s : State) (r : Nat) : Nat := (s.gaugeAt r / s.fld F.GAU_PERIOD.NS r + 1) * s.fld F.GAU_PERIOD.NS r

/-- GAUGE_PASS (R313, R315): network time has reached the ring's next instant. -/
def execGaugePass (ring : BitVec 4) (s : State) : Res :=
  let r := ring.toNat
  let at_ := s.gaugeNext r
  if s.flag F.GAU_CTL.EN r = false ∨ s.replica 1 < at_ then done s
  else
    let s := s.setGaugeAt r at_
    if (s.gaugePass r).isSome || !s.hbmMapped then done (s.satInc F.GAU_SKIPPED.COUNT r 1)
    else
      let n := Tbl.get (fun _ => 0) s.sch.passes r
      let s := s.setGauge r (some { start := at_, index := 0, left := s.fld F.GAU_COUNT.QUEUES r, header := true })
      done (s.putSch { s.sch with passes := Tbl.set (fun _ => 0) s.sch.passes r ((n + 1) % 2 ^ 32) })

/-- A step of network time from `old`: of the instants it passes, one is left to start a pass; after a step backward a ring starts
passes from the new time on (R315). -/
def State.gaugeStep (s : State) (old : Nat) : State :=
  let now := s.replica 1
  (List.range 16).foldl (fun s r =>
    let per := s.fld F.GAU_PERIOD.NS r
    if now < old then s.setGaugeAt r now else s.setGaugeAt r (max (s.gaugeAt r) (now / per * per - per))) s

/-- The 16 bytes of a record of four words (R314). -/
def recordBytes (a b c d : Nat) : List Byte := beBytes 4 a ++ beBytes 4 b ++ beBytes 4 c ++ beBytes 4 d

/-- Gauge writes a record, or counts it lost when the ring is full (R315).  DESIGN CHOICE (log entry 34): a record whose write ends
with a bus error (R329, R374) is lost as well. -/
def State.gaugePut (s : State) (r : Nat) (rec : List Byte) : State :=
  let prod := s.fld F.GAU_PROD.INDEX r
  let next := (prod + 1) % s.gauSize r
  let a := s.gauBase r + prod * 16
  if next = s.fld F.GAU_CONS.INDEX r ∨ keyTableRange (a - hbmBase) 16 = true ∨ (s.stoReady && stoRegion (a - hbmBase) 16) = true
      ∨ (s.hbmSet a rec).1 = false then s.satInc F.GAU_LOST.COUNT r 1
  else (s.hbmSet a rec).2.setFld F.GAU_PROD.INDEX r next

/-- A number that saturates at 32 bits. -/
def satU32 (n : Nat) : Nat := min n 0xFFFFFFFF

/-- The ring whose record Gauge writes next: rings with a pass, in rotating order (R313). -/
def State.gaugeRing (s : State) : Option Nat := pickFrom (fun r => (s.gaugePass r).isSome) (s.sch.gaugeTurn + 1) 16

/-- GAUGE_RECORD_WRITE (R313, R314): the next record of the ring whose turn it is. -/
def execGaugeRecordWrite (ring : BitVec 4) (s : State) : Res :=
  let r := ring.toNat
  match s.gaugePass r, s.gaugeRing == some r with
  | none, _ => done s
  | _, false => done s
  | some g, true =>
    let s := s.putSch { s.sch with gaugeTurn := r }
    if g.header then
      let rec_ := recordBytes (2 ^ 31 + r) (g.start / 1000000000 % 2 ^ 32) (g.start % 1000000000) (Tbl.get (fun _ => 0) s.sch.passes r)
      done ((s.gaugePut r rec_).setGauge r (if g.left = 0 then none else some { g with header := false }))
    else
      let q := (s.fld F.GAU_FIRST.QUEUE r + g.index) % 1048576
      let so := match (s.queue q).head? with | some e => satU32 (s.sojourn e.first * 16) | none => 0
      let rec_ := recordBytes q (s.depth q) so (satU32 (s.replica 1 - g.start))
      done ((s.gaugePut r rec_).setGauge r (if g.left ≤ 1 then none else some { g with index := g.index + 1, left := g.left - 1 }))

/-- A write to GAU_CTL or GAU_BASE zeroes PROD and CONS (R323). -/
def State.gaugeZero (s : State) (r : Nat) : State := (s.setFld F.GAU_PROD.INDEX r 0).setFld F.GAU_CONS.INDEX r 0

/-- A write of GAU_CTL (R313, R323): while EN was 0 no pass was due. -/
def State.gauCtlWrite (s : State) (r : Nat) (v : Word) : State :=
  if fieldOf v 5 1 < 8 ∨ 24 < fieldOf v 5 1 then s
  else
    let s := if s.flag F.GAU_CTL.EN r then s else s.setGaugeAt r (s.replica 1)
    (s.writeTyped .GAU_CTL r v).gaugeZero r

/-- GAU_CTL_WRITE (R323). -/
def execGauCtlWrite (ring : BitVec 4) (v : BitVec 32) (s : State) : Res :=
  done (s.atChip 1 (fun s => s.gauCtlWrite ring.toNat v))

/-- A write of GAU_PERIOD: clamped (R323).  DESIGN CHOICE (log entry 34): the next pass starts at the next multiple of the new period. -/
def State.gauPeriodWrite (s : State) (r : Nat) (v : Word) : State :=
  (s.wr .GAU_PERIOD r (BitVec.ofNat 32 (max 4096 v.toNat))).setGaugeAt r (s.replica 1)

end Sys2Proof.Machine
end

