-- ==== Sys2Proof/Machine/Policy.lean ====
section
/-! DEFINITION. The adaptive policies and the steering table (01, R34, R35, R43 to R52, R577), with the adaptation rules
of their owning chapters (R225, R232, R268, R312, R486, R525).  A policy's index is that of its POL_ registers:
0 admission, 1 congestion, 2 to 9 Dice effort of Board p − 2, 10 to 17 Dredge of Board p − 10, 18 to 21 steering of Bank
p − 18, 22 to 53 Slack water of attach link p − 22, 54 to 309 of network port p − 54, 310 power. -/
namespace Sys2Proof.Machine

/-- Modes of R43. -/
def polAdapt : Nat := 0
/-- HOLD (R43). -/
def polHold : Nat := 1
/-- MANUAL (R43). -/
def polManual : Nat := 2

/-- The range of MANUAL (R49); none for steering (R51). -/
def manualRange (p : Nat) : Option (Nat × Nat) :=
  if p = 0 then some (1, 64)
  else if p = 1 then some (1000, 10000000)
  else if p < 10 then some (1, 64)
  else if p < 18 then some (1, 512)
  else if p < 22 then none
  else if p < 310 then some (0, 255)
  else some (600, 1800)

/-- The mode of a policy. -/
def State.polMode (s : State) (p : Nat) : Nat := s.fld F.POL_CTL.MODE p

/-- The value in effect (R45). -/
def State.polValue (s : State) (p : Nat) : Nat := s.fld F.POL_CUR.VALUE p

/-- What a policy's last adaptive change found (R47, R50). -/
def State.polTurn (s : State) (p : Nat) : PolTurn := Tbl.get (fun _ => noTurn) s.plat.polTurn p

/-- The state with what a policy's last change found replaced. -/
def State.setPolTurn (s : State) (p : Nat) (x : PolTurn) : State :=
  s.putPlat { s.plat with polTurn := Tbl.set (fun _ => noTurn) s.plat.polTurn p x }

/-- Headwater clocks in 4.096 µs (R47). -/
def polSpan : Nat := 4096

/-- The device may change a policy now: in ADAPT, no earlier than 4.096 µs after its last change, and not in the clock of a
software write (R43, R47, R50). -/
def State.mayAdapt (s : State) (p : Nat) : Bool :=
  let x := s.polTurn p
  s.polMode p == polAdapt && (x.changed == 0 || decide (x.changed + polSpan ≤ s.time.tick + 1)) && x.written != s.time.tick + 1

/-- The device changes a value in ADAPT: within the range, and counted (R43, R47). -/
def State.adapt (s : State) (p lo hi v : Nat) : State :=
  let n := clamp lo hi v
  if !s.mayAdapt p || n == s.polValue p then s
  else
    let s := s.setPolTurn p { s.polTurn p with changed := s.time.tick + 1, cur := s.rd .POL_CUR p, ctl := s.rd .POL_CTL p }
    (s.setFld F.POL_CUR.VALUE p n).satInc F.POL_CTL.CHANGES p 1

/-- A software write of POL_CTL or POL_MAN discards the device's change of the same clock (R50). -/
def State.polWritten (s : State) (p : Nat) : State :=
  let x := s.polTurn p
  let s := if x.changed = s.time.tick + 1 then (s.wr .POL_CUR p x.cur).wr .POL_CTL p x.ctl else s
  s.setPolTurn p { x with changed := if x.changed = s.time.tick + 1 then 0 else x.changed, written := s.time.tick + 1 }

/-- A write of POL_CTL: MODE (R43, R48); 0b11 has no effect. -/
def State.polCtlWrite (s : State) (p : Nat) (v : Word) : State :=
  let s := s.polWritten p
  if fieldOf v 1 0 = 3 then s else s.setFld F.POL_CTL.MODE p (fieldOf v 1 0)

/-- A write of POL_MAN (R49, R50). -/
def State.polManWrite (s : State) (p : Nat) (v : Word) : State := (s.polWritten p).writeTyped .POL_MAN p v

/-- The chiplet that holds a policy's registers (R46). -/
def polChip (p : Nat) : Nat := (addrChip ((regAddr .POL_CTL p).getD 0)).getD 0

/-- POL_CTL_WRITE (R48). -/
def execPolCtlWrite (p : Nat) (v : BitVec 32) (s : State) : Res :=
  done (s.atChip (polChip p) (fun s => s.polCtlWrite p v))

/-- POLICY_MANUAL_APPLY (R49, R51). -/
def execPolicyManualApply (p : Nat) (s : State) : Res :=
  match manualRange p with
  | none => done s
  | some (lo, hi) =>
    done (if s.polMode p = polManual ∧ s.isFenced (polChip p) = false then s.setFld F.POL_CUR.VALUE p (clamp lo hi (s.rd .POL_MAN p).toNat) else s)

/-- ADMISSION_ADAPT (R268): the interval's watch starts anew. -/
def execAdmissionAdapt (s : State) : Res :=
  let v := s.polValue 0
  let s' := if s.cfl.admLow then s.adapt 0 8 32 (v - 1) else if s.cfl.admRefused then s.adapt 0 8 32 (v + 1) else s
  done (State.watchFree (s'.putCfl { s'.cfl with admLow := false, admRefused := false }))

/-- ECN_ADAPT (R312): the interval's watch starts anew. -/
def execEcnAdapt (s : State) : Res :=
  let v := s.polValue 1
  let n := if s.cfl.ecnLow then v - v / 16 else if s.cfl.ecnMark && !s.cfl.ecnDip then v + v / 16 else v
  let s' := s.adapt 1 5000 100000 n
  done (State.watchFree (s'.putCfl { s'.cfl with ecnLow := false, ecnDip := false, ecnMark := false }))

/-- 2²⁰ intervals (R225). -/
def quietLimit : Nat := 1048576

/-- DICE_HIT_LIMIT_ADAPT (R225): the end of an interval of a Board. -/
def execDiceHitLimitAdapt (board : BitVec 3) (s : State) : Res :=
  let b := board.toNat
  let p := 2 + b
  let v := s.polValue p
  let hit := Tbl.get (fun _ => false) s.look.limitHit b
  let half := Tbl.get (fun _ => false) s.look.overHalf b
  let n := if half then 0 else Tbl.get (fun _ => 0) s.look.quiet b + 1
  let s' := if hit then s.adapt p 24 64 (v + 4) else if quietLimit ≤ n then s.adapt p 24 64 (v - 4) else s
  done (s'.putLook { s'.look with
    limitHit := Tbl.set (fun _ => false) s'.look.limitHit b false
    overHalf := Tbl.set (fun _ => false) s'.look.overHalf b false
    quiet := Tbl.set (fun _ => 0) s'.look.quiet b (if quietLimit ≤ n then 0 else n) })

/-- Slots of a Dice partition (R214). -/
def partitionSlots : Nat := 524288

/-- DREDGE_SPEED_ADAPT (R232). -/
def execDredgeSpeedAdapt (board : BitVec 3) (s : State) : Res :=
  let p := 10 + board.toNat
  let v := s.polValue p
  let used := s.fld F.BRD_DICE_STAT.USED board.toNat
  done (if partitionSlots * 7 < used * 8 then s.adapt p 4 64 (v * 2)
    else if used * 4 < partitionSlots * 3 then s.adapt p 4 64 (v / 2) else s)

/-- The Slack water policy of a link. -/
def slackPol : MacPort → Nat
  | .attach a => 22 + a.toNat
  | .net p => 54 + p.toNat

/-- SLACK_SKIP_ADAPT (R486): the link's utilisation in thousandths of line rate. -/
def execSlackSkipAdapt (link : MacPort) (permille : Nat) (s : State) : Res :=
  let p := slackPol link
  let v := s.polValue p
  done (if 500 < permille then s.adapt p 1 255 (v * 2) else if permille < 100 then s.adapt p 1 255 (v / 2) else s)

/-- The power policy. -/
def powerPol : Nat := 310

/-- POWER_CAP_ADAPT (R525): the hottest junction and the case in °C, which HDW_PWR_TEMP shows (R530). -/
def execPowerCapAdapt (tj tc : BitVec 8) (s : State) : Res :=
  let s0 := s
  let s := (s.setFld F.HDW_PWR_TEMP.TJ 0 tj.toNat).setFld F.HDW_PWR_TEMP.TC 0 tc.toNat
  let v := s.polValue powerPol
  done (if s.trust.power ≠ .on then s0 else if 105 ≤ tj.toNat ∨ 72 ≤ tc.toNat then s.adapt powerPol 1000 1800 (v - 50)
    else if tj.toNat < 95 ∧ tc.toNat < 68 then s.adapt powerPol 1000 1800 (v + 50) else s)

/-! ## Steering (R34, R35, R51, R577) -/

/-- The index of a steering entry. -/
def steerIdx (bank entry : Nat) : Nat := bank * 4096 + entry

/-- PENDING of an entry, and the count that POL_CUR of the Bank shows (R35, R51). -/
def State.steerShow (s : State) (bank entry : Nat) : State :=
  let i := steerIdx bank entry
  let new := b2n (s.fld F.BNK_STEER_TBL.BOARD i != s.fld F.BNK_STEER_TBL.CUR_BOARD i)
  let n := s.polValue (18 + bank) + new - s.fld F.BNK_STEER_TBL.PENDING i
  (s.setFld F.BNK_STEER_TBL.PENDING i new).setFld F.POL_CUR.VALUE (18 + bank) n

/-- The pending change of an entry takes effect while its in-flight count is zero (R34). -/
def State.steerMove (s : State) (bank entry : Nat) : State :=
  let i := steerIdx bank entry
  if s.fld F.BNK_STEER_TBL.INFLIGHT i = 0 then
    (s.setFld F.BNK_STEER_TBL.CUR_BOARD i (s.fld F.BNK_STEER_TBL.BOARD i)).steerShow bank entry
  else s

/-- A write of BOARD (R34, R35): none for a fenced Board. -/
def State.steerWrite (s : State) (bank entry board : Nat) : State :=
  if s.isFenced (boardChip board) then s
  else (s.setFld F.BNK_STEER_TBL.BOARD (steerIdx bank entry) board).steerShow bank entry

/-- STEER_ENTRY_WRITE (R35). -/
def execSteerEntryWrite (bank : BitVec 2) (entry : BitVec 12) (board : BitVec 3) (s : State) : Res :=
  done (s.atChip (bankChip bank.toNat) (fun s => s.steerWrite bank.toNat entry.toNat board.toNat))

/-- STEER_ENTRY_MOVE (R34). -/
def execSteerEntryMove (bank : BitVec 2) (entry : BitVec 12) (s : State) : Res := done (s.steerMove bank.toNat entry.toNat)

/-- The intake queue of a Bank for a Board. -/
def State.intakeQueue (s : State) (bank board : Nat) : List Vector_ := Tbl.get (fun _ => []) s.intake.queue (bank * 8 + board)

/-- BNK_INTAKE_DEPTH (R253). -/
def State.intakeDepth (s : State) (bank board : Nat) : Nat := (s.intakeQueue bank board).length

/-- The unfenced Boards. -/
def State.liveBoards (s : State) : List Nat := (List.range 8).filter (fun b => !s.isFenced (boardChip b))

/-- The Board that no other beats, the lower number on a tie (R577). -/
def bestBoard (better : Nat → Nat → Bool) : List Nat → Option Nat
  | [] => none
  | b :: l => match bestBoard better l with
    | none => some b
    | some c => if better c b then some c else some b

/-- The entry to move: the first at or after the move pointer on Board b with nothing pending (R577). -/
def State.moveEntry (s : State) (bank b : Nat) : Option Nat :=
  pickFrom (fun i => s.fld F.BNK_STEER_TBL.CUR_BOARD (steerIdx bank i) == b && !s.flag F.BNK_STEER_TBL.PENDING (steerIdx bank i))
    (Tbl.get (fun _ => 0) s.plat.movePtr bank) 4096

/-- STEER_BALANCE_INTERVAL (R577). -/
def execSteerBalanceInterval (bank : BitVec 2) (s : State) : Res :=
  let k := bank.toNat
  let d := s.intakeDepth k
  match bestBoard (fun x y => decide (d y < d x)) s.liveBoards, bestBoard (fun x y => decide (d x < d y)) s.liveBoards with
  | some b, some b' =>
    if s.polMode (18 + k) = polAdapt ∧ 2048 ≤ d b ∧ d b' ≤ 512 ∧ s.polValue (18 + k) < 64 then
      match s.moveEntry k b with
      | none => done s
      | some i =>
        let s := (s.steerWrite k i b').satInc F.POL_CTL.CHANGES (18 + k) 1
        done (s.putPlat { s.plat with movePtr := Tbl.set (fun _ => 0) s.plat.movePtr k ((i + 1) % 4096) })
    else done s
  | _, _ => done s

end Sys2Proof.Machine
end

