-- ==== Sys2Proof/Machine/Dice.lean ====
section
/-! DEFINITION. The Dice tables (06, R214 to R233): slots, bar, insert with relocation, delete, learn values, the command
blocks, Dredge and Sounding. -/
namespace Sys2Proof.Machine

/-! ## Status codes (R130) -/

/-- DONE. -/
def lkDone : Nat := 0
/-- MISS. -/
def lkMiss : Nat := 1
/-- EXISTS. -/
def lkExists : Nat := 2
/-- FULL. -/
def lkFull : Nat := 3
/-- RATE. -/
def lkRate : Nat := 4
/-- STATIC. -/
def lkStatic : Nat := 5
/-- UNAVAIL. -/
def lkUnavail : Nat := 6
/-- BADTABLE. -/
def lkBadTable : Nat := 7

/-! ## Definitions and places (R214 to R218) -/

/-- The index of a table's definition on a Board. -/
def tdefIdx (board t : Nat) : Nat := board * 4096 + t % 4096

/-- The table is defined in a Board's copy. -/
def State.tdefValid (s : State) (board t : Nat) : Bool := s.flag F.BRD_DICE_TDEF_W0.VALID (tdefIdx board t)

/-- KLEN of a Board's copy. -/
def State.klen (s : State) (board t : Nat) : Nat := s.fld F.BRD_DICE_TDEF_W0.KLEN (tdefIdx board t)

/-- VLEN of a Board's copy. -/
def State.vlen (s : State) (board t : Nat) : Nat := s.fld F.BRD_DICE_TDEF_W0.VLEN (tdefIdx board t)

/-- h0 of a table's key (R218). -/
def hash0 (t : Nat) (key : List Byte) : Nat := crc32c 0xFFFFFFFF (beBytes 2 t ++ key)

/-- h1 of a table's key (R218). -/
def hash1 (t : Nat) (key : List Byte) : Nat := rev32 (crc32c 0x5EEDB0E5 (beBytes 2 t ++ key))

/-- The first candidate bucket (R218). -/
def bucket0 (t : Nat) (key : List Byte) : Nat := hash0 t key % 131072

/-- The second candidate bucket (R218). -/
def bucket1 (t : Nat) (key : List Byte) : Nat :=
  let b := hash1 t key % 131072
  if b = bucket0 t key then b ^^^ 1 else b

/-- The set bits of an 8-bit mask, lowest first. -/
def setBits (m : Nat) : List Nat := (List.range 8).filter (fun k => bit m k)

/-- The partition of a key, from the issuing Board's copy of the definition (R215, R218). -/
def State.partOf (s : State) (ib t : Nat) (key16 : List Byte) : Nat :=
  let parts := setBits (s.fld F.BRD_DICE_TDEF_W0.PARTS (tdefIdx ib t))
  parts.getD (hash0 t (key16.take (s.klen ib t)) / 2 ^ 24 % parts.length) 0

/-- The key of a slot in `slots`. -/
def slotKey (board bucket k : Nat) : Nat := (board * 131072 + bucket) * 4 + k

/-- A slot. -/
def State.slotAt (s : State) (k : Nat) : Option DiceEntry := Tbl.get (fun _ => none) s.look.slots k

/-- The state with a slot replaced. -/
def State.setSlot (s : State) (k : Nat) (e : Option DiceEntry) : State :=
  s.putLook { s.look with slots := Tbl.set (fun _ => none) s.look.slots k e }

/-- A bar entry. -/
def State.barAt (s : State) (k : Nat) : Option DiceEntry := Tbl.get (fun _ => none) s.look.bar k

/-- The state with a bar entry replaced. -/
def State.setBar (s : State) (k : Nat) (e : Option DiceEntry) : State :=
  s.putLook { s.look with bar := Tbl.set (fun _ => none) s.look.bar k e }

/-- The lowest empty slot of a bucket. -/
def State.emptySlot (s : State) (board bucket : Nat) : Option Nat :=
  (List.range 4).find? (fun k => (s.slotAt (slotKey board bucket k)).isNone)

/-- Where an entry lies. -/
inductive DiceLoc where
  | slot (k : Nat)
  | bar (k : Nat)
deriving DecidableEq, Repr

/-- The entry is that of table t and the key. -/
def DiceEntry.is (e : DiceEntry) (t : Nat) (key : List Byte) : Bool := e.table.toNat == t && e.key == key

/-- The place and entry of a key in a partition: its two buckets and the bar (R219). -/
def State.findEntry (s : State) (board t : Nat) (key : List Byte) : Option (DiceLoc × DiceEntry) :=
  let locs := (List.range 4).map (fun k => DiceLoc.slot (slotKey board (bucket0 t key) k))
    ++ (List.range 4).map (fun k => DiceLoc.slot (slotKey board (bucket1 t key) k))
    ++ (List.range 8).map (fun k => DiceLoc.bar (board * 8 + k))
  locs.findSome? (fun l =>
    match (match l with | .slot k => s.slotAt k | .bar k => s.barAt k) with
    | some e => if e.is t key then some (l, e) else none
    | none => none)

/-- The state with the entry at a place replaced. -/
def State.setEntry (s : State) (l : DiceLoc) (e : Option DiceEntry) : State :=
  match l with | .slot k => s.setSlot k e | .bar k => s.setBar k e

/-- COUNT and CHANGES of a table in a partition after an insert or a removal (R214). -/
def State.countChange (s : State) (board t : Nat) (up : Bool) (change : Bool) : State :=
  let i := tdefIdx board t
  let n := s.fld F.BRD_DICE_TDEF_W2.COUNT i
  let s := s.setFld F.BRD_DICE_TDEF_W2.COUNT i (if up then n + 1 else n - 1)
  if change then s.modInc F.BRD_DICE_TDEF_W3.CHANGES i 1 else s

/-- One change of a table's entries in a partition (R214). -/
def State.changed (s : State) (board t : Nat) : State := s.modInc F.BRD_DICE_TDEF_W3.CHANGES (tdefIdx board t) 1

/-- USED rises by one. -/
def State.usedUp (s : State) (board : Nat) : State :=
  s.setFld F.BRD_DICE_STAT.USED board (s.fld F.BRD_DICE_STAT.USED board + 1)

/-- A bucket is a candidate of an entry. -/
def DiceEntry.mayLie (e : DiceEntry) (bucket : Nat) : Bool :=
  bucket0 e.table.toNat e.key == bucket || bucket1 e.table.toNat e.key == bucket

/-- The candidate bucket of an entry other than `bucket`. -/
def DiceEntry.other (e : DiceEntry) (bucket : Nat) : Nat :=
  if bucket0 e.table.toNat e.key = bucket then bucket1 e.table.toNat e.key else bucket0 e.table.toNat e.key

/-- A slot of a bucket became empty: the lowest-numbered parked entry that may lie there moves in (R223). -/
def State.unpark (s : State) (board bucket k : Nat) : State :=
  match (List.range 8).find? (fun x => match s.barAt (board * 8 + x) with | some e => e.mayLie bucket | none => false) with
  | none => s.setFld F.BRD_DICE_STAT.USED board (s.fld F.BRD_DICE_STAT.USED board - 1)
  | some x =>
    ((s.setSlot k (s.barAt (board * 8 + x))).setBar (board * 8 + x) none).setFld F.BRD_DICE_STAT.PARKED board
      (s.fld F.BRD_DICE_STAT.PARKED board - 1)

/-- Remove the entry at a place (R223, R224). -/
def State.removeAt (s : State) (board : Nat) (l : DiceLoc) (e : DiceEntry) (change : Bool) : State :=
  let s := (s.setEntry l none).countChange board e.table.toNat false change
  match l with
  | .slot k => s.unpark board (k / 4 % 131072) k
  | .bar _ => s.setFld F.BRD_DICE_STAT.PARKED board (s.fld F.BRD_DICE_STAT.PARKED board - 1)

/-! ## Insert (R222) -/

/-- What a relocation leaves: the state, whether the displaced entry found a slot, that entry, the path (last hit
first), the hits made. -/
structure Reloc where
  s     : State
  done_ : Bool
  cur   : DiceEntry
  path  : List Nat
  hits  : Nat

/-- The hits of a relocation: hit n of the limit, with `fuel` hits left. -/
def relocate (board h0 : Nat) (new : DiceEntry) : Nat → Nat → State → DiceEntry → Nat → List Nat → Reloc
  | 0, n, s, cur, _, path => { s := s, done_ := false, cur := cur, path := path, hits := n - 1 }
  | fuel + 1, n, s, cur, bkt, path =>
    let k0 := (n + bits h0 18 17) % 4
    let k := match s.slotAt (slotKey board bkt k0) with
      | some e => if e.is new.table.toNat new.key then (k0 + 1) % 4 else k0
      | none => k0
    match s.slotAt (slotKey board bkt k) with
    | none => { s := s.setSlot (slotKey board bkt k) (some cur), done_ := true, cur := cur, path := path, hits := n }
    | some victim =>
      let s := s.setSlot (slotKey board bkt k) (some cur)
      let b := victim.other bkt
      match s.emptySlot board b with
      | some f => { s := s.setSlot (slotKey board b f) (some victim), done_ := true, cur := victim
                    path := slotKey board bkt k :: path, hits := n }
      | none => relocate board h0 new fuel (n + 1) s victim b (slotKey board bkt k :: path)

/-- Undo the hits of a path: each slot takes back the entry it held (R222). -/
def undoPath : List Nat → State → DiceEntry → State
  | [], s, _ => s
  | k :: path, s, cur =>
    match s.slotAt k with
    | some e => undoPath path (s.setSlot k (some cur)) e
    | none => undoPath path s cur

/-- A relocation's hits are noted for MAXHITS and the policy (R225, R249). -/
def State.noteHits (s : State) (board hits limit : Nat) (reached : Bool) : State :=
  let s := s.setFld F.BRD_DICE_MAXHITS.HITS board (max hits (s.fld F.BRD_DICE_MAXHITS.HITS board))
  let lh := reached && decide (4 ≤ s.fld F.BRD_DICE_STAT.PARKED board)
  (s.putLook { s.look with
      limitHit := Tbl.set (fun _ => false) s.look.limitHit board (lh || Tbl.get (fun _ => false) s.look.limitHit board)
      overHalf := Tbl.set (fun _ => false) s.look.overHalf board
        (decide (limit < hits * 2) || Tbl.get (fun _ => false) s.look.overHalf board) })

/-- The insert with both candidate buckets full (R222): the status, and the state. -/
def State.insertHard (s : State) (board : Nat) (e : DiceEntry) : Nat × State :=
  let limit := s.polValue (2 + board)
  let t := e.table.toNat
  let r := relocate board (hash0 t e.key) e limit 1 s e (bucket0 t e.key) []
  if r.done_ then (lkDone, (r.s.noteHits board r.hits limit false).usedUp board)
  else
    let s' := r.s.noteHits board r.hits limit true
    if s.fld F.BRD_DICE_STAT.PARKED board < 7 then
      match (List.range 8).find? (fun x => (s'.barAt (board * 8 + x)).isNone) with
      | some x => (lkDone, (s'.setBar (board * 8 + x) (some r.cur)).setFld F.BRD_DICE_STAT.PARKED board
          (s.fld F.BRD_DICE_STAT.PARKED board + 1))
      | none => (lkFull, undoPath r.path s' r.cur)
    else (lkFull, undoPath r.path s' r.cur)

/-- Insert an entry into a partition (R222): with LIMIT or without, the insert counting as a change or not. -/
def State.insertEntry (s : State) (board : Nat) (e : DiceEntry) (withLimit change : Bool) : Nat × State :=
  let t := e.table.toNat
  let i := tdefIdx board t
  let lim := s.fld F.BRD_DICE_TDEF_W1.LIMIT i
  if (s.findEntry board t e.key).isSome then (lkExists, s)
  else
    let r :=
      if withLimit && lim != 0 && s.fld F.BRD_DICE_TDEF_W2.COUNT i == lim then (lkFull, s)
      else match s.emptySlot board (bucket0 t e.key) with
        | some k => (lkDone, (s.setSlot (slotKey board (bucket0 t e.key) k) (some e)).usedUp board)
        | none => match s.emptySlot board (bucket1 t e.key) with
          | some k => (lkDone, (s.setSlot (slotKey board (bucket1 t e.key) k) (some e)).usedUp board)
          | none => s.insertHard board e
    if r.1 = lkDone then (lkDone, r.2.countChange board t true change) else (r.1, r.2.satInc F.BRD_DICE_FULL.COUNT board 1)

/-- A new entry for a partition's copy of the definition (R216, R217). -/
def State.newEntry (s : State) (board t : Nat) (key16 val16 : List Byte) (static_ : Bool) (owner : Nat) : DiceEntry :=
  { static := static_, hit := false, stale := false, mark := s.flag F.BRD_DICE_TDEF_W0.AEPOCH (tdefIdx board t)
    table := BitVec.ofNat 12 t, owner := BitVec.ofNat 16 owner
    key := key16.take (s.klen board t), value := val16.take (s.vlen board t) }

/-! ## What programs do (R217, R220, R224, R451, R579) -/

/-- The checks before an operation's own statuses, apart from RATE: the status, or the partition (R220, R579). -/
def State.diceRoute (s : State) (ib t : Nat) (key16 : List Byte) : Nat ⊕ Nat :=
  let p := s.partOf ib t key16
  if s.tdefValid ib t = false then .inl lkBadTable
  else if s.isFenced (boardChip p) then .inl lkUnavail
  else if s.tdefValid p t = false then .inl lkBadTable
  else .inr p

/-- DLK (R129, R219): the status, the value in 16 bytes, the state. -/
def State.diceLookup (s : State) (ib t : Nat) (key16 : List Byte) : Nat × List Byte × State :=
  match s.diceRoute ib t key16 with
  | .inl st => (st, [], s)
  | .inr p =>
    match s.findEntry p t (key16.take (s.klen p t)) with
    | none => (lkMiss, [], s)
    | some (l, e) => (lkDone, fitBytes 16 e.value, s.setEntry l (some { e with hit := true }))

/-- No tokens yet. -/
def tokReset : InsTokens := { tokens := 0, rem := 0, last := 0 }

/-- The insert tokens of an instance on a Board, refilled (R451). -/
def State.insTokens (s : State) (board inst : Nat) : InsTokens :=
  let k := board * 32800 + inst
  let x := Tbl.get (fun _ => tokReset) s.look.insTok k
  let now := s.mono (boardChip board)
  let acc := x.rem + s.fld F.BRD_INS_W0.RATE k * (now - x.last)
  { tokens := min (x.tokens + acc / 1000000000) (s.fld F.BRD_INS_W0.BURST k), rem := acc % 1000000000, last := max now x.last }

/-- The state with insert tokens replaced. -/
def State.setInsTokens (s : State) (k : Nat) (x : InsTokens) : State :=
  s.putLook { s.look with insTok := Tbl.set (fun _ => tokReset) s.look.insTok k x }

/-- An insert of an instance takes a token on its Board, or is refused (R451). -/
def State.takeInsert (s : State) (board inst : Nat) : Bool × State :=
  let k := board * 32800 + inst
  if 32800 ≤ inst ∨ s.flag F.BRD_INS_W0.EN k = false then (true, s)
  else
    let x := s.insTokens board inst
    if x.tokens = 0 then (false, (s.setInsTokens k x).satInc F.BRD_INS_W1.REFUSED k 1)
    else (true, s.setInsTokens k { x with tokens := x.tokens - 1 })

/-- A write of BRD_INS_W0 sets the bucket full; a BURST of 0 leaves that field (R466). -/
def State.insW0Write (s : State) (k : Nat) (v : Word) : State :=
  let burst := if fieldOf v 30 20 = 0 then s.fld F.BRD_INS_W0.BURST k else fieldOf v 30 20
  let s := (s.writeTyped .BRD_INS_W0 k v).setFld F.BRD_INS_W0.BURST k burst
  s.setInsTokens k { tokens := burst, rem := 0, last := s.mono (boardChip (k / 32800)) }

/-- DINS in the partition (R217, R222, R579): the status and the state. -/
def State.pipeInsert (s : State) (p inst t : Nat) (key16 val16 : List Byte) : Nat × State :=
  if s.tdefValid p t = false then (lkBadTable, s) else s.insertEntry p (s.newEntry p t key16 val16 false inst) true true

/-- DDEL in the partition (R224, R579): the status and the state. -/
def State.pipeDelete (s : State) (p t : Nat) (key16 : List Byte) : Nat × State :=
  if s.tdefValid p t = false then (lkBadTable, s)
  else match s.findEntry p t (key16.take (s.klen p t)) with
    | none => (lkMiss, s)
    | some (l, e) => if e.static then (lkStatic, s) else (lkDone, s.removeAt p l e true)

/-- The checks before the modify pipe (R220, R451, R579), on the issuing Board: the status, or the partition, and the state.
`rate`: an insert, which takes a token. -/
def State.pipeRoute (s : State) (ib inst t : Nat) (key16 : List Byte) (rate : Bool) : (Nat ⊕ Nat) × State :=
  let p := s.partOf ib t key16
  if s.tdefValid ib t = false then (.inl lkBadTable, s)
  else
    let r := if rate then s.takeInsert ib inst else (true, s)
    (if r.1 = false then .inl lkRate else if s.isFenced (boardChip p) then .inl lkUnavail else .inr p, r.2)

/-! ## Definitions (R215) -/

/-- Some Board holds an entry of the table. -/
def State.tableInUse (s : State) (t : Nat) : Bool :=
  (List.range 8).any (fun b => s.fld F.BRD_DICE_TDEF_W2.COUNT (tdefIdx b t) != 0)

/-- A value of BRD_DICE_TDEF_W0 that no table may have (R215). -/
def tdefBad (v : Word) : Bool :=
  bit v.toNat 0 && (fieldOf v 8 4 == 0 || decide (16 < fieldOf v 8 4) || decide (16 < fieldOf v 13 9)
    || decide (26 < fieldOf v 8 4 + fieldOf v 13 9) || fieldOf v 23 16 == 0 || (bit v.toNat 1 && bit v.toNat 2))

/-- A write of BRD_DICE_TDEF_W0 (R215). -/
def State.tdefWrite (s : State) (board t : Nat) (v : Word) : State :=
  if s.tableInUse t || tdefBad v then s.setFld F.BRD_DICE_STAT.TDEF_REJ board 1
  else s.writeTyped .BRD_DICE_TDEF_W0 (tdefIdx board t) v

/-- DICE_TDEF_WRITE (R215). -/
def execDiceTdefWrite (board : BitVec 3) (table : BitVec 12) (v : BitVec 32) (s : State) : Res :=
  done (s.atChip (boardChip board.toNat) (fun s => s.tdefWrite board.toNat table.toNat v))

/-! ## Command blocks (R229, R250) -/

/-- The index of a command block. -/
def blkIdx (board : Nat) (blk : Bool) : Nat := board * 2 + b2n blk

/-- The 16 bytes that four words spell. -/
def State.words16 (s : State) (r : Reg) (i : Nat) : List Byte :=
  beBytes 4 (s.rd r (i * 4)).toNat ++ beBytes 4 (s.rd r (i * 4 + 1)).toNat ++ beBytes 4 (s.rd r (i * 4 + 2)).toNat
    ++ beBytes 4 (s.rd r (i * 4 + 3)).toNat

/-- The running command of a block. -/
def State.diceCmd (s : State) (i : Nat) : Option DiceCmd := Tbl.get (fun _ => none) s.look.cmd i

/-- The state with the running command of a block replaced. -/
def State.setDiceCmd (s : State) (i : Nat) (c : Option DiceCmd) : State :=
  s.putLook { s.look with cmd := Tbl.set (fun _ => none) s.look.cmd i c }

/-- The foreground queue of a partition's modify pipe (R221). -/
def State.pipeQ (s : State) (p : Nat) : List PipeOp := Tbl.get (fun _ => []) s.look.pipe p

/-- The state with a foreground queue replaced. -/
def State.setPipeQ (s : State) (p : Nat) (l : List PipeOp) : State :=
  s.putLook { s.look with pipe := Tbl.set (fun _ => []) s.look.pipe p l }

/-- The foreground queue has room (R221). -/
def State.pipeHasRoom (s : State) (p : Nat) : Bool := decide ((s.pipeQ p).length < 256)

/-- A command other than PURGE enters the queue of its partition (R221, R229); a full queue keeps it waiting in its block. -/
def State.cmdEnter (s : State) (i : Nat) (c : DiceCmd) : State :=
  match s.diceRoute (i / 2) (fieldOf c.arg 11 0) c.key with
  | .inr p => if c.op ≠ 5 ∧ s.pipeHasRoom p = true then s.setPipeQ p (s.pipeQ p ++ [.cmd i]) else s
  | .inl _ => s

/-- A write of CMD_GO with an OP (R229, R250): a write while BUSY has no effect and sets REJ. -/
def State.diceGo (s : State) (i op : Nat) : State :=
  if op = 0 ∨ 5 < op then s
  else if s.flag F.DICE_CMD_STAT.BUSY i then s.setFld F.DICE_CMD_STAT.REJ i 1
  else
    let c : DiceCmd := { op := op, key := s.words16 .DICE_CMD_KEY i, val := s.words16 .DICE_CMD_VAL i
                         arg := s.rd .DICE_CMD_ARG i, visited := [] }
    ((s.setDiceCmd i (some c)).setFld F.DICE_CMD_STAT.BUSY i 1).cmdEnter i c

/-- LOOKUP (R229). -/
def execLookup (board : BitVec 3) (blk : Bool) (s : State) : Res :=
  done (s.atChip (boardChip board.toNat) (fun s => s.diceGo (blkIdx board.toNat blk) 1))
/-- INSERT (R229). -/
def execInsert (board : BitVec 3) (blk : Bool) (s : State) : Res :=
  done (s.atChip (boardChip board.toNat) (fun s => s.diceGo (blkIdx board.toNat blk) 2))
/-- DELETE (R229). -/
def execDelete (board : BitVec 3) (blk : Bool) (s : State) : Res :=
  done (s.atChip (boardChip board.toNat) (fun s => s.diceGo (blkIdx board.toNat blk) 3))
/-- UPDATE (R229). -/
def execUpdate (board : BitVec 3) (blk : Bool) (s : State) : Res :=
  done (s.atChip (boardChip board.toNat) (fun s => s.diceGo (blkIdx board.toNat blk) 4))
/-- PURGE (R229). -/
def execPurge (board : BitVec 3) (blk : Bool) (s : State) : Res :=
  done (s.atChip (boardChip board.toNat) (fun s => s.diceGo (blkIdx board.toNat blk) 5))

/-- A command ends with a status. -/
def State.diceEnd (s : State) (i st : Nat) : State :=
  ((s.setDiceCmd i none).setFld F.DICE_CMD_STAT.BUSY i 0).setFld F.DICE_CMD_STAT.STATUS i st

/-- CMD_VAL0–3 take the 16 bytes of a value (R229). -/
def State.loadVal (s : State) (i : Nat) (v : List Byte) : State :=
  (List.range 4).foldl (fun s k => s.wr .DICE_CMD_VAL (i * 4 + k) (bytesWord ((v.drop (4 * k)).take 4))) s

/-- An INSERT or UPDATE entry of a command. -/
def State.cmdEntry (s : State) (p : Nat) (c : DiceCmd) : DiceEntry :=
  s.newEntry p (fieldOf c.arg 11 0) c.key c.val (bit c.arg.toNat 12) (fieldOf c.arg 31 16)

/-- UPDATE of a present entry: value, STATIC and OWNER; a change if one of them differs (R214, R229). -/
def State.updateEntry (s : State) (p : Nat) (l : DiceLoc) (e n : DiceEntry) (change : Bool) : State :=
  let e' := { e with value := n.value, static := n.static, owner := n.owner }
  let s := s.setEntry l (some e')
  if change && e' != e then s.changed p e.table.toNat else s

/-- A LOOKUP, INSERT, DELETE or UPDATE in the pipe of a partition: the status and the state (R229). -/
def State.diceRunAt (s : State) (i : Nat) (c : DiceCmd) (p : Nat) : Nat × State :=
  let t := fieldOf c.arg 11 0
  if s.tdefValid p t = false then (lkBadTable, s)
  else
    let found := s.findEntry p t (c.key.take (s.klen p t))
    match c.op, found with
    | 1, none => (lkMiss, s)
    | 1, some (_, e) =>
      (lkDone, ((s.loadVal i (fitBytes 16 e.value)).setFld F.DICE_CMD_STAT.ISSTATIC i (b2n e.static)).setFld
        F.DICE_CMD_STAT.OWNER i e.owner.toNat)
    | 2, _ => s.insertEntry p (s.cmdEntry p c) false true
    | 3, none => (lkMiss, s)
    | 3, some (l, e) => (lkDone, s.removeAt p l e true)
    | 4, some (l, e) => (lkDone, s.updateEntry p l e (s.cmdEntry p c) true)
    | 4, none => s.insertEntry p (s.cmdEntry p c) false true
    | _, _ => (lkDone, s)

/-- An operation of a thread leaves the pipe: its status returns to the thread, if that still waits for it (R129). -/
def State.pipeAnswer (s : State) (p th num : Nat) (rd : BitVec 5) (taint : Bool) (st : Nat) : State :=
  if (s.thread th).run = .stalled (.pipe p num) then
    s.setThread th { s.thread th with
      run := .stalled .lookup
      look := some { rd := rd, value := BitVec.ofNat 32 st, blk := none, taint := taint, chip := boardChip p } }
  else s

/-- An operation ends with a status of its own: what its requester learns (R221, R229). -/
def State.pipeEnd (s : State) (p : Nat) (o : PipeOp) (st : Nat) : State :=
  match o with
  | .ins th num rd taint _ _ _ _ => s.pipeAnswer p th num rd taint st
  | .del th num rd taint _ _ => s.pipeAnswer p th num rd taint st
  | .cmd i => if (s.diceCmd i).isSome then s.diceEnd i st else s

/-- What an operation does in the pipe of a partition: the status and the state (R221). -/
def State.pipeDo (s : State) (p : Nat) (o : PipeOp) : Nat × State :=
  match o with
  | .ins _ _ _ _ t inst key val => s.pipeInsert p inst t key val
  | .del _ _ _ _ t key => s.pipeDelete p t key
  | .cmd i => match s.diceCmd i with | some c => s.diceRunAt i c p | none => (lkDone, s)

/-- The oldest operation of a queue passes the pipe (R221). -/
def State.pipeStep (s : State) (p : Nat) : State :=
  match s.pipeQ p with
  | [] => s
  | o :: rest =>
    let r := (s.setPipeQ p rest).pipeDo p o
    r.2.pipeEnd p o r.1

/-- The n oldest operations of a queue pass the pipe, in order (R221). -/
def State.pipeSteps (p : Nat) : Nat → State → State
  | 0, s => s
  | n + 1, s => State.pipeSteps p n (s.pipeStep p)

/-- Every operation that arrived before now has passed the pipe (R221). -/
def State.pipeDrain (s : State) (p : Nat) : State := State.pipeSteps p (s.pipeQ p).length s

/-- The operations up to the first that `f` picks pass the pipe (R221); none if there is no such one. -/
def State.pipeThrough (s : State) (p : Nat) (f : PipeOp → Bool) : State :=
  match (s.pipeQ p).findIdx? f with
  | some k => State.pipeSteps p (k + 1) s
  | none => s

/-- The number by which a thread waits for an operation. -/
def PipeOp.num : PipeOp → Option Nat
  | .ins _ n _ _ _ _ _ _ => some n
  | .del _ n _ _ _ _ => some n
  | .cmd _ => none

/-- A thread's operation enters a queue and the thread stalls long (R221). -/
def State.pipeEnter (s : State) (p th : Nat) (mk : Nat → PipeOp) : State :=
  let n := s.look.pipeNext
  ((s.setPipeQ p (s.pipeQ p ++ [mk n])).putLook { (s.setPipeQ p (s.pipeQ p ++ [mk n])).look with pipeNext := n + 1 }).stall th
    (.pipe p n)

/-- The operations of a fenced Board's pipe end with UNAVAIL (R220, R229). -/
def State.pipeFence (s : State) (p : Nat) : State :=
  (s.pipeQ p).foldl (fun s o => s.pipeEnd p o lkUnavail) (s.setPipeQ p [])

/-- The partition in whose queue a block's command waits. -/
def State.cmdPipe (s : State) (i : Nat) : Option Nat := (List.range 8).find? (fun p => (s.pipeQ p).contains (.cmd i))

/-- A block's command passes the pipe after all that arrived before it, and ends (R221, R229). -/
def State.cmdPass (s : State) (i : Nat) (c : DiceCmd) : State :=
  match s.cmdPipe i with
  | some p => s.pipeThrough p (· == .cmd i)
  | none => match s.diceRoute (i / 2) (fieldOf c.arg 11 0) c.key with
    | .inl st => s.diceEnd i st
    | .inr p =>
      let r := (s.pipeDrain p).diceRunAt i c p
      r.2.diceEnd i r.1

/-- DICE_COMMAND_DONE (R221, R229). -/
def execDiceCommandDone (board : BitVec 3) (blk : Bool) (s : State) : Res :=
  let i := blkIdx board.toNat blk
  match s.diceCmd i with
  | none => done s
  | some c => done (if c.op = 5 then s else s.cmdPass i c)

/-- An entry that a PURGE removes (R229). -/
def DiceCmd.purges (c : DiceCmd) (e : DiceEntry) : Bool :=
  !e.static && e.owner.toNat == fieldOf c.arg 31 16 && (bit c.arg.toNat 13 || e.table.toNat == fieldOf c.arg 11 0)

/-- Remove the entry at a place if `p` says so. -/
def State.removeIf (board : Nat) (p : DiceEntry → Bool) (s : State) (l : DiceLoc) : State :=
  match (match l with | .slot k => s.slotAt k | .bar k => s.barAt k) with
  | some e => if p e then s.removeAt board l e true else s
  | none => s

/-- The slots of a bucket, as places. -/
def bucketLocs (board bucket : Nat) : List DiceLoc := (List.range 4).map (fun k => .slot (slotKey board bucket k))

/-- The bar of a partition, as places. -/
def barLocs (board : Nat) : List DiceLoc := (List.range 8).map (fun k => .bar (board * 8 + k))

/-- A PURGE ends when every unfenced partition is visited whole (R229). -/
def State.purgeEnd (s : State) (i : Nat) : State :=
  match s.diceCmd i with
  | some c =>
    if c.op = 5 ∧ s.liveBoards.all (fun p => Tbl.get (fun _ => 0) c.visited p == 131072) = true then s.diceEnd i lkDone else s
  | none => s

/-- PURGE_BUCKET_VISIT (R221, R229): the next bucket of a partition, after the operations that arrived there before; with the last
one the bar, and when every unfenced partition is done the command ends. -/
def execPurgeBucketVisit (board : BitVec 3) (blk : Bool) (part : BitVec 3) (s : State) : Res :=
  let i := blkIdx board.toNat blk
  match s.diceCmd i with
  | none => done s
  | some c =>
    let n := Tbl.get (fun _ => 0) c.visited part.toNat
    if c.op ≠ 5 ∨ 131072 ≤ n ∨ s.isFenced (boardChip part.toNat) then done s
    else
      let locs := bucketLocs part.toNat n ++ (if n = 131071 then barLocs part.toNat else [])
      let s := locs.foldl (State.removeIf part.toNat c.purges) (s.pipeDrain part.toNat)
      let v := Tbl.set (fun _ => 0) c.visited part.toNat (n + 1)
      done ((s.setDiceCmd i (some { c with visited := v })).purgeEnd i)

/-! ## Learning (R226 to R228) -/

/-- The learn of a key and value into a table, in its turn in the pipe (R221, R228): the LEARN code, and the state.  DESIGN CHOICE
(log entry 30): where the partition's own copy does not define the table, the learn fails. -/
def State.learn (s : State) (board t : Nat) (key16 val16 : List Byte) : Nat × State :=
  let p := s.partOf board t key16
  let failed (s : State) : Nat × State := (3, s.satInc F.BRD_DICE_LEARN_FAIL.COUNT board 1)
  if s.isFenced (boardChip p) then failed s
  else
    let s := s.pipeDrain p
    if s.tdefValid p t = false then failed s
    else match s.findEntry p t (key16.take (s.klen p t)) with
      | some (l, e) =>
        if e.value = val16.take (s.vlen p t) then (1, s.setEntry l (some { e with hit := true }))
        else if e.static then (1, s)
        else (2, ((s.setEntry l (some { e with hit := true, value := val16.take (s.vlen p t) })).changed p t).satInc
          F.BRD_DICE_LEARN_MOVE.COUNT board 1)
      | none =>
        let r := s.insertEntry p (s.newEntry p t key16 val16 false 0xFFFF) true true
        if r.1 = lkDone then (1, r.2) else failed r.2

/-! ## Dredge (R230 to R232) -/

/-- Buckets the partition still has to visit. -/
def State.dredgeLeft (s : State) (b : Nat) : Nat := Tbl.get (fun _ => 0) s.look.dredge b

/-- The state with the buckets still to visit replaced. -/
def State.setDredge (s : State) (b n : Nat) : State :=
  s.putLook { s.look with dredge := Tbl.set (fun _ => 0) s.look.dredge b n }

/-- A Dredge firing starts to be worked (R230). -/
def State.dredgeBegin (s : State) (b : Nat) (f : Firing) : State :=
  s.setDredge b (256 * s.polValue (10 + b) * (if f.deferred then 2 else 1))

/-- One entry at a Dredge visit (R231). -/
def State.dredgeEntry (board : Nat) (s : State) (l : DiceLoc) : State :=
  match (match l with | .slot k => s.slotAt k | .bar k => s.barAt k) with
  | none => s
  | some e =>
    if e.static || s.flag F.BRD_DICE_TDEF_W0.AUDIT (tdefIdx board e.table.toNat) then s
    else if e.hit then s.setEntry l (some { e with hit := false, stale := false })
    else if !e.stale then s.setEntry l (some { e with stale := true })
    else (s.removeAt board l e true).satInc F.BRD_DICE_AGED.COUNT board 1

/-- A Dredge visit of the bucket at the cursor; at the end of a sweep, of the parked entries (R230, R231). -/
def State.dredgeVisit (s : State) (board : BitVec 3) : State :=
  let b := board.toNat
  let left := s.dredgeLeft b
  if left = 0 then s
  else
    let c := s.fld F.BRD_DICE_CURSOR.BUCKET b
    let locs := bucketLocs b c ++ (if c = 131071 then barLocs b else [])
    let s := (locs.foldl (State.dredgeEntry b) s).setFld F.BRD_DICE_CURSOR.BUCKET b ((c + 1) % 131072)
    let s := s.setDredge b (left - 1)
    if left = 1 then s.workEnd (.dice board) 1 else s

/-- DREDGE_BUCKET_VISIT (R230, R231). -/
def execDredgeBucketVisit (board : BitVec 3) (s : State) : Res := done (s.dredgeVisit board)

/-! ## Sounding (R233 to R238) -/

/-- The Board whose copy of a definition the auditor goes by: the lowest unfenced one (DESIGN CHOICE, log entry 30). -/
def State.auditBoard (s : State) : Nat := s.liveBoards.headD 0

/-- The audit of a Bank. -/
def State.auditOf (s : State) (k : Nat) : Option Audit := Tbl.get (fun _ => none) s.look.audit k

/-- The state with the audit of a Bank replaced. -/
def State.setAudit (s : State) (k : Nat) (a : Option Audit) : State :=
  s.putLook { s.look with audit := Tbl.set (fun _ => none) s.look.audit k a }

/-- CHANGES of a table in every partition; a fenced one counts as 0. -/
def State.changesOf (s : State) (t : Nat) : List Nat :=
  (List.range 8).map (fun b => if s.isFenced (boardChip b) then 0 else s.fld F.BRD_DICE_TDEF_W3.CHANGES (tdefIdx b t))

/-- The sum of COUNT of a table over the unfenced partitions. -/
def State.countsOf (s : State) (t : Nat) : Nat :=
  s.liveBoards.foldl (fun n b => n + s.fld F.BRD_DICE_TDEF_W2.COUNT (tdefIdx b t)) 0

/-- The partitions of an audited table (R233). -/
def State.auditParts (s : State) (t : Nat) : List Nat :=
  (setBits (s.fld F.BRD_DICE_TDEF_W0.PARTS (tdefIdx s.auditBoard t))).filter (fun b => !s.isFenced (boardChip b))

/-- The next audited table of a Bank after the last one, with wrap (R233). -/
def State.nextAudit (s : State) (k : Nat) : Option Nat :=
  let b := s.auditBoard
  (pickFrom (fun j => s.tdefValid b (j * 4 + k) && s.flag F.BRD_DICE_TDEF_W0.AUDIT (tdefIdx b (j * 4 + k)))
    (Tbl.get (fun _ => 0) s.look.auditLast k) 1024).map (fun j => j * 4 + k)

/-- PF1 of BNK_SND_CTL.ENDPOINT may read host memory (R234, R394). -/
def State.sndMay (s : State) (k : Nat) : Bool :=
  s.pf1Present (s.fld F.BNK_SND_CTL.ENDPOINT k) && s.mayIssue (s.fld F.BNK_SND_CTL.ENDPOINT k) pf1Fn

/-- The auditor reads the shadow at an offset from BNK_SND_BASE (R234, R251). -/
def State.sndRead (s : State) (k off len : Nat) : State :=
  s.when (s.sndMay k) (fun s =>
    s.hostAsk (s.fld F.BNK_SND_CTL.ENDPOINT k) pf1Fn (s.rd64 .BNK_SND_BASE .BNK_SND_BASE_HI k + off) len false false)

/-- What a read of the shadow gave: none for one that failed or could not be issued. -/
def State.sndGot (s : State) (k n : Nat) (l : Option (List Byte)) : Option (List Byte) :=
  if s.sndMay k then l.map (fitBytes n) else none

/-- An audit ends (R235). -/
def State.soundEnd (s : State) (k : Nat) : State :=
  ((s.setAudit k none).setFld F.BNK_SND_STAT.BUSY k 0).workEnd (.auditor (BitVec.ofNat 2 k)) 2

/-- An audit ends discarded (R235). -/
def State.soundDiscard (s : State) (k : Nat) : State := (s.satInc F.BNK_SND_DISCARDED.COUNT k 1).soundEnd k

/-- A Sounding firing starts an audit: MAGIC, GEN and the table's DIR are read (R233, R234); with EN at 0 the auditor ignores it
(R251). -/
def State.soundBegin (s : State) (k : Nat) : State :=
  let u := Unit_.auditor (BitVec.ofNat 2 k)
  if s.flag F.BNK_SND_CTL.EN k = false then s.workEnd u 2
  else match s.nextAudit k with
    | none => s.workEnd u 2
    | some t =>
      let a : Audit := { table := t, started := false, gen := 0, off := 0, count := 0, next := 0, flips := 0, changes := []
                         missing := 0, different := 0, matched := 0, inserted := 0, discard := false }
      let s := ((s.setAudit k (some a)).setFld F.BNK_SND_STAT.BUSY k 1).setFld F.BNK_SND_STAT.TABLE k t
      ((s.putLook { s.look with auditLast := Tbl.set (fun _ => 0) s.look.auditLast k (t / 4 + 1) }).sndRead k 0 8).sndRead k
        (0x40 + t * 8) 8

/-- The shadow's head has been read: 16 bytes, MAGIC, GEN and DIR(t) (R234, R235).  A wrong MAGIC ends the audit with BADSHADOW;
where it goes on, its record.  DESIGN CHOICE (log entry 30): an audit whose read of the shadow fails ends discarded. -/
def State.auditHead (s : State) (k : Nat) (a : Audit) (head : Option (List Byte)) : Option Audit × State :=
  if a.started then (some a, s)
  else match s.sndGot k 16 head with
    | none => (none, s.soundDiscard k)
    | some l =>
      if beNat (l.take 4) ≠ 0x534E4431 then (none, (s.setFld F.BNK_SND_STAT.BADSHADOW k 1).soundEnd k)
      else
        let d := beNat (l.drop 8)
        let a := { a with started := true, gen := bytesWord ((l.drop 4).take 4), off := bits d 63 24, count := bits d 23 0
                          changes := s.changesOf a.table }
        (some a, s.setAudit k (some a))

/-- Every partition's epoch is flipped (R235). -/
def State.flipsDone (s : State) (a : Audit) : Bool := (s.auditParts a.table).all (fun b => a.flips.getLsbD b)

/-- AUDIT_EPOCH_FLIP (R235): one partition, once in an audit; `head` is what the reads at the audit's start gave. -/
def execAuditEpochFlip (table : BitVec 12) (board : BitVec 3) (head : Option (List (BitVec 8))) (s : State) : Res :=
  let k := table.toNat % 4
  let b := board.toNat
  match s.auditOf k with
  | none => done s
  | some a =>
    if a.table ≠ table.toNat ∨ (s.auditParts a.table).contains b = false ∨ a.flips.getLsbD b = true then done s
    else match s.auditHead k a head with
      | (none, s) => done s
      | (some a, s) =>
        let i := tdefIdx b a.table
        let s := s.setFld F.BRD_DICE_TDEF_W0.AEPOCH i (1 - s.fld F.BRD_DICE_TDEF_W0.AEPOCH i)
        done (s.setAudit k (some { a with flips := a.flips ||| ((1 : BitVec 8) <<< b) }))

/-- CHANGES of the table in a partition is that of c0, and GEN, reread, that of g0 (R236). -/
def State.unchanged (s : State) (p : Nat) (a : Audit) (gen : Option Word) : Bool :=
  s.fld F.BRD_DICE_TDEF_W3.CHANGES (tdefIdx p a.table) == a.changes.getD p 0 && gen == some a.gen

/-- A repair may pass the pipe of a partition (R236). -/
def State.mayRepair (s : State) (k p : Nat) (a : Audit) (gen : Option Word) : Bool :=
  s.flag F.BNK_SND_CTL.REPAIR k && !a.discard && s.unchanged p a gen

/-- A repair is due but CHANGES or GEN has changed: the audit is void (R236). -/
def State.voids (s : State) (k p : Nat) (a : Audit) (gen : Option Word) : Bool :=
  s.flag F.BNK_SND_CTL.REPAIR k && !s.unchanged p a gen

/-- The entry that a record of the shadow spells for a partition: the slot layout without HIT, STALE and MARK (R216, R234). -/
def State.shadowEntry (s : State) (p t : Nat) (r : List Byte) : DiceEntry :=
  s.newEntry p t ((r.drop 6).take 16) ((r.drop (6 + s.klen p t)).take 16) (bit (beNat (r.take 4)) 30) (bits (beNat (r.take 4)) 15 0)

/-- The auditor's work on one record of the shadow, with its repair (R235, R236).  DESIGN CHOICE (log entry 30): in a partition that
is fenced or whose copy does not define the table the record is missing, and no repair is tried. -/
def State.auditRecord (s : State) (k : Nat) (a : Audit) (gen : Option Word) (r : List Byte) : State :=
  let t := a.table
  let p := s.partOf s.auditBoard t ((r.drop 6).take 16)
  let n := s.shadowEntry p t r
  if s.isFenced (boardChip p) ∨ s.tdefValid p t = false then s.setAudit k (some { a with missing := a.missing + 1 })
  else match s.findEntry p t n.key with
    | none =>
      let a := { a with missing := a.missing + 1, discard := a.discard || s.voids k p a gen }
      if s.mayRepair k p a gen then
        let x := s.insertEntry p n false false
        if x.1 = lkDone then (x.2.satInc F.BNK_SND_REPAIRED.COUNT k 1).setAudit k (some { a with inserted := a.inserted + 1 })
        else (x.2.satInc F.BNK_SND_REPAIR_FAIL.COUNT k 1).setAudit k (some a)
      else s.setAudit k (some a)
    | some (l, e) =>
      let e := { e with mark := s.flag F.BRD_DICE_TDEF_W0.AEPOCH (tdefIdx p t) }
      let s := s.setEntry l (some e)
      let a := { a with matched := a.matched + 1 }
      if e.value = n.value ∧ e.static = n.static ∧ e.owner = n.owner then s.setAudit k (some a)
      else
        let a := { a with different := a.different + 1, discard := a.discard || s.voids k p a gen }
        if s.mayRepair k p a gen then
          ((s.updateEntry p l e n false).satInc F.BNK_SND_REPAIRED.COUNT k 1).setAudit k (some a)
        else s.setAudit k (some a)

/-- SOUNDING_REPAIR (R234 to R236): the next of the table's records, as read, and GEN as reread before its repair. -/
def execSoundingRepair (bank : BitVec 2) (gen : Option (BitVec 32)) (rec : Option (List (BitVec 8))) (s : State) : Res :=
  let k := bank.toNat
  match s.auditOf k with
  | none => done s
  | some a =>
    if a.started = false ∨ s.flipsDone a = false ∨ a.count ≤ a.next then done s
    else
      let got := s.sndGot k 32 rec
      let s := (s.sndRead k (a.off + 32 * a.next) 32).when (s.flag F.BNK_SND_CTL.REPAIR k) (fun s => s.sndRead k 4 4)
      let a := { a with next := a.next + 1 }
      match got with
      | some r => done (s.auditRecord k a gen r)
      | none => done (s.setAudit k (some { a with discard := true }))

/-- The places of a table's entries whose mark is not the epoch, in every partition, with the partition. -/
def State.extras (s : State) (t : Nat) : List (Nat × DiceLoc × DiceEntry) :=
  let bad (b : Nat) (e : DiceEntry) : Bool :=
    e.table.toNat == t && !s.isFenced (boardChip b) && e.mark != s.flag F.BRD_DICE_TDEF_W0.AEPOCH (tdefIdx b t)
  (s.look.slots.filterMap (fun x => match x.2 with
      | some e => let b := x.1 / 524288; if bad b e then some (b, DiceLoc.slot x.1, e) else none
      | none => none))
    ++ (s.look.bar.filterMap (fun x => match x.2 with
      | some e => let b := x.1 / 8; if bad b e then some (b, DiceLoc.bar x.1, e) else none
      | none => none))

/-- One extra entry: deleted where a repair may (R235, R236). -/
def State.repairExtra (k : Nat) (gen : Option Word) (x : Audit × State) (e : Nat × DiceLoc × DiceEntry) : Audit × State :=
  let a := x.1
  let s := x.2
  let a := { a with discard := a.discard || s.voids k e.1 a gen }
  match s.findEntry e.1 a.table e.2.2.key with
  | some (l, e') =>
    if s.mayRepair k e.1 a gen then (a, (s.removeAt e.1 l e' false).satInc F.BNK_SND_REPAIRED.COUNT k 1) else (a, s)
  | none => (a, s)

/-- The blocks of the Sounding auditor (R207). -/
def blkSounding : Nat := 0x031

/-- The counts of an audit are added, and a mismatch is reported (R235, R238). -/
def State.auditReport (s : State) (k : Nat) (a : Audit) (extra : Nat) : State :=
  let s := ((s.satInc F.BNK_SND_MISSING.COUNT k a.missing).satInc F.BNK_SND_DIFFERENT.COUNT k a.different).satInc
    F.BNK_SND_EXTRA.COUNT k extra
  if a.missing + a.different + extra = 0 then s
  else
    let sat (n : Nat) : Nat := min n 0xFFFF
    let s := s.setFld F.BNK_SND_LAST.TABLE k a.table
    s.event (bankChip k) blkSounding 0x0701 sevNote
      (a.table * 2 ^ 48 + sat a.missing * 2 ^ 32 + sat a.different * 2 ^ 16 + sat extra)

/-- The last steps of an audit (R235, R236): the extra entries, then the counts, unless GEN or the sum of CHANGES differs. -/
def State.auditClose (s : State) (k : Nat) (a : Audit) (gen : Option Word) : State :=
  let ex := if a.matched + a.inserted < s.countsOf a.table then s.extras a.table else []
  let r := ex.foldl (State.repairExtra k gen) (a, s)
  if gen ≠ some a.gen ∨ r.1.discard = true ∨ r.2.changesOf a.table ≠ a.changes then r.2.soundDiscard k
  else (r.2.auditReport k r.1 ex.length).soundEnd k

/-- SOUNDING_AUDIT_END (R234, R235, R238): `head` is MAGIC, GEN and DIR(t) as read now.  An audit ends when every partition is flipped
and every record is done, or, before its first step, on a wrong MAGIC. -/
def execSoundingAuditEnd (bank : BitVec 2) (head : Option (List (BitVec 8))) (s : State) : Res :=
  let k := bank.toNat
  match s.auditOf k with
  | none => done s
  | some a => match s.auditHead k a head with
    | (none, s) => done s
    | (some a, s) =>
      if s.flipsDone a = false ∨ a.next < a.count then done s
      else done ((s.sndRead k 4 4).auditClose k a ((s.sndGot k 16 head).map (fun l => bytesWord ((l.drop 4).take 4))))

end Sys2Proof.Machine
end

