-- ==== Sys2Proof/Machine/Lookup.lean ====
section
/-! DEFINITION. The flow table (06, R239 to R243) and the Delta trie (R244 to R247). -/
namespace Sys2Proof.Machine

/-! ## The flow table -/

/-- Seconds of a chiplet's network time, 32 bits. -/
def State.nowSec (s : State) (chip : Nat) : Nat := s.replica chip / 1000000000 % 2 ^ 32

/-- Some unfenced Board has EN (R243). -/
def State.flowAny (s : State) : Bool := s.liveBoards.any (fun b => s.flag F.BRD_FLOW_CTL.EN b)

/-- Every unfenced Board has EN and HBM is mapped: flow service is enabled (R243). -/
def State.flowEnabled (s : State) : Bool := s.liveBoards.all (fun b => s.flag F.BRD_FLOW_CTL.EN b) && s.hbmMapped

/-- A Board's READY and ANY_EN. -/
def State.setFlow (ready any : Bool) (s : State) (b : Nat) : State :=
  (s.setFld F.BRD_FLOW_CTL.READY b (b2n ready)).setFld F.BRD_FLOW_CTL.ANY_EN b (b2n any)

/-- READY and ANY_EN follow a change of EN, of fences or of HBM: READY stays only while service is enabled (R243). -/
def State.flowSettle (s : State) : State :=
  (List.range 8).foldl (fun t b => t.setFlow (s.flag F.BRD_FLOW_CTL.READY b && s.flowEnabled) s.flowAny b) s

/-- A write of BRD_FLOW_CTL.EN (R243). -/
def State.flowCtlWrite (s : State) (b : Nat) (v : Word) : State := (s.setFld F.BRD_FLOW_CTL.EN b (fieldOf v 0 0)).flowSettle

/-- FLOW_CTL_WRITE (R243). -/
def execFlowCtlWrite (board : BitVec 3) (v : BitVec 32) (s : State) : Res :=
  done (s.atChip (boardChip board.toNat) (fun s => s.flowCtlWrite board.toNat v))

/-- Bytes of the flow table (R239). -/
def flowBytes : Nat := 0x400000000

/-- FLOW_TABLE_CLEAR_DONE (R243): every entry is cleared and READY becomes 1 on every Board. -/
def execFlowTableClearDone (s : State) : Res :=
  if s.serving && s.flowEnabled && !s.liveBoards.all (fun b => s.flag F.BRD_FLOW_CTL.READY b) then
    let s := s.hbmClear flowBytes
    done ((List.range 8).foldl (State.setFlow true true) (s.putLook { s.look with flowDirty := [] }))
  else done s

/-- A write of BRD_FLOW_HOME: none if a field names a fenced Board (R249). -/
def State.flowHomeWrite (s : State) (b : Nat) (v : Word) : State :=
  if (List.range 8).any (fun k => s.isFenced (boardChip (fieldOf v (3 * k + 2) (3 * k)))) then s
  else s.writeTyped .BRD_FLOW_HOME b v

/-- FLOW_HOME_WRITE (R249). -/
def execFlowHomeWrite (board : BitVec 3) (v : BitVec 32) (s : State) : Res :=
  done (s.atChip (boardChip board.toNat) (fun s => s.flowHomeWrite board.toNat v))

/-- h0 of a flow key (R240). -/
def flowHash0 (key : List Byte) : Nat := crc32c 0xFFFFFFFF key

/-- h1 of a flow key (R240). -/
def flowHash1 (key : List Byte) : Nat := rev32 (crc32c 0x5EEDB0E5 key)

/-- The share of a flow key (R240). -/
def flowShare (key : List Byte) : Nat := bits (flowHash0 key) 28 26

/-- The first bucket of a flow key (R240). -/
def flowBucket0 (key : List Byte) : Nat := bits (flowHash0 key) 25 3 * 8 + flowShare key

/-- The second bucket of a flow key (R240). -/
def flowBucket1 (key : List Byte) : Nat :=
  let b := bits (flowHash1 key) 25 3 * 8 + flowShare key
  if b = flowBucket0 key then flowBucket0 key ^^^ 8 else b

/-- The home Board of a flow key, by a Board's BRD_FLOW_HOME (R240). -/
def State.flowHome (s : State) (ib : Nat) (key : List Byte) : Nat :=
  fieldOf (s.rd .BRD_FLOW_HOME ib) (3 * flowShare key + 2) (3 * flowShare key)

/-- Entry i cannot be read.  DESIGN CHOICE (log entry 31): such an entry has no key and is not empty. -/
def State.flowBad (s : State) (i : Nat) : Bool := s.hbmBad (i * 64) 64

/-- Entry i is valid with this key (R239, R241). -/
def State.flowMatches (s : State) (key : List Byte) (i : Nat) : Bool :=
  (s.hbmRead (i * 64 + 63) 1).any (fun b => b.getLsbD 7) && s.hbmRead (i * 64) 32 == key && !s.flowBad i

/-- Entry i is valid. -/
def State.flowValid (s : State) (i : Nat) : Bool := (s.hbmRead (i * 64 + 63) 1).any (fun b => b.getLsbD 7) || s.flowBad i

/-- LAST and PKTS of an entry as the flow cache holds them (R242). -/
def State.flowUse (s : State) (i : Nat) : Word × Word :=
  match Tbl.get (fun _ => none) s.look.flowDirty i with
  | some u => u
  | none => (bytesWord (s.hbmRead (i * 64 + 48) 4), bytesWord (s.hbmRead (i * 64 + 52) 4))

/-- The state with LAST and PKTS of an entry in the flow cache replaced. -/
def State.setFlowUse (s : State) (i : Nat) (u : Option (Word × Word)) : State :=
  s.putLook { s.look with flowDirty := Tbl.set (fun _ => none) s.look.flowDirty i u }

/-- Entry i is expired for a home Board (R241). -/
def State.flowExpired (s : State) (home i : Nat) : Bool :=
  let tmo := (s.rd .BRD_FLOW_TMO home).toNat
  tmo != 0 && !s.flowBad i && decide (tmo < (s.nowSec (boardChip home) + 2 ^ 32 - (s.flowUse i).1.toNat) % 2 ^ 32)

/-- The entries of both buckets of a key, in order (R240). -/
def flowEntries (key : List Byte) : List Nat :=
  (List.range 4).map (fun k => flowBucket0 key * 4 + k) ++ (List.range 4).map (fun k => flowBucket1 key * 4 + k)

/-- The flow cache reads both buckets of a key, coherently (R173, R240, R242). -/
def State.flowTouch (s : State) (key : List Byte) : State := (s.hbmTouch ((flowEntries key).map (fun i => (i * 64, 64)))).2

/-- Entry i is freed. -/
def State.flowFree (s : State) (i : Nat) : State := (s.hbmPutBy (i * 64 + 63) [0]).setFlowUse i none

/-- Flow service answers on a Board for a key: the home Board, or none for UNAVAIL (R241, R243). -/
def State.flowServe (s : State) (ib : Nat) (key : List Byte) : Option Nat :=
  if s.flag F.BRD_FLOW_CTL.READY ib && s.hbmMapped && !s.isFenced (boardChip (s.flowHome ib key)) then
    some (s.flowHome ib key)
  else none

/-- The result word of a flow instruction: index << 4, or a status (R129). -/
def flowResult (i : Nat) : Word := BitVec.ofNat 32 (i * 16)

/-- FLK (R241): the result word, the ACTION on a hit, the state. -/
def State.flowLookup (s : State) (ib : Nat) (key : List Byte) : Word × Option Block × State :=
  match s.flowServe ib key with
  | none => (BitVec.ofNat 32 lkUnavail, none, s)
  | some home =>
    let s := s.flowTouch key
    match (flowEntries key).find? (s.flowMatches key) with
    | none => (BitVec.ofNat 32 lkMiss, none, s)
    | some i =>
      if s.flowExpired home i then
        (BitVec.ofNat 32 lkMiss, none, (s.flowFree i).satInc F.BRD_FLOW_EXPIRED.COUNT home 1)
      else
        let u := s.flowUse i
        (flowResult i, some (bytesBlock (s.hbmRead (i * 64 + 32) 16)),
          s.setFlowUse i (some (BitVec.ofNat 32 (s.nowSec (boardChip home)), BitVec.ofNat 32 (satAdd 0xFFFFFFFF u.2.toNat 1))))

/-- The 64 bytes of a new entry (R239). -/
def flowRecord (key : List Byte) (action : Block) (last owner : Nat) : List Byte :=
  key ++ blockBytes action ++ beBytes 4 last ++ beBytes 4 0 ++ beBytes 2 owner ++ beBytes 5 0 ++ [0x80]

/-- FINS (R241, R579): the result word and the state; the insert rate as for DINS. -/
def State.flowInsert (s : State) (ib inst : Nat) (key : List Byte) (action : Block) : Word × State :=
  let r := s.takeInsert ib inst
  if r.1 = false then (BitVec.ofNat 32 lkRate, r.2)
  else
    let s := r.2
    match s.flowServe ib key with
    | none => (BitVec.ofNat 32 lkUnavail, s)
    | some home =>
      let s := s.flowTouch key
      if (flowEntries key).any (fun i => s.flowMatches key i && !s.flowExpired home i) then (BitVec.ofNat 32 lkExists, s)
      else match (flowEntries key).find? (fun i => !s.flowValid i || s.flowExpired home i) with
        | none => (BitVec.ofNat 32 lkFull, s.satInc F.BRD_FLOW_FULL.COUNT home 1)
        | some i =>
          (flowResult i, (s.hbmPutBy (i * 64) (flowRecord key action (s.nowSec (boardChip home)) inst)).setFlowUse i none)

/-- FDEL (R241): the result word and the state. -/
def State.flowDelete (s : State) (ib : Nat) (key : List Byte) : Word × State :=
  match s.flowServe ib key with
  | none => (BitVec.ofNat 32 lkUnavail, s)
  | some _ =>
    let s := s.flowTouch key
    match (flowEntries key).find? (s.flowMatches key) with
    | none => (BitVec.ofNat 32 lkMiss, s)
    | some i => (BitVec.ofNat 32 lkDone, s.flowFree i)

/-- FLOW_CACHE_WRITEBACK (R242): LAST and PKTS of an entry reach HBM. -/
def execFlowCacheWriteback (index : BitVec 28) (s : State) : Res :=
  let i := index.toNat
  match Tbl.get (fun _ => none) s.look.flowDirty i with
  | none => done s
  | some (l, p) =>
    done ((s.hbmPutBy (i * 64 + 48) (beBytes 4 l.toNat ++ beBytes 4 p.toNat)).setFlowUse i none)

/-! ## Delta -/

/-- The address width of a family. -/
def afBits (v6 : Bool) : Nat := if v6 then 128 else 32

/-- A prefix matches an address (R245). -/
def Prefix.covers (p : Prefix) (v6 : Bool) (vrf addr : Nat) : Bool :=
  p.v6 == v6 && p.vrf == vrf && p.addr >>> (afBits v6 - p.len) == addr >>> (afBits v6 - p.len)

/-- The longer of two prefixes, if there are two. -/
def longer : Option Prefix → Option Prefix → Option Prefix
  | none, q => q
  | p, none => p
  | some p, some q => if p.len < q.len then some q else some p

/-- The longest matching prefix (R245). -/
def longest (v6 : Bool) (vrf addr : Nat) (l : List Prefix) : Option Prefix :=
  (l.filter (fun p => p.covers v6 vrf addr)).foldl (fun a p => longer a (some p)) none

/-- A VRF is enabled (R245). -/
def State.vrfOn (s : State) (vrf : Nat) : Bool := bit (s.rd .DLT_VRF_EN (vrf / 32)).toNat (vrf % 32)

/-- TLK (R245): the result word. -/
def State.deltaLookup (s : State) (v6 : Bool) (vrf addr : Nat) : Word :=
  if s.vrfOn vrf = false then BitVec.ofNat 32 lkBadTable
  else match longest v6 vrf addr s.look.delta with
    | some p => BitVec.ofNat 32 (p.result * 16)
    | none => BitVec.ofNat 32 lkMiss

/-- What a prefix costs of Delta's 2,097,152 units: an IPv4 prefix one, an IPv6 prefix two, four beyond /64 (R246). -/
def Prefix.cost (p : Prefix) : Nat := if p.v6 then (if 64 < p.len then 4 else 2) else 1

/-- The prefixes fit (R246). -/
def deltaFits (l : List Prefix) : Bool := decide (l.foldl (fun n p => n + p.cost) 0 ≤ 2097152)

/-- Two prefixes are one: family, VRF, length and address bits. -/
def Prefix.same (p q : Prefix) : Bool := p.v6 == q.v6 && p.vrf == q.vrf && p.len == q.len && p.addr == q.addr

/-- A write of DLT_CMD (R247, R252): a write while BUSY is 1 sets REJ. -/
def State.deltaGo (s : State) (v : Word) : State :=
  if fieldOf v 1 0 ≠ 1 ∧ fieldOf v 1 0 ≠ 2 then s
  else if s.flag F.DLT_CMD_STAT.BUSY 0 then s.setFld F.DLT_CMD_STAT.REJ 0 1
  else
    let a := beNat (s.words16 .DLT_CMD_ADDR 0)
    let s := s.setFld F.DLT_CMD_STAT.BUSY 0 1
    (s.putLook { s.look with deltaCmd := some (v, a, s.fld F.DLT_CMD_RES.RESULT 0) })

/-- DELTA_ADD (R247). -/
def execDeltaAdd (v : BitVec 32) (s : State) : Res :=
  done (s.atChip 1 (fun s => s.when (fieldOf v 1 0 == 1) (fun s => s.deltaGo v)))

/-- DELTA_DEL (R247). -/
def execDeltaDel (v : BitVec 32) (s : State) : Res :=
  done (s.atChip 1 (fun s => s.when (fieldOf v 1 0 == 2) (fun s => s.deltaGo v)))

/-- The prefix that an update names: the address in lane 0 for IPv4, only its first LEN bits (R252). -/
def cmdPrefix (v : Word) (addr result : Nat) : Prefix :=
  let v6 := bit v.toNat 2
  let len := fieldOf v 10 3
  let a := if v6 then addr else addr / 2 ^ 96
  { v6 := v6, vrf := fieldOf v 27 16, len := len, addr := a >>> (afBits v6 - len) <<< (afBits v6 - len), result := result }

/-- What an update makes of the prefixes: its status and the prefixes (R247). -/
def deltaApply (v : Word) (addr result : Nat) (l : List Prefix) : Nat × List Prefix :=
  let p := cmdPrefix v addr result
  if afBits p.v6 < p.len then (lkBadTable, l)
  else
    let rest := l.filter (fun q => !q.same p)
    if fieldOf v 1 0 = 2 then (if rest.length = l.length then (lkMiss, l) else (lkDone, rest))
    else if deltaFits (p :: rest) then (lkDone, p :: rest) else (lkFull, l)

/-- DELTA_UPDATE_DONE (R247). -/
def execDeltaUpdateDone (s : State) : Res :=
  match s.look.deltaCmd with
  | none => done s
  | some (v, a, res) =>
    let r := deltaApply v a res s.look.delta
    let s := s.putLook { s.look with delta := r.2, deltaCmd := none }
    let s := (s.setFld F.DLT_CMD_STAT.BUSY 0 0).setFld F.DLT_CMD_STAT.STATUS 0 r.1
    done ((s.setFld F.DLT_V4_COUNT.COUNT 0 (r.2.filter (fun p => !p.v6)).length).setFld F.DLT_V6_COUNT.COUNT 0
      (r.2.filter (fun p => p.v6)).length)

end Sys2Proof.Machine
end

