-- ==== Sys2Proof/Machine/Parser.lean ====
section
/-! DEFINITION. The Bank parser (06, R208 to R211): header recognition in the parse window, PTYPE, offsets, flow hash, and
the header vector (R209). -/
namespace Sys2Proof.Machine

/-- What the parser goes by (R211, R248). -/
structure ParseCfg where
  seed   : Nat
  vxlan  : Nat
  geneve : Nat
  roce   : Nat
  nvme   : Nat
  attach : Bool
deriving DecidableEq, Repr

/-- The addresses and numbers of an IP header, as the flow hash and the checksum need them. -/
structure IpInfo where
  v6    : Bool
  src   : List Byte
  dst   : List Byte
  proto : Nat
  /-- The protocol that the flow hash takes: of a fragment, the one its fragment header names, alike in every fragment (R211). -/
  hproto : Nat
  frag  : Bool
  /-- The fragment offset is nonzero. -/
  later : Bool
  /-- Offset of the layer-4 header. -/
  l4    : Nat
  /-- Bytes of the packet after the last header, by its length field. -/
  plen  : Nat
  /-- A further extension header, or one of another kind, stands at `l4`. -/
  other : Bool
deriving DecidableEq, Repr

/-- How far a parse has come (R208): going on, stopped at the end of what it reads, at the window edge, at a cut header. -/
inductive ParseStop where
  | going | ended | deep | cut
deriving DecidableEq, Repr

/-- What the parser reports (R209, R210) and has under way: `pos` is the end of the last header read in full. -/
structure Parsed where
  stop   : ParseStop
  pos    : Nat
  etype  : Nat
  vlans  : Nat
  ol3    : Nat
  ol4    : Nat
  app    : Nat
  il3    : Nat
  il4    : Nat
  frag   : Bool
  l3bad  : Bool
  l4bad  : Bool
  l4chk  : Bool
  l3     : Nat
  l4     : Nat
  tun    : Nat
  il2    : Nat
  il3o   : Nat
  il4o   : Nat
  vni    : Nat
  itype  : Nat
  oip    : Option IpInfo
  iip    : Option IpInfo
deriving DecidableEq, Repr

/-- Nothing recognised yet. -/
def parsed0 : Parsed :=
  { stop := .going, pos := 0, etype := 0, vlans := 0, ol3 := 0, ol4 := 0, app := 0, il3 := 0, il4 := 0, frag := false
    l3bad := false, l4bad := false, l4chk := false, l3 := 0xFFFF, l4 := 0xFFFF, tun := 0xFFFF, il2 := 0xFFFF
    il3o := 0xFFFF, il4o := 0xFFFF, vni := 0, itype := 0, oip := none, iip := none }

/-- n bytes of a frame from an offset, as a big-endian number. -/
def rdN (f : List Byte) (off n : Nat) : Nat := beNat ((f.drop off).take n)

/-- The parse window (R208). -/
def parseWindow : Nat := 192

/-- Whether a header of n bytes at an offset can be read (R208): the frame's end governs before the window. -/
def reach (f : List Byte) (off n : Nat) : ParseStop :=
  if f.length < off + n then .cut else if parseWindow < off + n then .deep else .going

/-- Whether a header whose length field ends at `lenEnd` can be read (R208): its fixed part, the minimum of its length and the length
it gives.  The frame's end governs where the length can be read; a length beyond the window cannot (DEDUCED, log entry 29). -/
def reachLen (f : List Byte) (off fixed lenEnd least total : Nat) : ParseStop :=
  if f.length < off + fixed then .cut
  else if parseWindow < lenEnd then .deep
  else if total < least ∨ f.length < off + total then .cut
  else if parseWindow < off + max fixed total then .deep
  else .going

/-- The layer-4 code of a protocol (R210). -/
def l4Code (p : Nat) : Nat :=
  if p = 6 then 1 else if p = 17 then 2 else if p = 1 ∨ p = 58 then 3 else if p = 50 then 4 else 5

/-- The layer-3 code of an EtherType (R208, R210). -/
def l3Code (t : Nat) : Nat :=
  if t = 0x0800 then 1 else if t = 0x86DD then 2 else if t = 0x0806 then 3 else if t = 0x88F7 then 4 else 0

/-- An IPv6 extension header that the parser follows (R208). -/
def isExt6 (p : Nat) : Bool := p == 0 || p == 43 || p == 60 || p == 44

/-- An IPv6 extension header of another kind (RFC 7045: AH, Mobility, HIP, Shim6). -/
def isOtherExt6 (p : Nat) : Bool := p == 51 || p == 135 || p == 139 || p == 140

/-- The extension headers of an IPv6 packet: stop, next protocol, fragment, later fragment, end, and the protocol that the first
fragment header of a fragment names. -/
def ext6 (f : List Byte) : Nat → Nat → Nat → Bool → Option Nat → ParseStop × Nat × Bool × Bool × Nat × Option Nat
  | 0, p, off, fr, hp => (.going, p, fr, false, off, hp)
  | fuel + 1, p, off, fr, hp =>
    if isExt6 p = false then (.going, p, fr, false, off, hp)
    else if p = 44 then
      match reach f off 8 with
      | .going =>
        let fo := rdN f (off + 2) 2
        let here := fo / 8 != 0 || fo % 2 == 1
        let hp := if here && hp.isNone then some (rdN f off 1) else hp
        if fo / 8 = 0 then ext6 f fuel (rdN f off 1) (off + 8) (fr || here) hp
        else (.going, rdN f off 1, true, true, off + 8, hp)
      | st => (st, p, fr, false, off, hp)
    else
      let n := (rdN f (off + 1) 1 + 1) * 8
      match reachLen f off 8 (off + 2) 8 n with
      | .going => ext6 f fuel (rdN f off 1) (off + n) fr hp
      | st => (st, p, fr, false, off, hp)

/-- The ones' complement sum of 16-bit words, folded (RFC 1071). -/
def onesSum : List Byte → Nat
  | a :: b :: t => a.toNat * 256 + b.toNat + onesSum t
  | [a] => a.toNat * 256
  | [] => 0

/-- A ones' complement sum in 16 bits. -/
def fold16 (n : Nat) : Nat := if n = 0 then 0 else (n - 1) % 65535 + 1

/-- An IP header at an offset: stop, its fields, whether its lengths or checksum are bad (R208, R210). -/
def parseIp (f : List Byte) (v6 : Bool) (off : Nat) : ParseStop × Option IpInfo × Bool :=
  if v6 then
    match reach f off 40 with
    | .going =>
      let plen := rdN f (off + 4) 2
      let r := ext6 f 4 (rdN f (off + 6) 1) (off + 40) false none
      (r.1, some { v6 := true, src := (f.drop (off + 8)).take 16, dst := (f.drop (off + 24)).take 16, proto := r.2.1
                   hproto := r.2.2.2.2.2.getD r.2.1, frag := r.2.2.1, later := r.2.2.2.1, l4 := r.2.2.2.2.1
                   plen := off + 40 + plen - r.2.2.2.2.1, other := isExt6 r.2.1 || isOtherExt6 r.2.1 },
        decide (f.length < off + 40 + plen))
    | st => (st, none, st == .cut)
  else
    let n := rdN f off 1 % 16 * 4
    match reachLen f off 20 (off + 1) 20 n with
    | .going =>
      let tot := rdN f (off + 2) 2
      let fo := rdN f (off + 6) 2
      (.going, some { v6 := false, src := (f.drop (off + 12)).take 4, dst := (f.drop (off + 16)).take 4
                      proto := rdN f (off + 9) 1, hproto := rdN f (off + 9) 1, frag := fo % 8192 != 0 || bit fo 13
                      later := fo % 8192 != 0, l4 := off + n, plen := tot - n, other := false },
        fold16 (onesSum ((f.drop off).take n)) != 0xFFFF || decide (f.length < off + tot) || decide (tot < n))
    | st => (st, none, st == .cut)

/-- A transport header: stop and its length (R208): TCP, UDP, ICMP, ICMPv6 or ESP; a UDP length counts its header. -/
def parseL4 (f : List Byte) (p off : Nat) : ParseStop × Nat :=
  if p = 6 then
    let n := rdN f (off + 12) 1 / 16 * 4
    (reachLen f off 20 (off + 13) 20 n, n)
  else if p = 17 then (if rdN f (off + 4) 2 < 8 then reachLen f off 8 (off + 6) 8 0 else reach f off 8, 8)
  else (reach f off 8, 8)

/-- The checksum of the outermost TCP or UDP segment: checked, and wrong (R210). -/
def l4Check (f : List Byte) (ip : IpInfo) : Bool × Bool :=
  let seg := (f.drop ip.l4).take ip.plen
  if ip.frag || (ip.proto != 6 && ip.proto != 17) || decide (f.length < ip.l4 + ip.plen)
      || (ip.proto == 17 && rdN f (ip.l4 + 6) 2 == 0) || decide (ip.plen < 8) then (false, false)
  else
    let pseudo := ip.src ++ ip.dst ++ beBytes 4 ip.plen ++ beBytes 4 ip.proto
    (true, fold16 (onesSum (pseudo ++ seg)) != 0xFFFF)

/-- The application that the outermost ports select (R208, R210). -/
def appOf (c : ParseCfg) (p sport dport : Nat) : Nat :=
  if p = 17 then
    if dport = c.vxlan then 1 else if dport = c.geneve then 2 else if dport = c.roce then 3
    else if dport = 319 ∨ dport = 320 then 5 else 0
  else if p = 6 ∧ (sport = c.nvme ∨ dport = c.nvme) then 4 else 0

/-- The EtherType after up to two tags: stop, type, end, tags read (R208).  A cut tag is counted as its type names it. -/
def parseTags (f : List Byte) : Nat → Nat → Nat → ParseStop × Nat × Nat × Nat
  | 0, off, n => (.going, rdN f off 2, off + 2, n)
  | fuel + 1, off, n =>
    let t := rdN f off 2
    if t = 0x8100 ∨ t = 0x88A8 then
      match reach f (off + 2) 4 with
      | .going => parseTags f fuel (off + 4) (n + 1)
      | st => (st, t, off + 2, n + 1)
    else (.going, t, off + 2, n)

/-- Bytes of an ARP or PTP header. -/
def arpPtpLen (f : List Byte) (t off : Nat) : Nat :=
  if t = 0x0806 then 8 + 2 * (rdN f (off + 4) 1 + rdN f (off + 5) 1) else 34

/-- An offset as reported: 0xFFFF for a cut header (R209). -/
def shown (st : ParseStop) (off : Nat) : Nat := if st = .cut then 0xFFFF else off

/-- The outer Ethernet header, and on attach links the attach header (R208). -/
def parseEth (c : ParseCfg) (f : List Byte) : Parsed :=
  let at_ := if c.attach then 28 else 12
  match reach f 0 (at_ + 2) with
  | .going =>
    let r := parseTags f 2 at_ 0
    { parsed0 with stop := r.1, etype := r.2.1, pos := r.2.2.1, vlans := r.2.2.2 }
  | st => { parsed0 with stop := st }

/-- The outer layer 3 (R208, R210). -/
def parseOuterL3 (f : List Byte) (p : Parsed) : Parsed :=
  if p.stop ≠ .going then p
  else
    let code := l3Code p.etype
    if code = 0 then { p with stop := .ended }
    else if code ≤ 2 then
      let r := parseIp f (code == 2) p.pos
      match r.2.1 with
      | none => { p with stop := r.1, ol3 := code, l3 := shown r.1 p.pos, l3bad := r.2.2 }
      | some ip => { p with stop := r.1, ol3 := code, l3 := p.pos, l3bad := r.2.2, frag := ip.frag, oip := some ip
                            ol4 := if r.1 = ParseStop.going then (if ip.other then 5 else l4Code ip.proto) else 5
                            l4 := if r.1 = ParseStop.going then 0xFFFF else shown r.1 ip.l4
                            pos := ip.l4 }
    else
      let st := if p.etype = 0x0806 then reachLen f p.pos 8 (p.pos + 6) 8 (arpPtpLen f p.etype p.pos) else reach f p.pos 34
      { p with stop := if st = ParseStop.going then .ended else st, ol3 := code, l3 := shown st p.pos
               pos := if st = ParseStop.going then p.pos + arpPtpLen f p.etype p.pos else p.pos }

/-- The outer layer 4 and the application (R208, R210). -/
def parseOuterL4 (c : ParseCfg) (f : List Byte) (p : Parsed) : Parsed :=
  match p.stop, p.oip with
  | .going, some ip =>
    if ip.later then { p with stop := .ended }
    else if ip.other then { p with stop := .ended, ol4 := 5, l4 := if f.length ≤ ip.l4 then 0xFFFF else ip.l4 }
    else if l4Code ip.proto = 5 then { p with stop := .ended }
    else
      let r := parseL4 f ip.proto ip.l4
      if r.1 ≠ ParseStop.going then { p with stop := r.1, l4 := shown r.1 ip.l4 }
      else
        let k := l4Check f ip
        { p with l4 := ip.l4, pos := ip.l4 + r.2, l4chk := k.1, l4bad := k.2
                 app := appOf c ip.proto (rdN f ip.l4 2) (rdN f (ip.l4 + 2) 2) }
  | _, _ => p

/-- The tunnel header, and whether an inner Ethernet header follows (R208). -/
def parseTunnel (f : List Byte) (p : Parsed) : Parsed :=
  if p.stop ≠ .going then p
  else if p.app ≠ 1 ∧ p.app ≠ 2 then { p with stop := .ended }
  else
    let at_ := p.pos
    let st := if p.app = 2 then reachLen f at_ 8 (at_ + 1) 8 (8 + rdN f at_ 1 % 64 * 4) else reach f at_ 8
    if st ≠ ParseStop.going then
      { p with stop := st, tun := shown st at_, vni := if reach f at_ 8 = .going then rdN f (at_ + 4) 3 else 0 }
    else
      let n := if p.app = 2 then 8 + rdN f at_ 1 % 64 * 4 else 8
      { p with tun := at_, vni := rdN f (at_ + 4) 3, pos := at_ + n
               stop := if p.app = 2 ∧ rdN f (at_ + 2) 2 ≠ 0x6558 then .ended else .going }

/-- The inner Ethernet header, layer 3 and layer 4 (R208). -/
def parseInner (f : List Byte) (p : Parsed) : Parsed :=
  if p.stop ≠ .going then p
  else match reach f p.pos 14 with
    | .going =>
      let t := rdN f (p.pos + 12) 2
      let p : Parsed := { p with il2 := p.pos, itype := t, pos := p.pos + 14 }
      let code := l3Code t
      if code ≠ 1 ∧ code ≠ 2 then { p with stop := .ended }
      else
        let r := parseIp f (code == 2) p.pos
        match r.2.1 with
        | none => { p with stop := r.1, il3 := code, il3o := shown r.1 p.pos }
        | some ip =>
          let p : Parsed := { p with il3 := code, il3o := p.pos, iip := some ip, pos := ip.l4,
                                     il4 := if r.1 = ParseStop.going then (if ip.other then 5 else l4Code ip.proto) else 5 }
          if r.1 ≠ ParseStop.going then { p with stop := r.1, il4o := shown r.1 ip.l4 }
          else if ip.later then { p with stop := .ended }
          else if ip.other then { p with stop := .ended, il4 := 5, il4o := if f.length ≤ ip.l4 then 0xFFFF else ip.l4 }
          else if l4Code ip.proto = 5 then { p with stop := .ended }
          else
            let q := parseL4 f ip.proto ip.l4
            if q.1 ≠ ParseStop.going then { p with stop := q.1, il4o := shown q.1 ip.l4 }
            else { p with stop := .ended, il4o := ip.l4, pos := ip.l4 + q.2 }
    | st => { p with stop := st, il2 := shown st p.pos }

/-- The parse of a frame (R208). -/
def parseFrame (c : ParseCfg) (f : List Byte) : Parsed :=
  parseInner f (parseTunnel f (parseOuterL4 c f (parseOuterL3 f (parseEth c f))))

/-- PAY (R209). -/
def Parsed.pay (p : Parsed) (f : List Byte) : Nat :=
  if p.stop = .deep ∨ p.stop = .cut ∨ f.length ≤ p.pos then 0xFFFF else p.pos

/-- PTYPE with LEARN 0b00 (R210); `ts`: the timestamp is valid. -/
def Parsed.ptype (p : Parsed) (ts : Bool) : Nat :=
  p.ol3 * 2 ^ 28 + p.ol4 * 2 ^ 24 + p.app * 2 ^ 20 + p.il3 * 2 ^ 16 + p.il4 * 2 ^ 12 + p.vlans * 2 ^ 10 + b2n p.frag * 128
    + b2n (p.stop == .deep) * 64 + b2n p.l3bad * 32 + b2n p.l4bad * 16 + b2n p.l4chk * 8 + b2n ts

/-- The port bytes that the flow hash takes of an IP packet (R211): the SPI for ESP; zero for fragments, other protocols,
and ports beyond the window or in a cut header. -/
def hashPorts (f : List Byte) (ip : IpInfo) (cut : Bool) : List Byte :=
  if ip.frag || ip.other || cut || (ip.proto != 6 && ip.proto != 17 && ip.proto != 50)
      || decide (parseWindow < ip.l4 + 4) || decide (f.length < ip.l4 + 4) then [0, 0, 0, 0]
  else (f.drop ip.l4).take 4

/-- The bytes hashed of an IP packet (R211). -/
def hashIp (f : List Byte) (ip : IpInfo) (cut : Bool) : List Byte :=
  ip.src ++ ip.dst ++ beBytes 1 ip.hproto ++ hashPorts f ip cut

/-- The byte string of the flow hash (R211). -/
def Parsed.hashBytes (p : Parsed) (f : List Byte) : List Byte :=
  let tunnelled := p.app == 1 || p.app == 2
  match tunnelled, p.iip, p.oip with
  | true, some ip, _ => beBytes 3 p.vni ++ hashIp f ip (p.il4o == 0xFFFF)
  | true, none, oip =>
    if p.il2 ≠ 0xFFFF ∧ p.il2 + 14 ≤ parseWindow then
      beBytes 3 p.vni ++ (f.drop p.il2).take 12 ++ beBytes 2 p.itype
    else match oip with
      | some ip => hashIp f ip (p.l4 == 0xFFFF)
      | none => f.take 12 ++ beBytes 2 p.etype
  | false, _, some ip => hashIp f ip (p.l4 == 0xFFFF)
  | false, _, none => f.take 12 ++ beBytes 2 p.etype

/-- The flow hash (R211). -/
def Parsed.flowHash (p : Parsed) (c : ParseCfg) (f : List Byte) : Nat := crc32c c.seed (p.hashBytes f)

/-- What the header vector takes from elsewhere (R209). -/
structure VecInfo where
  kind     : Nat
  bank     : Nat
  input    : Nat
  seq      : Nat
  gen      : Nat
  instance_ : Nat
  ts       : Option (Nat × Nat)
  head     : Nat
deriving DecidableEq, Repr

/-- The 256-byte header vector (R209). -/
def headerVector (c : ParseCfg) (f : List Byte) (v : VecInfo) : List Byte :=
  let p := parseFrame c f
  let att := v.kind == 1
  let t := match v.ts with | some t => t | none => (0, 0)
  beBytes 4 (2 ^ 28 + v.kind * 2 ^ 26 + v.bank * 2 ^ 24 + v.input) ++ beBytes 2 v.seq ++ beBytes 2 f.length
    ++ beBytes 2 v.gen ++ beBytes 2 v.instance_ ++ beBytes 4 (p.flowHash c f) ++ beBytes 4 (p.ptype v.ts.isSome)
    ++ beBytes 4 p.vni ++ beBytes 4 t.1 ++ beBytes 4 t.2
    ++ (if att then (f.drop 14).take 2 ++ (f.drop 13).take 1 ++ [0] ++ (f.drop 16).take 4 else beBytes 8 0)
    ++ beBytes 4 0 ++ beBytes 4 v.head
    ++ beBytes 2 p.l3 ++ beBytes 2 p.l4 ++ beBytes 2 p.tun ++ beBytes 2 p.il2 ++ beBytes 2 p.il3o ++ beBytes 2 p.il4o
    ++ beBytes 2 (p.pay f) ++ beBytes 2 0 ++ fitBytes 192 (f.take 192)

end Sys2Proof.Machine
end

