-- ==== Sys2Proof/Machine/Intake.lean ====
section
/-! DEFINITION. Bank intake: a frame into cells, header vector, steering, intake queues and side buffer, credits, the learn
unit, and the hand-over to a thread (01, R29 to R35; 06, R212, R213, R226 to R228; 04, R151). -/
namespace Sys2Proof.Machine

/-- The parser's configuration of a Bank. -/
def State.parseCfg (s : State) (bank : Nat) (attach : Bool) : ParseCfg :=
  { seed := (s.rd .BNK_HASH_SEED bank).toNat, vxlan := s.fld F.BNK_PARSE_UDP.VXLAN bank
    geneve := s.fld F.BNK_PARSE_UDP.GENEVE bank, roce := s.fld F.BNK_PARSE_APP.ROCE bank
    nvme := s.fld F.BNK_PARSE_APP.NVME bank, attach := attach }

/-- The bytes of n cells into which a frame was written at an offset: the headroom is unspecified (R256), and what lies beyond
the frame's end reads as zero (R128). -/
def cellBytes (free n off : Nat) (l : List Byte) : List Byte :=
  fitBytes (n * 256) ((List.range off).map (fun i => Config.cellByte free i) ++ l)

/-- CFL_HEADROOM.BYTES (R256). -/
def State.headroom (s : State) : Nat := s.fld F.CFL_HEADROOM.BYTES 0

/-- Cells of a MAC's frame, taken one at a time (R257): the cells, or none after the failure that drops the frame. -/
def State.allocOneByOne (s : State) (n : Nat) : Option (List Nat) × State :=
  let floor := s.fld F.CFL_CELL_FLOOR.CELLS 0
  if n + floor ≤ s.cfl.books.free then s.allocCells n
  else
    let r := s.takeCells (s.cfl.books.free - floor)
    (none, (r.2.reclaimCells r.1 false).satInc F.CFL_ALLOC_FAIL.COUNT 0 1)

/-- A frame written from byte `head` of cells that have been allocated: its handle (R255, R256). -/
def State.writeFrame (s : State) (input : Input) (chain : List Nat) (head : Nat) (frame pre : List Byte) (cls : Nat)
    (desc : Option DescRef) : Word × State :=
  let bytes := cellBytes s.free chain.length (head - pre.length) (pre ++ frame)
  let f := { newFrame chain input 0 head frame.length bytes with cls := cls, desc := desc }
  let r := s.draw.newHandle f
  (r.1, r.2.cellWipe f 0 (chain.length * 256))

/-- The state with an intake queue replaced. -/
def State.setIntakeQueue (s : State) (bank board : Nat) (l : List Vector_) : State :=
  s.putIntake { s.intake with queue := Tbl.set (fun _ => []) s.intake.queue (bank * 8 + board) l }

/-- The side buffer of a Bank. -/
def State.sideBuf (s : State) (bank : Nat) : List (Nat × Vector_) := Tbl.get (fun _ => []) s.intake.side bank

/-- The state with a side buffer replaced; BNK_INTAKE_SIDE shows its length (R248). -/
def State.setSide (s : State) (bank : Nat) (l : List (Nat × Vector_)) : State :=
  State.setFld (s.putIntake { s.intake with side := Tbl.set (fun _ => []) s.intake.side bank l })
    F.BNK_INTAKE_SIDE.HELD bank l.length

/-- The side buffer is full: the ring units of the Bank take no descriptor, and what they have under way waits (R213). -/
def State.sideFull (s : State) (bank : Nat) : Bool := decide (64 ≤ (s.sideBuf bank).length)

/-- A vector of the input is in the side buffer: its ring or queue waits (R213). -/
def State.sideHolds (s : State) (bank : Nat) (i : Input) : Bool := (s.sideBuf bank).any (fun e => e.2.input == i)

/-- Replace n bytes of a list at an offset. -/
def patchBytes (l : List Byte) (off : Nat) (p : List Byte) : List Byte := l.take off ++ p ++ l.drop (off + p.length)

/-- The Bank stamps the number of a vector (R33): in the vector and in the frame record. -/
def State.stampVector (s : State) (v : Vector_) : Vector_ × State :=
  if v.stamped then (v, s)
  else
    let r := s.stampSeq v.input
    let s := match r.2.frame (handleFirst v.handle) with
      | some f => r.2.setFrame (handleFirst v.handle) (some { f with seq := r.1 })
      | none => r.2
    ({ v with stamped := true, bytes := patchBytes v.bytes 4 (beBytes 2 r.1) }, s)

/-- The intake queue of the vector's Board has room, and a number may be stamped (R212, R213, R264). -/
def State.intakeRoom (s : State) (bank board : Nat) (v : Vector_) : Bool :=
  decide ((s.intakeQueue bank board).length < 4096) && (v.stamped || s.mayStamp v.input)

/-- A vector enters the intake queue of a Board. -/
def State.pushIntake (s : State) (bank board : Nat) (v : Vector_) : State :=
  let r := s.stampVector v
  r.2.setIntakeQueue bank board (r.2.intakeQueue bank board ++ [r.1])

/-- An input whose vectors wait in the side buffer instead of being dropped (R213). -/
def usesSide : Input → Bool
  | .ring _ _ => true
  | .sq _ _ => true
  | _ => false

/-- A frame is dropped at intake before a number is stamped: its cells are freed and the drop is counted (R212). -/
def State.intakeDrop (s : State) (bank : Nat) (v : Vector_) : State :=
  (s.reclaimFrame (handleFirst v.handle)).satInc F.BNK_INTAKE_DROP.COUNT bank 1

/-- A vector reaches intake (R29, R212, R213): the state, and whether it was dropped.  A vector follows an older one of its input
that is still in the side buffer. -/
def State.intakeVector (s : State) (bank : Nat) (v : Vector_) : State × Bool :=
  let board := s.fld F.BNK_STEER_TBL.CUR_BOARD (steerIdx bank v.entry)
  if s.intakeRoom bank board v && !s.sideHolds bank v.input then (s.pushIntake bank board v, false)
  else if usesSide v.input then
    let r := if s.mayStamp v.input then s.stampVector v else (v, s)
    (r.2.setSide bank (r.2.sideBuf bank ++ [(board, r.1)]), false)
  else (s.intakeDrop bank v, true)

/-- A learn candidate (R226): KIND 0b00, APP VXLAN or Geneve, the inner Ethernet header within the parse window. -/
def learnCandidate (kind : Nat) (p : Parsed) : Bool :=
  kind == 0 && (p.app == 1 || p.app == 2) && p.il2 != 0xFFFF && decide (p.il2 + 14 ≤ parseWindow)

/-- The vector of a frame in cells (R208, R209). -/
def State.makeVector (s : State) (bank : Nat) (handle : Word) (input : Input) (frame : List Byte) (gen inst : Nat)
    (ts : Option (Nat × Nat)) : Vector_ :=
  let kind := inputKind input
  let c := s.parseCfg bank (kind == 1)
  let p := parseFrame c frame
  { bytes := headerVector c frame { kind := kind, bank := bank, input := inputNum input, seq := 0, gen := gen
                                    instance_ := inst, ts := ts, head := match s.handleFrame handle with | some f => f.head | none => s.headroom }
    handle := handle, input := input, gen := gen, entry := p.flowHash c frame % 4096
    learn := learnCandidate kind p && s.flag F.BNK_LEARN_CTL.EN bank, stamped := false }

/-- SIDE_BUFFER_RELEASE (R213): the oldest vector whose queue has room enters it; a stale one of a ring is dropped at entry
before a number is stamped (R453). -/
def execSideBufferRelease (bank : BitVec 2) (s : State) : Res :=
  let k := bank.toNat
  match (s.sideBuf k).find? (fun e => s.intakeRoom k e.1 e.2) with
  | none => done s
  | some e =>
    let s := s.setSide k ((s.sideBuf k).erase e)
    let stale := match e.2.input with | .ring n _ => e.2.gen != s.fld F.RNG_FN_FRZ.GEN n | _ => false
    done (if stale && !e.2.stamped then s.intakeDrop k e.2 else s.pushIntake k e.1 e.2)

/-- Credits a Bank holds for a Board (R30): 2,048 less the three other parts; none for a fenced Board. -/
def State.bankCredits (s : State) (bank board : Nat) : Nat :=
  if s.isFenced (boardChip board) then 0
  else
    let k := bank * 8 + board
    2048 - Tbl.get (fun _ => 0) s.intake.flight k - Tbl.get (fun _ => 0) s.intake.held k - Tbl.get (fun _ => 0) s.intake.returning k

/-- The vectors on the mesh to a Board. -/
def State.meshTo (s : State) (board : Nat) : List Vector_ := Tbl.get (fun _ => []) s.intake.mesh board

/-- The vectors that wait at a Board. -/
def State.atBoard (s : State) (board : Nat) : List Vector_ := Tbl.get (fun _ => []) s.intake.board board

/-- BANK of a header vector. -/
def Vector_.bank (v : Vector_) : Nat := bits (rdN v.bytes 0 4) 25 24

/-- VECTOR_STEER_SEND (R30, R31, R35): the oldest waiting vector goes to its Board for one credit.  DESIGN CHOICE (log entry 29):
INFLIGHT counts a vector from its send on, not while it waits in the Bank's intake queue. -/
def execVectorSteerSend (bank : BitVec 2) (board : BitVec 3) (s : State) : Res :=
  let k := bank.toNat * 8 + board.toNat
  match s.intakeQueue bank.toNat board.toNat with
  | [] => done s
  | v :: rest =>
    if s.bankCredits bank.toNat board.toNat = 0 || !s.reachable (bankChip bank.toNat) || !s.reachable (boardChip board.toNat) then done s
    else
      let s := s.setIntakeQueue bank.toNat board.toNat rest
      let s := s.modInc F.BNK_STEER_TBL.INFLIGHT (steerIdx bank.toNat v.entry) 1
      let s := match s.frame (handleFirst v.handle) with
        | some f => s.setFrame (handleFirst v.handle) (some { f with board := some board.toNat, slot := some (bank.toNat, v.entry) })
        | none => s
      done (s.putIntake { s.intake with
        flight := Tbl.set (fun _ => 0) s.intake.flight k (Tbl.get (fun _ => 0) s.intake.flight k + 1)
        mesh := Tbl.set (fun _ => []) s.intake.mesh board.toNat (s.meshTo board.toNat ++ [v]) })

/-- INTAKE_CREDIT_RETURN (R30). -/
def execIntakeCreditReturn (bank : BitVec 2) (board : BitVec 3) (s : State) : Res :=
  let k := bank.toNat * 8 + board.toNat
  done (s.putIntake { s.intake with
    returning := Tbl.set (fun _ => 0) s.intake.returning k (Tbl.get (fun _ => 0) s.intake.returning k - 1) })

/-- One vector arrives: it leaves the mesh for a slot of the Board (R30). -/
def State.slotTaken (board : Nat) (s : State) (v : Vector_) : State :=
  let k := v.bank * 8 + board
  (s.putIntake { s.intake with
      flight := Tbl.set (fun _ => 0) s.intake.flight k (Tbl.get (fun _ => 0) s.intake.flight k - 1)
      held := Tbl.set (fun _ => 0) s.intake.held k (Tbl.get (fun _ => 0) s.intake.held k + 1) })

/-- The vectors on the mesh to a Board have arrived there, but for those that a failed mesh link of their Bank or of the Board stops
(R22). -/
def State.arrive (s : State) (board : Nat) : State :=
  let r := (s.meshTo board).partition (fun v => s.reachable (boardChip board) && s.reachable (bankChip v.bank))
  let s := r.1.foldl (State.slotTaken board) s
  (s.putIntake { s.intake with
      board := Tbl.set (fun _ => []) s.intake.board board (s.atBoard board ++ r.1)
      mesh := Tbl.set (fun _ => []) s.intake.mesh board r.2 })

/-- The state with the vectors at a Board replaced. -/
def State.setAtBoard (s : State) (board : Nat) (l : List Vector_) : State :=
  s.putIntake { s.intake with board := Tbl.set (fun _ => []) s.intake.board board l }

/-- The value a learn stores (R226): the outer source address, an IPv4 one in bytes 12 to 15. -/
def learnValue (p : Parsed) : List Byte :=
  match p.oip with
  | some ip => if ip.v6 then ip.src else List.replicate 12 0 ++ ip.src
  | none => List.replicate 16 0

/-- A vector after its learn: LEARN in PTYPE, and the state (R226 to R228). -/
def State.learnVector (s : State) (board : Nat) (v : Vector_) : Vector_ × State :=
  let t := s.fld F.BNK_LEARN_CTL.TABLE v.bank
  let frame := (v.bytes.drop 0x40).take (min 192 (rdN v.bytes 6 2))
  let p := parseFrame (s.parseCfg v.bank false) frame
  let i := tdefIdx board t
  if s.tdefValid board t && s.flag F.BRD_DICE_TDEF_W0.LEARN i && s.klen board t == 9 && s.vlen board t == 16 then
    let key := beBytes 3 (rdN v.bytes 0x14 4) ++ (frame.drop (rdN v.bytes 0x36 2 + 6)).take 6
    let r := s.learn board t key (learnValue p)
    ({ v with learn := false, bytes := patchBytes v.bytes 0x10 (beBytes 4 (rdN v.bytes 0x10 4 + r.1 * 2)) }, r.2)
  else ({ v with learn := false }, s)

/-- LEARN (R227, R228): the oldest vector at the Board that awaits its learn. -/
def execLearn (board : BitVec 3) (s : State) : Res :=
  let b := board.toNat
  let s := s.arrive b
  match (s.atBoard b).findIdx? (fun v => v.learn) with
  | none => done s
  | some i =>
    match (s.atBoard b)[i]? with
    | none => done s
    | some v =>
      let r := s.learnVector b v
      done (r.2.setAtBoard b ((r.2.atBoard b).set i r.1))

/-- A thread waits in RECV. -/
def Thread.inRecv (t : Thread) : Bool := match t.run with | .stalled (.recv _ _) => true | _ => false

/-- Threads of an engine that wait in RECV, in order. -/
def State.recvThreads (s : State) (e : Nat) : List Nat := ((List.range 8).map (fun t => e * 8 + t)).filter (fun th => (s.thread th).inRecv)

/-- The engine of a cluster with the most threads in RECV, the lowest on a tie (R151). -/
def State.recvEngine (s : State) (cl : Nat) : Option Nat :=
  bestBoard (fun x y => decide ((s.recvThreads y).length < (s.recvThreads x).length))
    (((List.range 64).map (fun e => cl * 64 + e)).filter (fun e => !(s.recvThreads e).isEmpty))

/-- The thread that takes a Board's next vector: clusters in rotating order (R151), none that a patch reload pauses (R196). -/
def State.recvThread (s : State) (board : Nat) : Option Nat :=
  let start := Tbl.get (fun _ => 7) s.eng.recvTurn board + 1
  match pickFrom (fun c => s.fld F.MCODE_STATUS.STATE (board * 8 + c) == 0 && (s.recvEngine (board * 8 + c)).isSome) start 8 with
  | none => none
  | some c => (s.recvEngine (board * 8 + c)).bind (fun e => (s.recvThreads e).head?)

/-- A thread takes a vector (R137): local memory, INST, the handle. -/
def State.takeVector (s : State) (th : Nat) (v : Vector_) : State :=
  let t := s.thread th
  match t.run with
  | .stalled (.recv rd addr) =>
    let s := s.localWrite (thEngine th) addr v.bytes
    let t := { (t.setGr rd v.handle).advance with inst := bytesWord ((v.bytes.drop 8).take 4), handles := t.handles ++ [v.handle] }
    let s := match s.frame (handleFirst v.handle) with
      | some f => s.setFrame (handleFirst v.handle) (some { f with owner := some th })
      | none => s
    (s.setThread th t).makeReady th
  | _ => s

/-- VECTOR_DISPATCH (R151): the oldest vector at the Board goes to a waiting thread, once its learn is done (R227). -/
def execVectorDispatch (board : BitVec 3) (s : State) : Res :=
  let b := board.toNat
  let s := s.arrive b
  match s.atBoard b with
  | [] => done s
  | v :: rest =>
    if v.learn then done s
    else match s.recvThread b with
      | none => done s
      | some th =>
        let s := (s.setAtBoard b rest).takeVector th v
        done (s.putEng { s.eng with recvTurn := Tbl.set (fun _ => 7) s.eng.recvTurn b (thCluster th % 8) })

end Sys2Proof.Machine
end

