-- ==== Sys2Proof/Machine/Output.lean ====
section
/-! DEFINITION. What the output that reads a copy sends (R277, R311): prepended header bytes, congestion marks, and the
checksums over them. -/
namespace Sys2Proof.Machine

/-- Two bytes at an offset replaced, where the list has them. -/
def put16 (l : List Byte) (off v : Nat) : List Byte :=
  if off + 2 ≤ l.length then patchBytes l off (beBytes 2 v) else l

/-- A checksum after a 16-bit word went from `m` to `m'` (RFC 1624). -/
def sumUpdate (hc m m' : Nat) : Nat := 0xFFFF - fold16 ((0xFFFF - hc) + (0xFFFF - m) + m')

/-- The IPv4 header at an offset with its checksum recomputed. -/
def ipv4Sum (l : List Byte) (off : Nat) : List Byte :=
  let z := put16 l (off + 10) 0
  put16 z (off + 10) (0xFFFF - fold16 (onesSum ((z.drop off).take (rdN l off 1 % 16 * 4))))

/-! ## Prepends (R277) -/

/-- The control word of prepend entry p. -/
def State.prepWord (s : State) (p : Nat) : Word := s.rd .CFL_PREP ((p - 1) * 32 + 16)

/-- The 64 header bytes of prepend entry p. -/
def State.prepBytes (s : State) (p : Nat) : List Byte :=
  (List.range 16).flatMap (fun i => beBytes 4 (s.rd .CFL_PREP ((p - 1) * 32 + i)).toNat)

/-- The header bytes that a copy of n bytes takes under a control word (R277). -/
def prepHeader (l : List Byte) (w : Word) (n : Nat) : List Byte :=
  let m := n + fieldOf w 6 0
  let v4 := fieldOf w 13 8
  let l := if bit w.toNat 7 then ipv4Sum (put16 l (v4 + 2) (m - v4)) v4 else l
  let v6 := fieldOf w 20 15
  let l := if bit w.toNat 14 then put16 l (v6 + 4) (m - v6 - 40) else l
  let udp := fieldOf w 27 22
  let l := if bit w.toNat 21 then put16 (put16 l (udp + 4) (m - udp)) (udp + 6) 0 else l
  l.take (fieldOf w 6 0)

/-- The bytes of a copy as they stand in the cells. -/
def copyBytes (f : FrameRec) (e : QEntry) : List Byte := (f.bytes.drop e.head).take e.len

/-- The bytes of a copy with its prepend (R277). -/
def State.prepended (s : State) (f : FrameRec) (e : QEntry) : List Byte :=
  if e.prep = 0 then copyBytes f e
  else prepHeader (s.prepBytes e.prep) (s.prepWord e.prep) e.len ++ copyBytes f e

/-! ## Congestion marks (R311) -/

/-- The offset and EtherType of what follows the MAC addresses, the attach header and up to two 802.1Q tags. -/
def outerAt (l : List Byte) (attach : Bool) : Nat × Nat :=
  let r := parseTags l 2 (if attach then 28 else 12) 0
  (r.2.2.1, r.2.1)

/-- A frame marked CE, if it can be (R311): the outermost IP header within the first 64 bytes, and ECT(0) or ECT(1). -/
def ecnMarked (l : List Byte) (attach : Bool) : Option (List Byte) :=
  let o := (outerAt l attach).1
  let t := (outerAt l attach).2
  if t = 0x0800 ∧ o + 20 ≤ 64 ∧ o + 20 ≤ l.length then
    let w := rdN l o 2
    if w % 4 = 1 ∨ w % 4 = 2 then
      let w' := w / 4 * 4 + 3
      some (put16 (put16 l o w') (o + 10) (sumUpdate (rdN l (o + 10) 2) w w'))
    else none
  else if t = 0x86DD ∧ o + 40 ≤ 64 ∧ o + 40 ≤ l.length then
    let w := rdN l o 2
    if w / 16 % 4 = 1 ∨ w / 16 % 4 = 2 then some (put16 l o (w / 64 * 64 + 48 + w % 16)) else none
  else none

/-- The bytes an output sends for a released frame, and the state after a mark is counted (R277, R311, R312). -/
def State.outputBytes (s : State) (f : FrameRec) (o : OutItem) (attach : Bool) : List Byte × State :=
  let l := s.prepended f o.e
  if o.ecn then
    match ecnMarked l attach with
    | some m =>
      (m, State.satInc (s.putCfl { s.cfl with ecnMark := true }) F.SCH_ECN_MARKS.COUNT 0 1)
    | none => (l, s)
  else (l, s)

/-- An output reads the cells of a copy: the first byte sent that an uncorrectable error spoils, counted after the prepend, if one
does (R258, R277). -/
def State.badAt (s : State) (f : FrameRec) (e : QEntry) : Option Nat × State :=
  let l := s.cellEcc f e.head e.len
  let pre := if e.prep = 0 then 0 else fieldOf (s.prepWord e.prep) 6 0
  let bad := (l.filter (fun x => x.2.2 % 2 == 0)).map (fun x => pre + (x.1 - e.head))
  (if bad.isEmpty then none else some (bad.foldl min (bad.headD 0)), l.foldl (fun s x => s.eccFound false x.2) s)

end Sys2Proof.Machine
end

