-- ==== Sys2Proof/Machine/Links.lean ====
section
/-! DEFINITION. Network ports and attach links (14): configuration and link state, receive and transmit, pause and PFC,
statistics, transmit stamps, the attach header and its credits.  A MAC's key k is `macKey`: network port k below 256,
attach link k − 256 from there. -/
namespace Sys2Proof.Machine

/-! ## One view of both kinds of MAC -/

/-- The register field of a MAC: of a network port, or of an attach link. -/
def macF (k : Nat) (net att : Fld) : Fld := if k < 256 then net else att

/-- The register index of a MAC. -/
def macI (k : Nat) : Nat := if k < 256 then k else k - 256

/-- The MAC is that of an attach link. -/
def isAttach (k : Nat) : Bool := decide (256 ≤ k)

/-- The Bank of a MAC (R17). -/
def macBank (k : Nat) : Nat := if k < 256 then k / 64 else (k - 256) / 8

/-- The input that a MAC is (R33). -/
def macInput : MacPort → Input
  | .net p => .port p
  | .attach a => .attach a

/-- The MAC of a key. -/
def keyMac (k : Nat) : MacPort := if k < 256 then .net (BitVec.ofNat 8 k) else .attach (BitVec.ofNat 5 (k - 256))

/-- Statistics counter i of a MAC rises by n (R475). -/
def State.stat (s : State) (k i n : Nat) : State :=
  let x := macI k * 17 + i
  if k < 256 then s.wr64 .MAC_STAT .MAC_STAT_HI x ((s.rd64 .MAC_STAT .MAC_STAT_HI x + n) % 2 ^ 64)
  else s.wr64 .ATL_STATS .ATL_STATS_HI x ((s.rd64 .ATL_STATS .ATL_STATS_HI x + n) % 2 ^ 64)

/-- EN of a link's configuration (R469). -/
def State.macEn (s : State) (k : Nat) : Bool := s.flag (macF k F.MAC_PORT_CFG.EN F.ATL_CFG.EN) (macI k)

/-- LINK_UP of a MAC changes: LINK_CHG is set (R498, R499). -/
def State.setLinkUp (s : State) (k : Nat) (up : Bool) : State :=
  (s.setFld (macF k F.MAC_PORT_STAT.LINK_UP F.ATL_STAT.LINK_UP) (macI k) (b2n up)).setFld
    (macF k F.MAC_PORT_STAT.LINK_CHG F.ATL_STAT.LINK_CHG) (macI k) 1

/-! ## Slack water state that a link-down ends (R481) -/

/-- The state with the Slack water state of a link replaced. -/
def State.setSlack (s : State) (k : Nat) (x : SlackSt) : State :=
  s.putLink { s.link with slack := Tbl.set (fun _ => slackReset) s.link.slack k x }

/-- MODE of a link's Slack water (R498). -/
def State.setSlackMode (s : State) (k m : Nat) : State :=
  s.setFld (macF k F.MAC_SLACK_STAT.MODE F.ATL_SLACK_STAT.MODE) (macI k) m

/-- RUN of a link's Slack water (R484). -/
def State.setSlackRun (s : State) (k n : Nat) : State :=
  s.setFld (macF k F.MAC_SLACK_STAT.RUN F.ATL_SLACK_STAT.RUN) (macI k) n

/-- SKIP as shown: the agreed value (R486). -/
def State.setSlackSkip (s : State) (k n : Nat) : State :=
  s.setFld (macF k F.MAC_SLACK_STAT.SKIP F.ATL_SLACK_STAT.SKIP) (macI k) n

/-- The agreement of a link ends (R481): a window that has begun goes on to its end. -/
def State.slackEnd (s : State) (k : Nat) : State :=
  (((s.setSlack k { s.slackSt k with offer := none, agreed := none }).setSlackMode k 0).setSlackRun k 0).setSlackSkip k 0

/-! ## Link state (R468, R469, R471, R493) -/

/-- A discovery walk saw a change (R497). -/
def State.walkChange (s : State) : State :=
  match s.link.walk with
  | some w => s.putLink { s.link with walk := some { w with changed := true } }
  | none => s

/-- One frame that waits for transmission is dropped at a link-down (R471). -/
def State.dropWaiting (k : Nat) (s : State) (o : OutItem) : State := (s.dropRef o.e.first).stat k 16 1

/-- A link that is up goes down (R471, R481, R494, R497). -/
def State.linkDown (s : State) (k : Nat) : State :=
  if s.macUp k = false then s
  else
    let l := s.outQueue k
    let s := (l.foldl (State.dropWaiting k) s).setOutQueue k []
    let s := (s.setLinkUp k false).slackEnd k
    let s := s.setSlack k { s.slackSt k with win := none, place := none }
    let s := s.putLink { s.link with lpi := Tbl.set (fun _ => false) s.link.lpi k false }
    if isAttach k then
      (((s.setCred (k - 256) { s.credBook (k - 256) with last := none }).showTxAvail (k - 256)).setFld F.ATL_REQ.LINES
        (k - 256) 0).walkChange
    else s

/-- A network port is covered: its lanes lie inside an enabled lower-numbered port (R468). -/
def State.covered (s : State) (p : Nat) : Bool :=
  (List.range (p % 8)).any (fun i =>
    let q := p / 8 * 8 + i
    s.flag F.MAC_PORT_CFG.EN q && decide (p < q + s.portLanes q))

/-- COVERED of a port; a covered port ignores its EN bit (R468). -/
def State.showCovered (s : State) (p : Nat) : State :=
  let c := s.covered p
  let s := s.setFld F.MAC_PORT_STAT.COVERED p (b2n c)
  if c then s.linkDown p else s

/-- COVERED of the eight ports that share a port's lanes. -/
def State.showCoveredAll (s : State) (p : Nat) : State :=
  ((List.range 8).map (fun i => p / 8 * 8 + i)).foldl State.showCovered s

/-- A write of MAC_PORT_CFG (R468, R469): while EN is 1 only a write that clears it acts; a MAXLEN outside its range and a
WIDTH that the port number does not allow have no effect. -/
def State.portCfgWrite (s : State) (p : Nat) (v : Word) : State :=
  if s.flag F.MAC_PORT_CFG.EN p then
    if fieldOf v 0 0 = 0 then ((s.linkDown p).setFld F.MAC_PORT_CFG.EN p 0).showCoveredAll p else s
  else if p % 2 ^ fieldOf v 2 1 ≠ 0 then s
  else
    let s := if 64 ≤ fieldOf v 17 4 ∧ fieldOf v 17 4 ≤ 16128 then s.setFld F.MAC_PORT_CFG.MAXLEN p (fieldOf v 17 4) else s
    let s := ((s.setFld F.MAC_PORT_CFG.EN p (fieldOf v 0 0)).setFld F.MAC_PORT_CFG.WIDTH p (fieldOf v 2 1)).setFld
      F.MAC_PORT_CFG.AN p (fieldOf v 3 3)
    (s.setFld F.MAC_PORT_STAT.LPI_CAP p (b2n (Config.lpiCap (fieldOf v 2 1)))).showCoveredAll p

/-- A write of ATL_CFG (R469, R493, R499). -/
def State.atlCfgWrite (s : State) (a : Nat) (v : Word) : State :=
  if s.flag F.ATL_CFG.EN a then
    if fieldOf v 0 0 = 0 then (s.linkDown (256 + a)).setFld F.ATL_CFG.EN a 0 else s
  else
    let s := if 1 ≤ fieldOf v 13 1 ∧ fieldOf v 13 1 ≤ 4096 then s.setFld F.ATL_CFG.RXCRED a (fieldOf v 13 1) else s
    let s := if fieldOf v 23 16 = 0 then s else s.setFld F.ATL_CFG.CRET a (fieldOf v 23 16)
    s.setFld F.ATL_CFG.EN a (fieldOf v 0 0)

/-- A write of a link's configuration. -/
def State.linkCfgWrite (s : State) (p : MacPort) (v : Word) : State :=
  match p with
  | .net p => s.portCfgWrite p.toNat v
  | .attach a => s.atlCfgWrite a.toNat v

/-- PORT_CFG_WRITE (R468, R469). -/
def execPortCfgWrite (p : MacPort) (v : BitVec 32) (s : State) : Res :=
  done (s.atChip (bankChip (macBank (macKey p))) (fun s => (s.linkCfgWrite p v).settle))

/-- New credit counts at an attach link-up (R493): RXCRED less the data frames of the earlier period still held. -/
def State.freshCredits (s : State) (a : Nat) : State :=
  let held := s.fld F.ATL_CRED.RXHELD a - (s.credBook a).due
  let c : CredBook := { ret := s.fld F.ATL_CFG.RXCRED a - held, due := 0, last := none, sent := 0 }
  ((s.setCred a c).setFld F.ATL_CRED.RXHELD a held).showTxAvail a

/-- A link may train: its Bank answers, and it did not fail the start-up tests (R494, R558). -/
def State.mayTrain (s : State) (k : Nat) : Bool :=
  s.reachable (bankChip (macBank k))
    && !(if isAttach k then s.plat.linkBad.getLsbD (k - 256) else s.plat.portBad.getLsbD k)

/-- A link comes up (R469, R493, R497): enabled, and for a network port not covered. -/
def State.linkUp (s : State) (k : Nat) : State :=
  if s.macUp k || !s.macEn k || !s.mayTrain k || (!isAttach k && s.covered k) then s
  else
    let s := s.setLinkUp k true
    if isAttach k then (s.freshCredits (k - 256)).walkChange else s

/-- LINK_UP (R469). -/
def execLinkUp (p : MacPort) (s : State) : Res := done (s.linkUp (macKey p)).settle

/-- LINK_DOWN (R471). -/
def execLinkDown (p : MacPort) (s : State) : Res := done (s.linkDown (macKey p)).settle

/-! ## Pause and PFC (R472 to R474) -/

/-- MAC_FC_CTL.MODE. -/
def State.fcMode (s : State) (p : Nat) : Nat := s.fld F.MAC_FC_CTL.MODE p

/-- Classes to hold or release, from lists of quanta: for PAUSE one value for all eight (R472). -/
def heldAfter (pfc : Bool) (enabled old : Nat) (quanta : List (BitVec 16)) : Nat :=
  (List.range 8).foldl (fun h c =>
    let q := (if pfc then quanta.getD c 0 else quanta.getD 0 0)
    if pfc && !bit enabled c then h + 2 ^ c * b2n (bit old c)
    else if q = 0 then h else h + 2 ^ c) 0

/-- A received PAUSE or PFC frame acts if MODE selects its kind; otherwise it is dropped and counted (R472, R475). -/
def State.pauseReceive (s : State) (p : Nat) (pfc : Bool) (classes : Nat) (quanta : List (BitVec 16)) : State :=
  if s.macUp p = false then s
  else
    let s := s.stat p 9 1
    if s.fcMode p = (if pfc then 2 else 1) then
      s.setFld F.MAC_FC_HELD.HELD p
        (heldAfter pfc (classes &&& s.fld F.MAC_FC_CTL.PFC_EN p) (s.fld F.MAC_FC_HELD.HELD p) quanta)
    else s.stat p 10 1

/-- PAUSE_FRAME_RECEIVE (R472). -/
def execPauseFrameReceive (port : BitVec 8) (pfc : Bool) (classes : BitVec 8) (quanta : List (BitVec 16)) (s : State) : Res :=
  done (s.pauseReceive port.toNat pfc classes.toNat quanta).settle

/-- PAUSE_TIMER_EXPIRE (R472). -/
def execPauseTimerExpire (port : BitVec 8) (cls : BitVec 3) (s : State) : Res :=
  let h := s.fld F.MAC_FC_HELD.HELD port.toNat
  done (s.setFld F.MAC_FC_HELD.HELD port.toNat (h - 2 ^ cls.toNat * b2n (bit h cls.toNat))).settle

/-- Cells of a class received on a port and not yet committed or dropped (R473). -/
def State.ingressCells (s : State) (p : Nat) (cls : Option Nat) : Nat :=
  (s.cfl.frames.filterMap (fun e => e.2)).foldl (fun n f =>
    if f.input == .port (BitVec.ofNat 8 p) && !f.committed && (match cls with | some c => f.cls == c | none => true)
    then n + f.cells else n) 0

/-- The classes for which XOFF was sent last. -/
def State.xoffOf (s : State) (p : Nat) : BitVec 8 := Tbl.get (fun _ => 0) s.link.xoff p

/-- The state with those classes replaced. -/
def State.setXoff (s : State) (p : Nat) (m : BitVec 8) : State :=
  s.putLink { s.link with xoff := Tbl.set (fun _ => 0) s.link.xoff p m }

/-- The mask of classes that a pause frame for `cls` names, and the ingress cells it goes by (R473): in PAUSE mode all. -/
def State.fcScope (s : State) (p cls : Nat) : BitVec 8 × Nat :=
  if s.fcMode p = 1 then (0xFF, s.ingressCells p none) else (1 <<< cls, s.ingressCells p (some cls))

/-- The port sends pause or PFC frames for the class (R472, R473). -/
def State.fcActs (s : State) (p cls : Nat) : Bool :=
  s.macUp p && (s.fcMode p == 1 || (s.fcMode p == 2 && bit (s.fld F.MAC_FC_CTL.PFC_EN p) cls))

/-- A pause or PFC frame is sent. -/
def State.pauseSend (s : State) (p : Nat) (m : BitVec 8) (quanta : Nat) : State := (s.emit (.pause p m.toNat quanta)).stat p 8 1

/-- PFC_XOFF_SEND (R473). -/
def execPfcXoffSend (port : BitVec 8) (cls : BitVec 3) (s : State) : Res :=
  let p := port.toNat
  let r := s.fcScope p cls.toNat
  if s.fcActs p cls.toNat && decide (s.fld F.MAC_FC_THR.XOFF p < r.2) && (s.xoffOf p &&& r.1) == 0 then
    done ((s.pauseSend p r.1 (s.fld F.MAC_FC_CTL.QUANTA p)).setXoff p (s.xoffOf p ||| r.1))
  else done s

/-- PFC_REFRESH_SEND (R473). -/
def execPfcRefreshSend (port : BitVec 8) (cls : BitVec 3) (s : State) : Res :=
  let p := port.toNat
  let r := s.fcScope p cls.toNat
  if s.fcActs p cls.toNat && decide (s.fld F.MAC_FC_THR.XON p < r.2) && (s.xoffOf p &&& r.1) != 0 then
    done (s.pauseSend p r.1 (s.fld F.MAC_FC_CTL.QUANTA p))
  else done s

/-- PFC_XON_SEND (R473). -/
def execPfcXonSend (port : BitVec 8) (cls : BitVec 3) (s : State) : Res :=
  let p := port.toNat
  let r := s.fcScope p cls.toNat
  if s.fcActs p cls.toNat && decide (r.2 ≤ s.fld F.MAC_FC_THR.XON p) && (s.xoffOf p &&& r.1) != 0 then
    done ((s.pauseSend p r.1 0).setXoff p (s.xoffOf p &&& ~~~r.1))
  else done s

/-! ## The attach header (R487 to R493) -/

/-- A data frame arrived and consumed a credit (R490, R491): none is left when RXHELD equals RXCRED. -/
def State.takeRxCredit (s : State) (a : Nat) : Bool × State :=
  if s.fld F.ATL_CRED.RXHELD a < s.fld F.ATL_CFG.RXCRED a then
    (true, s.setFld F.ATL_CRED.RXHELD a (s.fld F.ATL_CRED.RXHELD a + 1))
  else (false, (s.satInc F.ATL_CRED_VIOL.COUNT a 1).stat (256 + a) 15 1)

/-- A frame of 80 B or more, FCS included, that is dropped before a number is stamped: its credit is due (R489, R491). -/
def State.creditDropped (s : State) (a len : Nat) : State :=
  if len < 80 then s
  else
    let r := s.takeRxCredit a
    if r.1 then r.2.retireCredit (.attach (BitVec.ofNat 5 a)) else r.2

/-- VER and HCHK of an attach header are right (R487, R489). -/
def headerGood (f : List Byte) : Bool :=
  decide (28 ≤ f.length) && rdN f 12 1 / 16 == 1 && rdN f 24 2 == crc16 ((f.drop 12).take 12)

/-- CREDIT and REQ of a valid header are taken (R490, R493, R494). -/
def State.takeHeader (s : State) (a : Nat) (f : List Byte) : State :=
  ((s.setCred a { s.credBook a with last := some (rdN f 20 2) }).showTxAvail a).setFld F.ATL_REQ.LINES a (rdN f 22 1)

/-- A header that fails R489: dropped and counted. -/
def State.headerBad (s : State) (a len : Nat) : State :=
  ((s.satInc F.ATL_HDR_BAD.COUNT a 1).stat (256 + a) 14 1).creditDropped a len

/-- The header that the MAC writes into a frame: VER, FLAGS, CREDIT, REQ and HCHK (R487, R492). -/
def State.fillHeader (s : State) (a flags : Nat) (f : List Byte) : List Byte :=
  if f.length < 28 then f
  else
    let f := patchBytes f 12 (beBytes 1 (16 + flags))
    let f := patchBytes f 20 (beBytes 2 ((s.credBook a).ret + (s.credBook a).due))
    let f := patchBytes f 22 [0]
    patchBytes f 24 (beBytes 2 (crc16 ((f.drop 12).take 12)))

/-- A control frame goes out on an attach link (R488, R492): 60 bytes without FCS, both addresses zero. -/
def State.sendControl (s : State) (a flags : Nat) : State :=
  let f := s.fillHeader a (1 + flags) (List.replicate 60 0)
  ((s.emit (.frame (.attach (BitVec.ofNat 5 a)) f true)).stat (256 + a) 8 1).sendReturn a

/-- An open window keeps a link's transmitter silent (R482, R484). -/
def State.slackHolds (s : State) (k : Nat) : Bool :=
  match (s.slackSt k).win with
  | some w => w.holds (s.slackMode k)
  | none => false

/-- ATTACH_CONTROL_FRAME_SEND (R492): a credit is due, no data frame is ready to carry it, no window holds it. -/
def execAttachControlFrameSend (link : BitVec 5) (s : State) : Res :=
  let a := link.toNat
  done (if s.macUp (256 + a) && decide (0 < (s.credBook a).due) && (s.outQueue (256 + a)).isEmpty && !s.slackHolds (256 + a)
    then s.sendControl a 0 else s)

/-! ## Discovery answers (R495, R497) -/

/-- The record that an answer's body makes (R495). -/
def answerRec (body : List Byte) : DiscRec :=
  { up := true, answered := true, fenced := false, slack := bit (rdN body 3 1) 0, roles := rdN body 2 1
    boardId := rdN body 0 2, ver := rdN body 4 4 }

/-- A probe's answer on an attach link (R495 to R497). -/
def State.probeAnswer (s : State) (a : Nat) (body : List Byte) : State :=
  let r := answerRec body
  let old := Tbl.get (fun _ => 0) s.link.known a
  let differs := old != 0 && old != r.boardId + 1
  let s := s.putLink { s.link with known := Tbl.set (fun _ => 0) s.link.known a (r.boardId + 1) }
  match s.link.walk with
  | none => s
  | some w =>
    if w.next = a ∧ w.probes ≠ 0 then
      s.putLink { s.link with walk := some { w with
          next := a + 1, probes := 0, recs := w.recs ++ [r], changed := w.changed || differs } }
    else s.walkChange

/-- A control frame is consumed (R488, R494, R495): CREDIT and REQ are taken; PROBE with ANSWER goes to the walk. -/
def State.controlTaken (s : State) (a : Nat) (f : List Byte) : State :=
  let s := (s.takeHeader a f).stat (256 + a) 9 1
  if bit (rdN f 12 1) 1 && bit (rdN f 12 1) 2 then s.probeAnswer a ((f.drop 28).take 32) else s

/-- A control frame arrives with a right FCS (R488, R489): `f` is the frame without it. -/
def State.controlReceive (s : State) (a : Nat) (f : List Byte) : State :=
  if s.macUp (256 + a) = false then s
  else if headerGood f = false then s.headerBad a (f.length + 4)
  else s.controlTaken a f

/-- ATTACH_CONTROL_FRAME_RECEIVE (R488). -/
def execAttachControlFrameReceive (link : BitVec 5) (frame : List (BitVec 8)) (s : State) : Res :=
  done (s.controlReceive link.toNat frame).settle

/-! ## The RoCEv2 ICRC (R375) -/

/-- A byte of a frame as all ones under a mask. -/
def onesAt (l : List Byte) (i m : Nat) : List Byte := patchBytes l i [(l.getD i 0) ||| BitVec.ofNat 8 m]

/-- The frame with the fields that an ICRC leaves out all ones: type of service or traffic class and flow label, time to live, the
checksums, and the base transport header's fifth byte. -/
def icrcView (l : List Byte) (l3 l4 : Nat) : List Byte :=
  let f := fun (l : List Byte) (x : Nat × Nat) => onesAt l x.1 x.2
  let ip := if rdN l l3 1 / 16 = 4 then [(l3 + 1, 0xFF), (l3 + 8, 0xFF), (l3 + 10, 0xFF), (l3 + 11, 0xFF)]
    else [(l3, 0x0F), (l3 + 1, 0xFF), (l3 + 2, 0xFF), (l3 + 3, 0xFF), (l3 + 7, 0xFF)]
  (ip ++ [(l4 + 6, 0xFF), (l4 + 7, 0xFF), (l4 + 12, 0xFF)]).foldl f l

/-- The ICRC of a RoCEv2 frame without FCS, in its order on the wire (R375; PRESUMED, InfiniBand Architecture Specification, log entry 46). -/
def icrcBytes (l : List Byte) (l3 l4 : Nat) : List Byte :=
  leBytes 4 (crc32 (List.replicate 8 0xFF ++ ((icrcView l l3 l4).take (l.length - 4)).drop l3))

/-- The offsets of the outer IP and UDP headers of a frame of a Bank's network port whose UDP destination port is BNK_PARSE_APP.ROCE,
with room for an ICRC. -/
def State.roceAt (s : State) (bank : Nat) (l : List Byte) : Option (Nat × Nat) :=
  let c := s.parseCfg bank false
  let p := parseFrame c l
  if p.ol4 = 2 ∧ p.l4 + 24 ≤ l.length ∧ rdN l (p.l4 + 2) 2 = c.roce then some (p.l3, p.l4) else none

/-- The ICRC of a received frame is right, if the frame is RoCEv2 (R208, R375). -/
def State.icrcOk (s : State) (bank : Nat) (l : List Byte) : Bool :=
  match s.roceAt bank l with
  | some (l3, l4) => (parseFrame (s.parseCfg bank false) l).app != 3 || l.drop (l.length - 4) == icrcBytes l l3 l4
  | none => true

/-- A frame with its ICRC written into the 4 bytes before the FCS, if it is to carry one (R375). -/
def State.icrcPut (s : State) (bank : Nat) (l : List Byte) : List Byte :=
  match s.roceAt bank l with
  | some (l3, l4) => l.take (l.length - 4) ++ icrcBytes l l3 l4
  | none => l

/-! ## Receive (R470, R473, R475, R476) -/

/-- A MAC's stamp of now (R476): seconds and nanoseconds, with a signed adjustment. -/
def State.macStamp (s : State) (k adj : Nat) : Nat × Nat :=
  let t := ((s.replica (bankChip (macBank k)) : Int) + signed 8 adj).toNat
  (t / 1000000000 % 2 ^ 32, t % 1000000000)

/-- RX_ADJ or TX_ADJ of a MAC. -/
def State.rxAdj (s : State) (k : Nat) : Nat := s.fld (macF k F.MAC_PTP_CTL.RX_ADJ F.ATL_PTP_CTL.RX_ADJ) (macI k)

/-- The class of a frame received on a network port (R473). -/
def State.rxClass (s : State) (p : Nat) (f : List Byte) : Nat :=
  if rdN f 12 2 = 0x8100 ∨ rdN f 12 2 = 0x88A8 then bits (s.fld F.MAC_PCP_MAP.MAP p) (3 * (rdN f 14 1 / 32) + 2) (3 * (rdN f 14 1 / 32))
  else s.fld F.MAC_FC_CTL.DEFCLASS p

/-- A frame that a MAC drops after the cells it arrived into have been taken (R37, R257): they go to reclaim.  A frame that finds no
cell counts as that. -/
def State.macDropped (s : State) (k len : Nat) (count : State → State) : State :=
  let r := s.allocOneByOne (cellsFor (s.headroom + len))
  match r.1 with
  | some l => count (r.2.reclaimCells l false)
  | none => r.2.stat k 11 1

/-- A good frame of a MAC goes into cells and to intake (R37, R212, R257): the state, and whether a number can come of it. -/
def State.macAccept (s : State) (p : MacPort) (cls : Nat) (f : List Byte) : State × Bool :=
  let k := macKey p
  let r := s.allocOneByOne (cellsFor (s.headroom + f.length))
  match r.1 with
  | none => (r.2.stat k 11 1, false)
  | some l =>
    let ts := s.macStamp k (s.rxAdj k)
    let w := ((r.2.stat k 2 1).stat k 3 f.length).writeFrame (macInput p) l s.headroom f [] cls none
    let w := (w.1, w.2.updFrame w.1 (fun r => { r with ts := some ts }))
    let v := w.2.makeVector (macBank k) w.1 (macInput p) f 0 0xFFFF (some ts)
    let q := w.2.intakeVector (macBank k) v
    if q.2 then (q.1.stat k 12 1, false) else (q.1, true)

/-- A MAC control frame on a network port (R472, R475): PAUSE, PFC, or an opcode that is not supported. -/
def State.macControl (s : State) (p : Nat) (f : List Byte) : State :=
  let op := rdN f 14 2
  if op = 0x0001 then s.pauseReceive p false 0xFF [BitVec.ofNat 16 (rdN f 16 2)]
  else if op = 0x0101 then
    s.pauseReceive p true (rdN f 17 1) ((List.range 8).map (fun c => BitVec.ofNat 16 (rdN f (18 + 2 * c) 2)))
  else (s.stat p 9 1).stat p 10 1

/-- A frame arrives on a network port (R470): `f` is the frame without its FCS. -/
def State.netReceive (s : State) (p : BitVec 8) (f : List Byte) (fcsOk : Bool) : State :=
  let k := p.toNat
  if fcsOk = false then s.macDropped k f.length (fun s => s.stat k 4 1)
  else if f.length < 60 then s.macDropped k f.length (fun s => s.stat k 6 1)
  else if s.fld F.MAC_PORT_CFG.MAXLEN k < f.length then s.macDropped k f.length (fun s => s.stat k 5 1)
  else if s.icrcOk (macBank k) f = false then s.macDropped k f.length (fun s => s.stat k 4 1)
  else if rdN f 12 2 = 0x8808 then ((s.stat k 2 1).stat k 3 f.length).macControl k f
  else (s.macAccept (.net p) (s.rxClass k f) f).1

/-- A frame arrives on an attach link (R470, R488, R489, R491). -/
def State.atlReceive (s : State) (a : BitVec 5) (f : List Byte) (fcsOk : Bool) : State :=
  let k := 256 + a.toNat
  let len := f.length + 4
  if fcsOk = false then (s.macDropped k f.length (fun s => s.stat k 4 1)).creditDropped a.toNat len
  else if len < 64 then s.macDropped k f.length (fun s => s.stat k 6 1)
  else if headerGood f = false then (s.macDropped k f.length id).headerBad a.toNat len
  else if bit (rdN f 12 1) 0 then ((s.stat k 2 1).stat k 3 f.length).controlTaken a.toNat f
  else
    let s := s.takeHeader a.toNat f
    if len < 80 then s.macDropped k f.length (fun s => s.stat k 6 1)
    else
      let r := s.takeRxCredit a.toNat
      if r.1 = false then r.2
      else
        let q := r.2.macAccept (.attach a) 0 f
        if q.2 then q.1 else q.1.retireCredit (.attach a)

/-- MAC_FRAME_RECEIVE (R37, R470, R475): the frame without its FCS, whether the FCS is right, and whether the PHY saw a symbol error in
it, which is counted and changes nothing else (DESIGN CHOICE, log entry 46).  Nothing arrives while the link is down. -/
def execMacFrameReceive (p : MacPort) (frame : List (BitVec 8)) (fcsOk symErr : Bool) (s : State) : Res :=
  if s.macUp (macKey p) = false then done s
  else
    let s := s.stat (macKey p) 7 (b2n symErr)
    match p with
    | .net q => done (s.netReceive q frame fcsOk).settle
    | .attach a => done (s.atlReceive a frame fcsOk).settle

/-! ## Transmit (R471, R477) -/

/-- Offsets of TXC (R477): the word at HEAD − 12 of a frame. -/
def txcWord (f : FrameRec) (e : QEntry) : Nat := if e.head < 12 then 0 else rdN f.bytes (e.head - 12) 4

/-- The ones' complement sum of ten stamp bytes as they lie in a UDP segment: `odd`, they begin at an odd offset. -/
def stampSum (odd : Bool) (l : List Byte) : Nat := onesSum (if odd then 0 :: l else l)

/-- ONESTEP (R477): the 10-byte originTimestamp at PTPOFF + 34, with the UDP checksum brought up to date. -/
def oneStep (l : List Byte) (txc sec ns : Nat) : List Byte :=
  let at_ := bits txc 15 8 + 34
  let udp := bits txc 23 16
  if l.length < at_ + 10 then l
  else
    let old := (l.drop at_).take 10
    let new := beBytes 6 sec ++ beBytes 4 ns
    let l := patchBytes l at_ new
    if udp = 0 ∨ rdN l (udp + 6) 2 = 0 then l
    else
      let odd := (at_ - udp) % 2 == 1
      let c := 0xFFFF - fold16 (0xFFFF - rdN l (udp + 6) 2 + (0xFFFF - fold16 (stampSum odd old)) + stampSum odd new)
      put16 l (udp + 6) (if c = 0 then 0xFFFF else c)

/-- Transmit stamps that wait in a MAC (R477). -/
def State.txts (s : State) (k : Nat) : List (Nat × Nat × Nat) := Tbl.get (fun _ => []) s.link.txts k

/-- The state with the stamps of a MAC replaced. -/
def State.setTxts (s : State) (k : Nat) (l : List (Nat × Nat × Nat)) : State :=
  s.putLink { s.link with txts := Tbl.set (fun _ => []) s.link.txts k l }

/-- A two-step stamp (R477): to the frame's transmit descriptor, or to the 64-entry queue, where a full one loses it. -/
def State.twoStep (s : State) (k : Nat) (f : FrameRec) (txc sec ns : Nat) : State :=
  if f.desc.isSome then s.descStamp f.desc ns sec
  else if 64 ≤ (s.txts k).length then s.satInc (macF k F.MAC_TXTS_LOST.COUNT F.ATL_TXTS_LOST.COUNT) (macI k) 1
  else s.setTxts k (s.txts k ++ [(bits txc 7 0, ns, sec)])

/-- The MAC acts on TXC (R477): the bytes sent, and the state. -/
def State.applyTxc (s : State) (k : Nat) (f : FrameRec) (e : QEntry) (l : List Byte) : List Byte × State :=
  if s.flag (macF k F.MAC_PTP_CTL.TXC_EN F.ATL_PTP_CTL.TXC_EN) (macI k) && decide (64 ≤ s.headroom) then
    let txc := txcWord f e
    let t := s.macStamp k (s.fld (macF k F.MAC_PTP_CTL.TX_ADJ F.ATL_PTP_CTL.TX_ADJ) (macI k))
    let l := if bit txc 30 then oneStep l txc t.1 t.2 else l
    (l, if bit txc 31 then s.twoStep k f txc t.1 t.2 else s)
  else (l, s)

/-- The item that a MAC starts next (R471): the oldest of the highest class that has a frame and is not held. -/
def State.nextTx (s : State) (k : Nat) : Option OutItem :=
  ((List.range 8).map (fun c => 7 - c)).findSome? (fun c =>
    if k < 256 && bit (s.fld F.MAC_FC_HELD.HELD k) c then none else (s.outQueue k).find? (fun o => o.cls == c))

/-- The attach header is filled, and the return it carries and the data frame are counted (R487, R490, R492). -/
def State.attachSend (s : State) (k : Nat) (l : List Byte) : List Byte × State :=
  if isAttach k then
    let a := k - 256
    (s.fillHeader a 0 l,
      ((s.sendReturn a).setCred a { (s.sendReturn a).credBook a with sent := (s.credBook a).sent + 1 }).showTxAvail a)
  else (l, s)

/-- The MAC sends a frame (R258, R375, R471, R475): one with an uncorrectable cell ends with a wrong FCS. -/
def State.macSend (s : State) (k : Nat) (o : OutItem) (f : FrameRec) : State :=
  let r := s.outputBytes f o (isAttach k)
  let t := r.2.applyTxc k f o.e r.1
  let a := t.2.attachSend k (if isAttach k then t.1 else t.2.icrcPut (macBank k) t.1)
  match a.2.badAt f o.e with
  | (some n, s) => (s.emit (.frame (keyMac k) (a.1.take n) false)).stat k 13 1
  | (none, s) => ((s.emit (.frame (keyMac k) a.1 true)).stat k 0 1).stat k 1 a.1.length

/-- One frame leaves a MAC (R471): its reference is returned (R275). -/
def State.macTransmit (s : State) (k : Nat) : State :=
  if s.macUp k = false || s.slackHolds k then s
  else match s.nextTx k with
    | none => s
    | some o =>
      let s := s.setOutQueue k ((s.outQueue k).erase o)
      let s := s.putLink { s.link with lpi := Tbl.set (fun _ => false) s.link.lpi k false }
      match s.frame o.e.first with
      | none => s
      | some f => (s.macSend k o f).dropRef o.e.first

/-- MAC_FRAME_TRANSMIT (R471). -/
def execMacFrameTransmit (p : MacPort) (s : State) : Res := done (s.macTransmit (macKey p)).settle

/-- A read of MAC_TXTS_ID (R498): the oldest stamp is captured. -/
def State.txtsRead (s : State) (k : Nat) : State :=
  match s.txts k with
  | [] =>
    (s.setFld (macF k F.MAC_TXTS_ID.VALID F.ATL_TXTS_ID.VALID) (macI k) 0).setFld
      (macF k F.MAC_TXTS_ID.TSID F.ATL_TXTS_ID.TSID) (macI k) 0
  | (id, ns, sec) :: rest =>
    let s := (s.setTxts k rest).setFld (macF k F.MAC_TXTS_ID.VALID F.ATL_TXTS_ID.VALID) (macI k) 1
    let s := s.setFld (macF k F.MAC_TXTS_ID.TSID F.ATL_TXTS_ID.TSID) (macI k) id
    (s.setFld (macF k F.MAC_TXTS_NS.NS F.ATL_TXTS_NS.NS) (macI k) ns).setFld
      (macF k F.MAC_TXTS_SEC.SEC F.ATL_TXTS_SEC.SEC) (macI k) sec

/-- TXTS_READ (R477, R498). -/
def execTxtsRead (p : MacPort) (s : State) : Res :=
  let k := macKey p
  done (s.readAt (bankChip (macBank k)) (fun s =>
    ((s.txtsRead k).rd (if k < 256 then .MAC_TXTS_ID else .ATL_TXTS_ID) (macI k), s.txtsRead k)))

/-- LPI_ENTER (R478): no frame to send for IDLE µs, on a port whose PHY type has low-power idle. -/
def execLpiEnter (port : BitVec 8) (s : State) : Res :=
  let p := port.toNat
  done (if s.macUp p && s.flag F.MAC_PORT_STAT.LPI_CAP p && s.flag F.MAC_EEE_CTL.EN p && (s.outQueue p).isEmpty then
    s.putLink { s.link with lpi := Tbl.set (fun _ => false) s.link.lpi p true } else s)

/-- A write of MAC_EEE_CTL: IDLE is 1 to 65,535 (R498). -/
def State.eeeWrite (s : State) (p : Nat) (v : Word) : State :=
  let s := s.setFld F.MAC_EEE_CTL.EN p (fieldOf v 0 0)
  if fieldOf v 23 8 = 0 then s else s.setFld F.MAC_EEE_CTL.IDLE p (fieldOf v 23 8)

/-- A write of MAC_FC_CTL: MODE 0b11 has no effect (R498). -/
def State.fcCtlWrite (s : State) (p : Nat) (v : Word) : State :=
  let m := s.fcMode p
  let s := s.writeTyped .MAC_FC_CTL p v
  if fieldOf v 1 0 = 3 then s.setFld F.MAC_FC_CTL.MODE p m else s

end Sys2Proof.Machine
end

