-- ==== Sys2Proof/Machine/Slack.lean ====
section
/-! DEFINITION. Slack water (14, R479 to R486): schedules, negotiation over LLDP, windows and rendezvous; the calendar
writes and the boundary that end an agreement; and the discovery walk (R496, R497). -/
namespace Sys2Proof.Machine

/-! ## Schedules (R479) -/

/-- SLACK_CTL.EN of a link. -/
def State.slackEn (s : State) (k : Nat) : Bool := s.flag (macF k F.MAC_SLACK_CTL.EN F.ATL_SLACK_CTL.EN) (macI k)

/-- GROUP of a link. -/
def State.slackGroup (s : State) (k : Nat) : Nat := s.fld (macF k F.MAC_SLACK_CTL.GROUP F.ATL_SLACK_CTL.GROUP) (macI k)

/-- The link's own guard time. -/
def State.slackGuard (s : State) (k : Nat) : Nat := s.fld (macF k F.MAC_SLACK_CTL.GUARD F.ATL_SLACK_CTL.GUARD) (macI k)

/-- SKIP that the device offers (R486). -/
def State.slackOffered (s : State) (k : Nat) : Nat := s.polValue (slackPol (keyMac k)) % 256

/-- The calendar entries of a group (R479). -/
def State.groupSlots (s : State) (g : Nat) : List Nat :=
  s.usedSlots.filter (fun i => s.slotLive i && s.fld F.TTB_SLOT_W0.CLASS i == 7 && s.fld F.TTB_SLOT_W1.ARG i % 256 == g)

/-- P, O and D of a group: exactly one entry, with LEN nonzero (R479). -/
def State.groupSchedule (s : State) (g : Nat) : Option (Nat × Nat × Nat) :=
  match s.groupSlots g with
  | [i] =>
    if s.fld F.TTB_SLOT_W1.LEN i = 0 then none
    else some (4096 * s.slotPeriod i, 4096 * s.slotOffset i, (s.fld F.TTB_SLOT_W1.LEN i + 1) * 4096)
  | _ => none

/-- The schedule is that of the group now. -/
def SlackSched.follows (c : SlackSched) (x : Option (Nat × Nat × Nat)) : Bool := x == some (c.p, c.o, c.d)

/-! ## Negotiation (R480, R481) -/

/-- PLACE of this module in a TLV (R480). -/
def State.ownPlace (s : State) : Nat := s.plat.place.toNat

/-- This side proposes: always on an attach link; on a network port the lower PLACE, once known (R481). -/
def State.proposes (s : State) (k : Nat) : Bool :=
  isAttach k || (match (s.slackSt k).place with | some p => decide (s.ownPlace < p) | none => false)

/-- A TLV with CAPABLE only. -/
def State.plainTlv (s : State) : SlackTlv :=
  { offer := false, accept := false, withdraw := false, capable := true, p := 0, o := 0, d := 0, g := 0, start := 0, skip := 0
    place := s.ownPlace }

/-- A TLV that carries a schedule. -/
def State.schedTlv (s : State) (c : SlackSched) (offer : Bool) : SlackTlv :=
  { s.plainTlv with offer := offer, accept := !offer, p := c.p, o := c.o, d := c.d, g := c.g, start := c.start, skip := c.skip }

/-- An LLDP message goes out on a link (R480). -/
def State.lldp (s : State) (k : Nat) (t : Option SlackTlv) : State := s.emit (.lldp (keyMac k) t)

/-- Firmware sends an LLDP message at once when the Slack water mode of a link that is up has changed (R480). -/
def State.slackTell (s t : State) (k : Nat) : State :=
  if s.slackMode k = t.slackMode k ∨ t.macUp k = false then t
  else t.lldp k (if t.slackEn k then some t.plainTlv else none)

/-- WITHDRAW is sent and the agreement ends (R481). -/
def State.slackWithdraw (s : State) (k : Nat) : State :=
  (s.lldp k (some { s.plainTlv with withdraw := true })).slackEnd k

/-- Step 1 of the proposer (R481): the offer, with START at least 2 s after the send. -/
def State.slackPropose (s : State) (k : Nat) (x : Nat × Nat × Nat) : State :=
  let c : SlackSched := { p := x.1, o := x.2.1, d := x.2.2, g := s.slackGuard k, start := 0, skip := s.slackOffered k }
  let c := { c with start := c.nextWin (s.replica (bankChip (macBank k)) + 2000000000) }
  let s := s.setSlack k { s.slackSt k with offer := some c }
  let s := if s.slackMode k < 2 then s.setSlackMode k 1 else s
  s.lldp k (some (s.schedTlv c true))

/-- What the link's agreement should be is what it is: no new negotiation is wanted (R486). -/
def State.slackSettled (s : State) (k : Nat) (x : Nat × Nat × Nat) : Bool :=
  match (s.slackSt k).agreed with
  | some c => c.follows (some x) && c.skip == s.slackOffered k
  | none => false

/-- Firmware sends LLDP on a link (R480, R481, R486): an offer where this side proposes and wants a new agreement. -/
def State.lldpSend (s : State) (k : Nat) : State :=
  if s.macUp k = false then s
  else if s.slackEn k = false then s.lldp k none
  else
    let s := s.setFld (macF k F.MAC_SLACK_STAT.PROPOSER F.ATL_SLACK_STAT.PROPOSER) (macI k) (b2n (s.proposes k))
    if s.proposes k = false then s.lldp k (some s.plainTlv)
    else if s.slackOffered k = 0 then
      (if (s.slackSt k).agreed.isSome then s.slackWithdraw k else s.lldp k (some s.plainTlv))
    else match s.groupSchedule (s.slackGroup k) with
      | none => s.lldp k (some s.plainTlv)
      | some x => if s.slackSettled k x then s.lldp k (some s.plainTlv) else s.slackPropose k x

/-- LLDP_TRANSMIT (R480). -/
def execLldpTransmit (link : MacPort) (s : State) : Res := done (s.lldpSend (macKey link)).settle

/-- LLDP_INFO_EXPIRE (R481). -/
def execLldpInfoExpire (link : MacPort) (s : State) : Res :=
  let k := macKey link
  let s0 := s
  let s := s.slackEnd k
  done (s0.slackTell (s.setSlack k { s.slackSt k with place := none }) k).settle

/-- The partner's PLACE is noted. -/
def State.notePlace (s : State) (k : Nat) (t : SlackTlv) : State := s.setSlack k { s.slackSt k with place := some t.place }

/-- This side can keep an offered schedule (R479, R481): it is the responder, SKIP is usable, and its own calendar has it. -/
def State.canKeep (s : State) (k : Nat) (t : SlackTlv) : Bool :=
  s.slackEn k && !isAttach k && decide (t.place < s.ownPlace) && t.skip != 0
    && s.groupSchedule (s.slackGroup k) == some (t.p, t.o, t.d)

/-- A received OFFER is answered (R481). -/
def State.offerReceived (s : State) (k : Nat) (t : SlackTlv) : State :=
  let s := s.notePlace k t
  if s.canKeep k t then
    let c : SlackSched := { p := t.p, o := t.o, d := t.d, g := max t.g (s.slackGuard k), start := t.start, skip := t.skip }
    let s := s.setSlack k { s.slackSt k with agreed := some c, offer := none }
    let s := ((s.setSlackMode k 1).setSlackRun k 0).setSlackSkip k c.skip
    s.lldp k (some (s.schedTlv c false))
  else s.lldp k (if s.slackEn k then some s.plainTlv else none)

/-- SLACK_OFFER (R480, R481): a received TLV with OFFER; one without it only tells the partner's PLACE. -/
def execSlackOffer (link : MacPort) (tlv : SlackTlv) (s : State) : Res :=
  let k := macKey link
  if s.macUp k = false then done s
  else if tlv.withdraw then done (s.slackTell ((s.notePlace k tlv).slackEnd k) k).settle
  else if tlv.offer then done (s.offerReceived k tlv).settle
  else done (s.notePlace k tlv)

/-- An ACCEPT echoes an offer (R481). -/
def tlvEchoes (t : SlackTlv) (c : SlackSched) : Bool :=
  t.accept && t.p == c.p && t.o == c.o && t.d == c.d && t.skip == c.skip && t.start == c.start

/-- SLACK_ACCEPT (R481): SCHEDULED if it echoes the offer more than 100 µs before W(START); else the offer is made again. -/
def execSlackAccept (link : MacPort) (tlv : SlackTlv) (s : State) : Res :=
  let k := macKey link
  match (s.slackSt k).offer with
  | none => done s
  | some c =>
    if s.slackEn k && tlvEchoes tlv c && decide (s.replica (bankChip (macBank k)) + 100000 < c.w c.start) then
      let s0 := s
      let s := (s.notePlace k tlv).setSlack k { (s.notePlace k tlv).slackSt k with agreed := some { c with g := tlv.g }, offer := none }
      done (s0.slackTell (((s.setSlackMode k 2).setSlackRun k 0).setSlackSkip k c.skip) k).settle
    else done (s.lldpSend k).settle

/-- SLACK_WITHDRAW (R481). -/
def execSlackWithdraw (link : MacPort) (s : State) : Res := done (s.slackTell (s.slackEnd (macKey link)) (macKey link)).settle

/-- SLACK_SCHEDULE_START (R481): the responder enters SCHEDULED at W(START). -/
def execSlackScheduleStart (link : MacPort) (s : State) : Res :=
  let k := macKey link
  match (s.slackSt k).agreed with
  | some c =>
    done (if s.slackMode k = 1 ∧ (s.slackSt k).offer = none ∧ c.w c.start ≤ s.replica (bankChip (macBank k))
      then (s.slackTell ((s.setSlackMode k 2).setSlackRun k 0) k).settle else s)
  | none => done s

/-- A write of MAC_SLACK_CTL or ATL_SLACK_CTL (R481, R498): GUARD is clamped; clearing EN ends the agreement. -/
def State.slackCtlWrite (s : State) (k : Nat) (v : Word) : State :=
  let s := s.setFld (macF k F.MAC_SLACK_CTL.EN F.ATL_SLACK_CTL.EN) (macI k) (fieldOf v 0 0)
  let s := s.setFld (macF k F.MAC_SLACK_CTL.GROUP F.ATL_SLACK_CTL.GROUP) (macI k) (fieldOf v 8 1)
  let s := s.setFld (macF k F.MAC_SLACK_CTL.GUARD F.ATL_SLACK_CTL.GUARD) (macI k) (clamp 100 100000 (fieldOf v 25 9))
  if fieldOf v 0 0 = 0 then s.slackTell (s.slackEnd k) k else s

/-! ## Calendar changes (R481) -/

/-- The links with an agreement. -/
def State.slackLinks (s : State) : List Nat := (s.link.slack.filter (fun e => e.2.agreed.isSome)).map (fun e => e.1)

/-- Firmware withdraws and offers anew on a link (R481). -/
def State.slackRenew (s : State) (k : Nat) : State := (s.slackWithdraw k).lldpSend k

/-- An agreement that no longer follows the calendar is withdrawn, and offered anew (R481). -/
def State.slackCheck (s : State) (k : Nat) : State :=
  match (s.slackSt k).agreed with
  | some c => if c.follows (s.groupSchedule (s.slackGroup k)) then s else s.slackRenew k
  | none => s

/-- Every agreement is held against the calendar (R481). -/
def State.slackCheckAll (s : State) : State := s.slackLinks.foldl State.slackCheck s

/-- The group that a calendar slot names, if it holds a Slack water entry. -/
def State.slotGroup (s : State) (i : Nat) : Option Nat :=
  if s.flag F.TTB_SLOT_W0.VALID i && s.fld F.TTB_SLOT_W0.CLASS i == 7 then some (s.fld F.TTB_SLOT_W1.ARG i % 256) else none

/-- A commit of a slot, and the agreements of a group whose entry it changed or removed (R77, R481). -/
def State.slotCommit (s : State) (who : Requester) (i : Nat) (v : Word) : State :=
  let t := s.slotW0Write who i v
  if t.rd .TTB_SLOT_W0 i = s.rd .TTB_SLOT_W0 i ∧ t.rd .TTB_SLOT_W1 i = s.rd .TTB_SLOT_W1 i then t
  else
    let hit := fun k => (s.slotGroup i == some (t.slackGroup k)) || (t.slotGroup i == some (t.slackGroup k))
    (t.slackLinks.filter hit).foldl State.slackRenew t

/-- TTB_SLOT_W0_WRITE (R77, R78, R481). -/
def execTtbSlotW0Write (who : Requester) (slot : BitVec 16) (v : BitVec 32) (s : State) : Res :=
  done (s.atChip 0 (fun s => s.slotCommit who slot.toNat v))

/-- TTB_CTL_WRITE (R79, R481). -/
def execTtbCtlWrite (v : BitVec 32) (s : State) : Res :=
  done (s.atChip 0 (fun s => (s.ttbCtlWrite v).slackCheckAll))

/-- An open window in which network time steps judges nothing (R485). -/
def State.slackStepped (s : State) : State :=
  (s.link.slack.map (fun e => e.1)).foldl (fun s k =>
    match (s.slackSt k).win with
    | some w => if w.judged then s else s.setSlack k { s.slackSt k with win := some { w with stepped := true } }
    | none => s) s

/-- A boundary on the master, with what hangs on it elsewhere (R69, R85, R308, R481, R485). -/
def State.boundaryWork (s : State) : State :=
  let t := s.tideBoundary.gateStep
  let t := if s.time.step.isSome then t.slackStepped.gaugeStep (s.replica 1) else t
  t.slackCheckAll.settle

/-- TIDE_BOUNDARY (R69, R85, R308, R481, R485). -/
def execTideBoundary (s : State) : Res := done (s.when s.time.boundary State.boundaryWork)

/-! ## Windows (R482 to R485) -/

/-- The window index whose start an instant is, if the agreement sleeps in it (R479, R482). -/
def SlackSched.windowAt (c : SlackSched) (t : Nat) : Option Nat :=
  if c.p = 0 ∨ c.skip = 0 ∨ t < c.o ∨ (t - c.o) % c.p ≠ 0 then none
  else
    let m := (t - c.o) / c.p
    if c.start ≤ m ∧ m % c.skip = 0 then some m else none

/-- A class 0x7 firing starts a window (R482, R485): of the link's group, not deferred, its boundary at a window. -/
def State.slackFiring (s : State) (k : Nat) (f : Firing) : State :=
  match (s.slackSt k).agreed, (s.slackSt k).win with
  | some c, none =>
    if f.deferred || decide (s.slackMode k < 2) || f.arg.toNat != s.slackGroup k || s.slackOffered k == 0 then s
    else match c.windowAt (f.cycle * 4096) with
      | none => s
      | some m =>
        let near := s.time.stepTick != 0 && decide (s.time.tick < s.time.stepTick + 2000)
        let w : SlackWin := { m := m, began := s.mono (bankChip (macBank k)), ends := c.w m + c.d, woken := false, ended := false
                              judged := false, aligned := false, stepped := near }
        (s.setSlack k { s.slackSt k with win := some w }).satInc (macF k F.MAC_SLACK_SLEPT.COUNT F.ATL_SLACK_SLEPT.COUNT)
          (macI k) 1
  | _, _ => s

/-- A window whose end has passed, and that was judged and aligned, or has no agreement left, is done with. -/
def State.slackTidy (s : State) (k : Nat) : State :=
  match (s.slackSt k).win with
  | some w =>
    if w.ended && ((w.judged && w.aligned) || (s.slackSt k).agreed.isNone) then s.setSlack k { s.slackSt k with win := none } else s
  | none => s

/-- Network time at a link has reached `t`, or the window of length d that began has lasted its length (R485). -/
def State.slackReached (s : State) (k : Nat) (w : SlackWin) (before : Nat) : Bool :=
  decide (w.ends ≤ s.replica (bankChip (macBank k)) + before)
    || (match (s.slackSt k).agreed with
      | some c => decide (w.began + c.d ≤ s.mono (bankChip (macBank k)) + before)
      | none => false)

/-- SLACK_WAKE_START (R483): 2 µs before the window ends. -/
def execSlackWakeStart (link : MacPort) (s : State) : Res :=
  let k := macKey link
  match (s.slackSt k).win with
  | some w => done (if s.slackReached k w 2000 then s.setSlack k { s.slackSt k with win := some { w with woken := true } } else s)
  | none => done s

/-- SLACK_WINDOW_END (R482, R484). -/
def execSlackWindowEnd (link : MacPort) (s : State) : Res :=
  let k := macKey link
  match (s.slackSt k).win with
  | some w =>
    done (if s.slackReached k w 0 then
      ((s.setSlack k { s.slackSt k with win := some { w with woken := true, ended := true } }).slackTidy k).settle else s)
  | none => done s

/-- A success or a miss of a rendezvous (R484). -/
def State.slackJudge (s : State) (k : Nat) (good : Bool) : State :=
  if good then
    if s.slackMode k = 3 then
      let n := s.fld (macF k F.MAC_SLACK_STAT.RUN F.ATL_SLACK_STAT.RUN) (macI k) + 1
      if 8 ≤ n then (s.setSlackRun k 0).setSlackMode k 2 else s.setSlackRun k n
    else s
  else
    ((s.satInc (macF k F.MAC_SLACK_MISS.COUNT F.ATL_SLACK_MISS.COUNT) (macI k) 1).setSlackMode k 3).setSlackRun k 0

/-- The window is judged, once, unless network time stepped in it (R485). -/
def State.slackJudgeWin (s : State) (k : Nat) (w : SlackWin) (good : Bool) : State :=
  if w.judged || w.stepped || (s.slackSt k).agreed.isNone then s else s.slackTell (s.slackJudge k good) k

/-- G of the link's agreement. -/
def State.slackG (s : State) (k : Nat) : Nat := match (s.slackSt k).agreed with | some c => c.g | none => 0

/-- SLACK_FIRST_SYMBOL (R483, R484): the deviation is shown, and judges the window. -/
def execSlackFirstSymbol (link : MacPort) (deviation : Int) (s : State) : Res :=
  let k := macKey link
  match (s.slackSt k).win with
  | some w =>
    if w.aligned then done s
    else
      let s := s.wr (if k < 256 then .MAC_SLACK_WAKE else .ATL_SLACK_WAKE) (macI k) (sat32 deviation)
      let s := s.slackJudgeWin k w (decide (deviation.natAbs ≤ s.slackG k))
      done ((s.setSlack k { s.slackSt k with win := some { w with aligned := true, judged := true } }).slackTidy k).settle
  | none => done s

/-- SLACK_RENDEZVOUS_MISS (R483, R484): no first symbol by W(m) + D + G. -/
def execSlackRendezvousMiss (link : MacPort) (s : State) : Res :=
  let k := macKey link
  match (s.slackSt k).win with
  | some w =>
    if w.judged || w.aligned || decide (s.replica (bankChip (macBank k)) < w.ends + s.slackG k) then done s
    else
      let s := s.slackJudgeWin k w false
      done ((s.setSlack k { s.slackSt k with win := some { w with judged := true } }).slackTidy k).settle
  | none => done s

/-- SLACK_ALIGN_TIMEOUT (R484): 1 ms after the window's end the link goes down and trains again. -/
def execSlackAlignTimeout (link : MacPort) (s : State) : Res :=
  let k := macKey link
  match (s.slackSt k).win with
  | some w =>
    done (if !w.aligned && decide (w.ends + 1000000 ≤ s.replica (bankChip (macBank k))) then (s.linkDown k).settle else s)
  | none => done s

/-! ## The discovery walk (R496, R497, R500) -/

/-- A discovery walk starts. -/
def State.startWalk (s : State) (rerun : Bool) : State :=
  let s := s.setFld F.HDW_DISC_STAT.BUSY 0 1
  (s.putLink { s.link with walk := some { next := 0, probes := 0, recs := [], changed := false, rerun := rerun } })

/-- HDW_DISC_CMD.GO (R496): while a walk runs it counts in HDW_DISC_REJ. -/
def State.discGo (s : State) : State :=
  if s.link.walk.isSome then s.satInc F.HDW_DISC_REJ.COUNT 0 1 else s.startWalk false

/-- DISC_GO (R496). -/
def execDiscGo (s : State) : Res :=
  done (s.atChip 0 (fun s => s.discGo))

/-- The record of a link that is not probed, or does not answer (R496). -/
def State.silentRec (s : State) (a : Nat) : DiscRec :=
  { up := s.macUp (256 + a), answered := false, fenced := s.isFenced (bankChip (a / 8)), slack := false, roles := 0, boardId := 0
    ver := 0 }

/-- The state with the walk replaced. -/
def State.setWalk (s : State) (w : Option DiscWalk) : State := s.putLink { s.link with walk := w }

/-- The walk takes up its next link (R496): recorded without a probe where it is down or fenced, else probed. -/
def State.walkNext (s : State) (w : DiscWalk) : State :=
  if 32 ≤ w.next ∨ w.probes ≠ 0 then s
  else if s.macUp (256 + w.next) = false ∨ s.isFenced (bankChip (w.next / 8)) then
    s.setWalk (some { w with next := w.next + 1, recs := w.recs ++ [s.silentRec w.next] })
  else (s.sendControl w.next 2).setWalk (some { w with probes := 1 })

/-- DISCOVERY_WALK (R496): the walk's next link. -/
def execDiscoveryWalk (s : State) : Res :=
  match s.link.walk with
  | some w => done (s.walkNext w)
  | none => done s

/-- PROBE_ANSWER (R495, R497). -/
def execProbeAnswer (link : BitVec 5) (body : List (BitVec 8)) (s : State) : Res := done (s.probeAnswer link.toNat body)

/-- PROBE_TIMEOUT (R496): a second probe, then ANSWERED 0. -/
def execProbeTimeout (s : State) : Res :=
  match s.link.walk with
  | some w =>
    if w.probes = 0 then done s
    else if w.probes = 1 ∧ s.macUp (256 + w.next) then done ((s.sendControl w.next 2).setWalk (some { w with probes := 2 }))
    else done (s.setWalk (some { w with
        next := w.next + 1, probes := 0, recs := w.recs ++ [{ s.silentRec w.next with up := true, fenced := false }] }))
  | none => done s

/-- One link's record is shown in HDW_DISC_W0 and W1 (R500). -/
def State.showDisc (s : State) (n : Nat) (r : DiscRec) : State :=
  (s.wr .HDW_DISC_W0 n (BitVec.ofNat 32 (b2n r.up + b2n r.answered * 2 + b2n r.fenced * 4 + b2n r.slack * 8 + r.roles * 256
    + r.boardId * 65536))).wr .HDW_DISC_W1 n (BitVec.ofNat 32 r.ver)

/-- Show the records of a walk from link n on. -/
def State.showWalk (s : State) (n : Nat) : List DiscRec → State
  | [] => s
  | r :: l => State.showWalk (s.showDisc n r) (n + 1) l

/-- DISCOVERY_WALK_END (R496, R497). -/
def execDiscoveryWalkEnd (s : State) : Res :=
  match s.link.walk with
  | some w =>
    if w.next < 32 then done s
    else
      let s := (s.showWalk 0 w.recs).setWalk none
      let s := ((s.setFld F.HDW_DISC_STAT.BUSY 0 0).setFld F.HDW_DISC_STAT.DONE 0 1).setFld F.HDW_DISC_STAT.CHANGED 0
        (b2n w.changed)
      let s := s.setFld F.HDW_DISC_STAT.RERUN 0 (b2n w.rerun)
      let s := if w.changed then s.event 0 0x015 0x0801 sevNote (b2n w.rerun) else s
      done (if w.changed && !w.rerun then s.startWalk true else s)
  | none => done s

end Sys2Proof.Machine
end

