-- ==== Sys2Proof/Machine/Keys.lean ====
section
/-! DEFINITION. The key table, the key caches, the Die and the sequence unit (09, R324 to R336, R346 to R356; R506). -/
namespace Sys2Proof.Machine

/-! ## Entries (R326 to R329) -/

/-- An entry that was never installed since module reset: invalid, VER 0 (R329). -/
def keyNone : KeyEntry :=
  { valid := false, long := false, enc := false, dec := false, gate := false, ver := 0, owner := 0, key := List.replicate 32 0 }

/-- The entry is pinned (R329). -/
def isPinned (idx : Nat) : Bool := decide (1 ≤ idx ∧ idx ≤ 4095)

/-- The HBM offset of an entry (R329): 0x14_0000_0000 + INDEX × 64. -/
def keyOff (idx : Nat) : Nat := 0x400000000 + idx * 64

/-- ATTR of an entry (R328). -/
def KeyEntry.attr (e : KeyEntry) : Nat :=
  b2n e.valid * 2 ^ 31 + b2n e.long * 2 ^ 30 + b2n e.enc * 2 ^ 29 + b2n e.dec * 2 ^ 28 + b2n e.gate * 2 ^ 27
    + e.ver.toNat * 2 ^ 16 + e.owner.toNat

/-- An entry from its ATTR and key bytes. -/
def keyOfAttr (a : Nat) (key : List Byte) : KeyEntry :=
  { valid := bit a 31, long := bit a 30, enc := bit a 29, dec := bit a 28, gate := bit a 27, ver := BitVec.ofNat 8 (bits a 23 16)
    owner := BitVec.ofNat 16 (bits a 15 0), key := key }

/-- Th of R328: the index as a word, the half, zeros. -/
def keyTweak (idx h : Nat) : List Byte := beBytes 4 idx ++ beBytes 1 h ++ List.replicate 11 0

/-- CHECK of R328 over the first 40 bytes of an entry. -/
def keyCheck (ktk first : List Byte) (idx : Nat) : List Byte := (cmac ktk (first ++ beBytes 4 idx)).take 8

/-- The 64 bytes of an entry in HBM (R328). -/
def keySeal (ktk : List Byte) (idx : Nat) (e : KeyEntry) : List Byte :=
  let half := fun h => aesEnc ktk (xorBytes ((e.key.drop (16 * h)).take 16) (keyTweak idx h))
  let first := half 0 ++ half 1 ++ beBytes 4 e.attr ++ beBytes 4 0
  first ++ keyCheck ktk first idx ++ List.replicate 16 0

/-- The entry that 64 bytes of HBM hold, its key deciphered (R328). -/
def keyOpen (ktk : List Byte) (idx : Nat) (l : List Byte) : KeyEntry :=
  let half := fun h => xorBytes (aesDec ktk ((l.drop (16 * h)).take 16)) (keyTweak idx h)
  keyOfAttr (rdN l 32 4) (half 0 ++ half 1)

/-- KTK, or zeros while none exists. -/
def State.ktkBytes (s : State) : List Byte := s.keys.ktk.getD (List.replicate 32 0)

/-- The state with a pinned entry replaced. -/
def State.setPinned (s : State) (idx : Nat) (e : Option KeyEntry) : State :=
  s.putKeys { s.keys with pinned := Tbl.set (fun _ => none) s.keys.pinned idx e }

/-- The attributes of an entry, pinned or in HBM; key bytes only of a pinned one. -/
def State.keyEntry (s : State) (idx : Nat) : KeyEntry :=
  if isPinned idx then (Tbl.get (fun _ => none) s.keys.pinned idx).getD keyNone
  else keyOfAttr (rdN (s.hbmRead (keyOff idx) 64) 32 4) []

/-- An entry as a key cache takes it, its key deciphered with KTK (R328, R333). -/
def State.keyFetched (s : State) (idx : Nat) : KeyEntry :=
  if isPinned idx then s.keyEntry idx else keyOpen s.ktkBytes idx (s.hbmRead (keyOff idx) 64)

/-- The ways of a set of a Board's key cache. -/
def State.keySet (s : State) (board set : Nat) : List KeyWay := Tbl.get (fun _ => []) s.keys.cache (board * 1024 + set)

/-- The state with a set replaced. -/
def State.setKeySet (s : State) (board set : Nat) (l : List KeyWay) : State :=
  s.putKeys { s.keys with cache := Tbl.set (fun _ => []) s.keys.cache (board * 1024 + set) l }

/-- Every cached copy of an entry is invalidated (R330). -/
def State.dropKeyCopies (s : State) (idx : Nat) : State :=
  (List.range 8).foldl (fun s b =>
    s.setKeySet b (idx % 1024) ((s.keySet b (idx % 1024)).filter (fun w => w.index != idx))) s

/-- Write an entry (R328, R330): a pinned one to the key caches, another sealed to HBM; cached copies are dropped. -/
def State.putKey (s : State) (idx : Nat) (e : KeyEntry) : State :=
  if isPinned idx then s.setPinned idx (some e)
  else (s.hbmWrite (keyOff idx) (keySeal s.ktkBytes idx e)).dropKeyCopies idx

/-- Write only an entry's ATTR and CHECK: a revoke needs no key bytes (R330). -/
def State.putKeyAttr (s : State) (idx : Nat) (e : KeyEntry) : State :=
  if isPinned idx then s.setPinned idx (some e)
  else
    let old := s.hbmRead (keyOff idx) 64
    let first := old.take 32 ++ beBytes 4 e.attr ++ beBytes 4 0
    (s.hbmWrite (keyOff idx) (first ++ keyCheck s.ktkBytes first idx ++ List.replicate 16 0)).dropKeyCopies idx

/-! ## Key-table commands (R330, R352) -/

/-- Statuses of R352. -/
def ktOk : Nat := 0
/-- INUSE (R352). -/
def ktInUse : Nat := 1
/-- ABSENT (R352). -/
def ktAbsent : Nat := 2
/-- BADARG (R352). -/
def ktBadArg : Nat := 3
/-- NOHBM (R352). -/
def ktNoHbm : Nat := 4
/-- NODIE (R352). -/
def ktNoDie : Nat := 5

/-- KEY_TBL_IN0 to IN7 as bytes (R352). -/
def State.keyInput (s : State) : List Byte := (List.range 8).flatMap (fun i => beBytes 4 (s.rd .KEY_TBL_IN i).toNat)

/-- A write of KEY_TBL_CMD (R330): the registers are taken as they stand; while BUSY it sets REJ. -/
def State.keyCmdWrite (s : State) (op : Nat) : State :=
  if s.flag F.KEY_TBL_STAT.BUSY 0 then s.setFld F.KEY_TBL_STAT.REJ 0 1
  else if op = 0 then s
  else
    let c : KeyCmd := { op := op, idx := s.fld F.KEY_TBL_IDX.INDEX 0, attr := s.rd .KEY_TBL_ATTR 0, key := s.keyInput }
    State.setFld (s.putKeys { s.keys with cmd := some c }) F.KEY_TBL_STAT.BUSY 0 1

/-- INSTALL (R330): the command starts. -/
def execInstall (s : State) : Res :=
  done (s.atChip 0 (fun s => s.keyCmdWrite 1))

/-- REVOKE (R330): the command starts. -/
def execRevoke (s : State) : Res :=
  done (s.atChip 0 (fun s => s.keyCmdWrite 2))

/-- KEY_READ (R330): the READ command starts. -/
def execKeyRead (s : State) : Res :=
  done (s.atChip 0 (fun s => s.keyCmdWrite 3))

/-- A write of KEY_TBL_IN0 to IN7: none while a command runs (R330). -/
def State.keyInWrite (s : State) (i : Nat) (v : Word) : State :=
  if s.flag F.KEY_TBL_STAT.BUSY 0 then s else s.wr .KEY_TBL_IN i v

/-- VER and STATUS of the command. -/
def State.keyStatus (s : State) (st : Nat) (ver : BitVec 8) : State :=
  (s.setFld F.KEY_TBL_STAT.STATUS 0 st).setFld F.KEY_TBL_STAT.VER 0 ver.toNat

/-- INSTALL's effect, with the first status that applies of BADARG, NODIE, NOHBM, INUSE (R330). -/
def State.keyInstall (s : State) (c : KeyCmd) : State :=
  let old := s.keyEntry c.idx
  if c.idx = 0 ∨ (bit c.attr.toNat 17 = false ∧ bit c.attr.toNat 18 = false) then s.keyStatus ktBadArg old.ver
  else if s.keys.ktk.isNone then s.keyStatus ktNoDie old.ver
  else if isPinned c.idx = false ∧ s.hbmMapped = false then s.keyStatus ktNoHbm old.ver
  else if old.valid then s.keyStatus ktInUse old.ver
  else
    let e : KeyEntry := { valid := true, long := bit c.attr.toNat 16, enc := bit c.attr.toNat 17, dec := bit c.attr.toNat 18
                          gate := bit c.attr.toNat 19, ver := old.ver + 1, owner := BitVec.ofNat 16 (fieldOf c.attr 15 0)
                          key := if bit c.attr.toNat 16 then c.key else c.key.take 16 ++ List.replicate 16 0 }
    ((s.putKey c.idx e).modInc F.KEY_TBL_COUNT.COUNT 0 1).keyStatus ktOk e.ver

/-- Revoke a valid entry (R330). -/
def State.revokeEntry (s : State) (idx : Nat) : State :=
  let e := s.keyEntry idx
  (s.putKeyAttr idx { e with valid := false, ver := e.ver + 1 }).setFld F.KEY_TBL_COUNT.COUNT 0
    (s.fld F.KEY_TBL_COUNT.COUNT 0 - 1)

/-- The key-table unit can reach an entry: HBM entries only while HBM is mapped (R329). -/
def State.keyReach (s : State) (idx : Nat) : Bool := isPinned idx || (idx != 0 && s.hbmMapped)

/-- REVOKE's effect (R330): an entry that is not valid, or not reachable, is ABSENT. -/
def State.keyRevoke (s : State) (idx : Nat) : State :=
  let e := s.keyEntry idx
  if s.keyReach idx && e.valid then (s.revokeEntry idx).keyStatus ktOk (e.ver + 1) else s.keyStatus ktAbsent e.ver

/-- READ's effect (R330). -/
def State.keyReadCmd (s : State) (idx : Nat) : State :=
  if idx = 0 then s.setFld F.KEY_TBL_STAT.STATUS 0 ktBadArg
  else if s.keyReach idx = false then s.setFld F.KEY_TBL_STAT.STATUS 0 ktNoHbm
  else
    let e := s.keyEntry idx
    let s := s.wr .KEY_TBL_ATTR 0 (BitVec.ofNat 32
      (e.owner.toNat + b2n e.long * 2 ^ 16 + b2n e.enc * 2 ^ 17 + b2n e.dec * 2 ^ 18 + b2n e.gate * 2 ^ 19))
    s.keyStatus (if e.valid then ktOk else ktAbsent) e.ver

/-- The command at work takes its effect (R330). -/
def State.keyRun (s : State) (c : KeyCmd) : State :=
  if c.op = 1 then s.keyInstall c else if c.op = 2 then s.keyRevoke c.idx else s.keyReadCmd c.idx

/-- KEY_COMMAND_DONE (R330): the effect, then IN0 to IN7 clear and BUSY with them. -/
def execKeyCommandDone (s : State) : Res :=
  match s.keys.cmd with
  | none => done s
  | some c =>
    let s := s.keyRun c
    let s := (List.range 8).foldl (fun s i => s.wr .KEY_TBL_IN i 0) s
    done (State.setFld (s.putKeys { s.keys with cmd := none }) F.KEY_TBL_STAT.BUSY 0 0)

/-- Entries in HBM that hold a nonzero ATTR. -/
def State.usedKeys (s : State) : List Nat :=
  (dedup ((s.hbm.mem.filter (fun e => decide (0x400000000 ≤ e.1 ∧ e.1 < 0x404000000))).map (fun e => (e.1 - 0x400000000) / 64))).filter
    (fun i => 4096 ≤ i ∧ (s.keyEntry i).valid)

/-- Every valid entry is revoked (R503, R520), and every key cache is clear. -/
def State.revokeAll (s : State) : State :=
  let pins := (s.keys.pinned.map (fun e => e.1)).filter (fun i => (s.keyEntry i).valid)
  let s := (pins ++ (if s.hbmMapped then s.usedKeys else [])).foldl State.revokeEntry s
  (s.putKeys { s.keys with cache := [] })

/-! ## Key caches (R327, R331, R333) -/

/-- What a key handle comes to (R121, R327): a fault, a fetch to wait for, or an entry. -/
inductive KeyUse where
  | fault
  | miss (idx : Nat)
  | hit (e : KeyEntry)
deriving DecidableEq, Repr

/-- The entry fits the handle's version, the thread's instance and the direction (R327). -/
def KeyEntry.fits (e : KeyEntry) (h : Word) (inst : Word) (dec : Bool) : Bool :=
  e.valid && e.ver.toNat == fieldOf h 27 20 && (e.owner.toNat == 0xFFFF || e.owner.toNat == fieldOf inst 15 0)
    && (if dec then e.dec else e.enc)

/-- A key handle on a Board (R326, R327, R329, R333). -/
def State.keyUse (s : State) (board : Nat) (h inst : Word) (dec : Bool) : KeyUse :=
  let idx := fieldOf h 19 0
  let judge := fun (e : KeyEntry) => if e.fits h inst dec then KeyUse.hit e else KeyUse.fault
  if idx = 0 ∨ fieldOf h 31 28 ≠ 0 then .fault
  else if isPinned idx then judge (s.keyEntry idx)
  else if s.hbmMapped = false then .fault
  else match (s.keySet board (idx % 1024)).find? (fun w => w.index == idx) with
    | some w => judge w.entry
    | none => .miss idx

/-- A use of a cached entry: its way becomes the most recently used (R333, R506). -/
def State.keyTouch (s : State) (board idx : Nat) : State :=
  let l := s.keySet board (idx % 1024)
  match l.find? (fun w => w.index == idx) with
  | some w => s.setKeySet board (idx % 1024) ({ w with used := true } :: l.filter (fun w => w.index != idx))
  | none => s

/-- A fetch starts, unless one for the index is under way (R333). -/
def State.keyFetch (s : State) (board idx : Nat) : State :=
  if s.keys.fetch.contains (board, idx) then s
  else State.satInc (s.putKeys { s.keys with fetch := s.keys.fetch ++ [(board, idx)] }) F.BRD_KEY_MISS.COUNT board 1

/-- A fetched entry replaces the least recently used way of its set (R333). -/
def State.keyFill (s : State) (board idx : Nat) (e : KeyEntry) : State :=
  let l := (s.keySet board (idx % 1024)).filter (fun w => w.index != idx)
  s.setKeySet board (idx % 1024) ({ index := idx, entry := e, used := true } :: l.take 15)

/-- The bytes of an entry pass CHECK (R328). -/
def State.keyChecks (s : State) (idx : Nat) : Bool :=
  let l := s.hbmRead (keyOff idx) 64
  s.keys.ktk.isSome && (l.drop 40).take 8 == keyCheck s.ktkBytes (l.take 40) idx

/-- An epoch mark at a Board's key cache (R506): entries not used since the last mark go, or all of them. -/
def State.epochMark (all : Bool) (s : State) (board : Nat) : State :=
  if s.isFenced (boardChip board) then s
  else (List.range 1024).foldl (fun s set =>
    match s.keySet board set with
    | [] => s
    | l => s.setKeySet board set (if all then [] else (l.filter (fun w => w.used)).map (fun w => { w with used := false }))) s

/-! ## The Die (R334 to R336) -/

/-- HDW_DIE_STATUS.STATE. -/
def State.dieState (s : State) : Nat := s.fld F.HDW_DIE_STATUS.STATE 0

/-- The DRBG has given n values more. -/
def State.dieUsed (s : State) (n : Nat) : State := s.putKeys { s.keys with gens := s.keys.gens + n }

/-- Bits in a random buffer: 0 to 7 of the Boards, 8 of Confluence, 9 of Headwater (R334). -/
def State.rndBits (s : State) (k : Nat) : Nat := Tbl.get (fun _ => 0) s.keys.rnd k

/-- The random buffer of a thread's chiplet (R335). -/
def rndOf (th : Nat) : Nat := if isMgmt th then 9 else thBoard th

/-- The next 32 bits of a random buffer (R334, R335): each goes to one consumer. -/
def State.dieWord (s : State) (k : Nat) : Word × State :=
  (Config.dieWord s.free, (s.putKeys { s.keys with rnd := Tbl.set (fun _ => 0) s.keys.rnd k (s.rndBits k - 32) }).draw.dieUsed 1)

/-- n words of the Die as bytes. -/
def State.dieBytes : State → Nat → List Byte × State
  | s, 0 => ([], s)
  | s, n + 1 =>
    let r := State.dieBytes s.draw n
    (beBytes 4 (Config.dieWord s.free).toNat ++ r.1, r.2)

/-- The DRBG is seeded. -/
def State.seed (s : State) : State := s.putKeys { s.keys with gens := 0, seeded := s.time.tick }

/-- KTK is drawn (R328). -/
def State.drawKtk (s : State) : State :=
  let r := (s.dieUsed 8).dieBytes 8
  (r.2.putKeys { r.2.keys with ktk := some r.1 })

/-- A nonce asked for by HDW_LC_CHAL.NEW is drawn once the Die is OK; NEW then clears (R516, R529). -/
def State.nonceDraw (s : State) : State :=
  if s.flag F.HDW_LC_CHAL.NEW 0 && s.dieState == 1 then
    let s := (List.range 8).foldl (fun s i => (s.wr .HDW_LC_NONCE i (Config.dieWord s.free)).draw) (s.dieUsed 8)
    { s.setFld F.HDW_LC_CHAL.NEW 0 0 with trust := { s.trust with nonce := true } }
  else s

/-- Threads that wait for the Die try again, and so does a nonce (R335, R516). -/
def State.dieWake (s : State) : State :=
  let s := s.nonceDraw
  ((s.eng.thr.filter (fun e => e.2.run == .stalled .die)).map (fun e => e.1)).foldl State.makeReady s

/-- A health test failed (R336): FAILED, the random buffers cleared, the failing tests' bits, and the log entry. -/
def State.dieFail (s : State) (rct apt : Bool) : State :=
  let s := (s.putKeys { s.keys with rnd := [] }).setFld F.HDW_DIE_STATUS.STATE 0 2
  let s := if rct then s.setFld F.HDW_DIE_STATUS.RCT_FAIL 0 1 else s
  let s := if apt then s.setFld F.HDW_DIE_STATUS.APT_FAIL 0 1 else s
  (s.event 0 0x013 0x0503 sevFatal (b2n rct + b2n apt * 2)).dieWake

/-- DIE_HEALTH_FAIL (R336): a continuous test fails while the Die is OK. -/
def execDieHealthFail (rct apt : Bool) (s : State) : Res :=
  done (if s.dieState = 1 ∧ (rct || apt) then s.dieFail rct apt else s)

/-- DIE_RESTART (R336): a write of HDW_DIE_CTL.RESTART. -/
def execDieRestart (s : State) : Res :=
  done (s.atChip 0 (fun s => s.setFld F.HDW_DIE_CTL.RESTART 0 1))

/-- DIE_RESTART_DONE (R328, R336): the start-up tests end, of a RESTART or of module reset; KTK is drawn at the latter. -/
def execDieRestartDone (rct apt : Bool) (s : State) : Res :=
  if s.flag F.HDW_DIE_CTL.RESTART 0 = false ∧ s.dieState ≠ 0 then done s
  else
    let first := s.dieState == 0
    let s := s.setFld F.HDW_DIE_CTL.RESTART 0 0
    if rct || apt then done (s.dieFail rct apt)
    else
      let s := s.seed.setFld F.HDW_DIE_STATUS.STATE 0 1
      done (if first then s.drawKtk else s).dieWake

/-- The DRBG reseeds (R334). -/
def State.reseed (s : State) : State := if s.dieState = 1 then s.seed.satInc F.HDW_DIE_RESEEDS.COUNT 0 1 else s

/-- A reseed is due: 2²⁰ requests or 10⁹ Headwater clocks (R334).  DESIGN CHOICE (log entry 63): a request gives one 32-bit value. -/
def State.reseedDue (s : State) : Bool := decide (2 ^ 20 ≤ s.keys.gens) || decide (10 ^ 9 ≤ s.time.tick - s.keys.seeded)

/-- DRBG_RESEED (R334). -/
def execDrbgReseed (s : State) : Res := done (s.when s.reseedDue State.reseed)

/-- The work of a class 0x6 firing (R506): an epoch mark to every unfenced Board's cache, and a reseed. -/
def State.keyEpoch (s : State) (f : Firing) : State :=
  ((List.range 8).foldl (State.epochMark (bit f.arg.toNat 0)) (s.emit .epochMark)).reseed

/-! ## The sequence unit (R346 to R350, R355, R356) -/

/-- A requester's number for latches of its own (R12, R347). -/
def reqKey : Requester → Nat
  | .thread th => th
  | .pf1 ep => 65536 + ep.toNat
  | .firmware => 65600
  | .debug => 65601
  | .dma ch => 65664 + ch
  | .host inst => 131072 + inst

/-- VAL of a counter. -/
def State.sqVal (s : State) (n : Nat) : Nat := s.rd64 .CFL_SQ_VAL .CFL_SQ_VAL_HI n

/-- The limit in effect (R346). -/
def State.sqLimit (s : State) (n : Nat) : Nat :=
  let l := s.rd64 .CFL_SQ_LIMIT .CFL_SQ_LIMIT_HI n
  if s.flag F.CFL_SQ_CTL.MODE64 n then l else min l 0xFFFFFFFF

/-- Post an event of a counter (R350): its queue holds 1,024; one that makes it non-empty is noted (R533). -/
def State.sqEvent (s : State) (n : Nat) (exhausted : Bool) : State :=
  if 1024 ≤ s.keys.sqEvq.length then s.satInc F.CFL_SQ_EVQ_LOST.COUNT 0 1
  else
    let first := s.keys.sqEvq.isEmpty
    let s := s.putKeys { s.keys with sqEvq := s.keys.sqEvq ++ [(n, exhausted)] }
    if first then s.event 1 0x04A 0x0501 sevNote 0 else s

/-- The latch hi(x) of a requester. -/
def State.sqHi (s : State) (x : Nat) : Word := Tbl.get (fun _ => 0) s.keys.sqHi x

/-- The state with the latch hi(x) loaded. -/
def State.setSqHi (s : State) (x : Nat) (v : Word) : State :=
  s.putKeys { s.keys with sqHi := Tbl.set (fun _ => 0) s.keys.sqHi x v }

/-- A refused read of CFL_SQ_NEXT (R347). -/
def State.sqRefuse (s : State) (n x : Nat) : State :=
  let s := s.setSqHi x 0
  if s.flag F.CFL_SQ_CTL.EN n && !s.flag F.CFL_SQ_CTL.EXHAUSTED n then
    let s := (s.setFld F.CFL_SQ_CTL.EXHAUSTED n 1).sqEvent n true
    if s.flag F.CFL_SQ_KEY.REVOKE_EN n then
      s.putKeys { s.keys with sqRevoke := s.keys.sqRevoke ++
        [(n, s.fld F.CFL_SQ_KEY.INDEX n, s.fld F.CFL_SQ_KEY.VER n)] }
    else s
  else s

/-- VAL after an allocation: a value whose low word is zero is skipped (R347). -/
def sqNext (v : Nat) : Nat := if (v + 1) % 2 ^ 32 = 0 then v + 2 else v + 1

/-- A granted read of CFL_SQ_NEXT (R347). -/
def State.sqGrant (s : State) (n x : Nat) : State :=
  let v := s.sqVal n
  let lim := s.sqLimit n
  let s := (s.setSqHi x (BitVec.ofNat 32 (v / 2 ^ 32))).wr64 .CFL_SQ_VAL .CFL_SQ_VAL_HI n (sqNext v)
  if lim + 1 - sqNext v ≤ (s.rd .CFL_SQ_SOFT n).toNat ∧ s.flag F.CFL_SQ_CTL.SOFT_HIT n = false then
    (s.setFld F.CFL_SQ_CTL.SOFT_HIT n 1).sqEvent n false
  else s

/-- A read of CFL_SQ_NEXT(n) by requester x (R347): the result, and the state. -/
def State.sqRead (s : State) (n x : Nat) : Word × State :=
  if s.flag F.CFL_SQ_CTL.EN n = false ∨ s.sqLimit n < s.sqVal n then (0, s.sqRefuse n x)
  else (BitVec.ofNat 32 (s.sqVal n), s.sqGrant n x)

/-- SQ_NEXT_READ (R347). -/
def execSqNextRead (n : BitVec 18) (who : Requester) (s : State) : Res :=
  done (s.readAt 1 (fun s => s.sqRead n.toNat (reqKey who)))

/-- VAL as stored: one whose low word is zero is stored plus one (R348). -/
def sqStored (v : Nat) : Nat := if v % 2 ^ 32 = 0 then v + 1 else v

/-- A write that R348 refuses: counted. -/
def State.sqReject (s : State) : State := s.satInc F.CFL_SQ_REJ.COUNT 0 1

/-- A write of CFL_SQ_CTL (R348). -/
def State.sqCtlWrite (s : State) (n : Nat) (v : Word) : State :=
  let en := s.flag F.CFL_SQ_CTL.EN n
  if en ∧ fieldOf v 1 1 ≠ s.fld F.CFL_SQ_CTL.MODE64 n then s.sqReject
  else
    let s := (s.setFld F.CFL_SQ_CTL.EN n (fieldOf v 0 0)).setFld F.CFL_SQ_CTL.MODE64 n (fieldOf v 1 1)
    if en = false ∧ fieldOf v 0 0 = 1 then (s.setFld F.CFL_SQ_CTL.EXHAUSTED n 0).setFld F.CFL_SQ_CTL.SOFT_HIT n 0 else s

/-- The low word a 64-bit write commits: the staged one, else the committed one (R12). -/
def State.lowWord (s : State) (r : Reg) (i : Nat) : Nat :=
  match s.staged r i with | some w => w.toNat | none => (s.rd r i).toNat

/-- A write of a register of counter n (R12, R348). -/
def State.sqWrite (s : State) (r : Reg) (n : Nat) (v : Word) : State :=
  match r with
  | .CFL_SQ_CTL => s.sqCtlWrite n v
  | .CFL_SQ_NEXT => s
  | .CFL_SQ_VAL => s.setStage .CFL_SQ_VAL n (some v)
  | .CFL_SQ_LIMIT => s.setStage .CFL_SQ_LIMIT n (some v)
  | _ =>
    if s.flag F.CFL_SQ_CTL.EN n then s.sqReject
    else match r with
      | .CFL_SQ_VAL_HI =>
        (s.wr64 .CFL_SQ_VAL .CFL_SQ_VAL_HI n (sqStored (s.lowWord .CFL_SQ_VAL n + v.toNat * 2 ^ 32))).setStage .CFL_SQ_VAL n none
      | .CFL_SQ_LIMIT_HI =>
        (s.wr64 .CFL_SQ_LIMIT .CFL_SQ_LIMIT_HI n (s.lowWord .CFL_SQ_LIMIT n + v.toNat * 2 ^ 32)).setStage .CFL_SQ_LIMIT n none
      | .CFL_SQ_SOFT => s.wr .CFL_SQ_SOFT n v
      | .CFL_SQ_KEY => s.writeTyped .CFL_SQ_KEY n v
      | _ => s

/-- SQ_CONFIG_WRITE (R348). -/
def execSqConfigWrite (r : Reg) (n : BitVec 18) (v : BitVec 32) (s : State) : Res :=
  done (s.atChip 1 (fun s => s.sqWrite r n.toNat v))

/-- SCHEDULED_REVOKE (R349): only while the entry still has the version. -/
def execScheduledRevoke (n : BitVec 18) (s : State) : Res :=
  match s.keys.sqRevoke.find? (fun e => e.1 == n.toNat) with
  | none => done s
  | some e =>
    let s := s.putKeys { s.keys with sqRevoke := s.keys.sqRevoke.erase e }
    let k := s.keyEntry e.2.1
    done (if s.keyReach e.2.1 && k.valid && k.ver.toNat == e.2.2 then s.revokeEntry e.2.1 else s)

/-- A read of CFL_SQ_EVQ removes the oldest event (R350, R356). -/
def State.sqEvqRead (s : State) : State :=
  match s.keys.sqEvq with
  | [] => s.wr .CFL_SQ_EVQ 0 0
  | (n, ex) :: rest =>
    State.wr (s.putKeys { s.keys with sqEvq := rest }) .CFL_SQ_EVQ 0 (BitVec.ofNat 32 (n + b2n ex * 2 ^ 30 + 2 ^ 31))

/-- SQ_EVQ_READ (R350). -/
def execSqEvqRead (s : State) : Res := done (s.readAt 1 (fun s => (s.sqEvqRead.rd .CFL_SQ_EVQ 0, s.sqEvqRead)))

end Sys2Proof.Machine
end

