-- ==== Sys2Proof/Machine/Gate.lean ====
section
/-! DEFINITION. DMA channels as far as every unit shares them (R430, R439 to R441), the tag gate (R123 to R126, R337 to R345),
and the end of a thread: stop, halt, fault and reset (R32, R97, R134, R138, R143, R157 to R161). -/
namespace Sys2Proof.Machine

/-! ## Channels (R430, R439) -/

/-- An idle channel. -/
def dmaReset : DmaCh := { act := none, shd := none, code := 0, side := 0, more := false, wait := false }

/-- A DMA channel: (Board × 8 + cluster) × 16 + n. -/
def State.dmaCh (s : State) (ch : Nat) : DmaCh := Tbl.get (fun _ => dmaReset) s.dma ch

/-- The state with a channel replaced. -/
def State.setDma (s : State) (ch : Nat) (c : DmaCh) : State := s.putDma (Tbl.set (fun _ => dmaReset) s.dma ch c)

/-- Word n of a descriptor. -/
def DmaDesc.w (d : DmaDesc) (n : Nat) : Word := d.words.getD n 0

/-- LEN of a descriptor (R431). -/
def DmaDesc.len (d : DmaDesc) : Nat := fieldOf (d.w 0) 20 0

/-- The status word of a channel (R439). -/
def DmaCh.status (c : DmaCh) : Word :=
  BitVec.ofNat 32 (c.code + c.side * 16 + b2n c.act.isSome * 32 + b2n c.shd.isSome * 64 + b2n c.wait * 128
    + b2n (match c.act with | some d => d.held.isSome | none => false) * 256
    + (match c.act with | some d => d.len - d.moved | none => 0) * 1024 + b2n c.more * 2 ^ 31)

/-- Threads that wait in DMAW for a channel are ready once neither set is occupied (R135). -/
def State.dmaWake (s : State) (ch : Nat) : State :=
  if (s.dmaCh ch).act.isSome || (s.dmaCh ch).shd.isSome then s
  else s.makeReadyAll ((s.eng.thr.filter (fun e => e.2.run == .stalled (.dma ch))).map (fun e => e.1))

/-- A nonzero code is recorded: the earliest since the last DMAW, and MORE for a further one (R439). -/
def DmaCh.record (c : DmaCh) (code side : Nat) : DmaCh :=
  if code = 0 then c else if c.code = 0 then { c with code := code, side := side } else { c with more := true }

/-- A descriptor ends (R430, R442): counted, its event set. -/
def State.dmaCount (s : State) (ch : Nat) (d : DmaDesc) (code : Nat) : State :=
  let s := s.satInc F.DMA_DESCS.COUNT ch 1
  let s := if code = 0 then s else s.satInc F.DMA_ERRS.COUNT ch 1
  if bit (d.w 0).toNat 23 then s.setEvt d.th (1 <<< 17) else s

/-! ## The host side of a DMA descriptor (R431, R432) -/

/-- A side of a descriptor: kind, 64-bit address, function, endpoint. -/
structure DmaSide where
  kind : Nat
  addr : Nat
  fn   : Nat
  ep   : Nat
deriving DecidableEq, Repr

/-- The source or the destination side of a descriptor. -/
def DmaDesc.side (d : DmaDesc) (dst : Bool) : DmaSide :=
  let w7 := (d.w 7).toNat
  if dst then { kind := fieldOf (d.w 0) 27 24, addr := (d.w 3).toNat * 2 ^ 32 + (d.w 4).toNat
                fn := fieldOf (d.w 6) 10 0, ep := bits w7 9 5 }
  else { kind := fieldOf (d.w 0) 31 28, addr := (d.w 1).toNat * 2 ^ 32 + (d.w 2).toNat
         fn := fieldOf (d.w 5) 10 0, ep := bits w7 4 0 }

/-- The base of the host windows (R25). -/
def windowBase : Nat := 0x4000000000

/-- Endpoint and function of a side that reaches a host: kind 2, or a device address in a host window (R432). -/
def DmaSide.host (x : DmaSide) : Option (Nat × Nat) :=
  if x.kind = 2 then some (x.ep, x.fn)
  else if x.kind = 1 ∧ windowBase ≤ x.addr then some ((x.addr - windowBase) / 2 ^ 41, x.fn)
  else none

/-- The host address of a side that reaches a host (R432). -/
def DmaSide.hostAddr (x : DmaSide) : Nat := if x.kind = 2 then x.addr else (x.addr - windowBase) % 2 ^ 41

/-- The 4 KiB pages of a range. -/
def pagesOf (a n : Nat) : List Nat := (List.range ((a + n - 1) / 4096 + 1 - a / 4096)).map (fun k => a / 4096 + k)

/-! ## ATS (R392, R437) -/

/-- ATS Enable of a function. -/
def State.atsOn (s : State) (ep fn : Nat) : Bool := s.flag F.PCIE_ATS.EN (fnKey ep fn)

/-- A descriptor under way issues requests under the translation of a function's page. -/
def DmaDesc.usesPage (d : DmaDesc) (ep fn page : Nat) : Bool :=
  d.started && d.held.isNone && [false, true].any (fun dst =>
    (d.side dst).host == some (ep, fn) && (pagesOf (d.side dst).hostAddr d.len).contains page)

/-- Requests issued under a translation have still to be sent (R392). -/
def State.atsBusy (s : State) (ep fn page : Nat) : Bool :=
  s.atsOn ep fn && s.dma.any (fun e => match e.2.act with | some d => d.usesPage ep fn page | none => false)

/-- Invalidation Completions that nothing holds up any longer are sent, oldest first (R392). -/
def State.atsFlush (s : State) : State :=
  let r := s.plat.atsWait.partition (fun e => s.atsBusy e.1 e.2.1 e.2.2)
  r.2.foldl (fun s e => s.emit (.atsCompletion e.1 e.2.1 e.2.2)) (s.putPlat { s.plat with atsWait := r.1 })

/-- The active descriptor ends with a code; the shadow one becomes active (R430). -/
def State.dmaEnd (s : State) (ch code side : Nat) : State :=
  let c := s.dmaCh ch
  match c.act with
  | none => s
  | some d =>
    let c := { c.record code side with act := c.shd, shd := none, wait := false }
    (((s.setDma ch c).dmaCount ch d code).dmaWake ch).atsFlush

/-- The active descriptor has made its last access: a gated transfer holds its end (R341), another ends. -/
def State.dmaFinish (s : State) (ch code side : Nat) : State :=
  let c := s.dmaCh ch
  match c.act with
  | none => s
  | some d =>
    if d.gated then (s.setDma ch { c with act := some { d with held := some (code, side) } }).atsFlush else s.dmaEnd ch code side

/-- The channels of a thread's cluster. -/
def clusterChs (th : Nat) : List Nat := (List.range 16).map (fun n => thCluster th * 16 + n)

/-- A descriptor after its gate was released (R342). -/
def DmaDesc.ungate (th : Nat) (d : DmaDesc) : DmaDesc := if d.th = th then { d with gated := false } else d

/-- Held ends are reported and the channel resumes (R342). -/
def State.dmaRelease (th : Nat) (s : State) (ch : Nat) : State :=
  let c := s.dmaCh ch
  let s := s.setDma ch { c with act := c.act.map (DmaDesc.ungate th), shd := c.shd.map (DmaDesc.ungate th) }
  match c.act with
  | some d => (match d.held with
    | some (code, side) => if d.th = th then s.dmaEnd ch code side else s
    | none => s)
  | none => s

/-- A descriptor whose gate failed (R343). -/
def DmaDesc.fail (th : Nat) (d : DmaDesc) : DmaDesc := if d.th = th ∧ d.gated then { d with failed := true } else d

/-- Gated transfers of the thread stop writing (R343). -/
def State.dmaFail (th : Nat) (s : State) (ch : Nat) : State :=
  let c := s.dmaCh ch
  s.setDma ch { c with act := c.act.map (DmaDesc.fail th), shd := c.shd.map (DmaDesc.fail th) }

/-! ## The tag gate (R123 to R126, R337 to R345) -/

/-- The gate of a thread is open: GATED 1 and FAILED 0. -/
def Thread.open_ (t : Thread) : Bool := t.gated && !t.failed

/-- Held handles with gated cells. -/
def State.gatedHandles (s : State) (th : Nat) : List Word :=
  (s.thread th).handles.filter (fun h => match s.handleFrame h with | some f => !f.gated.isEmpty | none => false)

/-- The bytes with cell c of 256 bytes zero. -/
def zeroCell (l : List Byte) (c : Nat) : List Byte := patchBytes l (c * 256) (List.replicate 256 0)

/-- A posted PSTB is written into the cells of its handle; a gated one marks its cell (R127, R339), which reads as zero once the gate
has failed (R343). -/
def payPut (failed : Bool) (w : PayWrite) (f : FrameRec) : FrameRec :=
  let l := fitBytes (f.cells * 256) f.bytes
  let c := w.off / 256
  { f with
    bytes := if w.gated && failed then zeroCell l c else patchBytes l w.off (blockBytes w.block)
    gated := if w.gated && !f.gated.contains c then f.gated ++ [c] else f.gated }

/-- The oldest posted PSTB of a thread is written and leaves the write FIFO (R127). -/
def State.payWrite (s : State) (th : Nat) : State :=
  let t := s.thread th
  match t.wfifo with
  | [] => s
  | w :: rest =>
    (match s.handleFrame w.handle with
    | some f => (s.setFrame (handleFirst w.handle) (some (payPut t.failed w f))).cellWipe f w.off 16
    | none => s).setThread th { t with wfifo := rest }

/-- Every posted PSTB of a thread is written. -/
def State.payDrain (s : State) (th : Nat) : State :=
  (List.range (s.thread th).wfifo.length).foldl (fun s _ => s.payWrite th) s

/-- Gated cells read as zero (R343). -/
def zeroGated (f : FrameRec) : FrameRec := { f with bytes := f.gated.foldl zeroCell (fitBytes (f.cells * 256) f.bytes) }

/-- The general registers with the tainted ones zero. -/
def untainted (t : BitVec 32) (g : Tbl Word) : Tbl Word := g.filter (fun e => !t.getLsbD e.1)

/-- The gate of a thread fails (R343, step 1 and the count; steps 2 and 3 follow within 1 µs). -/
def State.gateFail (s : State) (th : Nat) : State :=
  if (s.thread th).open_ = false then s
  else
    let s := s.payDrain th
    let t := s.thread th
    let s := (s.gatedHandles th).foldl (fun s h => s.updFrame h zeroGated) s
    let s := s.setThread th { t with failed := true, b := [], g := untainted t.taint t.g, taint := 0 }
    ((clusterChs th).foldl (State.dmaFail th) s).satInc F.BRD_GATE_FAIL.COUNT (thBoard th) 1

/-- The handle leaves the thread. -/
def State.unhold (s : State) (th : Nat) (h : Word) : State :=
  s.setThread th { s.thread th with handles := (s.thread th).handles.erase h }

/-- A gated handle is freed instead of enqueued (R126): DROP reason 0xFE, and BRD_GATE_DROP counts it. -/
def State.gateDrop (th : Nat) (s : State) (h : Word) : State :=
  ((s.unhold th h).dropHandle h 0xFE).satInc F.BRD_GATE_DROP.COUNT (thBoard th) 1

/-- RECV, HALT, a fault or a thread reset while GATED is 1 (R126): the gate fails and gated handles are freed. -/
def State.gateResolve (s : State) (th : Nat) : State :=
  if (s.thread th).gated then
    let s := (s.gateFail th).payDrain th
    (s.gatedHandles th).foldl (State.gateDrop th) s
  else s

/-- TAGCMP releases the gate (R342). -/
def State.gateRelease (s : State) (th : Nat) : State :=
  let s := s.payDrain th
  let s := (s.gatedHandles th).foldl (fun s h => s.updFrame h (fun f => { f with gated := [] })) s
  let t := s.thread th
  let s := s.setThread th { t with gated := false, taint := 0, gbufs := [], gfree := [] }
  let s := t.gfree.foldl (fun s a => s.bufFree (thCluster th) a) s
  (clusterChs th).foldl (State.dmaRelease th) s

/-- The gated buffers of a failed gate become zero; deferred frees take effect (R343, step 2). -/
def State.gatedZero (s : State) (th : Nat) : State :=
  let t := s.thread th
  if t.open_ then s
  else
    let s := t.gbufs.foldl (fun s a => s.clusterWrite (thCluster th) a (List.replicate 0x800 0)) s
    let s := s.setThread th { t with gbufs := [], gfree := [] }
    t.gfree.foldl (fun s a => s.bufFree (thCluster th) a) s

/-- GATED and FAILED clear after RECV or thread reset (R126); what a failed gate has still to overwrite is overwritten first (R343). -/
def State.gateClear (s : State) (th : Nat) : State :=
  let s := s.gatedZero th
  s.setThread th { s.thread th with gated := false, failed := false, taint := 0 }

/-- GATED_BUFFER_ZERO (R343, step 2). -/
def execGatedBufferZero (th : Nat) (s : State) : Res := done (s.gatedZero th)

/-- GATE_TIMEOUT (R344). -/
def execGateTimeout (th : Nat) (s : State) : Res :=
  done (if (s.thread th).open_ then (s.gateFail th).satInc F.BRD_GATE_TIMEOUT.COUNT (thBoard th) 1 else s)

/-- A write of CLU_BUF_FREE: a gated buffer's free waits for the gate (R164, R340). -/
def State.bufFreeWrite (s : State) (cl addr : Nat) : State :=
  match s.eng.thr.find? (fun e => e.1 / 512 == cl && e.2.gbufs.contains addr) with
  | some e => if e.2.gfree.contains addr then s else s.setThread e.1 { e.2 with gfree := e.2.gfree ++ [addr] }
  | none => s.bufFree cl addr

/-- CLU_BUF_FREE (R164, R340). -/
def execCluBufFree (cl : BitVec 6) (v : BitVec 32) (s : State) : Res :=
  done (s.atChip (boardChip (cl.toNat / 8)) (fun s => s.bufFreeWrite cl.toNat v.toNat))

/-- CLU_BUF_ALLOC (R164): a read of the register by a thread of the cluster, or by another agent. -/
def execCluBufAlloc (cl : BitVec 6) (th : Option (BitVec 9)) (s : State) : Res :=
  done (s.readAt (boardChip (cl.toNat / 8)) (fun s =>
    let r := s.bufAlloc cl.toNat (th.map (fun t => cl.toNat * 512 + t.toNat))
    (BitVec.ofNat 32 r.1, r.2)))

/-- Bytes of cluster memory as an agent reads them: a gated buffer of another thread reads as zeros (R340). -/
def State.clusterSeen (s : State) (cl : Nat) (th : Option Nat) (off n : Nat) : List Byte :=
  let hid := (s.eng.thr.filter (fun e => e.1 / 512 == cl && some e.1 != th)).flatMap (fun e => e.2.gbufs)
  if hid.any (fun a => decide (a < off + n ∧ off < a + 0x800)) then
    (List.range n).map (fun i => if hid.any (fun a => decide (a ≤ off + i ∧ off + i < a + 0x800)) then 0
      else Tbl.get (fun _ => 0) s.eng.clusterMem (cl * 0x400000 + off + i))
  else s.clusterRead cl off n

/-! ## Faults and the end of a thread -/

/-- Causes of R142. -/
def fcIllegal : Nat := 0x01
/-- Instruction address (R142). -/
def fcIaddr : Nat := 0x02
/-- Alignment (R142). -/
def fcAlign : Nat := 0x03
/-- Address (R142). -/
def fcAddr : Nat := 0x04
/-- Bus fault (R142). -/
def fcBus : Nat := 0x05
/-- Protection (R142). -/
def fcProt : Nat := 0x06
/-- Handle (R142). -/
def fcHandle : Nat := 0x07
/-- Thread control (R142). -/
def fcThread : Nat := 0x08
/-- Key (R142). -/
def fcKey : Nat := 0x09
/-- Trap (R142). -/
def fcTrap : Nat := 0x0A
/-- A handle left unretired (R142). -/
def fcUnretired : Nat := 0x0B
/-- Stream (R142). -/
def fcStream : Nat := 0x0C
/-- Uncorrectable data (R142). -/
def fcData : Nat := 0x0D
/-- Operand (R142). -/
def fcOperand : Nat := 0x0E

/-- The gate is resolved and every handle that is still held is dropped (R126, R134). -/
def State.threadEnd (s : State) (th : Nat) : State :=
  let s := (s.gateResolve th).payDrain th
  let l := (s.thread th).handles
  let s := s.setThread th { s.thread th with handles := [] }
  l.foldl (fun s h => s.dropHandle h 0) s

/-- The thread is stopped; a long stall is abandoned with its result, and the engine goes on with another thread. -/
def State.threadStopped (s : State) (th : Nat) : State :=
  let s := s.setThread th { s.thread th with run := .stopped, look := none }
  if Tbl.get (fun _ => 0) s.eng.cur (thEngine th) = th % 8 then s.switchFrom th else s

/-- The cluster control unit records a fault (R143, R157, R160, R533). -/
def State.faultRecord (s : State) (th cause trap : Nat) : State :=
  let cl := thCluster th
  let pc := (s.thread th).pc
  let e : FaultEntry := { th := th, cause := BitVec.ofNat 8 cause, trap := BitVec.ofNat 8 trap, pc := pc }
  let q := Tbl.get (fun _ => []) s.eng.faults cl
  let s := if q.length < 16 then s.putEng { s.eng with faults := Tbl.set (fun _ => []) s.eng.faults cl (q ++ [e]) }
    else s.satInc F.CLU_FAULT_LOST.COUNT cl 1
  let sup := decide (th = supervisorOf th)
  let s := s.eventAt (thChip th) (cl % 8) 0 (thPlace th) (if sup then 0x0102 else 0x0101) sevError
    (cause + trap * 256 + pc.toNat * 65536) false
  if sup then
    let s := s.setFld F.BRD_STATUS.SUP_FAULT (thBoard th) (s.fld F.BRD_STATUS.SUP_FAULT (thBoard th) ||| 2 ^ (cl % 8))
    if bit (s.fld F.BRD_INT_EN.SUP_FAULT_EN (thBoard th)) (cl % 8) then s.emit (.hdwInterrupt (grpOf (thChip th) (cl % 8))) else s
  else s.setEvt (supervisorOf th) (1 <<< 16)

/-- A thread fault (R143, R157): precise, the thread stops with pc at the instruction. -/
def State.threadFault (s : State) (th cause trap : Nat) : State :=
  let s := (s.setThread th { s.thread th with faulted := true }).threadStopped th
  let s := if isMgmt th then s else s.faultRecord th cause trap
  s.threadEnd th

/-- A stop of a started thread by TSTOP or CLU_THREAD_CMD (R32, R134, R138, R344). -/
def State.threadStop (s : State) (th : Nat) : State :=
  if (s.thread th).isStarted = false then s
  else
    let s := s.gateResolve th
    if (s.thread th).handles.isEmpty then (s.threadStopped th).threadEnd th
    else s.threadFault th fcUnretired 0

/-- Round-unit results of a thread that are under way are discarded (R97). -/
def State.roundDiscard (s : State) (th : Nat) : State :=
  s.putEng { s.eng with round := s.eng.round.map (fun e => (e.1, e.2.map (fun w =>
      if w.th = some th then { w with th := none } else w))) }

/-- Thread reset (R97, R126, R134, R161, R182). -/
def State.threadReset (s : State) (th : Nat) : State :=
  let s := (((s.threadStopped th).threadEnd th).gateClear th).roundDiscard th
  let s := if isMgmt th then s else s.bufFreeAll th
  (s.setThread th (s.thread th).reset).setSqHi th 0

/-- A stopped thread starts at an address (R137, R155). -/
def State.threadStart (s : State) (th : Nat) (pc : BitVec 20) : State :=
  (s.setThread th { s.thread th with pc := pc, past := false, mstack := [], instr := none, begun := false }).makeReady th

/-- An address of the program store in a register (R95): bits [19:2].  DESIGN CHOICE (log entry 15): the other bits of a TSTART's
g[rs2] are ignored. -/
def pcOf (w : Word) : BitVec 20 := BitVec.ofNat 20 (fieldOf w 19 2 * 4)

end Sys2Proof.Machine
end

