-- ==== Sys2Proof/Machine/Clusters.lean ====
section
/-! DEFINITION. Cluster control (04, R152 to R165, R178), the ends of round-unit work and of key fetches (R122, R333). -/
namespace Sys2Proof.Machine

/-- The chiplet of a cluster, 8 × Board + cluster. -/
def clusterChip (cl : Nat) : Nat := boardChip (cl / 8)

/-! ## Microcode state of a cluster, as far as it holds the cluster up (R196, R199) -/

/-- MCODE_STATUS.STATE of a cluster: 0 RUN, 1 QUIESCE, 2 LOAD, 3 LOAD_ERR (R205). -/
def State.mcState (s : State) (cl : Nat) : Nat := s.fld F.MCODE_STATUS.STATE cl

/-- A cluster is healthy (R558): its CLU_OK bit is 1. -/
def State.clusterOk (s : State) (cl : Nat) : Bool := bit (s.fld F.BRD_STATUS.CLU_OK (cl / 8)) (cl % 8)

/-! ## Start and thread commands -/

/-- The register state of R97 for a thread that CLU_START starts; its gate and gated buffers stay as they are. -/
def Thread.fresh (t : Thread) : Thread :=
  { t.reset with gated := t.gated, failed := t.failed, gbufs := t.gbufs, gfree := t.gfree }

/-- Thread 0 of an engine starts if it is stopped and not faulted (R155, R158). -/
def State.startMaster (pc : BitVec 20) (s : State) (th : Nat) : State :=
  let t := s.thread th
  if t.isStarted || t.faulted then s else (s.setThread th t.fresh).threadStart th pc

/-- A write of CLU_START (R155, R163, R164); a cluster in LOAD_ERR stays stopped (R197), and so does a failed one (R558). -/
def State.clusterStart (s : State) (cl : Nat) (v : Word) : State :=
  if s.mcState cl = 3 ∨ s.clusterOk cl = false then s
  else
    let s := (clusterThreads cl).foldl (State.fillShare cl) s
    let pc := BitVec.ofNat 20 (s.fld F.CLU_ENTRY.PC cl / 4 * 4)
    let engs := if bit v.toNat 6 then List.range 64 else [fieldOf v 5 0]
    engs.foldl (fun s e => s.startMaster pc (cl * 512 + e * 8)) s

/-- CLU_START_WRITE (R155). -/
def execCluStartWrite (cl : BitVec 6) (v : BitVec 32) (s : State) : Res :=
  done (s.atChip (clusterChip cl.toNat) (fun s => s.clusterStart cl.toNat v))

/-- The effect of a CLU_THREAD_CMD on a thread (R178): 1 reset, 2 reset and start, 3 stop. -/
def State.threadCmdDo (s : State) (th cmd : Nat) : State :=
  if cmd = 1 then s.threadReset th
  else if cmd = 2 then
    let s := s.threadReset th
    if s.mcState (thCluster th) = 3 ∨ s.clusterOk (thCluster th) = false then s
    else s.threadStart th (BitVec.ofNat 20 (s.fld F.CLU_THREAD_PC.PC (thCluster th) / 4 * 4))
  else if cmd = 3 then s.threadStop th
  else s

/-- The commands that wait for the end of a reload, by cluster. -/
def State.cmdsOf (s : State) (cl : Nat) : List (Nat × Nat) := Tbl.get (fun _ => []) s.eng.cmdPend cl

/-- The state with the waiting commands of a cluster replaced. -/
def State.setCmds (s : State) (cl : Nat) (l : List (Nat × Nat)) : State :=
  s.putEng { s.eng with cmdPend := Tbl.set (fun _ => []) s.eng.cmdPend cl l }

/-- A write of CLU_THREAD_CMD: in QUIESCE or LOAD it waits for RUN (R199). -/
def State.threadCmd (s : State) (th cmd : Nat) : State :=
  let cl := thCluster th
  if cmd = 0 then s
  else if s.mcState cl = 1 ∨ s.mcState cl = 2 then s.setCmds cl (s.cmdsOf cl ++ [(th, cmd)])
  else s.threadCmdDo th cmd

/-- The thread that a cluster, an engine and a thread number name. -/
def threadOf (cl : BitVec 6) (eng : BitVec 6) (t : BitVec 3) : Nat := cl.toNat * 512 + eng.toNat * 8 + t.toNat

/-- THREAD_CMD_RESET (R178). -/
def execThreadCmdReset (cl : BitVec 6) (eng : BitVec 6) (t : BitVec 3) (s : State) : Res :=
  done (s.atChip (clusterChip cl.toNat) (fun s => s.threadCmd (threadOf cl eng t) 1))

/-- THREAD_CMD_RESET_START (R159). -/
def execThreadCmdResetStart (cl : BitVec 6) (eng : BitVec 6) (t : BitVec 3) (s : State) : Res :=
  done (s.atChip (clusterChip cl.toNat) (fun s => s.threadCmd (threadOf cl eng t) 2))

/-- THREAD_CMD_STOP (R178). -/
def execThreadCmdStop (cl : BitVec 6) (eng : BitVec 6) (t : BitVec 3) (s : State) : Res :=
  done (s.atChip (clusterChip cl.toNat) (fun s => s.threadCmd (threadOf cl eng t) 3))

/-! ## Fault queue (R157, R178) -/

/-- The oldest fault of a cluster. -/
def State.faultHead (s : State) (cl : Nat) : Option FaultEntry := (Tbl.get (fun _ => []) s.eng.faults cl).head?

/-- CLU_FAULT_W0 (R178). -/
def State.faultW0 (s : State) (cl : Nat) : Word :=
  match s.faultHead cl with
  | none => 0
  | some e => BitVec.ofNat 32 (1 + e.th % 512 * 2 + e.cause.toNat * 2 ^ 16 + e.trap.toNat * 2 ^ 24)

/-- CLU_FAULT_W1 (R178). -/
def State.faultW1 (s : State) (cl : Nat) : Word :=
  match s.faultHead cl with
  | none => 0
  | some e => BitVec.ofNat 32 e.pc.toNat

/-- A write of CLU_FAULT_POP (R178). -/
def State.faultPop (s : State) (cl : Nat) (v : Word) : State :=
  if bit v.toNat 0 then
    s.putEng { s.eng with faults := Tbl.set (fun _ => []) s.eng.faults cl (Tbl.get (fun _ => []) s.eng.faults cl).tail }
  else s

/-- CLU_FAULT_POP (R178). -/
def execCluFaultPop (cl : BitVec 6) (v : BitVec 32) (s : State) : Res :=
  done (s.atChip (clusterChip cl.toNat) (fun s => s.faultPop cl.toNat v))

/-- Word n of CLU_RUNNING or CLU_FAULTED (R179). -/
def State.threadMap (s : State) (p : Thread → Bool) (cl n : Nat) : Word :=
  BitVec.ofNat 32 ((List.range 32).foldl (fun a i => a + (if p (s.thread (cl * 512 + n * 32 + i)) then 2 ^ i else 0)) 0)

/-! ## Configuration (R165) -/

/-- The buffers' books under new SLOTS, SHARE and COUNT (R164, R165): in the order of the threads a slot keeps what it holds up to
its share, as far as unallocated buffers remain; the rest is the pool (DESIGN CHOICE, log entry 24: what a slot holds above its new
share). -/
def State.trimBuffers (cl slots share count : Nat) (s : State) : State :=
  let r := (clusterThreads cl).foldl (fun (r : Nat × State) th =>
    let t := r.2.thread th
    let keep := if th % 8 < slots then min (min t.bufHeld share) r.1 else 0
    (r.1 - keep, r.2.setThread th { t with bufHeld := keep })) (count - s.fld F.CLU_BUF_STAT.ALLOCATED cl, s)
  r.2.setFld F.CLU_BUF_STAT.POOL cl r.1

/-- Buffers that a new COUNT does not have are allocated no longer (DESIGN CHOICE, log entry 24). -/
def State.cutBuffers (cl count : Nat) (s : State) : State :=
  let l := (s.bufList cl).filter (fun e => (List.range count).any (fun k => bufAddr count k == e.1))
  (s.setBufList cl l).setFld F.CLU_BUF_STAT.ALLOCATED cl l.length

/-- Shares stay within the credits and the buffers (R165). -/
def sharesFit (slots credits count buffers : Nat) : Bool :=
  decide (64 * slots * credits ≤ 1024 ∧ 64 * slots * buffers ≤ count)

/-- A write of CLU_CTL (R165, R178). -/
def State.cluCtlWrite (s : State) (cl : Nat) (v : Word) : State :=
  let n := fieldOf v 3 0
  if n = 0 ∨ 8 < n ∨ sharesFit n (s.fld F.CLU_CREDIT_CTL.SHARE cl) (s.fld F.CLU_BUF_CTL.COUNT cl)
      (s.fld F.CLU_BUF_CTL.SHARE cl) = false then s
  else
    let s := s.trimCredits cl n (s.fld F.CLU_CREDIT_CTL.SHARE cl)
    (s.trimBuffers cl n (s.fld F.CLU_BUF_CTL.SHARE cl) (s.fld F.CLU_BUF_CTL.COUNT cl)).setFld F.CLU_CTL.SLOTS cl n

/-- The shares of a CLU_CREDIT_CTL word fit the credits (R165). -/
def State.creditFits (s : State) (cl : Nat) (v : Word) : Bool := sharesFit (s.fld F.CLU_CTL.SLOTS cl) (fieldOf v 4 0) 0 0

/-- A CLU_CREDIT_CTL write takes effect (R163, R165). -/
def State.creditTake (s : State) (cl : Nat) (v : Word) : State :=
  s.when (s.creditFits cl v) (fun s => (s.trimCredits cl (s.fld F.CLU_CTL.SLOTS cl) (fieldOf v 4 0)).writeTyped .CLU_CREDIT_CTL cl v)

/-- The state with the waiting CLU_CREDIT_CTL write of a cluster replaced. -/
def State.setCreditPend (s : State) (cl : Nat) (v : Option Word) : State :=
  s.putEng { s.eng with creditPend := Tbl.set (fun _ => none) s.eng.creditPend cl v }

/-- A write of CLU_CREDIT_CTL: it waits while credits are in flight; one whose shares do not fit has no effect (R165). -/
def State.creditCtlWrite (s : State) (cl : Nat) (v : Word) : State :=
  if s.creditFits cl v = false then s
  else if 0 < s.fld F.CLU_CREDIT_STAT.INFLIGHT cl then s.setCreditPend cl (some v) else s.creditTake cl v

/-- A write of CLU_BUF_CTL (R164, R165): held, allocated and pool make COUNT again.  A COUNT above 1,024 has no effect (DESIGN
CHOICE, log entry 24). -/
def State.bufCtlWrite (s : State) (cl : Nat) (v : Word) : State :=
  let n := fieldOf v 10 0
  if sharesFit (s.fld F.CLU_CTL.SLOTS cl) 0 n (fieldOf v 15 11) && decide (n ≤ 1024) then
    let s := if n = s.fld F.CLU_BUF_CTL.COUNT cl then s else s.cutBuffers cl n
    (s.trimBuffers cl (s.fld F.CLU_CTL.SLOTS cl) (fieldOf v 15 11) n).writeTyped .CLU_BUF_CTL cl v
  else s

/-- A write of a cluster configuration register (R165). -/
def State.cluCfgWrite (s : State) (cl : Nat) (which : CluCfg) (v : Word) : State :=
  match which with
  | .entry => s.setFld F.CLU_ENTRY.PC cl (fieldOf v 19 2 * 4)
  | .ctl => s.when (s.clusterStopped cl) (fun s => s.cluCtlWrite cl v)
  | .credit => s.when (s.clusterStopped cl) (fun s => s.creditCtlWrite cl v)
  | .buf => s.when (s.clusterStopped cl) (fun s => s.bufCtlWrite cl v)

/-- CLU_CONFIG_WRITE (R165). -/
def execCluConfigWrite (cl : BitVec 6) (which : CluCfg) (v : BitVec 32) (s : State) : Res :=
  done (s.atChip (clusterChip cl.toNat) (fun s => s.cluCfgWrite cl.toNat which v))

/-- CREDIT_CTL_APPLY (R165): the in-flight book is zero. -/
def execCreditCtlApply (cl : BitVec 6) (s : State) : Res :=
  match Tbl.get (fun _ => none) s.eng.creditPend cl.toNat with
  | none => done s
  | some v =>
    if 0 < s.fld F.CLU_CREDIT_STAT.INFLIGHT cl.toNat then done s
    else done ((s.setCreditPend cl.toNat none).creditTake cl.toNat v)

/-! ## Threads that wait -/

/-- Threads whose run state satisfies p. -/
def State.waiting (s : State) (p : Wait → Bool) : List Nat :=
  (s.eng.thr.filter (fun e => match e.2.run with | .stalled w => p w | _ => false)).map (fun e => e.1)

/-- A round unit's work: its key in the table. -/
def roundKey (eng : Nat) (u : Bool) : Nat := eng * 2 + b2n u

/-- The work of a round unit. -/
def State.roundWork (s : State) (k : Nat) : Option RoundWork := Tbl.get (fun _ => none) s.eng.round k

/-- The state with a round unit's work replaced. -/
def State.setRound (s : State) (k : Nat) (w : Option RoundWork) : State :=
  s.putEng { s.eng with round := Tbl.set (fun _ => none) s.eng.round k w }

/-- The result of a round unit reaches its block register (R122). -/
def State.roundWrite (s : State) (w : RoundWork) : State :=
  match w.th with
  | none => s
  | some th =>
    let t := s.thread th
    s.setThread th { (t.setBr w.bd w.res) with bBusy := t.bBusy &&& ~~~((1 : BitVec 8) <<< w.bd.toNat) }

/-- ROUND_UNIT_DONE (R122): the result is written, the unit is free, and waiting threads of the engine go on. -/
def execRoundUnitDone (eng : Nat) (u : Bool) (s : State) : Res :=
  match s.roundWork (roundKey eng u) with
  | none => done s
  | some w =>
    let s := (s.setRound (roundKey eng u) none).roundWrite w
    done (s.makeReadyAll ((s.waiting (fun x => x == .round)).filter (fun th => thEngine th == eng)))

/-- A fetched entry is bad (R333): counted, reported, and every waiting thread takes a key fault. -/
def State.keyBad (s : State) (board idx : Nat) (l : List Nat) : State :=
  let s := (s.satInc F.BRD_KEY_BADCHK.COUNT board 1).event (boardChip board) 0x014 0x0502 sevError idx
  l.foldl (fun s th => s.threadFault th fcKey 0) s

/-- KEY_FETCH_DONE (R173, R328, R333): the entry is read and CHECK passes, and the cache takes it, or the fetch fails. -/
def execKeyFetchDone (board : BitVec 3) (index : BitVec 20) (readOk : Bool) (s : State) : Res :=
  let b := board.toNat
  let i := index.toNat
  if s.keys.fetch.contains (b, i) = false then done s
  else
    let s := s.putKeys { s.keys with fetch := s.keys.fetch.erase (b, i) }
    let l := (s.waiting (fun x => x == .key index)).filter (fun th => thBoard th == b && !isMgmt th)
    let r := s.hbmTouch [(keyOff i, 64)]
    if readOk && r.1 && s.keyChecks i then done ((r.2.keyFill b i (s.keyFetched i)).makeReadyAll l)
    else done (r.2.keyBad b i l)

end Sys2Proof.Machine
end

