-- ==== Sys2Proof/Machine/Coherence.lean ====
section
/-! DEFINITION. The shared-state caches and the homes of their lines, message by message (04, R167 to R177).  The data of a
line stand once, in `hbm.mem`; the messages move its state in the caches and the directory. -/
namespace Sys2Proof.Machine

/-- A line of HBM in range, while HBM is mapped (R19). -/
def State.cohLine (s : State) (line : Nat) : Bool := s.hbmMapped && decide (line * 64 < hbmSize)

/-- Shared-state cache requests that wait in a Bank's home queues, for HBM_HOME_STATUS.QDEPTH (R180). -/
def State.homeDepth (s : State) (bank : Nat) : Nat :=
  ((s.hbm.home.filter (fun e => homeBank e.1 == bank)).map (fun e => e.2.wait.length)).foldl (· + ·) 0

/-- The Boards of a mask in the order from P on (R171). -/
def rankBoards (p : Nat) (m : BitVec 8) : List Nat := ((List.range 8).map (fun k => (p + k) % 8)).filter (fun b => m.getLsbD b)

/-- Requests that a Board has outstanding to a Bank's home (R169). -/
def State.homeOut (s : State) (bank board : Nat) : Nat :=
  ((s.hbm.home.filter (fun e => homeBank e.1 == bank)).map (fun e =>
    b2n (match e.2.txn with | some t => t.board.toNat == board | none => false)
      + (e.2.wait.filter (fun w => w.1.toNat == board)).length)).foldl (· + ·) 0

/-- A Board sends its home a request: it is reachable and has fewer than 128 outstanding there (R22, R169). -/
def State.mayAsk (s : State) (bank board : Nat) : Bool := s.reachable (boardChip board) && decide (s.homeOut bank board < 128)

/-- The request of a Board among those of one clock. -/
def askOf (rds rdo : BitVec 8) (b : Nat) : CohReq := if rds.getLsbD b then .rds else if rdo.getLsbD b then .rdo else .upg

/-- The message of a request. -/
def askKind : CohReq → Nat
  | .rds => cohRds
  | .rdo => cohRdo
  | .upg => cohUpg

/-- Requests for one line that reach the home in one clock, ranked by P (R168, R169, R171); a Board sends one of them. -/
def State.cohAsk (s : State) (rds rdo upg : BitVec 8) (line : Nat) : State :=
  let k := homeBank line
  let l := (rankBoards (s.fld F.HBM_HOME_STATUS.PRIO k) (rds ||| rdo ||| upg)).filter (s.mayAsk k)
  s.when (s.cohLine line && s.homesUp (line * 64) 64 && !l.isEmpty) (fun s =>
    let s := if 2 ≤ l.length then (s.satInc F.HBM_HOME_TIES.COUNT k 1).setFld F.HBM_HOME_STATUS.PRIO k (l.headD 0 + 1) else s
    let h := s.homeLine line
    let s := s.setHomeLine line { h with wait := h.wait ++ l.map (fun b => (BitVec.ofNat 3 b, askOf rds rdo b)) }
    l.foldl (fun s b => s.emit (.coh (askKind (askOf rds rdo b)) b line)) (s.cohServe line))

/-- RDS (R168, R171): with the RDOs and UPGs for the line that reach the home in the same clock. -/
def execRds (boards rdo upg : BitVec 8) (line : BitVec 31) (s : State) : Res := done (s.cohAsk boards rdo upg line.toNat)

/-- RDO (R168, R171): with the UPGs of the same clock. -/
def execRdo (boards upg : BitVec 8) (line : BitVec 31) (s : State) : Res := done (s.cohAsk 0 boards upg line.toNat)

/-- UPG (R168, R171). -/
def execUpg (boards : BitVec 8) (line : BitVec 31) (s : State) : Res := done (s.cohAsk 0 0 boards line.toNat)

/-- WB (R168, R172): the line goes to I, the home absorbs the data and owes an ACK_WB. -/
def execWb (board : BitVec 3) (line : BitVec 31) (s : State) : Res :=
  let b := board.toNat
  let n := line.toNat
  done (s.when (s.lineSt b n == .m) (fun s => s.writeBack b n))

/-- ACK_WB (R168, R169). -/
def execAckWb (board : BitVec 3) (line : BitVec 31) (s : State) : Res :=
  if s.hbm.acks.contains (board.toNat, line.toNat) then
    done (State.emit (s.putHbm { s.hbm with acks := s.hbm.acks.erase (board.toNat, line.toNat) })
      (.coh cohAckWb board.toNat line.toNat))
  else done s

/-- EVC (R167, R168): a clean line is dropped. -/
def execEvc (board : BitVec 3) (line : BitVec 31) (s : State) : Res :=
  let b := board.toNat
  let n := line.toNat
  done (s.when (s.lineSt b n == .s || s.lineSt b n == .e) (fun s => s.evictClean b n))

/-- The open transaction of a line has all its answers and belongs to a Board. -/
def State.cohReady (s : State) (board line : Nat) (p : CohReq → Bool) : Bool :=
  match (s.homeLine line).txn with
  | some t => t.await == 0 && t.board.toNat == board && p t.req
  | none => false

/-- DATA_S (R168): the requester of an RDS holds the line in S. -/
def execDataS (board : BitVec 3) (line : BitVec 31) (s : State) : Res :=
  done (s.when (s.cohReady board.toNat line.toNat (fun r => r == .rds)) (fun s => s.cohShare board.toNat line.toNat))

/-- DATA_E (R168): the requester of an RDO holds the line in E. -/
def execDataE (board : BitVec 3) (line : BitVec 31) (s : State) : Res :=
  done (s.when (s.cohReady board.toNat line.toNat (fun r => r == .rdo)) (fun s => s.cohOwn board.toNat line.toNat cohDataE))

/-- GRANT (R168): the requester of an UPG owns the line. -/
def execGrant (board : BitVec 3) (line : BitVec 31) (s : State) : Res :=
  done (s.when (s.cohReady board.toNat line.toNat (fun r => r == .upg)) (fun s => s.cohOwn board.toNat line.toNat cohGrant))

/-- The Board is one to which the open transaction has still to send. -/
def State.cohSends (s : State) (board line : Nat) : Bool :=
  match (s.homeLine line).txn with
  | some t => t.send.getLsbD board
  | none => false

/-- The home sends INV or FETCH to a Board. -/
def State.cohSend (s : State) (board line kind : Nat) : State :=
  match (s.homeLine line).txn with
  | some t =>
    (s.setHomeLine line { s.homeLine line with txn := some { t with send := t.send &&& ~~~((1 : BitVec 8) <<< board) } }).emit
      (.coh kind board line)
  | none => s

/-- The open transaction asks by FETCH. -/
def State.cohFetches (s : State) (line : Nat) : Bool :=
  match (s.homeLine line).txn with | some t => t.fetch | none => false

/-- INV (R168, R170). -/
def execInv (board : BitVec 3) (line : BitVec 31) (s : State) : Res :=
  done (s.when (s.cohSends board.toNat line.toNat && !s.cohFetches line.toNat) (fun s => s.cohSend board.toNat line.toNat cohInv))

/-- FETCH (R168). -/
def execFetch (board : BitVec 3) (line : BitVec 31) (s : State) : Res :=
  done (s.when (s.cohSends board.toNat line.toNat && s.cohFetches line.toNat) (fun s => s.cohSend board.toNat line.toNat cohFetch))

/-- An answer to INV or FETCH is awaited from the Board, that message has been sent, and the Board has completed the access that
brought it the line (R170). -/
def State.cohAwaits (s : State) (board line : Nat) : Bool :=
  match (s.homeLine line).txn with
  | some t => t.await.getLsbD board && !t.send.getLsbD board && s.dueOf board line == 0
  | none => false

/-- The awaited answer of a Board has come. -/
def State.cohAnswered (s : State) (board line : Nat) : State :=
  match (s.homeLine line).txn with
  | some t => s.setHomeLine line { s.homeLine line with txn := some { t with await := t.await &&& ~~~((1 : BitVec 8) <<< board) } }
  | none => s

/-- ACK_INV (R168): the Board has dropped the line. -/
def execAckInv (board : BitVec 3) (line : BitVec 31) (s : State) : Res :=
  let b := board.toNat
  let n := line.toNat
  done (s.when (s.cohAwaits b n && !s.cohFetches n) (fun s =>
    (((s.setLine b n .i).dirDrop b n).cohAnswered b n).emit (.coh cohAckInv b n)))

/-- The request of the open transaction is an RDS. -/
def State.cohIsRds (s : State) (line : Nat) : Bool :=
  match (s.homeLine line).txn with | some t => t.req == .rds | none => false

/-- DATA_F (R168): the owner still holds the line and goes to S for an RDS, to I for an RDO. -/
def execDataF (board : BitVec 3) (line : BitVec 31) (s : State) : Res :=
  let b := board.toNat
  let n := line.toNat
  done (s.when (s.cohAwaits b n && s.cohFetches n && s.lineSt b n != .i) (fun s =>
    let s := if s.cohIsRds n then (s.setLine b n .s).setDir n (.shared (1 <<< b)) else (s.setLine b n .i).setDir n .uncached
    (s.cohAnswered b n).emit (.coh cohDataF b n)))

/-- NONE_F (R168, R172): the owner holds the line no longer. -/
def execNoneF (board : BitVec 3) (line : BitVec 31) (s : State) : Res :=
  let b := board.toNat
  let n := line.toNat
  done (s.when (s.cohAwaits b n && s.cohFetches n && s.lineSt b n == .i) (fun s => (s.cohAnswered b n).emit (.coh cohNoneF b n)))

/-- HOME_QUEUE_SERVE (R169). -/
def execHomeQueueServe (line : BitVec 31) (s : State) : Res := done (s.cohServe line.toNat)

/-! ## Accesses by other agents (R173, R174) -/

/-- The chiplet of a requester. -/
def reqChip : Requester → Nat
  | .pf1 ep => bankChip (ep.toNat / 8)
  | .thread th => thChip th
  | .dma ch => boardChip (ch / 128)
  | .firmware => 0
  | .host inst => bankChip (inst / 1025 / 8)
  | .debug => 0

/-- The Board signals SSC_UE (R174, R176, R177). -/
def State.sscError (s : State) (board : Nat) : State :=
  if s.flag F.BRD_STATUS.SSC_UE board then s
  else
    let s := s.setFld F.BRD_STATUS.SSC_UE board 1
    if s.flag F.BRD_INT_EN.SSC_UE_EN board then s.emit (.hdwInterrupt (grpOf (boardChip board) 0x010)) else s

/-- LINE_POISON (R174): a line in M is found uncorrectable. -/
def execLinePoison (board : BitVec 3) (line : BitVec 31) (s : State) : Res :=
  let b := board.toNat
  let n := line.toNat
  if s.lineSt b n == .m then done (((s.setLine b n .i).poisonLine n).sscError b) else done s

/-- The directory records a Board as the owner of a line. -/
def State.homeOwner (s : State) (board line : Nat) : Bool :=
  match s.dirOf line with | .owned b => b.toNat == board | _ => false

/-- Every line a fenced Board owned is poisoned, and its other lines are dropped (R174). -/
def State.fenceLines (s : State) (board : Nat) : State :=
  (s.boardLines board).foldl (fun s n =>
    let m := s.homeOwner board n
    let s := ((s.setLine board n .i).setDue board n 0).dirDrop board n
    if m then s.poisonLine n else s) s

/-- SSC_FLUSH (R177). -/
def execSscFlush (board : BitVec 3) (s : State) : Res :=
  done (s.atChip (boardChip board.toNat) (fun s => s.setFld F.BRD_SSC_CTL.FLUSH board.toNat 1))

/-- SSC_FLUSH_DONE (R175, R177): every line is written back and invalidated, and FLUSH reads 0. -/
def execSscFlushDone (board : BitVec 3) (s : State) : Res :=
  let b := board.toNat
  if s.flag F.BRD_SSC_CTL.FLUSH b then
    done (((s.boardLines b).foldl (fun s n => if s.lineSt b n == .m then s.writeBack b n else s.evictClean b n) s).setFld
      F.BRD_SSC_CTL.FLUSH b 0)
  else done s

end Sys2Proof.Machine
end

