-- ==== Sys2Proof/Machine/Signature.lean ====
section
/-! DEFINITION. The digest and the signature the spec names by their standards: SHA-384 (R192, R515, R522, R554; FIPS 180-4) and the
verification of an ECDSA P-384 signature, r then s (R192, R515, R555; FIPS 186-5, curve of NIST SP 800-186). -/
namespace Sys2Proof.Machine

/-! ## SHA-384 -/

/-- The round constants of SHA-512, 0 to 39. -/
def shaK0 : List (BitVec 64) :=
  [0x428A2F98D728AE22, 0x7137449123EF65CD, 0xB5C0FBCFEC4D3B2F, 0xE9B5DBA58189DBBC,
   0x3956C25BF348B538, 0x59F111F1B605D019, 0x923F82A4AF194F9B, 0xAB1C5ED5DA6D8118,
   0xD807AA98A3030242, 0x12835B0145706FBE, 0x243185BE4EE4B28C, 0x550C7DC3D5FFB4E2,
   0x72BE5D74F27B896F, 0x80DEB1FE3B1696B1, 0x9BDC06A725C71235, 0xC19BF174CF692694,
   0xE49B69C19EF14AD2, 0xEFBE4786384F25E3, 0x0FC19DC68B8CD5B5, 0x240CA1CC77AC9C65,
   0x2DE92C6F592B0275, 0x4A7484AA6EA6E483, 0x5CB0A9DCBD41FBD4, 0x76F988DA831153B5,
   0x983E5152EE66DFAB, 0xA831C66D2DB43210, 0xB00327C898FB213F, 0xBF597FC7BEEF0EE4,
   0xC6E00BF33DA88FC2, 0xD5A79147930AA725, 0x06CA6351E003826F, 0x142929670A0E6E70,
   0x27B70A8546D22FFC, 0x2E1B21385C26C926, 0x4D2C6DFC5AC42AED, 0x53380D139D95B3DF,
   0x650A73548BAF63DE, 0x766A0ABB3C77B2A8, 0x81C2C92E47EDAEE6, 0x92722C851482353B]

/-- The round constants of SHA-512, 40 to 79. -/
def shaK1 : List (BitVec 64) :=
  [0xA2BFE8A14CF10364, 0xA81A664BBC423001, 0xC24B8B70D0F89791, 0xC76C51A30654BE30,
   0xD192E819D6EF5218, 0xD69906245565A910, 0xF40E35855771202A, 0x106AA07032BBD1B8,
   0x19A4C116B8D2D0C8, 0x1E376C085141AB53, 0x2748774CDF8EEB99, 0x34B0BCB5E19B48A8,
   0x391C0CB3C5C95A63, 0x4ED8AA4AE3418ACB, 0x5B9CCA4F7763E373, 0x682E6FF3D6B2B8A3,
   0x748F82EE5DEFB2FC, 0x78A5636F43172F60, 0x84C87814A1F0AB72, 0x8CC702081A6439EC,
   0x90BEFFFA23631E28, 0xA4506CEBDE82BDE9, 0xBEF9A3F7B2C67915, 0xC67178F2E372532B,
   0xCA273ECEEA26619C, 0xD186B8C721C0C207, 0xEADA7DD6CDE0EB1E, 0xF57D4F7FEE6ED178,
   0x06F067AA72176FBA, 0x0A637DC5A2C898A6, 0x113F9804BEF90DAE, 0x1B710B35131C471B,
   0x28DB77F523047D84, 0x32CAAB7B40C72493, 0x3C9EBE0A15C9BEBC, 0x431D67C49C100D4C,
   0x4CC5D4BECB3E42B6, 0x597F299CFC657E2A, 0x5FCB6FAB3AD6FAEC, 0x6C44198C4A475817]

/-- The initial hash value of SHA-384. -/
def shaInit : List (BitVec 64) :=
  [0xCBBB9D5DC1059ED8, 0x629A292A367CD507, 0x9159015A3070DD17, 0x152FECD8F70E5939,
   0x67332667FFC00B31, 0x8EB44A8768581511, 0xDB0C2E0D64F98FA7, 0x47B5481DBEFA4FA4]

/-- A message padded to a multiple of 128 bytes: 0x80, zeros, and its length in bits. -/
def shaPad (l : List Byte) : List Byte :=
  l ++ [0x80] ++ List.replicate ((111 + 128 - l.length % 128) % 128) 0 ++ beBytes 16 (8 * l.length)

/-- The 80 words of the schedule of one block, newest first. -/
def shaWords (block : List Byte) : List (BitVec 64) :=
  let first := (List.range 16).map (fun i => BitVec.ofNat 64 (beNat ((block.drop (8 * i)).take 8)))
  (List.range 64).foldl (fun w _ =>
    let a := w.getD 14 0
    let b := w.getD 1 0
    let s0 := a.rotateRight 1 ^^^ a.rotateRight 8 ^^^ (a >>> 7)
    let s1 := b.rotateRight 19 ^^^ b.rotateRight 61 ^^^ (b >>> 6)
    (s1 + w.getD 6 0 + s0 + w.getD 15 0) :: w) first.reverse

/-- One round on the working variables a to h. -/
def shaRound (v : List (BitVec 64)) (kw : BitVec 64) : List (BitVec 64) :=
  match v with
  | [a, b, c, d, e, f, g, h] =>
    let s1 := e.rotateRight 14 ^^^ e.rotateRight 18 ^^^ e.rotateRight 41
    let s0 := a.rotateRight 28 ^^^ a.rotateRight 34 ^^^ a.rotateRight 39
    let t1 := h + s1 + ((e &&& f) ^^^ (~~~e &&& g)) + kw
    let t2 := s0 + ((a &&& b) ^^^ (a &&& c) ^^^ (b &&& c))
    [t1 + t2, a, b, c, d + t1, e, f, g]
  | _ => v

/-- The compression of one block. -/
def shaBlock (h : List (BitVec 64)) (block : List Byte) : List (BitVec 64) :=
  let v := (((shaK0 ++ shaK1).zip (shaWords block).reverse).map (fun x => x.1 + x.2)).foldl shaRound h
  (h.zip v).map (fun x => x.1 + x.2)

/-- SHA-384 of a list of bytes, as 48 bytes. -/
def sha384 (l : List Byte) : List Byte :=
  let m := shaPad l
  let h := (List.range (m.length / 128)).foldl (fun h i => shaBlock h ((m.drop (128 * i)).take 128)) shaInit
  (h.take 6).flatMap (fun w => beBytes 8 w.toNat)

/-! ## ECDSA P-384 -/

/-- The prime of the field. -/
def p384 : Nat := 2 ^ 384 - 2 ^ 128 - 2 ^ 96 + 2 ^ 32 - 1

/-- The order of the base point. -/
def p384Order : Nat :=
  0xFFFFFFFFFFFFFFFFFFFFFFFFFFFFFFFFFFFFFFFFFFFFFFFFC7634D81F4372DDF581A0DB248B0A77AECEC196ACCC52973

/-- The coefficient b of the curve y^2 = x^3 - 3x + b. -/
def p384B : Nat :=
  0xB3312FA7E23EE7E4988E056BE3F82D19181D9C6EFE8141120314088F5013875AC656398D8A2ED19D2A85C8EDD3EC2AEF

/-- The base point. -/
def p384Base : Nat × Nat :=
  (0xAA87CA22BE8B05378EB1C71EF320AD746E1D3B628BA79B9859F741E082542A385502F25DBF55296C3A545E3872760AB7,
   0x3617DE4A96262C6F5D9E98BF9292DC29F8F41DBD289A147CE9DA3113B5F0B8C00A60B1CE1D7E819D7A431D7C90EA0E5F)

/-- b to the power e modulo m, for e below 2^384. -/
def powMod (m b e : Nat) : Nat :=
  (List.range 384).foldl (fun a i => if e.testBit (383 - i) then a * a % m * b % m else a * a % m) 1

/-- A difference in the field. -/
def subP (a b : Nat) : Nat := (a + (p384 - b % p384)) % p384

/-- A point of the curve: x / z^2 and y / z^3; the point at infinity has z = 0. -/
structure CurvePoint where
  x : Nat
  y : Nat
  z : Nat
  deriving DecidableEq, Repr

/-- Twice a point. -/
def CurvePoint.twice (a : CurvePoint) : CurvePoint :=
  let zz := a.z * a.z % p384
  let yy := a.y * a.y % p384
  let xyy := a.x * yy % p384
  let m := 3 * subP a.x zz * (a.x + zz) % p384
  let x := subP (m * m) (8 * xyy)
  { x := x, y := subP (m * subP (4 * xyy) x) (8 * yy * yy), z := 2 * a.y * a.z % p384 }

/-- The sum of two points. -/
def CurvePoint.plus (a b : CurvePoint) : CurvePoint :=
  if a.z = 0 then b
  else if b.z = 0 then a
  else
    let za := a.z * a.z % p384
    let zb := b.z * b.z % p384
    let ua := a.x * zb % p384
    let ub := b.x * za % p384
    let sa := a.y * zb * b.z % p384
    let sb := b.y * za * a.z % p384
    if ua = ub then (if sa = sb then a.twice else { x := 1, y := 1, z := 0 })
    else
      let h := subP ub ua
      let r := subP sb sa
      let hh := h * h % p384
      let hhh := hh * h % p384
      let v := ua * hh % p384
      let x := subP (r * r) (hhh + 2 * v)
      { x := x, y := subP (r * subP v x) (sa * hhh), z := h * a.z * b.z % p384 }

/-- A multiple of a point, for k below 2^384. -/
def CurvePoint.times (a : CurvePoint) (k : Nat) : CurvePoint :=
  (List.range 384).foldl (fun r i => if k.testBit (383 - i) then r.twice.plus a else r.twice) { x := 1, y := 1, z := 0 }

/-- An affine point as a point of the curve. -/
def CurvePoint.ofAffine (q : Nat × Nat) : CurvePoint := { x := q.1, y := q.2, z := 1 }

/-- A public key: an affine point of the curve. -/
def onCurve (q : Nat × Nat) : Bool :=
  decide (q.1 < p384 ∧ q.2 < p384 ∧ q.2 * q.2 % p384 = subP (q.1 * q.1 * q.1 + p384B) (3 * q.1))

/-- The signature (r then s, 48 bytes each) of a 48-byte digest verifies under a public key. -/
def ecdsaVerify (q : Nat × Nat) (digest sig : List Byte) : Bool :=
  let r := beNat (sig.take 48)
  let s := beNat ((sig.drop 48).take 48)
  let w := powMod p384Order s (p384Order - 2)
  let t := ((CurvePoint.ofAffine p384Base).times (beNat digest * w % p384Order)).plus
    ((CurvePoint.ofAffine q).times (r * w % p384Order))
  onCurve q && decide (1 ≤ r ∧ r < p384Order ∧ 1 ≤ s ∧ s < p384Order ∧ t.z ≠ 0)
    && decide (t.x * powMod p384 (t.z * t.z % p384) (p384 - 2) % p384 % p384Order = r)

/-- The public key in a record: x then y, 48 bytes each, big-endian (DESIGN CHOICE: the spec gives the form of a signature and not of
a key; log entry 68). -/
def recordKey (l : List Byte) : Nat × Nat := (beNat (l.take 48), beNat ((l.drop 48).take 48))

end Sys2Proof.Machine
end

