-- ==== Sys2Proof/Machine/Microcode.lean ====
section
/-! DEFINITION. Microcode images, patches and refresh (05, R181 to R206). -/
namespace Sys2Proof.Machine

/-! ## Images (R190 to R193) -/

/-- The number that n bytes of a list spell from an offset, big-endian. -/
def rdAt (l : List Byte) (off n : Nat) : Nat := beNat ((l.drop off).take n)

/-- Offset of the microwords of an image. -/
def imgMicroAt (l : List Byte) : Nat := 0x40 + 4 * rdAt l 0x14 1

/-- Offset of the nanowords of an image. -/
def imgNanoAt (l : List Byte) : Nat := imgMicroAt l + 4 * rdAt l 0x10 2

/-- Offset of SIG. -/
def imgSigAt (l : List Byte) : Nat := imgNanoAt l + 16 * rdAt l 0x12 2

/-- A match entry satisfies R190. -/
def matchOk (w : Nat) : Bool :=
  decide (bits w 12 0 ≤ 0x1BFF ∧ 0x1C00 ≤ bits w 25 13 ∧ bits w 25 13 ≤ 0x1FFF) && bits w 30 26 == 0

/-- The counts fit the region of KIND (R181, R192): a base image holds no match entries. -/
def imgFits (l : List Byte) : Bool :=
  if rdAt l 4 1 = 1 then decide (rdAt l 0x10 2 ≤ 0x1C00 ∧ rdAt l 0x12 2 ≤ 0x380) && rdAt l 0x14 1 == 0
  else decide (rdAt l 0x10 2 ≤ 1024 ∧ rdAt l 0x12 2 ≤ 128 ∧ rdAt l 0x14 1 ≤ 64)

/-- Checks 2 and 3 of R193, and that the parts make up the image's length. -/
def imgFormat (l : List Byte) : Bool :=
  rdAt l 0 4 == 0x4D434931 && (rdAt l 4 1 == 1 || rdAt l 4 1 == 2) && rdAt l 7 1 == 0 && rdAt l 0xA 2 == 0
    && rdAt l 0x15 43 == 0 && imgFits l && (rdAt l 4 1 == 2 || (rdAt l 8 2 == 0 && rdAt l 0xC 4 == 0))
    && l.length == imgSigAt l + 96
    && (List.range (rdAt l 0x14 1)).all (fun i => matchOk (rdAt l (0x40 + 4 * i) 4))
    && (List.range (rdAt l 0x10 2)).all (fun i => rdAt l (imgMicroAt l + 4 * i) 1 == 0)

/-- The results of R206. -/
def mcOk : Nat := 0
/-- BADSIG (R206). -/
def mcBadSig : Nat := 1
/-- BADFORMAT (R206). -/
def mcBadFormat : Nat := 2
/-- BADBASE (R206). -/
def mcBadBase : Nat := 3
/-- OLDER (R206). -/
def mcOlder : Nat := 4
/-- PARTIAL (R206). -/
def mcPartial : Nat := 5

/-- SIG verifies under the Wenfali microcode key over every preceding byte (R192, R193). -/
def imgSigOk (l : List Byte) : Bool :=
  ecdsaVerify (Config.wenfaliKey 0) (sha384 (l.take (l.length - 96))) (l.drop (l.length - 96))

/-- The result of verifying an image against the loaded microcode, checks in the order of R193. -/
def imgVerdict (m : MicroCode) (l : List Byte) : Nat :=
  if imgSigOk l = false then mcBadSig
  else if imgFormat l = false then mcBadFormat
  else if rdAt l 4 1 = 1 then mcOk
  else if rdAt l 5 1 ≠ m.major.toNat ∨ rdAt l 6 1 ≠ m.minor.toNat then mcBadBase
  else if rdAt l 8 2 ≤ m.patch.toNat then mcOlder
  else mcOk

/-- n words of an image as table entries from an address. -/
def imgWords {w : Nat} (l : List Byte) (off size at_ n : Nat) (t : Tbl (BitVec w)) : Tbl (BitVec w) :=
  (List.range n).foldl (fun t i => Tbl.set (fun _ => 0) t (at_ + i) (BitVec.ofNat w (rdAt l (off + size * i) size))) t

/-- Entries below a key. -/
def below {β : Type} (k : Nat) (t : Tbl β) : Tbl β := t.filter (fun e => e.1 < k)

/-- The stores that an image makes of the loaded ones: a patch replaces the overlay and the match table (R190, R192). -/
def imgStore (l : List Byte) (m : MicroStore) : MicroStore :=
  let base := rdAt l 4 1 == 1
  { micro := imgWords l (imgMicroAt l) 4 (if base then 0 else 0x1C00) (rdAt l 0x10 2) (if base then [] else below 0x1C00 m.micro)
    nano := imgWords l (imgNanoAt l) 16 (if base then 0 else 0x380) (rdAt l 0x12 2) (if base then [] else below 0x380 m.nano)
    mtch := imgWords l 0x40 4 0 (rdAt l 0x14 1) [] }

/-- The microcode that an accepted image makes of the loaded one; an empty patch removes the loaded patch (R193). -/
def imgApply (l : List Byte) (m : MicroCode) : MicroCode :=
  let none_ := rdAt l 0x10 2 == 0 && rdAt l 0x12 2 == 0 && rdAt l 0x14 1 == 0
  { major := BitVec.ofNat 8 (rdAt l 5 1), minor := BitVec.ofNat 8 (rdAt l 6 1)
    patch := if none_ then 0 else BitVec.ofNat 16 (rdAt l 8 2), patchId := if none_ then 0 else BitVec.ofNat 32 (rdAt l 0xC 4)
    words := imgStore l m.words
    sums := if rdAt l 4 1 = 1 then (sha384 l, List.replicate 48 0) else (m.sums.1, if none_ then List.replicate 48 0 else sha384 l) }

/-! ## Verify and apply (R195 to R200) -/

/-- HDW_MC_STATUS.STATE: 0 IDLE, 1 VERIFYING, 2 VERIFIED, 3 APPLYING, 4 DONE. -/
def State.mcUnit (s : State) : Nat := s.fld F.HDW_MC_STATUS.STATE 0

/-- STATE and RESULT. -/
def State.mcSet (s : State) (st res : Nat) : State := (s.setFld F.HDW_MC_STATUS.STATE 0 st).setFld F.HDW_MC_STATUS.RESULT 0 res

/-- The staged image: HDW_MC_LEN bytes of the window. -/
def State.staged_ (s : State) : List Byte :=
  ((List.range ((s.fld F.HDW_MC_LEN.BYTES 0 + 3) / 4)).flatMap (fun i => beBytes 4 (s.rd .HDW_MC_WIN i).toNat)).take
    (s.fld F.HDW_MC_LEN.BYTES 0)

/-- A write of HDW_MC_CMD that the unit is too busy for (R199). -/
def State.mcReject (s : State) : State := s.setFld F.HDW_MC_STATUS.BUSY_REJ 0 1

/-- HDW_MC_CMD = 0b01 (R195). -/
def State.mcVerify (s : State) : State :=
  if s.mcUnit = 1 ∨ s.mcUnit = 3 then s.mcReject else s.setFld F.HDW_MC_STATUS.STATE 0 1

/-- VERIFY (R193, R195). -/
def execVerify (s : State) : Res :=
  done (s.atChip 0 (fun s => s.mcVerify))

/-- VERIFY_DONE (R193, R195). -/
def execVerifyDone (s : State) : Res :=
  if s.mcUnit ≠ 1 then done s
  else
    let l := s.staged_
    let r := if 16384 < s.fld F.HDW_MC_LEN.BYTES 0 then mcBadFormat else imgVerdict s.micro.master l
    if r = mcOk then done ((s.putMicro { s.micro with image := some (imgApply l s.micro.master) }).mcSet 2 mcOk)
    else done ((s.putMicro { s.micro with image := none }).mcSet 0 r)

/-- The cluster's bit of HDW_MC_FAIL. -/
def State.mcFail (s : State) (cl : Nat) : State :=
  s.wr64 .HDW_MC_FAIL .HDW_MC_FAIL_HI 0 (s.rd64 .HDW_MC_FAIL .HDW_MC_FAIL_HI 0 ||| 2 ^ cl)

/-- A cluster has been tried. -/
def State.mcTried (s : State) (cl : Nat) : State :=
  State.setFld (s.putMicro { s.micro with tried := s.micro.tried ++ [cl] }) F.HDW_MC_STATUS.TRIED 0 (s.micro.tried.length + 1)

/-- The next clusters of a Board: those of a fenced Board are skipped, another one quiesces (R195 to R197). -/
def State.mcNext (s : State) (board : Nat) : State :=
  let left := ((List.range 8).map (fun c => board * 8 + c)).filter (fun cl => !s.micro.tried.contains cl)
  if s.reachable (boardChip board) then
    match left with
    | cl :: _ => s.setFld F.MCODE_STATUS.STATE cl 1
    | [] => s
  else left.foldl (fun s cl => (s.mcFail cl).mcTried cl) s

/-- HDW_MC_CMD = 0b10 (R195). -/
def State.mcApply (s : State) : State :=
  if s.mcUnit = 1 ∨ s.mcUnit = 3 then s.mcReject
  else match s.mcUnit == 2, s.micro.image with
    | true, some m =>
      let s := s.putMicro { s.micro with master := m, old := some s.micro.master, image := none, tried := [] }
      let s := ((s.mcSet 3 mcOk).setFld F.HDW_MC_STATUS.TRIED 0 0).wr64 .HDW_MC_FAIL .HDW_MC_FAIL_HI 0 0
      (List.range 8).foldl State.mcNext s
    | _, _ => s

/-- APPLY (R195). -/
def execApply (s : State) : Res :=
  done (s.atChip 0 (fun s => s.mcApply))

/-- The stores of a cluster. -/
def State.mcStore (s : State) (cl : Nat) : MicroStore :=
  Tbl.get (fun _ => { micro := [], nano := [], mtch := [] }) s.micro.store cl

/-- The state with a cluster's stores replaced. -/
def State.setMcStore (s : State) (cl : Nat) (m : MicroStore) : State :=
  s.putMicro { s.micro with store := Tbl.set (fun _ => { micro := [], nano := [], mtch := [] }) s.micro.store cl m }

/-- A cluster takes a microcode: its stores and MCODE_VERSION. -/
def State.mcTake (s : State) (cl : Nat) (m : MicroCode) : State :=
  let s := (s.setMcStore cl m.words).setFld F.MCODE_VERSION.PATCH_ID cl m.patchId.toNat
  ((s.setFld F.MCODE_VERSION_HI.PATCH cl m.patch.toNat).setFld F.MCODE_VERSION_HI.MINOR cl m.minor.toNat).setFld
    F.MCODE_VERSION_HI.MAJOR cl m.major.toNat

/-- The words of a patch in a cluster (R190, R196): its overlay and match table; the base words stay. -/
def overlayOf (base new : MicroStore) : MicroStore :=
  { micro := below 0x1C00 base.micro ++ new.micro.filter (fun e => 0x1C00 ≤ e.1)
    nano := below 0x380 base.nano ++ new.nano.filter (fun e => 0x380 ≤ e.1)
    mtch := new.mtch }

/-- A reload of a cluster (R196): the overlay and the match table are written.  DESIGN CHOICE (log entry 23): a base image that was
applied through the window is written whole. -/
def State.mcReload (s : State) (cl : Nat) : State :=
  let m := s.micro.master
  let old := (s.micro.old.getD m).words
  if below 0x1C00 old.micro = below 0x1C00 m.words.micro ∧ below 0x380 old.nano = below 0x380 m.words.nano then
    s.mcTake cl { m with words := overlayOf (s.mcStore cl) m.words }
  else s.mcTake cl m

/-- A wait without a side effect, which a reload backs out (R196): RECV, EVWAIT, DMAW, PWAIT, a credit, a posted-store entry. -/
def Wait.backsOut : Wait → Bool
  | .recv _ _ => true
  | .event _ => true
  | .dma _ => true
  | .writes alone => alone
  | .stores entry => entry
  | .credit => true
  | _ => false

/-- Threads of a cluster that a reload backs out: they restart their instruction (R196). -/
def State.mcBackout (s : State) (cl : Nat) : State :=
  let l := (s.waiting Wait.backsOut).filter (fun th => thCluster th == cl)
  let again := fun (s : State) th => s.setThread th { s.thread th with mstack := [], instr := none, begun := false }
  ((l.foldl again s).makeReadyAll l).satInc F.MCODE_BACKOUT.COUNT cl l.length

/-- The words of two tables that differ. -/
def tblDiff {β : Type} [DecidableEq β] (d : β) (a b : Tbl β) : Nat :=
  (a.filter (fun e => decide (Tbl.get (fun _ => d) b e.1 ≠ e.2))).length
    + (b.filter (fun e => decide (Tbl.get (fun _ => d) a e.1 = d ∧ e.2 ≠ d))).length

/-- The master copy for the cluster's MCODE_VERSION: the old one until the apply at work has reached the cluster (R201). -/
def State.mcMasterFor (s : State) (cl : Nat) : MicroCode :=
  match s.micro.old with
  | some m => if s.micro.tried.contains cl then s.micro.master else m
  | none => s.micro.master

/-- The refresh of one cluster (R201): corrected words are counted and reported. -/
def State.mcRefresh (s : State) (cl : Nat) : State :=
  let m := (s.mcMasterFor cl).words
  let c := s.mcStore cl
  let n := tblDiff 0 c.micro m.micro + tblDiff 0 c.nano m.nano + tblDiff 0 c.mtch m.mtch
  let s := (s.setMcStore cl m).satInc F.MCODE_FIX.COUNT cl n
  if n = 0 then s else s.event (clusterChip cl) (cl % 8) 0x0603 sevCorrected n

/-- The refresh of a cluster as its firing's work begins; the work ends in the same command (R203: none in LOAD_ERR). -/
def State.mcWork (s : State) (cl : Nat) : State :=
  if s.mcState cl = 3 then s.workEnd (.microcode (BitVec.ofNat 6 cl)) 4
  else if s.mcState cl = 0 then (s.mcRefresh cl).workEnd (.microcode (BitVec.ofNat 6 cl)) 4
  else s.putMicro { s.micro with later := s.micro.later ++ [cl] }

/-- What waited for the end of a reload: a CLU_THREAD_CMD until RUN (R199), a refresh firing (R203). -/
def State.mcResume (s : State) (cl : Nat) : State :=
  let s := if s.mcState cl = 0 then (s.cmdsOf cl).foldl (fun s e => s.threadCmdDo e.1 e.2) (s.setCmds cl []) else s
  if s.micro.later.contains cl then
    State.mcWork (s.putMicro { s.micro with later := s.micro.later.filter (fun x => x != cl) }) cl
  else s

/-- The thread stops in a cluster that ends in LOAD_ERR (R134, R197). -/
def State.mcStopThread (s : State) (th : Nat) : State := (s.threadStopped th).threadEnd th

/-- A reload that fails twice (R197). -/
def State.mcLoadErr (s : State) (cl : Nat) : State :=
  let l := (s.eng.thr.filter (fun e => e.1 / 512 == cl && e.2.isStarted)).map (fun e => e.1)
  let s := l.foldl State.mcStopThread s
  ((s.setFld F.MCODE_STATUS.STATE cl 3).mcFail cl).event (clusterChip cl) (cl % 8) 0x0602 sevError 0

/-- RELOAD_QUIESCE_LIMIT (R196, R197, R199): waiting threads back out, the overlay is loaded and read back; `mismatch` is
how many read-backs differ.  The next cluster of the Board follows (R195). -/
def execReloadQuiesceLimit (cl : BitVec 6) (mismatch : BitVec 2) (s : State) : Res :=
  let c := cl.toNat
  if s.mcState c ≠ 1 then done s
  else
    let s := (s.mcBackout c).setFld F.MCODE_STATUS.STATE c 2
    let s := if mismatch.toNat < 2 then ((s.mcReload c).setFld F.MCODE_STATUS.STATE c 0).mcTried c
      else (s.mcLoadErr c).mcTried c
    done ((s.mcResume c).mcNext (c / 8))

/-- APPLY_DONE (R195). -/
def execApplyDone (s : State) : Res :=
  if s.mcUnit = 3 ∧ s.micro.tried.length = 64 then
    done ((s.putMicro { s.micro with old := none }).mcSet 4 (if s.rd64 .HDW_MC_FAIL .HDW_MC_FAIL_HI 0 = 0 then mcOk else mcPartial))
  else done s

/-- HDW_MC_CMD = 0b11 (R199): the staged image, its length and a verified image are gone. -/
def State.mcDiscard (s : State) : State :=
  if s.mcUnit = 1 ∨ s.mcUnit = 3 then s.mcReject
  else
    let s := s.resetRegs (fun r _ => r = .HDW_MC_WIN || r = .HDW_MC_LEN)
    (s.putMicro { s.micro with image := none }).setFld F.HDW_MC_STATUS.STATE 0 0

/-- DISCARD (R199). -/
def execDiscard (s : State) : Res :=
  done (s.atChip 0 (fun s => s.mcDiscard))

/-- A write of HDW_MC_CMD (R199, R206). -/
def State.mcCmdWrite (s : State) (v : Word) : State :=
  if s.mcUnit = 1 ∨ s.mcUnit = 3 then s.mcReject
  else match fieldOf v 1 0 with
  | 1 => s.mcVerify
  | 2 => s.mcApply
  | 3 => s.mcDiscard
  | _ => s

/-- A write of the staging window: none while verifying or applying. -/
def State.mcWinWrite (s : State) (i : Nat) (v : Word) : State :=
  if s.mcUnit = 1 ∨ s.mcUnit = 3 then s else s.wr .HDW_MC_WIN i v

/-- Start-up (R194): the base image and then the patch of the chosen flash slot, if the slot holds one; a refused patch is
logged.  Every cluster takes the result. -/
def State.mcBoot (s : State) (base patch : List Byte) : Bool × State :=
  if imgVerdict blankCode base ≠ mcOk ∨ rdAt base 4 1 ≠ 1 then (false, s)
  else
    let m := imgApply base blankCode
    let r := if patch.isEmpty then mcOk else imgVerdict m patch
    let m := if patch.isEmpty || r != mcOk then m else imgApply patch m
    let s := if r = mcOk then s else s.event 0 0x012 0x0601 sevError r
    let s := s.putMicro { s.micro with master := m }
    (true, ((List.range 64).filter (fun cl => !s.isFenced (clusterChip cl))).foldl (fun s cl => s.mcTake cl m) s)

end Sys2Proof.Machine
end

