-- ==== Sys2Proof/Machine/Rings.lean ====
section
/-! DEFINITION. The ring units of the Banks: doorbells, descriptors, the transmit and receive paths, completion, and the
arbitration between rings and instances (12, R415 to R429; 13, R448 to R450). -/
namespace Sys2Proof.Machine

/-! ## Instances as functions (R388, R444) -/

/-- The endpoint of an instance. -/
def instEp (n : Nat) : Nat := n / 1025

/-- The function of an instance: 0 PF0, f for VF f − 1. -/
def instFn (n : Nat) : Nat := n % 1025

/-- The Bank of an endpoint (R17). -/
def epBank (ep : Nat) : Nat := ep / 8

/-- The Bank of an instance. -/
def instBank (n : Nat) : Nat := epBank (instEp n)

/-- The chiplet of an instance. -/
def instChip (n : Nat) : Nat := bankChip (instBank n)

/-- A function exists (R388, R391). -/
def State.fnExists (s : State) (ep fn : Nat) : Bool :=
  if fn = 0 then decide (ep < 32)
  else if fn = pf1Fn then s.pf1Present ep
  else decide (ep < 32) && s.flag F.PCIE_SRIOV.VFE ep && decide (fn ≤ s.fld F.PCIE_SRIOV.NUMVFS ep)

/-- RNG_FN_FRZ.STATE of an instance (R457): 0 IDLE, 1 ACTIVE, 2 RESET, 3 FREEZING, 4 FROZEN, 5 RESTORING. -/
def State.insState (s : State) (n : Nat) : Nat := s.fld F.RNG_FN_FRZ.STATE n

/-- The instance may issue requests to its host (R394). -/
def State.insIssues (s : State) (n : Nat) : Bool := s.mayIssue (instEp n) (instFn n) && s.reachable (instChip n)

/-- The instance is a storage function (R358). -/
def State.isStorage (s : State) (n : Nat) : Bool := s.flag F.BNK_STO_PERS.EFFECT n

/-- An access of a host to a BAR register of an instance: Unsupported Request while Memory Space Enable is 0, the function
does not exist, or its Bank does not answer (R26, R394). -/
def State.hostReg (s : State) (n : Nat) (f : State → State) : State :=
  if s.fnExists (instEp n) (instFn n) && s.flag F.PCIE_CMD.MSE (fnKey (instEp n) (instFn n)) && s.reachable (instChip n) then
    (f s).answer .ok
  else s.answer .unsupportedRequest

/-! ## Token buckets (R448, R450) -/

/-- An empty bucket. -/
def bucketEmpty : TokBucket := { tok := 0, rem := 0, last := 0 }

/-- A bucket refilled: `unit` of rate × ns make a thousandth (R297). -/
def TokBucket.refillAt (b : TokBucket) (now rate unit size : Nat) : TokBucket :=
  let acc := b.rem + rate * (now - b.last)
  { tok := min (b.tok + ((acc / unit : Nat) : Int)) ((size * 1000 : Nat) : Int), rem := acc % unit, last := max now b.last }

/-- The byte bucket of an instance now: rate in kb/s, size in bytes. -/
def State.byteBucket (s : State) (n : Nat) : TokBucket :=
  (Tbl.get (fun _ => bucketEmpty) s.ring.bytes n).refillAt (s.mono (instChip n)) ((s.rd .RNG_FN_BW n).toNat * 1000) 8000
    (s.fld F.RNG_FN_BURST.KIB n * 1024)

/-- The frame bucket of an instance now: rate in thousands per second, size in frames. -/
def State.frameBucket (s : State) (n : Nat) : TokBucket :=
  (Tbl.get (fun _ => bucketEmpty) s.ring.frames n).refillAt (s.mono (instChip n)) (s.rd .RNG_FN_PPS n).toNat 1000
    (s.fld F.RNG_FN_BURST.FRAMES n)

/-- The doorbell bucket of an instance now: size 16. -/
def State.bellBucket (s : State) (n : Nat) : TokBucket :=
  (Tbl.get (fun _ => bucketEmpty) s.ring.bells n).refillAt (s.mono (instChip n)) (s.fld F.RNG_FN_DBRATE.KDBS n) 1000 16

/-- Both transmit buckets hold at least zero; a rate of 0 does not limit (R448). -/
def State.txAllowed (s : State) (n : Nat) : Bool :=
  (s.rd .RNG_FN_BW n == 0 || decide (0 ≤ (s.byteBucket n).tok)) && (s.rd .RNG_FN_PPS n == 0 || decide (0 ≤ (s.frameBucket n).tok))

/-- A transmit data read starts: LEN bytes and one frame are debited (R448). -/
def State.txDebit (s : State) (n len : Nat) : State :=
  let b := s.byteBucket n
  let f := s.frameBucket n
  (s.putRing { s.ring with
      bytes := Tbl.set (fun _ => bucketEmpty) s.ring.bytes n (if s.rd .RNG_FN_BW n = 0 then b else { b with tok := b.tok - 1000 * len })
      frames := Tbl.set (fun _ => bucketEmpty) s.ring.frames n (if s.rd .RNG_FN_PPS n = 0 then f else { f with tok := f.tok - 1000 }) })

/-- A doorbell token is available (R450). -/
def State.bellReady (s : State) (n : Nat) : Bool := s.fld F.RNG_FN_DBRATE.KDBS n == 0 || decide (1000 ≤ (s.bellBucket n).tok)

/-- A doorbell takes its token. -/
def State.bellTake (s : State) (n : Nat) : State :=
  if s.fld F.RNG_FN_DBRATE.KDBS n = 0 then s
  else
    let b := s.bellBucket n
    (s.putRing { s.ring with bells := Tbl.set (fun _ => bucketEmpty) s.ring.bells n { b with tok := b.tok - 1000 } })

/-! ## Rings: registers, indices, doorbells (R417 to R420) -/

/-- The index of the RING_ registers of a queue. -/
def ringIdx (n q : Nat) : Nat := n * 64 + q

/-- The queue exists: 0, or any in service mode (R416); a storage function has none. -/
def State.hasQueue (s : State) (n q : Nat) : Bool :=
  !s.isStorage n && (q == 0 || (s.flag F.RNG_FN_CTL.SVC_EFF n && decide (q < 64)))

/-- The queue is armed. -/
def State.armed (s : State) (n q : Nat) : Bool := s.flag F.RING_ARM.ARMED (ringIdx n q)

/-- The size exponent of a ring. -/
def State.ringLog (s : State) (n q : Nat) (rx : Bool) : Nat :=
  if rx then s.fld F.RING_SIZE.RXLOG (ringIdx n q) else s.fld F.RING_SIZE.TXLOG (ringIdx n q)

/-- The host address of a ring's entry 0. -/
def State.ringBase (s : State) (n q : Nat) (rx : Bool) : Nat :=
  if rx then s.rd64 .RING_RXBASE .RING_RXBASE_HI (ringIdx n q) else s.rd64 .RING_TXBASE .RING_TXBASE_HI (ringIdx n q)

/-- The host address of descriptor i. -/
def State.descAddr (s : State) (n q : Nat) (rx : Bool) (i : Nat) : Nat := s.ringBase n q rx + i % 2 ^ s.ringLog n q rx * 32

/-- A difference of 16-bit indices. -/
def sub16 (a b : Nat) : Nat := (a + 65536 - b % 65536) % 65536

/-- A doorbell value is accepted, or counted as rejected (R419). -/
def State.bellApply (s : State) (n q : Nat) (rx : Bool) (v : Nat) : State :=
  let k := ringKey n q rx
  let r := s.ringOf k
  if sub16 r.t r.h ≤ sub16 v r.h ∧ sub16 v r.h ≤ 2 ^ s.ringLog n q rx - 1 then s.setRing k { r with t := v }
  else s.satInc F.RNG_FN_DBREJ.COUNT n 1

/-- The pending doorbell of a ring is latched; a replacement is counted (R450). -/
def State.bellLatch (s : State) (n q : Nat) (rx : Bool) (v : Nat) : State :=
  let k := ringKey n q rx
  let r := s.ringOf k
  (s.setRing k { r with pend := some v }).satInc F.INS_DB_MERGE.COUNT n (b2n r.pend.isSome)

/-- A doorbell write (R419, R450, R458). -/
def State.doorbell (s : State) (n q : Nat) (rx : Bool) (v : Nat) : State :=
  if s.insState n = 2 then s
  else if s.hasQueue n q = false ∨ s.armed n q = false then s.satInc F.RNG_FN_DBREJ.COUNT n 1
  else if s.insState n ≠ 1 ∨ (s.ringOf (ringKey n q rx)).pend.isSome ∨ s.bellReady n = false then s.bellLatch n q rx v
  else (s.bellTake n).bellApply n q rx v

/-- RING_TXDB (R419). -/
def execRingTxdb (inst : Nat) (q : BitVec 6) (v : BitVec 32) (s : State) : Res :=
  done (s.hostReg inst (fun s => s.doorbell inst q.toNat false (fieldOf v 15 0)))

/-- RING_RXDB (R419). -/
def execRingRxdb (inst : Nat) (q : BitVec 6) (v : BitVec 32) (s : State) : Res :=
  done (s.hostReg inst (fun s => s.doorbell inst q.toNat true (fieldOf v 15 0)))

/-- The pending doorbell of a ring is applied. -/
def State.bellPend (s : State) (n q : Nat) (rx : Bool) : State :=
  let k := ringKey n q rx
  let r := s.ringOf k
  match r.pend with
  | some v => (s.setRing k { r with pend := none }).bellApply n q rx v
  | none => s

/-- The ring registers of a queue allow an ARM (R418). -/
def State.armFits (s : State) (n q : Nat) : Bool :=
  let i := ringIdx n q
  let inLog := fun l => decide (6 ≤ l ∧ l ≤ 16)
  s.hasQueue n q && inLog (s.fld F.RING_SIZE.TXLOG i) && inLog (s.fld F.RING_SIZE.RXLOG i)
    && decide (1 ≤ s.fld F.RING_WRR.WEIGHT i ∧ 1 ≤ s.fld F.RING_WRR.BURST i ∧ s.fld F.RING_WRR.BURST i ≤ 64)

/-- A write of RING_ARM (R418, R457): REJ is cleared by 1; ARM takes effect as R418 says.  DESIGN CHOICE (log entry 44): an ARM of a
queue that is armed already, or of an instance in RESET, sets REJ and changes nothing else. -/
def State.ringArm (s : State) (n q : Nat) (v : Word) : State :=
  let i := ringIdx n q
  let s := if bit v.toNat 2 then s.setFld F.RING_ARM.REJ i 0 else s
  if bit v.toNat 0 = false then s
  else if s.armFits n q = false ∨ s.armed n q ∨ s.insState n = 2 then s.setFld F.RING_ARM.REJ i 1
  else
    let s := (s.setRing (ringKey n q false) ringReset).setRing (ringKey n q true) ringReset
    let s := s.setFld F.RING_ARM.ARMED i 1
    if s.insState n = 0 then s.setFld F.RNG_FN_FRZ.STATE n 1 else s

/-- RING_ARM (R418). -/
def execRingArm (inst : Nat) (q : BitVec 6) (v : BitVec 32) (s : State) : Res :=
  done (s.hostReg inst (fun s => s.ringArm inst q.toNat v))

/-- A host write of a ring configuration register (R12, R418): no effect while ARMED is 1, and REJ is set. -/
def State.ringRegWrite (s : State) (r : Reg) (i : Nat) (v : Word) : State :=
  if r = .RING_TXBASE ∨ r = .RING_RXBASE then s.setStage r i (some v)
  else if s.flag F.RING_ARM.ARMED i then s.setFld F.RING_ARM.REJ i 1
  else match r with
    | .RING_TXBASE_HI =>
      (s.wr64 .RING_TXBASE .RING_TXBASE_HI i (s.lowWord .RING_TXBASE i / 64 * 64 + v.toNat * 2 ^ 32)).setStage .RING_TXBASE i none
    | .RING_RXBASE_HI =>
      (s.wr64 .RING_RXBASE .RING_RXBASE_HI i (s.lowWord .RING_RXBASE i / 64 * 64 + v.toNat * 2 ^ 32)).setStage .RING_RXBASE i none
    | r => s.writeTyped r i v

/-! ## Fetching descriptors (R421, R429, R449) -/

/-- Descriptors the ring unit may still fetch ahead of H (R421). -/
def State.prefetchRoom (s : State) (n : Nat) (r : Ring) : Nat := s.fld F.RNG_CTL.PREFETCH (instBank n) - sub16 r.f r.h

/-- Unfetched descriptors that prefetch room allows; none while a fetch is outstanding. -/
def State.fetchable (s : State) (n q : Nat) (rx : Bool) : Nat :=
  let r := s.ringOf (ringKey n q rx)
  if r.fetch.isSome then 0 else min (sub16 r.t r.f) (s.prefetchRoom n r)

/-- A ring of an instance may fetch (R213, R394, R421, R428, R458). -/
def State.mayFetch (s : State) (n q : Nat) (rx : Bool) : Bool :=
  s.armed n q && s.insState n == 1 && s.insIssues n && decide (0 < s.fetchable n q rx)
    && (rx || (!s.sideFull (instBank n) && !s.sideHolds (instBank n) (.ring n (BitVec.ofNat 6 q))))

/-- The rings of a kind that hold indices, as pairs of instance and queue. -/
def State.ringsOf (s : State) (rx : Bool) : List (Nat × Nat) :=
  (s.ring.ring.filter (fun e => e.1 % 2 == b2n rx)).map (fun e => (e.1 / 2 / 64, e.1 / 2 % 64))

/-- The values from one after `last` on, in rotating order. -/
def rotate (last : Nat) (l : List Nat) : List Nat := l.filter (fun x => last < x) ++ l.filter (fun x => x ≤ last)

/-- The instance of an endpoint whose receive descriptors are fetched next (R449). -/
def State.rxNext (s : State) (ep : Nat) : Option Nat :=
  let l := dedup (((s.ringsOf true).filter (fun e => instEp e.1 == ep && s.mayFetch e.1 e.2 true)).map (fun e => e.1))
  (rotate (Tbl.get (fun _ => ep * 1025 + 1024) s.ring.rxTurn ep) l).head?

/-- The ring that the service-mode round serves next among those with credit and unfetched descriptors (R429). -/
def State.wrrPick (s : State) (n : Nat) : Option Nat :=
  let l := (List.range 64).filter (fun q => s.mayFetch n q false && decide (0 < (s.ringOf (ringKey n q false)).credit))
  (rotate (Tbl.get (fun _ => 63) s.ring.last n) l).head?

/-- The round is over: no armed transmit ring has both credit and unfetched descriptors (R429). -/
def State.wrrOver (s : State) (n : Nat) : Bool :=
  (List.range 64).all (fun q => let r := s.ringOf (ringKey n q false); !s.armed n q || r.credit == 0 || sub16 r.t r.f == 0)

/-- A new service-mode round: every armed transmit ring has its weight as credit (R429). -/
def State.wrrRound (s : State) (n : Nat) : State :=
  (List.range 64).foldl (fun s q =>
    if s.armed n q then s.setRing (ringKey n q false) { s.ringOf (ringKey n q false) with credit := s.fld F.RING_WRR.WEIGHT (ringIdx n q) }
    else s) s

/-- The requests of a fetch of `left` descriptors from index i: at most 8 each, none across 4 KiB or the ring's end (R421). -/
def State.fetchRequests (s : State) (n q : Nat) (rx : Bool) : Nat → Nat → Nat → State
  | 0, _, _ => s
  | fuel + 1, i, left =>
    if left = 0 then s
    else
      let a := s.descAddr n q rx i
      let size := 2 ^ s.ringLog n q rx
      let c := max 1 (min (min left 8) (min (size - i % size) ((4096 - a % 4096) / 32)))
      State.fetchRequests (s.hostAsk (instEp n) (instFn n) a (c * 32) (s.relaxed (instEp n) (instFn n)) false) n q rx fuel ((i + c) % 65536) (left - c)

/-- A fetch of c descriptors starts: F moves past them. -/
def State.fetchStart (s : State) (n q : Nat) (rx : Bool) (c : Nat) : State :=
  let k := ringKey n q rx
  let r := s.ringOf k
  (s.fetchRequests n q rx c r.f c).setRing k { r with f := (r.f + c) % 65536, fetch := some c }

/-- A receive fetch (R449): the endpoint's instances in rotating order, at most 8 descriptors. -/
def State.rxFetch (s : State) (n q : Nat) : State :=
  if s.mayFetch n q true && s.rxNext (instEp n) == some n then
    let s := s.putRing { s.ring with rxTurn := Tbl.set (fun e => e * 1025 + 1024) s.ring.rxTurn (instEp n) n }
    s.fetchStart n q true (min 8 (s.fetchable n q true))
  else s

/-- A transmit fetch in service mode, as the round orders it (R429). -/
def State.svcFetch (s : State) (n q : Nat) : State :=
  let s := if s.wrrOver n then s.wrrRound n else s
  if s.wrrPick n == some q then
    let k := ringKey n q false
    let r := s.ringOf k
    let c := min (min (s.fld F.RING_WRR.BURST (ringIdx n q)) r.credit) (s.fetchable n q false)
    let s := s.setRing k { r with credit := r.credit - c }
    State.fetchStart (s.putRing { s.ring with last := Tbl.set (fun _ => 63) s.ring.last n q }) n q false c
  else s

/-- A transmit fetch (R429, R449): not while a receive fetch of the endpoint can be made. -/
def State.txFetch (s : State) (n q : Nat) : State :=
  if s.mayFetch n q false && (s.rxNext (instEp n)).isNone then
    if s.flag F.RNG_FN_CTL.SVC_EFF n then s.svcFetch n q else s.fetchStart n q false (min 8 (s.fetchable n q false))
  else s

/-- DESCRIPTOR_FETCH (R421). -/
def execDescriptorFetch (inst : Nat) (q : BitVec 6) (rx : Bool) (s : State) : Res :=
  done (if rx then s.rxFetch inst q.toNat else s.txFetch inst q.toNat)

/-- A transmit descriptor is malformed (R423). -/
def txMalformed (w : List Word) : Bool :=
  let d2 := w.getD 2 0
  fieldOf d2 15 14 != 0 || fieldOf d2 31 19 != 0 || decide (fieldOf d2 13 0 < 14 ∨ 16128 < fieldOf d2 13 0)
    || decide (2 ^ 64 < (w.getD 0 0).toNat + (w.getD 1 0).toNat * 2 ^ 32 + fieldOf d2 13 0)

/-- A receive descriptor is malformed (R423). -/
def rxMalformed (w : List Word) : Bool :=
  let d2 := w.getD 2 0
  fieldOf d2 15 14 != 0 || bit d2.toNat 17 || fieldOf d2 31 19 != 0 || w.getD 3 0 != 0
    || decide (fieldOf d2 13 0 < 64 ∨ 16128 < fieldOf d2 13 0)
    || decide (2 ^ 64 < (w.getD 0 0).toNat + (w.getD 1 0).toNat * 2 ^ 32 + fieldOf d2 13 0)

/-- Requests of a ring become orphans: outstanding, with no descriptor left to take their answers. -/
def State.orphanAdd (s : State) (k : Nat) (data : Bool) (c : Nat) : State :=
  let i := 2 * k + b2n data
  s.putRing { s.ring with orphan := Tbl.set (fun _ => 0) s.ring.orphan i (Tbl.get (fun _ => 0) s.ring.orphan i + c) }

/-- The answer to an orphaned request of a ring, which is the oldest: it is discarded. -/
def State.orphanDone (s : State) (k : Nat) (data : Bool) : Option State :=
  let i := 2 * k + b2n data
  match Tbl.get (fun _ => 0) s.ring.orphan i with
  | 0 => none
  | c + 1 => some (s.putRing { s.ring with orphan := Tbl.set (fun _ => 0) s.ring.orphan i c })

/-- An orphaned request of an instance is outstanding (R456, R458). -/
def State.orphans (s : State) (n : Nat) : Bool := s.ring.orphan.any (fun e => e.1 / 4 / 64 == n)

/-- A fetched descriptor: ready, or done at once as MALFORMED or BUSERR (R423, R424). -/
def newDesc (rx : Bool) (idx : Nat) (w : Option (List Word)) : RingDesc :=
  match w with
  | none => { idx := idx, words := none, st := .done dcBusErr 0 0, ts := none, cells := [], head := 0 }
  | some l =>
    if (if rx then rxMalformed l else txMalformed l) then { idx := idx, words := some l, st := .done dcMalformed 0 0, ts := none, cells := [], head := 0 }
    else { idx := idx, words := some l, st := .ready, ts := none, cells := [], head := 0 }

/-- The counter of a descriptor's end (R423, R424). -/
def State.descCount (s : State) (n : Nat) (d : RingDesc) : State :=
  match d.st with
  | .done c _ _ => if c = dcMalformed then s.satInc F.RNG_FN_MALF.COUNT n 1 else if c = dcBusErr then s.satInc F.RNG_FN_BUSERR.COUNT n 1 else s
  | _ => s

/-- The outstanding fetch of a ring ends with the words read, four for each descriptor, or failed (R421, R424). -/
def State.fetchDone (s : State) (n q : Nat) (rx : Bool) (words : Option (List Word)) : State :=
  let k := ringKey n q rx
  let r := s.ringOf k
  match s.orphanDone k false, r.fetch with
  | some t, _ => t
  | none, none => s
  | none, some c =>
    let l := (List.range c).map (fun i => newDesc rx ((r.f + 65536 - c + i) % 65536) (words.map (fun w => (w.drop (4 * i)).take 4)))
    l.foldl (fun s d => s.descCount n d) (s.setRing k { r with fetch := none, desc := r.desc ++ l })

/-- DESCRIPTOR_FETCH_DONE (R421). -/
def execDescriptorFetchDone (inst : Nat) (q : BitVec 6) (rx : Bool) (words : Option (List (BitVec 32))) (s : State) : Res :=
  done (s.fetchDone inst q.toNat rx words).settle

/-! ## Transmit (R36, R425, R426, R448, R449) -/

/-- The first descriptor of a ring in a state. -/
def Ring.firstIn (r : Ring) (st : DescSt) : Option RingDesc := r.desc.find? (fun d => d.st == st)

/-- LEN or BUFLEN of a descriptor. -/
def RingDesc.len (d : RingDesc) : Nat := fieldOf (d.dw 2) 13 0

/-- ADDR of a descriptor. -/
def RingDesc.addr (d : RingDesc) : Nat := (d.dw 0).toNat + (d.dw 1).toNat * 2 ^ 32

/-- The transmit ring may start a data read (R213, R394, R448, R458). -/
def State.mayRead (s : State) (n q : Nat) : Bool :=
  s.armed n q && s.insState n == 1 && s.insIssues n && s.txAllowed n && !s.sideFull (instBank n)
    && !s.sideHolds (instBank n) (.ring n (BitVec.ofNat 6 q)) && ((s.ringOf (ringKey n q false)).firstIn .ready).isSome

/-- The next transmit descriptor's LEN of an instance: of ring q, or of its first ring that may read. -/
def State.nextLen (s : State) (n : Nat) (q : Option Nat) : Option Nat :=
  let l := ((s.ringsOf false).filter (fun e => e.1 == n && s.mayRead e.1 e.2)).map (fun e => e.2)
  match (match q with | some q => if l.contains q then some q else none | none => l.head?) with
  | some q => ((s.ringOf (ringKey n q false)).firstIn .ready).map RingDesc.len
  | none => none

/-- The deficit round robin of an endpoint (R449): the holder of the turn reads while its next LEN is within its deficit;
then the next instance takes its turn.  Answers the instance that reads next, with the deficits. -/
def drrWalk (live : List (Nat × Nat)) (quantum : Nat → Nat) : Nat → Nat → Tbl Nat → Option Nat × Tbl Nat
  | 0, _, d => (none, d)
  | fuel + 1, cur, d =>
    let here := match live.find? (fun e => e.1 == cur) with | some e => decide (e.2 ≤ Tbl.get (fun _ => 0) d cur) | none => false
    if here then (some cur, d)
    else match (rotate cur (live.map (fun e => e.1))).head? with
      | none => (none, d)
      | some n => drrWalk live quantum fuel n (Tbl.set (fun _ => 0) d n (Tbl.get (fun _ => 0) d n + quantum n))

/-- The instance of an endpoint that reads next, if ring q of instance n asks, and the deficits then. -/
def State.drrNext (s : State) (n q : Nat) : Option Nat × Tbl Nat :=
  let ep := instEp n
  let ids := dedup (((s.ringsOf false).filter (fun e => instEp e.1 == ep && s.mayRead e.1 e.2)).map (fun e => e.1))
  let live := ids.filterMap (fun m => (s.nextLen m (if m = n then some q else none)).map (fun l => (m, l)))
  let d := s.ring.deficit.filter (fun e => instEp e.1 != ep || ids.contains e.1)
  drrWalk live (fun m => s.fld F.RNG_FN_WEIGHT.WEIGHT m * 2048) (8 * live.length + 1)
    (Tbl.get (fun e => e * 1025 + 1024) s.ring.turn ep) d

/-- The data read of a descriptor starts: cells for the whole frame, the debits, the request (R36, R257, R448, R449). -/
def State.readStart (s : State) (n q : Nat) (d : RingDesc) (def_ : Tbl Nat) : State :=
  let r := s.allocCells (cellsFor (s.headroom + d.len))
  match r.1 with
  | none => r.2
  | some l =>
    let h := s.headroom
    let s := r.2.txDebit n d.len
    let s := s.putRing { s.ring with
      deficit := Tbl.set (fun _ => 0) def_ n (Tbl.get (fun _ => 0) def_ n - d.len)
      turn := Tbl.set (fun e => e * 1025 + 1024) s.ring.turn (instEp n) n }
    let k := ringKey n q false
    let g := s.ringOf k
    (s.setRing k { g with desc := updDesc d.idx (fun d => { d with st := .reading, cells := l, head := h }) g.desc }).hostAsk
      (instEp n) (instFn n) d.addr d.len (s.relaxed (instEp n) (instFn n) && bit (d.dw 2).toNat 18) false

/-- TX_DATA_READ_START (R448, R449). -/
def execTxDataReadStart (inst : Nat) (q : BitVec 6) (s : State) : Res :=
  let x := s.drrNext inst q.toNat
  match s.mayRead inst q.toNat && x.1 == some inst, (s.ringOf (ringKey inst q.toNat false)).firstIn .ready with
  | true, some d => done (s.readStart inst q.toNat d x.2)
  | _, _ => done s

/-- The words before HEAD (R425, R477): TXC with TWOSTEP from TS, the ring number, CTX. -/
def txWords (q : Nat) (d : RingDesc) : List Byte :=
  if d.head < 64 then []
  else beBytes 4 (b2n (bit (d.dw 2).toNat 17) * 2 ^ 31) ++ beBytes 4 q ++ beBytes 4 (d.dw 3).toNat

/-- The data of a transmit descriptor has arrived: the frame goes to the parser (R36). -/
def State.txArrive (s : State) (n q : Nat) (d : RingDesc) (data : List Byte) : State :=
  let k := ringKey n q false
  let r := s.ringOf k
  let s := s.setRing k { r with desc := updDesc d.idx (fun d => { d with st := .busy }) r.desc }
  let inp := Input.ring n (BitVec.ofNat 6 q)
  let gen := s.fld F.RNG_FN_FRZ.GEN n
  let w := s.writeFrame inp d.cells d.head data (txWords q d) 0 (some { inst := n, q := q, idx := d.idx, gen := gen })
  (w.2.intakeVector (instBank n) (w.2.makeVector (instBank n) w.1 inp data gen n none)).1

/-- A transmit data read failed (R424, R426): the cells go to reclaim before a number is stamped.  DESIGN CHOICE (log entry 44): FLEN
is 0, a failed read counting no bytes. -/
def State.txFail (s : State) (n q : Nat) (d : RingDesc) : State :=
  let k := ringKey n q false
  let r := s.ringOf k
  let s := s.setRing k { r with desc := updDesc d.idx (fun d => { d with st := .done dcBusErr 0 0 }) r.desc }
  (s.reclaimCells d.cells false).satInc F.RNG_FN_BUSERR.COUNT n 1

/-- The oldest data read of a ring ends; its data waits while the side buffer is full (R213). -/
def State.readDone (s : State) (n q : Nat) (data : Option (List Byte)) : State :=
  match s.orphanDone (ringKey n q false) true, (s.ringOf (ringKey n q false)).firstIn .reading with
  | some t, _ => t
  | none, none => s
  | none, some d => match data with
    | some l => if s.sideFull (instBank n) then s else s.txArrive n q d (fitBytes d.len l)
    | none => s.txFail n q d

/-- TX_DATA_READ_DONE (R36, R424, R426). -/
def execTxDataReadDone (inst : Nat) (q : BitVec 6) (data : Option (List (BitVec 8))) (s : State) : Res :=
  done (s.readDone inst q.toNat data).settle

/-! ## Receive (R37, R416, R424) -/

/-- The first frame released to an instance's receive ring, at its endpoint's link a (R288, R292, R416). -/
def State.rxItem (s : State) (n q : Nat) : Option OutItem :=
  (s.outQueue (288 + instEp n)).find? (fun o => s.fld F.CFL_QADM.INSTANCE o.queue == n && s.rxRingOf n o.queue == q)

/-- The bytes from an uncorrectable cell on are unspecified (R424). -/
def spoil (free : Nat) (l : List Byte) (bad : Option Nat) : List Byte :=
  match bad with
  | some off => l.take off ++ (List.range (l.length - off)).map (fun i => Config.cellByte free (off + i))
  | none => l

/-- A released frame is written into the buffer of a descriptor, its cells are freed, and the descriptor is done. -/
def State.rxWrite (s : State) (n q : Nat) (d : RingDesc) (o : OutItem) (f : FrameRec) : State :=
  let x0 := s.outputBytes f o false
  let b := x0.2.badAt f o.e
  let x := (x0.1, b.2)
  let cut := x.1.take d.len
  let bad := b.1.bind (fun off => if off < cut.length then some off else none)
  let code := if bad.isSome then dcDataErr else if d.len < x.1.length then dcTrunc else dcOk
  let s := if bad.isSome then x.2.draw else x.2
  let ro := s.relaxed (instEp n) (instFn n) && bit (d.dw 2).toNat 18
  let s := s.hostPut (instEp n) (instFn n) d.addr (spoil x.2.free cut bad) ro false
  let s := (s.setOutQueue (288 + instEp n) ((s.outQueue (288 + instEp n)).erase o)).dropRef o.e.first
  let k := ringKey n q true
  let r := s.ringOf k
  s.setRing k { r with desc := updDesc d.idx (fun d => { d with st := .done code x.1.length 0, ts := f.ts.map (fun t => (t.2, t.1)) }) r.desc }

/-- RX_FRAME_WRITE (R37). -/
def execRxFrameWrite (inst : Nat) (q : BitVec 6) (s : State) : Res :=
  let may := s.insIssues inst && s.insState inst != 2
  match may, s.rxItem inst q.toNat, (s.ringOf (ringKey inst q.toNat true)).firstIn .ready with
  | true, some o, some d =>
    (match s.frame o.e.first with
    | some f => done (s.rxWrite inst q.toNat d o f).settle
    | none => done s)
  | _, _, _ => done s

/-! ## Completion (R427) -/

/-- A copy of the frame of a transmit descriptor still waits at a MAC that takes its stamp (R477). -/
def State.stampPending (s : State) (n q idx : Nat) : Bool :=
  s.sch.outq.any (fun e => decide (e.1 < 288) && s.flag (macF e.1 F.MAC_PTP_CTL.TXC_EN F.ATL_PTP_CTL.TXC_EN) (macI e.1)
    && e.2.any (fun o => match s.frame o.e.first with
      | some f => f.desc == some { inst := n, q := q, idx := idx, gen := s.fld F.RNG_FN_FRZ.GEN n }
      | none => false))

/-- The descriptor that is handed back next, if it is done: that of index H. -/
def State.doneDesc (s : State) (n q : Nat) (rx : Bool) : Option (RingDesc × Nat × Nat × Nat) :=
  let r := s.ringOf (ringKey n q rx)
  match r.desc with
  | [] => none
  | d :: _ => match d.st with
    | .done c fl re =>
      if !rx && d.ts.isNone && bit (d.dw 2).toNat 17 && s.stampPending n q d.idx then none else some (d, c, fl, re)
    | _ => none

/-- The status words DW4 to DW6 (R422, R427), little-endian; a stamp is shown on receive, or when transmit TS asked. -/
def statusWords (rx : Bool) (d : RingDesc) (code flen reason : Nat) : List Byte :=
  let ts := if rx || bit (d.dw 2).toNat 17 then d.ts else none
  match ts with
  | some (ns, sec) => leBytes 4 (code + reason * 16 + 2 ^ 12 + flen * 2 ^ 16) ++ leBytes 4 ns ++ leBytes 4 sec
  | none => leBytes 4 (code + reason * 16 + flen * 2 ^ 16) ++ leBytes 8 0

/-- A descriptor is handed back: status write, ownership write, interrupt (R427). -/
def State.handBack (s : State) (n q : Nat) (rx : Bool) (d : RingDesc) (code flen reason : Nat) : State :=
  let a := s.descAddr n q rx d.idx
  let s := s.emit (.hostWrite (instEp n) (instFn n) (a + 16) (statusWords rx d code flen reason) false)
  let s := s.emit (.hostWrite (instEp n) (instFn n) (a + 28) (leBytes 4 (d.idx + 2 ^ 31)) false)
  let k := ringKey n q rx
  let r := s.ringOf k
  let s := s.setRing k { r with h := (r.h + 1) % 65536, desc := r.desc.tail }
  if bit (d.dw 2).toNat 16 then
    s.msix (instEp n) (instFn n) (if rx then s.fld F.RING_IRQ.RXVEC (ringIdx n q) else s.fld F.RING_IRQ.TXVEC (ringIdx n q))
  else s

/-- DESCRIPTOR_COMPLETE (R427, R428). -/
def execDescriptorComplete (inst : Nat) (q : BitVec 6) (rx : Bool) (s : State) : Res :=
  match s.insIssues inst, s.doneDesc inst q.toNat rx with
  | true, some (d, c, fl, re) => done (s.handBack inst q.toNat rx d c fl re)
  | _, _ => done s

/-! ## QVIEW (R443) -/

/-- The ring that RNG_FN_QSEL selects. -/
def State.viewRing (s : State) (n : Nat) : Ring := s.ringOf (ringKey n (s.fld F.RNG_FN_QSEL.QUEUE n) (s.flag F.RNG_FN_QSEL.RX n))

/-- RNG_FN_QVIEW0: T and H. -/
def State.qview0 (s : State) (n : Nat) : Word := BitVec.ofNat 32 ((s.viewRing n).t + (s.viewRing n).h * 65536)

/-- A read of RNG_FN_QVIEW0 captures F, ARMED and LOG into RNG_FN_QVIEW1 (R443). -/
def State.qviewRead (s : State) (n : Nat) : State :=
  let q := s.fld F.RNG_FN_QSEL.QUEUE n
  s.wr .RNG_FN_QVIEW1 n (BitVec.ofNat 32 ((s.viewRing n).f + b2n (s.armed n q) * 2 ^ 16
    + s.ringLog n q (s.flag F.RNG_FN_QSEL.RX n) * 2 ^ 24))

/-- QVIEW_READ (R443). -/
def execQviewRead (inst : Nat) (s : State) : Res :=
  if s.reachable (instChip inst) then done ((s.qviewRead inst).answer (.data (s.qview0 inst))) else done (s.answer .busError)

/-! ## Function-wide reset and freeze of the rings (R455, R458) -/

/-- The queues of an instance. -/
def allQueues : List Nat := List.range 64

/-- A ring is forgotten: reads under way give their cells back (R426, R428, R455). -/
def State.ringForget (n q : Nat) (s : State) : State :=
  let tx := s.ringOf (ringKey n q false)
  let reads := tx.desc.filter (fun d => d.st == .reading)
  let s := s.reclaimCells (reads.flatMap (fun d => d.cells)) false
  let s := (s.orphanAdd (ringKey n q false) true reads.length).orphanAdd (ringKey n q false) false (b2n tx.fetch.isSome)
  let s := s.orphanAdd (ringKey n q true) false (b2n (s.ringOf (ringKey n q true)).fetch.isSome)
  ((s.setRing (ringKey n q false) ringReset).setRing (ringKey n q true) ringReset).setFld F.RING_ARM.ARMED (ringIdx n q) 0

/-- Every ring of an instance is unarmed, its indices zero (R455, step 2). -/
def State.ringsClear (s : State) (n : Nat) : State := allQueues.foldl (fun s q => State.ringForget n q s) s

/-- Prefetched descriptors whose data transfer has not started are discarded; F moves back (R458, step 1). -/
def State.unfetch (n : Nat) (rx : Bool) (s : State) (q : Nat) : State :=
  let k := ringKey n q rx
  let r := s.ringOf k
  let keep := r.desc.filter (fun d => d.st != .ready)
  let back := match r.desc.find? (fun d => d.st == .ready) with
    | some d => d.idx
    | none => (match r.fetch with | some c => (r.f + 65536 - c) % 65536 | none => r.f)
  (s.orphanAdd k false (b2n r.fetch.isSome)).setRing k { r with f := back, fetch := none, desc := keep.filter (fun d => sub16 d.idx r.h < sub16 back r.h) }

/-- No ring of the instance owns a fetched descriptor (R458, step 4). -/
def State.ringsQuiet (s : State) (n : Nat) : Bool :=
  allQueues.all (fun q => [false, true].all (fun rx => let r := s.ringOf (ringKey n q rx); r.f == r.h && r.fetch.isNone))

end Sys2Proof.Machine
end

