-- ==== Sys2Proof/Machine/Storage.lean ====
section
/-! DEFINITION. The storage front end: NVMe controllers and queues, command slots, checks, translation through the extent
map, completions, staging buffers and the command block (10, R357 to R383). -/
namespace Sys2Proof.Machine

/-! ## State access -/

/-- A free command slot that was never taken. -/
def cellReset : StoCell := { sgen := 0, cmd := none, quar := none }

/-- A command slot. -/
def State.stoCell (s : State) (k : Nat) : StoCell := Tbl.get (fun _ => cellReset) s.sto.slots k

/-- The state with a command slot replaced. -/
def State.setCell (s : State) (k : Nat) (c : StoCell) : State :=
  s.putSto { s.sto with slots := Tbl.set (fun _ => cellReset) s.sto.slots k c }

/-- The command of a busy slot. -/
def State.stoCmd (s : State) (k : Nat) : Option StoSlot := (s.stoCell k).cmd

/-- The state with the command of a slot replaced. -/
def State.setCmd (s : State) (k : Nat) (c : Option StoSlot) : State := s.setCell k { s.stoCell k with cmd := c }

/-- Slots of a Bank whose cell satisfies p. -/
def State.slotsWhere (s : State) (bank : Nat) (p : StoCell → Bool) : List Nat :=
  (s.sto.slots.filter (fun e => e.1 / 16384 == bank && p e.2)).map (fun e => e.1)

/-- BNK_STO_SLOTS follows the slots (R366, R382). -/
def State.showSlots (s : State) (bank : Nat) : State :=
  let busy := (s.slotsWhere bank (fun c => c.cmd.isSome)).length
  let quar := (s.slotsWhere bank (fun c => c.quar.isSome)).length
  (s.setFld F.BNK_STO_SLOTS.FREE bank (16384 - busy - quar)).setFld F.BNK_STO_SLOTS.QUAR bank quar

/-- An unbound queue. -/
def nvmeUnbound : NvmeQueue :=
  { sq := none, cq := none, vec := 0, ien := false, cqid := 0, tail := 0, head := 0, cqTail := 0, cqHead := 0, phase := true
    pend := none, credit := 0 }

/-- A queue of an instance. -/
def State.nvmeQ (s : State) (n q : Nat) : NvmeQueue := Tbl.get (fun _ => nvmeUnbound) s.sto.queue (n * 128 + q)

/-- The state with a queue replaced. -/
def State.setNvmeQ (s : State) (n q : Nat) (x : NvmeQueue) : State :=
  s.putSto { s.sto with queue := Tbl.set (fun _ => nvmeUnbound) s.sto.queue (n * 128 + q) x }

/-- A controller that has just been reset. -/
def ctlReset : NvmeCtl := { nq := 0, aec := 0, notices := 0, changed := [], last := 64, run := 0 }

/-- A controller. -/
def State.nvmeCtl (s : State) (n : Nat) : NvmeCtl := Tbl.get (fun _ => ctlReset) s.sto.ctl n

/-- The state with a controller replaced. -/
def State.setNvmeCtl (s : State) (n : Nat) (c : NvmeCtl) : State :=
  s.putSto { s.sto with ctl := Tbl.set (fun _ => ctlReset) s.sto.ctl n c }

/-- The hold queue of a Bank. -/
def State.holdQ (s : State) (bank : Nat) : List Nat := Tbl.get (fun _ => []) s.sto.hold bank

/-- The state with a hold queue replaced. -/
def State.setHoldQ (s : State) (bank : Nat) (l : List Nat) : State :=
  s.putSto { s.sto with hold := Tbl.set (fun _ => []) s.sto.hold bank l }

/-- Allocation events of a Bank. -/
def State.evq (s : State) (bank : Nat) : List Nat := Tbl.get (fun _ => []) s.sto.evq bank

/-- The state with the allocation events of a Bank replaced. -/
def State.setEvq (s : State) (bank : Nat) (l : List Nat) : State :=
  s.putSto { s.sto with evq := Tbl.set (fun _ => []) s.sto.evq bank l }

/-- Free entries of the instance's slots and held commands: none busy (R361, R458). -/
def State.noSlots (s : State) (n : Nat) : Bool :=
  s.sto.slots.all (fun e => match e.2.cmd with | some c => c.inst != n | none => true)

/-! ## Controller registers (R360, R361) -/

/-- CC.EN goes from 0 to 1: the admin pair is bound; CSTS.CFS if storage is not ready (R361). -/
def State.ccEnable (s : State) (n : Nat) (v : Word) : State :=
  if s.isStorage n = false ∨ s.insState n ≠ 0 ∨ s.flag F.NVME_CC.EN n ∨ bit v.toNat 0 = false then s
  else
    let s := (s.writeTyped .NVME_CC n v).setFld F.RNG_FN_FRZ.STATE n 1
    let s := s.setNvmeCtl n ctlReset
    let s := s.setNvmeQ n 0 { nvmeUnbound with
      sq := some (s.rd64 .NVME_ASQ .NVME_ASQ_HI n, s.fld F.NVME_AQA.ASQS n + 1)
      cq := some (s.rd64 .NVME_ACQ .NVME_ACQ_HI n, s.fld F.NVME_AQA.ACQS n + 1), ien := true }
    if s.stoReady then s else s.setFld F.NVME_CSTS.CFS n 1

/-- CC_EN_SET (R361). -/
def execCcEnSet (inst : Nat) (v : BitVec 32) (s : State) : Res := done (s.hostReg inst (fun s => s.ccEnable inst v))

/-- CONTROLLER_READY (R361). -/
def execControllerReady (inst : Nat) (s : State) : Res :=
  done (if s.flag F.NVME_CC.EN inst && !s.flag F.NVME_CSTS.CFS inst && s.stoReady then s.setFld F.NVME_CSTS.RDY inst 1 else s)

/-- CC.SHN takes a value: a shutdown notification starts the shutdown (R361). -/
def State.ccShutdown (s : State) (n : Nat) (v : Word) : State :=
  let s := s.setFld F.NVME_CC.SHN n (fieldOf v 15 14)
  if fieldOf v 15 14 = 1 ∨ fieldOf v 15 14 = 2 then s.setFld F.NVME_CSTS.SHST n 1 else s

/-- CC_SHN_WRITE (R361): a shutdown notification. -/
def execCcShnWrite (inst : Nat) (v : BitVec 32) (s : State) : Res :=
  done (s.hostReg inst (fun s => if s.isStorage inst then s.ccShutdown inst v else s))

/-- SHUTDOWN_COMPLETE (R361). -/
def execShutdownComplete (inst : Nat) (s : State) : Res :=
  done (if s.fld F.NVME_CSTS.SHST inst = 1 ∧ s.noSlots inst = true then s.setFld F.NVME_CSTS.SHST inst 2 else s)

/-! ## Doorbells (R365, R380) -/

/-- The tail value of a submission queue is within the queue, and is applied. -/
def State.tailApply (s : State) (n q v : Nat) : State :=
  let x := s.nvmeQ n q
  match x.sq with
  | some (_, size) => if v < size then s.setNvmeQ n q { x with tail := v } else s
  | none => s

/-- A submission tail doorbell (R365, R450, R458). -/
def State.tailBell (s : State) (n q v : Nat) : State :=
  let x := s.nvmeQ n q
  if s.isStorage n = false ∨ s.insState n = 2 ∨ x.sq.isNone then s
  else if s.insState n ≠ 1 ∨ x.pend.isSome ∨ s.bellReady n = false then
    (s.setNvmeQ n q { x with pend := some v }).satInc F.INS_DB_MERGE.COUNT n (b2n x.pend.isSome)
  else (s.bellTake n).tailApply n q v

/-- SQ_TAIL_DOORBELL (R365). -/
def execSqTailDoorbell (inst : Nat) (q : BitVec 7) (v : BitVec 16) (s : State) : Res :=
  done (s.hostReg inst (fun s => s.tailBell inst q.toNat v.toNat))

/-- A completion head doorbell (R380). -/
def State.headBell (s : State) (n q v : Nat) : State :=
  let x := s.nvmeQ n q
  match x.cq with
  | some (_, size) => if v < size ∧ s.insState n ≠ 2 then s.setNvmeQ n q { x with cqHead := v } else s
  | none => s

/-- CQ_HEAD_DOORBELL (R380). -/
def execCqHeadDoorbell (inst : Nat) (q : BitVec 7) (v : BitVec 16) (s : State) : Res :=
  done (s.hostReg inst (fun s => s.headBell inst q.toNat v.toNat))

/-- The pending doorbell of a queue is applied. -/
def State.tailPend (s : State) (n q : Nat) : State :=
  let x := s.nvmeQ n q
  match x.pend with
  | some v => (s.setNvmeQ n q { x with pend := none }).tailApply n q v
  | none => s

/-- PENDING_DOORBELL_APPLY (R450): of a ring, or of a submission queue; a token is available and the instance is ACTIVE. -/
def execPendingDoorbellApply (inst : Nat) (q : BitVec 7) (rx : Bool) (s : State) : Res :=
  if s.bellReady inst = false ∨ s.insState inst ≠ 1 then done s
  else if s.isStorage inst then
    done (if (s.nvmeQ inst q.toNat).pend.isSome then (s.bellTake inst).tailPend inst q.toNat else s)
  else done (if (s.ringOf (ringKey inst (q.toNat % 64) rx)).pend.isSome then (s.bellTake inst).bellPend inst (q.toNat % 64) rx else s)

/-! ## Submission fetch (R363, R365, R366, R429) -/

/-- Unfetched entries of a submission queue. -/
def NvmeQueue.waiting (x : NvmeQueue) : Nat :=
  match x.sq with
  | some (_, size) => (x.tail + size - x.head) % size
  | none => 0

/-- A submission queue may be fetched from (R213, R361, R365, R394, R458). -/
def State.sqMay (s : State) (n q : Nat) : Bool :=
  s.insState n == 1 && s.insIssues n && s.flag F.NVME_CSTS.RDY n && decide (0 < (s.nvmeQ n q).waiting)
    && !s.sideFull (instBank n) && !s.sideHolds (instBank n) (.sq n (BitVec.ofNat 7 q))

/-- Weight and burst of an I/O submission queue in service mode: those of ring q − 1 (R429, R461). -/
def State.sqWeight (s : State) (n q : Nat) : Nat := s.fld F.RING_WRR.WEIGHT (ringIdx n (q - 1))

/-- The I/O queue that the round serves next (R429): the last one while its burst lasts, else the next with credit. -/
def State.sqPick (s : State) (n : Nat) : Option Nat :=
  let c := s.nvmeCtl n
  let l := ((List.range 64).map (fun q => q + 1)).filter (fun q => s.sqMay n q && decide (0 < (s.nvmeQ n q).credit))
  if 0 < c.run ∧ l.contains c.last then some c.last else (rotate c.last l).head?

/-- The round is over: no I/O queue has both credit and unfetched entries (R429). -/
def State.sqOver (s : State) (n : Nat) : Bool :=
  (List.range 64).all (fun j => (s.nvmeQ n (j + 1)).credit == 0 || (s.nvmeQ n (j + 1)).waiting == 0)

/-- A new round: every bound I/O queue has its weight as credit. -/
def State.sqRound (s : State) (n : Nat) : State :=
  ((List.range 64).map (fun q => q + 1)).foldl (fun s q =>
    if (s.nvmeQ n q).sq.isSome then s.setNvmeQ n q { s.nvmeQ n q with credit := s.sqWeight n q } else s) s

/-- An I/O queue takes its turn in service mode: whether it is the one served, and the state (R429). -/
def State.sqTurn (s : State) (n q : Nat) : Bool × State :=
  if q = 0 ∨ s.flag F.RNG_FN_CTL.SVC_EFF n = false then (true, s)
  else
    let s := if s.sqOver n then s.sqRound n else s
    if s.sqPick n == some q then
      let c := s.nvmeCtl n
      let run := if 0 < c.run ∧ c.last = q then c.run - 1 else s.fld F.RING_WRR.BURST (ringIdx n (q - 1)) - 1
      let s := s.setNvmeCtl n { c with last := q, run := run }
      (true, s.setNvmeQ n q { s.nvmeQ n q with credit := (s.nvmeQ n q).credit - 1 })
    else (false, s)

/-- A free slot of a Bank for an instance (R366). -/
def State.pickSlot (s : State) (bank n : Nat) : Option Nat :=
  let mine := (s.slotsWhere bank (fun c => match c.cmd with | some x => x.inst == n | none => false)).length
  if 1024 ≤ mine then none
  else (((List.range (s.sto.slots.length + 1)).map (fun i => bank * 16384 + (Config.firstSlot s.free + i) % 16384)).find?
    (fun k => (s.stoCell k).cmd.isNone && (s.stoCell k).quar.isNone))

/-- Byte 0 of the entry: the opcode. -/
def StoSlot.op (c : StoSlot) : Nat := fieldOf (c.entry.getD 0 0) 7 0

/-- Double word n of the entry. -/
def StoSlot.dw (c : StoSlot) (n : Nat) : Nat := (c.entry.getD n 0).toNat

/-- The opcode is supported (R362). -/
def StoSlot.known (c : StoSlot) : Bool :=
  if c.q = 0 then [0x06, 0x02, 0x09, 0x0A, 0x01, 0x05, 0x00, 0x04, 0x08, 0x0C].contains c.op else [0x02, 0x01, 0x08, 0x00, 0x09].contains c.op

/-- Cells of a submission entry. -/
def State.entryCellCount (s : State) : Nat := cellsFor (s.headroom + 64)

/-- The command ends with a status (R381); the completion entry follows under R380. -/
def State.stoEnd (s : State) (k : Nat) (dw0 sct sc dnr : Nat) : State :=
  match s.stoCmd k with
  | some c => s.setCmd k (some { c with st := .ended dw0 sct sc dnr })
  | none => s

/-- The cells of a command's entry go to reclaim (R366, R381). -/
def State.stoUncell (s : State) (k : Nat) : State :=
  match s.stoCmd k with | some c => s.reclaimCells c.cells false | none => s

/-- The front end ends a command itself: its cell is freed (R381). -/
def State.stoFinish (s : State) (k : Nat) (dw0 sct sc dnr : Nat) : State :=
  (s.stoUncell k).stoEnd k dw0 sct sc dnr

/-- A front-end error completion, which BNK_STO_ERRS counts (R381). -/
def State.stoError (s : State) (k sct sc dnr : Nat) : State :=
  (s.stoFinish k 0 sct sc dnr).satInc F.BNK_STO_ERRS.COUNT (k / 16384) 1

/-- A fetched entry takes a slot and a cell (R366); an opcode that is not supported completes at once (R362, R367). -/
def State.slotTake (s : State) (n q k : Nat) (entry : List Word) : State :=
  let bank := instBank n
  let r := s.allocCells s.entryCellCount
  match r.1 with
  | none => r.2
  | some l =>
    let h := s.headroom
    let s := r.2.draw
    let x := s.nvmeQ n q
    let size := match x.sq with | some (_, z) => z | none => 1
    let hd := (x.head + 1) % size
    let o := Tbl.get (fun _ => 0) s.sto.order bank
    let c : StoSlot := { inst := n, q := q, cid := fieldOf (entry.getD 0 0) 31 16, sqhd := hd, entry := entry, order := o, ns := none
                         epoch := none, cells := l, head := h, exts := [], st := .fetched }
    let s := (s.setNvmeQ n q { x with head := hd }).setCell k { sgen := (s.stoCell k).sgen + 1, cmd := some c, quar := none }
    let s := s.putSto { s.sto with order := Tbl.set (fun _ => 0) s.sto.order bank (o + 1) }
    if c.known then s else s.stoError k 0 0x01 1

/-- The read of the entry at the head of a submission queue. -/
def State.sqAsk (s : State) (n q : Nat) : State :=
  match (s.nvmeQ n q).sq with
  | some (base, _) => s.hostAsk (instEp n) (instFn n) (base + (s.nvmeQ n q).head * 64) 64 false false
  | none => s

/-- SUBMISSION_FETCH (R365, R366); a failed read leaves the entry in the queue. -/
def execSubmissionFetch (inst : Nat) (q : BitVec 7) (entry : Option (List (BitVec 32))) (s : State) : Res :=
  match s.sqMay inst q.toNat, s.pickSlot (instBank inst) inst with
  | true, some k =>
    let r := s.sqTurn inst q.toNat
    if r.1 = false then done s
    else match entry with
      | some l => done (((r.2.sqAsk inst q.toNat).slotTake inst q.toNat k l).showSlots (instBank inst))
      | none => done (s.sqAsk inst q.toNat)
  | _, _ => done s

/-- The key of a slot that a command names. -/
def stoKey (bank : BitVec 2) (slot : BitVec 14) : Nat := bank.toNat * 16384 + slot.toNat

/-- Work a fetched command of one queue kind and opcode. -/
def State.stoWork (s : State) (k : Nat) (admin : Bool) (op : Nat) (f : StoSlot → State → State) : State :=
  match s.stoCmd k with
  | some c => if c.st == .fetched && (c.q == 0) == admin && c.op == op then f c s else s
  | none => s

/-! ## Completion entries (R378, R380) -/

/-- The status of a completion entry's DW3. -/
def cplStatus (sct sc dnr : Nat) : Nat := sc * 2 ^ 17 + sct * 2 ^ 25 + dnr * 2 ^ 31

/-- The completion queue has a free entry. -/
def NvmeQueue.cqRoom (x : NvmeQueue) : Bool :=
  match x.cq with | some (_, size) => (x.cqTail + 1) % size != x.cqHead | none => false

/-- The completion entry of an ended command (R380): one posted write, MSI-X, and the slot is free. -/
def State.cplWrite (s : State) (k : Nat) (c : StoSlot) (dw0 sct sc dnr : Nat) : State :=
  let n := c.inst
  let cq := (s.nvmeQ n c.q).cqid
  let x := s.nvmeQ n cq
  match x.cq with
  | some (base, size) =>
    let e := leBytes 4 dw0 ++ leBytes 4 0 ++ leBytes 4 (c.sqhd + c.q * 2 ^ 16)
      ++ leBytes 4 (c.cid + b2n x.phase * 2 ^ 16 + cplStatus sct sc dnr)
    let t := (x.cqTail + 1) % size
    let s := s.emit (.hostWrite (instEp n) (instFn n) (base + x.cqTail * 16) e false)
    let s := s.setNvmeQ n cq { x with cqTail := t, phase := if t = 0 then !x.phase else x.phase }
    let s := if x.ien then s.msix (instEp n) (instFn n) x.vec else s
    (s.setCmd k none).showSlots (k / 16384)
  | none => s

/-- COMPLETION_ENTRY_WRITE (R380). -/
def execCompletionEntryWrite (bank : BitVec 2) (slot : BitVec 14) (s : State) : Res :=
  let k := stoKey bank slot
  match s.stoCmd k with
  | some c => (match c.st with
    | .ended dw0 sct sc dnr =>
      if (s.nvmeQ c.inst (s.nvmeQ c.inst c.q).cqid).cqRoom && s.insIssues c.inst then done (s.cplWrite k c dw0 sct sc dnr) else done s
    | _ => done s)
  | none => done s

/-- A program's completion of a busy slot (R378).  DESIGN CHOICE (log entry 39): one of a slot whose completion entry still waits takes
the place of the status that waits. -/
def State.stoAccept (s : State) (k : Nat) (x : StoSlot) (sct sc dnr : Nat) : State :=
  let s := s.setHoldQ (k / 16384) ((s.holdQ (k / 16384)).erase k)
  if [SlotSt.fetched, .held, .flush, .event].contains x.st then s.stoFinish k 0 sct sc dnr else s.stoEnd k 0 sct sc dnr

/-- A write of BNK_STO_CPL (R378): discarded and counted where the slot is not busy or SGEN differs. -/
def State.stoCpl (s : State) (bank : Nat) (v : Word) : State :=
  let k := bank * 16384 + fieldOf v 13 0
  match s.stoCmd k with
  | some x =>
    if (s.stoCell k).sgen.toNat = fieldOf v 17 14 then s.stoAccept k x (fieldOf v 28 26) (fieldOf v 25 18) (fieldOf v 29 29)
    else s.satInc F.BNK_STO_LATE.COUNT bank 1
  | none => s.satInc F.BNK_STO_LATE.COUNT bank 1

/-- STO_CPL_WRITE (R378). -/
def execStoCplWrite (bank : BitVec 2) (v : BitVec 32) (s : State) : Res :=
  done (s.atChip (bankChip bank.toNat) (fun s => s.stoCpl bank.toNat v))

/-! ## Records in HBM (R371, R372) -/

/-- Offsets in HBM of the extent map, the namespace records, the NSID maps and the PRP areas. -/
def extOff : Nat := 0x800000000
/-- Namespace records (R371). -/
def nsOff : Nat := 0xA00000000
/-- NSID maps (R371). -/
def mapOff : Nat := 0xA00400000
/-- PRP areas (R371). -/
def prpOff : Nat := 0xB00000000

/-- A big-endian number of n bytes in HBM. -/
def State.hbmNat (s : State) (off n : Nat) : Nat := beNat (s.hbmRead off n)

/-- A namespace record (R372). -/
def State.nsRec (s : State) (ns : Nat) : List Byte := s.hbmRead (nsOff + ns * 32) 32

/-- An extent entry (R372). -/
def State.extent (s : State) (x : Nat) : Nat := s.hbmNat (extOff + x * 8) 8

/-- The namespace of an NSID of an instance: the map entry, if it is valid (R372). -/
def State.nsOf (s : State) (n nsid : Nat) : Option Nat :=
  let m := s.hbmNat (mapOff + n * 64 + 4 * (nsid - 1)) 4
  if 1 ≤ nsid ∧ nsid ≤ 16 ∧ bit m 31 = true then some (bits m 15 0) else none

/-- The namespace that a command may use (R367, check 2). -/
def State.nsFor (s : State) (n nsid : Nat) : Option Nat :=
  match s.nsOf n nsid with
  | some ns =>
    let r := s.nsRec ns
    if rdAt r 0 1 ≥ 0x80 ∧ rdAt r 18 2 = n ∧ rdAt r 28 1 = nsid then some ns else none
  | none => none

/-! ## Admin commands (R362, R364) -/

/-- Data of an admin command goes to the host pages that PRP1 and PRP2 name. -/
def State.toPrp (s : State) (c : StoSlot) (l : List Byte) : State :=
  let p1 := c.dw 6 + c.dw 7 * 2 ^ 32
  let p2 := c.dw 8 + c.dw 9 * 2 ^ 32
  let n := 4096 - p1 % 4096
  let s := s.hostPut (instEp c.inst) (instFn c.inst) p1 (l.take n) false false
  s.hostPut (instEp c.inst) (instFn c.inst) p2 (l.drop n) false false

/-- Replace the number of n bytes at an offset, little-endian. -/
def putLe (off n v : Nat) (l : List Byte) : List Byte := patchBytes l off (leBytes n v)

/-- n bytes of Identify or log data of which the spec states nothing (R362). -/
def openBytes (id n : Nat) : List Byte := (List.range n).map (fun i => Config.nvmeByte id i)

/-- MDTS and WZSL (R362): a transfer is at most 2⁸ pages of 4 KiB, 1 MiB. -/
def mdts : Nat := 8

/-- The most bytes of one transfer (R362, R367). -/
def stoMax : Nat := 2 ^ mdts * 4096

/-- Identify Controller data (R360, R362). -/
def idCtrl : List Byte :=
  putLe 525 1 0 (putLe 520 2 0x0C (putLe 516 4 16 (putLe 513 1 0x44 (putLe 512 1 0x66 (putLe 259 1 3 (putLe 258 1 3
    (putLe 80 4 0x20000 (putLe 77 1 mdts (putLe 2 2 0xB0E5 (putLe 0 2 0xB0E5 (openBytes 1 4096)))))))))))

/-- Identify Namespace data (R362, R372): zeros for an NSID without a namespace. -/
def State.idNs (s : State) (n nsid : Nat) : List Byte :=
  match s.nsFor n nsid with
  | none => List.replicate 4096 0
  | some ns =>
    let r := s.nsRec ns
    putLe 128 4 (rdAt r 16 1 * 2 ^ 16) (putLe 33 1 1 (putLe 26 1 0 (putLe 25 1 0 (putLe 8 8 (rdAt r 8 8) (putLe 0 8 (rdAt r 8 8)
      (openBytes 0 4096))))))

/-- The Active Namespace ID list after an NSID (R362). -/
def State.idList (s : State) (n after : Nat) : List Byte :=
  fitBytes 4096 ((((List.range 16).map (fun i => i + 1)).filter (fun i => after < i && (s.nsFor n i).isSome)).flatMap (leBytes 4))

/-- Identify (R362): CNS 00h, 01h and 02h. -/
def State.identify (k : Nat) (c : StoSlot) (s : State) : State :=
  let cns := bits (c.dw 10) 7 0
  if cns = 0 then
    if 1 ≤ c.dw 1 ∧ c.dw 1 ≤ 16 then (s.toPrp c (s.idNs c.inst (c.dw 1))).stoFinish k 0 0 0 0 else s.stoError k 0 0x0B 1
  else if cns = 1 then (s.toPrp c idCtrl).stoFinish k 0 0 0 0
  else if cns = 2 then (s.toPrp c (s.idList c.inst (c.dw 1))).stoFinish k 0 0 0 0
  else s.stoError k 0 0x02 1

/-- IDENTIFY (R362). -/
def execIdentify (bank : BitVec 2) (slot : BitVec 14) (s : State) : Res :=
  done (s.stoWork (stoKey bank slot) true 0x06 (State.identify (stoKey bank slot)))

/-- Get Log Page (R362): 02h and 04h; the Changed Namespace List clears as it is read. -/
def State.getLog (k : Nat) (c : StoSlot) (s : State) : State :=
  let lid := bits (c.dw 10) 7 0
  let len := (bits (c.dw 10) 31 16 + bits (c.dw 11) 15 0 * 2 ^ 16 + 1) * 4
  let off := c.dw 12 + c.dw 13 * 2 ^ 32
  let page := fun (l : List Byte) => fitBytes (min len 8192) (l.drop off)
  if lid = 2 then (s.toPrp c (page (openBytes 258 512))).stoFinish k 0 0 0 0
  else if lid = 4 then
    let x := s.nvmeCtl c.inst
    let s := s.toPrp c (page (fitBytes 4096 (x.changed.flatMap (leBytes 4))))
    (s.setNvmeCtl c.inst { x with changed := [] }).stoFinish k 0 0 0 0
  else s.stoError k 1 0x09 1

/-- GET_LOG_PAGE (R362). -/
def execGetLogPage (bank : BitVec 2) (slot : BitVec 14) (s : State) : Res :=
  done (s.stoWork (stoKey bank slot) true 0x02 (State.getLog (stoKey bank slot)))

/-- The Number of Queues that the device reports (R362), zero-based in both halves. -/
def State.queueCount (s : State) (n : Nat) : Nat := if s.flag F.RNG_FN_CTL.SVC_EFF n then 0x003F003F else 0

/-- Set Features (R362): 07h and 0Bh only. -/
def State.setFeature (k : Nat) (c : StoSlot) (s : State) : State :=
  let fid := bits (c.dw 10) 7 0
  if fid = 0x07 then
    (s.setNvmeCtl c.inst { s.nvmeCtl c.inst with nq := BitVec.ofNat 32 (s.queueCount c.inst) }).stoFinish k (s.queueCount c.inst) 0 0 0
  else if fid = 0x0B then (s.setNvmeCtl c.inst { s.nvmeCtl c.inst with aec := BitVec.ofNat 32 (c.dw 11) }).stoFinish k 0 0 0 0
  else s.stoError k 0 0x02 1

/-- SET_FEATURES (R362). -/
def execSetFeatures (bank : BitVec 2) (slot : BitVec 14) (s : State) : Res :=
  done (s.stoWork (stoKey bank slot) true 0x09 (State.setFeature (stoKey bank slot)))

/-- Get Features (R362). -/
def State.getFeature (k : Nat) (c : StoSlot) (s : State) : State :=
  let fid := bits (c.dw 10) 7 0
  if fid = 0x07 then s.stoFinish k (s.queueCount c.inst) 0 0 0
  else if fid = 0x0B then s.stoFinish k (s.nvmeCtl c.inst).aec.toNat 0 0 0
  else s.stoError k 0 0x02 1

/-- GET_FEATURES (R362). -/
def execGetFeatures (bank : BitVec 2) (slot : BitVec 14) (s : State) : Res :=
  done (s.stoWork (stoKey bank slot) true 0x0A (State.getFeature (stoKey bank slot)))

/-- The queue identifier exists (R363): 1, or 1 to 64 in service mode. -/
def State.qidOk (s : State) (n qid : Nat) : Bool :=
  decide (1 ≤ qid ∧ qid ≤ (if s.flag F.RNG_FN_CTL.SVC_EFF n then 64 else 1))

/-- The size of a Create lies within the limits of R363. -/
def sizeOk (size : Nat) : Bool := decide (64 ≤ size ∧ size ≤ 65536)

/-- PRP1 of an entry. -/
def StoSlot.prp1 (c : StoSlot) : Nat := c.dw 6 + c.dw 7 * 2 ^ 32

/-- A Create binds a queue, or finds it bound (R363, R364); a queue of a new binding passes `ok`. -/
def State.create (k : Nat) (c : StoSlot) (same bound ok : Bool) (bind : State → State) (s : State) : State :=
  let qid := bits (c.dw 10) 15 0
  if s.qidOk c.inst qid = false then s.stoError k 1 0x01 1
  else if bound then (if same && bit (c.dw 11) 0 then s.stoFinish k 0 0 0 0 else s.stoError k 1 0x01 1)
  else if sizeOk (bits (c.dw 10) 31 16 + 1) = false then s.stoError k 1 0x02 1
  else if bit (c.dw 11) 0 = false then s.stoError k 0 0x02 1
  else if ok = false then s.stoError k 1 0x00 1
  else (bind s).stoFinish k 0 0 0 0

/-- Create I/O Completion Queue (R364). -/
def State.createCq (k : Nat) (c : StoSlot) (s : State) : State :=
  let qid := bits (c.dw 10) 15 0
  let x := s.nvmeQ c.inst qid
  let p := (c.prp1, bits (c.dw 10) 31 16 + 1)
  let v := bits (c.dw 11) 31 16
  s.create k c (x.cq == some p && x.vec == v && x.ien == bit (c.dw 11) 1) x.cq.isSome true
    (fun s => s.setNvmeQ c.inst qid { x with cq := some p, vec := v, ien := bit (c.dw 11) 1 })

/-- CREATE_IO_COMPLETION_QUEUE (R364). -/
def execCreateIoCompletionQueue (bank : BitVec 2) (slot : BitVec 14) (s : State) : Res :=
  done (s.stoWork (stoKey bank slot) true 0x05 (fun c s => s.createCq (stoKey bank slot) c))

/-- Create I/O Submission Queue (R364); its completion queue must be bound. -/
def State.createSq (k : Nat) (c : StoSlot) (s : State) : State :=
  let qid := bits (c.dw 10) 15 0
  let x := s.nvmeQ c.inst qid
  let p := (c.prp1, bits (c.dw 10) 31 16 + 1)
  let cqid := bits (c.dw 11) 31 16
  s.create k c (x.sq == some p && x.cqid == cqid) x.sq.isSome (s.qidOk c.inst cqid && (s.nvmeQ c.inst cqid).cq.isSome)
    (fun s => s.setNvmeQ c.inst qid { x with sq := some p, cqid := cqid, tail := 0, head := 0, pend := none })

/-- CREATE_IO_SUBMISSION_QUEUE (R364). -/
def execCreateIoSubmissionQueue (bank : BitVec 2) (slot : BitVec 14) (s : State) : Res :=
  done (s.stoWork (stoKey bank slot) true 0x01 (fun c s => s.createSq (stoKey bank slot) c))

/-- DELETE_IO_SUBMISSION_QUEUE (R364): success, and nothing changes. -/
def execDeleteIoSubmissionQueue (bank : BitVec 2) (slot : BitVec 14) (s : State) : Res :=
  done (s.stoWork (stoKey bank slot) true 0x00 (fun _ s => s.stoFinish (stoKey bank slot) 0 0 0 0))

/-- DELETE_IO_COMPLETION_QUEUE (R364): success, and nothing changes. -/
def execDeleteIoCompletionQueue (bank : BitVec 2) (slot : BitVec 14) (s : State) : Res :=
  done (s.stoWork (stoKey bank slot) true 0x04 (fun _ s => s.stoFinish (stoKey bank slot) 0 0 0 0))

/-- NVME_ABORT (R362): DW0 bit 0 is 1. -/
def execNvmeAbort (bank : BitVec 2) (slot : BitVec 14) (s : State) : Res :=
  done (s.stoWork (stoKey bank slot) true 0x08 (fun _ s => s.stoFinish (stoKey bank slot) 1 0 0 0))

/-- DW0 of a Namespace Attribute Notice: type Notice, information 0, log page 04h. -/
def noticeDw0 : Nat := 0x00040002

/-- A waiting event request takes a notice, while the configuration value enables it (R362). -/
def State.sendNotice (s : State) (n : Nat) : State :=
  let x := s.nvmeCtl n
  if x.notices = 0 ∨ bit x.aec.toNat 8 = false then s
  else
    match s.slotsWhere (instBank n) (fun c => match c.cmd with | some y => y.inst == n && y.st == .event | none => false) with
    | k :: _ => (s.setNvmeCtl n { x with notices := x.notices - 1 }).stoFinish k noticeDw0 0 0 0
    | [] => s

/-- Asynchronous Event Request (R362): at most AERL + 1 = 4 wait. -/
def State.eventRequest (k : Nat) (c : StoSlot) (s : State) : State :=
  let l := s.slotsWhere (instBank c.inst) (fun x => match x.cmd with | some y => y.inst == c.inst && y.st == .event | none => false)
  if 4 ≤ l.length then s.stoError k 1 0x05 1
  else (s.setCmd k (some { c with st := .event })).sendNotice c.inst

/-- ASYNCHRONOUS_EVENT_REQUEST (R362). -/
def execAsynchronousEventRequest (bank : BitVec 2) (slot : BitVec 14) (s : State) : Res :=
  done (s.stoWork (stoKey bank slot) true 0x0C (State.eventRequest (stoKey bank slot)))

/-! ## I/O commands (R367 to R370) -/

/-- A read of the front end's own records in HBM gave no data (R22, R174).  DESIGN CHOICE (log entry 39): the command ends with
Internal Error. -/
def State.stoFault (s : State) (k : Nat) : State := s.stoError k 0 0x06 0

/-- Check 1 of R367: FUSE, PSDT and MPTR are zero. -/
def StoSlot.plain (c : StoSlot) : Bool := bits (c.dw 0) 9 8 == 0 && bits (c.dw 0) 15 14 == 0 && c.dw 4 == 0 && c.dw 5 == 0

/-- The extents and the split of a transfer (R368): x0, x1 if the transfer reaches it, bytes, split. -/
def stoRange (r : List Byte) (slba nlb : Nat) : Nat × Option Nat × Nat × Nat :=
  let sh := rdAt r 16 1
  let off := slba * 2 ^ sh
  let len := (nlb + 1) * 2 ^ sh
  let x0 := bits (rdAt r 0 4) 29 0 + off / 2 ^ 24
  let split := min len (2 ^ 24 - off % 2 ^ 24)
  (x0, if split < len then some (x0 + 1) else none, len, split)

/-- SLBA and NLB of a command. -/
def StoSlot.slba (c : StoSlot) : Nat := c.dw 10 + c.dw 11 * 2 ^ 32
/-- NLB of a command. -/
def StoSlot.nlb (c : StoSlot) : Nat := bits (c.dw 12) 15 0

/-- Page entries of a transfer. -/
def prpCount (prp1 len : Nat) : Nat := (prp1 % 4096 + len + 4095) / 4096

/-- The header vector of a storage command (R370): the words of R209 at 0x00 to 0x13 and 0x2C, and its own. -/
def State.stoVector (s : State) (k : Nat) (c : StoSlot) (ns len split prps e0 e1 hash : Nat) : List Byte :=
  let bank := k / 16384
  let nsid := c.dw 1
  beBytes 4 (2 ^ 28 + 3 * 2 ^ 26 + bank * 2 ^ 24 + c.inst) ++ beBytes 2 0 ++ beBytes 2 64
    ++ beBytes 2 (s.fld F.RNG_FN_FRZ.GEN c.inst) ++ beBytes 2 c.inst ++ beBytes 4 hash ++ beBytes 4 0
    ++ beBytes 4 (k % 16384 + (s.stoCell k).sgen.toNat * 2 ^ 14 + c.q * 2 ^ 18)
    ++ beBytes 4 (ns + nsid % 256 * 2 ^ 16) ++ beBytes 4 len ++ beBytes 4 split ++ beBytes 4 prps ++ beBytes 4 0
    ++ beBytes 4 c.head ++ beBytes 8 e0 ++ beBytes 8 e1 ++ c.entry.flatMap (fun w => leBytes 4 w.toNat)
    ++ fitBytes 32 (s.nsRec ns) ++ List.replicate 96 0

/-- A checked command goes to a Board as a header vector with a handle of its cell (R370); while the side buffer is full it waits for
its NVMe command's next turn (R213). -/
def State.stoSend (s : State) (k : Nat) (c : StoSlot) (ns len split prps : Nat) (x0 : Nat) (x1 : Option Nat) : State :=
  let bank := k / 16384
  if s.sideFull bank then s.setCmd k (some { c with st := .fetched }) else
  let hash := crc32c (s.rd .BNK_HASH_SEED bank).toNat (beBytes 2 ns ++ beBytes 4 x0)
  let inp := Input.sq c.inst (BitVec.ofNat 7 c.q)
  let e1 := match x1 with | some x => s.extent x | none => 0
  let bytes := s.stoVector k c ns len split prps (s.extent x0) e1 hash
  let w := s.writeFrame inp c.cells c.head (c.entry.flatMap (fun w => leBytes 4 w.toNat)) [] 0 none
  let s := w.2.setCmd k (some { c with st := .sent, epoch := some s.sto.epoch, exts := x0 :: x1.toList })
  (s.intakeVector bank { bytes := bytes, handle := w.1, input := inp, gen := s.fld F.RNG_FN_FRZ.GEN c.inst
                         entry := hash % 4096, learn := false, stamped := false }).1

/-- An extent that holds a write up: unbacked or moving (R369). -/
def extHolds (e : Nat) : Bool := !bit e 63 || bit e 60

/-- An extent index that no held command of the Bank names: its allocation event is posted (R369). -/
def State.postExtent (bank : Nat) (s : State) (x : Nat) : State :=
  let named := (s.holdQ bank).any (fun k => match s.stoCmd k with | some c => c.exts.contains x | none => false)
  if named || bit (s.extent x) 63 then s
  else if 1024 ≤ (s.evq bank).length then s.satInc F.BNK_STO_EVQ_LOST.COUNT bank 1
  else s.setEvq bank (s.evq bank ++ [x])

/-- A write becomes held, or finds the hold queue full (R369). -/
def State.stoHold (s : State) (k : Nat) (c : StoSlot) (xs : List Nat) : State :=
  let bank := k / 16384
  if 256 ≤ (s.holdQ bank).length then s.stoError k 0 0x82 0
  else
    let s := xs.foldl (State.postExtent bank) s
    (s.setCmd k (some { c with st := .held, exts := xs })).setHoldQ bank (s.holdQ bank ++ [k])

/-- A command is translated: refused, held or sent (R367, check 5; R368; R369).  `first`: not yet held. -/
def State.stoTranslate (s : State) (k : Nat) (c : StoSlot) (ns : Nat) (write first : Bool) (prps : Nat) : State :=
  let r := s.nsRec ns
  let t := stoRange r c.slba c.nlb
  let xs := t.1 :: t.2.1.toList
  let stop := bits (rdAt r 0 4) 29 0 + bits (rdAt r 4 4) 30 0
  let q := s.hbmTouch (xs.map (fun x => (extOff + x * 8, 8)))
  let s := q.2
  if q.1 = false then s.stoFault k
  else if write && xs.any (fun x => bit (s.extent x) 61) then s.stoError k 0 0x20 1
  else if xs.any (fun x => decide (stop ≤ x)) then s.stoError k 0 0x80 1
  else if write && xs.any (fun x => extHolds (s.extent x)) then (if first then s.stoHold k c xs else s)
  else s.stoSend k c ns t.2.2.1 t.2.2.2 prps t.1 t.2.1

/-- The entries of a command's pages go to its PRP area, as in host memory (R367, check 4; R370). -/
def State.prpCopy (s : State) (k : Nat) (l : List Nat) : State := s.hbmPutBy (prpOff + k * 4096) (l.flatMap (leBytes 8))

/-- PRP2 of an entry. -/
def StoSlot.prp2 (c : StoSlot) : Nat := c.dw 8 + c.dw 9 * 2 ^ 32

/-- A PRP list in host memory (R367, check 4): from the words read, the `need` page entries and the chain's own pointers, with the
reads that they take.  The last word of a page that does not hold them all names the next page. -/
def prpWalk : Nat → Nat → Nat → List Nat → List Nat × List Nat × List (Nat × Nat)
  | 0, _, _, _ => ([], [], [])
  | fuel + 1, need, addr, ws =>
    let c := (4096 - addr % 4096) / 8
    if need ≤ c then (ws.take need, [], [(addr, need * 8)])
    else
      let p := ws.getD (c - 1) 0
      let r := prpWalk fuel (need - (c - 1)) p (ws.drop c)
      (ws.take (c - 1) ++ r.1, p :: r.2.1, (addr, c * 8) :: r.2.2)

/-- Reads of host memory by an instance's function. -/
def State.hostReads (s : State) (n : Nat) (l : List (Nat × Nat)) : State :=
  l.foldl (fun s x => s.hostAsk (instEp n) (instFn n) x.1 x.2 false false) s

/-- A command's pages after the first (R367, check 4): none for a failed read of the PRP list; and the state after the reads.  Two
pages stand in PRP1 and PRP2; of more, PRP2 names the list. -/
def State.prpPages (s : State) (c : StoSlot) (n : Nat) (list : Option (List Nat)) : Option (List Nat × List Nat) × State :=
  if n ≤ 1 then (some ([], []), s)
  else if n = 2 then (some ([c.prp2], []), s)
  else match list with
    | none => (none, s.hostReads c.inst [(c.prp2, min (n - 1) ((4096 - c.prp2 % 4096) / 8) * 8)])
    | some ws =>
      let r := prpWalk 3 (n - 1) c.prp2 ws
      (some ((List.range (n - 1)).map (fun i => r.1.getD i 0), r.2.1), s.hostReads c.inst r.2.2)

/-- Checks 1 and 2 of R367. -/
def State.stoPlain (k : Nat) (f : Nat → State → State) (c : StoSlot) (s : State) : State :=
  if c.plain = false then s.stoError k 0 0x02 1
  else if s.stoReady = false then s.stoError k 0 0x82 0
  else
    let nsid := c.dw 1
    let r := s.hbmTouch (if 1 ≤ nsid ∧ nsid ≤ 16 then [(mapOff + c.inst * 64 + 4 * (nsid - 1), 4)] else [])
    if r.1 = false then r.2.stoFault k
    else match r.2.nsOf c.inst nsid with
      | none => r.2.stoError k 0 0x0B 1
      | some ns =>
        let q := r.2.hbmTouch [(nsOff + ns * 32, 32)]
        if q.1 = false then q.2.stoFault k
        else match q.2.nsFor c.inst nsid with
          | none => q.2.stoError k 0 0x0B 1
          | some ns => f ns q.2

/-- Checks 3 and 4 of R367 for Read, Write and Write Zeroes, then the translation; `list` is what the PRP list's pages held, none for
a failed read. -/
def State.stoRun (k : Nat) (write data : Bool) (list : Option (List Nat)) (c : StoSlot) (ns : Nat) (s : State) : State :=
  let c := { c with ns := some ns }
  let s := s.setCmd k (some c)
  let r := s.nsRec ns
  let len := (stoRange r c.slba c.nlb).2.2.1
  let n := prpCount c.prp1 len
  if rdAt r 8 8 < c.slba + c.nlb + 1 then s.stoError k 0 0x80 1
  else if stoMax < len then s.stoError k 0 0x02 1
  else if data = false then s.stoTranslate k c ns write true 0
  else match s.prpPages c n list with
    | (none, s) => s.stoError k 0 0x04 0
    | (some (l, chain), s) =>
      if (l ++ chain).any (fun p => p % 4096 != 0) then s.stoError k 0 0x13 1
      else (s.prpCopy k (c.prp1 :: l)).stoTranslate k c ns write true n

/-- The checks of R367 for Read, Write and Write Zeroes. -/
def State.stoIo (k : Nat) (write data : Bool) (list : Option (List Nat)) (c : StoSlot) (s : State) : State :=
  State.stoPlain k (State.stoRun k write data list c) c s

/-- NVME_READ (R367, R368). -/
def execNvmeRead (bank : BitVec 2) (slot : BitVec 14) (list : Option (List (BitVec 64))) (s : State) : Res :=
  done (s.stoWork (stoKey bank slot) false 0x02
    (State.stoIo (stoKey bank slot) false true (list.map (fun l => l.map BitVec.toNat))))

/-- NVME_WRITE (R367 to R369). -/
def execNvmeWrite (bank : BitVec 2) (slot : BitVec 14) (list : Option (List (BitVec 64))) (s : State) : Res :=
  done (s.stoWork (stoKey bank slot) false 0x01
    (State.stoIo (stoKey bank slot) true true (list.map (fun l => l.map BitVec.toNat))))

/-- WRITE_ZEROES (R367 to R369). -/
def execWriteZeroes (bank : BitVec 2) (slot : BitVec 14) (s : State) : Res :=
  done (s.stoWork (stoKey bank slot) false 0x08 (State.stoIo (stoKey bank slot) true false none))

/-- FLUSH (R373): it waits for the earlier writes. -/
def execFlush (bank : BitVec 2) (slot : BitVec 14) (s : State) : Res :=
  let k := stoKey bank slot
  done (s.stoWork k false 0x00 (fun c => State.stoPlain k (fun ns s => s.setCmd k (some { c with st := .flush, ns := some ns })) c))

/-- The namespace of a write: the one it was checked against, or, before that, the one its NSID names. -/
def State.writeNs (s : State) (y : StoSlot) : Option Nat := match y.ns with | some m => some m | none => s.nsOf y.inst (y.dw 1)

/-- An earlier write of the same instance and namespace is still incomplete (R373). -/
def State.earlierWrite (s : State) (c : StoSlot) (x : StoCell) : Bool :=
  match x.cmd with
  | some y => y.inst == c.inst && s.writeNs y == c.ns && y.q != 0 && (y.op == 0x01 || y.op == 0x08) && decide (y.order < c.order)
  | none => false

/-- FLUSH_COMPLETE (R373). -/
def execFlushComplete (bank : BitVec 2) (slot : BitVec 14) (s : State) : Res :=
  let k := stoKey bank slot
  match s.stoCmd k with
  | some c =>
    if c.st == .flush && (s.slotsWhere bank.toNat (s.earlierWrite c)).isEmpty then done (s.stoFinish k 0 0 0 0) else done s
  | none => done s

/-- Dataset Management (R362, R367, R370): the range list is copied to the slot's PRP area and handed to the program; extent 0 of
the namespace steers it (DESIGN CHOICE, log entry 39). -/
def State.stoDsm (k : Nat) (ranges : Option (List Byte)) (c : StoSlot) (ns : Nat) (s : State) : State :=
  let len := (bits (c.dw 10) 7 0 + 1) * 16
  let n := min len (4096 - c.prp1 % 4096)
  if n < len ∧ c.prp2 % 4096 ≠ 0 then s.stoError k 0 0x13 1
  else
    let s := s.hostReads c.inst ((c.prp1, n) :: (if n < len then [(c.prp2, len - n)] else []))
    match ranges with
    | none => s.stoError k 0 0x04 0
    | some l =>
      let x0 := bits (rdAt (s.nsRec ns) 0 4) 29 0
      let q := s.hbmTouch [(extOff + x0 * 8, 8)]
      if q.1 = false then q.2.stoFault k
      else (q.2.hbmPutBy (prpOff + k * 4096) (fitBytes len l)).stoSend k { c with ns := some ns } ns 0 0 0 x0 none

/-- DATASET_MANAGEMENT (R362). -/
def execDatasetManagement (bank : BitVec 2) (slot : BitVec 14) (ranges : Option (List (BitVec 8))) (s : State) : Res :=
  let k := stoKey bank slot
  done (s.stoWork k false 0x09 (fun c => State.stoPlain k (State.stoDsm k ranges c) c))

/-- The page entries of a held command, as its PRP area was counted. -/
def StoSlot.heldPrps (c : StoSlot) (r : List Byte) : Nat :=
  if c.op = 0x08 then 0 else prpCount c.prp1 (stoRange r c.slba c.nlb).2.2.1

/-- A held command that names a written extent is translated again (R369); it leaves the hold queue if it goes on. -/
def State.retranslate (x bank : Nat) (s : State) (k : Nat) : State :=
  match s.stoCmd k with
  | some c =>
    if c.st == .held && c.exts.contains x then
      match s.nsFor c.inst (c.dw 1) with
      | none => (s.stoError k 0 0x0B 1).setHoldQ bank ((s.holdQ bank).erase k)
      | some ns =>
        let s := s.stoTranslate k c ns true false (c.heldPrps (s.nsRec ns))
        match s.stoCmd k with
        | some d => if d.st == .held then s else s.setHoldQ bank ((s.holdQ bank).erase k)
        | none => s
    else s
  | none => s

/-- HOLD_TIMEOUT (R369). -/
def execHoldTimeout (bank : BitVec 2) (slot : BitVec 14) (s : State) : Res :=
  let k := stoKey bank slot
  match s.stoCmd k with
  | some c =>
    if c.st == .held then
      let s := s.setHoldQ bank.toNat ((s.holdQ bank.toNat).erase k)
      done (if c.exts.any (fun x => !bit (s.extent x) 63) then s.stoError k 0 0x81 1 else s.stoError k 0 0x82 0)
    else done s
  | none => done s

/-! ## Staging buffers and events (R369, R377) -/

/-- A read of BNK_STO_STG_ALLOC: bits [47:16] of a free buffer of the Bank's part, or 0. -/
def State.stgAlloc (s : State) (bank : Nat) : Nat × State :=
  let free := fun k => !Tbl.get (fun _ => false) s.sto.stage k
  match ((List.range (s.sto.stage.length + 1)).map (fun i => bank * 65536 + (Config.firstStage s.free + i) % 65536)).find? free with
  | some k =>
    if ((s.sto.stage.filter (fun e => e.1 / 65536 == bank)).length < 65536) then
      (0x1C0000 + k, (s.draw.putSto { s.sto with stage := Tbl.set (fun _ => false) s.sto.stage k true }))
    else (0, s)
  | none => (0, s)

/-- STG_ALLOC (R377). -/
def execStgAlloc (bank : BitVec 2) (s : State) : Res :=
  if s.reachable (bankChip bank.toNat) then
    let r := s.stgAlloc bank.toNat
    done (r.2.answer (.data (BitVec.ofNat 32 r.1)))
  else done (s.answer .busError)

/-- A write of BNK_STO_STG_FREE. -/
def State.stgFree (s : State) (bank : Nat) (v : Word) : State :=
  let k := v.toNat - 0x1C0000
  if 0x1C0000 ≤ v.toNat ∧ k / 65536 = bank ∧ Tbl.get (fun _ => false) s.sto.stage k = true then
    s.putSto { s.sto with stage := Tbl.set (fun _ => false) s.sto.stage k false }
  else s.satInc F.BNK_STO_STG_ERR.COUNT bank 1

/-- STG_FREE (R377). -/
def execStgFree (bank : BitVec 2) (v : BitVec 32) (s : State) : Res :=
  done (s.atChip (bankChip bank.toNat) (fun s => s.stgFree bank.toNat v))

/-- A read of BNK_STO_EVQ removes the oldest event (R382). -/
def State.evqRead (s : State) (bank : Nat) : Word × State :=
  match s.evq bank with
  | [] => (0, s)
  | x :: t => (BitVec.ofNat 32 (x % 2 ^ 30 + 2 ^ 31), s.setEvq bank t)

/-- STO_EVQ_READ (R382). -/
def execStoEvqRead (bank : BitVec 2) (s : State) : Res :=
  if s.reachable (bankChip bank.toNat) then
    let r := s.evqRead bank.toNat
    done (r.2.answer (.data r.1))
  else done (s.answer .busError)

/-! ## The command block (R374, R383) -/

/-- The DATA registers of a Bank as bytes. -/
def State.cmdBytes (s : State) (bank n : Nat) : List Byte :=
  (List.range (n / 4)).flatMap (fun i => beBytes 4 (s.rd .STO_CMD_DATA (bank * 16 + i)).toNat)

/-- The DATA registers of a Bank loaded from bytes. -/
def State.loadCmd (s : State) (bank : Nat) (l : List Byte) : State :=
  (List.range (l.length / 4)).foldl (fun s i => s.wr .STO_CMD_DATA (bank * 16 + i) (BitVec.ofNat 32 (rdAt l (4 * i) 4))) s

/-- CMD_IDX.INDEX. -/
def State.cmdIdx (s : State) (bank : Nat) : Nat := s.fld F.STO_CMD_IDX.INDEX bank

/-- A command of the block (R383): rejected while BUSY; it finds HBM mapped, or does nothing and sets NOHBM.  Its effect is whole in
its own step, so BUSY is 0 after it (DESIGN CHOICE, log entry 39). -/
def State.stoGo (s : State) (bank : Nat) (f : State → State) : State :=
  if s.flag F.STO_CMD_STAT.BUSY bank then s.setFld F.STO_CMD_STAT.REJ bank 1
  else if s.hbmMapped then f (s.setFld F.STO_CMD_STAT.NOHBM bank 0) else s.setFld F.STO_CMD_STAT.NOHBM bank 1

/-- A namespace of an instance has changed: its notice is queued (R362, R383). -/
def State.noteChange (s : State) (n nsid : Nat) : State :=
  let x := s.nvmeCtl n
  let c := if x.changed.contains nsid || x.changed.length ≥ 1024 then x.changed else x.changed ++ [nsid]
  (s.setNvmeCtl n { x with notices := x.notices + 1, changed := c }).sendNotice n

/-- EXT_WRITE (R369, R374): one indivisible write; held commands that name the entry are translated again. -/
def State.extWrite (s : State) (bank : Nat) : State :=
  s.stoGo bank (fun s =>
    let x := s.cmdIdx bank
    let s := s.hbmPutBy (extOff + x * 8) (s.cmdBytes bank 8)
    let s := s.putSto { s.sto with epoch := s.sto.epoch + 1 }
    (List.range 4).foldl (fun s b => (s.holdQ b).foldl (State.retranslate x b) s) s)

/-- EXT_WRITE (R374). -/
def execExtWrite (bank : BitVec 2) (s : State) : Res := done (s.atChip (bankChip bank.toNat) (fun s => s.extWrite bank.toNat))

/-- A READ of the block: the DATA registers take n bytes of HBM.  DESIGN CHOICE (log entry 39): a read that gives no data loads
nothing. -/
def State.loadFrom (s : State) (bank off n : Nat) : State :=
  let r := s.hbmTouch [(off, n)]
  if r.1 then r.2.loadCmd bank (r.2.hbmRead off n) else r.2

/-- EXT_READ's effect (R383). -/
def State.extRead (s : State) (bank : Nat) : State :=
  s.stoGo bank (fun s => s.loadFrom bank (extOff + s.cmdIdx bank * 8) 8)

/-- EXT_READ (R383). -/
def execExtRead (bank : BitVec 2) (s : State) : Res := done (s.atChip (bankChip bank.toNat) (fun s => s.extRead bank.toNat))

/-- NSIDs under which an instance sees a namespace. -/
def State.seenAs (s : State) (n ns : Nat) : List Nat :=
  ((List.range 16).map (fun i => i + 1)).filter (fun i => s.nsOf n i == some ns)

/-- NS_WRITE's effect (R374, R383). -/
def State.nsWrite (s : State) (bank : Nat) : State :=
  s.stoGo bank (fun s =>
    let ns := s.cmdIdx bank % 65536
    let old := s.nsRec ns
    let s := s.hbmPutBy (nsOff + ns * 32) (s.cmdBytes bank 32)
    let owners := if s.nsRec ns = old then [] else dedup [rdAt old 18 2, rdAt (s.nsRec ns) 18 2]
    owners.foldl (fun s n => (s.seenAs n ns).foldl (fun s i => s.noteChange n i) s) s)

/-- NS_WRITE (R374). -/
def execNsWrite (bank : BitVec 2) (s : State) : Res := done (s.atChip (bankChip bank.toNat) (fun s => s.nsWrite bank.toNat))

/-- NS_READ's effect (R383). -/
def State.nsRead (s : State) (bank : Nat) : State := s.stoGo bank (fun s => s.loadFrom bank (nsOff + s.cmdIdx bank % 65536 * 32) 32)

/-- NS_READ (R383). -/
def execNsRead (bank : BitVec 2) (s : State) : Res := done (s.atChip (bankChip bank.toNat) (fun s => s.nsRead bank.toNat))

/-- MAP_WRITE's effect (R374, R383): entries that change are noted. -/
def State.mapWrite (s : State) (bank : Nat) : State :=
  s.stoGo bank (fun s =>
    let n := s.cmdIdx bank % 65536
    let old := s.hbmRead (mapOff + n * 64) 64
    let l := s.cmdBytes bank 64
    let s := s.hbmPutBy (mapOff + n * 64) l
    ((List.range 16).filter (fun i => rdAt old (4 * i) 4 != rdAt l (4 * i) 4)).foldl (fun s i => s.noteChange n (i + 1)) s)

/-- MAP_WRITE (R374). -/
def execMapWrite (bank : BitVec 2) (s : State) : Res := done (s.atChip (bankChip bank.toNat) (fun s => s.mapWrite bank.toNat))

/-- MAP_READ's effect (R383). -/
def State.mapRead (s : State) (bank : Nat) : State :=
  s.stoGo bank (fun s => s.loadFrom bank (mapOff + s.cmdIdx bank % 65536 * 64) 64)

/-- MAP_READ (R383). -/
def execMapRead (bank : BitVec 2) (s : State) : Res := done (s.atChip (bankChip bank.toNat) (fun s => s.mapRead bank.toNat))

/-- A write of CMD_GO (R383). -/
def State.cmdGo (s : State) (bank : Nat) (v : Word) : State :=
  match fieldOf v 2 0 with
  | 1 => s.extWrite bank
  | 2 => s.extRead bank
  | 3 => s.nsWrite bank
  | 4 => s.nsRead bank
  | 5 => s.mapWrite bank
  | 6 => s.mapRead bank
  | _ => s

/-- BNK_STO_SYNC.DONE of a Bank (R374): no busy command was translated before the last extent write. -/
def State.stoSync (s : State) (bank : Nat) : Bool :=
  (s.slotsWhere bank (fun c => match c.cmd with | some x => (match x.epoch with | some e => e != s.sto.epoch | none => false) | none => false)).isEmpty

/-! ## Function-wide reset (R361, R380, R455) -/

/-- A busy slot of an instance enters quarantine; the cell of a command that no thread has is freed (R380). -/
def State.slotQuarantine (s : State) (k : Nat) : State :=
  match s.stoCmd k with
  | some c =>
    let s := if [SlotSt.fetched, .held, .flush, .event].contains c.st then s.reclaimCells c.cells false else s
    s.setCell k { s.stoCell k with cmd := none, quar := some c.inst }
  | none => s

/-- The storage side of a function-wide reset: queues unbound, held commands dropped, busy slots in quarantine (R455). -/
def State.storageClear (s : State) (n : Nat) : State :=
  let bank := instBank n
  let mine := s.slotsWhere bank (fun c => match c.cmd with | some x => x.inst == n | none => false)
  let s := s.setHoldQ bank ((s.holdQ bank).filter (fun k => !mine.contains k))
  let s := (mine.foldl State.slotQuarantine s).showSlots bank
  let s := (List.range 65).foldl (fun s q => s.setNvmeQ n q nvmeUnbound) s
  ((s.setNvmeCtl n ctlReset).wr .NVME_CC n 0).wr .NVME_CSTS n 0

/-- The admin queue registers of a storage function at reset. -/
def State.adminRegsClear (s : State) (n : Nat) : State :=
  ((s.wr .NVME_AQA n 0).wr64 .NVME_ASQ .NVME_ASQ_HI n 0).wr64 .NVME_ACQ .NVME_ACQ_HI n 0

/-- SLOT_QUARANTINE_END (R380): 50 ms after the reset of an instance its slots are free. -/
def execSlotQuarantineEnd (inst : Nat) (s : State) : Res :=
  let l := (s.sto.slots.filter (fun e => e.2.quar == some inst)).map (fun e => e.1)
  done ((l.foldl (fun s k => s.setCell k { s.stoCell k with quar := none }) s).showSlots (instBank inst))

end Sys2Proof.Machine
end

