-- ==== Sys2Proof/Machine/Vault.lean ====
section
/-! DEFINITION. The vault: its records in MRAM, the copy in use, commits and their budget (15, R507 to R514, R530). -/
namespace Sys2Proof.Machine

/-- The block index of the vault (R501). -/
def blkVault : Nat := 0x016

/-- The block index of the power and thermal governors (R501). -/
def blkPower : Nat := 0x018

/-- The device unique secret (R504). -/
def dus : List Byte := (List.range 32).map Config.dusByte

/-- The KDF of NIST SP 800-108 in counter mode with AES-CMAC (R504): n bytes, 32-bit counter and length and an empty context (PRESUMED,
log entry 51). -/
def kdf108 (key label : List Byte) (n : Nat) : List Byte :=
  ((List.range ((n + 15) / 16)).flatMap (fun i => cmac key (beBytes 4 (i + 1) ++ label ++ [0] ++ beBytes 4 (8 * n)))).take n

/-- The vault key VK (R504): label "VAULT". -/
def vaultKey : List Byte := kdf108 dus [0x56, 0x41, 0x55, 0x4C, 0x54] 32

/-- The device identity key DIK, a P-384 private scalar (R504): label "IDENT". -/
def identityKey : List Byte := kdf108 dus [0x49, 0x44, 0x45, 0x4E, 0x54] 48

/-- n bytes of MRAM. -/
def State.mramRead (s : State) (off n : Nat) : List Byte := Tbl.readBytes s.trust.mram off n

/-- The state with bytes of MRAM written. -/
def State.mramWrite (s : State) (off : Nat) (l : List Byte) : State :=
  s.putTrust { s.trust with mram := Tbl.writeBytes s.trust.mram off l }

/-- The MRAM offset of copy c of a record. -/
def copyOff (rid c : Nat) : Nat := (rid * 2 + c) * 4096

/-- Copy c of a record: its 4 KiB. -/
def State.copyBytes (s : State) (rid c : Nat) : List Byte := s.mramRead (copyOff rid c) 4096

/-- LEN of a copy. -/
def copyLen (l : List Byte) : Nat := rdAt l 6 2

/-- SEQ of a copy. -/
def copySeq (l : List Byte) : Nat := rdAt l 8 4

/-- CRC-32C of R401's form: initial value and final XOR all ones. -/
def crcForm (l : List Byte) : Nat := crc32c 0xFFFFFFFF l ^^^ 0xFFFFFFFF

/-- A copy is valid (R510). -/
def copyValid (rid : Nat) (l : List Byte) : Bool :=
  let n := copyLen l
  rdAt l 0 4 == 0x56524331 && rdAt l 4 2 == rid && decide (n ≤ 4032)
    && rdAt l (16 + n) 4 == crcForm (l.take (16 + n)) && (l.drop (20 + n)).take 16 == cmac vaultKey (l.take (20 + n))

/-- AES-256-CTR from a counter (R508). -/
def ctrRun (key : List Byte) : Nat → Nat → List Byte → List Byte
  | 0, _, _ => []
  | fuel + 1, ctr, l =>
    if l.isEmpty then []
    else xorBytes (l.take 16) (aesEnc key (beBytes 16 ctr)) ++ ctrRun key fuel (ctr + 1) (l.drop 16)

/-- The payload of records 16 to 31 is enciphered under VK; the same operation deciphers it (R508). -/
def vaultCrypt (rid seq : Nat) (l : List Byte) : List Byte :=
  if 16 ≤ rid ∧ rid ≤ 31 then ctrRun vaultKey 253 (rid * 2 ^ 112 + seq * 2 ^ 80) l else l

/-- The payload of a copy. -/
def copyPayload (rid : Nat) (l : List Byte) : List Byte := vaultCrypt rid (copySeq l) ((l.drop 16).take (copyLen l))

/-- The copy that start-up selects (R510). -/
def selectCopy (rid : Nat) (l0 l1 : List Byte) : Option Nat :=
  match copyValid rid l0, copyValid rid l1 with
  | true, true =>
    let d := (copySeq l1 + 2 ^ 32 - copySeq l0) % 2 ^ 32
    some (if 1 ≤ d ∧ d ≤ 2 ^ 31 - 1 then 1 else 0)
  | true, false => some 0
  | false, true => some 1
  | false, false => none

/-- The copy of a record in use; none for an absent record. -/
def State.inUseCopy (s : State) (rid : Nat) : Option Nat := Tbl.get (fun _ => none) s.trust.inUse rid

/-- A record's payload; none for an absent record. -/
def State.record (s : State) (rid : Nat) : Option (List Byte) :=
  (s.inUseCopy rid).map (fun c => copyPayload rid (s.copyBytes rid c))

/-- Start-up selects the copies of every record and counts the invalid ones (R510); a copy never written is no invalid copy.  The
highest WCOUNT of a valid copy is shown (R514). -/
def State.vaultSelect (s : State) : State :=
  let pick := fun (t : TrustUnit) rid =>
    { t with inUse := Tbl.set (fun _ => none) t.inUse rid (selectCopy rid (s.copyBytes rid 0) (s.copyBytes rid 1)) }
  let used := (s.trust.mram.map (fun e => e.1 / 4096)).foldl (fun a k => if a.contains k then a else a ++ [k]) []
  let bad := (used.filter (fun k => !copyValid (k / 2) (s.copyBytes (k / 2) (k % 2)))).length
  let wear := ((used.filter (fun k => copyValid (k / 2) (s.copyBytes (k / 2) (k % 2)))).map (fun k =>
    rdAt (s.copyBytes (k / 2) (k % 2)) 12 4)).foldl max 0
  ((s.putTrust ((List.range 128).foldl pick { s.trust with inUse := [] })).setFld F.HDW_VAULT_BADCOPY.COUNT 0 (min bad 255)).wr
    .HDW_VAULT_WEAR 0 (BitVec.ofNat 32 wear)

/-! ## Commits (R511, R512) -/

/-- The bytes of a new copy (R508, R511). -/
def copyImage (rid seq wcount : Nat) (payload : List Byte) : List Byte :=
  let l := beBytes 4 0x56524331 ++ beBytes 2 rid ++ beBytes 2 payload.length ++ beBytes 4 seq ++ beBytes 4 wcount
    ++ vaultCrypt rid seq payload
  let l := l ++ beBytes 4 (crcForm l)
  l ++ cmac vaultKey l

/-- A commit of a record starts: it writes the other copy, or copy 0 of an absent record, with the next SEQ (R511). -/
def State.commitStart (s : State) (rid : Nat) (payload : List Byte) : State :=
  let use := s.inUseCopy rid
  let c := match use with | some c => 1 - c | none => 0
  let seq := match use with | some c => (copySeq (s.copyBytes rid c) + 1) % 2 ^ 32 | none => 1
  let w := rdAt (s.copyBytes rid c) 12 4 + 1
  (s.putTrust { s.trust with copy := some { rid := rid, copy := c, bytes := copyImage rid seq w payload } }).setFld
    F.HDW_VAULT_STAT.BUSY 0 1

/-- PEND shows the pending commits. -/
def State.showPend (s : State) : State := s.setFld F.HDW_VAULT_STAT.PEND 0 s.trust.pend.length

/-- The state with a record's pending payload replaced. -/
def State.setPend (s : State) (rid : Nat) (p : Option (List Byte)) : State :=
  (s.putTrust { s.trust with pend := Tbl.set (fun _ => none) s.trust.pend rid p }).showPend

/-- The next pending commit starts, in RID order, if a token is there and no copy is being written (R512). -/
def State.commitNext_ (s : State) : State :=
  match s.trust.pend with
  | (rid, some p) :: _ =>
    if s.trust.copy.isSome || s.fld F.HDW_VAULT_STAT.TOKENS 0 == 0 || s.flag F.HDW_VAULT_STAT.PFAIL 0 then s
    else ((s.setPend rid none).setFld F.HDW_VAULT_STAT.TOKENS 0 (s.fld F.HDW_VAULT_STAT.TOKENS 0 - 1)).commitStart rid p
  | _ => s

/-- Results of HDW_VAULT_STAT (R530). -/
def vrOk : Nat := 0
/-- BADRID. -/
def vrBadRid : Nat := 1
/-- BADLEN. -/
def vrBadLen : Nat := 2
/-- DENIED. -/
def vrDenied : Nat := 3
/-- ABSENT. -/
def vrAbsent : Nat := 4
/-- PFAIL. -/
def vrPfail : Nat := 5

/-- The state with a vault result. -/
def State.vaultResult (s : State) (r : Nat) : State := s.setFld F.HDW_VAULT_STAT.RESULT 0 r

/-- SEQ of the copy in use. -/
def State.showSeq (s : State) (rid : Nat) : State :=
  match s.inUseCopy rid with
  | some c => s.wr .HDW_VAULT_SEQ 0 (BitVec.ofNat 32 (copySeq (s.copyBytes rid c)))
  | none => s.wr .HDW_VAULT_SEQ 0 0

/-- A commit waits as pending, and starts at once if it may (R512). -/
def State.commitAsk (s : State) (rid : Nat) (p : List Byte) : State := (s.setPend rid (some p)).commitNext_

/-- A copy write ends and the new copy is in use (R511, R513, R514). -/
def State.copyDone (s : State) : State :=
  match s.trust.copy with
  | none => s
  | some w =>
    let s := s.mramWrite (copyOff w.rid w.copy) w.bytes
    let s := s.putTrust { s.trust with copy := none, inUse := Tbl.set (fun _ => none) s.trust.inUse w.rid (some w.copy) }
    let s := ((s.setFld F.HDW_VAULT_STAT.BUSY 0 0).satInc F.HDW_VAULT_COMMITS.COUNT 0 1).showSeq w.rid
    let old := (s.rd .HDW_VAULT_WEAR 0).toNat
    let wear := max old (rdAt w.bytes 12 4)
    let s := s.wr .HDW_VAULT_WEAR 0 (BitVec.ofNat 32 wear)
    let s := if old ≤ 80000000 ∧ 80000000 < wear then s.event 0 blkVault 0x0901 sevNote wear else s
    s.commitNext_

/-- VAULT_COPY_WRITE_DONE (R511). -/
def execVaultCopyWriteDone (s : State) : Res := done s.copyDone

/-- COMMIT_TOKEN_REFILL (R512): one token more, at most 1,024. -/
def execCommitTokenRefill (s : State) : Res :=
  done ((s.setFld F.HDW_VAULT_STAT.TOKENS 0 (min 1024 (s.fld F.HDW_VAULT_STAT.TOKENS 0 + 1))).commitNext_)

/-- HDW_VAULT_BUF's first n bytes. -/
def State.vaultBuf (s : State) (n : Nat) : List Byte :=
  ((List.range 1008).flatMap (fun i => beBytes 4 (s.rd .HDW_VAULT_BUF i).toNat)).take n

/-- HDW_VAULT_BUF loaded with a payload; the rest keeps its words. -/
def State.loadBuf (s : State) (l : List Byte) : State :=
  let n := (l.length + 3) / 4
  (List.range n).foldl (fun s i => s.wr .HDW_VAULT_BUF i (bytesWord (fitBytes 4 ((l.drop (4 * i)).take 4)))) s

/-- HDW_LC_STAT.LC in effect: 0 Blank, 1 Provisioned, 2 Deployed, 3 Returned. -/
def State.lifecycle (s : State) : Nat := s.fld F.HDW_LC_STAT.LC 0

/-- HDW_LC_STAT.DEBUG: 0 Off, 1 Observe, 2 Intrude. -/
def State.debugLevel (s : State) : Nat := s.fld F.HDW_LC_STAT.DEBUG 0

/-- A vault token allows a WRITE of the record now (R517): its digest matches the buffer and 1 s has not passed. -/
def State.writeToken (s : State) (rid : Nat) : Bool :=
  match s.trust.write with
  | some (r, dig, since) =>
    r == rid && decide (s.time.tick ≤ since + 1000000000) && dig == sha384 (s.vaultBuf (s.fld F.HDW_VAULT_LEN.BYTES 0))
  | none => false

/-- The manager may write a record (R509, R517). -/
def State.mayWrite (s : State) (rid : Nat) : Bool :=
  if rid ≤ 15 then true
  else if 17 ≤ rid ∧ rid ≤ 19 then (s.lifecycle != 2 || s.writeToken rid)
  else if rid = 32 then s.lifecycle == 0 && s.debugLevel == 2
  else false

/-- The record number is one of R509 that a command may name. -/
def ridKnown (rid : Nat) : Bool := decide (rid ≤ 19) || rid == 32

/-- VAULT_WRITE (R512): HDW_VAULT_CMD WRITE. -/
def State.vaultWrite (s : State) (rid : Nat) : State :=
  let n := s.fld F.HDW_VAULT_LEN.BYTES 0
  if s.flag F.HDW_VAULT_STAT.PFAIL 0 then s.vaultResult vrPfail
  else if ridKnown rid = false then s.vaultResult vrBadRid
  else if 4032 < n then s.vaultResult vrBadLen
  else if s.mayWrite rid = false then s.vaultResult vrDenied
  else
    let used := match s.trust.write with | some (r, _, _) => r == rid | none => false
    let s := if used then s.putTrust { s.trust with write := none } else s
    ((s.vaultResult vrOk).commitAsk rid (s.vaultBuf n)).showSeq rid

/-- VAULT_WRITE (R512). -/
def execVaultWrite (rid : BitVec 7) (s : State) : Res :=
  done (s.atChip 0 (fun s => s.vaultWrite rid.toNat))

/-- HDW_VAULT_CMD READ (R530): the payload of the copy in use; a READ of record 18 is denied. -/
def State.vaultRead (s : State) (rid : Nat) : State :=
  if ridKnown rid = false then s.vaultResult vrBadRid
  else if rid = 18 then s.vaultResult vrDenied
  else match s.record rid with
    | none => (s.vaultResult vrAbsent).showSeq rid
    | some p => (((s.loadBuf p).setFld F.HDW_VAULT_LEN.BYTES 0 p.length).vaultResult vrOk).showSeq rid

/-- VAULT_READ (R530). -/
def execVaultRead (rid : BitVec 7) (s : State) : Res :=
  done (s.atChip 0 (fun s => s.vaultRead rid.toNat))

/-- A power-fail warning (R513): the copy write finishes, pending records are discarded, PFAIL_OUT# goes low; `data` tells
the pin. -/
def State.powerFail (s : State) (data : Nat) : State :=
  let s := (s.setFld F.HDW_VAULT_STAT.PFAIL 0 1).copyDone
  let s := s.putTrust { s.trust with pend := [], pfailOut := true }
  s.showPend.event 0 blkPower 0x0904 sevError data

/-- POWER_FAIL_WARNING (R513). -/
def execPowerFailWarning (pin : Bool) (s : State) : Res := done (s.powerFail (b2n pin))

end Sys2Proof.Machine
end

