-- ==== Sys2Proof/Machine/Instances.lean ====
section
/-! DEFINITION. Instances: the function-wide reset, generations, freeze, save, restore and thaw (13, R444 to R466). -/
namespace Sys2Proof.Machine

/-! ## Requests under way (R456) -/

/-- A channel has started a descriptor with a side through the instance's function (R456). -/
def State.dmaOut (s : State) (n : Nat) : Bool :=
  s.dma.any (fun e => match e.2.act with
    | some d => d.started && d.held.isNone
        && ((d.side false).host == some (instEp n, instFn n) || (d.side true).host == some (instEp n, instFn n))
    | none => false)

/-! ## The function-wide reset (R455, R456) -/

/-- The egress queues of an instance that hold frames. -/
def State.instQueues (s : State) (n : Nat) : List Nat := s.busyQueues.filter (fun q => s.fld F.CFL_QADM.INSTANCE q == n)

/-- One queue is flushed: its frames are unlinked and their cells go to reclaim; no shaper is debited (R455, step 3). -/
def State.flushQueue (s : State) (q : Nat) : State :=
  let l := s.queue q
  l.foldl (fun s e => s.dropRef e.first) ((s.setQueue q []).setDepth q 0)

/-- Frames already released to the ring unit for the instance are freed without being written (R455, step 3). -/
def State.freeReleased (s : State) (n : Nat) : State :=
  let port := 288 + instEp n
  let mine := fun (o : OutItem) => s.fld F.CFL_QADM.INSTANCE o.queue == n
  ((s.outQueue port).filter mine).foldl (fun s o => s.dropRef o.e.first)
    (s.setOutQueue port ((s.outQueue port).filter (fun o => !mine o)))

/-- MSI-X table, pending bits and, with it, Enable and Function Mask of a function reset (R403). -/
def State.msixReset (s : State) (ep fn : Nat) : State :=
  s.resetRegs (fun r i => match r with
    | .PCIE_MSIX_ADDR => i / 2048 == fnKey ep fn
    | .PCIE_MSIX_ADDR_HI => i / 2048 == fnKey ep fn
    | .PCIE_MSIX_DATA => i / 2048 == fnKey ep fn
    | .PCIE_MSIX_VCTL => i / 2048 == fnKey ep fn
    | .PCIE_MSIX_PBA => i / 2048 == fnKey ep fn
    | .PCIE_MSIX_CTL => i == fnKey ep fn
    | _ => false)

/-- Command, power state, device control, ATS control, BARs and AER of a function reset with it (PRESUMED, PCI Express Base Specification;
log entry 40). -/
def State.configReset (s : State) (ep fn : Nat) : State :=
  s.resetRegs (fun r i => match r with
    | .PCIE_CMD => i == fnKey ep fn
    | .PCIE_PMCSR => i == fnKey ep fn
    | .PCIE_AER => i == fnKey ep fn
    | .PCIE_AER_MASK => i == fnKey ep fn
    | .PCIE_AER_SEV => i == fnKey ep fn
    | .PCIE_DEVCTL => i == fnKey ep fn
    | .PCIE_ATS => i == fnKey ep fn
    | .PCIE_BAR => i / 16 == fnKey ep fn
    | _ => false)

/-- Bit f of PCI_FRY_PEND of an instance's endpoint, set or cleared (R408). -/
def State.ferryPend (s : State) (n : Nat) (v : Bool) : State :=
  let i := instEp n * 33 + instFn n / 32
  let k := instFn n % 32
  s.wr .PCI_FRY_PEND i (withField (s.rd .PCI_FRY_PEND i) k k (b2n v))

/-- Both Ferries of an instance are cleared (R412). -/
def State.ferryClear (s : State) (n : Nat) : State :=
  State.ferryPend (s.resetRegs (fun r i => match r with
    | .FRY_UP_MSG => i / 16 == n
    | .FRY_DN_MSG => i / 16 == n
    | .PCI_FRY_UP_STAT => i == n
    | .FRY_DN_STAT => i == n
    | .FRY_IRQ => i == n
    | _ => false)) n false

/-- The instance status counters clear (R465). -/
def State.insCounters (s : State) (n : Nat) : State :=
  (s.wr64 .INS_ADM_DROPS .INS_ADM_DROPS_HI n 0).wr .INS_DB_MERGE n 0

/-- Step 1: GEN, STATE, RESULT, RESETS, counters (R453, R455, R457); a FREEZE that has not ended counts as running (DEDUCED, log entry
43). -/
def State.resetEnter (s : State) (n : Nat) : State :=
  let s := if s.flag F.RNG_FN_FRZ.BUSY n || s.insState n == 3 then s.setFld F.RNG_FN_FRZ.RESULT n 8 else s
  let s := (((s.setFld F.RNG_FN_FRZ.BUSY n 0).modInc F.RNG_FN_FRZ.GEN n 1).setFld F.RNG_FN_FRZ.STATE n 2).modInc F.INS_STAT.RESETS n 1
  s.insCounters n

/-- What an FLR, VF reset or endpoint reset clears of a function and a CC.EN reset keeps (R361, R403): MSI-X, and a storage
function's queue registers. -/
def State.fnWide (s : State) (n : Nat) : State :=
  let s := s.msixReset (instEp n) (instFn n)
  if s.isStorage n then s.adminRegsClear n else s

/-- The settings that take effect with a function-wide reset (R358, R416). -/
def State.fnSettings (s : State) (n : Nat) : State :=
  let s := s.setFld F.BNK_STO_PERS.EFFECT n (s.fld F.BNK_STO_PERS.STORAGE n)
  s.setFld F.RNG_FN_CTL.SVC_EFF n (s.fld F.RNG_FN_CTL.SVC n)

/-- A function-wide reset starts (R455): steps 1 to 4, and the settings that take effect with it.  One that arrives while another
runs only extends it, without advancing GEN again (R456); one of wider scope than a CC.EN reset clears what that kept (R15). -/
def State.fnReset (s : State) (n : Nat) (ccReset : Bool) : State :=
  if s.insState n = 2 then (if ccReset then s else (s.fnWide n).fnSettings n)
  else
    let s := ((s.resetEnter n).ringsClear n).ferryClear n
    let s := (s.instQueues n).foldl State.flushQueue s
    let s := s.freeReleased n
    let s := if s.isStorage n then s.storageClear n else s
    let s := if ccReset then s else s.fnWide n
    (s.fnSettings n).settle

/-- A vector whose pending bit is set and that may be delivered sends one message (R404). -/
def State.msixSend (s : State) (ep fn vec : Nat) : State :=
  let k := vecKey ep fn vec
  if s.flag F.PCIE_MSIX_PBA.PEND k = false ∨ s.vecCount ep fn ≤ vec ∨ s.flag F.PCIE_MSIX_CTL.EN (fnKey ep fn) = false then s
  else (s.setFld F.PCIE_MSIX_PBA.PEND k 0).msix ep fn vec

/-- The vectors of a function with a pending bit. -/
def State.pendingVecs (s : State) (ep fn : Nat) : List Nat :=
  (s.regs.filter (fun e => regOfKey e.1 == .PCIE_MSIX_PBA && e.1 / 1024 / 2048 == fnKey ep fn)).map (fun e => e.1 / 1024 % 2048)

/-- Each pending vector of a function that is deliverable again sends its one message (R404). -/
def State.msixFlush (s : State) (ep fn : Nat) : State := (s.pendingVecs ep fn).foldl (fun s v => s.msixSend ep fn v) s

/-- FUNCTION_RESET_END (R456): 10 µs have passed; the reset ends once the queues are empty and nothing is outstanding. -/
def execFunctionResetEnd (inst : Nat) (s : State) : Res :=
  done (if s.insState inst = 2 ∧ (s.instQueues inst).isEmpty ∧ s.dmaOut inst = false ∧ s.orphans inst = false then
    ((s.setFld F.RNG_FN_FRZ.STATE inst 0).msixFlush (instEp inst) (instFn inst)).settle else s)

/-- CC_EN_CLEAR (R361): the function-wide reset that keeps configuration and MSI-X. -/
def execCcEnClear (inst : Nat) (v : BitVec 32) (s : State) : Res :=
  done (s.hostReg inst (fun s =>
    if s.isStorage inst && s.flag F.NVME_CC.EN inst && !bit v.toNat 0 then s.fnReset inst true else s))

/-- A stale header vector of a ring of the instance: its number was stamped and its GEN is old (R453). -/
def State.isStale (s : State) (n : Nat) (v : Vector_) : Bool :=
  v.stamped && v.gen != s.fld F.RNG_FN_FRZ.GEN n && (match v.input with | .ring m _ => m == n | _ => false)

/-- A stale vector is dropped and its number retired (R33, R453). -/
def State.dropStale (s : State) (v : Vector_) : State :=
  let first := handleFirst v.handle
  let seq := match s.frame first with | some f => f.seq | none => 0
  (s.reclaimFrame first).sendCommit v.input { seq := seq, kind := .retired, handle := 0, fword := 0, th := none }

/-- The stale vectors leave one intake queue. -/
def State.staleQueue (n bank : Nat) (s : State) (board : Nat) : State :=
  let l := s.intakeQueue bank board
  (l.filter (s.isStale n)).foldl State.dropStale (s.setIntakeQueue bank board (l.filter (fun v => !s.isStale n v)))

/-- STALE_VECTOR_DROP (R453). -/
def execStaleVectorDrop (inst : Nat) (s : State) : Res :=
  let bank := instBank inst
  let s := (List.range 8).foldl (State.staleQueue inst bank) s
  let l := s.sideBuf bank
  done ((l.filter (fun e => s.isStale inst e.2)).foldl (fun s e => s.dropStale e.2)
    (s.setSide bank (l.filter (fun e => !s.isStale inst e.2))))

/-! ## Freeze (R457, R458) -/

/-- A command of RNG_FN_FRZ that has no effect sets REJ (R457). -/
def State.frzReject (s : State) (n : Nat) : State := s.setFld F.RNG_FN_FRZ.REJ n 1

/-- RNG_FN_FRZ.STATE written. -/
def State.setIns (s : State) (n st : Nat) : State := s.setFld F.RNG_FN_FRZ.STATE n st

/-- RNG_FN_FRZ.RESULT written. -/
def State.setFrz (s : State) (n r : Nat) : State := s.setFld F.RNG_FN_FRZ.RESULT n r

/-- FREEZE: an ACTIVE instance fetches nothing more and gives back what it has not started (R458, steps 1 to 3). -/
def State.freezeDo (s : State) (n : Nat) : State :=
  let s := s.setIns n 3
  (allQueues.foldl (fun s q => State.unfetch n true (State.unfetch n false s q) q) s).settle

/-- RNG_FN_FRZ = FREEZE. -/
def State.freezeCmd (s : State) (n : Nat) : State :=
  if s.insState n = 1 ∧ s.flag F.RNG_FN_FRZ.BUSY n = false then s.freezeDo n else s.frzReject n

/-- FREEZE (R457, R458). -/
def execFreeze (inst : Nat) (s : State) : Res := done (s.atChip (instChip inst) (fun s => s.freezeCmd inst))

/-- The instance is at a quiescent point (R458, step 4). -/
def State.quiet (s : State) (n : Nat) : Bool := s.ringsQuiet n && s.noSlots n && !s.dmaOut n && !s.orphans n

/-- A FREEZING instance at its quiescent point becomes FROZEN. -/
def State.quiesce (s : State) (n : Nat) : State :=
  if s.insState n = 3 ∧ s.quiet n = true then (s.setIns n 4).setFrz n 0 else s

/-- QUIESCENT_POINT (R457, R458). -/
def execQuiescentPoint (inst : Nat) (s : State) : Res := done (s.quiesce inst)

/-- FREEZE_TIMEOUT (R457). -/
def execFreezeTimeout (inst : Nat) (s : State) : Res :=
  done (if s.insState inst = 3 then ((s.setIns inst 1).setFrz inst 1).settle else s)

/-! ## The save image (R459 to R461) -/

/-- Migration is available in the lifecycle: Provisioned or Deployed (R503). -/
def State.mayMigrate (s : State) : Bool := s.lifecycle == 1 || s.lifecycle == 2

/-- The queue records of an instance: 1 or 64 rings, 2 or 65 NVMe pairs (R460). -/
def State.queueRecs (s : State) (n : Nat) : Nat :=
  if s.isStorage n then (if s.flag F.RNG_FN_CTL.SVC_EFF n then 65 else 2) else (if s.flag F.RNG_FN_CTL.SVC_EFF n then 64 else 1)

/-- A pending doorbell's word: VALID in [31], the index in [15:0]. -/
def pendWord (p : Option Nat) : Nat := match p with | some v => 2 ^ 31 + v | none => 0

/-- A ring record (R461). -/
def State.ringRec (s : State) (n q : Nat) : List Byte :=
  let i := ringIdx n q
  let t := s.ringOf (ringKey n q false)
  let r := s.ringOf (ringKey n q true)
  beBytes 8 (s.ringBase n q false) ++ beBytes 8 (s.ringBase n q true) ++ beBytes 4 (s.rd .RING_SIZE i).toNat
    ++ beBytes 4 (s.rd .RING_IRQ i).toNat ++ beBytes 4 (s.rd .RING_WRR i).toNat ++ beBytes 4 (t.t * 65536 + t.h)
    ++ beBytes 4 (r.t * 65536 + r.h) ++ beBytes 4 (pendWord t.pend) ++ beBytes 4 (pendWord r.pend)
    ++ beBytes 1 (b2n (s.armed n q)) ++ List.replicate 19 0

/-- An NVMe queue pair record (R461). -/
def State.nvmeRec (s : State) (n q : Nat) : List Byte :=
  let x := s.nvmeQ n q
  let sq := x.sq.getD (0, 1)
  let cq := x.cq.getD (0, 1)
  beBytes 8 sq.1 ++ beBytes 8 cq.1 ++ beBytes 4 ((sq.2 - 1) * 65536 + (cq.2 - 1)) ++ beBytes 4 (x.vec + b2n x.ien * 65536)
    ++ beBytes 4 (s.rd .RING_WRR (ringIdx n (q - 1))).toNat ++ beBytes 4 (x.tail * 65536 + x.head)
    ++ beBytes 4 (x.cqTail * 65536 + x.cqHead) ++ beBytes 4 (pendWord x.pend) ++ beBytes 4 (x.cqHead + b2n x.phase * 2 ^ 30)
    ++ beBytes 1 (b2n (x.sq.isSome && x.cq.isSome)) ++ List.replicate 19 0

/-- The STORE field (R460). -/
def State.storeRec (s : State) (n : Nat) : List Byte :=
  if s.isStorage n then
    beBytes 4 (s.rd .NVME_CC n).toNat ++ beBytes 4 (s.rd .NVME_AQA n).toNat ++ beBytes 8 (s.rd64 .NVME_ASQ .NVME_ASQ_HI n)
      ++ beBytes 8 (s.rd64 .NVME_ACQ .NVME_ACQ_HI n) ++ beBytes 4 (s.nvmeCtl n).nq.toNat ++ beBytes 4 (s.nvmeCtl n).aec.toNat
      ++ s.hbmRead (mapOff + n * 64) 64
  else List.replicate 96 0

/-- One Ferry of the image: words, LEN and FULL, FRY_IRQ (R460). -/
def State.ferryRec (s : State) (n : Nat) (msg stat : Reg) : List Byte :=
  (List.range 16).flatMap (fun w => beBytes 4 (s.rd msg (n * 16 + w)).toNat) ++ beBytes 4 (fieldOf (s.rd stat n) 6 0)
    ++ beBytes 4 (s.rd .FRY_IRQ n).toNat ++ List.replicate 8 0

/-- The MSI-X table of the image. -/
def State.msixRec (s : State) (ep fn v : Nat) : List Byte :=
  let k := vecKey ep fn v
  beBytes 4 (s.rd .PCIE_MSIX_ADDR k).toNat ++ beBytes 4 (s.rd .PCIE_MSIX_ADDR_HI k).toNat
    ++ beBytes 4 (s.rd .PCIE_MSIX_DATA k).toNat ++ beBytes 4 (s.rd .PCIE_MSIX_VCTL k).toNat

/-- The pending bits of 64 vectors from `v` on. -/
def State.pbaRec (s : State) (ep fn v count : Nat) : List Byte :=
  beBytes 8 ((List.range 64).foldl (fun a i =>
    a + (if v + i < count ∧ s.flag F.PCIE_MSIX_PBA.PEND (vecKey ep fn (v + i)) = true then 2 ^ i else 0)) 0)

/-- The Dice entries of unfenced partitions that the instance owns. -/
def State.diceOwned (s : State) (n : Nat) : List DiceEntry :=
  let mine := fun (e : DiceEntry) => e.owner.toNat == n
  (s.look.slots.filter (fun e => !s.isFenced (boardChip (e.1 / 4 / 131072)))).filterMap (fun e => e.2.filter mine)
    ++ (s.look.bar.filter (fun e => !s.isFenced (boardChip (e.1 / 8)))).filterMap (fun e => e.2.filter mine)

/-- A Dice entry in the slot layout, with HIT, STALE and MARK zero (R216, R460). -/
def diceRec (e : DiceEntry) : List Byte :=
  beBytes 4 (2 ^ 31 + b2n e.static * 2 ^ 30 + e.table.toNat * 65536 + e.owner.toNat) ++ beBytes 2 0 ++ fitBytes 26 (e.key ++ e.value)

/-- The length of the image: every part and the MAC. -/
def State.imgLen (s : State) (n : Nat) : Nat :=
  let v := s.vecCount (instEp n) (instFn n)
  256 + s.queueRecs n * 64 + 160 + v * 16 + (v + 63) / 64 * 8 + (s.diceOwned n).length * 32 + 16

/-- The image without its MAC (R460), MAGIC at its final value. -/
def State.imgBody (s : State) (n : Nat) : List Byte :=
  let ep := instEp n
  let fn := instFn n
  let v := s.vecCount ep fn
  let dice := s.diceOwned n
  let place := s.placeCode (instChip n) (0x070 + ep % 8)
  beBytes 4 0x494D4731 ++ beBytes 1 1 ++ beBytes 1 (b2n (s.isStorage n)) ++ beBytes 1 (s.queueRecs n) ++ beBytes 1 0
    ++ beBytes 4 (s.imgLen n) ++ beBytes 2 (s.fld F.RNG_FN_FRZ.GEN n) ++ beBytes 2 n ++ beBytes 8 place ++ beBytes 2 v
    ++ beBytes 2 0 ++ beBytes 4 dice.length
    ++ [Reg.RNG_FN_BW, .RNG_FN_PPS, .RNG_FN_BURST, .RNG_FN_DBRATE, .RNG_FN_WEIGHT].flatMap (fun r => beBytes 4 (s.rd r n).toNat)
    ++ s.storeRec n ++ List.replicate 108 0
    ++ (List.range (s.queueRecs n)).flatMap (fun q => if s.isStorage n then s.nvmeRec n q else s.ringRec n q)
    ++ s.ferryRec n .FRY_UP_MSG .PCI_FRY_UP_STAT ++ s.ferryRec n .FRY_DN_MSG .FRY_DN_STAT
    ++ (List.range v).flatMap (fun i => s.msixRec ep fn i)
    ++ (List.range ((v + 63) / 64)).flatMap (fun i => s.pbaRec ep fn (i * 64) v)
    ++ dice.flatMap diceRec

/-- The domain migration key: record 18, 32 bytes (R504). -/
def State.dmk (s : State) : List Byte := fitBytes 32 ((s.record 18).getD [])

/-- The image address of an instance (R464). -/
def State.imgAddr (s : State) (n : Nat) : Nat := s.rd64 .RNG_FN_IMG .RNG_FN_IMG_HI n

/-- A save or restore may use HBM at the address: HBM is mapped and its homes answer (R22, R459, R462), outside the key table and the
storage regions (R329, R374).  DESIGN CHOICE (log entry 43): an address that may not be used counts as HBM that is not mapped. -/
def State.imgHbm (s : State) (n len : Nat) : Bool :=
  let off := s.imgAddr n - hbmBase
  !s.hbmRefuses (s.imgAddr n) len && !keyTableRange off len && !(s.stoReady && stoRegion off len)

/-- RNG_FN_FRZ = SAVE: MAGIC becomes zero, and the walk starts (R459). -/
def State.saveCmd (s : State) (n : Nat) : State :=
  if s.insState n ≠ 4 ∨ s.flag F.RNG_FN_FRZ.BUSY n = true ∨ s.mayMigrate = false then s.frzReject n
  else if s.imgHbm n (s.imgLen n) = false then s.setFrz n 2
  else if 0x400000 < s.imgLen n then s.setFrz n 3
  else (s.hbmPutBy (s.imgAddr n - hbmBase) (beBytes 4 0)).setFld F.RNG_FN_FRZ.BUSY n 1

/-- SAVE (R459). -/
def execSave (inst : Nat) (s : State) : Res := done (s.atChip (instChip inst) (fun s => s.saveCmd inst))

/-- The save ends: the image, MAGIC last (R459). -/
def State.saveDone (s : State) (n : Nat) : State :=
  if s.insState n ≠ 4 ∨ s.flag F.RNG_FN_FRZ.BUSY n = false then s
  else
    let s := s.liveBoards.foldl State.pipeDrain (s.setFld F.RNG_FN_FRZ.BUSY n 0)
    if s.imgHbm n (s.imgLen n) = false then s.setFrz n 2
    else if 0x400000 < s.imgLen n then s.setFrz n 3
    else
      let s := s.when (s.isStorage n) (fun s => (s.hbmTouch [(mapOff + n * 64, 64)]).2)
      let b := s.imgBody n
      let len := s.imgLen n
      ((s.hbmPutBy (s.imgAddr n - hbmBase) (b ++ cmac s.dmk b)).setFld F.RNG_FN_IMGLEN.BYTES n len).setFrz n 0

/-- SAVE_DONE (R459). -/
def execSaveDone (inst : Nat) (s : State) : Res := done (s.saveDone inst)

/-! ## Restore and thaw (R462, R463) -/

/-- RNG_FN_FRZ = RESTORE: an IDLE target begins (R457). -/
def State.restoreCmd (s : State) (n : Nat) : State :=
  if s.insState n ≠ 0 ∨ s.flag F.RNG_FN_FRZ.BUSY n = true ∨ s.mayMigrate = false then s.frzReject n
  else (s.setIns n 5).setFld F.RNG_FN_FRZ.BUSY n 1

/-- RESTORE (R462). -/
def execRestore (inst : Nat) (s : State) : Res := done (s.atChip (instChip inst) (fun s => s.restoreCmd inst))

/-- The image at the target's address; empty while it cannot be read. -/
def State.imgRead (s : State) (n : Nat) : List Byte :=
  let off := s.imgAddr n - hbmBase
  let len := s.hbmNat (off + 8) 4
  if s.imgHbm n 256 && s.imgHbm n len && decide (272 ≤ len ∧ len ≤ 0x400000) && !s.hbmBad off len then s.hbmRead off len else []

/-- LENGTH agrees with the parts that the image says it has. -/
def imgLenOk (l : List Byte) : Bool :=
  let v := rdAt l 0x18 2
  l.length == 256 + rdAt l 6 1 * 64 + 160 + v * 16 + (v + 63) / 64 * 8 + rdAt l 0x1C 4 * 32 + 16

/-- The checks of R462 before the Dice inserts: RESULT, 0 if all pass. -/
def State.imgCheck (s : State) (n : Nat) (l : List Byte) : Nat :=
  let body := l.take (l.length - 16)
  let nq := rdAt l 6 1
  let svc := s.flag F.RNG_FN_CTL.SVC_EFF n
  if s.hbmMapped = false ∨ s.fld F.HDW_BOOT_STAT.STAGE 0 ≠ 5 then 2
  else if l.isEmpty ∨ rdAt l 0 4 ≠ 0x494D4731 ∨ rdAt l 4 1 ≠ 1 ∨ imgLenOk l = false ∨ l.drop body.length ≠ cmac s.dmk body then 4
  else if bits (rdAt l 0x10 8) 35 26 ≠ s.plat.place.toNat / 1024 then 5
  else if rdAt l 5 1 ≠ b2n (s.isStorage n) ∨ (2 < nq ∧ svc = false) ∨ rdAt l 0x18 2 ≠ s.vecCount (instEp n) (instFn n) then 6
  else 0

/-- The offset of the Dice part of an image. -/
def imgDiceOff (l : List Byte) : Nat :=
  let v := rdAt l 0x18 2
  256 + rdAt l 6 1 * 64 + 160 + v * 16 + (v + 63) / 64 * 8

/-- One Dice entry of an image is inserted for the target (R462): FULL and UNAVAIL stop; the places of those inserted are
kept, by partition, table and key. -/
def State.imgDice (n : Nat) : List (List Byte) → List (Nat × Nat × List Byte) → State → Bool × List (Nat × Nat × List Byte) × State
  | [], acc, s => (true, acc, s)
  | e :: rest, acc, s =>
    let t := rdAt e 0 4 / 65536 % 4096
    let ib := s.auditBoard
    let key := (e.drop 6).take 16
    match s.diceRoute ib t key with
    | .inl st => if st = lkUnavail then (false, acc, s) else imgDice n rest acc s
    | .inr p =>
      let s := s.pipeDrain p
      let k := key.take (s.klen p t)
      let r := s.insertEntry p (s.newEntry p t key ((e.drop (6 + s.klen p t)).take 16) (bit (rdAt e 0 4) 30) n) false true
      if r.1 = lkFull then (false, acc, r.2)
      else imgDice n rest (if r.1 = lkDone then (p, t, k) :: acc else acc) r.2

/-- An inserted entry is removed again. -/
def State.undoDice (s : State) (x : Nat × Nat × List Byte) : State :=
  match s.findEntry x.1 x.2.1 x.2.2 with
  | some (l, e) => s.removeAt x.1 l e true
  | none => s

/-- The entries of the Dice part. -/
def imgEntries (l : List Byte) : List (List Byte) :=
  (List.range (rdAt l 0x1C 4)).map (fun i => (l.drop (imgDiceOff l + 32 * i)).take 32)

/-- A pending doorbell's word read back. -/
def wordPend (w : Nat) : Option Nat := if bit w 31 then some (w % 65536) else none

/-- A ring record is applied. -/
def State.setRingRec (s : State) (n q : Nat) (l : List Byte) : State :=
  let i := ringIdx n q
  let w := fun off => rdAt l off 4
  let ring := fun (x p : Nat) => { ringReset with t := x / 65536, f := x % 65536, h := x % 65536, pend := wordPend p }
  let s := (s.wr64 .RING_TXBASE .RING_TXBASE_HI i (rdAt l 0 8)).wr64 .RING_RXBASE .RING_RXBASE_HI i (rdAt l 8 8)
  let s := ((s.wr .RING_SIZE i (BitVec.ofNat 32 (w 16))).wr .RING_IRQ i (BitVec.ofNat 32 (w 20))).wr .RING_WRR i (BitVec.ofNat 32 (w 24))
  let s := (s.setRing (ringKey n q false) (ring (w 28) (w 36))).setRing (ringKey n q true) (ring (w 32) (w 40))
  s.setFld F.RING_ARM.ARMED i (rdAt l 44 1 % 2)

/-- An NVMe queue pair record is applied; the pair's submission queue completes to the completion queue of its number. -/
def State.setNvmeRec (s : State) (n q : Nat) (l : List Byte) : State :=
  let w := fun off => rdAt l off 4
  let bound := bit (rdAt l 44 1) 0
  let s := if q = 0 then s else s.wr .RING_WRR (ringIdx n (q - 1)) (BitVec.ofNat 32 (w 24))
  s.setNvmeQ n q { nvmeUnbound with
    sq := if bound then some (rdAt l 0 8, w 16 / 65536 + 1) else none
    cq := if bound then some (rdAt l 8 8, w 16 % 65536 + 1) else none
    vec := w 20 % 2048, ien := bit (w 20) 16, cqid := q, tail := w 28 / 65536, head := w 28 % 65536
    cqTail := w 32 / 65536, cqHead := w 32 % 65536, phase := bit (w 40) 30, pend := wordPend (w 36) }

/-- The STORE field is applied; RDY follows CC.EN. -/
def State.setStoreRec (s : State) (n : Nat) (l : List Byte) : State :=
  let s := (s.wr .NVME_CC n (BitVec.ofNat 32 (rdAt l 0 4))).wr .NVME_AQA n (BitVec.ofNat 32 (rdAt l 4 4))
  let s := (s.wr64 .NVME_ASQ .NVME_ASQ_HI n (rdAt l 8 8)).wr64 .NVME_ACQ .NVME_ACQ_HI n (rdAt l 16 8)
  let s := s.setNvmeCtl n { ctlReset with nq := BitVec.ofNat 32 (rdAt l 24 4), aec := BitVec.ofNat 32 (rdAt l 28 4) }
  (s.setFld F.NVME_CSTS.RDY n (rdAt l 0 4 % 2)).hbmPutBy (mapOff + n * 64) ((l.drop 32).take 64)

/-- A Ferry of the image is applied. -/
def State.setFerryRec (s : State) (n : Nat) (msg stat : Reg) (l : List Byte) : State :=
  let s := (List.range 16).foldl (fun s w => s.wr msg (n * 16 + w) (BitVec.ofNat 32 (rdAt l (4 * w) 4))) s
  (s.wr stat n (BitVec.ofNat 32 (rdAt l 64 4 % 128))).wr .FRY_IRQ n (BitVec.ofNat 32 (rdAt l 68 4))

/-- An MSI-X entry of the image is applied. -/
def State.setMsixRec (s : State) (k : Nat) (l : List Byte) : State :=
  (((s.wr .PCIE_MSIX_ADDR k (BitVec.ofNat 32 (rdAt l 0 4))).wr .PCIE_MSIX_ADDR_HI k (BitVec.ofNat 32 (rdAt l 4 4))).wr
    .PCIE_MSIX_DATA k (BitVec.ofNat 32 (rdAt l 8 4))).wr .PCIE_MSIX_VCTL k (BitVec.ofNat 32 (rdAt l 12 4))

/-- An accepted image is applied (R462), apart from its Dice entries. -/
def State.imgApplyTo (s : State) (n : Nat) (l : List Byte) : State :=
  let ep := instEp n
  let fn := instFn n
  let v := rdAt l 0x18 2
  let nq := rdAt l 6 1
  let regs := [(Reg.RNG_FN_BW, 0x20), (.RNG_FN_PPS, 0x24), (.RNG_FN_BURST, 0x28), (.RNG_FN_DBRATE, 0x2C), (.RNG_FN_WEIGHT, 0x30)]
  let s := regs.foldl (fun s x => s.wr x.1 n (BitVec.ofNat 32 (rdAt l x.2 4))) s
  let s := if s.isStorage n then s.setStoreRec n (l.drop 0x34) else s
  let s := (List.range nq).foldl (fun s q =>
    if s.isStorage n then s.setNvmeRec n q ((l.drop (256 + q * 64)).take 64) else s.setRingRec n q ((l.drop (256 + q * 64)).take 64)) s
  let fry := l.drop (256 + nq * 64)
  let s := (s.setFerryRec n .FRY_UP_MSG .PCI_FRY_UP_STAT (fry.take 80)).setFerryRec n .FRY_DN_MSG .FRY_DN_STAT ((fry.drop 80).take 80)
  let s := s.ferryPend n (s.flag F.PCI_FRY_UP_STAT.FULL n)
  let tab := fry.drop 160
  let s := (List.range v).foldl (fun s i => s.setMsixRec (vecKey ep fn i) ((tab.drop (16 * i)).take 16)) s
  let pba := tab.drop (16 * v)
  (List.range v).foldl (fun s i => s.setFld F.PCIE_MSIX_PBA.PEND (vecKey ep fn i) (b2n (bit (rdAt pba (i / 64 * 8) 8) (i % 64)))) s

/-- The restore ends: FROZEN with GEN advanced, or IDLE with the first RESULT (R457, R462). -/
def State.restoreEnd (s : State) (n : Nat) : State :=
  if s.insState n ≠ 5 then s
  else
    let l := s.imgRead n
    let s := (s.setFld F.RNG_FN_FRZ.BUSY n 0).when (!l.isEmpty) (fun s => (s.hbmTouch [(s.imgAddr n - hbmBase, l.length)]).2)
    let c := s.imgCheck n l
    if c ≠ 0 then (s.setIns n 0).setFrz n c
    else
      let r := State.imgDice n (imgEntries l) [] s
      if r.1 = false then ((r.2.1.foldl State.undoDice r.2.2).setIns n 0).setFrz n 7
      else (((r.2.2.imgApplyTo n l).modInc F.RNG_FN_FRZ.GEN n 1).setIns n 4).setFrz n 0

/-- RESTORE_DONE (R462). -/
def execRestoreDone (inst : Nat) (s : State) : Res := done (s.restoreEnd inst).settle

/-- RNG_FN_FRZ = THAW: ACTIVE; each pending doorbell applies, each pending message is sent (R463). -/
def State.thawCmd (s : State) (n : Nat) : State :=
  if s.insState n ≠ 4 ∨ s.flag F.RNG_FN_FRZ.BUSY n = true then s.frzReject n
  else
    let s := s.setIns n 1
    let s := if s.isStorage n then (List.range 65).foldl (fun s q => s.tailPend n q) s
      else allQueues.foldl (fun s q => (s.bellPend n q false).bellPend n q true) s
    (s.msixFlush (instEp n) (instFn n)).settle

/-- THAW (R463). -/
def execThaw (inst : Nat) (s : State) : Res := done (s.atChip (instChip inst) (fun s => s.thawCmd inst))

/-- INS_RATE_WRITE (R466). -/
def execInsRateWrite (board : BitVec 3) (inst : Nat) (v : BitVec 32) (s : State) : Res :=
  done (s.atChip (boardChip board.toNat) (fun s => s.insW0Write (board.toNat * 32800 + inst) v))

end Sys2Proof.Machine
end

