-- ==== Sys2Proof/Machine/HostPci.lean ====
section
/-! DEFINITION. Host endpoints: links, readiness, FLR and VF reset, SR-IOV, power management, ATS, DOE, PF1 apertures, MSI-X
and the Ferry mailboxes (11, R384 to R414). -/
namespace Sys2Proof.Machine

/-! ## Resets of functions (R387, R391, R396, R398, R455) -/

/-- A function is not configuration-ready (R396). -/
def State.setReady (s : State) (ep fn : Nat) (v : Bool) : State := s.setFld F.PCIE_RDY.RDY (fnKey ep fn) (b2n v)

/-- The VFs of an endpoint, as function numbers 1 to NumVFs. -/
def State.vfs (s : State) (ep : Nat) : List Nat :=
  if s.flag F.PCIE_SRIOV.VFE ep then (List.range (s.fld F.PCIE_SRIOV.NUMVFS ep)).map (· + 1) else []

/-- PCI_EP_STAT.READY: every function of the endpoint is ready (R396). -/
def State.showReady (s : State) (ep : Nat) : State :=
  let fns := [0] ++ (if s.pf1Present ep then [pf1Fn] else []) ++ s.vfs ep
  s.setFld F.PCI_EP_STAT.READY ep (b2n (fns.all (fun fn => s.flag F.PCIE_RDY.RDY (fnKey ep fn))))

/-- The DOE answer a function holds, replaced. -/
def State.setDoe (s : State) (k : Nat) (l : List Word) : State :=
  s.putPlat { s.plat with doe := Tbl.set (fun _ => []) s.plat.doe k l }

/-- A PF0 or VF resets: the function-wide reset, its configuration, its readiness (R396, R455). -/
def State.fnAllReset (ep : Nat) (s : State) (fn : Nat) : State :=
  let s := (s.fnReset (ep * 1025 + fn) false).configReset ep fn
  (s.setDoe (fnKey ep fn) []).setReady ep fn false

/-- PF1 resets: its AP_BASE registers, MSI-X, configuration, readiness (R398, R403). -/
def State.pf1Reset (s : State) (ep : Nat) : State :=
  let s := (s.msixReset ep pf1Fn).configReset ep pf1Fn
  let s := s.resetRegs (fun r i => match r with
    | .AP_BASE => i / 16 == ep
    | .AP_BASE_HI => i / 16 == ep
    | _ => false)
  let s := (List.range 16).foldl (fun s a => s.setStage .AP_BASE (ep * 16 + a) none) s
  (s.setDoe (fnKey ep pf1Fn) []).setReady ep pf1Fn false

/-- PF0 resets with each of its VFs, and VF Enable clears (R391). -/
def State.pf0Reset (s : State) (ep : Nat) : State :=
  let s := (s.vfs ep ++ [0]).foldl (State.fnAllReset ep) s
  s.wr .PCIE_SRIOV ep 0

/-- An endpoint resets with all its functions (R14, R387): both links go down. -/
def State.endpointReset (s : State) (ep : Nat) : State :=
  let s := (s.pf0Reset ep).pf1Reset ep
  (((s.setFld F.PCI_EP_STAT.LINKA_UP ep 0).setFld F.PCI_EP_STAT.LINKB_UP ep 0).setFld F.PCI_EP_STAT.READY ep 0).settle

/-- Start-up has reached step 6, so that endpoints train, and the module serves (R526, R553, R560, R572). -/
def State.endpointsRun (s : State) : Bool :=
  s.trust.power == .on && decide (3 ≤ s.fld F.HDW_BOOT_STAT.STAGE 0 ∧ s.fld F.HDW_BOOT_STAT.STAGE 0 ≤ 5)

/-- ENDPOINT_RESET (R14, R572): PERST# or a hot reset; ignored in Hold and before step 6. -/
def execEndpointReset (ep : BitVec 5) (s : State) : Res :=
  done (if s.endpointsRun then s.endpointReset ep.toNat else s)

/-- PCIE_LINK_UP (R385, R387, R558): link b exists only in split mode with PF1. -/
def execPcieLinkUp (ep : BitVec 5) (linkB : Bool) (s : State) : Res :=
  let e := ep.toNat
  if s.endpointsRun = false ∨ s.reachable (bankChip (epBank e)) = false ∨ s.plat.epBad.getLsbD e = true then done s
  else if linkB then
    done (if s.flag F.PCI_EP_CFG.SPLIT_EFF e && s.pf1Present e then s.setFld F.PCI_EP_STAT.LINKB_UP e 1 else s)
  else done (s.setFld F.PCI_EP_STAT.LINKA_UP e 1).settle

/-- A link goes down: the functions of that link reset (R385, R387). -/
def State.pcieDown (s : State) (e : Nat) (linkB : Bool) : State :=
  let split := s.flag F.PCI_EP_CFG.SPLIT_EFF e
  if linkB then
    (if s.flag F.PCI_EP_STAT.LINKB_UP e then (s.pf1Reset e).setFld F.PCI_EP_STAT.LINKB_UP e 0 else s)
  else if s.flag F.PCI_EP_STAT.LINKA_UP e then
    let s := s.pf0Reset e
    (if split then s else s.pf1Reset e).setFld F.PCI_EP_STAT.LINKA_UP e 0
  else s

/-- PCIE_LINK_DOWN (R387). -/
def execPcieLinkDown (ep : BitVec 5) (linkB : Bool) (s : State) : Res :=
  done ((s.pcieDown ep.toNat linkB).showReady ep.toNat).settle

/-- CONFIG_READY (R396): the function answers configuration requests from now on. -/
def execConfigReady (ep : BitVec 5) (fn : BitVec 11) (s : State) : Res :=
  let e := ep.toNat
  let f := fn.toNat
  done (if s.fnExists e f && s.reachable (bankChip (epBank e)) && s.endpointsRun then (s.setReady e f true).showReady e else s)

/-- A configuration request to a function: Retry while it is not ready, Unsupported Request if it does not exist (R396). -/
def State.configReq (s : State) (ep fn : Nat) (f : State → State) : State :=
  if s.fnExists ep fn = false ∨ s.reachable (bankChip (epBank ep)) = false then s.answer .unsupportedRequest
  else if s.flag F.PCIE_RDY.RDY (fnKey ep fn) = false then s.answer .configRetry
  else (f s).answer .ok

/-- A Function Level Reset (R391, R398, R403, R455). -/
def State.flr (s : State) (ep fn : Nat) : State :=
  let s := if fn = 0 then s.pf0Reset ep else if fn = pf1Fn then s.pf1Reset ep else State.fnAllReset ep s fn
  s.showReady ep

/-- FLR (R455). -/
def execFlr (ep : BitVec 5) (fn : BitVec 11) (s : State) : Res :=
  done (s.configReq ep.toNat fn.toNat (fun s => (s.flr ep.toNat fn.toNat).settle))

/-- VF_RESET (R455): VF v is function v + 1. -/
def execVfReset (ep : BitVec 5) (vf : BitVec 10) (s : State) : Res :=
  done (s.configReq ep.toNat (vf.toNat + 1) (fun s => (s.flr ep.toNat (vf.toNat + 1)).settle))

/-! ## SR-IOV, ATS, DOE, power management (R391 to R394) -/

/-- VF Enable set (R391): NumVFs instances are created; a NumVFs above TotalVFs has no effect. -/
def State.vfEnable (s : State) (e numVFs : Nat) : State :=
  if s.flag F.PCIE_SRIOV.VFE e ∨ s.fld F.PCI_EP_CFG.TOTALVFS e < numVFs then s
  else (((s.setFld F.PCIE_SRIOV.VFE e 1).setFld F.PCIE_SRIOV.NUMVFS e numVFs).showReady e).settle

/-- VF Enable cleared (R391, R455): a function-wide reset of every VF. -/
def State.vfDisable (s : State) (e : Nat) : State :=
  ((((s.vfs e).foldl (State.fnAllReset e) s).setFld F.PCIE_SRIOV.VFE e 0).showReady e).settle

/-- VF_ENABLE_SET (R391). -/
def execVfEnableSet (ep : BitVec 5) (numVFs : Nat) (s : State) : Res :=
  done (s.configReq ep.toNat 0 (fun s => s.vfEnable ep.toNat numVFs))

/-- VF_ENABLE_CLEAR (R391, R455). -/
def execVfEnableClear (ep : BitVec 5) (s : State) : Res :=
  done (s.configReq ep.toNat 0 (fun s => s.vfDisable ep.toNat))

/-- ATS_INVALIDATE (R392): the endpoint holds the translation no longer; the completion waits for the requests issued under it.  DESIGN
CHOICE (log entry 45): the queue of 32 takes no further invalidation while it is full. -/
def execAtsInvalidate (ep : BitVec 5) (fn : BitVec 11) (page : Nat) (s : State) : Res :=
  let e := ep.toNat
  let f := fn.toNat
  if s.fnExists e f = false ∨ f = pf1Fn ∨ 32 ≤ (s.plat.atsWait.filter (fun x => x.1 == e)).length then done s
  else
    let l := (Tbl.get (fun _ => []) s.plat.ats e).filter (fun x => x.1 != f || x.2.1 != page)
    done (State.atsFlush (s.putPlat { s.plat with
      ats := Tbl.set (fun _ => []) s.plat.ats e l, atsWait := s.plat.atsWait ++ [(e, f, page)] }))

/-- A function's power state, Bus Master Enable and Memory Space Enable change: what may be sent again is sent (R394, R404). -/
def State.pmSet (s : State) (e f : Nat) (d3hot bme mse : Bool) : State :=
  let s := if f = 0 ∨ f = pf1Fn then s.setFld F.PCIE_PMCSR.STATE (fnKey e f) (if d3hot then 3 else 0) else s
  (((s.setFld F.PCIE_CMD.BME (fnKey e f) (b2n bme)).setFld F.PCIE_CMD.MSE (fnKey e f) (b2n mse)).msixFlush e f).settle

/-- PM_STATE_WRITE (R394): D0 or D3hot, Bus Master Enable, Memory Space Enable; a VF has no power management capability
(R390). -/
def execPmStateWrite (ep : BitVec 5) (fn : BitVec 11) (d3hot bme mse : Bool) (s : State) : Res :=
  done (s.configReq ep.toNat fn.toNat (fun s => s.pmSet ep.toNat fn.toNat d3hot bme mse))

/-! ## PF1 apertures (R397, R398) -/

/-- An access of the manager's host to a BAR register of a PF1 (R394, R399). -/
def State.pf1Reg (s : State) (ep : Nat) (f : State → State) : State :=
  if s.pf1Present ep && s.flag F.PCIE_CMD.MSE (fnKey ep pf1Fn) && s.reachable (bankChip (epBank ep)) then (f s).answer .ok
  else s.answer .unsupportedRequest

/-- AP_BASE of an aperture: device-address bits [47:24] (R398). -/
def State.apBase (s : State) (ep a : Nat) : Nat :=
  bits (s.rd .AP_BASE (ep * 16 + a)).toNat 31 24 * 2 ^ 24 + fieldOf (s.rd .AP_BASE_HI (ep * 16 + a)) 15 0 * 2 ^ 32

/-- AP_BASE_WRITE (R12, R398): the low word is staged, the high word commits both. -/
def execApBaseWrite (ep : BitVec 5) (a : BitVec 4) (hi : Bool) (v : BitVec 32) (s : State) : Res :=
  let i := ep.toNat * 16 + a.toNat
  done (s.pf1Reg ep.toNat (fun s =>
    if hi then ((s.writeTyped .AP_BASE i (BitVec.ofNat 32 (s.lowWord .AP_BASE i))).writeTyped .AP_BASE_HI i v).setStage .AP_BASE i none
    else s.setStage .AP_BASE i (some v)))

/-! ## MSI-X (R403 to R405) -/

/-- MSIX_EVENT (R404). -/
def execMsixEvent (ep : BitVec 5) (fn vec : BitVec 11) (s : State) : Res :=
  done (if s.fnExists ep.toNat fn.toNat then s.msix ep.toNat fn.toNat vec.toNat else s)

/-- MSIX_UNMASK (R404): the vector's mask clears, and a pending message is sent if nothing else holds it. -/
def execMsixUnmask (ep : BitVec 5) (fn vec : BitVec 11) (s : State) : Res :=
  let e := ep.toNat
  let f := fn.toNat
  let v := vec.toNat
  done (if s.fnExists e f && decide (v < s.vecCount e f) then (s.setFld F.PCIE_MSIX_VCTL.MASK (vecKey e f v) 0).msixSend e f v else s)

/-! ## Ferries (R406 to R412) -/

/-- A manager-side access to an instance's Ferry: a bus error while its Bank does not answer; nothing while the instance
resets (R26, R412). -/
def State.ferryMgr (s : State) (n : Nat) (f : State → State) : State :=
  s.atChip (instChip n) (fun s => if s.insState n = 2 then s else f s)

/-- An Unsupported Request logged under a function's AER (R399, R410). -/
def State.logUr (s : State) (ep fn : Nat) : State := s.setFld F.PCIE_AER.UR (fnKey ep fn) 1

/-- The severity and reporting enables of a function let ERR_NONFATAL be sent for an Unsupported Request (R410): which bits they are
is PRESUMED from PCI Express (log entry 40). -/
def State.urReports (s : State) (ep fn : Nat) : Bool :=
  let k := fnKey ep fn
  !s.flag F.PCIE_AER_MASK.UR k && !s.flag F.PCIE_AER_SEV.UR k && s.flag F.PCIE_DEVCTL.URRE k
    && (s.flag F.PCIE_DEVCTL.NFERE k || s.flag F.PCIE_CMD.SERR k)

/-- A write to a full Ferry is rejected and reported to the writer (R410); it is counted. -/
def State.ferryReject (s : State) (who : Requester) (n : Nat) (up : Bool) : State :=
  let s := if up then s.satInc F.PCI_FRY_REJ.UP n 1 else s.satInc F.PCI_FRY_REJ.DN n 1
  match who with
  | .host m =>
    let s := (s.logUr (instEp m) (instFn m)).emit (.unsupported (instEp m) (instFn m))
    (if s.urReports (instEp m) (instFn m) then s.emit (.errNonFatal (instEp m) (instFn m)) else s).answer .unsupportedRequest
  | .pf1 ep => ((s.logUr ep.toNat pf1Fn).emit (.unsupported ep.toNat pf1Fn)).answer .unsupportedRequest
  | .thread th => (s.threadFault th fcBus 0).answer .busError
  | _ => s.answer .busError

/-- An upstream message is sent (R408). -/
def State.ferryUpSend (s : State) (n len : Nat) : State :=
  let ep := instEp n
  let s := ((s.setFld F.PCI_FRY_UP_STAT.LEN n len).setFld F.PCI_FRY_UP_STAT.FULL n 1).ferryPend n true
  if s.flag F.PCI_FRY_NOTE.EN ep then s.msixPf1 (s.fld F.PCI_FRY_NOTE.ENDPOINT ep) (s.fld F.PCI_FRY_NOTE.VEC ep) else s

/-- A downstream message is sent (R408). -/
def State.ferryDnSend (s : State) (n len : Nat) : State :=
  let s := (s.setFld F.FRY_DN_STAT.LEN n len).setFld F.FRY_DN_STAT.FULL n 1
  if s.flag F.FRY_IRQ.DN_IEN n then s.msix (instEp n) (instFn n) (s.fld F.FRY_IRQ.VEC n) else s

/-- The word sends a message: GO with a LEN of 1 to 16. -/
def ferryGo (v : Word) : Bool := bit v.toNat 5 && decide (1 ≤ fieldOf v 4 0 ∧ fieldOf v 4 0 ≤ 16)

/-- The Ferry's side of an access of a tenant driver (R394, R410, R412). -/
def State.ferryHost (s : State) (n : Nat) (f : State → State) : State :=
  if s.insState n = 2 then s.hostReg n (fun s => s)
  else if s.flag F.PCI_FRY_UP_STAT.FULL n && s.fnExists (instEp n) (instFn n)
      && s.flag F.PCIE_CMD.MSE (fnKey (instEp n) (instFn n)) && s.reachable (instChip n) then
    s.ferryReject (.host n) n true
  else s.hostReg n f

/-- The Ferry's side of a manager's write (R407, R410, R412); another host has no such register. -/
def State.ferryWriter (s : State) (who : Requester) (n : Nat) (f : State → State) : State :=
  match who with
  | .host _ => s.answer .unsupportedRequest
  | who =>
    if s.reachable (instChip n) && s.insState n != 2 && s.flag F.FRY_DN_STAT.FULL n then s.ferryReject who n false
    else s.ferryMgr n f

/-- FERRY_UP_GO (R408, R410). -/
def execFerryUpGo (inst : Nat) (v : BitVec 32) (s : State) : Res :=
  done (s.ferryHost inst (fun s => if ferryGo v then s.ferryUpSend inst (fieldOf v 4 0) else s))

/-- FERRY_DN_GO (R408, R410). -/
def execFerryDnGo (who : Requester) (inst : Nat) (v : BitVec 32) (s : State) : Res :=
  done (s.ferryWriter who inst (fun s => if ferryGo v then s.ferryDnSend inst (fieldOf v 4 0) else s))

/-- FERRY_MSG_WRITE (R408, R410): a word of the tenant's upstream or of the manager's downstream message. -/
def execFerryMsgWrite (who : Requester) (inst : Nat) (up : Bool) (word : BitVec 4) (v : BitVec 32) (s : State) : Res :=
  let i := inst * 16 + word.toNat
  if up then
    done (if who = .host inst then s.ferryHost inst (fun s => s.wr .FRY_UP_MSG i v) else s.answer .unsupportedRequest)
  else done (s.ferryWriter who inst (fun s => s.wr .FRY_DN_MSG i v))

/-- The word of a TAKE read: LEN and VALID, or zero (R409). -/
def takeWord (full : Bool) (len : Nat) : Word := if full then BitVec.ofNat 32 (len + 32) else 0

/-- FERRY_DN_TAKE (R409): the tenant driver takes the downstream message. -/
def execFerryDnTake (inst : Nat) (s : State) : Res :=
  let w := takeWord (s.flag F.FRY_DN_STAT.FULL inst) (s.fld F.FRY_DN_STAT.LEN inst)
  let t := s.hostReg inst (fun s => s.setFld F.FRY_DN_STAT.FULL inst 0)
  done (if t.reply = .ok then t.answer (.data w) else t)

/-- The manager's TAKE: FULL clears, and the tenant driver is signalled (R409). -/
def State.ferryUpTaken (s : State) (n : Nat) : State :=
  if s.flag F.PCI_FRY_UP_STAT.FULL n then
    let s := s.setFld F.PCI_FRY_UP_STAT.FULL n 0
    if s.flag F.FRY_IRQ.UP_IEN n then s.msix (instEp n) (instFn n) (s.fld F.FRY_IRQ.VEC n) else s
  else s

/-- FERRY_UP_TAKE (R409). -/
def execFerryUpTake (inst : Nat) (s : State) : Res :=
  let w := takeWord (s.flag F.PCI_FRY_UP_STAT.FULL inst) (s.fld F.PCI_FRY_UP_STAT.LEN inst)
  let t := s.ferryMgr inst (fun s => s.ferryUpTaken inst)
  done (if t.reply = .ok then t.answer (.data w) else t)

end Sys2Proof.Machine
end

