-- ==== Sys2Proof/Machine/Trouble.lean ====
section
/-! DEFINITION. Trouble reporting: events, force bits, fault injection, the trouble log, and the event counters (16, R531 to
R551). -/
namespace Sys2Proof.Machine

/-- The unit of a block index exists on a chiplet (R57, R147, R207, R253, R286, R324, R357, R384, R415, R467, R501, R534, R552). -/
def unitExists (chip blk : Nat) : Bool :=
  let inR := fun lo hi => decide (lo ≤ blk ∧ blk ≤ hi)
  if chip = 0 then inR 0x010 0x01A
  else if chip = 1 then inR 0x040 0x04A
  else if 2 ≤ chip ∧ chip ≤ 5 then
    inR 0x020 0x022 || inR 0x030 0x031 || inR 0x060 0x068 || inR 0x070 0x077 || inR 0x080 0x0C7
  else if 8 ≤ chip ∧ chip ≤ 15 then inR 0x000 0x007 || inR 0x010 0x015 || inR 0x020 0x027
  else false

/-- The chiplet of a trouble group. -/
def grpChip (g : Nat) : Nat := g / 256

/-- The block index of a trouble group. -/
def grpBlk (g : Nat) : Nat := g % 256

/-- The severity of a code of R533; none for a reserved code. -/
def codeSev (code : Nat) : Option Nat :=
  if [0x0101, 0x0102, 0x0202, 0x0203, 0x0502, 0x0601, 0x0602, 0x0904].contains code then some sevError
  else if [0x0201, 0x0603].contains code then some sevCorrected
  else if [0x0301, 0x0302, 0x0503, 0x0903].contains code then some sevFatal
  else if [0x0401, 0x0402, 0x0403, 0x0501, 0x0701, 0x0801, 0x0901, 0x0902, 0x0A01, 0x0F02].contains code then some sevNote
  else none

/-- TROUBLE_EVENT (R531): an event of a unit of a chiplet that answers, with a code and severity of R533. -/
def execTroubleEvent (e : TroubleEv) (s : State) : Res :=
  let chip := grpChip e.grp
  let blk := grpBlk e.grp
  done (if unitExists chip blk && s.reachable chip && (codeSev e.code.toNat == some e.sev.toNat || e.code == 0x0F01) then
    s.event chip blk e.code.toNat e.sev.toNat e.data.toNat else s)

/-! ## The log (R538 to R542) -/

/-- LOG_APPEND (R539): the oldest append of the queue is written at LOG_WIDX, or dropped while the log is frozen. -/
def State.logAppend (s : State) : State :=
  match s.trb.queue with
  | [] => s
  | e :: rest =>
    let s := s.putTrb { s.trb with queue := rest }
    if s.flag F.LOG_CTL.FREEZE 0 then s.satInc F.LOG_DROP.COUNT 0 1
    else
      let i := s.fld F.LOG_WIDX.INDEX 0
      let seq := (s.rd .LOG_SEQ 0).toNat
      let s := s.wrEntry .LOG_ENT (i * 8) { e with w1 := BitVec.ofNat 64 (seq * 2 ^ 32 + e.w1.toNat % 2 ^ 32) }
      let s := (s.modInc F.LOG_WIDX.INDEX 0 1).modInc F.LOG_SEQ.SEQ 0 1
      if i = 65535 then s.satInc F.LOG_LAP.COUNT 0 1 else s

/-- LOG_APPEND (R539). -/
def execLogAppend (s : State) : Res := done s.logAppend

/-- LOG_CTL.CLEAR (R541). -/
def State.logClear (s : State) : State :=
  s.resetRegs (fun r _ => r == .LOG_ENT || r == .LOG_WIDX || r == .LOG_SEQ || r == .LOG_LAP)

/-- LOG_CLEAR (R541). -/
def execLogClear (s : State) : Res := done (s.atChip 0 State.logClear)

/-- Words 1 to 7 of an entry are captured into their holding latches (R537). -/
def State.captureEntry (s : State) (r : Reg) (i : Nat) : State :=
  [1, 2, 3, 4, 5, 6, 7].foldl (fun s w => s.setLatch r (i + w) (s.rd r (i + w))) s

/-- HISTORY_ENTRY_READ (R537): a read of word 0 of a history entry. -/
def execHistoryEntryRead (grp : Nat) (entry : BitVec 3) (s : State) : Res :=
  let i := grp * 64 + entry.toNat * 8
  if unitExists (grpChip grp) (grpBlk grp) && s.reachable (grpChip grp) then
    done ((s.captureEntry .TRB_HENT i).answer (.data (s.rd .TRB_HENT i)))
  else done (s.answer .busError)

/-! ## Force bits and fault injection (R543, R544) -/

/-- An access of a trouble group: unassigned where no unit has the index (R534). -/
def State.atGroup (s : State) (g : Nat) (f : State → State) : State :=
  if unitExists (grpChip g) (grpBlk g) then s.atChip (grpChip g) f else s.answer .busError

/-- A write of TRB_STAT: SEV clears by 1, and each FORCE bit raises event 0x0F01 while FORCE_EN is 1 (R543); a severity that
is set and cleared in one clock stays set (R10). -/
def State.trbStatWrite (s : State) (g : Nat) (v : Word) : State :=
  let s := s.writeTyped .TRB_STAT g v
  if s.flag F.HDW_COMPAT.FORCE_EN 0 then
    [0, 1, 2, 3].foldl (fun s sev =>
      if bit v.toNat (8 + sev) then s.eventAt (grpChip g) (grpBlk g) 1 (grpBlk g) 0x0F01 sev 0 true else s) s
  else s

/-- TRB_FORCE (R543). -/
def execTrbForce (grp : Nat) (v : BitVec 32) (s : State) : Res := done (s.atGroup grp (fun s => s.trbStatWrite grp v))

/-- Factory test mode (R528, R544): Blank or Returned, with debug Intrude. -/
def State.factoryMode (s : State) : Bool := (s.lifecycle == 0 || s.lifecycle == 3) && s.debugLevel == 2

/-- A write of TRB_INJ: KIND, and ARM where factory test mode and CAP allow it (R535, R544). -/
def State.trbInjWrite (s : State) (g : Nat) (v : Word) : State :=
  let s := s.setFld F.TRB_INJ.KIND g (fieldOf v 3 0)
  if bit v.toNat 4 && s.factoryMode && bit (s.fld F.TRB_INJ.CAP g) (fieldOf v 3 0) then s.setFld F.TRB_INJ.ARMED g 1 else s

/-- TRB_INJ_ARM (R544). -/
def execTrbInjArm (grp : Nat) (v : BitVec 32) (s : State) : Res := done (s.atGroup grp (fun s => s.trbInjWrite grp v))

/-- INJECTED_FAULT_APPLY (R544): the armed fault acts at its next opportunity: on the word at `addr` of the unit's memory that
is written, on a flit, on a register read; event 0x0F02 records it. -/
def State.injectApply (s : State) (g addr : Nat) : State :=
  if s.flag F.TRB_INJ.ARMED g = false then s
  else
    let k := s.fld F.TRB_INJ.KIND g
    let s := (s.setFld F.TRB_INJ.ARMED g 0).eventAt (grpChip g) (grpBlk g) 1 (grpBlk g) 0x0F02 sevNote k true
    match k with
    | 1 => s.setEcc (eccKey g addr) 3
    | 2 => s.setEcc (eccKey g addr) 4
    | 3 => s.putPlat { s.plat with
        retries := Tbl.set (fun _ => 0) s.plat.retries (grpChip g) (Tbl.get (fun _ => 0) s.plat.retries (grpChip g) + 1) }
    | 4 => s.answer .busError
    | _ => s

/-- INJECTED_FAULT_APPLY (R544). -/
def execInjectedFaultApply (grp : Nat) (addr : BitVec 48) (s : State) : Res := done (s.injectApply grp addr.toNat)

/-! ## The mesh (R22) -/

/-- MESH_FLIT_RETRY (R22): the link's retry counter. -/
def execMeshFlitRetry (chiplet : BitVec 4) (s : State) : Res :=
  let c := chiplet.toNat
  done (if s.reachable c then s.putPlat { s.plat with
    retries := Tbl.set (fun _ => 0) s.plat.retries c (Tbl.get (fun _ => 0) s.plat.retries c + 1) } else s)

/-- MESH_LINK_FAIL (R22): the far chiplet is unreachable until the next module reset, and Confluence records it. -/
def State.meshFail (s : State) (c : Nat) : State :=
  if s.plat.linkFailed.getLsbD c ∨ c = 1 ∨ c = 6 ∨ c = 7 then s
  else
    State.event (s.putPlat { s.plat with linkFailed := s.plat.linkFailed ||| BitVec.ofNat 16 (2 ^ c) }) 1 0x041 0x0301 sevFatal c

/-! ## Event counters (R547 to R550) -/

/-- The chiplet of a counter. -/
def ctrChip (n : Nat) : Nat := n / 128

/-- Counters on a chiplet (R547). -/
def ctrCount (chip : Nat) : Nat :=
  if chip = 0 then 32 else if chip = 1 then 128 else if 2 ≤ chip ∧ chip ≤ 5 then 64 else if 8 ≤ chip ∧ chip ≤ 15 then 64 else 0

/-- The counter exists. -/
def ctrExists (n : Nat) : Bool := decide (n % 128 < ctrCount (ctrChip n))

/-- The last SEL value of a chiplet's menu (R550). -/
def selMax (chip : Nat) : Nat := if chip = 0 then 0x09 else if 8 ≤ chip then 0x16 else 0x14

/-- The most events a counter adds in one clock (R547). -/
def ctrMax (chip : Nat) : Nat := if 8 ≤ chip then 512 else 64

/-- The block under which a chiplet's counters report a wrap (the spec names no index: DESIGN CHOICE, log entry 27). -/
def ctrBlk (chip : Nat) : Nat := if chip = 0 then 0x019 else if chip = 1 then 0x041 else if 8 ≤ chip then 0x000 else 0x030

/-- CNT_VAL of a counter. -/
def State.ctrVal (s : State) (n : Nat) : Nat := s.rd64 .CNT_VAL .CNT_VAL_HI n

/-- An enabled counter adds n events (R547). -/
def State.ctrAdd (s : State) (c n : Nat) : State :=
  let v := s.ctrVal c
  let lo := v % 2 ^ 48 + n
  if n = 0 then s
  else if lo < 2 ^ 48 then s.wr64 .CNT_VAL .CNT_VAL_HI c (v / 2 ^ 48 * 2 ^ 48 + lo)
  else if v / 2 ^ 48 = 0xFFFF then (s.wr64 .CNT_VAL .CNT_VAL_HI c (2 ^ 64 - 1)).setFld F.CNT_CTL.SAT c 1
  else
    let s := (s.wr64 .CNT_VAL .CNT_VAL_HI c ((v / 2 ^ 48 + 1) * 2 ^ 48 + lo % 2 ^ 48)).setFld F.CNT_CTL.OVF c 1
    if s.flag F.CNT_CTL.IEN c then s.event (ctrChip c) (ctrBlk (ctrChip c)) 0x0A01 sevNote (c % 128) else s

/-- EVENT_COUNT (R547): one clock's selected events, at most 512 on a Board and 64 elsewhere. -/
def execEventCount (ctr : Nat) (n : BitVec 10) (s : State) : Res :=
  let chip := ctrChip ctr
  let sel := s.fld F.CNT_CTL.SEL ctr
  done (if ctrExists ctr && s.reachable chip && s.flag F.CNT_CTL.EN ctr && decide (1 ≤ sel ∧ sel ≤ selMax chip) then
    s.ctrAdd ctr (min n.toNat (ctrMax chip)) else s)

/-- CNT_CLEAR (R548): VAL becomes the events of the clock, SAT clears. -/
def execCntClear (ctr : Nat) (events : BitVec 10) (s : State) : Res :=
  if ctrExists ctr then
    done (s.atChip (ctrChip ctr) (fun s =>
      (s.wr64 .CNT_VAL .CNT_VAL_HI ctr (if s.flag F.CNT_CTL.EN ctr then min events.toNat (ctrMax (ctrChip ctr)) else 0)).setFld
        F.CNT_CTL.SAT ctr 0))
  else done (s.answer .busError)

/-- Every counter of a chiplet copies VAL into SNAP; ARG[0] zeroes VAL (R549). -/
def State.snapshot (s : State) (chip : Nat) (f : Firing) : State :=
  let s := (List.range (ctrCount chip)).foldl (fun s n =>
    let c := chip * 128 + n
    let s := s.wr64 .CNT_SNAP .CNT_SNAP_HI c (s.ctrVal c)
    if bit f.arg.toNat 0 then s.wr64 .CNT_VAL .CNT_VAL_HI c 0 else s) s
  s.wr .CNT_SNAP_CYC chip (BitVec.ofNat 32 f.cycle)

end Sys2Proof.Machine
end

