-- ==== Sys2Proof/Machine/Trust.lean ====
section
/-! DEFINITION. Tokens, power states and the SPI flash (R502, R503, R515 to R517, R523 to R527, R556, R560, R563): what a command
does without resetting the module. -/
namespace Sys2Proof.Machine

/-! ## Power states (R523 to R527) -/

/-- HDW_PWR_STAT.STATE and STEP. -/
def State.setPower (s : State) (st step : Nat) : State := (s.setFld F.HDW_PWR_STAT.STATE 0 st).setFld F.HDW_PWR_STAT.STEP 0 step

/-- ACTIVE takes effect (R523): the full clock; HBM leaves self-refresh. -/
def State.goActive (s : State) : State := (s.putTrust { s.trust with drowse := false, selfRef := 0 }).setPower 0 0

/-- DROWSE takes effect (R523): the engine clock at 0.55 GHz. -/
def State.goDrowse (s : State) : State := (s.putTrust { s.trust with drowse := true }).setPower 2 3

/-- The lifecycle bits that Hold and Off keep (R528), and INTRUDED, which stays until module cold reset (R520). -/
def State.keptLc (s : State) : Word :=
  BitVec.ofNat 32 (s.lifecycle + s.fld F.HDW_LC_STAT.LC_PEND 0 * 4 + s.fld F.HDW_LC_STAT.INTRUDED 0 * 32)

/-- The module with every volatile state gone: only the vault, the flash and the fuses keep their contents (R523). -/
def State.unpowered (s : State) (p : Power) : State :=
  let r := State.reset
  let t := { r with
    pending := s.pending, out := s.out, free := s.free
    plat := { r.plat with place := s.plat.place, linkFailed := 0xFFFE }
    trust := { r.trust with mram := s.trust.mram, flash := s.trust.flash, fuses := s.trust.fuses, power := p } }
  t.wr .HDW_LC_STAT 0 s.keptLc

/-- Hold (R526): the copy write finishes, pending records are discarded, debug is Off, every other chiplet is powered down. -/
def State.goHold (s : State) : State :=
  (s.putTrust { s.trust with pend := [] }).copyDone.unpowered .hold

/-- A power command acts: 1 ACTIVE, 2 DROWSE, 3 HOLD. -/
def State.powerDo (s : State) (c : Nat) : State :=
  if c = 1 then s.goActive else if c = 2 then s.goDrowse else if c = 3 then s.goHold else s

/-- A power command, which waits while a lifecycle command runs; HOLD overrides every other command (R527). -/
def State.powerCmd (s : State) (c : Nat) : State :=
  if s.trust.power ≠ .on then s
  else if s.flag F.HDW_LC_STAT.BUSY 0 then
    s.putTrust { s.trust with pwrCmd := if s.trust.pwrCmd = some 3 then some 3 else some c }
  else s.powerDo c

/-- ACTIVE (R523). -/
def execActive (s : State) : Res := done (s.powerCmd 1)

/-- DROWSE (R523). -/
def execDrowse (s : State) : Res := done (s.powerCmd 2)

/-- HOLD (R526): HDW_PWR_CMD or the SMBus hold message. -/
def execHold (s : State) : Res := done (s.powerCmd 3)

/-- A lifecycle or token command ends; a power command that waited acts (R527). -/
def State.lcEnd (s : State) : State :=
  let c := s.trust.pwrCmd
  let s := s.putTrust { s.trust with accepted := none, pwrCmd := none }
  let s := s.setFld F.HDW_LC_STAT.BUSY 0 0
  match c with | some c => s.powerDo c | none => s

/-- POWER_GOVERNOR_INTERVAL (R524): the measured power, and whether it stayed 100 W or more below the cap for 1 ms. -/
def execPowerGovernorInterval (watts : BitVec 16) (low1ms : Bool) (s : State) : Res :=
  if s.trust.power ≠ .on then done s
  else
    let s := s.setFld F.HDW_PWR_STAT.POWER 0 watts.toNat
    let step := s.fld F.HDW_PWR_STAT.STEP 0
    if s.trust.drowse then done s
    else
      let cap := s.polValue powerPol
      let n := if cap < watts.toNat then min 3 (step + 1) else if low1ms && decide (watts.toNat + 100 ≤ cap) then step - 1 else step
      let t := s.setPower (b2n (n != 0)) n
      done (if step = 0 ∧ n ≠ 0 then t.satInc F.HDW_PWR_TRIMS.COUNT 0 1 else t)

/-- THERMAL_TRIP (R525, R576): a junction at 110 °C or more; the trip is logged and Headwater enters Hold. -/
def execThermalTrip (tj tc : BitVec 8) (s : State) : Res :=
  if s.trust.power ≠ .on ∨ tj.toNat < 110 then done s
  else
    let s := (s.setFld F.HDW_PWR_TEMP.TJ 0 tj.toNat).setFld F.HDW_PWR_TEMP.TC 0 tc.toNat
    done (s.event 0 blkPower 0x0903 sevFatal (tj.toNat + tc.toNat * 256)).goHold

/-- HBM_SELF_REFRESH (R523): a stack without access for 10 µs in Drowse. -/
def execHbmSelfRefresh (stack : BitVec 2) (s : State) : Res :=
  done (if s.trust.power = .on && s.trust.drowse && s.hbmMapped then
    s.putTrust { s.trust with selfRef := s.trust.selfRef ||| (1 <<< stack.toNat) } else s)

/-- A copy that a power loss leaves unfinished: bytes the spec leaves open, but no valid copy (R511). -/
def tornCopy (free rid : Nat) : List Byte :=
  let l := (List.range 4096).map (fun i => Config.tornByte free i)
  if copyValid rid l then List.replicate 4096 0 else l

/-- SUPPLY_LOSS (R557): VIN below 4.0 V; a copy write in progress leaves a copy that fails. -/
def execSupplyLoss (s : State) : Res :=
  let t := match s.trust.copy with
    | some w => (s.mramWrite (copyOff w.rid w.copy) (tornCopy s.free w.rid)).draw
    | none => s
  done (t.unpowered .off)

/-! ## Tokens (R515 to R517) -/

/-- Result codes of HDW_LC_STAT (R529). -/
def lcOk : Nat := 0
/-- BADSIG. -/
def lcBadSig : Nat := 1
/-- BADPLACE. -/
def lcBadPlace : Nat := 2
/-- BADSTATE. -/
def lcBadState : Nat := 3
/-- EXPIRED. -/
def lcExpired : Nat := 4
/-- NOKEY. -/
def lcNoKey : Nat := 5

/-- The 200 token bytes of HDW_LC_TOKEN. -/
def State.lcToken (s : State) : List Byte := (List.range 50).flatMap (fun i => beBytes 4 (s.rd .HDW_LC_TOKEN i).toNat)

/-- The 32 nonce bytes of HDW_LC_NONCE. -/
def State.nonceBytes (s : State) : List Byte := (List.range 8).flatMap (fun i => beBytes 4 (s.rd .HDW_LC_NONCE i).toNat)

/-- The public key that signs a KIND in the lifecycle in effect (R517); a Wenfali
debug key, or the key of a record. -/
def State.signer (s : State) (kind : Nat) : Option (Nat × Nat) :=
  if kind = 1 ∨ kind = 2 then
    (if s.lifecycle = 0 ∨ s.lifecycle = 3 then some (Config.wenfaliKey 2) else (s.record 17).map recordKey)
  else if 3 ≤ kind ∧ kind ≤ 5 then (s.record 16).map recordKey
  else none

/-- A KIND is allowed in a lifecycle (R503, R515, R517). -/
def kindAllowed (kind lc : Nat) : Bool :=
  if kind = 1 ∨ kind = 2 then true else if kind = 3 then lc == 1 else lc == 1 || lc == 2

/-- The records that a KIND requires (R503, R517). -/
def State.kindRecords (s : State) (kind : Nat) : List Nat :=
  if kind = 3 then [16, 17, 18] else if 4 ≤ kind then [16] else if s.lifecycle = 0 ∨ s.lifecycle = 3 then [] else [17]

/-- The token's checks in their order: the first failure, or OK (R516). -/
def State.tokenCheck (s : State) (t : List Byte) : Nat :=
  let kind := rdAt t 4 1
  let na := rdAt t 16 8 * 1000000000
  let sig := match s.signer kind with
    | some k => ecdsaVerify k (sha384 (t.take 104)) (t.drop 104)
    | none => false
  if rdAt t 0 4 ≠ 0x544B4E31 ∨ s.trust.nonce = false ∨ (t.drop 24).take 32 ≠ s.nonceBytes ∨ sig = false then lcBadSig
  else if rdAt t 8 8 ≠ s.plat.place.toNat * 65536 then lcBadPlace
  else if rdAt t 5 1 ≠ s.lifecycle ∨ kindAllowed kind s.lifecycle = false ∨ s.flag F.HDW_LC_STAT.LC_PEND 0 then lcBadState
  else if na ≤ s.time.now ∨ s.time.now + 86400 * 1000000000 < na
      ∨ (s.lifecycle = 2 ∧ s.flag F.TIME_STATUS.FREERUN 0 = true) then lcExpired
  else if (s.kindRecords kind).any (fun r => (s.record r).isNone) then lcNoKey
  else lcOk

/-- HDW_LC_CMD SUBMIT: RESULT, the nonce void, the token registers cleared (R516, R529); an accepted token's effect is still to
come, and BUSY is 1 until then. -/
def State.lcSubmit (s : State) : State :=
  if s.flag F.HDW_LC_STAT.BUSY 0 then s
  else
    let t := s.lcToken
    let r := s.tokenCheck t
    let s := s.setFld F.HDW_LC_STAT.RESULT 0 r
    let s := (List.range 50).foldl (fun s i => s.wr .HDW_LC_TOKEN i 0) s
    let s := s.putTrust { s.trust with nonce := false }
    if r ≠ lcOk then s
    else
      let kind := rdAt t 4 1
      let s := s.putTrust { s.trust with accepted := some kind }
      let s := s.setFld F.HDW_LC_STAT.BUSY 0 1
      if kind = 5 then s.putTrust { s.trust with tokRid := rdAt t 6 2, digest := (t.drop 56).take 48 }
      else if kind ≤ 2 then s.putTrust { s.trust with notAfter := rdAt t 16 8, since := s.time.tick }
      else s

/-- SUBMIT (R516). -/
def execSubmit (s : State) : Res := done (s.atChip 0 (fun s => s.lcSubmit))

/-- HDW_LC_CHAL.NEW: the previous nonce is void; a new one is drawn from the Die (R516). -/
def State.chalNew (s : State) : State := ((s.putTrust { s.trust with nonce := false }).setFld F.HDW_LC_CHAL.NEW 0 1).nonceDraw

/-- LC_CHAL_NEW (R516). -/
def execLcChalNew (s : State) : Res :=
  done (s.atChip 0 (fun s => s.chalNew))

/-- A fuse bit is burned; the state follows at the next module warm reset (R503). -/
def State.burn (s : State) (bits : BitVec 3) : State :=
  (s.putTrust { s.trust with fuses := s.trust.fuses ||| bits }).setFld F.HDW_LC_STAT.LC_PEND 0 1

/-- PROVISION (R503): from Blank only; the key in HDW_VAULT_BUF becomes record 16. -/
def State.provision (s : State) : State :=
  if s.flag F.HDW_LC_STAT.BUSY 0 then s
  else if s.lifecycle ≠ 0 ∨ s.flag F.HDW_LC_STAT.LC_PEND 0 then s.setFld F.HDW_LC_STAT.RESULT 0 lcBadState
  else ((s.setFld F.HDW_LC_STAT.RESULT 0 lcOk).burn 1).commitAsk 16 (s.vaultBuf (min 4032 (s.fld F.HDW_VAULT_LEN.BYTES 0)))

/-- PROVISION (R503). -/
def execProvision (s : State) : Res := done (s.atChip 0 (fun s => s.provision))

/-- Leaving Intrude clears ARMED in every trouble group (R544). -/
def State.disarm (s : State) : State :=
  (((s.regs.filter (fun e => regOfKey e.1 == .TRB_INJ)).map (fun e => e.1 / 1024))).foldl
    (fun s g => s.setFld F.TRB_INJ.ARMED g 0) s

/-- The debug level becomes Off (R518). -/
def State.debugClear (s : State) : State :=
  let s := if s.debugLevel = 2 then s.disarm else s
  s.setFld F.HDW_LC_STAT.DEBUG 0 0

/-- DEPLOY (R503): the Deployed fuse, FORCE_EN 0, debug Off. -/
def execDeploy (s : State) : Res :=
  done (if s.trust.accepted = some 3 then (((s.burn 2).setFld F.HDW_COMPAT.FORCE_EN 0 0).debugClear).lcEnd else s)

/-- VAULT_WRITE_TOKEN (R517): one WRITE of the token's record within 1 s, with a buffer whose digest matches. -/
def execVaultWriteToken (s : State) : Res :=
  done (if s.trust.accepted = some 5 then
    (s.putTrust { s.trust with write := some (s.trust.tokRid, s.trust.digest, s.time.tick) }).lcEnd else s)

/-- HDW_LC_CMD: 1 SUBMIT, 2 PROVISION, 3 DEBUG_OFF, which runs until the DEBUG_OFF command ends it (R529). -/
def State.lcCmdWrite (s : State) (v : Word) : State :=
  if s.flag F.HDW_LC_STAT.BUSY 0 then s
  else match fieldOf v 1 0 with
    | 1 => s.lcSubmit
    | 2 => s.provision
    | 3 => (s.putTrust { s.trust with accepted := some 6 }).setFld F.HDW_LC_STAT.BUSY 0 1
    | _ => s

/-- Seconds until debug returns to Off (R518, R529). -/
def State.debugLeft (s : State) : Nat :=
  if s.debugLevel = 0 then 0
  else min ((s.trust.notAfter * 1000000000 - s.time.now) / 1000000000) ((s.trust.since + 86400000000000 - s.time.tick) / 1000000000)

/-! ## Flash (R555, R556, R563) -/

/-- Unlisted flash bytes read 0xFF. -/
def flashDef : Nat → Byte := fun _ => 0xFF

/-- Flash bytes. -/
def State.flashBytes (s : State) (off n : Nat) : List Byte := (List.range n).map (fun i => Tbl.get flashDef s.trust.flash (off + i))

/-- Flash bytes replaced. -/
def State.flashPut (s : State) (off : Nat) (l : List Byte) : State :=
  s.putTrust { s.trust with flash :=
    (l.zip (List.range l.length)).foldl (fun t x => Tbl.set flashDef t (off + x.2) x.1) s.trust.flash }

/-- A 64 KiB sector erased. -/
def State.flashErase (s : State) (off : Nat) : State :=
  s.putTrust { s.trust with flash := s.trust.flash.filter (fun e => e.1 / 65536 != off / 65536) }

/-- A byte address lies in the slot in use (R556). -/
def State.flashInUse (s : State) (off : Nat) : Bool := s.trust.slot && off / 0x2000000 == s.fld F.HDW_BOOT_STAT.SLOT 0

/-- Results of HDW_FLASH_STAT: OK. -/
def flOk : Nat := 0
/-- INUSE. -/
def flInUse : Nat := 1
/-- ALIGN. -/
def flAlign : Nat := 2
/-- DEVERR. -/
def flDevErr : Nat := 3

/-- A flash command: 1 ERASE, 2 PROGRAM, 3 READ (R556, R563). -/
def State.flashCmd (s : State) (c : Nat) : State :=
  let a := s.fld F.HDW_FLASH_ADDR.ADDR 0
  if c = 0 then s
  else if s.flag F.HDW_FLASH_STAT.BUSY 0 then s.setFld F.HDW_FLASH_STAT.REJ 0 1
  else if a % (if c = 1 then 65536 else 256) ≠ 0 then s.setFld F.HDW_FLASH_STAT.RESULT 0 flAlign
  else if s.flashInUse a then s.setFld F.HDW_FLASH_STAT.RESULT 0 flInUse
  else (s.putTrust { s.trust with flashCmd := some (a * 4 + c) }).setFld F.HDW_FLASH_STAT.BUSY 0 1

/-- ERASE (R563). -/
def execErase (s : State) : Res := done (s.atChip 0 (fun s => s.flashCmd 1))

/-- PROGRAM (R563). -/
def execProgram (s : State) : Res := done (s.atChip 0 (fun s => s.flashCmd 2))

/-- FLASH_READ (R563). -/
def execFlashRead (s : State) : Res :=
  done (s.atChip 0 (fun s => s.flashCmd 3))

/-- FLASH_COMMAND_DONE (R563): the sector is erased, the window is programmed, or the page is in the window; after a device
error the bytes of an erase or program are open. -/
def execFlashCommandDone (devErr : Bool) (s : State) : Res :=
  match s.trust.flashCmd with
  | none => done s
  | some w =>
    let a := w / 4
    let c := w % 4
    let win := (List.range 64).flatMap (fun i => beBytes 4 (s.rd .HDW_FLASH_WIN i).toNat)
    let s := (s.putTrust { s.trust with flashCmd := none }).setFld F.HDW_FLASH_STAT.BUSY 0 0
    let s := s.setFld F.HDW_FLASH_STAT.RESULT 0 (if devErr then flDevErr else flOk)
    let open_ := fun n => (List.range n).map (fun i => Config.tornByte s.free i)
    match c with
    | 1 => done (if devErr then ((s.flashErase a).flashPut a (open_ 65536)).draw else s.flashErase a)
    | 2 => done (if devErr then (s.flashPut a (open_ 256)).draw else s.flashPut a win)
    | _ => done (if devErr then s else
        (List.range 64).foldl (fun s i => s.wr .HDW_FLASH_WIN i (bytesWord (s.flashBytes (a + 4 * i) 4))) s)

/-- MCTP_REQUEST (R560): firmware answers with HDW_BOOT_STAT, writes a flash page outside the slot in use, or carries out a
PROVISION. -/
def execMctpRequest (m : MctpMsg) (s : State) : Res :=
  if s.trust.power ≠ .on ∨ s.reachable 0 = false then done s
  else match m with
    | .bootStat => done (s.emit (.answer [s.rd .HDW_BOOT_STAT 0]))
    | .flashWrite page data =>
      let a := page.toNat * 256
      done (if s.flashInUse a then s.emit (.answer [BitVec.ofNat 32 flInUse])
        else (s.flashPut a (fitBytes 256 data)).emit (.answer [BitVec.ofNat 32 flOk]))
    | .provision => done (s.provision.emit (.answer [s.provision.rd .HDW_LC_STAT 0]))

end Sys2Proof.Machine
end

