-- ==== Sys2Proof/Machine/ConfigSpace.lean ====
section
/-! DEFINITION. The configuration space of the functions (R358, R388 to R392), the layouts of their BARs (R359, R397, R398, R406, R417)
and the expansion ROM (R400, R401).  What the PCI Express Base Specification 6.0 fixes beside the spec's tables is PRESUMED (log entry
40). -/
namespace Sys2Proof.Machine

/-! ## Functions (R385, R388) -/

/-- PF1 lies on link a with PF0 (R385). -/
def State.pf1OnA (s : State) (ep : Nat) : Bool := s.pf1Present ep && !s.flag F.PCI_EP_CFG.SPLIT_EFF ep

/-- The routing ID of a function less that of its link's function 0 (R388). -/
def State.routingId (s : State) (ep fn : Nat) : Nat :=
  if fn = 0 then 0 else if fn = pf1Fn then b2n (s.pf1OnA ep) else 2 + (fn - 1)

/-- The class code (R358, R388): base class, sub-class, interface. -/
def State.classCode (s : State) (ep fn : Nat) : Nat :=
  if fn = pf1Fn then 0x088000 else if s.isStorage (ep * 1025 + fn) then 0x010802 else 0x020000

/-- The writable bits and the fixed bits of word j of PCIE_BAR: 0 to 5 the BARs, 6 the ROM BAR, 7 and 8 VF BAR0, 9 the System Page Size
(R388, R391).  Every BAR is 64-bit and non-prefetchable. -/
def barBits (fn j : Nat) : Nat × Nat :=
  if fn = 0 then
    match j with
    | 0 => (0xFE000000, 4) | 1 => (0xFFFFFFFF, 0) | 7 => (0xFFFF0000, 4) | 8 => (0xFFFFFFFF, 0) | 9 => (0x1F, 0) | _ => (0, 0)
  else if fn = pf1Fn then
    match j with
    | 0 => (0xF0000000, 4) | 1 => (0xFFFFFFFF, 0) | 2 => (0xFFFF0000, 4) | 3 => (0xFFFFFFFF, 0) | 6 => (0xFFFF0001, 0) | _ => (0, 0)
  else (0, 0)

/-- Word j of PCIE_BAR as it reads; a System Page Size never written is 4 KiB. -/
def State.barWord (s : State) (ep fn j : Nat) : Nat :=
  let w := (s.rd .PCIE_BAR (fnKey ep fn * 16 + j)).toNat
  if fn = 0 ∧ j = 9 ∧ w = 0 then 1 else w + (barBits fn j).2

/-! ## Capabilities (R390) -/

/-- The extended capabilities: ID, offset, and whether PF0, PF1 and a VF have it. -/
def extCaps : List (Nat × Nat × Bool × Bool × Bool) :=
  [(0x0001, 0x100, true, true, true), (0x000E, 0x150, true, true, true), (0x000D, 0x160, true, true, true),
   (0x000F, 0x170, true, false, true), (0x001B, 0x180, true, false, true), (0x0019, 0x190, true, true, false),
   (0x0025, 0x1D0, true, true, false), (0x0026, 0x200, true, true, false), (0x002A, 0x240, true, true, false),
   (0x0031, 0x280, true, true, false), (0x0027, 0x2C0, true, true, false), (0x0010, 0x300, true, false, false),
   (0x002E, 0x340, true, true, false)]

/-- A function has an extended capability. -/
def hasCap (fn : Nat) (c : Nat × Nat × Bool × Bool × Bool) : Bool :=
  if fn = 0 then c.2.2.1 else if fn = pf1Fn then c.2.2.2.1 else c.2.2.2.2

/-- The headers of a function's extended capabilities: ID, version 1, and the offset of the next. -/
def extHeaders (fn : Nat) : List (Nat × Nat) :=
  let l := extCaps.filter (hasCap fn)
  (l.zip ((l.drop 1).map (fun c => c.2.1) ++ [0])).map (fun x => (x.1.2.1, x.1.1 + 2 ^ 16 + x.2 * 2 ^ 20))

/-- Offset and BIR of a function's MSI-X table and pending-bit array (R359, R397, R398). -/
def State.msixAt (s : State) (ep fn : Nat) : Nat × Nat :=
  if fn = pf1Fn then (0x2002, 0x3002)
  else if fn = 0 ∧ s.isStorage (ep * 1025) = false then (0x100000, 0x110000)
  else (0x2000, 0x3000)

/-- The words of a function's configuration space that are not zero, by offset (R388 to R392).  A VF has no power management
capability (R390), so that 0x40, where its Capabilities Pointer leads (R389), holds a null capability. -/
def State.cfgWords (s : State) (ep fn : Nat) : List (Nat × Nat) :=
  let k := fnKey ep fn
  let pf := fn == 0 || fn == pf1Fn
  let vf := fn != 0 && fn != pf1Fn
  let id := if vf then 0xFFFFFFFF else (if fn = 0 then 0x4D10 else 0x4D11) * 2 ^ 16 + 0xB0E5
  let n := s.fld F.PCI_EP_CFG.TOTALVFS ep
  let sriov := [(0x308, s.fld F.PCIE_SRIOV.VFE ep), (0x30C, n * 2 ^ 16 + n), (0x310, s.fld F.PCIE_SRIOV.NUMVFS ep), (0x314, 2 ^ 16 + 2),
    (0x318, 0x4D18 * 2 ^ 16), (0x31C, 0x1F), (0x320, s.barWord ep fn 9), (0x324, s.barWord ep fn 7), (0x328, s.barWord ep fn 8)]
  [(0x00, id), (0x04, 0x100000 + (s.rd .PCIE_CMD k).toNat), (0x08, s.classCode ep fn * 2 ^ 8),
    (0x0C, b2n (pf && s.pf1OnA ep) * 0x800000)]
  ++ (List.range 6).map (fun j => (0x10 + 4 * j, s.barWord ep fn j))
  ++ [(0x2C, s.plat.subsystem.toNat * 2 ^ 16 + 0xB0E5), (0x30, s.barWord ep fn 6), (0x34, 0x40),
    (0x40, b2n pf + 0x5000 + b2n pf * 0x30000), (0x44, b2n pf * (s.fld F.PCIE_PMCSR.STATE k + 8)),
    (0x50, 0x6011 + (s.vecCount ep fn - 1) * 2 ^ 16 + (s.rd .PCIE_MSIX_CTL k).toNat),
    (0x54, (s.msixAt ep fn).1), (0x58, (s.msixAt ep fn).2),
    (0x60, 0x20010), (0x64, 0x10008020 + b2n pf * 2), (0x68, (s.rd .PCIE_DEVCTL k).toNat), (0x84, 0x30000)]
  ++ extHeaders fn
  ++ [(0x104, (s.rd .PCIE_AER k).toNat), (0x108, (s.rd .PCIE_AER_MASK k).toNat), (0x10C, (s.rd .PCIE_AER_SEV k).toNat),
    (0x154, b2n (fn == 0 && s.pf1OnA ep) * 2 ^ 8)]
  ++ (if fn = pf1Fn then [] else [(0x174, (s.rd .PCIE_ATS k).toNat), (0x184, 20 * 2 ^ 8)])
  ++ (if fn = 0 then sriov else [])

/-- What a configuration read of a word of a function answers (R389 to R391). -/
def State.cfgWord (s : State) (ep fn off : Nat) : Word :=
  BitVec.ofNat 32 (match (s.cfgWords ep fn).find? (fun e => e.1 == off) with | some e => e.2 | none => 0)

/-- The register behind a word of configuration space that software writes. -/
def cfgReg (k off : Nat) : Option (Reg × Nat) :=
  if off = 0x04 then some (.PCIE_CMD, k) else if off = 0x44 then some (.PCIE_PMCSR, k) else if off = 0x50 then some (.PCIE_MSIX_CTL, k)
  else if off = 0x68 then some (.PCIE_DEVCTL, k) else if off = 0x104 then some (.PCIE_AER, k)
  else if off = 0x108 then some (.PCIE_AER_MASK, k) else if off = 0x10C then some (.PCIE_AER_SEV, k) else if off = 0x174 then some (.PCIE_ATS, k)
  else if 0x10 ≤ off ∧ off < 0x28 then some (.PCIE_BAR, k * 16 + (off - 0x10) / 4)
  else if off = 0x30 then some (.PCIE_BAR, k * 16 + 6)
  else if off = 0x324 then some (.PCIE_BAR, k * 16 + 7) else if off = 0x328 then some (.PCIE_BAR, k * 16 + 8)
  else if off = 0x320 then some (.PCIE_BAR, k * 16 + 9)
  else none

/-! ## BAR layouts (R359, R397, R398, R406, R417, R465) -/

/-- A word of the Ferry page of an instance (R406). -/
def ferryAt (n o : Nat) : Option (Reg × Nat) :=
  if o < 0x40 then some (.FRY_UP_MSG, n * 16 + o / 4) else if o = 0x40 then some (.FRY_UP_CTL, n)
  else if 0x80 ≤ o ∧ o < 0xC0 then some (.FRY_DN_MSG, n * 16 + (o - 0x80) / 4) else if o = 0xC0 then some (.FRY_DN_STAT, n)
  else if o = 0xC4 then some (.FRY_DN_TAKE, n) else if o = 0xC8 then some (.FRY_IRQ, n) else none

/-- A word of an instance status page (R465). -/
def statusAt (n o : Nat) : Option (Reg × Nat) :=
  if o = 0 then some (.INS_STAT, n) else if o = 4 then some (.INS_ID, n) else if o = 8 then some (.INS_ADM_DROPS, n)
  else if o = 12 then some (.INS_ADM_DROPS_HI, n) else if o = 16 then some (.INS_DB_MERGE, n) else none

/-- A word of a doorbell page (R417). -/
def bellAt (n o : Nat) : Option (Reg × Nat) :=
  if o < 0x200 then some (if o / 4 % 2 = 0 then .RING_TXDB else .RING_RXDB, n * 64 + o / 8)
  else if 0x400 ≤ o ∧ o < 0xC00 then
    let q := n * 64 + (o - 0x400) / 0x20
    match (o - 0x400) % 0x20 / 4 with
    | 0 => some (.RING_TXBASE, q) | 1 => some (.RING_TXBASE_HI, q) | 2 => some (.RING_RXBASE, q) | 3 => some (.RING_RXBASE_HI, q)
    | 4 => some (.RING_SIZE, q) | 5 => some (.RING_IRQ, q) | 6 => some (.RING_WRR, q) | _ => some (.RING_ARM, q)
  else none

/-- An NVMe controller register of an instance (R359, R360). -/
def nvmeAt (n o : Nat) : Option (Reg × Nat) :=
  match o / 4 with
  | 0 => some (.NVME_CAP, n) | 1 => some (.NVME_CAP_HI, n) | 2 => some (.NVME_VS, n) | 5 => some (.NVME_CC, n) | 7 => some (.NVME_CSTS, n)
  | 9 => some (.NVME_AQA, n) | 10 => some (.NVME_ASQ, n) | 11 => some (.NVME_ASQ_HI, n) | 12 => some (.NVME_ACQ, n)
  | 13 => some (.NVME_ACQ_HI, n) | _ => none

/-- An NVMe doorbell of an instance (R359). -/
def nvmeBellAt (n o : Nat) : Option (Reg × Nat) :=
  if o / 8 ≤ 64 then some (if o / 4 % 2 = 0 then .NVME_SQTDBL else .NVME_CQHDBL, n * 128 + o / 8) else none

/-- A word of an MSI-X table (R403). -/
def tableAt (k o : Nat) : Option (Reg × Nat) :=
  let i := k * 2048 + o / 16
  match o / 4 % 4 with
  | 0 => some (.PCIE_MSIX_ADDR, i) | 1 => some (.PCIE_MSIX_ADDR_HI, i) | 2 => some (.PCIE_MSIX_DATA, i) | _ => some (.PCIE_MSIX_VCTL, i)

/-- The register at an offset of an instance's BAR0 (R359, R397); none at a reserved one. -/
def State.bar0At (s : State) (n o : Nat) : Option (Reg × Nat) :=
  let k := fnKey (instEp n) (instFn n)
  let big := instFn n == 0 && !s.isStorage n
  if s.isStorage n then
    (if o < 0x1000 then nvmeAt n o else if o < 0x2000 then nvmeBellAt n (o - 0x1000) else if o < 0x3000 then tableAt k (o - 0x2000)
    else if o < 0x4000 then some (.PCIE_PBA_DW, k * 64 + (o - 0x3000) / 4) else if o < 0x5000 then statusAt n (o - 0x4000)
    else if o < 0x6000 then ferryAt n (o - 0x5000) else none)
  else if o < 0x1000 then bellAt n o
  else if o < 0x2000 then ferryAt n (o - 0x1000)
  else if 0x4000 ≤ o ∧ o < 0x5000 then statusAt n (o - 0x4000)
  else if big then
    (if 0x100000 ≤ o ∧ o < 0x108000 then tableAt k (o - 0x100000)
    else if 0x110000 ≤ o ∧ o < 0x110100 then some (.PCIE_PBA_DW, k * 64 + (o - 0x110000) / 4) else none)
  else if 0x2000 ≤ o ∧ o < 0x2400 then tableAt k (o - 0x2000)
  else if 0x3000 ≤ o ∧ o < 0x3100 then some (.PCIE_PBA_DW, k * 64 + (o - 0x3000) / 4)
  else none

/-- The register at an offset of a PF1's BAR2 (R398). -/
def bar2At (ep o : Nat) : Option (Reg × Nat) :=
  let k := fnKey ep pf1Fn
  if o < 0x80 then some (if o / 4 % 2 = 0 then .AP_BASE else .AP_BASE_HI, ep * 16 + o / 8)
  else if 0x2000 ≤ o ∧ o < 0x3000 then tableAt k (o - 0x2000)
  else if 0x3000 ≤ o ∧ o < 0x3100 then some (.PCIE_PBA_DW, k * 64 + (o - 0x3000) / 4)
  else none

/-- The register that a word of a BAR or of configuration space is: FN_BAR0 by instance and word, PF1_BAR2 and PCI_CFG likewise; any
other register is itself, and so is a word that no register lies behind. -/
def State.aliasOf (s : State) (r : Reg) (i : Nat) : Reg × Nat :=
  match r with
  | .FN_BAR0 => (s.bar0At (i / 8388608) (i % 8388608 * 4)).getD (r, i)
  | .PF1_BAR2 => (bar2At (i / 16384) (i % 16384 * 4)).getD (r, i)
  | r => (r, i)

/-- Pending bits 32 w to 32 w + 31 of a function (R403). -/
def State.pbaWord (s : State) (i : Nat) : Word :=
  BitVec.ofNat 32 ((List.range 32).foldl (fun a b => a + 2 ^ b * s.fld F.PCIE_MSIX_PBA.PEND (i / 64 * 2048 + i % 64 * 32 + b)) 0)

/-! ## The expansion ROM (R400, R401) -/

/-- An entry's 16 bytes (R401). -/
def UdtEntry.bytes (e : UdtEntry) : List Byte :=
  beBytes 2 e.kind ++ beBytes 1 e.chip ++ beBytes 1 (1 + b2n e.fenced * 2) ++ beBytes 2 e.index ++ [1, 0] ++ beBytes 6 e.base
    ++ beBytes 1 (if e.kind = 0x40 then 9 else Config.udtLog2 e.kind) ++ [0]

/-- The table as the expansion ROM holds it from offset 0x100 (R400, R401). -/
def State.udtRom (s : State) : List Byte :=
  let l := s.plat.udt.flatMap UdtEntry.bytes
  beBytes 4 0x55445431 ++ [1, 16] ++ beBytes 2 s.plat.udt.length ++ beBytes 4 (crcForm l) ++ beBytes 4 0 ++ l

/-- The PCI Data Structure of R400; the fields R400 does not name are PRESUMED (log entry 40). -/
def romData : List Byte :=
  [0x50, 0x43, 0x49, 0x52] ++ leBytes 2 0xB0E5 ++ leBytes 2 0x4D11 ++ leBytes 2 0 ++ leBytes 2 0x1C ++ [3] ++ leBytes 3 0x088000
    ++ leBytes 2 128 ++ leBytes 2 0 ++ [0xF0, 0x80] ++ leBytes 6 0

/-- The word of a PF1's expansion ROM at an offset. -/
def State.romWord (s : State) (off : Nat) : Word :=
  let l := if off < 0x100 then
      ([0x55, 0xAA] ++ List.replicate 22 0 ++ leBytes 2 0x20 ++ List.replicate 6 0 ++ romData).drop off
    else (s.udtRom).drop (off - 0x100)
  BitVec.ofNat 32 (leNat (fitBytes 4 (l.take 4)))

end Sys2Proof.Machine
end

