-- ==== Sys2Proof/Machine/Bus.lean ====
section
/-! DEFINITION. Register access: what a read of each register answers and a write of it does (R7 to R12, R25 to R27, R102, and
the register tables of 01 to 17), and where each register lies. -/
namespace Sys2Proof.Machine

/-! ## 64-bit quantities (R12) -/

/-- The high word of a 64-bit quantity, by its low word. -/
def quantHigh : Reg → Option Reg
  | .MCODE_VERSION => some .MCODE_VERSION_HI
  | .HDW_MC_FAIL => some .HDW_MC_FAIL_HI
  | .BNK_SND_BASE => some .BNK_SND_BASE_HI
  | .GAU_BASE => some .GAU_BASE_HI
  | .CFL_SQ_VAL => some .CFL_SQ_VAL_HI
  | .CFL_SQ_LIMIT => some .CFL_SQ_LIMIT_HI
  | .RING_TXBASE => some .RING_TXBASE_HI
  | .RING_RXBASE => some .RING_RXBASE_HI
  | .DMA_BYTES => some .DMA_BYTES_HI
  | .RNG_FN_IMG => some .RNG_FN_IMG_HI
  | .INS_ADM_DROPS => some .INS_ADM_DROPS_HI
  | .MAC_STAT => some .MAC_STAT_HI
  | .ATL_STATS => some .ATL_STATS_HI
  | .CNT_VAL => some .CNT_VAL_HI
  | .CNT_SNAP => some .CNT_SNAP_HI
  | .HDW_BOOT_WHY => some .HDW_BOOT_WHY_HI
  | .AP_BASE => some .AP_BASE_HI
  | _ => none

/-- The low word of a 64-bit quantity, by its high word. -/
def quantLow : Reg → Option Reg
  | .MCODE_VERSION_HI => some .MCODE_VERSION
  | .HDW_MC_FAIL_HI => some .HDW_MC_FAIL
  | .BNK_SND_BASE_HI => some .BNK_SND_BASE
  | .GAU_BASE_HI => some .GAU_BASE
  | .CFL_SQ_VAL_HI => some .CFL_SQ_VAL
  | .CFL_SQ_LIMIT_HI => some .CFL_SQ_LIMIT
  | .RING_TXBASE_HI => some .RING_TXBASE
  | .RING_RXBASE_HI => some .RING_RXBASE
  | .DMA_BYTES_HI => some .DMA_BYTES
  | .RNG_FN_IMG_HI => some .RNG_FN_IMG
  | .INS_ADM_DROPS_HI => some .INS_ADM_DROPS
  | .MAC_STAT_HI => some .MAC_STAT
  | .ATL_STATS_HI => some .ATL_STATS
  | .CNT_VAL_HI => some .CNT_VAL
  | .CNT_SNAP_HI => some .CNT_SNAP
  | .HDW_BOOT_WHY_HI => some .HDW_BOOT_WHY
  | .AP_BASE_HI => some .AP_BASE
  | _ => none

/-- A read of a low word: the high word goes to the holding latch, an RC quantity clears both words (R12). -/
def State.lowRead (s : State) (r hi : Reg) (i : Nat) : Word × State :=
  let s' := s.setLatch hi i (typedRead hi (s.rd hi i))
  (typedRead r (s.rd r i), (s'.wr r i (afterRead r (s.rd r i))).wr hi i (afterRead hi (s.rd hi i)))

/-- A write of a high word commits the staged low word with it (R12). -/
def State.highWrite (s : State) (r hi : Reg) (i : Nat) (v : Word) : State :=
  ((s.writeTyped r i (BitVec.ofNat 32 (s.lowWord r i))).writeTyped hi i v).setStage r i none

/-! ## Views: registers that show other state -/

/-- Classes of a port that hold: pause or PFC, credit, or descriptor (R291, R319). -/
def State.heldClasses (s : State) (p : Nat) : Nat :=
  if p < 256 then s.fld F.MAC_FC_HELD.HELD p
  else if p < 288 then
    if (s.outQueue p).length < s.fld F.ATL_CRED.TXAVAIL (p - 256) then 0 else 0xFF
  else (List.range 8).foldl (fun m b =>
    if s.busyQueues.any (fun q => s.qPort q == p && s.qClass q == b && !s.rxAvail p q) then m + 2 ^ b else m) 0

/-- SCH_N_STAT (R318). -/
def State.nodeStat (s : State) (n : Nat) : Nat :=
  let subs := s.eligSubs s.eligQueues
  let el := if n < 65536 then subs.contains n else (s.eligSvcs subs).contains n
  b2n (s.nodeHolds n) + b2n el * 2 + b2n (s.nodeCommitted n) * 4 + s.fld F.SCH_N_STAT.PEND n * 8

/-- What register r of index i holds for a reader, before WO fields are hidden: views of other state, else the stored word. -/
def State.view (s : State) (r : Reg) (i : Nat) : Word :=
  let w := s.rd r i
  match r with
  | .BRD_STATUS => withField w 0 0 (b2n (s.isFenced (boardChip i)))
  | .SCH_N_TC => tokenBytes (s.nodeNow i).tc
  | .SCH_N_TP => tokenBytes (s.nodeNow i).tp
  | .SCH_N_STAT => BitVec.ofNat 32 (s.nodeStat i)
  | .SCH_P_STAT =>
    BitVec.ofNat 32 (s.heldClasses i + (if i < 256 then s.gatesOf i (s.replica 1) else 0xFF) * 256)
  | .SCH_POL_TC => tokenBytes (s.polNow i).tc
  | .SCH_POL_TP => tokenBytes (s.polNow i).tp
  | .GATE_POS => (s.showGates i).rd .GATE_POS i
  | .CLU_FAULT_W0 => s.faultW0 i
  | .CLU_FAULT_W1 => s.faultW1 i
  | .CLU_RUNNING => s.threadMap Thread.isStarted (i / 16) (i % 16)
  | .CLU_FAULTED => s.threadMap (fun t => t.faulted) (i / 16) (i % 16)
  | .HBM_HOME_STATUS => withField w 10 0 (min 1024 (s.homeDepth i))
  | .BNK_INTAKE_DEPTH => BitVec.ofNat 32 (s.intakeDepth (i / 8) (i % 8))
  | .BNK_STO_CTL => withField w 1 1 (b2n s.stoReady)
  | .BNK_STO_SYNC => BitVec.ofNat 32 (b2n (s.stoSync i))
  | .DMA_ACT => (match (s.dmaCh (i / 8)).act with | some d => d.w (i % 8) | none => 0)
  | .DMA_SHD => (match (s.dmaCh (i / 8)).shd with | some d => d.w (i % 8) | none => 0)
  | .DMA_STAT => (s.dmaCh i).status
  | .RNG_FN_QVIEW0 => s.qview0 i
  | .INS_STAT => withField (withField w 15 0 (s.fld F.RNG_FN_FRZ.GEN i)) 18 16 (s.insState i)
  | .FRY_UP_CTL => withField w 6 6 (s.fld F.PCI_FRY_UP_STAT.FULL i)
  | .PCI_FRY_UP_MSG => s.rd .FRY_UP_MSG i
  | .PCI_FRY_DN_MSG => s.rd .FRY_DN_MSG i
  | .PCI_FRY_DN_CTL => withField w 6 6 (s.fld F.FRY_DN_STAT.FULL i)
  | .HDW_DBG_LEFT => BitVec.ofNat 32 s.debugLeft
  | .PCI_CFG => s.cfgWord (i / 1024 / 2048) (i / 1024 % 2048) (i % 1024 * 4)
  | .PCIE_BAR => BitVec.ofNat 32 (s.barWord (i / 16 / 2048) (i / 16 % 2048) (i % 16))
  | .PCIE_PBA_DW => s.pbaWord i
  | .PF1_ROM => s.romWord (i % 16384 * 4)
  | _ => w

/-! ## Reads -/

/-- A register read by a requester: the answer and the state after it. -/
def State.regRead (s : State) (who : Requester) (r : Reg) (i : Nat) : Word × State :=
  match r with
  | .TIME_NOW_NS =>
    let sec := s.time.now / 1000000000
    (BitVec.ofNat 32 (s.time.now % 1000000000),
      (s.setLatch .TIME_NOW_SLO 0 (BitVec.ofNat 32 sec)).setLatch .TIME_NOW_SHI 0 (BitVec.ofNat 32 (sec / 2 ^ 32 % 2 ^ 16)))
  | .TIME_NOW_SLO => (s.latched .TIME_NOW_SLO 0, s)
  | .TIME_NOW_SHI => (s.latched .TIME_NOW_SHI 0, s)
  | .CLU_BUF_ALLOC =>
    let th := match who with | .thread t => if thCluster t = i ∧ isMgmt t = false then some t else none | _ => none
    (BitVec.ofNat 32 (s.bufAlloc i th).1, (s.bufAlloc i th).2)
  | .CFL_SQ_NEXT => s.sqRead i (reqKey who)
  | .CFL_SQ_HI => (s.sqHi (reqKey who), s)
  | .CFL_SQ_EVQ => (s.sqEvqRead.rd .CFL_SQ_EVQ 0, s.sqEvqRead)
  | .BNK_STO_EVQ => s.evqRead i
  | .BNK_STO_STG_ALLOC => (BitVec.ofNat 32 (s.stgAlloc i).1, (s.stgAlloc i).2)
  | .FRY_DN_TAKE =>
    (takeWord (s.flag F.FRY_DN_STAT.FULL i) (s.fld F.FRY_DN_STAT.LEN i), s.setFld F.FRY_DN_STAT.FULL i 0)
  | .PCI_FRY_UP_TAKE =>
    if s.insState i = 2 then (0, s)
    else (takeWord (s.flag F.PCI_FRY_UP_STAT.FULL i) (s.fld F.PCI_FRY_UP_STAT.LEN i), s.ferryUpTaken i)
  | .RNG_FN_QVIEW0 => (s.qview0 i, s.qviewRead i)
  | .MAC_TXTS_ID => ((s.txtsRead i).rd .MAC_TXTS_ID i, s.txtsRead i)
  | .ATL_TXTS_ID => ((s.txtsRead (256 + i)).rd .ATL_TXTS_ID i, s.txtsRead (256 + i))
  | .TRB_HENT => if i % 8 = 0 then (s.rd .TRB_HENT i, s.captureEntry .TRB_HENT i) else (s.latched .TRB_HENT i, s)
  | .LOG_ENT => if i % 8 = 0 then (s.rd .LOG_ENT i, s.captureEntry .LOG_ENT i) else (s.latched .LOG_ENT i, s)
  | r =>
    match quantHigh r with
    | some hi => s.lowRead r hi i
    | none =>
      match quantLow r with
      | some _ => (s.latched r i, s)
      | none => (typedRead r (s.view r i), s.wr r i (afterRead r (s.rd r i)))

/-! ## Writes -/

/-- Fields of a word that keep their value where the written one is outside a range ("any other value has no effect"). -/
def State.keepOr (s : State) (f : Fld) (i lo hi old : Nat) : State :=
  if lo ≤ s.fld f i ∧ s.fld f i ≤ hi then s else s.setFld f i old

/-- PCI_EP_CFG (R391, R413): TOTALVFS and VFVEC keep their values outside their ranges and while VF Enable is 1. -/
def State.epCfgWrite (s : State) (ep : Nat) (v : Word) : State :=
  let tv := s.fld F.PCI_EP_CFG.TOTALVFS ep
  let vv := s.fld F.PCI_EP_CFG.VFVEC ep
  let vfe := s.flag F.PCIE_SRIOV.VFE ep
  let s := s.writeTyped .PCI_EP_CFG ep v
  if vfe then (s.setFld F.PCI_EP_CFG.TOTALVFS ep tv).setFld F.PCI_EP_CFG.VFVEC ep vv
  else (s.keepOr F.PCI_EP_CFG.TOTALVFS ep 0 1024 tv).keepOr F.PCI_EP_CFG.VFVEC ep 1 64 vv

/-- RNG_FN_FRZ (R457, R464): REJ by W1C, and the command. -/
def State.frzWrite (s : State) (n : Nat) (v : Word) : State :=
  let s := s.writeTyped .RNG_FN_FRZ n v
  match fieldOf v 2 0 with
  | 1 => s.freezeCmd n
  | 2 => s.saveCmd n
  | 3 => s.restoreCmd n
  | 4 => s.thawCmd n
  | _ => s

/-- CNT_CTL (R548): CLEAR zeroes VAL and SAT. -/
def State.cntCtlWrite (s : State) (c : Nat) (v : Word) : State :=
  let s := s.writeTyped .CNT_CTL c v
  if bit v.toNat 4 then (s.wr64 .CNT_VAL .CNT_VAL_HI c 0).setFld F.CNT_CTL.SAT c 0 else s

/-- HDW_VAULT_CMD (R530). -/
def State.vaultCmd (s : State) (v : Word) : State :=
  match fieldOf v 9 8 with
  | 1 => s.vaultWrite (fieldOf v 6 0)
  | 2 => s.vaultRead (fieldOf v 6 0)
  | _ => s

/-- The active descriptor ends with ABORTED, unless it is gated or held; ABORT_ALL ends the shadow one as well (R441). -/
def State.dmaAbort (s : State) (ch : Nat) (all : Bool) : State :=
  let may := fun (o : Option DmaDesc) => match o with | some d => !d.gated && d.held.isNone | none => false
  let c := s.dmaCh ch
  if may c.act then
    let s := s.dmaEnd ch 6 0
    if all && may (s.dmaCh ch).act then s.dmaEnd ch 6 0 else s
  else if all && may c.shd then
    match c.shd with
    | some d => ((s.setDma ch { c.record 6 0 with shd := none }).dmaCount ch d 6).dmaWake ch
    | none => s
  else s

/-- DMA_CTL (R441, R442): the bits clear when the abort is done. -/
def State.dmaCtlWrite (s : State) (ch : Nat) (v : Word) : State :=
  if bit v.toNat 1 then s.dmaAbort ch true else if bit v.toNat 0 then s.dmaAbort ch false else s

/-- DMA_ABORT (R441). -/
def execDmaAbort (ch : Nat) (s : State) : Res := done (s.atChip (boardChip (ch / 128)) (fun s => s.dmaAbort ch false))

/-- DMA_ABORT_ALL (R441). -/
def execDmaAbortAll (ch : Nat) (s : State) : Res := done (s.atChip (boardChip (ch / 128)) (fun s => s.dmaAbort ch true))

/-- NVME_CC as a register write (R361): EN enables or resets the controller; while it stays as it is, SHN notifies a shutdown. -/
def State.nvmeCcWrite (s : State) (n : Nat) (v : Word) : State :=
  if s.isStorage n = false then s
  else if s.flag F.NVME_CC.EN n = false ∧ bit v.toNat 0 = true then s.ccEnable n v
  else if s.flag F.NVME_CC.EN n = true ∧ bit v.toNat 0 = false then s.fnReset n true
  else (s.writeTyped .NVME_CC n v).ccShutdown n v

/-- The manager or firmware sends the access (R247). -/
def reqManages : Requester → Bool
  | .pf1 _ => true
  | .firmware => true
  | .thread th => isMgmt th
  | _ => false

/-- A register written by a requester: what its rules do with the word (R7 to R12). -/
def State.regWrite (s : State) (who : Requester) (r : Reg) (i : Nat) (v : Word) : State :=
  match r with
  | .BNK_STEER_TBL => s.steerWrite (i / 4096) (i % 4096) (fieldOf v 2 0)
  | .POL_CTL => s.polCtlWrite i v
  | .TIME_CTL => s.timeCtlWrite v
  | .TIME_STEP_THR => s.stepThrWrite v
  | .POL_MAN => s.polManWrite i v
  | .TTB_CTL => (s.ttbCtlWrite v).slackCheckAll
  | .TTB_SLOT_W0 => s.slotCommit who i v
  | .TTB_SLOT_W1 => s.slotW1Write i v
  | .CLU_CTL => s.cluCfgWrite i .ctl v
  | .CLU_ENTRY => s.cluCfgWrite i .entry v
  | .CLU_CREDIT_CTL => s.cluCfgWrite i .credit v
  | .CLU_BUF_CTL => s.cluCfgWrite i .buf v
  | .CLU_START => s.clusterStart i v
  | .CLU_THREAD_CMD => s.threadCmd (i * 512 + fieldOf v 8 3 * 8 + fieldOf v 2 0) (fieldOf v 10 9)
  | .CLU_FAULT_POP => s.faultPop i v
  | .CLU_BUF_FREE => s.bufFreeWrite i v.toNat
  | .HDW_MC_CMD => s.mcCmdWrite v
  | .HDW_MC_WIN => s.mcWinWrite i v
  | .BRD_DICE_TDEF_W0 => s.tdefWrite (i / 4096) (i % 4096) v
  | .BRD_FLOW_CTL => s.flowCtlWrite i v
  | .BRD_FLOW_HOME => s.flowHomeWrite i v
  | .DICE_CMD_GO => s.diceGo i (fieldOf v 2 0)
  | .DLT_CMD => s.when (reqManages who) (fun s => s.deltaGo v)
  | .CFL_BOOK_SNAP => s.bookSnap v
  | .CFL_HEADROOM => s.headroomWrite v
  | .CFL_PREP => s.prepWrite i v
  | .CFL_QADM => s.qadmWrite i v
  | .CFL_SEQ_TMO => s.seqTmoWrite v
  | .CFL_MC_GRP_W1 => s.setStage .CFL_MC_GRP_W1 i (some v)
  | .CFL_MC_GRP_W0 => s.groupCommit i v
  | .SCH_Q_W0 => s.queueW0Write i v
  | .SCH_Q_W1 => s.queueW1Write i v
  | .SCH_N_CFG => s.nodeCfgWrite i v
  | .SCH_N_CIR => s.shaperWrite .SCH_N_CIR i v
  | .SCH_N_PIR => s.shaperWrite .SCH_N_PIR i v
  | .SCH_N_CBS => s.shaperWrite .SCH_N_CBS i v
  | .SCH_N_PBS => s.shaperWrite .SCH_N_PBS i v
  | .SCH_P_CFG => (s.writeTyped .SCH_P_CFG i v).settle
  | .SCH_POL_CIR => s.policerWrite .SCH_POL_CIR i v
  | .SCH_POL_PIR => s.policerWrite .SCH_POL_PIR i v
  | .SCH_POL_CBS => s.policerWrite .SCH_POL_CBS i v
  | .SCH_POL_PBS => s.policerWrite .SCH_POL_PBS i v
  | .GATE_CTL => s.gateCtlWrite i v
  | .GATE_BASE_NS => s.gatePendWrite .GATE_BASE_NS i v
  | .GATE_BASE_SLO => s.gatePendWrite .GATE_BASE_SLO i v
  | .GATE_BASE_SHI => s.gatePendWrite .GATE_BASE_SHI i v
  | .GATE_CYCLE => s.gatePendWrite .GATE_CYCLE i v
  | .GATE_EXT => s.gatePendWrite .GATE_EXT i v
  | .GATE_LEN => s.gatePendWrite .GATE_LEN i v
  | .GATE_ENTRY => s.gateEntryWrite i v
  | .GAU_CTL => s.gauCtlWrite i v
  | .GAU_PERIOD => s.gauPeriodWrite i v
  | .KEY_TBL_IN => s.keyInWrite i v
  | .KEY_TBL_CMD => s.keyCmdWrite (fieldOf v 1 0)
  | .BRD_GATE_TMO => s.setFld F.BRD_GATE_TMO.US i (clamp 10 100000 (fieldOf v 16 0))
  | .CFL_SQ_CTL => s.sqWrite .CFL_SQ_CTL i v
  | .CFL_SQ_SOFT => s.sqWrite .CFL_SQ_SOFT i v
  | .CFL_SQ_KEY => s.sqWrite .CFL_SQ_KEY i v
  | .CFL_SQ_VAL => s.sqWrite .CFL_SQ_VAL i v
  | .CFL_SQ_VAL_HI => s.sqWrite .CFL_SQ_VAL_HI i v
  | .CFL_SQ_LIMIT => s.sqWrite .CFL_SQ_LIMIT i v
  | .CFL_SQ_LIMIT_HI => s.sqWrite .CFL_SQ_LIMIT_HI i v
  | .BNK_STO_CPL => s.stoCpl i v
  | .BNK_STO_STG_FREE => s.stgFree i v
  | .BNK_STO_HOLD_TMO => s.setFld F.BNK_STO_HOLD_TMO.MS i (clamp 10 60000 (fieldOf v 15 0))
  | .STO_CMD_GO => s.cmdGo i v
  | .FRY_UP_MSG => s.wr .FRY_UP_MSG i v
  | .FRY_UP_CTL => if ferryGo v then s.ferryUpSend i (fieldOf v 4 0) else s
  | .PCI_FRY_DN_MSG => s.wr .FRY_DN_MSG i v
  | .PCI_FRY_DN_CTL => if ferryGo v then s.ferryDnSend i (fieldOf v 4 0) else s
  | .PCI_EP_CFG => s.epCfgWrite i v
  | .PCI_FRY_PEND => s.writeTyped .PCI_FRY_PEND i (if i % 33 = 32 then v &&& 1 else v)
  | .NVME_SQTDBL => s.tailBell (i / 128) (i % 128) (fieldOf v 15 0)
  | .NVME_CQHDBL => s.headBell (i / 128) (i % 128) (fieldOf v 15 0)
  | .RING_TXDB => s.doorbell (i / 64) (i % 64) false (fieldOf v 15 0)
  | .RING_RXDB => s.doorbell (i / 64) (i % 64) true (fieldOf v 15 0)
  | .RING_ARM => s.ringArm (i / 64) (i % 64) v
  | .RING_SIZE => s.ringRegWrite .RING_SIZE i v
  | .RING_IRQ => s.ringRegWrite .RING_IRQ i v
  | .RING_WRR => s.ringRegWrite .RING_WRR i v
  | .RING_TXBASE => s.ringRegWrite .RING_TXBASE i v
  | .RING_TXBASE_HI => s.ringRegWrite .RING_TXBASE_HI i v
  | .RING_RXBASE => s.ringRegWrite .RING_RXBASE i v
  | .RING_RXBASE_HI => s.ringRegWrite .RING_RXBASE_HI i v
  | .DMA_CTL => s.dmaCtlWrite i v
  | .RNG_CTL => (s.writeTyped .RNG_CTL i v).keepOr F.RNG_CTL.PREFETCH i 1 64 (s.fld F.RNG_CTL.PREFETCH i)
  | .RNG_FN_BURST =>
    ((s.writeTyped .RNG_FN_BURST i v).keepOr F.RNG_FN_BURST.KIB i 1 65535 (s.fld F.RNG_FN_BURST.KIB i)).keepOr
      F.RNG_FN_BURST.FRAMES i 1 65535 (s.fld F.RNG_FN_BURST.FRAMES i)
  | .RNG_FN_WEIGHT => (s.writeTyped .RNG_FN_WEIGHT i v).keepOr F.RNG_FN_WEIGHT.WEIGHT i 1 255 (s.fld F.RNG_FN_WEIGHT.WEIGHT i)
  | .RNG_FN_FRZ => s.frzWrite i v
  | .BRD_INS_W0 => s.insW0Write i v
  | .MAC_PORT_CFG => s.portCfgWrite i v
  | .ATL_CFG => s.atlCfgWrite i v
  | .MAC_FC_CTL => (s.fcCtlWrite i v).settle
  | .MAC_EEE_CTL => s.eeeWrite i v
  | .MAC_SLACK_CTL => (s.slackCtlWrite i v).settle
  | .ATL_SLACK_CTL => (s.slackCtlWrite (256 + i) v).settle
  | .NVME_CC => s.nvmeCcWrite i v
  | .HDW_DISC_CMD => if bit v.toNat 0 then s.discGo else s
  | .HDW_LC_CHAL => if bit v.toNat 0 then s.chalNew else s
  | .HDW_LC_CMD => s.lcCmdWrite v
  | .HDW_LC_TOKEN => s.wr .HDW_LC_TOKEN i v
  | .HDW_VAULT_CMD => s.vaultCmd v
  | .HDW_PWR_CMD => s.powerCmd (fieldOf v 1 0)
  | .HDW_PWR_PFAIL => s.setFld F.HDW_PWR_PFAIL.THR 0 (clamp 40 45 (fieldOf v 5 0))
  | .HDW_FLASH_CMD => s.flashCmd (fieldOf v 1 0)
  | .TRB_STAT => s.trbStatWrite i v
  | .TRB_INJ => s.trbInjWrite i v
  | .LOG_CTL => if bit v.toNat 1 then (s.writeTyped .LOG_CTL 0 v).logClear else s.writeTyped .LOG_CTL 0 v
  | .HDW_COMPAT => if s.lifecycle = 2 then s else s.writeTyped .HDW_COMPAT 0 v
  | .CNT_CTL => s.cntCtlWrite i v
  | .GAU_BASE_HI => (s.highWrite .GAU_BASE .GAU_BASE_HI i v).gaugeZero i
  | r =>
    match quantHigh r with
    | some _ => s.setStage r i (some v)
    | none =>
      match quantLow r with
      | some lo => s.highWrite lo r i v
      | none => s.writeTyped r i v

end Sys2Proof.Machine
end

