-- ==== Sys2Proof/Machine/Access.lean ====
section
/-! DEFINITION. Accesses to device space (R25 to R28, R102, R371, R397 to R399, R507, R519, R520): what lies at an address, who may
reach it, and the commands that read or write registers and memory by address. -/
namespace Sys2Proof.Machine

/-! ## What lies at an address -/

/-- What an address of a register range names (R25): a register, a program-store word, an MRAM word, or a reserved word. -/
inductive Target where
  | reg (r : Reg) (i : Nat)
  | prog (cl idx : Nat)
  | mram (off : Nat)
  | reserved
deriving DecidableEq, Repr

/-- The MRAM's first address (R507). -/
def mramBase : Nat := 0x8000000

/-- An address of the MRAM range. -/
def inMram (a : Nat) : Bool := decide (mramBase ≤ a ∧ a < mramBase + 0x100000)

/-- An address of the Headwater KEY_ range (R102). -/
def inKeyRegs (a : Nat) : Bool := decide (0x50000 ≤ a ∧ a < 0x60000)

/-- An address of a Board's program stores (R152). -/
def inProg (a : Nat) : Bool := decide (0x100000000 ≤ a ∧ a < 0x108000000) && decide (0x800000 ≤ a % 0x1000000)

/-- A register word exists: trouble groups only of units (R534), event counters as many as the chiplet has (R547). -/
def regExists (r : Reg) (i : Nat) : Bool :=
  match r with
  | .TRB_HIST | .TRB_STAT | .TRB_IEN | .TRB_INJ => unitExists (i / 256) (i % 256)
  | .TRB_HENT => unitExists (i / 64 / 256) (i / 64 % 256)
  | .CNT_CTL | .CNT_VAL | .CNT_VAL_HI | .CNT_SNAP | .CNT_SNAP_HI => ctrExists i
  | _ => true

/-- What an address names; none where it is unassigned (R25). -/
def devTarget (a : Nat) : Option Target :=
  match addrChip a with
  | none => none
  | some _ =>
    if inMram a then some (.mram (a - mramBase))
    else if inProg a then
      some (.prog ((a - 0x100000000) / 0x1000000 * 8 + (a % 0x1000000 - 0x800000) / 0x100000) (a % 0x100000 / 4))
    else match decodeAddr a with
      | some (r, i) => if regExists r i then some (.reg r i) else none
      | none =>
        match decodeAddr (a / 32 * 32) with
        | some (.SCH_P_CFG, _) => some .reserved
        | _ => none

/-! ## Who may reach it -/

/-- The debug port reaches device space at Observe, and writes it at Intrude (R519, R520). -/
def State.debugMay (s : State) (wr : Bool) : Bool := s.debugLevel == 2 || (s.debugLevel == 1 && !wr)

/-- A 4-byte access to a register range is refused (R22, R25 to R27, R507, R519, R520): with a bus error and no side effect. -/
def State.busRefuses (s : State) (who : Requester) (a : Nat) (wr : Bool) : Bool :=
  match addrChip a with
  | none => true
  | some chip =>
    a % 4 != 0 || (devTarget a).isNone || !s.reachable chip || !s.reachable (reqChip who)
      || (inMram a && !isFirmware who && who != .debug)
      || (who == .debug && !s.debugMay wr)

/-- A 4-byte read of a register range: the word, or none for a bus error; debug reads zeros from keys and MRAM (R519). -/
def State.busRead (s : State) (who : Requester) (a : Nat) : Option Word × State :=
  if s.busRefuses who a false then (none, s)
  else if who == .debug && (inMram a || inKeyRegs a) then (some 0, s)
  else match devTarget a with
    | some (.reg r i) => (some (s.regRead who r i).1, (s.regRead who r i).2)
    | some (.prog cl idx) => (some (s.progWord cl idx), s)
    | some (.mram off) => (some (bytesWord (s.mramRead off 4)), s)
    | _ => (some 0, s)

/-- The instance whose Ferry a manager's write to r addresses (R407). -/
def ferryDn (r : Reg) (i : Nat) : Option Nat :=
  match r with
  | .PCI_FRY_DN_MSG => some (i / 16)
  | .PCI_FRY_DN_CTL => some i
  | _ => none

/-- A write that reaches a register: one to a full Ferry is rejected and counted (R410), one to the Ferry of an instance in RESET
has no effect (R412). -/
def State.regPut (s : State) (who : Requester) (r : Reg) (i : Nat) (v : Word) : Bool × State :=
  match ferryDn r i with
  | some n =>
    if s.insState n = 2 then (true, s)
    else if s.flag F.FRY_DN_STAT.FULL n then (false, s.satInc F.PCI_FRY_REJ.DN n 1)
    else (true, s.regWrite who r i v)
  | none => (true, s.regWrite who r i v)

/-- A 4-byte write to a register range: whether it completed without a bus error; debug writes no keys and no MRAM (R520). -/
def State.busWrite (s : State) (who : Requester) (a : Nat) (v : Word) : Bool × State :=
  if s.busRefuses who a true then (false, s)
  else if who == .debug && (inMram a || inKeyRegs a) then (true, s)
  else match devTarget a with
    | some (.reg r i) => s.regPut who r i v
    | some (.prog cl idx) => (true, s.progWrite cl idx v)
    | some (.mram off) => (true, s.mramWrite off (beBytes 4 v.toNat))
    | _ => (true, s)

/-! ## HBM accesses of other agents than the engines (R19, R173, R329, R519, R520) -/

/-- An HBM access is refused: HBM unmapped, outside its range, or in the key-table range; debug by its level; and a write of the
storage regions while storage service is enabled, which only the command block writes (R374; a bus error: DESIGN CHOICE, log
entry 39). -/
def State.hbmDenied (s : State) (who : Requester) (a n : Nat) (wr : Bool) : Bool :=
  s.hbmRefuses a n || !s.reachable (reqChip who) || (who == .debug && !s.debugMay wr)
    || (who != .debug && keyTableRange (a - hbmBase) n) || (wr && s.stoReady && stoRegion (a - hbmBase) n)

/-- The regions whose reads Observe does not mask in Deployed: flow table, extents, namespaces and NSID maps (R239, R371, R519). -/
def debugSees (off : Nat) : Bool :=
  decide (off < flowBytes) || decide (0x800000000 ≤ off ∧ off < 0xA00200000) || decide (0xA00400000 ≤ off ∧ off < 0xA00800000)

/-- What the debug port sees of HBM bytes: zeros of the key table, and of payload in Deployed at Observe (R519). -/
def State.debugBytes (s : State) (off : Nat) (l : List Byte) : List Byte :=
  if keyTableRange off l.length || (s.lifecycle == 2 && s.debugLevel == 1 && !debugSees off) then List.replicate l.length 0 else l

/-- A read of HBM by another agent than an engine's cache. -/
def State.hbmFetch (s : State) (who : Requester) (a n : Nat) : Option (List Byte) × State :=
  if s.hbmDenied who a n false then (none, s)
  else match s.hbmGet a n with
    | (some l, s) => (some (if who == .debug then s.debugBytes (a - hbmBase) l else l), s)
    | r => r

/-- A write of HBM by another agent than an engine's cache: whether it was made. -/
def State.hbmStoreBy (s : State) (who : Requester) (a : Nat) (l : List Byte) : Bool × State :=
  if s.hbmDenied who a l.length true then (false, s)
  else if who == .debug && keyTableRange (a - hbmBase) l.length then (true, s)
  else s.hbmSet a l

/-- UNCACHED_COHERENT_ACCESS (R19, R27, R173, R174): 1, 2, 4, 8 or 16 bytes at their natural alignment. -/
def execUncachedCoherentAccess (addr : BitVec 48) (len : Nat) (wr : Option (List (BitVec 8))) (who : Requester) (s : State) : Res :=
  let a := addr.toNat
  let n := match wr with | some l => l.length | none => len
  if [1, 2, 4, 8, 16].contains n = false ∨ a % n ≠ 0 then done (s.answer .busError)
  else match wr with
    | none => (match s.hbmFetch who a n with
      | (some l, s) => done (s.answer (.bytes l))
      | (none, s) => done (s.answer .busError))
    | some l => (match s.hbmStoreBy who a l with
      | (true, s) => done (s.answer .ok)
      | (false, s) => done (s.answer .busError))

/-! ## Accesses by register name -/

/-- The chiplet of a register; for a register of a BAR, the Bank of its endpoint. -/
def regChip (r : Reg) (i : Nat) : Nat :=
  match regAddr r i with
  | some a => (addrChip a).getD 0
  | none => match r with
    | .AP_BASE | .AP_BASE_HI => bankChip (epBank (i / 16))
    | .RING_TXBASE | .RING_TXBASE_HI | .RING_RXBASE | .RING_RXBASE_HI => bankChip (instBank (i / 64))
    | _ => 0

/-- QUANTITY_LOW_READ (R12, R89): the low word, and the latches take the rest; of TIME_NOW_NS, the seconds. -/
def execQuantityLowRead (r : Reg) (i : Nat) (s : State) : Res :=
  if s.reachable (regChip r i) then
    match quantHigh r with
    | some hi =>
      let x := s.lowRead r hi i
      done (x.2.answer (.data x.1))
    | none =>
      if r = .TIME_NOW_NS then
        let x := s.regRead .firmware r i
        done (x.2.answer (.data x.1))
      else done s
  else match quantHigh r with
    | some _ => done (s.answer .busError)
    | none => done (if r = .TIME_NOW_NS then s.answer .busError else s)

/-- QUANTITY_LOW_WRITE (R12): the staging latch takes the word and nothing else changes. -/
def execQuantityLowWrite (r : Reg) (i : Nat) (v : BitVec 32) (s : State) : Res :=
  match quantHigh r with
  | none => done s
  | some _ => done (s.atChip (regChip r i) (fun s => s.setStage r i (some v)))

/-- QUANTITY_HIGH_WRITE (R12): the staged low word and the high word are committed together. -/
def execQuantityHighWrite (r : Reg) (i : Nat) (v : BitVec 32) (s : State) : Res :=
  match quantHigh r with
  | none => done s
  | some hi => done (s.atChip (regChip r i) (fun s => s.regWrite .firmware hi i v))

/-- The RC fields of a register. -/
def rcMask (r : Reg) : Word :=
  (fieldSpecs r).foldl (fun m f => match f.ty with | .rc => m ||| maskOf f.hi f.lo | _ => m) 0

/-- The answer to a refused access: Unsupported Request to a host or a PF1, a write logged under PF1's AER; a bus error to any other
(R26, R399). -/
def State.refused (s : State) (who : Requester) (wr : Bool) : State :=
  match who with
  | .pf1 ep => ((if wr then s.logUr ep.toNat pf1Fn else s).emit (.unsupported ep.toNat pf1Fn)).answer .unsupportedRequest
  | .host _ => s.answer .unsupportedRequest
  | _ => s.answer .busError

/-- The instance whose BAR0 holds a register, and the endpoint whose PF1 BAR2 does; none for one in configuration space. -/
def barOwner (r : Reg) (i : Nat) : Option (Nat × Bool) :=
  match r with
  | .FRY_UP_MSG => some (i / 16, false)
  | .FRY_DN_MSG => some (i / 16, false)
  | .FRY_UP_CTL | .FRY_DN_STAT | .FRY_DN_TAKE | .FRY_IRQ => some (i, false)
  | .RING_TXDB | .RING_RXDB | .RING_SIZE | .RING_IRQ | .RING_WRR | .RING_ARM | .RING_TXBASE | .RING_TXBASE_HI | .RING_RXBASE
  | .RING_RXBASE_HI => some (i / 64, false)
  | .NVME_CAP | .NVME_CAP_HI | .NVME_VS | .NVME_CC | .NVME_CSTS | .NVME_AQA | .NVME_ASQ | .NVME_ASQ_HI | .NVME_ACQ
  | .NVME_ACQ_HI => some (i, false)
  | .INS_STAT | .INS_ID | .INS_ADM_DROPS | .INS_ADM_DROPS_HI | .INS_DB_MERGE => some (i, false)
  | .NVME_SQTDBL | .NVME_CQHDBL => some (i / 128, false)
  | .FN_BAR0 => some (i / 8388608, false)
  | .PF1_BAR2 => some (i / 16384, true)
  | .AP_BASE | .AP_BASE_HI => some (i / 16, true)
  | _ => none

/-- The function whose host a requester is: a host of an instance, or a PF1's. -/
def hostOf (who : Requester) (ep fn : Nat) : Bool :=
  match who with
  | .host n => fn != pf1Fn && n == ep * 1025 + fn
  | .pf1 e => fn == pf1Fn && e.toNat == ep
  | _ => false

/-- An access to a function's BAR by its host (R394). -/
def State.fnBar (s : State) (ep fn : Nat) (f : State → State) : State :=
  if fn = pf1Fn then s.pf1Reg ep f else s.hostReg (ep * 1025 + fn) f

/-- A write to a word of an MSI-X table, whose vector then may be deliverable; there is none beyond the table (R403, R404). -/
def State.tableWrite (s : State) (r : Reg) (i : Nat) (v : Word) : State :=
  let ep := i / 2048 / 2048
  let fn := i / 2048 % 2048
  if i % 2048 < s.vecCount ep fn then (s.writeTyped r i v).msixSend ep fn (i % 2048) else s

/-- A configuration write to a function (R391, R394, R403, R404). -/
def State.configPut (s : State) (r : Reg) (ep fn : Nat) (v : Word) : State :=
  let k := fnKey ep fn
  match r with
  | .PCIE_CMD =>
    let s := s.setFld F.PCIE_CMD.SERR k (b2n (bit v.toNat 8))
    s.pmSet ep fn (s.fld F.PCIE_PMCSR.STATE k == 3) (bit v.toNat 2) (bit v.toNat 1)
  | .PCIE_PMCSR =>
    if fieldOf v 1 0 = 0 ∨ fieldOf v 1 0 = 3 then
      s.pmSet ep fn (fieldOf v 1 0 == 3) (s.flag F.PCIE_CMD.BME k) (s.flag F.PCIE_CMD.MSE k)
    else s
  | .PCIE_SRIOV =>
    if bit v.toNat 0 then s.vfEnable ep (fieldOf v 31 16)
    else if s.flag F.PCIE_SRIOV.VFE ep then s.vfDisable ep else s
  | .PCIE_DEVCTL =>
    let s := s.writeTyped r k v
    if bit v.toNat 15 then (s.flr ep fn).settle else s
  | r => (s.writeTyped r k v).msixFlush ep fn

/-- A configuration write to a word that software writes: a register of `cfgReg` (R389 to R392). -/
def State.configWord (s : State) (r : Reg) (i ep fn : Nat) (v : Word) : State :=
  match r with
  | .PCIE_BAR => s.wr .PCIE_BAR i (v &&& BitVec.ofNat 32 (barBits fn (i % 16)).1)
  | r => s.configPut r ep fn v

/-- The function whose configuration space holds a register. -/
def cfgOwner (r : Reg) (i : Nat) : Option (Nat × Nat) :=
  match r with
  | .PCIE_CMD | .PCIE_PMCSR | .PCIE_MSIX_CTL | .PCIE_AER | .PCIE_AER_MASK | .PCIE_AER_SEV | .PCIE_DEVCTL | .PCIE_ATS => some (i / 2048, i % 2048)
  | .PCIE_BAR => some (i / 16 / 2048, i / 16 % 2048)
  | .PCI_CFG => some (i / 1024 / 2048, i / 1024 % 2048)
  | .PCIE_SRIOV => some (i, 0)
  | _ => none

/-- The function whose MSI-X table or pending-bit array holds a register. -/
def tableOwner (r : Reg) (i : Nat) : Option (Nat × Nat) :=
  match r with
  | .PCIE_MSIX_ADDR | .PCIE_MSIX_ADDR_HI | .PCIE_MSIX_DATA | .PCIE_MSIX_VCTL | .PCIE_MSIX_PBA => some (i / 2048 / 2048, i / 2048 % 2048)
  | .PCIE_PBA_DW => some (i / 64 / 2048, i / 64 % 2048)
  | _ => none

/-- A write to a register of a host's side that has no device-space address: of a BAR or of configuration space, by the host of
the function that has it (R394, R397, R398, R403). -/
def State.barWrite (s : State) (who : Requester) (r : Reg) (i : Nat) (v : Word) : State :=
  match r with
  | .PCI_CFG =>
    let k := i / 1024
    if hostOf who (k / 2048) (k % 2048) = false then s.refused who true
    else s.configReq (k / 2048) (k % 2048) (fun s =>
      match cfgReg k (i % 1024 * 4) with | some x => s.configWord x.1 x.2 (k / 2048) (k % 2048) v | none => s)
  | r =>
    match cfgOwner r i, tableOwner r i with
    | some (e, f), _ => if hostOf who e f then s.configReq e f (fun s => s.configWord r i e f v) else s.refused who true
    | none, some (e, f) => if hostOf who e f then s.fnBar e f (fun s => s.tableWrite r i v) else s.refused who true
    | none, none =>
      match barOwner r i, who with
      | some (n, false), .host m =>
        if n ≠ m then s.refused who true
        else if r = .FRY_UP_MSG ∨ r = .FRY_UP_CTL then s.ferryHost n (fun s => s.regWrite who r i v)
        else s.hostReg n (fun s => if r = .FN_BAR0 then s else s.regWrite who r i v)
      | some (e, true), .pf1 ep =>
        if e = ep.toNat then s.pf1Reg e (fun s => if r = .PF1_BAR2 then s else s.regWrite who r i v) else s.refused who true
      | _, _ => s.refused who true

/-- REGISTER_WRITE (R7 to R9): the field types, locks and reserved bits govern; the register's own rules where it has some. -/
def execRegisterWrite (who : Requester) (r : Reg) (i : Nat) (v : BitVec 32) (s : State) : Res :=
  match regAddr r i with
  | none => let x := s.aliasOf r i; done (s.barWrite who x.1 x.2 v)
  | some a =>
    match who with
    | .host _ => done (s.refused who true)
    | who => (match s.busWrite who a v with
      | (true, s) => done (s.answer .ok)
      | (false, s) => done (s.refused who true))

/-- A read of a register of a host's side by the host of the function that has it (R394, R397 to R400, R403). -/
def State.barRead (s : State) (r : Reg) (i : Nat) : State :=
  let said := fun (t : State) (w : Word) => if t.reply = .ok then t.answer (.data w) else t
  match cfgOwner r i, tableOwner r i with
  | some (e, f), _ => said (s.configReq e f id) (typedRead r (s.view r i))
  | none, some (e, f) => said (s.fnBar e f id) (typedRead r (s.view r i))
  | none, none =>
    match r, barOwner r i with
    | .PF1_ROM, _ =>
      if bit (s.rd .PCIE_BAR (fnKey (i / 16384) pf1Fn * 16 + 6)).toNat 0 then said (s.pf1Reg (i / 16384) id) (s.view r i)
      else s.answer .unsupportedRequest
    | _, some (n, false) => said (s.hostReg n (fun s => (s.regRead (.host n) r i).2)) (s.regRead (.host n) r i).1
    | _, some (e, true) => said (s.pf1Reg e (fun s => (s.regRead .firmware r i).2)) (s.regRead .firmware r i).1
    | _, none => s

/-- RC_FIELD_READ (R7, R11): the read returns the fields and zeroes them; an event of that clock counts in the new period.  DESIGN CHOICE
(log entry 2): the table has no row for a read of a register without such a field, so that this one reads any register: by firmware, or by
the host that has it. -/
def execRcFieldRead (r : Reg) (i : Nat) (events : BitVec 32) (s : State) : Res :=
  match regAddr r i with
  | none => let x := s.aliasOf r i; done (s.barRead x.1 x.2)
  | some _ =>
    if s.reachable (regChip r i) then
      let x := s.regRead .firmware r i
      done ((if rcMask r = 0 then x.2 else x.2.wr r i (x.2.rd r i ||| (events &&& rcMask r))).answer (.data x.1))
    else done (s.answer .busError)

/-- UNASSIGNED_ACCESS (R26): nothing changes but the answer; an access that is not refused is none of this command's. -/
def execUnassignedAccess (who : Requester) (addr : BitVec 48) (write : Bool) (s : State) : Res :=
  let a := addr.toNat
  let no := if inHbm a 4 then s.hbmDenied who a 4 write else s.busRefuses who a write
  done (if no then s.refused who write else s)

/-! ## Requests through PF1 BAR0 (R398, R399) -/

/-- The addresses of the DWs of a request. -/
def dwAddrs (a n : Nat) : List Nat := (List.range (n / 4)).map (fun k => a + 4 * k)

/-- The word of a DW: byte lane 0 carries bits [7:0] (R399). -/
def laneWord (l : List Byte) : Word := BitVec.ofNat 32 (leNat l)

/-- The reads of a request to a register range, in ascending order; a bus error ends them. -/
def State.dwReads (who : Requester) : List Nat → List Byte → State → Option (List Byte) × State
  | [], acc, s => (some acc, s)
  | a :: as, acc, s =>
    match s.busRead who a with
    | (some w, s) => State.dwReads who as (acc ++ leBytes 4 w.toNat) s
    | (none, s) => (none, s)

/-- The writes of a request to a register range, in ascending order; a bus error ends them. -/
def State.dwWrites (who : Requester) : List (Nat × Word) → State → Bool × State
  | [], s => (true, s)
  | (a, w) :: as, s =>
    match s.busWrite who a w with
    | (true, s) => State.dwWrites who as s
    | (false, s) => (false, s)

/-- A request that lies in register ranges (R399): whole DWs, all of them checked before the first access. -/
def State.pf1Regs (s : State) (who : Requester) (a : Nat) (req : BarReq) : State :=
  let n := match req with | .read n => n | .write l => l.length
  let wr := match req with | .read _ => false | .write _ => true
  if a % 4 ≠ 0 ∨ n % 4 ≠ 0 ∨ n = 0 ∨ (dwAddrs a n).any (fun x => s.busRefuses who x wr) = true then s.refused who wr
  else match req with
    | .read _ => (match State.dwReads who (dwAddrs a n) [] s with
      | (some l, s) => s.answer (.bytes l)
      | (none, s) => s.refused who false)
    | .write l => (match State.dwWrites who ((dwAddrs a n).map (fun x => (x, laneWord ((l.drop (x - a)).take 4)))) s with
      | (true, s) => s.answer .ok
      | (false, s) => s.refused who true)

/-- A request to HBM of up to 512 bytes (R399). -/
def State.pf1Hbm (s : State) (who : Requester) (a : Nat) (req : BarReq) : State :=
  match req with
  | .read n =>
    if 512 < n then s.refused who false
    else (match s.hbmFetch who a n with
      | (some l, s) => s.answer (.bytes l)
      | (none, s) => s.refused who false)
  | .write l =>
    if 512 < l.length then s.refused who true
    else (match s.hbmStoreBy who a l with
      | (true, s) => s.answer .ok
      | (false, s) => s.refused who true)

/-- PF1_BAR0_REQUEST (R398, R399): the aperture's address; a host window or an unassigned address is refused. -/
def execPf1Bar0Request (ep : BitVec 5) (offset : BitVec 28) (req : BarReq) (s : State) : Res :=
  let e := ep.toNat
  let a := s.apBase e (offset.toNat / 0x1000000) + offset.toNat % 0x1000000
  let who := Requester.pf1 ep
  if s.pf1Present e = false ∨ s.flag F.PCIE_CMD.MSE (fnKey e pf1Fn) = false ∨ s.reachable (bankChip (epBank e)) = false then
    done (s.answer .unsupportedRequest)
  else if hbmBase ≤ a ∧ a < hbmBase + hbmSize then done (s.pf1Hbm who a req)
  else done (s.pf1Regs who a req)

end Sys2Proof.Machine
end

