-- ==== Sys2Proof/Machine/Flags.lean ====
section
/-! DEFINITION. The flags of a thread: taint of general registers (R338), the state of the tag gate (R98, R123 to R126), block
registers that a round unit has still to write (R122). -/
namespace Sys2Proof.Machine

/-- General register n is tainted (R338); g0 never is. -/
def Thread.tainted (t : Thread) (n : BitVec 5) : Bool := n != 0 && t.taint.getLsbD n.toNat

/-- The thread with the taint of general register n set or cleared (R338). -/
def Thread.setTaint (t : Thread) (n : BitVec 5) (b : Bool) : Thread :=
  if n = 0 then t
  else { t with taint := if b then t.taint ||| ((1 : BitVec 32) <<< n.toNat) else t.taint &&& ~~~((1 : BitVec 32) <<< n.toNat) }

/-- The thread after an instruction writes general register rd: tainted while the gate is open and the instruction read a
tainted register or is a BGET (R96, R338). -/
def Thread.put (t : Thread) (rd : BitVec 5) (src : Bool) (v : Word) : Thread := (t.setGr rd v).setTaint rd (t.open_ && src)

/-- The mask of one block register. -/
def blkBit (n : BitVec 3) : BitVec 8 := (1 : BitVec 8) <<< n.toNat

/-- A block register of the mask is still to be written by a round unit (R122). -/
def Thread.busy (t : Thread) (m : BitVec 8) : Bool := t.bBusy &&& m != 0

/-- A key with the gate attribute opens the gate (R123): GATED becomes 1 if it is not. -/
def Thread.openGate (t : Thread) (gate : Bool) : Thread := { t with gated := t.gated || gate }

/-- The special register GATE (R98). -/
def Thread.gateWord (t : Thread) : Word := BitVec.ofNat 32 (b2n t.gated + b2n t.failed * 2)

/-- The special register CREDIT (R98). -/
def Thread.creditWord (t : Thread) : Word := BitVec.ofNat 32 (t.credHeld + t.handles.length * 65536)

/-- The mask that FENCE selects has class k (R141). -/
def fenceHas (mask : BitVec 5) (k : Nat) : Bool := mask.getLsbD k

/-- A thread has operations of the selected classes under way (R141): posted shared-state stores, posted device stores,
payload writes.  Local and cluster stores, enqueues, drops and DMAS are complete when they issue. -/
def Thread.outstanding (t : Thread) (mask : BitVec 5) : Option Wait :=
  if (fenceHas mask 2 && t.posted.any (fun p => !p.device)) || (fenceHas mask 3 && t.posted.any (fun p => p.device)) then
    some (.stores false)
  else if fenceHas mask 4 && !t.wfifo.isEmpty then some (.writes false)
  else none

end Sys2Proof.Machine
end

