-- ==== Sys2Proof/Machine/Operands.lean ====
section
/-! DEFINITION. What every Boene instruction shares (03): issue by its engine (R105, R114, R148), immediates, register results,
branch targets, and the memory spaces with the faults of an access (R100 to R104, R242, R329, R337, R371). -/
namespace Sys2Proof.Machine

/-! ## Issue -/

/-- A thread exists: 32,768 on the Boards, eight on each of the four management engines (R144, R145). -/
def threadExists (th : Nat) : Bool := decide (th < 32800)

/-- The thread its engine issues from (R148). -/
def State.current (s : State) (th : Nat) : Bool := Tbl.get (fun _ => 0) s.eng.cur (thEngine th) == th % 8

/-- The microcode of the thread's cluster lets it execute (R196): in RUN; in QUIESCE an instruction that is dispatched already. -/
def State.mcLets (s : State) (th : Nat) : Bool :=
  s.mcState (thCluster th) == 0
    || (s.mcState (thCluster th) == 1 && ((s.thread th).begun || (s.thread th).instr.isSome))

/-- The engine issues an instruction of the thread (R148, R155, R196, R197): the thread is ready and is the one the engine
has selected; its chiplet answers; its cluster runs. -/
def State.canIssue (s : State) (th : Nat) : Bool :=
  threadExists th && (s.thread th).isReady && s.current th && s.reachable (thChip th)
    && (isMgmt th || (s.mcLets th && s.clusterOk (thCluster th)))

/-- A thread fault other than a trap (R142, R143). -/
def State.fault (s : State) (th cause : Nat) : State := s.threadFault th cause 0

/-- The ECC of the fetch at the thread's pc (R153): whether the word is uncorrectable, and what the fetch counts.  An instruction
whose microwords run has been fetched; the program of a management engine is not in a program store. -/
def State.fetchEcc (s : State) (th : Nat) : Bool × State :=
  if isMgmt th || (s.thread th).instr.isSome then (false, s)
  else s.eccRead (clusterGroups (thCluster th)) (progAddr (thCluster th) ((s.thread th).pc.toNat / 4)) 4 false

/-- Issue of an instruction (R109, R114, R144, R153): past the end of the program store the fetch faults, and so does one of an
uncorrectable word; an illegal instruction faults; else it takes effect.  A thread that does not issue is left as it is. -/
def State.issue (s : State) (th : Nat) (legal : Bool) (f : State → State) : State :=
  if s.canIssue th = false then s
  else if (s.thread th).past then s.fault th fcIaddr
  else match s.fetchEcc th with
    | (true, s) => s.fault th fcData
    | (false, s) => if legal then f s else s.fault th fcIllegal

/-- An instruction that an open gate forbids (R337). -/
def State.unlessOpen (s : State) (th : Nat) (f : State → State) : State :=
  if (s.thread th).open_ then s.fault th fcProt else f s

/-- The thread's instruction is done: pc goes to the next word. -/
def State.retire (s : State) (th : Nat) (f : Thread → Thread) : State := s.setThread th (f (s.thread th)).advance

/-- An instruction whose only effect is a general-register result (R96, R338). -/
def State.result (s : State) (th : Nat) (rd : BitVec 5) (src : Bool) (v : Word) : State := s.retire th (fun t => t.put rd src v)

/-! ## Immediates and targets -/

/-- A field extended to 32 bits with its sign. -/
def sext {w : Nat} (x : BitVec w) : Word := x.signExtend 32

/-- A field extended to 32 bits with zeros. -/
def zext {w : Nat} (x : BitVec w) : Word := x.setWidth 32

/-- pc as a 32-bit value. -/
def Thread.pcWord (t : Thread) : Word := t.pc.setWidth 32

/-- A branch target lies outside the program store (R114). -/
def beyond (target : Word) : Bool := decide (0x100000 ≤ target.toNat)

/-- The thread goes on at a target. -/
def Thread.jump (t : Thread) (target : Word) : Thread := { t with pc := target.setWidth 20, past := false, instr := none, begun := false }

/-! ## Memory spaces (R100) -/

/-- The spaces a thread loads from and stores to, by code. -/
inductive MemSpace where
  | loc
  | clu
  | shr
  | dev
deriving DecidableEq, Repr

/-- The space of a two-bit code. -/
def spaceOf (sp : BitVec 2) : MemSpace := if sp = 0 then .loc else if sp = 1 then .clu else if sp = 2 then .shr else .dev

/-- The address that an effective address names in a space: SSEG or DSEG stands above ea in the 48-bit spaces (R100). -/
def Thread.spaceAddr (t : Thread) (sp : MemSpace) (ea : Word) : Nat :=
  match sp with
  | .shr => t.sseg.toNat * 2 ^ 32 + ea.toNat
  | .dev => t.dseg.toNat * 2 ^ 32 + ea.toNat
  | _ => ea.toNat

/-- An address fault (R101, R144): beyond a space's extent; shared-state outside HBM; device inside it; cluster space of a
management engine. -/
def outsideSpace (th : Nat) (sp : MemSpace) (a n : Nat) : Bool :=
  match sp with
  | .loc => decide (0x8000 < a + n)
  | .clu => isMgmt th || decide (0x400000 < a + n)
  | .shr => !inHbm a n
  | .dev => decide (hbmBase ≤ a ∧ a < hbmBase + hbmSize)

/-- The cluster buffer that is charged to the thread and holds [a, a + n). -/
def State.ownBuffer (s : State) (th a n : Nat) : Option Nat :=
  ((s.bufList (thCluster th)).find? (fun e => e.2 == some th && decide (e.1 ≤ a ∧ a + n ≤ e.1 + 0x800))).map (fun e => e.1)

/-- A store that an open gate forbids (R337): all but those into a cluster buffer charged to the thread. -/
def State.gateForbids (s : State) (th : Nat) (sp : MemSpace) (a n : Nat) : Bool :=
  (s.thread th).open_ && (match sp with | .clu => (s.ownBuffer th a n).isNone | _ => true)

/-- A protection fault of the address (R102, R242, R329, R371). -/
def State.protects (s : State) (th : Nat) (sp : MemSpace) (a n : Nat) (wr : Bool) : Bool :=
  match sp with
  | .shr => (s.hbmMapped && keyTableRange (a - hbmBase) n)
      || (wr && ((s.stoReady && stoRegion (a - hbmBase) n) || (s.flowAny && decide (a - hbmBase < flowBytes))))
  | .dev => !isMgmt th && (inKeyRegs a || inMram a)
  | _ => false

/-- A bus error of the access (R19, R22, R26 to R28). -/
def State.busFails (s : State) (th : Nat) (sp : MemSpace) (a n : Nat) (wr : Bool) : Bool :=
  match sp with
  | .shr => !s.hbmMapped || !s.homesUp (a - hbmBase) n
  | .dev => n != 4 || s.busRefuses (.thread th) a wr
  | _ => false

/-- The fault of an access, if it has one: alignment, address, protection, bus, in this order. -/
def State.accessFault (s : State) (th : Nat) (sp : MemSpace) (a n : Nat) (wr : Bool) : Option Nat :=
  if a % n ≠ 0 then some fcAlign
  else if outsideSpace th sp a n then some fcAddr
  else if (wr && s.gateForbids th sp a n) || s.protects th sp a n wr then some fcProt
  else if s.busFails th sp a n wr then some fcBus
  else none

/-! ## Posted stores (R104, R166) -/

/-- The bytes of a range with a posted store laid over them. -/
def overlayOne (a : Nat) (l : List Byte) (p : Posted) : List Byte :=
  (List.range l.length).map (fun i =>
    if p.device = false ∧ p.addr ≤ a + i ∧ a + i < p.addr + p.bytes.length then p.bytes.getD (a + i - p.addr) 0 else l.getD i 0)

/-- The bytes of HBM as the thread sees them: its own latest earlier stores included (R104). -/
def overlay (posted : List Posted) (a : Nat) (l : List Byte) : List Byte := posted.foldl (overlayOne a) l

/-- A posted shared-state store takes effect (R104, R167, R173). -/
def State.sharedPut (s : State) (th : Nat) (p : Posted) : State :=
  if isMgmt th then s.hbmWrite (p.addr - hbmBase) p.bytes else s.hbmStore (thBoard th) (p.addr - hbmBase) p.bytes

/-- The lines of a range are the thread's Board's own, though nothing is written (R117, R167). -/
def State.sharedOwn (s : State) (th off n : Nat) : State :=
  if isMgmt th then (linesOf off n).foldl State.fetchForRead s else (linesOf off n).foldl (fun s k => s.acquireOwned (thBoard th) k false) s

/-- The thread's posted shared-state stores take effect, oldest first: an atomic or a DMAS follows them (R166). -/
def State.drainShared (s : State) (th : Nat) : State :=
  let t := s.thread th
  let s := (t.posted.filter (fun p => !p.device)).foldl (fun s p => s.sharedPut th p) s
  s.setThread th { t with posted := t.posted.filter (fun p => p.device) }

/-- A posted device store to the chiplet of an address has not taken effect yet (R166). -/
def Thread.deviceBehind (t : Thread) (a : Nat) : Bool := t.posted.any (fun p => p.device && addrChip p.addr == addrChip a)

/-! ## Reads and writes of a space -/

/-- Lines that a load of HBM obtains: through the Board's cache, or uncached for a management engine (R167, R173). -/
def State.acquireForLoad (s : State) (th off n : Nat) : State :=
  if isMgmt th then (linesOf off n).foldl State.fetchForRead s
  else (linesOf off n).foldl (fun s k => s.acquireShared (thBoard th) k) s

/-- The chiplet that answers an access (R18, R25): of the memory's home, or of the register. -/
def spaceChip (th : Nat) (sp : MemSpace) (a : Nat) : Nat :=
  match sp with
  | .shr => bankChip (homeBank (lineOf (a - hbmBase)))
  | .dev => (addrChip a).getD 0
  | _ => thChip th

/-- A load of n bytes from a space, after the checks: none for uncorrectable or poisoned data (R142, R174, R546), or for a
device read that fails. -/
def State.spaceRead (s : State) (th : Nat) (sp : MemSpace) (a n : Nat) : Except Nat (List Byte) × State :=
  match sp with
  | .loc => (.ok (s.localRead (thEngine th) a n), s)
  | .clu =>
    let e := s.eccRead (clusterGroups (thCluster th)) a n false
    (if e.1 then .error fcData else .ok (s.clusterSeen (thCluster th) (some th) a n), e.2)
  | .shr =>
    let off := a - hbmBase
    let e := s.eccRead hbmGroups a n false
    if e.1 || s.poisonedIn off n then (.error fcData, e.2)
    else (.ok (overlay (s.thread th).posted a (s.hbmRead off n)), e.2.acquireForLoad th off n)
  | .dev =>
    match s.busRead (.thread th) a with
    | (some w, s) => (.ok (beBytes 4 w.toNat), s)
    | (none, s) => (.error fcBus, s)

/-- A store into a cluster buffer of the thread while its gate is open marks the buffer gated (R340). -/
def State.markGated (s : State) (th a n : Nat) : State :=
  let t := s.thread th
  match t.open_, s.ownBuffer th a n with
  | true, some b => if t.gbufs.contains b then s else s.setThread th { t with gbufs := t.gbufs ++ [b] }
  | _, _ => s

/-- A store of bytes to a space, after the checks: local and cluster memory take it, the other spaces post it (R104). -/
def State.spaceWrite (s : State) (th : Nat) (sp : MemSpace) (a : Nat) (l : List Byte) : State :=
  match sp with
  | .loc => s.localWrite (thEngine th) a l
  | .clu => (s.markGated th a l.length).clusterWrite (thCluster th) a l
  | .shr => s.setThread th { s.thread th with posted := (s.thread th).posted ++ [{ device := false, addr := a, bytes := l, pc := (s.thread th).pc }] }
  | .dev => s.setThread th { s.thread th with posted := (s.thread th).posted ++ [{ device := true, addr := a, bytes := l, pc := (s.thread th).pc }] }

/-! ## Answers of units (R129, R132) -/

/-- A long stall whose answer the unit has worked out: the thread waits for it. -/
def State.awaitAnswer (s : State) (th : Nat) (w : Wait) (a : LookAnswer) : State :=
  (s.setThread th { s.thread th with look := some a }).stall th w

/-- The answer reaches the thread: its registers are written and the instruction is done. -/
def State.deliver (s : State) (th : Nat) (a : LookAnswer) : State :=
  let t := (s.thread th).put a.rd a.taint a.value
  let t := match a.blk with | some (b, v) => t.setBr b v | none => t
  (s.setThread th { t.advance with look := none }).makeReady th

end Sys2Proof.Machine
end

