-- ==== Sys2Proof/Machine/Alu.lean ====
section
/-! DEFINITION. Integer instructions (R111, R112). -/
namespace Sys2Proof.Machine

/-- An integer instruction with two register sources. -/
def State.int2 (s : State) (th : Nat) (rd rs1 rs2 : BitVec 5) (op : Word → Word → Word) : State :=
  s.issue th true (fun s =>
    let t := s.thread th
    s.result th rd (t.tainted rs1 || t.tainted rs2) (op (t.gr rs1) (t.gr rs2)))

/-- An integer instruction with one register source. -/
def State.int1 (s : State) (th : Nat) (rd rs1 : BitVec 5) (op : Word → Word) : State :=
  s.issue th true (fun s =>
    let t := s.thread th
    s.result th rd (t.tainted rs1) (op (t.gr rs1)))

/-- A truth value as a register word. -/
def boolWord (b : Bool) : Word := if b then 1 else 0

/-- Count of leading zero bits, 0 to 32. -/
def clz32 (w : Word) : Word := if w = 0 then 32 else BitVec.ofNat 32 (31 - Nat.log2 w.toNat)

/-- Count of one bits. -/
def popCount (w : Word) : Word := BitVec.ofNat 32 ((List.range 32).foldl (fun n i => n + b2n (w.getLsbD i)) 0)

/-- The bytes of a word in reverse order. -/
def rev8 (w : Word) : Word := BitVec.ofNat 32 (beNat (leBytes 4 w.toNat))

/-- One folding step of the one's-complement sum: s[31:16] + s[15:0]. -/
def foldSum (n : Nat) : Nat := if n > 0xFFFF then n / 65536 + n % 65536 else n

/-- ADD1C: four halfwords summed; two folds bring every such sum within 16 bits (R111). -/
def add1c (a b : Word) : Word :=
  BitVec.ofNat 32 (foldSum (foldSum (a.toNat / 65536 + a.toNat % 65536 + b.toNat / 65536 + b.toNat % 65536)))

/-- CRCW: the CRC-32C state after four bytes, byte [31:24] first. -/
def crcw (st w : Word) : Word := BitVec.ofNat 32 (crc32c st.toNat (beBytes 4 w.toNat))

/-- The high word of the signed product. -/
def mulhi (a b : Word) : Word := BitVec.ofInt 32 (a.toInt * b.toInt / 2 ^ 32)

/-- The high word of the unsigned product. -/
def mulhiU (a b : Word) : Word := BitVec.ofNat 32 (a.toNat * b.toNat / 2 ^ 32)

/-- EXT: len1 + 1 bits from position pos, zero-extended; bits beyond bit 31 read as zero. -/
def extBits (w : Word) (pos len1 : BitVec 5) : Word := BitVec.ofNat 32 (w.toNat >>> pos.toNat % 2 ^ (len1.toNat + 1))

/-- INS: the low len1 + 1 bits of `w` at position pos of `old`; bits above bit 31 are discarded. -/
def insBits (old w : Word) (pos len1 : BitVec 5) : Word :=
  let m := BitVec.ofNat 32 ((2 ^ (len1.toNat + 1) - 1) <<< pos.toNat)
  (old &&& ~~~m) ||| ((w <<< pos.toNat) &&& m)

/-- ADD (R111). -/
def execAdd (th : Nat) (rd rs1 rs2 : BitVec 5) (s : State) : Res := done (s.int2 th rd rs1 rs2 (fun a b => a + b))
/-- SUB (R111). -/
def execSub (th : Nat) (rd rs1 rs2 : BitVec 5) (s : State) : Res := done (s.int2 th rd rs1 rs2 (fun a b => a - b))
/-- AND (R111). -/
def execAnd (th : Nat) (rd rs1 rs2 : BitVec 5) (s : State) : Res := done (s.int2 th rd rs1 rs2 (fun a b => a &&& b))
/-- OR (R111). -/
def execOr (th : Nat) (rd rs1 rs2 : BitVec 5) (s : State) : Res := done (s.int2 th rd rs1 rs2 (fun a b => a ||| b))
/-- XOR (R111). -/
def execXor (th : Nat) (rd rs1 rs2 : BitVec 5) (s : State) : Res := done (s.int2 th rd rs1 rs2 (fun a b => a ^^^ b))
/-- SLL (R111). -/
def execSll (th : Nat) (rd rs1 rs2 : BitVec 5) (s : State) : Res := done (s.int2 th rd rs1 rs2 (fun a b => a <<< fieldOf b 4 0))
/-- SRL (R111). -/
def execSrl (th : Nat) (rd rs1 rs2 : BitVec 5) (s : State) : Res := done (s.int2 th rd rs1 rs2 (fun a b => a >>> fieldOf b 4 0))
/-- SRA (R111). -/
def execSra (th : Nat) (rd rs1 rs2 : BitVec 5) (s : State) : Res :=
  done (s.int2 th rd rs1 rs2 (fun a b => a.sshiftRight (fieldOf b 4 0)))
/-- SLT (R111). -/
def execSlt (th : Nat) (rd rs1 rs2 : BitVec 5) (s : State) : Res := done (s.int2 th rd rs1 rs2 (fun a b => boolWord (a.slt b)))
/-- SLTU (R111). -/
def execSltu (th : Nat) (rd rs1 rs2 : BitVec 5) (s : State) : Res := done (s.int2 th rd rs1 rs2 (fun a b => boolWord (a.ult b)))
/-- MIN (R111). -/
def execMin (th : Nat) (rd rs1 rs2 : BitVec 5) (s : State) : Res :=
  done (s.int2 th rd rs1 rs2 (fun a b => if a.slt b then a else b))
/-- MAX (R111). -/
def execMax (th : Nat) (rd rs1 rs2 : BitVec 5) (s : State) : Res :=
  done (s.int2 th rd rs1 rs2 (fun a b => if a.slt b then b else a))
/-- MINU (R111). -/
def execMinu (th : Nat) (rd rs1 rs2 : BitVec 5) (s : State) : Res :=
  done (s.int2 th rd rs1 rs2 (fun a b => if a.ult b then a else b))
/-- MAXU (R111). -/
def execMaxu (th : Nat) (rd rs1 rs2 : BitVec 5) (s : State) : Res :=
  done (s.int2 th rd rs1 rs2 (fun a b => if a.ult b then b else a))
/-- MUL (R111). -/
def execMul (th : Nat) (rd rs1 rs2 : BitVec 5) (s : State) : Res := done (s.int2 th rd rs1 rs2 (fun a b => a * b))
/-- MULHU (R111). -/
def execMulhu (th : Nat) (rd rs1 rs2 : BitVec 5) (s : State) : Res := done (s.int2 th rd rs1 rs2 mulhiU)
/-- MULH (R111). -/
def execMulh (th : Nat) (rd rs1 rs2 : BitVec 5) (s : State) : Res := done (s.int2 th rd rs1 rs2 mulhi)
/-- CLZ (R111). -/
def execClz (th : Nat) (rd rs1 : BitVec 5) (s : State) : Res := done (s.int1 th rd rs1 clz32)
/-- POPC (R111). -/
def execPopc (th : Nat) (rd rs1 : BitVec 5) (s : State) : Res := done (s.int1 th rd rs1 popCount)
/-- REV8 (R111). -/
def execRev8 (th : Nat) (rd rs1 : BitVec 5) (s : State) : Res := done (s.int1 th rd rs1 rev8)
/-- SEXTB (R111). -/
def execSextb (th : Nat) (rd rs1 : BitVec 5) (s : State) : Res := done (s.int1 th rd rs1 (fun a => sext (a.setWidth 8)))
/-- SEXTH (R111). -/
def execSexth (th : Nat) (rd rs1 : BitVec 5) (s : State) : Res := done (s.int1 th rd rs1 (fun a => sext (a.setWidth 16)))
/-- ADD1C (R111). -/
def execAdd1c (th : Nat) (rd rs1 rs2 : BitVec 5) (s : State) : Res := done (s.int2 th rd rs1 rs2 add1c)
/-- CRCW (R111). -/
def execCrcw (th : Nat) (rd rs1 rs2 : BitVec 5) (s : State) : Res := done (s.int2 th rd rs1 rs2 crcw)

/-- ADDI (R112). -/
def execAddi (th : Nat) (rd rs1 : BitVec 5) (imm : BitVec 16) (s : State) : Res := done (s.int1 th rd rs1 (fun a => a + sext imm))
/-- ANDI (R112). -/
def execAndi (th : Nat) (rd rs1 : BitVec 5) (imm : BitVec 16) (s : State) : Res := done (s.int1 th rd rs1 (fun a => a &&& zext imm))
/-- ORI (R112). -/
def execOri (th : Nat) (rd rs1 : BitVec 5) (imm : BitVec 16) (s : State) : Res := done (s.int1 th rd rs1 (fun a => a ||| zext imm))
/-- XORI (R112). -/
def execXori (th : Nat) (rd rs1 : BitVec 5) (imm : BitVec 16) (s : State) : Res := done (s.int1 th rd rs1 (fun a => a ^^^ zext imm))
/-- SLTI (R112). -/
def execSlti (th : Nat) (rd rs1 : BitVec 5) (imm : BitVec 16) (s : State) : Res :=
  done (s.int1 th rd rs1 (fun a => boolWord (a.slt (sext imm))))
/-- SLTIU (R112). -/
def execSltiu (th : Nat) (rd rs1 : BitVec 5) (imm : BitVec 16) (s : State) : Res :=
  done (s.int1 th rd rs1 (fun a => boolWord (a.ult (sext imm))))
/-- LUI (R112). -/
def execLui (th : Nat) (rd : BitVec 5) (imm : BitVec 16) (s : State) : Res :=
  done (s.issue th true (fun s => s.result th rd false (zext imm <<< 16)))
/-- SLLI (R112). -/
def execSlli (th : Nat) (rd rs1 sh : BitVec 5) (s : State) : Res := done (s.int1 th rd rs1 (fun a => a <<< sh.toNat))
/-- SRLI (R112). -/
def execSrli (th : Nat) (rd rs1 sh : BitVec 5) (s : State) : Res := done (s.int1 th rd rs1 (fun a => a >>> sh.toNat))
/-- SRAI (R112). -/
def execSrai (th : Nat) (rd rs1 sh : BitVec 5) (s : State) : Res := done (s.int1 th rd rs1 (fun a => a.sshiftRight sh.toNat))
/-- EXT (R112). -/
def execExt (th : Nat) (rd rs1 pos len1 : BitVec 5) (s : State) : Res := done (s.int1 th rd rs1 (fun a => extBits a pos len1))
/-- INS (R112): the destination is a source as well. -/
def execIns (th : Nat) (rd rs1 pos len1 : BitVec 5) (s : State) : Res :=
  done (s.int2 th rd rd rs1 (fun old a => insBits old a pos len1))

end Sys2Proof.Machine
end

