-- ==== Sys2Proof/Machine/Blocks.lean ====
section
/-! DEFINITION. Block and cipher instructions (R119 to R125, R325 to R331). -/
namespace Sys2Proof.Machine

/-- A block instruction issues once no round unit has still to write a register of the mask (R122). -/
def State.blockIssue (s : State) (th : Nat) (legal : Bool) (m : BitVec 8) (f : State → State) : State :=
  s.issue th legal (fun s => if (s.thread th).busy m then s.stall th .round else f s)

/-- A block result from up to two block registers and a general register. -/
def State.blk (s : State) (th : Nat) (m : BitVec 8) (bd : BitVec 3) (f : Thread → Block) : State :=
  s.blockIssue th true (m ||| blkBit bd) (fun s => s.retire th (fun t => t.setBr bd (f t)))

/-- The first bit of lane l, counted from bit 0: lane 0 is the first four bytes (R103). -/
def laneShift (lane : BitVec 2) : Nat := 96 - 32 * lane.toNat

/-- Lane l of a block (R103). -/
def laneGet (b : Block) (lane : BitVec 2) : Word := (b >>> laneShift lane).setWidth 32

/-- A block with lane l replaced (R103). -/
def lanePut (b : Block) (lane : BitVec 2) (w : Word) : Block :=
  (b &&& ~~~((0xFFFFFFFF : Block) <<< laneShift lane)) ||| (w.setWidth 128 <<< laneShift lane)

/-- BREV: the bytes in reverse order. -/
def brev (b : Block) : Block := bytesBlock (blockBytes b).reverse

/-- BINC: the last word plus one modulo 2³². -/
def binc (b : Block) : Block := lanePut b 3 (laneGet b 3 + 1)

/-- BMASK: the first n bytes, zeros after them. -/
def bmask (b : Block) (n : Nat) : Block := bytesBlock (fitBytes 16 ((blockBytes b).take n))

/-- BXOR (R120). -/
def execBxor (th : Nat) (bd ba bb : BitVec 3) (s : State) : Res :=
  done (s.blk th (blkBit ba ||| blkBit bb) bd (fun t => t.br ba ^^^ t.br bb))
/-- BAND (R120). -/
def execBand (th : Nat) (bd ba bb : BitVec 3) (s : State) : Res :=
  done (s.blk th (blkBit ba ||| blkBit bb) bd (fun t => t.br ba &&& t.br bb))
/-- BOR (R120). -/
def execBor (th : Nat) (bd ba bb : BitVec 3) (s : State) : Res :=
  done (s.blk th (blkBit ba ||| blkBit bb) bd (fun t => t.br ba ||| t.br bb))
/-- BMOV (R120). -/
def execBmov (th : Nat) (bd ba : BitVec 3) (s : State) : Res := done (s.blk th (blkBit ba) bd (fun t => t.br ba))
/-- BZERO (R120). -/
def execBzero (th : Nat) (bd : BitVec 3) (s : State) : Res := done (s.blk th 0 bd (fun _ => 0))
/-- BREV (R120). -/
def execBrev (th : Nat) (bd ba : BitVec 3) (s : State) : Res := done (s.blk th (blkBit ba) bd (fun t => brev (t.br ba)))
/-- BINC (R120). -/
def execBinc (th : Nat) (bd ba : BitVec 3) (s : State) : Res := done (s.blk th (blkBit ba) bd (fun t => binc (t.br ba)))
/-- BMASK (R120). -/
def execBmask (th : Nat) (bd ba : BitVec 3) (rs1 : BitVec 5) (s : State) : Res :=
  done (s.blk th (blkBit ba) bd (fun t => bmask (t.br ba) (min (t.gr rs1).toNat 16)))
/-- BPUT (R120). -/
def execBput (th : Nat) (bd ba : BitVec 3) (lane : BitVec 2) (rs1 : BitVec 5) (s : State) : Res :=
  done (s.blk th (blkBit ba) bd (fun t => lanePut (t.br ba) lane (t.gr rs1)))
/-- BGET (R120, R338): the result is tainted while the gate is open. -/
def execBget (th : Nat) (rd : BitVec 5) (ba : BitVec 3) (lane : BitVec 2) (s : State) : Res :=
  done (s.blockIssue th true (blkBit ba) (fun s => s.result th rd true (laneGet ((s.thread th).br ba) lane)))
/-- XTSA (R119, R120). -/
def execXtsa (th : Nat) (bd ba : BitVec 3) (s : State) : Res := done (s.blk th (blkBit ba) bd (fun t => xtsa (t.br ba)))
/-- GMUL (R119, R120). -/
def execGmul (th : Nat) (bd ba bb : BitVec 3) (s : State) : Res :=
  done (s.blk th (blkBit ba ||| blkBit bb) bd (fun t => gmul (t.br ba) (t.br bb)))

/-! ## TAGCMP (R125) -/

/-- The outcome of TAGCMP for the gate: a match releases an open gate, anything else fails it (R125, R342, R343). -/
def State.gateOutcome (s : State) (th : Nat) (eq : Bool) : State :=
  let t := s.thread th
  if t.gated = false then s
  else if eq && !t.failed then s.gateRelease th
  else s.gateFail th

/-- TAGCMP (R125, R338): the result is never tainted; posted PSTBs are covered by the outcome. -/
def execTagcmp (th : Nat) (rd : BitVec 5) (ba bb : BitVec 3) (rs1 : BitVec 5) (s : State) : Res :=
  done (s.blockIssue th true (blkBit ba ||| blkBit bb) (fun s =>
    let t := s.thread th
    let n := (t.gr rs1).toNat
    if n < 4 ∨ 16 < n then s.fault th fcOperand
    else
      let eq := (blockBytes (t.br ba)).take n == (blockBytes (t.br bb)).take n
      (s.result th rd false (if eq then 0 else 1)).gateOutcome th eq))

/-! ## AESE and AESD (R121, R122, R325 to R331) -/

/-- The key bytes of an entry for its length (R328). -/
def KeyEntry.bytes (e : KeyEntry) : List Byte := if e.long then e.key else e.key.take 16

/-- The round unit that takes the next block of an engine: unit 0 if it is free, else unit 1 (R325). -/
def State.freeRound (s : State) (eng : Nat) : Option Nat :=
  if (s.roundWork (roundKey eng false)).isNone then some (roundKey eng false)
  else if (s.roundWork (roundKey eng true)).isNone then some (roundKey eng true)
  else none

/-- A block goes to a round unit with its key (R121 to R123): the gate opens for a gate key. -/
def State.roundStart (s : State) (th : Nat) (u : Nat) (bd ba : BitVec 3) (dec : Bool) (idx : Nat) (e : KeyEntry) : State :=
  let t := s.thread th
  let inp := blockBytes (t.br ba)
  let res := bytesBlock (if dec then aesDec e.bytes inp else aesEnc e.bytes inp)
  let s := (s.keyTouch (thBoard th) idx).setRound u (some { th := some th, bd := bd, res := res })
  s.retire th (fun t => { t.openGate e.gate with bBusy := t.bBusy ||| blkBit bd })

/-- AESE or AESD: operands and a round unit first, then the key handle (R121, R122). -/
def State.cipher (s : State) (th : Nat) (bd ba : BitVec 3) (rs1 : BitVec 5) (dec : Bool) : State :=
  s.blockIssue th (!isMgmt th) (blkBit ba ||| blkBit bd) (fun s =>
    let t := s.thread th
    let h := t.gr rs1
    match s.freeRound (thEngine th) with
    | none => s.stall th .round
    | some u =>
      match s.keyUse (thBoard th) h t.inst dec with
      | .fault => s.fault th fcKey
      | .miss idx => (s.keyFetch (thBoard th) idx).stall th (.key (BitVec.ofNat 20 idx))
      | .hit e => s.roundStart th u bd ba dec (fieldOf h 19 0) e)

/-- AESE (R121). -/
def execAese (th : Nat) (bd ba : BitVec 3) (rs1 : BitVec 5) (s : State) : Res := done (s.cipher th bd ba rs1 false)
/-- AESD (R121). -/
def execAesd (th : Nat) (bd ba : BitVec 3) (rs1 : BitVec 5) (s : State) : Res := done (s.cipher th bd ba rs1 true)

end Sys2Proof.Machine
end

