-- ==== Sys2Proof/Machine/Boot.lean ====
section
/-! DEFINITION. Module resets, start-up, fences and the unit description table (R5, R14, R19, R22, R52, R56, R80, R400 to R402, R509,
R510, R552 to R563). -/
namespace Sys2Proof.Machine

/-! ## Chiplet fences (R14, R174, R262, R558) -/

/-- HDW_BOOT_STAT.STAGE. -/
def State.stageIs (s : State) (n : Nat) : Bool := s.fld F.HDW_BOOT_STAT.STAGE 0 == n

/-- A chiplet is fenced: FENCED, its cause, and event 0x0302 with `by_` 1 for a test and 2 for the manager (R533, R562). -/
def State.fenceMark (s : State) (chip cause by_ : Nat) : State :=
  let s := s.setFld F.HDW_BOOT_STAT.FENCED 0 (s.fld F.HDW_BOOT_STAT.FENCED 0 ||| 2 ^ chip)
  let why := s.rd64 .HDW_BOOT_WHY .HDW_BOOT_WHY_HI 0
  let s := s.wr64 .HDW_BOOT_WHY .HDW_BOOT_WHY_HI 0 (why ||| cause <<< (4 * chip))
  s.event 0 0x01A 0x0302 sevFatal (chip + by_ * 256)

/-- What a fenced Board had at work ends: it sends nothing more (R262). -/
def State.fenceBoardWork (s : State) (b : Nat) : State :=
  { s with
    eng := { s.eng with
      thr := s.eng.thr.filter (fun e => isMgmt e.1 || thBoard e.1 != b)
      round := s.eng.round.filter (fun e => e.1 / 1024 != b)
      faults := s.eng.faults.filter (fun e => e.1 / 8 != b)
      cmdPend := s.eng.cmdPend.filter (fun e => e.1 / 8 != b) }
    dma := s.dma.filter (fun e => e.1 / 128 != b)
    keys := { s.keys with fetch := s.keys.fetch.filter (fun e => e.1 != b) }
    look := { s.look with cmd := s.look.cmd.filter (fun e => e.1 / 2 != b), dredge := s.look.dredge.filter (fun e => e.1 != b) } }

/-- No Bank holds credits for a fenced Board, and vectors on their way there are gone (R30). -/
def State.fenceIntake (s : State) (b : Nat) : State :=
  let none_ := fun (t : Tbl Nat) => t.filter (fun e => e.1 % 8 != b)
  (s.putIntake { s.intake with
      flight := none_ s.intake.flight, held := none_ s.intake.held, returning := none_ s.intake.returning
      mesh := s.intake.mesh.filter (fun e => e.1 != b), board := s.intake.board.filter (fun e => e.1 != b) })

/-- A home's queue without a Board that answers no longer (R14, R22): its requests are gone and no answer of it is awaited.  `lost`:
a transaction that waits for the line itself from it ends with a bus error. -/
def homeWithout (b : Nat) (lost : Bool) (h : HomeLine) : HomeLine :=
  { wait := h.wait.filter (fun w => w.1.toNat != b)
    txn := h.txn.bind (fun t =>
      if t.board.toNat = b ∨ (lost && t.fetch && t.await.getLsbD b) = true then none
      else some { t with send := t.send &&& ~~~((1 : BitVec 8) <<< b), await := t.await &&& ~~~((1 : BitVec 8) <<< b) }) }

/-- No home waits for a Board that answers no longer. -/
def State.dropHomes (s : State) (b : Nat) (lost : Bool) : State :=
  (s.hbm.home.map (fun e => e.1)).foldl (fun s line => s.setHomeLine line (homeWithout b lost (s.homeLine line))) s

/-- The manager fences a Board: its handles' cells are reclaimed, its lines in M are poisoned (R174, R262). -/
def State.fenceBoard (s : State) (b : Nat) : State :=
  let s := (s.fenceReclaim b).fenceLines b
  let s := (((s.dropHomes b false).fenceBoardWork b).pipeFence b).fenceIntake b
  let s := (List.range 16).foldl State.purgeEnd s
  let s := if s.mcUnit = 3 then s.mcNext b else s
  s.flowSettle.settle

/-- A fenced Bank: its endpoints reset, its links go down, and HBM is unmapped (R19, R561). -/
def State.fenceBank (s : State) (k : Nat) : State :=
  let s := (List.range 8).foldl (fun s j => s.endpointReset (8 * k + j)) s
  let s := ((List.range 64).map (fun p => 64 * k + p) ++ (List.range 8).map (fun j => 256 + 8 * k + j)).foldl State.linkDown s
  (s.setFld F.HDW_BOOT_STAT.HBM 0 0).flowSettle.settle

/-- The chiplet identifiers that a fence may name (R4, R14). -/
def fenceable (chip : Nat) : Bool := decide (1 ≤ chip ∧ chip ≤ 5) || decide (8 ≤ chip ∧ chip ≤ 15)

/-- What a fence takes from the rest of the module.  Without Confluence only Headwater answers. -/
def State.fenceEffect (s : State) (chip : Nat) : State :=
  if 8 ≤ chip then s.fenceBoard (chip - 8)
  else if 2 ≤ chip then s.fenceBank (chip - 2)
  else s.putPlat { s.plat with linkFailed := s.plat.linkFailed ||| 0xFFFE }

/-- The waiting threads of a key fetch that a failed link ends (R22, R333). -/
def State.fetchFails (s : State) (c : Nat) : State :=
  (s.keys.fetch.filter (fun e => boardChip e.1 == c || bankChip (homeBank (lineOf (keyOff e.2))) == c)).foldl (fun s e =>
    let s := s.putKeys { s.keys with fetch := s.keys.fetch.erase e }
    s.keyBad e.1 e.2 ((s.waiting (fun x => x == .key (BitVec.ofNat 20 e.2))).filter (fun th => thBoard th == e.1 && !isMgmt th))) s

/-- A path between two chiplets uses the mesh link of chiplet c. -/
def crossesLink (c x y : Nat) : Bool := x != y && (x == c || y == c)

/-- The chiplet that a posted store goes to (R18, R25). -/
def Posted.chip (p : Posted) : Nat :=
  if p.device then (addrChip p.addr).getD 0 else bankChip (homeBank (lineOf (p.addr - hbmBase)))

/-- A thread has a transaction outstanding on the link of chiplet c (R22): a stalled access, lookup or HNEW, a posted store, a PSTB
or a payload stream. -/
def State.outstandingOn (s : State) (c th : Nat) : Bool :=
  let t := s.thread th
  let x := crossesLink c (thChip th)
  (match t.run, t.look with
    | .stalled (.hnew _ _ _), _ => x 1
    | .stalled (.pipe p _), _ => x (boardChip p)
    | .stalled _, some a => x a.chip
    | _, _ => false)
  || t.posted.any (fun p => x p.chip) || (!t.wfifo.isEmpty && x 1)
  || (match t.stream with | some y => decide (0 < y.left) && x 1 | none => false)

/-- The transactions of a thread on a failed link end with a bus error (R22, R101): a bus fault, if the thread still runs. -/
def State.linkFault (c : Nat) (s : State) (th : Nat) : State :=
  let t := s.thread th
  let x := crossesLink c (thChip th)
  let s := s.setThread th { t with
    posted := t.posted.filter (fun p => !x p.chip)
    wfifo := if x 1 then [] else t.wfifo
    stream := if x 1 then none else t.stream }
  if t.isStarted then s.threadFault th fcBus 0 else s

/-- Every thread's transactions on the failed link end (R22). -/
def State.threadsFail (s : State) (c : Nat) : State :=
  ((s.eng.thr.map (fun e => e.1)).filter (s.outstandingOn c)).foldl (State.linkFault c) s

/-- The homes' transactions on the failed link end (R22): those of a Board behind it, and those of the lines of a Bank behind it. -/
def State.homesFail (s : State) (c : Nat) : State :=
  if 8 ≤ c then s.dropHomes (c - 8) true
  else if 2 ≤ c then
    ((s.hbm.home.map (fun e => e.1)).filter (fun l => bankChip (homeBank l) == c)).foldl
      (fun s l => s.setHomeLine l { txn := none, wait := [] }) s
  else s

/-- MESH_LINK_FAIL (R22): outstanding transactions end with bus errors, and the far chiplet is unreachable. -/
def execMeshLinkFail (chiplet : BitVec 4) (s : State) : Res :=
  let c := chiplet.toNat
  done (if s.trust.power = .on ∧ s.plat.linkFailed.getLsbD c = false ∧ c ≠ 1 ∧ c ≠ 6 ∧ c ≠ 7 then
    ((((s.meshFail c).fetchFails c).threadsFail c).homesFail c).settle else s)

/-! ## Start-up, step 3: the flash slot (R554, R555) -/

/-- The first byte of a flash slot. -/
def flashSlot (b : Nat) : Nat := b * 0x2000000

/-- A length rounded up to whole 4 KiB. -/
def up4k (n : Nat) : Nat := (n + 4095) / 4096 * 4096

/-- A big-endian header field of a slot. -/
def State.slotField (s : State) (b off n : Nat) : Nat := beNat (s.flashBytes (flashSlot b + off) n)

/-- The base image of a slot; an image under R192 has at most 43,168 bytes, so that a longer one is invalid cut or whole. -/
def State.slotBaseImage (s : State) (b : Nat) : List Byte :=
  s.flashBytes (flashSlot b + 0x1000 + up4k (s.slotField b 8 4)) (min 65536 (s.slotField b 12 4))

/-- The patch image of a slot; empty for none. -/
def State.slotPatch (s : State) (b : Nat) : List Byte :=
  s.flashBytes (flashSlot b + 0x1000 + up4k (s.slotField b 8 4) + up4k (s.slotField b 12 4)) (min 65536 (s.slotField b 16 4))

/-- The header of a slot satisfies R555. -/
def State.slotHeader (s : State) (b : Nat) : Bool :=
  s.slotField b 0 4 == 0x46575331 && decide (4096 ≤ s.slotField b 8 4 ∧ s.slotField b 8 4 ≤ 0x800000)
    && s.slotField b 0x14 44 == 0

/-- A slot is valid: its header, its signature and its base image (R554). -/
def State.slotValid (s : State) (b : Nat) : Bool :=
  s.slotHeader b
    && ecdsaVerify (Config.wenfaliKey 1) (sha384 (s.flashBytes (flashSlot b) 0x40 ++ s.flashBytes (flashSlot b + 0x1000) (s.slotField b 8 4)
        ++ s.slotBaseImage b)) (s.flashBytes (flashSlot b + 0x40) 96)
    && imgVerdict blankCode (s.slotBaseImage b) == mcOk && rdAt (s.slotBaseImage b) 4 1 == 1

/-- The slot with the higher SEQ by serial-number arithmetic (R510, R554). -/
def State.slotNewer (s : State) : Nat :=
  let d := (s.slotField 1 4 4 + 2 ^ 32 - s.slotField 0 4 4) % 2 ^ 32
  if 1 ≤ d ∧ d ≤ 2 ^ 31 - 1 then 1 else 0

/-- The slot that Headwater uses, and FALLBACK. -/
def State.slotChoice (s : State) : Option (Nat × Bool) :=
  let n := s.slotNewer
  if s.slotValid n then some (n, false) else if s.slotValid (1 - n) then some (1 - n, true) else none

/-! ## Start-up, step 5: tests (R35, R243, R558 to R560) -/

/-- The cause of a chiplet's fence at start-up; 0 for none (R558, R562). -/
def fenceCause (t : BootTests) (chip : Nat) : Nat :=
  if t.link.getLsbD chip then 1 else if t.selfTest.getLsbD chip then 2 else if t.regulator.getLsbD chip then 3
  else if 8 ≤ chip ∧ (t.clusters.toNat >>> (8 * (chip - 8))) % 256 = 0 then 4 else 0

/-- Every chiplet that fails is fenced, in order. -/
def State.bootFences (t : BootTests) (s : State) : State :=
  ((List.range 16).filter (fun c => fenceable c && fenceCause t c != 0)).foldl (fun s c => s.fenceMark c (fenceCause t c) 1) s

/-- CLU_OK of each Board; endpoints, ports and links that stay disabled. -/
def State.bootUnits (t : BootTests) (s : State) : State :=
  let s := (List.range 8).foldl (fun s b => s.setFld F.BRD_STATUS.CLU_OK b (t.clusters.toNat >>> (8 * b))) s
  s.putPlat { s.plat with epBad := t.endpoints, portBad := t.ports, linkBad := t.links }

/-- A healthy Board in place of a fenced one (R35, R243). -/
def State.healthyBoard (s : State) (x : Nat) : Nat := s.liveBoards.getD (Config.healthyPick x % s.liveBoards.length) 0

/-- Firmware rewrites the steering entries and flow shares that name a fenced Board (R35, R243). -/
def State.remapBoards (s : State) : State :=
  let bad := (List.range 8).filter (fun b => s.isFenced (boardChip b))
  if bad.isEmpty || s.liveBoards.isEmpty then s
  else
    let entries := (List.range 4).flatMap (fun k => ((List.range 4096).filter (fun i => bad.contains (i % 8))).map (fun i => (k, i)))
    let s := entries.foldl (fun s e => (s.steerWrite e.1 e.2 (s.healthyBoard e.2)).steerMove e.1 e.2) s
    let home := (List.range 8).foldl (fun v k => v + (if bad.contains k then s.healthyBoard k else k) * 8 ^ k) 0
    (List.range 8).foldl (fun s b => s.wr .BRD_FLOW_HOME b (BitVec.ofNat 32 home)) s

/-- The minimum service set (R559). -/
def State.minService (s : State) : Bool :=
  !s.isFenced 1 && !s.liveBoards.isEmpty
    && (List.range 4).any (fun k => !s.isFenced (bankChip k)
        && (List.range 64).any (fun p => !s.plat.portBad.getLsbD (64 * k + p))
        && (List.range 8).any (fun j => !s.plat.epBad.getLsbD (8 * k + j)))

/-- NOSERVICE: every chiplet but Headwater stays fenced (R560). -/
def State.noService (s : State) : State :=
  (s.setFld F.HDW_BOOT_STAT.FENCED 0 0xFF3E).setFld F.HDW_BOOT_STAT.STAGE 0 6

/-! ## Start-up, step 6: the vault and the persistent configuration (R5, R386, R401, R509) -/

/-- The valid place record of the vault, as start-up's selection gives it (R5, R509, R510): its 8 bytes. -/
def State.placeBytes (s : State) : Option (List Byte) :=
  let l0 := s.copyBytes 0 0
  let l1 := s.copyBytes 0 1
  match selectCopy 0 l0 l1 with
  | some c =>
    let l := copyPayload 0 (if c = 0 then l0 else l1)
    if l.length = 8 then some l else none
  | none => none

/-- The place of a reset period (R5, R509): that of a valid place record, else the strapped one.  It stands from the period's first
entry on, so that all entries of the period carry one place. -/
def State.placeRecord (s : State) : State :=
  s.putPlat { s.plat with place := match s.placeBytes with
    | some l => BitVec.ofNat 20 (beNat l / 65536)
    | none => s.plat.straps }

/-- The pairs of a payload: a device address and a value, 8 bytes each. -/
def pairsOf (l : List Byte) : List (Nat × Nat) := (List.range (l.length / 8)).map (fun i => (rdAt l (8 * i) 4, rdAt l (8 * i + 4) 4))

/-- The configuration pairs, in RID order and list order (R509). -/
def State.configPairs (s : State) : List (Nat × Nat) :=
  ((List.range 15).map (· + 1)).flatMap (fun r => pairsOf ((s.record r).getD []))

/-- The calendar register that an address names: TTB_CTL, or a slot's word (R80). -/
def ttbReg (a : Nat) : Option Reg :=
  match decodeAddr a with
  | some (.TTB_CTL, _) => some .TTB_CTL
  | some (.TTB_SLOT_W0, _) => some .TTB_SLOT_W0
  | some (.TTB_SLOT_W1, _) => some .TTB_SLOT_W1
  | _ => none

/-- The manager, through a PF1 of an unfenced Bank. -/
def State.managerPf1 (s : State) : Requester :=
  .pf1 (BitVec.ofNat 5 (8 * (((List.range 4).find? (fun k => s.reachable (bankChip k))).getD 0)))

/-- A pair's write would be refused: by a bus error, or because only firmware may make it (R78, R509). -/
def State.pairRefused (s : State) (a v : Nat) : Bool :=
  s.busRefuses s.managerPf1 a true
    || (match decodeAddr a with
      | some (.TTB_SLOT_W0, i) => firmwareClass (bits v 7 4) || firmwareClass (s.fld F.TTB_SLOT_W0.CLASS i)
      | _ => false)

/-- A configuration pair is applied, or skipped and logged (R509). -/
def State.applyPair (s : State) (p : Nat × Nat) : State :=
  if s.pairRefused p.1 p.2 then s.event 0 blkVault 0x0902 sevNote (p.1 * 2 ^ 32 + p.2)
  else (s.busWrite s.managerPf1 p.1 (BitVec.ofNat 32 p.2)).2

/-- The endpoint settings take effect (R386). -/
def State.endpointConfig (s : State) (e : Nat) : State :=
  ((s.setFld F.PCI_EP_CFG.SPLIT_EFF e (s.fld F.PCI_EP_CFG.SPLIT e)).setFld F.PCI_EP_CFG.PF1_EFF e
    (s.fld F.PCI_EP_CFG.PF1_EN e)).setFld F.PCI_EP_CFG.SRIS_EFF e (s.fld F.PCI_EP_CFG.SRIS e)

/-! ## The unit description table (R400 to R402) -/

/-- The address of a unit's first register. -/
def baseOf (r : Reg) (i : Nat) : Nat := (regAddr r i).getD 0

/-- The units of a chiplet but its trouble groups and counters: kind, index, base (R402). -/
def udtUnits (chip : Nat) : List (Nat × Nat × Nat) :=
  let many := fun (kind n : Nat) (f : Nat → Nat) => (List.range n).map (fun j => (kind, j, f j))
  if chip = 0 then
    [(1, 0, baseOf .TIME_NOW_NS 0), (2, 0, baseOf .TTB_CTL 0), (3, 0, baseOf .HDW_MC_CMD 0), (4, 0, baseOf .KEY_TBL_IN 0),
     (5, 0, baseOf .HDW_DIE_STATUS 0), (6, 0, baseOf .LOG_CTL 0), (7, 0, baseOf .POL_CTL powerPol), (8, 0, baseOf .HDW_DISC_CMD 0),
     (9, 0, baseOf .HDW_LC_STAT 0), (10, 0, baseOf .HDW_BOOT_STAT 0)]
  else if chip = 1 then
    [(0x20, 0, baseOf .CFL_BOOK_FREE 0), (0x21, 0, baseOf .SCH_N_CFG 0), (0x22, 0, baseOf .GATE_CTL 0), (0x23, 0, baseOf .DLT_CMD 0),
     (0x24, 0, baseOf .EDY_SES_CTL 0), (0x25, 0, baseOf .GAU_CTL 0), (0x26, 0, baseOf .CFL_SQ_CTL 0)]
  else if chip < 8 then
    let k := chip - 2
    [(0x30, 0, baseOf .BNK_STEER_TBL (4096 * k)), (0x31, 0, baseOf .BNK_SND_CTL k), (0x32, 0, baseOf .BNK_STO_CTL k),
     (0x33, 0, baseOf .HBM_HOME_STATUS k)]
      ++ many 0x34 64 (fun p => baseOf .MAC_PORT_CFG (64 * k + p)) ++ many 0x35 8 (fun j => baseOf .ATL_CFG (8 * k + j))
      ++ many 0x36 8 (fun j => baseOf .PCI_EP_CFG (8 * k + j)) ++ many 0x37 8 (fun j => baseOf .RNG_FN_CTL ((8 * k + j) * 1025))
      ++ [(0x38, 0, Config.udtHbmBase k)]
  else
    let b := chip - 8
    [(0x10, 0, baseOf .BRD_STATUS b)] ++ many 0x11 8 (fun c => baseOf .CLU_CTL (8 * b + c))
      ++ many 0x12 8 (fun c => baseOf .MCODE_VERSION (8 * b + c)) ++ many 0x13 8 (fun c => baseOf .DMA_ACT ((8 * b + c) * 128))
      ++ [(0x14, 0, baseOf .BRD_DICE_TDEF_W0 (4096 * b)), (0x15, 0, baseOf .BRD_KEY_MISS b), (0x16, 0, baseOf .BRD_INS_W0 (32800 * b))]

/-- FENCED of a unit: its chiplet is fenced, or the unit itself failed (R401, R558). -/
def State.udtFenced (s : State) (chip kind index : Nat) : Bool :=
  let k := chip - 2
  s.isFenced chip
    || (kind == 0x34 && s.plat.portBad.getLsbD (64 * k + index)) || (kind == 0x35 && s.plat.linkBad.getLsbD (8 * k + index))
    || ((kind == 0x36 || kind == 0x37) && s.plat.epBad.getLsbD (8 * k + index))

/-- The unit description table, by CHIPLET, KIND and INDEX (R401). -/
def State.udtBuild (s : State) : List UdtEntry :=
  ([0, 1, 2, 3, 4, 5] ++ (List.range 8).map (· + 8)).flatMap (fun chip =>
    let row := fun (u : Nat × Nat × Nat) =>
      { kind := u.1, chip := chip, index := u.2.1, fenced := s.udtFenced chip u.1 u.2.1, base := u.2.2 : UdtEntry }
    ((udtUnits chip).map row)
      ++ ((List.range 256).filter (unitExists chip)).map (fun x => row (0x40, x, baseOf .TRB_STAT (grpOf chip x)))
      ++ [row (0x41, 0, baseOf .CNT_CTL (chip * 128))])

/-! ## Start-up as far as step 6 (R553) -/

/-- The lifecycle that the fuses say (R502). -/
def fuseLifecycle (f : BitVec 3) : Nat := if f = 0 then 0 else if f = 1 then 1 else if f = 3 then 2 else 3

/-- Step 2: the lifecycle, the Die's tests and KTK (R328, R336, R502). -/
def State.bootRom (t : BootTests) (s : State) : State :=
  let s := (s.setFld F.HDW_LC_STAT.LC 0 (fuseLifecycle s.trust.fuses)).setFld F.HDW_LC_STAT.LC_PEND 0 0
  let s := if t.die = 0 then (s.seed.setFld F.HDW_DIE_STATUS.STATE 0 1).drawKtk else s.dieFail (t.die.getLsbD 0) (t.die.getLsbD 1)
  s.setFld F.HDW_BOOT_STAT.STAGE 0 1

/-- The first threads of the management engines. -/
def firmwareThreads : List Nat := [32768, 32776, 32784, 32792]

/-- Step 3 for a slot: firmware is loaded, and thread 0 of each management engine runs from pc 0 (R553). -/
-- DEDUCED: R553 loads firmware into the engines and names no thread or pc; log entry 14.
def State.bootFirmware (s : State) : State :=
  firmwareThreads.foldl (fun s th => s.makeReady th) s

/-- Steps 3 and 4 for a slot: firmware, then its microcode, SLOT, FALLBACK and PATCH. -/
def State.bootImage (s : State) (b : Nat) (fallback : Bool) : State :=
  let patch := s.slotPatch b
  let base := s.slotBaseImage b
  let s := (s.bootFirmware.mcBoot base patch).2
  let loaded := !patch.isEmpty && imgVerdict (imgApply base blankCode) patch == mcOk
  let s := s.putTrust { s.trust with slot := true }
  ((s.setFld F.HDW_BOOT_STAT.SLOT 0 b).setFld F.HDW_BOOT_STAT.FALLBACK 0 (b2n fallback)).setFld F.HDW_BOOT_STAT.PATCH 0 (b2n loaded)

/-- Step 5. -/
def State.bootTest (t : BootTests) (s : State) : State :=
  (((s.setFld F.HDW_BOOT_STAT.STAGE 0 2).bootFences t).bootUnits t).remapBoards

/-- Step 6; STAGE is HBM at its end. -/
def State.bootConfig (s : State) : State :=
  let s := (s.setFld F.HDW_BOOT_STAT.STAGE 0 3).vaultSelect
  let s := s.putTime { s.time with ptpDomain := Config.ptpDomain s.configPairs }
  let s := s.putPlat { s.plat with subsystem := Config.subsystemId s.configPairs }
  let s := (s.configPairs.filter (fun p => (ttbReg p.1).isNone)).foldl State.applyPair s
  let s := (List.range 32).foldl State.endpointConfig s
  (s.putPlat { s.plat with udt := s.udtBuild }).setFld F.HDW_BOOT_STAT.STAGE 0 4

/-- Start-up from step 2 to step 6 (R553, R554, R560). -/
def State.boot (s : State) (t : BootTests) : State :=
  if t.selfTest.getLsbD 0 then s.putPlat { s.plat with linkFailed := 0xFFFF }
  else
    let s := s.bootRom t
    match s.slotChoice with
    | none => s.noService
    | some (b, fallback) =>
      let s := (s.bootImage b fallback).bootTest t
      if s.minService then s.bootConfig else s.noService

/-! ## Module resets (R13, R14, R56) -/

/-- The state at module cold reset: the persistent memories keep their contents, and so does what waits outside. -/
def State.coldState (s : State) (place : BitVec 20) (fuses : BitVec 3) : State :=
  let r := State.reset
  { r with
    pending := s.pending, out := s.out, free := s.free
    plat := { r.plat with place := place, straps := place }
    trust := { r.trust with mram := s.trust.mram, flash := s.trust.flash, fuses := s.trust.fuses ||| fuses } }

/-- Module cold reset and start-up; free-run begins (R14, R66). -/
def State.coldReset (s : State) (place : BitVec 20) (fuses : BitVec 3) (t : BootTests) : State :=
  ((s.coldState place fuses).placeRecord.event 0 blkTime 0x0401 sevNote 0).boot t

/-- MODULE_COLD_RESET (R14). -/
def execModuleColdReset (place : BitVec 20) (fuses : BitVec 3) (tests : BootTests) (s : State) : Res :=
  done (s.coldReset place fuses tests)

/-- HOLD_WAKE (R526): leaving Hold is a module cold reset. -/
def execHoldWake (place : BitVec 20) (fuses : BitVec 3) (tests : BootTests) (s : State) : Res :=
  done (if s.trust.power = .hold then s.coldReset place fuses tests else s)

/-- The registers that a module warm reset keeps whole (R13, R56, R94, R414, R542). -/
def keptReg : Reg → Bool
  | .TIME_CTL | .TIME_STEP_THR | .TIME_FREQ_ADJ | .TIME_HOLD_SEC | .TTB_CTL | .TTB_CYCLE | .TTB_SLOT_W0
  | .TTB_SLOT_W1 | .PCI_FRY_NOTE | .PCI_EP_CFG | .HDW_PWR_PFAIL | .LOG_ENT | .LOG_WIDX | .LOG_SEQ | .LOG_LAP => true
  | _ => false

/-- The fields that a module warm reset keeps of other registers: INTRUDED, the log's FREEZE and the clock state, which is
TIME_STATUS without STEPPED and SET_REJ (R56, R91, R520, R542). -/
def State.keepFields (s old : State) : State :=
  (((s.setFld F.HDW_LC_STAT.INTRUDED 0 (old.fld F.HDW_LC_STAT.INTRUDED 0)).setFld F.LOG_CTL.FREEZE 0 (old.fld F.LOG_CTL.FREEZE 0)).wr
    .TIME_STATUS 0 (withField (withField (old.rd .TIME_STATUS 0) 6 6 0) 7 7 0))

/-- The state at module warm reset; a copy write at work leaves a copy that is not valid (R14, R56, R511). -/
def State.warmState (s : State) : State :=
  let r := State.reset
  let m := match s.trust.copy with
    | some w => (s.mramWrite (copyOff w.rid w.copy) (tornCopy s.free w.rid)).trust.mram
    | none => s.trust.mram
  let t := { r with
    regs := s.regs.filter (fun e => keptReg (regOfKey e.1))
    pending := s.pending, out := s.out, free := s.free + b2n s.trust.copy.isSome
    plat := { r.plat with place := s.plat.place, straps := s.plat.straps, coldBoot := s.plat.coldBoot }
    time := s.time, tide := { r.tide with cLast := s.tide.cLast }
    trust := { r.trust with mram := m, flash := s.trust.flash, fuses := s.trust.fuses } }
  t.keepFields s

/-- Module warm reset and start-up (R14, R557); the reset pin does nothing of the kind in Hold or Off (R526). -/
def State.warmReset (s : State) (t : BootTests) : State := if s.trust.power = .on then s.warmState.placeRecord.boot t else s

/-- MODULE_WARM_RESET (R14). -/
def execModuleWarmReset (tests : BootTests) (s : State) : Res := done (s.warmReset tests)

/-! ## Start-up, steps 7 to 9 (R19, R80, R553) -/

/-- HBM_TRAINING_DONE (R19, R553, R558): four trained stacks and unfenced Banks map HBM, initialised, with valid ECC in every line; else it is absent. -/
def execHbmTrainingDone (trained : BitVec 4) (s : State) : Res :=
  if s.stageIs 4 = false ∨ s.trust.power ≠ .on then done s
  else
    let s := s.setFld F.HDW_BOOT_STAT.TRAINED 0 trained.toNat
    if trained = 0xF ∧ (List.range 4).all (fun k => s.reachable (bankChip k)) = true then
      done (((s.putHbm State.reset.hbm).eccClear hbmGroups).setFld F.HDW_BOOT_STAT.HBM 0 1).flowSettle
    else done (s.setFld F.HDW_BOOT_STAT.HBM 0 0).flowSettle

/-- A calendar entry: slot, CLASS, DIV, PHASE, TARGET, FORD and its LEN (R80, R94). -/
structure CalEntry where
  slot   : Nat
  cls    : Nat
  div    : Nat
  phase  : Nat
  target : Nat
  ford   : Bool
  len    : Nat
deriving DecidableEq, Repr

/-- The default calendar (R80). -/
def defaultCalendar : List CalEntry :=
  [⟨0x000, 5, 0, 0, 0xFF3F, false, 0⟩, ⟨0x100, 7, 0, 0, 0x003C, false, 0⟩, ⟨0x120, 1, 6, 5, 0xFF00, true, 3⟩,
   ⟨0x200, 3, 4, 0, 0xFF3E, false, 0⟩, ⟨0x300, 2, 8, 0, 0x003C, false, 0⟩, ⟨0x800, 4, 10, 0, 0xFF00, false, 0⟩,
   ⟨0xC00, 6, 15, 0, 0x0001, false, 0⟩]

/-- Firmware commits a calendar entry. -/
def State.calInstall (s : State) (e : CalEntry) : State :=
  let w1 := BitVec.ofNat 32 (e.target + e.len * 2 ^ 16)
  let w0 := BitVec.ofNat 32 (1 + b2n e.ford * 4 + e.cls * 16 + e.div * 256 + e.phase * 2 ^ 16)
  (s.slotW1Write e.slot w1).slotW0Write .firmware e.slot w0

/-- Some slot holds a valid entry of a class. -/
def State.calHas (s : State) (cls : Nat) : Bool :=
  s.usedSlots.any (fun i => s.flag F.TTB_SLOT_W0.VALID i && s.fld F.TTB_SLOT_W0.CLASS i == cls)

/-- The firmware entries that are missing are committed (R80).  DESIGN CHOICE: in slots 0x800 and 0xC00 also beside a configured
calendar, over an entry it has there and beyond its length (log entry 73). -/
def State.calFirmware (s : State) : State :=
  (defaultCalendar.filter (fun e => firmwareClass e.cls && !s.calHas e.cls)).foldl State.calInstall s

/-- The calendar of the persistent configuration, TTB_CTL first, or the default one (R80, R509).  DESIGN CHOICE: a configuration
without a pair for a slot holds no calendar, so that the default one and its LOG2_LEN of 12 stand (log entry 73). -/
def State.calendar (s : State) : State :=
  let l := s.configPairs
  let s := (l.filter (fun p => ttbReg p.1 == some .TTB_CTL)).foldl State.applyPair s
  let slots := l.filter (fun p => ttbReg p.1 == some .TTB_SLOT_W0 || ttbReg p.1 == some .TTB_SLOT_W1)
  if slots.isEmpty then defaultCalendar.foldl State.calInstall (s.ttbCtlWrite (BitVec.ofNat 32 (12 * 16)))
  else slots.foldl State.applyPair s

/-- SERVICE_ENTRY (R80, R496, R553): the calendar, the discovery walk, and STAGE SERVICE after `ms` milliseconds. -/
def execServiceEntry (ms : BitVec 32) (s : State) : Res :=
  if s.stageIs 4 = false ∨ s.trust.power ≠ .on then done s
  else
    let s := (if s.plat.coldBoot then s.calendar else s).calFirmware
    let s := (s.startWalk false).setFld F.HDW_BOOT_STAT.STAGE 0 5
    done ((s.wr .HDW_BOOT_MS 0 ms).putPlat { s.plat with coldBoot := false }).flowSettle.settle

end Sys2Proof.Machine
end

