-- ==== Sys2Proof/Machine/Control.lean ====
section
/-! DEFINITION. Branches and jumps (R113, R114). -/
namespace Sys2Proof.Machine

/-- The target of a branch: its own address plus sext(OFF16) × 4 (R113). -/
def branchTarget (t : Thread) (off : BitVec 16) : Word := t.pcWord + sext off * 4

/-- A branch on a relation of two registers (R113, R114): only a taken one can leave the program store. -/
def State.branch (s : State) (th : Nat) (rs1 rs2 : BitVec 5) (off : BitVec 16) (p : Word → Word → Bool) : State :=
  s.issue th true (fun s =>
    let t := s.thread th
    let target := branchTarget t off
    if p (t.gr rs1) (t.gr rs2) then
      if beyond target then s.fault th fcIaddr else s.setThread th (t.jump target)
    else s.retire th id)

/-- BEQ (R113). -/
def execBeq (th : Nat) (rs1 rs2 : BitVec 5) (off : BitVec 16) (s : State) : Res := done (s.branch th rs1 rs2 off (fun a b => a == b))
/-- BNE (R113). -/
def execBne (th : Nat) (rs1 rs2 : BitVec 5) (off : BitVec 16) (s : State) : Res := done (s.branch th rs1 rs2 off (fun a b => a != b))
/-- BLT (R113). -/
def execBlt (th : Nat) (rs1 rs2 : BitVec 5) (off : BitVec 16) (s : State) : Res := done (s.branch th rs1 rs2 off (fun a b => a.slt b))
/-- BGE (R113). -/
def execBge (th : Nat) (rs1 rs2 : BitVec 5) (off : BitVec 16) (s : State) : Res := done (s.branch th rs1 rs2 off (fun a b => !a.slt b))
/-- BLTU (R113). -/
def execBltu (th : Nat) (rs1 rs2 : BitVec 5) (off : BitVec 16) (s : State) : Res := done (s.branch th rs1 rs2 off (fun a b => a.ult b))
/-- BGEU (R113). -/
def execBgeu (th : Nat) (rs1 rs2 : BitVec 5) (off : BitVec 16) (s : State) : Res := done (s.branch th rs1 rs2 off (fun a b => !a.ult b))

/-- JAL (R113, R114): g31 takes the address of the next word. -/
def execJal (th : Nat) (off : BitVec 26) (s : State) : Res :=
  done (s.issue th true (fun s =>
    let t := s.thread th
    let target := t.pcWord + sext off * 4
    if beyond target then s.fault th fcIaddr else s.setThread th ((t.put 31 false (t.pcWord + 4)).jump target)))

/-- JALR (R113, R114): the alignment of the target is checked first. -/
def execJalr (th : Nat) (rd rs1 : BitVec 5) (imm : BitVec 16) (s : State) : Res :=
  done (s.issue th true (fun s =>
    let t := s.thread th
    let target := t.gr rs1 + sext imm
    if target.toNat % 4 ≠ 0 then s.fault th fcAlign
    else if beyond target then s.fault th fcIaddr
    else s.setThread th ((t.put rd (t.tainted rs1) (t.pcWord + 4)).jump target)))

end Sys2Proof.Machine
end

