-- ==== Sys2Proof/Machine/LoadStore.lean ====
section
/-! DEFINITION. Loads, stores and atomics (R115 to R118), the completion of posted stores (R104) and the end of a long stall
(R106). -/
namespace Sys2Proof.Machine

/-! ## Loads (R115) -/

/-- A load of n bytes: `fin` makes the answer of the bytes.  Local and cluster loads complete; the others stall long (R116). -/
def State.loadOp (s : State) (th : Nat) (sp : BitVec 2) (rs1 : BitVec 5) (off : BitVec 14) (n : Nat)
    (fin : List Byte → LookAnswer) : State :=
  let t := s.thread th
  let k := spaceOf sp
  let a := t.spaceAddr k (t.gr rs1 + sext off)
  match s.accessFault th k a n false with
  | some c => s.fault th c
  | none =>
    if k = .dev ∧ t.deviceBehind a then s.stall th (.stores false)
    else match s.spaceRead th k a n with
      | (.error c, s) => s.fault th c
      | (.ok l, s) => if k = .loc ∨ k = .clu then s.deliver th (fin l)
        else s.awaitAnswer th .unit { fin l with chip := spaceChip th k a }

/-- A load of 1, 2 or 4 bytes into a general register, zero-extended. -/
def State.loadWord (s : State) (th : Nat) (sp : BitVec 2) (rt rs1 : BitVec 5) (off : BitVec 14) (n : Nat) : State :=
  s.issue th true (fun s => s.loadOp th sp rs1 off n (fun l =>
    { rd := rt, value := bytesWord l, blk := none, taint := (s.thread th).tainted rs1, chip := 0 }))

/-- LDB (R115). -/
def execLdb (th : Nat) (sp : BitVec 2) (rt rs1 : BitVec 5) (off : BitVec 14) (s : State) : Res := done (s.loadWord th sp rt rs1 off 1)
/-- LDH (R115). -/
def execLdh (th : Nat) (sp : BitVec 2) (rt rs1 : BitVec 5) (off : BitVec 14) (s : State) : Res := done (s.loadWord th sp rt rs1 off 2)
/-- LDW (R115). -/
def execLdw (th : Nat) (sp : BitVec 2) (rt rs1 : BitVec 5) (off : BitVec 14) (s : State) : Res := done (s.loadWord th sp rt rs1 off 4)
/-- LDQ (R115, R122). -/
def execLdq (th : Nat) (sp : BitVec 2) (bt : BitVec 3) (rs1 : BitVec 5) (off : BitVec 14) (s : State) : Res :=
  done (s.issue th true (fun s =>
    if (s.thread th).busy (blkBit bt) then s.stall th .round
    else s.loadOp th sp rs1 off 16 (fun l => { rd := 0, value := 0, blk := some (bt, bytesBlock l), taint := false, chip := 0 })))

/-! ## Stores (R115) -/

/-- A device store that its register would reject now (R410), with what the rejection counts. -/
def State.storeRejected (s : State) (th : Nat) (k : MemSpace) (a : Nat) (l : List Byte) : Option State :=
  if k = .dev ∧ (s.thread th).deviceBehind a = false then
    match s.busWrite (.thread th) a (bytesWord l) with
    | (true, _) => none
    | (false, s) => some s
  else none

/-- A store of bytes: a ninth posted store waits for an entry (R104); one that a full Ferry rejects faults (R101, R143, R410). -/
def State.storeOp (s : State) (th : Nat) (sp : BitVec 2) (rs1 : BitVec 5) (off : BitVec 14) (l : List Byte) : State :=
  let t := s.thread th
  let k := spaceOf sp
  let a := t.spaceAddr k (t.gr rs1 + sext off)
  match s.accessFault th k a l.length true with
  | some c => s.fault th c
  | none =>
    if (k = .shr ∨ k = .dev) ∧ 8 ≤ t.posted.length then s.stall th (.stores true)
    else match s.storeRejected th k a l with
      | some s => s.fault th fcBus
      | none => (s.spaceWrite th k a l).retire th id

/-- STB (R115). -/
def execStb (th : Nat) (sp : BitVec 2) (rt rs1 : BitVec 5) (off : BitVec 14) (s : State) : Res :=
  done (s.issue th true (fun s => s.storeOp th sp rs1 off (beBytes 1 ((s.thread th).gr rt).toNat)))
/-- STH (R115). -/
def execSth (th : Nat) (sp : BitVec 2) (rt rs1 : BitVec 5) (off : BitVec 14) (s : State) : Res :=
  done (s.issue th true (fun s => s.storeOp th sp rs1 off (beBytes 2 ((s.thread th).gr rt).toNat)))
/-- STW (R115). -/
def execStw (th : Nat) (sp : BitVec 2) (rt rs1 : BitVec 5) (off : BitVec 14) (s : State) : Res :=
  done (s.issue th true (fun s => s.storeOp th sp rs1 off (beBytes 4 ((s.thread th).gr rt).toNat)))
/-- STQ (R115, R122). -/
def execStq (th : Nat) (sp : BitVec 2) (bt : BitVec 3) (rs1 : BitVec 5) (off : BitVec 14) (s : State) : Res :=
  done (s.issue th true (fun s =>
    if (s.thread th).busy (blkBit bt) then s.stall th .round
    else s.storeOp th sp rs1 off (blockBytes ((s.thread th).br bt))))

/-! ## Posted stores (R104, R166) -/

/-- A posted store that ends in a bus error raises a bus fault on its thread, with pc at the store (R101, R143); a thread that has
stopped meanwhile takes none. -/
def State.postedFault (s : State) (th : Nat) (p : Posted) : State :=
  if (s.thread th).isStarted then (s.setThread th { s.thread th with pc := p.pc, past := false }).fault th fcBus else s

/-- The oldest posted store takes effect, or ends in a bus error (R19, R22, R101). -/
def State.postedDone (s : State) (th : Nat) (p : Posted) : State :=
  if p.device then
    match s.busWrite (.thread th) p.addr (bytesWord p.bytes) with
    | (true, s) => s
    | (false, s) => s.postedFault th p
  else if s.busFails th .shr p.addr p.bytes.length true then s.postedFault th p
  else s.sharedPut th p

/-- POSTED_STORE_COMPLETE (R104): the oldest posted store of the thread; a thread that waits for an entry goes on. -/
def execPostedStoreComplete (th : Nat) (s : State) : Res :=
  let t := s.thread th
  match t.posted with
  | [] => done s
  | p :: rest =>
    if s.reachable (thChip th) = false then done s
    else
      let s := (s.setThread th { t with posted := rest }).postedDone th p
      done (if (s.thread th).waitsStores then s.makeReady th else s)

/-! ## Atomics (R117, R118) -/

/-- The word of an atomic is written, if `op` gives one (R117): in shared-state memory by the Board's cache, which has the line for
its own either way. -/
def State.atomicPut (s : State) (th : Nat) (k : MemSpace) (a : Nat) (new : Option Word) : State :=
  match new, k with
  | some w, .shr => s.sharedPut th { device := false, addr := a, bytes := beBytes 4 w.toNat, pc := (s.thread th).pc }
  | some w, k => s.spaceWrite th k a (beBytes 4 w.toNat)
  | none, .shr => s.sharedOwn th (a - hbmBase) 4
  | none, _ => s

/-- An atomic on the word at g[rs1]: `op` gives the new word, if one is written, from the old one, g[rs2] and g[rd]; the old word goes
to g[rd].  Only ACAS reads g[rd]. -/
def State.atomic (s : State) (th : Nat) (sp : BitVec 2) (rd rs1 rs2 : BitVec 5) (readsRd : Bool)
    (op : Word → Word → Word → Option Word) : State :=
  s.issue th (sp != 3) (fun s =>
    let t := s.thread th
    let k := spaceOf sp
    let a := t.spaceAddr k (t.gr rs1)
    match s.accessFault th k a 4 true with
    | some c => s.fault th c
    | none =>
      match (if k = .shr then s.drainShared th else s).spaceRead th k a 4 with
      | (.error c, s) => s.fault th c
      | (.ok l, s) =>
        let old := bytesWord l
        let s := s.atomicPut th k a (op old (t.gr rs2) (t.gr rd))
        let src := t.tainted rs1 || t.tainted rs2 || (readsRd && t.tainted rd)
        let ans : LookAnswer := { rd := rd, value := old, blk := none, taint := src, chip := spaceChip th k a }
        if k = .shr then s.awaitAnswer th .unit ans else s.deliver th ans)

/-- AADD (R117). -/
def execAadd (th : Nat) (sp : BitVec 2) (rd rs1 rs2 : BitVec 5) (s : State) : Res := done (s.atomic th sp rd rs1 rs2 false (fun o b _ => some (o + b)))
/-- AAND (R117). -/
def execAand (th : Nat) (sp : BitVec 2) (rd rs1 rs2 : BitVec 5) (s : State) : Res := done (s.atomic th sp rd rs1 rs2 false (fun o b _ => some (o &&& b)))
/-- AOR (R117). -/
def execAor (th : Nat) (sp : BitVec 2) (rd rs1 rs2 : BitVec 5) (s : State) : Res := done (s.atomic th sp rd rs1 rs2 false (fun o b _ => some (o ||| b)))
/-- AXOR (R117). -/
def execAxor (th : Nat) (sp : BitVec 2) (rd rs1 rs2 : BitVec 5) (s : State) : Res := done (s.atomic th sp rd rs1 rs2 false (fun o b _ => some (o ^^^ b)))
/-- ASWP (R117). -/
def execAswp (th : Nat) (sp : BitVec 2) (rd rs1 rs2 : BitVec 5) (s : State) : Res := done (s.atomic th sp rd rs1 rs2 false (fun _ b _ => some b))
/-- ACAS (R117): the old word is compared with g[rd], and nothing is written where they differ. -/
def execAcas (th : Nat) (sp : BitVec 2) (rd rs1 rs2 : BitVec 5) (s : State) : Res :=
  done (s.atomic th sp rd rs1 rs2 true (fun o b d => if o = d then some b else none))
/-- AMAXU (R117). -/
def execAmaxu (th : Nat) (sp : BitVec 2) (rd rs1 rs2 : BitVec 5) (s : State) : Res :=
  done (s.atomic th sp rd rs1 rs2 false (fun o b _ => some (if o.ult b then b else o)))
/-- AMINU (R117). -/
def execAminu (th : Nat) (sp : BitVec 2) (rd rs1 rs2 : BitVec 5) (s : State) : Res :=
  done (s.atomic th sp rd rs1 rs2 false (fun o b _ => some (if o.ult b then o else b)))

/-! ## The end of a long stall (R106, R148) -/

/-- The condition of a wait holds: the instruction issues again, or its answer is there.  A vector and a lookup's result come
by events of their own. -/
def State.waitOver (s : State) (th : Nat) (w : Wait) : Bool :=
  let t := s.thread th
  match w with
  | .recv _ _ => false
  | .lookup => false
  | .pipe _ _ => false
  | .pipeRoom p => s.pipeHasRoom p
  | .event m => t.evt &&& m != 0
  | .round => t.bBusy == 0
  | .key i => !s.keys.fetch.contains (thBoard th, i.toNat)
  | .payload => !t.fifo.isEmpty
  | .writes _ => t.wfifo.isEmpty
  | .stores _ => t.posted.isEmpty
  | .credit => (s.takeCredit th).isSome
  | .dma ch => (s.dmaCh ch).act.isNone && (s.dmaCh ch).shd.isNone
  | .unit => t.look.isSome
  | .die => s.dieState == 2 || (s.dieState == 1 && decide (32 ≤ s.rndBits (rndOf th)))
  | .micro => false
  | .hnew _ _ _ => s.reachable (thChip th) && s.reachable 1

/-- The free-cell manager's answer to HNEW: a new handle of the thread with cells for n bytes, or 0 (R132, R257): the cells hold unspecified bytes. -/
def State.hnew (s : State) (th n : Nat) : Word × State :=
  let c := cellsFor n
  let r := s.allocCells c
  match r.1 with
  | some l =>
    let bytes := (List.range (c * 256)).map (fun i => Config.cellByte r.2.free i)
    let f : FrameRec := { newFrame l .none 0 0 n bytes with board := some (thBoard th), owner := some th }
    let h := r.2.draw.newHandle f
    (h.1, h.2.setThread th { h.2.thread th with handles := (h.2.thread th).handles ++ [h.1] })
  | none => (0, r.2)

/-- HNEW ends: its handle, or 0, is in g[rd] (R132). -/
def State.hnewEnd (s : State) (th : Nat) (rd : BitVec 5) (n : Nat) (taint : Bool) : State :=
  let r := s.hnew th n
  r.2.deliver th { rd := rd, value := r.1, blk := none, taint := taint, chip := 1 }

end Sys2Proof.Machine
end

