-- ==== Sys2Proof/Machine/LookupOps.lean ====
section
/-! DEFINITION. Lookup instructions (R129 to R131).  The tables work a lookup when it issues; its result returns to the
waiting thread by LOOKUP_RESULT.  An insert or a delete waits for the modify pipe until then. -/
namespace Sys2Proof.Machine

/-- A status as the word of g[rd]. -/
def statusWord (st : Nat) : Word := BitVec.ofNat 32 st

/-- The two blocks of a 32-byte key (R129). -/
def Thread.key32 (t : Thread) (ba bb : BitVec 3) : List Byte := blockBytes (t.br ba) ++ blockBytes (t.br bb)

/-- INST.INSTANCE (R98). -/
def Thread.instance_ (t : Thread) : Nat := fieldOf t.inst 15 0

/-- A Dice instruction, whose table word has zeros above bit 11 (R129, R578). -/
def State.diceOp (s : State) (th : Nat) (rs1 : BitVec 5) (f : Nat → State) : State :=
  if fieldOf ((s.thread th).gr rs1) 31 12 ≠ 0 then s.fault th fcOperand else f (fieldOf ((s.thread th).gr rs1) 11 0)

/-- The lookup of DLK: the status, and the value on a hit (R129). -/
def State.dlk (s : State) (th : Nat) (rd rs1 : BitVec 5) (bd ba : BitVec 3) (table : Nat) : State :=
  let t := s.thread th
  let r := s.diceLookup (thBoard th) table (blockBytes (t.br ba))
  r.2.2.awaitAnswer th .lookup { rd := rd, value := statusWord r.1, taint := t.tainted rs1
                                 chip := boardChip (s.partOf (thBoard th) table (blockBytes (t.br ba)))
                                 blk := if r.1 = lkDone then some (bd, bytesBlock r.2.1) else none }

/-- DLK (R129, R219). -/
def execDlk (th : Nat) (rd rs1 : BitVec 5) (bd ba : BitVec 3) (s : State) : Res :=
  done (s.blockIssue th (!isMgmt th) (blkBit ba ||| blkBit bd) (fun s => s.diceOp th rs1 (s.dlk th rd rs1 bd ba)))

/-- A status returns to the thread from a chiplet. -/
def State.statusAnswer (s : State) (th : Nat) (rd : BitVec 5) (src : Bool) (chip : Nat) (v : Word) : State :=
  s.awaitAnswer th .lookup { rd := rd, value := v, blk := none, taint := src, chip := chip }

/-- A DINS or DDEL: a status of the issuing Board's checks returns at once; else the operation enters the queue of the partition's
modify pipe, or the thread waits for room there, before its insert takes a token (R221, R579). -/
def State.pipeOp (s : State) (th : Nat) (rd : BitVec 5) (taint : Bool) (table : Nat) (key : List Byte) (rate : Bool)
    (mk : Nat → PipeOp) : State :=
  match s.pipeRoute (thBoard th) (s.thread th).instance_ table key rate with
  | (.inl st, s) => s.statusAnswer th rd taint (boardChip (s.partOf (thBoard th) table key)) (statusWord st)
  | (.inr p, s') => if s.pipeHasRoom p then s'.pipeEnter p th mk else s.stall th (.pipeRoom p)

/-- DINS (R129, R222, R337).  DESIGN CHOICE (log entry 15): the protection fault of an open gate comes before the operand fault. -/
def execDins (th : Nat) (rd rs1 : BitVec 5) (ba bb : BitVec 3) (s : State) : Res :=
  done (s.blockIssue th (!isMgmt th) (blkBit ba ||| blkBit bb) (fun s => s.unlessOpen th (fun s => s.diceOp th rs1 (fun table =>
    let t := s.thread th
    s.pipeOp th rd (t.tainted rs1) table (blockBytes (t.br ba)) true (fun n =>
      .ins th n rd (t.tainted rs1) table t.instance_ (blockBytes (t.br ba)) (blockBytes (t.br bb)))))))

/-- DDEL (R129, R224, R337); its faults as for DINS. -/
def execDdel (th : Nat) (rd rs1 : BitVec 5) (ba : BitVec 3) (s : State) : Res :=
  done (s.blockIssue th (!isMgmt th) (blkBit ba) (fun s => s.unlessOpen th (fun s => s.diceOp th rs1 (fun table =>
    let t := s.thread th
    s.pipeOp th rd (t.tainted rs1) table (blockBytes (t.br ba)) false (fun n =>
      .del th n rd (t.tainted rs1) table (blockBytes (t.br ba)))))))

/-- FLK (R129, R241): on a hit, the first 16 bytes of the action and the index. -/
def execFlk (th : Nat) (rd : BitVec 5) (bd ba bb : BitVec 3) (s : State) : Res :=
  done (s.blockIssue th (!isMgmt th) (blkBit ba ||| blkBit bb ||| blkBit bd) (fun s =>
    let r := s.flowLookup (thBoard th) ((s.thread th).key32 ba bb)
    r.2.2.awaitAnswer th .lookup { rd := rd, value := r.1, blk := r.2.1.map (fun b => (bd, b)), taint := false
                                   chip := boardChip (s.flowHome (thBoard th) ((s.thread th).key32 ba bb)) }))

/-- FINS (R129, R241, R337): b[bd] is a source. -/
def execFins (th : Nat) (rd : BitVec 5) (bd ba bb : BitVec 3) (s : State) : Res :=
  done (s.blockIssue th (!isMgmt th) (blkBit ba ||| blkBit bb ||| blkBit bd) (fun s => s.unlessOpen th (fun s =>
    let t := s.thread th
    let r := s.flowInsert (thBoard th) t.instance_ (t.key32 ba bb) (t.br bd)
    r.2.statusAnswer th rd false (boardChip (s.flowHome (thBoard th) (t.key32 ba bb))) r.1)))

/-- FDEL (R129, R241, R337). -/
def execFdel (th : Nat) (rd : BitVec 5) (ba bb : BitVec 3) (s : State) : Res :=
  done (s.blockIssue th (!isMgmt th) (blkBit ba ||| blkBit bb) (fun s => s.unlessOpen th (fun s =>
    let k := (s.thread th).key32 ba bb
    let r := s.flowDelete (thBoard th) k
    r.2.statusAnswer th rd false (boardChip (s.flowHome (thBoard th) k)) r.1)))

/-- TLK (R129, R245): VRF and family in g[rs1]; an IPv4 address stands in lane 0. -/
def execTlk (th : Nat) (rd rs1 : BitVec 5) (ba : BitVec 3) (s : State) : Res :=
  done (s.blockIssue th (!isMgmt th) (blkBit ba) (fun s =>
    let t := s.thread th
    let w := t.gr rs1
    let v6 := fieldOf w 12 12 == 1
    if fieldOf w 31 13 ≠ 0 then s.fault th fcOperand
    else s.statusAnswer th rd (t.tainted rs1) 1
      (s.deltaLookup v6 (fieldOf w 11 0) (if v6 then (t.br ba).toNat else (laneGet (t.br ba) 0).toNat))))

/-- The insert or delete for which a thread waits passes the modify pipe, after all that arrived there before it (R221). -/
def State.pipeFor (s : State) (th : Nat) : State :=
  match (s.thread th).run with
  | .stalled (.pipe p n) => s.pipeThrough p (fun o => o.num == some n)
  | _ => s

/-- LOOKUP_RESULT (R129): the result of a lookup, insert or delete returns to the waiting thread. -/
def execLookupResult (th : Nat) (s : State) : Res :=
  let s := s.pipeFor th
  match (s.thread th).run, (s.thread th).look with
  | .stalled .lookup, some a => done (s.deliver th a)
  | _, _ => done s

end Sys2Proof.Machine
end

