-- ==== Sys2Proof/Machine/Debug.lean ====
section
/-! DEFINITION. The effects of accepted tokens that may reset the module, and the debug levels (R503, R518 to R520). -/
namespace Sys2Proof.Machine

/-- Debug becomes Off; when Intrude ends in Deployed, the module resets warm (R518, R520). -/
def State.debugEnd (s : State) (t : BootTests) : State :=
  let intrudes := s.debugLevel == 2 && s.lifecycle == 2
  if intrudes then s.debugClear.warmReset t else s.debugClear

/-- Both copies of records 16 to 31 become zeros, and the records are absent (R503). -/
def State.zeroRecords (s : State) : State :=
  s.putTrust { s.trust with
    mram := s.trust.mram.filter (fun e => !decide (copyOff 16 0 ≤ e.1 ∧ e.1 < copyOff 32 0))
    inUse := s.trust.inUse.filter (fun e => !decide (16 ≤ e.1 ∧ e.1 ≤ 31)) }

/-- RETURN (R503): the Returned fuse, every key revoked, records 16 to 31 zeroed, debug Off. -/
def execLcReturn (tests : BootTests) (s : State) : Res :=
  if s.trust.accepted = some 4 then done ((((s.burn 4).revokeAll).zeroRecords.lcEnd).debugEnd tests) else done s

/-- OBSERVE (R518): the debug level becomes Observe; an Intrude that this ends in Deployed ends with a warm reset (R520). -/
def execObserve (tests : BootTests) (s : State) : Res :=
  if s.trust.accepted = some 1 then
    let s := s.lcEnd
    if s.debugLevel = 2 ∧ s.lifecycle = 2 then done (s.debugEnd tests)
    else done (s.debugClear.setFld F.HDW_LC_STAT.DEBUG 0 1)
  else done s

/-- The instances whose STATE is `st`. -/
def State.insWith (s : State) (st : Nat) : List Nat :=
  ((s.regs.filter (fun e => regOfKey e.1 == .RNG_FN_FRZ)).map (fun e => e.1 / 1024)).filter (fun n => s.insState n == st)

/-- KTK is drawn again; none is there while the Die has none to give (R520). -/
def State.newKtk (s : State) : State :=
  if s.dieState = 1 then s.drawKtk else s.putKeys { s.keys with ktk := none }

/-- Intrude takes effect in Deployed: instances that are not FROZEN reset, keys are revoked, KTK is new, SPDM sessions end (R520). -/
def State.intrudeEnter (s : State) : State :=
  let s := (s.insWith 3).foldl (fun s n => s.fnReset n false) s
  let s := s.revokeAll.newKtk
  let s := s.putPlat { s.plat with doe := [] }
  let s := s.putTrust { s.trust with intruding := false }
  (s.setFld F.HDW_LC_STAT.INTRUDED 0 1).setFld F.HDW_LC_STAT.DEBUG 0 2

/-- INTRUDE (R518, R520): in Deployed the first one freezes every ACTIVE instance, and takes effect if none is FREEZING; a later
one ends the 100 ms of waiting. -/
def execIntrude (s : State) : Res :=
  if s.trust.accepted ≠ some 2 then done s
  else if s.lifecycle ≠ 2 then done (s.lcEnd.setFld F.HDW_LC_STAT.DEBUG 0 2)
  else if s.trust.intruding then done s.intrudeEnter.lcEnd
  else
    let s := (s.insWith 1).foldl State.freezeDo s
    let s := (s.insWith 3).foldl State.quiesce s
    if (s.insWith 3).isEmpty then done s.intrudeEnter.lcEnd else done (s.putTrust { s.trust with intruding := true })

/-- DEBUG_OFF (R518, R529): the command that HDW_LC_CMD started, or one that starts now. -/
def execDebugOff (tests : BootTests) (s : State) : Res :=
  if s.trust.accepted = some 6 ∨ s.flag F.HDW_LC_STAT.BUSY 0 = false then done (s.lcEnd.debugEnd tests) else done s

/-- DEBUG_EXPIRY (R518). -/
def execDebugExpiry (tests : BootTests) (s : State) : Res :=
  if s.debugLevel ≠ 0 ∧ (s.trust.notAfter * 1000000000 < s.time.now ∨ s.trust.since + 86400000000000 ≤ s.time.tick) then
    done (s.debugEnd tests)
  else done s

end Sys2Proof.Machine
end

