-- ==== Sys2Proof/Machine/Dma.lean ====
section
/-! DEFINITION. DMA descriptors: their checks, translation and direction, the accesses of both sides, pacing, gated transfers and
completion timeouts (R28, R343, R430 to R438, R453, R456). -/
namespace Sys2Proof.Machine

/-! ## Codes and fields (R431, R440) -/

/-- MALFORMED. -/
def dmMalformed : Nat := 1
/-- BUSERR. -/
def dmBusErr : Nat := 2
/-- DATAERR. -/
def dmDataErr : Nat := 3
/-- OVERLAP. -/
def dmOverlap : Nat := 4
/-- GATEFAIL. -/
def dmGateFail : Nat := 5

/-- PACE. -/
def DmaDesc.paced (d : DmaDesc) : Bool := bit (d.w 0).toNat 21

/-- Bytes of a burst (R438). -/
def DmaDesc.burst (d : DmaDesc) : Nat := 64 * 2 ^ fieldOf (d.w 7) 20 18

/-- What a side of a descriptor reaches (R432). -/
inductive Space where
  | cluster (off : Nat)
  | hbm (addr : Nat)
  | reg (addr : Nat)
  | host (ep fn addr : Nat)
  | zero
deriving DecidableEq, Repr

/-- The space of a side. -/
def DmaSide.space (x : DmaSide) : Space :=
  if x.kind = 0 then .cluster (x.addr % 0x400000)
  else if x.kind = 2 then .host x.ep x.fn x.addr
  else if x.kind = 3 then .zero
  else if windowBase ≤ x.addr then .host ((x.addr - windowBase) / 2 ^ 41) x.fn ((x.addr - windowBase) % 2 ^ 41)
  else if hbmBase ≤ x.addr then .hbm x.addr
  else .reg x.addr

/-- A device range lies wholly within one range of R25. -/
def inOneRange (a n : Nat) : Bool :=
  let within := fun lo hi => decide (lo ≤ a ∧ a + n ≤ hi)
  within 0 0x10000000 || (List.range 8).any (fun b => within (0x100000000 + b * 0x1000000) (0x101000000 + b * 0x1000000))
    || within 0x200000000 0x300000000
    || (List.range 4).any (fun k => within (0x300000000 + k * 0x1000000) (0x301000000 + k * 0x1000000))
    || within hbmBase (hbmBase + hbmSize)
    || (List.range 32).any (fun e => within (windowBase + e * 2 ^ 41) (windowBase + (e + 1) * 2 ^ 41))

/-- A side is malformed (R433). -/
def State.sideBad (s : State) (d : DmaDesc) (dst : Bool) : Bool :=
  let x := d.side dst
  let n := d.len
  let noFn := match x.host with | some (ep, fn) => !s.fnExists ep fn | none => false
  if x.kind = 0 then decide (0x400000 ≤ x.addr) || decide (0x400000 < x.addr + n)
  else if x.kind = 1 then
    decide (2 ^ 48 ≤ x.addr) || !inOneRange x.addr n || noFn || (x.addr < hbmBase && (x.addr % 4 != 0 || n % 4 != 0))
  else if x.kind = 2 then noFn || decide (2 ^ 64 < x.addr + n)
  else if x.kind = 3 then dst || d.w 1 != 0 || d.w 2 != 0 || d.w 5 != 0
  else true

/-- A descriptor is malformed (R433). -/
def State.dmaMalformed (s : State) (d : DmaDesc) : Bool :=
  d.len == 0 || decide (1048576 < d.len) || fieldOf (d.w 7) 20 18 == 7 || fieldOf (d.w 7) 31 21 != 0
    || s.sideBad d false || s.sideBad d true

/-! ## Translation and direction (R437) -/

/-- Two sides are in one space (R437). -/
def sameSpace : Space → Space → Bool
  | .cluster _, .cluster _ => true
  | .hbm _, .hbm _ => true
  | .reg _, .reg _ => true
  | .host e _ _, .host f _ _ => e == f
  | _, _ => false

/-- The first address of a side in its space. -/
def Space.start : Space → Nat
  | .cluster o => o
  | .hbm a => a
  | .reg a => a
  | .host _ _ a => a
  | .zero => 0

/-- The physical page of a page of a side: the translation of `xlate`, keyed by page number, plus 2⁵² for the destination;
itself where none is listed (R437). -/
def physPage (xlate : List (Nat × Nat)) (x : Space) (dst : Bool) (page : Nat) : Nat :=
  match x with
  | .host _ _ _ => (match xlate.find? (fun e => e.1 == page + b2n dst * 2 ^ 52) with | some e => e.2 | none => page)
  | _ => page

/-- The differences of transfer offsets at which source and destination share a page (R437). -/
def pageDeltas (xlate : List (Nat × Nat)) (a b : Space) (n : Nat) : List Int :=
  if sameSpace a b = false then []
  else (pagesOf a.start n).flatMap (fun p =>
    ((pagesOf b.start n).filter (fun q => physPage xlate a false p == physPage xlate b true q)).map (fun q =>
      ((p * 4096 : Nat) : Int) - (a.start : Nat) - (((q * 4096 : Nat) : Int) - (b.start : Nat))))

/-- A refused ATS translation is counted by the ring units of its Bank. -/
def State.xlateFail (s : State) (x : DmaSide) : State :=
  match x.host with
  | some (ep, _) => s.satInc F.RNG_XLATE_FAIL.COUNT (epBank ep) 1
  | none => s

/-- The translation of a function's page (R392, R437): the one the endpoint holds, or the answer to a request, which it then holds.
DESIGN CHOICE (log entry 45): of 4,096 translations the oldest gives way. -/
def State.atsPage (s : State) (ep fn page answer : Nat) : Nat × State :=
  let l := Tbl.get (fun _ => []) s.plat.ats ep
  match l.find? (fun e => e.1 == fn && e.2.1 == page) with
  | some e => (e.2.2, s)
  | none =>
    let l := (if 4096 ≤ l.length then l.drop 1 else l) ++ [(fn, page, answer)]
    (answer, s.putPlat { s.plat with ats := Tbl.set (fun _ => []) s.plat.ats ep l })

/-- The translations of a side's pages, in the keys of `physPage`; a side whose function has ATS disabled has none (R437). -/
def State.atsSide (s : State) (xlate : List (Nat × Nat)) (x : DmaSide) (dst : Bool) (n : Nat) : List (Nat × Nat) × State :=
  match x.host with
  | some (ep, fn) =>
    if s.atsOn ep fn then
      (pagesOf x.hostAddr n).foldl (fun r p =>
        let q := r.2.atsPage ep fn p (physPage xlate x.space dst p)
        (r.1 ++ [(p + b2n dst * 2 ^ 52, q.1)], q.2)) ([], s)
    else ([], s)
  | none => ([], s)

/-- DMA_DESCRIPTOR_START (R433, R437): a failed gate, the checks, the translations, the direction. -/
def execDmaDescriptorStart (ch : Nat) (xlate : List (Nat × Nat)) (xfail : Bool) (s : State) : Res :=
  let c := s.dmaCh ch
  match c.act with
  | none => done s
  | some d =>
    if d.started ∨ d.held.isSome ∨ s.reachable (boardChip (ch / 128)) = false then done s
    else if d.failed then done (s.dmaEnd ch dmGateFail 0)
    else if s.dmaMalformed d then done (s.dmaFinish ch dmMalformed 0)
    else
      let src := d.side false
      let dst := d.side true
      let ats : DmaSide → Bool := fun x => match x.host with | some (ep, fn) => s.atsOn ep fn | none => false
      if xfail && (ats src || ats dst) then
        let atDst := !ats src
        done ((s.xlateFail (if atDst then dst else src)).dmaFinish ch dmBusErr (b2n atDst))
      else
        let a := s.atsSide xlate src false d.len
        let b := a.2.atsSide xlate dst true d.len
        let s := b.2
        let l := pageDeltas (a.1 ++ b.1) src.space dst.space d.len
        let down := l.any (fun x => decide (0 < x))
        let up := l.any (fun x => decide (x < 0))
        if down && up then done (s.dmaFinish ch dmOverlap 0)
        else done (s.setDma ch { c with act := some { d with started := true, down := down } })

/-! ## The accesses of both sides (R28, R394, R434 to R436, R453) -/

/-- The channel may use a function: it may issue requests, and its generation is not stale where R453 has it checked. -/
def State.dmaMayUse (s : State) (d : DmaDesc) (ep fn : Nat) : Bool :=
  let n := ep * 1025 + fn
  s.mayIssue ep fn && s.reachable (bankChip (epBank ep))
    && (fn == pf1Fn || fieldOf d.inst 15 0 != n || fieldOf d.inst 31 16 == s.fld F.RNG_FN_FRZ.GEN n)

/-- One read of the source: the bytes, or the code of its failure. -/
def State.srcRead (s : State) (ch : Nat) (d : DmaDesc) (x : Space) (off n : Nat) (host : List Byte) : Except Nat (List Byte) × State :=
  match x with
  | .cluster o =>
    let e := s.eccRead (clusterGroups (ch / 16)) (o + off) n false
    (if e.1 then .error dmDataErr else .ok (s.clusterSeen (ch / 16) (if d.gated then some d.th else none) (o + off) n), e.2)
  | .hbm a =>
    if (s.poisonedIn (a + off - hbmBase) n || (s.eccRead hbmGroups (a + off) n false).1) && s.hbmMapped then
      (.error dmDataErr, (s.eccRead hbmGroups (a + off) n false).2)
    else (match s.hbmFetch (.dma ch) (a + off) n with | (some l, s) => (.ok l, s) | (none, s) => (.error dmBusErr, s))
  | .reg a => (match s.busRead (.dma ch) (a + off) with
    | (some w, s) => (.ok (beBytes 4 w.toNat), s)
    | (none, s) => (.error dmBusErr, s))
  | .host ep fn _ => (if s.dmaMayUse d ep fn then .ok (fitBytes n (host.drop off)) else .error dmBusErr, s)
  | .zero => (.ok (List.replicate n 0), s)

/-- One write of the destination other than a host: whether it was made. -/
def State.dstWrite (s : State) (ch : Nat) (x : Space) (off : Nat) (l : List Byte) : Bool × State :=
  match x with
  | .cluster o => (true, s.clusterWrite (ch / 16) (o + off) l)
  | .hbm a => s.hbmStoreBy (.dma ch) (a + off) l
  | .reg a => s.busWrite (.dma ch) (a + off) (bytesWord l)
  | _ => (true, s)

/-- The pieces of a transfer in processing order, from offset `lo`: words where a side is a register range, else bytes. -/
def dmaPieces (a b : Space) (down : Bool) (lo n : Nat) : List (Nat × Nat) :=
  let isReg := fun (x : Space) => match x with | .reg _ => true | _ => false
  let w := if isReg a || isReg b then 4 else 1
  let l := (List.range (n / w)).map (fun k => (lo + k * w, w))
  if down then l.reverse else l

/-- The pieces read in order until a read fails: what was read, and the code of the failure. -/
def State.dmaReads (ch : Nat) (d : DmaDesc) (x : Space) (host : List Byte) :
    List (Nat × Nat) → List (Nat × List Byte) → State → List (Nat × List Byte) × Option Nat × State
  | [], acc, s => (acc, none, s)
  | (off, n) :: ps, acc, s =>
    match s.srcRead ch d x off n host with
    | (.ok l, s) => State.dmaReads ch d x host ps (acc ++ [(off, l)]) s
    | (.error e, s) => (acc, some e, s)

/-- The pieces written in order until a write fails: the bytes written, and whether one failed. -/
def State.dmaWrites (ch : Nat) (x : Space) : List (Nat × List Byte) → Nat → State → Nat × Bool × State
  | [], n, s => (n, false, s)
  | (off, l) :: ps, n, s =>
    match s.dstWrite ch x off l with
    | (true, s) => State.dmaWrites ch x ps (n + l.length) s
    | (false, s) => (n, true, s)

/-- The bytes of pieces in ascending order, and the offset of the first. -/
def gather (down : Bool) (l : List (Nat × List Byte)) : Nat × List Byte :=
  let l := if down then l.reverse else l
  ((l.head?.map (fun e => e.1)).getD 0, l.flatMap (fun e => e.2))

/-- The write of the destination; a host takes posted writes (R434). -/
def State.dmaPut (s : State) (ch : Nat) (d : DmaDesc) (x : Space) (l : List (Nat × List Byte)) : Nat × Bool × State :=
  match x with
  | .host ep fn a =>
    if l.isEmpty then (0, false, s)
    else if s.dmaMayUse d ep fn then
      let g := gather d.down l
      (g.2.length, false, s.hostPut ep fn (a + g.1) g.2 (s.relaxed ep fn && bit (d.w 0).toNat 22) d.down)
    else (0, true, s)
  | x => State.dmaWrites ch x l 0 s

/-- Destination bytes from a failing offset on are not specified (R436): cluster memory and HBM take open bytes. -/
def State.dmaOpen (s : State) (ch : Nat) (x : Space) (lo n : Nat) : State :=
  let l := (List.range n).map (fun i => Config.tornByte s.free i)
  match x with
  | .cluster _ => (s.dstWrite ch x lo l).2.draw
  | .hbm _ => (s.dstWrite ch x lo l).2.draw
  | _ => s

/-- The read requests of a stretch [lo, lo + n) of the source, when that is a host (R434): of its first `m` bytes in processing order,
the failing access being the last one issued (R436). -/
def State.dmaAsk (s : State) (d : DmaDesc) (x : Space) (lo n m : Nat) : State :=
  match x with
  | .host ep fn a =>
    if s.dmaMayUse d ep fn then s.hostAsk ep fn (a + (if d.down then lo + n - m else lo)) m false d.down else s
  | _ => s

/-- A stretch of a started descriptor moves: `n` bytes, after `d.moved` ones in processing order; the first `upto` of them by
the environment's word, whose failure `fail` then ends the descriptor. -/
def State.dmaMove (s : State) (ch : Nat) (d : DmaDesc) (n upto : Nat) (fail : Option (Nat × Nat)) (host : List Byte) : Option (Nat × Nat) × State :=
  let src := (d.side false).space
  let dst := (d.side true).space
  let lo := if d.down then d.len - d.moved - n else d.moved
  let ps := (dmaPieces src dst d.down lo n).take (upto / (if (dmaPieces src dst d.down lo n).any (fun p => p.2 == 4) then 4 else 1))
  let r := State.dmaReads ch d src host ps [] (s.dmaAsk d src lo n (min n (upto + 1)))
  let w := r.2.2.dmaPut ch d dst r.1
  let c := w.2.2.dmaCh ch
  let moved := d.moved + w.1
  let s := w.2.2.setDma ch { c with act := some { d with moved := moved } }
  let s := s.wr64 .DMA_BYTES .DMA_BYTES_HI ch (s.rd64 .DMA_BYTES .DMA_BYTES_HI ch + w.1)
  let e := if w.2.1 then some (dmBusErr, 1) else match r.2.1 with | some code => some (code, 0) | none => fail
  match e with
  | none => (none, s)
  | some e => (some e, s.dmaOpen ch dst (if d.down then 0 else moved) (d.len - moved))

/-- How far the environment lets a stretch go, and how it then fails (R436). -/
def dmaLimit (r : DmaResult) (n : Nat) : Nat × Option (Nat × Nat) × List Byte :=
  match r with
  | .ok l => (n, none, l)
  | .fail dst dataErr off l => (min n off, some (if dataErr then dmDataErr else dmBusErr, b2n dst), l)

/-- A stretch moves, and a failure ends the descriptor. -/
def State.dmaStretch (s : State) (ch : Nat) (d : DmaDesc) (n : Nat) (res : DmaResult) : State :=
  let m := dmaLimit res n
  let r := s.dmaMove ch d n m.1 m.2.1 m.2.2
  match r.1 with
  | some (code, side) => r.2.dmaFinish ch code side
  | none => r.2

/-- The active descriptor moves data: started, its end not held, its gate not failed. -/
def DmaDesc.runs (d : DmaDesc) : Bool := d.started && d.held.isNone && !d.failed

/-- DMA_DESCRIPTOR_END (R430, R435, R436): an unpaced descriptor's data moves and it ends; a paced one ends after its last burst. -/
def execDmaDescriptorEnd (ch : Nat) (res : DmaResult) (s : State) : Res :=
  match (s.dmaCh ch).act with
  | none => done s
  | some d =>
    if d.runs = false ∨ s.reachable (boardChip (ch / 128)) = false then done s
    else if d.paced then done (if d.moved = d.len then s.dmaFinish ch 0 0 else s)
    else
      let t := s.dmaStretch ch d d.len res
      done (match (t.dmaCh ch).act with
        | some e => if e.runs && decide (e.moved = e.len) && e.words == d.words then t.dmaFinish ch 0 0 else t
        | none => t)

/-- The request line of a paced descriptor is asserted (R438, R494). -/
def State.paceLine (s : State) (d : DmaDesc) : Bool :=
  let a := fieldOf (d.w 7) 14 10
  s.reachable (bankChip (a / 8)) && bit (s.fld F.ATL_REQ.LINES a) (fieldOf (d.w 7) 17 15)

/-- PACED_BURST_START (R438): a burst moves if the line is asserted; else the descriptor waits. -/
def execPacedBurstStart (ch : Nat) (res : DmaResult) (s : State) : Res :=
  let c := s.dmaCh ch
  match c.act with
  | none => done s
  | some d =>
    if d.runs = false ∨ d.paced = false ∨ d.len ≤ d.moved ∨ s.reachable (boardChip (ch / 128)) = false then done s
    else if s.paceLine d then
      done ((s.setDma ch { c with wait := false }).dmaStretch ch d (min d.burst (d.len - d.moved)) res)
    else done (s.setDma ch { c with wait := true })

/-! ## Gated transfers whose gate failed (R343) -/

/-- Zeros over the bytes that a transfer has written. -/
def State.dmaZero (s : State) (ch : Nat) (d : DmaDesc) : State :=
  let dst := (d.side true).space
  let lo := if d.down then d.len - d.moved else 0
  let n := d.moved
  if n = 0 then s
  else match dst with
    | .host ep fn a =>
      if s.dmaMayUse d ep fn then s.hostPut ep fn (a + lo) (List.replicate n 0) false d.down
      else s.satInc F.BRD_GATE_ZERO_ERR.COUNT (ch / 128) 1
    | dst => ((dmaPieces dst dst d.down lo n).foldl (fun s p =>
        let r := s.dstWrite ch dst p.1 (List.replicate p.2 0)
        if r.1 then r.2 else r.2.satInc F.BRD_GATE_ZERO_ERR.COUNT (ch / 128) 1) s)

/-- A shadow descriptor whose gate failed ends and moves nothing. -/
def State.dmaShadowFail (s : State) (ch : Nat) : State :=
  let c := s.dmaCh ch
  match c.shd with
  | some d =>
    if d.failed then ((s.setDma ch { c.record dmGateFail 0 with shd := none }).dmaCount ch d dmGateFail).dmaWake ch else s
  | none => s

/-- The failed transfers of a channel are overwritten with zeros and end; `errors` bus errors met the zeros at a host (R343). -/
def State.gatedTransferZero (s : State) (ch errors : Nat) : State :=
  let s := s.dmaShadowFail ch
  match (s.dmaCh ch).act with
  | some d =>
    if d.failed then ((s.dmaZero ch d).satInc F.BRD_GATE_ZERO_ERR.COUNT (ch / 128) errors).dmaEnd ch dmGateFail 0 else s
  | none => s

/-- GATED_TRANSFER_ZERO_OVERWRITE (R343, step 3). -/
def execGatedTransferZeroOverwrite (ch : Nat) (errors : BitVec 32) (s : State) : Res := done (s.gatedTransferZero ch errors.toNat)

/-! ## Completion timeouts (R456) -/

/-- COMPLETION_TIMEOUT (R424, R436, R456): the request is no longer outstanding and its access has failed. -/
def execCompletionTimeout (inst : Nat) (req : TimedReq) (s : State) : Res :=
  match req with
  | .descFetch q rx => done (s.fetchDone inst q.toNat rx none).settle
  | .txData q => done (s.readDone inst q.toNat none).settle
  | .subFetch _ => done s
  | .dma ch =>
    (match (s.dmaCh ch).act with
    | some d =>
      if d.runs && (d.side false).host == some (instEp inst, instFn inst) then
        done ((s.dmaOpen ch (d.side true).space (if d.down then 0 else d.moved) (d.len - d.moved)).dmaFinish ch dmBusErr 0)
      else done s
    | none => done s)

end Sys2Proof.Machine
end

