-- ==== Sys2Proof/Machine/Payload.lean ====
section
/-! DEFINITION. Payload streaming (R127, R128, R258, R339). -/
namespace Sys2Proof.Machine

/-- The thread holds the handle (R134). -/
def Thread.holds (t : Thread) (h : Word) : Bool := t.handles.contains h

/-- Bytes of the cells that a handle holds. -/
def State.handleBytes (s : State) (h : Word) : Nat := match s.handleFrame h with | some f => f.cells * 256 | none => 0

/-- PFETCH (R127, R128): the previous stream's blocks are discarded; earlier PSTBs of the thread are observed.  DESIGN CHOICE (log
entry 15): the operand fault comes first, then alignment, then the handle. -/
def execPfetch (th : Nat) (rd rs1 : BitVec 5) (s : State) : Res :=
  done (s.issue th (!isMgmt th) (fun s =>
    let t := s.thread th
    let h := t.gr rs1
    let off := fieldOf (t.gr rd) 15 0
    let cnt := fieldOf (t.gr rd) 23 16
    if fieldOf (t.gr rd) 31 24 ≠ 0 ∨ cnt = 0 then s.fault th fcOperand
    else if off % 16 ≠ 0 then s.fault th fcAlign
    else if t.holds h = false ∨ s.handleBytes h < off + 16 * cnt then s.fault th fcHandle
    else (s.payDrain th).retire th (fun t => { t with fifo := [], stream := some { handle := h, off := off, left := cnt } })))

/-- The block of a handle at an offset, or none for an uncorrectable cell (R258); a handle that names no live frame any more
gives unspecified bytes. -/
def State.payRead (s : State) (h : Word) (off : Nat) : Option Block × State :=
  match s.handleFrame h with
  | none => (some (bytesBlock ((List.range 16).map (fun i => Config.cellByte s.free (off + i)))), s.draw)
  | some f =>
    let l := s.cellEcc f off 16
    (if l.any (fun e => e.2.2 % 2 == 0) then none else some (bytesBlock (fitBytes 16 ((f.bytes.drop off).take 16))),
      l.foldl (fun s e => s.eccFound false e.2) s)

/-- PAYLOAD_BLOCK_ARRIVE (R127): the next block of the stream enters the read FIFO, if it has room. -/
def execPayloadBlockArrive (th : Nat) (s : State) : Res :=
  let t := s.thread th
  match t.stream with
  | none => done s
  | some x =>
    if x.left = 0 ∨ 16 ≤ t.fifo.length ∨ s.reachable (thChip th) = false then done s
    else
      let r := s.payRead x.handle x.off
      let s := r.2.setThread th { t with fifo := t.fifo ++ [r.1], stream := some { x with off := x.off + 16, left := x.left - 1 } }
      done (if t.run = .stalled .payload then s.makeReady th else s)

/-- PLDB (R127, R128, R258). -/
def execPldb (th : Nat) (bd : BitVec 3) (s : State) : Res :=
  done (s.blockIssue th (!isMgmt th) (blkBit bd) (fun s =>
    let t := s.thread th
    match t.fifo with
    | some b :: rest => s.retire th (fun t => { t.setBr bd b with fifo := rest })
    | none :: _ => s.fault th fcData
    | [] =>
      match t.stream with
      | some x => if x.left = 0 then s.fault th fcStream else s.stall th .payload
      | none => s.fault th fcStream))

/-- PSTB (R127, R128, R339; its faults in PFETCH's order): posted into the write FIFO, as a gated write while GATED is 1. -/
def execPstb (th : Nat) (ba : BitVec 3) (rs1 rd : BitVec 5) (s : State) : Res :=
  done (s.blockIssue th (!isMgmt th) (blkBit ba) (fun s =>
    let t := s.thread th
    let h := t.gr rs1
    let off := fieldOf (t.gr rd) 15 0
    if fieldOf (t.gr rd) 31 16 ≠ 0 then s.fault th fcOperand
    else if off % 16 ≠ 0 then s.fault th fcAlign
    else if t.holds h = false ∨ s.handleBytes h < off + 16 then s.fault th fcHandle
    else if 16 ≤ t.wfifo.length then s.stall th (.writes false)
    else s.retire th (fun t =>
      { t with wfifo := t.wfifo ++ [{ handle := h, off := off, block := t.br ba, gated := t.gated }] })))

/-- PAYLOAD_WRITE_DONE (R127): the oldest posted PSTB is in its cells; a thread that waits for the write FIFO goes on. -/
def execPayloadWriteDone (th : Nat) (s : State) : Res :=
  if (s.thread th).wfifo.isEmpty then done s
  else
    let s := s.payWrite th
    done (if (s.thread th).waitsWrites then s.makeReady th else s)

/-- PWAIT (R127). -/
def execPwait (th : Nat) (s : State) : Res :=
  done (s.issue th (!isMgmt th) (fun s =>
    if (s.thread th).wfifo.isEmpty then s.retire th id else s.stall th (.writes true)))

end Sys2Proof.Machine
end

