-- ==== Sys2Proof/Machine/Queue.lean ====
section
/-! DEFINITION. Queue instructions (R132 to R134, R301) and DMA instructions (R135, R136, R341). -/
namespace Sys2Proof.Machine

/-! ## ENQ, ENQM, DROP (R126, R132 to R134, R163) -/

/-- The handle leaves the thread and the Board; its intake slot frees (R30, R134). -/
def State.giveUp (s : State) (th : Nat) (h : Word) : State :=
  match s.handleFrame h with
  | none => s.unhold th h
  | some f =>
    let s := (s.setFrame (handleFirst h) (some { f with board := none, owner := none, slot := none })).unhold th h
    match f.board with | some b => s.freeSlot b f.slot | none => s

/-- An enqueue that has its credit goes to Confluence and the handle is retired (R132). -/
def State.enqSend (s : State) (th : Nat) (h fword : Word) (kind : CommitKind) : State :=
  match s.handleFrame h with
  | none => s
  | some f =>
    ((s.giveUp th h).sendCommit f.input { seq := f.seq, kind := kind, handle := h, fword := fword, th := some th }).retire th id

/-- A handle with gated cells is enqueued while GATED or FAILED is 1: the gate fails, and the handle is freed (R126). -/
def State.enqGated (s : State) (th : Nat) (h : Word) : State := ((s.gateFail th).gateDrop th h).retire th id

/-- ENQ or ENQM after its queue word has been checked (R133, R134): earlier PSTBs are written first (R166).  DESIGN CHOICE (log entry
15): a LENGTH of 0 is an operand fault. -/
def State.enqueueOp (s : State) (th : Nat) (h fword : Word) (kind : CommitKind) : State :=
  if fieldOf fword 15 0 = 0 then s.fault th fcOperand
  else if (s.thread th).holds h = false ∨ s.handleBytes h < fieldOf fword 31 16 + fieldOf fword 15 0 then s.fault th fcHandle
  else
    let s := s.payDrain th
    if (s.thread th).gated && (s.gatedHandles th).contains h then s.enqGated th h
    else match s.takeCredit th with
      | none => s.stall th .credit
      | some s => s.enqSend th h fword kind

/-- ENQ (R132, R133). -/
def execEnq (th : Nat) (rd rs1 rs2 : BitVec 5) (s : State) : Res :=
  done (s.issue th (!isMgmt th) (fun s =>
    let t := s.thread th
    let q := t.gr rs2
    if fieldOf q 21 20 = 3 ∨ fieldOf q 31 29 ≠ 0 then s.fault th fcOperand
    else s.enqueueOp th (t.gr rs1) (t.gr rd) (.enq q)))

/-- ENQM (R132, R274). -/
def execEnqm (th : Nat) (rd rs1 rs2 : BitVec 5) (s : State) : Res :=
  done (s.issue th (!isMgmt th) (fun s =>
    let t := s.thread th
    let q := t.gr rs2
    if fieldOf q 31 16 ≠ 0 then s.fault th fcOperand
    else s.enqueueOp th (t.gr rs1) (t.gr rd) (.enqm (q.setWidth 16))))

/-- DROP (R132): earlier PSTBs are written first (R166). -/
def execDrop (th : Nat) (rs1 rs2 : BitVec 5) (s : State) : Res :=
  done (s.issue th (!isMgmt th) (fun s =>
    let t := s.thread th
    let h := t.gr rs1
    if fieldOf (t.gr rs2) 31 8 ≠ 0 then s.fault th fcOperand
    else if t.holds h = false then s.fault th fcHandle
    else ((((s.payDrain th).unhold th h).dropHandle h ((t.gr rs2).setWidth 8)).retire th id)))

/-! ## POLC and HNEW (R132, R133, R257, R301) -/

/-- POLC (R301). -/
def execPolc (th : Nat) (rd rs1 rs2 : BitVec 5) (s : State) : Res :=
  done (s.issue th (!isMgmt th) (fun s =>
    let t := s.thread th
    let p := t.gr rs1
    if fieldOf p 31 20 ≠ 0 then s.fault th fcOperand
    else
      let r := s.police (fieldOf p 17 0) (fieldOf p 19 18) (t.gr rs2).toNat
      r.2.awaitAnswer th .unit
        { rd := rd, value := BitVec.ofNat 32 r.1, blk := none, taint := t.tainted rs1 || t.tainted rs2
          chip := 1 }))

/-- HNEW (R132, R134): the free-cell manager answers after a long stall.  DESIGN CHOICE (log entry 15): a g[rs2] that is 0 or above
65,536 is an operand fault. -/
def execHnew (th : Nat) (rd rs2 : BitVec 5) (s : State) : Res :=
  done (s.issue th (!isMgmt th) (fun s =>
    let t := s.thread th
    let n := (t.gr rs2).toNat
    if n = 0 ∨ 65536 < n then s.fault th fcOperand
    else if 4 ≤ t.handles.length then s.fault th fcHandle
    else s.stall th (.hnew rd n (t.tainted rs2))))

/-! ## DMAS, DMAW, DMAP (R135, R136, R341, R439) -/

/-- The channel that g[rs1] names, whose upper bits are zero (R135, R578). -/
def State.dmaOp (s : State) (th : Nat) (rs1 : BitVec 5) (f : Nat → State) : State :=
  let w := (s.thread th).gr rs1
  if fieldOf w 31 4 ≠ 0 then s.fault th fcOperand else f (thCluster th * 16 + fieldOf w 3 0)

/-- The descriptor that a thread loads: a gated transfer while GATED is 1 (R124, R341). -/
def dmaDescOf (th : Nat) (t : Thread) (bytes : List Byte) : DmaDesc :=
  { words := (List.range 8).map (fun i => bytesWord ((bytes.drop (4 * i)).take 4)), th := th, inst := t.inst, gated := t.gated
    failed := t.gated && t.failed, started := false, down := false, moved := 0, held := none }

/-- The channel takes a descriptor into the active or the shadow set; with both occupied nothing changes (R135).  One whose gate
has failed ends at once when it is active (R341). -/
def State.dmaLoad (s : State) (ch : Nat) (d : DmaDesc) : Nat × State :=
  let c := s.dmaCh ch
  if c.act.isNone then
    let s := s.setDma ch { c with act := some d }
    (0, if d.failed then s.dmaEnd ch dmGateFail 0 else s)
  else if c.shd.isNone then (1, s.setDma ch { c with shd := some d })
  else (2, s)

/-- DMAS (R135, R166). -/
def execDmas (th : Nat) (rd rs1 rs2 : BitVec 5) (s : State) : Res :=
  done (s.issue th (!isMgmt th) (fun s => s.dmaOp th rs1 (fun ch =>
    let t := s.thread th
    let a := (t.gr rs2).toNat
    if a % 32 ≠ 0 then s.fault th fcAlign
    else if 0x400000 < a + 32 then s.fault th fcAddr
    else match (s.drainShared th).spaceRead th .clu a 32 with
      | (.error c, s) => s.fault th c
      | (.ok l, s) =>
        let r := s.dmaLoad ch (dmaDescOf th t l)
        r.2.result th rd (t.tainted rs1 || t.tainted rs2) (BitVec.ofNat 32 r.1))))

/-- DMAW (R135, R439): it waits until neither set is occupied, and clears CODE, SIDE and MORE. -/
def execDmaw (th : Nat) (rd rs1 : BitVec 5) (s : State) : Res :=
  done (s.issue th (!isMgmt th) (fun s => s.dmaOp th rs1 (fun ch =>
    let c := s.dmaCh ch
    if c.act.isSome || c.shd.isSome then s.stall th (.dma ch)
    else (s.setDma ch { c with code := 0, side := 0, more := false }).result th rd ((s.thread th).tainted rs1) c.status)))

/-- DMAP (R135). -/
def execDmap (th : Nat) (rd rs1 : BitVec 5) (s : State) : Res :=
  done (s.issue th (!isMgmt th) (fun s => s.dmaOp th rs1 (fun ch =>
    s.result th rd ((s.thread th).tainted rs1) (s.dmaCh ch).status)))

end Sys2Proof.Machine
end

