-- ==== Sys2Proof/Machine/ThreadOps.lean ====
section
/-! DEFINITION. Thread control (R137 to R139, R156, R158) and system instructions (R98, R99, R140, R141, R335). -/
namespace Sys2Proof.Machine

/-! ## Threads of the engine (R137, R138) -/

/-- A request of the master thread for thread t of its engine (R137, R138, R578): the operand fault for g[rs1][31:3]
comes before the thread-control faults. -/
def State.threadOp (s : State) (th : Nat) (rs1 : BitVec 5) (needStopped : Bool) (f : Nat → State) : State :=
  let w := (s.thread th).gr rs1
  let target := thEngine th * 8 + fieldOf w 2 0
  let x := s.thread target
  if fieldOf w 31 3 ≠ 0 then s.fault th fcOperand
  else if th % 8 ≠ 0 ∨ fieldOf w 2 0 = 0 ∨ (needStopped && x.isStarted) = true then s.fault th fcThread
  else f target

/-- TSTART (R137, R138): a faulted thread stays stopped until a thread reset (R158). -/
def execTstart (th : Nat) (rs1 rs2 : BitVec 5) (s : State) : Res :=
  done (s.issue th true (fun s => s.threadOp th rs1 true (fun x =>
    (s.retire th id).when (!(s.thread x).faulted) (fun s => s.threadStart x (pcOf ((s.thread th).gr rs2))))))

/-- TSTOP (R137, R138, R344). -/
def execTstop (th : Nat) (rs1 : BitVec 5) (s : State) : Res :=
  done (s.issue th true (fun s => s.threadOp th rs1 false (fun x => (s.retire th id).threadStop x)))

/-- TSET (R137, R138, R337): register g[RD field] of the target. -/
def execTset (th : Nat) (rd rs1 rs2 : BitVec 5) (s : State) : Res :=
  done (s.issue th true (fun s => s.unlessOpen th (fun s => s.threadOp th rs1 true (fun x =>
    let v := (s.thread th).gr rs2
    (s.retire th id).setThread x ((s.thread x).put rd false v)))))

/-- TGET (R137, R138): register g[RS2 field] of the target. -/
def execTget (th : Nat) (rd rs1 rs2 : BitVec 5) (s : State) : Res :=
  done (s.issue th true (fun s => s.threadOp th rs1 true (fun x =>
    s.result th rd ((s.thread th).tainted rs1) ((s.thread x).gr rs2))))

/-! ## RECV, YIELD, EVWAIT, SIG, HALT (R126, R133, R134, R137, R139) -/

/-- RECV (R126, R134, R137, R144): 256 bytes of local memory, 64-byte aligned; an open gate is resolved; the thread waits.  DESIGN
CHOICE (log entry 15): the spec names no fault for an address that is not 64-byte aligned or has no 256 bytes left; the model takes
0x03 and 0x04. -/
def execRecv (th : Nat) (rd rs1 : BitVec 5) (s : State) : Res :=
  done (s.issue th (!isMgmt th) (fun s =>
    let t := s.thread th
    let a := (t.gr rs1).toNat
    if a % 64 ≠ 0 then s.fault th fcAlign
    else if 0x8000 < a + 256 then s.fault th fcAddr
    else if 4 ≤ t.handles.length then s.fault th fcHandle
    else ((s.gateResolve th).gateClear th).stall th (.recv rd a)))

/-- YIELD (R106, R137): ready at once; the engine selects the next ready thread. -/
def execYield (th : Nat) (s : State) : Res := done (s.issue th true (fun s => (s.retire th id).switchFrom th))

/-- EVWAIT (R137, R139). -/
def execEvwait (th : Nat) (rd rs1 : BitVec 5) (s : State) : Res :=
  done (s.issue th true (fun s =>
    let t := s.thread th
    let m := t.gr rs1
    if t.evt &&& m = 0 then s.stall th (.event m)
    else s.retire th (fun t => { t.put rd (t.tainted rs1) (t.evt &&& m) with evt := t.evt &&& ~~~m })))

/-- The thread that SIG names: of the cluster, or of the management engines (R137). -/
def sigTarget (th : Nat) (w : Word) : Nat := (if isMgmt th then 32768 else thCluster th * 512) + fieldOf w 8 0

/-- SIG (R137, R337, R578): an engine that does not exist is signalled nothing. -/
def execSig (th : Nat) (rs1 rs2 : BitVec 5) (s : State) : Res :=
  done (s.issue th true (fun s => s.unlessOpen th (fun s =>
    let t := s.thread th
    let x := sigTarget th (t.gr rs1)
    if fieldOf (t.gr rs1) 31 9 ≠ 0 ∨ fieldOf (t.gr rs2) 31 4 ≠ 0 then s.fault th fcOperand
    else if threadExists x then (s.retire th id).setEvt x ((1 : Word) <<< fieldOf (t.gr rs2) 3 0)
    else s.retire th id)))

/-- HALT (R32, R126, R134, R137): the thread stops; a handle it has not retired makes it a fault. -/
def execHalt (th : Nat) (s : State) : Res := done (s.issue th true (fun s => s.threadStop th))

/-! ## Special and shared registers (R98, R99, R140) -/

/-- Seconds of the chiplet's replica of network time. -/
def State.replicaSec (s : State) (chip : Nat) : Nat := s.replica chip / 1000000000

/-- Engine clocks since module reset (R98): the engines' clock runs in its step beside the Headwater clock (DEDUCED, log entry 64: the
management engines run on it too). -/
def State.engineClocks (s : State) : Nat := s.eng.clk / 20

/-- Special register n, 0 to 10 (R98). -/
def State.sreg (s : State) (th n : Nat) : Word :=
  let t := s.thread th
  match n with
  | 0 => BitVec.ofNat 32 (thPlace th)
  | 1 => t.inst
  | 2 => t.sseg.setWidth 32
  | 3 => t.dseg.setWidth 32
  | 4 => BitVec.ofNat 32 s.engineClocks
  | 5 => t.cychi
  | 6 => BitVec.ofNat 32 (s.replica (thChip th) % 1000000000)
  | 7 => t.ntslo
  | 8 => t.creditWord
  | 9 => t.gateWord
  | 10 => t.evt
  | _ => 0

/-- What the read of a special register captures (R98). -/
def State.sregRead (s : State) (th n : Nat) : State :=
  let t := s.thread th
  match n with
  | 4 => s.setThread th { t with cychi := BitVec.ofNat 32 (s.engineClocks / 2 ^ 32) }
  | 6 => s.setThread th { t with ntslo := BitVec.ofNat 32 (s.replicaSec (thChip th)) }
  | _ => s

/-- MFSR (R98, R99). -/
def execMfsr (th : Nat) (rd n : BitVec 5) (s : State) : Res :=
  done (s.issue th (decide (n.toNat ≤ 10)) (fun s => (s.sregRead th n.toNat).result th rd false (s.sreg th n.toNat)))

/-- The thread after a write of a special register with RW fields (R98). -/
def Thread.setSreg (t : Thread) (n : Nat) (v : Word) : Thread :=
  match n with
  | 1 => { t with inst := v }
  | 2 => { t with sseg := v.setWidth 16 }
  | 3 => { t with dseg := v.setWidth 16 }
  | _ => t

/-- MTSR (R98, R99): INST, SSEG and DSEG have RW fields. -/
def execMtsr (th : Nat) (rs1 n : BitVec 5) (s : State) : Res :=
  done (s.issue th (decide (1 ≤ n.toNat ∧ n.toNat ≤ 3)) (fun s => s.retire th (fun t => t.setSreg n.toNat (t.gr rs1))))

/-- Shared register n of the thread's engine (R95). -/
def State.shReg (s : State) (th : Nat) (n : BitVec 3) : Word := Tbl.get (fun _ => 0) s.eng.sh (thEngine th * 8 + n.toNat)

/-- The state with a shared register replaced. -/
def State.setShReg (s : State) (th : Nat) (n : BitVec 3) (v : Word) : State :=
  s.putEng { s.eng with sh := Tbl.set (fun _ => 0) s.eng.sh (thEngine th * 8 + n.toNat) v }

/-- MFSH (R140). -/
def execMfsh (th : Nat) (rd : BitVec 5) (n : BitVec 3) (s : State) : Res :=
  done (s.issue th true (fun s => s.result th rd false (s.shReg th n)))

/-- MTSH (R140, R337). -/
def execMtsh (th : Nat) (rs1 : BitVec 5) (n : BitVec 3) (s : State) : Res :=
  done (s.issue th true (fun s => s.unlessOpen th (fun s => (s.setShReg th n ((s.thread th).gr rs1)).retire th id)))

/-- SHADD (R140, R337). -/
def execShadd (th : Nat) (rd rs1 : BitVec 5) (n : BitVec 3) (s : State) : Res :=
  done (s.issue th true (fun s => s.unlessOpen th (fun s =>
    let t := s.thread th
    (s.setShReg th n (s.shReg th n + t.gr rs1)).result th rd (t.tainted rs1) (s.shReg th n))))

/-! ## FENCE, RND, TRAP (R140, R141, R335 to R337) -/

/-- FENCE (R141). -/
def execFence (th : Nat) (mask : BitVec 5) (s : State) : Res :=
  done (s.issue th true (fun s =>
    match (s.thread th).outstanding mask with
    | some w => s.stall th w
    | none => s.retire th id))

/-- RND (R335, R336): the Die in FAILED answers with a bus error; before the Die is OK the buffer is empty. -/
def execRnd (th : Nat) (rd : BitVec 5) (s : State) : Res :=
  done (s.issue th true (fun s =>
    if s.dieState = 2 then s.fault th fcBus
    else if s.dieState = 1 ∧ 32 ≤ s.rndBits (rndOf th) then (s.dieWord (rndOf th)).2.result th rd false (s.dieWord (rndOf th)).1
    else s.stall th .die))

/-- TRAP (R140, R337): an open gate makes the code 0. -/
def execTrap (th : Nat) (rs1 : BitVec 5) (s : State) : Res :=
  done (s.issue th true (fun s =>
    let t := s.thread th
    s.threadFault th fcTrap (if t.open_ then 0 else fieldOf (t.gr rs1) 7 0)))

end Sys2Proof.Machine
end

