-- ==== Sys2Proof/Machine/Cycle.lean ====
section
/-! DEFINITION. CYCLE (05, R182 to R191): an engine fetches the thread's instruction word, dispatches, and executes one microword.
What the instruction does stands in the chapter on Boene (R189: the contract) and takes place with the microword that requests a unit
or a memory operation, or whose SEQ is DISPATCH (R183); the encodings of the instructions are those of R108 to R140. -/
namespace Sys2Proof.Machine

/-! ## Instruction words (R108 to R110) -/

/-- Field [25:21] of a word: RD, or RS1 of format B. -/
def fRd (w : Word) : BitVec 5 := BitVec.ofNat 5 (fieldOf w 25 21)
/-- Field [20:16] of a word: RS1, or RS2 of format B. -/
def fRs1 (w : Word) : BitVec 5 := BitVec.ofNat 5 (fieldOf w 20 16)
/-- Field [15:11] of a word: RS2 of format R. -/
def fRs2 (w : Word) : BitVec 5 := BitVec.ofNat 5 (fieldOf w 15 11)
/-- IMM16 or OFF16. -/
def fImm (w : Word) : BitVec 16 := w.setWidth 16
/-- OFF14 of format M. -/
def fOff14 (w : Word) : BitVec 14 := w.setWidth 14
/-- BD of format X. -/
def fBd (w : Word) : BitVec 3 := BitVec.ofNat 3 (fieldOf w 15 13)
/-- BA of format X. -/
def fBa (w : Word) : BitVec 3 := BitVec.ofNat 3 (fieldOf w 12 10)
/-- BB of format X. -/
def fBb (w : Word) : BitVec 3 := BitVec.ofNat 3 (fieldOf w 9 7)
/-- OP. -/
def fOp (w : Word) : Nat := fieldOf w 31 26

/-- A listed instruction: the sum of the fields it does not use, which must be zero (R109), and its meaning. -/
def ifZero (unused : Nat) (m : State → Res) : Option (Nat × (State → Res)) := some (unused, m)

/-- A listed instruction that uses all its fields. -/
def listed (m : State → Res) : Option (Nat × (State → Res)) := some (0, m)

/-- Integer instructions of OP 0x00 (R111). -/
def runInt (th : Nat) (w : Word) : Option (Nat × (State → Res)) :=
  let rd := fRd w
  let a := fRs1 w
  let b := fRs2 w
  match fieldOf w 10 0 with
  | 0x000 => listed (execAdd th rd a b)
  | 0x001 => listed (execSub th rd a b)
  | 0x002 => listed (execAnd th rd a b)
  | 0x003 => listed (execOr th rd a b)
  | 0x004 => listed (execXor th rd a b)
  | 0x005 => listed (execSll th rd a b)
  | 0x006 => listed (execSrl th rd a b)
  | 0x007 => listed (execSra th rd a b)
  | 0x008 => listed (execSlt th rd a b)
  | 0x009 => listed (execSltu th rd a b)
  | 0x00A => listed (execMin th rd a b)
  | 0x00B => listed (execMax th rd a b)
  | 0x00C => listed (execMinu th rd a b)
  | 0x00D => listed (execMaxu th rd a b)
  | 0x010 => listed (execMul th rd a b)
  | 0x011 => listed (execMulhu th rd a b)
  | 0x012 => listed (execMulh th rd a b)
  | 0x018 => ifZero b.toNat (execClz th rd a)
  | 0x019 => ifZero b.toNat (execPopc th rd a)
  | 0x01A => ifZero b.toNat (execRev8 th rd a)
  | 0x01B => ifZero b.toNat (execSextb th rd a)
  | 0x01C => ifZero b.toNat (execSexth th rd a)
  | 0x020 => listed (execAdd1c th rd a b)
  | 0x021 => listed (execCrcw th rd a b)
  | _ => none

/-- Immediate instructions (R112). -/
def runImm (th : Nat) (w : Word) : Option (Nat × (State → Res)) :=
  let rd := fRd w
  let a := fRs1 w
  let i := fImm w
  let lo := BitVec.ofNat 5 (fieldOf w 4 0)
  let hi := BitVec.ofNat 5 (fieldOf w 9 5)
  match fOp w with
  | 0x01 => listed (execAddi th rd a i)
  | 0x02 => listed (execAndi th rd a i)
  | 0x03 => listed (execOri th rd a i)
  | 0x04 => listed (execXori th rd a i)
  | 0x05 => listed (execSlti th rd a i)
  | 0x06 => listed (execSltiu th rd a i)
  | 0x07 => ifZero a.toNat (execLui th rd i)
  | 0x08 => ifZero (fieldOf w 15 5) (execSlli th rd a lo)
  | 0x09 => ifZero (fieldOf w 15 5) (execSrli th rd a lo)
  | 0x0A => ifZero (fieldOf w 15 5) (execSrai th rd a lo)
  | 0x0B => ifZero (fieldOf w 15 10) (execExt th rd a lo hi)
  | 0x0C => ifZero (fieldOf w 15 10) (execIns th rd a lo hi)
  | _ => none

/-- Loads and stores (R115). -/
def runMem (th : Nat) (w : Word) : Option (Nat × (State → Res)) :=
  let rt := fRd w
  let bt := BitVec.ofNat 3 (fieldOf w 23 21)
  let a := fRs1 w
  let o := fOff14 w
  let sp := BitVec.ofNat 2 (fieldOf w 27 26)
  let store := decide (0x14 ≤ fOp w)
  match fieldOf w 15 14 with
  | 0 => listed (if store then execStb th sp rt a o else execLdb th sp rt a o)
  | 1 => listed (if store then execSth th sp rt a o else execLdh th sp rt a o)
  | 2 => listed (if store then execStw th sp rt a o else execLdw th sp rt a o)
  | _ => ifZero (fieldOf w 25 24) (if store then execStq th sp bt a o else execLdq th sp bt a o)

/-- Atomics of OP 0x18 (R117). -/
def runAtomic (th : Nat) (w : Word) : Option (Nat × (State → Res)) :=
  let rd := fRd w
  let a := fRs1 w
  let b := fRs2 w
  let sp := BitVec.ofNat 2 (fieldOf w 1 0)
  let u := fieldOf w 10 6
  match fieldOf w 5 2 with
  | 0x0 => ifZero u (execAadd th sp rd a b)
  | 0x1 => ifZero u (execAand th sp rd a b)
  | 0x2 => ifZero u (execAor th sp rd a b)
  | 0x3 => ifZero u (execAxor th sp rd a b)
  | 0x4 => ifZero u (execAswp th sp rd a b)
  | 0x5 => ifZero u (execAcas th sp rd a b)
  | 0x6 => ifZero u (execAmaxu th sp rd a b)
  | 0x7 => ifZero u (execAminu th sp rd a b)
  | _ => none

/-- Branches and jumps (R113). -/
def runBranch (th : Nat) (w : Word) : Option (Nat × (State → Res)) :=
  let a := fRd w
  let b := fRs1 w
  match fOp w with
  | 0x20 => listed (execBeq th a b (fImm w))
  | 0x21 => listed (execBne th a b (fImm w))
  | 0x22 => listed (execBlt th a b (fImm w))
  | 0x23 => listed (execBge th a b (fImm w))
  | 0x24 => listed (execBltu th a b (fImm w))
  | 0x25 => listed (execBgeu th a b (fImm w))
  | 0x26 => listed (execJal th (w.setWidth 26))
  | 0x27 => listed (execJalr th a b (fImm w))
  | _ => none

/-- Block and cipher instructions of OP 0x28 (R120). -/
def runBlock (th : Nat) (w : Word) : Option (Nat × (State → Res)) :=
  let d := fBd w
  let a := fBa w
  let b := fBb w
  let r := fRd w
  let g := fRs1 w
  let lane := BitVec.ofNat 2 (fieldOf w 8 7)
  match fieldOf w 6 0 with
  | 0x00 => ifZero (r.toNat + g.toNat) (execBxor th d a b)
  | 0x01 => ifZero (r.toNat + g.toNat) (execBand th d a b)
  | 0x02 => ifZero (r.toNat + g.toNat) (execBor th d a b)
  | 0x03 => ifZero (r.toNat + g.toNat + b.toNat) (execBmov th d a)
  | 0x04 => ifZero (r.toNat + g.toNat + a.toNat + b.toNat) (execBzero th d)
  | 0x05 => ifZero (r.toNat + g.toNat + b.toNat) (execBrev th d a)
  | 0x06 => ifZero (r.toNat + g.toNat + b.toNat) (execBinc th d a)
  | 0x07 => ifZero (r.toNat + b.toNat) (execBmask th d a g)
  | 0x08 => ifZero (r.toNat + fieldOf w 9 9) (execBput th d a lane g)
  | 0x09 => ifZero (g.toNat + d.toNat + fieldOf w 9 9) (execBget th r a lane)
  | 0x0A => ifZero (r.toNat + g.toNat + b.toNat) (execXtsa th d a)
  | 0x10 => ifZero (r.toNat + g.toNat) (execGmul th d a b)
  | 0x11 => ifZero d.toNat (execTagcmp th r a b g)
  | 0x20 => ifZero (r.toNat + b.toNat) (execAese th d a g)
  | 0x21 => ifZero (r.toNat + b.toNat) (execAesd th d a g)
  | _ => none

/-- Payload and lookup instructions of OP 0x2A and 0x2B (R127, R129). -/
def runUnit (th : Nat) (w : Word) : Option (Nat × (State → Res)) :=
  let d := fBd w
  let a := fBa w
  let b := fBb w
  let r := fRd w
  let g := fRs1 w
  match fOp w, fieldOf w 6 0 with
  | 0x2A, 0x00 => ifZero (d.toNat + a.toNat + b.toNat) (execPfetch th r g)
  | 0x2A, 0x01 => ifZero (r.toNat + g.toNat + a.toNat + b.toNat) (execPldb th d)
  | 0x2A, 0x02 => ifZero (d.toNat + b.toNat) (execPstb th a g r)
  | 0x2A, 0x03 => ifZero (r.toNat + g.toNat + d.toNat + a.toNat + b.toNat) (execPwait th)
  | 0x2B, 0x00 => ifZero b.toNat (execDlk th r g d a)
  | 0x2B, 0x01 => ifZero d.toNat (execDins th r g a b)
  | 0x2B, 0x02 => ifZero (d.toNat + b.toNat) (execDdel th r g a)
  | 0x2B, 0x03 => ifZero g.toNat (execFlk th r d a b)
  | 0x2B, 0x04 => ifZero g.toNat (execFins th r d a b)
  | 0x2B, 0x05 => ifZero (g.toNat + d.toNat) (execFdel th r a b)
  | 0x2B, 0x06 => ifZero (d.toNat + b.toNat) (execTlk th r g a)
  | _, _ => none

/-- Queue and DMA instructions of OP 0x2C and 0x2D (R132, R135). -/
def runQueue (th : Nat) (w : Word) : Option (Nat × (State → Res)) :=
  let r := fRd w
  let a := fRs1 w
  let b := fRs2 w
  match fOp w, fieldOf w 10 0 with
  | 0x2C, 0 => listed (execEnq th r a b)
  | 0x2C, 1 => listed (execEnqm th r a b)
  | 0x2C, 2 => ifZero r.toNat (execDrop th a b)
  | 0x2C, 3 => listed (execPolc th r a b)
  | 0x2C, 4 => ifZero a.toNat (execHnew th r b)
  | 0x2D, 0 => listed (execDmas th r a b)
  | 0x2D, 1 => ifZero b.toNat (execDmaw th r a)
  | 0x2D, 2 => ifZero b.toNat (execDmap th r a)
  | _, _ => none

/-- Thread-control and system instructions of OP 0x2E and 0x2F (R137, R140). -/
def runSystem (th : Nat) (w : Word) : Option (Nat × (State → Res)) :=
  let r := fRd w
  let a := fRs1 w
  let b := fRs2 w
  let n := BitVec.ofNat 3 (fieldOf w 13 11)
  let nHi := fieldOf w 15 14
  match fOp w, fieldOf w 10 0 with
  | 0x2E, 0 => ifZero r.toNat (execTstart th a b)
  | 0x2E, 1 => ifZero (r.toNat + b.toNat) (execTstop th a)
  | 0x2E, 2 => listed (execTset th r a b)
  | 0x2E, 3 => listed (execTget th r a b)
  | 0x2E, 4 => ifZero b.toNat (execRecv th r a)
  | 0x2E, 5 => ifZero (r.toNat + a.toNat + b.toNat) (execYield th)
  | 0x2E, 6 => ifZero b.toNat (execEvwait th r a)
  | 0x2E, 7 => ifZero r.toNat (execSig th a b)
  | 0x2E, 8 => ifZero (r.toNat + a.toNat + b.toNat) (execHalt th)
  | 0x2F, 0 => ifZero a.toNat (execMfsr th r b)
  | 0x2F, 1 => ifZero r.toNat (execMtsr th a b)
  | 0x2F, 2 => ifZero (a.toNat + nHi) (execMfsh th r n)
  | 0x2F, 3 => ifZero (r.toNat + nHi) (execMtsh th a n)
  | 0x2F, 4 => ifZero nHi (execShadd th r a n)
  | 0x2F, 5 => ifZero (r.toNat + a.toNat) (execFence th b)
  | 0x2F, 6 => ifZero (a.toNat + b.toNat) (execRnd th r)
  | 0x2F, 7 => ifZero (r.toNat + b.toNat) (execTrap th a)
  | _, _ => none

/-- The instruction that the OP and FN of a word name (R110), if they are listed, beside the fields it does not use. -/
def listedWord (th : Nat) (w : Word) : Option (Nat × (State → Res)) :=
  let op := fOp w
  if op = 0 then runInt th w
  else if op ≤ 0x0C then runImm th w
  else if 0x10 ≤ op ∧ op ≤ 0x17 then runMem th w
  else if op = 0x18 then runAtomic th w
  else if 0x20 ≤ op ∧ op ≤ 0x27 then runBranch th w
  else if op = 0x28 then runBlock th w
  else if op = 0x2A ∨ op = 0x2B then runUnit th w
  else if op = 0x2C ∨ op = 0x2D then runQueue th w
  else if op = 0x2E ∨ op = 0x2F then runSystem th w
  else none

/-- The instruction that a word encodes (R110); none for an illegal word (R109). -/
def runWord (th : Nat) (w : Word) : Option (State → Res) :=
  match listedWord th w with
  | some (0, m) => some m
  | _ => none

/-- A field that the instruction does not use is nonzero (R109, condition 0x12 of R188). -/
def unusedNonzero (w : Word) : Bool := match listedWord 0 w with | some (n, _) => n != 0 | none => false

/-- A word has format R or X (R108, R110). -/
def formatRX (w : Word) : Bool := [0x00, 0x18, 0x28, 0x2A, 0x2B, 0x2C, 0x2D, 0x2E, 0x2F].contains (fOp w)

/-- A word has format X (R110). -/
def formatX (w : Word) : Bool := [0x28, 0x2A, 0x2B].contains (fOp w)

/-! ## Microwords and nanowords (R185 to R191) -/

/-- The dispatch microaddress of an instruction (R187): OP × 64 + F. -/
def dispatchAddr (w : Word) : BitVec 13 := BitVec.ofNat 13 (fOp w * 64 + (if formatRX w then fieldOf w 5 0 else 0))

/-- Bits [hi:lo] of a nanoword. -/
def nanoField (n : BitVec 128) (hi lo : Nat) : Nat := bits n.toNat hi lo

/-- The address a microword is fetched from: that of the lowest-numbered valid match entry that names it (R190, R191). -/
def matched (m : Tbl Word) (a : BitVec 13) : BitVec 13 :=
  if 0x1C00 ≤ a.toNat then a
  else match m.find? (fun e => decide (e.1 < 64) && e.2.getLsbD 31 && fieldOf e.2 12 0 == a.toNat) with
    | some e => BitVec.ofNat 13 (fieldOf e.2 25 13)
    | none => a

/-- The access size of a load, store or atomic. -/
def wordSize (w : Word) : Nat := if fOp w = 0x18 then 4 else 2 ^ (if fieldOf w 15 14 = 3 then 4 else fieldOf w 15 14)

/-- The space of a load, store or atomic. -/
def wordSpace (w : Word) : MemSpace := spaceOf (BitVec.ofNat 2 (if fOp w = 0x18 then fieldOf w 1 0 else fieldOf w 27 26))

/-- The address that a load, store or atomic names. -/
def State.wordAddr (s : State) (th : Nat) (w : Word) : Nat :=
  let t := s.thread th
  t.spaceAddr (wordSpace w) (t.gr (fRs1 w) + (if fOp w = 0x18 then 0 else sext (fOff14 w)))

/-- The thread that g[rs1] of a thread-control instruction names. -/
def State.wordTarget (s : State) (th : Nat) (w : Word) : Nat := fieldOf ((s.thread th).gr (fRs1 w)) 2 0

/-- The result of the unit that the instruction requests is present (R188): of its round unit, or of another unit. -/
def State.unitDone (s : State) (th : Nat) (w : Word) : Bool :=
  if fOp w = 0x28 then (s.thread th).bBusy == 0 else (s.thread th).look.isSome

/-- The unit that the instruction requests is busy (R188): no round unit is free, both sets of a DMA channel are occupied, the write
FIFO is full, or the fetch of the key is under way. -/
def State.unitBusy (s : State) (th : Nat) (w : Word) : Bool :=
  let t := s.thread th
  if fOp w = 0x2D then
    let c := s.dmaCh (thCluster th * 16 + fieldOf (t.gr (fRs1 w)) 3 0)
    c.act.isSome && c.shd.isSome
  else if fOp w = 0x2A then decide (16 ≤ t.wfifo.length)
  else (s.freeRound (thEngine th)).isNone

/-- A condition of the menu (R188). -/
def State.microCond (s : State) (th : Nat) (w : Word) (c : Nat) : Bool :=
  let t := s.thread th
  let g := t.gr (fRs1 w)
  let target := s.thread (thEngine th * 8 + s.wordTarget th w)
  match c with
  | 0x01 => true
  | 0x02 | 0x03 | 0x04 | 0x05 | 0x06 | 0x07 | 0x08 => Config.aluCondition c s.free
  | 0x09 => s.unitDone th w
  | 0x0A => s.unitBusy th w
  | 0x0B => (s.takeCredit th).isSome
  | 0x0C => (match s.keyUse (thBoard th) g t.inst (fieldOf w 6 0 == 0x21) with | .miss _ => false | _ => true)
  | 0x0D => t.gated
  | 0x0E => t.failed
  | 0x0F => decide (4 ≤ t.handles.length)
  | 0x10 => !t.holds g
  | 0x11 => if formatX w then fieldOf w 6 6 != 0 else formatRX w && fieldOf w 10 6 != 0
  | 0x12 => unusedNonzero w
  | 0x13 => s.wordAddr th w % wordSize w != 0
  | 0x14 => outsideSpace th (wordSpace w) (s.wordAddr th w) (wordSize w)
  | 0x15 => th % 8 == 0
  | 0x16 => !target.isStarted
  | 0x17 => s.wordTarget th w == 0
  | 0x18 => decide (8 ≤ t.posted.length)
  | 0x19 => decide (16 ≤ t.wfifo.length)
  | 0x1A => t.fifo.isEmpty
  | 0x1B => !isMgmt th && th == supervisorOf th
  | 0x1C => isMgmt th
  | 0x1D => target.isStarted
  | _ => false

/-- Condition i of a nanoword; INV0 inverts condition 0 (R185, R187). -/
def State.nanoCond (s : State) (th : Nat) (w : Word) (inv0 : Bool) (n : BitVec 128) (i : Nat) : Bool :=
  s.microCond th w (nanoField n (123 - 5 * i) (119 - 5 * i)) != (inv0 && i == 0)

/-- The low bits that MWAY ORs into NEXT (R187). -/
def State.mwayBits (s : State) (th : Nat) (w : Word) (inv0 : Bool) (n : BitVec 128) : Nat :=
  (List.range (min 4 (nanoField n 103 101))).foldl (fun a i => a + b2n (s.nanoCond th w inv0 n i) * 2 ^ i) 0

/-- The thread goes on at a microaddress. -/
def State.setUpc (s : State) (th : Nat) (a : Nat) : State := s.setThread th { s.thread th with upc := BitVec.ofNat 13 a }

/-- An instruction has taken effect: unless it stalls, the next one dispatches, with an empty micro return stack (R187). -/
def State.dispatched (s : State) (th : Nat) : State :=
  let t := s.thread th
  match t.run with
  | .stalled _ => s
  | _ => s.setThread th { t with mstack := [], instr := none }

/-- The microword acts for its instruction: it requests a unit or a memory operation, or it dispatches the next one (R186, R187).
DEDUCED (log entry 21): the instruction's whole effect, the contract of R189, takes place there. -/
def microActs (n : BitVec 128) : Bool :=
  nanoField n 127 124 == 4 || (decide (nanoField n 127 124 ≤ 5) && (nanoField n 57 50 != 0 || nanoField n 80 76 != 0))

/-- A thread that the microword left in a long stall reports its class (R105, R186). -/
def State.report (s : State) (th : Nat) (n : BitVec 128) : State :=
  match (s.thread th).run with
  | .stalled _ => s.setThread th { s.thread th with stallCls := BitVec.ofNat 4 (nanoField n 70 67) }
  | _ => s

/-- The effect of the thread's instruction (R109, R189). -/
def State.runInstr (s : State) (th : Nat) (w : Word) : Res :=
  match runWord th w with
  | none => done (s.fault th fcIllegal)
  | some m =>
    match m s with
    | .next s => done (s.dispatched th)
    | r => r

/-- One microword after its fault check (R187). -/
def State.microStep (s : State) (th : Nat) (w : Word) (inv0 : Bool) (next : Nat) (n : BitVec 128) : Res :=
  let t := s.thread th
  match nanoField n 127 124 with
  | 0x0 => done (s.setUpc th next)
  | 0x1 => done (s.setUpc th (next ||| s.mwayBits th w inv0 n))
  | 0x2 => done (s.setThread th { t with upc := BitVec.ofNat 13 next, mstack := ((t.upc + 1) :: t.mstack).take 4 })
  | 0x3 =>
    (match t.mstack with
    | [] => done (s.fault th fcIllegal)
    | a :: rest => done (s.setThread th { t with upc := a, mstack := rest }))
  | 0x5 =>
    if s.nanoCond th w inv0 n 0 then done (s.setUpc th next)
    else if nanoField n 70 67 = 0 then done s
    else done (s.stall th .micro)
  | _ => done (s.fault th fcIllegal)

/-- An engine's next microword for the thread, whose instruction word is w (R185, R189, R191). -/
def State.microword (s : State) (th : Nat) (w : Word) : Res :=
  let m := s.mcStore (thCluster th)
  let a := matched m.mtch (s.thread th).upc
  let mw := (Tbl.get (fun _ => (0 : BitVec 24)) m.micro a.toNat).toNat
  let n := Tbl.get (fun _ => (0 : BitVec 128)) m.nano (bits mw 23 14)
  let inv0 := bit mw 13
  let s := (s.setUpc th a.toNat).draw
  if nanoField n 66 66 = 1 ∧ s.nanoCond th w inv0 n 0 = true then done (s.fault th (nanoField n 65 62))
  else
    match (if microActs n then s.runInstr th w else s.microStep th w inv0 (bits mw 12 0) n) with
    | .next s => done (s.report th n)
    | r => r

/-- The WAIT microword at which the thread stalls has its condition (R187). -/
def State.microMet (s : State) (th : Nat) : Bool :=
  let m := s.mcStore (thCluster th)
  let mw := (Tbl.get (fun _ => (0 : BitVec 24)) m.micro (s.thread th).upc.toNat).toNat
  match (s.thread th).instr with
  | some (_, w) => s.nanoCond th w (bit mw 13) (Tbl.get (fun _ => (0 : BitVec 128)) m.nano (bits mw 23 14)) 0
  | none => true

/-- The word at the thread's pc: of its cluster's program store, with its ECC (R153); of firmware on a management engine. -/
def State.fetchWord (s : State) (th : Nat) : Option Word × State :=
  let i := (s.thread th).pc.toNat / 4
  if isMgmt th then (some (Config.firmwareWord (thEngine th) (i * 4)), s)
  else
    let cl := thCluster th
    let e := s.eccRead (clusterGroups cl) (progAddr cl i) 4 false
    (if e.1 then none else some (s.progWord cl i), e.2)

/-- A new instruction is fetched: its word, and the upc at its dispatch address (R153, R187). -/
def State.fetchNew (s : State) (th : Nat) : Option Word × State :=
  match s.fetchWord th with
  | (none, s) => (none, s)
  | (some w, s) =>
    (some w, s.setThread th { s.thread th with upc := dispatchAddr w, mstack := [], instr := some ((s.thread th).pc, w) })

/-- The instruction whose microwords run, or the one at pc, newly fetched. -/
def State.dispatch (s : State) (th : Nat) : Option Word × State :=
  match (s.thread th).instr with
  | some (pc, w) => if pc = (s.thread th).pc then (some w, s) else s.fetchNew th
  | none => s.fetchNew th

/-- CYCLE (R183): one microword of the thread the engine issues from; a management engine executes the whole instruction. -/
def execCycle (eng : Nat) (s : State) : Res :=
  let th := eng * 8 + Tbl.get (fun _ => 0) s.eng.cur eng % 8
  if s.canIssue th = false then done s
  else if (s.thread th).past then done (s.fault th fcIaddr)
  else match s.dispatch th with
    | (none, s) => done (s.fault th fcData)
    | (some w, s) => if isMgmt th then s.runInstr th w else s.microword th w

/-- LONG_STALL_END (R106): the condition of the stall is met: a unit's answer is delivered, or the thread is ready again. -/
def execLongStallEnd (th : Nat) (s : State) : Res :=
  match (s.thread th).run with
  | .stalled w =>
    if s.waitOver th w || (w == .micro && s.microMet th) then
      match w, (s.thread th).look with
      | .unit, some a => done (s.deliver th a)
      | .hnew rd n taint, _ => done (s.hnewEnd th rd n taint)
      | _, _ => done (s.makeReady th)
    else done s
  | _ => done s

end Sys2Proof.Machine
end

