-- ==== Sys2Proof/Machine/Fence.lean ====
section
/-! DEFINITION. CHIPLET_FENCE (R14, R175, R262, R345, R558): a fence by a start-up test or by the manager. -/
namespace Sys2Proof.Machine

/-- The threads of a Board with a record. -/
def State.boardThreads (s : State) (b : Nat) : List Nat :=
  (s.eng.thr.filter (fun e => !isMgmt e.1 && thBoard e.1 == b)).map (fun e => e.1)

/-- Before the manager's fence of a Board every open gate on it fails, and the zero overwrites are completed (R345). -/
def State.fenceGates (s : State) (b : Nat) : State :=
  let l := s.boardThreads b
  let s := l.foldl State.gateFail s
  let s := l.foldl State.gatedZero s
  ((List.range 128).map (fun n => b * 128 + n)).foldl (fun s ch => s.gatedTransferZero ch 0) s

/-- CHIPLET_FENCE (R14, R558): causes 1 to 4 are tests of start-up, 5 is the manager. -/
def execChipletFence (chiplet cause : BitVec 4) (s : State) : Res :=
  let c := chiplet.toNat
  let w := cause.toNat
  if s.trust.power ≠ .on ∨ fenceable c = false ∨ s.isFenced c = true ∨ w = 0 ∨ 5 < w then done s
  else
    let s := if w = 5 ∧ 8 ≤ c then s.fenceGates (c - 8) else s
    done ((s.fenceMark c w (if w = 5 then 2 else 1)).fenceEffect c)

end Sys2Proof.Machine
end

