-- ==== Sys2Proof/Machine/Firings.lean ====
section
/-! DEFINITION. Firings of the Tide Table at the units (R73, R75): Dredge, Sounding, memory scrub (R545, R546), Slack water, and
the start of a pending firing. -/
namespace Sys2Proof.Machine

/-! ## Memory scrub (R545, R546) -/

/-- The bytes one firing checks: `base` × 2^a, twice that when deferred. -/
def scrubAmount (base : Nat) (f : Firing) : Nat := base * 2 ^ bits f.arg.toNat 3 0 * (if f.deferred then 2 else 1)

/-- An address lies in the next `amount` bytes from a cursor, with wrap. -/
def inSweep (cursor amount size x : Nat) : Bool := decide (size ≤ amount) || decide ((x + size - cursor) % size < amount)

/-- The scrub cursor of a unit. -/
def State.scrubAt (s : State) (u : Unit_) : Nat := Tbl.get (fun _ => 0) s.plat.scrub (unitCode u)

/-- The cursor of a unit moves on, with wrap. -/
def State.scrubMove (s : State) (u : Unit_) (amount size : Nat) : State :=
  s.putPlat { s.plat with
    scrub := Tbl.set (fun _ => 0) s.plat.scrub (unitCode u) ((s.scrubAt u + amount) % size) }

/-- A Bank's controller finds an erroneous word: an uncorrectable one poisons its line (R174, R546). -/
def State.scrubHbm (s : State) (e : Nat × Nat) : State :=
  let a := e.1 % 2 ^ 48
  let s := State.eccFound true s e
  if e.2 % 2 = 1 then s
  else
    let line := lineOf (a - hbmBase)
    ((s.eccWipe hbmGroups (hbmBase + line * 64) 64).dropCopies line).poisonLine line

/-- The scrub of one HBM stack: only while HBM is mapped. -/
def State.scrubStack (s : State) (k : BitVec 2) (f : Firing) : State :=
  if s.hbmMapped = false then s
  else
    let size := hbmSize / 4
    let n := scrubAmount 0x40000 f
    let c := s.scrubAt (.hbm k)
    let l := s.plat.ecc.filter (fun e => hbmGroups.contains (e.1 / 2 ^ 48)
      && hbmStack (e.1 % 2 ^ 48 - hbmBase) == k.toNat && inSweep c n size (hbmWithin (e.1 % 2 ^ 48 - hbmBase)))
    (l.foldl State.scrubHbm s).scrubMove (.hbm k) n size

/-- The scrub of a cluster's memory. -/
def State.scrubCluster (s : State) (cl : BitVec 6) (f : Firing) : State :=
  let n := scrubAmount 0x1000 f
  let c := s.scrubAt (.clusterMem cl)
  let l := (s.eccIn (clusterGroups cl.toNat) 0 0x400000).filter (fun e => inSweep c n 0x400000 (e.1 % 2 ^ 48))
  (l.foldl (State.eccFound true) s).scrubMove (.clusterMem cl) n 0x400000

/-- The scrub of the cell buffer. -/
def State.scrubCells (s : State) (f : Firing) : State :=
  let n := scrubAmount 0x10000 f
  let c := s.scrubAt .cells
  let l := s.plat.ecc.filter (fun e => cellGroups.contains (e.1 / 2 ^ 48)
    && inSweep c n (cellTotal * 256) (e.1 % 2 ^ 48))
  (l.foldl (State.eccFound true) s).scrubMove .cells n (cellTotal * 256)

/-- The work of a class 0x3 firing at a unit: all of it in one command. -/
def State.scrub (s : State) (u : Unit_) (f : Firing) : State :=
  match u with
  | .hbm k => s.scrubStack k f
  | .clusterMem cl => s.scrubCluster cl f
  | .cells => s.scrubCells f
  | _ => s

/-! ## A unit begins the work of a firing -/

/-- The class of firing a unit works (R72). -/
def unitClass : Unit_ → Nat
  | .dice _ => 1
  | .auditor _ => 2
  | .hbm _ | .clusterMem _ | .cells => 3
  | .microcode _ => 4
  | .counters _ => 5
  | .vault | .keyCache _ => 6
  | .netMac _ | .attachMac _ => 7
  | .gates => 8

/-- The work of a firing that begins: Dredge, Sounding and a refresh that must wait go on by events of their own; every other
work ends in its own clock. -/
def State.beginWork (s : State) (u : Unit_) (f : Firing) : State :=
  match u with
  | .dice b =>
    let s := s.dredgeBegin b.toNat f
    if s.dredgeLeft b.toNat = 0 then s.workEnd u 1 else s
  | .auditor k => s.soundBegin k.toNat
  | .hbm _ | .clusterMem _ | .cells => (s.scrub u f).workEnd u 3
  | .microcode cl => s.mcWork cl.toNat
  | .counters c => (s.snapshot c.toNat f).workEnd u 5
  | .vault => (s.keyEpoch f).workEnd u 6
  | .keyCache b => (State.epochMark (bit f.arg.toNat 0) s b.toNat).workEnd u 6
  | .netMac p => (s.slackFiring p.toNat f).workEnd u 7
  | .attachMac a => (s.slackFiring (256 + a.toNat) f).workEnd u 7
  | .gates => (s.gateFiring f).workEnd u 8

/-- A firing that was sent reaches a unit at its boundary (R73, R74, R75): it starts, or waits. -/
def State.fireAt (s : State) (u : Unit_) (f : Firing) : State :=
  let cls := unitClass u
  if s.fireDue u cls f then
    let s := s.fireTake u cls f
    let f := firingActs cls f
    let start := s.fireStarts u cls
    let s := s.fireArrive u cls f
    if start then s.beginWork u f else s
  else s

/-- DREDGE_FIRING (R230). -/
def execDredgeFiring (board : BitVec 3) (f : Firing) (s : State) : Res := done (s.fireAt (.dice board) f)

/-- SOUNDING_FIRING (R233). -/
def execSoundingFiring (bank : BitVec 2) (f : Firing) (s : State) : Res := done (s.fireAt (.auditor bank) f)

/-- MEMORY_SCRUB_FIRING (R545): a unit that scrubs. -/
def execMemoryScrubFiring (u : Unit_) (f : Firing) (s : State) : Res := done (if unitClass u = 3 then s.fireAt u f else s)

/-- The clusters of a Board that a class 0x4 firing selects (R201). -/
def mcSelected (board : Nat) (f : Firing) : List Nat :=
  let m := bits f.arg.toNat 7 0
  ((List.range 8).filter (fun c => m == 0 || bit m c)).map (fun c => board * 8 + c)

/-- MICROCODE_REFRESH (R75, R201 to R203). -/
def execMicrocodeRefresh (board : BitVec 3) (f : Firing) (s : State) : Res :=
  done ((mcSelected board.toNat f).foldl (fun s cl => s.fireAt (.microcode (BitVec.ofNat 6 cl)) f) s)

/-- COUNTER_SNAPSHOT (R549): class 0x5; the work ends in its own clock. -/
def execCounterSnapshot (chiplet : BitVec 4) (f : Firing) (s : State) : Res := done (s.fireAt (.counters chiplet) f)

/-- KEY_EPOCH (R75, R506): Headwater's work of the firing ends in its own clock. -/
def execKeyEpoch (f : Firing) (s : State) : Res := done (s.fireAt .vault f)

/-- SLACK_WATER_FIRING (R482). -/
def execSlackWaterFiring (link : MacPort) (f : Firing) (s : State) : Res :=
  done (match link with
    | .net p => s.fireAt (.netMac p) f
    | .attach a => s.fireAt (.attachMac a) f)

/-- GATE_LIST_CHANGE_FIRING (R75, R306): the work of the firing ends in its own clock. -/
def execGateListChangeFiring (f : Firing) (s : State) : Res := done (s.fireAt .gates f)

/-- PENDING_FIRING_START (R75): the previous firing of the class has ended, and one is pending. -/
def execPendingFiringStart (u : Unit_) (cls : BitVec 4) (s : State) : Res :=
  let w := s.unitWork u cls.toNat
  match w.work, w.pend with
  | none, some f =>
    done (if unitClass u = cls.toNat ∧ s.isFenced (unitChip u) = false then
      (s.startPending u cls.toNat).beginWork u f else s)
  | _, _ => done s

/-! ## Background over foreground (R81) -/

/-- A class has background requests on a unit: work of its own there, or, on a Dice partition, an audit at work. -/
def State.backgroundOf (s : State) (u : Unit_) (cls : Nat) : Bool :=
  (s.unitWork u cls).work.isSome
    || (cls == 2 && (match u with | .dice _ => (List.range 4).any (fun k => (s.auditOf k).isSome) | _ => false))

/-- The class after `c` in rotating order among classes 1 to 8 that has background requests on the unit and no ford window (R81). -/
def State.nextBackground (s : State) (u : Unit_) (c : Nat) : Option Nat :=
  ((List.range 8).map (fun k => (c + k) % 8 + 1)).find? (fun k =>
    s.backgroundOf u k && (match s.fordWin u with | some w => w.cls != k | none => true))

/-- The access that a grant makes: a Dredge visit on a Dice partition; an access of an audit is the audit's own command, and every
other class does the work of a firing in one command. -/
def State.grantAccess (s : State) (u : Unit_) (cls : Nat) : State :=
  match u with
  | .dice b => if cls = 1 then s.dredgeVisit b else s
  | _ => s

/-- BACKGROUND_STARVATION_GRANT (R81): the next class in rotating order takes one clock over the foreground. -/
def execBackgroundStarvationGrant (u : Unit_) (s : State) : Res :=
  match s.nextBackground u (Tbl.get (fun _ => 0) s.tide.bgLast (unitCode u)) with
  | none => done s
  | some c => done ((s.putTide { s.tide with
      bgLast := Tbl.set (fun _ => 0) s.tide.bgLast (unitCode u) c
      bgGrants := Tbl.set (fun _ => 0) s.tide.bgGrants (unitCode u) (Tbl.get (fun _ => 0) s.tide.bgGrants (unitCode u) + 1)
      }).grantAccess u c)

end Sys2Proof.Machine
end

