-- ==== Sys2Proof/Machine/Spdm.lean ====
section
/-! DEFINITION. DOE and SPDM: Discovery, versions, and the measurements (R393, R521, R522).  The message formats of DMTF SPDM and of DOE
are PRESUMED (log entry 70). -/
namespace Sys2Proof.Machine

/-! ## Measurements (R522) -/

/-- The content of a measurement.  DESIGN CHOICE (log entry 70): the slot follows the firmware as one byte, the copies are whole, and with
no slot in use the firmware is empty. -/
def State.measured (s : State) (i : Nat) : List Byte :=
  if i = 1 then
    let b := s.fld F.HDW_BOOT_STAT.SLOT 0
    if s.trust.slot then s.flashBytes (flashSlot b + 0x1000) (s.slotField b 8 4) ++ [BitVec.ofNat 8 b] else []
  else if i = 4 then
    beBytes 4 (s.fld F.HDW_LC_STAT.LC 0 + s.fld F.HDW_LC_STAT.DEBUG 0 * 4 + s.fld F.HDW_LC_STAT.INTRUDED 0 * 16)
  else if i = 5 then
    (List.range 16).flatMap (fun r => match Tbl.get (fun _ => none) s.trust.inUse r with | some c => s.copyBytes r c | none => [])
  else
    beBytes 8 Config.romIdent.toNat ++ (List.range 3).flatMap (fun k =>
      sha384 (beBytes 48 (Config.wenfaliKey k).1 ++ beBytes 48 (Config.wenfaliKey k).2))

/-- Measurement i, 1 to 6 (R522): while an apply is at work the master copy's patch is the old one. -/
def State.measurement (s : State) (i : Nat) : List Byte :=
  if i = 2 then s.micro.master.sums.1
  else if i = 3 then (s.micro.old.getD s.micro.master).sums.2
  else sha384 (s.measured i)

/-- The block of measurement i in a MEASUREMENTS answer: a raw-free DMTF digest of 48 bytes. -/
def State.measBlock (s : State) (i : Nat) : List Byte :=
  [BitVec.ofNat 8 i, 1] ++ leBytes 2 51 ++ [if i = 6 then 0 else if i = 4 ∨ i = 5 then 3 else 1] ++ leBytes 2 48 ++ s.measurement i

/-! ## SPDM (R393, R521) -/

/-- The blocks that a GET_MEASUREMENTS asks for: all for 0xFF, none for 0, else one. -/
def measAsked (op : Nat) : List Nat := if op = 0xFF then [1, 2, 3, 4, 5, 6] else if 1 ≤ op ∧ op ≤ 6 then [op] else []

/-- The certificate chain of an SPDM slot: 0 the DIK chain of record 32, 1 record 19 (R509, R521). -/
def State.spdmChain (s : State) (slot : Nat) : Option (List Byte) :=
  if slot = 0 then s.record 32 else if slot = 1 then s.record 19 else none

/-- The slots with a chain, as a mask. -/
def State.spdmSlots (s : State) : Nat := b2n (s.spdmChain 0).isSome + b2n (s.spdmChain 1).isSome * 2

/-- An ERROR answer. -/
def spdmError (ver err data : Nat) : List Byte := [BitVec.ofNat 8 ver, 0x7F, BitVec.ofNat 8 err, BitVec.ofNat 8 data]

/-- CAPABILITIES (R521): CERT_CAP, CHAL_CAP and MEAS_CAP with signature, and no other. -/
def spdmCaps (ver : Nat) : List Byte :=
  [BitVec.ofNat 8 ver, 0x61, 0, 0, 0, 0, 0, 0] ++ leBytes 4 0x16 ++ leBytes 4 4096 ++ leBytes 4 4096

/-- ALGORITHMS (R521): TPM_ALG_ECDSA_ECC_NIST_P384 and SHA-384. -/
def spdmAlgs (ver : Nat) : List Byte :=
  [BitVec.ofNat 8 ver, 0x63, 0, 0] ++ leBytes 2 36 ++ [1, 0] ++ leBytes 4 4 ++ leBytes 4 0x80 ++ leBytes 4 2 ++ List.replicate 16 0

/-- CERTIFICATE: a portion of a slot's chain. -/
def State.spdmCert (s : State) (ver : Nat) (m : List Byte) : List Byte :=
  match s.spdmChain (rdN m 2 1) with
  | none => spdmError ver 1 0
  | some l =>
    let part := (l.drop (leNat ((m.drop 4).take 2))).take (leNat ((m.drop 6).take 2))
    [BitVec.ofNat 8 ver, 0x02] ++ (m.drop 2).take 1 ++ [0] ++ leBytes 2 part.length
      ++ leBytes 2 (l.length - leNat ((m.drop 4).take 2) - part.length) ++ part

/-- CHALLENGE_AUTH: the slot, the mask and the hash of its chain; the rest is `Config.spdmAnswer`. -/
def State.spdmAuth (s : State) (ver : Nat) (m : List Byte) : List Byte :=
  match s.spdmChain (rdN m 2 1) with
  | none => spdmError ver 1 0
  | some l => [BitVec.ofNat 8 ver, 0x03] ++ (m.drop 2).take 1 ++ [BitVec.ofNat 8 s.spdmSlots] ++ sha384 l ++ Config.spdmAnswer s.free m

/-- MEASUREMENTS (R522): the blocks asked for, as the state is when it is built. -/
def State.spdmMeas (s : State) (ver : Nat) (m : List Byte) : List Byte :=
  let l := measAsked (rdN m 3 1)
  let r := l.flatMap s.measBlock
  [BitVec.ofNat 8 ver, 0x60, if rdN m 3 1 = 0 then 6 else 0, 0, BitVec.ofNat 8 l.length] ++ leBytes 3 r.length ++ r
    ++ Config.spdmAnswer s.free m

/-- The answer to an SPDM message (R521, R522): VERSION names 1.2 and 1.3; KEY_EXCHANGE, PSK_EXCHANGE, mutual authentication and every
other request are not supported. -/
def State.spdm (s : State) (m : List Byte) : List Byte :=
  let ver := rdN m 0 1
  match rdN m 1 1 with
  | 0x84 => [0x10, 0x04, 0, 0, 0, 2] ++ leBytes 2 0x1200 ++ leBytes 2 0x1300
  | 0xE1 => spdmCaps ver
  | 0xE3 => spdmAlgs ver
  | 0x81 => [BitVec.ofNat 8 ver, 0x01, 0, BitVec.ofNat 8 s.spdmSlots]
      ++ (List.range 2).flatMap (fun i => match s.spdmChain i with | some l => sha384 l | none => [])
  | 0x82 => s.spdmCert ver m
  | 0x83 => s.spdmAuth ver m
  | 0xE0 => s.spdmMeas ver m
  | c => spdmError ver 7 c

/-! ## DOE (R393) -/

/-- The words of bytes, the lowest first; the last is filled with zeros. -/
def packWords (l : List Byte) : List Word :=
  (List.range ((l.length + 3) / 4)).map (fun i => BitVec.ofNat 32 (leNat (fitBytes 4 ((l.drop (4 * i)).take 4))))

/-- The answer to a DOE Discovery request for an index: vendor 0x0001, and object type 0 (Discovery) or 1 (CMA/SPDM). -/
def doeDiscovery (index : Nat) : List Word :=
  [0x00000001, 3, BitVec.ofNat 32 (1 + (if index = 0 then 0 else 1) * 2 ^ 16 + (if index = 0 then 1 else 0) * 2 ^ 24)]

/-- A data object around the answer to the SPDM message of an object. -/
def State.doeSpdm (s : State) (obj : List Word) : List Word :=
  let l := packWords (s.spdm ((obj.drop 2).flatMap (fun w => leBytes 4 w.toNat)))
  [0x00010001, BitVec.ofNat 32 (l.length + 2)] ++ l

/-- DOE_OBJECT (R393): a Discovery or CMA/SPDM object of at most 1,024 DW is answered; any other is dropped. -/
def execDoeObject (ep : BitVec 5) (fn : BitVec 11) (obj : List (BitVec 32)) (s : State) : Res :=
  let e := ep.toNat
  let f := fn.toNat
  let h := (obj.getD 0 0).toNat
  done (s.configReq e f (fun s =>
    if (f ≠ 0 ∧ f ≠ pf1Fn) ∨ 1024 < obj.length ∨ obj.length < 2 ∨ bits h 15 0 ≠ 1 then s
    else if bits h 23 16 = 0 then s.setDoe (fnKey e f) (doeDiscovery (fieldOf (obj.getD 2 0) 7 0))
    else if bits h 23 16 = 1 then (s.setDoe (fnKey e f) (s.doeSpdm obj)).draw
    else s))

/-- DOE_ABORT (R393): the object in progress is discarded. -/
def execDoeAbort (ep : BitVec 5) (fn : BitVec 11) (s : State) : Res :=
  done (s.configReq ep.toNat fn.toNat (fun s => s.setDoe (fnKey ep.toNat fn.toNat) []))

end Sys2Proof.Machine
end

