-- ==== Sys2Proof/Machine/Dispatch.lean ====
section
/-! DEFINITION. Dispatch: the one map from commands to their meanings. -/
namespace Sys2Proof.Machine

def exec (i : Instr) (s : State) : Host.Outcome State Fault Refusal :=
  match i with
  | .moduleColdReset place fuses tests => Sys2Proof.Machine.execModuleColdReset place fuses tests s
  | .moduleWarmReset tests => Sys2Proof.Machine.execModuleWarmReset tests s
  | .chipletFence chiplet cause => Sys2Proof.Machine.execChipletFence chiplet cause s
  | .endpointReset ep => Sys2Proof.Machine.execEndpointReset ep s
  | .functionResetEnd inst => Sys2Proof.Machine.execFunctionResetEnd inst s
  | .staleVectorDrop inst => Sys2Proof.Machine.execStaleVectorDrop inst s
  | .slotQuarantineEnd inst => Sys2Proof.Machine.execSlotQuarantineEnd inst s
  | .reloadQuiesceLimit cl mismatch => Sys2Proof.Machine.execReloadQuiesceLimit cl mismatch s
  | .quantityLowRead r ix => Sys2Proof.Machine.execQuantityLowRead r ix s
  | .quantityLowWrite r ix v => Sys2Proof.Machine.execQuantityLowWrite r ix v s
  | .quantityHighWrite r ix v => Sys2Proof.Machine.execQuantityHighWrite r ix v s
  | .rcFieldRead r ix events => Sys2Proof.Machine.execRcFieldRead r ix events s
  | .registerWrite who r ix v => Sys2Proof.Machine.execRegisterWrite who r ix v s
  | .unassignedAccess who addr write => Sys2Proof.Machine.execUnassignedAccess who addr write s
  | .meshFlitRetry chiplet => Sys2Proof.Machine.execMeshFlitRetry chiplet s
  | .meshLinkFail chiplet => Sys2Proof.Machine.execMeshLinkFail chiplet s
  | .hbmTrainingDone trained => Sys2Proof.Machine.execHbmTrainingDone trained s
  | .serviceEntry ms => Sys2Proof.Machine.execServiceEntry ms s
  | .supplyLoss => Sys2Proof.Machine.execSupplyLoss s
  | .steerEntryWrite bank entry board => Sys2Proof.Machine.execSteerEntryWrite bank entry board s
  | .steerEntryMove bank entry => Sys2Proof.Machine.execSteerEntryMove bank entry s
  | .steerBalanceInterval bank => Sys2Proof.Machine.execSteerBalanceInterval bank s
  | .polCtlWrite p v => Sys2Proof.Machine.execPolCtlWrite p v s
  | .policyManualApply p => Sys2Proof.Machine.execPolicyManualApply p s
  | .admissionAdapt => Sys2Proof.Machine.execAdmissionAdapt s
  | .ecnAdapt => Sys2Proof.Machine.execEcnAdapt s
  | .diceHitLimitAdapt board => Sys2Proof.Machine.execDiceHitLimitAdapt board s
  | .dredgeSpeedAdapt board => Sys2Proof.Machine.execDredgeSpeedAdapt board s
  | .slackSkipAdapt link permille => Sys2Proof.Machine.execSlackSkipAdapt link permille s
  | .powerCapAdapt tj tc => Sys2Proof.Machine.execPowerCapAdapt tj tc s
  | .timeAdvance => Sys2Proof.Machine.execTimeAdvance s
  | .ppsEdge => Sys2Proof.Machine.execPpsEdge s
  | .ppsEdgeMissing => Sys2Proof.Machine.execPpsEdgeMissing s
  | .tref10Measure ppb => Sys2Proof.Machine.execTref10Measure ppb s
  | .tref10EdgeTimeout => Sys2Proof.Machine.execTref10EdgeTimeout s
  | .ppsOutRise => Sys2Proof.Machine.execPpsOutRise s
  | .ppsOutFall => Sys2Proof.Machine.execPpsOutFall s
  | .ptpMessageReceive port domain outcome => Sys2Proof.Machine.execPtpMessageReceive port domain outcome s
  | .announceReceiptTimeout port => Sys2Proof.Machine.execAnnounceReceiptTimeout port s
  | .phaseMeasurement src offset freq => Sys2Proof.Machine.execPhaseMeasurement src offset freq s
  | .holdoverSecond => Sys2Proof.Machine.execHoldoverSecond s
  | .timeSet => Sys2Proof.Machine.execTimeSet s
  | .timeCorrectionDue src wanted => Sys2Proof.Machine.execTimeCorrectionDue src wanted s
  | .tideBoundary => Sys2Proof.Machine.execTideBoundary s
  | .ttbCtlWrite v => Sys2Proof.Machine.execTtbCtlWrite v s
  | .ttbSlotW1Write slot v => Sys2Proof.Machine.execTtbSlotW1Write slot v s
  | .ttbSlotW0Write who slot v => Sys2Proof.Machine.execTtbSlotW0Write who slot v s
  | .pendingFiringStart u cls => Sys2Proof.Machine.execPendingFiringStart u cls s
  | .fordWindowClose u => Sys2Proof.Machine.execFordWindowClose u s
  | .backgroundStarvationGrant u => Sys2Proof.Machine.execBackgroundStarvationGrant u s
  | .dredgeFiring board f => Sys2Proof.Machine.execDredgeFiring board f s
  | .dredgeBucketVisit board => Sys2Proof.Machine.execDredgeBucketVisit board s
  | .soundingFiring bank f => Sys2Proof.Machine.execSoundingFiring bank f s
  | .auditEpochFlip table board head => Sys2Proof.Machine.execAuditEpochFlip table board head s
  | .soundingRepair bank gen rec => Sys2Proof.Machine.execSoundingRepair bank gen rec s
  | .soundingAuditEnd bank head => Sys2Proof.Machine.execSoundingAuditEnd bank head s
  | .memoryScrubFiring u f => Sys2Proof.Machine.execMemoryScrubFiring u f s
  | .microcodeRefresh board f => Sys2Proof.Machine.execMicrocodeRefresh board f s
  | .counterSnapshot chiplet f => Sys2Proof.Machine.execCounterSnapshot chiplet f s
  | .keyEpoch f => Sys2Proof.Machine.execKeyEpoch f s
  | .slackWaterFiring link f => Sys2Proof.Machine.execSlackWaterFiring link f s
  | .gateListChangeFiring f => Sys2Proof.Machine.execGateListChangeFiring f s
  | .cycle eng => Sys2Proof.Machine.execCycle eng s
  | .longStallEnd th => Sys2Proof.Machine.execLongStallEnd th s
  | .add th rd rs1 rs2 => Sys2Proof.Machine.execAdd th rd rs1 rs2 s
  | .sub th rd rs1 rs2 => Sys2Proof.Machine.execSub th rd rs1 rs2 s
  | .and th rd rs1 rs2 => Sys2Proof.Machine.execAnd th rd rs1 rs2 s
  | .or th rd rs1 rs2 => Sys2Proof.Machine.execOr th rd rs1 rs2 s
  | .xor th rd rs1 rs2 => Sys2Proof.Machine.execXor th rd rs1 rs2 s
  | .sll th rd rs1 rs2 => Sys2Proof.Machine.execSll th rd rs1 rs2 s
  | .srl th rd rs1 rs2 => Sys2Proof.Machine.execSrl th rd rs1 rs2 s
  | .sra th rd rs1 rs2 => Sys2Proof.Machine.execSra th rd rs1 rs2 s
  | .slt th rd rs1 rs2 => Sys2Proof.Machine.execSlt th rd rs1 rs2 s
  | .sltu th rd rs1 rs2 => Sys2Proof.Machine.execSltu th rd rs1 rs2 s
  | .min th rd rs1 rs2 => Sys2Proof.Machine.execMin th rd rs1 rs2 s
  | .max th rd rs1 rs2 => Sys2Proof.Machine.execMax th rd rs1 rs2 s
  | .minu th rd rs1 rs2 => Sys2Proof.Machine.execMinu th rd rs1 rs2 s
  | .maxu th rd rs1 rs2 => Sys2Proof.Machine.execMaxu th rd rs1 rs2 s
  | .mul th rd rs1 rs2 => Sys2Proof.Machine.execMul th rd rs1 rs2 s
  | .mulhu th rd rs1 rs2 => Sys2Proof.Machine.execMulhu th rd rs1 rs2 s
  | .mulh th rd rs1 rs2 => Sys2Proof.Machine.execMulh th rd rs1 rs2 s
  | .clz th rd rs1 => Sys2Proof.Machine.execClz th rd rs1 s
  | .popc th rd rs1 => Sys2Proof.Machine.execPopc th rd rs1 s
  | .rev8 th rd rs1 => Sys2Proof.Machine.execRev8 th rd rs1 s
  | .sextb th rd rs1 => Sys2Proof.Machine.execSextb th rd rs1 s
  | .sexth th rd rs1 => Sys2Proof.Machine.execSexth th rd rs1 s
  | .add1c th rd rs1 rs2 => Sys2Proof.Machine.execAdd1c th rd rs1 rs2 s
  | .crcw th rd rs1 rs2 => Sys2Proof.Machine.execCrcw th rd rs1 rs2 s
  | .addi th rd rs1 imm => Sys2Proof.Machine.execAddi th rd rs1 imm s
  | .andi th rd rs1 imm => Sys2Proof.Machine.execAndi th rd rs1 imm s
  | .ori th rd rs1 imm => Sys2Proof.Machine.execOri th rd rs1 imm s
  | .xori th rd rs1 imm => Sys2Proof.Machine.execXori th rd rs1 imm s
  | .slti th rd rs1 imm => Sys2Proof.Machine.execSlti th rd rs1 imm s
  | .sltiu th rd rs1 imm => Sys2Proof.Machine.execSltiu th rd rs1 imm s
  | .lui th rd imm => Sys2Proof.Machine.execLui th rd imm s
  | .slli th rd rs1 sh => Sys2Proof.Machine.execSlli th rd rs1 sh s
  | .srli th rd rs1 sh => Sys2Proof.Machine.execSrli th rd rs1 sh s
  | .srai th rd rs1 sh => Sys2Proof.Machine.execSrai th rd rs1 sh s
  | .ext th rd rs1 pos len1 => Sys2Proof.Machine.execExt th rd rs1 pos len1 s
  | .ins th rd rs1 pos len1 => Sys2Proof.Machine.execIns th rd rs1 pos len1 s
  | .beq th rs1 rs2 off => Sys2Proof.Machine.execBeq th rs1 rs2 off s
  | .bne th rs1 rs2 off => Sys2Proof.Machine.execBne th rs1 rs2 off s
  | .blt th rs1 rs2 off => Sys2Proof.Machine.execBlt th rs1 rs2 off s
  | .bge th rs1 rs2 off => Sys2Proof.Machine.execBge th rs1 rs2 off s
  | .bltu th rs1 rs2 off => Sys2Proof.Machine.execBltu th rs1 rs2 off s
  | .bgeu th rs1 rs2 off => Sys2Proof.Machine.execBgeu th rs1 rs2 off s
  | .jal th off => Sys2Proof.Machine.execJal th off s
  | .jalr th rd rs1 imm => Sys2Proof.Machine.execJalr th rd rs1 imm s
  | .ldb th sp rt rs1 off => Sys2Proof.Machine.execLdb th sp rt rs1 off s
  | .ldh th sp rt rs1 off => Sys2Proof.Machine.execLdh th sp rt rs1 off s
  | .ldw th sp rt rs1 off => Sys2Proof.Machine.execLdw th sp rt rs1 off s
  | .ldq th sp bt rs1 off => Sys2Proof.Machine.execLdq th sp bt rs1 off s
  | .stb th sp rt rs1 off => Sys2Proof.Machine.execStb th sp rt rs1 off s
  | .sth th sp rt rs1 off => Sys2Proof.Machine.execSth th sp rt rs1 off s
  | .stw th sp rt rs1 off => Sys2Proof.Machine.execStw th sp rt rs1 off s
  | .stq th sp bt rs1 off => Sys2Proof.Machine.execStq th sp bt rs1 off s
  | .postedStoreComplete th => Sys2Proof.Machine.execPostedStoreComplete th s
  | .aadd th sp rd rs1 rs2 => Sys2Proof.Machine.execAadd th sp rd rs1 rs2 s
  | .aand th sp rd rs1 rs2 => Sys2Proof.Machine.execAand th sp rd rs1 rs2 s
  | .aor th sp rd rs1 rs2 => Sys2Proof.Machine.execAor th sp rd rs1 rs2 s
  | .axor th sp rd rs1 rs2 => Sys2Proof.Machine.execAxor th sp rd rs1 rs2 s
  | .aswp th sp rd rs1 rs2 => Sys2Proof.Machine.execAswp th sp rd rs1 rs2 s
  | .acas th sp rd rs1 rs2 => Sys2Proof.Machine.execAcas th sp rd rs1 rs2 s
  | .amaxu th sp rd rs1 rs2 => Sys2Proof.Machine.execAmaxu th sp rd rs1 rs2 s
  | .aminu th sp rd rs1 rs2 => Sys2Proof.Machine.execAminu th sp rd rs1 rs2 s
  | .bxor th bd ba bb => Sys2Proof.Machine.execBxor th bd ba bb s
  | .band th bd ba bb => Sys2Proof.Machine.execBand th bd ba bb s
  | .bor th bd ba bb => Sys2Proof.Machine.execBor th bd ba bb s
  | .bmov th bd ba => Sys2Proof.Machine.execBmov th bd ba s
  | .bzero th bd => Sys2Proof.Machine.execBzero th bd s
  | .brev th bd ba => Sys2Proof.Machine.execBrev th bd ba s
  | .binc th bd ba => Sys2Proof.Machine.execBinc th bd ba s
  | .bmask th bd ba rs1 => Sys2Proof.Machine.execBmask th bd ba rs1 s
  | .bput th bd ba lane rs1 => Sys2Proof.Machine.execBput th bd ba lane rs1 s
  | .bget th rd ba lane => Sys2Proof.Machine.execBget th rd ba lane s
  | .xtsa th bd ba => Sys2Proof.Machine.execXtsa th bd ba s
  | .gmul th bd ba bb => Sys2Proof.Machine.execGmul th bd ba bb s
  | .tagcmp th rd ba bb rs1 => Sys2Proof.Machine.execTagcmp th rd ba bb rs1 s
  | .gatedBufferZero th => Sys2Proof.Machine.execGatedBufferZero th s
  | .gatedTransferZeroOverwrite ch errors => Sys2Proof.Machine.execGatedTransferZeroOverwrite ch errors s
  | .gateTimeout th => Sys2Proof.Machine.execGateTimeout th s
  | .aese th bd ba rs1 => Sys2Proof.Machine.execAese th bd ba rs1 s
  | .aesd th bd ba rs1 => Sys2Proof.Machine.execAesd th bd ba rs1 s
  | .roundUnitDone eng u => Sys2Proof.Machine.execRoundUnitDone eng u s
  | .keyFetchDone board index readOk => Sys2Proof.Machine.execKeyFetchDone board index readOk s
  | .pfetch th rd rs1 => Sys2Proof.Machine.execPfetch th rd rs1 s
  | .payloadBlockArrive th => Sys2Proof.Machine.execPayloadBlockArrive th s
  | .pldb th bd => Sys2Proof.Machine.execPldb th bd s
  | .pstb th ba rs1 rd => Sys2Proof.Machine.execPstb th ba rs1 rd s
  | .payloadWriteDone th => Sys2Proof.Machine.execPayloadWriteDone th s
  | .pwait th => Sys2Proof.Machine.execPwait th s
  | .dlk th rd rs1 bd ba => Sys2Proof.Machine.execDlk th rd rs1 bd ba s
  | .dins th rd rs1 ba bb => Sys2Proof.Machine.execDins th rd rs1 ba bb s
  | .ddel th rd rs1 ba => Sys2Proof.Machine.execDdel th rd rs1 ba s
  | .flk th rd bd ba bb => Sys2Proof.Machine.execFlk th rd bd ba bb s
  | .fins th rd bd ba bb => Sys2Proof.Machine.execFins th rd bd ba bb s
  | .fdel th rd ba bb => Sys2Proof.Machine.execFdel th rd ba bb s
  | .tlk th rd rs1 ba => Sys2Proof.Machine.execTlk th rd rs1 ba s
  | .lookupResult th => Sys2Proof.Machine.execLookupResult th s
  | .enq th rd rs1 rs2 => Sys2Proof.Machine.execEnq th rd rs1 rs2 s
  | .enqm th rd rs1 rs2 => Sys2Proof.Machine.execEnqm th rd rs1 rs2 s
  | .drop th rs1 rs2 => Sys2Proof.Machine.execDrop th rs1 rs2 s
  | .polc th rd rs1 rs2 => Sys2Proof.Machine.execPolc th rd rs1 rs2 s
  | .hnew th rd rs2 => Sys2Proof.Machine.execHnew th rd rs2 s
  | .dmas th rd rs1 rs2 => Sys2Proof.Machine.execDmas th rd rs1 rs2 s
  | .dmaw th rd rs1 => Sys2Proof.Machine.execDmaw th rd rs1 s
  | .dmap th rd rs1 => Sys2Proof.Machine.execDmap th rd rs1 s
  | .tstart th rs1 rs2 => Sys2Proof.Machine.execTstart th rs1 rs2 s
  | .tstop th rs1 => Sys2Proof.Machine.execTstop th rs1 s
  | .tset th rd rs1 rs2 => Sys2Proof.Machine.execTset th rd rs1 rs2 s
  | .tget th rd rs1 rs2 => Sys2Proof.Machine.execTget th rd rs1 rs2 s
  | .recv th rd rs1 => Sys2Proof.Machine.execRecv th rd rs1 s
  | .yield th => Sys2Proof.Machine.execYield th s
  | .evwait th rd rs1 => Sys2Proof.Machine.execEvwait th rd rs1 s
  | .sig th rs1 rs2 => Sys2Proof.Machine.execSig th rs1 rs2 s
  | .halt th => Sys2Proof.Machine.execHalt th s
  | .mfsr th rd n => Sys2Proof.Machine.execMfsr th rd n s
  | .mtsr th rs1 n => Sys2Proof.Machine.execMtsr th rs1 n s
  | .mfsh th rd n => Sys2Proof.Machine.execMfsh th rd n s
  | .mtsh th rs1 n => Sys2Proof.Machine.execMtsh th rs1 n s
  | .shadd th rd rs1 n => Sys2Proof.Machine.execShadd th rd rs1 n s
  | .fence th mask => Sys2Proof.Machine.execFence th mask s
  | .rnd th rd => Sys2Proof.Machine.execRnd th rd s
  | .trap th rs1 => Sys2Proof.Machine.execTrap th rs1 s
  | .cluStartWrite cl v => Sys2Proof.Machine.execCluStartWrite cl v s
  | .threadCmdReset cl eng t => Sys2Proof.Machine.execThreadCmdReset cl eng t s
  | .threadCmdResetStart cl eng t => Sys2Proof.Machine.execThreadCmdResetStart cl eng t s
  | .threadCmdStop cl eng t => Sys2Proof.Machine.execThreadCmdStop cl eng t s
  | .cluFaultPop cl v => Sys2Proof.Machine.execCluFaultPop cl v s
  | .cluBufAlloc cl th => Sys2Proof.Machine.execCluBufAlloc cl th s
  | .cluBufFree cl v => Sys2Proof.Machine.execCluBufFree cl v s
  | .cluConfigWrite cl which v => Sys2Proof.Machine.execCluConfigWrite cl which v s
  | .creditCtlApply cl => Sys2Proof.Machine.execCreditCtlApply cl s
  | .programStoreWrite cl index v => Sys2Proof.Machine.execProgramStoreWrite cl index v s
  | .rds boards rdo upg line => Sys2Proof.Machine.execRds boards rdo upg line s
  | .rdo boards upg line => Sys2Proof.Machine.execRdo boards upg line s
  | .upg boards line => Sys2Proof.Machine.execUpg boards line s
  | .wb board line => Sys2Proof.Machine.execWb board line s
  | .evc board line => Sys2Proof.Machine.execEvc board line s
  | .dataS board line => Sys2Proof.Machine.execDataS board line s
  | .dataE board line => Sys2Proof.Machine.execDataE board line s
  | .grant board line => Sys2Proof.Machine.execGrant board line s
  | .inv board line => Sys2Proof.Machine.execInv board line s
  | .fetch board line => Sys2Proof.Machine.execFetch board line s
  | .ackInv board line => Sys2Proof.Machine.execAckInv board line s
  | .dataF board line => Sys2Proof.Machine.execDataF board line s
  | .noneF board line => Sys2Proof.Machine.execNoneF board line s
  | .ackWb board line => Sys2Proof.Machine.execAckWb board line s
  | .homeQueueServe line => Sys2Proof.Machine.execHomeQueueServe line s
  | .uncachedCoherentAccess addr len wr who => Sys2Proof.Machine.execUncachedCoherentAccess addr len wr who s
  | .linePoison board line => Sys2Proof.Machine.execLinePoison board line s
  | .sscFlush board => Sys2Proof.Machine.execSscFlush board s
  | .sscFlushDone board => Sys2Proof.Machine.execSscFlushDone board s
  | .verify => Sys2Proof.Machine.execVerify s
  | .verifyDone => Sys2Proof.Machine.execVerifyDone s
  | .apply => Sys2Proof.Machine.execApply s
  | .applyDone => Sys2Proof.Machine.execApplyDone s
  | .discard => Sys2Proof.Machine.execDiscard s
  | .macFrameReceive p frame fcsOk symErr => Sys2Proof.Machine.execMacFrameReceive p frame fcsOk symErr s
  | .sideBufferRelease bank => Sys2Proof.Machine.execSideBufferRelease bank s
  | .vectorSteerSend bank board => Sys2Proof.Machine.execVectorSteerSend bank board s
  | .intakeCreditReturn bank board => Sys2Proof.Machine.execIntakeCreditReturn bank board s
  | .learn board => Sys2Proof.Machine.execLearn board s
  | .vectorDispatch board => Sys2Proof.Machine.execVectorDispatch board s
  | .diceTdefWrite board table v => Sys2Proof.Machine.execDiceTdefWrite board table v s
  | .lookup board blk => Sys2Proof.Machine.execLookup board blk s
  | .insert board blk => Sys2Proof.Machine.execInsert board blk s
  | .delete board blk => Sys2Proof.Machine.execDelete board blk s
  | .update board blk => Sys2Proof.Machine.execUpdate board blk s
  | .purge board blk => Sys2Proof.Machine.execPurge board blk s
  | .purgeBucketVisit board blk part => Sys2Proof.Machine.execPurgeBucketVisit board blk part s
  | .flowCtlWrite board v => Sys2Proof.Machine.execFlowCtlWrite board v s
  | .flowTableClearDone => Sys2Proof.Machine.execFlowTableClearDone s
  | .flowCacheWriteback index => Sys2Proof.Machine.execFlowCacheWriteback index s
  | .flowHomeWrite board v => Sys2Proof.Machine.execFlowHomeWrite board v s
  | .deltaAdd v => Sys2Proof.Machine.execDeltaAdd v s
  | .deltaDel v => Sys2Proof.Machine.execDeltaDel v s
  | .deltaUpdateDone => Sys2Proof.Machine.execDeltaUpdateDone s
  | .enqueueCommit inp => Sys2Proof.Machine.execEnqueueCommit inp s
  | .spillDepthLand => Sys2Proof.Machine.execSpillDepthLand s
  | .seqSkipTimeout inp => Sys2Proof.Machine.execSeqSkipTimeout inp s
  | .reclaimToFree n => Sys2Proof.Machine.execReclaimToFree n s
  | .bookSnap v => Sys2Proof.Machine.execBookSnap v s
  | .replication => Sys2Proof.Machine.execReplication s
  | .mcGroupW1Write grp v => Sys2Proof.Machine.execMcGroupW1Write grp v s
  | .mcGroupCommit grp v => Sys2Proof.Machine.execMcGroupCommit grp v s
  | .schedulerRelease port => Sys2Proof.Machine.execSchedulerRelease port s
  | .debitLand node => Sys2Proof.Machine.execDebitLand node s
  | .bucketRefill b => Sys2Proof.Machine.execBucketRefill b s
  | .parentBandApply child => Sys2Proof.Machine.execParentBandApply child s
  | .shaperConfigWrite r node v => Sys2Proof.Machine.execShaperConfigWrite r node v s
  | .policerConfigWrite r n v => Sys2Proof.Machine.execPolicerConfigWrite r n v s
  | .gateArm port v => Sys2Proof.Machine.execGateArm port v s
  | .gateListSwap port => Sys2Proof.Machine.execGateListSwap port s
  | .gateIntervalEnd port => Sys2Proof.Machine.execGateIntervalEnd port s
  | .gaugePass ring => Sys2Proof.Machine.execGaugePass ring s
  | .gaugeRecordWrite ring => Sys2Proof.Machine.execGaugeRecordWrite ring s
  | .gauCtlWrite ring v => Sys2Proof.Machine.execGauCtlWrite ring v s
  | .install => Sys2Proof.Machine.execInstall s
  | .revoke => Sys2Proof.Machine.execRevoke s
  | .keyRead => Sys2Proof.Machine.execKeyRead s
  | .keyCommandDone => Sys2Proof.Machine.execKeyCommandDone s
  | .dieHealthFail rct apt => Sys2Proof.Machine.execDieHealthFail rct apt s
  | .dieRestart => Sys2Proof.Machine.execDieRestart s
  | .dieRestartDone rct apt => Sys2Proof.Machine.execDieRestartDone rct apt s
  | .drbgReseed => Sys2Proof.Machine.execDrbgReseed s
  | .sqNextRead n who => Sys2Proof.Machine.execSqNextRead n who s
  | .sqConfigWrite r n v => Sys2Proof.Machine.execSqConfigWrite r n v s
  | .scheduledRevoke n => Sys2Proof.Machine.execScheduledRevoke n s
  | .sqEvqRead => Sys2Proof.Machine.execSqEvqRead s
  | .ccEnSet inst v => Sys2Proof.Machine.execCcEnSet inst v s
  | .controllerReady inst => Sys2Proof.Machine.execControllerReady inst s
  | .ccEnClear inst v => Sys2Proof.Machine.execCcEnClear inst v s
  | .ccShnWrite inst v => Sys2Proof.Machine.execCcShnWrite inst v s
  | .shutdownComplete inst => Sys2Proof.Machine.execShutdownComplete inst s
  | .sqTailDoorbell inst q v => Sys2Proof.Machine.execSqTailDoorbell inst q v s
  | .cqHeadDoorbell inst q v => Sys2Proof.Machine.execCqHeadDoorbell inst q v s
  | .submissionFetch inst q entry => Sys2Proof.Machine.execSubmissionFetch inst q entry s
  | .holdTimeout bank slot => Sys2Proof.Machine.execHoldTimeout bank slot s
  | .identify bank slot => Sys2Proof.Machine.execIdentify bank slot s
  | .getLogPage bank slot => Sys2Proof.Machine.execGetLogPage bank slot s
  | .setFeatures bank slot => Sys2Proof.Machine.execSetFeatures bank slot s
  | .getFeatures bank slot => Sys2Proof.Machine.execGetFeatures bank slot s
  | .createIoSubmissionQueue bank slot => Sys2Proof.Machine.execCreateIoSubmissionQueue bank slot s
  | .createIoCompletionQueue bank slot => Sys2Proof.Machine.execCreateIoCompletionQueue bank slot s
  | .deleteIoSubmissionQueue bank slot => Sys2Proof.Machine.execDeleteIoSubmissionQueue bank slot s
  | .deleteIoCompletionQueue bank slot => Sys2Proof.Machine.execDeleteIoCompletionQueue bank slot s
  | .nvmeAbort bank slot => Sys2Proof.Machine.execNvmeAbort bank slot s
  | .asynchronousEventRequest bank slot => Sys2Proof.Machine.execAsynchronousEventRequest bank slot s
  | .nvmeRead bank slot list => Sys2Proof.Machine.execNvmeRead bank slot list s
  | .nvmeWrite bank slot list => Sys2Proof.Machine.execNvmeWrite bank slot list s
  | .writeZeroes bank slot => Sys2Proof.Machine.execWriteZeroes bank slot s
  | .flush bank slot => Sys2Proof.Machine.execFlush bank slot s
  | .flushComplete bank slot => Sys2Proof.Machine.execFlushComplete bank slot s
  | .datasetManagement bank slot ranges => Sys2Proof.Machine.execDatasetManagement bank slot ranges s
  | .stoCplWrite bank v => Sys2Proof.Machine.execStoCplWrite bank v s
  | .completionEntryWrite bank slot => Sys2Proof.Machine.execCompletionEntryWrite bank slot s
  | .stgAlloc bank => Sys2Proof.Machine.execStgAlloc bank s
  | .stgFree bank v => Sys2Proof.Machine.execStgFree bank v s
  | .stoEvqRead bank => Sys2Proof.Machine.execStoEvqRead bank s
  | .extWrite bank => Sys2Proof.Machine.execExtWrite bank s
  | .extRead bank => Sys2Proof.Machine.execExtRead bank s
  | .nsWrite bank => Sys2Proof.Machine.execNsWrite bank s
  | .nsRead bank => Sys2Proof.Machine.execNsRead bank s
  | .mapWrite bank => Sys2Proof.Machine.execMapWrite bank s
  | .mapRead bank => Sys2Proof.Machine.execMapRead bank s
  | .pcieLinkUp ep linkB => Sys2Proof.Machine.execPcieLinkUp ep linkB s
  | .pcieLinkDown ep linkB => Sys2Proof.Machine.execPcieLinkDown ep linkB s
  | .configReady ep fn => Sys2Proof.Machine.execConfigReady ep fn s
  | .flr ep fn => Sys2Proof.Machine.execFlr ep fn s
  | .vfReset ep vf => Sys2Proof.Machine.execVfReset ep vf s
  | .vfEnableSet ep numVFs => Sys2Proof.Machine.execVfEnableSet ep numVFs s
  | .vfEnableClear ep => Sys2Proof.Machine.execVfEnableClear ep s
  | .atsInvalidate ep fn page => Sys2Proof.Machine.execAtsInvalidate ep fn page s
  | .doeObject ep fn obj => Sys2Proof.Machine.execDoeObject ep fn obj s
  | .doeAbort ep fn => Sys2Proof.Machine.execDoeAbort ep fn s
  | .pmStateWrite ep fn d3hot bme mse => Sys2Proof.Machine.execPmStateWrite ep fn d3hot bme mse s
  | .pf1Bar0Request ep offset req => Sys2Proof.Machine.execPf1Bar0Request ep offset req s
  | .apBaseWrite ep a hi v => Sys2Proof.Machine.execApBaseWrite ep a hi v s
  | .msixEvent ep fn vec => Sys2Proof.Machine.execMsixEvent ep fn vec s
  | .msixUnmask ep fn vec => Sys2Proof.Machine.execMsixUnmask ep fn vec s
  | .ferryUpGo inst v => Sys2Proof.Machine.execFerryUpGo inst v s
  | .ferryDnGo who inst v => Sys2Proof.Machine.execFerryDnGo who inst v s
  | .ferryDnTake inst => Sys2Proof.Machine.execFerryDnTake inst s
  | .ferryUpTake inst => Sys2Proof.Machine.execFerryUpTake inst s
  | .ferryMsgWrite who inst up word v => Sys2Proof.Machine.execFerryMsgWrite who inst up word v s
  | .ringTxdb inst q v => Sys2Proof.Machine.execRingTxdb inst q v s
  | .ringRxdb inst q v => Sys2Proof.Machine.execRingRxdb inst q v s
  | .pendingDoorbellApply inst q rx => Sys2Proof.Machine.execPendingDoorbellApply inst q rx s
  | .ringArm inst q v => Sys2Proof.Machine.execRingArm inst q v s
  | .descriptorFetch inst q rx => Sys2Proof.Machine.execDescriptorFetch inst q rx s
  | .txDataReadStart inst q => Sys2Proof.Machine.execTxDataReadStart inst q s
  | .txDataReadDone inst q data => Sys2Proof.Machine.execTxDataReadDone inst q data s
  | .rxFrameWrite inst q => Sys2Proof.Machine.execRxFrameWrite inst q s
  | .descriptorComplete inst q rx => Sys2Proof.Machine.execDescriptorComplete inst q rx s
  | .dmaDescriptorStart ch xlate xfail => Sys2Proof.Machine.execDmaDescriptorStart ch xlate xfail s
  | .dmaDescriptorEnd ch res => Sys2Proof.Machine.execDmaDescriptorEnd ch res s
  | .pacedBurstStart ch res => Sys2Proof.Machine.execPacedBurstStart ch res s
  | .dmaAbort ch => Sys2Proof.Machine.execDmaAbort ch s
  | .dmaAbortAll ch => Sys2Proof.Machine.execDmaAbortAll ch s
  | .qviewRead inst => Sys2Proof.Machine.execQviewRead inst s
  | .freeze inst => Sys2Proof.Machine.execFreeze inst s
  | .quiescentPoint inst => Sys2Proof.Machine.execQuiescentPoint inst s
  | .freezeTimeout inst => Sys2Proof.Machine.execFreezeTimeout inst s
  | .save inst => Sys2Proof.Machine.execSave inst s
  | .saveDone inst => Sys2Proof.Machine.execSaveDone inst s
  | .restore inst => Sys2Proof.Machine.execRestore inst s
  | .restoreDone inst => Sys2Proof.Machine.execRestoreDone inst s
  | .thaw inst => Sys2Proof.Machine.execThaw inst s
  | .insRateWrite board inst v => Sys2Proof.Machine.execInsRateWrite board inst v s
  | .portCfgWrite p v => Sys2Proof.Machine.execPortCfgWrite p v s
  | .linkUp p => Sys2Proof.Machine.execLinkUp p s
  | .linkDown p => Sys2Proof.Machine.execLinkDown p s
  | .macFrameTransmit p => Sys2Proof.Machine.execMacFrameTransmit p s
  | .pauseFrameReceive port pfc classes quanta => Sys2Proof.Machine.execPauseFrameReceive port pfc classes quanta s
  | .pauseTimerExpire port cls => Sys2Proof.Machine.execPauseTimerExpire port cls s
  | .pfcXoffSend port cls => Sys2Proof.Machine.execPfcXoffSend port cls s
  | .pfcRefreshSend port cls => Sys2Proof.Machine.execPfcRefreshSend port cls s
  | .pfcXonSend port cls => Sys2Proof.Machine.execPfcXonSend port cls s
  | .txtsRead p => Sys2Proof.Machine.execTxtsRead p s
  | .lpiEnter port => Sys2Proof.Machine.execLpiEnter port s
  | .lldpTransmit link => Sys2Proof.Machine.execLldpTransmit link s
  | .lldpInfoExpire link => Sys2Proof.Machine.execLldpInfoExpire link s
  | .slackOffer link tlv => Sys2Proof.Machine.execSlackOffer link tlv s
  | .slackAccept link tlv => Sys2Proof.Machine.execSlackAccept link tlv s
  | .slackWithdraw link => Sys2Proof.Machine.execSlackWithdraw link s
  | .slackScheduleStart link => Sys2Proof.Machine.execSlackScheduleStart link s
  | .slackWakeStart link => Sys2Proof.Machine.execSlackWakeStart link s
  | .slackFirstSymbol link deviation => Sys2Proof.Machine.execSlackFirstSymbol link deviation s
  | .slackRendezvousMiss link => Sys2Proof.Machine.execSlackRendezvousMiss link s
  | .slackAlignTimeout link => Sys2Proof.Machine.execSlackAlignTimeout link s
  | .attachControlFrameSend link => Sys2Proof.Machine.execAttachControlFrameSend link s
  | .attachControlFrameReceive link frame => Sys2Proof.Machine.execAttachControlFrameReceive link frame s
  | .discGo => Sys2Proof.Machine.execDiscGo s
  | .discoveryWalk => Sys2Proof.Machine.execDiscoveryWalk s
  | .probeAnswer link body => Sys2Proof.Machine.execProbeAnswer link body s
  | .probeTimeout => Sys2Proof.Machine.execProbeTimeout s
  | .discoveryWalkEnd => Sys2Proof.Machine.execDiscoveryWalkEnd s
  | .lcChalNew => Sys2Proof.Machine.execLcChalNew s
  | .provision => Sys2Proof.Machine.execProvision s
  | .deploy => Sys2Proof.Machine.execDeploy s
  | .lcReturn tests => Sys2Proof.Machine.execLcReturn tests s
  | .observe tests => Sys2Proof.Machine.execObserve tests s
  | .intrude => Sys2Proof.Machine.execIntrude s
  | .vaultWriteToken => Sys2Proof.Machine.execVaultWriteToken s
  | .debugOff tests => Sys2Proof.Machine.execDebugOff tests s
  | .debugExpiry tests => Sys2Proof.Machine.execDebugExpiry tests s
  | .vaultWrite rid => Sys2Proof.Machine.execVaultWrite rid s
  | .vaultRead rid => Sys2Proof.Machine.execVaultRead rid s
  | .commitTokenRefill => Sys2Proof.Machine.execCommitTokenRefill s
  | .vaultCopyWriteDone => Sys2Proof.Machine.execVaultCopyWriteDone s
  | .powerFailWarning pin => Sys2Proof.Machine.execPowerFailWarning pin s
  | .active => Sys2Proof.Machine.execActive s
  | .drowse => Sys2Proof.Machine.execDrowse s
  | .hold => Sys2Proof.Machine.execHold s
  | .holdWake place fuses tests => Sys2Proof.Machine.execHoldWake place fuses tests s
  | .powerGovernorInterval watts low1ms => Sys2Proof.Machine.execPowerGovernorInterval watts low1ms s
  | .thermalTrip tj tc => Sys2Proof.Machine.execThermalTrip tj tc s
  | .hbmSelfRefresh stack => Sys2Proof.Machine.execHbmSelfRefresh stack s
  | .troubleEvent e => Sys2Proof.Machine.execTroubleEvent e s
  | .logAppend => Sys2Proof.Machine.execLogAppend s
  | .historyEntryRead grp entry => Sys2Proof.Machine.execHistoryEntryRead grp entry s
  | .trbForce grp v => Sys2Proof.Machine.execTrbForce grp v s
  | .trbInjArm grp v => Sys2Proof.Machine.execTrbInjArm grp v s
  | .injectedFaultApply grp addr => Sys2Proof.Machine.execInjectedFaultApply grp addr s
  | .logClear => Sys2Proof.Machine.execLogClear s
  | .eventCount ctr n => Sys2Proof.Machine.execEventCount ctr n s
  | .cntClear ctr events => Sys2Proof.Machine.execCntClear ctr events s
  | .erase => Sys2Proof.Machine.execErase s
  | .program => Sys2Proof.Machine.execProgram s
  | .flashRead => Sys2Proof.Machine.execFlashRead s
  | .flashCommandDone devErr => Sys2Proof.Machine.execFlashCommandDone devErr s
  | .slackWindowEnd link => Sys2Proof.Machine.execSlackWindowEnd link s
  | .completionTimeout inst req => Sys2Proof.Machine.execCompletionTimeout inst req s
  | .submit => Sys2Proof.Machine.execSubmit s
  | .mctpRequest m => Sys2Proof.Machine.execMctpRequest m s
  | .descriptorFetchDone inst q rx words => Sys2Proof.Machine.execDescriptorFetchDone inst q rx words s
  | .diceCommandDone board blk => Sys2Proof.Machine.execDiceCommandDone board blk s

end Sys2Proof.Machine
end

