-- ==== Sys2Proof/Laws/State.lean ====
section
/-! SUPPORT. The parts of the state after one of them has been replaced: one law per part and replacement. -/
namespace Sys2Proof.Machine

variable (s : State)



/-! ### putRegs -/

@[simp] theorem State.putRegs_pending (x) : (s.putRegs x).pending = s.pending := rfl
@[simp] theorem State.putRegs_regs (x) : (s.putRegs x).regs = x := rfl
@[simp] theorem State.putRegs_latch (x) : (s.putRegs x).latch = s.latch := rfl
@[simp] theorem State.putRegs_stage (x) : (s.putRegs x).stage = s.stage := rfl
@[simp] theorem State.putRegs_out (x) : (s.putRegs x).out = s.out := rfl
@[simp] theorem State.putRegs_reply (x) : (s.putRegs x).reply = s.reply := rfl
@[simp] theorem State.putRegs_free (x) : (s.putRegs x).free = s.free := rfl
@[simp] theorem State.putRegs_plat (x) : (s.putRegs x).plat = s.plat := rfl
@[simp] theorem State.putRegs_time (x) : (s.putRegs x).time = s.time := rfl
@[simp] theorem State.putRegs_tide (x) : (s.putRegs x).tide = s.tide := rfl
@[simp] theorem State.putRegs_trb (x) : (s.putRegs x).trb = s.trb := rfl
@[simp] theorem State.putRegs_eng (x) : (s.putRegs x).eng = s.eng := rfl
@[simp] theorem State.putRegs_micro (x) : (s.putRegs x).micro = s.micro := rfl
@[simp] theorem State.putRegs_hbm (x) : (s.putRegs x).hbm = s.hbm := rfl
@[simp] theorem State.putRegs_cfl (x) : (s.putRegs x).cfl = s.cfl := rfl
@[simp] theorem State.putRegs_sch (x) : (s.putRegs x).sch = s.sch := rfl
@[simp] theorem State.putRegs_intake (x) : (s.putRegs x).intake = s.intake := rfl
@[simp] theorem State.putRegs_look (x) : (s.putRegs x).look = s.look := rfl
@[simp] theorem State.putRegs_ring (x) : (s.putRegs x).ring = s.ring := rfl
@[simp] theorem State.putRegs_sto (x) : (s.putRegs x).sto = s.sto := rfl
@[simp] theorem State.putRegs_link (x) : (s.putRegs x).link = s.link := rfl
@[simp] theorem State.putRegs_keys (x) : (s.putRegs x).keys = s.keys := rfl
@[simp] theorem State.putRegs_trust (x) : (s.putRegs x).trust = s.trust := rfl
@[simp] theorem State.putRegs_dma (x) : (s.putRegs x).dma = s.dma := rfl
@[simp] theorem State.putRegs_putRegs (x y) : (s.putRegs x).putRegs y = s.putRegs y := rfl
@[simp] theorem State.putRegs_self : s.putRegs s.regs = s := rfl

/-! ### putLatch -/

@[simp] theorem State.putLatch_pending (x) : (s.putLatch x).pending = s.pending := rfl
@[simp] theorem State.putLatch_regs (x) : (s.putLatch x).regs = s.regs := rfl
@[simp] theorem State.putLatch_latch (x) : (s.putLatch x).latch = x := rfl
@[simp] theorem State.putLatch_stage (x) : (s.putLatch x).stage = s.stage := rfl
@[simp] theorem State.putLatch_out (x) : (s.putLatch x).out = s.out := rfl
@[simp] theorem State.putLatch_reply (x) : (s.putLatch x).reply = s.reply := rfl
@[simp] theorem State.putLatch_free (x) : (s.putLatch x).free = s.free := rfl
@[simp] theorem State.putLatch_plat (x) : (s.putLatch x).plat = s.plat := rfl
@[simp] theorem State.putLatch_time (x) : (s.putLatch x).time = s.time := rfl
@[simp] theorem State.putLatch_tide (x) : (s.putLatch x).tide = s.tide := rfl
@[simp] theorem State.putLatch_trb (x) : (s.putLatch x).trb = s.trb := rfl
@[simp] theorem State.putLatch_eng (x) : (s.putLatch x).eng = s.eng := rfl
@[simp] theorem State.putLatch_micro (x) : (s.putLatch x).micro = s.micro := rfl
@[simp] theorem State.putLatch_hbm (x) : (s.putLatch x).hbm = s.hbm := rfl
@[simp] theorem State.putLatch_cfl (x) : (s.putLatch x).cfl = s.cfl := rfl
@[simp] theorem State.putLatch_sch (x) : (s.putLatch x).sch = s.sch := rfl
@[simp] theorem State.putLatch_intake (x) : (s.putLatch x).intake = s.intake := rfl
@[simp] theorem State.putLatch_look (x) : (s.putLatch x).look = s.look := rfl
@[simp] theorem State.putLatch_ring (x) : (s.putLatch x).ring = s.ring := rfl
@[simp] theorem State.putLatch_sto (x) : (s.putLatch x).sto = s.sto := rfl
@[simp] theorem State.putLatch_link (x) : (s.putLatch x).link = s.link := rfl
@[simp] theorem State.putLatch_keys (x) : (s.putLatch x).keys = s.keys := rfl
@[simp] theorem State.putLatch_trust (x) : (s.putLatch x).trust = s.trust := rfl
@[simp] theorem State.putLatch_dma (x) : (s.putLatch x).dma = s.dma := rfl
@[simp] theorem State.putLatch_putLatch (x y) : (s.putLatch x).putLatch y = s.putLatch y := rfl
@[simp] theorem State.putLatch_self : s.putLatch s.latch = s := rfl

/-! ### putStage -/

@[simp] theorem State.putStage_pending (x) : (s.putStage x).pending = s.pending := rfl
@[simp] theorem State.putStage_regs (x) : (s.putStage x).regs = s.regs := rfl
@[simp] theorem State.putStage_latch (x) : (s.putStage x).latch = s.latch := rfl
@[simp] theorem State.putStage_stage (x) : (s.putStage x).stage = x := rfl
@[simp] theorem State.putStage_out (x) : (s.putStage x).out = s.out := rfl
@[simp] theorem State.putStage_reply (x) : (s.putStage x).reply = s.reply := rfl
@[simp] theorem State.putStage_free (x) : (s.putStage x).free = s.free := rfl
@[simp] theorem State.putStage_plat (x) : (s.putStage x).plat = s.plat := rfl
@[simp] theorem State.putStage_time (x) : (s.putStage x).time = s.time := rfl
@[simp] theorem State.putStage_tide (x) : (s.putStage x).tide = s.tide := rfl
@[simp] theorem State.putStage_trb (x) : (s.putStage x).trb = s.trb := rfl
@[simp] theorem State.putStage_eng (x) : (s.putStage x).eng = s.eng := rfl
@[simp] theorem State.putStage_micro (x) : (s.putStage x).micro = s.micro := rfl
@[simp] theorem State.putStage_hbm (x) : (s.putStage x).hbm = s.hbm := rfl
@[simp] theorem State.putStage_cfl (x) : (s.putStage x).cfl = s.cfl := rfl
@[simp] theorem State.putStage_sch (x) : (s.putStage x).sch = s.sch := rfl
@[simp] theorem State.putStage_intake (x) : (s.putStage x).intake = s.intake := rfl
@[simp] theorem State.putStage_look (x) : (s.putStage x).look = s.look := rfl
@[simp] theorem State.putStage_ring (x) : (s.putStage x).ring = s.ring := rfl
@[simp] theorem State.putStage_sto (x) : (s.putStage x).sto = s.sto := rfl
@[simp] theorem State.putStage_link (x) : (s.putStage x).link = s.link := rfl
@[simp] theorem State.putStage_keys (x) : (s.putStage x).keys = s.keys := rfl
@[simp] theorem State.putStage_trust (x) : (s.putStage x).trust = s.trust := rfl
@[simp] theorem State.putStage_dma (x) : (s.putStage x).dma = s.dma := rfl
@[simp] theorem State.putStage_putStage (x y) : (s.putStage x).putStage y = s.putStage y := rfl
@[simp] theorem State.putStage_self : s.putStage s.stage = s := rfl

/-! ### putOut -/

@[simp] theorem State.putOut_pending (x) : (s.putOut x).pending = s.pending := rfl
@[simp] theorem State.putOut_regs (x) : (s.putOut x).regs = s.regs := rfl
@[simp] theorem State.putOut_latch (x) : (s.putOut x).latch = s.latch := rfl
@[simp] theorem State.putOut_stage (x) : (s.putOut x).stage = s.stage := rfl
@[simp] theorem State.putOut_out (x) : (s.putOut x).out = x := rfl
@[simp] theorem State.putOut_reply (x) : (s.putOut x).reply = s.reply := rfl
@[simp] theorem State.putOut_free (x) : (s.putOut x).free = s.free := rfl
@[simp] theorem State.putOut_plat (x) : (s.putOut x).plat = s.plat := rfl
@[simp] theorem State.putOut_time (x) : (s.putOut x).time = s.time := rfl
@[simp] theorem State.putOut_tide (x) : (s.putOut x).tide = s.tide := rfl
@[simp] theorem State.putOut_trb (x) : (s.putOut x).trb = s.trb := rfl
@[simp] theorem State.putOut_eng (x) : (s.putOut x).eng = s.eng := rfl
@[simp] theorem State.putOut_micro (x) : (s.putOut x).micro = s.micro := rfl
@[simp] theorem State.putOut_hbm (x) : (s.putOut x).hbm = s.hbm := rfl
@[simp] theorem State.putOut_cfl (x) : (s.putOut x).cfl = s.cfl := rfl
@[simp] theorem State.putOut_sch (x) : (s.putOut x).sch = s.sch := rfl
@[simp] theorem State.putOut_intake (x) : (s.putOut x).intake = s.intake := rfl
@[simp] theorem State.putOut_look (x) : (s.putOut x).look = s.look := rfl
@[simp] theorem State.putOut_ring (x) : (s.putOut x).ring = s.ring := rfl
@[simp] theorem State.putOut_sto (x) : (s.putOut x).sto = s.sto := rfl
@[simp] theorem State.putOut_link (x) : (s.putOut x).link = s.link := rfl
@[simp] theorem State.putOut_keys (x) : (s.putOut x).keys = s.keys := rfl
@[simp] theorem State.putOut_trust (x) : (s.putOut x).trust = s.trust := rfl
@[simp] theorem State.putOut_dma (x) : (s.putOut x).dma = s.dma := rfl
@[simp] theorem State.putOut_putOut (x y) : (s.putOut x).putOut y = s.putOut y := rfl
@[simp] theorem State.putOut_self : s.putOut s.out = s := rfl

/-! ### putReply -/

@[simp] theorem State.putReply_pending (x) : (s.putReply x).pending = s.pending := rfl
@[simp] theorem State.putReply_regs (x) : (s.putReply x).regs = s.regs := rfl
@[simp] theorem State.putReply_latch (x) : (s.putReply x).latch = s.latch := rfl
@[simp] theorem State.putReply_stage (x) : (s.putReply x).stage = s.stage := rfl
@[simp] theorem State.putReply_out (x) : (s.putReply x).out = s.out := rfl
@[simp] theorem State.putReply_reply (x) : (s.putReply x).reply = x := rfl
@[simp] theorem State.putReply_free (x) : (s.putReply x).free = s.free := rfl
@[simp] theorem State.putReply_plat (x) : (s.putReply x).plat = s.plat := rfl
@[simp] theorem State.putReply_time (x) : (s.putReply x).time = s.time := rfl
@[simp] theorem State.putReply_tide (x) : (s.putReply x).tide = s.tide := rfl
@[simp] theorem State.putReply_trb (x) : (s.putReply x).trb = s.trb := rfl
@[simp] theorem State.putReply_eng (x) : (s.putReply x).eng = s.eng := rfl
@[simp] theorem State.putReply_micro (x) : (s.putReply x).micro = s.micro := rfl
@[simp] theorem State.putReply_hbm (x) : (s.putReply x).hbm = s.hbm := rfl
@[simp] theorem State.putReply_cfl (x) : (s.putReply x).cfl = s.cfl := rfl
@[simp] theorem State.putReply_sch (x) : (s.putReply x).sch = s.sch := rfl
@[simp] theorem State.putReply_intake (x) : (s.putReply x).intake = s.intake := rfl
@[simp] theorem State.putReply_look (x) : (s.putReply x).look = s.look := rfl
@[simp] theorem State.putReply_ring (x) : (s.putReply x).ring = s.ring := rfl
@[simp] theorem State.putReply_sto (x) : (s.putReply x).sto = s.sto := rfl
@[simp] theorem State.putReply_link (x) : (s.putReply x).link = s.link := rfl
@[simp] theorem State.putReply_keys (x) : (s.putReply x).keys = s.keys := rfl
@[simp] theorem State.putReply_trust (x) : (s.putReply x).trust = s.trust := rfl
@[simp] theorem State.putReply_dma (x) : (s.putReply x).dma = s.dma := rfl
@[simp] theorem State.putReply_putReply (x y) : (s.putReply x).putReply y = s.putReply y := rfl
@[simp] theorem State.putReply_self : s.putReply s.reply = s := rfl

/-! ### putFree -/

@[simp] theorem State.putFree_pending (x) : (s.putFree x).pending = s.pending := rfl
@[simp] theorem State.putFree_regs (x) : (s.putFree x).regs = s.regs := rfl
@[simp] theorem State.putFree_latch (x) : (s.putFree x).latch = s.latch := rfl
@[simp] theorem State.putFree_stage (x) : (s.putFree x).stage = s.stage := rfl
@[simp] theorem State.putFree_out (x) : (s.putFree x).out = s.out := rfl
@[simp] theorem State.putFree_reply (x) : (s.putFree x).reply = s.reply := rfl
@[simp] theorem State.putFree_free (x) : (s.putFree x).free = x := rfl
@[simp] theorem State.putFree_plat (x) : (s.putFree x).plat = s.plat := rfl
@[simp] theorem State.putFree_time (x) : (s.putFree x).time = s.time := rfl
@[simp] theorem State.putFree_tide (x) : (s.putFree x).tide = s.tide := rfl
@[simp] theorem State.putFree_trb (x) : (s.putFree x).trb = s.trb := rfl
@[simp] theorem State.putFree_eng (x) : (s.putFree x).eng = s.eng := rfl
@[simp] theorem State.putFree_micro (x) : (s.putFree x).micro = s.micro := rfl
@[simp] theorem State.putFree_hbm (x) : (s.putFree x).hbm = s.hbm := rfl
@[simp] theorem State.putFree_cfl (x) : (s.putFree x).cfl = s.cfl := rfl
@[simp] theorem State.putFree_sch (x) : (s.putFree x).sch = s.sch := rfl
@[simp] theorem State.putFree_intake (x) : (s.putFree x).intake = s.intake := rfl
@[simp] theorem State.putFree_look (x) : (s.putFree x).look = s.look := rfl
@[simp] theorem State.putFree_ring (x) : (s.putFree x).ring = s.ring := rfl
@[simp] theorem State.putFree_sto (x) : (s.putFree x).sto = s.sto := rfl
@[simp] theorem State.putFree_link (x) : (s.putFree x).link = s.link := rfl
@[simp] theorem State.putFree_keys (x) : (s.putFree x).keys = s.keys := rfl
@[simp] theorem State.putFree_trust (x) : (s.putFree x).trust = s.trust := rfl
@[simp] theorem State.putFree_dma (x) : (s.putFree x).dma = s.dma := rfl
@[simp] theorem State.putFree_putFree (x y) : (s.putFree x).putFree y = s.putFree y := rfl
@[simp] theorem State.putFree_self : s.putFree s.free = s := rfl

/-! ### putPlat -/

@[simp] theorem State.putPlat_pending (x) : (s.putPlat x).pending = s.pending := rfl
@[simp] theorem State.putPlat_regs (x) : (s.putPlat x).regs = s.regs := rfl
@[simp] theorem State.putPlat_latch (x) : (s.putPlat x).latch = s.latch := rfl
@[simp] theorem State.putPlat_stage (x) : (s.putPlat x).stage = s.stage := rfl
@[simp] theorem State.putPlat_out (x) : (s.putPlat x).out = s.out := rfl
@[simp] theorem State.putPlat_reply (x) : (s.putPlat x).reply = s.reply := rfl
@[simp] theorem State.putPlat_free (x) : (s.putPlat x).free = s.free := rfl
@[simp] theorem State.putPlat_plat (x) : (s.putPlat x).plat = x := rfl
@[simp] theorem State.putPlat_time (x) : (s.putPlat x).time = s.time := rfl
@[simp] theorem State.putPlat_tide (x) : (s.putPlat x).tide = s.tide := rfl
@[simp] theorem State.putPlat_trb (x) : (s.putPlat x).trb = s.trb := rfl
@[simp] theorem State.putPlat_eng (x) : (s.putPlat x).eng = s.eng := rfl
@[simp] theorem State.putPlat_micro (x) : (s.putPlat x).micro = s.micro := rfl
@[simp] theorem State.putPlat_hbm (x) : (s.putPlat x).hbm = s.hbm := rfl
@[simp] theorem State.putPlat_cfl (x) : (s.putPlat x).cfl = s.cfl := rfl
@[simp] theorem State.putPlat_sch (x) : (s.putPlat x).sch = s.sch := rfl
@[simp] theorem State.putPlat_intake (x) : (s.putPlat x).intake = s.intake := rfl
@[simp] theorem State.putPlat_look (x) : (s.putPlat x).look = s.look := rfl
@[simp] theorem State.putPlat_ring (x) : (s.putPlat x).ring = s.ring := rfl
@[simp] theorem State.putPlat_sto (x) : (s.putPlat x).sto = s.sto := rfl
@[simp] theorem State.putPlat_link (x) : (s.putPlat x).link = s.link := rfl
@[simp] theorem State.putPlat_keys (x) : (s.putPlat x).keys = s.keys := rfl
@[simp] theorem State.putPlat_trust (x) : (s.putPlat x).trust = s.trust := rfl
@[simp] theorem State.putPlat_dma (x) : (s.putPlat x).dma = s.dma := rfl
@[simp] theorem State.putPlat_putPlat (x y) : (s.putPlat x).putPlat y = s.putPlat y := rfl
@[simp] theorem State.putPlat_self : s.putPlat s.plat = s := rfl

/-! ### putTime -/

@[simp] theorem State.putTime_pending (x) : (s.putTime x).pending = s.pending := rfl
@[simp] theorem State.putTime_regs (x) : (s.putTime x).regs = s.regs := rfl
@[simp] theorem State.putTime_latch (x) : (s.putTime x).latch = s.latch := rfl
@[simp] theorem State.putTime_stage (x) : (s.putTime x).stage = s.stage := rfl
@[simp] theorem State.putTime_out (x) : (s.putTime x).out = s.out := rfl
@[simp] theorem State.putTime_reply (x) : (s.putTime x).reply = s.reply := rfl
@[simp] theorem State.putTime_free (x) : (s.putTime x).free = s.free := rfl
@[simp] theorem State.putTime_plat (x) : (s.putTime x).plat = s.plat := rfl
@[simp] theorem State.putTime_time (x) : (s.putTime x).time = x := rfl
@[simp] theorem State.putTime_tide (x) : (s.putTime x).tide = s.tide := rfl
@[simp] theorem State.putTime_trb (x) : (s.putTime x).trb = s.trb := rfl
@[simp] theorem State.putTime_eng (x) : (s.putTime x).eng = s.eng := rfl
@[simp] theorem State.putTime_micro (x) : (s.putTime x).micro = s.micro := rfl
@[simp] theorem State.putTime_hbm (x) : (s.putTime x).hbm = s.hbm := rfl
@[simp] theorem State.putTime_cfl (x) : (s.putTime x).cfl = s.cfl := rfl
@[simp] theorem State.putTime_sch (x) : (s.putTime x).sch = s.sch := rfl
@[simp] theorem State.putTime_intake (x) : (s.putTime x).intake = s.intake := rfl
@[simp] theorem State.putTime_look (x) : (s.putTime x).look = s.look := rfl
@[simp] theorem State.putTime_ring (x) : (s.putTime x).ring = s.ring := rfl
@[simp] theorem State.putTime_sto (x) : (s.putTime x).sto = s.sto := rfl
@[simp] theorem State.putTime_link (x) : (s.putTime x).link = s.link := rfl
@[simp] theorem State.putTime_keys (x) : (s.putTime x).keys = s.keys := rfl
@[simp] theorem State.putTime_trust (x) : (s.putTime x).trust = s.trust := rfl
@[simp] theorem State.putTime_dma (x) : (s.putTime x).dma = s.dma := rfl
@[simp] theorem State.putTime_putTime (x y) : (s.putTime x).putTime y = s.putTime y := rfl
@[simp] theorem State.putTime_self : s.putTime s.time = s := rfl

/-! ### putTide -/

@[simp] theorem State.putTide_pending (x) : (s.putTide x).pending = s.pending := rfl
@[simp] theorem State.putTide_regs (x) : (s.putTide x).regs = s.regs := rfl
@[simp] theorem State.putTide_latch (x) : (s.putTide x).latch = s.latch := rfl
@[simp] theorem State.putTide_stage (x) : (s.putTide x).stage = s.stage := rfl
@[simp] theorem State.putTide_out (x) : (s.putTide x).out = s.out := rfl
@[simp] theorem State.putTide_reply (x) : (s.putTide x).reply = s.reply := rfl
@[simp] theorem State.putTide_free (x) : (s.putTide x).free = s.free := rfl
@[simp] theorem State.putTide_plat (x) : (s.putTide x).plat = s.plat := rfl
@[simp] theorem State.putTide_time (x) : (s.putTide x).time = s.time := rfl
@[simp] theorem State.putTide_tide (x) : (s.putTide x).tide = x := rfl
@[simp] theorem State.putTide_trb (x) : (s.putTide x).trb = s.trb := rfl
@[simp] theorem State.putTide_eng (x) : (s.putTide x).eng = s.eng := rfl
@[simp] theorem State.putTide_micro (x) : (s.putTide x).micro = s.micro := rfl
@[simp] theorem State.putTide_hbm (x) : (s.putTide x).hbm = s.hbm := rfl
@[simp] theorem State.putTide_cfl (x) : (s.putTide x).cfl = s.cfl := rfl
@[simp] theorem State.putTide_sch (x) : (s.putTide x).sch = s.sch := rfl
@[simp] theorem State.putTide_intake (x) : (s.putTide x).intake = s.intake := rfl
@[simp] theorem State.putTide_look (x) : (s.putTide x).look = s.look := rfl
@[simp] theorem State.putTide_ring (x) : (s.putTide x).ring = s.ring := rfl
@[simp] theorem State.putTide_sto (x) : (s.putTide x).sto = s.sto := rfl
@[simp] theorem State.putTide_link (x) : (s.putTide x).link = s.link := rfl
@[simp] theorem State.putTide_keys (x) : (s.putTide x).keys = s.keys := rfl
@[simp] theorem State.putTide_trust (x) : (s.putTide x).trust = s.trust := rfl
@[simp] theorem State.putTide_dma (x) : (s.putTide x).dma = s.dma := rfl
@[simp] theorem State.putTide_putTide (x y) : (s.putTide x).putTide y = s.putTide y := rfl
@[simp] theorem State.putTide_self : s.putTide s.tide = s := rfl

/-! ### putTrb -/

@[simp] theorem State.putTrb_pending (x) : (s.putTrb x).pending = s.pending := rfl
@[simp] theorem State.putTrb_regs (x) : (s.putTrb x).regs = s.regs := rfl
@[simp] theorem State.putTrb_latch (x) : (s.putTrb x).latch = s.latch := rfl
@[simp] theorem State.putTrb_stage (x) : (s.putTrb x).stage = s.stage := rfl
@[simp] theorem State.putTrb_out (x) : (s.putTrb x).out = s.out := rfl
@[simp] theorem State.putTrb_reply (x) : (s.putTrb x).reply = s.reply := rfl
@[simp] theorem State.putTrb_free (x) : (s.putTrb x).free = s.free := rfl
@[simp] theorem State.putTrb_plat (x) : (s.putTrb x).plat = s.plat := rfl
@[simp] theorem State.putTrb_time (x) : (s.putTrb x).time = s.time := rfl
@[simp] theorem State.putTrb_tide (x) : (s.putTrb x).tide = s.tide := rfl
@[simp] theorem State.putTrb_trb (x) : (s.putTrb x).trb = x := rfl
@[simp] theorem State.putTrb_eng (x) : (s.putTrb x).eng = s.eng := rfl
@[simp] theorem State.putTrb_micro (x) : (s.putTrb x).micro = s.micro := rfl
@[simp] theorem State.putTrb_hbm (x) : (s.putTrb x).hbm = s.hbm := rfl
@[simp] theorem State.putTrb_cfl (x) : (s.putTrb x).cfl = s.cfl := rfl
@[simp] theorem State.putTrb_sch (x) : (s.putTrb x).sch = s.sch := rfl
@[simp] theorem State.putTrb_intake (x) : (s.putTrb x).intake = s.intake := rfl
@[simp] theorem State.putTrb_look (x) : (s.putTrb x).look = s.look := rfl
@[simp] theorem State.putTrb_ring (x) : (s.putTrb x).ring = s.ring := rfl
@[simp] theorem State.putTrb_sto (x) : (s.putTrb x).sto = s.sto := rfl
@[simp] theorem State.putTrb_link (x) : (s.putTrb x).link = s.link := rfl
@[simp] theorem State.putTrb_keys (x) : (s.putTrb x).keys = s.keys := rfl
@[simp] theorem State.putTrb_trust (x) : (s.putTrb x).trust = s.trust := rfl
@[simp] theorem State.putTrb_dma (x) : (s.putTrb x).dma = s.dma := rfl
@[simp] theorem State.putTrb_putTrb (x y) : (s.putTrb x).putTrb y = s.putTrb y := rfl
@[simp] theorem State.putTrb_self : s.putTrb s.trb = s := rfl

/-! ### putEng -/

@[simp] theorem State.putEng_pending (x) : (s.putEng x).pending = s.pending := rfl
@[simp] theorem State.putEng_regs (x) : (s.putEng x).regs = s.regs := rfl
@[simp] theorem State.putEng_latch (x) : (s.putEng x).latch = s.latch := rfl
@[simp] theorem State.putEng_stage (x) : (s.putEng x).stage = s.stage := rfl
@[simp] theorem State.putEng_out (x) : (s.putEng x).out = s.out := rfl
@[simp] theorem State.putEng_reply (x) : (s.putEng x).reply = s.reply := rfl
@[simp] theorem State.putEng_free (x) : (s.putEng x).free = s.free := rfl
@[simp] theorem State.putEng_plat (x) : (s.putEng x).plat = s.plat := rfl
@[simp] theorem State.putEng_time (x) : (s.putEng x).time = s.time := rfl
@[simp] theorem State.putEng_tide (x) : (s.putEng x).tide = s.tide := rfl
@[simp] theorem State.putEng_trb (x) : (s.putEng x).trb = s.trb := rfl
@[simp] theorem State.putEng_eng (x) : (s.putEng x).eng = x := rfl
@[simp] theorem State.putEng_micro (x) : (s.putEng x).micro = s.micro := rfl
@[simp] theorem State.putEng_hbm (x) : (s.putEng x).hbm = s.hbm := rfl
@[simp] theorem State.putEng_cfl (x) : (s.putEng x).cfl = s.cfl := rfl
@[simp] theorem State.putEng_sch (x) : (s.putEng x).sch = s.sch := rfl
@[simp] theorem State.putEng_intake (x) : (s.putEng x).intake = s.intake := rfl
@[simp] theorem State.putEng_look (x) : (s.putEng x).look = s.look := rfl
@[simp] theorem State.putEng_ring (x) : (s.putEng x).ring = s.ring := rfl
@[simp] theorem State.putEng_sto (x) : (s.putEng x).sto = s.sto := rfl
@[simp] theorem State.putEng_link (x) : (s.putEng x).link = s.link := rfl
@[simp] theorem State.putEng_keys (x) : (s.putEng x).keys = s.keys := rfl
@[simp] theorem State.putEng_trust (x) : (s.putEng x).trust = s.trust := rfl
@[simp] theorem State.putEng_dma (x) : (s.putEng x).dma = s.dma := rfl
@[simp] theorem State.putEng_putEng (x y) : (s.putEng x).putEng y = s.putEng y := rfl
@[simp] theorem State.putEng_self : s.putEng s.eng = s := rfl

/-! ### putMicro -/

@[simp] theorem State.putMicro_pending (x) : (s.putMicro x).pending = s.pending := rfl
@[simp] theorem State.putMicro_regs (x) : (s.putMicro x).regs = s.regs := rfl
@[simp] theorem State.putMicro_latch (x) : (s.putMicro x).latch = s.latch := rfl
@[simp] theorem State.putMicro_stage (x) : (s.putMicro x).stage = s.stage := rfl
@[simp] theorem State.putMicro_out (x) : (s.putMicro x).out = s.out := rfl
@[simp] theorem State.putMicro_reply (x) : (s.putMicro x).reply = s.reply := rfl
@[simp] theorem State.putMicro_free (x) : (s.putMicro x).free = s.free := rfl
@[simp] theorem State.putMicro_plat (x) : (s.putMicro x).plat = s.plat := rfl
@[simp] theorem State.putMicro_time (x) : (s.putMicro x).time = s.time := rfl
@[simp] theorem State.putMicro_tide (x) : (s.putMicro x).tide = s.tide := rfl
@[simp] theorem State.putMicro_trb (x) : (s.putMicro x).trb = s.trb := rfl
@[simp] theorem State.putMicro_eng (x) : (s.putMicro x).eng = s.eng := rfl
@[simp] theorem State.putMicro_micro (x) : (s.putMicro x).micro = x := rfl
@[simp] theorem State.putMicro_hbm (x) : (s.putMicro x).hbm = s.hbm := rfl
@[simp] theorem State.putMicro_cfl (x) : (s.putMicro x).cfl = s.cfl := rfl
@[simp] theorem State.putMicro_sch (x) : (s.putMicro x).sch = s.sch := rfl
@[simp] theorem State.putMicro_intake (x) : (s.putMicro x).intake = s.intake := rfl
@[simp] theorem State.putMicro_look (x) : (s.putMicro x).look = s.look := rfl
@[simp] theorem State.putMicro_ring (x) : (s.putMicro x).ring = s.ring := rfl
@[simp] theorem State.putMicro_sto (x) : (s.putMicro x).sto = s.sto := rfl
@[simp] theorem State.putMicro_link (x) : (s.putMicro x).link = s.link := rfl
@[simp] theorem State.putMicro_keys (x) : (s.putMicro x).keys = s.keys := rfl
@[simp] theorem State.putMicro_trust (x) : (s.putMicro x).trust = s.trust := rfl
@[simp] theorem State.putMicro_dma (x) : (s.putMicro x).dma = s.dma := rfl
@[simp] theorem State.putMicro_putMicro (x y) : (s.putMicro x).putMicro y = s.putMicro y := rfl
@[simp] theorem State.putMicro_self : s.putMicro s.micro = s := rfl

/-! ### putHbm -/

@[simp] theorem State.putHbm_pending (x) : (s.putHbm x).pending = s.pending := rfl
@[simp] theorem State.putHbm_regs (x) : (s.putHbm x).regs = s.regs := rfl
@[simp] theorem State.putHbm_latch (x) : (s.putHbm x).latch = s.latch := rfl
@[simp] theorem State.putHbm_stage (x) : (s.putHbm x).stage = s.stage := rfl
@[simp] theorem State.putHbm_out (x) : (s.putHbm x).out = s.out := rfl
@[simp] theorem State.putHbm_reply (x) : (s.putHbm x).reply = s.reply := rfl
@[simp] theorem State.putHbm_free (x) : (s.putHbm x).free = s.free := rfl
@[simp] theorem State.putHbm_plat (x) : (s.putHbm x).plat = s.plat := rfl
@[simp] theorem State.putHbm_time (x) : (s.putHbm x).time = s.time := rfl
@[simp] theorem State.putHbm_tide (x) : (s.putHbm x).tide = s.tide := rfl
@[simp] theorem State.putHbm_trb (x) : (s.putHbm x).trb = s.trb := rfl
@[simp] theorem State.putHbm_eng (x) : (s.putHbm x).eng = s.eng := rfl
@[simp] theorem State.putHbm_micro (x) : (s.putHbm x).micro = s.micro := rfl
@[simp] theorem State.putHbm_hbm (x) : (s.putHbm x).hbm = x := rfl
@[simp] theorem State.putHbm_cfl (x) : (s.putHbm x).cfl = s.cfl := rfl
@[simp] theorem State.putHbm_sch (x) : (s.putHbm x).sch = s.sch := rfl
@[simp] theorem State.putHbm_intake (x) : (s.putHbm x).intake = s.intake := rfl
@[simp] theorem State.putHbm_look (x) : (s.putHbm x).look = s.look := rfl
@[simp] theorem State.putHbm_ring (x) : (s.putHbm x).ring = s.ring := rfl
@[simp] theorem State.putHbm_sto (x) : (s.putHbm x).sto = s.sto := rfl
@[simp] theorem State.putHbm_link (x) : (s.putHbm x).link = s.link := rfl
@[simp] theorem State.putHbm_keys (x) : (s.putHbm x).keys = s.keys := rfl
@[simp] theorem State.putHbm_trust (x) : (s.putHbm x).trust = s.trust := rfl
@[simp] theorem State.putHbm_dma (x) : (s.putHbm x).dma = s.dma := rfl
@[simp] theorem State.putHbm_putHbm (x y) : (s.putHbm x).putHbm y = s.putHbm y := rfl
@[simp] theorem State.putHbm_self : s.putHbm s.hbm = s := rfl

/-! ### putCfl -/

@[simp] theorem State.putCfl_pending (x) : (s.putCfl x).pending = s.pending := rfl
@[simp] theorem State.putCfl_regs (x) : (s.putCfl x).regs = s.regs := rfl
@[simp] theorem State.putCfl_latch (x) : (s.putCfl x).latch = s.latch := rfl
@[simp] theorem State.putCfl_stage (x) : (s.putCfl x).stage = s.stage := rfl
@[simp] theorem State.putCfl_out (x) : (s.putCfl x).out = s.out := rfl
@[simp] theorem State.putCfl_reply (x) : (s.putCfl x).reply = s.reply := rfl
@[simp] theorem State.putCfl_free (x) : (s.putCfl x).free = s.free := rfl
@[simp] theorem State.putCfl_plat (x) : (s.putCfl x).plat = s.plat := rfl
@[simp] theorem State.putCfl_time (x) : (s.putCfl x).time = s.time := rfl
@[simp] theorem State.putCfl_tide (x) : (s.putCfl x).tide = s.tide := rfl
@[simp] theorem State.putCfl_trb (x) : (s.putCfl x).trb = s.trb := rfl
@[simp] theorem State.putCfl_eng (x) : (s.putCfl x).eng = s.eng := rfl
@[simp] theorem State.putCfl_micro (x) : (s.putCfl x).micro = s.micro := rfl
@[simp] theorem State.putCfl_hbm (x) : (s.putCfl x).hbm = s.hbm := rfl
@[simp] theorem State.putCfl_cfl (x) : (s.putCfl x).cfl = x := rfl
@[simp] theorem State.putCfl_sch (x) : (s.putCfl x).sch = s.sch := rfl
@[simp] theorem State.putCfl_intake (x) : (s.putCfl x).intake = s.intake := rfl
@[simp] theorem State.putCfl_look (x) : (s.putCfl x).look = s.look := rfl
@[simp] theorem State.putCfl_ring (x) : (s.putCfl x).ring = s.ring := rfl
@[simp] theorem State.putCfl_sto (x) : (s.putCfl x).sto = s.sto := rfl
@[simp] theorem State.putCfl_link (x) : (s.putCfl x).link = s.link := rfl
@[simp] theorem State.putCfl_keys (x) : (s.putCfl x).keys = s.keys := rfl
@[simp] theorem State.putCfl_trust (x) : (s.putCfl x).trust = s.trust := rfl
@[simp] theorem State.putCfl_dma (x) : (s.putCfl x).dma = s.dma := rfl
@[simp] theorem State.putCfl_putCfl (x y) : (s.putCfl x).putCfl y = s.putCfl y := rfl
@[simp] theorem State.putCfl_self : s.putCfl s.cfl = s := rfl

/-! ### putSch -/

@[simp] theorem State.putSch_pending (x) : (s.putSch x).pending = s.pending := rfl
@[simp] theorem State.putSch_regs (x) : (s.putSch x).regs = s.regs := rfl
@[simp] theorem State.putSch_latch (x) : (s.putSch x).latch = s.latch := rfl
@[simp] theorem State.putSch_stage (x) : (s.putSch x).stage = s.stage := rfl
@[simp] theorem State.putSch_out (x) : (s.putSch x).out = s.out := rfl
@[simp] theorem State.putSch_reply (x) : (s.putSch x).reply = s.reply := rfl
@[simp] theorem State.putSch_free (x) : (s.putSch x).free = s.free := rfl
@[simp] theorem State.putSch_plat (x) : (s.putSch x).plat = s.plat := rfl
@[simp] theorem State.putSch_time (x) : (s.putSch x).time = s.time := rfl
@[simp] theorem State.putSch_tide (x) : (s.putSch x).tide = s.tide := rfl
@[simp] theorem State.putSch_trb (x) : (s.putSch x).trb = s.trb := rfl
@[simp] theorem State.putSch_eng (x) : (s.putSch x).eng = s.eng := rfl
@[simp] theorem State.putSch_micro (x) : (s.putSch x).micro = s.micro := rfl
@[simp] theorem State.putSch_hbm (x) : (s.putSch x).hbm = s.hbm := rfl
@[simp] theorem State.putSch_cfl (x) : (s.putSch x).cfl = s.cfl := rfl
@[simp] theorem State.putSch_sch (x) : (s.putSch x).sch = x := rfl
@[simp] theorem State.putSch_intake (x) : (s.putSch x).intake = s.intake := rfl
@[simp] theorem State.putSch_look (x) : (s.putSch x).look = s.look := rfl
@[simp] theorem State.putSch_ring (x) : (s.putSch x).ring = s.ring := rfl
@[simp] theorem State.putSch_sto (x) : (s.putSch x).sto = s.sto := rfl
@[simp] theorem State.putSch_link (x) : (s.putSch x).link = s.link := rfl
@[simp] theorem State.putSch_keys (x) : (s.putSch x).keys = s.keys := rfl
@[simp] theorem State.putSch_trust (x) : (s.putSch x).trust = s.trust := rfl
@[simp] theorem State.putSch_dma (x) : (s.putSch x).dma = s.dma := rfl
@[simp] theorem State.putSch_putSch (x y) : (s.putSch x).putSch y = s.putSch y := rfl
@[simp] theorem State.putSch_self : s.putSch s.sch = s := rfl

/-! ### putIntake -/

@[simp] theorem State.putIntake_pending (x) : (s.putIntake x).pending = s.pending := rfl
@[simp] theorem State.putIntake_regs (x) : (s.putIntake x).regs = s.regs := rfl
@[simp] theorem State.putIntake_latch (x) : (s.putIntake x).latch = s.latch := rfl
@[simp] theorem State.putIntake_stage (x) : (s.putIntake x).stage = s.stage := rfl
@[simp] theorem State.putIntake_out (x) : (s.putIntake x).out = s.out := rfl
@[simp] theorem State.putIntake_reply (x) : (s.putIntake x).reply = s.reply := rfl
@[simp] theorem State.putIntake_free (x) : (s.putIntake x).free = s.free := rfl
@[simp] theorem State.putIntake_plat (x) : (s.putIntake x).plat = s.plat := rfl
@[simp] theorem State.putIntake_time (x) : (s.putIntake x).time = s.time := rfl
@[simp] theorem State.putIntake_tide (x) : (s.putIntake x).tide = s.tide := rfl
@[simp] theorem State.putIntake_trb (x) : (s.putIntake x).trb = s.trb := rfl
@[simp] theorem State.putIntake_eng (x) : (s.putIntake x).eng = s.eng := rfl
@[simp] theorem State.putIntake_micro (x) : (s.putIntake x).micro = s.micro := rfl
@[simp] theorem State.putIntake_hbm (x) : (s.putIntake x).hbm = s.hbm := rfl
@[simp] theorem State.putIntake_cfl (x) : (s.putIntake x).cfl = s.cfl := rfl
@[simp] theorem State.putIntake_sch (x) : (s.putIntake x).sch = s.sch := rfl
@[simp] theorem State.putIntake_intake (x) : (s.putIntake x).intake = x := rfl
@[simp] theorem State.putIntake_look (x) : (s.putIntake x).look = s.look := rfl
@[simp] theorem State.putIntake_ring (x) : (s.putIntake x).ring = s.ring := rfl
@[simp] theorem State.putIntake_sto (x) : (s.putIntake x).sto = s.sto := rfl
@[simp] theorem State.putIntake_link (x) : (s.putIntake x).link = s.link := rfl
@[simp] theorem State.putIntake_keys (x) : (s.putIntake x).keys = s.keys := rfl
@[simp] theorem State.putIntake_trust (x) : (s.putIntake x).trust = s.trust := rfl
@[simp] theorem State.putIntake_dma (x) : (s.putIntake x).dma = s.dma := rfl
@[simp] theorem State.putIntake_putIntake (x y) : (s.putIntake x).putIntake y = s.putIntake y := rfl
@[simp] theorem State.putIntake_self : s.putIntake s.intake = s := rfl

/-! ### putLook -/

@[simp] theorem State.putLook_pending (x) : (s.putLook x).pending = s.pending := rfl
@[simp] theorem State.putLook_regs (x) : (s.putLook x).regs = s.regs := rfl
@[simp] theorem State.putLook_latch (x) : (s.putLook x).latch = s.latch := rfl
@[simp] theorem State.putLook_stage (x) : (s.putLook x).stage = s.stage := rfl
@[simp] theorem State.putLook_out (x) : (s.putLook x).out = s.out := rfl
@[simp] theorem State.putLook_reply (x) : (s.putLook x).reply = s.reply := rfl
@[simp] theorem State.putLook_free (x) : (s.putLook x).free = s.free := rfl
@[simp] theorem State.putLook_plat (x) : (s.putLook x).plat = s.plat := rfl
@[simp] theorem State.putLook_time (x) : (s.putLook x).time = s.time := rfl
@[simp] theorem State.putLook_tide (x) : (s.putLook x).tide = s.tide := rfl
@[simp] theorem State.putLook_trb (x) : (s.putLook x).trb = s.trb := rfl
@[simp] theorem State.putLook_eng (x) : (s.putLook x).eng = s.eng := rfl
@[simp] theorem State.putLook_micro (x) : (s.putLook x).micro = s.micro := rfl
@[simp] theorem State.putLook_hbm (x) : (s.putLook x).hbm = s.hbm := rfl
@[simp] theorem State.putLook_cfl (x) : (s.putLook x).cfl = s.cfl := rfl
@[simp] theorem State.putLook_sch (x) : (s.putLook x).sch = s.sch := rfl
@[simp] theorem State.putLook_intake (x) : (s.putLook x).intake = s.intake := rfl
@[simp] theorem State.putLook_look (x) : (s.putLook x).look = x := rfl
@[simp] theorem State.putLook_ring (x) : (s.putLook x).ring = s.ring := rfl
@[simp] theorem State.putLook_sto (x) : (s.putLook x).sto = s.sto := rfl
@[simp] theorem State.putLook_link (x) : (s.putLook x).link = s.link := rfl
@[simp] theorem State.putLook_keys (x) : (s.putLook x).keys = s.keys := rfl
@[simp] theorem State.putLook_trust (x) : (s.putLook x).trust = s.trust := rfl
@[simp] theorem State.putLook_dma (x) : (s.putLook x).dma = s.dma := rfl
@[simp] theorem State.putLook_putLook (x y) : (s.putLook x).putLook y = s.putLook y := rfl
@[simp] theorem State.putLook_self : s.putLook s.look = s := rfl

/-! ### putRing -/

@[simp] theorem State.putRing_pending (x) : (s.putRing x).pending = s.pending := rfl
@[simp] theorem State.putRing_regs (x) : (s.putRing x).regs = s.regs := rfl
@[simp] theorem State.putRing_latch (x) : (s.putRing x).latch = s.latch := rfl
@[simp] theorem State.putRing_stage (x) : (s.putRing x).stage = s.stage := rfl
@[simp] theorem State.putRing_out (x) : (s.putRing x).out = s.out := rfl
@[simp] theorem State.putRing_reply (x) : (s.putRing x).reply = s.reply := rfl
@[simp] theorem State.putRing_free (x) : (s.putRing x).free = s.free := rfl
@[simp] theorem State.putRing_plat (x) : (s.putRing x).plat = s.plat := rfl
@[simp] theorem State.putRing_time (x) : (s.putRing x).time = s.time := rfl
@[simp] theorem State.putRing_tide (x) : (s.putRing x).tide = s.tide := rfl
@[simp] theorem State.putRing_trb (x) : (s.putRing x).trb = s.trb := rfl
@[simp] theorem State.putRing_eng (x) : (s.putRing x).eng = s.eng := rfl
@[simp] theorem State.putRing_micro (x) : (s.putRing x).micro = s.micro := rfl
@[simp] theorem State.putRing_hbm (x) : (s.putRing x).hbm = s.hbm := rfl
@[simp] theorem State.putRing_cfl (x) : (s.putRing x).cfl = s.cfl := rfl
@[simp] theorem State.putRing_sch (x) : (s.putRing x).sch = s.sch := rfl
@[simp] theorem State.putRing_intake (x) : (s.putRing x).intake = s.intake := rfl
@[simp] theorem State.putRing_look (x) : (s.putRing x).look = s.look := rfl
@[simp] theorem State.putRing_ring (x) : (s.putRing x).ring = x := rfl
@[simp] theorem State.putRing_sto (x) : (s.putRing x).sto = s.sto := rfl
@[simp] theorem State.putRing_link (x) : (s.putRing x).link = s.link := rfl
@[simp] theorem State.putRing_keys (x) : (s.putRing x).keys = s.keys := rfl
@[simp] theorem State.putRing_trust (x) : (s.putRing x).trust = s.trust := rfl
@[simp] theorem State.putRing_dma (x) : (s.putRing x).dma = s.dma := rfl
@[simp] theorem State.putRing_putRing (x y) : (s.putRing x).putRing y = s.putRing y := rfl
@[simp] theorem State.putRing_self : s.putRing s.ring = s := rfl

/-! ### putSto -/

@[simp] theorem State.putSto_pending (x) : (s.putSto x).pending = s.pending := rfl
@[simp] theorem State.putSto_regs (x) : (s.putSto x).regs = s.regs := rfl
@[simp] theorem State.putSto_latch (x) : (s.putSto x).latch = s.latch := rfl
@[simp] theorem State.putSto_stage (x) : (s.putSto x).stage = s.stage := rfl
@[simp] theorem State.putSto_out (x) : (s.putSto x).out = s.out := rfl
@[simp] theorem State.putSto_reply (x) : (s.putSto x).reply = s.reply := rfl
@[simp] theorem State.putSto_free (x) : (s.putSto x).free = s.free := rfl
@[simp] theorem State.putSto_plat (x) : (s.putSto x).plat = s.plat := rfl
@[simp] theorem State.putSto_time (x) : (s.putSto x).time = s.time := rfl
@[simp] theorem State.putSto_tide (x) : (s.putSto x).tide = s.tide := rfl
@[simp] theorem State.putSto_trb (x) : (s.putSto x).trb = s.trb := rfl
@[simp] theorem State.putSto_eng (x) : (s.putSto x).eng = s.eng := rfl
@[simp] theorem State.putSto_micro (x) : (s.putSto x).micro = s.micro := rfl
@[simp] theorem State.putSto_hbm (x) : (s.putSto x).hbm = s.hbm := rfl
@[simp] theorem State.putSto_cfl (x) : (s.putSto x).cfl = s.cfl := rfl
@[simp] theorem State.putSto_sch (x) : (s.putSto x).sch = s.sch := rfl
@[simp] theorem State.putSto_intake (x) : (s.putSto x).intake = s.intake := rfl
@[simp] theorem State.putSto_look (x) : (s.putSto x).look = s.look := rfl
@[simp] theorem State.putSto_ring (x) : (s.putSto x).ring = s.ring := rfl
@[simp] theorem State.putSto_sto (x) : (s.putSto x).sto = x := rfl
@[simp] theorem State.putSto_link (x) : (s.putSto x).link = s.link := rfl
@[simp] theorem State.putSto_keys (x) : (s.putSto x).keys = s.keys := rfl
@[simp] theorem State.putSto_trust (x) : (s.putSto x).trust = s.trust := rfl
@[simp] theorem State.putSto_dma (x) : (s.putSto x).dma = s.dma := rfl
@[simp] theorem State.putSto_putSto (x y) : (s.putSto x).putSto y = s.putSto y := rfl
@[simp] theorem State.putSto_self : s.putSto s.sto = s := rfl

/-! ### putLink -/

@[simp] theorem State.putLink_pending (x) : (s.putLink x).pending = s.pending := rfl
@[simp] theorem State.putLink_regs (x) : (s.putLink x).regs = s.regs := rfl
@[simp] theorem State.putLink_latch (x) : (s.putLink x).latch = s.latch := rfl
@[simp] theorem State.putLink_stage (x) : (s.putLink x).stage = s.stage := rfl
@[simp] theorem State.putLink_out (x) : (s.putLink x).out = s.out := rfl
@[simp] theorem State.putLink_reply (x) : (s.putLink x).reply = s.reply := rfl
@[simp] theorem State.putLink_free (x) : (s.putLink x).free = s.free := rfl
@[simp] theorem State.putLink_plat (x) : (s.putLink x).plat = s.plat := rfl
@[simp] theorem State.putLink_time (x) : (s.putLink x).time = s.time := rfl
@[simp] theorem State.putLink_tide (x) : (s.putLink x).tide = s.tide := rfl
@[simp] theorem State.putLink_trb (x) : (s.putLink x).trb = s.trb := rfl
@[simp] theorem State.putLink_eng (x) : (s.putLink x).eng = s.eng := rfl
@[simp] theorem State.putLink_micro (x) : (s.putLink x).micro = s.micro := rfl
@[simp] theorem State.putLink_hbm (x) : (s.putLink x).hbm = s.hbm := rfl
@[simp] theorem State.putLink_cfl (x) : (s.putLink x).cfl = s.cfl := rfl
@[simp] theorem State.putLink_sch (x) : (s.putLink x).sch = s.sch := rfl
@[simp] theorem State.putLink_intake (x) : (s.putLink x).intake = s.intake := rfl
@[simp] theorem State.putLink_look (x) : (s.putLink x).look = s.look := rfl
@[simp] theorem State.putLink_ring (x) : (s.putLink x).ring = s.ring := rfl
@[simp] theorem State.putLink_sto (x) : (s.putLink x).sto = s.sto := rfl
@[simp] theorem State.putLink_link (x) : (s.putLink x).link = x := rfl
@[simp] theorem State.putLink_keys (x) : (s.putLink x).keys = s.keys := rfl
@[simp] theorem State.putLink_trust (x) : (s.putLink x).trust = s.trust := rfl
@[simp] theorem State.putLink_dma (x) : (s.putLink x).dma = s.dma := rfl
@[simp] theorem State.putLink_putLink (x y) : (s.putLink x).putLink y = s.putLink y := rfl
@[simp] theorem State.putLink_self : s.putLink s.link = s := rfl

/-! ### putKeys -/

@[simp] theorem State.putKeys_pending (x) : (s.putKeys x).pending = s.pending := rfl
@[simp] theorem State.putKeys_regs (x) : (s.putKeys x).regs = s.regs := rfl
@[simp] theorem State.putKeys_latch (x) : (s.putKeys x).latch = s.latch := rfl
@[simp] theorem State.putKeys_stage (x) : (s.putKeys x).stage = s.stage := rfl
@[simp] theorem State.putKeys_out (x) : (s.putKeys x).out = s.out := rfl
@[simp] theorem State.putKeys_reply (x) : (s.putKeys x).reply = s.reply := rfl
@[simp] theorem State.putKeys_free (x) : (s.putKeys x).free = s.free := rfl
@[simp] theorem State.putKeys_plat (x) : (s.putKeys x).plat = s.plat := rfl
@[simp] theorem State.putKeys_time (x) : (s.putKeys x).time = s.time := rfl
@[simp] theorem State.putKeys_tide (x) : (s.putKeys x).tide = s.tide := rfl
@[simp] theorem State.putKeys_trb (x) : (s.putKeys x).trb = s.trb := rfl
@[simp] theorem State.putKeys_eng (x) : (s.putKeys x).eng = s.eng := rfl
@[simp] theorem State.putKeys_micro (x) : (s.putKeys x).micro = s.micro := rfl
@[simp] theorem State.putKeys_hbm (x) : (s.putKeys x).hbm = s.hbm := rfl
@[simp] theorem State.putKeys_cfl (x) : (s.putKeys x).cfl = s.cfl := rfl
@[simp] theorem State.putKeys_sch (x) : (s.putKeys x).sch = s.sch := rfl
@[simp] theorem State.putKeys_intake (x) : (s.putKeys x).intake = s.intake := rfl
@[simp] theorem State.putKeys_look (x) : (s.putKeys x).look = s.look := rfl
@[simp] theorem State.putKeys_ring (x) : (s.putKeys x).ring = s.ring := rfl
@[simp] theorem State.putKeys_sto (x) : (s.putKeys x).sto = s.sto := rfl
@[simp] theorem State.putKeys_link (x) : (s.putKeys x).link = s.link := rfl
@[simp] theorem State.putKeys_keys (x) : (s.putKeys x).keys = x := rfl
@[simp] theorem State.putKeys_trust (x) : (s.putKeys x).trust = s.trust := rfl
@[simp] theorem State.putKeys_dma (x) : (s.putKeys x).dma = s.dma := rfl
@[simp] theorem State.putKeys_putKeys (x y) : (s.putKeys x).putKeys y = s.putKeys y := rfl
@[simp] theorem State.putKeys_self : s.putKeys s.keys = s := rfl

/-! ### putTrust -/

@[simp] theorem State.putTrust_pending (x) : (s.putTrust x).pending = s.pending := rfl
@[simp] theorem State.putTrust_regs (x) : (s.putTrust x).regs = s.regs := rfl
@[simp] theorem State.putTrust_latch (x) : (s.putTrust x).latch = s.latch := rfl
@[simp] theorem State.putTrust_stage (x) : (s.putTrust x).stage = s.stage := rfl
@[simp] theorem State.putTrust_out (x) : (s.putTrust x).out = s.out := rfl
@[simp] theorem State.putTrust_reply (x) : (s.putTrust x).reply = s.reply := rfl
@[simp] theorem State.putTrust_free (x) : (s.putTrust x).free = s.free := rfl
@[simp] theorem State.putTrust_plat (x) : (s.putTrust x).plat = s.plat := rfl
@[simp] theorem State.putTrust_time (x) : (s.putTrust x).time = s.time := rfl
@[simp] theorem State.putTrust_tide (x) : (s.putTrust x).tide = s.tide := rfl
@[simp] theorem State.putTrust_trb (x) : (s.putTrust x).trb = s.trb := rfl
@[simp] theorem State.putTrust_eng (x) : (s.putTrust x).eng = s.eng := rfl
@[simp] theorem State.putTrust_micro (x) : (s.putTrust x).micro = s.micro := rfl
@[simp] theorem State.putTrust_hbm (x) : (s.putTrust x).hbm = s.hbm := rfl
@[simp] theorem State.putTrust_cfl (x) : (s.putTrust x).cfl = s.cfl := rfl
@[simp] theorem State.putTrust_sch (x) : (s.putTrust x).sch = s.sch := rfl
@[simp] theorem State.putTrust_intake (x) : (s.putTrust x).intake = s.intake := rfl
@[simp] theorem State.putTrust_look (x) : (s.putTrust x).look = s.look := rfl
@[simp] theorem State.putTrust_ring (x) : (s.putTrust x).ring = s.ring := rfl
@[simp] theorem State.putTrust_sto (x) : (s.putTrust x).sto = s.sto := rfl
@[simp] theorem State.putTrust_link (x) : (s.putTrust x).link = s.link := rfl
@[simp] theorem State.putTrust_keys (x) : (s.putTrust x).keys = s.keys := rfl
@[simp] theorem State.putTrust_trust (x) : (s.putTrust x).trust = x := rfl
@[simp] theorem State.putTrust_dma (x) : (s.putTrust x).dma = s.dma := rfl
@[simp] theorem State.putTrust_putTrust (x y) : (s.putTrust x).putTrust y = s.putTrust y := rfl
@[simp] theorem State.putTrust_self : s.putTrust s.trust = s := rfl

/-! ### putDma -/

@[simp] theorem State.putDma_pending (x) : (s.putDma x).pending = s.pending := rfl
@[simp] theorem State.putDma_regs (x) : (s.putDma x).regs = s.regs := rfl
@[simp] theorem State.putDma_latch (x) : (s.putDma x).latch = s.latch := rfl
@[simp] theorem State.putDma_stage (x) : (s.putDma x).stage = s.stage := rfl
@[simp] theorem State.putDma_out (x) : (s.putDma x).out = s.out := rfl
@[simp] theorem State.putDma_reply (x) : (s.putDma x).reply = s.reply := rfl
@[simp] theorem State.putDma_free (x) : (s.putDma x).free = s.free := rfl
@[simp] theorem State.putDma_plat (x) : (s.putDma x).plat = s.plat := rfl
@[simp] theorem State.putDma_time (x) : (s.putDma x).time = s.time := rfl
@[simp] theorem State.putDma_tide (x) : (s.putDma x).tide = s.tide := rfl
@[simp] theorem State.putDma_trb (x) : (s.putDma x).trb = s.trb := rfl
@[simp] theorem State.putDma_eng (x) : (s.putDma x).eng = s.eng := rfl
@[simp] theorem State.putDma_micro (x) : (s.putDma x).micro = s.micro := rfl
@[simp] theorem State.putDma_hbm (x) : (s.putDma x).hbm = s.hbm := rfl
@[simp] theorem State.putDma_cfl (x) : (s.putDma x).cfl = s.cfl := rfl
@[simp] theorem State.putDma_sch (x) : (s.putDma x).sch = s.sch := rfl
@[simp] theorem State.putDma_intake (x) : (s.putDma x).intake = s.intake := rfl
@[simp] theorem State.putDma_look (x) : (s.putDma x).look = s.look := rfl
@[simp] theorem State.putDma_ring (x) : (s.putDma x).ring = s.ring := rfl
@[simp] theorem State.putDma_sto (x) : (s.putDma x).sto = s.sto := rfl
@[simp] theorem State.putDma_link (x) : (s.putDma x).link = s.link := rfl
@[simp] theorem State.putDma_keys (x) : (s.putDma x).keys = s.keys := rfl
@[simp] theorem State.putDma_trust (x) : (s.putDma x).trust = s.trust := rfl
@[simp] theorem State.putDma_dma (x) : (s.putDma x).dma = x := rfl
@[simp] theorem State.putDma_putDma (x y) : (s.putDma x).putDma y = s.putDma y := rfl
@[simp] theorem State.putDma_self : s.putDma s.dma = s := rfl

/-! ### wr -/

@[simp] theorem State.wr_pending (r i v) : (s.wr r i v).pending = s.pending := rfl
@[simp] theorem State.wr_latch (r i v) : (s.wr r i v).latch = s.latch := rfl
@[simp] theorem State.wr_stage (r i v) : (s.wr r i v).stage = s.stage := rfl
@[simp] theorem State.wr_out (r i v) : (s.wr r i v).out = s.out := rfl
@[simp] theorem State.wr_reply (r i v) : (s.wr r i v).reply = s.reply := rfl
@[simp] theorem State.wr_free (r i v) : (s.wr r i v).free = s.free := rfl
@[simp] theorem State.wr_plat (r i v) : (s.wr r i v).plat = s.plat := rfl
@[simp] theorem State.wr_time (r i v) : (s.wr r i v).time = s.time := rfl
@[simp] theorem State.wr_tide (r i v) : (s.wr r i v).tide = s.tide := rfl
@[simp] theorem State.wr_trb (r i v) : (s.wr r i v).trb = s.trb := rfl
@[simp] theorem State.wr_eng (r i v) : (s.wr r i v).eng = s.eng := rfl
@[simp] theorem State.wr_micro (r i v) : (s.wr r i v).micro = s.micro := rfl
@[simp] theorem State.wr_hbm (r i v) : (s.wr r i v).hbm = s.hbm := rfl
@[simp] theorem State.wr_cfl (r i v) : (s.wr r i v).cfl = s.cfl := rfl
@[simp] theorem State.wr_sch (r i v) : (s.wr r i v).sch = s.sch := rfl
@[simp] theorem State.wr_intake (r i v) : (s.wr r i v).intake = s.intake := rfl
@[simp] theorem State.wr_look (r i v) : (s.wr r i v).look = s.look := rfl
@[simp] theorem State.wr_ring (r i v) : (s.wr r i v).ring = s.ring := rfl
@[simp] theorem State.wr_sto (r i v) : (s.wr r i v).sto = s.sto := rfl
@[simp] theorem State.wr_link (r i v) : (s.wr r i v).link = s.link := rfl
@[simp] theorem State.wr_keys (r i v) : (s.wr r i v).keys = s.keys := rfl
@[simp] theorem State.wr_trust (r i v) : (s.wr r i v).trust = s.trust := rfl
@[simp] theorem State.wr_dma (r i v) : (s.wr r i v).dma = s.dma := rfl

/-! ### setFld -/

@[simp] theorem State.setFld_pending (f i v) : (s.setFld f i v).pending = s.pending := rfl
@[simp] theorem State.setFld_latch (f i v) : (s.setFld f i v).latch = s.latch := rfl
@[simp] theorem State.setFld_stage (f i v) : (s.setFld f i v).stage = s.stage := rfl
@[simp] theorem State.setFld_out (f i v) : (s.setFld f i v).out = s.out := rfl
@[simp] theorem State.setFld_reply (f i v) : (s.setFld f i v).reply = s.reply := rfl
@[simp] theorem State.setFld_free (f i v) : (s.setFld f i v).free = s.free := rfl
@[simp] theorem State.setFld_plat (f i v) : (s.setFld f i v).plat = s.plat := rfl
@[simp] theorem State.setFld_time (f i v) : (s.setFld f i v).time = s.time := rfl
@[simp] theorem State.setFld_tide (f i v) : (s.setFld f i v).tide = s.tide := rfl
@[simp] theorem State.setFld_trb (f i v) : (s.setFld f i v).trb = s.trb := rfl
@[simp] theorem State.setFld_eng (f i v) : (s.setFld f i v).eng = s.eng := rfl
@[simp] theorem State.setFld_micro (f i v) : (s.setFld f i v).micro = s.micro := rfl
@[simp] theorem State.setFld_hbm (f i v) : (s.setFld f i v).hbm = s.hbm := rfl
@[simp] theorem State.setFld_cfl (f i v) : (s.setFld f i v).cfl = s.cfl := rfl
@[simp] theorem State.setFld_sch (f i v) : (s.setFld f i v).sch = s.sch := rfl
@[simp] theorem State.setFld_intake (f i v) : (s.setFld f i v).intake = s.intake := rfl
@[simp] theorem State.setFld_look (f i v) : (s.setFld f i v).look = s.look := rfl
@[simp] theorem State.setFld_ring (f i v) : (s.setFld f i v).ring = s.ring := rfl
@[simp] theorem State.setFld_sto (f i v) : (s.setFld f i v).sto = s.sto := rfl
@[simp] theorem State.setFld_link (f i v) : (s.setFld f i v).link = s.link := rfl
@[simp] theorem State.setFld_keys (f i v) : (s.setFld f i v).keys = s.keys := rfl
@[simp] theorem State.setFld_trust (f i v) : (s.setFld f i v).trust = s.trust := rfl
@[simp] theorem State.setFld_dma (f i v) : (s.setFld f i v).dma = s.dma := rfl

/-! ### wr64 -/

@[simp] theorem State.wr64_pending (l h i v) : (s.wr64 l h i v).pending = s.pending := rfl
@[simp] theorem State.wr64_latch (l h i v) : (s.wr64 l h i v).latch = s.latch := rfl
@[simp] theorem State.wr64_stage (l h i v) : (s.wr64 l h i v).stage = s.stage := rfl
@[simp] theorem State.wr64_out (l h i v) : (s.wr64 l h i v).out = s.out := rfl
@[simp] theorem State.wr64_reply (l h i v) : (s.wr64 l h i v).reply = s.reply := rfl
@[simp] theorem State.wr64_free (l h i v) : (s.wr64 l h i v).free = s.free := rfl
@[simp] theorem State.wr64_plat (l h i v) : (s.wr64 l h i v).plat = s.plat := rfl
@[simp] theorem State.wr64_time (l h i v) : (s.wr64 l h i v).time = s.time := rfl
@[simp] theorem State.wr64_tide (l h i v) : (s.wr64 l h i v).tide = s.tide := rfl
@[simp] theorem State.wr64_trb (l h i v) : (s.wr64 l h i v).trb = s.trb := rfl
@[simp] theorem State.wr64_eng (l h i v) : (s.wr64 l h i v).eng = s.eng := rfl
@[simp] theorem State.wr64_micro (l h i v) : (s.wr64 l h i v).micro = s.micro := rfl
@[simp] theorem State.wr64_hbm (l h i v) : (s.wr64 l h i v).hbm = s.hbm := rfl
@[simp] theorem State.wr64_cfl (l h i v) : (s.wr64 l h i v).cfl = s.cfl := rfl
@[simp] theorem State.wr64_sch (l h i v) : (s.wr64 l h i v).sch = s.sch := rfl
@[simp] theorem State.wr64_intake (l h i v) : (s.wr64 l h i v).intake = s.intake := rfl
@[simp] theorem State.wr64_look (l h i v) : (s.wr64 l h i v).look = s.look := rfl
@[simp] theorem State.wr64_ring (l h i v) : (s.wr64 l h i v).ring = s.ring := rfl
@[simp] theorem State.wr64_sto (l h i v) : (s.wr64 l h i v).sto = s.sto := rfl
@[simp] theorem State.wr64_link (l h i v) : (s.wr64 l h i v).link = s.link := rfl
@[simp] theorem State.wr64_keys (l h i v) : (s.wr64 l h i v).keys = s.keys := rfl
@[simp] theorem State.wr64_trust (l h i v) : (s.wr64 l h i v).trust = s.trust := rfl
@[simp] theorem State.wr64_dma (l h i v) : (s.wr64 l h i v).dma = s.dma := rfl

/-! ### satInc -/

@[simp] theorem State.satInc_pending (f i n) : (s.satInc f i n).pending = s.pending := rfl
@[simp] theorem State.satInc_latch (f i n) : (s.satInc f i n).latch = s.latch := rfl
@[simp] theorem State.satInc_stage (f i n) : (s.satInc f i n).stage = s.stage := rfl
@[simp] theorem State.satInc_out (f i n) : (s.satInc f i n).out = s.out := rfl
@[simp] theorem State.satInc_reply (f i n) : (s.satInc f i n).reply = s.reply := rfl
@[simp] theorem State.satInc_free (f i n) : (s.satInc f i n).free = s.free := rfl
@[simp] theorem State.satInc_plat (f i n) : (s.satInc f i n).plat = s.plat := rfl
@[simp] theorem State.satInc_time (f i n) : (s.satInc f i n).time = s.time := rfl
@[simp] theorem State.satInc_tide (f i n) : (s.satInc f i n).tide = s.tide := rfl
@[simp] theorem State.satInc_trb (f i n) : (s.satInc f i n).trb = s.trb := rfl
@[simp] theorem State.satInc_eng (f i n) : (s.satInc f i n).eng = s.eng := rfl
@[simp] theorem State.satInc_micro (f i n) : (s.satInc f i n).micro = s.micro := rfl
@[simp] theorem State.satInc_hbm (f i n) : (s.satInc f i n).hbm = s.hbm := rfl
@[simp] theorem State.satInc_cfl (f i n) : (s.satInc f i n).cfl = s.cfl := rfl
@[simp] theorem State.satInc_sch (f i n) : (s.satInc f i n).sch = s.sch := rfl
@[simp] theorem State.satInc_intake (f i n) : (s.satInc f i n).intake = s.intake := rfl
@[simp] theorem State.satInc_look (f i n) : (s.satInc f i n).look = s.look := rfl
@[simp] theorem State.satInc_ring (f i n) : (s.satInc f i n).ring = s.ring := rfl
@[simp] theorem State.satInc_sto (f i n) : (s.satInc f i n).sto = s.sto := rfl
@[simp] theorem State.satInc_link (f i n) : (s.satInc f i n).link = s.link := rfl
@[simp] theorem State.satInc_keys (f i n) : (s.satInc f i n).keys = s.keys := rfl
@[simp] theorem State.satInc_trust (f i n) : (s.satInc f i n).trust = s.trust := rfl
@[simp] theorem State.satInc_dma (f i n) : (s.satInc f i n).dma = s.dma := rfl

/-! ### modInc -/

@[simp] theorem State.modInc_pending (f i n) : (s.modInc f i n).pending = s.pending := rfl
@[simp] theorem State.modInc_latch (f i n) : (s.modInc f i n).latch = s.latch := rfl
@[simp] theorem State.modInc_stage (f i n) : (s.modInc f i n).stage = s.stage := rfl
@[simp] theorem State.modInc_out (f i n) : (s.modInc f i n).out = s.out := rfl
@[simp] theorem State.modInc_reply (f i n) : (s.modInc f i n).reply = s.reply := rfl
@[simp] theorem State.modInc_free (f i n) : (s.modInc f i n).free = s.free := rfl
@[simp] theorem State.modInc_plat (f i n) : (s.modInc f i n).plat = s.plat := rfl
@[simp] theorem State.modInc_time (f i n) : (s.modInc f i n).time = s.time := rfl
@[simp] theorem State.modInc_tide (f i n) : (s.modInc f i n).tide = s.tide := rfl
@[simp] theorem State.modInc_trb (f i n) : (s.modInc f i n).trb = s.trb := rfl
@[simp] theorem State.modInc_eng (f i n) : (s.modInc f i n).eng = s.eng := rfl
@[simp] theorem State.modInc_micro (f i n) : (s.modInc f i n).micro = s.micro := rfl
@[simp] theorem State.modInc_hbm (f i n) : (s.modInc f i n).hbm = s.hbm := rfl
@[simp] theorem State.modInc_cfl (f i n) : (s.modInc f i n).cfl = s.cfl := rfl
@[simp] theorem State.modInc_sch (f i n) : (s.modInc f i n).sch = s.sch := rfl
@[simp] theorem State.modInc_intake (f i n) : (s.modInc f i n).intake = s.intake := rfl
@[simp] theorem State.modInc_look (f i n) : (s.modInc f i n).look = s.look := rfl
@[simp] theorem State.modInc_ring (f i n) : (s.modInc f i n).ring = s.ring := rfl
@[simp] theorem State.modInc_sto (f i n) : (s.modInc f i n).sto = s.sto := rfl
@[simp] theorem State.modInc_link (f i n) : (s.modInc f i n).link = s.link := rfl
@[simp] theorem State.modInc_keys (f i n) : (s.modInc f i n).keys = s.keys := rfl
@[simp] theorem State.modInc_trust (f i n) : (s.modInc f i n).trust = s.trust := rfl
@[simp] theorem State.modInc_dma (f i n) : (s.modInc f i n).dma = s.dma := rfl

/-! ### setLatch -/

@[simp] theorem State.setLatch_pending (r i v) : (s.setLatch r i v).pending = s.pending := rfl
@[simp] theorem State.setLatch_regs (r i v) : (s.setLatch r i v).regs = s.regs := rfl
@[simp] theorem State.setLatch_stage (r i v) : (s.setLatch r i v).stage = s.stage := rfl
@[simp] theorem State.setLatch_out (r i v) : (s.setLatch r i v).out = s.out := rfl
@[simp] theorem State.setLatch_reply (r i v) : (s.setLatch r i v).reply = s.reply := rfl
@[simp] theorem State.setLatch_free (r i v) : (s.setLatch r i v).free = s.free := rfl
@[simp] theorem State.setLatch_plat (r i v) : (s.setLatch r i v).plat = s.plat := rfl
@[simp] theorem State.setLatch_time (r i v) : (s.setLatch r i v).time = s.time := rfl
@[simp] theorem State.setLatch_tide (r i v) : (s.setLatch r i v).tide = s.tide := rfl
@[simp] theorem State.setLatch_trb (r i v) : (s.setLatch r i v).trb = s.trb := rfl
@[simp] theorem State.setLatch_eng (r i v) : (s.setLatch r i v).eng = s.eng := rfl
@[simp] theorem State.setLatch_micro (r i v) : (s.setLatch r i v).micro = s.micro := rfl
@[simp] theorem State.setLatch_hbm (r i v) : (s.setLatch r i v).hbm = s.hbm := rfl
@[simp] theorem State.setLatch_cfl (r i v) : (s.setLatch r i v).cfl = s.cfl := rfl
@[simp] theorem State.setLatch_sch (r i v) : (s.setLatch r i v).sch = s.sch := rfl
@[simp] theorem State.setLatch_intake (r i v) : (s.setLatch r i v).intake = s.intake := rfl
@[simp] theorem State.setLatch_look (r i v) : (s.setLatch r i v).look = s.look := rfl
@[simp] theorem State.setLatch_ring (r i v) : (s.setLatch r i v).ring = s.ring := rfl
@[simp] theorem State.setLatch_sto (r i v) : (s.setLatch r i v).sto = s.sto := rfl
@[simp] theorem State.setLatch_link (r i v) : (s.setLatch r i v).link = s.link := rfl
@[simp] theorem State.setLatch_keys (r i v) : (s.setLatch r i v).keys = s.keys := rfl
@[simp] theorem State.setLatch_trust (r i v) : (s.setLatch r i v).trust = s.trust := rfl
@[simp] theorem State.setLatch_dma (r i v) : (s.setLatch r i v).dma = s.dma := rfl

/-! ### setStage -/

@[simp] theorem State.setStage_pending (r i v) : (s.setStage r i v).pending = s.pending := rfl
@[simp] theorem State.setStage_regs (r i v) : (s.setStage r i v).regs = s.regs := rfl
@[simp] theorem State.setStage_latch (r i v) : (s.setStage r i v).latch = s.latch := rfl
@[simp] theorem State.setStage_out (r i v) : (s.setStage r i v).out = s.out := rfl
@[simp] theorem State.setStage_reply (r i v) : (s.setStage r i v).reply = s.reply := rfl
@[simp] theorem State.setStage_free (r i v) : (s.setStage r i v).free = s.free := rfl
@[simp] theorem State.setStage_plat (r i v) : (s.setStage r i v).plat = s.plat := rfl
@[simp] theorem State.setStage_time (r i v) : (s.setStage r i v).time = s.time := rfl
@[simp] theorem State.setStage_tide (r i v) : (s.setStage r i v).tide = s.tide := rfl
@[simp] theorem State.setStage_trb (r i v) : (s.setStage r i v).trb = s.trb := rfl
@[simp] theorem State.setStage_eng (r i v) : (s.setStage r i v).eng = s.eng := rfl
@[simp] theorem State.setStage_micro (r i v) : (s.setStage r i v).micro = s.micro := rfl
@[simp] theorem State.setStage_hbm (r i v) : (s.setStage r i v).hbm = s.hbm := rfl
@[simp] theorem State.setStage_cfl (r i v) : (s.setStage r i v).cfl = s.cfl := rfl
@[simp] theorem State.setStage_sch (r i v) : (s.setStage r i v).sch = s.sch := rfl
@[simp] theorem State.setStage_intake (r i v) : (s.setStage r i v).intake = s.intake := rfl
@[simp] theorem State.setStage_look (r i v) : (s.setStage r i v).look = s.look := rfl
@[simp] theorem State.setStage_ring (r i v) : (s.setStage r i v).ring = s.ring := rfl
@[simp] theorem State.setStage_sto (r i v) : (s.setStage r i v).sto = s.sto := rfl
@[simp] theorem State.setStage_link (r i v) : (s.setStage r i v).link = s.link := rfl
@[simp] theorem State.setStage_keys (r i v) : (s.setStage r i v).keys = s.keys := rfl
@[simp] theorem State.setStage_trust (r i v) : (s.setStage r i v).trust = s.trust := rfl
@[simp] theorem State.setStage_dma (r i v) : (s.setStage r i v).dma = s.dma := rfl

/-! ### emit -/

@[simp] theorem State.emit_pending (m) : (s.emit m).pending = s.pending := rfl
@[simp] theorem State.emit_regs (m) : (s.emit m).regs = s.regs := rfl
@[simp] theorem State.emit_latch (m) : (s.emit m).latch = s.latch := rfl
@[simp] theorem State.emit_stage (m) : (s.emit m).stage = s.stage := rfl
@[simp] theorem State.emit_reply (m) : (s.emit m).reply = s.reply := rfl
@[simp] theorem State.emit_free (m) : (s.emit m).free = s.free := rfl
@[simp] theorem State.emit_plat (m) : (s.emit m).plat = s.plat := rfl
@[simp] theorem State.emit_time (m) : (s.emit m).time = s.time := rfl
@[simp] theorem State.emit_tide (m) : (s.emit m).tide = s.tide := rfl
@[simp] theorem State.emit_trb (m) : (s.emit m).trb = s.trb := rfl
@[simp] theorem State.emit_eng (m) : (s.emit m).eng = s.eng := rfl
@[simp] theorem State.emit_micro (m) : (s.emit m).micro = s.micro := rfl
@[simp] theorem State.emit_hbm (m) : (s.emit m).hbm = s.hbm := rfl
@[simp] theorem State.emit_cfl (m) : (s.emit m).cfl = s.cfl := rfl
@[simp] theorem State.emit_sch (m) : (s.emit m).sch = s.sch := rfl
@[simp] theorem State.emit_intake (m) : (s.emit m).intake = s.intake := rfl
@[simp] theorem State.emit_look (m) : (s.emit m).look = s.look := rfl
@[simp] theorem State.emit_ring (m) : (s.emit m).ring = s.ring := rfl
@[simp] theorem State.emit_sto (m) : (s.emit m).sto = s.sto := rfl
@[simp] theorem State.emit_link (m) : (s.emit m).link = s.link := rfl
@[simp] theorem State.emit_keys (m) : (s.emit m).keys = s.keys := rfl
@[simp] theorem State.emit_trust (m) : (s.emit m).trust = s.trust := rfl
@[simp] theorem State.emit_dma (m) : (s.emit m).dma = s.dma := rfl

/-! ### answer -/

@[simp] theorem State.answer_pending (r) : (s.answer r).pending = s.pending := rfl
@[simp] theorem State.answer_regs (r) : (s.answer r).regs = s.regs := rfl
@[simp] theorem State.answer_latch (r) : (s.answer r).latch = s.latch := rfl
@[simp] theorem State.answer_stage (r) : (s.answer r).stage = s.stage := rfl
@[simp] theorem State.answer_out (r) : (s.answer r).out = s.out := rfl
@[simp] theorem State.answer_free (r) : (s.answer r).free = s.free := rfl
@[simp] theorem State.answer_plat (r) : (s.answer r).plat = s.plat := rfl
@[simp] theorem State.answer_time (r) : (s.answer r).time = s.time := rfl
@[simp] theorem State.answer_tide (r) : (s.answer r).tide = s.tide := rfl
@[simp] theorem State.answer_trb (r) : (s.answer r).trb = s.trb := rfl
@[simp] theorem State.answer_eng (r) : (s.answer r).eng = s.eng := rfl
@[simp] theorem State.answer_micro (r) : (s.answer r).micro = s.micro := rfl
@[simp] theorem State.answer_hbm (r) : (s.answer r).hbm = s.hbm := rfl
@[simp] theorem State.answer_cfl (r) : (s.answer r).cfl = s.cfl := rfl
@[simp] theorem State.answer_sch (r) : (s.answer r).sch = s.sch := rfl
@[simp] theorem State.answer_intake (r) : (s.answer r).intake = s.intake := rfl
@[simp] theorem State.answer_look (r) : (s.answer r).look = s.look := rfl
@[simp] theorem State.answer_ring (r) : (s.answer r).ring = s.ring := rfl
@[simp] theorem State.answer_sto (r) : (s.answer r).sto = s.sto := rfl
@[simp] theorem State.answer_link (r) : (s.answer r).link = s.link := rfl
@[simp] theorem State.answer_keys (r) : (s.answer r).keys = s.keys := rfl
@[simp] theorem State.answer_trust (r) : (s.answer r).trust = s.trust := rfl
@[simp] theorem State.answer_dma (r) : (s.answer r).dma = s.dma := rfl

/-! ### draw -/

@[simp] theorem State.draw_pending  : (s.draw).pending = s.pending := rfl
@[simp] theorem State.draw_regs  : (s.draw).regs = s.regs := rfl
@[simp] theorem State.draw_latch  : (s.draw).latch = s.latch := rfl
@[simp] theorem State.draw_stage  : (s.draw).stage = s.stage := rfl
@[simp] theorem State.draw_out  : (s.draw).out = s.out := rfl
@[simp] theorem State.draw_reply  : (s.draw).reply = s.reply := rfl
@[simp] theorem State.draw_plat  : (s.draw).plat = s.plat := rfl
@[simp] theorem State.draw_time  : (s.draw).time = s.time := rfl
@[simp] theorem State.draw_tide  : (s.draw).tide = s.tide := rfl
@[simp] theorem State.draw_trb  : (s.draw).trb = s.trb := rfl
@[simp] theorem State.draw_eng  : (s.draw).eng = s.eng := rfl
@[simp] theorem State.draw_micro  : (s.draw).micro = s.micro := rfl
@[simp] theorem State.draw_hbm  : (s.draw).hbm = s.hbm := rfl
@[simp] theorem State.draw_cfl  : (s.draw).cfl = s.cfl := rfl
@[simp] theorem State.draw_sch  : (s.draw).sch = s.sch := rfl
@[simp] theorem State.draw_intake  : (s.draw).intake = s.intake := rfl
@[simp] theorem State.draw_look  : (s.draw).look = s.look := rfl
@[simp] theorem State.draw_ring  : (s.draw).ring = s.ring := rfl
@[simp] theorem State.draw_sto  : (s.draw).sto = s.sto := rfl
@[simp] theorem State.draw_link  : (s.draw).link = s.link := rfl
@[simp] theorem State.draw_keys  : (s.draw).keys = s.keys := rfl
@[simp] theorem State.draw_trust  : (s.draw).trust = s.trust := rfl
@[simp] theorem State.draw_dma  : (s.draw).dma = s.dma := rfl

/-! ### writeTyped -/

@[simp] theorem State.writeTyped_pending (r i v) : (s.writeTyped r i v).pending = s.pending := rfl
@[simp] theorem State.writeTyped_latch (r i v) : (s.writeTyped r i v).latch = s.latch := rfl
@[simp] theorem State.writeTyped_stage (r i v) : (s.writeTyped r i v).stage = s.stage := rfl
@[simp] theorem State.writeTyped_out (r i v) : (s.writeTyped r i v).out = s.out := rfl
@[simp] theorem State.writeTyped_reply (r i v) : (s.writeTyped r i v).reply = s.reply := rfl
@[simp] theorem State.writeTyped_free (r i v) : (s.writeTyped r i v).free = s.free := rfl
@[simp] theorem State.writeTyped_plat (r i v) : (s.writeTyped r i v).plat = s.plat := rfl
@[simp] theorem State.writeTyped_time (r i v) : (s.writeTyped r i v).time = s.time := rfl
@[simp] theorem State.writeTyped_tide (r i v) : (s.writeTyped r i v).tide = s.tide := rfl
@[simp] theorem State.writeTyped_trb (r i v) : (s.writeTyped r i v).trb = s.trb := rfl
@[simp] theorem State.writeTyped_eng (r i v) : (s.writeTyped r i v).eng = s.eng := rfl
@[simp] theorem State.writeTyped_micro (r i v) : (s.writeTyped r i v).micro = s.micro := rfl
@[simp] theorem State.writeTyped_hbm (r i v) : (s.writeTyped r i v).hbm = s.hbm := rfl
@[simp] theorem State.writeTyped_cfl (r i v) : (s.writeTyped r i v).cfl = s.cfl := rfl
@[simp] theorem State.writeTyped_sch (r i v) : (s.writeTyped r i v).sch = s.sch := rfl
@[simp] theorem State.writeTyped_intake (r i v) : (s.writeTyped r i v).intake = s.intake := rfl
@[simp] theorem State.writeTyped_look (r i v) : (s.writeTyped r i v).look = s.look := rfl
@[simp] theorem State.writeTyped_ring (r i v) : (s.writeTyped r i v).ring = s.ring := rfl
@[simp] theorem State.writeTyped_sto (r i v) : (s.writeTyped r i v).sto = s.sto := rfl
@[simp] theorem State.writeTyped_link (r i v) : (s.writeTyped r i v).link = s.link := rfl
@[simp] theorem State.writeTyped_keys (r i v) : (s.writeTyped r i v).keys = s.keys := rfl
@[simp] theorem State.writeTyped_trust (r i v) : (s.writeTyped r i v).trust = s.trust := rfl
@[simp] theorem State.writeTyped_dma (r i v) : (s.writeTyped r i v).dma = s.dma := rfl

/-! ### setEcc -/

@[simp] theorem State.setEcc_pending (k v) : (s.setEcc k v).pending = s.pending := rfl
@[simp] theorem State.setEcc_regs (k v) : (s.setEcc k v).regs = s.regs := rfl
@[simp] theorem State.setEcc_latch (k v) : (s.setEcc k v).latch = s.latch := rfl
@[simp] theorem State.setEcc_stage (k v) : (s.setEcc k v).stage = s.stage := rfl
@[simp] theorem State.setEcc_out (k v) : (s.setEcc k v).out = s.out := rfl
@[simp] theorem State.setEcc_reply (k v) : (s.setEcc k v).reply = s.reply := rfl
@[simp] theorem State.setEcc_free (k v) : (s.setEcc k v).free = s.free := rfl
@[simp] theorem State.setEcc_time (k v) : (s.setEcc k v).time = s.time := rfl
@[simp] theorem State.setEcc_tide (k v) : (s.setEcc k v).tide = s.tide := rfl
@[simp] theorem State.setEcc_trb (k v) : (s.setEcc k v).trb = s.trb := rfl
@[simp] theorem State.setEcc_eng (k v) : (s.setEcc k v).eng = s.eng := rfl
@[simp] theorem State.setEcc_micro (k v) : (s.setEcc k v).micro = s.micro := rfl
@[simp] theorem State.setEcc_hbm (k v) : (s.setEcc k v).hbm = s.hbm := rfl
@[simp] theorem State.setEcc_cfl (k v) : (s.setEcc k v).cfl = s.cfl := rfl
@[simp] theorem State.setEcc_sch (k v) : (s.setEcc k v).sch = s.sch := rfl
@[simp] theorem State.setEcc_intake (k v) : (s.setEcc k v).intake = s.intake := rfl
@[simp] theorem State.setEcc_look (k v) : (s.setEcc k v).look = s.look := rfl
@[simp] theorem State.setEcc_ring (k v) : (s.setEcc k v).ring = s.ring := rfl
@[simp] theorem State.setEcc_sto (k v) : (s.setEcc k v).sto = s.sto := rfl
@[simp] theorem State.setEcc_link (k v) : (s.setEcc k v).link = s.link := rfl
@[simp] theorem State.setEcc_keys (k v) : (s.setEcc k v).keys = s.keys := rfl
@[simp] theorem State.setEcc_trust (k v) : (s.setEcc k v).trust = s.trust := rfl
@[simp] theorem State.setEcc_dma (k v) : (s.setEcc k v).dma = s.dma := rfl

end Sys2Proof.Machine
end

