-- ==== Sys2Proof/Laws/Tables.lean ====
section
/-! SUPPORT. Laws of the sparse tables: a read after a write, and the canonical form. -/
namespace Sys2Proof.Machine

variable {β : Type}

@[simp] theorem Tbl.get_nil (d : Nat → β) (k : Nat) : Tbl.get d [] k = d k := rfl

theorem Tbl.get_cons (d : Nat → β) (j : Nat) (v : β) (t : Tbl β) (k : Nat) :
    Tbl.get d ((j, v) :: t) k = if j = k then v else Tbl.get d t k := rfl

theorem Tbl.get_ins (d : Nat → β) (t : Tbl β) (k : Nat) (v : β) (j : Nat) :
    Tbl.get d (Tbl.ins k v t) j = if k = j then v else Tbl.get d t j := by
  induction t with
  | nil => simp [Tbl.ins, Tbl.get]
  | cons e t ih =>
    obtain ⟨i, w⟩ := e
    simp only [Tbl.ins]
    split
    · rfl
    · split
      · subst_vars
        by_cases h : i = j <;> simp [Tbl.get, h]
      · simp only [Tbl.get, ih]
        by_cases h : k = j <;> by_cases h' : i = j <;> simp_all

theorem Tbl.get_del (d : Nat → β) (t : Tbl β) (k j : Nat) :
    Tbl.get d (Tbl.del k t) j = if k = j then d j else Tbl.get d t j := by
  induction t with
  | nil => simp [Tbl.del, Tbl.get]
  | cons e t ih =>
    obtain ⟨i, w⟩ := e
    simp only [Tbl.del]
    split
    · subst_vars
      by_cases h : i = j <;> simp_all [Tbl.get]
    · simp only [Tbl.get, ih]
      by_cases h : k = j <;> by_cases h' : i = j <;> simp_all

/-- A read after a write: the value written at the key, the old value elsewhere. -/
theorem Tbl.get_set [DecidableEq β] (d : Nat → β) (t : Tbl β) (k : Nat) (v : β) (j : Nat) :
    Tbl.get d (Tbl.set d t k v) j = if k = j then v else Tbl.get d t j := by
  unfold Tbl.set
  split
  · rw [Tbl.get_del]; subst_vars; split <;> simp_all
  · exact Tbl.get_ins d t k v j

@[simp] theorem Tbl.get_set_same [DecidableEq β] (d : Nat → β) (t : Tbl β) (k : Nat) (v : β) :
    Tbl.get d (Tbl.set d t k v) k = v := by simp [Tbl.get_set]

theorem Tbl.get_set_ne [DecidableEq β] (d : Nat → β) (t : Tbl β) {k j : Nat} (v : β) (h : k ≠ j) :
    Tbl.get d (Tbl.set d t k v) j = Tbl.get d t j := by simp [Tbl.get_set, h]

theorem Tbl.wfFrom_mono [DecidableEq β] (d : Nat → β) (t : Tbl β) {a b : Nat} (h : a ≤ b) :
    Tbl.wfFrom d b t = true → Tbl.wfFrom d a t = true := by
  cases t with
  | nil => simp [Tbl.wfFrom]
  | cons e t => obtain ⟨i, w⟩ := e; simp only [Tbl.wfFrom, Bool.and_eq_true, decide_eq_true_eq]; exact fun ⟨⟨h1, h2⟩, h3⟩ => ⟨⟨by omega, h2⟩, h3⟩

theorem Tbl.wfFrom_ins [DecidableEq β] (d : Nat → β) (k : Nat) (v : β) (hv : v ≠ d k) (t : Tbl β) (a : Nat) (ha : a ≤ k) :
    Tbl.wfFrom d a t = true → Tbl.wfFrom d a (Tbl.ins k v t) = true := by
  induction t generalizing a with
  | nil => simp [Tbl.ins, Tbl.wfFrom, hv, ha]
  | cons e t ih =>
    obtain ⟨i, w⟩ := e
    simp only [Tbl.wfFrom, Tbl.ins, Bool.and_eq_true, decide_eq_true_eq]
    rintro ⟨⟨h1, h2⟩, h3⟩
    split
    · simp only [Tbl.wfFrom, Bool.and_eq_true, decide_eq_true_eq]; exact ⟨⟨ha, hv⟩, ⟨by omega, h2⟩, h3⟩
    · split
      · subst_vars; simp only [Tbl.wfFrom, Bool.and_eq_true, decide_eq_true_eq]; exact ⟨⟨ha, hv⟩, h3⟩
      · simp only [Tbl.wfFrom, Bool.and_eq_true, decide_eq_true_eq]
        exact ⟨⟨h1, h2⟩, ih (i + 1) (by omega) h3⟩

theorem Tbl.wfFrom_del [DecidableEq β] (d : Nat → β) (k : Nat) (t : Tbl β) (a : Nat) :
    Tbl.wfFrom d a t = true → Tbl.wfFrom d a (Tbl.del k t) = true := by
  induction t generalizing a with
  | nil => simp [Tbl.del, Tbl.wfFrom]
  | cons e t ih =>
    obtain ⟨i, w⟩ := e
    simp only [Tbl.wfFrom, Tbl.del, Bool.and_eq_true, decide_eq_true_eq]
    rintro ⟨⟨h1, h2⟩, h3⟩
    split
    · exact Tbl.wfFrom_mono d _ (by omega) (ih _ h3)
    · simp only [Tbl.wfFrom, Bool.and_eq_true, decide_eq_true_eq]; exact ⟨⟨h1, h2⟩, ih _ h3⟩

/-- A write keeps the canonical form. -/
theorem Tbl.wf_set [DecidableEq β] (d : Nat → β) (t : Tbl β) (k : Nat) (v : β) (h : Tbl.wf d t = true) :
    Tbl.wf d (Tbl.set d t k v) = true := by
  unfold Tbl.set
  split
  · exact Tbl.wfFrom_del d k t 0 h
  · exact Tbl.wfFrom_ins d k v ‹_› t 0 (Nat.zero_le _) h

/-- The empty table is canonical. -/
@[simp] theorem Tbl.wf_nil [DecidableEq β] (d : Nat → β) : Tbl.wf d ([] : Tbl β) = true := rfl

theorem Tbl.wfFrom_filter [DecidableEq β] (d : Nat → β) (p : Nat × β → Bool) (t : Tbl β) (a : Nat) :
    Tbl.wfFrom d a t = true → Tbl.wfFrom d a (t.filter p) = true := by
  induction t generalizing a with
  | nil => simp [Tbl.wfFrom]
  | cons e t ih =>
    obtain ⟨i, w⟩ := e
    simp only [Tbl.wfFrom, Bool.and_eq_true, decide_eq_true_eq]
    rintro ⟨⟨h1, h2⟩, h3⟩
    by_cases hp : p (i, w)
    · simp only [List.filter_cons_of_pos hp, Tbl.wfFrom, Bool.and_eq_true, decide_eq_true_eq]
      exact ⟨⟨h1, h2⟩, ih _ h3⟩
    · simp only [List.filter_cons_of_neg hp]
      exact Tbl.wfFrom_mono d _ (by omega) (ih _ h3)

/-- Removing entries keeps the canonical form. -/
theorem Tbl.wf_filter [DecidableEq β] (d : Nat → β) (p : Nat × β → Bool) (t : Tbl β) (h : Tbl.wf d t = true) :
    Tbl.wf d (t.filter p) = true := Tbl.wfFrom_filter d p t 0 h

theorem Tbl.get_below [DecidableEq β] (d : Nat → β) (t : Tbl β) (a k : Nat) (h : Tbl.wfFrom d a t = true) (hk : k < a) :
    Tbl.get d t k = d k := by
  induction t generalizing a with
  | nil => rfl
  | cons e t ih =>
    obtain ⟨i, w⟩ := e
    simp only [Tbl.wfFrom, Bool.and_eq_true, decide_eq_true_eq] at h
    simp only [Tbl.get]
    rw [if_neg (by omega)]
    exact ih (i + 1) h.2 (by omega)

/-- A canonical table reads as the table with some entries removed reads, at the keys that the filter keeps. -/
theorem Tbl.get_filter [DecidableEq β] (d : Nat → β) (p : Nat → Bool) (t : Tbl β) (k : Nat) :
    Tbl.get d (t.filter (fun e => p e.1)) k = if p k then Tbl.get d t k else d k := by
  induction t with
  | nil => simp
  | cons e t ih =>
    obtain ⟨i, w⟩ := e
    by_cases hp : p i
    · rw [List.filter_cons_of_pos (by simpa using hp)]
      simp only [Tbl.get, ih]
      by_cases h : i = k
      · subst h; simp [hp]
      · simp [h]
    · rw [List.filter_cons_of_neg (by simpa using hp)]
      simp only [Tbl.get, ih]
      by_cases h : i = k
      · subst h; simp [hp]
      · simp [h]

/-- Two canonical tables that read alike are equal: equal contents are equal data. -/
theorem Tbl.ext_of_get [DecidableEq β] (d : Nat → β) (t u : Tbl β) (a : Nat) (ht : Tbl.wfFrom d a t = true)
    (hu : Tbl.wfFrom d a u = true) (h : ∀ k, Tbl.get d t k = Tbl.get d u k) : t = u := by
  induction t generalizing u a with
  | nil =>
    cases u with
    | nil => rfl
    | cons e u =>
      obtain ⟨i, w⟩ := e
      simp only [Tbl.wfFrom, Bool.and_eq_true, decide_eq_true_eq] at hu
      have := h i
      simp only [Tbl.get, if_pos] at this
      exact absurd this.symm hu.1.2
  | cons e t ih =>
    obtain ⟨i, w⟩ := e
    simp only [Tbl.wfFrom, Bool.and_eq_true, decide_eq_true_eq] at ht
    cases u with
    | nil =>
      have := h i
      simp only [Tbl.get, if_pos] at this
      exact absurd this ht.1.2
    | cons f u =>
      obtain ⟨j, x⟩ := f
      simp only [Tbl.wfFrom, Bool.and_eq_true, decide_eq_true_eq] at hu
      have hij : i = j := by
        rcases Nat.lt_trichotomy i j with hlt | heq | hgt
        · have := h i
          rw [Tbl.get_below d ((j, x) :: u) j i (by simp [Tbl.wfFrom, hu]) hlt] at this
          simp only [Tbl.get, if_pos] at this
          exact absurd this ht.1.2
        · exact heq
        · have := h j
          rw [Tbl.get_below d ((i, w) :: t) i j (by simp [Tbl.wfFrom, ht]) hgt] at this
          simp only [Tbl.get, if_pos] at this
          exact absurd this.symm hu.1.2
      subst hij
      have hw : w = x := by have := h i; simpa [Tbl.get] using this
      subst hw
      congr 1
      refine ih u (i + 1) ht.2 hu.2 fun k => ?_
      by_cases hk : i = k
      · subst hk
        rw [Tbl.get_below d t (i + 1) i ht.2 (by omega), Tbl.get_below d u (i + 1) i hu.2 (by omega)]
      · simpa [Tbl.get, hk] using h k

end Sys2Proof.Machine
end

