-- ==== Sys2Proof/Laws/Registers.lean ====
section
/-! SUPPORT. Laws of the registers: a field after a write of it, of another field, or of another register. -/
namespace Sys2Proof.Machine

/-! ## Register numbers -/

theorem Reg.ctorIdx_lt (r : Reg) : r.ctorIdx < 1024 := by cases r <;> decide

theorem Reg.ctorIdx_inj {r q : Reg} (h : r.ctorIdx = q.ctorIdx) : r = q := by
  rw [← Reg.ofNat_ctorIdx r, ← Reg.ofNat_ctorIdx q, h]

theorem regKey_inj {r q : Reg} {i j : Nat} : regKey r i = regKey q j ↔ r = q ∧ i = j := by
  constructor
  · intro h
    have h1 := Reg.ctorIdx_lt r
    have h2 := Reg.ctorIdx_lt q
    simp only [regKey] at h
    exact ⟨Reg.ctorIdx_inj (by omega), by omega⟩
  · rintro ⟨rfl, rfl⟩; rfl

@[simp] theorem regOfKey_regKey (r : Reg) (i : Nat) : regOfKey (regKey r i) = r := by
  have h1 := Reg.ctorIdx_lt r
  simp only [regOfKey, regKey]
  rw [show (r.ctorIdx + 1024 * i) % 1024 = r.ctorIdx by omega, Reg.ofNat_ctorIdx]

/-! ## Words -/

theorem State.rd_wr (s : State) (r q : Reg) (i j : Nat) (v : Word) :
    (s.wr r i v).rd q j = if r = q ∧ i = j then v else s.rd q j := by
  simp only [State.rd, State.wr, State.putRegs, Tbl.get_set, regKey_inj]

@[simp] theorem State.rd_wr_same (s : State) (r : Reg) (i : Nat) (v : Word) : (s.wr r i v).rd r i = v := by
  simp [State.rd_wr]

theorem State.rd_wr_ne (s : State) (r q : Reg) (i j : Nat) (v : Word) (h : ¬ (r = q ∧ i = j)) :
    (s.wr r i v).rd q j = s.rd q j := by simp [State.rd_wr, h]

/-! ## Fields -/

/-- A field lies in a word. -/
def Fld.ok (f : Fld) : Prop := f.lo ≤ f.hi ∧ f.hi < 32

theorem bits_eq (n hi lo : Nat) : bits n hi lo = n / 2 ^ lo % 2 ^ (hi + 1 - lo) := by
  simp [bits, Nat.shiftRight_eq_div_pow]

theorem Nat.testBit_bits (n hi lo k : Nat) :
    (bits n hi lo).testBit k = (decide (k < hi + 1 - lo) && n.testBit (lo + k)) := by
  simp [bits, Nat.testBit_mod_two_pow, Nat.testBit_shiftRight]

/-- A word in three parts: above, in and below a field. -/
theorem Nat.split_field (n hi lo : Nat) (h : lo ≤ hi) :
    n = n / 2 ^ (hi + 1) * 2 ^ (hi + 1) + bits n hi lo * 2 ^ lo + n % 2 ^ lo := by
  rw [bits_eq]
  have e : 2 ^ (hi + 1) = 2 ^ lo * 2 ^ (hi + 1 - lo) := by rw [← Nat.pow_add]; congr 1; omega
  have h1 := Nat.div_add_mod n (2 ^ lo)
  have h2 := Nat.div_add_mod (n / 2 ^ lo) (2 ^ (hi + 1 - lo))
  rw [Nat.div_div_eq_div_mul, ← e] at h2
  have h3 : n / 2 ^ (hi + 1) * 2 ^ (hi + 1) = 2 ^ lo * (2 ^ (hi + 1 - lo) * (n / 2 ^ (hi + 1))) := by rw [e]; ring
  calc n = 2 ^ lo * (n / 2 ^ lo) + n % 2 ^ lo := h1.symm
    _ = 2 ^ lo * (2 ^ (hi + 1 - lo) * (n / 2 ^ (hi + 1)) + n / 2 ^ lo % 2 ^ (hi + 1 - lo)) + n % 2 ^ lo := by rw [h2]
    _ = _ := by rw [h3]; ring

theorem Nat.digits_lt {a b m n : Nat} (ha : a < m) (hb : b < n) : a * n + b < n * m :=
  calc a * n + b < a * n + n := by omega
    _ = (a + 1) * n := by ring
    _ ≤ m * n := Nat.mul_le_mul_right n ha
    _ = n * m := Nat.mul_comm m n

theorem withField_toNat (w : Word) (hi lo v : Nat) (h : lo ≤ hi) (h32 : hi < 32) :
    (withField w hi lo v).toNat = w.toNat / 2 ^ (hi + 1) * 2 ^ (hi + 1) + v % 2 ^ (hi + 1 - lo) * 2 ^ lo + w.toNat % 2 ^ lo := by
  have hw := w.isLt
  have hs := Nat.split_field w.toNat hi lo h
  have e : 2 ^ (hi + 1) = 2 ^ lo * 2 ^ (hi + 1 - lo) := by rw [← Nat.pow_add]; congr 1; omega
  have e32 : 2 ^ 32 = 2 ^ (hi + 1) * 2 ^ (31 - hi) := by rw [← Nat.pow_add]; congr 1; omega
  have hm : v % 2 ^ (hi + 1 - lo) < 2 ^ (hi + 1 - lo) := Nat.mod_lt _ (by positivity)
  have hl : w.toNat % 2 ^ lo < 2 ^ lo := Nat.mod_lt _ (by positivity)
  have hu : w.toNat / 2 ^ (hi + 1) < 2 ^ (31 - hi) := by
    rw [Nat.div_lt_iff_lt_mul (by positivity), Nat.mul_comm, ← e32]; exact hw
  simp only [withField, BitVec.toNat_ofNat, Nat.shiftLeft_eq]
  have hin : v % 2 ^ (hi + 1 - lo) * 2 ^ lo + w.toNat % 2 ^ lo < 2 ^ (hi + 1) := by
    rw [e]; exact Nat.digits_lt hm hl
  have hlt : w.toNat / 2 ^ (hi + 1) * 2 ^ (hi + 1) + v % 2 ^ (hi + 1 - lo) * 2 ^ lo + w.toNat % 2 ^ lo < 2 ^ 32 := by
    rw [e32, Nat.add_assoc]; exact Nat.digits_lt hu hin
  have : w.toNat - bits w.toNat hi lo * 2 ^ lo + v % 2 ^ (hi + 1 - lo) * 2 ^ lo
      = w.toNat / 2 ^ (hi + 1) * 2 ^ (hi + 1) + v % 2 ^ (hi + 1 - lo) * 2 ^ lo + w.toNat % 2 ^ lo := by
    generalize w.toNat = n at *; omega
  rw [this, Nat.mod_eq_of_lt hlt]

theorem testBit_withField (w : Word) (hi lo v k : Nat) (h : lo ≤ hi) (h32 : hi < 32) :
    (withField w hi lo v).toNat.testBit k = if lo ≤ k ∧ k ≤ hi then v.testBit (k - lo) else w.toNat.testBit k := by
  have e : 2 ^ (hi + 1) = 2 ^ lo * 2 ^ (hi + 1 - lo) := by rw [← Nat.pow_add]; congr 1; omega
  have hm : v % 2 ^ (hi + 1 - lo) < 2 ^ (hi + 1 - lo) := Nat.mod_lt _ (by positivity)
  have hl : w.toNat % 2 ^ lo < 2 ^ lo := Nat.mod_lt _ (by positivity)
  have hin : v % 2 ^ (hi + 1 - lo) * 2 ^ lo + w.toNat % 2 ^ lo < 2 ^ (hi + 1) := by
    rw [e]; exact Nat.digits_lt hm hl
  rw [withField_toNat w hi lo v h h32, Nat.add_assoc, Nat.mul_comm _ (2 ^ (hi + 1)), Nat.mul_comm _ (2 ^ lo)]
  rw [Nat.mul_comm _ (2 ^ lo)] at hin
  rw [Nat.testBit_two_pow_mul_add _ hin, Nat.testBit_two_pow_mul_add _ hl]
  simp only [Nat.testBit_mod_two_pow, Nat.testBit_div_two_pow]
  by_cases h1 : k < hi + 1
  · by_cases h2 : k < lo
    · simp [h1, h2]
    · simp only [h1, h2, if_true, if_false]
      rw [if_pos ⟨by omega, by omega⟩, decide_eq_true (show k - lo < hi + 1 - lo by omega), Bool.true_and]
  · rw [if_neg h1, if_neg (by omega), show k - (hi + 1) + (hi + 1) = k by omega]

theorem testBit_fieldOf (w : Word) (hi lo k : Nat) :
    (fieldOf w hi lo).testBit k = (decide (k < hi + 1 - lo) && w.toNat.testBit (lo + k)) := by
  simp [fieldOf, Nat.testBit_bits]

/-- A field after a write of it. -/
theorem fieldOf_withField (w : Word) (hi lo v : Nat) (h : lo ≤ hi) (h32 : hi < 32) :
    fieldOf (withField w hi lo v) hi lo = v % 2 ^ (hi + 1 - lo) := by
  apply Nat.eq_of_testBit_eq
  intro k
  rw [testBit_fieldOf, testBit_withField _ _ _ _ _ h h32, Nat.testBit_mod_two_pow]
  by_cases hk : k < hi + 1 - lo
  · rw [if_pos ⟨by omega, by omega⟩, show lo + k - lo = k by omega]
  · simp [hk]

/-- A field after a write of one that shares no bit with it. -/
theorem fieldOf_withField_ne (w : Word) (hi lo hi' lo' v : Nat) (h : lo ≤ hi) (h32 : hi < 32) (hd : hi < lo' ∨ hi' < lo) :
    fieldOf (withField w hi lo v) hi' lo' = fieldOf w hi' lo' := by
  apply Nat.eq_of_testBit_eq
  intro k
  rw [testBit_fieldOf, testBit_fieldOf, testBit_withField _ _ _ _ _ h h32]
  by_cases hk : k < hi' + 1 - lo'
  · rw [if_neg (by omega)]
  · simp [hk]

theorem fieldOf_lt (w : Word) (hi lo : Nat) : fieldOf w hi lo < 2 ^ (hi + 1 - lo) := by
  simp only [fieldOf, bits]; exact Nat.mod_lt _ (by positivity)

/-- A whole register after a write of one of its fields, as a field of the state. -/
theorem State.rd_setFld (s : State) (f : Fld) (i v : Nat) (q : Reg) (j : Nat) :
    (s.setFld f i v).rd q j = if f.reg = q ∧ i = j then withField (s.rd f.reg i) f.hi f.lo v else s.rd q j := by
  simp only [State.setFld, State.rd_wr]

/-- A field after a write of it (R7). -/
theorem State.fld_setFld_same (s : State) (f : Fld) (i v : Nat) (h : f.ok) :
    (s.setFld f i v).fld f i = v % 2 ^ (f.hi + 1 - f.lo) := by
  simp [State.fld, State.rd_setFld, fieldOf_withField _ _ _ _ h.1 h.2]

/-- A field after a write of another. -/
theorem State.fld_setFld_ne (s : State) (f g : Fld) (i j v : Nat) (h : f.ok)
    (hd : f.reg ≠ g.reg ∨ i ≠ j ∨ f.hi < g.lo ∨ g.hi < f.lo) : (s.setFld f i v).fld g j = s.fld g j := by
  simp only [State.fld, State.rd_setFld]
  split
  · rename_i hh
    obtain ⟨hr, rfl⟩ := hh
    rw [← hr]
    exact fieldOf_withField_ne _ _ _ _ _ _ h.1 h.2 (by tauto)
  · rfl

/-- A field after a write of a whole register. -/
theorem State.fld_wr_ne (s : State) (r : Reg) (i : Nat) (v : Word) (g : Fld) (j : Nat) (hd : r ≠ g.reg ∨ i ≠ j) :
    (s.wr r i v).fld g j = s.fld g j := by
  simp only [State.fld, State.rd_wr]
  rw [if_neg (by tauto)]

theorem State.fld_wr_same (s : State) (r : Reg) (i : Nat) (v : Word) (g : Fld) (h : g.reg = r) :
    (s.wr r i v).fld g i = fieldOf v g.hi g.lo := by
  subst h; simp [State.fld]

theorem State.fld_lt (s : State) (f : Fld) (i : Nat) : s.fld f i < 2 ^ (f.hi + 1 - f.lo) := fieldOf_lt _ _ _

/-! ## What a register write leaves: everything but the register table -/

theorem State.wr_eq (s : State) (r : Reg) (i : Nat) (v : Word) : s.wr r i v = { s with regs := (s.wr r i v).regs } := rfl
theorem State.setFld_eq (s : State) (f : Fld) (i v : Nat) : s.setFld f i v = { s with regs := (s.setFld f i v).regs } := rfl

/-- A register write keeps the register table canonical. -/
theorem State.regs_wf_wr (s : State) (r : Reg) (i : Nat) (v : Word) (h : Tbl.wf regReset s.regs = true) :
    Tbl.wf regReset (s.wr r i v).regs = true := Tbl.wf_set _ _ _ _ h

end Sys2Proof.Machine
end

