-- ==== Sys2Proof/Laws/Events.lean ====
section
/-! SUPPORT. What sending an MSI-X message and recording an event can do (R404, R531 to R540): one law each. -/
namespace Sys2Proof.Machine

/-- Two states that differ at most in register words, messages sent and the trouble unit. -/
def State.quietEq (s t : State) : Prop := t = { s with regs := t.regs, out := t.out, trb := t.trb }

theorem State.quietEq.refl (s : State) : s.quietEq s := rfl

theorem State.quietEq.trans {s t u : State} (h : s.quietEq t) (k : t.quietEq u) : s.quietEq u := by
  unfold State.quietEq at *; rw [k, h]

/-- The registers that recording an event may write (R531 to R540, R404). -/
def eventReg : Reg → Bool
  | .TRB_HENT | .TRB_HIST | .TRB_STAT | .LOG_DROP | .PCIE_MSIX_PBA => true
  | _ => false

/-- A state reached from another by recording events alone: messages, the trouble unit and the event registers may differ. -/
def State.sameButEvents (s t : State) : Prop := s.quietEq t ∧ ∀ r i, eventReg r = false → t.rd r i = s.rd r i

theorem State.sameButEvents.refl (s : State) : s.sameButEvents s := ⟨rfl, fun _ _ _ => rfl⟩

theorem State.sameButEvents.trans {s t u : State} (h : s.sameButEvents t) (k : t.sameButEvents u) : s.sameButEvents u :=
  ⟨h.1.trans k.1, fun r i hr => (k.2 r i hr).trans (h.2 r i hr)⟩

theorem State.sameButEvents_wr (s : State) (r : Reg) (i : Nat) (v : Word) (h : eventReg r = true) :
    s.sameButEvents (s.wr r i v) :=
  ⟨rfl, fun q j hq => State.rd_wr_ne _ _ _ _ _ _ (by rintro ⟨rfl, -⟩; simp_all)⟩

theorem State.sameButEvents_setFld (s : State) (f : Fld) (i v : Nat) (h : eventReg f.reg = true) :
    s.sameButEvents (s.setFld f i v) := s.sameButEvents_wr f.reg i _ h

theorem State.sameButEvents_emit (s : State) (m : Msg) : s.sameButEvents (s.emit m) := ⟨rfl, fun _ _ _ => rfl⟩

/-- An MSI-X event only sends the message or pends the vector. -/
theorem State.sameButEvents_msix (s : State) (ep fn vec : Nat) : s.sameButEvents (s.msix ep fn vec) := by
  unfold State.msix
  split
  · exact .refl s
  split
  · exact .refl s
  split
  · exact s.sameButEvents_setFld _ _ _ rfl
  · exact s.sameButEvents_emit _

theorem State.sameButEvents_msixPf1 (s : State) (ep vec : Nat) : s.sameButEvents (s.msixPf1 ep vec) := by
  unfold State.msixPf1
  split
  · exact s.sameButEvents_msix _ _ _
  · exact .refl s

theorem State.sameButEvents_wrEntryWord (s : State) (i : Nat) (w : DWord) :
    s.sameButEvents (s.wrEntryWord .TRB_HENT i w) :=
  (s.sameButEvents_wr _ _ _ rfl).trans (State.sameButEvents_wr _ _ _ _ rfl)

theorem State.sameButEvents_wrEntry (s : State) (i : Nat) (e : LogEntry) : s.sameButEvents (s.wrEntry .TRB_HENT i e) :=
  (((s.sameButEvents_wrEntryWord _ _).trans (State.sameButEvents_wrEntryWord _ _ _)).trans
    (State.sameButEvents_wrEntryWord _ _ _)).trans (State.sameButEvents_wrEntryWord _ _ _)

theorem State.sameButEvents_histAdd (s : State) (g : Nat) (e : LogEntry) : s.sameButEvents (s.histAdd g e) :=
  ((s.sameButEvents_wrEntry _ _).trans (State.sameButEvents_setFld _ _ _ _ rfl)).trans
    (State.sameButEvents_setFld _ _ _ _ rfl)

theorem State.sameButEvents_ite {s t u : State} (c : Bool) (ht : s.sameButEvents t) (hu : s.sameButEvents u) :
    s.sameButEvents (if c then t else u) := by cases c <;> simp [*]

theorem State.sameButEvents_troubleSignal (s : State) (g : Nat) : s.sameButEvents (s.troubleSignal g) := by
  have key : ∀ u, s.sameButEvents u → s.sameButEvents
      (if u.flag F.TRB_IEN.TO_PF1 g then u.msixPf1 (u.fld F.TRB_IEN.ENDPOINT g) (u.fld F.TRB_IEN.VEC g) else u) :=
    fun u hu => State.sameButEvents_ite _ (hu.trans (u.sameButEvents_msixPf1 _ _)) hu
  exact key _ (State.sameButEvents_ite _ (s.sameButEvents_emit _) (.refl s))

theorem State.sameButEvents_troubleStat (s : State) (g sev : Nat) : s.sameButEvents (s.troubleStat g sev) := by
  unfold State.troubleStat
  simp only []
  split
  · exact .refl s
  · split
    · exact (s.sameButEvents_setFld _ _ _ rfl).trans (State.sameButEvents_troubleSignal _ _)
    · exact s.sameButEvents_setFld _ _ _ rfl

theorem State.sameButEvents_trb (s : State) (u : TroubleUnit) : s.sameButEvents { s with trb := u } :=
  ⟨rfl, fun _ _ _ => rfl⟩

theorem State.sameButEvents_logSend (s : State) (g code : Nat) (e : LogEntry) : s.sameButEvents (s.logSend g code e) := by
  unfold State.logSend
  simp only []
  split
  · exact s.sameButEvents_trb _
  · split
    · exact (s.sameButEvents_trb _).trans (State.sameButEvents_setFld _ _ _ _ rfl)
    · exact (s.sameButEvents_trb _).trans (State.sameButEvents_trb _ _)

/-- Recording an event changes nothing but the event registers, the messages sent and the trouble unit (R531). -/
theorem State.sameButEvents_eventAt (s : State) (chip blk skind low code sev data : Nat) (inj : Bool) :
    s.sameButEvents (s.eventAt chip blk skind low code sev data inj) :=
  ((s.sameButEvents_histAdd _ _).trans (State.sameButEvents_troubleStat _ _ _)).trans (State.sameButEvents_logSend _ _ _ _)

theorem State.sameButEvents_event (s : State) (chip blk code sev data : Nat) :
    s.sameButEvents (s.event chip blk code sev data) := s.sameButEvents_eventAt _ _ _ _ _ _ _ _

theorem State.sameButEvents.fld {s t : State} (h : s.sameButEvents t) (f : Fld) (i : Nat) (hf : eventReg f.reg = false) :
    t.fld f i = s.fld f i := by simp [State.fld, h.2 _ i hf]

end Sys2Proof.Machine
end

