-- ==== Sys2Proof/Safety.lean ====
section
/-! DEFINITION. Safety: what a safe run of the block is, and the words that the claims share: a command completes, a thread
runs, what a command leaves as it was. -/
namespace Sys2Proof.Machine

/-- The block takes its next step: it neither faults nor refuses. -/
def StepSafe (s : State) : Prop := ∃ t, step s = .next t

/-- The block takes `k` steps without a fault or a refusal. -/
def RunSafe (k : Nat) (s : State) : Prop := ∃ t, Sys2Proof.core.run k s = .next t

/-- The states that a run from `s` reaches. -/
inductive Reaches (s : State) : State → Prop where
  | start : Reaches s s
  | step {t u : State} (h : Reaches s t) (hs : step t = .next u) : Reaches s u

/-- A command completes: `exec` answers a next state, and `P` holds of it. -/
def Completes (i : Instr) (s : State) (P : State → Prop) : Prop := ∃ t, exec i s = .next t ∧ P t

/-- A thread issues its next instruction: its engine has selected it, it is ready, its cluster runs, its chiplet answers, and
its pc has not run past the program store, and the fetch finds no ECC error in its word (R105, R114, R148, R153, R155, R197). -/
abbrev Runs (s : State) (th : Nat) : Prop :=
  s.canIssue th = true ∧ (s.thread th).past = false ∧ s.fetchEcc th = (false, s)

/-- Nothing but the record of one thread has changed. -/
def OnlyThread (th : Nat) (s t : State) : Prop := t = s.setThread th (t.thread th)

/-- The thread went on to the next word of its program (R95). -/
def StepsOver (a b : Thread) : Prop := b.pc = a.pc + 4 ∧ b.past = (a.past || a.pc == 0xFFFFC)

/-- Of a thread's record only pc, general registers and their taint changed (and no instruction is half done). -/
def KeepsButRegs (a b : Thread) : Prop :=
  b = { a with g := b.g, taint := b.taint, pc := b.pc, past := b.past, instr := none, begun := false }

/-- Of a thread's record only pc and block registers changed. -/
def KeepsButBlocks (a b : Thread) : Prop := b = { a with b := b.b, pc := b.pc, past := b.past, instr := none, begun := false }

/-- The registers of a thread, but for rd, which holds v; g0 reads zero whatever is written (R96). -/
def RegsBut (a b : Thread) (rd : BitVec 5) (v : Word) : Prop :=
  ∀ n, b.gr n = if n = 0 then 0 else if n = rd then v else a.gr n

/-- The result of an instruction that writes one general register and nothing else: rd, pc, and the frame. -/
def GivesReg (s : State) (th : Nat) (rd : BitVec 5) (v : Word) (t : State) : Prop :=
  OnlyThread th s t ∧ StepsOver (s.thread th) (t.thread th) ∧ KeepsButRegs (s.thread th) (t.thread th)
    ∧ RegsBut (s.thread th) (t.thread th) rd v

/-- The result of an instruction that writes one block register and nothing else. -/
def GivesBlock (s : State) (th : Nat) (bd : BitVec 3) (v : Block) (t : State) : Prop :=
  OnlyThread th s t ∧ StepsOver (s.thread th) (t.thread th) ∧ KeepsButBlocks (s.thread th) (t.thread th)
    ∧ ∀ n, (t.thread th).br n = if n = bd then v else (s.thread th).br n

/-- Nothing stands in the way of the thread's accesses to the memories of its cluster: no word has an ECC error, its gate is
closed, no cluster buffer is gated, no answer and no round-unit result is on its way to it. -/
abbrev Unhindered (s : State) (th : Nat) : Prop :=
  s.plat.ecc = [] ∧ (s.thread th).gated = false ∧ (∀ e ∈ s.eng.thr, e.2.gbufs = []) ∧ (s.thread th).look = none
    ∧ (s.thread th).bBusy = 0

/-- The size of local memory (space 0) and of cluster memory (space 1) (R100). -/
def nearSize (sp : BitVec 2) : Nat := if sp = 0 then 0x8000 else 0x400000

/-- A byte of the local memory of a thread's engine (space 0) or of its cluster's memory (space 1). -/
def State.nearByte (s : State) (th : Nat) (sp : BitVec 2) (a : Nat) : Byte :=
  if sp = 0 then Tbl.get (fun _ => 0) s.eng.localMem (th / 8 * 0x8000 + a)
  else Tbl.get (fun _ => 0) s.eng.clusterMem (th / 512 * 0x400000 + a)

/-- The low n bytes of v stand at a, big-endian, in the thread's local or cluster memory; every other byte of local and cluster
memory, every other thread and every other part of the state is as it was. -/
def StoresNear (s : State) (th : Nat) (sp : BitVec 2) (a n v : Nat) (t : State) : Prop :=
  t = { s with eng := { s.eng with thr := t.eng.thr, localMem := t.eng.localMem, clusterMem := t.eng.clusterMem } }
    ∧ (∀ x, x ≠ th → t.thread x = s.thread x)
    ∧ (∀ k, Tbl.get (fun _ => (0 : Byte)) t.eng.localMem k
        = if sp = 0 ∧ th / 8 * 0x8000 + a ≤ k ∧ k < th / 8 * 0x8000 + a + n
          then BitVec.ofNat 8 (v / 256 ^ (th / 8 * 0x8000 + a + n - 1 - k)) else Tbl.get (fun _ => 0) s.eng.localMem k)
    ∧ (∀ k, Tbl.get (fun _ => (0 : Byte)) t.eng.clusterMem k
        = if sp = 1 ∧ th / 512 * 0x400000 + a ≤ k ∧ k < th / 512 * 0x400000 + a + n
          then BitVec.ofNat 8 (v / 256 ^ (th / 512 * 0x400000 + a + n - 1 - k)) else Tbl.get (fun _ => 0) s.eng.clusterMem k)

/-- Register words outside a list are as they were. -/
def RegsKept (s t : State) (l : List (Reg × Nat)) : Prop := ∀ r i, (r, i) ∉ l → t.rd r i = s.rd r i

/-- From t to u the scheduler only woke children: their start tags, and who is awake (R295). -/
def Settles (t u : State) : Prop := u = t.putSch { t.sch with tag := u.sch.tag, awake := u.sch.awake }

/-- Nothing but the register words of a list has changed. -/
def OnlyRegs (s t : State) (l : List (Reg × Nat)) : Prop := t = s.putRegs t.regs ∧ RegsKept s t l

/-- The canonical form of a byte memory: addresses strictly rising, and no entry equal to what an unlisted address reads as. -/
abbrev Memory.wf (m : Tbl Byte) : Bool := Tbl.wf (fun _ => 0) m

/-- The register file and every memory of the block are in canonical form. -/
abbrev State.MemoryOk (s : State) : Prop :=
  Tbl.wf regReset s.regs = true ∧ Memory.wf s.hbm.mem = true ∧ Memory.wf s.eng.localMem = true ∧ Memory.wf s.eng.clusterMem = true
    ∧ Tbl.wf (fun _ => 0) s.eng.pstore = true ∧ Memory.wf s.trust.mram = true ∧ Tbl.wf flashDef s.trust.flash = true

/-- The chiplet that a command of the manager or of firmware goes to, for the commands that write or read one of its registers and are
refused whole where it does not answer (R22, R26); none for the others, whose effect there the statements say one by one. -/
def commandChip : Instr → Option Nat
  | .steerEntryWrite bank _ _ => some (bankChip bank.toNat)
  | .polCtlWrite p _ => some (polChip p)
  | .timeSet => some 0
  | .ttbCtlWrite _ => some 0
  | .ttbSlotW1Write _ _ => some 0
  | .ttbSlotW0Write _ _ _ => some 0
  | .cluStartWrite cl _ => some (clusterChip cl.toNat)
  | .threadCmdReset cl _ _ => some (clusterChip cl.toNat)
  | .threadCmdResetStart cl _ _ => some (clusterChip cl.toNat)
  | .threadCmdStop cl _ _ => some (clusterChip cl.toNat)
  | .cluFaultPop cl _ => some (clusterChip cl.toNat)
  | .cluBufAlloc cl _ => some (boardChip (cl.toNat / 8))
  | .cluBufFree cl _ => some (boardChip (cl.toNat / 8))
  | .cluConfigWrite cl _ _ => some (clusterChip cl.toNat)
  | .programStoreWrite cl _ _ => some (boardChip (cl.toNat / 8))
  | .sscFlush board => some (boardChip board.toNat)
  | .verify => some 0
  | .apply => some 0
  | .discard => some 0
  | .diceTdefWrite board _ _ => some (boardChip board.toNat)
  | .lookup board _ => some (boardChip board.toNat)
  | .insert board _ => some (boardChip board.toNat)
  | .delete board _ => some (boardChip board.toNat)
  | .update board _ => some (boardChip board.toNat)
  | .purge board _ => some (boardChip board.toNat)
  | .flowCtlWrite board _ => some (boardChip board.toNat)
  | .flowHomeWrite board _ => some (boardChip board.toNat)
  | .deltaAdd _ => some 1
  | .deltaDel _ => some 1
  | .bookSnap _ => some 1
  | .mcGroupW1Write _ _ => some 1
  | .mcGroupCommit _ _ => some 1
  | .shaperConfigWrite _ _ _ => some 1
  | .policerConfigWrite _ _ _ => some 1
  | .gateArm _ _ => some 1
  | .gauCtlWrite _ _ => some 1
  | .install => some 0
  | .revoke => some 0
  | .keyRead => some 0
  | .dieRestart => some 0
  | .sqNextRead _ _ => some 1
  | .sqConfigWrite _ _ _ => some 1
  | .sqEvqRead => some 1
  | .stoCplWrite bank _ => some (bankChip bank.toNat)
  | .stgAlloc bank => some (bankChip bank.toNat)
  | .stgFree bank _ => some (bankChip bank.toNat)
  | .stoEvqRead bank => some (bankChip bank.toNat)
  | .extWrite bank => some (bankChip bank.toNat)
  | .extRead bank => some (bankChip bank.toNat)
  | .nsWrite bank => some (bankChip bank.toNat)
  | .nsRead bank => some (bankChip bank.toNat)
  | .mapWrite bank => some (bankChip bank.toNat)
  | .mapRead bank => some (bankChip bank.toNat)
  | .dmaAbort ch => some (boardChip (ch / 128))
  | .dmaAbortAll ch => some (boardChip (ch / 128))
  | .qviewRead inst => some (instChip inst)
  | .freeze inst => some (instChip inst)
  | .save inst => some (instChip inst)
  | .restore inst => some (instChip inst)
  | .thaw inst => some (instChip inst)
  | .insRateWrite board _ _ => some (boardChip board.toNat)
  | .portCfgWrite p _ => some (bankChip (macBank (macKey p)))
  | .txtsRead p => some (bankChip (macBank (macKey p)))
  | .discGo => some 0
  | .lcChalNew => some 0
  | .provision => some 0
  | .vaultWrite _ => some 0
  | .vaultRead _ => some 0
  | .logClear => some 0
  | .erase => some 0
  | .program => some 0
  | .flashRead => some 0
  | .submit => some 0
  | _ => none

end Sys2Proof.Machine
end

