-- ==== Sys2Proof/Laws/Threads.lean ====
section
/-! SUPPORT. Laws of a thread's record, and of what issue shares. -/
namespace Sys2Proof.Machine

/-! ## The table of threads -/

@[simp] theorem State.thread_setThread (s : State) (th : Nat) (t : Thread) : (s.setThread th t).thread th = t := by
  simp [State.thread, State.setThread]

theorem State.thread_setThread_ne (s : State) {th x : Nat} (t : Thread) (h : th ≠ x) :
    (s.setThread th t).thread x = s.thread x := by
  simp [State.thread, State.setThread, Tbl.get_set_ne _ _ _ h]

theorem Tbl.ins_ins {β : Type} (k : Nat) (v w : β) (t : Tbl β) : Tbl.ins k w (Tbl.ins k v t) = Tbl.ins k w t := by
  induction t with
  | nil => simp [Tbl.ins]
  | cons e t ih =>
    obtain ⟨i, x⟩ := e
    simp only [Tbl.ins]
    split
    · simp [Tbl.ins]
    · split
      · simp [Tbl.ins]
      · rename_i h1 h2; simp [Tbl.ins, h1, h2, ih]

@[simp] theorem State.setThread_regs (s : State) (th : Nat) (t : Thread) : (s.setThread th t).regs = s.regs := rfl

theorem State.rd_setThread (s : State) (th : Nat) (t : Thread) (r : Reg) (i : Nat) : (s.setThread th t).rd r i = s.rd r i := rfl

/-! ## One thread's record -/

theorem Thread.gr_zero (t : Thread) : t.gr 0 = 0 := rfl

theorem Thread.gr_setGr (t : Thread) (rd n : BitVec 5) (v : Word) :
    (t.setGr rd v).gr n = if n = 0 then 0 else if n = rd then v else t.gr n := by
  unfold Thread.setGr Thread.gr
  by_cases hn : n = 0
  · simp [hn]
  · by_cases hr : rd = 0
    · subst hr
      rw [if_pos rfl, if_neg hn, if_neg hn, if_neg hn]
    · simp only [hn, hr, if_false, Tbl.get_set]
      by_cases h : n = rd
      · simp [h]
      · rw [if_neg h, if_neg (fun e => h (BitVec.eq_of_toNat_eq e.symm))]

@[simp] theorem Thread.gr_setTaint (t : Thread) (rd n : BitVec 5) (b : Bool) : (t.setTaint rd b).gr n = t.gr n := by
  unfold Thread.setTaint; split <;> rfl

theorem Thread.gr_put (t : Thread) (rd n : BitVec 5) (src : Bool) (v : Word) :
    (t.put rd src v).gr n = if n = 0 then 0 else if n = rd then v else t.gr n := by
  simp [Thread.put, Thread.gr_setGr]

@[simp] theorem Thread.gr_advance (t : Thread) (n : BitVec 5) : t.advance.gr n = t.gr n := rfl

theorem Thread.br_setBr (t : Thread) (bd n : BitVec 3) (v : Block) : (t.setBr bd v).br n = if n = bd then v else t.br n := by
  simp only [Thread.br, Thread.setBr, Tbl.get_set]
  by_cases h : n = bd
  · simp [h]
  · rw [if_neg h, if_neg (fun e => h (BitVec.eq_of_toNat_eq e.symm))]

@[simp] theorem Thread.br_advance (t : Thread) (n : BitVec 3) : t.advance.br n = t.br n := rfl

/-- A write of a general register leaves all but the registers and their taint. -/
theorem Thread.put_eq (t : Thread) (rd : BitVec 5) (src : Bool) (v : Word) :
    t.put rd src v = { t with g := (t.put rd src v).g, taint := (t.put rd src v).taint } := by
  unfold Thread.put Thread.setTaint Thread.setGr; split <;> rfl

theorem Thread.put_keeps (t : Thread) (rd : BitVec 5) (src : Bool) (v : Word) :
    (t.put rd src v).pc = t.pc ∧ (t.put rd src v).past = t.past ∧ (t.put rd src v).run = t.run
      ∧ (t.put rd src v).b = t.b ∧ (t.put rd src v).gated = t.gated ∧ (t.put rd src v).failed = t.failed := by
  rw [Thread.put_eq]; exact ⟨rfl, rfl, rfl, rfl, rfl, rfl⟩

/-! ## Issue -/

/-- A thread that runs takes its instruction's effect, if the instruction is legal. -/
theorem State.issue_runs (s : State) (th : Nat) (f : State → State) (h : Runs s th) : s.issue th true f = f s := by
  simp [State.issue, h.1, h.2.1, h.2.2]

/-- An instruction that gives a register's value gives exactly that. -/
theorem State.result_gives (s : State) (th : Nat) (rd : BitVec 5) (src : Bool) (v : Word) :
    GivesReg s th rd v (s.result th rd src v) := by
  obtain ⟨h1, h2, _⟩ := (s.thread th).put_keeps rd src v
  have ht : (s.result th rd src v).thread th = ((s.thread th).put rd src v).advance := by simp [State.result, State.retire]
  refine ⟨?_, ?_, ?_, ?_⟩
  · simp only [OnlyThread, ht]; rfl
  · simp [StepsOver, ht, Thread.advance, h1, h2]
  · simp only [KeepsButRegs, ht]
    rw [Thread.put_eq]; rfl
  · intro n; simp [ht, Thread.gr_put]

end Sys2Proof.Machine
end

