-- ==== Sys2Proof/Certificates/Slice0/Obligations.lean ====
section
/-! DEFINITION. The statements for the provers, one or more per family of commands: what a command does to the state, the rest of the state
unchanged, and the invariants that every step keeps. -/
open Sys2Proof Sys2Proof.Machine

/-- One step runs the command at the front of the queue on the state with the rest of the queue; every command, whatever its operands and in
every state, answers a next state and leaves the queue alone; on an empty queue the block idles (the model's choice: log entry 1). That an
empty queue idles is the model's choice (log entry 1). -/
def Obligations.StepTakesFrontCommand : Prop :=
  (∀ (c : Instr) (rest : List Instr) (s : State), step { s with pending := c :: rest } = exec c { s with pending := rest })
  ∧ (∀ (c : Instr) (s : State), Completes c s (fun t => t.pending = s.pending))
  ∧ ∀ s : State, s.pending = [] → step s = .next s

/-- R13: what reset leaves, by the Reset columns of the register tables: R35, R43 to R45, R90, R94, R159, R165, R259, R318 and others; memory
lists nothing and the memories are in canonical form. -/
def Obligations.ResetState : Prop :=
  let holds := fun r i v => State.reset.rd r i = BitVec.ofNat 32 v
  holds .BNK_STEER_TBL 13 0x55 ∧ holds .POL_CUR 0 16 ∧ holds .POL_CUR 1 20000 ∧ holds .POL_MAN 310 1800
  ∧ holds .TIME_CTL 0 1 ∧ holds .TIME_STEP_THR 0 10000 ∧ holds .TIME_STATUS 0 0x20 ∧ holds .TTB_CTL 0 0x30C0
  ∧ holds .TTB_CYCLE 0 0xFFFFFFFF ∧ holds .TTB_SLOT_W0 4095 0 ∧ holds .CLU_CREDIT_STAT 63 1024 ∧ holds .CFL_BOOK_FREE 0 1048576
  ∧ holds .SCH_N_CFG 70000 0x10000 ∧ holds .SCH_Q_W1 5 1 ∧ holds .RNG_FN_BURST 0 0x400040 ∧ holds .GAU_PERIOD 0 1000000
  ∧ holds .CFL_SQ_VAL 0 1 ∧ holds .CFL_SQ_LIMIT 0 0xFFFFFFFF ∧ holds .RING_SIZE 64 0xA0A ∧ holds .BNK_STO_HOLD_TMO 3 5000
  ∧ holds .HDW_PWR_PFAIL 0 44 ∧ holds .PCIE_MSIX_VCTL 0 1 ∧ holds .AP_BASE_HI 9 3 ∧ holds .AP_BASE 10 0x01000000
  ∧ State.reset.cfl.books.free = 1048576 ∧ State.reset.pending = [] ∧ State.reset.hbm.mem = [] ∧ State.reset.eng.thr = []
  ∧ State.reset.MemoryOk

/-- R294: tags compare modulo 2^48; the order of two tags is asymmetric. -/
def Obligations.TagOrder : Prop :=
  (∀ a b : Nat, precedes a b = true ↔ 1 ≤ ((b : Int) - a) % 2 ^ 48 ∧ ((b : Int) - a) % 2 ^ 48 ≤ 2 ^ 47 - 1)
  ∧ (∀ a b : Nat, precedes (a + 2 ^ 48) b = precedes a b ∧ precedes a (b + 2 ^ 48) = precedes a b)
  ∧ ∀ a b : Nat, precedes a b = true → precedes b a = false

/-- R71: the cycles for which an entry of an assigned class fires; DIV 0 fires on every pass, and PHASE bits at and above DIV are ignored.
(R72: an entry of a reserved class never fires.) -/
def Obligations.EntryFires : Prop :=
  ∀ (s : State) (i c p : Nat),
    let l := 2 ^ s.fld F.TTB_CTL.LOG2_LEN 0
    let d := s.fld F.TTB_SLOT_W0.DIV i
    let valid := s.fld F.TTB_SLOT_W0.VALID i = 1
    (s.fld F.TTB_SLOT_W0.CLASS i ≤ 8 →
      (s.fires i c = true ↔ valid ∧ c % l = i ∧ c / l % 2 ^ d = s.fld F.TTB_SLOT_W0.PHASE i % 2 ^ d)
      ∧ (d = 0 → (s.fires i c = true ↔ valid ∧ c % l = i))
      ∧ (p % 2 ^ d = s.fld F.TTB_SLOT_W0.PHASE i % 2 ^ d → (s.setFld F.TTB_SLOT_W0.PHASE i p).fires i c = s.fires i c))
    ∧ (8 < s.fld F.TTB_SLOT_W0.CLASS i → s.fires i c = false)

/-- R114: a branch or jump whose target lies at or above 0x10_0000 raises an instruction-address fault (cause 0x02) and writes no register; an
instruction past the last word of the program store raises the same fault at its fetch. (A gate that the fault resolves may clear
registers, R126; a misaligned target of JALR raises the alignment fault of R113; a management engine has no fault queue.) It says that a
next state is answered, and which: add, beq, bne, blt, bge, bltu, bgeu, jal, jalr. -/
def Obligations.ProgramStoreEnds : Prop :=
  ∀ (th : Nat) (rd rs1 rs2 : BitVec 5) (off : BitVec 16) (off26 : BitVec 26) (s : State), s.canIssue th = true →
    let t := s.thread th
    let a := t.gr rs1
    let b := t.gr rs2
    let q := fun (u : State) => Tbl.get (fun _ => []) u.eng.faults (th / 512)
    let far := fun (w : Word) => 2 ^ 20 ≤ w.toNat
    let faults := fun i => Completes i s (fun u => (u.thread th).run = .stopped ∧ (u.thread th).faulted = true ∧ (u.thread th).pc = t.pc
      ∧ (t.gated = false → (∀ n, (u.thread th).gr n = t.gr n) ∧ ∀ n, (u.thread th).br n = t.br n)
      ∧ (th < 32768 → (q s).length < 16 → q u = q s ++ [{ th := th, cause := 2, trap := 0, pc := t.pc }]))
    let target := BitVec.ofInt 32 (t.pc.toNat + off.toInt * 4)
    let jump := BitVec.ofInt 32 (a.toInt + off.toInt)
    (t.past = false → far target →
      (a = b → faults (.beq th rs1 rs2 off)) ∧ (a ≠ b → faults (.bne th rs1 rs2 off))
      ∧ (a.toInt < b.toInt → faults (.blt th rs1 rs2 off)) ∧ (b.toInt ≤ a.toInt → faults (.bge th rs1 rs2 off))
      ∧ (a.toNat < b.toNat → faults (.bltu th rs1 rs2 off)) ∧ (b.toNat ≤ a.toNat → faults (.bgeu th rs1 rs2 off)))
    ∧ (t.past = false → far (BitVec.ofInt 32 (t.pc.toNat + off26.toInt * 4)) → faults (.jal th off26))
    ∧ (t.past = false → far jump → jump.toNat % 4 = 0 → faults (.jalr th rd rs1 off))
    ∧ (t.past = true → faults (.add th rd rs1 rs2) ∧ faults (.beq th rs1 rs2 off) ∧ faults (.jal th off26))

/-- R300: a write to CIR, PIR, CBS, PBS or ADJ of a node (SCH_N_PBS holds ADJ) sets both of its buckets full, at the sizes that the write
leaves. It says that a next state is answered, and which: shaperConfigWrite. -/
def Obligations.ShaperWriteFillsBuckets : Prop :=
  ∀ (s : State) (r : Reg) (n : Nat) (v : BitVec 32), r ∈ [Reg.SCH_N_CIR, .SCH_N_PIR, .SCH_N_CBS, .SCH_N_PBS] →
    s.reachable 1 = true → Completes (.shaperConfigWrite r n v) s (fun u =>
      (u.nodeBuckets n).tc = (u.fld F.SCH_N_CBS.BYTES n : Int) * 1000 ∧ (u.nodeBuckets n).tp = (u.fld F.SCH_N_PBS.BYTES n : Int) * 1000
      ∧ u.rd r n = typedWrite r v (s.rd r n) ∧ RegsKept s u [(r, n)]
      ∧ ∀ m, m ≠ n → u.nodeBuckets m = s.nodeBuckets m)

/-- R13, R19, R100, R152, R507, R555: the register file, HBM, local and cluster memory, the program stores, the MRAM and the flash keep their
canonical form through every step. The canonical form is the model's (log entry 6). -/
def Obligations.MemoriesStayCanonical : Prop :=
  ∀ s t : State, s.MemoryOk → step s = .next t → t.MemoryOk

/-- R502: a fuse bit, once burned, never clears, whatever command the block takes. -/
def Obligations.FusesNeverClear : Prop :=
  ∀ (s t : State) (k : Nat), step s = .next t → s.trust.fuses.getLsbD k = true → t.trust.fuses.getLsbD k = true

/-- No command touches the queue: a step takes the front command away and leaves the others in their order. The idle step on an empty queue is
the model's choice (log entry 1). -/
def Obligations.QueueIsFirstInFirstOut : Prop :=
  ∀ s t : State, step s = .next t → t.pending = s.pending.tail

/-- R43, R47 to R50: the mode of a policy, a software write that discards the change of its own clock, MANUAL, and in ADAPT the adaptations of
admission, congestion, Dice effort, Dredge, Slack water and power, each within its range and counted in CHANGES. R34, R35, R51, R577: a
steering entry: a write of BOARD, the move when nothing is in flight, and the balancing move. Model's choices in it: an event whose
condition fails changes nothing (log entry 2); that the discard of a change reads the same tick (log entry 67). It says that a next state
is answered, and which: steerEntryWrite, steerEntryMove, steerBalanceInterval, polCtlWrite, policyManualApply, admissionAdapt, ecnAdapt,
diceHitLimitAdapt, dredgeSpeedAdapt, slackSkipAdapt, powerCapAdapt. -/
def Obligations.PoliciesAndSteering : Prop :=
  (∀ (s : State) (p q lo hi n : Nat) (v : BitVec 32) (b : BitVec 3) (link : MacPort) (tj tc : BitVec 8),
    let val := fun (t : State) k => (t.rd .POL_CUR k).toNat
    let own := fun (t : State) k => RegsKept s t [(.POL_CUR, k), (.POL_CTL, k), (.HDW_PWR_TEMP, 0)]
    let adapts := fun i k n => s.fld F.POL_CTL.MODE k = 0 → s.mayAdapt k = true → n < 2 ^ 32 → Completes i s (fun t => val t k = n ∧ own t k
      ∧ t.fld F.POL_CTL.MODE k = 0
      ∧ t.fld F.POL_CTL.CHANGES k = if n = val s k then s.fld F.POL_CTL.CHANGES k else Nat.min 255 (s.fld F.POL_CTL.CHANGES k + 1))
    let slack := match link with | .attach a => 22 + a.toNat | .net a => 54 + a.toNat
    (s.reachable (polChip p) = true → v.toNat % 4 ≠ 3 → Completes (.polCtlWrite p v) s (fun t =>
      t.fld F.POL_CTL.MODE p = v.toNat % 4 ∧ OnlyRegs ((s.polWritten p).answer .ok) t [(.POL_CTL, p)]
      ∧ ((s.polTurn p).changed ≠ s.time.tick + 1 → t.fld F.POL_CTL.CHANGES p = s.fld F.POL_CTL.CHANGES p ∧ val t p = val s p)
      ∧ ((s.polTurn p).changed = s.time.tick + 1 → t.fld F.POL_CTL.CHANGES p = (s.polTurn p).ctl.toNat / 256 % 256
          ∧ t.rd .POL_CUR p = (s.polTurn p).cur) ∧ t.mayAdapt p = false))
    ∧ (s.reachable (polChip p) = true → v.toNat % 4 = 3 → Completes (.polCtlWrite p v) s (fun t => t = (s.polWritten p).answer .ok))
    ∧ (s.reachable (polChip p) = false → Completes (.polCtlWrite p v) s (fun t => t = s.answer .busError))
    ∧ (s.fld F.POL_CTL.MODE p = 2 → s.isFenced (polChip p) = false → (p, lo, hi) ∈ [(0, 1, 64), (1, 1000, 10000000), (2, 1, 64), (9, 1, 64), (10, 1, 512), (17, 1, 512),
          (22, 0, 255), (309, 0, 255), (310, 600, 1800)] → Completes (.policyManualApply p) s (fun t =>
        val t p = (if (s.rd .POL_MAN p).toNat < lo then lo else if hi < (s.rd .POL_MAN p).toNat then hi else (s.rd .POL_MAN p).toNat)
        ∧ OnlyRegs s t [(.POL_CUR, p)]))
    ∧ (18 ≤ p → p < 22 → Completes (.policyManualApply p) s (fun t => t = s))
    ∧ (s.cfl.admLow = true → 8 < val s 0 → val s 0 ≤ 33 → adapts .admissionAdapt 0 (val s 0 - 1))
    ∧ (s.cfl.admLow = false → s.cfl.admRefused = true → 8 ≤ val s 0 → val s 0 < 32 → adapts .admissionAdapt 0 (val s 0 + 1))
    ∧ (s.cfl.ecnLow = true → n = val s 1 - val s 1 / 16 → 5000 ≤ n → n ≤ 100000 → adapts .ecnAdapt 1 n)
    ∧ (s.cfl.ecnLow = false → s.cfl.ecnMark = true → s.cfl.ecnDip = false → n = val s 1 + val s 1 / 16 → 5000 ≤ n → n ≤ 100000 →
        adapts .ecnAdapt 1 n)
    ∧ (s.cfl.ecnLow = false → s.cfl.ecnMark = false → 5000 ≤ val s 1 → val s 1 ≤ 100000 → adapts .ecnAdapt 1 (val s 1))
    ∧ (Tbl.get (fun _ => false) s.look.limitHit b.toNat = true → q = 2 + b.toNat → 24 ≤ val s q → val s q ≤ 60 →
        adapts (.diceHitLimitAdapt b) q (val s q + 4))
    ∧ (q = 10 + b.toNat → 524288 * 7 < s.fld F.BRD_DICE_STAT.USED b.toNat * 8 → 2 ≤ val s q → val s q ≤ 32 →
        adapts (.dredgeSpeedAdapt b) q (val s q * 2))
    ∧ (q = 10 + b.toNat → s.fld F.BRD_DICE_STAT.USED b.toNat * 4 < 524288 * 3 → 8 ≤ val s q → val s q ≤ 128 →
        adapts (.dredgeSpeedAdapt b) q (val s q / 2))
    ∧ (500 < n → 1 ≤ val s slack → val s slack ≤ 127 → adapts (.slackSkipAdapt link n) slack (val s slack * 2))
    ∧ (n < 100 → 2 ≤ val s slack → val s slack ≤ 255 → adapts (.slackSkipAdapt link n) slack (val s slack / 2))
    ∧ (100 ≤ n → n ≤ 500 → adapts (.slackSkipAdapt link n) slack (val s slack))
    ∧ (s.trust.power = .on → 105 ≤ tj.toNat ∨ 72 ≤ tc.toNat → 1050 ≤ val s 310 → val s 310 ≤ 1850 → adapts (.powerCapAdapt tj tc) 310 (val s 310 - 50))
    ∧ (s.trust.power = .on → tj.toNat < 95 → tc.toNat < 68 → 950 ≤ val s 310 → val s 310 ≤ 1750 → adapts (.powerCapAdapt tj tc) 310 (val s 310 + 50)))
  ∧ (∀ (s : State) (k : BitVec 2) (e : BitVec 12) (b : BitVec 3),
    let i := k.toNat * 4096 + e.toNat
    let kept := fun (s t : State) => OnlyRegs s t [(.BNK_STEER_TBL, i), (.POL_CUR, 18 + k.toNat)]
    (s.reachable (2 + k.toNat) = true → s.isFenced (8 + b.toNat) = false → Completes (.steerEntryWrite k e b) s (fun t =>
      kept (s.answer .ok) t
      ∧ t.fld F.BNK_STEER_TBL.BOARD i = b.toNat ∧ t.fld F.BNK_STEER_TBL.CUR_BOARD i = s.fld F.BNK_STEER_TBL.CUR_BOARD i
      ∧ t.fld F.BNK_STEER_TBL.PENDING i = (if s.fld F.BNK_STEER_TBL.CUR_BOARD i = b.toNat then 0 else 1)
      ∧ t.fld F.BNK_STEER_TBL.INFLIGHT i = s.fld F.BNK_STEER_TBL.INFLIGHT i))
    ∧ (s.reachable (2 + k.toNat) = true → s.isFenced (8 + b.toNat) = true → Completes (.steerEntryWrite k e b) s (fun t =>
      t = s.answer .ok))
    ∧ (s.reachable (2 + k.toNat) = false → Completes (.steerEntryWrite k e b) s (fun t => t = s.answer .busError))
    ∧ (s.fld F.BNK_STEER_TBL.INFLIGHT i = 0 → Completes (.steerEntryMove k e) s (fun t => kept s t
      ∧ t.fld F.BNK_STEER_TBL.CUR_BOARD i = s.fld F.BNK_STEER_TBL.BOARD i ∧ t.fld F.BNK_STEER_TBL.PENDING i = 0
      ∧ t.fld F.BNK_STEER_TBL.BOARD i = s.fld F.BNK_STEER_TBL.BOARD i))
    ∧ (s.fld F.BNK_STEER_TBL.INFLIGHT i ≠ 0 → Completes (.steerEntryMove k e) s (fun t => t = s))
    ∧ (s.fld F.HDW_BOOT_STAT.FENCED 0 = 0 → s.fld F.POL_CTL.MODE (18 + k.toNat) = 0 → (s.rd .POL_CUR (18 + k.toNat)).toNat < 64 →
      2048 ≤ s.intakeDepth k.toNat 3 → (∀ x < 8, x ≠ 3 → s.intakeDepth k.toNat x < s.intakeDepth k.toNat 3) →
      s.intakeDepth k.toNat b.toNat ≤ 512 → (∀ x < 8, x ≠ b.toNat → s.intakeDepth k.toNat b.toNat < s.intakeDepth k.toNat x) →
      Tbl.get (fun _ => 0) s.plat.movePtr k.toNat = e.toNat → s.fld F.BNK_STEER_TBL.CUR_BOARD i = 3 →
      s.fld F.BNK_STEER_TBL.PENDING i = 0 → Completes (.steerBalanceInterval k) s (fun t =>
        t.fld F.BNK_STEER_TBL.BOARD i = b.toNat ∧ t.fld F.BNK_STEER_TBL.PENDING i = 1
        ∧ t.fld F.POL_CTL.CHANGES (18 + k.toNat) = Nat.min 255 (s.fld F.POL_CTL.CHANGES (18 + k.toNat) + 1)
        ∧ Tbl.get (fun _ => 0) t.plat.movePtr k.toNat = (e.toNat + 1) % 4096
        ∧ RegsKept s t [(.BNK_STEER_TBL, i), (.POL_CUR, 18 + k.toNat), (.POL_CTL, 18 + k.toNat)])))

/-- R54, R69, R98, R334: one advance of the master copy: 1 ns and the frequency correction, to 2⁻³² ns, and at most one nanosecond of slew;
the engines' clocks go on, and the Die fills the random buffers while it is OK; nothing else changes. R58 to R63, R65, R67: the sources of
time: the edges of PPS_IN, TREF10_IN, PTP and the timeouts. R62, R65 to R69: phase measurements lock the unit, holdover counts its
seconds, TIME_SET is taken in FREE and HOLDOVER, and a correction is slewed or waits as a step. Model's choices in it: an event whose
condition fails changes nothing (log entry 2); the readings of log entries 63, 64, 71 and 72. It says that a next state is answered, and
which: timeAdvance, ppsEdge, ppsEdgeMissing, tref10Measure, tref10EdgeTimeout, ppsOutRise, ppsOutFall, ptpMessageReceive,
announceReceiptTimeout, phaseMeasurement, holdoverSecond, timeSet, timeCorrectionDue. -/
def Obligations.NetworkTime : Prop :=
  (∀ (s : State),
    let total : Int := s.time.now * 2 ^ 32 + 2 ^ 32 + s.time.sub + (s.rd .TIME_FREQ_ADJ 0).toInt * 131072 / 1000000000
    let q := (total / 2 ^ 32).toNat
    let rest := fun (u : TimeUnit) => ((s.putTime { u with sub := (total % 2 ^ 32).toNat, tick := s.time.tick + 1 }).putKeys { s.keys with
      rnd := if s.fld F.HDW_DIE_STATUS.STATE 0 = 1 then rndFill s.keys.rnd else s.keys.rnd }).putEng { s.eng with
      clk := s.eng.clk + (4 - s.fld F.HDW_PWR_STAT.STEP 0 % 4) * 11 }
    let at_ := fun (x : Nat) => { s.time with now := x, boundary := s.time.boundary || x / 4096 != s.time.now / 4096 }
    (s.time.slew = 0 ∨ q < s.time.slewNext → Completes .timeAdvance s (fun t => t = rest (at_ q)))
    ∧ (0 < s.time.slew → s.time.slewNext ≤ q → Completes .timeAdvance s (fun t =>
        t = rest { at_ (q + 1) with slew := s.time.slew - 1, slewNext := q + 4096 }))
    ∧ (s.time.slew < 0 → s.time.slewNext ≤ q → Completes .timeAdvance s (fun t =>
        t = rest { at_ (q - 1) with slew := s.time.slew + 1, slewNext := q + 4096 }))
    ∧ (∀ (b : Tbl Nat) (k : Nat), Tbl.get (fun _ => 0) (rndFill b) k
        = if k < 10 then Nat.min 8192 (Tbl.get (fun _ => 0) b k + 4) else Tbl.get (fun _ => 0) b k))
  ∧ (∀ (s : State) (ppb : Int) (port : MacPort) (dom : BitVec 8) (st : PtpState),
    let m := s.time
    let good := ∃ l, m.ppsLast = some l ∧ l + 999990000 ≤ m.now ∧ m.now ≤ l + 1000010000
    let near := m.now % 1000000000 ≤ 8 ∨ 999999992 ≤ m.now % 1000000000
    let lost := fun (t : State) => RegsKept s t [(.TIME_STATUS, 0), (.TIME_FREQ_ADJ, 0)] ∧ t.time.now = m.now
      ∧ t.rd .TIME_FREQ_ADJ 0 = (if s.refValid = true ∧ s.fld F.TIME_STATUS.STATE 0 = 3 then BitVec.ofInt 32 m.holdFreq
          else s.rd .TIME_FREQ_ADJ 0)
    let late := ∀ l, m.ppsLast = some l → m.now < l + 999990000 ∨ l + 1000010000 < m.now
    (good → m.ppsGood < 2 → Completes .ppsEdge s (fun t =>
      t = s.putTime { m with ppsLast := some m.now, ppsGood := m.ppsGood + 1, ppsBad := 0 }))
    ∧ (good → 2 ≤ m.ppsGood → Completes .ppsEdge s (fun t => t.fld F.TIME_STATUS.PPS_OK 0 = 1 ∧ t.time.ppsLast = some m.now
        ∧ t.time.now = m.now))
    ∧ (late → m.ppsBad < 2 → Completes .ppsEdge s (fun t => t = s.putTime { m with
        ppsGood := 0, ppsBad := m.ppsBad + 1, ppsLast := if s.fld F.TIME_STATUS.PPS_OK 0 = 1 then m.ppsLast else some m.now }))
    ∧ (m.ppsBad < 2 → Completes .ppsEdgeMissing s (fun t => t = s.putTime { m with ppsGood := 0, ppsBad := m.ppsBad + 1 }))
    ∧ (2 ≤ m.ppsBad → Completes .ppsEdgeMissing s (fun t => t.fld F.TIME_STATUS.PPS_OK 0 = 0 ∧ t.time.now = m.now))
    ∧ (-50000 ≤ ppb → ppb ≤ 50000 → Completes (.tref10Measure ppb) s (fun t => t.fld F.TIME_STATUS.REF10_OK 0 = 1
        ∧ t.rd .TIME_FREQ_ADJ 0 = (if s.fld F.TIME_CTL.REF10_EN 0 = 1 then BitVec.ofInt 32 (ppb * 2 ^ 15)
            else s.rd .TIME_FREQ_ADJ 0)
        ∧ RegsKept s t [(.TIME_STATUS, 0), (.TIME_FREQ_ADJ, 0)] ∧ t.time.now = m.now))
    ∧ (ppb < -50000 ∨ 50000 < ppb → Completes (.tref10Measure ppb) s (fun t => t.fld F.TIME_STATUS.REF10_OK 0 = 0
        ∧ lost t))
    ∧ Completes .tref10EdgeTimeout s (fun t => t.fld F.TIME_STATUS.REF10_OK 0 = 0 ∧ lost t
        ∧ t.fld F.TIME_STATUS.STATE 0 = s.fld F.TIME_STATUS.STATE 0)
    ∧ (s.fld F.TIME_CTL.PPS_OUT_EN 0 = 1 → near → m.ppsOut = false → Completes .ppsOutRise s (fun t =>
        t = s.putTime { m with ppsOut := true, ppsOutAt := m.tick }))
    ∧ (¬near → Completes .ppsOutRise s (fun t => t = s))
    ∧ (m.ppsOut = true → m.ppsOutAt + 1000000 ≤ m.tick → Completes .ppsOutFall s (fun t => t = s.putTime { m with ppsOut := false }))
    ∧ (m.tick < m.ppsOutAt + 1000000 → Completes .ppsOutFall s (fun t => t = s))
    ∧ (dom ≠ m.ptpDomain → Completes (.ptpMessageReceive port dom st) s (fun t =>
        t = s.putTime { m with ptpDropped := m.ptpDropped + 1 }))
    ∧ (dom = m.ptpDomain → macKey port < 256 ∨ st = .master ∨ st = .disabled → Completes (.ptpMessageReceive port dom st) s (fun t =>
        t.ptpPort port = st ∧ t.time.now = m.now ∧ (∀ p, macKey p ≠ macKey port → t.ptpPort p = s.ptpPort p)
        ∧ (st = .slave → t.fld F.TIME_STATUS.PTP_OK 0 = 1)
        ∧ (st ≠ .slave → (∀ e ∈ m.ptpPorts, e.2 ≠ .slave) → t.fld F.TIME_STATUS.PTP_OK 0 = 0)))
    ∧ (dom = m.ptpDomain → 256 ≤ macKey port → st ≠ .master → st ≠ .disabled → Completes (.ptpMessageReceive port dom st) s (fun t =>
        t = s))
    ∧ (m.ptpPorts = [(macKey port, .slave)] → Completes (.announceReceiptTimeout port) s (fun t => t.ptpPort port = .master
        ∧ t.fld F.TIME_STATUS.PTP_OK 0 = 0 ∧ t.time.now = m.now
        ∧ (s.fld F.TIME_STATUS.STATE 0 = 2 → s.fld F.TIME_CTL.PPS_EN 0 = 0 → t.fld F.TIME_STATUS.STATE 0 = 3))))
  ∧ (∀ (s : State) (src : TimeSource) (off e : Int) (freq : BitVec 32) (w : Nat),
    let m := s.time
    let st := s.fld F.TIME_STATUS.STATE 0
    let d : Int := (w : Int) - (m.now : Int)
    let thr := (s.rd .TIME_STEP_THR 0).toNat
    let old := if m.withinSrc = src then m.within else 0
    let by_ := fun (src : TimeSource) (e : Int) =>
      (e.natAbs ≤ thr → Completes (.timeCorrectionDue src w) s (fun t =>
          t = s.putTime { m with slew := e, slewNext := m.now, step := none }))
      ∧ (thr < e.natAbs → Completes (.timeCorrectionDue src w) s (fun t => t = s.putTime { m with slew := 0, step := some e }))
    (s.phaseSource = some src → Completes (.phaseMeasurement src off freq) s (fun t =>
      (t.rd .TIME_OFFSET 0).toInt = (if off < -2 ^ 31 then -2 ^ 31 else if 2 ^ 31 ≤ off then 2 ^ 31 - 1 else off) ∧ t.rd .TIME_FREQ_ADJ 0 = (if s.refValid then s.rd .TIME_FREQ_ADJ 0 else freq)
      ∧ t.time.within = (if -100 ≤ off ∧ off ≤ 100 then old + 1 else 0) ∧ t.time.now = m.now
      ∧ t.fld F.TIME_STATUS.STATE 0 = (if st = 1 ∧ -100 ≤ off ∧ off ≤ 100 ∧ 15 ≤ old then 2 else st)))
    ∧ (s.phaseSource ≠ some src → Completes (.phaseMeasurement src off freq) s (fun t => t = s))
    ∧ (st = 3 → Completes .holdoverSecond s (fun t => OnlyRegs s t [(.TIME_HOLD_SEC, 0)]
        ∧ (t.rd .TIME_HOLD_SEC 0).toNat = Nat.min (2 ^ 32 - 1) ((s.rd .TIME_HOLD_SEC 0).toNat + 1)))
    ∧ (st ≠ 3 → Completes .holdoverSecond s (fun t => t = s))
    ∧ (s.phaseSource = some .ptp → by_ .ptp d)
    ∧ (s.phaseSource = some .pps → -500000000 ≤ e → e < 500000000 → (d - e) % 1000000000 = 0 → by_ .pps e)
    ∧ (s.phaseSource = some .pps → s.fld F.TIME_CTL.PTP_EN 0 = 1 → s.fld F.TIME_STATUS.PTP_OK 0 = 1 → -500000000 ≤ d - e →
        d - e < 500000000 → e % 1000000000 = 0 → by_ .ptp e)
    ∧ (s.phaseSource ≠ some .pps → Completes (.timeCorrectionDue .pps w) s (fun t => t = s))
    ∧ (s.reachable 0 = true → st = 1 ∨ st = 2 ∨ 999999999 < (s.rd .TIME_SET_NS 0).toNat → Completes .timeSet s (fun t =>
        t.fld F.TIME_STATUS.SET_REJ 0 = 1 ∧ OnlyRegs (s.answer .ok) t [(.TIME_STATUS, 0)]))
    ∧ (s.reachable 0 = true → st = 0 ∨ st = 3 → (s.rd .TIME_SET_NS 0).toNat ≤ 999999999 →
        w = (s.fld F.TIME_SET_SHI.SEC 0 * 2 ^ 32 + (s.rd .TIME_SET_SLO 0).toNat) * 10 ^ 9 + (s.rd .TIME_SET_NS 0).toNat →
        Completes .timeSet s (fun t => t.time.todKnown = true ∧ t.fld F.TIME_STATUS.FREERUN 0 = 0 ∧ t.time.now = m.now
          ∧ t.time.slew = (if d.natAbs ≤ thr then d else 0) ∧ t.time.step = (if d.natAbs ≤ thr then none else some d))))

/-- R71, R73, R79, R85: the calendar: the evaluation at a boundary, a new length, and the two words of a slot. R73 to R75, R81 to R84: a
firing that was sent to a unit and whose boundary has come: it starts, becomes pending or merges, and starts later; a ford window closes;
a background class takes its clock. Model's choices in it: an event whose condition fails changes nothing (log entry 2); the calendar
readings of log entry 73 and the turns of log entry 68. It says that a next state is answered, and which: tideBoundary, ttbCtlWrite,
ttbSlotW1Write, ttbSlotW0Write, pendingFiringStart, fordWindowClose, backgroundStarvationGrant, dredgeFiring, soundingFiring,
memoryScrubFiring, slackWaterFiring. -/
def Obligations.TideTable : Prop :=
  (∀ (s : State) (v : BitVec 32) (slot : BitVec 16),
    let c := s.time.now / 4096 + 1
    let i := c % 2 ^ s.fld F.TTB_CTL.LOG2_LEN 0
    let n := v.toNat / 16 % 32
    let len := s.fld F.TTB_CTL.LOG2_LEN 0
    (s.time.boundary = true → s.time.step = none → (c : Int) = s.tide.cLast + 1 → s.fld F.TTB_CTL.LEN_PEND 0 = 0 →
      Completes .tideBoundary s (fun t => t.tide.cLast = c ∧ t.rd .TTB_CYCLE 0 = BitVec.ofNat 32 c ∧ t.time.now = s.time.now
        ∧ t.fld F.TTB_STATUS.WAITING 0 = 0 ∧ (s.fires i c = true →
          Msg.firing (s.fld F.TTB_SLOT_W0.CLASS i) (s.fld F.TTB_SLOT_W1.TARGET i &&& 0xFF3F) (s.slotFiring i c) ∈ t.out
          ∧ t.fld F.TTB_SLOT_W0.DEFERRED i = 0
          ∧ t.fld F.TTB_SLOT_W0.VALID i = if s.fld F.TTB_SLOT_W0.ONCE i = 1 then 0 else 1)))
    ∧ (s.time.boundary = true → s.time.step = none → (c : Int) ≤ s.tide.cLast → Completes .tideBoundary s (fun t =>
        t.fld F.TTB_STATUS.WAITING 0 = 1 ∧ t.tide.cLast = s.tide.cLast ∧ t.rd .TTB_CYCLE 0 = s.rd .TTB_CYCLE 0))
    ∧ (s.reachable 0 = true → n < 8 ∨ 16 < n → Completes (.ttbCtlWrite v) s (fun t => t.rd .TTB_CTL 0 = s.rd .TTB_CTL 0))
    ∧ (s.reachable 0 = true → 8 ≤ n → n ≤ 16 → Completes (.ttbCtlWrite v) s (fun t => t.fld F.TTB_CTL.NEXT 0 = n
        ∧ t.fld F.TTB_CTL.LOG2_LEN 0 = (if s.plat.coldBoot then n else len)
        ∧ t.fld F.TTB_CTL.LEN_PEND 0 = (if s.plat.coldBoot ∨ n = len then 0 else 1)))
    ∧ (s.reachable 0 = true → Completes (.ttbSlotW1Write slot v) s (fun t => t.staged .TTB_SLOT_W1 slot.toNat = some v
        ∧ (∀ r k, (r, k) ≠ (Reg.TTB_SLOT_W1, slot.toNat) → t.staged r k = s.staged r k) ∧ t = (s.putStage t.stage).answer .ok))
    ∧ (s.reachable 0 = true → Completes (.ttbSlotW0Write .firmware slot v) s (fun t =>
        t.fld F.TTB_SLOT_W0.VALID slot.toNat = v.toNat % 2 ∧ t.fld F.TTB_SLOT_W0.CLASS slot.toNat = v.toNat / 16 % 16
        ∧ t.fld F.TTB_SLOT_W0.DIV slot.toNat = v.toNat / 256 % 16 ∧ t.staged .TTB_SLOT_W1 slot.toNat = none
        ∧ t.rd .TTB_SLOT_W1 slot.toNat = (s.staged .TTB_SLOT_W1 slot.toNat).getD (s.rd .TTB_SLOT_W1 slot.toNat)))
    ∧ (∀ who, isFirmware who = false → s.reachable 0 = true → v.toNat / 16 % 16 = 4 ∨ v.toNat / 16 % 16 = 6 →
        Completes (.ttbSlotW0Write who slot v) s (fun t =>
        t.rd .TTB_SLOT_W0 slot.toNat = s.rd .TTB_SLOT_W0 slot.toNat
        ∧ t.rd .TTB_SLOT_W1 slot.toNat = s.rd .TTB_SLOT_W1 slot.toNat)))
  ∧ (∀ (s : State) (b : BitVec 3) (k : BitVec 2) (u : Unit_) (f g h : Firing) (p : BitVec 8),
    let w := fun t u c => State.unitWork t u c
    let due := fun u c => s.fireDue u c f = true ∧ s.isFenced (unitChip u) = false
    let taken := fun u c => s.fireTake u c f
    let busy := fun i u c => due u c → (w s u c).work = some g →
      ((w s u c).pend = none → Completes i s (fun t => t = (taken u c).setUnitWork u c { work := some g, pend := some (firingActs c f) }))
      ∧ ((w s u c).pend = some h → Completes i s (fun t => w t u c
            = { work := some g, pend := some { h with deferred := h.deferred || f.deferred } }
          ∧ OnlyRegs (s.putTide t.tide) t [(.TTB_OVERRUN, 0)]
          ∧ (t.rd .TTB_OVERRUN 0).toNat = Nat.min (2 ^ 32 - 1) ((s.rd .TTB_OVERRUN 0).toNat + 1)))
    let idle := fun u c => w s u c = { work := none, pend := none }
    let swept := fun (t : State) => t.scrubAt .cells = (s.scrubAt .cells + 0x10000 * 2 ^ (f.arg.toNat % 16) * (if f.deferred then 2 else 1))
      % (1048576 * 256)
    busy (.dredgeFiring b f) (.dice b) 1 ∧ busy (.soundingFiring k f) (.auditor k) 2
    ∧ busy (.memoryScrubFiring .cells f) .cells 3 ∧ busy (.slackWaterFiring (.net p) f) (.netMac p) 7
    ∧ (s.fireDue (.dice b) 1 f = false → Completes (.dredgeFiring b f) s (fun t => t = s))
    ∧ (due .cells 3 → idle .cells 3 → s.plat.ecc = [] → f.ford = false →
        Completes (.memoryScrubFiring .cells f) s (fun t => (w t .cells 3).work = none ∧ t.regs = s.regs ∧ t.plat.ecc = []
          ∧ swept t ∧ t.tide.sent = (taken .cells 3).tide.sent))
    ∧ (due (.dice b) 1 → idle (.dice b) 1 → s.polValue (10 + b.toNat) ≠ 0 → f.ford = false →
        Completes (.dredgeFiring b f) s (fun t => (w t (.dice b) 1).work = some (firingActs 1 f)
          ∧ t.dredgeLeft b.toNat = 256 * s.polValue (10 + b.toNat) * (if f.deferred then 2 else 1) ∧ t.regs = s.regs))
    ∧ ((w s .cells 3) = { work := none, pend := some f } → s.isFenced 1 = false → s.plat.ecc = [] → f.ford = false →
        Completes (.pendingFiringStart .cells 3) s (fun t => w t .cells 3 = { work := none, pend := none } ∧ t.regs = s.regs ∧ swept t))
    ∧ (∀ x, s.fordWin u = some x → x.ends ≤ s.replica (unitChip u) → Completes (.fordWindowClose u) s (fun t => t.fordWin u = none
        ∧ (∀ y, unitCode y ≠ unitCode u → t.fordWin y = s.fordWin y) ∧ t = s.putTide { s.tide with ford := t.tide.ford }))
    ∧ (∀ x, s.fordWin u = some x → s.replica (unitChip u) < x.ends → Completes (.fordWindowClose u) s (fun t => t = s))
    ∧ (∀ c, s.nextBackground u (Tbl.get (fun _ => 0) s.tide.bgLast (unitCode u)) = some c → c ≠ 1 →
        Completes (.backgroundStarvationGrant u) s (fun t => Tbl.get (fun _ => 0) t.tide.bgLast (unitCode u) = c
          ∧ Tbl.get (fun _ => 0) t.tide.bgGrants (unitCode u) = Tbl.get (fun _ => 0) s.tide.bgGrants (unitCode u) + 1
          ∧ t = s.putTide { s.tide with bgLast := t.tide.bgLast, bgGrants := t.tide.bgGrants }))
    ∧ (s.nextBackground (.dice b) (Tbl.get (fun _ => 0) s.tide.bgLast b.toNat) = some 1 →
        Completes (.backgroundStarvationGrant (.dice b)) s (fun t => t = State.dredgeVisit (s.putTide { s.tide with
          bgLast := Tbl.set (fun _ => 0) s.tide.bgLast b.toNat 1
          bgGrants := Tbl.set (fun _ => 0) s.tide.bgGrants b.toNat (Tbl.get (fun _ => 0) s.tide.bgGrants b.toNat + 1) }) b)))

/-- R111: the integer instructions with two register sources, on a thread that runs. R112: the immediate integer instructions; EXT and INS bit
by bit. R338: which general registers an integer instruction taints: rd, while the gate is open and a source is tainted. That only the
engine's selected thread issues is log entry 13. It says that a next state is answered, and which: add, sub, and, or, xor, sll, srl, sra,
slt, sltu, min, max, minu, maxu, mul, mulhu, mulh, addi, andi, ori, xori, slti, sltiu, lui, slli, srli, srai, ext, ins. -/
def Obligations.IntegerInstructions : Prop :=
  (∀ (th : Nat) (rd rs1 rs2 : BitVec 5) (s : State), Runs s th →
    let a := (s.thread th).gr rs1
    let b := (s.thread th).gr rs2
    let gives := fun i v => Completes i s (GivesReg s th rd v)
    gives (.add th rd rs1 rs2) (BitVec.ofInt 32 (a.toInt + b.toInt))
    ∧ gives (.sub th rd rs1 rs2) (BitVec.ofInt 32 (a.toInt - b.toInt))
    ∧ gives (.and th rd rs1 rs2) (a &&& b) ∧ gives (.or th rd rs1 rs2) (a ||| b) ∧ gives (.xor th rd rs1 rs2) (a ^^^ b)
    ∧ gives (.sll th rd rs1 rs2) (BitVec.ofNat 32 (a.toNat * 2 ^ (b.toNat % 32)))
    ∧ gives (.srl th rd rs1 rs2) (BitVec.ofNat 32 (a.toNat / 2 ^ (b.toNat % 32)))
    ∧ gives (.sra th rd rs1 rs2) (BitVec.ofInt 32 (a.toInt / 2 ^ (b.toNat % 32)))
    ∧ gives (.slt th rd rs1 rs2) (if a.toInt < b.toInt then 1 else 0)
    ∧ gives (.sltu th rd rs1 rs2) (if a.toNat < b.toNat then 1 else 0)
    ∧ gives (.min th rd rs1 rs2) (BitVec.ofInt 32 (min a.toInt b.toInt))
    ∧ gives (.max th rd rs1 rs2) (BitVec.ofInt 32 (max a.toInt b.toInt))
    ∧ gives (.minu th rd rs1 rs2) (BitVec.ofNat 32 (min a.toNat b.toNat))
    ∧ gives (.maxu th rd rs1 rs2) (BitVec.ofNat 32 (max a.toNat b.toNat))
    ∧ gives (.mul th rd rs1 rs2) (BitVec.ofInt 32 (a.toInt * b.toInt))
    ∧ gives (.mulhu th rd rs1 rs2) (BitVec.ofNat 32 (a.toNat * b.toNat / 2 ^ 32))
    ∧ gives (.mulh th rd rs1 rs2) (BitVec.ofInt 32 (a.toInt * b.toInt / 2 ^ 32)))
  ∧ (∀ (th : Nat) (rd rs1 pos len1 : BitVec 5) (imm : BitVec 16) (s : State), Runs s th →
    let a := (s.thread th).gr rs1
    let old := (s.thread th).gr rd
    let gives := fun i v => Completes i s (GivesReg s th rd v)
    gives (.addi th rd rs1 imm) (BitVec.ofInt 32 (a.toInt + imm.toInt))
    ∧ gives (.andi th rd rs1 imm) (BitVec.ofNat 32 (a.toNat &&& imm.toNat))
    ∧ gives (.ori th rd rs1 imm) (BitVec.ofNat 32 (a.toNat ||| imm.toNat))
    ∧ gives (.xori th rd rs1 imm) (BitVec.ofNat 32 (a.toNat ^^^ imm.toNat))
    ∧ gives (.slti th rd rs1 imm) (if a.toInt < imm.toInt then 1 else 0)
    ∧ gives (.sltiu th rd rs1 imm) (if a.toNat < (imm.signExtend 32).toNat then 1 else 0)
    ∧ gives (.lui th rd imm) (BitVec.ofNat 32 (imm.toNat * 65536))
    ∧ gives (.slli th rd rs1 pos) (BitVec.ofNat 32 (a.toNat * 2 ^ pos.toNat))
    ∧ gives (.srli th rd rs1 pos) (BitVec.ofNat 32 (a.toNat / 2 ^ pos.toNat))
    ∧ gives (.srai th rd rs1 pos) (BitVec.ofInt 32 (a.toInt / 2 ^ pos.toNat))
    ∧ (∃ v : Word, gives (.ext th rd rs1 pos len1) v ∧ ∀ k < 32, v.getLsbD k
        = (decide (k ≤ len1.toNat) && a.getLsbD (pos.toNat + k)))
    ∧ (∃ v : Word, gives (.ins th rd rs1 pos len1) v ∧ ∀ k < 32, v.getLsbD k
        = if pos.toNat ≤ k ∧ k ≤ pos.toNat + len1.toNat then a.getLsbD (k - pos.toNat) else old.getLsbD k))
  ∧ (∀ (th : Nat) (rd rs1 rs2 : BitVec 5) (imm : BitVec 16) (s : State), Runs s th →
    let t := s.thread th
    let taints := fun i (v : Bool) => Completes i s (fun u => ∀ n, (u.thread th).tainted n
      = if n = 0 then false else if n = rd then v else t.tainted n)
    let open1 := t.gated && !t.failed
    taints (.add th rd rs1 rs2) (open1 && (t.tainted rs1 || t.tainted rs2))
    ∧ taints (.addi th rd rs1 imm) (open1 && t.tainted rs1) ∧ taints (.lui th rd imm) false
    ∧ taints (.ins th rd rs1 0 0) (open1 && (t.tainted rd || t.tainted rs1)))

/-- R111: counts, byte order, sign extension, the Internet checksum's sum and the CRC update, each said by what it means. That only the
engine's selected thread issues is log entry 13. It says that a next state is answered, and which: clz, popc, rev8, sextb, sexth, add1c,
crcw. -/
def Obligations.CountsAndChecksums : Prop :=
  ∀ (th : Nat) (rd rs1 rs2 : BitVec 5) (s : State), Runs s th →
    let a := (s.thread th).gr rs1
    let b := (s.thread th).gr rs2
    let gives := fun i v => Completes i s (GivesReg s th rd v)
    (∃ n, gives (.clz th rd rs1) (BitVec.ofNat 32 n) ∧ n ≤ 32 ∧ a.toNat < 2 ^ (32 - n) ∧ (n < 32 → 2 ^ (31 - n) ≤ a.toNat))
    ∧ gives (.popc th rd rs1) (BitVec.ofNat 32 ((List.range 32).countP (fun k => a.getLsbD k)))
    ∧ (∃ v : Word, gives (.rev8 th rd rs1) v ∧ ∀ k < 4, v.toNat / 256 ^ k % 256 = a.toNat / 256 ^ (3 - k) % 256)
    ∧ gives (.sextb th rd rs1) (BitVec.ofInt 32 (a.setWidth 8).toInt)
    ∧ gives (.sexth th rd rs1) (BitVec.ofInt 32 (a.setWidth 16).toInt)
    ∧ (let sum := a.toNat / 65536 + a.toNat % 65536 + b.toNat / 65536 + b.toNat % 65536
       ∃ n, gives (.add1c th rd rs1 rs2) (BitVec.ofNat 32 n) ∧ n < 65536 ∧ n % 65535 = sum % 65535 ∧ (n = 0 ↔ sum = 0))
    ∧ (∃ v : Word, gives (.crcw th rd rs1 rs2) v ∧ v.toNat = crc32c a.toNat
        [BitVec.ofNat 8 (b.toNat / 2 ^ 24), BitVec.ofNat 8 (b.toNat / 2 ^ 16), BitVec.ofNat 8 (b.toNat / 2 ^ 8), BitVec.ofNat 8 b.toNat])

/-- R113, R114: a branch whose relation holds, and a jump, goes to its target inside the program store; another branch steps over. That only
the engine's selected thread issues is log entry 13. It says that a next state is answered, and which: beq, bne, blt, bge, bltu, bgeu,
jal, jalr. -/
def Obligations.BranchesAndJumps : Prop :=
  ∀ (th : Nat) (rd rs1 rs2 : BitVec 5) (off : BitVec 16) (off26 : BitVec 26) (s : State), Runs s th →
    let t := s.thread th
    let a := t.gr rs1
    let b := t.gr rs2
    let next := BitVec.ofNat 32 (t.pc.toNat + 4)
    let moves := fun i (taken : Bool) (target : Word) => target.toNat < 2 ^ 20 → Completes i s (fun u =>
      u = s.setThread th { t with pc := if taken then BitVec.ofNat 20 target.toNat else t.pc + 4, instr := none
                                  past := !taken && t.pc == 0xFFFFC })
    let links := fun i (r : BitVec 5) (target : Word) => target.toNat < 2 ^ 20 → Completes i s (fun u =>
      OnlyThread th s u ∧ (u.thread th).pc = BitVec.ofNat 20 target.toNat ∧ (u.thread th).past = false
        ∧ KeepsButRegs t (u.thread th) ∧ RegsBut t (u.thread th) r next)
    let target := BitVec.ofInt 32 (t.pc.toNat + off.toInt * 4)
    moves (.beq th rs1 rs2 off) (a == b) target ∧ moves (.bne th rs1 rs2 off) (a != b) target
    ∧ moves (.blt th rs1 rs2 off) (decide (a.toInt < b.toInt)) target
    ∧ moves (.bge th rs1 rs2 off) (decide (b.toInt ≤ a.toInt)) target
    ∧ moves (.bltu th rs1 rs2 off) (decide (a.toNat < b.toNat)) target
    ∧ moves (.bgeu th rs1 rs2 off) (decide (b.toNat ≤ a.toNat)) target
    ∧ links (.jal th off26) 31 (BitVec.ofInt 32 (t.pc.toNat + off26.toInt * 4))
    ∧ ((BitVec.ofInt 32 (a.toInt + off.toInt)).toNat % 4 = 0 →
        links (.jalr th rd rs1 off) rd (BitVec.ofInt 32 (a.toInt + off.toInt)))

/-- R100, R103, R115: loads from local and cluster memory, big-endian, on a thread whose gate is closed. R100, R103, R115: stores to local and
cluster memory: the bytes stored, and no other byte. R117, R118: the atomics on local and cluster memory: the old word to g[rd], the new
one to memory. Model's choices in it: the order of the access checks (log entry 8) and ECC granules (log entry 22). It says that a next
state is answered, and which: ldb, ldh, ldw, ldq, stb, sth, stw, stq, aadd, aand, aor, axor, aswp, acas, amaxu, aminu. -/
def Obligations.LocalAndClusterMemory : Prop :=
  (∀ (th : Nat) (sp : BitVec 2) (rt rs1 : BitVec 5) (bt : BitVec 3) (off : BitVec 14) (s : State), Runs s th → Unhindered s th →
    (sp = 0 ∨ (sp = 1 ∧ th < 32768)) →
    let a := (BitVec.ofInt 32 (((s.thread th).gr rs1).toInt + off.toInt)).toNat
    let number := fun n => beNat ((List.range n).map (fun k => s.nearByte th sp (a + k)))
    (a < nearSize sp → Completes (.ldb th sp rt rs1 off) s (GivesReg s th rt (BitVec.ofNat 32 (number 1))))
    ∧ (a < nearSize sp → a % 2 = 0 → Completes (.ldh th sp rt rs1 off) s (GivesReg s th rt (BitVec.ofNat 32 (number 2))))
    ∧ (a < nearSize sp → a % 4 = 0 → Completes (.ldw th sp rt rs1 off) s (GivesReg s th rt (BitVec.ofNat 32 (number 4))))
    ∧ (a < nearSize sp → a % 16 = 0 → Completes (.ldq th sp bt rs1 off) s (GivesBlock s th bt (BitVec.ofNat 128 (number 16)))))
  ∧ (∀ (th : Nat) (sp : BitVec 2) (rt rs1 : BitVec 5) (bt : BitVec 3) (off : BitVec 14) (s : State), Runs s th → Unhindered s th →
    (sp = 0 ∨ (sp = 1 ∧ th < 32768)) →
    let a := (BitVec.ofInt 32 (((s.thread th).gr rs1).toInt + off.toInt)).toNat
    let v := ((s.thread th).gr rt).toNat
    let w := ((s.thread th).br bt).toNat
    (a < nearSize sp → Completes (.stb th sp rt rs1 off) s (fun t => StoresNear s th sp a 1 v t ∧ t.thread th = (s.thread th).advance))
    ∧ (a < nearSize sp → a % 2 = 0 →
        Completes (.sth th sp rt rs1 off) s (fun t => StoresNear s th sp a 2 v t ∧ t.thread th = (s.thread th).advance))
    ∧ (a < nearSize sp → a % 4 = 0 →
        Completes (.stw th sp rt rs1 off) s (fun t => StoresNear s th sp a 4 v t ∧ t.thread th = (s.thread th).advance))
    ∧ (a < nearSize sp → a % 16 = 0 →
        Completes (.stq th sp bt rs1 off) s (fun t => StoresNear s th sp a 16 w t ∧ t.thread th = (s.thread th).advance)))
  ∧ (∀ (th : Nat) (sp : BitVec 2) (rd rs1 rs2 : BitVec 5) (s : State), Runs s th → Unhindered s th →
    (sp = 0 ∨ (sp = 1 ∧ th < 32768)) →
    let a := ((s.thread th).gr rs1).toNat
    let b := ((s.thread th).gr rs2).toNat
    let d := ((s.thread th).gr rd).toNat
    let old := beNat ((List.range 4).map (fun k => s.nearByte th sp (a + k)))
    let does := fun i new => Completes i s (fun t => StoresNear s th sp a 4 new t ∧ StepsOver (s.thread th) (t.thread th)
      ∧ KeepsButRegs (s.thread th) (t.thread th) ∧ RegsBut (s.thread th) (t.thread th) rd (BitVec.ofNat 32 old))
    a < nearSize sp → a % 4 = 0 →
      does (.aadd th sp rd rs1 rs2) ((old + b) % 2 ^ 32) ∧ does (.aand th sp rd rs1 rs2) (old &&& b)
      ∧ does (.aor th sp rd rs1 rs2) (old ||| b) ∧ does (.axor th sp rd rs1 rs2) (old ^^^ b)
      ∧ does (.aswp th sp rd rs1 rs2) b ∧ does (.acas th sp rd rs1 rs2) (if old = d then b else old)
      ∧ does (.amaxu th sp rd rs1 rs2) (max old b) ∧ does (.aminu th sp rd rs1 rs2) (min old b))

/-- R104, R115, R116, R117: accesses to the shared-state and device spaces. A load waits with its answer, a store is posted, an atomic on
shared-state memory waits with the old word, and the oldest posted store reaches HBM. R104, R106, R132, R137, R257: what ends a wait. The
oldest posted shared-state store takes effect in HBM, byte for byte; a unit's answer is delivered, and HNEW its handle or 0; an awaited
event makes the thread ready. Model's choices in it: the order of the access checks (log entry 8), answers computed at issue (log entry
16), posted stores (log entry 17). It says that a next state is answered, and which: longStallEnd, ldb, ldh, ldw, stw,
postedStoreComplete, aadd, hnew. -/
def Obligations.SharedAccessesAndWaits : Prop :=
  (∀ (th : Nat) (rt rs1 rs2 : BitVec 5) (off : BitVec 14) (s : State), Runs s th → s.plat.ecc = [] →
    let t := s.thread th
    let ea := (BitVec.ofInt 32 ((t.gr rs1).toInt + off.toInt)).toNat
    let sh := t.sseg.toNat * 2 ^ 32 + ea
    let dv := t.dseg.toNat * 2 ^ 32 + ea
    let number := fun a n => beNat ((List.range n).map (fun k => Tbl.get (fun _ => (0 : Byte)) s.hbm.mem (a - 0x1000000000 + k)))
    let waits := fun i (v : Word) => Completes i s (fun u => (u.thread th).run = .stalled .unit
      ∧ (∃ x, (u.thread th).look = some x ∧ x.rd = rt ∧ x.value = v) ∧ (u.thread th).pc = t.pc)
    let posts := fun i (p : Posted) => Completes i s (fun u => OnlyThread th s u
      ∧ u.thread th = { t.advance with posted := t.posted ++ [p] })
    (s.accessFault th .shr sh 1 false = none → s.poisonedIn (sh - 0x1000000000) 1 = false → t.posted = [] →
      waits (.ldb th 2 rt rs1 off) (BitVec.ofNat 32 (number sh 1)))
    ∧ (s.accessFault th .shr sh 2 false = none → s.poisonedIn (sh - 0x1000000000) 2 = false → t.posted = [] →
      waits (.ldh th 2 rt rs1 off) (BitVec.ofNat 32 (number sh 2)))
    ∧ (s.accessFault th .shr sh 4 false = none → s.poisonedIn (sh - 0x1000000000) 4 = false → t.posted = [] →
      waits (.ldw th 2 rt rs1 off) (BitVec.ofNat 32 (number sh 4)))
    ∧ (∀ w u, s.accessFault th .dev dv 4 false = none → t.posted = [] → s.busRead (.thread th) dv = (some w, u) →
      u.thread th = t → waits (.ldw th 3 rt rs1 off) w)
    ∧ (s.accessFault th .shr sh 4 true = none → t.posted.length < 8 →
      posts (.stw th 2 rt rs1 off) { device := false, addr := sh, bytes := beBytes 4 (t.gr rt).toNat, pc := t.pc })
    ∧ (s.accessFault th .dev dv 4 true = none → t.posted.length < 8 → s.storeRejected th .dev dv (beBytes 4 (t.gr rt).toNat) = none →
      posts (.stw th 3 rt rs1 off) { device := true, addr := dv, bytes := beBytes 4 (t.gr rt).toNat, pc := t.pc })
    ∧ (∀ u, s.storeRejected th .dev dv (beBytes 4 (t.gr rt).toNat) = some u → s.accessFault th .dev dv 4 true = none →
      t.posted.length < 8 →
      Completes (.stw th 3 rt rs1 off) s (fun v => v = u.fault th fcBus))
    ∧ (s.accessFault th .shr sh 4 true = none → 8 ≤ t.posted.length → Completes (.stw th 2 rt rs1 off) s (fun u =>
      (u.thread th).run = .stalled (.stores true) ∧ (u.thread th).pc = t.pc ∧ (u.thread th).posted = t.posted))
    ∧ (off = 0 → th < 32768 → s.accessFault th .shr sh 4 true = none → s.poisonedIn (sh - 0x1000000000) 4 = false → t.posted = [] →
      Completes (.aadd th 2 rt rs1 rs2) s (fun u => (u.thread th).run = .stalled .unit
        ∧ (∃ x, (u.thread th).look = some x ∧ x.rd = rt ∧ x.value = BitVec.ofNat 32 (number sh 4))
        ∧ beNat ((List.range 4).map (fun k => Tbl.get (fun _ => (0 : Byte)) u.hbm.mem (sh - 0x1000000000 + k)))
          = (number sh 4 + (t.gr rs2).toNat) % 2 ^ 32)))
  ∧ (∀ (th : Nat) (s : State),
    (∀ a l pc rest, (s.thread th).posted = { device := false, addr := a, bytes := l, pc := pc } :: rest →
      s.reachable (thChip th) = true → s.busFails th .shr a l.length true = false →
      Completes (.postedStoreComplete th) s (fun t => (t.thread th).posted = rest
        ∧ ∀ k, Tbl.get (fun _ => (0 : Byte)) t.hbm.mem k
          = if a - 0x1000000000 ≤ k ∧ k < a - 0x1000000000 + l.length then l.getD (k - (a - 0x1000000000)) 0
            else Tbl.get (fun _ => 0) s.hbm.mem k))
    ∧ (∀ x, (s.thread th).run = .stalled .unit → (s.thread th).look = some x → x.blk = none →
      Completes (.longStallEnd th) s (fun t => (t.thread th).run = .ready ∧ (t.thread th).look = none
        ∧ (t.thread th).pc = (s.thread th).pc + 4 ∧ RegsBut (s.thread th) (t.thread th) x.rd x.value
        ∧ ∀ y, y ≠ th → t.thread y = s.thread y))
    ∧ (∀ rd n tn, (s.thread th).run = .stalled (.hnew rd n tn) → s.reachable (thChip th) = true → s.reachable 1 = true →
      ((n + 255) / 256 + s.fld F.CFL_CELL_FLOOR.CELLS 0 ≤ s.cfl.books.free → Completes (.longStallEnd th) s (fun t =>
          (t.thread th).run = .ready ∧ (t.thread th).pc = (s.thread th).pc + 4
          ∧ t.cfl.books.free + (n + 255) / 256 = s.cfl.books.free
          ∧ (t.thread th).handles = (s.thread th).handles ++ [(t.thread th).handles.getLastD 0]
          ∧ RegsBut (s.thread th) (t.thread th) rd ((t.thread th).handles.getLastD 0)))
      ∧ (s.cfl.books.free < (n + 255) / 256 + s.fld F.CFL_CELL_FLOOR.CELLS 0 → Completes (.longStallEnd th) s (fun t =>
          (t.thread th).run = .ready ∧ (t.thread th).pc = (s.thread th).pc + 4 ∧ (t.thread th).handles = (s.thread th).handles
          ∧ RegsBut (s.thread th) (t.thread th) rd 0)))
    ∧ (∀ rd n tn, (s.thread th).run = .stalled (.hnew rd n tn) → s.reachable (thChip th) = true → s.reachable 1 = true →
      ((n + 255) / 256 + s.fld F.CFL_CELL_FLOOR.CELLS 0 ≤ s.cfl.books.free → Completes (.longStallEnd th) s (fun t =>
          (t.thread th).run = .ready ∧ (t.thread th).pc = (s.thread th).pc + 4
          ∧ t.cfl.books.free + (n + 255) / 256 = s.cfl.books.free
          ∧ ∃ h, (t.thread th).handles = (s.thread th).handles ++ [h] ∧ RegsBut (s.thread th) (t.thread th) rd h))
      ∧ (s.cfl.books.free < (n + 255) / 256 + s.fld F.CFL_CELL_FLOOR.CELLS 0 → Completes (.longStallEnd th) s (fun t =>
          (t.thread th).run = .ready ∧ (t.thread th).pc = (s.thread th).pc + 4 ∧ (t.thread th).handles = (s.thread th).handles
          ∧ RegsBut (s.thread th) (t.thread th) rd 0)))
    ∧ (∀ m, (s.thread th).run = .stalled (.event m) → (s.thread th).evt &&& m ≠ 0 →
      Completes (.longStallEnd th) s (fun t => t.thread th = { s.thread th with run := .ready }
        ∧ ∀ y, y ≠ th → t.thread y = s.thread y)))

/-- R119, R120: the block instructions, once no round unit has still to write a register of the thread. That only the engine's selected thread
issues is log entry 13. It says that a next state is answered, and which: bxor, band, bor, bmov, bzero, brev, binc, bmask, bput, bget,
xtsa, gmul. -/
def Obligations.BlockInstructions : Prop :=
  ∀ (th : Nat) (bd ba bb : BitVec 3) (lane : BitVec 2) (rd rs1 : BitVec 5) (s : State), Runs s th → (s.thread th).bBusy = 0 →
    let a := (s.thread th).br ba
    let b := (s.thread th).br bb
    let g := (s.thread th).gr rs1
    let word := fun (x : Block) (k : Nat) => x.toNat / 2 ^ (96 - 32 * k) % 2 ^ 32
    let little := fun (x : Block) => leNat (beBytes 16 x.toNat)
    let gives := fun i v => Completes i s (GivesBlock s th bd v)
    gives (.bxor th bd ba bb) (a ^^^ b) ∧ gives (.band th bd ba bb) (a &&& b) ∧ gives (.bor th bd ba bb) (a ||| b)
    ∧ gives (.bmov th bd ba) a ∧ gives (.bzero th bd) 0
    ∧ (∃ v : Block, gives (.brev th bd ba) v ∧ beBytes 16 v.toNat = (beBytes 16 a.toNat).reverse)
    ∧ gives (.binc th bd ba) (BitVec.ofNat 128 (a.toNat / 2 ^ 32 * 2 ^ 32 + (a.toNat + 1) % 2 ^ 32))
    ∧ (∃ v : Block, gives (.bmask th bd ba rs1) v ∧ ∀ k < 16, (beBytes 16 v.toNat).getD k 0
        = if k < g.toNat then (beBytes 16 a.toNat).getD k 0 else 0)
    ∧ (∃ v : Block, gives (.bput th bd ba lane rs1) v ∧ ∀ k < 4, word v k = if k = lane.toNat then g.toNat else word a k)
    ∧ Completes (.bget th rd ba lane) s (GivesReg s th rd (BitVec.ofNat 32 (word a lane.toNat)))
    ∧ (∃ v : Block, gives (.xtsa th bd ba) v
        ∧ little v = (little a * 2 % 2 ^ 128) ^^^ (if 2 ^ 127 ≤ little a then 0x87 else 0))
    ∧ gives (.gmul th bd ba bb) (gmul a b)

/-- R121 to R123, R325, R333: AESE and AESD hand the block to a free round unit with the key, the unit's result reaches b[bd], and a fetched
entry reaches the key cache and wakes the thread. R125, R342, R343: TAGCMP gives 0 for equal prefixes and 1 else; it releases an open gate
on a match and fails it on a mismatch, which clears the block registers and the tainted general registers. Model's choices in it: the
fault order of log entry 15 and the gate readings of log entry 19. It says that a next state is answered, and which: tagcmp, aese, aesd,
roundUnitDone, keyFetchDone. -/
def Obligations.CiphersAndTags : Prop :=
  (∀ (th : Nat) (bd ba : BitVec 3) (rs1 : BitVec 5) (s : State), th < 32768 →
    let t := s.thread th
    let inp := beBytes 16 (t.br ba).toNat
    let works := fun i (e : KeyEntry) (res : List Byte) => Completes i s (fun u =>
      Tbl.get (fun _ => none) u.eng.round (th / 8 * 2) = some { th := some th, bd := bd, res := BitVec.ofNat 128 (beNat res) }
      ∧ u.thread th = { t.advance with bBusy := (1 : BitVec 8) <<< bd.toNat, gated := t.gated || e.gate }
      ∧ ∀ x, x ≠ th → u.thread x = s.thread x)
    let key := fun (e : KeyEntry) => if e.long then e.key else e.key.take 16
    (∀ e, Runs s th → t.bBusy = 0 → Tbl.get (fun _ => none) s.eng.round (th / 8 * 2) = none →
      s.keyUse (thBoard th) (t.gr rs1) t.inst false = .hit e → works (.aese th bd ba rs1) e (aesEnc (key e) inp))
    ∧ (∀ e, Runs s th → t.bBusy = 0 → Tbl.get (fun _ => none) s.eng.round (th / 8 * 2) = none →
      s.keyUse (thBoard th) (t.gr rs1) t.inst true = .hit e → works (.aesd th bd ba rs1) e (aesDec (key e) inp))
    ∧ (∀ u res, Tbl.get (fun _ => none) s.eng.round (th / 8 * 2 + b2n u) = some { th := some th, bd := bd, res := res } →
      Completes (.roundUnitDone (th / 8) u) s (fun v =>
        Tbl.get (fun _ => none) v.eng.round (th / 8 * 2 + b2n u) = none ∧ (v.thread th).br bd = res
        ∧ (∀ n, n ≠ bd → (v.thread th).br n = t.br n) ∧ (v.thread th).bBusy = t.bBusy &&& ~~~((1 : BitVec 8) <<< bd.toNat)))
    ∧ (∀ (b : BitVec 3) (i : BitVec 20), s.keys.fetch = [(b.toNat, i.toNat)] → s.hbmBad (keyOff i.toNat) 64 = false → s.keyChecks i.toNat = true →
      Completes (.keyFetchDone b i true) s (fun v => v.keys.fetch = []
        ∧ (∃ rest, v.keySet b.toNat (i.toNat % 1024) = { index := i.toNat, entry := s.keyFetched i.toNat, used := true } :: rest)
        ∧ (t.run = .stalled (.key i) → thBoard th = b.toNat → (v.thread th).run = .ready))))
  ∧ (∀ (th : Nat) (rd rs1 : BitVec 5) (ba bb : BitVec 3) (s : State), Runs s th → (s.thread th).bBusy = 0 →
    let t := s.thread th
    let n := (t.gr rs1).toNat
    let eq := (beBytes 16 (t.br ba).toNat).take n == (beBytes 16 (t.br bb).toNat).take n
    4 ≤ n → n ≤ 16 →
      (t.gated = false → Completes (.tagcmp th rd ba bb rs1) s (GivesReg s th rd (if eq then 0 else 1)))
      ∧ (t.gated = true → t.failed = false → eq = true → Completes (.tagcmp th rd ba bb rs1) s (fun u =>
          (u.thread th).gated = false ∧ (u.thread th).failed = false ∧ (u.thread th).taint = 0
          ∧ RegsBut t (u.thread th) rd 0 ∧ (u.thread th).pc = t.pc + 4))
      ∧ (t.gated = true → t.failed = false → eq = false → Completes (.tagcmp th rd ba bb rs1) s (fun u =>
          (u.thread th).gated = true ∧ (u.thread th).failed = true ∧ (∀ b, (u.thread th).br b = 0)
          ∧ (∀ r, r ≠ 0 → r ≠ rd → (u.thread th).gr r = if t.tainted r then 0 else t.gr r)
          ∧ (rd ≠ 0 → (u.thread th).gr rd = 1) ∧ (u.thread th).pc = t.pc + 4)))

/-- R127, R128: the payload instructions and the two events that feed and drain their queues. Model's choices in it: the fault order of log
entry 15 and the payload readings of log entry 18. It says that a next state is answered, and which: pfetch, payloadBlockArrive, pldb,
pstb, payloadWriteDone, pwait. -/
def Obligations.PayloadStreaming : Prop :=
  ∀ (th : Nat) (bd ba : BitVec 3) (rd rs1 : BitVec 5) (h : Word) (f : FrameRec) (s : State),
    let t := s.thread th
    let off := (t.gr rd).toNat % 65536
    (Runs s th → th < 32768 → t.wfifo = [] → t.gr rs1 = h → t.handles.contains h = true → s.handleFrame h = some f →
      (t.gr rd).toNat / 2 ^ 24 = 0 → (t.gr rd).toNat / 65536 ≠ 0 → off % 16 = 0 →
      off + 16 * ((t.gr rd).toNat / 65536) ≤ f.cells * 256 →
      Completes (.pfetch th rd rs1) s (fun u => OnlyThread th s u ∧ u.thread th = { t.advance with
        fifo := [], stream := some { handle := h, off := off, left := (t.gr rd).toNat / 65536 } }))
    ∧ (∀ x, t.stream = some x → x.left ≠ 0 → t.fifo = [] → s.reachable (thChip th) = true → s.plat.ecc = [] →
      s.handleFrame x.handle = some f → x.off + 16 ≤ f.bytes.length →
      Completes (.payloadBlockArrive th) s (fun u =>
        (u.thread th).fifo = [some (BitVec.ofNat 128 (beNat ((f.bytes.drop x.off).take 16)))]
        ∧ (u.thread th).stream = some { x with off := x.off + 16, left := x.left - 1 }
        ∧ (t.run = .stalled .payload → (u.thread th).run = .ready)))
    ∧ (∀ b rest, Runs s th → th < 32768 → t.bBusy = 0 → t.fifo = some b :: rest →
      Completes (.pldb th bd) s (fun u => OnlyThread th s u ∧ (u.thread th).fifo = rest ∧ (u.thread th).pc = t.pc + 4
        ∧ ∀ n, (u.thread th).br n = if n = bd then b else t.br n))
    ∧ (Runs s th → th < 32768 → t.bBusy = 0 → t.gr rs1 = h → t.handles.contains h = true → s.handleFrame h = some f →
      (t.gr rd).toNat / 65536 = 0 → off % 16 = 0 → off + 16 ≤ f.cells * 256 → t.wfifo.length < 16 →
      Completes (.pstb th ba rs1 rd) s (fun u => OnlyThread th s u ∧ u.thread th = { t.advance with
        wfifo := t.wfifo ++ [{ handle := h, off := off, block := t.br ba, gated := t.gated }] }))
    ∧ (∀ w rest, t.wfifo = w :: rest → w.gated = false → s.handleFrame w.handle = some f → f.bytes.length = f.cells * 256 →
      w.off + 16 ≤ f.cells * 256 →
      Completes (.payloadWriteDone th) s (fun u => (u.thread th).wfifo = rest
        ∧ ∃ g, u.handleFrame w.handle = some g ∧ g.bytes.length = f.bytes.length
          ∧ ∀ k, g.bytes.getD k 0 = if w.off ≤ k ∧ k < w.off + 16 then (beBytes 16 w.block.toNat).getD (k - w.off) 0
            else f.bytes.getD k 0))
    ∧ (Runs s th → th < 32768 → t.wfifo = [] → Completes (.pwait th) s (fun u => u = s.setThread th t.advance))

/-- R129, R130, R221: a lookup instruction leaves the thread waiting with its answer, an insert or delete waits in the queue of the
partition's modify pipe, and LOOKUP_RESULT delivers what it gives. R132 to R134, R163, R257, R301: the queue instructions: an enqueue or a
drop goes to Confluence and the handle leaves the thread; POLC and HNEW wait with their answers. R135, R430, R439: DMAS loads the active
set, then the shadow set, and changes nothing when both are occupied; DMAW and DMAP give the status word, and DMAW clears the codes it
reports. Model's choices in it: the fault order of log entry 15, answers at issue (log entry 16), handles (log entry 18), tables (log
entries 30 and 31). It says that a next state is answered, and which: ins, dlk, dins, ddel, flk, fins, fdel, tlk, lookupResult, enq, enqm,
drop, polc, hnew, dmas, dmaw, dmap, lookup. -/
def Obligations.LookupQueueDma : Prop :=
  (∀ (th : Nat) (rd rs1 : BitVec 5) (bd ba bb : BitVec 3) (s : State),
    let t := s.thread th
    let table := (t.gr rs1).toNat % 4096
    let key := fun (b : BitVec 3) => beBytes 16 (t.br b).toNat
    let waits := fun i (v : Word) => Completes i s (fun u => (u.thread th).run = .stalled .lookup
      ∧ ∃ a, (u.thread th).look = some a ∧ a.rd = rd ∧ a.value = v)
    let inst := t.inst.toNat % 65536
    let piped := fun i (r : (Nat ⊕ Nat) × State) (op : Nat → PipeOp) =>
      (∀ st, r.1 = .inl st → waits i (BitVec.ofNat 32 st))
      ∧ (∀ p, r.1 = .inr p → s.pipeHasRoom p = true → Completes i s (fun u => (u.thread th).run = .stalled (.pipe p s.look.pipeNext)
          ∧ (u.thread th).pc = t.pc ∧ u.look.pipeNext = s.look.pipeNext + 1
          ∧ ∀ x, u.pipeQ x = if x = p then s.pipeQ p ++ [op s.look.pipeNext] else s.pipeQ x))
      ∧ (∀ p, r.1 = .inr p → s.pipeHasRoom p = false → Completes i s (fun u => (u.thread th).run = .stalled (.pipeRoom p)
          ∧ (u.thread th).pc = t.pc ∧ u.look = s.look))
    (Runs s th → th < 32768 → t.bBusy = 0 → t.gated = false →
      ((t.gr rs1).toNat / 4096 = 0 →
        waits (.dlk th rd rs1 bd ba) (BitVec.ofNat 32 (s.diceLookup (thBoard th) table (key ba)).1)
        ∧ piped (.dins th rd rs1 ba bb) (s.pipeRoute (thBoard th) inst table (key ba) true)
          (fun n => .ins th n rd (t.tainted rs1) table inst (key ba) (key bb))
        ∧ piped (.ddel th rd rs1 ba) (s.pipeRoute (thBoard th) inst table (key ba) false)
          (fun n => .del th n rd (t.tainted rs1) table (key ba)))
      ∧ waits (.flk th rd bd ba bb) (s.flowLookup (thBoard th) (key ba ++ key bb)).1
      ∧ waits (.fins th rd bd ba bb) (s.flowInsert (thBoard th) (t.inst.toNat % 65536) (key ba ++ key bb) (t.br bd)).1
      ∧ waits (.fdel th rd ba bb) (s.flowDelete (thBoard th) (key ba ++ key bb)).1
      ∧ ((t.gr rs1).toNat / 8192 = 0 → waits (.tlk th rd rs1 ba)
          (s.deltaLookup (decide (4096 ≤ (t.gr rs1).toNat)) table
            (if 4096 ≤ (t.gr rs1).toNat then (t.br ba).toNat else (t.br ba).toNat / 2 ^ 96))))
    ∧ (∀ a, t.run = .stalled .lookup → t.look = some a → a.blk = none →
      Completes (.lookupResult th) s (fun u => (u.thread th).run = .ready ∧ (u.thread th).look = none
        ∧ (u.thread th).pc = t.pc + 4 ∧ RegsBut t (u.thread th) a.rd a.value ∧ ∀ x, x ≠ th → u.thread x = s.thread x))
    ∧ (∀ p n tn, p < 8 → t.run = .stalled (.pipe p n) → s.pipeQ p = [.ins th n rd tn table inst (key ba) (key bb)] →
      Completes (.lookupResult th) s (fun u => (u.thread th).run = .ready ∧ (u.thread th).pc = t.pc + 4 ∧ u.pipeQ p = []
        ∧ RegsBut t (u.thread th) rd (BitVec.ofNat 32 ((s.setPipeQ p []).pipeInsert p inst table (key ba) (key bb)).1)))
    ∧ (∀ p n tn, p < 8 → t.run = .stalled (.pipe p n) → s.pipeQ p = [.del th n rd tn table (key ba)] →
      Completes (.lookupResult th) s (fun u => (u.thread th).run = .ready ∧ (u.thread th).pc = t.pc + 4 ∧ u.pipeQ p = []
        ∧ RegsBut t (u.thread th) rd (BitVec.ofNat 32 ((s.setPipeQ p []).pipeDelete p table (key ba)).1))))
  ∧ (∀ (th : Nat) (rd rs1 rs2 : BitVec 5) (f : FrameRec) (s : State), Runs s th → th < 32768 →
    let t := s.thread th
    let h := t.gr rs1
    let fw := t.gr rd
    let held := t.wfifo = [] ∧ t.gated = false ∧ t.handles.contains h = true ∧ s.handleFrame h = some f ∧ f.board = none
      ∧ (f.input = .none ∨ (s.inputSt f.input).isLate f.seq = false)
    let sent := fun i (kind : CommitKind) (fword : Word) (who : Option Nat) => Completes i s (fun u =>
      (u.inputSt f.input).wait = (s.inputSt f.input).wait ++ [{ seq := f.seq, kind := kind, handle := h, fword := fword, th := who }]
      ∧ (u.thread th).handles = t.handles.erase h ∧ (u.thread th).pc = t.pc + 4
      ∧ (∀ x, x ≠ th → u.thread x = s.thread x)
      ∧ (who.isSome → (u.thread th).credHeld + 1 = t.credHeld ∧ (u.thread th).credFlight = t.credFlight + 1))
    (held → 0 < t.credHeld → fw.toNat % 65536 ≠ 0 → fw.toNat / 65536 + fw.toNat % 65536 ≤ f.cells * 256 →
      ((t.gr rs2).toNat / 2 ^ 20 % 4 ≠ 3 → (t.gr rs2).toNat / 2 ^ 29 = 0 → sent (.enq th rd rs1 rs2) (.enq (t.gr rs2)) fw (some th))
      ∧ ((t.gr rs2).toNat / 65536 = 0 →
        sent (.enqm th rd rs1 rs2) (.enqm (BitVec.ofNat 16 (t.gr rs2).toNat)) fw (some th)))
    ∧ (held → (t.gr rs2).toNat / 256 = 0 → sent (.drop th rs1 rs2) (.drop (BitVec.ofNat 8 (t.gr rs2).toNat)) 0 none)
    ∧ (h.toNat / 2 ^ 20 = 0 → Completes (.polc th rd rs1 rs2) s (fun u => (u.thread th).run = .stalled .unit
        ∧ ∃ a, (u.thread th).look = some a ∧ a.rd = rd ∧ a.value
          = BitVec.ofNat 32 (s.police (h.toNat % 2 ^ 18) (h.toNat / 2 ^ 18) (t.gr rs2).toNat).1))
    ∧ (1 ≤ (t.gr rs2).toNat → (t.gr rs2).toNat ≤ 65536 → t.handles.length < 4 →
      Completes (.hnew th rd rs2) s (fun u => (u.thread th).run = .stalled (.hnew rd (t.gr rs2).toNat (t.tainted rs2))
        ∧ (u.thread th).pc = t.pc ∧ u.cfl = s.cfl ∧ ∀ x, x ≠ th → u.thread x = s.thread x)))
  ∧ (∀ (th : Nat) (rd rs1 rs2 : BitVec 5) (s : State), Runs s th → th < 32768 → Unhindered s th → (s.thread th).posted = [] →
    let t := s.thread th
    let a := (t.gr rs2).toNat
    let ch := th / 512 * 16 + (t.gr rs1).toNat
    let d : DmaDesc := { words := (List.range 8).map (fun i => BitVec.ofNat 32
        (beNat ((List.range 4).map (fun k => s.nearByte th 1 (a + 4 * i + k)))))
                         th := th, inst := t.inst, gated := false, failed := false, started := false, down := false, moved := 0
                         held := none }
    let gives := fun i (v : Word) (c : DmaCh) => Completes i s (fun u => u.dmaCh ch = c
      ∧ (∀ x, x ≠ ch → u.dmaCh x = s.dmaCh x) ∧ StepsOver t (u.thread th) ∧ KeepsButRegs t (u.thread th)
      ∧ RegsBut t (u.thread th) rd v)
    (t.gr rs1).toNat < 16 →
      (a % 32 = 0 → a < 0x400000 → (s.dmaCh ch).act = none →
        gives (.dmas th rd rs1 rs2) 0 { s.dmaCh ch with act := some d })
      ∧ (a % 32 = 0 → a < 0x400000 → (s.dmaCh ch).act ≠ none → (s.dmaCh ch).shd = none →
        gives (.dmas th rd rs1 rs2) 1 { s.dmaCh ch with shd := some d })
      ∧ (a % 32 = 0 → a < 0x400000 → (s.dmaCh ch).act ≠ none → (s.dmaCh ch).shd ≠ none → gives (.dmas th rd rs1 rs2) 2 (s.dmaCh ch))
      ∧ ((s.dmaCh ch).act = none → (s.dmaCh ch).shd = none →
        gives (.dmaw th rd rs1) (s.dmaCh ch).status { s.dmaCh ch with code := 0, side := 0, more := false })
      ∧ gives (.dmap th rd rs1) (s.dmaCh ch).status (s.dmaCh ch))

/-- R137 to R139: thread control: start, stop, set and get of another thread of the engine by its thread 0; RECV, YIELD, EVWAIT, SIG and HALT.
R98, R140, R141, R334, R335: special registers, shared registers, FENCE with nothing outstanding, and RND. Model's choices in it: log
entries 15, 20, 63 and 64. It says that a next state is answered, and which: tstart, tstop, tset, tget, recv, yield, evwait, sig, halt,
mfsr, mtsr, mfsh, mtsh, shadd, fence, rnd. -/
def Obligations.ThreadsAndSystem : Prop :=
  (∀ (th x : Nat) (rd rs1 rs2 : BitVec 5) (s : State), Runs s th →
    let t := s.thread th
    let a := (t.gr rs1).toNat
    let m := t.gr rs1
    (th % 8 = 0 → 0 < a → a < 8 → x = th + a →
      ((s.thread x).run = .stopped → (s.thread x).faulted = false → Completes (.tstart th rs1 rs2) s (fun u =>
        u.thread th = t.advance ∧ (u.thread x).run = .ready
        ∧ (u.thread x).pc = BitVec.ofNat 20 ((t.gr rs2).toNat % 2 ^ 20 / 4 * 4) ∧ ∀ y, y ≠ th → y ≠ x → u.thread y = s.thread y))
      ∧ ((s.thread x).run = .stopped → (s.thread x).faulted = true → Completes (.tstart th rs1 rs2) s (fun u => u = s.setThread th t.advance))
      ∧ ((s.thread x).run ≠ .stopped → (s.thread x).gated = false → (s.thread x).handles = [] → (s.thread x).wfifo = [] →
        Completes (.tstop th rs1) s (fun u => u.thread th = t.advance ∧ u.thread x = { s.thread x with run := .stopped, look := none }
          ∧ ∀ y, y ≠ th → y ≠ x → u.thread y = s.thread y))
      ∧ (t.gated = false → (s.thread x).run = .stopped → Completes (.tset th rd rs1 rs2) s (fun u =>
        u.thread th = t.advance ∧ RegsBut (s.thread x) (u.thread x) rd (t.gr rs2) ∧ (u.thread x).run = .stopped
        ∧ ∀ y, y ≠ th → y ≠ x → u.thread y = s.thread y))
      ∧ ((s.thread x).run = .stopped → Completes (.tget th rd rs1 rs2) s (GivesReg s th rd ((s.thread x).gr rs2))))
    ∧ (th < 32768 → a % 64 = 0 → a + 256 ≤ 0x8000 → t.handles.length < 4 → t.gated = false →
      Completes (.recv th rd rs1) s (fun u => (u.thread th).run = .stalled (.recv rd a) ∧ (u.thread th).pc = t.pc
        ∧ (u.thread th).gated = false ∧ (u.thread th).failed = false ∧ ∀ y, y ≠ th → u.thread y = s.thread y))
    ∧ ((s.thread (th / 8 * 8 + (th % 8 + 1) % 8)).run = .ready → Completes (.yield th) s (fun u =>
        u.thread th = t.advance ∧ Tbl.get (fun _ => 0) u.eng.cur (th / 8) = (th % 8 + 1) % 8
        ∧ ∀ y, y ≠ th → u.thread y = s.thread y))
    ∧ (t.evt &&& m ≠ 0 → Completes (.evwait th rd rs1) s (fun u => OnlyThread th s u
        ∧ RegsBut t (u.thread th) rd (t.evt &&& m) ∧ (u.thread th).evt = t.evt &&& ~~~m ∧ (u.thread th).pc = t.pc + 4))
    ∧ (t.evt &&& m = 0 → Completes (.evwait th rd rs1) s (fun u =>
        u.thread th = { t with run := .stalled (.event m), begun := true } ∧ ∀ y, y ≠ th → u.thread y = s.thread y))
    ∧ (th < 32768 → t.gated = false → a < 512 → (t.gr rs2).toNat < 16 → Completes (.sig th rs1 rs2) s (fun u =>
        (u.thread th).pc = t.pc + 4
        ∧ (u.thread (th / 512 * 512 + a)).evt = (s.thread (th / 512 * 512 + a)).evt ||| BitVec.ofNat 32 (2 ^ (t.gr rs2).toNat)
        ∧ ∀ y, y ≠ th → y ≠ th / 512 * 512 + a → u.thread y = s.thread y))
    ∧ (t.gated = false → t.handles = [] → t.wfifo = [] → Completes (.halt th) s (fun u =>
        u.thread th = { t with run := .stopped, look := none } ∧ ∀ y, y ≠ th → u.thread y = s.thread y)))
  ∧ (∀ (th : Nat) (rd rs1 : BitVec 5) (n : BitVec 3) (mask : BitVec 5) (s : State), Runs s th →
    let t := s.thread th
    let sh := fun (u : State) k => Tbl.get (fun _ => (0 : Word)) u.eng.sh k
    let k := th / 8 * 8 + n.toNat
    let buf := if 32768 ≤ th then 9 else th / 4096
    Completes (.mfsr th rd 1) s (GivesReg s th rd t.inst)
    ∧ Completes (.mfsr th rd 2) s (GivesReg s th rd (BitVec.ofNat 32 t.sseg.toNat))
    ∧ Completes (.mfsr th rd 9) s (GivesReg s th rd (BitVec.ofNat 32 (b2n t.gated + 2 * b2n t.failed)))
    ∧ Completes (.mfsr th rd 10) s (GivesReg s th rd t.evt)
    ∧ (th < 32768 → Completes (.mfsr th rd 0) s (GivesReg s th rd (BitVec.ofNat 32 ((8 + th / 4096) * 4096 + th % 4096))))
    ∧ Completes (.mfsr th rd 6) s (fun u => OnlyThread th s u
        ∧ RegsBut t (u.thread th) rd (BitVec.ofNat 32 (s.replica (thChip th) % 1000000000))
        ∧ (u.thread th).ntslo = BitVec.ofNat 32 (s.replica (thChip th) / 1000000000) ∧ (u.thread th).pc = t.pc + 4)
    ∧ Completes (.mfsr th rd 4) s (fun u => OnlyThread th s u ∧ RegsBut t (u.thread th) rd (BitVec.ofNat 32 (s.eng.clk / 20))
        ∧ (u.thread th).cychi = BitVec.ofNat 32 (s.eng.clk / 20 / 2 ^ 32) ∧ (u.thread th).pc = t.pc + 4)
    ∧ Completes (.mtsr th rs1 1) s (fun u => u = s.setThread th { t.advance with inst := t.gr rs1 })
    ∧ Completes (.mtsr th rs1 2) s (fun u => u = s.setThread th { t.advance with sseg := BitVec.ofNat 16 (t.gr rs1).toNat })
    ∧ Completes (.mtsr th rs1 3) s (fun u => u = s.setThread th { t.advance with dseg := BitVec.ofNat 16 (t.gr rs1).toNat })
    ∧ Completes (.mfsh th rd n) s (GivesReg s th rd (sh s k))
    ∧ (t.gated = false → Completes (.mtsh th rs1 n) s (fun u => u.thread th = t.advance
        ∧ (∀ j, sh u j = if j = k then t.gr rs1 else sh s j) ∧ ∀ y, y ≠ th → u.thread y = s.thread y))
    ∧ (t.gated = false → Completes (.shadd th rd rs1 n) s (fun u => RegsBut t (u.thread th) rd (sh s k)
        ∧ (∀ j, sh u j = if j = k then sh s k + t.gr rs1 else sh s j) ∧ (u.thread th).pc = t.pc + 4
        ∧ ∀ y, y ≠ th → u.thread y = s.thread y))
    ∧ (t.posted = [] → t.wfifo = [] → Completes (.fence th mask) s (fun u => u = s.setThread th t.advance))
    ∧ (t.posted ≠ [] → (mask = 0x1F → Completes (.fence th mask) s (fun u =>
        u.thread th = { t with run := .stalled (.stores false), begun := true } ∧ ∀ y, y ≠ th → u.thread y = s.thread y)))
    ∧ (s.fld F.HDW_DIE_STATUS.STATE 0 = 1 → 32 ≤ s.rndBits buf → Completes (.rnd th rd) s (fun u =>
        RegsBut t (u.thread th) rd (Config.dieWord s.free) ∧ u.free = s.free + 1 ∧ u.rndBits buf + 32 = s.rndBits buf
        ∧ (∀ j, j ≠ buf → u.rndBits j = s.rndBits j) ∧ (u.thread th).pc = t.pc + 4 ∧ ∀ y, y ≠ th → u.thread y = s.thread y))
    ∧ (s.fld F.HDW_DIE_STATUS.STATE 0 = 0 ∨ s.fld F.HDW_DIE_STATUS.STATE 0 = 1 ∧ s.rndBits buf < 32 → Completes (.rnd th rd) s (fun u =>
        (u.thread th).run = .stalled .die ∧ (u.thread th).pc = t.pc ∧ u.keys = s.keys ∧ ∀ y, y ≠ th → u.thread y = s.thread y)))

/-- R142, R143, R157, R158: a fault is precise. TRAP, a misaligned jump, a branch out of the program store and an access beyond local memory
stop the thread at the instruction, mark it faulted and enter the cluster's fault queue; no register is written. Model's choices in it:
the fault order of log entry 15 and management threads (log entry 12). It says that a next state is answered, and which: beq, jalr, ldw,
stw, trap. -/
def Obligations.FaultsArePrecise : Prop :=
  ∀ (th : Nat) (rd rs1 rs2 : BitVec 5) (off : BitVec 16) (o14 : BitVec 14) (s : State), Runs s th → th < 32768 → th % 512 ≠ 0 →
    let t := s.thread th
    let q := fun (u : State) => Tbl.get (fun _ => []) u.eng.faults (th / 512)
    let faults := fun i (cause trap : Nat) => Completes i s (fun u =>
      u.thread th = { t with run := .stopped, faulted := true, look := none }
      ∧ q u = q s ++ [{ th := th, cause := BitVec.ofNat 8 cause, trap := BitVec.ofNat 8 trap, pc := t.pc }]
      ∧ bit (u.thread (th / 512 * 512)).evt.toNat 16 = true)
    t.gated = false → t.handles = [] → t.wfifo = [] → (q s).length < 16 →
      faults (.trap th rs1) 0x0A ((t.gr rs1).toNat % 256)
      ∧ ((BitVec.ofInt 32 ((t.gr rs1).toInt + off.toInt)).toNat % 4 ≠ 0 → faults (.jalr th rd rs1 off) 0x03 0)
      ∧ (t.gr rs1 = t.gr rs2 → 2 ^ 20 ≤ (BitVec.ofInt 32 (t.pc.toNat + off.toInt * 4)).toNat → faults (.beq th rs1 rs2 off) 0x02 0)
      ∧ (0x8000 ≤ (BitVec.ofInt 32 ((t.gr rs1).toInt + o14.toInt)).toNat →
        (BitVec.ofInt 32 ((t.gr rs1).toInt + o14.toInt)).toNat % 4 = 0 →
        faults (.ldw th 0 rd rs1 o14) 0x04 0 ∧ faults (.stw th 0 rd rs1 o14) 0x04 0)

/-- R123 to R126, R337, R340, R343, R344: the tag gate. An open gate forbids stores but into the thread's own buffers, a timeout fails it, and
the buffers of a failed gate become zero. Model's choices in it: the gate readings of log entry 19. It says that a next state is answered,
and which: stw, gatedBufferZero, gateTimeout. -/
def Obligations.TagGate : Prop :=
  ∀ (th : Nat) (rt rs1 : BitVec 5) (off : BitVec 14) (s : State),
    let t := s.thread th
    (Runs s th → t.gated = true → t.failed = false → th < 32768 → t.wfifo = [] → t.handles = [] →
      (BitVec.ofInt 32 ((t.gr rs1).toInt + off.toInt)).toNat % 4 = 0 →
      (BitVec.ofInt 32 ((t.gr rs1).toInt + off.toInt)).toNat < 0x8000 →
      Completes (.stw th 0 rt rs1 off) s (fun u => (u.thread th).faulted = true ∧ (u.thread th).run = .stopped
        ∧ (u.thread th).failed = true ∧ ∀ k, Tbl.get (fun _ => (0 : Byte)) u.eng.localMem k = Tbl.get (fun _ => 0) s.eng.localMem k))
    ∧ (t.gated = true → t.failed = false → s.fld F.BRD_GATE_TIMEOUT.COUNT (thBoard th) < 2 ^ 32 - 1 →
      Completes (.gateTimeout th) s (fun u => (u.thread th).failed = true ∧ (u.thread th).gated = true ∧ (∀ b, (u.thread th).br b = 0)
        ∧ (∀ n, n ≠ 0 → (u.thread th).gr n = if t.tainted n then 0 else t.gr n)
        ∧ u.fld F.BRD_GATE_TIMEOUT.COUNT (thBoard th) = s.fld F.BRD_GATE_TIMEOUT.COUNT (thBoard th) + 1))
    ∧ (∀ a, (t.gated = false ∨ t.failed = true) → t.gbufs = [a] → t.gfree = [] →
      Completes (.gatedBufferZero th) s (fun u => u.thread th = { t with gbufs := [] }
        ∧ ∀ k, Tbl.get (fun _ => (0 : Byte)) u.eng.clusterMem k
          = if th / 512 * 0x400000 + a ≤ k ∧ k < th / 512 * 0x400000 + a + 0x800 then 0
            else Tbl.get (fun _ => 0) s.eng.clusterMem k))

/-- R155, R159, R178: CLU_START starts the stopped, unfaulted thread 0 of an engine or of all; CLU_THREAD_CMD resets, starts and stops one
thread. R22, R152, R157, R165, R178, R199: the other registers of a cluster: its program store, its fault queue, its configuration, and
the commands that wait while microcode is loaded. R164, R340: cluster buffers: an allocation from the pool, an empty pool, a free, a free
of an address that is not allocated, and a free of a gated buffer, which waits for the gate. Model's choices in it: log entries 14, 15 and
24; an event whose condition fails changes nothing (log entry 2). It says that a next state is answered, and which: cluStartWrite,
threadCmdReset, threadCmdResetStart, threadCmdStop, cluFaultPop, cluBufAlloc, cluBufFree, cluConfigWrite, creditCtlApply,
programStoreWrite. -/
def Obligations.Clusters : Prop :=
  (∀ (s : State) (cl e : BitVec 6) (t : BitVec 3) (v : BitVec 32), s.reachable (8 + cl.toNat / 8) = true →
    s.fld F.MCODE_STATUS.STATE cl.toNat = 0 → bit (s.fld F.BRD_STATUS.CLU_OK (cl.toNat / 8)) (cl.toNat % 8) = true →
    let th := cl.toNat * 512 + e.toNat * 8 + t.toNat
    let clean := fun x => (s.thread x).gated = false ∧ (s.thread x).handles = [] ∧ (s.thread x).wfifo = []
    let zeroed := fun (a : Thread) => (∀ n, a.gr n = 0) ∧ (∀ n, a.br n = 0) ∧ a.faulted = false ∧ a.posted = (s.thread th).posted
    let others := fun (u : State) => ∀ y, y ≠ th → u.thread y = s.thread y
    let book := fun (a b : Thread) => b = { a with credHeld := b.credHeld, bufHeld := b.bufHeld }
    let start := fun r => BitVec.ofNat 20 ((s.rd r cl.toNat).toNat % 2 ^ 20 / 4 * 4)
    (v.toNat % 128 = e.toNat → t = 0 → (s.thread th).run = .stopped → (s.thread th).faulted = false →
      Completes (.cluStartWrite cl v) s (fun u => (u.thread th).run = .ready ∧ (u.thread th).pc = start .CLU_ENTRY
        ∧ zeroed (u.thread th) ∧ (∀ y, y ≠ th → book (s.thread y) (u.thread y)) ∧ u.reply = .ok))
    ∧ (v.toNat % 128 = 64 → t = 0 → (s.thread th).run = .stopped → (s.thread th).faulted = false →
      Completes (.cluStartWrite cl v) s (fun u => (u.thread th).run = .ready ∧ (u.thread th).pc = start .CLU_ENTRY))
    ∧ (t = 0 → (s.thread th).faulted = true → Completes (.cluStartWrite cl v) s (fun u => book (s.thread th) (u.thread th)))
    ∧ (clean th → Completes (.threadCmdReset cl e t) s (fun u => (u.thread th).run = .stopped ∧ (u.thread th).pc = 0
        ∧ zeroed (u.thread th) ∧ ((∀ x ∈ s.bufList cl.toNat, x.2 ≠ some th) → others u)))
    ∧ (clean th → Completes (.threadCmdResetStart cl e t) s (fun u => (u.thread th).run = .ready
        ∧ (u.thread th).pc = start .CLU_THREAD_PC ∧ zeroed (u.thread th)))
    ∧ (clean th → (s.thread th).run ≠ .stopped → Completes (.threadCmdStop cl e t) s (fun u =>
        u.thread th = { s.thread th with run := .stopped, look := none } ∧ others u))
    ∧ ((s.thread th).run = .stopped → Completes (.threadCmdStop cl e t) s (fun u => u = s.putReply .ok)))
  ∧ (∀ (s : State) (cl e : BitVec 6) (t : BitVec 3) (ix : BitVec 18) (v : BitVec 32),
    let c := cl.toNat
    let word := fun (u : State) k => Tbl.get (fun _ => (0 : Word)) u.eng.pstore k
    let queue := fun (u : State) k => Tbl.get (fun _ => []) u.eng.faults k
    (s.reachable (8 + c / 8) = true → Completes (.programStoreWrite cl ix v) s (fun u =>
      (∀ k, word u k = if k = c * 262144 + ix.toNat then v else word s k)
      ∧ u = { s with plat := { s.plat with ecc := u.plat.ecc }, eng := { s.eng with pstore := u.eng.pstore }, reply := .ok }))
    ∧ (s.reachable (8 + c / 8) = false → Completes (.cluFaultPop cl v) s (fun u => u = s.putReply .busError)
        ∧ Completes (.cluStartWrite cl v) s (fun u => u = s.putReply .busError)
        ∧ Completes (.threadCmdReset cl e t) s (fun u => u = s.putReply .busError)
        ∧ Completes (.cluConfigWrite cl .entry v) s (fun u => u = s.putReply .busError))
    ∧ (s.reachable (8 + c / 8) = true →
      (v.toNat % 2 = 1 → Completes (.cluFaultPop cl v) s (fun u => (∀ k, queue u k = if k = c then (queue s c).tail else queue s k)
        ∧ u = { s with eng := { s.eng with faults := u.eng.faults }, reply := .ok }))
      ∧ Completes (.cluConfigWrite cl .entry v) s (fun u => (u.rd .CLU_ENTRY c).toNat % 2 ^ 20 = v.toNat % 2 ^ 20 / 4 * 4
          ∧ OnlyRegs (s.putReply .ok) u [(.CLU_ENTRY, c)])
      ∧ (s.clusterStopped c = true →
        (1 ≤ v.toNat % 16 → v.toNat % 16 ≤ 8 → 64 * (v.toNat % 16) * s.fld F.CLU_CREDIT_CTL.SHARE c ≤ 1024 →
          64 * (v.toNat % 16) * s.fld F.CLU_BUF_CTL.SHARE c ≤ s.fld F.CLU_BUF_CTL.COUNT c →
          Completes (.cluConfigWrite cl .ctl v) s (fun u => u.fld F.CLU_CTL.SLOTS c = v.toNat % 16
            ∧ RegsKept s u [(.CLU_CTL, c), (.CLU_CREDIT_STAT, c), (.CLU_BUF_STAT, c)]))
        ∧ (64 * s.fld F.CLU_CTL.SLOTS c * (v.toNat % 32) ≤ 1024 → s.fld F.CLU_CREDIT_STAT.INFLIGHT c = 0 →
          Completes (.cluConfigWrite cl .credit v) s (fun u => u.fld F.CLU_CREDIT_CTL.SHARE c = v.toNat % 32
            ∧ u.fld F.CLU_CREDIT_CTL.POOL_EN c = v.toNat / 32 % 2 ∧ u.fld F.CLU_CREDIT_CTL.CAP c = v.toNat / 2 ^ 16 % 2 ^ 11))
        ∧ (64 * s.fld F.CLU_CTL.SLOTS c * (v.toNat / 2 ^ 11 % 32) ≤ v.toNat % 2 ^ 11 → v.toNat % 2 ^ 11 ≤ 1024 →
          Completes (.cluConfigWrite cl .buf v) s (fun u => u.fld F.CLU_BUF_CTL.COUNT c = v.toNat % 2 ^ 11
            ∧ u.fld F.CLU_BUF_CTL.SHARE c = v.toNat / 2 ^ 11 % 32 ∧ u.fld F.CLU_BUF_CTL.CAP c = v.toNat / 2 ^ 17 % 2 ^ 11))
        ∧ (64 * s.fld F.CLU_CTL.SLOTS c * (v.toNat % 32) ≤ 1024 → 0 < s.fld F.CLU_CREDIT_STAT.INFLIGHT c →
          Completes (.cluConfigWrite cl .credit v) s (fun u =>
            Tbl.get (fun _ => none) u.eng.creditPend c = some v ∧ u.regs = s.regs))
        ∧ (1024 < 64 * s.fld F.CLU_CTL.SLOTS c * (v.toNat % 32) → Completes (.cluConfigWrite cl .credit v) s (fun u =>
            u = s.putReply .ok)))
      ∧ (s.clusterStopped c = false → Completes (.cluConfigWrite cl .ctl v) s (fun u => u = s.putReply .ok)
          ∧ Completes (.cluConfigWrite cl .buf v) s (fun u => u = s.putReply .ok))
      ∧ (s.fld F.MCODE_STATUS.STATE c = 1 ∨ s.fld F.MCODE_STATUS.STATE c = 2 → Completes (.threadCmdStop cl e t) s (fun u =>
          Tbl.get (fun _ => []) u.eng.cmdPend c = Tbl.get (fun _ => []) s.eng.cmdPend c ++ [(c * 512 + e.toNat * 8 + t.toNat, 3)]
          ∧ u.eng.thr = s.eng.thr)))
    ∧ (Tbl.get (fun _ => none) s.eng.creditPend c = some v → s.fld F.CLU_CREDIT_STAT.INFLIGHT c = 0 →
        64 * s.fld F.CLU_CTL.SLOTS c * (v.toNat % 32) ≤ 1024 → Completes (.creditCtlApply cl) s (fun u =>
          Tbl.get (fun _ => none) u.eng.creditPend c = none ∧ u.fld F.CLU_CREDIT_CTL.SHARE c = v.toNat % 32
          ∧ u.fld F.CLU_CREDIT_CTL.POOL_EN c = v.toNat / 32 % 2 ∧ u.fld F.CLU_CREDIT_CTL.CAP c = v.toNat / 2 ^ 16 % 2 ^ 11)))
  ∧ (∀ (s : State) (cl : BitVec 6) (v : BitVec 32),
    let c := cl.toNat
    let n := s.fld F.CLU_BUF_CTL.COUNT c
    let pool := fun (u : State) => u.fld F.CLU_BUF_STAT.POOL c
    let used := fun (u : State) => u.fld F.CLU_BUF_STAT.ALLOCATED c
    let free := fun k => ∀ e ∈ s.bufList c, e.1 ≠ 0x400000 - n * 0x800 + k * 0x800
    s.reachable (8 + c / 8) = true →
    (s.fld F.CLU_BUF_CTL.POOL_EN c = 1 → 0 < pool s → used s < 2047 → (∃ k < n, free k) →
      Completes (.cluBufAlloc cl none) s (fun u => ∃ k < n, free k
        ∧ u.reply = .data (BitVec.ofNat 32 (0x400000 - n * 0x800 + k * 0x800))
        ∧ u.bufList c = s.bufList c ++ [(0x400000 - n * 0x800 + k * 0x800, none)]
        ∧ pool u = pool s - 1 ∧ used u = used s + 1 ∧ RegsKept s u [(.CLU_BUF_STAT, c)] ∧ u.eng.thr = s.eng.thr))
    ∧ (pool s = 0 → Completes (.cluBufAlloc cl none) s (fun u => u = s.putReply (.data 0)))
    ∧ ((∀ e ∈ s.eng.thr, e.2.gbufs = []) →
      (s.bufList c = [(v.toNat, none)] → 0 < used s → pool s < 2047 → Completes (.cluBufFree cl v) s (fun u => u.bufList c = []
        ∧ pool u = pool s + 1 ∧ used u = used s - 1 ∧ RegsKept s u [(.CLU_BUF_STAT, c)] ∧ u.eng.thr = s.eng.thr))
      ∧ ((∀ e ∈ s.bufList c, e.1 ≠ v.toNat) → Completes (.cluBufFree cl v) s (fun u => OnlyRegs (s.putReply .ok) u [(.CLU_BUF_ERR, c)]
        ∧ (u.rd .CLU_BUF_ERR c).toNat = Nat.min (2 ^ 32 - 1) ((s.rd .CLU_BUF_ERR c).toNat + 1))))
    ∧ (∀ th, th / 512 = c → s.eng.thr = [(th, s.thread th)] → v.toNat ∈ (s.thread th).gbufs → (s.thread th).gfree = [] →
        Completes (.cluBufFree cl v) s (fun u => (u.thread th).gfree = [v.toNat] ∧ u.bufList c = s.bufList c ∧ u.regs = s.regs)))

/-- R167 to R173: requests to a home: the message is sent, the request waits, and a home without a transaction takes it up; UPG of a Board
that lost the line reads for ownership; writebacks, evictions and their acknowledgement. R145, R168, R170, R172, R174, R177: a home's
answers, what it asks of other Boards and their answers, a poisoned line, and the flush of a cache; a Board completes the access that
brought it a line before it answers for the line. A line in E or M stands in one cache. R174, R176, R177: a line in M found uncorrectable
is poisoned and its Board signals SSC_UE; a flush empties a Board's cache. Model's choices in it: one home per line and the readings of
log entry 25; an event whose condition fails changes nothing (log entry 2). It says that a next state is answered, and which: rds, rdo,
upg, wb, evc, dataS, dataE, grant, inv, fetch, ackInv, dataF, noneF, ackWb, homeQueueServe, linePoison, sscFlush, sscFlushDone. -/
def Obligations.Coherence : Prop :=
  (∀ (s : State) (b : BitVec 3) (line : BitVec 31) (m : BitVec 8),
    let n := line.toNat
    let one : BitVec 8 := 1 <<< b.toNat
    let other := m &&& ~~~one
    let idle := fun (u : State) => u.homeLine n = { txn := none, wait := [] }
    let mayAsk := fun (b : BitVec 3) => s.reachable (8 + b.toNat) = true ∧ s.homeOut (homeBank n) b.toNat < 128
    let asks := fun i kind (r : CohReq) fetch need => s.hbmMapped = true → n < 0x60000000 → s.homesUp (n * 64) 64 = true → mayAsk b →
      idle s → Completes i s (fun u => u = { s with hbm := u.hbm, out := s.out ++ [.coh kind b.toNat n] }
        ∧ u.homeLine n = { txn := some { board := b, req := r, fetch := fetch, send := need, await := need }, wait := [] }
        ∧ u.hbm = { s.hbm with home := u.hbm.home })
    let st := fun (u : State) (x : Nat) => u.lineSt x n
    (s.dirOf n = .uncached → asks (.rds one 0 0 line) 0 .rds false 0 ∧ asks (.rdo one 0 line) 1 .rdo false 0)
    ∧ (s.dirOf n = .shared m → asks (.rds one 0 0 line) 0 .rds false 0 ∧ asks (.rdo one 0 line) 1 .rdo false other
        ∧ (st s b.toNat = .s → asks (.upg one line) 2 .upg false other)
        ∧ (st s b.toNat ≠ .s → asks (.upg one line) 2 .rdo false other))
    ∧ (∀ o : BitVec 3, s.dirOf n = .owned o → o ≠ b → asks (.rds one 0 0 line) 0 .rds true (1 <<< o.toNat)
        ∧ asks (.rdo one 0 line) 1 .rdo true (1 <<< o.toNat))
    ∧ (∀ c : BitVec 3, c ≠ b → s.dirOf n = .uncached → s.hbmMapped = true → n < 0x60000000 → s.homesUp (n * 64) 64 = true → mayAsk b →
        mayAsk c → idle s → s.fld F.HBM_HOME_STATUS.PRIO (homeBank n) = b.toNat →
        Completes (.rds (one ||| 1 <<< c.toNat) 0 0 line) s (fun u =>
          u.homeLine n = { txn := some { board := b, req := .rds, fetch := false, send := 0, await := 0 }, wait := [(c, .rds)] }
          ∧ u.fld F.HBM_HOME_STATUS.PRIO (homeBank n) = (b.toNat + 1) % 8
          ∧ u.out = s.out ++ [.coh 0 b.toNat n, .coh 0 c.toNat n] ∧ RegsKept s u [(.HBM_HOME_STATUS, homeBank n), (.HBM_HOME_TIES, homeBank n)]))
    ∧ (s.homeOut (homeBank n) b.toNat = 128 → Completes (.rds one 0 0 line) s (fun u => u = s) ∧ Completes (.upg one line) s (fun u => u = s))
    ∧ (∀ r rest, s.homeLine n = { txn := none, wait := (b, r) :: rest } → Completes (.homeQueueServe line) s (fun u =>
        (u.homeLine n).wait = rest ∧ ∃ t, (u.homeLine n).txn = some t ∧ t.board = b))
    ∧ (st s b.toNat = .m → s.dirOf n = .owned b → Completes (.wb b line) s (fun u => st u b.toNat = .i ∧ u.dirOf n = .uncached
        ∧ u.hbm.acks = s.hbm.acks ++ [(b.toNat, n)] ∧ u.out = s.out ++ [.coh 3 b.toNat n] ∧ u.hbm.mem = s.hbm.mem ∧ u.regs = s.regs))
    ∧ (st s b.toNat = .s ∨ st s b.toNat = .e → Completes (.evc b line) s (fun u => st u b.toNat = .i
        ∧ u.out = s.out ++ [.coh 4 b.toNat n] ∧ u.hbm.acks = s.hbm.acks ∧ u.hbm.mem = s.hbm.mem ∧ u.regs = s.regs))
    ∧ (∀ rest, s.hbm.acks = (b.toNat, n) :: rest → Completes (.ackWb b line) s (fun u => u.hbm.acks = rest
        ∧ u.out = s.out ++ [.coh 13 b.toNat n] ∧ u.regs = s.regs)))
  ∧ (∀ (s : State) (b : BitVec 3) (line : BitVec 31) (t : HomeTxn) (w : List (BitVec 3 × CohReq)),
    let n := line.toNat
    let one : BitVec 8 := 1 <<< b.toNat
    let st := fun (u : State) (x : Nat) => u.lineSt x n
    let sent := fun (u : State) (k : Nat) => u.out = s.out ++ [.coh k b.toNat n] ∧ u.regs = s.regs ∧ u.hbm.mem = s.hbm.mem
    let now := fun (u : State) (x : Option HomeTxn) => u.homeLine n = { txn := x, wait := w }
    s.homeLine n = { txn := some t, wait := w } →
      (t.board = b → t.await = 0 → (s.boardLines b.toNat).length < 262144 →
        (t.req = .rds → Completes (.dataS b line) s (fun u => st u b.toNat = .s ∧ now u none ∧ sent u 5 ∧ u.dueOf b.toNat n = 1
          ∧ ∃ m, u.dirOf n = .shared m ∧ m.getLsbD b.toNat = true ∧ ∀ x, s.dirOf n = .shared x → m = x ||| one))
        ∧ (t.req = .rdo → Completes (.dataE b line) s (fun u => st u b.toNat = .e ∧ (∀ x < 8, x ≠ b.toNat → st u x = .i)
          ∧ u.dirOf n = .owned b ∧ now u none ∧ sent u 6 ∧ u.dueOf b.toNat n = 2))
        ∧ (t.req = .upg → Completes (.grant b line) s (fun u => st u b.toNat = .e ∧ (∀ x < 8, x ≠ b.toNat → st u x = .i)
          ∧ u.dirOf n = .owned b ∧ now u none ∧ sent u 7 ∧ u.dueOf b.toNat n = 2)))
      ∧ (t.send.getLsbD b.toNat = true →
        (t.fetch = false → Completes (.inv b line) s (fun u => now u (some { t with send := t.send &&& ~~~one }) ∧ sent u 8))
        ∧ (t.fetch = true → Completes (.fetch b line) s (fun u => now u (some { t with send := t.send &&& ~~~one }) ∧ sent u 9)))
      ∧ (t.await.getLsbD b.toNat = true → t.send.getLsbD b.toNat = false → s.dueOf b.toNat n ≠ 0 → t.fetch = false →
        Completes (.ackInv b line) s (fun u => u = s))
      ∧ (t.await.getLsbD b.toNat = true → t.send.getLsbD b.toNat = false → s.dueOf b.toNat n = 0 →
        (t.fetch = false → Completes (.ackInv b line) s (fun u => st u b.toNat = .i
          ∧ now u (some { t with await := t.await &&& ~~~one }) ∧ sent u 10))
        ∧ (t.fetch = true → t.req = .rds → st s b.toNat ≠ .i → Completes (.dataF b line) s (fun u => st u b.toNat = .s
          ∧ u.dirOf n = .shared one ∧ now u (some { t with await := t.await &&& ~~~one }) ∧ sent u 11))
        ∧ (t.fetch = true → t.req ≠ .rds → st s b.toNat ≠ .i → Completes (.dataF b line) s (fun u => st u b.toNat = .i
          ∧ u.dirOf n = .uncached ∧ now u (some { t with await := t.await &&& ~~~one }) ∧ sent u 11))
        ∧ (t.fetch = true → st s b.toNat = .i → Completes (.noneF b line) s (fun u => st u b.toNat = .i
          ∧ now u (some { t with await := t.await &&& ~~~one }) ∧ sent u 12))))
  ∧ (∀ (s : State) (b : BitVec 3) (line : BitVec 31),
    (s.lineSt b.toNat line.toNat = .m → Completes (.linePoison b line) s (fun u =>
      u.lineSt b.toNat line.toNat = .i ∧ u.isPoisoned line.toNat = true ∧ u.dirOf line.toNat = .uncached
      ∧ u.fld F.BRD_STATUS.SSC_UE b.toNat = 1 ∧ u.fld F.HBM_HOME_STATUS.POISON (homeBank line.toNat) = 1
      ∧ u.hbm.mem = s.hbm.mem))
    ∧ (s.reachable (8 + b.toNat) = true → Completes (.sscFlush b) s (fun u => u.fld F.BRD_SSC_CTL.FLUSH b.toNat = 1
        ∧ OnlyRegs (s.putReply .ok) u [(.BRD_SSC_CTL, b.toNat)]))
    ∧ (s.fld F.BRD_SSC_CTL.FLUSH b.toNat = 1 → Completes (.sscFlushDone b) s (fun u => u.fld F.BRD_SSC_CTL.FLUSH b.toNat = 0
        ∧ (∀ n, u.lineSt b.toNat n = .i) ∧ (∀ (x : Nat) n, x < 8 → x ≠ b.toNat → u.lineSt x n = s.lineSt x n)
        ∧ u.hbm.mem = s.hbm.mem)))

/-- R153, R182, R183, R185 to R191: CYCLE executes one microword of the thread the engine issues from: a new instruction is fetched and
dispatched by its OP and F; GOTO, CALL, RET and WAIT move the microaddress; a match entry redirects it; the instruction takes effect at
DISPATCH or where the microword requests a unit or a memory operation; an illegal word faults; a management engine runs the whole
instruction (the model's choice: log entry 11). Model's choices in it: log entries 11 and 21. It says that a next state is answered, and
which: cycle. -/
def Obligations.MicroSequencer : Prop :=
  ∀ (s : State) (e : Nat) (mw : BitVec 24) (n : BitVec 128) (w : Word) (rd rs1 rs2 : BitVec 5),
    let th := e * 8 + Tbl.get (fun _ => 0) s.eng.cur e % 8
    let t := s.thread th
    let m := s.mcStore (th / 512)
    let seq := n.toNat / 2 ^ 124
    let next := mw.toNat % 2 ^ 13
    let quiet := n.toNat / 2 ^ 50 % 2 ^ 8 = 0 ∧ n.toNat / 2 ^ 76 % 2 ^ 5 = 0
    let word := fun (u : State) a => u = State.draw (s.setThread th a)
    let add := w.toNat = rd.toNat * 2 ^ 21 + rs1.toNat * 2 ^ 16 + rs2.toNat * 2 ^ 11
    let added := fun (u : State) => RegsBut t (u.thread th) rd (t.gr rs1 + t.gr rs2) ∧ StepsOver t (u.thread th)
      ∧ (u.thread th).mstack = [] ∧ (u.thread th).instr = none ∧ u.regs = s.regs ∧ ∀ y, y ≠ th → u.thread y = s.thread y
    Runs s th →
      (th < 32768 → t.instr = some (t.pc, w) → m.mtch = [] → Tbl.get (fun _ => 0) m.micro t.upc.toNat = mw →
        Tbl.get (fun _ => 0) m.nano (mw.toNat / 2 ^ 14) = n → n.toNat / 2 ^ 66 % 2 = 1 → n.toNat / 2 ^ 119 % 32 = 1 →
        mw.toNat / 2 ^ 13 % 2 = 0 → Completes (.cycle e) s (fun u => (u.thread th).faulted = true ∧ (u.thread th).run = .stopped
          ∧ (u.thread th).pc = t.pc))
      ∧ (th < 32768 → t.instr = some (t.pc, w) → n.toNat / 2 ^ 66 % 2 = 0 →
        Tbl.get (fun _ => 0) m.nano (mw.toNat / 2 ^ 14) = n →
        (m.mtch = [] → Tbl.get (fun _ => 0) m.micro t.upc.toNat = mw →
          (seq = 0 → quiet → Completes (.cycle e) s (fun u => word u { t with upc := BitVec.ofNat 13 next }))
          ∧ (seq = 1 → quiet → n.toNat / 2 ^ 101 % 8 = 0 → Completes (.cycle e) s (fun u => word u { t with upc := BitVec.ofNat 13 next }))
          ∧ (seq = 1 → quiet → n.toNat / 2 ^ 101 % 8 = 1 → n.toNat / 2 ^ 119 % 32 = 1 → mw.toNat / 2 ^ 13 % 2 = 0 →
              Completes (.cycle e) s (fun u => word u { t with upc := BitVec.ofNat 13 (next ||| 1) }))
          ∧ (seq = 2 → quiet → Completes (.cycle e) s (fun u => word u
              { t with upc := BitVec.ofNat 13 next, mstack := ((t.upc + 1) :: t.mstack).take 4 }))
          ∧ (∀ a l, seq = 3 → quiet → t.mstack = a :: l → Completes (.cycle e) s (fun u => word u { t with upc := a, mstack := l }))
          ∧ (seq = 4 ∨ seq < 6 ∧ ¬quiet → add → Completes (.cycle e) s added)
          ∧ (seq = 5 → quiet → n.toNat / 2 ^ 119 % 32 = 1 → mw.toNat / 2 ^ 13 % 2 = 0 →
              Completes (.cycle e) s (fun u => word u { t with upc := BitVec.ofNat 13 next }))
          ∧ (seq = 5 → quiet → n.toNat / 2 ^ 119 % 32 = 0 → mw.toNat / 2 ^ 13 % 2 = 0 → n.toNat / 2 ^ 67 % 16 = 0 →
              Completes (.cycle e) s (fun u => word u t))
          ∧ (seq = 5 → quiet → n.toNat / 2 ^ 119 % 32 = 0 → mw.toNat / 2 ^ 13 % 2 = 0 → n.toNat / 2 ^ 67 % 16 ≠ 0 →
              Completes (.cycle e) s (fun u => (u.thread th).run = .stalled .micro
                ∧ (u.thread th).stallCls.toNat = n.toNat / 2 ^ 67 % 16 ∧ (u.thread th).pc = t.pc ∧ (u.thread th).upc = t.upc))
          ∧ (seq = 4 → runWord th w = none → Completes (.cycle e) s (fun u => (u.thread th).faulted = true
              ∧ (u.thread th).run = .stopped ∧ (u.thread th).pc = t.pc)))
        ∧ (∀ k x : Nat, k < 64 → t.upc.toNat < 0x1C00 → 0x1C00 ≤ x → x < 0x2000 →
            m.mtch = [(k, BitVec.ofNat 32 (2 ^ 31 + x * 2 ^ 13 + t.upc.toNat))] → Tbl.get (fun _ => 0) m.micro x = mw → seq = 0 → quiet →
            Completes (.cycle e) s (fun u => word u { t with upc := BitVec.ofNat 13 next })))
      ∧ (th < 32768 → t.instr = none → s.plat.ecc = [] → s.progWord (th / 512) (t.pc.toNat / 4) = w → add → m.mtch = [] →
          Tbl.get (fun _ => 0) m.micro 0 = mw → Tbl.get (fun _ => 0) m.nano (mw.toNat / 2 ^ 14) = n → n.toNat / 2 ^ 66 % 2 = 0 →
          seq = 4 → Completes (.cycle e) s added)
      ∧ (32768 ≤ th → t.instr = some (t.pc, w) → add → Completes (.cycle e) s added)

/-- R193, R195, R199, R206: verify, apply and discard of a staged microcode image. R195 to R197, R201, R206: a cluster takes the new microcode
at its reload, or ends in LOAD_ERR; the apply ends; a refresh corrects the words of a cluster that differ from the master copy. Model's
choices in it: log entry 23; an event whose condition fails changes nothing (log entry 2). It says that a next state is answered, and
which: reloadQuiesceLimit, microcodeRefresh, verify, verifyDone, apply, applyDone, discard. -/
def Obligations.Microcode : Prop :=
  (∀ (s : State) (m : MicroCode) (r : Nat),
    let st := fun (u : State) => u.fld F.HDW_MC_STATUS.STATE 0
    let res := fun (u : State) => u.fld F.HDW_MC_STATUS.RESULT 0
    let busy := fun i => st s = 1 ∨ st s = 3 → Completes i s (fun u => OnlyRegs (s.putReply .ok) u [(.HDW_MC_STATUS, 0)]
      ∧ u.fld F.HDW_MC_STATUS.BUSY_REJ 0 = 1 ∧ st u = st s)
    let only := fun (u : State) => u = { s with regs := u.regs, micro := u.micro, reply := u.reply } ∧ RegsKept s u [(.HDW_MC_STATUS, 0)]
    s.reachable 0 = true →
    busy .verify ∧ busy .apply ∧ busy .discard
    ∧ (st s ≠ 1 → st s ≠ 3 → Completes .verify s (fun u => st u = 1 ∧ only u ∧ u.micro = s.micro)
        ∧ Completes .discard s (fun u => st u = 0 ∧ u.staged_ = [] ∧ u.micro = { s.micro with image := none }
          ∧ u = { s with regs := u.regs, micro := u.micro, reply := .ok }
          ∧ ∀ q i, q ≠ .HDW_MC_WIN → q ≠ .HDW_MC_LEN → q ≠ .HDW_MC_STATUS → u.rd q i = s.rd q i))
    ∧ (st s = 1 → s.fld F.HDW_MC_LEN.BYTES 0 ≤ 16384 → imgVerdict s.micro.master s.staged_ = r →
        Completes .verifyDone s (fun u => res u = r ∧ only u ∧ st u = (if r = 0 then 2 else 0)
          ∧ u.micro = { s.micro with image := if r = 0 then some (imgApply s.staged_ s.micro.master) else none }))
    ∧ (st s = 1 → 16384 < s.fld F.HDW_MC_LEN.BYTES 0 → Completes .verifyDone s (fun u => st u = 0 ∧ res u = 2 ∧ only u
        ∧ u.micro = { s.micro with image := none }))
    ∧ (st s = 2 → s.micro.image = some m → (∀ b < 8, s.reachable (8 + b) = true) → Completes .apply s (fun u => st u = 3
        ∧ res u = 0 ∧ u.micro = { s.micro with master := m, old := some s.micro.master, image := none, tried := [] }
        ∧ u.rd64 .HDW_MC_FAIL .HDW_MC_FAIL_HI 0 = 0 ∧ u.fld F.HDW_MC_STATUS.TRIED 0 = 0
        ∧ ∀ c < 64, u.fld F.MCODE_STATUS.STATE c = if c % 8 = 0 then 1 else s.fld F.MCODE_STATUS.STATE c)))
  ∧ (∀ (s : State) (cl : BitVec 6) (k : BitVec 2) (b : BitVec 3) (f : Firing),
    let c := cl.toNat
    let fails := fun (u : State) => u.rd64 .HDW_MC_FAIL .HDW_MC_FAIL_HI 0
    let x := b.toNat * 8
    let unit : Unit_ := .microcode (BitVec.ofNat 6 x)
    let baseOf_ := fun (w : MicroStore) => (w.micro.filter (fun e => decide (e.1 < 0x1C00)), w.nano.filter (fun e => decide (e.1 < 0x380)))
    (s.fld F.MCODE_STATUS.STATE c = 1 → s.reachable (8 + c / 8) = true → s.cmdsOf c = [] → c ∉ s.micro.later →
      (k.toNat < 2 → Completes (.reloadQuiesceLimit cl k) s (fun u => u.fld F.MCODE_STATUS.STATE c = 0
        ∧ u.mcStore c = (if baseOf_ ((s.micro.old.getD s.micro.master).words) = baseOf_ s.micro.master.words
            then overlayOf (s.mcStore c) s.micro.master.words else s.micro.master.words)
        ∧ u.fld F.MCODE_VERSION_HI.PATCH c = s.micro.master.patch.toNat
        ∧ u.fld F.MCODE_VERSION.PATCH_ID c = s.micro.master.patchId.toNat ∧ u.micro.tried = s.micro.tried ++ [c]
        ∧ fails u = fails s))
      ∧ (2 ≤ k.toNat → Completes (.reloadQuiesceLimit cl k) s (fun u => u.fld F.MCODE_STATUS.STATE c = 3
        ∧ u.mcStore c = s.mcStore c ∧ u.micro.tried = s.micro.tried ++ [c] ∧ fails u = fails s ||| 2 ^ c)))
    ∧ (s.fld F.MCODE_STATUS.STATE c ≠ 1 → Completes (.reloadQuiesceLimit cl k) s (fun u => u = s))
    ∧ (s.fld F.HDW_MC_STATUS.STATE 0 = 3 → s.micro.tried.length = 64 → Completes .applyDone s (fun u =>
        u.fld F.HDW_MC_STATUS.STATE 0 = 4 ∧ u.fld F.HDW_MC_STATUS.RESULT 0 = (if fails s = 0 then 0 else 5)
        ∧ u.micro = { s.micro with old := none } ∧ RegsKept s u [(.HDW_MC_STATUS, 0)]))
    ∧ (f.arg.toNat % 256 = 1 → f.ford = false → s.isFenced (8 + b.toNat) = false → s.fld F.MCODE_STATUS.STATE x = 0 →
        s.micro.old = none → s.fireDue unit 4 f = true → s.unitWork unit 4 = { work := none, pend := none } →
        Completes (.microcodeRefresh b f) s (fun u => u.mcStore x = s.micro.master.words ∧ u.micro.master = s.micro.master
          ∧ (∀ w : BitVec 24, w ≠ 0 → s.micro.master.words = { micro := [(5, w)], nano := [], mtch := [] } →
            s.mcStore x = { micro := [], nano := [], mtch := [] } →
            (u.rd .MCODE_FIX x).toNat = Nat.min (2 ^ 32 - 1) ((s.rd .MCODE_FIX x).toNat + 1))
          ∧ u.unitWork unit 4 = s.unitWork unit 4 ∧ u.tide.sent = (s.fireTake unit 4 f).tide.sent)))

/-- R214 to R219, R221, R222, R224, R229, R250: the commands of a Dice command block: a start, which enters the queue of the key's partition,
a start while BUSY, the operations that pass the pipe before a command, and how a LOOKUP, INSERT, DELETE and UPDATE end in the partition
of their key. R215, R221, R229 to R231: a table definition, a bucket visited by PURGE, and a bucket visited by Dredge: a hit entry stays,
an idle one grows stale, a stale one goes. Model's choices in it: log entry 30; an event whose condition fails changes nothing (log entry
2). It says that a next state is answered, and which: dredgeBucketVisit, diceTdefWrite, lookup, insert, delete, update, purge,
purgeBucketVisit, diceCommandDone. -/
def Obligations.Dice : Prop :=
  (∀ (s : State) (b : BitVec 3) (blk : Bool) (c : DiceCmd) (p : Nat),
    let i := b.toNat * 2 + (if blk then 1 else 0)
    let t := c.arg.toNat % 2 ^ 12
    let stat := fun (u : State) => u.fld F.DICE_CMD_STAT.STATUS i
    let ended := fun (u : State) n => stat u = n ∧ u.fld F.DICE_CMD_STAT.BUSY i = 0 ∧ u.diceCmd i = none
    let ch := 8 + b.toNat
    let go := fun i' op => s.reachable ch = true →
      (s.fld F.DICE_CMD_STAT.BUSY i = 0 → Completes i' s (fun u => u.fld F.DICE_CMD_STAT.BUSY i = 1
          ∧ u.diceCmd i = some { op := op, key := s.words16 .DICE_CMD_KEY i, val := s.words16 .DICE_CMD_VAL i
                                 arg := s.rd .DICE_CMD_ARG i, visited := [] }
          ∧ RegsKept s u [(.DICE_CMD_STAT, i)] ∧ u.look.slots = s.look.slots ∧ u.reply = .ok
          ∧ ∀ q < 8, u.pipeQ q = if s.diceRoute b.toNat (s.rd .DICE_CMD_ARG i % 4096).toNat (s.words16 .DICE_CMD_KEY i) = .inr q
              ∧ op ≠ 5 ∧ (s.pipeQ q).length < 256 then s.pipeQ q ++ [.cmd i] else s.pipeQ q))
      ∧ (s.fld F.DICE_CMD_STAT.BUSY i = 1 → Completes i' s (fun u => u.fld F.DICE_CMD_STAT.REJ i = 1
          ∧ OnlyRegs (s.putReply .ok) u [(.DICE_CMD_STAT, i)] ∧ u.fld F.DICE_CMD_STAT.BUSY i = 1))
    let found := fun (u : State) => u.findEntry p t (c.key.take (s.klen p t))
    let count := fun (u : State) => u.fld F.BRD_DICE_TDEF_W2.COUNT (p * 4096 + t)
    go (.lookup b blk) 1 ∧ go (.insert b blk) 2 ∧ go (.delete b blk) 3 ∧ go (.update b blk) 4 ∧ go (.purge b blk) 5
    ∧ (s.diceCmd i = some c → c.op ≠ 5 → s.cmdPipe i = some p → (s.pipeQ p).head? ≠ some (.cmd i) →
      Completes (.diceCommandDone b blk) s (fun u =>
        Completes (.diceCommandDone b blk) (s.pipeStep p) (fun v => v = u)))
    ∧ (s.diceCmd i = some c → s.tdefValid p t = true →
        s.cmdPipe i = some p ∧ (s.pipeQ p).head? = some (.cmd i)
          ∨ s.cmdPipe i = none ∧ s.pipeQ p = [] ∧ s.diceRoute b.toNat t c.key = .inr p →
      (c.op = 1 → found s = none → Completes (.diceCommandDone b blk) s (fun u => ended u 1 ∧ u.look.slots = s.look.slots
        ∧ RegsKept s u [(.DICE_CMD_STAT, i)]))
      ∧ (∀ l e, c.op = 1 → found s = some (l, e) → Completes (.diceCommandDone b blk) s (fun u => ended u 0
        ∧ u.words16 .DICE_CMD_VAL i = fitBytes 16 e.value ∧ u.fld F.DICE_CMD_STAT.OWNER i = e.owner.toNat
        ∧ u.fld F.DICE_CMD_STAT.ISSTATIC i = (if e.static then 1 else 0) ∧ u.look.slots = s.look.slots))
      ∧ (∀ l e, c.op = 2 → found s = some (l, e) → Completes (.diceCommandDone b blk) s (fun u => ended u 2
        ∧ u.look.slots = s.look.slots))
      ∧ (∀ k, c.op = 2 ∨ c.op = 4 → found s = none → count s < 2 ^ 20 - 1 →
        s.emptySlot p (bucket0 t (c.key.take (s.klen p t))) = some k → Completes (.diceCommandDone b blk) s (fun u => ended u 0
          ∧ u.slotAt (slotKey p (bucket0 t (c.key.take (s.klen p t))) k) = some (s.cmdEntry p c) ∧ count u = count s + 1
          ∧ ∀ x, x ≠ slotKey p (bucket0 t (c.key.take (s.klen p t))) k → u.slotAt x = s.slotAt x))
      ∧ (c.op = 3 → found s = none → Completes (.diceCommandDone b blk) s (fun u => ended u 1 ∧ u.look.slots = s.look.slots))
      ∧ (∀ k e, c.op = 3 → found s = some (.slot k, e) → (∀ x < 8, s.barAt (p * 8 + x) = none) → 0 < count s →
        Completes (.diceCommandDone b blk) s (fun u => ended u 0 ∧ u.slotAt k = none ∧ count u = count s - 1
          ∧ ∀ x, x ≠ k → u.slotAt x = s.slotAt x))
      ∧ (∀ k e, c.op = 4 → found s = some (.slot k, e) → Completes (.diceCommandDone b blk) s (fun u => ended u 0
          ∧ u.slotAt k = some { e with value := (s.cmdEntry p c).value, static := (s.cmdEntry p c).static
                                       owner := (s.cmdEntry p c).owner }
          ∧ ∀ x, x ≠ k → u.slotAt x = s.slotAt x)))
    ∧ (∀ n, s.diceCmd i = some c → s.cmdPipe i = none → s.diceRoute b.toNat t c.key = .inl n → c.op < 5 → n < 16 →
      Completes (.diceCommandDone b blk) s (fun u => ended u n ∧ u.look.slots = s.look.slots)))
  ∧ (∀ (s : State) (b p : BitVec 3) (blk : Bool) (tb : BitVec 12) (v : BitVec 32) (c : DiceCmd) (e : DiceEntry),
    let i := b.toNat * 2 + (if blk then 1 else 0)
    let d := b.toNat * 4096 + tb.toNat
    let cur := s.fld F.BRD_DICE_CURSOR.BUCKET b.toNat
    let k := slotKey b.toNat cur 0
    let alone := fun b n => (s.slotAt (slotKey b n 0) = some e) ∧ (∀ x, 1 ≤ x → x < 4 → s.slotAt (slotKey b n x) = none)
      ∧ (∀ x < 8, s.barAt (b * 8 + x) = none)
    let visits := fun (r : Option DiceEntry) => alone b.toNat cur → 1 < s.dredgeLeft b.toNat → e.static = false →
      s.fld F.BRD_DICE_TDEF_W0.AUDIT (b.toNat * 4096 + e.table.toNat) = 0 → Completes (.dredgeBucketVisit b) s (fun u =>
        u.slotAt k = r ∧ (∀ x, x ≠ k → u.slotAt x = s.slotAt x) ∧ u.dredgeLeft b.toNat = s.dredgeLeft b.toNat - 1
        ∧ u.fld F.BRD_DICE_CURSOR.BUCKET b.toNat = (cur + 1) % 131072)
    (s.reachable (8 + b.toNat) = true → s.tableInUse tb.toNat = false → tdefBad v = false → Completes (.diceTdefWrite b tb v) s (fun u =>
      u.fld F.BRD_DICE_TDEF_W0.VALID d = v.toNat % 2 ∧ u.fld F.BRD_DICE_TDEF_W0.KLEN d = v.toNat / 16 % 32
      ∧ u.fld F.BRD_DICE_TDEF_W0.VLEN d = v.toNat / 2 ^ 9 % 32 ∧ u.fld F.BRD_DICE_TDEF_W0.PARTS d = v.toNat / 2 ^ 16 % 2 ^ 8
      ∧ OnlyRegs (s.putReply .ok) u [(.BRD_DICE_TDEF_W0, d)]))
    ∧ (s.reachable (8 + b.toNat) = true → s.tableInUse tb.toNat = true → Completes (.diceTdefWrite b tb v) s (fun u => u.fld F.BRD_DICE_STAT.TDEF_REJ b.toNat = 1
        ∧ OnlyRegs (s.putReply .ok) u [(.BRD_DICE_STAT, b.toNat)]))
    ∧ (∀ n, s.diceCmd i = some c → c.op = 5 → Tbl.get (fun _ => 0) c.visited p.toNat = n → n < 131071 → alone p.toNat n →
        s.isFenced (8 + p.toNat) = false → s.pipeQ p.toNat = [] → Completes (.purgeBucketVisit b blk p) s (fun u =>
          u.slotAt (slotKey p.toNat n 0) = (if e.static = false ∧ e.owner.toNat = c.arg.toNat / 2 ^ 16
            ∧ (bit c.arg.toNat 13 = true ∨ e.table.toNat = c.arg.toNat % 2 ^ 12) then none else some e)
          ∧ (∀ x, x ≠ slotKey p.toNat n 0 → u.slotAt x = s.slotAt x)
          ∧ u.diceCmd i = some { c with visited := Tbl.set (fun _ => 0) c.visited p.toNat (n + 1) }))
    ∧ (e.hit = true → visits (some { e with hit := false, stale := false }))
    ∧ (e.hit = false → e.stale = false → visits (some { e with stale := true }))
    ∧ (e.hit = false → e.stale = true → visits none)
    ∧ (s.dredgeLeft b.toNat = 0 → Completes (.dredgeBucketVisit b) s (fun u => u = s)))

/-- R233 to R236, R238: Sounding: an audit starts with the next audited table, reads the shadow's head, flips the marks' epoch once in each
partition, judges the records of the shadow and repairs, and ends. Model's choices in it: log entry 30; an event whose condition fails
changes nothing (log entry 2). It says that a next state is answered, and which: soundingFiring, auditEpochFlip, soundingRepair,
soundingAuditEnd. -/
def Obligations.SoundingAudits : Prop :=
  ∀ (s : State) (k : BitVec 2) (b : BitVec 3) (f : Firing) (a : Audit) (tb : BitVec 12) (l r : List Byte),
    let unit : Unit_ := .auditor k
    let w := s.unitWork unit 2
    let d := b.toNat * 4096 + tb.toNat
    let p := s.partOf s.auditBoard a.table ((r.drop 6).take 16)
    let n := s.shadowEntry p a.table r
    let magic := beNat (l.take 4) = 0x534E4431
    let gen := bytesWord ((l.drop 4).take 4)
    let a0 : Audit := if a.started then a else
      { a with started := true, gen := gen, off := beNat (l.drop 8) / 2 ^ 24, count := beNat (l.drop 8) % 2 ^ 24
               changes := s.changesOf a.table }
    let next := { a with next := a.next + 1 }
    let judged := fun g (a' : Audit) (P : State → Prop) => Completes (.soundingRepair k (some g) (some r)) s (fun u =>
      u.auditOf k.toNat = some a' ∧ P u)
    (∀ t, w = { work := none, pend := none } → s.isFenced (2 + k.toNat) = false → s.fireDue unit 2 f = true →
      s.fld F.BNK_SND_CTL.EN k.toNat = 1 → s.nextAudit k.toNat = some t → t < 4096 → Completes (.soundingFiring k f) s (fun u =>
        u.auditOf k.toNat = some { table := t, started := false, gen := 0, off := 0, count := 0, next := 0, flips := 0, changes := []
                                   missing := 0, different := 0, matched := 0, inserted := 0, discard := false }
        ∧ u.fld F.BNK_SND_STAT.BUSY k.toNat = 1 ∧ u.fld F.BNK_SND_STAT.TABLE k.toNat = t
        ∧ (u.unitWork unit 2).work = some (firingActs 2 f) ∧ u.fordWin unit = s.fordWin unit ∧ RegsKept s u [(.BNK_SND_STAT, k.toNat)]))
    ∧ (w = { work := none, pend := none } → s.isFenced (2 + k.toNat) = false → s.fireDue unit 2 f = true →
        s.fld F.BNK_SND_CTL.EN k.toNat = 0 →
        Completes (.soundingFiring k f) s (fun u => u.regs = s.regs ∧ u.look = s.look ∧ u.unitWork unit 2 = w))
    ∧ (s.auditOf k.toNat = some a → tb.toNat = a.table → tb.toNat % 4 = k.toNat → (s.auditParts a.table).contains b.toNat = true →
        a.flips.getLsbD b.toNat = false → a.started = true ∨ s.sndMay k.toNat = true ∧ l.length = 16 ∧ magic →
        Completes (.auditEpochFlip tb b (some l)) s (fun u =>
          u.fld F.BRD_DICE_TDEF_W0.AEPOCH d = 1 - s.fld F.BRD_DICE_TDEF_W0.AEPOCH d
          ∧ u.auditOf k.toNat = some { a0 with flips := a0.flips ||| (1 : BitVec 8) <<< b.toNat }
          ∧ u = (s.putLook { s.look with audit := u.look.audit }).putRegs u.regs ∧ RegsKept s u [(.BRD_DICE_TDEF_W0, d)]))
    ∧ (s.auditOf k.toNat = some a → tb.toNat = a.table → tb.toNat % 4 = k.toNat → a.flips.getLsbD b.toNat = true →
        Completes (.auditEpochFlip tb b (some l)) s (fun u => u = s))
    ∧ (s.auditOf k.toNat = some a → a.started = true → s.flipsDone a = true → a.next < a.count → s.sndMay k.toNat = true →
        r.length = 32 → s.isFenced (8 + p) = false → s.tdefValid p a.table = true → a.table < 4096 →
      (∀ g, s.findEntry p a.table n.key = none → s.fld F.BNK_SND_CTL.REPAIR k.toNat = 0 →
        judged g { next with missing := a.missing + 1 } (fun u => u.look.slots = s.look.slots ∧ u.regs = s.regs))
      ∧ (∀ x, s.findEntry p a.table n.key = none → s.fld F.BNK_SND_CTL.REPAIR k.toNat = 1 → a.discard = false →
        s.fld F.BRD_DICE_TDEF_W3.CHANGES (p * 4096 + a.table) = a.changes.getD p 0 → s.emptySlot p (bucket0 a.table n.key) = some x →
        judged a.gen { next with missing := a.missing + 1, inserted := a.inserted + 1 } (fun u =>
          u.slotAt (slotKey p (bucket0 a.table n.key) x) = some n))
      ∧ (∀ g, s.findEntry p a.table n.key = none → s.fld F.BNK_SND_CTL.REPAIR k.toNat = 1 → g ≠ a.gen →
        judged g { next with missing := a.missing + 1, discard := true } (fun u => u.look.slots = s.look.slots ∧ u.regs = s.regs))
      ∧ (∀ g x e, s.findEntry p a.table n.key = some (.slot x, e) → e.value = n.value → e.static = n.static → e.owner = n.owner →
        judged g { next with matched := a.matched + 1 } (fun u =>
          u.slotAt x = some { e with mark := s.flag F.BRD_DICE_TDEF_W0.AEPOCH (p * 4096 + a.table) } ∧ u.regs = s.regs))
      ∧ Completes (.soundingRepair k (some a.gen) none) s (fun u => u.auditOf k.toNat = some { next with discard := true }
          ∧ u.look.slots = s.look.slots ∧ u.regs = s.regs))
    ∧ (s.auditOf k.toNat = some a → a.started = false → s.sndMay k.toNat = true → l.length = 16 → ¬magic →
        Completes (.soundingAuditEnd k (some l)) s (fun u =>
          u.fld F.BNK_SND_STAT.BADSHADOW k.toNat = 1 ∧ u.fld F.BNK_SND_STAT.BUSY k.toNat = 0 ∧ u.auditOf k.toNat = none
          ∧ u.look.slots = s.look.slots ∧ RegsKept s u [(.BNK_SND_STAT, k.toNat)]))
    ∧ (s.auditOf k.toNat = some a → a.started = true → s.flipsDone a = true → a.count ≤ a.next → s.sndMay k.toNat = true →
        l.length = 16 →
      (a.discard = false → a.missing = 0 → a.different = 0 → s.extras a.table = [] → s.changesOf a.table = a.changes → gen = a.gen →
        Completes (.soundingAuditEnd k (some l)) s (fun u =>
          u.fld F.BNK_SND_STAT.BUSY k.toNat = 0 ∧ u.auditOf k.toNat = none ∧ u.look.slots = s.look.slots
          ∧ u.rd .BNK_SND_MISSING k.toNat = s.rd .BNK_SND_MISSING k.toNat
          ∧ u.rd .BNK_SND_EXTRA k.toNat = s.rd .BNK_SND_EXTRA k.toNat
          ∧ u.rd .BNK_SND_DISCARDED k.toNat = s.rd .BNK_SND_DISCARDED k.toNat))
      ∧ (gen ≠ a.gen → Completes (.soundingAuditEnd k (some l)) s (fun u =>
          u.fld F.BNK_SND_STAT.BUSY k.toNat = 0 ∧ u.auditOf k.toNat = none ∧ u.look.slots = s.look.slots
          ∧ u.rd .BNK_SND_DISCARDED k.toNat = (s.satInc F.BNK_SND_DISCARDED.COUNT k.toNat 1).rd .BNK_SND_DISCARDED k.toNat
          ∧ RegsKept s u [(.BNK_SND_STAT, k.toNat), (.BNK_SND_DISCARDED, k.toNat)])))

/-- R242, R243, R249: flow service: EN of a Board, READY and ANY_EN; the clear of the table, the write-back of an entry's use, and the homes
of the shares. R245 to R247, R252: an update of Delta: its start, a start while BUSY, and what it makes of the prefixes. Model's choices
in it: log entry 31; an event whose condition fails changes nothing (log entry 2). It says that a next state is answered, and which:
flowCtlWrite, flowTableClearDone, flowCacheWriteback, flowHomeWrite, deltaAdd, deltaDel, deltaUpdateDone. -/
def Obligations.FlowAndDelta : Prop :=
  (∀ (s : State) (b : BitVec 3) (v : BitVec 32) (ix : BitVec 28),
    let byte := fun (u : State) k => Tbl.get (fun _ => (0 : Byte)) u.hbm.mem k
    let live := fun x => s.isFenced (8 + x) = false
    let en := fun x => if x = b.toNat then v.toNat % 2 else s.fld F.BRD_FLOW_CTL.EN x
    let up := s.reachable (8 + b.toNat) = true
    let calm := s.hbmRefuses (hbmBase + ix.toNat * 64 + 48) 8 = false ∧ s.hbm.dir = [] ∧ s.hbm.home = [] ∧ s.hbm.poison = [] ∧ s.plat.ecc = []
    (up → Completes (.flowCtlWrite b v) s (fun u => (∀ x < 8, u.fld F.BRD_FLOW_CTL.EN x = en x)
        ∧ (∀ x < 8, u.fld F.BRD_FLOW_CTL.READY x = 1 ↔ s.fld F.BRD_FLOW_CTL.READY x = 1 ∧ s.hbmMapped = true
            ∧ ∀ y < 8, live y → en y = 1)
        ∧ (∀ x < 8, u.fld F.BRD_FLOW_CTL.ANY_EN x = 1 ↔ ∃ y < 8, live y ∧ en y = 1)
        ∧ OnlyRegs (s.putReply .ok) u ((List.range 8).map (fun x => (.BRD_FLOW_CTL, x)))))
    ∧ (s.serving = true → s.flowEnabled = true → (∃ x < 8, live x ∧ s.fld F.BRD_FLOW_CTL.READY x = 0) →
        Completes .flowTableClearDone s (fun u => (∀ x < 8, u.fld F.BRD_FLOW_CTL.READY x = 1)
          ∧ (∀ k, byte u k = if k < 0x400000000 then 0 else byte s k) ∧ u.look = { s.look with flowDirty := [] }))
    ∧ (∀ l p, calm → Tbl.get (fun _ => none) s.look.flowDirty ix.toNat = some (l, p) → Completes (.flowCacheWriteback ix) s (fun u =>
        Tbl.get (fun _ => none) u.look.flowDirty ix.toNat = none ∧ u.regs = s.regs
        ∧ ∀ k, byte u k = (if ix.toNat * 64 + 48 ≤ k ∧ k < ix.toNat * 64 + 56 then
            (beBytes 4 l.toNat ++ beBytes 4 p.toNat).getD (k - (ix.toNat * 64 + 48)) 0 else byte s k)))
    ∧ (Tbl.get (fun _ => none) s.look.flowDirty ix.toNat = none → Completes (.flowCacheWriteback ix) s (fun u => u = s))
    ∧ ((∀ x < 8, live x) → up → Completes (.flowHomeWrite b v) s (fun u => OnlyRegs (s.putReply .ok) u [(.BRD_FLOW_HOME, b.toNat)]
        ∧ (u.rd .BRD_FLOW_HOME b.toNat).toNat % 2 ^ 24 = v.toNat % 2 ^ 24))
    ∧ (s.isFenced (8 + v.toNat % 8) = true → up → Completes (.flowHomeWrite b v) s (fun u => u = s.putReply .ok)))
  ∧ (∀ (s : State) (v : BitVec 32) (a res : Nat),
    let busy := fun (u : State) => u.fld F.DLT_CMD_STAT.BUSY 0
    let p := cmdPrefix v a res
    let rest := s.look.delta.filter (fun q => !q.same p)
    let go := fun i op => v.toNat % 4 = op →
      (busy s = 0 → Completes i s (fun u => busy u = 1 ∧ RegsKept s u [(.DLT_CMD_STAT, 0)]
        ∧ u.reply = .ok ∧ u.look = { s.look with deltaCmd := some (v, beNat (s.words16 .DLT_CMD_ADDR 0), (s.rd .DLT_CMD_RES 0).toNat % 2 ^ 28) }))
      ∧ (busy s = 1 → Completes i s (fun u => u.fld F.DLT_CMD_STAT.REJ 0 = 1 ∧ OnlyRegs (s.putReply .ok) u [(.DLT_CMD_STAT, 0)]))
    let ends := fun st (l : List Prefix) => Completes .deltaUpdateDone s (fun u => u.fld F.DLT_CMD_STAT.STATUS 0 = st ∧ busy u = 0
      ∧ u.look = { s.look with delta := l, deltaCmd := none }
      ∧ RegsKept s u [(.DLT_CMD_STAT, 0), (.DLT_V4_COUNT, 0), (.DLT_V6_COUNT, 0)])
    let wide := if v.toNat / 4 % 2 = 1 then 128 else 32
    (s.reachable 1 = true → go (.deltaAdd v) 1 ∧ go (.deltaDel v) 2)
    ∧ (s.look.deltaCmd = some (v, a, res) →
      (wide < v.toNat / 8 % 256 → ends 7 s.look.delta)
      ∧ (v.toNat / 8 % 256 ≤ wide → v.toNat % 4 = 1 → deltaFits (p :: rest) = true → ends 0 (p :: rest))
      ∧ (v.toNat / 8 % 256 ≤ wide → v.toNat % 4 = 1 → deltaFits (p :: rest) = false → ends 3 s.look.delta)
      ∧ (v.toNat / 8 % 256 ≤ wide → v.toNat % 4 = 2 → rest ≠ s.look.delta → ends 0 rest)
      ∧ (v.toNat / 8 % 256 ≤ wide → v.toNat % 4 = 2 → rest = s.look.delta → ends 1 s.look.delta)))

/-- R30, R31, R33, R212, R213: intake: a vector leaves the side buffer for its queue, goes to its Board for one credit, and the credit
returns. R137, R151, R226 to R228: at a Board: the learn of a vector, and the vector's way to a thread in RECV. Model's choices in it: log
entry 29; an event whose condition fails changes nothing (log entry 2). It says that a next state is answered, and which: recv,
sideBufferRelease, vectorSteerSend, intakeCreditReturn, learn, vectorDispatch. -/
def Obligations.Intake : Prop :=
  (∀ (s : State) (k : BitVec 2) (b : BitVec 3) (x : Nat) (v : Vector_) (rest : List Vector_),
    let c := k.toNat * 8 + b.toNat
    let n := fun (t : Tbl Nat) => Tbl.get (fun _ => 0) t c
    let q := fun (u : State) i => u.intakeQueue k.toNat i
    let i := k.toNat * 4096 + v.entry
    (s.sideBuf k.toNat = [(x, v)] → s.intakeRoom k.toNat x v = true → v.stamped = true → Completes (.sideBufferRelease k) s (fun u =>
      u.sideBuf k.toNat = [] ∧ q u x = q s x ++ [v] ∧ u.fld F.BNK_INTAKE_SIDE.HELD k.toNat = 0 ∧ u.cfl = s.cfl
      ∧ RegsKept s u [(.BNK_INTAKE_SIDE, k.toNat)]))
    ∧ (∀ m f, s.sideBuf k.toNat = [(x, v)] → s.intakeRoom k.toNat x v = true → v.stamped = false → v.input = .ring m f →
        v.gen = s.fld F.RNG_FN_FRZ.GEN m → Completes (.sideBufferRelease k) s (fun u => u.sideBuf k.toNat = []
          ∧ q u x = q s x ++ [{ v with stamped := true, bytes := patchBytes v.bytes 4 (beBytes 2 (s.stampSeq v.input).1) }]))
    ∧ (s.sideBuf k.toNat = [] → Completes (.sideBufferRelease k) s (fun u => u = s))
    ∧ (q s b.toNat = v :: rest → s.reachable (2 + k.toNat) = true → s.reachable (8 + b.toNat) = true →
        n s.intake.flight + n s.intake.held + n s.intake.returning < 2048 → s.fld F.BNK_STEER_TBL.INFLIGHT i < 2 ^ 12 - 1 →
        Completes (.vectorSteerSend k b) s (fun u => q u b.toNat = rest ∧ u.meshTo b.toNat = s.meshTo b.toNat ++ [v]
          ∧ n u.intake.flight = n s.intake.flight + 1 ∧ n u.intake.held = n s.intake.held
          ∧ u.fld F.BNK_STEER_TBL.INFLIGHT i = s.fld F.BNK_STEER_TBL.INFLIGHT i + 1 ∧ RegsKept s u [(.BNK_STEER_TBL, i)]))
    ∧ (n s.intake.flight + n s.intake.held + n s.intake.returning = 2048 → Completes (.vectorSteerSend k b) s (fun u => u = s))
    ∧ Completes (.intakeCreditReturn k b) s (fun u => n u.intake.returning = n s.intake.returning - 1
        ∧ u = s.putIntake { s.intake with returning := u.intake.returning }))
  ∧ (∀ (s : State) (b : BitVec 3) (v : Vector_) (rest : List Vector_) (th : Nat) (rd : BitVec 5) (a : Nat),
    let x := b.toNat
    let t := s.fld F.BNK_LEARN_CTL.TABLE v.bank
    let d := x * 4096 + t % 4096
    let frame := (v.bytes.drop 0x40).take (min 192 (rdN v.bytes 6 2))
    let val := learnValue (parseFrame (s.parseCfg v.bank false) frame)
    let key := beBytes 3 (rdN v.bytes 0x14 4) ++ (frame.drop (rdN v.bytes 0x36 2 + 6)).take 6
    let p := s.partOf x t key
    let learns := fun code => { v with learn := false, bytes := patchBytes v.bytes 0x10 (beBytes 4 (rdN v.bytes 0x10 4 + code * 2)) }
    let table := s.fld F.BRD_DICE_TDEF_W0.VALID d = 1 ∧ s.fld F.BRD_DICE_TDEF_W0.LEARN d = 1 ∧ s.fld F.BRD_DICE_TDEF_W0.KLEN d = 9
      ∧ s.fld F.BRD_DICE_TDEF_W0.VLEN d = 16
    s.meshTo x = [] →
      (s.atBoard x = v :: rest → v.learn = true →
        (s.fld F.BRD_DICE_TDEF_W0.VALID d = 0 → Completes (.learn b) s (fun u => u.atBoard x = { v with learn := false } :: rest
          ∧ u.regs = s.regs ∧ u.look = s.look))
        ∧ (table → s.isFenced (8 + p) = true → Completes (.learn b) s (fun u => u.atBoard x = learns 3 :: rest
          ∧ RegsKept s u [(.BRD_DICE_LEARN_FAIL, x)] ∧ u.look = s.look))
        ∧ (∀ k e, table → s.isFenced (8 + p) = false → s.pipeQ p = [] → s.tdefValid p t = true → s.findEntry p t (key.take (s.klen p t)) = some (.slot k, e) →
          (e.value = val.take (s.vlen p t) → Completes (.learn b) s (fun u => u.atBoard x = learns 1 :: rest ∧ u.regs = s.regs
            ∧ u.slotAt k = some { e with hit := true } ∧ ∀ y, y ≠ k → u.slotAt y = s.slotAt y))
          ∧ (e.static = true → e.value ≠ val.take (s.vlen p t) → Completes (.learn b) s (fun u => u.atBoard x = learns 1 :: rest ∧ u.regs = s.regs ∧ u.look = s.look))
          ∧ (e.static = false → e.value ≠ val.take (s.vlen p t) → Completes (.learn b) s (fun u => u.atBoard x = learns 2 :: rest
            ∧ u.slotAt k = some { e with hit := true, value := val.take (s.vlen p t) }
            ∧ (u.rd .BRD_DICE_LEARN_MOVE x).toNat = Nat.min (2 ^ 32 - 1) ((s.rd .BRD_DICE_LEARN_MOVE x).toNat + 1)))))
      ∧ (s.atBoard x = v :: rest → v.learn = false → s.recvThread x = some th → (s.thread th).run = .stalled (.recv rd a) →
        v.bytes.length = 256 → Completes (.vectorDispatch b) s (fun u => u.atBoard x = rest ∧ (u.thread th).run = .ready
          ∧ RegsBut (s.thread th) (u.thread th) rd v.handle ∧ (u.thread th).pc = (s.thread th).pc + 4
          ∧ (u.thread th).handles = (s.thread th).handles ++ [v.handle]
          ∧ (u.thread th).inst = BitVec.ofNat 32 (beNat ((v.bytes.drop 8).take 4))
          ∧ (∀ k < 256, Tbl.get (fun _ => (0 : Byte)) u.eng.localMem (th / 8 * 0x8000 + a + k) = v.bytes.getD k 0)
          ∧ (∀ y, y ≠ th → u.thread y = s.thread y) ∧ u.regs = s.regs))
      ∧ (s.atBoard x = v :: rest → s.recvThread x = none → Completes (.vectorDispatch b) s (fun u => u.atBoard x = v :: rest
          ∧ u.eng = s.eng ∧ u.regs = s.regs)))

/-- R259 to R261, R265, R276: the cell books, a spill's depth that lands, a missing number that is skipped, and the words of a multicast
group. Model's choices in it: log entry 32. It says that a next state is answered, and which: spillDepthLand, seqSkipTimeout,
reclaimToFree, bookSnap, mcGroupW1Write, mcGroupCommit. -/
def Obligations.CellBooks : Prop :=
  ∀ (s : State) (n : Nat) (v w : BitVec 32) (g : BitVec 16) (i : Input),
    let b := s.cfl.books
    let m := min (min n 64) (b.reclaim - b.spilling)
    let snap := fun r => fun (u : State) => (u.rd r 0).toNat % 2 ^ 21
    let x := s.inputSt i
    let up := s.reachable 1 = true
    Completes (.reclaimToFree n) s (fun u => u.cfl.books = { b with free := b.free + m, reclaim := b.reclaim - m }
        ∧ u.cfl.rcl = s.cfl.rcl.drop m ∧ u.cfl.taken = s.cfl.taken.filter (fun c => !(s.cfl.rcl.take m).contains c)
        ∧ u = s.putCfl u.cfl ∧ u.cfl.frames = s.cfl.frames ∧ u.cfl.queues = s.cfl.queues)
    ∧ (up → v.toNat % 2 = 1 → b.free < 2 ^ 21 → b.queued < 2 ^ 21 → b.pipe < 2 ^ 21 → b.reclaim < 2 ^ 21 → b.spilling < 2 ^ 21 →
        Completes (.bookSnap v) s (fun u => snap .CFL_BOOK_FREE u = b.free ∧ snap .CFL_BOOK_QUEUED u = b.queued
          ∧ snap .CFL_BOOK_PIPE u = b.pipe ∧ snap .CFL_BOOK_RECLAIM u = b.reclaim ∧ snap .CFL_BOOK_SPILLING u = b.spilling
          ∧ OnlyRegs (s.putReply .ok) u [(.CFL_BOOK_FREE, 0), (.CFL_BOOK_QUEUED, 0), (.CFL_BOOK_PIPE, 0), (.CFL_BOOK_RECLAIM, 0),
              (.CFL_BOOK_SPILLING, 0)]))
    ∧ (∀ l rest, s.cfl.lands = l :: rest → l.depth ≤ s.depth l.queue → l.chain.length ≤ b.spilling → b.spilling ≤ b.queued →
        Completes .spillDepthLand s (fun u => u.cfl.lands = rest ∧ u.depth l.queue = s.depth l.queue - l.depth
          ∧ u.cfl.books = { b with queued := b.queued - l.chain.length, spilling := b.spilling - l.chain.length }
          ∧ u.cfl.rcl = s.cfl.rcl ++ l.chain
          ∧ (∀ q, q ≠ l.queue → u.depth q = s.depth q) ∧ u.cfl.queues = s.cfl.queues))
    ∧ (i ≠ .none → x.wait ≠ [] → s.nextSlot i = none → Completes (.seqSkipTimeout i) s (fun u =>
        u.inputSt i = { x with next := (x.next + 1) % 65536 } ∧ RegsKept s u [(.CFL_SEQ_SKIP, 0)]
        ∧ (u.rd .CFL_SEQ_SKIP 0).toNat = Nat.min (2 ^ 32 - 1) ((s.rd .CFL_SEQ_SKIP 0).toNat + 1)
        ∧ u.cfl.frames = s.cfl.frames ∧ u.cfl.books = b))
    ∧ (up → Completes (.mcGroupW1Write g v) s (fun u => u.staged .CFL_MC_GRP_W1 g.toNat = some v
        ∧ u = (s.putStage u.stage).putReply .ok))
    ∧ (up → s.staged .CFL_MC_GRP_W1 g.toNat = some w → w.toNat % 2 ^ 11 ≤ 1024 → v.toNat % 2 ^ 20 + w.toNat % 2 ^ 11 ≤ 1048576 →
        Completes (.mcGroupCommit g v) s (fun u => u.fld F.CFL_MC_GRP_W1.COUNT g.toNat = w.toNat % 2 ^ 11
          ∧ u.fld F.CFL_MC_GRP_W0.BASE g.toNat = v.toNat % 2 ^ 20 ∧ u.fld F.CFL_MC_GRP_W0.VALID g.toNat = v.toNat / 2 ^ 31
          ∧ u.staged .CFL_MC_GRP_W1 g.toNat = none ∧ u.fld F.CFL_MC_SYNC.DONE 0 = 1
          ∧ RegsKept s u [(.CFL_MC_GRP_W0, g.toNat), (.CFL_MC_GRP_W1, g.toNat), (.CFL_MC_SYNC, 0)]))
    ∧ (up → s.staged .CFL_MC_GRP_W1 g.toNat = some w → 1024 < w.toNat % 2 ^ 11 ∨ 1048576 < v.toNat % 2 ^ 20 + w.toNat % 2 ^ 11 →
        Completes (.mcGroupCommit g v) s (fun u => OnlyRegs (s.putReply .ok) u [(.CFL_MC_REJ, 0)]
          ∧ (u.rd .CFL_MC_REJ 0).toNat = Nat.min (2 ^ 32 - 1) ((s.rd .CFL_MC_REJ 0).toNat + 1)))

/-- R254, R259, R263, R266, R267, R274, R275: the commit of an input's next number: a DROP, an ENQ that is admitted, one that is refused, an
ENQM; and the replication of a committed ENQM frame to one destination and to none. R273 to R275: the replication of a committed ENQM
frame, which holds one reference: a copy to the one destination of its group; none to a pruned one, whose frame then goes. Model's choices
in it: log entry 32; an event whose condition fails changes nothing (log entry 2). It says that a next state is answered, and which: enq,
enqm, drop, enqueueCommit, replication. -/
def Obligations.CommitAndReplication : Prop :=
  (∀ (s : State) (i : Input) (c : CommitSlot) (f : FrameRec) (q : Nat) (w : Word) (r : BitVec 8) (g : BitVec 16),
    let b := s.cfl.books
    let x := s.inputSt i
    let p := handleFirst c.handle
    let head := c.fword.toNat / 2 ^ 16
    let len := c.fword.toNat % 2 ^ 16
    let n := (head + len - 1) / 256 + 1
    let retired := fun (u : State) => u.inputSt i = { x with next := (x.next + 1) % 65536, wait := [] }
    let plain := i ≠ .none ∧ (∀ a, i ≠ .attach a) ∧ (∀ k, eddySource i = some k → s.fld F.EDY_SRC.ING_EN k = 0)
    plain → x.wait = [c] → c.seq = x.next → c.th = none → s.handleFrame c.handle = some f → f.refs = 0 → f.committed = false →
    f.desc = none → f.cells ≤ b.pipe → head < 256 → 0 < len → n ≤ f.cells → f.chain.headD p = p → f.chain.Nodup →
      (c.kind = .drop r → Completes (.enqueueCommit i) s (fun u => retired u ∧ u.frame p = none
        ∧ u.cfl.books = { b with pipe := b.pipe - f.cells, reclaim := b.reclaim + f.cells } ∧ u.cfl.queues = s.cfl.queues
        ∧ Tbl.get (fun _ => 0) u.cfl.reasons r.toNat = Tbl.get (fun _ => 0) s.cfl.reasons r.toNat + 1))
      ∧ (c.kind = .enq w → w.toNat % 2 ^ 20 = q → w.toNat / 2 ^ 22 % 2 = 0 → s.instResets q = false →
        (s.admits q n (w.toNat / 2 ^ 20 % 4) = true → s.depth q + n < 2 ^ 21 → Completes (.enqueueCommit i) s (fun u =>
          retired u ∧ u.queue q = s.queue q ++ [{ first := p, head := head, len := len, prep := 0, eddy := false }]
          ∧ u.depth q = s.depth q + n
          ∧ u.cfl.books = { b with pipe := b.pipe - f.cells, queued := b.queued + n, reclaim := b.reclaim + (f.cells - n) }
          ∧ u.cfl.rcl = s.cfl.rcl ++ f.chain.drop n
          ∧ (∃ f', u.frame p = some f' ∧ f'.refs = 1 ∧ f'.committed = true ∧ f'.bytes = f.bytes ∧ f'.chain = f.chain.take n)
          ∧ ∀ y, y ≠ q → u.queue y = s.queue y ∧ u.depth y = s.depth y))
        ∧ (s.admits q n (w.toNat / 2 ^ 20 % 4) = false → s.spillMay q = false → Completes (.enqueueCommit i) s (fun u =>
          retired u ∧ u.cfl.queues = s.cfl.queues ∧ u.frame p = none
          ∧ u.cfl.books = { b with pipe := b.pipe - f.cells, reclaim := b.reclaim + f.cells }
          ∧ (u.rd .CFL_PROF_W3 (s.profile q)).toNat = Nat.min (2 ^ 32 - 1) ((s.rd .CFL_PROF_W3 (s.profile q)).toNat + 1))))
      ∧ (c.kind = .enqm g → Completes (.enqueueCommit i) s (fun u => retired u ∧ u.cfl.queues = s.cfl.queues
          ∧ u.cfl.repl = s.cfl.repl ++ [{ first := p, group := g, head := head, len := len, input := i }]
          ∧ u.cfl.books = { b with pipe := b.pipe - f.cells, queued := b.queued + n, reclaim := b.reclaim + (f.cells - n) }
          ∧ ∃ f', u.frame p = some f' ∧ f'.refs = 1 ∧ f'.committed = true)))
  ∧ (∀ (s : State) (j : ReplJob) (rest : List ReplJob) (f : FrameRec) (e q : Nat),
    let g := j.group.toNat
    s.cfl.repl = j :: rest → s.frame j.first = some f → f.refs = 1 → f.committed = true → f.desc = none →
      s.fld F.CFL_MC_GRP_W0.VALID g = 1 → s.fld F.CFL_MC_GRP_W1.COUNT g = 1 → s.fld F.CFL_MC_GRP_W0.BASE g = e →
      s.fld F.CFL_MC_LIST_W0.QUEUE e = q →
        (s.pruned e j.input = false → s.admits q f.cells 0 = true → s.depth q + f.cells < 2 ^ 21 → Completes .replication s (fun u =>
          u.cfl.repl = rest ∧ u.queue q = s.queue q ++ [{ first := j.first, head := j.head, len := j.len
                                                          prep := s.fld F.CFL_MC_LIST_W0.PREP e, eddy := false }]
          ∧ u.depth q = s.depth q + f.cells ∧ u.frame j.first = some f ∧ u.cfl.books = s.cfl.books))
        ∧ (s.fld F.CFL_MC_LIST_W1.PRUNE e = 1 → s.fld F.CFL_MC_LIST_W1.INPUT e = inputNum j.input →
          s.fld F.CFL_MC_LIST_W1.KIND e = inputKind j.input → Completes .replication s (fun u => u.cfl.repl = rest
            ∧ u.frame j.first = none ∧ u.cfl.queues = s.cfl.queues
            ∧ (u.rd .CFL_MC_EMPTY 0).toNat = Nat.min (2 ^ 32 - 1) ((s.rd .CFL_MC_EMPTY 0).toNat + 1))))

/-- R291, R292: the walk of a release takes, at each node, an eligible child, and none while a sibling of a higher band is eligible; a queue
is eligible here while the output has room for its class. Model's choices in it: log entry 33. -/
def Obligations.ReleaseByBand : Prop :=
  ∀ (s : State) (port : Nat) (v u c : SchChild), s.walk port = some (v, u, c) →
    let qs := s.eligQueues.filter s.queueRoom
    c.num ∈ qs ∧ c.parent = u.num ∧ u.parent = v.num ∧ v.parent = portNode port
    ∧ (∀ q ∈ qs, s.qSub q = u.num → s.qClass q ≤ c.band)
    ∧ (∀ n ∈ s.eligSubs qs, s.subSvc n = v.num → s.fld F.SCH_N_CFG.BAND n ≤ u.band)
    ∧ (∀ n ∈ s.eligSvcs (s.eligSubs qs), s.svcPort n = port → s.fld F.SCH_N_CFG.BAND n ≤ v.band)

/-- R290, R292, R297 to R302: a release takes the head frame of the walk's queue to its output, an idle one nothing; a debit lands; buckets
refill; a pending PARENT and BAND apply; the configuration of shapers and policers. Model's choices in it: log entry 33, among them a peak
bucket below its format; an event whose condition fails changes nothing (log entry 2). It says that a next state is answered, and which:
schedulerRelease, debitLand, bucketRefill, parentBandApply, shaperConfigWrite, policerConfigWrite. -/
def Obligations.Scheduler : Prop :=
  ∀ (s : State) (port : BitVec 10) (n : Nat) (k : BitVec 18) (q : BitVec 20) (a b : Nat) (v : BitVec 32),
    let up := s.reachable 1 = true
    let pol := s.polBuckets k.toNat
    let dt := s.mono 1 - pol.last
    let cir := (s.rd .SCH_POL_CIR k.toNat).toNat
    let cbs := s.fld F.SCH_POL_CBS.BYTES k.toNat
    let full := fun (u : State) (x : Buckets) c p => x.tc = (u.fld c n * 1000 : Nat) ∧ x.tp = (u.fld p n * 1000 : Nat)
    (s.settle.walk port.toNat = none → Completes (.schedulerRelease port) s (fun u => Settles s u))
    ∧ (∀ x y c e rest, s.settle.walk port.toNat = some (x, y, c) → s.queue c.num = e :: rest → 288 ≤ port.toNat →
        s.entryCells e ≤ s.depth c.num → Completes (.schedulerRelease port) s (fun u => u.queue c.num = rest
          ∧ u.depth c.num = s.depth c.num - s.entryCells e
          ∧ u.outQueue port.toNat = s.outQueue port.toNat
              ++ [{ e := e, cls := s.qClass c.num, queue := c.num, ecn := s.marks c.num e.first }]
          ∧ (∀ z, z ≠ c.num → u.queue z = s.queue z) ∧ u.cfl.books = s.cfl.books))
    ∧ (∀ d rest, (s.nodeNow n).debits = d :: rest →
        (-(2 ^ 47) ≤ (s.nodeNow n).tp - (d * 1000 : Nat) → Completes (.debitLand n) s (fun u =>
          Settles (s.draw.setNodeBuckets n { s.nodeNow n with tc := max ((s.nodeNow n).tc - (d * 1000 : Nat)) (-16777216000)
                                                              tp := (s.nodeNow n).tp - (d * 1000 : Nat), debits := rest }) u))
        ∧ ((s.nodeNow n).tp - (d * 1000 : Nat) < -(2 ^ 47) → Completes (.debitLand n) s (fun u =>
          (u.nodeBuckets n).tc = max ((s.nodeNow n).tc - (d * 1000 : Nat)) (-16777216000) ∧ (u.nodeBuckets n).debits = rest
          ∧ -(2 ^ 47) ≤ (u.nodeBuckets n).tp ∧ (u.nodeBuckets n).tp < 2 ^ 47)))
    ∧ Completes (.bucketRefill (.node n)) s (fun u => Settles (s.setNodeBuckets n (s.nodeNow n)) u)
    ∧ (pol.debits = [] → cir ≤ (s.rd .SCH_POL_PIR k.toNat).toNat → Completes (.bucketRefill (.policer k)) s (fun u =>
        (u.polBuckets k.toNat).tc = min (pol.tc + ((pol.remC + cir * dt) / 8000 : Nat)) (cbs * 1000 : Nat)
        ∧ (u.polBuckets k.toNat).remC = (pol.remC + cir * dt) % 8000 ∧ u.regs = s.regs))
    ∧ (s.parentPend q.toNat = some (a, b) → s.depth q.toNat = 0 → a < 65536 → b < 8 → Completes (.parentBandApply (.queue q)) s (fun u =>
        u.qSub q.toNat = a ∧ u.qClass q.toNat = b ∧ u.fld F.SCH_Q_W0.PEND q.toNat = 0 ∧ u.parentPend q.toNat = none
        ∧ RegsKept s u [(.SCH_Q_W0, q.toNat)]))
    ∧ (s.parentPend q.toNat = some (a, b) → s.depth q.toNat ≠ 0 → Completes (.parentBandApply (.queue q)) s (fun u => u = s))
    ∧ (s.parentPend (nodeTag n) = some (a, b) → s.nodeHolds n = false → a < 4096 → b < 8 →
        Completes (.parentBandApply (.node n)) s (fun u => u.fld F.SCH_N_CFG.PARENT n = a ∧ u.fld F.SCH_N_CFG.BAND n = b
          ∧ u.fld F.SCH_N_STAT.PEND n = 0 ∧ u.parentPend (nodeTag n) = none))
    ∧ (up → Completes (.shaperConfigWrite .SCH_N_CIR n v) s (fun u => u.rd .SCH_N_CIR n = v
        ∧ full u (u.nodeBuckets n) F.SCH_N_CBS.BYTES F.SCH_N_PBS.BYTES ∧ RegsKept s u [(.SCH_N_CIR, n)]))
    ∧ (up → Completes (.shaperConfigWrite .SCH_N_CBS n v) s (fun u => u.fld F.SCH_N_CBS.BYTES n = v.toNat % 2 ^ 24
        ∧ u.fld F.SCH_N_CBS.SHAPE n = v.toNat / 2 ^ 31 ∧ full u (u.nodeBuckets n) F.SCH_N_CBS.BYTES F.SCH_N_PBS.BYTES))
    ∧ (up → Completes (.policerConfigWrite .SCH_POL_PIR n v) s (fun u => u.rd .SCH_POL_PIR n = v
        ∧ full u (u.polBuckets n) F.SCH_POL_CBS.BYTES F.SCH_POL_PBS.BYTES ∧ RegsKept s u [(.SCH_POL_PIR, n)]))

/-- R304 to R309: gate lists: ARM, the firing that takes an armed port, the swap of the buffers at the change instant, and the gates shown.
R313 to R315, R323: Gauge: a pass starts at its instant or is skipped, its records enter the ring or are lost, GAU_CTL restarts it. That a
record whose write ends with a bus error is lost is the model's choice (log entry 34). Model's choices in it: log entry 34; an event whose
condition fails changes nothing (log entry 2). It says that a next state is answered, and which: gateListChangeFiring, gateArm,
gateListSwap, gateIntervalEnd, gaugePass, gaugeRecordWrite, gauCtlWrite. -/
def Obligations.GatesAndGauge : Prop :=
  (∀ (s : State) (port : BitVec 8) (v : BitVec 32) (f : Firing),
    let p := port.toNat
    let shown := fun (u : State) (t : State) => u.fld F.GATE_POS.ENTRY p = (t.gateAt p (t.replica 1)).1 % 2 ^ 10
      ∧ u.fld F.SCH_P_STAT.GATES p = t.gatesOf p (t.replica 1) % 2 ^ 8
    let arms := s.reachable 1 = true ∧ v.toNat / 2 % 2 = 1 ∧ s.fld F.GATE_CTL.PEND p = 0
    let list := s.pendList p
    (arms → s.fld F.GATE_LEN.COUNT p ≠ 0 → 1000 ≤ s.fld F.GATE_CYCLE.NS p → Completes (.gateArm port v) s (fun u =>
      u.fld F.GATE_CTL.PEND p = 1 ∧ u.fld F.GATE_CTL.EN p = v.toNat % 2 ∧ RegsKept s u [(.GATE_CTL, p)]))
    ∧ (arms → s.fld F.GATE_LEN.COUNT p = 0 ∨ s.fld F.GATE_CYCLE.NS p < 1000 → Completes (.gateArm port v) s (fun u =>
        u.fld F.GATE_CTL.PEND p = 0 ∧ (u.rd .GATE_REJ p).toNat = Nat.min (2 ^ 32 - 1) ((s.rd .GATE_REJ p).toNat + 1)))
    ∧ (s.fld F.GATE_CTL.PEND p = 1 → s.unitWork .gates 8 = { work := none, pend := none } → s.fireDue .gates 8 f = true →
        f.arg.toNat = p → 0 < list.cycle → (s.gatePort p).change = none → Completes (.gateListChangeFiring f) s (fun u =>
          let at_ := ((u.gatePort p).change.getD (0, 0)).1
          (u.gatePort p).change = some (at_, f.cycle * 4096) ∧ f.cycle * 4096 ≤ at_ ∧ list.base ≤ at_
            ∧ (at_ - list.base) % list.cycle = 0 ∧ (list.base ≤ f.cycle * 4096 → at_ < f.cycle * 4096 + list.cycle)
            ∧ u.regs = s.regs ∧ ∀ x, x ≠ p → u.gatePort x = s.gatePort x))
    ∧ (∀ c t, (s.gatePort p).change = some (c, t) → c ≤ s.replica 1 → Completes (.gateListSwap port) s (fun u =>
        u.gatePort p = { oper := list, change := none } ∧ u.fld F.GATE_CTL.OPER p = 1 - s.fld F.GATE_CTL.OPER p
        ∧ u.fld F.GATE_CTL.PEND p = 0 ∧ (u.rd .GATE_CHANGES p).toNat = Nat.min (2 ^ 32 - 1) ((s.rd .GATE_CHANGES p).toNat + 1)))
    ∧ ((s.gatePort p).change = none → Completes (.gateListSwap port) s (fun u => u = s))
    ∧ Completes (.gateIntervalEnd port) s (fun u => shown u s ∧ RegsKept s u [(.GATE_POS, p), (.SCH_P_STAT, p)]))
  ∧ (∀ (s : State) (ring : BitVec 4) (v : BitVec 32) (g : GaugePass),
    let r := ring.toNat
    let due := s.fld F.GAU_CTL.EN r = 1 ∧ s.gaugeNext r ≤ s.replica 1
    let turn := s.gaugePass r = some g ∧ s.gaugeRing = some r
    let passes := fun (u : State) => Tbl.get (fun _ => 0) u.sch.passes r
    let prod := s.fld F.GAU_PROD.INDEX r
    let next := (prod + 1) % 2 ^ s.fld F.GAU_CTL.LOG2_SIZE r
    let at_ := s.rd64 .GAU_BASE .GAU_BASE_HI r + prod * 16
    let reaches := s.hbmRefuses at_ 16 = false ∧ keyTableRange (at_ - 0x1000000000) 16 = false
      ∧ (s.stoReady && stoRegion (at_ - 0x1000000000) 16) = false
    let was := if s.fld F.GAU_CTL.EN r = 1 then s else s.setGaugeAt r (s.replica 1)
    let byte := fun (u : State) k => Tbl.get (fun _ => (0 : Byte)) u.hbm.mem k
    let wrote := fun (u : State) (l : List Byte) => u.fld F.GAU_PROD.INDEX r = next
      ∧ ∀ k, byte u k = if at_ - 0x1000000000 ≤ k ∧ k < at_ - 0x1000000000 + 16 then l.getD (k - (at_ - 0x1000000000)) 0 else byte s k
    (due → s.gaugePass r = none → s.hbmMapped = true → Completes (.gaugePass ring) s (fun u =>
      u.gaugePass r = some { start := s.gaugeNext r, index := 0, left := s.fld F.GAU_COUNT.QUEUES r, header := true }
      ∧ passes u = (passes s + 1) % 2 ^ 32 ∧ u.gaugeAt r = s.gaugeNext r ∧ u.regs = s.regs))
    ∧ (due → s.gaugePass r = some g ∨ s.hbmMapped = false →
      Completes (.gaugePass ring) s (fun u => OnlyRegs (s.setGaugeAt r (s.gaugeNext r)) u [(.GAU_SKIPPED, r)]
        ∧ (u.rd .GAU_SKIPPED r).toNat = Nat.min (2 ^ 32 - 1) ((s.rd .GAU_SKIPPED r).toNat + 1)))
    ∧ (s.fld F.GAU_CTL.EN r = 0 ∨ s.replica 1 < s.gaugeNext r → Completes (.gaugePass ring) s (fun u => u = s))
    ∧ (turn → reaches → s.fld F.GAU_CTL.LOG2_SIZE r ≤ 24 → next ≠ s.fld F.GAU_CONS.INDEX r →
      (g.header = true → 0 < g.left → Completes (.gaugeRecordWrite ring) s (fun u =>
        wrote u (beBytes 4 (2 ^ 31 + r) ++ beBytes 4 (g.start / 10 ^ 9) ++ beBytes 4 (g.start % 10 ^ 9) ++ beBytes 4 (passes s))
        ∧ u.gaugePass r = some { g with header := false }))
      ∧ (g.header = false → 1 < g.left → s.queue ((s.fld F.GAU_FIRST.QUEUE r + g.index) % 2 ^ 20) = [] →
        Completes (.gaugeRecordWrite ring) s (fun u =>
          wrote u (beBytes 4 ((s.fld F.GAU_FIRST.QUEUE r + g.index) % 2 ^ 20)
            ++ beBytes 4 (s.depth ((s.fld F.GAU_FIRST.QUEUE r + g.index) % 2 ^ 20)) ++ beBytes 4 0
            ++ beBytes 4 (Nat.min (s.replica 1 - g.start) (2 ^ 32 - 1)))
          ∧ u.gaugePass r = some { g with index := g.index + 1, left := g.left - 1 })))
    ∧ (turn → ¬reaches ∨ next = s.fld F.GAU_CONS.INDEX r → Completes (.gaugeRecordWrite ring) s (fun u =>
        u.hbm.mem = s.hbm.mem ∧ u.fld F.GAU_PROD.INDEX r = prod
        ∧ (u.rd .GAU_LOST r).toNat = Nat.min (2 ^ 32 - 1) ((s.rd .GAU_LOST r).toNat + 1)))
    ∧ (s.reachable 1 = true → 8 ≤ v.toNat / 2 % 32 → v.toNat / 2 % 32 ≤ 24 → Completes (.gauCtlWrite ring v) s (fun u => u.fld F.GAU_CTL.EN r = v.toNat % 2
        ∧ u.fld F.GAU_CTL.LOG2_SIZE r = v.toNat / 2 % 32 ∧ u.fld F.GAU_PROD.INDEX r = 0 ∧ u.fld F.GAU_CONS.INDEX r = 0
        ∧ OnlyRegs (was.putReply .ok) u [(.GAU_CTL, r), (.GAU_PROD, r), (.GAU_CONS, r)]))
    ∧ (s.reachable 1 = true → v.toNat / 2 % 32 < 8 ∨ 24 < v.toNat / 2 % 32 →
        Completes (.gauCtlWrite ring v) s (fun u => u = s.putReply .ok)))

/-- R329, R330, R352: key-table commands: the start, a start while BUSY, and the ends of INSTALL, REVOKE and READ on a pinned entry. Model's
choices in it: log entry 35. It says that a next state is answered, and which: install, revoke, keyRead, keyCommandDone. -/
def Obligations.KeyTable : Prop :=
  ∀ (s : State) (c : KeyCmd),
    let stat := fun (u : State) => u.fld F.KEY_TBL_STAT.STATUS 0
    let busy := fun (u : State) => u.fld F.KEY_TBL_STAT.BUSY 0
    let old := s.keyEntry c.idx
    let count := fun (u : State) => u.fld F.KEY_TBL_COUNT.COUNT 0
    let a := c.attr.toNat
    let go := fun i op => s.reachable 0 = true → (busy s = 0 → Completes i s (fun u => busy u = 1 ∧ RegsKept s u [(.KEY_TBL_STAT, 0)] ∧ u.reply = .ok
        ∧ u.keys.cmd = some { op := op, idx := s.fld F.KEY_TBL_IDX.INDEX 0, attr := s.rd .KEY_TBL_ATTR 0, key := s.keyInput }))
      ∧ (busy s = 1 → Completes i s (fun u => OnlyRegs (s.putReply .ok) u [(.KEY_TBL_STAT, 0)] ∧ u.fld F.KEY_TBL_STAT.REJ 0 = 1))
    let ends := fun (u : State) st => stat u = st ∧ busy u = 0 ∧ u.keys.cmd = none ∧ (∀ i < 8, u.rd .KEY_TBL_IN i = 0)
    let pinned := 1 ≤ c.idx ∧ c.idx ≤ 4095
    let usable := bit a 17 = true ∨ bit a 18 = true
    go .install 1 ∧ go .revoke 2 ∧ go .keyRead 3
    ∧ (s.keys.cmd = some c →
      (c.op = 1 → c.idx = 0 ∨ ¬ usable → Completes .keyCommandDone s (fun u => ends u 3 ∧ u.keys.pinned = s.keys.pinned))
      ∧ (c.op = 1 → c.idx ≠ 0 → usable → s.keys.ktk = none → Completes .keyCommandDone s (fun u => ends u 5
          ∧ u.keys.pinned = s.keys.pinned))
      ∧ (c.op = 1 → pinned → usable → s.keys.ktk ≠ none → old.valid = true → Completes .keyCommandDone s (fun u => ends u 1
          ∧ u.keyEntry c.idx = old))
      ∧ (c.op = 1 → pinned → usable → s.keys.ktk ≠ none → old.valid = false → count s < 2 ^ 21 - 1 →
          Completes .keyCommandDone s (fun u => ends u 0 ∧ count u = count s + 1
            ∧ u.keyEntry c.idx = { valid := true, long := bit a 16, enc := bit a 17, dec := bit a 18, gate := bit a 19
                                   ver := old.ver + 1, owner := BitVec.ofNat 16 a
                                   key := if bit a 16 = true then c.key else c.key.take 16 ++ List.replicate 16 0 }
            ∧ ∀ i, i ≠ c.idx → Tbl.get (fun _ => none) u.keys.pinned i = Tbl.get (fun _ => none) s.keys.pinned i))
      ∧ (c.op = 2 → pinned → old.valid = true → 0 < count s → Completes .keyCommandDone s (fun u => ends u 0
          ∧ count u = count s - 1 ∧ u.keyEntry c.idx = { old with valid := false, ver := old.ver + 1 }
          ∧ u.fld F.KEY_TBL_STAT.VER 0 = (old.ver + 1).toNat))
      ∧ (c.op = 2 → pinned → old.valid = false → Completes .keyCommandDone s (fun u => ends u 2 ∧ u.keyEntry c.idx = old))
      ∧ (c.op = 3 → pinned → Completes .keyCommandDone s (fun u => ends u (if old.valid then 0 else 2)
          ∧ u.fld F.KEY_TBL_STAT.VER 0 = old.ver.toNat ∧ (u.rd .KEY_TBL_ATTR 0).toNat % 2 ^ 16 = old.owner.toNat
          ∧ bit (u.rd .KEY_TBL_ATTR 0).toNat 17 = old.enc ∧ u.keyEntry c.idx = old)))

/-- R328, R334 to R336, R506: the Die: a failed health test, a restart and its end, KTK drawn with the first, a reseed; the epoch mark to the
key caches: entries not used since the last mark go. Model's choices in it: log entries 35 and 63; an event whose condition fails changes
nothing (log entry 2). It says that a next state is answered, and which: keyEpoch, dieHealthFail, dieRestart, dieRestartDone, drbgReseed. -/
def Obligations.DieAndKeyCaches : Prop :=
  ∀ (s : State) (rct apt : Bool) (f : Firing),
    let st := fun (u : State) => u.fld F.HDW_DIE_STATUS.STATE 0
    let due := 2 ^ 20 ≤ s.keys.gens ∨ 10 ^ 9 ≤ s.time.tick - s.keys.seeded
    let seeds := fun (u : State) => (u.rd .HDW_DIE_RESEEDS 0).toNat
    (st s = 1 → rct || apt → Completes (.dieHealthFail rct apt) s (fun u => st u = 2
      ∧ (rct = true → u.fld F.HDW_DIE_STATUS.RCT_FAIL 0 = 1) ∧ (apt = true → u.fld F.HDW_DIE_STATUS.APT_FAIL 0 = 1)
      ∧ u.keys.ktk = s.keys.ktk))
    ∧ (s.reachable 0 = true → Completes .dieRestart s (fun u => u.fld F.HDW_DIE_CTL.RESTART 0 = 1
        ∧ OnlyRegs (s.putReply .ok) u [(.HDW_DIE_CTL, 0)]))
    ∧ (s.fld F.HDW_DIE_CTL.RESTART 0 = 1 →
      (rct || apt → Completes (.dieRestartDone rct apt) s (fun u => st u = 2 ∧ u.fld F.HDW_DIE_CTL.RESTART 0 = 0))
      ∧ (st s ≠ 0 → Completes (.dieRestartDone false false) s (fun u => st u = 1 ∧ u.fld F.HDW_DIE_CTL.RESTART 0 = 0
          ∧ u.keys.ktk = s.keys.ktk)))
    ∧ (st s = 0 → Completes (.dieRestartDone false false) s (fun u => st u = 1
        ∧ u.keys.ktk.map List.length = some 32))
    ∧ (st s = 1 → due → Completes .drbgReseed s (fun u => OnlyRegs s.seed u [(.HDW_DIE_RESEEDS, 0)] ∧ u.keys.gens = 0
        ∧ seeds u = Nat.min (2 ^ 32 - 1) (seeds s + 1)))
    ∧ (st s ≠ 1 ∨ ¬due → Completes .drbgReseed s (fun u => u = s))
    ∧ (s.unitWork .vault 6 = { work := none, pend := none } → s.isFenced 0 = false → s.fireDue .vault 6 f = true → Completes (.keyEpoch f) s (fun u =>
        Msg.epochMark ∈ u.out ∧ seeds u = (if st s = 1 then Nat.min (2 ^ 32 - 1) (seeds s + 1) else seeds s)
        ∧ u.keys.pinned = s.keys.pinned ∧ ∀ b < 8, ∀ x < 1024, s.isFenced (8 + b) = false →
          u.keySet b x = if bit f.arg.toNat 0 then [] else ((s.keySet b x).filter (fun w => w.used)).map (fun w => { w with used := false })))

/-- R346 to R350, R355, R356: the sequence unit: a read of CFL_SQ_NEXT grants the next number or refuses, the configuration of a counter, the
scheduled revoke, and the event queue. Model's choices in it: log entry 36. It says that a next state is answered, and which: sqNextRead,
sqConfigWrite, scheduledRevoke, sqEvqRead. -/
def Obligations.SequenceUnit : Prop :=
  ∀ (s : State) (n : BitVec 18) (v : BitVec 32) (th : Nat),
    let k := n.toNat
    let val := s.rd64 .CFL_SQ_VAL .CFL_SQ_VAL_HI k
    let lim := s.rd64 .CFL_SQ_LIMIT .CFL_SQ_LIMIT_HI k
    let hi := fun (u : State) => Tbl.get (fun _ => (0 : Word)) u.keys.sqHi th
    let rej := fun (u : State) => OnlyRegs (s.putReply .ok) u [(.CFL_SQ_REJ, 0)]
      ∧ (u.rd .CFL_SQ_REJ 0).toNat = Nat.min (2 ^ 32 - 1) ((s.rd .CFL_SQ_REJ 0).toNat + 1)
    let en := s.fld F.CFL_SQ_CTL.EN k
    let up := s.reachable 1 = true
    (up → en = 1 → s.fld F.CFL_SQ_CTL.MODE64 k = 1 → val ≤ lim → val + 2 < 2 ^ 64 → Completes (.sqNextRead n (.thread th)) s (fun u =>
      u.reply = .data (BitVec.ofNat 32 val) ∧ hi u = BitVec.ofNat 32 (val / 2 ^ 32)
      ∧ u.rd64 .CFL_SQ_VAL .CFL_SQ_VAL_HI k = (if (val + 1) % 2 ^ 32 = 0 then val + 2 else val + 1)))
    ∧ (up → en = 0 → Completes (.sqNextRead n (.thread th)) s (fun u => u.reply = .data 0 ∧ hi u = 0 ∧ u.regs = s.regs))
    ∧ (up → en = 1 → s.fld F.CFL_SQ_CTL.MODE64 k = 1 → lim < val → s.keys.sqEvq.length < 1024 →
        s.fld F.CFL_SQ_KEY.REVOKE_EN k = 1 → s.fld F.CFL_SQ_CTL.EXHAUSTED k = 0 →
        Completes (.sqNextRead n (.thread th)) s (fun u => u.reply = .data 0 ∧ hi u = 0 ∧ u.fld F.CFL_SQ_CTL.EXHAUSTED k = 1
          ∧ u.keys.sqEvq = s.keys.sqEvq ++ [(k, true)]
          ∧ u.keys.sqRevoke = s.keys.sqRevoke ++ [(k, s.fld F.CFL_SQ_KEY.INDEX k, s.fld F.CFL_SQ_KEY.VER k)]
          ∧ u.rd64 .CFL_SQ_VAL .CFL_SQ_VAL_HI k = val))
    ∧ (up → en = 0 → Completes (.sqConfigWrite .CFL_SQ_CTL n v) s (fun u => u.fld F.CFL_SQ_CTL.EN k = v.toNat % 2
        ∧ u.fld F.CFL_SQ_CTL.MODE64 k = v.toNat / 2 % 2 ∧ OnlyRegs (s.putReply .ok) u [(.CFL_SQ_CTL, k)]
        ∧ (v.toNat % 2 = 1 → u.fld F.CFL_SQ_CTL.EXHAUSTED k = 0 ∧ u.fld F.CFL_SQ_CTL.SOFT_HIT k = 0)))
    ∧ (up → Completes (.sqConfigWrite .CFL_SQ_VAL n v) s (fun u => u.staged .CFL_SQ_VAL k = some v
        ∧ u = (s.putStage u.stage).putReply .ok))
    ∧ (∀ w, up → en = 0 → s.staged .CFL_SQ_VAL k = some w → Completes (.sqConfigWrite .CFL_SQ_VAL_HI n v) s (fun u =>
        u.rd64 .CFL_SQ_VAL .CFL_SQ_VAL_HI k = (if w = 0 then 1 else w.toNat) + v.toNat * 2 ^ 32
        ∧ u.staged .CFL_SQ_VAL k = none ∧ RegsKept s u [(.CFL_SQ_VAL, k), (.CFL_SQ_VAL_HI, k)]))
    ∧ (up → en = 0 → Completes (.sqConfigWrite .CFL_SQ_SOFT n v) s (fun u => u.rd .CFL_SQ_SOFT k = v ∧ OnlyRegs (s.putReply .ok) u [(.CFL_SQ_SOFT, k)]))
    ∧ (up → en = 1 → Completes (.sqConfigWrite .CFL_SQ_SOFT n v) s rej ∧ Completes (.sqConfigWrite .CFL_SQ_VAL_HI n v) s rej)
    ∧ (∀ i ver rest, s.keys.sqRevoke = (k, i, ver) :: rest → 1 ≤ i → i ≤ 4095 → (s.keyEntry i).valid = true →
        (s.keyEntry i).ver.toNat = ver → Completes (.scheduledRevoke n) s (fun u => u.keys.sqRevoke = rest
          ∧ u.keyEntry i = { s.keyEntry i with valid := false, ver := (s.keyEntry i).ver + 1 }))
    ∧ (∀ i ver rest, s.keys.sqRevoke = (k, i, ver) :: rest → (s.keyEntry i).ver.toNat ≠ ver → Completes (.scheduledRevoke n) s (fun u =>
        u.keys.sqRevoke = rest ∧ u.keyEntry i = s.keyEntry i ∧ u.regs = s.regs))
    ∧ (∀ x e rest, s.keys.sqEvq = (x, e) :: rest → up → Completes .sqEvqRead s (fun u => u.keys.sqEvq = rest
        ∧ u.reply = .data (BitVec.ofNat 32 (x + (if e then 2 ^ 30 else 0) + 2 ^ 31))))
    ∧ (s.keys.sqEvq = [] → up → Completes .sqEvqRead s (fun u => u.reply = .data 0 ∧ u.keys = s.keys))

/-- R361, R365, R366, R380, R450: an NVMe controller is enabled, becomes ready and shuts down; its doorbells; the fetch of a submission entry
into a free slot; the end of the quarantine of its slots. Model's choices in it: log entries 38, 39 and 44; an event whose condition fails
changes nothing (log entry 2). It says that a next state is answered, and which: slotQuarantineEnd, ccEnSet, controllerReady, ccShnWrite,
shutdownComplete, sqTailDoorbell, cqHeadDoorbell, submissionFetch, pendingDoorbellApply. -/
def Obligations.StorageControllers : Prop :=
  ∀ (s : State) (n k b size hd x0 : Nat) (q : BitVec 7) (v : BitVec 32) (d : BitVec 16) (l : List (BitVec 32)),
    let host := s.fnExists (instEp n) (instFn n) = true ∧ s.flag F.PCIE_CMD.MSE (fnKey (instEp n) (instFn n)) = true
      ∧ s.reachable (instChip n) = true
    let x := s.nvmeQ n q.toNat
    let turn := s.sqTurn n q.toNat
    let only := fun (u : State) (y : NvmeQueue) => u.nvmeQ n q.toNat = y ∧ (∀ p, p ≠ q.toNat → u.nvmeQ n p = s.nvmeQ n p)
      ∧ u.sto.slots = s.sto.slots ∧ u.hbm = s.hbm ∧ u.cfl = s.cfl
    (host → s.isStorage n = true → s.insState n = 0 → s.fld F.NVME_CC.EN n = 0 → v.toNat % 2 = 1 → s.stoReady = true →
      Completes (.ccEnSet n v) s (fun u => u.insState n = 1 ∧ u.fld F.NVME_CC.EN n = 1
        ∧ (u.nvmeQ n 0).sq = some (s.rd64 .NVME_ASQ .NVME_ASQ_HI n, s.fld F.NVME_AQA.ASQS n + 1)
        ∧ (u.nvmeQ n 0).cq = some (s.rd64 .NVME_ACQ .NVME_ACQ_HI n, s.fld F.NVME_AQA.ACQS n + 1)
        ∧ u.reply = .ok ∧ RegsKept s u [(.NVME_CC, n), (.RNG_FN_FRZ, n)]))
    ∧ (s.fld F.NVME_CC.EN n = 1 → s.fld F.NVME_CSTS.CFS n = 0 → s.stoReady = true → Completes (.controllerReady n) s (fun u =>
        u.fld F.NVME_CSTS.RDY n = 1 ∧ OnlyRegs s u [(.NVME_CSTS, n)]))
    ∧ (host → s.isStorage n = true → v.toNat / 2 ^ 14 % 4 = 1 ∨ v.toNat / 2 ^ 14 % 4 = 2 → Completes (.ccShnWrite n v) s (fun u =>
        u.fld F.NVME_CC.SHN n = v.toNat / 2 ^ 14 % 4 ∧ u.fld F.NVME_CSTS.SHST n = 1
        ∧ RegsKept s u [(.NVME_CC, n), (.NVME_CSTS, n)] ∧ u.sto = s.sto))
    ∧ (s.fld F.NVME_CSTS.SHST n = 1 → s.noSlots n = true → Completes (.shutdownComplete n) s (fun u =>
        u.fld F.NVME_CSTS.SHST n = 2 ∧ OnlyRegs s u [(.NVME_CSTS, n)]))
    ∧ (host → s.isStorage n = true → s.insState n = 1 → x.sq = some (b, size) → x.pend = none →
      (s.bellReady n = true → d.toNat < size → Completes (.sqTailDoorbell n q d) s (fun u => only u { x with tail := d.toNat }
        ∧ RegsKept s u []))
      ∧ (s.bellReady n = false → Completes (.sqTailDoorbell n q d) s (fun u => only u { x with pend := some d.toNat })))
    ∧ (s.bellReady n = true → s.insState n = 1 → s.isStorage n = true → x.sq = some (b, size) → x.pend = some x0 → x0 < size →
        Completes (.pendingDoorbellApply n q false) s (fun u => only u { x with pend := none, tail := x0 } ∧ RegsKept s u []))
    ∧ (host → s.insState n ≠ 2 → x.cq = some (b, size) → d.toNat < size → Completes (.cqHeadDoorbell n q d) s (fun u =>
        only u { x with cqHead := d.toNat } ∧ RegsKept s u []))
    ∧ (s.sqMay n q.toNat = true → s.pickSlot (instBank n) n = some k → turn.1 = true → x.sq = some (b, size) → hd = (x.head + 1) % size →
        s.entryCellCount + s.fld F.CFL_CELL_FLOOR.CELLS 0 ≤ s.cfl.books.free →
        (l.getD 0 0).toNat % 256 ∈ (if q = 0 then [0x06, 0x02, 0x09, 0x0A, 0x01, 0x05, 0x00, 0x04, 0x08, 0x0C]
          else [0x02, 0x01, 0x08, 0x00, 0x09]) →
        Completes (.submissionFetch n q (some l)) s (fun u => u.nvmeQ n q.toNat = { turn.2.nvmeQ n q.toNat with head := hd }
          ∧ (∃ c, u.stoCell k = { sgen := (s.stoCell k).sgen + 1, cmd := some c, quar := none } ∧ c.inst = n ∧ c.q = q.toNat
              ∧ c.cid = (l.getD 0 0).toNat / 2 ^ 16 ∧ c.sqhd = hd ∧ c.entry = l ∧ c.st = .fetched
              ∧ c.cells.length = s.entryCellCount)
          ∧ (∀ j, j ≠ k → u.stoCell j = s.stoCell j) ∧ u.cfl.books = s.cfl.books.alloc s.entryCellCount ∧ u.hbm = s.hbm))
    ∧ (turn.1 = false → Completes (.submissionFetch n q (some l)) s (fun u => u = s))
    ∧ (Tbl.wf (fun _ => cellReset) s.sto.slots = true → Completes (.slotQuarantineEnd n) s (fun u =>
        RegsKept s u [(.BNK_STO_SLOTS, instBank n)] ∧ ∀ j, u.stoCell j
          = if (s.stoCell j).quar = some n then { s.stoCell j with quar := none } else s.stoCell j))

/-- R362 to R364, R378, R380, R381: the admin commands and the ends that they have, the completion word of a program, and the completion entry
in host memory. Model's choices in it: the NVMe statuses and data of log entry 37; the completion of a waiting ended slot (log entry 39);
an event whose condition fails changes nothing (log entry 2). It says that a next state is answered, and which: identify, getLogPage,
setFeatures, getFeatures, createIoSubmissionQueue, createIoCompletionQueue, deleteIoSubmissionQueue, deleteIoCompletionQueue, nvmeAbort,
asynchronousEventRequest, flush, stoCplWrite, completionEntryWrite. -/
def Obligations.StorageAdmin : Prop :=
  ∀ (s : State) (bank : BitVec 2) (slot : BitVec 14) (c : StoSlot) (v : BitVec 32) (x0 size dw0 sct sc dnr : Nat),
    let k := bank.toNat * 16384 + slot.toNat
    let n := c.inst
    let cns := c.dw 10 % 256
    let has := fun (op : Nat) => s.stoCmd k = some c ∧ c.st = .fetched ∧ c.q = 0 ∧ c.op = op
    let others := fun (u : State) => (∀ j, j ≠ k → u.stoCell j = s.stoCell j) ∧ u.hbm = s.hbm
    let ends := fun (u : State) d a e r => u.stoCmd k = some { c with st := .ended d a e r } ∧ others u
      ∧ u.cfl.books = s.cfl.books.pipeToReclaim c.cells.length ∧ u.cfl.rcl = s.cfl.rcl ++ c.cells
    let fails := fun (u : State) a e => ends u 0 a e 1 ∧ u.sto.queue = s.sto.queue ∧ u.sto.ctl = s.sto.ctl ∧ u.out = s.out
      ∧ (u.rd .BNK_STO_ERRS bank.toNat).toNat = Nat.min (2 ^ 32 - 1) ((s.rd .BNK_STO_ERRS bank.toNat).toNat + 1)
      ∧ RegsKept s u [(.BNK_STO_ERRS, bank.toNat)]
    let succeeds := fun (u : State) d => ends u d 0 0 0 ∧ RegsKept s u []
    let qid := c.dw 10 % 2 ^ 16
    let y := s.nvmeQ n qid
    let z := s.nvmeQ n (s.nvmeQ n c.q).cqid
    let cqid := c.dw 11 / 2 ^ 16 % 2 ^ 16
    let fits := s.qidOk n qid = true ∧ 63 ≤ c.dw 10 / 2 ^ 16 ∧ c.dw 11 % 2 = 1
    let waits := s.slotsWhere (instBank n) (fun x => match x.cmd with | some y => y.inst == n && y.st == .event | none => false)
    (has 0x06 → (cns = 1 → Completes (.identify bank slot) s (fun u => succeeds u 0 ∧ u.out = (s.toPrp c idCtrl).out))
      ∧ (cns = 2 → Completes (.identify bank slot) s (fun u => succeeds u 0 ∧ u.out = (s.toPrp c (s.idList n (c.dw 1))).out))
      ∧ (cns = 0 → 1 ≤ c.dw 1 → c.dw 1 ≤ 16 → Completes (.identify bank slot) s (fun u => succeeds u 0
          ∧ u.out = (s.toPrp c (s.idNs n (c.dw 1))).out))
      ∧ (2 < cns → Completes (.identify bank slot) s (fun u => fails u 0 0x02)))
    ∧ (has 0x02 → (cns = 4 → Completes (.getLogPage bank slot) s (fun u => succeeds u 0
          ∧ u.nvmeCtl n = { s.nvmeCtl n with changed := [] }))
      ∧ (cns = 2 → Completes (.getLogPage bank slot) s (fun u => succeeds u 0 ∧ u.nvmeCtl n = s.nvmeCtl n))
      ∧ (cns ≠ 2 → cns ≠ 4 → Completes (.getLogPage bank slot) s (fun u => fails u 1 0x09)))
    ∧ (has 0x09 → (cns = 7 → Completes (.setFeatures bank slot) s (fun u => succeeds u (s.queueCount n)))
      ∧ (cns = 0x0B → c.dw 11 < 2 ^ 32 → Completes (.setFeatures bank slot) s (fun u => succeeds u 0
          ∧ (u.nvmeCtl n).aec.toNat = c.dw 11))
      ∧ (cns ≠ 7 → cns ≠ 0x0B → Completes (.setFeatures bank slot) s (fun u => fails u 0 0x02)))
    ∧ (has 0x0A → (cns = 7 → Completes (.getFeatures bank slot) s (fun u => succeeds u (s.queueCount n)))
      ∧ (cns = 0x0B → Completes (.getFeatures bank slot) s (fun u => succeeds u (s.nvmeCtl n).aec.toNat))
      ∧ (cns ≠ 7 → cns ≠ 0x0B → Completes (.getFeatures bank slot) s (fun u => fails u 0 0x02)))
    ∧ (has 0x05 → fits → y.cq = none → Completes (.createIoCompletionQueue bank slot) s (fun u => succeeds u 0
        ∧ u.nvmeQ n qid = { y with cq := some (c.prp1, c.dw 10 / 2 ^ 16 % 2 ^ 16 + 1), vec := c.dw 11 / 2 ^ 16 % 2 ^ 16
                                   ien := (c.dw 11).testBit 1 }))
    ∧ (has 0x05 → s.qidOk n qid = false → Completes (.createIoCompletionQueue bank slot) s (fun u => fails u 1 0x01))
    ∧ (has 0x05 → s.qidOk n qid = true → y.cq ≠ none → y.cq ≠ some (c.prp1, c.dw 10 / 2 ^ 16 % 2 ^ 16 + 1) →
        Completes (.createIoCompletionQueue bank slot) s (fun u => fails u 1 0x01))
    ∧ (has 0x01 → fits → y.sq = none → s.qidOk n cqid = true → (s.nvmeQ n cqid).cq ≠ none →
        Completes (.createIoSubmissionQueue bank slot) s (fun u => succeeds u 0
          ∧ u.nvmeQ n qid = { y with sq := some (c.prp1, c.dw 10 / 2 ^ 16 % 2 ^ 16 + 1), cqid := cqid
                                     tail := 0, head := 0, pend := none }))
    ∧ (has 0x01 → fits → y.sq = none → s.qidOk n cqid = false ∨ (s.nvmeQ n cqid).cq = none →
        Completes (.createIoSubmissionQueue bank slot) s (fun u => fails u 1 0x00))
    ∧ (has 0x00 → Completes (.deleteIoSubmissionQueue bank slot) s (fun u => succeeds u 0 ∧ u.sto.queue = s.sto.queue))
    ∧ (has 0x04 → Completes (.deleteIoCompletionQueue bank slot) s (fun u => succeeds u 0 ∧ u.sto.queue = s.sto.queue))
    ∧ (has 0x08 → Completes (.nvmeAbort bank slot) s (fun u => succeeds u 1 ∧ u.sto.queue = s.sto.queue))
    ∧ (has 0x0C → waits.length < 4 → (s.nvmeCtl n).notices = 0 → Completes (.asynchronousEventRequest bank slot) s (fun u =>
        u.stoCmd k = some { c with st := .event } ∧ others u ∧ u.cfl = s.cfl ∧ RegsKept s u []))
    ∧ (has 0x0C → 4 ≤ waits.length → Completes (.asynchronousEventRequest bank slot) s (fun u => fails u 1 0x05))
    ∧ (s.reachable (bankChip bank.toNat) = true → v.toNat % 2 ^ 14 = slot.toNat → s.stoCmd k = some c →
        (s.stoCell k).sgen.toNat = v.toNat / 2 ^ 14 % 16 →
        Completes (.stoCplWrite bank v) s (fun u => others u ∧ RegsKept s u []
          ∧ u.holdQ bank.toNat = (s.holdQ bank.toNat).erase k
          ∧ u.cfl.books = (if [SlotSt.fetched, .held, .flush, .event].contains c.st then s.cfl.books.pipeToReclaim c.cells.length
              else s.cfl.books)
          ∧ u.stoCmd k = some { c with st := .ended 0 (v.toNat / 2 ^ 26 % 8) (v.toNat / 2 ^ 18 % 2 ^ 8) (v.toNat / 2 ^ 29 % 2) }))
    ∧ (s.reachable (bankChip bank.toNat) = true → v.toNat % 2 ^ 14 = slot.toNat →
        s.stoCmd k = none ∨ (s.stoCell k).sgen.toNat ≠ v.toNat / 2 ^ 14 % 16 →
        Completes (.stoCplWrite bank v) s (fun u => u.sto = s.sto ∧ RegsKept s u [(.BNK_STO_LATE, bank.toNat)]
          ∧ (u.rd .BNK_STO_LATE bank.toNat).toNat = Nat.min (2 ^ 32 - 1) ((s.rd .BNK_STO_LATE bank.toNat).toNat + 1)))
    ∧ (s.stoCmd k = some c → c.st = .ended dw0 sct sc dnr → z.cq = some (x0, size) → (z.cqTail + 1) % size ≠ z.cqHead →
        s.insIssues n = true → z.ien = false → Completes (.completionEntryWrite bank slot) s (fun u =>
          u.out = s.out ++ [.hostWrite (instEp n) (instFn n) (x0 + z.cqTail * 16)
            (leBytes 4 dw0 ++ leBytes 4 0 ++ leBytes 4 (c.sqhd + c.q * 2 ^ 16)
              ++ leBytes 4 (c.cid + b2n z.phase * 2 ^ 16 + cplStatus sct sc dnr)) false]
          ∧ u.nvmeQ n (s.nvmeQ n c.q).cqid = { z with cqTail := (z.cqTail + 1) % size
                                                      phase := if (z.cqTail + 1) % size = 0 then !z.phase else z.phase }
          ∧ u.stoCmd k = none ∧ others u ∧ RegsKept s u [(.BNK_STO_SLOTS, bank.toNat)]))

/-- R362, R367 to R370, R373: the I/O commands, in a state where no line of HBM is cached, poisoned or in error: the pages a command names; a
checked Read, Write or Write Zeroes is translated and sent; a write of an unbacked or moving extent is held; a refused one ends; Flush
waits for earlier writes; Dataset Management; the end of a hold. Model's choices in it: log entries 37 and 39; an event whose condition
fails changes nothing (log entry 2). It says that a next state is answered, and which: holdTimeout, nvmeRead, nvmeWrite, writeZeroes,
flush, flushComplete, datasetManagement. -/
def Obligations.StorageTransfers : Prop :=
  ∀ (s : State) (bank : BitVec 2) (slot : BitVec 14) (c : StoSlot) (l : List (BitVec 64)) (rs : List (BitVec 8)) (ns : Nat)
    (prps : Option (List (BitVec 64))) (data : Option (List (BitVec 8))),
    let k := bank.toNat * 16384 + slot.toNat
    let has := fun (op : Nat) => s.stoCmd k = some c ∧ c.st = .fetched ∧ c.q ≠ 0 ∧ c.op = op
    let others := fun (u : State) => ∀ j, j ≠ k → u.stoCell j = s.stoCell j
    let ends := fun (u : State) (m : Option Nat) a e r => u.stoCmd k = some { c with ns := m, st := .ended 0 a e r } ∧ others u
      ∧ u.cfl.books = s.cfl.books.pipeToReclaim c.cells.length ∧ u.cfl.rcl = s.cfl.rcl ++ c.cells ∧ u.hbm = s.hbm
    let t := stoRange (s.nsRec ns) c.slba c.nlb
    let xs := t.1 :: t.2.1.toList
    let pages := prpCount c.prp1 t.2.2.1
    let calm := s.hbm.dir = [] ∧ s.hbm.home = [] ∧ s.hbm.poison = [] ∧ s.plat.ecc = [] ∧ (List.range 4).all (fun j => s.reachable (2 + j)) = true
    let good := c.plain = true ∧ s.stoReady = true ∧ s.nsFor c.inst (c.dw 1) = some ns ∧ calm ∧ c.inst < 65536
    let room := (s.sideBuf bank.toNat).length < 64
    let inside := c.slba + c.nlb + 1 ≤ rdAt (s.nsRec ns) 8 8 ∧ t.2.2.1 ≤ 0x100000
      ∧ ∀ x ∈ xs, x < rdAt (s.nsRec ns) 0 4 % 2 ^ 30 + rdAt (s.nsRec ns) 4 4 % 2 ^ 31 ∧ x < 2 ^ 30
    let got := (s.prpPages c pages (some (l.map BitVec.toNat))).1.getD ([], [])
    let page := fun i => (c.prp1 :: got.1).getD i 0
    let lists := (got.1 ++ got.2).all (fun p => p % 4096 == 0) = true
    let backed := ∀ x ∈ xs, (s.extent x).testBit 63 = true ∧ (s.extent x).testBit 60 = false ∧ (s.extent x).testBit 61 = false
    let copied := fun (u : State) => ∀ i, i < pages → leNat (u.hbmRead (prpOff + k * 4096 + 8 * i) 8)
      = page i % 2 ^ 64
    let sent := fun (u : State) ys => u.stoCmd k = some { c with ns := some ns, st := .sent, epoch := some s.sto.epoch, exts := ys } ∧ others u
    let held := fun (u : State) => u.stoCmd k = some { c with ns := some ns, st := .held, exts := xs } ∧ others u ∧ u.cfl = s.cfl
      ∧ u.holdQ bank.toNat = s.holdQ bank.toNat ++ [k]
    let holds := (∀ x ∈ xs, (s.extent x).testBit 61 = false) ∧ (s.holdQ bank.toNat).length < 256
      ∧ xs.any (fun x => !(s.extent x).testBit 63 || (s.extent x).testBit 60) = true
    (good → (pages = 2 → page 1 = c.prp2)
      ∧ (3 ≤ pages → c.prp2 % 8 = 0 → pages - 1 ≤ (4096 - c.prp2 % 4096) / 8 → ∀ i, i + 1 < pages → page (i + 1) = (l.getD i 0).toNat))
    ∧ (good → room → inside → lists → has 0x02 → Completes (.nvmeRead bank slot (some l)) s (fun u => sent u xs ∧ copied u))
    ∧ (good → room → inside → lists → backed → has 0x01 → Completes (.nvmeWrite bank slot (some l)) s (fun u => sent u xs ∧ copied u))
    ∧ (good → inside → lists → holds → has 0x01 → Completes (.nvmeWrite bank slot (some l)) s (fun u => held u ∧ copied u))
    ∧ (good → room → inside → backed → has 0x08 → Completes (.writeZeroes bank slot) s (fun u => sent u xs ∧ u.hbm = s.hbm))
    ∧ (good → inside → holds → has 0x08 → Completes (.writeZeroes bank slot) s (fun u => held u ∧ u.hbm = s.hbm))
    ∧ (good → rdAt (s.nsRec ns) 8 8 < c.slba + c.nlb + 1 →
      (has 0x02 → Completes (.nvmeRead bank slot prps) s (fun u => ends u (some ns) 0 0x80 1))
      ∧ (has 0x01 → Completes (.nvmeWrite bank slot prps) s (fun u => ends u (some ns) 0 0x80 1)))
    ∧ (good → inside → lists → xs.any (fun x => (s.extent x).testBit 61) = true → has 0x01 →
      Completes (.nvmeWrite bank slot (some l)) s (fun u => u.stoCmd k = some { c with ns := some ns, st := .ended 0 0 0x20 1 } ∧ others u))
    ∧ (good → inside → ¬lists → has 0x02 → Completes (.nvmeRead bank slot (some l)) s (fun u => ends u (some ns) 0 0x13 1))
    ∧ (c.plain = false → (has 0x02 → Completes (.nvmeRead bank slot prps) s (fun u => ends u c.ns 0 0x02 1))
      ∧ (has 0x01 → Completes (.nvmeWrite bank slot prps) s (fun u => ends u c.ns 0 0x02 1))
      ∧ (has 0x08 → Completes (.writeZeroes bank slot) s (fun u => ends u c.ns 0 0x02 1))
      ∧ (has 0x00 → Completes (.flush bank slot) s (fun u => ends u c.ns 0 0x02 1))
      ∧ (has 0x09 → Completes (.datasetManagement bank slot data) s (fun u => ends u c.ns 0 0x02 1)))
    ∧ (good → has 0x00 → Completes (.flush bank slot) s (fun u => u.stoCmd k = some { c with st := .flush, ns := some ns } ∧ others u
        ∧ u.hbm = s.hbm ∧ u.cfl = s.cfl ∧ RegsKept s u []))
    ∧ (s.stoCmd k = some c → c.st = .flush → (s.slotsWhere bank.toNat (s.earlierWrite c) = [] →
        Completes (.flushComplete bank slot) s (fun u => ends u c.ns 0 0 0 ∧ RegsKept s u []))
      ∧ (s.slotsWhere bank.toNat (s.earlierWrite c) ≠ [] → Completes (.flushComplete bank slot) s (fun u => u = s)))
    ∧ (good → room → has 0x09 → (c.dw 10 % 256 + 1) * 16 ≤ 4096 - c.prp1 % 4096 ∨ c.prp2 % 4096 = 0 → Completes (.datasetManagement bank slot (some rs)) s (fun u => sent u [rdAt (s.nsRec ns) 0 4 % 2 ^ 30]
        ∧ u.hbmRead (prpOff + k * 4096) ((c.dw 10 % 256 + 1) * 16) = fitBytes ((c.dw 10 % 256 + 1) * 16) rs))
    ∧ (s.stoCmd k = some c → c.st = .held →
      (c.exts.any (fun x => !(s.extent x).testBit 63) = true → Completes (.holdTimeout bank slot) s (fun u => ends u c.ns 0 0x81 1
        ∧ u.holdQ bank.toNat = (s.holdQ bank.toNat).erase k))
      ∧ ((∀ x ∈ c.exts, (s.extent x).testBit 63 = true) → Completes (.holdTimeout bank slot) s (fun u => ends u c.ns 0 0x82 0
        ∧ u.holdQ bank.toNat = (s.holdQ bank.toNat).erase k)))

/-- R369, R374, R377, R382, R383: staging buffers, allocation events, and the command block that writes and reads extents, namespace records
and NSID maps. Model's choices in it: the load and BUSY readings of log entry 39. It says that a next state is answered, and which:
stgAlloc, stgFree, stoEvqRead, extWrite, extRead, nsWrite, nsRead, mapWrite, mapRead. -/
def Obligations.StorageTables : Prop :=
  ∀ (s : State) (bank : BitVec 2) (v : BitVec 32) (x : Nat) (t : List Nat),
    let b := bank.toNat
    let up := s.reachable (bankChip b) = true
    let calm := s.hbm.dir = [] ∧ s.hbm.home = [] ∧ s.hbm.poison = [] ∧ s.plat.ecc = [] ∧ (List.range 4).all (fun j => s.reachable (2 + j)) = true
    let taken := fun (u : State) j => Tbl.get (fun _ => false) u.sto.stage j
    let full := (s.sto.stage.filter (fun e => e.1 / 65536 == b)).length
    let byte := fun (u : State) j => Tbl.get (fun _ => (0 : Byte)) u.hbm.mem j
    let idx := s.cmdIdx b
    let wrote := fun (u : State) (a n : Nat) => u.hbmRead a n = s.cmdBytes b n ∧ (∀ j, j < a ∨ a + n ≤ j → byte u j = byte s j)
      ∧ u.fld F.STO_CMD_STAT.NOHBM b = 0 ∧ u.reply = .ok
    let loaded := fun (u : State) (a n : Nat) => (∀ i, i < n → u.rd .STO_CMD_DATA (b * 16 + i) = BitVec.ofNat 32 (s.hbmNat (a + 4 * i) 4))
      ∧ u.fld F.STO_CMD_STAT.NOHBM b = 0 ∧ u.hbm.mem = s.hbm.mem ∧ u.sto = s.sto
      ∧ RegsKept s u ((.STO_CMD_STAT, b) :: (List.range n).map (fun i => (.STO_CMD_DATA, b * 16 + i)))
    let nothing := fun (u : State) => u.hbm = s.hbm ∧ u.sto = s.sto ∧ u.fld F.STO_CMD_STAT.NOHBM b = 1
      ∧ RegsKept s u [(.STO_CMD_STAT, b)]
    let rejected := fun (u : State) => u.fld F.STO_CMD_STAT.REJ b = 1 ∧ OnlyRegs (s.putReply .ok) u [(.STO_CMD_STAT, b)]
    (up → full < 65536 → Completes (.stgAlloc bank) s (fun u =>
        let j := (match u.reply with | .data w => w.toNat | _ => 0) - 0x1C0000
        j / 65536 = b ∧ taken s j = false ∧ taken u j = true
        ∧ u.reply = .data (BitVec.ofNat 32 (0x1C0000 + j)) ∧ (∀ i, i ≠ j → taken u i = taken s i) ∧ u.regs = s.regs))
    ∧ (up → 65536 ≤ full → Completes (.stgAlloc bank) s (fun u => u = s.putReply (.data 0)))
    ∧ (up → (v.toNat = 0x1C0000 + x ∧ x / 65536 = b ∧ taken s x = true → Completes (.stgFree bank v) s (fun u =>
          taken u x = false ∧ (∀ i, i ≠ x → taken u i = taken s i) ∧ u.regs = s.regs))
      ∧ (v.toNat < 0x1C0000 ∨ (v.toNat - 0x1C0000) / 65536 ≠ b ∨ taken s (v.toNat - 0x1C0000) = false →
        Completes (.stgFree bank v) s (fun u => u.sto = s.sto ∧ RegsKept s u [(.BNK_STO_STG_ERR, b)]
          ∧ (u.rd .BNK_STO_STG_ERR b).toNat = Nat.min (2 ^ 32 - 1) ((s.rd .BNK_STO_STG_ERR b).toNat + 1))))
    ∧ (up → s.evq b = x :: t → Completes (.stoEvqRead bank) s (fun u => u.reply = .data (BitVec.ofNat 32 (x % 2 ^ 30 + 2 ^ 31))
        ∧ u.evq b = t ∧ u.regs = s.regs ∧ u.sto.slots = s.sto.slots))
    ∧ (up → s.evq b = [] → Completes (.stoEvqRead bank) s (fun u => u = s.putReply (.data 0)))
    ∧ (up → s.hbmMapped = true → s.fld F.STO_CMD_STAT.BUSY b = 0 → calm →
      Completes (.extWrite bank) s (fun u => wrote u (extOff + idx * 8) 8 ∧ u.sto.epoch = s.sto.epoch + 1)
      ∧ Completes (.nsWrite bank) s (fun u => wrote u (nsOff + idx % 65536 * 32) 32)
      ∧ Completes (.mapWrite bank) s (fun u => wrote u (mapOff + idx % 65536 * 64) 64)
      ∧ Completes (.extRead bank) s (fun u => loaded u (extOff + idx * 8) 2)
      ∧ Completes (.nsRead bank) s (fun u => loaded u (nsOff + idx % 65536 * 32) 8)
      ∧ Completes (.mapRead bank) s (fun u => loaded u (mapOff + idx % 65536 * 64) 16))
    ∧ (up → s.hbmMapped = false → s.fld F.STO_CMD_STAT.BUSY b = 0 → Completes (.extWrite bank) s nothing ∧ Completes (.nsWrite bank) s nothing
      ∧ Completes (.mapWrite bank) s nothing ∧ Completes (.extRead bank) s nothing ∧ Completes (.nsRead bank) s nothing
      ∧ Completes (.mapRead bank) s nothing)
    ∧ (up → s.fld F.STO_CMD_STAT.BUSY b = 1 → Completes (.extWrite bank) s rejected ∧ Completes (.nsWrite bank) s rejected
      ∧ Completes (.mapWrite bank) s rejected ∧ Completes (.extRead bank) s rejected ∧ Completes (.nsRead bank) s rejected
      ∧ Completes (.mapRead bank) s rejected)

/-- R387, R391 to R396, R398, R404: a host endpoint: its links, the readiness of its functions, VF Enable, DOE, ATS invalidation, power
management, aperture bases, and MSI-X. The words of DOE and SPDM are presumed (log entry 70). Model's choices in it: the PCIe registers of
log entry 40, the readings of log entry 41, the ATS queue of log entry 45; an event whose condition fails changes nothing (log entry 2).
It says that a next state is answered, and which: endpointReset, registerWrite, pcieLinkUp, pcieLinkDown, configReady, vfEnableSet,
vfEnableClear, atsInvalidate, doeObject, doeAbort, pmStateWrite, apBaseWrite, msixEvent, msixUnmask. -/
def Obligations.HostEndpoints : Prop :=
  ∀ (s : State) (ep : BitVec 5) (fn vec : BitVec 11) (a : BitVec 4) (n page : Nat) (d bme mse : Bool) (v w : BitVec 32)
    (obj : List (BitVec 32)),
    let e := ep.toNat
    let f := fn.toNat
    let k := fnKey e f
    let x := vecKey e f vec.toNat
    let up := s.reachable (bankChip (epBank e)) = true
    let ready := fun g => s.fnExists e g = true ∧ up ∧ s.fld F.PCIE_RDY.RDY (fnKey e g) = 1
    let runs := s.endpointsRun = true
    let head := (obj.getD 0 0).toNat
    let object := fun t => ready f ∧ (f = 0 ∨ f = pf1Fn) ∧ 2 ≤ obj.length ∧ obj.length ≤ 1024 ∧ head % 2 ^ 16 = 1 ∧ head / 2 ^ 16 % 2 ^ 8 = t
    let waits := s.plat.atsWait.filter (fun y => y.1 == e)
    let drops := fun (u : State) => RegsKept s u [] ∧ u.ring = s.ring
      ∧ Tbl.get (fun _ => []) u.plat.ats e = (Tbl.get (fun _ => []) s.plat.ats e).filter (fun y => y.1 != f || y.2.1 != page)
    let message : Msg := .msix e f vec.toNat (s.rd64 .PCIE_MSIX_ADDR .PCIE_MSIX_ADDR_HI x) (s.rd .PCIE_MSIX_DATA x)
    let doe := fun (u : State) => Tbl.get (fun _ => []) u.plat.doe k
    let same := fun (u : State) (l : List (Reg × Nat)) => RegsKept s u l ∧ u.out = s.out ∧ u.ring = s.ring ∧ u.sto = s.sto
    let enabled := s.fnExists e f = true ∧ vec.toNat < s.vecCount e f ∧ s.fld F.PCIE_MSIX_CTL.EN k = 1
    let sends := s.fld F.PCIE_MSIX_CTL.FMASK k = 0 ∧ s.mayIssue e f = true
      ∧ (f = pf1Fn ∨ (s.insState (e * 1025 + f) ≠ 3 ∧ s.insState (e * 1025 + f) ≠ 4))
    let bar := s.pf1Present e = true ∧ s.fld F.PCIE_CMD.MSE (fnKey e pf1Fn) = 1 ∧ up
    (runs → Completes (.endpointReset ep) s (fun u => u.fld F.PCI_EP_STAT.LINKA_UP e = 0 ∧ u.fld F.PCI_EP_STAT.LINKB_UP e = 0
        ∧ u.fld F.PCI_EP_STAT.READY e = 0 ∧ u.insState (e * 1025) = 2 ∧ u.fld F.PCIE_SRIOV.VFE e = 0
        ∧ u.fld F.PCIE_RDY.RDY (fnKey e 0) = 0 ∧ u.fld F.PCIE_RDY.RDY (fnKey e pf1Fn) = 0))
    ∧ (s.endpointsRun = false → Completes (.endpointReset ep) s (fun u => u = s))
    ∧ (runs → up → s.plat.epBad.getLsbD e = false →
      Completes (.pcieLinkUp ep false) s (fun u => Settles (s.setFld F.PCI_EP_STAT.LINKA_UP e 1) u)
      ∧ (s.fld F.PCI_EP_CFG.SPLIT_EFF e = 1 → s.pf1Present e = true → Completes (.pcieLinkUp ep true) s (fun u =>
          u = s.setFld F.PCI_EP_STAT.LINKB_UP e 1)))
    ∧ (s.fld F.PCI_EP_STAT.LINKA_UP e = 1 → Completes (.pcieLinkDown ep false) s (fun u => u.fld F.PCI_EP_STAT.LINKA_UP e = 0
        ∧ u.insState (e * 1025) = 2 ∧ u.fld F.PCIE_RDY.RDY (fnKey e 0) = 0 ∧ u.fld F.PCIE_SRIOV.VFE e = 0))
    ∧ (s.fld F.PCI_EP_STAT.LINKB_UP e = 1 → Completes (.pcieLinkDown ep true) s (fun u => u.fld F.PCI_EP_STAT.LINKB_UP e = 0
        ∧ u.fld F.PCIE_RDY.RDY (fnKey e pf1Fn) = 0 ∧ u.insState (e * 1025) = s.insState (e * 1025)))
    ∧ (runs → up → s.fnExists e f = true → Completes (.configReady ep fn) s (fun u => u.fld F.PCIE_RDY.RDY k = 1
        ∧ same u [(.PCIE_RDY, k), (.PCI_EP_STAT, e)]))
    ∧ (ready 0 → s.fld F.PCIE_SRIOV.VFE e = 0 →
      (n ≤ s.fld F.PCI_EP_CFG.TOTALVFS e → Completes (.vfEnableSet ep n) s (fun u => u.fld F.PCIE_SRIOV.VFE e = 1
        ∧ u.fld F.PCIE_SRIOV.NUMVFS e = n ∧ same u [(.PCIE_SRIOV, e), (.PCI_EP_STAT, e)]))
      ∧ (s.fld F.PCI_EP_CFG.TOTALVFS e < n → Completes (.vfEnableSet ep n) s (fun u => u = s.putReply .ok)))
    ∧ (ready 0 → s.fld F.PCIE_SRIOV.VFE e = 1 → s.fld F.PCIE_SRIOV.NUMVFS e ≤ 1024 → Completes (.vfEnableClear ep) s (fun u =>
        u.fld F.PCIE_SRIOV.VFE e = 0 ∧ ∀ g, 1 ≤ g → g ≤ s.fld F.PCIE_SRIOV.NUMVFS e → u.insState (e * 1025 + g) = 2))
    ∧ (s.fnExists e f = true → f ≠ pf1Fn → waits.length < 32 →
      (s.plat.atsWait = [] → s.atsBusy e f page = false → Completes (.atsInvalidate ep fn page) s (fun u => drops u
          ∧ u.plat.atsWait = [] ∧ u.out = s.out ++ [.atsCompletion e f page]))
      ∧ (s.plat.atsWait = [] → s.atsBusy e f page = true → Completes (.atsInvalidate ep fn page) s (fun u => drops u
          ∧ u.plat.atsWait = [(e, f, page)] ∧ u.out = s.out)))
    ∧ (32 ≤ waits.length → Completes (.atsInvalidate ep fn page) s (fun u => u = s))
    ∧ (object 0 → Completes (.doeObject ep fn obj) s (fun u => doe u = doeDiscovery ((obj.getD 2 0).toNat % 2 ^ 8)
        ∧ u.reply = .ok ∧ same u []))
    ∧ (object 1 → Completes (.doeObject ep fn obj) s (fun u => doe u = s.doeSpdm obj ∧ u.reply = .ok
        ∧ u.free = s.free + 1 ∧ same u []))
    ∧ (object 1 → (obj.getD 2 0).toNat / 2 ^ 8 % 2 ^ 8 = 0x84 → Completes (.doeObject ep fn obj) s (fun u =>
        doe u = [0x00010001, 5, 0x00000410, 0x12000200, 0x00001300]))
    ∧ (ready f → Completes (.doeAbort ep fn) s (fun u => doe u = [] ∧ same u []))
    ∧ (ready f → f = 0 ∨ f = pf1Fn → s.pendingVecs e f = [] → Completes (.pmStateWrite ep fn d bme mse) s (fun u =>
        u.fld F.PCIE_PMCSR.STATE k = (if d then 3 else 0) ∧ u.fld F.PCIE_CMD.BME k = b2n bme ∧ u.fld F.PCIE_CMD.MSE k = b2n mse
        ∧ same u [(.PCIE_PMCSR, k), (.PCIE_CMD, k)]))
    ∧ (ready f → e * 1025 + f = n → f ≤ 1024 → (v.toNat < 2 ^ 31 ∨ s.pendingVecs e f = []) → Completes (.registerWrite (.host n) .PCIE_MSIX_CTL k v) s (fun u =>
        u.fld F.PCIE_MSIX_CTL.EN k = v.toNat / 2 ^ 31 ∧ u.fld F.PCIE_MSIX_CTL.FMASK k = v.toNat / 2 ^ 30 % 2
        ∧ same u [(.PCIE_MSIX_CTL, k)]))
    ∧ (enabled → sends → e * 1025 + f = n → f ≤ 1024 → s.fld F.PCIE_CMD.MSE k = 1 → s.reachable (instChip n) = true →
        s.fld F.PCIE_MSIX_PBA.PEND x = 1 → v.toNat % 2 = 0 → Completes (.registerWrite (.host n) .PCIE_MSIX_VCTL x v) s (fun u =>
        u.out = s.out ++ [message] ∧ u.fld F.PCIE_MSIX_PBA.PEND x = 0 ∧ u.fld F.PCIE_MSIX_VCTL.MASK x = 0
        ∧ RegsKept s u [(.PCIE_MSIX_PBA, x), (.PCIE_MSIX_VCTL, x)]))
    ∧ (bar → Completes (.apBaseWrite ep a false v) s (fun u => u.staged .AP_BASE (e * 16 + a.toNat) = some v
        ∧ u.apBase e a.toNat = s.apBase e a.toNat ∧ same u []))
    ∧ (bar → s.staged .AP_BASE (e * 16 + a.toNat) = some w → Completes (.apBaseWrite ep a true v) s (fun u =>
        u.apBase e a.toNat = w.toNat / 2 ^ 24 * 2 ^ 24 + v.toNat % 2 ^ 16 * 2 ^ 32 ∧ u.staged .AP_BASE (e * 16 + a.toNat) = none
        ∧ same u [(.AP_BASE, e * 16 + a.toNat), (.AP_BASE_HI, e * 16 + a.toNat)]))
    ∧ (enabled → sends → s.fld F.PCIE_MSIX_VCTL.MASK x = 0 → Completes (.msixEvent ep fn vec) s (fun u =>
        u = s.emit message))
    ∧ (enabled → s.fld F.PCIE_MSIX_VCTL.MASK x = 1 → Completes (.msixEvent ep fn vec) s (fun u =>
        u.fld F.PCIE_MSIX_PBA.PEND x = 1 ∧ OnlyRegs s u [(.PCIE_MSIX_PBA, x)]))
    ∧ (enabled → sends → s.fld F.PCIE_MSIX_PBA.PEND x = 1 → Completes (.msixUnmask ep fn vec) s (fun u =>
        u.out = s.out ++ [message] ∧ u.fld F.PCIE_MSIX_PBA.PEND x = 0 ∧ u.fld F.PCIE_MSIX_VCTL.MASK x = 0
        ∧ RegsKept s u [(.PCIE_MSIX_PBA, x), (.PCIE_MSIX_VCTL, x)]))

/-- R361, R391, R396, R453, R455, R456: a function level reset, a VF's reset and CC.EN cleared start the function-wide reset of one instance,
which then ends; stale vectors of earlier generations leave intake. Model's choices in it: RESULT while FREEZING (log entry 43), what a
function-level reset clears (log entry 40). It says that a next state is answered, and which: functionResetEnd, staleVectorDrop,
ccEnClear, flr, vfReset. -/
def Obligations.FunctionResets : Prop :=
  ∀ (s : State) (ep : BitVec 5) (fn : BitVec 11) (vf : BitVec 10) (n : Nat) (v : BitVec 32) (q : Nat) (b : Bool),
    let e := ep.toNat
    let f := fn.toNat
    let up := s.reachable (bankChip (epBank e)) = true
    let ready := fun g => s.fnExists e g = true ∧ up ∧ s.fld F.PCIE_RDY.RDY (fnKey e g) = 1
    let started := fun (u : State) m => u.insState m = 2
      ∧ u.fld F.RNG_FN_FRZ.GEN m = (s.fld F.RNG_FN_FRZ.GEN m + 1) % 2 ^ 16
      ∧ u.fld F.RNG_FN_CTL.SVC_EFF m = s.fld F.RNG_FN_CTL.SVC m ∧ u.fld F.BNK_STO_PERS.EFFECT m = s.fld F.BNK_STO_PERS.STORAGE m
      ∧ (q < 64 → u.armed m q = false ∧ u.ringOf (ringKey m q b) = ringReset) ∧ ∀ m', m' ≠ m → u.insState m' = s.insState m'
    (ready f → s.insState (e * 1025 + f) = 3 ∨ s.fld F.RNG_FN_FRZ.BUSY (e * 1025 + f) = 1 → s.insState (e * 1025 + f) ≠ 2 → f ≠ pf1Fn →
      1 ≤ f → f ≤ 1024 → Completes (.flr ep fn) s (fun u => u.fld F.RNG_FN_FRZ.RESULT (e * 1025 + f) = 8
        ∧ u.fld F.RNG_FN_FRZ.BUSY (e * 1025 + f) = 0))
    ∧ (ready f → 1 ≤ f → f ≤ 1024 → s.insState (e * 1025 + f) ≠ 2 → Completes (.flr ep fn) s (fun u => started u (e * 1025 + f)
        ∧ u.fld F.PCIE_RDY.RDY (fnKey e f) = 0 ∧ u.fld F.PCIE_CMD.BME (fnKey e f) = 0 ∧ u.fld F.PCIE_MSIX_CTL.EN (fnKey e f) = 0
        ∧ u.reply = .ok))
    ∧ (ready (vf.toNat + 1) → s.insState (e * 1025 + (vf.toNat + 1)) ≠ 2 → Completes (.vfReset ep vf) s (fun u =>
        started u (e * 1025 + (vf.toNat + 1)) ∧ u.fld F.PCIE_RDY.RDY (fnKey e (vf.toNat + 1)) = 0
        ∧ u.fld F.PCIE_CMD.BME (fnKey e (vf.toNat + 1)) = 0 ∧ u.reply = .ok))
    ∧ (s.insState n = 2 → s.instQueues n = [] → s.dmaOut n = false → s.orphans n = false → Completes (.functionResetEnd n) s (fun u =>
        Settles ((s.setFld F.RNG_FN_FRZ.STATE n 0).msixFlush (instEp n) (instFn n)) u))
    ∧ (s.insState n = 2 → s.instQueues n ≠ [] ∨ s.dmaOut n = true ∨ s.orphans n = true → Completes (.functionResetEnd n) s (fun u => u = s))
    ∧ (s.fnExists (instEp n) (instFn n) = true → s.fld F.PCIE_CMD.MSE (fnKey (instEp n) (instFn n)) = 1 →
        s.reachable (instChip n) = true → s.isStorage n = true → s.fld F.NVME_CC.EN n = 1 → v.toNat % 2 = 0 → s.insState n ≠ 2 →
        Completes (.ccEnClear n v) s (fun u => started u n ∧ u.rd .NVME_CC n = 0 ∧ u.rd .NVME_CSTS n = 0
          ∧ u.rd .NVME_AQA n = s.rd .NVME_AQA n ∧ (q < 65 → u.nvmeQ n q = nvmeUnbound)
          ∧ u.rd .PCIE_MSIX_CTL (fnKey (instEp n) (instFn n)) = s.rd .PCIE_MSIX_CTL (fnKey (instEp n) (instFn n))))
    ∧ Completes (.staleVectorDrop n) s (fun u =>
        (∀ board, board < 8 → u.intakeQueue (instBank n) board
          = (s.intakeQueue (instBank n) board).filter (fun x => !s.isStale n x))
        ∧ u.sideBuf (instBank n) = (s.sideBuf (instBank n)).filter (fun x => !s.isStale n x.2))

/-- R407 to R412: the two Ferries of an instance: a message is written, sent, and taken; a full Ferry rejects. Model's choices in it: log
entry 42. It says that a next state is answered, and which: ferryUpGo, ferryDnGo, ferryDnTake, ferryUpTake, ferryMsgWrite. -/
def Obligations.Ferries : Prop :=
  ∀ (s : State) (n : Nat) (v : BitVec 32) (w : BitVec 4) (who : Requester),
    let host := s.fnExists (instEp n) (instFn n) = true ∧ s.fld F.PCIE_CMD.MSE (fnKey (instEp n) (instFn n)) = 1
      ∧ s.reachable (instChip n) = true ∧ s.insState n ≠ 2
    let mgr := s.reachable (instChip n) = true ∧ s.insState n ≠ 2
    let go := v.toNat / 2 ^ 5 % 2 = 1 ∧ 1 ≤ v.toNat % 2 ^ 5 ∧ v.toNat % 2 ^ 5 ≤ 16
    let len := v.toNat % 2 ^ 5
    let isUp := s.fld F.PCI_FRY_UP_STAT.FULL n
    let isDn := s.fld F.FRY_DN_STAT.FULL n
    let word := instEp n * 33 + instFn n / 32
    let writer := (match who with | .host _ => false | _ => true) = true
    (host → isUp = 0 → go → Completes (.ferryUpGo n v) s (fun u => u.fld F.PCI_FRY_UP_STAT.FULL n = 1
        ∧ u.fld F.PCI_FRY_UP_STAT.LEN n = len ∧ (u.rd .PCI_FRY_PEND word).toNat.testBit (instFn n % 32) = true ∧ u.reply = .ok
        ∧ (s.fld F.PCI_FRY_NOTE.EN (instEp n) = 0 → u.out = s.out ∧ RegsKept s u [(.PCI_FRY_UP_STAT, n), (.PCI_FRY_PEND, word)])))
    ∧ (host → isUp = 1 → Completes (.ferryUpGo n v) s (fun u => u.fld F.PCI_FRY_UP_STAT.FULL n = 1
        ∧ u.fld F.PCI_FRY_UP_STAT.LEN n = s.fld F.PCI_FRY_UP_STAT.LEN n ∧ u.reply = .unsupportedRequest
        ∧ RegsKept s u [(.PCI_FRY_REJ, n), (.PCIE_AER, fnKey (instEp n) (instFn n))]))
    ∧ (writer → mgr → isDn = 0 → go → Completes (.ferryDnGo who n v) s (fun u => u.fld F.FRY_DN_STAT.FULL n = 1
        ∧ u.fld F.FRY_DN_STAT.LEN n = len ∧ u.reply = .ok
        ∧ (s.fld F.FRY_IRQ.DN_IEN n = 0 → u.out = s.out ∧ RegsKept s u [(.FRY_DN_STAT, n)])))
    ∧ (who = .firmware → mgr → isDn = 1 → Completes (.ferryDnGo who n v) s (fun u => u.reply = .busError
        ∧ RegsKept s u [(.PCI_FRY_REJ, n)] ∧ u.out = s.out))
    ∧ (host → Completes (.ferryDnTake n) s (fun u => u.fld F.FRY_DN_STAT.FULL n = 0 ∧ RegsKept s u [(.FRY_DN_STAT, n)]
        ∧ u.reply = .data (if isDn = 1 then BitVec.ofNat 32 (s.fld F.FRY_DN_STAT.LEN n + 32) else 0)))
    ∧ (mgr → Completes (.ferryUpTake n) s (fun u => u.fld F.PCI_FRY_UP_STAT.FULL n = 0
        ∧ u.reply = .data (if isUp = 1 then BitVec.ofNat 32 (s.fld F.PCI_FRY_UP_STAT.LEN n + 32) else 0)
        ∧ (s.fld F.FRY_IRQ.UP_IEN n = 0 → RegsKept s u [(.PCI_FRY_UP_STAT, n)])))
    ∧ (host → isUp = 0 → Completes (.ferryMsgWrite (.host n) n true w v) s (fun u => u.rd .FRY_UP_MSG (n * 16 + w.toNat) = v
        ∧ RegsKept s u [(.FRY_UP_MSG, n * 16 + w.toNat)]))
    ∧ (writer → mgr → isDn = 0 → Completes (.ferryMsgWrite who n false w v) s (fun u => u.rd .FRY_DN_MSG (n * 16 + w.toNat) = v
        ∧ RegsKept s u [(.FRY_DN_MSG, n * 16 + w.toNat)]))

/-- R457 to R459, R462, R463, R466: an instance freezes, comes to rest, is saved, restored and thawed; the insert rate of an instance. Model's
choices in it: log entry 43; an event whose condition fails changes nothing (log entry 2). It says that a next state is answered, and
which: freeze, quiescentPoint, freezeTimeout, save, saveDone, restore, restoreDone, thaw, insRateWrite. -/
def Obligations.Instances : Prop :=
  ∀ (s : State) (n q : Nat) (rx : Bool) (board : BitVec 3) (v : BitVec 32),
    let up := s.reachable (instChip n) = true
    let st := fun (u : State) => u.insState n
    let busy := fun (u : State) => u.fld F.RNG_FN_FRZ.BUSY n
    let result := fun (u : State) => u.fld F.RNG_FN_FRZ.RESULT n
    let frz := fun (u : State) => RegsKept s u [(.RNG_FN_FRZ, n)]
    let rejects := fun (u : State) => u.fld F.RNG_FN_FRZ.REJ n = 1 ∧ st u = st s ∧ frz u ∧ u.hbm = s.hbm ∧ u.ring = s.ring
    let ring := fun (u : State) => u.ringOf (ringKey n q rx)
    let s' := s.setFld F.RNG_FN_FRZ.BUSY n 0
    let img := s'.imgBody n ++ cmac s'.dmk (s'.imgBody n)
    let at_ := s.imgAddr n - hbmBase
    let code := s'.imgCheck n (s'.imgRead n)
    let calm := s.hbm.dir = [] ∧ s.hbm.home = [] ∧ s.plat.ecc = [] ∧ (List.range 8).all (fun p => (s.pipeQ p).isEmpty) = true
    let i := board.toNat * 32800 + n
    let burst := v.toNat / 2 ^ 20 % 2 ^ 11
    (up → st s = 1 → busy s = 0 → Completes (.freeze n) s (fun u => st u = 3 ∧ frz u
        ∧ (q < 64 → (ring u).fetch = none ∧ ∀ d ∈ (ring u).desc, d.st ≠ .ready)))
    ∧ (up → st s ≠ 1 → Completes (.freeze n) s rejects)
    ∧ (st s = 3 → s.quiet n = true → Completes (.quiescentPoint n) s (fun u => st u = 4 ∧ result u = 0
        ∧ OnlyRegs s u [(.RNG_FN_FRZ, n)]))
    ∧ (st s = 3 → s.quiet n = false → Completes (.quiescentPoint n) s (fun u => u = s))
    ∧ (st s = 3 → Completes (.freezeTimeout n) s (fun u => st u = 1 ∧ result u = 1 ∧ frz u ∧ u.ring = s.ring))
    ∧ (up → st s = 4 → busy s = 0 → s.mayMigrate = true →
      (s.imgHbm n (s.imgLen n) = true → s.imgLen n ≤ 0x400000 → Completes (.save n) s (fun u => busy u = 1 ∧ st u = 4 ∧ frz u
        ∧ u.hbmRead at_ 4 = [0, 0, 0, 0] ∧ (∀ a, a < at_ ∨ at_ + 4 ≤ a → u.hbmRead a 1 = s.hbmRead a 1)))
      ∧ (s.imgHbm n (s.imgLen n) = false → Completes (.save n) s (fun u => result u = 2 ∧ busy u = 0 ∧ frz u ∧ u.hbm = s.hbm)))
    ∧ (up → st s ≠ 4 → Completes (.save n) s rejects)
    ∧ (st s = 4 → busy s = 1 → calm → s'.imgHbm n (s'.imgLen n) = true → s'.imgLen n ≤ 0x400000 → Completes (.saveDone n) s (fun u =>
        busy u = 0 ∧ result u = 0 ∧ st u = 4 ∧ u.fld F.RNG_FN_IMGLEN.BYTES n = s'.imgLen n ∧ u.hbmRead at_ img.length = img
        ∧ RegsKept s u [(.RNG_FN_FRZ, n), (.RNG_FN_IMGLEN, n)]))
    ∧ (up → st s = 0 → busy s = 0 → s.mayMigrate = true → Completes (.restore n) s (fun u => st u = 5 ∧ busy u = 1 ∧ frz u
        ∧ u.hbm = s.hbm))
    ∧ (up → st s ≠ 0 → Completes (.restore n) s rejects)
    ∧ (st s = 5 → calm → code ≠ 0 → code < 16 → Completes (.restoreDone n) s (fun u => st u = 0 ∧ result u = code ∧ busy u = 0 ∧ frz u
        ∧ u.hbm = s.hbm ∧ u.look = s.look))
    ∧ (st s = 5 → calm → code = 0 → rdAt (s'.imgRead n) 0x1C 4 = 0 → Completes (.restoreDone n) s (fun u => st u = 4 ∧ result u = 0
        ∧ busy u = 0 ∧ u.fld F.RNG_FN_FRZ.GEN n = (s.fld F.RNG_FN_FRZ.GEN n + 1) % 2 ^ 16
        ∧ u.rd .RNG_FN_BW n = BitVec.ofNat 32 (rdAt (s'.imgRead n) 0x20 4) ∧ u.look = s.look))
    ∧ (up → st s = 4 → busy s = 0 → Completes (.thaw n) s (fun u => st u = 1
        ∧ (q < 64 → s.isStorage n = false → (ring u).pend = none)
        ∧ (q < 65 → s.isStorage n = true → (u.nvmeQ n q).pend = none)))
    ∧ (up → st s ≠ 4 → Completes (.thaw n) s rejects)
    ∧ (s.reachable (boardChip board.toNat) = true → Completes (.insRateWrite board n v) s (fun u =>
        u.fld F.BRD_INS_W0.RATE i = v.toNat % 2 ^ 20 ∧ u.fld F.BRD_INS_W0.EN i = v.toNat / 2 ^ 31
        ∧ u.fld F.BRD_INS_W0.BURST i = (if burst = 0 then s.fld F.BRD_INS_W0.BURST i else burst)
        ∧ RegsKept s u [(.BRD_INS_W0, i)]))

/-- R418, R419, R443, R450: a ring is armed; a doorbell is accepted, rejected or kept pending and then applied; the queue view. R36, R37, R421
to R427, R449, R456: descriptors are fetched, the data of a transmit descriptor is read, a frame is written to a receive buffer, and a
descriptor that is done is handed back. Model's choices in it: log entry 44; an event whose condition fails changes nothing (log entry 2).
It says that a next state is answered, and which: ringTxdb, ringRxdb, pendingDoorbellApply, ringArm, descriptorFetch, txDataReadStart,
txDataReadDone, rxFrameWrite, descriptorComplete, qviewRead, completionTimeout, descriptorFetchDone. -/
def Obligations.Rings : Prop :=
  (∀ (s : State) (n y : Nat) (q : BitVec 6) (rx : Bool) (v : BitVec 32),
    let host := s.fnExists (instEp n) (instFn n) = true ∧ s.fld F.PCIE_CMD.MSE (fnKey (instEp n) (instFn n)) = 1
      ∧ s.reachable (instChip n) = true
    let k := ringKey n q.toNat rx
    let r := s.ringOf k
    let i := ringIdx n q.toNat
    let bell : Instr := if rx then .ringRxdb n q v else .ringTxdb n q v
    let fits := fun z => sub16 r.t r.h ≤ sub16 z r.h ∧ sub16 z r.h < 2 ^ s.ringLog n q.toNat rx
    let bad := fun (u : State) => RegsKept s u [(.RNG_FN_DBREJ, n)] ∧ u.ringOf k = r
      ∧ (u.rd .RNG_FN_DBREJ n).toNat = Nat.min (2 ^ 32 - 1) ((s.rd .RNG_FN_DBREJ n).toNat + 1)
    let only := fun (u : State) (z : Ring) => u.ringOf k = z ∧ RegsKept s u [] ∧ ∀ j, j ≠ k → u.ringOf j = s.ringOf j
    let cfg := fun (u : State) => RegsKept s u [(.RING_ARM, i), (.RNG_FN_FRZ, n)]
    (host → s.insState n = 1 → s.hasQueue n q.toNat = true → s.armed n q.toNat = true → r.pend = none →
      (s.bellReady n = true → fits (v.toNat % 2 ^ 16) → Completes bell s (fun u => only u { r with t := v.toNat % 2 ^ 16 }))
      ∧ (s.bellReady n = true → ¬ fits (v.toNat % 2 ^ 16) → Completes bell s bad)
      ∧ (s.bellReady n = false → Completes bell s (fun u => only u { r with pend := some (v.toNat % 2 ^ 16) })))
    ∧ (host → s.insState n ≠ 2 → s.armed n q.toNat = false → Completes bell s bad)
    ∧ (s.bellReady n = true → s.insState n = 1 → s.isStorage n = false → r.pend = some y → fits y →
        Completes (.pendingDoorbellApply n (BitVec.ofNat 7 q.toNat) rx) s (fun u => only u { r with t := y, pend := none }))
    ∧ (host → s.armFits n q.toNat = true → s.armed n q.toNat = false → s.insState n < 2 → v.toNat % 2 = 1 →
        Completes (.ringArm n q v) s (fun u => u.armed n q.toNat = true ∧ u.insState n = 1 ∧ u.ringOf k = ringReset ∧ cfg u))
    ∧ (host → s.armed n q.toNat = true → v.toNat % 2 = 1 → Completes (.ringArm n q v) s (fun u => u.fld F.RING_ARM.REJ i = 1
        ∧ u.armed n q.toNat = true ∧ u.ringOf k = r ∧ cfg u))
    ∧ (s.reachable (instChip n) = true → Completes (.qviewRead n) s (fun u =>
        u.reply = .data (BitVec.ofNat 32 ((s.viewRing n).t + (s.viewRing n).h * 2 ^ 16)) ∧ u.ring = s.ring
        ∧ (u.rd .RNG_FN_QVIEW1 n).toNat % 2 ^ 16 = (s.viewRing n).f % 2 ^ 16 ∧ RegsKept s u [(.RNG_FN_QVIEW1, n)])))
  ∧ (∀ (s : State) (n c cells code flen reason : Nat) (q : BitVec 6) (rx : Bool) (ws : List (BitVec 32)) (data : List (BitVec 8))
    (d : RingDesc) (o : OutItem) (f : FrameRec),
    let ep := instEp n
    let fn := instFn n
    let k := ringKey n q.toNat rx
    let r := s.ringOf k
    let kt := ringKey n q.toNat false
    let t := s.ringOf kt
    let kr := ringKey n q.toNat true
    let g := s.ringOf kr
    let others := fun (u : State) j => ∀ i, i ≠ j → u.ringOf i = s.ringOf i
    let due := fun i data => Tbl.get (fun _ => 0) s.ring.orphan (2 * i + b2n data) = 0
    let order := fun (e : RingDesc) => s.relaxed ep fn && bit (e.dw 2).toNat 18
    let writes := fun (u : State) a => u.out = s.out ++ [.hostWrite ep fn (a + 16) (statusWords rx d code flen reason) false,
              .hostWrite ep fn (a + 28) (leBytes 4 (d.idx + 2 ^ 31)) false]
    let turned := fun (u : State) st => u.ringOf kt = { t with desc := updDesc d.idx (fun x => { x with st := st }) t.desc }
    let x := s.outputBytes f o false
    let at_ := s.descAddr n q.toNat rx d.idx
    let round := min (min (s.fld F.RING_WRR.BURST (ringIdx n q.toNat)) r.credit) (s.fetchable n q.toNat false)
    let fetches := fun (u : State) => u.ringOf k = { r with f := (r.f + min 8 (s.fetchable n q.toNat rx)) % 65536
                                                            fetch := some (min 8 (s.fetchable n q.toNat rx)) }
      ∧ u.out = (s.fetchRequests n q.toNat rx (min 8 (s.fetchable n q.toNat rx)) r.f (min 8 (s.fetchable n q.toNat rx))).out
      ∧ others u k ∧ u.regs = s.regs ∧ u.cfl = s.cfl
    let got := fun (st : DescSt) (w : Nat → Option (List Word)) => (List.range c).map (fun i =>
      ({ idx := (r.f + 65536 - c + i) % 65536, words := w i, st := st, ts := none, cells := [], head := 0 } : RingDesc))
    let failed := fun (u : State) => u.ringOf k = { r with fetch := none, desc := r.desc ++ got (.done 2 0 0) (fun _ => none) }
      ∧ others u k ∧ RegsKept s u [(.RNG_FN_BUSERR, n)]
    let broke := fun (u : State) => turned u (.done 2 0 0) ∧ others u kt ∧ RegsKept s u [(.RNG_FN_BUSERR, n)]
      ∧ u.cfl.books = s.cfl.books.pipeToReclaim d.cells.length
      ∧ (u.rd .RNG_FN_BUSERR n).toNat = Nat.min (2 ^ 32 - 1) ((s.rd .RNG_FN_BUSERR n).toNat + 1)
    (s.mayFetch n q.toNat rx = true → (if rx then s.rxNext ep = some n else s.rxNext ep = none ∧ s.fld F.RNG_FN_CTL.SVC_EFF n = 0) →
        Completes (.descriptorFetch n q rx) s fetches)
    ∧ (rx = false → s.mayFetch n q.toNat rx = true → s.rxNext ep = none → s.fld F.RNG_FN_CTL.SVC_EFF n = 1 → s.wrrOver n = false →
        s.wrrPick n = some q.toNat → Completes (.descriptorFetch n q rx) s (fun u => others u k ∧ u.regs = s.regs ∧ u.cfl = s.cfl
          ∧ u.ringOf k = { r with f := (r.f + round) % 65536, fetch := some round, credit := r.credit - round }
          ∧ u.out = (s.fetchRequests n q.toNat rx round r.f round).out))
    ∧ (due k false → r.fetch = some c → (∀ i, i < c → rxMalformed ((ws.drop (4 * i)).take 4) = false ∧ txMalformed ((ws.drop (4 * i)).take 4) = false) →
        Completes (.descriptorFetchDone n q rx (some ws)) s (fun u => others u k ∧ u.regs = s.regs
          ∧ u.ringOf k = { r with fetch := none, desc := r.desc ++ got .ready (fun i => some ((ws.drop (4 * i)).take 4)) }))
    ∧ (due k false → r.fetch = some c → Completes (.descriptorFetchDone n q rx none) s failed
      ∧ Completes (.completionTimeout n (.descFetch q rx)) s failed)
    ∧ (s.mayRead n q.toNat = true → (s.drrNext n q.toNat).1 = some n → t.firstIn .ready = some d → cells = cellsFor (s.headroom + d.len) →
        cells + s.fld F.CFL_CELL_FLOOR.CELLS 0 ≤ s.cfl.books.free → Completes (.txDataReadStart n q) s (fun u => others u kt
          ∧ u.ringOf kt = { t with desc := updDesc d.idx (fun x => { x with st := .reading, head := s.headroom, cells := s.pickCells cells }) t.desc }
          ∧ u.out = (s.hostAsk ep fn d.addr d.len (order d) false).out ∧ u.cfl.books = s.cfl.books.alloc cells ∧ u.regs = s.regs))
    ∧ (due kt true → t.firstIn .reading = some d → s.sideFull (instBank n) = true →
        Completes (.txDataReadDone n q (some data)) s (fun u => u = s.settle))
    ∧ (due kt true → t.firstIn .reading = some d → s.sideFull (instBank n) = false →
        Completes (.txDataReadDone n q (some data)) s (fun u => turned u .busy ∧ others u kt
        ∧ u.cfl.books = s.cfl.books ∧ ∃ p f', u.frame p = some f' ∧ f'.input = .ring n q ∧ f'.len = d.len ∧ f'.head = d.head ∧ f'.chain = d.cells
          ∧ f'.desc = some { inst := n, q := q.toNat, idx := d.idx, gen := s.fld F.RNG_FN_FRZ.GEN n }))
    ∧ (due kt true → t.firstIn .reading = some d → Completes (.txDataReadDone n q none) s broke
      ∧ Completes (.completionTimeout n (.txData q)) s broke)
    ∧ Completes (.completionTimeout n (.subFetch (BitVec.ofNat 7 q.toNat))) s (fun u => u = s)
    ∧ (s.insIssues n = true → s.insState n ≠ 2 → s.rxItem n q.toNat = some o → g.firstIn .ready = some d → s.frame o.e.first = some f →
        s.plat.ecc = [] → Completes (.rxFrameWrite n q) s (fun u => u.out = (s.hostPut ep fn d.addr (x.1.take d.len) (order d) false).out
          ∧ u.ringOf kr = { g with desc := updDesc d.idx (fun y => { y with
              st := .done (if d.len < x.1.length then 5 else 0) x.1.length 0, ts := f.ts.map (fun z => (z.2, z.1)) }) g.desc }
          ∧ u.outQueue (288 + ep) = (s.outQueue (288 + ep)).erase o))
    ∧ (s.insIssues n = true → s.doneDesc n q.toNat rx = some (d, code, flen, reason) → (d.dw 2).toNat.testBit 16 = false →
        Completes (.descriptorComplete n q rx) s (fun u => u.ringOf k = { r with h := (r.h + 1) % 65536, desc := r.desc.tail }
          ∧ others u k ∧ u.regs = s.regs ∧ writes u at_)))

/-- R343, R430, R433, R435 to R442, R456: a DMA descriptor starts, moves its data and ends; bursts of a paced one; the aborts; a transfer
whose gate failed; a completion timeout. Model's choices in it: log entries 45 and 66; an event whose condition fails changes nothing (log
entry 2). It says that a next state is answered, and which: gatedTransferZeroOverwrite, dmaDescriptorStart, dmaDescriptorEnd,
pacedBurstStart, dmaAbort, dmaAbortAll, completionTimeout. -/
def Obligations.DmaTransfers : Prop :=
  ∀ (s : State) (ch o ep fn a n : Nat) (d : DmaDesc) (data : List (BitVec 8)) (dst : Bool) (off : Nat) (errors : BitVec 32),
    let c := s.dmaCh ch
    let up := s.reachable (boardChip (ch / 128)) = true
    let cl := ch / 16
    let others := fun (u : State) => ∀ x, x ≠ ch → u.dmaCh x = s.dmaCh x
    let ends := fun (u : State) code side => u.dmaCh ch = { c.record code side with act := c.shd, shd := none, wait := false } ∧ others u
      ∧ (u.rd .DMA_DESCS ch).toNat = Nat.min (2 ^ 32 - 1) ((s.rd .DMA_DESCS ch).toNat + 1)
    let mem := fun (u : State) i => Tbl.get (fun _ => (0 : Byte)) u.eng.clusterMem i
    let lo := cl * 0x400000 + o
    let kept := fun (u : State) (p q : Nat) => ∀ i, i < p ∨ q ≤ i → mem u i = mem s i
    let inward := c.act = some d ∧ d.runs = true ∧ d.gated = false ∧ up ∧ (d.side false).space = .host ep fn a
      ∧ (d.side true).space = .cluster o ∧ s.dmaMayUse d ep fn = true
    let zone := lo + (if d.down then d.len - d.moved else 0)
    let idle := c.act = some d ∧ d.started = false ∧ d.held = none ∧ d.failed = false ∧ up
    let plain := [false, true].all (fun e => (d.side e).host.all (fun x => !s.atsOn x.1 x.2)) = true
    let may := fun (e : DmaDesc) => e.gated = false ∧ e.held = none
    (idle → s.dmaMalformed d = true → d.gated = false → Completes (.dmaDescriptorStart ch [] false) s (fun u => ends u 1 0
        ∧ u.eng.clusterMem = s.eng.clusterMem ∧ u.hbm = s.hbm ∧ u.out = s.out))
    ∧ (idle → s.dmaMalformed d = false → plain → sameSpace (d.side false).space (d.side true).space = false →
        Completes (.dmaDescriptorStart ch [] false) s (fun u =>
          u = s.setDma ch { c with act := some { d with started := true, down := false } }))
    ∧ (inward → d.paced = false → d.moved = 0 → Completes (.dmaDescriptorEnd ch (.ok data)) s (fun u => ends u 0 0
        ∧ (∀ i, i < d.len → mem u (lo + i) = data.getD i 0) ∧ kept u lo (lo + d.len)
        ∧ u.rd64 .DMA_BYTES .DMA_BYTES_HI ch = (s.rd64 .DMA_BYTES .DMA_BYTES_HI ch + d.len) % 2 ^ 64))
    ∧ (inward → d.paced = false → d.moved = 0 → (∀ e, c.shd = some e → e.started = false) →
        Completes (.dmaDescriptorEnd ch (.fail dst false off data)) s (fun u =>
        ends u 2 (b2n dst) ∧ kept u lo (lo + d.len)))
    ∧ (inward → d.paced = true → d.moved = d.len → Completes (.dmaDescriptorEnd ch (.ok data)) s (fun u => ends u 0 0
        ∧ u.eng.clusterMem = s.eng.clusterMem))
    ∧ (inward → d.paced = true → d.down = false → d.moved < d.len → n = min d.burst (d.len - d.moved) →
      (s.paceLine d = true → Completes (.pacedBurstStart ch (.ok data)) s (fun u => others u
        ∧ u.dmaCh ch = { c with act := some { d with moved := d.moved + n }, wait := false }
        ∧ (∀ i, i < n → mem u (lo + d.moved + i) = data.getD (d.moved + i) 0) ∧ kept u (lo + d.moved) (lo + d.moved + n)))
      ∧ (s.paceLine d = false → Completes (.pacedBurstStart ch (.ok data)) s (fun u => u = s.setDma ch { c with wait := true })))
    ∧ (up → c.act = some d → may d → Completes (.dmaAbort ch) s (fun u => ends u 6 0 ∧ u.reply = .ok))
    ∧ (up → c.act = none → Completes (.dmaAbort ch) s (fun u => u = s.putReply .ok))
    ∧ (∀ e, up → c.act = some d → may d → c.shd = some e → may e → Completes (.dmaAbortAll ch) s (fun u =>
        u.dmaCh ch = { c.record 6 0 with act := none, shd := none, wait := false, more := true } ∧ others u))
    ∧ (c.act = some d → d.failed = true → c.shd = none → (d.side true).space = .cluster o →
        Completes (.gatedTransferZeroOverwrite ch errors) s (fun u => ends u 5 0
          ∧ (∀ i, i < d.moved → mem u (zone + i) = 0) ∧ kept u zone (zone + d.moved)
          ∧ (u.rd .BRD_GATE_ZERO_ERR (ch / 128)).toNat
              = Nat.min (2 ^ 32 - 1) ((s.rd .BRD_GATE_ZERO_ERR (ch / 128)).toNat + errors.toNat)))
    ∧ (c.act = some d → d.runs = true → d.gated = false → (d.side false).host = some (instEp n, instFn n) →
        (d.side true).space = .cluster o → Completes (.completionTimeout n (.dma ch)) s (fun u => ends u 2 0
          ∧ kept u lo (lo + d.len)))

/-- R468 to R471, R478, R493: a port is configured, its link comes up and goes down, low-power idle; R470, R491: a frame with a wrong FCS is
counted, a good one is taken into cells; R471, R477: a frame is sent, and a transmit stamp is read. Model's choices in it: log entries 46,
47 and 48; an event whose condition fails changes nothing (log entry 2). It says that a next state is answered, and which:
macFrameReceive, portCfgWrite, linkUp, linkDown, macFrameTransmit, txtsRead, lpiEnter. -/
def Obligations.LinkFrames : Prop :=
  ∀ (s : State) (p : BitVec 8) (a : BitVec 5) (link : MacPort) (v : BitVec 32) (fr : List (BitVec 8)) (o : OutItem) (f : FrameRec)
    (bad : Bool) (id ns sec : Nat) (rest : List (Nat × Nat × Nat)),
    let i := p.toNat
    let k := macKey link
    let atNet := s.reachable (bankChip (macBank i)) = true
    let atLink := s.reachable (bankChip (macBank (256 + a.toNat))) = true
    let stat := fun (u : State) j x => if j < 256 then u.rd64 .MAC_STAT .MAC_STAT_HI (macI j * 17 + x)
      else u.rd64 .ATL_STATS .ATL_STATS_HI (macI j * 17 + x)
    let adds := fun (u : State) j x n => stat u j x = (stat s j x + n) % 2 ^ 64
    let len := v.toNat / 2 ^ 4 % 2 ^ 14
    let fits := cellsFor (s.headroom + fr.length) + s.fld F.CFL_CELL_FLOOR.CELLS 0 ≤ s.cfl.books.free
    let room := fun bank inp => (∀ b, b < 8 → (s.intakeQueue bank b).length < 4096) ∧ s.mayStamp inp = true
    let taken := fun (u : State) inp => u.cfl.books = s.cfl.books.alloc (cellsFor (s.headroom + fr.length))
      ∧ ∃ y f', u.frame y = some f' ∧ f'.input = inp ∧ f'.head = s.headroom ∧ f'.len = fr.length
    (atNet → s.fld F.MAC_PORT_CFG.EN i = 0 → i % 2 ^ (v.toNat / 2 % 4) = 0 → 64 ≤ len → len ≤ 16128 → Completes (.portCfgWrite (.net p) v) s
      (fun u => u.fld F.MAC_PORT_CFG.EN i = v.toNat % 2 ∧ u.fld F.MAC_PORT_CFG.WIDTH i = v.toNat / 2 % 4
        ∧ u.fld F.MAC_PORT_CFG.AN i = v.toNat / 8 % 2 ∧ u.fld F.MAC_PORT_CFG.MAXLEN i = len))
    ∧ (atNet → s.fld F.MAC_PORT_CFG.EN i = 1 → (v.toNat % 2 = 0 → Completes (.portCfgWrite (.net p) v) s (fun u =>
          u.fld F.MAC_PORT_CFG.EN i = 0 ∧ u.macUp i = false))
      ∧ (v.toNat % 2 = 1 → Completes (.portCfgWrite (.net p) v) s (fun u => Settles (s.putReply .ok) u)))
    ∧ (atLink → s.fld F.ATL_CFG.EN a.toNat = 0 → 1 ≤ v.toNat / 2 % 2 ^ 13 → v.toNat / 2 % 2 ^ 13 ≤ 4096 → v.toNat / 2 ^ 16 % 2 ^ 8 ≠ 0 →
        Completes (.portCfgWrite (.attach a) v) s (fun u => u.fld F.ATL_CFG.EN a.toNat = v.toNat % 2
          ∧ u.fld F.ATL_CFG.RXCRED a.toNat = v.toNat / 2 % 2 ^ 13 ∧ u.fld F.ATL_CFG.CRET a.toNat = v.toNat / 2 ^ 16 % 2 ^ 8))
    ∧ (s.macUp k = false → s.macEn k = true → s.mayTrain k = true → (k < 256 → s.covered k = false) → Completes (.linkUp link) s
        (fun u => u.macUp k = true ∧ (256 ≤ k → (u.credBook (k - 256)).last = none ∧ u.fld F.ATL_CRED.TXAVAIL (k - 256) = 0)
          ∧ ∀ j, j < 288 → j ≠ k → u.macUp j = s.macUp j))
    ∧ (s.macUp k = false ∧ s.macEn k = false → Completes (.linkUp link) s (fun u => Settles s u))
    ∧ (s.macUp k = true → Completes (.linkDown link) s (fun u => u.macUp k = false ∧ u.outQueue k = []
        ∧ u.slackSt k = slackReset ∧ u.slackMode k = 0 ∧ ∀ j, j < 288 → j ≠ k → u.macUp j = s.macUp j ∧ u.outQueue j = s.outQueue j))
    ∧ (s.macUp k = false → Completes (.linkDown link) s (fun u => Settles s u))
    ∧ (s.macUp i = true → s.fld F.MAC_PORT_STAT.LPI_CAP i = 1 → s.fld F.MAC_EEE_CTL.EN i = 1 → s.outQueue i = [] →
        Completes (.lpiEnter p) s (fun u => Tbl.get (fun _ => false) u.link.lpi i = true ∧ u = s.putLink u.link))
    ∧ (s.macUp k = true → k < 256 ∨ fr.length < 76 → fits → Completes (.macFrameReceive link fr false bad) s (fun u => adds u k 4 1
        ∧ adds u k 7 (b2n bad) ∧ u.intake = s.intake ∧ u.cfl.frames = s.cfl.frames
        ∧ u.cfl.books = (s.cfl.books.alloc (cellsFor (s.headroom + fr.length))).pipeToReclaim (cellsFor (s.headroom + fr.length))))
    ∧ (s.macUp i = true → 60 ≤ fr.length → fr.length ≤ s.fld F.MAC_PORT_CFG.MAXLEN i → s.icrcOk (macBank i) fr = false → fits →
        Completes (.macFrameReceive (.net p) fr true bad) s (fun u => adds u i 4 1 ∧ u.intake = s.intake))
    ∧ (s.macUp i = true → s.icrcOk (macBank i) fr = true → 60 ≤ fr.length → fr.length ≤ s.fld F.MAC_PORT_CFG.MAXLEN i → rdN fr 12 2 ≠ 0x8808 → fits →
        room (macBank i) (.port p) → Completes (.macFrameReceive (.net p) fr true bad) s (fun u => taken u (.port p)
          ∧ adds u i 2 1 ∧ adds u i 3 fr.length))
    ∧ (s.macUp (256 + a.toNat) = true → 76 ≤ fr.length → headerGood fr = true → (rdN fr 12 1).testBit 0 = false → fits →
        s.fld F.ATL_CRED.RXHELD a.toNat < s.fld F.ATL_CFG.RXCRED a.toNat → room (macBank (256 + a.toNat)) (.attach a) →
        Completes (.macFrameReceive (.attach a) fr true bad) s (fun u => taken u (.attach a)
          ∧ u.fld F.ATL_CRED.RXHELD a.toNat = s.fld F.ATL_CRED.RXHELD a.toNat + 1
          ∧ u.fld F.ATL_REQ.LINES a.toNat = rdN fr 22 1 % 2 ^ 8))
    ∧ (s.macUp k = true → s.slackHolds k = false → s.nextTx k = some o → s.frame o.e.first = some f → s.plat.ecc = [] →
        Completes (.macFrameTransmit link) s (fun u => u.outQueue k = (s.outQueue k).erase o
          ∧ ∃ l, u.out = s.out ++ [.frame (keyMac k) l true] ∧ adds u k 0 1 ∧ adds u k 1 l.length
            ∧ (k < 256 → s.fld F.MAC_PTP_CTL.TXC_EN k = 0 → l = s.icrcPut (macBank k) (s.outputBytes f o false).1)
            ∧ (256 ≤ k → (u.credBook (k - 256)).sent = (s.credBook (k - 256)).sent + 1)))
    ∧ (s.macUp k = true → s.slackHolds k = false → s.nextTx k = none → Completes (.macFrameTransmit link) s (fun u => Settles s u))
    ∧ (atNet → s.txts i = (id, ns, sec) :: rest → id < 2 ^ 8 → ns < 2 ^ 32 → sec < 2 ^ 32 → Completes (.txtsRead (.net p)) s (fun u =>
        u.txts i = rest ∧ u.fld F.MAC_TXTS_ID.VALID i = 1 ∧ u.fld F.MAC_TXTS_ID.TSID i = id ∧ u.fld F.MAC_TXTS_NS.NS i = ns
        ∧ u.fld F.MAC_TXTS_SEC.SEC i = sec ∧ u.reply = .data (u.rd .MAC_TXTS_ID i)
        ∧ RegsKept s u [(.MAC_TXTS_ID, i), (.MAC_TXTS_NS, i), (.MAC_TXTS_SEC, i)]))
    ∧ (s.reachable (bankChip (macBank k)) = true → s.txts k = [] → Completes (.txtsRead link) s (fun u => u.link = s.link
        ∧ u.fld (macF k F.MAC_TXTS_ID.VALID F.ATL_TXTS_ID.VALID) (macI k) = 0))

/-- R472 to R475, R487 to R494: pause and PFC frames received and sent; attach control frames sent and received. Model's choices in it: log
entries 10, 46 and 47; an event whose condition fails changes nothing (log entry 2). It says that a next state is answered, and which:
pauseFrameReceive, pauseTimerExpire, pfcXoffSend, pfcRefreshSend, pfcXonSend, attachControlFrameSend, attachControlFrameReceive. -/
def Obligations.LinkControl : Prop :=
  ∀ (s : State) (p cls classes : BitVec 8) (c : BitVec 3) (a : BitVec 5) (quanta : List (BitVec 16)) (fr : List (BitVec 8)),
    let i := p.toNat
    let n := a.toNat
    let held := fun (u : State) j => (u.fld F.MAC_FC_HELD.HELD i).testBit j
    let r := s.fcScope i c.toNat
    let acts := s.fcActs i c.toNat = true
    let sends := fun (u : State) q x => u.out = s.out ++ [.pause i r.1.toNat q] ∧ u.xoffOf i = x ∧ u.cfl = s.cfl
    let hit := fun j => (classes.toNat &&& s.fld F.MAC_FC_CTL.PFC_EN i).testBit j
    let stat := fun (u : State) x => u.rd64 .MAC_STAT .MAC_STAT_HI (i * 17 + x)
    (s.macUp i = true → s.fcMode i = 1 → Completes (.pauseFrameReceive p false cls quanta) s (fun u =>
        (∀ j, j < 8 → held u j = decide (quanta.getD 0 0 ≠ 0)) ∧ stat u 9 = (stat s 9 + 1) % 2 ^ 64))
    ∧ (s.macUp i = true → s.fcMode i = 2 → Completes (.pauseFrameReceive p true classes quanta) s (fun u =>
        (∀ j, j < 8 → held u j = if hit j then decide (quanta.getD j 0 ≠ 0) else held s j)
        ∧ stat u 9 = (stat s 9 + 1) % 2 ^ 64))
    ∧ (s.macUp i = true → s.fcMode i ≠ 2 → Completes (.pauseFrameReceive p true classes quanta) s (fun u =>
        u.fld F.MAC_FC_HELD.HELD i = s.fld F.MAC_FC_HELD.HELD i ∧ stat u 10 = (stat s 10 + 1) % 2 ^ 64))
    ∧ Completes (.pauseTimerExpire p c) s (fun u => (∀ j, j < 8 → held u j = (held s j && j != c.toNat))
        ∧ RegsKept s u [(.MAC_FC_HELD, i)])
    ∧ (acts → s.fld F.MAC_FC_THR.XOFF i < r.2 → s.xoffOf i &&& r.1 = 0 → Completes (.pfcXoffSend p c) s (fun u =>
        sends u (s.fld F.MAC_FC_CTL.QUANTA i) (s.xoffOf i ||| r.1)))
    ∧ (acts → s.fld F.MAC_FC_THR.XON i < r.2 → s.xoffOf i &&& r.1 ≠ 0 → Completes (.pfcRefreshSend p c) s (fun u =>
        sends u (s.fld F.MAC_FC_CTL.QUANTA i) (s.xoffOf i)))
    ∧ (acts → r.2 ≤ s.fld F.MAC_FC_THR.XON i → s.xoffOf i &&& r.1 ≠ 0 → Completes (.pfcXonSend p c) s (fun u =>
        sends u 0 (s.xoffOf i &&& ~~~r.1)))
    ∧ (s.fcActs i c.toNat = false → Completes (.pfcXoffSend p c) s (fun u => u = s) ∧ Completes (.pfcXonSend p c) s (fun u => u = s))
    ∧ (s.macUp (256 + n) = true → 0 < (s.credBook n).due → s.outQueue (256 + n) = [] → s.slackHolds (256 + n) = false →
        Completes (.attachControlFrameSend a) s (fun u => (u.credBook n).due = 0
          ∧ (u.credBook n).ret = ((s.credBook n).ret + (s.credBook n).due) % 2 ^ 16
          ∧ ∃ l, u.out = s.out ++ [.frame (.attach a) l true] ∧ (rdN l 12 1).testBit 0 = true
            ∧ rdN l 20 2 = ((s.credBook n).ret + (s.credBook n).due) % 2 ^ 16))
    ∧ (s.macUp (256 + n) = true → headerGood fr = true → (rdN fr 12 1).testBit 1 = false → Completes (.attachControlFrameReceive a fr) s
        (fun u => (u.credBook n).last = some (rdN fr 20 2) ∧ u.fld F.ATL_REQ.LINES n = rdN fr 22 1 % 2 ^ 8 ∧ u.cfl = s.cfl))
    ∧ (s.macUp (256 + n) = true → headerGood fr = false → fr.length < 76 → Completes (.attachControlFrameReceive a fr) s (fun u =>
        (u.rd .ATL_HDR_BAD n).toNat = Nat.min (2 ^ 32 - 1) ((s.rd .ATL_HDR_BAD n).toNat + 1) ∧ u.link = s.link))

/-- R480 to R485: Slack water: LLDP, offer, acceptance, withdrawal, and the windows of an agreement; a rendezvous that succeeds or misses.
Model's choices in it: log entry 49; an event whose condition fails changes nothing (log entry 2). It says that a next state is answered,
and which: lldpTransmit, lldpInfoExpire, slackOffer, slackAccept, slackWithdraw, slackScheduleStart, slackWakeStart, slackFirstSymbol,
slackRendezvousMiss, slackAlignTimeout, slackWindowEnd. -/
def Obligations.SlackWater : Prop :=
  ∀ (s : State) (link : MacPort) (t : SlackTlv) (x : Nat × Nat × Nat) (c : SlackSched) (w : SlackWin) (d : Int),
    let k := macKey link
    let up := s.macUp k = true
    let on := s.slackEn k = true
    let now := s.replica (bankChip (macBank k))
    let st := fun (u : State) => u.slackSt k
    let run := fun (u : State) => u.fld (macF k F.MAC_SLACK_STAT.RUN F.ATL_SLACK_STAT.RUN) (macI k)
    let skip := fun (u : State) => u.fld (macF k F.MAC_SLACK_STAT.SKIP F.ATL_SLACK_STAT.SKIP) (macI k)
    let misses := fun (u : State) => u.fld (macF k F.MAC_SLACK_MISS.COUNT F.ATL_SLACK_MISS.COUNT) (macI k)
    let ended := fun (u : State) => (st u).offer = none ∧ (st u).agreed = none ∧ u.slackMode k = 0 ∧ run u = 0 ∧ skip u = 0
      ∧ (st u).win = (st s).win
    let sent := fun (u : State) y => u.out = s.out ++ [.lldp (keyMac k) y]
    let live := (st s).win = some w ∧ w.judged = false ∧ w.aligned = false ∧ w.stepped = false ∧ (st s).agreed = some c
    let missed := fun (u : State) => u.slackMode k = 3 ∧ run u = 0 ∧ misses u = Nat.min (2 ^ 32 - 1) (misses s + 1)
    (up → s.slackEn k = false → Completes (.lldpTransmit link) s (fun u => Settles (s.emit (.lldp (keyMac k) none)) u))
    ∧ (up → on → s.proposes k = false → Completes (.lldpTransmit link) s (fun u => sent u (some s.plainTlv) ∧ st u = st s))
    ∧ (up → on → s.proposes k = true → s.slackOffered k ≠ 0 → s.groupSchedule (s.slackGroup k) = some x → (st s).agreed = none →
        0 < x.1 → s.slackMode k = 0 → Completes (.lldpTransmit link) s (fun u => u.slackMode k = 1 ∧ ∃ y, (st u).offer = some y
          ∧ y.p = x.1 ∧ y.o = x.2.1 ∧ y.d = x.2.2 ∧ y.g = s.slackGuard k ∧ y.skip = s.slackOffered k ∧ y.start % y.skip = 0
          ∧ now + 2000000000 ≤ y.start * y.p + y.o ∧ sent u (some (s.schedTlv y true))))
    ∧ Completes (.lldpInfoExpire link) s (fun u => ended u ∧ (st u).place = none)
    ∧ (up → t.withdraw = false → t.offer = true → s.canKeep k t = true → t.skip < 256 → Completes (.slackOffer link t) s (fun u =>
        (st u).agreed = some { p := t.p, o := t.o, d := t.d, g := max t.g (s.slackGuard k), start := t.start, skip := t.skip }
        ∧ u.slackMode k = 1 ∧ skip u = t.skip ∧ ∃ y, sent u (some (s.schedTlv y false)) ∧ (st u).agreed = some y))
    ∧ (up → t.withdraw = false → t.offer = true → s.canKeep k t = false → on → Completes (.slackOffer link t) s (fun u =>
        sent u (some s.plainTlv) ∧ (st u).agreed = (st s).agreed ∧ (st u).place = some t.place))
    ∧ ((st s).offer = some c → on → tlvEchoes t c = true → now + 100000 < c.start * c.p + c.o → c.skip < 256 →
        Completes (.slackAccept link t) s (fun u => (st u).agreed = some { c with g := t.g } ∧ (st u).offer = none
          ∧ u.slackMode k = 2 ∧ run u = 0 ∧ skip u = c.skip))
    ∧ ((st s).offer = none → Completes (.slackAccept link t) s (fun u => u = s))
    ∧ Completes (.slackWithdraw link) s ended
    ∧ (up → on → s.slackMode k ≠ 0 → Completes (.slackWithdraw link) s (fun u => sent u (some s.plainTlv)))
    ∧ ((st s).agreed = some c → s.slackMode k = 1 → (st s).offer = none → c.start * c.p + c.o ≤ now →
        Completes (.slackScheduleStart link) s (fun u => u.slackMode k = 2 ∧ run u = 0 ∧ st u = st s))
    ∧ ((st s).win = some w → s.slackReached k w 2000 = true → Completes (.slackWakeStart link) s (fun u =>
        u = s.setSlack k { st s with win := some { w with woken := true } }))
    ∧ ((st s).win = some w → s.slackReached k w 0 = true → (st s).agreed = some c → Completes (.slackWindowEnd link) s (fun u =>
        (st u).win = (if w.judged && w.aligned then none else some { w with woken := true, ended := true })
        ∧ u.regs = s.regs ∧ (st u).agreed = some c))
    ∧ ((st s).win = some w → s.slackReached k w 0 = false → Completes (.slackWindowEnd link) s (fun u => u = s))
    ∧ (live → w.ended = false → Completes (.slackFirstSymbol link d) s (fun u =>
        (st u).win = some { w with aligned := true, judged := true }
        ∧ u.rd (if k < 256 then .MAC_SLACK_WAKE else .ATL_SLACK_WAKE) (macI k) = sat32 d
        ∧ (c.g < d.natAbs → missed u)
        ∧ (d.natAbs ≤ c.g → misses u = misses s ∧ (s.slackMode k ≠ 3 → u.slackMode k = s.slackMode k ∧ run u = run s)
          ∧ (s.slackMode k = 3 → run s < 7 → u.slackMode k = 3 ∧ run u = run s + 1)
          ∧ (s.slackMode k = 3 → run s = 7 → u.slackMode k = 2 ∧ run u = 0))))
    ∧ (live → w.ends + c.g ≤ now → Completes (.slackRendezvousMiss link) s (fun u =>
        (st u).win = some { w with judged := true } ∧ missed u))
    ∧ ((st s).win = some w → w.aligned = false → up → w.ends + 1000000 ≤ now → Completes (.slackAlignTimeout link) s (fun u =>
        u.macUp k = false ∧ u.slackSt k = slackReset))

/-- R495 to R497, R500: a discovery walk starts, takes up its links, hears an answer or none, and ends. Model's choices in it: log entry 50;
an event whose condition fails changes nothing (log entry 2). It says that a next state is answered, and which: discGo, discoveryWalk,
probeAnswer, probeTimeout, discoveryWalkEnd. -/
def Obligations.DiscoveryWalks : Prop :=
  ∀ (s : State) (w : DiscWalk) (a : BitVec 5) (body : List (BitVec 8)) (n : Nat),
    let fresh := fun b => ({ next := 0, probes := 0, recs := [], changed := false, rerun := b } : DiscWalk)
    let busy := fun (u : State) => u.fld F.HDW_DISC_STAT.BUSY 0
    let silent := some { w with next := w.next + 1, probes := 0, recs := w.recs ++ [s.silentRec w.next] }
    let probed := fun (u : State) m => u.link.walk = some { w with probes := m }
      ∧ ∃ l, u.out = s.out ++ [.frame (.attach (BitVec.ofNat 5 w.next)) l true] ∧ (rdN l 12 1).testBit 1 = true
    let known := Tbl.get (fun _ => 0) s.link.known a.toNat
    let rec_ := answerRec body
    (s.reachable 0 = true → s.link.walk = none → Completes .discGo s (fun u => u.link.walk = some (fresh false) ∧ busy u = 1
        ∧ RegsKept s u [(.HDW_DISC_STAT, 0)]))
    ∧ (s.reachable 0 = true → s.link.walk ≠ none → Completes .discGo s (fun u => OnlyRegs (s.putReply .ok) u [(.HDW_DISC_REJ, 0)]
        ∧ (u.rd .HDW_DISC_REJ 0).toNat = Nat.min (2 ^ 32 - 1) ((s.rd .HDW_DISC_REJ 0).toNat + 1)))
    ∧ (s.link.walk = some w → w.next < 32 → w.probes = 0 →
      (s.macUp (256 + w.next) = false ∨ s.isFenced (bankChip (w.next / 8)) = true → Completes .discoveryWalk s (fun u =>
          u.link.walk = silent ∧ u.regs = s.regs ∧ u.out = s.out))
      ∧ (s.macUp (256 + w.next) = true → s.isFenced (bankChip (w.next / 8)) = false → Completes .discoveryWalk s (fun u => probed u 1)))
    ∧ (s.link.walk = some w → w.probes = 1 → w.next < 32 → s.macUp (256 + w.next) = true → Completes .probeTimeout s (fun u => probed u 2))
    ∧ (s.link.walk = some w → w.probes = 2 → Completes .probeTimeout s (fun u => u.out = s.out ∧ u.link.walk = some { w with
        next := w.next + 1, probes := 0, recs := w.recs ++ [{ s.silentRec w.next with up := true, fenced := false }] }))
    ∧ (s.link.walk = some w → w.next = a.toNat → w.probes ≠ 0 → Completes (.probeAnswer a body) s (fun u =>
        u.link.walk = some { w with next := a.toNat + 1, probes := 0, recs := w.recs ++ [rec_]
                                    changed := w.changed || (known != 0 && known != rec_.boardId + 1) }
        ∧ Tbl.get (fun _ => 0) u.link.known a.toNat = rec_.boardId + 1 ∧ u.regs = s.regs))
    ∧ (s.link.walk = some w → 32 ≤ w.next →
      (w.changed = false → Completes .discoveryWalkEnd s (fun u => u.link.walk = none ∧ busy u = 0
          ∧ u.fld F.HDW_DISC_STAT.DONE 0 = 1 ∧ u.fld F.HDW_DISC_STAT.CHANGED 0 = 0
          ∧ ∀ r, w.recs[n]? = some r → r.roles < 256 → u.rd .HDW_DISC_W1 n = BitVec.ofNat 32 r.ver
            ∧ (u.rd .HDW_DISC_W0 n).toNat / 2 ^ 16 = r.boardId % 2 ^ 16))
      ∧ (w.changed = true → w.rerun = false → Completes .discoveryWalkEnd s (fun u => u.link.walk = some (fresh true) ∧ busy u = 1))
      ∧ (w.changed = true → w.rerun = true → Completes .discoveryWalkEnd s (fun u => u.link.walk = none ∧ busy u = 0
          ∧ u.fld F.HDW_DISC_STAT.CHANGED 0 = 1 ∧ u.fld F.HDW_DISC_STAT.RERUN 0 = 1)))

/-- R508 to R514, R530, R555, R556, R563: the vault: a write is committed as a new copy within its budget, a read gives the payload, a power-
fail warning; the SPI flash: its commands and their end. Model's choices in it: log entry 51; an event whose condition fails changes
nothing (log entry 2). It says that a next state is answered, and which: vaultWrite, vaultRead, commitTokenRefill, vaultCopyWriteDone,
powerFailWarning, erase, program, flashRead, flashCommandDone. -/
def Obligations.VaultAndFlash : Prop :=
  ∀ (s : State) (rid : BitVec 7) (p : List Byte) (w : CopyWrite) (a i : Nat) (pin : Bool),
    let r := rid.toNat
    let n := s.fld F.HDW_VAULT_LEN.BYTES 0
    let result := fun (u : State) => u.fld F.HDW_VAULT_STAT.RESULT 0
    let tokens := fun (u : State) => u.fld F.HDW_VAULT_STAT.TOKENS 0
    let old := match s.inUseCopy r with | some c => 1 - c | none => 0
    let seq := match s.inUseCopy r with | some c => (copySeq (s.copyBytes r c) + 1) % 2 ^ 32 | none => 1
    let tells := fun (u : State) x => result u = x ∧ OnlyRegs (s.putReply .ok) u [(.HDW_VAULT_STAT, 0)]
    let fl := fun (u : State) k => Tbl.get flashDef u.trust.flash k
    let addr := s.fld F.HDW_FLASH_ADDR.ADDR 0
    let outcome := fun (u : State) => u.fld F.HDW_FLASH_STAT.RESULT 0
    let starts := fun (u : State) c => u.trust.flashCmd = some (addr * 4 + c) ∧ u.fld F.HDW_FLASH_STAT.BUSY 0 = 1
      ∧ RegsKept s u [(.HDW_FLASH_STAT, 0)] ∧ u.trust.flash = s.trust.flash
    let refuses := fun (u : State) x => outcome u = x ∧ OnlyRegs (s.putReply .ok) u [(.HDW_FLASH_STAT, 0)]
    let idle := s.fld F.HDW_FLASH_STAT.BUSY 0 = 0 ∧ s.reachable 0 = true
    let ended := fun (u : State) => u.fld F.HDW_FLASH_STAT.BUSY 0 = 0 ∧ u.trust.flashCmd = none
    let win := fun (u : State) j => (u.rd .HDW_FLASH_WIN j).toNat
    let open_ := s.fld F.HDW_VAULT_STAT.PFAIL 0 = 0 ∧ s.reachable 0 = true
    (open_ → ridKnown r = true → n ≤ 4032 → s.mayWrite r = true → s.trust.pend = [] → s.trust.copy = none →
        1 ≤ tokens s → Completes (.vaultWrite rid) s (fun u => result u = 0 ∧ tokens u = tokens s - 1
          ∧ u.fld F.HDW_VAULT_STAT.BUSY 0 = 1 ∧ u.trust.mram = s.trust.mram ∧ u.trust.copy
              = some { rid := r, copy := old, bytes := copyImage r seq (rdAt (s.copyBytes r old) 12 4 + 1) (s.vaultBuf n) }))
    ∧ (open_ → ridKnown r = true → n ≤ 4032 → s.mayWrite r = true → s.trust.pend = [] → tokens s = 0 →
        Completes (.vaultWrite rid) s (fun u => result u = 0 ∧ u.fld F.HDW_VAULT_STAT.PEND 0 = 1
          ∧ u.trust.pend = [(r, some (s.vaultBuf n))] ∧ u.trust.copy = s.trust.copy))
    ∧ (open_ → ridKnown r = true → n ≤ 4032 → s.mayWrite r = false → Completes (.vaultWrite rid) s (fun u => tells u 3))
    ∧ (s.reachable 0 = true → s.fld F.HDW_VAULT_STAT.PFAIL 0 = 1 → Completes (.vaultWrite rid) s (fun u => tells u 5))
    ∧ (s.reachable 0 = true → ridKnown r = true → r ≠ 18 → s.record r = some p → p.length ≤ 4032 → Completes (.vaultRead rid) s (fun u => result u = 0
        ∧ u.fld F.HDW_VAULT_LEN.BYTES 0 = p.length
        ∧ (4 * i + 4 ≤ p.length → (u.rd .HDW_VAULT_BUF i).toNat = beNat ((p.drop (4 * i)).take 4)) ∧ u.trust = s.trust))
    ∧ (s.reachable 0 = true → ridKnown r = true → r ≠ 18 → s.record r = none → Completes (.vaultRead rid) s (fun u => result u = 4 ∧ u.trust = s.trust))
    ∧ (s.reachable 0 = true → r = 18 → Completes (.vaultRead rid) s (fun u => tells u 3))
    ∧ (s.trust.pend = [] → Completes .commitTokenRefill s (fun u => tokens u = min 1024 (tokens s + 1)
        ∧ OnlyRegs s u [(.HDW_VAULT_STAT, 0)]))
    ∧ (s.trust.copy = some w → s.trust.pend = [] → Completes .vaultCopyWriteDone s (fun u => u.trust.copy = none
        ∧ u.inUseCopy w.rid = some w.copy ∧ u.mramRead (copyOff w.rid w.copy) w.bytes.length = w.bytes
        ∧ u.fld F.HDW_VAULT_STAT.BUSY 0 = 0
        ∧ (u.rd .HDW_VAULT_COMMITS 0).toNat = Nat.min (2 ^ 32 - 1) ((s.rd .HDW_VAULT_COMMITS 0).toNat + 1)))
    ∧ Completes (.powerFailWarning pin) s (fun u => u.fld F.HDW_VAULT_STAT.PFAIL 0 = 1 ∧ u.trust.pend = [] ∧ u.trust.copy = none
        ∧ u.trust.pfailOut = true ∧ u.fld F.HDW_VAULT_STAT.PEND 0 = 0)
    ∧ (idle → addr % 65536 = 0 → s.flashInUse addr = false → Completes .erase s (fun u => starts u 1))
    ∧ (idle → addr % 65536 ≠ 0 → Completes .erase s (fun u => refuses u 2))
    ∧ (idle → addr % 256 = 0 → s.flashInUse addr = false → Completes .program s (fun u => starts u 2)
      ∧ Completes .flashRead s (fun u => starts u 3))
    ∧ (idle → addr % 256 = 0 → s.flashInUse addr = true → Completes .program s (fun u => refuses u 1)
      ∧ Completes .flashRead s (fun u => refuses u 1))
    ∧ (s.reachable 0 = true → s.fld F.HDW_FLASH_STAT.BUSY 0 = 1 → Completes .program s (fun u => u.fld F.HDW_FLASH_STAT.REJ 0 = 1
        ∧ OnlyRegs (s.putReply .ok) u [(.HDW_FLASH_STAT, 0)]))
    ∧ (s.trust.flashCmd = some (a * 4 + 1) → Completes (.flashCommandDone false) s (fun u => ended u ∧ outcome u = 0
        ∧ ∀ k, fl u k = if k / 65536 = a / 65536 then 0xFF else fl s k))
    ∧ (s.trust.flashCmd = some (a * 4 + 2) → Completes (.flashCommandDone false) s (fun u => ended u ∧ outcome u = 0
        ∧ (∀ j b, j < 64 → b < 4 → (fl u (a + 4 * j + b)).toNat = win s j / 256 ^ (3 - b) % 256)
        ∧ ∀ k, k < a ∨ a + 256 ≤ k → fl u k = fl s k))
    ∧ (s.trust.flashCmd = some (a * 4 + 3) → Completes (.flashCommandDone false) s (fun u => ended u ∧ outcome u = 0
        ∧ u.trust.flash = s.trust.flash
        ∧ ∀ j, j < 64 → win u j = beNat ((List.range 4).map (fun b => fl s (a + 4 * j + b)))))
    ∧ (s.trust.flashCmd = some a → Completes (.flashCommandDone true) s (fun u => ended u ∧ outcome u = 3))

/-- R503, R515 to R520, R529, R560: challenge and token, the effects of an accepted token, the debug levels and their ends, and the MCTP
requests that firmware answers. Model's choices in it: log entries 52 and 53; an event whose condition fails changes nothing (log entry
2). It says that a next state is answered, and which: lcChalNew, provision, deploy, lcReturn, observe, intrude, vaultWriteToken, debugOff,
debugExpiry, submit, mctpRequest. -/
def Obligations.LifecycleAndDebug : Prop :=
  ∀ (s : State) (b : BootTests) (page : BitVec 18) (data : List (BitVec 8)) (rid k : Nat),
    let lc := fun (u : State) => u.lifecycle
    let debug := fun (u : State) => u.debugLevel
    let busy := fun (u : State) => u.fld F.HDW_LC_STAT.BUSY 0
    let pend := fun (u : State) => u.fld F.HDW_LC_STAT.LC_PEND 0
    let result := fun (u : State) => u.fld F.HDW_LC_STAT.RESULT 0
    let code := s.tokenCheck s.lcToken
    let free := s.trust.pwrCmd = none
    let closed := fun (u : State) => u.trust.accepted = none ∧ busy u = 0
    let calm := debug s ≠ 2 ∨ lc s ≠ 2
    let on := s.trust.power = .on ∧ s.reachable 0 = true
    let off := page.toNat * 256
    (s.reachable 0 = true → s.dieState = 1 → Completes .lcChalNew s (fun u => u.trust.nonce = true ∧ u.fld F.HDW_LC_CHAL.NEW 0 = 0
        ∧ (∀ i, i < 8 → u.rd .HDW_LC_NONCE i = Config.dieWord (s.free + i)) ∧ u.free = s.free + 8))
    ∧ (s.reachable 0 = true → s.dieState ≠ 1 → Completes .lcChalNew s (fun u => u.trust.nonce = false ∧ u.fld F.HDW_LC_CHAL.NEW 0 = 1))
    ∧ (s.reachable 0 = true → busy s = 0 → Completes .submit s (fun u => result u = code ∧ u.trust.nonce = false
        ∧ (∀ i, i < 50 → u.rd .HDW_LC_TOKEN i = 0) ∧ (code = 0 → u.trust.accepted = some (rdAt s.lcToken 4 1) ∧ busy u = 1)
        ∧ (code ≠ 0 → u.trust.accepted = s.trust.accepted ∧ busy u = 0)))
    ∧ (s.reachable 0 = true → busy s = 0 → lc s = 0 → pend s = 0 → Completes .provision s (fun u => result u = 0 ∧ pend u = 1
        ∧ u.trust.fuses = s.trust.fuses ||| 1))
    ∧ (s.reachable 0 = true → busy s = 0 → lc s ≠ 0 → Completes .provision s (fun u => result u = 3 ∧ OnlyRegs (s.putReply .ok) u [(.HDW_LC_STAT, 0)]))
    ∧ (s.trust.accepted = some 3 → free → Completes .deploy s (fun u => u.trust.fuses = s.trust.fuses ||| 2 ∧ pend u = 1
        ∧ u.fld F.HDW_COMPAT.FORCE_EN 0 = 0 ∧ debug u = 0 ∧ closed u ∧ lc u = lc s))
    ∧ (s.trust.accepted = some 5 → free → Completes .vaultWriteToken s (fun u => closed u
        ∧ u.trust.write = some (s.trust.tokRid, s.trust.digest, s.time.tick) ∧ RegsKept s u [(.HDW_LC_STAT, 0)]))
    ∧ (s.trust.accepted = some 4 → free → calm → Completes (.lcReturn b) s (fun u => u.trust.fuses = s.trust.fuses ||| 4 ∧ pend u = 1
        ∧ debug u = 0 ∧ closed u ∧ u.keys.cache = [] ∧ (16 ≤ rid → rid ≤ 31 → u.inUseCopy rid = none)
        ∧ (copyOff 16 0 ≤ k → k < copyOff 32 0 → Tbl.get (fun _ => (0 : Byte)) u.trust.mram k = 0)))
    ∧ (s.trust.accepted = some 1 → free → calm → Completes (.observe b) s (fun u => debug u = 1 ∧ closed u))
    ∧ (s.trust.accepted = some 2 → free → lc s ≠ 2 → Completes .intrude s (fun u => debug u = 2 ∧ closed u
        ∧ RegsKept s u [(.HDW_LC_STAT, 0)]))
    ∧ (s.trust.accepted = some 2 → free → lc s = 2 → s.trust.intruding = false → s.insWith 1 = [] → s.insWith 3 = [] →
        Completes .intrude s (fun u => debug u = 2 ∧ closed u ∧ u.fld F.HDW_LC_STAT.INTRUDED 0 = 1 ∧ u.plat.doe = [] ∧ u.keys.cache = []))
    ∧ (s.trust.accepted = some 6 ∨ busy s = 0 → free → calm → Completes (.debugOff b) s (fun u => debug u = 0 ∧ closed u))
    ∧ (calm → debug s ≠ 0 → s.trust.notAfter * 1000000000 < s.time.now ∨ s.trust.since + 86400000000000 ≤ s.time.tick →
        Completes (.debugExpiry b) s (fun u => debug u = 0 ∧ u.trust = s.trust))
    ∧ (s.time.now ≤ s.trust.notAfter * 1000000000 → s.time.tick < s.trust.since + 86400000000000 →
        Completes (.debugExpiry b) s (fun u => u = s))
    ∧ (on → Completes (.mctpRequest .bootStat) s (fun u => u = s.emit (.answer [s.rd .HDW_BOOT_STAT 0])))
    ∧ (on → s.flashInUse off = false → Completes (.mctpRequest (.flashWrite page data)) s (fun u =>
        (∀ j, j < 256 → Tbl.get flashDef u.trust.flash (off + j) = data.getD j 0) ∧ u.out = s.out ++ [.answer [0]] ∧ u.regs = s.regs))
    ∧ (on → busy s = 0 → lc s ≠ 0 → Completes (.mctpRequest .provision) s (fun u => result u = 3
        ∧ u.out = s.out ++ [.answer [u.rd .HDW_LC_STAT 0]]))

/-- R523 to R527, R557: the power states: Active, Drowse and Hold, the governor, the thermal trip, self-refresh, and the loss of the supply.
Model's choices in it: log entry 54; an event whose condition fails changes nothing (log entry 2). It says that a next state is answered,
and which: supplyLoss, active, drowse, hold, powerGovernorInterval, thermalTrip, hbmSelfRefresh. -/
def Obligations.PowerStates : Prop :=
  ∀ (s : State) (w : BitVec 16) (low : Bool) (tj tc : BitVec 8) (stack : BitVec 2) (c : CopyWrite),
    let on := s.trust.power = .on
    let go := on ∧ s.fld F.HDW_LC_STAT.BUSY 0 = 0
    let waits := fun i n => on → s.fld F.HDW_LC_STAT.BUSY 0 = 1 → s.trust.pwrCmd = none → Completes i s (fun u =>
      u = s.putTrust { s.trust with pwrCmd := some n })
    let state := fun (u : State) => u.fld F.HDW_PWR_STAT.STATE 0
    let step := fun (u : State) => u.fld F.HDW_PWR_STAT.STEP 0
    let dark := fun (u : State) p => u.trust.power = p ∧ u.trust.flash = s.trust.flash ∧ u.trust.fuses = s.trust.fuses
      ∧ u.lifecycle = s.lifecycle ∧ u.debugLevel = 0 ∧ u.trust.pend = []
      ∧ (∀ r i, r ≠ .HDW_LC_STAT → u.rd r i = State.reset.rd r i) ∧ u.eng = State.reset.eng ∧ u.hbm = State.reset.hbm
    let n := if s.polValue 310 < w.toNat then min 3 (step s + 1) else if low && decide (w.toNat + 100 ≤ s.polValue 310) then step s - 1 else step s
    (go → Completes .active s (fun u => state u = 0 ∧ step u = 0 ∧ u.trust.drowse = false ∧ u.trust.selfRef = 0
        ∧ RegsKept s u [(.HDW_PWR_STAT, 0)]))
    ∧ (go → Completes .drowse s (fun u => state u = 2 ∧ step u = 3 ∧ u.trust.drowse = true ∧ RegsKept s u [(.HDW_PWR_STAT, 0)]))
    ∧ (go → s.trust.copy = none → Completes .hold s (fun u => dark u .hold ∧ u.trust.mram = s.trust.mram))
    ∧ waits .active 1 ∧ waits .drowse 2 ∧ waits .hold 3
    ∧ (on → s.trust.drowse = false → Completes (.powerGovernorInterval w low) s (fun u => step u = n ∧ state u = (if n = 0 then 0 else 1)
        ∧ u.fld F.HDW_PWR_STAT.POWER 0 = w.toNat ∧ (u.rd .HDW_PWR_TRIMS 0).toNat
          = (if step s = 0 ∧ n ≠ 0 then Nat.min (2 ^ 32 - 1) ((s.rd .HDW_PWR_TRIMS 0).toNat + 1) else (s.rd .HDW_PWR_TRIMS 0).toNat)
        ∧ OnlyRegs s u [(.HDW_PWR_STAT, 0), (.HDW_PWR_TRIMS, 0)]))
    ∧ (on → s.trust.drowse = true → Completes (.powerGovernorInterval w low) s (fun u => step u = step s ∧ state u = state s
        ∧ u.fld F.HDW_PWR_STAT.POWER 0 = w.toNat ∧ OnlyRegs s u [(.HDW_PWR_STAT, 0)]))
    ∧ (on → 110 ≤ tj.toNat → s.trust.copy = none → Completes (.thermalTrip tj tc) s (fun u => dark u .hold))
    ∧ (tj.toNat < 110 → Completes (.thermalTrip tj tc) s (fun u => u = s))
    ∧ (on → s.trust.drowse = true → s.hbmMapped = true → Completes (.hbmSelfRefresh stack) s (fun u =>
        u.trust.selfRef.getLsbD stack.toNat = true ∧ u = s.putTrust { s.trust with selfRef := u.trust.selfRef }))
    ∧ (s.trust.copy = none → Completes .supplyLoss s (fun u => dark u .off ∧ u.trust.mram = s.trust.mram))
    ∧ (s.trust.copy = some c → Completes .supplyLoss s (fun u => dark u .off
        ∧ copyValid c.rid (u.copyBytes c.rid c.copy) = false))

/-- R22, R531, R535 to R545, R547 to R549: an event enters its unit's history; the log takes an append, is cleared and read; force bits,
injected faults, flit retries; event counters count, clear and are copied. Model's choices in it: log entries 26, 27 and 60; an event
whose condition fails changes nothing (log entry 2). It says that a next state is answered, and which: meshFlitRetry, counterSnapshot,
troubleEvent, logAppend, historyEntryRead, trbForce, trbInjArm, injectedFaultApply, logClear, eventCount, cntClear. -/
def Obligations.TroubleAndCounters : Prop :=
  ∀ (s : State) (e : TroubleEv) (x : LogEntry) (rest : List LogEntry) (g i ctr : Nat) (v : BitVec 32) (entry : BitVec 3)
    (addr : BitVec 48) (chip : BitVec 4) (n : BitVec 10) (f : Firing),
    let up := fun g => unitExists (grpChip g) (grpBlk g) = true ∧ s.reachable (grpChip g) = true
    let count := fun (u : State) g => u.fld F.TRB_HIST.COUNT g
    let slot := e.grp * 64 + count s e.grp % 8 * 8
    let widx := s.fld F.LOG_WIDX.INDEX 0
    let seq := (s.rd .LOG_SEQ 0).toNat
    let log := fun (u : State) j => (u.rd .LOG_ENT (widx * 8 + j)).toNat
    let he := g * 64 + entry.toNat * 8
    let armed := s.fld F.TRB_INJ.ARMED g = 1
    let kind := s.fld F.TRB_INJ.KIND g
    let retries := fun (u : State) c => Tbl.get (fun _ => 0) u.plat.retries c
    let ecc := fun (u : State) => Tbl.get (fun _ => 0) u.plat.ecc (eccKey g addr.toNat)
    let live := ctrExists ctr = true ∧ s.reachable (ctrChip ctr) = true
    let most := min n.toNat (ctrMax (ctrChip ctr))
    let due := s.fireDue (.counters chip) 5 f = true ∧ (s.unitWork (.counters chip) 5).work = none ∧ s.isFenced chip.toNat = false
    let c := chip.toNat * 128 + i
    (up e.grp → codeSev e.code.toNat = some e.sev.toNat → Completes (.troubleEvent e) s (fun u =>
        (u.fld F.TRB_STAT.SEV e.grp).testBit e.sev.toNat = true ∧ count u e.grp = (count s e.grp + 1) % 2 ^ 28
        ∧ u.fld F.TRB_HIST.NEWEST e.grp = count s e.grp % 8
        ∧ (u.rd .TRB_HENT (slot + 6)).toNat * 2 ^ 32 + (u.rd .TRB_HENT (slot + 7)).toNat = e.data.toNat))
    ∧ (s.trb.queue = x :: rest → s.fld F.LOG_CTL.FREEZE 0 = 0 → Completes .logAppend s (fun u => u.trb.queue = rest
        ∧ u.fld F.LOG_WIDX.INDEX 0 = (widx + 1) % 2 ^ 16 ∧ (u.rd .LOG_SEQ 0).toNat = (seq + 1) % 2 ^ 32 ∧ log u 2 = seq
        ∧ log u 0 * 2 ^ 32 + log u 1 = x.w0.toNat ∧ log u 6 * 2 ^ 32 + log u 7 = x.w3.toNat
        ∧ (u.rd .LOG_LAP 0).toNat = (if widx = 65535 then Nat.min (2 ^ 32 - 1) ((s.rd .LOG_LAP 0).toNat + 1) else (s.rd .LOG_LAP 0).toNat)))
    ∧ (s.trb.queue = x :: rest → s.fld F.LOG_CTL.FREEZE 0 = 1 → Completes .logAppend s (fun u => u.trb.queue = rest
        ∧ (u.rd .LOG_DROP 0).toNat = Nat.min (2 ^ 32 - 1) ((s.rd .LOG_DROP 0).toNat + 1) ∧ RegsKept s u [(.LOG_DROP, 0)]))
    ∧ (s.reachable 0 = true → Completes .logClear s (fun u => u.rd .LOG_WIDX 0 = 0 ∧ u.rd .LOG_SEQ 0 = 0 ∧ u.rd .LOG_LAP 0 = 0
        ∧ (∀ j, u.rd .LOG_ENT j = 0) ∧ ∀ r j, r ∉ [.LOG_ENT, .LOG_WIDX, .LOG_SEQ, .LOG_LAP] → u.rd r j = s.rd r j))
    ∧ (up g → Completes (.historyEntryRead g entry) s (fun u => u.reply = .data (s.rd .TRB_HENT he)
        ∧ (∀ j, 1 ≤ j → j ≤ 7 → u.latched .TRB_HENT (he + j) = s.rd .TRB_HENT (he + j)) ∧ u.regs = s.regs))
    ∧ (up g → s.fld F.HDW_COMPAT.FORCE_EN 0 = 0 → Completes (.trbForce g v) s (fun u => RegsKept s u [(.TRB_STAT, g)]
        ∧ ∀ j, j < 4 → (u.fld F.TRB_STAT.SEV g).testBit j = ((s.fld F.TRB_STAT.SEV g).testBit j && !v.toNat.testBit j)))
    ∧ (up g → s.fld F.HDW_COMPAT.FORCE_EN 0 = 1 → i < 4 → v.toNat / 2 ^ 8 % 16 = 2 ^ i → Completes (.trbForce g v) s (fun u =>
        (u.fld F.TRB_STAT.SEV g).testBit i = true ∧ count u g = (count s g + 1) % 2 ^ 28))
    ∧ (up g → Completes (.trbInjArm g v) s (fun u => u.fld F.TRB_INJ.KIND g = v.toNat % 16 ∧ RegsKept s u [(.TRB_INJ, g)]
        ∧ (v.toNat / 16 % 2 = 1 → s.factoryMode = true → (s.fld F.TRB_INJ.CAP g).testBit (v.toNat % 16) = true →
            u.fld F.TRB_INJ.ARMED g = 1)
        ∧ (s.factoryMode = false → u.fld F.TRB_INJ.ARMED g = s.fld F.TRB_INJ.ARMED g)))
    ∧ (armed → Completes (.injectedFaultApply g addr) s (fun u => u.fld F.TRB_INJ.ARMED g = 0 ∧ (kind = 1 → ecc u = 3)
        ∧ (kind = 2 → ecc u = 4) ∧ (kind = 3 → retries u (grpChip g) = retries s (grpChip g) + 1) ∧ (kind = 4 → u.reply = .busError)))
    ∧ (s.fld F.TRB_INJ.ARMED g = 0 → Completes (.injectedFaultApply g addr) s (fun u => u = s))
    ∧ (s.reachable chip.toNat = true → Completes (.meshFlitRetry chip) s (fun u => retries u chip.toNat = retries s chip.toNat + 1
        ∧ u = s.putPlat { s.plat with retries := u.plat.retries }))
    ∧ (live → s.fld F.CNT_CTL.EN ctr = 1 → s.fld F.CNT_CTL.SAT ctr = 0 → 1 ≤ s.fld F.CNT_CTL.SEL ctr →
        s.fld F.CNT_CTL.SEL ctr ≤ selMax (ctrChip ctr) → s.ctrVal ctr % 2 ^ 48 + most < 2 ^ 48 → Completes (.eventCount ctr n) s (fun u =>
          u.ctrVal ctr = s.ctrVal ctr + most ∧ OnlyRegs s u [(.CNT_VAL, ctr), (.CNT_VAL_HI, ctr)]))
    ∧ (live → Completes (.cntClear ctr n) s (fun u => u.ctrVal ctr = (if s.fld F.CNT_CTL.EN ctr = 1 then most else 0)
        ∧ u.fld F.CNT_CTL.SAT ctr = 0 ∧ RegsKept s u [(.CNT_VAL, ctr), (.CNT_VAL_HI, ctr), (.CNT_CTL, ctr)]))
    ∧ (due → (s.unitWork (.counters chip) 5).pend = none → f.ford = false → i < ctrCount chip.toNat →
        Completes (.counterSnapshot chip f) s (fun u => u.rd64 .CNT_SNAP .CNT_SNAP_HI c = s.ctrVal c
          ∧ u.ctrVal c = (if f.arg.toNat % 2 = 1 then 0 else s.ctrVal c)
          ∧ u.rd .CNT_SNAP_CYC chip.toNat = BitVec.ofNat 32 f.cycle ∧ u.trb = s.trb))

/-- R7 to R9, R11, R12, R19, R26, R27, R174, R397 to R399: accesses by register and by address: the two words of a 64-bit quantity, read-clear
fields, plain registers, HBM, requests through PF1 BAR0, and refused accesses. Model's choices in it: that RC_FIELD_READ reads any
register (log entry 2), the order of checks (log entry 8), one field's value without effect (log entry 10). It says that a next state is
answered, and which: quantityLowRead, quantityLowWrite, quantityHighWrite, rcFieldRead, registerWrite, unassignedAccess,
uncachedCoherentAccess, pf1Bar0Request. -/
def Obligations.RegisterAccess : Prop :=
  ∀ (s : State) (r hi : Reg) (i a off : Nat) (v ev : BitVec 32) (who : Requester) (addr : BitVec 48) (len : Nat) (l : List (BitVec 8))
    (wr : Bool) (ep : BitVec 5) (ap : BitVec 28) (m : Nat) (own : Bool),
    let here := s.reachable (regChip r i) = true
    let kept := fun (u : State) rs => u = { s with regs := u.regs, latch := u.latch, stage := u.stage, reply := u.reply } ∧ RegsKept s u rs
    let pl := r ∈ [Reg.BNK_HASH_SEED, .BRD_FLOW_TMO, .HDW_VAULT_BUF, .HDW_FLASH_WIN]
    let target := regAddr r i = some a ∧ devTarget a = some (.reg r i)
    let x := hbmBase + off
    let sized := len ∈ [1, 2, 4, 8, 16] ∧ x % len = 0
    let clean := s.poisonedIn off len = false ∧ s.plat.ecc = []
    let holds := fun (u : State) => ∀ k, Tbl.get (fun _ => (0 : Byte)) u.hbm.mem k
      = if off ≤ k ∧ k < off + l.length then l.getD (k - off) 0 else Tbl.get (fun _ => 0) s.hbm.mem k
    let e := ep.toNat
    let reach := s.pf1Present e = true ∧ s.flag F.PCIE_CMD.MSE (fnKey e pf1Fn) = true
      ∧ s.reachable (bankChip (epBank e)) = true
    let at_ := fun y => s.apBase e (ap.toNat / 0x1000000) + ap.toNat % 0x1000000 = y
    let unsup := fun (u : State) => u.reply = .unsupportedRequest ∧ u.fld F.PCIE_AER.UR (fnKey e pf1Fn) = (if wr then 1 else s.fld F.PCIE_AER.UR (fnKey e pf1Fn))
      ∧ u.out = s.out ++ [.unsupported e pf1Fn] ∧ RegsKept s u [(.PCIE_AER, fnKey e pf1Fn)] ∧ u.hbm = s.hbm
    (quantHigh r = some hi → here → Completes (.quantityLowRead r i) s (fun u => u.reply = .data (typedRead r (s.rd r i))
        ∧ u.latched hi i = typedRead hi (s.rd hi i) ∧ u.rd r i = afterRead r (s.rd r i) ∧ u.rd hi i = afterRead hi (s.rd hi i)
        ∧ u.stage = s.stage ∧ kept u [(r, i), (hi, i)]))
    ∧ (quantHigh r = some hi → here → Completes (.quantityLowWrite r i v) s (fun u => u.reply = .ok ∧ u.staged r i = some v
        ∧ u.latch = s.latch ∧ kept u []))
    ∧ (quantHigh r = some hi → here → r ∉ [Reg.CFL_SQ_VAL, .CFL_SQ_LIMIT, .RING_TXBASE, .RING_RXBASE] →
        Completes (.quantityHighWrite r i v) s (fun u => u.reply = .ok ∧ u.staged r i = none
          ∧ u.rd r i = typedWrite r (BitVec.ofNat 32 (s.lowWord r i)) (s.rd r i) ∧ u.rd hi i = typedWrite hi v (s.rd hi i)
          ∧ u.latch = s.latch ∧ kept u [(r, i), (hi, i)]))
    ∧ (r = .CFL_SQ_LIMIT → here → s.flag F.CFL_SQ_CTL.EN i = false → Completes (.quantityHighWrite r i v) s (fun u => u.reply = .ok
        ∧ u.rd64 .CFL_SQ_LIMIT .CFL_SQ_LIMIT_HI i = s.lowWord r i + v.toNat * 2 ^ 32
        ∧ kept u [(.CFL_SQ_LIMIT, i), (.CFL_SQ_LIMIT_HI, i)]))
    ∧ (r = .RING_TXBASE → here → s.flag F.RING_ARM.ARMED i = false → Completes (.quantityHighWrite r i v) s (fun u => u.reply = .ok
        ∧ u.rd64 .RING_TXBASE .RING_TXBASE_HI i = s.lowWord r i / 64 * 64 + v.toNat * 2 ^ 32
        ∧ kept u [(.RING_TXBASE, i), (.RING_TXBASE_HI, i)]))
    ∧ (quantHigh r = some hi → s.reachable (regChip r i) = false → Completes (.quantityLowWrite r i v) s (fun u => u = s.answer .busError))
    ∧ (r ∈ [Reg.POL_CTL, .TIME_STEPS, .PCI_FRY_REJ, .LOG_DROP, .BRD_DICE_MAXHITS] → regAddr r i = some a → here → Completes (.rcFieldRead r i ev) s (fun u =>
        u.reply = .data (typedRead r (s.rd r i))
        ∧ u.rd r i = afterRead r (s.rd r i) ||| (ev &&& rcMask r) ∧ kept u [(r, i)]))
    ∧ (pl → target → s.busRefuses .firmware a true = false → Completes (.registerWrite .firmware r i v) s (fun u =>
        u = (s.wr r i v).answer .ok))
    ∧ (target → s.busRefuses .firmware a true = true → Completes (.registerWrite .firmware r i v) s (fun u => u = s.answer .busError))
    ∧ (regAddr r i = none → barOwner r i = some (m, own) → own = true ∨ who ≠ .host m → (match who with | .pf1 _ => false | _ => true) = true →
        Completes (.registerWrite who r i v) s (fun u => u = s.refused who true ∧ u.regs = s.regs))
    ∧ (inHbm addr.toNat 4 = false → s.busRefuses .firmware addr.toNat wr = true → Completes (.unassignedAccess .firmware addr wr) s (fun u =>
        u = s.answer .busError))
    ∧ (inHbm addr.toNat 4 = false → s.busRefuses (.pf1 ep) addr.toNat wr = true → Completes (.unassignedAccess (.pf1 ep) addr wr) s unsup)
    ∧ (addr.toNat = x → sized → s.hbmDenied .firmware x len false = false → clean →
        Completes (.uncachedCoherentAccess addr len none .firmware) s (fun u => u.reply = .bytes (s.hbmRead off len)
          ∧ u.hbm.mem = s.hbm.mem ∧ u.regs = s.regs))
    ∧ (addr.toNat = x → l.length = len → sized → s.hbmDenied .firmware x len true = false →
        Completes (.uncachedCoherentAccess addr len (some l) .firmware) s (fun u => u.reply = .ok ∧ holds u ∧ u.regs = s.regs))
    ∧ (addr.toNat % len ≠ 0 ∨ len ∉ [1, 2, 4, 8, 16] → Completes (.uncachedCoherentAccess addr len none who) s (fun u =>
        u = s.answer .busError))
    ∧ (reach → at_ a → target → pl → s.busRefuses (.pf1 ep) a false = false → Completes (.pf1Bar0Request ep ap (.read 4)) s (fun u =>
        u.reply = .bytes (leBytes 4 (s.rd r i).toNat) ∧ kept u []))
    ∧ (reach → at_ a → target → pl → s.busRefuses (.pf1 ep) a true = false → l.length = 4 →
        Completes (.pf1Bar0Request ep ap (.write l)) s (fun u => u = (s.wr r i (BitVec.ofNat 32 (leNat l))).answer .ok))
    ∧ (reach → at_ a → a < hbmBase → s.busRefuses (.pf1 ep) a wr = true →
        Completes (.pf1Bar0Request ep ap (if wr then .write [0, 0, 0, 0] else .read 4)) s unsup)
    ∧ (reach → at_ x → off + len ≤ hbmSize → 1 ≤ len → len ≤ 512 → s.hbmDenied (.pf1 ep) x len false = false → clean →
        Completes (.pf1Bar0Request ep ap (.read len)) s (fun u => u.reply = .bytes (s.hbmRead off len) ∧ u.hbm.mem = s.hbm.mem
          ∧ u.regs = s.regs))
    ∧ (s.pf1Present e = false → Completes (.pf1Bar0Request ep ap (.read len)) s (fun u => u = s.answer .unsupportedRequest))

/-- R13, R14, R19, R22, R56, R80, R502, R526, R553, R554, R558 to R560, R562: module resets and start-up, a failed mesh link, HBM training,
the entry into service with the default calendar, and the fence of a chiplet. Model's choices in it: log entries 55, 56, 57 and 58. It
says that a next state is answered, and which: moduleColdReset, moduleWarmReset, chipletFence, meshLinkFail, hbmTrainingDone,
serviceEntry, hold, holdWake. -/
def Obligations.ResetAndStartUp : Prop :=
  ∀ (s : State) (place : BitVec 20) (fuses : BitVec 3) (b : BootTests) (c w : BitVec 4) (ms : BitVec 32) (t4 : BitVec 4),
    let stage := fun (u : State) => u.fld F.HDW_BOOT_STAT.STAGE 0
    let fenced := fun (u : State) => u.fld F.HDW_BOOT_STAT.FENCED 0
    let hbm := fun (u : State) => u.fld F.HDW_BOOT_STAT.HBM 0
    let on := s.trust.power = .on
    let lost := s.slotValid 0 = false ∧ s.slotValid 1 = false
    let cold := fun (P : State → Prop) => Completes (.moduleColdReset place fuses b) s P
    let placed := fun (strap : BitVec 20) => match s.placeBytes with | some l => BitVec.ofNat 20 (beNat l / 2 ^ 16) | none => strap
    let none_ := fun (u : State) => stage u = 6 ∧ fenced u = 0xFF3E ∧ hbm u = 0 ∧ u.eng = State.reset.eng ∧ u.hbm = State.reset.hbm
    let ended := fun (u : State) => (stage u = 4 ∧ u.plat.udt = u.udtBuild) ∨ (stage u = 6 ∧ fenced u = 0xFF3E)
    let banks := (List.range 4).all (fun k => s.reachable (bankChip k)) = true
    let chip := c.toNat
    let fences := on ∧ fenceable chip = true ∧ s.isFenced chip = false ∧ 1 ≤ w.toNat ∧ w.toNat ≤ 5 ∧ (w.toNat ≠ 5 ∨ s.dma = [])
    let bare := s.configPairs = [] ∧ s.plat.coldBoot = true
      ∧ ∀ i, s.rd .TTB_SLOT_W0 i = 0 ∧ s.rd .TTB_SLOT_W1 i = 0 ∧ s.staged .TTB_SLOT_W1 i = none
    let slot := fun (u : State) i cls div target => u.fld F.TTB_SLOT_W0.VALID i = 1 ∧ u.fld F.TTB_SLOT_W0.CLASS i = cls
      ∧ u.fld F.TTB_SLOT_W0.DIV i = div ∧ u.fld F.TTB_SLOT_W1.TARGET i = target
    (b.selfTest.getLsbD 0 = true → cold (fun u => u.plat.linkFailed = 0xFFFF ∧ u.eng = State.reset.eng ∧ u.hbm = State.reset.hbm
        ∧ u.plat.place = placed place ∧ u.plat.straps = place ∧ u.trust.mram = s.trust.mram ∧ u.trust.flash = s.trust.flash
        ∧ u.trust.fuses = s.trust.fuses ||| fuses ∧ u.pending = s.pending
        ∧ ∀ r i, eventReg r = false → u.rd r i = State.reset.rd r i))
    ∧ (b.selfTest.getLsbD 0 = false → lost → cold (fun u => none_ u ∧ u.plat.place = placed place
        ∧ u.lifecycle = fuseLifecycle (s.trust.fuses ||| fuses) ∧ u.trust.flash = s.trust.flash))
    ∧ (b.selfTest.getLsbD 0 = false → cold (fun u => ended u))
    ∧ (on → b.selfTest.getLsbD 0 = false → lost → Completes (.moduleWarmReset b) s (fun u => none_ u ∧ u.plat.place = placed s.plat.straps
        ∧ u.time = s.time ∧ u.trust.flash = s.trust.flash ∧ u.lifecycle = fuseLifecycle s.trust.fuses
        ∧ u.fld F.HDW_LC_STAT.INTRUDED 0 = s.fld F.HDW_LC_STAT.INTRUDED 0
        ∧ ∀ r i, keptReg r = true → u.rd r i = s.rd r i))
    ∧ (s.trust.power ≠ .on → Completes (.moduleWarmReset b) s (fun u => u = s))
    ∧ (s.trust.power = .hold → Completes (.holdWake place fuses b) s (fun u => exec (.moduleColdReset place fuses b) s = .next u))
    ∧ (s.trust.power ≠ .hold → Completes (.holdWake place fuses b) s (fun u => u = s))
    ∧ (on → s.plat.linkFailed.getLsbD chip = false → chip ≠ 1 → chip ≠ 6 → chip ≠ 7 → s.keys.fetch = [] →
        Completes (.meshLinkFail c) s (fun u => u.plat = { s.plat with linkFailed := s.plat.linkFailed ||| BitVec.ofNat 16 (2 ^ chip) }
          ∧ u.reachable chip = false ∧ ∃ t, (s.putPlat u.plat).sameButEvents t ∧ Settles t u))
    ∧ (chip ∈ [1, 6, 7] → Completes (.meshLinkFail c) s (fun u => u = s))
    ∧ (on → stage s = 4 → t4 = 0xF → banks → Completes (.hbmTrainingDone t4) s (fun u => hbm u = 1
        ∧ u.fld F.HDW_BOOT_STAT.TRAINED 0 = 15 ∧ u.hbm = State.reset.hbm ∧ stage u = 4))
    ∧ (on → stage s = 4 → t4 ≠ 0xF → Completes (.hbmTrainingDone t4) s (fun u => hbm u = 0
        ∧ u.fld F.HDW_BOOT_STAT.TRAINED 0 = t4.toNat ∧ u.hbm = s.hbm ∧ stage u = 4))
    ∧ (stage s ≠ 4 → Completes (.hbmTrainingDone t4) s (fun u => u = s) ∧ Completes (.serviceEntry ms) s (fun u => u = s))
    ∧ (on → stage s = 4 → Completes (.serviceEntry ms) s (fun u => stage u = 5 ∧ u.rd .HDW_BOOT_MS 0 = ms ∧ u.plat.coldBoot = false
        ∧ u.fld F.HDW_DISC_STAT.BUSY 0 = 1 ∧ u.link.walk.isSome = true ∧ u.hbm = s.hbm ∧ u.eng = s.eng ∧ u.cfl = s.cfl))
    ∧ (on → stage s = 4 → bare → Completes (.serviceEntry ms) s (fun u => slot u 0x000 5 0 0xFF3F ∧ slot u 0x100 7 0 0x003C
        ∧ slot u 0x120 1 6 0xFF00 ∧ slot u 0x200 3 4 0xFF3E ∧ slot u 0x300 2 8 0x003C ∧ slot u 0x800 4 10 0xFF00
        ∧ slot u 0xC00 6 15 0x0001 ∧ u.fld F.TTB_SLOT_W0.PHASE 0x120 = 5 ∧ u.fld F.TTB_SLOT_W0.FORD 0x120 = 1))
    ∧ (fences → Completes (.chipletFence c w) s (fun u => fenced u = (fenced s ||| 2 ^ chip) ∧ u.reachable chip = false
        ∧ u.rd64 .HDW_BOOT_WHY .HDW_BOOT_WHY_HI 0 = (s.rd64 .HDW_BOOT_WHY .HDW_BOOT_WHY_HI 0 ||| w.toNat <<< (4 * chip))
        ∧ (2 ≤ chip → chip ≤ 5 → hbm u = 0)))
    ∧ (fenceable chip = false ∨ s.isFenced chip = true → Completes (.chipletFence c w) s (fun u => u = s))
end

