-- ==== Sys2Proof/Laws/Memory.lean ====
section
/-! SUPPORT. Laws of the memories: a byte after a write, and that every memory operation keeps the canonical form. -/
namespace Sys2Proof.Machine

/-! ## Byte tables -/

theorem Tbl.wf_writeBytes (t : Tbl Byte) (k : Nat) (l : List Byte) (h : Memory.wf t = true) : Memory.wf (Tbl.writeBytes t k l) = true := by
  induction l generalizing t k with
  | nil => exact h
  | cons b l ih => exact ih _ _ (Tbl.wf_set _ _ _ _ h)

/-- A byte after a write of bytes from key k on. -/
theorem Tbl.get_writeBytes (t : Tbl Byte) (k : Nat) (l : List Byte) (j : Nat) :
    Tbl.get (fun _ => (0 : Byte)) (Tbl.writeBytes t k l) j
      = if k ≤ j ∧ j < k + l.length then l.getD (j - k) 0 else Tbl.get (fun _ => 0) t j := by
  induction l generalizing t k with
  | nil => rw [if_neg (by simp only [List.length_nil]; omega)]; rfl
  | cons b l ih =>
    rw [Tbl.writeBytes, ih, Tbl.get_set, List.length_cons]
    by_cases h : k = j
    · subst h; rw [if_neg (by omega), if_pos rfl, if_pos (by omega)]; simp
    · by_cases h2 : k + 1 ≤ j ∧ j < k + 1 + l.length
      · obtain ⟨d, hd⟩ : ∃ d, j - k = d + 1 := ⟨j - k - 1, by omega⟩
        rw [if_pos h2, if_pos (by omega), hd, show j - (k + 1) = d by omega]; rfl
      · rw [if_neg h2, if_neg h, if_neg (by omega)]

theorem Tbl.length_readBytes (t : Tbl Byte) (k n : Nat) : (Tbl.readBytes t k n).length = n := by
  induction n generalizing k with
  | zero => rfl
  | succ n ih => simp [Tbl.readBytes, ih]

theorem Tbl.getD_readBytes (t : Tbl Byte) (k n i : Nat) (h : i < n) :
    (Tbl.readBytes t k n).getD i 0 = Tbl.get (fun _ => (0 : Byte)) t (k + i) := by
  induction n generalizing k i with
  | zero => omega
  | succ n ih =>
    cases i with
    | zero => rfl
    | succ i => simpa [Tbl.readBytes, Nat.add_assoc, Nat.add_comm 1 i] using ih (k + 1) i (by omega)

/-- What was written is read. -/
theorem Tbl.readBytes_writeBytes (t : Tbl Byte) (k : Nat) (l : List Byte) : Tbl.readBytes (Tbl.writeBytes t k l) k l.length = l := by
  apply List.ext_getElem (Tbl.length_readBytes _ _ _)
  intro i _ hi
  have h := Tbl.getD_readBytes (Tbl.writeBytes t k l) k l.length i hi
  rw [Tbl.get_writeBytes, if_pos (by omega), Nat.add_sub_cancel_left] at h
  simpa [List.getD_eq_getElem?_getD, hi, Tbl.length_readBytes] using h

/-! ## The canonical form -/

/-- What leaves every memory alone keeps the form. -/
theorem State.MemoryOk.of_eq {s t : State} (h : s.MemoryOk) (hr : t.regs = s.regs) (hm : t.hbm.mem = s.hbm.mem) (he : t.eng = s.eng)
    (ht : t.trust = s.trust) : t.MemoryOk := by
  unfold State.MemoryOk at *; rw [hr, hm, he, ht]; exact h

theorem State.MemoryOk.foldl {α : Type} {f : State → α → State} (hf : ∀ s x, s.MemoryOk → (f s x).MemoryOk) (l : List α) (s : State)
    (h : s.MemoryOk) : (l.foldl f s).MemoryOk := by
  induction l generalizing s with
  | nil => exact h
  | cons x l ih => exact ih _ (hf _ _ h)

theorem State.MemoryOk.wr {s : State} (h : s.MemoryOk) (r : Reg) (i : Nat) (v : Word) : (s.wr r i v).MemoryOk :=
  ⟨s.regs_wf_wr r i v h.1, h.2⟩

theorem State.MemoryOk.setFld {s : State} (h : s.MemoryOk) (f : Fld) (i v : Nat) : (s.setFld f i v).MemoryOk := h.wr _ _ _

theorem State.MemoryOk.resetRegs {s : State} (h : s.MemoryOk) (p : Reg → Nat → Bool) : (s.resetRegs p).MemoryOk :=
  ⟨Tbl.wf_filter _ _ _ h.1, h.2⟩

theorem State.MemoryOk.eccWipe {s : State} (h : s.MemoryOk) (gs : List Nat) (a n : Nat) : (s.eccWipe gs a n).MemoryOk :=
  h.of_eq rfl rfl rfl rfl

theorem State.MemoryOk.setThread {s : State} (h : s.MemoryOk) (th : Nat) (t : Thread) : (s.setThread th t).MemoryOk := h

theorem State.MemoryOk.localWrite {s : State} (h : s.MemoryOk) (eng off : Nat) (l : List Byte) : (s.localWrite eng off l).MemoryOk :=
  ⟨h.1, h.2.1, Tbl.wf_writeBytes _ _ _ h.2.2.1, h.2.2.2⟩

theorem State.MemoryOk.clusterWrite {s : State} (h : s.MemoryOk) (cl off : Nat) (l : List Byte) : (s.clusterWrite cl off l).MemoryOk :=
  ⟨h.1, h.2.1, h.2.2.1, Tbl.wf_writeBytes _ _ _ h.2.2.2.1, h.2.2.2.2⟩

theorem State.MemoryOk.progWrite {s : State} (h : s.MemoryOk) (cl idx : Nat) (v : Word) : (s.progWrite cl idx v).MemoryOk :=
  ⟨h.1, h.2.1, h.2.2.1, h.2.2.2.1, Tbl.wf_set _ _ _ _ h.2.2.2.2.1, h.2.2.2.2.2⟩

theorem State.MemoryOk.mramWrite {s : State} (h : s.MemoryOk) (off : Nat) (l : List Byte) : (s.mramWrite off l).MemoryOk :=
  ⟨h.1, h.2.1, h.2.2.1, h.2.2.2.1, h.2.2.2.2.1, Tbl.wf_writeBytes _ _ _ h.2.2.2.2.2.1, h.2.2.2.2.2.2⟩

theorem State.MemoryOk.flashPut {s : State} (h : s.MemoryOk) (off : Nat) (l : List Byte) : (s.flashPut off l).MemoryOk := by
  refine ⟨h.1, h.2.1, h.2.2.1, h.2.2.2.1, h.2.2.2.2.1, h.2.2.2.2.2.1, ?_⟩
  have key : ∀ (xs : List (Byte × Nat)) (t : Tbl Byte), Tbl.wf flashDef t = true →
      Tbl.wf flashDef (xs.foldl (fun t x => Tbl.set flashDef t (off + x.2) x.1) t) = true := by
    intro xs
    induction xs with
    | nil => exact fun _ h => h
    | cons x xs ih => exact fun t h => ih _ (Tbl.wf_set _ _ _ _ h)
  exact key _ _ h.2.2.2.2.2.2

theorem State.MemoryOk.flashErase {s : State} (h : s.MemoryOk) (off : Nat) : (s.flashErase off).MemoryOk :=
  ⟨h.1, h.2.1, h.2.2.1, h.2.2.2.1, h.2.2.2.2.1, h.2.2.2.2.2.1, Tbl.wf_filter _ _ _ h.2.2.2.2.2.2⟩

theorem State.MemoryOk.setPoison {s : State} (h : s.MemoryOk) (line : Nat) (b : Bool) : (s.setPoison line b).MemoryOk :=
  h.of_eq rfl rfl rfl rfl

theorem State.MemoryOk.setDir {s : State} (h : s.MemoryOk) (line : Nat) (d : DirEntry) : (s.setDir line d).MemoryOk :=
  h.of_eq rfl rfl rfl rfl

theorem State.MemoryOk.setLine {s : State} (h : s.MemoryOk) (board line : Nat) (l : LineState) : (s.setLine board line l).MemoryOk :=
  h.of_eq rfl rfl rfl rfl

theorem State.MemoryOk.dropCopies {s : State} (h : s.MemoryOk) (line : Nat) : (s.dropCopies line).MemoryOk :=
  (State.MemoryOk.foldl (f := fun s b => s.setLine b line .i) (fun _ b hs => hs.setLine b line .i) _ _ h).setDir _ _

/-! ## What the coherence of lines keeps -/

/-- Registers, the bytes and the poison of HBM, the engines and the persistent memories stand as they were. -/
abbrev CohKeeps (s t : State) : Prop :=
  t.regs = s.regs ∧ t.hbm.mem = s.hbm.mem ∧ t.hbm.poison = s.hbm.poison ∧ t.eng = s.eng ∧ t.trust = s.trust

theorem CohKeeps.rfl' (s : State) : CohKeeps s s := ⟨rfl, rfl, rfl, rfl, rfl⟩

theorem CohKeeps.trans {s t u : State} (h : CohKeeps s t) (k : CohKeeps t u) : CohKeeps s u :=
  ⟨k.1.trans h.1, k.2.1.trans h.2.1, k.2.2.1.trans h.2.2.1, k.2.2.2.1.trans h.2.2.2.1, k.2.2.2.2.trans h.2.2.2.2⟩

theorem CohKeeps.foldl {α : Type} {f : State → α → State} (hf : ∀ s x, CohKeeps s (f s x)) (l : List α) (s : State) :
    CohKeeps s (l.foldl f s) := by
  induction l generalizing s with
  | nil => exact .rfl' s
  | cons x l ih => exact (hf s x).trans (ih _)

theorem CohKeeps.memoryOk {s t : State} (k : CohKeeps s t) (h : s.MemoryOk) : t.MemoryOk := h.of_eq k.1 k.2.1 k.2.2.2.1 k.2.2.2.2

theorem State.keeps_setLine (s : State) (b n : Nat) (x : LineState) : CohKeeps s (s.setLine b n x) := ⟨rfl, rfl, rfl, rfl, rfl⟩

theorem State.keeps_setDir (s : State) (n : Nat) (d : DirEntry) : CohKeeps s (s.setDir n d) := ⟨rfl, rfl, rfl, rfl, rfl⟩

theorem State.keeps_setDue (s : State) (b n k : Nat) : CohKeeps s (s.setDue b n k) := ⟨rfl, rfl, rfl, rfl, rfl⟩

theorem State.keeps_setHomeLine (s : State) (n : Nat) (h : HomeLine) : CohKeeps s (s.setHomeLine n h) := ⟨rfl, rfl, rfl, rfl, rfl⟩

theorem State.keeps_emit (s : State) (m : Msg) : CohKeeps s (s.emit m) := ⟨rfl, rfl, rfl, rfl, rfl⟩

theorem State.keeps_dropCopies (s : State) (line : Nat) : CohKeeps s (s.dropCopies line) :=
  (CohKeeps.foldl (f := fun s b => s.setLine b line .i) (fun s _ => .rfl' s) _ s).trans ⟨rfl, rfl, rfl, rfl, rfl⟩

theorem State.keeps_dirDrop (s : State) (b n : Nat) : CohKeeps s (s.dirDrop b n) := by
  unfold State.dirDrop; split
  · split <;> exact ⟨rfl, rfl, rfl, rfl, rfl⟩
  · exact ⟨rfl, rfl, rfl, rfl, rfl⟩
  · exact .rfl' s

theorem State.keeps_writeBack (s : State) (b n : Nat) : CohKeeps s (s.writeBack b n) := by
  have h : CohKeeps s (((s.setLine b n .i).setDue b n 0).dirDrop b n) := .trans ⟨rfl, rfl, rfl, rfl, rfl⟩ (State.keeps_dirDrop _ b n)
  exact h.trans ⟨rfl, rfl, rfl, rfl, rfl⟩

theorem State.keeps_evictClean (s : State) (b n : Nat) : CohKeeps s (s.evictClean b n) := by
  have h : CohKeeps s (((s.setLine b n .i).setDue b n 0).dirDrop b n) := .trans ⟨rfl, rfl, rfl, rfl, rfl⟩ (State.keeps_dirDrop _ b n)
  exact h.trans ⟨rfl, rfl, rfl, rfl, rfl⟩

theorem State.keeps_sscRoom (s : State) (b : Nat) : CohKeeps s (s.sscRoom b) := by
  simp only [State.sscRoom]
  split
  · exact .rfl' s
  · split
    · exact (show CohKeeps s s.draw from ⟨rfl, rfl, rfl, rfl, rfl⟩).trans (State.keeps_writeBack _ _ _)
    · exact (show CohKeeps s s.draw from ⟨rfl, rfl, rfl, rfl, rfl⟩).trans (State.keeps_evictClean _ _ _)

theorem State.keeps_homeAnswer (line : Nat) (x : HomeTxn) (s : State) (b : Nat) : CohKeeps s (s.homeAnswer line x b) := by
  unfold State.homeAnswer
  have h0 : CohKeeps s (if x.send.getLsbD b then s.emit (.coh (if x.fetch then cohFetch else cohInv) b line) else s) := by
    split <;> exact ⟨rfl, rfl, rfl, rfl, rfl⟩
  generalize (if x.send.getLsbD b then s.emit (.coh (if x.fetch then cohFetch else cohInv) b line) else s) = u at h0
  dsimp only
  split
  · refine h0.trans (CohKeeps.trans (t := ((u.setDue b line 0).setLine b line .i)) ⟨rfl, rfl, rfl, rfl, rfl⟩ ?_)
    exact (State.keeps_dirDrop _ b line).trans ⟨rfl, rfl, rfl, rfl, rfl⟩
  · split
    · exact h0.trans ⟨rfl, rfl, rfl, rfl, rfl⟩
    · split <;> exact h0.trans ⟨rfl, rfl, rfl, rfl, rfl⟩

/-- A cache with room, or one that has made room. -/
theorem State.keeps_room (s : State) (c : Bool) (b : Nat) : CohKeeps s (if c then s.sscRoom b else s) := by
  split
  · exact State.keeps_sscRoom s b
  · exact .rfl' s

theorem State.keeps_cohShare (s : State) (b n : Nat) : CohKeeps s (s.cohShare b n) := by
  have h0 := s.keeps_room (s.lineSt b n == .i) b
  simp only [State.cohShare]
  refine h0.trans (.trans ?_ ((State.keeps_setLine _ b n .s).trans ((State.keeps_setDue _ b n 1).trans
    ((State.keeps_setHomeLine _ n _).trans (State.keeps_emit _ _)))))
  generalize (if s.lineSt b n == .i then s.sscRoom b else s) = u
  split <;> exact State.keeps_setDir _ _ _

theorem State.keeps_cohOwn (s : State) (b n k : Nat) : CohKeeps s (s.cohOwn b n k) :=
  (s.keeps_room (s.lineSt b n == .i) b).trans ((State.keeps_dropCopies _ n).trans ((State.keeps_setLine _ b n .e).trans
    ((State.keeps_setDir _ n _).trans ((State.keeps_setDue _ b n 2).trans ((State.keeps_setHomeLine _ n _).trans
      (State.keeps_emit _ _))))))

theorem State.keeps_homeFinish (s : State) (line : Nat) : CohKeeps s (s.homeFinish line) := by
  unfold State.homeFinish
  split
  · exact .rfl' s
  · rename_i x hx
    have h0 := CohKeeps.foldl (State.keeps_homeAnswer line x) ((List.range 8).filter (fun b => x.await.getLsbD b)) s
    dsimp only
    split
    · exact h0.trans (State.keeps_cohShare _ _ _)
    · exact h0.trans (State.keeps_cohOwn _ _ _ _)
    · exact h0.trans (State.keeps_cohOwn _ _ _ _)

theorem State.keeps_cohServe (s : State) (line : Nat) : CohKeeps s (s.cohServe line) := by
  simp only [State.cohServe]
  split
  · exact State.keeps_setHomeLine _ _ _
  · exact .rfl' s

/-- Serving what waits for a line moves no data (R167, R169). -/
theorem State.keeps_homeSettle (s : State) (line : Nat) : CohKeeps s (s.homeSettle line) :=
  CohKeeps.foldl (f := fun s (_ : Nat) => (s.homeFinish line).cohServe line)
    (fun s _ => (s.keeps_homeFinish line).trans (State.keeps_cohServe _ line)) _ s

theorem State.keeps_payDue (s : State) (b n : Nat) (wr : Bool) : CohKeeps s (s.payDue b n wr) := by
  unfold State.payDue; split <;> exact ⟨rfl, rfl, rfl, rfl, rfl⟩

theorem State.keeps_acquireOwned (s : State) (b n : Nat) (wr : Bool) : CohKeeps s (s.acquireOwned b n wr) := by
  have h0 : CohKeeps s (if s.ownsLine b n then s else s.homeSettle n) := by
    split
    · exact .rfl' s
    · exact State.keeps_homeSettle s n
  simp only [State.acquireOwned]
  refine h0.trans ?_
  generalize (if s.ownsLine b n then s else s.homeSettle n) = u
  split
  · refine (State.keeps_payDue u b n true).trans ?_
    split
    · exact State.keeps_setLine _ _ _ _
    · exact .rfl' _
  · exact (u.keeps_room (u.lineSt b n == .i) b).trans ((State.keeps_dropCopies _ n).trans ((State.keeps_setLine _ b n _).trans
      (State.keeps_setDir _ n _)))

theorem State.MemoryOk.hbmPut {s : State} (h : s.MemoryOk) (off : Nat) (l : List Byte) : (s.hbmPut off l).MemoryOk := by
  unfold State.hbmPut
  refine State.MemoryOk.foldl (fun t n ht => ?_) _ _ ?_
  · split
    · exact ht.setPoison _ _
    · exact ht
  · exact ⟨h.1, Tbl.wf_writeBytes _ _ _ h.2.1, h.2.2⟩

theorem State.MemoryOk.hbmWrite {s : State} (h : s.MemoryOk) (off : Nat) (l : List Byte) : (s.hbmWrite off l).MemoryOk := by
  unfold State.hbmWrite
  split
  · exact h
  · exact State.MemoryOk.foldl (fun t n ht => ((t.keeps_homeSettle n).memoryOk ht).dropCopies n) _ _ (h.hbmPut off l)

theorem State.MemoryOk.hbmStore {s : State} (h : s.MemoryOk) (board off : Nat) (l : List Byte) : (s.hbmStore board off l).MemoryOk :=
  State.MemoryOk.foldl (fun s n ht => (s.keeps_acquireOwned board n true).memoryOk ht) _ _ (h.hbmPut off l)

/-! ## What a write of HBM leaves -/

theorem State.mem_foldl_keep {α : Type} {f : State → α → State} (hf : ∀ s x, (f s x).hbm.mem = s.hbm.mem) (l : List α) (s : State) :
    (l.foldl f s).hbm.mem = s.hbm.mem := by
  induction l generalizing s with
  | nil => rfl
  | cons x l ih => rw [List.foldl_cons, ih, hf]

theorem State.mem_hbmPut (s : State) (off : Nat) (l : List Byte) : (s.hbmPut off l).hbm.mem = Tbl.writeBytes s.hbm.mem off l := by
  unfold State.hbmPut
  rw [State.mem_foldl_keep]
  · rfl
  · intro t n; split <;> rfl

theorem State.mem_dropCopies (s : State) (line : Nat) : (s.dropCopies line).hbm.mem = s.hbm.mem := by
  change ((List.range 8).foldl (fun s b => s.setLine b line .i) s).hbm.mem = s.hbm.mem
  exact State.mem_foldl_keep (f := fun s b => s.setLine b line .i) (fun _ _ => rfl) _ _

/-- HBM after an uncached coherent write (R173). -/
theorem State.mem_hbmWrite (s : State) (off : Nat) (l : List Byte) : (s.hbmWrite off l).hbm.mem = Tbl.writeBytes s.hbm.mem off l := by
  unfold State.hbmWrite
  split
  · rename_i h; rw [List.isEmpty_iff.1 h]; rfl
  · rw [State.mem_foldl_keep (fun t n => (State.mem_dropCopies _ n).trans (t.keeps_homeSettle n).2.1), State.mem_hbmPut]

/-- HBM bytes just written are read (R173). -/
theorem State.hbmRead_hbmWrite (s : State) (off : Nat) (l : List Byte) : (s.hbmWrite off l).hbmRead off l.length = l := by
  rw [State.hbmRead, State.mem_hbmWrite, Tbl.readBytes_writeBytes]

end Sys2Proof.Machine
end

