-- ==== Sys2Proof/Machine/Lands.lean ====
section
/-! DEFINITION. The lands of the package (17, R564 to R568): names, groups, and the lands of lanes, clocks, resets and module signals.
They are constants of the package: no command reads or changes them. -/
namespace Sys2Proof.Machine

/-- A land: row and column, 1 to 116, seen from the land side. -/
structure Land where
  row : Nat
  col : Nat
deriving DecidableEq, Repr

/-- The alphabet of row names (R564). -/
def landLetters : List Char :=
  ['A', 'B', 'C', 'D', 'E', 'F', 'G', 'H', 'J', 'K', 'L', 'M', 'N', 'P', 'T', 'U', 'V', 'W', 'Y', 'Z']

/-- The two letters of a row (R564). -/
def rowName (r : Nat) : List Char := [landLetters.getD ((r - 1) / 20) 'A', landLetters.getD ((r - 1) % 20) 'A']

/-- The name of a land (R564): its row, then its column as three decimal digits. -/
def Land.name (p : Land) : List Char :=
  rowName p.row ++ [Nat.digitChar (p.col / 100 % 10), Nat.digitChar (p.col / 10 % 10), Nat.digitChar (p.col % 10)]

/-- The lanes of the module (R566): network, PCIe and attach lanes. -/
inductive Lane where
  | nl (n : Fin 256)
  | pl (n : Fin 512)
  | al (n : Fin 256)
deriving DecidableEq, Repr

/-- The Bank of a lane and its number l there (R566). -/
def Lane.place : Lane → Nat × Nat
  | .nl n => (n.val / 64, n.val % 64)
  | .pl n => (n.val / 128, 64 + n.val % 128)
  | .al n => (n.val / 64, 192 + n.val % 64)

/-- The four signals of a lane, in the order of their depths (R566). -/
inductive LaneSignal where
  | txp
  | txn
  | rxp
  | rxn
deriving DecidableEq, Repr

/-- How far a lane's signal lies from TXP (R566). -/
def LaneSignal.step : LaneSignal → Nat
  | .txp => 0
  | .txn => 1
  | .rxp => 2
  | .rxn => 3

/-- The land at a position of a Bank's band and a depth from the edge (R566); negative positions fall in a corner (R567). -/
def bandLand (bank : Nat) (pos : Int) (d : Nat) : Land :=
  match bank with
  | 0 => ⟨1 + d, (21 + pos).toNat⟩
  | 1 => ⟨(21 + pos).toNat, 116 - d⟩
  | 2 => ⟨116 - d, (96 - pos).toNat⟩
  | _ => ⟨(96 - pos).toNat, 1 + d⟩

/-- The land of a lane's signal (R566). -/
def Lane.land (x : Lane) (g : LaneSignal) : Land :=
  bandLand x.place.1 (6 + x.place.2 / 4 : Nat) (1 + 5 * (x.place.2 % 4) + g.step)

/-- The clock and reset inputs of the Banks (R567): a Bank's reference clock, an endpoint's PCIe clock, an endpoint's PERST#. -/
inductive BankInput where
  | brefClk (bank : Fin 4) (neg : Bool)
  | pclk (ep : Fin 32) (neg : Bool)
  | perst (ep : Fin 32)
deriving DecidableEq, Repr

/-- The land of a Bank's clock or reset input (R567). -/
def BankInput.land : BankInput → Land
  | .brefClk k n => bandLand k.val (-2) (if n then 2 else 1)
  | .pclk e n => bandLand (e.val / 8) (-4) ((if n then 2 else 1) + 2 * (e.val % 8))
  | .perst e => bandLand (e.val / 8) (-6) (1 + 2 * (e.val % 8))

/-- The Headwater and module signals (R568); strap n carries bit n of its field (R5). -/
inductive ModuleSignal where
  | osc25In | tref10In | ppsIn | ppsOut | mrst | pfailIn
  | pfailOut | spiClk | spiCs | spiIo0 | spiIo1 | spiIo2
  | spiIo3 | smbClk | smbDat | smbAlert | tck | tms
  | tdi | tdo | trst
  | strapDom (n : Fin 10)
  | strapSled (n : Fin 8)
  | strapMod (n : Fin 2)
  | vref18
deriving DecidableEq, Repr

/-- The lands 002 to 012 of the rows of R568, in order; none for VSS. -/
def moduleLands : List (Nat × List (Option ModuleSignal)) :=
  [(3, [some .osc25In, some .tref10In, some .ppsIn, some .ppsOut, some .mrst, some .pfailIn]),
   (5, [some .pfailOut, some .spiClk, some .spiCs, some .spiIo0, some .spiIo1, some .spiIo2]),
   (7, [some .spiIo3, some .smbClk, some .smbDat, some .smbAlert, some .tck, some .tms]),
   (9, [some .tdi, some .tdo, some .trst, none, none, none]),
   (11, (List.range 6).map (fun n => some (.strapDom (Fin.ofNat 10 n)))),
   (13, [some (.strapDom 6), some (.strapDom 7), some (.strapDom 8), some (.strapDom 9), some (.strapSled 0), some (.strapSled 1)]),
   (15, (List.range 6).map (fun n => some (.strapSled (Fin.ofNat 8 (n + 2))))),
   (17, [some (.strapMod 0), some (.strapMod 1), some .vref18, some .vref18, none, none])]

/-- The module signal on a land (R568). -/
def Land.signal (p : Land) : Option ModuleSignal :=
  match moduleLands.find? (fun e => e.1 == p.row) with
  | some e => if p.col % 2 = 0 ∧ 2 ≤ p.col ∧ p.col ≤ 12 then (e.2.getD (p.col / 2 - 1) none) else none
  | none => none

/-- A land of the core carries VIN (R565); the core's other lands are VSS. -/
def Land.isVin (p : Land) : Bool :=
  decide (21 ≤ p.row ∧ p.row ≤ 96 ∧ 21 ≤ p.col ∧ p.col ≤ 96 ∧ (p.row + p.col) % 2 = 0)

end Sys2Proof.Machine
end

