-- ==== Sys2Proof/WellFormed.lean ====
section
/-! DEFINITION. WellFormed: the ranges of the operands that the rules number (threads, instances, nodes, groups). -/
namespace Sys2Proof

/-- A Boene thread: 8 Boards of 8 clusters of 64 engines of 8 threads, then the four management engines' threads. -/
def thOk (th : Nat) : Bool := decide (th < 32800)

/-- An engine: th / 8 of some thread. -/
def engOk (eng : Nat) : Bool := decide (eng < 4100)

/-- An instance: 32 endpoints of PF0 and 1,024 VFs (R444). -/
def instOk (inst : Nat) : Bool := decide (inst < 32800)

/-- A DMA channel: 16 of each of 64 clusters (R442). -/
def chOk (ch : Nat) : Bool := decide (ch < 1024)

/-- A trouble group: chiplet × 256 + block index (R534). -/
def grpOk (g : Nat) : Bool := decide (g < 4096)

/-- A policy index of the model. -/
def polOk (p : Nat) : Bool := decide (p < 311)

/-- A scheduler node: 65,536 subscriber nodes, then the service nodes (R288). -/
def nodeOk (n : Nat) : Bool := decide (n < 131072)

/-- The requester exists. -/
def Requester.wf : Requester → Bool
  | .pf1 _ => true
  | .thread th => thOk th
  | .dma ch => chOk ch
  | .firmware => true
  | .host inst => instOk inst
  | .debug => true

/-- The input exists. -/
def Input.wf : Input → Bool
  | .port _ => true
  | .attach _ => true
  | .ring inst _ => instOk inst
  | .sq inst _ => instOk inst
  | .none => true

/-- The bucket pair exists. -/
def BucketId.wf : BucketId → Bool
  | .node n => nodeOk n
  | .policer _ => true

/-- The child exists. -/
def SchedChild.wf : SchedChild → Bool
  | .queue _ => true
  | .node n => nodeOk n

/-- The request names a channel that exists. -/
def TimedReq.wf : TimedReq → Bool
  | .descFetch _ _ => true
  | .txData _ => true
  | .subFetch _ => true
  | .dma ch => chOk ch

/-- The operands of a command name things the device has. -/
def Instr.wf (i : Instr) : Bool :=
  match i with
  | .moduleColdReset _ _ _ => true
  | .moduleWarmReset _ => true
  | .chipletFence _ _ => true
  | .endpointReset _ => true
  | .functionResetEnd inst => instOk inst
  | .staleVectorDrop inst => instOk inst
  | .slotQuarantineEnd inst => instOk inst
  | .reloadQuiesceLimit _ _ => true
  | .quantityLowRead _ _ => true
  | .quantityLowWrite _ _ _ => true
  | .quantityHighWrite _ _ _ => true
  | .rcFieldRead _ _ _ => true
  | .registerWrite who _ _ _ => who.wf
  | .unassignedAccess who _ _ => who.wf
  | .meshFlitRetry _ => true
  | .meshLinkFail _ => true
  | .hbmTrainingDone _ => true
  | .serviceEntry _ => true
  | .supplyLoss => true
  | .steerEntryWrite _ _ _ => true
  | .steerEntryMove _ _ => true
  | .steerBalanceInterval _ => true
  | .polCtlWrite p _ => polOk p
  | .policyManualApply p => polOk p
  | .admissionAdapt => true
  | .ecnAdapt => true
  | .diceHitLimitAdapt _ => true
  | .dredgeSpeedAdapt _ => true
  | .slackSkipAdapt _ permille => decide (permille ≤ 1000)
  | .powerCapAdapt _ _ => true
  | .timeAdvance => true
  | .ppsEdge => true
  | .ppsEdgeMissing => true
  | .tref10Measure _ => true
  | .tref10EdgeTimeout => true
  | .ppsOutRise => true
  | .ppsOutFall => true
  | .ptpMessageReceive _ _ _ => true
  | .announceReceiptTimeout _ => true
  | .phaseMeasurement _ _ _ => true
  | .holdoverSecond => true
  | .timeSet => true
  | .timeCorrectionDue _ _ => true
  | .tideBoundary => true
  | .ttbCtlWrite _ => true
  | .ttbSlotW1Write _ _ => true
  | .ttbSlotW0Write who _ _ => who.wf
  | .pendingFiringStart _ _ => true
  | .fordWindowClose _ => true
  | .backgroundStarvationGrant _ => true
  | .dredgeFiring _ _ => true
  | .dredgeBucketVisit _ => true
  | .soundingFiring _ _ => true
  | .auditEpochFlip _ _ _ => true
  | .soundingRepair _ _ _ => true
  | .soundingAuditEnd _ _ => true
  | .memoryScrubFiring _ _ => true
  | .microcodeRefresh _ _ => true
  | .counterSnapshot _ _ => true
  | .keyEpoch _ => true
  | .slackWaterFiring _ _ => true
  | .gateListChangeFiring _ => true
  | .cycle eng => engOk eng
  | .longStallEnd th => thOk th
  | .add th _ _ _ => thOk th
  | .sub th _ _ _ => thOk th
  | .and th _ _ _ => thOk th
  | .or th _ _ _ => thOk th
  | .xor th _ _ _ => thOk th
  | .sll th _ _ _ => thOk th
  | .srl th _ _ _ => thOk th
  | .sra th _ _ _ => thOk th
  | .slt th _ _ _ => thOk th
  | .sltu th _ _ _ => thOk th
  | .min th _ _ _ => thOk th
  | .max th _ _ _ => thOk th
  | .minu th _ _ _ => thOk th
  | .maxu th _ _ _ => thOk th
  | .mul th _ _ _ => thOk th
  | .mulhu th _ _ _ => thOk th
  | .mulh th _ _ _ => thOk th
  | .clz th _ _ => thOk th
  | .popc th _ _ => thOk th
  | .rev8 th _ _ => thOk th
  | .sextb th _ _ => thOk th
  | .sexth th _ _ => thOk th
  | .add1c th _ _ _ => thOk th
  | .crcw th _ _ _ => thOk th
  | .addi th _ _ _ => thOk th
  | .andi th _ _ _ => thOk th
  | .ori th _ _ _ => thOk th
  | .xori th _ _ _ => thOk th
  | .slti th _ _ _ => thOk th
  | .sltiu th _ _ _ => thOk th
  | .lui th _ _ => thOk th
  | .slli th _ _ _ => thOk th
  | .srli th _ _ _ => thOk th
  | .srai th _ _ _ => thOk th
  | .ext th _ _ _ _ => thOk th
  | .ins th _ _ _ _ => thOk th
  | .beq th _ _ _ => thOk th
  | .bne th _ _ _ => thOk th
  | .blt th _ _ _ => thOk th
  | .bge th _ _ _ => thOk th
  | .bltu th _ _ _ => thOk th
  | .bgeu th _ _ _ => thOk th
  | .jal th _ => thOk th
  | .jalr th _ _ _ => thOk th
  | .ldb th _ _ _ _ => thOk th
  | .ldh th _ _ _ _ => thOk th
  | .ldw th _ _ _ _ => thOk th
  | .ldq th _ _ _ _ => thOk th
  | .stb th _ _ _ _ => thOk th
  | .sth th _ _ _ _ => thOk th
  | .stw th _ _ _ _ => thOk th
  | .stq th _ _ _ _ => thOk th
  | .postedStoreComplete th => thOk th
  | .aadd th _ _ _ _ => thOk th
  | .aand th _ _ _ _ => thOk th
  | .aor th _ _ _ _ => thOk th
  | .axor th _ _ _ _ => thOk th
  | .aswp th _ _ _ _ => thOk th
  | .acas th _ _ _ _ => thOk th
  | .amaxu th _ _ _ _ => thOk th
  | .aminu th _ _ _ _ => thOk th
  | .bxor th _ _ _ => thOk th
  | .band th _ _ _ => thOk th
  | .bor th _ _ _ => thOk th
  | .bmov th _ _ => thOk th
  | .bzero th _ => thOk th
  | .brev th _ _ => thOk th
  | .binc th _ _ => thOk th
  | .bmask th _ _ _ => thOk th
  | .bput th _ _ _ _ => thOk th
  | .bget th _ _ _ => thOk th
  | .xtsa th _ _ => thOk th
  | .gmul th _ _ _ => thOk th
  | .tagcmp th _ _ _ _ => thOk th
  | .gatedBufferZero th => thOk th
  | .gatedTransferZeroOverwrite ch _ => chOk ch
  | .gateTimeout th => thOk th
  | .aese th _ _ _ => thOk th
  | .aesd th _ _ _ => thOk th
  | .roundUnitDone eng _ => engOk eng
  | .keyFetchDone _ _ _ => true
  | .pfetch th _ _ => thOk th
  | .payloadBlockArrive th => thOk th
  | .pldb th _ => thOk th
  | .pstb th _ _ _ => thOk th
  | .payloadWriteDone th => thOk th
  | .pwait th => thOk th
  | .dlk th _ _ _ _ => thOk th
  | .dins th _ _ _ _ => thOk th
  | .ddel th _ _ _ => thOk th
  | .flk th _ _ _ _ => thOk th
  | .fins th _ _ _ _ => thOk th
  | .fdel th _ _ _ => thOk th
  | .tlk th _ _ _ => thOk th
  | .lookupResult th => thOk th
  | .enq th _ _ _ => thOk th
  | .enqm th _ _ _ => thOk th
  | .drop th _ _ => thOk th
  | .polc th _ _ _ => thOk th
  | .hnew th _ _ => thOk th
  | .dmas th _ _ _ => thOk th
  | .dmaw th _ _ => thOk th
  | .dmap th _ _ => thOk th
  | .tstart th _ _ => thOk th
  | .tstop th _ => thOk th
  | .tset th _ _ _ => thOk th
  | .tget th _ _ _ => thOk th
  | .recv th _ _ => thOk th
  | .yield th => thOk th
  | .evwait th _ _ => thOk th
  | .sig th _ _ => thOk th
  | .halt th => thOk th
  | .mfsr th _ _ => thOk th
  | .mtsr th _ _ => thOk th
  | .mfsh th _ _ => thOk th
  | .mtsh th _ _ => thOk th
  | .shadd th _ _ _ => thOk th
  | .fence th _ => thOk th
  | .rnd th _ => thOk th
  | .trap th _ => thOk th
  | .cluStartWrite _ _ => true
  | .threadCmdReset _ _ _ => true
  | .threadCmdResetStart _ _ _ => true
  | .threadCmdStop _ _ _ => true
  | .cluFaultPop _ _ => true
  | .cluBufAlloc _ _ => true
  | .cluBufFree _ _ => true
  | .cluConfigWrite _ _ _ => true
  | .creditCtlApply _ => true
  | .programStoreWrite _ _ _ => true
  | .rds _ _ _ _ => true
  | .rdo _ _ _ => true
  | .upg _ _ => true
  | .wb _ _ => true
  | .evc _ _ => true
  | .dataS _ _ => true
  | .dataE _ _ => true
  | .grant _ _ => true
  | .inv _ _ => true
  | .fetch _ _ => true
  | .ackInv _ _ => true
  | .dataF _ _ => true
  | .noneF _ _ => true
  | .ackWb _ _ => true
  | .homeQueueServe _ => true
  | .uncachedCoherentAccess _ len _ who => decide (1 ≤ len ∧ len ≤ 64) && who.wf
  | .linePoison _ _ => true
  | .sscFlush _ => true
  | .sscFlushDone _ => true
  | .verify => true
  | .verifyDone => true
  | .apply => true
  | .applyDone => true
  | .discard => true
  | .macFrameReceive _ _ _ _ => true
  | .sideBufferRelease _ => true
  | .vectorSteerSend _ _ => true
  | .intakeCreditReturn _ _ => true
  | .learn _ => true
  | .vectorDispatch _ => true
  | .diceTdefWrite _ _ _ => true
  | .lookup _ _ => true
  | .insert _ _ => true
  | .delete _ _ => true
  | .update _ _ => true
  | .purge _ _ => true
  | .purgeBucketVisit _ _ _ => true
  | .flowCtlWrite _ _ => true
  | .flowTableClearDone => true
  | .flowCacheWriteback _ => true
  | .flowHomeWrite _ _ => true
  | .deltaAdd _ => true
  | .deltaDel _ => true
  | .deltaUpdateDone => true
  | .enqueueCommit inp => inp.wf
  | .spillDepthLand => true
  | .seqSkipTimeout inp => inp.wf
  | .reclaimToFree n => decide (n ≤ 1048576)
  | .bookSnap _ => true
  | .replication => true
  | .mcGroupW1Write _ _ => true
  | .mcGroupCommit _ _ => true
  | .schedulerRelease _ => true
  | .debitLand node => nodeOk node
  | .bucketRefill b => b.wf
  | .parentBandApply child => child.wf
  | .shaperConfigWrite _ node _ => nodeOk node
  | .policerConfigWrite _ n _ => decide (n < 262144)
  | .gateArm _ _ => true
  | .gateListSwap _ => true
  | .gateIntervalEnd _ => true
  | .gaugePass _ => true
  | .gaugeRecordWrite _ => true
  | .gauCtlWrite _ _ => true
  | .install => true
  | .revoke => true
  | .keyRead => true
  | .keyCommandDone => true
  | .dieHealthFail _ _ => true
  | .dieRestart => true
  | .dieRestartDone _ _ => true
  | .drbgReseed => true
  | .sqNextRead _ who => who.wf
  | .sqConfigWrite _ _ _ => true
  | .scheduledRevoke _ => true
  | .sqEvqRead => true
  | .ccEnSet inst _ => instOk inst
  | .controllerReady inst => instOk inst
  | .ccEnClear inst _ => instOk inst
  | .ccShnWrite inst _ => instOk inst
  | .shutdownComplete inst => instOk inst
  | .sqTailDoorbell inst _ _ => instOk inst
  | .cqHeadDoorbell inst _ _ => instOk inst
  | .submissionFetch inst _ _ => instOk inst
  | .holdTimeout _ _ => true
  | .identify _ _ => true
  | .getLogPage _ _ => true
  | .setFeatures _ _ => true
  | .getFeatures _ _ => true
  | .createIoSubmissionQueue _ _ => true
  | .createIoCompletionQueue _ _ => true
  | .deleteIoSubmissionQueue _ _ => true
  | .deleteIoCompletionQueue _ _ => true
  | .nvmeAbort _ _ => true
  | .asynchronousEventRequest _ _ => true
  | .nvmeRead _ _ _ => true
  | .nvmeWrite _ _ _ => true
  | .writeZeroes _ _ => true
  | .flush _ _ => true
  | .flushComplete _ _ => true
  | .datasetManagement _ _ _ => true
  | .stoCplWrite _ _ => true
  | .completionEntryWrite _ _ => true
  | .stgAlloc _ => true
  | .stgFree _ _ => true
  | .stoEvqRead _ => true
  | .extWrite _ => true
  | .extRead _ => true
  | .nsWrite _ => true
  | .nsRead _ => true
  | .mapWrite _ => true
  | .mapRead _ => true
  | .pcieLinkUp _ _ => true
  | .pcieLinkDown _ _ => true
  | .configReady _ _ => true
  | .flr _ _ => true
  | .vfReset _ _ => true
  | .vfEnableSet _ numVFs => decide (numVFs ≤ 1024)
  | .vfEnableClear _ => true
  | .atsInvalidate _ _ _ => true
  | .doeObject _ _ _ => true
  | .doeAbort _ _ => true
  | .pmStateWrite _ _ _ _ _ => true
  | .pf1Bar0Request _ _ _ => true
  | .apBaseWrite _ _ _ _ => true
  | .msixEvent _ _ _ => true
  | .msixUnmask _ _ _ => true
  | .ferryUpGo inst _ => instOk inst
  | .ferryDnGo who inst _ => who.wf && instOk inst
  | .ferryDnTake inst => instOk inst
  | .ferryUpTake inst => instOk inst
  | .ferryMsgWrite who inst _ _ _ => who.wf && instOk inst
  | .ringTxdb inst _ _ => instOk inst
  | .ringRxdb inst _ _ => instOk inst
  | .pendingDoorbellApply inst _ _ => instOk inst
  | .ringArm inst _ _ => instOk inst
  | .descriptorFetch inst _ _ => instOk inst
  | .txDataReadStart inst _ => instOk inst
  | .txDataReadDone inst _ _ => instOk inst
  | .rxFrameWrite inst _ => instOk inst
  | .descriptorComplete inst _ _ => instOk inst
  | .dmaDescriptorStart ch _ _ => chOk ch
  | .dmaDescriptorEnd ch _ => chOk ch
  | .pacedBurstStart ch _ => chOk ch
  | .dmaAbort ch => chOk ch
  | .dmaAbortAll ch => chOk ch
  | .qviewRead inst => instOk inst
  | .freeze inst => instOk inst
  | .quiescentPoint inst => instOk inst
  | .freezeTimeout inst => instOk inst
  | .save inst => instOk inst
  | .saveDone inst => instOk inst
  | .restore inst => instOk inst
  | .restoreDone inst => instOk inst
  | .thaw inst => instOk inst
  | .insRateWrite _ inst _ => instOk inst
  | .portCfgWrite _ _ => true
  | .linkUp _ => true
  | .linkDown _ => true
  | .macFrameTransmit _ => true
  | .pauseFrameReceive _ _ _ _ => true
  | .pauseTimerExpire _ _ => true
  | .pfcXoffSend _ _ => true
  | .pfcRefreshSend _ _ => true
  | .pfcXonSend _ _ => true
  | .txtsRead _ => true
  | .lpiEnter _ => true
  | .lldpTransmit _ => true
  | .lldpInfoExpire _ => true
  | .slackOffer _ _ => true
  | .slackAccept _ _ => true
  | .slackWithdraw _ => true
  | .slackScheduleStart _ => true
  | .slackWakeStart _ => true
  | .slackFirstSymbol _ _ => true
  | .slackRendezvousMiss _ => true
  | .slackAlignTimeout _ => true
  | .attachControlFrameSend _ => true
  | .attachControlFrameReceive _ _ => true
  | .discGo => true
  | .discoveryWalk => true
  | .probeAnswer _ _ => true
  | .probeTimeout => true
  | .discoveryWalkEnd => true
  | .lcChalNew => true
  | .provision => true
  | .deploy => true
  | .lcReturn _ => true
  | .observe _ => true
  | .intrude => true
  | .vaultWriteToken => true
  | .debugOff _ => true
  | .debugExpiry _ => true
  | .vaultWrite _ => true
  | .vaultRead _ => true
  | .commitTokenRefill => true
  | .vaultCopyWriteDone => true
  | .powerFailWarning _ => true
  | .active => true
  | .drowse => true
  | .hold => true
  | .holdWake _ _ _ => true
  | .powerGovernorInterval _ _ => true
  | .thermalTrip _ _ => true
  | .hbmSelfRefresh _ => true
  | .troubleEvent e => grpOk e.grp
  | .logAppend => true
  | .historyEntryRead grp _ => grpOk grp
  | .trbForce grp _ => grpOk grp
  | .trbInjArm grp _ => grpOk grp
  | .injectedFaultApply grp _ => grpOk grp
  | .logClear => true
  | .eventCount ctr _ => decide (ctr < 2048)
  | .cntClear ctr _ => decide (ctr < 2048)
  | .erase => true
  | .program => true
  | .flashRead => true
  | .flashCommandDone _ => true
  | .slackWindowEnd _ => true
  | .completionTimeout inst req => instOk inst && req.wf
  | .submit => true
  | .mctpRequest _ => true
  | .descriptorFetchDone inst _ _ _ => instOk inst
  | .diceCommandDone _ _ => true

end Sys2Proof
end

