-- ==== Sys2Proof/Tests/Slice0.lean ====
section
/-! SUPPORT. Tests of the model and witnesses of its statements.  The terms of `IllFormed` are refused by WellFormed, one for each of
its checks; the tests after them compare single operations and single commands with the spec's worked examples and with the
published test values of the standards that the spec names (FIPS 197, FIPS 180-4, IEEE 802.3, RFC 3720).  A theorem
`witness_<statement>` shows states and operands that meet the hypotheses of that obligation, one conjunct for each of its clauses. -/

namespace Sys2Proof.Tests
open Sys2Proof Sys2Proof.Machine

/-! ### WellFormed -/

theorem test_wf_thread : (Instr.add 32800 1 2 3).wf = false ∧ (Instr.add 32799 1 2 3).wf = true := by decide
theorem test_wf_engine : (Instr.cycle 4100).wf = false ∧ (Instr.cycle 4099).wf = true := by decide
theorem test_wf_instance : (Instr.functionResetEnd 32800).wf = false ∧ (Instr.functionResetEnd 32799).wf = true := by decide
theorem test_wf_channel : (Instr.gatedTransferZeroOverwrite 1024 0).wf = false := by decide
theorem test_wf_policy : (Instr.polCtlWrite 311 0).wf = false ∧ (Instr.polCtlWrite 310 0).wf = true := by decide
theorem test_wf_node : (Instr.debitLand 131072).wf = false ∧ (Instr.debitLand 131071).wf = true := by decide
theorem test_wf_permille : (Instr.slackSkipAdapt (.net 0) 1001).wf = false ∧ (Instr.slackSkipAdapt (.net 0) 1000).wf = true := by decide
theorem test_wf_requester : (Instr.unassignedAccess (.thread 32800) 0 false).wf = false
    ∧ (Instr.unassignedAccess (.dma 1024) 0 false).wf = false ∧ (Instr.unassignedAccess (.host 32800) 0 false).wf = false
    ∧ (Instr.unassignedAccess .debug 0 false).wf = true := by decide
theorem test_wf_input : (Instr.enqueueCommit (.ring 32800 0)).wf = false ∧ (Instr.enqueueCommit (.sq 32800 0)).wf = false
    ∧ (Instr.enqueueCommit (.port 0)).wf = true := by decide
theorem test_wf_bucket : (Instr.bucketRefill (.node 131072)).wf = false ∧ (Instr.bucketRefill (.policer 0)).wf = true := by decide
theorem test_wf_child : (Instr.parentBandApply (.node 131072)).wf = false ∧ (Instr.parentBandApply (.queue 0)).wf = true := by decide
theorem test_wf_access : (Instr.uncachedCoherentAccess 0 0 none .firmware).wf = false
    ∧ (Instr.uncachedCoherentAccess 0 65 none .firmware).wf = false ∧ (Instr.uncachedCoherentAccess 0 64 none .firmware).wf = true := by decide
theorem test_wf_cells : (Instr.reclaimToFree 1048577).wf = false ∧ (Instr.reclaimToFree 1048576).wf = true := by decide
theorem test_wf_policer : (Instr.policerConfigWrite .SCH_POL_CIR 262144 0).wf = false := by decide
theorem test_wf_vfs : (Instr.vfEnableSet 0 1025).wf = false ∧ (Instr.vfEnableSet 0 1024).wf = true := by decide

/-! ### The spec's worked examples -/

/-- 01_anatomy.md, locating an HBM address. -/
theorem test_hbm_address : hbmStack 0x0234567000 = 2 ∧ hbmWithin 0x0234567000 = 0x8D159000 := by decide

/-- 03_boene_isa.md, the ten words of the GCM loop. -/
theorem test_gcm_loop_words : runWord 8 0xA8002001 = some (execPldb 8 1) ∧ runWord 8 0xA0004806 = some (execBinc 8 2 2)
    ∧ runWord 8 0xA0056820 = some (execAese 8 3 2 5) ∧ runWord 8 0xA0000080 = some (execBxor 8 0 0 1)
    ∧ runWord 8 0xA0000310 = some (execGmul 8 0 0 6) ∧ runWord 8 0xA0002580 = some (execBxor 8 1 1 3)
    ∧ runWord 8 0xA9070402 = some (execPstb 8 1 7 8) ∧ runWord 8 0x05080010 = some (execAddi 8 8 8 16)
    ∧ runWord 8 0x0529FFFF = some (execAddi 8 9 9 0xFFFF) ∧ runWord 8 0x8520FFF7 = some (execBne 8 9 0 0xFFF7) :=
  ⟨rfl, rfl, rfl, rfl, rfl, rfl, rfl, rfl, rfl, rfl⟩

/-- 10_storage.md, a 1 MiB read across two granules: EXT_BASE 0x400000, LBADS 12, SLBA 0x1FF0, NLB 0xFF. -/
theorem test_storage_range : stoRange (beBytes 4 0x80400000 ++ List.replicate 12 0 ++ [12] ++ List.replicate 15 0) 0x1FF0 0xFF
    = (0x400001, some 0x400002, 1048576, 0x10000) := by decide

/-- 13_instances.md, VF 37 of E13, and 11_host_endpoints.md, the device address of its manager-side Ferry. -/
theorem test_ferry_address : 1025 * 13 + 38 = 0x3433 ∧ instEp 0x3433 = 13 ∧ instFn 0x3433 = 38 ∧ instBank 0x3433 = 1
    ∧ regAddr .PCI_FRY_UP_MSG (0x3433 * 16) = some 0x301A82600 := by decide +kernel

/-- 04_engines.md, two owners wanted: from P = 6, Board 1 ranks before Board 3. -/
theorem test_home_rank : rankBoards 6 0b1010 = [1, 3] := by decide

/-- 17_startup_electrical.md, R564, R566 and R567: the lands of PL208 and of PCLK_E13_P. -/
theorem test_lands : ((Lane.pl 208).land .txp).name = ['D', 'C', '1', '1', '5'] ∧ ((Lane.pl 208).land .rxn).name = ['D', 'C', '1', '1', '2']
    ∧ (BankInput.pclk 13 false).land = ⟨17, 105⟩ ∧ (BankInput.pclk 13 false).land.name = ['A', 'V', '1', '0', '5'] := by decide

/-! ### Published values of the standards -/

/-- FIPS 197, appendix C.1. -/
theorem test_aes128 : aesEnc ((List.range 16).map (BitVec.ofNat 8)) ((List.range 16).map (fun k => BitVec.ofNat 8 (k * 17)))
    = [0x69, 0xC4, 0xE0, 0xD8, 0x6A, 0x7B, 0x04, 0x30, 0xD8, 0xCD, 0xB7, 0x80, 0x70, 0xB4, 0xC5, 0x5A] := by decide +kernel

/-- FIPS 180-4, SHA-384 of "abc": the first eight bytes. -/
theorem test_sha384 : (sha384 [0x61, 0x62, 0x63]).take 8 = [0xCB, 0x00, 0x75, 0x3F, 0x45, 0xA3, 0x5E, 0x8B] := by decide +kernel

/-- The check value of CRC-32 (IEEE 802.3) and of CRC-32C (RFC 3720) over "123456789". -/
theorem test_crc : crc32 ((List.range 9).map (fun k => BitVec.ofNat 8 (0x31 + k))) = 0xCBF43926
    ∧ crcForm ((List.range 9).map (fun k => BitVec.ofNat 8 (0x31 + k))) = 0xE3069283 := by decide +kernel

/-! ### One command on a small state -/

/-- Thread 8 ready, with g1 = 0xFFFFFFFF, g2 = 1, g3 = 0x80000000. -/
def one : State := State.reset.setThread 8 { State.reset.thread 8 with run := .ready, g := [(1, 0xFFFFFFFF), (2, 1), (3, 0x80000000)] }

/-- g4 of thread 8 after an instruction, `none` where it does not answer a next state. -/
def g4 (r : Res) : Option Word := match r with | .next s => some ((s.thread 8).gr 4) | _ => none

theorem test_add_wraps : g4 (execAdd 8 4 1 2 one) = some 0 := by decide +kernel
theorem test_slt_signed : g4 (execSlt 8 4 1 2 one) = some 1 ∧ g4 (execSltu 8 4 1 2 one) = some 0 := by decide +kernel
theorem test_sra_sign : g4 (execSra 8 4 3 2 one) = some 0xC0000000 ∧ g4 (execSrl 8 4 3 2 one) = some 0x40000000 := by decide +kernel
theorem test_mulh : g4 (execMulh 8 4 1 1 one) = some 0 ∧ g4 (execMulhu 8 4 1 1 one) = some 0xFFFFFFFE := by decide +kernel
theorem test_clz : g4 (execClz 8 4 0 one) = some 32 ∧ g4 (execClz 8 4 3 one) = some 0 := by decide +kernel
theorem test_add1c : g4 (execAdd1c 8 4 1 2 one) = some 1 := by decide +kernel

/-- An empty queue: the block idles. -/
theorem test_idle : step State.reset = .next State.reset := rfl

/-- No row of the table has bits: no word spells a command, and nothing is put in front of the queue. -/
theorem test_no_words (n w : Nat) : decodeTableWord n w = none ∧ State.reset.withFetchWord n w = State.reset := ⟨rfl, rfl⟩

end Sys2Proof.Tests

namespace Sys2Proof.Tests
open Sys2Proof Sys2Proof.Machine
set_option Elab.async false

/-! ### Helpers of the witnesses -/

abbrev Z : State := State.reset
def fl (l : List (Fld × Nat × Nat)) (s : State := Z) : State := l.foldl (fun s x => s.setFld x.1 x.2.1 x.2.2) s
def rg (l : List (Reg × Nat × Nat)) (s : State := Z) : State := l.foldl (fun s x => s.wr x.1 x.2.1 (BitVec.ofNat 32 x.2.2)) s
def v0 : Vector_ := { bytes := [], handle := 0, input := .none, gen := 0, entry := 0, learn := false, stamped := false }
def vs (n : Nat) : List Vector_ := List.replicate n v0
def tm (f : TimeUnit → TimeUnit) (s : State := Z) : State := s.putTime (f s.time)
def f0 : Firing := { deferred := false, ford := false, len := 0, arg := 0, cycle := 0 }
def rn (f : Thread → Thread := id) (th : Nat := 8) (s : State := Z) : State := s.setThread th (f { s.thread th with run := .ready })
def regs1 : Tbl Word := [(1, 5), (2, 0xFFFFFFF0), (3, 0x12345678), (4, 0x80000000), (5, 0x10), (6, 0x7FFF), (7, 0xFFFC)]
def blks1 : Tbl Block := [(1, 0x112233445566778899AABBCCDDEEFF00), (2, 0xFFFFFFFFFFFFFFFFFFFFFFFFFFFFFFFF), (3, 0x80000000000000000000000000000001)]
def mem1 : Tbl Byte := (List.range 64).map (fun k => (k, BitVec.ofNat 8 (k * 7 + 1)))
def by512 : List Byte := (List.range 512).map (fun k => BitVec.ofNat 8 (k * 5 + 3))
def fr0 : FrameRec :=
  { tag := 7, chain := [5, 6], base := 0, refs := 0, board := none, owner := some 8, input := .none, seq := 0, slot := none, head := 0, len := 100,
    bytes := by512, gated := [], stamp := 0, committed := false, cls := 0, desc := none, ts := none }
def h0 : Word := 0x10700005
def withFrame (f : FrameRec) (s : State) : State := s.setFrame 5 (some f)
def mm (th : Nat := 8) (s : State) : State := s.putEng {s.eng with localMem := mem1.map (fun e => (th/8*0x8000 + e.1, e.2)) ++ [(th/8*0x8000+0x7FFF, 9)], clusterMem := mem1.map (fun e => (th/512*0x400000+e.1, e.2 + 3))}
def mst (a : Nat) (mw : BitVec 24) (n : BitVec 128) (mt : Tbl Word := []) : MicroStore := { micro := [(a, mw)], nano := [((mw.toNat / 2^14), n)].filter (fun e => e.2 ≠ 0), mtch := mt }
def nn (seq cond csel inv5 : Nat) : BitVec 128 := BitVec.ofNat 128 (seq * 2^124 + cond * 2^101 + csel*2^119 + inv5*2^67)
def bk (f : Books → Books) (s : State := Z) : State := s.putCfl {s.cfl with books := f s.cfl.books}
def sf (l : List (Nat × Firing)) (s : State := Z) : State := s.putTide { s.tide with sent := l.map (fun x => { cls := x.1, target := 0xFF3F, f := x.2, took := [], due := true }) }
def pf1on (ep : Nat) (s : State := Z) : State := fl [(F.PCI_EP_CFG.PF1_EFF, ep, 1), (F.PCIE_CMD.BME, fnKey ep pf1Fn, 1)] s

theorem skew_lt (s : State) (c : Nat) : Config.replicaSkew c s.time.tick % 9 < 9 := Nat.mod_lt _ (by decide)

theorem replica_near (s : State) (c : Nat) : s.time.now ≤ s.replica c + 4 ∧ s.replica c ≤ s.time.now + 4 := by
  have := skew_lt s c
  unfold State.replica
  split <;> omega

theorem le_replica (s : State) (c a : Nat) (h : a + 4 ≤ s.time.now) : a ≤ s.replica c := by
  have := replica_near s c
  omega

theorem replica_lt (s : State) (c a b : Nat) (h : s.time.now + 4 + b < a) : s.replica c + b < a := by
  have := replica_near s c
  omega

theorem bell_empty (s : State) (n : Nat) (k : s.ring.bells = []) (h : s.fld F.RNG_FN_DBRATE.KDBS n ≠ 0)
    (h' : s.fld F.RNG_FN_DBRATE.KDBS n ≤ 99) (ht : s.time.now = 0) (hs : s.time.stepSum = 0) : s.bellReady n = false := by
  have hm : s.mono (instChip n) - 0 ≤ 4 := by
    have := skew_lt s (instChip n)
    simp only [State.mono, ht, hs]
    simp; omega
  have h2 := Nat.mul_le_mul h' hm
  simp only [State.bellReady, State.bellBucket, k, Tbl.get, bucketEmpty, TokBucket.refillAt, Bool.or_eq_false_iff,
    beq_eq_false_iff_ne, decide_eq_false_iff_not]
  exact ⟨h, by omega⟩

theorem slack_in (s : State) (k b : Nat) (w : SlackWin) (h : w.ends + 4 ≤ s.time.now + b) : s.slackReached k w b = true := by
  have := replica_near s (bankChip (macBank k))
  simp only [State.slackReached, Bool.or_eq_true]
  exact .inl (decide_eq_true (by omega))

theorem slack_out (s : State) (k b : Nat) (w : SlackWin) (h : s.time.now + b + 4 < w.ends) (g : (s.slackSt k).agreed = none) :
    s.slackReached k w b = false := by
  have := replica_near s (bankChip (macBank k))
  simp only [State.slackReached, g, Bool.or_false]
  exact decide_eq_false (by omega)

theorem slot_free (s : State) (b n : Nat) (h : s.sto.slots = []) : s.pickSlot b n = some ((s.pickSlot b n).getD 0) := by
  have : (s.pickSlot b n).isSome = true := by
    simp [State.pickSlot, State.slotsWhere, State.stoCell, h, cellReset]
  obtain ⟨k, hk⟩ := Option.isSome_iff_exists.mp this
  simp [hk]

end Sys2Proof.Tests

namespace Sys2Proof.Tests.W01
open Sys2Proof Sys2Proof.Machine Sys2Proof.Tests
set_option Elab.async false

theorem witness_PoliciesAndSteering_AdaptivePolicies_1 :
    (let s : State := (((rg [(.POL_CUR, 2, 60), (.POL_CUR, 10, 8), (.POL_CUR, 0, 33), (.POL_CUR, 54, 127)]).putCfl { Z.cfl with admLow := true}).putLook {Z.look with limitHit := [(0,true)]});
      let p : Nat := 18;
      let v : BitVec 32 := (7#32);
      (s.reachable (polChip p) = true) ∧ (v.toNat % 4 = 3))
    ∧ (let p : Nat := 18;
      (18 ≤ p) ∧ (p < 22))
    ∧ (let s : State := (((rg [(.POL_CUR, 2, 60), (.POL_CUR, 10, 8), (.POL_CUR, 0, 33), (.POL_CUR, 54, 127)]).putCfl { Z.cfl with admLow := true}).putLook {Z.look with limitHit := [(0,true)]});
      let val := fun (t : State) k => (t.rd .POL_CUR k).toNat;
      (s.cfl.admLow = true) ∧ (8 < val s 0) ∧ (val s 0 ≤ 33))
    ∧ (let s : State := (((rg [(.POL_CUR, 2, 60), (.POL_CUR, 10, 8), (.POL_CUR, 0, 33), (.POL_CUR, 54, 127)]).putCfl { Z.cfl with admLow := true}).putLook {Z.look with limitHit := [(0,true)]});
      let val := fun (t : State) k => (t.rd .POL_CUR k).toNat;
      (s.cfl.ecnLow = false) ∧ (s.cfl.ecnMark = false) ∧ (5000 ≤ val s 1) ∧ (val s 1 ≤ 100000))
    ∧ (let s : State := (((rg [(.POL_CUR, 2, 60), (.POL_CUR, 10, 8), (.POL_CUR, 0, 33), (.POL_CUR, 54, 127)]).putCfl { Z.cfl with admLow := true}).putLook {Z.look with limitHit := [(0,true)]});
      let q : Nat := 2;
      let b : BitVec 3 := 0;
      let val := fun (t : State) k => (t.rd .POL_CUR k).toNat;
      (Tbl.get (fun _ => false) s.look.limitHit b.toNat = true) ∧ (q = 2 + b.toNat) ∧ (24 ≤ val s q) ∧ (val s q ≤ 60))
    ∧ (let s : State := (((rg [(.POL_CUR, 2, 60), (.POL_CUR, 10, 8), (.POL_CUR, 0, 33), (.POL_CUR, 54, 127)]).putCfl { Z.cfl with admLow := true}).putLook {Z.look with limitHit := [(0,true)]});
      let n : Nat := 600;
      let link : MacPort := (.net 0);
      let val := fun (t : State) k => (t.rd .POL_CUR k).toNat;
      let slack := match link with | .attach a => 22 + a.toNat | .net a => 54 + a.toNat;
      (500 < n) ∧ (1 ≤ val s slack) ∧ (val s slack ≤ 127))
    ∧ (let s : State := (((rg [(.POL_CUR, 2, 60), (.POL_CUR, 10, 8), (.POL_CUR, 0, 33), (.POL_CUR, 54, 127)]).putCfl { Z.cfl with admLow := true}).putLook {Z.look with limitHit := [(0,true)]});
      let tj : BitVec 8 := 105;
      let tc : BitVec 8 := 0;
      let val := fun (t : State) k => (t.rd .POL_CUR k).toNat;
      (s.trust.power = .on) ∧ (105 ≤ tj.toNat ∨ 72 ≤ tc.toNat) ∧ (1050 ≤ val s 310) ∧ (val s 310 ≤ 1850))
    ∧ (let s : State := (((fl [(F.BRD_DICE_STAT.USED, 0, 524288)] (rg [(.POL_CUR, 2, 60), (.POL_CUR, 10, 8), (.POL_CUR, 0, 31), (.POL_CUR, 54, 127)])).putCfl { Z.cfl with admRefused := true}).putLook {Z.look with limitHit := [(0,true)]});
      let val := fun (t : State) k => (t.rd .POL_CUR k).toNat;
      (s.cfl.admLow = false) ∧ (s.cfl.admRefused = true) ∧ (8 ≤ val s 0) ∧ (val s 0 < 32))
    ∧ (let s : State := (((fl [(F.BRD_DICE_STAT.USED, 0, 524288)] (rg [(.POL_CUR, 2, 60), (.POL_CUR, 10, 8), (.POL_CUR, 0, 31), (.POL_CUR, 54, 127)])).putCfl { Z.cfl with admRefused := true}).putLook {Z.look with limitHit := [(0,true)]});
      let q : Nat := 10;
      let b : BitVec 3 := 0;
      let val := fun (t : State) k => (t.rd .POL_CUR k).toNat;
      (q = 10 + b.toNat) ∧ (524288 * 7 < s.fld F.BRD_DICE_STAT.USED b.toNat * 8) ∧ (2 ≤ val s q) ∧ (val s q ≤ 32))
    ∧ (let s : State := (((fl [(F.BRD_DICE_STAT.USED, 0, 524288)] (rg [(.POL_CUR, 2, 60), (.POL_CUR, 10, 8), (.POL_CUR, 0, 31), (.POL_CUR, 54, 127)])).putCfl { Z.cfl with admRefused := true}).putLook {Z.look with limitHit := [(0,true)]});
      let n : Nat := 99;
      let link : MacPort := (.net 0);
      let val := fun (t : State) k => (t.rd .POL_CUR k).toNat;
      let slack := match link with | .attach a => 22 + a.toNat | .net a => 54 + a.toNat;
      (n < 100) ∧ (2 ≤ val s slack) ∧ (val s slack ≤ 255)) := ⟨by decide +kernel,
      by decide +kernel,
      by decide +kernel,
      by decide +kernel,
      by decide +kernel,
      by decide +kernel,
      by decide +kernel,
      by decide +kernel,
      by decide +kernel,
      by decide +kernel⟩

theorem witness_PoliciesAndSteering_AdaptivePolicies_2 :
    (let n : Nat := 100;
      (100 ≤ n) ∧ (n ≤ 500))
    ∧ (let s : State := (rg [(.POL_CUR, 310, 1750)]);
      let tj : BitVec 8 := 94;
      let tc : BitVec 8 := 67;
      let val := fun (t : State) k => (t.rd .POL_CUR k).toNat;
      (s.trust.power = .on) ∧ (tj.toNat < 95) ∧ (tc.toNat < 68) ∧ (950 ≤ val s 310) ∧ (val s 310 ≤ 1750))
    ∧ (let s : State := (((rg [(.POL_CUR, 2, 60), (.POL_CUR, 10, 8), (.POL_CUR, 0, 31), (.POL_CUR, 54, 127)]).putCfl { Z.cfl with admRefused := true, ecnLow := true}).putLook {Z.look with limitHit := [(0,true)]});
      let n : Nat := (20000-1250);
      let val := fun (t : State) k => (t.rd .POL_CUR k).toNat;
      (s.cfl.ecnLow = true) ∧ (n = val s 1 - val s 1 / 16) ∧ (5000 ≤ n) ∧ (n ≤ 100000))
    ∧ (let s : State := (((rg [(.POL_CUR, 2, 60), (.POL_CUR, 10, 8), (.POL_CUR, 0, 31), (.POL_CUR, 54, 127)]).putCfl { Z.cfl with admRefused := true, ecnLow := true}).putLook {Z.look with limitHit := [(0,true)]});
      let q : Nat := 10;
      let b : BitVec 3 := 0;
      let val := fun (t : State) k => (t.rd .POL_CUR k).toNat;
      (q = 10 + b.toNat) ∧ (s.fld F.BRD_DICE_STAT.USED b.toNat * 4 < 524288 * 3) ∧ (8 ≤ val s q) ∧ (val s q ≤ 128))
    ∧ (let s : State := Z;
      let p : Nat := 5;
      let v : BitVec 32 := (6#32);
      (s.reachable (polChip p) = true) ∧ (v.toNat % 4 ≠ 3))
    ∧ (let s : State := (fl [(F.POL_CTL.MODE, 2, 2)] (rg [(.POL_MAN, 2, 100)]));
      let p : Nat := 2;
      let lo : Nat := 1;
      let hi : Nat := 64;
      (s.fld F.POL_CTL.MODE p = 2) ∧ (s.isFenced (polChip p) = false) ∧ ((p, lo, hi) ∈ [(0, 1, 64), (1, 1000, 10000000), (2, 1, 64), (9, 1, 64), (10, 1, 512), (17, 1, 512),
              (22, 0, 255), (309, 0, 255), (310, 600, 1800)]))
    ∧ (let s : State := (Z.putPlat {Z.plat with linkFailed := 0xFFFF});
      let p : Nat := 5;
      (s.reachable (polChip p) = false))
    ∧ (let s : State := (((fl [(F.BRD_DICE_STAT.USED, 0, 524288)] (rg [(.POL_CUR, 2, 60), (.POL_CUR, 10, 8), (.POL_CUR, 0, 31), (.POL_CUR, 54, 127)])).putCfl { Z.cfl with admRefused := true, ecnMark := true}).putLook {Z.look with limitHit := [(0,true)]});
      let n : Nat := (20000+1250);
      let val := fun (t : State) k => (t.rd .POL_CUR k).toNat;
      (s.cfl.ecnLow = false) ∧ (s.cfl.ecnMark = true) ∧ (s.cfl.ecnDip = false) ∧ (n = val s 1 + val s 1 / 16) ∧ (5000 ≤ n) ∧ (n ≤ 100000)) := ⟨by decide +kernel,
      by decide +kernel,
      by decide +kernel,
      by decide +kernel,
      by decide +kernel,
      by decide +kernel,
      by decide +kernel,
      by decide +kernel⟩

theorem witness_PoliciesAndSteering_Steering :
    (let s : State := Z;
      let k : BitVec 2 := 0;
      let b : BitVec 3 := 1;
      (s.reachable (2 + k.toNat) = true) ∧ (s.isFenced (8 + b.toNat) = false))
    ∧ (let s : State := Z;
      let k : BitVec 2 := 0;
      let e : BitVec 12 := 0;
      let i := k.toNat * 4096 + e.toNat;
      (s.fld F.BNK_STEER_TBL.INFLIGHT i = 0))
    ∧ (let s : State := (fl [(F.HDW_BOOT_STAT.FENCED, 0, 512), (F.BNK_STEER_TBL.INFLIGHT, 0, 5)]);
      let k : BitVec 2 := 0;
      let b : BitVec 3 := 1;
      (s.reachable (2 + k.toNat) = true) ∧ (s.isFenced (8 + b.toNat) = true))
    ∧ (let s : State := (fl [(F.HDW_BOOT_STAT.FENCED, 0, 512), (F.BNK_STEER_TBL.INFLIGHT, 0, 5)]);
      let k : BitVec 2 := 0;
      let e : BitVec 12 := 0;
      let i := k.toNat * 4096 + e.toNat;
      (s.fld F.BNK_STEER_TBL.INFLIGHT i ≠ 0))
    ∧ (let s : State := (Z.putPlat {Z.plat with linkFailed := 0xFFFF});
      let k : BitVec 2 := 0;
      (s.reachable (2 + k.toNat) = false))
    ∧ (let s : State := (Z.putIntake {Z.intake with queue := [(0, vs 512), (1, vs 600), (2, vs 600), (3, vs 2048), (4, vs 600), (5, vs 600), (6, vs 600), (7, vs 600)]} |>.wr .BNK_STEER_TBL 3 0x33 |>.putPlat {Z.plat with movePtr := [(0, 3)]});
      let k : BitVec 2 := 0;
      let e : BitVec 12 := 3;
      let b : BitVec 3 := 0;
      let i := k.toNat * 4096 + e.toNat;
      (s.fld F.HDW_BOOT_STAT.FENCED 0 = 0) ∧ (s.fld F.POL_CTL.MODE (18 + k.toNat) = 0) ∧ ((s.rd .POL_CUR (18 + k.toNat)).toNat < 64)
        ∧ (2048 ≤ s.intakeDepth k.toNat 3) ∧ (∀ x < 8, x ≠ 3 → s.intakeDepth k.toNat x < s.intakeDepth k.toNat 3)
        ∧ (s.intakeDepth k.toNat b.toNat ≤ 512) ∧ (∀ x < 8, x ≠ b.toNat → s.intakeDepth k.toNat b.toNat < s.intakeDepth k.toNat x)
        ∧ (Tbl.get (fun _ => 0) s.plat.movePtr k.toNat = e.toNat) ∧ (s.fld F.BNK_STEER_TBL.CUR_BOARD i = 3)
        ∧ (s.fld F.BNK_STEER_TBL.PENDING i = 0)) := ⟨by decide +kernel,
      by decide +kernel,
      by decide +kernel,
      by decide +kernel,
      by decide +kernel,
      ⟨by decide +kernel, by decide +kernel, by decide +kernel, by decide +kernel, by decide +kernel, by decide +kernel, by decide +kernel, by decide +kernel, by decide +kernel, by decide +kernel⟩⟩

end Sys2Proof.Tests.W01

namespace Sys2Proof.Tests.W02
open Sys2Proof Sys2Proof.Machine Sys2Proof.Tests
set_option Elab.async false

def cal1 : State := (fl [(F.TTB_SLOT_W0.VALID,1,1), (F.TTB_SLOT_W0.CLASS,1,5),(F.TTB_SLOT_W1.TARGET,1,5)] (tm (fun m => {m with boundary := true}))).putTide {Z.tide with cLast := 0}

def snt (l : List (Nat × Firing)) (s : State := Z) : State := s.putTide { s.tide with sent := l.map (fun x => { cls := x.1, target := 0xFF3F, f := x.2, took := [], due := true }) }

def f1 : Firing := { f0 with deferred := true, arg := 0x33 }

theorem witness_NetworkTime_NetworkTimeAdvances :
    (let s : State := Z;
      let total : Int := s.time.now * 2 ^ 32 + 2 ^ 32 + s.time.sub + (s.rd .TIME_FREQ_ADJ 0).toInt * 131072 / 1000000000;
      let q := (total / 2 ^ 32).toNat;
      (s.time.slew = 0 ∨ q < s.time.slewNext))
    ∧ (let s : State := (tm (fun m => {m with slew := 3, now := 4094}));
      let total : Int := s.time.now * 2 ^ 32 + 2 ^ 32 + s.time.sub + (s.rd .TIME_FREQ_ADJ 0).toInt * 131072 / 1000000000;
      let q := (total / 2 ^ 32).toNat;
      (0 < s.time.slew) ∧ (s.time.slewNext ≤ q))
    ∧ (let s : State := (tm (fun m => {m with slew := -3, now := 4095}));
      let total : Int := s.time.now * 2 ^ 32 + 2 ^ 32 + s.time.sub + (s.rd .TIME_FREQ_ADJ 0).toInt * 131072 / 1000000000;
      let q := (total / 2 ^ 32).toNat;
      (s.time.slew < 0) ∧ (s.time.slewNext ≤ q)) := ⟨by decide +kernel,
      by decide +kernel,
      by decide +kernel⟩

theorem witness_NetworkTime_TimeSources_1 :
    (let s : State := (tm (fun m => {m with ppsLast := some 5, now := 999990005}));
      let m := s.time;
      let good := ∃ l, m.ppsLast = some l ∧ l + 999990000 ≤ m.now ∧ m.now ≤ l + 1000010000;
      (good) ∧ (m.ppsGood < 2))
    ∧ (let s : State := (tm (fun m => {m with ppsLast := some 5, now := 999990005}));
      let m := s.time;
      (m.ppsBad < 2))
    ∧ (let ppb : Int := 50000;
      (-50000 ≤ ppb) ∧ (ppb ≤ 50000))
    ∧ (let s : State := (tm (fun m => {m with ppsLast := some 5, now := 999990005}));
      let m := s.time;
      let near := m.now % 1000000000 ≤ 8 ∨ 999999992 ≤ m.now % 1000000000;
      (¬near))
    ∧ (let s : State := (tm (fun m => {m with ppsLast := some 5, now := 999990005}));
      let m := s.time;
      (m.tick < m.ppsOutAt + 1000000))
    ∧ (let s : State := (tm (fun m => {m with ppsLast := some 5, now := 999990005}));
      let port : MacPort := (.net 3);
      let dom : BitVec 8 := 0;
      let st : PtpState := .slave;
      let m := s.time;
      (dom = m.ptpDomain) ∧ (macKey port < 256 ∨ st = .master ∨ st = .disabled))
    ∧ (let s : State := (tm (fun m => {m with ptpPorts := [(259, .slave)], now := 999999995, ppsOut := true, ppsOutAt := 5, tick := 1000005}));
      let m := s.time;
      let late := ∀ l, m.ppsLast = some l → m.now < l + 999990000 ∨ l + 1000010000 < m.now;
      (late) ∧ (m.ppsBad < 2))
    ∧ (let ppb : Int := 50001;
      (ppb < -50000 ∨ 50000 < ppb))
    ∧ (let s : State := (tm (fun m => {m with ptpPorts := [(259, .slave)], now := 999999995, ppsOut := true, ppsOutAt := 5, tick := 1000005}));
      let m := s.time;
      (m.ppsOut = true) ∧ (m.ppsOutAt + 1000000 ≤ m.tick))
    ∧ (let s : State := (tm (fun m => {m with ptpPorts := [(259, .slave)], now := 999999995, ppsOut := true, ppsOutAt := 5, tick := 1000005}));
      let dom : BitVec 8 := 1;
      let m := s.time;
      (dom ≠ m.ptpDomain)) := ⟨by decide +kernel,
      by decide +kernel,
      by decide +kernel,
      by decide +kernel,
      by decide +kernel,
      by decide +kernel,
      by decide +kernel,
      by decide +kernel,
      by decide +kernel,
      by decide +kernel⟩

theorem witness_NetworkTime_TimeSources_2 :
    (let s : State := (tm (fun m => {m with ptpPorts := [(259, .slave)], now := 999999995, ppsOut := true, ppsOutAt := 5, tick := 1000005}));
      let port : MacPort := (.attach 3);
      let m := s.time;
      (m.ptpPorts = [(macKey port, .slave)]))
    ∧ (let s : State := (fl [(F.TIME_STATUS.PPS_OK,0,1), (F.TIME_CTL.REF10_EN,0,1), (F.TIME_STATUS.STATE,0,2)] (tm (fun m => {m with ppsLast := some 5, now := 1000010006, ppsGood := 2, ppsBad := 2})));
      let m := s.time;
      (2 ≤ m.ppsBad))
    ∧ (let s : State := (fl [(F.TIME_STATUS.PPS_OK,0,1), (F.TIME_CTL.REF10_EN,0,1), (F.TIME_STATUS.STATE,0,2)] (tm (fun m => {m with ppsLast := some 5, now := 1000010006, ppsGood := 2, ppsBad := 2})));
      let port : MacPort := (.attach 3);
      let dom : BitVec 8 := 0;
      let st : PtpState := .slave;
      let m := s.time;
      (dom = m.ptpDomain) ∧ (256 ≤ macKey port) ∧ (st ≠ .master) ∧ (st ≠ .disabled))
    ∧ (let s : State := (fl [(F.TIME_STATUS.STATE,0,3), (F.TIME_CTL.REF10_EN,0,1), (F.TIME_STATUS.REF10_OK,0,1), (F.TIME_CTL.PPS_OUT_EN,0,1)] (tm (fun m => {m with now := 3, holdFreq := -5})));
      let m := s.time;
      let near := m.now % 1000000000 ≤ 8 ∨ 999999992 ≤ m.now % 1000000000;
      (s.fld F.TIME_CTL.PPS_OUT_EN 0 = 1) ∧ (near) ∧ (m.ppsOut = false))
    ∧ (let s : State := (tm (fun m => {m with ppsLast := some 5, now := 999990005, ppsGood := 2, ppsBad := 2}));
      let m := s.time;
      let good := ∃ l, m.ppsLast = some l ∧ l + 999990000 ≤ m.now ∧ m.now ≤ l + 1000010000;
      (good) ∧ (2 ≤ m.ppsGood)) := ⟨by decide +kernel,
      by decide +kernel,
      by decide +kernel,
      by decide +kernel,
      by decide +kernel⟩

theorem witness_NetworkTime_TimeCorrections :
    (let s : State := (fl [(F.TIME_STATUS.PTP_OK,0,1), (F.TIME_STATUS.STATE,0,1)] (tm (fun m => {m with within := 15, todKnown := true})));
      let src : TimeSource := .ptp;
      (s.phaseSource = some src))
    ∧ (let s : State := (fl [(F.TIME_STATUS.PTP_OK,0,1), (F.TIME_STATUS.STATE,0,1)] (tm (fun m => {m with within := 15, todKnown := true})));
      let st := s.fld F.TIME_STATUS.STATE 0;
      (st ≠ 3))
    ∧ (let s : State := (fl [(F.TIME_STATUS.PTP_OK,0,1), (F.TIME_STATUS.STATE,0,1)] (tm (fun m => {m with within := 15, todKnown := true})));
      (s.phaseSource = some .ptp))
    ∧ (let s : State := (fl [(F.TIME_STATUS.PTP_OK,0,1), (F.TIME_STATUS.STATE,0,1)] (tm (fun m => {m with within := 15, todKnown := true})));
      (s.phaseSource ≠ some .pps))
    ∧ (let s : State := (fl [(F.TIME_STATUS.PTP_OK,0,1), (F.TIME_STATUS.STATE,0,1)] (tm (fun m => {m with within := 15, todKnown := true})));
      let st := s.fld F.TIME_STATUS.STATE 0;
      (s.reachable 0 = true) ∧ (st = 1 ∨ st = 2 ∨ 999999999 < (s.rd .TIME_SET_NS 0).toNat))
    ∧ (let s : State := (fl [(F.TIME_STATUS.STATE,0,3)] (rg [(.TIME_SET_NS,0,999999999), (.TIME_SET_SLO,0,7),(.TIME_SET_SHI,0,2)]));
      let src : TimeSource := .ptp;
      (s.phaseSource ≠ some src))
    ∧ (let s : State := (fl [(F.TIME_STATUS.STATE,0,3)] (rg [(.TIME_SET_NS,0,999999999), (.TIME_SET_SLO,0,7),(.TIME_SET_SHI,0,2)]));
      let st := s.fld F.TIME_STATUS.STATE 0;
      (st = 3))
    ∧ (let s : State := (fl [(F.TIME_STATUS.STATE,0,3)] (rg [(.TIME_SET_NS,0,999999999), (.TIME_SET_SLO,0,7),(.TIME_SET_SHI,0,2)]));
      let w : Nat := ((2*2^32+7)*10^9+999999999);
      let st := s.fld F.TIME_STATUS.STATE 0;
      (s.reachable 0 = true) ∧ (st = 0 ∨ st = 3) ∧ ((s.rd .TIME_SET_NS 0).toNat ≤ 999999999) ∧ (w = (s.fld F.TIME_SET_SHI.SEC 0 * 2 ^ 32 + (s.rd .TIME_SET_SLO 0).toNat) * 10 ^ 9 + (s.rd .TIME_SET_NS 0).toNat))
    ∧ (let s : State := (fl [(F.TIME_STATUS.PPS_OK,0,1), (F.TIME_CTL.PPS_EN,0,1), (F.TIME_STATUS.PTP_OK,0,1), (F.TIME_CTL.PTP_EN,0,1),(F.TIME_STATUS.STATE,0,1)] (tm (fun m => {m with within := 15, todKnown := true, withinSrc := .pps})));
      let e : Int := 50000;
      let w : Nat := 50000;
      let m := s.time;
      let d : Int := (w : Int) - (m.now : Int);
      (s.phaseSource = some .pps) ∧ (-500000000 ≤ e) ∧ (e < 500000000) ∧ ((d - e) % 1000000000 = 0))
    ∧ (let s : State := (fl [(F.TIME_STATUS.PPS_OK,0,1), (F.TIME_CTL.PPS_EN,0,1), (F.TIME_STATUS.PTP_OK,0,1), (F.TIME_CTL.PTP_EN,0,1),(F.TIME_STATUS.STATE,0,1)] (tm (fun m => {m with within := 15, todKnown := true, withinSrc := .ptp})));
      let e : Int := 1000000000;
      let w : Nat := 1000050000;
      let m := s.time;
      let d : Int := (w : Int) - (m.now : Int);
      (s.phaseSource = some .pps) ∧ (s.fld F.TIME_CTL.PTP_EN 0 = 1) ∧ (s.fld F.TIME_STATUS.PTP_OK 0 = 1) ∧ (-500000000 ≤ d - e) ∧ (d - e < 500000000) ∧ (e % 1000000000 = 0)) := ⟨by decide +kernel,
      by decide +kernel,
      by decide +kernel,
      by decide +kernel,
      by decide +kernel,
      by decide +kernel,
      by decide +kernel,
      by decide +kernel,
      by decide +kernel,
      by decide +kernel⟩

theorem witness_TideTable_TideCalendar :
    (let s : State := (cal1.putPlat {Z.plat with coldBoot := false});
      let c := s.time.now / 4096 + 1;
      (s.time.boundary = true) ∧ (s.time.step = none) ∧ ((c : Int) = s.tide.cLast + 1) ∧ (s.fld F.TTB_CTL.LEN_PEND 0 = 0))
    ∧ (let s : State := (cal1.putPlat {Z.plat with coldBoot := false});
      let v : BitVec 32 := 0xF61;
      let n := v.toNat / 16 % 32;
      (s.reachable 0 = true) ∧ (n < 8 ∨ 16 < n))
    ∧ (let s : State := (cal1.putPlat {Z.plat with coldBoot := false});
      (s.reachable 0 = true))
    ∧ (let s : State := (cal1.putPlat {Z.plat with coldBoot := false});
      let v : BitVec 32 := 0xF61;
      (isFirmware (.pf1 0) = false) ∧ (s.reachable 0 = true) ∧ (v.toNat / 16 % 16 = 4 ∨ v.toNat / 16 % 16 = 6))
    ∧ (let s : State := (fl [(F.TTB_SLOT_W0.ONCE,1,1)] cal1);
      let v : BitVec 32 := 0x80;
      let n := v.toNat / 16 % 32;
      (s.reachable 0 = true) ∧ (8 ≤ n) ∧ (n ≤ 16))
    ∧ (let s : State := (cal1.putTide {Z.tide with cLast := 1});
      let c := s.time.now / 4096 + 1;
      (s.time.boundary = true) ∧ (s.time.step = none) ∧ ((c : Int) ≤ s.tide.cLast)) := ⟨by decide +kernel,
      by decide +kernel,
      by decide +kernel,
      by decide +kernel,
      by decide +kernel,
      by decide +kernel⟩

theorem witness_TideTable_FiringsAtUnits :
    (let s : State := (snt [(3, f1), (1, f1), (2, f1), (7, f1)]);
      let u : Unit_ := .cells;
      let f : Firing := f1;
      let w := fun t u c => State.unitWork t u c;
      let due := fun u c => s.fireDue u c f = true ∧ s.isFenced (unitChip u) = false;
      let idle := fun u c => w s u c = { work := none, pend := none };
      (due .cells 3) ∧ (idle .cells 3) ∧ (s.plat.ecc = []) ∧ (f.ford = false))
    ∧ (let s : State := (snt [(3, f1), (1, f1), (2, f1), (7, f1)]);
      let b : BitVec 3 := 1;
      let u : Unit_ := .cells;
      let f : Firing := f1;
      let w := fun t u c => State.unitWork t u c;
      let due := fun u c => s.fireDue u c f = true ∧ s.isFenced (unitChip u) = false;
      let idle := fun u c => w s u c = { work := none, pend := none };
      (due (.dice b) 1) ∧ (idle (.dice b) 1) ∧ (s.polValue (10 + b.toNat) ≠ 0) ∧ (f.ford = false))
    ∧ (let s : State := (((((snt [(3, f1), (1, f1), (2, f1), (7, f1)]).setUnitWork .cells 3 {work := some f0, pend := some f0}).setUnitWork (.dice 1) 1 {work := some f0, pend := none}).setUnitWork (.auditor 2) 2 {work := some f0, pend := none}).setUnitWork (.netMac 1) 7 {work := some f0, pend := none});
      let u : Unit_ := .cells;
      ((match s.nextBackground u (Tbl.get (fun _ => 0) s.tide.bgLast (unitCode u)) with | some c => decide (c ≠ 1) | none => false) = true))
    ∧ (let s : State := (((((snt [(3, f1), (1, f1), (2, f1), (7, f1)]).setUnitWork .cells 3 {work := some f0, pend := some f0}).setUnitWork (.dice 1) 1 {work := some f0, pend := none}).setUnitWork (.auditor 2) 2 {work := some f0, pend := none}).setUnitWork (.netMac 1) 7 {work := some f0, pend := none});
      let b : BitVec 3 := 1;
      (s.nextBackground (.dice b) (Tbl.get (fun _ => 0) s.tide.bgLast b.toNat) = some 1))
    ∧ (let s : State := (tm (fun m => {m with now := 100}) (Z.setFordWin (.netMac 1) (some {cls := 7, ends := 10})));
      let b : BitVec 3 := 1;
      let f : Firing := f1;
      (s.fireDue (.dice b) 1 f = false))
    ∧ (let s : State := (tm (fun m => {m with now := 100}) (Z.setFordWin (.netMac 1) (some {cls := 7, ends := 10})));
      let u : Unit_ := (.netMac 1);
      ∃ x, s.fordWin u = some x ∧ x.ends ≤ s.replica (unitChip u))
    ∧ (let s : State := ((snt [(3, f1), (1, f1), (2, f1), (7, f1)]).setUnitWork .cells 3 {work := none, pend := some f1});
      let u : Unit_ := .cells;
      let f : Firing := f1;
      let w := fun t u c => State.unitWork t u c;
      ((w s .cells 3) = { work := none, pend := some f }) ∧ (s.isFenced 1 = false) ∧ (s.plat.ecc = []) ∧ (f.ford = false))
    ∧ (let s : State := (Z.setFordWin (.netMac 1) (some {cls := 7, ends := 10}));
      let u : Unit_ := (.netMac 1);
      ∃ x, s.fordWin u = some x ∧ s.replica (unitChip u) < x.ends) := ⟨by decide +kernel,
      by decide +kernel,
      by decide +kernel,
      by decide +kernel,
      by decide +kernel,
      ⟨_, rfl, le_replica _ _ _ (by decide +kernel)⟩,
      by decide +kernel,
      by
      intro s u
      have h := replica_near s (unitChip u)
      have k : s.time.now = 0 := rfl
      exact ⟨_, rfl, by change s.replica (unitChip u) < 10; omega⟩⟩

end Sys2Proof.Tests.W02

namespace Sys2Proof.Tests.W03a
open Sys2Proof Sys2Proof.Machine Sys2Proof.Tests
set_option Elab.async false

def sa : State := rn (fun t => {t with g := regs1, pc := 0x100})

theorem witness_IntegerInstructions_TwoSourceInteger :
    (let th : Nat := 8;
      let s : State := sa;
      (Runs s th)) := by decide +kernel

theorem witness_CountsAndChecksums :
    (let th : Nat := 8;
      let s : State := sa;
      (Runs s th))
    ∧ (let th : Nat := 8;
      let s : State := sa;
      (Runs s th))
    ∧ (let th : Nat := 8;
      let s : State := sa;
      (Runs s th))
    ∧ (let th : Nat := 8;
      let s : State := sa;
      (Runs s th)) := ⟨by decide +kernel,
      by decide +kernel,
      by decide +kernel,
      by decide +kernel⟩

theorem witness_IntegerInstructions_ImmediateInteger :
    (let th : Nat := 8;
      let s : State := sa;
      (Runs s th))
    ∧ (let th : Nat := 8;
      let s : State := sa;
      (Runs s th)) := ⟨by decide +kernel,
      by decide +kernel⟩

theorem witness_IntegerInstructions_TaintOfResults :
    (let th : Nat := 8;
      let s : State := (rn (fun t => {t with g := regs1, gated := true, taint := 4}));
      (Runs s th)) := by decide +kernel

theorem witness_BranchesAndJumps :
    (let th : Nat := 8;
      let s : State := sa;
      (Runs s th))
    ∧ (let th : Nat := 8;
      let rs1 : BitVec 5 := 1;
      let off : BitVec 16 := 0xFFFF;
      let s : State := sa;
      let t := s.thread th;
      let a := t.gr rs1;
      (Runs s th) ∧ ((BitVec.ofInt 32 (a.toInt + off.toInt)).toNat % 4 = 0)) := ⟨by decide +kernel,
      by decide +kernel⟩

end Sys2Proof.Tests.W03a

namespace Sys2Proof.Tests.W03b
open Sys2Proof Sys2Proof.Machine Sys2Proof.Tests
set_option Elab.async false

def sa : State := mm 8 (rn (fun t => {t with g := regs1, b := blks1, pc := 0x100}))

def sh : State := fl [(F.HDW_BOOT_STAT.HBM,0,1)] ((rn (fun t => {t with g := regs1, b := blks1, pc := 0x100})).putHbm {Z.hbm with mem := mem1})

def regs2 : Tbl Word := [(5, 0x8000c0), (10, 0x3F)]

def sdev : State := rn (fun t => { t with g := [(1, BitVec.ofNat 32 ((regAddr .BRD_FLOW_TMO 0).getD 0))], pc := 0x100
                                          dseg := BitVec.ofNat _ ((regAddr .BRD_FLOW_TMO 0).getD 0 / 2 ^ 32) })

theorem witness_LocalAndClusterMemory_LocalAndClusterLoads :
    (let th : Nat := 8;
      let sp : BitVec 2 := 0;
      let rs1 : BitVec 5 := 5;
      let off : BitVec 14 := 0;
      let s : State := sa;
      let a := (BitVec.ofInt 32 (((s.thread th).gr rs1).toInt + off.toInt)).toNat;
      (Runs s th) ∧ (Unhindered s th) ∧ (sp = 0 ∨ (sp = 1 ∧ th < 32768)) ∧ (a < nearSize sp))
    ∧ (let th : Nat := 8;
      let sp : BitVec 2 := 0;
      let rs1 : BitVec 5 := 5;
      let off : BitVec 14 := 0;
      let s : State := sa;
      let a := (BitVec.ofInt 32 (((s.thread th).gr rs1).toInt + off.toInt)).toNat;
      (Runs s th) ∧ (Unhindered s th) ∧ (sp = 0 ∨ (sp = 1 ∧ th < 32768)) ∧ (a < nearSize sp) ∧ (a % 2 = 0))
    ∧ (let th : Nat := 8;
      let sp : BitVec 2 := 0;
      let rs1 : BitVec 5 := 5;
      let off : BitVec 14 := 0;
      let s : State := sa;
      let a := (BitVec.ofInt 32 (((s.thread th).gr rs1).toInt + off.toInt)).toNat;
      (Runs s th) ∧ (Unhindered s th) ∧ (sp = 0 ∨ (sp = 1 ∧ th < 32768)) ∧ (a < nearSize sp) ∧ (a % 4 = 0))
    ∧ (let th : Nat := 8;
      let sp : BitVec 2 := 0;
      let rs1 : BitVec 5 := 5;
      let off : BitVec 14 := 0;
      let s : State := sa;
      let a := (BitVec.ofInt 32 (((s.thread th).gr rs1).toInt + off.toInt)).toNat;
      (Runs s th) ∧ (Unhindered s th) ∧ (sp = 0 ∨ (sp = 1 ∧ th < 32768)) ∧ (a < nearSize sp) ∧ (a % 16 = 0)) := ⟨by decide +kernel,
      by decide +kernel,
      by decide +kernel,
      by decide +kernel⟩

theorem witness_LocalAndClusterMemory_LocalAndClusterStores :
    (let th : Nat := 8;
      let sp : BitVec 2 := 0;
      let rs1 : BitVec 5 := 5;
      let off : BitVec 14 := 0;
      let s : State := sa;
      let a := (BitVec.ofInt 32 (((s.thread th).gr rs1).toInt + off.toInt)).toNat;
      (Runs s th) ∧ (Unhindered s th) ∧ (sp = 0 ∨ (sp = 1 ∧ th < 32768)) ∧ (a < nearSize sp))
    ∧ (let th : Nat := 8;
      let sp : BitVec 2 := 0;
      let rs1 : BitVec 5 := 5;
      let off : BitVec 14 := 0;
      let s : State := sa;
      let a := (BitVec.ofInt 32 (((s.thread th).gr rs1).toInt + off.toInt)).toNat;
      (Runs s th) ∧ (Unhindered s th) ∧ (sp = 0 ∨ (sp = 1 ∧ th < 32768)) ∧ (a < nearSize sp) ∧ (a % 2 = 0))
    ∧ (let th : Nat := 8;
      let sp : BitVec 2 := 0;
      let rs1 : BitVec 5 := 5;
      let off : BitVec 14 := 0;
      let s : State := sa;
      let a := (BitVec.ofInt 32 (((s.thread th).gr rs1).toInt + off.toInt)).toNat;
      (Runs s th) ∧ (Unhindered s th) ∧ (sp = 0 ∨ (sp = 1 ∧ th < 32768)) ∧ (a < nearSize sp) ∧ (a % 4 = 0))
    ∧ (let th : Nat := 8;
      let sp : BitVec 2 := 0;
      let rs1 : BitVec 5 := 5;
      let off : BitVec 14 := 0;
      let s : State := sa;
      let a := (BitVec.ofInt 32 (((s.thread th).gr rs1).toInt + off.toInt)).toNat;
      (Runs s th) ∧ (Unhindered s th) ∧ (sp = 0 ∨ (sp = 1 ∧ th < 32768)) ∧ (a < nearSize sp) ∧ (a % 16 = 0)) := ⟨by decide +kernel,
      by decide +kernel,
      by decide +kernel,
      by decide +kernel⟩

theorem witness_LocalAndClusterMemory_LocalAndClusterAtomics :
    (let th : Nat := 8;
      let sp : BitVec 2 := 0;
      let rs1 : BitVec 5 := 5;
      let s : State := sa;
      let a := ((s.thread th).gr rs1).toNat;
      (Runs s th) ∧ (Unhindered s th) ∧ (sp = 0 ∨ (sp = 1 ∧ th < 32768)) ∧ (a < nearSize sp) ∧ (a % 4 = 0)) := by decide +kernel

theorem witness_SharedAccessesAndWaits_SharedAndDeviceAccesses_1 :
    (let th : Nat := 8;
      let rs1 : BitVec 5 := 5;
      let off : BitVec 14 := 0;
      let s : State := sh;
      let t := s.thread th;
      let ea := (BitVec.ofInt 32 ((t.gr rs1).toInt + off.toInt)).toNat;
      let sh := t.sseg.toNat * 2 ^ 32 + ea;
      (Runs s th) ∧ (s.plat.ecc = []) ∧ (s.accessFault th .shr sh 1 false = none) ∧ (s.poisonedIn (sh - 0x1000000000) 1 = false) ∧ (t.posted = []))
    ∧ (let th : Nat := 8;
      let rs1 : BitVec 5 := 5;
      let off : BitVec 14 := 0;
      let s : State := sh;
      let t := s.thread th;
      let ea := (BitVec.ofInt 32 ((t.gr rs1).toInt + off.toInt)).toNat;
      let sh := t.sseg.toNat * 2 ^ 32 + ea;
      (Runs s th) ∧ (s.plat.ecc = []) ∧ (s.accessFault th .shr sh 2 false = none) ∧ (s.poisonedIn (sh - 0x1000000000) 2 = false) ∧ (t.posted = []))
    ∧ (let th : Nat := 8;
      let rs1 : BitVec 5 := 5;
      let off : BitVec 14 := 0;
      let s : State := sh;
      let t := s.thread th;
      let ea := (BitVec.ofInt 32 ((t.gr rs1).toInt + off.toInt)).toNat;
      let sh := t.sseg.toNat * 2 ^ 32 + ea;
      (Runs s th) ∧ (s.plat.ecc = []) ∧ (s.accessFault th .shr sh 4 false = none) ∧ (s.poisonedIn (sh - 0x1000000000) 4 = false) ∧ (t.posted = []))
    ∧ (let th : Nat := 8;
      let rs1 : BitVec 5 := 5;
      let off : BitVec 14 := 0;
      let s : State := sh;
      let t := s.thread th;
      let ea := (BitVec.ofInt 32 ((t.gr rs1).toInt + off.toInt)).toNat;
      let sh := t.sseg.toNat * 2 ^ 32 + ea;
      (Runs s th) ∧ (s.plat.ecc = []) ∧ (s.accessFault th .shr sh 4 true = none) ∧ (t.posted.length < 8))
    ∧ (let th : Nat := 8;
      let rs1 : BitVec 5 := 5;
      let off : BitVec 14 := 0;
      let s : State := sh;
      let t := s.thread th;
      let ea := (BitVec.ofInt 32 ((t.gr rs1).toInt + off.toInt)).toNat;
      let sh := t.sseg.toNat * 2 ^ 32 + ea;
      (Runs s th) ∧ (s.plat.ecc = []) ∧ (off = 0) ∧ (th < 32768) ∧ (s.accessFault th .shr sh 4 true = none) ∧ (s.poisonedIn (sh - 0x1000000000) 4 = false) ∧ (t.posted = []))
    ∧ (let th : Nat := 8;
      let rs1 : BitVec 5 := 5;
      let off : BitVec 14 := 0;
      let s : State := ((fl [(F.FRY_DN_STAT.FULL,0,1)] ((rn (fun t => {t with g := regs2, b := blks1, pc := 0x100, dseg := 3})))));
      let t := s.thread th;
      let ea := (BitVec.ofInt 32 ((t.gr rs1).toInt + off.toInt)).toNat;
      let dv := t.dseg.toNat * 2 ^ 32 + ea;
      (Runs s th) ∧ (s.plat.ecc = []) ∧ (s.accessFault th .dev dv 4 false = none) ∧ (t.posted = []) ∧ ((s.busRead (.thread th) dv).1.isSome = true) ∧ ((s.busRead (.thread th) dv).2.thread th = t))
    ∧ (let th : Nat := 8;
      let rt : BitVec 5 := 10;
      let rs1 : BitVec 5 := 5;
      let off : BitVec 14 := 0;
      let s : State := ((fl [(F.FRY_DN_STAT.FULL,0,1)] ((rn (fun t => {t with g := regs2, b := blks1, pc := 0x100, dseg := 3})))));
      let t := s.thread th;
      let ea := (BitVec.ofInt 32 ((t.gr rs1).toInt + off.toInt)).toNat;
      let dv := t.dseg.toNat * 2 ^ 32 + ea;
      (Runs s th) ∧ (s.plat.ecc = []) ∧ ((s.storeRejected th .dev dv (beBytes 4 (t.gr rt).toNat)).isSome = true) ∧ (s.accessFault th .dev dv 4 true = none) ∧ (t.posted.length < 8))
    ∧ (let th : Nat := 8;
      let rs1 : BitVec 5 := 10;
      let off : BitVec 14 := 0;
      let s : State := ((fl [(F.HDW_BOOT_STAT.HBM,0,1)] ((rn (fun t => {t with g := regs1, b := blks1, pc := 0x100, posted := List.replicate 8 ⟨false, 0x1000000000, [1,2,3,4], 0⟩})).putHbm {Z.hbm with mem := mem1})));
      let t := s.thread th;
      let ea := (BitVec.ofInt 32 ((t.gr rs1).toInt + off.toInt)).toNat;
      let sh := t.sseg.toNat * 2 ^ 32 + ea;
      (Runs s th) ∧ (s.plat.ecc = []) ∧ (s.accessFault th .shr sh 4 true = none) ∧ (8 ≤ t.posted.length))
    ∧ (let th : Nat := 8;
      let rt : BitVec 5 := 10;
      let rs1 : BitVec 5 := 5;
      let off : BitVec 14 := 4;
      let s : State := ((fl [(F.FRY_DN_STAT.FULL,0,1)] ((rn (fun t => {t with g := regs2, b := blks1, pc := 0x100, dseg := 3})))));
      let t := s.thread th;
      let ea := (BitVec.ofInt 32 ((t.gr rs1).toInt + off.toInt)).toNat;
      let dv := t.dseg.toNat * 2 ^ 32 + ea;
      (Runs s th) ∧ (s.plat.ecc = []) ∧ (s.accessFault th .dev dv 4 true = none) ∧ (t.posted.length < 8) ∧ (s.storeRejected th .dev dv (beBytes 4 (t.gr rt).toNat) = none))
    ∧ (let s : State := sdev;
      let th : Nat := 8;
      let rs1 : BitVec 5 := 1;
      let off : BitVec 14 := 0;
      let t := s.thread th;
      let ea := (BitVec.ofInt 32 ((t.gr rs1).toInt + off.toInt)).toNat;
      let dv := t.dseg.toNat * 2 ^ 32 + ea;
      let w := (s.busRead (.thread th) dv).1.getD 0;
      let u := (s.busRead (.thread th) dv).2;
      (Runs s th) ∧ (s.plat.ecc = []) ∧ (s.accessFault th .dev dv 4 false = none) ∧ (t.posted = [])
        ∧ ((s.busRead (.thread th) dv).1 = some w ∧ (s.busRead (.thread th) dv).2 = u) ∧ (u.thread th = t)) := ⟨by decide +kernel,
      by decide +kernel,
      by decide +kernel,
      by decide +kernel,
      by decide +kernel,
      by decide +kernel,
      by decide +kernel,
      by decide +kernel,
      by decide +kernel,
      ⟨by decide +kernel, by decide +kernel, by decide +kernel, by decide +kernel, ⟨by decide +kernel, rfl⟩, by decide +kernel⟩⟩

theorem witness_SharedAccessesAndWaits_SharedAndDeviceAccesses_2 :
    (let s : State := sdev;
      let th : Nat := 8;
      let rs1 : BitVec 5 := 1;
      let off : BitVec 14 := 0;
      let t := s.thread th;
      let ea := (BitVec.ofInt 32 ((t.gr rs1).toInt + off.toInt)).toNat;
      let dv := t.dseg.toNat * 2 ^ 32 + ea;
      (Runs s th) ∧ (s.plat.ecc = []) ∧ (s.accessFault th .dev dv 4 true = none) ∧ (t.posted.length < 8)) := ⟨by decide +kernel, by decide +kernel, by decide +kernel, by decide +kernel⟩

theorem witness_SharedAccessesAndWaits_WaitsEnd :
    (let th : Nat := 8;
      let s : State := (fl [(F.HDW_BOOT_STAT.HBM,0,1)] ((rn (fun t => {t with g := regs1, pc := 0x100, posted := [⟨false, 0x1000000000, [1,2,3,4], 0⟩, ⟨true, 0x1000000000, [1,2,3,4], 4⟩]})).putHbm {Z.hbm with mem := mem1}));
      (∃ p ∈ (s.thread th).posted.head?.toList, p.device = false ∧ s.busFails th .shr p.addr p.bytes.length true = false) ∧ (s.reachable (thChip th) = true))
    ∧ (let th : Nat := 8;
      let s : State := (rn (fun t => t) |> fun s => s.setThread 8 {s.thread 8 with run := .stalled .unit, look := some ⟨5, 77, none, false, 0⟩});
      ((s.thread th).run = .stalled .unit) ∧ (∃ x ∈ (s.thread th).look.toList, x.blk = none))
    ∧ (let th : Nat := 8;
      let s : State := (((rn (fun t => t))).setThread 8 {Z.thread 8 with run := .stalled (.hnew 3 512 false), pc := 4});
      ((match (s.thread th).run with | .stalled (.hnew _ n _) => decide ((n + 255) / 256 + s.fld F.CFL_CELL_FLOOR.CELLS 0 ≤ s.cfl.books.free) | _ => false) = true) ∧ (s.reachable (thChip th) = true) ∧ (s.reachable 1 = true))
    ∧ (let th : Nat := 8;
      let s : State := (((rn (fun t => t))).setThread 8 {Z.thread 8 with run := .stalled (.hnew 3 512 false), pc := 4} |>.putCfl {Z.cfl with books := {Z.cfl.books with free := 1}});
      ((match (s.thread th).run with | .stalled (.hnew _ n _) => decide (s.cfl.books.free < (n + 255) / 256 + s.fld F.CFL_CELL_FLOOR.CELLS 0) | _ => false) = true) ∧ (s.reachable (thChip th) = true) ∧ (s.reachable 1 = true))
    ∧ (let s : State := (Z.setThread 8 {Z.thread 8 with run := .stalled (.event 5), evt := 4});
      let m := 5;
      ((s.thread 8).run = .stalled (.event m)) ∧ ((s.thread 8).evt &&& m ≠ 0)) := ⟨by decide +kernel,
      by decide +kernel,
      by decide +kernel,
      by decide +kernel,
      by decide +kernel⟩

theorem witness_BlockInstructions :
    (let th : Nat := 8;
      let s : State := sa;
      (Runs s th) ∧ ((s.thread th).bBusy = 0))
    ∧ (let th : Nat := 8;
      let s : State := sa;
      (Runs s th) ∧ ((s.thread th).bBusy = 0))
    ∧ (let th : Nat := 8;
      let s : State := sa;
      (Runs s th) ∧ ((s.thread th).bBusy = 0)) := ⟨by decide +kernel,
      by decide +kernel,
      by decide +kernel⟩

end Sys2Proof.Tests.W03b

namespace Sys2Proof.Tests.W03c
open Sys2Proof Sys2Proof.Machine Sys2Proof.Tests
set_option Elab.async false

def ke1 : KeyEntry := { valid := true, long := false, enc := true, dec := true, gate := false, ver := 3, owner := 0xFFFF, key := (List.range 32).map (fun k => BitVec.ofNat 8 (k*3)) }

def kg : Tbl Word := [(1, 0x00300005), (2, 0x00300006)]

def sk : State := rn (fun t => {t with g := kg, b := blks1, pc := 0x100}) |>.setPinned 5 (some ke1) |>.setPinned 6 (some {ke1 with long := true, gate := true})

def ktk1 : List Byte := (List.range 32).map (fun k => BitVec.ofNat 8 (k*11+1))

def sfx : State := fl [(F.HDW_BOOT_STAT.HBM,0,1)] ((((Z.putKeys {Z.keys with ktk := some ktk1, fetch := [(0, 4096)]}).hbmPut (keyOff 4096) (keySeal ktk1 4096 ke1))).setThread 8 {Z.thread 8 with run := .stalled (.key 4096)})

def sg : State := rn (fun t => {t with g := [(1,4), (2, 16), (3,99)], b := [(1, 0xAABBCCDD00112233445566778899AABB),(2,0xAABBCCDD00112233445566778899AABC)], taint := 8})

def sp : State := withFrame fr0 (rn (fun t => {t with g := [(1,h0), (2, 0x00080010),(3,0x000101F0),(4,0x1F0),(5,0x00ff0000)], b := blks1, handles := [h0]}))

def sl : State := rn (fun t => {t with g := [(1,5), (2,0x1007),(3,7)], b := blks1})

def sqx : State := withFrame fr0 (rn (fun t => {t with g := [(1,h0), (2, 0x00000064),(3,5), (4,0x20000009), (5, 0x00040000), (6, 300),(7,0x0000FFFF)], b := blks1, handles := [h0], credHeld := 2}))

def sd (c : DmaCh → DmaCh) : State := let s := mm 8 (rn (fun t => {t with g := [(1,15), (2, 0x20),(3,3)], inst := 7})); s.setDma 15 (c (s.dmaCh 15))

def dd : DmaDesc := { words := [], th := 8, inst := 0, gated := false, failed := false, started := false, down := false, moved := 0, held := none }

def slq : State := fl [(F.BRD_DICE_TDEF_W0.VALID,7,1)] sl

theorem witness_CiphersAndTags_CiphersAndRoundUnits :
    (let th : Nat := 8;
      let rs1 : BitVec 5 := 1;
      let s : State := sk;
      let t := s.thread th;
      (th < 32768) ∧ (Runs s th) ∧ (t.bBusy = 0) ∧ (Tbl.get (fun _ => none) s.eng.round (th / 8 * 2) = none) ∧ ((match s.keyUse (thBoard th) (t.gr rs1) t.inst false with | .hit _ => true | _ => false) = true))
    ∧ (let th : Nat := 8;
      let rs1 : BitVec 5 := 1;
      let s : State := sk;
      let t := s.thread th;
      (th < 32768) ∧ (Runs s th) ∧ (t.bBusy = 0) ∧ (Tbl.get (fun _ => none) s.eng.round (th / 8 * 2) = none) ∧ ((match s.keyUse (thBoard th) (t.gr rs1) t.inst true with | .hit _ => true | _ => false) = true))
    ∧ (let s : State := sfx;
      (s.keys.fetch.length = 1) ∧ (∃ f ∈ s.keys.fetch, f.1 < 8 ∧ f.2 < 2 ^ 20 ∧ s.keyChecks f.2 = true ∧ s.hbmBad (keyOff f.2) 64 = false))
    ∧ (let s : State := (sk.putEng {sk.eng with round := [(3, some {th := some 8, bd := 4, res := 1})]});
      let th : Nat := 8;
      let u := true;
      (th < 32768) ∧ (Tbl.get (fun _ => none) s.eng.round (th / 8 * 2 + b2n u) = some { th := some th, bd := 4, res := 1 })) := ⟨by decide +kernel,
      by decide +kernel,
      by decide +kernel,
      ⟨by decide +kernel, rfl⟩⟩

theorem witness_CiphersAndTags_TagCompare :
    (let th : Nat := 8;
      let rs1 : BitVec 5 := 1;
      let s : State := sg;
      let t := s.thread th;
      let n := (t.gr rs1).toNat;
      (Runs s th) ∧ ((s.thread th).bBusy = 0) ∧ (4 ≤ n) ∧ (n ≤ 16) ∧ (t.gated = false))
    ∧ (let th : Nat := 8;
      let rs1 : BitVec 5 := 1;
      let ba : BitVec 3 := 1;
      let bb : BitVec 3 := 2;
      let s : State := (sg.setThread 8 {sg.thread 8 with gated := true});
      let t := s.thread th;
      let n := (t.gr rs1).toNat;
      let eq := (beBytes 16 (t.br ba).toNat).take n == (beBytes 16 (t.br bb).toNat).take n;
      (Runs s th) ∧ ((s.thread th).bBusy = 0) ∧ (4 ≤ n) ∧ (n ≤ 16) ∧ (t.gated = true) ∧ (t.failed = false) ∧ (eq = true))
    ∧ (let th : Nat := 8;
      let rs1 : BitVec 5 := 2;
      let ba : BitVec 3 := 1;
      let bb : BitVec 3 := 2;
      let s : State := (sg.setThread 8 {sg.thread 8 with gated := true});
      let t := s.thread th;
      let n := (t.gr rs1).toNat;
      let eq := (beBytes 16 (t.br ba).toNat).take n == (beBytes 16 (t.br bb).toNat).take n;
      (Runs s th) ∧ ((s.thread th).bBusy = 0) ∧ (4 ≤ n) ∧ (n ≤ 16) ∧ (t.gated = true) ∧ (t.failed = false) ∧ (eq = false)) := ⟨by decide +kernel,
      by decide +kernel,
      by decide +kernel⟩

theorem witness_PayloadStreaming :
    (let th : Nat := 8;
      let s : State := (sp.setThread 8 {sp.thread 8 with fifo := [some 1, none], stream := some ⟨h0, 0x1F0, 2⟩});
      let t := s.thread th;
      (Runs s th) ∧ (th < 32768) ∧ (t.bBusy = 0) ∧ (∃ b ∈ t.fifo.head?.toList, b.isSome = true))
    ∧ (let th : Nat := 8;
      let rd : BitVec 5 := 4;
      let rs1 : BitVec 5 := 1;
      let h : Word := h0;
      let f : FrameRec := fr0;
      let s : State := (sp.setThread 8 {sp.thread 8 with fifo := [some 1, none], stream := some ⟨h0, 0x1F0, 2⟩});
      let t := s.thread th;
      let off := (t.gr rd).toNat % 65536;
      (Runs s th) ∧ (th < 32768) ∧ (t.bBusy = 0) ∧ (t.gr rs1 = h) ∧ (t.handles.contains h = true) ∧ (s.handleFrame h = some f) ∧ ((t.gr rd).toNat / 65536 = 0) ∧ (off % 16 = 0) ∧ (off + 16 ≤ f.cells * 256) ∧ (t.wfifo.length < 16))
    ∧ (let th : Nat := 8;
      let s : State := (sp.setThread 8 {sp.thread 8 with fifo := [some 1, none], stream := some ⟨h0, 0x1F0, 2⟩});
      let t := s.thread th;
      (Runs s th) ∧ (th < 32768) ∧ (t.wfifo = []))
    ∧ (let th : Nat := 8;
      let rd : BitVec 5 := 4;
      let f : FrameRec := fr0;
      let s : State := (sp.setThread 8 {sp.thread 8 with stream := some ⟨h0, 0x1F0, 2⟩, wfifo := [⟨h0, 0x20, 0x112233445566778899AABBCCDDEEFF00, false⟩, ⟨h0, 0x1F0, 5, false⟩]});
      let t := s.thread th;
      let off := (t.gr rd).toNat % 65536;
      (t.fifo = []) ∧ (s.reachable (thChip th) = true) ∧ (s.plat.ecc = []) ∧ (∃ x ∈ t.stream.toList, x.left ≠ 0 ∧ s.handleFrame x.handle = some f ∧ x.off + 16 ≤ f.bytes.length))
    ∧ (let th : Nat := 8;
      let rd : BitVec 5 := 4;
      let f : FrameRec := fr0;
      let s : State := (sp.setThread 8 {sp.thread 8 with stream := some ⟨h0, 0x1F0, 2⟩, wfifo := [⟨h0, 0x20, 0x112233445566778899AABBCCDDEEFF00, false⟩, ⟨h0, 0x1F0, 5, false⟩]});
      let t := s.thread th;
      let off := (t.gr rd).toNat % 65536;
      (f.bytes.length = f.cells * 256) ∧ (∃ w ∈ t.wfifo.head?.toList, w.gated = false ∧ s.handleFrame w.handle = some f ∧ w.off + 16 ≤ f.cells * 256))
    ∧ (let th : Nat := 8;
      let rd : BitVec 5 := 2;
      let rs1 : BitVec 5 := 1;
      let h : Word := h0;
      let f : FrameRec := fr0;
      let s : State := sp;
      let t := s.thread th;
      let off := (t.gr rd).toNat % 65536;
      (Runs s th) ∧ (th < 32768) ∧ (t.wfifo = []) ∧ (t.gr rs1 = h) ∧ (t.handles.contains h = true) ∧ (s.handleFrame h = some f) ∧ ((t.gr rd).toNat / 2 ^ 24 = 0) ∧ ((t.gr rd).toNat / 65536 ≠ 0) ∧ (off % 16 = 0) ∧ (off + 16 * ((t.gr rd).toNat / 65536) ≤ f.cells * 256)) := ⟨by decide +kernel,
      by decide +kernel,
      by decide +kernel,
      by decide +kernel,
      by decide +kernel,
      by decide +kernel⟩

theorem witness_LookupQueueDma_LookupInstructions :
    (let th : Nat := 8;
      let rs1 : BitVec 5 := 1;
      let s : State := sl;
      let t := s.thread th;
      (Runs s th) ∧ (th < 32768) ∧ (t.bBusy = 0) ∧ (t.gated = false) ∧ ((t.gr rs1).toNat / 4096 = 0))
    ∧ (let th : Nat := 8;
      let s : State := sl;
      let t := s.thread th;
      (Runs s th) ∧ (th < 32768) ∧ (t.bBusy = 0) ∧ (t.gated = false))
    ∧ (let th : Nat := 8;
      let rs1 : BitVec 5 := 1;
      let s : State := sl;
      let t := s.thread th;
      (Runs s th) ∧ (th < 32768) ∧ (t.bBusy = 0) ∧ (t.gated = false) ∧ ((t.gr rs1).toNat / 8192 = 0))
    ∧ (let th : Nat := 8;
      let s : State := (sl.setThread 8 {sl.thread 8 with run := .stalled .lookup, look := some ⟨5, 77, none, false, 0⟩});
      let t := s.thread th;
      (t.run = .stalled .lookup) ∧ (∃ a ∈ t.look.toList, a.blk = none))
    ∧ (let th : Nat := 8;
      let rs1 : BitVec 5 := 3;
      let ba : BitVec 3 := 2;
      let bb : BitVec 3 := 3;
      let s : State := ((slq.setPipeQ 3 [.ins 8 1 9 true 7 0 (beBytes 16 (Tbl.get (fun _ => 0) blks1 2).toNat) (beBytes 16 (Tbl.get (fun _ => 0) blks1 3).toNat)]).setThread 8 {slq.thread 8 with run := .stalled (.pipe 3 1)});
      let t := s.thread th;
      let table := (t.gr rs1).toNat % 4096;
      let key := fun (b : BitVec 3) => beBytes 16 (t.br b).toNat;
      let inst := t.inst.toNat % 65536;
      ((match t.run with | .stalled (.pipe p n) => decide (p < 8 ∧ ∃ z ∈ (s.pipeQ p), s.pipeQ p = [z] ∧ (match z with | .ins a b _ _ d e f g => decide (a = th ∧ b = n ∧ d = table ∧ e = inst ∧ f = key ba ∧ g = key bb) | _ => false) = true) | _ => false) = true))
    ∧ (let th : Nat := 8;
      let rs1 : BitVec 5 := 3;
      let ba : BitVec 3 := 2;
      let s : State := ((slq.setPipeQ 3 [.del 8 1 9 true 7 (beBytes 16 (Tbl.get (fun _ => 0) blks1 2).toNat)]).setThread 8 {slq.thread 8 with run := .stalled (.pipe 3 1)});
      let t := s.thread th;
      let table := (t.gr rs1).toNat % 4096;
      let key := fun (b : BitVec 3) => beBytes 16 (t.br b).toNat;
      ((match t.run with | .stalled (.pipe p n) => decide (p < 8 ∧ ∃ z ∈ (s.pipeQ p), s.pipeQ p = [z] ∧ (match z with | .del a b _ _ d e => decide (a = th ∧ b = n ∧ d = table ∧ e = key ba) | _ => false) = true) | _ => false) = true)) := ⟨by decide +kernel,
      by decide +kernel,
      by decide +kernel,
      by decide +kernel,
      by decide +kernel,
      by decide +kernel⟩

theorem witness_LookupQueueDma_QueueInstructions :
    (let th : Nat := 8;
      let rd : BitVec 5 := 2;
      let rs1 : BitVec 5 := 1;
      let rs2 : BitVec 5 := 3;
      let f : FrameRec := fr0;
      let s : State := sqx;
      let t := s.thread th;
      let h := t.gr rs1;
      let fw := t.gr rd;
      let held := t.wfifo = [] ∧ t.gated = false ∧ t.handles.contains h = true ∧ s.handleFrame h = some f ∧ f.board = none
          ∧ (f.input = .none ∨ (s.inputSt f.input).isLate f.seq = false);
      (Runs s th) ∧ (th < 32768) ∧ (held) ∧ (0 < t.credHeld) ∧ (fw.toNat % 65536 ≠ 0) ∧ (fw.toNat / 65536 + fw.toNat % 65536 ≤ f.cells * 256) ∧ ((t.gr rs2).toNat / 2 ^ 20 % 4 ≠ 3) ∧ ((t.gr rs2).toNat / 2 ^ 29 = 0))
    ∧ (let th : Nat := 8;
      let rd : BitVec 5 := 2;
      let rs1 : BitVec 5 := 1;
      let rs2 : BitVec 5 := 3;
      let f : FrameRec := fr0;
      let s : State := sqx;
      let t := s.thread th;
      let h := t.gr rs1;
      let fw := t.gr rd;
      let held := t.wfifo = [] ∧ t.gated = false ∧ t.handles.contains h = true ∧ s.handleFrame h = some f ∧ f.board = none
          ∧ (f.input = .none ∨ (s.inputSt f.input).isLate f.seq = false);
      (Runs s th) ∧ (th < 32768) ∧ (held) ∧ (0 < t.credHeld) ∧ (fw.toNat % 65536 ≠ 0) ∧ (fw.toNat / 65536 + fw.toNat % 65536 ≤ f.cells * 256) ∧ ((t.gr rs2).toNat / 65536 = 0))
    ∧ (let th : Nat := 8;
      let rs1 : BitVec 5 := 1;
      let rs2 : BitVec 5 := 3;
      let f : FrameRec := fr0;
      let s : State := sqx;
      let t := s.thread th;
      let h := t.gr rs1;
      let held := t.wfifo = [] ∧ t.gated = false ∧ t.handles.contains h = true ∧ s.handleFrame h = some f ∧ f.board = none
          ∧ (f.input = .none ∨ (s.inputSt f.input).isLate f.seq = false);
      (Runs s th) ∧ (th < 32768) ∧ (held) ∧ ((t.gr rs2).toNat / 256 = 0))
    ∧ (let th : Nat := 8;
      let rs2 : BitVec 5 := 3;
      let s : State := sqx;
      let t := s.thread th;
      (Runs s th) ∧ (th < 32768) ∧ (1 ≤ (t.gr rs2).toNat) ∧ ((t.gr rs2).toNat ≤ 65536) ∧ (t.handles.length < 4))
    ∧ (let th : Nat := 8;
      let rs1 : BitVec 5 := 3;
      let s : State := sqx;
      let t := s.thread th;
      let h := t.gr rs1;
      (Runs s th) ∧ (th < 32768) ∧ (h.toNat / 2 ^ 20 = 0)) := ⟨by decide +kernel,
      by decide +kernel,
      by decide +kernel,
      by decide +kernel,
      by decide +kernel⟩

theorem witness_LookupQueueDma_DmaInstructions :
    (let th : Nat := 8;
      let rs1 : BitVec 5 := 1;
      let rs2 : BitVec 5 := 2;
      let s : State := (sd id);
      let t := s.thread th;
      let a := (t.gr rs2).toNat;
      let ch := th / 512 * 16 + (t.gr rs1).toNat;
      (Runs s th) ∧ (th < 32768) ∧ (Unhindered s th) ∧ ((s.thread th).posted = []) ∧ ((t.gr rs1).toNat < 16) ∧ (a % 32 = 0) ∧ (a < 0x400000) ∧ ((s.dmaCh ch).act = none))
    ∧ (let th : Nat := 8;
      let rs1 : BitVec 5 := 1;
      let s : State := (sd id);
      let t := s.thread th;
      let ch := th / 512 * 16 + (t.gr rs1).toNat;
      (Runs s th) ∧ (th < 32768) ∧ (Unhindered s th) ∧ ((s.thread th).posted = []) ∧ ((t.gr rs1).toNat < 16) ∧ ((s.dmaCh ch).act = none) ∧ ((s.dmaCh ch).shd = none))
    ∧ (let th : Nat := 8;
      let rs1 : BitVec 5 := 1;
      let s : State := (sd id);
      let t := s.thread th;
      (Runs s th) ∧ (th < 32768) ∧ (Unhindered s th) ∧ ((s.thread th).posted = []) ∧ ((t.gr rs1).toNat < 16))
    ∧ (let th : Nat := 8;
      let rs1 : BitVec 5 := 1;
      let rs2 : BitVec 5 := 2;
      let s : State := (sd (fun c => {c with act := some dd, code := 3, side := 1, more := true}));
      let t := s.thread th;
      let a := (t.gr rs2).toNat;
      let ch := th / 512 * 16 + (t.gr rs1).toNat;
      (Runs s th) ∧ (th < 32768) ∧ (Unhindered s th) ∧ ((s.thread th).posted = []) ∧ ((t.gr rs1).toNat < 16) ∧ (a % 32 = 0) ∧ (a < 0x400000) ∧ ((s.dmaCh ch).act ≠ none) ∧ ((s.dmaCh ch).shd = none))
    ∧ (let th : Nat := 8;
      let rs1 : BitVec 5 := 1;
      let rs2 : BitVec 5 := 2;
      let s : State := (sd (fun c => {c with act := some dd, shd := some dd}));
      let t := s.thread th;
      let a := (t.gr rs2).toNat;
      let ch := th / 512 * 16 + (t.gr rs1).toNat;
      (Runs s th) ∧ (th < 32768) ∧ (Unhindered s th) ∧ ((s.thread th).posted = []) ∧ ((t.gr rs1).toNat < 16) ∧ (a % 32 = 0) ∧ (a < 0x400000) ∧ ((s.dmaCh ch).act ≠ none) ∧ ((s.dmaCh ch).shd ≠ none)) := ⟨by decide +kernel,
      by decide +kernel,
      by decide +kernel,
      by decide +kernel,
      by decide +kernel⟩

end Sys2Proof.Tests.W03c

namespace Sys2Proof.Tests.W03d
open Sys2Proof Sys2Proof.Machine Sys2Proof.Tests
set_option Elab.async false

def g3 : Tbl Word := [(1,1), (2, 0xFFF07), (3,0x7F00), (4, 511), (5,15), (6, 0x80000000), (7,7), (8, 0x7F04), (9, 0x101), (10, 0xFFFF8000)]

def sa : State := (rn (fun t => {t with g := g3, pc := 0x100}))

def sb (f : Thread → Thread) (g : Thread → Thread := id) : State := let s := (rn (fun t => g {t with g := g3, pc := 0x100})); s.setThread 9 (f (s.thread 9))

theorem witness_ThreadsAndSystem_ThreadControl_1 :
    (let th : Nat := 8;
      let x : Nat := 9;
      let rs1 : BitVec 5 := 1;
      let s : State := sa;
      let t := s.thread th;
      let a := (t.gr rs1).toNat;
      (Runs s th) ∧ (th % 8 = 0) ∧ (0 < a) ∧ (a < 8) ∧ (x = th + a) ∧ ((s.thread x).run = .stopped) ∧ ((s.thread x).faulted = false))
    ∧ (let th : Nat := 8;
      let x : Nat := 9;
      let rs1 : BitVec 5 := 1;
      let s : State := sa;
      let t := s.thread th;
      let a := (t.gr rs1).toNat;
      (Runs s th) ∧ (th % 8 = 0) ∧ (0 < a) ∧ (a < 8) ∧ (x = th + a) ∧ (t.gated = false) ∧ ((s.thread x).run = .stopped))
    ∧ (let th : Nat := 8;
      let x : Nat := 9;
      let rs1 : BitVec 5 := 1;
      let s : State := sa;
      let t := s.thread th;
      let a := (t.gr rs1).toNat;
      (Runs s th) ∧ (th % 8 = 0) ∧ (0 < a) ∧ (a < 8) ∧ (x = th + a) ∧ ((s.thread x).run = .stopped))
    ∧ (let th : Nat := 8;
      let rs1 : BitVec 5 := 1;
      let s : State := sa;
      let t := s.thread th;
      let m := t.gr rs1;
      (Runs s th) ∧ (t.evt &&& m = 0))
    ∧ (let th : Nat := 8;
      let s : State := sa;
      let t := s.thread th;
      (Runs s th) ∧ (t.gated = false) ∧ (t.handles = []) ∧ (t.wfifo = []))
    ∧ (let th : Nat := 8;
      let x : Nat := 9;
      let rs1 : BitVec 5 := 1;
      let s : State := (sb (fun t => {t with run := .ready}));
      let t := s.thread th;
      let a := (t.gr rs1).toNat;
      (Runs s th) ∧ (th % 8 = 0) ∧ (0 < a) ∧ (a < 8) ∧ (x = th + a) ∧ ((s.thread x).run ≠ .stopped) ∧ ((s.thread x).gated = false) ∧ ((s.thread x).handles = []) ∧ ((s.thread x).wfifo = []))
    ∧ (let th : Nat := 8;
      let s : State := (sb (fun t => {t with run := .ready}));
      (Runs s th) ∧ ((s.thread (th / 8 * 8 + (th % 8 + 1) % 8)).run = .ready))
    ∧ (let th : Nat := 8;
      let rs1 : BitVec 5 := 0;
      let s : State := ((sb id (fun t => {t with evt := 0x5100})).setThread 0 {Z.thread 0 with run := .stalled (.event 0x8000)});
      let t := s.thread th;
      let a := (t.gr rs1).toNat;
      (Runs s th) ∧ (th < 32768) ∧ (a % 64 = 0) ∧ (a + 256 ≤ 0x8000) ∧ (t.handles.length < 4) ∧ (t.gated = false))
    ∧ (let th : Nat := 8;
      let rs1 : BitVec 5 := 0;
      let rs2 : BitVec 5 := 5;
      let s : State := ((sb id (fun t => {t with evt := 0x5100})).setThread 0 {Z.thread 0 with run := .stalled (.event 0x8000)});
      let t := s.thread th;
      let a := (t.gr rs1).toNat;
      (Runs s th) ∧ (th < 32768) ∧ (t.gated = false) ∧ (a < 512) ∧ ((t.gr rs2).toNat < 16))
    ∧ (let th : Nat := 8;
      let x : Nat := 9;
      let rs1 : BitVec 5 := 1;
      let s : State := (sb (fun t => {t with g := g3, faulted := true}));
      let t := s.thread th;
      let a := (t.gr rs1).toNat;
      (Runs s th) ∧ (th % 8 = 0) ∧ (0 < a) ∧ (a < 8) ∧ (x = th + a) ∧ ((s.thread x).run = .stopped) ∧ ((s.thread x).faulted = true)) := ⟨by decide +kernel,
      by decide +kernel,
      by decide +kernel,
      by decide +kernel,
      by decide +kernel,
      by decide +kernel,
      by decide +kernel,
      by decide +kernel,
      by decide +kernel,
      by decide +kernel⟩

theorem witness_ThreadsAndSystem_ThreadControl_2 :
    (let th : Nat := 8;
      let rs1 : BitVec 5 := 3;
      let s : State := (sb id (fun t => {t with evt := 0x5100}));
      let t := s.thread th;
      let m := t.gr rs1;
      (Runs s th) ∧ (t.evt &&& m ≠ 0)) := by decide +kernel

theorem witness_ThreadsAndSystem_SystemInstructions :
    (let th : Nat := 8;
      let s : State := sa;
      (Runs s th))
    ∧ (let th : Nat := 8;
      let s : State := sa;
      (Runs s th) ∧ (th < 32768))
    ∧ (let th : Nat := 8;
      let s : State := sa;
      let t := s.thread th;
      (Runs s th) ∧ (t.gated = false))
    ∧ (let th : Nat := 8;
      let s : State := sa;
      let t := s.thread th;
      (Runs s th) ∧ (t.posted = []) ∧ (t.wfifo = []))
    ∧ (let th : Nat := 8;
      let s : State := sa;
      let buf := if 32768 ≤ th then 9 else th / 4096;
      (Runs s th) ∧ (s.fld F.HDW_DIE_STATUS.STATE 0 = 0 ∨ s.fld F.HDW_DIE_STATUS.STATE 0 = 1 ∧ s.rndBits buf < 32))
    ∧ (let th : Nat := 8;
      let mask : BitVec 5 := 0x1F;
      let s : State := (fl [(F.HDW_DIE_STATUS.STATE,0,1)] (((Z.keys |> fun k => (fun (s:State) => s.putKeys {k with rnd := [(0,64)]}))) <| sb id (fun t => {t with evt := 0x5100, inst := 0x12345678, sseg := 0x1234, gated := false, failed := true, posted := [⟨false,0,[1],0⟩]})));
      let t := s.thread th;
      (Runs s th) ∧ (t.posted ≠ []) ∧ (mask = 0x1F))
    ∧ (let th : Nat := 8;
      let s : State := (fl [(F.HDW_DIE_STATUS.STATE,0,1)] (((Z.keys |> fun k => (fun (s:State) => s.putKeys {k with rnd := [(0,64)]}))) <| sb id (fun t => {t with evt := 0x5100, inst := 0x12345678, sseg := 0x1234, gated := false, failed := true, posted := [⟨false,0,[1],0⟩]})));
      let buf := if 32768 ≤ th then 9 else th / 4096;
      (Runs s th) ∧ (s.fld F.HDW_DIE_STATUS.STATE 0 = 1) ∧ (32 ≤ s.rndBits buf)) := ⟨by decide +kernel,
      by decide +kernel,
      by decide +kernel,
      by decide +kernel,
      by decide +kernel,
      by decide +kernel,
      by decide +kernel⟩

theorem witness_FaultsArePrecise :
    (let th : Nat := 8;
      let s : State := sa;
      let t := s.thread th;
      let q := fun (u : State) => Tbl.get (fun _ => []) u.eng.faults (th / 512);
      (Runs s th) ∧ (th < 32768) ∧ (th % 512 ≠ 0) ∧ (t.gated = false) ∧ (t.handles = []) ∧ (t.wfifo = []) ∧ ((q s).length < 16))
    ∧ (let th : Nat := 8;
      let rs1 : BitVec 5 := 1;
      let off : BitVec 16 := 0x8001;
      let s : State := sa;
      let t := s.thread th;
      let q := fun (u : State) => Tbl.get (fun _ => []) u.eng.faults (th / 512);
      (Runs s th) ∧ (th < 32768) ∧ (th % 512 ≠ 0) ∧ (t.gated = false) ∧ (t.handles = []) ∧ (t.wfifo = []) ∧ ((q s).length < 16) ∧ ((BitVec.ofInt 32 ((t.gr rs1).toInt + off.toInt)).toNat % 4 ≠ 0))
    ∧ (let th : Nat := 8;
      let rs1 : BitVec 5 := 1;
      let rs2 : BitVec 5 := 1;
      let off : BitVec 16 := 0x8001;
      let s : State := sa;
      let t := s.thread th;
      let q := fun (u : State) => Tbl.get (fun _ => []) u.eng.faults (th / 512);
      (Runs s th) ∧ (th < 32768) ∧ (th % 512 ≠ 0) ∧ (t.gated = false) ∧ (t.handles = []) ∧ (t.wfifo = []) ∧ ((q s).length < 16) ∧ (t.gr rs1 = t.gr rs2) ∧ (2 ^ 20 ≤ (BitVec.ofInt 32 (t.pc.toNat + off.toInt * 4)).toNat))
    ∧ (let th : Nat := 8;
      let rs1 : BitVec 5 := 8;
      let o14 : BitVec 14 := 0x100;
      let s : State := sa;
      let t := s.thread th;
      let q := fun (u : State) => Tbl.get (fun _ => []) u.eng.faults (th / 512);
      (Runs s th) ∧ (th < 32768) ∧ (th % 512 ≠ 0) ∧ (t.gated = false) ∧ (t.handles = []) ∧ (t.wfifo = []) ∧ ((q s).length < 16) ∧ (0x8000 ≤ (BitVec.ofInt 32 ((t.gr rs1).toInt + o14.toInt)).toNat) ∧ ((BitVec.ofInt 32 ((t.gr rs1).toInt + o14.toInt)).toNat % 4 = 0)) := ⟨by decide +kernel,
      by decide +kernel,
      by decide +kernel,
      by decide +kernel⟩

theorem witness_TagGate :
    (let th : Nat := 8;
      let rs1 : BitVec 5 := 3;
      let off : BitVec 14 := 0;
      let s : State := (sb id (fun t => {t with gated := true, b := blks1, taint := 0x10}));
      let t := s.thread th;
      (Runs s th) ∧ (t.gated = true) ∧ (t.failed = false) ∧ (th < 32768) ∧ (t.wfifo = []) ∧ (t.handles = []) ∧ ((BitVec.ofInt 32 ((t.gr rs1).toInt + off.toInt)).toNat % 4 = 0) ∧ ((BitVec.ofInt 32 ((t.gr rs1).toInt + off.toInt)).toNat < 0x8000))
    ∧ (let th : Nat := 8;
      let s : State := (sb id (fun t => {t with gated := true, b := blks1, taint := 0x10}));
      let t := s.thread th;
      (t.gated = true) ∧ (t.failed = false) ∧ (s.fld F.BRD_GATE_TIMEOUT.COUNT (thBoard th) < 2 ^ 32 - 1))
    ∧ (let th : Nat := 8;
      let s : State := (sb id (fun t => {t with gated := true, b := blks1, taint := 0x10, failed := true, gbufs := [0x2000]}) |> fun s => s.putEng {s.eng with clusterMem := [(0x1FFF,1),(0x2000,2),(0x27FF,3), (0x2800,4)]});
      let t := s.thread th;
      (t.gated = false ∨ t.failed = true) ∧ (t.gbufs.length = 1) ∧ (t.gfree = [])) := ⟨by decide +kernel,
      by decide +kernel,
      by decide +kernel⟩

end Sys2Proof.Tests.W03d

namespace Sys2Proof.Tests.W04a
open Sys2Proof Sys2Proof.Machine Sys2Proof.Tests
set_option Elab.async false

def s0 : State := rg [(.CLU_ENTRY, 3, 0x12346), (.CLU_THREAD_PC,3,0xFFFFE)] (Z.setThread (3*512+5*8) {Z.thread 0 with pc := 0x88, g := regs1, b := blks1})

def bufs (l : List (Nat × Option Nat)) (s : State) : State := s.putEng {s.eng with bufs := [(3,l)]}

def sb : State := fl [(F.CLU_BUF_CTL.POOL_EN,3,1), (F.CLU_BUF_CTL.COUNT,3,4),(F.CLU_BUF_STAT.POOL,3,3), (F.CLU_BUF_STAT.ALLOCATED,3,1)]

def hb : State := fl [(F.HDW_BOOT_STAT.HBM,0,1)]

def hc (t : HomeTxn) (s : State := hb) : State := s.putHbm {s.hbm with home := [(77,{txn := some t, wait := [(2,.rdo)]})]}

def tt : HomeTxn := {board := 5, req := .rds, fetch := false, send := 0, await := 0}

theorem witness_Clusters_ClusterThreadControl :
    (let s : State := s0;
      let cl : BitVec 6 := 3;
      let e : BitVec 6 := 5;
      let t : BitVec 3 := 0;
      let v : BitVec 32 := 5;
      let th := cl.toNat * 512 + e.toNat * 8 + t.toNat;
      (s.reachable (8 + cl.toNat / 8) = true) ∧ (s.fld F.MCODE_STATUS.STATE cl.toNat = 0) ∧ (bit (s.fld F.BRD_STATUS.CLU_OK (cl.toNat / 8)) (cl.toNat % 8) = true) ∧ (v.toNat % 128 = e.toNat) ∧ (t = 0) ∧ ((s.thread th).run = .stopped) ∧ ((s.thread th).faulted = false))
    ∧ (let s : State := s0;
      let cl : BitVec 6 := 3;
      let e : BitVec 6 := 5;
      let t : BitVec 3 := 0;
      let th := cl.toNat * 512 + e.toNat * 8 + t.toNat;
      let clean := fun x => (s.thread x).gated = false ∧ (s.thread x).handles = [] ∧ (s.thread x).wfifo = [];
      (s.reachable (8 + cl.toNat / 8) = true) ∧ (s.fld F.MCODE_STATUS.STATE cl.toNat = 0) ∧ (bit (s.fld F.BRD_STATUS.CLU_OK (cl.toNat / 8)) (cl.toNat % 8) = true) ∧ (clean th))
    ∧ (let s : State := s0;
      let cl : BitVec 6 := 3;
      let e : BitVec 6 := 5;
      let t : BitVec 3 := 0;
      let th := cl.toNat * 512 + e.toNat * 8 + t.toNat;
      (s.reachable (8 + cl.toNat / 8) = true) ∧ (s.fld F.MCODE_STATUS.STATE cl.toNat = 0) ∧ (bit (s.fld F.BRD_STATUS.CLU_OK (cl.toNat / 8)) (cl.toNat % 8) = true) ∧ ((s.thread th).run = .stopped))
    ∧ (let s : State := s0;
      let cl : BitVec 6 := 3;
      let e : BitVec 6 := 5;
      let t : BitVec 3 := 0;
      let v : BitVec 32 := 64;
      let th := cl.toNat * 512 + e.toNat * 8 + t.toNat;
      (s.reachable (8 + cl.toNat / 8) = true) ∧ (s.fld F.MCODE_STATUS.STATE cl.toNat = 0) ∧ (bit (s.fld F.BRD_STATUS.CLU_OK (cl.toNat / 8)) (cl.toNat % 8) = true) ∧ (v.toNat % 128 = 64) ∧ (t = 0) ∧ ((s.thread th).run = .stopped) ∧ ((s.thread th).faulted = false))
    ∧ (let s : State := (s0.setThread (3*512+5*8) {Z.thread 0 with pc := 0x88, g := regs1, b := blks1, faulted := true});
      let cl : BitVec 6 := 3;
      let e : BitVec 6 := 5;
      let t : BitVec 3 := 0;
      let th := cl.toNat * 512 + e.toNat * 8 + t.toNat;
      (s.reachable (8 + cl.toNat / 8) = true) ∧ (s.fld F.MCODE_STATUS.STATE cl.toNat = 0) ∧ (bit (s.fld F.BRD_STATUS.CLU_OK (cl.toNat / 8)) (cl.toNat % 8) = true) ∧ (t = 0) ∧ ((s.thread th).faulted = true))
    ∧ (let s : State := (s0.setThread (3*512+5*8+1) {Z.thread 0 with run := .ready, pc := 0x88, g := regs1, b := blks1, faulted := true});
      let cl : BitVec 6 := 3;
      let e : BitVec 6 := 5;
      let t : BitVec 3 := 1;
      let th := cl.toNat * 512 + e.toNat * 8 + t.toNat;
      let clean := fun x => (s.thread x).gated = false ∧ (s.thread x).handles = [] ∧ (s.thread x).wfifo = [];
      (s.reachable (8 + cl.toNat / 8) = true) ∧ (s.fld F.MCODE_STATUS.STATE cl.toNat = 0) ∧ (bit (s.fld F.BRD_STATUS.CLU_OK (cl.toNat / 8)) (cl.toNat % 8) = true) ∧ (clean th) ∧ ((s.thread th).run ≠ .stopped)) := ⟨by decide +kernel,
      by decide +kernel,
      by decide +kernel,
      by decide +kernel,
      by decide +kernel,
      by decide +kernel⟩

theorem witness_Clusters_ClusterRegisters_1 :
    (let s : State := ((fl [(F.MCODE_STATUS.STATE,3,1)] s0).putEng {s0.eng with creditPend := [(3, some 0x00100021)], faults := [(3,[⟨1,2,3,4⟩, ⟨5,6,7,8⟩])]});
      let cl : BitVec 6 := 3;
      let c := cl.toNat;
      (s.reachable (8 + c / 8) = true))
    ∧ (let s : State := ((fl [(F.MCODE_STATUS.STATE,3,1)] s0).putEng {s0.eng with creditPend := [(3, some 0x00100021)], faults := [(3,[⟨1,2,3,4⟩, ⟨5,6,7,8⟩])]});
      let cl : BitVec 6 := 3;
      let v : BitVec 32 := 0x00100021;
      let c := cl.toNat;
      (s.reachable (8 + c / 8) = true) ∧ (v.toNat % 2 = 1))
    ∧ (let s : State := ((fl [(F.MCODE_STATUS.STATE,3,1)] s0).putEng {s0.eng with creditPend := [(3, some 0x00100021)], faults := [(3,[⟨1,2,3,4⟩, ⟨5,6,7,8⟩])]});
      let cl : BitVec 6 := 3;
      let v : BitVec 32 := 0x00100021;
      let c := cl.toNat;
      (s.reachable (8 + c / 8) = true) ∧ (s.clusterStopped c = true) ∧ (1 ≤ v.toNat % 16) ∧ (v.toNat % 16 ≤ 8) ∧ (64 * (v.toNat % 16) * s.fld F.CLU_CREDIT_CTL.SHARE c ≤ 1024) ∧ (64 * (v.toNat % 16) * s.fld F.CLU_BUF_CTL.SHARE c ≤ s.fld F.CLU_BUF_CTL.COUNT c))
    ∧ (let s : State := ((fl [(F.MCODE_STATUS.STATE,3,1)] s0).putEng {s0.eng with creditPend := [(3, some 0x00100021)], faults := [(3,[⟨1,2,3,4⟩, ⟨5,6,7,8⟩])]});
      let cl : BitVec 6 := 3;
      let v : BitVec 32 := 0x00100021;
      let c := cl.toNat;
      (s.reachable (8 + c / 8) = true) ∧ (s.clusterStopped c = true) ∧ (64 * s.fld F.CLU_CTL.SLOTS c * (v.toNat % 32) ≤ 1024) ∧ (s.fld F.CLU_CREDIT_STAT.INFLIGHT c = 0))
    ∧ (let s : State := ((fl [(F.MCODE_STATUS.STATE,3,1)] s0).putEng {s0.eng with creditPend := [(3, some 0x00100021)], faults := [(3,[⟨1,2,3,4⟩, ⟨5,6,7,8⟩])]});
      let cl : BitVec 6 := 3;
      let v : BitVec 32 := 0x00100021;
      let c := cl.toNat;
      (s.reachable (8 + c / 8) = true) ∧ (s.clusterStopped c = true) ∧ (64 * s.fld F.CLU_CTL.SLOTS c * (v.toNat / 2 ^ 11 % 32) ≤ v.toNat % 2 ^ 11) ∧ (v.toNat % 2 ^ 11 ≤ 1024))
    ∧ (let s : State := ((fl [(F.MCODE_STATUS.STATE,3,1)] s0).putEng {s0.eng with creditPend := [(3, some 0x00100021)], faults := [(3,[⟨1,2,3,4⟩, ⟨5,6,7,8⟩])]});
      let cl : BitVec 6 := 3;
      let c := cl.toNat;
      (s.reachable (8 + c / 8) = true) ∧ (s.fld F.MCODE_STATUS.STATE c = 1 ∨ s.fld F.MCODE_STATUS.STATE c = 2))
    ∧ (let s : State := ((fl [(F.MCODE_STATUS.STATE,3,1)] s0).putEng {s0.eng with creditPend := [(3, some 0x00100021)], faults := [(3,[⟨1,2,3,4⟩, ⟨5,6,7,8⟩])]});
      let cl : BitVec 6 := 3;
      let v : BitVec 32 := 0x00100021;
      let c := cl.toNat;
      (Tbl.get (fun _ => none) s.eng.creditPend c = some v) ∧ (s.fld F.CLU_CREDIT_STAT.INFLIGHT c = 0) ∧ (64 * s.fld F.CLU_CTL.SLOTS c * (v.toNat % 32) ≤ 1024))
    ∧ (let s : State := (s0.setThread (3*512+5*8+1) {Z.thread 0 with run := .ready});
      let cl : BitVec 6 := 3;
      let c := cl.toNat;
      (s.reachable (8 + c / 8) = true) ∧ (s.clusterStopped c = false))
    ∧ (let s : State := (fl [(F.MCODE_STATUS.STATE,3,2),(F.CLU_CREDIT_STAT.INFLIGHT,3,4)] s0);
      let cl : BitVec 6 := 3;
      let v : BitVec 32 := 0x07F00011;
      let c := cl.toNat;
      (s.reachable (8 + c / 8) = true) ∧ (s.clusterStopped c = true) ∧ (1024 < 64 * s.fld F.CLU_CTL.SLOTS c * (v.toNat % 32)))
    ∧ (let s : State := (fl [(F.CLU_CREDIT_STAT.INFLIGHT,3,4),(F.CLU_CTL.SLOTS,3,4)] s0);
      let cl : BitVec 6 := 3;
      let v : BitVec 32 := 4;
      let c := cl.toNat;
      (s.reachable (8 + c / 8) = true) ∧ (s.clusterStopped c = true) ∧ (64 * s.fld F.CLU_CTL.SLOTS c * (v.toNat % 32) ≤ 1024) ∧ (0 < s.fld F.CLU_CREDIT_STAT.INFLIGHT c)) := ⟨by decide +kernel,
      by decide +kernel,
      by decide +kernel,
      by decide +kernel,
      by decide +kernel,
      by decide +kernel,
      by decide +kernel,
      by decide +kernel,
      by decide +kernel,
      by decide +kernel⟩

theorem witness_Clusters_ClusterRegisters_2 :
    (let s : State := (fl [(F.HDW_BOOT_STAT.FENCED,0,256)] s0);
      let cl : BitVec 6 := 3;
      let c := cl.toNat;
      (s.reachable (8 + c / 8) = false)) := by decide +kernel

theorem witness_Clusters_ClusterBuffers :
    (let s : State := (bufs [(0x3FE000, none)] sb);
      let cl : BitVec 6 := 3;
      let c := cl.toNat;
      let n := s.fld F.CLU_BUF_CTL.COUNT c;
      let pool := fun (u : State) => u.fld F.CLU_BUF_STAT.POOL c;
      let used := fun (u : State) => u.fld F.CLU_BUF_STAT.ALLOCATED c;
      let free := fun k => ∀ e ∈ s.bufList c, e.1 ≠ 0x400000 - n * 0x800 + k * 0x800;
      (s.reachable (8 + c / 8) = true) ∧ (s.fld F.CLU_BUF_CTL.POOL_EN c = 1) ∧ (0 < pool s) ∧ (used s < 2047) ∧ (∃ k < n, free k))
    ∧ (let s : State := (bufs [(0x3FE000, none)] sb);
      let cl : BitVec 6 := 3;
      let v : BitVec 32 := 0x3FE000;
      let c := cl.toNat;
      let pool := fun (u : State) => u.fld F.CLU_BUF_STAT.POOL c;
      let used := fun (u : State) => u.fld F.CLU_BUF_STAT.ALLOCATED c;
      (s.reachable (8 + c / 8) = true) ∧ (∀ e ∈ s.eng.thr, e.2.gbufs = []) ∧ (s.bufList c = [(v.toNat, none)]) ∧ (0 < used s) ∧ (pool s < 2047))
    ∧ (let s : State := (bufs [(0x3FE000, none)] sb);
      let cl : BitVec 6 := 3;
      let v : BitVec 32 := 0x3FE800;
      let c := cl.toNat;
      (s.reachable (8 + c / 8) = true) ∧ (∀ e ∈ s.eng.thr, e.2.gbufs = []) ∧ (∀ e ∈ s.bufList c, e.1 ≠ v.toNat))
    ∧ (let s : State := (bufs [(0x3FE000, none)] Z);
      let cl : BitVec 6 := 3;
      let c := cl.toNat;
      let pool := fun (u : State) => u.fld F.CLU_BUF_STAT.POOL c;
      (s.reachable (8 + c / 8) = true) ∧ (pool s = 0))
    ∧ (let s : State := ((bufs [(0x3FE000, some 1536)] sb).setThread 1536 {Z.thread 0 with gbufs := [0x3FE000]});
      let c : Nat := 3;
      let th : Nat := 1536;
      let v : BitVec 32 := 0x3FE000;
      (s.reachable (8 + c / 8) = true) ∧ (th / 512 = c) ∧ (s.eng.thr = [(th, s.thread th)]) ∧ (v.toNat ∈ (s.thread th).gbufs) ∧ ((s.thread th).gfree = [])) := ⟨by decide +kernel,
      by decide +kernel,
      by decide +kernel,
      by decide +kernel,
      ⟨by decide +kernel, by decide +kernel, by decide +kernel, by decide +kernel, by decide +kernel⟩⟩

theorem witness_Coherence_CoherenceRequests_1 :
    (let s : State := (hb.putHbm {Z.hbm with acks := [(5,77), (1,2)], home := [(77,{txn := none, wait := [(5,.rds), (2,.rdo)]})]});
      let line : BitVec 31 := 77;
      let n := line.toNat;
      (s.dirOf n = .uncached))
    ∧ (let s : State := (hb.putHbm {Z.hbm with acks := [(5,77), (1,2)], home := [(77,{txn := none, wait := [(5,.rds), (2,.rdo)]})]});
      let b : BitVec 3 := 5;
      let line : BitVec 31 := 77;
      let n := line.toNat;
      ((s.homeLine n).txn = none) ∧ (∃ r ∈ (s.homeLine n).wait.head?.toList, r.1 = b))
    ∧ (let s : State := (hb.putHbm {Z.hbm with acks := [(5,77), (1,2)], home := [(77,{txn := none, wait := [(5,.rds), (2,.rdo)]})]});
      let b : BitVec 3 := 5;
      let line : BitVec 31 := 77;
      let n := line.toNat;
      (s.hbm.acks.head? = some (b.toNat, n)))
    ∧ (let s : State := ((hb.setDir 77 (.shared 0xB4)).setLine 2 77 .s);
      let line : BitVec 31 := 77;
      let m : BitVec 8 := 0xB4;
      let n := line.toNat;
      (s.dirOf n = .shared m))
    ∧ (let s : State := ((hb.setDir 77 (.shared 0xB4)).setLine 2 77 .s);
      let b : BitVec 3 := 2;
      let line : BitVec 31 := 77;
      let m : BitVec 8 := 0xB4;
      let n := line.toNat;
      let st := fun (u : State) (x : Nat) => u.lineSt x n;
      (s.dirOf n = .shared m) ∧ (st s b.toNat = .s))
    ∧ (let s : State := ((hb.setDir 77 (.shared 0xB4)).setLine 2 77 .s);
      let b : BitVec 3 := 2;
      let line : BitVec 31 := 77;
      let n := line.toNat;
      let st := fun (u : State) (x : Nat) => u.lineSt x n;
      (st s b.toNat = .s ∨ st s b.toNat = .e))
    ∧ (let s : State := (fl [(F.HBM_HOME_STATUS.PRIO, homeBank 77, 2)] hb);
      let b : BitVec 3 := 2;
      let line : BitVec 31 := 77;
      let n := line.toNat;
      let idle := fun (u : State) => u.homeLine n = { txn := none, wait := [] };
      let mayAsk := fun (b : BitVec 3) => s.reachable (8 + b.toNat) = true ∧ s.homeOut (homeBank n) b.toNat < 128;
      (∃ c ∈ [(0 : BitVec 3), 1, 2, 3, 4, 5, 6, 7], c ≠ b ∧ mayAsk c) ∧ (s.dirOf n = .uncached) ∧ (s.hbmMapped = true) ∧ (n < 0x60000000) ∧ (s.homesUp (n * 64) 64 = true) ∧ (mayAsk b) ∧ (idle s) ∧ (s.fld F.HBM_HOME_STATUS.PRIO (homeBank n) = b.toNat))
    ∧ (let s : State := (hb.putHbm {Z.hbm with home := [(64, {txn := none, wait := List.replicate 128 (2,.rdo)})]});
      let b : BitVec 3 := 2;
      let line : BitVec 31 := 77;
      let n := line.toNat;
      (s.homeOut (homeBank n) b.toNat = 128))
    ∧ (let s : State := ((hb.setDir 77 (.shared 0xB4)));
      let b : BitVec 3 := 2;
      let line : BitVec 31 := 77;
      let m : BitVec 8 := 0xB4;
      let n := line.toNat;
      let st := fun (u : State) (x : Nat) => u.lineSt x n;
      (s.dirOf n = .shared m) ∧ (st s b.toNat ≠ .s))
    ∧ (let s : State := ((hb.setDir 77 (.owned 5)).setLine 5 77 .m);
      let b : BitVec 3 := 5;
      let line : BitVec 31 := 77;
      let m : BitVec 8 := 0xB4;
      let n := line.toNat;
      let st := fun (u : State) (x : Nat) => u.lineSt x n;
      (st s b.toNat = .m) ∧ (s.dirOf n = .owned b)) := ⟨by decide +kernel,
      by decide +kernel,
      by decide +kernel,
      by decide +kernel,
      by decide +kernel,
      by decide +kernel,
      by decide +kernel,
      by decide +kernel,
      by decide +kernel,
      by decide +kernel⟩

theorem witness_Coherence_CoherenceRequests_2 :
    (let s : State := ((hb.setDir 77 (.owned 5)).setLine 5 77 .m);
      let o : BitVec 3 := 5;
      let b : BitVec 3 := 2;
      (s.dirOf 77 = .owned o) ∧ (o ≠ b)) := by decide +kernel

theorem witness_Coherence_CoherenceAnswers :
    (let s : State := (hc tt);
      let b : BitVec 3 := 5;
      let line : BitVec 31 := 77;
      let t : HomeTxn := tt;
      let w : List (BitVec 3 × CohReq) := [(2,.rdo)];
      let n := line.toNat;
      (s.homeLine n = { txn := some t, wait := w }) ∧ (t.board = b) ∧ (t.await = 0) ∧ ((s.boardLines b.toNat).length < 262144) ∧ (t.req = .rds))
    ∧ (let s : State := (hc {tt with req := .rdo});
      let b : BitVec 3 := 5;
      let line : BitVec 31 := 77;
      let t : HomeTxn := {tt with req := .rdo};
      let w : List (BitVec 3 × CohReq) := [(2,.rdo)];
      let n := line.toNat;
      (s.homeLine n = { txn := some t, wait := w }) ∧ (t.board = b) ∧ (t.await = 0) ∧ ((s.boardLines b.toNat).length < 262144) ∧ (t.req = .rdo))
    ∧ (let s : State := (hc {tt with req := .upg});
      let b : BitVec 3 := 5;
      let line : BitVec 31 := 77;
      let t : HomeTxn := {tt with req := .upg};
      let w : List (BitVec 3 × CohReq) := [(2,.rdo)];
      let n := line.toNat;
      (s.homeLine n = { txn := some t, wait := w }) ∧ (t.board = b) ∧ (t.await = 0) ∧ ((s.boardLines b.toNat).length < 262144) ∧ (t.req = .upg))
    ∧ (let s : State := (hc {tt with send := 6, await := 6});
      let b : BitVec 3 := 2;
      let line : BitVec 31 := 77;
      let t : HomeTxn := {tt with send := 6, await := 6};
      let w : List (BitVec 3 × CohReq) := [(2,.rdo)];
      let n := line.toNat;
      (s.homeLine n = { txn := some t, wait := w }) ∧ (t.send.getLsbD b.toNat = true) ∧ (t.fetch = false))
    ∧ (let s : State := (hc {tt with send := 6, await := 6, fetch := true});
      let b : BitVec 3 := 2;
      let line : BitVec 31 := 77;
      let t : HomeTxn := {tt with send := 6, await := 6, fetch := true};
      let w : List (BitVec 3 × CohReq) := [(2,.rdo)];
      let n := line.toNat;
      (s.homeLine n = { txn := some t, wait := w }) ∧ (t.send.getLsbD b.toNat = true) ∧ (t.fetch = true))
    ∧ (let s : State := ((hc {tt with send := 2, await := 6}).setLine 2 77 .s);
      let b : BitVec 3 := 2;
      let line : BitVec 31 := 77;
      let t : HomeTxn := {tt with send := 2, await := 6};
      let w : List (BitVec 3 × CohReq) := [(2,.rdo)];
      let n := line.toNat;
      (s.homeLine n = { txn := some t, wait := w }) ∧ (t.await.getLsbD b.toNat = true) ∧ (t.send.getLsbD b.toNat = false) ∧ (s.dueOf b.toNat n = 0) ∧ (t.fetch = false))
    ∧ (let s : State := (((hc {tt with send := 0, await := 4, fetch := true}).setLine 2 77 .m).setDir 77 (.owned 2));
      let b : BitVec 3 := 2;
      let line : BitVec 31 := 77;
      let t : HomeTxn := {tt with send := 0, await := 4, fetch := true};
      let w : List (BitVec 3 × CohReq) := [(2,.rdo)];
      let n := line.toNat;
      let st := fun (u : State) (x : Nat) => u.lineSt x n;
      (s.homeLine n = { txn := some t, wait := w }) ∧ (t.await.getLsbD b.toNat = true) ∧ (t.send.getLsbD b.toNat = false) ∧ (s.dueOf b.toNat n = 0) ∧ (t.fetch = true) ∧ (t.req = .rds) ∧ (st s b.toNat ≠ .i))
    ∧ (let s : State := (((hc {tt with req := .rdo, send := 0, await := 4, fetch := true}).setLine 2 77 .m).setDir 77 (.owned 2));
      let b : BitVec 3 := 2;
      let line : BitVec 31 := 77;
      let t : HomeTxn := {tt with req := .rdo, send := 0, await := 4, fetch := true};
      let w : List (BitVec 3 × CohReq) := [(2,.rdo)];
      let n := line.toNat;
      let st := fun (u : State) (x : Nat) => u.lineSt x n;
      (s.homeLine n = { txn := some t, wait := w }) ∧ (t.await.getLsbD b.toNat = true) ∧ (t.send.getLsbD b.toNat = false) ∧ (s.dueOf b.toNat n = 0) ∧ (t.fetch = true) ∧ (t.req ≠ .rds) ∧ (st s b.toNat ≠ .i))
    ∧ (let s : State := (hc {tt with req := .rdo, send := 0, await := 4, fetch := true});
      let b : BitVec 3 := 2;
      let line : BitVec 31 := 77;
      let t : HomeTxn := {tt with req := .rdo, send := 0, await := 4, fetch := true};
      let w : List (BitVec 3 × CohReq) := [(2,.rdo)];
      let n := line.toNat;
      let st := fun (u : State) (x : Nat) => u.lineSt x n;
      (s.homeLine n = { txn := some t, wait := w }) ∧ (t.await.getLsbD b.toNat = true) ∧ (t.send.getLsbD b.toNat = false) ∧ (s.dueOf b.toNat n = 0) ∧ (t.fetch = true) ∧ (st s b.toNat = .i))
    ∧ (let s : State := ((hc {tt with send := 2, await := 6}).setDue 2 77 1);
      let b : BitVec 3 := 2;
      let line : BitVec 31 := 77;
      let t : HomeTxn := {tt with send := 2, await := 6};
      let w : List (BitVec 3 × CohReq) := [(2,.rdo)];
      let n := line.toNat;
      (s.homeLine n = { txn := some t, wait := w }) ∧ (t.await.getLsbD b.toNat = true) ∧ (t.send.getLsbD b.toNat = false) ∧ (s.dueOf b.toNat n ≠ 0) ∧ (t.fetch = false)) := ⟨by decide +kernel,
      by decide +kernel,
      by decide +kernel,
      by decide +kernel,
      by decide +kernel,
      by decide +kernel,
      by decide +kernel,
      by decide +kernel,
      by decide +kernel,
      by decide +kernel⟩

theorem witness_Coherence_PoisonAndFlush :
    (let s : State := (fl [(F.BRD_SSC_CTL.FLUSH,2,1)] ((((hb).setLine 2 77 .m).setDir 77 (.owned 2)).setLine 3 78 .s));
      let b : BitVec 3 := 2;
      let line : BitVec 31 := 77;
      (s.lineSt b.toNat line.toNat = .m))
    ∧ (let s : State := (fl [(F.BRD_SSC_CTL.FLUSH,2,1)] ((((hb).setLine 2 77 .m).setDir 77 (.owned 2)).setLine 3 78 .s));
      let b : BitVec 3 := 2;
      (s.reachable (8 + b.toNat) = true))
    ∧ (let s : State := (fl [(F.BRD_SSC_CTL.FLUSH,2,1)] ((((hb).setLine 2 77 .m).setDir 77 (.owned 2)).setLine 3 78 .s));
      let b : BitVec 3 := 2;
      (s.fld F.BRD_SSC_CTL.FLUSH b.toNat = 1)) := ⟨by decide +kernel,
      by decide +kernel,
      by decide +kernel⟩

end Sys2Proof.Tests.W04a

namespace Sys2Proof.Tests.W05
open Sys2Proof Sys2Proof.Machine Sys2Proof.Tests
set_option Elab.async false

def sm (mi : Nat) (mw : BitVec 24) (n : BitVec 128) (f : Thread → Thread := id) (mt : Tbl Word := []) : State :=
  let s := rn (fun t => f {t with g := regs1, pc := 0x100, upc := BitVec.ofNat 13 mi, instr := some (0x100, 0x01220800)})
  s.putMicro {s.micro with store := [(0, mst mi mw n mt)]}

def mc1 : MicroCode := {Z.micro.master with patchId := 77, patch := 3, words := {micro := [(5,9)], nano := [], mtch := []}}

def f41 : Firing := {f0 with arg := 1}

theorem witness_MicroSequencer_1 :
    (let s : State := (sm 100 0x00C123 (nn 0 0 0 0));
      let e : Nat := 1;
      let mw : BitVec 24 := 0x00C123;
      let n : BitVec 128 := (nn 0 0 0 0);
      let w : Word := 0x01220800;
      let th := e * 8 + Tbl.get (fun _ => 0) s.eng.cur e % 8;
      let t := s.thread th;
      let m := s.mcStore (th / 512);
      let seq := n.toNat / 2 ^ 124;
      let quiet := n.toNat / 2 ^ 50 % 2 ^ 8 = 0 ∧ n.toNat / 2 ^ 76 % 2 ^ 5 = 0;
      (Runs s th) ∧ (th < 32768) ∧ (t.instr = some (t.pc, w)) ∧ (n.toNat / 2 ^ 66 % 2 = 0) ∧ (Tbl.get (fun _ => 0) m.nano (mw.toNat / 2 ^ 14) = n) ∧ (m.mtch = []) ∧ (Tbl.get (fun _ => 0) m.micro t.upc.toNat = mw) ∧ (seq = 0) ∧ (quiet))
    ∧ (let s : State := (sm 100 0x00C123 (nn 1 0 0 0));
      let e : Nat := 1;
      let mw : BitVec 24 := 0x00C123;
      let n : BitVec 128 := (nn 1 0 0 0);
      let w : Word := 0x01220800;
      let th := e * 8 + Tbl.get (fun _ => 0) s.eng.cur e % 8;
      let t := s.thread th;
      let m := s.mcStore (th / 512);
      let seq := n.toNat / 2 ^ 124;
      let quiet := n.toNat / 2 ^ 50 % 2 ^ 8 = 0 ∧ n.toNat / 2 ^ 76 % 2 ^ 5 = 0;
      (Runs s th) ∧ (th < 32768) ∧ (t.instr = some (t.pc, w)) ∧ (n.toNat / 2 ^ 66 % 2 = 0) ∧ (Tbl.get (fun _ => 0) m.nano (mw.toNat / 2 ^ 14) = n) ∧ (m.mtch = []) ∧ (Tbl.get (fun _ => 0) m.micro t.upc.toNat = mw) ∧ (seq = 1) ∧ (quiet) ∧ (n.toNat / 2 ^ 101 % 8 = 0))
    ∧ (let s : State := (sm 100 0x00C122 (nn 1 1 1 0));
      let e : Nat := 1;
      let mw : BitVec 24 := 0x00C122;
      let n : BitVec 128 := (nn 1 1 1 0);
      let w : Word := 0x01220800;
      let th := e * 8 + Tbl.get (fun _ => 0) s.eng.cur e % 8;
      let t := s.thread th;
      let m := s.mcStore (th / 512);
      let seq := n.toNat / 2 ^ 124;
      let quiet := n.toNat / 2 ^ 50 % 2 ^ 8 = 0 ∧ n.toNat / 2 ^ 76 % 2 ^ 5 = 0;
      (Runs s th) ∧ (th < 32768) ∧ (t.instr = some (t.pc, w)) ∧ (n.toNat / 2 ^ 66 % 2 = 0) ∧ (Tbl.get (fun _ => 0) m.nano (mw.toNat / 2 ^ 14) = n) ∧ (m.mtch = []) ∧ (Tbl.get (fun _ => 0) m.micro t.upc.toNat = mw) ∧ (seq = 1) ∧ (quiet) ∧ (n.toNat / 2 ^ 101 % 8 = 1) ∧ (n.toNat / 2 ^ 119 % 32 = 1) ∧ (mw.toNat / 2 ^ 13 % 2 = 0))
    ∧ (let s : State := (sm 100 0x00C122 (nn 2 1 1 0));
      let e : Nat := 1;
      let mw : BitVec 24 := 0x00C122;
      let n : BitVec 128 := (nn 2 1 1 0);
      let w : Word := 0x01220800;
      let th := e * 8 + Tbl.get (fun _ => 0) s.eng.cur e % 8;
      let t := s.thread th;
      let m := s.mcStore (th / 512);
      let seq := n.toNat / 2 ^ 124;
      let quiet := n.toNat / 2 ^ 50 % 2 ^ 8 = 0 ∧ n.toNat / 2 ^ 76 % 2 ^ 5 = 0;
      (Runs s th) ∧ (th < 32768) ∧ (t.instr = some (t.pc, w)) ∧ (n.toNat / 2 ^ 66 % 2 = 0) ∧ (Tbl.get (fun _ => 0) m.nano (mw.toNat / 2 ^ 14) = n) ∧ (m.mtch = []) ∧ (Tbl.get (fun _ => 0) m.micro t.upc.toNat = mw) ∧ (seq = 2) ∧ (quiet))
    ∧ (let s : State := (sm 100 0x00C122 (nn 3 1 1 0) (fun t => {t with mstack := [7,8]}));
      let e : Nat := 1;
      let mw : BitVec 24 := 0x00C122;
      let n : BitVec 128 := (nn 3 1 1 0);
      let w : Word := 0x01220800;
      let th := e * 8 + Tbl.get (fun _ => 0) s.eng.cur e % 8;
      let t := s.thread th;
      let m := s.mcStore (th / 512);
      let seq := n.toNat / 2 ^ 124;
      let quiet := n.toNat / 2 ^ 50 % 2 ^ 8 = 0 ∧ n.toNat / 2 ^ 76 % 2 ^ 5 = 0;
      (Runs s th) ∧ (th < 32768) ∧ (t.instr = some (t.pc, w)) ∧ (n.toNat / 2 ^ 66 % 2 = 0) ∧ (Tbl.get (fun _ => 0) m.nano (mw.toNat / 2 ^ 14) = n) ∧ (m.mtch = []) ∧ (Tbl.get (fun _ => 0) m.micro t.upc.toNat = mw) ∧ (seq = 3) ∧ (t.mstack ≠ []) ∧ (quiet))
    ∧ (let s : State := (sm 100 0x00C122 (nn 4 1 1 0) (fun t => {t with mstack := [7,8]}));
      let e : Nat := 1;
      let mw : BitVec 24 := 0x00C122;
      let n : BitVec 128 := (nn 4 1 1 0);
      let w : Word := 0x01220800;
      let rd : BitVec 5 := 9;
      let rs1 : BitVec 5 := 2;
      let rs2 : BitVec 5 := 1;
      let th := e * 8 + Tbl.get (fun _ => 0) s.eng.cur e % 8;
      let t := s.thread th;
      let m := s.mcStore (th / 512);
      let seq := n.toNat / 2 ^ 124;
      let quiet := n.toNat / 2 ^ 50 % 2 ^ 8 = 0 ∧ n.toNat / 2 ^ 76 % 2 ^ 5 = 0;
      let add := w.toNat = rd.toNat * 2 ^ 21 + rs1.toNat * 2 ^ 16 + rs2.toNat * 2 ^ 11;
      (Runs s th) ∧ (th < 32768) ∧ (t.instr = some (t.pc, w)) ∧ (n.toNat / 2 ^ 66 % 2 = 0) ∧ (Tbl.get (fun _ => 0) m.nano (mw.toNat / 2 ^ 14) = n) ∧ (m.mtch = []) ∧ (Tbl.get (fun _ => 0) m.micro t.upc.toNat = mw) ∧ (seq = 4 ∨ seq < 6 ∧ ¬quiet) ∧ (add))
    ∧ (let s : State := (sm 100 0x00C122 (nn 4 1 1 0) (fun t => {t with mstack := [7,8], instr := some (0x100, 0xFFFFFFFF)}));
      let e : Nat := 1;
      let mw : BitVec 24 := 0x00C122;
      let n : BitVec 128 := (nn 4 1 1 0);
      let w : Word := 0xFFFFFFFF;
      let th := e * 8 + Tbl.get (fun _ => 0) s.eng.cur e % 8;
      let t := s.thread th;
      let m := s.mcStore (th / 512);
      let seq := n.toNat / 2 ^ 124;
      (Runs s th) ∧ (th < 32768) ∧ (t.instr = some (t.pc, w)) ∧ (n.toNat / 2 ^ 66 % 2 = 0) ∧ (Tbl.get (fun _ => 0) m.nano (mw.toNat / 2 ^ 14) = n) ∧ (m.mtch = []) ∧ (Tbl.get (fun _ => 0) m.micro t.upc.toNat = mw) ∧ (seq = 4) ∧ (runWord th w = none))
    ∧ (let s : State := (sm 100 0x00C122 (nn 5 1 1 0));
      let e : Nat := 1;
      let mw : BitVec 24 := 0x00C122;
      let n : BitVec 128 := (nn 5 1 1 0);
      let w : Word := 0x01220800;
      let th := e * 8 + Tbl.get (fun _ => 0) s.eng.cur e % 8;
      let t := s.thread th;
      let m := s.mcStore (th / 512);
      let seq := n.toNat / 2 ^ 124;
      let quiet := n.toNat / 2 ^ 50 % 2 ^ 8 = 0 ∧ n.toNat / 2 ^ 76 % 2 ^ 5 = 0;
      (Runs s th) ∧ (th < 32768) ∧ (t.instr = some (t.pc, w)) ∧ (n.toNat / 2 ^ 66 % 2 = 0) ∧ (Tbl.get (fun _ => 0) m.nano (mw.toNat / 2 ^ 14) = n) ∧ (m.mtch = []) ∧ (Tbl.get (fun _ => 0) m.micro t.upc.toNat = mw) ∧ (seq = 5) ∧ (quiet) ∧ (n.toNat / 2 ^ 119 % 32 = 1) ∧ (mw.toNat / 2 ^ 13 % 2 = 0))
    ∧ (let s : State := (sm 100 0x00C122 (nn 5 1 0 0));
      let e : Nat := 1;
      let mw : BitVec 24 := 0x00C122;
      let n : BitVec 128 := (nn 5 1 0 0);
      let w : Word := 0x01220800;
      let th := e * 8 + Tbl.get (fun _ => 0) s.eng.cur e % 8;
      let t := s.thread th;
      let m := s.mcStore (th / 512);
      let seq := n.toNat / 2 ^ 124;
      let quiet := n.toNat / 2 ^ 50 % 2 ^ 8 = 0 ∧ n.toNat / 2 ^ 76 % 2 ^ 5 = 0;
      (Runs s th) ∧ (th < 32768) ∧ (t.instr = some (t.pc, w)) ∧ (n.toNat / 2 ^ 66 % 2 = 0) ∧ (Tbl.get (fun _ => 0) m.nano (mw.toNat / 2 ^ 14) = n) ∧ (m.mtch = []) ∧ (Tbl.get (fun _ => 0) m.micro t.upc.toNat = mw) ∧ (seq = 5) ∧ (quiet) ∧ (n.toNat / 2 ^ 119 % 32 = 0) ∧ (mw.toNat / 2 ^ 13 % 2 = 0) ∧ (n.toNat / 2 ^ 67 % 16 = 0))
    ∧ (let s : State := ((sm 0 0x00C122 (nn 4 1 0 0) (fun t => {t with instr := none})).putEng {(sm 0 0x00C122 (nn 4 1 0 0) (fun t => {t with instr := none})).eng with pstore := [(0x40, 0x01220800)]});
      let e : Nat := 1;
      let mw : BitVec 24 := 0x00C122;
      let n : BitVec 128 := (nn 4 1 0 0);
      let w : Word := 0x01220800;
      let rd : BitVec 5 := 9;
      let rs1 : BitVec 5 := 2;
      let rs2 : BitVec 5 := 1;
      let th := e * 8 + Tbl.get (fun _ => 0) s.eng.cur e % 8;
      let t := s.thread th;
      let m := s.mcStore (th / 512);
      let seq := n.toNat / 2 ^ 124;
      let add := w.toNat = rd.toNat * 2 ^ 21 + rs1.toNat * 2 ^ 16 + rs2.toNat * 2 ^ 11;
      (Runs s th) ∧ (th < 32768) ∧ (t.instr = none) ∧ (s.plat.ecc = []) ∧ (s.progWord (th / 512) (t.pc.toNat / 4) = w) ∧ (add) ∧ (m.mtch = []) ∧ (Tbl.get (fun _ => 0) m.micro 0 = mw) ∧ (Tbl.get (fun _ => 0) m.nano (mw.toNat / 2 ^ 14) = n) ∧ (n.toNat / 2 ^ 66 % 2 = 0) ∧ (seq = 4)) := ⟨by decide +kernel,
      by decide +kernel,
      by decide +kernel,
      by decide +kernel,
      by decide +kernel,
      by decide +kernel,
      by decide +kernel,
      by decide +kernel,
      by decide +kernel,
      by decide +kernel⟩

theorem witness_MicroSequencer_2 :
    (let s : State := ((rn (fun t => {t with g := regs1, pc := 0x100, instr := some (0x100, 0x01220800)}) 32768));
      let e : Nat := 4096;
      let w : Word := 0x01220800;
      let rd : BitVec 5 := 9;
      let rs1 : BitVec 5 := 2;
      let rs2 : BitVec 5 := 1;
      let th := e * 8 + Tbl.get (fun _ => 0) s.eng.cur e % 8;
      let t := s.thread th;
      let add := w.toNat = rd.toNat * 2 ^ 21 + rs1.toNat * 2 ^ 16 + rs2.toNat * 2 ^ 11;
      (Runs s th) ∧ (32768 ≤ th) ∧ (t.instr = some (t.pc, w)) ∧ (add))
    ∧ (let s : State := (sm 100 0x00C122 (nn 5 1 0 0 + 3 * 2^67));
      let e : Nat := 1;
      let mw : BitVec 24 := 0x00C122;
      let n : BitVec 128 := (nn 5 1 0 0 + 3 * 2^67);
      let w : Word := 0x01220800;
      let th := e * 8 + Tbl.get (fun _ => 0) s.eng.cur e % 8;
      let t := s.thread th;
      let m := s.mcStore (th / 512);
      let seq := n.toNat / 2 ^ 124;
      let quiet := n.toNat / 2 ^ 50 % 2 ^ 8 = 0 ∧ n.toNat / 2 ^ 76 % 2 ^ 5 = 0;
      (Runs s th) ∧ (th < 32768) ∧ (t.instr = some (t.pc, w)) ∧ (n.toNat / 2 ^ 66 % 2 = 0) ∧ (Tbl.get (fun _ => 0) m.nano (mw.toNat / 2 ^ 14) = n) ∧ (m.mtch = []) ∧ (Tbl.get (fun _ => 0) m.micro t.upc.toNat = mw) ∧ (seq = 5) ∧ (quiet) ∧ (n.toNat / 2 ^ 119 % 32 = 0) ∧ (mw.toNat / 2 ^ 13 % 2 = 0) ∧ (n.toNat / 2 ^ 67 % 16 ≠ 0))
    ∧ (let s : State := (sm 100 0x00C122 (nn 0 1 1 0 + 2^66 + 9 * 2^62));
      let e : Nat := 1;
      let mw : BitVec 24 := 0x00C122;
      let n : BitVec 128 := (nn 0 1 1 0 + 2^66 + 9 * 2^62);
      let w : Word := 0x01220800;
      let th := e * 8 + Tbl.get (fun _ => 0) s.eng.cur e % 8;
      let t := s.thread th;
      let m := s.mcStore (th / 512);
      (Runs s th) ∧ (th < 32768) ∧ (t.instr = some (t.pc, w)) ∧ (m.mtch = []) ∧ (Tbl.get (fun _ => 0) m.micro t.upc.toNat = mw) ∧ (Tbl.get (fun _ => 0) m.nano (mw.toNat / 2 ^ 14) = n) ∧ (n.toNat / 2 ^ 66 % 2 = 1) ∧ (n.toNat / 2 ^ 119 % 32 = 1) ∧ (mw.toNat / 2 ^ 13 % 2 = 0))
    ∧ (let s : State := (let s := sm 0x1C10 0x00C123 (nn 0 0 0 0) id [(5, 0x80000000 + 0x1C10 * 0x2000 + 100)]; s.setThread 8 {s.thread 8 with upc := 100});
      let e : Nat := 1;
      let mw : BitVec 24 := 0x00C123;
      let n : BitVec 128 := (nn 0 0 0 0);
      let w : Word := 0x01220800;
      let k : Nat := 5;
      let x : Nat := 0x1C10;
      let th := e * 8 + Tbl.get (fun _ => 0) s.eng.cur e % 8;
      let t := s.thread th;
      let m := s.mcStore (th / 512);
      (Runs s th) ∧ (th < 32768) ∧ (t.instr = some (t.pc, w)) ∧ (n.toNat / 2 ^ 66 % 2 = 0)
        ∧ (Tbl.get (fun _ => 0) m.nano (mw.toNat / 2 ^ 14) = n) ∧ (k < 64) ∧ (t.upc.toNat < 0x1C00) ∧ (0x1C00 ≤ x) ∧ (x < 0x2000)
        ∧ (m.mtch = [(k, BitVec.ofNat 32 (2 ^ 31 + x * 2 ^ 13 + t.upc.toNat))]) ∧ (Tbl.get (fun _ => 0) m.micro x = mw)
        ∧ (n.toNat / 2 ^ 124 = 0) ∧ (n.toNat / 2 ^ 50 % 2 ^ 8 = 0 ∧ n.toNat / 2 ^ 76 % 2 ^ 5 = 0)) := ⟨by decide +kernel,
      by decide +kernel,
      by decide +kernel,
      ⟨by decide +kernel, by decide +kernel, by decide +kernel, by decide +kernel, by decide +kernel, by decide +kernel, by decide +kernel, by decide +kernel, by decide +kernel, by decide +kernel, by decide +kernel, by decide +kernel, by decide +kernel⟩⟩

theorem witness_Microcode_MicrocodeImages :
    (let s : State := (fl [(F.HDW_MC_STATUS.STATE,0,2)] (Z.putMicro {Z.micro with image := some mc1}));
      (s.reachable 0 = true))
    ∧ (let s : State := (fl [(F.HDW_MC_STATUS.STATE,0,2)] (Z.putMicro {Z.micro with image := some mc1}));
      let st := fun (u : State) => u.fld F.HDW_MC_STATUS.STATE 0;
      (s.reachable 0 = true) ∧ (st s ≠ 1) ∧ (st s ≠ 3))
    ∧ (let s : State := (fl [(F.HDW_MC_STATUS.STATE,0,2)] (Z.putMicro {Z.micro with image := some mc1}));
      let m : MicroCode := mc1;
      let st := fun (u : State) => u.fld F.HDW_MC_STATUS.STATE 0;
      (st s = 2) ∧ (s.micro.image = some m) ∧ ((List.range 8).all (fun b => s.reachable (8 + b)) = true) ∧ (s.reachable 0 = true))
    ∧ (let s : State := (fl [(F.HDW_MC_STATUS.STATE,0,1)]);
      let r : Nat := imgVerdict s.micro.master s.staged_;
      let st := fun (u : State) => u.fld F.HDW_MC_STATUS.STATE 0;
      (s.reachable 0 = true) ∧ (st s = 1) ∧ (s.fld F.HDW_MC_LEN.BYTES 0 ≤ 16384) ∧ (imgVerdict s.micro.master s.staged_ = r))
    ∧ (let s : State := (fl [(F.HDW_MC_STATUS.STATE,0,1),(F.HDW_MC_LEN.BYTES,0,16385)]);
      let st := fun (u : State) => u.fld F.HDW_MC_STATUS.STATE 0;
      (s.reachable 0 = true) ∧ (st s = 1) ∧ (16384 < s.fld F.HDW_MC_LEN.BYTES 0)) := ⟨by decide +kernel,
      by decide +kernel,
      by decide +kernel,
      ⟨by decide +kernel, by decide +kernel, by decide +kernel, rfl⟩,
      by decide +kernel⟩

theorem witness_Microcode_MicrocodeReloads :
    (let s : State := (fl [(F.HDW_MC_STATUS.STATE,0,3)] (Z.putMicro {Z.micro with master := mc1, tried := List.range 64}));
      let cl : BitVec 6 := 9;
      let c := cl.toNat;
      (s.fld F.MCODE_STATUS.STATE c ≠ 1))
    ∧ (let s : State := (fl [(F.HDW_MC_STATUS.STATE,0,3)] (Z.putMicro {Z.micro with master := mc1, tried := List.range 64}));
      (s.fld F.HDW_MC_STATUS.STATE 0 = 3) ∧ (s.micro.tried.length = 64))
    ∧ (let s : State := (fl [(F.MCODE_STATUS.STATE,9,1)] (Z.putMicro {Z.micro with master := mc1, tried := [3]}));
      let cl : BitVec 6 := 9;
      let k : BitVec 2 := 1;
      let c := cl.toNat;
      (s.fld F.MCODE_STATUS.STATE c = 1) ∧ (s.reachable (8 + c / 8) = true) ∧ (s.cmdsOf c = []) ∧ (c ∉ s.micro.later) ∧ (k.toNat < 2))
    ∧ (let s : State := (fl [(F.MCODE_STATUS.STATE,9,1)] (Z.putMicro {Z.micro with master := mc1, tried := [3]}));
      let cl : BitVec 6 := 9;
      let k : BitVec 2 := 2;
      let c := cl.toNat;
      (s.fld F.MCODE_STATUS.STATE c = 1) ∧ (s.reachable (8 + c / 8) = true) ∧ (s.cmdsOf c = []) ∧ (c ∉ s.micro.later) ∧ (2 ≤ k.toNat))
    ∧ (let s : State := ((Z.putMicro {Z.micro with master := mc1}).putTide {Z.tide with sent := [{ cls := 4, target := 0xFF3F, f := f41, took := [], due := true }]});
      let b : BitVec 3 := 1;
      let f : Firing := f41;
      let x := b.toNat * 8;
      let unit : Unit_ := .microcode (BitVec.ofNat 6 x);
      (f.arg.toNat % 256 = 1) ∧ (f.ford = false) ∧ (s.isFenced (8 + b.toNat) = false) ∧ (s.fld F.MCODE_STATUS.STATE x = 0) ∧ (s.micro.old = none) ∧ (s.fireDue unit 4 f = true) ∧ (s.unitWork unit 4 = { work := none, pend := none })) := ⟨by decide +kernel,
      by decide +kernel,
      by decide +kernel,
      by decide +kernel,
      by decide +kernel⟩

end Sys2Proof.Tests.W05

namespace Sys2Proof.Tests.W06a
open Sys2Proof Sys2Proof.Machine Sys2Proof.Tests
set_option Elab.async false

def k16 : List Byte := (List.range 16).map (fun k => BitVec.ofNat 8 (k+1))

def v16 : List Byte := (List.range 16).map (fun k => BitVec.ofNat 8 (k+101))

def td (s : State := Z) : State := (List.range 8).foldl (fun s b => fl [(F.BRD_DICE_TDEF_W0.VALID, b*4096+5, 1),(F.BRD_DICE_TDEF_W0.KLEN, b*4096+5, 8),(F.BRD_DICE_TDEF_W0.VLEN, b*4096+5, 12),(F.BRD_DICE_TDEF_W0.PARTS, b*4096+5, 0x0C), (F.BRD_DICE_TDEF_W1.LIMIT, b*4096+5, 1)] s) s

def pp : Nat := (td).partOf 1 5 k16

def cm (op : Nat) (arg : Word := 0x12344005) : DiceCmd := {op := op, key := k16, val := v16, arg := arg, visited := []}

def wc (c : DiceCmd) (s : State) : State := s.putLook {s.look with cmd := Tbl.set (fun _ => none) s.look.cmd 3 (some c)} |> fl [(F.DICE_CMD_STAT.BUSY,3,1)]

def ins (s : State := td) (st := false) : State := (s.insertEntry pp (s.newEntry pp 5 k16 v16 st 77) false true).2

def pq (l : List PipeOp) (s : State) : State := s.setPipeQ pp l

def dent : DiceEntry := (td).newEntry pp 5 k16 v16 false 77

def e1 : DiceEntry := {dent with hit := true}

def at_ (b n : Nat) (e : DiceEntry) (s : State := Z) : State := (s.setSlot (slotKey b n 0) (some e))

def ta (s : State := td) : State := fl [(F.BNK_SND_CTL.EN,1,1)] ((List.range 8).foldl (fun s b => fl [(F.BRD_DICE_TDEF_W0.AUDIT, b*4096+5, 1)] s) s)

def rec32 (own : Nat := 77) : List Byte := beBytes 4 own ++ [0,5] ++ k16.take 8 ++ v16.take 12 ++ List.replicate 6 0

def hd16 (gen cnt : Nat) : List Byte := beBytes 4 0x534E4431 ++ beBytes 4 gen ++ beBytes 8 (0x1000 * 2^24 + cnt)

def au : Audit := { table := 5, started := false, gen := 0, off := 0, count := 0, next := 0, flips := 0, changes := [], missing := 0, different := 0, matched := 0, inserted := 0, discard := false }

def as_ : Audit := { au with started := true, gen := 9, off := 0x1000, count := 2, flips := 0x0C, changes := List.replicate 8 0 }

def wa (a : Audit) (s : State) : State := s.setAudit 1 (some a)

theorem witness_Dice_DiceCommands :
    (let s : State := (wc (cm 1) td);
      let b : BitVec 3 := 1;
      let blk : Bool := true;
      let c : DiceCmd := (cm 1);
      let p : Nat := pp;
      let i := b.toNat * 2 + (if blk then 1 else 0);
      let t := c.arg.toNat % 2 ^ 12;
      let found := fun (u : State) => u.findEntry p t (c.key.take (s.klen p t));
      (s.diceCmd i = some c) ∧ (s.tdefValid p t = true) ∧ (s.cmdPipe i = some p ∧ (s.pipeQ p).head? = some (.cmd i)
              ∨ s.cmdPipe i = none ∧ s.pipeQ p = [] ∧ s.diceRoute b.toNat t c.key = .inr p) ∧ (c.op = 1) ∧ (found s = none))
    ∧ (let s : State := (pq [.cmd 5, .cmd 3] (wc (cm 1) td));
      let b : BitVec 3 := 1;
      let blk : Bool := true;
      let c : DiceCmd := (cm 1);
      let p : Nat := pp;
      let i := b.toNat * 2 + (if blk then 1 else 0);
      (s.diceCmd i = some c) ∧ (c.op ≠ 5) ∧ (s.cmdPipe i = some p) ∧ ((s.pipeQ p).head? ≠ some (.cmd i)))
    ∧ (let s : State := (wc (cm 2) td);
      let b : BitVec 3 := 1;
      let blk : Bool := true;
      let c : DiceCmd := (cm 2);
      let p : Nat := pp;
      let i := b.toNat * 2 + (if blk then 1 else 0);
      let t := c.arg.toNat % 2 ^ 12;
      let found := fun (u : State) => u.findEntry p t (c.key.take (s.klen p t));
      let count := fun (u : State) => u.fld F.BRD_DICE_TDEF_W2.COUNT (p * 4096 + t);
      (s.diceCmd i = some c) ∧ (s.tdefValid p t = true) ∧ ((s.cmdPipe i = some p ∧ (s.pipeQ p).head? = some (.cmd i)) ∨ (s.cmdPipe i = none ∧ s.pipeQ p = [] ∧ s.diceRoute b.toNat t c.key = .inr p)) ∧ (c.op = 2 ∨ c.op = 4) ∧ (found s = none) ∧ (count s < 2 ^ 20 - 1) ∧ ((s.emptySlot p (bucket0 t (c.key.take (s.klen p t)))).isSome = true))
    ∧ (let s : State := (wc (cm 3) td);
      let b : BitVec 3 := 1;
      let blk : Bool := true;
      let c : DiceCmd := (cm 3);
      let p : Nat := pp;
      let i := b.toNat * 2 + (if blk then 1 else 0);
      let t := c.arg.toNat % 2 ^ 12;
      let found := fun (u : State) => u.findEntry p t (c.key.take (s.klen p t));
      (s.diceCmd i = some c) ∧ (s.tdefValid p t = true) ∧ (s.cmdPipe i = some p ∧ (s.pipeQ p).head? = some (.cmd i)
              ∨ s.cmdPipe i = none ∧ s.pipeQ p = [] ∧ s.diceRoute b.toNat t c.key = .inr p) ∧ (c.op = 3) ∧ (found s = none))
    ∧ (let s : State := (wc (cm 1) (ins));
      let b : BitVec 3 := 1;
      let blk : Bool := true;
      let c : DiceCmd := (cm 1);
      let p : Nat := pp;
      let i := b.toNat * 2 + (if blk then 1 else 0);
      let t := c.arg.toNat % 2 ^ 12;
      let found := fun (u : State) => u.findEntry p t (c.key.take (s.klen p t));
      (s.diceCmd i = some c) ∧ (s.tdefValid p t = true) ∧ ((s.cmdPipe i = some p ∧ (s.pipeQ p).head? = some (.cmd i)) ∨ (s.cmdPipe i = none ∧ s.pipeQ p = [] ∧ s.diceRoute b.toNat t c.key = .inr p)) ∧ (c.op = 1) ∧ ((found s).isSome = true))
    ∧ (let s : State := (wc (cm 2) (ins));
      let b : BitVec 3 := 1;
      let blk : Bool := true;
      let c : DiceCmd := (cm 2);
      let p : Nat := pp;
      let i := b.toNat * 2 + (if blk then 1 else 0);
      let t := c.arg.toNat % 2 ^ 12;
      let found := fun (u : State) => u.findEntry p t (c.key.take (s.klen p t));
      (s.diceCmd i = some c) ∧ (s.tdefValid p t = true) ∧ ((s.cmdPipe i = some p ∧ (s.pipeQ p).head? = some (.cmd i)) ∨ (s.cmdPipe i = none ∧ s.pipeQ p = [] ∧ s.diceRoute b.toNat t c.key = .inr p)) ∧ (c.op = 2) ∧ ((found s).isSome = true))
    ∧ (let s : State := (wc (cm 3) (ins));
      let b : BitVec 3 := 1;
      let blk : Bool := true;
      let c : DiceCmd := (cm 3);
      let p : Nat := pp;
      let i := b.toNat * 2 + (if blk then 1 else 0);
      let t := c.arg.toNat % 2 ^ 12;
      let found := fun (u : State) => u.findEntry p t (c.key.take (s.klen p t));
      let count := fun (u : State) => u.fld F.BRD_DICE_TDEF_W2.COUNT (p * 4096 + t);
      (s.diceCmd i = some c) ∧ (s.tdefValid p t = true) ∧ ((s.cmdPipe i = some p ∧ (s.pipeQ p).head? = some (.cmd i)) ∨ (s.cmdPipe i = none ∧ s.pipeQ p = [] ∧ s.diceRoute b.toNat t c.key = .inr p)) ∧ (c.op = 3) ∧ ((match found s with | some (.slot _, _) => true | _ => false) = true) ∧ (∀ x < 8, s.barAt (p * 8 + x) = none) ∧ (0 < count s))
    ∧ (let s : State := (wc (cm 4) (ins td true));
      let b : BitVec 3 := 1;
      let blk : Bool := true;
      let c : DiceCmd := (cm 4);
      let p : Nat := pp;
      let i := b.toNat * 2 + (if blk then 1 else 0);
      let t := c.arg.toNat % 2 ^ 12;
      let found := fun (u : State) => u.findEntry p t (c.key.take (s.klen p t));
      (s.diceCmd i = some c) ∧ (s.tdefValid p t = true) ∧ ((s.cmdPipe i = some p ∧ (s.pipeQ p).head? = some (.cmd i)) ∨ (s.cmdPipe i = none ∧ s.pipeQ p = [] ∧ s.diceRoute b.toNat t c.key = .inr p)) ∧ (c.op = 4) ∧ ((match found s with | some (.slot _, _) => true | _ => false) = true))
    ∧ (let s : State := (wc (cm 4) (Z));
      let b : BitVec 3 := 1;
      let blk : Bool := true;
      let c : DiceCmd := (cm 4);
      let i := b.toNat * 2 + (if blk then 1 else 0);
      let t := c.arg.toNat % 2 ^ 12;
      (s.diceCmd i = some c) ∧ (s.cmdPipe i = none) ∧ ((match s.diceRoute b.toNat t c.key with | .inl n => n < 16 | .inr _ => false) = true) ∧ (c.op < 5)) := ⟨by decide +kernel,
      by decide +kernel,
      by decide +kernel,
      by decide +kernel,
      by decide +kernel,
      by decide +kernel,
      by decide +kernel,
      by decide +kernel,
      by decide +kernel⟩

theorem witness_Dice_DiceUpkeep :
    (let s : State := (wc {(cm 5 (77 * 65536 + 5)) with visited := [(3,131070)]} (at_ 3 131070 e1 td));
      let b : BitVec 3 := 1;
      let tb : BitVec 12 := 5;
      let v : BitVec 32 := 0x00FF0241;
      (s.reachable (8 + b.toNat) = true) ∧ (s.tableInUse tb.toNat = false) ∧ (tdefBad v = false))
    ∧ (let s : State := (wc {(cm 5 (77 * 65536 + 5)) with visited := [(3,131070)]} (at_ 3 131070 e1 td));
      let b : BitVec 3 := 1;
      let p : BitVec 3 := 3;
      let blk : Bool := true;
      let c : DiceCmd := {(cm 5 (77 * 65536 + 5)) with visited := [(3,131070)]};
      let e : DiceEntry := e1;
      let i := b.toNat * 2 + (if blk then 1 else 0);
      let alone := fun b n => (s.slotAt (slotKey b n 0) = some e) ∧ (∀ x, 1 ≤ x → x < 4 → s.slotAt (slotKey b n x) = none)
          ∧ (∀ x < 8, s.barAt (b * 8 + x) = none);
      (s.diceCmd i = some c) ∧ (c.op = 5) ∧ (Tbl.get (fun _ => 0) c.visited p.toNat < 131071) ∧ (alone p.toNat (Tbl.get (fun _ => 0) c.visited p.toNat)) ∧ (s.isFenced (8 + p.toNat) = false) ∧ (s.pipeQ p.toNat = []))
    ∧ (let e : DiceEntry := e1;
      (e.hit = true))
    ∧ (let s : State := (wc {(cm 5 (77 * 65536 + 5)) with visited := [(3,131070)]} (at_ 3 131070 e1 td));
      let b : BitVec 3 := 1;
      (s.dredgeLeft b.toNat = 0))
    ∧ (let e : DiceEntry := dent;
      (e.hit = false) ∧ (e.stale = false))
    ∧ (let e : DiceEntry := {dent with stale := true};
      (e.hit = false) ∧ (e.stale = true))
    ∧ (let s : State := (ins);
      let b : BitVec 3 := 1;
      let tb : BitVec 12 := 5;
      (s.reachable (8 + b.toNat) = true) ∧ (s.tableInUse tb.toNat = true)) := ⟨by decide +kernel,
      by decide +kernel,
      by decide +kernel,
      by decide +kernel,
      by decide +kernel,
      by decide +kernel,
      by decide +kernel⟩

theorem witness_SoundingAudits_1 :
    (let s : State := (wa as_ (pf1on 0 (fl [(F.BNK_SND_CTL.REPAIR,1,1),(F.BNK_SND_STAT.BUSY,1,1)] ta)));
      let k : BitVec 2 := 1;
      let b : BitVec 3 := 2;
      let a : Audit := as_;
      let tb : BitVec 12 := 5;
      (s.auditOf k.toNat = some a) ∧ (tb.toNat = a.table) ∧ (tb.toNat % 4 = k.toNat) ∧ (a.flips.getLsbD b.toNat = true))
    ∧ (let s : State := (wa as_ (pf1on 0 (fl [(F.BNK_SND_CTL.REPAIR,1,1),(F.BNK_SND_STAT.BUSY,1,1)] ta)));
      let k : BitVec 2 := 1;
      let a : Audit := as_;
      let r : List Byte := rec32;
      let p := s.partOf s.auditBoard a.table ((r.drop 6).take 16);
      let n := s.shadowEntry p a.table r;
      let next := { a with next := a.next + 1 };
      (s.auditOf k.toNat = some a) ∧ (a.started = true) ∧ (s.flipsDone a = true) ∧ (a.next < a.count) ∧ (s.sndMay k.toNat = true) ∧ (r.length = 32) ∧ (s.isFenced (8 + p) = false) ∧ (s.tdefValid p a.table = true) ∧ (a.table < 4096) ∧ (s.findEntry p a.table n.key = none) ∧ (s.fld F.BNK_SND_CTL.REPAIR k.toNat = 1) ∧ (s.fld F.BRD_DICE_TDEF_W3.CHANGES (p * 4096 + a.table) = a.changes.getD p 0) ∧ ((s.emptySlot p (bucket0 a.table n.key)).isSome = true))
    ∧ (let s : State := (wa as_ (pf1on 0 (fl [(F.BNK_SND_CTL.REPAIR,1,1),(F.BNK_SND_STAT.BUSY,1,1)] ta)));
      let k : BitVec 2 := 1;
      let a : Audit := as_;
      let r : List Byte := rec32;
      let p := s.partOf s.auditBoard a.table ((r.drop 6).take 16);
      let n := s.shadowEntry p a.table r;
      let next := { a with next := a.next + 1 };
      (s.auditOf k.toNat = some a) ∧ (a.started = true) ∧ (s.flipsDone a = true) ∧ (a.next < a.count) ∧ (s.sndMay k.toNat = true) ∧ (r.length = 32) ∧ (s.isFenced (8 + p) = false) ∧ (s.tdefValid p a.table = true) ∧ (a.table < 4096) ∧ (s.findEntry p a.table n.key = none) ∧ (s.fld F.BNK_SND_CTL.REPAIR k.toNat = 1))
    ∧ (let s : State := (wa as_ (pf1on 0 (fl [(F.BNK_SND_CTL.REPAIR,1,1),(F.BNK_SND_STAT.BUSY,1,1)] ta)));
      let k : BitVec 2 := 1;
      let a : Audit := as_;
      let r : List Byte := rec32;
      let p := s.partOf s.auditBoard a.table ((r.drop 6).take 16);
      let next := { a with next := a.next + 1 };
      (s.auditOf k.toNat = some a) ∧ (a.started = true) ∧ (s.flipsDone a = true) ∧ (a.next < a.count) ∧ (s.sndMay k.toNat = true) ∧ (r.length = 32) ∧ (s.isFenced (8 + p) = false) ∧ (s.tdefValid p a.table = true) ∧ (a.table < 4096))
    ∧ (let s : State := (sf [(2, f0)] ta);
      let k : BitVec 2 := 1;
      let f : Firing := f0;
      let unit : Unit_ := .auditor k;
      let w := s.unitWork unit 2;
      (w = { work := none, pend := none }) ∧ (s.isFenced (2 + k.toNat) = false) ∧ (s.fld F.BNK_SND_CTL.EN k.toNat = 1) ∧ (∃ t ∈ (s.nextAudit k.toNat).toList, t < 4096) ∧ (s.fireDue unit 2 f = true))
    ∧ (let s : State := (sf [(2, f0)] td);
      let k : BitVec 2 := 1;
      let f : Firing := f0;
      let unit : Unit_ := .auditor k;
      let w := s.unitWork unit 2;
      (w = { work := none, pend := none }) ∧ (s.isFenced (2 + k.toNat) = false) ∧ (s.fireDue unit 2 f = true) ∧ (s.fld F.BNK_SND_CTL.EN k.toNat = 0))
    ∧ (let s : State := (wa au (pf1on 0 ta));
      let k : BitVec 2 := 1;
      let b : BitVec 3 := 2;
      let a : Audit := au;
      let tb : BitVec 12 := 5;
      let l : List Byte := (hd16 9 2);
      let magic := beNat (l.take 4) = 0x534E4431;
      (s.auditOf k.toNat = some a) ∧ (tb.toNat = a.table) ∧ (tb.toNat % 4 = k.toNat) ∧ ((s.auditParts a.table).contains b.toNat = true) ∧ (a.flips.getLsbD b.toNat = false) ∧ (a.started = true ∨ s.sndMay k.toNat = true ∧ l.length = 16 ∧ magic))
    ∧ (let s : State := (wa au (pf1on 0 ta));
      let k : BitVec 2 := 1;
      let a : Audit := au;
      let l : List Byte := (1 :: hd16 9 2 |>.take 16);
      let magic := beNat (l.take 4) = 0x534E4431;
      (s.auditOf k.toNat = some a) ∧ (a.started = false) ∧ (s.sndMay k.toNat = true) ∧ (l.length = 16) ∧ (¬magic))
    ∧ (let s : State := (wa as_ (pf1on 0 ta));
      let k : BitVec 2 := 1;
      let a : Audit := as_;
      let r : List Byte := rec32;
      let p := s.partOf s.auditBoard a.table ((r.drop 6).take 16);
      let n := s.shadowEntry p a.table r;
      let next := { a with next := a.next + 1 };
      (s.auditOf k.toNat = some a) ∧ (a.started = true) ∧ (s.flipsDone a = true) ∧ (a.next < a.count) ∧ (s.sndMay k.toNat = true) ∧ (r.length = 32) ∧ (s.isFenced (8 + p) = false) ∧ (s.tdefValid p a.table = true) ∧ (a.table < 4096) ∧ (s.findEntry p a.table n.key = none) ∧ (s.fld F.BNK_SND_CTL.REPAIR k.toNat = 0))
    ∧ (let s : State := (wa as_ (pf1on 0 (ta ins)));
      let k : BitVec 2 := 1;
      let a : Audit := as_;
      let r : List Byte := rec32;
      let p := s.partOf s.auditBoard a.table ((r.drop 6).take 16);
      let n := s.shadowEntry p a.table r;
      let next := { a with next := a.next + 1 };
      (s.auditOf k.toNat = some a) ∧ (a.started = true) ∧ (s.flipsDone a = true) ∧ (a.next < a.count) ∧ (s.sndMay k.toNat = true) ∧ (r.length = 32) ∧ (s.isFenced (8 + p) = false) ∧ (s.tdefValid p a.table = true) ∧ (a.table < 4096) ∧ ((match s.findEntry p a.table n.key with | some (.slot _, e) => decide (e.value = n.value ∧ e.static = n.static ∧ e.owner = n.owner) | _ => false) = true)) := ⟨by decide +kernel,
      by decide +kernel,
      by decide +kernel,
      by decide +kernel,
      by decide +kernel,
      by decide +kernel,
      by decide +kernel,
      by decide +kernel,
      by decide +kernel,
      by decide +kernel⟩

theorem witness_SoundingAudits_2 :
    (let s : State := (wa {as_ with next := 2} (pf1on 0 ta));
      let k : BitVec 2 := 1;
      let a : Audit := {as_ with next := 2};
      let l : List Byte := (hd16 9 2);
      let gen := bytesWord ((l.drop 4).take 4);
      let next := { a with next := a.next + 1 };
      (s.auditOf k.toNat = some a) ∧ (a.started = true) ∧ (s.flipsDone a = true) ∧ (a.count ≤ a.next) ∧ (s.sndMay k.toNat = true) ∧ (l.length = 16) ∧ (a.discard = false) ∧ (a.missing = 0) ∧ (a.different = 0) ∧ (s.extras a.table = []) ∧ (s.changesOf a.table = a.changes) ∧ (gen = a.gen))
    ∧ (let s : State := (wa {as_ with next := 2} (pf1on 0 ta));
      let k : BitVec 2 := 1;
      let a : Audit := {as_ with next := 2};
      let l : List Byte := (hd16 7 2);
      let gen := bytesWord ((l.drop 4).take 4);
      let next := { a with next := a.next + 1 };
      (s.auditOf k.toNat = some a) ∧ (a.started = true) ∧ (s.flipsDone a = true) ∧ (a.count ≤ a.next) ∧ (s.sndMay k.toNat = true) ∧ (l.length = 16) ∧ (gen ≠ a.gen)) := ⟨by decide +kernel,
      by decide +kernel⟩

end Sys2Proof.Tests.W06a

namespace Sys2Proof.Tests.W06b
open Sys2Proof Sys2Proof.Machine Sys2Proof.Tests
set_option Elab.async false

def sv : State := fl [(F.HDW_BOOT_STAT.HBM,0,1),(F.HDW_BOOT_STAT.STAGE,0,5)]

def ena (s : State) : State := (List.range 8).foldl (fun s b => s.setFld F.BRD_FLOW_CTL.EN b 1) s

def dl (v : Word) (a r : Nat) (l : List Prefix := []) (s : State := sv) : State := s.putLook {s.look with deltaCmd := some (v, a, r), delta := l}

def vv : Vector_ := {v0 with stamped := true, entry := 3, bytes := by512.take 256, handle := h0}

def vr : Vector_ := {v0 with stamped := false, entry := 3, bytes := by512.take 256, handle := h0, input := .ring 7 2}

def patch (l : List Byte) (o : Nat) (b : List Byte) : List Byte := l.take o ++ b ++ l.drop (o + b.length)

def vl : Vector_ := {v0 with learn := true, stamped := true, handle := h0, bytes := patch (patch (patch (by512.take 256) 0 [1,0,0,0]) 6 [0,64]) 0x36 [0,0]}

def tl (s : State := fl [(F.BNK_LEARN_CTL.TABLE,1,5)]) : State := (List.range 8).foldl (fun s b => fl [(F.BRD_DICE_TDEF_W0.VALID, b*4096+5, 1),(F.BRD_DICE_TDEF_W0.LEARN, b*4096+5, 1),(F.BRD_DICE_TDEF_W0.KLEN, b*4096+5, 9),(F.BRD_DICE_TDEF_W0.VLEN, b*4096+5, 16),(F.BRD_DICE_TDEF_W0.PARTS, b*4096+5, 0x0C)] s) s

def frm : List Byte := (vl.bytes.drop 0x40).take (min 192 (rdN vl.bytes 6 2))

def kk : List Byte := beBytes 3 (rdN vl.bytes 0x14 4) ++ (frm.drop (rdN vl.bytes 0x36 2 + 6)).take 6

def p1 : Nat := tl.partOf 2 5 kk

def en1 (st : Bool) (val : List Byte) : DiceEntry := tl.newEntry p1 5 kk val st 0

def putE (e : DiceEntry) (s : State := tl) : State := (s.insertEntry p1 e false true).2

def bd (l : List Vector_) (s : State) : State := s.putIntake {s.intake with board := [(2,l)]}

def lval : List Byte := learnValue (parseFrame ((bd [vl] tl).parseCfg vl.bank false) frm)

def wideP : Prefix := { v6 := true, vrf := 0, len := 128, addr := 1, result := 0 }

theorem foldl_cost (q : Prefix) (n a : Nat) : (List.replicate n q).foldl (fun n p => n + p.cost) a = a + n * q.cost := by
  induction n generalizing a with
  | zero => simp
  | succ n ih => simp [List.replicate_succ, ih]; ring

theorem delta_full : deltaFits (cmdPrefix 0x405 7 9 :: (List.replicate 524288 wideP).filter (fun q => !q.same (cmdPrefix 0x405 7 9)))
    = false := by
  have h : (List.replicate 524288 wideP).filter (fun q => !q.same (cmdPrefix 0x405 7 9)) = List.replicate 524288 wideP := by
    rw [List.filter_replicate, if_pos (by decide)]
  rw [h, deltaFits, List.foldl_cons, foldl_cost]
  decide

theorem witness_FlowAndDelta_FlowTableUpkeep :
    (let s : State := (fl [(F.HDW_BOOT_STAT.FENCED,0,256)] (ena sv));
      let b : BitVec 3 := 2;
      let up := s.reachable (8 + b.toNat) = true;
      (up))
    ∧ (let s : State := (fl [(F.HDW_BOOT_STAT.FENCED,0,256)] (ena sv));
      let ix : BitVec 28 := 5;
      (Tbl.get (fun _ => none) s.look.flowDirty ix.toNat = none))
    ∧ (let s : State := (fl [(F.HDW_BOOT_STAT.FENCED,0,256)] (ena sv));
      let b : BitVec 3 := 2;
      let v : BitVec 32 := 0;
      let up := s.reachable (8 + b.toNat) = true;
      (s.isFenced (8 + v.toNat % 8) = true) ∧ (up))
    ∧ (let s : State := ((ena sv).putLook {Z.look with flowDirty := [(5, some (0x11223344, 0x55667788))]});
      let ix : BitVec 28 := 5;
      let calm := s.hbmRefuses (hbmBase + ix.toNat * 64 + 48) 8 = false ∧ s.hbm.dir = [] ∧ s.hbm.home = [] ∧ s.hbm.poison = [] ∧ s.plat.ecc = [];
      ((Tbl.get (fun _ => none) s.look.flowDirty ix.toNat).isSome = true) ∧ (calm))
    ∧ (let s : State := (ena sv);
      (s.serving = true) ∧ (s.flowEnabled = true) ∧ (∃ x < 8, s.isFenced (8 + x) = false ∧ s.fld F.BRD_FLOW_CTL.READY x = 0))
    ∧ ((∀ x < 8, Z.isFenced (8 + x) = false) ∧ (Z.reachable (8 + 0) = true))
    ∧ (let s : State := (fl [(F.HDW_BOOT_STAT.FENCED,0,512)] (ena sv));
      (s.isFenced (8 + (1#32).toNat % 8) = true) ∧ (s.reachable (8 + 0) = true)) := ⟨by decide +kernel,
      by decide +kernel,
      by decide +kernel,
      by decide +kernel,
      ⟨by decide +kernel, by decide +kernel, 0, by decide +kernel, by decide +kernel, by decide +kernel⟩,
      by decide +kernel,
      by decide +kernel⟩

theorem witness_FlowAndDelta_DeltaUpdates :
    (let s : State := (dl (21*8*8+1) 7 9);
      (s.reachable 1 = true))
    ∧ (let s : State := (dl (21*8*8+1) 7 9);
      let v : BitVec 32 := (21*8*8+1);
      let a : Nat := 7;
      let res : Nat := 9;
      let wide := if v.toNat / 4 % 2 = 1 then 128 else 32;
      (s.look.deltaCmd = some (v, a, res)) ∧ (wide < v.toNat / 8 % 256))
    ∧ (let s : State := (dl (24*8+1) 0x0A000000 9);
      let v : BitVec 32 := (24*8+1);
      let a : Nat := 0x0A000000;
      let res : Nat := 9;
      let p := cmdPrefix v a res;
      let rest := s.look.delta.filter (fun q => !q.same p);
      let wide := if v.toNat / 4 % 2 = 1 then 128 else 32;
      (s.look.deltaCmd = some (v, a, res)) ∧ (v.toNat / 8 % 256 ≤ wide) ∧ (v.toNat % 4 = 1) ∧ (deltaFits (p :: rest) = true))
    ∧ (let s : State := (dl (24*8+2) 0x0A000000 9);
      let v : BitVec 32 := (24*8+2);
      let a : Nat := 0x0A000000;
      let res : Nat := 9;
      let p := cmdPrefix v a res;
      let rest := s.look.delta.filter (fun q => !q.same p);
      let wide := if v.toNat / 4 % 2 = 1 then 128 else 32;
      (s.look.deltaCmd = some (v, a, res)) ∧ (v.toNat / 8 % 256 ≤ wide) ∧ (v.toNat % 4 = 2) ∧ (rest = s.look.delta))
    ∧ (let s : State := (dl (24*8+2) 0x0A000000 9 [cmdPrefix (24*8+1) 0x0A000000 11]);
      let v : BitVec 32 := (24*8+2);
      let a : Nat := 0x0A000000;
      let res : Nat := 9;
      let p := cmdPrefix v a res;
      let rest := s.look.delta.filter (fun q => !q.same p);
      let wide := if v.toNat / 4 % 2 = 1 then 128 else 32;
      (s.look.deltaCmd = some (v, a, res)) ∧ (v.toNat / 8 % 256 ≤ wide) ∧ (v.toNat % 4 = 2) ∧ (rest ≠ s.look.delta))
    ∧ (let v : BitVec 32 := 0x405;
      let s : State := Z.putLook {Z.look with deltaCmd := some (v, 7, 9), delta := List.replicate 524288 wideP};
      let p := cmdPrefix v 7 9;
      let rest := s.look.delta.filter (fun q => !q.same p);
      let wide := if v.toNat / 4 % 2 = 1 then 128 else 32;
      (s.look.deltaCmd = some (v, 7, 9)) ∧ (v.toNat / 8 % 256 ≤ wide) ∧ (v.toNat % 4 = 1) ∧ (deltaFits (p :: rest) = false)) := ⟨by decide +kernel,
      by decide +kernel,
      by decide +kernel,
      by decide +kernel,
      by decide +kernel,
      ⟨rfl, by decide, by decide, delta_full⟩⟩

theorem witness_Intake_IntakeCredits :
    (let s : State := (Z.putIntake {Z.intake with queue := [(10,[vv,vr])], flight := [(10,1)], held := [(10,2000)], returning := [(10, 46)]});
      let k : BitVec 2 := 1;
      (s.sideBuf k.toNat = []))
    ∧ (let s : State := (Z.putIntake {Z.intake with queue := [(10,[vv,vr])], flight := [(10,1)], held := [(10,2000)], returning := [(10, 46)]});
      let k : BitVec 2 := 1;
      let b : BitVec 3 := 2;
      let v : Vector_ := vv;
      let rest : List Vector_ := [vr];
      let c := k.toNat * 8 + b.toNat;
      let n := fun (t : Tbl Nat) => Tbl.get (fun _ => 0) t c;
      let q := fun (u : State) i => u.intakeQueue k.toNat i;
      let i := k.toNat * 4096 + v.entry;
      (q s b.toNat = v :: rest) ∧ (s.reachable (2 + k.toNat) = true) ∧ (s.reachable (8 + b.toNat) = true) ∧ (n s.intake.flight + n s.intake.held + n s.intake.returning < 2048) ∧ (s.fld F.BNK_STEER_TBL.INFLIGHT i < 2 ^ 12 - 1))
    ∧ (let s : State := (Z.putIntake {Z.intake with queue := [(10,[vv,vr])], flight := [(10,1)], held := [(10,2000)], returning := [(10, 47)]});
      let k : BitVec 2 := 1;
      let b : BitVec 3 := 2;
      let c := k.toNat * 8 + b.toNat;
      let n := fun (t : Tbl Nat) => Tbl.get (fun _ => 0) t c;
      (n s.intake.flight + n s.intake.held + n s.intake.returning = 2048))
    ∧ (let s : State := (Z.putIntake {Z.intake with side := [(1,[(3,vv)])]});
      let k : BitVec 2 := 1;
      let x : Nat := 3;
      let v : Vector_ := vv;
      (s.sideBuf k.toNat = [(x, v)]) ∧ (s.intakeRoom k.toNat x v = true) ∧ (v.stamped = true))
    ∧ (let s : State := (Z.putIntake {Z.intake with side := [(1,[(3,vr)])]});
      let k : BitVec 2 := 1;
      let x : Nat := 3;
      let v : Vector_ := vr;
      (s.sideBuf k.toNat = [(x, v)]) ∧ (s.intakeRoom k.toNat x v = true) ∧ (v.stamped = false) ∧ ((match v.input with | .ring m _ => decide (v.gen = s.fld F.RNG_FN_FRZ.GEN m) | _ => false) = true)) := ⟨by decide +kernel,
      by decide +kernel,
      by decide +kernel,
      by decide +kernel,
      by decide +kernel⟩

theorem witness_Intake_VectorDelivery :
    (let s : State := (bd [vl] Z);
      let b : BitVec 3 := 2;
      let v : Vector_ := vl;
      let rest : List Vector_ := [];
      let x := b.toNat;
      let t := s.fld F.BNK_LEARN_CTL.TABLE v.bank;
      let d := x * 4096 + t % 4096;
      (s.meshTo x = []) ∧ (s.atBoard x = v :: rest) ∧ (v.learn = true) ∧ (s.fld F.BRD_DICE_TDEF_W0.VALID d = 0))
    ∧ (let s : State := (bd [vl] Z);
      let b : BitVec 3 := 2;
      let v : Vector_ := vl;
      let rest : List Vector_ := [];
      let x := b.toNat;
      (s.meshTo x = []) ∧ (s.atBoard x = v :: rest) ∧ (s.recvThread x = none))
    ∧ (let s : State := (bd [vl] (fl [(F.HDW_BOOT_STAT.FENCED,0,2^(8+p1))] tl));
      let b : BitVec 3 := 2;
      let v : Vector_ := vl;
      let rest : List Vector_ := [];
      let x := b.toNat;
      let t := s.fld F.BNK_LEARN_CTL.TABLE v.bank;
      let d := x * 4096 + t % 4096;
      let frame := (v.bytes.drop 0x40).take (min 192 (rdN v.bytes 6 2));
      let key := beBytes 3 (rdN v.bytes 0x14 4) ++ (frame.drop (rdN v.bytes 0x36 2 + 6)).take 6;
      let p := s.partOf x t key;
      let table := s.fld F.BRD_DICE_TDEF_W0.VALID d = 1 ∧ s.fld F.BRD_DICE_TDEF_W0.LEARN d = 1 ∧ s.fld F.BRD_DICE_TDEF_W0.KLEN d = 9
          ∧ s.fld F.BRD_DICE_TDEF_W0.VLEN d = 16;
      (s.meshTo x = []) ∧ (s.atBoard x = v :: rest) ∧ (v.learn = true) ∧ (table) ∧ (s.isFenced (8 + p) = true))
    ∧ (let s : State := (bd [vl] (putE (en1 true by512)));
      let b : BitVec 3 := 2;
      let v : Vector_ := vl;
      let rest : List Vector_ := [];
      let x := b.toNat;
      let t := s.fld F.BNK_LEARN_CTL.TABLE v.bank;
      let d := x * 4096 + t % 4096;
      let frame := (v.bytes.drop 0x40).take (min 192 (rdN v.bytes 6 2));
      let val := learnValue (parseFrame (s.parseCfg v.bank false) frame);
      let key := beBytes 3 (rdN v.bytes 0x14 4) ++ (frame.drop (rdN v.bytes 0x36 2 + 6)).take 6;
      let p := s.partOf x t key;
      let table := s.fld F.BRD_DICE_TDEF_W0.VALID d = 1 ∧ s.fld F.BRD_DICE_TDEF_W0.LEARN d = 1 ∧ s.fld F.BRD_DICE_TDEF_W0.KLEN d = 9
          ∧ s.fld F.BRD_DICE_TDEF_W0.VLEN d = 16;
      (s.meshTo x = []) ∧ (s.atBoard x = v :: rest) ∧ (v.learn = true) ∧ (table) ∧ (s.isFenced (8 + p) = false) ∧ (s.pipeQ p = []) ∧ (s.tdefValid p t = true) ∧ ((match s.findEntry p t (key.take (s.klen p t)) with | some (.slot _, e) => e.static && decide (e.value ≠ val.take (s.vlen p t)) | _ => false) = true))
    ∧ (let s : State := (bd [vl] (putE (en1 true lval)));
      let b : BitVec 3 := 2;
      let v : Vector_ := vl;
      let rest : List Vector_ := [];
      let x := b.toNat;
      let t := s.fld F.BNK_LEARN_CTL.TABLE v.bank;
      let d := x * 4096 + t % 4096;
      let frame := (v.bytes.drop 0x40).take (min 192 (rdN v.bytes 6 2));
      let val := learnValue (parseFrame (s.parseCfg v.bank false) frame);
      let key := beBytes 3 (rdN v.bytes 0x14 4) ++ (frame.drop (rdN v.bytes 0x36 2 + 6)).take 6;
      let p := s.partOf x t key;
      let table := s.fld F.BRD_DICE_TDEF_W0.VALID d = 1 ∧ s.fld F.BRD_DICE_TDEF_W0.LEARN d = 1 ∧ s.fld F.BRD_DICE_TDEF_W0.KLEN d = 9
          ∧ s.fld F.BRD_DICE_TDEF_W0.VLEN d = 16;
      (s.meshTo x = []) ∧ (s.atBoard x = v :: rest) ∧ (v.learn = true) ∧ (table) ∧ (s.isFenced (8 + p) = false) ∧ (s.pipeQ p = []) ∧ (s.tdefValid p t = true) ∧ ((match s.findEntry p t (key.take (s.klen p t)) with | some (.slot _, e) => decide (e.value = val.take (s.vlen p t)) | _ => false) = true))
    ∧ (let s : State := (bd [vl] (putE (en1 false by512)));
      let b : BitVec 3 := 2;
      let v : Vector_ := vl;
      let rest : List Vector_ := [];
      let x := b.toNat;
      let t := s.fld F.BNK_LEARN_CTL.TABLE v.bank;
      let d := x * 4096 + t % 4096;
      let frame := (v.bytes.drop 0x40).take (min 192 (rdN v.bytes 6 2));
      let val := learnValue (parseFrame (s.parseCfg v.bank false) frame);
      let key := beBytes 3 (rdN v.bytes 0x14 4) ++ (frame.drop (rdN v.bytes 0x36 2 + 6)).take 6;
      let p := s.partOf x t key;
      let table := s.fld F.BRD_DICE_TDEF_W0.VALID d = 1 ∧ s.fld F.BRD_DICE_TDEF_W0.LEARN d = 1 ∧ s.fld F.BRD_DICE_TDEF_W0.KLEN d = 9
          ∧ s.fld F.BRD_DICE_TDEF_W0.VLEN d = 16;
      (s.meshTo x = []) ∧ (s.atBoard x = v :: rest) ∧ (v.learn = true) ∧ (table) ∧ (s.isFenced (8 + p) = false) ∧ ((match s.findEntry p t (key.take (s.klen p t)) with | some (.slot _, e) => !e.static && decide (e.value ≠ val.take (s.vlen p t)) | _ => false) = true) ∧ (s.pipeQ p = []) ∧ (s.tdefValid p t = true))
    ∧ (let s : State := (bd [vv, vl] (Z.setThread (2*4096+8) {Z.thread 8 with run := .stalled (.recv 5 0x7F00)}));
      let b : BitVec 3 := 2;
      let v : Vector_ := vv;
      let rest : List Vector_ := [vl];
      let th : Nat := (2*4096+8);
      let rd : BitVec 5 := 5;
      let a : Nat := 0x7F00;
      let x := b.toNat;
      (s.meshTo x = []) ∧ (s.atBoard x = v :: rest) ∧ (v.learn = false) ∧ (s.recvThread x = some th) ∧ ((s.thread th).run = .stalled (.recv rd a)) ∧ (v.bytes.length = 256)) := ⟨by decide +kernel,
      by decide +kernel,
      by decide +kernel,
      by decide +kernel,
      by decide +kernel,
      by decide +kernel,
      by decide +kernel⟩

end Sys2Proof.Tests.W06b

namespace Sys2Proof.Tests.W07
open Sys2Proof Sys2Proof.Machine Sys2Proof.Tests
set_option Elab.async false

def lnd : SpillLand := {queue := 7, depth := 3, chain := [9,10,11,12,13]}

def cs (seq : Nat) (k : CommitKind) : CommitSlot := {seq := seq, kind := k, handle := h0, fword := 0x00000100 + 1, th := none}

def fr1 : FrameRec := {fr0 with board := some 2}

def cst (k : CommitKind) (s : State := Z) : State := bk (fun b => {b with pipe := 2}) ((withFrame fr1 s).setInput (.port 5) {stamp := 9, next := 65535, wait := [cs 65535 k]})

def jb : ReplJob := {first := 5, group := 3, head := 1, len := 256, input := .port 5}

def fr2 : FrameRec := {fr0 with refs := 1, committed := true}

def rp (s : State := Z) : State := bk (fun b => {b with queued := 2}) ((withFrame fr2 (fl [(F.CFL_MC_GRP_W0.VALID,3,1),(F.CFL_MC_GRP_W0.BASE,3,77),(F.CFL_MC_GRP_W1.COUNT,3,1),(F.CFL_MC_LIST_W0.QUEUE,77,9),(F.CFL_MC_LIST_W0.PREP,77,2)] s)).putCfl {(withFrame fr2 (fl [(F.CFL_MC_GRP_W0.VALID,3,1),(F.CFL_MC_GRP_W0.BASE,3,77),(F.CFL_MC_GRP_W1.COUNT,3,1),(F.CFL_MC_LIST_W0.QUEUE,77,9),(F.CFL_MC_LIST_W0.PREP,77,2)] s)).cfl with repl := [jb]})

theorem witness_CellBooks :
    (let s : State := ((bk (fun b => {b with reclaim := 100, spilling := 30, queued := 30}) ((fl [(F.CFL_QDEPTH.CELLS,7,3)]).putCfl {Z.cfl with lands := [lnd, lnd]})));
      let v : BitVec 32 := 1;
      let b := s.cfl.books;
      let up := s.reachable 1 = true;
      (up) ∧ (v.toNat % 2 = 1) ∧ (b.free < 2 ^ 21) ∧ (b.queued < 2 ^ 21) ∧ (b.pipe < 2 ^ 21) ∧ (b.reclaim < 2 ^ 21) ∧ (b.spilling < 2 ^ 21))
    ∧ (let s : State := ((bk (fun b => {b with reclaim := 100, spilling := 30, queued := 30}) ((fl [(F.CFL_QDEPTH.CELLS,7,3)]).putCfl {Z.cfl with lands := [lnd, lnd]})));
      let b := s.cfl.books;
      (∃ l ∈ s.cfl.lands.head?.toList, l.depth ≤ s.depth l.queue ∧ l.chain.length ≤ b.spilling) ∧ (b.spilling ≤ b.queued))
    ∧ (let s : State := ((bk (fun b => {b with reclaim := 100, spilling := 30, queued := 30}) ((fl [(F.CFL_QDEPTH.CELLS,7,3)]).putCfl {Z.cfl with lands := [lnd, lnd]})));
      let up := s.reachable 1 = true;
      (up))
    ∧ (let s : State := (Z.setInput (.port 5) {stamp := 9, next := 65535, wait := [cs 3 (.drop 1)]});
      let i : Input := (.port 5);
      let x := s.inputSt i;
      (i ≠ .none) ∧ (x.wait ≠ []) ∧ (s.nextSlot i = none))
    ∧ (let s : State := (Z.setStage .CFL_MC_GRP_W1 5 (some 0x400));
      let v : BitVec 32 := (0x80000000 + 1048576 - 1023);
      let w : BitVec 32 := 0x400;
      let g : BitVec 16 := 5;
      let up := s.reachable 1 = true;
      (up) ∧ (s.staged .CFL_MC_GRP_W1 g.toNat = some w) ∧ (1024 < w.toNat % 2 ^ 11 ∨ 1048576 < v.toNat % 2 ^ 20 + w.toNat % 2 ^ 11))
    ∧ (let s : State := (Z.setStage .CFL_MC_GRP_W1 5 (some 0x400));
      let v : BitVec 32 := (0x80000000 + 1048576 - 1024);
      let w : BitVec 32 := 0x400;
      let g : BitVec 16 := 5;
      let up := s.reachable 1 = true;
      (up) ∧ (s.staged .CFL_MC_GRP_W1 g.toNat = some w) ∧ (w.toNat % 2 ^ 11 ≤ 1024) ∧ (v.toNat % 2 ^ 20 + w.toNat % 2 ^ 11 ≤ 1048576)) := ⟨by decide +kernel,
      by decide +kernel,
      by decide +kernel,
      by decide +kernel,
      by decide +kernel,
      by decide +kernel⟩

theorem witness_CommitAndReplication :
    (let s : State := (cst (.drop 9));
      let i : Input := (.port 5);
      let c : CommitSlot := (cs 65535 (.drop 9));
      let f : FrameRec := fr1;
      let r : BitVec 8 := 9;
      let b := s.cfl.books;
      let x := s.inputSt i;
      let p := handleFirst c.handle;
      let head := c.fword.toNat / 2 ^ 16;
      let len := c.fword.toNat % 2 ^ 16;
      let n := (head + len - 1) / 256 + 1;
      let plain := i ≠ .none ∧ (∀ a, i ≠ .attach a) ∧ (∀ k, eddySource i = some k → s.fld F.EDY_SRC.ING_EN k = 0);
      (plain) ∧ (x.wait = [c]) ∧ (c.seq = x.next) ∧ (c.th = none) ∧ (s.handleFrame c.handle = some f) ∧ (f.refs = 0) ∧ (f.committed = false) ∧ (f.desc = none) ∧ (f.cells ≤ b.pipe) ∧ (head < 256) ∧ (0 < len) ∧ (n ≤ f.cells) ∧ (f.chain.headD p = p) ∧ (f.chain.Nodup) ∧ (c.kind = .drop r))
    ∧ (let s : State := (cst (.enq 7));
      let i : Input := (.port 5);
      let c : CommitSlot := (cs 65535 (.enq 7));
      let f : FrameRec := fr1;
      let q : Nat := 7;
      let w : Word := 7;
      let b := s.cfl.books;
      let x := s.inputSt i;
      let p := handleFirst c.handle;
      let head := c.fword.toNat / 2 ^ 16;
      let len := c.fword.toNat % 2 ^ 16;
      let n := (head + len - 1) / 256 + 1;
      let plain := i ≠ .none ∧ (∀ a, i ≠ .attach a) ∧ (∀ k, eddySource i = some k → s.fld F.EDY_SRC.ING_EN k = 0);
      (plain) ∧ (x.wait = [c]) ∧ (c.seq = x.next) ∧ (c.th = none) ∧ (s.handleFrame c.handle = some f) ∧ (f.refs = 0) ∧ (f.committed = false) ∧ (f.desc = none) ∧ (f.cells ≤ b.pipe) ∧ (head < 256) ∧ (0 < len) ∧ (n ≤ f.cells) ∧ (f.chain.headD p = p) ∧ (f.chain.Nodup) ∧ (c.kind = .enq w) ∧ (w.toNat % 2 ^ 20 = q) ∧ (w.toNat / 2 ^ 22 % 2 = 0) ∧ (s.instResets q = false) ∧ (s.admits q n (w.toNat / 2 ^ 20 % 4) = true) ∧ (s.depth q + n < 2 ^ 21))
    ∧ (let s : State := (rg [(.CFL_PROF_W0, 0, 0)] (cst (.enq 7)));
      let i : Input := (.port 5);
      let c : CommitSlot := (cs 65535 (.enq 7));
      let f : FrameRec := fr1;
      let q : Nat := 7;
      let w : Word := 7;
      let b := s.cfl.books;
      let x := s.inputSt i;
      let p := handleFirst c.handle;
      let head := c.fword.toNat / 2 ^ 16;
      let len := c.fword.toNat % 2 ^ 16;
      let n := (head + len - 1) / 256 + 1;
      let plain := i ≠ .none ∧ (∀ a, i ≠ .attach a) ∧ (∀ k, eddySource i = some k → s.fld F.EDY_SRC.ING_EN k = 0);
      (plain) ∧ (x.wait = [c]) ∧ (c.seq = x.next) ∧ (c.th = none) ∧ (s.handleFrame c.handle = some f) ∧ (f.refs = 0) ∧ (f.committed = false) ∧ (f.desc = none) ∧ (f.cells ≤ b.pipe) ∧ (head < 256) ∧ (0 < len) ∧ (n ≤ f.cells) ∧ (f.chain.headD p = p) ∧ (f.chain.Nodup) ∧ (c.kind = .enq w) ∧ (w.toNat % 2 ^ 20 = q) ∧ (w.toNat / 2 ^ 22 % 2 = 0) ∧ (s.instResets q = false) ∧ (s.admits q n (w.toNat / 2 ^ 20 % 4) = false) ∧ (s.spillMay q = false))
    ∧ (let s : State := (cst (.enqm 3));
      let i : Input := (.port 5);
      let c : CommitSlot := (cs 65535 (.enqm 3));
      let f : FrameRec := fr1;
      let g : BitVec 16 := 3;
      let b := s.cfl.books;
      let x := s.inputSt i;
      let p := handleFirst c.handle;
      let head := c.fword.toNat / 2 ^ 16;
      let len := c.fword.toNat % 2 ^ 16;
      let n := (head + len - 1) / 256 + 1;
      let plain := i ≠ .none ∧ (∀ a, i ≠ .attach a) ∧ (∀ k, eddySource i = some k → s.fld F.EDY_SRC.ING_EN k = 0);
      (plain) ∧ (x.wait = [c]) ∧ (c.seq = x.next) ∧ (c.th = none) ∧ (s.handleFrame c.handle = some f) ∧ (f.refs = 0) ∧ (f.committed = false) ∧ (f.desc = none) ∧ (f.cells ≤ b.pipe) ∧ (head < 256) ∧ (0 < len) ∧ (n ≤ f.cells) ∧ (f.chain.headD p = p) ∧ (f.chain.Nodup) ∧ (c.kind = .enqm g)) := ⟨by decide +kernel,
      by decide +kernel,
      by decide +kernel,
      by decide +kernel⟩

theorem witness_CommitAndReplication_Replication :
    (let s : State := rp;
      let j : ReplJob := jb;
      let rest : List ReplJob := [];
      let f : FrameRec := fr2;
      let e : Nat := 77;
      let q : Nat := 9;
      let g := j.group.toNat;
      (s.cfl.repl = j :: rest) ∧ (s.frame j.first = some f) ∧ (f.refs = 1) ∧ (f.committed = true) ∧ (f.desc = none) ∧ (s.fld F.CFL_MC_GRP_W0.VALID g = 1) ∧ (s.fld F.CFL_MC_GRP_W1.COUNT g = 1) ∧ (s.fld F.CFL_MC_GRP_W0.BASE g = e) ∧ (s.fld F.CFL_MC_LIST_W0.QUEUE e = q) ∧ (s.pruned e j.input = false) ∧ (s.admits q f.cells 0 = true) ∧ (s.depth q + f.cells < 2 ^ 21))
    ∧ (let s : State := (fl [(F.CFL_MC_LIST_W1.PRUNE,77,1),(F.CFL_MC_LIST_W1.INPUT,77,5)] rp);
      let j : ReplJob := jb;
      let rest : List ReplJob := [];
      let f : FrameRec := fr2;
      let e : Nat := 77;
      let q : Nat := 9;
      let g := j.group.toNat;
      (s.cfl.repl = j :: rest) ∧ (s.frame j.first = some f) ∧ (f.refs = 1) ∧ (f.committed = true) ∧ (f.desc = none) ∧ (s.fld F.CFL_MC_GRP_W0.VALID g = 1) ∧ (s.fld F.CFL_MC_GRP_W1.COUNT g = 1) ∧ (s.fld F.CFL_MC_GRP_W0.BASE g = e) ∧ (s.fld F.CFL_MC_LIST_W0.QUEUE e = q) ∧ (s.fld F.CFL_MC_LIST_W1.PRUNE e = 1) ∧ (s.fld F.CFL_MC_LIST_W1.INPUT e = inputNum j.input) ∧ (s.fld F.CFL_MC_LIST_W1.KIND e = inputKind j.input)) := ⟨by decide +kernel,
      by decide +kernel⟩

end Sys2Proof.Tests.W07

namespace Sys2Proof.Tests.W08
open Sys2Proof Sys2Proof.Machine Sys2Proof.Tests
set_option Elab.async false

def qe : QEntry := { first := 5, head := 0, len := 100, prep := 0, eddy := false }

def fr3 : FrameRec := {fr0 with refs := 1, committed := true, board := none}

def in8 : Nat := 12*1025

def rr : Ring := {ringReset with desc := [{idx := 0, st := .ready, words := some [0,0,4096,0], ts := none, cells := [], head := 0}]}

def sc (l : List (Fld × Nat × Nat) := []) : State := (fl ([(F.SCH_Q_W0.EN,7,1),(F.SCH_Q_W0.PARENT,7,3),(F.SCH_Q_W0.BAND,7,2),(F.SCH_Q_W0.EN,8,1),(F.SCH_Q_W0.PARENT,8,3),(F.SCH_Q_W0.BAND,8,5),
  (F.SCH_N_CFG.EN,3,1),(F.SCH_N_CFG.PARENT,3,9),(F.SCH_N_CFG.BAND,3,1),(F.SCH_N_CFG.EN,65536+9,1),(F.SCH_N_CFG.PARENT,65536+9,300),(F.SCH_P_CFG.EN,300,1),(F.CFL_QDEPTH.CELLS,7,2),(F.CFL_QDEPTH.CELLS,8,2),
  (F.CFL_QADM.INSTANCE,7,in8),(F.CFL_QADM.INSTANCE,8,in8),(F.RNG_FN_FRZ.STATE,in8,1),(F.PCIE_CMD.BME,fnKey 12 0,1),(F.PCI_EP_STAT.LINKA_UP,12,1)] ++ l)
   ((withFrame fr3 Z).setFrame 6 (some fr3))).setRing (ringKey in8 0 true) rr

def sc2 (l : Tbl (List QEntry)) (k : List (Fld × Nat × Nat) := []) : State := (sc k).putCfl {(sc k).cfl with queues := l}

def Q2 := [(7,[qe]), (8, [{qe with first := 6}])]

def wk : SchChild × SchChild × SchChild :=
  ({ key := 1114121, parent := 131372, band := 0, weight := 1, comm := false, num := 65545 },
   { key := 1048579, parent := 65545, band := 1, weight := 1, comm := false, num := 3 },
   { key := 8, parent := 3, band := 5, weight := 1, comm := true, num := 8 })

def nb : Buckets := {tc := 50000, tp := 3000, remC := 3, remP := 5, last := 0, debits := [7, 100]}

def nb2 : Buckets := {nb with tp := -(2^47)+1000}

def pp (k : Nat) (s : State) : State := s.putSch {s.sch with parentPend := [(k, some (77, 6))]}

def gp (l : List (Fld × Nat × Nat)) (g : GatePort := {oper := {base := 0, cycle := 5000, len := 2}, change := none}) (now : Nat := 40000000) : State :=
  let s := tm (fun t => {t with now := now}) (fl l)
  s.putSch {s.sch with gate := [(9, g)]}

def gl : List (Fld × Nat × Nat) := [(F.GATE_LEN.COUNT,9,2),(F.GATE_CYCLE.NS,9,3000),(F.GATE_CTL.EN,9,1)]

def gpo : GatePort := {oper := {base := 0, cycle := 5000, len := 2}, change := some (39000000, 36000000)}

def gg (g : Option GaugePass) (l : List (Fld × Nat × Nat) := []) : State :=
  let s := tm (fun t => {t with now := 70000000}) (rg [(.GAU_BASE,3,0x00001000),(.GAU_BASE_HI,3,0x10)] (fl ([(F.HDW_BOOT_STAT.HBM,0,1),(F.GAU_CTL.EN,3,1),(F.GAU_CTL.LOG2_SIZE,3,8),(F.GAU_PERIOD.NS,3,1000000),(F.GAU_COUNT.QUEUES,3,5),(F.GAU_FIRST.QUEUE,3,100)]++l)))
  s.putSch {s.sch with gauge := [(3, g)], passes := [(3, 9)]}

def gx : GaugePass := {start := 69000000, index := 2, left := 3, header := false}

theorem nodeNow_tp (s : State) (n : Nat) (h : (s.rd .SCH_N_PIR n).toNat = 0) (hr : (s.nodeBuckets n).remP < 8000) :
    (s.nodeNow n).tp = min (s.nodeBuckets n).tp (((s.fld F.SCH_N_PBS.BYTES n + (s.nodeBuckets n).pending) * 1000 : Nat) : Int) := by
  simp only [State.nodeNow, Buckets.refillAt, refill, h]
  simp [Nat.div_eq_of_lt hr]

theorem witness_ReleaseByBand :
    (let s : State := (sc2 Q2);
      let port : Nat := 300;
      let v : SchChild := wk.1;
      let u : SchChild := wk.2.1;
      let c : SchChild := wk.2.2;
      (s.walk port = some (v, u, c)))
    ∧ (let s : State := (sc2 Q2);
      let port : Nat := 300;
      let v : SchChild := wk.1;
      let u : SchChild := wk.2.1;
      let c : SchChild := wk.2.2;
      (s.walk port = some (v, u, c)) ∧ (∃ q ∈ s.eligQueues, s.qSub q = u.num))
    ∧ (let s : State := (sc2 Q2);
      let port : Nat := 300;
      let v : SchChild := wk.1;
      let u : SchChild := wk.2.1;
      let c : SchChild := wk.2.2;
      (s.walk port = some (v, u, c)) ∧ (∃ n ∈ s.eligSubs s.eligQueues, s.subSvc n = v.num))
    ∧ (let s : State := (sc2 Q2);
      let port : Nat := 300;
      let v : SchChild := wk.1;
      let u : SchChild := wk.2.1;
      let c : SchChild := wk.2.2;
      (s.walk port = some (v, u, c)) ∧ (∃ n ∈ s.eligSvcs (s.eligSubs s.eligQueues), s.svcPort n = port)) := ⟨by decide +kernel,
      by decide +kernel,
      by decide +kernel,
      by decide +kernel⟩

theorem witness_Scheduler :
    (let s : State := ((sc2 Q2).setNodeBuckets 3 nb);
      let port : BitVec 10 := 300;
      (288 ≤ port.toNat) ∧ (∃ w ∈ (s.settle.walk port.toNat).toList, ∃ e ∈ (s.queue w.2.2.num).head?.toList, s.entryCells e ≤ s.depth w.2.2.num))
    ∧ (let s : State := (State.setNodeBuckets (sc2 Q2 []) 3 nb);
      (s.nodeNow 3).debits = 7 :: [100] ∧ -140737488355328 ≤ (s.nodeNow 3).tp - ((7 * 1000 : Nat) : Int))
    ∧ (let s : State := ((sc2 Q2).setNodeBuckets 3 nb);
      let k : BitVec 18 := 5;
      let pol := s.polBuckets k.toNat;
      let cir := (s.rd .SCH_POL_CIR k.toNat).toNat;
      (pol.debits = []) ∧ (cir ≤ (s.rd .SCH_POL_PIR k.toNat).toNat))
    ∧ (let s : State := ((sc2 Q2).setNodeBuckets 3 nb);
      let up := s.reachable 1 = true;
      (up))
    ∧ (let s : State := (pp 9 (fl [(F.SCH_Q_W0.PEND,9,1)]));
      let port : BitVec 10 := 300;
      (s.settle.walk port.toNat = none))
    ∧ (let s : State := (pp 9 (fl [(F.SCH_Q_W0.PEND,9,1)]));
      let q : BitVec 20 := 9;
      let a : Nat := 77;
      let b : Nat := 6;
      (s.parentPend q.toNat = some (a, b)) ∧ (s.depth q.toNat = 0) ∧ (a < 65536) ∧ (b < 8))
    ∧ (let s : State := (State.setNodeBuckets (sc2 Q2 []) 3 nb2);
      (s.nodeNow 3).debits = 7 :: [100] ∧ (s.nodeNow 3).tp - ((7 * 1000 : Nat) : Int) < -140737488355328)
    ∧ (let s : State := (pp 8 (sc2 Q2));
      let q : BitVec 20 := 8;
      let a : Nat := 77;
      let b : Nat := 6;
      (s.parentPend q.toNat = some (a, b)) ∧ (s.depth q.toNat ≠ 0))
    ∧ (let s : State := (pp (nodeTag 4) (fl [(F.SCH_N_STAT.PEND,4,1)]));
      let n : Nat := 4;
      let a : Nat := 77;
      let b : Nat := 6;
      (s.parentPend (nodeTag n) = some (a, b)) ∧ (s.nodeHolds n = false) ∧ (a < 4096) ∧ (b < 8)) := ⟨by decide +kernel,
      ⟨rfl, by rw [nodeNow_tp _ _ (by decide +kernel) (by decide +kernel)]; decide +kernel⟩,
      by decide +kernel,
      by decide +kernel,
      by decide +kernel,
      by decide +kernel,
      ⟨rfl, by rw [nodeNow_tp _ _ (by decide +kernel) (by decide +kernel)]; decide +kernel⟩,
      by decide +kernel,
      by decide +kernel⟩

theorem witness_GatesAndGauge_GateLists :
    (let s : State := (gp gl);
      let port : BitVec 8 := 9;
      let v : BitVec 32 := 3;
      let p := port.toNat;
      let arms := s.reachable 1 = true ∧ v.toNat / 2 % 2 = 1 ∧ s.fld F.GATE_CTL.PEND p = 0;
      (arms) ∧ (s.fld F.GATE_LEN.COUNT p ≠ 0) ∧ (1000 ≤ s.fld F.GATE_CYCLE.NS p))
    ∧ (let s : State := (gp gl);
      let port : BitVec 8 := 9;
      let p := port.toNat;
      ((s.gatePort p).change = none))
    ∧ (let s : State := (gp []);
      let port : BitVec 8 := 9;
      let v : BitVec 32 := 3;
      let p := port.toNat;
      let arms := s.reachable 1 = true ∧ v.toNat / 2 % 2 = 1 ∧ s.fld F.GATE_CTL.PEND p = 0;
      (arms) ∧ (s.fld F.GATE_LEN.COUNT p = 0 ∨ s.fld F.GATE_CYCLE.NS p < 1000))
    ∧ (let s : State := (sf [(8, {f0 with arg := 9, cycle := 7})] (gp ((F.GATE_CTL.PEND,9,1)::gl)));
      let port : BitVec 8 := 9;
      let f : Firing := {f0 with arg := 9, cycle := 7};
      let p := port.toNat;
      let list := s.pendList p;
      (s.fld F.GATE_CTL.PEND p = 1) ∧ (s.unitWork .gates 8 = { work := none, pend := none }) ∧ (s.fireDue .gates 8 f = true) ∧ (f.arg.toNat = p) ∧ (0 < list.cycle) ∧ ((s.gatePort p).change = none))
    ∧ (let s : State := (gp gl {gpo with change := some (0, 36000000)});
      let c : Nat := 0;
      ((s.gatePort 9).change = some (c, 36000000)) ∧ (c ≤ s.replica 1)) := ⟨by decide +kernel,
      by decide +kernel,
      by decide +kernel,
      by decide +kernel,
      ⟨by decide +kernel, Nat.zero_le _⟩⟩

theorem witness_GatesAndGauge_Gauge :
    (let s : State := (gg (some gx) [(F.GAU_PROD.INDEX,3,255),(F.GAU_CONS.INDEX,3,5)]);
      let ring : BitVec 4 := 3;
      let g : GaugePass := gx;
      let r := ring.toNat;
      let due := s.fld F.GAU_CTL.EN r = 1 ∧ s.gaugeNext r ≤ s.replica 1;
      (due) ∧ (s.gaugePass r = some g ∨ s.hbmMapped = false))
    ∧ (let s : State := (gg (some gx) [(F.GAU_PROD.INDEX,3,255),(F.GAU_CONS.INDEX,3,5)]);
      let ring : BitVec 4 := 3;
      let g : GaugePass := gx;
      let r := ring.toNat;
      let turn := s.gaugePass r = some g ∧ s.gaugeRing = some r;
      let prod := s.fld F.GAU_PROD.INDEX r;
      let next := (prod + 1) % 2 ^ s.fld F.GAU_CTL.LOG2_SIZE r;
      let at_ := s.rd64 .GAU_BASE .GAU_BASE_HI r + prod * 16;
      let reaches := s.hbmRefuses at_ 16 = false ∧ keyTableRange (at_ - 0x1000000000) 16 = false
          ∧ (s.stoReady && stoRegion (at_ - 0x1000000000) 16) = false;
      (turn) ∧ (reaches) ∧ (s.fld F.GAU_CTL.LOG2_SIZE r ≤ 24) ∧ (next ≠ s.fld F.GAU_CONS.INDEX r) ∧ (g.header = false) ∧ (1 < g.left) ∧ (s.queue ((s.fld F.GAU_FIRST.QUEUE r + g.index) % 2 ^ 20) = []))
    ∧ (let s : State := (gg (some gx) [(F.GAU_PROD.INDEX,3,255),(F.GAU_CONS.INDEX,3,5)]);
      let v : BitVec 32 := 48;
      (s.reachable 1 = true) ∧ (8 ≤ v.toNat / 2 % 32) ∧ (v.toNat / 2 % 32 ≤ 24))
    ∧ (let s : State := (gg (some gx) [(F.GAU_CONS.INDEX,3,1)]);
      let ring : BitVec 4 := 3;
      let g : GaugePass := gx;
      let r := ring.toNat;
      let turn := s.gaugePass r = some g ∧ s.gaugeRing = some r;
      let prod := s.fld F.GAU_PROD.INDEX r;
      let next := (prod + 1) % 2 ^ s.fld F.GAU_CTL.LOG2_SIZE r;
      let at_ := s.rd64 .GAU_BASE .GAU_BASE_HI r + prod * 16;
      let reaches := s.hbmRefuses at_ 16 = false ∧ keyTableRange (at_ - 0x1000000000) 16 = false
          ∧ (s.stoReady && stoRegion (at_ - 0x1000000000) 16) = false;
      (turn) ∧ (¬reaches ∨ next = s.fld F.GAU_CONS.INDEX r))
    ∧ (let s : State := (gg (some gx) [(F.GAU_CONS.INDEX,3,1)]);
      let v : BitVec 32 := 15;
      (s.reachable 1 = true) ∧ (v.toNat / 2 % 32 < 8 ∨ 24 < v.toNat / 2 % 32))
    ∧ (let s : State := (gg none);
      let ring : BitVec 4 := 3;
      let r := ring.toNat;
      let due := s.fld F.GAU_CTL.EN r = 1 ∧ s.gaugeNext r ≤ s.replica 1;
      (due) ∧ (s.gaugePass r = none) ∧ (s.hbmMapped = true))
    ∧ (let s : State := (fl [(F.GAU_CTL.EN,3,0)] (gg none));
      let ring : BitVec 4 := 3;
      let r := ring.toNat;
      (s.fld F.GAU_CTL.EN r = 0 ∨ s.replica 1 < s.gaugeNext r))
    ∧ (let s : State := (gg (some {gx with header:=true})  [(F.GAU_CONS.INDEX,3,5)]);
      let ring : BitVec 4 := 3;
      let g : GaugePass := {gx with header:=true};
      let r := ring.toNat;
      let turn := s.gaugePass r = some g ∧ s.gaugeRing = some r;
      let prod := s.fld F.GAU_PROD.INDEX r;
      let next := (prod + 1) % 2 ^ s.fld F.GAU_CTL.LOG2_SIZE r;
      let at_ := s.rd64 .GAU_BASE .GAU_BASE_HI r + prod * 16;
      let reaches := s.hbmRefuses at_ 16 = false ∧ keyTableRange (at_ - 0x1000000000) 16 = false
          ∧ (s.stoReady && stoRegion (at_ - 0x1000000000) 16) = false;
      (turn) ∧ (reaches) ∧ (s.fld F.GAU_CTL.LOG2_SIZE r ≤ 24) ∧ (next ≠ s.fld F.GAU_CONS.INDEX r) ∧ (g.header = true) ∧ (0 < g.left)) := ⟨⟨⟨by decide +kernel, le_replica _ _ _ (by decide +kernel)⟩, by decide +kernel⟩,
      by decide +kernel,
      by decide +kernel,
      by decide +kernel,
      by decide +kernel,
      ⟨⟨by decide +kernel, le_replica _ _ _ (by decide +kernel)⟩, by decide +kernel, by decide +kernel⟩,
      by decide +kernel,
      by decide +kernel⟩

end Sys2Proof.Tests.W08

namespace Sys2Proof.Tests.W09
open Sys2Proof Sys2Proof.Machine Sys2Proof.Tests
set_option Elab.async false

def kc (op idx : Nat) (attr : Word := 0x20077) : KeyCmd := {op := op, idx := idx, attr := attr, key := by512.take 32}

def kz (c : Option KeyCmd) (ktk : Bool := true) (l : List (Fld × Nat × Nat) := []) (s : State := Z) : State :=
  let s := rg [(.KEY_TBL_IN,3,0x55)] (fl l s)
  s.putKeys {s.keys with cmd := c, ktk := if ktk then some (by512.take 32) else none, pinned := [(9, some {valid := true, long := true, enc := true, dec := false, gate := true, ver := 255, owner := 0x1234, key := by512.take 32})]}

def bz := [(F.KEY_TBL_STAT.BUSY,0,1),(F.KEY_TBL_STAT.STATUS,0,7),(F.KEY_TBL_COUNT.COUNT,0,5)]

def dz (st rs seeds : Nat) : State := let s := rg [(.HDW_DIE_RESEEDS,0,seeds)] (fl [(F.HDW_DIE_STATUS.STATE,0,st),(F.HDW_DIE_CTL.RESTART,0,rs)]); s.putKeys {s.keys with cache := [(3*1024+7, [{index := 9000, used := true, entry := {valid := true, long := true, enc := true, dec := false, gate := true, ver := 255, owner := 0x1234, key := by512.take 32}},{index := 9001, used := false, entry := {valid := true, long := true, enc := true, dec := false, gate := true, ver := 255, owner := 0x1234, key := by512.take 32}}])]}

def sqz (l : List (Fld × Nat × Nat)) (vl vh ll lh : Nat) (s : State := Z) : State := rg [(.CFL_SQ_VAL,77,vl),(.CFL_SQ_VAL_HI,77,vh),(.CFL_SQ_LIMIT,77,ll),(.CFL_SQ_LIMIT_HI,77,lh)] (fl l s)

def sqe := [(F.CFL_SQ_CTL.EN,77,1),(F.CFL_SQ_CTL.MODE64,77,1)]

def rv (l : List (Nat × Nat × Nat)) (e : List (Nat × Bool)) (st : Word := 5): State := let s := (kz none).setStage .CFL_SQ_VAL 77 (some st); s.putKeys {s.keys with sqRevoke := l, sqEvq := e}

theorem witness_KeyTable :
    (let s : State := (kz (some (kc 1 0)) true bz);
      let c : KeyCmd := (kc 1 0);
      let a := c.attr.toNat;
      let usable := bit a 17 = true ∨ bit a 18 = true;
      (s.keys.cmd = some c) ∧ (c.op = 1) ∧ (c.idx = 0 ∨ ¬ usable))
    ∧ (let s : State := (kz (some (kc 1 7)) false bz);
      let c : KeyCmd := (kc 1 7);
      let a := c.attr.toNat;
      let usable := bit a 17 = true ∨ bit a 18 = true;
      (s.keys.cmd = some c) ∧ (c.op = 1) ∧ (c.idx ≠ 0) ∧ (usable) ∧ (s.keys.ktk = none))
    ∧ (let s : State := (kz (some (kc 1 7)) true bz);
      let c : KeyCmd := (kc 1 7);
      let old := s.keyEntry c.idx;
      let count := fun (u : State) => u.fld F.KEY_TBL_COUNT.COUNT 0;
      let a := c.attr.toNat;
      let pinned := 1 ≤ c.idx ∧ c.idx ≤ 4095;
      let usable := bit a 17 = true ∨ bit a 18 = true;
      (s.keys.cmd = some c) ∧ (c.op = 1) ∧ (pinned) ∧ (usable) ∧ (s.keys.ktk ≠ none) ∧ (old.valid = false) ∧ (count s < 2 ^ 21 - 1))
    ∧ (let s : State := (kz (some (kc 1 9)) true bz);
      let c : KeyCmd := (kc 1 9);
      let old := s.keyEntry c.idx;
      let a := c.attr.toNat;
      let pinned := 1 ≤ c.idx ∧ c.idx ≤ 4095;
      let usable := bit a 17 = true ∨ bit a 18 = true;
      (s.keys.cmd = some c) ∧ (c.op = 1) ∧ (pinned) ∧ (usable) ∧ (s.keys.ktk ≠ none) ∧ (old.valid = true))
    ∧ (let s : State := (kz (some (kc 2 9)) true bz);
      let c : KeyCmd := (kc 2 9);
      let old := s.keyEntry c.idx;
      let count := fun (u : State) => u.fld F.KEY_TBL_COUNT.COUNT 0;
      let pinned := 1 ≤ c.idx ∧ c.idx ≤ 4095;
      (s.keys.cmd = some c) ∧ (c.op = 2) ∧ (pinned) ∧ (old.valid = true) ∧ (0 < count s))
    ∧ (let s : State := (kz (some (kc 2 4095)) true bz);
      let c : KeyCmd := (kc 2 4095);
      let old := s.keyEntry c.idx;
      let pinned := 1 ≤ c.idx ∧ c.idx ≤ 4095;
      (s.keys.cmd = some c) ∧ (c.op = 2) ∧ (pinned) ∧ (old.valid = false))
    ∧ (let s : State := (kz (some (kc 3 9)) true bz);
      let c : KeyCmd := (kc 3 9);
      let pinned := 1 ≤ c.idx ∧ c.idx ≤ 4095;
      (s.keys.cmd = some c) ∧ (c.op = 3) ∧ (pinned)) := ⟨by decide +kernel,
      by decide +kernel,
      by decide +kernel,
      by decide +kernel,
      by decide +kernel,
      by decide +kernel,
      by decide +kernel⟩

theorem witness_DieAndKeyCaches :
    (let s : State := (dz 1 1 5);
      let rct : Bool := false;
      let apt : Bool := true;
      let st := fun (u : State) => u.fld F.HDW_DIE_STATUS.STATE 0;
      (st s = 1) ∧ (rct || apt))
    ∧ (let s : State := (dz 1 1 5);
      (s.reachable 0 = true))
    ∧ (let s : State := (dz 1 1 5);
      let rct : Bool := false;
      let apt : Bool := true;
      (s.fld F.HDW_DIE_CTL.RESTART 0 = 1) ∧ (rct || apt))
    ∧ (let s : State := (dz 1 1 5);
      let st := fun (u : State) => u.fld F.HDW_DIE_STATUS.STATE 0;
      (s.fld F.HDW_DIE_CTL.RESTART 0 = 1) ∧ (st s ≠ 0))
    ∧ (let s : State := (dz 1 1 5);
      let st := fun (u : State) => u.fld F.HDW_DIE_STATUS.STATE 0;
      let due := 2 ^ 20 ≤ s.keys.gens ∨ 10 ^ 9 ≤ s.time.tick - s.keys.seeded;
      (st s ≠ 1 ∨ ¬due))
    ∧ (let s : State := (sf [(6, f0)] (dz 1 0 0xFFFFFFFF));
      let f : Firing := f0;
      (s.unitWork .vault 6 = { work := none, pend := none }) ∧ (s.isFenced 0 = false) ∧ (s.fireDue .vault 6 f = true))
    ∧ (let s : State := (tm (fun t => {t with tick := 10^9}) (dz 1 0 0xFFFFFFFF));
      let st := fun (u : State) => u.fld F.HDW_DIE_STATUS.STATE 0;
      let due := 2 ^ 20 ≤ s.keys.gens ∨ 10 ^ 9 ≤ s.time.tick - s.keys.seeded;
      (st s = 1) ∧ (due))
    ∧ (let s : State := (dz 0 1 5);
      let st := fun (u : State) => u.fld F.HDW_DIE_STATUS.STATE 0;
      (st s = 0)) := ⟨by decide +kernel,
      by decide +kernel,
      by decide +kernel,
      by decide +kernel,
      by decide +kernel,
      by decide +kernel,
      by decide +kernel,
      by decide +kernel⟩

theorem witness_SequenceUnit :
    (let s : State := (rv [(77, 9, 255),(77,9,255)] [(77,true)]);
      let n : BitVec 18 := 77;
      let k := n.toNat;
      let en := s.fld F.CFL_SQ_CTL.EN k;
      let up := s.reachable 1 = true;
      (up) ∧ (en = 0))
    ∧ (let s : State := (rv [(77, 9, 255),(77,9,255)] [(77,true)]);
      let up := s.reachable 1 = true;
      (up))
    ∧ (let s : State := (rv [(77, 9, 255),(77,9,255)] [(77,true)]);
      let n : BitVec 18 := 77;
      let k := n.toNat;
      let en := s.fld F.CFL_SQ_CTL.EN k;
      let up := s.reachable 1 = true;
      (en = 0) ∧ ((s.staged .CFL_SQ_VAL k).isSome = true) ∧ (up))
    ∧ (let s : State := (rv [(77, 9, 255),(77,9,255)] [(77,true)]);
      let n : BitVec 18 := 77;
      let k := n.toNat;
      (∃ x ∈ s.keys.sqRevoke.head?.toList, x.1 = k ∧ 1 ≤ x.2.1 ∧ x.2.1 ≤ 4095 ∧ (s.keyEntry x.2.1).valid = true ∧ (s.keyEntry x.2.1).ver.toNat = x.2.2))
    ∧ (let s : State := (rv [(77, 9, 255),(77,9,255)] [(77,true)]);
      let up := s.reachable 1 = true;
      (s.keys.sqEvq ≠ []) ∧ (up))
    ∧ (let s : State := (sqz sqe 5 6 0xFFFFFFFF 0xFFFFFFFF);
      let n : BitVec 18 := 77;
      let k := n.toNat;
      let val := s.rd64 .CFL_SQ_VAL .CFL_SQ_VAL_HI k;
      let lim := s.rd64 .CFL_SQ_LIMIT .CFL_SQ_LIMIT_HI k;
      let en := s.fld F.CFL_SQ_CTL.EN k;
      let up := s.reachable 1 = true;
      (up) ∧ (en = 1) ∧ (s.fld F.CFL_SQ_CTL.MODE64 k = 1) ∧ (val ≤ lim) ∧ (val + 2 < 2 ^ 64))
    ∧ (let s : State := (sqz sqe 5 6 0xFFFFFFFF 0xFFFFFFFF);
      let n : BitVec 18 := 77;
      let k := n.toNat;
      let en := s.fld F.CFL_SQ_CTL.EN k;
      let up := s.reachable 1 = true;
      (up) ∧ (en = 1))
    ∧ (let s : State := (sqz sqe 5 6 0xFFFFFFFF 0xFFFFFFFF);
      let up := s.reachable 1 = true;
      (s.keys.sqEvq = []) ∧ (up))
    ∧ (let s : State := (sqz ((F.CFL_SQ_KEY.REVOKE_EN,77,1)::(F.CFL_SQ_KEY.INDEX,77,9)::sqe) 0xFFFFFFFF 6 0 0);
      let n : BitVec 18 := 77;
      let k := n.toNat;
      let val := s.rd64 .CFL_SQ_VAL .CFL_SQ_VAL_HI k;
      let lim := s.rd64 .CFL_SQ_LIMIT .CFL_SQ_LIMIT_HI k;
      let en := s.fld F.CFL_SQ_CTL.EN k;
      let up := s.reachable 1 = true;
      (up) ∧ (en = 1) ∧ (s.fld F.CFL_SQ_CTL.MODE64 k = 1) ∧ (lim < val) ∧ (s.keys.sqEvq.length < 1024) ∧ (s.fld F.CFL_SQ_KEY.REVOKE_EN k = 1) ∧ (s.fld F.CFL_SQ_CTL.EXHAUSTED k = 0))
    ∧ (let s : State := (rv [(77, 9, 0)] [(0,false)]);
      let n : BitVec 18 := 77;
      let k := n.toNat;
      (∃ x ∈ s.keys.sqRevoke.head?.toList, x.1 = k ∧ (s.keyEntry x.2.1).ver.toNat ≠ x.2.2)) := ⟨by decide +kernel,
      by decide +kernel,
      by decide +kernel,
      by decide +kernel,
      by decide +kernel,
      by decide +kernel,
      by decide +kernel,
      by decide +kernel,
      by decide +kernel,
      by decide +kernel⟩

end Sys2Proof.Tests.W09

namespace Sys2Proof.Tests.W10
open Sys2Proof Sys2Proof.Machine Sys2Proof.Tests
set_option Elab.async false

def ni : Nat := 3*1025   -- ep 3 bank 0 PF0

def sbase (l : List (Fld × Nat × Nat) := []) (s : State := Z) : State := fl ([(F.HDW_BOOT_STAT.HBM,0,1),(F.HDW_BOOT_STAT.STAGE,0,5),(F.BNK_STO_CTL.EN,0,1),(F.BNK_STO_CTL.EN,1,1),(F.BNK_STO_CTL.EN,2,1),(F.BNK_STO_CTL.EN,3,1),
  (F.PCIE_CMD.MSE,fnKey 3 0,1),(F.PCIE_CMD.BME,fnKey 3 0,1),(F.BNK_STO_PERS.EFFECT,ni,1)] ++ l) s

def nq1 : NvmeQueue := {nvmeUnbound with sq := some (0x1000, 64), cq := some (0x5000, 64), ien := false, cqid := 1, tail := 7, head := 63, cqTail := 63}

def wq (q : Nat) (x : NvmeQueue) (s : State) : State := s.setNvmeQ ni q x

def cel (st : SlotSt) (q op : Nat) (l : List Word := []) : StoSlot := {inst := ni, q := q, cid := 0x77, sqhd := 9, entry := BitVec.ofNat 32 (op + 0x770000) :: l, order := 5, ns := none, epoch := none, cells := [21, 22], head := 128, exts := [], st := st}

def quz (c : StoSlot) (s : State := sbase) : State := s.putSto {s.sto with slots := [(3, {sgen := 3, cmd := none, quar := some ni}), (5, {sgen := 9, cmd := some c, quar := none}),(7, {sgen := 3, cmd := some c, quar := some ni})]}

def svq : State := fl [(F.RNG_FN_CTL.SVC_EFF,ni,1),(F.RING_WRR.WEIGHT,ringIdx ni 1,3),(F.RING_WRR.BURST,ringIdx ni 1,2)] (wq 2 {nq1 with credit := 3} (wq 1 {nq1 with cq := some (0x1000,64)} (sbase [(F.RNG_FN_FRZ.STATE,ni,1),(F.NVME_CC.EN,ni,1),(F.NVME_CSTS.RDY,ni,1)])))

def bkp (s : State) : State := bk (fun b => {b with pipe := 4}) s

def wd (dw1 dw10 dw11 : Word) (p1 : Word := 0xFF0) : List Word := [dw1, 0,0,0,0, p1, 1, 0x20000, 0, dw10, dw11, 0,0,0,0]

def ad (op : Nat) (dw1 dw10 dw11 : Word) (st : SlotSt := .fetched) (q : Nat := 0) (s : State := sbase) : State := bkp (quz (cel st q op (wd dw1 dw10 dw11)) s)

def adc (op : Nat) (dw1 dw10 dw11 : Word) (st : SlotSt := .fetched) (q : Nat := 0) : StoSlot := cel st q op (wd dw1 dw10 dw11)

def nsr (first cnt nsz : Nat) : List Byte := beBytes 4 (0x80000000 + first) ++ beBytes 4 cnt ++ beBytes 8 nsz ++ [12, 0] ++ beBytes 2 ni ++ List.replicate 8 0 ++ [1] ++ List.replicate 3 0

def hb (exts : List (Nat × Nat)) (s : State) : State :=
  exts.foldl (fun s e => s.hbmWrite (extOff + e.1 * 8) (beBytes 8 e.2)) ((s.hbmWrite (nsOff + 7 * 32) (nsr 100 2 8192)).hbmWrite (mapOff + ni * 64) (beBytes 4 0x80000007))

def iow (slba nlb : Nat) (p1 : Word := 0x1230) : List Word := [1, 0,0,0,0, p1, 1, 0x20000, 0, BitVec.ofNat 32 slba, 0, BitVec.ofNat 32 nlb,0,0,0]

def ic (op slba nlb : Nat) (st : SlotSt := .fetched) : StoSlot := cel st 1 op (iow slba nlb)

def ist (exts : List (Nat × Nat)) (op slba nlb : Nat) (st : SlotSt := .fetched) (s : State := sbase) : State := hb exts (bkp (quz (ic op slba nlb st) s))

def okx : Nat := 2^63 + 5

def ex2 := [(100, okx), (101, okx+1)]

def npl (op : Nat) : StoSlot := cel .fetched 1 (op+0x100) (iow 4090 7)

def nps (op : Nat) : State := bkp (quz (npl op) sbase)

def stg (l : Tbl Bool) (ev : Tbl (List Nat)) (s : State := sbase) : State := s.putSto {s.sto with stage := l, evq := ev}

def fullStage : State := stg ((List.range 65536).map (fun i => (65536 + i, true))) []

theorem stage_full : 65536 ≤ (fullStage.sto.stage.filter (fun e => e.1 / 65536 == 1)).length := by
  have h : fullStage.sto.stage = (List.range 65536).map (fun i => (65536 + i, true)) := by simp only [fullStage, stg, State.putSto_sto]
  rw [h]
  change 65536 ≤ (((List.range 65536).map (fun i => (65536 + i, true))).filter (fun e => e.1 / 65536 == 1)).length
  rw [List.filter_eq_self.mpr]
  · simp
  · intro e he
    obtain ⟨i, hi, rfl⟩ := List.mem_map.mp he
    have := List.mem_range.mp hi
    simp only [beq_iff_eq]
    omega

theorem witness_StorageControllers_1 :
    (let s : State := (wq 1 {nq1 with cq := some (0x1000,64)} (sbase [(F.RNG_FN_FRZ.STATE,ni,1),(F.NVME_CC.EN,ni,1),(F.NVME_CSTS.RDY,ni,1)]));
      let n : Nat := ni;
      (s.fld F.NVME_CC.EN n = 1) ∧ (s.fld F.NVME_CSTS.CFS n = 0) ∧ (s.stoReady = true))
    ∧ (let s : State := (wq 1 {nq1 with cq := some (0x1000,64)} (sbase [(F.RNG_FN_FRZ.STATE,ni,1),(F.NVME_CC.EN,ni,1),(F.NVME_CSTS.RDY,ni,1)]));
      let n : Nat := ni;
      let v : BitVec 32 := 0x8001;
      let host := s.fnExists (instEp n) (instFn n) = true ∧ s.flag F.PCIE_CMD.MSE (fnKey (instEp n) (instFn n)) = true
          ∧ s.reachable (instChip n) = true;
      (host) ∧ (s.isStorage n = true) ∧ (v.toNat / 2 ^ 14 % 4 = 1 ∨ v.toNat / 2 ^ 14 % 4 = 2))
    ∧ (let s : State := (wq 1 {nq1 with cq := some (0x1000,64)} (sbase [(F.RNG_FN_FRZ.STATE,ni,1),(F.NVME_CC.EN,ni,1),(F.NVME_CSTS.RDY,ni,1)]));
      let n : Nat := ni;
      let b : Nat := 0x1000;
      let size : Nat := 64;
      let q : BitVec 7 := 1;
      let d : BitVec 16 := 63;
      let host := s.fnExists (instEp n) (instFn n) = true ∧ s.flag F.PCIE_CMD.MSE (fnKey (instEp n) (instFn n)) = true
          ∧ s.reachable (instChip n) = true;
      let x := s.nvmeQ n q.toNat;
      (host) ∧ (s.isStorage n = true) ∧ (s.insState n = 1) ∧ (x.sq = some (b, size)) ∧ (x.pend = none) ∧ (s.bellReady n = true) ∧ (d.toNat < size))
    ∧ (let s : State := (wq 1 {nq1 with cq := some (0x1000,64)} (sbase [(F.RNG_FN_FRZ.STATE,ni,1),(F.NVME_CC.EN,ni,1),(F.NVME_CSTS.RDY,ni,1)]));
      let n : Nat := ni;
      let b : Nat := 0x1000;
      let size : Nat := 64;
      let q : BitVec 7 := 1;
      let d : BitVec 16 := 63;
      let host := s.fnExists (instEp n) (instFn n) = true ∧ s.flag F.PCIE_CMD.MSE (fnKey (instEp n) (instFn n)) = true
          ∧ s.reachable (instChip n) = true;
      let x := s.nvmeQ n q.toNat;
      (host) ∧ (s.insState n ≠ 2) ∧ (x.cq = some (b, size)) ∧ (d.toNat < size))
    ∧ (let s : State := (wq 1 {nq1 with cq := some (0x1000,64)} (sbase [(F.RNG_FN_FRZ.STATE,ni,1),(F.NVME_CC.EN,ni,1),(F.NVME_CSTS.RDY,ni,1)]));
      let n : Nat := ni;
      let b : Nat := 0x1000;
      let size : Nat := 64;
      let hd : Nat := 0;
      let q : BitVec 7 := 1;
      let l : List (BitVec 32) := [0x12340002, 1];
      let k : Nat := (s.pickSlot (instBank n) n).getD 0;
      let x := s.nvmeQ n q.toNat;
      let turn := s.sqTurn n q.toNat;
      (s.sqMay n q.toNat = true) ∧ (s.pickSlot (instBank n) n = some k) ∧ (turn.1 = true) ∧ (x.sq = some (b, size)) ∧ (hd = (x.head + 1) % size) ∧ (s.entryCellCount + s.fld F.CFL_CELL_FLOOR.CELLS 0 ≤ s.cfl.books.free) ∧ ((l.getD 0 0).toNat % 256 ∈ (if q = 0 then [0x06, 0x02, 0x09, 0x0A, 0x01, 0x05, 0x00, 0x04, 0x08, 0x0C]
              else [0x02, 0x01, 0x08, 0x00, 0x09])))
    ∧ (let s : State := (wq 1 {nq1 with cq := some (0x1000,64)} (sbase [(F.RNG_FN_FRZ.STATE,ni,1),(F.NVME_CC.EN,ni,1),(F.NVME_CSTS.RDY,ni,1)]));
      (Tbl.wf (fun _ => cellReset) s.sto.slots = true))
    ∧ (let s : State := (wq 1 {nq1 with pend := some 7} (sbase [(F.RNG_FN_FRZ.STATE,ni,1),(F.NVME_CC.EN,ni,1),(F.NVME_CSTS.SHST,ni,1)]));
      let n : Nat := ni;
      (s.fld F.NVME_CSTS.SHST n = 1) ∧ (s.noSlots n = true))
    ∧ (let s : State := (wq 1 {nq1 with pend := some 7} (sbase [(F.RNG_FN_FRZ.STATE,ni,1),(F.NVME_CC.EN,ni,1),(F.NVME_CSTS.SHST,ni,1)]));
      let n : Nat := ni;
      let b : Nat := 0x1000;
      let size : Nat := 64;
      let x0 : Nat := 7;
      let q : BitVec 7 := 1;
      let x := s.nvmeQ n q.toNat;
      (s.bellReady n = true) ∧ (s.insState n = 1) ∧ (s.isStorage n = true) ∧ (x.sq = some (b, size)) ∧ (x.pend = some x0) ∧ (x0 < size))
    ∧ (let s : State := (sbase [(F.NVME_AQA.ASQS,ni,31)]);
      let n : Nat := ni;
      let v : BitVec 32 := 0x4001;
      let host := s.fnExists (instEp n) (instFn n) = true ∧ s.flag F.PCIE_CMD.MSE (fnKey (instEp n) (instFn n)) = true
          ∧ s.reachable (instChip n) = true;
      (host) ∧ (s.isStorage n = true) ∧ (s.insState n = 0) ∧ (s.fld F.NVME_CC.EN n = 0) ∧ (v.toNat % 2 = 1) ∧ (s.stoReady = true))
    ∧ (let s : State := (wq 1 nq1 (sbase [(F.RNG_FN_FRZ.STATE,ni,1),(F.NVME_CC.EN,ni,1),(F.RNG_FN_DBRATE.KDBS,ni,7)]));
      let n : Nat := ni;
      let b : Nat := 0x1000;
      let size : Nat := 64;
      let q : BitVec 7 := 1;
      let host := s.fnExists (instEp n) (instFn n) = true ∧ s.flag F.PCIE_CMD.MSE (fnKey (instEp n) (instFn n)) = true
          ∧ s.reachable (instChip n) = true;
      let x := s.nvmeQ n q.toNat;
      (host) ∧ (s.isStorage n = true) ∧ (s.insState n = 1) ∧ (x.sq = some (b, size)) ∧ (x.pend = none) ∧ (s.bellReady n = false)) := ⟨by decide +kernel,
      by decide +kernel,
      by decide +kernel,
      by decide +kernel,
      ⟨by decide +kernel, slot_free _ _ _ (by decide +kernel), by decide +kernel, by decide +kernel, by decide +kernel, by decide +kernel, by decide +kernel⟩,
      by decide +kernel,
      by decide +kernel,
      by decide +kernel,
      by decide +kernel,
      ⟨by decide +kernel, by decide +kernel, by decide +kernel, by decide +kernel, by decide +kernel, bell_empty _ _ (by decide +kernel) (by decide +kernel) (by decide +kernel) (by decide +kernel) (by decide +kernel)⟩⟩

theorem witness_StorageControllers_2 :
    (let s : State := svq;
      let n : Nat := ni;
      let q : BitVec 7 := 1;
      let turn := s.sqTurn n q.toNat;
      (turn.1 = false)) := by decide +kernel

theorem witness_StorageAdmin_1 :
    (let s : State := (ad 6 1 1 0);
      let bank : BitVec 2 := 0;
      let slot : BitVec 14 := 5;
      let c : StoSlot := (adc 6 1 1 0);
      let k := bank.toNat * 16384 + slot.toNat;
      let cns := c.dw 10 % 256;
      let has := fun (op : Nat) => s.stoCmd k = some c ∧ c.st = .fetched ∧ c.q = 0 ∧ c.op = op;
      (has 0x06) ∧ (cns = 1))
    ∧ (let s : State := (ad 6 1 2 0);
      let bank : BitVec 2 := 0;
      let slot : BitVec 14 := 5;
      let c : StoSlot := (adc 6 1 2 0);
      let k := bank.toNat * 16384 + slot.toNat;
      let cns := c.dw 10 % 256;
      let has := fun (op : Nat) => s.stoCmd k = some c ∧ c.st = .fetched ∧ c.q = 0 ∧ c.op = op;
      (has 0x06) ∧ (cns = 2))
    ∧ (let s : State := (ad 6 1 0 0);
      let bank : BitVec 2 := 0;
      let slot : BitVec 14 := 5;
      let c : StoSlot := (adc 6 1 0 0);
      let k := bank.toNat * 16384 + slot.toNat;
      let cns := c.dw 10 % 256;
      let has := fun (op : Nat) => s.stoCmd k = some c ∧ c.st = .fetched ∧ c.q = 0 ∧ c.op = op;
      (has 0x06) ∧ (cns = 0) ∧ (1 ≤ c.dw 1) ∧ (c.dw 1 ≤ 16))
    ∧ (let s : State := (ad 6 1 3 0);
      let bank : BitVec 2 := 0;
      let slot : BitVec 14 := 5;
      let c : StoSlot := (adc 6 1 3 0);
      let k := bank.toNat * 16384 + slot.toNat;
      let cns := c.dw 10 % 256;
      let has := fun (op : Nat) => s.stoCmd k = some c ∧ c.st = .fetched ∧ c.q = 0 ∧ c.op = op;
      (has 0x06) ∧ (2 < cns))
    ∧ (let s : State := (ad 2 1 4 0);
      let bank : BitVec 2 := 0;
      let slot : BitVec 14 := 5;
      let c : StoSlot := (adc 2 1 4 0);
      let k := bank.toNat * 16384 + slot.toNat;
      let cns := c.dw 10 % 256;
      let has := fun (op : Nat) => s.stoCmd k = some c ∧ c.st = .fetched ∧ c.q = 0 ∧ c.op = op;
      (has 0x02) ∧ (cns = 4))
    ∧ (let s : State := (ad 2 1 2 0);
      let bank : BitVec 2 := 0;
      let slot : BitVec 14 := 5;
      let c : StoSlot := (adc 2 1 2 0);
      let k := bank.toNat * 16384 + slot.toNat;
      let cns := c.dw 10 % 256;
      let has := fun (op : Nat) => s.stoCmd k = some c ∧ c.st = .fetched ∧ c.q = 0 ∧ c.op = op;
      (has 0x02) ∧ (cns = 2))
    ∧ (let s : State := (ad 2 1 5 0);
      let bank : BitVec 2 := 0;
      let slot : BitVec 14 := 5;
      let c : StoSlot := (adc 2 1 5 0);
      let k := bank.toNat * 16384 + slot.toNat;
      let cns := c.dw 10 % 256;
      let has := fun (op : Nat) => s.stoCmd k = some c ∧ c.st = .fetched ∧ c.q = 0 ∧ c.op = op;
      (has 0x02) ∧ (cns ≠ 2) ∧ (cns ≠ 4))
    ∧ (let s : State := (ad 9 1 7 0x3003F);
      let bank : BitVec 2 := 0;
      let slot : BitVec 14 := 5;
      let c : StoSlot := (adc 9 1 7 0x3003F);
      let k := bank.toNat * 16384 + slot.toNat;
      let cns := c.dw 10 % 256;
      let has := fun (op : Nat) => s.stoCmd k = some c ∧ c.st = .fetched ∧ c.q = 0 ∧ c.op = op;
      (has 0x09) ∧ (cns = 7))
    ∧ (let s : State := (ad 9 1 11 0x300);
      let bank : BitVec 2 := 0;
      let slot : BitVec 14 := 5;
      let c : StoSlot := (adc 9 1 11 0x300);
      let k := bank.toNat * 16384 + slot.toNat;
      let cns := c.dw 10 % 256;
      let has := fun (op : Nat) => s.stoCmd k = some c ∧ c.st = .fetched ∧ c.q = 0 ∧ c.op = op;
      (has 0x09) ∧ (cns = 0x0B) ∧ (c.dw 11 < 2 ^ 32))
    ∧ (let s : State := (ad 9 1 12 0x300);
      let bank : BitVec 2 := 0;
      let slot : BitVec 14 := 5;
      let c : StoSlot := (adc 9 1 12 0x300);
      let k := bank.toNat * 16384 + slot.toNat;
      let cns := c.dw 10 % 256;
      let has := fun (op : Nat) => s.stoCmd k = some c ∧ c.st = .fetched ∧ c.q = 0 ∧ c.op = op;
      (has 0x09) ∧ (cns ≠ 7) ∧ (cns ≠ 0x0B)) := ⟨by decide +kernel,
      by decide +kernel,
      by decide +kernel,
      by decide +kernel,
      by decide +kernel,
      by decide +kernel,
      by decide +kernel,
      by decide +kernel,
      by decide +kernel,
      by decide +kernel⟩

theorem witness_StorageAdmin_2 :
    (let s : State := (ad 10 1 7 0x3003F);
      let bank : BitVec 2 := 0;
      let slot : BitVec 14 := 5;
      let c : StoSlot := (adc 10 1 7 0x3003F);
      let k := bank.toNat * 16384 + slot.toNat;
      let cns := c.dw 10 % 256;
      let has := fun (op : Nat) => s.stoCmd k = some c ∧ c.st = .fetched ∧ c.q = 0 ∧ c.op = op;
      (has 0x0A) ∧ (cns = 7))
    ∧ (let s : State := (ad 10 1 11 0x300);
      let bank : BitVec 2 := 0;
      let slot : BitVec 14 := 5;
      let c : StoSlot := (adc 10 1 11 0x300);
      let k := bank.toNat * 16384 + slot.toNat;
      let cns := c.dw 10 % 256;
      let has := fun (op : Nat) => s.stoCmd k = some c ∧ c.st = .fetched ∧ c.q = 0 ∧ c.op = op;
      (has 0x0A) ∧ (cns = 0x0B))
    ∧ (let s : State := (ad 10 1 12 0x300);
      let bank : BitVec 2 := 0;
      let slot : BitVec 14 := 5;
      let c : StoSlot := (adc 10 1 12 0x300);
      let k := bank.toNat * 16384 + slot.toNat;
      let cns := c.dw 10 % 256;
      let has := fun (op : Nat) => s.stoCmd k = some c ∧ c.st = .fetched ∧ c.q = 0 ∧ c.op = op;
      (has 0x0A) ∧ (cns ≠ 7) ∧ (cns ≠ 0x0B))
    ∧ (let s : State := (ad 5 1 0x3F0001 0x50003);
      let bank : BitVec 2 := 0;
      let slot : BitVec 14 := 5;
      let c : StoSlot := (adc 5 1 0x3F0001 0x50003);
      let k := bank.toNat * 16384 + slot.toNat;
      let n := c.inst;
      let has := fun (op : Nat) => s.stoCmd k = some c ∧ c.st = .fetched ∧ c.q = 0 ∧ c.op = op;
      let qid := c.dw 10 % 2 ^ 16;
      let y := s.nvmeQ n qid;
      let fits := s.qidOk n qid = true ∧ 63 ≤ c.dw 10 / 2 ^ 16 ∧ c.dw 11 % 2 = 1;
      (has 0x05) ∧ (fits) ∧ (y.cq = none))
    ∧ (let s : State := (ad 5 1 0x3F0001 0x50003 .fetched 0 (wq 1 nq1 sbase));
      let bank : BitVec 2 := 0;
      let slot : BitVec 14 := 5;
      let c : StoSlot := (adc 5 1 0x3F0001 0x50003);
      let k := bank.toNat * 16384 + slot.toNat;
      let n := c.inst;
      let has := fun (op : Nat) => s.stoCmd k = some c ∧ c.st = .fetched ∧ c.q = 0 ∧ c.op = op;
      let qid := c.dw 10 % 2 ^ 16;
      let y := s.nvmeQ n qid;
      (has 0x05) ∧ (s.qidOk n qid = true) ∧ (y.cq ≠ none) ∧ (y.cq ≠ some (c.prp1, c.dw 10 / 2 ^ 16 % 2 ^ 16 + 1)))
    ∧ (let s : State := (ad 5 1 0x3F0000 0x50003);
      let bank : BitVec 2 := 0;
      let slot : BitVec 14 := 5;
      let c : StoSlot := (adc 5 1 0x3F0000 0x50003);
      let k := bank.toNat * 16384 + slot.toNat;
      let n := c.inst;
      let has := fun (op : Nat) => s.stoCmd k = some c ∧ c.st = .fetched ∧ c.q = 0 ∧ c.op = op;
      let qid := c.dw 10 % 2 ^ 16;
      (has 0x05) ∧ (s.qidOk n qid = false))
    ∧ (let s : State := (ad 1 1 0x3F0001 0x10001 .fetched 0 (wq 1 {nq1 with sq := none} sbase));
      let bank : BitVec 2 := 0;
      let slot : BitVec 14 := 5;
      let c : StoSlot := (adc 1 1 0x3F0001 0x10001);
      let k := bank.toNat * 16384 + slot.toNat;
      let n := c.inst;
      let has := fun (op : Nat) => s.stoCmd k = some c ∧ c.st = .fetched ∧ c.q = 0 ∧ c.op = op;
      let qid := c.dw 10 % 2 ^ 16;
      let y := s.nvmeQ n qid;
      let cqid := c.dw 11 / 2 ^ 16 % 2 ^ 16;
      let fits := s.qidOk n qid = true ∧ 63 ≤ c.dw 10 / 2 ^ 16 ∧ c.dw 11 % 2 = 1;
      (has 0x01) ∧ (fits) ∧ (y.sq = none) ∧ (s.qidOk n cqid = true) ∧ ((s.nvmeQ n cqid).cq ≠ none))
    ∧ (let s : State := (ad 1 1 0x3F0001 0x20001 .fetched 0 (wq 1 {nq1 with sq := none} sbase));
      let bank : BitVec 2 := 0;
      let slot : BitVec 14 := 5;
      let c : StoSlot := (adc 1 1 0x3F0001 0x20001);
      let k := bank.toNat * 16384 + slot.toNat;
      let n := c.inst;
      let has := fun (op : Nat) => s.stoCmd k = some c ∧ c.st = .fetched ∧ c.q = 0 ∧ c.op = op;
      let qid := c.dw 10 % 2 ^ 16;
      let y := s.nvmeQ n qid;
      let cqid := c.dw 11 / 2 ^ 16 % 2 ^ 16;
      let fits := s.qidOk n qid = true ∧ 63 ≤ c.dw 10 / 2 ^ 16 ∧ c.dw 11 % 2 = 1;
      (has 0x01) ∧ (fits) ∧ (y.sq = none) ∧ (s.qidOk n cqid = false ∨ (s.nvmeQ n cqid).cq = none))
    ∧ (let s : State := (ad 0 1 1 0x20001);
      let bank : BitVec 2 := 0;
      let slot : BitVec 14 := 5;
      let c : StoSlot := (adc 0 1 1 0x20001);
      let k := bank.toNat * 16384 + slot.toNat;
      let has := fun (op : Nat) => s.stoCmd k = some c ∧ c.st = .fetched ∧ c.q = 0 ∧ c.op = op;
      (has 0x00))
    ∧ (let s : State := (ad 4 1 1 0x20001);
      let bank : BitVec 2 := 0;
      let slot : BitVec 14 := 5;
      let c : StoSlot := (adc 4 1 1 0x20001);
      let k := bank.toNat * 16384 + slot.toNat;
      let has := fun (op : Nat) => s.stoCmd k = some c ∧ c.st = .fetched ∧ c.q = 0 ∧ c.op = op;
      (has 0x04)) := ⟨by decide +kernel,
      by decide +kernel,
      by decide +kernel,
      by decide +kernel,
      by decide +kernel,
      by decide +kernel,
      by decide +kernel,
      by decide +kernel,
      by decide +kernel,
      by decide +kernel⟩

theorem witness_StorageAdmin_3 :
    (let s : State := (ad 8 1 1 0x20001);
      let bank : BitVec 2 := 0;
      let slot : BitVec 14 := 5;
      let c : StoSlot := (adc 8 1 1 0x20001);
      let k := bank.toNat * 16384 + slot.toNat;
      let has := fun (op : Nat) => s.stoCmd k = some c ∧ c.st = .fetched ∧ c.q = 0 ∧ c.op = op;
      (has 0x08))
    ∧ (let s : State := (ad 12 1 1 0x20001);
      let bank : BitVec 2 := 0;
      let slot : BitVec 14 := 5;
      let c : StoSlot := (adc 12 1 1 0x20001);
      let k := bank.toNat * 16384 + slot.toNat;
      let n := c.inst;
      let has := fun (op : Nat) => s.stoCmd k = some c ∧ c.st = .fetched ∧ c.q = 0 ∧ c.op = op;
      let qid := c.dw 10 % 2 ^ 16;
      let y := s.nvmeQ n qid;
      let waits := s.slotsWhere (instBank n) (fun x => match x.cmd with | some y => y.inst == n && y.st == .event | none => false);
      (has 0x0C) ∧ (waits.length < 4) ∧ ((s.nvmeCtl n).notices = 0))
    ∧ (let s : State := ((((ad 12 1 1 0x20001).setCmd 9 (some (adc 12 0 0 0 .event))).setCmd 10 (some (adc 12 0 0 0 .event))).setCmd 11 (some (adc 12 0 0 0 .event))|>.setCmd 12 (some (adc 12 0 0 0 .event)));
      let bank : BitVec 2 := 0;
      let slot : BitVec 14 := 5;
      let c : StoSlot := (adc 12 1 1 0x20001);
      let k := bank.toNat * 16384 + slot.toNat;
      let n := c.inst;
      let has := fun (op : Nat) => s.stoCmd k = some c ∧ c.st = .fetched ∧ c.q = 0 ∧ c.op = op;
      let qid := c.dw 10 % 2 ^ 16;
      let y := s.nvmeQ n qid;
      let waits := s.slotsWhere (instBank n) (fun x => match x.cmd with | some y => y.inst == n && y.st == .event | none => false);
      (has 0x0C) ∧ (4 ≤ waits.length))
    ∧ (let s : State := (ad 2 1 1 0x20001 .sent 1);
      let bank : BitVec 2 := 0;
      let slot : BitVec 14 := 5;
      let c : StoSlot := (adc 2 1 1 0x20001 .sent 1);
      let v : BitVec 32 := (5 + 9*0x4000 + 0xA5*0x40000 + 0x8000000);
      let k := bank.toNat * 16384 + slot.toNat;
      (s.reachable (bankChip bank.toNat) = true) ∧ (v.toNat % 2 ^ 14 = slot.toNat) ∧ (s.stoCmd k = some c) ∧ ((s.stoCell k).sgen.toNat = v.toNat / 2 ^ 14 % 16))
    ∧ (let s : State := (ad 2 1 1 0x20001 .sent 1);
      let bank : BitVec 2 := 0;
      let slot : BitVec 14 := 6;
      let v : BitVec 32 := (6 + 9*0x4000 + 0xA5*0x40000 + 0x8000000);
      let k := bank.toNat * 16384 + slot.toNat;
      (s.reachable (bankChip bank.toNat) = true) ∧ (v.toNat % 2 ^ 14 = slot.toNat) ∧ (s.stoCmd k = none ∨ (s.stoCell k).sgen.toNat ≠ v.toNat / 2 ^ 14 % 16))
    ∧ (let s : State := (ad 2 1 1 0x20001 (.ended 1 2 3 1) 1 (wq 1 {nq1 with cqHead := 5} sbase));
      let bank : BitVec 2 := 0;
      let slot : BitVec 14 := 5;
      let c : StoSlot := (adc 2 1 1 0x20001 (.ended 1 2 3 1) 1);
      let x0 : Nat := 0x5000;
      let size : Nat := 64;
      let dw0 : Nat := 1;
      let sct : Nat := 2;
      let sc : Nat := 3;
      let dnr : Nat := 1;
      let k := bank.toNat * 16384 + slot.toNat;
      let n := c.inst;
      let z := s.nvmeQ n (s.nvmeQ n c.q).cqid;
      (s.stoCmd k = some c) ∧ (c.st = .ended dw0 sct sc dnr) ∧ (z.cq = some (x0, size)) ∧ ((z.cqTail + 1) % size ≠ z.cqHead) ∧ (s.insIssues n = true) ∧ (z.ien = false))
    ∧ (let s : State := (ad 2 1 1 0x20001 .sent 1);
      let c : StoSlot := (adc 2 1 1 0x20001 .sent 1);
      let v : BitVec 32 := (5 + 9*0x4000 + 0xA5*0x40000 + 0x8000000);
      (s.reachable (bankChip 0) = true) ∧ (v.toNat % 2 ^ 14 = 5) ∧ (s.stoCmd 5 = some c) ∧ (∀ d a e r, c.st ≠ .ended d a e r)
        ∧ ((s.stoCell 5).sgen.toNat = v.toNat / 2 ^ 14 % 16)) := ⟨by decide +kernel,
      by decide +kernel,
      by decide +kernel,
      by decide +kernel,
      by decide +kernel,
      by decide +kernel,
      ⟨by decide +kernel, by decide +kernel, by decide +kernel, by intro d a e r; exact nofun, by decide +kernel⟩⟩

theorem witness_StorageTransfers_1 :
    (let s : State := (ist ex2 2 4090 7);
      let c : StoSlot := (ic 2 4090 7);
      let ns : Nat := 7;
      let t := stoRange (s.nsRec ns) c.slba c.nlb;
      let pages := prpCount c.prp1 t.2.2.1;
      let calm := s.hbm.dir = [] ∧ s.hbm.home = [] ∧ s.hbm.poison = [] ∧ s.plat.ecc = [] ∧ (List.range 4).all (fun j => s.reachable (2 + j)) = true;
      let good := c.plain = true ∧ s.stoReady = true ∧ s.nsFor c.inst (c.dw 1) = some ns ∧ calm ∧ c.inst < 65536;
      (good) ∧ (3 ≤ pages) ∧ (c.prp2 % 8 = 0) ∧ (pages - 1 ≤ (4096 - c.prp2 % 4096) / 8))
    ∧ (let s : State := (ist ex2 2 4090 7);
      let bank : BitVec 2 := 0;
      let slot : BitVec 14 := 5;
      let c : StoSlot := (ic 2 4090 7);
      let l : List (BitVec 64) := [0x3000,0x5000,0x7000,0x8000, 0x9000, 0xA000,0xB000,0xC000];
      let ns : Nat := 7;
      let k := bank.toNat * 16384 + slot.toNat;
      let has := fun (op : Nat) => s.stoCmd k = some c ∧ c.st = .fetched ∧ c.q ≠ 0 ∧ c.op = op;
      let t := stoRange (s.nsRec ns) c.slba c.nlb;
      let xs := t.1 :: t.2.1.toList;
      let pages := prpCount c.prp1 t.2.2.1;
      let calm := s.hbm.dir = [] ∧ s.hbm.home = [] ∧ s.hbm.poison = [] ∧ s.plat.ecc = [] ∧ (List.range 4).all (fun j => s.reachable (2 + j)) = true;
      let good := c.plain = true ∧ s.stoReady = true ∧ s.nsFor c.inst (c.dw 1) = some ns ∧ calm ∧ c.inst < 65536;
      let room := (s.sideBuf bank.toNat).length < 64;
      let inside := c.slba + c.nlb + 1 ≤ rdAt (s.nsRec ns) 8 8 ∧ t.2.2.1 ≤ 0x100000
          ∧ ∀ x ∈ xs, x < rdAt (s.nsRec ns) 0 4 % 2 ^ 30 + rdAt (s.nsRec ns) 4 4 % 2 ^ 31 ∧ x < 2 ^ 30;
      let got := (s.prpPages c pages (some (l.map BitVec.toNat))).1.getD ([], []);
      let lists := (got.1 ++ got.2).all (fun p => p % 4096 == 0) = true;
      (good) ∧ (room) ∧ (inside) ∧ (lists) ∧ (has 0x02))
    ∧ (let s : State := (ist ex2 1 4090 7);
      let bank : BitVec 2 := 0;
      let slot : BitVec 14 := 5;
      let c : StoSlot := (ic 1 4090 7);
      let l : List (BitVec 64) := [0x3000,0x5000,0x7000,0x8000, 0x9000, 0xA000,0xB000,0xC000];
      let ns : Nat := 7;
      let k := bank.toNat * 16384 + slot.toNat;
      let has := fun (op : Nat) => s.stoCmd k = some c ∧ c.st = .fetched ∧ c.q ≠ 0 ∧ c.op = op;
      let t := stoRange (s.nsRec ns) c.slba c.nlb;
      let xs := t.1 :: t.2.1.toList;
      let pages := prpCount c.prp1 t.2.2.1;
      let calm := s.hbm.dir = [] ∧ s.hbm.home = [] ∧ s.hbm.poison = [] ∧ s.plat.ecc = [] ∧ (List.range 4).all (fun j => s.reachable (2 + j)) = true;
      let good := c.plain = true ∧ s.stoReady = true ∧ s.nsFor c.inst (c.dw 1) = some ns ∧ calm ∧ c.inst < 65536;
      let room := (s.sideBuf bank.toNat).length < 64;
      let inside := c.slba + c.nlb + 1 ≤ rdAt (s.nsRec ns) 8 8 ∧ t.2.2.1 ≤ 0x100000
          ∧ ∀ x ∈ xs, x < rdAt (s.nsRec ns) 0 4 % 2 ^ 30 + rdAt (s.nsRec ns) 4 4 % 2 ^ 31 ∧ x < 2 ^ 30;
      let got := (s.prpPages c pages (some (l.map BitVec.toNat))).1.getD ([], []);
      let lists := (got.1 ++ got.2).all (fun p => p % 4096 == 0) = true;
      let backed := ∀ x ∈ xs, (s.extent x).testBit 63 = true ∧ (s.extent x).testBit 60 = false ∧ (s.extent x).testBit 61 = false;
      (good) ∧ (room) ∧ (inside) ∧ (lists) ∧ (backed) ∧ (has 0x01))
    ∧ (let s : State := (ist ex2 1 8190 2);
      let bank : BitVec 2 := 0;
      let slot : BitVec 14 := 5;
      let c : StoSlot := (ic 1 8190 2);
      let ns : Nat := 7;
      let k := bank.toNat * 16384 + slot.toNat;
      let has := fun (op : Nat) => s.stoCmd k = some c ∧ c.st = .fetched ∧ c.q ≠ 0 ∧ c.op = op;
      let calm := s.hbm.dir = [] ∧ s.hbm.home = [] ∧ s.hbm.poison = [] ∧ s.plat.ecc = [] ∧ (List.range 4).all (fun j => s.reachable (2 + j)) = true;
      let good := c.plain = true ∧ s.stoReady = true ∧ s.nsFor c.inst (c.dw 1) = some ns ∧ calm ∧ c.inst < 65536;
      (good) ∧ (rdAt (s.nsRec ns) 8 8 < c.slba + c.nlb + 1) ∧ (has 0x01))
    ∧ (let s : State := (ist ex2 2 8190 2);
      let bank : BitVec 2 := 0;
      let slot : BitVec 14 := 5;
      let c : StoSlot := (ic 2 8190 2);
      let ns : Nat := 7;
      let k := bank.toNat * 16384 + slot.toNat;
      let has := fun (op : Nat) => s.stoCmd k = some c ∧ c.st = .fetched ∧ c.q ≠ 0 ∧ c.op = op;
      let calm := s.hbm.dir = [] ∧ s.hbm.home = [] ∧ s.hbm.poison = [] ∧ s.plat.ecc = [] ∧ (List.range 4).all (fun j => s.reachable (2 + j)) = true;
      let good := c.plain = true ∧ s.stoReady = true ∧ s.nsFor c.inst (c.dw 1) = some ns ∧ calm ∧ c.inst < 65536;
      (good) ∧ (rdAt (s.nsRec ns) 8 8 < c.slba + c.nlb + 1) ∧ (has 0x02))
    ∧ (let s : State := (ist [(100,okx)] 1 4090 7);
      let bank : BitVec 2 := 0;
      let slot : BitVec 14 := 5;
      let c : StoSlot := (ic 1 4090 7);
      let l : List (BitVec 64) := [];
      let ns : Nat := 7;
      let k := bank.toNat * 16384 + slot.toNat;
      let has := fun (op : Nat) => s.stoCmd k = some c ∧ c.st = .fetched ∧ c.q ≠ 0 ∧ c.op = op;
      let t := stoRange (s.nsRec ns) c.slba c.nlb;
      let xs := t.1 :: t.2.1.toList;
      let pages := prpCount c.prp1 t.2.2.1;
      let calm := s.hbm.dir = [] ∧ s.hbm.home = [] ∧ s.hbm.poison = [] ∧ s.plat.ecc = [] ∧ (List.range 4).all (fun j => s.reachable (2 + j)) = true;
      let good := c.plain = true ∧ s.stoReady = true ∧ s.nsFor c.inst (c.dw 1) = some ns ∧ calm ∧ c.inst < 65536;
      let inside := c.slba + c.nlb + 1 ≤ rdAt (s.nsRec ns) 8 8 ∧ t.2.2.1 ≤ 0x100000
          ∧ ∀ x ∈ xs, x < rdAt (s.nsRec ns) 0 4 % 2 ^ 30 + rdAt (s.nsRec ns) 4 4 % 2 ^ 31 ∧ x < 2 ^ 30;
      let got := (s.prpPages c pages (some (l.map BitVec.toNat))).1.getD ([], []);
      let lists := (got.1 ++ got.2).all (fun p => p % 4096 == 0) = true;
      let holds := (∀ x ∈ xs, (s.extent x).testBit 61 = false) ∧ (s.holdQ bank.toNat).length < 256
          ∧ xs.any (fun x => !(s.extent x).testBit 63 || (s.extent x).testBit 60) = true;
      (good) ∧ (inside) ∧ (lists) ∧ (holds) ∧ (has 0x01))
    ∧ (let s : State := (ist [(100,okx)] 8 4090 7);
      let bank : BitVec 2 := 0;
      let slot : BitVec 14 := 5;
      let c : StoSlot := (ic 8 4090 7);
      let ns : Nat := 7;
      let k := bank.toNat * 16384 + slot.toNat;
      let has := fun (op : Nat) => s.stoCmd k = some c ∧ c.st = .fetched ∧ c.q ≠ 0 ∧ c.op = op;
      let t := stoRange (s.nsRec ns) c.slba c.nlb;
      let xs := t.1 :: t.2.1.toList;
      let calm := s.hbm.dir = [] ∧ s.hbm.home = [] ∧ s.hbm.poison = [] ∧ s.plat.ecc = [] ∧ (List.range 4).all (fun j => s.reachable (2 + j)) = true;
      let good := c.plain = true ∧ s.stoReady = true ∧ s.nsFor c.inst (c.dw 1) = some ns ∧ calm ∧ c.inst < 65536;
      let inside := c.slba + c.nlb + 1 ≤ rdAt (s.nsRec ns) 8 8 ∧ t.2.2.1 ≤ 0x100000
          ∧ ∀ x ∈ xs, x < rdAt (s.nsRec ns) 0 4 % 2 ^ 30 + rdAt (s.nsRec ns) 4 4 % 2 ^ 31 ∧ x < 2 ^ 30;
      let holds := (∀ x ∈ xs, (s.extent x).testBit 61 = false) ∧ (s.holdQ bank.toNat).length < 256
          ∧ xs.any (fun x => !(s.extent x).testBit 63 || (s.extent x).testBit 60) = true;
      (good) ∧ (inside) ∧ (holds) ∧ (has 0x08))
    ∧ (let s : State := (ist ex2 8 4090 7);
      let bank : BitVec 2 := 0;
      let slot : BitVec 14 := 5;
      let c : StoSlot := (ic 8 4090 7);
      let ns : Nat := 7;
      let k := bank.toNat * 16384 + slot.toNat;
      let has := fun (op : Nat) => s.stoCmd k = some c ∧ c.st = .fetched ∧ c.q ≠ 0 ∧ c.op = op;
      let t := stoRange (s.nsRec ns) c.slba c.nlb;
      let xs := t.1 :: t.2.1.toList;
      let calm := s.hbm.dir = [] ∧ s.hbm.home = [] ∧ s.hbm.poison = [] ∧ s.plat.ecc = [] ∧ (List.range 4).all (fun j => s.reachable (2 + j)) = true;
      let good := c.plain = true ∧ s.stoReady = true ∧ s.nsFor c.inst (c.dw 1) = some ns ∧ calm ∧ c.inst < 65536;
      let room := (s.sideBuf bank.toNat).length < 64;
      let inside := c.slba + c.nlb + 1 ≤ rdAt (s.nsRec ns) 8 8 ∧ t.2.2.1 ≤ 0x100000
          ∧ ∀ x ∈ xs, x < rdAt (s.nsRec ns) 0 4 % 2 ^ 30 + rdAt (s.nsRec ns) 4 4 % 2 ^ 31 ∧ x < 2 ^ 30;
      let backed := ∀ x ∈ xs, (s.extent x).testBit 63 = true ∧ (s.extent x).testBit 60 = false ∧ (s.extent x).testBit 61 = false;
      (good) ∧ (room) ∧ (inside) ∧ (backed) ∧ (has 0x08))
    ∧ (let s : State := (ist ex2 0 4090 7);
      let bank : BitVec 2 := 0;
      let slot : BitVec 14 := 5;
      let c : StoSlot := (ic 0 4090 7);
      let ns : Nat := 7;
      let k := bank.toNat * 16384 + slot.toNat;
      let has := fun (op : Nat) => s.stoCmd k = some c ∧ c.st = .fetched ∧ c.q ≠ 0 ∧ c.op = op;
      let calm := s.hbm.dir = [] ∧ s.hbm.home = [] ∧ s.hbm.poison = [] ∧ s.plat.ecc = [] ∧ (List.range 4).all (fun j => s.reachable (2 + j)) = true;
      let good := c.plain = true ∧ s.stoReady = true ∧ s.nsFor c.inst (c.dw 1) = some ns ∧ calm ∧ c.inst < 65536;
      (good) ∧ (has 0x00))
    ∧ (let s : State := (ist ex2 0 4090 7 .flush);
      let bank : BitVec 2 := 0;
      let slot : BitVec 14 := 5;
      let c : StoSlot := (ic 0 4090 7 .flush);
      let k := bank.toNat * 16384 + slot.toNat;
      (s.stoCmd k = some c) ∧ (c.st = .flush) ∧ (s.slotsWhere bank.toNat (s.earlierWrite c) = [])) := ⟨by decide +kernel,
      by decide +kernel,
      by decide +kernel,
      by decide +kernel,
      by decide +kernel,
      by decide +kernel,
      by decide +kernel,
      by decide +kernel,
      by decide +kernel,
      by decide +kernel⟩

theorem witness_StorageTransfers_2 :
    (let s : State := (ist ex2 9 3 7);
      let bank : BitVec 2 := 0;
      let slot : BitVec 14 := 5;
      let c : StoSlot := (ic 9 3 7);
      let ns : Nat := 7;
      let k := bank.toNat * 16384 + slot.toNat;
      let has := fun (op : Nat) => s.stoCmd k = some c ∧ c.st = .fetched ∧ c.q ≠ 0 ∧ c.op = op;
      let calm := s.hbm.dir = [] ∧ s.hbm.home = [] ∧ s.hbm.poison = [] ∧ s.plat.ecc = [] ∧ (List.range 4).all (fun j => s.reachable (2 + j)) = true;
      let good := c.plain = true ∧ s.stoReady = true ∧ s.nsFor c.inst (c.dw 1) = some ns ∧ calm ∧ c.inst < 65536;
      let room := (s.sideBuf bank.toNat).length < 64;
      (good) ∧ (room) ∧ (has 0x09) ∧ ((c.dw 10 % 256 + 1) * 16 ≤ 4096 - c.prp1 % 4096 ∨ c.prp2 % 4096 = 0))
    ∧ (let s : State := ((ist ex2 1 4090 7).setCmd 5 (some {ic 1 4090 7 .held with exts := [100,101]})|>.setHoldQ 0 [5,3]);
      let bank : BitVec 2 := 0;
      let slot : BitVec 14 := 5;
      let c : StoSlot := {ic 1 4090 7 .held with exts := [100,101]};
      let ns : Nat := 7;
      let k := bank.toNat * 16384 + slot.toNat;
      let others := fun (u : State) => ∀ j, j ≠ k → u.stoCell j = s.stoCell j;
      let t := stoRange (s.nsRec ns) c.slba c.nlb;
      let xs := t.1 :: t.2.1.toList;
      let held := fun (u : State) => u.stoCmd k = some { c with ns := some ns, st := .held, exts := xs } ∧ others u ∧ u.cfl = s.cfl
          ∧ u.holdQ bank.toNat = s.holdQ bank.toNat ++ [k];
      (s.stoCmd k = some c) ∧ (c.st = .held) ∧ (∀ x ∈ c.exts, (s.extent x).testBit 63 = true))
    ∧ (let s : State := ((ist [] 1 4090 7).setCmd 5 (some {ic 1 4090 7 .held with exts := [100,101]})|>.setHoldQ 0 [3,5]);
      let bank : BitVec 2 := 0;
      let slot : BitVec 14 := 5;
      let c : StoSlot := {ic 1 4090 7 .held with exts := [100,101]};
      let ns : Nat := 7;
      let k := bank.toNat * 16384 + slot.toNat;
      let others := fun (u : State) => ∀ j, j ≠ k → u.stoCell j = s.stoCell j;
      let t := stoRange (s.nsRec ns) c.slba c.nlb;
      let xs := t.1 :: t.2.1.toList;
      let held := fun (u : State) => u.stoCmd k = some { c with ns := some ns, st := .held, exts := xs } ∧ others u ∧ u.cfl = s.cfl
          ∧ u.holdQ bank.toNat = s.holdQ bank.toNat ++ [k];
      (s.stoCmd k = some c) ∧ (c.st = .held) ∧ (c.exts.any (fun x => !(s.extent x).testBit 63) = true))
    ∧ (let s : State := (ist [(100, okx), (101, okx + 2^61)] 1 4090 7);
      let bank : BitVec 2 := 0;
      let slot : BitVec 14 := 5;
      let c : StoSlot := (ic 1 4090 7);
      let l : List (BitVec 64) := [0x3000,0x5000,0x7000,0x8000, 0x9000, 0xA000,0xB000,0xC000];
      let ns : Nat := 7;
      let k := bank.toNat * 16384 + slot.toNat;
      let has := fun (op : Nat) => s.stoCmd k = some c ∧ c.st = .fetched ∧ c.q ≠ 0 ∧ c.op = op;
      let t := stoRange (s.nsRec ns) c.slba c.nlb;
      let xs := t.1 :: t.2.1.toList;
      let pages := prpCount c.prp1 t.2.2.1;
      let calm := s.hbm.dir = [] ∧ s.hbm.home = [] ∧ s.hbm.poison = [] ∧ s.plat.ecc = [] ∧ (List.range 4).all (fun j => s.reachable (2 + j)) = true;
      let good := c.plain = true ∧ s.stoReady = true ∧ s.nsFor c.inst (c.dw 1) = some ns ∧ calm ∧ c.inst < 65536;
      let inside := c.slba + c.nlb + 1 ≤ rdAt (s.nsRec ns) 8 8 ∧ t.2.2.1 ≤ 0x100000
          ∧ ∀ x ∈ xs, x < rdAt (s.nsRec ns) 0 4 % 2 ^ 30 + rdAt (s.nsRec ns) 4 4 % 2 ^ 31 ∧ x < 2 ^ 30;
      let got := (s.prpPages c pages (some (l.map BitVec.toNat))).1.getD ([], []);
      let lists := (got.1 ++ got.2).all (fun p => p % 4096 == 0) = true;
      (good) ∧ (inside) ∧ (lists) ∧ (xs.any (fun x => (s.extent x).testBit 61) = true) ∧ (has 0x01))
    ∧ (let s : State := (ist ex2 2 4090 7);
      let bank : BitVec 2 := 0;
      let slot : BitVec 14 := 5;
      let c : StoSlot := (ic 2 4090 7);
      let l : List (BitVec 64) := [0x3000,0x5000,0x7010,0x8000, 0x9000, 0xA000,0xB000,0xC000];
      let ns : Nat := 7;
      let k := bank.toNat * 16384 + slot.toNat;
      let has := fun (op : Nat) => s.stoCmd k = some c ∧ c.st = .fetched ∧ c.q ≠ 0 ∧ c.op = op;
      let t := stoRange (s.nsRec ns) c.slba c.nlb;
      let xs := t.1 :: t.2.1.toList;
      let pages := prpCount c.prp1 t.2.2.1;
      let calm := s.hbm.dir = [] ∧ s.hbm.home = [] ∧ s.hbm.poison = [] ∧ s.plat.ecc = [] ∧ (List.range 4).all (fun j => s.reachable (2 + j)) = true;
      let good := c.plain = true ∧ s.stoReady = true ∧ s.nsFor c.inst (c.dw 1) = some ns ∧ calm ∧ c.inst < 65536;
      let inside := c.slba + c.nlb + 1 ≤ rdAt (s.nsRec ns) 8 8 ∧ t.2.2.1 ≤ 0x100000
          ∧ ∀ x ∈ xs, x < rdAt (s.nsRec ns) 0 4 % 2 ^ 30 + rdAt (s.nsRec ns) 4 4 % 2 ^ 31 ∧ x < 2 ^ 30;
      let got := (s.prpPages c pages (some (l.map BitVec.toNat))).1.getD ([], []);
      let lists := (got.1 ++ got.2).all (fun p => p % 4096 == 0) = true;
      (good) ∧ (inside) ∧ (¬lists) ∧ (has 0x02))
    ∧ (let s : State := (((ist ex2 0 4090 7 .flush).setCmd 5 (some {ic 0 4090 7 .flush with ns := some 7})).setCmd 9 (some {ic 1 4090 7 .sent with order := 4, ns := some 7}));
      let bank : BitVec 2 := 0;
      let slot : BitVec 14 := 5;
      let c : StoSlot := {ic 0 4090 7 .flush with ns := some 7};
      let k := bank.toNat * 16384 + slot.toNat;
      (s.stoCmd k = some c) ∧ (c.st = .flush) ∧ (s.slotsWhere bank.toNat (s.earlierWrite c) ≠ []))
    ∧ (let s : State := (ist ex2 2 4090 0);
      let c : StoSlot := (ic 2 4090 0);
      let ns : Nat := 7;
      let t := stoRange (s.nsRec ns) c.slba c.nlb;
      let pages := prpCount c.prp1 t.2.2.1;
      let calm := s.hbm.dir = [] ∧ s.hbm.home = [] ∧ s.hbm.poison = [] ∧ s.plat.ecc = [] ∧ (List.range 4).all (fun j => s.reachable (2 + j)) = true;
      let good := c.plain = true ∧ s.stoReady = true ∧ s.nsFor c.inst (c.dw 1) = some ns ∧ calm ∧ c.inst < 65536;
      (good) ∧ (pages = 2))
    ∧ (let s : State := (nps 0);
      let bank : BitVec 2 := 0;
      let slot : BitVec 14 := 5;
      let c : StoSlot := (npl 0);
      let k := bank.toNat * 16384 + slot.toNat;
      let has := fun (op : Nat) => s.stoCmd k = some c ∧ c.st = .fetched ∧ c.q ≠ 0 ∧ c.op = op;
      (c.plain = false) ∧ (has 0x00))
    ∧ (let s : State := (nps 1);
      let bank : BitVec 2 := 0;
      let slot : BitVec 14 := 5;
      let c : StoSlot := (npl 1);
      let k := bank.toNat * 16384 + slot.toNat;
      let has := fun (op : Nat) => s.stoCmd k = some c ∧ c.st = .fetched ∧ c.q ≠ 0 ∧ c.op = op;
      (c.plain = false) ∧ (has 0x01))
    ∧ (let s : State := (nps 2);
      let bank : BitVec 2 := 0;
      let slot : BitVec 14 := 5;
      let c : StoSlot := (npl 2);
      let k := bank.toNat * 16384 + slot.toNat;
      let has := fun (op : Nat) => s.stoCmd k = some c ∧ c.st = .fetched ∧ c.q ≠ 0 ∧ c.op = op;
      (c.plain = false) ∧ (has 0x02)) := ⟨by decide +kernel,
      by decide +kernel,
      by decide +kernel,
      by decide +kernel,
      by decide +kernel,
      by decide +kernel,
      by decide +kernel,
      by decide +kernel,
      by decide +kernel,
      by decide +kernel⟩

theorem witness_StorageTransfers_3 :
    (let s : State := (nps 8);
      let bank : BitVec 2 := 0;
      let slot : BitVec 14 := 5;
      let c : StoSlot := (npl 8);
      let k := bank.toNat * 16384 + slot.toNat;
      let has := fun (op : Nat) => s.stoCmd k = some c ∧ c.st = .fetched ∧ c.q ≠ 0 ∧ c.op = op;
      (c.plain = false) ∧ (has 0x08))
    ∧ (let s : State := (nps 9);
      let bank : BitVec 2 := 0;
      let slot : BitVec 14 := 5;
      let c : StoSlot := (npl 9);
      let k := bank.toNat * 16384 + slot.toNat;
      let has := fun (op : Nat) => s.stoCmd k = some c ∧ c.st = .fetched ∧ c.q ≠ 0 ∧ c.op = op;
      (c.plain = false) ∧ (has 0x09))
    ∧ (let s : State := (ist ex2 2 4090 7);
      let c : StoSlot := (ic 2 4090 7);
      let l : List Nat := [0x3000,0x5000,0x7000,0x8000,0x9000,0xA000,0xB000,0xC000];
      let t := stoRange (s.nsRec 7) c.slba c.nlb;
      let xs := t.1 :: t.2.1.toList;
      (c.plain = true ∧ s.stoReady = true ∧ s.nsFor c.inst (c.dw 1) = some 7)
        ∧ (c.slba + c.nlb + 1 ≤ rdAt (s.nsRec 7) 8 8 ∧ t.2.2.1 ≤ 0x100000
          ∧ ∀ x ∈ xs, x < rdAt (s.nsRec 7) 0 4 % 2 ^ 30 + rdAt (s.nsRec 7) 4 4 % 2 ^ 31 ∧ x < 2 ^ 30)
        ∧ (∀ i < prpCount c.prp1 t.2.2.1 - 1, l.getD i 0 % 4096 = 0 ∧ l.getD i 0 < 2 ^ 64)
        ∧ (s.stoCmd 5 = some c ∧ c.st = .fetched ∧ c.q ≠ 0 ∧ c.op = 2))
    ∧ (let s : State := (ist ex2 1 4090 7);
      let c : StoSlot := (ic 1 4090 7);
      let l : List Nat := [0x3000,0x5000,0x7000,0x8000,0x9000,0xA000,0xB000,0xC000];
      let t := stoRange (s.nsRec 7) c.slba c.nlb;
      let xs := t.1 :: t.2.1.toList;
      (c.plain = true ∧ s.stoReady = true ∧ s.nsFor c.inst (c.dw 1) = some 7)
        ∧ (c.slba + c.nlb + 1 ≤ rdAt (s.nsRec 7) 8 8 ∧ t.2.2.1 ≤ 0x100000
          ∧ ∀ x ∈ xs, x < rdAt (s.nsRec 7) 0 4 % 2 ^ 30 + rdAt (s.nsRec 7) 4 4 % 2 ^ 31 ∧ x < 2 ^ 30)
        ∧ (∀ i < prpCount c.prp1 t.2.2.1 - 1, l.getD i 0 % 4096 = 0 ∧ l.getD i 0 < 2 ^ 64)
        ∧ (s.stoCmd 5 = some c ∧ c.st = .fetched ∧ c.q ≠ 0 ∧ c.op = 1)
        ∧ (∀ x ∈ xs, (s.extent x).testBit 63 = true ∧ (s.extent x).testBit 60 = false ∧ (s.extent x).testBit 61 = false))
    ∧ (let s : State := (ist [(100,okx)] 1 4090 7);
      let c : StoSlot := (ic 1 4090 7);
      let l : List Nat := [0x3000,0x5000,0x7000,0x8000,0x9000,0xA000,0xB000,0xC000];
      let t := stoRange (s.nsRec 7) c.slba c.nlb;
      let xs := t.1 :: t.2.1.toList;
      (c.plain = true ∧ s.stoReady = true ∧ s.nsFor c.inst (c.dw 1) = some 7)
        ∧ (c.slba + c.nlb + 1 ≤ rdAt (s.nsRec 7) 8 8 ∧ t.2.2.1 ≤ 0x100000
          ∧ ∀ x ∈ xs, x < rdAt (s.nsRec 7) 0 4 % 2 ^ 30 + rdAt (s.nsRec 7) 4 4 % 2 ^ 31 ∧ x < 2 ^ 30)
        ∧ (∀ i < prpCount c.prp1 t.2.2.1 - 1, l.getD i 0 % 4096 = 0 ∧ l.getD i 0 < 2 ^ 64)
        ∧ (s.stoCmd 5 = some c ∧ c.st = .fetched ∧ c.q ≠ 0 ∧ c.op = 1)
        ∧ ((∀ x ∈ xs, (s.extent x).testBit 61 = false) ∧ (s.holdQ 0).length < 256
          ∧ ∃ x ∈ xs, (s.extent x).testBit 63 = false ∨ (s.extent x).testBit 60 = true)) := ⟨by decide +kernel,
      by decide +kernel,
      ⟨by decide +kernel, by decide +kernel, by decide +kernel, by decide +kernel⟩,
      ⟨by decide +kernel, by decide +kernel, by decide +kernel, by decide +kernel, by decide +kernel⟩,
      ⟨by decide +kernel, by decide +kernel, by decide +kernel, by decide +kernel, by decide +kernel⟩⟩

theorem witness_StorageTables :
    (let s : State := (rg [(.STO_CMD_DATA,16,0x12345678),(.STO_CMD_DATA,17,0xFF345678),(.STO_CMD_DATA,31,0x99)] (fl [(F.STO_CMD_IDX.INDEX,1,2^30-1)] (stg [(65536,true), (65537, true)] [(1,[9, 8])])));
      let bank : BitVec 2 := 1;
      let b := bank.toNat;
      let up := s.reachable (bankChip b) = true;
      let full := (s.sto.stage.filter (fun e => e.1 / 65536 == b)).length;
      (up) ∧ (full < 65536))
    ∧ (let s : State := (rg [(.STO_CMD_DATA,16,0x12345678),(.STO_CMD_DATA,17,0xFF345678),(.STO_CMD_DATA,31,0x99)] (fl [(F.STO_CMD_IDX.INDEX,1,2^30-1)] (stg [(65536,true), (65537, true)] [(1,[9, 8])])));
      let bank : BitVec 2 := 1;
      let v : BitVec 32 := 0x1C0000;
      let b := bank.toNat;
      let up := s.reachable (bankChip b) = true;
      let taken := fun (u : State) j => Tbl.get (fun _ => false) u.sto.stage j;
      (up) ∧ (v.toNat < 0x1C0000 ∨ (v.toNat - 0x1C0000) / 65536 ≠ b ∨ taken s (v.toNat - 0x1C0000) = false))
    ∧ (let s : State := (rg [(.STO_CMD_DATA,16,0x12345678),(.STO_CMD_DATA,17,0xFF345678),(.STO_CMD_DATA,31,0x99)] (fl [(F.STO_CMD_IDX.INDEX,1,2^30-1)] (stg [(65536,true), (65537, true)] [(1,[9, 8])])));
      let bank : BitVec 2 := 1;
      let x : Nat := 9;
      let t : List Nat := [8];
      let b := bank.toNat;
      let up := s.reachable (bankChip b) = true;
      (up) ∧ (s.evq b = x :: t))
    ∧ (let s : State := (rg [(.STO_CMD_DATA,16,0x12345678),(.STO_CMD_DATA,17,0xFF345678),(.STO_CMD_DATA,31,0x99)] (fl [(F.STO_CMD_IDX.INDEX,1,2^30-1)] (stg [(65536,true), (65537, true)] [(1,[9, 8])])));
      let bank : BitVec 2 := 1;
      let b := bank.toNat;
      let up := s.reachable (bankChip b) = true;
      let calm := s.hbm.dir = [] ∧ s.hbm.home = [] ∧ s.hbm.poison = [] ∧ s.plat.ecc = [] ∧ (List.range 4).all (fun j => s.reachable (2 + j)) = true;
      (up) ∧ (s.hbmMapped = true) ∧ (s.fld F.STO_CMD_STAT.BUSY b = 0) ∧ (calm))
    ∧ (let s : State := (rg [(.STO_CMD_DATA,16,0x12345678),(.STO_CMD_DATA,17,0xFF345678),(.STO_CMD_DATA,31,0x99)] (fl [(F.STO_CMD_IDX.INDEX,1,7)] (hb ex2 (stg [(65536,true), (65537, true)] [] Z))));
      let bank : BitVec 2 := 1;
      let b := bank.toNat;
      let up := s.reachable (bankChip b) = true;
      (up) ∧ (s.evq b = []))
    ∧ (let s : State := (rg [(.STO_CMD_DATA,16,0x12345678),(.STO_CMD_DATA,17,0xFF345678),(.STO_CMD_DATA,31,0x99)] (fl [(F.STO_CMD_IDX.INDEX,1,7)] (hb ex2 (stg [(65536,true), (65537, true)] [] Z))));
      let bank : BitVec 2 := 1;
      let b := bank.toNat;
      let up := s.reachable (bankChip b) = true;
      (up) ∧ (s.hbmMapped = false) ∧ (s.fld F.STO_CMD_STAT.BUSY b = 0))
    ∧ (let s : State := (stg [(65536,true), (65537, true)] [(1,[9, 8])]);
      let bank : BitVec 2 := 1;
      let v : BitVec 32 := 0x1D0001;
      let x : Nat := 65537;
      let b := bank.toNat;
      let up := s.reachable (bankChip b) = true;
      let taken := fun (u : State) j => Tbl.get (fun _ => false) u.sto.stage j;
      (up) ∧ (v.toNat = 0x1C0000 + x ∧ x / 65536 = b ∧ taken s x = true))
    ∧ (let s : State := (fl [(F.STO_CMD_STAT.BUSY,1,1)] sbase);
      let bank : BitVec 2 := 1;
      let b := bank.toNat;
      let up := s.reachable (bankChip b) = true;
      (up) ∧ (s.fld F.STO_CMD_STAT.BUSY b = 1))
    ∧ (let s : State := fullStage;
      let b : Nat := 1;
      let full := (s.sto.stage.filter (fun e => e.1 / 65536 == b)).length;
      (s.reachable (bankChip b) = true) ∧ (65536 ≤ full)) := ⟨by decide +kernel,
      by decide +kernel,
      by decide +kernel,
      by decide +kernel,
      by decide +kernel,
      by decide +kernel,
      by decide +kernel,
      by decide +kernel,
      ⟨rfl, stage_full⟩⟩

end Sys2Proof.Tests.W10

namespace Sys2Proof.Tests.W11
open Sys2Proof Sys2Proof.Machine Sys2Proof.Tests
set_option Elab.async false

def eb (l : List (Fld × Nat × Nat) := []) (s : State := Z) : State := fl ([(F.HDW_BOOT_STAT.HBM,0,1),(F.HDW_BOOT_STAT.STAGE,0,5),(F.PCI_EP_CFG.PF1_EFF,3,1),(F.PCI_EP_CFG.SPLIT_EFF,3,1),(F.PCI_EP_CFG.TOTALVFS,3,9),
  (F.PCIE_CMD.MSE,fnKey 3 0,1),(F.PCIE_CMD.BME,fnKey 3 0,1),(F.PCIE_CMD.MSE,fnKey 3 pf1Fn,1),(F.PCIE_CMD.BME,fnKey 3 pf1Fn,1),(F.PCIE_RDY.RDY, fnKey 3 0,1),(F.PCIE_RDY.RDY, fnKey 3 pf1Fn,1),(F.PCIE_MSIX_CTL.EN,fnKey 3 0,1)] ++ l) (s.putTrust {s.trust with power := .on})

def vfl : List (Fld × Nat × Nat) := [(F.PCIE_SRIOV.VFE,3,1),(F.PCIE_SRIOV.NUMVFS,3,5),(F.PCIE_RDY.RDY, fnKey 3 2,1),(F.PCIE_CMD.MSE,fnKey 3 2,1),(F.PCIE_CMD.BME,fnKey 3 2,1),(F.PCIE_MSIX_CTL.EN,fnKey 3 2,1),(F.PCI_EP_CFG.VFVEC,3,8),(F.PCI_EP_STAT.LINKA_UP,3,1),(F.PCI_EP_STAT.LINKB_UP,3,1)]

def iv : Nat := 3*1025+2

def vst (n g : Nat) (st : Bool) : Vector_ := {v0 with input := .ring n 4, stamped := st, gen := g, handle := h0}

def stq : State := let s := withFrame fr0 (eb (([(F.RNG_FN_FRZ.STATE,iv,2),(F.RNG_FN_FRZ.GEN,iv,7)]++vfl))); (s.setIntakeQueue 0 3 [vst iv 6 true, vst iv 7 true, vst iv 6 false, vst 9 6 true]).setSide 0 [(2, vst iv 6 true), (3, vst iv 7 true)]

def qe : QEntry := { first := 5, head := 0, len := 100, prep := 0, eddy := false }

def ib (l : List (Fld × Nat × Nat)) : State := rg [(.RNG_FN_IMG,iv,0x10000),(.RNG_FN_IMG_HI,iv,0x10),(.RNG_FN_BW,iv,0xFFFFFFFF)] (eb ([(F.HDW_LC_STAT.LC,0,1)] ++ l ++ vfl))

def ring7 : Ring := {ringReset with t := 9, f := 7, h := 5, pend := some 11, fetch := some 2, desc := [{idx := 5, words := none, st := .busy, ts := none, cells := [], head := 0},{idx := 6, words := none, st := .ready, ts := none, cells := [], head := 0}]}

def rz (s : State) : State := (s.setRing (ringKey iv 0 true) ring7)

def sv : State := ((ib [(F.RNG_FN_FRZ.STATE,iv,4),(F.RNG_FN_FRZ.BUSY,iv,1),(F.RNG_FN_FRZ.GEN,iv,65535),(F.PCIE_MSIX_PBA.PEND,vecKey 3 2 5,1)]))

def atq (n : Nat) : State := let s := eb []; s.putPlat {s.plat with atsWait := (List.range n).map (fun i => (3, 1, i)), ats := [(3, [(0, 77, 5), (0, 78, 6)])]}

def dd9 : DmaDesc := { words := [0x20000040, 0, 77*4096, 0, 0, 0, 0, 3, 0], th := 8, inst := 0, gated := false, failed := false, started := true, down := false, moved := 0, held := none }

def atb : State := let s := fl [(F.PCIE_ATS.EN, fnKey 3 0, 1)] (atq 0); s.setDma 15 {s.dmaCh 15 with act := some dd9}

def tgt : State := (ib [(F.RNG_FN_FRZ.STATE,iv,5)])

def imgB : List Byte := sv.imgBody iv

/-- An image in the target's HBM: the body of `sv` and a tag. -/
def imageState (tag : List Byte) : State := tgt.putHbm { tgt.hbm with mem := Tbl.writeBytes tgt.hbm.mem 0x10000 (imgB ++ tag) }

theorem encRounds_length (ks : List (List Byte)) (s : List Byte) (h : ∀ k ∈ ks, k.length = 16) (hn : ks ≠ []) :
    (encRounds ks s).length = 16 := by
  induction ks generalizing s with
  | nil => exact absurd rfl hn
  | cons k ks ih =>
    cases ks with
    | nil => simp [encRounds, xorBytes, permBytes, shiftRowsIx, h k (by simp)]
    | cons j js => exact ih _ (fun x hx => h x (by simp [hx])) (by simp)

theorem aesEnc_length (key s : List Byte) (h : (aesKeys key).all (fun k => k.length == 16) = true) (hn : 1 < (aesKeys key).length) :
    (aesEnc key s).length = 16 := by
  unfold aesEnc
  split
  · rename_i e; simp [e] at hn
  · rename_i k ks e
    refine encRounds_length ks _ (fun x hx => ?_) (fun e' => ?_)
    · have := List.all_eq_true.mp h x (by simp [e, hx]); simpa using this
    · simp [e, e'] at hn

theorem cmac_length (key m : List Byte) (h : (aesKeys key).all (fun k => k.length == 16) = true) (hn : 1 < (aesKeys key).length) :
    (cmac key m).length = 16 := by
  have go : ∀ (n : Nat) (x m : List Byte) (a b : Nat), x.length = 16 → (cmacChain key a b n x m).length = 16 := by
    intro n
    induction n with
    | zero => intro x m a b hx; exact hx
    | succ n ih =>
      intro x m a b hx
      unfold cmacChain
      split
      · exact aesEnc_length _ _ h hn
      · exact ih _ _ _ _ (aesEnc_length _ _ h hn)
  exact go _ _ _ _ _ (by simp)

theorem rdAt_append (l t : List Byte) (o n : Nat) (h : o + n ≤ l.length) : rdAt (l ++ t) o n = rdAt l o n := by
  unfold rdAt
  rw [List.drop_append_of_le_length (by omega), List.take_append_of_le_length (by simp; omega)]

theorem rdAt_pre (l t : List Byte) (o n v : Nat) (h : o + n ≤ l.length) (hv : rdAt l o n = v) : rdAt (l ++ t) o n = v :=
  (rdAt_append l t o n h).trans hv

theorem imgB_facts : imgB.length = 616 ∧ rdAt imgB 0 4 = 0x494D4731 ∧ rdAt imgB 4 1 = 1 ∧ rdAt imgB 5 1 = 0 ∧ rdAt imgB 6 1 = 1
    ∧ rdAt imgB 0x18 2 = 8 ∧ rdAt imgB 0x1C 4 = 0 ∧ rdAt imgB 8 4 = 632 ∧ bits (rdAt imgB 0x10 8) 35 26 = 0 := by decide +kernel

/-- What the reads of an image test besides the content of HBM does not depend on it. -/
theorem image_env (s : State) (m : Tbl Byte) (n a len : Nat) :
    let t := (s.putHbm { s.hbm with mem := m }).setFld F.RNG_FN_FRZ.BUSY n 0
    let u := s.setFld F.RNG_FN_FRZ.BUSY n 0
    t.imgAddr n = u.imgAddr n ∧ t.imgHbm n len = u.imgHbm n len ∧ t.hbmBad a len = u.hbmBad a len ∧ t.hbmMapped = u.hbmMapped
      ∧ t.fld F.HDW_BOOT_STAT.STAGE 0 = u.fld F.HDW_BOOT_STAT.STAGE 0 ∧ t.plat = u.plat ∧ t.isStorage n = u.isStorage n
      ∧ t.vecCount (instEp n) (instFn n) = u.vecCount (instEp n) (instFn n) ∧ t.dmk = s.dmk ∧ t.hbm.mem = m :=
  ⟨rfl, rfl, rfl, rfl, rfl, rfl, rfl, rfl, rfl, rfl⟩

theorem env_facts : let u := tgt.setFld F.RNG_FN_FRZ.BUSY iv 0
    u.imgAddr iv - hbmBase = 0x10000 ∧ u.imgHbm iv 256 = true ∧ u.imgHbm iv 632 = true ∧ u.hbmBad 0x10000 632 = false ∧ u.hbmMapped = true
      ∧ u.fld F.HDW_BOOT_STAT.STAGE 0 = 5 ∧ u.plat.place.toNat / 1024 = 0 ∧ u.isStorage iv = false
      ∧ u.vecCount (instEp iv) (instFn iv) = 8 := by decide +kernel

/-- The target with another content of HBM: what the image's reads test besides it. -/
theorem tgt_facts (m : Tbl Byte) : let s := (tgt.putHbm { tgt.hbm with mem := m }).setFld F.RNG_FN_FRZ.BUSY iv 0
    s.imgAddr iv - hbmBase = 0x10000 ∧ s.imgHbm iv 256 = true ∧ s.imgHbm iv 632 = true ∧ s.hbmBad 0x10000 632 = false ∧ s.hbmMapped = true
      ∧ s.fld F.HDW_BOOT_STAT.STAGE 0 = 5 ∧ s.plat.place.toNat / 1024 = 0 ∧ s.isStorage iv = false
      ∧ s.vecCount (instEp iv) (instFn iv) = 8 ∧ s.dmk = tgt.dmk ∧ s.hbm.mem = m := by
  obtain ⟨a, b, c, d, e, f, p, q, r⟩ := env_facts
  obtain ⟨a1, b1, -, e1, f1, p1, q1, r1, k, l⟩ := image_env tgt m iv 0x10000 256
  obtain ⟨-, b2, d1, -⟩ := image_env tgt m iv 0x10000 632
  generalize (tgt.putHbm { tgt.hbm with mem := m }).setFld F.RNG_FN_FRZ.BUSY iv 0 = t at *
  generalize tgt.setFld F.RNG_FN_FRZ.BUSY iv 0 = u at *
  exact ⟨by rw [a1, a], b1.trans b, b2.trans c, d1.trans d, e1.trans e, f1.trans f, by rw [p1, p], q1.trans q, r1.trans r, k, l⟩

theorem readBytes_prefix (t : Tbl Byte) (k o n : Nat) (l : List Byte) (h : o + n ≤ l.length) :
    Tbl.readBytes (Tbl.writeBytes t k l) (k + o) n = (l.drop o).take n := by
  apply List.ext_getElem
  · rw [Tbl.length_readBytes]; simp; omega
  intro i h1 h2
  rw [Tbl.length_readBytes] at h1
  have e := Tbl.getD_readBytes (Tbl.writeBytes t k l) (k + o) n i h1
  rw [Tbl.get_writeBytes, if_pos (by omega), show k + o + i - k = o + i by omega] at e
  have hl : o + i < l.length := by omega
  simpa [List.getD_eq_getElem?_getD, h1, hl, Tbl.length_readBytes] using e

theorem image_read (tag : List Byte) (h : tag.length = 16) :
    ((imageState tag).setFld F.RNG_FN_FRZ.BUSY iv 0).imgRead iv = imgB ++ tag := by
  obtain ⟨a, b, c, d, -, -, -, -, -, -, k⟩ := tgt_facts (Tbl.writeBytes tgt.hbm.mem 0x10000 (imgB ++ tag))
  change State.imgRead ((tgt.putHbm { tgt.hbm with mem := Tbl.writeBytes tgt.hbm.mem 0x10000 (imgB ++ tag) }).setFld F.RNG_FN_FRZ.BUSY iv 0) iv = _
  generalize (tgt.putHbm { tgt.hbm with mem := Tbl.writeBytes tgt.hbm.mem 0x10000 (imgB ++ tag) }).setFld F.RNG_FN_FRZ.BUSY iv 0 = u at a b c d k
  have hl : (imgB ++ tag).length = 632 := by rw [List.length_append, imgB_facts.1, h]
  have hn : u.hbmNat (0x10000 + 8) 4 = 632 := by
    rw [State.hbmNat, State.hbmRead, k, readBytes_prefix _ _ _ _ _ (by omega)]
    exact rdAt_pre imgB tag 8 4 632 (by rw [imgB_facts.1]; decide) imgB_facts.2.2.2.2.2.2.2.1
  have hr : u.hbmRead 0x10000 632 = imgB ++ tag := by
    rw [State.hbmRead, k, ← hl, Tbl.readBytes_writeBytes]
  simp only [State.imgRead, a, hn, b, c, d, hr]
  rfl

theorem image_check : let s' := (imageState (cmac tgt.dmk imgB)).setFld F.RNG_FN_FRZ.BUSY iv 0
    s'.imgCheck iv (s'.imgRead iv) = 0 ∧ rdAt (s'.imgRead iv) 0x1C 4 = 0 := by
  have ht : (cmac tgt.dmk imgB).length = 16 := cmac_length _ _ (by decide +kernel) (by decide +kernel)
  obtain ⟨f1, f2, f3, f4, f5, f6, f7, f8, f9⟩ := imgB_facts
  obtain ⟨-, -, -, -, e, f, p, q, r, dk, -⟩ := tgt_facts (Tbl.writeBytes tgt.hbm.mem 0x10000 (imgB ++ cmac tgt.dmk imgB))
  intro s'
  rw [image_read _ ht]
  change s'.hbmMapped = true at e
  change s'.fld F.HDW_BOOT_STAT.STAGE 0 = 5 at f
  change s'.plat.place.toNat / 1024 = 0 at p
  change s'.isStorage iv = false at q
  change s'.vecCount (instEp iv) (instFn iv) = 8 at r
  change s'.dmk = tgt.dmk at dk
  clear_value s'
  generalize hc : cmac tgt.dmk imgB = tag at ht
  have hl : (imgB ++ tag).length = 632 := by rw [List.length_append, f1, ht]
  have hb : (imgB ++ tag).take 616 = imgB := by rw [← f1, List.take_left]
  have hd : (imgB ++ tag).drop 616 = tag := by rw [← f1, List.drop_left]
  have g : ∀ o n v, o + n ≤ 616 → rdAt imgB o n = v → rdAt (imgB ++ tag) o n = v := fun o n v h hv => rdAt_pre _ _ _ _ _ (by rw [f1]; exact h) hv
  have k1 := g 0 4 _ (by decide) f2
  have k2 := g 4 1 _ (by decide) f3
  have k3 := g 5 1 _ (by decide) f4
  have k4 := g 6 1 _ (by decide) f5
  have k5 := g 0x18 2 _ (by decide) f6
  have k6 := g 0x1C 4 _ (by decide) f7
  have k7 : bits (rdAt (imgB ++ tag) 0x10 8) 35 26 = 0 := by rw [g 0x10 8 _ (by decide) rfl, f9]
  have he : (imgB ++ tag).isEmpty = false := by
    cases hx : imgB ++ tag with
    | nil => rw [hx] at hl; exact absurd hl (by decide)
    | cons => rfl
  refine ⟨?_, k6⟩
  have hok : imgLenOk (imgB ++ tag) = true := by simp only [imgLenOk, hl, k4, k5, k6]; decide
  simp only [State.imgCheck, hl, hb, f1, hd, k1, k2, k3, k4, k5, k7, e, f, p, q, r, dk, hc, he, hok]
  simp [b2n]

theorem calm_env (s : State) (m : Tbl Byte) (n : Nat) :
    let t := s.putHbm { s.hbm with mem := m }
    t.insState n = s.insState n ∧ t.hbm.dir = s.hbm.dir ∧ t.hbm.home = s.hbm.home ∧ t.plat = s.plat ∧ t.pipeQ = s.pipeQ :=
  ⟨rfl, rfl, rfl, rfl, rfl⟩

theorem image_calm : let s := imageState (cmac tgt.dmk imgB)
    s.insState iv = 5 ∧ s.hbm.dir = [] ∧ s.hbm.home = [] ∧ s.plat.ecc = [] ∧ (List.range 8).all (fun p => (s.pipeQ p).isEmpty) = true := by
  have h : tgt.insState iv = 5 ∧ tgt.hbm.dir = [] ∧ tgt.hbm.home = [] ∧ tgt.plat.ecc = []
      ∧ (List.range 8).all (fun p => (tgt.pipeQ p).isEmpty) = true := by decide +kernel
  obtain ⟨a, b, c, d, e⟩ := calm_env tgt (Tbl.writeBytes tgt.hbm.mem 0x10000 (imgB ++ cmac tgt.dmk imgB)) iv
  intro s
  change s.insState iv = _ at a
  change s.hbm.dir = _ at b
  change s.hbm.home = _ at c
  change s.plat = _ at d
  change s.pipeQ = _ at e
  clear_value s
  rw [a, b, c, d, e]
  exact h

theorem witness_HostEndpoints_1 :
    (let s : State := ((eb ([(F.PCIE_MSIX_VCTL.MASK,vecKey 3 2 5,1),(F.PCIE_MSIX_PBA.PEND,vecKey 3 2 5,1)]++vfl)));
      let runs := s.endpointsRun = true;
      (runs))
    ∧ (let s : State := ((eb ([(F.PCIE_MSIX_VCTL.MASK,vecKey 3 2 5,1),(F.PCIE_MSIX_PBA.PEND,vecKey 3 2 5,1)]++vfl)));
      let ep : BitVec 5 := 3;
      let e := ep.toNat;
      let up := s.reachable (bankChip (epBank e)) = true;
      let runs := s.endpointsRun = true;
      (runs) ∧ (up) ∧ (s.plat.epBad.getLsbD e = false))
    ∧ (let s : State := ((eb ([(F.PCIE_MSIX_VCTL.MASK,vecKey 3 2 5,1),(F.PCIE_MSIX_PBA.PEND,vecKey 3 2 5,1)]++vfl)));
      let ep : BitVec 5 := 3;
      let e := ep.toNat;
      let up := s.reachable (bankChip (epBank e)) = true;
      let runs := s.endpointsRun = true;
      (runs) ∧ (up) ∧ (s.plat.epBad.getLsbD e = false) ∧ (s.fld F.PCI_EP_CFG.SPLIT_EFF e = 1) ∧ (s.pf1Present e = true))
    ∧ (let s : State := ((eb ([(F.PCIE_MSIX_VCTL.MASK,vecKey 3 2 5,1),(F.PCIE_MSIX_PBA.PEND,vecKey 3 2 5,1)]++vfl)));
      let ep : BitVec 5 := 3;
      let e := ep.toNat;
      (s.fld F.PCI_EP_STAT.LINKA_UP e = 1))
    ∧ (let s : State := ((eb ([(F.PCIE_MSIX_VCTL.MASK,vecKey 3 2 5,1),(F.PCIE_MSIX_PBA.PEND,vecKey 3 2 5,1)]++vfl)));
      let ep : BitVec 5 := 3;
      let e := ep.toNat;
      (s.fld F.PCI_EP_STAT.LINKB_UP e = 1))
    ∧ (let s : State := ((eb ([(F.PCIE_MSIX_VCTL.MASK,vecKey 3 2 5,1),(F.PCIE_MSIX_PBA.PEND,vecKey 3 2 5,1)]++vfl)));
      let ep : BitVec 5 := 3;
      let fn : BitVec 11 := 2;
      let e := ep.toNat;
      let f := fn.toNat;
      let up := s.reachable (bankChip (epBank e)) = true;
      let runs := s.endpointsRun = true;
      (runs) ∧ (up) ∧ (s.fnExists e f = true))
    ∧ (let s : State := ((eb ([(F.PCIE_MSIX_VCTL.MASK,vecKey 3 2 5,1),(F.PCIE_MSIX_PBA.PEND,vecKey 3 2 5,1)]++vfl)));
      let ep : BitVec 5 := 3;
      let e := ep.toNat;
      let up := s.reachable (bankChip (epBank e)) = true;
      let ready := fun g => s.fnExists e g = true ∧ up ∧ s.fld F.PCIE_RDY.RDY (fnKey e g) = 1;
      (ready 0) ∧ (s.fld F.PCIE_SRIOV.VFE e = 1) ∧ (s.fld F.PCIE_SRIOV.NUMVFS e ≤ 1024))
    ∧ (let s : State := ((eb ([(F.PCIE_MSIX_VCTL.MASK,vecKey 3 2 5,1),(F.PCIE_MSIX_PBA.PEND,vecKey 3 2 5,1)]++vfl)));
      let ep : BitVec 5 := 3;
      let fn : BitVec 11 := 2;
      let page : Nat := 77;
      let e := ep.toNat;
      let f := fn.toNat;
      let waits := s.plat.atsWait.filter (fun y => y.1 == e);
      (s.fnExists e f = true) ∧ (f ≠ pf1Fn) ∧ (waits.length < 32) ∧ (s.plat.atsWait = []) ∧ (s.atsBusy e f page = false))
    ∧ (let s : State := ((eb ([(F.PCIE_MSIX_VCTL.MASK,vecKey 3 2 5,1),(F.PCIE_MSIX_PBA.PEND,vecKey 3 2 5,1)]++vfl)));
      let ep : BitVec 5 := 3;
      let fn : BitVec 11 := 2;
      let e := ep.toNat;
      let f := fn.toNat;
      let up := s.reachable (bankChip (epBank e)) = true;
      let ready := fun g => s.fnExists e g = true ∧ up ∧ s.fld F.PCIE_RDY.RDY (fnKey e g) = 1;
      (ready f))
    ∧ (let s : State := ((eb ([(F.PCIE_MSIX_VCTL.MASK,vecKey 3 2 5,1),(F.PCIE_MSIX_PBA.PEND,vecKey 3 2 5,1)]++vfl)));
      let ep : BitVec 5 := 3;
      let fn : BitVec 11 := 2;
      let n : Nat := iv;
      let v : BitVec 32 := 0x12345678;
      let e := ep.toNat;
      let f := fn.toNat;
      let up := s.reachable (bankChip (epBank e)) = true;
      let ready := fun g => s.fnExists e g = true ∧ up ∧ s.fld F.PCIE_RDY.RDY (fnKey e g) = 1;
      (ready f) ∧ (e * 1025 + f = n) ∧ (f ≤ 1024) ∧ (v.toNat < 2 ^ 31 ∨ s.pendingVecs e f = [])) := ⟨by decide +kernel,
      by decide +kernel,
      by decide +kernel,
      by decide +kernel,
      by decide +kernel,
      by decide +kernel,
      by decide +kernel,
      by decide +kernel,
      by decide +kernel,
      by decide +kernel⟩

theorem witness_HostEndpoints_2 :
    (let s : State := ((eb ([(F.PCIE_MSIX_VCTL.MASK,vecKey 3 2 5,1),(F.PCIE_MSIX_PBA.PEND,vecKey 3 2 5,1)]++vfl)));
      let ep : BitVec 5 := 3;
      let fn : BitVec 11 := 2;
      let vec : BitVec 11 := 5;
      let n : Nat := iv;
      let v : BitVec 32 := 0x12345678;
      let e := ep.toNat;
      let f := fn.toNat;
      let k := fnKey e f;
      let x := vecKey e f vec.toNat;
      let enabled := s.fnExists e f = true ∧ vec.toNat < s.vecCount e f ∧ s.fld F.PCIE_MSIX_CTL.EN k = 1;
      let sends := s.fld F.PCIE_MSIX_CTL.FMASK k = 0 ∧ s.mayIssue e f = true
          ∧ (f = pf1Fn ∨ (s.insState (e * 1025 + f) ≠ 3 ∧ s.insState (e * 1025 + f) ≠ 4));
      (enabled) ∧ (sends) ∧ (e * 1025 + f = n) ∧ (f ≤ 1024) ∧ (s.fld F.PCIE_CMD.MSE k = 1) ∧ (s.reachable (instChip n) = true) ∧ (s.fld F.PCIE_MSIX_PBA.PEND x = 1) ∧ (v.toNat % 2 = 0))
    ∧ (let s : State := ((eb ([(F.PCIE_MSIX_VCTL.MASK,vecKey 3 2 5,1),(F.PCIE_MSIX_PBA.PEND,vecKey 3 2 5,1)]++vfl)));
      let ep : BitVec 5 := 3;
      let e := ep.toNat;
      let up := s.reachable (bankChip (epBank e)) = true;
      let bar := s.pf1Present e = true ∧ s.fld F.PCIE_CMD.MSE (fnKey e pf1Fn) = 1 ∧ up;
      (bar))
    ∧ (let s : State := ((eb ([(F.PCIE_MSIX_VCTL.MASK,vecKey 3 2 5,1),(F.PCIE_MSIX_PBA.PEND,vecKey 3 2 5,1)]++vfl)));
      let ep : BitVec 5 := 3;
      let fn : BitVec 11 := 2;
      let vec : BitVec 11 := 5;
      let e := ep.toNat;
      let f := fn.toNat;
      let k := fnKey e f;
      let x := vecKey e f vec.toNat;
      let enabled := s.fnExists e f = true ∧ vec.toNat < s.vecCount e f ∧ s.fld F.PCIE_MSIX_CTL.EN k = 1;
      (enabled) ∧ (s.fld F.PCIE_MSIX_VCTL.MASK x = 1))
    ∧ (let s : State := ((eb ([(F.PCIE_MSIX_VCTL.MASK,vecKey 3 2 5,1),(F.PCIE_MSIX_PBA.PEND,vecKey 3 2 5,1)]++vfl)));
      let ep : BitVec 5 := 3;
      let fn : BitVec 11 := 2;
      let vec : BitVec 11 := 5;
      let e := ep.toNat;
      let f := fn.toNat;
      let k := fnKey e f;
      let x := vecKey e f vec.toNat;
      let enabled := s.fnExists e f = true ∧ vec.toNat < s.vecCount e f ∧ s.fld F.PCIE_MSIX_CTL.EN k = 1;
      let sends := s.fld F.PCIE_MSIX_CTL.FMASK k = 0 ∧ s.mayIssue e f = true
          ∧ (f = pf1Fn ∨ (s.insState (e * 1025 + f) ≠ 3 ∧ s.insState (e * 1025 + f) ≠ 4));
      (enabled) ∧ (sends) ∧ (s.fld F.PCIE_MSIX_PBA.PEND x = 1))
    ∧ (let s : State := (atq 32);
      let ep : BitVec 5 := 3;
      let n : Nat := 9;
      let e := ep.toNat;
      let up := s.reachable (bankChip (epBank e)) = true;
      let ready := fun g => s.fnExists e g = true ∧ up ∧ s.fld F.PCIE_RDY.RDY (fnKey e g) = 1;
      (ready 0) ∧ (s.fld F.PCIE_SRIOV.VFE e = 0) ∧ (n ≤ s.fld F.PCI_EP_CFG.TOTALVFS e))
    ∧ (let s : State := (atq 32);
      let ep : BitVec 5 := 3;
      let e := ep.toNat;
      let waits := s.plat.atsWait.filter (fun y => y.1 == e);
      (32 ≤ waits.length))
    ∧ (let s : State := (atq 32);
      let ep : BitVec 5 := 3;
      let fn : BitVec 11 := 0;
      let obj : List (BitVec 32) := [0x10001, 3, 0x8412];
      let e := ep.toNat;
      let f := fn.toNat;
      let up := s.reachable (bankChip (epBank e)) = true;
      let ready := fun g => s.fnExists e g = true ∧ up ∧ s.fld F.PCIE_RDY.RDY (fnKey e g) = 1;
      let head := (obj.getD 0 0).toNat;
      let object := fun t => ready f ∧ (f = 0 ∨ f = pf1Fn) ∧ 2 ≤ obj.length ∧ obj.length ≤ 1024 ∧ head % 2 ^ 16 = 1 ∧ head / 2 ^ 16 % 2 ^ 8 = t;
      (object 1))
    ∧ (let s : State := (atq 32);
      let ep : BitVec 5 := 3;
      let fn : BitVec 11 := 0;
      let obj : List (BitVec 32) := [0x10001, 3, 0x8412];
      let e := ep.toNat;
      let f := fn.toNat;
      let up := s.reachable (bankChip (epBank e)) = true;
      let ready := fun g => s.fnExists e g = true ∧ up ∧ s.fld F.PCIE_RDY.RDY (fnKey e g) = 1;
      let head := (obj.getD 0 0).toNat;
      let object := fun t => ready f ∧ (f = 0 ∨ f = pf1Fn) ∧ 2 ≤ obj.length ∧ obj.length ≤ 1024 ∧ head % 2 ^ 16 = 1 ∧ head / 2 ^ 16 % 2 ^ 8 = t;
      (object 1) ∧ ((obj.getD 2 0).toNat / 2 ^ 8 % 2 ^ 8 = 0x84))
    ∧ (let s : State := (atq 32);
      let ep : BitVec 5 := 3;
      let fn : BitVec 11 := 0;
      let e := ep.toNat;
      let f := fn.toNat;
      let up := s.reachable (bankChip (epBank e)) = true;
      let ready := fun g => s.fnExists e g = true ∧ up ∧ s.fld F.PCIE_RDY.RDY (fnKey e g) = 1;
      (ready f) ∧ (f = 0 ∨ f = pf1Fn) ∧ (s.pendingVecs e f = []))
    ∧ (let s : State := ((eb).setStage .AP_BASE 55 (some 0xFFFFFFFF));
      let ep : BitVec 5 := 3;
      let n : Nat := 10;
      let e := ep.toNat;
      let up := s.reachable (bankChip (epBank e)) = true;
      let ready := fun g => s.fnExists e g = true ∧ up ∧ s.fld F.PCIE_RDY.RDY (fnKey e g) = 1;
      (ready 0) ∧ (s.fld F.PCIE_SRIOV.VFE e = 0) ∧ (s.fld F.PCI_EP_CFG.TOTALVFS e < n)) := ⟨by decide +kernel,
      by decide +kernel,
      by decide +kernel,
      by decide +kernel,
      by decide +kernel,
      by decide +kernel,
      by decide +kernel,
      by decide +kernel,
      by decide +kernel,
      by decide +kernel⟩

theorem witness_HostEndpoints_3 :
    (let s : State := ((eb).setStage .AP_BASE 55 (some 0xFFFFFFFF));
      let ep : BitVec 5 := 3;
      let a : BitVec 4 := 7;
      let w : BitVec 32 := 0xFFFFFFFF;
      let e := ep.toNat;
      let up := s.reachable (bankChip (epBank e)) = true;
      let bar := s.pf1Present e = true ∧ s.fld F.PCIE_CMD.MSE (fnKey e pf1Fn) = 1 ∧ up;
      (bar) ∧ (s.staged .AP_BASE (e * 16 + a.toNat) = some w))
    ∧ (let s : State := (eb [(F.PCIE_MSIX_VCTL.MASK,vecKey 3 0 5,0)]);
      let ep : BitVec 5 := 3;
      let fn : BitVec 11 := 0;
      let obj : List (BitVec 32) := [1, 2, 0];
      let e := ep.toNat;
      let f := fn.toNat;
      let up := s.reachable (bankChip (epBank e)) = true;
      let ready := fun g => s.fnExists e g = true ∧ up ∧ s.fld F.PCIE_RDY.RDY (fnKey e g) = 1;
      let head := (obj.getD 0 0).toNat;
      let object := fun t => ready f ∧ (f = 0 ∨ f = pf1Fn) ∧ 2 ≤ obj.length ∧ obj.length ≤ 1024 ∧ head % 2 ^ 16 = 1 ∧ head / 2 ^ 16 % 2 ^ 8 = t;
      (object 0))
    ∧ (let s : State := (eb [(F.PCIE_MSIX_VCTL.MASK,vecKey 3 0 5,0)]);
      let ep : BitVec 5 := 3;
      let fn : BitVec 11 := 0;
      let vec : BitVec 11 := 5;
      let e := ep.toNat;
      let f := fn.toNat;
      let k := fnKey e f;
      let x := vecKey e f vec.toNat;
      let enabled := s.fnExists e f = true ∧ vec.toNat < s.vecCount e f ∧ s.fld F.PCIE_MSIX_CTL.EN k = 1;
      let sends := s.fld F.PCIE_MSIX_CTL.FMASK k = 0 ∧ s.mayIssue e f = true
          ∧ (f = pf1Fn ∨ (s.insState (e * 1025 + f) ≠ 3 ∧ s.insState (e * 1025 + f) ≠ 4));
      (enabled) ∧ (sends) ∧ (s.fld F.PCIE_MSIX_VCTL.MASK x = 0))
    ∧ (let s : State := atb;
      let ep : BitVec 5 := 3;
      let fn : BitVec 11 := 0;
      let page : Nat := 77;
      let e := ep.toNat;
      let f := fn.toNat;
      let waits := s.plat.atsWait.filter (fun y => y.1 == e);
      (s.fnExists e f = true) ∧ (f ≠ pf1Fn) ∧ (waits.length < 32) ∧ (s.plat.atsWait = []) ∧ (s.atsBusy e f page = true))
    ∧ (let s : State := Z;
      (s.endpointsRun = false)) := ⟨by decide +kernel,
      by decide +kernel,
      by decide +kernel,
      by decide +kernel,
      by decide +kernel⟩

theorem witness_FunctionResets :
    (let s : State := (eb ([(F.NVME_CC.EN,iv,1),(F.NVME_AQA.ASQS,iv,31),(F.BNK_STO_PERS.STORAGE,iv,1),(F.BNK_STO_PERS.EFFECT,iv,1),(F.RNG_FN_FRZ.STATE,iv,1),(F.RNG_FN_FRZ.GEN,iv,0xFFFF),(F.RING_ARM.ARMED,iv*64+4,1)]++vfl));
      let ep : BitVec 5 := 3;
      let fn : BitVec 11 := 2;
      let e := ep.toNat;
      let f := fn.toNat;
      let up := s.reachable (bankChip (epBank e)) = true;
      let ready := fun g => s.fnExists e g = true ∧ up ∧ s.fld F.PCIE_RDY.RDY (fnKey e g) = 1;
      (ready f) ∧ (1 ≤ f) ∧ (f ≤ 1024) ∧ (s.insState (e * 1025 + f) ≠ 2))
    ∧ (let s : State := (eb ([(F.NVME_CC.EN,iv,1),(F.NVME_AQA.ASQS,iv,31),(F.BNK_STO_PERS.STORAGE,iv,1),(F.BNK_STO_PERS.EFFECT,iv,1),(F.RNG_FN_FRZ.STATE,iv,1),(F.RNG_FN_FRZ.GEN,iv,0xFFFF),(F.RING_ARM.ARMED,iv*64+4,1)]++vfl));
      let ep : BitVec 5 := 3;
      let vf : BitVec 10 := 1;
      let e := ep.toNat;
      let up := s.reachable (bankChip (epBank e)) = true;
      let ready := fun g => s.fnExists e g = true ∧ up ∧ s.fld F.PCIE_RDY.RDY (fnKey e g) = 1;
      (ready (vf.toNat + 1)) ∧ (s.insState (e * 1025 + (vf.toNat + 1)) ≠ 2))
    ∧ (let s : State := (eb ([(F.NVME_CC.EN,iv,1),(F.NVME_AQA.ASQS,iv,31),(F.BNK_STO_PERS.STORAGE,iv,1),(F.BNK_STO_PERS.EFFECT,iv,1),(F.RNG_FN_FRZ.STATE,iv,1),(F.RNG_FN_FRZ.GEN,iv,0xFFFF),(F.RING_ARM.ARMED,iv*64+4,1)]++vfl));
      let n : Nat := iv;
      let v : BitVec 32 := 0;
      (s.fnExists (instEp n) (instFn n) = true) ∧ (s.fld F.PCIE_CMD.MSE (fnKey (instEp n) (instFn n)) = 1) ∧ (s.reachable (instChip n) = true) ∧ (s.isStorage n = true) ∧ (s.fld F.NVME_CC.EN n = 1) ∧ (v.toNat % 2 = 0) ∧ (s.insState n ≠ 2))
    ∧ (let s : State := (eb ([(F.RNG_FN_FRZ.STATE,iv,3)]++vfl));
      let ep : BitVec 5 := 3;
      let fn : BitVec 11 := 2;
      let e := ep.toNat;
      let f := fn.toNat;
      let up := s.reachable (bankChip (epBank e)) = true;
      let ready := fun g => s.fnExists e g = true ∧ up ∧ s.fld F.PCIE_RDY.RDY (fnKey e g) = 1;
      (ready f) ∧ (s.insState (e * 1025 + f) = 3 ∨ s.fld F.RNG_FN_FRZ.BUSY (e * 1025 + f) = 1) ∧ (s.insState (e * 1025 + f) ≠ 2) ∧ (f ≠ pf1Fn) ∧ (1 ≤ f) ∧ (f ≤ 1024))
    ∧ (let s : State := stq;
      let n : Nat := iv;
      (s.insState n = 2) ∧ (s.instQueues n = []) ∧ (s.dmaOut n = false) ∧ (s.orphans n = false))
    ∧ (let s : State := ((fl [(F.CFL_QADM.INSTANCE,7,iv)] stq).setQueue 7 [qe]);
      let n : Nat := iv;
      (s.insState n = 2) ∧ (s.instQueues n ≠ [] ∨ s.dmaOut n = true ∨ s.orphans n = true)) := ⟨by decide +kernel,
      by decide +kernel,
      by decide +kernel,
      by decide +kernel,
      by decide +kernel,
      by decide +kernel⟩

theorem witness_Ferries :
    (let s : State := (eb vfl);
      let n : Nat := iv;
      let v : BitVec 32 := 0x30;
      let host := s.fnExists (instEp n) (instFn n) = true ∧ s.fld F.PCIE_CMD.MSE (fnKey (instEp n) (instFn n)) = 1
          ∧ s.reachable (instChip n) = true ∧ s.insState n ≠ 2;
      let go := v.toNat / 2 ^ 5 % 2 = 1 ∧ 1 ≤ v.toNat % 2 ^ 5 ∧ v.toNat % 2 ^ 5 ≤ 16;
      let isUp := s.fld F.PCI_FRY_UP_STAT.FULL n;
      (host) ∧ (isUp = 0) ∧ (go))
    ∧ (let s : State := (eb vfl);
      let n : Nat := iv;
      let v : BitVec 32 := 0x30;
      let who : Requester := .firmware;
      let host := s.fnExists (instEp n) (instFn n) = true ∧ s.fld F.PCIE_CMD.MSE (fnKey (instEp n) (instFn n)) = 1
          ∧ s.reachable (instChip n) = true ∧ s.insState n ≠ 2;
      let mgr := s.reachable (instChip n) = true ∧ s.insState n ≠ 2;
      let go := v.toNat / 2 ^ 5 % 2 = 1 ∧ 1 ≤ v.toNat % 2 ^ 5 ∧ v.toNat % 2 ^ 5 ≤ 16;
      let isDn := s.fld F.FRY_DN_STAT.FULL n;
      let writer := (match who with | .host _ => false | _ => true) = true;
      (writer) ∧ (mgr) ∧ (isDn = 0) ∧ (go))
    ∧ (let s : State := (eb vfl);
      let n : Nat := iv;
      let host := s.fnExists (instEp n) (instFn n) = true ∧ s.fld F.PCIE_CMD.MSE (fnKey (instEp n) (instFn n)) = 1
          ∧ s.reachable (instChip n) = true ∧ s.insState n ≠ 2;
      (host))
    ∧ (let s : State := (eb vfl);
      let n : Nat := iv;
      let mgr := s.reachable (instChip n) = true ∧ s.insState n ≠ 2;
      (mgr))
    ∧ (let s : State := (eb vfl);
      let n : Nat := iv;
      let host := s.fnExists (instEp n) (instFn n) = true ∧ s.fld F.PCIE_CMD.MSE (fnKey (instEp n) (instFn n)) = 1
          ∧ s.reachable (instChip n) = true ∧ s.insState n ≠ 2;
      let isUp := s.fld F.PCI_FRY_UP_STAT.FULL n;
      (host) ∧ (isUp = 0))
    ∧ (let s : State := (eb vfl);
      let n : Nat := iv;
      let who : Requester := .firmware;
      let host := s.fnExists (instEp n) (instFn n) = true ∧ s.fld F.PCIE_CMD.MSE (fnKey (instEp n) (instFn n)) = 1
          ∧ s.reachable (instChip n) = true ∧ s.insState n ≠ 2;
      let mgr := s.reachable (instChip n) = true ∧ s.insState n ≠ 2;
      let isDn := s.fld F.FRY_DN_STAT.FULL n;
      let writer := (match who with | .host _ => false | _ => true) = true;
      (writer) ∧ (mgr) ∧ (isDn = 0))
    ∧ (let s : State := (eb ([(F.PCI_FRY_UP_STAT.FULL,iv,1),(F.PCI_FRY_UP_STAT.LEN,iv,16),(F.FRY_DN_STAT.FULL,iv,1),(F.FRY_DN_STAT.LEN,iv,9)]++vfl));
      let n : Nat := iv;
      let host := s.fnExists (instEp n) (instFn n) = true ∧ s.fld F.PCIE_CMD.MSE (fnKey (instEp n) (instFn n)) = 1
          ∧ s.reachable (instChip n) = true ∧ s.insState n ≠ 2;
      let isUp := s.fld F.PCI_FRY_UP_STAT.FULL n;
      (host) ∧ (isUp = 1))
    ∧ (let s : State := (eb ([(F.PCI_FRY_UP_STAT.FULL,iv,1),(F.PCI_FRY_UP_STAT.LEN,iv,16),(F.FRY_DN_STAT.FULL,iv,1),(F.FRY_DN_STAT.LEN,iv,9)]++vfl));
      let n : Nat := iv;
      let who : Requester := .firmware;
      let mgr := s.reachable (instChip n) = true ∧ s.insState n ≠ 2;
      let isDn := s.fld F.FRY_DN_STAT.FULL n;
      (who = .firmware) ∧ (mgr) ∧ (isDn = 1))
    ∧ (let s : State := (eb vfl);
      let n : Nat := iv;
      let v : BitVec 32 := 0x30;
      let who : Requester := .firmware;
      (∀ m, who ≠ .host m) ∧ (s.reachable (instChip n) = true ∧ s.insState n ≠ 2) ∧ (s.fld F.FRY_DN_STAT.FULL n = 0)
        ∧ (v.toNat / 2 ^ 5 % 2 = 1 ∧ 1 ≤ v.toNat % 2 ^ 5 ∧ v.toNat % 2 ^ 5 ≤ 16)) := ⟨by decide +kernel,
      by decide +kernel,
      by decide +kernel,
      by decide +kernel,
      by decide +kernel,
      by decide +kernel,
      by decide +kernel,
      by decide +kernel,
      ⟨by intro m; exact nofun, by decide +kernel, by decide +kernel, by decide +kernel⟩⟩

theorem witness_Instances_1 :
    (let s : State := (rz (ib [(F.RNG_FN_FRZ.STATE,iv,3)]));
      let n : Nat := iv;
      let up := s.reachable (instChip n) = true;
      let st := fun (u : State) => u.insState n;
      (up) ∧ (st s ≠ 1))
    ∧ (let s : State := (rz (ib [(F.RNG_FN_FRZ.STATE,iv,3)]));
      let n : Nat := iv;
      let st := fun (u : State) => u.insState n;
      (st s = 3) ∧ (s.quiet n = false))
    ∧ (let s : State := (rz (ib [(F.RNG_FN_FRZ.STATE,iv,3)]));
      let n : Nat := iv;
      let st := fun (u : State) => u.insState n;
      (st s = 3))
    ∧ (let s : State := (rz (ib [(F.RNG_FN_FRZ.STATE,iv,3)]));
      let n : Nat := iv;
      let up := s.reachable (instChip n) = true;
      let st := fun (u : State) => u.insState n;
      (up) ∧ (st s ≠ 4))
    ∧ (let s : State := (rz (ib [(F.RNG_FN_FRZ.STATE,iv,3)]));
      let n : Nat := iv;
      let up := s.reachable (instChip n) = true;
      let st := fun (u : State) => u.insState n;
      (up) ∧ (st s ≠ 0))
    ∧ (let s : State := (rz (ib [(F.RNG_FN_FRZ.STATE,iv,3)]));
      let board : BitVec 3 := 2;
      (s.reachable (boardChip board.toNat) = true))
    ∧ (let s : State := ((ib [(F.RNG_FN_FRZ.STATE,iv,4)]));
      let n : Nat := iv;
      let up := s.reachable (instChip n) = true;
      let st := fun (u : State) => u.insState n;
      let busy := fun (u : State) => u.fld F.RNG_FN_FRZ.BUSY n;
      (up) ∧ (st s = 4) ∧ (busy s = 0) ∧ (s.mayMigrate = true) ∧ (s.imgHbm n (s.imgLen n) = true) ∧ (s.imgLen n ≤ 0x400000))
    ∧ (let s : State := ((ib [(F.RNG_FN_FRZ.STATE,iv,4)]));
      let n : Nat := iv;
      let up := s.reachable (instChip n) = true;
      let st := fun (u : State) => u.insState n;
      let busy := fun (u : State) => u.fld F.RNG_FN_FRZ.BUSY n;
      (up) ∧ (st s = 4) ∧ (busy s = 0))
    ∧ (let s : State := (rz (ib [(F.RNG_FN_FRZ.STATE,iv,1)]));
      let n : Nat := iv;
      let up := s.reachable (instChip n) = true;
      let st := fun (u : State) => u.insState n;
      let busy := fun (u : State) => u.fld F.RNG_FN_FRZ.BUSY n;
      (up) ∧ (st s = 1) ∧ (busy s = 0))
    ∧ (let s : State := ((ib [(F.RNG_FN_FRZ.STATE,iv,3)]));
      let n : Nat := iv;
      let st := fun (u : State) => u.insState n;
      (st s = 3) ∧ (s.quiet n = true)) := ⟨by decide +kernel,
      by decide +kernel,
      by decide +kernel,
      by decide +kernel,
      by decide +kernel,
      by decide +kernel,
      by decide +kernel,
      by decide +kernel,
      by decide +kernel,
      by decide +kernel⟩

theorem witness_Instances_2 :
    (let s : State := imageState (cmac tgt.dmk imgB);
      let n : Nat := iv;
      let st := fun (u : State) => u.insState n;
      let s' := s.setFld F.RNG_FN_FRZ.BUSY n 0;
      let code := s'.imgCheck n (s'.imgRead n);
      let calm := s.hbm.dir = [] ∧ s.hbm.home = [] ∧ s.plat.ecc = [] ∧ (List.range 8).all (fun p => (s.pipeQ p).isEmpty) = true;
      (st s = 5) ∧ (calm) ∧ (code = 0) ∧ (rdAt (s'.imgRead n) 0x1C 4 = 0))
    ∧ (let s : State := (ib [(F.RNG_FN_FRZ.STATE,iv,5),(F.HDW_BOOT_STAT.HBM,0,0)]);
      let n : Nat := iv;
      let st := fun (u : State) => u.insState n;
      let s' := s.setFld F.RNG_FN_FRZ.BUSY n 0;
      let code := s'.imgCheck n (s'.imgRead n);
      let calm := s.hbm.dir = [] ∧ s.hbm.home = [] ∧ s.plat.ecc = [] ∧ (List.range 8).all (fun p => (s.pipeQ p).isEmpty) = true;
      (st s = 5) ∧ (calm) ∧ (code ≠ 0) ∧ (code < 16))
    ∧ (let s : State := (ib []);
      let n : Nat := iv;
      let up := s.reachable (instChip n) = true;
      let st := fun (u : State) => u.insState n;
      let busy := fun (u : State) => u.fld F.RNG_FN_FRZ.BUSY n;
      (up) ∧ (st s = 0) ∧ (busy s = 0) ∧ (s.mayMigrate = true))
    ∧ (let s : State := ((ib [(F.RNG_FN_FRZ.STATE,iv,4),(F.HDW_BOOT_STAT.HBM,0,0)]));
      let n : Nat := iv;
      let up := s.reachable (instChip n) = true;
      let st := fun (u : State) => u.insState n;
      let busy := fun (u : State) => u.fld F.RNG_FN_FRZ.BUSY n;
      (up) ∧ (st s = 4) ∧ (busy s = 0) ∧ (s.mayMigrate = true) ∧ (s.imgHbm n (s.imgLen n) = false))
    ∧ (let s : State := sv;
      let n : Nat := iv;
      let st := fun (u : State) => u.insState n;
      let busy := fun (u : State) => u.fld F.RNG_FN_FRZ.BUSY n;
      let s' := s.setFld F.RNG_FN_FRZ.BUSY n 0;
      let calm := s.hbm.dir = [] ∧ s.hbm.home = [] ∧ s.plat.ecc = [] ∧ (List.range 8).all (fun p => (s.pipeQ p).isEmpty) = true;
      (st s = 4) ∧ (busy s = 1) ∧ (calm) ∧ (s'.imgHbm n (s'.imgLen n) = true) ∧ (s'.imgLen n ≤ 0x400000)) := ⟨⟨image_calm.1, image_calm.2, image_check.1, image_check.2⟩,
      by decide +kernel,
      by decide +kernel,
      by decide +kernel,
      by decide +kernel⟩

end Sys2Proof.Tests.W11

namespace Sys2Proof.Tests.W12
open Sys2Proof Sys2Proof.Machine Sys2Proof.Tests
set_option Elab.async false

def vside : Vector_ := {v0 with input := .ring 7 2}

def iv : Nat := 3*1025+2

def rs (l : List (Fld × Nat × Nat) := []) (s : State := Z) : State := fl ([(F.HDW_BOOT_STAT.HBM,0,1),(F.HDW_BOOT_STAT.STAGE,0,5),(F.PCIE_SRIOV.VFE,3,1),(F.PCIE_SRIOV.NUMVFS,3,5),(F.PCIE_CMD.MSE,(3*2048+2),1),(F.PCIE_CMD.BME,(3*2048+2),1),
  (F.RNG_FN_FRZ.STATE,iv,1),(F.RING_ARM.ARMED,ringIdx iv 0,1),(F.RING_SIZE.TXLOG,ringIdx iv 0,6),(F.RING_SIZE.RXLOG,ringIdx iv 0,7),(F.RING_WRR.WEIGHT,ringIdx iv 0,7),(F.RING_WRR.BURST,ringIdx iv 0,7),(F.RNG_CTL.PREFETCH,0,16)]++l) s

def rng (r : Ring) (rx : Bool) (s : State) : State := s.setRing (ringKey iv 0 rx) r

def r1 : Ring := {ringReset with t := 70, f := 66, h := 65530}

def dd (len : Nat) : List Word := [0x2000, 0, BitVec.ofNat 32 len, 0]

def rd_ (st : DescSt) (len : Nat := 100) (idx : Nat := 5) : RingDesc := {idx := idx, words := some (dd len), st := st, ts := none, cells := if st == .reading then [7] else [], head := 64}

def oi : OutItem := {e := {first := 5, head := 0, len := 100, prep := 0, eddy := false}, cls := 2, queue := 7, ecn := false}

def ws2 : List Word := dd 100 ++ dd 64 ++ dd 300

def rxs : State := fl [(F.CFL_QADM.INSTANCE,7,iv)] (withFrame {fr0 with refs := 1, committed := true, board := none} (bk (fun b => {b with free := 1000, pipe := 3}) (rng {ringReset with t := 1, f := 1, h := 65530, fetch := some 3, desc := [rd_ .ready 64 4, rd_ .reading]} true rs)))|>.setOutQueue (288+3) [oi]

def dws (len : Nat) (w0x w7x : Nat := 0) (dk : Nat := 0) : List Word := [BitVec.ofNat 32 (2 * 2^28 + dk*2^24 + len + w0x), 0, 0x5000, 0, 0x100, 2, 2, BitVec.ofNat 32 (3 + w7x), 0]

def dde (ws : List Word) (st : Bool) (mv : Nat := 0) (dn fl gt : Bool := false) : DmaDesc := { words := ws, th := 8, inst := 0, gated := gt, failed := fl, started := st, down := dn, moved := mv, held := none }

def dst (a : Option DmaDesc) (b : Option DmaDesc := none) (s : State := rs) : State := let s := mm 8 s; s.setDma 15 {s.dmaCh 15 with act := a, shd := b}

theorem witness_Rings_RingDoorbells :
    (let s : State := (rng r1 true (rs []));
      let n : Nat := iv;
      let q : BitVec 6 := 0;
      let rx : Bool := true;
      let v : BitVec 32 := 0x1007D;
      let host := s.fnExists (instEp n) (instFn n) = true ∧ s.fld F.PCIE_CMD.MSE (fnKey (instEp n) (instFn n)) = 1
          ∧ s.reachable (instChip n) = true;
      let k := ringKey n q.toNat rx;
      let r := s.ringOf k;
      let fits := fun z => sub16 r.t r.h ≤ sub16 z r.h ∧ sub16 z r.h < 2 ^ s.ringLog n q.toNat rx;
      (host) ∧ (s.insState n = 1) ∧ (s.hasQueue n q.toNat = true) ∧ (s.armed n q.toNat = true) ∧ (r.pend = none) ∧ (s.bellReady n = true) ∧ (¬ fits (v.toNat % 2 ^ 16)))
    ∧ (let s : State := (rng r1 true (rs []));
      let n : Nat := iv;
      let q : BitVec 6 := 0;
      let v : BitVec 32 := 0x1007D;
      let host := s.fnExists (instEp n) (instFn n) = true ∧ s.fld F.PCIE_CMD.MSE (fnKey (instEp n) (instFn n)) = 1
          ∧ s.reachable (instChip n) = true;
      (host) ∧ (s.armed n q.toNat = true) ∧ (v.toNat % 2 = 1))
    ∧ (let s : State := (rng r1 true (rs []));
      let n : Nat := iv;
      (s.reachable (instChip n) = true))
    ∧ (let s : State := (rng r1 true (rs [(F.RING_ARM.ARMED,ringIdx iv 0,0),(F.RNG_FN_FRZ.STATE,iv,0)]));
      let n : Nat := iv;
      let q : BitVec 6 := 0;
      let host := s.fnExists (instEp n) (instFn n) = true ∧ s.fld F.PCIE_CMD.MSE (fnKey (instEp n) (instFn n)) = 1
          ∧ s.reachable (instChip n) = true;
      (host) ∧ (s.insState n ≠ 2) ∧ (s.armed n q.toNat = false))
    ∧ (let s : State := (rng r1 true (rs [(F.RING_ARM.ARMED,ringIdx iv 0,0),(F.RNG_FN_FRZ.STATE,iv,0)]));
      let n : Nat := iv;
      let q : BitVec 6 := 0;
      let v : BitVec 32 := 0x1007B;
      let host := s.fnExists (instEp n) (instFn n) = true ∧ s.fld F.PCIE_CMD.MSE (fnKey (instEp n) (instFn n)) = 1
          ∧ s.reachable (instChip n) = true;
      (host) ∧ (s.armFits n q.toNat = true) ∧ (s.armed n q.toNat = false) ∧ (s.insState n < 2) ∧ (v.toNat % 2 = 1))
    ∧ (let s : State := (rng {r1 with t := 65530} false rs);
      let n : Nat := iv;
      let q : BitVec 6 := 0;
      let rx : Bool := false;
      let v : BitVec 32 := 57;
      let host := s.fnExists (instEp n) (instFn n) = true ∧ s.fld F.PCIE_CMD.MSE (fnKey (instEp n) (instFn n)) = 1
          ∧ s.reachable (instChip n) = true;
      let k := ringKey n q.toNat rx;
      let r := s.ringOf k;
      let fits := fun z => sub16 r.t r.h ≤ sub16 z r.h ∧ sub16 z r.h < 2 ^ s.ringLog n q.toNat rx;
      (host) ∧ (s.insState n = 1) ∧ (s.hasQueue n q.toNat = true) ∧ (s.armed n q.toNat = true) ∧ (r.pend = none) ∧ (s.bellReady n = true) ∧ (fits (v.toNat % 2 ^ 16)))
    ∧ (let s : State := (rng r1 true (rs [(F.RNG_FN_DBRATE.KDBS,iv,5)]));
      let n : Nat := iv;
      let q : BitVec 6 := 0;
      let rx : Bool := true;
      let host := s.fnExists (instEp n) (instFn n) = true ∧ s.fld F.PCIE_CMD.MSE (fnKey (instEp n) (instFn n)) = 1
          ∧ s.reachable (instChip n) = true;
      let k := ringKey n q.toNat rx;
      let r := s.ringOf k;
      (host) ∧ (s.insState n = 1) ∧ (s.hasQueue n q.toNat = true) ∧ (s.armed n q.toNat = true) ∧ (r.pend = none) ∧ (s.bellReady n = false))
    ∧ (let s : State := (rng {r1 with t := 65530, pend := some 57} false rs);
      let n : Nat := iv;
      let y : Nat := 57;
      let q : BitVec 6 := 0;
      let rx : Bool := false;
      let k := ringKey n q.toNat rx;
      let r := s.ringOf k;
      let fits := fun z => sub16 r.t r.h ≤ sub16 z r.h ∧ sub16 z r.h < 2 ^ s.ringLog n q.toNat rx;
      (s.bellReady n = true) ∧ (s.insState n = 1) ∧ (s.isStorage n = false) ∧ (r.pend = some y) ∧ (fits y)) := ⟨by decide +kernel,
      by decide +kernel,
      by decide +kernel,
      by decide +kernel,
      by decide +kernel,
      by decide +kernel,
      ⟨by decide +kernel, by decide +kernel, by decide +kernel, by decide +kernel, by decide +kernel, bell_empty _ _ (by decide +kernel) (by decide +kernel) (by decide +kernel) (by decide +kernel) (by decide +kernel)⟩,
      by decide +kernel⟩

theorem witness_Rings_RingTransfers :
    (let s : State := (bk (fun b => {b with free := 1000, pipe := 3}) (rng {ringReset with t := 1, f := 1, h := 65530, fetch := some 3, desc := [rd_ .ready 64 4, rd_ .reading]} false rs) |>.putIntake {Z.intake with side := [(0, List.replicate 64 (3, vside))]});
      let n : Nat := iv;
      let c : Nat := 3;
      let q : BitVec 6 := 0;
      let rx : Bool := false;
      let ws : List (BitVec 32) := ws2;
      let data : List (BitVec 8) := by512;
      let k := ringKey n q.toNat rx;
      let r := s.ringOf k;
      let due := fun i data => Tbl.get (fun _ => 0) s.ring.orphan (2 * i + b2n data) = 0;
      (due k false) ∧ (r.fetch = some c) ∧ (∀ i, i < c → rxMalformed ((ws.drop (4 * i)).take 4) = false ∧ txMalformed ((ws.drop (4 * i)).take 4) = false))
    ∧ (let s : State := (bk (fun b => {b with free := 1000, pipe := 3}) (rng {ringReset with t := 1, f := 1, h := 65530, fetch := some 3, desc := [rd_ .ready 64 4, rd_ .reading]} false rs) |>.putIntake {Z.intake with side := [(0, List.replicate 64 (3, vside))]});
      let n : Nat := iv;
      let c : Nat := 3;
      let q : BitVec 6 := 0;
      let rx : Bool := false;
      let data : List (BitVec 8) := by512;
      let k := ringKey n q.toNat rx;
      let r := s.ringOf k;
      let due := fun i data => Tbl.get (fun _ => 0) s.ring.orphan (2 * i + b2n data) = 0;
      (due k false) ∧ (r.fetch = some c))
    ∧ (let s : State := (bk (fun b => {b with free := 1000, pipe := 3}) (rng {ringReset with t := 1, f := 1, h := 65530, fetch := some 3, desc := [rd_ .ready 64 4, rd_ .reading]} false rs) |>.putIntake {Z.intake with side := [(0, List.replicate 64 (3, vside))]});
      let n : Nat := iv;
      let q : BitVec 6 := 0;
      let data : List (BitVec 8) := by512;
      let d : RingDesc := (rd_ .reading);
      let kt := ringKey n q.toNat false;
      let t := s.ringOf kt;
      let due := fun i data => Tbl.get (fun _ => 0) s.ring.orphan (2 * i + b2n data) = 0;
      (due kt true) ∧ (t.firstIn .reading = some d) ∧ (s.sideFull (instBank n) = true))
    ∧ (let s : State := (bk (fun b => {b with free := 1000, pipe := 3}) (rng {ringReset with t := 1, f := 1, h := 65530, fetch := some 3, desc := [rd_ .ready 64 4, rd_ .reading]} false rs) |>.putIntake {Z.intake with side := [(0, List.replicate 64 (3, vside))]});
      let n : Nat := iv;
      let q : BitVec 6 := 0;
      let data : List (BitVec 8) := by512;
      let d : RingDesc := (rd_ .reading);
      let kt := ringKey n q.toNat false;
      let t := s.ringOf kt;
      let due := fun i data => Tbl.get (fun _ => 0) s.ring.orphan (2 * i + b2n data) = 0;
      (due kt true) ∧ (t.firstIn .reading = some d))
    ∧ (let s : State := (rng {ringReset with t := 70, f := 60, h := 60} false rs);
      let n : Nat := iv;
      let q : BitVec 6 := 0;
      let rx : Bool := false;
      let ep := instEp n;
      (s.mayFetch n q.toNat rx = true) ∧ (if rx then s.rxNext ep = some n else s.rxNext ep = none ∧ s.fld F.RNG_FN_CTL.SVC_EFF n = 0))
    ∧ (let s : State := (rng {ringReset with t := 1, f := 1, h := 65530, fetch := some 3, desc := [rd_ .ready]} false rs);
      let n : Nat := iv;
      let cells : Nat := 1;
      let q : BitVec 6 := 0;
      let d : RingDesc := (rd_ .ready);
      let kt := ringKey n q.toNat false;
      let t := s.ringOf kt;
      (s.mayRead n q.toNat = true) ∧ ((s.drrNext n q.toNat).1 = some n) ∧ (t.firstIn .ready = some d) ∧ (cells = cellsFor (s.headroom + d.len)) ∧ (cells + s.fld F.CFL_CELL_FLOOR.CELLS 0 ≤ s.cfl.books.free))
    ∧ (let s : State := (bk (fun b => {b with free := 1000, pipe := 3}) (rng {ringReset with t := 1, f := 1, h := 65530, fetch := some 3, desc := [rd_ .ready 64 4, rd_ .reading]} false rs));
      let n : Nat := iv;
      let q : BitVec 6 := 0;
      let data : List (BitVec 8) := by512;
      let d : RingDesc := (rd_ .reading);
      let kt := ringKey n q.toNat false;
      let t := s.ringOf kt;
      let due := fun i data => Tbl.get (fun _ => 0) s.ring.orphan (2 * i + b2n data) = 0;
      (due kt true) ∧ (t.firstIn .reading = some d) ∧ (s.sideFull (instBank n) = false))
    ∧ (let s : State := rxs;
      let n : Nat := iv;
      let q : BitVec 6 := 0;
      let d : RingDesc := (rd_ .ready 64 4);
      let o : OutItem := oi;
      let f : FrameRec := {fr0 with refs := 1, committed := true, board := none};
      let kr := ringKey n q.toNat true;
      let g := s.ringOf kr;
      (s.insIssues n = true) ∧ (s.insState n ≠ 2) ∧ (s.rxItem n q.toNat = some o) ∧ (g.firstIn .ready = some d) ∧ (s.frame o.e.first = some f) ∧ (s.plat.ecc = []))
    ∧ (let s : State := (rng {ringReset with t := 1, f := 1, h := 5, fetch := some 3, desc := [rd_ (.done 5 99 0) 64 5, rd_ .reading]} true rs);
      let n : Nat := iv;
      let code : Nat := 5;
      let flen : Nat := 99;
      let reason : Nat := 0;
      let q : BitVec 6 := 0;
      let rx : Bool := true;
      let d : RingDesc := (rd_ (.done 5 99 0) 64 5);
      (s.insIssues n = true) ∧ (s.doneDesc n q.toNat rx = some (d, code, flen, reason)) ∧ ((d.dw 2).toNat.testBit 16 = false))
    ∧ (let s : State := (rng {ringReset with t := 70, f := 60, h := 60, credit := 5} false (rs [(F.RNG_FN_CTL.SVC_EFF,iv,1)]));
      let n : Nat := iv;
      let q : BitVec 6 := 0;
      let rx : Bool := false;
      let ep := instEp n;
      (rx = false) ∧ (s.mayFetch n q.toNat rx = true) ∧ (s.rxNext ep = none) ∧ (s.fld F.RNG_FN_CTL.SVC_EFF n = 1) ∧ (s.wrrOver n = false) ∧ (s.wrrPick n = some q.toNat)) := ⟨by decide +kernel,
      by decide +kernel,
      by decide +kernel,
      by decide +kernel,
      by decide +kernel,
      by decide +kernel,
      by decide +kernel,
      by decide +kernel,
      by decide +kernel,
      by decide +kernel⟩

theorem witness_DmaTransfers_1 :
    (let s : State := (dst (some (dde (dws 32) true)) (some (dde (dws 32) false)));
      let ch : Nat := 15;
      let o : Nat := 0x100;
      let ep : Nat := 3;
      let fn : Nat := 2;
      let a : Nat := 0x5000;
      let d : DmaDesc := (dde (dws 32) true);
      let c := s.dmaCh ch;
      let up := s.reachable (boardChip (ch / 128)) = true;
      let inward := c.act = some d ∧ d.runs = true ∧ d.gated = false ∧ up ∧ (d.side false).space = .host ep fn a
          ∧ (d.side true).space = .cluster o ∧ s.dmaMayUse d ep fn = true;
      (inward) ∧ (d.paced = false) ∧ (d.moved = 0))
    ∧ (let s : State := (dst (some (dde (dws 32) true)) (some (dde (dws 32) false)));
      let ch : Nat := 15;
      let o : Nat := 0x100;
      let ep : Nat := 3;
      let fn : Nat := 2;
      let a : Nat := 0x5000;
      let d : DmaDesc := (dde (dws 32) true);
      let c := s.dmaCh ch;
      let up := s.reachable (boardChip (ch / 128)) = true;
      let inward := c.act = some d ∧ d.runs = true ∧ d.gated = false ∧ up ∧ (d.side false).space = .host ep fn a
          ∧ (d.side true).space = .cluster o ∧ s.dmaMayUse d ep fn = true;
      (inward) ∧ (d.paced = false) ∧ (d.moved = 0) ∧ (∀ e, c.shd = some e → e.started = false))
    ∧ (let s : State := (dst (some (dde (dws 32) true)) (some (dde (dws 32) false)));
      let ch : Nat := 15;
      let d : DmaDesc := (dde (dws 32) true);
      let c := s.dmaCh ch;
      let up := s.reachable (boardChip (ch / 128)) = true;
      let may := fun (e : DmaDesc) => e.gated = false ∧ e.held = none;
      (up) ∧ (c.act = some d) ∧ (may d))
    ∧ (let s : State := (dst (some (dde (dws 32) true)) (some (dde (dws 32) false)));
      let ch : Nat := 15;
      let d : DmaDesc := (dde (dws 32) true);
      let c := s.dmaCh ch;
      let up := s.reachable (boardChip (ch / 128)) = true;
      let may := fun (e : DmaDesc) => e.gated = false ∧ e.held = none;
      (up) ∧ (c.act = some d) ∧ (may d) ∧ (∃ e ∈ c.shd.toList, may e))
    ∧ (let s : State := (dst (some (dde (dws 32) true)) (some (dde (dws 32) false)));
      let ch : Nat := 15;
      let o : Nat := 0x100;
      let n : Nat := iv;
      let d : DmaDesc := (dde (dws 32) true);
      let c := s.dmaCh ch;
      (c.act = some d) ∧ (d.runs = true) ∧ (d.gated = false) ∧ ((d.side false).host = some (instEp n, instFn n)) ∧ ((d.side true).space = .cluster o))
    ∧ (let s : State := (dst (some (dde (dws 0) false)));
      let ch : Nat := 15;
      let d : DmaDesc := (dde (dws 0) false);
      let c := s.dmaCh ch;
      let up := s.reachable (boardChip (ch / 128)) = true;
      let idle := c.act = some d ∧ d.started = false ∧ d.held = none ∧ d.failed = false ∧ up;
      (idle) ∧ (s.dmaMalformed d = true) ∧ (d.gated = false))
    ∧ (let s : State := (dst (some (dde (dws 32) false)));
      let ch : Nat := 15;
      let d : DmaDesc := (dde (dws 32) false);
      let c := s.dmaCh ch;
      let up := s.reachable (boardChip (ch / 128)) = true;
      let idle := c.act = some d ∧ d.started = false ∧ d.held = none ∧ d.failed = false ∧ up;
      let plain := [false, true].all (fun e => (d.side e).host.all (fun x => !s.atsOn x.1 x.2)) = true;
      (idle) ∧ (s.dmaMalformed d = false) ∧ (plain) ∧ (sameSpace (d.side false).space (d.side true).space = false))
    ∧ (let s : State := (dst (some (dde (dws 32 (2^21)) true 32)) (some (dde (dws 32) false)));
      let ch : Nat := 15;
      let o : Nat := 0x100;
      let ep : Nat := 3;
      let fn : Nat := 2;
      let a : Nat := 0x5000;
      let d : DmaDesc := (dde (dws 32 (2^21)) true 32);
      let c := s.dmaCh ch;
      let up := s.reachable (boardChip (ch / 128)) = true;
      let inward := c.act = some d ∧ d.runs = true ∧ d.gated = false ∧ up ∧ (d.side false).space = .host ep fn a
          ∧ (d.side true).space = .cluster o ∧ s.dmaMayUse d ep fn = true;
      (inward) ∧ (d.paced = true) ∧ (d.moved = d.len))
    ∧ (let s : State := (dst (some (dde (dws 96 (2^21)) true 64)) (some (dde (dws 32) false)));
      let ch : Nat := 15;
      let o : Nat := 0x100;
      let ep : Nat := 3;
      let fn : Nat := 2;
      let a : Nat := 0x5000;
      let n : Nat := 32;
      let d : DmaDesc := (dde (dws 96 (2^21)) true 64);
      let c := s.dmaCh ch;
      let up := s.reachable (boardChip (ch / 128)) = true;
      let inward := c.act = some d ∧ d.runs = true ∧ d.gated = false ∧ up ∧ (d.side false).space = .host ep fn a
          ∧ (d.side true).space = .cluster o ∧ s.dmaMayUse d ep fn = true;
      (inward) ∧ (d.paced = true) ∧ (d.down = false) ∧ (d.moved < d.len) ∧ (n = min d.burst (d.len - d.moved)) ∧ (s.paceLine d = false))
    ∧ (let s : State := (dst (some (dde (dws 96 (2^21)) true 64)) none (fl [(F.ATL_REQ.LINES,0,255)] rs));
      let ch : Nat := 15;
      let o : Nat := 0x100;
      let ep : Nat := 3;
      let fn : Nat := 2;
      let a : Nat := 0x5000;
      let n : Nat := 32;
      let d : DmaDesc := (dde (dws 96 (2^21)) true 64);
      let c := s.dmaCh ch;
      let up := s.reachable (boardChip (ch / 128)) = true;
      let inward := c.act = some d ∧ d.runs = true ∧ d.gated = false ∧ up ∧ (d.side false).space = .host ep fn a
          ∧ (d.side true).space = .cluster o ∧ s.dmaMayUse d ep fn = true;
      (inward) ∧ (d.paced = true) ∧ (d.down = false) ∧ (d.moved < d.len) ∧ (n = min d.burst (d.len - d.moved)) ∧ (s.paceLine d = true)) := ⟨by decide +kernel,
      by decide +kernel,
      by decide +kernel,
      by decide +kernel,
      by decide +kernel,
      by decide +kernel,
      by decide +kernel,
      by decide +kernel,
      by decide +kernel,
      by decide +kernel⟩

theorem witness_DmaTransfers_2 :
    (let s : State := (dst none);
      let ch : Nat := 15;
      let c := s.dmaCh ch;
      let up := s.reachable (boardChip (ch / 128)) = true;
      (up) ∧ (c.act = none))
    ∧ (let s : State := (dst (some (dde (dws 32) true 7 true true true)));
      let ch : Nat := 15;
      let o : Nat := 0x100;
      let d : DmaDesc := (dde (dws 32) true 7 true true true);
      let c := s.dmaCh ch;
      (c.act = some d) ∧ (d.failed = true) ∧ (c.shd = none) ∧ ((d.side true).space = .cluster o)) := ⟨by decide +kernel,
      by decide +kernel⟩

end Sys2Proof.Tests.W12

namespace Sys2Proof.Tests.W13
open Sys2Proof Sys2Proof.Machine Sys2Proof.Tests
set_option Elab.async false

def oi (cls : Nat := 2) : OutItem := {e := {first := 5, head := 64, len := 100, prep := 0, eddy := false}, cls := cls, queue := 7, ecn := false}

def ff : FrameRec := {fr0 with refs := 1, committed := true, board := none, head := 64}

def lup (l : List (Fld × Nat × Nat) := []) (s : State := Z) : State := fl ([(F.MAC_PORT_CFG.EN,8,1),(F.MAC_PORT_CFG.MAXLEN,8,1522),(F.MAC_PORT_STAT.LINK_UP,8,1),(F.MAC_PORT_STAT.LPI_CAP,8,1),(F.MAC_EEE_CTL.EN,8,1),(F.ATL_CFG.EN,3,1),(F.ATL_CFG.RXCRED,3,9),(F.ATL_STAT.LINK_UP,3,1)]++l) (bk (fun b => {b with free := 1000000}) (withFrame ff s))

def cg (n : Nat) (c : Bool) (cr rq : Nat) : List Byte := let a := List.replicate 12 0 ++ [if c then 0x11 else 0x10,0,0,0,0,0,0,0] ++ beBytes 2 cr ++ beBytes 1 rq ++ [0]; a ++ beBytes 2 (crc16 ((a.drop 12).take 12)) ++ [0,0] ++ by512.take (n-28)

def icl (n : Nat) : FrameRec := {fr0 with input := .port 8, cls := 5, chain := List.range n}

def fcs (m : Nat) (l : List (Fld × Nat × Nat)) (n : Nat) (x : BitVec 8) : State := (withFrame (icl n) (lup ([(F.MAC_FC_CTL.MODE,8,m),(F.MAC_FC_CTL.PFC_EN,8,0xA1),(F.MAC_FC_CTL.QUANTA,8,77),(F.MAC_FC_THR.XOFF,8,50),(F.MAC_FC_THR.XON,8,10),(F.MAC_FC_HELD.HELD,8,0x41)]++l))).setXoff 8 x |>.setFrame 5 (some (icl n))

def roce (n : Nat) : List Byte := [1,2,3,4,5,6,7,8,9,10,11,12,8,0] ++ [0x45,0] ++ beBytes 2 (n-14) ++ [0,0,0x40,0,64,17,0,0,1,2,3,4,5,6,7,8] ++ [0x10,0,0x12,0xB7] ++ beBytes 2 (n-34) ++ [0,0] ++ by512.take (n-42)

theorem witness_LinkFrames_1 :
    (let s : State := (lup);
      let p : BitVec 8 := 8;
      let v : BitVec 32 := 0;
      let i := p.toNat;
      let atNet := s.reachable (bankChip (macBank i)) = true;
      (atNet) ∧ (s.fld F.MAC_PORT_CFG.EN i = 1) ∧ (v.toNat % 2 = 0))
    ∧ (let s : State := (lup);
      let link : MacPort := (.net 8);
      let k := macKey link;
      (s.macUp k = true))
    ∧ (let s : State := (lup);
      let p : BitVec 8 := 8;
      let i := p.toNat;
      (s.macUp i = true) ∧ (s.fld F.MAC_PORT_STAT.LPI_CAP i = 1) ∧ (s.fld F.MAC_EEE_CTL.EN i = 1) ∧ (s.outQueue i = []))
    ∧ (let s : State := (lup);
      let link : MacPort := (.net 8);
      let fr : List (BitVec 8) := (cg 76 false 77 255);
      let k := macKey link;
      let fits := cellsFor (s.headroom + fr.length) + s.fld F.CFL_CELL_FLOOR.CELLS 0 ≤ s.cfl.books.free;
      (s.macUp k = true) ∧ (k < 256 ∨ fr.length < 76) ∧ (fits))
    ∧ (let s : State := (lup);
      let p : BitVec 8 := 8;
      let fr : List (BitVec 8) := (cg 76 false 77 255);
      let i := p.toNat;
      let fits := cellsFor (s.headroom + fr.length) + s.fld F.CFL_CELL_FLOOR.CELLS 0 ≤ s.cfl.books.free;
      let room := fun bank inp => (∀ b, b < 8 → (s.intakeQueue bank b).length < 4096) ∧ s.mayStamp inp = true;
      (s.macUp i = true) ∧ (s.icrcOk (macBank i) fr = true) ∧ (60 ≤ fr.length) ∧ (fr.length ≤ s.fld F.MAC_PORT_CFG.MAXLEN i) ∧ (rdN fr 12 2 ≠ 0x8808) ∧ (fits) ∧ (room (macBank i) (.port p)))
    ∧ (let s : State := (lup);
      let a : BitVec 5 := 3;
      let fr : List (BitVec 8) := (cg 76 false 77 255);
      let fits := cellsFor (s.headroom + fr.length) + s.fld F.CFL_CELL_FLOOR.CELLS 0 ≤ s.cfl.books.free;
      let room := fun bank inp => (∀ b, b < 8 → (s.intakeQueue bank b).length < 4096) ∧ s.mayStamp inp = true;
      (s.macUp (256 + a.toNat) = true) ∧ (76 ≤ fr.length) ∧ (headerGood fr = true) ∧ ((rdN fr 12 1).testBit 0 = false) ∧ (fits) ∧ (s.fld F.ATL_CRED.RXHELD a.toNat < s.fld F.ATL_CFG.RXCRED a.toNat) ∧ (room (macBank (256 + a.toNat)) (.attach a)))
    ∧ (let s : State := (lup);
      let link : MacPort := (.net 8);
      let k := macKey link;
      (s.macUp k = true) ∧ (s.slackHolds k = false) ∧ (s.nextTx k = none))
    ∧ (let s : State := (lup);
      let link : MacPort := (.net 8);
      let k := macKey link;
      (s.reachable (bankChip (macBank k)) = true) ∧ (s.txts k = []))
    ∧ (let s : State := (fl []);
      let p : BitVec 8 := 8;
      let v : BitVec 32 := (0x4005F + 0x10000);
      let i := p.toNat;
      let atNet := s.reachable (bankChip (macBank i)) = true;
      let len := v.toNat / 2 ^ 4 % 2 ^ 14;
      (atNet) ∧ (s.fld F.MAC_PORT_CFG.EN i = 0) ∧ (i % 2 ^ (v.toNat / 2 % 4) = 0) ∧ (64 ≤ len) ∧ (len ≤ 16128))
    ∧ (let s : State := (fl []);
      let a : BitVec 5 := 3;
      let v : BitVec 32 := (0x4005F + 0x10000);
      let atLink := s.reachable (bankChip (macBank (256 + a.toNat))) = true;
      (atLink) ∧ (s.fld F.ATL_CFG.EN a.toNat = 0) ∧ (1 ≤ v.toNat / 2 % 2 ^ 13) ∧ (v.toNat / 2 % 2 ^ 13 ≤ 4096) ∧ (v.toNat / 2 ^ 16 % 2 ^ 8 ≠ 0)) := ⟨by decide +kernel,
      by decide +kernel,
      by decide +kernel,
      by decide +kernel,
      by decide +kernel,
      by decide +kernel,
      by decide +kernel,
      by decide +kernel,
      by decide +kernel,
      by decide +kernel⟩

theorem witness_LinkFrames_2 :
    (let s : State := (fl []);
      let link : MacPort := (.net 8);
      let k := macKey link;
      (s.macUp k = false ∧ s.macEn k = false))
    ∧ (let s : State := (fl []);
      let link : MacPort := (.net 8);
      let k := macKey link;
      (s.macUp k = false))
    ∧ (let s : State := (fl [(F.MAC_PORT_CFG.EN,8,1),(F.ATL_CFG.EN,3,1)]);
      let p : BitVec 8 := 8;
      let v : BitVec 32 := (64*16+3);
      let i := p.toNat;
      let atNet := s.reachable (bankChip (macBank i)) = true;
      (atNet) ∧ (s.fld F.MAC_PORT_CFG.EN i = 1) ∧ (v.toNat % 2 = 1))
    ∧ (let s : State := (fl [(F.MAC_PORT_CFG.EN,8,1),(F.ATL_CFG.EN,3,1)]);
      let link : MacPort := (.attach 3);
      let k := macKey link;
      (s.macUp k = false) ∧ (s.macEn k = true) ∧ (s.mayTrain k = true) ∧ (k < 256 → s.covered k = false))
    ∧ (let s : State := (((lup).setOutQueue 259 [oi 1, oi 3]).setTxts 8 [(255,999999999, 0xFFFFFFFF),(1,2,3)]);
      let link : MacPort := (.attach 3);
      let o : OutItem := (oi 3);
      let f : FrameRec := ff;
      let k := macKey link;
      (s.macUp k = true) ∧ (s.slackHolds k = false) ∧ (s.nextTx k = some o) ∧ (s.frame o.e.first = some f) ∧ (s.plat.ecc = []))
    ∧ (let s : State := (((lup).setOutQueue 259 [oi 1, oi 3]).setTxts 8 [(255,999999999, 0xFFFFFFFF),(1,2,3)]);
      let p : BitVec 8 := 8;
      let id : Nat := 255;
      let ns : Nat := 999999999;
      let sec : Nat := 0xFFFFFFFF;
      let rest : List (Nat × Nat × Nat) := [(1,2,3)];
      let i := p.toNat;
      let atNet := s.reachable (bankChip (macBank i)) = true;
      (atNet) ∧ (s.txts i = (id, ns, sec) :: rest) ∧ (id < 2 ^ 8) ∧ (ns < 2 ^ 32) ∧ (sec < 2 ^ 32))
    ∧ (let s : State := (lup [(F.BNK_PARSE_APP.ROCE,1,0x12B7),(F.BNK_PARSE_APP.ROCE,0,0x12B7)]);
      let p : BitVec 8 := 8;
      let fr : List (BitVec 8) := (roce 80);
      let i := p.toNat;
      let fits := cellsFor (s.headroom + fr.length) + s.fld F.CFL_CELL_FLOOR.CELLS 0 ≤ s.cfl.books.free;
      (s.macUp i = true) ∧ (60 ≤ fr.length) ∧ (fr.length ≤ s.fld F.MAC_PORT_CFG.MAXLEN i) ∧ (s.icrcOk (macBank i) fr = false) ∧ (fits)) := ⟨by decide +kernel,
      by decide +kernel,
      by decide +kernel,
      by decide +kernel,
      by decide +kernel,
      by decide +kernel,
      by decide +kernel⟩

theorem witness_LinkControl :
    (let s : State := (fcs 1 [] 60 0);
      let p : BitVec 8 := 8;
      let i := p.toNat;
      (s.macUp i = true) ∧ (s.fcMode i = 1))
    ∧ (let s : State := (fcs 1 [] 60 0);
      let p : BitVec 8 := 8;
      let i := p.toNat;
      (s.macUp i = true) ∧ (s.fcMode i ≠ 2))
    ∧ (let s : State := (fcs 1 [] 60 0);
      let p : BitVec 8 := 8;
      let c : BitVec 3 := 5;
      let i := p.toNat;
      let r := s.fcScope i c.toNat;
      let acts := s.fcActs i c.toNat = true;
      (acts) ∧ (s.fld F.MAC_FC_THR.XOFF i < r.2) ∧ (s.xoffOf i &&& r.1 = 0))
    ∧ (let s : State := (fcs 1 [] 60 0);
      let a : BitVec 5 := 3;
      let fr : List (BitVec 8) := [];
      let n := a.toNat;
      (s.macUp (256 + n) = true) ∧ (headerGood fr = false) ∧ (fr.length < 76))
    ∧ (let s : State := (fcs 2 [] 60 0xA1);
      let p : BitVec 8 := 8;
      let i := p.toNat;
      (s.macUp i = true) ∧ (s.fcMode i = 2))
    ∧ (let s : State := (fcs 2 [] 60 0xA1);
      let p : BitVec 8 := 8;
      let c : BitVec 3 := 5;
      let i := p.toNat;
      let r := s.fcScope i c.toNat;
      let acts := s.fcActs i c.toNat = true;
      (acts) ∧ (s.fld F.MAC_FC_THR.XON i < r.2) ∧ (s.xoffOf i &&& r.1 ≠ 0))
    ∧ (let s : State := (fcs 2 [] 60 0xA1);
      let a : BitVec 5 := 3;
      let fr : List (BitVec 8) := (cg 60 true 65535 0xFF);
      let n := a.toNat;
      (s.macUp (256 + n) = true) ∧ (headerGood fr = true) ∧ ((rdN fr 12 1).testBit 1 = false))
    ∧ (let s : State := ((lup).setCred 3 {ret := 65530, due := 9, last := some 7, sent := 5});
      let p : BitVec 8 := 8;
      let c : BitVec 3 := 5;
      let i := p.toNat;
      (s.fcActs i c.toNat = false))
    ∧ (let s : State := ((lup).setCred 3 {ret := 65530, due := 9, last := some 7, sent := 5});
      let a : BitVec 5 := 3;
      let n := a.toNat;
      (s.macUp (256 + n) = true) ∧ (0 < (s.credBook n).due) ∧ (s.outQueue (256 + n) = []) ∧ (s.slackHolds (256 + n) = false))
    ∧ (let s : State := (fcs 1 [] 9 0xFF);
      let p : BitVec 8 := 8;
      let c : BitVec 3 := 5;
      let i := p.toNat;
      let r := s.fcScope i c.toNat;
      let acts := s.fcActs i c.toNat = true;
      (acts) ∧ (r.2 ≤ s.fld F.MAC_FC_THR.XON i) ∧ (s.xoffOf i &&& r.1 ≠ 0)) := ⟨by decide +kernel,
      by decide +kernel,
      by decide +kernel,
      by decide +kernel,
      by decide +kernel,
      by decide +kernel,
      by decide +kernel,
      by decide +kernel,
      by decide +kernel,
      by decide +kernel⟩

end Sys2Proof.Tests.W13

namespace Sys2Proof.Tests.W13b
open Sys2Proof Sys2Proof.Machine Sys2Proof.Tests
set_option Elab.async false

def pl (n : BitVec 20) (s : State) : State := s.putPlat {s.plat with place := n}

def sl (k : Nat) (x : SlackSt) (m : Nat) (now : Nat := 5000000000) (l : List (Fld × Nat × Nat) := []) : State :=
  let s := fl ([(F.MAC_PORT_CFG.EN,8,1),(F.MAC_PORT_STAT.LINK_UP,8,1),(F.ATL_CFG.EN,3,1),(F.ATL_STAT.LINK_UP,3,1),(F.MAC_SLACK_CTL.EN,8,1),(F.MAC_SLACK_CTL.GROUP,8,9),(F.MAC_SLACK_CTL.GUARD,8,1000),
    (F.ATL_SLACK_CTL.EN,3,1),(F.ATL_SLACK_CTL.GROUP,3,9),(F.ATL_SLACK_CTL.GUARD,3,1000),(F.TTB_SLOT_W0.VALID,77,1),(F.TTB_SLOT_W0.CLASS,77,7),(F.TTB_SLOT_W1.ARG,77,9),(F.TTB_SLOT_W1.LEN,77,11),(F.TTB_CTL.LOG2_LEN,0,10),
    (F.POL_CUR.VALUE,25,4),(F.POL_CUR.VALUE,62,4)]++l) Z
  let s := (pl 500 (tm (fun t => {t with now := now}) s))
  let s := s.setSlack k x
  s.setSlackMode k m

def tl (o a w : Bool) (p oo d g st sk pla : Nat) : SlackTlv := {offer := o, accept := a, withdraw := w, capable := true, p := p, o := oo, d := d, g := g, start := st, skip := sk, place := pla}

def cs (g st sk : Nat) : SlackSched := {p := 4194304, o := 315392, d := 49152, g := g, start := st, skip := sk}

def wn (e j a st : Bool) : SlackWin := {m := 1000, began := 4194619392, ends := 4194619392+49152, woken := false, ended := e, judged := j, aligned := a, stepped := st}

def tt := tl true false false 4194304 315392 49152 5000 2000 4 77

def sw (ended aligned judged : Bool) (mode run now : Nat) (k : Nat := 8): State := ((sl k {slackReset with agreed := some (cs 1000 0 4), win := some (wn ended judged aligned false)} mode now).setSlackRun k run)

def ww (n p : Nat) (c r : Bool) (recs : List DiscRec) : DiscWalk := {next := n, probes := p, recs := recs, changed := c, rerun := r}

def dk (w : Option DiscWalk) (kn : Nat := 0): State := (sl 8 slackReset 0).putLink {Z.link with walk := w, known := [(3, kn)]}

def rr : DiscRec := {up := true, answered := true, fenced := false, slack := true, roles := 255, boardId := 65535, ver := 0xFFFFFFFF}

theorem witness_SlackWater_1 :
    (let s : State := (sw false false false 3 6 4195669544);
      let link : MacPort := (.net 8);
      let k := macKey link;
      let up := s.macUp k = true;
      let on := s.slackEn k = true;
      (up) ∧ (on) ∧ (s.proposes k = false))
    ∧ (let s : State := (sw false false false 3 6 4195669544);
      let link : MacPort := (.net 8);
      let t : SlackTlv := tt;
      let k := macKey link;
      let up := s.macUp k = true;
      let skip := fun (u : State) => u.fld (macF k F.MAC_SLACK_STAT.SKIP F.ATL_SLACK_STAT.SKIP) (macI k);
      (up) ∧ (t.withdraw = false) ∧ (t.offer = true) ∧ (s.canKeep k t = true) ∧ (t.skip < 256))
    ∧ (let s : State := (sw false false false 3 6 4195669544);
      let link : MacPort := (.net 8);
      let k := macKey link;
      let st := fun (u : State) => u.slackSt k;
      ((st s).offer = none))
    ∧ (let s : State := (sw false false false 3 6 4195669544);
      let link : MacPort := (.net 8);
      let k := macKey link;
      let up := s.macUp k = true;
      let on := s.slackEn k = true;
      (up) ∧ (on) ∧ (s.slackMode k ≠ 0))
    ∧ (let s : State := (sw false false false 3 6 4195669544);
      let link : MacPort := (.net 8);
      let w : SlackWin := (wn false false false false);
      let k := macKey link;
      let st := fun (u : State) => u.slackSt k;
      ((st s).win = some w) ∧ (s.slackReached k w 2000 = true))
    ∧ (let s : State := (sw false false false 3 6 4195669544);
      let link : MacPort := (.net 8);
      let c : SlackSched := (cs 1000 0 4);
      let w : SlackWin := (wn false false false false);
      let k := macKey link;
      let st := fun (u : State) => u.slackSt k;
      ((st s).win = some w) ∧ (s.slackReached k w 0 = true) ∧ ((st s).agreed = some c))
    ∧ (let s : State := (sw false false false 3 6 4195669544);
      let link : MacPort := (.net 8);
      let c : SlackSched := (cs 1000 0 4);
      let w : SlackWin := (wn false false false false);
      let k := macKey link;
      let st := fun (u : State) => u.slackSt k;
      let run := fun (u : State) => u.fld (macF k F.MAC_SLACK_STAT.RUN F.ATL_SLACK_STAT.RUN) (macI k);
      let skip := fun (u : State) => u.fld (macF k F.MAC_SLACK_STAT.SKIP F.ATL_SLACK_STAT.SKIP) (macI k);
      let ended := fun (u : State) => (st u).offer = none ∧ (st u).agreed = none ∧ u.slackMode k = 0 ∧ run u = 0 ∧ skip u = 0
          ∧ (st u).win = (st s).win;
      let live := (st s).win = some w ∧ w.judged = false ∧ w.aligned = false ∧ w.stepped = false ∧ (st s).agreed = some c;
      (live) ∧ (w.ended = false))
    ∧ (let s : State := (sw false false false 3 6 4195669544);
      let link : MacPort := (.net 8);
      let c : SlackSched := (cs 1000 0 4);
      let w : SlackWin := (wn false false false false);
      let k := macKey link;
      let now := s.replica (bankChip (macBank k));
      let st := fun (u : State) => u.slackSt k;
      let live := (st s).win = some w ∧ w.judged = false ∧ w.aligned = false ∧ w.stepped = false ∧ (st s).agreed = some c;
      (live) ∧ (w.ends + c.g ≤ now))
    ∧ (let s : State := (sw false false false 3 6 4195669544);
      let link : MacPort := (.net 8);
      let w : SlackWin := (wn false false false false);
      let k := macKey link;
      let up := s.macUp k = true;
      let now := s.replica (bankChip (macBank k));
      let st := fun (u : State) => u.slackSt k;
      ((st s).win = some w) ∧ (w.aligned = false) ∧ (up) ∧ (w.ends + 1000000 ≤ now))
    ∧ (let s : State := (sl 8 {slackReset with place := some 1000} 0);
      let link : MacPort := (.net 8);
      let x : Nat × Nat × Nat := (4194304,315392,49152);
      let k := macKey link;
      let up := s.macUp k = true;
      let on := s.slackEn k = true;
      let st := fun (u : State) => u.slackSt k;
      (up) ∧ (on) ∧ (s.proposes k = true) ∧ (s.slackOffered k ≠ 0) ∧ (s.groupSchedule (s.slackGroup k) = some x) ∧ ((st s).agreed = none) ∧ (0 < x.1) ∧ (s.slackMode k = 0)) := ⟨by decide +kernel,
      by decide +kernel,
      by decide +kernel,
      by decide +kernel,
      ⟨by decide +kernel, slack_in _ _ _ _ (by decide +kernel)⟩,
      ⟨by decide +kernel, slack_in _ _ _ _ (by decide +kernel), by decide +kernel⟩,
      by decide +kernel,
      ⟨by decide +kernel, le_replica _ _ _ (by decide +kernel)⟩,
      ⟨by decide +kernel, by decide +kernel, by decide +kernel, le_replica _ _ _ (by decide +kernel)⟩,
      by decide +kernel⟩

theorem witness_SlackWater_2 :
    (let s : State := (sl 8 {slackReset with place := some 1000} 0);
      let link : MacPort := (.net 8);
      let t : SlackTlv := {tt with place := 1000};
      let k := macKey link;
      let up := s.macUp k = true;
      let on := s.slackEn k = true;
      (up) ∧ (t.withdraw = false) ∧ (t.offer = true) ∧ (s.canKeep k t = false) ∧ (on))
    ∧ (let s : State := (sl 8 {slackReset with offer := some (cs 1000 5000 4)} 1);
      let link : MacPort := (.net 8);
      let t : SlackTlv := {tt with accept := true, offer := false, start := 5000};
      let c : SlackSched := (cs 1000 5000 4);
      let k := macKey link;
      let on := s.slackEn k = true;
      let now := s.replica (bankChip (macBank k));
      let st := fun (u : State) => u.slackSt k;
      let skip := fun (u : State) => u.fld (macF k F.MAC_SLACK_STAT.SKIP F.ATL_SLACK_STAT.SKIP) (macI k);
      ((st s).offer = some c) ∧ (on) ∧ (tlvEchoes t c = true) ∧ (now + 100000 < c.start * c.p + c.o) ∧ (c.skip < 256))
    ∧ (let s : State := (sl 8 {slackReset with agreed := some (cs 1000 0 4)} 1);
      let link : MacPort := (.net 8);
      let c : SlackSched := (cs 1000 0 4);
      let k := macKey link;
      let now := s.replica (bankChip (macBank k));
      let st := fun (u : State) => u.slackSt k;
      ((st s).agreed = some c) ∧ (s.slackMode k = 1) ∧ ((st s).offer = none) ∧ (c.start * c.p + c.o ≤ now))
    ∧ (let s : State := (sl 8 {slackReset with win := some (wn false false false false)} 2 4194619392);
      let link : MacPort := (.net 8);
      let w : SlackWin := (wn false false false false);
      let k := macKey link;
      let st := fun (u : State) => u.slackSt k;
      ((st s).win = some w) ∧ (s.slackReached k w 0 = false))
    ∧ (let s : State := (sl 8 {slackReset with place := some 1000} 0 5000000000 [(F.MAC_SLACK_CTL.EN,8,0)]);
      let link : MacPort := (.net 8);
      let k := macKey link;
      let up := s.macUp k = true;
      (up) ∧ (s.slackEn k = false)) := ⟨by decide +kernel,
      ⟨by decide +kernel, by decide +kernel, by decide +kernel, replica_lt _ _ _ _ (by decide +kernel), by decide +kernel⟩,
      ⟨by decide +kernel, by decide +kernel, by decide +kernel, le_replica _ _ _ (by decide +kernel)⟩,
      ⟨by decide +kernel, slack_out _ _ _ _ (by decide +kernel) (by decide +kernel)⟩,
      by decide +kernel⟩

theorem witness_DiscoveryWalks :
    (let s : State := (dk (some (ww 3 1 false false [])) 7);
      (s.reachable 0 = true) ∧ (s.link.walk ≠ none))
    ∧ (let s : State := (dk (some (ww 3 1 false false [])) 7);
      let w : DiscWalk := (ww 3 1 false false []);
      (s.link.walk = some w) ∧ (w.probes = 1) ∧ (w.next < 32) ∧ (s.macUp (256 + w.next) = true))
    ∧ (let s : State := (dk (some (ww 3 1 false false [])) 7);
      let w : DiscWalk := (ww 3 1 false false []);
      let a : BitVec 5 := 3;
      (s.link.walk = some w) ∧ (w.next = a.toNat) ∧ (w.probes ≠ 0))
    ∧ (let s : State := (dk none);
      (s.reachable 0 = true) ∧ (s.link.walk = none))
    ∧ (let s : State := (dk (some (ww 0 0 false false [])));
      let w : DiscWalk := (ww 0 0 false false []);
      (s.link.walk = some w) ∧ (w.next < 32) ∧ (w.probes = 0) ∧ (s.macUp (256 + w.next) = false ∨ s.isFenced (bankChip (w.next / 8)) = true))
    ∧ (let s : State := (dk (some (ww 3 0 false false [])));
      let w : DiscWalk := (ww 3 0 false false []);
      (s.link.walk = some w) ∧ (w.next < 32) ∧ (w.probes = 0) ∧ (s.macUp (256 + w.next) = true) ∧ (s.isFenced (bankChip (w.next / 8)) = false))
    ∧ (let s : State := (dk (some (ww 3 2 false false [])));
      let w : DiscWalk := (ww 3 2 false false []);
      (s.link.walk = some w) ∧ (w.probes = 2))
    ∧ (let s : State := (dk (some (ww 32 0 false false [rr,rr])));
      let w : DiscWalk := (ww 32 0 false false [rr,rr]);
      (s.link.walk = some w) ∧ (32 ≤ w.next) ∧ (w.changed = false))
    ∧ (let s : State := (dk (some (ww 32 0 true false [rr,rr])));
      let w : DiscWalk := (ww 32 0 true false [rr,rr]);
      (s.link.walk = some w) ∧ (32 ≤ w.next) ∧ (w.changed = true) ∧ (w.rerun = false))
    ∧ (let s : State := (dk (some (ww 32 0 true true [rr,rr])));
      let w : DiscWalk := (ww 32 0 true true [rr,rr]);
      (s.link.walk = some w) ∧ (32 ≤ w.next) ∧ (w.changed = true) ∧ (w.rerun = true)) := ⟨by decide +kernel,
      by decide +kernel,
      by decide +kernel,
      by decide +kernel,
      by decide +kernel,
      by decide +kernel,
      by decide +kernel,
      by decide +kernel,
      by decide +kernel,
      by decide +kernel⟩

end Sys2Proof.Tests.W13b

namespace Sys2Proof.Tests.W14
open Sys2Proof Sys2Proof.Machine Sys2Proof.Tests
set_option Elab.async false

def vz (l : List (Fld × Nat × Nat)) (s : State := Z) : State := rg [(.HDW_VAULT_BUF,0,0x11223344),(.HDW_VAULT_BUF,1,0x55667788)] (fl l s)

def tr (f : TrustUnit → TrustUnit) (s : State := Z) : State := s.putTrust (f s.trust)

def cw : CopyWrite := {rid := 17, copy := 1, bytes := by512}

def img7 : List Byte := copyImage 3 9 1 [1,2,3,4,5,6,7,8,9]

def ld (l : List (Fld × Nat × Nat)) (f : TrustUnit → TrustUnit := id) : State := tr f (tm (fun t => {t with now := 5000000000000, tick := 9000}) (rg [(.HDW_LC_TOKEN,3,7)] (fl l)))

def pw (l : List (Fld × Nat × Nat)) (f : TrustUnit → TrustUnit := id) : State := tr f (ld ([(F.POL_CUR.VALUE,310,500),(F.HDW_BOOT_STAT.HBM,0,1),(F.HDW_LC_STAT.LC,0,2),(F.HDW_LC_STAT.DEBUG,0,1)]++l) (fun t => {t with power := .on, mram := [(5,6)], flash := [(7,8)], fuses := 3}))

theorem witness_VaultAndFlash_1 :
    (let s : State := (tr (fun t => {t with inUse := [(3,some 1)], copy := some cw}) ((vz []).mramWrite (copyOff 3 1) img7));
      let rid : BitVec 7 := 3;
      let r := rid.toNat;
      let n := s.fld F.HDW_VAULT_LEN.BYTES 0;
      let tokens := fun (u : State) => u.fld F.HDW_VAULT_STAT.TOKENS 0;
      let open_ := s.fld F.HDW_VAULT_STAT.PFAIL 0 = 0 ∧ s.reachable 0 = true;
      (open_) ∧ (ridKnown r = true) ∧ (n ≤ 4032) ∧ (s.mayWrite r = true) ∧ (s.trust.pend = []) ∧ (tokens s = 0))
    ∧ (let s : State := (tr (fun t => {t with inUse := [(3, some 1)]}));
      let p : List Byte := [];
      (s.reachable 0 = true) ∧ (ridKnown 3 = true) ∧ (3 ≠ 18) ∧ (s.record 3 = some p) ∧ (p.length ≤ 4032))
    ∧ (let s : State := (tr (fun t => {t with inUse := [(3,some 1)], copy := some cw}) ((vz []).mramWrite (copyOff 3 1) img7));
      (s.trust.pend = []))
    ∧ (let s : State := (tr (fun t => {t with inUse := [(3,some 1)], copy := some cw}) ((vz []).mramWrite (copyOff 3 1) img7));
      let w : CopyWrite := cw;
      (s.trust.copy = some w) ∧ (s.trust.pend = []))
    ∧ (let s : State := (tr (fun t => {t with inUse := [(3,some 1)], copy := some cw}) ((vz []).mramWrite (copyOff 3 1) img7));
      let addr := s.fld F.HDW_FLASH_ADDR.ADDR 0;
      let idle := s.fld F.HDW_FLASH_STAT.BUSY 0 = 0 ∧ s.reachable 0 = true;
      (idle) ∧ (addr % 65536 = 0) ∧ (s.flashInUse addr = false))
    ∧ (let s : State := (tr (fun t => {t with inUse := [(3,some 1)], copy := some cw}) ((vz []).mramWrite (copyOff 3 1) img7));
      let addr := s.fld F.HDW_FLASH_ADDR.ADDR 0;
      let idle := s.fld F.HDW_FLASH_STAT.BUSY 0 = 0 ∧ s.reachable 0 = true;
      (idle) ∧ (addr % 256 = 0) ∧ (s.flashInUse addr = false))
    ∧ (let s : State := (vz [(F.HDW_FLASH_ADDR.ADDR,0,0x1000100)] (tr (fun t => {t with slot := true})));
      let rid : BitVec 7 := 18;
      let r := rid.toNat;
      (s.reachable 0 = true) ∧ (r = 18))
    ∧ (let s : State := (vz [(F.HDW_FLASH_ADDR.ADDR,0,0x1000100)] (tr (fun t => {t with slot := true})));
      let addr := s.fld F.HDW_FLASH_ADDR.ADDR 0;
      let idle := s.fld F.HDW_FLASH_STAT.BUSY 0 = 0 ∧ s.reachable 0 = true;
      (idle) ∧ (addr % 65536 ≠ 0))
    ∧ (let s : State := (vz [(F.HDW_FLASH_ADDR.ADDR,0,0x1000100)] (tr (fun t => {t with slot := true})));
      let addr := s.fld F.HDW_FLASH_ADDR.ADDR 0;
      let idle := s.fld F.HDW_FLASH_STAT.BUSY 0 = 0 ∧ s.reachable 0 = true;
      (idle) ∧ (addr % 256 = 0) ∧ (s.flashInUse addr = true))
    ∧ (let s : State := (vz [(F.HDW_VAULT_LEN.BYTES,0,7),(F.HDW_VAULT_STAT.TOKENS,0,1024)]);
      let rid : BitVec 7 := 3;
      let r := rid.toNat;
      let n := s.fld F.HDW_VAULT_LEN.BYTES 0;
      let tokens := fun (u : State) => u.fld F.HDW_VAULT_STAT.TOKENS 0;
      let open_ := s.fld F.HDW_VAULT_STAT.PFAIL 0 = 0 ∧ s.reachable 0 = true;
      (open_) ∧ (ridKnown r = true) ∧ (n ≤ 4032) ∧ (s.mayWrite r = true) ∧ (s.trust.pend = []) ∧ (s.trust.copy = none) ∧ (1 ≤ tokens s)) := ⟨by decide +kernel,
      by decide +kernel,
      by decide +kernel,
      by decide +kernel,
      by decide +kernel,
      by decide +kernel,
      by decide +kernel,
      by decide +kernel,
      by decide +kernel,
      by decide +kernel⟩

theorem witness_VaultAndFlash_2 :
    (let s : State := (vz [(F.HDW_VAULT_LEN.BYTES,0,7),(F.HDW_VAULT_STAT.TOKENS,0,1024)]);
      let rid : BitVec 7 := 3;
      let r := rid.toNat;
      (s.reachable 0 = true) ∧ (ridKnown r = true) ∧ (r ≠ 18) ∧ (s.record r = none))
    ∧ (let s : State := (vz [(F.HDW_VAULT_LEN.BYTES,0,4032),(F.HDW_VAULT_STAT.TOKENS,0,0)]);
      let rid : BitVec 7 := 16;
      let r := rid.toNat;
      let n := s.fld F.HDW_VAULT_LEN.BYTES 0;
      let open_ := s.fld F.HDW_VAULT_STAT.PFAIL 0 = 0 ∧ s.reachable 0 = true;
      (open_) ∧ (ridKnown r = true) ∧ (n ≤ 4032) ∧ (s.mayWrite r = false))
    ∧ (let s : State := (vz [(F.HDW_VAULT_LEN.BYTES,0,4032),(F.HDW_VAULT_STAT.PFAIL,0,1)]);
      (s.reachable 0 = true) ∧ (s.fld F.HDW_VAULT_STAT.PFAIL 0 = 1))
    ∧ (let s : State := (vz [(F.HDW_FLASH_STAT.BUSY,0,1)] (tr (fun t => {t with slot := true})));
      (s.reachable 0 = true) ∧ (s.fld F.HDW_FLASH_STAT.BUSY 0 = 1))
    ∧ (let s : State := (rg [(.HDW_FLASH_WIN,0,0x11223344),(.HDW_FLASH_WIN,63,0x55667788)] (tr (fun t => {t with flashCmd := some (0x30000*4+1), flash := [(0x30001,4),(0x40000,5)]})));
      let a : Nat := 0x30000;
      (s.trust.flashCmd = some (a * 4 + 1)))
    ∧ (let s : State := (rg [(.HDW_FLASH_WIN,0,0x11223344),(.HDW_FLASH_WIN,63,0x55667788)] (tr (fun t => {t with flashCmd := some (0x30000*4+2), flash := [(0x30001,4),(0x40000,5)]})));
      let a : Nat := 0x30000;
      (s.trust.flashCmd = some (a * 4 + 2)))
    ∧ (let s : State := (rg [(.HDW_FLASH_WIN,0,0x11223344),(.HDW_FLASH_WIN,63,0x55667788)] (tr (fun t => {t with flashCmd := some (0x30000*4+3), flash := [(0x30001,4),(0x40000,5)]})));
      let a : Nat := 0x30000;
      (s.trust.flashCmd = some (a * 4 + 3)))
    ∧ (let s : State := (rg [(.HDW_FLASH_WIN,0,0x11223344),(.HDW_FLASH_WIN,63,0x55667788)] (tr (fun t => {t with flashCmd := some (0x30000*4+3), flash := [(0x30001,4),(0x40000,5)]})));
      let a : Nat := (0x30000*4+3);
      (s.trust.flashCmd = some a)) := ⟨by decide +kernel,
      by decide +kernel,
      by decide +kernel,
      by decide +kernel,
      by decide +kernel,
      by decide +kernel,
      by decide +kernel,
      by decide +kernel⟩

theorem witness_LifecycleAndDebug_1 :
    (let s : State := (ld [(F.HDW_LC_STAT.LC,0,2)] (fun t => {t with accepted := some 1, power := .on}));
      (s.reachable 0 = true) ∧ (s.dieState ≠ 1))
    ∧ (let s : State := (ld [(F.HDW_LC_STAT.LC,0,2)] (fun t => {t with accepted := some 1, power := .on}));
      let busy := fun (u : State) => u.fld F.HDW_LC_STAT.BUSY 0;
      (s.reachable 0 = true) ∧ (busy s = 0))
    ∧ (let s : State := (ld [(F.HDW_LC_STAT.LC,0,2)] (fun t => {t with accepted := some 1, power := .on}));
      let lc := fun (u : State) => u.lifecycle;
      let busy := fun (u : State) => u.fld F.HDW_LC_STAT.BUSY 0;
      (s.reachable 0 = true) ∧ (busy s = 0) ∧ (lc s ≠ 0))
    ∧ (let s : State := (ld [(F.HDW_LC_STAT.LC,0,2)] (fun t => {t with accepted := some 1, power := .on}));
      let lc := fun (u : State) => u.lifecycle;
      let debug := fun (u : State) => u.debugLevel;
      let free := s.trust.pwrCmd = none;
      let calm := debug s ≠ 2 ∨ lc s ≠ 2;
      (s.trust.accepted = some 1) ∧ (free) ∧ (calm))
    ∧ (let s : State := (ld [(F.HDW_LC_STAT.LC,0,2)] (fun t => {t with accepted := some 1, power := .on}));
      let lc := fun (u : State) => u.lifecycle;
      let debug := fun (u : State) => u.debugLevel;
      let busy := fun (u : State) => u.fld F.HDW_LC_STAT.BUSY 0;
      let free := s.trust.pwrCmd = none;
      let calm := debug s ≠ 2 ∨ lc s ≠ 2;
      (s.trust.accepted = some 6 ∨ busy s = 0) ∧ (free) ∧ (calm))
    ∧ (let s : State := (ld [(F.HDW_LC_STAT.LC,0,2)] (fun t => {t with accepted := some 1, power := .on}));
      let on := s.trust.power = .on ∧ s.reachable 0 = true;
      (on))
    ∧ (let s : State := (ld [(F.HDW_LC_STAT.LC,0,2)] (fun t => {t with accepted := some 1, power := .on}));
      let page : BitVec 18 := 5;
      let on := s.trust.power = .on ∧ s.reachable 0 = true;
      let off := page.toNat * 256;
      (on) ∧ (s.flashInUse off = false))
    ∧ (let s : State := (ld [(F.HDW_LC_STAT.LC,0,2)] (fun t => {t with accepted := some 1, power := .on}));
      let lc := fun (u : State) => u.lifecycle;
      let busy := fun (u : State) => u.fld F.HDW_LC_STAT.BUSY 0;
      let on := s.trust.power = .on ∧ s.reachable 0 = true;
      (on) ∧ (busy s = 0) ∧ (lc s ≠ 0))
    ∧ (let s : State := (ld [(F.HDW_DIE_STATUS.STATE,0,1)]);
      (s.reachable 0 = true) ∧ (s.dieState = 1))
    ∧ (let s : State := (ld [(F.HDW_DIE_STATUS.STATE,0,1)]);
      let lc := fun (u : State) => u.lifecycle;
      let busy := fun (u : State) => u.fld F.HDW_LC_STAT.BUSY 0;
      let pend := fun (u : State) => u.fld F.HDW_LC_STAT.LC_PEND 0;
      (s.reachable 0 = true) ∧ (busy s = 0) ∧ (lc s = 0) ∧ (pend s = 0)) := ⟨by decide +kernel,
      by decide +kernel,
      by decide +kernel,
      by decide +kernel,
      by decide +kernel,
      by decide +kernel,
      by decide +kernel,
      by decide +kernel,
      by decide +kernel,
      by decide +kernel⟩

theorem witness_LifecycleAndDebug_2 :
    (let s : State := (ld [(F.HDW_LC_STAT.LC,0,1),(F.HDW_LC_STAT.BUSY,0,1),(F.HDW_COMPAT.FORCE_EN,0,1),(F.HDW_LC_STAT.DEBUG,0,2)] (fun t => {t with accepted := some 3, power := .on}));
      let free := s.trust.pwrCmd = none;
      (s.trust.accepted = some 3) ∧ (free))
    ∧ (let s : State := (ld [(F.HDW_LC_STAT.LC,0,1),(F.HDW_LC_STAT.BUSY,0,1),(F.HDW_COMPAT.FORCE_EN,0,1),(F.HDW_LC_STAT.DEBUG,0,2)] (fun t => {t with accepted := some 3, power := .on}));
      let lc := fun (u : State) => u.lifecycle;
      let debug := fun (u : State) => u.debugLevel;
      let calm := debug s ≠ 2 ∨ lc s ≠ 2;
      (calm) ∧ (debug s ≠ 0) ∧ (s.trust.notAfter * 1000000000 < s.time.now ∨ s.trust.since + 86400000000000 ≤ s.time.tick))
    ∧ (let s : State := (ld [(F.HDW_LC_STAT.LC,0,1),(F.HDW_LC_STAT.DEBUG,0,1)] (fun t => {t with notAfter := 5001}));
      (s.time.now ≤ s.trust.notAfter * 1000000000) ∧ (s.time.tick < s.trust.since + 86400000000000))
    ∧ (let s : State := (ld [(F.HDW_LC_STAT.LC,0,2),(F.HDW_LC_STAT.BUSY,0,1)] (fun t => {t with accepted := some 2, power := .on}));
      let lc := fun (u : State) => u.lifecycle;
      let free := s.trust.pwrCmd = none;
      (s.trust.accepted = some 2) ∧ (free) ∧ (lc s = 2) ∧ (s.trust.intruding = false) ∧ (s.insWith 1 = []) ∧ (s.insWith 3 = []))
    ∧ (let s : State := (ld [(F.HDW_LC_STAT.LC,0,0),(F.HDW_LC_STAT.BUSY,0,1)] (fun t => {t with accepted := some 2, power := .on}));
      let lc := fun (u : State) => u.lifecycle;
      let free := s.trust.pwrCmd = none;
      (s.trust.accepted = some 2) ∧ (free) ∧ (lc s ≠ 2))
    ∧ (let s : State := (ld [(F.HDW_LC_STAT.LC,0,1),(F.HDW_LC_STAT.BUSY,0,1),(F.HDW_LC_STAT.DEBUG,0,2)] (fun t => {t with accepted := some 4, power := .on, inUse := [(17,some 1)], mram := [(copyOff 17 0 + 5, 9)]}));
      let lc := fun (u : State) => u.lifecycle;
      let debug := fun (u : State) => u.debugLevel;
      let free := s.trust.pwrCmd = none;
      let calm := debug s ≠ 2 ∨ lc s ≠ 2;
      (s.trust.accepted = some 4) ∧ (free) ∧ (calm))
    ∧ (let s : State := (ld [(F.HDW_LC_STAT.LC,0,1),(F.HDW_LC_STAT.BUSY,0,1),(F.HDW_LC_STAT.DEBUG,0,2)] (fun t => {t with accepted := some 5, power := .on, slot := true}));
      let free := s.trust.pwrCmd = none;
      (s.trust.accepted = some 5) ∧ (free)) := ⟨by decide +kernel,
      by decide +kernel,
      by decide +kernel,
      by decide +kernel,
      by decide +kernel,
      by decide +kernel,
      by decide +kernel⟩

theorem witness_PowerStates :
    (let s : State := (pw []);
      let on := s.trust.power = .on;
      let go := on ∧ s.fld F.HDW_LC_STAT.BUSY 0 = 0;
      (go))
    ∧ (let s : State := (pw []);
      let on := s.trust.power = .on;
      let go := on ∧ s.fld F.HDW_LC_STAT.BUSY 0 = 0;
      (go) ∧ (s.trust.copy = none))
    ∧ (let s : State := (pw []);
      let on := s.trust.power = .on;
      (on) ∧ (s.trust.drowse = false))
    ∧ (let s : State := (pw []);
      let tj : BitVec 8 := 110;
      let on := s.trust.power = .on;
      (on) ∧ (110 ≤ tj.toNat) ∧ (s.trust.copy = none))
    ∧ (let s : State := (pw []);
      (s.trust.copy = none))
    ∧ (let s : State := (pw [(F.HDW_LC_STAT.BUSY,0,1),(F.HDW_PWR_STAT.STEP,0,3)] (fun t => {t with drowse := true, copy := some cw}));
      let on := s.trust.power = .on;
      (on) ∧ (s.trust.drowse = true))
    ∧ (let tj : BitVec 8 := 10;
      (tj.toNat < 110))
    ∧ (let s : State := (pw [(F.HDW_LC_STAT.BUSY,0,1),(F.HDW_PWR_STAT.STEP,0,3)] (fun t => {t with drowse := true, copy := some cw}));
      let on := s.trust.power = .on;
      (on) ∧ (s.trust.drowse = true) ∧ (s.hbmMapped = true))
    ∧ (let s : State := (pw [(F.HDW_LC_STAT.BUSY,0,1),(F.HDW_PWR_STAT.STEP,0,3)] (fun t => {t with drowse := true, copy := some cw}));
      let c : CopyWrite := cw;
      (s.trust.copy = some c)) := ⟨by decide +kernel,
      by decide +kernel,
      by decide +kernel,
      by decide +kernel,
      by decide +kernel,
      by decide +kernel,
      by decide +kernel,
      by decide +kernel,
      by decide +kernel⟩

end Sys2Proof.Tests.W14

namespace Sys2Proof.Tests.W14t
open Sys2Proof Sys2Proof.Machine Sys2Proof.Tests
set_option Elab.async false

def ev (g : Nat) (c s : Nat) : TroubleEv := {grp := g, code := BitVec.ofNat 16 c, sev := BitVec.ofNat 2 s, data := 0x1122334455667788}

def lx : LogEntry := {w0 := 0x1234567890ABCDEF, w1 := 5, w2 := 6, w3 := 0xFFFFFFFF00000001}

def up_ (l : List (Fld × Nat × Nat)) (s : State := Z) : State := fl l (s.putTrust {s.trust with power := .on})

def G : Nat := 2*256+0x70

def tz (l : List (Fld × Nat × Nat)) : State := rg [(.TRB_HENT,G*64+8*3,5),(.TRB_HENT,G*64+8*3+7,99),(.LOG_SEQ,0,0xFFFFFFFF),(.LOG_LAP,0,0xFFFFFFFE),(.LOG_ENT,5,77)] (up_ l)

def tq (l : List (Fld × Nat × Nat)) : State := (tz l).putTrb {Z.trb with queue := [lx, lx]}

theorem witness_TroubleAndCounters_1 :
    (let s : State := (rg [(.CNT_VAL,2*128+5,0xFFFFFFFF),(.CNT_VAL_HI,2*128+5,0x77)] (sf [(5,{f0 with arg := 1, cycle := 77})] (tz [(F.CNT_CTL.EN,2*128+5,1),(F.CNT_CTL.SEL,2*128+5,0x14)])));
      let e : TroubleEv := (ev G 0x0401 0);
      let g : Nat := G;
      let up := fun g => unitExists (grpChip g) (grpBlk g) = true ∧ s.reachable (grpChip g) = true;
      (up e.grp) ∧ (codeSev e.code.toNat = some e.sev.toNat))
    ∧ (let s : State := (rg [(.CNT_VAL,2*128+5,0xFFFFFFFF),(.CNT_VAL_HI,2*128+5,0x77)] (sf [(5,{f0 with arg := 1, cycle := 77})] (tz [(F.CNT_CTL.EN,2*128+5,1),(F.CNT_CTL.SEL,2*128+5,0x14)])));
      (s.reachable 0 = true))
    ∧ (let s : State := (rg [(.CNT_VAL,2*128+5,0xFFFFFFFF),(.CNT_VAL_HI,2*128+5,0x77)] (sf [(5,{f0 with arg := 1, cycle := 77})] (tz [(F.CNT_CTL.EN,2*128+5,1),(F.CNT_CTL.SEL,2*128+5,0x14)])));
      let g : Nat := G;
      let up := fun g => unitExists (grpChip g) (grpBlk g) = true ∧ s.reachable (grpChip g) = true;
      (up g))
    ∧ (let s : State := (rg [(.CNT_VAL,2*128+5,0xFFFFFFFF),(.CNT_VAL_HI,2*128+5,0x77)] (sf [(5,{f0 with arg := 1, cycle := 77})] (tz [(F.CNT_CTL.EN,2*128+5,1),(F.CNT_CTL.SEL,2*128+5,0x14)])));
      let g : Nat := G;
      let up := fun g => unitExists (grpChip g) (grpBlk g) = true ∧ s.reachable (grpChip g) = true;
      (up g) ∧ (s.fld F.HDW_COMPAT.FORCE_EN 0 = 0))
    ∧ (let s : State := (Z.putRegs [(regKey .TRB_INJ G, 0)]);
      let g : Nat := G;
      s.fld F.TRB_INJ.ARMED g = 0)
    ∧ (let s : State := (rg [(.CNT_VAL,2*128+5,0xFFFFFFFF),(.CNT_VAL_HI,2*128+5,0x77)] (sf [(5,{f0 with arg := 1, cycle := 77})] (tz [(F.CNT_CTL.EN,2*128+5,1),(F.CNT_CTL.SEL,2*128+5,0x14)])));
      let chip : BitVec 4 := 2;
      (s.reachable chip.toNat = true))
    ∧ (let s : State := (rg [(.CNT_VAL,2*128+5,0xFFFFFFFF),(.CNT_VAL_HI,2*128+5,0x77)] (sf [(5,{f0 with arg := 1, cycle := 77})] (tz [(F.CNT_CTL.EN,2*128+5,1),(F.CNT_CTL.SEL,2*128+5,0x14)])));
      let ctr : Nat := (2*128+5);
      let n : BitVec 10 := 600;
      let live := ctrExists ctr = true ∧ s.reachable (ctrChip ctr) = true;
      let most := min n.toNat (ctrMax (ctrChip ctr));
      (live) ∧ (s.fld F.CNT_CTL.EN ctr = 1) ∧ (s.fld F.CNT_CTL.SAT ctr = 0) ∧ (1 ≤ s.fld F.CNT_CTL.SEL ctr) ∧ (s.fld F.CNT_CTL.SEL ctr ≤ selMax (ctrChip ctr)) ∧ (s.ctrVal ctr % 2 ^ 48 + most < 2 ^ 48))
    ∧ (let s : State := (rg [(.CNT_VAL,2*128+5,0xFFFFFFFF),(.CNT_VAL_HI,2*128+5,0x77)] (sf [(5,{f0 with arg := 1, cycle := 77})] (tz [(F.CNT_CTL.EN,2*128+5,1),(F.CNT_CTL.SEL,2*128+5,0x14)])));
      let ctr : Nat := (2*128+5);
      let live := ctrExists ctr = true ∧ s.reachable (ctrChip ctr) = true;
      (live))
    ∧ (let s : State := (rg [(.CNT_VAL,2*128+5,0xFFFFFFFF),(.CNT_VAL_HI,2*128+5,0x77)] (sf [(5,{f0 with arg := 1, cycle := 77})] (tz [(F.CNT_CTL.EN,2*128+5,1),(F.CNT_CTL.SEL,2*128+5,0x14)])));
      let i : Nat := 5;
      let chip : BitVec 4 := 2;
      let f : Firing := {f0 with arg := 1, cycle := 77};
      let due := s.fireDue (.counters chip) 5 f = true ∧ (s.unitWork (.counters chip) 5).work = none ∧ s.isFenced chip.toNat = false;
      (due) ∧ ((s.unitWork (.counters chip) 5).pend = none) ∧ (f.ford = false) ∧ (i < ctrCount chip.toNat))
    ∧ (let s : State := (tz [(F.HDW_COMPAT.FORCE_EN,0,1),(F.TRB_STAT.SEV,G,7)]);
      let g : Nat := G;
      let i : Nat := 3;
      let v : BitVec 32 := 0x800;
      let up := fun g => unitExists (grpChip g) (grpBlk g) = true ∧ s.reachable (grpChip g) = true;
      (up g) ∧ (s.fld F.HDW_COMPAT.FORCE_EN 0 = 1) ∧ (i < 4) ∧ (v.toNat / 2 ^ 8 % 16 = 2 ^ i)) := ⟨by decide +kernel,
      by decide +kernel,
      by decide +kernel,
      by decide +kernel,
      by decide +kernel,
      by decide +kernel,
      by decide +kernel,
      by decide +kernel,
      by decide +kernel,
      by decide +kernel⟩

theorem witness_TroubleAndCounters_2 :
    (let s : State := (tq [(F.LOG_WIDX.INDEX,0,65535)]);
      let x : LogEntry := lx;
      let rest : List LogEntry := [lx];
      (s.trb.queue = x :: rest) ∧ (s.fld F.LOG_CTL.FREEZE 0 = 0))
    ∧ (let s : State := (tq [(F.LOG_CTL.FREEZE,0,1)]);
      let x : LogEntry := lx;
      let rest : List LogEntry := [lx];
      (s.trb.queue = x :: rest) ∧ (s.fld F.LOG_CTL.FREEZE 0 = 1))
    ∧ (let s : State := (Z.putRegs [(regKey .TRB_INJ G, 0x21)]);
      let g : Nat := G;
      let armed := s.fld F.TRB_INJ.ARMED g = 1;
      (armed)) := ⟨by decide +kernel,
      by decide +kernel,
      by decide +kernel⟩

end Sys2Proof.Tests.W14t

namespace Sys2Proof.Tests.W15
open Sys2Proof Sys2Proof.Machine Sys2Proof.Tests
set_option Elab.async false

def pz (l : List (Fld × Nat × Nat)) (s : State := Z) : State := fl ([(F.HDW_BOOT_STAT.HBM,0,1),(F.PCI_EP_CFG.PF1_EFF,3,1),(F.PCIE_CMD.MSE,3*2048+pf1Fn,1)]++l) s

def az (n : Nat) (s : State) : State := rg [(.AP_BASE, 3*16+5, n % 2^32), (.AP_BASE_HI, 3*16+5, n / 2^32)] s

def ap (a : Nat) : BitVec 28 := BitVec.ofNat 28 (5 * 0x1000000 + a % 0x1000000)

def ABNK_HASH_SEED := (regAddr .BNK_HASH_SEED 1).getD 0

def ABRD_FLOW_TMO := (regAddr .BRD_FLOW_TMO 2).getD 0

theorem witness_RegisterAccess_1 :
    (let s : State := (az (ABNK_HASH_SEED / 0x1000000 * 0x1000000) (rg [(.BNK_HASH_SEED,1,0xF0F0F0F3)] (pz [])));
      let r : Reg := .BNK_HASH_SEED;
      let i : Nat := 1;
      let a : Nat := ABNK_HASH_SEED;
      let pl := r ∈ [Reg.BNK_HASH_SEED, .BRD_FLOW_TMO, .HDW_VAULT_BUF, .HDW_FLASH_WIN];
      let target := regAddr r i = some a ∧ devTarget a = some (.reg r i);
      (pl) ∧ (target) ∧ (s.busRefuses .firmware a true = false))
    ∧ (let s : State := (az (ABNK_HASH_SEED / 0x1000000 * 0x1000000) (rg [(.BNK_HASH_SEED,1,0xF0F0F0F3)] (pz [])));
      let off : Nat := 0x100;
      let addr : BitVec 48 := 0x1000000100;
      let len : Nat := 4;
      let x := hbmBase + off;
      let sized := len ∈ [1, 2, 4, 8, 16] ∧ x % len = 0;
      let clean := s.poisonedIn off len = false ∧ s.plat.ecc = [];
      (addr.toNat = x) ∧ (sized) ∧ (s.hbmDenied .firmware x len false = false) ∧ (clean))
    ∧ (let s : State := (az (ABNK_HASH_SEED / 0x1000000 * 0x1000000) (rg [(.BNK_HASH_SEED,1,0xF0F0F0F3)] (pz [])));
      let off : Nat := 0x100;
      let addr : BitVec 48 := 0x1000000100;
      let len : Nat := 4;
      let l : List (BitVec 8) := [1,2,3,4];
      let x := hbmBase + off;
      let sized := len ∈ [1, 2, 4, 8, 16] ∧ x % len = 0;
      (addr.toNat = x) ∧ (l.length = len) ∧ (sized) ∧ (s.hbmDenied .firmware x len true = false))
    ∧ (let s : State := (az (ABNK_HASH_SEED / 0x1000000 * 0x1000000) (rg [(.BNK_HASH_SEED,1,0xF0F0F0F3)] (pz [])));
      let r : Reg := .BNK_HASH_SEED;
      let i : Nat := 1;
      let a : Nat := ABNK_HASH_SEED;
      let ep : BitVec 5 := 3;
      let ap : BitVec 28 := (ap ABNK_HASH_SEED);
      let pl := r ∈ [Reg.BNK_HASH_SEED, .BRD_FLOW_TMO, .HDW_VAULT_BUF, .HDW_FLASH_WIN];
      let target := regAddr r i = some a ∧ devTarget a = some (.reg r i);
      let e := ep.toNat;
      let reach := s.pf1Present e = true ∧ s.flag F.PCIE_CMD.MSE (fnKey e pf1Fn) = true
          ∧ s.reachable (bankChip (epBank e)) = true;
      let at_ := fun y => s.apBase e (ap.toNat / 0x1000000) + ap.toNat % 0x1000000 = y;
      (reach) ∧ (at_ a) ∧ (target) ∧ (pl) ∧ (s.busRefuses (.pf1 ep) a false = false))
    ∧ (let s : State := (az (ABNK_HASH_SEED / 0x1000000 * 0x1000000) (rg [(.BNK_HASH_SEED,1,0xF0F0F0F3)] (pz [])));
      let r : Reg := .BNK_HASH_SEED;
      let i : Nat := 1;
      let a : Nat := ABNK_HASH_SEED;
      let l : List (BitVec 8) := [1,2,3,4];
      let ep : BitVec 5 := 3;
      let ap : BitVec 28 := (ap ABNK_HASH_SEED);
      let pl := r ∈ [Reg.BNK_HASH_SEED, .BRD_FLOW_TMO, .HDW_VAULT_BUF, .HDW_FLASH_WIN];
      let target := regAddr r i = some a ∧ devTarget a = some (.reg r i);
      let e := ep.toNat;
      let reach := s.pf1Present e = true ∧ s.flag F.PCIE_CMD.MSE (fnKey e pf1Fn) = true
          ∧ s.reachable (bankChip (epBank e)) = true;
      let at_ := fun y => s.apBase e (ap.toNat / 0x1000000) + ap.toNat % 0x1000000 = y;
      (reach) ∧ (at_ a) ∧ (target) ∧ (pl) ∧ (s.busRefuses (.pf1 ep) a true = false) ∧ (l.length = 4))
    ∧ (let r : Reg := .AP_BASE;
      let i : Nat := 112;
      let who : Requester := (.host 7);
      let m : Nat := 7;
      let own : Bool := true;
      (regAddr r i = none) ∧ (barOwner r i = some (m, own)) ∧ (own = true ∨ who ≠ .host m) ∧ ((match who with | .pf1 _ => false | _ => true) = true))
    ∧ (let s : State := (az 0x0 (pz []));
      let addr : BitVec 48 := 0x0008000001;
      let wr : Bool := true;
      (inHbm addr.toNat 4 = false) ∧ (s.busRefuses .firmware addr.toNat wr = true))
    ∧ (let s : State := (az 0x0 (pz []));
      let addr : BitVec 48 := 0x0008000001;
      let wr : Bool := true;
      let ep : BitVec 5 := 3;
      (inHbm addr.toNat 4 = false) ∧ (s.busRefuses (.pf1 ep) addr.toNat wr = true))
    ∧ (let addr : BitVec 48 := 0x0008000001;
      let len : Nat := 8;
      (addr.toNat % len ≠ 0 ∨ len ∉ [1, 2, 4, 8, 16]))
    ∧ (let s : State := (az 0x0 (pz []));
      let a : Nat := 0xFFFF01;
      let wr : Bool := true;
      let ep : BitVec 5 := 3;
      let ap : BitVec 28 := (ap 0xFFFF01);
      let e := ep.toNat;
      let reach := s.pf1Present e = true ∧ s.flag F.PCIE_CMD.MSE (fnKey e pf1Fn) = true
          ∧ s.reachable (bankChip (epBank e)) = true;
      let at_ := fun y => s.apBase e (ap.toNat / 0x1000000) + ap.toNat % 0x1000000 = y;
      (reach) ∧ (at_ a) ∧ (a < hbmBase) ∧ (s.busRefuses (.pf1 ep) a wr = true)) := ⟨by decide +kernel,
      by decide +kernel,
      by decide +kernel,
      by decide +kernel,
      by decide +kernel,
      by decide +kernel,
      by decide +kernel,
      by decide +kernel,
      by decide +kernel,
      by decide +kernel⟩

theorem witness_RegisterAccess_2 :
    (let s : State := ((rg [(.MCODE_VERSION,3,0xF0F0F0F3),(.MCODE_VERSION_HI,3,0x89ABCDEF)] (pz [])).setStage .MCODE_VERSION 3 (some 0xFFFFFFFF));
      let r : Reg := .MCODE_VERSION;
      let hi : Reg := .MCODE_VERSION_HI;
      let i : Nat := 3;
      let here := s.reachable (regChip r i) = true;
      (quantHigh r = some hi) ∧ (here))
    ∧ (let s : State := ((rg [(.MCODE_VERSION,3,0xF0F0F0F3),(.MCODE_VERSION_HI,3,0x89ABCDEF)] (pz [])).setStage .MCODE_VERSION 3 (some 0xFFFFFFFF));
      let r : Reg := .MCODE_VERSION;
      let hi : Reg := .MCODE_VERSION_HI;
      let i : Nat := 3;
      let here := s.reachable (regChip r i) = true;
      (quantHigh r = some hi) ∧ (here) ∧ (r ∉ [Reg.CFL_SQ_VAL, .CFL_SQ_LIMIT, .RING_TXBASE, .RING_RXBASE]))
    ∧ (let s : State := ((rg [(.CFL_SQ_LIMIT,3,0xF0F0F0F3),(.CFL_SQ_LIMIT_HI,3,0x89ABCDEF)] (pz [])).setStage .CFL_SQ_LIMIT 3 (some 0xFFFFFFFF));
      let r : Reg := .CFL_SQ_LIMIT;
      let i : Nat := 3;
      let here := s.reachable (regChip r i) = true;
      (r = .CFL_SQ_LIMIT) ∧ (here) ∧ (s.flag F.CFL_SQ_CTL.EN i = false))
    ∧ (let s : State := ((rg [(.RING_TXBASE,3,0xF0F0F0F3),(.RING_TXBASE_HI,3,0x89ABCDEF)] (pz [])).setStage .RING_TXBASE 3 (some 0xFFFFFFFF));
      let r : Reg := .RING_TXBASE;
      let i : Nat := 3;
      let here := s.reachable (regChip r i) = true;
      (r = .RING_TXBASE) ∧ (here) ∧ (s.flag F.RING_ARM.ARMED i = false))
    ∧ (let s : State := (rg [(.POL_CTL,3,0xF0F0F0F3)] (pz []));
      let r : Reg := .POL_CTL;
      let i : Nat := 3;
      let a : Nat := ((regAddr .POL_CTL 3).getD 0);
      let here := s.reachable (regChip r i) = true;
      (r ∈ [Reg.POL_CTL, .TIME_STEPS, .PCI_FRY_REJ, .LOG_DROP, .BRD_DICE_MAXHITS]) ∧ (regAddr r i = some a) ∧ (here))
    ∧ (let s : State := (fl [(F.HDW_BOOT_STAT.FENCED,0,0xFF00)] (pz []));
      let r : Reg := .BRD_FLOW_TMO;
      let i : Nat := 2;
      let a : Nat := ABRD_FLOW_TMO;
      let target := regAddr r i = some a ∧ devTarget a = some (.reg r i);
      (target) ∧ (s.busRefuses .firmware a true = true))
    ∧ (let s : State := (az 0x1000000000 (pz []));
      let off : Nat := 0x100;
      let len : Nat := 8;
      let ep : BitVec 5 := 3;
      let ap : BitVec 28 := (ap 0x100);
      let x := hbmBase + off;
      let clean := s.poisonedIn off len = false ∧ s.plat.ecc = [];
      let e := ep.toNat;
      let reach := s.pf1Present e = true ∧ s.flag F.PCIE_CMD.MSE (fnKey e pf1Fn) = true
          ∧ s.reachable (bankChip (epBank e)) = true;
      let at_ := fun y => s.apBase e (ap.toNat / 0x1000000) + ap.toNat % 0x1000000 = y;
      (reach) ∧ (at_ x) ∧ (off + len ≤ hbmSize) ∧ (1 ≤ len) ∧ (len ≤ 512) ∧ (s.hbmDenied (.pf1 ep) x len false = false) ∧ (clean))
    ∧ (let s : State := Z;
      let ep : BitVec 5 := 3;
      let e := ep.toNat;
      (s.pf1Present e = false))
    ∧ (let s : State := (fl [(F.HDW_BOOT_STAT.FENCED,0,0xFF00)]);
      (quantHigh .MCODE_VERSION = some .MCODE_VERSION_HI) ∧ (s.reachable (regChip .MCODE_VERSION 3) = false)) := ⟨by decide +kernel,
      by decide +kernel,
      by decide +kernel,
      by decide +kernel,
      by decide +kernel,
      by decide +kernel,
      by decide +kernel,
      by decide +kernel,
      by decide +kernel⟩

end Sys2Proof.Tests.W15

namespace Sys2Proof.Tests.W15b
open Sys2Proof Sys2Proof.Machine Sys2Proof.Tests
set_option Elab.async false

def b0 : BootTests := ⟨0,0,0,0,0xFFFFFFFFFFFFFFFF,0,0,0⟩

def bF : BootTests := ⟨0,0,1,0,0xFFFFFFFFFFFFFFFF,0,0,0⟩

def on (p : Power) (st : Nat := 4) : State := let s := fl [(F.HDW_BOOT_STAT.STAGE,0,st),(F.HDW_LC_STAT.INTRUDED,0,1),(F.TTB_CTL.LOG2_LEN,0,9)]; s.putTrust {s.trust with power := p, mram := [(5,6)], fuses := 1}

def early : State := (fl [(F.HDW_BOOT_STAT.STAGE, 0, 4)]).putPlat { Z.plat with coldBoot := true }

theorem early_calendar (i : Nat) : early.rd .TTB_SLOT_W0 i = 0 ∧ early.rd .TTB_SLOT_W1 i = 0 ∧ early.staged .TTB_SLOT_W1 i = none := by
  have h : ∀ r, r ≠ Reg.HDW_BOOT_STAT → early.rd r i = Z.rd r i := fun r hr => by
    change State.rd (Z.setFld F.HDW_BOOT_STAT.STAGE 0 4) r i = _
    rw [State.rd_setFld, if_neg (fun e => hr e.1.symm)]
  have z : ∀ r, Z.rd r i = resetAt r i := fun r => by
    change resetAt (regOfKey (regKey r i)) (regKey r i / 1024) = _
    rw [regOfKey_regKey, show regKey r i / 1024 = i from by have := Reg.ctorIdx_lt r; unfold regKey; omega]
  refine ⟨?_, ?_, rfl⟩ <;> rw [h _ (by decide), z] <;> rfl

theorem witness_ResetAndStartUp_1 :
    (let s : State := (on .on);
      let b : BootTests := b0;
      let lost := s.slotValid 0 = false ∧ s.slotValid 1 = false;
      (b.selfTest.getLsbD 0 = false) ∧ (lost))
    ∧ (let b : BootTests := b0;
      (b.selfTest.getLsbD 0 = false))
    ∧ (let s : State := (on .on);
      let b : BootTests := b0;
      let on := s.trust.power = .on;
      let lost := s.slotValid 0 = false ∧ s.slotValid 1 = false;
      (on) ∧ (b.selfTest.getLsbD 0 = false) ∧ (lost))
    ∧ (let s : State := (on .on);
      (s.trust.power ≠ .hold))
    ∧ (let s : State := (on .on);
      let c : BitVec 4 := 3;
      let on := s.trust.power = .on;
      let chip := c.toNat;
      (on) ∧ (s.plat.linkFailed.getLsbD chip = false) ∧ (chip ≠ 1) ∧ (chip ≠ 6) ∧ (chip ≠ 7) ∧ (s.keys.fetch = []))
    ∧ (let s : State := (on .on);
      let t4 : BitVec 4 := 7;
      let stage := fun (u : State) => u.fld F.HDW_BOOT_STAT.STAGE 0;
      let on := s.trust.power = .on;
      (on) ∧ (stage s = 4) ∧ (t4 ≠ 0xF))
    ∧ (let s : State := (on .on);
      let stage := fun (u : State) => u.fld F.HDW_BOOT_STAT.STAGE 0;
      let on := s.trust.power = .on;
      (on) ∧ (stage s = 4))
    ∧ (let s : State := (on .on);
      let c : BitVec 4 := 3;
      let w : BitVec 4 := 3;
      let on := s.trust.power = .on;
      let chip := c.toNat;
      let fences := on ∧ fenceable chip = true ∧ s.isFenced chip = false ∧ 1 ≤ w.toNat ∧ w.toNat ≤ 5 ∧ (w.toNat ≠ 5 ∨ s.dma = []);
      (fences))
    ∧ (let s : State := (on .hold);
      let on := s.trust.power = .on;
      (s.trust.power ≠ .on))
    ∧ (let s : State := (on .hold);
      (s.trust.power = .hold)) := ⟨by decide +kernel,
      by decide +kernel,
      by decide +kernel,
      by decide +kernel,
      by decide +kernel,
      by decide +kernel,
      by decide +kernel,
      by decide +kernel,
      by decide +kernel,
      by decide +kernel⟩

theorem witness_ResetAndStartUp_2 :
    (let c : BitVec 4 := 1;
      let chip := c.toNat;
      (chip ∈ [1, 6, 7]))
    ∧ (let b : BootTests := bF;
      (b.selfTest.getLsbD 0 = true))
    ∧ (let s : State := (on .on);
      let t4 : BitVec 4 := 15;
      let stage := fun (u : State) => u.fld F.HDW_BOOT_STAT.STAGE 0;
      let on := s.trust.power = .on;
      let banks := (List.range 4).all (fun k => s.reachable (bankChip k)) = true;
      (on) ∧ (stage s = 4) ∧ (t4 = 0xF) ∧ (banks))
    ∧ (let s : State := (fl [(F.HDW_BOOT_STAT.FENCED,0,0x200)] (on .on 5));
      let stage := fun (u : State) => u.fld F.HDW_BOOT_STAT.STAGE 0;
      (stage s ≠ 4))
    ∧ (let s : State := (fl [(F.HDW_BOOT_STAT.FENCED,0,0x200)] (on .on 5));
      let c : BitVec 4 := 9;
      let chip := c.toNat;
      (fenceable chip = false ∨ s.isFenced chip = true))
    ∧ (let s : State := early;
      (s.trust.power = .on) ∧ (s.fld F.HDW_BOOT_STAT.STAGE 0 = 4) ∧ (s.configPairs = [] ∧ s.plat.coldBoot = true
        ∧ ∀ i, s.rd .TTB_SLOT_W0 i = 0 ∧ s.rd .TTB_SLOT_W1 i = 0 ∧ s.staged .TTB_SLOT_W1 i = none)) := ⟨by decide +kernel,
      by decide +kernel,
      by decide +kernel,
      by decide +kernel,
      by decide +kernel,
      ⟨rfl, by decide +kernel, by decide +kernel, rfl, early_calendar⟩⟩

end Sys2Proof.Tests.W15b

namespace Sys2Proof.Tests.W16
open Sys2Proof Sys2Proof.Machine Sys2Proof.Tests
set_option Elab.async false

def g3 : Tbl Word := [(1,1), (2, 0xFFF07), (3,0x100000), (4, 0xFFF80000), (5,15), (6, 0x80000000), (7,7), (8, 0x7F04), (9, 0x101), (10, 0xFFFF8000)]

def sa (pc : BitVec 20) : State := (rn (fun t => {t with g := g3, pc := pc}))

theorem witness_ProgramStoreEnds :
    (let th : Nat := 8;
      let rs1 : BitVec 5 := 3;
      let rs2 : BitVec 5 := 5;
      let off : BitVec 16 := 4;
      let s : State := (sa 0xFFFFC);
      let t := s.thread th;
      let a := t.gr rs1;
      let b := t.gr rs2;
      let far := fun (w : Word) => 2 ^ 20 ≤ w.toNat;
      let target := BitVec.ofInt 32 (t.pc.toNat + off.toInt * 4);
      (s.canIssue th = true) ∧ (t.past = false) ∧ (far target) ∧ (a ≠ b))
    ∧ (let th : Nat := 8;
      let rs1 : BitVec 5 := 3;
      let rs2 : BitVec 5 := 5;
      let off : BitVec 16 := 4;
      let s : State := (sa 0xFFFFC);
      let t := s.thread th;
      let a := t.gr rs1;
      let b := t.gr rs2;
      let far := fun (w : Word) => 2 ^ 20 ≤ w.toNat;
      let target := BitVec.ofInt 32 (t.pc.toNat + off.toInt * 4);
      (s.canIssue th = true) ∧ (t.past = false) ∧ (far target) ∧ (b.toInt ≤ a.toInt))
    ∧ (let th : Nat := 8;
      let rs1 : BitVec 5 := 3;
      let rs2 : BitVec 5 := 5;
      let off : BitVec 16 := 4;
      let s : State := (sa 0xFFFFC);
      let t := s.thread th;
      let a := t.gr rs1;
      let b := t.gr rs2;
      let far := fun (w : Word) => 2 ^ 20 ≤ w.toNat;
      let target := BitVec.ofInt 32 (t.pc.toNat + off.toInt * 4);
      (s.canIssue th = true) ∧ (t.past = false) ∧ (far target) ∧ (b.toNat ≤ a.toNat))
    ∧ (let th : Nat := 8;
      let off26 : BitVec 26 := 0x1FFFFFF;
      let s : State := (sa 0xFFFFC);
      let t := s.thread th;
      let far := fun (w : Word) => 2 ^ 20 ≤ w.toNat;
      (s.canIssue th = true) ∧ (t.past = false) ∧ (far (BitVec.ofInt 32 (t.pc.toNat + off26.toInt * 4))))
    ∧ (let th : Nat := 8;
      let rs1 : BitVec 5 := 3;
      let off : BitVec 16 := 4;
      let s : State := (sa 0xFFFFC);
      let t := s.thread th;
      let a := t.gr rs1;
      let far := fun (w : Word) => 2 ^ 20 ≤ w.toNat;
      let jump := BitVec.ofInt 32 (a.toInt + off.toInt);
      (s.canIssue th = true) ∧ (t.past = false) ∧ (far jump) ∧ (jump.toNat % 4 = 0))
    ∧ (let th : Nat := 8;
      let rs1 : BitVec 5 := 1;
      let rs2 : BitVec 5 := 1;
      let off : BitVec 16 := 0x8001;
      let s : State := (sa 0);
      let t := s.thread th;
      let a := t.gr rs1;
      let b := t.gr rs2;
      let far := fun (w : Word) => 2 ^ 20 ≤ w.toNat;
      let target := BitVec.ofInt 32 (t.pc.toNat + off.toInt * 4);
      (s.canIssue th = true) ∧ (t.past = false) ∧ (far target) ∧ (a = b))
    ∧ (let th : Nat := 8;
      let rs1 : BitVec 5 := 6;
      let rs2 : BitVec 5 := 5;
      let off : BitVec 16 := 4;
      let s : State := (sa 0xFFFFC);
      let t := s.thread th;
      let a := t.gr rs1;
      let b := t.gr rs2;
      let far := fun (w : Word) => 2 ^ 20 ≤ w.toNat;
      let target := BitVec.ofInt 32 (t.pc.toNat + off.toInt * 4);
      (s.canIssue th = true) ∧ (t.past = false) ∧ (far target) ∧ (a.toInt < b.toInt))
    ∧ (let th : Nat := 8;
      let s : State := (rn (fun t => {t with past := true}));
      let t := s.thread th;
      (s.canIssue th = true) ∧ (t.past = true))
    ∧ (let s : State := (sa 0);
      let t := s.thread 8;
      (s.canIssue 8 = true) ∧ (t.past = false) ∧ (2 ^ 20 ≤ (BitVec.ofInt 32 (t.pc.toNat + (0x8001#16).toInt * 4)).toNat)
        ∧ ((t.gr 1).toNat < (t.gr 3).toNat)) := ⟨by decide +kernel,
      by decide +kernel,
      by decide +kernel,
      by decide +kernel,
      by decide +kernel,
      by decide +kernel,
      by decide +kernel,
      by decide +kernel,
      by decide +kernel⟩

theorem witness_EntryFires :
    (let s : State := (fl [(F.TTB_SLOT_W0.VALID,1,1), (F.TTB_SLOT_W0.CLASS,1,5)]);
      let i : Nat := 1;
      (s.fld F.TTB_SLOT_W0.CLASS i ≤ 8))
    ∧ (let s : State := (fl [(F.TTB_SLOT_W0.VALID,1,1), (F.TTB_SLOT_W0.CLASS,1,5)]);
      let i : Nat := 1;
      let d := s.fld F.TTB_SLOT_W0.DIV i;
      (s.fld F.TTB_SLOT_W0.CLASS i ≤ 8) ∧ (d = 0))
    ∧ (let s : State := (fl [(F.TTB_SLOT_W0.VALID,1,1), (F.TTB_SLOT_W0.CLASS,1,5)]);
      let i : Nat := 1;
      let p : Nat := 0x10;
      let d := s.fld F.TTB_SLOT_W0.DIV i;
      (s.fld F.TTB_SLOT_W0.CLASS i ≤ 8) ∧ (p % 2 ^ d = s.fld F.TTB_SLOT_W0.PHASE i % 2 ^ d))
    ∧ (let s : State := (fl [(F.TTB_SLOT_W0.VALID,1,1), (F.TTB_SLOT_W0.CLASS,1,9), (F.TTB_SLOT_W0.DIV,1,2),(F.TTB_SLOT_W0.PHASE,1,7)]);
      let i : Nat := 1;
      (8 < s.fld F.TTB_SLOT_W0.CLASS i)) := ⟨by decide +kernel,
      by decide +kernel,
      by decide +kernel,
      by decide +kernel⟩

theorem witness_ShaperWriteFillsBuckets :
    (let s : State := Z;
      let r : Reg := .SCH_N_CBS;
      (r ∈ [Reg.SCH_N_CIR, .SCH_N_PIR, .SCH_N_CBS, .SCH_N_PBS]) ∧ (s.reachable 1 = true)) := by decide +kernel

theorem witness_StepTakesFrontCommand :
    (Z.pending = []) := rfl

theorem witness_TagOrder :
    (precedes 0 1 = true)
    ∧ (precedes 0 (2 ^ 47 - 1) = true)
    ∧ (precedes (2 ^ 48 - 1) 0 = true) := ⟨by decide +kernel,
      by decide +kernel,
      by decide +kernel⟩

theorem witness_MemoriesStayCanonical :
    (Z.MemoryOk ∧ step Z = .next Z)
    ∧ (let s : State := { Z with pending := [.ppsOutFall] };
      s.MemoryOk ∧ step s = .next (Z.putTime { Z.time with ppsOut := false })) := ⟨⟨by decide +kernel, rfl⟩,
      ⟨by decide +kernel, rfl⟩⟩

theorem witness_FusesNeverClear :
    (let s : State := { Z with pending := [.ppsOutFall], trust := { Z.trust with fuses := 5 } };
      (step s = .next { s with pending := [], time := { Z.time with ppsOut := false } }) ∧ (s.trust.fuses.getLsbD 2 = true)) := ⟨rfl, by decide +kernel⟩

theorem witness_QueueIsFirstInFirstOut :
    (let s : State := { Z with pending := [.ppsOutFall, .timeAdvance] };
      step s = .next { s with pending := [.timeAdvance], time := { Z.time with ppsOut := false } }) := rfl

end Sys2Proof.Tests.W16
end

section
set_option Elab.async false

namespace Sys2Proof.Machine

/-!
## What every operation of the block keeps

`Keeps s t` says what no function of the model can break on the way from `s` to `t`. Each function of the model has one lemma,
`Keeps.<function>`: what holds of its argument holds of its result. Each meaning `exec…` has one too, and says besides that the meaning
answers a next state. The lemmas follow the files of the model in their order and compose by dot notation: the proof of a function's
lemma is the list of the operations that the function applies, and a branch that writes a memory itself says why the form stays.
-/

/-- The parts of the state that `Keeps` speaks of: the register file, the memories, the fuses and the queue of commands. -/
def State.kept (s : State) : Tbl Word × Tbl Byte × Tbl Byte × Tbl Byte × Tbl Word × Tbl Byte × Tbl Byte × BitVec 3 × List Instr :=
  (s.regs, s.hbm.mem, s.eng.localMem, s.eng.clusterMem, s.eng.pstore, s.trust.mram, s.trust.flash, s.trust.fuses, s.pending)

/-- What every operation of the block keeps from state s to state t. -/
structure Keeps (s t : State) : Prop where
  memory : s.MemoryOk → t.MemoryOk
  fuses : ∀ k, s.trust.fuses.getLsbD k = true → t.trust.fuses.getLsbD k = true
  pending : t.pending = s.pending

/-- A meaning answers a next state, and keeps what every operation keeps. -/
def Answers (s : State) (r : Res) : Prop := ∃ t, r = .next t ∧ Keeps s t

variable {s t u : State}

theorem Keeps.refl (s : State) : Keeps s s := ⟨id, fun _ => id, rfl⟩

/-- An operation that touches none of the parts in question keeps everything; the parts are compared by computation. -/
theorem Keeps.same (h : Keeps s t) (e : u.kept = t.kept := by rfl) : Keeps s u := by
  simp only [State.kept, Prod.mk.injEq] at e
  obtain ⟨hr, hm, hl, hc, hp, ha, hf, hu, hq⟩ := e
  refine ⟨fun hs => ?_, fun k hk => hu ▸ h.fuses k hk, hq.trans h.pending⟩
  have := h.memory hs
  simpa only [State.MemoryOk, hr, hm, hl, hc, hp, ha, hf] using this

theorem Keeps.ite {c} [Decidable c] {a b : State} (ha : Keeps s a) (hb : Keeps s b) : Keeps s (if c then a else b) := by
  split
  · exact ha
  · exact hb

/-- The next five lemmas are for functions that answer a pair of a value and the next state, and for folds over the state. -/
theorem Keeps.ite_snd {α : Type} {c} [Decidable c] {a b : α × State} (ha : Keeps s a.2) (hb : Keeps s b.2) :
    Keeps s (if c then a else b).2 := by
  split
  · exact ha
  · exact hb

theorem Keeps.mk_snd {α : Type} {a : α} (h : Keeps s u) : Keeps s (a, u).2 := h

theorem Keeps.snd {α : Type} {p : α × State} {a : α} (h : Keeps s p.2) (e : p = (a, u)) : Keeps s u := by
  rw [e] at h; exact h

theorem Keeps.foldl {α : Type} {f : State → α → State} {l : List α} (h : Keeps s t)
    (hf : ∀ {u x}, Keeps s u → Keeps s (f u x)) : Keeps s (l.foldl f t) := by
  induction l generalizing t with
  | nil => exact h
  | cons x l ih => exact ih (hf h)

theorem Keeps.foldl_snd {α β : Type} {f : β × State → α → β × State} {l : List α} {b : β} (h : Keeps s t)
    (hf : ∀ {b u x}, Keeps s u → Keeps s (f (b, u) x).2) : Keeps s (l.foldl f (b, t)).2 := by
  induction l generalizing b t with
  | nil => exact h
  | cons x l ih => exact ih (hf h)

theorem Answers.ite {c} [Decidable c] {a b : Res} (ha : Answers s a) (hb : Answers s b) : Answers s (if c then a else b) := by
  split
  · exact ha
  · exact hb

/-! ### Functions of Machine/Ops -/

theorem Keeps.putRegs {x} (h : Keeps s t) (e : (t.putRegs x).kept = t.kept := by rfl) : Keeps s (t.putRegs x) := h.same e

theorem Keeps.putLatch {x} (h : Keeps s t) : Keeps s (t.putLatch x) := h.same

theorem Keeps.putStage {x} (h : Keeps s t) : Keeps s (t.putStage x) := h.same

theorem Keeps.putOut {x} (h : Keeps s t) : Keeps s (t.putOut x) := h.same

theorem Keeps.putReply {x} (h : Keeps s t) : Keeps s (t.putReply x) := h.same

theorem Keeps.putFree {x} (h : Keeps s t) : Keeps s (t.putFree x) := h.same

theorem Keeps.putPlat {x} (h : Keeps s t) : Keeps s (t.putPlat x) := h.same

theorem Keeps.putTime {x} (h : Keeps s t) : Keeps s (t.putTime x) := h.same

theorem Keeps.putTide {x} (h : Keeps s t) : Keeps s (t.putTide x) := h.same

theorem Keeps.putTrb {x} (h : Keeps s t) : Keeps s (t.putTrb x) := h.same

theorem Keeps.putEng {x} (h : Keeps s t) (e : (t.putEng x).kept = t.kept := by rfl) : Keeps s (t.putEng x) := h.same e

theorem Keeps.putMicro {x} (h : Keeps s t) : Keeps s (t.putMicro x) := h.same

theorem Keeps.putHbm {x} (h : Keeps s t) (e : (t.putHbm x).kept = t.kept := by rfl) : Keeps s (t.putHbm x) := h.same e

theorem Keeps.putCfl {x} (h : Keeps s t) : Keeps s (t.putCfl x) := h.same

theorem Keeps.putSch {x} (h : Keeps s t) : Keeps s (t.putSch x) := h.same

theorem Keeps.putIntake {x} (h : Keeps s t) : Keeps s (t.putIntake x) := h.same

theorem Keeps.putLook {x} (h : Keeps s t) : Keeps s (t.putLook x) := h.same

theorem Keeps.putRing {x} (h : Keeps s t) : Keeps s (t.putRing x) := h.same

theorem Keeps.putSto {x} (h : Keeps s t) : Keeps s (t.putSto x) := h.same

theorem Keeps.putLink {x} (h : Keeps s t) : Keeps s (t.putLink x) := h.same

theorem Keeps.putKeys {x} (h : Keeps s t) : Keeps s (t.putKeys x) := h.same

theorem Keeps.putTrust {x} (h : Keeps s t) (e : (t.putTrust x).kept = t.kept := by rfl) : Keeps s (t.putTrust x) := h.same e

theorem Keeps.putDma {x} (h : Keeps s t) : Keeps s (t.putDma x) := h.same

theorem Keeps.wr {r i v} (h : Keeps s t) : Keeps s (t.wr r i v) := ⟨fun hs => (h.memory hs).wr r i v, h.fuses, h.pending⟩

theorem Keeps.setFld {f i v} (h : Keeps s t) : Keeps s (t.setFld f i v) := h.wr

theorem Keeps.satInc {f i n} (h : Keeps s t) : Keeps s (t.satInc f i n) := h.setFld

theorem Keeps.modInc {f i n} (h : Keeps s t) : Keeps s (t.modInc f i n) := h.setFld

theorem Keeps.wr64 {lo hi i v} (h : Keeps s t) : Keeps s (t.wr64 lo hi i v) := h.wr.wr

theorem Keeps.writeTyped {r i v} (h : Keeps s t) : Keeps s (t.writeTyped r i v) := h.wr

theorem Keeps.resetRegs {p} (h : Keeps s t) : Keeps s (t.resetRegs p) := ⟨fun hs => (h.memory hs).resetRegs p, h.fuses, h.pending⟩

theorem Keeps.setLatch {r i v} (h : Keeps s t) : Keeps s (t.setLatch r i v) := h.putLatch

theorem Keeps.setStage {r i v} (h : Keeps s t) : Keeps s (t.setStage r i v) := h.putStage

theorem Keeps.emit {m} (h : Keeps s t) : Keeps s (t.emit m) := h.putOut

theorem Keeps.answer {r} (h : Keeps s t) : Keeps s (t.answer r) := h.putReply

theorem Keeps.draw (h : Keeps s t) : Keeps s t.draw := h.putFree

theorem Keeps.atChip {chip f} (h : Keeps s t) (hf : ∀ {u}, Keeps s u → Keeps s (f u)) : Keeps s (t.atChip chip f) :=
  .ite (hf h).answer h.answer

theorem Keeps.readAt {chip f} (h : Keeps s t) (hf : ∀ {u}, Keeps s u → Keeps s (f u).2) : Keeps s (t.readAt chip f) :=
  .ite (hf h).answer h.answer

theorem Keeps.msix {ep fn vec} (h : Keeps s t) : Keeps s (t.msix ep fn vec) := .ite h (.ite h (.ite h.setFld h.emit))

theorem Keeps.hostAsk {ep fn a n ro down} (h : Keeps s t) : Keeps s (t.hostAsk ep fn a n ro down) := h.foldl fun hu => hu.emit

theorem Keeps.hostPut {ep fn a l ro down} (h : Keeps s t) : Keeps s (t.hostPut ep fn a l ro down) := h.foldl fun hu => hu.emit

theorem Keeps.msixPf1 {ep vec} (h : Keeps s t) : Keeps s (t.msixPf1 ep vec) := .ite h.msix h

theorem Keeps.wrEntryWord {r i w} (h : Keeps s t) : Keeps s (t.wrEntryWord r i w) := h.wr.wr

theorem Keeps.wrEntry {r i e} (h : Keeps s t) : Keeps s (t.wrEntry r i e) := h.wrEntryWord.wrEntryWord.wrEntryWord.wrEntryWord

theorem Keeps.histAdd {g e} (h : Keeps s t) : Keeps s (t.histAdd g e) := h.wrEntry.setFld.modInc

theorem Keeps.troubleSignal {g} (h : Keeps s t) : Keeps s (t.troubleSignal g) := .ite (Keeps.ite h.emit h).msixPf1 (.ite h.emit h)

theorem Keeps.troubleStat {g sev} (h : Keeps s t) : Keeps s (t.troubleStat g sev) := .ite h (.ite h.setFld.troubleSignal h.setFld)

theorem Keeps.logSend {g code e} (h : Keeps s t) : Keeps s (t.logSend g code e) := .ite h.putTrb (.ite h.putTrb.satInc h.putTrb.putTrb)

theorem Keeps.eventAt {chip blk skind low code sev data inj} (h : Keeps s t) : Keeps s (t.eventAt chip blk skind low code sev data inj) :=
  h.histAdd.troubleStat.logSend

theorem Keeps.event {chip blk code sev data} (h : Keeps s t) : Keeps s (t.event chip blk code sev data) := h.eventAt

theorem Keeps.setEcc {k v} (h : Keeps s t) : Keeps s (t.setEcc k v) := h.putPlat

theorem Keeps.eccFound {scrub e} (h : Keeps s t) : Keeps s (State.eccFound scrub t e) := .ite h.setEcc.eventAt h.eventAt

theorem Keeps.eccRead {gs a n scrub} (h : Keeps s t) : Keeps s (t.eccRead gs a n scrub).2 := h.foldl fun hu => hu.eccFound

theorem Keeps.eccWipe {gs a n} (h : Keeps s t) : Keeps s (t.eccWipe gs a n) := h.putPlat

theorem Keeps.eccClear {gs} (h : Keeps s t) : Keeps s (t.eccClear gs) := h.putPlat

theorem Keeps.when {c f} (h : Keeps s t) (hf : ∀ {u}, Keeps s u → Keeps s (f u)) : Keeps s (t.when c f) := .ite (hf h) h

theorem Answers.done (h : Keeps s t) : Answers s (done t) := ⟨t, rfl, h⟩

/-! ### Functions of Machine/Time -/

theorem Keeps.setFreq {f} (h : Keeps s t) : Keeps s (t.setFreq f) := h.wr.putTime

theorem Keeps.enterHoldover (h : Keeps s t) : Keeps s t.enterHoldover := .ite h.setFld.setFld.putTime h.setFld.setFld.putTime.setFreq

theorem Keeps.refLost {was} (h : Keeps s t) : Keeps s (t.refLost was) := .ite h.setFreq h

theorem Keeps.endFreeRun {data} (h : Keeps s t) : Keeps s (t.endFreeRun data) := .ite h.setFld.event h

theorem Keeps.enterLocking (h : Keeps s t) : Keeps s t.enterLocking := .ite h.setFld.setFld.putTime.endFreeRun.draw h.setFld.setFld.putTime

theorem Keeps.reclock (h : Keeps s t) : Keeps s t.reclock := .ite (.ite h.enterLocking h) (.ite h.enterHoldover h)

theorem Keeps.execTimeAdvance (h : Keeps s t) : Answers s (execTimeAdvance t) := .done (h.putTime.when (fun hu => hu.putKeys)).putEng

theorem Keeps.ppsValidEdge (h : Keeps s t) : Keeps s t.ppsValidEdge := .ite h.putTime.setFld.reclock h.putTime

theorem Keeps.ppsBadEdge (h : Keeps s t) : Keeps s t.ppsBadEdge := .ite h.putTime.setFld.reclock h.putTime

theorem Keeps.execPpsEdge (h : Keeps s t) : Answers s (execPpsEdge t) :=
  .ite (.done h.ppsValidEdge) (.done (.ite h.ppsBadEdge h.ppsBadEdge.putTime))

theorem Keeps.execPpsEdgeMissing (h : Keeps s t) : Answers s (execPpsEdgeMissing t) := .done h.ppsBadEdge

theorem Keeps.execTref10Measure {ppb} (h : Keeps s t) : Answers s (execTref10Measure ppb t) :=
  .ite (.done (.ite h.setFld.setFreq h.setFld)) (.done h.setFld.refLost)

theorem Keeps.execTref10EdgeTimeout (h : Keeps s t) : Answers s (execTref10EdgeTimeout t) := .done h.setFld.refLost

theorem Keeps.execPpsOutRise (h : Keeps s t) : Answers s (execPpsOutRise t) := .done (.ite h.putTime h)

theorem Keeps.execPpsOutFall (h : Keeps s t) : Answers s (execPpsOutFall t) := .done (.ite h.putTime h)

theorem Keeps.setPtpPort {p x} (h : Keeps s t) : Keeps s (t.setPtpPort p x) := h.putTime.setFld.reclock

theorem Keeps.execPtpMessageReceive {port domain outcome} (h : Keeps s t) : Answers s (execPtpMessageReceive port domain outcome t) :=
  .ite (.done h.putTime) (.done (.ite h.setPtpPort h))

theorem Keeps.execAnnounceReceiptTimeout {port} (h : Keeps s t) : Answers s (execAnnounceReceiptTimeout port t) :=
  .done (.ite h.setPtpPort h)

theorem Keeps.countWithin {src offset} (h : Keeps s t) : Keeps s (t.countWithin src offset) :=
  .ite (.ite h.putTime.setFld.putTime.reclock h.putTime.setFld) h.putTime

theorem Keeps.execPhaseMeasurement {src offset freq} (h : Keeps s t) : Answers s (execPhaseMeasurement src offset freq t) :=
  .ite (.done h) (.done (Keeps.ite h.wr h.wr.setFreq).countWithin)

theorem Keeps.execHoldoverSecond (h : Keeps s t) : Answers s (execHoldoverSecond t) := .done (.ite h.satInc h)

theorem Keeps.correctBy {d} (h : Keeps s t) : Keeps s (t.correctBy d) := .ite h.putTime h.putTime

theorem Keeps.correct {wanted} (h : Keeps s t) : Keeps s (t.correct wanted) := h.correctBy

theorem Keeps.timeSet (h : Keeps s t) : Keeps s t.timeSet :=
  .ite (Keeps.ite h.putTime.endFreeRun.enterHoldover h.putTime.endFreeRun).correct.reclock h.setFld

theorem Keeps.execTimeSet (h : Keeps s t) : Answers s (execTimeSet t) := .done (h.atChip (fun hu => hu.timeSet))

theorem Keeps.execTimeCorrectionDue {src wanted} (h : Keeps s t) : Answers s (execTimeCorrectionDue src wanted t) := by
  unfold Machine.execTimeCorrectionDue
  exact .done (by split; exacts [h.correctBy, h])

theorem Keeps.applyStep (h : Keeps s t) : Keeps s t.applyStep := by
  dsimp only [State.applyStep]
  split
  · exact h
  · exact (Keeps.ite h.event.setFld.satInc h.event.setFld.satInc).putTime

theorem Keeps.timeCtlWrite {v} (h : Keeps s t) : Keeps s (t.timeCtlWrite v) :=
  .ite h.writeTyped.refLost.reclock.timeSet h.writeTyped.refLost.reclock

theorem Keeps.stepThrWrite {v} (h : Keeps s t) : Keeps s (t.stepThrWrite v) := h.wr

/-! ### Functions of Machine/Tide -/

theorem Keeps.setUnitWork {ux cls w} (h : Keeps s t) : Keeps s (t.setUnitWork ux cls w) := h.putTide

theorem Keeps.setFordWin {ux w} (h : Keeps s t) : Keeps s (t.setFordWin ux w) := h.putTide

theorem Keeps.openFord {ux cls f start} (h : Keeps s t) : Keeps s (t.openFord ux cls f start) := by
  unfold State.openFord
  refine .ite ?_ ?_
  · exact h
  · split
    · exact .ite h h.satInc
    · exact h.setFordWin

theorem Keeps.fireArrive {ux cls f} (h : Keeps s t) : Keeps s (t.fireArrive ux cls f) := by
  dsimp only [State.fireArrive]
  refine .ite ?_ ?_
  · exact h
  · split
    · exact h.setUnitWork.openFord
    · exact h.setUnitWork
    · exact h.setUnitWork.satInc

theorem Keeps.fireTake {ux cls f} (h : Keeps s t) : Keeps s (t.fireTake ux cls f) := h.putTide

theorem Keeps.workEnd {ux cls} (h : Keeps s t) : Keeps s (t.workEnd ux cls) := by
  dsimp only [State.workEnd]
  split
  · exact .ite h.setUnitWork.setFordWin h.setUnitWork
  · exact h.setUnitWork

theorem Keeps.startPending {ux cls} (h : Keeps s t) : Keeps s (t.startPending ux cls) := by
  unfold State.startPending
  split
  · exact h
  · exact h.setUnitWork.openFord

theorem Keeps.execFordWindowClose {ux} (h : Keeps s t) : Answers s (execFordWindowClose ux t) := by
  unfold Machine.execFordWindowClose
  exact .done (by split; exacts [.ite h.setFordWin h, h])

theorem Keeps.skipSlot {a b i} (h : Keeps s t) : Keeps s (State.skipSlot a b t i) := .ite h h.setFld.satInc

theorem Keeps.sendSlot {c i} (h : Keeps s t) : Keeps s (t.sendSlot c i) :=
  .ite (.ite (Keeps.ite h.emit.putTide h.emit.putTide.satInc).setFld.setFld (Keeps.ite h.emit.putTide h.emit.putTide.satInc).setFld) h

theorem Keeps.takeLen (h : Keeps s t) : Keeps s t.takeLen := h.setFld.setFld

theorem Keeps.skipRange {a b} (h : Keeps s t) : Keeps s (t.skipRange a b) := .ite (h.foldl fun hu => hu.skipSlot) h

theorem Keeps.skipTo {c} (h : Keeps s t) : Keeps s (t.skipTo c) := .ite h.skipRange.takeLen.skipRange h.skipRange

theorem Keeps.evaluate (h : Keeps s t) : Keeps s t.evaluate := .ite h.setFld h.skipTo.sendSlot.putTide.wr.setFld

theorem Keeps.fireBeforeStep (h : Keeps s t) : Keeps s t.fireBeforeStep := h.putTide

theorem Keeps.closeFords (h : Keeps s t) : Keeps s t.closeFords := h.putTide

theorem Keeps.tideBoundary (h : Keeps s t) : Keeps s t.tideBoundary :=
  (Keeps.ite h.putTime.fireBeforeStep.applyStep.closeFords h.putTime).evaluate

theorem Keeps.ttbCtlWrite {v} (h : Keeps s t) : Keeps s (t.ttbCtlWrite v) :=
  .ite h (.ite h.setFld.setFld.setFld (.ite h.setFld.setFld h.setFld.setFld))

theorem Keeps.slotW1Write {slot v} (h : Keeps s t) : Keeps s (t.slotW1Write slot v) := h.setStage

theorem Keeps.execTtbSlotW1Write {slot v} (h : Keeps s t) : Answers s (execTtbSlotW1Write slot v t) :=
  .done (h.atChip (fun hu => hu.slotW1Write))

theorem Keeps.slotW0Write {who slot v} (h : Keeps s t) : Keeps s (t.slotW0Write who slot v) := by
  dsimp only [State.slotW0Write]
  refine .ite ?_ ?_
  · exact h
  · exact (by split; exacts [h.wr.setStage, h] : Keeps s _).writeTyped

/-! ### Functions of Machine/Threads -/

theorem Keeps.setThread {th tx} (h : Keeps s t) : Keeps s (t.setThread th tx) := h.putEng

theorem Keeps.takeCredit {th} (h : Keeps s t) (e : t.takeCredit th = some u) : Keeps s u := by
  dsimp only [State.takeCredit] at e
  split at e
  · exact Option.some.inj e ▸ h.setThread.modInc
  · split at e
    · exact Option.some.inj e ▸ h.setThread.modInc.setFld
    · cases e

theorem Keeps.returnCredit {th} (h : Keeps s t) : Keeps s (t.returnCredit th) := by
  unfold State.returnCredit
  exact .ite h.setFld.setThread h.setFld.setThread.modInc

theorem Keeps.fillShare {cl th} (h : Keeps s t) : Keeps s (State.fillShare cl t th) := .ite h.setThread.setFld.setFld h

theorem Keeps.trimCredits {cl slots share} (h : Keeps s t) : Keeps s (State.trimCredits cl slots share t) :=
  h.foldl fun hu => hu.setThread.modInc

theorem Keeps.setBufList {cl l} (h : Keeps s t) : Keeps s (t.setBufList cl l) := h.putEng

theorem Keeps.bufAlloc {cl th} (h : Keeps s t) : Keeps s (t.bufAlloc cl th).2 := by
  dsimp only [State.bufAlloc]
  refine .ite_snd ?_ ?_
  · exact h
  · split
    · exact h
    · split
      · exact .ite_snd h.draw.setBufList.modInc.setThread h.draw.setBufList.modInc.setFld
      · exact h.draw.setBufList.modInc.setFld

theorem Keeps.bufReturn {cl th} (h : Keeps s t) : Keeps s (t.bufReturn cl th) := by
  dsimp only [State.bufReturn]
  split
  · exact .ite h.setFld.setThread h.setFld.modInc
  · exact h.setFld.modInc

theorem Keeps.bufFree {cl addr} (h : Keeps s t) : Keeps s (t.bufFree cl addr) := by
  unfold State.bufFree
  split
  · exact h.satInc
  · exact h.setBufList.bufReturn

theorem Keeps.bufFreeAll {th} (h : Keeps s t) : Keeps s (t.bufFreeAll th) := h.setBufList.foldl fun hu => hu.bufReturn

theorem Keeps.switchFrom {th} (h : Keeps s t) : Keeps s (t.switchFrom th) := by
  dsimp only [State.switchFrom]
  split
  · exact h.putEng
  · exact h

theorem Keeps.stall {th w} (h : Keeps s t) : Keeps s (t.stall th w) := h.setThread.switchFrom

theorem Keeps.makeReady {th} (h : Keeps s t) : Keeps s (t.makeReady th) := .ite h.setThread h.setThread.putEng

theorem Keeps.makeReadyAll {l} (h : Keeps s t) : Keeps s (t.makeReadyAll l) :=
  (h.foldl fun hu => hu.setThread).foldl fun hu => hu.switchFrom

theorem Keeps.setEvt {th m} (h : Keeps s t) : Keeps s (t.setEvt th m) := by
  dsimp only [State.setEvt]
  split
  · exact .ite h.setThread h.setThread.makeReady
  · exact h.setThread

/-! ### Functions of Machine/Memory -/

theorem Keeps.setDir {line d} (h : Keeps s t) : Keeps s (t.setDir line d) := h.putHbm

theorem Keeps.setLine {board line l} (h : Keeps s t) : Keeps s (t.setLine board line l) := h.putHbm

theorem Keeps.setPoison {line b} (h : Keeps s t) : Keeps s (t.setPoison line b) := h.putHbm

theorem Keeps.poisonLine {line} (h : Keeps s t) : Keeps s (t.poisonLine line) := h.setPoison.setDir.satInc.setFld.event

theorem Keeps.dropCopies {line} (h : Keeps s t) : Keeps s (t.dropCopies line) := (h.foldl fun hu => hu.setLine).setDir

theorem Keeps.setDue {board line n} (h : Keeps s t) : Keeps s (t.setDue board line n) := h.putHbm

theorem Keeps.payDue {board line wr} (h : Keeps s t) : Keeps s (t.payDue board line wr) := .ite h h.setDue

theorem Keeps.setHomeLine {line hx} (h : Keeps s t) : Keeps s (t.setHomeLine line hx) := h.putHbm

theorem Keeps.cohOpen {line board r wait} (h : Keeps s t) : Keeps s (t.cohOpen line board r wait) := h.setHomeLine

theorem Keeps.cohServe {line} (h : Keeps s t) : Keeps s (t.cohServe line) := by
  dsimp only [State.cohServe]
  split
  · exact h.cohOpen
  · exact h

theorem Keeps.dirDrop {board line} (h : Keeps s t) : Keeps s (t.dirDrop board line) := by
  dsimp only [State.dirDrop]
  split
  · exact .ite h.setDir h
  · exact h.setDir
  · exact h

theorem Keeps.writeBack {b n} (h : Keeps s t) : Keeps s (t.writeBack b n) := h.setLine.setDue.dirDrop.emit.putHbm

theorem Keeps.evictClean {b n} (h : Keeps s t) : Keeps s (t.evictClean b n) := h.setLine.setDue.dirDrop.emit

theorem Keeps.sscRoom {b} (h : Keeps s t) : Keeps s (t.sscRoom b) := .ite h (.ite h.draw.writeBack h.draw.evictClean)

theorem Keeps.homeAnswer {line tx b} (h : Keeps s t) : Keeps s (State.homeAnswer line tx t b) :=
  .ite (Keeps.ite h.emit h).setDue.setLine.dirDrop.emit (.ite (Keeps.ite h.emit h).setDue.emit (.ite (Keeps.ite h.emit
    h).setDue.setLine.setDir.emit (Keeps.ite h.emit h).setDue.setLine.setDir.emit))

theorem Keeps.cohEnd {line} (h : Keeps s t) : Keeps s (t.cohEnd line) := h.setHomeLine

theorem Keeps.cohShare {b n} (h : Keeps s t) : Keeps s (t.cohShare b n) := by
  dsimp only [State.cohShare]
  exact (by split; exacts [(Keeps.ite h.sscRoom h).setDir, (Keeps.ite h.sscRoom h).setDir] : Keeps s _).setLine.setDue.cohEnd.emit

theorem Keeps.cohOwn {board line kind} (h : Keeps s t) : Keeps s (t.cohOwn board line kind) :=
  (Keeps.ite h.sscRoom h).dropCopies.setLine.setDir.setDue.cohEnd.emit

theorem Keeps.homeFinish {line} (h : Keeps s t) : Keeps s (t.homeFinish line) := by
  dsimp only [State.homeFinish]
  split
  · exact h
  · split
    · exact (h.foldl fun hu => hu.homeAnswer).cohShare
    · exact (h.foldl fun hu => hu.homeAnswer).cohOwn
    · exact (h.foldl fun hu => hu.homeAnswer).cohOwn

theorem Keeps.homeSettle {line} (h : Keeps s t) : Keeps s (t.homeSettle line) := h.foldl fun hu => hu.homeFinish.cohServe

theorem Keeps.hbmPut {off l} (h : Keeps s t) : Keeps s (t.hbmPut off l) :=
  have hmem : s.MemoryOk → Memory.wf (Tbl.writeBytes t.hbm.mem off l) = true := fun hs => Tbl.wf_writeBytes _ _ _ (h.memory hs).2.1
  .foldl ⟨fun hs => ⟨(h.memory hs).1, hmem hs, (h.memory hs).2.2⟩, h.fuses, h.pending⟩ fun hu => .ite hu.setPoison hu

theorem Keeps.hbmWrite {off l} (h : Keeps s t) : Keeps s (t.hbmWrite off l) := .ite h (h.hbmPut.foldl fun hu => hu.homeSettle.dropCopies)

theorem Keeps.fetchForRead {line} (h : Keeps s t) : Keeps s (t.fetchForRead line) := by
  dsimp only [State.fetchForRead]
  split
  · exact h.homeSettle.setLine.setDir
  · exact h.homeSettle

theorem Keeps.acquireShared {board line} (h : Keeps s t) : Keeps s (t.acquireShared board line) := by
  unfold State.acquireShared
  extract_lets s1 s2
  have h1 : Keeps s s1 := .ite h.homeSettle h
  have h2 : Keeps s s2 := h1.fetchForRead.sscRoom.setLine
  refine .ite h1.payDue ?_
  split
  · exact h2.setDir
  · exact h2.setDir

theorem Keeps.acquireOwned {board line wr} (h : Keeps s t) : Keeps s (t.acquireOwned board line wr) := by
  unfold State.acquireOwned
  extract_lets s1 s2 s3
  have h1 : Keeps s s1 := .ite h h.homeSettle
  have h3 : Keeps s s3 := .ite h1.sscRoom h1
  exact .ite (.ite h1.payDue.setLine h1.payDue) h3.dropCopies.setLine.setDir

theorem Keeps.hbmStore {board off l} (h : Keeps s t) : Keeps s (t.hbmStore board off l) := h.hbmPut.foldl fun hu => hu.acquireOwned

theorem Keeps.hbmGet {addr n} (h : Keeps s t) : Keeps s (t.hbmGet addr n).2 := .ite_snd h (h.eccRead.foldl fun hu => hu.fetchForRead)

theorem Keeps.hbmSet {addr l} (h : Keeps s t) : Keeps s (t.hbmSet addr l).2 := .ite_snd h h.hbmWrite

theorem Keeps.hbmTouch {l} (h : Keeps s t) : Keeps s (t.hbmTouch l).2 := by
  induction l generalizing t with
  | nil => exact h
  | cons x l ih => exact ih h.hbmGet

theorem Keeps.hbmPutBy {off l} (h : Keeps s t) : Keeps s (t.hbmPutBy off l) := h.hbmSet

theorem Keeps.hbmClear {n} (h : Keeps s t) : Keeps s (t.hbmClear n) := by
  unfold State.hbmClear
  extract_lets s1 s2
  have h1 : Keeps s s1 := h.foldl fun hu => hu.homeSettle
  have h2 : Keeps s s2 := h1.foldl fun hu => hu.dropCopies
  refine .eccWipe ⟨fun hs => ?_, h2.fuses, h2.pending⟩
  obtain ⟨hr, hm, hrest⟩ := h2.memory hs
  exact ⟨hr, Tbl.wf_filter _ _ _ hm, hrest⟩

theorem Keeps.localWrite {eng off l} (h : Keeps s t) : Keeps s (t.localWrite eng off l) :=
  ⟨fun hs => (h.memory hs).localWrite eng off l, h.fuses, h.pending⟩

theorem Keeps.clusterWrite {cl off l} (h : Keeps s t) : Keeps s (t.clusterWrite cl off l) :=
  ⟨fun hs => (h.memory hs).clusterWrite cl off l, h.fuses, h.pending⟩

theorem Keeps.progWrite {cl idx v} (h : Keeps s t) : Keeps s (t.progWrite cl idx v) :=
  ⟨fun hs => (h.memory hs).progWrite cl idx v, h.fuses, h.pending⟩

theorem Keeps.execProgramStoreWrite {cl index v} (h : Keeps s t) : Answers s (execProgramStoreWrite cl index v t) :=
  .done (h.atChip (fun hu => hu.progWrite))

/-! ### Functions of Machine/Ledgers -/

theorem Keeps.setRing {k r} (h : Keeps s t) : Keeps s (t.setRing k r) := h.putRing

theorem Keeps.updRef {desc f} (h : Keeps s t) : Keeps s (t.updRef desc f) := by
  dsimp only [State.updRef]
  split
  · exact h
  · exact .ite h.setRing h

theorem Keeps.descDone {desc code reason} (h : Keeps s t) : Keeps s (t.descDone desc code reason) := h.updRef

theorem Keeps.descStamp {desc ns sec} (h : Keeps s t) : Keeps s (t.descStamp desc ns sec) := h.updRef

theorem Keeps.setCred {a c} (h : Keeps s t) : Keeps s (t.setCred a c) := h.putLink

theorem Keeps.retireCredit {i} (h : Keeps s t) : Keeps s (t.retireCredit i) := by
  dsimp only [State.retireCredit]
  split
  · exact h.setCred
  · exact h

theorem Keeps.showTxAvail {a} (h : Keeps s t) : Keeps s (t.showTxAvail a) := h.setFld

theorem Keeps.sendReturn {a} (h : Keeps s t) : Keeps s (t.sendReturn a) := h.setCred.setFld

/-! ### Functions of Machine/Confluence -/

theorem Keeps.watchFree (h : Keeps s t) : Keeps s t.watchFree := h.putCfl

theorem Keeps.setBooks {b} (h : Keeps s t) : Keeps s (t.setBooks b) := h.putCfl

theorem Keeps.freeCells {n} (h : Keeps s t) : Keeps s (t.freeCells n) := h.putCfl.watchFree

theorem Keeps.execReclaimToFree {n} (h : Keeps s t) : Answers s (execReclaimToFree n t) := .done h.freeCells

theorem Keeps.reclaimCells {l queued} (h : Keeps s t) : Keeps s (t.reclaimCells l queued) := h.putCfl

theorem Keeps.takeCells {n} (h : Keeps s t) : Keeps s (t.takeCells n).2 := h.draw.putCfl.watchFree

theorem Keeps.bookSnap {v} (h : Keeps s t) : Keeps s (t.bookSnap v) := .ite h.setFld.setFld.setFld.setFld.setFld h

theorem Keeps.execBookSnap {v} (h : Keeps s t) : Answers s (execBookSnap v t) := .done (h.atChip (fun hu => hu.bookSnap))

theorem Keeps.setFrame {first f} (h : Keeps s t) : Keeps s (t.setFrame first f) := h.putCfl

theorem Keeps.updFrame {hx g} (h : Keeps s t) : Keeps s (t.updFrame hx g) := by
  unfold State.updFrame
  split
  · exact h.setFrame
  · exact h

theorem Keeps.allocCells {n} (h : Keeps s t) : Keeps s (t.allocCells n).2 := .ite_snd h.takeCells h.satInc

theorem Keeps.placeFrame {f} (h : Keeps s t) : Keeps s (t.placeFrame f).2 := h.setFrame.putCfl

theorem Keeps.newHandle {f} (h : Keeps s t) : Keeps s (t.newHandle f).2 := h.placeFrame

theorem Keeps.reclaimFrame {first} (h : Keeps s t) : Keeps s (t.reclaimFrame first) := by
  unfold State.reclaimFrame
  split
  · exact h
  · exact h.setFrame.descDone.reclaimCells

theorem Keeps.cellWipe {f off n} (h : Keeps s t) : Keeps s (t.cellWipe f off n) := h.foldl fun hu => hu.eccWipe

theorem Keeps.frameDone {first code reason} (h : Keeps s t) : Keeps s (t.frameDone first code reason) := by
  unfold State.frameDone
  split
  · exact h
  · exact h.descDone

theorem Keeps.commitFrame {first} (h : Keeps s t) : Keeps s (t.commitFrame first) := by
  unfold State.commitFrame
  split
  · exact h
  · exact .ite h h.setFrame.setBooks

theorem Keeps.addRef {first} (h : Keeps s t) : Keeps s (t.addRef first) := by
  unfold State.addRef
  split
  · exact h
  · exact h.setFrame

theorem Keeps.dropRef {first} (h : Keeps s t) : Keeps s (t.dropRef first) := by
  unfold State.dropRef
  split
  · exact h
  · exact .ite h.reclaimFrame h.setFrame

theorem Keeps.freeSlot {board slot} (h : Keeps s t) : Keeps s (t.freeSlot board slot) := by
  dsimp only [State.freeSlot]
  split
  · exact h
  · exact h.setFld.putIntake

theorem Keeps.setInput {i x} (h : Keeps s t) : Keeps s (t.setInput i x) := h.putCfl

theorem Keeps.stampSeq {i} (h : Keeps s t) : Keeps s (t.stampSeq i).2 := h.setInput

theorem Keeps.slotCredit {c} (h : Keeps s t) : Keeps s (t.slotCredit c) := by
  unfold State.slotCredit
  split
  · exact h.returnCredit
  · exact h

theorem Keeps.lateSlot {c} (h : Keeps s t) : Keeps s (t.lateSlot c) := by
  dsimp only [State.lateSlot]
  exact (by split; exacts [h.reclaimFrame.retireCredit, h] : Keeps s _).satInc.slotCredit

theorem Keeps.sendCommit {i c} (h : Keeps s t) : Keeps s (t.sendCommit i c) := .ite h.lateSlot h.setInput

theorem Keeps.dropHandle {hx reason} (h : Keeps s t) : Keeps s (t.dropHandle hx reason) := by
  dsimp only [State.dropHandle]
  split
  · exact h.satInc
  · exact (by split; exacts [h.setFrame.freeSlot, h.setFrame] : Keeps s _).sendCommit

theorem Keeps.refuse {q} (h : Keeps s t) : Keeps s (t.refuse q) := (Keeps.ite h.satInc h.satInc.wr64).putCfl

theorem Keeps.setQueue {q l} (h : Keeps s t) : Keeps s (t.setQueue q l) := h.putCfl

theorem Keeps.setSpillList {c l} (h : Keeps s t) : Keeps s (t.setSpillList c l) := h.putCfl

theorem Keeps.unlist {q} (h : Keeps s t) : Keeps s (t.unlist q) := h.putCfl

theorem Keeps.list {q} (h : Keeps s t) : Keeps s (t.list q) := .ite h (.ite h.setSpillList h.satInc)

theorem Keeps.setDepth {q d} (h : Keeps s t) : Keeps s (t.setDepth q d) := .ite h.setFld.unlist (.ite h.setFld.list h.setFld)

theorem Keeps.qadmWrite {q v} (h : Keeps s t) : Keeps s (t.qadmWrite q v) :=
  .ite h.writeTyped (.ite h.writeTyped.unlist (.ite h.writeTyped h.writeTyped.unlist.list))

theorem Keeps.enqueue {q e n} (h : Keeps s t) : Keeps s (t.enqueue q e n) := h.setQueue.setDepth

theorem Keeps.unlinkTail {q e} (h : Keeps s t) : Keeps s (t.unlinkTail q e).2 := by
  dsimp only [State.unlinkTail]
  exact (Keeps.ite h.setQueue.frameDone.setFrame.setBooks (by split; exacts [h.setQueue.setFrame, h.setQueue])).satInc.satInc.putCfl

theorem Keeps.workVictim {q need fuel freed} (h : Keeps s t) : Keeps s (State.workVictim q need fuel freed t).2 := by
  induction fuel generalizing freed t with
  | zero => exact h
  | succ fuel ih =>
    unfold State.workVictim
    split
    · exact h
    · exact .ite_snd (ih h.unlinkTail) h

theorem Keeps.spillFor {cls need fuel freed} (h : Keeps s t) : Keeps s (State.spillFor cls need fuel freed t).2 := by
  induction fuel generalizing freed t with
  | zero => exact h
  | succ fuel ih =>
    unfold State.spillFor
    refine .ite_snd h ?_
    split
    · exact h
    · exact ih h.workVictim.setSpillList

theorem Keeps.admitOrSpill {q n colour} (h : Keeps s t) : Keeps s (t.admitOrSpill q n colour).2 :=
  .ite_snd h.refuse (.ite_snd h (.ite_snd (.ite_snd h.spillFor h.spillFor.satInc.refuse) h.refuse))

theorem Keeps.execSpillDepthLand (h : Keeps s t) : Answers s (execSpillDepthLand t) := by
  dsimp only [Machine.execSpillDepthLand]
  split
  · exact .done h
  · exact .done h.putCfl.setDepth.setBooks

theorem Keeps.eddySample {ses} (h : Keeps s t) : Keeps s (t.eddySample ses).2 := .ite_snd h (.ite_snd h (.ite_snd h.putKeys.draw h.putCfl))

theorem Keeps.eddyCandidate {ses first head len} (h : Keeps s t) : Keeps s (t.eddyCandidate ses first head len) :=
  .ite h (.ite h.eddySample (.ite h.eddySample.commitFrame.addRef.enqueue.satInc h.eddySample.refuse.satInc))

theorem Keeps.eddyIngress {i first head len dropped} (h : Keeps s t) : Keeps s (t.eddyIngress i first head len dropped) := by
  dsimp only [State.eddyIngress]
  split
  · exact h
  · exact .ite h (.ite h.eddyCandidate h)

theorem Keeps.stampFrame {first} (h : Keeps s t) : Keeps s (t.stampFrame first) := by
  unfold State.stampFrame
  split
  · exact h.setFrame
  · exact h

theorem Keeps.trim {first head len} (h : Keeps s t) : Keeps s (t.trim first head len).2 := by
  dsimp only [State.trim]
  split
  · exact h
  · exact .ite_snd h.setFrame.reclaimCells.setFrame h.setFrame.reclaimCells.placeFrame

theorem Keeps.discardFrame {i first head len} (h : Keeps s t) : Keeps s (t.discardFrame i first head len) := by
  dsimp only [State.discardFrame]
  split
  · exact .ite h.eddyIngress.reclaimFrame h.eddyIngress
  · exact h.eddyIngress

theorem Keeps.commitEnq {i first qword fword} (h : Keeps s t) : Keeps s (t.commitEnq i first qword fword) :=
  .ite (Keeps.ite h.trim.admitOrSpill.commitFrame.addRef.enqueue.eddyCandidate h.trim.admitOrSpill.commitFrame.addRef.enqueue).eddyIngress
    h.trim.admitOrSpill.frameDone.discardFrame

theorem Keeps.commitEnqm {i first group fword} (h : Keeps s t) : Keeps s (t.commitEnqm i first group fword) :=
  h.trim.commitFrame.addRef.putCfl.eddyIngress

theorem Keeps.dropCount {i reason} (h : Keeps s t) : Keeps s (t.dropCount i reason) := by
  dsimp only [State.dropCount]
  split
  · exact h.putCfl.putCfl
  · exact h.putCfl

theorem Keeps.commitSlot {i c} (h : Keeps s t) : Keeps s (t.commitSlot i c) := by
  dsimp only [State.commitSlot]
  split
  · exact h
  · exact (by split; exacts [h.dropCount.stampFrame.frameDone.discardFrame.retireCredit, h.dropCount.satInc] : Keeps s _).slotCredit
  · exact (by split; exacts [h.commitEnq.retireCredit, h.satInc] : Keeps s _).slotCredit
  · exact (by split; exacts [h.commitEnqm.retireCredit, h.satInc] : Keeps s _).slotCredit

theorem Keeps.commitNext {i} (h : Keeps s t) : Keeps s (t.commitNext i) := by
  dsimp only [State.commitNext]
  split
  · exact h
  · exact h.setInput.commitSlot

theorem Keeps.execSeqSkipTimeout {i} (h : Keeps s t) : Answers s (execSeqSkipTimeout i t) := .ite (.done h.setInput.satInc) (.done h)

theorem Keeps.replicateTo {j i} (h : Keeps s t) : Keeps s (State.replicateTo j t i) := .ite h (.ite h.addRef.enqueue h.refuse)

theorem Keeps.replicate (h : Keeps s t) : Keeps s t.replicate := by
  dsimp only [State.replicate]
  split
  · exact h
  · exact (Keeps.ite (h.putCfl.foldl fun hu => hu.replicateTo).satInc.frameDone (h.putCfl.foldl fun hu => hu.replicateTo)).dropRef

theorem Keeps.execMcGroupW1Write {grp v} (h : Keeps s t) : Answers s (execMcGroupW1Write grp v t) :=
  .done (h.atChip (fun hu => hu.setStage))

theorem Keeps.groupCommit {g v} (h : Keeps s t) : Keeps s (t.groupCommit g v) := .ite h.satInc h.writeTyped.setStage.writeTyped.setFld

theorem Keeps.execMcGroupCommit {grp v} (h : Keeps s t) : Answers s (execMcGroupCommit grp v t) :=
  .done (h.atChip (fun hu => hu.groupCommit))

theorem Keeps.fenceFrame {board first} (h : Keeps s t) : Keeps s (State.fenceFrame board t first) := by
  dsimp only [State.fenceFrame]
  split
  · exact h
  · exact .ite (.ite h.reclaimFrame.freeSlot.satInc.retireCredit h.reclaimFrame.freeSlot.satInc.retireCredit.sendCommit) h

theorem Keeps.fenceReclaim {board} (h : Keeps s t) : Keeps s (t.fenceReclaim board) := h.foldl fun hu => hu.fenceFrame

theorem Keeps.headroomWrite {v} (h : Keeps s t) : Keeps s (t.headroomWrite v) := .ite h.setFld h

theorem Keeps.prepWrite {i v} (h : Keeps s t) : Keeps s (t.prepWrite i v) := .ite h.wr (.ite h.wr h)

theorem Keeps.seqTmoWrite {v} (h : Keeps s t) : Keeps s (t.seqTmoWrite v) := h.setFld

/-! ### Functions of Machine/Sched -/

theorem Keeps.setNodeBuckets {n b} (h : Keeps s t) : Keeps s (t.setNodeBuckets n b) := h.putSch

theorem Keeps.addDebit {n len} (h : Keeps s t) : Keeps s (t.addDebit n len) := h.setNodeBuckets

theorem Keeps.landDebit {n} (h : Keeps s t) : Keeps s (t.landDebit n) := by
  dsimp only [State.landDebit]
  split
  · exact h
  · exact h.draw.setNodeBuckets

theorem Keeps.setPolBuckets {n b} (h : Keeps s t) : Keeps s (t.setPolBuckets n b) := h.putSch

theorem Keeps.police {n incolour b} (h : Keeps s t) : Keeps s (t.police n incolour b).2 :=
  .ite_snd (.ite h.satInc (.ite h.satInc h)) (.ite_snd h.setPolBuckets.satInc (.ite_snd h.setPolBuckets.satInc h.setPolBuckets))

theorem Keeps.setGatePort {p g} (h : Keeps s t) : Keeps s (t.setGatePort p g) := h.putSch

theorem Keeps.showGates {p} (h : Keeps s t) : Keeps s (t.showGates p) := h.setFld.setFld

theorem Keeps.setOutQueue {n l} (h : Keeps s t) : Keeps s (t.setOutQueue n l) := h.putSch

theorem Keeps.setTag {k v} (h : Keeps s t) : Keeps s (t.setTag k v) := h.putSch

theorem Keeps.setVtime {n b v} (h : Keeps s t) : Keeps s (t.setVtime n b v) := h.putSch

theorem Keeps.wake {c} (h : Keeps s t) : Keeps s (t.wake c) := .ite h h.setTag

theorem Keeps.settle (h : Keeps s t) : Keeps s t.settle := (h.foldl fun hu => hu.wake).putSch

theorem Keeps.advanceTag {c len} (h : Keeps s t) : Keeps s (t.advanceTag c len) := h.setVtime.setTag

theorem Keeps.releaseHead {port v ux c} (h : Keeps s t) : Keeps s (t.releaseHead port v ux c) := by
  dsimp only [State.releaseHead]
  split
  · exact h
  · exact .ite h.setQueue.setDepth.advanceTag.advanceTag.advanceTag.addDebit.addDebit.setOutQueue.frameDone.eddyCandidate
      h.setQueue.setDepth.advanceTag.advanceTag.advanceTag.addDebit.addDebit.setOutQueue.frameDone

theorem Keeps.release {port} (h : Keeps s t) : Keeps s (t.release port) := by
  dsimp only [State.release]
  split
  · exact h.settle.releaseHead.settle
  · exact h.settle

theorem Keeps.execSchedulerRelease {port} (h : Keeps s t) : Answers s (execSchedulerRelease port t) := .done h.release

theorem Keeps.execDebitLand {node} (h : Keeps s t) : Answers s (execDebitLand node t) := .done h.landDebit.settle

theorem Keeps.execBucketRefill {b} (h : Keeps s t) : Answers s (execBucketRefill b t) := by
  unfold Machine.execBucketRefill
  split
  · exact .done h.setNodeBuckets.settle
  · exact .done h.setPolBuckets

theorem Keeps.setParentPend {k v} (h : Keeps s t) : Keeps s (t.setParentPend k v) := h.putSch

theorem Keeps.queueW0Write {q v} (h : Keeps s t) : Keeps s (t.queueW0Write q v) :=
  .ite h.setFld.setFld.setParentPend.setFld.settle (.ite h.setFld.setFld.setFld.setFld.setParentPend.setFld.settle
    h.setFld.setFld.setParentPend.setFld.settle)

theorem Keeps.queueW1Write {q v} (h : Keeps s t) : Keeps s (t.queueW1Write q v) := .ite h.satInc h.setFld

theorem Keeps.nodeCfgWrite {n v} (h : Keeps s t) : Keeps s (t.nodeCfgWrite n v) :=
  .ite h.satInc (.ite h.setFld.setFld.setParentPend.setFld.settle (.ite h.setFld.setFld.setFld.setFld.setParentPend.setFld.settle
    h.setFld.setFld.setParentPend.setFld.settle))

theorem Keeps.execParentBandApply {child} (h : Keeps s t) : Answers s (execParentBandApply child t) := by
  unfold Machine.execParentBandApply
  split
  · split
    · exact .ite (.done h.setFld.setFld.setFld.setParentPend.settle) (.done h)
    · exact .done h
  · split
    · exact .ite (.done h.setFld.setFld.setFld.setParentPend.settle) (.done h)
    · exact .done h

theorem Keeps.shaperWrite {r n v} (h : Keeps s t) : Keeps s (t.shaperWrite r n v) := h.writeTyped.setNodeBuckets.settle

theorem Keeps.execShaperConfigWrite {r node v} (h : Keeps s t) : Answers s (execShaperConfigWrite r node v t) :=
  .done (h.atChip (fun hu => hu.when (fun hv => hv.shaperWrite)))

theorem Keeps.policerWrite {r n v} (h : Keeps s t) : Keeps s (t.policerWrite r n v) := h.writeTyped.setPolBuckets

theorem Keeps.execPolicerConfigWrite {r n v} (h : Keeps s t) : Answers s (execPolicerConfigWrite r n v t) :=
  .done (h.atChip (fun hu => hu.when (fun hv => hv.policerWrite)))

theorem Keeps.gateCtlWrite {p v} (h : Keeps s t) : Keeps s (t.gateCtlWrite p v) :=
  .ite (.ite h.setFld.satInc.settle h.setFld.setFld.settle) h.setFld.settle

theorem Keeps.execGateArm {port v} (h : Keeps s t) : Answers s (execGateArm port v t) := .done (h.atChip (fun hu => hu.gateCtlWrite))

theorem Keeps.gatePendWrite {r p v} (h : Keeps s t) : Keeps s (t.gatePendWrite r p v) := .ite h h.writeTyped

theorem Keeps.gateEntryWrite {i v} (h : Keeps s t) : Keeps s (t.gateEntryWrite i v) := .ite h h.writeTyped

theorem Keeps.gateTake {boundary p} (h : Keeps s t) : Keeps s (State.gateTake boundary t p) := .ite h.setGatePort h

theorem Keeps.gateFiring {f} (h : Keeps s t) : Keeps s (t.gateFiring f) := .ite (h.foldl fun hu => hu.gateTake) h.gateTake

theorem Keeps.gateSwap {p} (h : Keeps s t) : Keeps s (t.gateSwap p) := h.setGatePort.setFld.setFld.satInc.showGates

theorem Keeps.execGateListSwap {port} (h : Keeps s t) : Answers s (execGateListSwap port t) := .done (h.when (fun hu => hu.gateSwap.settle))

theorem Keeps.execGateIntervalEnd {port} (h : Keeps s t) : Answers s (execGateIntervalEnd port t) := .done h.showGates.settle

theorem Keeps.gateStep (h : Keeps s t) : Keeps s t.gateStep := h.foldl fun hu => hu.gateSwap

theorem Keeps.execEnqueueCommit {inp} (h : Keeps s t) : Answers s (execEnqueueCommit inp t) := .done h.commitNext.settle

theorem Keeps.execReplication (h : Keeps s t) : Answers s (execReplication t) := .done h.replicate.settle

theorem Keeps.setGauge {r g} (h : Keeps s t) : Keeps s (t.setGauge r g) := h.putSch

theorem Keeps.setGaugeAt {r tx} (h : Keeps s t) : Keeps s (t.setGaugeAt r tx) := h.putSch

theorem Keeps.execGaugePass {ring} (h : Keeps s t) : Answers s (execGaugePass ring t) :=
  .ite (.done h) (.ite (.done h.setGaugeAt.satInc) (.done h.setGaugeAt.setGauge.putSch))

theorem Keeps.gaugeStep {old} (h : Keeps s t) : Keeps s (t.gaugeStep old) := h.foldl fun hu => .ite hu.setGaugeAt hu.setGaugeAt

theorem Keeps.gaugePut {r rec} (h : Keeps s t) : Keeps s (t.gaugePut r rec) := .ite h.satInc h.hbmSet.setFld

theorem Keeps.execGaugeRecordWrite {ring} (h : Keeps s t) : Answers s (execGaugeRecordWrite ring t) := by
  dsimp only [Machine.execGaugeRecordWrite]
  split
  · exact .done h
  · exact .done h
  · exact .ite (.done h.putSch.gaugePut.setGauge) (.done h.putSch.gaugePut.setGauge)

theorem Keeps.gaugeZero {r} (h : Keeps s t) : Keeps s (t.gaugeZero r) := h.setFld.setFld

theorem Keeps.gauCtlWrite {r v} (h : Keeps s t) : Keeps s (t.gauCtlWrite r v) := .ite h (Keeps.ite h h.setGaugeAt).writeTyped.gaugeZero

theorem Keeps.execGauCtlWrite {ring v} (h : Keeps s t) : Answers s (execGauCtlWrite ring v t) := .done (h.atChip (fun hu => hu.gauCtlWrite))

theorem Keeps.gauPeriodWrite {r v} (h : Keeps s t) : Keeps s (t.gauPeriodWrite r v) := h.wr.setGaugeAt

/-! ### Functions of Machine/Policy -/

theorem Keeps.setPolTurn {p x} (h : Keeps s t) : Keeps s (t.setPolTurn p x) := h.putPlat

theorem Keeps.adapt {p lo hi v} (h : Keeps s t) : Keeps s (t.adapt p lo hi v) := .ite h h.setPolTurn.setFld.satInc

theorem Keeps.polWritten {p} (h : Keeps s t) : Keeps s (t.polWritten p) := (Keeps.ite h.wr.wr h).setPolTurn

theorem Keeps.polCtlWrite {p v} (h : Keeps s t) : Keeps s (t.polCtlWrite p v) := .ite h.polWritten h.polWritten.setFld

theorem Keeps.polManWrite {p v} (h : Keeps s t) : Keeps s (t.polManWrite p v) := h.polWritten.writeTyped

theorem Keeps.execPolCtlWrite {p v} (h : Keeps s t) : Answers s (execPolCtlWrite p v t) := .done (h.atChip (fun hu => hu.polCtlWrite))

theorem Keeps.execPolicyManualApply {p} (h : Keeps s t) : Answers s (execPolicyManualApply p t) := by
  unfold Machine.execPolicyManualApply
  split
  · exact .done h
  · exact .done (.ite h.setFld h)

theorem Keeps.execAdmissionAdapt (h : Keeps s t) : Answers s (execAdmissionAdapt t) :=
  .done (Keeps.ite h.adapt (.ite h.adapt h)).putCfl.watchFree

theorem Keeps.execEcnAdapt (h : Keeps s t) : Answers s (execEcnAdapt t) := .done h.adapt.putCfl.watchFree

theorem Keeps.execDiceHitLimitAdapt {board} (h : Keeps s t) : Answers s (execDiceHitLimitAdapt board t) :=
  .done (Keeps.ite h.adapt (.ite h.adapt h)).putLook

theorem Keeps.execDredgeSpeedAdapt {board} (h : Keeps s t) : Answers s (execDredgeSpeedAdapt board t) :=
  .done (.ite h.adapt (.ite h.adapt h))

theorem Keeps.execSlackSkipAdapt {link permille} (h : Keeps s t) : Answers s (execSlackSkipAdapt link permille t) :=
  .done (.ite h.adapt (.ite h.adapt h))

theorem Keeps.execPowerCapAdapt {tj tc} (h : Keeps s t) : Answers s (execPowerCapAdapt tj tc t) :=
  .done (.ite h (.ite h.setFld.setFld.adapt (.ite h.setFld.setFld.adapt h.setFld.setFld)))

theorem Keeps.steerShow {bank entry} (h : Keeps s t) : Keeps s (t.steerShow bank entry) := h.setFld.setFld

theorem Keeps.steerMove {bank entry} (h : Keeps s t) : Keeps s (t.steerMove bank entry) := .ite h.setFld.steerShow h

theorem Keeps.steerWrite {bank entry board} (h : Keeps s t) : Keeps s (t.steerWrite bank entry board) := .ite h h.setFld.steerShow

theorem Keeps.execSteerEntryWrite {bank entry board} (h : Keeps s t) : Answers s (execSteerEntryWrite bank entry board t) :=
  .done (h.atChip (fun hu => hu.steerWrite))

theorem Keeps.execSteerEntryMove {bank entry} (h : Keeps s t) : Answers s (execSteerEntryMove bank entry t) := .done h.steerMove

theorem Keeps.execSteerBalanceInterval {bank} (h : Keeps s t) : Answers s (execSteerBalanceInterval bank t) := by
  dsimp only [Machine.execSteerBalanceInterval]
  split
  · refine .ite ?_ ?_
    · split
      · exact .done h
      · exact .done h.steerWrite.satInc.putPlat
    · exact .done h
  · exact .done h

/-! ### Functions of Machine/Dice -/

theorem Keeps.setSlot {k e} (h : Keeps s t) : Keeps s (t.setSlot k e) := h.putLook

theorem Keeps.setBar {k e} (h : Keeps s t) : Keeps s (t.setBar k e) := h.putLook

theorem Keeps.setEntry {l e} (h : Keeps s t) : Keeps s (t.setEntry l e) := by
  unfold State.setEntry
  split
  · exact h.setSlot
  · exact h.setBar

theorem Keeps.countChange {board tx up change} (h : Keeps s t) : Keeps s (t.countChange board tx up change) := .ite h.setFld.modInc h.setFld

theorem Keeps.changed {board tx} (h : Keeps s t) : Keeps s (t.changed board tx) := h.modInc

theorem Keeps.usedUp {board} (h : Keeps s t) : Keeps s (t.usedUp board) := h.setFld

theorem Keeps.unpark {board bucket k} (h : Keeps s t) : Keeps s (t.unpark board bucket k) := by
  unfold State.unpark
  split
  · exact h.setFld
  · exact h.setSlot.setBar.setFld

theorem Keeps.removeAt {board l e change} (h : Keeps s t) : Keeps s (t.removeAt board l e change) := by
  dsimp only [State.removeAt]
  split
  · exact h.setEntry.countChange.unpark
  · exact h.setEntry.countChange.setFld

theorem Keeps.relocate {board h0 new fuel n cur bkt path} (h : Keeps s t) :
    Keeps s (relocate board h0 new fuel n t cur bkt path).s := by
  induction fuel generalizing n t cur bkt path with
  | zero => exact h
  | succ fuel ih =>
    dsimp only [Machine.relocate]
    split
    · exact h.setSlot
    · split
      · exact h.setSlot.setSlot
      · exact ih h.setSlot

theorem Keeps.undoPath {path cur} (h : Keeps s t) : Keeps s (undoPath path t cur) := by
  induction path generalizing t cur with
  | nil => exact h
  | cons k path ih =>
    unfold Machine.undoPath
    split
    · exact ih h.setSlot
    · exact ih h

theorem Keeps.noteHits {board hits limit reached} (h : Keeps s t) : Keeps s (t.noteHits board hits limit reached) := h.setFld.putLook

theorem Keeps.insertHard {board e} (h : Keeps s t) : Keeps s (t.insertHard board e).2 := by
  dsimp only [State.insertHard]
  refine .ite_snd h.relocate.noteHits.usedUp (.ite_snd ?_ h.relocate.noteHits.undoPath)
  split
  · exact h.relocate.noteHits.setBar.setFld
  · exact h.relocate.noteHits.undoPath

theorem Keeps.insertEntry {board e withLimit change} (h : Keeps s t) : Keeps s (t.insertEntry board e withLimit change).2 := by
  dsimp only [State.insertEntry]
  refine .ite_snd ?_ ?_
  · exact h
  · refine .ite_snd ?_ ?_
    · exact (Keeps.ite_snd h (by split; exacts [h.setSlot.usedUp, (by split; exacts [h.setSlot.usedUp, h.insertHard])])).countChange
    · exact (Keeps.ite_snd h (by split; exacts [h.setSlot.usedUp, (by split; exacts [h.setSlot.usedUp, h.insertHard])])).satInc

theorem Keeps.diceLookup {ib tx key16} (h : Keeps s t) : Keeps s (t.diceLookup ib tx key16).2.2 := by
  dsimp only [State.diceLookup]
  split
  · exact h
  · split
    · exact h
    · exact h.setEntry

theorem Keeps.setInsTokens {k x} (h : Keeps s t) : Keeps s (t.setInsTokens k x) := h.putLook

theorem Keeps.takeInsert {board inst} (h : Keeps s t) : Keeps s (t.takeInsert board inst).2 :=
  .ite_snd h (.ite_snd h.setInsTokens.satInc h.setInsTokens)

theorem Keeps.insW0Write {k v} (h : Keeps s t) : Keeps s (t.insW0Write k v) := h.writeTyped.setFld.setInsTokens

theorem Keeps.pipeInsert {p inst tx key16 val16} (h : Keeps s t) : Keeps s (t.pipeInsert p inst tx key16 val16).2 :=
  .ite_snd h h.insertEntry

theorem Keeps.pipeDelete {p tx key16} (h : Keeps s t) : Keeps s (t.pipeDelete p tx key16).2 := by
  dsimp only [State.pipeDelete]
  refine .ite_snd ?_ ?_
  · exact h
  · split
    · exact h
    · exact .ite_snd h h.removeAt

theorem Keeps.pipeRoute {ib inst tx key16 rate} (h : Keeps s t) : Keeps s (t.pipeRoute ib inst tx key16 rate).2 :=
  .ite_snd h (.ite_snd h.takeInsert h)

theorem Keeps.tdefWrite {board tx v} (h : Keeps s t) : Keeps s (t.tdefWrite board tx v) := .ite h.setFld h.writeTyped

theorem Keeps.execDiceTdefWrite {board table v} (h : Keeps s t) : Answers s (execDiceTdefWrite board table v t) :=
  .done (h.atChip (fun hu => hu.tdefWrite))

theorem Keeps.setDiceCmd {i c} (h : Keeps s t) : Keeps s (t.setDiceCmd i c) := h.putLook

theorem Keeps.setPipeQ {p l} (h : Keeps s t) : Keeps s (t.setPipeQ p l) := h.putLook

theorem Keeps.cmdEnter {i c} (h : Keeps s t) : Keeps s (t.cmdEnter i c) := by
  unfold State.cmdEnter
  split
  · exact .ite h.setPipeQ h
  · exact h

theorem Keeps.diceGo {i op} (h : Keeps s t) : Keeps s (t.diceGo i op) := .ite h (.ite h.setFld h.setDiceCmd.setFld.cmdEnter)

theorem Keeps.execLookup {board blk} (h : Keeps s t) : Answers s (execLookup board blk t) := .done (h.atChip (fun hu => hu.diceGo))

theorem Keeps.execInsert {board blk} (h : Keeps s t) : Answers s (execInsert board blk t) := .done (h.atChip (fun hu => hu.diceGo))

theorem Keeps.execDelete {board blk} (h : Keeps s t) : Answers s (execDelete board blk t) := .done (h.atChip (fun hu => hu.diceGo))

theorem Keeps.execUpdate {board blk} (h : Keeps s t) : Answers s (execUpdate board blk t) := .done (h.atChip (fun hu => hu.diceGo))

theorem Keeps.execPurge {board blk} (h : Keeps s t) : Answers s (execPurge board blk t) := .done (h.atChip (fun hu => hu.diceGo))

theorem Keeps.diceEnd {i st} (h : Keeps s t) : Keeps s (t.diceEnd i st) := h.setDiceCmd.setFld.setFld

theorem Keeps.loadVal {i v} (h : Keeps s t) : Keeps s (t.loadVal i v) := h.foldl fun hu => hu.wr

theorem Keeps.updateEntry {p l e n change} (h : Keeps s t) : Keeps s (t.updateEntry p l e n change) := .ite h.setEntry.changed h.setEntry

theorem Keeps.diceRunAt {i c p} (h : Keeps s t) : Keeps s (t.diceRunAt i c p).2 := by
  dsimp only [State.diceRunAt]
  refine .ite_snd ?_ ?_
  · exact h
  · split
    · exact h
    · exact h.loadVal.setFld.setFld
    · exact h.insertEntry
    · exact h
    · exact h.removeAt
    · exact h.updateEntry
    · exact h.insertEntry
    · exact h

theorem Keeps.pipeAnswer {p th num rd taint st} (h : Keeps s t) : Keeps s (t.pipeAnswer p th num rd taint st) := .ite h.setThread h

theorem Keeps.pipeEnd {p o st} (h : Keeps s t) : Keeps s (t.pipeEnd p o st) := by
  unfold State.pipeEnd
  split
  · exact h.pipeAnswer
  · exact h.pipeAnswer
  · exact .ite h.diceEnd h

theorem Keeps.pipeDo {p o} (h : Keeps s t) : Keeps s (t.pipeDo p o).2 := by
  dsimp only [State.pipeDo]
  split
  · exact h.pipeInsert
  · exact h.pipeDelete
  · split
    · exact h.diceRunAt
    · exact h

theorem Keeps.pipeStep {p} (h : Keeps s t) : Keeps s (t.pipeStep p) := by
  dsimp only [State.pipeStep]
  split
  · exact h
  · exact h.setPipeQ.pipeDo.pipeEnd

theorem Keeps.pipeSteps {p n} (h : Keeps s t) : Keeps s (State.pipeSteps p n t) := by
  induction n generalizing t with
  | zero => exact h
  | succ n ih => exact ih h.pipeStep

theorem Keeps.pipeDrain {p} (h : Keeps s t) : Keeps s (t.pipeDrain p) := h.pipeSteps

theorem Keeps.pipeThrough {p f} (h : Keeps s t) : Keeps s (t.pipeThrough p f) := by
  unfold State.pipeThrough
  split
  · exact h.pipeSteps
  · exact h

theorem Keeps.pipeEnter {p th mk} (h : Keeps s t) : Keeps s (t.pipeEnter p th mk) := h.setPipeQ.putLook.stall

theorem Keeps.pipeFence {p} (h : Keeps s t) : Keeps s (t.pipeFence p) := h.setPipeQ.foldl fun hu => hu.pipeEnd

theorem Keeps.cmdPass {i c} (h : Keeps s t) : Keeps s (t.cmdPass i c) := by
  dsimp only [State.cmdPass]
  split
  · exact h.pipeThrough
  · split
    · exact h.diceEnd
    · exact h.pipeDrain.diceRunAt.diceEnd

theorem Keeps.execDiceCommandDone {board blk} (h : Keeps s t) : Answers s (execDiceCommandDone board blk t) := by
  dsimp only [Machine.execDiceCommandDone]
  split
  · exact .done h
  · exact .done (.ite h h.cmdPass)

theorem Keeps.removeIf {board p l} (h : Keeps s t) : Keeps s (State.removeIf board p t l) := by
  unfold State.removeIf
  split
  · exact .ite h.removeAt h
  · exact h

theorem Keeps.purgeEnd {i} (h : Keeps s t) : Keeps s (t.purgeEnd i) := by
  unfold State.purgeEnd
  split
  · exact .ite h.diceEnd h
  · exact h

theorem Keeps.execPurgeBucketVisit {board blk part} (h : Keeps s t) : Answers s (execPurgeBucketVisit board blk part t) := by
  dsimp only [Machine.execPurgeBucketVisit]
  split
  · exact .done h
  · exact .ite (.done h) (.done (h.pipeDrain.foldl fun hu => hu.removeIf).setDiceCmd.purgeEnd)

theorem Keeps.learn {board tx key16 val16} (h : Keeps s t) : Keeps s (t.learn board tx key16 val16).2 := by
  dsimp only [State.learn]
  refine .ite_snd h.satInc (.ite_snd h.pipeDrain.satInc ?_)
  split
  · exact .ite_snd h.pipeDrain.setEntry (.ite_snd h.pipeDrain h.pipeDrain.setEntry.changed.satInc)
  · exact .ite_snd h.pipeDrain.insertEntry h.pipeDrain.insertEntry.satInc

theorem Keeps.setDredge {b n} (h : Keeps s t) : Keeps s (t.setDredge b n) := h.putLook

theorem Keeps.dredgeBegin {b f} (h : Keeps s t) : Keeps s (t.dredgeBegin b f) := h.setDredge

theorem Keeps.dredgeEntry {board l} (h : Keeps s t) : Keeps s (State.dredgeEntry board t l) := by
  unfold State.dredgeEntry
  split
  · exact h
  · exact .ite h (.ite h.setEntry (.ite h.setEntry h.removeAt.satInc))

theorem Keeps.dredgeVisit {board} (h : Keeps s t) : Keeps s (t.dredgeVisit board) :=
  .ite h (.ite (h.foldl fun hu => hu.dredgeEntry).setFld.setDredge.workEnd (h.foldl fun hu => hu.dredgeEntry).setFld.setDredge)

theorem Keeps.execDredgeBucketVisit {board} (h : Keeps s t) : Answers s (execDredgeBucketVisit board t) := .done h.dredgeVisit

theorem Keeps.setAudit {k a} (h : Keeps s t) : Keeps s (t.setAudit k a) := h.putLook

theorem Keeps.sndRead {k off len} (h : Keeps s t) : Keeps s (t.sndRead k off len) := h.when (fun hu => hu.hostAsk)

theorem Keeps.soundEnd {k} (h : Keeps s t) : Keeps s (t.soundEnd k) := h.setAudit.setFld.workEnd

theorem Keeps.soundDiscard {k} (h : Keeps s t) : Keeps s (t.soundDiscard k) := h.satInc.soundEnd

theorem Keeps.soundBegin {k} (h : Keeps s t) : Keeps s (t.soundBegin k) := by
  dsimp only [State.soundBegin]
  refine .ite ?_ ?_
  · exact h.workEnd
  · split
    · exact h.workEnd
    · exact h.setAudit.setFld.setFld.putLook.sndRead.sndRead

theorem Keeps.auditHead {k a head} (h : Keeps s t) : Keeps s (t.auditHead k a head).2 := by
  dsimp only [State.auditHead]
  refine .ite_snd ?_ ?_
  · exact h
  · split
    · exact h.soundDiscard
    · exact .ite_snd h.setFld.soundEnd h.setAudit

theorem Keeps.execAuditEpochFlip {table board head} (h : Keeps s t) : Answers s (execAuditEpochFlip table board head t) := by
  dsimp only [Machine.execAuditEpochFlip]
  split
  · exact .done h
  · refine .ite (.done h) ?_
    split
    · exact .done (h.auditHead.snd ‹_›)
    · exact .done (h.auditHead.snd ‹_›).setFld.setAudit

theorem Keeps.auditRecord {k a gen r} (h : Keeps s t) : Keeps s (t.auditRecord k a gen r) := by
  dsimp only [State.auditRecord]
  refine .ite ?_ ?_
  · exact h.setAudit
  · split
    · exact .ite (.ite h.insertEntry.satInc.setAudit h.insertEntry.satInc.setAudit) h.setAudit
    · exact .ite h.setEntry.setAudit (.ite h.setEntry.updateEntry.satInc.setAudit h.setEntry.setAudit)

theorem Keeps.execSoundingRepair {bank gen rec} (h : Keeps s t) : Answers s (execSoundingRepair bank gen rec t) := by
  dsimp only [Machine.execSoundingRepair]
  split
  · exact .done h
  · refine .ite ?_ ?_
    · exact .done h
    · split
      · exact .done (h.sndRead.when (fun hu => hu.sndRead)).auditRecord
      · exact .done (h.sndRead.when (fun hu => hu.sndRead)).setAudit

theorem Keeps.auditReport {k a extra} (h : Keeps s t) : Keeps s (t.auditReport k a extra) :=
  .ite h.satInc.satInc.satInc h.satInc.satInc.satInc.setFld.event

theorem Keeps.repairExtra {k gen a e} (h : Keeps s t) : Keeps s (State.repairExtra k gen (a, t) e).2 := by
  dsimp only [State.repairExtra]
  split
  · exact .ite_snd h.removeAt.satInc h
  · exact h

theorem Keeps.repairExtras {k gen a} {l : List (Nat × DiceLoc × DiceEntry)} (h : Keeps s t) : Keeps s (l.foldl (State.repairExtra k gen)
  (a, t)).2 := by
  induction l generalizing a t with
  | nil => exact h
  | cons e l ih => exact ih h.repairExtra

theorem Keeps.auditClose {k a gen} (h : Keeps s t) : Keeps s (t.auditClose k a gen) :=
  .ite h.repairExtras.soundDiscard h.repairExtras.auditReport.soundEnd

theorem Keeps.execSoundingAuditEnd {bank head} (h : Keeps s t) : Answers s (execSoundingAuditEnd bank head t) := by
  dsimp only [Machine.execSoundingAuditEnd]
  split
  · exact .done h
  · split
    · exact .done (h.auditHead.snd ‹_›)
    · exact .ite (.done (h.auditHead.snd ‹_›)) (.done (h.auditHead.snd ‹_›).sndRead.auditClose)

/-! ### Functions of Machine/Lookup -/

theorem Keeps.setFlow {ready any b} (h : Keeps s t) : Keeps s (State.setFlow ready any t b) := h.setFld.setFld

theorem Keeps.flowSettle (h : Keeps s t) : Keeps s t.flowSettle := h.foldl fun hu => hu.setFlow

theorem Keeps.flowCtlWrite {b v} (h : Keeps s t) : Keeps s (t.flowCtlWrite b v) := h.setFld.flowSettle

theorem Keeps.execFlowCtlWrite {board v} (h : Keeps s t) : Answers s (execFlowCtlWrite board v t) :=
  .done (h.atChip (fun hu => hu.flowCtlWrite))

theorem Keeps.execFlowTableClearDone (h : Keeps s t) : Answers s (execFlowTableClearDone t) :=
  .ite (.done (h.hbmClear.putLook.foldl fun hu => hu.setFlow)) (.done h)

theorem Keeps.flowHomeWrite {b v} (h : Keeps s t) : Keeps s (t.flowHomeWrite b v) := .ite h h.writeTyped

theorem Keeps.execFlowHomeWrite {board v} (h : Keeps s t) : Answers s (execFlowHomeWrite board v t) :=
  .done (h.atChip (fun hu => hu.flowHomeWrite))

theorem Keeps.setFlowUse {i ux} (h : Keeps s t) : Keeps s (t.setFlowUse i ux) := h.putLook

theorem Keeps.flowTouch {key} (h : Keeps s t) : Keeps s (t.flowTouch key) := h.hbmTouch

theorem Keeps.flowFree {i} (h : Keeps s t) : Keeps s (t.flowFree i) := h.hbmPutBy.setFlowUse

theorem Keeps.flowLookup {ib key} (h : Keeps s t) : Keeps s (t.flowLookup ib key).2.2 := by
  dsimp only [State.flowLookup]
  split
  · exact h
  · split
    · exact .mk_snd h.flowTouch
    · split
      · exact .mk_snd h.flowTouch.flowFree.satInc
      · exact .mk_snd h.flowTouch.setFlowUse

theorem Keeps.flowInsert {ib inst key action} (h : Keeps s t) : Keeps s (t.flowInsert ib inst key action).2 := by
  dsimp only [State.flowInsert]
  refine .ite_snd ?_ ?_
  · exact h.takeInsert
  · split
    · exact h.takeInsert
    · refine .ite_snd ?_ ?_
      · exact .mk_snd h.takeInsert.flowTouch
      · split
        · exact .mk_snd h.takeInsert.flowTouch.satInc
        · exact .mk_snd h.takeInsert.flowTouch.hbmPutBy.setFlowUse

theorem Keeps.flowDelete {ib key} (h : Keeps s t) : Keeps s (t.flowDelete ib key).2 := by
  dsimp only [State.flowDelete]
  split
  · exact h
  · split
    · exact .mk_snd h.flowTouch
    · exact .mk_snd h.flowTouch.flowFree

theorem Keeps.execFlowCacheWriteback {index} (h : Keeps s t) : Answers s (execFlowCacheWriteback index t) := by
  dsimp only [Machine.execFlowCacheWriteback]
  split
  · exact .done h
  · exact .done h.hbmPutBy.setFlowUse

theorem Keeps.deltaGo {v} (h : Keeps s t) : Keeps s (t.deltaGo v) := .ite h (.ite h.setFld h.setFld.putLook)

theorem Keeps.execDeltaAdd {v} (h : Keeps s t) : Answers s (execDeltaAdd v t) := .done (h.atChip (fun hu => hu.when (fun hv => hv.deltaGo)))

theorem Keeps.execDeltaDel {v} (h : Keeps s t) : Answers s (execDeltaDel v t) := .done (h.atChip (fun hu => hu.when (fun hv => hv.deltaGo)))

theorem Keeps.execDeltaUpdateDone (h : Keeps s t) : Answers s (execDeltaUpdateDone t) := by
  dsimp only [Machine.execDeltaUpdateDone]
  split
  · exact .done h
  · exact .done h.putLook.setFld.setFld.setFld.setFld

/-! ### Functions of Machine/Intake -/

theorem Keeps.allocOneByOne {n} (h : Keeps s t) : Keeps s (t.allocOneByOne n).2 := .ite_snd h.allocCells h.takeCells.reclaimCells.satInc

theorem Keeps.writeFrame {input chain head frame pre cls desc} (h : Keeps s t) :
    Keeps s (t.writeFrame input chain head frame pre cls desc).2 :=
  h.draw.newHandle.cellWipe

theorem Keeps.setIntakeQueue {bank board l} (h : Keeps s t) : Keeps s (t.setIntakeQueue bank board l) := h.putIntake

theorem Keeps.setSide {bank l} (h : Keeps s t) : Keeps s (t.setSide bank l) := h.putIntake.setFld

theorem Keeps.stampVector {v} (h : Keeps s t) : Keeps s (t.stampVector v).2 := by
  dsimp only [State.stampVector]
  refine .ite_snd ?_ ?_
  · exact h
  · exact (by split; exacts [h.stampSeq.setFrame, h.stampSeq])

theorem Keeps.pushIntake {bank board v} (h : Keeps s t) : Keeps s (t.pushIntake bank board v) := h.stampVector.setIntakeQueue

theorem Keeps.intakeDrop {bank v} (h : Keeps s t) : Keeps s (t.intakeDrop bank v) := h.reclaimFrame.satInc

theorem Keeps.intakeVector {bank v} (h : Keeps s t) : Keeps s (t.intakeVector bank v).1 := by
  dsimp only [State.intakeVector]
  split
  · exact h.pushIntake
  · split
    · exact (Keeps.ite_snd h.stampVector h).setSide
    · exact h.intakeDrop

theorem Keeps.execSideBufferRelease {bank} (h : Keeps s t) : Answers s (execSideBufferRelease bank t) := by
  dsimp only [Machine.execSideBufferRelease]
  split
  · exact .done h
  · exact .done (.ite h.setSide.intakeDrop h.setSide.pushIntake)

theorem Keeps.execVectorSteerSend {bank board} (h : Keeps s t) : Answers s (execVectorSteerSend bank board t) := by
  dsimp only [Machine.execVectorSteerSend]
  split
  · exact .done h
  · refine .ite ?_ ?_
    · exact .done h
    · exact .done (by split; exacts [h.setIntakeQueue.modInc.setFrame, h.setIntakeQueue.modInc] : Keeps s _).putIntake

theorem Keeps.execIntakeCreditReturn {bank board} (h : Keeps s t) : Answers s (execIntakeCreditReturn bank board t) := .done h.putIntake

theorem Keeps.slotTaken {board v} (h : Keeps s t) : Keeps s (State.slotTaken board t v) := h.putIntake

theorem Keeps.arrive {board} (h : Keeps s t) : Keeps s (t.arrive board) := (h.foldl fun hu => hu.slotTaken).putIntake

theorem Keeps.setAtBoard {board l} (h : Keeps s t) : Keeps s (t.setAtBoard board l) := h.putIntake

theorem Keeps.learnVector {board v} (h : Keeps s t) : Keeps s (t.learnVector board v).2 := .ite_snd h.learn h

theorem Keeps.execLearn {board} (h : Keeps s t) : Answers s (execLearn board t) := by
  dsimp only [Machine.execLearn]
  split
  · exact .done h.arrive
  · split
    · exact .done h.arrive
    · exact .done h.arrive.learnVector.setAtBoard

theorem Keeps.takeVector {th v} (h : Keeps s t) : Keeps s (t.takeVector th v) := by
  dsimp only [State.takeVector]
  split
  · exact (by split; exacts [h.localWrite.setFrame, h.localWrite] : Keeps s _).setThread.makeReady
  · exact h

theorem Keeps.execVectorDispatch {board} (h : Keeps s t) : Answers s (execVectorDispatch board t) := by
  dsimp only [Machine.execVectorDispatch]
  split
  · exact .done h.arrive
  · refine .ite ?_ ?_
    · exact .done h.arrive
    · split
      · exact .done h.arrive
      · exact .done h.arrive.setAtBoard.takeVector.putEng

/-! ### Functions of Machine/Output -/

theorem Keeps.outputBytes {f o attach} (h : Keeps s t) : Keeps s (t.outputBytes f o attach).2 := by
  dsimp only [State.outputBytes]
  refine .ite_snd ?_ ?_
  · split
    · exact h.putCfl.satInc
    · exact h
  · exact h

theorem Keeps.badAt {f e} (h : Keeps s t) : Keeps s (t.badAt f e).2 := h.foldl fun hu => hu.eccFound

/-! ### Functions of Machine/Links -/

theorem Keeps.stat {k i n} (h : Keeps s t) : Keeps s (t.stat k i n) := .ite h.wr64 h.wr64

theorem Keeps.setLinkUp {k up} (h : Keeps s t) : Keeps s (t.setLinkUp k up) := h.setFld.setFld

theorem Keeps.setSlack {k x} (h : Keeps s t) : Keeps s (t.setSlack k x) := h.putLink

theorem Keeps.setSlackMode {k m} (h : Keeps s t) : Keeps s (t.setSlackMode k m) := h.setFld

theorem Keeps.setSlackRun {k n} (h : Keeps s t) : Keeps s (t.setSlackRun k n) := h.setFld

theorem Keeps.setSlackSkip {k n} (h : Keeps s t) : Keeps s (t.setSlackSkip k n) := h.setFld

theorem Keeps.slackEnd {k} (h : Keeps s t) : Keeps s (t.slackEnd k) := h.setSlack.setSlackMode.setSlackRun.setSlackSkip

theorem Keeps.walkChange (h : Keeps s t) : Keeps s t.walkChange := by
  dsimp only [State.walkChange]
  split
  · exact h.putLink
  · exact h

theorem Keeps.dropWaiting {k o} (h : Keeps s t) : Keeps s (State.dropWaiting k t o) := h.dropRef.stat

theorem Keeps.linkDown {k} (h : Keeps s t) : Keeps s (t.linkDown k) :=
  .ite h (.ite (h.foldl fun hu => hu.dropWaiting).setOutQueue.setLinkUp.slackEnd.setSlack.putLink.setCred.showTxAvail.setFld.walkChange
    (h.foldl fun hu => hu.dropWaiting).setOutQueue.setLinkUp.slackEnd.setSlack.putLink)

theorem Keeps.showCovered {p} (h : Keeps s t) : Keeps s (t.showCovered p) := .ite h.setFld.linkDown h.setFld

theorem Keeps.showCoveredAll {p} (h : Keeps s t) : Keeps s (t.showCoveredAll p) := h.foldl fun hu => hu.showCovered

theorem Keeps.portCfgWrite {p v} (h : Keeps s t) : Keeps s (t.portCfgWrite p v) :=
  .ite (.ite h.linkDown.setFld.showCoveredAll h) (.ite h (Keeps.ite h.setFld h).setFld.setFld.setFld.setFld.showCoveredAll)

theorem Keeps.atlCfgWrite {a v} (h : Keeps s t) : Keeps s (t.atlCfgWrite a v) :=
  .ite (.ite h.linkDown.setFld h) (Keeps.ite (.ite h.setFld h) (Keeps.ite h.setFld h).setFld).setFld

theorem Keeps.linkCfgWrite {p v} (h : Keeps s t) : Keeps s (t.linkCfgWrite p v) := by
  unfold State.linkCfgWrite
  split
  · exact h.portCfgWrite
  · exact h.atlCfgWrite

theorem Keeps.execPortCfgWrite {p v} (h : Keeps s t) : Answers s (execPortCfgWrite p v t) :=
  .done (h.atChip (fun hu => hu.linkCfgWrite.settle))

theorem Keeps.freshCredits {a} (h : Keeps s t) : Keeps s (t.freshCredits a) := h.setCred.setFld.showTxAvail

theorem Keeps.linkUp {k} (h : Keeps s t) : Keeps s (t.linkUp k) := .ite h (.ite h.setLinkUp.freshCredits.walkChange h.setLinkUp)

theorem Keeps.execLinkUp {p} (h : Keeps s t) : Answers s (execLinkUp p t) := .done h.linkUp.settle

theorem Keeps.execLinkDown {p} (h : Keeps s t) : Answers s (execLinkDown p t) := .done h.linkDown.settle

theorem Keeps.pauseReceive {p pfc classes quanta} (h : Keeps s t) : Keeps s (t.pauseReceive p pfc classes quanta) :=
  .ite h (.ite h.stat.setFld h.stat.stat)

theorem Keeps.execPauseFrameReceive {port pfc classes quanta} (h : Keeps s t) :
    Answers s (execPauseFrameReceive port pfc classes quanta t) :=
  .done h.pauseReceive.settle

theorem Keeps.execPauseTimerExpire {port cls} (h : Keeps s t) : Answers s (execPauseTimerExpire port cls t) := .done h.setFld.settle

theorem Keeps.setXoff {p m} (h : Keeps s t) : Keeps s (t.setXoff p m) := h.putLink

theorem Keeps.pauseSend {p m quanta} (h : Keeps s t) : Keeps s (t.pauseSend p m quanta) := h.emit.stat

theorem Keeps.execPfcXoffSend {port cls} (h : Keeps s t) : Answers s (execPfcXoffSend port cls t) :=
  .ite (.done h.pauseSend.setXoff) (.done h)

theorem Keeps.execPfcRefreshSend {port cls} (h : Keeps s t) : Answers s (execPfcRefreshSend port cls t) :=
  .ite (.done h.pauseSend) (.done h)

theorem Keeps.execPfcXonSend {port cls} (h : Keeps s t) : Answers s (execPfcXonSend port cls t) :=
  .ite (.done h.pauseSend.setXoff) (.done h)

theorem Keeps.takeRxCredit {a} (h : Keeps s t) : Keeps s (t.takeRxCredit a).2 := .ite_snd h.setFld h.satInc.stat

theorem Keeps.creditDropped {a len} (h : Keeps s t) : Keeps s (t.creditDropped a len) :=
  .ite h (.ite h.takeRxCredit.retireCredit h.takeRxCredit)

theorem Keeps.takeHeader {a f} (h : Keeps s t) : Keeps s (t.takeHeader a f) := h.setCred.showTxAvail.setFld

theorem Keeps.headerBad {a len} (h : Keeps s t) : Keeps s (t.headerBad a len) := h.satInc.stat.creditDropped

theorem Keeps.sendControl {a flags} (h : Keeps s t) : Keeps s (t.sendControl a flags) := h.emit.stat.sendReturn

theorem Keeps.execAttachControlFrameSend {link} (h : Keeps s t) : Answers s (execAttachControlFrameSend link t) :=
  .done (.ite h.sendControl h)

theorem Keeps.probeAnswer {a body} (h : Keeps s t) : Keeps s (t.probeAnswer a body) := by
  dsimp only [State.probeAnswer]
  split
  · exact h.putLink
  · exact .ite h.putLink.putLink h.putLink.walkChange

theorem Keeps.controlTaken {a f} (h : Keeps s t) : Keeps s (t.controlTaken a f) := .ite h.takeHeader.stat.probeAnswer h.takeHeader.stat

theorem Keeps.controlReceive {a f} (h : Keeps s t) : Keeps s (t.controlReceive a f) := .ite h (.ite h.headerBad h.controlTaken)

theorem Keeps.execAttachControlFrameReceive {link frame} (h : Keeps s t) : Answers s (execAttachControlFrameReceive link frame t) :=
  .done h.controlReceive.settle

theorem Keeps.macDropped {k len count} (h : Keeps s t) (hf : ∀ {u}, Keeps s u → Keeps s (count u)) :
    Keeps s (t.macDropped k len count) := by
  dsimp only [State.macDropped]
  split
  · exact hf h.allocOneByOne.reclaimCells
  · exact h.allocOneByOne.stat

theorem Keeps.countRefused {k} {q : State × Bool} (h : Keeps s q.1) :
    Keeps s (if q.2 then (q.1.stat k 12 1, false) else (q.1, true)).1 := by
  split
  · exact h.stat
  · exact h

theorem Keeps.macAccept {p cls f} (h : Keeps s t) : Keeps s (t.macAccept p cls f).1 := by
  unfold State.macAccept
  extract_lets k r ts
  have hr : Keeps s r.2 := h.allocOneByOne
  clear_value k r ts
  rcases r with ⟨_ | l, v⟩
  · exact hr.stat
  · exact .countRefused (Keeps.updFrame (Keeps.writeFrame hr.stat.stat)).intakeVector

theorem Keeps.macControl {p f} (h : Keeps s t) : Keeps s (t.macControl p f) := .ite h.pauseReceive (.ite h.pauseReceive h.stat.stat)

theorem Keeps.netReceive {p f fcsOk} (h : Keeps s t) : Keeps s (t.netReceive p f fcsOk) :=
  .ite (h.macDropped (fun hu => hu.stat)) (.ite (h.macDropped (fun hu => hu.stat)) (.ite (h.macDropped (fun hu => hu.stat)) (.ite
    (h.macDropped (fun hu => hu.stat)) (.ite h.stat.stat.macControl h.macAccept))))

theorem Keeps.atlReceive {a f fcsOk} (h : Keeps s t) : Keeps s (t.atlReceive a f fcsOk) := by
  unfold State.atlReceive
  extract_lets k len s1 r q
  have hr : Keeps s r.2 := h.takeHeader.takeRxCredit
  have hq : Keeps s q.1 := hr.macAccept
  refine .ite (h.macDropped fun hu => hu.stat).creditDropped (.ite (h.macDropped fun hu => hu.stat) ?_)
  refine .ite (h.macDropped fun hu => hu).headerBad (.ite h.stat.stat.controlTaken ?_)
  exact .ite (h.takeHeader.macDropped fun hu => hu.stat) (.ite hr (.ite hq hq.retireCredit))

theorem Keeps.execMacFrameReceive {p frame fcsOk symErr} (h : Keeps s t) : Answers s (execMacFrameReceive p frame fcsOk symErr t) := by
  dsimp only [Machine.execMacFrameReceive]
  refine .ite ?_ ?_
  · exact .done h
  · split
    · exact .done h.stat.netReceive.settle
    · exact .done h.stat.atlReceive.settle

theorem Keeps.setTxts {k l} (h : Keeps s t) : Keeps s (t.setTxts k l) := h.putLink

theorem Keeps.twoStep {k f txc sec ns} (h : Keeps s t) : Keeps s (t.twoStep k f txc sec ns) := .ite h.descStamp (.ite h.satInc h.setTxts)

theorem Keeps.applyTxc {k f e l} (h : Keeps s t) : Keeps s (t.applyTxc k f e l).2 := .ite_snd (.ite h.twoStep h) h

theorem Keeps.attachSend {k l} (h : Keeps s t) : Keeps s (t.attachSend k l).2 := .ite_snd h.sendReturn.setCred.showTxAvail h

theorem Keeps.macSend {k o f} (h : Keeps s t) : Keeps s (t.macSend k o f) := by
  dsimp only [State.macSend]
  split
  · exact (h.outputBytes.applyTxc.attachSend.badAt.snd ‹_›).emit.stat
  · exact (h.outputBytes.applyTxc.attachSend.badAt.snd ‹_›).emit.stat.stat

theorem Keeps.macTransmit {k} (h : Keeps s t) : Keeps s (t.macTransmit k) := by
  dsimp only [State.macTransmit]
  refine .ite ?_ ?_
  · exact h
  · split
    · exact h
    · split
      · exact h.setOutQueue.putLink
      · exact h.setOutQueue.putLink.macSend.dropRef

theorem Keeps.execMacFrameTransmit {p} (h : Keeps s t) : Answers s (execMacFrameTransmit p t) := .done h.macTransmit.settle

theorem Keeps.txtsRead {k} (h : Keeps s t) : Keeps s (t.txtsRead k) := by
  dsimp only [State.txtsRead]
  split
  · exact h.setFld.setFld
  · exact h.setTxts.setFld.setFld.setFld.setFld

theorem Keeps.execTxtsRead {p} (h : Keeps s t) : Answers s (execTxtsRead p t) := .done (h.readAt fun hu => hu.txtsRead)

theorem Keeps.execLpiEnter {port} (h : Keeps s t) : Answers s (execLpiEnter port t) := .done (.ite h.putLink h)

theorem Keeps.eeeWrite {p v} (h : Keeps s t) : Keeps s (t.eeeWrite p v) := .ite h.setFld h.setFld.setFld

theorem Keeps.fcCtlWrite {p v} (h : Keeps s t) : Keeps s (t.fcCtlWrite p v) := .ite h.writeTyped.setFld h.writeTyped

/-! ### Functions of Machine/Slack -/

theorem Keeps.lldp {k tx} (h : Keeps s t) : Keeps s (t.lldp k tx) := h.emit

theorem Keeps.slackTell {u : State} {k} (h : Keeps s t) : Keeps s (u.slackTell t k) := .ite h h.lldp

theorem Keeps.slackWithdraw {k} (h : Keeps s t) : Keeps s (t.slackWithdraw k) := h.lldp.slackEnd

theorem Keeps.slackPropose {k x} (h : Keeps s t) : Keeps s (t.slackPropose k x) := (Keeps.ite h.setSlack.setSlackMode h.setSlack).lldp

theorem Keeps.lldpSend {k} (h : Keeps s t) : Keeps s (t.lldpSend k) := by
  dsimp only [State.lldpSend]
  refine .ite ?_ ?_
  · exact h
  · refine .ite ?_ ?_
    · exact h.lldp
    · refine .ite ?_ ?_
      · exact h.setFld.lldp
      · refine .ite ?_ ?_
        · exact .ite h.setFld.slackWithdraw h.setFld.lldp
        · split
          · exact h.setFld.lldp
          · exact .ite h.setFld.lldp h.setFld.slackPropose

theorem Keeps.execLldpTransmit {link} (h : Keeps s t) : Answers s (execLldpTransmit link t) := .done h.lldpSend.settle

theorem Keeps.execLldpInfoExpire {link} (h : Keeps s t) : Answers s (execLldpInfoExpire link t) :=
  .done h.slackEnd.setSlack.slackTell.settle

theorem Keeps.notePlace {k tx} (h : Keeps s t) : Keeps s (t.notePlace k tx) := h.setSlack

theorem Keeps.offerReceived {k tx} (h : Keeps s t) : Keeps s (t.offerReceived k tx) :=
  .ite h.notePlace.setSlack.setSlackMode.setSlackRun.setSlackSkip.lldp h.notePlace.lldp

theorem Keeps.execSlackOffer {link tlv} (h : Keeps s t) : Answers s (execSlackOffer link tlv t) :=
  .ite (.done h) (.ite (.done h.notePlace.slackEnd.slackTell.settle) (.ite (.done h.offerReceived.settle) (.done h.notePlace)))

theorem Keeps.execSlackAccept {link tlv} (h : Keeps s t) : Answers s (execSlackAccept link tlv t) := by
  dsimp only [Machine.execSlackAccept]
  split
  · exact .done h
  · exact .ite (.done h.notePlace.setSlack.setSlackMode.setSlackRun.setSlackSkip.slackTell.settle) (.done h.lldpSend.settle)

theorem Keeps.execSlackWithdraw {link} (h : Keeps s t) : Answers s (execSlackWithdraw link t) := .done h.slackEnd.slackTell.settle

theorem Keeps.execSlackScheduleStart {link} (h : Keeps s t) : Answers s (execSlackScheduleStart link t) := by
  dsimp only [Machine.execSlackScheduleStart]
  split
  · exact .done (.ite h.setSlackMode.setSlackRun.slackTell.settle h)
  · exact .done h

theorem Keeps.slackCtlWrite {k v} (h : Keeps s t) : Keeps s (t.slackCtlWrite k v) :=
  .ite h.setFld.setFld.setFld.slackEnd.slackTell h.setFld.setFld.setFld

theorem Keeps.slackRenew {k} (h : Keeps s t) : Keeps s (t.slackRenew k) := h.slackWithdraw.lldpSend

theorem Keeps.slackCheck {k} (h : Keeps s t) : Keeps s (t.slackCheck k) := by
  unfold State.slackCheck
  split
  · exact .ite h h.slackRenew
  · exact h

theorem Keeps.slackCheckAll (h : Keeps s t) : Keeps s t.slackCheckAll := h.foldl fun hu => hu.slackCheck

theorem Keeps.slotCommit {who i v} (h : Keeps s t) : Keeps s (t.slotCommit who i v) :=
  .ite h.slotW0Write (h.slotW0Write.foldl fun hu => hu.slackRenew)

theorem Keeps.execTtbSlotW0Write {who slot v} (h : Keeps s t) : Answers s (execTtbSlotW0Write who slot v t) :=
  .done (h.atChip (fun hu => hu.slotCommit))

theorem Keeps.execTtbCtlWrite {v} (h : Keeps s t) : Answers s (execTtbCtlWrite v t) :=
  .done (h.atChip (fun hu => hu.ttbCtlWrite.slackCheckAll))

theorem Keeps.slackStepped (h : Keeps s t) : Keeps s t.slackStepped := by
  dsimp only [State.slackStepped]
  exact h.foldl fun hu => (by split; exacts [.ite hu hu.setSlack, hu])

theorem Keeps.boundaryWork (h : Keeps s t) : Keeps s t.boundaryWork :=
  (Keeps.ite h.tideBoundary.gateStep.slackStepped.gaugeStep h.tideBoundary.gateStep).slackCheckAll.settle

theorem Keeps.execTideBoundary (h : Keeps s t) : Answers s (execTideBoundary t) := .done (h.when (fun hu => hu.boundaryWork))

theorem Keeps.slackFiring {k f} (h : Keeps s t) : Keeps s (t.slackFiring k f) := by
  dsimp only [State.slackFiring]
  split
  · refine .ite ?_ ?_
    · exact h
    · split
      · exact h
      · exact h.setSlack.satInc
  · exact h

theorem Keeps.slackTidy {k} (h : Keeps s t) : Keeps s (t.slackTidy k) := by
  dsimp only [State.slackTidy]
  split
  · exact .ite h.setSlack h
  · exact h

theorem Keeps.execSlackWakeStart {link} (h : Keeps s t) : Answers s (execSlackWakeStart link t) := by
  dsimp only [Machine.execSlackWakeStart]
  split
  · exact .done (.ite h.setSlack h)
  · exact .done h

theorem Keeps.execSlackWindowEnd {link} (h : Keeps s t) : Answers s (execSlackWindowEnd link t) := by
  dsimp only [Machine.execSlackWindowEnd]
  split
  · exact .done (.ite h.setSlack.slackTidy.settle h)
  · exact .done h

theorem Keeps.slackJudge {k good} (h : Keeps s t) : Keeps s (t.slackJudge k good) :=
  .ite (.ite (.ite h.setSlackRun.setSlackMode h.setSlackRun) h) h.satInc.setSlackMode.setSlackRun

theorem Keeps.slackJudgeWin {k w good} (h : Keeps s t) : Keeps s (t.slackJudgeWin k w good) := .ite h h.slackJudge.slackTell

theorem Keeps.execSlackFirstSymbol {link deviation} (h : Keeps s t) : Answers s (execSlackFirstSymbol link deviation t) := by
  dsimp only [Machine.execSlackFirstSymbol]
  split
  · exact .ite (.done h) (.done h.wr.slackJudgeWin.setSlack.slackTidy.settle)
  · exact .done h

theorem Keeps.execSlackRendezvousMiss {link} (h : Keeps s t) : Answers s (execSlackRendezvousMiss link t) := by
  dsimp only [Machine.execSlackRendezvousMiss]
  split
  · exact .ite (.done h) (.done h.slackJudgeWin.setSlack.slackTidy.settle)
  · exact .done h

theorem Keeps.execSlackAlignTimeout {link} (h : Keeps s t) : Answers s (execSlackAlignTimeout link t) := by
  dsimp only [Machine.execSlackAlignTimeout]
  split
  · exact .done (.ite h.linkDown.settle h)
  · exact .done h

theorem Keeps.startWalk {rerun} (h : Keeps s t) : Keeps s (t.startWalk rerun) := h.setFld.putLink

theorem Keeps.discGo (h : Keeps s t) : Keeps s t.discGo := .ite h.satInc h.startWalk

theorem Keeps.execDiscGo (h : Keeps s t) : Answers s (execDiscGo t) := .done (h.atChip (fun hu => hu.discGo))

theorem Keeps.setWalk {w} (h : Keeps s t) : Keeps s (t.setWalk w) := h.putLink

theorem Keeps.walkNext {w} (h : Keeps s t) : Keeps s (t.walkNext w) := .ite h (.ite h.setWalk h.sendControl.setWalk)

theorem Keeps.execDiscoveryWalk (h : Keeps s t) : Answers s (execDiscoveryWalk t) := by
  unfold Machine.execDiscoveryWalk
  split
  · exact .done h.walkNext
  · exact .done h

theorem Keeps.execProbeAnswer {link body} (h : Keeps s t) : Answers s (execProbeAnswer link body t) := .done h.probeAnswer

theorem Keeps.execProbeTimeout (h : Keeps s t) : Answers s (execProbeTimeout t) := by
  dsimp only [Machine.execProbeTimeout]
  split
  · exact .ite (.done h) (.ite (.done h.sendControl.setWalk) (.done h.setWalk))
  · exact .done h

theorem Keeps.showDisc {n r} (h : Keeps s t) : Keeps s (t.showDisc n r) := h.wr.wr

theorem Keeps.showWalk {n l} (h : Keeps s t) : Keeps s (State.showWalk t n l) := by
  induction l generalizing t n with
  | nil => exact h
  | cons r l ih => exact ih h.showDisc

theorem Keeps.execDiscoveryWalkEnd (h : Keeps s t) : Answers s (execDiscoveryWalkEnd t) := by
  dsimp only [Machine.execDiscoveryWalkEnd]
  split
  · exact .ite (.done h) (.done (.ite (Keeps.ite h.showWalk.setWalk.setFld.setFld.setFld.setFld.event
      h.showWalk.setWalk.setFld.setFld.setFld.setFld).startWalk (.ite h.showWalk.setWalk.setFld.setFld.setFld.setFld.event
      h.showWalk.setWalk.setFld.setFld.setFld.setFld)))
  · exact .done h

/-! ### Functions of Machine/Keys -/

theorem Keeps.setPinned {idx e} (h : Keeps s t) : Keeps s (t.setPinned idx e) := h.putKeys

theorem Keeps.setKeySet {board set l} (h : Keeps s t) : Keeps s (t.setKeySet board set l) := h.putKeys

theorem Keeps.dropKeyCopies {idx} (h : Keeps s t) : Keeps s (t.dropKeyCopies idx) := h.foldl fun hu => hu.setKeySet

theorem Keeps.putKey {idx e} (h : Keeps s t) : Keeps s (t.putKey idx e) := .ite h.setPinned h.hbmWrite.dropKeyCopies

theorem Keeps.putKeyAttr {idx e} (h : Keeps s t) : Keeps s (t.putKeyAttr idx e) := .ite h.setPinned h.hbmWrite.dropKeyCopies

theorem Keeps.keyCmdWrite {op} (h : Keeps s t) : Keeps s (t.keyCmdWrite op) := .ite h.setFld (.ite h h.putKeys.setFld)

theorem Keeps.execInstall (h : Keeps s t) : Answers s (execInstall t) := .done (h.atChip (fun hu => hu.keyCmdWrite))

theorem Keeps.execRevoke (h : Keeps s t) : Answers s (execRevoke t) := .done (h.atChip (fun hu => hu.keyCmdWrite))

theorem Keeps.execKeyRead (h : Keeps s t) : Answers s (execKeyRead t) := .done (h.atChip (fun hu => hu.keyCmdWrite))

theorem Keeps.keyInWrite {i v} (h : Keeps s t) : Keeps s (t.keyInWrite i v) := .ite h h.wr

theorem Keeps.keyStatus {st ver} (h : Keeps s t) : Keeps s (t.keyStatus st ver) := h.setFld.setFld

theorem Keeps.keyInstall {c} (h : Keeps s t) : Keeps s (t.keyInstall c) :=
  .ite h.keyStatus (.ite h.keyStatus (.ite h.keyStatus (.ite h.keyStatus h.putKey.modInc.keyStatus)))

theorem Keeps.revokeEntry {idx} (h : Keeps s t) : Keeps s (t.revokeEntry idx) := h.putKeyAttr.setFld

theorem Keeps.keyRevoke {idx} (h : Keeps s t) : Keeps s (t.keyRevoke idx) := .ite h.revokeEntry.keyStatus h.keyStatus

theorem Keeps.keyReadCmd {idx} (h : Keeps s t) : Keeps s (t.keyReadCmd idx) := .ite h.setFld (.ite h.setFld h.wr.keyStatus)

theorem Keeps.keyRun {c} (h : Keeps s t) : Keeps s (t.keyRun c) := .ite h.keyInstall (.ite h.keyRevoke h.keyReadCmd)

theorem Keeps.execKeyCommandDone (h : Keeps s t) : Answers s (execKeyCommandDone t) := by
  dsimp only [Machine.execKeyCommandDone]
  split
  · exact .done h
  · exact .done (h.keyRun.foldl fun hu => hu.wr).putKeys.setFld

theorem Keeps.revokeAll (h : Keeps s t) : Keeps s t.revokeAll := (h.foldl fun hu => hu.revokeEntry).putKeys

theorem Keeps.keyTouch {board idx} (h : Keeps s t) : Keeps s (t.keyTouch board idx) := by
  dsimp only [State.keyTouch]
  split
  · exact h.setKeySet
  · exact h

theorem Keeps.keyFetch {board idx} (h : Keeps s t) : Keeps s (t.keyFetch board idx) := .ite h h.putKeys.satInc

theorem Keeps.keyFill {board idx e} (h : Keeps s t) : Keeps s (t.keyFill board idx e) := h.setKeySet

theorem Keeps.epochMark {all board} (h : Keeps s t) : Keeps s (State.epochMark all t board) := by
  unfold State.epochMark
  refine .ite ?_ ?_
  · exact h
  · exact h.foldl fun hu => (by split; exacts [hu, hu.setKeySet])

theorem Keeps.dieUsed {n} (h : Keeps s t) : Keeps s (t.dieUsed n) := h.putKeys

theorem Keeps.dieWord {k} (h : Keeps s t) : Keeps s (t.dieWord k).2 := h.putKeys.draw.dieUsed

theorem Keeps.dieBytes {n} (h : Keeps s t) : Keeps s (State.dieBytes t n).2 := by
  induction n generalizing t with
  | zero => exact h
  | succ n ih => exact ih h.draw

theorem Keeps.seed (h : Keeps s t) : Keeps s t.seed := h.putKeys

theorem Keeps.drawKtk (h : Keeps s t) : Keeps s t.drawKtk := h.dieUsed.dieBytes.putKeys

theorem Keeps.nonceDraw (h : Keeps s t) : Keeps s t.nonceDraw := .ite (h.dieUsed.foldl fun hu => hu.wr.draw).setFld.same h

theorem Keeps.dieWake (h : Keeps s t) : Keeps s t.dieWake := h.nonceDraw.foldl fun hu => hu.makeReady

theorem Keeps.dieFail {rct apt} (h : Keeps s t) : Keeps s (t.dieFail rct apt) :=
  (Keeps.ite (Keeps.ite h.putKeys.setFld.setFld h.putKeys.setFld).setFld (.ite h.putKeys.setFld.setFld h.putKeys.setFld)).event.dieWake

theorem Keeps.execDieHealthFail {rct apt} (h : Keeps s t) : Answers s (execDieHealthFail rct apt t) := .done (.ite h.dieFail h)

theorem Keeps.execDieRestart (h : Keeps s t) : Answers s (execDieRestart t) := .done (h.atChip (fun hu => hu.setFld))

theorem Keeps.execDieRestartDone {rct apt} (h : Keeps s t) : Answers s (execDieRestartDone rct apt t) :=
  .ite (.done h) (.ite (.done h.setFld.dieFail) (.done (Keeps.ite h.setFld.seed.setFld.drawKtk h.setFld.seed.setFld).dieWake))

theorem Keeps.reseed (h : Keeps s t) : Keeps s t.reseed := .ite h.seed.satInc h

theorem Keeps.execDrbgReseed (h : Keeps s t) : Answers s (execDrbgReseed t) := .done (h.when (fun hu => hu.reseed))

theorem Keeps.keyEpoch {f} (h : Keeps s t) : Keeps s (t.keyEpoch f) := (h.emit.foldl fun hu => hu.epochMark).reseed

theorem Keeps.sqEvent {n exhausted} (h : Keeps s t) : Keeps s (t.sqEvent n exhausted) := .ite h.satInc (.ite h.putKeys.event h.putKeys)

theorem Keeps.setSqHi {x v} (h : Keeps s t) : Keeps s (t.setSqHi x v) := h.putKeys

theorem Keeps.sqRefuse {n x} (h : Keeps s t) : Keeps s (t.sqRefuse n x) :=
  .ite (.ite h.setSqHi.setFld.sqEvent.putKeys h.setSqHi.setFld.sqEvent) h.setSqHi

theorem Keeps.sqGrant {n x} (h : Keeps s t) : Keeps s (t.sqGrant n x) := .ite h.setSqHi.wr64.setFld.sqEvent h.setSqHi.wr64

theorem Keeps.sqRead {n x} (h : Keeps s t) : Keeps s (t.sqRead n x).2 := .ite_snd h.sqRefuse h.sqGrant

theorem Keeps.execSqNextRead {n who} (h : Keeps s t) : Answers s (execSqNextRead n who t) := .done (h.readAt fun hu => hu.sqRead)

theorem Keeps.sqReject (h : Keeps s t) : Keeps s t.sqReject := h.satInc

theorem Keeps.sqCtlWrite {n v} (h : Keeps s t) : Keeps s (t.sqCtlWrite n v) :=
  .ite h.sqReject (.ite h.setFld.setFld.setFld.setFld h.setFld.setFld)

theorem Keeps.sqWrite {r n v} (h : Keeps s t) : Keeps s (t.sqWrite r n v) := by
  unfold State.sqWrite
  split
  · exact h.sqCtlWrite
  · exact h
  · exact h.setStage
  · exact h.setStage
  · refine .ite ?_ ?_
    · exact h.sqReject
    · split
      · exact h.wr64.setStage
      · exact h.wr64.setStage
      · exact h.wr
      · exact h.writeTyped
      · exact h

theorem Keeps.execSqConfigWrite {r n v} (h : Keeps s t) : Answers s (execSqConfigWrite r n v t) := .done (h.atChip (fun hu => hu.sqWrite))

theorem Keeps.execScheduledRevoke {n} (h : Keeps s t) : Answers s (execScheduledRevoke n t) := by
  dsimp only [Machine.execScheduledRevoke]
  split
  · exact .done h
  · exact .done (.ite h.putKeys.revokeEntry h.putKeys)

theorem Keeps.sqEvqRead (h : Keeps s t) : Keeps s t.sqEvqRead := by
  dsimp only [State.sqEvqRead]
  split
  · exact h.wr
  · exact h.putKeys.wr

theorem Keeps.execSqEvqRead (h : Keeps s t) : Answers s (execSqEvqRead t) := .done (h.readAt fun hu => hu.sqEvqRead)

/-! ### Functions of Machine/Gate -/

theorem Keeps.setDma {ch c} (h : Keeps s t) : Keeps s (t.setDma ch c) := h.putDma

theorem Keeps.dmaWake {ch} (h : Keeps s t) : Keeps s (t.dmaWake ch) := .ite h h.makeReadyAll

theorem Keeps.dmaCount {ch d code} (h : Keeps s t) : Keeps s (t.dmaCount ch d code) :=
  .ite (Keeps.ite h.satInc h.satInc.satInc).setEvt (.ite h.satInc h.satInc.satInc)

theorem Keeps.atsFlush (h : Keeps s t) : Keeps s t.atsFlush := h.putPlat.foldl fun hu => hu.emit

theorem Keeps.dmaEnd {ch code side} (h : Keeps s t) : Keeps s (t.dmaEnd ch code side) := by
  dsimp only [State.dmaEnd]
  split
  · exact h
  · exact h.setDma.dmaCount.dmaWake.atsFlush

theorem Keeps.dmaFinish {ch code side} (h : Keeps s t) : Keeps s (t.dmaFinish ch code side) := by
  dsimp only [State.dmaFinish]
  split
  · exact h
  · exact .ite h.setDma.atsFlush h.dmaEnd

theorem Keeps.dmaRelease {th ch} (h : Keeps s t) : Keeps s (State.dmaRelease th t ch) := by
  dsimp only [State.dmaRelease]
  split
  · split
    · exact .ite h.setDma.dmaEnd h.setDma
    · exact h.setDma
  · exact h.setDma

theorem Keeps.dmaFail {th ch} (h : Keeps s t) : Keeps s (State.dmaFail th t ch) := h.setDma

theorem Keeps.payWrite {th} (h : Keeps s t) : Keeps s (t.payWrite th) := by
  dsimp only [State.payWrite]
  split
  · exact h
  · exact (by split; exacts [h.setFrame.cellWipe, h] : Keeps s _).setThread

theorem Keeps.payDrain {th} (h : Keeps s t) : Keeps s (t.payDrain th) := h.foldl fun hu => hu.payWrite

theorem Keeps.gateFail {th} (h : Keeps s t) : Keeps s (t.gateFail th) :=
  .ite h ((h.payDrain.foldl fun hu => hu.updFrame).setThread.foldl fun hu => hu.dmaFail).satInc

theorem Keeps.unhold {th hx} (h : Keeps s t) : Keeps s (t.unhold th hx) := h.setThread

theorem Keeps.gateDrop {th hx} (h : Keeps s t) : Keeps s (State.gateDrop th t hx) := h.unhold.dropHandle.satInc

theorem Keeps.gateResolve {th} (h : Keeps s t) : Keeps s (t.gateResolve th) := .ite (h.gateFail.payDrain.foldl fun hu => hu.gateDrop) h

theorem Keeps.gateRelease {th} (h : Keeps s t) : Keeps s (t.gateRelease th) :=
  ((h.payDrain.foldl fun hu => hu.updFrame).setThread.foldl fun hu => hu.bufFree).foldl fun hu => hu.dmaRelease

theorem Keeps.gatedZero {th} (h : Keeps s t) : Keeps s (t.gatedZero th) :=
  .ite h ((h.foldl fun hu => hu.clusterWrite).setThread.foldl fun hu => hu.bufFree)

theorem Keeps.gateClear {th} (h : Keeps s t) : Keeps s (t.gateClear th) := h.gatedZero.setThread

theorem Keeps.execGatedBufferZero {th} (h : Keeps s t) : Answers s (execGatedBufferZero th t) := .done h.gatedZero

theorem Keeps.execGateTimeout {th} (h : Keeps s t) : Answers s (execGateTimeout th t) := .done (.ite h.gateFail.satInc h)

theorem Keeps.bufFreeWrite {cl addr} (h : Keeps s t) : Keeps s (t.bufFreeWrite cl addr) := by
  dsimp only [State.bufFreeWrite]
  split
  · exact .ite h h.setThread
  · exact h.bufFree

theorem Keeps.execCluBufFree {cl v} (h : Keeps s t) : Answers s (execCluBufFree cl v t) := .done (h.atChip (fun hu => hu.bufFreeWrite))

theorem Keeps.execCluBufAlloc {cl th} (h : Keeps s t) : Answers s (execCluBufAlloc cl th t) := .done (h.readAt fun hu => hu.bufAlloc)

theorem Keeps.threadEnd {th} (h : Keeps s t) : Keeps s (t.threadEnd th) := h.gateResolve.payDrain.setThread.foldl fun hu => hu.dropHandle

theorem Keeps.threadStopped {th} (h : Keeps s t) : Keeps s (t.threadStopped th) := .ite h.setThread.switchFrom h.setThread

theorem Keeps.faultRecord {th cause trap} (h : Keeps s t) : Keeps s (t.faultRecord th cause trap) :=
  .ite (.ite (Keeps.ite h.putEng h.satInc).eventAt.setFld.emit (Keeps.ite h.putEng h.satInc).eventAt.setFld) (Keeps.ite h.putEng
    h.satInc).eventAt.setEvt

theorem Keeps.threadFault {th cause trap} (h : Keeps s t) : Keeps s (t.threadFault th cause trap) :=
  (Keeps.ite h.setThread.threadStopped h.setThread.threadStopped.faultRecord).threadEnd

theorem Keeps.threadStop {th} (h : Keeps s t) : Keeps s (t.threadStop th) :=
  .ite h (.ite h.gateResolve.threadStopped.threadEnd h.gateResolve.threadFault)

theorem Keeps.roundDiscard {th} (h : Keeps s t) : Keeps s (t.roundDiscard th) := h.putEng

theorem Keeps.threadReset {th} (h : Keeps s t) : Keeps s (t.threadReset th) :=
  (Keeps.ite h.threadStopped.threadEnd.gateClear.roundDiscard h.threadStopped.threadEnd.gateClear.roundDiscard.bufFreeAll).setThread.setSqHi

theorem Keeps.threadStart {th pc} (h : Keeps s t) : Keeps s (t.threadStart th pc) := h.setThread.makeReady

/-! ### Functions of Machine/Clusters -/

theorem Keeps.startMaster {pc th} (h : Keeps s t) : Keeps s (State.startMaster pc t th) := .ite h h.setThread.threadStart

theorem Keeps.clusterStart {cl v} (h : Keeps s t) : Keeps s (t.clusterStart cl v) :=
  .ite h ((h.foldl fun hu => hu.fillShare).foldl fun hu => hu.startMaster)

theorem Keeps.execCluStartWrite {cl v} (h : Keeps s t) : Answers s (execCluStartWrite cl v t) :=
  .done (h.atChip (fun hu => hu.clusterStart))

theorem Keeps.threadCmdDo {th cmd} (h : Keeps s t) : Keeps s (t.threadCmdDo th cmd) :=
  .ite h.threadReset (.ite (.ite h.threadReset h.threadReset.threadStart) (.ite h.threadStop h))

theorem Keeps.setCmds {cl l} (h : Keeps s t) : Keeps s (t.setCmds cl l) := h.putEng

theorem Keeps.threadCmd {th cmd} (h : Keeps s t) : Keeps s (t.threadCmd th cmd) := .ite h (.ite h.setCmds h.threadCmdDo)

theorem Keeps.execThreadCmdReset {cl eng tx} (h : Keeps s t) : Answers s (execThreadCmdReset cl eng tx t) :=
  .done (h.atChip (fun hu => hu.threadCmd))

theorem Keeps.execThreadCmdResetStart {cl eng tx} (h : Keeps s t) : Answers s (execThreadCmdResetStart cl eng tx t) :=
  .done (h.atChip (fun hu => hu.threadCmd))

theorem Keeps.execThreadCmdStop {cl eng tx} (h : Keeps s t) : Answers s (execThreadCmdStop cl eng tx t) :=
  .done (h.atChip (fun hu => hu.threadCmd))

theorem Keeps.faultPop {cl v} (h : Keeps s t) : Keeps s (t.faultPop cl v) := .ite h.putEng h

theorem Keeps.execCluFaultPop {cl v} (h : Keeps s t) : Answers s (execCluFaultPop cl v t) := .done (h.atChip (fun hu => hu.faultPop))

theorem Keeps.trimBuffers {cl slots share count} (h : Keeps s t) : Keeps s (State.trimBuffers cl slots share count t) := by
  dsimp only [State.trimBuffers]
  exact (h.foldl_snd fun hu => hu.setThread).setFld

theorem Keeps.cutBuffers {cl count} (h : Keeps s t) : Keeps s (State.cutBuffers cl count t) := h.setBufList.setFld

theorem Keeps.cluCtlWrite {cl v} (h : Keeps s t) : Keeps s (t.cluCtlWrite cl v) := .ite h h.trimCredits.trimBuffers.setFld

theorem Keeps.creditTake {cl v} (h : Keeps s t) : Keeps s (t.creditTake cl v) := h.when (fun hu => hu.trimCredits.writeTyped)

theorem Keeps.setCreditPend {cl v} (h : Keeps s t) : Keeps s (t.setCreditPend cl v) := h.putEng

theorem Keeps.creditCtlWrite {cl v} (h : Keeps s t) : Keeps s (t.creditCtlWrite cl v) := .ite h (.ite h.setCreditPend h.creditTake)

theorem Keeps.bufCtlWrite {cl v} (h : Keeps s t) : Keeps s (t.bufCtlWrite cl v) := .ite (Keeps.ite h h.cutBuffers).trimBuffers.writeTyped h

theorem Keeps.cluCfgWrite {cl which v} (h : Keeps s t) : Keeps s (t.cluCfgWrite cl which v) := by
  unfold State.cluCfgWrite
  split
  · exact h.setFld
  · exact h.when (fun hu => hu.cluCtlWrite)
  · exact h.when (fun hu => hu.creditCtlWrite)
  · exact h.when (fun hu => hu.bufCtlWrite)

theorem Keeps.execCluConfigWrite {cl which v} (h : Keeps s t) : Answers s (execCluConfigWrite cl which v t) :=
  .done (h.atChip (fun hu => hu.cluCfgWrite))

theorem Keeps.execCreditCtlApply {cl} (h : Keeps s t) : Answers s (execCreditCtlApply cl t) := by
  unfold Machine.execCreditCtlApply
  split
  · exact .done h
  · exact .ite (.done h) (.done h.setCreditPend.creditTake)

theorem Keeps.setRound {k w} (h : Keeps s t) : Keeps s (t.setRound k w) := h.putEng

theorem Keeps.roundWrite {w} (h : Keeps s t) : Keeps s (t.roundWrite w) := by
  dsimp only [State.roundWrite]
  split
  · exact h
  · exact h.setThread

theorem Keeps.execRoundUnitDone {eng ux} (h : Keeps s t) : Answers s (execRoundUnitDone eng ux t) := by
  dsimp only [Machine.execRoundUnitDone]
  split
  · exact .done h
  · exact .done h.setRound.roundWrite.makeReadyAll

theorem Keeps.keyBad {board idx l} (h : Keeps s t) : Keeps s (t.keyBad board idx l) := h.satInc.event.foldl fun hu => hu.threadFault

theorem Keeps.execKeyFetchDone {board index readOk} (h : Keeps s t) : Answers s (execKeyFetchDone board index readOk t) :=
  .ite (.done h) (.ite (.done h.putKeys.hbmTouch.keyFill.makeReadyAll) (.done h.putKeys.hbmTouch.keyBad))

/-! ### Functions of Machine/Coherence -/

theorem Keeps.cohAsk {rds rdo upg line} (h : Keeps s t) : Keeps s (t.cohAsk rds rdo upg line) := by
  unfold State.cohAsk
  exact h.when (fun hu => (Keeps.ite hu.satInc.setFld hu).setHomeLine.cohServe.foldl fun hv => hv.emit)

theorem Keeps.execRds {boards rdo upg line} (h : Keeps s t) : Answers s (execRds boards rdo upg line t) := .done h.cohAsk

theorem Keeps.execRdo {boards upg line} (h : Keeps s t) : Answers s (execRdo boards upg line t) := .done h.cohAsk

theorem Keeps.execUpg {boards line} (h : Keeps s t) : Answers s (execUpg boards line t) := .done h.cohAsk

theorem Keeps.execWb {board line} (h : Keeps s t) : Answers s (execWb board line t) := .done (h.when (fun hu => hu.writeBack))

theorem Keeps.execAckWb {board line} (h : Keeps s t) : Answers s (execAckWb board line t) := .ite (.done h.putHbm.emit) (.done h)

theorem Keeps.execEvc {board line} (h : Keeps s t) : Answers s (execEvc board line t) := .done (h.when (fun hu => hu.evictClean))

theorem Keeps.execDataS {board line} (h : Keeps s t) : Answers s (execDataS board line t) := .done (h.when (fun hu => hu.cohShare))

theorem Keeps.execDataE {board line} (h : Keeps s t) : Answers s (execDataE board line t) := .done (h.when (fun hu => hu.cohOwn))

theorem Keeps.execGrant {board line} (h : Keeps s t) : Answers s (execGrant board line t) := .done (h.when (fun hu => hu.cohOwn))

theorem Keeps.cohSend {board line kind} (h : Keeps s t) : Keeps s (t.cohSend board line kind) := by
  dsimp only [State.cohSend]
  split
  · exact h.setHomeLine.emit
  · exact h

theorem Keeps.execInv {board line} (h : Keeps s t) : Answers s (execInv board line t) := .done (h.when (fun hu => hu.cohSend))

theorem Keeps.execFetch {board line} (h : Keeps s t) : Answers s (execFetch board line t) := .done (h.when (fun hu => hu.cohSend))

theorem Keeps.cohAnswered {board line} (h : Keeps s t) : Keeps s (t.cohAnswered board line) := by
  dsimp only [State.cohAnswered]
  split
  · exact h.setHomeLine
  · exact h

theorem Keeps.execAckInv {board line} (h : Keeps s t) : Answers s (execAckInv board line t) :=
  .done (h.when (fun hu => hu.setLine.dirDrop.cohAnswered.emit))

theorem Keeps.execDataF {board line} (h : Keeps s t) : Answers s (execDataF board line t) :=
  .done (h.when (fun hu => (Keeps.ite hu.setLine.setDir hu.setLine.setDir).cohAnswered.emit))

theorem Keeps.execNoneF {board line} (h : Keeps s t) : Answers s (execNoneF board line t) := .done (h.when (fun hu => hu.cohAnswered.emit))

theorem Keeps.execHomeQueueServe {line} (h : Keeps s t) : Answers s (execHomeQueueServe line t) := .done h.cohServe

theorem Keeps.sscError {board} (h : Keeps s t) : Keeps s (t.sscError board) := .ite h (.ite h.setFld.emit h.setFld)

theorem Keeps.execLinePoison {board line} (h : Keeps s t) : Answers s (execLinePoison board line t) :=
  .ite (.done h.setLine.poisonLine.sscError) (.done h)

theorem Keeps.fenceLines {board} (h : Keeps s t) : Keeps s (t.fenceLines board) :=
  h.foldl fun hu => .ite hu.setLine.setDue.dirDrop.poisonLine hu.setLine.setDue.dirDrop

theorem Keeps.execSscFlush {board} (h : Keeps s t) : Answers s (execSscFlush board t) := .done (h.atChip (fun hu => hu.setFld))

theorem Keeps.execSscFlushDone {board} (h : Keeps s t) : Answers s (execSscFlushDone board t) :=
  .ite (.done (h.foldl fun hu => .ite hu.writeBack hu.evictClean).setFld) (.done h)

/-! ### Functions of Machine/Microcode -/

theorem Keeps.mcSet {st res} (h : Keeps s t) : Keeps s (t.mcSet st res) := h.setFld.setFld

theorem Keeps.mcReject (h : Keeps s t) : Keeps s t.mcReject := h.setFld

theorem Keeps.mcVerify (h : Keeps s t) : Keeps s t.mcVerify := .ite h.mcReject h.setFld

theorem Keeps.execVerify (h : Keeps s t) : Answers s (execVerify t) := .done (h.atChip (fun hu => hu.mcVerify))

theorem Keeps.execVerifyDone (h : Keeps s t) : Answers s (execVerifyDone t) :=
  .ite (.done h) (.ite (.done h.putMicro.mcSet) (.done h.putMicro.mcSet))

theorem Keeps.mcFail {cl} (h : Keeps s t) : Keeps s (t.mcFail cl) := h.wr64

theorem Keeps.mcTried {cl} (h : Keeps s t) : Keeps s (t.mcTried cl) := h.putMicro.setFld

theorem Keeps.mcNext {board} (h : Keeps s t) : Keeps s (t.mcNext board) := by
  dsimp only [State.mcNext]
  refine .ite ?_ ?_
  · split
    · exact h.setFld
    · exact h
  · exact h.foldl fun hu => hu.mcFail.mcTried

theorem Keeps.mcApply (h : Keeps s t) : Keeps s t.mcApply := by
  dsimp only [State.mcApply]
  refine .ite ?_ ?_
  · exact h.mcReject
  · split
    · exact h.putMicro.mcSet.setFld.wr64.foldl fun hu => hu.mcNext
    · exact h

theorem Keeps.execApply (h : Keeps s t) : Answers s (execApply t) := .done (h.atChip (fun hu => hu.mcApply))

theorem Keeps.setMcStore {cl m} (h : Keeps s t) : Keeps s (t.setMcStore cl m) := h.putMicro

theorem Keeps.mcTake {cl m} (h : Keeps s t) : Keeps s (t.mcTake cl m) := h.setMcStore.setFld.setFld.setFld.setFld

theorem Keeps.mcReload {cl} (h : Keeps s t) : Keeps s (t.mcReload cl) := .ite h.mcTake h.mcTake

theorem Keeps.mcBackout {cl} (h : Keeps s t) : Keeps s (t.mcBackout cl) := (h.foldl fun hu => hu.setThread).makeReadyAll.satInc

theorem Keeps.mcRefresh {cl} (h : Keeps s t) : Keeps s (t.mcRefresh cl) := .ite h.setMcStore.satInc h.setMcStore.satInc.event

theorem Keeps.mcWork {cl} (h : Keeps s t) : Keeps s (t.mcWork cl) := .ite h.workEnd (.ite h.mcRefresh.workEnd h.putMicro)

theorem Keeps.mcResume {cl} (h : Keeps s t) : Keeps s (t.mcResume cl) :=
  .ite (Keeps.ite (h.setCmds.foldl fun hu => hu.threadCmdDo) h).putMicro.mcWork (.ite (h.setCmds.foldl fun hu => hu.threadCmdDo) h)

theorem Keeps.mcStopThread {th} (h : Keeps s t) : Keeps s (t.mcStopThread th) := h.threadStopped.threadEnd

theorem Keeps.mcLoadErr {cl} (h : Keeps s t) : Keeps s (t.mcLoadErr cl) := (h.foldl fun hu => hu.mcStopThread).setFld.mcFail.event

theorem Keeps.execReloadQuiesceLimit {cl mismatch} (h : Keeps s t) : Answers s (execReloadQuiesceLimit cl mismatch t) :=
  .ite (.done h) (.done (Keeps.ite h.mcBackout.setFld.mcReload.setFld.mcTried h.mcBackout.setFld.mcLoadErr.mcTried).mcResume.mcNext)

theorem Keeps.execApplyDone (h : Keeps s t) : Answers s (execApplyDone t) := .ite (.done h.putMicro.mcSet) (.done h)

theorem Keeps.mcDiscard (h : Keeps s t) : Keeps s t.mcDiscard := .ite h.mcReject h.resetRegs.putMicro.setFld

theorem Keeps.execDiscard (h : Keeps s t) : Answers s (execDiscard t) := .done (h.atChip (fun hu => hu.mcDiscard))

theorem Keeps.mcCmdWrite {v} (h : Keeps s t) : Keeps s (t.mcCmdWrite v) := by
  unfold State.mcCmdWrite
  refine .ite ?_ ?_
  · exact h.mcReject
  · split
    · exact h.mcVerify
    · exact h.mcApply
    · exact h.mcDiscard
    · exact h

theorem Keeps.mcWinWrite {i v} (h : Keeps s t) : Keeps s (t.mcWinWrite i v) := .ite h h.wr

theorem Keeps.mcBoot {base patch} (h : Keeps s t) : Keeps s (t.mcBoot base patch).2 :=
  .ite_snd h ((Keeps.ite h h.event).putMicro.foldl fun hu => hu.mcTake)

/-! ### Functions of Machine/Rings -/

theorem Keeps.hostReg {n f} (h : Keeps s t) (hf : ∀ {u}, Keeps s u → Keeps s (f u)) : Keeps s (t.hostReg n f) := .ite (hf h).answer h.answer

theorem Keeps.txDebit {n len} (h : Keeps s t) : Keeps s (t.txDebit n len) := h.putRing

theorem Keeps.bellTake {n} (h : Keeps s t) : Keeps s (t.bellTake n) := .ite h h.putRing

theorem Keeps.bellApply {n q rx v} (h : Keeps s t) : Keeps s (t.bellApply n q rx v) := .ite h.setRing h.satInc

theorem Keeps.bellLatch {n q rx v} (h : Keeps s t) : Keeps s (t.bellLatch n q rx v) := h.setRing.satInc

theorem Keeps.doorbell {n q rx v} (h : Keeps s t) : Keeps s (t.doorbell n q rx v) :=
  .ite h (.ite h.satInc (.ite h.bellLatch h.bellTake.bellApply))

theorem Keeps.execRingTxdb {inst q v} (h : Keeps s t) : Answers s (execRingTxdb inst q v t) := .done (h.hostReg (fun hu => hu.doorbell))

theorem Keeps.execRingRxdb {inst q v} (h : Keeps s t) : Answers s (execRingRxdb inst q v t) := .done (h.hostReg (fun hu => hu.doorbell))

theorem Keeps.bellPend {n q rx} (h : Keeps s t) : Keeps s (t.bellPend n q rx) := by
  dsimp only [State.bellPend]
  split
  · exact h.setRing.bellApply
  · exact h

theorem Keeps.ringArm {n q v} (h : Keeps s t) : Keeps s (t.ringArm n q v) :=
  .ite (.ite h.setFld h) (.ite (Keeps.ite h.setFld h).setFld (.ite (Keeps.ite h.setFld h).setRing.setRing.setFld.setFld (Keeps.ite h.setFld
    h).setRing.setRing.setFld))

theorem Keeps.execRingArm {inst q v} (h : Keeps s t) : Answers s (execRingArm inst q v t) := .done (h.hostReg (fun hu => hu.ringArm))

theorem Keeps.ringRegWrite {r i v} (h : Keeps s t) : Keeps s (t.ringRegWrite r i v) := by
  unfold State.ringRegWrite
  refine .ite ?_ ?_
  · exact h.setStage
  · refine .ite ?_ ?_
    · exact h.setFld
    · split
      · exact h.wr64.setStage
      · exact h.wr64.setStage
      · exact h.writeTyped

theorem Keeps.wrrRound {n} (h : Keeps s t) : Keeps s (t.wrrRound n) := h.foldl fun hu => .ite hu.setRing hu

theorem Keeps.fetchRequests {n q rx fuel i left} (h : Keeps s t) : Keeps s (t.fetchRequests n q rx fuel i left) := by
  induction fuel generalizing t i left with
  | zero => exact h
  | succ fuel ih => exact .ite h (ih h.hostAsk)

theorem Keeps.fetchStart {n q rx c} (h : Keeps s t) : Keeps s (t.fetchStart n q rx c) := h.fetchRequests.setRing

theorem Keeps.rxFetch {n q} (h : Keeps s t) : Keeps s (t.rxFetch n q) := .ite h.putRing.fetchStart h

theorem Keeps.svcFetch {n q} (h : Keeps s t) : Keeps s (t.svcFetch n q) :=
  .ite (Keeps.ite h.wrrRound h).setRing.putRing.fetchStart (.ite h.wrrRound h)

theorem Keeps.txFetch {n q} (h : Keeps s t) : Keeps s (t.txFetch n q) := .ite (.ite h.svcFetch h.fetchStart) h

theorem Keeps.execDescriptorFetch {inst q rx} (h : Keeps s t) : Answers s (execDescriptorFetch inst q rx t) :=
  .done (.ite h.rxFetch h.txFetch)

theorem Keeps.orphanAdd {k data c} (h : Keeps s t) : Keeps s (t.orphanAdd k data c) := h.putRing

theorem Keeps.orphanDone {k data} (h : Keeps s t) (e : t.orphanDone k data = some u) : Keeps s u := by
  dsimp only [State.orphanDone] at e
  split at e
  · cases e
  · exact Option.some.inj e ▸ h.putRing

theorem Keeps.descCount {n d} (h : Keeps s t) : Keeps s (t.descCount n d) := by
  unfold State.descCount
  split
  · exact .ite h.satInc (.ite h.satInc h)
  · exact h

theorem Keeps.fetchDone {n q rx words} (h : Keeps s t) : Keeps s (t.fetchDone n q rx words) := by
  dsimp only [State.fetchDone]
  split
  · exact h.orphanDone ‹_›
  · exact h
  · exact h.setRing.foldl fun hu => hu.descCount

theorem Keeps.execDescriptorFetchDone {inst q rx words} (h : Keeps s t) : Answers s (execDescriptorFetchDone inst q rx words t) :=
  .done h.fetchDone.settle

theorem Keeps.readStart {n q d def_} (h : Keeps s t) : Keeps s (t.readStart n q d def_) := by
  dsimp only [State.readStart]
  split
  · exact h.allocCells
  · exact h.allocCells.txDebit.putRing.setRing.hostAsk

theorem Keeps.execTxDataReadStart {inst q} (h : Keeps s t) : Answers s (execTxDataReadStart inst q t) := by
  dsimp only [Machine.execTxDataReadStart]
  split
  · exact .done h.readStart
  · exact .done h

theorem Keeps.txArrive {n q d data} (h : Keeps s t) : Keeps s (t.txArrive n q d data) := h.setRing.writeFrame.intakeVector

theorem Keeps.txFail {n q d} (h : Keeps s t) : Keeps s (t.txFail n q d) := h.setRing.reclaimCells.satInc

theorem Keeps.readDone {n q data} (h : Keeps s t) : Keeps s (t.readDone n q data) := by
  unfold State.readDone
  split
  · exact h.orphanDone ‹_›
  · exact h
  · split
    · exact .ite h h.txArrive
    · exact h.txFail

theorem Keeps.execTxDataReadDone {inst q data} (h : Keeps s t) : Answers s (execTxDataReadDone inst q data t) := .done h.readDone.settle

theorem Keeps.rxWrite {n q d o f} (h : Keeps s t) : Keeps s (t.rxWrite n q d o f) :=
  (Keeps.ite h.outputBytes.badAt.draw h.outputBytes.badAt).hostPut.setOutQueue.dropRef.setRing

theorem Keeps.execRxFrameWrite {inst q} (h : Keeps s t) : Answers s (execRxFrameWrite inst q t) := by
  dsimp only [Machine.execRxFrameWrite]
  split
  · split
    · exact .done h.rxWrite.settle
    · exact .done h
  · exact .done h

theorem Keeps.handBack {n q rx d code flen reason} (h : Keeps s t) : Keeps s (t.handBack n q rx d code flen reason) :=
  .ite h.emit.emit.setRing.msix h.emit.emit.setRing

theorem Keeps.execDescriptorComplete {inst q rx} (h : Keeps s t) : Answers s (execDescriptorComplete inst q rx t) := by
  unfold Machine.execDescriptorComplete
  split
  · exact .done h.handBack
  · exact .done h

theorem Keeps.qviewRead {n} (h : Keeps s t) : Keeps s (t.qviewRead n) := h.wr

theorem Keeps.execQviewRead {inst} (h : Keeps s t) : Answers s (execQviewRead inst t) := .ite (.done h.qviewRead.answer) (.done h.answer)

theorem Keeps.ringForget {n q} (h : Keeps s t) : Keeps s (State.ringForget n q t) :=
  h.reclaimCells.orphanAdd.orphanAdd.orphanAdd.setRing.setRing.setFld

theorem Keeps.ringsClear {n} (h : Keeps s t) : Keeps s (t.ringsClear n) := h.foldl fun hu => hu.ringForget

theorem Keeps.unfetch {n rx q} (h : Keeps s t) : Keeps s (State.unfetch n rx t q) := h.orphanAdd.setRing

/-! ### Functions of Machine/Storage -/

theorem Keeps.setCell {k c} (h : Keeps s t) : Keeps s (t.setCell k c) := h.putSto

theorem Keeps.setCmd {k c} (h : Keeps s t) : Keeps s (t.setCmd k c) := h.setCell

theorem Keeps.showSlots {bank} (h : Keeps s t) : Keeps s (t.showSlots bank) := h.setFld.setFld

theorem Keeps.setNvmeQ {n q x} (h : Keeps s t) : Keeps s (t.setNvmeQ n q x) := h.putSto

theorem Keeps.setNvmeCtl {n c} (h : Keeps s t) : Keeps s (t.setNvmeCtl n c) := h.putSto

theorem Keeps.setHoldQ {bank l} (h : Keeps s t) : Keeps s (t.setHoldQ bank l) := h.putSto

theorem Keeps.setEvq {bank l} (h : Keeps s t) : Keeps s (t.setEvq bank l) := h.putSto

theorem Keeps.ccEnable {n v} (h : Keeps s t) : Keeps s (t.ccEnable n v) :=
  .ite h (.ite h.writeTyped.setFld.setNvmeCtl.setNvmeQ h.writeTyped.setFld.setNvmeCtl.setNvmeQ.setFld)

theorem Keeps.execCcEnSet {inst v} (h : Keeps s t) : Answers s (execCcEnSet inst v t) := .done (h.hostReg (fun hu => hu.ccEnable))

theorem Keeps.execControllerReady {inst} (h : Keeps s t) : Answers s (execControllerReady inst t) := .done (.ite h.setFld h)

theorem Keeps.ccShutdown {n v} (h : Keeps s t) : Keeps s (t.ccShutdown n v) := .ite h.setFld.setFld h.setFld

theorem Keeps.execCcShnWrite {inst v} (h : Keeps s t) : Answers s (execCcShnWrite inst v t) :=
  .done (h.hostReg (fun hu => .ite hu.ccShutdown hu))

theorem Keeps.execShutdownComplete {inst} (h : Keeps s t) : Answers s (execShutdownComplete inst t) := .done (.ite h.setFld h)

theorem Keeps.tailApply {n q v} (h : Keeps s t) : Keeps s (t.tailApply n q v) := by
  dsimp only [State.tailApply]
  split
  · exact .ite h.setNvmeQ h
  · exact h

theorem Keeps.tailBell {n q v} (h : Keeps s t) : Keeps s (t.tailBell n q v) := .ite h (.ite h.setNvmeQ.satInc h.bellTake.tailApply)

theorem Keeps.execSqTailDoorbell {inst q v} (h : Keeps s t) : Answers s (execSqTailDoorbell inst q v t) :=
  .done (h.hostReg (fun hu => hu.tailBell))

theorem Keeps.headBell {n q v} (h : Keeps s t) : Keeps s (t.headBell n q v) := by
  dsimp only [State.headBell]
  split
  · exact .ite h.setNvmeQ h
  · exact h

theorem Keeps.execCqHeadDoorbell {inst q v} (h : Keeps s t) : Answers s (execCqHeadDoorbell inst q v t) :=
  .done (h.hostReg (fun hu => hu.headBell))

theorem Keeps.tailPend {n q} (h : Keeps s t) : Keeps s (t.tailPend n q) := by
  dsimp only [State.tailPend]
  split
  · exact h.setNvmeQ.tailApply
  · exact h

theorem Keeps.execPendingDoorbellApply {inst q rx} (h : Keeps s t) : Answers s (execPendingDoorbellApply inst q rx t) :=
  .ite (.done h) (.ite (.done (.ite h.bellTake.tailPend h)) (.done (.ite h.bellTake.bellPend h)))

theorem Keeps.sqRound {n} (h : Keeps s t) : Keeps s (t.sqRound n) := h.foldl fun hu => .ite hu.setNvmeQ hu

theorem Keeps.sqTurn {n q} (h : Keeps s t) : Keeps s (t.sqTurn n q).2 :=
  .ite_snd h (.ite_snd (Keeps.ite h.sqRound h).setNvmeCtl.setNvmeQ (.ite h.sqRound h))

theorem Keeps.stoEnd {k dw0 sct sc dnr} (h : Keeps s t) : Keeps s (t.stoEnd k dw0 sct sc dnr) := by
  unfold State.stoEnd
  split
  · exact h.setCmd
  · exact h

theorem Keeps.stoUncell {k} (h : Keeps s t) : Keeps s (t.stoUncell k) := by
  unfold State.stoUncell
  split
  · exact h.reclaimCells
  · exact h

theorem Keeps.stoFinish {k dw0 sct sc dnr} (h : Keeps s t) : Keeps s (t.stoFinish k dw0 sct sc dnr) := h.stoUncell.stoEnd

theorem Keeps.stoError {k sct sc dnr} (h : Keeps s t) : Keeps s (t.stoError k sct sc dnr) := h.stoFinish.satInc

theorem Keeps.slotTake {n q k entry} (h : Keeps s t) : Keeps s (t.slotTake n q k entry) := by
  dsimp only [State.slotTake]
  split
  · exact h.allocCells
  · exact .ite h.allocCells.draw.setNvmeQ.setCell.putSto h.allocCells.draw.setNvmeQ.setCell.putSto.stoError

theorem Keeps.sqAsk {n q} (h : Keeps s t) : Keeps s (t.sqAsk n q) := by
  unfold State.sqAsk
  split
  · exact h.hostAsk
  · exact h

theorem Keeps.execSubmissionFetch {inst q entry} (h : Keeps s t) : Answers s (execSubmissionFetch inst q entry t) := by
  dsimp only [Machine.execSubmissionFetch]
  split
  · refine .ite ?_ ?_
    · exact .done h
    · split
      · exact .done h.sqTurn.sqAsk.slotTake.showSlots
      · exact .done h.sqAsk
  · exact .done h

theorem Keeps.stoWork {k admin op f} (h : Keeps s t) (hf : ∀ {c u}, Keeps s u → Keeps s (f c u)) :
    Keeps s (t.stoWork k admin op f) := by
  unfold State.stoWork
  split
  · exact .ite (hf h) h
  · exact h

theorem Keeps.cplWrite {k c dw0 sct sc dnr} (h : Keeps s t) : Keeps s (t.cplWrite k c dw0 sct sc dnr) := by
  dsimp only [State.cplWrite]
  split
  · exact (Keeps.ite h.emit.setNvmeQ.msix h.emit.setNvmeQ).setCmd.showSlots
  · exact h

theorem Keeps.execCompletionEntryWrite {bank slot} (h : Keeps s t) : Answers s (execCompletionEntryWrite bank slot t) := by
  dsimp only [Machine.execCompletionEntryWrite]
  split
  · split
    · exact .ite (.done h.cplWrite) (.done h)
    · exact .done h
  · exact .done h

theorem Keeps.stoAccept {k x sct sc dnr} (h : Keeps s t) : Keeps s (t.stoAccept k x sct sc dnr) :=
  .ite h.setHoldQ.stoFinish h.setHoldQ.stoEnd

theorem Keeps.stoCpl {bank v} (h : Keeps s t) : Keeps s (t.stoCpl bank v) := by
  dsimp only [State.stoCpl]
  split
  · exact .ite h.stoAccept h.satInc
  · exact h.satInc

theorem Keeps.execStoCplWrite {bank v} (h : Keeps s t) : Answers s (execStoCplWrite bank v t) := .done (h.atChip (fun hu => hu.stoCpl))

theorem Keeps.toPrp {c l} (h : Keeps s t) : Keeps s (t.toPrp c l) := h.hostPut.hostPut

theorem Keeps.identify {k c} (h : Keeps s t) : Keeps s (State.identify k c t) :=
  .ite (.ite h.toPrp.stoFinish h.stoError) (.ite h.toPrp.stoFinish (.ite h.toPrp.stoFinish h.stoError))

theorem Keeps.execIdentify {bank slot} (h : Keeps s t) : Answers s (execIdentify bank slot t) := .done (h.stoWork (fun hu => hu.identify))

theorem Keeps.getLog {k c} (h : Keeps s t) : Keeps s (State.getLog k c t) :=
  .ite h.toPrp.stoFinish (.ite h.toPrp.setNvmeCtl.stoFinish h.stoError)

theorem Keeps.execGetLogPage {bank slot} (h : Keeps s t) : Answers s (execGetLogPage bank slot t) := .done (h.stoWork (fun hu => hu.getLog))

theorem Keeps.setFeature {k c} (h : Keeps s t) : Keeps s (State.setFeature k c t) :=
  .ite h.setNvmeCtl.stoFinish (.ite h.setNvmeCtl.stoFinish h.stoError)

theorem Keeps.execSetFeatures {bank slot} (h : Keeps s t) : Answers s (execSetFeatures bank slot t) :=
  .done (h.stoWork (fun hu => hu.setFeature))

theorem Keeps.getFeature {k c} (h : Keeps s t) : Keeps s (State.getFeature k c t) := .ite h.stoFinish (.ite h.stoFinish h.stoError)

theorem Keeps.execGetFeatures {bank slot} (h : Keeps s t) : Answers s (execGetFeatures bank slot t) :=
  .done (h.stoWork (fun hu => hu.getFeature))

theorem Keeps.create {k c same bound ok bind} (h : Keeps s t) (hf : ∀ {u}, Keeps s u → Keeps s (bind u)) :
    Keeps s (State.create k c same bound ok bind t) :=
  .ite h.stoError (.ite (.ite h.stoFinish h.stoError) (.ite h.stoError (.ite h.stoError (.ite h.stoError (hf h).stoFinish))))

theorem Keeps.createCq {k c} (h : Keeps s t) : Keeps s (State.createCq k c t) := h.create (fun hu => hu.setNvmeQ)

theorem Keeps.execCreateIoCompletionQueue {bank slot} (h : Keeps s t) : Answers s (execCreateIoCompletionQueue bank slot t) :=
  .done (h.stoWork (fun hu => hu.createCq))

theorem Keeps.createSq {k c} (h : Keeps s t) : Keeps s (State.createSq k c t) := h.create (fun hu => hu.setNvmeQ)

theorem Keeps.execCreateIoSubmissionQueue {bank slot} (h : Keeps s t) : Answers s (execCreateIoSubmissionQueue bank slot t) :=
  .done (h.stoWork (fun hu => hu.createSq))

theorem Keeps.execDeleteIoSubmissionQueue {bank slot} (h : Keeps s t) : Answers s (execDeleteIoSubmissionQueue bank slot t) :=
  .done (h.stoWork (fun hu => hu.stoFinish))

theorem Keeps.execDeleteIoCompletionQueue {bank slot} (h : Keeps s t) : Answers s (execDeleteIoCompletionQueue bank slot t) :=
  .done (h.stoWork (fun hu => hu.stoFinish))

theorem Keeps.execNvmeAbort {bank slot} (h : Keeps s t) : Answers s (execNvmeAbort bank slot t) :=
  .done (h.stoWork (fun hu => hu.stoFinish))

theorem Keeps.sendNotice {n} (h : Keeps s t) : Keeps s (t.sendNotice n) := by
  dsimp only [State.sendNotice]
  refine .ite ?_ ?_
  · exact h
  · split
    · exact h.setNvmeCtl.stoFinish
    · exact h

theorem Keeps.eventRequest {k c} (h : Keeps s t) : Keeps s (State.eventRequest k c t) := .ite h.stoError h.setCmd.sendNotice

theorem Keeps.execAsynchronousEventRequest {bank slot} (h : Keeps s t) : Answers s (execAsynchronousEventRequest bank slot t) :=
  .done (h.stoWork (fun hu => hu.eventRequest))

theorem Keeps.stoFault {k} (h : Keeps s t) : Keeps s (t.stoFault k) := h.stoError

theorem Keeps.stoSend {k c ns len split prps x0 x1} (h : Keeps s t) : Keeps s (t.stoSend k c ns len split prps x0 x1) :=
  .ite h.setCmd h.writeFrame.setCmd.intakeVector

theorem Keeps.postExtent {bank x} (h : Keeps s t) : Keeps s (State.postExtent bank t x) := .ite h (.ite h.satInc h.setEvq)

theorem Keeps.stoHold {k c xs} (h : Keeps s t) : Keeps s (t.stoHold k c xs) :=
  .ite h.stoError (h.foldl fun hu => hu.postExtent).setCmd.setHoldQ

theorem Keeps.stoTranslate {k c ns write first prps} (h : Keeps s t) : Keeps s (t.stoTranslate k c ns write first prps) :=
  .ite h.hbmTouch.stoFault (.ite h.hbmTouch.stoError (.ite h.hbmTouch.stoError (.ite (.ite h.hbmTouch.stoHold h.hbmTouch)
    h.hbmTouch.stoSend)))

theorem Keeps.prpCopy {k l} (h : Keeps s t) : Keeps s (t.prpCopy k l) := h.hbmPutBy

theorem Keeps.hostReads {n l} (h : Keeps s t) : Keeps s (t.hostReads n l) := h.foldl fun hu => hu.hostAsk

theorem Keeps.prpPages {c n list} (h : Keeps s t) : Keeps s (t.prpPages c n list).2 := by
  dsimp only [State.prpPages]
  refine .ite_snd ?_ ?_
  · exact h
  · refine .ite_snd ?_ ?_
    · exact h
    · split
      · exact h.hostReads
      · exact h.hostReads

theorem Keeps.stoPlain {k f c} (h : Keeps s t) (hf : ∀ {ns u}, Keeps s u → Keeps s (f ns u)) : Keeps s (State.stoPlain k f c t) := by
  dsimp only [State.stoPlain]
  refine .ite h.stoError (.ite h.stoError (.ite h.hbmTouch.stoFault ?_))
  split
  · exact h.hbmTouch.stoError
  · refine .ite h.hbmTouch.hbmTouch.stoFault ?_
    split
    · exact h.hbmTouch.hbmTouch.stoError
    · exact hf h.hbmTouch.hbmTouch

theorem Keeps.stoRun {k write data list c ns} (h : Keeps s t) : Keeps s (State.stoRun k write data list c ns t) := by
  dsimp only [State.stoRun]
  refine .ite h.setCmd.stoError (.ite h.setCmd.stoError (.ite h.setCmd.stoTranslate ?_))
  split
  · exact (h.setCmd.prpPages.snd ‹_›).stoError
  · exact .ite (h.setCmd.prpPages.snd ‹_›).stoError (h.setCmd.prpPages.snd ‹_›).prpCopy.stoTranslate

theorem Keeps.stoIo {k write data list c} (h : Keeps s t) : Keeps s (State.stoIo k write data list c t) := h.stoPlain (fun hu => hu.stoRun)

theorem Keeps.execNvmeRead {bank slot list} (h : Keeps s t) : Answers s (execNvmeRead bank slot list t) :=
  .done (h.stoWork (fun hu => hu.stoIo))

theorem Keeps.execNvmeWrite {bank slot list} (h : Keeps s t) : Answers s (execNvmeWrite bank slot list t) :=
  .done (h.stoWork (fun hu => hu.stoIo))

theorem Keeps.execWriteZeroes {bank slot} (h : Keeps s t) : Answers s (execWriteZeroes bank slot t) :=
  .done (h.stoWork (fun hu => hu.stoIo))

theorem Keeps.execFlush {bank slot} (h : Keeps s t) : Answers s (execFlush bank slot t) :=
  .done (h.stoWork (fun hu => hu.stoPlain (fun hv => hv.setCmd)))

theorem Keeps.execFlushComplete {bank slot} (h : Keeps s t) : Answers s (execFlushComplete bank slot t) := by
  dsimp only [Machine.execFlushComplete]
  split
  · exact .ite (.done h.stoFinish) (.done h)
  · exact .done h

theorem Keeps.stoDsm {k ranges c ns} (h : Keeps s t) : Keeps s (State.stoDsm k ranges c ns t) := by
  dsimp only [State.stoDsm]
  refine .ite ?_ ?_
  · exact h.stoError
  · split
    · exact h.hostReads.stoError
    · exact .ite h.hostReads.hbmTouch.stoFault h.hostReads.hbmTouch.hbmPutBy.stoSend

theorem Keeps.execDatasetManagement {bank slot ranges} (h : Keeps s t) : Answers s (execDatasetManagement bank slot ranges t) :=
  .done (h.stoWork (fun hu => hu.stoPlain (fun hv => hv.stoDsm)))

theorem Keeps.retranslate {x bank k} (h : Keeps s t) : Keeps s (State.retranslate x bank t k) := by
  dsimp only [State.retranslate]
  split
  · refine .ite ?_ ?_
    · split
      · exact h.stoError.setHoldQ
      · split
        · exact .ite h.stoTranslate h.stoTranslate.setHoldQ
        · exact h.stoTranslate
    · exact h
  · exact h

theorem Keeps.execHoldTimeout {bank slot} (h : Keeps s t) : Answers s (execHoldTimeout bank slot t) := by
  dsimp only [Machine.execHoldTimeout]
  split
  · exact .ite (.done (.ite h.setHoldQ.stoError h.setHoldQ.stoError)) (.done h)
  · exact .done h

theorem Keeps.stgAlloc {bank} (h : Keeps s t) : Keeps s (t.stgAlloc bank).2 := by
  dsimp only [State.stgAlloc]
  split
  · exact .ite_snd h.draw.putSto h
  · exact h

theorem Keeps.execStgAlloc {bank} (h : Keeps s t) : Answers s (execStgAlloc bank t) := .ite (.done h.stgAlloc.answer) (.done h.answer)

theorem Keeps.stgFree {bank v} (h : Keeps s t) : Keeps s (t.stgFree bank v) := .ite h.putSto h.satInc

theorem Keeps.execStgFree {bank v} (h : Keeps s t) : Answers s (execStgFree bank v t) := .done (h.atChip (fun hu => hu.stgFree))

theorem Keeps.evqRead {bank} (h : Keeps s t) : Keeps s (t.evqRead bank).2 := by
  dsimp only [State.evqRead]
  split
  · exact h
  · exact h.setEvq

theorem Keeps.execStoEvqRead {bank} (h : Keeps s t) : Answers s (execStoEvqRead bank t) := .ite (.done h.evqRead.answer) (.done h.answer)

theorem Keeps.loadCmd {bank l} (h : Keeps s t) : Keeps s (t.loadCmd bank l) := h.foldl fun hu => hu.wr

theorem Keeps.stoGo {bank f} (h : Keeps s t) (hf : ∀ {u}, Keeps s u → Keeps s (f u)) : Keeps s (t.stoGo bank f) :=
  .ite h.setFld (.ite (hf h.setFld) h.setFld)

theorem Keeps.noteChange {n nsid} (h : Keeps s t) : Keeps s (t.noteChange n nsid) := h.setNvmeCtl.sendNotice

theorem Keeps.extWrite {bank} (h : Keeps s t) : Keeps s (t.extWrite bank) :=
  h.stoGo (fun hu => hu.hbmPutBy.putSto.foldl fun hv => hv.foldl fun hw => hw.retranslate)

theorem Keeps.execExtWrite {bank} (h : Keeps s t) : Answers s (execExtWrite bank t) := .done (h.atChip (fun hu => hu.extWrite))

theorem Keeps.loadFrom {bank off n} (h : Keeps s t) : Keeps s (t.loadFrom bank off n) := .ite h.hbmTouch.loadCmd h.hbmTouch

theorem Keeps.extRead {bank} (h : Keeps s t) : Keeps s (t.extRead bank) := h.stoGo (fun hu => hu.loadFrom)

theorem Keeps.execExtRead {bank} (h : Keeps s t) : Answers s (execExtRead bank t) := .done (h.atChip (fun hu => hu.extRead))

theorem Keeps.nsWrite {bank} (h : Keeps s t) : Keeps s (t.nsWrite bank) :=
  h.stoGo (fun hu => hu.hbmPutBy.foldl fun hv => hv.foldl fun hw => hw.noteChange)

theorem Keeps.execNsWrite {bank} (h : Keeps s t) : Answers s (execNsWrite bank t) := .done (h.atChip (fun hu => hu.nsWrite))

theorem Keeps.nsRead {bank} (h : Keeps s t) : Keeps s (t.nsRead bank) := h.stoGo (fun hu => hu.loadFrom)

theorem Keeps.execNsRead {bank} (h : Keeps s t) : Answers s (execNsRead bank t) := .done (h.atChip (fun hu => hu.nsRead))

theorem Keeps.mapWrite {bank} (h : Keeps s t) : Keeps s (t.mapWrite bank) := h.stoGo (fun hu => hu.hbmPutBy.foldl fun hv => hv.noteChange)

theorem Keeps.execMapWrite {bank} (h : Keeps s t) : Answers s (execMapWrite bank t) := .done (h.atChip (fun hu => hu.mapWrite))

theorem Keeps.mapRead {bank} (h : Keeps s t) : Keeps s (t.mapRead bank) := h.stoGo (fun hu => hu.loadFrom)

theorem Keeps.execMapRead {bank} (h : Keeps s t) : Answers s (execMapRead bank t) := .done (h.atChip (fun hu => hu.mapRead))

theorem Keeps.cmdGo {bank v} (h : Keeps s t) : Keeps s (t.cmdGo bank v) := by
  unfold State.cmdGo
  split
  · exact h.extWrite
  · exact h.extRead
  · exact h.nsWrite
  · exact h.nsRead
  · exact h.mapWrite
  · exact h.mapRead
  · exact h

theorem Keeps.slotQuarantine {k} (h : Keeps s t) : Keeps s (t.slotQuarantine k) := by
  dsimp only [State.slotQuarantine]
  split
  · exact (Keeps.ite h.reclaimCells h).setCell
  · exact h

theorem Keeps.storageClear {n} (h : Keeps s t) : Keeps s (t.storageClear n) :=
  ((h.setHoldQ.foldl fun hu => hu.slotQuarantine).showSlots.foldl fun hu => hu.setNvmeQ).setNvmeCtl.wr.wr

theorem Keeps.adminRegsClear {n} (h : Keeps s t) : Keeps s (t.adminRegsClear n) := h.wr.wr64.wr64

theorem Keeps.execSlotQuarantineEnd {inst} (h : Keeps s t) : Answers s (execSlotQuarantineEnd inst t) :=
  .done (h.foldl fun hu => hu.setCell).showSlots

/-! ### Functions of Machine/Vault -/

theorem Keeps.mramWrite {off l} (h : Keeps s t) : Keeps s (t.mramWrite off l) :=
  ⟨fun hs => (h.memory hs).mramWrite off l, h.fuses, h.pending⟩

theorem Keeps.vaultSelect (h : Keeps s t) : Keeps s t.vaultSelect := h.putTrust.setFld.wr

theorem Keeps.commitStart {rid payload} (h : Keeps s t) : Keeps s (t.commitStart rid payload) := h.putTrust.setFld

theorem Keeps.showPend (h : Keeps s t) : Keeps s t.showPend := h.setFld

theorem Keeps.setPend {rid p} (h : Keeps s t) : Keeps s (t.setPend rid p) := h.putTrust.showPend

theorem Keeps.commitNext_ (h : Keeps s t) : Keeps s t.commitNext_ := by
  unfold State.commitNext_
  split
  · exact .ite h h.setPend.setFld.commitStart
  · exact h

theorem Keeps.vaultResult {r} (h : Keeps s t) : Keeps s (t.vaultResult r) := h.setFld

theorem Keeps.showSeq {rid} (h : Keeps s t) : Keeps s (t.showSeq rid) := by
  unfold State.showSeq
  split
  · exact h.wr
  · exact h.wr

theorem Keeps.commitAsk {rid p} (h : Keeps s t) : Keeps s (t.commitAsk rid p) := h.setPend.commitNext_

theorem Keeps.copyDone (h : Keeps s t) : Keeps s t.copyDone := by
  dsimp only [State.copyDone]
  split
  · exact h
  · exact (Keeps.ite h.mramWrite.putTrust.setFld.satInc.showSeq.wr.event h.mramWrite.putTrust.setFld.satInc.showSeq.wr).commitNext_

theorem Keeps.execVaultCopyWriteDone (h : Keeps s t) : Answers s (execVaultCopyWriteDone t) := .done h.copyDone

theorem Keeps.execCommitTokenRefill (h : Keeps s t) : Answers s (execCommitTokenRefill t) := .done h.setFld.commitNext_

theorem Keeps.loadBuf {l} (h : Keeps s t) : Keeps s (t.loadBuf l) := h.foldl fun hu => hu.wr

theorem Keeps.vaultWrite {rid} (h : Keeps s t) : Keeps s (t.vaultWrite rid) :=
  .ite h.vaultResult (.ite h.vaultResult (.ite h.vaultResult (.ite h.vaultResult (Keeps.ite h.putTrust h).vaultResult.commitAsk.showSeq)))

theorem Keeps.execVaultWrite {rid} (h : Keeps s t) : Answers s (execVaultWrite rid t) := .done (h.atChip (fun hu => hu.vaultWrite))

theorem Keeps.vaultRead {rid} (h : Keeps s t) : Keeps s (t.vaultRead rid) := by
  unfold State.vaultRead
  refine .ite ?_ ?_
  · exact h.vaultResult
  · refine .ite ?_ ?_
    · exact h.vaultResult
    · split
      · exact h.vaultResult.showSeq
      · exact h.loadBuf.setFld.vaultResult.showSeq

theorem Keeps.execVaultRead {rid} (h : Keeps s t) : Answers s (execVaultRead rid t) := .done (h.atChip (fun hu => hu.vaultRead))

theorem Keeps.powerFail {data} (h : Keeps s t) : Keeps s (t.powerFail data) := h.setFld.copyDone.putTrust.showPend.event

theorem Keeps.execPowerFailWarning {pin} (h : Keeps s t) : Answers s (execPowerFailWarning pin t) := .done h.powerFail

/-! ### Functions of Machine/Instances -/

theorem Keeps.flushQueue {q} (h : Keeps s t) : Keeps s (t.flushQueue q) := h.setQueue.setDepth.foldl fun hu => hu.dropRef

theorem Keeps.freeReleased {n} (h : Keeps s t) : Keeps s (t.freeReleased n) := h.setOutQueue.foldl fun hu => hu.dropRef

theorem Keeps.msixReset {ep fn} (h : Keeps s t) : Keeps s (t.msixReset ep fn) := h.resetRegs

theorem Keeps.configReset {ep fn} (h : Keeps s t) : Keeps s (t.configReset ep fn) := h.resetRegs

theorem Keeps.ferryPend {n v} (h : Keeps s t) : Keeps s (t.ferryPend n v) := h.wr

theorem Keeps.ferryClear {n} (h : Keeps s t) : Keeps s (t.ferryClear n) := h.resetRegs.ferryPend

theorem Keeps.insCounters {n} (h : Keeps s t) : Keeps s (t.insCounters n) := h.wr64.wr

theorem Keeps.resetEnter {n} (h : Keeps s t) : Keeps s (t.resetEnter n) := (Keeps.ite h.setFld h).setFld.modInc.setFld.modInc.insCounters

theorem Keeps.fnWide {n} (h : Keeps s t) : Keeps s (t.fnWide n) := .ite h.msixReset.adminRegsClear h.msixReset

theorem Keeps.fnSettings {n} (h : Keeps s t) : Keeps s (t.fnSettings n) := h.setFld.setFld

theorem Keeps.fnReset {n ccReset} (h : Keeps s t) : Keeps s (t.fnReset n ccReset) :=
  .ite (.ite h h.fnWide.fnSettings) (Keeps.ite (.ite (h.resetEnter.ringsClear.ferryClear.foldl fun hu =>
    hu.flushQueue).freeReleased.storageClear (h.resetEnter.ringsClear.ferryClear.foldl fun hu => hu.flushQueue).freeReleased) (Keeps.ite
    (h.resetEnter.ringsClear.ferryClear.foldl fun hu => hu.flushQueue).freeReleased.storageClear (h.resetEnter.ringsClear.ferryClear.foldl
    fun hu => hu.flushQueue).freeReleased).fnWide).fnSettings.settle

theorem Keeps.msixSend {ep fn vec} (h : Keeps s t) : Keeps s (t.msixSend ep fn vec) := .ite h h.setFld.msix

theorem Keeps.msixFlush {ep fn} (h : Keeps s t) : Keeps s (t.msixFlush ep fn) := h.foldl fun hu => hu.msixSend

theorem Keeps.execFunctionResetEnd {inst} (h : Keeps s t) : Answers s (execFunctionResetEnd inst t) :=
  .done (.ite h.setFld.msixFlush.settle h)

theorem Keeps.execCcEnClear {inst v} (h : Keeps s t) : Answers s (execCcEnClear inst v t) :=
  .done (h.hostReg (fun hu => .ite hu.fnReset hu))

theorem Keeps.dropStale {v} (h : Keeps s t) : Keeps s (t.dropStale v) := h.reclaimFrame.sendCommit

theorem Keeps.staleQueue {n bank board} (h : Keeps s t) : Keeps s (State.staleQueue n bank t board) :=
  h.setIntakeQueue.foldl fun hu => hu.dropStale

theorem Keeps.execStaleVectorDrop {inst} (h : Keeps s t) : Answers s (execStaleVectorDrop inst t) :=
  .done ((h.foldl fun hu => hu.staleQueue).setSide.foldl fun hu => hu.dropStale)

theorem Keeps.frzReject {n} (h : Keeps s t) : Keeps s (t.frzReject n) := h.setFld

theorem Keeps.setIns {n st} (h : Keeps s t) : Keeps s (t.setIns n st) := h.setFld

theorem Keeps.setFrz {n r} (h : Keeps s t) : Keeps s (t.setFrz n r) := h.setFld

theorem Keeps.freezeDo {n} (h : Keeps s t) : Keeps s (t.freezeDo n) := (h.setIns.foldl fun hu => hu.unfetch.unfetch).settle

theorem Keeps.freezeCmd {n} (h : Keeps s t) : Keeps s (t.freezeCmd n) := .ite h.freezeDo h.frzReject

theorem Keeps.execFreeze {inst} (h : Keeps s t) : Answers s (execFreeze inst t) := .done (h.atChip (fun hu => hu.freezeCmd))

theorem Keeps.quiesce {n} (h : Keeps s t) : Keeps s (t.quiesce n) := .ite h.setIns.setFrz h

theorem Keeps.execQuiescentPoint {inst} (h : Keeps s t) : Answers s (execQuiescentPoint inst t) := .done h.quiesce

theorem Keeps.execFreezeTimeout {inst} (h : Keeps s t) : Answers s (execFreezeTimeout inst t) := .done (.ite h.setIns.setFrz.settle h)

theorem Keeps.saveCmd {n} (h : Keeps s t) : Keeps s (t.saveCmd n) := .ite h.frzReject (.ite h.setFrz (.ite h.setFrz h.hbmPutBy.setFld))

theorem Keeps.execSave {inst} (h : Keeps s t) : Answers s (execSave inst t) := .done (h.atChip (fun hu => hu.saveCmd))

theorem Keeps.saveDone {n} (h : Keeps s t) : Keeps s (t.saveDone n) :=
  .ite h (.ite (h.setFld.foldl fun hu => hu.pipeDrain).setFrz (.ite (h.setFld.foldl fun hu => hu.pipeDrain).setFrz ((h.setFld.foldl fun hu
    => hu.pipeDrain).when (fun hu => hu.hbmTouch)).hbmPutBy.setFld.setFrz))

theorem Keeps.execSaveDone {inst} (h : Keeps s t) : Answers s (execSaveDone inst t) := .done h.saveDone

theorem Keeps.restoreCmd {n} (h : Keeps s t) : Keeps s (t.restoreCmd n) := .ite h.frzReject h.setIns.setFld

theorem Keeps.execRestore {inst} (h : Keeps s t) : Answers s (execRestore inst t) := .done (h.atChip (fun hu => hu.restoreCmd))

theorem Keeps.imgDice {n l acc} (h : Keeps s t) : Keeps s (State.imgDice n l acc t).2.2 := by
  induction l generalizing acc t with
  | nil => exact h
  | cons e rest ih =>
    dsimp only [State.imgDice]
    split
    · split
      · exact h
      · exact ih h
    · split
      · exact h.pipeDrain.insertEntry
      · exact ih h.pipeDrain.insertEntry

theorem Keeps.undoDice {x} (h : Keeps s t) : Keeps s (t.undoDice x) := by
  unfold State.undoDice
  split
  · exact h.removeAt
  · exact h

theorem Keeps.setRingRec {n q l} (h : Keeps s t) : Keeps s (t.setRingRec n q l) := h.wr64.wr64.wr.wr.wr.setRing.setRing.setFld

theorem Keeps.setNvmeRec {n q l} (h : Keeps s t) : Keeps s (t.setNvmeRec n q l) := (Keeps.ite h h.wr).setNvmeQ

theorem Keeps.setStoreRec {n l} (h : Keeps s t) : Keeps s (t.setStoreRec n l) := h.wr.wr.wr64.wr64.setNvmeCtl.setFld.hbmPutBy

theorem Keeps.setFerryRec {n msg stat l} (h : Keeps s t) : Keeps s (t.setFerryRec n msg stat l) := (h.foldl fun hu => hu.wr).wr.wr

theorem Keeps.setMsixRec {k l} (h : Keeps s t) : Keeps s (t.setMsixRec k l) := h.wr.wr.wr.wr

theorem Keeps.imgApplyTo {n l} (h : Keeps s t) : Keeps s (t.imgApplyTo n l) :=
  (((Keeps.ite (h.foldl fun hu => hu.wr).setStoreRec (h.foldl fun hu => hu.wr)).foldl fun hu => .ite hu.setNvmeRec
    hu.setRingRec).setFerryRec.setFerryRec.ferryPend.foldl fun hu => hu.setMsixRec).foldl fun hu => hu.setFld

theorem Keeps.restoreEnd {n} (h : Keeps s t) : Keeps s (t.restoreEnd n) :=
  .ite h (.ite (h.setFld.when (fun hu => hu.hbmTouch)).setIns.setFrz (.ite ((h.setFld.when (fun hu => hu.hbmTouch)).imgDice.foldl fun hu =>
    hu.undoDice).setIns.setFrz (h.setFld.when (fun hu => hu.hbmTouch)).imgDice.imgApplyTo.modInc.setIns.setFrz))

theorem Keeps.execRestoreDone {inst} (h : Keeps s t) : Answers s (execRestoreDone inst t) := .done h.restoreEnd.settle

theorem Keeps.thawCmd {n} (h : Keeps s t) : Keeps s (t.thawCmd n) :=
  .ite h.frzReject (Keeps.ite (h.setIns.foldl fun hu => hu.tailPend) (h.setIns.foldl fun hu => hu.bellPend.bellPend)).msixFlush.settle

theorem Keeps.execThaw {inst} (h : Keeps s t) : Answers s (execThaw inst t) := .done (h.atChip (fun hu => hu.thawCmd))

theorem Keeps.execInsRateWrite {board inst v} (h : Keeps s t) : Answers s (execInsRateWrite board inst v t) :=
  .done (h.atChip (fun hu => hu.insW0Write))

/-! ### Functions of Machine/HostPci -/

theorem Keeps.setReady {ep fn v} (h : Keeps s t) : Keeps s (t.setReady ep fn v) := h.setFld

theorem Keeps.showReady {ep} (h : Keeps s t) : Keeps s (t.showReady ep) := h.setFld

theorem Keeps.setDoe {k l} (h : Keeps s t) : Keeps s (t.setDoe k l) := h.putPlat

theorem Keeps.fnAllReset {ep fn} (h : Keeps s t) : Keeps s (State.fnAllReset ep t fn) := h.fnReset.configReset.setDoe.setReady

theorem Keeps.pf1Reset {ep} (h : Keeps s t) : Keeps s (t.pf1Reset ep) :=
  (h.msixReset.configReset.resetRegs.foldl fun hu => hu.setStage).setDoe.setReady

theorem Keeps.pf0Reset {ep} (h : Keeps s t) : Keeps s (t.pf0Reset ep) := (h.foldl fun hu => hu.fnAllReset).wr

theorem Keeps.endpointReset {ep} (h : Keeps s t) : Keeps s (t.endpointReset ep) := h.pf0Reset.pf1Reset.setFld.setFld.setFld.settle

theorem Keeps.execEndpointReset {ep} (h : Keeps s t) : Answers s (execEndpointReset ep t) := .done (.ite h.endpointReset h)

theorem Keeps.execPcieLinkUp {ep linkB} (h : Keeps s t) : Answers s (execPcieLinkUp ep linkB t) :=
  .ite (.done h) (.ite (.done (.ite h.setFld h)) (.done h.setFld.settle))

theorem Keeps.pcieDown {e linkB} (h : Keeps s t) : Keeps s (t.pcieDown e linkB) :=
  .ite (.ite h.pf1Reset.setFld h) (.ite (Keeps.ite h.pf0Reset h.pf0Reset.pf1Reset).setFld h)

theorem Keeps.execPcieLinkDown {ep linkB} (h : Keeps s t) : Answers s (execPcieLinkDown ep linkB t) := .done h.pcieDown.showReady.settle

theorem Keeps.execConfigReady {ep fn} (h : Keeps s t) : Answers s (execConfigReady ep fn t) := .done (.ite h.setReady.showReady h)

theorem Keeps.configReq {ep fn f} (h : Keeps s t) (hf : ∀ {u}, Keeps s u → Keeps s (f u)) : Keeps s (t.configReq ep fn f) :=
  .ite h.answer (.ite h.answer (hf h).answer)

theorem Keeps.flr {ep fn} (h : Keeps s t) : Keeps s (t.flr ep fn) := (Keeps.ite h.pf0Reset (.ite h.pf1Reset h.fnAllReset)).showReady

theorem Keeps.execFlr {ep fn} (h : Keeps s t) : Answers s (execFlr ep fn t) := .done (h.configReq (fun hu => hu.flr.settle))

theorem Keeps.execVfReset {ep vf} (h : Keeps s t) : Answers s (execVfReset ep vf t) := .done (h.configReq (fun hu => hu.flr.settle))

theorem Keeps.vfEnable {e numVFs} (h : Keeps s t) : Keeps s (t.vfEnable e numVFs) := .ite h h.setFld.setFld.showReady.settle

theorem Keeps.vfDisable {e} (h : Keeps s t) : Keeps s (t.vfDisable e) := (h.foldl fun hu => hu.fnAllReset).setFld.showReady.settle

theorem Keeps.execVfEnableSet {ep numVFs} (h : Keeps s t) : Answers s (execVfEnableSet ep numVFs t) :=
  .done (h.configReq (fun hu => hu.vfEnable))

theorem Keeps.execVfEnableClear {ep} (h : Keeps s t) : Answers s (execVfEnableClear ep t) := .done (h.configReq (fun hu => hu.vfDisable))

theorem Keeps.execAtsInvalidate {ep fn page} (h : Keeps s t) : Answers s (execAtsInvalidate ep fn page t) :=
  .ite (.done h) (.done h.putPlat.atsFlush)

theorem Keeps.pmSet {e f d3hot bme mse} (h : Keeps s t) : Keeps s (t.pmSet e f d3hot bme mse) :=
  (Keeps.ite h.setFld h).setFld.setFld.msixFlush.settle

theorem Keeps.execPmStateWrite {ep fn d3hot bme mse} (h : Keeps s t) : Answers s (execPmStateWrite ep fn d3hot bme mse t) :=
  .done (h.configReq (fun hu => hu.pmSet))

theorem Keeps.pf1Reg {ep f} (h : Keeps s t) (hf : ∀ {u}, Keeps s u → Keeps s (f u)) : Keeps s (t.pf1Reg ep f) := .ite (hf h).answer h.answer

theorem Keeps.execApBaseWrite {ep a hi v} (h : Keeps s t) : Answers s (execApBaseWrite ep a hi v t) :=
  .done (h.pf1Reg (fun hu => .ite hu.writeTyped.writeTyped.setStage hu.setStage))

theorem Keeps.execMsixEvent {ep fn vec} (h : Keeps s t) : Answers s (execMsixEvent ep fn vec t) := .done (.ite h.msix h)

theorem Keeps.execMsixUnmask {ep fn vec} (h : Keeps s t) : Answers s (execMsixUnmask ep fn vec t) := .done (.ite h.setFld.msixSend h)

theorem Keeps.ferryMgr {n f} (h : Keeps s t) (hf : ∀ {u}, Keeps s u → Keeps s (f u)) : Keeps s (t.ferryMgr n f) :=
  h.atChip fun hu => .ite hu (hf hu)

theorem Keeps.logUr {ep fn} (h : Keeps s t) : Keeps s (t.logUr ep fn) := h.setFld

theorem Keeps.ferryReject {who n up} (h : Keeps s t) : Keeps s (t.ferryReject who n up) := by
  dsimp only [State.ferryReject]
  split
  · exact (Keeps.ite (Keeps.ite h.satInc h.satInc).logUr.emit.emit (Keeps.ite h.satInc h.satInc).logUr.emit).answer
  · exact (Keeps.ite h.satInc h.satInc).logUr.emit.answer
  · exact (Keeps.ite h.satInc h.satInc).threadFault.answer
  · exact (Keeps.ite h.satInc h.satInc).answer

theorem Keeps.ferryUpSend {n len} (h : Keeps s t) : Keeps s (t.ferryUpSend n len) :=
  .ite h.setFld.setFld.ferryPend.msixPf1 h.setFld.setFld.ferryPend

theorem Keeps.ferryDnSend {n len} (h : Keeps s t) : Keeps s (t.ferryDnSend n len) := .ite h.setFld.setFld.msix h.setFld.setFld

theorem Keeps.ferryHost {n f} (h : Keeps s t) (hf : ∀ {u}, Keeps s u → Keeps s (f u)) : Keeps s (t.ferryHost n f) :=
  .ite (h.hostReg fun hu => hu) (.ite h.ferryReject (h.hostReg hf))

theorem Keeps.ferryWriter {who n f} (h : Keeps s t) (hf : ∀ {u}, Keeps s u → Keeps s (f u)) : Keeps s (t.ferryWriter who n f) := by
  unfold State.ferryWriter
  split
  · exact h.answer
  · exact .ite h.ferryReject (h.ferryMgr hf)

theorem Keeps.execFerryUpGo {inst v} (h : Keeps s t) : Answers s (execFerryUpGo inst v t) :=
  .done (h.ferryHost (fun hu => .ite hu.ferryUpSend hu))

theorem Keeps.execFerryDnGo {who inst v} (h : Keeps s t) : Answers s (execFerryDnGo who inst v t) :=
  .done (h.ferryWriter (fun hu => .ite hu.ferryDnSend hu))

theorem Keeps.execFerryMsgWrite {who inst up word v} (h : Keeps s t) : Answers s (execFerryMsgWrite who inst up word v t) :=
  .ite (.done (.ite (h.ferryHost (fun hu => hu.wr)) h.answer)) (.done (h.ferryWriter (fun hu => hu.wr)))

theorem Keeps.execFerryDnTake {inst} (h : Keeps s t) : Answers s (execFerryDnTake inst t) :=
  .done (.ite (h.hostReg (fun hu => hu.setFld)).answer (h.hostReg (fun hu => hu.setFld)))

theorem Keeps.ferryUpTaken {n} (h : Keeps s t) : Keeps s (t.ferryUpTaken n) := .ite (.ite h.setFld.msix h.setFld) h

theorem Keeps.execFerryUpTake {inst} (h : Keeps s t) : Answers s (execFerryUpTake inst t) :=
  .done (.ite (h.ferryMgr (fun hu => hu.ferryUpTaken)).answer (h.ferryMgr (fun hu => hu.ferryUpTaken)))

/-! ### Functions of Machine/Trouble -/

theorem Keeps.execTroubleEvent {e} (h : Keeps s t) : Answers s (execTroubleEvent e t) := .done (.ite h.event h)

theorem Keeps.logAppend (h : Keeps s t) : Keeps s t.logAppend := by
  dsimp only [State.logAppend]
  split
  · exact h
  · exact .ite h.putTrb.satInc (.ite h.putTrb.wrEntry.modInc.modInc.satInc h.putTrb.wrEntry.modInc.modInc)

theorem Keeps.execLogAppend (h : Keeps s t) : Answers s (execLogAppend t) := .done h.logAppend

theorem Keeps.logClear (h : Keeps s t) : Keeps s t.logClear := h.resetRegs

theorem Keeps.execLogClear (h : Keeps s t) : Answers s (execLogClear t) := .done (h.atChip (fun hu => hu.logClear))

theorem Keeps.captureEntry {r i} (h : Keeps s t) : Keeps s (t.captureEntry r i) := h.foldl fun hu => hu.setLatch

theorem Keeps.execHistoryEntryRead {grp entry} (h : Keeps s t) : Answers s (execHistoryEntryRead grp entry t) :=
  .ite (.done h.captureEntry.answer) (.done h.answer)

theorem Keeps.atGroup {g f} (h : Keeps s t) (hf : ∀ {u}, Keeps s u → Keeps s (f u)) : Keeps s (t.atGroup g f) := .ite (h.atChip hf) h.answer

theorem Keeps.trbStatWrite {g v} (h : Keeps s t) : Keeps s (t.trbStatWrite g v) :=
  .ite (h.writeTyped.foldl fun hu => .ite hu.eventAt hu) h.writeTyped

theorem Keeps.execTrbForce {grp v} (h : Keeps s t) : Answers s (execTrbForce grp v t) := .done (h.atGroup (fun hu => hu.trbStatWrite))

theorem Keeps.trbInjWrite {g v} (h : Keeps s t) : Keeps s (t.trbInjWrite g v) := .ite h.setFld.setFld h.setFld

theorem Keeps.execTrbInjArm {grp v} (h : Keeps s t) : Answers s (execTrbInjArm grp v t) := .done (h.atGroup (fun hu => hu.trbInjWrite))

theorem Keeps.injectApply {g addr} (h : Keeps s t) : Keeps s (t.injectApply g addr) := by
  dsimp only [State.injectApply]
  refine .ite ?_ ?_
  · exact h
  · split
    · exact h.setFld.eventAt.setEcc
    · exact h.setFld.eventAt.setEcc
    · exact h.setFld.eventAt.putPlat
    · exact h.setFld.eventAt.answer
    · exact h.setFld.eventAt

theorem Keeps.execInjectedFaultApply {grp addr} (h : Keeps s t) : Answers s (execInjectedFaultApply grp addr t) := .done h.injectApply

theorem Keeps.execMeshFlitRetry {chiplet} (h : Keeps s t) : Answers s (execMeshFlitRetry chiplet t) := .done (.ite h.putPlat h)

theorem Keeps.meshFail {c} (h : Keeps s t) : Keeps s (t.meshFail c) := .ite h h.putPlat.event

theorem Keeps.ctrAdd {c n} (h : Keeps s t) : Keeps s (t.ctrAdd c n) :=
  .ite h (.ite h.wr64 (.ite h.wr64.setFld (.ite h.wr64.setFld.event h.wr64.setFld)))

theorem Keeps.execEventCount {ctr n} (h : Keeps s t) : Answers s (execEventCount ctr n t) := .done (.ite h.ctrAdd h)

theorem Keeps.execCntClear {ctr events} (h : Keeps s t) : Answers s (execCntClear ctr events t) :=
  .ite (.done (h.atChip (fun hu => hu.wr64.setFld))) (.done h.answer)

theorem Keeps.snapshot {chip f} (h : Keeps s t) : Keeps s (t.snapshot chip f) := (h.foldl fun hu => .ite hu.wr64.wr64 hu.wr64).wr

/-! ### Functions of Machine/Trust -/

theorem Keeps.setPower {st step} (h : Keeps s t) : Keeps s (t.setPower st step) := h.setFld.setFld

theorem Keeps.goActive (h : Keeps s t) : Keeps s t.goActive := h.putTrust.setPower

theorem Keeps.goDrowse (h : Keeps s t) : Keeps s t.goDrowse := h.putTrust.setPower

theorem Keeps.unpowered {p} (h : Keeps s t) : Keeps s (t.unpowered p) := by
  refine .wr ⟨fun hs => ?_, h.fuses, h.pending⟩
  obtain ⟨-, -, -, -, -, hmram, hflash⟩ := h.memory hs
  exact ⟨rfl, rfl, rfl, rfl, rfl, hmram, hflash⟩

theorem Keeps.goHold (h : Keeps s t) : Keeps s t.goHold := h.putTrust.copyDone.unpowered

theorem Keeps.powerDo {c} (h : Keeps s t) : Keeps s (t.powerDo c) := .ite h.goActive (.ite h.goDrowse (.ite h.goHold h))

theorem Keeps.powerCmd {c} (h : Keeps s t) : Keeps s (t.powerCmd c) := .ite h (.ite h.putTrust h.powerDo)

theorem Keeps.execActive (h : Keeps s t) : Answers s (execActive t) := .done h.powerCmd

theorem Keeps.execDrowse (h : Keeps s t) : Answers s (execDrowse t) := .done h.powerCmd

theorem Keeps.execHold (h : Keeps s t) : Answers s (execHold t) := .done h.powerCmd

theorem Keeps.lcEnd (h : Keeps s t) : Keeps s t.lcEnd := by
  dsimp only [State.lcEnd]
  split
  · exact h.putTrust.setFld.powerDo
  · exact h.putTrust.setFld

theorem Keeps.execPowerGovernorInterval {watts low1ms} (h : Keeps s t) : Answers s (execPowerGovernorInterval watts low1ms t) :=
  .ite (.done h) (.ite (.done h.setFld) (.done (.ite h.setFld.setPower.satInc h.setFld.setPower)))

theorem Keeps.execThermalTrip {tj tc} (h : Keeps s t) : Answers s (execThermalTrip tj tc t) :=
  .ite (.done h) (.done h.setFld.setFld.event.goHold)

theorem Keeps.execHbmSelfRefresh {stack} (h : Keeps s t) : Answers s (execHbmSelfRefresh stack t) := .done (.ite h.putTrust h)

theorem Keeps.execSupplyLoss (h : Keeps s t) : Answers s (execSupplyLoss t) := by
  dsimp only [Machine.execSupplyLoss]
  exact .done (by split; exacts [h.mramWrite.draw, h] : Keeps s _).unpowered

theorem Keeps.lcSubmit (h : Keeps s t) : Keeps s t.lcSubmit := by
  unfold State.lcSubmit
  extract_lets token result s1 s2 src3 s3 kind src4 s4 s5
  have h2 : Keeps s s2 := h.setFld.foldl fun hu => hu.wr
  clear_value s2
  have h3 : Keeps s s3 := h2.putTrust
  have h5 : Keeps s s5 := h3.putTrust.setFld
  clear_value s5
  exact .ite h (.ite h3 (.ite h5.putTrust (.ite h5.putTrust h5)))

theorem Keeps.execSubmit (h : Keeps s t) : Answers s (execSubmit t) := .done (h.atChip (fun hu => hu.lcSubmit))

theorem Keeps.chalNew (h : Keeps s t) : Keeps s t.chalNew := h.putTrust.setFld.nonceDraw

theorem Keeps.execLcChalNew (h : Keeps s t) : Answers s (execLcChalNew t) := .done (h.atChip (fun hu => hu.chalNew))

theorem Keeps.burn {bits} (h : Keeps s t) : Keeps s (t.burn bits) := by
  refine .setFld ⟨h.memory, fun k hk => ?_, h.pending⟩
  simp [h.fuses k hk]

theorem Keeps.provision (h : Keeps s t) : Keeps s t.provision := .ite h (.ite h.setFld h.setFld.burn.commitAsk)

theorem Keeps.execProvision (h : Keeps s t) : Answers s (execProvision t) := .done (h.atChip (fun hu => hu.provision))

theorem Keeps.disarm (h : Keeps s t) : Keeps s t.disarm := h.foldl fun hu => hu.setFld

theorem Keeps.debugClear (h : Keeps s t) : Keeps s t.debugClear := (Keeps.ite h.disarm h).setFld

theorem Keeps.execDeploy (h : Keeps s t) : Answers s (execDeploy t) := .done (.ite h.burn.setFld.debugClear.lcEnd h)

theorem Keeps.execVaultWriteToken (h : Keeps s t) : Answers s (execVaultWriteToken t) := .done (.ite h.putTrust.lcEnd h)

theorem Keeps.lcCmdWrite {v} (h : Keeps s t) : Keeps s (t.lcCmdWrite v) := by
  dsimp only [State.lcCmdWrite]
  refine .ite ?_ ?_
  · exact h
  · split
    · exact h.lcSubmit
    · exact h.provision
    · exact h.putTrust.setFld
    · exact h

theorem Keeps.flashPut {off l} (h : Keeps s t) : Keeps s (t.flashPut off l) :=
  ⟨fun hs => (h.memory hs).flashPut off l, h.fuses, h.pending⟩

theorem Keeps.flashErase {off} (h : Keeps s t) : Keeps s (t.flashErase off) :=
  ⟨fun hs => (h.memory hs).flashErase off, h.fuses, h.pending⟩

theorem Keeps.flashCmd {c} (h : Keeps s t) : Keeps s (t.flashCmd c) :=
  .ite h (.ite h.setFld (.ite h.setFld (.ite h.setFld h.putTrust.setFld)))

theorem Keeps.execErase (h : Keeps s t) : Answers s (execErase t) := .done (h.atChip (fun hu => hu.flashCmd))

theorem Keeps.execProgram (h : Keeps s t) : Answers s (execProgram t) := .done (h.atChip (fun hu => hu.flashCmd))

theorem Keeps.execFlashRead (h : Keeps s t) : Answers s (execFlashRead t) := .done (h.atChip (fun hu => hu.flashCmd))

theorem Keeps.execFlashCommandDone {devErr} (h : Keeps s t) : Answers s (execFlashCommandDone devErr t) := by
  dsimp only [Machine.execFlashCommandDone]
  split
  · exact .done h
  · split
    · exact .done (.ite h.putTrust.setFld.setFld.flashErase.flashPut.draw h.putTrust.setFld.setFld.flashErase)
    · exact .done (.ite h.putTrust.setFld.setFld.flashPut.draw h.putTrust.setFld.setFld.flashPut)
    · exact .done (.ite h.putTrust.setFld.setFld (h.putTrust.setFld.setFld.foldl fun hu => hu.wr))

theorem Keeps.execMctpRequest {m} (h : Keeps s t) : Answers s (execMctpRequest m t) := by
  dsimp only [Machine.execMctpRequest]
  refine .ite ?_ ?_
  · exact .done h
  · split
    · exact .done h.emit
    · exact .done (.ite h.emit h.flashPut.emit)
    · exact .done h.provision.emit

/-! ### Functions of Machine/Bus -/

theorem Keeps.lowRead {r hi i} (h : Keeps s t) : Keeps s (t.lowRead r hi i).2 := h.setLatch.wr.wr

theorem Keeps.highWrite {r hi i v} (h : Keeps s t) : Keeps s (t.highWrite r hi i v) := h.writeTyped.writeTyped.setStage

theorem Keeps.regRead {who r i} (h : Keeps s t) : Keeps s (t.regRead who r i).2 := by
  dsimp only [State.regRead]
  split
  · exact h.setLatch.setLatch
  · exact h
  · exact h
  · exact h.bufAlloc
  · exact h.sqRead
  · exact h
  · exact h.sqEvqRead
  · exact h.evqRead
  · exact h.stgAlloc
  · exact h.setFld
  · exact .ite_snd h h.ferryUpTaken
  · exact h.qviewRead
  · exact h.txtsRead
  · exact h.txtsRead
  · exact .ite_snd h.captureEntry h
  · exact .ite_snd h.captureEntry h
  · split
    · exact h.lowRead
    · split
      · exact h
      · exact h.wr

theorem Keeps.keepOr {f i lo hi old} (h : Keeps s t) : Keeps s (t.keepOr f i lo hi old) := .ite h h.setFld

theorem Keeps.epCfgWrite {ep v} (h : Keeps s t) : Keeps s (t.epCfgWrite ep v) := .ite h.writeTyped.setFld.setFld h.writeTyped.keepOr.keepOr

theorem Keeps.frzWrite {n v} (h : Keeps s t) : Keeps s (t.frzWrite n v) := by
  dsimp only [State.frzWrite]
  split
  · exact h.writeTyped.freezeCmd
  · exact h.writeTyped.saveCmd
  · exact h.writeTyped.restoreCmd
  · exact h.writeTyped.thawCmd
  · exact h.writeTyped

theorem Keeps.cntCtlWrite {c v} (h : Keeps s t) : Keeps s (t.cntCtlWrite c v) := .ite h.writeTyped.wr64.setFld h.writeTyped

theorem Keeps.vaultCmd {v} (h : Keeps s t) : Keeps s (t.vaultCmd v) := by
  unfold State.vaultCmd
  split
  · exact h.vaultWrite
  · exact h.vaultRead
  · exact h

theorem Keeps.dmaAbort {ch all} (h : Keeps s t) : Keeps s (t.dmaAbort ch all) := by
  dsimp only [State.dmaAbort]
  refine .ite ?_ ?_
  · exact .ite h.dmaEnd.dmaEnd h.dmaEnd
  · refine .ite ?_ ?_
    · split
      · exact h.setDma.dmaCount.dmaWake
      · exact h
    · exact h

theorem Keeps.dmaCtlWrite {ch v} (h : Keeps s t) : Keeps s (t.dmaCtlWrite ch v) := .ite h.dmaAbort (.ite h.dmaAbort h)

theorem Keeps.execDmaAbort {ch} (h : Keeps s t) : Answers s (execDmaAbort ch t) := .done (h.atChip (fun hu => hu.dmaAbort))

theorem Keeps.execDmaAbortAll {ch} (h : Keeps s t) : Answers s (execDmaAbortAll ch t) := .done (h.atChip (fun hu => hu.dmaAbort))

theorem Keeps.nvmeCcWrite {n v} (h : Keeps s t) : Keeps s (t.nvmeCcWrite n v) :=
  .ite h (.ite h.ccEnable (.ite h.fnReset h.writeTyped.ccShutdown))

/-- What `State.regWrite` does with a register that has no rule of its own: a half of a 64-bit quantity (R12), or a plain write. -/
def State.plainWrite (s : State) (r : Reg) (i : Nat) (v : Word) : State :=
  match quantHigh r with
  | some _ => s.setStage r i (some v)
  | none =>
    match quantLow r with
    | some lo => s.highWrite lo r i v
    | none => s.writeTyped r i v
theorem Keeps.plainWrite {r i v} (h : Keeps s t) : Keeps s (t.plainWrite r i v) := by
  unfold State.plainWrite
  split
  · exact h.setStage
  · split
    · exact h.highWrite
    · exact h.writeTyped

theorem Keeps.regWrite {who r i v} (h : Keeps s t) : Keeps s (t.regWrite who r i v) := by
  have hplain : Keeps s (t.plainWrite r i v) := h.plainWrite
  have hsq : Keeps s (t.sqWrite r i v) := h.sqWrite
  have hclu : ∀ which, Keeps s (t.cluCfgWrite i which v) := fun _ => h.cluCfgWrite
  cases r with
  | BNK_STEER_TBL => exact h.steerWrite
  | POL_CTL => exact h.polCtlWrite
  | TIME_CTL => exact h.timeCtlWrite
  | TIME_STEP_THR => exact h.stepThrWrite
  | POL_MAN => exact h.polManWrite
  | TTB_CTL => exact h.ttbCtlWrite.slackCheckAll
  | TTB_SLOT_W0 => exact h.slotCommit
  | TTB_SLOT_W1 => exact h.slotW1Write
  | CLU_CTL => exact hclu .ctl
  | CLU_ENTRY => exact hclu .entry
  | CLU_CREDIT_CTL => exact hclu .credit
  | CLU_BUF_CTL => exact hclu .buf
  | CLU_START => exact h.clusterStart
  | CLU_THREAD_CMD => exact h.threadCmd
  | CLU_FAULT_POP => exact h.faultPop
  | CLU_BUF_FREE => exact h.bufFreeWrite
  | HDW_MC_CMD => exact h.mcCmdWrite
  | HDW_MC_WIN => exact h.mcWinWrite
  | BRD_DICE_TDEF_W0 => exact h.tdefWrite
  | BRD_FLOW_CTL => exact h.flowCtlWrite
  | BRD_FLOW_HOME => exact h.flowHomeWrite
  | DICE_CMD_GO => exact h.diceGo
  | DLT_CMD => exact h.when (fun hu => hu.deltaGo)
  | CFL_BOOK_SNAP => exact h.bookSnap
  | CFL_HEADROOM => exact h.headroomWrite
  | CFL_PREP => exact h.prepWrite
  | CFL_QADM => exact h.qadmWrite
  | CFL_SEQ_TMO => exact h.seqTmoWrite
  | CFL_MC_GRP_W1 => exact h.setStage
  | CFL_MC_GRP_W0 => exact h.groupCommit
  | SCH_Q_W0 => exact h.queueW0Write
  | SCH_Q_W1 => exact h.queueW1Write
  | SCH_N_CFG => exact h.nodeCfgWrite
  | SCH_N_CIR => exact h.shaperWrite
  | SCH_N_PIR => exact h.shaperWrite
  | SCH_N_CBS => exact h.shaperWrite
  | SCH_N_PBS => exact h.shaperWrite
  | SCH_P_CFG => exact h.writeTyped.settle
  | SCH_POL_CIR => exact h.policerWrite
  | SCH_POL_PIR => exact h.policerWrite
  | SCH_POL_CBS => exact h.policerWrite
  | SCH_POL_PBS => exact h.policerWrite
  | GATE_CTL => exact h.gateCtlWrite
  | GATE_BASE_NS => exact h.gatePendWrite
  | GATE_BASE_SLO => exact h.gatePendWrite
  | GATE_BASE_SHI => exact h.gatePendWrite
  | GATE_CYCLE => exact h.gatePendWrite
  | GATE_EXT => exact h.gatePendWrite
  | GATE_LEN => exact h.gatePendWrite
  | GATE_ENTRY => exact h.gateEntryWrite
  | GAU_CTL => exact h.gauCtlWrite
  | GAU_PERIOD => exact h.gauPeriodWrite
  | KEY_TBL_IN => exact h.keyInWrite
  | KEY_TBL_CMD => exact h.keyCmdWrite
  | BRD_GATE_TMO => exact h.setFld
  | CFL_SQ_CTL => exact hsq
  | CFL_SQ_SOFT => exact hsq
  | CFL_SQ_KEY => exact hsq
  | CFL_SQ_VAL => exact hsq
  | CFL_SQ_VAL_HI => exact hsq
  | CFL_SQ_LIMIT => exact hsq
  | CFL_SQ_LIMIT_HI => exact hsq
  | BNK_STO_CPL => exact h.stoCpl
  | BNK_STO_STG_FREE => exact h.stgFree
  | BNK_STO_HOLD_TMO => exact h.setFld
  | STO_CMD_GO => exact h.cmdGo
  | FRY_UP_MSG => exact h.wr
  | FRY_UP_CTL => exact .ite h.ferryUpSend h
  | PCI_FRY_DN_MSG => exact h.wr
  | PCI_FRY_DN_CTL => exact .ite h.ferryDnSend h
  | PCI_EP_CFG => exact h.epCfgWrite
  | PCI_FRY_PEND => exact h.writeTyped
  | NVME_SQTDBL => exact h.tailBell
  | NVME_CQHDBL => exact h.headBell
  | RING_TXDB => exact h.doorbell
  | RING_RXDB => exact h.doorbell
  | RING_ARM => exact h.ringArm
  | RING_SIZE => exact h.ringRegWrite
  | RING_IRQ => exact h.ringRegWrite
  | RING_WRR => exact h.ringRegWrite
  | RING_TXBASE => exact h.ringRegWrite
  | RING_TXBASE_HI => exact h.ringRegWrite
  | RING_RXBASE => exact h.ringRegWrite
  | RING_RXBASE_HI => exact h.ringRegWrite
  | DMA_CTL => exact h.dmaCtlWrite
  | RNG_CTL => exact h.writeTyped.keepOr
  | RNG_FN_BURST => exact h.writeTyped.keepOr.keepOr
  | RNG_FN_WEIGHT => exact h.writeTyped.keepOr
  | RNG_FN_FRZ => exact h.frzWrite
  | BRD_INS_W0 => exact h.insW0Write
  | MAC_PORT_CFG => exact h.portCfgWrite
  | ATL_CFG => exact h.atlCfgWrite
  | MAC_FC_CTL => exact h.fcCtlWrite.settle
  | MAC_EEE_CTL => exact h.eeeWrite
  | MAC_SLACK_CTL => exact h.slackCtlWrite.settle
  | ATL_SLACK_CTL => exact h.slackCtlWrite.settle
  | NVME_CC => exact h.nvmeCcWrite
  | HDW_DISC_CMD => exact .ite h.discGo h
  | HDW_LC_CHAL => exact .ite h.chalNew h
  | HDW_LC_CMD => exact h.lcCmdWrite
  | HDW_LC_TOKEN => exact h.wr
  | HDW_VAULT_CMD => exact h.vaultCmd
  | HDW_PWR_CMD => exact h.powerCmd
  | HDW_PWR_PFAIL => exact h.setFld
  | HDW_FLASH_CMD => exact h.flashCmd
  | TRB_STAT => exact h.trbStatWrite
  | TRB_INJ => exact h.trbInjWrite
  | LOG_CTL => exact .ite h.writeTyped.logClear h.writeTyped
  | HDW_COMPAT => exact .ite h h.writeTyped
  | CNT_CTL => exact h.cntCtlWrite
  | GAU_BASE_HI => exact h.highWrite.gaugeZero
  | _ => exact hplain

/-! ### Functions of Machine/Access -/

theorem Keeps.busRead {who a} (h : Keeps s t) : Keeps s (t.busRead who a).2 := by
  dsimp only [State.busRead]
  refine .ite_snd ?_ ?_
  · exact h
  · refine .ite_snd ?_ ?_
    · exact h
    · split
      · exact h.regRead
      · exact h
      · exact h
      · exact h

theorem Keeps.regPut {who r i v} (h : Keeps s t) : Keeps s (t.regPut who r i v).2 := by
  dsimp only [State.regPut]
  split
  · exact .ite_snd h (.ite_snd h.satInc h.regWrite)
  · exact h.regWrite

theorem Keeps.busWrite {who a v} (h : Keeps s t) : Keeps s (t.busWrite who a v).2 := by
  dsimp only [State.busWrite]
  refine .ite_snd ?_ ?_
  · exact h
  · refine .ite_snd ?_ ?_
    · exact h
    · split
      · exact h.regPut
      · exact h.progWrite
      · exact h.mramWrite
      · exact h

theorem Keeps.hbmFetch {who a n} (h : Keeps s t) : Keeps s (t.hbmFetch who a n).2 := by
  unfold State.hbmFetch
  refine .ite_snd h ?_
  split
  · exact h.hbmGet.snd ‹_›
  · exact h.hbmGet

theorem Keeps.hbmStoreBy {who a l} (h : Keeps s t) : Keeps s (t.hbmStoreBy who a l).2 := .ite_snd h (.ite_snd h h.hbmSet)

theorem Keeps.execUncachedCoherentAccess {addr len wr who} (h : Keeps s t) :
    Answers s (execUncachedCoherentAccess addr len wr who t) := by
  dsimp only [Machine.execUncachedCoherentAccess]
  refine .ite (.done h.answer) ?_
  split
  · split
    · exact .done (h.hbmFetch.snd ‹_›).answer
    · exact .done (h.hbmFetch.snd ‹_›).answer
  · split
    · exact .done (h.hbmStoreBy.snd ‹_›).answer
    · exact .done (h.hbmStoreBy.snd ‹_›).answer

theorem Keeps.execQuantityLowRead {r i} (h : Keeps s t) : Answers s (execQuantityLowRead r i t) := by
  dsimp only [Machine.execQuantityLowRead]
  refine .ite ?_ ?_
  · split
    · exact .done h.lowRead.answer
    · exact .ite (.done h.regRead.answer) (.done h)
  · split
    · exact .done h.answer
    · exact .done (.ite h.answer h)

theorem Keeps.execQuantityLowWrite {r i v} (h : Keeps s t) : Answers s (execQuantityLowWrite r i v t) := by
  unfold Machine.execQuantityLowWrite
  split
  · exact .done h
  · exact .done (h.atChip (fun hu => hu.setStage))

theorem Keeps.execQuantityHighWrite {r i v} (h : Keeps s t) : Answers s (execQuantityHighWrite r i v t) := by
  unfold Machine.execQuantityHighWrite
  split
  · exact .done h
  · exact .done (h.atChip (fun hu => hu.regWrite))

theorem Keeps.refused {who wr} (h : Keeps s t) : Keeps s (t.refused who wr) := by
  unfold State.refused
  split
  · exact (Keeps.ite h.logUr h).emit.answer
  · exact h.answer
  · exact h.answer

theorem Keeps.fnBar {ep fn f} (h : Keeps s t) (hf : ∀ {u}, Keeps s u → Keeps s (f u)) : Keeps s (t.fnBar ep fn f) :=
  .ite (h.pf1Reg hf) (h.hostReg hf)

theorem Keeps.tableWrite {r i v} (h : Keeps s t) : Keeps s (t.tableWrite r i v) := .ite h.writeTyped.msixSend h

theorem Keeps.configPut {r ep fn v} (h : Keeps s t) : Keeps s (t.configPut r ep fn v) := by
  dsimp only [State.configPut]
  split
  · exact h.setFld.pmSet
  · exact .ite h.pmSet h
  · exact .ite h.vfEnable (.ite h.vfDisable h)
  · exact .ite h.writeTyped.flr.settle h.writeTyped
  · exact h.writeTyped.msixFlush

theorem Keeps.configWord {r i ep fn v} (h : Keeps s t) : Keeps s (t.configWord r i ep fn v) := by
  unfold State.configWord
  split
  · exact h.wr
  · exact h.configPut

theorem Keeps.barWrite {who r i v} (h : Keeps s t) : Keeps s (t.barWrite who r i v) := by
  dsimp only [State.barWrite]
  split
  · refine .ite ?_ ?_
    · exact h.refused
    · exact h.configReq (fun hu => (by split; exacts [hu.configWord, hu]))
  · split
    · exact .ite (h.configReq (fun hu => hu.configWord)) h.refused
    · exact .ite (h.fnBar (fun hu => hu.tableWrite)) h.refused
    · split
      · exact .ite h.refused (.ite (h.ferryHost (fun hu => hu.regWrite)) (h.hostReg (fun hu => .ite hu hu.regWrite)))
      · exact .ite (h.pf1Reg (fun hu => .ite hu hu.regWrite)) h.refused
      · exact h.refused

theorem Keeps.execRegisterWrite {who r i v} (h : Keeps s t) : Answers s (execRegisterWrite who r i v t) := by
  unfold Machine.execRegisterWrite
  split
  · exact .done h.barWrite
  · split
    · exact .done h.refused
    · split
      · exact .done (h.busWrite.snd ‹_›).answer
      · exact .done (h.busWrite.snd ‹_›).refused

theorem Keeps.barRead {r i} (h : Keeps s t) : Keeps s (t.barRead r i) := by
  dsimp only [State.barRead]
  split
  · exact .ite (h.configReq fun hu => hu).answer (h.configReq fun hu => hu)
  · exact .ite (h.fnBar fun hu => hu).answer (h.fnBar fun hu => hu)
  · split
    · exact .ite (.ite (h.pf1Reg fun hu => hu).answer (h.pf1Reg fun hu => hu)) h.answer
    · exact .ite (h.hostReg fun hu => hu.regRead).answer (h.hostReg fun hu => hu.regRead)
    · exact .ite (h.pf1Reg fun hu => hu.regRead).answer (h.pf1Reg fun hu => hu.regRead)
    · exact h

theorem Keeps.execRcFieldRead {r i events} (h : Keeps s t) : Answers s (execRcFieldRead r i events t) := by
  dsimp only [Machine.execRcFieldRead]
  split
  · exact .done h.barRead
  · exact .ite (.done (Keeps.ite h.regRead h.regRead.wr).answer) (.done h.answer)

theorem Keeps.execUnassignedAccess {who addr write} (h : Keeps s t) : Answers s (execUnassignedAccess who addr write t) :=
  .done (.ite h.refused h)

theorem Keeps.dwReads {who l acc} (h : Keeps s t) : Keeps s (State.dwReads who l acc t).2 := by
  induction l generalizing acc t with
  | nil => exact h
  | cons a l ih =>
    unfold State.dwReads
    split
    · exact ih (h.busRead.snd ‹_›)
    · exact h.busRead.snd ‹_›

theorem Keeps.dwWrites {who l} (h : Keeps s t) : Keeps s (State.dwWrites who l t).2 := by
  induction l generalizing t with
  | nil => exact h
  | cons x l ih =>
    unfold State.dwWrites
    split
    · exact ih (h.busWrite.snd ‹_›)
    · exact h.busWrite.snd ‹_›

theorem Keeps.pf1Regs {who a req} (h : Keeps s t) : Keeps s (t.pf1Regs who a req) := by
  dsimp only [State.pf1Regs]
  refine .ite h.refused ?_
  split
  · split
    · exact (h.dwReads.snd ‹_›).answer
    · exact (h.dwReads.snd ‹_›).refused
  · split
    · exact (h.dwWrites.snd ‹_›).answer
    · exact (h.dwWrites.snd ‹_›).refused

theorem Keeps.pf1Hbm {who a req} (h : Keeps s t) : Keeps s (t.pf1Hbm who a req) := by
  unfold State.pf1Hbm
  split
  · refine .ite h.refused ?_
    split
    · exact (h.hbmFetch.snd ‹_›).answer
    · exact (h.hbmFetch.snd ‹_›).refused
  · refine .ite h.refused ?_
    split
    · exact (h.hbmStoreBy.snd ‹_›).answer
    · exact (h.hbmStoreBy.snd ‹_›).refused

theorem Keeps.execPf1Bar0Request {ep offset req} (h : Keeps s t) : Answers s (execPf1Bar0Request ep offset req t) :=
  .ite (.done h.answer) (.ite (.done h.pf1Hbm) (.done h.pf1Regs))

/-! ### Functions of Machine/Operands -/

theorem Keeps.fault {th cause} (h : Keeps s t) : Keeps s (t.fault th cause) := h.threadFault

theorem Keeps.fetchEcc {th} (h : Keeps s t) : Keeps s (t.fetchEcc th).2 := .ite_snd h h.eccRead

theorem Keeps.issue {th legal f} (h : Keeps s t) (hf : ∀ {u}, Keeps s u → Keeps s (f u)) : Keeps s (t.issue th legal f) := by
  unfold State.issue
  refine .ite h (.ite h.fault ?_)
  split
  · exact (h.fetchEcc.snd ‹_›).fault
  · exact .ite (hf (h.fetchEcc.snd ‹_›)) (h.fetchEcc.snd ‹_›).fault

theorem Keeps.unlessOpen {th f} (h : Keeps s t) (hf : ∀ {u}, Keeps s u → Keeps s (f u)) : Keeps s (t.unlessOpen th f) := .ite h.fault (hf h)

theorem Keeps.retire {th f} (h : Keeps s t) : Keeps s (t.retire th f) := h.setThread

theorem Keeps.result {th rd src v} (h : Keeps s t) : Keeps s (t.result th rd src v) := h.retire

theorem Keeps.sharedPut {th p} (h : Keeps s t) : Keeps s (t.sharedPut th p) := .ite h.hbmWrite h.hbmStore

theorem Keeps.sharedOwn {th off n} (h : Keeps s t) : Keeps s (t.sharedOwn th off n) :=
  .ite (h.foldl fun hu => hu.fetchForRead) (h.foldl fun hu => hu.acquireOwned)

theorem Keeps.drainShared {th} (h : Keeps s t) : Keeps s (t.drainShared th) := (h.foldl fun hu => hu.sharedPut).setThread

theorem Keeps.acquireForLoad {th off n} (h : Keeps s t) : Keeps s (t.acquireForLoad th off n) :=
  .ite (h.foldl fun hu => hu.fetchForRead) (h.foldl fun hu => hu.acquireShared)

theorem Keeps.spaceRead {th sp a n} (h : Keeps s t) : Keeps s (t.spaceRead th sp a n).2 := by
  dsimp only [State.spaceRead]
  split
  · exact h
  · exact h.eccRead
  · exact .ite_snd h.eccRead h.eccRead.acquireForLoad
  · split
    · exact h.busRead.snd ‹_›
    · exact h.busRead.snd ‹_›

theorem Keeps.markGated {th a n} (h : Keeps s t) : Keeps s (t.markGated th a n) := by
  dsimp only [State.markGated]
  split
  · exact .ite h h.setThread
  · exact h

theorem Keeps.spaceWrite {th sp a l} (h : Keeps s t) : Keeps s (t.spaceWrite th sp a l) := by
  dsimp only [State.spaceWrite]
  split
  · exact h.localWrite
  · exact h.markGated.clusterWrite
  · exact h.setThread
  · exact h.setThread

theorem Keeps.awaitAnswer {th w a} (h : Keeps s t) : Keeps s (t.awaitAnswer th w a) := h.setThread.stall

theorem Keeps.deliver {th a} (h : Keeps s t) : Keeps s (t.deliver th a) := h.setThread.makeReady

/-! ### Functions of Machine/Alu -/

theorem Keeps.int2 {th rd rs1 rs2 op} (h : Keeps s t) : Keeps s (t.int2 th rd rs1 rs2 op) := h.issue (fun hu => hu.result)

theorem Keeps.int1 {th rd rs1 op} (h : Keeps s t) : Keeps s (t.int1 th rd rs1 op) := h.issue (fun hu => hu.result)

theorem Keeps.execAdd {th rd rs1 rs2} (h : Keeps s t) : Answers s (execAdd th rd rs1 rs2 t) := .done h.int2

theorem Keeps.execSub {th rd rs1 rs2} (h : Keeps s t) : Answers s (execSub th rd rs1 rs2 t) := .done h.int2

theorem Keeps.execAnd {th rd rs1 rs2} (h : Keeps s t) : Answers s (execAnd th rd rs1 rs2 t) := .done h.int2

theorem Keeps.execOr {th rd rs1 rs2} (h : Keeps s t) : Answers s (execOr th rd rs1 rs2 t) := .done h.int2

theorem Keeps.execXor {th rd rs1 rs2} (h : Keeps s t) : Answers s (execXor th rd rs1 rs2 t) := .done h.int2

theorem Keeps.execSll {th rd rs1 rs2} (h : Keeps s t) : Answers s (execSll th rd rs1 rs2 t) := .done h.int2

theorem Keeps.execSrl {th rd rs1 rs2} (h : Keeps s t) : Answers s (execSrl th rd rs1 rs2 t) := .done h.int2

theorem Keeps.execSra {th rd rs1 rs2} (h : Keeps s t) : Answers s (execSra th rd rs1 rs2 t) := .done h.int2

theorem Keeps.execSlt {th rd rs1 rs2} (h : Keeps s t) : Answers s (execSlt th rd rs1 rs2 t) := .done h.int2

theorem Keeps.execSltu {th rd rs1 rs2} (h : Keeps s t) : Answers s (execSltu th rd rs1 rs2 t) := .done h.int2

theorem Keeps.execMin {th rd rs1 rs2} (h : Keeps s t) : Answers s (execMin th rd rs1 rs2 t) := .done h.int2

theorem Keeps.execMax {th rd rs1 rs2} (h : Keeps s t) : Answers s (execMax th rd rs1 rs2 t) := .done h.int2

theorem Keeps.execMinu {th rd rs1 rs2} (h : Keeps s t) : Answers s (execMinu th rd rs1 rs2 t) := .done h.int2

theorem Keeps.execMaxu {th rd rs1 rs2} (h : Keeps s t) : Answers s (execMaxu th rd rs1 rs2 t) := .done h.int2

theorem Keeps.execMul {th rd rs1 rs2} (h : Keeps s t) : Answers s (execMul th rd rs1 rs2 t) := .done h.int2

theorem Keeps.execMulhu {th rd rs1 rs2} (h : Keeps s t) : Answers s (execMulhu th rd rs1 rs2 t) := .done h.int2

theorem Keeps.execMulh {th rd rs1 rs2} (h : Keeps s t) : Answers s (execMulh th rd rs1 rs2 t) := .done h.int2

theorem Keeps.execClz {th rd rs1} (h : Keeps s t) : Answers s (execClz th rd rs1 t) := .done h.int1

theorem Keeps.execPopc {th rd rs1} (h : Keeps s t) : Answers s (execPopc th rd rs1 t) := .done h.int1

theorem Keeps.execRev8 {th rd rs1} (h : Keeps s t) : Answers s (execRev8 th rd rs1 t) := .done h.int1

theorem Keeps.execSextb {th rd rs1} (h : Keeps s t) : Answers s (execSextb th rd rs1 t) := .done h.int1

theorem Keeps.execSexth {th rd rs1} (h : Keeps s t) : Answers s (execSexth th rd rs1 t) := .done h.int1

theorem Keeps.execAdd1c {th rd rs1 rs2} (h : Keeps s t) : Answers s (execAdd1c th rd rs1 rs2 t) := .done h.int2

theorem Keeps.execCrcw {th rd rs1 rs2} (h : Keeps s t) : Answers s (execCrcw th rd rs1 rs2 t) := .done h.int2

theorem Keeps.execAddi {th rd rs1 imm} (h : Keeps s t) : Answers s (execAddi th rd rs1 imm t) := .done h.int1

theorem Keeps.execAndi {th rd rs1 imm} (h : Keeps s t) : Answers s (execAndi th rd rs1 imm t) := .done h.int1

theorem Keeps.execOri {th rd rs1 imm} (h : Keeps s t) : Answers s (execOri th rd rs1 imm t) := .done h.int1

theorem Keeps.execXori {th rd rs1 imm} (h : Keeps s t) : Answers s (execXori th rd rs1 imm t) := .done h.int1

theorem Keeps.execSlti {th rd rs1 imm} (h : Keeps s t) : Answers s (execSlti th rd rs1 imm t) := .done h.int1

theorem Keeps.execSltiu {th rd rs1 imm} (h : Keeps s t) : Answers s (execSltiu th rd rs1 imm t) := .done h.int1

theorem Keeps.execLui {th rd imm} (h : Keeps s t) : Answers s (execLui th rd imm t) := .done (h.issue (fun hu => hu.result))

theorem Keeps.execSlli {th rd rs1 sh} (h : Keeps s t) : Answers s (execSlli th rd rs1 sh t) := .done h.int1

theorem Keeps.execSrli {th rd rs1 sh} (h : Keeps s t) : Answers s (execSrli th rd rs1 sh t) := .done h.int1

theorem Keeps.execSrai {th rd rs1 sh} (h : Keeps s t) : Answers s (execSrai th rd rs1 sh t) := .done h.int1

theorem Keeps.execExt {th rd rs1 pos len1} (h : Keeps s t) : Answers s (execExt th rd rs1 pos len1 t) := .done h.int1

theorem Keeps.execIns {th rd rs1 pos len1} (h : Keeps s t) : Answers s (execIns th rd rs1 pos len1 t) := .done h.int2

/-! ### Functions of Machine/Blocks -/

theorem Keeps.blockIssue {th legal m f} (h : Keeps s t) (hf : ∀ {u}, Keeps s u → Keeps s (f u)) : Keeps s (t.blockIssue th legal m f) :=
  h.issue fun hu => .ite hu.stall (hf hu)

theorem Keeps.blk {th m bd f} (h : Keeps s t) : Keeps s (t.blk th m bd f) := h.blockIssue (fun hu => hu.retire)

theorem Keeps.execBxor {th bd ba bb} (h : Keeps s t) : Answers s (execBxor th bd ba bb t) := .done h.blk

theorem Keeps.execBand {th bd ba bb} (h : Keeps s t) : Answers s (execBand th bd ba bb t) := .done h.blk

theorem Keeps.execBor {th bd ba bb} (h : Keeps s t) : Answers s (execBor th bd ba bb t) := .done h.blk

theorem Keeps.execBmov {th bd ba} (h : Keeps s t) : Answers s (execBmov th bd ba t) := .done h.blk

theorem Keeps.execBzero {th bd} (h : Keeps s t) : Answers s (execBzero th bd t) := .done h.blk

theorem Keeps.execBrev {th bd ba} (h : Keeps s t) : Answers s (execBrev th bd ba t) := .done h.blk

theorem Keeps.execBinc {th bd ba} (h : Keeps s t) : Answers s (execBinc th bd ba t) := .done h.blk

theorem Keeps.execBmask {th bd ba rs1} (h : Keeps s t) : Answers s (execBmask th bd ba rs1 t) := .done h.blk

theorem Keeps.execBput {th bd ba lane rs1} (h : Keeps s t) : Answers s (execBput th bd ba lane rs1 t) := .done h.blk

theorem Keeps.execBget {th rd ba lane} (h : Keeps s t) : Answers s (execBget th rd ba lane t) := .done (h.blockIssue (fun hu => hu.result))

theorem Keeps.execXtsa {th bd ba} (h : Keeps s t) : Answers s (execXtsa th bd ba t) := .done h.blk

theorem Keeps.execGmul {th bd ba bb} (h : Keeps s t) : Answers s (execGmul th bd ba bb t) := .done h.blk

theorem Keeps.gateOutcome {th eq} (h : Keeps s t) : Keeps s (t.gateOutcome th eq) := .ite h (.ite h.gateRelease h.gateFail)

theorem Keeps.execTagcmp {th rd ba bb rs1} (h : Keeps s t) : Answers s (execTagcmp th rd ba bb rs1 t) :=
  .done (h.blockIssue (fun hu => .ite hu.fault hu.result.gateOutcome))

theorem Keeps.roundStart {th ux bd ba dec idx e} (h : Keeps s t) : Keeps s (t.roundStart th ux bd ba dec idx e) := by
  unfold State.roundStart
  exact h.keyTouch.setRound.retire

theorem Keeps.cipher {th bd ba rs1 dec} (h : Keeps s t) : Keeps s (t.cipher th bd ba rs1 dec) := by
  dsimp only [State.cipher]
  exact h.blockIssue (fun hu => (by split; exacts [hu.stall, (by split; exacts [hu.fault, hu.keyFetch.stall, hu.roundStart])]))

theorem Keeps.execAese {th bd ba rs1} (h : Keeps s t) : Answers s (execAese th bd ba rs1 t) := .done h.cipher

theorem Keeps.execAesd {th bd ba rs1} (h : Keeps s t) : Answers s (execAesd th bd ba rs1 t) := .done h.cipher

/-! ### Functions of Machine/Boot -/

theorem Keeps.fenceMark {chip cause by_} (h : Keeps s t) : Keeps s (t.fenceMark chip cause by_) := h.setFld.wr64.event

theorem Keeps.fenceBoardWork {b} (h : Keeps s t) : Keeps s (t.fenceBoardWork b) := h.same

theorem Keeps.fenceIntake {b} (h : Keeps s t) : Keeps s (t.fenceIntake b) := h.putIntake

theorem Keeps.dropHomes {b lost} (h : Keeps s t) : Keeps s (t.dropHomes b lost) := h.foldl fun hu => hu.setHomeLine

theorem Keeps.fenceBoard {b} (h : Keeps s t) : Keeps s (t.fenceBoard b) := by
  unfold State.fenceBoard
  exact (Keeps.ite (h.fenceReclaim.fenceLines.dropHomes.fenceBoardWork.pipeFence.fenceIntake.foldl fun hu => hu.purgeEnd).mcNext
    (h.fenceReclaim.fenceLines.dropHomes.fenceBoardWork.pipeFence.fenceIntake.foldl fun hu => hu.purgeEnd)).flowSettle.settle

theorem Keeps.fenceBank {k} (h : Keeps s t) : Keeps s (t.fenceBank k) := by
  unfold State.fenceBank
  exact ((h.foldl fun hu => hu.endpointReset).foldl fun hu => hu.linkDown).setFld.flowSettle.settle

theorem Keeps.fenceEffect {chip} (h : Keeps s t) : Keeps s (t.fenceEffect chip) := by
  unfold State.fenceEffect
  exact .ite h.fenceBoard (.ite h.fenceBank h.putPlat)

theorem Keeps.fetchFails {c} (h : Keeps s t) : Keeps s (t.fetchFails c) := h.foldl fun hu => hu.putKeys.keyBad

theorem Keeps.linkFault {c th} (h : Keeps s t) : Keeps s (State.linkFault c t th) := .ite h.setThread.threadFault h.setThread

theorem Keeps.threadsFail {c} (h : Keeps s t) : Keeps s (t.threadsFail c) := h.foldl fun hu => hu.linkFault

theorem Keeps.homesFail {c} (h : Keeps s t) : Keeps s (t.homesFail c) := .ite h.dropHomes (.ite (h.foldl fun hu => hu.setHomeLine) h)

theorem Keeps.execMeshLinkFail {chiplet} (h : Keeps s t) : Answers s (execMeshLinkFail chiplet t) :=
  .done (.ite h.meshFail.fetchFails.threadsFail.homesFail.settle h)

theorem Keeps.bootFences {tx} (h : Keeps s t) : Keeps s (State.bootFences tx t) := h.foldl fun hu => hu.fenceMark

theorem Keeps.bootUnits {tx} (h : Keeps s t) : Keeps s (State.bootUnits tx t) := (h.foldl fun hu => hu.setFld).putPlat

theorem Keeps.remapBoards (h : Keeps s t) : Keeps s t.remapBoards :=
  .ite h ((h.foldl fun hu => hu.steerWrite.steerMove).foldl fun hu => hu.wr)

theorem Keeps.noService (h : Keeps s t) : Keeps s t.noService := h.setFld.setFld

theorem Keeps.placeRecord (h : Keeps s t) : Keeps s t.placeRecord := h.putPlat

theorem Keeps.applyPair {p} (h : Keeps s t) : Keeps s (t.applyPair p) := .ite h.event h.busWrite

theorem Keeps.endpointConfig {e} (h : Keeps s t) : Keeps s (t.endpointConfig e) := h.setFld.setFld.setFld

theorem Keeps.bootRom {tx} (h : Keeps s t) : Keeps s (State.bootRom tx t) :=
  (Keeps.ite h.setFld.setFld.seed.setFld.drawKtk h.setFld.setFld.dieFail).setFld

theorem Keeps.bootFirmware (h : Keeps s t) : Keeps s t.bootFirmware := h.foldl fun hu => hu.makeReady

theorem Keeps.bootImage {b fallback} (h : Keeps s t) : Keeps s (t.bootImage b fallback) :=
  h.bootFirmware.mcBoot.putTrust.setFld.setFld.setFld

theorem Keeps.bootTest {tx} (h : Keeps s t) : Keeps s (State.bootTest tx t) := h.setFld.bootFences.bootUnits.remapBoards

theorem Keeps.bootConfig (h : Keeps s t) : Keeps s t.bootConfig :=
  ((h.setFld.vaultSelect.putTime.putPlat.foldl fun hu => hu.applyPair).foldl fun hu => hu.endpointConfig).putPlat.setFld

theorem Keeps.boot {tx} (h : Keeps s t) : Keeps s (t.boot tx) := by
  dsimp only [State.boot]
  refine .ite ?_ ?_
  · exact h.putPlat
  · split
    · exact h.bootRom.noService
    · exact .ite h.bootRom.bootImage.bootTest.bootConfig h.bootRom.bootImage.bootTest.noService

theorem Keeps.coldState {place fuses} (h : Keeps s t) : Keeps s (t.coldState place fuses) := by
  refine ⟨fun hs => ?_, fun k hk => ?_, h.pending⟩
  · obtain ⟨-, -, -, -, -, hmram, hflash⟩ := h.memory hs
    exact ⟨rfl, rfl, rfl, rfl, rfl, hmram, hflash⟩
  · simp [State.coldState, h.fuses k hk]

theorem Keeps.coldReset {place fuses tx} (h : Keeps s t) : Keeps s (t.coldReset place fuses tx) := h.coldState.placeRecord.event.boot

theorem Keeps.execModuleColdReset {place fuses tests} (h : Keeps s t) : Answers s (execModuleColdReset place fuses tests t) :=
  .done h.coldReset

theorem Keeps.execHoldWake {place fuses tests} (h : Keeps s t) : Answers s (execHoldWake place fuses tests t) := .done (.ite h.coldReset h)

theorem Keeps.keepFields {old : State} (h : Keeps s t) : Keeps s (t.keepFields old) := h.setFld.setFld.wr

theorem keptMram_wf (h : t.MemoryOk) : Memory.wf (match t.trust.copy with
    | some w => (t.mramWrite (copyOff w.rid w.copy) (tornCopy t.free w.rid)).trust.mram
    | none => t.trust.mram) = true := by
  split
  · exact (h.mramWrite _ _).2.2.2.2.2.1
  · exact h.2.2.2.2.2.1

theorem Keeps.warmState (h : Keeps s t) : Keeps s t.warmState := by
  unfold State.warmState
  extract_lets reset mram plat tide trust w
  suffices hw : Keeps s w from hw.keepFields
  refine ⟨fun hs => ?_, h.fuses, h.pending⟩
  obtain ⟨hregs, -, -, -, -, hmram, hflash⟩ := h.memory hs
  exact ⟨Tbl.wf_filter _ _ _ hregs, rfl, rfl, rfl, rfl, keptMram_wf (h.memory hs), hflash⟩

theorem Keeps.warmReset {tx} (h : Keeps s t) : Keeps s (t.warmReset tx) := .ite h.warmState.placeRecord.boot h

theorem Keeps.execModuleWarmReset {tests} (h : Keeps s t) : Answers s (execModuleWarmReset tests t) := .done h.warmReset

theorem Keeps.clearHbm (h : Keeps s t) : Keeps s (t.putHbm State.reset.hbm) := by
  refine ⟨fun hs => ?_, h.fuses, h.pending⟩
  obtain ⟨hregs, -, hrest⟩ := h.memory hs
  exact ⟨hregs, rfl, hrest⟩

theorem Keeps.execHbmTrainingDone {trained} (h : Keeps s t) : Answers s (Machine.execHbmTrainingDone trained t) :=
  .ite (.done h) (.ite (.done h.setFld.clearHbm.eccClear.setFld.flowSettle) (.done h.setFld.setFld.flowSettle))

theorem Keeps.calInstall {e} (h : Keeps s t) : Keeps s (t.calInstall e) := h.slotW1Write.slotW0Write

theorem Keeps.calFirmware (h : Keeps s t) : Keeps s t.calFirmware := h.foldl fun hu => hu.calInstall

theorem Keeps.calendar (h : Keeps s t) : Keeps s t.calendar :=
  .ite ((h.foldl fun hu => hu.applyPair).ttbCtlWrite.foldl fun hu => hu.calInstall) ((h.foldl fun hu => hu.applyPair).foldl fun hu =>
    hu.applyPair)

theorem Keeps.execServiceEntry {ms} (h : Keeps s t) : Answers s (execServiceEntry ms t) :=
  .ite (.done h) (.done (Keeps.ite h.calendar h).calFirmware.startWalk.setFld.wr.putPlat.flowSettle.settle)

/-! ### Functions of Machine/Control -/

theorem Keeps.branch {th rs1 rs2 off p} (h : Keeps s t) : Keeps s (t.branch th rs1 rs2 off p) :=
  h.issue (fun hu => .ite (.ite hu.fault hu.setThread) hu.retire)

theorem Keeps.execBeq {th rs1 rs2 off} (h : Keeps s t) : Answers s (execBeq th rs1 rs2 off t) := .done h.branch

theorem Keeps.execBne {th rs1 rs2 off} (h : Keeps s t) : Answers s (execBne th rs1 rs2 off t) := .done h.branch

theorem Keeps.execBlt {th rs1 rs2 off} (h : Keeps s t) : Answers s (execBlt th rs1 rs2 off t) := .done h.branch

theorem Keeps.execBge {th rs1 rs2 off} (h : Keeps s t) : Answers s (execBge th rs1 rs2 off t) := .done h.branch

theorem Keeps.execBltu {th rs1 rs2 off} (h : Keeps s t) : Answers s (execBltu th rs1 rs2 off t) := .done h.branch

theorem Keeps.execBgeu {th rs1 rs2 off} (h : Keeps s t) : Answers s (execBgeu th rs1 rs2 off t) := .done h.branch

theorem Keeps.execJal {th off} (h : Keeps s t) : Answers s (execJal th off t) := .done (h.issue (fun hu => .ite hu.fault hu.setThread))

theorem Keeps.execJalr {th rd rs1 imm} (h : Keeps s t) : Answers s (execJalr th rd rs1 imm t) :=
  .done (h.issue (fun hu => .ite hu.fault (.ite hu.fault hu.setThread)))

/-! ### Functions of Machine/LoadStore -/

theorem Keeps.loadOp {th sp rs1 off n fin} (h : Keeps s t) : Keeps s (t.loadOp th sp rs1 off n fin) := by
  dsimp only [State.loadOp]
  split
  · exact h.fault
  · refine .ite h.stall ?_
    split
    · exact (h.spaceRead.snd ‹_›).fault
    · exact .ite (h.spaceRead.snd ‹_›).deliver (h.spaceRead.snd ‹_›).awaitAnswer

theorem Keeps.loadWord {th sp rt rs1 off n} (h : Keeps s t) : Keeps s (t.loadWord th sp rt rs1 off n) := h.issue (fun hu => hu.loadOp)

theorem Keeps.execLdb {th sp rt rs1 off} (h : Keeps s t) : Answers s (execLdb th sp rt rs1 off t) := .done h.loadWord

theorem Keeps.execLdh {th sp rt rs1 off} (h : Keeps s t) : Answers s (execLdh th sp rt rs1 off t) := .done h.loadWord

theorem Keeps.execLdw {th sp rt rs1 off} (h : Keeps s t) : Answers s (execLdw th sp rt rs1 off t) := .done h.loadWord

theorem Keeps.execLdq {th sp bt rs1 off} (h : Keeps s t) : Answers s (execLdq th sp bt rs1 off t) :=
  .done (h.issue (fun hu => .ite hu.stall hu.loadOp))

theorem Keeps.storeRejected {th k a l} (h : Keeps s t) (e : t.storeRejected th k a l = some u) : Keeps s u := by
  unfold State.storeRejected at e
  split at e
  · split at e
    · cases e
    · exact Option.some.inj e ▸ h.busWrite.snd ‹_›
  · cases e

theorem Keeps.storeOp {th sp rs1 off l} (h : Keeps s t) : Keeps s (t.storeOp th sp rs1 off l) := by
  dsimp only [State.storeOp]
  split
  · exact h.fault
  · refine .ite h.stall ?_
    split
    · exact (h.storeRejected ‹_›).fault
    · exact h.spaceWrite.retire

theorem Keeps.execStb {th sp rt rs1 off} (h : Keeps s t) : Answers s (execStb th sp rt rs1 off t) := .done (h.issue (fun hu => hu.storeOp))

theorem Keeps.execSth {th sp rt rs1 off} (h : Keeps s t) : Answers s (execSth th sp rt rs1 off t) := .done (h.issue (fun hu => hu.storeOp))

theorem Keeps.execStw {th sp rt rs1 off} (h : Keeps s t) : Answers s (execStw th sp rt rs1 off t) := .done (h.issue (fun hu => hu.storeOp))

theorem Keeps.execStq {th sp bt rs1 off} (h : Keeps s t) : Answers s (execStq th sp bt rs1 off t) :=
  .done (h.issue (fun hu => .ite hu.stall hu.storeOp))

theorem Keeps.postedFault {th p} (h : Keeps s t) : Keeps s (t.postedFault th p) := .ite h.setThread.fault h

theorem Keeps.postedDone {th p} (h : Keeps s t) : Keeps s (t.postedDone th p) := by
  unfold State.postedDone
  refine .ite ?_ (.ite h.postedFault h.sharedPut)
  split
  · exact h.busWrite.snd ‹_›
  · exact (h.busWrite.snd ‹_›).postedFault

theorem Keeps.execPostedStoreComplete {th} (h : Keeps s t) : Answers s (execPostedStoreComplete th t) := by
  dsimp only [Machine.execPostedStoreComplete]
  split
  · exact .done h
  · exact .ite (.done h) (.done (.ite h.setThread.postedDone.makeReady h.setThread.postedDone))

theorem Keeps.atomicPut {th k a new} (h : Keeps s t) : Keeps s (t.atomicPut th k a new) := by
  unfold State.atomicPut
  split
  · exact h.sharedPut
  · exact h.spaceWrite
  · exact h.sharedOwn
  · exact h

theorem Keeps.atomic {th sp rd rs1 rs2 readsRd op} (h : Keeps s t) : Keeps s (t.atomic th sp rd rs1 rs2 readsRd op) := by
  unfold State.atomic
  refine h.issue fun {v} hv => ?_
  extract_lets x k a
  have hw : Keeps s (if k = .shr then v.drainShared th else v) := .ite hv.drainShared hv
  split
  · exact hv.fault
  · split
    · exact (hw.spaceRead.snd ‹_›).fault
    · exact .ite (hw.spaceRead.snd ‹_›).atomicPut.awaitAnswer (hw.spaceRead.snd ‹_›).atomicPut.deliver

theorem Keeps.execAadd {th sp rd rs1 rs2} (h : Keeps s t) : Answers s (execAadd th sp rd rs1 rs2 t) := .done h.atomic

theorem Keeps.execAand {th sp rd rs1 rs2} (h : Keeps s t) : Answers s (execAand th sp rd rs1 rs2 t) := .done h.atomic

theorem Keeps.execAor {th sp rd rs1 rs2} (h : Keeps s t) : Answers s (execAor th sp rd rs1 rs2 t) := .done h.atomic

theorem Keeps.execAxor {th sp rd rs1 rs2} (h : Keeps s t) : Answers s (execAxor th sp rd rs1 rs2 t) := .done h.atomic

theorem Keeps.execAswp {th sp rd rs1 rs2} (h : Keeps s t) : Answers s (execAswp th sp rd rs1 rs2 t) := .done h.atomic

theorem Keeps.execAcas {th sp rd rs1 rs2} (h : Keeps s t) : Answers s (execAcas th sp rd rs1 rs2 t) := .done h.atomic

theorem Keeps.execAmaxu {th sp rd rs1 rs2} (h : Keeps s t) : Answers s (execAmaxu th sp rd rs1 rs2 t) := .done h.atomic

theorem Keeps.execAminu {th sp rd rs1 rs2} (h : Keeps s t) : Answers s (execAminu th sp rd rs1 rs2 t) := .done h.atomic

theorem Keeps.hnew {th n} (h : Keeps s t) : Keeps s (t.hnew th n).2 := by
  dsimp only [State.hnew]
  split
  · exact h.allocCells.draw.newHandle.setThread
  · exact h.allocCells

theorem Keeps.hnewEnd {th rd n taint} (h : Keeps s t) : Keeps s (t.hnewEnd th rd n taint) := by
  unfold State.hnewEnd
  exact h.hnew.deliver

/-! ### Functions of Machine/LookupOps -/

theorem Keeps.diceOp {th rs1 f} (h : Keeps s t) (hf : ∀ table, Keeps s (f table)) : Keeps s (t.diceOp th rs1 f) := .ite h.fault (hf _)

theorem Keeps.dlk {th rd rs1 bd ba table} (h : Keeps s t) : Keeps s (t.dlk th rd rs1 bd ba table) := h.diceLookup.awaitAnswer

theorem Keeps.execDlk {th rd rs1 bd ba} (h : Keeps s t) : Answers s (execDlk th rd rs1 bd ba t) :=
  .done (h.blockIssue (fun hu => hu.diceOp (fun _ => hu.dlk)))

theorem Keeps.statusAnswer {th rd src chip v} (h : Keeps s t) : Keeps s (t.statusAnswer th rd src chip v) := h.awaitAnswer

theorem Keeps.pipeOp {th rd taint table key rate mk} (h : Keeps s t) : Keeps s (t.pipeOp th rd taint table key rate mk) := by
  unfold State.pipeOp
  split
  · exact (h.pipeRoute.snd ‹_›).statusAnswer
  · exact .ite (h.pipeRoute.snd ‹_›).pipeEnter h.stall

theorem Keeps.execDins {th rd rs1 ba bb} (h : Keeps s t) : Answers s (execDins th rd rs1 ba bb t) :=
  .done (h.blockIssue (fun hu => hu.unlessOpen (fun hv => hv.diceOp (fun _ => hv.pipeOp))))

theorem Keeps.execDdel {th rd rs1 ba} (h : Keeps s t) : Answers s (execDdel th rd rs1 ba t) :=
  .done (h.blockIssue (fun hu => hu.unlessOpen (fun hv => hv.diceOp (fun _ => hv.pipeOp))))

theorem Keeps.execFlk {th rd bd ba bb} (h : Keeps s t) : Answers s (execFlk th rd bd ba bb t) :=
  .done (h.blockIssue (fun hu => hu.flowLookup.awaitAnswer))

theorem Keeps.execFins {th rd bd ba bb} (h : Keeps s t) : Answers s (execFins th rd bd ba bb t) :=
  .done (h.blockIssue (fun hu => hu.unlessOpen (fun hv => hv.flowInsert.statusAnswer)))

theorem Keeps.execFdel {th rd ba bb} (h : Keeps s t) : Answers s (execFdel th rd ba bb t) :=
  .done (h.blockIssue (fun hu => hu.unlessOpen (fun hv => hv.flowDelete.statusAnswer)))

theorem Keeps.execTlk {th rd rs1 ba} (h : Keeps s t) : Answers s (execTlk th rd rs1 ba t) :=
  .done (h.blockIssue (fun hu => .ite hu.fault hu.statusAnswer))

theorem Keeps.pipeFor {th} (h : Keeps s t) : Keeps s (t.pipeFor th) := by
  unfold State.pipeFor
  split
  · exact h.pipeThrough
  · exact h

theorem Keeps.execLookupResult {th} (h : Keeps s t) : Answers s (execLookupResult th t) := by
  dsimp only [Machine.execLookupResult]
  split
  · exact .done h.pipeFor.deliver
  · exact .done h.pipeFor

/-! ### Functions of Machine/Debug -/

theorem Keeps.debugEnd {tx} (h : Keeps s t) : Keeps s (t.debugEnd tx) := .ite h.debugClear.warmReset h.debugClear

theorem Keeps.zeroRecords (h : Keeps s t) : Keeps s t.zeroRecords := by
  refine ⟨fun hs => ?_, h.fuses, h.pending⟩
  obtain ⟨hr, hm, hl, hc, hp, hmram, hflash⟩ := h.memory hs
  exact ⟨hr, hm, hl, hc, hp, Tbl.wf_filter _ _ _ hmram, hflash⟩

theorem Keeps.execLcReturn {tests} (h : Keeps s t) : Answers s (execLcReturn tests t) :=
  .ite (.done h.burn.revokeAll.zeroRecords.lcEnd.debugEnd) (.done h)

theorem Keeps.execObserve {tests} (h : Keeps s t) : Answers s (execObserve tests t) :=
  .ite (.ite (.done h.lcEnd.debugEnd) (.done h.lcEnd.debugClear.setFld)) (.done h)

theorem Keeps.newKtk (h : Keeps s t) : Keeps s t.newKtk := .ite h.drawKtk h.putKeys

theorem Keeps.intrudeEnter (h : Keeps s t) : Keeps s t.intrudeEnter := by
  unfold State.intrudeEnter
  extract_lets s1 s2 p3 s3 m4 s4
  have h1 : Keeps s s1 := h.foldl fun hu => hu.fnReset
  have h2 : Keeps s s2 := h1.revokeAll.newKtk
  clear_value s2
  have h4 : Keeps s s4 := h2.putPlat.putTrust
  exact h4.setFld.setFld

theorem Keeps.execIntrude (h : Keeps s t) : Answers s (execIntrude t) :=
  .ite (.done h) (.ite (.done h.lcEnd.setFld) (.ite (.done h.intrudeEnter.lcEnd) (.ite (.done ((h.foldl fun hu => hu.freezeDo).foldl fun hu
    => hu.quiesce).intrudeEnter.lcEnd) (.done ((h.foldl fun hu => hu.freezeDo).foldl fun hu => hu.quiesce).putTrust))))

theorem Keeps.execDebugOff {tests} (h : Keeps s t) : Answers s (execDebugOff tests t) := .ite (.done h.lcEnd.debugEnd) (.done h)

theorem Keeps.execDebugExpiry {tests} (h : Keeps s t) : Answers s (execDebugExpiry tests t) := .ite (.done h.debugEnd) (.done h)

/-! ### Functions of Machine/Dma -/

theorem Keeps.xlateFail {x} (h : Keeps s t) : Keeps s (t.xlateFail x) := by
  unfold State.xlateFail
  split
  · exact h.satInc
  · exact h

theorem Keeps.atsPage {ep fn page answer} (h : Keeps s t) : Keeps s (t.atsPage ep fn page answer).2 := by
  dsimp only [State.atsPage]
  split
  · exact h
  · exact h.putPlat

theorem Keeps.atsSide {xlate x dst n} (h : Keeps s t) : Keeps s (t.atsSide xlate x dst n).2 := by
  unfold State.atsSide
  split
  · exact .ite_snd (h.foldl_snd fun hu => hu.atsPage) h
  · exact h

theorem Keeps.execDmaDescriptorStart {ch xlate xfail} (h : Keeps s t) : Answers s (execDmaDescriptorStart ch xlate xfail t) := by
  dsimp only [Machine.execDmaDescriptorStart]
  split
  · exact .done h
  · exact .ite (.done h) (.ite (.done h.dmaEnd) (.ite (.done h.dmaFinish) (.ite (.done h.xlateFail.dmaFinish) (.ite (.done
      h.atsSide.atsSide.dmaFinish) (.done h.atsSide.atsSide.setDma)))))

theorem Keeps.srcRead {ch d x off n host} (h : Keeps s t) : Keeps s (t.srcRead ch d x off n host).2 := by
  dsimp only [State.srcRead]
  split
  · exact h.eccRead
  · refine .ite_snd h.eccRead ?_
    split
    · exact h.hbmFetch.snd ‹_›
    · exact h.hbmFetch.snd ‹_›
  · split
    · exact h.busRead.snd ‹_›
    · exact h.busRead.snd ‹_›
  · exact h
  · exact h

theorem Keeps.dstWrite {ch x off l} (h : Keeps s t) : Keeps s (t.dstWrite ch x off l).2 := by
  dsimp only [State.dstWrite]
  split
  · exact h.clusterWrite
  · exact h.hbmStoreBy
  · exact h.busWrite
  · exact h

theorem Keeps.dmaReads {ch d x host l acc} (h : Keeps s t) : Keeps s (State.dmaReads ch d x host l acc t).2.2 := by
  induction l generalizing acc t with
  | nil => exact h
  | cons p l ih =>
    unfold State.dmaReads
    split
    · exact ih (h.srcRead.snd ‹_›)
    · exact h.srcRead.snd ‹_›

theorem Keeps.dmaWrites {ch x l n} (h : Keeps s t) : Keeps s (State.dmaWrites ch x l n t).2.2 := by
  induction l generalizing n t with
  | nil => exact h
  | cons p l ih =>
    unfold State.dmaWrites
    split
    · exact ih (h.dstWrite.snd ‹_›)
    · exact h.dstWrite.snd ‹_›

theorem Keeps.dmaPut {ch d x l} (h : Keeps s t) : Keeps s (t.dmaPut ch d x l).2.2 := by
  dsimp only [State.dmaPut]
  split
  · split
    · exact h
    · split
      · exact h.hostPut
      · exact h
  · exact h.dmaWrites

theorem Keeps.dmaOpen {ch x lo n} (h : Keeps s t) : Keeps s (t.dmaOpen ch x lo n) := by
  dsimp only [State.dmaOpen]
  split
  · exact h.dstWrite.draw
  · exact h.dstWrite.draw
  · exact h

theorem Keeps.dmaAsk {d x lo n m} (h : Keeps s t) : Keeps s (t.dmaAsk d x lo n m) := by
  unfold State.dmaAsk
  split
  · exact .ite h.hostAsk h
  · exact h

theorem Keeps.dmaMove {ch d n upto fail host} (h : Keeps s t) : Keeps s (t.dmaMove ch d n upto fail host).2 := by
  dsimp only [State.dmaMove]
  split
  · exact h.dmaAsk.dmaReads.dmaPut.setDma.wr64
  · exact h.dmaAsk.dmaReads.dmaPut.setDma.wr64.dmaOpen

theorem Keeps.dmaStretch {ch d n res} (h : Keeps s t) : Keeps s (t.dmaStretch ch d n res) := by
  dsimp only [State.dmaStretch]
  split
  · exact h.dmaMove.dmaFinish
  · exact h.dmaMove

theorem Keeps.execDmaDescriptorEnd {ch res} (h : Keeps s t) : Answers s (execDmaDescriptorEnd ch res t) := by
  dsimp only [Machine.execDmaDescriptorEnd]
  split
  · exact .done h
  · refine .ite ?_ ?_
    · exact .done h
    · refine .ite ?_ ?_
      · exact .done (.ite h.dmaFinish h)
      · exact .done (by split; exacts [.ite h.dmaStretch.dmaFinish h.dmaStretch, h.dmaStretch])

theorem Keeps.execPacedBurstStart {ch res} (h : Keeps s t) : Answers s (execPacedBurstStart ch res t) := by
  dsimp only [Machine.execPacedBurstStart]
  split
  · exact .done h
  · exact .ite (.done h) (.ite (.done h.setDma.dmaStretch) (.done h.setDma))

theorem Keeps.dmaZero {ch d} (h : Keeps s t) : Keeps s (t.dmaZero ch d) := by
  dsimp only [State.dmaZero]
  refine .ite ?_ ?_
  · exact h
  · split
    · exact .ite h.hostPut h.satInc
    · exact h.foldl fun hu => .ite hu.dstWrite hu.dstWrite.satInc

theorem Keeps.dmaShadowFail {ch} (h : Keeps s t) : Keeps s (t.dmaShadowFail ch) := by
  dsimp only [State.dmaShadowFail]
  split
  · exact .ite h.setDma.dmaCount.dmaWake h
  · exact h

theorem Keeps.gatedTransferZero {ch errors} (h : Keeps s t) : Keeps s (t.gatedTransferZero ch errors) := by
  dsimp only [State.gatedTransferZero]
  split
  · exact .ite h.dmaShadowFail.dmaZero.satInc.dmaEnd h.dmaShadowFail
  · exact h.dmaShadowFail

theorem Keeps.execGatedTransferZeroOverwrite {ch errors} (h : Keeps s t) : Answers s (execGatedTransferZeroOverwrite ch errors t) :=
  .done h.gatedTransferZero

theorem Keeps.execCompletionTimeout {inst req} (h : Keeps s t) : Answers s (execCompletionTimeout inst req t) := by
  unfold Machine.execCompletionTimeout
  split
  · exact .done h.fetchDone.settle
  · exact .done h.readDone.settle
  · exact .done h
  · split
    · exact .ite (.done h.dmaOpen.dmaFinish) (.done h)
    · exact .done h

/-! ### Functions of Machine/Payload -/

theorem Keeps.execPfetch {th rd rs1} (h : Keeps s t) : Answers s (execPfetch th rd rs1 t) :=
  .done (h.issue (fun hu => .ite hu.fault (.ite hu.fault (.ite hu.fault hu.payDrain.retire))))

theorem Keeps.payRead {hx off} (h : Keeps s t) : Keeps s (t.payRead hx off).2 := by
  dsimp only [State.payRead]
  split
  · exact h.draw
  · exact h.foldl fun hu => hu.eccFound

theorem Keeps.execPayloadBlockArrive {th} (h : Keeps s t) : Answers s (execPayloadBlockArrive th t) := by
  dsimp only [Machine.execPayloadBlockArrive]
  split
  · exact .done h
  · exact .ite (.done h) (.done (.ite h.payRead.setThread.makeReady h.payRead.setThread))

theorem Keeps.execPldb {th bd} (h : Keeps s t) : Answers s (execPldb th bd t) := by
  dsimp only [Machine.execPldb]
  exact .done (h.blockIssue (fun hu => (by split; exacts [hu.retire, hu.fault, (by split; exacts [.ite hu.fault hu.stall, hu.fault])])))

theorem Keeps.execPstb {th ba rs1 rd} (h : Keeps s t) : Answers s (execPstb th ba rs1 rd t) :=
  .done (h.blockIssue (fun hu => .ite hu.fault (.ite hu.fault (.ite hu.fault (.ite hu.stall hu.retire)))))

theorem Keeps.execPayloadWriteDone {th} (h : Keeps s t) : Answers s (execPayloadWriteDone th t) :=
  .ite (.done h) (.done (.ite h.payWrite.makeReady h.payWrite))

theorem Keeps.execPwait {th} (h : Keeps s t) : Answers s (execPwait th t) := .done (h.issue (fun hu => .ite hu.retire hu.stall))

/-! ### Functions of Machine/Queue -/

theorem Keeps.giveUp {th hx} (h : Keeps s t) : Keeps s (t.giveUp th hx) := by
  dsimp only [State.giveUp]
  split
  · exact h.unhold
  · split
    · exact h.setFrame.unhold.freeSlot
    · exact h.setFrame.unhold

theorem Keeps.enqSend {th hx fword kind} (h : Keeps s t) : Keeps s (t.enqSend th hx fword kind) := by
  unfold State.enqSend
  split
  · exact h
  · exact h.giveUp.sendCommit.retire

theorem Keeps.enqGated {th hx} (h : Keeps s t) : Keeps s (t.enqGated th hx) := h.gateFail.gateDrop.retire

theorem Keeps.enqueueOp {th hx fword kind} (h : Keeps s t) : Keeps s (t.enqueueOp th hx fword kind) := by
  dsimp only [State.enqueueOp]
  refine .ite h.fault (.ite h.fault (.ite h.payDrain.enqGated ?_))
  split
  · exact h.payDrain.stall
  · exact (h.payDrain.takeCredit ‹_›).enqSend

theorem Keeps.execEnq {th rd rs1 rs2} (h : Keeps s t) : Answers s (execEnq th rd rs1 rs2 t) :=
  .done (h.issue (fun hu => .ite hu.fault hu.enqueueOp))

theorem Keeps.execEnqm {th rd rs1 rs2} (h : Keeps s t) : Answers s (execEnqm th rd rs1 rs2 t) :=
  .done (h.issue (fun hu => .ite hu.fault hu.enqueueOp))

theorem Keeps.execDrop {th rs1 rs2} (h : Keeps s t) : Answers s (execDrop th rs1 rs2 t) :=
  .done (h.issue (fun hu => .ite hu.fault (.ite hu.fault hu.payDrain.unhold.dropHandle.retire)))

theorem Keeps.execPolc {th rd rs1 rs2} (h : Keeps s t) : Answers s (execPolc th rd rs1 rs2 t) :=
  .done (h.issue (fun hu => .ite hu.fault hu.police.awaitAnswer))

theorem Keeps.execHnew {th rd rs2} (h : Keeps s t) : Answers s (execHnew th rd rs2 t) :=
  .done (h.issue (fun hu => .ite hu.fault (.ite hu.fault hu.stall)))

theorem Keeps.dmaOp {th rs1 f} (h : Keeps s t) (hf : ∀ ch, Keeps s (f ch)) : Keeps s (t.dmaOp th rs1 f) := .ite h.fault (hf _)

theorem Keeps.dmaLoad {ch d} (h : Keeps s t) : Keeps s (t.dmaLoad ch d).2 := .ite_snd (.ite h.setDma.dmaEnd h.setDma) (.ite_snd h.setDma h)

theorem Keeps.execDmas {th rd rs1 rs2} (h : Keeps s t) : Answers s (execDmas th rd rs1 rs2 t) := by
  refine .done (h.issue fun hu => hu.dmaOp fun ch => ?_)
  dsimp only
  refine .ite hu.fault (.ite hu.fault ?_)
  split
  · exact (hu.drainShared.spaceRead.snd ‹_›).fault
  · exact (hu.drainShared.spaceRead.snd ‹_›).dmaLoad.result

theorem Keeps.execDmaw {th rd rs1} (h : Keeps s t) : Answers s (execDmaw th rd rs1 t) :=
  .done (h.issue (fun hu => hu.dmaOp (fun _ => .ite hu.stall hu.setDma.result)))

theorem Keeps.execDmap {th rd rs1} (h : Keeps s t) : Answers s (execDmap th rd rs1 t) :=
  .done (h.issue (fun hu => hu.dmaOp (fun _ => hu.result)))

/-! ### Functions of Machine/ThreadOps -/

theorem Keeps.threadOp {th rs1 needStopped f} (h : Keeps s t) (hf : ∀ target, Keeps s (f target)) :
    Keeps s (t.threadOp th rs1 needStopped f) := .ite h.fault (.ite h.fault (hf _))

theorem Keeps.execTstart {th rs1 rs2} (h : Keeps s t) : Answers s (execTstart th rs1 rs2 t) :=
  .done (h.issue (fun hu => hu.threadOp (fun _ => hu.retire.when (fun hv => hv.threadStart))))

theorem Keeps.execTstop {th rs1} (h : Keeps s t) : Answers s (execTstop th rs1 t) :=
  .done (h.issue (fun hu => hu.threadOp (fun _ => hu.retire.threadStop)))

theorem Keeps.execTset {th rd rs1 rs2} (h : Keeps s t) : Answers s (execTset th rd rs1 rs2 t) :=
  .done (h.issue (fun hu => hu.unlessOpen (fun hv => hv.threadOp (fun _ => hv.retire.setThread))))

theorem Keeps.execTget {th rd rs1 rs2} (h : Keeps s t) : Answers s (execTget th rd rs1 rs2 t) :=
  .done (h.issue (fun hu => hu.threadOp (fun _ => hu.result)))

theorem Keeps.execRecv {th rd rs1} (h : Keeps s t) : Answers s (execRecv th rd rs1 t) :=
  .done (h.issue (fun hu => .ite hu.fault (.ite hu.fault (.ite hu.fault hu.gateResolve.gateClear.stall))))

theorem Keeps.execYield {th} (h : Keeps s t) : Answers s (execYield th t) := .done (h.issue (fun hu => hu.retire.switchFrom))

theorem Keeps.execEvwait {th rd rs1} (h : Keeps s t) : Answers s (execEvwait th rd rs1 t) :=
  .done (h.issue (fun hu => .ite hu.stall hu.retire))

theorem Keeps.execSig {th rs1 rs2} (h : Keeps s t) : Answers s (execSig th rs1 rs2 t) :=
  .done (h.issue (fun hu => hu.unlessOpen (fun hv => .ite hv.fault (.ite hv.retire.setEvt hv.retire))))

theorem Keeps.execHalt {th} (h : Keeps s t) : Answers s (execHalt th t) := .done (h.issue (fun hu => hu.threadStop))

theorem Keeps.sregRead {th n} (h : Keeps s t) : Keeps s (t.sregRead th n) := by
  dsimp only [State.sregRead]
  split
  · exact h.setThread
  · exact h.setThread
  · exact h

theorem Keeps.execMfsr {th rd n} (h : Keeps s t) : Answers s (execMfsr th rd n t) := .done (h.issue (fun hu => hu.sregRead.result))

theorem Keeps.execMtsr {th rs1 n} (h : Keeps s t) : Answers s (execMtsr th rs1 n t) := .done (h.issue (fun hu => hu.retire))

theorem Keeps.setShReg {th n v} (h : Keeps s t) : Keeps s (t.setShReg th n v) := h.putEng

theorem Keeps.execMfsh {th rd n} (h : Keeps s t) : Answers s (execMfsh th rd n t) := .done (h.issue (fun hu => hu.result))

theorem Keeps.execMtsh {th rs1 n} (h : Keeps s t) : Answers s (execMtsh th rs1 n t) :=
  .done (h.issue (fun hu => hu.unlessOpen (fun hv => hv.setShReg.retire)))

theorem Keeps.execShadd {th rd rs1 n} (h : Keeps s t) : Answers s (execShadd th rd rs1 n t) :=
  .done (h.issue (fun hu => hu.unlessOpen (fun hv => hv.setShReg.result)))

theorem Keeps.execFence {th mask} (h : Keeps s t) : Answers s (execFence th mask t) := by
  unfold Machine.execFence
  exact .done (h.issue (fun hu => (by split; exacts [hu.stall, hu.retire])))

theorem Keeps.execRnd {th rd} (h : Keeps s t) : Answers s (execRnd th rd t) :=
  .done (h.issue (fun hu => .ite hu.fault (.ite hu.dieWord.result hu.stall)))

theorem Keeps.execTrap {th rs1} (h : Keeps s t) : Answers s (execTrap th rs1 t) := .done (h.issue (fun hu => hu.threadFault))

/-! ### Functions of Machine/Cycle -/

/-- A listed instruction's meaning answers a next state, and keeps what every operation keeps. -/
def Meaning (o : Option (Nat × (State → Res))) : Prop := ∀ n m, o = some (n, m) → ∀ {s t}, Keeps s t → Answers s (m t)
theorem Meaning.none : Meaning none := fun _ _ e => by cases e

theorem Meaning.ite {c} [Decidable c] {a b} (ha : Meaning a) (hb : Meaning b) : Meaning (if c then a else b) := by
  split
  · exact ha
  · exact hb

theorem Meaning.ifZero {n m} (hm : ∀ {s t}, Keeps s t → Answers s (m t)) : Meaning (ifZero n m) := fun _ _ e => by
  cases e; exact hm

theorem Meaning.listed {m} (hm : ∀ {s t}, Keeps s t → Answers s (m t)) : Meaning (listed m) := fun _ _ e => by
  cases e; exact hm

theorem Meaning.runInt {th w} : Meaning (runInt th w) := by
  unfold Machine.runInt
  split
  · exact .listed (·.execAdd)
  · exact .listed (·.execSub)
  · exact .listed (·.execAnd)
  · exact .listed (·.execOr)
  · exact .listed (·.execXor)
  · exact .listed (·.execSll)
  · exact .listed (·.execSrl)
  · exact .listed (·.execSra)
  · exact .listed (·.execSlt)
  · exact .listed (·.execSltu)
  · exact .listed (·.execMin)
  · exact .listed (·.execMax)
  · exact .listed (·.execMinu)
  · exact .listed (·.execMaxu)
  · exact .listed (·.execMul)
  · exact .listed (·.execMulhu)
  · exact .listed (·.execMulh)
  · exact .ifZero (·.execClz)
  · exact .ifZero (·.execPopc)
  · exact .ifZero (·.execRev8)
  · exact .ifZero (·.execSextb)
  · exact .ifZero (·.execSexth)
  · exact .listed (·.execAdd1c)
  · exact .listed (·.execCrcw)
  · exact .none

theorem Meaning.runImm {th w} : Meaning (runImm th w) := by
  unfold Machine.runImm
  split
  · exact .listed (·.execAddi)
  · exact .listed (·.execAndi)
  · exact .listed (·.execOri)
  · exact .listed (·.execXori)
  · exact .listed (·.execSlti)
  · exact .listed (·.execSltiu)
  · exact .ifZero (·.execLui)
  · exact .ifZero (·.execSlli)
  · exact .ifZero (·.execSrli)
  · exact .ifZero (·.execSrai)
  · exact .ifZero (·.execExt)
  · exact .ifZero (·.execIns)
  · exact .none

theorem Meaning.runMem {th w} : Meaning (runMem th w) := by
  unfold Machine.runMem
  split
  · exact .listed fun h => by split; exacts [h.execStb, h.execLdb]
  · exact .listed fun h => by split; exacts [h.execSth, h.execLdh]
  · exact .listed fun h => by split; exacts [h.execStw, h.execLdw]
  · exact .ifZero fun h => by split; exacts [h.execStq, h.execLdq]

theorem Meaning.runAtomic {th w} : Meaning (runAtomic th w) := by
  unfold Machine.runAtomic
  split
  · exact .ifZero (·.execAadd)
  · exact .ifZero (·.execAand)
  · exact .ifZero (·.execAor)
  · exact .ifZero (·.execAxor)
  · exact .ifZero (·.execAswp)
  · exact .ifZero (·.execAcas)
  · exact .ifZero (·.execAmaxu)
  · exact .ifZero (·.execAminu)
  · exact .none

theorem Meaning.runBranch {th w} : Meaning (runBranch th w) := by
  unfold Machine.runBranch
  split
  · exact .listed (·.execBeq)
  · exact .listed (·.execBne)
  · exact .listed (·.execBlt)
  · exact .listed (·.execBge)
  · exact .listed (·.execBltu)
  · exact .listed (·.execBgeu)
  · exact .listed (·.execJal)
  · exact .listed (·.execJalr)
  · exact .none

theorem Meaning.runBlock {th w} : Meaning (runBlock th w) := by
  unfold Machine.runBlock
  split
  · exact .ifZero (·.execBxor)
  · exact .ifZero (·.execBand)
  · exact .ifZero (·.execBor)
  · exact .ifZero (·.execBmov)
  · exact .ifZero (·.execBzero)
  · exact .ifZero (·.execBrev)
  · exact .ifZero (·.execBinc)
  · exact .ifZero (·.execBmask)
  · exact .ifZero (·.execBput)
  · exact .ifZero (·.execBget)
  · exact .ifZero (·.execXtsa)
  · exact .ifZero (·.execGmul)
  · exact .ifZero (·.execTagcmp)
  · exact .ifZero (·.execAese)
  · exact .ifZero (·.execAesd)
  · exact .none

theorem Meaning.runUnit {th w} : Meaning (runUnit th w) := by
  unfold Machine.runUnit
  split
  · exact .ifZero (·.execPfetch)
  · exact .ifZero (·.execPldb)
  · exact .ifZero (·.execPstb)
  · exact .ifZero (·.execPwait)
  · exact .ifZero (·.execDlk)
  · exact .ifZero (·.execDins)
  · exact .ifZero (·.execDdel)
  · exact .ifZero (·.execFlk)
  · exact .ifZero (·.execFins)
  · exact .ifZero (·.execFdel)
  · exact .ifZero (·.execTlk)
  · exact .none

theorem Meaning.runQueue {th w} : Meaning (runQueue th w) := by
  unfold Machine.runQueue
  split
  · exact .listed (·.execEnq)
  · exact .listed (·.execEnqm)
  · exact .ifZero (·.execDrop)
  · exact .listed (·.execPolc)
  · exact .ifZero (·.execHnew)
  · exact .listed (·.execDmas)
  · exact .ifZero (·.execDmaw)
  · exact .ifZero (·.execDmap)
  · exact .none

theorem Meaning.runSystem {th w} : Meaning (runSystem th w) := by
  unfold Machine.runSystem
  split
  · exact .ifZero (·.execTstart)
  · exact .ifZero (·.execTstop)
  · exact .listed (·.execTset)
  · exact .listed (·.execTget)
  · exact .ifZero (·.execRecv)
  · exact .ifZero (·.execYield)
  · exact .ifZero (·.execEvwait)
  · exact .ifZero (·.execSig)
  · exact .ifZero (·.execHalt)
  · exact .ifZero (·.execMfsr)
  · exact .ifZero (·.execMtsr)
  · exact .ifZero (·.execMfsh)
  · exact .ifZero (·.execMtsh)
  · exact .ifZero (·.execShadd)
  · exact .ifZero (·.execFence)
  · exact .ifZero (·.execRnd)
  · exact .ifZero (·.execTrap)
  · exact .none

theorem Meaning.listedWord {th w} : Meaning (listedWord th w) :=
  .ite .runInt (.ite .runImm (.ite .runMem (.ite .runAtomic (.ite .runBranch (.ite .runBlock (.ite .runUnit
    (.ite .runQueue (.ite .runSystem .none))))))))

theorem Keeps.runWord {th w m} (h : Keeps s t) (e : runWord th w = some m) : Answers s (m t) := by
  unfold Machine.runWord at e
  split at e
  · exact Option.some.inj e ▸ Meaning.listedWord _ _ ‹_› h
  · cases e

theorem Keeps.setUpc {th a} (h : Keeps s t) : Keeps s (t.setUpc th a) := h.setThread

theorem Keeps.dispatched {th} (h : Keeps s t) : Keeps s (t.dispatched th) := by
  dsimp only [State.dispatched]
  split
  · exact h
  · exact h.setThread

theorem Keeps.report {th n} (h : Keeps s t) : Keeps s (t.report th n) := by
  dsimp only [State.report]
  split
  · exact h.setThread
  · exact h

theorem Keeps.runInstr {th w} (h : Keeps s t) : Answers s (t.runInstr th w) := by
  unfold State.runInstr
  split
  · exact .done h.fault
  · obtain ⟨v, hv, hk⟩ := h.runWord ‹_›
    rw [hv]
    exact .done hk.dispatched

theorem Keeps.microStep {th w inv0 next n} (h : Keeps s t) : Answers s (t.microStep th w inv0 next n) := by
  dsimp only [State.microStep]
  split
  · exact .done h.setUpc
  · exact .done h.setUpc
  · exact .done h.setThread
  · split
    · exact .done h.fault
    · exact .done h.setThread
  · exact .ite (.done h.setUpc) (.ite (.done h) (.done h.stall))
  · exact .done h.fault

theorem Keeps.microword {th w} (h : Keeps s t) : Answers s (t.microword th w) := by
  unfold State.microword
  extract_lets m a mw n inv0 s1
  have h1 : Keeps s s1 := h.setUpc.draw
  have hr : Answers s (if microActs n then s1.runInstr th w else s1.microStep th w inv0 (bits mw 12 0) n) := .ite h1.runInstr h1.microStep
  refine .ite (.done h1.fault) ?_
  obtain ⟨v, hv, hk⟩ := hr
  rw [hv]
  exact .done hk.report

theorem Keeps.fetchWord {th} (h : Keeps s t) : Keeps s (t.fetchWord th).2 := .ite_snd h h.eccRead

theorem Keeps.fetchNew {th} (h : Keeps s t) : Keeps s (t.fetchNew th).2 := by
  unfold State.fetchNew
  split
  · exact h.fetchWord.snd ‹_›
  · exact (h.fetchWord.snd ‹_›).setThread

theorem Keeps.dispatch {th} (h : Keeps s t) : Keeps s (t.dispatch th).2 := by
  dsimp only [State.dispatch]
  split
  · exact .ite_snd h h.fetchNew
  · exact h.fetchNew

theorem Keeps.execCycle {eng} (h : Keeps s t) : Answers s (execCycle eng t) := by
  dsimp only [Machine.execCycle]
  refine .ite (.done h) (.ite (.done h.fault) ?_)
  split
  · exact .done (h.dispatch.snd ‹_›).fault
  · exact .ite (h.dispatch.snd ‹_›).runInstr (h.dispatch.snd ‹_›).microword

theorem Keeps.execLongStallEnd {th} (h : Keeps s t) : Answers s (execLongStallEnd th t) := by
  unfold Machine.execLongStallEnd
  split
  · refine .ite ?_ ?_
    · split
      · exact .done h.deliver
      · exact .done h.hnewEnd
      · exact .done h.makeReady
    · exact .done h
  · exact .done h

/-! ### Functions of Machine/Fence -/

theorem Keeps.fenceGates {b} (h : Keeps s t) : Keeps s (t.fenceGates b) :=
  ((h.foldl fun hu => hu.gateFail).foldl fun hu => hu.gatedZero).foldl fun hu => hu.gatedTransferZero

theorem Keeps.execChipletFence {chiplet cause} (h : Keeps s t) : Answers s (execChipletFence chiplet cause t) :=
  .ite (.done h) (.done (Keeps.ite h.fenceGates h).fenceMark.fenceEffect)

/-! ### Functions of Machine/Firings -/

theorem Keeps.scrubMove {ux amount size} (h : Keeps s t) : Keeps s (t.scrubMove ux amount size) := h.putPlat

theorem Keeps.scrubHbm {e} (h : Keeps s t) : Keeps s (t.scrubHbm e) := .ite h.eccFound h.eccFound.eccWipe.dropCopies.poisonLine

theorem Keeps.scrubStack {k f} (h : Keeps s t) : Keeps s (t.scrubStack k f) := .ite h (h.foldl fun hu => hu.scrubHbm).scrubMove

theorem Keeps.scrubCluster {cl f} (h : Keeps s t) : Keeps s (t.scrubCluster cl f) := (h.foldl fun hu => hu.eccFound).scrubMove

theorem Keeps.scrubCells {f} (h : Keeps s t) : Keeps s (t.scrubCells f) := (h.foldl fun hu => hu.eccFound).scrubMove

theorem Keeps.scrub {ux f} (h : Keeps s t) : Keeps s (t.scrub ux f) := by
  unfold State.scrub
  split
  · exact h.scrubStack
  · exact h.scrubCluster
  · exact h.scrubCells
  · exact h

theorem Keeps.beginWork {ux f} (h : Keeps s t) : Keeps s (t.beginWork ux f) := by
  dsimp only [State.beginWork]
  split
  · exact .ite h.dredgeBegin.workEnd h.dredgeBegin
  · exact h.soundBegin
  · exact h.scrub.workEnd
  · exact h.scrub.workEnd
  · exact h.scrub.workEnd
  · exact h.mcWork
  · exact h.snapshot.workEnd
  · exact h.keyEpoch.workEnd
  · exact h.epochMark.workEnd
  · exact h.slackFiring.workEnd
  · exact h.slackFiring.workEnd
  · exact h.gateFiring.workEnd

theorem Keeps.fireAt {ux f} (h : Keeps s t) : Keeps s (t.fireAt ux f) := .ite (.ite h.fireTake.fireArrive.beginWork h.fireTake.fireArrive) h

theorem Keeps.execDredgeFiring {board f} (h : Keeps s t) : Answers s (execDredgeFiring board f t) := .done h.fireAt

theorem Keeps.execSoundingFiring {bank f} (h : Keeps s t) : Answers s (execSoundingFiring bank f t) := .done h.fireAt

theorem Keeps.execMemoryScrubFiring {ux f} (h : Keeps s t) : Answers s (execMemoryScrubFiring ux f t) := .done (.ite h.fireAt h)

theorem Keeps.execMicrocodeRefresh {board f} (h : Keeps s t) : Answers s (execMicrocodeRefresh board f t) :=
  .done (h.foldl fun hu => hu.fireAt)

theorem Keeps.execCounterSnapshot {chiplet f} (h : Keeps s t) : Answers s (execCounterSnapshot chiplet f t) := .done h.fireAt

theorem Keeps.execKeyEpoch {f} (h : Keeps s t) : Answers s (execKeyEpoch f t) := .done h.fireAt

theorem Keeps.execSlackWaterFiring {link f} (h : Keeps s t) : Answers s (execSlackWaterFiring link f t) := by
  unfold Machine.execSlackWaterFiring
  exact .done (by split; exacts [h.fireAt, h.fireAt])

theorem Keeps.execGateListChangeFiring {f} (h : Keeps s t) : Answers s (execGateListChangeFiring f t) := .done h.fireAt

theorem Keeps.execPendingFiringStart {ux cls} (h : Keeps s t) : Answers s (execPendingFiringStart ux cls t) := by
  dsimp only [Machine.execPendingFiringStart]
  split
  · exact .done (.ite h.startPending.beginWork h)
  · exact .done h

theorem Keeps.grantAccess {ux cls} (h : Keeps s t) : Keeps s (t.grantAccess ux cls) := by
  unfold State.grantAccess
  split
  · exact .ite h.dredgeVisit h
  · exact h

theorem Keeps.execBackgroundStarvationGrant {ux} (h : Keeps s t) : Answers s (execBackgroundStarvationGrant ux t) := by
  dsimp only [Machine.execBackgroundStarvationGrant]
  split
  · exact .done h
  · exact .done h.putTide.grantAccess

/-! ### Functions of Machine/Spdm -/

theorem Keeps.execDoeObject {ep fn obj} (h : Keeps s t) : Answers s (execDoeObject ep fn obj t) :=
  .done (h.configReq (fun hu => .ite hu (.ite hu.setDoe (.ite hu.setDoe.draw hu))))

theorem Keeps.execDoeAbort {ep fn} (h : Keeps s t) : Answers s (execDoeAbort ep fn t) := .done (h.configReq (fun hu => hu.setDoe))

/-! ### Functions of Machine/Dispatch -/

theorem Keeps.exec {i} (h : Keeps s t) : Answers s (exec i t) := by
  cases i with
  | moduleColdReset => exact h.execModuleColdReset
  | moduleWarmReset => exact h.execModuleWarmReset
  | chipletFence => exact h.execChipletFence
  | endpointReset => exact h.execEndpointReset
  | functionResetEnd => exact h.execFunctionResetEnd
  | staleVectorDrop => exact h.execStaleVectorDrop
  | slotQuarantineEnd => exact h.execSlotQuarantineEnd
  | reloadQuiesceLimit => exact h.execReloadQuiesceLimit
  | quantityLowRead => exact h.execQuantityLowRead
  | quantityLowWrite => exact h.execQuantityLowWrite
  | quantityHighWrite => exact h.execQuantityHighWrite
  | rcFieldRead => exact h.execRcFieldRead
  | registerWrite => exact h.execRegisterWrite
  | unassignedAccess => exact h.execUnassignedAccess
  | meshFlitRetry => exact h.execMeshFlitRetry
  | meshLinkFail => exact h.execMeshLinkFail
  | hbmTrainingDone => exact h.execHbmTrainingDone
  | serviceEntry => exact h.execServiceEntry
  | supplyLoss => exact h.execSupplyLoss
  | steerEntryWrite => exact h.execSteerEntryWrite
  | steerEntryMove => exact h.execSteerEntryMove
  | steerBalanceInterval => exact h.execSteerBalanceInterval
  | polCtlWrite => exact h.execPolCtlWrite
  | policyManualApply => exact h.execPolicyManualApply
  | admissionAdapt => exact h.execAdmissionAdapt
  | ecnAdapt => exact h.execEcnAdapt
  | diceHitLimitAdapt => exact h.execDiceHitLimitAdapt
  | dredgeSpeedAdapt => exact h.execDredgeSpeedAdapt
  | slackSkipAdapt => exact h.execSlackSkipAdapt
  | powerCapAdapt => exact h.execPowerCapAdapt
  | timeAdvance => exact h.execTimeAdvance
  | ppsEdge => exact h.execPpsEdge
  | ppsEdgeMissing => exact h.execPpsEdgeMissing
  | tref10Measure => exact h.execTref10Measure
  | tref10EdgeTimeout => exact h.execTref10EdgeTimeout
  | ppsOutRise => exact h.execPpsOutRise
  | ppsOutFall => exact h.execPpsOutFall
  | ptpMessageReceive => exact h.execPtpMessageReceive
  | announceReceiptTimeout => exact h.execAnnounceReceiptTimeout
  | phaseMeasurement => exact h.execPhaseMeasurement
  | holdoverSecond => exact h.execHoldoverSecond
  | timeSet => exact h.execTimeSet
  | timeCorrectionDue => exact h.execTimeCorrectionDue
  | tideBoundary => exact h.execTideBoundary
  | ttbCtlWrite => exact h.execTtbCtlWrite
  | ttbSlotW1Write => exact h.execTtbSlotW1Write
  | ttbSlotW0Write => exact h.execTtbSlotW0Write
  | pendingFiringStart => exact h.execPendingFiringStart
  | fordWindowClose => exact h.execFordWindowClose
  | backgroundStarvationGrant => exact h.execBackgroundStarvationGrant
  | dredgeFiring => exact h.execDredgeFiring
  | dredgeBucketVisit => exact h.execDredgeBucketVisit
  | soundingFiring => exact h.execSoundingFiring
  | auditEpochFlip => exact h.execAuditEpochFlip
  | soundingRepair => exact h.execSoundingRepair
  | soundingAuditEnd => exact h.execSoundingAuditEnd
  | memoryScrubFiring => exact h.execMemoryScrubFiring
  | microcodeRefresh => exact h.execMicrocodeRefresh
  | counterSnapshot => exact h.execCounterSnapshot
  | keyEpoch => exact h.execKeyEpoch
  | slackWaterFiring => exact h.execSlackWaterFiring
  | gateListChangeFiring => exact h.execGateListChangeFiring
  | cycle => exact h.execCycle
  | longStallEnd => exact h.execLongStallEnd
  | add => exact h.execAdd
  | sub => exact h.execSub
  | and => exact h.execAnd
  | or => exact h.execOr
  | xor => exact h.execXor
  | sll => exact h.execSll
  | srl => exact h.execSrl
  | sra => exact h.execSra
  | slt => exact h.execSlt
  | sltu => exact h.execSltu
  | min => exact h.execMin
  | max => exact h.execMax
  | minu => exact h.execMinu
  | maxu => exact h.execMaxu
  | mul => exact h.execMul
  | mulhu => exact h.execMulhu
  | mulh => exact h.execMulh
  | clz => exact h.execClz
  | popc => exact h.execPopc
  | rev8 => exact h.execRev8
  | sextb => exact h.execSextb
  | sexth => exact h.execSexth
  | add1c => exact h.execAdd1c
  | crcw => exact h.execCrcw
  | addi => exact h.execAddi
  | andi => exact h.execAndi
  | ori => exact h.execOri
  | xori => exact h.execXori
  | slti => exact h.execSlti
  | sltiu => exact h.execSltiu
  | lui => exact h.execLui
  | slli => exact h.execSlli
  | srli => exact h.execSrli
  | srai => exact h.execSrai
  | ext => exact h.execExt
  | ins => exact h.execIns
  | beq => exact h.execBeq
  | bne => exact h.execBne
  | blt => exact h.execBlt
  | bge => exact h.execBge
  | bltu => exact h.execBltu
  | bgeu => exact h.execBgeu
  | jal => exact h.execJal
  | jalr => exact h.execJalr
  | ldb => exact h.execLdb
  | ldh => exact h.execLdh
  | ldw => exact h.execLdw
  | ldq => exact h.execLdq
  | stb => exact h.execStb
  | sth => exact h.execSth
  | stw => exact h.execStw
  | stq => exact h.execStq
  | postedStoreComplete => exact h.execPostedStoreComplete
  | aadd => exact h.execAadd
  | aand => exact h.execAand
  | aor => exact h.execAor
  | axor => exact h.execAxor
  | aswp => exact h.execAswp
  | acas => exact h.execAcas
  | amaxu => exact h.execAmaxu
  | aminu => exact h.execAminu
  | bxor => exact h.execBxor
  | band => exact h.execBand
  | bor => exact h.execBor
  | bmov => exact h.execBmov
  | bzero => exact h.execBzero
  | brev => exact h.execBrev
  | binc => exact h.execBinc
  | bmask => exact h.execBmask
  | bput => exact h.execBput
  | bget => exact h.execBget
  | xtsa => exact h.execXtsa
  | gmul => exact h.execGmul
  | tagcmp => exact h.execTagcmp
  | gatedBufferZero => exact h.execGatedBufferZero
  | gatedTransferZeroOverwrite => exact h.execGatedTransferZeroOverwrite
  | gateTimeout => exact h.execGateTimeout
  | aese => exact h.execAese
  | aesd => exact h.execAesd
  | roundUnitDone => exact h.execRoundUnitDone
  | keyFetchDone => exact h.execKeyFetchDone
  | pfetch => exact h.execPfetch
  | payloadBlockArrive => exact h.execPayloadBlockArrive
  | pldb => exact h.execPldb
  | pstb => exact h.execPstb
  | payloadWriteDone => exact h.execPayloadWriteDone
  | pwait => exact h.execPwait
  | dlk => exact h.execDlk
  | dins => exact h.execDins
  | ddel => exact h.execDdel
  | flk => exact h.execFlk
  | fins => exact h.execFins
  | fdel => exact h.execFdel
  | tlk => exact h.execTlk
  | lookupResult => exact h.execLookupResult
  | enq => exact h.execEnq
  | enqm => exact h.execEnqm
  | drop => exact h.execDrop
  | polc => exact h.execPolc
  | hnew => exact h.execHnew
  | dmas => exact h.execDmas
  | dmaw => exact h.execDmaw
  | dmap => exact h.execDmap
  | tstart => exact h.execTstart
  | tstop => exact h.execTstop
  | tset => exact h.execTset
  | tget => exact h.execTget
  | recv => exact h.execRecv
  | yield => exact h.execYield
  | evwait => exact h.execEvwait
  | sig => exact h.execSig
  | halt => exact h.execHalt
  | mfsr => exact h.execMfsr
  | mtsr => exact h.execMtsr
  | mfsh => exact h.execMfsh
  | mtsh => exact h.execMtsh
  | shadd => exact h.execShadd
  | fence => exact h.execFence
  | rnd => exact h.execRnd
  | trap => exact h.execTrap
  | cluStartWrite => exact h.execCluStartWrite
  | threadCmdReset => exact h.execThreadCmdReset
  | threadCmdResetStart => exact h.execThreadCmdResetStart
  | threadCmdStop => exact h.execThreadCmdStop
  | cluFaultPop => exact h.execCluFaultPop
  | cluBufAlloc => exact h.execCluBufAlloc
  | cluBufFree => exact h.execCluBufFree
  | cluConfigWrite => exact h.execCluConfigWrite
  | creditCtlApply => exact h.execCreditCtlApply
  | programStoreWrite => exact h.execProgramStoreWrite
  | rds => exact h.execRds
  | rdo => exact h.execRdo
  | upg => exact h.execUpg
  | wb => exact h.execWb
  | evc => exact h.execEvc
  | dataS => exact h.execDataS
  | dataE => exact h.execDataE
  | grant => exact h.execGrant
  | inv => exact h.execInv
  | fetch => exact h.execFetch
  | ackInv => exact h.execAckInv
  | dataF => exact h.execDataF
  | noneF => exact h.execNoneF
  | ackWb => exact h.execAckWb
  | homeQueueServe => exact h.execHomeQueueServe
  | uncachedCoherentAccess => exact h.execUncachedCoherentAccess
  | linePoison => exact h.execLinePoison
  | sscFlush => exact h.execSscFlush
  | sscFlushDone => exact h.execSscFlushDone
  | verify => exact h.execVerify
  | verifyDone => exact h.execVerifyDone
  | apply => exact h.execApply
  | applyDone => exact h.execApplyDone
  | discard => exact h.execDiscard
  | macFrameReceive => exact h.execMacFrameReceive
  | sideBufferRelease => exact h.execSideBufferRelease
  | vectorSteerSend => exact h.execVectorSteerSend
  | intakeCreditReturn => exact h.execIntakeCreditReturn
  | learn => exact h.execLearn
  | vectorDispatch => exact h.execVectorDispatch
  | diceTdefWrite => exact h.execDiceTdefWrite
  | lookup => exact h.execLookup
  | insert => exact h.execInsert
  | delete => exact h.execDelete
  | update => exact h.execUpdate
  | purge => exact h.execPurge
  | purgeBucketVisit => exact h.execPurgeBucketVisit
  | flowCtlWrite => exact h.execFlowCtlWrite
  | flowTableClearDone => exact h.execFlowTableClearDone
  | flowCacheWriteback => exact h.execFlowCacheWriteback
  | flowHomeWrite => exact h.execFlowHomeWrite
  | deltaAdd => exact h.execDeltaAdd
  | deltaDel => exact h.execDeltaDel
  | deltaUpdateDone => exact h.execDeltaUpdateDone
  | enqueueCommit => exact h.execEnqueueCommit
  | spillDepthLand => exact h.execSpillDepthLand
  | seqSkipTimeout => exact h.execSeqSkipTimeout
  | reclaimToFree => exact h.execReclaimToFree
  | bookSnap => exact h.execBookSnap
  | replication => exact h.execReplication
  | mcGroupW1Write => exact h.execMcGroupW1Write
  | mcGroupCommit => exact h.execMcGroupCommit
  | schedulerRelease => exact h.execSchedulerRelease
  | debitLand => exact h.execDebitLand
  | bucketRefill => exact h.execBucketRefill
  | parentBandApply => exact h.execParentBandApply
  | shaperConfigWrite => exact h.execShaperConfigWrite
  | policerConfigWrite => exact h.execPolicerConfigWrite
  | gateArm => exact h.execGateArm
  | gateListSwap => exact h.execGateListSwap
  | gateIntervalEnd => exact h.execGateIntervalEnd
  | gaugePass => exact h.execGaugePass
  | gaugeRecordWrite => exact h.execGaugeRecordWrite
  | gauCtlWrite => exact h.execGauCtlWrite
  | install => exact h.execInstall
  | revoke => exact h.execRevoke
  | keyRead => exact h.execKeyRead
  | keyCommandDone => exact h.execKeyCommandDone
  | dieHealthFail => exact h.execDieHealthFail
  | dieRestart => exact h.execDieRestart
  | dieRestartDone => exact h.execDieRestartDone
  | drbgReseed => exact h.execDrbgReseed
  | sqNextRead => exact h.execSqNextRead
  | sqConfigWrite => exact h.execSqConfigWrite
  | scheduledRevoke => exact h.execScheduledRevoke
  | sqEvqRead => exact h.execSqEvqRead
  | ccEnSet => exact h.execCcEnSet
  | controllerReady => exact h.execControllerReady
  | ccEnClear => exact h.execCcEnClear
  | ccShnWrite => exact h.execCcShnWrite
  | shutdownComplete => exact h.execShutdownComplete
  | sqTailDoorbell => exact h.execSqTailDoorbell
  | cqHeadDoorbell => exact h.execCqHeadDoorbell
  | submissionFetch => exact h.execSubmissionFetch
  | holdTimeout => exact h.execHoldTimeout
  | identify => exact h.execIdentify
  | getLogPage => exact h.execGetLogPage
  | setFeatures => exact h.execSetFeatures
  | getFeatures => exact h.execGetFeatures
  | createIoSubmissionQueue => exact h.execCreateIoSubmissionQueue
  | createIoCompletionQueue => exact h.execCreateIoCompletionQueue
  | deleteIoSubmissionQueue => exact h.execDeleteIoSubmissionQueue
  | deleteIoCompletionQueue => exact h.execDeleteIoCompletionQueue
  | nvmeAbort => exact h.execNvmeAbort
  | asynchronousEventRequest => exact h.execAsynchronousEventRequest
  | nvmeRead => exact h.execNvmeRead
  | nvmeWrite => exact h.execNvmeWrite
  | writeZeroes => exact h.execWriteZeroes
  | flush => exact h.execFlush
  | flushComplete => exact h.execFlushComplete
  | datasetManagement => exact h.execDatasetManagement
  | stoCplWrite => exact h.execStoCplWrite
  | completionEntryWrite => exact h.execCompletionEntryWrite
  | stgAlloc => exact h.execStgAlloc
  | stgFree => exact h.execStgFree
  | stoEvqRead => exact h.execStoEvqRead
  | extWrite => exact h.execExtWrite
  | extRead => exact h.execExtRead
  | nsWrite => exact h.execNsWrite
  | nsRead => exact h.execNsRead
  | mapWrite => exact h.execMapWrite
  | mapRead => exact h.execMapRead
  | pcieLinkUp => exact h.execPcieLinkUp
  | pcieLinkDown => exact h.execPcieLinkDown
  | configReady => exact h.execConfigReady
  | flr => exact h.execFlr
  | vfReset => exact h.execVfReset
  | vfEnableSet => exact h.execVfEnableSet
  | vfEnableClear => exact h.execVfEnableClear
  | atsInvalidate => exact h.execAtsInvalidate
  | doeObject => exact h.execDoeObject
  | doeAbort => exact h.execDoeAbort
  | pmStateWrite => exact h.execPmStateWrite
  | pf1Bar0Request => exact h.execPf1Bar0Request
  | apBaseWrite => exact h.execApBaseWrite
  | msixEvent => exact h.execMsixEvent
  | msixUnmask => exact h.execMsixUnmask
  | ferryUpGo => exact h.execFerryUpGo
  | ferryDnGo => exact h.execFerryDnGo
  | ferryDnTake => exact h.execFerryDnTake
  | ferryUpTake => exact h.execFerryUpTake
  | ferryMsgWrite => exact h.execFerryMsgWrite
  | ringTxdb => exact h.execRingTxdb
  | ringRxdb => exact h.execRingRxdb
  | pendingDoorbellApply => exact h.execPendingDoorbellApply
  | ringArm => exact h.execRingArm
  | descriptorFetch => exact h.execDescriptorFetch
  | txDataReadStart => exact h.execTxDataReadStart
  | txDataReadDone => exact h.execTxDataReadDone
  | rxFrameWrite => exact h.execRxFrameWrite
  | descriptorComplete => exact h.execDescriptorComplete
  | dmaDescriptorStart => exact h.execDmaDescriptorStart
  | dmaDescriptorEnd => exact h.execDmaDescriptorEnd
  | pacedBurstStart => exact h.execPacedBurstStart
  | dmaAbort => exact h.execDmaAbort
  | dmaAbortAll => exact h.execDmaAbortAll
  | qviewRead => exact h.execQviewRead
  | freeze => exact h.execFreeze
  | quiescentPoint => exact h.execQuiescentPoint
  | freezeTimeout => exact h.execFreezeTimeout
  | save => exact h.execSave
  | saveDone => exact h.execSaveDone
  | restore => exact h.execRestore
  | restoreDone => exact h.execRestoreDone
  | thaw => exact h.execThaw
  | insRateWrite => exact h.execInsRateWrite
  | portCfgWrite => exact h.execPortCfgWrite
  | linkUp => exact h.execLinkUp
  | linkDown => exact h.execLinkDown
  | macFrameTransmit => exact h.execMacFrameTransmit
  | pauseFrameReceive => exact h.execPauseFrameReceive
  | pauseTimerExpire => exact h.execPauseTimerExpire
  | pfcXoffSend => exact h.execPfcXoffSend
  | pfcRefreshSend => exact h.execPfcRefreshSend
  | pfcXonSend => exact h.execPfcXonSend
  | txtsRead => exact h.execTxtsRead
  | lpiEnter => exact h.execLpiEnter
  | lldpTransmit => exact h.execLldpTransmit
  | lldpInfoExpire => exact h.execLldpInfoExpire
  | slackOffer => exact h.execSlackOffer
  | slackAccept => exact h.execSlackAccept
  | slackWithdraw => exact h.execSlackWithdraw
  | slackScheduleStart => exact h.execSlackScheduleStart
  | slackWakeStart => exact h.execSlackWakeStart
  | slackFirstSymbol => exact h.execSlackFirstSymbol
  | slackRendezvousMiss => exact h.execSlackRendezvousMiss
  | slackAlignTimeout => exact h.execSlackAlignTimeout
  | attachControlFrameSend => exact h.execAttachControlFrameSend
  | attachControlFrameReceive => exact h.execAttachControlFrameReceive
  | discGo => exact h.execDiscGo
  | discoveryWalk => exact h.execDiscoveryWalk
  | probeAnswer => exact h.execProbeAnswer
  | probeTimeout => exact h.execProbeTimeout
  | discoveryWalkEnd => exact h.execDiscoveryWalkEnd
  | lcChalNew => exact h.execLcChalNew
  | provision => exact h.execProvision
  | deploy => exact h.execDeploy
  | lcReturn => exact h.execLcReturn
  | observe => exact h.execObserve
  | intrude => exact h.execIntrude
  | vaultWriteToken => exact h.execVaultWriteToken
  | debugOff => exact h.execDebugOff
  | debugExpiry => exact h.execDebugExpiry
  | vaultWrite => exact h.execVaultWrite
  | vaultRead => exact h.execVaultRead
  | commitTokenRefill => exact h.execCommitTokenRefill
  | vaultCopyWriteDone => exact h.execVaultCopyWriteDone
  | powerFailWarning => exact h.execPowerFailWarning
  | active => exact h.execActive
  | drowse => exact h.execDrowse
  | hold => exact h.execHold
  | holdWake => exact h.execHoldWake
  | powerGovernorInterval => exact h.execPowerGovernorInterval
  | thermalTrip => exact h.execThermalTrip
  | hbmSelfRefresh => exact h.execHbmSelfRefresh
  | troubleEvent => exact h.execTroubleEvent
  | logAppend => exact h.execLogAppend
  | historyEntryRead => exact h.execHistoryEntryRead
  | trbForce => exact h.execTrbForce
  | trbInjArm => exact h.execTrbInjArm
  | injectedFaultApply => exact h.execInjectedFaultApply
  | logClear => exact h.execLogClear
  | eventCount => exact h.execEventCount
  | cntClear => exact h.execCntClear
  | erase => exact h.execErase
  | program => exact h.execProgram
  | flashRead => exact h.execFlashRead
  | flashCommandDone => exact h.execFlashCommandDone
  | slackWindowEnd => exact h.execSlackWindowEnd
  | completionTimeout => exact h.execCompletionTimeout
  | submit => exact h.execSubmit
  | mctpRequest => exact h.execMctpRequest
  | descriptorFetchDone => exact h.execDescriptorFetchDone
  | diceCommandDone => exact h.execDiceCommandDone

/-! ### The step -/

/-- One step answers a next state. It takes its command off the queue, which is none of the memories, and then does what `exec` does. -/
theorem step_answers (s : State) : ∃ t, step s = .next t ∧ (s.MemoryOk → t.MemoryOk) := by
  unfold step
  split
  · exact ⟨s, rfl, id⟩
  · next i rest _ =>
    obtain ⟨t, ht, hk⟩ := (Keeps.refl { s with pending := rest }).exec (i := i)
    exact ⟨t, ht, hk.memory⟩

/-- Settles O7: every meaning is built of operations that keep the canonical forms (`Keeps.exec`). -/
theorem memoriesStayCanonical : Obligations.MemoriesStayCanonical := by
  intro s t hs hst
  obtain ⟨t', ht', hmem⟩ := step_answers s
  rw [ht'] at hst
  cases hst
  exact hmem hs

end Sys2Proof.Machine

end

section
namespace Sys2Proof.Machine

/-- Reset lists no register, so a register reads as its table's Reset column. -/
theorem State.reset_rd (r : Reg) (i : Nat) : State.reset.rd r i = resetAt r i := by
  have hix : regKey r i / 1024 = i := by have := Reg.ctorIdx_lt r; unfold regKey; omega
  calc State.reset.rd r i = resetAt (regOfKey (regKey r i)) (regKey r i / 1024) := Tbl.get_nil regReset _
    _ = resetAt r i := by rw [regOfKey_regKey, hix]

/-- Every memory lists nothing after reset, and a table that lists nothing is in canonical form. -/
theorem State.reset_memoryOk : State.reset.MemoryOk := ⟨rfl, rfl, rfl, rfl, rfl, rfl, rfl⟩

/-- Settles O2: each register by `State.reset_rd` and its table, the memories by `State.reset_memoryOk`. -/
theorem resetState : Obligations.ResetState := by
  unfold Obligations.ResetState
  simp only [State.reset_rd]
  exact ⟨rfl, rfl, rfl, rfl, rfl, rfl, rfl, rfl, rfl, rfl, rfl, rfl, rfl, rfl, rfl, rfl, rfl, rfl, rfl, rfl, rfl, rfl, rfl, rfl,
    rfl, rfl, rfl, rfl, State.reset_memoryOk⟩

end Sys2Proof.Machine
end

section
namespace Sys2Proof.Machine

/-- A state in which ring 0 of the Gauge has taken a record: its PROD is 1. -/
def gaugeRecordState : State := State.reset.setFld F.GAU_PROD.INDEX 0 1

theorem State.fld_answer (s : State) (r : Reply) (f : Fld) (i : Nat) : (s.answer r).fld f i = s.fld f i := rfl

theorem State.prod_gaugeZero (s : State) (r : Nat) : (s.gaugeZero r).fld F.GAU_PROD.INDEX r = 0 := by
  rw [State.gaugeZero, State.fld_setFld_ne (hd := .inl (by decide)) (h := ⟨by decide, by decide⟩),
    State.fld_setFld_same (h := ⟨by decide, by decide⟩), Nat.zero_mod]

/-- A write of the high word of GAU_BASE zeroes PROD (R323). -/
theorem prod_quantityHighWrite_gauBase (s t : State) (i : Nat) (v : Word) (hhere : s.reachable (regChip .GAU_BASE i) = true)
    (h : exec (.quantityHighWrite .GAU_BASE i v) s = .next t) : t.fld F.GAU_PROD.INDEX i = 0 := by
  have hexec : exec (.quantityHighWrite .GAU_BASE i v) s = .next (((s.highWrite .GAU_BASE .GAU_BASE_HI i v).gaugeZero i).answer .ok) :=
    congrArg Host.Outcome.next (if_pos hhere)
  rw [hexec] at h
  cases h
  rw [State.fld_answer, State.prod_gaugeZero]

/-- Refutes O59: QUANTITY_HIGH_WRITE of GAU_BASE zeroes GAU_PROD and GAU_CONS too (R323), which are not the two words of the quantity. -/
theorem not_registerAccess : ¬ Obligations.RegisterAccess := by
  unfold Obligations.RegisterAccess
  intro h
  have hhere : gaugeRecordState.reachable (regChip .GAU_BASE 0) = true := by decide
  have hprod : gaugeRecordState.fld F.GAU_PROD.INDEX 0 = 1 := by decide
  obtain ⟨-, -, hhigh, -⟩ := h gaugeRecordState .GAU_BASE .GAU_BASE_HI 0 0 0 0 0 .firmware 0 0 [] false 0 0 0 false
  obtain ⟨t, ht, -, -, -, -, -, -, hkept⟩ := hhigh rfl hhere (by decide)
  have hone : t.fld F.GAU_PROD.INDEX 0 = 1 := by
    rw [State.fld, hkept _ _ (by decide)]
    exact hprod
  rw [prod_quantityHighWrite_gauBase _ t 0 0 hhere ht] at hone
  exact absurd hone (by decide)

end Sys2Proof.Machine
end

section
namespace Sys2Proof.Machine

/-! ## Registers: what a write of a field leaves -/

theorem fieldOf_whole (w : Word) : fieldOf w 31 0 = w.toNat := by
  have := w.isLt
  simp only [fieldOf, bits, Nat.shiftRight_zero]
  omega

theorem State.rd_setFld_reg_ne (s : State) (f : Fld) (i v : Nat) (q : Reg) (j : Nat) (h : f.reg ≠ q) :
    (s.setFld f i v).rd q j = s.rd q j := by
  rw [State.rd_setFld, if_neg fun e => h e.1]

theorem State.fld_setFld_reg_ne (s : State) (f g : Fld) (i j v : Nat) (h : f.reg ≠ g.reg) :
    (s.setFld f i v).fld g j = s.fld g j := by
  rw [State.fld, State.rd_setFld_reg_ne _ _ _ _ _ _ h, ← State.fld]

theorem State.fld_setFld_bits_ne (s : State) (f g : Fld) (i j v : Nat) (h : f.lo ≤ f.hi ∧ f.hi < 32) (hd : f.hi < g.lo ∨ g.hi < f.lo) :
    (s.setFld f i v).fld g j = s.fld g j :=
  s.fld_setFld_ne f g i j v h (.inr (.inr hd))

/-- A field after a write of a value that it can hold. -/
theorem State.fld_setFld_eq (s : State) (f : Fld) (i v : Nat) (h : f.lo ≤ f.hi ∧ f.hi < 32) (hv : v < 2 ^ (f.hi + 1 - f.lo)) :
    (s.setFld f i v).fld f i = v := by
  rw [State.fld_setFld_same _ _ _ _ h, Nat.mod_eq_of_lt hv]

theorem satAdd_eq_min (m a b : Nat) : satAdd m a b = Nat.min m (a + b) := by
  change _ = min m (a + b)
  unfold satAdd
  split <;> omega

/-- A counter field after its increment stays at its largest value (R7). -/
theorem State.fld_satInc_one (s : State) (f : Fld) (i : Nat) (h : f.lo ≤ f.hi ∧ f.hi < 32) :
    (s.satInc f i 1).fld f i = Nat.min f.max (s.fld f i + 1) := by
  have hmin : Nat.min f.max (s.fld f i + 1) ≤ 2 ^ (f.hi + 1 - f.lo) - 1 := Nat.min_le_left _ _
  have hpos : 0 < 2 ^ (f.hi + 1 - f.lo) := Nat.two_pow_pos _
  rw [State.satInc, satAdd_eq_min, State.fld_setFld_eq _ _ _ _ h (by omega)]

/-! ## Register words outside a list -/

theorem RegsKept.refl (s : State) (l : List (Reg × Nat)) : RegsKept s s l := fun _ _ _ => rfl

theorem RegsKept.trans {s t u : State} {l : List (Reg × Nat)} (h : RegsKept s t l) (k : RegsKept t u l) : RegsKept s u l :=
  fun r i hr => (k r i hr).trans (h r i hr)

theorem RegsKept.setFld {s t : State} {l : List (Reg × Nat)} (h : RegsKept s t l) (f : Fld) (i v : Nat) (hm : (f.reg, i) ∈ l) :
    RegsKept s (t.setFld f i v) l := by
  refine h.trans fun r j hr => ?_
  rw [State.rd_setFld, if_neg]
  rintro ⟨rfl, rfl⟩
  exact hr hm

theorem RegsKept.of_regs {s t u : State} {l : List (Reg × Nat)} (h : RegsKept s t l) (e : u.regs = t.regs) : RegsKept s u l :=
  fun r i hr => (congrArg (fun x => Tbl.get regReset x (regKey r i)) e).trans (h r i hr)

theorem RegsKept.fld {s t : State} {l : List (Reg × Nat)} (h : RegsKept s t l) (f : Fld) (i : Nat) (hm : (f.reg, i) ∉ l) :
    t.fld f i = s.fld f i := by rw [State.fld, h _ _ hm, State.fld]

theorem OnlyRegs.refl (s : State) (l : List (Reg × Nat)) : OnlyRegs s s l := ⟨rfl, .refl s l⟩

theorem OnlyRegs.setFld {s t : State} {l : List (Reg × Nat)} (h : OnlyRegs s t l) (f : Fld) (i v : Nat) (hm : (f.reg, i) ∈ l) :
    OnlyRegs s (t.setFld f i v) l := by
  obtain ⟨heq, hkept⟩ := h
  exact ⟨by rw [heq]; rfl, hkept.setFld f i v hm⟩

theorem OnlyRegs.answer {s t : State} {l : List (Reg × Nat)} (h : OnlyRegs s t l) (r : Reply) : OnlyRegs (s.answer r) (t.answer r) l := by
  obtain ⟨heq, hkept⟩ := h
  exact ⟨by rw [heq]; rfl, fun q i hq => hkept q i hq⟩

/-! ## Commands and the chiplet they go to (R22, R26) -/

theorem State.atChip_reachable (s : State) (chip : Nat) (f : State → State) (h : s.reachable chip = true) :
    s.atChip chip f = (f s).answer .ok := if_pos h

theorem State.atChip_unreachable (s : State) (chip : Nat) (f : State → State) (h : s.reachable chip = false) :
    s.atChip chip f = s.answer .busError := if_neg (by simp [h])

/-- A command completes with the state that its meaning is done with. -/
theorem Completes.of_eq {i : Instr} {s t : State} {P : State → Prop} (he : exec i s = done t) (h : P t) : Completes i s P := ⟨t, he, h⟩

end Sys2Proof.Machine
end

section
namespace Sys2Proof.Machine

/-! ## The adaptive policies (R43, R47 to R50) -/

theorem State.polValue_eq (s : State) (p : Nat) : s.polValue p = (s.rd .POL_CUR p).toNat := fieldOf_whole _

/-- The value of policy p has become n, and the change is counted in CHANGES if it is one (R43, R47); the mode and every other register
but the temperatures that HDW_PWR_TEMP shows stand. -/
def Adapted (s t : State) (p n : Nat) : Prop :=
  (t.rd .POL_CUR p).toNat = n ∧ RegsKept s t [(.POL_CUR, p), (.POL_CTL, p), (.HDW_PWR_TEMP, 0)]
    ∧ t.fld F.POL_CTL.MODE p = 0
    ∧ t.fld F.POL_CTL.CHANGES p
      = if n = (s.rd .POL_CUR p).toNat then s.fld F.POL_CTL.CHANGES p else Nat.min 255 (s.fld F.POL_CTL.CHANGES p + 1)

/-- A command that brings policy p to n whenever the device may change the policy. -/
def Adapts (i : Instr) (s : State) (p n : Nat) : Prop :=
  s.fld F.POL_CTL.MODE p = 0 → s.mayAdapt p = true → n < 2 ^ 32 → Completes i s (fun t => Adapted s t p n)

theorem Adapted.refl (s : State) (p : Nat) (h : s.fld F.POL_CTL.MODE p = 0) : Adapted s s p (s.rd .POL_CUR p).toNat :=
  ⟨rfl, .refl _ _, h, (if_pos rfl).symm⟩

theorem Adapted.of_regs {s t u : State} {p n : Nat} (h : Adapted s t p n) (e : u.regs = t.regs) : Adapted s u p n := by
  have hrd : ∀ r i, u.rd r i = t.rd r i := fun r i => congrArg (fun x => Tbl.get regReset x (regKey r i)) e
  obtain ⟨hval, hkept, hmode, hchanges⟩ := h
  exact ⟨by rw [hrd]; exact hval, hkept.of_regs e, by rw [State.fld, hrd]; exact hmode, by rw [State.fld, hrd]; exact hchanges⟩

theorem clamp_of_mem {lo hi v : Nat} (h : lo ≤ v) (h' : v ≤ hi) : clamp lo hi v = v := by
  rw [clamp, if_neg (by omega), if_neg (by omega)]

/-- An adaptation to a value in the range (R43, R47). -/
theorem State.adapted_adapt (s : State) {p lo hi n : Nat} (hmode : s.fld F.POL_CTL.MODE p = 0) (hmay : s.mayAdapt p = true)
    (hlo : lo ≤ n) (hhi : n ≤ hi) (hn : n < 2 ^ 32) : Adapted s (s.adapt p lo hi n) p n := by
  simp only [State.adapt, clamp_of_mem hlo hhi, hmay, State.polValue_eq]
  by_cases hsame : n = (s.rd .POL_CUR p).toNat
  · rw [hsame, if_pos (by simp)]
    exact .refl s p hmode
  · rw [if_neg (by simpa using hsame)]
    refine ⟨?_, ?_, ?_, ?_⟩
    · rw [State.satInc, State.rd_setFld_reg_ne _ _ _ _ _ _ (by decide), ← fieldOf_whole]
      exact State.fld_setFld_eq _ F.POL_CUR.VALUE p n (by decide) hn
    · exact ((RegsKept.refl s _).setFld F.POL_CUR.VALUE p n (by simp [F.POL_CUR.VALUE])).setFld F.POL_CTL.CHANGES p _ (by simp [F.POL_CTL.CHANGES])
    · rw [State.satInc, State.fld_setFld_bits_ne _ _ _ _ _ _ (by decide) (by decide), State.fld_setFld_reg_ne _ _ _ _ _ _ (by decide)]
      exact hmode
    · rw [State.fld_satInc_one _ _ _ (by decide), State.fld_setFld_reg_ne _ _ _ _ _ _ (by decide), if_neg hsame]
      rfl

/-- ADMISSION_ADAPT (R268): the event's outcome is that of its adaptation, since its watch of the free book is no register. -/
theorem adapts_admission_down (s : State) (hlow : s.cfl.admLow = true) (h : 8 < (s.rd .POL_CUR 0).toNat) (h' : (s.rd .POL_CUR 0).toNat ≤ 33) :
    Adapts .admissionAdapt s 0 ((s.rd .POL_CUR 0).toNat - 1) := by
  intro hmode hmay hn
  have hadapt := s.adapted_adapt (lo := 8) (hi := 32) hmode hmay (by omega) (by omega) hn
  refine ⟨_, rfl, Adapted.of_regs hadapt ?_⟩
  simp [State.watchFree, hlow, State.polValue_eq]

theorem adapts_admission_up (s : State) (hlow : s.cfl.admLow = false) (href : s.cfl.admRefused = true) (h : 8 ≤ (s.rd .POL_CUR 0).toNat)
    (h' : (s.rd .POL_CUR 0).toNat < 32) : Adapts .admissionAdapt s 0 ((s.rd .POL_CUR 0).toNat + 1) := by
  intro hmode hmay hn
  have hadapt := s.adapted_adapt (lo := 8) (hi := 32) hmode hmay (by omega) (by omega) hn
  refine ⟨_, rfl, Adapted.of_regs hadapt ?_⟩
  simp [State.watchFree, hlow, href, State.polValue_eq]

/-- The value that ECN_ADAPT brings the congestion policy to (R312). -/
def State.ecnTarget (s : State) : Nat :=
  if s.cfl.ecnLow then s.polValue 1 - s.polValue 1 / 16
  else if s.cfl.ecnMark && !s.cfl.ecnDip then s.polValue 1 + s.polValue 1 / 16 else s.polValue 1

theorem adapts_ecn (s : State) (n : Nat) (hn : n = s.ecnTarget) (h : 5000 ≤ n) (h' : n ≤ 100000) : Adapts .ecnAdapt s 1 n := by
  intro hmode hmay hlt
  subst hn
  refine ⟨_, rfl, (s.adapted_adapt hmode hmay h h' hlt).of_regs ?_⟩
  simp [State.watchFree, State.ecnTarget]

theorem adapts_diceHitLimit (s : State) (b : BitVec 3) (q : Nat) (hq : q = 2 + b.toNat)
    (hhit : Tbl.get (fun _ => false) s.look.limitHit b.toNat = true) (h : 24 ≤ (s.rd .POL_CUR q).toNat) (h' : (s.rd .POL_CUR q).toNat ≤ 60) :
    Adapts (.diceHitLimitAdapt b) s q ((s.rd .POL_CUR q).toNat + 4) := by
  subst hq
  intro hmode hmay hn
  have hadapt := s.adapted_adapt (lo := 24) (hi := 64) hmode hmay (by omega) (by omega) hn
  refine ⟨_, rfl, Adapted.of_regs hadapt ?_⟩
  simp [hhit, State.polValue_eq]

theorem adapts_dredge_up (s : State) (b : BitVec 3) (q : Nat) (hq : q = 10 + b.toNat)
    (hused : 524288 * 7 < s.fld F.BRD_DICE_STAT.USED b.toNat * 8) (h : 2 ≤ (s.rd .POL_CUR q).toNat) (h' : (s.rd .POL_CUR q).toNat ≤ 32) :
    Adapts (.dredgeSpeedAdapt b) s q ((s.rd .POL_CUR q).toNat * 2) := by
  subst hq
  intro hmode hmay hn
  refine .of_eq (congrArg done (if_pos hused)) ?_
  rw [State.polValue_eq]
  exact s.adapted_adapt hmode hmay (by omega) (by omega) hn

theorem adapts_dredge_down (s : State) (b : BitVec 3) (q : Nat) (hq : q = 10 + b.toNat)
    (hused : s.fld F.BRD_DICE_STAT.USED b.toNat * 4 < 524288 * 3) (h : 8 ≤ (s.rd .POL_CUR q).toNat) (h' : (s.rd .POL_CUR q).toNat ≤ 128) :
    Adapts (.dredgeSpeedAdapt b) s q ((s.rd .POL_CUR q).toNat / 2) := by
  subst hq
  intro hmode hmay hn
  refine .of_eq (congrArg done ((if_neg ?_).trans (if_pos hused))) ?_
  · simp only [partitionSlots]; omega
  · rw [State.polValue_eq]
    exact s.adapted_adapt hmode hmay (by omega) (by omega) hn

theorem adapts_slack_up (s : State) (link : MacPort) (n : Nat) (hn : 500 < n) (h : 1 ≤ (s.rd .POL_CUR (slackPol link)).toNat)
    (h' : (s.rd .POL_CUR (slackPol link)).toNat ≤ 127) :
    Adapts (.slackSkipAdapt link n) s (slackPol link) ((s.rd .POL_CUR (slackPol link)).toNat * 2) := by
  intro hmode hmay hlt
  refine .of_eq (congrArg done (if_pos hn)) ?_
  rw [State.polValue_eq]
  exact s.adapted_adapt hmode hmay (by omega) (by omega) hlt

theorem adapts_slack_down (s : State) (link : MacPort) (n : Nat) (hn : n < 100) (h : 2 ≤ (s.rd .POL_CUR (slackPol link)).toNat)
    (h' : (s.rd .POL_CUR (slackPol link)).toNat ≤ 255) :
    Adapts (.slackSkipAdapt link n) s (slackPol link) ((s.rd .POL_CUR (slackPol link)).toNat / 2) := by
  intro hmode hmay hlt
  refine .of_eq (congrArg done ((if_neg (by omega)).trans (if_pos hn))) ?_
  rw [State.polValue_eq]
  exact s.adapted_adapt hmode hmay (by omega) (by omega) hlt

theorem adapts_slack_same (s : State) (link : MacPort) (n : Nat) (hn : 100 ≤ n) (h' : n ≤ 500) :
    Adapts (.slackSkipAdapt link n) s (slackPol link) (s.rd .POL_CUR (slackPol link)).toNat := fun hmode _ _ =>
  .of_eq (congrArg done ((if_neg (by omega)).trans (if_neg (by omega)))) (.refl s _ hmode)

/-- The state in which HDW_PWR_TEMP shows the temperatures of a POWER_CAP_ADAPT (R530). -/
def State.showTemps (s : State) (tj tc : BitVec 8) : State :=
  (s.setFld F.HDW_PWR_TEMP.TJ 0 tj.toNat).setFld F.HDW_PWR_TEMP.TC 0 tc.toNat

theorem State.rd_showTemps (s : State) (tj tc : BitVec 8) (r : Reg) (i : Nat) (h : .HDW_PWR_TEMP ≠ r) :
    (s.showTemps tj tc).rd r i = s.rd r i :=
  (State.rd_setFld_reg_ne _ _ _ _ _ _ h).trans (State.rd_setFld_reg_ne _ _ _ _ _ _ h)

theorem State.adapted_showTemps (s t : State) (tj tc : BitVec 8) (p n : Nat) (h : Adapted (s.showTemps tj tc) t p n) : Adapted s t p n := by
  obtain ⟨hval, hkept, hmode, hchanges⟩ := h
  have htemps : RegsKept s (s.showTemps tj tc) [(.POL_CUR, p), (.POL_CTL, p), (.HDW_PWR_TEMP, 0)] :=
    ((RegsKept.refl s _).setFld F.HDW_PWR_TEMP.TJ 0 _ (by simp [F.HDW_PWR_TEMP.TJ])).setFld F.HDW_PWR_TEMP.TC 0 _ (by simp [F.HDW_PWR_TEMP.TC])
  refine ⟨hval, htemps.trans hkept, hmode, ?_⟩
  rw [hchanges, State.fld, State.fld, State.rd_showTemps _ _ _ _ _ (by decide), State.rd_showTemps _ _ _ _ _ (by decide)]

/-- The power policy adapts where HDW_PWR_TEMP shows the new temperatures (R525, R530). -/
theorem adapts_powerCap (s : State) (tj tc : BitVec 8) (n : Nat) (hlo : 1000 ≤ n) (hhi : n ≤ 1800)
    (he : exec (.powerCapAdapt tj tc) s = done ((s.showTemps tj tc).adapt powerPol 1000 1800 n)) :
    Adapts (.powerCapAdapt tj tc) s 310 n := by
  intro hmode hmay hn
  refine .of_eq he (s.adapted_showTemps _ tj tc _ _ (State.adapted_adapt _ ?_ ?_ hlo hhi hn))
  · rw [State.fld, State.rd_showTemps _ _ _ _ _ (by decide)]; exact hmode
  · have : (s.showTemps tj tc).mayAdapt powerPol = s.mayAdapt powerPol := by
      simp only [State.mayAdapt, State.polMode, State.fld, State.rd_showTemps _ _ _ _ _ (show Reg.HDW_PWR_TEMP ≠ F.POL_CTL.MODE.reg by decide)]
      rfl
    rw [this]; exact hmay

theorem exec_powerCapAdapt_hot (s : State) (tj tc : BitVec 8) (hon : s.trust.power = .on) (hhot : 105 ≤ tj.toNat ∨ 72 ≤ tc.toNat) :
    exec (.powerCapAdapt tj tc) s = done ((s.showTemps tj tc).adapt powerPol 1000 1800 ((s.rd .POL_CUR 310).toNat - 50)) := by
  have hval : (s.showTemps tj tc).polValue powerPol = (s.rd .POL_CUR 310).toNat := by
    rw [State.polValue_eq, State.rd_showTemps _ _ _ _ _ (by decide)]; rfl
  rw [← hval]
  exact congrArg done ((if_neg (not_not_intro hon)).trans (if_pos hhot))

theorem exec_powerCapAdapt_cool (s : State) (tj tc : BitVec 8) (hon : s.trust.power = .on) (htj : tj.toNat < 95) (htc : tc.toNat < 68) :
    exec (.powerCapAdapt tj tc) s = done ((s.showTemps tj tc).adapt powerPol 1000 1800 ((s.rd .POL_CUR 310).toNat + 50)) := by
  have hval : (s.showTemps tj tc).polValue powerPol = (s.rd .POL_CUR 310).toNat := by
    rw [State.polValue_eq, State.rd_showTemps _ _ _ _ _ (by decide)]; rfl
  rw [← hval]
  exact congrArg done ((if_neg (not_not_intro hon)).trans ((if_neg (by omega)).trans (if_pos ⟨htj, htc⟩)))

end Sys2Proof.Machine
end

section
namespace Sys2Proof.Machine

/-! ## Software writes of a policy (R43, R48 to R51) -/

theorem State.time_polWritten (s : State) (p : Nat) : (s.polWritten p).time = s.time := by
  by_cases h : (s.polTurn p).changed = s.time.tick + 1 <;> simp [State.polWritten, State.setPolTurn, h]

theorem State.polTurn_setPolTurn (s : State) (p : Nat) (x : PolTurn) : (s.setPolTurn p x).polTurn p = x := Tbl.get_set_same _ _ _ _

theorem State.polTurn_polWritten (s : State) (p : Nat) : ((s.polWritten p).polTurn p).written = s.time.tick + 1 := by
  by_cases h : (s.polTurn p).changed = s.time.tick + 1 <;> simp [State.polWritten, State.polTurn_setPolTurn, h]

/-- After a software write the device may not change the policy in the same clock (R50). -/
theorem State.mayAdapt_of_written (s : State) (p : Nat) (h : (s.polTurn p).written = s.time.tick + 1) : s.mayAdapt p = false := by
  simp [State.mayAdapt, h]

theorem State.rd_polWritten_kept (s : State) (p : Nat) (h : (s.polTurn p).changed ≠ s.time.tick + 1) (r : Reg) (i : Nat) :
    (s.polWritten p).rd r i = s.rd r i := by
  simp only [State.polWritten, if_neg h]; rfl

/-- The change of the same clock is discarded (R50): value and control word are those that it found. -/
theorem State.rd_polWritten_discards (s : State) (p : Nat) (h : (s.polTurn p).changed = s.time.tick + 1) :
    (s.polWritten p).rd .POL_CUR p = (s.polTurn p).cur ∧ (s.polWritten p).rd .POL_CTL p = (s.polTurn p).ctl := by
  have hrd : ∀ r, (s.polWritten p).rd r p = ((s.wr .POL_CUR p (s.polTurn p).cur).wr .POL_CTL p (s.polTurn p).ctl).rd r p := fun r => by
    simp only [State.polWritten, if_pos h]; rfl
  exact ⟨by rw [hrd, State.rd_wr_ne _ _ _ _ _ _ (by simp), State.rd_wr_same], by rw [hrd, State.rd_wr_same]⟩

/-- A write of POL_CTL with a mode (R48). -/
theorem exec_polCtlWrite_mode (s : State) (p : Nat) (v : BitVec 32) (hhere : s.reachable (polChip p) = true) (hv : v.toNat % 4 ≠ 3) :
    exec (.polCtlWrite p v) s = done (((s.polWritten p).setFld F.POL_CTL.MODE p (v.toNat % 4)).answer .ok) :=
  congrArg done ((s.atChip_reachable _ _ hhere).trans (congrArg (State.answer · .ok) (if_neg hv)))

theorem polCtlWrite_mode (s : State) (p : Nat) (v : BitVec 32) (hhere : s.reachable (polChip p) = true) (hv : v.toNat % 4 ≠ 3) :
    Completes (.polCtlWrite p v) s (fun t =>
      t.fld F.POL_CTL.MODE p = v.toNat % 4 ∧ OnlyRegs ((s.polWritten p).answer .ok) t [(.POL_CTL, p)]
      ∧ ((s.polTurn p).changed ≠ s.time.tick + 1 →
          t.fld F.POL_CTL.CHANGES p = s.fld F.POL_CTL.CHANGES p ∧ (t.rd .POL_CUR p).toNat = (s.rd .POL_CUR p).toNat)
      ∧ ((s.polTurn p).changed = s.time.tick + 1 → t.fld F.POL_CTL.CHANGES p = (s.polTurn p).ctl.toNat / 256 % 256
          ∧ t.rd .POL_CUR p = (s.polTurn p).cur) ∧ t.mayAdapt p = false) := by
  refine .of_eq (exec_polCtlWrite_mode s p v hhere hv) ?_
  have hchanges : ((s.polWritten p).setFld F.POL_CTL.MODE p (v.toNat % 4)).fld F.POL_CTL.CHANGES p = (s.polWritten p).fld F.POL_CTL.CHANGES p :=
    State.fld_setFld_bits_ne _ _ _ _ _ _ (by decide) (by decide)
  have hcur : ((s.polWritten p).setFld F.POL_CTL.MODE p (v.toNat % 4)).rd .POL_CUR p = (s.polWritten p).rd .POL_CUR p :=
    State.rd_setFld_reg_ne _ _ _ _ _ _ (by decide)
  refine ⟨?_, ?_, fun hne => ⟨?_, ?_⟩, fun heq => ⟨?_, ?_⟩, ?_⟩
  · rw [State.fld_answer, State.fld_setFld_eq _ _ _ _ (by decide)]
    exact Nat.mod_lt _ (by decide)
  · exact ((OnlyRegs.refl _ _).setFld F.POL_CTL.MODE p _ (by simp [F.POL_CTL.MODE])).answer .ok
  · exact hchanges.trans (congrArg (fieldOf · 15 8) (s.rd_polWritten_kept p hne .POL_CTL p))
  · exact congrArg BitVec.toNat (hcur.trans (s.rd_polWritten_kept p hne .POL_CUR p))
  · refine hchanges.trans ((congrArg (fieldOf · 15 8) (s.rd_polWritten_discards p heq).2).trans ?_)
    simp only [fieldOf, bits, Nat.shiftRight_eq_div_pow]
    rfl
  · exact hcur.trans (s.rd_polWritten_discards p heq).1
  · refine State.mayAdapt_of_written _ p ((s.polTurn_polWritten p).trans ?_)
    exact congrArg (fun u => u.tick + 1) (s.time_polWritten p).symm

theorem polCtlWrite_reserved (s : State) (p : Nat) (v : BitVec 32) (hhere : s.reachable (polChip p) = true) (hv : v.toNat % 4 = 3) :
    Completes (.polCtlWrite p v) s (fun t => t = (s.polWritten p).answer .ok) :=
  .of_eq (congrArg done ((s.atChip_reachable _ _ hhere).trans (congrArg (State.answer · .ok) (if_pos hv)))) rfl

theorem polCtlWrite_unreachable (s : State) (p : Nat) (v : BitVec 32) (haway : s.reachable (polChip p) = false) :
    Completes (.polCtlWrite p v) s (fun t => t = s.answer .busError) :=
  .of_eq (congrArg done (s.atChip_unreachable _ _ haway)) rfl

/-- POLICY_MANUAL_APPLY of a policy with a range (R49). -/
theorem policyManualApply_range (s : State) (p lo hi : Nat) (hrange : manualRange p = some (lo, hi)) (hle : lo ≤ hi) (hhi : hi < 2 ^ 32)
    (hmode : s.fld F.POL_CTL.MODE p = 2) (hhere : s.isFenced (polChip p) = false) :
    Completes (.policyManualApply p) s (fun t =>
      (t.rd .POL_CUR p).toNat = clamp lo hi (s.rd .POL_MAN p).toNat ∧ OnlyRegs s t [(.POL_CUR, p)]) := by
  have he : exec (.policyManualApply p) s = done (s.setFld F.POL_CUR.VALUE p (clamp lo hi (s.rd .POL_MAN p).toNat)) := by
    change execPolicyManualApply p s = _
    simp only [execPolicyManualApply, hrange]
    exact congrArg done (if_pos ⟨hmode, hhere⟩)
  have hclamp : clamp lo hi (s.rd .POL_MAN p).toNat ≤ hi := by simp only [clamp]; split <;> [exact hle; split <;> omega]
  refine .of_eq he ⟨?_, (OnlyRegs.refl s _).setFld F.POL_CUR.VALUE p _ (by simp [F.POL_CUR.VALUE])⟩
  rw [← State.polValue_eq]
  exact State.fld_setFld_eq s F.POL_CUR.VALUE p _ (by decide) (by exact lt_of_le_of_lt hclamp hhi)

/-- Steering has no MANUAL value (R51). -/
theorem policyManualApply_steering (s : State) (p : Nat) (h : 18 ≤ p) (h' : p < 22) : Completes (.policyManualApply p) s (fun t => t = s) := by
  have hnone : manualRange p = none := by
    simp only [manualRange]
    rw [if_neg (by omega), if_neg (by omega), if_neg (by omega), if_neg (by omega), if_pos h']
  refine .of_eq (t := s) ?_ rfl
  change execPolicyManualApply p s = _
  simp only [execPolicyManualApply, hnone]

end Sys2Proof.Machine
end

section
namespace Sys2Proof.Machine

/-! ## Steering entries (R34, R35, R51, R577) -/

/-- Only the word of steering entry e of Bank k and the count that POL_CUR of the Bank shows have changed. -/
abbrev OnlySteering (k e : Nat) (s t : State) : Prop := OnlyRegs s t [(.BNK_STEER_TBL, steerIdx k e), (.POL_CUR, 18 + k)]

theorem State.onlySteering_steerShow (s : State) (k e : Nat) {s0 : State} (h : OnlySteering k e s0 s) : OnlySteering k e s0 (s.steerShow k e) :=
  (h.setFld F.BNK_STEER_TBL.PENDING _ _ (by simp [F.BNK_STEER_TBL.PENDING])).setFld F.POL_CUR.VALUE _ _ (by simp [F.POL_CUR.VALUE])

theorem State.pending_steerShow (s : State) (k e : Nat) : (s.steerShow k e).fld F.BNK_STEER_TBL.PENDING (steerIdx k e)
    = b2n (s.fld F.BNK_STEER_TBL.BOARD (steerIdx k e) != s.fld F.BNK_STEER_TBL.CUR_BOARD (steerIdx k e)) := by
  rw [State.steerShow, State.fld_setFld_reg_ne _ _ _ _ _ _ (by decide), State.fld_setFld_eq _ _ _ _ (by decide)]
  simp only [b2n]
  split <;> decide

/-- The other fields of an entry stand when PENDING and the count are brought up to date. -/
theorem State.fld_steerShow_ne (s : State) (k e : Nat) (g : Fld) (i : Nat) (hr : .POL_CUR ≠ g.reg) (hb : 16 < g.lo ∨ g.hi < 16) :
    (s.steerShow k e).fld g i = s.fld g i :=
  (State.fld_setFld_reg_ne _ F.POL_CUR.VALUE _ _ _ _ hr).trans (State.fld_setFld_bits_ne _ F.BNK_STEER_TBL.PENDING _ _ _ _ (by decide) hb)

/-- What a write of BOARD leaves of a steering entry (R34, R35). -/
theorem State.steerWrite_entry (s : State) (k e b : Nat) (hb : b < 8) (hlive : s.isFenced (8 + b) = false) :
    OnlySteering k e s (s.steerWrite k e b)
      ∧ (s.steerWrite k e b).fld F.BNK_STEER_TBL.BOARD (steerIdx k e) = b
      ∧ (s.steerWrite k e b).fld F.BNK_STEER_TBL.CUR_BOARD (steerIdx k e) = s.fld F.BNK_STEER_TBL.CUR_BOARD (steerIdx k e)
      ∧ (s.steerWrite k e b).fld F.BNK_STEER_TBL.PENDING (steerIdx k e)
          = (if s.fld F.BNK_STEER_TBL.CUR_BOARD (steerIdx k e) = b then 0 else 1)
      ∧ (s.steerWrite k e b).fld F.BNK_STEER_TBL.INFLIGHT (steerIdx k e) = s.fld F.BNK_STEER_TBL.INFLIGHT (steerIdx k e) := by
  have hw : s.steerWrite k e b = (s.setFld F.BNK_STEER_TBL.BOARD (steerIdx k e) b).steerShow k e := if_neg (by simp [boardChip, hlive])
  have hboard : (s.setFld F.BNK_STEER_TBL.BOARD (steerIdx k e) b).fld F.BNK_STEER_TBL.BOARD (steerIdx k e) = b :=
    State.fld_setFld_eq _ _ _ _ (by decide) hb
  have hcur : (s.setFld F.BNK_STEER_TBL.BOARD (steerIdx k e) b).fld F.BNK_STEER_TBL.CUR_BOARD (steerIdx k e)
      = s.fld F.BNK_STEER_TBL.CUR_BOARD (steerIdx k e) := State.fld_setFld_bits_ne _ _ _ _ _ _ (by decide) (by decide)
  rw [hw]
  refine ⟨?_, ?_, ?_, ?_, ?_⟩
  · exact State.onlySteering_steerShow _ k e ((OnlyRegs.refl s _).setFld _ _ _ (by simp [F.BNK_STEER_TBL.BOARD]))
  · rw [State.fld_steerShow_ne _ _ _ _ _ (by decide) (by decide), hboard]
  · rw [State.fld_steerShow_ne _ _ _ _ _ (by decide) (by decide), hcur]
  · rw [State.pending_steerShow, hboard, hcur, b2n]
    by_cases h : s.fld F.BNK_STEER_TBL.CUR_BOARD (steerIdx k e) = b
    · simp [h]
    · simp [h, Ne.symm h]
  · rw [State.fld_steerShow_ne _ _ _ _ _ (by decide) (by decide)]
    exact State.fld_setFld_bits_ne _ _ _ _ _ _ (by decide) (by decide)

/-- The pending change of an entry with nothing in flight (R34). -/
theorem State.steerMove_entry (s : State) (k e : Nat) (hnone : s.fld F.BNK_STEER_TBL.INFLIGHT (steerIdx k e) = 0) :
    OnlySteering k e s (s.steerMove k e)
      ∧ (s.steerMove k e).fld F.BNK_STEER_TBL.CUR_BOARD (steerIdx k e) = s.fld F.BNK_STEER_TBL.BOARD (steerIdx k e)
      ∧ (s.steerMove k e).fld F.BNK_STEER_TBL.PENDING (steerIdx k e) = 0
      ∧ (s.steerMove k e).fld F.BNK_STEER_TBL.BOARD (steerIdx k e) = s.fld F.BNK_STEER_TBL.BOARD (steerIdx k e) := by
  have hw : s.steerMove k e
      = (s.setFld F.BNK_STEER_TBL.CUR_BOARD (steerIdx k e) (s.fld F.BNK_STEER_TBL.BOARD (steerIdx k e))).steerShow k e := if_pos hnone
  have hcur : (s.setFld F.BNK_STEER_TBL.CUR_BOARD (steerIdx k e) (s.fld F.BNK_STEER_TBL.BOARD (steerIdx k e))).fld
      F.BNK_STEER_TBL.CUR_BOARD (steerIdx k e) = s.fld F.BNK_STEER_TBL.BOARD (steerIdx k e) :=
    State.fld_setFld_eq _ _ _ _ (by decide) (s.fld_lt F.BNK_STEER_TBL.BOARD _)
  have hboard : (s.setFld F.BNK_STEER_TBL.CUR_BOARD (steerIdx k e) (s.fld F.BNK_STEER_TBL.BOARD (steerIdx k e))).fld
      F.BNK_STEER_TBL.BOARD (steerIdx k e) = s.fld F.BNK_STEER_TBL.BOARD (steerIdx k e) :=
    State.fld_setFld_bits_ne _ _ _ _ _ _ (by decide) (by decide)
  rw [hw]
  refine ⟨?_, ?_, ?_, ?_⟩
  · exact State.onlySteering_steerShow _ k e ((OnlyRegs.refl s _).setFld _ _ _ (by simp [F.BNK_STEER_TBL.CUR_BOARD]))
  · rw [State.fld_steerShow_ne _ _ _ _ _ (by decide) (by decide), hcur]
  · rw [State.pending_steerShow, hboard, hcur]
    simp [b2n]
  · rw [State.fld_steerShow_ne _ _ _ _ _ (by decide) (by decide), hboard]

/-! ## The balancing move (R577) -/

theorem bestBoard_mem (better : Nat → Nat → Bool) (l : List Nat) (c : Nat) (h : bestBoard better l = some c) : c ∈ l := by
  induction l generalizing c with
  | nil => cases h
  | cons a l ih =>
    simp only [bestBoard] at h
    split at h
    · cases h; simp
    · rename_i d hd
      split at h <;> cases h
      · exact List.mem_cons_of_mem _ (ih _ hd)
      · simp

/-- A Board that beats every other is the best one. -/
theorem bestBoard_of_beats (better : Nat → Nat → Bool) (l : List Nat) (b : Nat) (hb : b ∈ l)
    (hwin : ∀ x ∈ l, x ≠ b → better b x = true ∧ better x b = false) : bestBoard better l = some b := by
  induction l with
  | nil => cases hb
  | cons a l ih =>
    have htail : ∀ x ∈ l, x ≠ b → better b x = true ∧ better x b = false := fun x hx => hwin x (List.mem_cons_of_mem _ hx)
    by_cases hin : b ∈ l
    · rw [bestBoard, ih hin htail]
      by_cases ha : a = b
      · simp [ha]
      · simp [(hwin a List.mem_cons_self ha).1]
    · have ha : a = b := by simpa [hin, eq_comm] using hb
      subst ha
      rw [bestBoard]
      split
      · rfl
      · rename_i c hc
        have hmem := bestBoard_mem better l c hc
        rw [if_neg (by simp [(htail c hmem (fun e => hin (e ▸ hmem))).2])]

theorem pickFrom_start (p : Nat → Bool) (start n : Nat) (hn : start < n) (hp : p start = true) : pickFrom p start n = some start := by
  obtain ⟨m, rfl⟩ : ∃ m, n = m + 1 := ⟨n - 1, by omega⟩
  simp [pickFrom, List.range_succ_eq_map, Nat.mod_eq_of_lt hn, hp]

theorem State.isFenced_of_none (s : State) (h : s.fld F.HDW_BOOT_STAT.FENCED 0 = 0) (chip : Nat) : s.isFenced chip = false := by
  simp [State.isFenced, h, bit]

theorem State.liveBoards_of_none (s : State) (h : s.fld F.HDW_BOOT_STAT.FENCED 0 = 0) : s.liveBoards = List.range 8 := by
  simp [State.liveBoards, s.isFenced_of_none h]

/-- The state after the balancing move of entry e to Board b (R577). -/
def State.balanced (s : State) (k e b : Nat) : State :=
  let u := (s.steerWrite k e b).satInc F.POL_CTL.CHANGES (18 + k) 1
  u.putPlat { u.plat with movePtr := Tbl.set (fun _ => 0) u.plat.movePtr k ((e + 1) % 4096) }

/-- A Bank whose queue for Board a is the deepest and full enough, and whose queue for Board b is the shallowest, moves the entry at its
move pointer, if that one is on Board a with nothing pending. -/
theorem exec_steerBalanceInterval (s : State) (k : BitVec 2) (e a b : Nat) (hfence : s.fld F.HDW_BOOT_STAT.FENCED 0 = 0)
    (hmode : s.fld F.POL_CTL.MODE (18 + k.toNat) = 0) (hroom : (s.rd .POL_CUR (18 + k.toNat)).toNat < 64) (ha : a < 8) (hb : b < 8)
    (hdeep : 2048 ≤ s.intakeDepth k.toNat a) (hmax : ∀ x < 8, x ≠ a → s.intakeDepth k.toNat x < s.intakeDepth k.toNat a)
    (hshallow : s.intakeDepth k.toNat b ≤ 512) (hmin : ∀ x < 8, x ≠ b → s.intakeDepth k.toNat b < s.intakeDepth k.toNat x)
    (he : e < 4096) (hptr : Tbl.get (fun _ => 0) s.plat.movePtr k.toNat = e)
    (hcur : s.fld F.BNK_STEER_TBL.CUR_BOARD (steerIdx k.toNat e) = a) (hpend : s.fld F.BNK_STEER_TBL.PENDING (steerIdx k.toNat e) = 0) :
    exec (.steerBalanceInterval k) s = done (s.balanced k.toNat e b) := by
  have hbest : bestBoard (fun x y => decide (s.intakeDepth k.toNat y < s.intakeDepth k.toNat x)) s.liveBoards = some a := by
    refine bestBoard_of_beats _ _ _ (by simpa [s.liveBoards_of_none hfence] using ha) fun x hx hne => ?_
    have hlt := hmax x (by simpa [s.liveBoards_of_none hfence] using hx) hne
    exact ⟨decide_eq_true hlt, decide_eq_false (by omega)⟩
  have hleast : bestBoard (fun x y => decide (s.intakeDepth k.toNat x < s.intakeDepth k.toNat y)) s.liveBoards = some b := by
    refine bestBoard_of_beats _ _ _ (by simpa [s.liveBoards_of_none hfence] using hb) fun x hx hne => ?_
    have hlt := hmin x (by simpa [s.liveBoards_of_none hfence] using hx) hne
    exact ⟨decide_eq_true hlt, decide_eq_false (by omega)⟩
  have hentry : s.moveEntry k.toNat a = some e := by
    rw [State.moveEntry, hptr]
    exact pickFrom_start _ _ _ he (by simp [hcur, State.flag, hpend])
  change execSteerBalanceInterval k s = _
  simp only [execSteerBalanceInterval, hbest, hleast, hentry, State.polMode, State.polValue_eq]
  rw [if_pos ⟨hmode, hdeep, hshallow, hroom⟩]
  rfl

theorem State.fld_putPlat (s : State) (x : Platform) (f : Fld) (i : Nat) : (s.putPlat x).fld f i = s.fld f i := rfl

/-- What the balancing move leaves: the entry as a write of BOARD does, counted in CHANGES, and the move pointer behind it. -/
theorem State.balanced_entry (s : State) (k e b : Nat) (hb : b < 8) (hlive : s.isFenced (8 + b) = false)
    (hcur : s.fld F.BNK_STEER_TBL.CUR_BOARD (steerIdx k e) ≠ b) :
    (s.balanced k e b).fld F.BNK_STEER_TBL.BOARD (steerIdx k e) = b ∧ (s.balanced k e b).fld F.BNK_STEER_TBL.PENDING (steerIdx k e) = 1
      ∧ (s.balanced k e b).fld F.POL_CTL.CHANGES (18 + k) = Nat.min 255 (s.fld F.POL_CTL.CHANGES (18 + k) + 1)
      ∧ Tbl.get (fun _ => 0) (s.balanced k e b).plat.movePtr k = (e + 1) % 4096
      ∧ RegsKept s (s.balanced k e b) [(.BNK_STEER_TBL, steerIdx k e), (.POL_CUR, 18 + k), (.POL_CTL, 18 + k)] := by
  obtain ⟨⟨-, hkept⟩, hboard, -, hpend, -⟩ := s.steerWrite_entry k e b hb hlive
  rw [if_neg hcur] at hpend
  have hfld : ∀ g i, (s.balanced k e b).fld g i = ((s.steerWrite k e b).satInc F.POL_CTL.CHANGES (18 + k) 1).fld g i :=
    fun _ _ => State.fld_putPlat _ _ _ _
  refine ⟨?_, ?_, ?_, ?_, ?_⟩
  · rw [hfld, State.satInc, State.fld_setFld_reg_ne _ _ _ _ _ _ (by decide), hboard]
  · rw [hfld, State.satInc, State.fld_setFld_reg_ne _ _ _ _ _ _ (by decide), hpend]
  · rw [hfld, State.fld_satInc_one _ _ _ (by decide), hkept.fld _ _ (by simp [F.POL_CTL.CHANGES])]
    rfl
  · rw [State.balanced, State.putPlat_plat, Tbl.get_set_same]
  · have hmore : RegsKept s (s.steerWrite k e b) [(.BNK_STEER_TBL, steerIdx k e), (.POL_CUR, 18 + k), (.POL_CTL, 18 + k)] :=
      fun r i hr => hkept r i (by simp only [List.mem_cons, not_or] at hr ⊢; exact ⟨hr.1, hr.2.1, by simp⟩)
    have hcounted : RegsKept s ((s.steerWrite k e b).satInc F.POL_CTL.CHANGES (18 + k) 1) _ :=
      hmore.setFld F.POL_CTL.CHANGES (18 + k) _ (by simp [F.POL_CTL.CHANGES])
    exact hcounted.of_regs (State.putPlat_regs _ _)

end Sys2Proof.Machine
end

section
namespace Sys2Proof.Machine

/-- The policies that O10 names, with their MANUAL ranges (R49). -/
theorem manualRange_of_mem (p lo hi : Nat) (h : (p, lo, hi) ∈ [(0, 1, 64), (1, 1000, 10000000), (2, 1, 64), (9, 1, 64), (10, 1, 512),
    (17, 1, 512), (22, 0, 255), (309, 0, 255), (310, 600, 1800)]) : manualRange p = some (lo, hi) ∧ lo ≤ hi ∧ hi < 2 ^ 32 := by
  have hall : ∀ x ∈ [(0, 1, 64), (1, 1000, 10000000), (2, 1, 64), (9, 1, 64), (10, 1, 512), (17, 1, 512), (22, 0, 255), (309, 0, 255),
      (310, 600, 1800)], manualRange x.1 = some x.2 ∧ x.2.1 ≤ x.2.2 ∧ x.2.2 < 2 ^ 32 := by decide
  exact hall _ h

/-- Settles O10: each adaptation by `State.adapted_adapt`, each steering command by what a write of BOARD or a move leaves of an entry. -/
theorem policiesAndSteering : Obligations.PoliciesAndSteering := by
  unfold Obligations.PoliciesAndSteering
  refine ⟨?_, ?_⟩
  · intro s p q lo hi n v b link tj tc val own adapts slack
    have hslack : slack = slackPol link := by cases link <;> rfl
    refine ⟨polCtlWrite_mode s p v, polCtlWrite_reserved s p v, polCtlWrite_unreachable s p v, ?_, policyManualApply_steering s p,
      adapts_admission_down s, adapts_admission_up s, ?_, ?_, ?_, ?_, ?_, ?_, ?_, ?_, ?_, ?_, ?_⟩
    · intro hmode hhere hmem
      obtain ⟨hrange, hle, hhi⟩ := manualRange_of_mem p lo hi hmem
      exact policyManualApply_range s p lo hi hrange hle hhi hmode hhere
    · intro hlow hn
      exact adapts_ecn s n (by rw [hn, State.ecnTarget, if_pos hlow, State.polValue_eq])
    · intro hlow hmark hdip hn
      exact adapts_ecn s n (by simp only [hn, val, State.ecnTarget, hlow, hmark, hdip, State.polValue_eq]; rfl)
    · intro hlow hmark
      exact adapts_ecn s (val s 1) (by simp only [val, State.ecnTarget, hlow, hmark, State.polValue_eq]; rfl)
    · exact fun hhit hq => adapts_diceHitLimit s b q hq hhit
    · exact adapts_dredge_up s b q
    · exact adapts_dredge_down s b q
    · rw [hslack]; exact adapts_slack_up s link n
    · rw [hslack]; exact adapts_slack_down s link n
    · rw [hslack]; exact adapts_slack_same s link n
    · intro hon hhot hlo hhi
      exact adapts_powerCap s tj tc _ (Nat.le_sub_of_add_le hlo) (Nat.sub_le_of_le_add hhi) (exec_powerCapAdapt_hot s tj tc hon hhot)
    · intro hon htj htc hlo hhi
      exact adapts_powerCap s tj tc _ (Nat.add_le_add_right hlo 50) (Nat.add_le_add_right hhi 50)
        (exec_powerCapAdapt_cool s tj tc hon htj htc)
  · intro s k e b i kept
    refine ⟨?_, ?_, ?_, ?_, ?_, ?_⟩
    · intro hhere hlive
      obtain ⟨honly, hboard, hcur, hpend, hfly⟩ := s.steerWrite_entry k.toNat e.toNat b.toNat b.isLt hlive
      exact .of_eq (congrArg done (s.atChip_reachable _ _ hhere)) ⟨honly.answer .ok, hboard, hcur, hpend, hfly⟩
    · intro hhere hfenced
      exact .of_eq (congrArg done ((s.atChip_reachable _ _ hhere).trans (congrArg (State.answer · .ok) (if_pos hfenced)))) rfl
    · intro haway
      exact .of_eq (congrArg done (s.atChip_unreachable _ _ haway)) rfl
    · intro hnone
      exact .of_eq rfl (s.steerMove_entry k.toNat e.toNat hnone)
    · intro hsome
      exact .of_eq (congrArg done (if_neg hsome)) rfl
    · intro hfence hmode hroom hdeep hmax hshallow hmin hptr hcur hpend
      have hne : s.fld F.BNK_STEER_TBL.CUR_BOARD (steerIdx k.toNat e.toNat) ≠ b.toNat := by
        intro heq
        rw [heq.symm.trans hcur] at hshallow
        exact absurd (hdeep.trans hshallow) (by decide)
      exact .of_eq (exec_steerBalanceInterval s k e.toNat 3 b.toNat hfence hmode hroom (by decide) b.isLt hdeep hmax hshallow hmin e.isLt
        hptr hcur hpend) (s.balanced_entry k.toNat e.toNat b.toNat b.isLt (s.isFenced_of_none hfence _) hne)

end Sys2Proof.Machine
end

section
namespace Sys2Proof.Machine

/-- Thread 0, whose gate is closed, still has a free of buffer 0x3FF800 to carry out; the buffer is charged to thread 1, whose share of
one buffer is short. -/
def deferredFreeState : State :=
  ((State.reset.setFld F.CLU_BUF_CTL.SHARE 0 1).setBufList 0 [(0x3FF800, some 1)]).setThread 0 { threadReset with gfree := [0x3FF800] }

theorem deferredFreeState_holds_none : (deferredFreeState.thread 1).bufHeld = 0 := by decide

/-- The reset of thread 0 carries out its deferred free (R343), and the buffer goes to the share of the thread it was charged to (R164). -/
theorem threadCmdReset_returns_buffer :
    Completes (.threadCmdReset 0 0 0) deferredFreeState (fun t => (t.thread 1).bufHeld = 1) :=
  ⟨_, rfl, by decide⟩

/-- Refutes O25: a reset of a thread with a deferred free returns a buffer that is charged to another thread, whose record changes. -/
theorem not_clusters : ¬ Obligations.Clusters := by
  unfold Obligations.Clusters
  intro h
  obtain ⟨hthreads, -⟩ := h
  obtain ⟨-, -, -, hreset, -⟩ := hthreads deferredFreeState 0 0 0 0 (by decide) (by decide) (by decide)
  obtain ⟨t, ht, -, -, -, hothers⟩ := hreset ⟨rfl, rfl, rfl⟩
  obtain ⟨t', ht', hheld⟩ := threadCmdReset_returns_buffer
  cases ht'.symm.trans ht
  have hkept : t.thread 1 = deferredFreeState.thread 1 := hothers (by decide) 1 (by decide)
  rw [hkept, deferredFreeState_holds_none] at hheld
  exact absurd hheld (by decide)

end Sys2Proof.Machine
end

section
namespace Sys2Proof.Machine

/-! ## Intake at a Bank (R30, R31, R33, R212, R213) -/

theorem State.sideBuf_setSide (s : State) (k : Nat) (l : List (Nat × Vector_)) : (s.setSide k l).sideBuf k = l := Tbl.get_set_same _ _ _ _

theorem State.held_setSide_nil (s : State) (k : Nat) : (s.setSide k []).fld F.BNK_INTAKE_SIDE.HELD k = 0 :=
  State.fld_setFld_eq _ _ _ _ (by decide) (by decide)

theorem State.regsKept_setSide (s : State) (k : Nat) (l : List (Nat × Vector_)) : RegsKept s (s.setSide k l) [(.BNK_INTAKE_SIDE, k)] :=
  ((RegsKept.refl s _).of_regs (State.putIntake_regs _ _)).setFld F.BNK_INTAKE_SIDE.HELD k _ (by simp [F.BNK_INTAKE_SIDE.HELD])

theorem State.intakeQueue_setIntakeQueue (s : State) (k x : Nat) (l : List Vector_) : (s.setIntakeQueue k x l).intakeQueue k x = l :=
  Tbl.get_set_same _ _ _ _

/-- A vector after the Bank has stamped number n into it (R33). -/
def Vector_.numbered (v : Vector_) (n : Nat) : Vector_ := { v with stamped := true, bytes := patchBytes v.bytes 4 (beBytes 2 n) }

/-- A stamp touches the numbers of the inputs and the frame record, which are no registers and not the Bank's intake (R33). -/
theorem State.stampVector_unstamped (s : State) (v : Vector_) (h : v.stamped = false) :
    (s.stampVector v).1 = v.numbered (s.stampSeq v.input).1 ∧ (s.stampVector v).2.intake = s.intake := by
  rw [State.stampVector, if_neg (by simp [h])]
  refine ⟨rfl, ?_⟩
  dsimp only
  split <;> rfl

theorem State.pushIntake_stamped (s : State) (k x : Nat) (v : Vector_) (h : v.stamped = true) :
    s.pushIntake k x v = s.setIntakeQueue k x (s.intakeQueue k x ++ [v]) := by
  simp [State.pushIntake, State.stampVector, h]

/-- The only vector of a side buffer leaves it for its queue, if that has room and the vector is not a stale one of a ring (R213, R453). -/
theorem exec_sideBufferRelease (s : State) (k : BitVec 2) (x : Nat) (v : Vector_) (hside : s.sideBuf k.toNat = [(x, v)])
    (hroom : s.intakeRoom k.toNat x v = true)
    (hfresh : v.stamped = true ∨ ∃ m f, v.input = .ring m f ∧ v.gen = s.fld F.RNG_FN_FRZ.GEN m) :
    exec (.sideBufferRelease k) s = done ((s.setSide k.toNat []).pushIntake k.toNat x v) := by
  change execSideBufferRelease k s = _
  simp only [execSideBufferRelease, hside, List.find?_cons, hroom, List.erase_cons_head]
  refine congrArg done (if_neg ?_)
  rcases hfresh with hst | ⟨m, f, hin, hgen⟩
  · simp [hst]
  · have hkept : (s.setSide k.toNat []).fld F.RNG_FN_FRZ.GEN m = s.fld F.RNG_FN_FRZ.GEN m :=
      (s.regsKept_setSide k.toNat []).fld _ _ (by simp [F.RNG_FN_FRZ.GEN])
    simp [hin, hgen, hkept]

theorem sideBufferRelease_stamped (s : State) (k : BitVec 2) (x : Nat) (v : Vector_) (hside : s.sideBuf k.toNat = [(x, v)])
    (hroom : s.intakeRoom k.toNat x v = true) (hst : v.stamped = true) : Completes (.sideBufferRelease k) s (fun u =>
      u.sideBuf k.toNat = [] ∧ u.intakeQueue k.toNat x = s.intakeQueue k.toNat x ++ [v] ∧ u.fld F.BNK_INTAKE_SIDE.HELD k.toNat = 0
      ∧ u.cfl = s.cfl ∧ RegsKept s u [(.BNK_INTAKE_SIDE, k.toNat)]) := by
  refine .of_eq (exec_sideBufferRelease s k x v hside hroom (.inl hst)) ?_
  rw [State.pushIntake_stamped _ _ _ _ hst]
  exact ⟨s.sideBuf_setSide k.toNat [], State.intakeQueue_setIntakeQueue _ _ _ _, s.held_setSide_nil k.toNat, rfl,
    (s.regsKept_setSide k.toNat []).of_regs (State.putIntake_regs _ _)⟩

theorem sideBufferRelease_unstamped (s : State) (k : BitVec 2) (x : Nat) (v : Vector_) (m : Nat) (f : BitVec 6)
    (hside : s.sideBuf k.toNat = [(x, v)]) (hroom : s.intakeRoom k.toNat x v = true) (hst : v.stamped = false) (hin : v.input = .ring m f)
    (hgen : v.gen = s.fld F.RNG_FN_FRZ.GEN m) : Completes (.sideBufferRelease k) s (fun u =>
      u.sideBuf k.toNat = [] ∧ u.intakeQueue k.toNat x = s.intakeQueue k.toNat x ++ [v.numbered (s.stampSeq v.input).1]) := by
  refine .of_eq (exec_sideBufferRelease s k x v hside hroom (.inr ⟨m, f, hin, hgen⟩)) ?_
  obtain ⟨hvec, hintake⟩ := (s.setSide k.toNat []).stampVector_unstamped v hst
  refine ⟨?_, ?_⟩
  · refine Eq.trans ?_ (s.sideBuf_setSide k.toNat [])
    exact congrArg (fun i => Tbl.get (fun _ => []) i.side k.toNat) hintake
  · rw [State.pushIntake, State.intakeQueue_setIntakeQueue, hvec]
    refine congrArg (· ++ _) ?_
    exact congrArg (fun i => Tbl.get (fun _ => []) i.queue (k.toNat * 8 + x)) hintake

theorem sideBufferRelease_empty (s : State) (k : BitVec 2) (h : s.sideBuf k.toNat = []) : Completes (.sideBufferRelease k) s (fun u => u = s) := by
  refine .of_eq (t := s) ?_ rfl
  change execSideBufferRelease k s = _
  simp only [execSideBufferRelease, h, List.find?_nil]

/-- The frame record of a vector notes the Board it is sent to, and the steering entry it came by (R30, R35). -/
def State.noteSlot (s : State) (k b : Nat) (v : Vector_) : State :=
  match s.frame (handleFirst v.handle) with
  | some f => s.setFrame (handleFirst v.handle) (some { f with board := some b, slot := some (k, v.entry) })
  | none => s

@[simp] theorem State.noteSlot_regs (s : State) (k b : Nat) (v : Vector_) : (s.noteSlot k b v).regs = s.regs := by
  unfold State.noteSlot; split <;> rfl

@[simp] theorem State.noteSlot_intake (s : State) (k b : Nat) (v : Vector_) : (s.noteSlot k b v).intake = s.intake := by
  unfold State.noteSlot; split <;> rfl

/-- The Bank k after the vector v at the head of its queue for Board b has been sent, with the rest in the queue. -/
def State.steered (s : State) (k b : Nat) (v : Vector_) (rest : List Vector_) : State :=
  let u := ((s.setIntakeQueue k b rest).modInc F.BNK_STEER_TBL.INFLIGHT (steerIdx k v.entry) 1).noteSlot k b v
  u.putIntake { u.intake with
    flight := Tbl.set (fun _ => 0) u.intake.flight (k * 8 + b) (Tbl.get (fun _ => 0) u.intake.flight (k * 8 + b) + 1)
    mesh := Tbl.set (fun _ => []) u.intake.mesh b (u.meshTo b ++ [v]) }

theorem exec_vectorSteerSend (s : State) (k : BitVec 2) (b : BitVec 3) (v : Vector_) (rest : List Vector_)
    (hq : s.intakeQueue k.toNat b.toNat = v :: rest) (hcred : s.bankCredits k.toNat b.toNat ≠ 0)
    (hbank : s.reachable (2 + k.toNat) = true) (hboard : s.reachable (8 + b.toNat) = true) :
    exec (.vectorSteerSend k b) s = done (s.steered k.toNat b.toNat v rest) := by
  change execVectorSteerSend k b s = _
  simp only [execVectorSteerSend, hq]
  rw [if_neg (by simp [hcred, bankChip, boardChip, hbank, hboard])]
  rfl

theorem State.isFenced_of_reachable (s : State) (chip : Nat) (h : s.reachable chip = true) : s.isFenced chip = false := by
  simp only [State.reachable, Bool.and_eq_true, Bool.not_eq_true'] at h
  exact h.1

theorem State.steered_effect (s : State) (k b : Nat) (v : Vector_) (rest : List Vector_)
    (hroom : s.fld F.BNK_STEER_TBL.INFLIGHT (steerIdx k v.entry) < 2 ^ 12 - 1) :
    (s.steered k b v rest).intakeQueue k b = rest ∧ (s.steered k b v rest).meshTo b = s.meshTo b ++ [v]
      ∧ Tbl.get (fun _ => 0) (s.steered k b v rest).intake.flight (k * 8 + b) = Tbl.get (fun _ => 0) s.intake.flight (k * 8 + b) + 1
      ∧ Tbl.get (fun _ => 0) (s.steered k b v rest).intake.held (k * 8 + b) = Tbl.get (fun _ => 0) s.intake.held (k * 8 + b)
      ∧ (s.steered k b v rest).fld F.BNK_STEER_TBL.INFLIGHT (steerIdx k v.entry) = s.fld F.BNK_STEER_TBL.INFLIGHT (steerIdx k v.entry) + 1
      ∧ RegsKept s (s.steered k b v rest) [(.BNK_STEER_TBL, steerIdx k v.entry)] := by
  have hsent : (s.steered k b v rest).regs = (s.modInc F.BNK_STEER_TBL.INFLIGHT (steerIdx k v.entry) 1).regs := by
    rw [State.steered, State.putIntake_regs, State.noteSlot_regs]; rfl
  refine ⟨?_, ?_, ?_, ?_, ?_, ?_⟩
  · simp [State.intakeQueue, State.steered, State.setIntakeQueue]
  · simp [State.meshTo, State.steered, State.setIntakeQueue]
  · simp [State.steered, State.setIntakeQueue]
  · simp [State.steered, State.setIntakeQueue]
  · have hfld : (s.steered k b v rest).fld F.BNK_STEER_TBL.INFLIGHT (steerIdx k v.entry)
        = (s.modInc F.BNK_STEER_TBL.INFLIGHT (steerIdx k v.entry) 1).fld F.BNK_STEER_TBL.INFLIGHT (steerIdx k v.entry) := by
      simp only [State.fld, State.rd, hsent]
    rw [hfld, State.modInc, State.fld_setFld_eq _ _ _ _ (by decide)]
    exact Nat.add_lt_of_lt_sub hroom
  · have hcount : RegsKept s (s.modInc F.BNK_STEER_TBL.INFLIGHT (steerIdx k v.entry) 1) [(.BNK_STEER_TBL, steerIdx k v.entry)] :=
      (RegsKept.refl s _).setFld _ _ _ (by simp [F.BNK_STEER_TBL.INFLIGHT])
    exact hcount.of_regs hsent

/-- Without a credit nothing is sent (R30). -/
theorem vectorSteerSend_none (s : State) (k : BitVec 2) (b : BitVec 3) (h : s.bankCredits k.toNat b.toNat = 0) :
    Completes (.vectorSteerSend k b) s (fun u => u = s) := by
  refine .of_eq (t := s) ?_ rfl
  change execVectorSteerSend k b s = _
  simp only [execVectorSteerSend]
  split
  · rfl
  · exact if_pos (by simp [h])

end Sys2Proof.Machine
end

section
namespace Sys2Proof.Machine

/-! ## A vector at its Board (R137, R151, R226 to R228) -/

/-- When nothing is on the mesh to a Board, an arrival there moves nothing: the vectors at the Board and the rest of the state stand. -/
theorem State.arrive_of_empty (s : State) (x : Nat) (h : s.meshTo x = []) :
    ∃ i, s.arrive x = s.putIntake i ∧ (s.putIntake i).atBoard x = s.atBoard x := by
  refine ⟨{ s.intake with
    board := Tbl.set (fun _ => []) s.intake.board x (s.atBoard x)
    mesh := Tbl.set (fun _ => []) s.intake.mesh x [] }, ?_, ?_⟩
  · simp [State.arrive, h, List.partition_eq_filter_filter]
  · simp [State.atBoard]

theorem State.atBoard_setAtBoard (s : State) (x : Nat) (l : List Vector_) : (s.setAtBoard x l).atBoard x = l := Tbl.get_set_same _ _ _ _

/-- The frame that a vector's learn parses: its first bytes in the header vector (R226). -/
def Vector_.learnFrame (v : Vector_) : List Byte := (v.bytes.drop 0x40).take (min 192 (rdN v.bytes 6 2))

/-- The key that a vector's learn stores under: VNI and inner source address (R226). -/
def Vector_.learnKey (v : Vector_) : List Byte := beBytes 3 (rdN v.bytes 0x14 4) ++ (v.learnFrame.drop (rdN v.bytes 0x36 2 + 6)).take 6

/-- A vector whose learn ended with a code, which PTYPE carries (R226, R228). -/
def Vector_.learned (v : Vector_) (code : Nat) : Vector_ :=
  { v with learn := false, bytes := patchBytes v.bytes 0x10 (beBytes 4 (rdN v.bytes 0x10 4 + code * 2)) }

/-- The table that a vector's Bank learns into. -/
def State.learnTable (s : State) (v : Vector_) : Nat := s.fld F.BNK_LEARN_CTL.TABLE v.bank

/-- The value that a vector's learn stores (R226). -/
def State.learnVal (s : State) (v : Vector_) : List Byte := learnValue (parseFrame (s.parseCfg v.bank false) v.learnFrame)

/-- The Board's copy of a definition is one that learns: valid, LEARN 1, keys of 9 and values of 16 bytes (R226). -/
def State.Learns (s : State) (x t : Nat) : Prop :=
  s.fld F.BRD_DICE_TDEF_W0.VALID (tdefIdx x t) = 1 ∧ s.fld F.BRD_DICE_TDEF_W0.LEARN (tdefIdx x t) = 1
    ∧ s.fld F.BRD_DICE_TDEF_W0.KLEN (tdefIdx x t) = 9 ∧ s.fld F.BRD_DICE_TDEF_W0.VLEN (tdefIdx x t) = 16

theorem State.learnVector_undefined (s : State) (x : Nat) (v : Vector_)
    (h : s.fld F.BRD_DICE_TDEF_W0.VALID (tdefIdx x (s.learnTable v)) = 0) : s.learnVector x v = ({ v with learn := false }, s) := by
  have hinvalid : s.tdefValid x (s.learnTable v) = false := by simp [State.tdefValid, State.flag, h]
  exact if_neg (by rw [show s.fld F.BNK_LEARN_CTL.TABLE v.bank = s.learnTable v from rfl, hinvalid]; simp)

theorem State.learnVector_defined (s : State) (x : Nat) (v : Vector_) (h : s.Learns x (s.learnTable v)) {code : Nat} {u : State}
    (hlearn : s.learn x (s.learnTable v) v.learnKey (s.learnVal v) = (code, u)) : s.learnVector x v = (v.learned code, u) := by
  obtain ⟨hvalid, hon, hklen, hvlen⟩ := h
  have hdef : (s.tdefValid x (s.learnTable v) && s.flag F.BRD_DICE_TDEF_W0.LEARN (tdefIdx x (s.learnTable v))
      && s.klen x (s.learnTable v) == 9 && s.vlen x (s.learnTable v) == 16) = true := by
    simp [State.tdefValid, State.flag, State.klen, State.vlen, hvalid, hon, hklen, hvlen]
  refine (if_pos hdef).trans ?_
  change (v.learned (s.learn x (s.learnTable v) v.learnKey (s.learnVal v)).1, (s.learn x (s.learnTable v) v.learnKey (s.learnVal v)).2) = _
  rw [hlearn]

/-- LEARN of the oldest vector at a Board with an empty mesh: what the vector's learn does, whatever else is in intake, is done. -/
theorem completes_learn (s : State) (b : BitVec 3) (v w : Vector_) (rest : List Vector_) (u : State) (hmesh : s.meshTo b.toNat = [])
    (hat : s.atBoard b.toNat = v :: rest) (hlearn : v.learn = true)
    (hdo : ∀ i, (s.putIntake i).learnVector b.toNat v = (w, u.putIntake i)) :
    Completes (.learn b) s (fun t => t.atBoard b.toNat = w :: rest ∧ ∃ i, t = u.putIntake i) := by
  obtain ⟨i, harrive, hsame⟩ := s.arrive_of_empty b.toNat hmesh
  have hboard : (u.putIntake i).atBoard b.toNat = v :: rest := hsame.trans hat
  have he : exec (.learn b) s = done ((u.putIntake i).setAtBoard b.toNat (w :: rest)) := by
    change execLearn b s = _
    simp only [execLearn, harrive, hsame, hat, List.findIdx?_cons, hlearn, if_true, List.getElem?_cons_zero, hdo, hboard, List.set_cons_zero]
  exact .of_eq he ⟨State.atBoard_setAtBoard _ _ _, _, rfl⟩

end Sys2Proof.Machine
end

section
namespace Sys2Proof.Machine

/-! ## The learn of a key in its partition (R226 to R228) -/

/-- A key whose partition's Board is fenced is not learned (R228). -/
theorem State.learn_fenced (s : State) (x t : Nat) (key val : List Byte) (h : s.isFenced (8 + s.partOf x t key) = true) :
    s.learn x t key val = (3, s.satInc F.BRD_DICE_LEARN_FAIL.COUNT x 1) := if_pos h

/-- The partition of a key answers with an entry: it is unfenced, nothing waits in its pipe, and its definition is valid. -/
structure State.Finds (s : State) (x t : Nat) (key : List Byte) (k : Nat) (e : DiceEntry) : Prop where
  live : s.isFenced (8 + s.partOf x t key) = false
  pipe : s.pipeQ (s.partOf x t key) = []
  valid : s.tdefValid (s.partOf x t key) t = true
  found : s.findEntry (s.partOf x t key) t (key.take (s.klen (s.partOf x t key) t)) = some (.slot k, e)

/-- The value that a vector's learn stores, cut to the value length of the key's partition (R226). -/
def State.learnedValue (s : State) (x : Nat) (v : Vector_) : List Byte :=
  (s.learnVal v).take (s.vlen (s.partOf x (s.learnTable v) v.learnKey) (s.learnTable v))

/-- A learn gives slot k of partition p its entry, a change of table t, and counts the move at Board x (R214, R227). -/
def State.learnMoved (s : State) (x p t k : Nat) (e : DiceEntry) : State :=
  ((s.setSlot k (some e)).changed p t).satInc F.BRD_DICE_LEARN_MOVE.COUNT x 1

theorem State.setFld_putIntake (s : State) (i : IntakeUnit) (f : Fld) (j v : Nat) :
    (s.putIntake i).setFld f j v = (s.setFld f j v).putIntake i := rfl

theorem State.fld_putIntake (s : State) (i : IntakeUnit) (f : Fld) (j : Nat) : (s.putIntake i).fld f j = s.fld f j := rfl

theorem State.rd_putIntake (s : State) (i : IntakeUnit) (r : Reg) (j : Nat) : (s.putIntake i).rd r j = s.rd r j := rfl

theorem State.slotAt_putIntake (s : State) (i : IntakeUnit) (k : Nat) : (s.putIntake i).slotAt k = s.slotAt k := rfl

theorem State.setSlot_putIntake (s : State) (i : IntakeUnit) (k : Nat) (e : Option DiceEntry) :
    (s.putIntake i).setSlot k e = (s.setSlot k e).putIntake i := rfl

theorem State.learnMoved_putIntake (s : State) (i : IntakeUnit) (x p t k : Nat) (e : DiceEntry) :
    (s.putIntake i).learnMoved x p t k e = (s.learnMoved x p t k e).putIntake i := by
  simp only [State.learnMoved, State.changed, State.modInc, State.satInc, State.setSlot_putIntake, State.setFld_putIntake, State.fld_putIntake]

theorem State.learnMoved_slotAt (s : State) (x p t k : Nat) (e : DiceEntry) : (s.learnMoved x p t k e).slotAt k = some e := by
  simp [State.learnMoved, State.changed, State.slotAt, State.setSlot]

theorem State.learnMoved_count (s : State) (x p t k : Nat) (e : DiceEntry) : ((s.learnMoved x p t k e).rd .BRD_DICE_LEARN_MOVE x).toNat
    = Nat.min (2 ^ 32 - 1) ((s.rd .BRD_DICE_LEARN_MOVE x).toNat + 1) := by
  have hcount := State.fld_satInc_one ((s.setSlot k (some e)).changed p t) F.BRD_DICE_LEARN_MOVE.COUNT x (by decide)
  rw [State.changed, State.modInc, State.fld_setFld_reg_ne _ _ _ _ _ _ (by decide)] at hcount
  exact (fieldOf_whole _).symm.trans (hcount.trans (congrArg (fun n => Nat.min (2 ^ 32 - 1) (n + 1)) (fieldOf_whole _)))

/-- The learn of a key that its partition holds (R227, R228). -/
theorem State.learn_found (s : State) (x t : Nat) (key val : List Byte) (k : Nat) (e : DiceEntry) (h : s.Finds x t key k e) :
    s.learn x t key val
      = if e.value = val.take (s.vlen (s.partOf x t key) t) then (1, s.setSlot k (some { e with hit := true }))
        else if e.static then (1, s)
        else (2, s.learnMoved x (s.partOf x t key) t k { e with hit := true, value := val.take (s.vlen (s.partOf x t key) t) }) := by
  have hdrain : s.pipeDrain (s.partOf x t key) = s := by rw [State.pipeDrain, h.pipe]; rfl
  simp only [State.learn, boardChip, h.live, hdrain, h.valid, h.found]
  rfl

theorem State.slotAt_setSlot (s : State) (k : Nat) (e : Option DiceEntry) : (s.setSlot k e).slotAt k = e := Tbl.get_set_same _ _ _ _

theorem State.slotAt_setSlot_ne (s : State) (k y : Nat) (e : Option DiceEntry) (h : y ≠ k) : (s.setSlot k e).slotAt y = s.slotAt y :=
  Tbl.get_set_ne _ _ _ h.symm

section
variable {s : State} {b : BitVec 3} {v : Vector_} {rest : List Vector_} (hmesh : s.meshTo b.toNat = [])
  (hat : s.atBoard b.toNat = v :: rest) (hlearn : v.learn = true)
include hmesh hat hlearn

/-- A vector whose Board's copy does not define the table is not learned (R226). -/
theorem learn_undefined (h : s.fld F.BRD_DICE_TDEF_W0.VALID (tdefIdx b.toNat (s.learnTable v)) = 0) :
    Completes (.learn b) s (fun u => u.atBoard b.toNat = { v with learn := false } :: rest ∧ u.regs = s.regs ∧ u.look = s.look) := by
  obtain ⟨t, ht, hboard, i, rfl⟩ := completes_learn s b v { v with learn := false } rest s hmesh hat hlearn
    fun i => (s.putIntake i).learnVector_undefined _ v h
  exact ⟨_, ht, hboard, rfl, rfl⟩

variable (htable : s.Learns b.toNat (s.learnTable v))
include htable

theorem learn_partition_fenced (h : s.isFenced (8 + s.partOf b.toNat (s.learnTable v) v.learnKey) = true) :
    Completes (.learn b) s (fun u =>
      u.atBoard b.toNat = v.learned 3 :: rest ∧ RegsKept s u [(.BRD_DICE_LEARN_FAIL, b.toNat)] ∧ u.look = s.look) := by
  obtain ⟨t, ht, hboard, i, rfl⟩ := completes_learn s b v (v.learned 3) rest (s.satInc F.BRD_DICE_LEARN_FAIL.COUNT b.toNat 1) hmesh hat hlearn
    fun i => (s.putIntake i).learnVector_defined _ v htable ((s.putIntake i).learn_fenced _ _ _ _ h)
  have hkept : RegsKept s (s.satInc F.BRD_DICE_LEARN_FAIL.COUNT b.toNat 1) [(.BRD_DICE_LEARN_FAIL, b.toNat)] :=
    (RegsKept.refl s _).setFld _ _ _ (by simp [F.BRD_DICE_LEARN_FAIL.COUNT])
  exact ⟨_, ht, hboard, hkept.of_regs (State.putIntake_regs _ _), rfl⟩

/-- The vector's learn goes as the learn of its key does. -/
theorem completes_learn_key {code : Nat} {u : State}
    (hdo : ∀ i, (s.putIntake i).learn b.toNat (s.learnTable v) v.learnKey (s.learnVal v) = (code, u.putIntake i)) :
    Completes (.learn b) s (fun t => t.atBoard b.toNat = v.learned code :: rest ∧ ∃ i, t = u.putIntake i) :=
  completes_learn s b v (v.learned code) rest u hmesh hat hlearn fun i => (s.putIntake i).learnVector_defined _ v htable (hdo i)

variable {k : Nat} {e : DiceEntry} (hfinds : s.Finds b.toNat (s.learnTable v) v.learnKey k e)
include hfinds

/-- The learned value stands already: the entry is hit (R227). -/
theorem learn_found_same (hval : e.value = s.learnedValue b.toNat v) :
    Completes (.learn b) s (fun u => u.atBoard b.toNat = v.learned 1 :: rest ∧ u.regs = s.regs
      ∧ u.slotAt k = some { e with hit := true } ∧ ∀ y, y ≠ k → u.slotAt y = s.slotAt y) := by
  obtain ⟨t, ht, hboard, i, rfl⟩ := completes_learn_key hmesh hat hlearn htable (code := 1) (u := s.setSlot k (some { e with hit := true }))
    fun i => ((s.putIntake i).learn_found _ _ _ _ k e ⟨hfinds.live, hfinds.pipe, hfinds.valid, hfinds.found⟩).trans (if_pos hval)
  exact ⟨_, ht, hboard, rfl, s.slotAt_setSlot k _, fun y hy => s.slotAt_setSlot_ne k y _ hy⟩

/-- A static entry keeps its value (R227). -/
theorem learn_found_static (hstatic : e.static = true)
    (hval : e.value ≠ s.learnedValue b.toNat v) :
    Completes (.learn b) s (fun u => u.atBoard b.toNat = v.learned 1 :: rest ∧ u.regs = s.regs ∧ u.look = s.look) := by
  obtain ⟨t, ht, hboard, i, rfl⟩ := completes_learn_key hmesh hat hlearn htable (code := 1) (u := s)
    fun i => ((s.putIntake i).learn_found _ _ _ _ k e ⟨hfinds.live, hfinds.pipe, hfinds.valid, hfinds.found⟩).trans
      ((if_neg hval).trans (if_pos hstatic))
  exact ⟨_, ht, hboard, rfl, rfl⟩

/-- Another entry takes the learned value, and the move is counted (R227). -/
theorem learn_found_moved (hstatic : e.static = false)
    (hval : e.value ≠ s.learnedValue b.toNat v) :
    Completes (.learn b) s (fun u => u.atBoard b.toNat = v.learned 2 :: rest
      ∧ u.slotAt k = some { e with hit := true, value := s.learnedValue b.toNat v }
      ∧ (u.rd .BRD_DICE_LEARN_MOVE b.toNat).toNat = Nat.min (2 ^ 32 - 1) ((s.rd .BRD_DICE_LEARN_MOVE b.toNat).toNat + 1)) := by
  have hdo : ∀ i, (s.putIntake i).learn b.toNat (s.learnTable v) v.learnKey (s.learnVal v)
      = (2, (s.learnMoved b.toNat (s.partOf b.toNat (s.learnTable v) v.learnKey) (s.learnTable v) k
          { e with hit := true, value := s.learnedValue b.toNat v }).putIntake i) := by
    intro i
    rw [(s.putIntake i).learn_found _ _ _ _ k e ⟨hfinds.live, hfinds.pipe, hfinds.valid, hfinds.found⟩, ← State.learnMoved_putIntake]
    exact (if_neg hval).trans (if_neg (by simp [hstatic]))
  obtain ⟨t, ht, hboard, i, rfl⟩ := completes_learn_key hmesh hat hlearn htable hdo
  refine ⟨_, ht, hboard, ?_, ?_⟩
  · rw [State.slotAt_putIntake, State.learnMoved_slotAt]
  · rw [State.rd_putIntake, State.learnMoved_count]

end

end Sys2Proof.Machine
end

section
namespace Sys2Proof.Machine

/-! ## The way to a thread in RECV (R137, R151) -/

theorem State.thread_putEng_cur (s : State) (c : Tbl Nat) (y : Nat) : (s.putEng { s.eng with cur := c }).thread y = s.thread y := rfl

/-- A thread that becomes ready leaves every other thread's record (R148). -/
theorem State.thread_makeReady (s : State) (th y : Nat) :
    (s.makeReady th).thread y = (s.setThread th ((s.thread th).setRun .ready)).thread y := by
  unfold State.makeReady
  dsimp only
  split
  · rfl
  · exact State.thread_putEng_cur _ _ _

@[simp] theorem State.makeReady_localMem (s : State) (th : Nat) : (s.makeReady th).eng.localMem = s.eng.localMem := by
  unfold State.makeReady; dsimp only; split <;> simp [State.setThread]

@[simp] theorem State.makeReady_intake (s : State) (th : Nat) : (s.makeReady th).intake = s.intake := by
  unfold State.makeReady; dsimp only; split <;> simp [State.setThread]

@[simp] theorem State.makeReady_regs (s : State) (th : Nat) : (s.makeReady th).regs = s.regs := by
  unfold State.makeReady; dsimp only; split <;> simp

/-- The record of a thread in RECV that has taken a vector (R137). -/
def Thread.received (t : Thread) (rd : BitVec 5) (v : Vector_) : Thread :=
  { (t.setGr rd v.handle).advance with
    inst := bytesWord ((v.bytes.drop 8).take 4), handles := t.handles ++ [v.handle], run := .ready }

theorem Thread.setGr_keeps (t : Thread) (rd : BitVec 5) (v : Word) : t.setGr rd v = { t with g := (t.setGr rd v).g } := by
  unfold Thread.setGr; split <;> rfl

theorem Thread.received_pc (t : Thread) (rd : BitVec 5) (v : Vector_) : (t.received rd v).pc = t.pc + 4 := by
  rw [Thread.received, Thread.setGr_keeps]; rfl

theorem Thread.received_regs (t : Thread) (rd : BitVec 5) (v : Vector_) : RegsBut t (t.received rd v) rd v.handle :=
  fun n => Thread.gr_setGr t rd n v.handle

/-- What the taking of a vector by a thread in RECV leaves: the thread's record, the bytes in local memory, and the rest (R137). -/
theorem State.takeVector_effect (s : State) (th : Nat) (v : Vector_) (rd : BitVec 5) (a : Nat)
    (hrecv : (s.thread th).run = .stalled (.recv rd a)) :
    (s.takeVector th v).thread th = (s.thread th).received rd v
      ∧ (∀ y, y ≠ th → (s.takeVector th v).thread y = s.thread y)
      ∧ (s.takeVector th v).eng.localMem = (s.localWrite (thEngine th) a v.bytes).eng.localMem
      ∧ (s.takeVector th v).intake = s.intake ∧ (s.takeVector th v).regs = s.regs := by
  obtain ⟨m, he⟩ : ∃ m, s.takeVector th v = ((((s.localWrite (thEngine th) a v.bytes).putCfl m).setThread th
      { ((s.thread th).setGr rd v.handle).advance with
        inst := bytesWord ((v.bytes.drop 8).take 4), handles := (s.thread th).handles ++ [v.handle] }).makeReady th) := by
    simp only [State.takeVector, hrecv]
    split
    · exact ⟨_, rfl⟩
    · exact ⟨s.cfl, rfl⟩
  have hmem : ∀ y, ((s.localWrite (thEngine th) a v.bytes).putCfl m).thread y = s.thread y := fun _ => rfl
  rw [he]
  refine ⟨?_, ?_, ?_, ?_, ?_⟩
  · rw [State.thread_makeReady, State.thread_setThread, State.thread_setThread]
    rfl
  · intro y hy
    rw [State.thread_makeReady, State.thread_setThread_ne _ _ hy.symm, State.thread_setThread_ne _ _ hy.symm, hmem]
  · simp [State.setThread]
  · simp [State.setThread, State.localWrite]
  · simp [State.localWrite]

end Sys2Proof.Machine
end

section
namespace Sys2Proof.Machine

/-- VECTOR_DISPATCH to a thread in RECV (R137, R151). -/
theorem vectorDispatch_taken (s : State) (b : BitVec 3) (v : Vector_) (rest : List Vector_) (th : Nat) (rd : BitVec 5) (a : Nat)
    (hmesh : s.meshTo b.toNat = []) (hat : s.atBoard b.toNat = v :: rest) (hlearn : v.learn = false) (hth : s.recvThread b.toNat = some th)
    (hrecv : (s.thread th).run = .stalled (.recv rd a)) (hlen : v.bytes.length = 256) :
    Completes (.vectorDispatch b) s (fun u => u.atBoard b.toNat = rest ∧ (u.thread th).run = .ready
      ∧ RegsBut (s.thread th) (u.thread th) rd v.handle ∧ (u.thread th).pc = (s.thread th).pc + 4
      ∧ (u.thread th).handles = (s.thread th).handles ++ [v.handle]
      ∧ (u.thread th).inst = BitVec.ofNat 32 (beNat ((v.bytes.drop 8).take 4))
      ∧ (∀ k < 256, Tbl.get (fun _ => (0 : Byte)) u.eng.localMem (th / 8 * 0x8000 + a + k) = v.bytes.getD k 0)
      ∧ (∀ y, y ≠ th → u.thread y = s.thread y) ∧ u.regs = s.regs) := by
  obtain ⟨i, harrive, hsame⟩ := s.arrive_of_empty b.toNat hmesh
  obtain ⟨t, ht⟩ : ∃ t, ((s.putIntake i).setAtBoard b.toNat rest).takeVector th v = t := ⟨_, rfl⟩
  obtain ⟨hthread, hothers, hmem, hintake, hregs⟩ :=
    ((s.putIntake i).setAtBoard b.toNat rest).takeVector_effect th v rd a hrecv
  rw [ht] at hthread hothers hmem hintake hregs
  have he : exec (.vectorDispatch b) s
      = done (t.putEng { t.eng with recvTurn := Tbl.set (fun _ => 7) t.eng.recvTurn b.toNat (thCluster th % 8) }) := by
    have hnext : (s.putIntake i).recvThread b.toNat = some th := hth
    change execVectorDispatch b s = _
    simp only [execVectorDispatch, harrive, hsame, hat, hlearn, hnext, ht]
    rfl
  refine .of_eq he ?_
  have hkeep : ∀ y, (t.putEng { t.eng with recvTurn := Tbl.set (fun _ => 7) t.eng.recvTurn b.toNat (thCluster th % 8) }).thread y = t.thread y :=
    fun _ => rfl
  simp only [hkeep, hthread, State.putEng_eng, State.putEng_regs]
  refine ⟨?_, rfl, Thread.received_regs _ rd v, Thread.received_pc _ rd v, rfl, rfl, ?_, hothers, hregs⟩
  · rw [State.atBoard, State.putEng_intake, hintake]
    exact (s.putIntake i).atBoard_setAtBoard b.toNat rest
  · intro k hk
    have hbytes : t.eng.localMem = Tbl.writeBytes s.eng.localMem (th / 8 * 0x8000 + a) v.bytes := hmem
    rw [hbytes, Tbl.get_writeBytes, if_pos (by omega), Nat.add_sub_cancel_left]

/-- No thread waits in RECV: the vector stays at its Board (R151). -/
theorem vectorDispatch_none (s : State) (b : BitVec 3) (v : Vector_) (rest : List Vector_)
    (hmesh : s.meshTo b.toNat = []) (hat : s.atBoard b.toNat = v :: rest) (hnone : s.recvThread b.toNat = none) :
    Completes (.vectorDispatch b) s (fun u => u.atBoard b.toNat = v :: rest ∧ u.eng = s.eng ∧ u.regs = s.regs) := by
  obtain ⟨i, harrive, hsame⟩ := s.arrive_of_empty b.toNat hmesh
  have hnext : (s.putIntake i).recvThread b.toNat = none := hnone
  refine .of_eq (t := s.putIntake i) ?_ ⟨hsame.trans hat, rfl, rfl⟩
  change execVectorDispatch b s = _
  simp only [execVectorDispatch, harrive, hsame, hat, hnext]
  exact ite_self _

/-- Settles O32: the intake of a Bank by its three commands, a learn by `State.learnVector` and `State.learn_found`, the hand-over by
`State.takeVector_effect`. -/
theorem intake : Obligations.Intake := by
  unfold Obligations.Intake
  refine ⟨?_, ?_⟩
  · intro s k b x v rest c n q i
    refine ⟨sideBufferRelease_stamped s k x v, ?_, sideBufferRelease_empty s k, ?_, ?_, ?_⟩
    · exact fun m f hside hroom hst hin hgen => sideBufferRelease_unstamped s k x v m f hside hroom hst hin hgen
    · intro hq hbank hboard hcredit hfly
      have hcred : s.bankCredits k.toNat b.toNat ≠ 0 := by
        simp only [State.bankCredits, boardChip, s.isFenced_of_reachable _ hboard, Bool.false_eq_true, if_false]
        change 2048 - n s.intake.flight - n s.intake.held - n s.intake.returning ≠ 0
        omega
      obtain ⟨hrest, hsent, hflight, hheld, hcount, hkept⟩ := s.steered_effect k.toNat b.toNat v rest hfly
      exact .of_eq (exec_vectorSteerSend s k b v rest hq hcred hbank hboard) ⟨hrest, hsent, hflight, hheld, hcount, hkept⟩
    · intro hfull
      refine vectorSteerSend_none s k b ?_
      simp only [State.bankCredits]
      split
      · rfl
      · change 2048 - n s.intake.flight - n s.intake.held - n s.intake.returning = 0
        omega
    · exact .of_eq rfl ⟨Tbl.get_set_same _ _ _ _, rfl⟩
  · intro s b v rest th rd a x t d frame val key p learns table hmesh
    refine ⟨?_, vectorDispatch_taken s b v rest th rd a hmesh, vectorDispatch_none s b v rest hmesh⟩
    intro hat hlearn
    refine ⟨learn_undefined hmesh hat hlearn, learn_partition_fenced hmesh hat hlearn, ?_⟩
    intro k e htable hlive hpipe hvalid hfound
    have hfinds : s.Finds b.toNat (s.learnTable v) v.learnKey k e := ⟨hlive, hpipe, hvalid, hfound⟩
    exact ⟨learn_found_same hmesh hat hlearn htable hfinds, learn_found_static hmesh hat hlearn htable hfinds,
      learn_found_moved hmesh hat hlearn htable hfinds⟩

end Sys2Proof.Machine
end

section
namespace Sys2Proof.Machine

/-! ## The cycles of a calendar entry (R71, R72) -/

/-- A number's remainder by a product, in mixed radix: the low digit and the next one. -/
theorem mod_mul_eq_iff (c l k i q : Nat) (hi : i < l) : c % (l * k) = i + l * q ↔ c % l = i ∧ c / l % k = q := by
  have hl : 0 < l := by omega
  rw [Nat.mod_mul]
  constructor
  · intro h
    have hlow := congrArg (· % l) h
    have hhigh := congrArg (· / l) h
    simp only [Nat.add_mul_mod_self_left, Nat.mod_mod, Nat.mod_eq_of_lt hi] at hlow
    simp only [Nat.add_mul_div_left _ _ hl, Nat.div_eq_of_lt (Nat.mod_lt c hl), Nat.div_eq_of_lt hi, Nat.zero_add] at hhigh
    exact ⟨hlow, hhigh⟩
  · rintro ⟨rfl, rfl⟩
    rfl

theorem State.flag_iff_one (s : State) (f : Fld) (i : Nat) (h : f.hi = f.lo) : s.flag f i = true ↔ s.fld f i = 1 := by
  have hlt := s.fld_lt f i
  rw [h, Nat.add_sub_cancel_left] at hlt
  simp only [State.flag, bne_iff_ne]
  omega

theorem State.fires_iff (s : State) (i c : Nat) (hcls : s.fld F.TTB_SLOT_W0.CLASS i ≤ 8) :
    s.fires i c = true ↔ s.fld F.TTB_SLOT_W0.VALID i = 1 ∧ c % 2 ^ s.log2Len = i
      ∧ c / 2 ^ s.log2Len % 2 ^ s.fld F.TTB_SLOT_W0.DIV i = s.fld F.TTB_SLOT_W0.PHASE i % 2 ^ s.fld F.TTB_SLOT_W0.DIV i := by
  have hmod : c % 2 ^ s.log2Len < 2 ^ s.log2Len := Nat.mod_lt _ (Nat.two_pow_pos _)
  simp only [State.fires, State.slotLive, State.slotPeriod, State.slotOffset, Bool.and_eq_true, decide_eq_true_eq, beq_iff_eq, hcls,
    and_true, s.flag_iff_one F.TTB_SLOT_W0.VALID i rfl, Nat.pow_add]
  constructor
  · rintro ⟨⟨hvalid, hi⟩, hc⟩
    exact ⟨hvalid, (mod_mul_eq_iff _ _ _ _ _ hi).1 hc⟩
  · rintro ⟨hvalid, hslot, hpass⟩
    have hi : i < 2 ^ s.log2Len := hslot ▸ hmod
    exact ⟨⟨hvalid, hi⟩, (mod_mul_eq_iff _ _ _ _ _ hi).2 ⟨hslot, hpass⟩⟩

theorem State.fires_reserved (s : State) (i c : Nat) (h : 8 < s.fld F.TTB_SLOT_W0.CLASS i) : s.fires i c = false := by
  simp [State.fires, State.slotLive, h]

/-- What a firing is decided by: the calendar length, and the slot's VALID, CLASS, DIV and the PHASE bits below DIV. -/
theorem State.fires_congr {s t : State} {i : Nat} (hlen : t.log2Len = s.log2Len)
    (hvalid : t.fld F.TTB_SLOT_W0.VALID i = s.fld F.TTB_SLOT_W0.VALID i) (hcls : t.fld F.TTB_SLOT_W0.CLASS i = s.fld F.TTB_SLOT_W0.CLASS i)
    (hdiv : t.fld F.TTB_SLOT_W0.DIV i = s.fld F.TTB_SLOT_W0.DIV i)
    (hphase : t.fld F.TTB_SLOT_W0.PHASE i % 2 ^ s.fld F.TTB_SLOT_W0.DIV i = s.fld F.TTB_SLOT_W0.PHASE i % 2 ^ s.fld F.TTB_SLOT_W0.DIV i)
    (c : Nat) : t.fires i c = s.fires i c := by
  simp only [State.fires, State.slotLive, State.slotPeriod, State.slotOffset, State.flag, hlen, hvalid, hcls, hdiv, hphase]

theorem State.fires_setFld_phase (s : State) (i c p : Nat)
    (hp : p % 2 ^ s.fld F.TTB_SLOT_W0.DIV i = s.fld F.TTB_SLOT_W0.PHASE i % 2 ^ s.fld F.TTB_SLOT_W0.DIV i) :
    (s.setFld F.TTB_SLOT_W0.PHASE i p).fires i c = s.fires i c := by
  have hdiv : s.fld F.TTB_SLOT_W0.DIV i ≤ 15 := Nat.le_of_lt_succ (s.fld_lt F.TTB_SLOT_W0.DIV i)
  refine State.fires_congr ?_ ?_ ?_ ?_ ?_ c
  · exact s.fld_setFld_reg_ne _ _ _ _ _ (by decide)
  · exact s.fld_setFld_bits_ne _ _ _ _ _ (by decide) (by decide)
  · exact s.fld_setFld_bits_ne _ _ _ _ _ (by decide) (by decide)
  · exact s.fld_setFld_bits_ne _ _ _ _ _ (by decide) (by decide)
  · rw [s.fld_setFld_same F.TTB_SLOT_W0.PHASE i p ⟨by decide, by decide⟩, ← hp]
    exact Nat.mod_mod_of_dvd p (Nat.pow_dvd_pow 2 hdiv)

/-- Settles O4: R71's rule is `State.fires_iff`; the PHASE bits at and above DIV are no part of it (`State.fires_setFld_phase`). -/
theorem entryFires : Obligations.EntryFires := by
  unfold Obligations.EntryFires
  intro s i c p l d valid
  refine ⟨fun hcls => ⟨s.fires_iff i c hcls, fun hd => ?_, s.fires_setFld_phase i c p⟩, s.fires_reserved i c⟩
  have hrule := s.fires_iff i c hcls
  rw [show s.fld F.TTB_SLOT_W0.DIV i = 0 from hd] at hrule
  simp only [Nat.pow_zero, Nat.mod_one, and_true] at hrule
  exact hrule

end Sys2Proof.Machine
end

section
namespace Sys2Proof.Machine

/-! ## What gates, Slack water and the scheduler leave of the calendar (R85, R306, R481) -/

/-- The registers of the calendar (R93, R94). -/
def calendarReg : Reg → Bool
  | .TTB_CTL | .TTB_CYCLE | .TTB_STATUS | .TTB_SLOT_W0 | .TTB_SLOT_W1 => true
  | _ => false

/-- From s to t the calendar, network time and the staged words stand, and no message is taken back. -/
structure CalendarKept (s t : State) : Prop where
  tide : t.tide = s.tide
  time : t.time = s.time
  stage : t.stage = s.stage
  out : ∀ m ∈ s.out, m ∈ t.out
  words : ∀ r i, calendarReg r = true → t.rd r i = s.rd r i

variable {s t u : State}

theorem CalendarKept.refl (s : State) : CalendarKept s s := ⟨rfl, rfl, rfl, fun _ => id, fun _ _ _ => rfl⟩

theorem CalendarKept.fld (h : CalendarKept s t) (f : Fld) (i : Nat) (hf : calendarReg f.reg = true) : t.fld f i = s.fld f i := by
  rw [State.fld, h.words _ _ hf, State.fld]

theorem CalendarKept.staged (h : CalendarKept s t) (r : Reg) (i : Nat) : t.staged r i = s.staged r i := by
  rw [State.staged, h.stage, State.staged]

theorem CalendarKept.setFld {f i v} (h : CalendarKept s t) (hf : calendarReg f.reg = false) : CalendarKept s (t.setFld f i v) := by
  refine ⟨h.tide, h.time, h.stage, h.out, fun r j hr => ?_⟩
  have hne : f.reg ≠ r := by rintro rfl; simp [hf] at hr
  rw [State.rd_setFld_reg_ne _ _ _ _ _ _ hne, h.words r j hr]

theorem CalendarKept.emit {m} (h : CalendarKept s t) : CalendarKept s (t.emit m) :=
  ⟨h.tide, h.time, h.stage, fun x hx => List.mem_append_left _ (h.out x hx), h.words⟩

theorem CalendarKept.answer {r} (h : CalendarKept s t) : CalendarKept s (t.answer r) := ⟨h.tide, h.time, h.stage, h.out, h.words⟩

theorem CalendarKept.putSch {x} (h : CalendarKept s t) : CalendarKept s (t.putSch x) := ⟨h.tide, h.time, h.stage, h.out, h.words⟩

theorem CalendarKept.putLink {x} (h : CalendarKept s t) : CalendarKept s (t.putLink x) := ⟨h.tide, h.time, h.stage, h.out, h.words⟩

theorem CalendarKept.ite {c} [Decidable c] {a b : State} (ha : CalendarKept s a) (hb : CalendarKept s b) :
    CalendarKept s (if c then a else b) := by
  split
  · exact ha
  · exact hb

theorem CalendarKept.foldl {α : Type} {f : State → α → State} {l : List α} (h : CalendarKept s t)
    (hf : ∀ {u x}, CalendarKept s u → CalendarKept s (f u x)) : CalendarKept s (l.foldl f t) := by
  induction l generalizing t with
  | nil => exact h
  | cons x l ih => exact ih (hf h)

/-! ### The scheduler and the gates -/

theorem CalendarKept.wake {c} (h : CalendarKept s t) : CalendarKept s (t.wake c) := .ite h h.putSch

theorem CalendarKept.settle (h : CalendarKept s t) : CalendarKept s t.settle := (h.foldl fun hu => hu.wake).putSch

theorem CalendarKept.gateSwap {p} (h : CalendarKept s t) : CalendarKept s (t.gateSwap p) :=
  ((((h.putSch.setFld rfl).setFld rfl).setFld rfl).setFld rfl).setFld rfl

theorem CalendarKept.gateStep (h : CalendarKept s t) : CalendarKept s t.gateStep := h.foldl fun hu => hu.gateSwap

/-! ### Slack water -/

theorem CalendarKept.setMacFld {k f g i v} (h : CalendarKept s t) (hf : calendarReg f.reg = false) (hg : calendarReg g.reg = false) :
    CalendarKept s (t.setFld (macF k f g) i v) := by
  refine h.setFld ?_
  unfold macF
  split
  · exact hf
  · exact hg

theorem CalendarKept.setSlackMode {k m} (h : CalendarKept s t) : CalendarKept s (t.setSlackMode k m) := h.setMacFld rfl rfl

theorem CalendarKept.slackEnd {k} (h : CalendarKept s t) : CalendarKept s (t.slackEnd k) :=
  (h.putLink.setSlackMode.setMacFld rfl rfl).setMacFld rfl rfl

theorem CalendarKept.slackWithdraw {k} (h : CalendarKept s t) : CalendarKept s (t.slackWithdraw k) := h.emit.slackEnd

theorem CalendarKept.slackPropose {k x} (h : CalendarKept s t) : CalendarKept s (t.slackPropose k x) :=
  (CalendarKept.ite h.putLink.setSlackMode h.putLink).emit

theorem CalendarKept.lldpSend {k} (h : CalendarKept s t) : CalendarKept s (t.lldpSend k) := by
  have hshown : CalendarKept s (t.setFld (macF k F.MAC_SLACK_STAT.PROPOSER F.ATL_SLACK_STAT.PROPOSER) (macI k) (b2n (t.proposes k))) :=
    h.setMacFld rfl rfl
  dsimp only [State.lldpSend]
  refine .ite h (.ite h.emit (.ite hshown.emit (.ite (.ite hshown.slackWithdraw hshown.emit) ?_)))
  split
  · exact hshown.emit
  · exact .ite hshown.emit hshown.slackPropose

theorem CalendarKept.slackRenew {k} (h : CalendarKept s t) : CalendarKept s (t.slackRenew k) := h.slackWithdraw.lldpSend

theorem CalendarKept.slackCheck {k} (h : CalendarKept s t) : CalendarKept s (t.slackCheck k) := by
  unfold State.slackCheck
  split
  · exact .ite h h.slackRenew
  · exact h

theorem CalendarKept.slackCheckAll (h : CalendarKept s t) : CalendarKept s t.slackCheckAll := h.foldl fun hu => hu.slackCheck

end Sys2Proof.Machine
end

section
namespace Sys2Proof.Machine

/-! ## The evaluation at a boundary (R73, R85) -/

/-- The state with the boundary of network time taken. -/
def State.boundaryTaken (s : State) : State := s.putTime { s.time with boundary := false }

/-- Where no step is due, what hangs on a boundary elsewhere leaves the evaluation of the calendar as it is. -/
theorem exec_tideBoundary (s : State) (hon : s.time.boundary = true) (hstep : s.time.step = none) :
    ∃ t, exec .tideBoundary s = done t ∧ CalendarKept s.boundaryTaken.evaluate t := by
  have hnone : s.time.step.isSome = false := by simp [hstep]
  refine ⟨s.boundaryWork, ?_, ?_⟩
  · change done (s.when s.time.boundary State.boundaryWork) = _
    simp [State.when, hon]
  · have heval : s.tideBoundary = s.boundaryTaken.evaluate := by
      simp only [State.tideBoundary, State.putTime_time, hnone, Bool.false_eq_true, if_false, State.boundaryTaken]
    simp only [State.boundaryWork, hnone, Bool.false_eq_true, if_false, heval]
    exact (CalendarKept.refl _).gateStep.slackCheckAll.settle

theorem State.evaluate_waits (s : State) (h : ((s.time.now / 4096 + 1 : Nat) : Int) ≤ s.tide.cLast) :
    s.evaluate = s.setFld F.TTB_STATUS.WAITING 0 1 := if_pos h

/-- The state with cycle c evaluated: it is the last one, and nothing waits. -/
def State.cycleDone (s : State) (c : Nat) : State :=
  ((s.putTide { s.tide with cLast := c }).wr .TTB_CYCLE 0 (BitVec.ofNat 32 c)).setFld F.TTB_STATUS.WAITING 0 0

/-- The next cycle is evaluated: no cycle is skipped, and the entry of its slot is sent. -/
theorem State.evaluate_next (s : State) {c : Nat} (hc : s.time.now / 4096 + 1 = c) (hnext : (c : Int) = s.tide.cLast + 1)
    (hpend : s.fld F.TTB_CTL.LEN_PEND 0 = 0) : s.evaluate = (s.sendSlot c (c % 2 ^ s.log2Len)).cycleDone c := by
  have hnew : ¬ (c : Int) ≤ s.tide.cLast := by omega
  have hnone : ¬ (c : Int) ≤ (c : Int) - 1 := by omega
  have hskip : s.skipTo c = s := by
    simp [State.skipTo, State.skipRange, State.flag, hpend, ← hnext]
  simp only [State.evaluate, hc, if_neg hnew, hskip]
  rfl

theorem State.rd_cycleDone (s : State) (c : Nat) (r : Reg) (i : Nat) (h : .TTB_CYCLE ≠ r ∧ .TTB_STATUS ≠ r) :
    (s.cycleDone c).rd r i = s.rd r i :=
  (State.rd_setFld_reg_ne _ _ _ _ _ _ h.2).trans (State.rd_wr_ne _ _ _ _ _ _ fun e => h.1 e.1)

theorem State.fld_cycleDone (s : State) (c : Nat) (f : Fld) (i : Nat) (h : .TTB_CYCLE ≠ f.reg ∧ .TTB_STATUS ≠ f.reg) :
    (s.cycleDone c).fld f i = s.fld f i := by rw [State.fld, s.rd_cycleDone c _ _ h, State.fld]

theorem State.cycle_cycleDone (s : State) (c : Nat) : (s.cycleDone c).rd .TTB_CYCLE 0 = BitVec.ofNat 32 c :=
  (State.rd_setFld_reg_ne _ _ _ _ _ _ (by decide)).trans (State.rd_wr_same _ _ _ _)

theorem State.waiting_cycleDone (s : State) (c : Nat) : (s.cycleDone c).fld F.TTB_STATUS.WAITING 0 = 0 :=
  State.fld_setFld_eq _ _ _ _ (by decide) (by decide)

theorem State.sendSlot_time (s : State) (c i : Nat) : (s.sendSlot c i).time = s.time := by
  simp only [State.sendSlot]
  split
  · split
    · split <;> rfl
    · split <;> rfl
  · rfl

/-- The state with the firing of entry i for cycle c sent, before the entry itself changes (R73, R74). -/
def State.slotSent (s : State) (c i : Nat) : State :=
  let to_ := targetMask (s.fld F.TTB_SLOT_W1.TARGET i)
  let e : SentFiring := { cls := s.fld F.TTB_SLOT_W0.CLASS i, target := to_, f := s.slotFiring i c, took := [], due := false }
  let t := (s.emit (.firing e.cls to_ e.f)).putTide { s.tide with sent := (e :: s.tide.sent).take 2 }
  if s.fld F.TTB_SLOT_W1.ARG i &&& argMask e.cls = 0 then t else t.satInc F.TTB_ARG_IGN.COUNT 0 1

theorem State.slotSent_out (s : State) (c i : Nat) : (s.slotSent c i).out = s.out
    ++ [.firing (s.fld F.TTB_SLOT_W0.CLASS i) (targetMask (s.fld F.TTB_SLOT_W1.TARGET i)) (s.slotFiring i c)] := by
  simp only [State.slotSent]
  split <;> rfl

theorem State.fld_slotSent (s : State) (c i : Nat) (f : Fld) (j : Nat) (h : .TTB_ARG_IGN ≠ f.reg) :
    (s.slotSent c i).fld f j = s.fld f j := by
  simp only [State.slotSent]
  split
  · rfl
  · exact State.fld_setFld_reg_ne _ _ _ _ _ _ h

theorem State.sendSlot_of_fires (s : State) (c i : Nat) (h : s.fires i c = true) :
    s.sendSlot c i = if s.flag F.TTB_SLOT_W0.ONCE i then ((s.slotSent c i).setFld F.TTB_SLOT_W0.DEFERRED i 0).setFld F.TTB_SLOT_W0.VALID i 0
      else (s.slotSent c i).setFld F.TTB_SLOT_W0.DEFERRED i 0 := if_pos h

theorem State.valid_of_fires (s : State) (i c : Nat) (h : s.fires i c = true) : s.fld F.TTB_SLOT_W0.VALID i = 1 := by
  simp only [State.fires, State.slotLive, Bool.and_eq_true] at h
  exact (s.flag_iff_one F.TTB_SLOT_W0.VALID i rfl).1 h.1.1.1

/-- What the sending of an entry leaves of it: DEFERRED clears, and VALID with ONCE (R76, R85); the message is out (R73). -/
theorem State.sendSlot_effect (s : State) (c i : Nat) (h : s.fires i c = true) :
    .firing (s.fld F.TTB_SLOT_W0.CLASS i) (targetMask (s.fld F.TTB_SLOT_W1.TARGET i)) (s.slotFiring i c) ∈ (s.sendSlot c i).out
    ∧ (s.sendSlot c i).fld F.TTB_SLOT_W0.DEFERRED i = 0
    ∧ (s.sendSlot c i).fld F.TTB_SLOT_W0.VALID i = if s.fld F.TTB_SLOT_W0.ONCE i = 1 then 0 else 1 := by
  have hdef : ((s.slotSent c i).setFld F.TTB_SLOT_W0.DEFERRED i 0).fld F.TTB_SLOT_W0.DEFERRED i = 0 :=
    State.fld_setFld_eq _ _ _ _ (by decide) (by decide)
  have honce := s.flag_iff_one F.TTB_SLOT_W0.ONCE i rfl
  rw [s.sendSlot_of_fires c i h]
  by_cases ho : s.flag F.TTB_SLOT_W0.ONCE i = true
  · rw [if_pos ho, if_pos (honce.1 ho)]
    refine ⟨?_, ?_, State.fld_setFld_eq _ _ _ _ (by decide) (by decide)⟩
    · simp [State.slotSent_out]
    · rw [State.fld_setFld_bits_ne _ _ _ _ _ _ (by decide) (by decide), hdef]
  · rw [if_neg ho, if_neg (mt honce.2 ho)]
    refine ⟨?_, hdef, ?_⟩
    · simp [State.slotSent_out]
    · rw [State.fld_setFld_bits_ne _ _ _ _ _ _ (by decide) (by decide), State.fld_slotSent _ _ _ _ _ (by decide), s.valid_of_fires i c h]

/-- TIDE_BOUNDARY with no step due, at the next cycle, with no calendar length pending (R85). -/
theorem tideBoundary_next (s : State) {c i : Nat} (hc : s.time.now / 4096 + 1 = c) (hi : c % 2 ^ s.log2Len = i)
    (hon : s.time.boundary = true) (hstep : s.time.step = none) (hnext : (c : Int) = s.tide.cLast + 1)
    (hpend : s.fld F.TTB_CTL.LEN_PEND 0 = 0) :
    Completes .tideBoundary s (fun t => t.tide.cLast = c ∧ t.rd .TTB_CYCLE 0 = BitVec.ofNat 32 c ∧ t.time.now = s.time.now
      ∧ t.fld F.TTB_STATUS.WAITING 0 = 0 ∧ (s.fires i c = true →
        .firing (s.fld F.TTB_SLOT_W0.CLASS i) (targetMask (s.fld F.TTB_SLOT_W1.TARGET i)) (s.slotFiring i c) ∈ t.out
        ∧ t.fld F.TTB_SLOT_W0.DEFERRED i = 0
        ∧ t.fld F.TTB_SLOT_W0.VALID i = if s.fld F.TTB_SLOT_W0.ONCE i = 1 then 0 else 1)) := by
  obtain ⟨t, he, hk⟩ := exec_tideBoundary s hon hstep
  have heval : s.boundaryTaken.evaluate = (s.boundaryTaken.sendSlot c i).cycleDone c := by
    rw [s.boundaryTaken.evaluate_next hc hnext hpend, ← hi]
    rfl
  rw [heval] at hk
  refine .of_eq he ⟨?_, ?_, ?_, ?_, fun hfires => ?_⟩
  · rw [hk.tide]; rfl
  · rw [hk.words _ _ rfl, State.cycle_cycleDone]
  · rw [hk.time]
    have hnow := congrArg TimeUnit.now (s.boundaryTaken.sendSlot_time c i)
    exact hnow
  · rw [hk.fld _ _ rfl, State.waiting_cycleDone]
  · obtain ⟨hout, hdeferred, hvalid⟩ := s.boundaryTaken.sendSlot_effect c i hfires
    refine ⟨hk.out _ hout, ?_, ?_⟩
    · rw [hk.fld _ _ rfl, State.fld_cycleDone _ _ _ _ (by decide), hdeferred]
    · rw [hk.fld _ _ rfl, State.fld_cycleDone _ _ _ _ (by decide)]
      exact hvalid

/-- TIDE_BOUNDARY at a cycle that was evaluated before: the calendar waits (R85). -/
theorem tideBoundary_waits (s : State) (hon : s.time.boundary = true) (hstep : s.time.step = none)
    (hold : ((s.time.now / 4096 + 1 : Nat) : Int) ≤ s.tide.cLast) :
    Completes .tideBoundary s (fun t =>
      t.fld F.TTB_STATUS.WAITING 0 = 1 ∧ t.tide.cLast = s.tide.cLast ∧ t.rd .TTB_CYCLE 0 = s.rd .TTB_CYCLE 0) := by
  obtain ⟨t, he, hk⟩ := exec_tideBoundary s hon hstep
  rw [s.boundaryTaken.evaluate_waits hold] at hk
  refine .of_eq he ⟨?_, ?_, ?_⟩
  · rw [hk.fld _ _ rfl, State.fld_setFld_eq _ _ _ _ (by decide) (by decide)]
  · rw [hk.tide]; rfl
  · rw [hk.words _ _ rfl, State.rd_setFld_reg_ne _ _ _ _ _ _ (by decide)]
    rfl

end Sys2Proof.Machine
end

section
namespace Sys2Proof.Machine

/-! ## Writes of the calendar (R77 to R79) -/

theorem fieldOf_log2Len (v : Word) : fieldOf v 8 4 = v.toNat / 16 % 32 := bits_eq _ _ _

theorem exec_ttbCtlWrite (s : State) (v : BitVec 32) (h : s.reachable 0 = true) :
    ∃ t, exec (.ttbCtlWrite v) s = done t ∧ CalendarKept (s.ttbCtlWrite v) t := by
  refine ⟨(s.ttbCtlWrite v).slackCheckAll.answer .ok, ?_, ?_⟩
  · change done (s.atChip 0 _) = _
    rw [s.atChip_reachable _ _ h]
  · exact (CalendarKept.refl _).slackCheckAll.answer

theorem ttbCtlWrite_outside (s : State) (v : BitVec 32) (h : s.reachable 0 = true)
    (hn : v.toNat / 16 % 32 < 8 ∨ 16 < v.toNat / 16 % 32) : Completes (.ttbCtlWrite v) s (fun t => t.rd .TTB_CTL 0 = s.rd .TTB_CTL 0) := by
  obtain ⟨t, he, hk⟩ := exec_ttbCtlWrite s v h
  have hsame : s.ttbCtlWrite v = s := if_pos (by rwa [fieldOf_log2Len])
  rw [hsame] at hk
  exact .of_eq he (hk.words _ _ rfl)

/-- The fields of TTB_CTL after NEXT and LEN_PEND are written. -/
theorem State.fld_lenNoted (s : State) {n p : Nat} (hn : n < 32) (hp : p < 2) :
    ((s.setFld F.TTB_CTL.NEXT 0 n).setFld F.TTB_CTL.LEN_PEND 0 p).fld F.TTB_CTL.NEXT 0 = n
    ∧ ((s.setFld F.TTB_CTL.NEXT 0 n).setFld F.TTB_CTL.LEN_PEND 0 p).fld F.TTB_CTL.LOG2_LEN 0 = s.log2Len
    ∧ ((s.setFld F.TTB_CTL.NEXT 0 n).setFld F.TTB_CTL.LEN_PEND 0 p).fld F.TTB_CTL.LEN_PEND 0 = p := by
  refine ⟨?_, ?_, State.fld_setFld_eq _ _ _ _ (by decide) hp⟩
  · rw [State.fld_setFld_bits_ne _ _ _ _ _ _ (by decide) (by decide)]
    exact State.fld_setFld_eq _ _ _ _ (by decide) hn
  · rw [State.fld_setFld_bits_ne _ _ _ _ _ _ (by decide) (by decide), State.fld_setFld_bits_ne _ _ _ _ _ _ (by decide) (by decide),
      State.log2Len]

/-- The fields of TTB_CTL after a write of LOG2_LEN in range: at once before SERVICE, else pending (R79). -/
theorem State.ttbCtlWrite_fields (s : State) (v : BitVec 32) {n : Nat} (hv : fieldOf v 8 4 = n) (hlo : 8 ≤ n) (hhi : n ≤ 16) :
    (s.ttbCtlWrite v).fld F.TTB_CTL.NEXT 0 = n
    ∧ (s.ttbCtlWrite v).fld F.TTB_CTL.LOG2_LEN 0 = (if s.plat.coldBoot then n else s.log2Len)
    ∧ (s.ttbCtlWrite v).fld F.TTB_CTL.LEN_PEND 0 = (if s.plat.coldBoot ∨ n = s.log2Len then 0 else 1) := by
  have hin : ¬ (n < 8 ∨ 16 < n) := by omega
  have hn : n < 32 := by omega
  simp only [State.ttbCtlWrite, hv, if_neg hin]
  by_cases hcold : s.plat.coldBoot = true
  · obtain ⟨hnext, hlen, hpend⟩ := (s.setFld F.TTB_CTL.LOG2_LEN 0 n).fld_lenNoted hn (p := 0) (by decide)
    have hset : (s.setFld F.TTB_CTL.LOG2_LEN 0 n).log2Len = n := State.fld_setFld_eq _ _ _ _ (by decide) hn
    rw [if_pos hcold, if_pos hcold, if_pos (.inl hcold)]
    exact ⟨hnext, hlen.trans hset, hpend⟩
  · rw [if_neg hcold, if_neg hcold]
    by_cases hsame : n = s.log2Len
    · rw [if_pos hsame, if_pos (.inr hsame)]
      exact s.fld_lenNoted hn (by decide)
    · rw [if_neg hsame, if_neg fun h => h.elim hcold hsame]
      exact s.fld_lenNoted hn (by decide)

theorem ttbCtlWrite_inside (s : State) (v : BitVec 32) (h : s.reachable 0 = true) (hlo : 8 ≤ v.toNat / 16 % 32)
    (hhi : v.toNat / 16 % 32 ≤ 16) :
    Completes (.ttbCtlWrite v) s (fun t => t.fld F.TTB_CTL.NEXT 0 = v.toNat / 16 % 32
      ∧ t.fld F.TTB_CTL.LOG2_LEN 0 = (if s.plat.coldBoot then v.toNat / 16 % 32 else s.log2Len)
      ∧ t.fld F.TTB_CTL.LEN_PEND 0 = (if s.plat.coldBoot ∨ v.toNat / 16 % 32 = s.log2Len then 0 else 1)) := by
  obtain ⟨t, he, hk⟩ := exec_ttbCtlWrite s v h
  obtain ⟨hnext, hlen, hpend⟩ := s.ttbCtlWrite_fields v (fieldOf_log2Len v) hlo hhi
  exact .of_eq he ⟨(hk.fld _ _ rfl).trans hnext, (hk.fld _ _ rfl).trans hlen, (hk.fld _ _ rfl).trans hpend⟩

theorem State.staged_setStage (s : State) (r : Reg) (i : Nat) (x : Option Word) : (s.setStage r i x).staged r i = x :=
  Tbl.get_set_same _ _ _ _

theorem State.staged_answer (s : State) (x : Reply) (r : Reg) (i : Nat) : (s.answer x).staged r i = s.staged r i := rfl

theorem State.staged_writeTyped (s : State) (q : Reg) (j : Nat) (v : Word) (r : Reg) (i : Nat) :
    (s.writeTyped q j v).staged r i = s.staged r i := rfl

theorem State.staged_setStage_ne (s : State) (r q : Reg) (i j : Nat) (x : Option Word) (h : (q, j) ≠ (r, i)) :
    (s.setStage r i x).staged q j = s.staged q j := by
  refine Tbl.get_set_ne _ _ _ fun hk => h ?_
  obtain ⟨rfl, rfl⟩ := regKey_inj.1 hk
  rfl

theorem ttbSlotW1Write_stages (s : State) (slot : BitVec 16) (v : BitVec 32) (h : s.reachable 0 = true) :
    Completes (.ttbSlotW1Write slot v) s (fun t => t.staged .TTB_SLOT_W1 slot.toNat = some v
      ∧ (∀ r k, (r, k) ≠ (Reg.TTB_SLOT_W1, slot.toNat) → t.staged r k = s.staged r k) ∧ t = (s.putStage t.stage).answer .ok) := by
  have he : exec (.ttbSlotW1Write slot v) s = done ((s.setStage .TTB_SLOT_W1 slot.toNat (some v)).answer .ok) := by
    change done (s.atChip 0 _) = _
    rw [s.atChip_reachable _ _ h]
    rfl
  refine .of_eq he ⟨?_, fun r k hne => ?_, rfl⟩
  · rw [State.staged_answer, State.staged_setStage]
  · rw [State.staged_answer, State.staged_setStage_ne _ _ _ _ _ _ hne]

/-- A write of TTB_SLOT_W0 ends as the commit leaves the slot: renewed agreements touch nothing of the calendar (R481). -/
theorem exec_ttbSlotW0Write (s : State) (who : Requester) (slot : BitVec 16) (v : BitVec 32) (h : s.reachable 0 = true) :
    ∃ t, exec (.ttbSlotW0Write who slot v) s = done t ∧ CalendarKept (s.slotW0Write who slot.toNat v) t := by
  have hcommit : CalendarKept (s.slotW0Write who slot.toNat v) (s.slotCommit who slot.toNat v) :=
    .ite (.refl _) ((CalendarKept.refl _).foldl fun hu => hu.slackRenew)
  refine ⟨(s.slotCommit who slot.toNat v).answer .ok, ?_, hcommit.answer⟩
  change done (s.atChip 0 _) = _
  rw [s.atChip_reachable _ _ h]

/-- A typed write of fields that share no bit with a field leaves it. -/
theorem fieldOf_writeSpecs_ne (v : Word) (hi lo : Nat) (l : List FSpec) (w : Word)
    (h : ∀ f ∈ l, (f.ty = .rw ∨ f.ty = .ro) ∧ f.lo ≤ f.hi ∧ f.hi < 32 ∧ (f.hi < lo ∨ hi < f.lo)) :
    fieldOf (l.foldl (writeSpec v) w) hi lo = fieldOf w hi lo := by
  induction l generalizing w with
  | nil => rfl
  | cons f l ih =>
    obtain ⟨hty, hle, hlt, hdisj⟩ := h f List.mem_cons_self
    rw [List.foldl_cons, ih _ fun x hx => h x (List.mem_cons_of_mem _ hx)]
    rcases hty with hrw | hro
    · simp only [writeSpec, hrw]
      exact fieldOf_withField_ne w f.hi f.lo hi lo _ hle hlt hdisj
    · simp only [writeSpec, hro]

/-- A typed write gives an RW field the written bits, where no field after it shares a bit with it (R7). -/
theorem fieldOf_typedWrite_rw (r : Reg) (k : Nat) (f : FSpec) (v w : Word)
    (hspec : fieldSpecs r = (fieldSpecs r).take k ++ f :: (fieldSpecs r).drop (k + 1)) (hf : f.ty = .rw ∧ f.lo ≤ f.hi ∧ f.hi < 32)
    (hpost : ∀ x ∈ (fieldSpecs r).drop (k + 1), (x.ty = .rw ∨ x.ty = .ro) ∧ x.lo ≤ x.hi ∧ x.hi < 32 ∧ (x.hi < f.lo ∨ f.hi < x.lo)) :
    fieldOf (typedWrite r v w) f.hi f.lo = fieldOf v f.hi f.lo := by
  obtain ⟨hrw, hle, hlt⟩ := hf
  rw [typedWrite, hspec, List.foldl_append, List.foldl_cons, fieldOf_writeSpecs_ne v _ _ _ _ hpost]
  simp only [writeSpec, hrw]
  rw [fieldOf_withField _ _ _ _ hle hlt, Nat.mod_eq_of_lt (fieldOf_lt v _ _)]

/-- The word of a slot after a write of its fields: VALID, CLASS and DIV are the written ones (R94). -/
theorem typedWrite_slotW0 (v w : Word) : fieldOf (typedWrite .TTB_SLOT_W0 v w) 0 0 = v.toNat % 2
    ∧ fieldOf (typedWrite .TTB_SLOT_W0 v w) 7 4 = v.toNat / 16 % 16 ∧ fieldOf (typedWrite .TTB_SLOT_W0 v w) 11 8 = v.toNat / 256 % 16 := by
  have hvalid := fieldOf_typedWrite_rw .TTB_SLOT_W0 0 ⟨0, 0, .rw⟩ v w rfl (by decide) (by decide)
  have hcls := fieldOf_typedWrite_rw .TTB_SLOT_W0 4 ⟨7, 4, .rw⟩ v w rfl (by decide) (by decide)
  have hdiv := fieldOf_typedWrite_rw .TTB_SLOT_W0 5 ⟨11, 8, .rw⟩ v w rfl (by decide) (by decide)
  refine ⟨hvalid.trans ?_, hcls.trans (bits_eq _ _ _), hdiv.trans (bits_eq _ _ _)⟩
  simp [fieldOf, bits_eq]

/-- A commit by firmware: word 0 as written, word 1 from the slot's latch, which is empty then (R77). -/
theorem ttbSlotW0Write_firmware (s : State) (slot : BitVec 16) (v : BitVec 32) (h : s.reachable 0 = true) :
    Completes (.ttbSlotW0Write .firmware slot v) s (fun t =>
      t.fld F.TTB_SLOT_W0.VALID slot.toNat = v.toNat % 2 ∧ t.fld F.TTB_SLOT_W0.CLASS slot.toNat = v.toNat / 16 % 16
      ∧ t.fld F.TTB_SLOT_W0.DIV slot.toNat = v.toNat / 256 % 16 ∧ t.staged .TTB_SLOT_W1 slot.toNat = none
      ∧ t.rd .TTB_SLOT_W1 slot.toNat = (s.staged .TTB_SLOT_W1 slot.toNat).getD (s.rd .TTB_SLOT_W1 slot.toNat)) := by
  obtain ⟨t, he, hk⟩ := exec_ttbSlotW0Write s .firmware slot v h
  obtain ⟨u, hu, hlatch, hword⟩ : ∃ u : State, s.slotW0Write .firmware slot.toNat v = u.writeTyped .TTB_SLOT_W0 slot.toNat v
      ∧ u.staged .TTB_SLOT_W1 slot.toNat = none
      ∧ u.rd .TTB_SLOT_W1 slot.toNat = (s.staged .TTB_SLOT_W1 slot.toNat).getD (s.rd .TTB_SLOT_W1 slot.toNat) := by
    cases hst : s.staged .TTB_SLOT_W1 slot.toNat with
    | none => exact ⟨s, by simp [State.slotW0Write, isFirmware, hst], hst, rfl⟩
    | some w =>
      exact ⟨(s.wr .TTB_SLOT_W1 slot.toNat w).setStage .TTB_SLOT_W1 slot.toNat none, by simp [State.slotW0Write, isFirmware, hst],
        State.staged_setStage _ _ _ _, s.rd_wr_same _ _ _⟩
  rw [hu] at hk
  have hfld : ∀ f : Fld, f.reg = .TTB_SLOT_W0 →
      t.fld f slot.toNat = fieldOf (typedWrite .TTB_SLOT_W0 v (u.rd .TTB_SLOT_W0 slot.toNat)) f.hi f.lo := fun f hf =>
    (hk.fld f slot.toNat (by rw [hf]; rfl)).trans (State.fld_wr_same _ _ _ _ _ hf)
  obtain ⟨hvalid, hcls, hdiv⟩ := typedWrite_slotW0 v (u.rd .TTB_SLOT_W0 slot.toNat)
  refine .of_eq he ⟨(hfld _ rfl).trans hvalid, (hfld _ rfl).trans hcls, (hfld _ rfl).trans hdiv, ?_, ?_⟩
  · exact (hk.staged _ _).trans ((State.staged_writeTyped _ _ _ _ _ _).trans hlatch)
  · have hkept : (u.writeTyped .TTB_SLOT_W0 slot.toNat v).rd .TTB_SLOT_W1 slot.toNat = u.rd .TTB_SLOT_W1 slot.toNat :=
      State.rd_wr_ne _ _ _ _ _ _ (by simp)
    exact (hk.words .TTB_SLOT_W1 slot.toNat rfl).trans (hkept.trans hword)

/-- Another requester makes no entry of a class that is firmware's (R78). -/
theorem ttbSlotW0Write_refused (s : State) (who : Requester) (slot : BitVec 16) (v : BitVec 32) (hwho : isFirmware who = false)
    (h : s.reachable 0 = true) (hcls : v.toNat / 16 % 16 = 4 ∨ v.toNat / 16 % 16 = 6) :
    Completes (.ttbSlotW0Write who slot v) s (fun t => t.rd .TTB_SLOT_W0 slot.toNat = s.rd .TTB_SLOT_W0 slot.toNat
      ∧ t.rd .TTB_SLOT_W1 slot.toNat = s.rd .TTB_SLOT_W1 slot.toNat) := by
  obtain ⟨t, he, hk⟩ := exec_ttbSlotW0Write s who slot v h
  have hclass : firmwareClass (fieldOf v 7 4) = true := by
    rw [show fieldOf v 7 4 = v.toNat / 16 % 16 from bits_eq _ _ _]
    rcases hcls with h4 | h6
    · simp [firmwareClass, h4]
    · simp [firmwareClass, h6]
  have hsame : s.slotW0Write who slot.toNat v = s := if_pos (by simp [hwho, hclass])
  rw [hsame] at hk
  exact .of_eq he ⟨hk.words _ _ rfl, hk.words _ _ rfl⟩

end Sys2Proof.Machine
end

section
namespace Sys2Proof.Machine

/-! ## A firing at its unit (R73 to R75, R82) -/

theorem State.unitWork_setUnitWork (s : State) (u : Unit_) (cls : Nat) (w : UnitWork) : (s.setUnitWork u cls w).unitWork u cls = w :=
  Tbl.get_set_same _ _ _ _

theorem State.isFenced_fireTake (s : State) (u : Unit_) (cls : Nat) (f : Firing) (chip : Nat) :
    (s.fireTake u cls f).isFenced chip = s.isFenced chip := rfl

theorem State.unitWork_fireTake (s : State) (u : Unit_) (cls : Nat) (f : Firing) (x : Unit_) (c : Nat) :
    (s.fireTake u cls f).unitWork x c = s.unitWork x c := rfl

/-- A firing without FORD opens no window (R82). -/
theorem State.openFord_without (s : State) (u : Unit_) (cls : Nat) (f : Firing) (start : Nat) (h : f.ford = false) :
    s.openFord u cls f start = s := if_pos (.inl h)

variable {s : State} {u : Unit_} {f g h : Firing}

theorem State.fireAt_not_due (hdue : s.fireDue u (unitClass u) f = false) : s.fireAt u f = s := by
  simp [State.fireAt, hdue]

theorem State.fireAt_busy (hdue : s.fireDue u (unitClass u) f = true) (hwork : (s.unitWork u (unitClass u)).work = some g) :
    s.fireAt u f = (s.fireTake u (unitClass u) f).fireArrive u (unitClass u) (firingActs (unitClass u) f) := by
  simp [State.fireAt, hdue, State.fireStarts, State.unitWork_fireTake, hwork]

theorem State.fireAt_idle (hdue : s.fireDue u (unitClass u) f = true) (hlive : s.isFenced (unitChip u) = false)
    (hidle : s.unitWork u (unitClass u) = noWork) :
    s.fireAt u f = ((s.fireTake u (unitClass u) f).fireArrive u (unitClass u) (firingActs (unitClass u) f)).beginWork u
      (firingActs (unitClass u) f) := by
  simp [State.fireAt, hdue, State.fireStarts, State.unitWork_fireTake, State.isFenced_fireTake, hlive, hidle, noWork]

theorem State.fireArrive_starts {cls : Nat} (hlive : s.isFenced (unitChip u) = false) (hidle : s.unitWork u cls = noWork)
    (hford : f.ford = false) : s.fireArrive u cls f = s.setUnitWork u cls { work := some f, pend := none } := by
  simp only [State.fireArrive, hlive, hidle, noWork, Bool.false_eq_true, if_false]
  exact State.openFord_without _ _ _ _ _ hford

theorem State.fireArrive_waits {cls : Nat} (hlive : s.isFenced (unitChip u) = false) (hw : s.unitWork u cls = { work := some g, pend := none }) :
    s.fireArrive u cls f = s.setUnitWork u cls { work := some g, pend := some f } := by
  simp only [State.fireArrive, hlive, hw, Bool.false_eq_true, if_false]

theorem State.fireArrive_merges {cls : Nat} (hlive : s.isFenced (unitChip u) = false) (hw : s.unitWork u cls = { work := some g, pend := some h }) :
    s.fireArrive u cls f = (s.setUnitWork u cls { work := some g, pend := some { h with deferred := h.deferred || f.deferred } }).satInc
      F.TTB_OVERRUN.COUNT 0 1 := by
  simp only [State.fireArrive, hlive, hw, Bool.false_eq_true, if_false]

/-- A firing at a unit that works one of its class: it becomes pending (R75). -/
theorem completes_firing_waits {i : Instr} (hi : exec i s = done (s.fireAt u f))
    (hdue : s.fireDue u (unitClass u) f = true) (hlive : s.isFenced (unitChip u) = false)
    (hwork : (s.unitWork u (unitClass u)).work = some g) (hpend : (s.unitWork u (unitClass u)).pend = none) :
    Completes i s (fun t => t = (s.fireTake u (unitClass u) f).setUnitWork u (unitClass u)
      { work := some g, pend := some (firingActs (unitClass u) f) }) := by
  have hw : s.unitWork u (unitClass u) = { work := some g, pend := none } := by rw [← hwork, ← hpend]
  have hwait := State.fireArrive_waits (s := s.fireTake u (unitClass u) f) (f := firingActs (unitClass u) f) hlive hw
  exact .of_eq hi ((State.fireAt_busy hdue hwork).trans hwait)

/-- A firing at a unit that has one of its class pending: it merges, and is counted (R75). -/
theorem completes_firing_merges {i : Instr} (hi : exec i s = done (s.fireAt u f))
    (hdue : s.fireDue u (unitClass u) f = true) (hlive : s.isFenced (unitChip u) = false)
    (hwork : (s.unitWork u (unitClass u)).work = some g) (hpend : (s.unitWork u (unitClass u)).pend = some h) :
    Completes i s (fun t => t.unitWork u (unitClass u) = { work := some g, pend := some { h with deferred := h.deferred || f.deferred } }
      ∧ OnlyRegs (s.putTide t.tide) t [(.TTB_OVERRUN, 0)]
      ∧ (t.rd .TTB_OVERRUN 0).toNat = Nat.min (2 ^ 32 - 1) ((s.rd .TTB_OVERRUN 0).toNat + 1)) := by
  have hw : s.unitWork u (unitClass u) = { work := some g, pend := some h } := by rw [← hwork, ← hpend]
  have hmerge := State.fireArrive_merges (s := s.fireTake u (unitClass u) f) (f := firingActs (unitClass u) f) hlive hw
  refine .of_eq (hi.trans (congrArg done ((State.fireAt_busy hdue hwork).trans hmerge))) ⟨?_, ?_, ?_⟩
  · exact State.unitWork_setUnitWork _ _ _ _
  · exact (OnlyRegs.refl _ _).setFld F.TTB_OVERRUN.COUNT 0 _ (by simp [F.TTB_OVERRUN.COUNT])
  · have hcount := State.fld_satInc_one ((s.fireTake u (unitClass u) f).setUnitWork u (unitClass u)
      { work := some g, pend := some { h with deferred := h.deferred || f.deferred } }) F.TTB_OVERRUN.COUNT 0 (by decide)
    simp only [State.fld, F.TTB_OVERRUN.COUNT, Fld.max, fieldOf_whole] at hcount
    exact hcount

/-! ### The work of a scrub and of a Dredge firing (R230, R545) -/

/-- The end of a work leaves everything but the unit's own work and the ford windows. -/
theorem State.workEnd_eq (s : State) (u : Unit_) (cls : Nat) : ∃ x, s.workEnd u cls
    = (s.setUnitWork u cls { s.unitWork u cls with work := none }).putTide
        { (s.setUnitWork u cls { s.unitWork u cls with work := none }).tide with ford := x } := by
  simp only [State.workEnd]
  split
  · split
    · exact ⟨_, rfl⟩
    · exact ⟨s.tide.ford, rfl⟩
  · exact ⟨s.tide.ford, rfl⟩

theorem scrubAmount_eq (base : Nat) (f : Firing) : scrubAmount base f = base * 2 ^ (f.arg.toNat % 16) * (if f.deferred then 2 else 1) := by
  simp [scrubAmount, bits_eq]

/-- The ARG bits that must be zero in class 3 are not those that say how much a firing checks (R74, R545). -/
theorem scrubAmount_firingActs (base : Nat) (f : Firing) : scrubAmount base (firingActs 3 f) = scrubAmount base f := by
  have hmask : (~~~BitVec.ofNat 10 (argMask 3)).toNat = 15 := by decide
  have harg : (firingActs 3 f).arg.toNat % 16 = f.arg.toNat % 16 := by
    rw [firingActs, BitVec.toNat_and, hmask, show (15 : Nat) = 2 ^ 4 - 1 from rfl, Nat.and_two_pow_sub_one_eq_mod]
    exact Nat.mod_mod _ _
  simp only [scrubAmount_eq, harg]
  rfl

/-- A scrub of the cells that finds no erroneous word: the cursor moves on, and the work ends. -/
theorem State.beginWork_cells (s : State) (f : Firing) (hecc : s.plat.ecc = []) :
    (s.beginWork .cells f).unitWork .cells 3 = { s.unitWork .cells 3 with work := none } ∧ (s.beginWork .cells f).regs = s.regs
    ∧ (s.beginWork .cells f).plat.ecc = []
    ∧ (s.beginWork .cells f).scrubAt .cells = (s.scrubAt .cells + scrubAmount 0x10000 f) % (1048576 * 256)
    ∧ (s.beginWork .cells f).tide.sent = s.tide.sent := by
  have hscrub : s.scrub .cells f = s.scrubMove .cells (scrubAmount 0x10000 f) (cellTotal * 256) := by
    simp only [State.scrub, State.scrubCells, hecc, List.filter_nil, List.foldl_nil]
  obtain ⟨x, hx⟩ := (s.scrub .cells f).workEnd_eq .cells 3
  have hwork : s.beginWork .cells f = (s.scrub .cells f).workEnd .cells 3 := rfl
  rw [hwork, hx, hscrub]
  refine ⟨State.unitWork_setUnitWork _ _ _ _, rfl, hecc, Tbl.get_set_same _ _ _ _, rfl⟩

/-- MEMORY_SCRUB_FIRING at the idle cell buffer. -/
theorem memoryScrubFiring_cells_idle (s : State) (f : Firing) (hdue : s.fireDue .cells 3 f = true) (hlive : s.isFenced 1 = false)
    (hidle : s.unitWork .cells 3 = noWork) (hecc : s.plat.ecc = []) (hford : f.ford = false) :
    Completes (.memoryScrubFiring .cells f) s (fun t => (t.unitWork .cells 3).work = none ∧ t.regs = s.regs ∧ t.plat.ecc = []
      ∧ t.scrubAt .cells = (s.scrubAt .cells + 0x10000 * 2 ^ (f.arg.toNat % 16) * (if f.deferred then 2 else 1)) % (1048576 * 256)
      ∧ t.tide.sent = (s.fireTake .cells 3 f).tide.sent) := by
  have hstart : (s.fireTake .cells 3 f).fireArrive .cells 3 (firingActs 3 f)
      = (s.fireTake .cells 3 f).setUnitWork .cells 3 { work := some (firingActs 3 f), pend := none } :=
    State.fireArrive_starts hlive hidle hford
  have he : exec (.memoryScrubFiring .cells f) s = done (((s.fireTake .cells 3 f).setUnitWork .cells 3
      { work := some (firingActs 3 f), pend := none }).beginWork .cells (firingActs 3 f)) := by
    rw [← hstart]
    exact congrArg done (State.fireAt_idle (u := .cells) hdue hlive hidle)
  obtain ⟨hwork, hregs, hgood, hswept, hsent⟩ := State.beginWork_cells ((s.fireTake .cells 3 f).setUnitWork .cells 3
    { work := some (firingActs 3 f), pend := none }) (firingActs 3 f) hecc
  rw [scrubAmount_firingActs, scrubAmount_eq] at hswept
  exact .of_eq he ⟨congrArg UnitWork.work hwork, hregs, hgood, hswept, hsent⟩

/-- PENDING_FIRING_START at the cell buffer. -/
theorem pendingFiringStart_cells (s : State) (f : Firing) (hpend : s.unitWork .cells 3 = { work := none, pend := some f })
    (hlive : s.isFenced 1 = false) (hecc : s.plat.ecc = []) (hford : f.ford = false) :
    Completes (.pendingFiringStart .cells 3) s (fun t => t.unitWork .cells 3 = { work := none, pend := none } ∧ t.regs = s.regs
      ∧ t.scrubAt .cells = (s.scrubAt .cells + 0x10000 * 2 ^ (f.arg.toNat % 16) * (if f.deferred then 2 else 1)) % (1048576 * 256)) := by
  have hstart : s.startPending .cells 3 = s.setUnitWork .cells 3 { work := some f, pend := none } := by
    simp only [State.startPending, hpend]
    exact State.openFord_without _ _ _ _ _ hford
  have he : exec (.pendingFiringStart .cells 3) s
      = done ((s.setUnitWork .cells 3 { work := some f, pend := none }).beginWork .cells f) := by
    change execPendingFiringStart .cells 3 s = _
    simp only [execPendingFiringStart, show (3 : BitVec 4).toNat = 3 from rfl, hpend, hstart]
    exact congrArg done (if_pos ⟨rfl, hlive⟩)
  obtain ⟨hwork, hregs, -, hswept, -⟩ := State.beginWork_cells (s.setUnitWork .cells 3 { work := some f, pend := none }) f hecc
  rw [scrubAmount_eq] at hswept
  rw [State.unitWork_setUnitWork] at hwork
  exact .of_eq he ⟨hwork, hregs, hswept⟩

/-- DREDGE_FIRING at an idle partition: the buckets that it visits (R230). -/
theorem dredgeFiring_idle (s : State) (b : BitVec 3) (f : Firing) (hdue : s.fireDue (.dice b) 1 f = true)
    (hlive : s.isFenced (unitChip (.dice b)) = false) (hidle : s.unitWork (.dice b) 1 = noWork)
    (hpol : s.polValue (10 + b.toNat) ≠ 0) (hford : f.ford = false) :
    Completes (.dredgeFiring b f) s (fun t => (t.unitWork (.dice b) 1).work = some (firingActs 1 f)
      ∧ t.dredgeLeft b.toNat = 256 * s.polValue (10 + b.toNat) * (if f.deferred then 2 else 1) ∧ t.regs = s.regs) := by
  have hstart : (s.fireTake (.dice b) 1 f).fireArrive (.dice b) 1 (firingActs 1 f)
      = (s.fireTake (.dice b) 1 f).setUnitWork (.dice b) 1 { work := some (firingActs 1 f), pend := none } :=
    State.fireArrive_starts hlive hidle hford
  obtain ⟨t, ht⟩ : ∃ t, ((s.fireTake (.dice b) 1 f).setUnitWork (.dice b) 1 { work := some (firingActs 1 f), pend := none }).dredgeBegin
      b.toNat (firingActs 1 f) = t := ⟨_, rfl⟩
  have hleft : t.dredgeLeft b.toNat = 256 * s.polValue (10 + b.toNat) * (if f.deferred then 2 else 1) := by
    rw [← ht]
    exact Tbl.get_set_same _ _ _ _
  have hsome : t.dredgeLeft b.toNat ≠ 0 := by
    rw [hleft]
    split <;> omega
  have he : exec (.dredgeFiring b f) s = done t := by
    refine congrArg done ((State.fireAt_idle (u := .dice b) hdue hlive hidle).trans ?_)
    change ((s.fireTake (.dice b) 1 f).fireArrive (.dice b) 1 (firingActs 1 f)).beginWork (.dice b) (firingActs 1 f) = t
    simp only [hstart, State.beginWork, ht, if_neg hsome]
  refine .of_eq he ⟨?_, hleft, ?_⟩
  · rw [← ht]
    exact congrArg UnitWork.work (State.unitWork_setUnitWork _ _ _ _)
  · rw [← ht]
    rfl

/-! ### Ford windows and background classes (R81, R83) -/

theorem State.fordWin_setFordWin (s : State) (u : Unit_) (w : Option FordWin) : (s.setFordWin u w).fordWin u = w :=
  Tbl.get_set_same _ _ _ _

theorem State.fordWin_setFordWin_ne (s : State) (u y : Unit_) (w : Option FordWin) (h : unitCode y ≠ unitCode u) :
    (s.setFordWin u w).fordWin y = s.fordWin y := Tbl.get_set_ne _ _ _ h.symm

theorem fordWindowClose_elapsed (s : State) (u : Unit_) (x : FordWin) (hx : s.fordWin u = some x) (hend : x.ends ≤ s.replica (unitChip u)) :
    Completes (.fordWindowClose u) s (fun t => t.fordWin u = none
      ∧ (∀ y, unitCode y ≠ unitCode u → t.fordWin y = s.fordWin y) ∧ t = s.putTide { s.tide with ford := t.tide.ford }) := by
  have he : exec (.fordWindowClose u) s = done (s.setFordWin u none) := by
    change execFordWindowClose u s = _
    simp only [execFordWindowClose, hx, if_pos hend]
  exact .of_eq he ⟨s.fordWin_setFordWin u none, fun y hy => s.fordWin_setFordWin_ne u y none hy, rfl⟩

theorem fordWindowClose_open (s : State) (u : Unit_) (x : FordWin) (hx : s.fordWin u = some x) (hend : s.replica (unitChip u) < x.ends) :
    Completes (.fordWindowClose u) s (fun t => t = s) := by
  have hopen : ¬ x.ends ≤ s.replica (unitChip u) := by omega
  refine .of_eq (t := s) ?_ rfl
  change execFordWindowClose u s = _
  simp only [execFordWindowClose, hx, if_neg hopen]

/-- The state with a background clock of a unit granted to a class (R81). -/
def State.granted (s : State) (u : Unit_) (c : Nat) : State :=
  s.putTide { s.tide with
    bgLast := Tbl.set (fun _ => 0) s.tide.bgLast (unitCode u) c
    bgGrants := Tbl.set (fun _ => 0) s.tide.bgGrants (unitCode u) (Tbl.get (fun _ => 0) s.tide.bgGrants (unitCode u) + 1) }

theorem State.bgLast_granted (s : State) (u : Unit_) (c : Nat) : Tbl.get (fun _ => 0) (s.granted u c).tide.bgLast (unitCode u) = c :=
  Tbl.get_set_same (fun _ => 0) s.tide.bgLast _ _

theorem State.bgGrants_granted (s : State) (u : Unit_) (c : Nat) : Tbl.get (fun _ => 0) (s.granted u c).tide.bgGrants (unitCode u)
    = Tbl.get (fun _ => 0) s.tide.bgGrants (unitCode u) + 1 := by
  simp only [State.granted, State.putTide_tide, Tbl.get_set_same]

theorem exec_backgroundStarvationGrant (s : State) (u : Unit_) (c : Nat)
    (hc : s.nextBackground u (Tbl.get (fun _ => 0) s.tide.bgLast (unitCode u)) = some c) :
    exec (.backgroundStarvationGrant u) s = done ((s.granted u c).grantAccess u c) := by
  change execBackgroundStarvationGrant u s = _
  simp only [execBackgroundStarvationGrant, hc]
  rfl

/-- Only Dredge makes its access in the grant itself. -/
theorem State.grantAccess_of_ne (s : State) (u : Unit_) (c : Nat) (h : c ≠ 1) : s.grantAccess u c = s := by
  unfold State.grantAccess
  split
  · exact if_neg h
  · rfl

theorem backgroundStarvationGrant_other (s : State) (u : Unit_) (c : Nat)
    (hc : s.nextBackground u (Tbl.get (fun _ => 0) s.tide.bgLast (unitCode u)) = some c) (hne : c ≠ 1) :
    Completes (.backgroundStarvationGrant u) s (fun t => Tbl.get (fun _ => 0) t.tide.bgLast (unitCode u) = c
      ∧ Tbl.get (fun _ => 0) t.tide.bgGrants (unitCode u) = Tbl.get (fun _ => 0) s.tide.bgGrants (unitCode u) + 1
      ∧ t = s.putTide { s.tide with bgLast := t.tide.bgLast, bgGrants := t.tide.bgGrants }) := by
  have he : exec (.backgroundStarvationGrant u) s = done (s.granted u c) := by
    rw [exec_backgroundStarvationGrant s u c hc, State.grantAccess_of_ne _ u c hne]
  exact .of_eq he ⟨s.bgLast_granted u c, s.bgGrants_granted u c, rfl⟩

end Sys2Proof.Machine
end

section
namespace Sys2Proof.Machine

/-! ## The Tide Table -/

/-- Settles O12: the calendar through what the evaluation of a cycle and the commit of a slot leave (`CalendarKept`: gates, Slack water
and the scheduler touch nothing of it), the firings through `State.fireAt` at a busy and at an idle unit. -/
theorem tideTable : Obligations.TideTable := by
  unfold Obligations.TideTable
  refine ⟨?_, ?_⟩
  · intro s v slot c i n len
    refine ⟨?_, tideBoundary_waits s, ttbCtlWrite_outside s v, ttbCtlWrite_inside s v, ttbSlotW1Write_stages s slot v,
      ttbSlotW0Write_firmware s slot v, fun who hwho hhere hcls => ttbSlotW0Write_refused s who slot v hwho hhere hcls⟩
    exact fun hon hstep hnext hpend => tideBoundary_next s rfl rfl hon hstep hnext hpend
  · intro s b k u f g h p w due taken busy idle swept
    have hbusy : ∀ i x, exec i s = done (s.fireAt x f) → busy i x (unitClass x) := fun i x hi hdue hwork =>
      ⟨completes_firing_waits hi hdue.1 hdue.2 hwork, completes_firing_merges hi hdue.1 hdue.2 hwork⟩
    refine ⟨hbusy _ (.dice b) rfl, hbusy _ (.auditor k) rfl, hbusy _ .cells rfl, hbusy _ (.netMac p) rfl, ?_, ?_, ?_, ?_,
      fordWindowClose_elapsed s u, fordWindowClose_open s u, backgroundStarvationGrant_other s u, ?_⟩
    · exact fun hnot => .of_eq rfl (State.fireAt_not_due (u := .dice b) hnot)
    · exact fun hdue => memoryScrubFiring_cells_idle s f hdue.1 hdue.2
    · exact fun hdue => dredgeFiring_idle s b f hdue.1 hdue.2
    · exact pendingFiringStart_cells s f
    · exact fun hc => .of_eq (exec_backgroundStarvationGrant s (.dice b) 1 hc) rfl

end Sys2Proof.Machine
end

section
namespace Sys2Proof.Machine

/-! ## The integer instructions (R111, R112, R338) -/

/-- An instruction that gives a register's value, and whose issue is all there is to it, completes with that value. -/
theorem completes_result {i : Instr} {s : State} {th : Nat} {rd : BitVec 5} {src : Bool} {v w : Word} (hrun : Runs s th)
    (hi : exec i s = done (s.issue th true (fun s => s.result th rd src v))) (hv : v = w) : Completes i s (GivesReg s th rd w) :=
  .of_eq (hi.trans (congrArg done (s.issue_runs th _ hrun))) (hv ▸ s.result_gives th rd src v)

theorem completes_int2 {i : Instr} {s : State} {th : Nat} {rd rs1 rs2 : BitVec 5} {op : Word → Word → Word} {v : Word} (hrun : Runs s th)
    (hi : exec i s = done (s.int2 th rd rs1 rs2 op)) (hv : op ((s.thread th).gr rs1) ((s.thread th).gr rs2) = v) :
    Completes i s (GivesReg s th rd v) :=
  .of_eq (hi.trans (congrArg done (s.issue_runs th _ hrun))) (hv ▸ s.result_gives th rd _ _)

theorem completes_int1 {i : Instr} {s : State} {th : Nat} {rd rs1 : BitVec 5} {op : Word → Word} {v : Word} (hrun : Runs s th)
    (hi : exec i s = done (s.int1 th rd rs1 op)) (hv : op ((s.thread th).gr rs1) = v) : Completes i s (GivesReg s th rd v) :=
  .of_eq (hi.trans (congrArg done (s.issue_runs th _ hrun))) (hv ▸ s.result_gives th rd _ _)

/-! ### Their values, as numbers -/

theorem fieldOf_shiftCount (b : Word) : fieldOf b 4 0 = b.toNat % 32 := by simp [fieldOf, bits_eq]

theorem Word.add_eq_ofInt (a b : Word) : a + b = BitVec.ofInt 32 (a.toInt + b.toInt) := by simp [BitVec.ofInt_add]

theorem Word.sub_eq_ofInt (a b : Word) : a - b = BitVec.ofInt 32 (a.toInt - b.toInt) := by
  rw [Int.sub_eq_add_neg, BitVec.ofInt_add, BitVec.ofInt_neg, BitVec.ofInt_toInt, BitVec.ofInt_toInt, BitVec.sub_eq_add_neg]

theorem Word.mul_eq_ofInt (a b : Word) : a * b = BitVec.ofInt 32 (a.toInt * b.toInt) := by simp [BitVec.ofInt_mul]

theorem Word.shiftLeft_eq (a : Word) (n : Nat) : a <<< n = BitVec.ofNat 32 (a.toNat * 2 ^ n) := by
  apply BitVec.eq_of_toNat_eq; simp [Nat.shiftLeft_eq]

theorem Word.ushiftRight_eq (a : Word) (n : Nat) : a >>> n = BitVec.ofNat 32 (a.toNat / 2 ^ n) := by
  have hle : a.toNat / 2 ^ n < 2 ^ 32 := (Nat.div_le_self _ _).trans_lt a.isLt
  apply BitVec.eq_of_toNat_eq
  rw [BitVec.toNat_ushiftRight, BitVec.toNat_ofNat, Nat.shiftRight_eq_div_pow, Nat.mod_eq_of_lt hle]

theorem Word.sshiftRight_eq (a : Word) (n : Nat) : a.sshiftRight n = BitVec.ofInt 32 (a.toInt / 2 ^ n) := by
  rw [BitVec.sshiftRight, Int.shiftRight_eq_div_pow]; norm_cast

theorem boolWord_slt (a b : Word) : boolWord (a.slt b) = if a.toInt < b.toInt then 1 else 0 := by
  simp [boolWord, BitVec.slt]

theorem boolWord_ult (a b : Word) : boolWord (a.ult b) = if a.toNat < b.toNat then 1 else 0 := by
  simp [boolWord, BitVec.ult]

theorem Word.min_eq (a b : Word) : (if a.slt b then a else b) = BitVec.ofInt 32 (min a.toInt b.toInt) := by
  by_cases h : a.toInt < b.toInt
  · rw [if_pos (BitVec.slt_iff_toInt_lt.mpr h), min_eq_left h.le, BitVec.ofInt_toInt]
  · rw [if_neg (mt BitVec.slt_iff_toInt_lt.mp h), min_eq_right (not_lt.mp h), BitVec.ofInt_toInt]

theorem Word.max_eq (a b : Word) : (if a.slt b then b else a) = BitVec.ofInt 32 (max a.toInt b.toInt) := by
  by_cases h : a.toInt < b.toInt
  · rw [if_pos (BitVec.slt_iff_toInt_lt.mpr h), max_eq_right h.le, BitVec.ofInt_toInt]
  · rw [if_neg (mt BitVec.slt_iff_toInt_lt.mp h), max_eq_left (not_lt.mp h), BitVec.ofInt_toInt]

theorem Word.ofNat_toNat (a : Word) : BitVec.ofNat 32 a.toNat = a := by simp

theorem Word.minu_eq (a b : Word) : (if a.ult b then a else b) = BitVec.ofNat 32 (min a.toNat b.toNat) := by
  by_cases h : a.toNat < b.toNat
  · rw [if_pos (BitVec.ult_iff_lt.mpr h), min_eq_left h.le, Word.ofNat_toNat]
  · rw [if_neg (mt BitVec.ult_iff_lt.mp h), min_eq_right (not_lt.mp h), Word.ofNat_toNat]

theorem Word.maxu_eq (a b : Word) : (if a.ult b then b else a) = BitVec.ofNat 32 (max a.toNat b.toNat) := by
  by_cases h : a.toNat < b.toNat
  · rw [if_pos (BitVec.ult_iff_lt.mpr h), max_eq_right h.le, Word.ofNat_toNat]
  · rw [if_neg (mt BitVec.ult_iff_lt.mp h), max_eq_left (not_lt.mp h), Word.ofNat_toNat]

theorem sext_toInt {w : Nat} (x : BitVec w) (hw : w ≤ 32) : (sext x).toInt = x.toInt := BitVec.toInt_signExtend_of_le hw

theorem sext_eq_ofInt {w : Nat} (x : BitVec w) : sext x = BitVec.ofInt 32 x.toInt := rfl

theorem zext_toNat {w : Nat} (x : BitVec w) (hw : w ≤ 32) : (zext x).toNat = x.toNat := by
  have h : x.toNat < 2 ^ 32 := x.isLt.trans_le (Nat.pow_le_pow_right (by decide) hw)
  simp only [zext, BitVec.toNat_setWidth, Nat.mod_eq_of_lt h]

/-- The sum that every address and every immediate makes: a register plus a sign-extended field. -/
theorem Word.add_sext {w : Nat} (a : Word) (x : BitVec w) : a + sext x = BitVec.ofInt 32 (a.toInt + x.toInt) := by
  rw [BitVec.ofInt_add, BitVec.ofInt_toInt, sext_eq_ofInt]

theorem Word.and_zext {w : Nat} (a : Word) (x : BitVec w) (hw : w ≤ 32) : a &&& zext x = BitVec.ofNat 32 (a.toNat &&& x.toNat) := by
  rw [← zext_toNat x hw, ← BitVec.toNat_and, Word.ofNat_toNat]

theorem Word.or_zext {w : Nat} (a : Word) (x : BitVec w) (hw : w ≤ 32) : a ||| zext x = BitVec.ofNat 32 (a.toNat ||| x.toNat) := by
  rw [← zext_toNat x hw, ← BitVec.toNat_or, Word.ofNat_toNat]

theorem Word.xor_zext {w : Nat} (a : Word) (x : BitVec w) (hw : w ≤ 32) : a ^^^ zext x = BitVec.ofNat 32 (a.toNat ^^^ x.toNat) := by
  rw [← zext_toNat x hw, ← BitVec.toNat_xor, Word.ofNat_toNat]

theorem getLsbD_extBits (w : Word) (pos len1 : BitVec 5) (k : Nat) (hk : k < 32) :
    (extBits w pos len1).getLsbD k = (decide (k ≤ len1.toNat) && w.getLsbD (pos.toNat + k)) := by
  rw [extBits, BitVec.getLsbD_ofNat, Nat.testBit_mod_two_pow, Nat.testBit_shiftRight, BitVec.testBit_toNat]
  simp [hk]

theorem getLsbD_insBits (old w : Word) (pos len1 : BitVec 5) (k : Nat) (hk : k < 32) :
    (insBits old w pos len1).getLsbD k
      = if pos.toNat ≤ k ∧ k ≤ pos.toNat + len1.toNat then w.getLsbD (k - pos.toNat) else old.getLsbD k := by
  have hm : (BitVec.ofNat 32 ((2 ^ (len1.toNat + 1) - 1) <<< pos.toNat)).getLsbD k
      = decide (pos.toNat ≤ k ∧ k ≤ pos.toNat + len1.toNat) := by
    rw [BitVec.getLsbD_ofNat, Nat.testBit_shiftLeft, Nat.testBit_two_pow_sub_one]
    simp only [hk, decide_true, Bool.true_and, ← Bool.decide_and]
    exact decide_eq_decide.mpr (by omega)
  simp only [insBits, BitVec.getLsbD_or, BitVec.getLsbD_and, BitVec.getLsbD_not, BitVec.getLsbD_shiftLeft, hm, hk]
  by_cases h : pos.toNat ≤ k ∧ k ≤ pos.toNat + len1.toNat
  · simp [h]
  · simp [h]

/-! ### Taint (R338) -/

theorem Thread.tainted_setTaint (t : Thread) (rd n : BitVec 5) (b : Bool) :
    (t.setTaint rd b).tainted n = if n = 0 then false else if n = rd then b else t.tainted n := by
  by_cases hn : n = 0
  · subst hn; rfl
  have hn' : (n != 0) = true := by simpa using hn
  by_cases hr : rd = 0
  · subst hr; rw [Thread.setTaint, if_pos rfl, if_neg hn, if_neg hn]
  have hbit : ((1 : BitVec 32) <<< rd.toNat).getLsbD n.toNat = decide (n = rd) := by
    rw [show (1 : BitVec 32) <<< rd.toNat = BitVec.twoPow 32 rd.toNat from (BitVec.twoPow_eq 32 _).symm, BitVec.getLsbD_twoPow]
    have hlt : rd.toNat < 32 := rd.isLt
    simp only [hlt, decide_true, Bool.true_and]
    exact decide_eq_decide.mpr ⟨fun h => BitVec.eq_of_toNat_eq h.symm, fun h => h ▸ rfl⟩
  have hlt : n.toNat < 32 := n.isLt
  rw [Thread.setTaint, if_neg hr, if_neg hn, Thread.tainted, Thread.tainted, hn', Bool.true_and, Bool.true_and]
  cases b
  · rw [if_neg (by decide), BitVec.getLsbD_and, BitVec.getLsbD_not, hbit]
    by_cases h : n = rd <;> simp [h, hlt]
  · rw [if_pos rfl, BitVec.getLsbD_or, hbit]
    by_cases h : n = rd <;> simp [h]

theorem State.tainted_result (s : State) (th : Nat) (rd n : BitVec 5) (src : Bool) (v : Word) :
    ((s.result th rd src v).thread th).tainted n
      = if n = 0 then false else if n = rd then (s.thread th).open_ && src else (s.thread th).tainted n := by
  have hset : ∀ t : Thread, ∀ m, (t.setGr rd v).tainted m = t.tainted m := fun t m => by unfold Thread.setGr; split <;> rfl
  have ht : (s.result th rd src v).thread th = ((s.thread th).put rd src v).advance := by simp [State.result, State.retire]
  have ho : ((s.thread th).setGr rd v).tainted n = (s.thread th).tainted n := hset _ n
  rw [ht, ← ho]
  exact Thread.tainted_setTaint _ rd n _

end Sys2Proof.Machine
end

section
namespace Sys2Proof.Machine

/-- The registers that an integer instruction taints (R338). -/
theorem completes_int2_taint {i : Instr} {s : State} {th : Nat} {rd rs1 rs2 : BitVec 5} {op : Word → Word → Word} (hrun : Runs s th)
    (hi : exec i s = done (s.int2 th rd rs1 rs2 op)) : Completes i s (fun u => ∀ n, (u.thread th).tainted n
      = if n = 0 then false else if n = rd then (s.thread th).open_ && ((s.thread th).tainted rs1 || (s.thread th).tainted rs2)
        else (s.thread th).tainted n) :=
  .of_eq (hi.trans (congrArg done (s.issue_runs th _ hrun))) (fun n => s.tainted_result th rd n _ _)

theorem completes_int1_taint {i : Instr} {s : State} {th : Nat} {rd rs1 : BitVec 5} {op : Word → Word} (hrun : Runs s th)
    (hi : exec i s = done (s.int1 th rd rs1 op)) : Completes i s (fun u => ∀ n, (u.thread th).tainted n
      = if n = 0 then false else if n = rd then (s.thread th).open_ && (s.thread th).tainted rs1 else (s.thread th).tainted n) :=
  .of_eq (hi.trans (congrArg done (s.issue_runs th _ hrun))) (fun n => s.tainted_result th rd n _ _)

/-- LUI reads no register, so its result is never tainted. -/
theorem lui_taint {s : State} {th : Nat} (rd : BitVec 5) (imm : BitVec 16) (hrun : Runs s th) :
    Completes (.lui th rd imm) s (fun u => ∀ n, (u.thread th).tainted n
      = if n = 0 then false else if n = rd then false else (s.thread th).tainted n) :=
  .of_eq (congrArg done (s.issue_runs th _ hrun)) (fun n => by rw [s.tainted_result, Bool.and_false])

/-- Settles O13: every integer instruction is an issue of `State.int2` or `State.int1` (LUI: of `State.result`), and its operation is
the stated function of numbers. -/
theorem integerInstructions : Obligations.IntegerInstructions := by
  unfold Obligations.IntegerInstructions
  refine ⟨?_, ?_, ?_⟩
  · intro th rd rs1 rs2 s hrun a b gives
    exact ⟨completes_int2 hrun rfl (Word.add_eq_ofInt a b), completes_int2 hrun rfl (Word.sub_eq_ofInt a b),
      completes_int2 hrun rfl rfl, completes_int2 hrun rfl rfl, completes_int2 hrun rfl rfl,
      completes_int2 hrun rfl (fieldOf_shiftCount b ▸ Word.shiftLeft_eq a _), completes_int2 hrun rfl (fieldOf_shiftCount b ▸ Word.ushiftRight_eq a _),
      completes_int2 hrun rfl (fieldOf_shiftCount b ▸ Word.sshiftRight_eq a _),
      completes_int2 hrun rfl (boolWord_slt a b), completes_int2 hrun rfl (boolWord_ult a b),
      completes_int2 hrun rfl (Word.min_eq a b), completes_int2 hrun rfl (Word.max_eq a b),
      completes_int2 hrun rfl (Word.minu_eq a b), completes_int2 hrun rfl (Word.maxu_eq a b),
      completes_int2 hrun rfl (Word.mul_eq_ofInt a b), completes_int2 hrun rfl rfl, completes_int2 hrun rfl rfl⟩
  · intro th rd rs1 pos len1 imm s hrun a old gives
    exact ⟨completes_int1 hrun rfl (Word.add_sext a imm), completes_int1 hrun rfl (Word.and_zext a imm (by decide)),
      completes_int1 hrun rfl (Word.or_zext a imm (by decide)), completes_int1 hrun rfl (Word.xor_zext a imm (by decide)),
      completes_int1 hrun rfl (sext_toInt imm (by decide) ▸ boolWord_slt a (sext imm)), completes_int1 hrun rfl (boolWord_ult a _),
      completes_result hrun rfl (by rw [Word.shiftLeft_eq, zext_toNat imm (by decide)]; rfl),
      completes_int1 hrun rfl (Word.shiftLeft_eq a _), completes_int1 hrun rfl (Word.ushiftRight_eq a _),
      completes_int1 hrun rfl (Word.sshiftRight_eq a _),
      ⟨_, completes_int1 hrun rfl rfl, getLsbD_extBits a pos len1⟩, ⟨_, completes_int2 hrun rfl rfl, getLsbD_insBits old a pos len1⟩⟩
  · intro th rd rs1 rs2 imm s hrun t taints open1
    exact ⟨completes_int2_taint hrun rfl, completes_int1_taint hrun rfl, lui_taint rd imm hrun, completes_int2_taint hrun rfl⟩

end Sys2Proof.Machine
end

section
namespace Sys2Proof.Machine

/-! ## Bytes and the numbers they spell (R103) -/

theorem beNat_append (l : List Byte) (b : Byte) : beNat (l ++ [b]) = beNat l * 256 + b.toNat := by
  rw [beNat, List.foldl_append]; rfl

theorem beNat_cons (b : Byte) (l : List Byte) : beNat (b :: l) = b.toNat * 256 ^ l.length + beNat l := by
  induction l using List.reverseRecOn with
  | nil => simp [beNat]
  | append_singleton l c ih =>
    rw [← List.cons_append, beNat_append, ih, beNat_append, List.length_append]
    simp only [List.length_singleton, pow_succ]
    ring

theorem beNat_lt (l : List Byte) : beNat l < 256 ^ l.length := by
  induction l with
  | nil => exact Nat.one_pos
  | cons b l ih =>
    have hb : b.toNat < 256 := b.isLt
    rw [beNat_cons, List.length_cons, pow_succ]
    nlinarith [Nat.mul_le_mul_right (256 ^ l.length) (Nat.le_of_lt_succ hb)]

@[simp] theorem length_beBytes (n v : Nat) : (beBytes n v).length = n := by
  induction n with
  | zero => rfl
  | succ n ih => rw [beBytes, List.length_cons, ih]

theorem beBytes_cons (n v : Nat) : beBytes (n + 1) v = BitVec.ofNat 8 (v / 256 ^ n) :: beBytes n v := by
  rw [beBytes, Nat.shiftRight_eq_div_pow, pow_mul]; rfl

theorem beNat_beBytes (n v : Nat) : beNat (beBytes n v) = v % 256 ^ n := by
  induction n with
  | zero => simp [beBytes, beNat, Nat.mod_one]
  | succ n ih =>
    rw [beBytes_cons, beNat_cons, length_beBytes, ih, BitVec.toNat_ofNat, pow_succ 256 n, Nat.mod_mul]
    ring

theorem beBytes_mod (n v k : Nat) (h : n ≤ k) : beBytes n (v % 256 ^ k) = beBytes n v := by
  induction n with
  | zero => rfl
  | succ n ih =>
    rw [beBytes_cons, beBytes_cons, ih (by omega)]
    congr 1
    apply BitVec.eq_of_toNat_eq
    obtain ⟨d, rfl⟩ : ∃ d, k = n + (1 + d) := ⟨k - n - 1, by omega⟩
    rw [BitVec.toNat_ofNat, BitVec.toNat_ofNat, pow_add, Nat.mod_mul_right_div_self, pow_add, pow_one]
    exact Nat.mod_mul_right_mod _ _ _

theorem beBytes_beNat (l : List Byte) : beBytes l.length (beNat l) = l := by
  induction l with
  | nil => rfl
  | cons b l ih =>
    have hlt := beNat_lt l
    have hpos : 0 < 256 ^ l.length := by positivity
    rw [List.length_cons, beBytes_cons, beNat_cons]
    congr 1
    · rw [Nat.add_comm, Nat.add_mul_div_right _ _ hpos, Nat.div_eq_of_lt hlt, Nat.zero_add]; simp
    · rw [← beBytes_mod _ _ l.length le_rfl, Nat.add_comm, Nat.add_mul_mod_self_right, Nat.mod_eq_of_lt hlt, ih]

theorem getD_beBytes (n v i : Nat) (h : i < n) : (beBytes n v).getD i 0 = BitVec.ofNat 8 (v / 256 ^ (n - 1 - i)) := by
  induction n generalizing i with
  | zero => omega
  | succ n ih =>
    rw [beBytes_cons]
    cases i with
    | zero => rfl
    | succ i => rw [List.getD_cons_succ, ih i (by omega), show n + 1 - 1 - (i + 1) = n - 1 - i by omega]

@[simp] theorem length_leBytes (n v : Nat) : (leBytes n v).length = n := by
  induction n generalizing v with
  | zero => rfl
  | succ n ih => rw [leBytes, List.length_cons, ih]

/-- Byte k of a number, counted from its end, is the byte at that place of the list. -/
theorem beNat_byte (l : List Byte) (k : Nat) (hk : k < l.length) : beNat l / 256 ^ k % 256 = (l.getD (l.length - 1 - k) 0).toNat := by
  have h := getD_beBytes l.length (beNat l) (l.length - 1 - k) (by omega)
  rw [beBytes_beNat, show l.length - 1 - (l.length - 1 - k) = k by omega] at h
  rw [h, BitVec.toNat_ofNat]

theorem getD_leBytes (n v i : Nat) (h : i < n) : (leBytes n v).getD i 0 = BitVec.ofNat 8 (v / 256 ^ i) := by
  induction n generalizing v i with
  | zero => omega
  | succ n ih =>
    cases i with
    | zero => rw [pow_zero, Nat.div_one]; rfl
    | succ i => rw [leBytes, List.getD_cons_succ, ih _ _ (by omega), Nat.div_div_eq_div_mul, pow_succ']

theorem leNat_leBytes (n v : Nat) : leNat (leBytes n v) = v % 256 ^ n := by
  induction n generalizing v with
  | zero => simp [leBytes, leNat, Nat.mod_one]
  | succ n ih =>
    rw [leBytes, leNat, ih, BitVec.toNat_ofNat, pow_succ' 256 n, Nat.mod_mul]

theorem leNat_lt (l : List Byte) : leNat l < 256 ^ l.length := by
  induction l with
  | nil => exact Nat.one_pos
  | cons b l ih =>
    have hb : b.toNat < 256 := b.isLt
    rw [leNat, List.length_cons, pow_succ]
    omega

/-- The bytes of a word read back from a list of n bytes. -/
theorem beBytes_ofNat_beNat {w : Nat} (l : List Byte) (h : 256 ^ l.length ≤ 2 ^ w) :
    beBytes l.length (BitVec.ofNat w (beNat l)).toNat = l := by
  rw [BitVec.toNat_ofNat, Nat.mod_eq_of_lt ((beNat_lt l).trans_le h), beBytes_beNat]

/-! ## Counts and checksums (R111) -/

theorem clz32_bounds (a : Word) : ∃ n, clz32 a = BitVec.ofNat 32 n ∧ n ≤ 32 ∧ a.toNat < 2 ^ (32 - n) ∧ (n < 32 → 2 ^ (31 - n) ≤ a.toNat) := by
  by_cases h : a = 0
  · exact ⟨32, by rw [clz32, if_pos h]; rfl, le_rfl, by rw [h]; decide, fun h => absurd h (by decide)⟩
  · have hne : a.toNat ≠ 0 := fun e => h (BitVec.eq_of_toNat_eq e)
    have hlog : Nat.log2 a.toNat < 32 := (Nat.log2_lt hne).mpr a.isLt
    refine ⟨31 - Nat.log2 a.toNat, by rw [clz32, if_neg h], by omega, ?_, fun _ => ?_⟩
    · rw [show 32 - (31 - Nat.log2 a.toNat) = Nat.log2 a.toNat + 1 by omega]
      exact Nat.lt_log2_self
    · rw [show 31 - (31 - Nat.log2 a.toNat) = Nat.log2 a.toNat by omega]
      exact Nat.log2_self_le hne

theorem foldl_b2n_eq_countP (p : Nat → Bool) (l : List Nat) (k : Nat) :
    l.foldl (fun n i => n + b2n (p i)) k = k + l.countP p := by
  induction l generalizing k with
  | nil => rfl
  | cons i l ih => rw [List.foldl_cons, ih, List.countP_cons]; cases p i <;> simp [b2n]; omega

theorem popCount_eq_countP (a : Word) : popCount a = BitVec.ofNat 32 ((List.range 32).countP (fun k => a.getLsbD k)) := by
  rw [popCount, foldl_b2n_eq_countP, Nat.zero_add]

theorem rev8_bytes (a : Word) (k : Nat) (hk : k < 4) : (rev8 a).toNat / 256 ^ k % 256 = a.toNat / 256 ^ (3 - k) % 256 := by
  have hl : (leBytes 4 a.toNat).length = 4 := length_leBytes _ _
  have hlt : beNat (leBytes 4 a.toNat) < 2 ^ 32 := (beNat_lt _).trans_eq (by rw [hl]; rfl)
  rw [rev8, BitVec.toNat_ofNat, Nat.mod_eq_of_lt hlt, beNat_byte _ _ (hk.trans_eq hl.symm), hl, getD_leBytes _ _ _ (by omega),
    BitVec.toNat_ofNat]

/-- Two folds bring the sum of four halfwords within 16 bits, and keep it modulo 65,535. -/
theorem foldSum_foldSum (n : Nat) (h : n ≤ 4 * 65535) :
    foldSum (foldSum n) < 65536 ∧ foldSum (foldSum n) % 65535 = n % 65535 ∧ (foldSum (foldSum n) = 0 ↔ n = 0) := by
  unfold foldSum
  split_ifs <;> omega

theorem crcBits_lt (poly n c : Nat) (hp : poly < 2 ^ 32) (hc : c < 2 ^ 32) : crcBits poly n c < 2 ^ 32 := by
  induction n generalizing c with
  | zero => exact hc
  | succ n ih =>
    have hhalf : c / 2 < 2 ^ 32 := by omega
    rw [crcBits]
    split
    · exact ih _ (Nat.xor_lt_two_pow hhalf hp)
    · exact ih _ hhalf

theorem crc32c_lt (c : Nat) (l : List Byte) (hc : c < 2 ^ 32) : crc32c c l < 2 ^ 32 := by
  induction l generalizing c with
  | nil => exact hc
  | cons b l ih =>
    have hb : b.toNat < 2 ^ 32 := b.isLt.trans (by decide)
    exact ih _ (crcBits_lt _ _ _ (by decide) (Nat.xor_lt_two_pow hc hb))

theorem crcw_toNat (a b : Word) : (crcw a b).toNat = crc32c a.toNat
    [BitVec.ofNat 8 (b.toNat / 2 ^ 24), BitVec.ofNat 8 (b.toNat / 2 ^ 16), BitVec.ofNat 8 (b.toNat / 2 ^ 8), BitVec.ofNat 8 b.toNat] := by
  rw [crcw, BitVec.toNat_ofNat, Nat.mod_eq_of_lt (crc32c_lt _ _ a.isLt)]
  simp only [beBytes, Nat.shiftRight_eq_div_pow, Nat.mul_zero, pow_zero, Nat.div_one]

/-- Settles O14: each instruction is an issue of `State.int1` or `State.int2`, and the lemmas above say what its operation means. -/
theorem countsAndChecksums : Obligations.CountsAndChecksums := by
  unfold Obligations.CountsAndChecksums
  intro th rd rs1 rs2 s hrun a b gives
  obtain ⟨n, hclz, hle, hlt, hge⟩ := clz32_bounds a
  have ha := a.isLt
  have hb := b.isLt
  have hsum := foldSum_foldSum (a.toNat / 65536 + a.toNat % 65536 + b.toNat / 65536 + b.toNat % 65536) (by omega)
  exact ⟨⟨n, completes_int1 hrun rfl hclz, hle, hlt, hge⟩, completes_int1 hrun rfl (popCount_eq_countP a),
    ⟨_, completes_int1 hrun rfl rfl, rev8_bytes a⟩, completes_int1 hrun rfl rfl, completes_int1 hrun rfl rfl,
    ⟨_, completes_int2 hrun rfl rfl, hsum⟩, ⟨_, completes_int2 hrun rfl rfl, crcw_toNat a b⟩⟩

end Sys2Proof.Machine
end

section
namespace Sys2Proof.Machine

/-! ## The threads' records after the operations of issue (R105, R106, R148) -/

/-- A state with the same table of threads has the same threads. -/
theorem State.thread_congr {s t : State} (h : t.eng.thr = s.eng.thr) (x : Nat) : t.thread x = s.thread x :=
  congrArg (fun y => Tbl.get (fun _ => Machine.threadReset) y x) h

theorem State.thread_setThread_eq (s : State) (th x : Nat) (t : Thread) :
    (s.setThread th t).thread x = if x = th then t else s.thread x := by
  by_cases h : x = th
  · rw [h, if_pos rfl, State.thread_setThread]
  · rw [if_neg h, State.thread_setThread_ne _ _ (Ne.symm h)]

/-- A thread that is not stopped differs from one after its reset. -/
theorem Thread.ne_reset {t : Thread} (h : t.run ≠ .stopped) : t ≠ threadReset := fun e => h (by rw [e]; rfl)

theorem Thread.ne_reset_of_ready {t : Thread} (h : t.run = .ready) : t ≠ threadReset := Thread.ne_reset (by rw [h]; decide)

/-- The second of two writes of a thread's record stands, where neither removes it from the table. -/
theorem State.setThread_setThread (s : State) (th : Nat) {t u : Thread} (ht : t ≠ Machine.threadReset) (hu : u ≠ Machine.threadReset) :
    (s.setThread th t).setThread th u = s.setThread th u := by
  simp only [State.setThread, State.putEng_eng, State.putEng_putEng, Tbl.set, if_neg ht, if_neg hu, Tbl.ins_ins]

/-- A state that differs in one thread's record by a `setThread` differs in nothing else. -/
theorem onlyThread_setThread (s : State) (th : Nat) (t : Thread) : OnlyThread th s (s.setThread th t) := by
  rw [OnlyThread, State.thread_setThread]

/-- The engine of a thread that is ready and selected goes on with it. -/
theorem State.makeReady_of_ready (s : State) (th : Nat) {t : Thread} (ht : t.run = .ready) (hcur : s.current th = true) :
    (s.setThread th t).makeReady th = s.setThread th t := by
  have hrun : t.setRun .ready = t := by rw [Thread.setRun, ← ht]
  have hsel : Tbl.get (fun _ => 0) s.eng.cur (thEngine th) = th % 8 := by simpa [State.current] using hcur
  have hth : thEngine th * 8 + Tbl.get (fun _ => 0) s.eng.cur (thEngine th) = th := by rw [hsel, thEngine]; omega
  have hne := Thread.ne_reset_of_ready ht
  have hcur' : (s.setThread th t).eng.cur = s.eng.cur := rfl
  rw [State.makeReady, State.thread_setThread, hrun, State.setThread_setThread _ _ hne hne]
  dsimp only
  rw [hcur', hth, State.thread_setThread, if_pos (by rw [Thread.isReady, ht]; rfl)]

/-- Selecting another thread changes only which one the engine issues from (R105, R148). -/
theorem State.switchFrom_eq (s : State) (th : Nat) : ∃ c, s.switchFrom th = s.putEng { s.eng with cur := c } := by
  unfold State.switchFrom
  dsimp only
  split
  · exact ⟨_, rfl⟩
  · exact ⟨s.eng.cur, rfl⟩

@[simp] theorem State.thread_switchFrom (s : State) (th x : Nat) : (s.switchFrom th).thread x = s.thread x := by
  obtain ⟨c, h⟩ := s.switchFrom_eq th
  rw [h]; rfl

/-- A long stall leaves the thread waiting, and nothing but its record and the engine's selection changed (R105). -/
theorem State.stall_eq (s : State) (th : Nat) (w : Wait) : ∃ c, s.stall th w
    = (s.setThread th { s.thread th with run := .stalled w, begun := true }).putEng
        { (s.setThread th { s.thread th with run := .stalled w, begun := true }).eng with cur := c } := State.switchFrom_eq _ _

theorem State.thread_stall (s : State) (th x : Nat) (w : Wait) :
    (s.stall th w).thread x = if x = th then { s.thread th with run := .stalled w, begun := true } else s.thread x := by
  rw [State.stall, State.thread_switchFrom, State.thread_setThread_eq]

theorem State.thread_makeReady_eq (s : State) (th x : Nat) :
    (s.makeReady th).thread x = if x = th then (s.thread th).setRun .ready else s.thread x := by
  rw [State.thread_makeReady, State.thread_setThread_eq]

/-- A thread that issues is ready, and its engine has selected it. -/
theorem Runs.ready {s : State} {th : Nat} (h : Runs s th) : (s.thread th).run = .ready := by
  obtain ⟨hissue, -, -⟩ := h
  simp only [State.canIssue, Thread.isReady, Bool.and_eq_true, beq_iff_eq] at hissue
  exact hissue.1.1.1.2

theorem Runs.current {s : State} {th : Nat} (h : Runs s th) : s.current th = true := by
  obtain ⟨hissue, -, -⟩ := h
  simp only [State.canIssue, Bool.and_eq_true] at hissue
  exact hissue.1.1.2

/-- An instruction that management engines do not have is legal on a Board's thread (R144). -/
theorem State.issue_board (s : State) (th : Nat) (f : State → State) (h : Runs s th) (hb : th < 32768) :
    s.issue th (!isMgmt th) f = f s := by
  rw [show (!isMgmt th) = true by simp [isMgmt, hb], s.issue_runs th f h]

/-- A block instruction of a thread for which no round unit works takes effect at once (R122). -/
theorem State.blockIssue_free (s : State) (th : Nat) (m : BitVec 8) (f : State → State) (h : Runs s th) (hfree : (s.thread th).bBusy = 0) :
    s.blockIssue th true m f = f s := by
  rw [State.blockIssue, s.issue_runs th _ h, if_neg (by simp [Thread.busy, hfree])]

theorem State.blockIssue_board (s : State) (th : Nat) (m : BitVec 8) (f : State → State) (h : Runs s th) (hb : th < 32768)
    (hfree : (s.thread th).bBusy = 0) : s.blockIssue th (!isMgmt th) m f = f s := by
  rw [State.blockIssue, s.issue_board th _ h hb, if_neg (by simp [Thread.busy, hfree])]

/-! ## Block instructions (R119, R120) -/

/-- A block result is one block register's new value, and nothing else. -/
theorem State.retire_gives_block (s : State) (th : Nat) (bd : BitVec 3) (v : Block) :
    GivesBlock s th bd v (s.retire th (fun t => t.setBr bd v)) := by
  have ht : (s.retire th (fun t => t.setBr bd v)).thread th = ((s.thread th).setBr bd v).advance := State.thread_setThread _ _ _
  refine ⟨?_, ?_, ?_, fun n => ?_⟩
  · rw [OnlyThread, ht]; rfl
  · rw [StepsOver, ht]; exact ⟨rfl, rfl⟩
  · rw [KeepsButBlocks, ht]; rfl
  · rw [ht, Thread.br_advance, Thread.br_setBr]

theorem completes_blk {i : Instr} {s : State} {th : Nat} {m : BitVec 8} {bd : BitVec 3} {f : Thread → Block} {v : Block} (hrun : Runs s th)
    (hfree : (s.thread th).bBusy = 0) (hi : exec i s = done (s.blk th m bd f)) (hv : f (s.thread th) = v) :
    Completes i s (GivesBlock s th bd v) :=
  .of_eq (hi.trans (congrArg done (s.blockIssue_free th _ _ hrun hfree))) (hv ▸ s.retire_gives_block th bd _)

/-- The bytes of a block made of 16 bytes (R103). -/
theorem beBytes_bytesBlock (l : List Byte) (h : l.length = 16) : beBytes 16 (bytesBlock l).toNat = l := by
  rw [← h]; exact beBytes_ofNat_beNat (w := 128) l (by rw [h]; decide)

theorem length_blockBytes (b : Block) : (blockBytes b).length = 16 := length_beBytes _ _

theorem bytes_brev (a : Block) : beBytes 16 (brev a).toNat = (beBytes 16 a.toNat).reverse :=
  beBytes_bytesBlock _ (by rw [List.length_reverse, length_blockBytes])

theorem bytes_bmask (a : Block) (n k : Nat) (hk : k < 16) :
    (beBytes 16 (bmask a (min n 16)).toNat).getD k 0 = if k < n then (beBytes 16 a.toNat).getD k 0 else 0 := by
  have hlen : (fitBytes 16 ((blockBytes a).take (min n 16))).length = 16 := by
    simp [fitBytes, length_blockBytes]
  have ha := length_blockBytes a
  rw [bmask, beBytes_bytesBlock _ hlen]
  simp only [fitBytes, List.getD_eq_getElem?_getD, List.getElem?_take, hk, if_true, List.getElem?_append, List.length_take, ha]
  by_cases h : k < n
  · rw [if_pos (by omega), if_pos (by omega), if_pos h]; rfl
  · rw [if_neg (by omega), if_neg h, List.getElem?_replicate]; split <;> rfl

/-- A word of a block as a number. -/
theorem toNat_laneGet (a : Block) (lane : BitVec 2) : (laneGet a lane).toNat = a.toNat / 2 ^ (96 - 32 * lane.toNat) % 2 ^ 32 := by
  rw [laneGet, BitVec.toNat_setWidth, BitVec.toNat_ushiftRight, Nat.shiftRight_eq_div_pow, laneShift]

theorem laneGet_eq (a : Block) (lane : BitVec 2) : laneGet a lane = BitVec.ofNat 32 (a.toNat / 2 ^ (96 - 32 * lane.toNat) % 2 ^ 32) := by
  rw [← toNat_laneGet, Word.ofNat_toNat]

theorem getLsbD_lanePut (a : Block) (lane : BitVec 2) (w : Word) (j : Nat) (hj : j < 128) : (lanePut a lane w).getLsbD j
    = if laneShift lane ≤ j ∧ j < laneShift lane + 32 then w.getLsbD (j - laneShift lane) else a.getLsbD j := by
  have hm : ((0xFFFFFFFF : Block) <<< laneShift lane).getLsbD j = decide (laneShift lane ≤ j ∧ j < laneShift lane + 32) := by
    rw [BitVec.getLsbD_shiftLeft, show (0xFFFFFFFF : Block) = BitVec.ofNat 128 (2 ^ 32 - 1) from rfl, BitVec.getLsbD_ofNat,
      Nat.testBit_two_pow_sub_one]
    simp only [hj, decide_true, Bool.true_and, ← decide_not, ← Bool.decide_and]
    exact decide_eq_decide.mpr (by omega)
  simp only [lanePut, BitVec.getLsbD_or, BitVec.getLsbD_and, BitVec.getLsbD_not, hm, BitVec.getLsbD_shiftLeft, BitVec.getLsbD_setWidth, hj]
  by_cases h : laneShift lane ≤ j ∧ j < laneShift lane + 32
  · obtain ⟨hlo, hhi⟩ := h
    simp [hlo, hhi, show ¬ j < laneShift lane by omega, show j - laneShift lane < 128 by omega]
  · rw [if_neg h]
    by_cases hlo : j < laneShift lane
    · simp [hlo, show ¬ laneShift lane ≤ j by omega]
    · have hw : w.getLsbD (j - laneShift lane) = false := BitVec.getLsbD_of_ge _ _ (by omega)
      simp [h, hw]

theorem laneGet_lanePut (a : Block) (lane k : BitVec 2) (w : Word) : laneGet (lanePut a lane w) k = if k = lane then w else laneGet a k := by
  have hk : k.toNat < 4 := k.isLt
  have hlane : lane.toNat < 4 := lane.isLt
  apply BitVec.eq_of_getLsbD_eq
  intro j hj
  rw [laneGet, BitVec.getLsbD_setWidth, BitVec.getLsbD_ushiftRight, getLsbD_lanePut _ _ _ _ (by simp only [laneShift]; omega)]
  by_cases h : k = lane
  · subst h
    simp [hj]
  · have hne : k.toNat ≠ lane.toNat := fun e => h (BitVec.eq_of_toNat_eq e)
    rw [if_neg h, if_neg (by simp only [laneShift]; omega), laneGet, BitVec.getLsbD_setWidth, BitVec.getLsbD_ushiftRight]

end Sys2Proof.Machine
end

section
namespace Sys2Proof.Machine

/-- The last word of a block replaced, as a number. -/
theorem lanePut_last (a : Block) (w : Word) : lanePut a 3 w = BitVec.ofNat 128 (a.toNat / 2 ^ 32 * 2 ^ 32 + w.toNat) := by
  apply BitVec.eq_of_getLsbD_eq
  intro j hj
  rw [getLsbD_lanePut _ _ _ _ hj, show laneShift 3 = 0 from rfl, BitVec.getLsbD_ofNat, Nat.mul_comm, Nat.testBit_two_pow_mul_add _ w.isLt]
  by_cases h : j < 32
  · rw [if_pos (by omega), if_pos h, BitVec.testBit_toNat]; simp [hj]
  · rw [if_neg (by omega), if_neg h, ← Nat.shiftRight_eq_div_pow, Nat.testBit_shiftRight, BitVec.testBit_toNat]
    simp [hj, show 32 + (j - 32) = j by omega]

theorem binc_eq (a : Block) : binc a = BitVec.ofNat 128 (a.toNat / 2 ^ 32 * 2 ^ 32 + (a.toNat + 1) % 2 ^ 32) := by
  rw [binc, lanePut_last, BitVec.toNat_add, toNat_laneGet]
  congr 2
  simp only [show 96 - 32 * (3 : BitVec 2).toNat = 0 from rfl, pow_zero, Nat.div_one]
  exact Nat.mod_add_mod _ _ _

/-- BPUT, word by word. -/
theorem bput_word (a : Block) (lane : BitVec 2) (w : Word) (k : Nat) (hk : k < 4) : (lanePut a lane w).toNat / 2 ^ (96 - 32 * k) % 2 ^ 32
    = if k = lane.toNat then w.toNat else a.toNat / 2 ^ (96 - 32 * k) % 2 ^ 32 := by
  have hk' : (BitVec.ofNat 2 k).toNat = k := by rw [BitVec.toNat_ofNat, Nat.mod_eq_of_lt hk]
  have h := congrArg BitVec.toNat (laneGet_lanePut a lane (BitVec.ofNat 2 k) w)
  rw [toNat_laneGet, hk'] at h
  rw [h]
  by_cases hl : k = lane.toNat
  · rw [if_pos (BitVec.eq_of_toNat_eq (hk'.trans hl)), if_pos hl]
  · rw [if_neg (fun e => hl (hk' ▸ congrArg BitVec.toNat e)), if_neg hl, toNat_laneGet, hk']

theorem bit_127_iff (n : Nat) (h : n < 2 ^ 128) : bit n 127 = decide (2 ^ 127 ≤ n) := by
  rw [bit, Nat.testBit_eq_decide_div_mod_eq]
  exact decide_eq_decide.mpr (by omega)

/-- XTSA doubles the block that its bytes spell from the last one up (R119). -/
theorem little_xtsa (a : Block) : leNat (beBytes 16 (xtsa a).toNat)
    = (leNat (beBytes 16 a.toNat) * 2 % 2 ^ 128) ^^^ (if 2 ^ 127 ≤ leNat (beBytes 16 a.toNat) then 0x87 else 0) := by
  have hn : leNat (beBytes 16 a.toNat) < 2 ^ 128 := (leNat_lt _).trans_eq (by rw [length_beBytes]; rfl)
  have hif : (if bit (leNat (beBytes 16 a.toNat)) 127 then 0x87 else 0) = if 2 ^ 127 ≤ leNat (beBytes 16 a.toNat) then 0x87 else 0 := by
    rw [bit_127_iff _ hn]; simp only [decide_eq_true_eq]
  have hm : (leNat (beBytes 16 a.toNat) * 2 % 2 ^ 128) ^^^ (if 2 ^ 127 ≤ leNat (beBytes 16 a.toNat) then 0x87 else 0) < 256 ^ 16 :=
    Nat.xor_lt_two_pow (n := 128) (Nat.mod_lt _ (by decide)) (by split <;> decide)
  rw [← hif] at hm ⊢
  have hbytes : beBytes 16 (xtsa a).toNat = leBytes 16 ((leNat (beBytes 16 a.toNat) * 2 % 2 ^ 128)
      ^^^ (if bit (leNat (beBytes 16 a.toNat)) 127 then 0x87 else 0)) := beBytes_bytesBlock _ (length_leBytes _ _)
  rw [hbytes, leNat_leBytes, Nat.mod_eq_of_lt hm]

/-- Settles O18: each instruction is a `State.blk` whose function of the blocks is the stated one; BGET is a `State.result`. -/
theorem blockInstructions : Obligations.BlockInstructions := by
  unfold Obligations.BlockInstructions
  intro th bd ba bb lane rd rs1 s hrun hfree a b g word little gives
  have hbget : Completes (.bget th rd ba lane) s (GivesReg s th rd (BitVec.ofNat 32 (word a lane.toNat))) :=
    .of_eq (congrArg done (s.blockIssue_free th _ _ hrun hfree)) (laneGet_eq a lane ▸ s.result_gives th rd _ _)
  exact ⟨completes_blk hrun hfree rfl rfl, completes_blk hrun hfree rfl rfl, completes_blk hrun hfree rfl rfl,
    completes_blk hrun hfree rfl rfl, completes_blk hrun hfree rfl rfl, ⟨_, completes_blk hrun hfree rfl rfl, bytes_brev a⟩,
    completes_blk hrun hfree rfl (binc_eq a), ⟨_, completes_blk hrun hfree rfl rfl, bytes_bmask a g.toNat⟩,
    ⟨_, completes_blk hrun hfree rfl rfl, bput_word a lane g⟩, hbget, ⟨_, completes_blk hrun hfree rfl rfl, little_xtsa a⟩,
    completes_blk hrun hfree rfl rfl⟩

end Sys2Proof.Machine
end

section
namespace Sys2Proof.Machine

/-- Thread 8, ready, with an instruction begun. -/
def begunState : State := State.reset.setThread 8 { threadReset with run := .ready, begun := true }

/-- A taken branch ends its instruction: none is begun any more. -/
theorem beq_ends_begun : Completes (.beq 8 0 0 0) begunState (fun u => (u.thread 8).begun = false) := ⟨_, rfl, by decide⟩

/-- Refutes O15: a branch of a thread that has begun it clears `begun` with `instr`; the statement's record keeps it. -/
theorem not_branchesAndJumps : ¬ Obligations.BranchesAndJumps := by
  unfold Obligations.BranchesAndJumps
  intro h
  obtain ⟨hbeq, -⟩ := h 8 0 0 0 0 0 begunState (by decide)
  obtain ⟨t, ht, hstays⟩ := hbeq (by decide)
  obtain ⟨t', ht', hends⟩ := beq_ends_begun
  cases ht'.symm.trans ht
  have hbegun : (t.thread 8).begun = true := by rw [hstays]; decide
  exact absurd (hends.symm.trans hbegun) (by decide)

end Sys2Proof.Machine
end

section
namespace Sys2Proof.Machine

/-- Thread 8, ready with its gate closed, still has a free of buffer 0x3FF800 to carry out; the buffer is charged to thread 9, whose
share of one buffer is short. -/
def recvDeferredState : State :=
  ((State.reset.setFld F.CLU_BUF_CTL.SHARE 0 1).setBufList 0 [(0x3FF800, some 9)]).setThread 8
    { threadReset with run := .ready, gfree := [0x3FF800] }

/-- RECV carries out the deferred free (R343), and the buffer goes to the share of the thread it was charged to (R164). -/
theorem recv_returns_buffer : Completes (.recv 8 0 0) recvDeferredState (fun u => (u.thread 9).bufHeld = 1) := ⟨_, rfl, by decide⟩

/-- Refutes O22: a RECV of a thread with a deferred free returns a buffer that is charged to another thread, whose record changes. -/
theorem not_threadsAndSystem : ¬ Obligations.ThreadsAndSystem := by
  unfold Obligations.ThreadsAndSystem
  intro h
  obtain ⟨hthreads, -⟩ := h
  obtain ⟨-, hrecv, -⟩ := hthreads 8 0 0 0 0 recvDeferredState (by decide)
  obtain ⟨t, ht, -, -, -, -, hothers⟩ := hrecv (by decide) (by decide) (by decide) (by decide) (by decide)
  obtain ⟨t', ht', hheld⟩ := recv_returns_buffer
  cases ht'.symm.trans ht
  have hkept : t.thread 9 = recvDeferredState.thread 9 := hothers 9 (by decide)
  rw [hkept] at hheld
  exact absurd hheld (by decide)

end Sys2Proof.Machine
end

section
namespace Sys2Proof.Machine

/-! ## The tag gate and the end of a thread (R123 to R126, R343) -/

theorem State.gateResolve_of_closed {s : State} {th : Nat} (h : (s.thread th).gated = false) : s.gateResolve th = s := by
  rw [State.gateResolve, if_neg (by simp [h])]

theorem State.payDrain_of_empty {s : State} {th : Nat} (h : (s.thread th).wfifo = []) : s.payDrain th = s := by
  rw [State.payDrain, h]; rfl

/-- A thread that holds nothing is as it was after its end. -/
theorem State.threadEnd_of_idle {s : State} {th : Nat} (hgate : (s.thread th).gated = false) (hfifo : (s.thread th).wfifo = [])
    (hhold : (s.thread th).handles = []) : s.threadEnd th = s.setThread th (s.thread th) := by
  have hsame : { s.thread th with handles := [] } = s.thread th := by rw [← hhold]
  rw [State.threadEnd, State.gateResolve_of_closed hgate, State.payDrain_of_empty hfifo]
  dsimp only
  rw [hhold, hsame]; rfl

/-- A stop leaves the thread's record stopped, without an answer under way; the engine selects another thread. -/
theorem State.threadStopped_eq (s : State) (th : Nat) : ∃ c, s.threadStopped th
    = s.putEng { (s.setThread th { s.thread th with run := .stopped, look := none }).eng with cur := c } := by
  rw [State.threadStopped]
  dsimp only
  split
  · exact State.switchFrom_eq _ _
  · exact ⟨s.eng.cur, rfl⟩

theorem State.thread_threadStopped (s : State) (th x : Nat) : (s.threadStopped th).thread x
    = if x = th then { s.thread th with run := .stopped, look := none } else s.thread x := by
  obtain ⟨c, h⟩ := s.threadStopped_eq th
  rw [h, ← State.thread_setThread_eq]; rfl

theorem State.eng_eventAt (s : State) (chip blk skind low code sev data : Nat) (inj : Bool) :
    (s.eventAt chip blk skind low code sev data inj).eng = s.eng := by
  obtain ⟨hquiet, -⟩ := s.sameButEvents_eventAt chip blk skind low code sev data inj
  rw [State.quietEq] at hquiet
  exact (congrArg State.eng hquiet).trans rfl

/-- Setting event bits of a thread leaves the others, and of the thread what is not EVT or the run state (R139). -/
theorem State.thread_setEvt (s : State) (th x : Nat) (m : Word) : ∃ r, (s.setEvt th m).thread x
    = if x = th then { s.thread th with evt := (s.thread th).evt ||| m, run := r } else s.thread x := by
  have hplain : ∃ r, (s.setThread th { s.thread th with evt := (s.thread th).evt ||| m }).thread x
      = if x = th then { s.thread th with evt := (s.thread th).evt ||| m, run := r } else s.thread x :=
    ⟨(s.thread th).run, State.thread_setThread_eq _ _ _ _⟩
  rw [State.setEvt]
  dsimp only
  split
  · split
    · exact hplain
    · refine ⟨.ready, ?_⟩
      rw [State.thread_makeReady_eq, State.thread_setThread, State.thread_setThread_eq]
      split <;> rfl
  · exact hplain

@[simp] theorem State.makeReady_faults (s : State) (th : Nat) : (s.makeReady th).eng.faults = s.eng.faults := by
  unfold State.makeReady; dsimp only; split <;> rfl

theorem State.setEvt_keeps (s : State) (th : Nat) (m : Word) :
    (s.setEvt th m).eng.faults = s.eng.faults ∧ (s.setEvt th m).eng.localMem = s.eng.localMem := by
  rw [State.setEvt]
  split
  · split
    · exact ⟨rfl, rfl⟩
    · exact ⟨State.makeReady_faults _ _, State.makeReady_localMem _ _⟩
  · exact ⟨rfl, rfl⟩

/-! ## A thread fault (R142, R143, R157) -/

/-- The cluster's fault queue. -/
def State.faultQueue (s : State) (cl : Nat) : List FaultEntry := Tbl.get (fun _ => []) s.eng.faults cl

/-- The entry that a fault makes in the queue of its cluster (R157, R178). -/
def State.faultEntry (s : State) (th cause trap : Nat) : FaultEntry :=
  { th := th, cause := BitVec.ofNat 8 cause, trap := BitVec.ofNat 8 trap, pc := (s.thread th).pc }

/-- The entry stands in the queue, or is counted as lost, and the fault's event is recorded (R143, R157). -/
def State.faultNoted (s : State) (th cause trap : Nat) : State :=
  (if (s.faultQueue (thCluster th)).length < 16 then s.putEng { s.eng with
      faults := Tbl.set (fun _ => []) s.eng.faults (thCluster th) (s.faultQueue (thCluster th) ++ [s.faultEntry th cause trap]) }
    else s.satInc F.CLU_FAULT_LOST.COUNT (thCluster th) 1).eventAt (thChip th) (thCluster th % 8) 0 (thPlace th)
      (if decide (th = supervisorOf th) then 0x0102 else 0x0101) sevError (cause + trap * 256 + (s.thread th).pc.toNat * 65536) false

theorem State.faultNoted_eng (s : State) (th cause trap : Nat) : (s.faultNoted th cause trap).eng.thr = s.eng.thr
    ∧ (s.faultNoted th cause trap).eng.localMem = s.eng.localMem
    ∧ ((s.faultQueue (thCluster th)).length < 16 →
      (s.faultNoted th cause trap).faultQueue (thCluster th) = s.faultQueue (thCluster th) ++ [s.faultEntry th cause trap]) := by
  refine ⟨?_, ?_, fun hroom => ?_⟩
  · rw [State.faultNoted, State.eng_eventAt]; split <;> rfl
  · rw [State.faultNoted, State.eng_eventAt]; split <;> rfl
  · rw [State.faultQueue, State.faultNoted, State.eng_eventAt, if_pos hroom]
    exact Tbl.get_set_same _ _ _ _

/-- The mark of a supervisor's fault: a register bit, and perhaps an interrupt of Headwater (R160). -/
def State.supervisorMark (s : State) (th : Nat) : State :=
  let s := s.setFld F.BRD_STATUS.SUP_FAULT (thBoard th) (s.fld F.BRD_STATUS.SUP_FAULT (thBoard th) ||| 2 ^ (thCluster th % 8))
  if bit (s.fld F.BRD_INT_EN.SUP_FAULT_EN (thBoard th)) (thCluster th % 8) then
    s.emit (.hdwInterrupt (grpOf (thChip th) (thCluster th % 8)))
  else s

theorem State.supervisorMark_eng (s : State) (th : Nat) : (s.supervisorMark th).eng = s.eng := by
  simp only [State.supervisorMark, apply_ite State.eng, State.emit_eng, State.setFld_eng, ite_self]

theorem State.faultRecord_eq (s : State) (th cause trap : Nat) : s.faultRecord th cause trap
    = if decide (th = supervisorOf th) then (s.faultNoted th cause trap).supervisorMark th
      else (s.faultNoted th cause trap).setEvt (supervisorOf th) (1 <<< 16) := rfl

theorem State.faultRecord_supervisor (s : State) (th cause trap : Nat) (h : th = supervisorOf th) :
    (s.faultRecord th cause trap).eng = (s.faultNoted th cause trap).eng := by
  rw [State.faultRecord_eq, if_pos (decide_eq_true h), State.supervisorMark_eng]

/-- The fault of another thread sets bit 16 of the supervisor's EVT (R157). -/
theorem State.faultRecord_thread (s : State) (th cause trap : Nat) (h : th ≠ supervisorOf th) :
    s.faultRecord th cause trap = (s.faultNoted th cause trap).setEvt (supervisorOf th) (1 <<< 16) := by
  rw [State.faultRecord_eq, if_neg (by simpa using h)]

/-- What the record of a fault leaves (R157, R160): local memory, the threads but the supervisor, and the entry in the queue. -/
theorem State.faultRecord_keeps (s : State) (th cause trap : Nat) : (s.faultRecord th cause trap).eng.localMem = s.eng.localMem
    ∧ (∀ x, x = th ∨ x ≠ supervisorOf th → (s.faultRecord th cause trap).thread x = s.thread x)
    ∧ ((s.faultQueue (thCluster th)).length < 16 →
      (s.faultRecord th cause trap).faultQueue (thCluster th) = s.faultQueue (thCluster th) ++ [s.faultEntry th cause trap]) := by
  obtain ⟨hthr, hlocal, hqueue⟩ := s.faultNoted_eng th cause trap
  by_cases hsup : th = supervisorOf th
  · have heng := s.faultRecord_supervisor th cause trap hsup
    refine ⟨by rw [heng, hlocal], fun x _ => State.thread_congr (by rw [heng, hthr]) x, fun hroom => ?_⟩
    rw [State.faultQueue, heng]; exact hqueue hroom
  · obtain ⟨hfaults, hloc⟩ := (s.faultNoted th cause trap).setEvt_keeps (supervisorOf th) (1 <<< 16)
    rw [s.faultRecord_thread th cause trap hsup]
    refine ⟨by rw [hloc, hlocal], fun x hx => ?_, fun hroom => ?_⟩
    · have hne : x ≠ supervisorOf th := by rcases hx with rfl | hx <;> assumption
      obtain ⟨r, hr⟩ := (s.faultNoted th cause trap).thread_setEvt (supervisorOf th) x (1 <<< 16)
      rw [hr, if_neg hne, State.thread_congr hthr]
    · rw [State.faultQueue, hfaults]; exact hqueue hroom

/-- The fault of another thread than the supervisor is signalled to the supervisor (R157). -/
theorem State.faultRecord_signals (s : State) (th cause trap : Nat) (h : th ≠ supervisorOf th) :
    bit ((s.faultRecord th cause trap).thread (supervisorOf th)).evt.toNat 16 = true := by
  obtain ⟨r, hr⟩ := (s.faultNoted th cause trap).thread_setEvt (supervisorOf th) (supervisorOf th) (1 <<< 16)
  rw [s.faultRecord_thread th cause trap h, hr, if_pos rfl, bit, BitVec.toNat_or, Nat.testBit_or]
  exact Bool.or_eq_true_iff.mpr (.inr (by decide))

/-- A thread that holds nothing and whose gate is closed takes a fault: it stops as it is, marked faulted, and the fault is recorded
(R143, R157, R158). -/
theorem State.threadFault_idle (s : State) (th cause trap : Nat) (hb : th < 32768) (hgate : (s.thread th).gated = false)
    (hhold : (s.thread th).handles = []) (hfifo : (s.thread th).wfifo = []) :
    (s.threadFault th cause trap).thread th = { s.thread th with run := .stopped, faulted := true, look := none }
      ∧ ((s.faultQueue (thCluster th)).length < 16 →
        (s.threadFault th cause trap).faultQueue (thCluster th) = s.faultQueue (thCluster th) ++ [s.faultEntry th cause trap])
      ∧ (th ≠ supervisorOf th → bit ((s.threadFault th cause trap).thread (supervisorOf th)).evt.toNat 16 = true) := by
  obtain ⟨u, hu⟩ : ∃ u, u = (s.setThread th { s.thread th with faulted := true }).threadStopped th := ⟨_, rfl⟩
  have hthread : u.thread th = { s.thread th with run := .stopped, faulted := true, look := none } := by
    rw [hu, State.thread_threadStopped, if_pos rfl, State.thread_setThread]
  have hqueue : u.faultQueue (thCluster th) = s.faultQueue (thCluster th) := by
    obtain ⟨c, hc⟩ := (s.setThread th { s.thread th with faulted := true }).threadStopped_eq th
    rw [hu, hc]; rfl
  obtain ⟨-, hkeep, hentry⟩ := u.faultRecord_keeps th cause trap
  have hrec : (u.faultRecord th cause trap).thread th = u.thread th := hkeep th (.inl rfl)
  have hfault : s.threadFault th cause trap
      = (u.faultRecord th cause trap).setThread th { s.thread th with run := .stopped, faulted := true, look := none } := by
    rw [State.threadFault]
    dsimp only
    rw [if_neg (by simp [isMgmt, hb]), ← hu, State.threadEnd_of_idle, hrec, hthread]
    · rw [hrec, hthread]; exact hgate
    · rw [hrec, hthread]; exact hfifo
    · rw [hrec, hthread]; exact hhold
  rw [hfault]
  refine ⟨State.thread_setThread _ _ _, fun hroom => ?_, fun hsup => ?_⟩
  · have hpc : u.faultEntry th cause trap = s.faultEntry th cause trap := by rw [State.faultEntry, hthread]; rfl
    rw [← hpc, ← hqueue]
    exact hentry (by rw [hqueue]; exact hroom)
  · rw [State.thread_setThread_ne _ _ hsup]
    exact u.faultRecord_signals th cause trap hsup

end Sys2Proof.Machine
end

section
namespace Sys2Proof.Machine

/-! ## A fetch that meets an ECC error (R153) -/

theorem State.eng_eccFound (scrub : Bool) (s : State) (e : Nat × Nat) : (s.eccFound scrub e).eng = s.eng := by
  rw [State.eccFound]
  split
  · rw [State.eng_eventAt, State.setEcc_eng]
  · rw [State.eng_eventAt]

theorem State.eng_foldl {α : Type} {f : State → α → State} (hf : ∀ s x, (f s x).eng = s.eng) (l : List α) (s : State) :
    (l.foldl f s).eng = s.eng := by
  induction l generalizing s with
  | nil => rfl
  | cons x l ih => rw [List.foldl_cons, ih, hf]

theorem State.eng_fetchEcc (s : State) (th : Nat) : (s.fetchEcc th).2.eng = s.eng := by
  rw [State.fetchEcc]
  split
  · rfl
  · exact State.eng_foldl (State.eng_eccFound false) _ _

/-- An instruction whose word has an uncorrectable error takes the data fault of its fetch. -/
theorem State.issue_badFetch (s : State) (th : Nat) (legal : Bool) (f : State → State) (hissue : s.canIssue th = true)
    (hpast : (s.thread th).past = false) (hbad : (s.fetchEcc th).1 = true) :
    s.issue th legal f = (s.fetchEcc th).2.fault th fcData := by
  rcases hr : s.fetchEcc th with ⟨bad, u⟩
  rw [hr] at hbad
  subst hbad
  rw [State.issue, if_neg (by simp [hissue]), if_neg (by simp [hpast]), hr]

/-! ## A branch out of the program store whose own word is bad -/

/-- Thread 8, ready at the last word of its cluster's program store, which has an uncorrectable error. -/
def badFetchState : State :=
  (State.reset.setThread 8 { threadReset with run := .ready, pc := 0xFFFFC }).setEcc (eccKey (grpOf (boardChip 0) 0) (progAddr 0 0x3FFFF)) 2

theorem badFetchState_queue : badFetchState.faultQueue 0 = [] := by decide

/-- The fault of the fetch is the one of uncorrectable data (R153), whatever the instruction would do. -/
theorem beq_badFetch_data_fault :
    Completes (.beq 8 0 0 1) badFetchState (fun u => u.faultQueue 0 = [badFetchState.faultEntry 8 fcData 0]) := by
  have heng := badFetchState.eng_fetchEcc 8
  have hthread : (badFetchState.fetchEcc 8).2.thread 8 = badFetchState.thread 8 := State.thread_congr (by rw [heng]) 8
  have hqueue : (badFetchState.fetchEcc 8).2.faultQueue 0 = [] := by rw [State.faultQueue, heng]; exact badFetchState_queue
  refine .of_eq (congrArg done (badFetchState.issue_badFetch 8 true _ (by decide) (by decide) (by decide))) ?_
  obtain ⟨-, hentry, -⟩ := (badFetchState.fetchEcc 8).2.threadFault_idle 8 fcData 0 (by decide) (by rw [hthread]; rfl)
    (by rw [hthread]; rfl) (by rw [hthread]; rfl)
  have hpc : (badFetchState.fetchEcc 8).2.faultEntry 8 fcData 0 = badFetchState.faultEntry 8 fcData 0 := by
    rw [State.faultEntry, hthread]; rfl
  rw [← hpc]
  exact (hentry (by rw [show thCluster 8 = 0 from rfl, hqueue]; decide)).trans (by rw [show thCluster 8 = 0 from rfl, hqueue]; rfl)

/-- Refutes O5: a branch out of the program store whose own word has an uncorrectable ECC error takes the data fault of its fetch
(R153), not an instruction-address fault; `canIssue` does not exclude it. -/
theorem not_programStoreEnds : ¬ Obligations.ProgramStoreEnds := by
  unfold Obligations.ProgramStoreEnds
  intro h
  obtain ⟨hbranch, -⟩ := h 8 0 0 0 1 0 badFetchState (by decide)
  obtain ⟨hbeq, -⟩ := hbranch (by decide) (by decide)
  obtain ⟨t, ht, -, -, -, -, hqueue⟩ := hbeq rfl
  obtain ⟨t', ht', hdata⟩ := beq_badFetch_data_fault
  cases ht'.symm.trans ht
  have hiaddr : [badFetchState.faultEntry 8 fcData 0] = [badFetchState.faultEntry 8 fcIaddr 0] :=
    hdata.symm.trans (hqueue (by decide) (by decide))
  exact absurd hiaddr (by decide)

/-! ## Faults of instructions (R142, R143) -/

/-- An instruction that does nothing but fault. -/
theorem completes_fault {i : Instr} {s : State} {th cause trap : Nat} (hb : th < 32768) (hsup : th % 512 ≠ 0)
    (hgate : (s.thread th).gated = false) (hhold : (s.thread th).handles = []) (hfifo : (s.thread th).wfifo = [])
    (hroom : (s.faultQueue (th / 512)).length < 16) (hi : exec i s = done (s.threadFault th cause trap)) :
    Completes i s (fun u => u.thread th = { s.thread th with run := .stopped, faulted := true, look := none }
      ∧ u.faultQueue (th / 512) = s.faultQueue (th / 512) ++ [s.faultEntry th cause trap]
      ∧ bit (u.thread (th / 512 * 512)).evt.toNat 16 = true) := by
  obtain ⟨hthread, hqueue, hsignal⟩ := s.threadFault_idle th cause trap hb hgate hhold hfifo
  refine .of_eq hi ⟨hthread, hqueue hroom, hsignal ?_⟩
  rw [supervisorOf, thCluster]
  omega

/-- An aligned word beyond local memory is an address fault, for loads and stores (R101). -/
theorem State.accessFault_local_beyond (s : State) (th a : Nat) (wr : Bool) (halign : a % 4 = 0) (h : 0x8000 ≤ a) :
    s.accessFault th .loc a 4 wr = some fcAddr := by
  rw [State.accessFault, if_neg (by omega), if_pos (show outsideSpace th .loc a 4 = true from decide_eq_true (by omega))]

theorem branchTarget_eq (t : Thread) (off : BitVec 16) : branchTarget t off = BitVec.ofInt 32 (t.pc.toNat + off.toInt * 4) := by
  have hpc : t.pcWord = BitVec.ofInt 32 t.pc.toNat := by
    apply BitVec.eq_of_toNat_eq
    simp [Thread.pcWord]
  rw [branchTarget, hpc, sext_eq_ofInt, BitVec.ofInt_add, BitVec.ofInt_mul]
  rfl

theorem State.branch_taken_beyond (s : State) (th : Nat) (rs1 rs2 : BitVec 5) (off : BitVec 16) (p : Word → Word → Bool) (hrun : Runs s th)
    (hp : p ((s.thread th).gr rs1) ((s.thread th).gr rs2) = true) (hfar : 2 ^ 20 ≤ (branchTarget (s.thread th) off).toNat) :
    s.branch th rs1 rs2 off p = s.fault th fcIaddr := by
  rw [State.branch, s.issue_runs th _ hrun]
  dsimp only
  rw [if_pos hp, if_pos (show beyond _ = true from decide_eq_true hfar)]

/-- Settles O23: each of the five does nothing but fault (`completes_fault`). -/
theorem faultsArePrecise : Obligations.FaultsArePrecise := by
  unfold Obligations.FaultsArePrecise
  intro th rd rs1 rs2 off o14 s hrun hb hsup t q faults hgate hhold hfifo hroom
  have hfault : ∀ {i : Instr} {f : State → State} {cause trap : Nat}, exec i s = done (s.issue th true f) →
      f s = s.threadFault th cause trap → faults i cause trap := fun hi hf =>
    completes_fault hb hsup hgate hhold hfifo hroom (hi.trans (congrArg done ((s.issue_runs th _ hrun).trans hf)))
  refine ⟨?_, fun halign => ?_, fun heq hfar => ?_, fun hbeyond halign => ?_⟩
  · refine hfault rfl ?_
    have hopen : t.open_ = false := by rw [Thread.open_, hgate]; rfl
    have hcode : fieldOf (t.gr rs1) 7 0 = (t.gr rs1).toNat % 256 := by simp [fieldOf, bits_eq]
    dsimp only
    rw [if_neg (by simpa using hopen), hcode]
    rfl
  · refine hfault rfl ?_
    dsimp only
    rw [if_pos (by rw [Word.add_sext]; exact halign)]
    rfl
  · rw [← branchTarget_eq] at hfar
    exact completes_fault hb hsup hgate hhold hfifo hroom
      (congrArg done (s.branch_taken_beyond th rs1 rs2 off _ hrun (beq_iff_eq.mpr heq) hfar))
  · rw [← Word.add_sext] at hbeyond halign
    have haddr : ∀ wr, s.accessFault th .loc (t.spaceAddr .loc (t.gr rs1 + sext o14)) 4 wr = some fcAddr := fun wr =>
      s.accessFault_local_beyond th _ wr halign hbeyond
    refine ⟨hfault rfl ?_, hfault rfl ?_⟩
    · rw [State.loadOp]
      dsimp only
      rw [show spaceOf 0 = .loc from rfl, haddr]
      rfl
    · rw [State.storeOp]
      rw [length_beBytes, show spaceOf 0 = .loc from rfl, haddr]
      rfl

end Sys2Proof.Machine
end

section
namespace Sys2Proof.Machine

/-! ## The failure of a tag gate (R127, R343) -/

/-- Of a thread's record only its queue of posted payload writes changed; the registers and the memories of engines are as they were. -/
def OnlyFifo (th : Nat) (s u : State) : Prop :=
  u.regs = s.regs ∧ u.eng.localMem = s.eng.localMem ∧ ∃ w, u.thread th = { s.thread th with wfifo := w }

theorem OnlyFifo.refl (th : Nat) (s : State) : OnlyFifo th s s := ⟨rfl, rfl, (s.thread th).wfifo, rfl⟩

theorem OnlyFifo.trans {th : Nat} {s u v : State} (h : OnlyFifo th s u) (k : OnlyFifo th u v) : OnlyFifo th s v := by
  obtain ⟨hregs, hlocal, w, hw⟩ := h
  obtain ⟨kregs, klocal, x, hx⟩ := k
  exact ⟨kregs.trans hregs, klocal.trans hlocal, x, by rw [hx, hw]⟩

theorem OnlyFifo.of_eng {th : Nat} {s u : State} (hregs : u.regs = s.regs) (heng : u.eng = s.eng) : OnlyFifo th s u :=
  ⟨hregs, by rw [heng], (s.thread th).wfifo, State.thread_congr (by rw [heng]) th⟩

theorem State.eng_cellWipe (s : State) (f : FrameRec) (off n : Nat) : (s.cellWipe f off n).eng = s.eng :=
  by rw [State.cellWipe]; exact State.eng_foldl (fun _ _ => by rfl) _ _

theorem State.regs_foldl {α : Type} {f : State → α → State} (hf : ∀ s x, (f s x).regs = s.regs) (l : List α) (s : State) :
    (l.foldl f s).regs = s.regs := by
  induction l generalizing s with
  | nil => rfl
  | cons x l ih => rw [List.foldl_cons, ih, hf]

theorem State.regs_cellWipe (s : State) (f : FrameRec) (off n : Nat) : (s.cellWipe f off n).regs = s.regs :=
  by rw [State.cellWipe]; exact State.regs_foldl (fun _ _ => by rfl) _ _

theorem State.updFrame_keeps (s : State) (h : Word) (g : FrameRec → FrameRec) : (s.updFrame h g).eng = s.eng ∧ (s.updFrame h g).regs = s.regs := by
  unfold State.updFrame
  split <;> exact ⟨rfl, rfl⟩

theorem State.onlyFifo_payWrite (s : State) (th : Nat) : OnlyFifo th s (s.payWrite th) := by
  rw [State.payWrite]
  split
  · exact .refl th s
  case h_2 w rest _ =>
    refine OnlyFifo.trans (u := s.setThread th { s.thread th with wfifo := rest })
      ⟨rfl, rfl, rest, State.thread_setThread _ _ _⟩ ⟨?_, ?_, rest, ?_⟩
    · change State.regs (match s.handleFrame w.handle with | some f => _ | none => s) = s.regs
      split
      · rw [State.regs_cellWipe]; rfl
      · rfl
    · change (State.eng (match s.handleFrame w.handle with | some f => _ | none => s)).localMem = s.eng.localMem
      split
      · rw [State.eng_cellWipe]; rfl
      · rfl
    · rw [State.thread_setThread, State.thread_setThread]

theorem State.onlyFifo_payDrain (s : State) (th : Nat) : OnlyFifo th s (s.payDrain th) :=
  List.foldlRecOn (motive := OnlyFifo th s) _ _ (.refl th s) fun u hu _ _ => hu.trans (u.onlyFifo_payWrite th)

theorem State.eng_dmaFail (th : Nat) (s : State) (ch : Nat) : (State.dmaFail th s ch).eng = s.eng ∧ (State.dmaFail th s ch).regs = s.regs :=
  ⟨rfl, rfl⟩

/-- The record of a thread whose gate has failed (R343): block registers and tainted general registers are zero. -/
def Thread.gateFailed (t : Thread) : Thread := { t with failed := true, b := [], g := untainted t.taint t.g, taint := 0 }

theorem Thread.br_gateFailed (t : Thread) (b : BitVec 3) : t.gateFailed.br b = 0 := rfl

theorem Thread.gr_gateFailed (t : Thread) (n : BitVec 5) (hn : n ≠ 0) : t.gateFailed.gr n = if t.tainted n then 0 else t.gr n := by
  have hget : Tbl.get (fun _ => (0 : Word)) t.gateFailed.g n.toNat
      = if !t.taint.getLsbD n.toNat then Tbl.get (fun _ => 0) t.g n.toNat else 0 :=
    Tbl.get_filter _ (fun k => !t.taint.getLsbD k) _ _
  rw [Thread.gr, if_neg hn, hget, Thread.gr, if_neg hn, Thread.tainted]
  simp only [bne_iff_ne.mpr hn, Bool.true_and]
  cases t.taint.getLsbD n.toNat <;> rfl

/-- The failure of an open gate: the thread's record, the count, and what it leaves (R343). -/
theorem State.gateFail_of_open (s : State) (th : Nat) (h : (s.thread th).open_ = true) :
    (∃ w, (s.gateFail th).thread th = { (s.thread th).gateFailed with wfifo := w })
      ∧ (s.gateFail th).eng.localMem = s.eng.localMem
      ∧ ∀ f i, F.BRD_GATE_FAIL.COUNT.reg ≠ f.reg → (s.gateFail th).fld f i = s.fld f i := by
  obtain ⟨hregs, hlocal, w, hw⟩ := s.onlyFifo_payDrain th
  obtain ⟨u, hu⟩ : ∃ u, u = ((s.payDrain th).gatedHandles th).foldl (fun s h => s.updFrame h zeroGated) (s.payDrain th) := ⟨_, rfl⟩
  have hueng : u.eng = (s.payDrain th).eng := by
    rw [hu]; exact State.eng_foldl (fun v h => (v.updFrame_keeps h zeroGated).1) _ _
  have huregs : u.regs = (s.payDrain th).regs := by
    rw [hu]; exact State.regs_foldl (fun v h => (v.updFrame_keeps h zeroGated).2) _ _
  obtain ⟨v, hv⟩ : ∃ v, v = (clusterChs th).foldl (State.dmaFail th) (u.setThread th ((s.payDrain th).thread th).gateFailed) := ⟨_, rfl⟩
  have hveng : v.eng = (u.setThread th ((s.payDrain th).thread th).gateFailed).eng := by
    rw [hv]; exact State.eng_foldl (fun a c => (State.eng_dmaFail th a c).1) _ _
  have hvregs : v.regs = u.regs := by
    rw [hv]; exact State.regs_foldl (fun a c => (State.eng_dmaFail th a c).2) _ _
  have hfail : s.gateFail th = v.satInc F.BRD_GATE_FAIL.COUNT (thBoard th) 1 := by
    rw [State.gateFail, if_neg (by simp [h]), hv, hu]; rfl
  rw [hfail]
  refine ⟨⟨w, ?_⟩, ?_, fun f i hf => ?_⟩
  · rw [State.thread_congr (s := u.setThread th ((s.payDrain th).thread th).gateFailed)
      (congrArg EngineUnit.thr ((State.satInc_eng _ _ _ _).trans hveng)), State.thread_setThread, hw]; rfl
  · rw [State.satInc_eng, hveng, ← hlocal, ← hueng]; rfl
  · rw [State.satInc, State.fld_setFld_reg_ne _ _ _ _ _ _ hf, State.fld, State.fld, State.rd, State.rd, hvregs, huregs, hregs]

end Sys2Proof.Machine
end

section
namespace Sys2Proof.Machine

/-! ## What an open gate forbids, its timeout, and its failed buffers (R123 to R126, R337 to R344) -/

theorem State.gatedHandles_of_none {s : State} {th : Nat} (h : (s.thread th).handles = []) : s.gatedHandles th = [] := by
  rw [State.gatedHandles, h]; rfl

/-- The end of a thread with an open gate and no handle: the gate fails (R126). -/
theorem State.threadEnd_of_open (s : State) (th : Nat) (hopen : (s.thread th).open_ = true) (hhold : (s.thread th).handles = []) :
    (∃ w, (s.threadEnd th).thread th = { (s.thread th).gateFailed with wfifo := w })
      ∧ (s.threadEnd th).eng.localMem = s.eng.localMem := by
  obtain ⟨⟨w, hw⟩, hlocal, -⟩ := s.gateFail_of_open th hopen
  obtain ⟨u, hu⟩ : ∃ u, u = (s.gateFail th).payDrain th := ⟨_, rfl⟩
  obtain ⟨-, hulocal, x, hx⟩ : OnlyFifo th (s.gateFail th) u := hu ▸ State.onlyFifo_payDrain _ _
  obtain ⟨v, hv⟩ : ∃ v, v = u.payDrain th := ⟨_, rfl⟩
  obtain ⟨-, hvlocal, y, hy⟩ : OnlyFifo th u v := hv ▸ State.onlyFifo_payDrain _ _
  have hrecord : v.thread th = { (s.thread th).gateFailed with wfifo := y } := by rw [hy, hx, hw]
  have hnone : (v.thread th).handles = [] := by rw [hrecord]; exact hhold
  have hgated : (s.thread th).gated = true := by
    rw [Thread.open_, Bool.and_eq_true] at hopen; exact hopen.1
  have hresolve : s.gateResolve th = u := by
    rw [State.gateResolve, if_pos hgated, ← hu]
    dsimp only
    rw [State.gatedHandles_of_none (by rw [hx, hw]; exact hhold)]
    rfl
  have hend : s.threadEnd th = v.setThread th (v.thread th) := by
    have hsame : { v.thread th with handles := [] } = v.thread th := by rw [← hnone]
    rw [State.threadEnd, hresolve, ← hv]
    dsimp only
    rw [hnone, hsame]
    rfl
  rw [hend]
  exact ⟨⟨y, (State.thread_setThread _ _ _).trans hrecord⟩, hvlocal.trans (hulocal.trans hlocal)⟩

/-- A fault of a thread with an open gate and no handle: it stops, its gate fails, and local memory is as it was (R126, R143). -/
theorem State.threadFault_of_open (s : State) (th cause trap : Nat) (hb : th < 32768) (hopen : (s.thread th).open_ = true)
    (hhold : (s.thread th).handles = []) :
    (∃ w, (s.threadFault th cause trap).thread th
        = { (s.thread th).gateFailed with run := .stopped, faulted := true, look := none, wfifo := w })
      ∧ (s.threadFault th cause trap).eng.localMem = s.eng.localMem := by
  obtain ⟨u, hu⟩ : ∃ u, u = (s.setThread th { s.thread th with faulted := true }).threadStopped th := ⟨_, rfl⟩
  have hthread : u.thread th = { s.thread th with run := .stopped, faulted := true, look := none } := by
    rw [hu, State.thread_threadStopped, if_pos rfl, State.thread_setThread]
  have hulocal : u.eng.localMem = s.eng.localMem := by
    obtain ⟨c, hc⟩ := (s.setThread th { s.thread th with faulted := true }).threadStopped_eq th
    rw [hu, hc]; rfl
  obtain ⟨hlocal, hkeep, -⟩ := u.faultRecord_keeps th cause trap
  have hrec : (u.faultRecord th cause trap).thread th = u.thread th := hkeep th (.inl rfl)
  have hfault : s.threadFault th cause trap = (u.faultRecord th cause trap).threadEnd th := by
    rw [State.threadFault]
    dsimp only
    rw [if_neg (by simp [isMgmt, hb]), ← hu]
  obtain ⟨⟨w, hw⟩, hend⟩ := (u.faultRecord th cause trap).threadEnd_of_open th (by rw [hrec, hthread]; exact hopen)
    (by rw [hrec, hthread]; exact hhold)
  rw [hfault]
  exact ⟨⟨w, by rw [hw, hrec, hthread]; rfl⟩, hend.trans (hlocal.trans hulocal)⟩

/-- A store to local memory while the thread's gate is open is a protection fault (R337). -/
theorem State.accessFault_local_open (s : State) (th a : Nat) (halign : a % 4 = 0) (h : a < 0x8000) (hopen : (s.thread th).open_ = true) :
    s.accessFault th .loc a 4 true = some fcProt := by
  rw [State.accessFault, if_neg (by omega), if_neg (show ¬ outsideSpace th .loc a 4 = true by simp [outsideSpace]; omega),
    if_pos (by simp [State.gateForbids, hopen])]

/-- A store that an access fault stops. -/
theorem completes_stw_fault {s : State} {th cause : Nat} {rt rs1 : BitVec 5} {sp : BitVec 2} {off : BitVec 14} {P : State → Prop} (hrun : Runs s th)
    (hfault : s.accessFault th (spaceOf sp) ((s.thread th).spaceAddr (spaceOf sp) ((s.thread th).gr rs1 + sext off)) 4 true = some cause)
    (hP : P (s.fault th cause)) : Completes (.stw th sp rt rs1 off) s P := by
  refine .of_eq (congrArg done (s.issue_runs th _ hrun)) ?_
  rw [State.storeOp, length_beBytes, hfault]
  exact hP

theorem Thread.open_of_gated {t : Thread} (hgated : t.gated = true) (hfailed : t.failed = false) : t.open_ = true := by
  rw [Thread.open_, hgated, hfailed]; rfl

/-- A timeout fails an open gate and is counted (R344). -/
theorem completes_gateTimeout {s : State} {th : Nat} (hopen : (s.thread th).open_ = true)
    (hcount : s.fld F.BRD_GATE_TIMEOUT.COUNT (thBoard th) < 2 ^ 32 - 1) :
    Completes (.gateTimeout th) s (fun u => (∃ w, u.thread th = { (s.thread th).gateFailed with wfifo := w })
      ∧ u.fld F.BRD_GATE_TIMEOUT.COUNT (thBoard th) = s.fld F.BRD_GATE_TIMEOUT.COUNT (thBoard th) + 1) := by
  obtain ⟨hthread, -, hfld⟩ := s.gateFail_of_open th hopen
  refine .of_eq (congrArg done (if_pos hopen)) ⟨hthread, ?_⟩
  rw [State.fld_satInc_one _ _ _ (by decide), hfld _ _ (by decide), show F.BRD_GATE_TIMEOUT.COUNT.max = 2 ^ 32 - 1 from rfl]
  exact Nat.min_eq_right (by omega)

theorem State.clusterMem_clusterWrite (s : State) (cl off : Nat) (l : List Byte) :
    (s.clusterWrite cl off l).eng.clusterMem = Tbl.writeBytes s.eng.clusterMem (cl * 0x400000 + off) l := rfl

theorem State.setThread_clusterMem (s : State) (th : Nat) (t : Thread) : (s.setThread th t).eng.clusterMem = s.eng.clusterMem := rfl

/-- The buffer of a gate that is not open becomes zero (R343). -/
theorem completes_gatedBufferZero {s : State} {th a : Nat} (hopen : (s.thread th).open_ = false) (hbuf : (s.thread th).gbufs = [a])
    (hfree : (s.thread th).gfree = []) :
    Completes (.gatedBufferZero th) s (fun u => u.thread th = { s.thread th with gbufs := [] }
      ∧ ∀ k, Tbl.get (fun _ => (0 : Byte)) u.eng.clusterMem k
        = if th / 512 * 0x400000 + a ≤ k ∧ k < th / 512 * 0x400000 + a + 0x800 then 0
          else Tbl.get (fun _ => 0) s.eng.clusterMem k) := by
  have hzero : s.gatedZero th = (s.clusterWrite (thCluster th) a (List.replicate 0x800 0)).setThread th { s.thread th with gbufs := [] } := by
    rw [State.gatedZero]
    dsimp only
    rw [if_neg (by simp [hopen]), hfree, hbuf, List.foldl_cons, List.foldl_nil, List.foldl_nil]
  refine .of_eq (congrArg done hzero) ⟨State.thread_setThread _ _ _, fun k => ?_⟩
  rw [State.setThread_clusterMem, State.clusterMem_clusterWrite, Tbl.get_writeBytes, List.length_replicate, thCluster]
  refine if_congr Iff.rfl ?_ rfl
  rw [List.getD_eq_getElem?_getD, List.getElem?_replicate]
  split <;> rfl

/-- Settles O24: the store faults (`State.threadFault_of_open`), the timeout and the zeroed buffer have an equation each. -/
theorem tagGate : Obligations.TagGate := by
  unfold Obligations.TagGate
  intro th rt rs1 off s t
  refine ⟨fun hrun hgated hfailed hb _ hhold halign hnear => ?_, fun hgated hfailed hcount => ?_, fun a hclosed hbuf hfree => ?_⟩
  · have hopen := Thread.open_of_gated hgated hfailed
    rw [← Word.add_sext] at halign hnear
    obtain ⟨⟨w, hw⟩, hlocal⟩ := s.threadFault_of_open th fcProt 0 hb hopen hhold
    refine completes_stw_fault hrun (s.accessFault_local_open th _ halign hnear hopen) ?_
    rw [State.fault, hw]
    exact ⟨rfl, rfl, rfl, fun k => by rw [hlocal]⟩
  · obtain ⟨u, hu, ⟨w, hw⟩, hfld⟩ := completes_gateTimeout (Thread.open_of_gated hgated hfailed) hcount
    refine ⟨u, hu, ?_⟩
    dsimp only
    rw [hw]
    exact ⟨rfl, hgated, t.br_gateFailed, t.gr_gateFailed, hfld⟩
  · refine completes_gatedBufferZero ?_ hbuf hfree
    rcases hclosed with h | h <;> simp [Thread.open_, h, t]

end Sys2Proof.Machine
end

section
namespace Sys2Proof.Machine

/-! ## The key unit is no part of the coherence of lines (R167 to R173) -/

theorem State.keys_foldl {α : Type} {f : State → α → State} (hf : ∀ s x, (f s x).keys = s.keys) (l : List α) (s : State) :
    (l.foldl f s).keys = s.keys := by
  induction l generalizing s with
  | nil => rfl
  | cons x l ih => rw [List.foldl_cons, ih, hf]

theorem State.keys_dirDrop (s : State) (b n : Nat) : (s.dirDrop b n).keys = s.keys := by
  rw [State.dirDrop]
  split
  · split <;> rfl
  · rfl
  · rfl

theorem State.keys_dropCopies (s : State) (n : Nat) : (s.dropCopies n).keys = s.keys :=
  State.keys_foldl (f := fun s b => s.setLine b n .i) (fun _ _ => rfl) (List.range 8) s

theorem State.keys_writeBack (s : State) (b n : Nat) : (s.writeBack b n).keys = s.keys := State.keys_dirDrop _ _ _

theorem State.keys_evictClean (s : State) (b n : Nat) : (s.evictClean b n).keys = s.keys := State.keys_dirDrop _ _ _

theorem State.keys_sscRoom (s : State) (b : Nat) : (s.sscRoom b).keys = s.keys := by
  simp only [State.sscRoom]
  split
  · rfl
  · split
    · exact State.keys_writeBack s.draw _ _
    · exact State.keys_evictClean s.draw _ _

theorem State.keys_room (s : State) (c : Bool) (b : Nat) : (if c then s.sscRoom b else s).keys = s.keys := by
  split
  · exact s.keys_sscRoom b
  · rfl

theorem State.keys_homeAnswer (line : Nat) (x : HomeTxn) (s : State) (b : Nat) : (s.homeAnswer line x b).keys = s.keys := by
  obtain ⟨u, hu⟩ : ∃ u, u = if x.send.getLsbD b then s.emit (.coh (if x.fetch then cohFetch else cohInv) b line) else s := ⟨_, rfl⟩
  have hsend : u.keys = s.keys := by rw [hu]; split <;> rfl
  simp only [State.homeAnswer, ← hu]
  split
  · exact (State.keys_dirDrop ((u.setDue b line 0).setLine b line .i) b line).trans hsend
  · split
    · exact hsend
    · split <;> exact hsend

theorem State.keys_cohShare (s : State) (b n : Nat) : (s.cohShare b n).keys = s.keys := by
  rw [← s.keys_room (s.lineSt b n == .i) b]
  simp only [State.cohShare]
  generalize (if s.lineSt b n == .i then s.sscRoom b else s) = u
  simp only [State.emit_keys, State.cohEnd, State.setHomeLine, State.setDue, State.setLine, State.putHbm_keys]
  split <;> rw [State.setDir, State.putHbm_keys]

theorem State.keys_cohOwn (s : State) (b n k : Nat) : (s.cohOwn b n k).keys = s.keys := by
  rw [← s.keys_room (s.lineSt b n == .i) b]
  simp only [State.cohOwn]
  generalize (if s.lineSt b n == .i then s.sscRoom b else s) = u
  simp only [State.emit_keys, State.cohEnd, State.setHomeLine, State.setDue, State.setDir, State.setLine, State.putHbm_keys,
    State.keys_dropCopies]

theorem State.keys_homeFinish (s : State) (line : Nat) : (s.homeFinish line).keys = s.keys := by
  rw [State.homeFinish]
  split
  · rfl
  case h_2 x _ =>
    have hanswers := State.keys_foldl (State.keys_homeAnswer line x) ((List.range 8).filter (fun b => x.await.getLsbD b)) s
    dsimp only
    split
    · exact (State.keys_cohShare _ _ _).trans hanswers
    · exact (State.keys_cohOwn _ _ _ _).trans hanswers
    · exact (State.keys_cohOwn _ _ _ _).trans hanswers

theorem State.keys_cohServe (s : State) (line : Nat) : (s.cohServe line).keys = s.keys := by
  rw [State.cohServe]
  split <;> rfl

theorem State.keys_homeSettle (s : State) (line : Nat) : (s.homeSettle line).keys = s.keys :=
  State.keys_foldl (f := fun s (_ : Nat) => (s.homeFinish line).cohServe line)
    (fun s _ => (State.keys_cohServe _ line).trans (s.keys_homeFinish line)) _ s

/-- A coherent read moves lines between the caches and nothing else (R173). -/
theorem State.fetchForRead_keeps (s : State) (line : Nat) : CohKeeps s (s.fetchForRead line) ∧ (s.fetchForRead line).keys = s.keys := by
  have hset := s.keeps_homeSettle line
  have hkeys := s.keys_homeSettle line
  rw [State.fetchForRead]
  split
  · exact ⟨hset.trans ⟨rfl, rfl, rfl, rfl, rfl⟩, hkeys⟩
  · exact ⟨hset, hkeys⟩

theorem State.keys_eventAt (s : State) (chip blk skind low code sev data : Nat) (inj : Bool) :
    (s.eventAt chip blk skind low code sev data inj).keys = s.keys := by
  obtain ⟨hquiet, -⟩ := s.sameButEvents_eventAt chip blk skind low code sev data inj
  rw [State.quietEq] at hquiet
  exact (congrArg State.keys hquiet).trans rfl

theorem State.keys_eccFound (scrub : Bool) (s : State) (e : Nat × Nat) : (s.eccFound scrub e).keys = s.keys := by
  rw [State.eccFound]
  split
  · rw [State.keys_eventAt, State.setEcc_keys]
  · rw [State.keys_eventAt]

/-- A read of HBM by a unit that gives data (R173, R174). -/
theorem State.hbmTouch_one (s : State) (off n : Nat) (h : s.hbmBad off n = false) : (s.hbmTouch [(off, n)]).1 = true
    ∧ (s.hbmTouch [(off, n)]).2.keys = s.keys ∧ (s.hbmTouch [(off, n)]).2.eng = s.eng := by
  rw [State.hbmBad, Bool.or_eq_false_iff, Bool.or_eq_false_iff] at h
  obtain ⟨⟨hrefuses, hpoison⟩, hecc⟩ := h
  obtain ⟨u, hu⟩ : ∃ u, u = (s.eccRead hbmGroups (hbmBase + off) n false).2 := ⟨_, rfl⟩
  have hueng : u.eng = s.eng := by
    rw [hu, State.eccRead]; exact State.eng_foldl (State.eng_eccFound false) _ s
  have hukeys : u.keys = s.keys := by
    rw [hu, State.eccRead]; exact State.keys_foldl (State.keys_eccFound false) _ s
  have hget : s.hbmGet (hbmBase + off) n = (some (s.hbmRead off n), (linesOf off n).foldl State.fetchForRead u) := by
    rw [State.hbmGet, if_neg (by rw [hrefuses, Nat.add_sub_cancel_left, hpoison]; decide), Nat.add_sub_cancel_left]
    dsimp only
    rw [if_neg (by rw [hecc]; decide), ← hu]
  rw [State.hbmTouch, hget]
  refine ⟨rfl, ?_, ?_⟩
  · exact (State.keys_foldl (fun v l => (v.fetchForRead_keeps l).2) _ u).trans hukeys
  · exact (State.eng_foldl (fun v l => (v.fetchForRead_keeps l).1.2.2.2.1) _ u).trans hueng

/-! ## Threads that become ready together (R148) -/

/-- The threads of a list become ready; nothing else of a thread changes. -/
theorem State.makeReadyAll_spec (s : State) (l : List Nat) : (∃ thr cur, s.makeReadyAll l = s.putEng { s.eng with thr := thr, cur := cur })
    ∧ ∀ x, (s.makeReadyAll l).thread x = if x ∈ l then (s.thread x).setRun .ready else s.thread x := by
  have hset : ∀ (l : List Nat) (s : State),
      (∃ thr, l.foldl (fun s th => s.setThread th ((s.thread th).setRun .ready)) s = s.putEng { s.eng with thr := thr })
      ∧ ∀ x, (l.foldl (fun s th => s.setThread th ((s.thread th).setRun .ready)) s).thread x
        = if x ∈ l then (s.thread x).setRun .ready else s.thread x := by
    intro l
    induction l with
    | nil => exact fun s => ⟨⟨s.eng.thr, rfl⟩, fun x => by simp⟩
    | cons y l ih =>
      intro s
      obtain ⟨⟨thr, hthr⟩, hth⟩ := ih (s.setThread y ((s.thread y).setRun .ready))
      refine ⟨⟨thr, hthr⟩, fun x => ?_⟩
      rw [List.foldl_cons, hth, State.thread_setThread_eq]
      by_cases hx : x = y
      · subst hx; simp [Thread.setRun]
      · simp [hx]
  have hswitch : ∀ (l : List Nat) (s : State), ∃ cur, l.foldl (fun s e => s.switchFrom (s.selected e)) s = s.putEng { s.eng with cur := cur } := by
    intro l
    induction l with
    | nil => exact fun s => ⟨s.eng.cur, rfl⟩
    | cons y l ih =>
      intro s
      obtain ⟨c, hc⟩ := s.switchFrom_eq (s.selected y)
      obtain ⟨d, hd⟩ := ih (s.switchFrom (s.selected y))
      exact ⟨d, by rw [List.foldl_cons, hd, hc]; rfl⟩
  obtain ⟨⟨thr, hthr⟩, hth⟩ := hset l s
  obtain ⟨cur, hcur⟩ := hswitch (((l.map thEngine).eraseDups).filter (fun e => !(s.thread (s.selected e)).isReady))
    (l.foldl (fun s th => s.setThread th ((s.thread th).setRun .ready)) s)
  have hall : s.makeReadyAll l = _ := hcur
  refine ⟨⟨thr, cur, ?_⟩, fun x => ?_⟩
  · rw [hall, hthr]; rfl
  · rw [hall, ← hth]; rfl

/-- A key whose value is not the default stands in the table. -/
theorem Tbl.mem_of_get_ne {β : Type} {d : Nat → β} {t : Tbl β} {k : Nat} (h : Tbl.get d t k ≠ d k) : (k, Tbl.get d t k) ∈ t := by
  induction t with
  | nil => exact absurd rfl h
  | cons e t ih =>
    obtain ⟨j, v⟩ := e
    rw [Tbl.get_cons] at h ⊢
    by_cases hj : j = k
    · subst hj; rw [if_pos rfl]; exact List.mem_cons_self
    · rw [if_neg hj] at h ⊢; exact List.mem_cons_of_mem _ (ih h)

/-- A thread that waits is among those that wait. -/
theorem State.mem_waiting {s : State} {th : Nat} {w : Wait} {p : Wait → Bool} (hrun : (s.thread th).run = .stalled w) (hp : p w = true) :
    th ∈ s.waiting p := by
  have hne : s.thread th ≠ Machine.threadReset := Thread.ne_reset (by rw [hrun]; exact Run.noConfusion)
  refine List.mem_map.mpr ⟨(th, s.thread th), List.mem_filter.mpr ⟨Tbl.mem_of_get_ne hne, ?_⟩, rfl⟩
  dsimp only
  rw [hrun]
  exact hp

end Sys2Proof.Machine
end

section
namespace Sys2Proof.Machine

/-! ## Round units and the key cache (R121 to R123, R325, R333) -/

theorem State.keyTouch_eng (s : State) (b i : Nat) : (s.keyTouch b i).eng = s.eng := by
  rw [State.keyTouch]
  split <;> rfl

theorem State.round_setRound (s : State) (k : Nat) (w : Option RoundWork) :
    Tbl.get (fun _ => none) (s.setRound k w).eng.round k = w := Tbl.get_set_same _ _ _ _

theorem State.keySet_setKeySet (s : State) (b k : Nat) (l : List KeyWay) : (s.setKeySet b k l).keySet b k = l :=
  Tbl.get_set_same _ _ _ _

/-- A cipher with its key at hand goes to unit 0 of its engine, if that is free (R121, R325). -/
theorem State.cipher_hit {s : State} {th : Nat} {bd ba : BitVec 3} {rs1 : BitVec 5} {dec : Bool} {e : KeyEntry} (hb : th < 32768)
    (hrun : Runs s th) (hfree : (s.thread th).bBusy = 0) (hunit : Tbl.get (fun _ => none) s.eng.round (th / 8 * 2) = none)
    (hkey : s.keyUse (thBoard th) ((s.thread th).gr rs1) (s.thread th).inst dec = .hit e) :
    s.cipher th bd ba rs1 dec = s.roundStart th (th / 8 * 2) bd ba dec (fieldOf ((s.thread th).gr rs1) 19 0) e := by
  have hround : s.freeRound (thEngine th) = some (th / 8 * 2) := by
    rw [State.freeRound, if_pos (show (s.roundWork (roundKey (thEngine th) false)).isNone = true from Option.isNone_iff_eq_none.mpr hunit)]
    rfl
  rw [State.cipher, s.blockIssue_board th _ _ hrun hb hfree, hround]
  dsimp only
  rw [hkey]

theorem State.roundStart_spec (s : State) (th k : Nat) (bd ba : BitVec 3) (dec : Bool) (idx : Nat) (e : KeyEntry)
    (hfree : (s.thread th).bBusy = 0) :
    let u := s.roundStart th k bd ba dec idx e
    let inp := blockBytes ((s.thread th).br ba)
    Tbl.get (fun _ => none) u.eng.round k
        = some { th := some th, bd := bd, res := bytesBlock (if dec then aesDec e.bytes inp else aesEnc e.bytes inp) }
      ∧ u.thread th = { (s.thread th).advance with bBusy := (1 : BitVec 8) <<< bd.toNat, gated := (s.thread th).gated || e.gate }
      ∧ ∀ x, x ≠ th → u.thread x = s.thread x := by
  intro u inp
  obtain ⟨v, hv⟩ : ∃ v, v = (s.keyTouch (thBoard th) idx).setRound k
      (some { th := some th, bd := bd, res := bytesBlock (if dec then aesDec e.bytes inp else aesEnc e.bytes inp) }) := ⟨_, rfl⟩
  have hu : u = v.retire th (fun t => { t.openGate e.gate with bBusy := t.bBusy ||| blkBit bd }) := by rw [hv]; rfl
  have hthread : ∀ x, v.thread x = s.thread x := by
    intro x
    rw [hv, ← State.thread_congr (s := s) (t := s.keyTouch (thBoard th) idx) (by rw [State.keyTouch_eng]) x]
    rfl
  refine ⟨?_, ?_, fun x hx => ?_⟩
  · have huv : u.eng.round = v.eng.round := by rw [hu]; rfl
    rw [huv, hv, State.round_setRound]
  · rw [hu, State.retire, State.thread_setThread, hthread, hfree]
    rw [show (0 : BitVec 8) ||| blkBit bd = blkBit bd from BitVec.zero_or]
    rfl
  · rw [hu, State.retire, State.thread_setThread_ne _ _ (Ne.symm hx), hthread]

/-- The result of a round unit reaches the block register it was for (R122). -/
theorem completes_roundUnitDone {s : State} {th : Nat} {u : Bool} {bd : BitVec 3} {res : Block}
    (hunit : Tbl.get (fun _ => none) s.eng.round (th / 8 * 2 + b2n u) = some { th := some th, bd := bd, res := res }) :
    Completes (.roundUnitDone (th / 8) u) s (fun v => Tbl.get (fun _ => none) v.eng.round (th / 8 * 2 + b2n u) = none
      ∧ ∃ r, v.thread th = { (s.thread th).setBr bd res with
          bBusy := (s.thread th).bBusy &&& ~~~((1 : BitVec 8) <<< bd.toNat), run := r }) := by
  obtain ⟨v, hv⟩ : ∃ v, v = (s.setRound (th / 8 * 2 + b2n u) none).roundWrite { th := some th, bd := bd, res := res } := ⟨_, rfl⟩
  have hexec : exec (.roundUnitDone (th / 8) u) s
      = done (v.makeReadyAll ((v.waiting (fun x => x == .round)).filter (fun x => thEngine x == th / 8))) := by
    change execRoundUnitDone (th / 8) u s = _
    rw [execRoundUnitDone, show s.roundWork (roundKey (th / 8) u) = _ from hunit, hv]
    rfl
  have hthread : v.thread th = { (s.thread th).setBr bd res with bBusy := (s.thread th).bBusy &&& ~~~((1 : BitVec 8) <<< bd.toNat) } := by
    rw [hv]; exact State.thread_setThread _ _ _
  obtain ⟨⟨thr, cur, heq⟩, hready⟩ := v.makeReadyAll_spec ((v.waiting (fun x => x == .round)).filter (fun x => thEngine x == th / 8))
  refine .of_eq hexec ⟨?_, ?_⟩
  · have hround : (v.putEng { v.eng with thr := thr, cur := cur }).eng.round = (s.setRound (th / 8 * 2 + b2n u) none).eng.round := by
      rw [hv]; rfl
    rw [heq, hround, State.round_setRound]
  · rw [hready, hthread]
    split
    · exact ⟨.ready, rfl⟩
    · exact ⟨_, rfl⟩

/-- A fetched entry that passes CHECK is the most recent way of its set, and who waits for it goes on (R333). -/
theorem completes_keyFetchDone {s : State} {th : Nat} {b : BitVec 3} {i : BitVec 20} (hth : th < 32768)
    (hfetch : s.keys.fetch = [(b.toNat, i.toNat)]) (hbad : s.hbmBad (keyOff i.toNat) 64 = false) (hcheck : s.keyChecks i.toNat = true) :
    Completes (.keyFetchDone b i true) s (fun v => v.keys.fetch = []
      ∧ (∃ rest, v.keySet b.toNat (i.toNat % 1024) = { index := i.toNat, entry := s.keyFetched i.toNat, used := true } :: rest)
      ∧ ((s.thread th).run = .stalled (.key i) → thBoard th = b.toNat → (v.thread th).run = .ready)) := by
  obtain ⟨u, hu⟩ : ∃ u, u = s.putKeys { s.keys with fetch := [] } := ⟨_, rfl⟩
  have hubad : u.hbmBad (keyOff i.toNat) 64 = false := by rw [hu]; exact hbad
  obtain ⟨hread, hkeys, heng⟩ := u.hbmTouch_one _ _ hubad
  obtain ⟨w, hw⟩ : ∃ w, w = (u.hbmTouch [(keyOff i.toNat, 64)]).2.keyFill b.toNat i.toNat (s.keyFetched i.toNat) := ⟨_, rfl⟩
  obtain ⟨l, hl⟩ : ∃ l, l = (u.waiting (fun x => x == .key i)).filter (fun x => thBoard x == b.toNat && !isMgmt x) := ⟨_, rfl⟩
  have hexec : exec (.keyFetchDone b i true) s = done (w.makeReadyAll l) := by
    change execKeyFetchDone b i true s = _
    have herase : s.keys.fetch.erase (b.toNat, i.toNat) = [] := by rw [hfetch]; simp
    have hcheck' : u.keyChecks i.toNat = true := by rw [hu]; exact hcheck
    have hentry : u.keyFetched i.toNat = s.keyFetched i.toNat := by rw [hu]; rfl
    rw [execKeyFetchDone]
    dsimp only
    rw [if_neg (by rw [hfetch]; simp), herase, ← hu, hread, hcheck', hentry, ← hw, ← hl]
    rfl
  obtain ⟨⟨thr, cur, heq⟩, hready⟩ := w.makeReadyAll_spec l
  have hwthread : w.thread th = s.thread th := by
    have h : w.thread th = u.thread th := State.thread_congr (by rw [hw, ← heng]; rfl) th
    rw [h, hu]; rfl
  refine .of_eq hexec ⟨?_, ?_, fun hrun hboard => ?_⟩
  · have hwfetch : w.keys.fetch = (u.hbmTouch [(keyOff i.toNat, 64)]).2.keys.fetch := by rw [hw]; rfl
    have hvfetch : (w.makeReadyAll l).keys.fetch = w.keys.fetch := by rw [heq]; rfl
    rw [hvfetch, hwfetch, hkeys, hu]; rfl
  · refine ⟨(((u.hbmTouch [(keyOff i.toNat, 64)]).2.keySet b.toNat (i.toNat % 1024)).filter (fun w => w.index != i.toNat)).take 15, ?_⟩
    have hvset : (w.makeReadyAll l).keySet b.toNat (i.toNat % 1024) = w.keySet b.toNat (i.toNat % 1024) := by rw [heq]; rfl
    rw [hvset, hw]
    exact State.keySet_setKeySet _ _ _ _
  · have hmem : th ∈ l := by
      have hrun' : (u.thread th).run = .stalled (.key i) := by rw [hu]; exact hrun
      rw [hl]
      exact List.mem_filter.mpr ⟨State.mem_waiting hrun' (by simp), by simp [hboard, isMgmt, hth]⟩
    rw [hready, if_pos hmem]
    rfl

end Sys2Proof.Machine
end

section
namespace Sys2Proof.Machine

/-! ## The release of a tag gate (R342) -/

/-- Of a thread's record at most its run state, its EVT, its posted payload writes and its share of the cluster buffers changed: what
the units of the block do to a thread that goes on. -/
def InBackground (th : Nat) (s u : State) : Prop :=
  ∃ r e w b, u.thread th = { s.thread th with run := r, evt := e, wfifo := w, bufHeld := b }

theorem InBackground.of_thread {th : Nat} {s u : State} (h : u.thread th = s.thread th) : InBackground th s u :=
  ⟨(s.thread th).run, (s.thread th).evt, (s.thread th).wfifo, (s.thread th).bufHeld, h⟩

theorem InBackground.of_eng {th : Nat} {s u : State} (h : u.eng = s.eng) : InBackground th s u :=
  .of_thread (State.thread_congr (by rw [h]) th)

theorem InBackground.refl (th : Nat) (s : State) : InBackground th s s := .of_thread rfl

theorem InBackground.trans {th : Nat} {s u v : State} (h : InBackground th s u) (k : InBackground th u v) : InBackground th s v := by
  obtain ⟨r, e, w, b, hu⟩ := h
  obtain ⟨r', e', w', b', hv⟩ := k
  exact ⟨r', e', w', b', by rw [hv, hu]⟩

theorem InBackground.foldl {th : Nat} {α : Type} {f : State → α → State} (hf : ∀ s x, InBackground th s (f s x)) (l : List α) (s : State) :
    InBackground th s (l.foldl f s) :=
  List.foldlRecOn (motive := InBackground th s) l f (.refl th s) fun u hu x _ => hu.trans (hf u x)

theorem State.inBackground_payDrain (s : State) (th : Nat) : InBackground th s (s.payDrain th) := by
  obtain ⟨-, -, w, hw⟩ := s.onlyFifo_payDrain th
  exact ⟨_, _, w, _, hw⟩

/-- A change of a thread's share of the cluster buffers, of whichever thread. -/
theorem State.inBackground_setBufHeld (s : State) (th x n : Nat) :
    InBackground th s (s.setThread x { s.thread x with bufHeld := n }) := by
  by_cases h : th = x
  · subst h
    exact ⟨_, _, _, n, State.thread_setThread _ _ _⟩
  · exact .of_thread (State.thread_setThread_ne _ _ (Ne.symm h))

theorem State.inBackground_bufReturn (s : State) (th cl : Nat) (o : Option Nat) : InBackground th s (s.bufReturn cl o) := by
  obtain ⟨u, hu⟩ : ∃ u, u = s.setFld F.CLU_BUF_STAT.ALLOCATED cl (s.fld F.CLU_BUF_STAT.ALLOCATED cl - 1) := ⟨_, rfl⟩
  have hcount : InBackground th s u := .of_eng (by rw [hu, State.setFld_eng])
  have hpool : InBackground th s (u.modInc F.CLU_BUF_STAT.POOL cl 1) := hcount.trans (.of_eng (by rw [State.modInc, State.setFld_eng]))
  simp only [State.bufReturn, ← hu]
  split
  · split
    · exact hcount.trans (u.inBackground_setBufHeld _ _ _)
    · exact hpool
  · exact hpool

theorem State.inBackground_bufFree (s : State) (th cl a : Nat) : InBackground th s (s.bufFree cl a) := by
  rw [State.bufFree]
  split
  · exact .of_eng rfl
  · refine InBackground.trans ?_ (State.inBackground_bufReturn _ th cl _)
    exact .of_thread rfl

theorem State.inBackground_makeReadyAll (s : State) (th : Nat) (l : List Nat) : InBackground th s (s.makeReadyAll l) := by
  obtain ⟨-, h⟩ := s.makeReadyAll_spec l
  rw [InBackground, h]
  split
  · exact ⟨.ready, _, _, _, rfl⟩
  · exact ⟨_, _, _, _, rfl⟩

theorem State.inBackground_setEvt (s : State) (th x : Nat) (m : Word) : InBackground th s (s.setEvt x m) := by
  obtain ⟨r, h⟩ := s.thread_setEvt x th m
  rw [InBackground, h]
  split
  case isTrue hx => subst hx; exact ⟨r, _, _, _, rfl⟩
  · exact ⟨_, _, _, _, rfl⟩

theorem State.inBackground_dmaCount (s : State) (th ch : Nat) (d : DmaDesc) (code : Nat) : InBackground th s (s.dmaCount ch d code) := by
  obtain ⟨u, hu⟩ : ∃ u, u = if code = 0 then s.satInc F.DMA_DESCS.COUNT ch 1
      else (s.satInc F.DMA_DESCS.COUNT ch 1).satInc F.DMA_ERRS.COUNT ch 1 := ⟨_, rfl⟩
  have hcount : InBackground th s u := .of_eng (by rw [hu]; split <;> rfl)
  have hrest : s.dmaCount ch d code = if bit (d.w 0).toNat 23 then u.setEvt d.th (1 <<< 17) else u := by rw [hu]; rfl
  rw [hrest]
  split
  · exact hcount.trans (u.inBackground_setEvt _ _ _)
  · exact hcount

theorem State.inBackground_dmaWake (s : State) (th ch : Nat) : InBackground th s (s.dmaWake ch) := by
  rw [State.dmaWake]
  split
  · exact .refl th s
  · exact s.inBackground_makeReadyAll th _

theorem State.eng_atsFlush (s : State) : s.atsFlush.eng = s.eng := by
  rw [State.atsFlush]
  exact State.eng_foldl (fun _ _ => by rfl) _ _

theorem State.inBackground_dmaEnd (s : State) (th ch code side : Nat) : InBackground th s (s.dmaEnd ch code side) := by
  rw [State.dmaEnd]
  dsimp only
  split
  · exact .refl th s
  · refine InBackground.trans ?_ (.of_eng (State.eng_atsFlush _))
    refine InBackground.trans ?_ (State.inBackground_dmaWake _ th ch)
    refine InBackground.trans ?_ (State.inBackground_dmaCount _ th ch _ code)
    exact .of_thread rfl

theorem State.inBackground_dmaRelease (s : State) (th ch : Nat) : InBackground th s (State.dmaRelease th s ch) := by
  rw [State.dmaRelease]
  split
  · split
    · split
      · refine InBackground.trans ?_ (State.inBackground_dmaEnd _ _ _ _ _)
        exact .of_thread rfl
      · exact .of_thread rfl
    · exact .of_thread rfl
  · exact .of_thread rfl

/-- The record of a thread whose gate is released (R342). -/
def Thread.gateReleased (t : Thread) : Thread := { t with gated := false, taint := 0, gbufs := [], gfree := [] }

theorem State.gateRelease_thread (s : State) (th : Nat) :
    ∃ r e w b, (s.gateRelease th).thread th = { (s.thread th).gateReleased with run := r, evt := e, wfifo := w, bufHeld := b } := by
  obtain ⟨u, hu⟩ : ∃ u, u = ((s.payDrain th).gatedHandles th).foldl (fun s h => s.updFrame h (fun f => { f with gated := [] }))
      (s.payDrain th) := ⟨_, rfl⟩
  have hdrain : InBackground th s u := by
    rw [hu]
    exact (s.inBackground_payDrain th).trans (.of_eng (State.eng_foldl (fun v h => (v.updFrame_keeps h _).1) _ _))
  have hrest : InBackground th (u.setThread th (u.thread th).gateReleased) (s.gateRelease th) := by
    rw [State.gateRelease, ← hu]
    exact (InBackground.foldl (fun v a => v.inBackground_bufFree th (thCluster th) a) _ _).trans
      (InBackground.foldl (fun v ch => v.inBackground_dmaRelease th ch) _ _)
  obtain ⟨r, e, w, b, hthread⟩ := hdrain
  obtain ⟨r', e', w', b', hfinal⟩ := hrest
  exact ⟨r', e', w', b', by rw [hfinal, State.thread_setThread, hthread]; rfl⟩

end Sys2Proof.Machine
end

section
namespace Sys2Proof.Machine

/-! ## TAGCMP (R125, R342, R343) -/

/-- TAGCMP of a length that it can compare gives its result and resolves the gate. -/
theorem completes_tagcmp {s : State} {th : Nat} {rd rs1 : BitVec 5} {ba bb : BitVec 3} {P : State → Prop} (hrun : Runs s th)
    (hfree : (s.thread th).bBusy = 0) (hlo : 4 ≤ ((s.thread th).gr rs1).toNat) (hhi : ((s.thread th).gr rs1).toNat ≤ 16) {eq : Bool}
    (heq : ((beBytes 16 ((s.thread th).br ba).toNat).take ((s.thread th).gr rs1).toNat
      == (beBytes 16 ((s.thread th).br bb).toNat).take ((s.thread th).gr rs1).toNat) = eq)
    (hP : P ((s.result th rd false (if eq then 0 else 1)).gateOutcome th eq)) : Completes (.tagcmp th rd ba bb rs1) s P := by
  refine .of_eq (congrArg done (s.blockIssue_free th _ _ hrun hfree)) ?_
  dsimp only
  rw [if_neg (by omega), blockBytes, blockBytes, heq]
  exact hP

theorem State.gateOutcome_closed {s : State} {th : Nat} (eq : Bool) (h : (s.thread th).gated = false) : s.gateOutcome th eq = s := by
  rw [State.gateOutcome, if_pos h]

theorem State.gateOutcome_match {s : State} {th : Nat} (h : (s.thread th).gated = true) (hfailed : (s.thread th).failed = false) :
    s.gateOutcome th true = s.gateRelease th := by
  rw [State.gateOutcome, if_neg (by simp [h]), if_pos (by simp [hfailed])]

theorem State.gateOutcome_mismatch {s : State} {th : Nat} (h : (s.thread th).gated = true) : s.gateOutcome th false = s.gateFail th := by
  rw [State.gateOutcome, if_neg (by simp [h]), if_neg (by simp)]

theorem State.result_thread (s : State) (th : Nat) (rd : BitVec 5) (src : Bool) (v : Word) :
    (s.result th rd src v).thread th = ((s.thread th).put rd src v).advance := State.thread_setThread _ _ _

theorem Thread.put_gate (t : Thread) (rd : BitVec 5) (src : Bool) (v : Word) :
    (t.put rd src v).gated = t.gated ∧ (t.put rd src v).failed = t.failed ∧ (t.put rd src v).pc = t.pc := by
  obtain ⟨hpc, -, -, -, hgated, hfailed⟩ := t.put_keeps rd src v
  exact ⟨hgated, hfailed, hpc⟩

theorem Thread.gr_put_advance (t : Thread) (rd n : BitVec 5) (src : Bool) (v : Word) :
    ((t.put rd src v).advance).gr n = if n = 0 then 0 else if n = rd then v else t.gr n := by
  rw [Thread.gr_advance, Thread.gr_put]

/-- Settles O19: the round units and the key cache by their lemmas, TAGCMP by what it does to the gate. -/
theorem ciphersAndTags : Obligations.CiphersAndTags := by
  unfold Obligations.CiphersAndTags
  constructor
  · intro th bd ba rs1 s hb t inp works key
    refine ⟨fun e hrun hfree hunit hkey => ?_, fun e hrun hfree hunit hkey => ?_, fun u res hunit => ?_, fun b i hfetch hbad hcheck => ?_⟩
    · exact .of_eq (congrArg done (State.cipher_hit hb hrun hfree hunit hkey)) (s.roundStart_spec th _ bd ba false _ e hfree)
    · exact .of_eq (congrArg done (State.cipher_hit hb hrun hfree hunit hkey)) (s.roundStart_spec th _ bd ba true _ e hfree)
    · obtain ⟨v, hv, hround, r, hthread⟩ := completes_roundUnitDone hunit
      refine ⟨v, hv, ?_⟩
      dsimp only
      rw [hthread]
      refine ⟨hround, ?_, fun n hn => ?_, rfl⟩
      · exact (t.br_setBr bd bd res).trans (if_pos rfl)
      · exact (t.br_setBr bd n res).trans (if_neg hn)
    · exact completes_keyFetchDone hb hfetch hbad hcheck
  · intro th rd rs1 ba bb s hrun hfree t n eq hlo hhi
    have hresult : ∀ v, ((s.result th rd false v).thread th).gated = t.gated ∧ ((s.result th rd false v).thread th).failed = t.failed
        ∧ ((s.result th rd false v).thread th).pc = t.pc + 4 := fun v => by
      obtain ⟨hgated, hfailed, hpc⟩ := t.put_gate rd false v
      rw [State.result_thread]
      exact ⟨hgated, hfailed, congrArg (· + 4) hpc⟩
    refine ⟨fun hgated => ?_, fun hgated hfailed heq => ?_, fun hgated hfailed heq => ?_⟩
    · refine completes_tagcmp hrun hfree hlo hhi rfl ?_
      rw [State.gateOutcome_closed _ ((hresult _).1.trans hgated)]
      exact s.result_gives th rd false _
    · refine completes_tagcmp hrun hfree hlo hhi heq ?_
      obtain ⟨hg, hf, hpc⟩ := hresult 0
      obtain ⟨r, e, w, b, hthread⟩ := (s.result th rd false 0).gateRelease_thread th
      rw [if_pos rfl, State.gateOutcome_match (hg.trans hgated) (hf.trans hfailed), hthread]
      refine ⟨rfl, hf.trans hfailed, rfl, fun k => ?_, hpc⟩
      rw [State.result_thread]
      exact t.gr_put_advance rd k false 0
    · refine completes_tagcmp hrun hfree hlo hhi heq ?_
      obtain ⟨hg, hf, hpc⟩ := hresult 1
      obtain ⟨⟨w, hthread⟩, -, -⟩ := (s.result th rd false 1).gateFail_of_open th (Thread.open_of_gated (hg.trans hgated) (hf.trans hfailed))
      rw [if_neg (by decide), State.gateOutcome_mismatch (hg.trans hgated), hthread]
      have hgr : ∀ k, k ≠ 0 → ((s.result th rd false 1).thread th).gateFailed.gr k
          = if k = rd then 1 else if t.tainted k then 0 else t.gr k := fun k hk => by
        rw [Thread.gr_gateFailed _ _ hk, State.tainted_result, if_neg hk, Bool.and_false, State.result_thread, Thread.gr_put_advance, if_neg hk]
        by_cases hrd : k = rd <;> simp [hrd, t]
      exact ⟨hg.trans hgated, rfl, Thread.br_gateFailed ((s.result th rd false 1).thread th), fun k hk hne => (hgr k hk).trans (if_neg hne),
        fun hk => (hgr rd hk).trans (if_pos rfl), hpc⟩

end Sys2Proof.Machine
end

section
namespace Sys2Proof.Machine

/-! ## The memories of a thread's engine and cluster (R100, R103) -/

theorem Tbl.readBytes_eq_map (t : Tbl Byte) (k n : Nat) : Tbl.readBytes t k n = (List.range n).map (fun i => Tbl.get (fun _ => 0) t (k + i)) := by
  induction n generalizing k with
  | zero => rfl
  | succ n ih =>
    rw [Tbl.readBytes, ih, List.range_succ_eq_map, List.map_cons, List.map_map]
    refine congrArg (List.cons _) (List.map_congr_left fun i _ => ?_)
    rw [Function.comp_apply, Nat.succ_eq_add_one, show k + 1 + i = k + (i + 1) by omega]

/-- Bytes of the thread's local memory (space 0) or of its cluster's (space 1). -/
def State.nearBytes (s : State) (th : Nat) (sp : BitVec 2) (a n : Nat) : List Byte := (List.range n).map (fun k => s.nearByte th sp (a + k))

/-- The state with bytes of one of them written. -/
def State.nearWrite (s : State) (th : Nat) (sp : BitVec 2) (a : Nat) (l : List Byte) : State :=
  if sp = 0 then s.putEng { s.eng with localMem := Tbl.writeBytes s.eng.localMem (th / 8 * 0x8000 + a) l }
  else s.putEng { s.eng with clusterMem := Tbl.writeBytes s.eng.clusterMem (th / 512 * 0x400000 + a) l }

theorem State.length_nearBytes (s : State) (th : Nat) (sp : BitVec 2) (a n : Nat) : (s.nearBytes th sp a n).length = n := by
  simp [State.nearBytes]

/-- Local memory, or cluster memory of a Board's thread: the spaces that answer at once. -/
abbrev IsNear (th : Nat) (sp : BitVec 2) : Prop := sp = 0 ∨ (sp = 1 ∧ th < 32768)

/-- The size of an access divides the sizes of both memories. -/
abbrev IsSize (n : Nat) : Prop := n = 1 ∨ n = 2 ∨ n = 4 ∨ n = 16

theorem spaceOf_near {th : Nat} {sp : BitVec 2} (h : IsNear th sp) : spaceOf sp = .loc ∨ spaceOf sp = .clu := by
  rcases h with rfl | ⟨rfl, -⟩
  · exact .inl rfl
  · exact .inr rfl

theorem Thread.spaceAddr_near (t : Thread) {th : Nat} {sp : BitVec 2} (h : IsNear th sp) (ea : Word) : t.spaceAddr (spaceOf sp) ea = ea.toNat := by
  rcases h with rfl | ⟨rfl, -⟩ <;> rfl

/-- An aligned access inside one of the two memories, of a thread whose gate is closed, has no fault (R101). -/
theorem State.accessFault_near {s : State} {th : Nat} {sp : BitVec 2} {a n : Nat} (wr : Bool) (hsp : IsNear th sp) (hn : IsSize n)
    (hgate : (s.thread th).gated = false) (ha : a < nearSize sp) (halign : a % n = 0) : s.accessFault th (spaceOf sp) a n wr = none := by
  have hforbid : s.gateForbids th (spaceOf sp) a n = false := by simp [State.gateForbids, Thread.open_, hgate]
  have hin : a + n ≤ nearSize sp := by
    rcases hsp with rfl | ⟨rfl, -⟩ <;> simp only [nearSize] at ha ⊢ <;> rcases hn with rfl | rfl | rfl | rfl <;> simp at ha ⊢ <;> omega
  rw [State.accessFault, if_neg (by omega), hforbid, Bool.and_false]
  rcases hsp with rfl | ⟨rfl, hb⟩
  · have hout : outsideSpace th (spaceOf 0) a n = false := by
      simp only [nearSize, if_true] at hin; simp [outsideSpace, spaceOf, hin]
    rw [hout]; rfl
  · have hout : outsideSpace th (spaceOf 1) a n = false := by
      have : a + n ≤ 0x400000 := hin
      simp [outsideSpace, spaceOf, isMgmt, hb, this]
    rw [hout]; rfl

theorem State.eccRead_of_good {s : State} (h : s.plat.ecc = []) (gs : List Nat) (a n : Nat) (scrub : Bool) : s.eccRead gs a n scrub = (false, s) := by
  rw [State.eccRead, State.eccIn, h]; rfl

theorem State.eccWipe_of_good {s : State} (h : s.plat.ecc = []) (gs : List Nat) (a n : Nat) : s.eccWipe gs a n = s := by
  have hsame : { s.plat with ecc := [] } = s.plat := by rw [← h]
  rw [State.eccWipe, h, List.filter_nil, hsame]; rfl

theorem State.spaceRead_near {s : State} {th : Nat} {sp : BitVec 2} (hsp : IsNear th sp) (hun : Unhindered s th) (a n : Nat) :
    s.spaceRead th (spaceOf sp) a n = (.ok (s.nearBytes th sp a n), s) := by
  obtain ⟨hecc, -, hbufs, -, -⟩ := hun
  have hmem : ∀ (t : Tbl Byte) (k : Nat), Tbl.readBytes t (k + a) n = (List.range n).map (fun i => Tbl.get (fun _ => 0) t (k + (a + i))) :=
    fun t k => (Tbl.readBytes_eq_map _ _ _).trans (List.map_congr_left fun i _ => by rw [Nat.add_assoc])
  rcases hsp with rfl | ⟨rfl, -⟩
  · exact congrArg (fun l => (Except.ok l, s)) (hmem s.eng.localMem (th / 8 * 0x8000))
  · have hhid : ((s.eng.thr.filter (fun e => e.1 / 512 == thCluster th && some e.1 != some th)).flatMap (fun e => e.2.gbufs)) = [] :=
      List.flatMap_eq_nil_iff.mpr fun e he => hbufs e (List.mem_of_mem_filter he)
    have hseen : s.clusterSeen (thCluster th) (some th) a n = s.nearBytes th 1 a n := by
      rw [State.clusterSeen, hhid]
      exact hmem s.eng.clusterMem (th / 512 * 0x400000)
    rw [show spaceOf 1 = .clu from rfl, State.spaceRead, State.eccRead_of_good hecc]
    exact congrArg (fun l => (Except.ok l, s)) hseen

theorem State.spaceWrite_near {s : State} {th : Nat} {sp : BitVec 2} (hsp : IsNear th sp) (hun : Unhindered s th) (a : Nat) (l : List Byte) :
    s.spaceWrite th (spaceOf sp) a l = s.nearWrite th sp a l := by
  obtain ⟨hecc, hgate, -, -, -⟩ := hun
  rcases hsp with rfl | ⟨rfl, -⟩
  · rfl
  · have hmark : s.markGated th a l.length = s := by rw [State.markGated, Thread.open_, hgate]; rfl
    rw [show spaceOf 1 = .clu from rfl, State.spaceWrite, hmark, State.clusterWrite, State.eccWipe_of_good hecc]
    rfl

theorem State.thread_nearWrite (s : State) (th : Nat) (sp : BitVec 2) (a : Nat) (l : List Byte) (x : Nat) :
    (s.nearWrite th sp a l).thread x = s.thread x := by
  rw [State.nearWrite]; split <;> rfl

theorem State.current_nearWrite (s : State) (th : Nat) (sp : BitVec 2) (a : Nat) (l : List Byte) (x : Nat) :
    (s.nearWrite th sp a l).current x = s.current x := by
  rw [State.nearWrite]; split <;> rfl

/-- A byte of a memory after a big-endian number was written to it. -/
theorem Tbl.get_writeBytes_beBytes (t : Tbl Byte) (b n v k : Nat) : Tbl.get (fun _ => (0 : Byte)) (Tbl.writeBytes t b (beBytes n v)) k
    = if b ≤ k ∧ k < b + n then BitVec.ofNat 8 (v / 256 ^ (b + n - 1 - k)) else Tbl.get (fun _ => 0) t k := by
  rw [Tbl.get_writeBytes, length_beBytes]
  split
  case isTrue h => rw [getD_beBytes _ _ _ (by omega), show n - 1 - (k - b) = b + n - 1 - k by omega]
  · rfl

theorem storesNear_nearWrite (s : State) {th : Nat} {sp : BitVec 2} (hsp : IsNear th sp) (a n v : Nat) (t : Thread) :
    StoresNear s th sp a n v ((s.nearWrite th sp a (beBytes n v)).setThread th t) := by
  have hframe : ∀ x, x ≠ th → ((s.nearWrite th sp a (beBytes n v)).setThread th t).thread x = s.thread x := fun x hx => by
    rw [State.thread_setThread_ne _ _ (Ne.symm hx), State.thread_nearWrite]
  rcases hsp with rfl | ⟨rfl, -⟩
  · refine ⟨rfl, hframe, fun k => ?_, fun k => ?_⟩
    · simp only [true_and]
      exact Tbl.get_writeBytes_beBytes s.eng.localMem _ _ _ _
    · rw [if_neg (by simp)]; rfl
  · refine ⟨rfl, hframe, fun k => ?_, fun k => ?_⟩
    · rw [if_neg (by simp)]; rfl
    · simp only [true_and]
      exact Tbl.get_writeBytes_beBytes s.eng.clusterMem _ _ _ _

/-- Bytes that stand already: as if they had been written. -/
theorem storesNear_of_same (s : State) {th : Nat} {sp : BitVec 2} (hsp : IsNear th sp) (a n v : Nat) (t : Thread)
    (h : s.nearBytes th sp a n = beBytes n v) : StoresNear s th sp a n v (s.setThread th t) := by
  have hbyte : ∀ i < n, s.nearByte th sp (a + i) = BitVec.ofNat 8 (v / 256 ^ (n - 1 - i)) := fun i hi => by
    rw [← getD_beBytes _ _ _ hi, ← h, State.nearBytes, List.getD_eq_getElem?_getD, List.getElem?_map, List.getElem?_range hi]
    rfl
  have hmem : ∀ (m : Tbl Byte) (b : Nat), (∀ i < n, Tbl.get (fun _ => (0 : Byte)) m (b + (a + i)) = BitVec.ofNat 8 (v / 256 ^ (n - 1 - i))) →
      ∀ k, Tbl.get (fun _ => (0 : Byte)) m k = if b + a ≤ k ∧ k < b + a + n then BitVec.ofNat 8 (v / 256 ^ (b + a + n - 1 - k))
        else Tbl.get (fun _ => 0) m k := fun m b hb k => by
    split
    case isTrue hk =>
      obtain ⟨hlo, hhi⟩ := hk
      obtain ⟨i, rfl⟩ := Nat.exists_eq_add_of_le hlo
      rw [Nat.add_assoc b a i, hb i (by omega), show b + a + n - 1 - (b + (a + i)) = n - 1 - i by omega]
    · rfl
  have hframe : ∀ x, x ≠ th → (s.setThread th t).thread x = s.thread x := fun x hx => State.thread_setThread_ne _ _ (Ne.symm hx)
  rcases hsp with rfl | ⟨rfl, -⟩
  · refine ⟨rfl, hframe, fun k => ?_, fun k => ?_⟩
    · simp only [true_and]
      exact hmem s.eng.localMem (th / 8 * 0x8000) hbyte k
    · rw [if_neg (by simp)]; rfl
  · refine ⟨rfl, hframe, fun k => ?_, fun k => ?_⟩
    · rw [if_neg (by simp)]; rfl
    · simp only [true_and]
      exact hmem s.eng.clusterMem (th / 512 * 0x400000) hbyte k

end Sys2Proof.Machine
end

section
namespace Sys2Proof.Machine

/-! ## Loads, stores and atomics that are done at once (R115, R117, R118) -/

/-- The answer of a general-register result reaches a thread that runs, and nothing else was on its way to it. -/
theorem State.deliver_word {s : State} {th : Nat} (hready : (s.thread th).run = .ready) (hcur : s.current th = true)
    (hlook : (s.thread th).look = none) (a : LookAnswer) (hblk : a.blk = none) :
    s.deliver th a = s.result th a.rd a.taint a.value := by
  have hput := (s.thread th).put_eq a.rd a.taint a.value
  have hsame : { ((s.thread th).put a.rd a.taint a.value).advance with look := none } = ((s.thread th).put a.rd a.taint a.value).advance := by
    rw [hput]
    simp only [Thread.advance, hlook]
  rw [State.deliver, hblk, State.result, State.retire]
  dsimp only
  rw [hsame]
  exact s.makeReady_of_ready th (by rw [hput]; exact hready) hcur

/-- The answer of a block-register result, likewise. -/
theorem State.deliver_block {s : State} {th : Nat} (hready : (s.thread th).run = .ready) (hcur : s.current th = true)
    (hlook : (s.thread th).look = none) (a : LookAnswer) (hrd : a.rd = 0) (bd : BitVec 3) (v : Block) (hblk : a.blk = some (bd, v)) :
    s.deliver th a = s.retire th (fun t => t.setBr bd v) := by
  have hput : (s.thread th).put a.rd a.taint a.value = s.thread th := by rw [hrd]; rfl
  have hsame : { ((s.thread th).setBr bd v).advance with look := none } = ((s.thread th).setBr bd v).advance := by
    simp only [Thread.advance, Thread.setBr, hlook]
  rw [State.deliver, hblk, hput, State.retire]
  dsimp only
  rw [hsame]
  exact s.makeReady_of_ready th hready hcur

/-- A load from local or cluster memory delivers the bytes. -/
theorem State.loadOp_near {s : State} {th : Nat} {sp : BitVec 2} {rs1 : BitVec 5} {off : BitVec 14} {n : Nat} (hsp : IsNear th sp)
    (hun : Unhindered s th) (hn : IsSize n) (ha : ((s.thread th).gr rs1 + sext off).toNat < nearSize sp)
    (halign : ((s.thread th).gr rs1 + sext off).toNat % n = 0) (fin : List Byte → LookAnswer) :
    s.loadOp th sp rs1 off n fin = s.deliver th (fin (s.nearBytes th sp ((s.thread th).gr rs1 + sext off).toNat n)) := by
  have hgate : (s.thread th).gated = false := hun.2.1
  have hk := spaceOf_near hsp
  have hdev : ¬ spaceOf sp = .dev := by rcases hk with hk | hk <;> rw [hk] <;> decide
  rw [State.loadOp, Thread.spaceAddr_near _ hsp, State.accessFault_near false hsp hn hgate ha halign]
  dsimp only
  rw [if_neg (fun h => hdev h.1), State.spaceRead_near hsp hun]
  dsimp only
  rw [if_pos hk]

theorem completes_loadWord {i : Instr} {s : State} {th : Nat} {sp : BitVec 2} {rt rs1 : BitVec 5} {off : BitVec 14} {n : Nat}
    (hi : exec i s = done (s.loadWord th sp rt rs1 off n)) (hrun : Runs s th) (hun : Unhindered s th) (hsp : IsNear th sp) (hn : IsSize n)
    (ha : ((s.thread th).gr rs1 + sext off).toNat < nearSize sp) (halign : ((s.thread th).gr rs1 + sext off).toNat % n = 0) :
    Completes i s (GivesReg s th rt (BitVec.ofNat 32 (beNat (s.nearBytes th sp ((s.thread th).gr rs1 + sext off).toNat n)))) := by
  obtain ⟨-, -, -, hlook, -⟩ := id hun
  refine .of_eq (hi.trans (congrArg done (s.issue_runs th _ hrun))) ?_
  rw [State.loadOp_near hsp hun hn ha halign, State.deliver_word hrun.ready hrun.current hlook _ rfl]
  exact s.result_gives th rt _ _

theorem completes_ldq {s : State} {th : Nat} {sp : BitVec 2} {rs1 : BitVec 5} {bt : BitVec 3} {off : BitVec 14}
    (hrun : Runs s th) (hun : Unhindered s th) (hsp : IsNear th sp)
    (ha : ((s.thread th).gr rs1 + sext off).toNat < nearSize sp) (halign : ((s.thread th).gr rs1 + sext off).toNat % 16 = 0) :
    Completes (.ldq th sp bt rs1 off) s
      (GivesBlock s th bt (BitVec.ofNat 128 (beNat (s.nearBytes th sp ((s.thread th).gr rs1 + sext off).toNat 16)))) := by
  obtain ⟨-, -, -, hlook, hbusy⟩ := id hun
  refine .of_eq (congrArg done (s.issue_runs th _ hrun)) ?_
  rw [if_neg (by simp [Thread.busy, hbusy]), State.loadOp_near hsp hun (by decide) ha halign,
    State.deliver_block hrun.ready hrun.current hlook _ rfl bt _ rfl]
  exact s.retire_gives_block th bt _

/-- A store to local or cluster memory writes its bytes and the thread goes on. -/
theorem completes_store {i : Instr} {s : State} {th : Nat} {sp : BitVec 2} {rs1 : BitVec 5} {off : BitVec 14} {n v : Nat}
    (hi : exec i s = done (s.storeOp th sp rs1 off (beBytes n v))) (hun : Unhindered s th)
    (hsp : IsNear th sp) (hn : IsSize n) (ha : ((s.thread th).gr rs1 + sext off).toNat < nearSize sp)
    (halign : ((s.thread th).gr rs1 + sext off).toNat % n = 0) :
    Completes i s (fun t => StoresNear s th sp ((s.thread th).gr rs1 + sext off).toNat n v t ∧ t.thread th = (s.thread th).advance) := by
  have hgate : (s.thread th).gated = false := hun.2.1
  have hk := spaceOf_near hsp
  have hposted : ¬ (spaceOf sp = .shr ∨ spaceOf sp = .dev) := by rcases hk with hk | hk <;> rw [hk] <;> decide
  have haccept : s.storeRejected th (spaceOf sp) ((s.thread th).gr rs1 + sext off).toNat (beBytes n v) = none := by
    rw [State.storeRejected, if_neg (fun h => hposted (.inr h.1))]
  have hstore : s.storeOp th sp rs1 off (beBytes n v)
      = (s.nearWrite th sp ((s.thread th).gr rs1 + sext off).toNat (beBytes n v)).setThread th (s.thread th).advance := by
    rw [State.storeOp, length_beBytes, Thread.spaceAddr_near _ hsp, State.accessFault_near true hsp hn hgate ha halign]
    dsimp only
    rw [if_neg (fun h => hposted h.1), haccept]
    dsimp only
    rw [State.spaceWrite_near hsp hun, State.retire, State.thread_nearWrite]
    rfl
  refine .of_eq (hi.trans (congrArg done hstore)) ?_
  exact ⟨storesNear_nearWrite s hsp _ n v _, State.thread_setThread _ _ _⟩

/-- The word of an atomic, as a number. -/
theorem beNat_nearBytes_lt (s : State) (th : Nat) (sp : BitVec 2) (a n : Nat) : beNat (s.nearBytes th sp a n) < 256 ^ n := by
  have h := beNat_lt (s.nearBytes th sp a n)
  rwa [State.length_nearBytes] at h

theorem State.atomicPut_near {s : State} {th : Nat} {sp : BitVec 2} (hsp : IsNear th sp) (hun : Unhindered s th) (a : Nat) (w : Word) :
    s.atomicPut th (spaceOf sp) a (some w) = s.nearWrite th sp a (beBytes 4 w.toNat) := by
  rw [← State.spaceWrite_near hsp hun]
  rcases hsp with rfl | ⟨rfl, -⟩ <;> rfl

theorem State.atomicPut_none {s : State} {th : Nat} {sp : BitVec 2} (hsp : IsNear th sp) (a : Nat) :
    s.atomicPut th (spaceOf sp) a none = s := by
  rcases hsp with rfl | ⟨rfl, -⟩ <;> rfl

/-- An atomic on local or cluster memory gives the old word, in the state that its write leaves. -/
theorem State.atomic_near {s : State} {th : Nat} {sp : BitVec 2} {rd rs1 rs2 : BitVec 5} {reads : Bool}
    {op : Word → Word → Word → Option Word} (hrun : Runs s th)
    (hun : Unhindered s th) (hsp : IsNear th sp) (ha : ((s.thread th).gr rs1).toNat < nearSize sp)
    (halign : ((s.thread th).gr rs1).toNat % 4 = 0) {old : Nat} (hold : beNat (s.nearBytes th sp ((s.thread th).gr rs1).toNat 4) = old) {u : State}
    (hu : s.atomicPut th (spaceOf sp) ((s.thread th).gr rs1).toNat
      (op (BitVec.ofNat 32 old) ((s.thread th).gr rs2) ((s.thread th).gr rd)) = u)
    (hthread : u.thread th = s.thread th) (hcur : u.current th = s.current th) :
    ∃ src, s.atomic th sp rd rs1 rs2 reads op = u.result th rd src (BitVec.ofNat 32 old) := by
  obtain ⟨-, hgate, -, hlook, -⟩ := id hun
  have hk := spaceOf_near hsp
  have hshr : ¬ spaceOf sp = .shr := by rcases hk with hk | hk <;> rw [hk] <;> decide
  have hlegal : (sp != 3) = true := by rcases hsp with rfl | ⟨rfl, -⟩ <;> rfl
  refine ⟨(s.thread th).tainted rs1 || (s.thread th).tainted rs2 || (reads && (s.thread th).tainted rd), ?_⟩
  rw [State.atomic, hlegal, s.issue_runs th _ hrun]
  dsimp only
  rw [Thread.spaceAddr_near _ hsp, State.accessFault_near true hsp (by decide) hgate ha halign]
  dsimp only
  rw [if_neg hshr, State.spaceRead_near hsp hun]
  dsimp only
  rw [if_neg hshr, bytesWord, hold, hu]
  refine State.deliver_word ?_ ?_ ?_ _ rfl
  · rw [hthread]; exact hrun.ready
  · rw [hcur]; exact hrun.current
  · rw [hthread]; exact hlook

/-- An atomic on local or cluster memory: the new word stands there, and g[rd] is the old one. -/
theorem completes_atomic {i : Instr} {s : State} {th : Nat} {sp : BitVec 2} {rd rs1 rs2 : BitVec 5} {reads : Bool}
    {op : Word → Word → Word → Option Word} (hrun : Runs s th) (hun : Unhindered s th) (hsp : IsNear th sp)
    (ha : ((s.thread th).gr rs1).toNat < nearSize sp) (halign : ((s.thread th).gr rs1).toNat % 4 = 0) {old new : Nat}
    (hold : beNat (s.nearBytes th sp ((s.thread th).gr rs1).toNat 4) = old) (hi : exec i s = done (s.atomic th sp rd rs1 rs2 reads op))
    (hop : (∃ w, op (BitVec.ofNat 32 old) ((s.thread th).gr rs2) ((s.thread th).gr rd) = some w ∧ w.toNat = new)
      ∨ op (BitVec.ofNat 32 old) ((s.thread th).gr rs2) ((s.thread th).gr rd) = none ∧ old = new) :
    Completes i s (fun t => StoresNear s th sp ((s.thread th).gr rs1).toNat 4 new t ∧ StepsOver (s.thread th) (t.thread th)
      ∧ KeepsButRegs (s.thread th) (t.thread th) ∧ RegsBut (s.thread th) (t.thread th) rd (BitVec.ofNat 32 old)) := by
  obtain ⟨u, hu⟩ : ∃ u, s.atomicPut th (spaceOf sp) ((s.thread th).gr rs1).toNat
      (op (BitVec.ofNat 32 old) ((s.thread th).gr rs2) ((s.thread th).gr rd)) = u := ⟨_, rfl⟩
  have hleft : u.thread th = s.thread th ∧ u.current th = s.current th
      ∧ ∀ t, StoresNear s th sp ((s.thread th).gr rs1).toNat 4 new (u.setThread th t) := by
    rcases hop with ⟨w, hw, rfl⟩ | ⟨hnone, rfl⟩
    · rw [← hu, hw, State.atomicPut_near hsp hun]
      exact ⟨s.thread_nearWrite _ _ _ _ _, s.current_nearWrite _ _ _ _ _, storesNear_nearWrite s hsp _ 4 _⟩
    · rw [← hu, hnone, State.atomicPut_none hsp]
      refine ⟨rfl, rfl, fun t => storesNear_of_same s hsp _ 4 _ t ?_⟩
      rw [← hold]
      have h := beBytes_beNat (s.nearBytes th sp ((s.thread th).gr rs1).toNat 4)
      rw [State.length_nearBytes] at h
      exact h.symm
  obtain ⟨hthread, hcur, hstores⟩ := hleft
  obtain ⟨src, hatomic⟩ := State.atomic_near (reads := reads) hrun hun hsp ha halign hold hu hthread hcur
  obtain ⟨-, hsteps, hkeeps, hregs⟩ := u.result_gives th rd src (BitVec.ofNat 32 old)
  rw [hthread] at hsteps hkeeps hregs
  exact .of_eq (hi.trans (congrArg done hatomic)) ⟨hstores _, hsteps, hkeeps, hregs⟩

/-- Settles O16: each instruction is one of `completes_loadWord`, `completes_ldq`, `completes_store` and `completes_atomic`. -/
theorem localAndClusterMemory : Obligations.LocalAndClusterMemory := by
  unfold Obligations.LocalAndClusterMemory
  refine ⟨?_, ?_, ?_⟩
  · intro th sp rt rs1 bt off s hrun hun hsp
    rw [← Word.add_sext]
    exact ⟨fun ha => completes_loadWord (n := 1) rfl hrun hun hsp (by decide) ha (Nat.mod_one _),
      fun ha hal => completes_loadWord (n := 2) rfl hrun hun hsp (by decide) ha hal,
      fun ha hal => completes_loadWord (n := 4) rfl hrun hun hsp (by decide) ha hal,
      fun ha hal => completes_ldq hrun hun hsp ha hal⟩
  · intro th sp rt rs1 bt off s hrun hun hsp
    rw [← Word.add_sext]
    have hfree : (s.thread th).busy (blkBit bt) = false := by
      obtain ⟨-, -, -, -, hbusy⟩ := hun
      simp [Thread.busy, hbusy]
    have hissue : ∀ {f : State → State}, done (s.issue th true f) = done (f s) := congrArg done (s.issue_runs th _ hrun)
    exact ⟨fun ha => completes_store hissue hun hsp (by decide) ha (Nat.mod_one _),
      fun ha hal => completes_store hissue hun hsp (by decide) ha hal,
      fun ha hal => completes_store hissue hun hsp (by decide) ha hal,
      fun ha hal => completes_store (hissue.trans (congrArg done (if_neg (by simp [hfree])))) hun hsp (by decide) ha hal⟩
  · intro th sp rd rs1 rs2 s hrun hun hsp a b d old does ha hal
    have hlt : old < 2 ^ 32 := beNat_nearBytes_lt s th sp a 4
    have hnat : (BitVec.ofNat 32 old).toNat = old := Nat.mod_eq_of_lt hlt
    have hdoes : ∀ {i : Instr} {reads : Bool} {op : Word → Word → Word → Option Word} {new : Nat}, exec i s = done (s.atomic th sp rd rs1 rs2 reads op) →
        ((∃ w, op (BitVec.ofNat 32 old) ((s.thread th).gr rs2) ((s.thread th).gr rd) = some w ∧ w.toNat = new)
          ∨ op (BitVec.ofNat 32 old) ((s.thread th).gr rs2) ((s.thread th).gr rd) = none ∧ old = new) → does i new := fun hi hop =>
      completes_atomic hrun hun hsp ha hal rfl hi hop
    refine ⟨hdoes rfl (.inl ⟨_, rfl, ?_⟩), hdoes rfl (.inl ⟨_, rfl, ?_⟩), hdoes rfl (.inl ⟨_, rfl, ?_⟩), hdoes rfl (.inl ⟨_, rfl, ?_⟩),
      hdoes rfl (.inl ⟨_, rfl, rfl⟩), hdoes rfl ?_, hdoes rfl (.inl ⟨_, rfl, ?_⟩), hdoes rfl (.inl ⟨_, rfl, ?_⟩)⟩
    · rw [BitVec.toNat_add, hnat]
    · rw [BitVec.toNat_and, hnat]
    · rw [BitVec.toNat_or, hnat]
    · rw [BitVec.toNat_xor, hnat]
    · by_cases hod : old = d
      · rw [if_pos hod]
        refine .inl ⟨_, if_pos ?_, rfl⟩
        exact BitVec.eq_of_toNat_eq (hnat.trans hod)
      · rw [if_neg hod]
        refine .inr ⟨if_neg fun h => hod ?_, rfl⟩
        rw [← hnat, h]
    · simp only [BitVec.ult, hnat]
      split <;> simp_all <;> omega
    · simp only [BitVec.ult, hnat]
      split <;> simp_all <;> omega

end Sys2Proof.Machine
end

section
namespace Sys2Proof.Machine

/-! ## Payload streaming (R127, R128) -/

theorem fieldOf_halves (x : Word) : fieldOf x 15 0 = x.toNat % 65536 ∧ fieldOf x 31 16 = x.toNat / 65536
    ∧ fieldOf x 31 24 = x.toNat / 2 ^ 24 ∧ (x.toNat / 2 ^ 24 = 0 → fieldOf x 23 16 = x.toNat / 65536) := by
  have hx : x.toNat < 2 ^ 32 := x.isLt
  simp only [fieldOf, bits_eq]
  refine ⟨by simp, ?_, ?_, fun h => ?_⟩ <;> norm_num <;> omega

theorem fitBytes_of_length {l : List Byte} {n : Nat} (h : l.length = n) : fitBytes n l = l := by
  rw [fitBytes, ← h, Nat.sub_self, List.replicate_zero, List.append_nil, List.take_length]

theorem length_patchBytes {l p : List Byte} {off : Nat} (h : off + p.length ≤ l.length) : (patchBytes l off p).length = l.length := by
  simp only [patchBytes, List.length_append, List.length_take, List.length_drop]
  omega

theorem getD_patchBytes {l p : List Byte} {off : Nat} (h : off + p.length ≤ l.length) (k : Nat) :
    (patchBytes l off p).getD k 0 = if off ≤ k ∧ k < off + p.length then p.getD (k - off) 0 else l.getD k 0 := by
  have htake : (l.take off).length = off := by rw [List.length_take]; omega
  have hhead : (l.take off ++ p).length = off + p.length := by rw [List.length_append, htake]
  simp only [patchBytes, List.getD_eq_getElem?_getD]
  by_cases hlo : k < off
  · rw [List.getElem?_append_left (by omega), List.getElem?_append_left (by omega), if_neg (by omega), List.getElem?_take, if_pos hlo]
  · by_cases hhi : k < off + p.length
    · rw [List.getElem?_append_left (by omega), List.getElem?_append_right (by omega), if_pos ⟨by omega, hhi⟩, htake]
    · rw [List.getElem?_append_right (by omega), if_neg (by omega), hhead, List.getElem?_drop,
        show off + p.length + (k - (off + p.length)) = k by omega]

/-- A held handle with room for n bytes passes the checks of the payload instructions. -/
theorem State.handle_has_room {s : State} {t : Thread} {h : Word} {f : FrameRec} {n : Nat} (hholds : t.handles.contains h = true)
    (hf : s.handleFrame h = some f) (hroom : n ≤ f.cells * 256) : ¬ (t.holds h = false ∨ s.handleBytes h < n) := by
  rw [Thread.holds, hholds, State.handleBytes, hf]
  rintro (hfalse | hlt)
  · cases hfalse
  · exact absurd hroom (Nat.not_le.mpr hlt)

theorem State.frame_setFrame (s : State) (first : Nat) (g : Option FrameRec) : (s.setFrame first g).frame first = g :=
  Tbl.get_set_same _ _ _ _

/-- The frame of a handle after it was replaced by one with the same TAG (R255). -/
theorem State.handleFrame_setFrame {s : State} {h : Word} {f : FrameRec} (hf : s.handleFrame h = some f) (g : FrameRec) (htag : g.tag = f.tag) :
    (s.setFrame (handleFirst h) (some g)).handleFrame h = some g := by
  rw [State.handleFrame] at hf ⊢
  by_cases hkind : fieldOf h 31 28 = 1
  · rw [if_pos hkind] at hf ⊢
    rw [State.frame_setFrame]
    cases hframe : s.frame (handleFirst h) with
    | none => rw [hframe] at hf; cases hf
    | some x =>
      rw [hframe] at hf
      dsimp only at hf ⊢
      by_cases hx : x.tag.toNat = fieldOf h 27 20
      · rw [if_pos hx] at hf
        cases hf
        rw [if_pos (by rw [htag]; exact hx)]
      · rw [if_neg hx] at hf; cases hf
  · rw [if_neg hkind] at hf; cases hf

theorem State.handleFrame_congr {s t : State} (h : t.cfl = s.cfl) (x : Word) : t.handleFrame x = s.handleFrame x := by
  simp only [State.handleFrame, State.frame, h]

theorem State.cfl_cellWipe (s : State) (f : FrameRec) (off n : Nat) : (s.cellWipe f off n).cfl = s.cfl := by
  have hfold : ∀ (l : List (Nat × Nat × Nat)) (s : State), (l.foldl (fun s p => s.eccWipe cellGroups p.2.1 p.2.2) s).cfl = s.cfl := by
    intro l
    induction l with
    | nil => exact fun _ => rfl
    | cons p l ih => exact fun s => (ih _).trans rfl
  exact hfold _ s

theorem State.cfl_makeReady (s : State) (th : Nat) : (s.makeReady th).cfl = s.cfl := by
  unfold State.makeReady; dsimp only; split <;> rfl

/-- The oldest posted payload write leaves the write FIFO, and stands in the cells of its handle (R127). -/
theorem State.payWrite_spec {s : State} {th : Nat} {w : PayWrite} {rest : List PayWrite} {f : FrameRec}
    (hfifo : (s.thread th).wfifo = w :: rest) (hframe : s.handleFrame w.handle = some f) :
    (s.payWrite th).thread th = { s.thread th with wfifo := rest }
      ∧ (s.payWrite th).handleFrame w.handle = some (payPut (s.thread th).failed w f) := by
  have hwrite : s.payWrite th = ((s.setFrame (handleFirst w.handle) (some (payPut (s.thread th).failed w f))).cellWipe f w.off 16).setThread th
      { s.thread th with wfifo := rest } := by
    rw [State.payWrite]
    dsimp only
    rw [hfifo]
    dsimp only
    rw [hframe]
  rw [hwrite]
  refine ⟨State.thread_setThread _ _ _, ?_⟩
  refine Eq.trans (State.handleFrame_congr ?_ _) (State.handleFrame_setFrame hframe (payPut (s.thread th).failed w f) rfl)
  exact State.cfl_cellWipe _ f w.off 16

theorem completes_payloadWriteDone {s : State} {th : Nat} {w : PayWrite} {rest : List PayWrite} {f : FrameRec}
    (hfifo : (s.thread th).wfifo = w :: rest) (hframe : s.handleFrame w.handle = some f) :
    Completes (.payloadWriteDone th) s (fun u => (u.thread th).wfifo = rest
      ∧ u.handleFrame w.handle = some (payPut (s.thread th).failed w f)) := by
  obtain ⟨hthread, hput⟩ := State.payWrite_spec hfifo hframe
  have hexec : exec (.payloadWriteDone th) s
      = done (if ((s.payWrite th).thread th).waitsWrites then (s.payWrite th).makeReady th else s.payWrite th) := by
    change execPayloadWriteDone th s = _
    rw [execPayloadWriteDone, if_neg (by rw [hfifo]; simp)]
  refine .of_eq hexec ?_
  split
  · refine ⟨?_, (State.handleFrame_congr (State.cfl_makeReady _ _) _).trans hput⟩
    rw [State.thread_makeReady_eq, if_pos rfl, hthread]; rfl
  · exact ⟨by rw [hthread], hput⟩

/-- The next block of a stream enters the read FIFO, and a thread that waits for it goes on (R127). -/
theorem completes_payloadBlockArrive {s : State} {th : Nat} {x : Stream} {f : FrameRec} (hstream : (s.thread th).stream = some x)
    (hleft : x.left ≠ 0) (hfifo : (s.thread th).fifo = []) (hup : s.reachable (thChip th) = true) (hecc : s.plat.ecc = [])
    (hframe : s.handleFrame x.handle = some f) (hin : x.off + 16 ≤ f.bytes.length) :
    Completes (.payloadBlockArrive th) s (fun u => ∃ r, u.thread th = { s.thread th with
        run := r, fifo := [some (BitVec.ofNat 128 (beNat ((f.bytes.drop x.off).take 16)))]
        stream := some { x with off := x.off + 16, left := x.left - 1 } }
      ∧ ((s.thread th).run = .stalled .payload → r = .ready)) := by
  have hlen : ((f.bytes.drop x.off).take 16).length = 16 := by rw [List.length_take, List.length_drop]; omega
  have hgood : s.cellEcc f x.off 16 = [] := by
    rw [State.cellEcc]
    refine List.flatMap_eq_nil_iff.mpr fun p _ => ?_
    rw [State.eccIn, hecc]; rfl
  have hread : s.payRead x.handle x.off = (some (BitVec.ofNat 128 (beNat ((f.bytes.drop x.off).take 16))), s) := by
    rw [State.payRead, hframe]
    dsimp only
    rw [hgood, fitBytes_of_length hlen]
    rfl
  obtain ⟨t, ht⟩ : ∃ t, t = { s.thread th with fifo := [some (BitVec.ofNat 128 (beNat ((f.bytes.drop x.off).take 16)))]
                                               stream := some { x with off := x.off + 16, left := x.left - 1 } } := ⟨_, rfl⟩
  have hexec : exec (.payloadBlockArrive th) s
      = done (if (s.thread th).run = .stalled .payload then (s.setThread th t).makeReady th else s.setThread th t) := by
    change execPayloadBlockArrive th s = _
    rw [execPayloadBlockArrive]
    dsimp only
    rw [hstream]
    dsimp only
    rw [if_neg (by simp [hleft, hfifo, hup]), hread, hfifo, ht]
    rfl
  refine .of_eq hexec ?_
  split
  · refine ⟨.ready, ?_, fun _ => rfl⟩
    rw [State.thread_makeReady_eq, if_pos rfl, State.thread_setThread, ht]; rfl
  case isFalse hrun =>
    refine ⟨(s.thread th).run, ?_, fun h => absurd h hrun⟩
    rw [State.thread_setThread, ht]

/-- Settles O20: each instruction has one way through its checks, and the two events their lemmas. -/
theorem payloadStreaming : Obligations.PayloadStreaming := by
  unfold Obligations.PayloadStreaming
  intro th bd ba rd rs1 h f s t off
  obtain ⟨hoff, hhigh, htop, hcount⟩ := fieldOf_halves (t.gr rd)
  have honly : ∀ {v : Thread}, OnlyThread th s (s.setThread th v) ∧ (s.setThread th v).thread th = v := fun {v} =>
    ⟨onlyThread_setThread s th v, State.thread_setThread _ _ _⟩
  refine ⟨fun hrun hb hfifo hh hholds hframe hzero hcnt halign hroom => ?_, fun x hx hleft hfifo hup hecc hframe hin => ?_,
    fun b rest hrun hb hfree hfifo => ?_, fun hrun hb hfree hh hholds hframe hzero halign hroom hlen => ?_,
    fun w rest hfifo hgated hframe hlen hin => ?_, fun hrun hb hfifo => ?_⟩
  · refine .of_eq (congrArg done (s.issue_board th _ hrun hb)) ?_
    dsimp only
    rw [htop, hcount hzero, hoff, if_neg (by omega), if_neg (by omega),
      hh, if_neg (State.handle_has_room hholds hframe hroom), State.payDrain_of_empty hfifo]
    exact honly
  · obtain ⟨u, hu, r, hthread, hready⟩ := completes_payloadBlockArrive hx hleft hfifo hup hecc hframe hin
    refine ⟨u, hu, ?_⟩
    dsimp only
    rw [hthread]
    exact ⟨rfl, rfl, hready⟩
  · refine .of_eq (congrArg done (s.blockIssue_board th _ _ hrun hb hfree)) ?_
    dsimp only
    rw [hfifo]
    dsimp only
    obtain ⟨hframe, hthread⟩ := honly (v := ({ t.setBr bd b with fifo := rest } : Thread).advance)
    refine ⟨hframe, ?_⟩
    rw [show s.retire th (fun t => { t.setBr bd b with fifo := rest }) = s.setThread th ({ t.setBr bd b with fifo := rest } : Thread).advance
      from rfl, hthread]
    exact ⟨rfl, rfl, fun n => t.br_setBr bd n b⟩
  · refine .of_eq (congrArg done (s.blockIssue_board th _ _ hrun hb hfree)) ?_
    dsimp only
    rw [hhigh, hoff, if_neg (by omega), if_neg (by omega),
      hh, if_neg (State.handle_has_room hholds hframe hroom), if_neg (Nat.not_le.mpr hlen)]
    exact honly
  · obtain ⟨u, hu, hrest, hput⟩ := completes_payloadWriteDone hfifo hframe
    have hblock : (beBytes 16 w.block.toNat).length = 16 := length_beBytes _ _
    have hfit : w.off + (beBytes 16 w.block.toNat).length ≤ f.bytes.length := by omega
    have hbytes : (payPut t.failed w f).bytes = patchBytes f.bytes w.off (beBytes 16 w.block.toNat) := by
      simp only [payPut, hgated, Bool.false_and, fitBytes_of_length hlen]
      rfl
    refine ⟨u, hu, hrest, _, hput, ?_, fun k => ?_⟩
    · rw [hbytes, length_patchBytes hfit]
    · rw [hbytes, getD_patchBytes hfit, hblock]
  · refine .of_eq (congrArg done (s.issue_board th _ hrun hb)) ?_
    rw [if_pos (by rw [hfifo]; rfl)]
    rfl

end Sys2Proof.Machine
end

section
namespace Sys2Proof.Machine

/-! ## Shared-state memory: lines move, bytes stay (R167 to R173) -/

theorem State.keeps_acquireShared (s : State) (b n : Nat) : CohKeeps s (s.acquireShared b n) := by
  obtain ⟨u, hu⟩ : ∃ u, u = if s.lineSt b n == .i then s.homeSettle n else s := ⟨_, rfl⟩
  have hsettle : CohKeeps s u := by
    rw [hu]
    split
    · exact s.keeps_homeSettle n
    · exact .rfl' s
  simp only [State.acquireShared, ← hu]
  refine hsettle.trans ?_
  split
  · exact u.keeps_payDue b n false
  · have hroom := ((u.fetchForRead_keeps n).1.trans ((u.fetchForRead n).keeps_sscRoom b)).trans (State.keeps_setLine _ b n .s)
    generalize ((u.fetchForRead n).sscRoom b).setLine b n .s = w at hroom ⊢
    split <;> exact hroom.trans (w.keeps_setDir _ _)

theorem State.keeps_acquireForLoad (s : State) (th off n : Nat) : CohKeeps s (s.acquireForLoad th off n) := by
  rw [State.acquireForLoad]
  split
  · exact CohKeeps.foldl (fun u l => (u.fetchForRead_keeps l).1) _ s
  · exact CohKeeps.foldl (fun u l => u.keeps_acquireShared _ l) _ s

theorem State.eng_hbmPut (s : State) (off : Nat) (l : List Byte) : (s.hbmPut off l).eng = s.eng := by
  rw [State.hbmPut]
  refine (State.eng_foldl (fun u n => ?_) _ _).trans rfl
  split <;> rfl

/-- A store to HBM through a Board's cache writes its bytes, and no thread (R167). -/
theorem State.hbmStore_spec (s : State) (b off : Nat) (l : List Byte) :
    (s.hbmStore b off l).hbm.mem = Tbl.writeBytes s.hbm.mem off l ∧ (s.hbmStore b off l).eng = s.eng := by
  have h : CohKeeps (s.hbmPut off l) (s.hbmStore b off l) := CohKeeps.foldl (fun u n => u.keeps_acquireOwned b n true) _ _
  obtain ⟨-, hmem, -, heng, -⟩ := h
  exact ⟨hmem.trans (s.mem_hbmPut off l), heng.trans (s.eng_hbmPut off l)⟩

theorem State.eng_hbmWrite (s : State) (off : Nat) (l : List Byte) : (s.hbmWrite off l).eng = s.eng := by
  rw [State.hbmWrite]
  split
  · rfl
  · refine (State.eng_foldl (fun u n => ?_) _ _).trans (s.eng_hbmPut off l)
    exact ((u.homeSettle n).keeps_dropCopies n).2.2.2.1.trans (u.keeps_homeSettle n).2.2.2.1

/-- A posted store of shared-state memory that takes effect (R104). -/
theorem State.sharedPut_spec (s : State) (th : Nat) (p : Posted) :
    (s.sharedPut th p).hbm.mem = Tbl.writeBytes s.hbm.mem (p.addr - hbmBase) p.bytes ∧ (s.sharedPut th p).eng = s.eng := by
  rw [State.sharedPut]
  split
  · exact ⟨s.mem_hbmWrite _ _, s.eng_hbmWrite _ _⟩
  · exact s.hbmStore_spec _ _ _

/-! ## Waiting for a unit (R104, R106, R116) -/

/-- A thread that waits for an answer: its record, and that no other thread changes. -/
theorem State.thread_awaitAnswer (s : State) (th x : Nat) (w : Wait) (a : LookAnswer) : (s.awaitAnswer th w a).thread x
    = if x = th then { s.thread th with look := some a, run := .stalled w, begun := true } else s.thread x := by
  rw [State.awaitAnswer, State.thread_stall, State.thread_setThread]
  split
  · rfl
  case isFalse h => exact State.thread_setThread_ne _ _ (Ne.symm h)

theorem State.hbm_stall (s : State) (th : Nat) (w : Wait) : (s.stall th w).hbm = s.hbm := by
  obtain ⟨c, h⟩ := s.stall_eq th w
  rw [h]; rfl

theorem State.hbm_awaitAnswer (s : State) (th : Nat) (w : Wait) (a : LookAnswer) : (s.awaitAnswer th w a).hbm = s.hbm := State.hbm_stall _ _ _

theorem State.hbmNat_eq (s : State) (off n : Nat) :
    s.hbmNat off n = beNat ((List.range n).map (fun k => Tbl.get (fun _ => (0 : Byte)) s.hbm.mem (off + k))) := by
  rw [State.hbmNat, State.hbmRead, Tbl.readBytes_eq_map]

theorem State.spaceRead_shr {s : State} {th a n : Nat} (hecc : s.plat.ecc = []) (hpoison : s.poisonedIn (a - hbmBase) n = false)
    (hposted : (s.thread th).posted = []) : ∃ u, s.spaceRead th .shr a n = (.ok (s.hbmRead (a - hbmBase) n), u) ∧ CohKeeps s u := by
  refine ⟨s.acquireForLoad th (a - hbmBase) n, ?_, s.keeps_acquireForLoad _ _ _⟩
  rw [State.spaceRead, State.eccRead_of_good hecc]
  dsimp only
  rw [hpoison, hposted]
  rfl

/-- The thread waits for the answer of a unit to the instruction at its pc. -/
def WaitsForUnit (s : State) (th : Nat) (rd : BitVec 5) (v : Word) (u : State) : Prop :=
  (u.thread th).run = .stalled .unit ∧ (∃ x, (u.thread th).look = some x ∧ x.rd = rd ∧ x.value = v) ∧ (u.thread th).pc = (s.thread th).pc

theorem waitsForUnit_awaitAnswer {s u : State} {th : Nat} (h : u.thread th = s.thread th) (a : LookAnswer) :
    WaitsForUnit s th a.rd a.value (u.awaitAnswer th .unit a) := by
  rw [WaitsForUnit, State.thread_awaitAnswer, if_pos rfl, h]
  exact ⟨rfl, ⟨a, rfl, rfl, rfl⟩, rfl⟩

/-- A load by its space and its address (R115). -/
theorem State.loadOp_eq (s : State) (th : Nat) {sp : BitVec 2} {rs1 : BitVec 5} {off : BitVec 14} (n : Nat) (fin : List Byte → LookAnswer)
    {k : MemSpace} {a : Nat} (hk : spaceOf sp = k) (ha : (s.thread th).spaceAddr k ((s.thread th).gr rs1 + sext off) = a) :
    s.loadOp th sp rs1 off n fin = match s.accessFault th k a n false with
      | some c => s.fault th c
      | none =>
        if k = .dev ∧ (s.thread th).deviceBehind a then s.stall th (.stores false)
        else match s.spaceRead th k a n with
          | (.error c, s) => s.fault th c
          | (.ok l, s) => if k = .loc ∨ k = .clu then s.deliver th (fin l)
            else s.awaitAnswer th .unit { fin l with chip := spaceChip th k a } := by
  subst hk ha; rfl

/-- A store by its space and its address (R115). -/
theorem State.storeOp_eq (s : State) (th : Nat) {sp : BitVec 2} {rs1 : BitVec 5} {off : BitVec 14} (l : List Byte)
    {k : MemSpace} {a : Nat} (hk : spaceOf sp = k) (ha : (s.thread th).spaceAddr k ((s.thread th).gr rs1 + sext off) = a) :
    s.storeOp th sp rs1 off l = match s.accessFault th k a l.length true with
      | some c => s.fault th c
      | none =>
        if (k = .shr ∨ k = .dev) ∧ 8 ≤ (s.thread th).posted.length then s.stall th (.stores true)
        else match s.storeRejected th k a l with
          | some s => s.fault th fcBus
          | none => (s.spaceWrite th k a l).retire th id := by
  subst hk ha; rfl

/-- A load from shared-state memory waits with the bytes it read (R116). -/
theorem completes_loadShared {i : Instr} {s : State} {th : Nat} {rt rs1 : BitVec 5} {off : BitVec 14} {n a : Nat} (hrun : Runs s th)
    (hecc : s.plat.ecc = []) (hposted : (s.thread th).posted = []) (ha : (s.thread th).spaceAddr .shr ((s.thread th).gr rs1 + sext off) = a)
    (hi : exec i s = done (s.loadWord th 2 rt rs1 off n)) (hfault : s.accessFault th .shr a n false = none)
    (hpoison : s.poisonedIn (a - hbmBase) n = false) :
    Completes i s (WaitsForUnit s th rt (BitVec.ofNat 32 (s.hbmNat (a - hbmBase) n))) := by
  obtain ⟨u, hread, -, -, -, heng, -⟩ := State.spaceRead_shr (th := th) hecc hpoison hposted
  refine .of_eq (hi.trans (congrArg done (s.issue_runs th _ hrun))) ?_
  rw [State.loadOp_eq s th n _ (show spaceOf 2 = .shr from rfl) ha, hfault]
  dsimp only
  rw [if_neg (fun h => by cases h.1), hread]
  dsimp only
  rw [if_neg (by decide), bytesWord, ← State.hbmNat]
  exact waitsForUnit_awaitAnswer (State.thread_congr (by rw [heng]) th) _

/-- A load from device space waits with the word its register gives (R26, R116). -/
theorem completes_loadDevice {s u : State} {th : Nat} {rt rs1 : BitVec 5} {off : BitVec 14} {a : Nat} {w : Word} (hrun : Runs s th)
    (hposted : (s.thread th).posted = []) (ha : (s.thread th).spaceAddr .dev ((s.thread th).gr rs1 + sext off) = a)
    (hfault : s.accessFault th .dev a 4 false = none) (hread : s.busRead (.thread th) a = (some w, u)) (hthread : u.thread th = s.thread th) :
    Completes (.ldw th 3 rt rs1 off) s (WaitsForUnit s th rt w) := by
  have hbehind : (s.thread th).deviceBehind a = false := by rw [Thread.deviceBehind, hposted]; rfl
  have hword : bytesWord (beBytes 4 w.toNat) = w := by
    rw [bytesWord, beNat_beBytes, Nat.mod_eq_of_lt (show w.toNat < 256 ^ 4 from w.isLt), Word.ofNat_toNat]
  refine .of_eq (congrArg done (s.issue_runs th _ hrun)) ?_
  rw [State.loadOp_eq s th 4 _ (show spaceOf 3 = .dev from rfl) ha, hfault]
  dsimp only
  rw [if_neg (by rw [hbehind]; simp), State.spaceRead, hread]
  dsimp only
  rw [if_neg (by decide), hword]
  exact waitsForUnit_awaitAnswer hthread _

/-! ## Posted stores (R104, R166) -/

/-- A store that can be posted: what its space makes of it. -/
theorem completes_stw {s : State} {th : Nat} {rt rs1 : BitVec 5} {sp : BitVec 2} {off : BitVec 14} {a : Nat} {P : State → Prop} (hrun : Runs s th)
    (ha : (s.thread th).spaceAddr (spaceOf sp) ((s.thread th).gr rs1 + sext off) = a) (hfault : s.accessFault th (spaceOf sp) a 4 true = none)
    (hP : P (if (spaceOf sp = .shr ∨ spaceOf sp = .dev) ∧ 8 ≤ (s.thread th).posted.length then s.stall th (.stores true)
      else match s.storeRejected th (spaceOf sp) a (beBytes 4 ((s.thread th).gr rt).toNat) with
        | some s => s.fault th fcBus
        | none => (s.spaceWrite th (spaceOf sp) a (beBytes 4 ((s.thread th).gr rt).toNat)).retire th id)) :
    Completes (.stw th sp rt rs1 off) s P := by
  refine .of_eq (congrArg done (s.issue_runs th _ hrun)) ?_
  rw [State.storeOp_eq s th _ rfl ha, length_beBytes, hfault]
  exact hP

theorem State.retire_setThread (s : State) (th : Nat) {t : Thread} (ht : t.run = .ready) :
    (s.setThread th t).retire th id = s.setThread th t.advance := by
  rw [State.retire, State.thread_setThread]
  exact s.setThread_setThread th (Thread.ne_reset_of_ready ht) (Thread.ne_reset_of_ready (t := t.advance) ht)

/-- A store of a thread that runs stands in its queue of posted stores. -/
theorem posts_of_retire {s : State} {th : Nat} (hready : (s.thread th).run = .ready) (p : Posted) :
    let u := (s.setThread th { s.thread th with posted := (s.thread th).posted ++ [p] }).retire th id
    OnlyThread th s u ∧ u.thread th = { (s.thread th).advance with posted := (s.thread th).posted ++ [p] } := by
  intro u
  have hu : u = s.setThread th { (s.thread th).advance with posted := (s.thread th).posted ++ [p] } := s.retire_setThread th hready
  rw [hu]
  exact ⟨onlyThread_setThread _ _ _, State.thread_setThread _ _ _⟩

theorem State.storeRejected_shr (s : State) (th a : Nat) (l : List Byte) : s.storeRejected th .shr a l = none := by
  rw [State.storeRejected, if_neg (by simp)]

/-- An atomic by its space and its address (R117). -/
theorem State.atomic_eq {s : State} {th : Nat} {sp : BitVec 2} {rd rs1 rs2 : BitVec 5} (reads : Bool) (op : Word → Word → Word → Option Word)
    (hrun : Runs s th) (hlegal : (sp != 3) = true) {k : MemSpace} {a : Nat} (hk : spaceOf sp = k)
    (ha : (s.thread th).spaceAddr k ((s.thread th).gr rs1) = a) :
    s.atomic th sp rd rs1 rs2 reads op = match s.accessFault th k a 4 true with
      | some c => s.fault th c
      | none =>
        match (if k = .shr then s.drainShared th else s).spaceRead th k a 4 with
        | (.error c, s) => s.fault th c
        | (.ok l, u) =>
          let u := u.atomicPut th k a (op (bytesWord l) ((s.thread th).gr rs2) ((s.thread th).gr rd))
          let ans : LookAnswer := { rd := rd, value := bytesWord l, blk := none, chip := spaceChip th k a
                                    taint := (s.thread th).tainted rs1 || (s.thread th).tainted rs2 || (reads && (s.thread th).tainted rd) }
          if k = .shr then u.awaitAnswer th .unit ans else u.deliver th ans := by
  subst hk ha
  rw [State.atomic, hlegal]
  exact s.issue_runs th _ hrun

/-- Nothing is posted: an atomic has nothing to wait for. -/
theorem State.drainShared_of_empty {s : State} {th : Nat} (h : (s.thread th).posted = []) : s.drainShared th = s.setThread th (s.thread th) := by
  have hsame : { s.thread th with posted := [] } = s.thread th := by rw [← h]
  rw [State.drainShared, h]
  exact congrArg _ hsame

theorem State.hbmNat_writeBytes {s : State} {m : Tbl Byte} {off n v : Nat} (hmem : s.hbm.mem = Tbl.writeBytes m off (beBytes n v)) :
    s.hbmNat off n = v % 256 ^ n := by
  have hread := Tbl.readBytes_writeBytes m off (beBytes n v)
  rw [length_beBytes] at hread
  rw [State.hbmNat, State.hbmRead, hmem, hread, beNat_beBytes]

/-- An atomic add on shared-state memory: the thread waits with the old word, and the sum stands in HBM (R117). -/
theorem completes_aaddShared {s : State} {th : Nat} {rd rs1 rs2 : BitVec 5} {a : Nat} (hrun : Runs s th)
    (hecc : s.plat.ecc = []) (hposted : (s.thread th).posted = []) (ha : (s.thread th).spaceAddr .shr ((s.thread th).gr rs1) = a)
    (hfault : s.accessFault th .shr a 4 true = none) (hpoison : s.poisonedIn (a - hbmBase) 4 = false) :
    Completes (.aadd th 2 rd rs1 rs2) s (fun u => WaitsForUnit s th rd (BitVec.ofNat 32 (s.hbmNat (a - hbmBase) 4)) u
      ∧ u.hbmNat (a - hbmBase) 4 = (s.hbmNat (a - hbmBase) 4 + ((s.thread th).gr rs2).toNat) % 2 ^ 32) := by
  obtain ⟨v, hv⟩ : ∃ v, v = s.setThread th (s.thread th) := ⟨_, rfl⟩
  have hvthread : v.thread th = s.thread th := by rw [hv, State.thread_setThread]
  have hvnat : v.hbmNat (a - hbmBase) 4 = s.hbmNat (a - hbmBase) 4 := by rw [hv]; rfl
  obtain ⟨u, hread, -, hmem, -, heng, -⟩ := State.spaceRead_shr (th := th) (s := v) (by rw [hv]; exact hecc) (by rw [hv]; exact hpoison)
    (by rw [hvthread]; exact hposted)
  obtain ⟨new, hnew⟩ : ∃ new, new = BitVec.ofNat 32 (s.hbmNat (a - hbmBase) 4) + (s.thread th).gr rs2 := ⟨_, rfl⟩
  obtain ⟨w, hw⟩ : ∃ w, w = u.sharedPut th { device := false, addr := a, bytes := beBytes 4 new.toNat, pc := (u.thread th).pc } := ⟨_, rfl⟩
  obtain ⟨hwmem, hweng⟩ : w.hbm.mem = Tbl.writeBytes u.hbm.mem (a - hbmBase) (beBytes 4 new.toNat) ∧ w.eng = u.eng := hw ▸ u.sharedPut_spec th _
  have hwthread : w.thread th = s.thread th := (State.thread_congr (by rw [hweng, heng]) th).trans hvthread
  have hatomic : ∃ x : LookAnswer, x.rd = rd ∧ x.value = BitVec.ofNat 32 (s.hbmNat (a - hbmBase) 4)
      ∧ s.atomic th 2 rd rs1 rs2 false (fun o b _ => some (o + b)) = w.awaitAnswer th .unit x := by
    rw [State.atomic_eq false _ hrun rfl (show spaceOf 2 = .shr from rfl) ha, hfault]
    dsimp only
    rw [if_pos rfl, State.drainShared_of_empty hposted, ← hv, hread]
    dsimp only
    rw [if_pos rfl, bytesWord, ← State.hbmNat, hvnat, ← hnew, State.atomicPut, ← hw]
    exact ⟨_, rfl, rfl, rfl⟩
  obtain ⟨x, hrd, hvalue, heq⟩ := hatomic
  refine .of_eq (congrArg done heq) ⟨?_, ?_⟩
  · rw [← hrd, ← hvalue]
    exact waitsForUnit_awaitAnswer hwthread x
  · have hsum : new.toNat = (s.hbmNat (a - hbmBase) 4 + ((s.thread th).gr rs2).toNat) % 2 ^ 32 := by
      rw [hnew, BitVec.toNat_add, BitVec.toNat_ofNat, Nat.mod_add_mod]
    rw [State.hbmNat_writeBytes ((congrArg HbmUnit.mem (State.hbm_awaitAnswer w th .unit x)).trans hwmem), hsum]
    exact Nat.mod_eq_of_lt (Nat.mod_lt _ (by decide))

end Sys2Proof.Machine
end

section
namespace Sys2Proof.Machine

/-! ## The end of a wait (R104, R106, R132, R257) -/

/-- The record of a thread that has its answer. -/
def Thread.delivered (t : Thread) (a : LookAnswer) : Thread :=
  { (match a.blk with | some (b, v) => (t.put a.rd a.taint a.value).setBr b v | none => t.put a.rd a.taint a.value).advance with
    look := none, run := .ready }

theorem State.thread_deliver (s : State) (th x : Nat) (a : LookAnswer) :
    (s.deliver th a).thread x = if x = th then (s.thread th).delivered a else s.thread x := by
  rw [State.deliver, State.thread_makeReady_eq, State.thread_setThread, State.thread_setThread_eq]
  split <;> rfl

theorem Thread.delivered_spec (t : Thread) (a : LookAnswer) (h : a.blk = none) : (t.delivered a).run = .ready ∧ (t.delivered a).look = none
    ∧ (t.delivered a).pc = t.pc + 4 ∧ (t.delivered a).handles = t.handles ∧ RegsBut t (t.delivered a) a.rd a.value := by
  obtain ⟨hpc, -⟩ := t.put_keeps a.rd a.taint a.value
  have hhandles : (t.put a.rd a.taint a.value).handles = t.handles := by rw [t.put_eq]
  rw [Thread.delivered, h]
  exact ⟨rfl, rfl, congrArg (· + 4) hpc, hhandles, fun n => t.gr_put_advance a.rd n a.taint a.value⟩

theorem State.cfl_deliver (s : State) (th : Nat) (a : LookAnswer) : (s.deliver th a).cfl = s.cfl := by
  rw [State.deliver, State.cfl_makeReady]; rfl

theorem State.hbm_makeReady (s : State) (th : Nat) : (s.makeReady th).hbm = s.hbm := by
  unfold State.makeReady; dsimp only; split <;> rfl

/-- The oldest posted store of a thread reaches HBM (R104, R166). -/
theorem completes_postedStoreComplete {s : State} {th a : Nat} {l : List Byte} {pc : BitVec 20} {rest : List Posted}
    (hposted : (s.thread th).posted = { device := false, addr := a, bytes := l, pc := pc } :: rest) (hup : s.reachable (thChip th) = true)
    (hbus : s.busFails th .shr a l.length true = false) :
    Completes (.postedStoreComplete th) s (fun u => (u.thread th).posted = rest
      ∧ u.hbm.mem = Tbl.writeBytes s.hbm.mem (a - hbmBase) l) := by
  obtain ⟨v, hv⟩ : ∃ v, v = s.setThread th { s.thread th with posted := rest } := ⟨_, rfl⟩
  obtain ⟨w, hw⟩ : ∃ w, w = v.sharedPut th { device := false, addr := a, bytes := l, pc := pc } := ⟨_, rfl⟩
  obtain ⟨hmem, heng⟩ : w.hbm.mem = Tbl.writeBytes v.hbm.mem (a - hbmBase) l ∧ w.eng = v.eng := hw ▸ v.sharedPut_spec th _
  have hthread : w.thread th = { s.thread th with posted := rest } := by
    rw [State.thread_congr (s := v) (by rw [heng]) th, hv, State.thread_setThread]
  have hwmem : w.hbm.mem = Tbl.writeBytes s.hbm.mem (a - hbmBase) l := by rw [hmem, hv]; rfl
  have hdone : v.postedDone th { device := false, addr := a, bytes := l, pc := pc } = w := by
    have hbus' : v.busFails th .shr a l.length true = false := by rw [hv]; exact hbus
    rw [State.postedDone, if_neg (by simp)]
    dsimp only
    rw [if_neg (by simp [hbus']), hw]
  have hexec : exec (.postedStoreComplete th) s = done (if (w.thread th).waitsStores then w.makeReady th else w) := by
    change execPostedStoreComplete th s = _
    rw [execPostedStoreComplete, hposted]
    dsimp only
    rw [if_neg (by simp [hup]), ← hv, hdone]
  refine .of_eq hexec ?_
  split
  · refine ⟨?_, by rw [State.hbm_makeReady, hwmem]⟩
    rw [State.thread_makeReady_eq, if_pos rfl, hthread]; rfl
  · exact ⟨by rw [hthread], hwmem⟩

/-- The answer of a unit reaches the thread that waits for it (R106). -/
theorem completes_longStallEnd_unit {s : State} {th : Nat} {x : LookAnswer} (hrun : (s.thread th).run = .stalled .unit)
    (hlook : (s.thread th).look = some x) (hblk : x.blk = none) :
    Completes (.longStallEnd th) s (fun t => (t.thread th).run = .ready ∧ (t.thread th).look = none
      ∧ (t.thread th).pc = (s.thread th).pc + 4 ∧ RegsBut (s.thread th) (t.thread th) x.rd x.value
      ∧ ∀ y, y ≠ th → t.thread y = s.thread y) := by
  have hexec : exec (.longStallEnd th) s = done (s.deliver th x) := by
    change execLongStallEnd th s = _
    rw [execLongStallEnd, hrun]
    dsimp only
    rw [if_pos (by rw [State.waitOver, hlook]; rfl), hlook]
  obtain ⟨hready, hnone, hpc, -, hregs⟩ := (s.thread th).delivered_spec x hblk
  refine .of_eq hexec ?_
  rw [State.thread_deliver, if_pos rfl]
  exact ⟨hready, hnone, hpc, hregs, fun y hy => by rw [State.thread_deliver, if_neg hy]⟩

/-- An event that a thread waits for makes it ready, and it reads the event itself (R137). -/
theorem completes_longStallEnd_event {s : State} {th : Nat} {m : Word} (hrun : (s.thread th).run = .stalled (.event m))
    (hevt : (s.thread th).evt &&& m ≠ 0) :
    Completes (.longStallEnd th) s (fun t => t.thread th = { s.thread th with run := .ready } ∧ ∀ y, y ≠ th → t.thread y = s.thread y) := by
  have hexec : exec (.longStallEnd th) s = done (s.makeReady th) := by
    change execLongStallEnd th s = _
    rw [execLongStallEnd, hrun]
    dsimp only
    rw [if_pos (by rw [State.waitOver, Bool.or_eq_true]; exact .inl (bne_iff_ne.mpr hevt))]
  refine .of_eq hexec ⟨?_, fun y hy => ?_⟩
  · rw [State.thread_makeReady_eq, if_pos rfl]; rfl
  · rw [State.thread_makeReady_eq, if_neg hy]

theorem State.newHandle_keeps (s : State) (f : FrameRec) : (s.newHandle f).2.cfl.books = s.cfl.books ∧ (s.newHandle f).2.eng = s.eng := ⟨rfl, rfl⟩

theorem State.takeCells_keeps (s : State) (n : Nat) : (s.takeCells n).2.cfl.books = s.cfl.books.alloc n ∧ (s.takeCells n).2.eng = s.eng :=
  ⟨rfl, rfl⟩

theorem Books.free_alloc (b : Books) {n : Nat} (h : n ≤ b.free) : (b.alloc n).free + n = b.free := by
  rw [Books.alloc, Nat.min_eq_left h]
  exact Nat.sub_add_cancel h

/-- HNEW with cells above the floor: a new handle over cells that it took (R132, R257). -/
theorem State.hnew_room {s : State} {th n : Nat} (h : cellsFor n + s.fld F.CFL_CELL_FLOOR.CELLS 0 ≤ s.cfl.books.free) :
    ∃ f u, u = ((s.takeCells (cellsFor n)).2.draw.newHandle f).2 ∧ (s.hnew th n).2
      = u.setThread th { u.thread th with handles := (u.thread th).handles ++ [(s.hnew th n).1] } := by
  have halloc : s.allocCells (cellsFor n) = (some (s.takeCells (cellsFor n)).1, (s.takeCells (cellsFor n)).2) := by
    rw [State.allocCells, if_pos h]
  rw [State.hnew, halloc]
  exact ⟨_, _, rfl, rfl⟩

/-- Cells for a new handle, if the floor leaves them (R257). -/
theorem State.hnew_spec (s : State) (th n : Nat) :
    (cellsFor n + s.fld F.CFL_CELL_FLOOR.CELLS 0 ≤ s.cfl.books.free →
      (s.hnew th n).2.thread th = { s.thread th with handles := (s.thread th).handles ++ [(s.hnew th n).1] }
        ∧ (s.hnew th n).2.cfl.books.free + cellsFor n = s.cfl.books.free)
    ∧ (s.cfl.books.free < cellsFor n + s.fld F.CFL_CELL_FLOOR.CELLS 0 →
      (s.hnew th n).1 = 0 ∧ (s.hnew th n).2.thread th = s.thread th) := by
  refine ⟨fun hroom => ?_, fun hfull => ?_⟩
  · obtain ⟨f, u, hu, heq⟩ := State.hnew_room (th := th) hroom
    obtain ⟨hbooks, heng⟩ := (s.takeCells (cellsFor n)).2.draw.newHandle_keeps f
    obtain ⟨hcells, hcellsEng⟩ := s.takeCells_keeps (cellsFor n)
    have hthread : u.thread th = s.thread th := State.thread_congr (by rw [hu, heng, ← hcellsEng]; rfl) th
    have hfree : (u.setThread th { u.thread th with handles := (u.thread th).handles ++ [(s.hnew th n).1] }).cfl.books
        = s.cfl.books.alloc (cellsFor n) := by
      rw [← hcells, hu]; exact hbooks
    rw [heq, hfree]
    refine ⟨?_, Books.free_alloc _ (by omega)⟩
    rw [State.thread_setThread, hthread]
  · have halloc : s.allocCells (cellsFor n) = (none, s.satInc F.CFL_ALLOC_FAIL.COUNT 0 1) := by
      rw [State.allocCells, if_neg (by omega)]
    rw [State.hnew, halloc]
    exact ⟨rfl, rfl⟩

/-- HNEW ends with a handle, or with 0 where the floor leaves no cells (R132, R257). -/
theorem completes_longStallEnd_hnew {s : State} {th n : Nat} {rd : BitVec 5} {tn : Bool} (hrun : (s.thread th).run = .stalled (.hnew rd n tn))
    (hup : s.reachable (thChip th) = true) (hcfl : s.reachable 1 = true) :
    ((n + 255) / 256 + s.fld F.CFL_CELL_FLOOR.CELLS 0 ≤ s.cfl.books.free → Completes (.longStallEnd th) s (fun t =>
        (t.thread th).run = .ready ∧ (t.thread th).pc = (s.thread th).pc + 4
        ∧ t.cfl.books.free + (n + 255) / 256 = s.cfl.books.free
        ∧ ∃ h, (t.thread th).handles = (s.thread th).handles ++ [h] ∧ RegsBut (s.thread th) (t.thread th) rd h))
    ∧ (s.cfl.books.free < (n + 255) / 256 + s.fld F.CFL_CELL_FLOOR.CELLS 0 → Completes (.longStallEnd th) s (fun t =>
        (t.thread th).run = .ready ∧ (t.thread th).pc = (s.thread th).pc + 4 ∧ (t.thread th).handles = (s.thread th).handles
        ∧ RegsBut (s.thread th) (t.thread th) rd 0)) := by
  obtain ⟨hroom, hfull⟩ := s.hnew_spec th n
  have hexec : exec (.longStallEnd th) s = done (s.hnewEnd th rd n tn) := by
    change execLongStallEnd th s = _
    rw [execLongStallEnd, hrun]
    dsimp only
    rw [if_pos (by rw [State.waitOver, hup, hcfl]; rfl)]
  obtain ⟨hready, -, hpc, hhandles, hregs⟩ := ((s.hnew th n).2.thread th).delivered_spec
    { rd := rd, value := (s.hnew th n).1, blk := none, taint := tn, chip := 1 } rfl
  refine ⟨fun h => .of_eq hexec ?_, fun h => .of_eq hexec ?_⟩
  · obtain ⟨hthread, hbooks⟩ := hroom h
    rw [State.hnewEnd]
    rw [State.thread_deliver, if_pos rfl, State.cfl_deliver]
    rw [hthread] at hready hpc hhandles hregs ⊢
    exact ⟨hready, hpc, hbooks, _, hhandles, hregs⟩
  · obtain ⟨hzero, hthread⟩ := hfull h
    rw [State.hnewEnd]
    rw [State.thread_deliver, if_pos rfl]
    rw [hzero, hthread] at hready hpc hhandles hregs ⊢
    exact ⟨hready, hpc, hhandles, hregs⟩

end Sys2Proof.Machine
end

section
namespace Sys2Proof.Machine

theorem hbmBase_eq : 0x1000000000 = hbmBase := rfl

/-- The handle that HNEW gave is the last of those that the thread holds. -/
theorem hnew_last {s u : State} {th : Nat} {rd : BitVec 5} {h : Word} (hheld : (u.thread th).handles = (s.thread th).handles ++ [h])
    (hregs : RegsBut (s.thread th) (u.thread th) rd h) :
    (u.thread th).handles = (s.thread th).handles ++ [(u.thread th).handles.getLastD 0]
      ∧ RegsBut (s.thread th) (u.thread th) rd ((u.thread th).handles.getLastD 0) := by
  have hlast : (u.thread th).handles.getLastD 0 = h := by rw [hheld, List.getLastD_concat]
  rw [hlast]
  exact ⟨hheld, hregs⟩

/-- Settles O17: the accesses by their space (`completes_loadShared`, `completes_stw` and so on), and what ends a wait. -/
theorem sharedAccessesAndWaits : Obligations.SharedAccessesAndWaits := by
  unfold Obligations.SharedAccessesAndWaits
  constructor
  · intro th rt rs1 rs2 off s hrun hecc t ea sh dv number waits posts
    have hsh : t.spaceAddr .shr (t.gr rs1 + sext off) = sh := by rw [Word.add_sext]; rfl
    have hdv : t.spaceAddr .dev (t.gr rs1 + sext off) = dv := by rw [Word.add_sext]; rfl
    have hnumber : ∀ a n, number a n = s.hbmNat (a - hbmBase) n := fun a n => by
      rw [State.hbmNat_eq, ← hbmBase_eq]
    simp only [hbmBase_eq]
    refine ⟨fun hfault hpoison hposted => ?_, fun hfault hpoison hposted => ?_, fun hfault hpoison hposted => ?_,
      fun w u hfault hposted hread hthread => completes_loadDevice hrun hposted hdv hfault hread hthread,
      fun hfault hlen => ?_, fun hfault hlen haccept => ?_, fun u hreject hfault hlen => ?_, fun hfault hlen => ?_,
      fun hoff hb hfault hpoison hposted => ?_⟩
    · rw [hnumber]; exact completes_loadShared hrun hecc hposted hsh rfl hfault hpoison
    · rw [hnumber]; exact completes_loadShared hrun hecc hposted hsh rfl hfault hpoison
    · rw [hnumber]; exact completes_loadShared hrun hecc hposted hsh rfl hfault hpoison
    · refine completes_stw hrun hsh hfault ?_
      rw [if_neg (fun h => absurd h.2 (Nat.not_le.mpr hlen)), show spaceOf 2 = .shr from rfl, State.storeRejected_shr]
      exact posts_of_retire hrun.ready _
    · refine completes_stw hrun hdv hfault ?_
      rw [if_neg (fun h => absurd h.2 (Nat.not_le.mpr hlen)), show spaceOf 3 = .dev from rfl, haccept]
      exact posts_of_retire hrun.ready _
    · refine completes_stw hrun hdv hfault ?_
      rw [if_neg (fun h => absurd h.2 (Nat.not_le.mpr hlen)), show spaceOf 3 = .dev from rfl, hreject]
    · refine completes_stw hrun hsh hfault ?_
      rw [if_pos ⟨.inl rfl, hlen⟩, State.thread_stall, if_pos rfl]
      exact ⟨rfl, rfl, rfl⟩
    · have haddr : t.spaceAddr .shr (t.gr rs1) = sh := by
        have hzero : t.gr rs1 + sext off = t.gr rs1 := by rw [hoff]; exact BitVec.add_zero _
        rw [← hsh, hzero]
      obtain ⟨u, hu, ⟨hwait, hlook, -⟩, hsum⟩ := completes_aaddShared (rd := rt) (rs2 := rs2) hrun hecc hposted haddr hfault hpoison
      refine ⟨u, hu, hwait, ?_, ?_⟩
      · rw [hnumber]; exact hlook
      · rw [hnumber, ← hsum, State.hbmNat_eq]
  · intro th s
    refine ⟨fun a l pc rest hposted hup hbus => ?_, fun x => completes_longStallEnd_unit, fun rd n tn hstall hup hcfl => ?_,
      fun rd n tn => completes_longStallEnd_hnew, fun m => completes_longStallEnd_event⟩
    · obtain ⟨u, hu, hrest, hmem⟩ := completes_postedStoreComplete hposted hup hbus
      refine ⟨u, hu, hrest, fun k => ?_⟩
      rw [hmem, Tbl.get_writeBytes, hbmBase_eq]
    · obtain ⟨hroom, hfull⟩ := completes_longStallEnd_hnew hstall hup hcfl
      refine ⟨fun h => ?_, hfull⟩
      obtain ⟨u, hu, hready, hpc, hbooks, v, hheld, hregs⟩ := hroom h
      exact ⟨u, hu, hready, hpc, hbooks, hnew_last hheld hregs⟩

end Sys2Proof.Machine
end

section
namespace Sys2Proof.Machine

/-! ## An entry of a table comes and goes: no thread and no modify pipe takes part (R214, R222, R223) -/

/-- The engines and the queues of the modify pipes are as they were. -/
def TablesOnly (s t : State) : Prop := t.eng = s.eng ∧ t.look.pipe = s.look.pipe

theorem TablesOnly.refl (s : State) : TablesOnly s s := ⟨rfl, rfl⟩

theorem TablesOnly.trans {s t u : State} (h : TablesOnly s t) (k : TablesOnly t u) : TablesOnly s u :=
  ⟨k.1.trans h.1, k.2.trans h.2⟩

theorem State.tablesOnly_setSlot (s : State) (k : Nat) (e : Option DiceEntry) : TablesOnly s (s.setSlot k e) := ⟨rfl, rfl⟩

theorem State.tablesOnly_setBar (s : State) (k : Nat) (e : Option DiceEntry) : TablesOnly s (s.setBar k e) := ⟨rfl, rfl⟩

theorem State.tablesOnly_setEntry (s : State) (l : DiceLoc) (e : Option DiceEntry) : TablesOnly s (s.setEntry l e) := by
  cases l <;> exact ⟨rfl, rfl⟩

theorem State.tablesOnly_setFld (s : State) (f : Fld) (i v : Nat) : TablesOnly s (s.setFld f i v) :=
  ⟨State.setFld_eng _ _ _ _, by rw [State.setFld_look]⟩

theorem State.tablesOnly_countChange (s : State) (b t : Nat) (up change : Bool) : TablesOnly s (s.countChange b t up change) := by
  rw [State.countChange]
  split
  · exact (s.tablesOnly_setFld _ _ _).trans (State.tablesOnly_setFld _ _ _ _)
  · exact s.tablesOnly_setFld _ _ _

theorem State.tablesOnly_noteHits (s : State) (b hits limit : Nat) (r : Bool) : TablesOnly s (s.noteHits b hits limit r) :=
  (s.tablesOnly_setFld F.BRD_DICE_MAXHITS.HITS b (max hits (s.fld F.BRD_DICE_MAXHITS.HITS b))).trans ⟨rfl, rfl⟩

theorem tablesOnly_relocate (b h0 : Nat) (new : DiceEntry) (fuel n : Nat) (s : State) (cur : DiceEntry) (bkt : Nat) (path : List Nat) :
    TablesOnly s (relocate b h0 new fuel n s cur bkt path).s := by
  induction fuel generalizing n s cur bkt path with
  | zero => exact .refl s
  | succ fuel ih =>
    rw [relocate]
    dsimp only
    split
    · exact s.tablesOnly_setSlot _ _
    · split
      · exact (s.tablesOnly_setSlot _ _).trans (State.tablesOnly_setSlot _ _ _)
      · exact (s.tablesOnly_setSlot _ _).trans (ih _ _ _ _ _)

theorem tablesOnly_undoPath (path : List Nat) (s : State) (cur : DiceEntry) : TablesOnly s (undoPath path s cur) := by
  induction path generalizing s cur with
  | nil => exact .refl s
  | cons k path ih =>
    rw [undoPath]
    split
    · exact (s.tablesOnly_setSlot _ _).trans (ih _ _)
    · exact ih _ _

theorem State.tablesOnly_insertHard (s : State) (b : Nat) (e : DiceEntry) : TablesOnly s (s.insertHard b e).2 := by
  have hreloc := tablesOnly_relocate b (hash0 e.table.toNat e.key) e (s.polValue (2 + b)) 1 s e (bucket0 e.table.toNat e.key) []
  rw [State.insertHard]
  dsimp only
  generalize relocate b (hash0 e.table.toNat e.key) e (s.polValue (2 + b)) 1 s e (bucket0 e.table.toNat e.key) [] = r at hreloc ⊢
  have hnoted : ∀ reached, TablesOnly s (r.s.noteHits b r.hits (s.polValue (2 + b)) reached) := fun reached =>
    hreloc.trans (r.s.tablesOnly_noteHits _ _ _ _)
  split
  · exact (hnoted false).trans (State.tablesOnly_setFld _ _ _ _)
  · split
    · split
      · exact ((hnoted true).trans (State.tablesOnly_setBar _ _ _)).trans (State.tablesOnly_setFld _ _ _ _)
      · exact (hnoted true).trans (tablesOnly_undoPath _ _ _)
    · exact (hnoted true).trans (tablesOnly_undoPath _ _ _)

theorem State.tablesOnly_insertEntry (s : State) (b : Nat) (e : DiceEntry) (withLimit change : Bool) :
    TablesOnly s (s.insertEntry b e withLimit change).2 := by
  obtain ⟨r, hr⟩ : ∃ r, r = if withLimit && s.fld F.BRD_DICE_TDEF_W1.LIMIT (tdefIdx b e.table.toNat) != 0
        && s.fld F.BRD_DICE_TDEF_W2.COUNT (tdefIdx b e.table.toNat) == s.fld F.BRD_DICE_TDEF_W1.LIMIT (tdefIdx b e.table.toNat) then (lkFull, s)
      else match s.emptySlot b (bucket0 e.table.toNat e.key) with
        | some k => (lkDone, (s.setSlot (slotKey b (bucket0 e.table.toNat e.key) k) (some e)).usedUp b)
        | none => match s.emptySlot b (bucket1 e.table.toNat e.key) with
          | some k => (lkDone, (s.setSlot (slotKey b (bucket1 e.table.toNat e.key) k) (some e)).usedUp b)
          | none => s.insertHard b e := ⟨_, rfl⟩
  have hplace : TablesOnly s r.2 := by
    rw [hr]
    split
    · exact .refl s
    · split
      · exact (s.tablesOnly_setSlot _ _).trans (State.tablesOnly_setFld _ _ _ _)
      · split
        · exact (s.tablesOnly_setSlot _ _).trans (State.tablesOnly_setFld _ _ _ _)
        · exact s.tablesOnly_insertHard b e
  have heq : s.insertEntry b e withLimit change = if (s.findEntry b e.table.toNat e.key).isSome then (lkExists, s)
      else if r.1 = lkDone then (lkDone, r.2.countChange b e.table.toNat true change) else (r.1, r.2.satInc F.BRD_DICE_FULL.COUNT b 1) := by
    rw [hr]; rfl
  rw [heq]
  split
  · exact .refl s
  · split
    · exact hplace.trans (r.2.tablesOnly_countChange _ _ _ _)
    · exact hplace.trans (r.2.tablesOnly_setFld _ _ _)

theorem State.tablesOnly_unpark (s : State) (b bucket k : Nat) : TablesOnly s (s.unpark b bucket k) := by
  rw [State.unpark]
  split
  · exact s.tablesOnly_setFld _ _ _
  · exact ((s.tablesOnly_setSlot _ _).trans (State.tablesOnly_setBar _ _ _)).trans (State.tablesOnly_setFld _ _ _ _)

theorem State.tablesOnly_removeAt (s : State) (b : Nat) (l : DiceLoc) (e : DiceEntry) (change : Bool) :
    TablesOnly s (s.removeAt b l e change) := by
  have hcount := (s.tablesOnly_setEntry l none).trans (State.tablesOnly_countChange _ b e.table.toNat false change)
  cases l with
  | slot k => exact hcount.trans (State.tablesOnly_unpark _ _ _ _)
  | bar k => exact hcount.trans (State.tablesOnly_setFld _ _ _ _)

/-- What an operation does in a modify pipe leaves the threads and the queues (R221). -/
theorem State.tablesOnly_pipeInsert (s : State) (p inst t : Nat) (key val : List Byte) : TablesOnly s (s.pipeInsert p inst t key val).2 := by
  rw [State.pipeInsert]
  split
  · exact .refl s
  · exact s.tablesOnly_insertEntry _ _ _ _

theorem State.tablesOnly_pipeDelete (s : State) (p t : Nat) (key : List Byte) : TablesOnly s (s.pipeDelete p t key).2 := by
  rw [State.pipeDelete]
  split
  · exact .refl s
  · split
    · exact .refl s
    · split
      · exact .refl s
      · exact s.tablesOnly_removeAt _ _ _ _

theorem State.takeInsert_keeps (s : State) (b inst : Nat) : (s.takeInsert b inst).2.eng = s.eng
    ∧ (s.takeInsert b inst).2.look.pipe = s.look.pipe ∧ (s.takeInsert b inst).2.look.pipeNext = s.look.pipeNext := by
  rw [State.takeInsert]
  dsimp only
  split
  · exact ⟨rfl, rfl, rfl⟩
  · split
    · exact ⟨State.satInc_eng _ _ _ _, by rw [State.satInc_look]; rfl, by rw [State.satInc_look]; rfl⟩
    · exact ⟨rfl, rfl, rfl⟩

end Sys2Proof.Machine
end

section
namespace Sys2Proof.Machine

/-! ## Lookup instructions (R129, R221) -/

/-- The thread waits for LOOKUP_RESULT with an answer for g[rd]. -/
def WaitsForLookup (th : Nat) (rd : BitVec 5) (v : Word) (u : State) : Prop :=
  (u.thread th).run = .stalled .lookup ∧ ∃ a, (u.thread th).look = some a ∧ a.rd = rd ∧ a.value = v

theorem waitsForLookup_awaitAnswer (u : State) (th : Nat) (a : LookAnswer) : WaitsForLookup th a.rd a.value (u.awaitAnswer th .lookup a) := by
  rw [WaitsForLookup, State.thread_awaitAnswer, if_pos rfl]
  exact ⟨rfl, a, rfl, rfl, rfl⟩

theorem State.unlessOpen_closed {s : State} {th : Nat} (f : State → State) (h : (s.thread th).gated = false) : s.unlessOpen th f = f s := by
  rw [State.unlessOpen, if_neg (by simp [Thread.open_, h])]

theorem fieldOf_eq (x : Word) (hi lo : Nat) : fieldOf x hi lo = x.toNat / 2 ^ lo % 2 ^ (hi + 1 - lo) := bits_eq _ _ _

/-- The table of a Dice instruction (R129). -/
theorem State.diceOp_table {s : State} {th : Nat} {rs1 : BitVec 5} (f : Nat → State) (h : ((s.thread th).gr rs1).toNat / 4096 = 0) :
    s.diceOp th rs1 f = f (((s.thread th).gr rs1).toNat % 4096) := by
  have hx : ((s.thread th).gr rs1).toNat < 2 ^ 32 := ((s.thread th).gr rs1).isLt
  rw [State.diceOp, fieldOf_eq, fieldOf_eq, if_neg (by norm_num; omega)]
  norm_num

theorem instance_eq (t : Thread) : t.instance_ = t.inst.toNat % 65536 := by
  rw [Thread.instance_, fieldOf_eq]; norm_num

/-! ## The modify pipes (R221) -/

theorem State.pipeRoute_keeps (s : State) (b inst t : Nat) (key : List Byte) (rate : Bool) :
    (s.pipeRoute b inst t key rate).2.eng = s.eng ∧ (s.pipeRoute b inst t key rate).2.look.pipe = s.look.pipe
      ∧ (s.pipeRoute b inst t key rate).2.look.pipeNext = s.look.pipeNext := by
  rw [State.pipeRoute]
  dsimp only
  split
  · exact ⟨rfl, rfl, rfl⟩
  · cases rate
    · exact ⟨rfl, rfl, rfl⟩
    · exact s.takeInsert_keeps b inst

theorem State.pipeQ_setPipeQ (s : State) (p x : Nat) (l : List PipeOp) : (s.setPipeQ p l).pipeQ x = if x = p then l else s.pipeQ x := by
  rw [State.pipeQ, State.setPipeQ, State.putLook_look, Tbl.get_set]
  by_cases h : x = p
  · rw [if_pos h.symm, if_pos h]
  · rw [if_neg (Ne.symm h), if_neg h]; rfl

/-- What becomes of an operation of a thread for a modify pipe: a status at once, a place in the queue, or a wait for room. -/
theorem State.pipeOp_spec (s : State) (th : Nat) (rd : BitVec 5) (taint : Bool) (table : Nat) (key : List Byte) (rate : Bool)
    (mk : Nat → PipeOp) :
    let r := s.pipeRoute (thBoard th) (s.thread th).instance_ table key rate
    let u := s.pipeOp th rd taint table key rate mk
    (∀ st, r.1 = .inl st → WaitsForLookup th rd (BitVec.ofNat 32 st) u)
    ∧ (∀ p, r.1 = .inr p → s.pipeHasRoom p = true → (u.thread th).run = .stalled (.pipe p s.look.pipeNext)
        ∧ (u.thread th).pc = (s.thread th).pc ∧ u.look.pipeNext = s.look.pipeNext + 1
        ∧ ∀ x, u.pipeQ x = if x = p then s.pipeQ p ++ [mk s.look.pipeNext] else s.pipeQ x)
    ∧ (∀ p, r.1 = .inr p → s.pipeHasRoom p = false → (u.thread th).run = .stalled (.pipeRoom p)
        ∧ (u.thread th).pc = (s.thread th).pc ∧ u.look = s.look) := by
  intro r u
  obtain ⟨heng, hpipe, hnext⟩ := s.pipeRoute_keeps (thBoard th) (s.thread th).instance_ table key rate
  have hu : u = match r with
      | (.inl st, s) => s.statusAnswer th rd taint (boardChip (s.partOf (thBoard th) table key)) (statusWord st)
      | (.inr p, s') => if s.pipeHasRoom p then s'.pipeEnter p th mk else s.stall th (.pipeRoom p) := rfl
  rw [hu]
  change r.2.eng = s.eng at heng
  change r.2.look.pipe = s.look.pipe at hpipe
  change r.2.look.pipeNext = s.look.pipeNext at hnext
  clear_value r
  obtain ⟨o, v⟩ := r
  dsimp only at heng hpipe hnext ⊢
  refine ⟨fun st hst => ?_, fun p hp hroom => ?_, fun p hp hroom => ?_⟩
  · subst hst
    exact waitsForLookup_awaitAnswer _ _ _
  · subst hp
    have hq : ∀ x, v.pipeQ x = s.pipeQ x := fun x => by rw [State.pipeQ, State.pipeQ, hpipe]
    obtain ⟨w, hw⟩ : ∃ w, w = (v.setPipeQ p (v.pipeQ p ++ [mk v.look.pipeNext])).putLook
        { (v.setPipeQ p (v.pipeQ p ++ [mk v.look.pipeNext])).look with pipeNext := v.look.pipeNext + 1 } := ⟨_, rfl⟩
    have henter : v.pipeEnter p th mk = w.stall th (.pipe p v.look.pipeNext) := by rw [hw]; rfl
    have hwthread : w.thread th = s.thread th := by
      rw [← State.thread_congr (s := s) (t := v) (by rw [heng]) th, hw]; rfl
    have hlook : (w.stall th (.pipe p v.look.pipeNext)).look = w.look := by
      obtain ⟨c, hc⟩ := w.stall_eq th (.pipe p v.look.pipeNext)
      rw [hc]; rfl
    dsimp only
    rw [if_pos hroom, henter, State.thread_stall, if_pos rfl, hwthread, hlook, hnext]
    refine ⟨rfl, rfl, ?_, fun x => ?_⟩
    · rw [hw, ← hnext]; rfl
    · have hset : (w.stall th (.pipe p s.look.pipeNext)).pipeQ x = (v.setPipeQ p (v.pipeQ p ++ [mk v.look.pipeNext])).pipeQ x := by
        rw [State.pipeQ, ← hnext, hlook, hw]; rfl
      rw [hset, State.pipeQ_setPipeQ, hq, hq, hnext]
  · subst hp
    obtain ⟨c, hc⟩ := s.stall_eq th (.pipeRoom p)
    dsimp only
    rw [if_neg (by simp [hroom]), State.thread_stall, if_pos rfl]
    exact ⟨rfl, rfl, by rw [hc]; rfl⟩

theorem State.look_makeReady (s : State) (th : Nat) : (s.makeReady th).look = s.look := by
  unfold State.makeReady; dsimp only; split <;> rfl

theorem State.setThread_look (s : State) (th : Nat) (t : Thread) : (s.setThread th t).look = s.look := rfl

theorem State.look_deliver (s : State) (th : Nat) (a : LookAnswer) : (s.deliver th a).look = s.look := by
  rw [State.deliver, State.look_makeReady, State.setThread_look]

/-- The answer of an operation that passed a modify pipe reaches the thread (R129, R221). -/
theorem State.pipeAnswer_thread {s : State} {p th n : Nat} {rd : BitVec 5} {tn : Bool} {st : Nat}
    (h : (s.thread th).run = .stalled (.pipe p n)) :
    s.pipeAnswer p th n rd tn st = s.setThread th { s.thread th with
      run := .stalled .lookup, look := some ⟨rd, BitVec.ofNat 32 st, none, tn, boardChip p⟩ } := by
  rw [State.pipeAnswer, if_pos h]

/-- The only operation in a queue passes the pipe, and its thread goes on with the status (R129, R221). -/
theorem completes_lookupResult_pipe {s : State} {th p n : Nat} {rd : BitVec 5} {tn : Bool} {o : PipeOp} {r : Nat × State}
    (hrun : (s.thread th).run = .stalled (.pipe p n)) (hq : s.pipeQ p = [o]) (hnum : o.num = some n)
    (hdo : (s.setPipeQ p []).pipeDo p o = r) (hend : ∀ u st, State.pipeEnd u p o st = u.pipeAnswer p th n rd tn st)
    (htables : TablesOnly (s.setPipeQ p []) r.2) :
    Completes (.lookupResult th) s (fun u => (u.thread th).run = .ready ∧ (u.thread th).pc = (s.thread th).pc + 4 ∧ u.pipeQ p = []
      ∧ RegsBut (s.thread th) (u.thread th) rd (BitVec.ofNat 32 r.1)) := by
  obtain ⟨heng, hpipe⟩ := htables
  have hthread : r.2.thread th = s.thread th := State.thread_congr (by rw [heng]; rfl) th
  obtain ⟨t, ht⟩ : ∃ t, t = { s.thread th with run := .stalled .lookup, look := some ⟨rd, BitVec.ofNat 32 r.1, none, tn, boardChip p⟩ } := ⟨_, rfl⟩
  have hstep : s.pipeStep p = r.2.setThread th t := by
    rw [State.pipeStep, hq]
    dsimp only
    rw [hdo, hend, State.pipeAnswer_thread (by rw [hthread]; exact hrun), hthread, ht]
  have hfor : s.pipeFor th = r.2.setThread th t := by
    have hfind : [o].findIdx? (fun o => o.num == some n) = some 0 := by simp [List.findIdx?_cons, hnum]
    rw [State.pipeFor, hrun]
    dsimp only
    rw [State.pipeThrough, hq, hfind]
    exact hstep
  have hexec : exec (.lookupResult th) s = done ((r.2.setThread th t).deliver th ⟨rd, BitVec.ofNat 32 r.1, none, tn, boardChip p⟩) := by
    change execLookupResult th s = _
    rw [execLookupResult, hfor, State.thread_setThread, ht]
  obtain ⟨hready, -, hpc, -, hregs⟩ := t.delivered_spec ⟨rd, BitVec.ofNat 32 r.1, none, tn, boardChip p⟩ rfl
  have hqueue : ((r.2.setThread th t).deliver th ⟨rd, BitVec.ofNat 32 r.1, none, tn, boardChip p⟩).pipeQ p = [] := by
    rw [State.pipeQ, State.look_deliver, State.setThread_look, hpipe, ← State.pipeQ, State.pipeQ_setPipeQ, if_pos rfl]
  refine .of_eq hexec ?_
  rw [State.thread_deliver, if_pos rfl, State.thread_setThread]
  refine ⟨hready, hpc.trans (by rw [ht]), hqueue, fun k => (hregs k).trans ?_⟩
  rw [ht]; rfl

/-- The result of a lookup reaches the thread (R129). -/
theorem completes_lookupResult {s : State} {th : Nat} {a : LookAnswer} (hrun : (s.thread th).run = .stalled .lookup)
    (hlook : (s.thread th).look = some a) (hblk : a.blk = none) :
    Completes (.lookupResult th) s (fun u => (u.thread th).run = .ready ∧ (u.thread th).look = none
      ∧ (u.thread th).pc = (s.thread th).pc + 4 ∧ RegsBut (s.thread th) (u.thread th) a.rd a.value ∧ ∀ x, x ≠ th → u.thread x = s.thread x) := by
  have hfor : s.pipeFor th = s := by rw [State.pipeFor, hrun]
  have hexec : exec (.lookupResult th) s = done (s.deliver th a) := by
    change execLookupResult th s = _
    rw [execLookupResult, hfor, hrun, hlook]
  obtain ⟨hready, hnone, hpc, -, hregs⟩ := (s.thread th).delivered_spec a hblk
  refine .of_eq hexec ?_
  rw [State.thread_deliver, if_pos rfl]
  exact ⟨hready, hnone, hpc, hregs, fun x hx => by rw [State.thread_deliver, if_neg hx]⟩

end Sys2Proof.Machine
end

section
namespace Sys2Proof.Machine

/-! ## Queue instructions (R132 to R134, R163) -/

theorem State.inputSt_setInput (s : State) (i : Input) (x : InputSt) : (s.setInput i x).inputSt i = x := Tbl.get_set_same _ _ _ _

theorem State.inputSt_congr {s t : State} (h : t.cfl.inputs = s.cfl.inputs) (i : Input) : t.inputSt i = s.inputSt i := by
  rw [State.inputSt, State.inputSt, h]

/-- A number that is not late joins the numbers of its input that wait for commit (R263, R265). -/
theorem State.sendCommit_timely {s : State} {i : Input} {c : CommitSlot} (h : i = .none ∨ (s.inputSt i).isLate c.seq = false) :
    s.sendCommit i c = s.setInput i { s.inputSt i with wait := (s.inputSt i).wait ++ [c] } := by
  have hlate : (i != .none && (s.inputSt i).isLate c.seq) = false := by
    rcases h with rfl | h
    · rfl
    · rw [h, Bool.and_false]
  rw [State.sendCommit, hlate]
  rfl

/-- The frame record of a handle that no thread holds any longer. -/
def FrameRec.released (f : FrameRec) : FrameRec := { f with board := none, owner := none, slot := none }

/-- A commit that is on its way: the number waits at its input, and the handle has left the thread (R132, R134). -/
structure Sent (s : State) (th : Nat) (t : Thread) (i : Input) (c : CommitSlot) (u : State) : Prop where
  waits : (u.inputSt i).wait = (s.inputSt i).wait ++ [c]
  thread : u.thread th = ({ t with handles := (s.thread th).handles.erase c.handle } : Thread).advance
  others : ∀ x, x ≠ th → u.thread x = s.thread x

/-- ENQ and ENQM with the credit at hand send the commit and retire the handle (R132). -/
theorem State.enqSend_sent {s v : State} {th : Nat} {t : Thread} {h fword : Word} {kind : CommitKind} {f : FrameRec}
    (hcfl : v.cfl = s.cfl) (hthread : v.thread th = t) (hhandles : t.handles = (s.thread th).handles)
    (hothers : ∀ x, x ≠ th → v.thread x = s.thread x) (hframe : s.handleFrame h = some f) (hboard : f.board = none)
    (htimely : f.input = .none ∨ (s.inputSt f.input).isLate f.seq = false) :
    Sent s th t f.input { seq := f.seq, kind := kind, handle := h, fword := fword, th := some th } (v.enqSend th h fword kind) := by
  have hvframe : v.handleFrame h = some f := (State.handleFrame_congr hcfl h).trans hframe
  obtain ⟨w, hw⟩ : ∃ w, w = (v.setFrame (handleFirst h) (some f.released)).unhold th h := ⟨_, rfl⟩
  have hgive : v.giveUp th h = w := by
    rw [State.giveUp, hvframe, hw]
    dsimp only
    rw [hboard]
    rfl
  have hwinput : ∀ i, w.inputSt i = s.inputSt i := fun i => State.inputSt_congr (by rw [hw, ← hcfl]; rfl) i
  have hwthread : w.thread th = { t with handles := (s.thread th).handles.erase h } := by
    rw [← hhandles, ← hthread, hw]; exact State.thread_setThread _ _ _
  have hwothers : ∀ x, x ≠ th → w.thread x = s.thread x := fun x hx => by
    rw [← hothers x hx, hw]; exact State.thread_setThread_ne _ _ (Ne.symm hx)
  have hsend : v.enqSend th h fword kind = (w.setInput f.input { s.inputSt f.input with
      wait := (s.inputSt f.input).wait ++ [{ seq := f.seq, kind := kind, handle := h, fword := fword, th := some th }] }).retire th id := by
    rw [State.enqSend, hvframe]
    dsimp only
    rw [hgive, State.sendCommit_timely (by rw [hwinput]; exact htimely), hwinput]
  obtain ⟨y, hy⟩ : ∃ y, y = w.setInput f.input { s.inputSt f.input with
      wait := (s.inputSt f.input).wait ++ [{ seq := f.seq, kind := kind, handle := h, fword := fword, th := some th }] } := ⟨_, rfl⟩
  have hythread : ∀ x, y.thread x = w.thread x := fun x => by rw [hy]; rfl
  rw [hsend, ← hy, State.retire]
  refine ⟨?_, ?_, fun x hx => ?_⟩
  · have hinput : (y.setThread th (id (y.thread th)).advance).inputSt f.input = y.inputSt f.input := rfl
    rw [hinput, hy, State.inputSt_setInput]
  · rw [State.thread_setThread, hythread, hwthread]; rfl
  · rw [State.thread_setThread_ne _ _ (Ne.symm hx), hythread, hwothers x hx]

/-- A credit that the thread holds is taken for the enqueue (R163). -/
theorem State.takeCredit_held {s : State} {th : Nat} (h : 0 < (s.thread th).credHeld) : ∃ v, s.takeCredit th = some v ∧ v.cfl = s.cfl
    ∧ v.thread th = { s.thread th with credHeld := (s.thread th).credHeld - 1, credFlight := (s.thread th).credFlight + 1 }
    ∧ ∀ x, x ≠ th → v.thread x = s.thread x := by
  obtain ⟨w, hw⟩ : ∃ w, w = s.setThread th { s.thread th with credHeld := (s.thread th).credHeld - 1, credFlight := (s.thread th).credFlight + 1 } :=
    ⟨_, rfl⟩
  have hinc : (w.modInc F.CLU_CREDIT_STAT.INFLIGHT (thCluster th) 1).eng = w.eng := State.setFld_eng _ _ _ _
  refine ⟨w.modInc F.CLU_CREDIT_STAT.INFLIGHT (thCluster th) 1, ?_, ?_, ?_, fun x hx => ?_⟩
  · rw [State.takeCredit, hw]
    dsimp only
    rw [if_pos h]
  · rw [State.modInc, State.setFld_cfl, hw]; rfl
  · rw [State.thread_congr (s := w) (by rw [hinc]) th, hw, State.thread_setThread]
  · rw [State.thread_congr (s := w) (by rw [hinc]) x, hw, State.thread_setThread_ne _ _ (Ne.symm hx)]

/-- A thread that holds a handle, with nothing to write first and its gate closed, enqueues it (R133, R134). -/
theorem State.enqueueOp_sent {s : State} {th : Nat} {h fword : Word} (kind : CommitKind) {f : FrameRec} (hfifo : (s.thread th).wfifo = [])
    (hgate : (s.thread th).gated = false) (hholds : (s.thread th).handles.contains h = true) (hframe : s.handleFrame h = some f)
    (hboard : f.board = none) (htimely : f.input = .none ∨ (s.inputSt f.input).isLate f.seq = false) (hcred : 0 < (s.thread th).credHeld)
    (hlen : fword.toNat % 65536 ≠ 0) (hroom : fword.toNat / 65536 + fword.toNat % 65536 ≤ f.cells * 256) :
    Sent s th { s.thread th with credHeld := (s.thread th).credHeld - 1, credFlight := (s.thread th).credFlight + 1 } f.input
      { seq := f.seq, kind := kind, handle := h, fword := fword, th := some th } (s.enqueueOp th h fword kind) := by
  obtain ⟨v, hv, hcfl, hthread, hothers⟩ := s.takeCredit_held hcred
  obtain ⟨hlow, hhigh, -, -⟩ := fieldOf_halves fword
  have hop : s.enqueueOp th h fword kind = v.enqSend th h fword kind := by
    rw [State.enqueueOp, hlow, hhigh, if_neg hlen, if_neg (State.handle_has_room hholds hframe hroom), State.payDrain_of_empty hfifo]
    dsimp only
    rw [hgate, Bool.false_and, if_neg (by simp), hv]
  rw [hop]
  exact State.enqSend_sent hcfl hthread rfl hothers hframe hboard htimely

/-- DROP of a handle that the thread holds (R132, R134). -/
theorem State.drop_sent {s : State} {th : Nat} {h : Word} {reason : BitVec 8} {f : FrameRec} (hframe : s.handleFrame h = some f)
    (hboard : f.board = none) (htimely : f.input = .none ∨ (s.inputSt f.input).isLate f.seq = false) :
    Sent s th (s.thread th) f.input { seq := f.seq, kind := .drop reason, handle := h, fword := 0, th := none }
      (((s.unhold th h).dropHandle h reason).retire th id) := by
  obtain ⟨w, hw⟩ : ∃ w, w = (s.unhold th h).setFrame (handleFirst h) (some f.released) := ⟨_, rfl⟩
  have hwinput : ∀ i, w.inputSt i = s.inputSt i := fun i => State.inputSt_congr (by rw [hw]; rfl) i
  have hwthread : w.thread th = { s.thread th with handles := (s.thread th).handles.erase h } := by
    rw [hw]; exact State.thread_setThread _ _ _
  have hwothers : ∀ x, x ≠ th → w.thread x = s.thread x := fun x hx => by
    rw [hw]; exact State.thread_setThread_ne _ _ (Ne.symm hx)
  obtain ⟨y, hy⟩ : ∃ y, y = w.setInput f.input { s.inputSt f.input with
      wait := (s.inputSt f.input).wait ++ [{ seq := f.seq, kind := .drop reason, handle := h, fword := 0, th := none }] } := ⟨_, rfl⟩
  have hdrop : (s.unhold th h).dropHandle h reason = y := by
    rw [State.dropHandle, State.handleFrame_congr (s := s) (t := s.unhold th h) rfl h, hframe]
    dsimp only
    rw [hboard]
    dsimp only
    rw [FrameRec.released] at hw
    rw [← hw, State.sendCommit_timely (by rw [hwinput]; exact htimely), hwinput, hy]
  have hythread : ∀ x, y.thread x = w.thread x := fun x => by rw [hy]; rfl
  rw [hdrop, State.retire]
  refine ⟨?_, ?_, fun x hx => ?_⟩
  · have hinput : (y.setThread th (id (y.thread th)).advance).inputSt f.input = y.inputSt f.input := rfl
    rw [hinput, hy, State.inputSt_setInput]
  · rw [State.thread_setThread, hythread, hwthread]; rfl
  · rw [State.thread_setThread_ne _ _ (Ne.symm hx), hythread, hwothers x hx]

/-! ## DMA instructions (R135, R439) -/

theorem State.dmaCh_setDma (s : State) (ch x : Nat) (c : DmaCh) : (s.setDma ch c).dmaCh x = if x = ch then c else s.dmaCh x := by
  rw [State.dmaCh, State.setDma, State.putDma_dma, Tbl.get_set]
  by_cases h : x = ch
  · rw [if_pos h.symm, if_pos h]
  · rw [if_neg (Ne.symm h), if_neg h]; rfl

/-- The channel that g[rs1] names (R135). -/
theorem State.dmaOp_channel {s : State} {th : Nat} {rs1 : BitVec 5} (f : Nat → State) (h : ((s.thread th).gr rs1).toNat < 16) :
    s.dmaOp th rs1 f = f (th / 512 * 16 + ((s.thread th).gr rs1).toNat) := by
  have hlow : fieldOf ((s.thread th).gr rs1) 3 0 = ((s.thread th).gr rs1).toNat := by rw [fieldOf_eq]; norm_num; omega
  rw [State.dmaOp, fieldOf_eq, if_neg (by norm_num; omega), hlow]
  rfl

/-- The result of a DMA instruction: g[rd], and one channel. -/
structure GivesChannel (s : State) (th : Nat) (rd : BitVec 5) (v : Word) (ch : Nat) (c : DmaCh) (u : State) : Prop where
  channel : u.dmaCh ch = c
  others : ∀ x, x ≠ ch → u.dmaCh x = s.dmaCh x
  steps : StepsOver (s.thread th) (u.thread th)
  keeps : KeepsButRegs (s.thread th) (u.thread th)
  regs : RegsBut (s.thread th) (u.thread th) rd v

theorem givesChannel_result {s u : State} {th ch : Nat} {rd : BitVec 5} {c : DmaCh} (src : Bool) (v : Word) (hthread : u.thread th = s.thread th)
    (hch : ∀ x, u.dmaCh x = if x = ch then c else s.dmaCh x) : GivesChannel s th rd v ch c (u.result th rd src v) := by
  obtain ⟨-, hsteps, hkeeps, hregs⟩ := u.result_gives th rd src v
  rw [hthread] at hsteps hkeeps hregs
  exact ⟨(hch ch).trans (if_pos rfl), fun x hx => (hch x).trans (if_neg hx), hsteps, hkeeps, hregs⟩

theorem Tbl.mem_ins {β : Type} {k : Nat} {v : β} {t : Tbl β} {e : Nat × β} (h : e ∈ Tbl.ins k v t) : e = (k, v) ∨ e ∈ t := by
  induction t with
  | nil => exact .inl (List.mem_singleton.mp h)
  | cons x t ih =>
    obtain ⟨j, w⟩ := x
    rw [Tbl.ins] at h
    split at h
    · exact List.mem_cons.mp h
    · split at h
      · exact (List.mem_cons.mp h).imp_right (List.mem_cons_of_mem _)
      · rcases List.mem_cons.mp h with rfl | h
        · exact .inr List.mem_cons_self
        · exact (ih h).imp_right (List.mem_cons_of_mem _)

/-- A thread that runs may be written back as it is: what stood in the way of its accesses is as it was. -/
theorem unhindered_setThread {s : State} {th : Nat} (hready : (s.thread th).run = .ready) (h : Unhindered s th) :
    Unhindered (s.setThread th (s.thread th)) th := by
  obtain ⟨hecc, hgate, hbufs, hlook, hbusy⟩ := h
  have hne := Thread.ne_reset_of_ready hready
  have hmem : ∀ e ∈ (s.setThread th (s.thread th)).eng.thr, e ∈ s.eng.thr := by
    intro e he
    have hins : e ∈ Tbl.ins th (s.thread th) s.eng.thr := by
      rwa [State.setThread, State.putEng_eng, Tbl.set, if_neg hne] at he
    rcases Tbl.mem_ins hins with rfl | h
    · exact Tbl.mem_of_get_ne hne
    · exact h
  refine ⟨hecc, ?_, fun e he => hbufs e (hmem e he), ?_, ?_⟩
  all_goals rw [State.thread_setThread]; assumption

/-- The descriptor that DMAS loads from cluster memory (R135, R431). -/
def State.descAt (s : State) (th a : Nat) : DmaDesc :=
  { words := (List.range 8).map (fun i => BitVec.ofNat 32 (beNat (s.nearBytes th 1 (a + 4 * i) 4)))
    th := th, inst := (s.thread th).inst, gated := false, failed := false, started := false, down := false, moved := 0, held := none }

theorem State.part_nearBytes (s : State) (th : Nat) (sp : BitVec 2) (a : Nat) {n i k : Nat} (h : i + k ≤ n) :
    ((s.nearBytes th sp a n).drop i).take k = s.nearBytes th sp (a + i) k := by
  apply List.ext_getElem
  · simp only [List.length_take, List.length_drop, State.length_nearBytes]; omega
  · intro j _ _
    simp only [State.nearBytes, List.getElem_take, List.getElem_drop, List.getElem_map, List.getElem_range, Nat.add_assoc]

theorem dmaDescOf_nearBytes (s : State) (th a : Nat) (hgate : (s.thread th).gated = false) :
    dmaDescOf th (s.thread th) (s.nearBytes th 1 a 32) = s.descAt th a := by
  have hwords : (List.range 8).map (fun i => bytesWord (((s.nearBytes th 1 a 32).drop (4 * i)).take 4))
      = (List.range 8).map (fun i => BitVec.ofNat 32 (beNat (s.nearBytes th 1 (a + 4 * i) 4))) :=
    List.map_congr_left fun i hi => by
      have hlt : i < 8 := List.mem_range.mp hi
      rw [bytesWord, State.part_nearBytes _ _ _ _ (by omega)]
  rw [dmaDescOf, hwords, hgate]
  rfl

/-- DMAS reads its descriptor and gives what the channel makes of it (R135). -/
theorem completes_dmas {s : State} {th : Nat} {rd rs1 rs2 : BitVec 5} {P : State → Prop} (hrun : Runs s th) (hb : th < 32768)
    (hun : Unhindered s th) (hposted : (s.thread th).posted = []) (hch : ((s.thread th).gr rs1).toNat < 16)
    (halign : ((s.thread th).gr rs2).toNat % 32 = 0) (ha : ((s.thread th).gr rs2).toNat < 0x400000)
    (hP : ∀ (v : State) (src : Bool), v.thread th = s.thread th → (∀ x, v.dmaCh x = s.dmaCh x) →
      let r := v.dmaLoad (th / 512 * 16 + ((s.thread th).gr rs1).toNat) (s.descAt th ((s.thread th).gr rs2).toNat)
      P (r.2.result th rd src (BitVec.ofNat 32 r.1))) :
    Completes (.dmas th rd rs1 rs2) s P := by
  obtain ⟨v, hv⟩ : ∃ v, v = s.setThread th (s.thread th) := ⟨_, rfl⟩
  have hunv : Unhindered v th := hv ▸ unhindered_setThread hrun.ready hun
  have hbytes : v.nearBytes th 1 ((s.thread th).gr rs2).toNat 32 = s.nearBytes th 1 ((s.thread th).gr rs2).toNat 32 := by rw [hv]; rfl
  have hread : v.spaceRead th .clu ((s.thread th).gr rs2).toNat 32 = (.ok (s.nearBytes th 1 ((s.thread th).gr rs2).toNat 32), v) := by
    rw [← hbytes]; exact State.spaceRead_near (sp := 1) (.inr ⟨rfl, hb⟩) hunv _ _
  have hchannels : ∀ x, v.dmaCh x = s.dmaCh x := fun x => by rw [hv]; rfl
  refine .of_eq (congrArg done (s.issue_board th _ hrun hb)) ?_
  rw [State.dmaOp_channel _ hch]
  dsimp only
  rw [if_neg (by omega), if_neg (by omega), State.drainShared_of_empty hposted, ← hv, hread]
  dsimp only
  rw [dmaDescOf_nearBytes s th _ hun.2.1]
  exact hP v _ (by rw [hv, State.thread_setThread]) hchannels

end Sys2Proof.Machine
end

section
namespace Sys2Proof.Machine

/-! ## The lookup instructions one by one (R129, R219, R241, R245) -/

theorem completes_dlk {s : State} {th : Nat} {rd rs1 : BitVec 5} {bd ba : BitVec 3} (hrun : Runs s th) (hb : th < 32768)
    (hfree : (s.thread th).bBusy = 0) (htable : ((s.thread th).gr rs1).toNat / 4096 = 0) :
    Completes (.dlk th rd rs1 bd ba) s (WaitsForLookup th rd
      (BitVec.ofNat 32 (s.diceLookup (thBoard th) (((s.thread th).gr rs1).toNat % 4096) (beBytes 16 ((s.thread th).br ba).toNat)).1)) := by
  refine .of_eq (congrArg done (s.blockIssue_board th _ _ hrun hb hfree)) ?_
  rw [State.diceOp_table _ htable]
  exact waitsForLookup_awaitAnswer _ _ _

theorem completes_flk {s : State} {th : Nat} {rd : BitVec 5} {bd ba bb : BitVec 3} (hrun : Runs s th) (hb : th < 32768)
    (hfree : (s.thread th).bBusy = 0) : Completes (.flk th rd bd ba bb) s (WaitsForLookup th rd
      (s.flowLookup (thBoard th) (beBytes 16 ((s.thread th).br ba).toNat ++ beBytes 16 ((s.thread th).br bb).toNat)).1) := by
  refine .of_eq (congrArg done (s.blockIssue_board th _ _ hrun hb hfree)) ?_
  exact waitsForLookup_awaitAnswer _ _ _

theorem completes_fins {s : State} {th : Nat} {rd : BitVec 5} {bd ba bb : BitVec 3} (hrun : Runs s th) (hb : th < 32768)
    (hfree : (s.thread th).bBusy = 0) (hgate : (s.thread th).gated = false) : Completes (.fins th rd bd ba bb) s (WaitsForLookup th rd
      (s.flowInsert (thBoard th) ((s.thread th).inst.toNat % 65536)
        (beBytes 16 ((s.thread th).br ba).toNat ++ beBytes 16 ((s.thread th).br bb).toNat) ((s.thread th).br bd)).1) := by
  refine .of_eq (congrArg done (s.blockIssue_board th _ _ hrun hb hfree)) ?_
  rw [State.unlessOpen_closed _ hgate]
  dsimp only
  rw [instance_eq]
  exact waitsForLookup_awaitAnswer _ _ _

theorem completes_fdel {s : State} {th : Nat} {rd : BitVec 5} {ba bb : BitVec 3} (hrun : Runs s th) (hb : th < 32768)
    (hfree : (s.thread th).bBusy = 0) (hgate : (s.thread th).gated = false) : Completes (.fdel th rd ba bb) s (WaitsForLookup th rd
      (s.flowDelete (thBoard th) (beBytes 16 ((s.thread th).br ba).toNat ++ beBytes 16 ((s.thread th).br bb).toNat)).1) := by
  refine .of_eq (congrArg done (s.blockIssue_board th _ _ hrun hb hfree)) ?_
  rw [State.unlessOpen_closed _ hgate]
  exact waitsForLookup_awaitAnswer _ _ _

/-- The lane of an IPv4 address: the first 32 bits of the block (R245). -/
theorem laneGet_zero (b : Block) : (laneGet b 0).toNat = b.toNat / 2 ^ 96 := by
  have hb : b.toNat < 2 ^ 128 := b.isLt
  rw [toNat_laneGet]
  exact Nat.mod_eq_of_lt (Nat.div_lt_of_lt_mul (by norm_num at hb ⊢; exact hb))

theorem completes_tlk {s : State} {th : Nat} {rd rs1 : BitVec 5} {ba : BitVec 3} (hrun : Runs s th) (hb : th < 32768)
    (hfree : (s.thread th).bBusy = 0) (htable : ((s.thread th).gr rs1).toNat / 8192 = 0) :
    Completes (.tlk th rd rs1 ba) s (WaitsForLookup th rd
      (s.deltaLookup (decide (4096 ≤ ((s.thread th).gr rs1).toNat)) (((s.thread th).gr rs1).toNat % 4096)
        (if 4096 ≤ ((s.thread th).gr rs1).toNat then ((s.thread th).br ba).toNat else ((s.thread th).br ba).toNat / 2 ^ 96))) := by
  have hv6 : (fieldOf ((s.thread th).gr rs1) 12 12 == 1) = decide (4096 ≤ ((s.thread th).gr rs1).toNat) := by
    rw [fieldOf_eq, Bool.eq_iff_iff, beq_iff_eq, decide_eq_true_iff]
    norm_num
    omega
  have hvrf : fieldOf ((s.thread th).gr rs1) 11 0 = ((s.thread th).gr rs1).toNat % 4096 := by rw [fieldOf_eq]; norm_num
  have htop : fieldOf ((s.thread th).gr rs1) 31 13 = 0 := by rw [fieldOf_eq]; norm_num; omega
  refine .of_eq (congrArg done (s.blockIssue_board th _ _ hrun hb hfree)) ?_
  dsimp only
  rw [hv6, hvrf, laneGet_zero, if_neg (show ¬ fieldOf ((s.thread th).gr rs1) 31 13 ≠ 0 by rw [htop]; decide)]
  simp only [decide_eq_true_eq]
  exact waitsForLookup_awaitAnswer _ _ _

/-! ## The queue instructions one by one (R132 to R134, R301) -/

theorem completes_enq {s : State} {th : Nat} {rd rs1 rs2 : BitVec 5} {P : State → Prop} (hrun : Runs s th) (hb : th < 32768)
    (hkind : ((s.thread th).gr rs2).toNat / 2 ^ 20 % 4 ≠ 3) (htop : ((s.thread th).gr rs2).toNat / 2 ^ 29 = 0)
    (hP : P (s.enqueueOp th ((s.thread th).gr rs1) ((s.thread th).gr rd) (.enq ((s.thread th).gr rs2)))) :
    Completes (.enq th rd rs1 rs2) s P := by
  refine .of_eq (congrArg done (s.issue_board th _ hrun hb)) ?_
  dsimp only
  rw [fieldOf_eq, fieldOf_eq, htop, if_neg (by rintro (h | h) <;> [exact hkind h; exact h rfl])]
  exact hP

theorem completes_enqm {s : State} {th : Nat} {rd rs1 rs2 : BitVec 5} {P : State → Prop} (hrun : Runs s th) (hb : th < 32768)
    (htop : ((s.thread th).gr rs2).toNat / 65536 = 0)
    (hP : P (s.enqueueOp th ((s.thread th).gr rs1) ((s.thread th).gr rd) (.enqm (BitVec.ofNat 16 ((s.thread th).gr rs2).toNat)))) :
    Completes (.enqm th rd rs1 rs2) s P := by
  have hzero : fieldOf ((s.thread th).gr rs2) 31 16 = 0 := by rw [fieldOf_eq]; norm_num; omega
  refine .of_eq (congrArg done (s.issue_board th _ hrun hb)) ?_
  dsimp only
  rw [if_neg (by simp [hzero]), ← BitVec.ofNat_toNat]
  exact hP

theorem completes_drop {s : State} {th : Nat} {rs1 rs2 : BitVec 5} {P : State → Prop} (hrun : Runs s th) (hb : th < 32768)
    (hfifo : (s.thread th).wfifo = []) (hholds : (s.thread th).handles.contains ((s.thread th).gr rs1) = true)
    (htop : ((s.thread th).gr rs2).toNat / 256 = 0)
    (hP : P (((s.unhold th ((s.thread th).gr rs1)).dropHandle ((s.thread th).gr rs1) (BitVec.ofNat 8 ((s.thread th).gr rs2).toNat)).retire th id)) :
    Completes (.drop th rs1 rs2) s P := by
  have hx : ((s.thread th).gr rs2).toNat < 2 ^ 32 := ((s.thread th).gr rs2).isLt
  have hzero : fieldOf ((s.thread th).gr rs2) 31 8 = 0 := by rw [fieldOf_eq]; norm_num; omega
  refine .of_eq (congrArg done (s.issue_board th _ hrun hb)) ?_
  dsimp only
  rw [if_neg (by simp [hzero]), if_neg (by rw [Thread.holds, hholds]; simp), State.payDrain_of_empty hfifo, ← BitVec.ofNat_toNat]
  exact hP

theorem completes_polc {s : State} {th : Nat} {rd rs1 rs2 : BitVec 5} (hrun : Runs s th) (hb : th < 32768)
    (htop : ((s.thread th).gr rs1).toNat / 2 ^ 20 = 0) :
    Completes (.polc th rd rs1 rs2) s (fun u => (u.thread th).run = .stalled .unit ∧ ∃ a, (u.thread th).look = some a ∧ a.rd = rd
      ∧ a.value = BitVec.ofNat 32 (s.police (((s.thread th).gr rs1).toNat % 2 ^ 18) (((s.thread th).gr rs1).toNat / 2 ^ 18)
        ((s.thread th).gr rs2).toNat).1) := by
  have hzero : fieldOf ((s.thread th).gr rs1) 31 20 = 0 := by rw [fieldOf_eq]; norm_num; omega
  have hlow : fieldOf ((s.thread th).gr rs1) 17 0 = ((s.thread th).gr rs1).toNat % 2 ^ 18 := by rw [fieldOf_eq]; norm_num
  have hmode : fieldOf ((s.thread th).gr rs1) 19 18 = ((s.thread th).gr rs1).toNat / 2 ^ 18 := by rw [fieldOf_eq]; norm_num; omega
  refine .of_eq (congrArg done (s.issue_board th _ hrun hb)) ?_
  dsimp only
  rw [if_neg (by simp [hzero]), hlow, hmode, State.thread_awaitAnswer, if_pos rfl]
  exact ⟨rfl, _, rfl, rfl, rfl⟩

theorem completes_hnew {s : State} {th : Nat} {rd rs2 : BitVec 5} (hrun : Runs s th) (hb : th < 32768)
    (hlo : 1 ≤ ((s.thread th).gr rs2).toNat) (hhi : ((s.thread th).gr rs2).toNat ≤ 65536) (hfew : (s.thread th).handles.length < 4) :
    Completes (.hnew th rd rs2) s (fun u =>
      (u.thread th).run = .stalled (.hnew rd ((s.thread th).gr rs2).toNat ((s.thread th).tainted rs2))
        ∧ (u.thread th).pc = (s.thread th).pc ∧ u.cfl = s.cfl ∧ ∀ x, x ≠ th → u.thread x = s.thread x) := by
  obtain ⟨c, hc⟩ := s.stall_eq th (.hnew rd ((s.thread th).gr rs2).toNat ((s.thread th).tainted rs2))
  refine .of_eq (congrArg done (s.issue_board th _ hrun hb)) ?_
  dsimp only
  rw [if_neg (by omega), if_neg (by omega), State.thread_stall, if_pos rfl]
  exact ⟨rfl, rfl, by rw [hc]; rfl, fun x hx => by rw [State.thread_stall, if_neg hx]⟩

/-! ## The DMA instructions one by one (R135, R439) -/

theorem completes_dmaw {s : State} {th : Nat} {rd rs1 : BitVec 5} (hrun : Runs s th) (hb : th < 32768)
    (hch : ((s.thread th).gr rs1).toNat < 16) {ch : Nat} (h : ch = th / 512 * 16 + ((s.thread th).gr rs1).toNat)
    (hact : (s.dmaCh ch).act = none) (hshd : (s.dmaCh ch).shd = none) :
    Completes (.dmaw th rd rs1) s (GivesChannel s th rd (s.dmaCh ch).status ch { s.dmaCh ch with code := 0, side := 0, more := false }) := by
  refine .of_eq (congrArg done (s.issue_board th _ hrun hb)) ?_
  rw [State.dmaOp_channel _ hch, ← h]
  dsimp only
  rw [if_neg (by rw [hact, hshd]; decide)]
  exact givesChannel_result (u := s.setDma ch { s.dmaCh ch with code := 0, side := 0, more := false }) _ _ rfl fun x => s.dmaCh_setDma ch x _

theorem completes_dmap {s : State} {th : Nat} {rd rs1 : BitVec 5} (hrun : Runs s th) (hb : th < 32768)
    (hch : ((s.thread th).gr rs1).toNat < 16) {ch : Nat} (h : ch = th / 512 * 16 + ((s.thread th).gr rs1).toNat) :
    Completes (.dmap th rd rs1) s (GivesChannel s th rd (s.dmaCh ch).status ch (s.dmaCh ch)) := by
  refine .of_eq (congrArg done (s.issue_board th _ hrun hb)) ?_
  rw [State.dmaOp_channel _ hch, ← h]
  refine givesChannel_result _ _ rfl fun x => ?_
  split
  case isTrue hx => rw [hx]
  · rfl

/-- What a channel makes of a descriptor (R135): the active set, else the shadow set, else nothing. -/
theorem State.dmaLoad_spec {s : State} {ch : Nat} {d : DmaDesc} (hfailed : d.failed = false) :
    ((s.dmaCh ch).act = none → s.dmaLoad ch d = (0, s.setDma ch { s.dmaCh ch with act := some d }))
    ∧ ((s.dmaCh ch).act ≠ none → (s.dmaCh ch).shd = none → s.dmaLoad ch d = (1, s.setDma ch { s.dmaCh ch with shd := some d }))
    ∧ ((s.dmaCh ch).act ≠ none → (s.dmaCh ch).shd ≠ none → s.dmaLoad ch d = (2, s)) := by
  have hsome : ∀ {o : Option DmaDesc}, o ≠ none → ¬ o.isNone = true := fun ho h => ho (Option.isNone_iff_eq_none.mp h)
  refine ⟨fun hact => ?_, fun hact hshd => ?_, fun hact hshd => ?_⟩
  · rw [State.dmaLoad, if_pos (Option.isNone_iff_eq_none.mpr hact), hfailed]; rfl
  · rw [State.dmaLoad, if_neg (hsome hact), if_pos (Option.isNone_iff_eq_none.mpr hshd)]
  · rw [State.dmaLoad, if_neg (hsome hact), if_neg (hsome hshd)]

end Sys2Proof.Machine
end

section
namespace Sys2Proof.Machine

/-- What the statement says of a commit that was sent. -/
theorem Sent.says {s u : State} {th : Nat} {t : Thread} {i : Input} {c : CommitSlot} (h : Sent s th t i c u) (hpc : t.pc = (s.thread th).pc) :
    (u.inputSt i).wait = (s.inputSt i).wait ++ [c] ∧ (u.thread th).handles = (s.thread th).handles.erase c.handle
      ∧ (u.thread th).pc = (s.thread th).pc + 4 ∧ (∀ x, x ≠ th → u.thread x = s.thread x)
      ∧ (u.thread th).credHeld = t.credHeld ∧ (u.thread th).credFlight = t.credFlight := by
  rw [h.thread]
  exact ⟨h.waits, rfl, congrArg (· + 4) hpc, h.others, rfl, rfl⟩

/-- DINS and DDEL, once they are operations for a modify pipe (R221). -/
theorem completes_pipeOp {i : Instr} {s : State} {th : Nat} {rd : BitVec 5} {tn : Bool} {table : Nat} {key : List Byte} {rate : Bool}
    {mk : Nat → PipeOp} (hi : exec i s = done (s.pipeOp th rd tn table key rate mk)) :
    let r := s.pipeRoute (thBoard th) ((s.thread th).inst.toNat % 65536) table key rate
    (∀ st, r.1 = .inl st → Completes i s (WaitsForLookup th rd (BitVec.ofNat 32 st)))
    ∧ (∀ p, r.1 = .inr p → s.pipeHasRoom p = true → Completes i s (fun u => (u.thread th).run = .stalled (.pipe p s.look.pipeNext)
        ∧ (u.thread th).pc = (s.thread th).pc ∧ u.look.pipeNext = s.look.pipeNext + 1
        ∧ ∀ x, u.pipeQ x = if x = p then s.pipeQ p ++ [mk s.look.pipeNext] else s.pipeQ x))
    ∧ (∀ p, r.1 = .inr p → s.pipeHasRoom p = false → Completes i s (fun u => (u.thread th).run = .stalled (.pipeRoom p)
        ∧ (u.thread th).pc = (s.thread th).pc ∧ u.look = s.look)) := by
  obtain ⟨hnow, hroom, hfull⟩ := s.pipeOp_spec th rd tn table key rate mk
  rw [instance_eq] at hnow hroom hfull
  exact ⟨fun st h => .of_eq hi (hnow st h), fun p h hr => .of_eq hi (hroom p h hr), fun p h hr => .of_eq hi (hfull p h hr)⟩

/-- Settles O21: the lookups, the queue instructions and the DMA instructions, each by its own lemma. -/
theorem lookupQueueDma : Obligations.LookupQueueDma := by
  unfold Obligations.LookupQueueDma
  refine ⟨?_, ?_, ?_⟩
  · intro th rd rs1 bd ba bb s t table key waits inst piped
    refine ⟨fun hrun hb hfree hgate => ⟨fun htable => ⟨completes_dlk hrun hb hfree htable,
          completes_pipeOp (rd := rd) (tn := t.tainted rs1) (table := table) (key := key ba) (rate := true)
            (mk := fun n => .ins th n rd (t.tainted rs1) table inst (key ba) (key bb)) ?_,
          completes_pipeOp (rd := rd) (tn := t.tainted rs1) (table := table) (key := key ba) (rate := false)
            (mk := fun n => .del th n rd (t.tainted rs1) table (key ba)) ?_⟩,
        completes_flk hrun hb hfree, completes_fins hrun hb hfree hgate, completes_fdel hrun hb hfree hgate, completes_tlk hrun hb hfree⟩,
      fun a => completes_lookupResult,
      fun p n tn _ hstall hq => completes_lookupResult_pipe hstall hq rfl rfl (fun _ _ => rfl) (State.tablesOnly_pipeInsert _ _ _ _ _ _),
      fun p n tn _ hstall hq => completes_lookupResult_pipe hstall hq rfl rfl (fun _ _ => rfl) (State.tablesOnly_pipeDelete _ _ _ _)⟩
    · refine Eq.trans (congrArg done (s.blockIssue_board th _ _ hrun hb hfree)) ?_
      rw [State.unlessOpen_closed _ hgate, State.diceOp_table _ htable]
      dsimp only
      rw [instance_eq]
      rfl
    · refine Eq.trans (congrArg done (s.blockIssue_board th _ _ hrun hb hfree)) ?_
      rw [State.unlessOpen_closed _ hgate, State.diceOp_table _ htable]
      rfl
  · intro th rd rs1 rs2 f s hrun hb t h fw held sent
    refine ⟨fun hheld hcred hlen hroom => ?_, fun hheld htop => ?_, completes_polc hrun hb, completes_hnew hrun hb⟩
    · obtain ⟨hfifo, hgate, hholds, hframe, hboard, htimely⟩ := hheld
      have hsent : ∀ kind u, u = s.enqueueOp th h fw kind →
          (u.inputSt f.input).wait = (s.inputSt f.input).wait ++ [{ seq := f.seq, kind := kind, handle := h, fword := fw, th := some th }]
          ∧ (u.thread th).handles = t.handles.erase h ∧ (u.thread th).pc = t.pc + 4 ∧ (∀ x, x ≠ th → u.thread x = s.thread x)
          ∧ ((some th).isSome → (u.thread th).credHeld + 1 = t.credHeld ∧ (u.thread th).credFlight = t.credFlight + 1) := by
        rintro kind u rfl
        obtain ⟨hwait, hhandles, hpc, hothers, hheld, hflight⟩ :=
          (State.enqueueOp_sent kind hfifo hgate hholds hframe hboard htimely hcred hlen hroom).says rfl
        exact ⟨hwait, hhandles, hpc, hothers, fun _ => ⟨by rw [hheld]; exact Nat.sub_add_cancel hcred, hflight⟩⟩
      exact ⟨fun hkind htop => completes_enq hrun hb hkind htop (hsent _ _ rfl), fun htop => completes_enqm hrun hb htop (hsent _ _ rfl)⟩
    · obtain ⟨hfifo, -, hholds, hframe, hboard, htimely⟩ := hheld
      refine completes_drop hrun hb hfifo hholds htop ?_
      obtain ⟨hwait, hhandles, hpc, hothers, -, -⟩ :=
        (State.drop_sent (th := th) (reason := BitVec.ofNat 8 (t.gr rs2).toNat) hframe hboard htimely).says rfl
      exact ⟨hwait, hhandles, hpc, hothers, fun hnone => absurd hnone (by decide)⟩
  · intro th rd rs1 rs2 s hrun hb hun hposted t a ch d gives hch
    have hgives : ∀ {i : Instr} {v : Word} {c : DmaCh}, Completes i s (GivesChannel s th rd v ch c) → gives i v c := by
      rintro i v c ⟨u, hu, hchannel, hothers, hsteps, hkeeps, hregs⟩
      exact ⟨u, hu, hchannel, hothers, hsteps, hkeeps, hregs⟩
    refine ⟨fun hal ha hact => hgives (completes_dmas hrun hb hun hposted hch hal ha fun u src hthread hchannels => ?_),
      fun hal ha hact hshd => hgives (completes_dmas hrun hb hun hposted hch hal ha fun u src hthread hchannels => ?_),
      fun hal ha hact hshd => hgives (completes_dmas hrun hb hun hposted hch hal ha fun u src hthread hchannels => ?_),
      fun hact hshd => hgives (completes_dmaw hrun hb hch rfl hact hshd), hgives (completes_dmap hrun hb hch rfl)⟩
    all_goals
      obtain ⟨hfirst, hsecond, hthird⟩ := State.dmaLoad_spec (s := u) (ch := ch) (d := d) rfl
      rw [hchannels] at hfirst hsecond hthird
      dsimp only
    · rw [show u.dmaLoad ch (s.descAt th a) = _ from hfirst hact]
      exact givesChannel_result src 0 hthread fun x => by rw [State.dmaCh_setDma, hchannels]
    · rw [show u.dmaLoad ch (s.descAt th a) = _ from hsecond hact hshd]
      exact givesChannel_result src 1 hthread fun x => by rw [State.dmaCh_setDma, hchannels]
    · rw [show u.dmaLoad ch (s.descAt th a) = _ from hthird hact hshd]
      exact givesChannel_result src 2 hthread fun x => by
        rw [hchannels]
        split
        case isTrue hx => rw [hx]
        · rfl

end Sys2Proof.Machine
end

section
namespace Sys2Proof.Machine

/-! ## The end of a thread leaves it where it stopped (R126, R134, R143) -/

/-- A thread is at the same instruction, in the same run state, and as faulted as before. -/
def StaysPut (th : Nat) (s u : State) : Prop :=
  (u.thread th).pc = (s.thread th).pc ∧ (u.thread th).run = (s.thread th).run ∧ (u.thread th).faulted = (s.thread th).faulted

theorem StaysPut.refl (th : Nat) (s : State) : StaysPut th s s := ⟨rfl, rfl, rfl⟩

theorem StaysPut.trans {th : Nat} {s u v : State} (h : StaysPut th s u) (k : StaysPut th u v) : StaysPut th s v := by
  obtain ⟨hpc, hrun, hfaulted⟩ := h
  obtain ⟨kpc, krun, kfaulted⟩ := k
  exact ⟨kpc.trans hpc, krun.trans hrun, kfaulted.trans hfaulted⟩

theorem StaysPut.of_eng {th : Nat} {s u : State} (h : u.eng = s.eng) : StaysPut th s u := by
  rw [StaysPut, State.thread_congr (congrArg EngineUnit.thr h)]
  exact ⟨rfl, rfl, rfl⟩

theorem StaysPut.foldl {α : Type} {th : Nat} {f : State → α → State} (hf : ∀ s x, StaysPut th s (f s x)) (l : List α) (s : State) :
    StaysPut th s (l.foldl f s) :=
  List.foldlRecOn (motive := StaysPut th s) _ _ (.refl th s) fun u hu x _ => hu.trans (hf u x)

theorem State.staysPut_setThread (s : State) (th : Nat) {t : Thread} (hpc : t.pc = (s.thread th).pc) (hrun : t.run = (s.thread th).run)
    (hfaulted : t.faulted = (s.thread th).faulted) : StaysPut th s (s.setThread th t) := by
  rw [StaysPut, State.thread_setThread]
  exact ⟨hpc, hrun, hfaulted⟩

theorem State.staysPut_payDrain (s : State) (th : Nat) : StaysPut th s (s.payDrain th) := by
  obtain ⟨-, -, w, hw⟩ := s.onlyFifo_payDrain th
  rw [StaysPut, hw]
  exact ⟨rfl, rfl, rfl⟩

theorem State.staysPut_gateFail (s : State) (th : Nat) : StaysPut th s (s.gateFail th) := by
  by_cases hopen : (s.thread th).open_ = true
  · obtain ⟨⟨w, hw⟩, -, -⟩ := s.gateFail_of_open th hopen
    rw [StaysPut, hw]
    exact ⟨rfl, rfl, rfl⟩
  · rw [State.gateFail, if_pos (by simpa using hopen)]
    exact .refl th s

theorem State.eng_freeSlot (s : State) (b : Nat) (x : Option (Nat × Nat)) : (s.freeSlot b x).eng = s.eng := by
  cases x with
  | none => rfl
  | some p => simp only [State.freeSlot, State.putIntake_eng, State.setFld_eng]

theorem State.eng_updRef (s : State) (d : Option DescRef) (f : RingDesc → RingDesc) : (s.updRef d f).eng = s.eng := by
  cases d with
  | none => rfl
  | some d => simp only [State.updRef, apply_ite State.eng, State.setRing, State.putRing_eng, ite_self]

theorem State.eng_reclaimFrame (s : State) (first : Nat) : (s.reclaimFrame first).eng = s.eng := by
  rw [State.reclaimFrame]
  split
  · rfl
  case h_2 f _ => exact (State.eng_updRef (s.setFrame first none) f.desc _).trans rfl

theorem State.eng_retireCredit (s : State) (i : Input) : (s.retireCredit i).eng = s.eng := by
  cases i <;> rfl

/-- A drop uses no enqueue credit (R163): the commit stage leaves the threads alone. -/
theorem State.eng_sendCommit (s : State) (i : Input) {c : CommitSlot} (h : c.th = none) : (s.sendCommit i c).eng = s.eng := by
  rw [State.sendCommit]
  split
  · rw [State.lateSlot, State.slotCredit, h]
    dsimp only
    rw [State.satInc_eng]
    split
    · rw [State.eng_retireCredit, State.eng_reclaimFrame]
    · rfl
  · rfl

theorem State.eng_dropHandle (s : State) (h : Word) (reason : BitVec 8) : (s.dropHandle h reason).eng = s.eng := by
  rw [State.dropHandle]
  split
  · rfl
  · dsimp only
    rw [State.eng_sendCommit _ _ rfl]
    split
    · rw [State.eng_freeSlot]; rfl
    · rfl

theorem State.staysPut_gateDrop (th : Nat) (s : State) (h : Word) : StaysPut th s (State.gateDrop th s h) := by
  refine StaysPut.trans (u := s.unhold th h) (s.staysPut_setThread th rfl rfl rfl) (.of_eng ?_)
  rw [State.gateDrop, State.satInc_eng, State.eng_dropHandle]

theorem State.staysPut_gateResolve (s : State) (th : Nat) : StaysPut th s (s.gateResolve th) := by
  rw [State.gateResolve]
  split
  · exact ((s.staysPut_gateFail th).trans (State.staysPut_payDrain _ th)).trans (.foldl (State.staysPut_gateDrop th) _ _)
  · exact .refl th s

theorem State.staysPut_threadEnd (s : State) (th : Nat) : StaysPut th s (s.threadEnd th) := by
  obtain ⟨u, hu⟩ : ∃ u, u = (s.gateResolve th).payDrain th := ⟨_, rfl⟩
  have hdrained : StaysPut th s u := hu ▸ (s.staysPut_gateResolve th).trans (State.staysPut_payDrain _ th)
  have hdropped : StaysPut th u (u.setThread th { u.thread th with handles := [] }) := u.staysPut_setThread th rfl rfl rfl
  rw [State.threadEnd, ← hu]
  exact (hdrained.trans hdropped).trans (.of_eng (State.eng_foldl (fun v h => v.eng_dropHandle h 0) (u.thread th).handles _))

/-- A fault of a Board's thread stops it, marked faulted, at the instruction (R143, R157), whatever it holds. -/
theorem State.threadFault_stops (s : State) (th cause trap : Nat) (hb : th < 32768) :
    ((s.threadFault th cause trap).thread th).faulted = true ∧ ((s.threadFault th cause trap).thread th).run = .stopped
      ∧ ((s.threadFault th cause trap).thread th).pc = (s.thread th).pc := by
  obtain ⟨u, hu⟩ : ∃ u, u = (s.setThread th { s.thread th with faulted := true }).threadStopped th := ⟨_, rfl⟩
  have hthread : u.thread th = { s.thread th with run := .stopped, faulted := true, look := none } := by
    rw [hu, State.thread_threadStopped, if_pos rfl, State.thread_setThread]
  obtain ⟨-, hkeep, -⟩ := u.faultRecord_keeps th cause trap
  have hrec : (u.faultRecord th cause trap).thread th = u.thread th := hkeep th (.inl rfl)
  have hfault : s.threadFault th cause trap = (u.faultRecord th cause trap).threadEnd th := by
    rw [State.threadFault]
    dsimp only
    rw [if_neg (by simp [isMgmt, hb]), ← hu]
  obtain ⟨hpc, hrun, hfaulted⟩ := (u.faultRecord th cause trap).staysPut_threadEnd th
  rw [hfault, hpc, hrun, hfaulted, hrec, hthread]
  exact ⟨rfl, rfl, rfl⟩

end Sys2Proof.Machine
end

section
namespace Sys2Proof.Machine

/-! ## Microwords and nanowords (R185 to R188, R190) -/

theorem nanoField_eq (n : BitVec 128) (hi lo : Nat) : nanoField n hi lo = n.toNat / 2 ^ lo % 2 ^ (hi + 1 - lo) := bits_eq _ _ _

theorem nanoField_seq (n : BitVec 128) : nanoField n 127 124 = n.toNat / 2 ^ 124 := by
  have := n.isLt
  rw [nanoField_eq]
  omega

theorem microActs_iff (n : BitVec 128) : microActs n = true ↔ n.toNat / 2 ^ 124 = 4
    ∨ n.toNat / 2 ^ 124 < 6 ∧ ¬(n.toNat / 2 ^ 50 % 2 ^ 8 = 0 ∧ n.toNat / 2 ^ 76 % 2 ^ 5 = 0) := by
  rw [microActs, nanoField_seq, nanoField_eq, nanoField_eq]
  simp only [Bool.or_eq_true, Bool.and_eq_true, beq_iff_eq, bne_iff_ne, decide_eq_true_eq]
  omega

/-- The engine's microword for a thread (R185, R190, R191): its address behind the match table, the word, and its nanoword. -/
structure Fetches (s : State) (th : Nat) (a : BitVec 13) (mw : BitVec 24) (n : BitVec 128) : Prop where
  addr : matched (s.mcStore (thCluster th)).mtch (s.thread th).upc = a
  micro : Tbl.get (fun _ => 0) (s.mcStore (thCluster th)).micro a.toNat = mw
  nano : Tbl.get (fun _ => 0) (s.mcStore (thCluster th)).nano (mw.toNat / 2 ^ 14) = n

theorem matched_nil (a : BitVec 13) : matched [] a = a := by
  rw [matched]
  split <;> rfl

/-- A valid match entry that names an address redirects it (R190). -/
theorem matched_entry {k : Nat} {v : Word} {a : BitVec 13} (hk : k < 64) (ha : a.toNat < 0x1C00) (hvalid : v.getLsbD 31 = true)
    (hfrom : fieldOf v 12 0 = a.toNat) : matched [(k, v)] a = BitVec.ofNat 13 (fieldOf v 25 13) := by
  have hnames : (decide (k < 64) && v.getLsbD 31 && fieldOf v 12 0 == a.toNat) = true := by
    rw [decide_eq_true hk, hvalid, hfrom, beq_self_eq_true]; rfl
  have hfind := List.find?_cons_of_pos (l := []) (a := (k, v))
    (p := fun e : Nat × Word => decide (e.1 < 64) && e.2.getLsbD 31 && fieldOf e.2 12 0 == a.toNat) hnames
  rw [matched, if_neg (by omega), hfind]

/-- The match entry that redirects address a to x, valid in bit 31 (R190). -/
theorem matched_word {k x : Nat} {a : BitVec 13} (hk : k < 64) (ha : a.toNat < 0x1C00) (hx : x < 0x2000) :
    matched [(k, BitVec.ofNat 32 (2 ^ 31 + x * 2 ^ 13 + a.toNat))] a = BitVec.ofNat 13 x := by
  obtain ⟨v, hv⟩ : ∃ v, v = BitVec.ofNat 32 (2 ^ 31 + x * 2 ^ 13 + a.toNat) := ⟨_, rfl⟩
  have hword : v.toNat = 2 ^ 31 + x * 2 ^ 13 + a.toNat := by rw [hv, BitVec.toNat_ofNat]; omega
  have hvalid : v.getLsbD 31 = true := by
    rw [BitVec.getLsbD, hword, Nat.testBit_eq_decide_div_mod_eq]
    exact decide_eq_true (by omega)
  rw [← hv, matched_entry hk ha hvalid (by rw [fieldOf_eq, hword]; omega), fieldOf_eq, hword]
  congr 1
  omega

/-! ## The thread at its microword -/

/-- The state in which a microword acts: the thread stands at its address, and a free value's number is used up. -/
def State.onWord (s : State) (th : Nat) (a : BitVec 13) : State := (s.setThread th { s.thread th with upc := a }).draw

theorem State.thread_onWord (s : State) (th : Nat) (a : BitVec 13) : (s.onWord th a).thread th = { s.thread th with upc := a } :=
  State.thread_setThread _ _ _

theorem State.onWord_setThread {s : State} {th : Nat} (a : BitVec 13) {t : Thread} (hready : (s.thread th).run = .ready)
    (ht : t.run = .ready) : (s.onWord th a).setThread th t = (s.setThread th t).draw := by
  have hsame := s.setThread_setThread th (t := { s.thread th with upc := a }) (u := t) (Thread.ne_reset_of_ready hready)
    (Thread.ne_reset_of_ready ht)
  exact congrArg State.draw hsame

/-- A report changes nothing unless the thread waits (R186). -/
theorem State.report_of_not_stalled {s : State} {th : Nat} (n : BitVec 128) (h : ∀ w, (s.thread th).run ≠ .stalled w) :
    s.report th n = s := by
  rw [State.report]
  split
  case h_1 w hw => exact absurd hw (h w)
  · rfl

theorem State.report_of_stalled {s : State} {th : Nat} (n : BitVec 128) {w : Wait} (h : (s.thread th).run = .stalled w) :
    s.report th n = s.setThread th { s.thread th with stallCls := BitVec.ofNat 4 (nanoField n 70 67) } := by
  rw [State.report, h]

section
variable {s u : State} {th : Nat} {w : Word} {a : BitVec 13} {mw : BitVec 24} {n : BitVec 128}

theorem State.setUpc_toNat : (s.setUpc th a.toNat).draw = s.onWord th a := by
  rw [State.setUpc, BitVec.ofNat_toNat, BitVec.setWidth_eq, State.onWord]

/-- A microword whose FAULT_EN is set faults if condition 0 holds (R187). -/
theorem State.microword_faults (hf : Fetches s th a mw n) (hcheck : nanoField n 66 66 = 1)
    (hcond : (s.onWord th a).nanoCond th w (bit mw.toNat 13) n 0 = true) :
    s.microword th w = done ((s.onWord th a).fault th (nanoField n 65 62)) := by
  obtain ⟨rfl, hmicro, hnano⟩ := hf
  have hmw : bits mw.toNat 23 14 = mw.toNat / 2 ^ 14 := by rw [bits_eq]; omega
  rw [State.microword]
  rw [hmicro, hmw, hnano, State.setUpc_toNat]
  exact if_pos ⟨hcheck, hcond⟩

/-- A microword that acts for its instruction (R186, R189). -/
theorem State.microword_acts (hf : Fetches s th a mw n) (hcheck : nanoField n 66 66 = 0) (hacts : microActs n = true)
    (hu : (s.onWord th a).runInstr th w = done u) : s.microword th w = done (u.report th n) := by
  obtain ⟨rfl, hmicro, hnano⟩ := hf
  have hmw : bits mw.toNat 23 14 = mw.toNat / 2 ^ 14 := by rw [bits_eq]; omega
  rw [State.microword]
  rw [hmicro, hmw, hnano, State.setUpc_toNat, if_neg (by rw [hcheck]; simp), if_pos hacts, hu]
  rfl

/-- A microword that moves the microaddress or waits (R187). -/
theorem State.microword_steps (hf : Fetches s th a mw n) (hcheck : nanoField n 66 66 = 0) (hacts : microActs n = false)
    (hu : (s.onWord th a).microStep th w (bit mw.toNat 13) (bits mw.toNat 12 0) n = done u) :
    s.microword th w = done (u.report th n) := by
  obtain ⟨rfl, hmicro, hnano⟩ := hf
  have hmw : bits mw.toNat 23 14 = mw.toNat / 2 ^ 14 := by rw [bits_eq]; omega
  rw [State.microword]
  rw [hmicro, hmw, hnano, State.setUpc_toNat, if_neg (by rw [hcheck]; simp), if_neg (by simp [hacts]), hu]
  rfl

end

/-! ## SEQ (R187) -/

section
variable {s : State} {th next : Nat} {w : Word} {inv0 : Bool} {n : BitVec 128}

theorem State.microStep_next (h : nanoField n 127 124 = 0) : s.microStep th w inv0 next n = done (s.setUpc th next) := by
  rw [State.microStep, h]
  rfl

theorem State.microStep_goto (h : nanoField n 127 124 = 1) :
    s.microStep th w inv0 next n = done (s.setUpc th (next ||| s.mwayBits th w inv0 n)) := by
  rw [State.microStep, h]
  rfl

theorem State.microStep_call (h : nanoField n 127 124 = 2) : s.microStep th w inv0 next n
    = done (s.setThread th { s.thread th with
        upc := BitVec.ofNat 13 next, mstack := (((s.thread th).upc + 1) :: (s.thread th).mstack).take 4 }) := by
  rw [State.microStep, h]
  rfl

theorem State.microStep_ret (h : nanoField n 127 124 = 3) {a : BitVec 13} {l : List (BitVec 13)} (hstack : (s.thread th).mstack = a :: l) :
    s.microStep th w inv0 next n = done (s.setThread th { s.thread th with upc := a, mstack := l }) := by
  rw [State.microStep, h, hstack]
  rfl

/-- WAIT (R187): the thread goes on with condition 0, else it stays, in a long stall if STALL names a class. -/
theorem State.microStep_wait (h : nanoField n 127 124 = 5) : s.microStep th w inv0 next n
    = if s.nanoCond th w inv0 n 0 then done (s.setUpc th next)
      else if nanoField n 70 67 = 0 then done s else done (s.stall th .micro) := by
  rw [State.microStep, h]
  rfl

end

/-! ## Conditions (R187, R188) -/

section
variable {s : State} {th : Nat} {w : Word} {n : BitVec 128}

theorem State.nanoCond_zero (mw : Nat) (hinv : mw / 2 ^ 13 % 2 = 0) :
    s.nanoCond th w (bit mw 13) n 0 = s.microCond th w (n.toNat / 2 ^ 119 % 32) := by
  have hinv0 : bit mw 13 = false := by
    rw [bit, Nat.testBit_eq_decide_div_mod_eq]; exact decide_eq_false (by omega)
  rw [State.nanoCond, hinv0, nanoField_eq]
  exact Bool.bne_false _

/-- Condition 1 of the menu always holds. -/
theorem State.nanoCond_always {mw : Nat} (hinv : mw / 2 ^ 13 % 2 = 0) (h : n.toNat / 2 ^ 119 % 32 = 1) :
    s.nanoCond th w (bit mw 13) n 0 = true := by
  rw [State.nanoCond_zero mw hinv, h]
  rfl

/-- Condition 0 of the menu never holds. -/
theorem State.nanoCond_never {mw : Nat} (hinv : mw / 2 ^ 13 % 2 = 0) (h : n.toNat / 2 ^ 119 % 32 = 0) :
    s.nanoCond th w (bit mw 13) n 0 = false := by
  rw [State.nanoCond_zero mw hinv, h]
  rfl

theorem State.mwayBits_none {inv0 : Bool} (h : n.toNat / 2 ^ 101 % 8 = 0) : s.mwayBits th w inv0 n = 0 := by
  rw [State.mwayBits, nanoField_eq, show n.toNat / 2 ^ 101 % 2 ^ (103 + 1 - 101) = 0 from h]
  rfl

theorem State.mwayBits_one {inv0 : Bool} (h : n.toNat / 2 ^ 101 % 8 = 1) (hcond : s.nanoCond th w inv0 n 0 = true) :
    s.mwayBits th w inv0 n = 1 := by
  rw [State.mwayBits, nanoField_eq, show n.toNat / 2 ^ 101 % 2 ^ (103 + 1 - 101) = 1 from h]
  change 0 + b2n (s.nanoCond th w inv0 n 0) * 2 ^ 0 = 1
  rw [hcond]
  rfl

end
end Sys2Proof.Machine
end

section
namespace Sys2Proof.Machine

/-! ## The word of ADD (R109 to R111) -/

section
variable {w : Word} {rd rs1 rs2 : BitVec 5}

/-- A word that spells ADD has OP 0, F 0, and its registers in the fields of format R. -/
theorem add_fields (hw : w.toNat = rd.toNat * 2 ^ 21 + rs1.toNat * 2 ^ 16 + rs2.toNat * 2 ^ 11) :
    fOp w = 0 ∧ fieldOf w 10 0 = 0 ∧ fieldOf w 5 0 = 0 ∧ fRd w = rd ∧ fRs1 w = rs1 ∧ fRs2 w = rs2 := by
  have := rd.isLt
  have := rs1.isLt
  have := rs2.isLt
  simp only [fOp, fRd, fRs1, fRs2, fieldOf_eq, hw]
  refine ⟨by omega, by omega, by omega, ?_, ?_, ?_⟩ <;>
    exact BitVec.eq_of_toNat_eq (by rw [BitVec.toNat_ofNat]; omega)

theorem runWord_add (th : Nat) (hw : w.toNat = rd.toNat * 2 ^ 21 + rs1.toNat * 2 ^ 16 + rs2.toNat * 2 ^ 11) :
    runWord th w = some (execAdd th rd rs1 rs2) := by
  obtain ⟨hop, hfn, -, hrd, hrs1, hrs2⟩ := add_fields hw
  have hint : runInt th w = listed (execAdd th rd rs1 rs2) := by rw [runInt, hfn, hrd, hrs1, hrs2]; rfl
  have hlisted : listedWord th w = listed (execAdd th rd rs1 rs2) := by rw [listedWord, hop]; exact (if_pos rfl).trans hint
  rw [runWord, hlisted]
  rfl

theorem dispatchAddr_add (hw : w.toNat = rd.toNat * 2 ^ 21 + rs1.toNat * 2 ^ 16 + rs2.toNat * 2 ^ 11) : dispatchAddr w = 0 := by
  obtain ⟨hop, -, hf, -⟩ := add_fields hw
  rw [dispatchAddr, hop, hf, ite_self]
  rfl

end

/-! ## A thread whose instruction is dispatched still issues (R183, R196) -/

section
variable {s : State} {th : Nat}

theorem Runs.setThread {t : Thread} (h : Runs s th) (hready : t.run = .ready) (hpast : t.past = false) (hinstr : t.instr.isSome = true) :
    Runs (s.setThread th t) th := by
  obtain ⟨hissue, -, -⟩ := h
  have hthread : (s.setThread th t).thread th = t := State.thread_setThread s th t
  refine ⟨?_, hthread.symm ▸ hpast, by rw [State.fetchEcc, hthread, hinstr, Bool.or_true]; rfl⟩
  have hmc : s.mcLets th = true → (s.setThread th t).mcLets th = true := by
    intro h
    rw [State.mcLets, hthread, hinstr, Bool.or_true, Bool.and_true]
    rw [State.mcLets, Bool.or_eq_true, Bool.and_eq_true] at h
    exact Bool.or_eq_true_iff.mpr (h.imp id And.left)
  simp only [State.canIssue, Bool.and_eq_true, Bool.or_eq_true, hthread, Thread.isReady, hready] at hissue ⊢
  obtain ⟨⟨⟨⟨hexists, -⟩, hcur⟩, hreach⟩, hruns⟩ := hissue
  exact ⟨⟨⟨⟨hexists, rfl⟩, hcur⟩, hreach⟩, hruns.imp id fun ⟨hlets, hok⟩ => ⟨hmc hlets, hok⟩⟩

theorem Runs.draw (h : Runs s th) (hinstr : (s.thread th).instr.isSome = true) : Runs s.draw th := by
  obtain ⟨hissue, hpast, -⟩ := h
  refine ⟨hissue, hpast, ?_⟩
  have hthread : s.draw.thread th = s.thread th := rfl
  rw [State.fetchEcc, hthread, hinstr, Bool.or_true]
  rfl

theorem Runs.onWord (h : Runs s th) (hinstr : (s.thread th).instr.isSome = true) (a : BitVec 13) : Runs (s.onWord th a) th := by
  have ⟨_, hpast, _⟩ := h
  refine Runs.draw (h.setThread (t := { s.thread th with upc := a }) h.ready hpast hinstr) ?_
  rw [State.thread_setThread]
  exact hinstr

end

/-! ## The effect of ADD in its microword (R189) -/

/-- ADD has written g[rd] and the next instruction dispatches (R111, R187): pc moves on, and no other thread and no register changes. -/
structure Added (s : State) (th : Nat) (rd : BitVec 5) (v : Word) (u : State) : Prop where
  regs : RegsBut (s.thread th) (u.thread th) rd v
  steps : StepsOver (s.thread th) (u.thread th)
  mstack : (u.thread th).mstack = []
  instr : (u.thread th).instr = none
  words : u.regs = s.regs
  others : ∀ y, y ≠ th → u.thread y = s.thread y

/-- From s to u a thread moved in its microcode: its pc and registers, the other threads and the register words are as they were. -/
structure MicroMoved (s : State) (th : Nat) (u : State) : Prop where
  g : (u.thread th).g = (s.thread th).g
  pc : (u.thread th).pc = (s.thread th).pc
  past : (u.thread th).past = (s.thread th).past
  words : u.regs = s.regs
  others : ∀ y, y ≠ th → u.thread y = s.thread y

theorem MicroMoved.refl (s : State) (th : Nat) : MicroMoved s th s := ⟨rfl, rfl, rfl, rfl, fun _ _ => rfl⟩

theorem MicroMoved.trans {s u v : State} {th : Nat} (h : MicroMoved s th u) (k : MicroMoved u th v) : MicroMoved s th v :=
  ⟨k.g.trans h.g, k.pc.trans h.pc, k.past.trans h.past, k.words.trans h.words, fun y hy => (k.others y hy).trans (h.others y hy)⟩

theorem State.dispatched_of_ready {s : State} {th : Nat} (h : (s.thread th).run = .ready) :
    s.dispatched th = s.setThread th { s.thread th with mstack := [], instr := none } := by
  rw [State.dispatched]
  dsimp only
  rw [h]

/-- What the microword of an ADD leaves. -/
theorem State.runInstr_add {s u : State} {th : Nat} {w : Word} {rd rs1 rs2 : BitVec 5} (hmoved : MicroMoved s th u) (hrun : Runs u th)
    (hw : w.toNat = rd.toNat * 2 ^ 21 + rs1.toNat * 2 ^ 16 + rs2.toNat * 2 ^ 11) :
    ∃ v, u.runInstr th w = done v ∧ (v.thread th).run = .ready ∧ Added s th rd ((s.thread th).gr rs1 + (s.thread th).gr rs2) v := by
  obtain ⟨hg, hpc, hpast, hwords, hothers⟩ := hmoved
  have hgr : ∀ r, (u.thread th).gr r = (s.thread th).gr r := fun r => by rw [Thread.gr, hg, ← Thread.gr]
  obtain ⟨x, hx⟩ : ∃ x, x = u.result th rd ((u.thread th).tainted rs1 || (u.thread th).tainted rs2)
    ((u.thread th).gr rs1 + (u.thread th).gr rs2) := ⟨_, rfl⟩
  obtain ⟨honly, ⟨hstep, hend⟩, hkeeps, hput⟩ : GivesReg u th rd ((u.thread th).gr rs1 + (u.thread th).gr rs2) x :=
    hx ▸ State.result_gives _ _ _ _ _
  have hready : (x.thread th).run = .ready := by rw [hkeeps]; exact hrun.ready
  refine ⟨x.setThread th { x.thread th with mstack := [], instr := none }, ?_, ?_, ?_⟩
  · have hexec : execAdd th rd rs1 rs2 u = done x := hx ▸ congrArg done (u.issue_runs th _ hrun)
    rw [State.runInstr, runWord_add th hw]
    dsimp only
    rw [hexec]
    exact congrArg done (State.dispatched_of_ready hready)
  · rw [State.thread_setThread]; exact hready
  · rw [hgr, hgr] at hput
    constructor
    case others =>
      intro y hy
      rw [State.thread_setThread_ne _ _ (Ne.symm hy), honly, State.thread_setThread_ne _ _ (Ne.symm hy), hothers y hy]
    case words => rw [State.setThread_regs, honly, State.setThread_regs, hwords]
    all_goals rw [State.thread_setThread]
    · exact fun r => (hput r).trans (by rw [hgr])
    · exact ⟨hstep.trans (by rw [hpc]), hend.trans (by rw [hpc, hpast])⟩

end Sys2Proof.Machine
end

section
namespace Sys2Proof.Machine

/-! ## One cycle of an engine (R153, R183, R187) -/

section
variable {s : State} {e th : Nat} {w : Word}

theorem State.dispatch_begun (hinstr : (s.thread th).instr = some ((s.thread th).pc, w)) : s.dispatch th = (some w, s) := by
  rw [State.dispatch, hinstr]
  exact if_pos rfl

/-- The state after the fetch of a new instruction (R153, R187). -/
def State.fetched (s : State) (th : Nat) (w : Word) : State :=
  s.setThread th { s.thread th with upc := dispatchAddr w, mstack := [], instr := some ((s.thread th).pc, w) }

theorem State.dispatch_new (hb : th < 32768) (hnone : (s.thread th).instr = none) (hecc : s.plat.ecc = [])
    (hw : s.progWord (th / 512) ((s.thread th).pc.toNat / 4) = w) : s.dispatch th = (some w, s.fetched th w) := by
  have hword : s.fetchWord th = (some w, s) := by
    rw [State.fetchWord, if_neg (by simp [isMgmt, hb])]
    dsimp only
    rw [State.eccRead_of_good hecc, ← hw]
    rfl
  rw [State.dispatch, hnone]
  dsimp only
  rw [State.fetchNew, hword]
  rfl

theorem State.microMoved_fetched (s : State) (th : Nat) (w : Word) : MicroMoved s th (s.fetched th w) := by
  constructor
  case words => rfl
  case others => exact fun y hy => State.thread_setThread_ne _ _ (Ne.symm hy)
  all_goals rw [State.fetched, State.thread_setThread]

theorem Runs.fetched (h : Runs s th) (w : Word) : Runs (s.fetched th w) th := by
  have ⟨_, hpast, _⟩ := h
  exact h.setThread (t := { s.thread th with upc := dispatchAddr w, mstack := [], instr := some ((s.thread th).pc, w) }) h.ready hpast rfl

/-- A cycle of a thread that runs: the dispatch, then a microword, or the whole instruction on a management engine. -/
theorem exec_cycle (hth : e * 8 + Tbl.get (fun _ => 0) s.eng.cur e % 8 = th) (hrun : Runs s th) {u : State}
    (hd : s.dispatch th = (some w, u)) : exec (.cycle e) s = if isMgmt th then u.runInstr th w else u.microword th w := by
  obtain ⟨hissue, hpast, -⟩ := hrun
  change execCycle e s = _
  rw [execCycle, hth, if_neg (by rw [hissue]; simp), if_neg (by rw [hpast]; simp), hd]

theorem exec_cycle_board (hth : e * 8 + Tbl.get (fun _ => 0) s.eng.cur e % 8 = th) (hrun : Runs s th) {u : State}
    (hb : th < 32768) (hd : s.dispatch th = (some w, u)) : exec (.cycle e) s = u.microword th w := by
  rw [exec_cycle hth hrun hd, if_neg (by simp [isMgmt, hb])]

theorem exec_cycle_mgmt (hth : e * 8 + Tbl.get (fun _ => 0) s.eng.cur e % 8 = th) (hrun : Runs s th) {u : State}
    (hb : 32768 ≤ th) (hd : s.dispatch th = (some w, u)) : exec (.cycle e) s = u.runInstr th w := by
  rw [exec_cycle hth hrun hd, if_pos (by simp [isMgmt, hb])]

end

/-! ## The cycle of a Board's engine, by what its microword does -/

section
variable {s : State} {e th : Nat} {w : Word} {a : BitVec 13} {mw : BitVec 24} {n : BitVec 128} {rd rs1 rs2 : BitVec 5}

theorem State.report_of_ready {u : State} (n : BitVec 128) (h : (u.thread th).run = .ready) : u.report th n = u :=
  State.report_of_not_stalled n fun x => by rw [h]; exact Run.noConfusion

theorem State.report_of_stopped {u : State} (n : BitVec 128) (h : (u.thread th).run = .stopped) : u.report th n = u :=
  State.report_of_not_stalled n fun x => by rw [h]; exact Run.noConfusion

/-- A microword that faults, or whose instruction is illegal, stops the thread at its instruction. -/
def Stops (s : State) (th : Nat) (u : State) : Prop :=
  (u.thread th).faulted = true ∧ (u.thread th).run = .stopped ∧ (u.thread th).pc = (s.thread th).pc

theorem State.onWord_stops (hb : th < 32768) (a : BitVec 13) (cause : Nat) : Stops s th ((s.onWord th a).fault th cause) := by
  obtain ⟨hfaulted, hrun, hpc⟩ := (s.onWord th a).threadFault_stops th cause 0 hb
  exact ⟨hfaulted, hrun, hpc.trans (by rw [State.thread_onWord])⟩

/-- An illegal instruction (R109). -/
theorem State.microword_illegal (hf : Fetches s th a mw n) (hcheck : nanoField n 66 66 = 0) (hacts : microActs n = true) (hb : th < 32768)
    (hw : runWord th w = none) : ∃ u, s.microword th w = done u ∧ Stops s th u := by
  have hstops := s.onWord_stops hb a fcIllegal
  have hrun : (s.onWord th a).runInstr th w = done ((s.onWord th a).fault th fcIllegal) := by rw [State.runInstr, hw]
  have ⟨_, hstopped, _⟩ := hstops
  exact ⟨_, (State.microword_acts hf hcheck hacts hrun).trans (congrArg done (State.report_of_stopped n hstopped)), hstops⟩

theorem State.microMoved_onWord (s : State) (th : Nat) (a : BitVec 13) : MicroMoved s th (s.onWord th a) := by
  constructor
  case words => rfl
  case others => exact fun y hy => State.thread_setThread_ne _ _ (Ne.symm hy)
  all_goals rw [State.thread_onWord]

/-- The microword of an ADD that requests its unit or dispatches the next instruction. -/
theorem State.microword_add {u : State} (hf : Fetches u th a mw n) (hcheck : nanoField n 66 66 = 0) (hacts : microActs n = true)
    (hrun : Runs u th) (hinstr : (u.thread th).instr.isSome = true)
    (hw : w.toNat = rd.toNat * 2 ^ 21 + rs1.toNat * 2 ^ 16 + rs2.toNat * 2 ^ 11) (hmoved : MicroMoved s th u) :
    ∃ v, u.microword th w = done v ∧ Added s th rd ((s.thread th).gr rs1 + (s.thread th).gr rs2) v := by
  obtain ⟨v, hv, hready, hadded⟩ := State.runInstr_add (hmoved.trans (u.microMoved_onWord th a)) (hrun.onWord hinstr a) hw
  exact ⟨v, (State.microword_acts hf hcheck hacts hv).trans (congrArg done (State.report_of_ready n hready)), hadded⟩

/-- A microword that goes on with a record of the thread. -/
theorem State.microword_goes {x : Thread} (hf : Fetches s th a mw n) (hcheck : nanoField n 66 66 = 0) (hacts : microActs n = false)
    (hready : (s.thread th).run = .ready) (hx : x.run = .ready)
    (hstep : (s.onWord th a).microStep th w (bit mw.toNat 13) (bits mw.toNat 12 0) n = done ((s.onWord th a).setThread th x)) :
    s.microword th w = done (s.setThread th x).draw := by
  rw [State.microword_steps hf hcheck hacts hstep, State.report_of_ready n (by rw [State.thread_setThread]; exact hx),
    State.onWord_setThread a hready hx]

theorem State.setUpc_onWord (k : Nat) : (s.onWord th a).setUpc th k
    = (s.onWord th a).setThread th { s.thread th with upc := BitVec.ofNat 13 k } := by
  rw [State.setUpc, State.thread_onWord]

/-- A WAIT that begins a long stall (R186, R187). -/
theorem State.microword_stalls (hf : Fetches s th a mw n) (hcheck : nanoField n 66 66 = 0) (hacts : microActs n = false)
    (hstep : (s.onWord th a).microStep th w (bit mw.toNat 13) (bits mw.toNat 12 0) n = done ((s.onWord th a).stall th .micro)) :
    ∃ u, s.microword th w = done u ∧ u.thread th = { s.thread th with
      upc := a, run := .stalled .micro, begun := true, stallCls := BitVec.ofNat 4 (nanoField n 70 67) } := by
  have hthread : ((s.onWord th a).stall th .micro).thread th = { s.thread th with upc := a, run := .stalled .micro, begun := true } := by
    rw [State.thread_stall, if_pos rfl, State.thread_onWord]
  refine ⟨_, (State.microword_steps hf hcheck hacts hstep).trans
    (congrArg done (State.report_of_stalled n (w := .micro) (by rw [hthread]))), ?_⟩
  rw [State.thread_setThread, hthread]

end

/-- Settles O27: a cycle is one microword (`exec_cycle_board`), which faults, acts for its instruction, or moves on by its SEQ; a
management engine's is the instruction (`exec_cycle_mgmt`). -/
theorem microSequencer : Obligations.MicroSequencer := by
  unfold Obligations.MicroSequencer
  intro s e mw n w rd rs1 rs2 th t m seq next quiet word add added hrun
  have hready : t.run = .ready := hrun.ready
  have hgives : ∀ {i : Instr}, (∃ v, exec i s = done v ∧ Added s th rd (t.gr rs1 + t.gr rs2) v) → Completes i s added := by
    rintro i ⟨v, hv, hregs, hsteps, hmstack, hinstr, hwords, hothers⟩
    exact ⟨v, hv, hregs, hsteps, hmstack, hinstr, hwords, hothers⟩
  have hseq : nanoField n 127 124 = seq := nanoField_seq n
  have hlow : bits mw.toNat 12 0 = next := by rw [bits_eq, Nat.pow_zero, Nat.div_one]
  have hfetch : m.mtch = [] → ∀ {a}, t.upc = a → Tbl.get (fun _ => 0) m.micro a.toNat = mw →
      Tbl.get (fun _ => 0) m.nano (mw.toNat / 2 ^ 14) = n → Fetches s th a mw n :=
    fun hm a ha hmicro hnano => ⟨by rw [← ha]; exact (congrArg (matched · t.upc) hm).trans (matched_nil _), hmicro, hnano⟩
  have hcheck : n.toNat / 2 ^ 66 % 2 = 0 → nanoField n 66 66 = 0 := fun h => (nanoField_eq n 66 66).trans h
  have hmoves : seq ≠ 4 → quiet → microActs n = false := by
    intro h4 hq
    rw [← Bool.not_eq_true, microActs_iff]
    rintro (h | ⟨-, h⟩)
    · exact h4 h
    · exact h hq
  refine ⟨fun hb hinstr hm hmicro hnano hfault hcond hinv => ?_, fun hb hinstr hnofault hnano => ?_,
    fun hb hinstr hecc hprog hw hm hmicro hnano hnofault h4 => ?_, fun hb hinstr hw => ?_⟩
  · have hstop := (exec_cycle_board rfl hrun hb (State.dispatch_begun hinstr)).trans
      (State.microword_faults (hfetch hm rfl hmicro hnano) ((nanoField_eq n 66 66).trans hfault) (State.nanoCond_always hinv hcond))
    exact .of_eq hstop (State.onWord_stops hb _ _)
  · have hcycle := exec_cycle_board rfl hrun hb (State.dispatch_begun hinstr)
    have hgoes : ∀ {a : BitVec 13} {x : Thread}, Fetches s th a mw n → seq ≠ 4 → quiet → x.run = .ready →
        (s.onWord th a).microStep th w (bit mw.toNat 13) next n = done ((s.onWord th a).setThread th x) →
        Completes (.cycle e) s (fun u => word u x) := fun hf h4 hq hx hstep =>
      .of_eq (hcycle.trans (State.microword_goes hf (hcheck hnofault) (hmoves h4 hq) hready hx (by rw [hlow]; exact hstep))) rfl
    refine ⟨fun hm hmicro => ?_, fun k x hk hlo hx hx' hm hmicro h0 hq => ?_⟩
    · have hf := hfetch hm rfl hmicro hnano
      have hthread := s.thread_onWord th t.upc
      refine ⟨fun h0 hq => hgoes hf (by omega) hq hready ?_, fun h1 hq hway => hgoes hf (by omega) hq hready ?_,
        fun h1 hq hway hcond hinv => hgoes hf (by omega) hq hready ?_, fun h2 hq => hgoes hf (by omega) hq hready ?_,
        fun a l h3 hq hstack => hgoes hf (by omega) hq hready ?_, fun hacts hw => hgives ?_,
        fun h5 hq hcond hinv => hgoes hf (by omega) hq hready ?_, fun h5 hq hcond hinv hcls => hgoes hf (by omega) hq hready ?_,
        fun h5 hq hcond hinv hcls => ?_, fun h4 hw => ?_⟩
      · rw [State.microStep_next (hseq.trans h0), State.setUpc_onWord]
      · rw [State.microStep_goto (hseq.trans h1), State.mwayBits_none hway, Nat.or_zero, State.setUpc_onWord]
      · rw [State.microStep_goto (hseq.trans h1), State.mwayBits_one hway (State.nanoCond_always hinv hcond), State.setUpc_onWord]
      · rw [State.microStep_call (hseq.trans h2), hthread]
      · rw [State.microStep_ret (hseq.trans h3) (by rw [hthread]; exact hstack), hthread]
      · rw [hcycle]
        exact State.microword_add hf (hcheck hnofault) ((microActs_iff n).mpr hacts) hrun (by rw [hinstr]; rfl) hw
          (.refl s th)
      · rw [State.microStep_wait (hseq.trans h5), if_pos (State.nanoCond_always hinv hcond), State.setUpc_onWord]
      · rw [State.microStep_wait (hseq.trans h5), if_neg (by rw [State.nanoCond_never hinv hcond]; simp),
          if_pos ((nanoField_eq n 70 67).trans hcls)]
        exact congrArg done (State.onWord_setThread t.upc hready hready).symm
      · obtain ⟨u, hu, hstall⟩ := State.microword_stalls hf (hcheck hnofault) (hmoves (by omega) hq) (w := w) (by
          rw [State.microStep_wait (hseq.trans h5), if_neg (by rw [State.nanoCond_never hinv hcond]; simp),
            if_neg fun h => hcls ((nanoField_eq n 70 67).symm.trans h)])
        refine .of_eq (hcycle.trans hu) ?_
        rw [hstall]
        refine ⟨rfl, ?_, rfl, rfl⟩
        rw [nanoField_eq]
        exact Nat.mod_eq_of_lt (Nat.mod_lt _ (by decide))
      · obtain ⟨u, hu, hstops⟩ := State.microword_illegal hf (hcheck hnofault) ((microActs_iff n).mpr (.inl h4)) hb hw
        exact .of_eq (hcycle.trans hu) hstops
    · have haddr : matched m.mtch t.upc = BitVec.ofNat 13 x := by rw [hm]; exact matched_word hk hlo hx'
      have hx13 : (BitVec.ofNat 13 x).toNat = x := Nat.mod_eq_of_lt hx'
      refine hgoes ⟨haddr, by rw [hx13]; exact hmicro, hnano⟩ (by omega) hq hready ?_
      rw [State.microStep_next (hseq.trans h0), State.setUpc_onWord]
  · have hfetched : (s.fetched th w).thread th = { t with upc := 0, mstack := [], instr := some (t.pc, w) } := by
      rw [State.fetched, State.thread_setThread, dispatchAddr_add hw]
    have hf : Fetches (s.fetched th w) th 0 mw n :=
      ⟨by rw [hfetched]; exact (congrArg (matched · 0) hm).trans (matched_nil 0), hmicro, hnano⟩
    refine hgives ?_
    rw [exec_cycle_board rfl hrun hb (State.dispatch_new hb hinstr hecc hprog)]
    exact State.microword_add hf (hcheck hnofault) ((microActs_iff n).mpr (.inl h4)) (hrun.fetched w) (by rw [hfetched]; rfl) hw
      (s.microMoved_fetched th w)
  · refine hgives ?_
    rw [exec_cycle_mgmt rfl hrun hb (State.dispatch_begun hinstr)]
    obtain ⟨v, hv, -, hadded⟩ := State.runInstr_add (.refl s th) hrun hw
    exact ⟨v, hv, hadded⟩

end Sys2Proof.Machine
end

section
namespace Sys2Proof.Machine

/-! ## What a write of one part of a line's record leaves (R167 to R170) -/

section
variable (s : State) (b n x m : Nat) (l : LineState) (d : DirEntry) (k : Nat) (h : HomeLine) (msg : Msg)

theorem State.lineSt_setLine : (s.setLine b n l).lineSt x m = if n * 8 + b = m * 8 + x then l else s.lineSt x m := Tbl.get_set _ _ _ _ _
@[simp] theorem State.lineSt_setLine_same : (s.setLine b n l).lineSt b n = l := Tbl.get_set_same _ _ _ _
@[simp] theorem State.lineSt_setDir : (s.setDir n d).lineSt x m = s.lineSt x m := rfl
@[simp] theorem State.lineSt_setDue : (s.setDue b n k).lineSt x m = s.lineSt x m := rfl
@[simp] theorem State.lineSt_setHomeLine : (s.setHomeLine n h).lineSt x m = s.lineSt x m := rfl
@[simp] theorem State.lineSt_emit : (s.emit msg).lineSt x m = s.lineSt x m := rfl

@[simp] theorem State.dirOf_setDir_same : (s.setDir n d).dirOf n = d := Tbl.get_set_same _ _ _ _
@[simp] theorem State.dirOf_setLine : (s.setLine b n l).dirOf m = s.dirOf m := rfl
@[simp] theorem State.dirOf_setDue : (s.setDue b n k).dirOf m = s.dirOf m := rfl
@[simp] theorem State.dirOf_setHomeLine : (s.setHomeLine n h).dirOf m = s.dirOf m := rfl
@[simp] theorem State.dirOf_emit : (s.emit msg).dirOf m = s.dirOf m := rfl

@[simp] theorem State.dueOf_setDue_same : (s.setDue b n k).dueOf b n = k := Tbl.get_set_same _ _ _ _
@[simp] theorem State.dueOf_setHomeLine : (s.setHomeLine n h).dueOf x m = s.dueOf x m := rfl
@[simp] theorem State.dueOf_emit : (s.emit msg).dueOf x m = s.dueOf x m := rfl

@[simp] theorem State.homeLine_setHomeLine_same : (s.setHomeLine n h).homeLine n = h := Tbl.get_set_same _ _ _ _
@[simp] theorem State.homeLine_setLine : (s.setLine b n l).homeLine m = s.homeLine m := rfl
@[simp] theorem State.homeLine_setDir : (s.setDir n d).homeLine m = s.homeLine m := rfl
@[simp] theorem State.homeLine_setDue : (s.setDue b n k).homeLine m = s.homeLine m := rfl
@[simp] theorem State.homeLine_emit : (s.emit msg).homeLine m = s.homeLine m := rfl

@[simp] theorem State.out_setLine : (s.setLine b n l).out = s.out := rfl
@[simp] theorem State.out_setDir : (s.setDir n d).out = s.out := rfl
@[simp] theorem State.out_setDue : (s.setDue b n k).out = s.out := rfl
@[simp] theorem State.out_setHomeLine : (s.setHomeLine n h).out = s.out := rfl
@[simp] theorem State.out_emit : (s.emit msg).out = s.out ++ [msg] := rfl

/-! ### A Board leaves the directory's record (R167) -/

theorem State.dirDrop_cases : s.dirDrop b n = s ∨ ∃ d, s.dirDrop b n = s.setDir n d := by
  rw [State.dirDrop]
  split
  · split
    · exact .inr ⟨_, rfl⟩
    · exact .inl rfl
  · exact .inr ⟨_, rfl⟩
  · exact .inl rfl

@[simp] theorem State.lineSt_dirDrop : (s.dirDrop b n).lineSt x m = s.lineSt x m := by
  obtain h | ⟨d, h⟩ := s.dirDrop_cases b n <;> rw [h]
  rfl

@[simp] theorem State.homeLine_dirDrop : (s.dirDrop b n).homeLine m = s.homeLine m := by
  obtain h | ⟨d, h⟩ := s.dirDrop_cases b n <;> rw [h]
  rfl

@[simp] theorem State.out_dirDrop : (s.dirDrop b n).out = s.out := by
  obtain h | ⟨d, h⟩ := s.dirDrop_cases b n <;> rw [h]
  rfl

@[simp] theorem State.acks_dirDrop : (s.dirDrop b n).hbm.acks = s.hbm.acks := by
  obtain h | ⟨d, h⟩ := s.dirDrop_cases b n <;> rw [h]
  rfl

/-- The owner of a line leaves it uncached. -/
theorem State.dirOf_dirDrop_owner {s : State} {n : Nat} {b : BitVec 3} (h : s.dirOf n = .owned b) :
    (s.dirDrop b.toNat n).dirOf n = .uncached := by
  rw [State.dirDrop, h]
  dsimp only
  rw [if_pos rfl, State.dirOf_setDir_same]

/-! ### Every copy of a line is dropped (R173) -/

theorem State.lineSt_foldl_setLine (l : List Nat) :
    (l.foldl (fun s b => s.setLine b n .i) s).lineSt x n = if x ∈ l then .i else s.lineSt x n := by
  induction l generalizing s with
  | nil => rfl
  | cons b l ih =>
    rw [List.foldl_cons, ih, State.lineSt_setLine]
    by_cases hx : x = b
    · simp [hx]
    · simp [hx, Ne.symm hx]

theorem State.lineSt_dropCopies (hx : x < 8) : (s.dropCopies n).lineSt x n = .i := by
  rw [State.dropCopies, State.lineSt_setDir, State.lineSt_foldl_setLine, if_pos (List.mem_range.mpr hx)]

@[simp] theorem State.homeLine_dropCopies : (s.dropCopies n).homeLine m = s.homeLine m := by
  rw [State.dropCopies, State.homeLine_setDir]
  exact List.foldlRecOn (motive := fun u => State.homeLine u m = s.homeLine m) _ _ rfl fun _ hu _ _ => hu

@[simp] theorem State.out_dropCopies : (s.dropCopies n).out = s.out := by
  rw [State.dropCopies, State.out_setDir]
  exact List.foldlRecOn (motive := fun u => State.out u = s.out) _ _ rfl fun _ hu _ _ => hu

end

end Sys2Proof.Machine
end

section
namespace Sys2Proof.Machine

/-! ## Masks of Boards (R171) -/

/-- The bit of a Board, as a number and as a mask. -/
theorem cast_board (b : BitVec 3) : ((1 <<< b.toNat : Nat) : BitVec 8) = (1 : BitVec 8) <<< b.toNat := by
  have hall : ∀ b : BitVec 3, ((1 <<< b.toNat : Nat) : BitVec 8) = (1 : BitVec 8) <<< b.toNat := by decide
  exact hall b

theorem ofNat_board (b : BitVec 3) : BitVec.ofNat 3 b.toNat = b := by rw [BitVec.ofNat_toNat, BitVec.setWidth_eq]

theorem getLsbD_board (b : BitVec 3) : ((1 : BitVec 8) <<< b.toNat).getLsbD b.toNat = true := by
  have hall : ∀ b : BitVec 3, ((1 : BitVec 8) <<< b.toNat).getLsbD b.toNat = true := by decide
  exact hall b

/-- One Board asks: whatever P is, it is the first. -/
theorem rankBoards_one {p : Nat} (hp : p < 8) (b : BitVec 3) : rankBoards p ((1 : BitVec 8) <<< b.toNat) = [b.toNat] := by
  have hall : ∀ (p : Fin 8) (b : BitVec 3), rankBoards p ((1 : BitVec 8) <<< b.toNat) = [b.toNat] := by decide
  exact hall ⟨p, hp⟩ b

/-- Two Boards ask, one of them at P (R171). -/
theorem rankBoards_two {b c : BitVec 3} (h : c ≠ b) :
    rankBoards b.toNat ((1 : BitVec 8) <<< b.toNat ||| (1 : BitVec 8) <<< c.toNat) = [b.toNat, c.toNat] := by
  have hall : ∀ b c : BitVec 3, c ≠ b →
      rankBoards b.toNat ((1 : BitVec 8) <<< b.toNat ||| (1 : BitVec 8) <<< c.toNat) = [b.toNat, c.toNat] := by decide
  exact hall b c h

/-! ## The home takes up a request (R168, R169) -/

/-- A Board owns a line by the directory (R167). -/
def DirEntry.isOwned : DirEntry → Bool
  | .owned _ => true
  | _ => false

/-- The transaction that a home opens for a Board's request (R168, R169). -/
def State.txnFor (s : State) (n : Nat) (b : BitVec 3) (r : CohReq) : HomeTxn :=
  { board := b, req := r, fetch := (s.dirOf n).isOwned, send := s.mustAnswer n b.toNat r, await := s.mustAnswer n b.toNat r }

theorem State.cohOpen_eq (s : State) (n : Nat) (b : BitVec 3) (r : CohReq) (l : List (BitVec 3 × CohReq)) :
    s.cohOpen n b.toNat r l = s.setHomeLine n { txn := some (s.txnFor n b (s.effReq n b.toNat r)), wait := l } := by
  rw [State.cohOpen, ofNat_board]
  rfl

/-- A home without a transaction takes up the oldest waiting request. -/
theorem State.cohServe_eq {s : State} {n : Nat} {b : BitVec 3} {r : CohReq} {l : List (BitVec 3 × CohReq)}
    (h : s.homeLine n = { txn := none, wait := (b, r) :: l }) :
    s.cohServe n = s.setHomeLine n { txn := some (s.txnFor n b (s.effReq n b.toNat r)), wait := l } := by
  rw [State.cohServe, h]
  exact s.cohOpen_eq n b r l

section
variable {s : State} {n : Nat} {b : BitVec 3}

/-- The transaction of a request depends on the caches and the directory alone. -/
theorem State.txnFor_congr {u : State} (h : u.hbm = s.hbm) (r : CohReq) :
    u.txnFor n b (u.effReq n b.toNat r) = s.txnFor n b (s.effReq n b.toNat r) := by
  have hdir : u.dirOf n = s.dirOf n := by rw [State.dirOf, h, ← State.dirOf]
  have hline : u.lineSt b.toNat n = s.lineSt b.toNat n := by rw [State.lineSt, h, ← State.lineSt]
  have hreq : u.effReq n b.toNat r = s.effReq n b.toNat r := by
    cases r with
    | rds => rfl
    | rdo => rfl
    | upg => rw [State.effReq, hline]; rfl
  have hneed : u.mustAnswer n b.toNat (s.effReq n b.toNat r) = s.mustAnswer n b.toNat (s.effReq n b.toNat r) := by
    rw [State.mustAnswer, hdir]; rfl
  rw [State.txnFor, hreq, hdir, hneed, ← State.txnFor]

theorem State.txnFor_uncached (r : CohReq) (h : s.dirOf n = .uncached) :
    s.txnFor n b r = { board := b, req := r, fetch := false, send := 0, await := 0 } := by
  rw [State.txnFor, State.mustAnswer, h]
  rfl

theorem State.txnFor_shared {m : BitVec 8} {r : CohReq} (h : s.dirOf n = .shared m) (hr : r ≠ .rds) : s.txnFor n b r
    = { board := b, req := r, fetch := false, send := m &&& ~~~((1 : BitVec 8) <<< b.toNat), await := m &&& ~~~((1 : BitVec 8) <<< b.toNat) } := by
  have hnot : (r == .rds) = false := beq_eq_false_iff_ne.mpr hr
  rw [State.txnFor, State.mustAnswer, h]
  dsimp only
  rw [if_neg (by simp [hnot])]
  rfl

theorem State.txnFor_shared_rds {m : BitVec 8} (h : s.dirOf n = .shared m) :
    s.txnFor n b .rds = { board := b, req := .rds, fetch := false, send := 0, await := 0 } := by
  rw [State.txnFor, State.mustAnswer, h]
  rfl

theorem State.txnFor_owned {o : BitVec 3} (r : CohReq) (h : s.dirOf n = .owned o) (ho : o ≠ b) :
    s.txnFor n b r = { board := b, req := r, fetch := true, send := 1 <<< o.toNat, await := 1 <<< o.toNat } := by
  rw [State.txnFor, State.mustAnswer, h]
  dsimp only
  rw [if_neg fun e => ho (BitVec.eq_of_toNat_eq e)]
  rfl

theorem State.effReq_upg_held (h : s.lineSt b.toNat n = .s) : s.effReq n b.toNat .upg = .upg := by
  rw [State.effReq, h]; rfl

theorem State.effReq_upg_lost (h : s.lineSt b.toNat n ≠ .s) : s.effReq n b.toNat .upg = .rdo := by
  have hnot : (s.lineSt b.toNat n == .s) = false := beq_eq_false_iff_ne.mpr h
  rw [State.effReq, hnot]; rfl

end

/-! ## Requests of one clock (R168, R169, R171) -/

/-- Requests of several Boards in one clock are counted, and P moves behind the first (R171). -/
def State.tied (s : State) (k x : Nat) : State := (s.satInc F.HBM_HOME_TIES.COUNT k 1).setFld F.HBM_HOME_STATUS.PRIO k (x + 1)

/-- The Boards that ask a line's home in one clock, in their rank. -/
def State.asking (s : State) (n : Nat) (boards : BitVec 8) : List Nat :=
  (rankBoards (s.fld F.HBM_HOME_STATUS.PRIO (homeBank n)) boards).filter (s.mayAsk (homeBank n))

theorem State.mayAsk_iff (s : State) (k x : Nat) : s.mayAsk k x = true ↔ s.reachable (8 + x) = true ∧ s.homeOut k x < 128 := by
  rw [State.mayAsk, boardChip, Bool.and_eq_true, decide_eq_true_eq]

section
variable {s : State} {n : Nat} {b c : BitVec 3} {rds rdo upg : BitVec 8}

theorem State.prio_lt (s : State) (k : Nat) : s.fld F.HBM_HOME_STATUS.PRIO k < 8 := s.fld_lt F.HBM_HOME_STATUS.PRIO k

theorem State.cohAsk_none (h : s.asking n (rds ||| rdo ||| upg) = []) : s.cohAsk rds rdo upg n = s := by
  rw [State.asking] at h
  rw [State.cohAsk]
  dsimp only
  rw [h, State.when, if_neg (by simp)]

theorem State.cohLine_of_mapped (hmapped : s.hbmMapped = true) (hn : n < 0x60000000) : s.cohLine n = true := by
  rw [State.cohLine, hmapped]
  exact decide_eq_true (by unfold hbmSize; omega)

/-- One Board asks the home of an idle line, which takes the request up at once. -/
theorem State.cohAsk_one (hline : s.cohLine n = true) (hup : s.homesUp (n * 64) 64 = true)
    (hidle : s.homeLine n = { txn := none, wait := [] }) (h : s.asking n (rds ||| rdo ||| upg) = [b.toNat]) :
    s.cohAsk rds rdo upg n = ((s.setHomeLine n { txn := none, wait := [(b, askOf rds rdo b.toNat)] }).setHomeLine n
      { txn := some (s.txnFor n b (s.effReq n b.toNat (askOf rds rdo b.toNat))), wait := [] }).emit
        (.coh (askKind (askOf rds rdo b.toNat)) b.toNat n) := by
  rw [State.asking] at h
  rw [State.cohAsk]
  dsimp only
  rw [h, hline, hup]
  change State.emit (State.cohServe (s.setHomeLine n { s.homeLine n with wait := (s.homeLine n).wait ++ [(BitVec.ofNat 3 b.toNat, _)] }) n) _ = _
  rw [hidle, ofNat_board]
  exact congrArg (State.emit · _) (State.cohServe_eq (State.homeLine_setHomeLine_same s n _))

/-- Two Boards ask the home of an idle line: the first is taken up, the other waits (R169, R171). -/
theorem State.cohAsk_two (hline : s.cohLine n = true) (hup : s.homesUp (n * 64) 64 = true)
    (hidle : s.homeLine n = { txn := none, wait := [] }) (h : s.asking n (rds ||| rdo ||| upg) = [b.toNat, c.toNat]) :
    s.cohAsk rds rdo upg n = ((((s.tied (homeBank n) b.toNat).setHomeLine n
        { txn := none, wait := [(b, askOf rds rdo b.toNat), (c, askOf rds rdo c.toNat)] }).setHomeLine n
      { txn := some (s.txnFor n b (s.effReq n b.toNat (askOf rds rdo b.toNat))), wait := [(c, askOf rds rdo c.toNat)] }).emit
        (.coh (askKind (askOf rds rdo b.toNat)) b.toNat n)).emit (.coh (askKind (askOf rds rdo c.toNat)) c.toNat n) := by
  obtain ⟨u, hu⟩ : ∃ u, u = s.tied (homeBank n) b.toNat := ⟨_, rfl⟩
  have htied : (s.satInc F.HBM_HOME_TIES.COUNT (homeBank n) 1).setFld F.HBM_HOME_STATUS.PRIO (homeBank n) ([b.toNat, c.toNat].headD 0 + 1) = u :=
    hu.symm
  have huidle : u.homeLine n = { txn := none, wait := [] } := by
    rw [hu, State.homeLine, State.tied, State.setFld_hbm, State.satInc_hbm]; exact hidle
  have htxn : ∀ r, u.txnFor n b (u.effReq n b.toNat r) = s.txnFor n b (s.effReq n b.toNat r) :=
    State.txnFor_congr (by rw [hu, State.tied, State.setFld_hbm, State.satInc_hbm])
  rw [State.asking] at h
  rw [State.cohAsk]
  dsimp only
  rw [h, hline, hup, State.when, if_pos (by rfl), if_pos (show 2 ≤ [b.toNat, c.toNat].length from Nat.le_refl 2), htied, ← hu, ← htxn]
  change State.emit (State.emit (State.cohServe (u.setHomeLine n
    { u.homeLine n with wait := (u.homeLine n).wait ++ [(BitVec.ofNat 3 b.toNat, _), (BitVec.ofNat 3 c.toNat, _)] }) n) _) _ = _
  rw [huidle, ofNat_board, ofNat_board]
  exact congrArg (fun v => State.emit (State.emit v _) _) (State.cohServe_eq (State.homeLine_setHomeLine_same u n _))

/-! ### The commands of a request -/

theorem askOf_rds (b : BitVec 3) (rdo : BitVec 8) : askOf ((1 : BitVec 8) <<< b.toNat) rdo b.toNat = .rds := if_pos (getLsbD_board b)

theorem askOf_rdo (b : BitVec 3) : askOf 0 ((1 : BitVec 8) <<< b.toNat) b.toNat = .rdo :=
  (if_neg (by simp)).trans (if_pos (getLsbD_board b))

theorem askOf_upg {x : Nat} : askOf 0 0 x = .upg := (if_neg (by simp)).trans (if_neg (by simp))

/-- A request of one Board: the message, and the transaction of its home. -/
theorem completes_ask {i : Instr} {r : CohReq} {t : HomeTxn} (hi : exec i s = done (s.cohAsk rds rdo upg n))
    (hone : rds ||| rdo ||| upg = (1 : BitVec 8) <<< b.toNat) (hr : askOf rds rdo b.toNat = r)
    (ht : s.txnFor n b (s.effReq n b.toNat r) = t)
    (hmapped : s.hbmMapped = true) (hn : n < 0x60000000) (hup : s.homesUp (n * 64) 64 = true)
    (hmay : s.reachable (8 + b.toNat) = true ∧ s.homeOut (homeBank n) b.toNat < 128) (hidle : s.homeLine n = { txn := none, wait := [] }) :
    Completes i s (fun u => u = { s with hbm := u.hbm, out := s.out ++ [.coh (askKind r) b.toNat n] }
      ∧ u.homeLine n = { txn := some t, wait := [] } ∧ u.hbm = { s.hbm with home := u.hbm.home }) := by
  have hasking : s.asking n (rds ||| rdo ||| upg) = [b.toNat] := by
    rw [State.asking, hone, rankBoards_one (s.prio_lt _), List.filter_cons_of_pos ((s.mayAsk_iff _ _).mpr hmay), List.filter_nil]
  refine .of_eq (hi.trans (congrArg done (State.cohAsk_one (State.cohLine_of_mapped hmapped hn) hup hidle hasking))) ?_
  rw [hr, ht]
  exact ⟨rfl, State.homeLine_setHomeLine_same _ _ _, rfl⟩

/-- A Board with 128 outstanding requests asks for nothing more (R169). -/
theorem completes_ask_full {i : Instr} (hi : exec i s = done (s.cohAsk rds rdo upg n))
    (hone : rds ||| rdo ||| upg = (1 : BitVec 8) <<< b.toNat) (hfull : s.homeOut (homeBank n) b.toNat = 128) :
    Completes i s (fun u => u = s) := by
  have hmay : ¬ s.mayAsk (homeBank n) b.toNat = true := by rw [State.mayAsk_iff, hfull]; omega
  refine .of_eq (hi.trans (congrArg done (State.cohAsk_none ?_))) rfl
  rw [State.asking, hone, rankBoards_one (s.prio_lt _), List.filter_cons_of_neg hmay, List.filter_nil]

theorem State.fld_of_regs {u : State} (h : u.regs = s.regs) (f : Fld) (i : Nat) : u.fld f i = s.fld f i := by
  rw [State.fld, State.rd, h, ← State.rd, ← State.fld]

theorem State.prio_tied (s : State) (k x : Nat) : (s.tied k x).fld F.HBM_HOME_STATUS.PRIO k = (x + 1) % 8 :=
  State.fld_setFld_same _ _ _ _ ⟨by decide, by decide⟩

theorem State.regsKept_tied (s : State) (k x : Nat) : RegsKept s (s.tied k x) [(.HBM_HOME_STATUS, k), (.HBM_HOME_TIES, k)] :=
  ((RegsKept.refl s _).setFld _ _ _ (.tail _ (.head _))).setFld _ _ _ (.head _)

/-- RDS of two Boards in one clock (R171). -/
theorem completes_rds_two {line : BitVec 31} (hne : c ≠ b) (hdir : s.dirOf line.toNat = .uncached)
    (hmapped : s.hbmMapped = true) (hn : line.toNat < 0x60000000) (hup : s.homesUp (line.toNat * 64) 64 = true)
    (hb : s.mayAsk (homeBank line.toNat) b.toNat = true) (hc : s.mayAsk (homeBank line.toNat) c.toNat = true)
    (hidle : s.homeLine line.toNat = { txn := none, wait := [] })
    (hprio : s.fld F.HBM_HOME_STATUS.PRIO (homeBank line.toNat) = b.toNat) :
    Completes (.rds ((1 : BitVec 8) <<< b.toNat ||| (1 : BitVec 8) <<< c.toNat) 0 0 line) s (fun u =>
      u.homeLine line.toNat = { txn := some { board := b, req := .rds, fetch := false, send := 0, await := 0 }, wait := [(c, .rds)] }
      ∧ u.fld F.HBM_HOME_STATUS.PRIO (homeBank line.toNat) = (b.toNat + 1) % 8
      ∧ u.out = s.out ++ [.coh 0 b.toNat line.toNat, .coh 0 c.toNat line.toNat]
      ∧ RegsKept s u [(.HBM_HOME_STATUS, homeBank line.toNat), (.HBM_HOME_TIES, homeBank line.toNat)]) := by
  obtain ⟨boards, hboards⟩ : ∃ m, m = (1 : BitVec 8) <<< b.toNat ||| (1 : BitVec 8) <<< c.toNat := ⟨_, rfl⟩
  have hask : ∀ x : BitVec 3, boards.getLsbD x.toNat = true → askOf boards 0 x.toNat = .rds := fun x hx => if_pos hx
  obtain ⟨hbitb, hbitc⟩ : boards.getLsbD b.toNat = true ∧ boards.getLsbD c.toNat = true := by
    rw [hboards, BitVec.getLsbD_or, BitVec.getLsbD_or, getLsbD_board, getLsbD_board, Bool.or_true]
    exact ⟨rfl, rfl⟩
  have hasking : s.asking line.toNat (boards ||| 0 ||| 0) = [b.toNat, c.toNat] := by
    rw [State.asking, show boards ||| 0 ||| 0 = boards by simp, hprio, hboards, rankBoards_two hne, List.filter_cons_of_pos hb,
      List.filter_cons_of_pos hc, List.filter_nil]
  obtain ⟨v, hv⟩ : ∃ v, v = s.tied (homeBank line.toNat) b.toNat := ⟨_, rfl⟩
  have hout : v.out = s.out := by rw [hv, State.tied, State.setFld_out, State.satInc_out]
  have hnext : v.fld F.HBM_HOME_STATUS.PRIO (homeBank line.toNat) = (b.toNat + 1) % 8 := by rw [hv, State.prio_tied]
  have hkept : RegsKept s v [(.HBM_HOME_STATUS, homeBank line.toNat), (.HBM_HOME_TIES, homeBank line.toNat)] := by
    rw [hv]; exact s.regsKept_tied _ _
  rw [← hboards]
  refine .of_eq (congrArg done (State.cohAsk_two (State.cohLine_of_mapped hmapped hn) hup hidle hasking)) ?_
  rw [hask b hbitb, hask c hbitc, ← hv]
  refine ⟨?_, (State.fld_of_regs rfl _ _).trans hnext, ?_, hkept.of_regs rfl⟩
  · rw [State.homeLine_emit, State.homeLine_emit, State.homeLine_setHomeLine_same, State.txnFor_uncached _ hdir]
    rfl
  · rw [State.out_emit, State.out_emit, State.out_setHomeLine, State.out_setHomeLine, hout, List.append_assoc]
    rfl

/-- HOME_QUEUE_SERVE (R169). -/
theorem completes_homeQueueServe {line : BitVec 31} {r : CohReq} {l : List (BitVec 3 × CohReq)}
    (h : s.homeLine line.toNat = { txn := none, wait := (b, r) :: l }) :
    Completes (.homeQueueServe line) s (fun u => (u.homeLine line.toNat).wait = l
      ∧ ∃ t, (u.homeLine line.toNat).txn = some t ∧ t.board = b) := by
  refine .of_eq (congrArg done (State.cohServe_eq h)) ?_
  rw [State.homeLine_setHomeLine_same]
  exact ⟨rfl, _, rfl, rfl⟩

end

end Sys2Proof.Machine
end

section
namespace Sys2Proof.Machine

/-! ## A line leaves a cache (R167, R168, R172) -/

section
variable (s : State) (b n x m : Nat)

theorem State.lineSt_writeBack : (s.writeBack b n).lineSt x m = if n * 8 + b = m * 8 + x then .i else s.lineSt x m :=
  (State.lineSt_dirDrop _ _ _ _ _).trans (s.lineSt_setLine b n x m .i)

theorem State.lineSt_evictClean : (s.evictClean b n).lineSt x m = if n * 8 + b = m * 8 + x then .i else s.lineSt x m :=
  (State.lineSt_dirDrop _ _ _ _ _).trans (s.lineSt_setLine b n x m .i)

theorem State.acks_writeBack : (s.writeBack b n).hbm.acks = s.hbm.acks ++ [(b, n)] :=
  congrArg (· ++ [(b, n)]) (State.acks_dirDrop ((s.setLine b n .i).setDue b n 0) b n)

theorem State.acks_evictClean : (s.evictClean b n).hbm.acks = s.hbm.acks :=
  State.acks_dirDrop ((s.setLine b n .i).setDue b n 0) b n

theorem State.out_writeBack : (s.writeBack b n).out = s.out ++ [.coh cohWb b n] :=
  congrArg (· ++ [Msg.coh cohWb b n]) (State.out_dirDrop ((s.setLine b n .i).setDue b n 0) b n)

theorem State.out_evictClean : (s.evictClean b n).out = s.out ++ [.coh cohEvc b n] :=
  congrArg (· ++ [Msg.coh cohEvc b n]) (State.out_dirDrop ((s.setLine b n .i).setDue b n 0) b n)

theorem State.dirOf_writeBack_owner {s : State} {n : Nat} {b : BitVec 3} (h : s.dirOf n = .owned b) :
    (s.writeBack b.toNat n).dirOf n = .uncached :=
  State.dirOf_dirDrop_owner (s := (s.setLine b.toNat n .i).setDue b.toNat n 0) h

end

section
variable {s : State} {b : BitVec 3} {line : BitVec 31}

theorem State.when_true (s : State) {c : Bool} (f : State → State) (h : c = true) : s.when c f = f s := if_pos h

theorem completes_wb (hm : s.lineSt b.toNat line.toNat = .m) (hown : s.dirOf line.toNat = .owned b) :
    Completes (.wb b line) s (fun u => u.lineSt b.toNat line.toNat = .i ∧ u.dirOf line.toNat = .uncached
      ∧ u.hbm.acks = s.hbm.acks ++ [(b.toNat, line.toNat)] ∧ u.out = s.out ++ [.coh 3 b.toNat line.toNat]
      ∧ u.hbm.mem = s.hbm.mem ∧ u.regs = s.regs) := by
  obtain ⟨hregs, hmem, -⟩ := s.keeps_writeBack b.toNat line.toNat
  exact .of_eq (congrArg done (s.when_true _ (beq_iff_eq.mpr hm)))
    ⟨(s.lineSt_writeBack _ _ _ _).trans (if_pos rfl), State.dirOf_writeBack_owner hown, s.acks_writeBack _ _, s.out_writeBack _ _, hmem, hregs⟩

theorem completes_evc (h : s.lineSt b.toNat line.toNat = .s ∨ s.lineSt b.toNat line.toNat = .e) :
    Completes (.evc b line) s (fun u => u.lineSt b.toNat line.toNat = .i ∧ u.out = s.out ++ [.coh 4 b.toNat line.toNat]
      ∧ u.hbm.acks = s.hbm.acks ∧ u.hbm.mem = s.hbm.mem ∧ u.regs = s.regs) := by
  obtain ⟨hregs, hmem, -⟩ := s.keeps_evictClean b.toNat line.toNat
  have hclean : (s.lineSt b.toNat line.toNat == .s || s.lineSt b.toNat line.toNat == .e) = true := by
    rw [Bool.or_eq_true, beq_iff_eq, beq_iff_eq]; exact h
  exact .of_eq (congrArg done (s.when_true _ hclean))
    ⟨(s.lineSt_evictClean _ _ _ _).trans (if_pos rfl), s.out_evictClean _ _, s.acks_evictClean _ _, hmem, hregs⟩

theorem completes_ackWb {l : List (Nat × Nat)} (h : s.hbm.acks = (b.toNat, line.toNat) :: l) :
    Completes (.ackWb b line) s (fun u => u.hbm.acks = l ∧ u.out = s.out ++ [.coh 13 b.toNat line.toNat] ∧ u.regs = s.regs) := by
  have hin : s.hbm.acks.contains (b.toNat, line.toNat) = true := by rw [h, List.contains_cons, beq_self_eq_true, Bool.true_or]
  refine .of_eq (if_pos hin) ⟨?_, rfl, rfl⟩
  change s.hbm.acks.erase (b.toNat, line.toNat) = l
  rw [h, List.erase_cons_head]

end

/-! ## The end of a transaction (R168, R170) -/

section
variable {s : State} {n : Nat} {b : BitVec 3}

/-- A cache with room evicts nothing (R145). -/
theorem State.sscRoom_of_room {b : Nat} (h : (s.boardLines b).length < 262144) : s.sscRoom b = s := if_pos h

theorem State.room_of_room {b : Nat} (h : (s.boardLines b).length < 262144) (c : Bool) : (if c then s.sscRoom b else s) = s := by
  rw [State.sscRoom_of_room h, ite_self]

/-- The Boards that the directory records as sharers of a line. -/
def DirEntry.sharers : DirEntry → BitVec 8
  | .shared m => m
  | .owned _ => 0
  | .uncached => 0

/-- The directory takes a Board in as a sharer (R168). -/
theorem State.cohShare_eq (h : (s.boardLines b.toNat).length < 262144) : s.cohShare b.toNat n
    = (((((s.setDir n (.shared ((s.dirOf n).sharers ||| (1 : BitVec 8) <<< b.toNat))).setLine b.toNat n .s).setDue b.toNat n 1).cohEnd n).emit
        (.coh cohDataS b.toNat n)) := by
  rw [State.cohShare, State.room_of_room h]
  cases hd : s.dirOf n with
  | shared m => rw [DirEntry.sharers, cast_board]
  | uncached => rw [DirEntry.sharers, cast_board]; simp
  | owned o => rw [DirEntry.sharers, cast_board]; simp

theorem State.cohShare_spec (h : (s.boardLines b.toNat).length < 262144) :
    (s.cohShare b.toNat n).lineSt b.toNat n = .s ∧ (s.cohShare b.toNat n).homeLine n = { s.homeLine n with txn := none }
      ∧ (s.cohShare b.toNat n).out = s.out ++ [.coh cohDataS b.toNat n] ∧ (s.cohShare b.toNat n).dueOf b.toNat n = 1
      ∧ (s.cohShare b.toNat n).dirOf n = .shared ((s.dirOf n).sharers ||| (1 : BitVec 8) <<< b.toNat) := by
  rw [State.cohShare_eq h, State.cohEnd]
  simp

theorem State.cohOwn_spec (h : (s.boardLines b.toNat).length < 262144) (k : Nat) :
    (s.cohOwn b.toNat n k).lineSt b.toNat n = .e ∧ (∀ x < 8, x ≠ b.toNat → (s.cohOwn b.toNat n k).lineSt x n = .i)
      ∧ (s.cohOwn b.toNat n k).dirOf n = .owned b ∧ (s.cohOwn b.toNat n k).homeLine n = { s.homeLine n with txn := none }
      ∧ (s.cohOwn b.toNat n k).out = s.out ++ [.coh k b.toNat n] ∧ (s.cohOwn b.toNat n k).dueOf b.toNat n = 2 := by
  rw [State.cohOwn]
  dsimp only
  rw [State.room_of_room h, ofNat_board, State.cohEnd]
  refine ⟨by simp, fun x hx hne => ?_, by simp, by simp, by simp, by simp⟩
  simp only [State.lineSt_emit, State.lineSt_setHomeLine, State.lineSt_setDue, State.lineSt_setDir]
  rw [State.lineSt_setLine, if_neg (by omega), State.lineSt_dropCopies _ _ _ hx]

/-- What every message of a transaction leaves: it is sent, and no register and no byte changes. -/
def SendsCoh (s : State) (b : BitVec 3) (n k : Nat) (u : State) : Prop :=
  u.out = s.out ++ [.coh k b.toNat n] ∧ u.regs = s.regs ∧ u.hbm.mem = s.hbm.mem

variable {line : BitVec 31} {t : HomeTxn} {l : List (BitVec 3 × CohReq)}

theorem State.cohReady_of_txn (h : s.homeLine n = { txn := some t, wait := l }) (hboard : t.board = b) (hawait : t.await = 0) {r : CohReq}
    (hr : t.req = r) : s.cohReady b.toNat n (fun q => q == r) = true := by
  rw [State.cohReady, h]
  dsimp only
  rw [hboard, hawait, hr]
  simp

theorem completes_dataS (h : s.homeLine line.toNat = { txn := some t, wait := l }) (hboard : t.board = b) (hawait : t.await = 0)
    (hroom : (s.boardLines b.toNat).length < 262144) (hr : t.req = .rds) :
    Completes (.dataS b line) s (fun u => u.lineSt b.toNat line.toNat = .s ∧ u.homeLine line.toNat = { txn := none, wait := l }
      ∧ SendsCoh s b line.toNat 5 u ∧ u.dueOf b.toNat line.toNat = 1
      ∧ u.dirOf line.toNat = .shared ((s.dirOf line.toNat).sharers ||| (1 : BitVec 8) <<< b.toNat)) := by
  obtain ⟨hregs, hmem, -⟩ := s.keeps_cohShare b.toNat line.toNat
  obtain ⟨hst, hhome, hout, hdue, hdir⟩ := State.cohShare_spec (n := line.toNat) hroom
  rw [h] at hhome
  exact .of_eq (congrArg done (s.when_true _ (State.cohReady_of_txn h hboard hawait hr))) ⟨hst, hhome, ⟨hout, hregs, hmem⟩, hdue, hdir⟩

/-- A requester gains the line, and no other cache holds it (R168). -/
theorem completes_owns {i : Instr} {k : Nat} {r : CohReq} (hi : exec i s = done (s.when (s.cohReady b.toNat line.toNat (fun q => q == r))
      (fun s => s.cohOwn b.toNat line.toNat k)))
    (h : s.homeLine line.toNat = { txn := some t, wait := l }) (hboard : t.board = b) (hawait : t.await = 0)
    (hroom : (s.boardLines b.toNat).length < 262144) (hr : t.req = r) :
    Completes i s (fun u => u.lineSt b.toNat line.toNat = .e ∧ (∀ x < 8, x ≠ b.toNat → u.lineSt x line.toNat = .i)
      ∧ u.dirOf line.toNat = .owned b ∧ u.homeLine line.toNat = { txn := none, wait := l } ∧ SendsCoh s b line.toNat k u
      ∧ u.dueOf b.toNat line.toNat = 2) := by
  obtain ⟨hregs, hmem, -⟩ := s.keeps_cohOwn b.toNat line.toNat k
  obtain ⟨hst, hothers, hdir, hhome, hout, hdue⟩ := State.cohOwn_spec (n := line.toNat) hroom k
  rw [h] at hhome
  exact .of_eq (hi.trans (congrArg done (s.when_true _ (State.cohReady_of_txn h hboard hawait hr))))
    ⟨hst, hothers, hdir, hhome, ⟨hout, hregs, hmem⟩, hdue⟩

end

/-! ## What the home asks of other Boards, and their answers (R168, R170, R172) -/

section
variable {s : State} {b : BitVec 3} {line : BitVec 31} {t : HomeTxn} {l : List (BitVec 3 × CohReq)}

/-- The record of an answer. -/
theorem State.cohAnswered_eq {u : State} (h : u.homeLine line.toNat = { txn := some t, wait := l }) : u.cohAnswered b.toNat line.toNat
    = u.setHomeLine line.toNat { txn := some { t with await := t.await &&& ~~~((1 : BitVec 8) <<< b.toNat) }, wait := l } := by
  rw [State.cohAnswered, h]

/-- An answer comes after what the Board does with the line, which concerns neither the home's queue nor what has been sent. -/
theorem State.cohAnswered_spec {u : State} (hu : u.homeLine line.toNat = { txn := some t, wait := l }) (hkeeps : CohKeeps s u)
    (hout : u.out = s.out) (k : Nat) :
    ((u.cohAnswered b.toNat line.toNat).emit (.coh k b.toNat line.toNat)).homeLine line.toNat
        = { txn := some { t with await := t.await &&& ~~~((1 : BitVec 8) <<< b.toNat) }, wait := l }
      ∧ SendsCoh s b line.toNat k ((u.cohAnswered b.toNat line.toNat).emit (.coh k b.toNat line.toNat))
      ∧ ((u.cohAnswered b.toNat line.toNat).emit (.coh k b.toNat line.toNat)).lineSt b.toNat line.toNat = u.lineSt b.toNat line.toNat
      ∧ ((u.cohAnswered b.toNat line.toNat).emit (.coh k b.toNat line.toNat)).dirOf line.toNat = u.dirOf line.toNat := by
  obtain ⟨hregs, hmem, -⟩ := hkeeps
  rw [State.cohAnswered_eq hu]
  exact ⟨State.homeLine_setHomeLine_same _ _ _, ⟨congrArg (· ++ [Msg.coh k b.toNat line.toNat]) hout, hregs, hmem⟩, rfl, rfl⟩

variable (h : s.homeLine line.toNat = { txn := some t, wait := l })
include h

theorem State.cohSends_of_txn : s.cohSends b.toNat line.toNat = t.send.getLsbD b.toNat := by
  rw [State.cohSends, h]

theorem State.cohFetches_of_txn : s.cohFetches line.toNat = t.fetch := by
  rw [State.cohFetches, h]

theorem State.cohIsRds_of_txn : s.cohIsRds line.toNat = (t.req == .rds) := by
  rw [State.cohIsRds, h]

theorem State.cohAwaits_of_txn : s.cohAwaits b.toNat line.toNat
    = (t.await.getLsbD b.toNat && !t.send.getLsbD b.toNat && s.dueOf b.toNat line.toNat == 0) := by
  rw [State.cohAwaits, h]

/-- INV and FETCH: the message is sent, once. -/
theorem State.cohSend_spec (k : Nat) : (s.cohSend b.toNat line.toNat k).homeLine line.toNat
      = { txn := some { t with send := t.send &&& ~~~((1 : BitVec 8) <<< b.toNat) }, wait := l }
    ∧ SendsCoh s b line.toNat k (s.cohSend b.toNat line.toNat k) := by
  rw [State.cohSend, h]
  exact ⟨State.homeLine_setHomeLine_same _ _ _, rfl, rfl, rfl⟩

theorem completes_inv (hsend : t.send.getLsbD b.toNat = true) (hfetch : t.fetch = false) :
    Completes (.inv b line) s (fun u => u.homeLine line.toNat
      = { txn := some { t with send := t.send &&& ~~~((1 : BitVec 8) <<< b.toNat) }, wait := l } ∧ SendsCoh s b line.toNat 8 u) := by
  refine .of_eq (congrArg done (s.when_true _ ?_)) (State.cohSend_spec h cohInv)
  rw [State.cohSends_of_txn h, State.cohFetches_of_txn h, hsend, hfetch]
  rfl

theorem completes_fetch (hsend : t.send.getLsbD b.toNat = true) (hfetch : t.fetch = true) :
    Completes (.fetch b line) s (fun u => u.homeLine line.toNat
      = { txn := some { t with send := t.send &&& ~~~((1 : BitVec 8) <<< b.toNat) }, wait := l } ∧ SendsCoh s b line.toNat 9 u) := by
  refine .of_eq (congrArg done (s.when_true _ ?_)) (State.cohSend_spec h cohFetch)
  rw [State.cohSends_of_txn h, State.cohFetches_of_txn h, hsend, hfetch]
  rfl

/-- A Board that has still to complete its access does not answer (R170). -/
theorem completes_ackInv_owing (hdue : s.dueOf b.toNat line.toNat ≠ 0) : Completes (.ackInv b line) s (fun u => u = s) := by
  refine .of_eq (congrArg done (if_neg ?_)) rfl
  rw [State.cohAwaits_of_txn h, beq_eq_false_iff_ne.mpr hdue]
  simp

section
variable (hawait : t.await.getLsbD b.toNat = true) (hsent : t.send.getLsbD b.toNat = false) (hdue : s.dueOf b.toNat line.toNat = 0)
include hawait hsent hdue

theorem State.cohAwaits_true : s.cohAwaits b.toNat line.toNat = true := by
  rw [State.cohAwaits_of_txn h, hawait, hsent, hdue]
  rfl

theorem completes_ackInv (hfetch : t.fetch = false) : Completes (.ackInv b line) s (fun u => u.lineSt b.toNat line.toNat = .i
    ∧ u.homeLine line.toNat = { txn := some { t with await := t.await &&& ~~~((1 : BitVec 8) <<< b.toNat) }, wait := l }
    ∧ SendsCoh s b line.toNat 10 u) := by
  obtain ⟨u, hu⟩ : ∃ u, u = (s.setLine b.toNat line.toNat .i).dirDrop b.toNat line.toNat := ⟨_, rfl⟩
  have hst : u.lineSt b.toNat line.toNat = .i := by simp [hu]
  obtain ⟨hhome, hsends, hline, -⟩ := State.cohAnswered_spec (b := b) (s := s) (u := u) (by rw [hu]; simpa using h)
    (hu ▸ (s.keeps_setLine _ _ _).trans (State.keeps_dirDrop _ _ _)) (by simp [hu]) cohAckInv
  refine .of_eq (congrArg done (s.when_true _ ?_)) (hu ▸ ⟨hline.trans hst, hhome, hsends⟩)
  rw [State.cohAwaits_true h hawait hsent hdue, State.cohFetches_of_txn h, hfetch]
  rfl

theorem completes_noneF (hfetch : t.fetch = true) (hst : s.lineSt b.toNat line.toNat = .i) :
    Completes (.noneF b line) s (fun u => u.lineSt b.toNat line.toNat = .i
      ∧ u.homeLine line.toNat = { txn := some { t with await := t.await &&& ~~~((1 : BitVec 8) <<< b.toNat) }, wait := l }
      ∧ SendsCoh s b line.toNat 12 u) := by
  obtain ⟨hhome, hsends, hline, -⟩ := State.cohAnswered_spec (b := b) h (.rfl' s) rfl cohNoneF
  refine .of_eq (congrArg done (s.when_true _ ?_)) ⟨hline.trans hst, hhome, hsends⟩
  rw [State.cohAwaits_true h hawait hsent hdue, State.cohFetches_of_txn h, hfetch, hst]
  rfl

theorem exec_dataF (hfetch : t.fetch = true) (hst : s.lineSt b.toNat line.toNat ≠ .i) : exec (.dataF b line) s
    = done (((if t.req == .rds then (s.setLine b.toNat line.toNat .s).setDir line.toNat (.shared (1 <<< b.toNat))
        else (s.setLine b.toNat line.toNat .i).setDir line.toNat .uncached).cohAnswered b.toNat line.toNat).emit
          (.coh cohDataF b.toNat line.toNat)) := by
  rw [← State.cohIsRds_of_txn h]
  refine congrArg done (s.when_true _ ?_)
  rw [State.cohAwaits_true h hawait hsent hdue, State.cohFetches_of_txn h, hfetch]
  simpa using hst

theorem completes_dataF_rds (hfetch : t.fetch = true) (hr : t.req = .rds) (hst : s.lineSt b.toNat line.toNat ≠ .i) :
    Completes (.dataF b line) s (fun u => u.lineSt b.toNat line.toNat = .s ∧ u.dirOf line.toNat = .shared ((1 : BitVec 8) <<< b.toNat)
      ∧ u.homeLine line.toNat = { txn := some { t with await := t.await &&& ~~~((1 : BitVec 8) <<< b.toNat) }, wait := l }
      ∧ SendsCoh s b line.toNat 11 u) := by
  obtain ⟨u, hu⟩ : ∃ u, u = (s.setLine b.toNat line.toNat .s).setDir line.toNat (.shared ((1 : BitVec 8) <<< b.toNat)) := ⟨_, rfl⟩
  obtain ⟨hhome, hsends, hline, hdir⟩ := State.cohAnswered_spec (b := b) (s := s) (u := u) (by rw [hu]; exact h) (hu ▸ .rfl' s)
    (by rw [hu]; rfl) cohDataF
  have hexec := exec_dataF h hawait hsent hdue hfetch hst
  rw [if_pos (by rw [hr]; rfl), cast_board, ← hu] at hexec
  exact .of_eq hexec ⟨hline.trans (by simp [hu]), hdir.trans (by simp [hu]), hhome, hsends⟩

theorem completes_dataF_rdo (hfetch : t.fetch = true) (hr : t.req ≠ .rds) (hst : s.lineSt b.toNat line.toNat ≠ .i) :
    Completes (.dataF b line) s (fun u => u.lineSt b.toNat line.toNat = .i ∧ u.dirOf line.toNat = .uncached
      ∧ u.homeLine line.toNat = { txn := some { t with await := t.await &&& ~~~((1 : BitVec 8) <<< b.toNat) }, wait := l }
      ∧ SendsCoh s b line.toNat 11 u) := by
  obtain ⟨u, hu⟩ : ∃ u, u = (s.setLine b.toNat line.toNat .i).setDir line.toNat .uncached := ⟨_, rfl⟩
  obtain ⟨hhome, hsends, hline, hdir⟩ := State.cohAnswered_spec (b := b) (s := s) (u := u) (by rw [hu]; exact h) (hu ▸ .rfl' s)
    (by rw [hu]; rfl) cohDataF
  have hexec := exec_dataF h hawait hsent hdue hfetch hst
  rw [if_neg (by simpa using hr), ← hu] at hexec
  exact .of_eq hexec ⟨hline.trans (by simp [hu]), hdir.trans (by simp [hu]), hhome, hsends⟩

end
end

end Sys2Proof.Machine
end

section
namespace Sys2Proof.Machine

/-! ## A poisoned line (R174, R176, R177) -/

theorem State.hbm_event (s : State) (chip blk code sev data : Nat) : (s.event chip blk code sev data).hbm = s.hbm := by
  obtain ⟨hquiet, -⟩ := s.sameButEvents_event chip blk code sev data
  rw [State.quietEq] at hquiet
  exact (congrArg State.hbm hquiet).trans rfl

theorem State.poisonLine_spec (s : State) (n : Nat) : (s.poisonLine n).hbm = ((s.setPoison n true).setDir n .uncached).hbm
    ∧ (s.poisonLine n).fld F.HBM_HOME_STATUS.POISON (homeBank n) = 1 := by
  rw [State.poisonLine]
  refine ⟨?_, ?_⟩
  · rw [State.hbm_event, State.setFld_hbm, State.satInc_hbm]
  · rw [(State.sameButEvents_event _ _ _ _ _ _).fld _ _ rfl, State.fld_setFld_eq _ _ _ _ (by decide) (by decide)]

theorem State.sscError_spec (s : State) (b : Nat) : (s.sscError b).hbm = s.hbm ∧ (s.sscError b).fld F.BRD_STATUS.SSC_UE b = 1
    ∧ ∀ f i, .BRD_STATUS ≠ f.reg → (s.sscError b).fld f i = s.fld f i := by
  obtain ⟨v, hv⟩ : ∃ v, v = s.setFld F.BRD_STATUS.SSC_UE b 1 := ⟨_, rfl⟩
  have hset : v.fld F.BRD_STATUS.SSC_UE b = 1 := by rw [hv, State.fld_setFld_eq _ _ _ _ (by decide) (by decide)]
  have hhbm : v.hbm = s.hbm := by rw [hv, State.setFld_hbm]
  have hkept : ∀ f i, .BRD_STATUS ≠ f.reg → v.fld f i = s.fld f i := fun f i h => by rw [hv, State.fld_setFld_reg_ne _ _ _ _ _ _ h]
  rw [State.sscError]
  split
  case isTrue hflag => exact ⟨rfl, (s.flag_iff_one _ _ rfl).mp hflag, fun _ _ _ => rfl⟩
  · dsimp only
    rw [← hv]
    split
    · exact ⟨hhbm, hset, hkept⟩
    · exact ⟨hhbm, hset, hkept⟩

theorem completes_linePoison {s : State} {b : BitVec 3} {line : BitVec 31} (h : s.lineSt b.toNat line.toNat = .m) :
    Completes (.linePoison b line) s (fun u => u.lineSt b.toNat line.toNat = .i ∧ u.isPoisoned line.toNat = true
      ∧ u.dirOf line.toNat = .uncached ∧ u.fld F.BRD_STATUS.SSC_UE b.toNat = 1
      ∧ u.fld F.HBM_HOME_STATUS.POISON (homeBank line.toNat) = 1 ∧ u.hbm.mem = s.hbm.mem) := by
  obtain ⟨v, hv⟩ : ∃ v, v = (s.setLine b.toNat line.toNat .i).poisonLine line.toNat := ⟨_, rfl⟩
  obtain ⟨hpoisoned, hmark⟩ := (s.setLine b.toNat line.toNat .i).poisonLine_spec line.toNat
  rw [← hv] at hpoisoned hmark
  obtain ⟨herror, hsignal, hkept⟩ := v.sscError_spec b.toNat
  have hhbm := herror.trans hpoisoned
  refine .of_eq (if_pos (beq_iff_eq.mpr h)) ?_
  rw [← hv]
  refine ⟨?_, ?_, ?_, hsignal, (hkept _ _ (by decide)).trans hmark, by rw [hhbm]; rfl⟩
  · rw [State.lineSt, hhbm]; exact s.lineSt_setLine_same b.toNat line.toNat .i
  · rw [State.isPoisoned, hhbm]; exact Tbl.get_set_same (fun _ => false) s.hbm.poison line.toNat true
  · rw [State.dirOf, hhbm]; exact State.dirOf_setDir_same _ _ _

/-! ## The flush of a cache (R145, R175, R177) -/

/-- A line leaves a cache that is flushed: written back if modified, else dropped. -/
def State.flushLine (b : Nat) (s : State) (n : Nat) : State := if s.lineSt b n == .m then s.writeBack b n else s.evictClean b n

section
variable (s : State) (b n x m : Nat)

theorem State.lineSt_flushLine : (State.flushLine b s n).lineSt x m = if n * 8 + b = m * 8 + x then .i else s.lineSt x m := by
  rw [State.flushLine]
  split
  · exact s.lineSt_writeBack b n x m
  · exact s.lineSt_evictClean b n x m

theorem State.keeps_flushLine : CohKeeps s (State.flushLine b s n) := by
  rw [State.flushLine]
  split
  · exact s.keeps_writeBack b n
  · exact s.keeps_evictClean b n

theorem State.lineSt_flush (l : List Nat) :
    (l.foldl (State.flushLine b) s).lineSt x m = if ∃ n ∈ l, n * 8 + b = m * 8 + x then .i else s.lineSt x m := by
  induction l generalizing s with
  | nil => simp
  | cons n l ih =>
    rw [List.foldl_cons, ih, State.lineSt_flushLine]
    by_cases hn : n * 8 + b = m * 8 + x <;> simp [hn]

end

/-- A line that a Board's cache holds is listed. -/
theorem State.mem_boardLines {s : State} {b n : Nat} (hb : b < 8) (h : s.lineSt b n ≠ .i) : n ∈ s.boardLines b := by
  have hlisted := List.mem_filter (p := fun e => e.1 % 8 == b).mpr ⟨Tbl.mem_of_get_ne h, beq_iff_eq.mpr (by omega)⟩
  exact List.mem_map.mpr ⟨_, hlisted, by omega⟩

theorem completes_sscFlush {s : State} {b : BitVec 3} (h : s.reachable (8 + b.toNat) = true) :
    Completes (.sscFlush b) s (fun u => u.fld F.BRD_SSC_CTL.FLUSH b.toNat = 1
      ∧ OnlyRegs (s.putReply .ok) u [(.BRD_SSC_CTL, b.toNat)]) :=
  .of_eq (congrArg done (s.atChip_reachable _ _ h))
    ⟨by rw [State.fld_answer, State.fld_setFld_eq _ _ _ _ (by decide) (by decide)],
      ((OnlyRegs.refl s _).setFld F.BRD_SSC_CTL.FLUSH b.toNat 1 (.head _)).answer .ok⟩

theorem completes_sscFlushDone {s : State} {b : BitVec 3} (h : s.fld F.BRD_SSC_CTL.FLUSH b.toNat = 1) :
    Completes (.sscFlushDone b) s (fun u => u.fld F.BRD_SSC_CTL.FLUSH b.toNat = 0 ∧ (∀ n, u.lineSt b.toNat n = .i)
      ∧ (∀ (x : Nat) n, x < 8 → x ≠ b.toNat → u.lineSt x n = s.lineSt x n) ∧ u.hbm.mem = s.hbm.mem) := by
  have hb := b.isLt
  have hflag : s.flag F.BRD_SSC_CTL.FLUSH b.toNat = true := (s.flag_iff_one _ _ rfl).mpr h
  obtain ⟨v, hv⟩ : ∃ v, v = (s.boardLines b.toNat).foldl (State.flushLine b.toNat) s := ⟨_, rfl⟩
  obtain ⟨-, hmem, -⟩ : CohKeeps s v := hv ▸ CohKeeps.foldl (fun s n => s.keeps_flushLine b.toNat n) _ _
  have hexec : exec (.sscFlushDone b) s = done (v.setFld F.BRD_SSC_CTL.FLUSH b.toNat 0) := by
    rw [hv]; exact if_pos hflag
  refine .of_eq hexec ⟨State.fld_setFld_eq _ _ _ _ (by decide) (by decide), fun n => ?_, fun x n hx hne => ?_, hmem⟩
  · change v.lineSt b.toNat n = .i
    rw [hv, State.lineSt_flush]
    split
    · rfl
    case isFalse hnone =>
      by_contra hheld
      exact hnone ⟨n, State.mem_boardLines hb hheld, rfl⟩
  · change v.lineSt x n = s.lineSt x n
    rw [hv, State.lineSt_flush, if_neg]
    rintro ⟨k, -, hk⟩
    omega

/-- Settles O26: a request opens its home's transaction (`completes_ask`), the home's answers and messages have a lemma each, and a
flushed cache holds no line (`State.lineSt_flush`). -/
theorem coherence : Obligations.Coherence := by
  unfold Obligations.Coherence
  refine ⟨?_, ?_, ?_⟩
  · intro s b line m n one other idle mayAsk asks st
    have hone : one = (1 : BitVec 8) <<< b.toNat := cast_board b
    have hmay : ∀ x, mayAsk x → s.mayAsk (homeBank n) x.toNat = true := fun x hx => (s.mayAsk_iff _ _).mpr hx
    have hrds : askOf one 0 b.toNat = .rds := hone ▸ askOf_rds b 0
    have hrdo : askOf 0 one b.toNat = .rdo := hone ▸ askOf_rdo b
    have honly : one ||| 0 ||| 0 = (1 : BitVec 8) <<< b.toNat := by rw [hone]; simp
    have hmid : 0 ||| one ||| 0 = (1 : BitVec 8) <<< b.toNat := by rw [hone]; simp
    have hlast : 0 ||| 0 ||| one = (1 : BitVec 8) <<< b.toNat := by rw [hone]; simp
    have hothers : other = m &&& ~~~((1 : BitVec 8) <<< b.toNat) := by rw [← hone]
    refine ⟨fun hdir => ⟨completes_ask rfl honly hrds (State.txnFor_uncached _ hdir),
        completes_ask rfl hmid hrdo (State.txnFor_uncached _ hdir)⟩,
      fun hdir => ⟨completes_ask rfl honly hrds (State.txnFor_shared_rds hdir), ?_, fun hheld => ?_, fun hlost => ?_⟩,
      fun o hdir ho => ⟨completes_ask rfl honly hrds (State.txnFor_owned _ hdir ho),
        completes_ask rfl hmid hrdo (State.txnFor_owned _ hdir ho)⟩,
      fun c hne hdir hmapped hn hup hb hc hidle hprio => ?_,
      fun hfull => ⟨completes_ask_full rfl honly hfull, completes_ask_full rfl hlast hfull⟩,
      fun r rest h => completes_homeQueueServe h, completes_wb, completes_evc, fun rest h => completes_ackWb h⟩
    · rw [hothers]
      exact completes_ask rfl hmid hrdo (State.txnFor_shared (r := .rdo) hdir (by decide))
    · rw [hothers]
      exact completes_ask (r := .upg) rfl hlast askOf_upg (by rw [State.effReq_upg_held hheld]; exact State.txnFor_shared hdir (by decide))
    · rw [hothers]
      exact completes_ask (r := .upg) rfl hlast askOf_upg (by rw [State.effReq_upg_lost hlost]; exact State.txnFor_shared hdir (by decide))
    · rw [hone, cast_board]
      exact completes_rds_two hne hdir hmapped hn hup (hmay b hb) (hmay c hc) hidle hprio
  · intro s b line t w n one st sent now h
    have hone : one = (1 : BitVec 8) <<< b.toNat := cast_board b
    refine ⟨fun hboard hawait hroom => ⟨fun hr => ?_, fun hr => ?_, fun hr => ?_⟩,
      fun hsend => ⟨fun hfetch => ?_, fun hfetch => ?_⟩, fun _ _ hdue _ => completes_ackInv_owing h hdue,
      fun hawait hsent hdue => ⟨fun hfetch => ?_, fun hfetch hr hst => ?_, fun hfetch hr hst => ?_, fun hfetch hst => ?_⟩⟩
    · obtain ⟨u, hu, hst, hhome, hsends, hdue, hdir⟩ := completes_dataS h hboard hawait hroom hr
      refine ⟨u, hu, hst, hhome, hsends, hdue, _, hdir, ?_, fun x hx => ?_⟩
      · rw [BitVec.getLsbD_or, getLsbD_board, Bool.or_true]
      · rw [hx, hone, DirEntry.sharers]
    · exact completes_owns rfl h hboard hawait hroom hr
    · exact completes_owns rfl h hboard hawait hroom hr
    · rw [hone]; exact completes_inv h hsend hfetch
    · rw [hone]; exact completes_fetch h hsend hfetch
    · rw [hone]; exact completes_ackInv h hawait hsent hdue hfetch
    · rw [hone]; exact completes_dataF_rds h hawait hsent hdue hfetch hr hst
    · rw [hone]; exact completes_dataF_rdo h hawait hsent hdue hfetch hr hst
    · rw [hone]; exact completes_noneF h hawait hsent hdue hfetch hst
  · exact fun s b line => ⟨completes_linePoison, completes_sscFlush, completes_sscFlushDone⟩

end Sys2Proof.Machine
end

section
namespace Sys2Proof.Machine

/-! ## Registers at their reset values, and 64-bit quantities (R12, R13) -/

theorem regKey_div (r : Reg) (i : Nat) : regKey r i / 1024 = i := by
  have := Reg.ctorIdx_lt r
  unfold regKey
  omega

theorem State.rd_resetRegs (s : State) (p : Reg → Nat → Bool) (r : Reg) (i : Nat) :
    (s.resetRegs p).rd r i = if p r i then resetAt r i else s.rd r i := by
  have hget : (s.resetRegs p).rd r i = if !p (regOfKey (regKey r i)) (regKey r i / 1024) then s.rd r i else regReset (regKey r i) :=
    Tbl.get_filter regReset (fun k => !p (regOfKey k) (k / 1024)) s.regs (regKey r i)
  rw [hget, regReset, regOfKey_regKey, regKey_div]
  cases p r i <;> rfl

theorem State.rd64_wr64 (s : State) {lo hi : Reg} (i : Nat) {v : Nat} (hne : lo ≠ hi) (hv : v < 2 ^ 64) :
    (s.wr64 lo hi i v).rd64 lo hi i = v := by
  rw [State.rd64, State.wr64, State.rd_wr_ne _ _ _ _ _ _ (fun h => hne h.1.symm), State.rd_wr_same, State.rd_wr_same,
    BitVec.toNat_ofNat, BitVec.toNat_ofNat]
  omega

theorem State.rd64_lt (s : State) (lo hi : Reg) (i : Nat) : s.rd64 lo hi i < 2 ^ 64 := by
  have hlo := (s.rd lo i).isLt
  have hhi := (s.rd hi i).isLt
  rw [State.rd64]
  omega

theorem State.rd64_congr {s t : State} {lo hi : Reg} {i : Nat} (hlo : t.rd lo i = s.rd lo i) (hhi : t.rd hi i = s.rd hi i) :
    t.rd64 lo hi i = s.rd64 lo hi i := by rw [State.rd64, hlo, hhi, State.rd64]

/-! ## The status of the microcode unit (R206) -/

variable {s : State}

theorem State.mcSet_spec (s : State) {st res : Nat} (hst : st < 8) (hres : res < 16) :
    (s.mcSet st res).fld F.HDW_MC_STATUS.STATE 0 = st ∧ (s.mcSet st res).fld F.HDW_MC_STATUS.RESULT 0 = res
      ∧ RegsKept s (s.mcSet st res) [(.HDW_MC_STATUS, 0)] := by
  refine ⟨?_, State.fld_setFld_eq _ _ _ _ (by decide) hres, ((RegsKept.refl s _).setFld _ _ _ (.head _)).setFld _ _ _ (.head _)⟩
  rw [State.mcSet, State.fld_setFld_bits_ne _ _ _ _ _ _ (by decide) (by decide)]
  exact State.fld_setFld_eq _ _ _ _ (by decide) hst

/-- A command of a busy unit is rejected (R199). -/
theorem completes_mcReject {i : Instr} {f : State → State} (hup : s.reachable 0 = true) (hi : exec i s = done (s.atChip 0 f))
    (hf : f s = s.mcReject) : Completes i s (fun u => OnlyRegs (s.putReply .ok) u [(.HDW_MC_STATUS, 0)]
      ∧ u.fld F.HDW_MC_STATUS.BUSY_REJ 0 = 1 ∧ u.fld F.HDW_MC_STATUS.STATE 0 = s.fld F.HDW_MC_STATUS.STATE 0) := by
  refine .of_eq (hi.trans (congrArg done (s.atChip_reachable 0 f hup))) ?_
  rw [hf]
  exact ⟨((OnlyRegs.refl s _).setFld F.HDW_MC_STATUS.BUSY_REJ 0 1 (.head _)).answer .ok,
    (State.fld_answer _ _ _ _).trans (State.fld_setFld_eq _ _ _ _ (by decide) (by decide)),
    (State.fld_answer _ _ _ _).trans (State.fld_setFld_bits_ne _ _ _ _ _ _ (by decide) (by decide))⟩

theorem completes_verify (hup : s.reachable 0 = true) (hidle : ¬ (s.mcUnit = 1 ∨ s.mcUnit = 3)) :
    Completes .verify s (fun u => u.fld F.HDW_MC_STATUS.STATE 0 = 1
      ∧ (u = { s with regs := u.regs, micro := u.micro, reply := u.reply } ∧ RegsKept s u [(.HDW_MC_STATUS, 0)])
      ∧ u.micro = s.micro) := by
  have hverify : s.mcVerify = s.setFld F.HDW_MC_STATUS.STATE 0 1 := if_neg hidle
  refine .of_eq (congrArg done (s.atChip_reachable 0 _ hup)) ?_
  rw [hverify]
  exact ⟨(State.fld_answer _ _ _ _).trans (State.fld_setFld_eq _ _ _ _ (by decide) (by decide)),
    ⟨rfl, ((RegsKept.refl s _).setFld F.HDW_MC_STATUS.STATE 0 1 (.head _)).of_regs rfl⟩, rfl⟩

/-- A window of no bytes holds no image. -/
theorem State.staged_of_no_bytes (h : s.fld F.HDW_MC_LEN.BYTES 0 = 0) : s.staged_ = [] := by
  rw [State.staged_, h, List.take_zero]

theorem completes_discard (hup : s.reachable 0 = true) (hidle : ¬ (s.mcUnit = 1 ∨ s.mcUnit = 3)) :
    Completes .discard s (fun u => u.fld F.HDW_MC_STATUS.STATE 0 = 0 ∧ u.staged_ = [] ∧ u.micro = { s.micro with image := none }
      ∧ u = { s with regs := u.regs, micro := u.micro, reply := .ok }
      ∧ ∀ q i, q ≠ .HDW_MC_WIN → q ≠ .HDW_MC_LEN → q ≠ .HDW_MC_STATUS → u.rd q i = s.rd q i) := by
  obtain ⟨t, ht⟩ : ∃ t, t = (s.resetRegs fun r _ => r = .HDW_MC_WIN || r = .HDW_MC_LEN).putMicro
    { s.micro with image := none } := ⟨_, rfl⟩
  have hrd : ∀ r i, t.rd r i = if (r = .HDW_MC_WIN || r = .HDW_MC_LEN : Bool) then resetAt r i else s.rd r i := fun r i => by
    rw [ht]; exact s.rd_resetRegs (fun r _ => r = .HDW_MC_WIN || r = .HDW_MC_LEN) r i
  have hdiscard : s.mcDiscard = t.setFld F.HDW_MC_STATUS.STATE 0 0 := by rw [ht]; exact if_neg hidle
  have hlen : t.fld F.HDW_MC_LEN.BYTES 0 = 0 := by
    have hzero : t.rd .HDW_MC_LEN 0 = 0 := hrd .HDW_MC_LEN 0
    exact congrArg (fieldOf · 14 0) hzero
  refine .of_eq (congrArg done ((s.atChip_reachable 0 _ hup).trans (congrArg (State.answer · .ok) hdiscard)))
    ⟨State.fld_setFld_eq t _ _ _ (by decide) (by decide), State.staged_of_no_bytes ?_, by rw [ht]; rfl, by rw [ht]; rfl,
      fun q i hwin hlen hstatus => ?_⟩
  · exact (t.fld_setFld_reg_ne F.HDW_MC_STATUS.STATE F.HDW_MC_LEN.BYTES 0 0 0 (by decide)).trans hlen
  · have hq : t.rd q i = s.rd q i := by rw [hrd, if_neg (by simp [hwin, hlen])]
    exact (t.rd_setFld_reg_ne F.HDW_MC_STATUS.STATE 0 0 q i hstatus.symm).trans hq

/-! ## The end of a verify (R193) -/

theorem imgVerdict_lt (m : MicroCode) (l : List Byte) : imgVerdict m l < 16 := by
  unfold imgVerdict
  repeat' split
  all_goals decide

/-- The result of the verify at work: an image that is too long has a bad format (R206). -/
def State.verifyResult (s : State) : Nat :=
  if 16384 < s.fld F.HDW_MC_LEN.BYTES 0 then mcBadFormat else imgVerdict s.micro.master s.staged_

theorem State.verifyResult_lt (s : State) : s.verifyResult < 16 := by
  rw [State.verifyResult]
  split
  · decide
  · exact imgVerdict_lt _ _

theorem exec_verifyDone (h : s.fld F.HDW_MC_STATUS.STATE 0 = 1) :
    exec .verifyDone s = done ((s.putMicro { s.micro with
      image := if s.verifyResult = 0 then some (imgApply s.staged_ s.micro.master) else none }).mcSet
        (if s.verifyResult = 0 then 2 else 0) s.verifyResult) := by
  have hexec : exec .verifyDone s = if s.verifyResult = mcOk
      then done ((s.putMicro { s.micro with image := some (imgApply s.staged_ s.micro.master) }).mcSet 2 mcOk)
      else done ((s.putMicro { s.micro with image := none }).mcSet 0 s.verifyResult) := if_neg (fun hne => hne h)
  rw [hexec]
  by_cases hr : s.verifyResult = 0
  · rw [if_pos (show s.verifyResult = mcOk from hr), if_pos hr, if_pos hr, hr]; rfl
  · rw [if_neg (show s.verifyResult ≠ mcOk from hr), if_neg hr, if_neg hr]

theorem completes_verifyDone {r : Nat} (h : s.fld F.HDW_MC_STATUS.STATE 0 = 1) (hr : s.verifyResult = r) :
    Completes .verifyDone s (fun u => u.fld F.HDW_MC_STATUS.RESULT 0 = r
      ∧ (u = { s with regs := u.regs, micro := u.micro, reply := u.reply } ∧ RegsKept s u [(.HDW_MC_STATUS, 0)])
      ∧ u.fld F.HDW_MC_STATUS.STATE 0 = (if r = 0 then 2 else 0)
      ∧ u.micro = { s.micro with image := if r = 0 then some (imgApply s.staged_ s.micro.master) else none }) := by
  have hst : (if r = 0 then 2 else 0) < 8 := by split <;> decide
  subst hr
  obtain ⟨hstate, hresult, hkept⟩ := (s.putMicro { s.micro with
    image := if s.verifyResult = 0 then some (imgApply s.staged_ s.micro.master) else none }).mcSet_spec hst s.verifyResult_lt
  exact .of_eq (exec_verifyDone h) ⟨hresult, ⟨rfl, hkept⟩, hstate, rfl⟩

end Sys2Proof.Machine
end

section
namespace Sys2Proof.Machine

/-! ## An apply begins: the first cluster of every Board quiesces (R195, R196) -/

variable {s : State}

theorem State.reachable_congr {t : State} (hfenced : t.rd .HDW_BOOT_STAT 0 = s.rd .HDW_BOOT_STAT 0)
    (hlinks : t.plat.linkFailed = s.plat.linkFailed) (chip : Nat) : t.reachable chip = s.reachable chip := by
  have hfld : t.fld F.HDW_BOOT_STAT.FENCED 0 = s.fld F.HDW_BOOT_STAT.FENCED 0 := congrArg (fieldOf · _ _) hfenced
  rw [State.reachable, State.isFenced, hfld, hlinks, State.reachable, State.isFenced]

/-- The next cluster of a Board that answers quiesces, if one is left. -/
theorem State.mcNext_cases {b : Nat} (h : s.reachable (8 + b) = true) : s.mcNext b = s
    ∨ ∃ cl, s.micro.tried.contains cl = false ∧ s.mcNext b = s.setFld F.MCODE_STATUS.STATE cl 1 := by
  rw [State.mcNext, if_pos (show s.reachable (boardChip b) = true from h)]
  split
  case h_1 cl l hleft =>
    have hcl := List.mem_filter.mp (hleft ▸ List.mem_cons_self : cl ∈ _)
    exact .inr ⟨cl, by simpa using hcl.2, rfl⟩
  case h_2 => exact .inl rfl

theorem State.mcNext_first {b : Nat} (h : s.reachable (8 + b) = true) (htried : s.micro.tried = []) :
    s.mcNext b = s.setFld F.MCODE_STATUS.STATE (b * 8) 1 := by
  rw [State.mcNext, if_pos (show s.reachable (boardChip b) = true from h), htried]
  rfl

/-- The first clusters of the Boards of a list quiesce. -/
theorem State.mcNext_boards (l : List Nat) (s : State) (htried : s.micro.tried = []) (hup : ∀ b ∈ l, s.reachable (8 + b) = true) :
    (l.foldl State.mcNext s).micro = s.micro ∧ (∀ r i, r ≠ .MCODE_STATUS → (l.foldl State.mcNext s).rd r i = s.rd r i)
      ∧ ∀ c, (l.foldl State.mcNext s).fld F.MCODE_STATUS.STATE c
        = if ∃ b ∈ l, c = b * 8 then 1 else s.fld F.MCODE_STATUS.STATE c := by
  induction l generalizing s with
  | nil => exact ⟨rfl, fun _ _ _ => rfl, fun c => by simp⟩
  | cons b l ih =>
    obtain ⟨t, ht⟩ : ∃ t, t = s.setFld F.MCODE_STATUS.STATE (b * 8) 1 := ⟨_, rfl⟩
    have hfirst : s.mcNext b = t := (State.mcNext_first (hup b List.mem_cons_self) htried).trans ht.symm
    have hrd : ∀ r i, r ≠ .MCODE_STATUS → t.rd r i = s.rd r i := fun r i hr => by
      rw [ht]; exact State.rd_setFld_reg_ne _ _ _ _ _ _ hr.symm
    have htup : ∀ x ∈ l, t.reachable (8 + x) = true := fun x hx => by
      rw [State.reachable_congr (hrd _ _ (by decide)) (by rw [ht]; rfl)]
      exact hup x (List.mem_cons_of_mem _ hx)
    obtain ⟨hmicro, hkept, hstate⟩ := ih t (by rw [ht]; exact htried) htup
    rw [List.foldl_cons, hfirst]
    refine ⟨hmicro.trans (by rw [ht]; rfl), fun r i hr => (hkept r i hr).trans (hrd r i hr), fun c => ?_⟩
    rw [hstate]
    by_cases hl : ∃ x ∈ l, c = x * 8
    · obtain ⟨x, hx, hc⟩ := hl
      rw [if_pos ⟨x, hx, hc⟩, if_pos ⟨x, List.mem_cons_of_mem _ hx, hc⟩]
    · rw [if_neg hl, ht]
      by_cases hc : c = b * 8
      · rw [if_pos ⟨b, List.mem_cons_self, hc⟩, hc]
        exact State.fld_setFld_eq _ _ _ _ (by decide) (by decide)
      · rw [if_neg, State.fld_setFld_ne _ _ _ _ _ _ ⟨by decide, by decide⟩ (.inr (.inl fun h => hc h.symm))]
        rintro ⟨x, hx, hcx⟩
        rcases List.mem_cons.mp hx with rfl | hx
        · exact hc hcx
        · exact hl ⟨x, hx, hcx⟩

/-- The unit as it begins to apply an image: the old master copy is kept, and no cluster has been tried (R195). -/
def State.applyBegun (s : State) (m : MicroCode) : State :=
  (((s.putMicro { s.micro with master := m, old := some s.micro.master, image := none, tried := [] }).mcSet 3 mcOk).setFld
    F.HDW_MC_STATUS.TRIED 0 0).wr64 .HDW_MC_FAIL .HDW_MC_FAIL_HI 0 0

theorem State.mcApply_eq {m : MicroCode} (h : s.fld F.HDW_MC_STATUS.STATE 0 = 2) (himage : s.micro.image = some m) :
    s.mcApply = (List.range 8).foldl State.mcNext (s.applyBegun m) := by
  have hunit : s.mcUnit = 2 := h
  simp only [State.mcApply, hunit, himage]
  rfl

theorem State.applyBegun_status (s : State) (m : MicroCode) : (s.applyBegun m).fld F.HDW_MC_STATUS.STATE 0 = 3
    ∧ (s.applyBegun m).fld F.HDW_MC_STATUS.RESULT 0 = 0 ∧ (s.applyBegun m).fld F.HDW_MC_STATUS.TRIED 0 = 0
    ∧ (s.applyBegun m).rd64 .HDW_MC_FAIL .HDW_MC_FAIL_HI 0 = 0 := by
  obtain ⟨t, ht⟩ : ∃ t, t = s.putMicro
    { s.micro with master := m, old := some s.micro.master, image := none, tried := [] } := ⟨_, rfl⟩
  obtain ⟨hstate, hresult, -⟩ := t.mcSet_spec (st := 3) (res := mcOk) (by decide) (by decide)
  have hstatus : ∀ f : Fld, f.reg = .HDW_MC_STATUS →
      (s.applyBegun m).fld f 0 = ((t.mcSet 3 mcOk).setFld F.HDW_MC_STATUS.TRIED 0 0).fld f 0 := fun f hf => by
    rw [State.applyBegun, ← ht, State.wr64, State.fld_wr_ne _ _ _ _ _ _ (.inl (by rw [hf]; decide)),
      State.fld_wr_ne _ _ _ _ _ _ (.inl (by rw [hf]; decide))]
  refine ⟨?_, ?_, ?_, State.rd64_wr64 _ 0 (by decide) (by decide)⟩
  · rw [hstatus _ rfl, State.fld_setFld_bits_ne _ _ _ _ _ _ (by decide) (by decide)]; exact hstate
  · rw [hstatus _ rfl, State.fld_setFld_bits_ne _ _ _ _ _ _ (by decide) (by decide)]; exact hresult
  · rw [hstatus _ rfl]; exact State.fld_setFld_eq _ _ _ _ (by decide) (by decide)

theorem State.rd_applyBegun (s : State) (m : MicroCode) {r : Reg} (i : Nat) (hstatus : r ≠ .HDW_MC_STATUS) (hfail : r ≠ .HDW_MC_FAIL)
    (hhigh : r ≠ .HDW_MC_FAIL_HI) : (s.applyBegun m).rd r i = s.rd r i := by
  rw [State.applyBegun, State.wr64, State.rd_wr_ne _ _ _ _ _ _ (fun h => hhigh h.1.symm),
    State.rd_wr_ne _ _ _ _ _ _ (fun h => hfail h.1.symm), State.rd_setFld_reg_ne _ _ _ _ _ _ hstatus.symm, State.mcSet,
    State.rd_setFld_reg_ne _ _ _ _ _ _ hstatus.symm, State.rd_setFld_reg_ne _ _ _ _ _ _ hstatus.symm]
  rfl

/-- A cluster is the first of a Board. -/
theorem first_of_board {c : Nat} (hc : c < 64) : (∃ b ∈ List.range 8, c = b * 8) ↔ c % 8 = 0 := by
  constructor
  · rintro ⟨b, -, rfl⟩; omega
  · exact fun h => ⟨c / 8, List.mem_range.mpr (by omega), by omega⟩

theorem completes_apply {m : MicroCode} (hup : s.reachable 0 = true) (h : s.fld F.HDW_MC_STATUS.STATE 0 = 2)
    (himage : s.micro.image = some m) (hboards : ∀ b < 8, s.reachable (8 + b) = true) :
    Completes .apply s (fun u => u.fld F.HDW_MC_STATUS.STATE 0 = 3 ∧ u.fld F.HDW_MC_STATUS.RESULT 0 = 0
      ∧ u.micro = { s.micro with master := m, old := some s.micro.master, image := none, tried := [] }
      ∧ u.rd64 .HDW_MC_FAIL .HDW_MC_FAIL_HI 0 = 0 ∧ u.fld F.HDW_MC_STATUS.TRIED 0 = 0
      ∧ ∀ c < 64, u.fld F.MCODE_STATUS.STATE c = if c % 8 = 0 then 1 else s.fld F.MCODE_STATUS.STATE c) := by
  obtain ⟨hstate, hresult, htried, hfail⟩ := s.applyBegun_status m
  have hkeep := fun r i => s.rd_applyBegun m (r := r) i
  obtain ⟨v, hv⟩ : ∃ v, v = s.applyBegun m := ⟨_, rfl⟩
  rw [← hv] at hstate hresult htried hfail
  have hlive : ∀ b ∈ List.range 8, v.reachable (8 + b) = true := fun b hb => by
    rw [State.reachable_congr (s := s) (by rw [hv]; exact hkeep _ _ (by decide) (by decide) (by decide)) (by rw [hv]; rfl)]
    exact hboards b (List.mem_range.mp hb)
  obtain ⟨hmicro, hkept, hquiesce⟩ := State.mcNext_boards (List.range 8) v (by rw [hv]; rfl) hlive
  have hfld : ∀ f : Fld, f.reg ≠ .MCODE_STATUS → ∀ i, ((List.range 8).foldl State.mcNext v).fld f i = v.fld f i :=
    fun f hf i => congrArg (fieldOf · _ _) (hkept f.reg i hf)
  refine .of_eq (congrArg done (s.atChip_reachable 0 _ hup)) ?_
  rw [State.mcApply_eq h himage, ← hv]
  refine ⟨(hfld _ (by decide) 0).trans hstate, (hfld _ (by decide) 0).trans hresult, hmicro.trans (by rw [hv]; rfl),
    (State.rd64_congr (hkept _ _ (by decide)) (hkept _ _ (by decide))).trans hfail, (hfld _ (by decide) 0).trans htried, fun c hc => ?_⟩
  have hold : v.fld F.MCODE_STATUS.STATE c = s.fld F.MCODE_STATUS.STATE c := by
    rw [State.fld, hv, hkeep _ _ (by decide) (by decide) (by decide), State.fld]
  have hend := hquiesce c
  rw [hold, if_congr (first_of_board hc) rfl rfl] at hend
  exact hend

/-! ## An apply ends (R195) -/

theorem completes_applyDone (h : s.fld F.HDW_MC_STATUS.STATE 0 = 3) (hall : s.micro.tried.length = 64) :
    Completes .applyDone s (fun u => u.fld F.HDW_MC_STATUS.STATE 0 = 4
      ∧ u.fld F.HDW_MC_STATUS.RESULT 0 = (if s.rd64 .HDW_MC_FAIL .HDW_MC_FAIL_HI 0 = 0 then 0 else 5)
      ∧ u.micro = { s.micro with old := none } ∧ RegsKept s u [(.HDW_MC_STATUS, 0)]) := by
  have hres : (if s.rd64 .HDW_MC_FAIL .HDW_MC_FAIL_HI 0 = 0 then mcOk else mcPartial) < 16 := by split <;> decide
  have hexec : exec .applyDone s = done ((s.putMicro { s.micro with old := none }).mcSet 4
      (if s.rd64 .HDW_MC_FAIL .HDW_MC_FAIL_HI 0 = 0 then mcOk else mcPartial)) := if_pos ⟨h, hall⟩
  obtain ⟨hstate, hresult, hkept⟩ := (s.putMicro { s.micro with old := none }).mcSet_spec (st := 4) (by decide) hres
  exact .of_eq hexec ⟨hstate, hresult, rfl, hkept⟩

end Sys2Proof.Machine
end

section
namespace Sys2Proof.Machine

/-! ## What the end of a thread leaves of the microcode's control (R134, R197) -/

/-- The registers that decide whether a cluster's Board answers, and those that list the clusters that failed. -/
def reloadReg : Reg → Bool
  | .HDW_BOOT_STAT | .HDW_MC_FAIL | .HDW_MC_FAIL_HI => true
  | _ => false

/-- From s to t the microcode, the fences and failed links, the list of failed clusters and the waiting thread commands stand. -/
structure ReloadKept (s t : State) : Prop where
  micro : t.micro = s.micro
  links : t.plat.linkFailed = s.plat.linkFailed
  cmds : t.eng.cmdPend = s.eng.cmdPend
  words : ∀ r i, reloadReg r = true → t.rd r i = s.rd r i

variable {s t u : State}

theorem ReloadKept.refl (s : State) : ReloadKept s s := ⟨rfl, rfl, rfl, fun _ _ _ => rfl⟩

/-- A change of other parts of the state than the four. -/
theorem ReloadKept.same (h : ReloadKept s t) (hmicro : u.micro = t.micro) (hlinks : u.plat.linkFailed = t.plat.linkFailed)
    (hcmds : u.eng.cmdPend = t.eng.cmdPend) (hregs : u.regs = t.regs) : ReloadKept s u :=
  ⟨hmicro.trans h.micro, hlinks.trans h.links, hcmds.trans h.cmds, fun r i hr =>
    (congrArg (fun x => Tbl.get regReset x (regKey r i)) hregs).trans (h.words r i hr)⟩

theorem ReloadKept.setFld {f i v} (h : ReloadKept s t) (hf : reloadReg f.reg = false) : ReloadKept s (t.setFld f i v) := by
  refine ⟨h.micro, h.links, h.cmds, fun r j hr => ?_⟩
  have hne : f.reg ≠ r := by rintro rfl; simp [hf] at hr
  rw [State.rd_setFld_reg_ne _ _ _ _ _ _ hne, h.words r j hr]

theorem ReloadKept.satInc {f i n} (h : ReloadKept s t) (hf : reloadReg f.reg = false) : ReloadKept s (t.satInc f i n) := h.setFld hf

theorem ReloadKept.ite {c} [Decidable c] {a b : State} (ha : ReloadKept s a) (hb : ReloadKept s b) :
    ReloadKept s (if c then a else b) := by
  split
  · exact ha
  · exact hb

theorem ReloadKept.foldl {α : Type} {f : State → α → State} {l : List α} (h : ReloadKept s t)
    (hf : ∀ {u x}, ReloadKept s u → ReloadKept s (f u x)) : ReloadKept s (l.foldl f t) := by
  induction l generalizing t with
  | nil => exact h
  | cons x l ih => exact ih (hf h)

theorem ReloadKept.reachable (h : ReloadKept s t) (chip : Nat) : t.reachable chip = s.reachable chip :=
  State.reachable_congr (h.words _ _ rfl) h.links chip

theorem ReloadKept.fails (h : ReloadKept s t) : t.rd64 .HDW_MC_FAIL .HDW_MC_FAIL_HI 0 = s.rd64 .HDW_MC_FAIL .HDW_MC_FAIL_HI 0 :=
  State.rd64_congr (h.words _ _ rfl) (h.words _ _ rfl)

theorem ReloadKept.cmdsOf (h : ReloadKept s t) (cl : Nat) : t.cmdsOf cl = s.cmdsOf cl := by rw [State.cmdsOf, h.cmds, State.cmdsOf]

theorem ReloadKept.mcStore (h : ReloadKept s t) (cl : Nat) : t.mcStore cl = s.mcStore cl := by rw [State.mcStore, h.micro, State.mcStore]

theorem ReloadKept.trans (h : ReloadKept s t) (k : ReloadKept t u) : ReloadKept s u :=
  ⟨k.micro.trans h.micro, k.links.trans h.links, k.cmds.trans h.cmds, fun r i hr => (k.words r i hr).trans (h.words r i hr)⟩

/-! ### Threads and the frames they hold -/

theorem ReloadKept.setThread {th x} (h : ReloadKept s t) : ReloadKept s (t.setThread th x) := h.same rfl rfl rfl rfl

theorem ReloadKept.putCfl {x} (h : ReloadKept s t) : ReloadKept s (t.putCfl x) := h.same rfl rfl rfl rfl

theorem ReloadKept.putIntake {x} (h : ReloadKept s t) : ReloadKept s (t.putIntake x) := h.same rfl rfl rfl rfl

theorem ReloadKept.dmaFail {th ch} (h : ReloadKept s t) : ReloadKept s (State.dmaFail th t ch) := h.same rfl rfl rfl rfl

theorem ReloadKept.switchFrom {th} (h : ReloadKept s t) : ReloadKept s (t.switchFrom th) := by
  obtain ⟨c, hc⟩ := t.switchFrom_eq th
  rw [hc]
  exact h.same rfl rfl rfl rfl

theorem ReloadKept.makeReadyAll {l} (h : ReloadKept s t) : ReloadKept s (t.makeReadyAll l) := by
  obtain ⟨⟨thr, cur, hready⟩, -⟩ := t.makeReadyAll_spec l
  rw [hready]
  exact h.same rfl rfl rfl rfl

theorem ReloadKept.threadStopped {th} (h : ReloadKept s t) : ReloadKept s (t.threadStopped th) := .ite h.setThread.switchFrom h.setThread

theorem ReloadKept.updFrame {hx g} (h : ReloadKept s t) : ReloadKept s (t.updFrame hx g) := by
  rw [State.updFrame]
  split
  · exact h.putCfl
  · exact h

theorem ReloadKept.cellWipe {f off n} (h : ReloadKept s t) : ReloadKept s (t.cellWipe f off n) :=
  h.foldl fun hu => hu.same rfl rfl rfl rfl

theorem ReloadKept.payWrite {th} (h : ReloadKept s t) : ReloadKept s (t.payWrite th) := by
  dsimp only [State.payWrite]
  split
  · exact h
  · refine ReloadKept.setThread ?_
    split
    · exact h.putCfl.cellWipe
    · exact h

theorem ReloadKept.payDrain {th} (h : ReloadKept s t) : ReloadKept s (t.payDrain th) := h.foldl fun hu => hu.payWrite

/-! ### A drop and the commit stage (R254, R263, R265) -/

theorem ReloadKept.freeSlot {b x} (h : ReloadKept s t) : ReloadKept s (t.freeSlot b x) := by
  cases x with
  | none => exact h
  | some p => exact (h.setFld (f := F.BNK_STEER_TBL.INFLIGHT) rfl).putIntake

theorem ReloadKept.updRef {d f} (h : ReloadKept s t) : ReloadKept s (t.updRef d f) := by
  cases d with
  | none => exact h
  | some d => exact .ite (h.same rfl rfl rfl rfl) h

theorem ReloadKept.reclaimFrame {first} (h : ReloadKept s t) : ReloadKept s (t.reclaimFrame first) := by
  rw [State.reclaimFrame]
  split
  · exact h
  case h_2 f _ => exact (h.putCfl.updRef (d := f.desc)).putCfl

theorem ReloadKept.retireCredit {i} (h : ReloadKept s t) : ReloadKept s (t.retireCredit i) := by
  cases i <;> exact h.same rfl rfl rfl rfl

/-- A drop uses no enqueue credit. -/
theorem ReloadKept.sendCommit {i} {c : CommitSlot} (h : ReloadKept s t) (hc : c.th = none) : ReloadKept s (t.sendCommit i c) := by
  refine .ite ?_ h.putCfl
  rw [State.lateSlot, State.slotCredit, hc]
  refine ReloadKept.satInc ?_ rfl
  split
  · exact h.reclaimFrame.retireCredit
  · exact h

theorem ReloadKept.dropHandle {hx reason} (h : ReloadKept s t) : ReloadKept s (t.dropHandle hx reason) := by
  rw [State.dropHandle]
  split
  · exact h.satInc rfl
  · refine ReloadKept.sendCommit ?_ rfl
    split
    · exact h.putCfl.freeSlot
    · exact h.putCfl

/-! ### The gate, and the thread's end (R126, R343) -/

theorem ReloadKept.gateFail {th} (h : ReloadKept s t) : ReloadKept s (t.gateFail th) :=
  .ite h (((h.payDrain.foldl fun hu => hu.updFrame).setThread.foldl fun hu => hu.dmaFail).satInc rfl)

theorem ReloadKept.gateDrop {th hx} (h : ReloadKept s t) : ReloadKept s (State.gateDrop th t hx) := h.setThread.dropHandle.satInc rfl

theorem ReloadKept.gateResolve {th} (h : ReloadKept s t) : ReloadKept s (t.gateResolve th) :=
  .ite (h.gateFail.payDrain.foldl fun hu => hu.gateDrop) h

theorem ReloadKept.threadEnd {th} (h : ReloadKept s t) : ReloadKept s (t.threadEnd th) :=
  h.gateResolve.payDrain.setThread.foldl fun hu => hu.dropHandle

theorem ReloadKept.mcStopThread {th} (h : ReloadKept s t) : ReloadKept s (t.mcStopThread th) := h.threadStopped.threadEnd

/-! ### Events and backed-out threads (R196, R531) -/

theorem eventReg_of_reloadReg {r : Reg} (h : reloadReg r = true) : eventReg r = false := by
  unfold reloadReg at h
  split at h
  · rfl
  · rfl
  · rfl
  · cases h

theorem ReloadKept.event {chip blk code sev data} (h : ReloadKept s t) : ReloadKept s (t.event chip blk code sev data) := by
  obtain ⟨hquiet, hwords⟩ := t.sameButEvents_event chip blk code sev data
  rw [State.quietEq] at hquiet
  refine ⟨?_, ?_, ?_, fun r i hr => (hwords r i (eventReg_of_reloadReg hr)).trans (h.words r i hr)⟩
  · rw [hquiet]; exact h.micro
  · rw [hquiet]; exact h.links
  · rw [hquiet]; exact h.cmds

theorem ReloadKept.mcBackout {cl} (h : ReloadKept s t) : ReloadKept s (t.mcBackout cl) :=
  (h.foldl fun hu => hu.setThread).makeReadyAll.satInc rfl

end Sys2Proof.Machine
end

section
namespace Sys2Proof.Machine

/-! ## The end of a reload: the cluster is tried, and the next one quiesces (R195 to R197) -/

variable {s : State} {c : Nat}

/-- What the end of a cluster's reload leaves: its state and words, and the fail map; the cluster is the last one tried. -/
structure ReloadEnded (c : Nat) (s u : State) : Prop where
  state : u.fld F.MCODE_STATUS.STATE c = s.fld F.MCODE_STATUS.STATE c
  store : u.mcStore c = s.mcStore c
  tried : u.micro.tried = s.micro.tried ++ [c]
  words : ∀ r i, r ≠ .MCODE_STATUS → r ≠ .HDW_MC_STATUS → u.rd r i = s.rd r i

theorem ReloadEnded.fails {u : State} (h : ReloadEnded c s u) :
    u.rd64 .HDW_MC_FAIL .HDW_MC_FAIL_HI 0 = s.rd64 .HDW_MC_FAIL .HDW_MC_FAIL_HI 0 :=
  State.rd64_congr (h.words _ _ (by decide) (by decide)) (h.words _ _ (by decide) (by decide))

/-- Nothing waited for the end of a reload. -/
theorem State.mcResume_idle (hcmds : s.cmdsOf c = []) (hlater : c ∉ s.micro.later) : ∃ x, s.mcResume c = s.putEng x := by
  have hfirst : ∃ x, (if s.mcState c = 0 then (s.cmdsOf c).foldl (fun s e => s.threadCmdDo e.1 e.2) (s.setCmds c []) else s)
      = s.putEng x := by
    rw [hcmds]
    split
    · exact ⟨_, rfl⟩
    · exact ⟨s.eng, rfl⟩
  obtain ⟨x, hx⟩ := hfirst
  refine ⟨x, ?_⟩
  rw [State.mcResume]
  dsimp only
  rw [hx]
  exact if_neg (by simpa using hlater)

theorem State.rd_mcTried (s : State) (c : Nat) {r : Reg} (i : Nat) (hr : r ≠ .HDW_MC_STATUS) : (s.mcTried c).rd r i = s.rd r i :=
  State.rd_setFld_reg_ne (s.putMicro { s.micro with tried := s.micro.tried ++ [c] }) F.HDW_MC_STATUS.TRIED 0
    (s.micro.tried.length + 1) r i hr.symm

@[simp] theorem State.mcTried_micro (s : State) (c : Nat) : (s.mcTried c).micro = { s.micro with tried := s.micro.tried ++ [c] } :=
  State.setFld_micro _ _ _ _
@[simp] theorem State.mcTried_plat (s : State) (c : Nat) : (s.mcTried c).plat = s.plat := State.setFld_plat _ _ _ _
@[simp] theorem State.mcTried_eng (s : State) (c : Nat) : (s.mcTried c).eng = s.eng := State.setFld_eng _ _ _ _

theorem State.mcNext_reloadEnded (h : s.reachable (8 + c / 8) = true) (hcmds : s.cmdsOf c = []) (hlater : c ∉ s.micro.later) :
    ReloadEnded c s (((s.mcTried c).mcResume c).mcNext (c / 8)) := by
  have hwait : (s.mcTried c).cmdsOf c = [] := by rw [State.cmdsOf, State.mcTried_eng]; exact hcmds
  obtain ⟨x, hx⟩ := State.mcResume_idle hwait (by rw [State.mcTried_micro]; exact hlater)
  obtain ⟨v, hv⟩ : ∃ v, v = (s.mcTried c).putEng x := ⟨_, rfl⟩
  have hmicro : v.micro = { s.micro with tried := s.micro.tried ++ [c] } := by rw [hv, State.putEng_micro, State.mcTried_micro]
  have hlinks : v.plat.linkFailed = s.plat.linkFailed := by rw [hv, State.putEng_plat, State.mcTried_plat]
  have hrd : ∀ r i, r ≠ .HDW_MC_STATUS → v.rd r i = s.rd r i := fun r i hr => by
    rw [hv, State.rd, State.putEng_regs, ← State.rd]; exact s.rd_mcTried c i hr
  have hend : ReloadEnded c s v :=
    ⟨congrArg (fieldOf · _ _) (hrd _ _ (by decide)), by rw [State.mcStore, hmicro, State.mcStore], by rw [hmicro],
      fun r i _ hr => hrd r i hr⟩
  have hup : v.reachable (8 + c / 8) = true := (State.reachable_congr (hrd _ _ (by decide)) hlinks _).trans h
  rw [hx, ← hv]
  obtain hnone | ⟨cl, hleft, hnext⟩ := State.mcNext_cases hup
  · rw [hnone]; exact hend
  · have hne : cl ≠ c := by
      rintro rfl
      rw [hend.tried] at hleft
      simp at hleft
    have hsame : (v.setFld F.MCODE_STATUS.STATE cl 1).micro = v.micro := State.setFld_micro _ _ _ _
    rw [hnext]
    exact ⟨(State.fld_setFld_ne _ _ _ _ _ _ ⟨by decide, by decide⟩ (.inr (.inl hne))).trans hend.state,
      by rw [State.mcStore, hsame]; exact hend.store, by rw [hsame]; exact hend.tried,
      fun r i hr hs => (State.rd_setFld_reg_ne _ _ _ _ _ _ hr.symm).trans (hend.words r i hr hs)⟩

/-! ## What a reload writes (R196, R204) -/

/-- The base words of a store (R181). -/
def baseWords (m : MicroStore) : Tbl (BitVec 24) × Tbl (BitVec 128) := (below 0x1C00 m.micro, below 0x380 m.nano)

theorem State.mcReload_eq (s : State) (c : Nat) : s.mcReload c = s.mcTake c { s.micro.master with
    words := if baseWords (s.micro.old.getD s.micro.master).words = baseWords s.micro.master.words
      then overlayOf (s.mcStore c) s.micro.master.words else s.micro.master.words } := by
  rw [State.mcReload]
  dsimp only
  by_cases hbase : baseWords (s.micro.old.getD s.micro.master).words = baseWords s.micro.master.words
  · rw [if_pos hbase, if_pos (Prod.mk.inj hbase)]
  · rw [if_neg hbase, if_neg fun h => hbase (Prod.ext h.1 h.2)]

/-- A cluster's MCODE_VERSION shows the microcode it took (R204). -/
theorem State.mcTake_version (s : State) (c : Nat) (m : MicroCode) :
    (s.mcTake c m).fld F.MCODE_VERSION_HI.PATCH c = m.patch.toNat ∧ (s.mcTake c m).fld F.MCODE_VERSION.PATCH_ID c = m.patchId.toNat := by
  rw [State.mcTake]
  constructor
  · rw [State.fld_setFld_bits_ne _ _ _ _ _ _ (by decide) (by decide), State.fld_setFld_bits_ne _ _ _ _ _ _ (by decide) (by decide)]
    exact State.fld_setFld_eq _ _ _ _ (by decide) m.patch.isLt
  · rw [State.fld_setFld_reg_ne _ _ _ _ _ _ (by decide), State.fld_setFld_reg_ne _ _ _ _ _ _ (by decide),
      State.fld_setFld_reg_ne _ _ _ _ _ _ (by decide)]
    exact State.fld_setFld_eq _ _ _ _ (by decide) m.patchId.isLt

theorem State.mcTake_kept (s : State) (c : Nat) (m : MicroCode) : ReloadKept (s.setMcStore c m.words) (s.mcTake c m) :=
  ((((ReloadKept.refl _).setFld rfl).setFld rfl).setFld rfl).setFld rfl

theorem State.mcStore_setMcStore (s : State) (c : Nat) (m : MicroStore) : (s.setMcStore c m).mcStore c = m := Tbl.get_set_same _ _ _ _

/-! ## RELOAD_QUIESCE_LIMIT (R196, R197) -/

/-- The cluster as its reload loads: the threads that wait are backed out, and its state is LOAD. -/
def State.reloadBegun (s : State) (c : Nat) : State := (s.mcBackout c).setFld F.MCODE_STATUS.STATE c 2

theorem State.reloadBegun_kept (s : State) (c : Nat) : ReloadKept s (s.reloadBegun c) := (ReloadKept.refl s).mcBackout.setFld rfl

/-- The cluster runs the words that it read back. -/
def State.reloadRuns (s : State) (c : Nat) : State := ((s.reloadBegun c).mcReload c).setFld F.MCODE_STATUS.STATE c 0

theorem exec_reloadQuiesceLimit {cl : BitVec 6} {k : BitVec 2} (h : s.fld F.MCODE_STATUS.STATE cl.toNat = 1) :
    exec (.reloadQuiesceLimit cl k) s = done ((((if k.toNat < 2 then s.reloadRuns cl.toNat else (s.reloadBegun cl.toNat).mcLoadErr
      cl.toNat).mcTried cl.toNat).mcResume cl.toNat).mcNext (cl.toNat / 8)) := by
  have hexec : exec (.reloadQuiesceLimit cl k) s = done (((if k.toNat < 2 then (s.reloadRuns cl.toNat).mcTried cl.toNat
      else ((s.reloadBegun cl.toNat).mcLoadErr cl.toNat).mcTried cl.toNat).mcResume cl.toNat).mcNext (cl.toNat / 8)) :=
    if_neg (fun hne => hne h)
  rw [hexec, apply_ite (State.mcTried · cl.toNat)]

/-- What the reload makes of a cluster when the words match (R196). -/
theorem State.reloadRuns_spec (s : State) (c : Nat) :
    ReloadKept (s.setMcStore c (if baseWords (s.micro.old.getD s.micro.master).words = baseWords s.micro.master.words
        then overlayOf (s.mcStore c) s.micro.master.words else s.micro.master.words)) (s.reloadRuns c)
      ∧ (s.reloadRuns c).fld F.MCODE_STATUS.STATE c = 0 ∧ (s.reloadRuns c).fld F.MCODE_VERSION_HI.PATCH c = s.micro.master.patch.toNat
      ∧ (s.reloadRuns c).fld F.MCODE_VERSION.PATCH_ID c = s.micro.master.patchId.toNat := by
  have hbegun := s.reloadBegun_kept c
  obtain ⟨w, hw⟩ : ∃ w, w = s.reloadBegun c := ⟨_, rfl⟩
  rw [← hw] at hbegun
  have hruns : s.reloadRuns c = (w.mcReload c).setFld F.MCODE_STATUS.STATE c 0 := by rw [hw]; rfl
  obtain ⟨m, hm⟩ : ∃ m : MicroCode, m = { s.micro.master with
    words := if baseWords (s.micro.old.getD s.micro.master).words = baseWords s.micro.master.words
      then overlayOf (s.mcStore c) s.micro.master.words else s.micro.master.words } := ⟨_, rfl⟩
  have htake : w.mcReload c = w.mcTake c m := by rw [State.mcReload_eq, hbegun.micro, hbegun.mcStore, hm]
  obtain ⟨hpatch, hid⟩ := w.mcTake_version c m
  have hstored : ReloadKept (s.setMcStore c m.words) (w.setMcStore c m.words) :=
    ⟨by rw [State.setMcStore, hbegun.micro]; rfl, hbegun.links, hbegun.cmds, hbegun.words⟩
  rw [hruns, htake]
  refine ⟨?_, State.fld_setFld_eq _ _ _ _ (by decide) (by decide), ?_, ?_⟩
  · have hkept := (hstored.trans (w.mcTake_kept c m)).setFld (f := F.MCODE_STATUS.STATE) (i := c) (v := 0) rfl
    rw [hm] at hkept ⊢
    exact hkept
  · rw [State.fld_setFld_reg_ne _ _ _ _ _ _ (by decide), hpatch, hm]
  · rw [State.fld_setFld_reg_ne _ _ _ _ _ _ (by decide), hid, hm]

/-- A reload whose words are read back within two tries (R196). -/
theorem completes_reload {cl : BitVec 6} {k : BitVec 2} (h : s.fld F.MCODE_STATUS.STATE cl.toNat = 1)
    (hup : s.reachable (8 + cl.toNat / 8) = true) (hcmds : s.cmdsOf cl.toNat = []) (hlater : cl.toNat ∉ s.micro.later)
    (hk : k.toNat < 2) :
    Completes (.reloadQuiesceLimit cl k) s (fun u => u.fld F.MCODE_STATUS.STATE cl.toNat = 0
      ∧ u.mcStore cl.toNat = (if baseWords (s.micro.old.getD s.micro.master).words = baseWords s.micro.master.words
          then overlayOf (s.mcStore cl.toNat) s.micro.master.words else s.micro.master.words)
      ∧ u.fld F.MCODE_VERSION_HI.PATCH cl.toNat = s.micro.master.patch.toNat
      ∧ u.fld F.MCODE_VERSION.PATCH_ID cl.toNat = s.micro.master.patchId.toNat ∧ u.micro.tried = s.micro.tried ++ [cl.toNat]
      ∧ u.rd64 .HDW_MC_FAIL .HDW_MC_FAIL_HI 0 = s.rd64 .HDW_MC_FAIL .HDW_MC_FAIL_HI 0) := by
  obtain ⟨hkept, hstate, hpatch, hid⟩ := s.reloadRuns_spec cl.toNat
  have hmicro := hkept.micro
  have hend := State.mcNext_reloadEnded (s := s.reloadRuns cl.toNat) ((hkept.reachable _).trans hup) ((hkept.cmdsOf _).trans hcmds)
    (by rw [hmicro]; exact hlater)
  refine .of_eq (exec_reloadQuiesceLimit h) ?_
  rw [if_pos hk]
  refine ⟨hend.state.trans hstate, hend.store.trans ((hkept.mcStore _).trans (State.mcStore_setMcStore _ _ _)), ?_, ?_, ?_,
    hend.fails.trans hkept.fails⟩
  · rw [State.fld, hend.words _ _ (by decide) (by decide)]; exact hpatch
  · rw [State.fld, hend.words _ _ (by decide) (by decide)]; exact hid
  · rw [hend.tried, hmicro]; rfl

theorem or_two_pow_lt {a c : Nat} (ha : a < 2 ^ 64) (hc : c < 64) : a ||| 2 ^ c < 2 ^ 64 :=
  Nat.or_lt_two_pow ha (Nat.pow_lt_pow_right (by decide) hc)

theorem State.rd_mcFail (s : State) (c : Nat) {r : Reg} (i : Nat) (hlo : r ≠ .HDW_MC_FAIL) (hhi : r ≠ .HDW_MC_FAIL_HI) :
    (s.mcFail c).rd r i = s.rd r i := by
  rw [State.mcFail, State.wr64, State.rd_wr_ne _ _ _ _ _ _ fun h => hhi h.1.symm, State.rd_wr_ne _ _ _ _ _ _ fun h => hlo h.1.symm]

@[simp] theorem State.mcFail_micro (s : State) (c : Nat) : (s.mcFail c).micro = s.micro := State.wr64_micro _ _ _ _ _
@[simp] theorem State.mcFail_plat (s : State) (c : Nat) : (s.mcFail c).plat = s.plat := State.wr64_plat _ _ _ _ _
@[simp] theorem State.mcFail_eng (s : State) (c : Nat) : (s.mcFail c).eng = s.eng := State.wr64_eng _ _ _ _ _

theorem State.fails_mcFail (s : State) {c : Nat} (hc : c < 64) : (s.mcFail c).rd64 .HDW_MC_FAIL .HDW_MC_FAIL_HI 0
    = s.rd64 .HDW_MC_FAIL .HDW_MC_FAIL_HI 0 ||| 2 ^ c :=
  s.rd64_wr64 0 (by decide) (or_two_pow_lt (s.rd64_lt _ _ _) hc)

/-- What a failed reload leaves: the cluster's state, its bit in the fail map, and the rest of the apply's control (R197). -/
theorem State.mcLoadErr_spec (s : State) {c : Nat} (hc : c < 64) : (s.mcLoadErr c).fld F.MCODE_STATUS.STATE c = 3
    ∧ (s.mcLoadErr c).rd64 .HDW_MC_FAIL .HDW_MC_FAIL_HI 0 = s.rd64 .HDW_MC_FAIL .HDW_MC_FAIL_HI 0 ||| 2 ^ c
    ∧ (s.mcLoadErr c).micro = s.micro ∧ (s.mcLoadErr c).cmdsOf c = s.cmdsOf c
    ∧ ∀ chip, (s.mcLoadErr c).reachable chip = s.reachable chip := by
  obtain ⟨y, hy⟩ : ∃ y, y = (((s.eng.thr.filter (fun e => e.1 / 512 == c && e.2.isStarted)).map (fun e => e.1)).foldl
    State.mcStopThread s).setFld F.MCODE_STATUS.STATE c 3 := ⟨_, rfl⟩
  have hstopped : ReloadKept s y := by
    rw [hy]; exact ((ReloadKept.refl s).foldl fun hu => hu.mcStopThread).setFld rfl
  have herr : s.mcLoadErr c = (y.mcFail c).event (clusterChip c) (c % 8) 0x0602 sevError 0 := by rw [hy]; rfl
  have hevent : ReloadKept (y.mcFail c) (s.mcLoadErr c) := by rw [herr]; exact (ReloadKept.refl _).event
  have hcmds : (y.mcFail c).cmdsOf c = y.cmdsOf c := by rw [State.cmdsOf, State.mcFail_eng, State.cmdsOf]
  have hlive : ∀ chip, (y.mcFail c).reachable chip = y.reachable chip :=
    State.reachable_congr (y.rd_mcFail c 0 (by decide) (by decide)) (by rw [State.mcFail_plat])
  refine ⟨?_, ?_, ?_, ?_, fun chip => ?_⟩
  · rw [herr, (State.sameButEvents_event _ _ _ _ _ _).fld _ _ rfl, State.fld, State.rd_mcFail _ _ _ (by decide) (by decide), hy]
    exact State.fld_setFld_eq _ _ _ _ (by decide) (by decide)
  · rw [hevent.fails, y.fails_mcFail hc, hstopped.fails]
  · rw [hevent.micro, State.mcFail_micro, hstopped.micro]
  · rw [hevent.cmdsOf, hcmds, hstopped.cmdsOf]
  · rw [hevent.reachable, hlive, hstopped.reachable]

/-- A reload whose words mismatch twice (R197). -/
theorem completes_reload_fails {cl : BitVec 6} {k : BitVec 2} (h : s.fld F.MCODE_STATUS.STATE cl.toNat = 1)
    (hup : s.reachable (8 + cl.toNat / 8) = true) (hcmds : s.cmdsOf cl.toNat = []) (hlater : cl.toNat ∉ s.micro.later)
    (hk : 2 ≤ k.toNat) :
    Completes (.reloadQuiesceLimit cl k) s (fun u => u.fld F.MCODE_STATUS.STATE cl.toNat = 3
      ∧ u.mcStore cl.toNat = s.mcStore cl.toNat ∧ u.micro.tried = s.micro.tried ++ [cl.toNat]
      ∧ u.rd64 .HDW_MC_FAIL .HDW_MC_FAIL_HI 0 = s.rd64 .HDW_MC_FAIL .HDW_MC_FAIL_HI 0 ||| 2 ^ cl.toNat) := by
  have hbegun := s.reloadBegun_kept cl.toNat
  obtain ⟨hstate, hfails, hmicro, hwait, hlive⟩ := (s.reloadBegun cl.toNat).mcLoadErr_spec cl.isLt
  rw [hbegun.fails] at hfails
  rw [hbegun.micro] at hmicro
  have hend := State.mcNext_reloadEnded (s := (s.reloadBegun cl.toNat).mcLoadErr cl.toNat)
    ((hlive _).trans ((hbegun.reachable _).trans hup)) (hwait.trans ((hbegun.cmdsOf _).trans hcmds)) (by rw [hmicro]; exact hlater)
  refine .of_eq (exec_reloadQuiesceLimit h) ?_
  rw [if_neg (by omega)]
  refine ⟨hend.state.trans hstate, hend.store.trans ?_, ?_, hend.fails.trans hfails⟩
  · rw [State.mcStore, hmicro, State.mcStore]
  · rw [hend.tried, hmicro]

end Sys2Proof.Machine
end

section
namespace Sys2Proof.Machine

/-! ## The refresh of a cluster from the master copy (R201) -/

variable {s : State} {b : BitVec 3} {f : Firing}

/-- A firing that selects the first cluster alone. -/
theorem mcSelected_first (board : Nat) (h : f.arg.toNat % 256 = 1) : mcSelected board f = [board * 8] := by
  have hm : bits f.arg.toNat 7 0 = 1 := (bits_eq _ _ _).trans (by simpa using h)
  rw [mcSelected, hm]
  rfl

/-- The words of a cluster's stores that differ from a microcode's. -/
def storeDiff (a m : MicroStore) : Nat := tblDiff 0 a.micro m.micro + tblDiff 0 a.nano m.nano + tblDiff 0 a.mtch m.mtch

theorem storeDiff_one {w : BitVec 24} (hw : w ≠ 0) :
    storeDiff { micro := [], nano := [], mtch := [] } { micro := [(5, w)], nano := [], mtch := [] } = 1 := by
  have hkept : [(5, w)].filter (fun e => decide (Tbl.get (fun _ => (0 : BitVec 24)) [] e.1 = 0 ∧ e.2 ≠ 0)) = [(5, w)] :=
    List.filter_eq_self.mpr (by simpa using hw)
  simp only [storeDiff, tblDiff, hkept, List.filter_nil, List.length_nil, List.length_singleton]

/-- A refresh outside an apply: the cluster holds the master words, and the corrected ones are counted. -/
theorem State.mcRefresh_spec (s : State) (c : Nat) (hold : s.micro.old = none) : (s.mcRefresh c).mcStore c = s.micro.master.words
    ∧ (s.mcRefresh c).micro.master = s.micro.master ∧ (s.mcRefresh c).tide = s.tide
    ∧ (s.mcRefresh c).fld F.MCODE_FIX.COUNT c
      = satAdd F.MCODE_FIX.COUNT.max (s.fld F.MCODE_FIX.COUNT c) (storeDiff (s.mcStore c) s.micro.master.words) := by
  have hmaster : s.mcMasterFor c = s.micro.master := by rw [State.mcMasterFor, hold]
  obtain ⟨t, ht⟩ : ∃ t, t = (s.setMcStore c s.micro.master.words).satInc F.MCODE_FIX.COUNT c
    (storeDiff (s.mcStore c) s.micro.master.words) := ⟨_, rfl⟩
  have hrefresh : s.mcRefresh c = if storeDiff (s.mcStore c) s.micro.master.words = 0 then t
      else t.event (clusterChip c) (c % 8) 0x0603 sevCorrected (storeDiff (s.mcStore c) s.micro.master.words) := by
    rw [State.mcRefresh, hmaster, ht]; rfl
  have hevents : t.sameButEvents (s.mcRefresh c) := by
    rw [hrefresh]
    split
    · exact .refl t
    · exact t.sameButEvents_event _ _ _ _ _
  have hquiet := hevents.1
  rw [State.quietEq] at hquiet
  have hmicro : (s.mcRefresh c).micro = t.micro := by rw [hquiet]
  have htide : (s.mcRefresh c).tide = t.tide := by rw [hquiet]
  have hmax : satAdd F.MCODE_FIX.COUNT.max (s.fld F.MCODE_FIX.COUNT c) (storeDiff (s.mcStore c) s.micro.master.words) < 2 ^ 32 := by
    rw [satAdd_eq_min]
    exact Nat.lt_of_le_of_lt (Nat.min_le_left _ _) (by decide)
  refine ⟨?_, by rw [hmicro, ht]; rfl, by rw [htide, ht]; rfl, ?_⟩
  · rw [State.mcStore, hmicro, ht]; exact State.mcStore_setMcStore s c _
  · rw [hevents.fld _ _ rfl, ht]; exact State.fld_setFld_eq _ _ _ _ (by decide) hmax

/-- The unit that refreshes a cluster. -/
def refreshUnit (c : Nat) : Unit_ := .microcode (BitVec.ofNat 6 c)

/-- The idle refresh unit of a cluster has taken a firing and begun its work (R75). -/
def State.refreshBegun (s : State) (c : Nat) (f : Firing) : State :=
  (s.fireTake (refreshUnit c) 4 f).setUnitWork (refreshUnit c) 4 { work := some (firingActs 4 f), pend := none }

/-- A firing at the idle refresh unit of a cluster that runs: the work ends in the same command. -/
theorem State.fireAt_refresh {c : Nat} (hc : c < 64) (hford : f.ford = false) (hlive : s.isFenced (8 + c / 8) = false)
    (hrun : s.fld F.MCODE_STATUS.STATE c = 0) (hdue : s.fireDue (refreshUnit c) 4 f = true)
    (hidle : s.unitWork (refreshUnit c) 4 = noWork) :
    s.fireAt (refreshUnit c) f = ((s.refreshBegun c f).mcRefresh c).workEnd (refreshUnit c) 4 := by
  have hnat : (BitVec.ofNat 6 c).toNat = c := by rw [BitVec.toNat_ofNat]; omega
  have hchip : s.isFenced (unitChip (refreshUnit c)) = false := by rw [refreshUnit, unitChip, hnat]; exact hlive
  have harrive : (s.fireTake (refreshUnit c) 4 f).fireArrive (refreshUnit c) 4 (firingActs 4 f) = s.refreshBegun c f :=
    State.fireArrive_starts hchip hidle hford
  have hwork : (s.refreshBegun c f).mcWork c = ((s.refreshBegun c f).mcRefresh c).workEnd (refreshUnit c) 4 := by
    have hstate : (s.refreshBegun c f).mcState c = 0 := hrun
    rw [State.mcWork, hstate]
    rfl
  calc s.fireAt (refreshUnit c) f
      = ((s.fireTake (refreshUnit c) 4 f).fireArrive (refreshUnit c) 4 (firingActs 4 f)).beginWork (refreshUnit c) (firingActs 4 f) :=
        State.fireAt_idle hdue hchip hidle
    _ = (s.refreshBegun c f).mcWork (BitVec.ofNat 6 c).toNat := by rw [harrive]; rfl
    _ = ((s.refreshBegun c f).mcRefresh c).workEnd (refreshUnit c) 4 := by rw [hnat, hwork]

/-- The refreshed cluster, and its unit: idle again, and the firing taken. -/
theorem State.refreshEnded_spec (s : State) (c : Nat) (f : Firing) (hold : s.micro.old = none) :
    (((s.refreshBegun c f).mcRefresh c).workEnd (refreshUnit c) 4).mcStore c = s.micro.master.words
      ∧ (((s.refreshBegun c f).mcRefresh c).workEnd (refreshUnit c) 4).micro.master = s.micro.master
      ∧ ((((s.refreshBegun c f).mcRefresh c).workEnd (refreshUnit c) 4).rd .MCODE_FIX c).toNat
        = Nat.min (2 ^ 32 - 1) ((s.rd .MCODE_FIX c).toNat + storeDiff (s.mcStore c) s.micro.master.words)
      ∧ (((s.refreshBegun c f).mcRefresh c).workEnd (refreshUnit c) 4).unitWork (refreshUnit c) 4 = noWork
      ∧ (((s.refreshBegun c f).mcRefresh c).workEnd (refreshUnit c) 4).tide.sent = (s.fireTake (refreshUnit c) 4 f).tide.sent := by
  obtain ⟨t, ht⟩ : ∃ t, t = s.refreshBegun c f := ⟨_, rfl⟩
  have hmicro : t.micro = s.micro := by rw [ht]; rfl
  have hregs : t.regs = s.regs := by rw [ht]; rfl
  have hsent : t.tide.sent = (s.fireTake (refreshUnit c) 4 f).tide.sent := by rw [ht]; rfl
  have hbusy : t.unitWork (refreshUnit c) 4 = { work := some (firingActs 4 f), pend := none } := by
    rw [ht]; exact State.unitWork_setUnitWork _ _ _ _
  obtain ⟨hstore, hmaster, htide, hfix⟩ := t.mcRefresh_spec c (by rw [hmicro]; exact hold)
  rw [← ht]
  obtain ⟨v, hv⟩ : ∃ v, v = t.mcRefresh c := ⟨_, rfl⟩
  rw [← hv] at hstore hmaster htide hfix ⊢
  obtain ⟨x, hend⟩ := v.workEnd_eq (refreshUnit c) 4
  have hwork : v.unitWork (refreshUnit c) 4 = { work := some (firingActs 4 f), pend := none } := by
    rw [State.unitWork, htide, ← State.unitWork, hbusy]
  have hcount : (v.rd .MCODE_FIX c).toNat
      = Nat.min (2 ^ 32 - 1) ((s.rd .MCODE_FIX c).toNat + storeDiff (s.mcStore c) s.micro.master.words) := by
    rw [satAdd_eq_min, State.fld_of_regs hregs, State.fld, State.fld, F.MCODE_FIX.COUNT, fieldOf_whole, fieldOf_whole, State.mcStore,
      hmicro, ← State.mcStore] at hfix
    exact hfix
  rw [hend]
  refine ⟨hstore.trans (by rw [hmicro]), hmaster.trans (by rw [hmicro]), hcount, ?_, (congrArg TideUnit.sent htide).trans hsent⟩
  exact (State.unitWork_setUnitWork _ _ _ _).trans (by rw [hwork]; rfl)

/-- MICROCODE_REFRESH of a Board's first cluster. -/
theorem exec_microcodeRefresh (harg : f.arg.toNat % 256 = 1) (hford : f.ford = false) (hlive : s.isFenced (8 + b.toNat) = false)
    (hrun : s.fld F.MCODE_STATUS.STATE (b.toNat * 8) = 0) (hdue : s.fireDue (refreshUnit (b.toNat * 8)) 4 f = true)
    (hidle : s.unitWork (refreshUnit (b.toNat * 8)) 4 = noWork) :
    exec (.microcodeRefresh b f) s
      = done (((s.refreshBegun (b.toNat * 8) f).mcRefresh (b.toNat * 8)).workEnd (refreshUnit (b.toNat * 8)) 4) := by
  have hb := b.isLt
  have hexec : exec (.microcodeRefresh b f) s = done (s.fireAt (refreshUnit (b.toNat * 8)) f) := by
    change done ((mcSelected b.toNat f).foldl _ s) = _
    rw [mcSelected_first _ harg]
    rfl
  rw [hexec, State.fireAt_refresh (by omega) hford (by rwa [Nat.mul_div_cancel _ (by decide)]) hrun hdue hidle]

end Sys2Proof.Machine
end

section
namespace Sys2Proof.Machine

/-- Settles O28: the image's way through verify and apply has a lemma per command; a reload ends by `State.mcNext_reloadEnded`, whether
its words match (`completes_reload`) or not (`completes_reload_fails`); `State.mcRefresh_spec` counts the words that a refresh corrects. -/
theorem microcode : Obligations.Microcode := by
  unfold Obligations.Microcode
  refine ⟨?_, ?_⟩
  · intro s m r st res busy only hup
    have hbusy : st s = 1 ∨ st s = 3 → s.mcVerify = s.mcReject ∧ s.mcApply = s.mcReject ∧ s.mcDiscard = s.mcReject :=
      fun h => ⟨if_pos h, if_pos h, if_pos h⟩
    refine ⟨fun h => completes_mcReject hup rfl (hbusy h).1, fun h => completes_mcReject hup rfl (hbusy h).2.1,
      fun h => completes_mcReject hup rfl (hbusy h).2.2, fun hne hne' => ?_, fun h hlen hr => ?_, fun h hlen => ?_,
      fun h himage hboards => completes_apply hup h himage hboards⟩
    · have hidle : ¬ (s.mcUnit = 1 ∨ s.mcUnit = 3) := not_or.mpr ⟨hne, hne'⟩
      exact ⟨completes_verify hup hidle, completes_discard hup hidle⟩
    · exact completes_verifyDone h ((if_neg (by omega)).trans hr)
    · obtain ⟨u, hu, hres, honly, hst, hmicro⟩ := completes_verifyDone h (if_pos hlen : s.verifyResult = mcBadFormat)
      exact ⟨u, hu, hst, hres, honly, hmicro⟩
  · intro s cl k b f c fails x unit baseOf_
    refine ⟨fun h hup hcmds hlater => ⟨fun hk => completes_reload h hup hcmds hlater hk,
        fun hk => completes_reload_fails h hup hcmds hlater hk⟩, fun h => .of_eq (if_pos h) rfl,
      fun h hall => completes_applyDone h hall, fun harg hford hlive hrun hold hdue hidle => ?_⟩
    obtain ⟨hstore, hmaster, hfix, hwork, hsent⟩ := s.refreshEnded_spec x f hold
    refine .of_eq (exec_microcodeRefresh harg hford hlive hrun hdue hidle) ⟨hstore, hmaster, fun w hw hwords hempty => ?_,
      hwork.trans hidle.symm, hsent⟩
    rw [hwords, hempty, storeDiff_one hw] at hfix
    exact hfix

end Sys2Proof.Machine
end

section
namespace Sys2Proof.Machine

/-! ## What the coherence of lines and the writes of HBM change (R167 to R174) -/

/-- From s to t nothing changed but HBM with the states of its lines, the messages sent and the free values drawn. -/
def HbmOnly (s t : State) : Prop := t = ((s.putHbm t.hbm).putOut t.out).putFree t.free

section
variable {s t : State}

theorem HbmOnly.refl (s : State) : HbmOnly s s := rfl

theorem HbmOnly.look (h : HbmOnly s t) : t.look = s.look := by
  rw [HbmOnly] at h
  rw [h]
  rfl

theorem HbmOnly.putHbm {x} (h : HbmOnly s t) : HbmOnly s (t.putHbm x) := by
  rw [HbmOnly] at h ⊢
  rw [h]
  rfl

theorem HbmOnly.emit {m} (h : HbmOnly s t) : HbmOnly s (t.emit m) := by
  rw [HbmOnly] at h ⊢
  rw [h]
  rfl

theorem HbmOnly.draw (h : HbmOnly s t) : HbmOnly s t.draw := by
  rw [HbmOnly] at h ⊢
  rw [h]
  rfl

theorem HbmOnly.ite {c} [Decidable c] {a b : State} (ha : HbmOnly s a) (hb : HbmOnly s b) : HbmOnly s (if c then a else b) := by
  split
  · exact ha
  · exact hb

theorem HbmOnly.foldl {α : Type} {f : State → α → State} {l : List α} (h : HbmOnly s t)
    (hf : ∀ {u x}, HbmOnly s u → HbmOnly s (f u x)) : HbmOnly s (l.foldl f t) :=
  List.foldlRecOn l f h fun _ hu _ _ => hf hu

theorem HbmOnly.setLine {b n l} (h : HbmOnly s t) : HbmOnly s (t.setLine b n l) := h.putHbm

theorem HbmOnly.setDir {n d} (h : HbmOnly s t) : HbmOnly s (t.setDir n d) := h.putHbm

theorem HbmOnly.setDue {b n k} (h : HbmOnly s t) : HbmOnly s (t.setDue b n k) := h.putHbm

theorem HbmOnly.setHomeLine {n x} (h : HbmOnly s t) : HbmOnly s (t.setHomeLine n x) := h.putHbm

theorem HbmOnly.dropCopies {n} (h : HbmOnly s t) : HbmOnly s (t.dropCopies n) := (h.foldl fun hu => hu.setLine).setDir

theorem HbmOnly.dirDrop {b n} (h : HbmOnly s t) : HbmOnly s (t.dirDrop b n) := by
  obtain hd | ⟨d, hd⟩ := t.dirDrop_cases b n
  · rw [hd]; exact h
  · rw [hd]; exact h.setDir

theorem HbmOnly.writeBack {b n} (h : HbmOnly s t) : HbmOnly s (t.writeBack b n) := h.setLine.setDue.dirDrop.emit.putHbm

theorem HbmOnly.evictClean {b n} (h : HbmOnly s t) : HbmOnly s (t.evictClean b n) := h.setLine.setDue.dirDrop.emit

theorem HbmOnly.sscRoom {b} (h : HbmOnly s t) : HbmOnly s (t.sscRoom b) := .ite h (.ite h.draw.writeBack h.draw.evictClean)

theorem HbmOnly.homeAnswer {n x b} (h : HbmOnly s t) : HbmOnly s (State.homeAnswer n x t b) :=
  have hsent := (HbmOnly.ite h.emit h).setDue
  .ite hsent.setLine.dirDrop.emit (.ite hsent.emit (.ite hsent.setLine.setDir.emit hsent.setLine.setDir.emit))

theorem HbmOnly.cohShare {b n} (h : HbmOnly s t) : HbmOnly s (t.cohShare b n) := by
  have hroom : HbmOnly s (if t.lineSt b n == .i then t.sscRoom b else t) := .ite h.sscRoom h
  refine HbmOnly.emit (HbmOnly.setHomeLine (HbmOnly.setDue (HbmOnly.setLine ?_)))
  split
  · exact hroom.setDir
  · exact hroom.setDir

theorem HbmOnly.cohOwn {b n k} (h : HbmOnly s t) : HbmOnly s (t.cohOwn b n k) :=
  (HbmOnly.ite h.sscRoom h).dropCopies.setLine.setDir.setDue.setHomeLine.emit

theorem HbmOnly.homeFinish {n} (h : HbmOnly s t) : HbmOnly s (t.homeFinish n) := by
  rw [State.homeFinish]
  split
  · exact h
  · dsimp only
    split
    · exact (h.foldl fun hu => hu.homeAnswer).cohShare
    · exact (h.foldl fun hu => hu.homeAnswer).cohOwn
    · exact (h.foldl fun hu => hu.homeAnswer).cohOwn

theorem HbmOnly.cohServe {n} (h : HbmOnly s t) : HbmOnly s (t.cohServe n) := by
  rw [State.cohServe]
  split
  · exact h.setHomeLine
  · exact h

theorem HbmOnly.homeSettle {n} (h : HbmOnly s t) : HbmOnly s (t.homeSettle n) := h.foldl fun hu => hu.homeFinish.cohServe

end

section
variable (s : State)

/-- The first n bytes of HBM read 0 after the device has cleared them, and nothing of the lookup tables has changed (R173). -/
theorem State.hbmClear_spec (n : Nat) : (s.hbmClear n).look = s.look
    ∧ ∀ k, Tbl.get (fun _ => (0 : Byte)) (s.hbmClear n).hbm.mem k = if k < n then 0 else Tbl.get (fun _ => 0) s.hbm.mem k := by
  obtain ⟨u, hu⟩ : ∃ u, u = ((s.hbm.home.map (fun e => e.1)).filter (fun l => decide (l * 64 < n))).foldl State.homeSettle s := ⟨_, rfl⟩
  obtain ⟨v, hv⟩ : ∃ v, v = (((u.hbm.cache.map (fun (e : Nat × LineState) => e.1 / 8))
    ++ u.hbm.dir.map (fun (e : Nat × DirEntry) => e.1)).filter (fun l => decide (l * 64 < n))).foldl State.dropCopies u := ⟨_, rfl⟩
  have hclear : s.hbmClear n = (v.putHbm { v.hbm with
      mem := v.hbm.mem.filter (fun e => decide (n ≤ e.1))
      poison := v.hbm.poison.filter (fun e => decide (n ≤ e.1 * 64)) }).eccWipe hbmGroups hbmBase n := by
    rw [hv, hu]
    rfl
  have honly : HbmOnly s v := by
    rw [hv, hu]
    exact ((HbmOnly.refl s).foldl fun hx => hx.homeSettle).foldl fun hx => hx.dropCopies
  have hmem : v.hbm.mem = s.hbm.mem := by
    rw [hv, State.mem_foldl_keep State.mem_dropCopies, hu, State.mem_foldl_keep fun t l => (t.keeps_homeSettle l).2.1]
  rw [hclear]
  refine ⟨honly.look, fun k => ?_⟩
  refine (Tbl.get_filter (fun _ => (0 : Byte)) (fun j => decide (n ≤ j)) v.hbm.mem k).trans ?_
  rw [hmem]
  by_cases hk : k < n
  · rw [if_pos hk, if_neg (by simpa using hk)]
  · rw [if_neg hk, if_pos (by simpa using hk)]

theorem State.regs_hbmPut (off : Nat) (l : List Byte) : (s.hbmPut off l).regs = s.regs := by
  rw [State.hbmPut]
  refine (State.regs_foldl (fun u n => ?_) _ _).trans rfl
  split <;> rfl

theorem State.regs_hbmWrite (off : Nat) (l : List Byte) : (s.hbmWrite off l).regs = s.regs := by
  rw [State.hbmWrite]
  split
  · rfl
  · refine (State.regs_foldl (fun u n => ?_) _ _).trans (s.regs_hbmPut off l)
    exact ((u.homeSettle n).keeps_dropCopies n).1.trans (u.keeps_homeSettle n).1

/-- A write of HBM by a unit of the device that no home refuses (R22, R173). -/
theorem State.hbmPutBy_accepted {s : State} {off : Nat} {l : List Byte} (h : s.hbmRefuses (hbmBase + off) l.length = false) :
    s.hbmPutBy off l = s.hbmWrite off l := by
  rw [State.hbmPutBy, State.hbmSet, h, Nat.add_sub_cancel_left]
  rfl

end

/-! ## The flow service (R242, R243, R249) -/

/-- A field of one register of a kind, after a write of it in the register of any index. -/
theorem State.fld_setFld_index (s : State) (f : Fld) (i j v : Nat) (h : f.lo ≤ f.hi ∧ f.hi < 32) (hv : v < 2 ^ (f.hi + 1 - f.lo)) :
    (s.setFld f i v).fld f j = if i = j then v else s.fld f j := by
  by_cases hij : i = j
  · rw [if_pos hij, ← hij, State.fld_setFld_eq _ _ _ _ h hv]
  · rw [if_neg hij, State.fld_setFld_ne _ _ _ _ _ _ h (.inr (.inl hij))]

theorem b2n_lt_two (c : Bool) : b2n c < 2 := by cases c <;> decide

theorem b2n_eq_one (c : Bool) : b2n c = 1 ↔ c = true := by cases c <;> decide

section
variable (s : State) (r a : Bool) (b x : Nat)

theorem State.fld_EN_setFlow : (s.setFlow r a b).fld F.BRD_FLOW_CTL.EN x = s.fld F.BRD_FLOW_CTL.EN x := by
  rw [State.setFlow, State.fld_setFld_bits_ne _ _ _ _ _ _ (by decide) (by decide),
    State.fld_setFld_bits_ne _ _ _ _ _ _ (by decide) (by decide)]

theorem State.fld_READY_setFlow : (s.setFlow r a b).fld F.BRD_FLOW_CTL.READY x = if b = x then b2n r else s.fld F.BRD_FLOW_CTL.READY x := by
  rw [State.setFlow, State.fld_setFld_bits_ne _ _ _ _ _ _ (by decide) (by decide),
    State.fld_setFld_index _ _ _ _ _ (by decide) (b2n_lt_two r)]

theorem State.fld_ANY_EN_setFlow : (s.setFlow r a b).fld F.BRD_FLOW_CTL.ANY_EN x = if b = x then b2n a else s.fld F.BRD_FLOW_CTL.ANY_EN x := by
  rw [State.setFlow, State.fld_setFld_index _ _ _ _ _ (by decide) (b2n_lt_two a),
    State.fld_setFld_bits_ne _ _ _ _ _ _ (by decide) (by decide)]

end

/-- READY and ANY_EN written on the Boards of a list, READY to a value for each Board. -/
def State.setFlows (s : State) (r : Nat → Bool) (a : Bool) (l : List Nat) : State := l.foldl (fun t b => t.setFlow (r b) a b) s

section
variable (s : State) (r : Nat → Bool) (a : Bool) (l : List Nat) (x : Nat)

theorem State.fld_EN_setFlows : (s.setFlows r a l).fld F.BRD_FLOW_CTL.EN x = s.fld F.BRD_FLOW_CTL.EN x :=
  List.foldlRecOn (motive := fun u => State.fld u F.BRD_FLOW_CTL.EN x = _) l _ rfl fun u hu b _ => (u.fld_EN_setFlow (r b) a b x).trans hu

theorem State.fld_READY_setFlows :
    (s.setFlows r a l).fld F.BRD_FLOW_CTL.READY x = if x ∈ l then b2n (r x) else s.fld F.BRD_FLOW_CTL.READY x := by
  induction l generalizing s with
  | nil => rfl
  | cons b l ih =>
    refine (ih (s.setFlow (r b) a b)).trans ?_
    rw [State.fld_READY_setFlow]
    by_cases hx : b = x
    · simp [hx]
    · simp [hx, Ne.symm hx]

theorem State.fld_ANY_EN_setFlows :
    (s.setFlows r a l).fld F.BRD_FLOW_CTL.ANY_EN x = if x ∈ l then b2n a else s.fld F.BRD_FLOW_CTL.ANY_EN x := by
  induction l generalizing s with
  | nil => rfl
  | cons b l ih =>
    refine (ih (s.setFlow (r b) a b)).trans ?_
    rw [State.fld_ANY_EN_setFlow]
    by_cases hx : b = x
    · simp [hx]
    · simp [hx, Ne.symm hx]

theorem State.look_setFlows : (s.setFlows r a l).look = s.look :=
  List.foldlRecOn (motive := fun u => State.look u = s.look) l _ rfl fun _ hu _ _ => hu

theorem State.hbm_setFlows : (s.setFlows r a l).hbm = s.hbm :=
  List.foldlRecOn (motive := fun u => State.hbm u = s.hbm) l _ rfl fun _ hu _ _ => hu

end

theorem OnlyRegs.setFlows {s t : State} {r : Nat → Bool} {a : Bool} {l : List Nat} {m : List (Reg × Nat)} (h : OnlyRegs s t m)
    (hm : ∀ b ∈ l, (Reg.BRD_FLOW_CTL, b) ∈ m) : OnlyRegs s (t.setFlows r a l) m :=
  List.foldlRecOn (motive := fun u => OnlyRegs s u m) l _ h fun _ hu b hb =>
    (OnlyRegs.setFld hu F.BRD_FLOW_CTL.READY b _ (hm b hb)).setFld F.BRD_FLOW_CTL.ANY_EN b _ (hm b hb)

section
variable (s : State)

theorem State.mem_liveBoards (y : Nat) : y ∈ s.liveBoards ↔ y < 8 ∧ s.isFenced (8 + y) = false := by
  rw [State.liveBoards, List.mem_filter, List.mem_range, boardChip, Bool.not_eq_true']

theorem State.flag_EN_iff (y : Nat) : s.flag F.BRD_FLOW_CTL.EN y = true ↔ s.fld F.BRD_FLOW_CTL.EN y = 1 := s.flag_iff_one _ y rfl

theorem State.flowAny_iff : s.flowAny = true ↔ ∃ y < 8, s.isFenced (8 + y) = false ∧ s.fld F.BRD_FLOW_CTL.EN y = 1 := by
  simp only [State.flowAny, List.any_eq_true, State.mem_liveBoards, State.flag_EN_iff, and_assoc]

theorem State.flowEnabled_iff : s.flowEnabled = true
    ↔ s.hbmMapped = true ∧ ∀ y < 8, s.isFenced (8 + y) = false → s.fld F.BRD_FLOW_CTL.EN y = 1 := by
  simp only [State.flowEnabled, Bool.and_eq_true, List.all_eq_true, State.mem_liveBoards, State.flag_EN_iff, and_imp, and_comm]

end

section
variable {s : State} {b : BitVec 3} {v : BitVec 32} {ix : BitVec 28}

theorem fieldOf_low (w : Word) (hi : Nat) : fieldOf w hi 0 = w.toNat % 2 ^ (hi + 1) := by rw [fieldOf_eq, Nat.pow_zero, Nat.div_one]; rfl

/-- FLOW_CTL_WRITE at a Board that answers: EN is written, and READY and ANY_EN follow on every Board. -/
theorem exec_flowCtlWrite {t : State} (ht : t = s.setFld F.BRD_FLOW_CTL.EN b.toNat (v.toNat % 2)) (hup : s.reachable (8 + b.toNat) = true) :
    exec (.flowCtlWrite b v) s
      = done ((t.setFlows (fun x => t.flag F.BRD_FLOW_CTL.READY x && t.flowEnabled) t.flowAny (List.range 8)).answer .ok) := by
  have hbit : v.toNat % 2 = fieldOf v 0 0 := (fieldOf_low v 0).symm
  rw [ht, hbit]
  exact congrArg done (s.atChip_reachable _ _ hup)

theorem completes_flowCtlWrite {en : Nat → Nat} (hen : ∀ x, en x = if x = b.toNat then v.toNat % 2 else s.fld F.BRD_FLOW_CTL.EN x)
    (hup : s.reachable (8 + b.toNat) = true) :
    Completes (.flowCtlWrite b v) s (fun u => (∀ x < 8, u.fld F.BRD_FLOW_CTL.EN x = en x)
      ∧ (∀ x < 8, u.fld F.BRD_FLOW_CTL.READY x = 1 ↔ s.fld F.BRD_FLOW_CTL.READY x = 1 ∧ s.hbmMapped = true
          ∧ ∀ y < 8, s.isFenced (8 + y) = false → en y = 1)
      ∧ (∀ x < 8, u.fld F.BRD_FLOW_CTL.ANY_EN x = 1 ↔ ∃ y < 8, s.isFenced (8 + y) = false ∧ en y = 1)
      ∧ OnlyRegs (s.putReply .ok) u ((List.range 8).map (fun x => (.BRD_FLOW_CTL, x)))) := by
  obtain ⟨t, ht⟩ : ∃ t, t = s.setFld F.BRD_FLOW_CTL.EN b.toNat (v.toNat % 2) := ⟨_, rfl⟩
  have hEN : ∀ x, t.fld F.BRD_FLOW_CTL.EN x = en x := fun x => by
    have hbit : v.toNat % 2 < 2 := Nat.mod_lt _ (by decide)
    rw [ht, State.fld_setFld_index _ _ _ _ _ (by decide) hbit, hen]
    exact if_congr eq_comm rfl rfl
  have hREADY : ∀ x, t.fld F.BRD_FLOW_CTL.READY x = s.fld F.BRD_FLOW_CTL.READY x := fun x => by
    rw [ht, State.fld_setFld_bits_ne _ _ _ _ _ _ (by decide) (by decide)]
  have hboot : ∀ f : Fld, f.reg = .HDW_BOOT_STAT → t.fld f 0 = s.fld f 0 := fun f hf => by
    rw [ht, State.fld_setFld_reg_ne _ _ _ _ _ _ (by rw [hf]; decide)]
  have hlive : ∀ y, t.isFenced (8 + y) = s.isFenced (8 + y) := fun y => by rw [State.isFenced, hboot _ rfl, State.isFenced]
  have hmapped : t.hbmMapped = s.hbmMapped := by rw [State.hbmMapped, State.flag, hboot _ rfl, State.hbmMapped, State.flag]
  have honly : OnlyRegs s t ((List.range 8).map (fun x => (.BRD_FLOW_CTL, x))) := by
    rw [ht]
    exact (OnlyRegs.refl s _).setFld _ _ _ (List.mem_map.mpr ⟨b.toNat, List.mem_range.mpr b.isLt, rfl⟩)
  refine .of_eq (exec_flowCtlWrite ht hup) ⟨fun x _ => ?_, fun x hx => ?_, fun x hx => ?_, ?_⟩
  · rw [State.fld_answer, State.fld_EN_setFlows, hEN]
  · rw [State.fld_answer, State.fld_READY_setFlows, if_pos (List.mem_range.mpr hx), b2n_eq_one, Bool.and_eq_true,
      State.flag_iff_one _ _ _ rfl, hREADY, State.flowEnabled_iff, hmapped]
    simp only [hlive, hEN]
  · rw [State.fld_answer, State.fld_ANY_EN_setFlows, if_pos (List.mem_range.mpr hx), b2n_eq_one, State.flowAny_iff]
    simp only [hlive, hEN]
  · exact (honly.setFlows fun x hx => List.mem_map.mpr ⟨x, hx, rfl⟩).answer .ok

/-- The state in which the flow table has been cleared, and no use of its entries waits in the flow cache (R243). -/
def State.flowCleared (s : State) : State := (s.hbmClear flowBytes).putLook { (s.hbmClear flowBytes).look with flowDirty := [] }

theorem exec_flowTableClearDone (hserving : s.serving = true) (henabled : s.flowEnabled = true)
    (hunready : ∃ x < 8, s.isFenced (8 + x) = false ∧ s.fld F.BRD_FLOW_CTL.READY x = 0) :
    exec .flowTableClearDone s = done (s.flowCleared.setFlows (fun _ => true) true (List.range 8)) := by
  obtain ⟨x, hx, hlive, hready⟩ := hunready
  have hsome : s.liveBoards.all (fun b => s.flag F.BRD_FLOW_CTL.READY b) = false := by
    rw [List.all_eq_false]
    exact ⟨x, (s.mem_liveBoards x).mpr ⟨hx, hlive⟩, by rw [State.flag, hready]; decide⟩
  exact if_pos (by rw [hserving, henabled, hsome]; rfl)

theorem completes_flowTableClearDone (hserving : s.serving = true) (henabled : s.flowEnabled = true)
    (hunready : ∃ x < 8, s.isFenced (8 + x) = false ∧ s.fld F.BRD_FLOW_CTL.READY x = 0) :
    Completes .flowTableClearDone s (fun u => (∀ x < 8, u.fld F.BRD_FLOW_CTL.READY x = 1)
      ∧ (∀ k, Tbl.get (fun _ => (0 : Byte)) u.hbm.mem k = if k < 0x400000000 then 0 else Tbl.get (fun _ => 0) s.hbm.mem k)
      ∧ u.look = { s.look with flowDirty := [] }) := by
  obtain ⟨hlook, hbyte⟩ := s.hbmClear_spec flowBytes
  refine .of_eq (exec_flowTableClearDone hserving henabled hunready) ⟨fun x hx => ?_, fun k => ?_, ?_⟩
  · rw [State.fld_READY_setFlows, if_pos (List.mem_range.mpr hx)]
    rfl
  · rw [State.hbm_setFlows]
    exact hbyte k
  · rw [State.look_setFlows, State.flowCleared, hlook]
    rfl

theorem exec_flowCacheWriteback {l p : Word} (hdirty : Tbl.get (fun _ => none) s.look.flowDirty ix.toNat = some (l, p)) :
    exec (.flowCacheWriteback ix) s
      = done ((s.hbmPutBy (ix.toNat * 64 + 48) (beBytes 4 l.toNat ++ beBytes 4 p.toNat)).setFlowUse ix.toNat none) := by
  change execFlowCacheWriteback ix s = _
  rw [execFlowCacheWriteback, hdirty]

theorem completes_flowCacheWriteback {l p : Word} (haccepted : s.hbmRefuses (hbmBase + (ix.toNat * 64 + 48)) 8 = false)
    (hdirty : Tbl.get (fun _ => none) s.look.flowDirty ix.toNat = some (l, p)) :
    Completes (.flowCacheWriteback ix) s (fun u => Tbl.get (fun _ => none) u.look.flowDirty ix.toNat = none ∧ u.regs = s.regs
      ∧ ∀ k, Tbl.get (fun _ => (0 : Byte)) u.hbm.mem k = if ix.toNat * 64 + 48 ≤ k ∧ k < ix.toNat * 64 + 56 then
          (beBytes 4 l.toNat ++ beBytes 4 p.toNat).getD (k - (ix.toNat * 64 + 48)) 0 else Tbl.get (fun _ => 0) s.hbm.mem k) := by
  have hwrite : s.hbmPutBy (ix.toNat * 64 + 48) (beBytes 4 l.toNat ++ beBytes 4 p.toNat)
      = s.hbmWrite (ix.toNat * 64 + 48) (beBytes 4 l.toNat ++ beBytes 4 p.toNat) := State.hbmPutBy_accepted haccepted
  refine .of_eq (exec_flowCacheWriteback hdirty) ⟨?_, ?_, fun k => ?_⟩
  · rw [State.setFlowUse, State.putLook_look, Tbl.get_set_same]
  · rw [hwrite]
    exact s.regs_hbmWrite _ _
  · rw [hwrite, State.setFlowUse, State.putLook_hbm, State.mem_hbmWrite, Tbl.get_writeBytes]
    rfl

theorem flowCacheWriteback_clean (h : Tbl.get (fun _ => none) s.look.flowDirty ix.toNat = none) :
    Completes (.flowCacheWriteback ix) s (fun u => u = s) := by
  refine .of_eq (t := s) ?_ rfl
  change execFlowCacheWriteback ix s = _
  rw [execFlowCacheWriteback, h]

theorem completes_flowHomeWrite (hlive : ∀ x < 8, s.isFenced (8 + x) = false) (hup : s.reachable (8 + b.toNat) = true) :
    Completes (.flowHomeWrite b v) s (fun u => OnlyRegs (s.putReply .ok) u [(.BRD_FLOW_HOME, b.toNat)]
      ∧ (u.rd .BRD_FLOW_HOME b.toNat).toNat % 2 ^ 24 = v.toNat % 2 ^ 24) := by
  have hnone : (List.range 8).any (fun k => s.isFenced (boardChip (fieldOf v (3 * k + 2) (3 * k)))) = false := by
    rw [List.any_eq_false]
    intro k _
    have hfield := fieldOf_lt v (3 * k + 2) (3 * k)
    rw [show 3 * k + 2 + 1 - 3 * k = 3 by omega] at hfield
    rw [boardChip, hlive _ hfield]
    decide
  have hwrite : s.flowHomeWrite b.toNat v = s.writeTyped .BRD_FLOW_HOME b.toNat v := by rw [State.flowHomeWrite, hnone]; rfl
  refine .of_eq (congrArg done ((s.atChip_reachable _ _ hup).trans (congrArg (State.answer · .ok) hwrite))) ⟨⟨rfl, fun r i hr => ?_⟩, ?_⟩
  · exact State.rd_wr_ne _ _ _ _ _ _ fun h => hr (by rw [← h.1, ← h.2]; exact .head _)
  · have hrd : ((s.writeTyped .BRD_FLOW_HOME b.toNat v).answer .ok).rd .BRD_FLOW_HOME b.toNat
        = typedWrite .BRD_FLOW_HOME v (s.rd .BRD_FLOW_HOME b.toNat) := State.rd_wr_same _ _ _ _
    rw [hrd, ← fieldOf_low _ 23, ← fieldOf_low _ 23]
    exact fieldOf_typedWrite_rw .BRD_FLOW_HOME 0 ⟨23, 0, .rw⟩ v _ rfl (by decide) (by decide)

theorem flowHomeWrite_fenced (hfenced : s.isFenced (8 + v.toNat % 8) = true) (hup : s.reachable (8 + b.toNat) = true) :
    Completes (.flowHomeWrite b v) s (fun u => u = s.putReply .ok) := by
  have hfirst : fieldOf v (3 * 0 + 2) (3 * 0) = v.toNat % 8 := fieldOf_low v 2
  have hsame : s.flowHomeWrite b.toNat v = s :=
    if_pos (List.any_eq_true.mpr ⟨0, List.mem_range.mpr (by decide), by rw [hfirst]; exact hfenced⟩)
  exact .of_eq (congrArg done ((s.atChip_reachable _ _ hup).trans (congrArg (State.answer · .ok) hsame))) rfl

end

end Sys2Proof.Machine
end

section
namespace Sys2Proof.Machine

/-! ## Updates of Delta (R245 to R247, R252) -/

section
variable {s : State} {v : BitVec 32} {a res : Nat}

theorem exec_deltaAdd (hup : s.reachable 1 = true) (hop : v.toNat % 4 = 1) : exec (.deltaAdd v) s = done ((s.deltaGo v).answer .ok) := by
  have hadds : (fieldOf v 1 0 == 1) = true := beq_iff_eq.mpr ((fieldOf_low v 1).trans hop)
  exact congrArg done ((s.atChip_reachable _ _ hup).trans (congrArg (State.answer · .ok) (s.when_true _ hadds)))

theorem exec_deltaDel (hup : s.reachable 1 = true) (hop : v.toNat % 4 = 2) : exec (.deltaDel v) s = done ((s.deltaGo v).answer .ok) := by
  have hdels : (fieldOf v 1 0 == 2) = true := beq_iff_eq.mpr ((fieldOf_low v 1).trans hop)
  exact congrArg done ((s.atChip_reachable _ _ hup).trans (congrArg (State.answer · .ok) (s.when_true _ hdels)))

/-- A write of DLT_CMD with an OP while Delta is idle starts the update. -/
theorem State.deltaGo_idle (hop : v.toNat % 4 = 1 ∨ v.toNat % 4 = 2) (hidle : s.fld F.DLT_CMD_STAT.BUSY 0 = 0) :
    s.deltaGo v = (s.setFld F.DLT_CMD_STAT.BUSY 0 1).putLook { s.look with
      deltaCmd := some (v, beNat (s.words16 .DLT_CMD_ADDR 0), (s.rd .DLT_CMD_RES 0).toNat % 2 ^ 28) } := by
  have hfield : fieldOf v 1 0 = v.toNat % 4 := fieldOf_low v 1
  have hresult : (s.setFld F.DLT_CMD_STAT.BUSY 0 1).fld F.DLT_CMD_RES.RESULT 0 = (s.rd .DLT_CMD_RES 0).toNat % 2 ^ 28 :=
    (State.fld_setFld_reg_ne _ _ _ _ _ _ (by decide)).trans (fieldOf_low _ 27)
  rw [State.deltaGo, if_neg (by omega), if_neg (by rw [State.flag, hidle]; decide)]
  dsimp only
  rw [hresult]
  rfl

/-- A write of DLT_CMD with an OP while BUSY is 1 is rejected. -/
theorem State.deltaGo_busy (hop : v.toNat % 4 = 1 ∨ v.toNat % 4 = 2) (hbusy : s.fld F.DLT_CMD_STAT.BUSY 0 = 1) :
    s.deltaGo v = s.setFld F.DLT_CMD_STAT.REJ 0 1 := by
  have hfield : fieldOf v 1 0 = v.toNat % 4 := fieldOf_low v 1
  rw [State.deltaGo, if_neg (by omega), if_pos (by rw [State.flag, hbusy]; decide)]

theorem completes_deltaGo {i : Instr} (hi : exec i s = done ((s.deltaGo v).answer .ok)) (hop : v.toNat % 4 = 1 ∨ v.toNat % 4 = 2) :
    (s.fld F.DLT_CMD_STAT.BUSY 0 = 0 → Completes i s (fun u => u.fld F.DLT_CMD_STAT.BUSY 0 = 1 ∧ RegsKept s u [(.DLT_CMD_STAT, 0)]
      ∧ u.reply = .ok ∧ u.look = { s.look with
          deltaCmd := some (v, beNat (s.words16 .DLT_CMD_ADDR 0), (s.rd .DLT_CMD_RES 0).toNat % 2 ^ 28) }))
    ∧ (s.fld F.DLT_CMD_STAT.BUSY 0 = 1 → Completes i s (fun u => u.fld F.DLT_CMD_STAT.REJ 0 = 1
      ∧ OnlyRegs (s.putReply .ok) u [(.DLT_CMD_STAT, 0)])) := by
  refine ⟨fun hidle => ?_, fun hbusy => ?_⟩
  · rw [State.deltaGo_idle hop hidle] at hi
    refine .of_eq hi ⟨?_, ?_, rfl, rfl⟩
    · exact s.fld_setFld_eq F.DLT_CMD_STAT.BUSY 0 1 (by decide) (by decide)
    · exact ((RegsKept.refl s _).setFld F.DLT_CMD_STAT.BUSY 0 1 (.head _)).of_regs rfl
  · rw [State.deltaGo_busy hop hbusy] at hi
    refine .of_eq hi ⟨?_, ((OnlyRegs.refl s _).setFld F.DLT_CMD_STAT.REJ 0 1 (.head _)).answer .ok⟩
    exact s.fld_setFld_eq F.DLT_CMD_STAT.REJ 0 1 (by decide) (by decide)

/-! ### What an update makes of the prefixes (R247) -/

/-- The address width of the family that an update names. -/
def deltaWidth (v : Word) : Nat := if v.toNat / 4 % 2 = 1 then 128 else 32

theorem afBits_cmdPrefix (v : Word) (a res : Nat) : afBits (cmdPrefix v a res).v6 = deltaWidth v := by
  change (if v.toNat.testBit 2 = true then 128 else 32) = deltaWidth v
  rw [Nat.testBit_eq_decide_div_mod_eq, deltaWidth]
  simp

theorem cmdPrefix_len (v : Word) (a res : Nat) : (cmdPrefix v a res).len = v.toNat / 8 % 256 := fieldOf_eq v 10 3

theorem deltaApply_tooLong (l : List Prefix) (hlen : deltaWidth v < v.toNat / 8 % 256) : deltaApply v a res l = (7, l) := by
  rw [deltaApply, if_pos (by rw [afBits_cmdPrefix, cmdPrefix_len]; exact hlen)]
  rfl

theorem deltaApply_add (l : List Prefix) (hlen : v.toNat / 8 % 256 ≤ deltaWidth v) (hop : v.toNat % 4 = 1) :
    deltaApply v a res l = if deltaFits (cmdPrefix v a res :: l.filter (fun q => !q.same (cmdPrefix v a res)))
      then (0, cmdPrefix v a res :: l.filter (fun q => !q.same (cmdPrefix v a res))) else (3, l) := by
  have hfield : fieldOf v 1 0 = v.toNat % 4 := fieldOf_low v 1
  rw [deltaApply, if_neg (by rw [afBits_cmdPrefix, cmdPrefix_len]; omega)]
  dsimp only
  rw [if_neg (by omega)]
  rfl

theorem deltaApply_del (l : List Prefix) (hlen : v.toNat / 8 % 256 ≤ deltaWidth v) (hop : v.toNat % 4 = 2) :
    deltaApply v a res l = if l.filter (fun q => !q.same (cmdPrefix v a res)) = l
      then (1, l) else (0, l.filter (fun q => !q.same (cmdPrefix v a res))) := by
  have hfield : fieldOf v 1 0 = v.toNat % 4 := fieldOf_low v 1
  rw [deltaApply, if_neg (by rw [afBits_cmdPrefix, cmdPrefix_len]; omega)]
  dsimp only
  rw [if_pos (by omega)]
  exact if_congr List.filter_sublist.length_eq rfl rfl

/-- Delta when an update has ended with a status: its prefixes, and their counts by family. -/
def State.deltaEnded (s : State) (st : Nat) (l : List Prefix) : State :=
  ((((s.putLook { s.look with delta := l, deltaCmd := none }).setFld F.DLT_CMD_STAT.BUSY 0 0).setFld F.DLT_CMD_STAT.STATUS 0 st).setFld
    F.DLT_V4_COUNT.COUNT 0 (l.filter (fun p => !p.v6)).length).setFld F.DLT_V6_COUNT.COUNT 0 (l.filter (fun p => p.v6)).length

theorem exec_deltaUpdateDone {st : Nat} {l : List Prefix} (hcmd : s.look.deltaCmd = some (v, a, res))
    (happly : deltaApply v a res s.look.delta = (st, l)) : exec .deltaUpdateDone s = done (s.deltaEnded st l) := by
  change execDeltaUpdateDone s = _
  rw [execDeltaUpdateDone, hcmd]
  dsimp only
  rw [happly]
  rfl

theorem completes_deltaUpdateDone {st : Nat} {l : List Prefix} (hst : st < 16) (hcmd : s.look.deltaCmd = some (v, a, res))
    (happly : deltaApply v a res s.look.delta = (st, l)) :
    Completes .deltaUpdateDone s (fun u => u.fld F.DLT_CMD_STAT.STATUS 0 = st ∧ u.fld F.DLT_CMD_STAT.BUSY 0 = 0
      ∧ u.look = { s.look with delta := l, deltaCmd := none }
      ∧ RegsKept s u [(.DLT_CMD_STAT, 0), (.DLT_V4_COUNT, 0), (.DLT_V6_COUNT, 0)]) := by
  have hcounts : ∀ f : Fld, f.reg = .DLT_CMD_STAT → (s.deltaEnded st l).fld f 0
      = ((s.setFld F.DLT_CMD_STAT.BUSY 0 0).setFld F.DLT_CMD_STAT.STATUS 0 st).fld f 0 := fun f hf => by
    rw [State.deltaEnded, State.fld_setFld_reg_ne _ _ _ _ _ _ (by rw [hf]; decide),
      State.fld_setFld_reg_ne _ _ _ _ _ _ (by rw [hf]; decide)]
    rfl
  refine .of_eq (exec_deltaUpdateDone hcmd happly) ⟨?_, ?_, rfl, ?_⟩
  · rw [hcounts _ rfl]
    exact State.fld_setFld_eq _ _ _ _ (by decide) hst
  · rw [hcounts _ rfl, State.fld_setFld_bits_ne _ _ _ _ _ _ (by decide) (by decide)]
    exact State.fld_setFld_eq _ _ _ _ (by decide) (by decide)
  · exact (((((RegsKept.refl s _).of_regs rfl).setFld F.DLT_CMD_STAT.BUSY 0 0 (by decide)).setFld F.DLT_CMD_STAT.STATUS 0 st
      (by decide)).setFld F.DLT_V4_COUNT.COUNT 0 _ (by decide)).setFld F.DLT_V6_COUNT.COUNT 0 _ (by decide)

end

/-- Settles O31: the flow service by its lemma per command (READY and ANY_EN through `State.setFlows`, the bytes of HBM through
`State.hbmClear_spec` and `State.mem_hbmWrite`), an update of Delta by `completes_deltaGo` and what `deltaApply` makes of the prefixes. -/
theorem flowAndDelta : Obligations.FlowAndDelta := by
  unfold Obligations.FlowAndDelta
  refine ⟨?_, ?_⟩
  · intro s b v ix byte live en up calm
    refine ⟨completes_flowCtlWrite fun _ => rfl, completes_flowTableClearDone, fun l p hcalm hdirty => ?_, flowCacheWriteback_clean,
      completes_flowHomeWrite, flowHomeWrite_fenced⟩
    obtain ⟨haccepted, -⟩ := hcalm
    exact completes_flowCacheWriteback haccepted hdirty
  · intro s v a res busy p rest go ends wide
    refine ⟨fun hup => ⟨fun hop => completes_deltaGo (exec_deltaAdd hup hop) (.inl hop),
      fun hop => completes_deltaGo (exec_deltaDel hup hop) (.inr hop)⟩, fun hcmd => ⟨fun hlen => ?_, fun hlen hop hfits => ?_,
      fun hlen hop hfull => ?_, fun hlen hop hfound => ?_, fun hlen hop hmiss => ?_⟩⟩
    · exact completes_deltaUpdateDone (by decide) hcmd (deltaApply_tooLong _ hlen)
    · exact completes_deltaUpdateDone (by decide) hcmd ((deltaApply_add _ hlen hop).trans (if_pos hfits))
    · exact completes_deltaUpdateDone (by decide) hcmd ((deltaApply_add _ hlen hop).trans (if_neg (by rw [hfull]; decide)))
    · exact completes_deltaUpdateDone (by decide) hcmd ((deltaApply_del _ hlen hop).trans (if_neg hfound))
    · exact completes_deltaUpdateDone (by decide) hcmd ((deltaApply_del _ hlen hop).trans (if_pos hmiss))

end Sys2Proof.Machine
end

section
namespace Sys2Proof.Machine

/-! ## What the auditor asks of the shadow, and the state of an audit (R234) -/

section
variable (s : State)

theorem State.hostAsk_eq (ep fn a n : Nat) (ro down : Bool) : ∃ o, s.hostAsk ep fn a n ro down = s.putOut o := by
  refine List.foldlRecOn (motive := fun u => ∃ o, u = s.putOut o) _ _ ⟨s.out, rfl⟩ ?_
  rintro _ ⟨o, rfl⟩ x -
  exact ⟨o ++ [.hostRead ep fn x.1 x.2 ro], rfl⟩

/-- A read of the shadow only sends messages. -/
theorem State.sndRead_eq (k off len : Nat) : ∃ o, s.sndRead k off len = s.putOut o := by
  rw [State.sndRead, State.when]
  split
  · exact s.hostAsk_eq _ _ _ _ _ _
  · exact ⟨s.out, rfl⟩

theorem State.sndGot_read {k n : Nat} {l : List Byte} (hmay : s.sndMay k = true) (hlen : l.length = n) :
    s.sndGot k n (some l) = some l := by
  rw [State.sndGot, if_pos hmay, Option.map_some, fitBytes_of_length hlen]

theorem State.sndGot_failed (k n : Nat) : s.sndGot k n none = none := by
  rw [State.sndGot]
  split <;> rfl

theorem State.auditOf_setAudit (k : Nat) (a : Option Audit) : (s.setAudit k a).auditOf k = a := by
  rw [State.auditOf, State.setAudit, State.putLook_look, Tbl.get_set_same]

theorem State.regs_setAudit (k : Nat) (a : Option Audit) : (s.setAudit k a).regs = s.regs := rfl

theorem State.workEnd_keeps (u : Unit_) (cls : Nat) : (s.workEnd u cls).regs = s.regs ∧ (s.workEnd u cls).look = s.look
    ∧ (s.workEnd u cls).unitWork u cls = { s.unitWork u cls with work := none } := by
  obtain ⟨x, hx⟩ := s.workEnd_eq u cls
  rw [hx]
  exact ⟨rfl, rfl, State.unitWork_setUnitWork _ _ _ _⟩

/-- An audit has ended: BUSY is 0, and nothing but BUSY and the record of the audit is another. -/
theorem State.soundEnd_spec (k : Nat) : (s.soundEnd k).auditOf k = none ∧ (s.soundEnd k).fld F.BNK_SND_STAT.BUSY k = 0
    ∧ (s.soundEnd k).look.slots = s.look.slots ∧ (s.soundEnd k).regs = (s.setFld F.BNK_SND_STAT.BUSY k 0).regs := by
  obtain ⟨hregs, hlook, -⟩ := ((s.setAudit k none).setFld F.BNK_SND_STAT.BUSY k 0).workEnd_keeps (.auditor (BitVec.ofNat 2 k)) 2
  refine ⟨?_, ?_, ?_, hregs⟩
  · rw [State.auditOf, State.soundEnd, hlook]
    exact s.auditOf_setAudit k none
  · rw [State.soundEnd, State.fld_of_regs hregs, State.fld_setFld_eq _ _ _ _ (by decide) (by decide)]
  · rw [State.soundEnd, hlook]
    rfl

theorem RegsKept.soundEnd {s t : State} {k : Nat} {l : List (Reg × Nat)} (h : RegsKept s t l) (hm : (Reg.BNK_SND_STAT, k) ∈ l) :
    RegsKept s (t.soundEnd k) l := by
  obtain ⟨-, -, -, hregs⟩ := t.soundEnd_spec k
  exact (h.setFld F.BNK_SND_STAT.BUSY k 0 hm).of_regs hregs

end

/-! ## A Sounding firing (R233, R251) -/

section
variable {s : State} {k : BitVec 2} {f : Firing}

/-- A firing at an idle auditor begins its work; Sounding has no ford windows (R82, R233). -/
theorem State.fireArrive_auditor (hlive : s.isFenced (2 + k.toNat) = false) (hidle : s.unitWork (.auditor k) 2 = noWork) :
    s.fireArrive (.auditor k) 2 f = s.setUnitWork (.auditor k) 2 { work := some f, pend := none } := by
  have hchip : s.isFenced (unitChip (.auditor k)) = false := hlive
  simp only [State.fireArrive, hchip, hidle, noWork, Bool.false_eq_true, if_false]
  exact if_pos (.inr rfl)

/-- The next audited table is a matter of the registers and the lookup tables. -/
theorem State.nextAudit_congr {t : State} (hregs : t.regs = s.regs) (hlook : t.look = s.look) (k : Nat) :
    t.nextAudit k = s.nextAudit k := by
  simp only [State.nextAudit, State.auditBoard, State.liveBoards, State.isFenced, State.tdefValid, State.flag, State.fld_of_regs hregs,
    hlook]

/-- The idle auditor of a Bank has taken a firing and begun its work (R75). -/
def State.soundFired (s : State) (k : BitVec 2) (f : Firing) : State :=
  (s.fireTake (.auditor k) 2 f).setUnitWork (.auditor k) 2 { work := some (firingActs 2 f), pend := none }

theorem exec_soundingFiring (hidle : s.unitWork (.auditor k) 2 = noWork) (hlive : s.isFenced (2 + k.toNat) = false)
    (hdue : s.fireDue (.auditor k) 2 f = true) : exec (.soundingFiring k f) s = done ((s.soundFired k f).soundBegin k.toNat) := by
  have harrive : (s.fireTake (.auditor k) 2 f).fireArrive (.auditor k) 2 (firingActs 2 f) = s.soundFired k f :=
    State.fireArrive_auditor hlive hidle
  rw [← harrive]
  exact congrArg done (State.fireAt_idle (u := .auditor k) hdue hlive hidle)

/-- An audit of a table before its first step. -/
def newAudit (t : Nat) : Audit :=
  { table := t, started := false, gen := 0, off := 0, count := 0, next := 0, flips := 0, changes := []
    missing := 0, different := 0, matched := 0, inserted := 0, discard := false }

/-- The state with an audit of table t begun at a Bank. -/
def State.auditBegun (s : State) (k t : Nat) : State :=
  ((s.setFld F.BNK_SND_STAT.BUSY k 1).setFld F.BNK_SND_STAT.TABLE k t).putLook { s.look with
    audit := Tbl.set (fun _ => none) s.look.audit k (some (newAudit t))
    auditLast := Tbl.set (fun _ => 0) s.look.auditLast k (t / 4 + 1) }

theorem State.setFld_putLook (s : State) (x : LookupUnit) (f : Fld) (i v : Nat) :
    (s.putLook x).setFld f i v = (s.setFld f i v).putLook x := rfl

theorem State.soundBegin_starts {k t : Nat} (hen : s.fld F.BNK_SND_CTL.EN k = 1) (hnext : s.nextAudit k = some t) :
    ∃ o, s.soundBegin k = (s.auditBegun k t).putOut o := by
  obtain ⟨o, ho⟩ := (s.auditBegun k t).sndRead_eq k 0 8
  obtain ⟨o', ho'⟩ := ((s.auditBegun k t).putOut o).sndRead_eq k (0x40 + t * 8) 8
  refine ⟨o', ?_⟩
  rw [State.soundBegin, if_neg (by rw [State.flag, hen]; decide), hnext]
  dsimp only
  rw [State.setAudit, State.setFld_putLook, State.setFld_putLook, State.putLook_putLook, State.putLook_look]
  rw [State.auditBegun] at ho ho' ⊢
  rw [newAudit] at ho ho' ⊢
  rw [ho, ho', State.putOut_putOut]

theorem State.soundBegin_disabled (hen : s.fld F.BNK_SND_CTL.EN k.toNat = 0) : s.soundBegin k.toNat = s.workEnd (.auditor k) 2 := by
  rw [State.soundBegin, if_pos (by rw [State.flag, hen]; rfl), BitVec.ofNat_toNat, BitVec.setWidth_eq]

theorem State.auditBegun_spec {t : Nat} (ht : t < 4096) (k : Nat) : (s.auditBegun k t).auditOf k = some (newAudit t)
    ∧ (s.auditBegun k t).tide = s.tide ∧ (s.auditBegun k t).fld F.BNK_SND_STAT.BUSY k = 1
    ∧ (s.auditBegun k t).fld F.BNK_SND_STAT.TABLE k = t
    ∧ RegsKept s (s.auditBegun k t) [(.BNK_SND_STAT, k)] := by
  have hregs : (s.auditBegun k t).regs = ((s.setFld F.BNK_SND_STAT.BUSY k 1).setFld F.BNK_SND_STAT.TABLE k t).regs := by
    rw [State.auditBegun, State.putLook_regs]
  refine ⟨?_, ?_, ?_, ?_, ?_⟩
  · rw [State.auditOf, State.auditBegun, State.putLook_look, Tbl.get_set_same]
  · rw [State.auditBegun, State.putLook_tide, State.setFld_tide, State.setFld_tide]
  · rw [State.fld_of_regs hregs, State.fld_setFld_bits_ne _ _ _ _ _ _ (by decide) (by decide)]
    exact State.fld_setFld_eq _ _ _ _ (by decide) (by decide)
  · rw [State.fld_of_regs hregs]
    exact State.fld_setFld_eq _ _ _ _ (by decide) ht
  · exact (((RegsKept.refl s _).setFld F.BNK_SND_STAT.BUSY k 1 (.head _)).setFld F.BNK_SND_STAT.TABLE k t (.head _)).of_regs hregs

theorem completes_soundingFiring {t : Nat} (hidle : s.unitWork (.auditor k) 2 = noWork) (hlive : s.isFenced (2 + k.toNat) = false)
    (hdue : s.fireDue (.auditor k) 2 f = true) (hen : s.fld F.BNK_SND_CTL.EN k.toNat = 1) (hnext : s.nextAudit k.toNat = some t)
    (ht : t < 4096) : Completes (.soundingFiring k f) s (fun u => u.auditOf k.toNat = some (newAudit t)
      ∧ u.fld F.BNK_SND_STAT.BUSY k.toNat = 1 ∧ u.fld F.BNK_SND_STAT.TABLE k.toNat = t
      ∧ (u.unitWork (.auditor k) 2).work = some (firingActs 2 f) ∧ u.fordWin (.auditor k) = s.fordWin (.auditor k)
      ∧ RegsKept s u [(.BNK_SND_STAT, k.toNat)]) := by
  obtain ⟨o, ho⟩ := State.soundBegin_starts (s := s.soundFired k f) hen ((State.nextAudit_congr rfl rfl _).trans hnext)
  obtain ⟨haudit, htide, hbusy, htable, hkept⟩ := (s.soundFired k f).auditBegun_spec ht k.toNat
  obtain ⟨u, hu⟩ : ∃ u, u = (s.soundFired k f).auditBegun k.toNat t := ⟨_, rfl⟩
  rw [← hu] at ho haudit htide hbusy htable hkept
  refine .of_eq ((exec_soundingFiring hidle hlive hdue).trans (congrArg done ho)) ⟨haudit, hbusy, htable, ?_, ?_, hkept⟩
  · rw [State.unitWork, State.putOut_tide, htide]
    exact congrArg UnitWork.work (State.unitWork_setUnitWork _ _ _ _)
  · rw [State.fordWin, State.putOut_tide, htide]
    rfl

theorem soundingFiring_disabled (hidle : s.unitWork (.auditor k) 2 = noWork) (hlive : s.isFenced (2 + k.toNat) = false)
    (hdue : s.fireDue (.auditor k) 2 f = true) (hen : s.fld F.BNK_SND_CTL.EN k.toNat = 0) :
    Completes (.soundingFiring k f) s (fun u => u.regs = s.regs ∧ u.look = s.look
      ∧ u.unitWork (.auditor k) 2 = s.unitWork (.auditor k) 2) := by
  obtain ⟨hregs, hlook, hwork⟩ := (s.soundFired k f).workEnd_keeps (.auditor k) 2
  have hbegin := State.soundBegin_disabled (s := s.soundFired k f) hen
  refine .of_eq ((exec_soundingFiring hidle hlive hdue).trans (congrArg done hbegin)) ⟨hregs, hlook, ?_⟩
  rw [hwork, hidle, State.soundFired, State.unitWork_setUnitWork]
  rfl

end

end Sys2Proof.Machine
end

section
namespace Sys2Proof.Machine

/-! ## The shadow's head and the flips of the epoch (R234, R235) -/

section
variable {s : State} {k : Nat} {a : Audit} {l : List Byte}

/-- An audit whose first step has read the shadow's head. -/
def State.auditOpened (s : State) (a : Audit) (l : List Byte) : Audit :=
  if a.started then a else
    { a with started := true, gen := bytesWord ((l.drop 4).take 4), off := beNat (l.drop 8) / 2 ^ 24, count := beNat (l.drop 8) % 2 ^ 24
             changes := s.changesOf a.table }

theorem State.auditHead_started {head : Option (List Byte)} (h : a.started = true) : s.auditHead k a head = (some a, s) := if_pos h

theorem State.auditHead_badMagic (h : a.started = false) (hmay : s.sndMay k = true) (hlen : l.length = 16)
    (hmagic : beNat (l.take 4) ≠ 0x534E4431) :
    s.auditHead k a (some l) = (none, (s.setFld F.BNK_SND_STAT.BADSHADOW k 1).soundEnd k) := by
  rw [State.auditHead, if_neg (by rw [h]; decide), s.sndGot_read hmay hlen]
  exact if_pos hmagic

theorem State.auditHead_goodMagic (h : a.started = false) (hmay : s.sndMay k = true) (hlen : l.length = 16)
    (hmagic : beNat (l.take 4) = 0x534E4431) :
    s.auditHead k a (some l) = (some (s.auditOpened a l), s.setAudit k (some (s.auditOpened a l))) := by
  have hdir : beNat (l.drop 8) < 256 ^ 8 := by
    have hlt := beNat_lt (l.drop 8)
    rwa [List.length_drop, hlen] at hlt
  have hoff : bits (beNat (l.drop 8)) 63 24 = beNat (l.drop 8) / 2 ^ 24 := by
    rw [bits_eq]
    exact Nat.mod_eq_of_lt (by omega)
  have hcount : bits (beNat (l.drop 8)) 23 0 = beNat (l.drop 8) % 2 ^ 24 := by
    rw [bits_eq, Nat.pow_zero, Nat.div_one]
  rw [State.auditHead, if_neg (by rw [h]; decide), s.sndGot_read hmay hlen]
  dsimp only
  rw [if_neg (not_not.mpr hmagic), hoff, hcount, State.auditOpened, if_neg (by rw [h]; decide)]

/-- An audit that has begun, or whose head is read and good, goes on; only its record may have changed. -/
theorem State.auditHead_opened (h : a.started = true ∨ s.sndMay k = true ∧ l.length = 16 ∧ beNat (l.take 4) = 0x534E4431) :
    ∃ x, s.auditHead k a (some l) = (some (s.auditOpened a l), s.putLook { s.look with audit := x }) := by
  by_cases hstarted : a.started = true
  · refine ⟨s.look.audit, ?_⟩
    rw [State.auditHead_started hstarted, State.auditOpened, if_pos hstarted]
    rfl
  · obtain ⟨hmay, hlen, hmagic⟩ := h.resolve_left hstarted
    exact ⟨_, State.auditHead_goodMagic (Bool.eq_false_iff.mpr hstarted) hmay hlen hmagic⟩

theorem State.auditOpened_table (s : State) (a : Audit) (l : List Byte) : (s.auditOpened a l).table = a.table := by
  rw [State.auditOpened]
  split <;> rfl

/-- The marks' epoch of the table of an audit is flipped in partition b. -/
def State.epochFlipped (s : State) (k b : Nat) (a : Audit) : State :=
  (s.setFld F.BRD_DICE_TDEF_W0.AEPOCH (tdefIdx b a.table) (1 - s.fld F.BRD_DICE_TDEF_W0.AEPOCH (tdefIdx b a.table))).setAudit k
    (some { a with flips := a.flips ||| ((1 : BitVec 8) <<< b) })

theorem tdefIdx_eq {t : Nat} (b : Nat) (h : t < 4096) : tdefIdx b t = b * 4096 + t := by rw [tdefIdx, Nat.mod_eq_of_lt h]

end

section
variable {s : State} {k : BitVec 2} {b : BitVec 3} {tb : BitVec 12} {a : Audit} {l : List Byte}

theorem exec_auditEpochFlip {c : Audit} {t : State} {head : Option (List Byte)} (haudit : s.auditOf k.toNat = some a)
    (htable : tb.toNat = a.table) (hbank : tb.toNat % 4 = k.toNat) (hpart : (s.auditParts a.table).contains b.toNat = true)
    (hnew : a.flips.getLsbD b.toNat = false) (hhead : s.auditHead k.toNat a head = (some c, t)) :
    exec (.auditEpochFlip tb b head) s = done (t.epochFlipped k.toNat b.toNat c) := by
  change execAuditEpochFlip tb b head s = _
  rw [execAuditEpochFlip]
  dsimp only
  rw [hbank, haudit]
  dsimp only
  rw [if_neg (by rw [htable, hpart, hnew]; simp), hhead]
  rfl

theorem completes_auditEpochFlip (haudit : s.auditOf k.toNat = some a) (htable : tb.toNat = a.table) (hbank : tb.toNat % 4 = k.toNat)
    (hpart : (s.auditParts a.table).contains b.toNat = true) (hnew : a.flips.getLsbD b.toNat = false)
    (hhead : a.started = true ∨ s.sndMay k.toNat = true ∧ l.length = 16 ∧ beNat (l.take 4) = 0x534E4431) :
    Completes (.auditEpochFlip tb b (some l)) s (fun u =>
      u.fld F.BRD_DICE_TDEF_W0.AEPOCH (b.toNat * 4096 + tb.toNat) = 1 - s.fld F.BRD_DICE_TDEF_W0.AEPOCH (b.toNat * 4096 + tb.toNat)
      ∧ u.auditOf k.toNat = some { s.auditOpened a l with flips := (s.auditOpened a l).flips ||| (1 : BitVec 8) <<< b.toNat }
      ∧ u = (s.putLook { s.look with audit := u.look.audit }).putRegs u.regs
      ∧ RegsKept s u [(.BRD_DICE_TDEF_W0, b.toNat * 4096 + tb.toNat)]) := by
  obtain ⟨x, hopened⟩ := State.auditHead_opened hhead
  have hidx : tdefIdx b.toNat (s.auditOpened a l).table = b.toNat * 4096 + tb.toNat := by
    rw [s.auditOpened_table, ← htable, tdefIdx_eq _ tb.isLt]
  have hflip : (s.putLook { s.look with audit := x }).epochFlipped k.toNat b.toNat (s.auditOpened a l)
      = ((s.setFld F.BRD_DICE_TDEF_W0.AEPOCH (b.toNat * 4096 + tb.toNat)
          (1 - s.fld F.BRD_DICE_TDEF_W0.AEPOCH (b.toNat * 4096 + tb.toNat))).putLook { s.look with audit := x }).setAudit k.toNat
            (some { s.auditOpened a l with flips := (s.auditOpened a l).flips ||| (1 : BitVec 8) <<< b.toNat }) := by
    rw [State.epochFlipped, hidx, State.setFld_putLook]
    rfl
  refine .of_eq ((exec_auditEpochFlip haudit htable hbank hpart hnew hopened).trans (congrArg done hflip))
    ⟨?_, State.auditOf_setAudit _ _ _, rfl, ?_⟩
  · rw [State.fld_of_regs (State.regs_setAudit _ _ _), State.fld_of_regs (State.putLook_regs _ _)]
    exact State.fld_setFld_eq _ _ _ _ (by decide) (Nat.lt_succ_of_le (Nat.sub_le _ _))
  · exact (((RegsKept.refl s _).setFld F.BRD_DICE_TDEF_W0.AEPOCH _ _ (.head _)).of_regs (State.putLook_regs _ _)).of_regs
      (State.regs_setAudit _ _ _)

theorem auditEpochFlip_again {head : Option (List Byte)} (haudit : s.auditOf k.toNat = some a) (hbank : tb.toNat % 4 = k.toNat)
    (hflipped : a.flips.getLsbD b.toNat = true) : Completes (.auditEpochFlip tb b head) s (fun u => u = s) := by
  refine .of_eq (t := s) ?_ rfl
  change execAuditEpochFlip tb b head s = _
  rw [execAuditEpochFlip]
  dsimp only
  rw [hbank, haudit]
  exact if_pos (.inr (.inr hflipped))

end

/-! ## A record of the shadow and its repair (R235, R236) -/

/-- The auditor judges record r of the shadow by the entry n of partition p, whose Board answers and defines the table. -/
abbrev State.Judges (s : State) (a : Audit) (r : List Byte) (p : Nat) (n : DiceEntry) : Prop :=
  s.partOf s.auditBoard a.table ((r.drop 6).take 16) = p ∧ s.shadowEntry p a.table r = n ∧ s.isFenced (8 + p) = false
    ∧ s.tdefValid p a.table = true

section
variable {s : State} {k p : Nat} {a : Audit} {r : List Byte} {n : DiceEntry} {g : Option Word}

/-- A missing record where no repair may be made (R235, R236). -/
theorem State.auditRecord_missing (hjudges : s.Judges a r p n) (hfind : s.findEntry p a.table n.key = none)
    (hno : (s.flag F.BNK_SND_CTL.REPAIR k && s.unchanged p a g) = false) : s.auditRecord k a g r
      = s.setAudit k (some { a with missing := a.missing + 1, discard := a.discard || s.voids k p a g }) := by
  obtain ⟨hp, hn, hlive, hvalid⟩ := hjudges
  obtain ⟨a', ha'⟩ : ∃ a' : Audit, a' = { a with missing := a.missing + 1, discard := a.discard || s.voids k p a g } := ⟨_, rfl⟩
  have hmay : s.mayRepair k p a' g = false := by
    have hsame : s.unchanged p a' g = s.unchanged p a g := by rw [ha']; rfl
    rw [State.mayRepair, Bool.and_right_comm, hsame, hno, Bool.false_and]
  rw [State.auditRecord]
  dsimp only
  rw [hp, hn, if_neg (by rw [boardChip, hlive, hvalid]; decide), hfind]
  dsimp only
  rw [← ha', hmay]
  rfl

/-- A missing record that a repair inserts (R236). -/
theorem State.auditRecord_inserted {u : State} (hjudges : s.Judges a r p n) (hfind : s.findEntry p a.table n.key = none)
    (hrepair : s.flag F.BNK_SND_CTL.REPAIR k = true) (hsame : s.unchanged p a g = true) (hkeep : a.discard = false)
    (hinsert : s.insertEntry p n false false = (lkDone, u)) : s.auditRecord k a g r
      = (u.satInc F.BNK_SND_REPAIRED.COUNT k 1).setAudit k (some { a with missing := a.missing + 1, inserted := a.inserted + 1 }) := by
  obtain ⟨hp, hn, hlive, hvalid⟩ := hjudges
  have hvoids : s.voids k p a g = false := by rw [State.voids, hsame, Bool.not_true, Bool.and_false]
  obtain ⟨a', ha'⟩ : ∃ a' : Audit, a' = { a with missing := a.missing + 1 } := ⟨_, rfl⟩
  have hmay : s.mayRepair k p a' g = true := by
    have hsame' : s.unchanged p a' g = true := by rw [ha']; exact hsame
    have hkeep' : a'.discard = false := by rw [ha']; exact hkeep
    rw [State.mayRepair, hrepair, hsame', hkeep']
    rfl
  rw [State.auditRecord]
  dsimp only
  rw [hp, hn, if_neg (by rw [boardChip, hlive, hvalid]; decide), hfind]
  dsimp only
  rw [hvoids, Bool.or_false, ← ha', hmay, if_pos rfl, hinsert, if_pos rfl]

/-- A record whose entry stands in the partition as it should: the entry takes the epoch as its mark (R235). -/
theorem State.auditRecord_matched {x : DiceLoc} {e : DiceEntry} (hjudges : s.Judges a r p n)
    (hfind : s.findEntry p a.table n.key = some (x, e)) (hvalue : e.value = n.value) (hstatic : e.static = n.static)
    (howner : e.owner = n.owner) : s.auditRecord k a g r
      = (s.setEntry x (some { e with mark := s.flag F.BRD_DICE_TDEF_W0.AEPOCH (tdefIdx p a.table) })).setAudit k
          (some { a with matched := a.matched + 1 }) := by
  obtain ⟨hp, hn, hlive, hvalid⟩ := hjudges
  rw [State.auditRecord]
  dsimp only
  rw [hp, hn, if_neg (by rw [boardChip, hlive, hvalid]; decide), hfind]
  exact if_pos ⟨hvalue, hstatic, howner⟩

theorem State.slotAt_setAudit (s : State) (k : Nat) (a : Option Audit) (x : Nat) : (s.setAudit k a).slotAt x = s.slotAt x := rfl

theorem State.slotAt_satInc (s : State) (f : Fld) (i m x : Nat) : (s.satInc f i m).slotAt x = s.slotAt x := rfl

theorem State.slotAt_usedUp (s : State) (b x : Nat) : (s.usedUp b).slotAt x = s.slotAt x := rfl

theorem State.slotAt_countChange (s : State) (b t : Nat) (up : Bool) (x : Nat) :
    (s.countChange b t up false).slotAt x = s.slotAt x := rfl

/-- An insert of an absent entry whose first bucket has an empty slot: the entry lies there (R222). -/
theorem State.insertEntry_first {x : Nat} (hfind : s.findEntry p n.table.toNat n.key = none)
    (hslot : s.emptySlot p (bucket0 n.table.toNat n.key) = some x) :
    ∃ u, s.insertEntry p n false false = (lkDone, u) ∧ u.slotAt (slotKey p (bucket0 n.table.toNat n.key) x) = some n := by
  refine ⟨((s.setSlot (slotKey p (bucket0 n.table.toNat n.key) x) (some n)).usedUp p).countChange p n.table.toNat true false, ?_, ?_⟩
  · rw [State.insertEntry]
    dsimp only
    rw [hfind, hslot]
    rfl
  · rw [State.slotAt_countChange, State.slotAt_usedUp, State.slotAt_setSlot]

theorem State.shadowEntry_table (s : State) (p : Nat) {t : Nat} (r : List Byte) (ht : t < 4096) :
    (s.shadowEntry p t r).table.toNat = t := (BitVec.toNat_ofNat t 12).trans (Nat.mod_eq_of_lt ht)

end

section
variable {s : State} {k : BitVec 2} {a : Audit} {r : List Byte}

/-- The audit of a Bank has begun, every partition is flipped, and a record of the shadow is due (R235). -/
abbrev State.RecordDue (s : State) (k : BitVec 2) (a : Audit) : Prop :=
  s.auditOf k.toNat = some a ∧ a.started = true ∧ s.flipsDone a = true ∧ a.next < a.count

/-- The requests of SOUNDING_REPAIR: the record, and GEN where a repair may follow. -/
theorem State.recordAsk_eq (s : State) (k off : Nat) :
    ∃ o, (s.sndRead k off 32).when (s.flag F.BNK_SND_CTL.REPAIR k) (fun s => s.sndRead k 4 4) = s.putOut o := by
  obtain ⟨o, ho⟩ := s.sndRead_eq k off 32
  rw [ho, State.when]
  split
  · obtain ⟨o', ho'⟩ := (s.putOut o).sndRead_eq k 4 4
    exact ⟨o', ho'⟩
  · exact ⟨o, rfl⟩

theorem exec_soundingRepair (g : Option Word) (hdue : s.RecordDue k a) (hmay : s.sndMay k.toNat = true) (hlen : r.length = 32) :
    ∃ o, exec (.soundingRepair k g (some r)) s = done ((s.putOut o).auditRecord k.toNat { a with next := a.next + 1 } g r) := by
  obtain ⟨haudit, hstarted, hflips, hnext⟩ := hdue
  obtain ⟨o, ho⟩ := s.recordAsk_eq k.toNat (a.off + 32 * a.next)
  refine ⟨o, ?_⟩
  change execSoundingRepair k g (some r) s = _
  rw [execSoundingRepair]
  dsimp only
  rw [haudit]
  dsimp only
  rw [if_neg (by rw [hstarted, hflips]; simp [hnext]), s.sndGot_read hmay hlen, ho]

theorem exec_soundingRepair_unread (g : Option Word) (hdue : s.RecordDue k a) :
    ∃ o, exec (.soundingRepair k g none) s
      = done ((s.putOut o).setAudit k.toNat (some { a with next := a.next + 1, discard := true })) := by
  obtain ⟨haudit, hstarted, hflips, hnext⟩ := hdue
  obtain ⟨o, ho⟩ := s.recordAsk_eq k.toNat (a.off + 32 * a.next)
  refine ⟨o, ?_⟩
  change execSoundingRepair k g none s = _
  rw [execSoundingRepair]
  dsimp only
  rw [haudit]
  dsimp only
  rw [if_neg (by rw [hstarted, hflips]; simp [hnext]), s.sndGot_failed, ho]

theorem completes_soundingRepair_unread (g : Option Word) (hdue : s.RecordDue k a) :
    Completes (.soundingRepair k g none) s (fun u => u.auditOf k.toNat = some { a with next := a.next + 1, discard := true }
      ∧ u.look.slots = s.look.slots ∧ u.regs = s.regs) := by
  obtain ⟨o, ho⟩ := exec_soundingRepair_unread g hdue
  exact .of_eq ho ⟨State.auditOf_setAudit _ _ _, rfl, rfl⟩

variable {p : Nat} {n : DiceEntry} {g : Option Word}

theorem completes_soundingRepair_missing {d : Bool} (hdue : s.RecordDue k a) (hmay : s.sndMay k.toNat = true) (hlen : r.length = 32)
    (hjudges : s.Judges a r p n) (hfind : s.findEntry p a.table n.key = none)
    (hno : (s.flag F.BNK_SND_CTL.REPAIR k.toNat && s.unchanged p a g) = false) (hd : (a.discard || s.voids k.toNat p a g) = d) :
    Completes (.soundingRepair k g (some r)) s (fun u =>
      u.auditOf k.toNat = some { a with next := a.next + 1, missing := a.missing + 1, discard := d }
      ∧ u.look.slots = s.look.slots ∧ u.regs = s.regs) := by
  obtain ⟨o, ho⟩ := exec_soundingRepair g hdue hmay hlen
  rw [State.auditRecord_missing (s := s.putOut o) (a := { a with next := a.next + 1 }) (p := p) (n := n) hjudges hfind hno] at ho
  rw [← hd]
  exact .of_eq ho ⟨State.auditOf_setAudit _ _ _, rfl, rfl⟩

theorem completes_soundingRepair_inserted {x : Nat} (hdue : s.RecordDue k a) (hmay : s.sndMay k.toNat = true) (hlen : r.length = 32)
    (hjudges : s.Judges a r p n) (htable : a.table < 4096) (hfind : s.findEntry p a.table n.key = none)
    (hrepair : s.flag F.BNK_SND_CTL.REPAIR k.toNat = true) (hsame : s.unchanged p a g = true) (hkeep : a.discard = false)
    (hslot : s.emptySlot p (bucket0 a.table n.key) = some x) :
    Completes (.soundingRepair k g (some r)) s (fun u =>
      u.auditOf k.toNat = some { a with next := a.next + 1, missing := a.missing + 1, inserted := a.inserted + 1 }
      ∧ u.slotAt (slotKey p (bucket0 a.table n.key) x) = some n) := by
  have htab : n.table.toNat = a.table := by
    obtain ⟨-, hn, -⟩ := hjudges
    rw [← hn, State.shadowEntry_table _ _ _ htable]
  obtain ⟨o, ho⟩ := exec_soundingRepair g hdue hmay hlen
  obtain ⟨u, hinsert, hlies⟩ := State.insertEntry_first (s := s.putOut o) (p := p) (n := n) (x := x) (by rw [htab]; exact hfind)
    (by rw [htab]; exact hslot)
  rw [State.auditRecord_inserted (s := s.putOut o) (a := { a with next := a.next + 1 }) (p := p) (n := n) hjudges hfind hrepair
    hsame hkeep hinsert] at ho
  refine .of_eq ho ⟨State.auditOf_setAudit _ _ _, ?_⟩
  rw [State.slotAt_setAudit, State.slotAt_satInc, ← htab]
  exact hlies

theorem completes_soundingRepair_matched {x : Nat} {e : DiceEntry} (hdue : s.RecordDue k a) (hmay : s.sndMay k.toNat = true)
    (hlen : r.length = 32) (hjudges : s.Judges a r p n) (htable : a.table < 4096)
    (hfind : s.findEntry p a.table n.key = some (.slot x, e)) (hvalue : e.value = n.value) (hstatic : e.static = n.static)
    (howner : e.owner = n.owner) : Completes (.soundingRepair k g (some r)) s (fun u =>
      u.auditOf k.toNat = some { a with next := a.next + 1, matched := a.matched + 1 }
      ∧ u.slotAt x = some { e with mark := s.flag F.BRD_DICE_TDEF_W0.AEPOCH (p * 4096 + a.table) } ∧ u.regs = s.regs) := by
  obtain ⟨o, ho⟩ := exec_soundingRepair g hdue hmay hlen
  rw [State.auditRecord_matched (s := s.putOut o) (a := { a with next := a.next + 1 }) (p := p) (n := n) hjudges hfind hvalue
    hstatic howner] at ho
  rw [← tdefIdx_eq p htable]
  refine .of_eq ho ⟨State.auditOf_setAudit _ _ _, ?_, rfl⟩
  rw [State.slotAt_setAudit]
  exact State.slotAt_setSlot _ _ _

end

end Sys2Proof.Machine
end

section
namespace Sys2Proof.Machine

/-! ## The end of an audit (R235, R236, R238) -/

theorem withField_fieldOf (w : Word) {hi lo : Nat} (h : lo ≤ hi ∧ hi < 32) : withField w hi lo (fieldOf w hi lo) = w := by
  obtain ⟨hle, hlt⟩ := h
  refine BitVec.eq_of_toNat_eq (Nat.eq_of_testBit_eq fun k => ?_)
  rw [testBit_withField _ _ _ _ _ hle hlt, testBit_fieldOf]
  by_cases hk : lo ≤ k ∧ k ≤ hi
  · rw [if_pos hk, decide_eq_true (by omega), Bool.true_and, Nat.add_sub_cancel' hk.1]
  · rw [if_neg hk]

/-- A counter raised by nothing is as it was. -/
theorem State.rd_satInc_zero (s : State) (f : Fld) (i : Nat) (h : f.lo ≤ f.hi ∧ f.hi < 32) (r : Reg) (j : Nat) :
    (s.satInc f i 0).rd r j = s.rd r j := by
  have hle : s.fld f i + 0 ≤ f.max := Nat.le_sub_one_of_lt (s.fld_lt f i)
  rw [State.satInc, satAdd, if_pos hle, Nat.add_zero, State.rd_setFld, State.fld, withField_fieldOf _ h]
  split
  case isTrue hij => rw [hij.1, hij.2]
  · rfl

section
variable {s : State} {k : Nat} {a : Audit} {g : Option Word}

/-- An extra entry is not repaired once GEN is another (R236). -/
theorem State.repairExtra_newGen {x : Audit × State} (e : Nat × DiceLoc × DiceEntry) (hgen : g ≠ some x.1.gen) :
    (State.repairExtra k g x e).1.gen = x.1.gen ∧ (State.repairExtra k g x e).2 = x.2 := by
  have hmay : ∀ c, x.2.mayRepair k e.1 { x.1 with discard := c } g = false := fun c => by
    rw [State.mayRepair, State.unchanged, beq_eq_false_iff_ne.mpr hgen, Bool.and_false, Bool.and_false]
  rw [State.repairExtra]
  dsimp only
  split
  · rw [hmay]
    exact ⟨rfl, rfl⟩
  · exact ⟨rfl, rfl⟩

theorem State.foldl_repairExtra_newGen (hgen : g ≠ some a.gen) (l : List (Nat × DiceLoc × DiceEntry)) :
    (l.foldl (State.repairExtra k g) (a, s)).2 = s := by
  have hkept : (l.foldl (State.repairExtra k g) (a, s)).1.gen = a.gen ∧ (l.foldl (State.repairExtra k g) (a, s)).2 = s := by
    refine List.foldlRecOn (motive := fun x : Audit × State => x.1.gen = a.gen ∧ x.2 = s) l _ ⟨rfl, rfl⟩ ?_
    rintro x ⟨hx, hs⟩ e -
    obtain ⟨hgen', hsame⟩ := State.repairExtra_newGen (k := k) e (by rw [hx]; exact hgen)
    exact ⟨hgen'.trans hx, hsame.trans hs⟩
  exact hkept.2

/-- An audit during which GEN became another ends discarded, with no repair. -/
theorem State.auditClose_newGen (hgen : g ≠ some a.gen) : s.auditClose k a g = s.soundDiscard k := by
  rw [State.auditClose, if_pos (.inl hgen), State.foldl_repairExtra_newGen hgen]

/-- An audit that found nothing ends with its counts, all of which are 0. -/
theorem State.auditClose_clean (hextras : s.extras a.table = []) (hchanges : s.changesOf a.table = a.changes)
    (hkeep : a.discard = false) : s.auditClose k a (some a.gen) = (s.auditReport k a 0).soundEnd k := by
  rw [State.auditClose, hextras, ite_self]
  exact if_neg (by simp [hkeep, hchanges])

theorem State.auditReport_nothing (hmissing : a.missing = 0) (hdifferent : a.different = 0) : s.auditReport k a 0
    = ((s.satInc F.BNK_SND_MISSING.COUNT k 0).satInc F.BNK_SND_DIFFERENT.COUNT k 0).satInc F.BNK_SND_EXTRA.COUNT k 0 := by
  rw [State.auditReport, hmissing, hdifferent]
  dsimp only
  rw [if_pos rfl]

theorem State.auditReport_nothing_spec (hmissing : a.missing = 0) (hdifferent : a.different = 0) :
    (s.auditReport k a 0).look = s.look ∧ ∀ r i, (s.auditReport k a 0).rd r i = s.rd r i := by
  rw [State.auditReport_nothing hmissing hdifferent]
  refine ⟨by rw [State.satInc_look, State.satInc_look, State.satInc_look], fun r i => ?_⟩
  rw [State.rd_satInc_zero _ _ _ (by decide), State.rd_satInc_zero _ _ _ (by decide), State.rd_satInc_zero _ _ _ (by decide)]

end

section
variable {s : State} {k : BitVec 2} {a : Audit} {l : List Byte}

theorem completes_soundingAuditEnd_badShadow (haudit : s.auditOf k.toNat = some a) (hfirst : a.started = false)
    (hmay : s.sndMay k.toNat = true) (hlen : l.length = 16) (hmagic : beNat (l.take 4) ≠ 0x534E4431) :
    Completes (.soundingAuditEnd k (some l)) s (fun u =>
      u.fld F.BNK_SND_STAT.BADSHADOW k.toNat = 1 ∧ u.fld F.BNK_SND_STAT.BUSY k.toNat = 0 ∧ u.auditOf k.toNat = none
      ∧ u.look.slots = s.look.slots ∧ RegsKept s u [(.BNK_SND_STAT, k.toNat)]) := by
  have he : exec (.soundingAuditEnd k (some l)) s = done ((s.setFld F.BNK_SND_STAT.BADSHADOW k.toNat 1).soundEnd k.toNat) := by
    change execSoundingAuditEnd k (some l) s = _
    rw [execSoundingAuditEnd, haudit]
    dsimp only
    rw [State.auditHead_badMagic hfirst hmay hlen hmagic]
  obtain ⟨hnone, hbusy, hslots, hregs⟩ := (s.setFld F.BNK_SND_STAT.BADSHADOW k.toNat 1).soundEnd_spec k.toNat
  refine .of_eq he ⟨?_, hbusy, hnone, hslots, ((RegsKept.refl s _).setFld F.BNK_SND_STAT.BADSHADOW _ _ (.head _)).soundEnd (.head _)⟩
  rw [State.fld_of_regs hregs, State.fld_setFld_bits_ne _ _ _ _ _ _ (by decide) (by decide)]
  exact State.fld_setFld_eq _ _ _ _ (by decide) (by decide)

/-- The audit of a Bank has done every partition and every record (R235). -/
abbrev State.AuditOver (s : State) (k : BitVec 2) (a : Audit) : Prop :=
  s.auditOf k.toNat = some a ∧ a.started = true ∧ s.flipsDone a = true ∧ a.count ≤ a.next

theorem exec_soundingAuditEnd (hover : s.AuditOver k a) (hmay : s.sndMay k.toNat = true) (hlen : l.length = 16) :
    ∃ o, exec (.soundingAuditEnd k (some l)) s
      = done ((s.putOut o).auditClose k.toNat a (some (bytesWord ((l.drop 4).take 4)))) := by
  obtain ⟨haudit, hstarted, hflips, hnext⟩ := hover
  obtain ⟨o, ho⟩ := s.sndRead_eq k.toNat 4 4
  refine ⟨o, ?_⟩
  change execSoundingAuditEnd k (some l) s = _
  rw [execSoundingAuditEnd, haudit]
  dsimp only
  rw [State.auditHead_started hstarted]
  dsimp only
  rw [if_neg (by rw [hflips]; simp [hnext]), s.sndGot_read hmay hlen, ho]
  rfl

theorem completes_soundingAuditEnd_clean (hover : s.AuditOver k a) (hmay : s.sndMay k.toNat = true) (hlen : l.length = 16)
    (hkeep : a.discard = false) (hmissing : a.missing = 0) (hdifferent : a.different = 0) (hextras : s.extras a.table = [])
    (hchanges : s.changesOf a.table = a.changes) (hgen : bytesWord ((l.drop 4).take 4) = a.gen) :
    Completes (.soundingAuditEnd k (some l)) s (fun u => u.fld F.BNK_SND_STAT.BUSY k.toNat = 0 ∧ u.auditOf k.toNat = none
      ∧ u.look.slots = s.look.slots ∧ RegsKept s u [(.BNK_SND_STAT, k.toNat)]) := by
  obtain ⟨o, ho⟩ := exec_soundingAuditEnd hover hmay hlen
  rw [hgen, State.auditClose_clean (s := s.putOut o) hextras hchanges hkeep] at ho
  obtain ⟨hlook, hrd⟩ := State.auditReport_nothing_spec (s := s.putOut o) (k := k.toNat) hmissing hdifferent
  obtain ⟨hnone, hbusy, hslots, -⟩ := ((s.putOut o).auditReport k.toNat a 0).soundEnd_spec k.toNat
  have hkept : RegsKept s ((s.putOut o).auditReport k.toNat a 0) [(.BNK_SND_STAT, k.toNat)] := fun r i _ => hrd r i
  exact .of_eq ho ⟨hbusy, hnone, hslots.trans (congrArg LookupUnit.slots hlook), hkept.soundEnd (.head _)⟩

theorem completes_soundingAuditEnd_newGen (hover : s.AuditOver k a) (hmay : s.sndMay k.toNat = true) (hlen : l.length = 16)
    (hgen : bytesWord ((l.drop 4).take 4) ≠ a.gen) :
    Completes (.soundingAuditEnd k (some l)) s (fun u => u.fld F.BNK_SND_STAT.BUSY k.toNat = 0 ∧ u.auditOf k.toNat = none
      ∧ u.look.slots = s.look.slots
      ∧ u.rd .BNK_SND_DISCARDED k.toNat = (s.satInc F.BNK_SND_DISCARDED.COUNT k.toNat 1).rd .BNK_SND_DISCARDED k.toNat
      ∧ RegsKept s u [(.BNK_SND_STAT, k.toNat), (.BNK_SND_DISCARDED, k.toNat)]) := by
  obtain ⟨o, ho⟩ := exec_soundingAuditEnd hover hmay hlen
  rw [State.auditClose_newGen (by rwa [ne_eq, Option.some_inj])] at ho
  obtain ⟨t, ht⟩ : ∃ t, t = (s.putOut o).satInc F.BNK_SND_DISCARDED.COUNT k.toNat 1 := ⟨_, rfl⟩
  obtain ⟨hnone, hbusy, hslots, -⟩ := t.soundEnd_spec k.toNat
  have hlook : t.look = s.look := by rw [ht]; rfl
  have hregs : t.regs = (s.satInc F.BNK_SND_DISCARDED.COUNT k.toNat 1).regs := by rw [ht]; rfl
  have hkept : RegsKept s t [(.BNK_SND_STAT, k.toNat), (.BNK_SND_DISCARDED, k.toNat)] :=
    ((RegsKept.refl s _).setFld F.BNK_SND_DISCARDED.COUNT _ _ (.tail _ (.head _))).of_regs hregs
  rw [State.soundDiscard, ← ht] at ho
  refine .of_eq ho ⟨hbusy, hnone, hslots.trans (congrArg LookupUnit.slots hlook), ?_, hkept.soundEnd (.head _)⟩
  rw [((RegsKept.refl t [(.BNK_SND_STAT, k.toNat)]).soundEnd (.head _)) _ _ (by simp), State.rd, hregs]
  rfl

end

/-- Settles O30: a firing by `State.soundBegin_starts`, a flip by `State.auditHead_opened`, a record by the lemma of its judgement
(`State.auditRecord_missing`, `_inserted`, `_matched`), the end of an audit by `State.auditClose_clean` and `State.auditClose_newGen`. -/
theorem soundingAudits : Obligations.SoundingAudits := by
  unfold Obligations.SoundingAudits
  intro s k b f a tb l r unit w d p n magic gen a0 next judged
  refine ⟨fun t => completes_soundingFiring, soundingFiring_disabled, completes_auditEpochFlip,
    fun haudit _ hbank hflipped => auditEpochFlip_again haudit hbank hflipped,
    fun haudit hstarted hflips hnext hmay hlen hlive hvalid htable => ?_, completes_soundingAuditEnd_badShadow,
    fun haudit hstarted hflips hnext hmay hlen => ⟨fun hkeep hmissing hdifferent hextras hchanges hgen => ?_,
      completes_soundingAuditEnd_newGen ⟨haudit, hstarted, hflips, hnext⟩ hmay hlen⟩⟩
  · have hdue : s.RecordDue k a := ⟨haudit, hstarted, hflips, hnext⟩
    have hjudges : s.Judges a r p n := ⟨rfl, rfl, hlive, hvalid⟩
    refine ⟨fun g hfind hrepair => ?_, fun x hfind hrepair hkeep hchanges hslot => ?_, fun g hfind hrepair hgen => ?_,
      fun g x e hfind hvalue hstatic howner => completes_soundingRepair_matched hdue hmay hlen hjudges htable hfind hvalue hstatic howner,
      completes_soundingRepair_unread _ hdue⟩
    · have hflag : s.flag F.BNK_SND_CTL.REPAIR k.toNat = false := by rw [State.flag, hrepair]; rfl
      refine completes_soundingRepair_missing hdue hmay hlen hjudges hfind ?_ ?_
      · rw [hflag, Bool.false_and]
      · rw [State.voids, hflag, Bool.false_and, Bool.or_false]
    · have hsame : s.unchanged p a (some a.gen) = true := by
        rw [State.unchanged, tdefIdx_eq _ htable, hchanges]
        simp
      exact completes_soundingRepair_inserted hdue hmay hlen hjudges htable hfind ((State.flag_iff_one _ _ _ rfl).mpr hrepair) hsame
        hkeep hslot
    · have hflag : s.flag F.BNK_SND_CTL.REPAIR k.toNat = true := (State.flag_iff_one _ _ _ rfl).mpr hrepair
      have hchanged : s.unchanged p a (some g) = false := by
        have hnew : (some g == some a.gen) = false := beq_eq_false_iff_ne.mpr (by rwa [ne_eq, Option.some_inj])
        rw [State.unchanged, hnew, Bool.and_false]
      refine completes_soundingRepair_missing hdue hmay hlen hjudges hfind ?_ ?_
      · rw [hchanged, Bool.and_false]
      · rw [State.voids, hflag, hchanged, Bool.not_false, Bool.and_true, Bool.or_true]
  · obtain ⟨u, hu, hbusy, hnone, hslots, hkept⟩ := completes_soundingAuditEnd_clean ⟨haudit, hstarted, hflips, hnext⟩ hmay hlen hkeep
      hmissing hdifferent hextras hchanges hgen
    exact ⟨u, hu, hbusy, hnone, hslots, hkept _ _ (by simp), hkept _ _ (by simp), hkept _ _ (by simp)⟩

end Sys2Proof.Machine
end

section
namespace Sys2Proof.Machine

/-! ## Counters, typed writes and list cuts -/

/-- A counter that is a whole register, after its increment. -/
theorem State.toNat_rd_satInc (s : State) {f : Fld} (i : Nat) (h : f.hi = 31 ∧ f.lo = 0) :
    ((s.satInc f i 1).rd f.reg i).toNat = Nat.min (2 ^ 32 - 1) ((s.rd f.reg i).toNat + 1) := by
  obtain ⟨r, hi, lo⟩ := f
  obtain ⟨rfl, rfl⟩ : hi = 31 ∧ lo = 0 := h
  have hcount := s.fld_satInc_one ⟨r, 31, 0⟩ i ⟨by simp, by simp⟩
  exact (fieldOf_whole _).symm.trans (hcount.trans (congrArg (fun n => Nat.min (2 ^ 32 - 1) (n + 1)) (fieldOf_whole _)))

theorem RegsKept.wr {s t : State} {l : List (Reg × Nat)} (h : RegsKept s t l) (r : Reg) (i : Nat) (v : Word) (hm : (r, i) ∈ l) :
    RegsKept s (t.wr r i v) l :=
  h.trans fun q j hq => State.rd_wr_ne _ _ _ _ _ _ (by rintro ⟨rfl, rfl⟩; exact hq hm)

theorem State.staged_congr {s t : State} (h : t.stage = s.stage) (r : Reg) (i : Nat) : t.staged r i = s.staged r i := by
  rw [State.staged, h, State.staged]

/-- A field of a register after a typed write of the register (R7). -/
theorem State.fld_writeTyped (s : State) (f : Fld) (i : Nat) (v : Word) :
    (s.writeTyped f.reg i v).fld f i = fieldOf (typedWrite f.reg v (s.rd f.reg i)) f.hi f.lo :=
  State.fld_wr_same s f.reg i _ f rfl

/-- The cells that are not among the first n of a chain are those after them. -/
theorem filter_not_mem_take {l : List Nat} (h : l.Nodup) (n : Nat) : l.filter (fun c => !(l.take n).contains c) = l.drop n := by
  have hsplit := List.take_append_drop n l
  have hdisjoint : ∀ c ∈ l.drop n, c ∉ l.take n := fun c hdrop htake => List.disjoint_take_drop h le_rfl htake hdrop
  have htake : (l.take n).filter (fun c => !(l.take n).contains c) = [] := List.filter_eq_nil_iff.mpr fun c hc => by simp [hc]
  have hdrop : (l.drop n).filter (fun c => !(l.take n).contains c) = l.drop n :=
    List.filter_eq_self.mpr fun c hc => by simpa using hdisjoint c hc
  calc l.filter (fun c => !(l.take n).contains c)
      = (l.take n ++ l.drop n).filter (fun c => !(l.take n).contains c) := by rw [hsplit]
    _ = l.drop n := by rw [List.filter_append, htake, hdrop, List.nil_append]

/-! ## Depths, spill lists and queues (R266, R270) -/

/-- From s to t queues moved between the spill lists, or one found no room there (R270). -/
structure Relists (s t : State) : Prop where
  cfl : t.cfl = { s.cfl with spillLists := t.cfl.spillLists }
  words : RegsKept s t [(.CFL_SPILL_UNLISTED, 0)]

theorem Relists.refl (s : State) : Relists s s := ⟨rfl, .refl _ _⟩

theorem State.relists_unlist (s : State) (q : Nat) : Relists s (s.unlist q) := ⟨rfl, (RegsKept.refl s _).of_regs rfl⟩

theorem State.relists_list (s : State) (q : Nat) : Relists s (s.list q) := by
  unfold State.list
  dsimp only
  split
  · exact .refl s
  · split
    · exact ⟨rfl, (RegsKept.refl s _).of_regs rfl⟩
    · exact ⟨rfl, (RegsKept.refl s _).setFld F.CFL_SPILL_UNLISTED.COUNT 0 _ (.head _)⟩

theorem State.relists_setDepth (s : State) (q d : Nat) : Relists (s.setFld F.CFL_QDEPTH.CELLS q d) (s.setDepth q d) := by
  unfold State.setDepth
  dsimp only
  split
  · exact State.relists_unlist _ q
  · split
    · exact State.relists_list _ q
    · exact .refl _

theorem State.cfl_setDepth (s : State) (q d : Nat) : (s.setDepth q d).cfl = { s.cfl with spillLists := (s.setDepth q d).cfl.spillLists } :=
  (s.relists_setDepth q d).cfl

theorem State.regsKept_setDepth (s : State) (q d : Nat) : RegsKept s (s.setDepth q d) [(.CFL_QDEPTH, q), (.CFL_SPILL_UNLISTED, 0)] :=
  ((RegsKept.refl s _).setFld F.CFL_QDEPTH.CELLS q d (.head _)).trans fun r i hr =>
    (s.relists_setDepth q d).words r i fun hm => hr (.tail _ hm)

theorem State.depth_setDepth_same (s : State) {q d : Nat} (h : d < 2 ^ 21) : (s.setDepth q d).depth q = d := by
  rw [State.depth, (s.relists_setDepth q d).words.fld F.CFL_QDEPTH.CELLS q (by simp [F.CFL_QDEPTH.CELLS]),
    State.fld_setFld_eq _ _ _ _ (by decide) h]

theorem State.depth_setDepth_ne (s : State) {q y : Nat} (d : Nat) (h : y ≠ q) : (s.setDepth q d).depth y = s.depth y :=
  (s.regsKept_setDepth q d).fld F.CFL_QDEPTH.CELLS y (by simp [F.CFL_QDEPTH.CELLS, h])

theorem State.depth_lt (s : State) (q : Nat) : s.depth q < 2 ^ 21 := s.fld_lt F.CFL_QDEPTH.CELLS q

/-- A frame joined a queue: Confluence but for the queues and the spill lists is as it was. -/
theorem State.cfl_enqueue (s : State) (q : Nat) (e : QEntry) (n : Nat) : (s.enqueue q e n).cfl =
    { s.cfl with queues := (s.enqueue q e n).cfl.queues, spillLists := (s.enqueue q e n).cfl.spillLists } := by
  have h := (s.setQueue q (s.queue q ++ [e])).cfl_setDepth q (s.depth q + n)
  rw [State.enqueue, h]
  rfl

theorem State.queues_enqueue (s : State) (q : Nat) (e : QEntry) (n : Nat) :
    (s.enqueue q e n).cfl.queues = Tbl.set (fun _ => []) s.cfl.queues q (s.queue q ++ [e]) := by
  rw [State.enqueue, State.cfl_setDepth]
  rfl

theorem State.queue_enqueue_same (s : State) (q : Nat) (e : QEntry) (n : Nat) : (s.enqueue q e n).queue q = s.queue q ++ [e] := by
  rw [State.queue, State.queues_enqueue, Tbl.get_set_same]

theorem State.queue_enqueue_ne (s : State) {q y : Nat} (e : QEntry) (n : Nat) (h : y ≠ q) : (s.enqueue q e n).queue y = s.queue y := by
  rw [State.queue, State.queues_enqueue, Tbl.get_set_ne _ _ _ h.symm, State.queue]

theorem State.depth_enqueue_same (s : State) {q n : Nat} (e : QEntry) (h : s.depth q + n < 2 ^ 21) :
    (s.enqueue q e n).depth q = s.depth q + n :=
  State.depth_setDepth_same _ h

theorem State.depth_enqueue_ne (s : State) {q y : Nat} (e : QEntry) (n : Nat) (h : y ≠ q) : (s.enqueue q e n).depth y = s.depth y :=
  State.depth_setDepth_ne _ _ h

theorem State.regsKept_enqueue (s : State) (q : Nat) (e : QEntry) (n : Nat) :
    RegsKept s (s.enqueue q e n) [(.CFL_QDEPTH, q), (.CFL_SPILL_UNLISTED, 0)] :=
  ((RegsKept.refl s _).of_regs rfl).trans (State.regsKept_setDepth _ _ _)

end Sys2Proof.Machine
end

section
namespace Sys2Proof.Machine

/-! ## The books, landed spills and skipped numbers (R259 to R261, R265) -/

theorem State.bookSnap_capturing (s : State) {v : Word} (h : v.toNat % 2 = 1) : s.bookSnap v =
    ((((s.setFld F.CFL_BOOK_FREE.CELLS 0 s.cfl.books.free).setFld F.CFL_BOOK_QUEUED.CELLS 0 s.cfl.books.queued).setFld
      F.CFL_BOOK_PIPE.CELLS 0 s.cfl.books.pipe).setFld F.CFL_BOOK_RECLAIM.CELLS 0 s.cfl.books.reclaim).setFld
      F.CFL_BOOK_SPILLING.CELLS 0 s.cfl.books.spilling :=
  if_pos (by simp [bit, Nat.testBit_zero, h])

/-- The five books as CFL_BOOK_SNAP shows them, each in its 21-bit field (R261, R281). -/
theorem completes_bookSnap {s : State} {v : BitVec 32} {b : Books} (hb : s.cfl.books = b) (hup : s.reachable 1 = true) (hv : v.toNat % 2 = 1)
    (hfree : b.free < 2 ^ 21) (hqueued : b.queued < 2 ^ 21) (hpipe : b.pipe < 2 ^ 21) (hreclaim : b.reclaim < 2 ^ 21)
    (hspilling : b.spilling < 2 ^ 21) : Completes (.bookSnap v) s (fun u =>
      u.fld F.CFL_BOOK_FREE.CELLS 0 = b.free ∧ u.fld F.CFL_BOOK_QUEUED.CELLS 0 = b.queued ∧ u.fld F.CFL_BOOK_PIPE.CELLS 0 = b.pipe
      ∧ u.fld F.CFL_BOOK_RECLAIM.CELLS 0 = b.reclaim ∧ u.fld F.CFL_BOOK_SPILLING.CELLS 0 = b.spilling
      ∧ OnlyRegs (s.putReply .ok) u [(.CFL_BOOK_FREE, 0), (.CFL_BOOK_QUEUED, 0), (.CFL_BOOK_PIPE, 0), (.CFL_BOOK_RECLAIM, 0),
          (.CFL_BOOK_SPILLING, 0)]) := by
  subst hb
  refine .of_eq (congrArg done ((s.atChip_reachable _ _ hup).trans (congrArg (·.answer .ok) (s.bookSnap_capturing hv)))) ?_
  simp only [State.fld_answer]
  refine ⟨?_, ?_, ?_, ?_, ?_, ?_⟩
  · iterate 4 rw [State.fld_setFld_reg_ne _ _ _ _ _ _ (by decide)]
    exact State.fld_setFld_eq _ _ _ _ (by decide) hfree
  · iterate 3 rw [State.fld_setFld_reg_ne _ _ _ _ _ _ (by decide)]
    exact State.fld_setFld_eq _ _ _ _ (by decide) hqueued
  · iterate 2 rw [State.fld_setFld_reg_ne _ _ _ _ _ _ (by decide)]
    exact State.fld_setFld_eq _ _ _ _ (by decide) hpipe
  · rw [State.fld_setFld_reg_ne _ _ _ _ _ _ (by decide)]
    exact State.fld_setFld_eq _ _ _ _ (by decide) hreclaim
  · exact State.fld_setFld_eq _ _ _ _ (by decide) hspilling
  · exact ((((((OnlyRegs.refl s _).setFld _ _ _ (by decide)).setFld _ _ _ (by decide)).setFld _ _ _ (by decide)).setFld _ _ _
      (by decide)).setFld _ _ _ (by decide)).answer .ok

theorem Books.land_eq {b : Books} {n : Nat} (h : n ≤ b.spilling) (h' : b.spilling ≤ b.queued) :
    b.land n = { b with queued := b.queued - n, spilling := b.spilling - n } := by
  rw [Books.land, Nat.min_eq_left (Nat.le_min.mpr ⟨h.trans h', h⟩)]

/-- The oldest spill lands: its queue's depth and the queued book drop, and its cells are in reclaim (R260). -/
theorem completes_spillDepthLand {s : State} {l : SpillLand} {rest : List SpillLand} (hlands : s.cfl.lands = l :: rest)
    (hspilling : l.chain.length ≤ s.cfl.books.spilling) (hqueued : s.cfl.books.spilling ≤ s.cfl.books.queued) :
    Completes .spillDepthLand s (fun u => u.cfl.lands = rest ∧ u.depth l.queue = s.depth l.queue - l.depth
      ∧ u.cfl.books = { s.cfl.books with queued := s.cfl.books.queued - l.chain.length, spilling := s.cfl.books.spilling - l.chain.length }
      ∧ u.cfl.rcl = s.cfl.rcl ++ l.chain ∧ (∀ q, q ≠ l.queue → u.depth q = s.depth q) ∧ u.cfl.queues = s.cfl.queues) := by
  obtain ⟨v, hv⟩ : ∃ v, v = s.putCfl { s.cfl with lands := rest, rcl := s.cfl.rcl ++ l.chain } := ⟨_, rfl⟩
  have hvdepth : ∀ q, v.depth q = s.depth q := fun q => by rw [hv]; rfl
  have he : exec .spillDepthLand s
      = done ((v.setDepth l.queue (s.depth l.queue - l.depth)).setBooks (s.cfl.books.land l.chain.length)) := by
    change execSpillDepthLand s = _
    rw [execSpillDepthLand, hlands, hv]
    rfl
  have hbooks := Books.land_eq hspilling hqueued
  have hcfl := v.cfl_setDepth l.queue (s.depth l.queue - l.depth)
  refine .of_eq he ⟨?_, ?_, hbooks, ?_, fun q hq => ?_, ?_⟩
  · rw [State.setBooks, State.putCfl_cfl, hcfl, hv]; rfl
  · exact State.depth_setDepth_same v (Nat.lt_of_le_of_lt (Nat.sub_le _ _) (s.depth_lt _))
  · rw [State.setBooks, State.putCfl_cfl, hcfl, hv]; rfl
  · exact (State.depth_setDepth_ne v _ hq).trans (hvdepth q)
  · rw [State.setBooks, State.putCfl_cfl, hcfl, hv]; rfl

/-- A missing number is retired as dropped while a later one waits (R265). -/
theorem completes_seqSkipTimeout {s : State} {i : Input} (hi : i ≠ .none) (hwait : (s.inputSt i).wait ≠ []) (hmissing : s.nextSlot i = none) :
    Completes (.seqSkipTimeout i) s (fun u =>
      u.inputSt i = { s.inputSt i with next := ((s.inputSt i).next + 1) % 65536 } ∧ RegsKept s u [(.CFL_SEQ_SKIP, 0)]
      ∧ (u.rd .CFL_SEQ_SKIP 0).toNat = Nat.min (2 ^ 32 - 1) ((s.rd .CFL_SEQ_SKIP 0).toNat + 1)
      ∧ u.cfl.frames = s.cfl.frames ∧ u.cfl.books = s.cfl.books) := by
  obtain ⟨v, hv⟩ : ∃ v, v = s.setInput i { s.inputSt i with next := ((s.inputSt i).next + 1) % 65536 } := ⟨_, rfl⟩
  have he : exec (.seqSkipTimeout i) s = done (v.satInc F.CFL_SEQ_SKIP.COUNT 0 1) := by
    change execSeqSkipTimeout i s = _
    rw [execSeqSkipTimeout, hv]
    exact if_pos (by simp [hi, hwait, hmissing])
  have hvregs : v.regs = s.regs := by rw [hv]; rfl
  have hcount := v.toNat_rd_satInc (f := F.CFL_SEQ_SKIP.COUNT) 0 ⟨rfl, rfl⟩
  have hvrd : v.rd .CFL_SEQ_SKIP 0 = s.rd .CFL_SEQ_SKIP 0 := by rw [State.rd, hvregs, State.rd]
  refine .of_eq he ⟨?_, ?_, ?_, ?_, ?_⟩
  · rw [State.inputSt_congr (s := v) (t := v.satInc F.CFL_SEQ_SKIP.COUNT 0 1) rfl, hv, State.inputSt_setInput]
  · exact ((RegsKept.refl s _).of_regs hvregs).setFld F.CFL_SEQ_SKIP.COUNT 0 _ (.head _)
  · exact hcount.trans (by rw [← hvrd]; rfl)
  · rw [State.satInc_cfl, hv]; rfl
  · rw [State.satInc_cfl, hv]; rfl

/-! ## Multicast groups (R276) -/

theorem typedWrite_groupW1 (v w : Word) : fieldOf (typedWrite .CFL_MC_GRP_W1 v w) 10 0 = v.toNat % 2 ^ 11 :=
  (fieldOf_typedWrite_rw .CFL_MC_GRP_W1 0 ⟨10, 0, .rw⟩ v w rfl (by decide) (by decide)).trans (fieldOf_low _ _)

theorem typedWrite_groupW0 (v w : Word) : fieldOf (typedWrite .CFL_MC_GRP_W0 v w) 19 0 = v.toNat % 2 ^ 20
    ∧ fieldOf (typedWrite .CFL_MC_GRP_W0 v w) 31 31 = v.toNat / 2 ^ 31 := by
  have hbase := fieldOf_typedWrite_rw .CFL_MC_GRP_W0 0 ⟨19, 0, .rw⟩ v w rfl (by decide) (by decide)
  have hvalid := fieldOf_typedWrite_rw .CFL_MC_GRP_W0 1 ⟨31, 31, .rw⟩ v w rfl (by decide) (by decide)
  have hv : v.toNat < 2 ^ 32 := v.isLt
  refine ⟨hbase.trans (fieldOf_low _ _), hvalid.trans ?_⟩
  have htop : v.toNat / 2 ^ 31 < 2 := by omega
  exact (fieldOf_eq _ _ _).trans (Nat.mod_eq_of_lt htop)

/-- The state after both words of a group have been committed (R276). -/
def State.groupCommitted (s : State) (g : Nat) (w v : Word) : State :=
  (((s.writeTyped .CFL_MC_GRP_W1 g w).setStage .CFL_MC_GRP_W1 g none).writeTyped .CFL_MC_GRP_W0 g v).setFld F.CFL_MC_SYNC.DONE 0 1

/-- A write of CFL_MC_GRP_W0 with word 1 staged commits both words, or counts, by the bounds of R276. -/
theorem State.groupCommit_staged {s : State} {g : Nat} {w : Word} (v : Word) (h : s.staged .CFL_MC_GRP_W1 g = some w) :
    s.groupCommit g v = if 1024 < w.toNat % 2 ^ 11 ∨ 1048576 < v.toNat % 2 ^ 20 + w.toNat % 2 ^ 11 then s.satInc F.CFL_MC_REJ.COUNT 0 1
      else s.groupCommitted g w v := by
  rw [State.groupCommit, h]
  dsimp only
  rw [fieldOf_low, fieldOf_low]
  rfl

theorem State.groupCommitted_effect (s : State) (g : Nat) (w v : Word) :
    (s.groupCommitted g w v).fld F.CFL_MC_GRP_W1.COUNT g = w.toNat % 2 ^ 11
    ∧ (s.groupCommitted g w v).fld F.CFL_MC_GRP_W0.BASE g = v.toNat % 2 ^ 20
    ∧ (s.groupCommitted g w v).fld F.CFL_MC_GRP_W0.VALID g = v.toNat / 2 ^ 31
    ∧ (s.groupCommitted g w v).staged .CFL_MC_GRP_W1 g = none ∧ (s.groupCommitted g w v).fld F.CFL_MC_SYNC.DONE 0 = 1
    ∧ RegsKept s (s.groupCommitted g w v) [(.CFL_MC_GRP_W0, g), (.CFL_MC_GRP_W1, g), (.CFL_MC_SYNC, 0)] := by
  obtain ⟨t, ht⟩ : ∃ t, t = (s.writeTyped .CFL_MC_GRP_W1 g w).setStage .CFL_MC_GRP_W1 g none := ⟨_, rfl⟩
  have hu : s.groupCommitted g w v = (t.writeTyped .CFL_MC_GRP_W0 g v).setFld F.CFL_MC_SYNC.DONE 0 1 := by rw [State.groupCommitted, ht]
  obtain ⟨hbase, hvalid⟩ := typedWrite_groupW0 v (t.rd .CFL_MC_GRP_W0 g)
  have hcount : t.fld F.CFL_MC_GRP_W1.COUNT g = w.toNat % 2 ^ 11 := by
    rw [ht]
    rw [State.fld_of_regs (State.setStage_regs _ _ _ _)]
    exact (s.fld_writeTyped F.CFL_MC_GRP_W1.COUNT g w).trans (typedWrite_groupW1 w _)
  have hstaged : t.staged .CFL_MC_GRP_W1 g = none := by rw [ht, State.staged_setStage]
  have hwords : RegsKept s t [(.CFL_MC_GRP_W0, g), (.CFL_MC_GRP_W1, g), (.CFL_MC_SYNC, 0)] := by
    rw [ht]
    exact ((RegsKept.refl s _).wr .CFL_MC_GRP_W1 g _ (.tail _ (.head _))).of_regs (State.setStage_regs _ _ _ _)
  rw [hu]
  refine ⟨?_, ?_, ?_, (State.staged_congr (by simp) _ _).trans hstaged, State.fld_setFld_eq _ _ _ _ (by decide) (by decide), ?_⟩
  · rw [State.fld_setFld_reg_ne _ _ _ _ _ _ (by decide), State.writeTyped, State.fld_wr_ne _ _ _ _ _ _ (.inl (by decide)), hcount]
  · rw [State.fld_setFld_reg_ne _ _ _ _ _ _ (by decide)]
    exact (t.fld_writeTyped F.CFL_MC_GRP_W0.BASE g v).trans hbase
  · rw [State.fld_setFld_reg_ne _ _ _ _ _ _ (by decide)]
    exact (t.fld_writeTyped F.CFL_MC_GRP_W0.VALID g v).trans hvalid
  · exact (hwords.wr .CFL_MC_GRP_W0 g _ (.head _)).setFld F.CFL_MC_SYNC.DONE 0 1 (.tail _ (.tail _ (.head _)))

theorem exec_mcGroupCommit {s : State} {g : BitVec 16} {v w : BitVec 32} (hup : s.reachable 1 = true)
    (hstaged : s.staged .CFL_MC_GRP_W1 g.toNat = some w) : exec (.mcGroupCommit g v) s
      = done ((if 1024 < w.toNat % 2 ^ 11 ∨ 1048576 < v.toNat % 2 ^ 20 + w.toNat % 2 ^ 11 then s.satInc F.CFL_MC_REJ.COUNT 0 1
        else s.groupCommitted g.toNat w v).answer .ok) :=
  congrArg done ((s.atChip_reachable _ _ hup).trans (congrArg (·.answer .ok) (State.groupCommit_staged v hstaged)))

/-- Settles O33: a clause for each book command (`completes_bookSnap`, `completes_spillDepthLand`), for a skipped number
(`completes_seqSkipTimeout`), and for a group's word 0 by the bounds of R276 (`State.groupCommitted_effect`). -/
theorem cellBooks : Obligations.CellBooks := by
  unfold Obligations.CellBooks
  intro s n v w g i b m snap x up
  refine ⟨.of_eq rfl ⟨rfl, rfl, rfl, rfl, rfl, rfl⟩, fun hup hv hfree hqueued hpipe hreclaim hspilling => ?_,
    fun l rest hlands _ hspilling hqueued => completes_spillDepthLand hlands hspilling hqueued,
    completes_seqSkipTimeout, fun hup => ?_, fun hup hstaged hcount hend => ?_, fun hup hstaged hbounds => ?_⟩
  · obtain ⟨u, he, hf, hq, hp, hr, hs, hwords⟩ := completes_bookSnap rfl hup hv hfree hqueued hpipe hreclaim hspilling
    have hsnap : ∀ y, (u.rd y 0).toNat % 2 ^ 21 = fieldOf (u.rd y 0) 20 0 := fun y => (fieldOf_low _ 20).symm
    exact ⟨u, he, (hsnap _).trans hf, (hsnap _).trans hq, (hsnap _).trans hp, (hsnap _).trans hr, (hsnap _).trans hs, hwords⟩
  · exact .of_eq (congrArg done (s.atChip_reachable _ _ hup)) ⟨(State.staged_answer _ _ _ _).trans (State.staged_setStage _ _ _ _), rfl⟩
  · have he := exec_mcGroupCommit (v := v) hup hstaged
    rw [if_neg (not_or.mpr ⟨Nat.not_lt.mpr hcount, Nat.not_lt.mpr hend⟩)] at he
    obtain ⟨hc, hbase, hvalid, hstage, hdone, hwords⟩ := s.groupCommitted_effect g.toNat w v
    have hregs := State.putReply_regs (s.groupCommitted g.toNat w v) .ok
    have hfld := fun f k => State.fld_of_regs hregs f k
    exact .of_eq he ⟨(hfld _ _).trans hc, (hfld _ _).trans hbase, (hfld _ _).trans hvalid, (State.staged_answer _ _ _ _).trans hstage,
      (hfld _ _).trans hdone, hwords.of_regs hregs⟩
  · have he := exec_mcGroupCommit (v := v) hup hstaged
    rw [if_pos hbounds] at he
    exact .of_eq he ⟨((OnlyRegs.refl s _).setFld _ _ _ (.head _)).answer .ok,
      s.toNat_rd_satInc (f := F.CFL_MC_REJ.COUNT) 0 ⟨rfl, rfl⟩⟩

end Sys2Proof.Machine
end

section
namespace Sys2Proof.Machine

/-! ## What the scheduler's conditions leave (R291, R295) -/

/-- Waking children writes tags of the scheduler alone (R295). -/
theorem State.foldl_wake (l : List SchChild) (s : State) : ∃ x, l.foldl State.wake s = s.putSch x := by
  induction l generalizing s with
  | nil => exact ⟨s.sch, rfl⟩
  | cons c l ih =>
    obtain ⟨x, hx⟩ : ∃ x, s.wake c = s.putSch x := by
      unfold State.wake
      dsimp only
      split
      · exact ⟨s.sch, rfl⟩
      · exact ⟨_, rfl⟩
    obtain ⟨y, hy⟩ := ih (s.wake c)
    exact ⟨y, by rw [List.foldl_cons, hy, hx]; rfl⟩

theorem State.settle_eq (s : State) : ∃ x, s.settle = s.putSch x := by
  obtain ⟨x, hx⟩ := State.foldl_wake (s.eligChildren.filter (fun c => !Tbl.get (fun _ => false) s.sch.awake c.key)) s
  rw [State.settle]
  dsimp only
  rw [hx]
  exact ⟨_, rfl⟩

/-- A command that ends with the scheduler's conditions brought up to date says what it does outside the scheduler. -/
theorem Completes.of_settle {i : Instr} {s t : State} {P : State → Prop} (he : exec i s = done t.settle) (h : ∀ x, P (t.putSch x)) :
    Completes i s P := by
  obtain ⟨x, hx⟩ := t.settle_eq
  exact .of_eq (he.trans (congrArg done hx)) (h x)

/-! ## What the parts of Confluence depend on -/

section
variable {s t : State}

theorem State.rd_of_regs (h : t.regs = s.regs) (r : Reg) (i : Nat) : t.rd r i = s.rd r i := by rw [State.rd, h, State.rd]

theorem State.frame_congr (h : t.cfl.frames = s.cfl.frames) (p : Nat) : t.frame p = s.frame p := by rw [State.frame, h, State.frame]

/-- The frame record at p where frames are those after a write of the record. -/
theorem State.frame_of_set {p : Nat} {g : Option FrameRec} (h : s.cfl.frames = (t.setFrame p g).cfl.frames) : s.frame p = g :=
  (State.frame_congr h p).trans (t.frame_setFrame p g)

theorem State.queue_congr (h : t.cfl.queues = s.cfl.queues) (q : Nat) : t.queue q = s.queue q := by rw [State.queue, h, State.queue]

theorem State.depth_congr (h : t.regs = s.regs) (q : Nat) : t.depth q = s.depth q := State.fld_of_regs h _ _

theorem State.profile_congr (h : t.regs = s.regs) (q : Nat) : t.profile q = s.profile q := State.fld_of_regs h _ _

theorem State.instResets_congr (h : t.regs = s.regs) (q : Nat) : t.instResets q = s.instResets q := by
  simp only [State.instResets, State.fld_of_regs h]

theorem State.admThreshold_congr (h : t.regs = s.regs) (hfree : t.cfl.books.free = s.cfl.books.free) (q colour : Nat) :
    t.admThreshold q colour = s.admThreshold q colour := by
  simp only [State.admThreshold, State.alpha, State.profile_congr h, State.fld_of_regs h, hfree]

/-- Admission looks at registers and the free book (R267). -/
theorem State.admits_congr (h : t.regs = s.regs) (hfree : t.cfl.books.free = s.cfl.books.free) (q n colour : Nat) :
    t.admits q n colour = s.admits q n colour := by
  simp only [State.admits, State.instResets_congr h, State.depth_congr h, State.profile_congr h, State.fld_of_regs h,
    State.admThreshold_congr h hfree]

/-- Whether spill may act depends on registers, the free book and the spill lists (R269). -/
theorem State.spillMay_congr (h : t.regs = s.regs) (hfree : t.cfl.books.free = s.cfl.books.free)
    (hlists : t.cfl.spillLists = s.cfl.spillLists) (q : Nat) : t.spillMay q = s.spillMay q := by
  simp only [State.spillMay, State.flag, State.spillHead, State.spillList, State.fld_of_regs h, hfree, hlists]

end

/-! ## Frames: references, ends and mirrors (R259, R275, R278) -/

theorem State.frame_of_handleFrame {s : State} {h : Word} {f : FrameRec} (hf : s.handleFrame h = some f) : s.frame (handleFirst h) = some f := by
  rw [State.handleFrame] at hf
  split at hf
  · split at hf
    case h_1 g hg =>
      split at hf
      · rw [hg, hf]
      · cases hf
    · cases hf
  · cases hf

section
variable {s : State} {p : Nat} {f : FrameRec}

theorem State.entryCells_of_frame {e : QEntry} (hf : s.frame e.first = some f) : s.entryCells e = f.cells := by rw [State.entryCells, hf]

theorem State.commitFrame_of_frame (hf : s.frame p = some f) (hc : f.committed = false) :
    s.commitFrame p = (s.setFrame p (some { f with committed := true })).setBooks (s.cfl.books.commit f.cells) := by
  rw [State.commitFrame, hf]
  dsimp only
  rw [hc]
  rfl

theorem State.addRef_of_frame (hf : s.frame p = some f) : s.addRef p = s.setFrame p (some { f with refs := f.refs + 1 }) := by
  rw [State.addRef, hf]

/-- A frame that came from no transmit ring has no descriptor to finish (R427). -/
theorem State.frameDone_ringless (hf : s.frame p = some f) (hdesc : f.desc = none) (code reason : Nat) : s.frameDone p code reason = s := by
  rw [State.frameDone, hf]
  dsimp only
  rw [hdesc]
  rfl

theorem State.reclaimFrame_ringless (hf : s.frame p = some f) (hdesc : f.desc = none) :
    s.reclaimFrame p = (s.setFrame p none).reclaimCells f.chain f.committed := by
  rw [State.reclaimFrame, hf]
  dsimp only
  rw [hdesc]
  rfl

/-- An input whose frames no session of Eddy mirrors at ingress (R278, R285). -/
def State.Unmirrored (s : State) (i : Input) : Prop := ∀ k, eddySource i = some k → s.fld F.EDY_SRC.ING_EN k = 0

theorem State.eddyIngress_unmirrored {i : Input} (h : s.Unmirrored i) (head len : Nat) (dropped : Bool) :
    s.eddyIngress i p head len dropped = s := by
  rw [State.eddyIngress]
  split
  · rfl
  case h_2 k hk =>
    have hoff : s.flag F.EDY_SRC.ING_EN k = false := by rw [State.flag, h k hk]; rfl
    dsimp only
    rw [hoff, Bool.false_and]
    split <;> rfl

theorem State.Unmirrored.of_regsKept {t : State} {i : Input} {l : List (Reg × Nat)} (h : s.Unmirrored i) (hwords : RegsKept s t l)
    (hl : ∀ k, (Reg.EDY_SRC, k) ∉ l) : t.Unmirrored i :=
  fun k hk => (hwords.fld F.EDY_SRC.ING_EN k (hl k)).trans (h k hk)

/-- A frame that no copy refers to is discarded: its record ends and its cells go to reclaim (R266). -/
theorem State.discardFrame_unmirrored {i : Input} (h : s.Unmirrored i) (hf : s.frame p = some f) (hrefs : f.refs = 0) (hdesc : f.desc = none)
    (head len : Nat) : s.discardFrame i p head len = (s.setFrame p none).reclaimCells f.chain f.committed := by
  rw [State.discardFrame, State.eddyIngress_unmirrored h, hf]
  dsimp only
  rw [if_pos hrefs, State.reclaimFrame_ringless hf hdesc]

end

/-! ## Refusals (R267) -/

/-- The state in which the refusal of a frame of queue q is counted: in its profile, and in CFL_QADM.INSTANCE if the queue has one (R267). -/
def State.refusalCounted (s : State) (q : Nat) : State :=
  let n := s.fld F.CFL_QADM.INSTANCE q
  let s := s.satInc F.CFL_PROF_W3.DROPS (s.profile q) 1
  if n = 0xFFFF then s
  else s.wr64 .INS_ADM_DROPS .INS_ADM_DROPS_HI n ((s.rd64 .INS_ADM_DROPS .INS_ADM_DROPS_HI n + 1) % 2 ^ 64)

theorem State.refuse_eq (s : State) (q : Nat) : s.refuse q = (s.refusalCounted q).putCfl { (s.refusalCounted q).cfl with
    admRefused := (s.refusalCounted q).cfl.admRefused || decide (524288 < (s.refusalCounted q).cfl.books.free) } := rfl

theorem State.cfl_refusalCounted (s : State) (q : Nat) : (s.refusalCounted q).cfl = s.cfl := by
  unfold State.refusalCounted
  dsimp only
  split
  · exact State.satInc_cfl _ _ _ _
  · rw [State.wr64_cfl, State.satInc_cfl]

/-- Of Confluence a refusal changes only what it notes for the policy (R268). -/
theorem State.cfl_refuse (s : State) (q : Nat) : ∃ b, (s.refuse q).cfl = { s.cfl with admRefused := b } :=
  ⟨_, by rw [State.refuse_eq, State.putCfl_cfl, State.cfl_refusalCounted]⟩

theorem State.regs_refuse (s : State) (q : Nat) : RegsKept (s.satInc F.CFL_PROF_W3.DROPS (s.profile q) 1) (s.refuse q)
    [(.INS_ADM_DROPS, s.fld F.CFL_QADM.INSTANCE q), (.INS_ADM_DROPS_HI, s.fld F.CFL_QADM.INSTANCE q)] := by
  refine RegsKept.of_regs (t := s.refusalCounted q) ?_ (State.putCfl_regs _ _)
  unfold State.refusalCounted
  dsimp only
  split
  · exact .refl _ _
  · rw [State.wr64]
    exact ((RegsKept.refl _ _).wr .INS_ADM_DROPS _ _ (.head _)).wr .INS_ADM_DROPS_HI _ _ (.tail _ (.head _))

theorem State.regsKept_refuse (s : State) (q : Nat) : RegsKept s (s.refuse q) [(.CFL_PROF_W3, s.profile q),
    (.INS_ADM_DROPS, s.fld F.CFL_QADM.INSTANCE q), (.INS_ADM_DROPS_HI, s.fld F.CFL_QADM.INSTANCE q)] :=
  ((RegsKept.refl s _).setFld F.CFL_PROF_W3.DROPS _ _ (.head _)).trans fun r i hr => s.regs_refuse q r i fun hm => hr (.tail _ hm)

/-- A refusal counts against the profile (R267). -/
theorem State.drops_refuse (s : State) (q : Nat) : ((s.refuse q).rd .CFL_PROF_W3 (s.profile q)).toNat
    = Nat.min (2 ^ 32 - 1) ((s.rd .CFL_PROF_W3 (s.profile q)).toNat + 1) := by
  rw [s.regs_refuse q .CFL_PROF_W3 (s.profile q) (by simp)]
  exact s.toNat_rd_satInc (f := F.CFL_PROF_W3.DROPS) _ ⟨rfl, rfl⟩

theorem State.admitOrSpill_admitted {s : State} {q n colour : Nat} (hreset : s.instResets q = false) (h : s.admits q n colour = true) :
    s.admitOrSpill q n colour = (true, s) := by
  rw [State.admitOrSpill, hreset, h]
  rfl

theorem State.admitOrSpill_refused {s : State} {q n colour : Nat} (hreset : s.instResets q = false) (h : s.admits q n colour = false)
    (hspill : s.spillMay q = false) : s.admitOrSpill q n colour = (false, s.refuse q) := by
  rw [State.admitOrSpill, hreset, h, hspill]
  rfl

end Sys2Proof.Machine
end

section
namespace Sys2Proof.Machine

/-! ## Trimming and committing a frame (R259, R266) -/

/-- A frame of n cells is trimmed at its tail alone: HEAD lies in the first cell of its chain, and its last byte in the n-th. -/
structure FrameRec.TrimsTo (f : FrameRec) (p head len n : Nat) : Prop where
  inFirst : head < 256
  nonempty : 0 < len
  cells : (head + len - 1) / 256 + 1 = n
  fits : n ≤ f.cells
  first : f.chain.headD p = p
  nodup : f.chain.Nodup

/-- A frame record whose chain has been cut to its first n cells at an instant (R266, R310). -/
def FrameRec.cutTo (f : FrameRec) (n now : Nat) : FrameRec := { f with chain := f.chain.take n, base := 0, stamp := now }

theorem FrameRec.cells_cutTo (f : FrameRec) {n : Nat} (h : n ≤ f.cells) (now : Nat) : (f.cutTo n now).cells = n :=
  (List.length_take ..).trans (Nat.min_eq_left h)

/-- From s to u the frame at p, with record f, has been cut to its first n cells; the others are in reclaim (R266). -/
structure Trimmed (s : State) (p : Nat) (f : FrameRec) (n : Nat) (u : State) : Prop where
  frame : ∃ now, u.frame p = some (f.cutTo n now)
  cfl : u.cfl = { s.cfl with frames := u.cfl.frames, rcl := s.cfl.rcl ++ f.chain.drop n
                             books := s.cfl.books.pipeToReclaim (f.cells - n) }
  regs : u.regs = s.regs

/-- From s to u the frame at p, with record f, has been cut to n cells and committed, and one copy refers to it (R259, R266, R275). -/
structure Held (s : State) (p : Nat) (f : FrameRec) (n : Nat) (u : State) : Prop where
  frame : ∃ g, u.frame p = some g ∧ g.refs = 1 ∧ g.committed = true ∧ g.bytes = f.bytes ∧ g.chain = f.chain.take n
  cfl : u.cfl = { s.cfl with
      frames := u.cfl.frames, rcl := s.cfl.rcl ++ f.chain.drop n
      books := { s.cfl.books with pipe := s.cfl.books.pipe - f.cells, queued := s.cfl.books.queued + n
                                  reclaim := s.cfl.books.reclaim + (f.cells - n) } }
  regs : u.regs = s.regs

theorem Books.pipeToReclaim_eq {b : Books} {n : Nat} (h : n ≤ b.pipe) :
    b.pipeToReclaim n = { b with pipe := b.pipe - n, reclaim := b.reclaim + n } := by
  rw [Books.pipeToReclaim, Nat.min_eq_left h]

theorem Books.commit_eq {b : Books} {n : Nat} (h : n ≤ b.pipe) : b.commit n = { b with pipe := b.pipe - n, queued := b.queued + n } := by
  rw [Books.commit, Nat.min_eq_left h]

/-- Reclaiming the cells of a frame in two steps is reclaiming them at once (R259). -/
theorem Books.pipeToReclaim_add {b : Books} {m n : Nat} (h : m + n ≤ b.pipe) :
    (b.pipeToReclaim m).pipeToReclaim n = { b with pipe := b.pipe - (m + n), reclaim := b.reclaim + (m + n) } := by
  have hrest : n ≤ b.pipe - m := by omega
  rw [Books.pipeToReclaim_eq (show m ≤ b.pipe by omega), Books.pipeToReclaim_eq hrest, Nat.sub_sub, Nat.add_assoc]

section
variable {s u : State} {p head len n : Nat} {f : FrameRec}

theorem FrameRec.TrimsTo.pos (h : f.TrimsTo p head len n) : 0 < n := h.cells ▸ Nat.succ_pos _

/-- The cells that a trim keeps (R266). -/
theorem FrameRec.TrimsTo.kept (h : f.TrimsTo p head len n) :
    head / 256 = 0 ∧ (f.chain.drop (head / 256)).take (trimCells head len) = f.chain.take n := by
  have hzero : head / 256 = 0 := Nat.div_eq_of_lt h.inFirst
  refine ⟨hzero, ?_⟩
  rw [trimCells, if_neg (Nat.pos_iff_ne_zero.mp h.nonempty), hzero, Nat.sub_zero, h.cells, List.drop_zero]

theorem FrameRec.TrimsTo.headD_take (h : f.TrimsTo p head len n) : (f.chain.take n).headD p = p := by
  obtain ⟨m, rfl⟩ : ∃ m, n = m + 1 := ⟨n - 1, (Nat.succ_pred_eq_of_pos h.pos).symm⟩
  cases hchain : f.chain with
  | nil => rfl
  | cons c l =>
    have hfirst := h.first
    rwa [hchain] at hfirst

/-- A trim that keeps the first cell keeps the frame record there (R266). -/
theorem State.trim_trims (hf : s.frame p = some f) (h : f.TrimsTo p head len n) :
    ∃ u, s.trim p head len = (p, u) ∧ Trimmed s p f n u := by
  obtain ⟨hzero, hkept⟩ := h.kept
  obtain ⟨v, hv⟩ : ∃ v, v = (s.setFrame p none).reclaimCells (f.chain.drop n) false := ⟨_, rfl⟩
  refine ⟨v.setFrame p (some (f.cutTo n (v.replica 1 / 16 % 2 ^ 32))), ?_, ⟨_, State.frame_setFrame _ _ _⟩, ?_, ?_⟩
  · rw [State.trim, hf]
    dsimp only
    rw [hkept, filter_not_mem_take h.nodup, hzero, if_pos h.headD_take, ← hv]
    rfl
  · rw [hv, FrameRec.cells, ← List.length_drop]
    rfl
  · rw [hv]
    rfl

/-- The frame of a trim is committed with its first reference (R259, R275). -/
theorem Trimmed.held (h : Trimmed s p f n u) (hrefs : f.refs = 0) (hcommitted : f.committed = false) (hpipe : f.cells ≤ s.cfl.books.pipe)
    (hfits : n ≤ f.cells) : Held s p f n ((u.commitFrame p).addRef p) := by
  obtain ⟨⟨now, hframe⟩, hcfl, hregs⟩ := h
  have hbooks : u.cfl.books.commit n = { s.cfl.books with
      pipe := s.cfl.books.pipe - f.cells, queued := s.cfl.books.queued + n, reclaim := s.cfl.books.reclaim + (f.cells - n) } := by
    rw [hcfl, Books.pipeToReclaim_eq (show f.cells - n ≤ s.cfl.books.pipe by omega),
      Books.commit_eq (show n ≤ s.cfl.books.pipe - (f.cells - n) by omega), Nat.sub_sub, Nat.sub_add_cancel hfits]
  have hset : ∀ (t : State) (g : FrameRec) (b : Books), ((t.setFrame p (some g)).setBooks b).frame p = some g := fun t g b =>
    State.frame_of_set (t := t) rfl
  rw [State.commitFrame_of_frame hframe hcommitted, f.cells_cutTo hfits, hbooks, State.addRef_of_frame (hset _ _ _)]
  refine ⟨⟨_, State.frame_setFrame _ _ _, ?_, rfl, rfl, rfl⟩, ?_, hregs⟩
  · exact congrArg (· + 1) hrefs
  · simp only [State.setFrame, State.setBooks, State.putCfl_cfl]
    rw [hcfl]

theorem Trimmed.entryCells (h : Trimmed s p f n u) (hfits : n ≤ f.cells) {e : QEntry} (he : e.first = p) : u.entryCells e = n := by
  obtain ⟨now, hframe⟩ := h.frame
  exact (State.entryCells_of_frame (by rw [he]; exact hframe)).trans (f.cells_cutTo hfits now)

theorem Held.queue (h : Held s p f n u) (q : Nat) : u.queue q = s.queue q := State.queue_congr (by rw [h.cfl]) q

theorem Held.depth (h : Held s p f n u) (q : Nat) : u.depth q = s.depth q := State.depth_congr h.regs q

end

end Sys2Proof.Machine
end

section
namespace Sys2Proof.Machine

/-! ## The commit of an input's next number (R263, R266) -/

/-- The number that a plain input retires next waits there alone, without a credit, and names a live frame: not committed, without copies
and not from a transmit ring. -/
structure State.CommitsNext (s : State) (i : Input) (c : CommitSlot) (f : FrameRec) : Prop where
  input : i ≠ .none
  unattached : ∀ a, i ≠ .attach a
  unmirrored : s.Unmirrored i
  wait : (s.inputSt i).wait = [c]
  turn : c.seq = (s.inputSt i).next
  creditless : c.th = none
  frame : s.handleFrame c.handle = some f
  copyless : f.refs = 0
  uncommitted : f.committed = false
  ringless : f.desc = none

/-- The state in which an input has retired its next number, the only one there (R263). -/
def State.nextRetired (s : State) (i : Input) : State :=
  s.setInput i { s.inputSt i with next := ((s.inputSt i).next + 1) % 65536, wait := [] }

theorem State.inputSt_nextRetired {s t : State} {i : Input} (h : t.cfl.inputs = (s.nextRetired i).cfl.inputs) :
    t.inputSt i = { s.inputSt i with next := ((s.inputSt i).next + 1) % 65536, wait := [] } :=
  (State.inputSt_congr h i).trans (State.inputSt_setInput _ _ _)

theorem State.retireCredit_unattached (s : State) {i : Input} (h : ∀ a, i ≠ .attach a) : s.retireCredit i = s := by
  cases i with
  | attach a => exact absurd rfl (h a)
  | _ => rfl

theorem State.dropCount_unattached (s : State) {i : Input} (h : ∀ a, i ≠ .attach a) (reason : Nat) : s.dropCount i reason =
    s.putCfl { s.cfl with reasons := Tbl.set (fun _ => 0) s.cfl.reasons reason (Tbl.get (fun _ => 0) s.cfl.reasons reason + 1) } := by
  cases i with
  | attach a => exact absurd rfl (h a)
  | _ => rfl

theorem State.slotCredit_creditless (s : State) {c : CommitSlot} (h : c.th = none) : s.slotCredit c = s := by rw [State.slotCredit, h]

section
variable {s : State} {i : Input} {c : CommitSlot} {f : FrameRec}

theorem State.CommitsNext.nextSlot (h : s.CommitsNext i c f) : s.nextSlot i = some c := by
  rw [State.nextSlot, if_neg (by simpa using h.input), h.wait]
  exact List.find?_cons_of_pos (beq_iff_eq.mpr h.turn)

theorem State.CommitsNext.exec_enqueueCommit (h : s.CommitsNext i c f) :
    exec (.enqueueCommit i) s = done ((s.nextRetired i).commitSlot i c).settle := by
  have hcommit : s.commitNext i = (s.nextRetired i).commitSlot i c := by
    rw [State.commitNext, h.nextSlot]
    dsimp only
    rw [if_neg (by simpa using h.input), h.wait, List.erase_cons_head]
    rfl
  change done (s.commitNext i).settle = _
  rw [hcommit]

theorem State.CommitsNext.handleFrame_nextRetired (h : s.CommitsNext i c f) : (s.nextRetired i).handleFrame c.handle = some f := h.frame

theorem State.CommitsNext.frame_nextRetired (h : s.CommitsNext i c f) : (s.nextRetired i).frame (handleFirst c.handle) = some f :=
  State.frame_of_handleFrame h.frame

/-- A DROP counts its reason, and the frame's cells go to reclaim (R132, R266). -/
theorem State.CommitsNext.commitSlot_drop (h : s.CommitsNext i c f) {r : BitVec 8} (hkind : c.kind = .drop r) :
    ∃ g, (s.nextRetired i).commitSlot i c = ((((s.nextRetired i).dropCount i r.toNat).setFrame (handleFirst c.handle) (some g)).setFrame
      (handleFirst c.handle) none).reclaimCells f.chain false := by
  obtain ⟨v, hv⟩ : ∃ v, v = (s.nextRetired i).dropCount i r.toNat := ⟨_, rfl⟩
  have hframes : v.cfl.frames = s.cfl.frames := by rw [hv, State.dropCount_unattached _ h.unattached]; rfl
  have hregs : v.regs = s.regs := by rw [hv, State.dropCount_unattached _ h.unattached]; rfl
  have hhandle : v.handleFrame c.handle = some f := by
    simp only [State.handleFrame, State.frame_congr hframes]
    exact h.frame
  obtain ⟨g, hg⟩ : ∃ g, g = { f with stamp := v.replica 1 / 16 % 2 ^ 32 } := ⟨_, rfl⟩
  have hgdesc : g.desc = none := by rw [hg]; exact h.ringless
  have hgrefs : g.refs = 0 := by rw [hg]; exact h.copyless
  have hstamp : v.stampFrame (handleFirst c.handle) = v.setFrame (handleFirst c.handle) (some g) := by
    rw [State.stampFrame, State.frame_of_handleFrame hhandle, hg]
  have hgframe := v.frame_setFrame (handleFirst c.handle) (some g)
  have hmirror : (v.setFrame (handleFirst c.handle) (some g)).Unmirrored i :=
    h.unmirrored.of_regsKept (l := []) ((RegsKept.refl s []).of_regs hregs) fun _ => by simp
  refine ⟨g, ?_⟩
  rw [State.commitSlot, hkind]
  dsimp only
  rw [← hv, hhandle]
  dsimp only
  rw [hstamp, State.frameDone_ringless hgframe hgdesc, State.discardFrame_unmirrored hmirror hgframe hgrefs hgdesc,
    State.retireCredit_unattached _ h.unattached, State.slotCredit_creditless _ h.creditless]
  rw [hg, h.uncommitted]

theorem completes_enqueueCommit_drop (h : s.CommitsNext i c f) {r : BitVec 8} (hkind : c.kind = .drop r) (hpipe : f.cells ≤ s.cfl.books.pipe) :
    Completes (.enqueueCommit i) s (fun u =>
      u.inputSt i = { s.inputSt i with next := ((s.inputSt i).next + 1) % 65536, wait := [] } ∧ u.frame (handleFirst c.handle) = none
      ∧ u.cfl.books = { s.cfl.books with pipe := s.cfl.books.pipe - f.cells, reclaim := s.cfl.books.reclaim + f.cells }
      ∧ u.cfl.queues = s.cfl.queues
      ∧ Tbl.get (fun _ => 0) u.cfl.reasons r.toNat = Tbl.get (fun _ => 0) s.cfl.reasons r.toNat + 1) := by
  obtain ⟨g, hdrop⟩ := h.commitSlot_drop hkind
  obtain ⟨v, hv⟩ : ∃ v, v = (s.nextRetired i).dropCount i r.toNat := ⟨_, rfl⟩
  have hcfl : v.cfl = { (s.nextRetired i).cfl with
      reasons := Tbl.set (fun _ => 0) s.cfl.reasons r.toNat (Tbl.get (fun _ => 0) s.cfl.reasons r.toNat + 1) } := by
    rw [hv, State.dropCount_unattached _ h.unattached]; rfl
  obtain ⟨w, hw⟩ : ∃ w, w = v.setFrame (handleFirst c.handle) (some g) := ⟨_, rfl⟩
  have hwcfl : w.cfl = { v.cfl with frames := w.cfl.frames } := by rw [hw]; rfl
  have he := h.exec_enqueueCommit
  rw [hdrop, ← hv, ← hw] at he
  refine .of_settle he fun x => ⟨State.inputSt_nextRetired ?_, ?_, ?_, ?_, ?_⟩
  · change w.cfl.inputs = _
    rw [hwcfl, hcfl]
  · exact State.frame_of_set (t := w) (p := handleFirst c.handle) rfl
  · change w.cfl.books.pipeToReclaim _ = _
    rw [hwcfl, hcfl]
    exact Books.pipeToReclaim_eq hpipe
  · change w.cfl.queues = _
    rw [hwcfl, hcfl]
    rfl
  · change Tbl.get _ w.cfl.reasons _ = _
    rw [show w.cfl.reasons = Tbl.set (fun _ => 0) s.cfl.reasons r.toNat _ by rw [hwcfl, hcfl], Tbl.get_set_same]

/-! ### ENQ and ENQM -/

theorem State.CommitsNext.unmirrored_of {t : State} {l : List (Reg × Nat)} (h : s.CommitsNext i c f) (hwords : RegsKept (s.nextRetired i) t l)
    (hl : ∀ k, (Reg.EDY_SRC, k) ∉ l) : t.Unmirrored i :=
  State.Unmirrored.of_regsKept (s := s.nextRetired i) h.unmirrored hwords hl

/-- The commit of an ENQ or ENQM is the commit of its frame: neither a credit nor an attach link has a part in it. -/
theorem State.CommitsNext.commitSlot_enq (h : s.CommitsNext i c f) {w : Word} (hkind : c.kind = .enq w) :
    (s.nextRetired i).commitSlot i c = (s.nextRetired i).commitEnq i (handleFirst c.handle) w c.fword := by
  rw [State.commitSlot, hkind]
  dsimp only
  rw [h.handleFrame_nextRetired]
  dsimp only
  rw [State.retireCredit_unattached _ h.unattached, State.slotCredit_creditless _ h.creditless]

theorem State.CommitsNext.commitSlot_enqm (h : s.CommitsNext i c f) {g : BitVec 16} (hkind : c.kind = .enqm g) :
    (s.nextRetired i).commitSlot i c = (s.nextRetired i).commitEnqm i (handleFirst c.handle) g c.fword := by
  rw [State.commitSlot, hkind]
  dsimp only
  rw [h.handleFrame_nextRetired]
  dsimp only
  rw [State.retireCredit_unattached _ h.unattached, State.slotCredit_creditless _ h.creditless]

section
variable {w fword : Word} {u : State} {p head len n q : Nat}

/-- An admitted ENQ: the frame is committed, and joins its queue with its first reference (R266). -/
theorem State.commitEnq_admitted (hhead : fieldOf fword 31 16 = head) (hlen : fieldOf fword 15 0 = len) (hq : fieldOf w 19 0 = q)
    (hmirror : bit w.toNat 22 = false) (htrim : s.trim p head len = (p, u))
    (hcells : u.entryCells { first := p, head := head, len := len, prep := 0, eddy := false } = n) (hreset : u.instResets q = false)
    (hadmits : u.admits q n (fieldOf w 21 20) = true) : s.commitEnq i p w fword
      = (((u.commitFrame p).addRef p).enqueue q { first := p, head := head, len := len, prep := 0, eddy := false } n).eddyIngress i p
          head len false := by
  rw [State.commitEnq]
  dsimp only
  rw [hhead, hlen, hq, htrim]
  dsimp only
  rw [hcells, State.admitOrSpill_admitted hreset hadmits, hmirror]
  rfl

/-- An ENQ that is refused, where no spill may act (R266, R267). -/
theorem State.commitEnq_refused (hhead : fieldOf fword 31 16 = head) (hlen : fieldOf fword 15 0 = len) (hq : fieldOf w 19 0 = q)
    (htrim : s.trim p head len = (p, u))
    (hcells : u.entryCells { first := p, head := head, len := len, prep := 0, eddy := false } = n) (hreset : u.instResets q = false)
    (hadmits : u.admits q n (fieldOf w 21 20) = false) (hspill : u.spillMay q = false) : s.commitEnq i p w fword
      = ((u.refuse q).frameDone p dcDropped 0xFF).discardFrame i p head len := by
  rw [State.commitEnq]
  dsimp only
  rw [hhead, hlen, hq, htrim]
  dsimp only
  rw [hcells, State.admitOrSpill_refused hreset hadmits hspill]
  rfl

/-- ENQM: the frame is committed, and the replication engine holds it (R266, R274). -/
theorem State.commitEnqm_held {g : BitVec 16} (hhead : fieldOf fword 31 16 = head) (hlen : fieldOf fword 15 0 = len)
    (htrim : s.trim p head len = (p, u)) {v : State} (hv : (u.commitFrame p).addRef p = v) : s.commitEnqm i p g fword
      = (v.putCfl { v.cfl with repl := v.cfl.repl ++ [{ first := p, group := g, head := head, len := len, input := i }] }).eddyIngress i p
          head len false := by
  rw [State.commitEnqm]
  dsimp only
  rw [hhead, hlen, htrim]
  dsimp only
  rw [hv]

end

/-- HEAD and LENGTH of the frame word of an enqueue (R132). -/
theorem fieldOf_frameWord (x : Word) : fieldOf x 31 16 = x.toNat / 2 ^ 16 ∧ fieldOf x 15 0 = x.toNat % 2 ^ 16 :=
  ⟨(fieldOf_halves x).2.1, (fieldOf_halves x).1⟩

theorem bit_eq_false {n k : Nat} (h : n / 2 ^ k % 2 = 0) : bit n k = false := by
  rw [bit, Nat.testBit_eq_decide_div_mod_eq, h]
  rfl

theorem fieldOf_colour (w : Word) : fieldOf w 21 20 = w.toNat / 2 ^ 20 % 4 := fieldOf_eq w 21 20

section
variable {w : Word} {n q : Nat}

theorem completes_enqueueCommit_admitted (h : s.CommitsNext i c f) (hkind : c.kind = .enq w)
    (htrims : f.TrimsTo (handleFirst c.handle) (c.fword.toNat / 2 ^ 16) (c.fword.toNat % 2 ^ 16) n) (hpipe : f.cells ≤ s.cfl.books.pipe)
    (hq : w.toNat % 2 ^ 20 = q) (hmirror : w.toNat / 2 ^ 22 % 2 = 0) (hreset : s.instResets q = false)
    (hadmits : s.admits q n (w.toNat / 2 ^ 20 % 4) = true) (hdepth : s.depth q + n < 2 ^ 21) {e : QEntry}
    (hentry : e = { first := handleFirst c.handle, head := c.fword.toNat / 2 ^ 16, len := c.fword.toNat % 2 ^ 16, prep := 0, eddy := false }) :
    Completes (.enqueueCommit i) s (fun u =>
      u.inputSt i = { s.inputSt i with next := ((s.inputSt i).next + 1) % 65536, wait := [] }
      ∧ u.queue q = s.queue q ++ [e] ∧ u.depth q = s.depth q + n
      ∧ u.cfl.books = { s.cfl.books with pipe := s.cfl.books.pipe - f.cells, queued := s.cfl.books.queued + n
                                         reclaim := s.cfl.books.reclaim + (f.cells - n) }
      ∧ u.cfl.rcl = s.cfl.rcl ++ f.chain.drop n
      ∧ (∃ g, u.frame (handleFirst c.handle) = some g ∧ g.refs = 1 ∧ g.committed = true ∧ g.bytes = f.bytes ∧ g.chain = f.chain.take n)
      ∧ ∀ y, y ≠ q → u.queue y = s.queue y ∧ u.depth y = s.depth y) := by
  obtain ⟨hhead, hlen⟩ := fieldOf_frameWord c.fword
  obtain ⟨u, htrim, htrimmed⟩ := State.trim_trims h.frame_nextRetired htrims
  have hregs : u.regs = s.regs := htrimmed.regs
  have hfree : u.cfl.books.free = s.cfl.books.free := by rw [htrimmed.cfl]; rfl
  have hcommit := State.commitEnq_admitted (i := i) hhead hlen ((fieldOf_low w 19).trans hq) (bit_eq_false hmirror) htrim
    (htrimmed.entryCells htrims.fits rfl) ((State.instResets_congr hregs q).trans hreset)
    ((State.admits_congr hregs hfree q n _).trans (by rw [fieldOf_colour]; exact hadmits))
  have hheld := htrimmed.held h.copyless h.uncommitted hpipe htrims.fits
  obtain ⟨v, hv⟩ : ∃ v, v = (u.commitFrame (handleFirst c.handle)).addRef (handleFirst c.handle) := ⟨_, rfl⟩
  rw [← hv, ← hentry] at hcommit
  rw [← hv] at hheld
  have hwords := ((RegsKept.refl (s.nextRetired i) _).of_regs hheld.regs).trans (v.regsKept_enqueue q e n)
  rw [State.eddyIngress_unmirrored (h.unmirrored_of hwords (by simp))] at hcommit
  have he := h.exec_enqueueCommit
  rw [h.commitSlot_enq hkind, hcommit] at he
  have hqueue : ∀ y, v.queue y = s.queue y := hheld.queue
  have hdepths : ∀ y, v.depth y = s.depth y := hheld.depth
  have hcfl := v.cfl_enqueue q e n
  obtain ⟨g, hg, hfacts⟩ := hheld.frame
  refine .of_settle he fun x => ⟨State.inputSt_nextRetired ?_, ?_, ?_, ?_, ?_, ⟨g, ?_, hfacts⟩, fun y hy => ⟨?_, ?_⟩⟩
  · rw [State.putSch_cfl, hcfl, hheld.cfl]
  · exact (v.queue_enqueue_same q _ n).trans (by rw [hqueue])
  · exact (v.depth_enqueue_same _ (by rw [hdepths]; exact hdepth)).trans (by rw [hdepths])
  · rw [State.putSch_cfl, hcfl, hheld.cfl]
    rfl
  · rw [State.putSch_cfl, hcfl, hheld.cfl]
    rfl
  · exact (State.frame_congr (by rw [State.putSch_cfl, hcfl]) _).trans hg
  · exact (v.queue_enqueue_ne _ n hy).trans (hqueue y)
  · exact (v.depth_enqueue_ne _ n hy).trans (hdepths y)

theorem completes_enqueueCommit_refused (h : s.CommitsNext i c f) (hkind : c.kind = .enq w)
    (htrims : f.TrimsTo (handleFirst c.handle) (c.fword.toNat / 2 ^ 16) (c.fword.toNat % 2 ^ 16) n) (hpipe : f.cells ≤ s.cfl.books.pipe)
    (hq : w.toNat % 2 ^ 20 = q) (hreset : s.instResets q = false) (hadmits : s.admits q n (w.toNat / 2 ^ 20 % 4) = false)
    (hspill : s.spillMay q = false) : Completes (.enqueueCommit i) s (fun u =>
      u.inputSt i = { s.inputSt i with next := ((s.inputSt i).next + 1) % 65536, wait := [] } ∧ u.cfl.queues = s.cfl.queues
      ∧ u.frame (handleFirst c.handle) = none
      ∧ u.cfl.books = { s.cfl.books with pipe := s.cfl.books.pipe - f.cells, reclaim := s.cfl.books.reclaim + f.cells }
      ∧ (u.rd .CFL_PROF_W3 (s.profile q)).toNat = Nat.min (2 ^ 32 - 1) ((s.rd .CFL_PROF_W3 (s.profile q)).toNat + 1)) := by
  obtain ⟨hhead, hlen⟩ := fieldOf_frameWord c.fword
  obtain ⟨u, htrim, htrimmed⟩ := State.trim_trims h.frame_nextRetired htrims
  obtain ⟨now, hnow⟩ := htrimmed.frame
  have hregs : u.regs = s.regs := htrimmed.regs
  have hfree : u.cfl.books.free = s.cfl.books.free := by rw [htrimmed.cfl]; rfl
  have hlists : u.cfl.spillLists = s.cfl.spillLists := by rw [htrimmed.cfl]; rfl
  have hcommit := State.commitEnq_refused (i := i) hhead hlen ((fieldOf_low w 19).trans hq) htrim
    (htrimmed.entryCells htrims.fits rfl) ((State.instResets_congr hregs q).trans hreset)
    ((State.admits_congr hregs hfree q n _).trans (by rw [fieldOf_colour]; exact hadmits))
    ((State.spillMay_congr hregs hfree hlists q).trans hspill)
  obtain ⟨v, hv⟩ : ∃ v, v = u.refuse q := ⟨_, rfl⟩
  obtain ⟨b, hcfl⟩ := u.cfl_refuse q
  have hwords := u.regsKept_refuse q
  have hcount := u.drops_refuse q
  rw [← hv] at hcommit hcfl hwords hcount
  rw [State.profile_congr hregs, State.rd_of_regs hregs] at hcount
  have hframe : v.frame (handleFirst c.handle) = some (f.cutTo n now) := (State.frame_congr (by rw [hcfl]) _).trans hnow
  have hunmirrored := h.unmirrored_of (((RegsKept.refl (s.nextRetired i) _).of_regs htrimmed.regs).trans hwords) (by simp)
  rw [State.frameDone_ringless hframe h.ringless, State.discardFrame_unmirrored hunmirrored hframe h.copyless h.ringless,
    show (f.cutTo n now).committed = false from h.uncommitted] at hcommit
  have he := h.exec_enqueueCommit
  rw [h.commitSlot_enq hkind, hcommit] at he
  have hsum : f.cells - n + n = f.cells := Nat.sub_add_cancel htrims.fits
  have hbooks := Books.pipeToReclaim_add (b := s.cfl.books) (hsum.trans_le hpipe)
  rw [hsum] at hbooks
  refine .of_settle he fun x => ⟨State.inputSt_nextRetired ?_, ?_, State.frame_of_set (t := v) rfl, ?_, hcount⟩
  · change v.cfl.inputs = _
    rw [hcfl, htrimmed.cfl]
  · change v.cfl.queues = _
    rw [hcfl, htrimmed.cfl]
    rfl
  · change v.cfl.books.pipeToReclaim (f.cutTo n now).cells = _
    rw [f.cells_cutTo htrims.fits, hcfl, htrimmed.cfl]
    exact hbooks

theorem completes_enqueueCommit_enqm (h : s.CommitsNext i c f) {g : BitVec 16} (hkind : c.kind = .enqm g)
    (htrims : f.TrimsTo (handleFirst c.handle) (c.fword.toNat / 2 ^ 16) (c.fword.toNat % 2 ^ 16) n) (hpipe : f.cells ≤ s.cfl.books.pipe) :
    Completes (.enqueueCommit i) s (fun u =>
      u.inputSt i = { s.inputSt i with next := ((s.inputSt i).next + 1) % 65536, wait := [] } ∧ u.cfl.queues = s.cfl.queues
      ∧ u.cfl.repl = s.cfl.repl ++ [{ first := handleFirst c.handle, group := g, head := c.fword.toNat / 2 ^ 16
                                      len := c.fword.toNat % 2 ^ 16, input := i }]
      ∧ u.cfl.books = { s.cfl.books with pipe := s.cfl.books.pipe - f.cells, queued := s.cfl.books.queued + n
                                         reclaim := s.cfl.books.reclaim + (f.cells - n) }
      ∧ ∃ x, u.frame (handleFirst c.handle) = some x ∧ x.refs = 1 ∧ x.committed = true) := by
  obtain ⟨hhead, hlen⟩ := fieldOf_frameWord c.fword
  obtain ⟨u, htrim, htrimmed⟩ := State.trim_trims h.frame_nextRetired htrims
  have hheld := htrimmed.held h.copyless h.uncommitted hpipe htrims.fits
  obtain ⟨v, hv⟩ : ∃ v, (u.commitFrame (handleFirst c.handle)).addRef (handleFirst c.handle) = v := ⟨_, rfl⟩
  rw [hv] at hheld
  have hunmirrored := h.unmirrored_of (t := v.putCfl { v.cfl with repl := v.cfl.repl ++ [{
    first := handleFirst c.handle, group := g, head := c.fword.toNat / 2 ^ 16, len := c.fword.toNat % 2 ^ 16, input := i }] }) (l := [])
    ((RegsKept.refl _ _).of_regs hheld.regs) (by simp)
  have he := h.exec_enqueueCommit
  rw [h.commitSlot_enqm hkind, State.commitEnqm_held hhead hlen htrim hv, State.eddyIngress_unmirrored hunmirrored] at he
  obtain ⟨x, hx, hrefs, hcommitted, -, -⟩ := hheld.frame
  refine .of_settle he fun y => ⟨State.inputSt_nextRetired ?_, ?_, ?_, ?_, x, hx, hrefs, hcommitted⟩
  · change v.cfl.inputs = _
    rw [hheld.cfl]
  · change v.cfl.queues = _
    rw [hheld.cfl]
    rfl
  · change v.cfl.repl ++ _ = _
    rw [show v.cfl.repl = s.cfl.repl by rw [hheld.cfl]; rfl]
  · change v.cfl.books = _
    rw [hheld.cfl]
    rfl

end

end

end Sys2Proof.Machine
end

section
namespace Sys2Proof.Machine

/-! ## Replication (R273 to R275) -/

theorem State.dropRef_shared {s : State} {p : Nat} {f : FrameRec} (hf : s.frame p = some f) (h : ¬ f.refs ≤ 1) :
    s.dropRef p = s.setFrame p (some { f with refs := f.refs - 1 }) := by
  rw [State.dropRef, hf]
  dsimp only
  rw [if_neg h]

theorem State.dropRef_last {s : State} {p : Nat} {f : FrameRec} (hf : s.frame p = some f) (h : f.refs ≤ 1) (hdesc : f.desc = none) :
    s.dropRef p = (s.setFrame p none).reclaimCells f.chain f.committed := by
  rw [State.dropRef, hf]
  dsimp only
  rw [if_pos h, State.reclaimFrame_ringless hf hdesc]

/-- An entry of list memory that is pruned for an input (R273). -/
theorem State.pruned_of_match {s : State} {e : Nat} {i : Input} (hprune : s.fld F.CFL_MC_LIST_W1.PRUNE e = 1)
    (hinput : s.fld F.CFL_MC_LIST_W1.INPUT e = inputNum i) (hkind : s.fld F.CFL_MC_LIST_W1.KIND e = inputKind i) : s.pruned e i = true := by
  rw [State.pruned, State.flag, hprune, hinput, hkind]
  simp

section
variable {s u : State} {j : ReplJob} {rest : List ReplJob} {f : FrameRec} {e : Nat}

/-- The oldest job of the replication engine is of a group with one destination, at entry e of list memory. -/
structure State.ReplicatesTo (s : State) (j : ReplJob) (rest : List ReplJob) (e : Nat) : Prop where
  jobs : s.cfl.repl = j :: rest
  valid : s.fld F.CFL_MC_GRP_W0.VALID j.group.toNat = 1
  count : s.fld F.CFL_MC_GRP_W1.COUNT j.group.toNat = 1
  base : s.fld F.CFL_MC_GRP_W0.BASE j.group.toNat = e

/-- The state in which the replication engine has taken its oldest job. -/
def State.jobTaken (s : State) (rest : List ReplJob) : State := s.putCfl { s.cfl with repl := rest }

/-- The end of a job gives the hold of its frame back; the frame of a job without a copy counts in CFL_MC_EMPTY (R274, R275). -/
theorem State.ReplicatesTo.replicate (h : s.ReplicatesTo j rest e) (hu : State.replicateTo j (s.jobTaken rest) e = u)
    (hf : u.frame j.first = some f) : s.replicate
      = (if decide (f.refs ≤ 1) then (u.satInc F.CFL_MC_EMPTY.COUNT 0 1).frameDone j.first dcDropped 0xFF else u).dropRef j.first := by
  have hregs : (s.jobTaken rest).regs = s.regs := rfl
  have hvalid : (s.jobTaken rest).flag F.CFL_MC_GRP_W0.VALID j.group.toNat = true :=
    (State.flag_iff_one _ _ _ rfl).mpr ((State.fld_of_regs hregs _ _).trans h.valid)
  have hcount := (State.fld_of_regs hregs F.CFL_MC_GRP_W1.COUNT j.group.toNat).trans h.count
  have hbase := (State.fld_of_regs hregs F.CFL_MC_GRP_W0.BASE j.group.toNat).trans h.base
  rw [State.replicate, h.jobs]
  dsimp only
  rw [← State.jobTaken, hvalid, hcount, hbase, if_pos rfl]
  have hone : ((List.range 1).map (fun k => e + k)).foldl (State.replicateTo j) (s.jobTaken rest) = u := hu
  rw [hone, hf]

/-- A destination that is neither pruned nor refused gets a copy, which refers to the frame (R274, R275). -/
theorem State.replicateTo_admitted {q : Nat} {x : QEntry} (hf : s.frame j.first = some f) (hq : s.fld F.CFL_MC_LIST_W0.QUEUE e = q)
    (hpruned : s.pruned e j.input = false) (hadmits : s.admits q f.cells 0 = true)
    (hentry : x = { first := j.first, head := j.head, len := j.len, prep := s.fld F.CFL_MC_LIST_W0.PREP e, eddy := false }) :
    State.replicateTo j s e = (s.setFrame j.first (some { f with refs := f.refs + 1 })).enqueue q x f.cells := by
  have hcells : s.entryCells x = f.cells := State.entryCells_of_frame (by rw [hentry]; exact hf)
  rw [State.replicateTo, hpruned]
  dsimp only
  rw [← hentry, hq, hcells, hadmits, State.addRef_of_frame hf]
  rfl

theorem completes_replication_copy (h : s.ReplicatesTo j rest e) (hf : s.frame j.first = some f) (hrefs : f.refs = 1) {q : Nat}
    (hq : s.fld F.CFL_MC_LIST_W0.QUEUE e = q) (hpruned : s.pruned e j.input = false) (hadmits : s.admits q f.cells 0 = true)
    (hdepth : s.depth q + f.cells < 2 ^ 21) {x : QEntry}
    (hentry : x = { first := j.first, head := j.head, len := j.len, prep := s.fld F.CFL_MC_LIST_W0.PREP e, eddy := false }) :
    Completes .replication s (fun u => u.cfl.repl = rest ∧ u.queue q = s.queue q ++ [x] ∧ u.depth q = s.depth q + f.cells
      ∧ u.frame j.first = some f ∧ u.cfl.books = s.cfl.books) := by
  have htaken : (s.jobTaken rest).regs = s.regs := rfl
  have hto := State.replicateTo_admitted (s := s.jobTaken rest) hf ((State.fld_of_regs htaken _ _).trans hq) hpruned
    ((State.admits_congr htaken rfl _ _ _).trans hadmits) (hentry.trans (by rw [State.fld_of_regs htaken]))
  obtain ⟨v, hv⟩ : ∃ v, v = (s.jobTaken rest).setFrame j.first (some { f with refs := f.refs + 1 }) := ⟨_, rfl⟩
  rw [← hv] at hto
  have hcfl : v.cfl = { s.cfl with repl := rest, frames := v.cfl.frames } := by rw [hv]; rfl
  have hecfl := v.cfl_enqueue q x f.cells
  have hframe : (v.enqueue q x f.cells).frame j.first = some { f with refs := f.refs + 1 } :=
    State.frame_of_set (t := s.jobTaken rest) (by rw [hecfl, hv])
  have hmore : ¬ f.refs + 1 ≤ 1 := by omega
  have he : exec .replication s = done ((v.enqueue q x f.cells).setFrame j.first (some f)).settle := by
    change done s.replicate.settle = _
    rw [h.replicate hto hframe, decide_eq_false hmore, if_neg Bool.false_ne_true, State.dropRef_shared hframe hmore]
    rfl
  have hdepths : v.depth q = s.depth q := State.depth_congr (by rw [hv]; rfl) q
  have hqueue : v.queue q = s.queue q := State.queue_congr (by rw [hcfl]) q
  refine .of_settle he fun y => ⟨?_, ?_, ?_, State.frame_of_set (t := v.enqueue q x f.cells) rfl, ?_⟩
  · change (v.enqueue q x f.cells).cfl.repl = _
    rw [hecfl, hcfl]
  · exact (State.queue_congr (s := v.enqueue q x f.cells) rfl q).trans (by rw [State.queue_enqueue_same, hqueue])
  · exact (State.depth_congr (s := v.enqueue q x f.cells) rfl q).trans
      (by rw [State.depth_enqueue_same _ _ (by rw [hdepths]; exact hdepth), hdepths])
  · change (v.enqueue q x f.cells).cfl.books = _
    rw [hecfl, hcfl]

theorem completes_replication_pruned (h : s.ReplicatesTo j rest e) (hf : s.frame j.first = some f) (hrefs : f.refs = 1)
    (hdesc : f.desc = none) (hpruned : s.pruned e j.input = true) :
    Completes .replication s (fun u => u.cfl.repl = rest ∧ u.frame j.first = none ∧ u.cfl.queues = s.cfl.queues
      ∧ (u.rd .CFL_MC_EMPTY 0).toNat = Nat.min (2 ^ 32 - 1) ((s.rd .CFL_MC_EMPTY 0).toNat + 1)) := by
  obtain ⟨v, hv⟩ : ∃ v, v = (s.jobTaken rest).satInc F.CFL_MC_EMPTY.COUNT 0 1 := ⟨_, rfl⟩
  have hto : State.replicateTo j (s.jobTaken rest) e = s.jobTaken rest := if_pos hpruned
  have hframe : v.frame j.first = some f := by rw [hv]; exact hf
  have hcfl : v.cfl = { s.cfl with repl := rest } := by rw [hv, State.satInc_cfl]; rfl
  have he : exec .replication s = done ((v.setFrame j.first none).reclaimCells f.chain f.committed).settle := by
    change done s.replicate.settle = _
    rw [h.replicate hto hf, decide_eq_true hrefs.le, if_pos rfl, ← hv, State.frameDone_ringless hframe hdesc,
      State.dropRef_last hframe hrefs.le hdesc]
  have hcount := (s.jobTaken rest).toNat_rd_satInc (f := F.CFL_MC_EMPTY.COUNT) 0 ⟨rfl, rfl⟩
  rw [← hv] at hcount
  refine .of_settle he fun y => ⟨?_, State.frame_of_set (t := v) rfl, ?_, hcount⟩
  · change v.cfl.repl = _
    rw [hcfl]
  · change v.cfl.queues = _
    rw [hcfl]

end

/-- Settles O34: the commit of a number by its kind (`completes_enqueueCommit_drop`, `_admitted`, `_refused`, `_enqm`), and the replication
to one destination by whether it is pruned (`completes_replication_copy`, `completes_replication_pruned`). -/
theorem commitAndReplication : Obligations.CommitAndReplication := by
  unfold Obligations.CommitAndReplication
  refine ⟨?_, ?_⟩
  · intro s i c f q w r g b x p head len n retired plain hplain hwait hseq hth hframe hrefs hcommitted hdesc hpipe hhead hlen hfits hfirst
      hnodup
    obtain ⟨hinput, hunattached, hunmirrored⟩ := hplain
    have hnext : s.CommitsNext i c f := ⟨hinput, hunattached, hunmirrored, hwait, hseq, hth, hframe, hrefs, hcommitted, hdesc⟩
    have htrims : f.TrimsTo p head len n := ⟨hhead, hlen, rfl, hfits, hfirst, hnodup⟩
    exact ⟨fun hkind => completes_enqueueCommit_drop hnext hkind hpipe,
      fun hkind hq hmirror hreset => ⟨fun hadmits hdepth =>
          completes_enqueueCommit_admitted hnext hkind htrims hpipe hq hmirror hreset hadmits hdepth rfl,
        fun hadmits hspill => completes_enqueueCommit_refused hnext hkind htrims hpipe hq hreset hadmits hspill⟩,
      fun hkind => completes_enqueueCommit_enqm hnext hkind htrims hpipe⟩
  · intro s j rest f e q g hjobs hframe hrefs _ hdesc hvalid hcount hbase hq
    have hto : s.ReplicatesTo j rest e := ⟨hjobs, hvalid, hcount, hbase⟩
    exact ⟨fun hpruned hadmits hdepth => completes_replication_copy hto hframe hrefs hq hpruned hadmits hdepth rfl,
      fun hprune hinput hkind => completes_replication_pruned hto hframe hrefs hdesc (State.pruned_of_match hprune hinput hkind)⟩

end Sys2Proof.Machine
end

section
namespace Sys2Proof.Machine

/-! ## What the scheduler's conditions leave, in full (R291, R295) -/

section
variable {s t u : State}

theorem Settles.refl (s : State) : Settles s s := rfl

theorem Settles.tags (h : Settles s t) (tag : Tbl Nat) (awake : Tbl Bool) :
    Settles s (t.putSch { t.sch with tag := tag, awake := awake }) := by
  rw [Settles] at h
  rw [h]
  rfl

theorem Settles.wake (h : Settles s t) (c : SchChild) : Settles s (t.wake c) := by
  unfold State.wake
  dsimp only
  split
  · exact h
  · exact h.tags (Tbl.set (fun _ => 0) t.sch.tag c.key (t.vtime c.parent c.band % 2 ^ 48)) t.sch.awake

theorem Settles.foldl_wake (h : Settles s t) (l : List SchChild) : Settles s (l.foldl State.wake t) := by
  induction l generalizing t with
  | nil => exact h
  | cons c l ih => exact ih (h.wake c)

/-- Bringing the scheduler's conditions up to date only wakes children (R295). -/
theorem State.settles_settle (s : State) : Settles s s.settle :=
  ((Settles.refl s).foldl_wake (s.eligChildren.filter fun c => !Tbl.get (fun _ => false) s.sch.awake c.key)).tags _ _

/-- A command that ends with the scheduler's conditions brought up to date, by what holds of every state that only woke children. -/
theorem Completes.of_settles {i : Instr} {P : State → Prop} (he : exec i s = done t.settle) (h : ∀ u, Settles t u → P u) :
    Completes i s P :=
  .of_eq he (h _ t.settles_settle)

theorem Settles.eq (h : Settles t u) : u = t.putSch { t.sch with tag := u.sch.tag, awake := u.sch.awake } := h

theorem Settles.regs (h : Settles t u) : u.regs = t.regs := (congrArg State.regs h.eq :)

theorem Settles.cfl (h : Settles t u) : u.cfl = t.cfl := (congrArg State.cfl h.eq :)

theorem Settles.rd (h : Settles t u) (r : Reg) (i : Nat) : u.rd r i = t.rd r i := State.rd_of_regs h.regs r i

theorem Settles.fld (h : Settles t u) (f : Fld) (i : Nat) : u.fld f i = t.fld f i := State.fld_of_regs h.regs f i

theorem Settles.queue (h : Settles t u) (q : Nat) : u.queue q = t.queue q := State.queue_congr (by rw [h.cfl]) q

theorem Settles.depth (h : Settles t u) (q : Nat) : u.depth q = t.depth q := State.depth_congr h.regs q

theorem Settles.qClass (h : Settles t u) (q : Nat) : u.qClass q = t.qClass q := h.fld F.SCH_Q_W0.BAND q

theorem Settles.entryCells (h : Settles t u) (e : QEntry) : u.entryCells e = t.entryCells e := (congrArg (fun x : State => x.entryCells e) h.eq :)

theorem Settles.marks (h : Settles t u) (q p : Nat) : u.marks q p = t.marks q p := (congrArg (fun x : State => x.marks q p) h.eq :)

theorem Settles.outQueue (h : Settles t u) (p : Nat) : u.outQueue p = t.outQueue p :=
  (congrArg (fun x : State => Tbl.get (fun _ => []) x.sch.outq p) h.eq :)

theorem Settles.nodeBuckets (h : Settles t u) (n : Nat) : u.nodeBuckets n = t.nodeBuckets n :=
  (congrArg (fun x : State => Tbl.get (fun _ => bucketReset) x.sch.node n) h.eq :)

theorem Settles.parentPend (h : Settles t u) (k : Nat) : u.parentPend k = t.parentPend k :=
  (congrArg (fun x : State => Tbl.get (fun _ => none) x.sch.parentPend k) h.eq :)

end

/-! ## The scheduler's tables: a read after a write -/

@[simp] theorem State.nodeBuckets_setNodeBuckets (s : State) (n : Nat) (b : Buckets) : (s.setNodeBuckets n b).nodeBuckets n = b :=
  Tbl.get_set_same _ _ _ _

theorem State.nodeBuckets_setNodeBuckets_ne (s : State) {n m : Nat} (b : Buckets) (h : m ≠ n) :
    (s.setNodeBuckets n b).nodeBuckets m = s.nodeBuckets m :=
  Tbl.get_set_ne _ _ _ h.symm

@[simp] theorem State.polBuckets_setPolBuckets (s : State) (n : Nat) (b : Buckets) : (s.setPolBuckets n b).polBuckets n = b :=
  Tbl.get_set_same _ _ _ _

@[simp] theorem State.outQueue_setOutQueue (s : State) (p : Nat) (l : List OutItem) : (s.setOutQueue p l).outQueue p = l :=
  Tbl.get_set_same _ _ _ _

@[simp] theorem State.parentPend_setParentPend (s : State) (k : Nat) (x : Option (Nat × Nat)) : (s.setParentPend k x).parentPend k = x :=
  Tbl.get_set_same _ _ _ _

@[simp] theorem State.queue_setQueue (s : State) (q : Nat) (l : List QEntry) : (s.setQueue q l).queue q = l :=
  Tbl.get_set_same _ _ _ _

theorem State.queue_setQueue_ne (s : State) {q z : Nat} (l : List QEntry) (h : z ≠ q) : (s.setQueue q l).queue z = s.queue z :=
  Tbl.get_set_ne _ _ _ h.symm

end Sys2Proof.Machine
end

section
namespace Sys2Proof.Machine

/-! ## Tags (R294) -/

/-- The model's distance in naturals is the spec's difference of the tags modulo 2^48 (R294). -/
theorem precedes_iff (a b : Nat) :
    precedes a b = true ↔ 1 ≤ ((b : Int) - a) % 2 ^ 48 ∧ ((b : Int) - a) % 2 ^ 48 ≤ 2 ^ 47 - 1 := by
  have hdist : (((b + 2 ^ 48 - a % 2 ^ 48) % 2 ^ 48 : Nat) : Int) = ((b : Int) - a) % 2 ^ 48 := by omega
  rw [precedes, decide_eq_true_iff, ← hdist]
  omega

/-- Settles O3: both claims are about the distance of `precedes_iff`, which is that of the reverse order negated modulo 2^48. -/
theorem tagOrder : Obligations.TagOrder := by
  unfold Obligations.TagOrder
  refine ⟨precedes_iff, fun a b => ⟨?_, ?_⟩, fun a b hab => ?_⟩
  · rw [Bool.eq_iff_iff, precedes_iff, precedes_iff]
    omega
  · rw [Bool.eq_iff_iff, precedes_iff, precedes_iff]
    omega
  · rw [precedes_iff] at hab
    rw [← Bool.not_eq_true, precedes_iff]
    omega

end Sys2Proof.Machine
end

section
namespace Sys2Proof.Machine

/-! ## The walk of a release (R291, R292) -/

/-- A child that is chosen before another has no lower band (R292). -/
theorem State.band_le_of_before {s : State} {x y : SchChild} (h : s.before x y = true) : y.band ≤ x.band := by
  by_contra hlow
  rw [State.before, if_pos (show x.band ≠ y.band by omega), decide_eq_true_iff] at h
  omega

theorem State.band_le_of_not_before {s : State} {x y : SchChild} (h : ¬ s.before x y = true) : x.band ≤ y.band := by
  by_contra hhigh
  rw [State.before, if_pos (show x.band ≠ y.band by omega), decide_eq_true_iff] at h
  omega

theorem State.eq_nil_of_choose {s : State} {l : List SchChild} (h : s.choose l = none) : l = [] := by
  cases l with
  | nil => rfl
  | cons c l =>
    rw [State.choose] at h
    split at h
    · cases h
    · split at h <;> cases h

/-- The choice among children is one of them, and none has a higher band (R292). -/
theorem State.choose_spec {s : State} {l : List SchChild} {d : SchChild} (h : s.choose l = some d) : d ∈ l ∧ ∀ c ∈ l, c.band ≤ d.band := by
  induction l generalizing d with
  | nil => cases h
  | cons c l ih =>
    rw [State.choose] at h
    split at h
    case h_1 hrest =>
      cases h
      rw [State.eq_nil_of_choose hrest]
      exact ⟨.head _, List.forall_mem_cons.mpr ⟨le_rfl, List.forall_mem_nil _⟩⟩
    case h_2 e hrest =>
      obtain ⟨hmem, hmax⟩ := ih hrest
      split at h
      case isTrue hbefore =>
        cases h
        have hec := State.band_le_of_before hbefore
        exact ⟨.head _, List.forall_mem_cons.mpr ⟨le_rfl, fun x hx => (hmax x hx).trans hec⟩⟩
      case isFalse hafter =>
        cases h
        exact ⟨.tail _ hmem, List.forall_mem_cons.mpr ⟨State.band_le_of_not_before hafter, hmax⟩⟩

/-- The choice among the children of one node, where each child shows a member of a list of the tree (R292). -/
theorem State.choose_child {s : State} {l : List Nat} {f : Nat → SchChild} {p : Nat} {d : SchChild}
    (h : s.choose ((l.map f).filter fun c => c.parent == p) = some d) :
    (∃ n ∈ l, f n = d) ∧ d.parent = p ∧ ∀ n ∈ l, (f n).parent = p → (f n).band ≤ d.band := by
  obtain ⟨hmem, hmax⟩ := State.choose_spec h
  obtain ⟨hin, hparent⟩ := List.mem_filter.mp hmem
  exact ⟨List.mem_map.mp hin, beq_iff_eq.mp hparent,
    fun n hn hp => hmax _ (List.mem_filter.mpr ⟨List.mem_map_of_mem hn, beq_iff_eq.mpr hp⟩)⟩

/-- The three choices of a walk: a service node, a subscriber and a queue (R292). -/
theorem State.walk_choices {s : State} {port : Nat} {v u c : SchChild} (h : s.walk port = some (v, u, c)) :
    let qs := s.eligQueues.filter s.queueRoom
    s.choose (((s.eligSvcs (s.eligSubs qs)).map s.svcChild).filter fun x => x.parent == portNode port) = some v
    ∧ s.choose (((s.eligSubs qs).map s.subChild).filter fun x => x.parent == v.num) = some u
    ∧ s.choose ((qs.map s.queueChild).filter fun x => x.parent == u.num) = some c := by
  intro qs
  obtain ⟨v', hv, h⟩ := Option.bind_eq_some_iff.mp h
  obtain ⟨u', hu, h⟩ := Option.bind_eq_some_iff.mp h
  obtain ⟨c', hc, h⟩ := Option.map_eq_some_iff.mp h
  cases h
  exact ⟨hv, hu, hc⟩

/-- Settles O35: each of the walk's choices is one of `State.choose_child`. -/
theorem releaseByBand : Obligations.ReleaseByBand := by
  unfold Obligations.ReleaseByBand
  intro s port v u c h qs
  obtain ⟨hv, hu, hc⟩ := State.walk_choices h
  obtain ⟨-, hvparent, hvmax⟩ := State.choose_child hv
  obtain ⟨-, huparent, humax⟩ := State.choose_child hu
  obtain ⟨⟨q, hq, rfl⟩, hcparent, hcmax⟩ := State.choose_child hc
  exact ⟨hq, hcparent, huparent, hvparent, hcmax, humax, fun n hn hport => hvmax n hn (congrArg portNode hport)⟩

end Sys2Proof.Machine
end

section
namespace Sys2Proof.Machine

/-! ## Configuration of shapers and policers (R300, R302) -/

/-- A typed write of a register that is one RW field stores the written word (R7). -/
theorem typedWrite_of_whole {r : Reg} (h : fieldSpecs r = [⟨31, 0, .rw⟩]) (v w : Word) : typedWrite r v w = v := by
  have hword := fieldOf_typedWrite_rw r 0 ⟨31, 0, .rw⟩ v w (by rw [h]; rfl) (by decide) (by rw [h]; decide)
  rw [fieldOf_whole, fieldOf_whole] at hword
  exact BitVec.eq_of_toNat_eq hword

/-- A write of SCH_N_CBS: BYTES, and SHAPE in its top bit (R318). -/
theorem typedWrite_nodeCbs (v w : Word) : fieldOf (typedWrite .SCH_N_CBS v w) 23 0 = v.toNat % 2 ^ 24
    ∧ fieldOf (typedWrite .SCH_N_CBS v w) 31 31 = v.toNat / 2 ^ 31 := by
  have hbytes := fieldOf_typedWrite_rw .SCH_N_CBS 0 ⟨23, 0, .rw⟩ v w rfl (by decide) (by decide)
  have hshape := fieldOf_typedWrite_rw .SCH_N_CBS 1 ⟨31, 31, .rw⟩ v w rfl (by decide) (by decide)
  have htop : v.toNat / 2 ^ 31 < 2 := by have := v.isLt; omega
  exact ⟨hbytes.trans (fieldOf_low _ _), hshape.trans ((fieldOf_eq _ _ _).trans (Nat.mod_eq_of_lt htop))⟩

theorem completes_shaperConfigWrite {s : State} {r : Reg} (n : Nat) (v : BitVec 32) (hr : isShaperReg r = true) (hup : s.reachable 1 = true) :
    Completes (.shaperConfigWrite r n v) s (fun u =>
      (u.nodeBuckets n).tc = (u.fld F.SCH_N_CBS.BYTES n * 1000 : Nat) ∧ (u.nodeBuckets n).tp = (u.fld F.SCH_N_PBS.BYTES n * 1000 : Nat)
      ∧ u.rd r n = typedWrite r v (s.rd r n) ∧ RegsKept s u [(r, n)] ∧ ∀ m, m ≠ n → u.nodeBuckets m = s.nodeBuckets m) := by
  obtain ⟨w, hw⟩ : ∃ w, w = s.writeTyped r n v := ⟨_, rfl⟩
  obtain ⟨b, hb⟩ : ∃ b, b = { w.nodeNow n with
      tc := ((w.fld F.SCH_N_CBS.BYTES n * 1000 : Nat) : Int), tp := ((w.fld F.SCH_N_PBS.BYTES n * 1000 : Nat) : Int) } := ⟨_, rfl⟩
  have he : exec (.shaperConfigWrite r n v) s = done ((w.setNodeBuckets n b).settle.answer .ok) := by
    change done (s.atChip 1 _) = _
    rw [s.atChip_reachable _ _ hup, s.when_true _ hr, hb, hw]
    rfl
  have hset := (w.setNodeBuckets n b).settles_settle
  have hfld : ∀ f, ((w.setNodeBuckets n b).settle.answer .ok).fld f n = w.fld f n := fun f => hset.fld f n
  have hbuckets : ((w.setNodeBuckets n b).settle.answer .ok).nodeBuckets n = b :=
    (hset.nodeBuckets n).trans (State.nodeBuckets_setNodeBuckets _ _ _)
  refine .of_eq he ⟨?_, ?_, ?_, ?_, fun m hm => ?_⟩
  · rw [hbuckets, hfld, hb]
  · rw [hbuckets, hfld, hb]
  · refine (hset.rd r n).trans ?_
    rw [hw]
    exact s.rd_wr_same _ _ _
  · refine RegsKept.of_regs (t := w) ?_ hset.regs
    rw [hw]
    exact (RegsKept.refl s _).wr r n _ (.head _)
  · refine (hset.nodeBuckets m).trans ((State.nodeBuckets_setNodeBuckets_ne _ _ hm).trans ?_)
    rw [hw]
    rfl

/-- Settles O6: the four registers are those of `completes_shaperConfigWrite`. -/
theorem shaperWriteFillsBuckets : Obligations.ShaperWriteFillsBuckets := by
  unfold Obligations.ShaperWriteFillsBuckets
  intro s r n v hr hup
  have hshaper : isShaperReg r = true := by
    simp only [List.mem_cons, List.not_mem_nil, or_false] at hr
    obtain rfl | rfl | rfl | rfl := hr <;> rfl
  obtain ⟨u, he, htc, htp, hrest⟩ := completes_shaperConfigWrite n v hshaper hup
  exact ⟨u, he, htc.trans (Nat.cast_mul _ _), htp.trans (Nat.cast_mul _ _), hrest⟩

theorem completes_policerConfigWrite {s : State} {r : Reg} (n : Nat) (v : BitVec 32) (hr : isPolicerReg r = true)
    (hup : s.reachable 1 = true) : Completes (.policerConfigWrite r n v) s (fun u =>
      (u.polBuckets n).tc = (u.fld F.SCH_POL_CBS.BYTES n * 1000 : Nat) ∧ (u.polBuckets n).tp = (u.fld F.SCH_POL_PBS.BYTES n * 1000 : Nat)
      ∧ u.rd r n = typedWrite r v (s.rd r n) ∧ RegsKept s u [(r, n)]) := by
  have he : exec (.policerConfigWrite r n v) s = done ((s.policerWrite r n v).answer .ok) := by
    change done (s.atChip 1 _) = _
    rw [s.atChip_reachable _ _ hup, s.when_true _ hr]
  have hbuckets : ((s.policerWrite r n v).answer .ok).polBuckets n = { (s.writeTyped r n v).polNow n with
      tc := (((s.writeTyped r n v).fld F.SCH_POL_CBS.BYTES n * 1000 : Nat) : Int)
      tp := (((s.writeTyped r n v).fld F.SCH_POL_PBS.BYTES n * 1000 : Nat) : Int) } := State.polBuckets_setPolBuckets _ _ _
  refine .of_eq he ⟨?_, ?_, s.rd_wr_same _ _ _, (RegsKept.refl s _).wr r n _ (.head _)⟩
  · rw [hbuckets]; rfl
  · rw [hbuckets]; rfl

end Sys2Proof.Machine
end

section
namespace Sys2Proof.Machine

/-! ## Buckets: debits and refills (R297 to R299, R302) -/

section
variable {s : State} {n d : Nat} {rest : List Nat}

/-- The oldest pending debit of a node lands (R298, R299). -/
theorem State.landDebit_of_debits (h : (s.nodeNow n).debits = d :: rest) : s.landDebit n =
    s.draw.setNodeBuckets n { s.nodeNow n with tc := max ((s.nodeNow n).tc - (d * 1000 : Nat)) (-16777216000)
                                               tp := peakLess s.free (s.nodeNow n).tp d, debits := rest } := by
  rw [State.landDebit]
  dsimp only
  rw [h]
  rfl

theorem peakLess_of_le (free : Nat) {tp : Int} (h : -(2 ^ 47) ≤ tp - (d * 1000 : Nat)) : peakLess free tp d = tp - (d * 1000 : Nat) :=
  if_neg (not_lt.mpr h)

/-- A peak bucket keeps its format: a signed number of 48 bits (R297, log entry 33). -/
theorem peakLess_of_lt (free : Nat) {tp : Int} (h : tp - (d * 1000 : Nat) < -(2 ^ 47)) :
    -(2 ^ 47) ≤ peakLess free tp d ∧ peakLess free tp d < 2 ^ 47 := by
  rw [peakLess, if_pos h]
  omega

theorem completes_debitLand_inFormat (h : (s.nodeNow n).debits = d :: rest) (hpeak : -(2 ^ 47) ≤ (s.nodeNow n).tp - (d * 1000 : Nat)) :
    Completes (.debitLand n) s (fun u =>
      Settles (s.draw.setNodeBuckets n { s.nodeNow n with tc := max ((s.nodeNow n).tc - (d * 1000 : Nat)) (-16777216000)
                                                          tp := (s.nodeNow n).tp - (d * 1000 : Nat), debits := rest }) u) := by
  have hland := State.landDebit_of_debits h
  rw [peakLess_of_le s.free hpeak] at hland
  exact .of_settles (congrArg (fun t : State => done t.settle) hland) fun u hu => hu

theorem completes_debitLand_below (h : (s.nodeNow n).debits = d :: rest) (hpeak : (s.nodeNow n).tp - (d * 1000 : Nat) < -(2 ^ 47)) :
    Completes (.debitLand n) s (fun u =>
      (u.nodeBuckets n).tc = max ((s.nodeNow n).tc - (d * 1000 : Nat)) (-16777216000) ∧ (u.nodeBuckets n).debits = rest
      ∧ -(2 ^ 47) ≤ (u.nodeBuckets n).tp ∧ (u.nodeBuckets n).tp < 2 ^ 47) := by
  refine .of_settles (congrArg (fun t : State => done t.settle) (State.landDebit_of_debits h)) fun u hu => ?_
  rw [hu.nodeBuckets, State.nodeBuckets_setNodeBuckets]
  exact ⟨rfl, rfl, peakLess_of_lt s.free hpeak⟩

/-- A refill of a policer without pending debits, where CIR does not exceed PIR (R297, R302). -/
theorem State.polNow_committed (hdebits : (s.polBuckets n).debits = [])
    (hcir : (s.rd .SCH_POL_CIR n).toNat ≤ (s.rd .SCH_POL_PIR n).toNat) :
    ((s.polNow n).tc, (s.polNow n).remC) = refill (s.polBuckets n).tc (s.polBuckets n).remC (s.rd .SCH_POL_CIR n).toNat
      (s.mono 1 - (s.polBuckets n).last) (s.fld F.SCH_POL_CBS.BYTES n) := by
  rw [State.polNow]
  dsimp only [Buckets.refillAt]
  rw [Nat.min_eq_left hcir, Buckets.pending, hdebits]
  rfl

end

/-! ## A pending PARENT and BAND (R290) -/

section
variable {s : State} {a b : Nat}

theorem completes_parentBandApply_queue {q : BitVec 20} (hpend : s.parentPend q.toNat = some (a, b)) (hempty : s.depth q.toNat = 0)
    (ha : a < 65536) (hb : b < 8) : Completes (.parentBandApply (.queue q)) s (fun u =>
      u.qSub q.toNat = a ∧ u.qClass q.toNat = b ∧ u.fld F.SCH_Q_W0.PEND q.toNat = 0 ∧ u.parentPend q.toNat = none
      ∧ RegsKept s u [(.SCH_Q_W0, q.toNat)]) := by
  obtain ⟨t, ht⟩ : ∃ t, t = ((s.setFld F.SCH_Q_W0.PARENT q.toNat a).setFld F.SCH_Q_W0.BAND q.toNat b).setFld F.SCH_Q_W0.PEND q.toNat 0 :=
    ⟨_, rfl⟩
  have he : exec (.parentBandApply (.queue q)) s = done (t.setParentPend q.toNat none).settle := by
    change execParentBandApply (.queue q) s = _
    rw [execParentBandApply, hpend]
    dsimp only
    rw [if_pos hempty, ht]
  refine .of_settles he fun u hu => ?_
  have hfld : ∀ f, u.fld f q.toNat = t.fld f q.toNat := fun f => hu.fld f _
  refine ⟨(hfld _).trans ?_, (hfld _).trans ?_, (hfld _).trans ?_, ?_, ?_⟩
  · rw [ht, State.fld_setFld_bits_ne _ _ _ _ _ _ (by decide) (by decide), State.fld_setFld_bits_ne _ _ _ _ _ _ (by decide) (by decide)]
    exact State.fld_setFld_eq _ _ _ _ (by decide) ha
  · rw [ht, State.fld_setFld_bits_ne _ _ _ _ _ _ (by decide) (by decide)]
    exact State.fld_setFld_eq _ _ _ _ (by decide) hb
  · rw [ht]
    exact State.fld_setFld_eq _ _ _ _ (by decide) (by decide)
  · rw [hu.parentPend, State.parentPend_setParentPend]
  · refine RegsKept.of_regs (t := t) ?_ hu.regs
    rw [ht]
    exact (((RegsKept.refl s _).setFld F.SCH_Q_W0.PARENT _ _ (.head _)).setFld F.SCH_Q_W0.BAND _ _ (.head _)).setFld F.SCH_Q_W0.PEND _ _
      (.head _)

theorem completes_parentBandApply_waits {q : BitVec 20} (hpend : s.parentPend q.toNat = some (a, b)) (hdeep : s.depth q.toNat ≠ 0) :
    Completes (.parentBandApply (.queue q)) s (fun u => u = s) := by
  refine .of_eq ?_ rfl
  change execParentBandApply (.queue q) s = _
  rw [execParentBandApply, hpend]
  exact if_neg hdeep

theorem completes_parentBandApply_node {n : Nat} (hpend : s.parentPend (nodeTag n) = some (a, b)) (hempty : s.nodeHolds n = false)
    (ha : a < 4096) (hb : b < 8) : Completes (.parentBandApply (.node n)) s (fun u =>
      u.fld F.SCH_N_CFG.PARENT n = a ∧ u.fld F.SCH_N_CFG.BAND n = b ∧ u.fld F.SCH_N_STAT.PEND n = 0 ∧ u.parentPend (nodeTag n) = none) := by
  obtain ⟨t, ht⟩ : ∃ t, t = ((s.setFld F.SCH_N_CFG.PARENT n a).setFld F.SCH_N_CFG.BAND n b).setFld F.SCH_N_STAT.PEND n 0 := ⟨_, rfl⟩
  have he : exec (.parentBandApply (.node n)) s = done (t.setParentPend (nodeTag n) none).settle := by
    change execParentBandApply (.node n) s = _
    rw [execParentBandApply, hpend]
    dsimp only
    rw [if_pos hempty, ht]
  refine .of_settles he fun u hu => ?_
  have hfld : ∀ f, u.fld f n = t.fld f n := fun f => hu.fld f _
  refine ⟨(hfld _).trans ?_, (hfld _).trans ?_, (hfld _).trans ?_, ?_⟩
  · rw [ht, State.fld_setFld_reg_ne _ _ _ _ _ _ (by decide), State.fld_setFld_bits_ne _ _ _ _ _ _ (by decide) (by decide)]
    exact State.fld_setFld_eq _ _ _ _ (by decide) ha
  · rw [ht, State.fld_setFld_reg_ne _ _ _ _ _ _ (by decide)]
    exact State.fld_setFld_eq _ _ _ _ (by decide) hb
  · rw [ht]
    exact State.fld_setFld_eq _ _ _ _ (by decide) (by decide)
  · rw [hu.parentPend, State.parentPend_setParentPend]

end

/-! ## A release (R292, R293, R298) -/

/-- From s to t only tags, virtual times and buckets of nodes changed: what a release charges to its walk (R293, R298). -/
def Charges (s t : State) : Prop := ∃ vtime tag node, t = s.putSch { s.sch with vtime := vtime, tag := tag, node := node }

section
variable {s t : State}

theorem Charges.refl (s : State) : Charges s s := ⟨_, _, _, rfl⟩

theorem Charges.advanceTag (h : Charges s t) (c : SchChild) (len : Nat) : Charges s (t.advanceTag c len) := by
  obtain ⟨_, _, _, rfl⟩ := h
  exact ⟨_, _, _, rfl⟩

theorem Charges.addDebit (h : Charges s t) (n len : Nat) : Charges s (t.addDebit n len) := by
  obtain ⟨_, _, _, rfl⟩ := h
  exact ⟨_, _, _, rfl⟩

theorem Charges.outQueue (h : Charges s t) (p : Nat) : t.outQueue p = s.outQueue p := by
  obtain ⟨_, _, _, rfl⟩ := h
  rfl

theorem Charges.regs (h : Charges s t) : t.regs = s.regs := by
  obtain ⟨_, _, _, rfl⟩ := h
  rfl

theorem Charges.cfl (h : Charges s t) : t.cfl = s.cfl := by
  obtain ⟨_, _, _, rfl⟩ := h
  rfl

/-- The end of a frame for its descriptor touches the rings alone (R427). -/
theorem State.frameDone_eq (s : State) (p code reason : Nat) : ∃ x, s.frameDone p code reason = s.putRing x := by
  rw [State.frameDone]
  split
  · exact ⟨s.ring, rfl⟩
  · unfold State.descDone State.updRef
    split
    · exact ⟨s.ring, rfl⟩
    · split
      · exact ⟨_, rfl⟩
      · exact ⟨s.ring, rfl⟩

/-- The spill lists are no part of the scheduler. -/
theorem State.sch_setDepth (s : State) (q d : Nat) : (s.setDepth q d).sch = s.sch := by
  have hlist : ∀ t : State, (t.list q).sch = t.sch := fun t => by
    unfold State.list
    dsimp only
    split
    · rfl
    · split <;> rfl
  unfold State.setDepth
  dsimp only
  split
  · rfl
  · split
    · exact hlist _
    · rfl

/-- What a release to a port without an Eddy session leaves of Confluence, and at its output (R278, R292, R298). -/
theorem State.releaseHead_outside {port : Nat} {x y c : SchChild} {e : QEntry} {rest : List QEntry} (hhead : s.queue c.num = e :: rest)
    (hport : 288 ≤ port) :
    let t := (s.setQueue c.num rest).setDepth c.num (s.depth c.num - s.entryCells e)
    let u := s.releaseHead port x y c
    u.regs = t.regs ∧ u.cfl = t.cfl ∧ u.outQueue port = s.outQueue port
      ++ [{ e := e, cls := s.qClass c.num, queue := c.num, ecn := s.marks c.num e.first }] := by
  intro t u
  obtain ⟨w, hw⟩ : ∃ w, w = ((((t.advanceTag c (s.sendLen e)).advanceTag y (s.sendLen e)).advanceTag x (s.sendLen e)).addDebit y.num
      (s.sendLen e)).addDebit x.num (s.sendLen e) := ⟨_, rfl⟩
  have hcharges : Charges t w := by
    rw [hw]
    exact (((((Charges.refl t).advanceTag _ _).advanceTag _ _).advanceTag _ _).addDebit _ _).addDebit _ _
  obtain ⟨z, hz⟩ := (w.setOutQueue port (w.outQueue port
    ++ [{ e := e, cls := s.qClass c.num, queue := c.num, ecn := s.marks c.num e.first }])).frameDone_eq e.first dcOk 0
  have hu : u = (w.setOutQueue port (w.outQueue port
      ++ [{ e := e, cls := s.qClass c.num, queue := c.num, ecn := s.marks c.num e.first }])).putRing z := by
    change s.releaseHead port x y c = _
    rw [State.releaseHead, hhead]
    dsimp only
    rw [← hz, hw, decide_eq_false (Nat.not_lt.mpr hport), Bool.false_and, Bool.false_and]
    rfl
  have hout : w.outQueue port = s.outQueue port :=
    (hcharges.outQueue port).trans (congrArg (fun k : SchedUnit => Tbl.get (fun _ => []) k.outq port) (State.sch_setDepth _ _ _))
  rw [hu]
  refine ⟨hcharges.regs, hcharges.cfl, ?_⟩
  rw [← hout]
  exact State.outQueue_setOutQueue _ _ _

/-- A release of the head frame of the walk's queue (R292). -/
theorem completes_schedulerRelease {port : BitVec 10} {x y c : SchChild} {e : QEntry} {rest : List QEntry}
    (hwalk : s.settle.walk port.toNat = some (x, y, c)) (hhead : s.queue c.num = e :: rest) (hport : 288 ≤ port.toNat) :
    Completes (.schedulerRelease port) s (fun u => u.queue c.num = rest ∧ u.depth c.num = s.depth c.num - s.entryCells e
      ∧ u.outQueue port.toNat = s.outQueue port.toNat
          ++ [{ e := e, cls := s.qClass c.num, queue := c.num, ecn := s.marks c.num e.first }]
      ∧ (∀ z, z ≠ c.num → u.queue z = s.queue z) ∧ u.cfl.books = s.cfl.books) := by
  obtain ⟨w, hw⟩ : ∃ w, w = s.settle := ⟨_, rfl⟩
  have hset : Settles s w := by rw [hw]; exact s.settles_settle
  obtain ⟨v, hv⟩ : ∃ v, v = w.releaseHead port.toNat x y c := ⟨_, rfl⟩
  obtain ⟨hregs, hcfl, hout⟩ := State.releaseHead_outside (x := x) (y := y) ((hset.queue c.num).trans hhead) hport
  rw [← hv] at hregs hcfl hout
  rw [State.cfl_setDepth] at hcfl
  have he : exec (.schedulerRelease port) s = done v.settle := by
    change done (s.release port.toNat) = _
    rw [State.release, hwalk, hv, hw]
  have hqueue : ∀ z, v.queue z = (w.setQueue c.num rest).queue z := fun z => State.queue_congr (by rw [hcfl]) z
  refine .of_settles he fun u hu => ⟨?_, ?_, ?_, fun z hz => ?_, ?_⟩
  · rw [hu.queue, hqueue, State.queue_setQueue]
  · rw [hu.depth, State.depth_congr hregs, State.depth_setDepth_same _ (Nat.lt_of_le_of_lt (Nat.sub_le _ _) (w.depth_lt _)), hset.depth,
      hset.entryCells]
  · rw [hu.outQueue, hout, hset.outQueue, hset.marks, hset.qClass]
  · rw [hu.queue, hqueue, State.queue_setQueue_ne _ _ hz, hset.queue]
  · rw [hu.cfl, hcfl]
    exact (congrArg ConfluenceUnit.books hset.cfl :)

end

/-- Settles O36: a lemma for each event (`completes_schedulerRelease`, `completes_debitLand_inFormat`, `_below`, `State.polNow_committed`,
`completes_parentBandApply_queue`, `_waits`, `_node`) and for each of the two writes of configuration. -/
theorem scheduler : Obligations.Scheduler := by
  unfold Obligations.Scheduler
  intro s port n k q a b v up pol dt cir cbs full
  refine ⟨fun hidle => ?_, fun x y c e rest hwalk hhead hport _ => completes_schedulerRelease hwalk hhead hport,
    fun d rest h => ⟨completes_debitLand_inFormat h, completes_debitLand_below h⟩, .of_settles rfl fun u hu => hu,
    fun hdebits hcir => ?_, completes_parentBandApply_queue, completes_parentBandApply_waits, completes_parentBandApply_node,
    fun hup => ?_, fun hup => ?_, fun hup => ?_⟩
  · refine .of_eq ?_ s.settles_settle
    change done (s.release port.toNat) = _
    rw [State.release, hidle]
  · have hrefill := State.polNow_committed hdebits hcir
    have hbuckets := s.polBuckets_setPolBuckets k.toNat (s.polNow k.toNat)
    refine .of_eq rfl ⟨?_, ?_, rfl⟩
    · rw [hbuckets]
      exact congrArg Prod.fst hrefill
    · rw [hbuckets]
      exact congrArg Prod.snd hrefill
  · obtain ⟨u, he, htc, htp, hrd, hkept, -⟩ := completes_shaperConfigWrite (r := .SCH_N_CIR) n v rfl hup
    exact ⟨u, he, hrd.trans (typedWrite_of_whole rfl v _), ⟨htc, htp⟩, hkept⟩
  · obtain ⟨u, he, htc, htp, hrd, -, -⟩ := completes_shaperConfigWrite (r := .SCH_N_CBS) n v rfl hup
    obtain ⟨hbytes, hshape⟩ := typedWrite_nodeCbs v (s.rd .SCH_N_CBS n)
    rw [← hrd] at hbytes hshape
    exact ⟨u, he, hbytes, hshape, htc, htp⟩
  · obtain ⟨u, he, htc, htp, hrd, hkept⟩ := completes_policerConfigWrite (r := .SCH_POL_PIR) n v rfl hup
    exact ⟨u, he, hrd.trans (typedWrite_of_whole rfl v _), ⟨htc, htp⟩, hkept⟩

end Sys2Proof.Machine
end

section
namespace Sys2Proof.Machine

/-! ## A firing at a fenced unit (R14, R73) -/

/-- A unit of a fenced chiplet takes no firing: the firing is lost (R14). -/
theorem State.fireAt_fenced {s : State} {u : Unit_} {f : Firing} (hdue : s.fireDue u (unitClass u) f = true)
    (hfenced : s.isFenced (unitChip u) = true) : s.fireAt u f = s.fireTake u (unitClass u) f := by
  simp [State.fireAt, hdue, State.fireStarts, State.fireArrive, State.isFenced_fireTake, hfenced]

/-- A class 0x8 firing whose boundary has come. -/
def gateChangeFiring : Firing := { cycle := 0, arg := 0, len := 0, ford := false, deferred := false }

/-- A state in which port 0 is armed and its firing is sent, and Confluence, where the gates are, is fenced. -/
def fencedGateState : State :=
  let s := ((State.reset.setFld F.HDW_BOOT_STAT.FENCED 0 2).setFld F.GATE_CTL.PEND 0 1).setFld F.GATE_CYCLE.NS 0 1000
  s.putTide { s.tide with sent := [{ cls := 8, target := 2, f := gateChangeFiring, took := [], due := true }] }

theorem gatePort_fencedGateState : fencedGateState.gatePort 0 = gateReset := rfl

/-- The firing at fenced gates gives no port a change instant. -/
theorem exec_gateListChangeFiring_fenced : ∃ t, exec (.gateListChangeFiring gateChangeFiring) fencedGateState = .next t
    ∧ (t.gatePort 0).change = none := by
  have hfenced : fencedGateState.isFenced 1 = true := by decide
  have hdue : fencedGateState.fireDue .gates 8 gateChangeFiring = true := by decide
  exact ⟨_, congrArg done (State.fireAt_fenced (u := .gates) hdue hfenced), congrArg GatePort.change gatePort_fencedGateState⟩

/-- Refutes O37: a fenced Confluence takes no firing (R14), so an armed port has no change instant after it; the firing's clause does not
ask that the chiplet of the gates be unfenced. -/
theorem not_gatesAndGauge : ¬ Obligations.GatesAndGauge := by
  unfold Obligations.GatesAndGauge
  rintro ⟨hgates, -⟩
  obtain ⟨-, -, hfiring, -⟩ := hgates fencedGateState 0 0 gateChangeFiring
  obtain ⟨t, ht, hchange, -⟩ := hfiring (by decide) rfl (by decide) rfl (by decide) (congrArg GatePort.change gatePort_fencedGateState)
  obtain ⟨t', ht', hnone⟩ := exec_gateListChangeFiring_fenced
  rw [ht'] at ht
  cases ht
  rw [show (t.gatePort (0 : BitVec 8).toNat).change = none from hnone] at hchange
  cases hchange

end Sys2Proof.Machine
end

section
namespace Sys2Proof.Machine

/-! ## The start of a key-table command (R330, R352) -/

section
variable {s : State} {op : Nat}

/-- The command that a write of KEY_TBL_CMD takes from the registers. -/
def State.keyCmdGiven (s : State) (op : Nat) : KeyCmd :=
  { op := op, idx := s.fld F.KEY_TBL_IDX.INDEX 0, attr := s.rd .KEY_TBL_ATTR 0, key := s.keyInput }

theorem State.keyCmdWrite_idle (hop : op ≠ 0) (hidle : s.fld F.KEY_TBL_STAT.BUSY 0 = 0) :
    s.keyCmdWrite op = (s.putKeys { s.keys with cmd := some (s.keyCmdGiven op) }).setFld F.KEY_TBL_STAT.BUSY 0 1 := by
  rw [State.keyCmdWrite, if_neg (by rw [State.flag, hidle]; decide), if_neg hop]
  rfl

theorem State.keyCmdWrite_busy (hbusy : s.fld F.KEY_TBL_STAT.BUSY 0 = 1) :
    s.keyCmdWrite op = s.setFld F.KEY_TBL_STAT.REJ 0 1 := by
  rw [State.keyCmdWrite, if_pos (by rw [State.flag, hbusy]; decide)]

/-- A write of KEY_TBL_CMD with an OP starts the command, or is rejected while one runs. -/
theorem completes_keyCmdWrite {i : Instr} (hi : exec i s = done (s.atChip 0 (fun s => s.keyCmdWrite op))) (hop : op ≠ 0)
    (hup : s.reachable 0 = true) :
    (s.fld F.KEY_TBL_STAT.BUSY 0 = 0 → Completes i s (fun u => u.fld F.KEY_TBL_STAT.BUSY 0 = 1 ∧ RegsKept s u [(.KEY_TBL_STAT, 0)]
      ∧ u.reply = .ok ∧ u.keys.cmd = some (s.keyCmdGiven op)))
    ∧ (s.fld F.KEY_TBL_STAT.BUSY 0 = 1 → Completes i s (fun u => OnlyRegs (s.putReply .ok) u [(.KEY_TBL_STAT, 0)]
      ∧ u.fld F.KEY_TBL_STAT.REJ 0 = 1)) := by
  rw [State.atChip_reachable _ _ _ hup] at hi
  refine ⟨fun hidle => ?_, fun hbusy => ?_⟩
  · rw [State.keyCmdWrite_idle hop hidle] at hi
    refine .of_eq hi ⟨?_, ?_, rfl, rfl⟩
    · exact State.fld_setFld_eq _ F.KEY_TBL_STAT.BUSY 0 1 (by decide) (by decide)
    · exact (((RegsKept.refl s _).of_regs rfl).setFld F.KEY_TBL_STAT.BUSY 0 1 (.head _)).of_regs rfl
  · rw [State.keyCmdWrite_busy hbusy] at hi
    refine .of_eq hi ⟨((OnlyRegs.refl s _).setFld F.KEY_TBL_STAT.REJ 0 1 (.head _)).answer .ok, ?_⟩
    exact s.fld_setFld_eq F.KEY_TBL_STAT.REJ 0 1 (by decide) (by decide)

end

/-! ## Pinned entries (R329) -/

section
variable {s t : State} {i : Nat}

theorem isPinned_of_range (h : 1 ≤ i ∧ i ≤ 4095) : isPinned i = true := decide_eq_true h

theorem State.keyEntry_pinned (h : 1 ≤ i ∧ i ≤ 4095) :
    s.keyEntry i = (Tbl.get (fun _ => none) s.keys.pinned i).getD keyNone := if_pos (isPinned_of_range h)

theorem State.keyEntry_congr_pinned (h : 1 ≤ i ∧ i ≤ 4095) (hpinned : t.keys.pinned = s.keys.pinned) : t.keyEntry i = s.keyEntry i := by
  rw [State.keyEntry_pinned h, State.keyEntry_pinned h, hpinned]

theorem State.keyEntry_setPinned (e : KeyEntry) (h : 1 ≤ i ∧ i ≤ 4095) : (s.setPinned i (some e)).keyEntry i = e := by
  rw [State.keyEntry_pinned h, State.setPinned, State.putKeys_keys, Tbl.get_set_same, Option.getD_some]

theorem State.putKey_pinned (e : KeyEntry) (h : 1 ≤ i ∧ i ≤ 4095) : s.putKey i e = s.setPinned i (some e) := if_pos (isPinned_of_range h)

theorem State.putKeyAttr_pinned (e : KeyEntry) (h : 1 ≤ i ∧ i ≤ 4095) : s.putKeyAttr i e = s.setPinned i (some e) :=
  if_pos (isPinned_of_range h)

theorem State.keyReach_pinned (h : 1 ≤ i ∧ i ≤ 4095) : s.keyReach i = true := by
  rw [State.keyReach, isPinned_of_range h, Bool.true_or]

/-- A revoke of a pinned entry leaves it invalid with the next version, and counts it out (R330). -/
theorem State.revokeEntry_pinned (h : 1 ≤ i ∧ i ≤ 4095) : s.revokeEntry i
    = (s.setPinned i (some { s.keyEntry i with valid := false, ver := (s.keyEntry i).ver + 1 })).setFld F.KEY_TBL_COUNT.COUNT 0
        (s.fld F.KEY_TBL_COUNT.COUNT 0 - 1) := by
  rw [State.revokeEntry, State.putKeyAttr_pinned _ h]

end

/-! ## The end of a key-table command (R330) -/

section
variable {s t u : State} {c : KeyCmd}

theorem State.keyStatus_spec (s : State) {st : Nat} (ver : BitVec 8) (hst : st < 8) :
    (s.keyStatus st ver).fld F.KEY_TBL_STAT.STATUS 0 = st ∧ (s.keyStatus st ver).fld F.KEY_TBL_STAT.VER 0 = ver.toNat
      ∧ RegsKept s (s.keyStatus st ver) [(.KEY_TBL_STAT, 0)] := by
  refine ⟨?_, State.fld_setFld_eq _ _ _ _ (by decide) ver.isLt, ((RegsKept.refl s _).setFld _ _ _ (.head _)).setFld _ _ _ (.head _)⟩
  rw [State.keyStatus, State.fld_setFld_bits_ne _ _ _ _ _ _ (by decide) (by decide)]
  exact State.fld_setFld_eq _ _ _ _ (by decide) hst

theorem State.keyStatus_keys (s : State) (st : Nat) (ver : BitVec 8) : (s.keyStatus st ver).keys = s.keys := by
  rw [State.keyStatus, State.setFld_keys, State.setFld_keys]

/-- IN0 to IN7 clear. -/
def State.keyInputsCleared (s : State) : State := (List.range 8).foldl (fun s i => s.wr .KEY_TBL_IN i 0) s

theorem State.rd_foldl_clear (r : Reg) (l : List Nat) (s : State) (q : Reg) (j : Nat) :
    (l.foldl (fun s i => s.wr r i 0) s).rd q j = if r = q ∧ j ∈ l then 0 else s.rd q j := by
  induction l generalizing s with
  | nil => simp
  | cons i l ih =>
    rw [List.foldl_cons, ih, State.rd_wr]
    by_cases hr : r = q <;> by_cases hj : j = i <;> simp [hr, hj, eq_comm]

theorem State.keyInputsCleared_inputs (s : State) {i : Nat} (h : i < 8) : s.keyInputsCleared.rd .KEY_TBL_IN i = 0 :=
  (State.rd_foldl_clear _ _ _ _ _).trans (if_pos ⟨rfl, List.mem_range.mpr h⟩)

theorem State.rd_keyInputsCleared (s : State) {r : Reg} (i : Nat) (h : .KEY_TBL_IN ≠ r) : s.keyInputsCleared.rd r i = s.rd r i :=
  (State.rd_foldl_clear _ _ _ _ _).trans (if_neg fun e => h e.1)

theorem State.keys_keyInputsCleared (s : State) : s.keyInputsCleared.keys = s.keys := State.keys_foldl (f := fun s i => s.wr .KEY_TBL_IN i 0) (fun _ _ => rfl) _ s

/-- What the end of a command leaves of the state in which it has taken its effect. -/
structure KeyCmdEnded (t u : State) : Prop where
  status : u.fld F.KEY_TBL_STAT.STATUS 0 = t.fld F.KEY_TBL_STAT.STATUS 0
  ver : u.fld F.KEY_TBL_STAT.VER 0 = t.fld F.KEY_TBL_STAT.VER 0
  busy : u.fld F.KEY_TBL_STAT.BUSY 0 = 0
  keys : u.keys = { t.keys with cmd := none }
  inputs : ∀ i < 8, u.rd .KEY_TBL_IN i = 0
  words : ∀ r i, .KEY_TBL_STAT ≠ r → .KEY_TBL_IN ≠ r → u.rd r i = t.rd r i

theorem KeyCmdEnded.pinned (h : KeyCmdEnded t u) : u.keys.pinned = t.keys.pinned := by rw [h.keys]

theorem KeyCmdEnded.count (h : KeyCmdEnded t u) : u.fld F.KEY_TBL_COUNT.COUNT 0 = t.fld F.KEY_TBL_COUNT.COUNT 0 := by
  rw [State.fld, h.words _ _ (by decide) (by decide), ← State.fld]

/-- KEY_COMMAND_DONE: the command takes its effect, IN0 to IN7 clear, and the unit is idle. -/
theorem completes_keyCommandDone {P : State → Prop} (hcmd : s.keys.cmd = some c) (hrun : s.keyRun c = t) (hP : ∀ u, KeyCmdEnded t u → P u) :
    Completes .keyCommandDone s (fun u => (u.fld F.KEY_TBL_STAT.STATUS 0 = t.fld F.KEY_TBL_STAT.STATUS 0
      ∧ u.fld F.KEY_TBL_STAT.BUSY 0 = 0 ∧ u.keys.cmd = none ∧ ∀ i < 8, u.rd .KEY_TBL_IN i = 0) ∧ P u) := by
  obtain ⟨v, hv⟩ : ∃ v, v = t.keyInputsCleared.putKeys { t.keyInputsCleared.keys with cmd := none } := ⟨_, rfl⟩
  have hexec : exec .keyCommandDone s = done (v.setFld F.KEY_TBL_STAT.BUSY 0 0) := by
    change execKeyCommandDone s = _
    rw [execKeyCommandDone, hcmd, hv, ← hrun]
    rfl
  have hwords : ∀ r i, .KEY_TBL_IN ≠ r → v.rd r i = t.rd r i := fun r i hr => by
    rw [hv, State.rd_of_regs (State.putKeys_regs _ _), t.rd_keyInputsCleared i hr]
  have hkept : ∀ f : Fld, f.reg = .KEY_TBL_STAT → 0 < f.lo → (v.setFld F.KEY_TBL_STAT.BUSY 0 0).fld f 0 = t.fld f 0 := fun f hf hlo => by
    rw [State.fld_setFld_bits_ne _ _ _ _ _ _ (by decide) (.inl hlo), State.fld, hwords _ _ (by rw [hf]; decide), ← State.fld]
  have hended : KeyCmdEnded t (v.setFld F.KEY_TBL_STAT.BUSY 0 0) := by
    refine ⟨hkept F.KEY_TBL_STAT.STATUS rfl (by decide), hkept F.KEY_TBL_STAT.VER rfl (by decide),
      v.fld_setFld_eq F.KEY_TBL_STAT.BUSY 0 0 (by decide) (by decide), ?_, fun i hi => ?_, fun r i hstat hin => ?_⟩
    · rw [State.setFld_keys, hv, State.putKeys_keys, t.keys_keyInputsCleared]
    · rw [State.rd_setFld_reg_ne _ _ _ _ _ _ (by decide), hv, State.rd_of_regs (State.putKeys_regs _ _), t.keyInputsCleared_inputs hi]
    · rw [State.rd_setFld_reg_ne _ _ _ _ _ _ hstat, hwords _ _ hin]
  exact .of_eq hexec ⟨⟨hended.status, hended.busy, by rw [hended.keys], hended.inputs⟩, hP _ hended⟩

/-- A command whose effect is on the state `t`, and the status it ends with. -/
theorem completes_keyCommandDone_status {P : State → Prop} {st : Nat} {ver : BitVec 8} (hcmd : s.keys.cmd = some c) (hst : st < 8)
    (hrun : s.keyRun c = t.keyStatus st ver) (hP : ∀ u, KeyCmdEnded (t.keyStatus st ver) u → P u) :
    Completes .keyCommandDone s (fun u => (u.fld F.KEY_TBL_STAT.STATUS 0 = st
      ∧ u.fld F.KEY_TBL_STAT.BUSY 0 = 0 ∧ u.keys.cmd = none ∧ ∀ i < 8, u.rd .KEY_TBL_IN i = 0) ∧ P u) := by
  obtain ⟨hstatus, -, -⟩ := t.keyStatus_spec ver hst
  have hdone := completes_keyCommandDone hcmd hrun hP
  rwa [hstatus] at hdone

end

/-! ## The effects of INSTALL (R330) -/

section
variable {s : State} {c : KeyCmd}

theorem State.keyRun_install (h : c.op = 1) : s.keyRun c = s.keyInstall c := if_pos h

theorem State.keyInstall_badArg (h : c.idx = 0 ∨ ¬ (bit c.attr.toNat 17 = true ∨ bit c.attr.toNat 18 = true)) :
    s.keyInstall c = s.keyStatus ktBadArg (s.keyEntry c.idx).ver :=
  if_pos (h.imp id fun hno => by simpa using hno)

theorem KeyCmd.installs (hidx : c.idx ≠ 0) (h : bit c.attr.toNat 17 = true ∨ bit c.attr.toNat 18 = true) :
    ¬ (c.idx = 0 ∨ (bit c.attr.toNat 17 = false ∧ bit c.attr.toNat 18 = false)) := by
  rcases h with h | h <;> simp [hidx, h]

theorem State.keyInstall_noDie (hidx : c.idx ≠ 0) (h : bit c.attr.toNat 17 = true ∨ bit c.attr.toNat 18 = true)
    (hktk : s.keys.ktk = none) : s.keyInstall c = s.keyStatus ktNoDie (s.keyEntry c.idx).ver :=
  (if_neg (KeyCmd.installs hidx h)).trans (if_pos (Option.isNone_iff_eq_none.mpr hktk))

/-- The entry that INSTALL makes of a command over an entry of some version. -/
def KeyCmd.entry (c : KeyCmd) (ver : BitVec 8) : KeyEntry :=
  { valid := true, long := bit c.attr.toNat 16, enc := bit c.attr.toNat 17, dec := bit c.attr.toNat 18, gate := bit c.attr.toNat 19
    ver := ver + 1, owner := BitVec.ofNat 16 c.attr.toNat
    key := if bit c.attr.toNat 16 = true then c.key else c.key.take 16 ++ List.replicate 16 0 }

/-- INSTALL at a pinned index comes as far as INUSE. -/
theorem State.keyInstall_pinned (hidx : 1 ≤ c.idx ∧ c.idx ≤ 4095) (h : bit c.attr.toNat 17 = true ∨ bit c.attr.toNat 18 = true)
    (hktk : s.keys.ktk ≠ none) : s.keyInstall c
      = if (s.keyEntry c.idx).valid then s.keyStatus ktInUse (s.keyEntry c.idx).ver
        else ((s.setPinned c.idx (some (c.entry (s.keyEntry c.idx).ver))).modInc F.KEY_TBL_COUNT.COUNT 0 1).keyStatus ktOk
          ((s.keyEntry c.idx).ver + 1) := by
  have howner : BitVec.ofNat 16 (fieldOf c.attr 15 0) = BitVec.ofNat 16 c.attr.toNat := by
    rw [fieldOf_low]
    exact BitVec.eq_of_toNat_eq (by simp)
  rw [State.keyInstall]
  dsimp only
  rw [if_neg (KeyCmd.installs (by omega) h), if_neg (by simpa using hktk),
    if_neg (by rw [isPinned_of_range hidx]; simp), State.putKey_pinned _ hidx, howner]
  rfl

theorem completes_install_badArg (hcmd : s.keys.cmd = some c) (hop : c.op = 1)
    (h : c.idx = 0 ∨ ¬ (bit c.attr.toNat 17 = true ∨ bit c.attr.toNat 18 = true)) :
    Completes .keyCommandDone s (fun u => (u.fld F.KEY_TBL_STAT.STATUS 0 = 3 ∧ u.fld F.KEY_TBL_STAT.BUSY 0 = 0 ∧ u.keys.cmd = none
      ∧ ∀ i < 8, u.rd .KEY_TBL_IN i = 0) ∧ u.keys.pinned = s.keys.pinned) :=
  completes_keyCommandDone_status hcmd (by decide) ((State.keyRun_install hop).trans (State.keyInstall_badArg h)) fun _ hu => hu.pinned

theorem completes_install_noDie (hcmd : s.keys.cmd = some c) (hop : c.op = 1) (hidx : c.idx ≠ 0)
    (h : bit c.attr.toNat 17 = true ∨ bit c.attr.toNat 18 = true) (hktk : s.keys.ktk = none) :
    Completes .keyCommandDone s (fun u => (u.fld F.KEY_TBL_STAT.STATUS 0 = 5 ∧ u.fld F.KEY_TBL_STAT.BUSY 0 = 0 ∧ u.keys.cmd = none
      ∧ ∀ i < 8, u.rd .KEY_TBL_IN i = 0) ∧ u.keys.pinned = s.keys.pinned) :=
  completes_keyCommandDone_status hcmd (by decide) ((State.keyRun_install hop).trans (State.keyInstall_noDie hidx h hktk))
    fun _ hu => hu.pinned

theorem completes_install_inUse (hcmd : s.keys.cmd = some c) (hop : c.op = 1) (hidx : 1 ≤ c.idx ∧ c.idx ≤ 4095)
    (h : bit c.attr.toNat 17 = true ∨ bit c.attr.toNat 18 = true) (hktk : s.keys.ktk ≠ none) (hvalid : (s.keyEntry c.idx).valid = true) :
    Completes .keyCommandDone s (fun u => (u.fld F.KEY_TBL_STAT.STATUS 0 = 1 ∧ u.fld F.KEY_TBL_STAT.BUSY 0 = 0 ∧ u.keys.cmd = none
      ∧ ∀ i < 8, u.rd .KEY_TBL_IN i = 0) ∧ u.keyEntry c.idx = s.keyEntry c.idx) :=
  completes_keyCommandDone_status hcmd (by decide)
    ((State.keyRun_install hop).trans ((State.keyInstall_pinned hidx h hktk).trans (if_pos hvalid)))
    fun _ hu => State.keyEntry_congr_pinned hidx hu.pinned

theorem completes_install (hcmd : s.keys.cmd = some c) (hop : c.op = 1) (hidx : 1 ≤ c.idx ∧ c.idx ≤ 4095)
    (h : bit c.attr.toNat 17 = true ∨ bit c.attr.toNat 18 = true) (hktk : s.keys.ktk ≠ none) (hvalid : (s.keyEntry c.idx).valid = false)
    (hcount : s.fld F.KEY_TBL_COUNT.COUNT 0 < 2 ^ 21 - 1) :
    Completes .keyCommandDone s (fun u => (u.fld F.KEY_TBL_STAT.STATUS 0 = 0 ∧ u.fld F.KEY_TBL_STAT.BUSY 0 = 0 ∧ u.keys.cmd = none
      ∧ ∀ i < 8, u.rd .KEY_TBL_IN i = 0) ∧ u.fld F.KEY_TBL_COUNT.COUNT 0 = s.fld F.KEY_TBL_COUNT.COUNT 0 + 1
      ∧ u.keyEntry c.idx = c.entry (s.keyEntry c.idx).ver
      ∧ ∀ i, i ≠ c.idx → Tbl.get (fun _ => none) u.keys.pinned i = Tbl.get (fun _ => none) s.keys.pinned i) := by
  refine completes_keyCommandDone_status hcmd (by decide)
    ((State.keyRun_install hop).trans ((State.keyInstall_pinned hidx h hktk).trans (if_neg (by simp [hvalid])))) fun u hu => ⟨?_, ?_, fun i hi => ?_⟩
  · rw [hu.count, State.keyStatus, State.fld_setFld_reg_ne _ _ _ _ _ _ (by decide), State.fld_setFld_reg_ne _ _ _ _ _ _ (by decide)]
    exact State.fld_setFld_eq _ F.KEY_TBL_COUNT.COUNT 0 _ (by decide) (Nat.add_lt_of_lt_sub hcount)
  · have hpinned := hu.pinned
    rw [State.keyStatus_keys, State.modInc_keys] at hpinned
    exact (State.keyEntry_congr_pinned hidx hpinned).trans (State.keyEntry_setPinned _ hidx)
  · rw [hu.pinned, State.keyStatus_keys, State.modInc_keys, State.setPinned, State.putKeys_keys, Tbl.get_set_ne _ _ _ hi.symm]

end

/-! ## The effects of REVOKE and READ (R330) -/

section
variable {s : State} {c : KeyCmd}

theorem State.keyRun_revoke (hop : c.op = 2) (hidx : 1 ≤ c.idx ∧ c.idx ≤ 4095) : s.keyRun c
    = if (s.keyEntry c.idx).valid then (s.revokeEntry c.idx).keyStatus ktOk ((s.keyEntry c.idx).ver + 1)
      else s.keyStatus ktAbsent (s.keyEntry c.idx).ver := by
  rw [State.keyRun, if_neg (by omega), if_pos hop, State.keyRevoke, State.keyReach_pinned hidx, Bool.true_and]

theorem completes_revoke (hcmd : s.keys.cmd = some c) (hop : c.op = 2) (hidx : 1 ≤ c.idx ∧ c.idx ≤ 4095)
    (hvalid : (s.keyEntry c.idx).valid = true) :
    Completes .keyCommandDone s (fun u => (u.fld F.KEY_TBL_STAT.STATUS 0 = 0 ∧ u.fld F.KEY_TBL_STAT.BUSY 0 = 0 ∧ u.keys.cmd = none
      ∧ ∀ i < 8, u.rd .KEY_TBL_IN i = 0) ∧ u.fld F.KEY_TBL_COUNT.COUNT 0 = s.fld F.KEY_TBL_COUNT.COUNT 0 - 1
      ∧ u.keyEntry c.idx = { s.keyEntry c.idx with valid := false, ver := (s.keyEntry c.idx).ver + 1 }
      ∧ u.fld F.KEY_TBL_STAT.VER 0 = ((s.keyEntry c.idx).ver + 1).toNat) := by
  have hrun := (State.keyRun_revoke hop hidx).trans (if_pos hvalid)
  rw [State.revokeEntry_pinned hidx] at hrun
  refine completes_keyCommandDone_status hcmd (by decide) hrun fun u hu => ⟨?_, ?_, ?_⟩
  · rw [hu.count, State.keyStatus, State.fld_setFld_reg_ne _ _ _ _ _ _ (by decide), State.fld_setFld_reg_ne _ _ _ _ _ _ (by decide)]
    exact State.fld_setFld_eq _ _ _ _ (by decide) (Nat.lt_of_le_of_lt (Nat.sub_le _ _) (s.fld_lt _ _))
  · have hpinned := hu.pinned
    rw [State.keyStatus_keys, State.setFld_keys] at hpinned
    exact (State.keyEntry_congr_pinned hidx hpinned).trans (State.keyEntry_setPinned _ hidx)
  · exact hu.ver.trans (State.keyStatus_spec _ _ (by decide)).2.1

theorem completes_revoke_absent (hcmd : s.keys.cmd = some c) (hop : c.op = 2) (hidx : 1 ≤ c.idx ∧ c.idx ≤ 4095)
    (hvalid : (s.keyEntry c.idx).valid = false) :
    Completes .keyCommandDone s (fun u => (u.fld F.KEY_TBL_STAT.STATUS 0 = 2 ∧ u.fld F.KEY_TBL_STAT.BUSY 0 = 0 ∧ u.keys.cmd = none
      ∧ ∀ i < 8, u.rd .KEY_TBL_IN i = 0) ∧ u.keyEntry c.idx = s.keyEntry c.idx) :=
  completes_keyCommandDone_status hcmd (by decide) ((State.keyRun_revoke hop hidx).trans (if_neg (by simp [hvalid])))
    fun _ hu => State.keyEntry_congr_pinned hidx hu.pinned

/-- KEY_TBL_ATTR as READ leaves it: the attributes of the entry without VALID and VER. -/
def KeyEntry.attrShown (e : KeyEntry) : Word := BitVec.ofNat 32
  (e.owner.toNat + b2n e.long * 2 ^ 16 + b2n e.enc * 2 ^ 17 + b2n e.dec * 2 ^ 18 + b2n e.gate * 2 ^ 19)

theorem KeyEntry.attrShown_toNat (e : KeyEntry) : e.attrShown.toNat
    = e.owner.toNat + b2n e.long * 2 ^ 16 + b2n e.enc * 2 ^ 17 + b2n e.dec * 2 ^ 18 + b2n e.gate * 2 ^ 19 := by
  have howner := e.owner.isLt
  have hlong := b2n_lt_two e.long
  have henc := b2n_lt_two e.enc
  have hdec := b2n_lt_two e.dec
  have hgate := b2n_lt_two e.gate
  rw [KeyEntry.attrShown, BitVec.toNat_ofNat]
  omega

theorem KeyEntry.attrShown_owner (e : KeyEntry) : e.attrShown.toNat % 2 ^ 16 = e.owner.toNat := by
  have howner := e.owner.isLt
  rw [KeyEntry.attrShown_toNat]
  omega

theorem KeyEntry.attrShown_enc (e : KeyEntry) : bit e.attrShown.toNat 17 = e.enc := by
  have howner := e.owner.isLt
  have hlong := b2n_lt_two e.long
  have henc := b2n_lt_two e.enc
  have hbit : e.attrShown.toNat / 2 ^ 17 % 2 = b2n e.enc := by
    rw [KeyEntry.attrShown_toNat]
    omega
  rw [bit, Nat.testBit_eq_decide_div_mod_eq, hbit, Bool.eq_iff_iff, decide_eq_true_iff]
  exact b2n_eq_one e.enc

theorem State.keyRun_read (hop : c.op = 3) (hidx : 1 ≤ c.idx ∧ c.idx ≤ 4095) : s.keyRun c
    = (s.wr .KEY_TBL_ATTR 0 (s.keyEntry c.idx).attrShown).keyStatus (if (s.keyEntry c.idx).valid then ktOk else ktAbsent)
        (s.keyEntry c.idx).ver := by
  rw [State.keyRun, if_neg (by omega), if_neg (by omega), State.keyReadCmd, if_neg (by omega),
    if_neg (by rw [State.keyReach_pinned hidx]; decide)]
  rfl

theorem completes_keyRead (hcmd : s.keys.cmd = some c) (hop : c.op = 3) (hidx : 1 ≤ c.idx ∧ c.idx ≤ 4095) :
    Completes .keyCommandDone s (fun u => (u.fld F.KEY_TBL_STAT.STATUS 0 = (if (s.keyEntry c.idx).valid then 0 else 2)
      ∧ u.fld F.KEY_TBL_STAT.BUSY 0 = 0 ∧ u.keys.cmd = none ∧ ∀ i < 8, u.rd .KEY_TBL_IN i = 0)
      ∧ u.fld F.KEY_TBL_STAT.VER 0 = (s.keyEntry c.idx).ver.toNat ∧ (u.rd .KEY_TBL_ATTR 0).toNat % 2 ^ 16 = (s.keyEntry c.idx).owner.toNat
      ∧ bit (u.rd .KEY_TBL_ATTR 0).toNat 17 = (s.keyEntry c.idx).enc ∧ u.keyEntry c.idx = s.keyEntry c.idx) := by
  have hst : (if (s.keyEntry c.idx).valid then ktOk else ktAbsent) < 8 := by split <;> decide
  obtain ⟨-, hver, hwords⟩ := (s.wr .KEY_TBL_ATTR 0 (s.keyEntry c.idx).attrShown).keyStatus_spec (s.keyEntry c.idx).ver hst
  refine completes_keyCommandDone_status (st := if (s.keyEntry c.idx).valid then ktOk else ktAbsent) hcmd hst
    (State.keyRun_read hop hidx) fun u hu => ?_
  have hattr : u.rd .KEY_TBL_ATTR 0 = (s.keyEntry c.idx).attrShown := by
    rw [hu.words _ _ (by decide) (by decide), hwords _ _ (by decide), State.rd_wr_same]
  rw [hattr]
  exact ⟨hu.ver.trans hver, KeyEntry.attrShown_owner _, KeyEntry.attrShown_enc _, State.keyEntry_congr_pinned hidx hu.pinned⟩

end

/-- Settles O38: the start by `completes_keyCmdWrite`, and each end by the lemma of the command's effect with its status. -/
theorem keyTable : Obligations.KeyTable := by
  unfold Obligations.KeyTable
  intro s c stat busy old count a go ends pinned usable
  refine ⟨completes_keyCmdWrite (op := 1) rfl (by decide), completes_keyCmdWrite (op := 2) rfl (by decide),
    completes_keyCmdWrite (op := 3) rfl (by decide),
    fun hcmd => ⟨completes_install_badArg hcmd, completes_install_noDie hcmd, completes_install_inUse hcmd, completes_install hcmd,
      fun hop hidx hvalid _ => completes_revoke hcmd hop hidx hvalid, completes_revoke_absent hcmd, completes_keyRead hcmd⟩⟩

end Sys2Proof.Machine
end

section
namespace Sys2Proof.Machine

/-! ## What the Die's own work leaves (R334 to R336, R516) -/

/-- The registers of the Die. -/
def dieReg : Reg → Bool
  | .HDW_DIE_STATUS | .HDW_DIE_CTL => true
  | _ => false

/-- The Die's registers and KTK are as they were. -/
structure DieKept (s t : State) : Prop where
  words : ∀ r i, dieReg r = true → t.rd r i = s.rd r i
  ktk : t.keys.ktk = s.keys.ktk

section
variable {s t u : State}

theorem DieKept.refl (s : State) : DieKept s s := ⟨fun _ _ _ => rfl, rfl⟩

theorem DieKept.trans (h : DieKept s t) (k : DieKept t u) : DieKept s u :=
  ⟨fun r i hr => (k.words r i hr).trans (h.words r i hr), k.ktk.trans h.ktk⟩

theorem DieKept.fld (h : DieKept s t) (f : Fld) (i : Nat) (hf : dieReg f.reg = true) : t.fld f i = s.fld f i := by
  rw [State.fld, h.words _ _ hf, ← State.fld]

theorem DieKept.wr {r i v} (h : DieKept s t) (hr : dieReg r = false) : DieKept s (t.wr r i v) := by
  refine h.trans ⟨fun q j hq => State.rd_wr_ne _ _ _ _ _ _ ?_, rfl⟩
  rintro ⟨rfl, -⟩
  exact absurd hq (by simp [hr])

theorem DieKept.of_parts (h : DieKept s t) (hregs : u.regs = t.regs) (hktk : u.keys.ktk = t.keys.ktk) : DieKept s u :=
  h.trans ⟨fun r i _ => State.rd_of_regs hregs r i, hktk⟩

theorem DieKept.foldl {α : Type} {f : State → α → State} {l : List α} (h : DieKept s t) (hf : ∀ {u x}, DieKept s u → DieKept s (f u x)) :
    DieKept s (l.foldl f t) := by
  induction l generalizing t with
  | nil => exact h
  | cons x l ih => exact ih (hf h)

theorem eventReg_of_dieReg {r : Reg} (h : dieReg r = true) : eventReg r = false := by
  unfold dieReg at h
  split at h
  · rfl
  · rfl
  · cases h

theorem State.keys_event (s : State) (chip blk code sev data : Nat) : (s.event chip blk code sev data).keys = s.keys :=
  State.keys_eventAt _ _ _ _ _ _ _ _ _

theorem DieKept.event {chip blk code sev data} (h : DieKept s t) : DieKept s (t.event chip blk code sev data) := by
  obtain ⟨-, hwords⟩ := t.sameButEvents_event chip blk code sev data
  exact h.trans ⟨fun r i hr => hwords r i (eventReg_of_dieReg hr), congrArg KeyUnit.ktk (t.keys_event chip blk code sev data)⟩

theorem DieKept.setFld {f i v} (h : DieKept s t) (hf : dieReg f.reg = false) : DieKept s (t.setFld f i v) := h.wr hf

theorem DieKept.draw (h : DieKept s t) : DieKept s t.draw := h.of_parts rfl rfl

theorem DieKept.dieUsed {n} (h : DieKept s t) : DieKept s (t.dieUsed n) := h.of_parts rfl rfl

theorem DieKept.withTrust {x} (h : DieKept s t) : DieKept s { t with trust := x } := h.of_parts rfl rfl

theorem DieKept.nonceDraw (h : DieKept s t) : DieKept s t.nonceDraw := by
  rw [State.nonceDraw]
  split
  · have hdrawn : DieKept s ((List.range 8).foldl (fun s i => (s.wr .HDW_LC_NONCE i (Config.dieWord s.free)).draw) (t.dieUsed 8)) :=
      h.dieUsed.foldl fun hu => (hu.wr rfl).draw
    exact (hdrawn.setFld (f := F.HDW_LC_CHAL.NEW) rfl).withTrust
  · exact h

theorem State.keys_makeReady (s : State) (th : Nat) : (s.makeReady th).keys = s.keys := by
  rw [State.makeReady]
  dsimp only
  split <;> rfl

theorem DieKept.dieWake (h : DieKept s t) : DieKept s t.dieWake :=
  h.nonceDraw.foldl fun hu => hu.of_parts (State.makeReady_regs _ _) (congrArg KeyUnit.ktk (State.keys_makeReady _ _))

end

/-! ## A failed health test (R336) -/

section
variable {s : State} {rct apt : Bool}

/-- A one-bit field is set where a condition holds. -/
def State.setIf (s : State) (c : Bool) (f : Fld) (i : Nat) : State := if c then s.setFld f i 1 else s

theorem State.fld_setIf (s : State) {c : Bool} {f : Fld} (i : Nat) (h : f.lo = f.hi ∧ f.hi < 32) (hc : c = true) :
    (s.setIf c f i).fld f i = 1 := by
  rw [State.setIf, if_pos hc]
  exact State.fld_setFld_eq _ _ _ _ (by omega) (Nat.one_lt_two_pow (by omega))

theorem State.keys_setIf (s : State) (c : Bool) (f : Fld) (i : Nat) : (s.setIf c f i).keys = s.keys := by
  cases c <;> rfl

theorem State.fld_setIf_reg_ne (s : State) (c : Bool) {f g : Fld} (i j : Nat) (h : f.reg ≠ g.reg) : (s.setIf c f i).fld g j = s.fld g j := by
  rw [State.setIf]
  split
  · exact State.fld_setFld_reg_ne _ _ _ _ _ _ h
  · rfl

theorem State.fld_setIf_bits_ne (s : State) (c : Bool) {f g : Fld} (i : Nat) (h : f.lo ≤ f.hi ∧ f.hi < 32) (hd : f.hi < g.lo ∨ g.hi < f.lo) :
    (s.setIf c f i).fld g i = s.fld g i := by
  rw [State.setIf]
  split
  · exact State.fld_setFld_bits_ne _ _ _ _ _ _ h hd
  · rfl

/-- The Die FAILED, its random buffers empty, with the bits of the tests that failed. -/
def State.dieFailed (s : State) (rct apt : Bool) : State :=
  (((s.putKeys { s.keys with rnd := [] }).setFld F.HDW_DIE_STATUS.STATE 0 2).setIf rct F.HDW_DIE_STATUS.RCT_FAIL 0).setIf apt
    F.HDW_DIE_STATUS.APT_FAIL 0

theorem State.dieFail_kept (s : State) (rct apt : Bool) : DieKept (s.dieFailed rct apt) (s.dieFail rct apt) := (DieKept.refl _).event.dieWake

theorem State.keys_dieFailed (s : State) (rct apt : Bool) : (s.dieFailed rct apt).keys = { s.keys with rnd := [] } := by
  rw [State.dieFailed, State.keys_setIf, State.keys_setIf, State.setFld_keys, State.putKeys_keys]

theorem State.dieFail_spec (s : State) (rct apt : Bool) : (s.dieFail rct apt).fld F.HDW_DIE_STATUS.STATE 0 = 2
    ∧ (rct = true → (s.dieFail rct apt).fld F.HDW_DIE_STATUS.RCT_FAIL 0 = 1)
    ∧ (apt = true → (s.dieFail rct apt).fld F.HDW_DIE_STATUS.APT_FAIL 0 = 1) ∧ (s.dieFail rct apt).keys.ktk = s.keys.ktk := by
  have hkept := s.dieFail_kept rct apt
  refine ⟨?_, fun hrct => ?_, fun hapt => ?_, by rw [hkept.ktk, s.keys_dieFailed]⟩
  · rw [hkept.fld _ _ rfl, State.dieFailed, State.fld_setIf_bits_ne _ _ _ (by decide) (by decide),
      State.fld_setIf_bits_ne _ _ _ (by decide) (by decide)]
    exact State.fld_setFld_eq _ _ _ _ (by decide) (by decide)
  · rw [hkept.fld _ _ rfl, State.dieFailed, State.fld_setIf_bits_ne _ _ _ (by decide) (by decide)]
    exact State.fld_setIf _ _ (by decide) hrct
  · rw [hkept.fld _ _ rfl]
    exact State.fld_setIf _ _ (by decide) hapt

theorem State.restart_dieFail (s : State) (rct apt : Bool) :
    (s.dieFail rct apt).fld F.HDW_DIE_CTL.RESTART 0 = s.fld F.HDW_DIE_CTL.RESTART 0 := by
  rw [(s.dieFail_kept rct apt).fld _ _ rfl]
  rw [State.dieFailed, State.fld_setIf_reg_ne _ _ _ _ (by decide), State.fld_setIf_reg_ne _ _ _ _ (by decide),
    State.fld_setFld_reg_ne _ _ _ _ _ _ (by decide), State.fld_of_regs (State.putKeys_regs _ _)]

theorem completes_dieHealthFail (hok : s.fld F.HDW_DIE_STATUS.STATE 0 = 1) (hfail : (rct || apt) = true) :
    Completes (.dieHealthFail rct apt) s (fun u => u.fld F.HDW_DIE_STATUS.STATE 0 = 2
      ∧ (rct = true → u.fld F.HDW_DIE_STATUS.RCT_FAIL 0 = 1) ∧ (apt = true → u.fld F.HDW_DIE_STATUS.APT_FAIL 0 = 1)
      ∧ u.keys.ktk = s.keys.ktk) :=
  .of_eq (congrArg done (if_pos ⟨hok, hfail⟩)) (s.dieFail_spec rct apt)

end

/-! ## A restart and its end (R328, R336) -/

section
variable {s : State} {rct apt : Bool}

theorem completes_dieRestart (hup : s.reachable 0 = true) :
    Completes .dieRestart s (fun u => u.fld F.HDW_DIE_CTL.RESTART 0 = 1 ∧ OnlyRegs (s.putReply .ok) u [(.HDW_DIE_CTL, 0)]) :=
  .of_eq (congrArg done (s.atChip_reachable 0 _ hup)) ⟨s.fld_setFld_eq F.HDW_DIE_CTL.RESTART 0 1 (by decide) (by decide),
    ((OnlyRegs.refl s _).setFld F.HDW_DIE_CTL.RESTART 0 1 (.head _)).answer .ok⟩

theorem State.dieBytes_spec (n : Nat) (s : State) : (State.dieBytes s n).1.length = 4 * n ∧ (State.dieBytes s n).2.regs = s.regs := by
  induction n generalizing s with
  | zero => exact ⟨rfl, rfl⟩
  | succ n ih =>
    obtain ⟨hlength, hregs⟩ := ih s.draw
    refine ⟨?_, hregs⟩
    rw [State.dieBytes, List.length_append, length_beBytes, hlength]
    omega

/-- KTK is drawn into 32 bytes, with no register touched (R328). -/
theorem State.drawKtk_spec (s : State) : s.drawKtk.keys.ktk.map List.length = some 32 ∧ s.drawKtk.regs = s.regs := by
  obtain ⟨hlength, hregs⟩ := State.dieBytes_spec 8 (s.dieUsed 8)
  rw [State.drawKtk]
  exact ⟨congrArg some hlength, hregs⟩

/-- The Die OK and seeded, with RESTART 0: its start-up tests have passed. -/
def State.dieStarted (s : State) : State := (s.setFld F.HDW_DIE_CTL.RESTART 0 0).seed.setFld F.HDW_DIE_STATUS.STATE 0 1

theorem State.dieStarted_spec (s : State) : s.dieStarted.fld F.HDW_DIE_STATUS.STATE 0 = 1 ∧ s.dieStarted.fld F.HDW_DIE_CTL.RESTART 0 = 0 := by
  refine ⟨State.fld_setFld_eq _ _ _ _ (by decide) (by decide), ?_⟩
  rw [State.dieStarted, State.fld_setFld_reg_ne _ _ _ _ _ _ (by decide)]
  exact State.fld_setFld_eq s F.HDW_DIE_CTL.RESTART 0 0 (by decide) (by decide)

theorem exec_dieRestartDone_fails (h : s.fld F.HDW_DIE_CTL.RESTART 0 = 1) (hfail : (rct || apt) = true) :
    exec (.dieRestartDone rct apt) s = done ((s.setFld F.HDW_DIE_CTL.RESTART 0 0).dieFail rct apt) :=
  (if_neg fun hidle => by simp [State.flag, h] at hidle).trans (if_pos hfail)

theorem exec_dieRestartDone_passes (h : s.fld F.HDW_DIE_CTL.RESTART 0 = 1 ∨ s.fld F.HDW_DIE_STATUS.STATE 0 = 0) :
    exec (.dieRestartDone false false) s
      = done (if s.dieState == 0 then s.dieStarted.drawKtk else s.dieStarted).dieWake := by
  have hruns : ¬ (s.flag F.HDW_DIE_CTL.RESTART 0 = false ∧ s.dieState ≠ 0) := by
    rintro ⟨hno, hstate⟩
    rcases h with h | h
    · simp [State.flag, h] at hno
    · exact hstate h
  exact (if_neg hruns).trans rfl

theorem completes_dieRestartDone_fails (h : s.fld F.HDW_DIE_CTL.RESTART 0 = 1) (hfail : (rct || apt) = true) :
    Completes (.dieRestartDone rct apt) s (fun u => u.fld F.HDW_DIE_STATUS.STATE 0 = 2 ∧ u.fld F.HDW_DIE_CTL.RESTART 0 = 0) := by
  obtain ⟨hstate, -⟩ := (s.setFld F.HDW_DIE_CTL.RESTART 0 0).dieFail_spec rct apt
  refine .of_eq (exec_dieRestartDone_fails h hfail) ⟨hstate, ?_⟩
  rw [State.restart_dieFail]
  exact State.fld_setFld_eq _ _ _ _ (by decide) (by decide)

/-- A restart after the first start keeps KTK. -/
theorem completes_dieRestartDone_again (h : s.fld F.HDW_DIE_CTL.RESTART 0 = 1) (hstate : s.fld F.HDW_DIE_STATUS.STATE 0 ≠ 0) :
    Completes (.dieRestartDone false false) s (fun u => u.fld F.HDW_DIE_STATUS.STATE 0 = 1 ∧ u.fld F.HDW_DIE_CTL.RESTART 0 = 0
      ∧ u.keys.ktk = s.keys.ktk) := by
  obtain ⟨hok, hrestart⟩ := s.dieStarted_spec
  have hkept := (DieKept.refl s.dieStarted).dieWake
  have hexec := exec_dieRestartDone_passes (.inl h)
  rw [if_neg (show ¬ (s.dieState == 0) = true from fun h => hstate (beq_iff_eq.mp h))] at hexec
  exact .of_eq hexec ⟨(hkept.fld _ _ rfl).trans hok, (hkept.fld _ _ rfl).trans hrestart, hkept.ktk⟩

/-- The first start draws KTK (R328). -/
theorem completes_dieRestartDone_first (hstate : s.fld F.HDW_DIE_STATUS.STATE 0 = 0) :
    Completes (.dieRestartDone false false) s (fun u => u.fld F.HDW_DIE_STATUS.STATE 0 = 1
      ∧ u.keys.ktk.map List.length = some 32) := by
  obtain ⟨hok, -⟩ := s.dieStarted_spec
  obtain ⟨hktk, hregs⟩ := s.dieStarted.drawKtk_spec
  have hkept := (DieKept.refl s.dieStarted.drawKtk).dieWake
  have hexec := exec_dieRestartDone_passes (s := s) (.inr hstate)
  rw [if_pos (show (s.dieState == 0) = true from beq_iff_eq.mpr hstate)] at hexec
  refine .of_eq hexec ⟨?_, ?_⟩
  · rw [hkept.fld _ _ rfl, State.fld_of_regs hregs, hok]
  · rw [hkept.ktk, hktk]

end

/-! ## A reseed (R334) -/

section
variable {s : State}

theorem State.seeds_reseed (s : State) : (s.reseed.rd .HDW_DIE_RESEEDS 0).toNat
    = if s.fld F.HDW_DIE_STATUS.STATE 0 = 1 then Nat.min (2 ^ 32 - 1) ((s.rd .HDW_DIE_RESEEDS 0).toNat + 1)
      else (s.rd .HDW_DIE_RESEEDS 0).toNat := by
  rw [State.reseed]
  refine (apply_ite (fun u : State => (u.rd .HDW_DIE_RESEEDS 0).toNat) _ _ _).trans (if_congr Iff.rfl ?_ rfl)
  exact s.seed.toNat_rd_satInc (f := F.HDW_DIE_RESEEDS.COUNT) 0 (by decide)

theorem State.reseedDue_iff : s.reseedDue = true ↔ 2 ^ 20 ≤ s.keys.gens ∨ 10 ^ 9 ≤ s.time.tick - s.keys.seeded := by
  rw [State.reseedDue, Bool.or_eq_true, decide_eq_true_iff, decide_eq_true_iff]

theorem State.reseed_ok (hok : s.fld F.HDW_DIE_STATUS.STATE 0 = 1) : s.reseed = s.seed.satInc F.HDW_DIE_RESEEDS.COUNT 0 1 := if_pos hok

theorem completes_drbgReseed (hok : s.fld F.HDW_DIE_STATUS.STATE 0 = 1)
    (hdue : 2 ^ 20 ≤ s.keys.gens ∨ 10 ^ 9 ≤ s.time.tick - s.keys.seeded) :
    Completes .drbgReseed s (fun u => OnlyRegs s.seed u [(.HDW_DIE_RESEEDS, 0)] ∧ u.keys.gens = 0
      ∧ (u.rd .HDW_DIE_RESEEDS 0).toNat = Nat.min (2 ^ 32 - 1) ((s.rd .HDW_DIE_RESEEDS 0).toNat + 1)) := by
  refine .of_eq (congrArg done (s.when_true _ (State.reseedDue_iff.mpr hdue))) ⟨?_, ?_, s.seeds_reseed.trans (if_pos hok)⟩
  · rw [State.reseed_ok hok]
    exact (OnlyRegs.refl _ _).setFld F.HDW_DIE_RESEEDS.COUNT 0 _ (.head _)
  · rw [State.reseed_ok hok]
    rfl

theorem completes_drbgReseed_idle (h : s.fld F.HDW_DIE_STATUS.STATE 0 ≠ 1
      ∨ ¬ (2 ^ 20 ≤ s.keys.gens ∨ 10 ^ 9 ≤ s.time.tick - s.keys.seeded)) : Completes .drbgReseed s (fun u => u = s) := by
  refine .of_eq (t := s.when s.reseedDue State.reseed) rfl ?_
  rw [State.when]
  split
  case isTrue hdue => exact if_neg (h.resolve_right fun hno => hno (State.reseedDue_iff.mp hdue))
  case isFalse => rfl

end

/-! ## The epoch mark (R506) -/

section
variable {s t u : State} {all : Bool} {b x : Nat}

/-- The ways of a set after an epoch mark: those used since the last one stay, or none. -/
def agedWays (all : Bool) (l : List KeyWay) : List KeyWay :=
  if all then [] else (l.filter (fun w => w.used)).map (fun w => { w with used := false })

/-- An epoch mark at one set of a Board's key cache. -/
def State.markSet (all : Bool) (b : Nat) (s : State) (x : Nat) : State :=
  match s.keySet b x with
  | [] => s
  | l => s.setKeySet b x (agedWays all l)

theorem State.epochMark_live (h : s.isFenced (8 + b) = false) : State.epochMark all s b = (List.range 1024).foldl (State.markSet all b) s :=
  if_neg (by rw [boardChip, h]; decide)

/-- Nothing but the key caches has changed. -/
def CachesOnly (s t : State) : Prop := t = s.putKeys { s.keys with cache := t.keys.cache }

theorem CachesOnly.refl (s : State) : CachesOnly s s := rfl

theorem CachesOnly.setKeySet {l} (h : CachesOnly s t) : CachesOnly s (t.setKeySet b x l) := by
  rw [CachesOnly] at h ⊢
  rw [State.setKeySet, h]
  rfl

theorem CachesOnly.foldl {α : Type} {f : State → α → State} {l : List α} (h : CachesOnly s t)
    (hf : ∀ {u y}, CachesOnly s u → CachesOnly s (f u y)) : CachesOnly s (l.foldl f t) := by
  induction l generalizing t with
  | nil => exact h
  | cons y l ih => exact ih (hf h)

theorem CachesOnly.markSet (h : CachesOnly s t) : CachesOnly s (State.markSet all b t x) := by
  rw [State.markSet]
  split
  · exact h
  · exact h.setKeySet

theorem CachesOnly.epochMark (h : CachesOnly s t) : CachesOnly s (State.epochMark all t b) := by
  by_cases hfenced : t.isFenced (8 + b) = true
  · rwa [show State.epochMark all t b = t from if_pos hfenced]
  · rw [State.epochMark_live (Bool.eq_false_iff.mpr hfenced)]
    exact h.foldl fun hu => hu.markSet

theorem CachesOnly.isFenced (h : CachesOnly s t) (chip : Nat) : t.isFenced chip = s.isFenced chip := by rw [h]; rfl

/-- A part of the state that no step of a fold touches. -/
theorem foldl_same {α β : Type} {f : State → α → State} {g : State → β} {l : List α} (h : ∀ s, ∀ y ∈ l, g (f s y) = g s) (s : State) :
    g (l.foldl f s) = g s := by
  induction l generalizing s with
  | nil => rfl
  | cons y l ih => exact (ih (fun s z hz => h s z (.tail _ hz)) (f s y)).trans (h s y (.head _))

/-- A part of the state that the step of one element updates, and no other step touches, is updated once. -/
theorem foldl_updates_once {α β : Type} {f : State → α → State} {g : State → β} {upd : β → β} {inv : State → Prop} {a : α} {l : List α}
    (hinv : ∀ s y, inv s → inv (f s y)) (hhit : ∀ s, inv s → g (f s a) = upd (g s)) (hmiss : ∀ s, ∀ y ∈ l, y ≠ a → g (f s y) = g s)
    (hl : l.Nodup) (ha : a ∈ l) (hs : inv s) : g (l.foldl f s) = upd (g s) := by
  induction l generalizing s with
  | nil => cases ha
  | cons y l ih =>
    obtain ⟨hy, hl⟩ := List.nodup_cons.mp hl
    have hmissRest : ∀ s, ∀ z ∈ l, z ≠ a → g (f s z) = g s := fun s z hz => hmiss s z (.tail _ hz)
    rcases List.mem_cons.mp ha with rfl | ha
    · exact (foldl_same (fun s z hz => hmissRest s z hz (by rintro rfl; exact hy hz)) (f s a)).trans (hhit s hs)
    · exact (ih hmissRest hl ha (hinv s y hs)).trans (congrArg upd (hmiss s y (.head _) (by rintro rfl; exact hy ha)))

theorem State.keySet_setKeySet_ne (s : State) {b c x y : Nat} (l : List KeyWay) (h : b * 1024 + x ≠ c * 1024 + y) :
    (s.setKeySet b x l).keySet c y = s.keySet c y := Tbl.get_set_ne _ _ _ h

theorem State.keySet_markSet_same (s : State) : (State.markSet all b s x).keySet b x = agedWays all (s.keySet b x) := by
  rw [State.markSet]
  split
  case h_1 hnil => rw [hnil, agedWays]; simp
  case h_2 => exact State.keySet_setKeySet _ _ _ _

theorem State.keySet_markSet_ne (s : State) {c y : Nat} (h : b * 1024 + x ≠ c * 1024 + y) :
    (State.markSet all b s x).keySet c y = s.keySet c y := by
  rw [State.markSet]
  split
  · rfl
  · exact State.keySet_setKeySet_ne _ _ h

theorem State.keySet_epochMark_same (hlive : s.isFenced (8 + b) = false) (hx : x < 1024) :
    (State.epochMark all s b).keySet b x = agedWays all (s.keySet b x) := by
  rw [State.epochMark_live hlive]
  exact foldl_updates_once (g := fun u => u.keySet b x) (inv := fun _ => True) (a := x) (fun _ _ _ => trivial)
    (fun u _ => u.keySet_markSet_same) (fun u y _ hy => u.keySet_markSet_ne (by omega)) List.nodup_range (List.mem_range.mpr hx) trivial

theorem State.keySet_epochMark_ne (s : State) {c : Nat} (hc : c ≠ b) (hx : x < 1024) :
    (State.epochMark all s c).keySet b x = s.keySet b x := by
  by_cases hfenced : s.isFenced (8 + c) = true
  · rw [show State.epochMark all s c = s from if_pos hfenced]
  · rw [State.epochMark_live (Bool.eq_false_iff.mpr hfenced)]
    exact foldl_same (g := fun u => u.keySet b x) (fun u y hy => u.keySet_markSet_ne (by have := List.mem_range.mp hy; omega)) s

/-- An epoch mark to every Board ages each set of the caches of those that are not fenced. -/
theorem State.keySet_foldl_epochMark (hlive : s.isFenced (8 + b) = false) (hb : b < 8) (hx : x < 1024) :
    ((List.range 8).foldl (State.epochMark all) s).keySet b x = agedWays all (s.keySet b x) :=
  foldl_updates_once (g := fun u => u.keySet b x) (inv := fun u => u.isFenced (8 + b) = false) (a := b)
    (fun u _ hu => ((CachesOnly.refl u).epochMark.isFenced _).trans hu) (fun _ hu => State.keySet_epochMark_same hu hx)
    (fun u _ _ hy => u.keySet_epochMark_ne hy hx) List.nodup_range (List.mem_range.mpr hb) hlive

theorem State.reseed_kept (s : State) : s.reseed.out = s.out ∧ s.reseed.keys.pinned = s.keys.pinned
    ∧ s.reseed.keys.cache = s.keys.cache := by
  rw [State.reseed]
  split
  · exact ⟨rfl, rfl, rfl⟩
  · exact ⟨rfl, rfl, rfl⟩

/-- The arrival of a firing changes only the unit's work, its ford window and the counts of the Tide Table. -/
theorem State.fireArrive_kept (s : State) (v : Unit_) (cls : Nat) (f : Firing) : (s.fireArrive v cls f).keys = s.keys
    ∧ RegsKept s (s.fireArrive v cls f) [(.TTB_FORD_DENY, 0), (.TTB_OVERRUN, 0)] := by
  have hford : ∀ (t : State) (n : Nat), (t.openFord v cls f n).keys = t.keys
      ∧ RegsKept t (t.openFord v cls f n) [(.TTB_FORD_DENY, 0), (.TTB_OVERRUN, 0)] := by
    intro t n
    rw [State.openFord]
    split
    · exact ⟨rfl, .refl _ _⟩
    · split
      · split
        · exact ⟨rfl, .refl _ _⟩
        · exact ⟨rfl, (RegsKept.refl _ _).setFld F.TTB_FORD_DENY.COUNT 0 _ (.head _)⟩
      · exact ⟨rfl, (RegsKept.refl _ _).of_regs rfl⟩
  rw [State.fireArrive]
  split
  · exact ⟨rfl, .refl _ _⟩
  · dsimp only
    split
    · exact hford _ _
    · exact ⟨rfl, (RegsKept.refl _ _).of_regs rfl⟩
    · exact ⟨rfl, ((RegsKept.refl _ _).of_regs rfl).setFld F.TTB_OVERRUN.COUNT 0 _ (.tail _ (.head _))⟩

/-- The bit of ARG that tells a mark of all entries counts in class 0x6 (R74). -/
theorem bit_firingActs_epoch (f : Firing) : bit (firingActs 6 f).arg.toNat 0 = bit f.arg.toNat 0 := by
  change (f.arg &&& ~~~BitVec.ofNat 10 0x3FE).getLsbD 0 = f.arg.getLsbD 0
  rw [BitVec.getLsbD_and, show (~~~BitVec.ofNat 10 0x3FE).getLsbD 0 = true by decide, Bool.and_true]

theorem State.fireTake_kept (s : State) (v : Unit_) (cls : Nat) (f : Firing) : (s.fireTake v cls f).regs = s.regs
    ∧ (s.fireTake v cls f).keys = s.keys := by
  rw [State.fireTake, State.putTide_regs, State.putTide_keys]
  exact ⟨rfl, rfl⟩

theorem State.workEnd_kept (s : State) (v : Unit_) (cls : Nat) : (s.workEnd v cls).regs = s.regs ∧ (s.workEnd v cls).keys = s.keys
    ∧ (s.workEnd v cls).out = s.out := by
  obtain ⟨x, hend⟩ := s.workEnd_eq v cls
  rw [hend, State.putTide_regs, State.putTide_keys, State.putTide_out, State.setUnitWork, State.putTide_regs, State.putTide_keys,
    State.putTide_out]
  exact ⟨rfl, rfl, rfl⟩

theorem State.keySet_congr (h : t.keys = s.keys) (b x : Nat) : t.keySet b x = s.keySet b x := by rw [State.keySet, h, State.keySet]

/-- What an epoch mark at Headwater leaves: the caches of the live Boards aged, DIE_RESEEDS counted, the pinned entries as they were. -/
structure EpochMarked (all : Bool) (s u : State) : Prop where
  sent : Msg.epochMark ∈ u.out
  seeds : (u.rd .HDW_DIE_RESEEDS 0).toNat = (if s.fld F.HDW_DIE_STATUS.STATE 0 = 1
    then Nat.min (2 ^ 32 - 1) ((s.rd .HDW_DIE_RESEEDS 0).toNat + 1) else (s.rd .HDW_DIE_RESEEDS 0).toNat)
  pinned : u.keys.pinned = s.keys.pinned
  sets : ∀ b < 8, ∀ x < 1024, s.isFenced (8 + b) = false → u.keySet b x = agedWays all (s.keySet b x)

/-- The work of a class 0x6 firing (R506). -/
theorem State.keyEpoch_spec (s : State) (f : Firing) : EpochMarked (bit f.arg.toNat 0) s (s.keyEpoch f) := by
  obtain ⟨t, ht⟩ : ∃ t, t = (List.range 8).foldl (State.epochMark (bit f.arg.toNat 0)) (s.emit .epochMark) := ⟨_, rfl⟩
  have hcaches : CachesOnly (s.emit .epochMark) t := ht ▸ (CachesOnly.refl _).foldl fun hu => hu.epochMark
  have hregs : t.regs = s.regs := by rw [hcaches]; rfl
  obtain ⟨hout, hpinned, hcache⟩ := t.reseed_kept
  rw [State.keyEpoch, ← ht]
  refine ⟨?_, ?_, ?_, fun b hb x hx hlive => ?_⟩
  · rw [hout, hcaches]
    exact List.mem_append_right _ (.head _)
  · rw [State.seeds_reseed, State.fld_of_regs hregs, State.rd_of_regs hregs]
  · rw [hpinned, hcaches]
    rfl
  · rw [State.keySet, hcache, ← State.keySet, ht]
    exact State.keySet_foldl_epochMark (s := s.emit .epochMark) hlive hb hx

/-- The mark counts the same from a state that differs outside the key unit and the registers the mark reads. -/
theorem EpochMarked.of_before (h : EpochMarked all t u) (hkeys : t.keys = s.keys)
    (hwords : RegsKept s t [(.TTB_FORD_DENY, 0), (.TTB_OVERRUN, 0)]) : EpochMarked all s u := by
  refine ⟨h.sent, ?_, h.pinned.trans (congrArg KeyUnit.pinned hkeys), fun b hb x hx hlive => ?_⟩
  · rw [h.seeds, hwords.fld F.HDW_DIE_STATUS.STATE 0 (by decide), hwords .HDW_DIE_RESEEDS 0 (by decide)]
  · rw [h.sets b hb x hx ?_, State.keySet_congr hkeys]
    rwa [State.isFenced, hwords.fld F.HDW_BOOT_STAT.FENCED 0 (by decide), ← State.isFenced]

theorem EpochMarked.of_after (h : EpochMarked all s t) (hregs : u.regs = t.regs) (hkeys : u.keys = t.keys) (hout : u.out = t.out) :
    EpochMarked all s u := by
  refine ⟨hout ▸ h.sent, ?_, ?_, fun b hb x hx hlive => ?_⟩
  · rw [State.rd_of_regs hregs, h.seeds]
  · rw [hkeys, h.pinned]
  · rw [State.keySet_congr hkeys, h.sets b hb x hx hlive]

/-- An epoch firing at Headwater with none at work. -/
theorem completes_keyEpoch {f : Firing} (hidle : s.unitWork .vault 6 = { work := none, pend := none }) (hlive : s.isFenced 0 = false)
    (hdue : s.fireDue .vault 6 f = true) : Completes (.keyEpoch f) s (EpochMarked (bit f.arg.toNat 0) s) := by
  have hexec : exec (.keyEpoch f) s = done ((((s.fireTake .vault 6 f).fireArrive .vault 6 (firingActs 6 f)).keyEpoch
      (firingActs 6 f)).workEnd .vault 6) := congrArg done (State.fireAt_idle (u := .vault) hdue hlive hidle)
  obtain ⟨htakeRegs, htakeKeys⟩ := s.fireTake_kept .vault 6 f
  obtain ⟨hkeys, hwords⟩ := (s.fireTake .vault 6 f).fireArrive_kept .vault 6 (firingActs 6 f)
  generalize (s.fireTake .vault 6 f).fireArrive .vault 6 (firingActs 6 f) = t at hexec hkeys hwords
  have hmarked := t.keyEpoch_spec (firingActs 6 f)
  rw [bit_firingActs_epoch] at hmarked
  obtain ⟨hregsEnd, hkeysEnd, houtEnd⟩ := (t.keyEpoch (firingActs 6 f)).workEnd_kept .vault 6
  refine .of_eq hexec ((hmarked.of_before (hkeys.trans htakeKeys) fun r i hr => ?_).of_after hregsEnd hkeysEnd houtEnd)
  rw [hwords r i hr, State.rd_of_regs htakeRegs]

end

/-- Settles O39: the Die by its lemma per command (what a failure and a wake-up leave by `DieKept`), the epoch mark by
`State.keyEpoch_spec`: each set of a live Board is aged once. -/
theorem dieAndKeyCaches : Obligations.DieAndKeyCaches := by
  unfold Obligations.DieAndKeyCaches
  intro s rct apt f st due seeds
  exact ⟨completes_dieHealthFail, completes_dieRestart,
    fun h => ⟨completes_dieRestartDone_fails h, completes_dieRestartDone_again h⟩, completes_dieRestartDone_first,
    completes_drbgReseed, completes_drbgReseed_idle,
    fun hidle hlive hdue => (completes_keyEpoch hidle hlive hdue).imp fun _ ⟨hexec, h⟩ => ⟨hexec, h.sent, h.seeds, h.pinned, h.sets⟩⟩

end Sys2Proof.Machine
end

section
namespace Sys2Proof.Machine

/-! ## Events of a counter (R350) -/

section
variable {s : State} {n : Nat} {ex : Bool}

/-- An event of a counter changes no word but those of its recording and the count of lost ones, and of the key unit only the queue. -/
theorem State.sqEvent_kept (s : State) (n : Nat) (ex : Bool) : (∃ q, (s.sqEvent n ex).keys = { s.keys with sqEvq := q })
    ∧ ∀ r i, eventReg r = false → .CFL_SQ_EVQ_LOST ≠ r → (s.sqEvent n ex).rd r i = s.rd r i := by
  rw [State.sqEvent]
  split
  · exact ⟨⟨s.keys.sqEvq, rfl⟩, fun r i _ hr => State.rd_setFld_reg_ne _ _ _ _ _ _ hr⟩
  · dsimp only
    split
    · exact ⟨⟨_, State.keys_event _ _ _ _ _ _⟩, fun r i hr _ => (State.sameButEvents_event _ _ _ _ _ _).2 r i hr⟩
    · exact ⟨⟨_, rfl⟩, fun _ _ _ _ => rfl⟩

/-- A queue with room takes the event. -/
theorem State.sqEvq_sqEvent (h : s.keys.sqEvq.length < 1024) : (s.sqEvent n ex).keys.sqEvq = s.keys.sqEvq ++ [(n, ex)] := by
  rw [State.sqEvent, if_neg (by omega)]
  dsimp only
  split
  · rw [State.keys_event]
    rfl
  · rfl

end

/-! ## A read of CFL_SQ_NEXT (R347) -/

section
variable {s : State} {n : BitVec 18} {x : Nat}

theorem State.readAt_reachable (s : State) (chip : Nat) (f : State → Word × State) (h : s.reachable chip = true) :
    s.readAt chip f = (f s).2.answer (.data (f s).1) := if_pos h

theorem exec_sqNextRead {who : Requester} (hup : s.reachable 1 = true) :
    exec (.sqNextRead n who) s = done ((s.sqRead n.toNat (reqKey who)).2.answer (.data (s.sqRead n.toNat (reqKey who)).1)) :=
  congrArg done (s.readAt_reachable 1 _ hup)

theorem State.sqHi_setSqHi (s : State) (x : Nat) (v : Word) : (s.setSqHi x v).sqHi x = v := Tbl.get_set_same _ _ _ _

theorem State.flag_eq_false (s : State) (f : Fld) (i : Nat) (h : s.fld f i = 0) : s.flag f i = false := by rw [State.flag, h]; rfl

theorem State.flag_eq_true (s : State) (f : Fld) (i : Nat) (h : s.fld f i = 1) : s.flag f i = true := by rw [State.flag, h]; rfl

theorem State.sqLimit_mode64 {k : Nat} (h : s.fld F.CFL_SQ_CTL.MODE64 k = 1) : s.sqLimit k = s.rd64 .CFL_SQ_LIMIT .CFL_SQ_LIMIT_HI k :=
  if_pos (s.flag_eq_true _ _ h)

theorem sqNext_lt {v : Nat} (h : v + 2 < 2 ^ 64) : sqNext v < 2 ^ 64 := by
  rw [sqNext]
  split <;> omega

/-- A grant loads the requester's latch with the upper half and moves VAL on. -/
theorem State.sqGrant_spec (s : State) (k x : Nat) (hroom : s.sqVal k + 2 < 2 ^ 64) :
    (s.sqGrant k x).sqHi x = BitVec.ofNat 32 (s.sqVal k / 2 ^ 32) ∧ (s.sqGrant k x).sqVal k = sqNext (s.sqVal k) := by
  obtain ⟨t, ht⟩ : ∃ t, t = (s.setSqHi x (BitVec.ofNat 32 (s.sqVal k / 2 ^ 32))).wr64 .CFL_SQ_VAL .CFL_SQ_VAL_HI k (sqNext (s.sqVal k)) :=
    ⟨_, rfl⟩
  have hhi : t.sqHi x = BitVec.ofNat 32 (s.sqVal k / 2 ^ 32) := by
    rw [State.sqHi, ht, State.wr64_keys]
    exact s.sqHi_setSqHi x _
  have hval : t.sqVal k = sqNext (s.sqVal k) := by
    rw [ht]
    exact State.rd64_wr64 _ k (by decide) (sqNext_lt hroom)
  rw [State.sqGrant, ← ht]
  split
  · obtain ⟨⟨q, hkeys⟩, hwords⟩ := (t.setFld F.CFL_SQ_CTL.SOFT_HIT k 1).sqEvent_kept k false
    refine ⟨?_, ?_⟩
    · rw [State.sqHi, hkeys]
      exact hhi
    · rw [State.sqVal, State.rd64_congr ((hwords _ _ rfl (by decide)).trans (State.rd_setFld_reg_ne _ _ _ _ _ _ (by decide)))
        ((hwords _ _ rfl (by decide)).trans (State.rd_setFld_reg_ne _ _ _ _ _ _ (by decide)))]
      exact hval
  · exact ⟨hhi, hval⟩

theorem completes_sqNextRead_granted (hup : s.reachable 1 = true) (hen : s.fld F.CFL_SQ_CTL.EN n.toNat = 1)
    (hmode : s.fld F.CFL_SQ_CTL.MODE64 n.toNat = 1)
    (hlim : s.rd64 .CFL_SQ_VAL .CFL_SQ_VAL_HI n.toNat ≤ s.rd64 .CFL_SQ_LIMIT .CFL_SQ_LIMIT_HI n.toNat)
    (hroom : s.rd64 .CFL_SQ_VAL .CFL_SQ_VAL_HI n.toNat + 2 < 2 ^ 64) :
    Completes (.sqNextRead n (.thread x)) s (fun u => u.reply = .data (BitVec.ofNat 32 (s.sqVal n.toNat))
      ∧ u.sqHi x = BitVec.ofNat 32 (s.sqVal n.toNat / 2 ^ 32) ∧ u.rd64 .CFL_SQ_VAL .CFL_SQ_VAL_HI n.toNat = sqNext (s.sqVal n.toNat)) := by
  have hread : s.sqRead n.toNat x = (BitVec.ofNat 32 (s.sqVal n.toNat), s.sqGrant n.toNat x) := by
    refine if_neg ?_
    rw [s.flag_eq_true _ _ hen, State.sqLimit_mode64 hmode]
    rintro (hoff | hover)
    · cases hoff
    · exact absurd hlim (Nat.not_le.mpr hover)
  obtain ⟨hhi, hval⟩ := s.sqGrant_spec n.toNat x hroom
  have hexec := exec_sqNextRead (n := n) (who := .thread x) hup
  rw [show reqKey (.thread x) = x from rfl, hread] at hexec
  generalize s.sqGrant n.toNat x = t at hhi hval hexec
  refine .of_eq hexec ⟨rfl, ?_, ?_⟩
  · rw [State.sqHi, State.answer_keys, ← State.sqHi, hhi]
  · rw [State.rd64_congr (State.rd_of_regs (t.answer_regs _) _ _) (State.rd_of_regs (t.answer_regs _) _ _), ← State.sqVal, hval]

/-- A refused read answers zero. -/
theorem exec_sqNextRead_refused (hup : s.reachable 1 = true)
    (h : s.flag F.CFL_SQ_CTL.EN n.toNat = false ∨ s.sqLimit n.toNat < s.sqVal n.toNat) :
    exec (.sqNextRead n (.thread x)) s = done ((s.sqRefuse n.toNat x).answer (.data 0)) := by
  have hread : s.sqRead n.toNat x = (0, s.sqRefuse n.toNat x) := if_pos h
  have hexec := exec_sqNextRead (n := n) (who := .thread x) hup
  rwa [show reqKey (.thread x) = x from rfl, hread] at hexec

theorem completes_sqNextRead_disabled (hup : s.reachable 1 = true) (hen : s.fld F.CFL_SQ_CTL.EN n.toNat = 0) :
    Completes (.sqNextRead n (.thread x)) s (fun u => u.reply = .data 0 ∧ u.sqHi x = 0 ∧ u.regs = s.regs) := by
  have hoff := s.flag_eq_false F.CFL_SQ_CTL.EN n.toNat hen
  have hrefuse : s.sqRefuse n.toNat x = s.setSqHi x 0 :=
    if_neg (by rw [show (s.setSqHi x 0).flag F.CFL_SQ_CTL.EN n.toNat = false from hoff, Bool.false_and]; decide)
  have hexec := exec_sqNextRead_refused (n := n) (x := x) hup (.inl hoff)
  rw [hrefuse] at hexec
  exact .of_eq hexec ⟨rfl, s.sqHi_setSqHi x 0, rfl⟩

/-- The counter has reached its limit: EXHAUSTED, an event, and the revoke of its key is scheduled. -/
theorem State.sqRefuse_exhausts {k : Nat} (hen : s.fld F.CFL_SQ_CTL.EN k = 1) (hrevoke : s.fld F.CFL_SQ_KEY.REVOKE_EN k = 1)
    (hfirst : s.fld F.CFL_SQ_CTL.EXHAUSTED k = 0) :
    ∃ t, t = ((s.setSqHi x 0).setFld F.CFL_SQ_CTL.EXHAUSTED k 1).sqEvent k true
      ∧ s.sqRefuse k x = t.putKeys { t.keys with
          sqRevoke := t.keys.sqRevoke ++ [(k, s.fld F.CFL_SQ_KEY.INDEX k, s.fld F.CFL_SQ_KEY.VER k)] } := by
  refine ⟨_, rfl, ?_⟩
  have hgoes : ((s.setSqHi x 0).flag F.CFL_SQ_CTL.EN k && !(s.setSqHi x 0).flag F.CFL_SQ_CTL.EXHAUSTED k) = true := by
    rw [show (s.setSqHi x 0).flag F.CFL_SQ_CTL.EN k = true from s.flag_eq_true _ _ hen,
      show (s.setSqHi x 0).flag F.CFL_SQ_CTL.EXHAUSTED k = false from s.flag_eq_false _ _ hfirst]
    rfl
  obtain ⟨-, hwords⟩ := ((s.setSqHi x 0).setFld F.CFL_SQ_CTL.EXHAUSTED k 1).sqEvent_kept k true
  have hkey : ∀ f : Fld, f.reg = .CFL_SQ_KEY →
      (((s.setSqHi x 0).setFld F.CFL_SQ_CTL.EXHAUSTED k 1).sqEvent k true).fld f k = s.fld f k := fun f hf => by
    rw [State.fld, hwords _ _ (by rw [hf]; rfl) (by rw [hf]; decide), State.rd_setFld_reg_ne _ _ _ _ _ _ (by rw [hf]; decide)]
    rfl
  rw [State.sqRefuse]
  dsimp only
  rw [if_pos hgoes, if_pos (State.flag_eq_true _ _ _ ((hkey _ rfl).trans hrevoke)), hkey _ rfl, hkey _ rfl]

theorem completes_sqNextRead_exhausted (hup : s.reachable 1 = true) (hen : s.fld F.CFL_SQ_CTL.EN n.toNat = 1)
    (hmode : s.fld F.CFL_SQ_CTL.MODE64 n.toNat = 1)
    (hlim : s.rd64 .CFL_SQ_LIMIT .CFL_SQ_LIMIT_HI n.toNat < s.rd64 .CFL_SQ_VAL .CFL_SQ_VAL_HI n.toNat)
    (hroom : s.keys.sqEvq.length < 1024) (hrevoke : s.fld F.CFL_SQ_KEY.REVOKE_EN n.toNat = 1)
    (hfirst : s.fld F.CFL_SQ_CTL.EXHAUSTED n.toNat = 0) :
    Completes (.sqNextRead n (.thread x)) s (fun u => u.reply = .data 0 ∧ u.sqHi x = 0 ∧ u.fld F.CFL_SQ_CTL.EXHAUSTED n.toNat = 1
      ∧ u.keys.sqEvq = s.keys.sqEvq ++ [(n.toNat, true)]
      ∧ u.keys.sqRevoke = s.keys.sqRevoke ++ [(n.toNat, s.fld F.CFL_SQ_KEY.INDEX n.toNat, s.fld F.CFL_SQ_KEY.VER n.toNat)]
      ∧ u.rd64 .CFL_SQ_VAL .CFL_SQ_VAL_HI n.toNat = s.rd64 .CFL_SQ_VAL .CFL_SQ_VAL_HI n.toNat) := by
  obtain ⟨t, ht, hrefuse⟩ := State.sqRefuse_exhausts (x := x) hen hrevoke hfirst
  obtain ⟨⟨q, hkeys⟩, hwords⟩ := ((s.setSqHi x 0).setFld F.CFL_SQ_CTL.EXHAUSTED n.toNat 1).sqEvent_kept n.toNat true
  rw [← ht] at hkeys hwords
  have hval : ∀ r, r = .CFL_SQ_VAL ∨ r = .CFL_SQ_VAL_HI → t.rd r n.toNat = s.rd r n.toNat := by
    rintro r (rfl | rfl)
    · exact (hwords _ _ rfl (by decide)).trans (State.rd_setFld_reg_ne _ _ _ _ _ _ (by decide))
    · exact (hwords _ _ rfl (by decide)).trans (State.rd_setFld_reg_ne _ _ _ _ _ _ (by decide))
  have hexec := exec_sqNextRead_refused (n := n) (x := x) hup (.inr (by rw [State.sqLimit_mode64 hmode]; exact hlim))
  rw [hrefuse] at hexec
  refine .of_eq hexec ⟨rfl, ?_, ?_, ?_, ?_, State.rd64_congr (hval _ (.inl rfl)) (hval _ (.inr rfl))⟩
  · change Tbl.get (fun _ => (0 : Word)) t.keys.sqHi x = 0
    rw [hkeys]
    exact s.sqHi_setSqHi x 0
  · change t.fld F.CFL_SQ_CTL.EXHAUSTED n.toNat = 1
    rw [State.fld, hwords _ _ rfl (by decide), ← State.fld]
    exact State.fld_setFld_eq _ F.CFL_SQ_CTL.EXHAUSTED _ _ (by decide) (by decide)
  · exact ht ▸ State.sqEvq_sqEvent hroom
  · change t.keys.sqRevoke ++ _ = _
    rw [hkeys]
    rfl

end

/-! ## Configuration of a counter (R348) -/

section
variable {s : State} {n : BitVec 18} {v : BitVec 32} {w : Word}

theorem exec_sqConfigWrite {r : Reg} (hup : s.reachable 1 = true) :
    exec (.sqConfigWrite r n v) s = done ((s.sqWrite r n.toNat v).answer .ok) := congrArg done (s.atChip_reachable 1 _ hup)

/-- The counter with EN and MODE64 written. -/
def State.sqCtlWritten (s : State) (k e m : Nat) : State := (s.setFld F.CFL_SQ_CTL.EN k e).setFld F.CFL_SQ_CTL.MODE64 k m

/-- The counter with EXHAUSTED and SOFT_HIT cleared. -/
def State.sqCleared (s : State) (k : Nat) : State := (s.setFld F.CFL_SQ_CTL.EXHAUSTED k 0).setFld F.CFL_SQ_CTL.SOFT_HIT k 0

/-- A write of CFL_SQ_CTL to a disabled counter; one that sets EN clears EXHAUSTED and SOFT_HIT. -/
theorem State.sqCtlWrite_disabled {k : Nat} (hen : s.fld F.CFL_SQ_CTL.EN k = 0) : s.sqCtlWrite k v
    = if v.toNat % 2 = 1 then (s.sqCtlWritten k (v.toNat % 2) (v.toNat / 2 % 2)).sqCleared k
      else s.sqCtlWritten k (v.toNat % 2) (v.toNat / 2 % 2) := by
  have hoff := s.flag_eq_false _ _ hen
  have hbit0 : fieldOf v 0 0 = v.toNat % 2 := fieldOf_low v 0
  have hbit1 : fieldOf v 1 1 = v.toNat / 2 % 2 := fieldOf_eq v 1 1
  rw [State.sqCtlWrite, hoff, if_neg (by simp), hbit0, hbit1]
  exact if_congr (and_iff_right rfl) rfl rfl

theorem State.sqCtlWritten_spec (s : State) (k e m : Nat) (he : e < 2) (hm : m < 2) : (s.sqCtlWritten k e m).fld F.CFL_SQ_CTL.EN k = e
    ∧ (s.sqCtlWritten k e m).fld F.CFL_SQ_CTL.MODE64 k = m ∧ OnlyRegs s (s.sqCtlWritten k e m) [(.CFL_SQ_CTL, k)] := by
  rw [State.sqCtlWritten]
  refine ⟨?_, State.fld_setFld_eq _ _ _ _ (by decide) hm,
    ((OnlyRegs.refl s _).setFld F.CFL_SQ_CTL.EN _ _ (.head _)).setFld F.CFL_SQ_CTL.MODE64 _ _ (.head _)⟩
  rw [State.fld_setFld_bits_ne _ _ _ _ _ _ (by decide) (by decide)]
  exact State.fld_setFld_eq _ _ _ _ (by decide) he

theorem State.sqCleared_spec (s : State) (k : Nat) : (s.sqCleared k).fld F.CFL_SQ_CTL.EXHAUSTED k = 0
    ∧ (s.sqCleared k).fld F.CFL_SQ_CTL.SOFT_HIT k = 0 ∧ (s.sqCleared k).fld F.CFL_SQ_CTL.EN k = s.fld F.CFL_SQ_CTL.EN k
    ∧ (s.sqCleared k).fld F.CFL_SQ_CTL.MODE64 k = s.fld F.CFL_SQ_CTL.MODE64 k := by
  rw [State.sqCleared]
  refine ⟨?_, State.fld_setFld_eq _ _ _ _ (by decide) (by decide), ?_, ?_⟩
  · rw [State.fld_setFld_bits_ne _ _ _ _ _ _ (by decide) (by decide)]
    exact State.fld_setFld_eq _ _ _ _ (by decide) (by decide)
  · rw [State.fld_setFld_bits_ne _ _ _ _ _ _ (by decide) (by decide), State.fld_setFld_bits_ne _ _ _ _ _ _ (by decide) (by decide)]
  · rw [State.fld_setFld_bits_ne _ _ _ _ _ _ (by decide) (by decide), State.fld_setFld_bits_ne _ _ _ _ _ _ (by decide) (by decide)]

theorem OnlyRegs.sqCleared {t : State} {k : Nat} {l : List (Reg × Nat)} (h : OnlyRegs s t l) (hl : (.CFL_SQ_CTL, k) ∈ l) :
    OnlyRegs s (t.sqCleared k) l := (h.setFld F.CFL_SQ_CTL.EXHAUSTED _ _ hl).setFld F.CFL_SQ_CTL.SOFT_HIT _ _ hl

theorem completes_sqCtlWrite (hup : s.reachable 1 = true) (hen : s.fld F.CFL_SQ_CTL.EN n.toNat = 0) :
    Completes (.sqConfigWrite .CFL_SQ_CTL n v) s (fun u => u.fld F.CFL_SQ_CTL.EN n.toNat = v.toNat % 2
      ∧ u.fld F.CFL_SQ_CTL.MODE64 n.toNat = v.toNat / 2 % 2 ∧ OnlyRegs (s.putReply .ok) u [(.CFL_SQ_CTL, n.toNat)]
      ∧ (v.toNat % 2 = 1 → u.fld F.CFL_SQ_CTL.EXHAUSTED n.toNat = 0 ∧ u.fld F.CFL_SQ_CTL.SOFT_HIT n.toNat = 0)) := by
  have hexec : exec (.sqConfigWrite .CFL_SQ_CTL n v) s = _ := (exec_sqConfigWrite hup).trans
    (congrArg (fun u => done (u.answer .ok)) (State.sqCtlWrite_disabled hen))
  obtain ⟨heffect, hmode, honly⟩ := s.sqCtlWritten_spec n.toNat (v.toNat % 2) (v.toNat / 2 % 2) (Nat.mod_lt _ (by decide))
    (Nat.mod_lt _ (by decide))
  generalize s.sqCtlWritten n.toNat (v.toNat % 2) (v.toNat / 2 % 2) = t at hexec heffect hmode honly
  by_cases henable : v.toNat % 2 = 1
  · rw [if_pos henable] at hexec
    obtain ⟨hexhausted, hsoft, heffect', hmode'⟩ := t.sqCleared_spec n.toNat
    have honly' := honly.sqCleared (.head _)
    generalize t.sqCleared n.toNat = u at hexec hexhausted hsoft heffect' hmode' honly'
    exact .of_eq hexec ⟨heffect'.trans heffect, hmode'.trans hmode, honly'.answer .ok, fun _ => ⟨hexhausted, hsoft⟩⟩
  · rw [if_neg henable] at hexec
    exact .of_eq hexec ⟨heffect, hmode, honly.answer .ok, fun h => absurd h henable⟩

theorem completes_sqValWrite (hup : s.reachable 1 = true) :
    Completes (.sqConfigWrite .CFL_SQ_VAL n v) s (fun u => u.staged .CFL_SQ_VAL n.toNat = some v
      ∧ u = (s.putStage u.stage).putReply .ok) :=
  .of_eq (t := (s.setStage .CFL_SQ_VAL n.toNat (some v)).answer .ok) (exec_sqConfigWrite hup) ⟨(State.staged_answer _ _ _ _).trans (s.staged_setStage _ _ _), rfl⟩

/-- The commit of VAL: a value whose low word is zero is stored plus one. -/
theorem completes_sqValHiWrite (hup : s.reachable 1 = true) (hen : s.fld F.CFL_SQ_CTL.EN n.toNat = 0)
    (hstaged : s.staged .CFL_SQ_VAL n.toNat = some w) :
    Completes (.sqConfigWrite .CFL_SQ_VAL_HI n v) s (fun u =>
      u.rd64 .CFL_SQ_VAL .CFL_SQ_VAL_HI n.toNat = (if w = 0 then 1 else w.toNat) + v.toNat * 2 ^ 32
      ∧ u.staged .CFL_SQ_VAL n.toNat = none ∧ RegsKept s u [(.CFL_SQ_VAL, n.toNat), (.CFL_SQ_VAL_HI, n.toNat)]) := by
  obtain ⟨k, hk⟩ : ∃ k, k = n.toNat := ⟨_, rfl⟩
  obtain ⟨t, ht⟩ : ∃ t, t = s.wr64 .CFL_SQ_VAL .CFL_SQ_VAL_HI k (sqStored (w.toNat + v.toNat * 2 ^ 32)) := ⟨_, rfl⟩
  have hwrite : s.sqWrite .CFL_SQ_VAL_HI n.toNat v = t.setStage .CFL_SQ_VAL k none := by
    have hlow : s.lowWord .CFL_SQ_VAL n.toNat = w.toNat := by rw [State.lowWord, hstaged]
    refine (if_neg (by rw [s.flag_eq_false _ _ hen]; decide)).trans ?_
    rw [hlow, ht, hk]
  have hstored : sqStored (w.toNat + v.toNat * 2 ^ 32) = (if w = 0 then 1 else w.toNat) + v.toNat * 2 ^ 32 := by
    have hw := w.isLt
    have hzero : w = 0 ↔ w.toNat = 0 := BitVec.toNat_eq
    rw [sqStored]
    by_cases h : w.toNat = 0
    · rw [if_pos (by omega), if_pos (hzero.mpr h)]
      omega
    · rw [if_neg (by omega), if_neg (fun e => h (hzero.mp e))]
  have hlt : (if w = 0 then 1 else w.toNat) + v.toNat * 2 ^ 32 < 2 ^ 64 := by
    have hw := w.isLt
    have hv := v.isLt
    split <;> omega
  have hexec : exec (.sqConfigWrite .CFL_SQ_VAL_HI n v) s = _ := (exec_sqConfigWrite hup).trans (congrArg (fun u => done (u.answer .ok)) hwrite)
  rw [hstored] at ht
  refine .of_eq hexec ⟨?_, ?_, ?_⟩
  · rw [← hk]
    exact (State.rd64_congr (s := t) rfl rfl).trans (ht ▸ s.rd64_wr64 k (by decide) hlt)
  · rw [← hk]
    rw [State.staged_answer, State.staged_setStage]
  · rw [← hk]
    have hkept : RegsKept s t [(.CFL_SQ_VAL, k), (.CFL_SQ_VAL_HI, k)] :=
      ht ▸ ((RegsKept.refl s _).wr .CFL_SQ_VAL k _ (.head _)).wr .CFL_SQ_VAL_HI k _ (.tail _ (.head _))
    exact hkept.of_regs rfl

theorem completes_sqSoftWrite (hup : s.reachable 1 = true) (hen : s.fld F.CFL_SQ_CTL.EN n.toNat = 0) :
    Completes (.sqConfigWrite .CFL_SQ_SOFT n v) s (fun u => u.rd .CFL_SQ_SOFT n.toNat = v
      ∧ OnlyRegs (s.putReply .ok) u [(.CFL_SQ_SOFT, n.toNat)]) := by
  have hwrite : s.sqWrite .CFL_SQ_SOFT n.toNat v = s.wr .CFL_SQ_SOFT n.toNat v :=
    if_neg (by rw [s.flag_eq_false _ _ hen]; decide)
  have hexec : exec (.sqConfigWrite .CFL_SQ_SOFT n v) s = _ := (exec_sqConfigWrite hup).trans (congrArg (fun u => done (u.answer .ok)) hwrite)
  exact .of_eq hexec ⟨s.rd_wr_same _ _ _, OnlyRegs.answer ⟨rfl, (RegsKept.refl s _).wr _ _ _ (.head _)⟩ .ok⟩

/-- A register that an enabled counter does not let be written: the write is counted. -/
theorem completes_sqConfigWrite_refused {r : Reg} (hup : s.reachable 1 = true) (hwrite : s.sqWrite r n.toNat v = s.sqReject) :
    Completes (.sqConfigWrite r n v) s (fun u => OnlyRegs (s.putReply .ok) u [(.CFL_SQ_REJ, 0)]
      ∧ (u.rd .CFL_SQ_REJ 0).toNat = Nat.min (2 ^ 32 - 1) ((s.rd .CFL_SQ_REJ 0).toNat + 1)) := by
  refine .of_eq ((exec_sqConfigWrite hup).trans (congrArg (fun u => done (u.answer .ok)) hwrite)) ⟨?_, ?_⟩
  · exact ((OnlyRegs.refl s _).setFld F.CFL_SQ_REJ.COUNT 0 _ (.head _)).answer .ok
  · exact s.toNat_rd_satInc (f := F.CFL_SQ_REJ.COUNT) 0 (by decide)

end

/-! ## Scheduled revokes (R349) -/

section
variable {s : State} {n : BitVec 18} {i ver : Nat} {rest : List (Nat × Nat × Nat)}

/-- A scheduled revoke takes the oldest one of its counter, and revokes only a reachable valid entry of that version. -/
theorem exec_scheduledRevoke (h : s.keys.sqRevoke = (n.toNat, i, ver) :: rest) : ∃ t, t = s.putKeys { s.keys with sqRevoke := rest }
    ∧ exec (.scheduledRevoke n) s = done (if t.keyReach i && (t.keyEntry i).valid && (t.keyEntry i).ver.toNat == ver then t.revokeEntry i else t) := by
  refine ⟨_, rfl, ?_⟩
  change execScheduledRevoke n s = _
  have holdest : s.keys.sqRevoke.find? (fun e => e.1 == n.toNat) = some (n.toNat, i, ver) := by
    rw [h]
    exact List.find?_cons_of_pos (beq_self_eq_true n.toNat)
  have hrest : s.keys.sqRevoke.erase (n.toNat, i, ver) = rest := by rw [h, List.erase_cons_head]
  rw [execScheduledRevoke, holdest, ← hrest]

theorem completes_scheduledRevoke (h : s.keys.sqRevoke = (n.toNat, i, ver) :: rest) (hlo : 1 ≤ i) (hhi : i ≤ 4095)
    (hvalid : (s.keyEntry i).valid = true) (hver : (s.keyEntry i).ver.toNat = ver) :
    Completes (.scheduledRevoke n) s (fun u => u.keys.sqRevoke = rest
      ∧ u.keyEntry i = { s.keyEntry i with valid := false, ver := (s.keyEntry i).ver + 1 }) := by
  obtain ⟨t, ht, hexec⟩ := exec_scheduledRevoke h
  have hentry : t.keyEntry i = s.keyEntry i := State.keyEntry_congr_pinned ⟨hlo, hhi⟩ (by rw [ht]; rfl)
  rw [hentry, State.keyReach_pinned ⟨hlo, hhi⟩, hvalid, if_pos (by simp [hver]), State.revokeEntry_pinned ⟨hlo, hhi⟩, hentry] at hexec
  refine .of_eq hexec ⟨?_, (State.keyEntry_congr_pinned ⟨hlo, hhi⟩ rfl).trans (State.keyEntry_setPinned _ ⟨hlo, hhi⟩)⟩
  rw [State.setFld_keys, ht]
  rfl

theorem completes_scheduledRevoke_stale (h : s.keys.sqRevoke = (n.toNat, i, ver) :: rest) (hver : (s.keyEntry i).ver.toNat ≠ ver) :
    Completes (.scheduledRevoke n) s (fun u => u.keys.sqRevoke = rest ∧ u.keyEntry i = s.keyEntry i ∧ u.regs = s.regs) := by
  obtain ⟨t, ht, hexec⟩ := exec_scheduledRevoke h
  have hentry : t.keyEntry i = s.keyEntry i := ht ▸ rfl
  rw [hentry, if_neg (by simp [hver])] at hexec
  exact .of_eq hexec ⟨ht ▸ rfl, hentry, ht ▸ rfl⟩

end

/-! ## The event queue (R350, R356) -/

section
variable {s : State} {x : Nat} {e : Bool} {rest : List (Nat × Bool)}

theorem exec_sqEvqRead (hup : s.reachable 1 = true) :
    exec .sqEvqRead s = done (s.sqEvqRead.answer (.data (s.sqEvqRead.rd .CFL_SQ_EVQ 0))) := congrArg done (s.readAt_reachable 1 _ hup)

theorem completes_sqEvqRead (h : s.keys.sqEvq = (x, e) :: rest) (hup : s.reachable 1 = true) :
    Completes .sqEvqRead s (fun u => u.keys.sqEvq = rest
      ∧ u.reply = .data (BitVec.ofNat 32 (x + (if e then 2 ^ 30 else 0) + 2 ^ 31))) := by
  have hevent : b2n e * 2 ^ 30 = if e then 2 ^ 30 else 0 := by cases e <;> rfl
  have hread : s.sqEvqRead = State.wr (s.putKeys { s.keys with sqEvq := rest }) .CFL_SQ_EVQ 0
      (BitVec.ofNat 32 (x + (if e then 2 ^ 30 else 0) + 2 ^ 31)) := by
    rw [State.sqEvqRead, h, ← hevent]
  have hexec := exec_sqEvqRead hup
  rw [hread, State.rd_wr_same] at hexec
  exact .of_eq hexec ⟨rfl, rfl⟩

theorem completes_sqEvqRead_empty (h : s.keys.sqEvq = []) (hup : s.reachable 1 = true) :
    Completes .sqEvqRead s (fun u => u.reply = .data 0 ∧ u.keys = s.keys) := by
  have hread : s.sqEvqRead = s.wr .CFL_SQ_EVQ 0 0 := by rw [State.sqEvqRead, h]
  have hexec := exec_sqEvqRead hup
  rw [hread, State.rd_wr_same] at hexec
  exact .of_eq hexec ⟨rfl, rfl⟩

end

/-- Settles O40: a read of CFL_SQ_NEXT by its outcome (granted, disabled, exhausted), the configuration by the register written, then the
scheduled revoke and the event queue. -/
theorem sequenceUnit : Obligations.SequenceUnit := by
  unfold Obligations.SequenceUnit
  intro s n v th k val lim hi rej en up
  refine ⟨completes_sqNextRead_granted, completes_sqNextRead_disabled, fun hup hen hmode hlim hroom hrevoke hfirst =>
    completes_sqNextRead_exhausted hup hen hmode hlim hroom hrevoke hfirst, completes_sqCtlWrite, completes_sqValWrite,
    fun w => completes_sqValHiWrite, completes_sqSoftWrite, fun hup hen => ?_, fun i ver rest => completes_scheduledRevoke,
    fun i ver rest => completes_scheduledRevoke_stale, fun x e rest => completes_sqEvqRead, completes_sqEvqRead_empty⟩
  have hon := s.flag_eq_true F.CFL_SQ_CTL.EN k hen
  exact ⟨completes_sqConfigWrite_refused hup (if_pos hon), completes_sqConfigWrite_refused hup (if_pos hon)⟩

end Sys2Proof.Machine
end

section
namespace Sys2Proof.Machine

/-! ## The end of a descriptor may let an Invalidation Completion go (R392, R430) -/

/-- A descriptor without words: its LEN is zero, which is malformed (R433). -/
def emptyDesc : DmaDesc :=
  { words := [], th := 0, inst := 0, gated := false, failed := false, started := false, down := false, moved := 0, held := none }

/-- Channel 0 has a malformed descriptor to start, and an ATS invalidation of function 0 of endpoint 0, whose ATS Enable is 0, has still
to be answered. -/
def invalidationState : State :=
  (State.reset.putPlat { State.reset.plat with atsWait := [(0, 0, 0)] }).setDma 0 { dmaReset with act := some emptyDesc }

/-- The end of the malformed descriptor sends the Invalidation Completion that waits. -/
theorem exec_dmaDescriptorStart_sends : ∃ t, exec (.dmaDescriptorStart 0 [] false) invalidationState = .next t
    ∧ t.out = [.atsCompletion 0 0 0] := ⟨_, rfl, by decide⟩

/-- Refutes O50: the statement has a malformed descriptor end with no message sent; a descriptor's end sends every Invalidation Completion
that no descriptor holds up any longer (R392). -/
theorem not_dmaTransfers : ¬ Obligations.DmaTransfers := by
  unfold Obligations.DmaTransfers
  intro h
  obtain ⟨hmalformed, -⟩ := h invalidationState 0 0 0 0 0 0 emptyDesc [] false 0 0
  obtain ⟨t, ht, -, -, -, hout⟩ := hmalformed ⟨by decide, rfl, rfl, rfl, by decide⟩ (by decide) rfl
  obtain ⟨u, hu, hsent⟩ := exec_dmaDescriptorStart_sends
  rw [ht] at hu
  cases hu
  rw [hout] at hsent
  exact absurd hsent (by decide)

end Sys2Proof.Machine
end
